-- ==== Sys2Proof/Word.lean ====
section
/-! DEFINITION. The word types of the module: 64-bit registers (R8), bytes of memory, and 32-bit floats. -/

namespace Sys2Proof

/-- A register of the module (R8). -/
abbrev Word := BitVec 64

/-- A byte of memory. -/
abbrev Byte := BitVec 8

/-- A bit field of a register: its lowest bit and its width. -/
abbrev Fld := Nat × Nat

/-- Bits [lo + n - 1 : lo] of `w` as a number. -/
def Word.fld (w : Word) (f : Fld) : Nat := (w.extractLsb' f.1 f.2).toNat

/-- The bits of a field, as a mask. -/
def fldMask (f : Fld) : Word := (BitVec.ofNat 64 (2 ^ f.2 - 1)) <<< f.1

/-- `w` with field `f` holding `v` (modulo the field's width). -/
def Word.setFld (w : Word) (f : Fld) (v : Nat) : Word :=
  (w &&& ~~~ (fldMask f)) ||| ((BitVec.ofNat 64 (v % 2 ^ f.2)) <<< f.1)

/-- Bits [lo + n - 1 : lo] of a number. -/
def bits (x lo n : Nat) : Nat := (x >>> lo) % 2 ^ n

/-- Bit `i` of a number. -/
def bit (x i : Nat) : Bool := x.testBit i

/-- A number with bit `i` set to `b`. -/
def setBit (x i : Nat) (b : Bool) : Nat :=
  if b then x ||| (1 <<< i) else if x.testBit i then x - 2 ^ i else x

/-- The positions below `n` at which a number has a one bit, ascending. -/
def onesOf (n x : Nat) : List Nat := (List.range n).filter (fun i => x.testBit i)

/-- How many of the `n` low bits are one. -/
def popcount (n x : Nat) : Nat := (onesOf n x).length

/-- The least number of `d`-sized pieces that hold `n` (rounding up). -/
def ceilDiv (n d : Nat) : Nat := (n + d - 1) / d

/-- The number that bytes spell, least significant first. -/
def ofBytes : List Byte → Nat
  | [] => 0
  | b :: t => b.toNat + 256 * ofBytes t

/-- The `n` bytes of a number, least significant first. -/
def toBytes : Nat → Nat → List Byte
  | 0, _ => []
  | n + 1, v => BitVec.ofNat 8 v :: toBytes n (v / 256)

/-- `n` bytes from byte position `i` of a list, missing ones zero. -/
def slice (l : List Byte) (i n : Nat) : List Byte :=
  (List.range n).map (fun j => l.getD (i + j) 0)

/-- The number of `n` bytes from byte position `i` of a list. -/
def numAt (l : List Byte) (i n : Nat) : Nat := ofBytes (slice l i n)

/-- A 32-bit two's complement reading of the low 32 bits. -/
def sint (w x : Nat) : Int :=
  let y := x % 2 ^ w
  if y < 2 ^ (w - 1) then (y : Int) else (y : Int) - 2 ^ w

/-- The `w` low bits of an integer. -/
def ofSint (w : Nat) (x : Int) : Nat := (x % (2 ^ w : Int)).toNat

end Sys2Proof
end

