-- ==== Sys2Proof/Syntax.lean ====
section
/-! DEFINITION. The commands of the module: one constructor per row of the opcode table. A command's operands are the
unit that acts, the master that writes, and what comes from outside the module. -/

namespace Sys2Proof

/-- A pass stream (R119). -/
inductive Strm where
  | f | b | u
  deriving DecidableEq, Repr

/-- A stream's number: 0 F, 1 B, 2 U. -/
def Strm.num : Strm → Nat
  | .f => 0
  | .b => 1
  | .u => 2

/-- A master of register writes (R22, R371). -/
inductive Master where
  | sec
  | host
  | core (n : Fin 64)
  deriving DecidableEq, Repr

/-- A master's number in LK_WSTATm: 0 SEC, 1 host, 2 + c server core c. -/
def Master.num : Master → Nat
  | .sec => 0
  | .host => 1
  | .core n => 2 + n.val

/-- Who accesses memory through the fabric. -/
inductive Requester where
  | sec
  | host
  | core (n : Fin 64)
  /-- Tile thread: die * 512 + number on the die. -/
  | tile (t : Fin 2048)
  /-- A unit of a stake: engine, DVU, PVU, ASU, quay unit, KVP, Towpath. -/
  | unit (k : Fin 16)
  deriving DecidableEq, Repr

/-- The errors that a command's reads meet: words of memory and of scratchpads by address (1 corrected, else uncorrectable), then
errors in the unit's own arrays: corrected and uncorrectable ones of an engine's feeder, latch and drain buffer or of a quay
unit's staging, and corrected ones of tile buffers and of PVU registers (R78, R82, R117, R190, R263). -/
structure Errs where
  mem  : List (Nat × Nat)
  buf  : Nat
  unc  : Nat
  tile : Nat
  reg  : Nat
  deriving DecidableEq, Repr

/-- No errors. -/
def Errs.none : Errs := ⟨[], 0, 0, 0, 0⟩

/-- The atomic operations of Table 7-6. -/
inductive AtomOp where
  | add
  | addF
  | minS
  | maxS
  | minU
  | maxU
  | minF
  | maxF
  | and
  | or
  | xor
  | swap
  | cas
  deriving DecidableEq, Repr

/-- A memory or register access: a read or write at a size in bytes, or (of the host) an AtomicOp with its operands. -/
inductive Access where
  | read (n : Nat)
  | write (data : List Byte)
  | atom (op : AtomOp) (size x y : Nat)
  deriving DecidableEq, Repr

/-- Direction of a ring: down sends to POSITION + 1, up the other way (R297). -/
inductive RDir where
  | dn | up
  deriving DecidableEq, Repr

/-- 0 down, 1 up. -/
def RDir.num : RDir → Nat
  | .dn => 0
  | .up => 1

/-- The AUTH field of a management request: the slot, and whether its signature over nonce, SERIAL and request verifies
(R383). -/
structure Auth where
  slot  : Nat
  sigOk : Bool
  deriving DecidableEq, Repr

/-- The header of a management request (R382). -/
structure Req where
  /-- false DOE, true MCTP on I3C. -/
  i3c    : Bool
  level  : Nat
  tag    : Nat
  /-- Reserved bits of LEVEL and FLAGS. -/
  rsvd   : Nat
  auth   : Option Auth
  deriving DecidableEq, Repr

/-- What one end of a link sends in step 4 of its training (R289, Table 12-2). -/
structure LinkOffer where
  /-- Its good-lane mask. -/
  lanes    : Nat
  modid    : Nat
  port     : Nat
  levelMin : Nat
  levelMax : Nat
  /-- Its configured width in lanes. -/
  width    : Nat
  /-- Its four receive depths. -/
  depths   : List Nat
  /-- Its final ACK of the previous session (after a full training). -/
  ack      : Nat
  deriving DecidableEq, Repr

/-- What the training of a Towpath port finds (R289, Table 12-2 steps 1 to 4): whether a signal is there and the exchange of step 4
takes place, the lanes that pass this end's pattern check, and what the partner sends. -/
structure TrainInfo extends LinkOffer where
  up       : Bool
  passed   : Nat
  deriving DecidableEq, Repr

/-- A command. -/
inductive Instr where
  -- supply, clocks and reset
  | powerOn
  | pwrOkRise
  | pwrOkFall
  | railEnable
  | railPgTimeout
  | railPowerGood (rail : Fin 8)
  | optionLoad (samples : List Nat) (slotId : Nat)
  | domainRelease (sigA sigB : Bool)
  | islandSettled (i : Fin 96)
  | weaveBootApply (sigA sigB : Bool)
  | wrstNAssert
  | wrstHoldRelease
  | wrstNDeassert
  | pcieHotReset
  | flr
  | warmPrephaseDone
  | warmPrephaseTimeout
  | watchdogExpiry
  | watchdogTick
  | lkWdogKick (m : Master)
  | securityReset
  | stakeReset (m : Master) (rivals : List Master) (k : Fin 16)
  | lkForce (m : Master) (domains : Nat)
  | supplyWarnAssert
  | braceComplete
  | supplyWarnDeassert
  | throttleChange (tj : Nat)
  | lkThrotSwWrite (m : Master) (v : Nat)
  | lkSbFaultWrite (m : Master) (b : Bool)
  | registerWrite (m : Master) (addr : Nat) (v : Word)
  | inputLoss
  | hbmStackReady (st : Fin 8)
  | journalCaptureDone
  -- weave
  | wvCmdApplyPartial (m : Master) (rivals : List Master) (k : Fin 16) (sigOk : Bool)
  | partialQuiesceBegin
  | partialCommit
  | quiesceTimeout
  -- pass streams
  | programFetch (k : Fin 16) (x : Strm)
  | nop (k : Fin 16) (x : Strm)
  | jump (k : Fin 16) (x : Strm)
  | mbegin (k : Fin 16)
  | mend (k : Fin 16)
  | seal (k : Fin 16)
  | sealLatch (k : Fin 16)
  | start (m : Master) (rivals : List Master) (k : Fin 16)
  | stop (m : Master) (rivals : List Master) (k : Fin 16)
  | resume (m : Master) (rivals : List Master) (k : Fin 16) (skip : Nat)
  | restore (m : Master) (rivals : List Master) (k : Fin 16)
  | stopComplete (k : Fin 16)
  | psqPost (m : Master) (k : Fin 16) (mask : Nat)
  | psqXlimitWrite (m : Master) (k : Fin 16) (x : Strm) (v : Nat)
  -- matrix engines
  | mxf (k : Fin 16) (x : Strm)
  | mxb (k : Fin 16) (x : Strm)
  | mxw (k : Fin 16) (x : Strm)
  | mxIssue (e : Fin 32) (latch feed drain token : Nat) (released : Bool) (errs : Errs)
  | mxComplete (e : Fin 32)
  -- drain and vector units
  | dvuRow (e : Fin 32) (wait away : Nat) (errs : Errs)
  | vx (k : Fin 16) (x : Strm)
  | vxComplete (e : Fin 32)
  | pvOp (k : Fin 16) (x : Strm)
  | pvLd (k : Fin 16) (x : Strm)
  | pvSt (k : Fin 16) (x : Strm)
  | pvSplat (k : Fin 16) (x : Strm)
  | pvLred (k : Fin 16) (x : Strm)
  | pvBcast (k : Fin 16) (x : Strm)
  | pvCmpgt (k : Fin 16) (x : Strm)
  | pvSel (k : Fin 16) (x : Strm)
  | pvCommit (p : Fin 8) (errs : Errs)
  | pvuAssist (p : Fin 8) (errs : Errs)
  -- activation stack
  | sopen (k : Fin 16) (x : Strm)
  | sclose (k : Fin 16) (x : Strm)
  | scloseIssue (k : Fin 16)
  | spop (k : Fin 16)
  | sdrop (k : Fin 16)
  | sdropIssue (k : Fin 16)
  | sbind (k : Fin 16)
  | asuSegmentPush (d : Fin 4) (k : Fin 16) (errs : Errs)
  | asuSegmentTransferDone (d : Fin 4) (k : Fin 16) (errs : Errs)
  -- quay units
  | qupd (k : Fin 16)
  | qbind (k : Fin 16)
  | qclr (k : Fin 16)
  | qemit (k : Fin 16)
  | quayOpComplete (k : Fin 16) (held : Nat) (errs : Errs)
  | quayReserve (e : Fin 32) (wait : Nat)
  | quayReservationGrant (q : Fin 16) (wait : Nat)
  | quaySliceArrive (e : Fin 32)
  | quayFold (q : Fin 16) (held : Nat) (errs : Errs)
  | reducedBlockArrive (q : Fin 16)
  | quayBoundUpdate (q : Fin 16) (errs : Errs)
  | farAtomic (q : Fin 16) (errs : Errs)
  -- gradient reduction
  | rjob (k : Fin 16)
  | rjobIssue (k : Fin 16) (errs : Errs)
  | xread (k : Fin 16)
  | sealBarge (port : Fin 12)
  | exchangeTimeout (k : Fin 16)
  | scatter8 (port : Fin 12) (errs : Errs)
  | scatter16 (port : Fin 12) (errs : Errs)
  | scatter32 (port : Fin 12) (errs : Errs)
  | req16 (port : Fin 12) (errs : Errs)
  | req32 (port : Fin 12) (errs : Errs)
  | gather (port : Fin 12)
  | gatherSend (k : Fin 16)
  | jobClose (j : Fin 64)
  | jobTimeout (j : Fin 64)
  -- attention and KV pages
  | kextend (k : Fin 16) (x : Strm)
  | kwrite (k : Fin 16) (x : Strm)
  | kgather (k : Fin 16) (x : Strm)
  | kgatherUnmoor (k : Fin 16)
  | kshare (k : Fin 16) (x : Strm)
  | kfree (k : Fin 16) (x : Strm)
  | kbasket (k : Fin 16) (x : Strm)
  | kvComplete (k : Fin 16)
  | init (m : Master) (rivals : List Master) (d : Fin 4) (k : Fin 16)
  | release (m : Master) (rivals : List Master) (d : Fin 4) (k : Fin 16)
  -- Towpath
  | tsend (k : Fin 16) (x : Strm)
  | tsendIssue (k : Fin 16)
  | tsendComplete (ring : Fin 16) (dir : RDir) (tag : Fin 16)
  | tsendTimeout (ring : Fin 16) (dir : RDir) (tag : Fin 16)
  | transferBarge (port : Fin 12) (cls : Fin 4)
  | dataFrame (port : Fin 12) (bytes : List Byte)
  | ctrlFrame (port : Fin 12) (bytes : List Byte)
  | fullTraining (port : Fin 12) (info : TrainInfo)
  | fastRetrain (port : Fin 12) (info : TrainInfo)
  | trainingRetry (port : Fin 12) (info : TrainInfo)
  | portDown (port : Fin 12)
  | takePortDown (m : Master) (rivals : List Master) (port : Fin 12)
  | twpCmdFastRetrain (m : Master) (rivals : List Master) (port : Fin 12)
  | twpCmdFullTraining (m : Master) (rivals : List Master) (port : Fin 12)
  | twpWinEnable (m : Master) (w : Fin 64) (v : Word)
  | frameLock (port : Fin 12)
  | laneLockLoss (port : Fin 12) (lane : Fin 8)
  -- cores, threads and memory; `lead` is what the base instructions of the thread or server core left in its registers since
  -- its last command (register number as in Machine.Thread or Machine.State.core, value); `dirEcc` is what a read of the directory
  -- finds: 0 good, 1 corrected, 2 uncorrectable
  | tcxLaunch (m : Master) (rivals : List Master) (d : Fin 4) (core : Fin 64) (thread : Fin 8)
  | tcxHalt (m : Master) (rivals : List Master) (d : Fin 4) (core : Fin 64) (thread : Fin 8)
  | wfi (t : Fin 2048) (lead : List (Nat × Nat))
  | rtAcq (t : Fin 2048) (lead : List (Nat × Nat)) (word : Nat)
  | rtRel (t : Fin 2048) (lead : List (Nat × Nat)) (word : Nat)
  | rtTpost (t : Fin 2048) (lead : List (Nat × Nat)) (word : Nat)
  | rtTtake (t : Fin 2048) (lead : List (Nat × Nat)) (word : Nat)
  | ttakeServe (k : Fin 16)
  | rtTwait (t : Fin 2048) (lead : List (Nat × Nat)) (word : Nat)
  | twaitReread (t : Fin 2048)
  | rtApost (t : Fin 2048) (lead : List (Nat × Nat)) (word : Nat)
  | rtSdesc (t : Fin 2048) (lead : List (Nat × Nat)) (word : Nat)
  | rtSstop (t : Fin 2048) (lead : List (Nat × Nat)) (word : Nat)
  | scratchpadAccess (r : Requester) (lead : List (Nat × Nat)) (addr : Nat) (a : Access) (errs : Errs)
  | memoryAccess (r : Requester) (lead : List (Nat × Nat)) (addr : Nat) (a : Access) (errs : Errs)
  | patrolScrub (st : Fin 8) (addr : Nat) (ecc : Nat) (raced : Bool) (last : Bool)
  | hbmStackLost (st : Fin 8) (cause : Nat)
  | hbmTempChange (st : Fin 8) (temp : Nat)
  | cxtDecCommit (m : Master) (n : Fin 8)
  | cxtDecUncommit (m : Master) (n : Fin 8)
  | cxtDecLock (m : Master) (n : Fin 8)
  | cxlLinkDown (p : Fin 4)
  | cxlLinkUp (p : Fin 4) (width speed : Nat) (flit device : Bool)
  -- coherence; `who` is numbered as in Machine.HomeReq
  | rdShared (h : Fin 20) (agent : Fin 69) (addr age dirEcc : Nat)
  | rdUnique (h : Fin 20) (agent : Fin 69) (addr age dirEcc : Nat)
  | rdOnce (h : Fin 20) (who : Fin 112) (addr age dirEcc : Nat)
  | wrFull (h : Fin 20) (who : Fin 112) (addr age dirEcc : Nat) (alloc : Bool) (data : List Byte)
  | wrMasked (h : Fin 20) (who : Fin 112) (addr age dirEcc mask : Nat) (data : List Byte)
  | atomic (h : Fin 20) (r : Requester) (lead : List (Nat × Nat)) (op : AtomOp) (addr age dirEcc size a b : Nat)
  | watch (h : Fin 20) (t : Fin 2048) (addr age dirEcc : Nat)
  | wback (h : Fin 20) (agent : Fin 69) (addr : Nat)
  | grant (h : Fin 20) (tid : Nat)
  | trackerFree (h : Fin 20)
  | snoop (h : Fin 20) (agent : Fin 69) (tid : Nat) (wback : Bool)
  | snoopAnswer (h : Fin 20) (agent : Fin 69) (tid : Nat) (err : Bool)
  | snoopTimeout (h : Fin 20) (tid : Nat)
  | quayAtomicReturn (h : Fin 20) (tid : Nat)
  | lr (h : Fin 20) (r : Requester) (lead : List (Nat × Nat)) (addr age dirEcc size : Nat)
  | sc (h : Fin 20) (r : Requester) (lead : List (Nat × Nat)) (addr age dirEcc size v : Nat)
  -- host attachment; `cfg` is what the host's configuration requests since its last access did (0 the power state, 1 MSI-X control,
  -- 2 AER status bits cleared, 3 a read of the IDs; value); `cqOk`: a write of a completion entry to host memory succeeds
  | bar0Access (cfg : List (Nat × Nat)) (off : Nat) (a : Access)
  | bar2Access (cfg : List (Nat × Nat)) (off : Nat) (a : Access) (errs : Errs)
  | hifSyncRead
  | hifCtlLinkEn (m : Master) (b : Bool)
  | hifBootGo (m : Master) (rivals : List Master) (len : Nat)
  | create (m : Master) (rivals : List Master) (n : Fin 64)
  | delete (m : Master) (rivals : List Master) (n : Fin 64)
  | restart (m : Master) (rivals : List Master) (n : Fin 64)
  | hifDbSq (m : Master) (n : Fin 64) (tail gen : Nat)
  | hifDbCq (m : Master) (n : Fin 64) (head : Nat)
  | sqFetch (n : Fin 64) (host : Option (List Byte)) (cqOk : Bool)
  | sqRefetch (n : Fin 64) (host : Option (List Byte)) (cqOk : Bool)
  | journalCommit (n : Fin 64) (cqOk : Bool)
  | hifNop (n : Fin 64)
  | hifWrite (n : Fin 64)
  | copy (n : Fin 64) (host : Option (List Byte)) (poisoned hostOk : Bool)
  | psqLimit (n : Fin 64)
  | hifPsqPost (n : Fin 64)
  | hifPsqCmd (n : Fin 64)
  | pool (n : Fin 64) (cqOk : Bool)
  | commandComplete (n : Fin 64) (cqOk : Bool)
  | hifPoolDone (m : Master) (n : Fin 64) (cid status : Nat)
  | hifPoolRingEnable (m : Master) (base : Nat)
  | irqTimer (n : Fin 64)
  | pcieLinkUp (width speed : Nat) (flit : Bool)
  | pcieLinkDown
  -- accepted work and single-part faults
  | journalReplay (k : Fin 16)
  | unitFailure (kind : Nat) (unit : Nat) (ns : Nat)
  | unitWatchdogTimeout (kind : Nat) (unit : Nat) (ns : Nat)
  -- management
  | getStatus (q : Req)
  | getNonce (q : Req)
  | getLog (q : Req) (off : Nat)
  | flashWrite (q : Req) (off : Nat) (data : List Byte)
  | flashCommit (q : Req) (region len : Nat) (sigOk : Bool)
  | flashCommitDone
  | enrollKey (q : Req) (digest : BitVec 384)
  | revokeKey (q : Req) (slot : Nat)
  | advanceRollback (q : Req) (v : Nat)
  | secretPut (q : Req) (idx : Nat) (data : List Byte)
  | debugOpen (q : Req)
  | debugOpenEraseDone
  | moduleReset (q : Req)
  | nonceExpiry
  -- attestation
  | spdmGetVersion (i3c : Bool)
  | spdmGetCapabilities (i3c : Bool) (version : Nat)
  | spdmNegotiateAlgorithms (i3c : Bool) (algOk : Bool)
  | spdmGetDigests (i3c : Bool)
  | spdmGetCertificate (i3c : Bool) (slot off len : Nat)
  | spdmChallenge (i3c : Bool) (slot : Nat) (nonce : List Byte)
  | spdmGetMeasurements (i3c : Bool) (idx : Nat) (sign : Bool)
  | spdmKeyExchange (i3c : Bool) (reqId : Nat)
  | spdmFinish (i3c : Bool) (hmacOk : Bool)
  | spdmHeartbeat (i3c : Bool)
  | spdmKeyUpdate (i3c : Bool) (op : Nat)
  | spdmEndSession (i3c : Bool)
  | doeAbort
  | doeDiscovery (index : Nat)
  -- perturbation
  | ptbArm (m : Master) (v : Word)
  deriving DecidableEq, Repr

end Sys2Proof
end

