-- ==== Sys2Proof/Decode.lean ====
section
/-! DEFINITION. No row of the command table has bits: a command of this block is an event or a write, not a word. -/

namespace Sys2Proof

/-- The command that a word spells by the bits of the command table. The table gives no row any bits, so no word spells
one. -/
def decodeTableWord (_nbits _w : Nat) : Option Instr := none

end Sys2Proof
end

