-- ==== Sys2Proof/Machine/Store.lean ====
section
/-! DEFINITION. Sparse maps as plain data: pairs of a key and a value at strictly rising keys, none holding the value
that an unlisted key reads as. Registers, memory bytes and per-unit contexts are held so. -/

namespace Sys2Proof.Machine

/-- A sparse map: pairs of key and value, strictly rising keys. -/
abbrev KMap (α : Type) := List (Nat × α)

variable {α : Type}

/-- The value listed for `k`. -/
def KMap.find (m : KMap α) (k : Nat) : Option α :=
  match m with
  | [] => none
  | p :: t => if p.1 = k then some p.2 else KMap.find t k

/-- The value at `k`, or `d` where none is listed. -/
def KMap.get (m : KMap α) (d : α) (k : Nat) : α := (KMap.find m k).getD d

/-- The map without `k`. -/
def KMap.erase (m : KMap α) (k : Nat) : KMap α :=
  match m with
  | [] => []
  | p :: t => if p.1 = k then KMap.erase t k else p :: KMap.erase t k

/-- The map with `v` listed at `k`, in its place. -/
def KMap.put (m : KMap α) (k : Nat) (v : α) : KMap α :=
  match m with
  | [] => [(k, v)]
  | p :: t => if k < p.1 then (k, v) :: p :: t else if p.1 = k then (k, v) :: t else p :: KMap.put t k v

/-- The map with `v` at `k`, in canonical form for the default `d`. -/
def KMap.set [DecidableEq α] (m : KMap α) (d : α) (k : Nat) (v : α) : KMap α :=
  if v = d then KMap.erase m k else KMap.put m k v

/-- Keys rise strictly. -/
abbrev KMap.Sorted (m : KMap α) : Prop := m.Pairwise (fun p q => p.1 < q.1)

/-- Keys rise strictly and no entry holds its key's default. -/
abbrev KMap.Canon (d : Nat → α) (m : KMap α) : Prop := KMap.Sorted m ∧ ∀ p ∈ m, p.2 ≠ d p.1

/-- The first of `n` numbers that meets a test. -/
def firstOf (n : Nat) (p : Nat → Bool) : Option Nat := (List.range n).find? p

/-- Insert a number into a sorted list without repeats. -/
def insertNat (k : Nat) : List Nat → List Nat
  | [] => [k]
  | a :: t => if k < a then k :: a :: t else if k = a then a :: t else a :: insertNat k t

/-- Set element `i` of a list (nothing where there is none). -/
def setAt (l : List α) (i : Nat) (v : α) : List α :=
  match l, i with
  | [], _ => []
  | _ :: t, 0 => v :: t
  | a :: t, n + 1 => a :: setAt t n v

/-- One row of a register table: offset in its block, repetitions (count, stride), the RW, RW1C, RC and WO bits, and the
reset value (R10). -/
structure RegRow where
  off  : Nat
  dims : List (Nat × Nat)
  rw   : Nat
  w1c  : Nat
  rc   : Nat
  wo   : Nat
  rst  : Nat
  deriving DecidableEq, Repr

/-- A register block: base address, repetitions, size, what its identification register holds (0 none, 1 engine, 2 the unit's
number, 3 quay unit) and rows (R257). -/
structure RegBlock where
  base : Nat
  dims : List (Nat × Nat)
  size : Nat
  idk  : Nat
  rows : List RegRow
  deriving DecidableEq, Repr

/-- The offset left and the index found after taking the repetitions out of an offset. -/
def takeDims : List (Nat × Nat) → Nat → Nat × Nat
  | [], o => (o, 0)
  | (c, st) :: t, o =>
    let q := min (o / st) (c - 1)
    let r := takeDims t (o - q * st)
    (r.1, q * (t.foldl (fun n d => n * d.1) 1) + r.2)

end Sys2Proof.Machine
end

