-- ==== Sys2Proof/Machine/Numbers.lean ====
section
/-! DEFINITION. Number formats, exact values, conversions and rounding, stochastic rounding, block wire formats and MX32
scales (R37-R46, R56-R60). A value is held exactly; rounding happens only where the spec rounds. -/

namespace Sys2Proof.Machine

/-- The sixteen element formats (R37, Table 2-1). -/
inductive Fmt where
  | fp32 | bf16 | fp16 | e4m3 | e5m2 | e3m2 | e2m3 | e2m1 | n12
  | int32 | int16 | int8 | uint8 | int4 | bw8 | bw16
  deriving DecidableEq, Repr

/-- The format of a 5-bit code; 0x10 to 0x1F are reserved (R37). -/
def Fmt.ofCode (c : Nat) : Option Fmt :=
  [Fmt.fp32, .bf16, .fp16, .e4m3, .e5m2, .e3m2, .e2m3, .e2m1, .n12, .int32, .int16, .int8, .uint8, .int4, .bw8, .bw16][c]?

/-- The width of an element in bits (Table 2-1). -/
def Fmt.width : Fmt → Nat
  | .fp32 | .int32 => 32
  | .bf16 | .fp16 | .int16 => 16
  | .e4m3 | .e5m2 | .int8 | .uint8 => 8
  | .e3m2 | .e2m3 => 6
  | .e2m1 | .int4 => 4
  | .n12 => 12
  | .bw8 => 8
  | .bw16 => 16

/-- Float formats of codes 0x00 to 0x08. -/
def Fmt.isFloat : Fmt → Bool
  | .fp32 | .bf16 | .fp16 | .e4m3 | .e5m2 | .e3m2 | .e2m3 | .e2m1 | .n12 => true
  | _ => false

/-- Integer formats. -/
def Fmt.isInt : Fmt → Bool
  | .int32 | .int16 | .int8 | .uint8 | .int4 => true
  | _ => false

/-- Table 2-2, matrix operand. -/
def Fmt.matrixOperand : Fmt → Bool
  | .int32 | .bw8 | .bw16 => false
  | _ => true

/-- Table 2-2, DVU and PVU element (block wire formats convert only). -/
def Fmt.element : Fmt → Bool
  | .bw8 | .bw16 => false
  | _ => true

/-- Table 2-2, stack frame. -/
def Fmt.frame : Fmt → Bool
  | .e4m3 | .e5m2 | .n12 => true
  | _ => false

/-- Table 2-2, working weight. -/
def Fmt.working : Fmt → Bool
  | .bf16 | .fp16 | .e4m3 | .e5m2 | .e3m2 | .e2m3 | .e2m1 | .int8 | .int4 => true
  | _ => false

/-- Table 2-2, reduction wire. -/
def Fmt.wire : Fmt → Bool
  | .bw8 | .bw16 => true
  | _ => false

/-- Formats that may carry MX32 scaling (R47, R58). -/
def Fmt.mx : Fmt → Bool
  | .e4m3 | .e5m2 | .e3m2 | .e2m3 | .e2m1 | .int8 => true
  | _ => false

/-- Exponent bits, fraction bits and bias of a float format (R39, Table 2-3). -/
def Fmt.parts : Fmt → Nat × Nat × Int
  | .fp32 => (8, 23, 127)
  | .bf16 => (8, 7, 127)
  | .fp16 => (5, 10, 15)
  | .e4m3 => (4, 3, 7)
  | .e5m2 => (5, 2, 15)
  | .e3m2 => (3, 2, 3)
  | .e2m3 => (2, 3, 1)
  | .e2m1 => (2, 1, 1)
  | .n12 => (5, 6, 15)
  | _ => (0, 0, 0)

/-- The code of the largest finite magnitude of a float format (Table 2-3, Table 2-4). -/
def Fmt.maxFinite : Fmt → Nat
  | .fp32 => 0x7F7FFFFF
  | .bf16 => 0x7F7F
  | .fp16 => 0x7BFF
  | .e4m3 => 0x7E
  | .e5m2 => 0x7B
  | .e3m2 => 0x1F
  | .e2m3 => 0x1F
  | .e2m1 => 0x7
  | .n12 => 0x7FF
  | _ => 0

/-- Formats whose out-of-range values become infinities (Table 2-7). -/
def Fmt.hasInf : Fmt → Bool
  | .fp32 | .bf16 | .fp16 | .e5m2 => true
  | _ => false

/-- The canonical NaN a format writes (Table 2-4); formats without NaN write +0 (Table 2-7). -/
def Fmt.canonNaN : Fmt → Nat
  | .fp32 => 0x7FC00000
  | .bf16 => 0x7FC0
  | .fp16 => 0x7E00
  | .e4m3 => 0x7F
  | .e5m2 => 0x7E
  | .n12 => 0x800
  | _ => 0

/-- An exact value: sign, magnitude `m` times 2 to the `e`, an infinity or a NaN. -/
inductive Val where
  | fin (neg : Bool) (m : Nat) (e : Int)
  | inf (neg : Bool)
  | nan
  deriving DecidableEq, Repr

/-- The value of +0. -/
def Val.zero : Val := .fin false 0 0

/-- The value a code of a format spells (R39, R40, R42). `mxint` reads INT8 as the MXINT8 element (R42). -/
def decodeElem (f : Fmt) (mxint : Bool) (x : Nat) : Val :=
  if f.isFloat then
    let (eb, fb, bias) := f.parts
    let neg := x.testBit (eb + fb)
    let e := bits x fb eb
    let fr := bits x 0 fb
    let mag := bits x 0 (eb + fb)
    if f = .n12 && decide (bits x 0 12 = 0x800) then .nan
    else if f = .e4m3 && decide (mag = 0x7F) then .nan
    else if f.hasInf && decide (e = 2 ^ eb - 1) then (if fr = 0 then .inf neg else .nan)
    else if e = 0 then .fin neg fr (1 - bias - fb)
    else .fin neg (2 ^ fb + fr) (e - bias - fb)
  else
    let w := f.width
    if f = .uint8 then .fin false (x % 256) 0
    else
      let v := sint w x
      .fin (decide (v < 0)) v.natAbs (if mxint && f = .int8 then -6 else 0)

/-- The exponent of the leading bit of a non-zero finite value. -/
def topExp (m : Nat) (e : Int) : Int := (Nat.log2 m : Int) + e

/-- `m` times 2 to the `e`, truncated to a multiple of 2 to the `q`, in units of 2 to the `q`, with the bits dropped:
numerator and exponent of the denominator. -/
def atScale (m : Nat) (e q : Int) : Nat × Nat × Nat :=
  if q ≤ e then (m <<< (e - q).toNat, 0, 0)
  else
    let d := (q - e).toNat
    (m >>> d, m % 2 ^ d, d)

/-- The rounding modes of the RND field (R56). -/
inductive Rnd where
  | rne | rtz | sr
  deriving DecidableEq, Repr

/-- The mode of an RND field; 0b11 is reserved (R56). -/
def Rnd.ofCode : Nat → Option Rnd
  | 0 => some .rne
  | 1 => some .rtz
  | 2 => some .sr
  | _ => none

/-- Round a magnitude to a multiple of 2 to the `q` (R56, R59): the multiple. `u` is the 16-bit draw of R60. -/
def roundMag (r : Rnd) (u : Nat) (m : Nat) (e q : Int) : Nat :=
  let (hi, lo, d) := atScale m e q
  match r with
  | .rtz => hi
  | .rne => if 2 * lo > 2 ^ d || (2 * lo == 2 ^ d && hi % 2 == 1) then hi + 1 else hi
  | .sr => if (lo <<< 16) >>> d + u ≥ 2 ^ 16 then hi + 1 else hi

/-- The result of a conversion: the code, and whether it is a non-finite or a saturation event (R57). -/
structure Conv where
  code   : Nat
  nonfin : Bool
  sat    : Bool
  deriving DecidableEq, Repr

/-- The code of a float magnitude with its sign; N12 has no negative zero (R40). -/
def signedCode (f : Fmt) (neg : Bool) (mag : Nat) : Nat :=
  let (eb, fb, _) := f.parts
  if neg && !(f = .n12 && mag = 0) then 2 ^ (eb + fb) + mag else mag

/-- The largest magnitude of an integer format with a sign (R42). -/
def intLimit (f : Fmt) (neg : Bool) : Nat :=
  if f = .uint8 then (if neg then 0 else 255)
  else if neg then 2 ^ (f.width - 1) else 2 ^ (f.width - 1) - 1

/-- Convert an exact value to an element format (R56, R57, Table 2-7). `mxint` writes INT8 as MXINT8. -/
def convert (f : Fmt) (mxint : Bool) (r : Rnd) (u : Nat) (v : Val) : Conv :=
  if f.isFloat then
    let (eb, fb, bias) := f.parts
    match v with
    | .nan => ⟨f.canonNaN, true, false⟩
    | .inf neg => ⟨if f.hasInf then signedCode f neg ((2 ^ eb - 1) * 2 ^ fb) else signedCode f neg f.maxFinite, true, false⟩
    | .fin neg 0 _ => ⟨signedCode f neg 0, false, false⟩
    | .fin neg m e =>
      let q := max (topExp m e) (1 - bias) - fb
      let k := roundMag r u m e q
      let be : Nat := (q + fb + bias - 1).toNat
      let mag := be * 2 ^ fb + k
      if mag ≤ f.maxFinite then ⟨signedCode f neg mag, false, false⟩
      else if f.hasInf && r ≠ .rtz then ⟨signedCode f neg ((2 ^ eb - 1) * 2 ^ fb), true, false⟩
      else ⟨signedCode f neg f.maxFinite, false, true⟩
  else
    let q : Int := if mxint && f = .int8 then -6 else 0
    match v with
    | .nan => ⟨0, true, false⟩
    | .inf neg =>
      let l := intLimit f neg
      ⟨ofSint f.width (if neg then -(l : Int) else l), true, false⟩
    | .fin neg m e =>
      let k := roundMag r u m e q
      let l := intLimit f neg
      let k' := min k l
      ⟨ofSint f.width (if neg then -(k' : Int) else k'), false, decide (l < k)⟩

/-- An exact value rounded to FP32, ties to even; the code. -/
def rne32 (v : Val) : Nat := (convert .fp32 false .rne 0 v).code

/-- The value of an FP32 code. -/
def val32 (x : Nat) : Val := decodeElem .fp32 false x

/-- The canonical FP32 NaN (R40). -/
def nan32 : Nat := 0x7FC00000

/-- 1.0 in FP32. -/
def one32 : Nat := 0x3F800000

/-- An FP32 code as the module writes it: every NaN is the canonical one (R40). -/
def canon32 (x : Nat) : Nat := rne32 (val32 x)

/-- An FP32 code is a NaN. -/
def isNaN32 (x : Nat) : Bool := decide (0x7F800000 < x % 2 ^ 31)

/-- An FP32 code is an infinity. -/
def isInf32 (x : Nat) : Bool := decide (x % 2 ^ 31 = 0x7F800000)

/-- An FP32 code is finite. -/
def isFin32 (x : Nat) : Bool := decide (x % 2 ^ 31 < 0x7F800000)

/-- The integer a finite value is in units of 2 to the `q`, for `q` no larger than its exponent. -/
def Val.units (q : Int) : Val → Int
  | .fin neg m e => let k : Int := ((m <<< (e - q).toNat : Nat) : Int); if neg then -k else k
  | _ => 0

/-- The exact value of an integer times 2 to the `q`. -/
def Val.ofUnits (k : Int) (q : Int) : Val := .fin (decide (k < 0)) k.natAbs q

/-- IEEE addition of exact values (one rounding follows): the sum of opposite zeros, and of cancelling values, is +0. -/
def Val.add (a b : Val) : Val :=
  match a, b with
  | .nan, _ => .nan
  | _, .nan => .nan
  | .inf s, .inf t => if s = t then .inf s else .nan
  | .inf s, _ => .inf s
  | _, .inf t => .inf t
  | .fin s m e, .fin t n g =>
    let q := min e g
    let k := Val.units q (.fin s m e) + Val.units q (.fin t n g)
    if k = 0 then .fin (s && t) 0 0 else Val.ofUnits k q

/-- The negated value. -/
def Val.neg : Val → Val
  | .fin s m e => .fin (!s) m e
  | .inf s => .inf (!s)
  | .nan => .nan

/-- The magnitude. -/
def Val.abs : Val → Val
  | .fin _ m e => .fin false m e
  | .inf _ => .inf false
  | .nan => .nan

/-- Exact product; an infinity times zero is a NaN (R53). -/
def Val.mul (a b : Val) : Val :=
  match a, b with
  | .nan, _ => .nan
  | _, .nan => .nan
  | .inf s, .inf t => .inf (s != t)
  | .inf s, .fin t m _ => if m = 0 then .nan else .inf (s != t)
  | .fin s m _, .inf t => if m = 0 then .nan else .inf (s != t)
  | .fin s m e, .fin t n g => .fin (s != t) (m * n) (e + g)

/-- A value times a power of two. -/
def Val.scale (x : Int) : Val → Val
  | .fin s m e => .fin s m (e + x)
  | v => v

/-- `a` is below `b`, for values that are not NaN. -/
def Val.lt (a b : Val) : Bool :=
  match a, b with
  | .nan, _ => false
  | _, .nan => false
  | .inf s, .inf t => s && !t
  | .inf s, _ => s
  | _, .inf t => !t
  | .fin s m e, .fin t n g =>
    let q := min e g
    decide (Val.units q (.fin s m e) < Val.units q (.fin t n g))

/-- The FP32 value of a signed integer, rounded to nearest even (R55). -/
def intTo32 (x : Int) : Nat := rne32 (Val.ofUnits x 0)

/-- FP32 addition, subtraction and multiplication, each with one rounding (R54). -/
def add32 (a b : Nat) : Nat := rne32 (Val.add (val32 a) (val32 b))

/-- FP32 subtraction. -/
def sub32 (a b : Nat) : Nat := rne32 (Val.add (val32 a) (Val.neg (val32 b)))

/-- FP32 multiplication. -/
def mul32 (a b : Nat) : Nat := rne32 (Val.mul (val32 a) (val32 b))

/-- The quotient of two magnitudes rounded to FP32, ties to even: exact to 64 further bits with a sticky bit. -/
def divMag (s : Bool) (m : Nat) (e : Int) (n : Nat) (g : Int) : Nat :=
  let k := 64 + Nat.log2 n
  let q := (m <<< k) / n
  let st := if (m <<< k) % n = 0 then 0 else 1
  rne32 (.fin s (2 * q + st) (e - g - k - 1))

/-- FP32 division with one rounding. -/
def div32 (a b : Nat) : Nat :=
  match val32 a, val32 b with
  | .nan, _ => nan32
  | _, .nan => nan32
  | .inf _, .inf _ => nan32
  | .inf s, .fin t _ _ => rne32 (.inf (s != t))
  | .fin s _ _, .inf t => rne32 (.fin (s != t) 0 0)
  | .fin s m e, .fin t n g =>
    if n = 0 then (if m = 0 then nan32 else rne32 (.inf (s != t)))
    else if m = 0 then rne32 (.fin (s != t) 0 0)
    else divMag (s != t) m e n g

/-- The integer square root of a number below 2 to the 128. -/
def isqrt (n : Nat) : Nat :=
  (List.range 64).foldl (fun r i => let t := r + 2 ^ (63 - i); if t * t ≤ n then t else r) 0

/-- FP32 square root with one rounding; of a negative non-zero value a NaN. -/
def sqrt32 (a : Nat) : Nat :=
  match val32 a with
  | .nan => nan32
  | .inf s => if s then nan32 else rne32 (.inf false)
  | .fin s m e =>
    if m = 0 then a % 2 ^ 32
    else if s then nan32
    else
      let ee := e - 80
      let odd := if ee % 2 = 0 then 0 else 1
      let n := m <<< (80 + odd)
      let r := isqrt n
      let st := if r * r = n then 0 else 1
      rne32 (.fin false (2 * r + st) ((ee - odd) / 2 - 1))

/-- `rne32` of a list summed in order from +0, each addition rounded. -/
def sum32 (l : List Nat) : Nat := l.foldl add32 0

/-! ### stochastic rounding (R59, R60) -/

/-- The mixing function of R60. -/
def mix (z0 : Nat) : Nat :=
  let z1 := z0 ^^^ (z0 >>> 31)
  let z2 := (z1 * 0xA24B1F6D3E95C0B7) % 2 ^ 64
  let z3 := z2 ^^^ (z2 >>> 29)
  let z4 := (z3 * 0x6C8E9CF571932D45) % 2 ^ 64
  z4 ^^^ (z4 >>> 32)

/-- What a stochastically rounded operation draws from: seed, low half of the step, SR tag (R60). -/
structure SrKey where
  seed : Nat
  step : Nat
  ctx  : Nat
  deriving DecidableEq, Repr

/-- The 16-bit draw for element `idx` (R60). -/
def SrKey.draw (k : SrKey) (idx : Nat) : Nat :=
  let key := mix ((k.seed ^^^ ((k.step % 2 ^ 32) <<< 32)) ^^^ (k.ctx % 2 ^ 32))
  mix ((key + idx) % 2 ^ 64) >>> 48

/-! ### block wire formats (R43, R44) -/

/-- A mantissa of BWw from an FP32 code under block exponent `E`, and whether it saturated (R44). -/
def toBw (w E : Nat) (x : Nat) : Int × Bool :=
  let l : Nat := 2 ^ (w - 1) - 1
  match val32 x with
  | .nan => (0, true)
  | .inf s => (if s then -(l : Int) else l, true)
  | .fin s m e =>
    let k := roundMag .rne 0 (m) (e + (127 + w - 2 - E : Int)) 0
    let k' := min k l
    (if s then -(k' : Int) else k', decide (l < k))

/-- The FP32 code of a mantissa of BWw under block exponent `E`: exact; 0xFF marks NaN (R43, R44). DESIGN CHOICE (log 45), unsafe: the one
value that FP32 does not hold, −2^128 (the mantissa −128 or −32,768 under 0xFE), is −∞. -/
def ofBw (w E : Nat) (m : Int) : Nat :=
  if E = 0xFF then nan32 else rne32 (Val.ofUnits m ((E : Int) - 127 - (w - 2 : Int)))

/-! ### MX32 scales (R46, R58) -/

/-- The factor of an E8M0 scale byte: a power of two, or a NaN (R46). -/
def mxScale (e : Nat) : Option Int := if e = 0xFF then none else some ((e : Int) - 127)

/-- emax_elem of R58. -/
def Fmt.mxEmax : Fmt → Int
  | .e4m3 => 8
  | .e5m2 => 15
  | .e3m2 => 4
  | .e2m3 => 2
  | .e2m1 => 2
  | _ => 0

/-- The largest leading-bit exponent of the finite non-zero values of a block. -/
def blockTop (l : List Val) : Option Int :=
  l.foldl (fun a v => match v with
    | .fin _ m e => if m = 0 then a else some (match a with | none => topExp m e | some t => max t (topExp m e))
    | _ => a) none

/-- The scale byte of a block (R58). -/
def mxScaleOf (f : Fmt) (l : List Val) : Nat :=
  if l.any (· == .nan) then 0xFF
  else match blockTop l with
    | none => 0
    | some t => (max 0 (min 254 (127 + t - f.mxEmax))).toNat

/-- Write a block of up to 32 values with MX32 scaling: the scale byte and the conversions; `us` are the draws. -/
def mxWrite (f : Fmt) (r : Rnd) (us : List Nat) (l : List Val) : Nat × List Conv :=
  let e := mxScaleOf f l
  if e = 0xFF then
    (e, l.map (fun v => ⟨0, match v with | .fin _ _ _ => false | _ => true, false⟩))
  else
    (e, (l.zip us).map (fun p => convert f true r p.2 (Val.scale (127 - e) p.1)))

end Sys2Proof.Machine
end

