-- ==== Sys2Proof/Machine/Dot.lean ====
section
/-! DEFINITION. The exact dot product of a lane: groups, the 80-bit window, special values, the accumulators (R47-R55). -/

namespace Sys2Proof.Machine

/-- Two operand formats may pair (R47). `mx`: the scale mode includes MX32. -/
def mayPair (a b : Fmt) (mx : Bool) : Bool :=
  if mx then a.mx && b.mx
  else (a.isFloat && b.isFloat) ||
    ((a = .int16 || a = .int8 || a = .uint8 || a = .int4) && (b = .int16 || b = .int8 || b = .uint8 || b = .int4))

/-- The pairing accumulates as an integer (R47, R55). -/
def intPair (a b : Fmt) (mx : Bool) : Bool := !mx && a.isInt && b.isInt

/-- The largest leading-bit exponent of the non-zero finite products of a group (R50). -/
def groupTop (ps : List Val) : Option Int := blockTop ps

/-- A product truncated toward zero to window units (R50). -/
def windowUnits (q : Int) : Val → Int
  | .fin s m e => let k : Int := (atScale m e q).1; if s then -k else k
  | _ => 0

/-- The group has an infinite product of the given sign. -/
def hasInfOf (s : Bool) (ps : List Val) : Bool :=
  ps.any (fun v => match v with | .inf t => t == s | _ => false)

/-- The FP32 group sum of exact products (R50-R54). `nanIn`: an operand element or a scale of the group is a NaN. -/
def groupSum (nanIn : Bool) (ps : List Val) : Nat :=
  if nanIn || ps.any (· == .nan) || (hasInfOf false ps && hasInfOf true ps) then nan32
  else if hasInfOf false ps then rne32 (.inf false)
  else if hasInfOf true ps then rne32 (.inf true)
  else match groupTop ps with
    | none => 0
    | some t =>
      let q := t - 70
      let win := (ps.map (windowUnits q)).foldl (· + ·) 0
      if win = 0 then 0 else rne32 (Val.ofUnits win q)

/-- Cut a list into pieces of `n` (`fuel` at least its length). -/
def chunks {α : Type} (n : Nat) : Nat → List α → List (List α)
  | 0, _ => []
  | fuel + 1, l => if l.isEmpty then [] else l.take n :: chunks n fuel (l.drop n)

/-- An operand element with its MX32 scale: the exact value, NaN where either is. -/
def scaled (v : Val) (sc : Option Int) : Val :=
  match sc with
  | none => .nan
  | some x => Val.scale x v

/-- The FP32 accumulation of a lane over its groups in ascending K order (R49, R54): operand values (scales included),
group size and accumulator input. -/
def dotFloat (group : Nat) (acc : Nat) (xs ws : List Val) : Nat :=
  let ps := (xs.zip ws).map (fun p => (p.1, p.2))
  (chunks group ps.length ps).foldl (fun a g =>
    add32 a (groupSum (g.any (fun p => p.1 == .nan || p.2 == .nan)) (g.map (fun p => Val.mul p.1 p.2)))) acc

/-- Clamp to or wrap into the INT32 range (R55). -/
def intAcc (sat : Bool) (x : Int) : Int :=
  if sat then max (-(2 ^ 31)) (min (2 ^ 31 - 1) x) else sint 32 (ofSint 32 x)

/-- The INT32 accumulation of a lane over its groups in ascending K order (R55). -/
def dotInt (sat : Bool) (acc : Int) (xs ws : List Int) : Int :=
  let ps := (xs.zip ws).map (fun p => p.1 * p.2)
  (chunks 256 ps.length ps).foldl (fun a g => intAcc sat (a + g.foldl (· + ·) 0)) acc

/-- The scaled result of a lane under ROW (R45): acc times the product of the two scales, each product rounded. -/
def rowScale (acc sx sw : Nat) : Nat := mul32 acc (mul32 sx sw)

end Sys2Proof.Machine
end

