-- ==== Sys2Proof/Config.lean ====
section
/-! DEFINITION. What the spec leaves open: each open value is an uninterpreted constant (no body), applied to what it
may depend on; a statement about one holds for every value of it. -/

namespace Sys2Proof.Config

/-- DESIGN CHOICE (log 4), safe: a byte of memory whose contents the spec leaves undefined (HBM and scratchpads before
they are written after a loss, R82, R344): by the loss's number and the address. -/
opaque freeByte (stamp addr : Nat) : Byte

/-- DESIGN CHOICE (log 5), safe: a word that the spec leaves open, by its number in the run. -/
opaque freeWord (n : Nat) : Word

/-- DESIGN CHOICE (log 6), safe: which of the codes within 2 units in the last place of the correctly rounded value the fixed
algorithm of an OP code of Table 4-6 gives for an FP32 code (R97, R102). -/
opaque ulps (op x : Nat) : Nat

/-- DESIGN CHOICE (log 6), safe: GELU and SILU of −∞, which the spec does not state, by OP code. -/
opaque edge32 (op : Nat) : BitVec 32

/-- DESIGN CHOICE (log 7), safe: element m of a PVU register for a row m at or above 256, which the spec does not give. -/
opaque pvuBeyond (m : Nat) : BitVec 32

/-- DESIGN CHOICE (log 22), safe: the directory set of a line at a home, which the spec does not give (R274, R275). -/
opaque dirSet (home line : Nat) : Nat

/-- DESIGN CHOICE (log 14), safe: the contents of a region of the boot flash at manufacture (R376). -/
opaque factoryFlash (region : Nat) : List Byte

/-- DESIGN CHOICE (log 14), safe: the digest of Plynser's own signing key in KEY0 (R375). -/
opaque factoryKey : BitVec 384

/-- DESIGN CHOICE (log 14), safe: the SERIAL fuses (R375). -/
opaque serial : BitVec 64

/-- DESIGN CHOICE (log 14), safe: the stepping of the part (GLB_ID). -/
opaque stepping : Nat

/-- DESIGN CHOICE (log 14), safe: the POLICY_LOCK fuse (R375). -/
opaque policyLock : Bool

/-- DESIGN CHOICE (log 14), safe: the digest of the ROM (R378). -/
opaque romDigest : BitVec 384

/-- DESIGN CHOICE (log 14), safe: the MODID that a part sends until it is written (TWP_MODID). -/
opaque modid : BitVec 64

/-- DESIGN CHOICE (log 27), safe: the bytes in which GET_LOG returns the event log, whose layout the spec does not give (R378). -/
opaque logBytes (log : List (Nat × BitVec 384)) : List Byte

/-- DESIGN CHOICE (log 27), safe: the certificate of the Alias key, by measurement 1 and the key's generation (R379). -/
opaque aliasCert (m1 : BitVec 384) (gen : Nat) : List Byte

end Sys2Proof.Config
end

