-- ==== Sys2Proof/Machine/Regs.lean ====
section
/-! DEFINITION. The registers of the module by address (R8, R10, R257): one address function per register of the
register tables, one bit range per field, and the access masks and reset values of every register. -/

namespace Sys2Proof.Machine

/-! ### global registers -/
/-- GLB_ID (01_weave.md). -/
def R.glbId : Nat := 0x3000000000000
def F.glbIdVendor : Fld := (0, 16)
def F.glbIdPart : Fld := (16, 16)
def F.glbIdStepping : Fld := (32, 8)
/-- GLB_CAP (01_weave.md). -/
def R.glbCap : Nat := 0x3000000000008
def F.glbCapEngines : Fld := (0, 6)
def F.glbCapTileCores : Fld := (6, 9)
def F.glbCapStakes : Fld := (15, 5)
def F.glbCapJobs : Fld := (20, 7)
def F.glbCapQpairs : Fld := (27, 7)
def F.glbCapTports : Fld := (34, 4)
/-- GLB_ARCH_LEVEL (01_weave.md). -/
def R.glbArchLevel : Nat := 0x3000000000010
def F.glbArchLevelArchLevel : Fld := (0, 4)
def F.glbArchLevelLevelMin : Fld := (4, 4)
def F.glbArchLevelLevelMax : Fld := (8, 4)
/-- GLB_FMT_CAP (02_numbers.md). -/
def R.glbFmtCap : Nat := 0x3000000000018
def F.glbFmtCapFormats : Fld := (0, 32)
def F.glbFmtCapScaleModes : Fld := (32, 4)
def F.glbFmtCapRoundModes : Fld := (36, 4)
def F.glbFmtCapWindowBits : Fld := (40, 8)
def F.glbFmtCapMxBlock : Fld := (48, 8)

/-! ### weave registers -/
/-- WV_IMAGE_ID (01_weave.md). -/
def R.wvImageId : Nat := 0x3000000100000
def F.wvImageIdImageId : Fld := (0, 64)
/-- WV_VERSION (01_weave.md). -/
def R.wvVersion : Nat := 0x3000000100008
def F.wvVersionVersion : Fld := (0, 32)
def F.wvVersionSecVersion : Fld := (32, 32)
/-- WV_STATUS (01_weave.md). -/
def R.wvStatus : Nat := 0x3000000100010
def F.wvStatusState : Fld := (0, 2)
def F.wvStatusSrc : Fld := (2, 2)
def F.wvStatusLevel : Fld := (4, 4)
def F.wvStatusPartStake : Fld := (8, 4)
def F.wvStatusPartBusy : Fld := (12, 1)
def F.wvStatusStakes : Fld := (32, 16)
/-- WV_GEN (01_weave.md). -/
def R.wvGen : Nat := 0x3000000100018
def F.wvGenGen : Fld := (0, 32)
/-- WV_CMD (01_weave.md). -/
def R.wvCmd : Nat := 0x3000000100020
def F.wvCmdCmd : Fld := (0, 4)
def F.wvCmdStake : Fld := (8, 4)
/-- WV_PART_ADDR (01_weave.md). -/
def R.wvPartAddr : Nat := 0x3000000100028
def F.wvPartAddrAddr : Fld := (12, 40)
/-- WV_PART_LEN (01_weave.md). -/
def R.wvPartLen : Nat := 0x3000000100030
def F.wvPartLenLen : Fld := (0, 21)
/-- WV_ERR (01_weave.md). -/
def R.wvErr : Nat := 0x3000000100038
def F.wvErrCode : Fld := (0, 8)
def F.wvErrSection : Fld := (8, 8)
def F.wvErrRecord : Fld := (16, 16)
def F.wvErrStake : Fld := (32, 4)
def F.wvErrPartial : Fld := (36, 1)
/-- WV_PART_RESULT (01_weave.md). -/
def R.wvPartResult : Nat := 0x3000000100040
def F.wvPartResultOutcome : Fld := (0, 2)
def F.wvPartResultEpochEnded : Fld := (2, 1)
def F.wvPartResultLastSeq : Fld := (16, 48)
/-- WV_QUIESCE_LIMIT (01_weave.md). -/
def R.wvQuiesceLimit : Nat := 0x3000000100048
def F.wvQuiesceLimitLimit : Fld := (0, 32)
/-- WV_DIGEST (01_weave.md). -/
def R.wvDigest (i : Nat) : Nat := 0x3000000100050 + i * 8
def F.wvDigestDigest : Fld := (0, 64)
/-- WV_STK_ENG (01_weave.md). -/
def R.wvStkEng (s : Nat) : Nat := 0x3000000100100 + s * 0x40
def F.wvStkEngEngMask : Fld := (0, 32)
def F.wvStkEngPvuMask : Fld := (32, 8)
def F.wvStkEngMbLimit : Fld := (40, 5)
def F.wvStkEngSpadShare : Fld := (45, 8)
/-- WV_STK_TC (01_weave.md). -/
def R.wvStkTc (s i : Nat) : Nat := 0x3000000100108 + s * 0x40 + i * 8
def F.wvStkTcTc : Fld := (0, 64)
/-- WV_STK_CH (01_weave.md). -/
def R.wvStkCh (s i : Nat) : Nat := 0x3000000100128 + s * 0x40 + i * 8
def F.wvStkChCh : Fld := (0, 64)
/-- WV_STK_FMT (01_weave.md). -/
def R.wvStkFmt (s : Nat) : Nat := 0x3000000100138 + s * 0x40
def F.wvStkFmtWfmt : Fld := (0, 5)
def F.wvStkFmtFfmt : Fld := (8, 5)
def F.wvStkFmtXfmt : Fld := (16, 5)
def F.wvStkFmtMaster12 : Fld := (24, 1)
def F.wvStkFmtGroup : Fld := (32, 8)
def F.wvStkFmtJobBase : Fld := (40, 8)
def F.wvStkFmtJobCount : Fld := (48, 8)
def F.wvStkFmtLevel : Fld := (56, 4)

/-! ### matrix engine and DVU registers -/
/-- MXE_ID (03_matrix_engine.md). -/
def R.mxeId (e : Nat) : Nat := 0x3000001000000 + (e / 8) * 0x400000 + (e % 8) * 0x10000
def F.mxeIdEngine : Fld := (0, 5)
def F.mxeIdDie : Fld := (5, 2)
/-- MXE_STATUS (03_matrix_engine.md). -/
def R.mxeStatus (e : Nat) : Nat := 0x3000001000008 + (e / 8) * 0x400000 + (e % 8) * 0x10000
def F.mxeStatusState : Fld := (0, 3)
def F.mxeStatusStake : Fld := (8, 4)
def F.mxeStatusPrepared : Fld := (16, 2)
def F.mxeStatusShadowValid : Fld := (18, 1)
/-- MXE_DTBL (03_matrix_engine.md). -/
def R.mxeDtbl (e : Nat) : Nat := 0x3000001000010 + (e / 8) * 0x400000 + (e % 8) * 0x10000
def F.mxeDtblBase : Fld := (12, 40)
/-- MXE_DTBL_LEN (03_matrix_engine.md). -/
def R.mxeDtblLen (e : Nat) : Nat := 0x3000001000018 + (e / 8) * 0x400000 + (e % 8) * 0x10000
def F.mxeDtblLenEntries : Fld := (0, 17)
/-- MXE_ERR (03_matrix_engine.md). -/
def R.mxeErr (e : Nat) : Nat := 0x3000001000020 + (e / 8) * 0x400000 + (e % 8) * 0x10000
def F.mxeErrCode : Fld := (0, 8)
def F.mxeErrStream : Fld := (8, 2)
def F.mxeErrIndex : Fld := (16, 32)
/-- MXE_ECC (03_matrix_engine.md). -/
def R.mxeEcc (e : Nat) : Nat := 0x3000001000028 + (e / 8) * 0x400000 + (e % 8) * 0x10000
def F.mxeEccCorr : Fld := (0, 16)
def F.mxeEccUncorr : Fld := (16, 16)
/-- MXE_CNT_ISSUE (03_matrix_engine.md). -/
def R.mxeCntIssue (e : Nat) : Nat := 0x3000001000040 + (e / 8) * 0x400000 + (e % 8) * 0x10000
def F.mxeCntIssueIssued : Fld := (0, 64)
/-- MXE_CNT_STREAM (03_matrix_engine.md). -/
def R.mxeCntStream (e : Nat) : Nat := 0x3000001000048 + (e / 8) * 0x400000 + (e % 8) * 0x10000
def F.mxeCntStreamCycles : Fld := (0, 64)
/-- MXE_CNT_LATCH (03_matrix_engine.md). -/
def R.mxeCntLatch (e : Nat) : Nat := 0x3000001000050 + (e / 8) * 0x400000 + (e % 8) * 0x10000
def F.mxeCntLatchCycles : Fld := (0, 64)
/-- MXE_CNT_FEED (03_matrix_engine.md). -/
def R.mxeCntFeed (e : Nat) : Nat := 0x3000001000058 + (e / 8) * 0x400000 + (e % 8) * 0x10000
def F.mxeCntFeedCycles : Fld := (0, 64)
/-- MXE_CNT_DRAIN (03_matrix_engine.md). -/
def R.mxeCntDrain (e : Nat) : Nat := 0x3000001000060 + (e / 8) * 0x400000 + (e % 8) * 0x10000
def F.mxeCntDrainCycles : Fld := (0, 64)
/-- MXE_CNT_TOKEN (03_matrix_engine.md). -/
def R.mxeCntToken (e : Nat) : Nat := 0x3000001000068 + (e / 8) * 0x400000 + (e % 8) * 0x10000
def F.mxeCntTokenCycles : Fld := (0, 64)
/-- MXE_CNT_MACS (03_matrix_engine.md). -/
def R.mxeCntMacs (e : Nat) : Nat := 0x3000001000070 + (e / 8) * 0x400000 + (e % 8) * 0x10000
def F.mxeCntMacsMacs : Fld := (0, 64)
/-- VEC_DVU_STATUS (04_drain_vector.md). -/
def R.vecDvuStatus (e : Nat) : Nat := 0x3000001000100 + (e / 8) * 0x400000 + (e % 8) * 0x10000
def F.vecDvuStatusState : Fld := (0, 2)
def F.vecDvuStatusDrainTiles : Fld := (2, 2)
def F.vecDvuStatusAuxTiles : Fld := (4, 2)
def F.vecDvuStatusSrc2Wait : Fld := (8, 1)
def F.vecDvuStatusDstWait : Fld := (9, 1)
/-- VEC_CTBL (04_drain_vector.md). -/
def R.vecCtbl (e : Nat) : Nat := 0x3000001000108 + (e / 8) * 0x400000 + (e % 8) * 0x10000
def F.vecCtblBase : Fld := (12, 40)
/-- VEC_CTBL_LEN (04_drain_vector.md). -/
def R.vecCtblLen (e : Nat) : Nat := 0x3000001000110 + (e / 8) * 0x400000 + (e % 8) * 0x10000
def F.vecCtblLenEntries : Fld := (0, 17)
/-- VEC_DVU_ERR (04_drain_vector.md). -/
def R.vecDvuErr (e : Nat) : Nat := 0x3000001000118 + (e / 8) * 0x400000 + (e % 8) * 0x10000
def F.vecDvuErrCode : Fld := (0, 8)
def F.vecDvuErrStream : Fld := (8, 2)
def F.vecDvuErrIndex : Fld := (16, 32)
/-- VEC_DVU_EVT (04_drain_vector.md). -/
def R.vecDvuEvt (e : Nat) : Nat := 0x3000001000120 + (e / 8) * 0x400000 + (e % 8) * 0x10000
def F.vecDvuEvtNonfin : Fld := (0, 24)
def F.vecDvuEvtSat : Fld := (24, 24)
def F.vecDvuEvtEccCorr : Fld := (48, 16)
/-- VEC_DVU_CNT_ROWS (04_drain_vector.md). -/
def R.vecDvuCntRows (e : Nat) : Nat := 0x3000001000128 + (e / 8) * 0x400000 + (e % 8) * 0x10000
def F.vecDvuCntRowsRows : Fld := (0, 64)
/-- VEC_DVU_CNT_WAIT (04_drain_vector.md). -/
def R.vecDvuCntWait (e : Nat) : Nat := 0x3000001000130 + (e / 8) * 0x400000 + (e % 8) * 0x10000
def F.vecDvuCntWaitCycles : Fld := (0, 64)

/-! ### PVU registers -/
/-- VEC_PVU_ID (04_drain_vector.md). -/
def R.vecPvuId (v : Nat) : Nat := 0x3000001080000 + (v / 2) * 0x400000 + (v % 2) * 0x10000
def F.vecPvuIdPvu : Fld := (0, 3)
/-- VEC_PVU_STATUS (04_drain_vector.md). -/
def R.vecPvuStatus (v : Nat) : Nat := 0x3000001080008 + (v / 2) * 0x400000 + (v % 2) * 0x10000
def F.vecPvuStatusState : Fld := (0, 2)
def F.vecPvuStatusStake : Fld := (8, 4)
def F.vecPvuStatusAqPending : Fld := (16, 7)
/-- VEC_PVU_BACK (04_drain_vector.md). -/
def R.vecPvuBack (v : Nat) : Nat := 0x3000001080010 + (v / 2) * 0x400000 + (v % 2) * 0x10000
def F.vecPvuBackBase : Fld := (15, 37)
/-- VEC_PVU_AQ (04_drain_vector.md). -/
def R.vecPvuAq (v : Nat) : Nat := 0x3000001080018 + (v / 2) * 0x400000 + (v % 2) * 0x10000
def F.vecPvuAqBase : Fld := (12, 40)
def F.vecPvuAqEnable : Fld := (63, 1)
/-- VEC_PVU_ERR (04_drain_vector.md). -/
def R.vecPvuErr (v : Nat) : Nat := 0x3000001080020 + (v / 2) * 0x400000 + (v % 2) * 0x10000
def F.vecPvuErrCode : Fld := (0, 8)
def F.vecPvuErrStream : Fld := (8, 2)
def F.vecPvuErrAssist : Fld := (10, 1)
def F.vecPvuErrIndex : Fld := (16, 32)
def F.vecPvuErrEccCorr : Fld := (48, 16)
/-- VEC_PVU_CNT_OPS (04_drain_vector.md). -/
def R.vecPvuCntOps (v : Nat) : Nat := 0x3000001080028 + (v / 2) * 0x400000 + (v % 2) * 0x10000
def F.vecPvuCntOpsOps : Fld := (0, 64)

/-! ### pass sequencer registers -/
/-- PSQ_ID (05_passes.md). -/
def R.psqId (k : Nat) : Nat := 0x3000002000000 + k * 0x10000
def F.psqIdStake : Fld := (0, 4)
def F.psqIdLevel : Fld := (4, 4)
/-- PSQ_STATUS (05_passes.md). -/
def R.psqStatus (k : Nat) : Nat := 0x3000002000008 + k * 0x10000
def F.psqStatusState : Fld := (0, 3)
def F.psqStatusHoldThrottle : Fld := (8, 1)
def F.psqStatusHoldBrace : Fld := (9, 1)
def F.psqStatusHoldSeal : Fld := (10, 1)
def F.psqStatusStopPreempt : Fld := (12, 1)
def F.psqStatusStopFault : Fld := (13, 1)
def F.psqStatusStopQuiesce : Fld := (14, 1)
def F.psqStatusCtxValid : Fld := (15, 1)
def F.psqStatusOpenMb : Fld := (16, 16)
def F.psqStatusOpenCount : Fld := (32, 5)
def F.psqStatusRefused : Fld := (37, 1)
/-- PSQ_CMD (05_passes.md). -/
def R.psqCmd (k : Nat) : Nat := 0x3000002000010 + k * 0x10000
def F.psqCmdCmd : Fld := (0, 4)
def F.psqCmdSkip : Fld := (4, 3)
/-- PSQ_CTX (05_passes.md). -/
def R.psqCtx (k : Nat) : Nat := 0x3000002000018 + k * 0x10000
def F.psqCtxBase : Fld := (12, 40)
/-- PSQ_STEP (05_passes.md). -/
def R.psqStep (k : Nat) : Nat := 0x3000002000020 + k * 0x10000
def F.psqStepStep : Fld := (0, 64)
/-- PSQ_SEED (05_passes.md). -/
def R.psqSeed (k : Nat) : Nat := 0x3000002000028 + k * 0x10000
def F.psqSeedSeed : Fld := (0, 64)
/-- PSQ_SEED_NEXT (05_passes.md). -/
def R.psqSeedNext (k : Nat) : Nat := 0x3000002000030 + k * 0x10000
def F.psqSeedNextSeed : Fld := (0, 64)
/-- PSQ_POST (05_passes.md). -/
def R.psqPost (k : Nat) : Nat := 0x3000002000038 + k * 0x10000
def F.psqPostMask : Fld := (0, 64)
/-- PSQ_BASE (05_passes.md). -/
def R.psqBase (k x : Nat) : Nat := 0x3000002000100 + k * 0x10000 + x * 0x40
def F.psqBaseBase : Fld := (6, 46)
/-- PSQ_LEN (05_passes.md). -/
def R.psqLen (k x : Nat) : Nat := 0x3000002000108 + k * 0x10000 + x * 0x40
def F.psqLenLen : Fld := (0, 24)
/-- PSQ_PC (05_passes.md). -/
def R.psqPc (k x : Nat) : Nat := 0x3000002000110 + k * 0x10000 + x * 0x40
def F.psqPcPc : Fld := (0, 24)
/-- PSQ_INDEX (05_passes.md). -/
def R.psqIndex (k x : Nat) : Nat := 0x3000002000118 + k * 0x10000 + x * 0x40
def F.psqIndexIndex : Fld := (0, 64)
/-- PSQ_LIMIT (05_passes.md). -/
def R.psqLimit (k x : Nat) : Nat := 0x3000002000120 + k * 0x10000 + x * 0x40
def F.psqLimitLimit : Fld := (0, 64)
/-- PSQ_FREC0 (05_passes.md). -/
def R.psqFrec0 (k x : Nat) : Nat := 0x3000002000128 + k * 0x10000 + x * 0x40
def F.psqFrec0Code : Fld := (0, 8)
def F.psqFrec0Unit : Fld := (8, 8)
def F.psqFrec0Valid : Fld := (16, 1)
def F.psqFrec0After : Fld := (17, 1)
/-- PSQ_FREC1 (05_passes.md). -/
def R.psqFrec1 (k x : Nat) : Nat := 0x3000002000130 + k * 0x10000 + x * 0x40
def F.psqFrec1Index : Fld := (0, 64)
/-- PSQ_INFLIGHT (05_passes.md). -/
def R.psqInflight (k x : Nat) : Nat := 0x3000002000138 + k * 0x10000 + x * 0x40
def F.psqInflightOutstanding : Fld := (0, 7)
/-- PSQ_AHEAD (05_passes.md). -/
def R.psqAhead (k x : Nat) : Nat := 0x3000002000300 + k * 0x10000 + x * 8
def F.psqAheadAhead : Fld := (0, 64)
/-- PSQ_TOKEN (05_passes.md). -/
def R.psqToken (k i : Nat) : Nat := 0x3000002000200 + k * 0x10000 + i * 8
def F.psqTokenCount : Fld := (0, 64)
/-- PSQ_TSET (05_passes.md). -/
def R.psqTset (k i : Nat) : Nat := 0x3000002000808 + k * 0x10000 + i * 8
def F.psqTsetMask : Fld := (0, 64)
/-- PSQ_JRNL_STATUS (14_accepted_work.md). -/
def R.psqJrnlStatus (k : Nat) : Nat := 0x3000002000400 + k * 0x10000
def F.psqJrnlStatusEpoch : Fld := (0, 32)
def F.psqJrnlStatusOpen : Fld := (32, 1)
def F.psqJrnlStatusFull : Fld := (33, 1)
def F.psqJrnlStatusClosed : Fld := (34, 1)
def F.psqJrnlStatusEnded : Fld := (35, 1)
def F.psqJrnlStatusCause : Fld := (36, 3)
def F.psqJrnlStatusReplay : Fld := (39, 1)
/-- PSQ_JRNL_NEXT (14_accepted_work.md). -/
def R.psqJrnlNext (k : Nat) : Nat := 0x3000002000408 + k * 0x10000
def F.psqJrnlNextNext : Fld := (0, 48)
/-- PSQ_JRNL_OLDEST (14_accepted_work.md). -/
def R.psqJrnlOldest (k : Nat) : Nat := 0x3000002000410 + k * 0x10000
def F.psqJrnlOldestOldest : Fld := (0, 48)
/-- PSQ_JRNL_LAST (14_accepted_work.md). -/
def R.psqJrnlLast (k : Nat) : Nat := 0x3000002000418 + k * 0x10000
def F.psqJrnlLastLast : Fld := (0, 48)
def F.psqJrnlLastValid : Fld := (48, 1)
/-- PSQ_JRNL_PREV (14_accepted_work.md). -/
def R.psqJrnlPrev (k : Nat) : Nat := 0x3000002000420 + k * 0x10000
def F.psqJrnlPrevLast : Fld := (0, 48)
def F.psqJrnlPrevValid : Fld := (48, 1)
/-- PSQ_JRNL_PREV_EPOCH (14_accepted_work.md). -/
def R.psqJrnlPrevEpoch (k : Nat) : Nat := 0x3000002000428 + k * 0x10000
def F.psqJrnlPrevEpochEpoch : Fld := (0, 32)
/-- PSQ_FT_REC0 (14_accepted_work.md). -/
def R.psqFtRec0 (k : Nat) : Nat := 0x3000002000430 + k * 0x10000
def F.psqFtRec0Kind : Fld := (0, 4)
def F.psqFtRec0Unit : Fld := (8, 8)
def F.psqFtRec0Peer : Fld := (16, 8)
def F.psqFtRec0Valid : Fld := (24, 1)
def F.psqFtRec0Nopeer : Fld := (25, 1)
def F.psqFtRec0Count : Fld := (32, 16)
/-- PSQ_FT_REC1 (14_accepted_work.md). -/
def R.psqFtRec1 (k : Nat) : Nat := 0x3000002000438 + k * 0x10000
def F.psqFtRec1Interrupt : Fld := (0, 32)
def F.psqFtRec1Step : Fld := (32, 32)
/-- PSQ_FT_CAP (14_accepted_work.md). -/
def R.psqFtCap (k : Nat) : Nat := 0x3000002000440 + k * 0x10000
def F.psqFtCapEng : Fld := (0, 32)
def F.psqFtCapPvu : Fld := (32, 8)
def F.psqFtCapTc : Fld := (40, 9)
/-- PSQ_FT_SUBST (14_accepted_work.md). -/
def R.psqFtSubst (k i : Nat) : Nat := 0x3000002000448 + k * 0x10000 + i * 8
def F.psqFtSubstMap : Fld := (0, 48)

/-! ### statistics slots -/
/-- STA_STEP (05_passes.md). -/
def R.staStep (s : Nat) : Nat := 0x3000004100000 + s * 0x800
def F.staStepStep : Fld := (0, 64)
/-- STA_SUM (05_passes.md). -/
def R.staSum (s : Nat) : Nat := 0x3000004100008 + s * 0x800
def F.staSumNonfin : Fld := (0, 32)
def F.staSumSat : Fld := (32, 32)
/-- STA_MAXABS (05_passes.md). -/
def R.staMaxabs (s i : Nat) : Nat := 0x3000004100400 + s * 0x800 + i * 0x10
def F.staMaxabsMaxabs : Fld := (0, 32)
/-- STA_COUNT (05_passes.md). -/
def R.staCount (s i : Nat) : Nat := 0x3000004100408 + s * 0x800 + i * 0x10
def F.staCountNonfin : Fld := (0, 32)
def F.staCountSat : Fld := (32, 32)
/-- STA_ENG (05_passes.md). -/
def R.staEng (e i : Nat) : Nat := 0x3000004108000 + e * 0x80 + i * 8
def F.staEngValue : Fld := (0, 64)
/-- STA_PVU (05_passes.md). -/
def R.staPvu (v i : Nat) : Nat := 0x3000004109000 + v * 0x10 + i * 8
def F.staPvuValue : Fld := (0, 64)

/-! ### activation stack unit registers -/
/-- ASU_ID (06_activation_stack.md). -/
def R.asuId (d : Nat) : Nat := 0x30000010a0000 + d * 0x400000
def F.asuIdDie : Fld := (0, 2)
/-- ASU_ERR (06_activation_stack.md). -/
def R.asuErr (d : Nat) : Nat := 0x30000010a0008 + d * 0x400000
def F.asuErrCode : Fld := (0, 8)
def F.asuErrStake : Fld := (8, 4)
def F.asuErrStream : Fld := (12, 2)
def F.asuErrIndex : Fld := (16, 32)
/-- ASU_S_STATUS (06_activation_stack.md). -/
def R.asuSStatus (d s : Nat) : Nat := 0x30000010a0100 + d * 0x400000 + s * 0x40
def F.asuSStatusTags : Fld := (0, 16)
def F.asuSStatusSlot0 : Fld := (16, 1)
def F.asuSStatusSlot1 : Fld := (17, 1)
def F.asuSStatusOpenF : Fld := (18, 1)
def F.asuSStatusOpenB : Fld := (19, 1)
def F.asuSStatusInUse : Fld := (20, 1)
/-- ASU_S_AREA (06_activation_stack.md). -/
def R.asuSArea (d s : Nat) : Nat := 0x30000010a0108 + d * 0x400000 + s * 0x40
def F.asuSAreaAreaSegs : Fld := (0, 32)
def F.asuSAreaPoolSegs : Fld := (32, 32)
/-- ASU_S_NEAR (06_activation_stack.md). -/
def R.asuSNear (d s : Nat) : Nat := 0x30000010a0110 + d * 0x400000 + s * 0x40
def F.asuSNearBase : Fld := (21, 31)
/-- ASU_S_NEAR_SIZE (06_activation_stack.md). -/
def R.asuSNearSize (d s : Nat) : Nat := 0x30000010a0118 + d * 0x400000 + s * 0x40
def F.asuSNearSizeSize : Fld := (0, 16)
/-- ASU_S_PF (06_activation_stack.md). -/
def R.asuSPf (d s : Nat) : Nat := 0x30000010a0120 + d * 0x400000 + s * 0x40
def F.asuSPfDepth : Fld := (0, 3)
/-- ASU_S_CNT_SPILL (06_activation_stack.md). -/
def R.asuSCntSpill (d s : Nat) : Nat := 0x30000010a0128 + d * 0x400000 + s * 0x40
def F.asuSCntSpillSegs : Fld := (0, 64)
/-- ASU_S_CNT_FETCH (06_activation_stack.md). -/
def R.asuSCntFetch (d s : Nat) : Nat := 0x30000010a0130 + d * 0x400000 + s * 0x40
def F.asuSCntFetchSegs : Fld := (0, 64)
/-- ASU_S_CNT_WAIT (06_activation_stack.md). -/
def R.asuSCntWait (d s : Nat) : Nat := 0x30000010a0138 + d * 0x400000 + s * 0x40
def F.asuSCntWaitCycles : Fld := (0, 64)
/-- ASU_T_WORD (06_activation_stack.md). -/
def R.asuTWord (d s t : Nat) : Nat := 0x30000010a0800 + d * 0x400000 + s * 0x80 + t * 8
def F.asuTWordTop : Fld := (0, 28)
def F.asuTWordArea : Fld := (28, 4)
def F.asuTWordFrames : Fld := (32, 16)

/-! ### quay unit registers -/
/-- QUY_ID (07_quay.md). -/
def R.quyId (q : Nat) : Nat := 0x3000003000000 + q * 0x10000
def F.quyIdQuay : Fld := (0, 4)
def F.quyIdDie : Fld := (4, 2)
def F.quyIdStack : Fld := (6, 3)
def F.quyIdPartner : Fld := (9, 4)
/-- QUY_STATUS (07_quay.md). -/
def R.quyStatus (q : Nat) : Nat := 0x3000003000008 + q * 0x10000
def F.quyStatusState : Fld := (0, 2)
def F.quyStatusStageKib : Fld := (8, 13)
def F.quyStatusJobsOpen : Fld := (32, 7)
/-- QUY_ERR (07_quay.md). -/
def R.quyErr (q : Nat) : Nat := 0x3000003000010 + q * 0x10000
def F.quyErrCode : Fld := (0, 8)
def F.quyErrStake : Fld := (8, 4)
def F.quyErrStream : Fld := (12, 2)
def F.quyErrIndex : Fld := (16, 32)
def F.quyErrJob : Fld := (48, 6)
def F.quyErrJobValid : Fld := (54, 1)
/-- QUY_ECC (07_quay.md). -/
def R.quyEcc (q : Nat) : Nat := 0x3000003000018 + q * 0x10000
def F.quyEccCorr : Fld := (0, 16)
def F.quyEccUncorr : Fld := (16, 16)
/-- QUY_POISON_ADDR (07_quay.md). -/
def R.quyPoisonAddr (q : Nat) : Nat := 0x3000003000020 + q * 0x10000
def F.quyPoisonAddrAddr : Fld := (0, 52)
def F.quyPoisonAddrValid : Fld := (63, 1)
/-- QUY_CNT_ATOM (07_quay.md). -/
def R.quyCntAtom (q : Nat) : Nat := 0x3000003000028 + q * 0x10000
def F.quyCntAtomAtomics : Fld := (0, 64)
/-- QUY_S_CNT_FOLD (07_quay.md). -/
def R.quySCntFold (q s : Nat) : Nat := 0x3000003000100 + q * 0x10000 + s * 0x40
def F.quySCntFoldSlices : Fld := (0, 64)
/-- QUY_S_CNT_UPD (07_quay.md). -/
def R.quySCntUpd (q s : Nat) : Nat := 0x3000003000108 + q * 0x10000 + s * 0x40
def F.quySCntUpdGroups : Fld := (0, 64)
/-- QUY_S_CNT_CLR (07_quay.md). -/
def R.quySCntClr (q s : Nat) : Nat := 0x3000003000110 + q * 0x10000 + s * 0x40
def F.quySCntClrGroups : Fld := (0, 64)
/-- QUY_S_CNT_HOLD (07_quay.md). -/
def R.quySCntHold (q s : Nat) : Nat := 0x3000003000118 + q * 0x10000 + s * 0x40
def F.quySCntHoldCycles : Fld := (0, 64)
/-- QUY_S_CNT_RESV (07_quay.md). -/
def R.quySCntResv (q s : Nat) : Nat := 0x3000003000120 + q * 0x10000 + s * 0x40
def F.quySCntResvCycles : Fld := (0, 64)

/-! ### reduction engine registers -/
/-- RDX_ID (08_reduction.md). -/
def R.rdxId : Nat := 0x3000000600000
def F.rdxIdJobs : Fld := (0, 7)
def F.rdxIdAddWidth : Fld := (7, 12)
def F.rdxIdXpos : Fld := (19, 6)
/-- RDX_ERR (08_reduction.md). -/
def R.rdxErr : Nat := 0x3000000600008
def F.rdxErrCode : Fld := (0, 8)
def F.rdxErrStake : Fld := (8, 4)
def F.rdxErrJob : Fld := (12, 6)
def F.rdxErrJobValid : Fld := (18, 1)
def F.rdxErrBadBarge : Fld := (32, 16)
/-- RDX_JOBS_OPEN (08_reduction.md). -/
def R.rdxJobsOpen : Nat := 0x3000000600010
def F.rdxJobsOpenOpen : Fld := (0, 64)
/-- RDX_CNT_ADD (08_reduction.md). -/
def R.rdxCntAdd : Nat := 0x3000000600018
def F.rdxCntAddElements : Fld := (0, 64)
/-- RDX_S_XCTL (08_reduction.md). -/
def R.rdxSXctl (s : Nat) : Nat := 0x3000000600100 + s * 0x100
def F.rdxSXctlToken : Fld := (0, 6)
def F.rdxSXctlPost : Fld := (6, 1)
/-- RDX_S_XLIMIT (08_reduction.md). -/
def R.rdxSXlimit (s : Nat) : Nat := 0x3000000600108 + s * 0x100
def F.rdxSXlimitLimit : Fld := (0, 32)
/-- RDX_S_PARTIAL (08_reduction.md). -/
def R.rdxSPartial (s : Nat) : Nat := 0x3000000600110 + s * 0x100
def F.rdxSPartialAddr : Fld := (2, 50)
def F.rdxSPartialValid : Fld := (63, 1)
/-- RDX_S_XSTAT (08_reduction.md). -/
def R.rdxSXstat (s : Nat) : Nat := 0x3000000600118 + s * 0x100
def F.rdxSXstatState : Fld := (0, 3)
def F.rdxSXstatSkip : Fld := (3, 1)
def F.rdxSXstatQueued : Fld := (4, 1)
def F.rdxSXstatSuperseded : Fld := (5, 1)
def F.rdxSXstatStep : Fld := (32, 32)
/-- RDX_S_XNONFIN (08_reduction.md). -/
def R.rdxSXnonfin (s : Nat) : Nat := 0x3000000600120 + s * 0x100
def F.rdxSXnonfinAgreed : Fld := (0, 32)
def F.rdxSXnonfinLocal : Fld := (32, 32)
/-- RDX_S_XNORMSQ (08_reduction.md). -/
def R.rdxSXnormsq (s : Nat) : Nat := 0x3000000600128 + s * 0x100
def F.rdxSXnormsqNormsq : Fld := (0, 64)
/-- RDX_S_XEXP (08_reduction.md). -/
def R.rdxSXexp (s i : Nat) : Nat := 0x3000000600130 + s * 0x100 + i * 8
def F.rdxSXexpExp : Fld := (0, 64)
/-- RDX_S_SLOTMAP (08_reduction.md). -/
def R.rdxSSlotmap (s i : Nat) : Nat := 0x3000000600158 + s * 0x100 + i * 8
def F.rdxSSlotmapMap : Fld := (0, 64)
/-- RDX_S_CNT_SKIP (08_reduction.md). -/
def R.rdxSCntSkip (s : Nat) : Nat := 0x3000000600198 + s * 0x100
def F.rdxSCntSkipSkips : Fld := (0, 64)
/-- RDX_S_CNT_SPILL (08_reduction.md). -/
def R.rdxSCntSpill (s : Nat) : Nat := 0x30000006001a0 + s * 0x100
def F.rdxSCntSpillBw16 : Fld := (0, 32)
def F.rdxSCntSpillFp32 : Fld := (32, 32)
/-- RDX_J_STATUS (08_reduction.md). -/
def R.rdxJStatus (j : Nat) : Nat := 0x3000000602000 + j * 0x40
def F.rdxJStatusState : Fld := (0, 2)
def F.rdxJStatusStake : Fld := (4, 4)
def F.rdxJStatusSkip : Fld := (8, 1)
def F.rdxJStatusOwnedLeft : Fld := (32, 32)
/-- RDX_J_SCALE (08_reduction.md). -/
def R.rdxJScale (j : Nat) : Nat := 0x3000000602008 + j * 0x40
def F.rdxJScaleJgs : Fld := (0, 32)
def F.rdxJScaleE : Fld := (32, 8)
/-- RDX_J_CNT (08_reduction.md). -/
def R.rdxJCnt (j : Nat) : Nat := 0x3000000602010 + j * 0x40
def F.rdxJCntFinal : Fld := (0, 32)
def F.rdxJCntSpilled : Fld := (32, 32)

/-! ### KV page manager registers -/
/-- KVP_ID (09_attention.md). -/
def R.kvpId (d : Nat) : Nat := 0x30000010b0000 + d * 0x400000
def F.kvpIdDie : Fld := (0, 2)
/-- KVP_ERR (09_attention.md). -/
def R.kvpErr (d : Nat) : Nat := 0x30000010b0008 + d * 0x400000
def F.kvpErrCode : Fld := (0, 8)
def F.kvpErrStake : Fld := (8, 4)
def F.kvpErrStream : Fld := (12, 2)
def F.kvpErrIndex : Fld := (16, 32)
/-- KVP_S_STATUS (09_attention.md). -/
def R.kvpSStatus (d s : Nat) : Nat := 0x30000010b0100 + d * 0x400000 + s * 0x40
def F.kvpSStatusKeeper : Fld := (0, 1)
def F.kvpSStatusReady : Fld := (1, 1)
def F.kvpSStatusInitErr : Fld := (2, 1)
def F.kvpSStatusMetaPoison : Fld := (3, 1)
def F.kvpSStatusGathers : Fld := (8, 4)
def F.kvpSStatusFree : Fld := (32, 32)
/-- KVP_S_GEOM (09_attention.md). -/
def R.kvpSGeom (d s : Nat) : Nat := 0x30000010b0108 + d * 0x400000 + s * 0x40
def F.kvpSGeomRowb64 : Fld := (0, 9)
def F.kvpSGeomLayers : Fld := (16, 9)
def F.kvpSGeomPtEntries : Fld := (32, 16)
def F.kvpSGeomPsize4k : Fld := (48, 8)
/-- KVP_S_META (09_attention.md). -/
def R.kvpSMeta (d s : Nat) : Nat := 0x30000010b0110 + d * 0x400000 + s * 0x40
def F.kvpSMetaBase : Fld := (12, 40)
/-- KVP_S_SEQREC (09_attention.md). -/
def R.kvpSSeqrec (d s : Nat) : Nat := 0x30000010b0118 + d * 0x400000 + s * 0x40
def F.kvpSSeqrecBase : Fld := (12, 40)
/-- KVP_S_PTAB (09_attention.md). -/
def R.kvpSPtab (d s : Nat) : Nat := 0x30000010b0120 + d * 0x400000 + s * 0x40
def F.kvpSPtabBase : Fld := (12, 40)
/-- KVP_S_CMD (09_attention.md). -/
def R.kvpSCmd (d s : Nat) : Nat := 0x30000010b0128 + d * 0x400000 + s * 0x40
def F.kvpSCmdCmd : Fld := (0, 4)
/-- KVP_S_CNT_COW (09_attention.md). -/
def R.kvpSCntCow (d s : Nat) : Nat := 0x30000010b0130 + d * 0x400000 + s * 0x40
def F.kvpSCntCowPages : Fld := (0, 64)
/-- KVP_S_CNT_COPY (09_attention.md). -/
def R.kvpSCntCopy (d s : Nat) : Nat := 0x30000010b0138 + d * 0x400000 + s * 0x40
def F.kvpSCntCopyUnits : Fld := (0, 64)

/-! ### tile core registers -/
/-- TCX_SAVE (10_cores_memory.md). -/
def R.tcxSave (d : Nat) : Nat := 0x30000010c0000 + d * 0x400000
def F.tcxSaveBase : Fld := (19, 33)
/-- TCX_LAUNCH (10_cores_memory.md). -/
def R.tcxLaunch (d : Nat) : Nat := 0x30000010c0008 + d * 0x400000
def F.tcxLaunchCore : Fld := (0, 6)
def F.tcxLaunchThread : Fld := (6, 3)
def F.tcxLaunchCmd : Fld := (12, 4)
/-- TCX_LAUNCH_PC (10_cores_memory.md). -/
def R.tcxLaunchPc (d : Nat) : Nat := 0x30000010c0010 + d * 0x400000
def F.tcxLaunchPcPc : Fld := (1, 51)
/-- TCX_LAUNCH_ARG (10_cores_memory.md). -/
def R.tcxLaunchArg (d : Nat) : Nat := 0x30000010c0018 + d * 0x400000
def F.tcxLaunchArgArg : Fld := (0, 64)
/-- TCX_ERR (10_cores_memory.md). -/
def R.tcxErr (d : Nat) : Nat := 0x30000010c0020 + d * 0x400000
def F.tcxErrCode : Fld := (0, 2)
def F.tcxErrCore : Fld := (2, 6)
def F.tcxErrThread : Fld := (8, 3)
/-- TCX_T (10_cores_memory.md). -/
def R.tcxT (d t : Nat) : Nat := 0x30000010c1000 + d * 0x400000 + t * 8
def F.tcxTState : Fld := (0, 3)
def F.tcxTStake : Fld := (8, 4)
def F.tcxTHost : Fld := (12, 6)
def F.tcxTCause : Fld := (24, 8)
def F.tcxTOpnum : Fld := (32, 32)

/-! ### HBM controller registers -/
/-- MEM_STATUS (10_cores_memory.md). -/
def R.memStatus (h : Nat) : Nat := 0x30000010d0000 + (h / 2) * 0x400000 + (h % 2) * 0x10000
def F.memStatusState : Fld := (0, 2)
def F.memStatusTemp : Fld := (8, 8)
def F.memStatusLostCause : Fld := (16, 2)
/-- MEM_ECC (10_cores_memory.md). -/
def R.memEcc (h : Nat) : Nat := 0x30000010d0008 + (h / 2) * 0x400000 + (h % 2) * 0x10000
def F.memEccCorr : Fld := (0, 32)
def F.memEccUncorr : Fld := (32, 16)
/-- MEM_ERR_ADDR (10_cores_memory.md). -/
def R.memErrAddr (h : Nat) : Nat := 0x30000010d0010 + (h / 2) * 0x400000 + (h % 2) * 0x10000
def F.memErrAddrAddr : Fld := (6, 46)
def F.memErrAddrValid : Fld := (63, 1)
/-- MEM_SCRUB (10_cores_memory.md). -/
def R.memScrub (h : Nat) : Nat := 0x30000010d0018 + (h / 2) * 0x400000 + (h % 2) * 0x10000
def F.memScrubPeriod : Fld := (0, 8)
def F.memScrubPasses : Fld := (32, 32)

/-! ### CXL tier registers -/
/-- CXT_P_STATUS (10_cores_memory.md). -/
def R.cxtPStatus (p : Nat) : Nat := 0x3000000700000 + p * 8
def F.cxtPStatusLinkUp : Fld := (0, 1)
def F.cxtPStatusWidth : Fld := (1, 5)
def F.cxtPStatusSpeed : Fld := (6, 3)
def F.cxtPStatusDevice : Fld := (9, 1)
def F.cxtPStatusFlit256 : Fld := (10, 1)
/-- CXT_ERR (10_cores_memory.md). -/
def R.cxtErr : Nat := 0x3000000700020
def F.cxtErrUnmapped : Fld := (0, 16)
def F.cxtErrLinkDown : Fld := (16, 16)
def F.cxtErrPoison : Fld := (32, 16)
/-- CXT_DEC_BASE (10_cores_memory.md). -/
def R.cxtDecBase (n : Nat) : Nat := 0x3000000700100 + n * 0x20
def F.cxtDecBaseBase : Fld := (28, 24)
/-- CXT_DEC_SIZE (10_cores_memory.md). -/
def R.cxtDecSize (n : Nat) : Nat := 0x3000000700108 + n * 0x20
def F.cxtDecSizeSize : Fld := (28, 24)
/-- CXT_DEC_CTL (10_cores_memory.md). -/
def R.cxtDecCtl (n : Nat) : Nat := 0x3000000700110 + n * 0x20
def F.cxtDecCtlWays : Fld := (0, 2)
def F.cxtDecCtlGran : Fld := (2, 3)
def F.cxtDecCtlTarget : Fld := (8, 8)
def F.cxtDecCtlCommit : Fld := (16, 1)
def F.cxtDecCtlCommitted : Fld := (17, 1)
def F.cxtDecCtlCommitErr : Fld := (18, 1)
def F.cxtDecCtlLock : Fld := (19, 1)

/-! ### coherence registers -/
/-- COH_ID (11_coherence.md). -/
def R.cohId : Nat := 0x3000000800000
def F.cohIdHomes : Fld := (0, 5)
def F.cohIdDirEntries : Fld := (5, 21)
def F.cohIdDirWays : Fld := (26, 5)
def F.cohIdTrackers : Fld := (31, 9)
def F.cohIdWatches : Fld := (40, 9)
/-- COH_TIMEOUT (11_coherence.md). -/
def R.cohTimeout : Nat := 0x3000000800008
def F.cohTimeoutLimit : Fld := (0, 20)
/-- COH_AGE (11_coherence.md). -/
def R.cohAge : Nat := 0x3000000800010
def F.cohAgeThreshold : Fld := (0, 4)
/-- COH_ERR (11_coherence.md). -/
def R.cohErr : Nat := 0x3000000800018
def F.cohErrCode : Fld := (0, 8)
def F.cohErrHome : Fld := (8, 5)
def F.cohErrAgent : Fld := (13, 7)
/-- COH_POISON_ADDR (11_coherence.md). -/
def R.cohPoisonAddr : Nat := 0x3000000800020
def F.cohPoisonAddrAddr : Fld := (6, 46)
def F.cohPoisonAddrValid : Fld := (63, 1)
/-- COH_H_STATUS (11_coherence.md). -/
def R.cohHStatus (h : Nat) : Nat := 0x3000000800100 + h * 0x40
def F.cohHStatusBusy : Fld := (0, 9)
def F.cohHStatusRsv : Fld := (9, 2)
def F.cohHStatusWatches : Fld := (11, 9)
def F.cohHStatusEccCorr : Fld := (32, 16)
/-- COH_H_CNT_EVICT (11_coherence.md). -/
def R.cohHCntEvict (h : Nat) : Nat := 0x3000000800108 + h * 0x40
def F.cohHCntEvictEvictions : Fld := (0, 64)
/-- COH_H_CNT_RETRY (11_coherence.md). -/
def R.cohHCntRetry (h : Nat) : Nat := 0x3000000800110 + h * 0x40
def F.cohHCntRetryRetries : Fld := (0, 48)
def F.cohHCntRetryReservedUsed : Fld := (48, 16)
/-- COH_H_CNT_TIMEOUT (11_coherence.md). -/
def R.cohHCntTimeout (h : Nat) : Nat := 0x3000000800118 + h * 0x40
def F.cohHCntTimeoutTimeouts : Fld := (0, 32)
def F.cohHCntTimeoutLate : Fld := (32, 32)
/-- COH_H_CNT_ATOM (11_coherence.md). -/
def R.cohHCntAtom (h : Nat) : Nat := 0x3000000800120 + h * 0x40
def F.cohHCntAtomHome : Fld := (0, 32)
def F.cohHCntAtomQuay : Fld := (32, 32)

/-! ### Towpath port registers -/
/-- TWP_P_STATUS (12_towpath.md). -/
def R.twpPStatus (p : Nat) : Nat := 0x3000000500000 + p * 0x10000
def F.twpPStatusState : Fld := (0, 3)
def F.twpPStatusWidth : Fld := (3, 2)
def F.twpPStatusLanesGood : Fld := (5, 8)
def F.twpPStatusLevel : Fld := (13, 4)
def F.twpPStatusPartnerPort : Fld := (17, 4)
def F.twpPStatusPartnerLevels : Fld := (21, 8)
/-- TWP_P_CMD (12_towpath.md). -/
def R.twpPCmd (p : Nat) : Nat := 0x3000000500008 + p * 0x10000
def F.twpPCmdCmd : Fld := (0, 2)
/-- TWP_P_PARTNER (12_towpath.md). -/
def R.twpPPartner (p : Nat) : Nat := 0x3000000500010 + p * 0x10000
def F.twpPPartnerModid : Fld := (0, 64)
/-- TWP_P_CNT_LINK (12_towpath.md). -/
def R.twpPCntLink (p : Nat) : Nat := 0x3000000500018 + p * 0x10000
def F.twpPCntLinkNaks : Fld := (0, 16)
def F.twpPCntLinkReplays : Fld := (16, 16)
def F.twpPCntLinkFast : Fld := (32, 16)
def F.twpPCntLinkFull : Fld := (48, 16)
/-- TWP_P_CNT_FEC (12_towpath.md). -/
def R.twpPCntFec (p : Nat) : Nat := 0x3000000500020 + p * 0x10000
def F.twpPCntFecCorr : Fld := (0, 32)
def F.twpPCntFecUncorr : Fld := (32, 32)
/-- TWP_P_LANE (12_towpath.md). -/
def R.twpPLane (p : Nat) : Nat := 0x3000000500028 + p * 0x10000
def F.twpPLaneCorr : Fld := (0, 64)
/-- TWP_P_ERR (12_towpath.md). -/
def R.twpPErr (p : Nat) : Nat := 0x3000000500030 + p * 0x10000
def F.twpPErrBadType : Fld := (0, 16)
def F.twpPErrBadLevel : Fld := (16, 16)

/-! ### Towpath ring and window registers -/
/-- TWP_MODID (12_towpath.md). -/
def R.twpModid : Nat := 0x3000000508000
def F.twpModidModid : Fld := (0, 64)
/-- TWP_XLIMIT (12_towpath.md). -/
def R.twpXlimit : Nat := 0x3000000508008
def F.twpXlimitLimit : Fld := (0, 32)
/-- TWP_R_STATUS (12_towpath.md). -/
def R.twpRStatus (r : Nat) : Nat := 0x3000000508100 + r * 8
def F.twpRStatusEgUp : Fld := (0, 12)
def F.twpRStatusInUp : Fld := (12, 12)
def F.twpRStatusTagsDn : Fld := (24, 16)
def F.twpRStatusTagsUp : Fld := (40, 16)
/-- TWP_WIN_BASE (12_towpath.md). -/
def R.twpWinBase (w : Nat) : Nat := 0x3000000508400 + w * 0x20
def F.twpWinBaseBase : Fld := (0, 52)
/-- TWP_WIN_SIZE (12_towpath.md). -/
def R.twpWinSize (w : Nat) : Nat := 0x3000000508408 + w * 0x20
def F.twpWinSizeSize : Fld := (0, 33)
/-- TWP_WIN_CTL (12_towpath.md). -/
def R.twpWinCtl (w : Nat) : Nat := 0x3000000508410 + w * 0x20
def F.twpWinCtlEnable : Fld := (0, 1)
def F.twpWinCtlDir : Fld := (1, 1)
def F.twpWinCtlRing : Fld := (2, 4)
def F.twpWinCtlStake : Fld := (6, 4)
def F.twpWinCtlToken : Fld := (10, 6)
def F.twpWinCtlWerr : Fld := (16, 1)
def F.twpWinCtlRejects : Fld := (48, 16)

/-! ### host interface registers -/
/-- HIF_STATUS (13_host.md). -/
def R.hifStatus : Nat := 0x3000000400000
def F.hifStatusRole : Fld := (0, 1)
def F.hifStatusLinkUp : Fld := (1, 1)
def F.hifStatusWidth : Fld := (2, 5)
def F.hifStatusSpeed : Fld := (7, 3)
def F.hifStatusFlit : Fld := (10, 1)
def F.hifStatusBoot : Fld := (11, 2)
/-- HIF_CTL (13_host.md). -/
def R.hifCtl : Nat := 0x3000000400008
def F.hifCtlLinkEn : Fld := (0, 1)
/-- HIF_BOOT (13_host.md). -/
def R.hifBoot : Nat := 0x3000000400010
def F.hifBootLen : Fld := (0, 21)
def F.hifBootGo : Fld := (21, 1)
/-- HIF_WIN (13_host.md). -/
def R.hifWin : Nat := 0x3000000400018
def F.hifWinEn : Fld := (0, 1)
def F.hifWinBase : Fld := (26, 26)
/-- HIF_RWIN (13_host.md). -/
def R.hifRwin : Nat := 0x3000000400020
def F.hifRwinBase : Fld := (22, 30)
/-- HIF_SYNC (13_host.md). -/
def R.hifSync : Nat := 0x3000000400028
/-- HIF_ERR (13_host.md). -/
def R.hifErr : Nat := 0x3000000400030
def F.hifErrRejected : Fld := (0, 16)
def F.hifErrBar2 : Fld := (16, 16)
def F.hifErrDbDrop : Fld := (32, 16)
/-- HIF_M_EVT (13_host.md). -/
def R.hifMEvt : Nat := 0x3000000400038
def F.hifMEvtWarnOn : Fld := (0, 1)
def F.hifMEvtWarnOff : Fld := (1, 1)
def F.hifMEvtHbmLost : Fld := (2, 1)
def F.hifMEvtCxlDown : Fld := (3, 1)
def F.hifMEvtTwpDown : Fld := (4, 1)
def F.hifMEvtCohPoison : Fld := (5, 1)
def F.hifMEvtPool : Fld := (6, 1)
/-- HIF_M_EVT_CFG (13_host.md). -/
def R.hifMEvtCfg : Nat := 0x3000000400040
def F.hifMEvtCfgEnable : Fld := (0, 16)
def F.hifMEvtCfgTarget : Fld := (16, 1)
def F.hifMEvtCfgVector : Fld := (17, 7)
def F.hifMEvtCfgHart : Fld := (24, 6)
def F.hifMEvtCfgEiid : Fld := (32, 11)
/-- HIF_S_EVT_CFG (13_host.md). -/
def R.hifSEvtCfg (s : Nat) : Nat := 0x3000000400108 + s * 0x10
def F.hifSEvtCfgEnable : Fld := (0, 16)
def F.hifSEvtCfgTarget : Fld := (16, 1)
def F.hifSEvtCfgVector : Fld := (17, 7)
def F.hifSEvtCfgHart : Fld := (24, 6)
def F.hifSEvtCfgEiid : Fld := (32, 11)
/-- HIF_S_EVT (13_host.md). -/
def R.hifSEvt (s : Nat) : Nat := 0x3000000400100 + s * 0x10
def F.hifSEvtSkip : Fld := (0, 1)
def F.hifSEvtFaultStop : Fld := (1, 1)
def F.hifSEvtStopped : Fld := (2, 1)
def F.hifSEvtFaultRecord : Fld := (3, 1)
def F.hifSEvtEpochEnd : Fld := (4, 1)
def F.hifSEvtXchg : Fld := (5, 1)
def F.hifSEvtReweave : Fld := (6, 1)
/-- HIF_POOL_RING (13_host.md). -/
def R.hifPoolRing : Nat := 0x3000000400300
def F.hifPoolRingEnable : Fld := (0, 1)
def F.hifPoolRingBase : Fld := (22, 30)
/-- HIF_POOL_DONE (13_host.md). -/
def R.hifPoolDone : Nat := 0x3000000400308
def F.hifPoolDoneQp : Fld := (0, 6)
def F.hifPoolDoneCid : Fld := (16, 16)
def F.hifPoolDoneStatus : Fld := (32, 8)
/-- HIF_Q_SQ (13_host.md). -/
def R.hifQSq (n : Nat) : Nat := 0x3000000401000 + n * 0x40
def F.hifQSqHostmem : Fld := (0, 1)
def F.hifQSqBase : Fld := (12, 52)
/-- HIF_Q_CQ (13_host.md). -/
def R.hifQCq (n : Nat) : Nat := 0x3000000401008 + n * 0x40
def F.hifQCqHostmem : Fld := (0, 1)
def F.hifQCqBase : Fld := (12, 52)
/-- HIF_Q_CFG (13_host.md). -/
def R.hifQCfg (n : Nat) : Nat := 0x3000000401010 + n * 0x40
def F.hifQCfgLevel : Fld := (0, 4)
def F.hifQCfgEsize : Fld := (4, 1)
def F.hifQCfgSubmit : Fld := (5, 2)
def F.hifQCfgDepth : Fld := (8, 13)
def F.hifQCfgGranted : Fld := (24, 4)
def F.hifQCfgOwner : Fld := (32, 8)
/-- HIF_Q_CTL (13_host.md). -/
def R.hifQCtl (n : Nat) : Nat := 0x3000000401018 + n * 0x40
def F.hifQCtlCmd : Fld := (0, 2)
/-- HIF_Q_STATUS (13_host.md). -/
def R.hifQStatus (n : Nat) : Nat := 0x3000000401020 + n * 0x40
def F.hifQStatusState : Fld := (0, 2)
def F.hifQStatusRefusal : Fld := (2, 3)
def F.hifQStatusBraced : Fld := (5, 1)
def F.hifQStatusHead : Fld := (16, 16)
def F.hifQStatusTail : Fld := (32, 16)
def F.hifQStatusGen : Fld := (48, 8)
/-- HIF_Q_ERR (13_host.md). -/
def R.hifQErr (n : Nat) : Nat := 0x3000000401028 + n * 0x40
def F.hifQErrCode : Fld := (0, 3)
def F.hifQErrSlot : Fld := (16, 16)
/-- HIF_Q_IRQ (13_host.md). -/
def R.hifQIrq (n : Nat) : Nat := 0x3000000401030 + n * 0x40
def F.hifQIrqEn : Fld := (0, 1)
def F.hifQIrqTarget : Fld := (1, 1)
def F.hifQIrqVector : Fld := (2, 7)
def F.hifQIrqHart : Fld := (9, 6)
def F.hifQIrqEiid : Fld := (15, 11)
def F.hifQIrqCount : Fld := (32, 8)
def F.hifQIrqTime : Fld := (48, 16)
/-- HIF_Q_CNT (13_host.md). -/
def R.hifQCnt (n : Nat) : Nat := 0x3000000401038 + n * 0x40
def F.hifQCntAccepted : Fld := (0, 32)
def F.hifQCntRefetch : Fld := (32, 16)
def F.hifQCntStale : Fld := (48, 16)
/-- HIF_DB_SQ (13_host.md). -/
def R.hifDbSq (n : Nat) : Nat := 0x3000000480000 + n * 0x1000
def F.hifDbSqTail : Fld := (0, 16)
def F.hifDbSqGen : Fld := (16, 8)
/-- HIF_DB_CQ (13_host.md). -/
def R.hifDbCq (n : Nat) : Nat := 0x3000000480008 + n * 0x1000
def F.hifDbCqHead : Fld := (0, 16)

/-! ### Lockkeeper registers -/
/-- LK_STATUS (15_lockkeeper.md). -/
def R.lkStatus : Nat := 0x3000000200000
def F.lkStatusPhase : Fld := (0, 4)
def F.lkStatusLoadDone : Fld := (4, 1)
def F.lkStatusOptBad : Fld := (5, 1)
def F.lkStatusPgFail : Fld := (6, 1)
def F.lkStatusWarn : Fld := (7, 1)
def F.lkStatusBraced : Fld := (8, 1)
def F.lkStatusWrst : Fld := (9, 1)
def F.lkStatusStakeRst : Fld := (16, 16)
/-- LK_CAUSE (15_lockkeeper.md). -/
def R.lkCause : Nat := 0x3000000200008
def F.lkCauseLast : Fld := (0, 3)
def F.lkCauseEscalated : Fld := (3, 1)
def F.lkCauseWarm : Fld := (32, 32)
/-- LK_OPT (15_lockkeeper.md). -/
def R.lkOpt : Nat := 0x3000000200010
def F.lkOptCode : Fld := (0, 4)
def F.lkOptRole : Fld := (4, 1)
def F.lkOptBoot : Fld := (5, 1)
def F.lkOptWidth : Fld := (6, 3)
def F.lkOptDebug : Fld := (9, 1)
/-- LK_CMD (15_lockkeeper.md). -/
def R.lkCmd : Nat := 0x3000000200018
def F.lkCmdCmd : Fld := (0, 4)
def F.lkCmdStake : Fld := (8, 4)
/-- LK_WDOG (15_lockkeeper.md). -/
def R.lkWdog : Nat := 0x3000000200020
def F.lkWdogEn : Fld := (0, 1)
def F.lkWdogPeriod : Fld := (16, 16)
def F.lkWdogLeft : Fld := (32, 32)
/-- LK_WDOG_KICK (15_lockkeeper.md). -/
def R.lkWdogKick : Nat := 0x3000000200028
/-- LK_THROT (15_lockkeeper.md). -/
def R.lkThrot : Nat := 0x3000000200030
def F.lkThrotSw : Fld := (0, 2)
def F.lkThrotLevel : Fld := (2, 2)
def F.lkThrotSrc : Fld := (4, 3)
def F.lkThrotTj : Fld := (8, 8)
/-- LK_FORCE (15_lockkeeper.md). -/
def R.lkForce : Nat := 0x3000000200038
def F.lkForceDomain : Fld := (0, 10)
/-- LK_RAIL (15_lockkeeper.md). -/
def R.lkRail : Nat := 0x3000000200040
def F.lkRailPg : Fld := (0, 8)
def F.lkRailFailRail : Fld := (8, 4)
/-- LK_SB (15_lockkeeper.md). -/
def R.lkSb : Nat := 0x3000000200048
def F.lkSbReady : Fld := (0, 1)
def F.lkSbFault : Fld := (1, 1)
def F.lkSbThrot : Fld := (2, 1)
def F.lkSbCxlRst : Fld := (3, 4)
/-- LK_WRST_LIMIT (15_lockkeeper.md). -/
def R.lkWrstLimit : Nat := 0x3000000200050
def F.lkWrstLimitLimit : Fld := (0, 32)
/-- LK_ISL (15_lockkeeper.md). -/
def R.lkIsl (i : Nat) : Nat := 0x3000000200100 + i * 8
def F.lkIslState : Fld := (0, 2)
def F.lkIslFreq : Fld := (16, 16)
def F.lkIslNominal : Fld := (32, 16)
def F.lkIslDroops : Fld := (48, 16)
/-- LK_WSTAT (15_lockkeeper.md). -/
def R.lkWstat (m : Nat) : Nat := 0x3000000200400 + m * 8
def F.lkWstatOutcome : Fld := (0, 2)
def F.lkWstatAddr : Fld := (3, 49)

/-! ### security controller registers -/
/-- SEC_ID (16_security_debug.md). -/
def R.secId : Nat := 0x3000000300000
def F.secIdSerial : Fld := (0, 64)
/-- SEC_FW (16_security_debug.md). -/
def R.secFw : Nat := 0x3000000300008
def F.secFwVersion : Fld := (0, 32)
def F.secFwSlot : Fld := (32, 1)
/-- SEC_STATE (16_security_debug.md). -/
def R.secState : Nat := 0x3000000300010
def F.secStateBoot : Fld := (0, 2)
def F.secStatePolicy : Fld := (2, 1)
def F.secStateGate : Fld := (3, 1)
def F.secStateErasePending : Fld := (4, 1)
def F.secStateSecrets : Fld := (5, 1)
def F.secStateOpenings : Fld := (6, 6)
def F.secStateBusy : Fld := (12, 1)
/-- SEC_KEYS (16_security_debug.md). -/
def R.secKeys : Nat := 0x3000000300018
def F.secKeysValid : Fld := (0, 4)
def F.secKeysRevoked : Fld := (4, 4)
def F.secKeysMinimum : Fld := (8, 6)
/-- SEC_MGMT (16_security_debug.md). -/
def R.secMgmt : Nat := 0x3000000300020
def F.secMgmtLastCmd : Fld := (0, 8)
def F.secMgmtLastStatus : Fld := (8, 8)
def F.secMgmtTransport : Fld := (16, 1)

/-! ### perturbation registers -/
/-- PTB_CTL (16_security_debug.md). -/
def R.ptbCtl : Nat := 0x3000004000000
def F.ptbCtlArm : Fld := (0, 1)
def F.ptbCtlHarmfulOk : Fld := (1, 1)
def F.ptbCtlRefused : Fld := (2, 1)
/-- PTB_SEED (16_security_debug.md). -/
def R.ptbSeed : Nat := 0x3000004000008
def F.ptbSeedSeed : Fld := (0, 64)
/-- PTB_CNT_A (16_security_debug.md). -/
def R.ptbCntA : Nat := 0x3000004000020
def F.ptbCntADelays : Fld := (0, 32)
def F.ptbCntABp : Fld := (32, 32)
/-- PTB_CNT_B (16_security_debug.md). -/
def R.ptbCntB : Nat := 0x3000004000028
def F.ptbCntBLink : Fld := (0, 16)
def F.ptbCntBHome : Fld := (16, 16)
def F.ptbCntBSpill1 : Fld := (32, 16)
def F.ptbCntBSpill2 : Fld := (48, 16)
/-- PTB_CRED (16_security_debug.md). -/
def R.ptbCred (i : Nat) : Nat := 0x3000004000100 + i * 8
def F.ptbCredPound : Fld := (0, 16)
def F.ptbCredCap : Fld := (16, 16)
def F.ptbCredEn : Fld := (32, 1)
/-- PTB_DLY (16_security_debug.md). -/
def R.ptbDly (i : Nat) : Nat := 0x3000004000140 + i * 8
def F.ptbDlyIsland : Fld := (0, 7)
def F.ptbDlyMaxcyc : Fld := (8, 8)
def F.ptbDlyProb : Fld := (16, 8)
def F.ptbDlyEn : Fld := (32, 1)
/-- PTB_BP (16_security_debug.md). -/
def R.ptbBp (i : Nat) : Nat := 0x3000004000180 + i * 8
def F.ptbBpPound : Fld := (0, 16)
def F.ptbBpDuty : Fld := (16, 8)
def F.ptbBpBurst : Fld := (24, 16)
def F.ptbBpEn : Fld := (40, 1)
/-- PTB_LINK (16_security_debug.md). -/
def R.ptbLink : Nat := 0x30000040001c0
def F.ptbLinkPorts : Fld := (0, 12)
def F.ptbLinkInterval : Fld := (12, 16)
def F.ptbLinkEn : Fld := (32, 1)
/-- PTB_SPILL (16_security_debug.md). -/
def R.ptbSpill : Nat := 0x30000040001c8
def F.ptbSpillJob : Fld := (0, 6)
def F.ptbSpillStage2 : Fld := (6, 1)
def F.ptbSpillEvery : Fld := (7, 16)
def F.ptbSpillEn : Fld := (32, 1)
/-- PTB_HOME (16_security_debug.md). -/
def R.ptbHome : Nat := 0x30000040001d0
def F.ptbHomeHome : Fld := (0, 5)
def F.ptbHomeAgent : Fld := (5, 7)
def F.ptbHomeCount : Fld := (12, 16)
def F.ptbHomeEn : Fld := (32, 1)

/-! ### access masks and reset values (R10) -/

/-- Rows of the global registers: offset, repetition, RW, RW1C, RC and WO bits, reset value. -/
def Rows.glb : List RegRow := [
  ⟨0, [], 0, 0, 0, 0, 0x11f7a⟩,
  ⟨8, [], 0, 0, 0, 0, 0x3204084020⟩,
  ⟨0x10, [], 0, 0, 0, 0, 0x111⟩,
  ⟨0x18, [], 0, 0, 0, 0, 0x20507f0000ffff⟩]

/-- Rows of the weave registers: offset, repetition, RW, RW1C, RC and WO bits, reset value. -/
def Rows.wv : List RegRow := [
  ⟨0, [], 0, 0, 0, 0, 0⟩,
  ⟨8, [], 0, 0, 0, 0, 0⟩,
  ⟨0x10, [], 0, 0, 0, 0, 0⟩,
  ⟨0x18, [], 0, 0, 0, 0, 0⟩,
  ⟨0x20, [], 0, 0, 0, 0xf0f, 0⟩,
  ⟨0x28, [], 0xffffffffff000, 0, 0, 0, 0⟩,
  ⟨0x30, [], 0x1fffff, 0, 0, 0, 0⟩,
  ⟨0x38, [], 0, 0, 0x1fffffffff, 0, 0⟩,
  ⟨0x40, [], 0, 0, 0, 0, 0⟩,
  ⟨0x48, [], 0xffffffff, 0, 0, 0, 0xf4240⟩,
  ⟨0x50, [(6, 8)], 0, 0, 0, 0, 0⟩,
  ⟨0x100, [(16, 0x40)], 0, 0, 0, 0, 0⟩,
  ⟨0x108, [(16, 0x40), (4, 8)], 0, 0, 0, 0, 0⟩,
  ⟨0x128, [(16, 0x40), (2, 8)], 0, 0, 0, 0, 0⟩,
  ⟨0x138, [(16, 0x40)], 0, 0, 0, 0, 0⟩]

/-- Rows of the matrix engine and DVU registers: offset, repetition, RW, RW1C, RC and WO bits, reset value. -/
def Rows.eng : List RegRow := [
  ⟨0, [], 0, 0, 0, 0, 0⟩,
  ⟨8, [], 0, 0, 0, 0, 0⟩,
  ⟨0x10, [], 0xffffffffff000, 0, 0, 0, 0⟩,
  ⟨0x18, [], 0x1ffff, 0, 0, 0, 0⟩,
  ⟨0x20, [], 0, 0, 0xffffffff03ff, 0, 0⟩,
  ⟨0x28, [], 0, 0, 0xffffffff, 0, 0⟩,
  ⟨0x40, [], 0, 0, 0, 0, 0⟩,
  ⟨0x48, [], 0, 0, 0, 0, 0⟩,
  ⟨0x50, [], 0, 0, 0, 0, 0⟩,
  ⟨0x58, [], 0, 0, 0, 0, 0⟩,
  ⟨0x60, [], 0, 0, 0, 0, 0⟩,
  ⟨0x68, [], 0, 0, 0, 0, 0⟩,
  ⟨0x70, [], 0, 0, 0, 0, 0⟩,
  ⟨0x100, [], 0, 0, 0, 0, 0⟩,
  ⟨0x108, [], 0xffffffffff000, 0, 0, 0, 0⟩,
  ⟨0x110, [], 0x1ffff, 0, 0, 0, 0⟩,
  ⟨0x118, [], 0, 0, 0xffffffff03ff, 0, 0⟩,
  ⟨0x120, [], 0, 0, 0xffffffffffffffff, 0, 0⟩,
  ⟨0x128, [], 0, 0, 0, 0, 0⟩,
  ⟨0x130, [], 0, 0, 0, 0, 0⟩]

/-- Rows of the PVU registers: offset, repetition, RW, RW1C, RC and WO bits, reset value. -/
def Rows.pvu : List RegRow := [
  ⟨0, [], 0, 0, 0, 0, 0⟩,
  ⟨8, [], 0, 0, 0, 0, 0⟩,
  ⟨0x10, [], 0xfffffffff8000, 0, 0, 0, 0⟩,
  ⟨0x18, [], 0x800ffffffffff000, 0, 0, 0, 0⟩,
  ⟨0x20, [], 0, 0, 0xffffffffffff07ff, 0, 0⟩,
  ⟨0x28, [], 0, 0, 0, 0, 0⟩]

/-- Rows of the pass sequencer registers: offset, repetition, RW, RW1C, RC and WO bits, reset value. -/
def Rows.psq : List RegRow := [
  ⟨0, [], 0, 0, 0, 0, 0⟩,
  ⟨8, [], 0, 0, 0, 0, 0⟩,
  ⟨0x10, [], 0, 0, 0, 0x7f, 0⟩,
  ⟨0x18, [], 0xffffffffff000, 0, 0, 0, 0⟩,
  ⟨0x20, [], 0xffffffffffffffff, 0, 0, 0, 0⟩,
  ⟨0x28, [], 0, 0, 0, 0, 0⟩,
  ⟨0x30, [], 0xffffffffffffffff, 0, 0, 0, 0⟩,
  ⟨0x38, [], 0, 0, 0, 0xffffffffffffffff, 0⟩,
  ⟨0x100, [(3, 0x40)], 0xfffffffffffc0, 0, 0, 0, 0⟩,
  ⟨0x108, [(3, 0x40)], 0xffffff, 0, 0, 0, 0⟩,
  ⟨0x110, [(3, 0x40)], 0xffffff, 0, 0, 0, 0⟩,
  ⟨0x118, [(3, 0x40)], 0xffffffffffffffff, 0, 0, 0, 0⟩,
  ⟨0x120, [(3, 0x40)], 0xffffffffffffffff, 0, 0, 0, 0⟩,
  ⟨0x128, [(3, 0x40)], 0, 0, 0, 0, 0⟩,
  ⟨0x130, [(3, 0x40)], 0, 0, 0, 0, 0⟩,
  ⟨0x138, [(3, 0x40)], 0, 0, 0, 0, 0⟩,
  ⟨0x300, [(3, 8)], 0xffffffffffffffff, 0, 0, 0, 0⟩,
  ⟨0x200, [(16, 8)], 0xffffffffffffffff, 0, 0, 0, 0⟩,
  ⟨0x808, [(255, 8)], 0xffffffffffffffff, 0, 0, 0, 0⟩,
  ⟨0x400, [], 0, 0, 0, 0, 0⟩,
  ⟨0x408, [], 0, 0, 0, 0, 0⟩,
  ⟨0x410, [], 0, 0, 0, 0, 0⟩,
  ⟨0x418, [], 0, 0, 0, 0, 0⟩,
  ⟨0x420, [], 0, 0, 0, 0, 0⟩,
  ⟨0x428, [], 0, 0, 0, 0, 0⟩,
  ⟨0x430, [], 0, 0, 0, 0, 0⟩,
  ⟨0x438, [], 0, 0, 0, 0, 0⟩,
  ⟨0x440, [], 0, 0, 0, 0, 0⟩,
  ⟨0x448, [(2, 8)], 0, 0, 0, 0, 0xfac688fac688⟩]

/-- Rows of the statistics slots: offset, repetition, RW, RW1C, RC and WO bits, reset value. -/
def Rows.sta : List RegRow := [
  ⟨0, [(16, 0x800)], 0, 0, 0, 0, 0⟩,
  ⟨8, [(16, 0x800)], 0, 0, 0, 0, 0⟩,
  ⟨0x400, [(16, 0x800), (64, 0x10)], 0, 0, 0, 0, 0⟩,
  ⟨0x408, [(16, 0x800), (64, 0x10)], 0, 0, 0, 0, 0⟩,
  ⟨0x8000, [(32, 0x80), (10, 8)], 0, 0, 0, 0, 0⟩,
  ⟨0x9000, [(8, 0x10), (2, 8)], 0, 0, 0, 0, 0⟩]

/-- Rows of the activation stack unit registers: offset, repetition, RW, RW1C, RC and WO bits, reset value. -/
def Rows.asu : List RegRow := [
  ⟨0, [], 0, 0, 0, 0, 0⟩,
  ⟨8, [], 0, 0, 0xffffffff3fff, 0, 0⟩,
  ⟨0x100, [(16, 0x40)], 0, 0, 0, 0, 0⟩,
  ⟨0x108, [(16, 0x40)], 0, 0, 0, 0, 0⟩,
  ⟨0x110, [(16, 0x40)], 0xfffffffe00000, 0, 0, 0, 0⟩,
  ⟨0x118, [(16, 0x40)], 0xffff, 0, 0, 0, 0⟩,
  ⟨0x120, [(16, 0x40)], 7, 0, 0, 0, 1⟩,
  ⟨0x128, [(16, 0x40)], 0, 0, 0, 0, 0⟩,
  ⟨0x130, [(16, 0x40)], 0, 0, 0, 0, 0⟩,
  ⟨0x138, [(16, 0x40)], 0, 0, 0, 0, 0⟩,
  ⟨0x800, [(16, 0x80), (16, 8)], 0, 0, 0, 0, 0⟩]

/-- Rows of the quay unit registers: offset, repetition, RW, RW1C, RC and WO bits, reset value. -/
def Rows.quy : List RegRow := [
  ⟨0, [], 0, 0, 0, 0, 0⟩,
  ⟨8, [], 0, 0, 0, 0, 0⟩,
  ⟨0x10, [], 0, 0, 0x7fffffffff3fff, 0, 0⟩,
  ⟨0x18, [], 0, 0, 0xffffffff, 0, 0⟩,
  ⟨0x20, [], 0, 0, 0x800fffffffffffff, 0, 0⟩,
  ⟨0x28, [], 0, 0, 0, 0, 0⟩,
  ⟨0x100, [(16, 0x40)], 0, 0, 0, 0, 0⟩,
  ⟨0x108, [(16, 0x40)], 0, 0, 0, 0, 0⟩,
  ⟨0x110, [(16, 0x40)], 0, 0, 0, 0, 0⟩,
  ⟨0x118, [(16, 0x40)], 0, 0, 0, 0, 0⟩,
  ⟨0x120, [(16, 0x40)], 0, 0, 0, 0, 0⟩]

/-- Rows of the reduction engine registers: offset, repetition, RW, RW1C, RC and WO bits, reset value. -/
def Rows.rdx : List RegRow := [
  ⟨0, [], 0, 0, 0, 0, 0x1440040⟩,
  ⟨8, [], 0, 0, 0xffff0007ffff, 0, 0⟩,
  ⟨0x10, [], 0, 0, 0, 0, 0⟩,
  ⟨0x18, [], 0, 0, 0, 0, 0⟩,
  ⟨0x100, [(16, 0x100)], 0x7f, 0, 0, 0, 0⟩,
  ⟨0x108, [(16, 0x100)], 0xffffffff, 0, 0, 0, 0xf4240⟩,
  ⟨0x110, [(16, 0x100)], 0x800ffffffffffffc, 0, 0, 0, 0⟩,
  ⟨0x118, [(16, 0x100)], 0, 0, 0, 0, 0⟩,
  ⟨0x120, [(16, 0x100)], 0, 0, 0, 0, 0⟩,
  ⟨0x128, [(16, 0x100)], 0, 0, 0, 0, 0⟩,
  ⟨0x130, [(16, 0x100), (5, 8)], 0, 0, 0, 0, 0⟩,
  ⟨0x158, [(16, 0x100), (8, 8)], 0xffffffffffffffff, 0, 0, 0, 0xffffffffffffffff⟩,
  ⟨0x198, [(16, 0x100)], 0, 0, 0, 0, 0⟩,
  ⟨0x1a0, [(16, 0x100)], 0, 0, 0, 0, 0⟩,
  ⟨0x2000, [(64, 0x40)], 0, 0, 0, 0, 0⟩,
  ⟨0x2008, [(64, 0x40)], 0, 0, 0, 0, 0⟩,
  ⟨0x2010, [(64, 0x40)], 0, 0, 0, 0, 0⟩]

/-- Rows of the KV page manager registers: offset, repetition, RW, RW1C, RC and WO bits, reset value. -/
def Rows.kvp : List RegRow := [
  ⟨0, [], 0, 0, 0, 0, 0⟩,
  ⟨8, [], 0, 0, 0xffffffff3fff, 0, 0⟩,
  ⟨0x100, [(16, 0x40)], 0, 0, 0, 0, 0⟩,
  ⟨0x108, [(16, 0x40)], 0xffff01ff01ff, 0, 0, 0, 0⟩,
  ⟨0x110, [(16, 0x40)], 0xffffffffff000, 0, 0, 0, 0⟩,
  ⟨0x118, [(16, 0x40)], 0xffffffffff000, 0, 0, 0, 0⟩,
  ⟨0x120, [(16, 0x40)], 0xffffffffff000, 0, 0, 0, 0⟩,
  ⟨0x128, [(16, 0x40)], 0, 0, 0, 0xf, 0⟩,
  ⟨0x130, [(16, 0x40)], 0, 0, 0, 0, 0⟩,
  ⟨0x138, [(16, 0x40)], 0, 0, 0, 0, 0⟩]

/-- Rows of the tile core registers: offset, repetition, RW, RW1C, RC and WO bits, reset value. -/
def Rows.tcx : List RegRow := [
  ⟨0, [], 0xffffffff80000, 0, 0, 0, 0⟩,
  ⟨8, [], 0, 0, 0, 0xf1ff, 0⟩,
  ⟨0x10, [], 0xffffffffffffe, 0, 0, 0, 0⟩,
  ⟨0x18, [], 0xffffffffffffffff, 0, 0, 0, 0⟩,
  ⟨0x20, [], 0, 0, 0x7ff, 0, 0⟩,
  ⟨0x1000, [(512, 8)], 0, 0, 0, 0, 0⟩]

/-- Rows of the HBM controller registers: offset, repetition, RW, RW1C, RC and WO bits, reset value. -/
def Rows.mem : List RegRow := [
  ⟨0, [], 0, 0, 0, 0, 0⟩,
  ⟨8, [], 0, 0, 0xffffffffffff, 0, 0⟩,
  ⟨0x10, [], 0, 0, 0x800fffffffffffc0, 0, 0⟩,
  ⟨0x18, [], 0xff, 0, 0, 0, 0x18⟩]

/-- Rows of the CXL tier registers: offset, repetition, RW, RW1C, RC and WO bits, reset value. -/
def Rows.cxt : List RegRow := [
  ⟨0, [(4, 8)], 0, 0, 0, 0, 0⟩,
  ⟨0x20, [], 0, 0, 0xffffffffffff, 0, 0⟩,
  ⟨0x100, [(8, 0x20)], 0xffffff0000000, 0, 0, 0, 0⟩,
  ⟨0x108, [(8, 0x20)], 0xffffff0000000, 0, 0, 0, 0⟩,
  ⟨0x110, [(8, 0x20)], 0x9ff1f, 0, 0, 0, 0⟩]

/-- Rows of the coherence registers: offset, repetition, RW, RW1C, RC and WO bits, reset value. -/
def Rows.coh : List RegRow := [
  ⟨0, [], 0, 0, 0, 0, 0x1008042000014⟩,
  ⟨8, [], 0xfffff, 0, 0, 0, 0x14⟩,
  ⟨0x10, [], 0xf, 0, 0, 0, 8⟩,
  ⟨0x18, [], 0, 0, 0xfffff, 0, 0⟩,
  ⟨0x20, [], 0, 0, 0x800fffffffffffc0, 0, 0⟩,
  ⟨0x100, [(20, 0x40)], 0, 0, 0, 0, 0⟩,
  ⟨0x108, [(20, 0x40)], 0, 0, 0, 0, 0⟩,
  ⟨0x110, [(20, 0x40)], 0, 0, 0, 0, 0⟩,
  ⟨0x118, [(20, 0x40)], 0, 0, 0, 0, 0⟩,
  ⟨0x120, [(20, 0x40)], 0, 0, 0, 0, 0⟩]

/-- Rows of the Towpath port registers: offset, repetition, RW, RW1C, RC and WO bits, reset value. -/
def Rows.twp : List RegRow := [
  ⟨0, [], 0, 0, 0, 0, 0⟩,
  ⟨8, [], 0, 0, 0, 3, 0⟩,
  ⟨0x10, [], 0, 0, 0, 0, 0⟩,
  ⟨0x18, [], 0, 0, 0xffffffffffffffff, 0, 0⟩,
  ⟨0x20, [], 0, 0, 0xffffffffffffffff, 0, 0⟩,
  ⟨0x28, [], 0, 0, 0xffffffffffffffff, 0, 0⟩,
  ⟨0x30, [], 0, 0, 0xffffffff, 0, 0⟩]

/-- Rows of the Towpath ring and window registers: offset, repetition, RW, RW1C, RC and WO bits, reset value. -/
def Rows.twp0 : List RegRow := [
  ⟨0x8000, [], 0xffffffffffffffff, 0, 0, 0, 0⟩,
  ⟨0x8008, [], 0xffffffff, 0, 0, 0, 0xf4240⟩,
  ⟨0x8100, [(16, 8)], 0, 0, 0, 0, 0⟩,
  ⟨0x8400, [(64, 0x20)], 0xfffffffffffff, 0, 0, 0, 0⟩,
  ⟨0x8408, [(64, 0x20)], 0x1ffffffff, 0, 0, 0, 0⟩,
  ⟨0x8410, [(64, 0x20)], 0xffff, 0, 0xffff000000000000, 0, 0⟩]

/-- Rows of the host interface registers: offset, repetition, RW, RW1C, RC and WO bits, reset value. -/
def Rows.hif : List RegRow := [
  ⟨0, [], 0, 0, 0, 0, 0⟩,
  ⟨8, [], 1, 0, 0, 0, 0⟩,
  ⟨0x10, [], 0x1fffff, 0, 0, 0x200000, 0⟩,
  ⟨0x18, [], 0xffffffc000001, 0, 0, 0, 0⟩,
  ⟨0x20, [], 0xfffffffc00000, 0, 0, 0, 0x3000000800000⟩,
  ⟨0x28, [], 0, 0, 0, 0, 0⟩,
  ⟨0x30, [], 0, 0, 0xffffffffffff, 0, 0⟩,
  ⟨0x38, [], 0, 0x7f, 0, 0, 0⟩,
  ⟨0x40, [], 0x7ff3fffffff, 0, 0, 0, 0⟩,
  ⟨0x108, [(16, 0x10)], 0x7ff3fffffff, 0, 0, 0, 0⟩,
  ⟨0x100, [(16, 0x10)], 0, 0x7f, 0, 0, 0⟩,
  ⟨0x300, [], 0xfffffffc00001, 0, 0, 0, 0⟩,
  ⟨0x308, [], 0, 0, 0, 0xffffff003f, 0⟩,
  ⟨0x1000, [(64, 0x40)], 0xfffffffffffff001, 0, 0, 0, 0⟩,
  ⟨0x1008, [(64, 0x40)], 0xfffffffffffff001, 0, 0, 0, 0⟩,
  ⟨0x1010, [(64, 0x40)], 0x7f, 0, 0, 0, 0⟩,
  ⟨0x1018, [(64, 0x40)], 0, 0, 0, 3, 0⟩,
  ⟨0x1020, [(64, 0x40)], 0, 0, 0, 0, 0⟩,
  ⟨0x1028, [(64, 0x40)], 0, 0, 0, 0, 0⟩,
  ⟨0x1030, [(64, 0x40)], 0xffff00ff03ffffff, 0, 0, 0, 0x100000000⟩,
  ⟨0x1038, [(64, 0x40)], 0, 0, 0xffffffff00000000, 0, 0⟩,
  ⟨0x80000, [(64, 0x1000)], 0, 0, 0, 0xffffff, 0⟩,
  ⟨0x80008, [(64, 0x1000)], 0, 0, 0, 0xffff, 0⟩]

/-- Rows of the Lockkeeper registers: offset, repetition, RW, RW1C, RC and WO bits, reset value. -/
def Rows.lk : List RegRow := [
  ⟨0, [], 0, 0, 0, 0, 0⟩,
  ⟨8, [], 0, 0, 0, 0, 1⟩,
  ⟨0x10, [], 0, 0, 0, 0, 0⟩,
  ⟨0x18, [], 0, 0, 0, 0xf0f, 0⟩,
  ⟨0x20, [], 0xffff0001, 0, 0, 0, 0x3e80000⟩,
  ⟨0x28, [], 0, 0, 0, 0, 0⟩,
  ⟨0x30, [], 3, 0, 0, 0, 0⟩,
  ⟨0x38, [], 0x3ff, 0, 0, 0, 0⟩,
  ⟨0x40, [], 0, 0, 0, 0, 0⟩,
  ⟨0x48, [], 2, 0, 0, 0, 0x78⟩,
  ⟨0x50, [], 0xffffffff, 0, 0, 0, 0x9c4⟩,
  ⟨0x100, [(96, 8)], 0, 0, 0xffff000000000000, 0, 0⟩,
  ⟨0x400, [(66, 8)], 0, 0, 0, 0, 0⟩]

/-- Rows of the security controller registers: offset, repetition, RW, RW1C, RC and WO bits, reset value. -/
def Rows.sec : List RegRow := [
  ⟨0, [], 0, 0, 0, 0, 0⟩,
  ⟨8, [], 0, 0, 0, 0, 0⟩,
  ⟨0x10, [], 0, 0, 0, 0, 0⟩,
  ⟨0x18, [], 0, 0, 0, 0, 0⟩,
  ⟨0x20, [], 0, 0, 0, 0, 0⟩]

/-- Rows of the perturbation registers: offset, repetition, RW, RW1C, RC and WO bits, reset value. -/
def Rows.ptb : List RegRow := [
  ⟨0, [], 1, 0, 0, 0, 0⟩,
  ⟨8, [], 0xffffffffffffffff, 0, 0, 0, 0⟩,
  ⟨0x20, [], 0, 0, 0xffffffffffffffff, 0, 0⟩,
  ⟨0x28, [], 0, 0, 0xffffffffffffffff, 0, 0⟩,
  ⟨0x100, [(8, 8)], 0x1ffffffff, 0, 0, 0, 0⟩,
  ⟨0x140, [(8, 8)], 0x100ffff7f, 0, 0, 0, 0⟩,
  ⟨0x180, [(8, 8)], 0x1ffffffffff, 0, 0, 0, 0⟩,
  ⟨0x1c0, [], 0x10fffffff, 0, 0, 0, 0⟩,
  ⟨0x1c8, [], 0x1007fffff, 0, 0, 0, 0⟩,
  ⟨0x1d0, [], 0x10fffffff, 0, 0, 0, 0⟩]

/-- Every register block: base, repetition, size, and its rows. -/
def regBlocks : List RegBlock := [
  ⟨0x3000000000000, [], 0x1000, 0, Rows.glb⟩,
  ⟨0x3000000100000, [], 0x10000, 0, Rows.wv⟩,
  ⟨0x3000001000000, [(4, 0x400000), (8, 0x10000)], 0x10000, 1, Rows.eng⟩,
  ⟨0x3000001080000, [(4, 0x400000), (2, 0x10000)], 0x10000, 2, Rows.pvu⟩,
  ⟨0x3000002000000, [(16, 0x10000)], 0x10000, 2, Rows.psq⟩,
  ⟨0x3000004100000, [], 0x10000, 0, Rows.sta⟩,
  ⟨0x30000010a0000, [(4, 0x400000)], 0x10000, 2, Rows.asu⟩,
  ⟨0x3000003000000, [(16, 0x10000)], 0x10000, 3, Rows.quy⟩,
  ⟨0x3000000600000, [], 0x10000, 0, Rows.rdx⟩,
  ⟨0x30000010b0000, [(4, 0x400000)], 0x10000, 2, Rows.kvp⟩,
  ⟨0x30000010c0000, [(4, 0x400000)], 0x10000, 0, Rows.tcx⟩,
  ⟨0x30000010d0000, [(4, 0x400000), (2, 0x10000)], 0x10000, 0, Rows.mem⟩,
  ⟨0x3000000700000, [], 0x10000, 0, Rows.cxt⟩,
  ⟨0x3000000800000, [], 0x10000, 0, Rows.coh⟩,
  ⟨0x3000000500000, [(12, 0x10000)], 0x8000, 0, Rows.twp⟩,
  ⟨0x3000000500000, [], 0x10000, 0, Rows.twp0⟩,
  ⟨0x3000000400000, [], 0x100000, 0, Rows.hif⟩,
  ⟨0x3000000200000, [], 0x10000, 0, Rows.lk⟩,
  ⟨0x3000000300000, [], 0x10000, 0, Rows.sec⟩,
  ⟨0x3000004000000, [], 0x10000, 0, Rows.ptb⟩]

end Sys2Proof.Machine
end

