-- ==== Sys2Proof/Machine/State.lean ====
section
/-! DEFINITION. The state of the module as plain data: registers, memory, and the contexts that its units hold. -/

namespace Sys2Proof.Machine

/-- Why the module could stop. No rule of the spec stops it as a whole, and no meaning raises a fault. -/
inductive Fault where
  /-- Raised by no meaning: every command of the table answers a next state (safe). -/
  | none
  deriving DecidableEq, Repr

/-- Why a command has no meaning in the model. -/
inductive Refusal where
  /-- A command that the model does not give a meaning to (safe). -/
  | notModelled (mnemonic : String)
  deriving DecidableEq, Repr

/-- What the module last answered to a read, a command or a request. -/
inductive Resp where
  | none
  /-- A word read, or an old value. -/
  | value (v : Nat)
  /-- Bytes read. -/
  | data (b : List Byte)
  /-- The data returned is poison. -/
  | poison
  /-- An error response. -/
  | error
  /-- A write or command performed. -/
  | done
  /-- A Completer Abort (R310). -/
  | abort
  /-- An Unsupported Request of the host link (R306). -/
  | unsupported
  /-- A management response: STATUS and result (R382). -/
  | mgmt (cmd tag status : Nat) (b : List Byte)
  /-- An SPDM response code and its data (R380). -/
  | spdm (code : Nat) (b : List Byte)
  /-- A line with the state granted: 0 S, 1 E or M, 2 none (R279). -/
  | line (st : Nat) (b : List Byte)
  /-- RETRY (R278). -/
  | retry
  deriving DecidableEq, Repr

/-- What the module sends outward, in the order sent. -/
inductive HostMsg where
  /-- A write to host memory. -/
  | write (addr : Nat) (data : List Byte)
  /-- A write to host memory of `n` bytes that carries poison (Table 13-7). -/
  | poison (addr n : Nat)
  /-- An MSI-X message (R325, R326). -/
  | msix (vector : Nat)
  /-- A write of an identity to the S file of a server core's IMSIC (R240, R325). -/
  | imsic (hart eiid : Nat)
  deriving DecidableEq, Repr

/-! ### Lockkeeper (15_lockkeeper) -/

/-- The Lockkeeper's own context: pins after their filters, rails, the load and the resets in progress. -/
structure Lk where
  /-- Input present: V_AON up (R349). -/
  powered   : Bool
  /-- PWR_OK high, filtered (R357). -/
  pwrOk     : Bool
  /-- SUPPLY_WARN_N low, filtered. -/
  warnLow   : Bool
  /-- WRST_N low, filtered. -/
  wrstLow   : Bool
  /-- Rails enabled, 0 to 8 (R350). -/
  railsOn   : Nat
  /-- The cold sequence holds before XF (R403). -/
  coldHold  : Bool
  /-- Restarts of the option load (R366). -/
  optTries  : Nat
  /-- OPTSEL still to be read in this load (cold reset only, R367). -/
  optRead   : Bool
  /-- A warm reset's domains are in reset, being released. -/
  warm      : Bool
  /-- Cause of the warm reset in progress. -/
  warmCause : Nat
  /-- Stakes that ran when the warm reset began, and resume after it (Table 14-4 step 5). -/
  resume    : Nat
  /-- Hottest A-die junction requests this level (R356). -/
  tjLevel   : Nat
  /-- HBM controllers that ask for throttle, one bit each (R265). -/
  hbmHot    : Nat
  /-- Domains released by LK_FORCE, bit n for order n (R369). -/
  forced    : Nat
  /-- SLOT_ID strap (R402). -/
  slotId    : Nat
  /-- Domains UNITS and SCX released since the weave was applied. -/
  unitsUp   : Bool
  /-- MOD_FAULT_N asserted (Table 15-7). -/
  faultN    : Bool
  /-- The external host staged an image and wrote GO (R314). -/
  bootGo    : Bool
  /-- No SCX firmware passed: SCX is not released (R377). -/
  scxBad    : Bool
  deriving DecidableEq, Repr

/-! ### weave (01_weave) -/

/-- A stake record (R15, Table 1-3). -/
structure StakeRec where
  level     : Nat
  stake     : Nat
  enable    : Bool
  master12  : Bool
  eng       : Nat
  pvu       : Nat
  spad      : Nat
  mb        : Nat
  tc        : Nat
  ch        : Nat
  ways      : List Nat
  stackBase : Nat
  stackLim  : Nat
  wfmt      : Nat
  ffmt      : Nat
  xfmt      : Nat
  group     : Nat
  jobBase   : Nat
  jobCount  : Nat
  seqLimit  : Nat
  kvPages   : Nat
  kvBase    : Nat
  jrnlBase  : Nat
  jrnlKib   : Nat
  deriving DecidableEq, Repr

/-- The record of a stake that is not enabled. -/
def StakeRec.off : StakeRec :=
  ⟨0, 0, false, false, 0, 0, 0, 0, 0, 0, [], 0, 0, 0, 0, 0, 0xFF, 0, 0, 0, 0, 0, 0, 0⟩

/-- A RING record (R18). -/
structure RingRec where
  ring     : Nat
  egress   : Nat
  ingress  : Nat
  position : Nat
  length   : Nat
  deriving DecidableEq, Repr

/-- A GROUP record (R19). -/
structure GroupRec where
  group    : Nat
  ring     : Nat
  members  : Nat
  rank     : Nat
  headroom : Nat
  id       : Nat
  deriving DecidableEq, Repr

/-- An OWNER entry (R22): block and span in units of 64 KiB, owner bits. -/
structure OwnerRec where
  block  : Nat
  span   : Nat
  owners : Nat
  deriving DecidableEq, Repr

/-- The sections of an image, or the active weave (R14, R26). -/
structure WeaveData where
  stakes : List StakeRec
  widths : Nat
  rings  : List RingRec
  groups : List GroupRec
  pounds : List (Nat × Nat)
  owners : List OwnerRec
  hostq  : List (Nat × Nat)
  deriving DecidableEq, Repr

/-- No weave. -/
def WeaveData.empty : WeaveData := ⟨[], 0, [], [], [], [], []⟩

/-- The SEC's weave context. -/
structure WeaveCtx where
  /-- A weave is active (kept through warm resets, R26). -/
  active  : Bool
  /-- The active weave. -/
  cur     : WeaveData
  /-- The image digest of WV_DIGEST (R410). -/
  digest  : BitVec 384
  /-- The SEC's staging buffer for host boot (R314): bytes written. -/
  staging : KMap Byte
  /-- Number of the loss since which the buffer has held undefined bytes. -/
  stage   : Nat
  /-- Sections of the partial image that passed its checks. -/
  part    : WeaveData
  partDig : BitVec 384
  /-- Step of Table 1-8 reached: 0 none, 3 checked, 5 quiescing. -/
  phase   : Nat
  deriving DecidableEq, Repr

/-! ### pass sequencers (05_passes) and what outstanding instructions carry -/

/-- What a chain has produced so far (R86, R100, R101, R110): committed when its instruction completes. -/
structure ChainRun where
  /-- Next row. -/
  row    : Nat
  /-- Pushed rows: frame offset, bytes, row scale (FP32). -/
  pushes : List (Nat × List Byte × Nat)
  /-- Rows for dW slices, FP32 codes. -/
  tile   : List (List Nat)
  /-- Slices sent. -/
  sent   : Nat
  /-- Reduction vector for AUXOUT. -/
  aux    : List Nat
  /-- PVU updates: PVU, register, element, FP32 code. -/
  pv     : List (Nat × Nat × Nat × Nat)
  maxabs : Nat
  nonfin : Nat
  sat    : Nat
  /-- Dense rows or elements written (COMPRESS) or read (EXPAND). -/
  dense  : Nat
  /-- EXPAND's mask selected more rows than SRC1 has (R105). -/
  overrun : Bool
  /-- A source returned poison. -/
  poison : Bool
  deriving DecidableEq, Repr

/-- A chain that has processed nothing. -/
def ChainRun.start : ChainRun := ⟨0, [], [], 0, [], [], 0, 0, 0, 0, false, false⟩

/-- An outstanding instruction of a stake (R129, R130). -/
structure Outst where
  /-- Dispatch number within the stake. -/
  seq    : Nat
  /-- 0 F, 1 B, 2 U. -/
  strm   : Nat
  index  : Nat
  pc     : Nat
  word   : Nat
  /-- Engine, DVU, PVU or die that executes it. -/
  unit   : Nat
  /-- Counters taken at dispatch, as a mask (R124). -/
  waits  : Nat
  /-- Low half of the step in which it dispatched (R134). -/
  step   : Nat
  issued : Bool
  /-- Descriptor copy (R130). -/
  desc   : List Byte
  /-- Chain descriptor copy or microprogram. -/
  chain  : List Byte
  /-- The frame read through a slot, bound at dispatch: its number (die, tag, START) plus one, 0 for none (R158). -/
  frame  : Nat
  /-- The frame pushed to, in the same form (R155). -/
  pushTo : Nat
  /-- Accumulator rows, FP32 or INT32 codes (R54, R55). -/
  acc    : List (List Nat)
  /-- The accumulators are integers. -/
  accInt : Bool
  /-- FEEDER rows of SRC2 (Table 4-1). -/
  feed   : List (List Nat)
  run    : ChainRun
  /-- Progress of a multi-part operation. -/
  prog   : Nat
  /-- The re-run of an instruction that had issued counts as issued (R343). -/
  rerun  : Bool
  /-- Its place in the order of issue, 0 before it issues (R115). -/
  turn   : Nat
  deriving DecidableEq, Repr

/-- The context of a pass sequencer. -/
structure Psq where
  /-- Program words fetched: stream, offset, word (R121). -/
  words  : List (Nat × Nat × Nat)
  /-- Bit x: the head instruction of stream x is to be skipped (R143). -/
  skip   : Nat
  outst  : List Outst
  seq    : Nat
  /-- SEAL between steps 2 and 8: its word, index and waits (R133). -/
  sealing : Option (Nat × Nat × Nat)
  deriving DecidableEq, Repr

/-- A pass sequencer with nothing outstanding. -/
def Psq.idle : Psq := ⟨[], 0, [], 0, none⟩

/-- A statistics slot (R110). -/
structure Slot where
  maxabs : Nat
  nonfin : Nat
  sat    : Nat
  deriving DecidableEq, Repr

/-! ### vector units (04_drain_vector) -/

/-- A PVU: 32 registers of 256 FP32 codes, absent rows all +0; the assist ring (R111, R116). -/
structure Pvu where
  regs : KMap (List Nat)
  /-- Assists posted. -/
  head : Nat
  /-- Assists completed. -/
  tail : Nat
  deriving DecidableEq, Repr

/-! ### activation stack (06_activation_stack) -/

/-- A frame of a tag (R150, Table 6-1). -/
structure Frame where
  tag    : Nat
  start  : Nat
  segs   : Nat
  fmt    : Nat
  fexp   : Nat
  fixed  : Bool
  label  : Nat
  /-- STATE of Table 6-1. -/
  state  : Nat
  /-- An SDROP of it has dispatched and not issued (R159). -/
  dropping : Bool
  /-- SBIND has bound it (R160). -/
  bound  : Bool
  /-- Prefetched or raised: not evicted (R162). -/
  pinned : Bool
  /-- Order in which frames were closed (R162). -/
  closedAt : Nat
  deriving DecidableEq, Repr

/-- Segments of a whole frame: data, the scale part of a row-scaled FP8 frame, and the trailer (R150). -/
def Frame.height (f : Frame) : Nat :=
  f.segs + (if (f.fmt == 3 || f.fmt == 4) && !f.fixed then (f.segs * 64 + 64 + 4095) / 4096 else 1)

/-- The context that the ASU of a die keeps for a stake. -/
structure Asu where
  /-- Frames, in the order opened. -/
  frames : List Frame
  /-- Tags and the index of their tag area (R148). -/
  areas  : List (Nat × Nat)
  /-- Segments resident in the pool: tag and segment (R161). -/
  pool   : List (Nat × Nat)
  /-- Segments in the near area, in the order written: tag, segment and place in the area (R163). -/
  near   : List (Nat × Nat × Nat)
  /-- Pushed segments not yet placed. -/
  pushq  : List (Nat × Nat)
  /-- Segments being fetched into the pool. -/
  xferq  : List (Nat × Nat)
  /-- Tags whose rebuild read an uncorrectable trailer (Table 6-4). -/
  unread : List Nat
  deriving DecidableEq, Repr

/-- Nothing on the stack. -/
def Asu.empty : Asu := ⟨[], [], [], [], [], [], []⟩

/-! ### quay units (07_quay) -/

/-- A dW slice: stake, dispatch number of its instruction, record address of its first element, 64 FP32 codes (R101). -/
structure Slice where
  stake  : Nat
  seq    : Nat
  addr   : Nat
  vals   : List Nat
  poison : Bool
  deriving DecidableEq, Repr

/-- A staging reservation (R174): stake, dispatch number, slices. -/
structure Resv where
  stake  : Nat
  seq    : Nat
  slices : Nat
  deriving DecidableEq, Repr

/-- A binding of a job (R185, R186): job, stake, descriptor and microprogram copies, statistics step, stream index. -/
structure Bind where
  job   : Nat
  stake : Nat
  desc  : List Byte
  prog  : List Byte
  step  : Nat
  index : Nat
  deriving DecidableEq, Repr

/-- A reduced block at its owning quay unit (R178, R206): job, block number in job order, 32 FP32 codes, marked FINAL (else
SPILLED), poisoned. -/
structure Block where
  job    : Nat
  block  : Nat
  vals   : List Nat
  final  : Bool
  poison : Bool
  deriving DecidableEq, Repr

/-- A far atomic at a quay unit (R188): home transaction id, operation, address, size, operands. -/
structure FarAtom where
  id   : Nat
  op   : AtomOp
  addr : Nat
  size : Nat
  a    : Nat
  b    : Nat
  deriving DecidableEq, Repr

/-- What waits to act on record groups at a quay unit, in the order in which it arrived (R176). -/
inductive Trig where
  /-- The fold of an instruction's staged slices. -/
  | fold (stake seq : Nat)
  /-- A QUPD, QCLR or QEMIT, by stake and dispatch number. -/
  | op (stake seq : Nat)
  /-- A job's reads of accumulators: it stays until the job closes and holds its groups (R177). -/
  | read (job : Nat)
  /-- The update of a job's group whose two blocks are FINAL (R178). -/
  | upd (job group : Nat)
  /-- A far atomic (R188). -/
  | atom (f : FarAtom)
  deriving DecidableEq, Repr

/-- The context of a quay unit: what it holds for its own channels, and the copies that its partner's staging mirrors here. -/
structure Quay where
  resv    : List Resv
  waiting : List Resv
  staged  : List Slice
  /-- Mirror copies of the partner's slices. -/
  mirror  : List Slice
  /-- Triggers that have not been applied, in arrival order. -/
  trig    : List Trig
  /-- Blocks on pound 0x0500 + q, not yet arrived. -/
  inbox   : List Block
  /-- FINAL blocks staged for their update. -/
  blocks  : List Block
  /-- Mirror copies of the partner's blocks. -/
  blockMirror : List Block
  /-- Old values to return: home transaction id and value. -/
  olds    : List (Nat × Nat)
  deriving DecidableEq, Repr

/-- A quay unit with nothing staged. -/
def Quay.empty : Quay := ⟨[], [], [], [], [], [], [], [], []⟩

/-! ### gradient reduction (08_reduction) -/

/-- A seal record (R193, Table 8-1). -/
structure SealRec where
  gid      : Nat
  members  : Nat
  headroom : Nat
  level    : Nat
  mismatch : Bool
  wide     : Bool
  step     : Nat
  nonfin   : Nat
  /-- FP64 code. -/
  normsq   : Nat
  exps     : List Nat
  deriving DecidableEq, Repr

/-- A hand-off of a SEAL: its step and its own record, none for state NONE (R198). -/
structure Handoff where
  step : Nat
  own  : Option SealRec
  deriving DecidableEq, Repr

/-- The seal exchange of a stake (R195-R198). -/
structure Xch where
  /-- The open exchange. -/
  current : Option Handoff
  queued  : Option Handoff
  /-- A record received in the first pass has been combined and forwarded. -/
  passed  : Bool
  /-- Steps of hand-offs that have ended. -/
  ended   : List Nat
  /-- Seal barges held for an exchange that has not opened: step and record. -/
  buffer  : List (Nat × SealRec)
  /-- The agreed record of the last exchange that ended DONE or MISMATCH. -/
  agreed  : Option SealRec
  deriving DecidableEq, Repr

/-- No exchange. -/
def Xch.idle : Xch := ⟨none, none, false, [], [], none⟩

/-- A reduction job (R201-R212). -/
structure Job where
  stake   : Nat
  /-- Dispatch number of its RJOB. -/
  seq     : Nat
  desc    : List Byte
  /-- Issued (OPEN); else WAITING for the exchange. -/
  issued  : Bool
  /-- The triggers that reached the quay units before its reads have been applied, and its first reads are made (R176). -/
  begun   : Bool
  skip    : Bool
  jgs     : Nat
  /-- First-pass exponent E. -/
  exp     : Nat
  step    : Nat
  /-- Blocks that this member has read and passed on in the first pass. -/
  passed  : List Nat
  /-- Owned groups updated. -/
  updated : List Nat
  /-- Owned groups whose GATHER barge is still to be sent, ascending. -/
  toSend  : List Nat
  /-- Groups of other owners written by GATHER. -/
  written : List Nat
  /-- A poisoned working copy was written by the all-gather. -/
  badCopy : Bool
  /-- An update met poison. -/
  badUpd  : Bool
  deriving DecidableEq, Repr

/-! ### Towpath (12_towpath) -/

/-- A frame sent and not acknowledged: SEQ, class, ring direction (ring * 2 + direction) and flit (R292). -/
structure TxFrame where
  seq  : Nat
  cls  : Nat
  rd   : Nat
  flit : List Byte
  deriving DecidableEq, Repr

/-- What a port sends on its lanes. -/
inductive LinkMsg where
  /-- What step 4 of a training sends (Table 12-2). -/
  | train (o : LinkOffer)
  /-- A frame of 280 bytes (Table 12-3). -/
  | frame (b : List Byte)
  deriving DecidableEq, Repr

/-- The context of a port. Its configured width and depths come from the weave. -/
structure Port where
  /-- A link session exists. -/
  session  : Bool
  /-- SEQ of the next DATA frame to send. -/
  txSeq    : Nat
  /-- Frames kept for replay (R292). -/
  replay   : List TxFrame
  /-- Flits of each class that may still be sent: what the partner granted less what was sent (R296). -/
  credit   : List Nat
  /-- Last CREDIT0-3 and SCREDIT values received. -/
  seen     : List Nat
  /-- Last JCREDIT values received. -/
  seenJob  : KMap Nat
  /-- SEQ of the next DATA frame to accept. -/
  rxSeq    : Nat
  /-- NAK is set in every frame sent. -/
  nak      : Bool
  /-- NAK of the last frame received. -/
  nakIn    : Bool
  /-- Successive NAKs of one frame, and consecutive frames that did not decode (R294). -/
  nakRun   : Nat
  badRun   : Nat
  /-- Fast retrains that failed in a row (R294). -/
  fails    : Nat
  /-- Flits received and not consumed: class (plus 8 where an earlier session received it) and flit. -/
  rx       : List (Nat × List Byte)
  /-- Flits of each class, and seal barges, freed since the session began (Table 12-4). -/
  freed    : List Nat
  /-- Reduction flits of each job consumed. -/
  freedJob : KMap Nat
  /-- The session ended; the final ACK of frames received, until a full training (R299). -/
  final    : Option Nat
  /-- Frames to be re-sent once the partner's final ACK is known. -/
  held     : List TxFrame
  /-- Lanes marked failed. -/
  badLanes : Nat
  /-- Training steps 1 to 5 are done and frame lock is awaited: full training; and the partner's final ACK of step 4. -/
  locking  : Option Bool
  lockAck  : Nat
  /-- What the port has sent since cold reset, oldest first: the MODEL's own record of its output. -/
  wire     : List LinkMsg
  /-- ACK, NAK and flit of the last CTRL frame sent in this session, and the DATA frames sent since (R295). -/
  said     : List Byte
  run      : Nat
  deriving DecidableEq, Repr

/-- A port with no session. -/
def Port.idle : Port :=
  ⟨false, 0, [], [0, 0, 0, 0], [0, 0, 0, 0, 0], [], 0, false, false, 0, 0, 0, [], [0, 0, 0, 0, 0], [], none, [], 0, none, 0, [], [], 0⟩

/-- A receive slot of a tag (R303). -/
structure RxSlot where
  win    : Nat
  total  : Nat
  count  : Nat
  /-- 0 OK, 1 REJECTED, 2 POISON. -/
  status : Nat
  active : Bool
  deriving DecidableEq, Repr

/-- A slot that has counted nothing. -/
def RxSlot.free : RxSlot := ⟨0, 0, 0, 0, false⟩

/-- A ring direction of this module: what it sends and what it has received. -/
structure RingDir where
  /-- Barges that wait for a port: class and flit (R298). -/
  txq   : List (Nat × List Byte)
  /-- Tags: tag, stake and dispatch number of the TSEND that holds it. -/
  tags  : List (Nat × Nat × Nat)
  /-- Tags unusable until each port of the direction has been through a full training, with the ports still to do so (R301). -/
  stuck : List (Nat × Nat)
  /-- DONE toggles last received for transfers sent. -/
  seen  : Nat
  /-- Tags whose DONE toggle arrived, with its status, and whose TSEND has not completed. -/
  done  : List (Nat × Nat)
  /-- Receive slots by tag. -/
  slots : KMap RxSlot
  /-- DONE toggles and statuses advertised for transfers received. -/
  tog   : Nat
  stat  : Nat
  /-- Flits of each job sent and not yet credited (R205). -/
  jobs  : KMap Nat
  /-- Seal barges sent and not yet credited (R296). -/
  seals : Nat
  /-- The port whose turn it is to send (R298), and the class of 1 to 3 that sent last (R296). -/
  turn  : Nat
  lastCls : Nat
  deriving DecidableEq, Repr

/-- A ring direction with nothing sent or received. -/
def RingDir.idle : RingDir := ⟨[], [], [], 0, [], [], 0, 0, [], 0, 0, 0⟩

/-! ### KV pages (09_attention) -/

/-- The free-list head of a pool, 0xFFFF_FFFF for none (R227, R228), and the bytes copied since INIT (KVP_S_CNT_COPY). -/
structure Kvp where
  head   : Nat
  copied : Nat
  deriving DecidableEq, Repr

/-- A pool that was never initialised. -/
def Kvp.reset : Kvp := ⟨0xFFFFFFFF, 0⟩

/-! ### tile cores (10_cores_memory) -/

/-- A line of a tile core's L1 data cache (R243, R248): line address, bytes held, dirty bytes, poisoned when filled, data, and what a
prefetch of it met that CXT_ERR is still to count: 0 nothing, 1 a port that is down, 2 poison (R271). -/
structure L1Line where
  line  : Nat
  have_ : Nat
  dirty : Nat
  bad   : Bool
  data  : List Byte
  unsaid : Nat
  deriving DecidableEq, Repr

/-- A tile thread (R243, R245, R249). -/
structure Thread where
  /-- Registers that are not zero: 0 to 31 x, 32 to 63 f, 64 pc, 65 fcsr, 66 privilege mode (0 U, 3 M), 67 a trap is held (no
  mret since), 68 to 77 M-mode CSRs, 78 the cycle CSR, 80 to 97 PMP (two configuration words, 16 addresses). -/
  regs  : KMap Nat
  /-- Stream slots (R255). -/
  slots : KMap (List Byte)
  /-- What it waits for: 0 nothing, 1 a token, 2 a word, 3 an assist entry. -/
  wait  : Nat
  /-- The instruction that waits. -/
  word  : Nat
  /-- It restarted at a numbered operation, which keeps its number (R250). -/
  redo  : Bool
  /-- The core of its die that runs it after a failure, plus one; 0 its own (R250). -/
  host  : Nat
  /-- It ran when a warm reset took effect, and restarts from its save area (Table 10-3). -/
  back  : Bool
  deriving DecidableEq, Repr

/-- A thread that has not been launched. -/
def Thread.idle : Thread := ⟨[], [], 0, 0, false, 0, false⟩

/-! ### coherence (11_coherence) -/

/-- A directory entry (R274). Its OPEN bit is that of a transaction on its line. -/
structure DirEnt where
  line    : Nat
  /-- State O, else S. -/
  owned   : Bool
  /-- Holder vector. -/
  holders : Nat
  stamp   : Nat
  deriving DecidableEq, Repr

/-- The request types of Table 11-3 that take a tracker, and the LR and SC of R282. -/
inductive ReqKind where
  | rdShared | rdUnique | rdOnce | wrFull | wrMasked | atomic | watch | lr | sc
  deriving DecidableEq, Repr

/-- A request at a home. -/
structure HomeReq where
  kind  : ReqKind
  /-- Requester: 0 to 68 a caching agent, 69 host, 70 SEC, 80 + k a unit of stake k, 96 + q quay unit q,
  112 + t a tile thread. -/
  who   : Nat
  addr  : Nat
  age   : Nat
  /-- Byte mask of a masked write. -/
  mask  : Nat
  data  : List Byte
  /-- The writer allocates in the home die's slice (R162). -/
  alloc : Bool
  op    : AtomOp
  size  : Nat
  a     : Nat
  b     : Nat
  opnum : Nat
  /-- What the directory entry reads as: 0 good, 1 corrected, 2 uncorrectable (Table 11-4). -/
  ecc   : Nat
  deriving DecidableEq, Repr

/-- A transaction that holds a tracker (R278). -/
structure Tracker where
  id     : Nat
  req    : HomeReq
  rsvd   : Bool
  /-- An ATOMIC that goes to the quay unit, as the home decided when it assigned the tracker (R280). -/
  far    : Bool
  /-- 0 waits for its line, 1 evicts a victim, 2 snoops, 3 at the quay unit, 4 completed. -/
  phase  : Nat
  /-- Line of the directory entry being evicted (R275). -/
  victim : Option Nat
  /-- Snoops: agent and state: 0 sent, 1 answered with nothing or an acknowledgement, 2 with data, 3 with NONE_WB,
  4 a NONE_WB that has arrived (Table 11-4), 5 an answer that was discarded (R390). -/
  snoops : List (Nat × Nat)
  /-- Its answer, once completed. -/
  ans    : Resp
  deriving DecidableEq, Repr

/-- A home agent. -/
structure Home where
  dir     : List DirEnt
  tracks  : List Tracker
  /-- Requests answered RETRY, with a number and whether GRANT was sent. -/
  retry   : List (Nat × HomeReq × Bool)
  /-- Watches: line and tile core (R283). -/
  watches : List (Nat × Nat)
  /-- Snoops timed out and not answered: agent and tracker number (R285). -/
  late    : List (Nat × Nat)
  /-- Allocations and requests so far. -/
  stamp   : Nat
  next    : Nat
  deriving DecidableEq, Repr

/-- A home with nothing tracked. -/
def Home.empty : Home := ⟨[], [], [], [], [], 0, 0⟩

/-! ### host queues (13_host, 14_accepted_work) -/

/-- The configuration space of the PCIe function, where it changes (R306, Table 13-1). -/
structure Pci where
  /-- D3hot, else D0. -/
  d3      : Bool
  /-- MSI-X Enable and Function Mask. -/
  msixOn  : Bool
  msixMask : Bool
  /-- AER uncorrectable status bits: 15 Completer Abort, 20 Unsupported Request. -/
  aer     : Nat
  deriving DecidableEq, Repr

/-- Configuration space after reset (PRESUMED, the PCIe reset values: log 52). -/
def Pci.reset : Pci := ⟨false, false, false, 0⟩

/-- An accepted command that has not been reported (R321, R333). -/
structure Cmd where
  seq    : Nat
  /-- The enabling of the pool ring in which a POOL command was delivered; 0 for a stake's (R332). -/
  era    : Nat
  entry  : List Byte
  /-- Its ACCEPT entry is written. -/
  ack    : Bool
  issued : Bool
  done   : Bool
  status : Nat
  result : Nat
  /-- COPY: bytes written (R335). -/
  prog   : Nat
  /-- COPY has read poison. -/
  poison : Bool
  deriving DecidableEq, Repr

/-- A host queue pair. -/
structure Hq where
  /-- Last accepted doorbell position and position of the next entry to fetch, modulo 255 DEPTH (R319). -/
  a       : Nat
  h       : Nat
  /-- Re-fetches made of the entry at `h`, plus one, while it mismatches; 0 for none (R320). -/
  again   : Nat
  /-- Fetched entries not yet accepted. -/
  hold    : List (List Byte)
  run     : List Cmd
  /-- Completed commands that have no DONE entry, in completion order: sequence number and era. -/
  fin     : List (Nat × Nat)
  /-- REFUSED entries whose write failed, to be written again at RESTART: CID and status (Table 13-8). -/
  lost    : List (Nat × Nat)
  /-- Completion entries written, and passed by software, since CREATE. -/
  cqTail  : Nat
  cqHead  : Nat
  /-- Entries that count toward the interrupt, and a message was sent for them (R325). -/
  irq     : List Nat
  sent    : Bool
  deleting : Bool
  deriving DecidableEq, Repr

/-- A queue pair with nothing in it. -/
def Hq.idle : Hq := ⟨0, 0, 0, [], [], [], [], 0, 0, [], false, false⟩

/-! ### security controller (16_security_debug) -/

/-- Fuses (R375). Key digests: none is Plynser's own, blown at manufacture. -/
structure Fuses where
  keys     : List (Option (BitVec 384))
  valid    : Nat
  revoked  : Nat
  rollback : Nat
  openings : Nat
  deriving DecidableEq, Repr

/-- The boot flash (R376): the bytes of regions 0 to 5 where they were programmed after manufacture, the update area, the
sealed store, and region 9. -/
structure Flash where
  /-- Region and contents; a region not listed holds what it held at manufacture. -/
  regions : KMap (List Byte)
  /-- Regions left invalid by a reset during programming. -/
  invalid : List Nat
  update  : KMap Byte
  /-- Sealed secrets by index (R385). -/
  secrets : KMap (List Byte)
  epoch   : Nat
  /-- Journal capture: per stake EPOCH and LAST, and complete (R347). -/
  capture : List (Nat × Nat)
  captureOk : Bool
  erasePending : Bool
  deriving DecidableEq, Repr

/-- The SPDM responder (R380). -/
structure Spdm where
  /-- 0 nothing, 1 version, 2 capabilities, 3 algorithms negotiated. -/
  phase   : Nat
  /-- Negotiated version: 0x12 or 0x13. -/
  version : Nat
  /-- 0 none, 1 handshake, 2 established. -/
  session : Nat
  sessId  : Nat
  /-- Key updates made in the session. -/
  keyGen  : Nat
  deriving DecidableEq, Repr

/-- The SEC's own context. -/
structure Sec where
  /-- Hash-extended measurements 1 to 4 (R378). -/
  meas    : List (BitVec 384)
  /-- Event log: measurement index and digest. -/
  log     : List (Nat × BitVec 384)
  /-- Bits 2 and 3 of measurement 5. -/
  armed   : Bool
  harm    : Bool
  /-- A nonce is issued and unexpired; how many were issued. -/
  nonce   : Bool
  nonces  : Nat
  /-- BUSY command: 0 none, 0x11 FLASH_COMMIT, 0x16 DEBUG_OPEN; paused by brace (Table 16-7). -/
  busy    : Nat
  paused  : Bool
  /-- Region and length of a FLASH_COMMIT. -/
  target  : Nat
  targetLen : Nat
  /-- SECRET_ADDR of the running SCX firmware. -/
  secretAddr : Nat
  /-- A journal capture is being written (R347). -/
  capturing : Bool
  /-- Address of the SCX firmware's LOAD. -/
  scxLoad : Nat
  /-- The alias key generation (R379). -/
  aliasGen : Nat
  spdmDoe : Spdm
  spdmI3c : Spdm
  /-- Decisions taken by each perturbation entry since arming (R390). -/
  ptbN    : KMap Nat
  /-- Blocks that PTB_SPILL has marked, job * 2^32 + block. -/
  ptbMarks : List Nat
  deriving DecidableEq, Repr

/-! ### the whole -/

/-- The state of the module. -/
structure State where
  /-- Commands waiting, first in, first out: the model's own field. -/
  pending : List Instr
  /-- Registers by physical address; one not listed holds its reset value (R10). -/
  regs    : KMap Word
  /-- Memory bytes by physical address; one not listed reads 0, where `undef` does not cover it. -/
  mem     : KMap Byte
  /-- Ranges [lo, hi) whose contents the spec leaves undefined, with the number of the loss: they read free bytes. -/
  undef   : List (Nat × Nat × Nat)
  /-- Poisoned units: 64-byte lines of HBM and CXL, 8-byte words of scratchpads, by address. -/
  poison  : List Nat
  /-- Free values drawn: the model's own field. -/
  free    : Nat
  /-- The last answer given. -/
  resp    : Resp
  lk      : Lk
  weave   : WeaveCtx
  fuses   : Fuses
  flash   : Flash
  sec     : Sec
  /-- Units marked failed: engines, PVUs, tile cores, quay units, HBM channels (R338). -/
  failEng : Nat
  failPvu : Nat
  failTc  : Nat
  failQuay : Nat
  failCh  : Nat
  psq     : KMap Psq
  /-- Statistics slots, stake * 64 + slot. -/
  slots   : KMap Slot
  pvu     : KMap Pvu
  /-- ASU contexts, die * 16 + stake. -/
  asu     : KMap Asu
  quay    : KMap Quay
  binds   : List Bind
  /-- Products of each engine since its counters restarted; MXE_CNT_MACS shows them in units of 65,536. -/
  macs : KMap Nat
  /-- Seal exchanges by stake. -/
  xch : KMap Xch
  /-- Reduction jobs dispatched and not closed, by job ID. -/
  jobs : KMap Job
  /-- Towpath ports. -/
  port : KMap Port
  /-- Ring directions, ring * 2 + direction. -/
  ring : KMap RingDir
  /-- What the module has sent to the host and the server cores' interrupt files, oldest first. -/
  out : List HostMsg
  /-- MSI-X table, 32-bit words at vector * 4 + word; an entry not listed is masked and zero (PRESUMED, the PCIe reset values). -/
  msix : KMap Nat
  /-- MSI-X pending bits. -/
  pba : Nat
  /-- Elements added by the reduction engine since reset; RDX_CNT_ADD shows them in units of 2,048. -/
  added : Nat
  /-- What the keeper of each stake's KV pool holds. -/
  kvp : KMap Kvp
  /-- Tile threads, die * 512 + number. -/
  thread : KMap Thread
  /-- L1 data caches by tile core, lines in the order allocated. -/
  l1 : KMap (List L1Line)
  /-- Lines that the instruction L1 of a tile core holds (R243). -/
  il1 : KMap (List Nat)
  /-- WAKEs that the homes have sent: tile core and line (R283). -/
  wakes : List (Nat × Nat)
  /-- The count of the S-die's reference oscillator (R241). -/
  time : Nat
  /-- Registers of the server cores that are not zero (R240): 0 to 31 x, 32 to 63 f, 64 pc, 65 fcsr, 66 privilege mode (0 M, the mode
  after reset, 1 HS, 2 VS, 3 U, 4 VU), 128 to 159 v, 4096 + n the CSR n, 8192 + i the pending identities of interrupt file i (0 M, 1 S, 2
  to 6 guest). At reset each is 0 (log 31). -/
  core : KMap (KMap Nat)
  /-- Waiting rt.ttake: stake, thread and counter, in arrival order (R252). -/
  takes : List (Nat × Nat × Nat)
  /-- Home agents. -/
  homes : KMap Home
  /-- Copies that caching agents hold: line, agent, and state O (else S). -/
  copies : List (Nat × Nat × Bool)
  /-- LR reservations: line, by tile thread, or by 2048 + c for server core c (R282). -/
  resv : KMap Nat
  /-- Last operation number and answer (R250, R281) by agent * 2048 + thread; agent 0 to 19 homes, 20 + k the PSQ of stake k, 36 + p PVU p. -/
  recs : KMap (Nat × Nat)
  /-- Host queue pairs. -/
  hq : KMap Hq
  /-- POOL commands accepted since the ring was enabled, and how often it was enabled (R324, R332). -/
  poolK : Nat
  poolEra : Nat
  /-- The PCIe function's configuration space. -/
  pci : Pci
  /-- Stakes whose journal is to be replayed, one bit each (Table 14-4 step 3). -/
  replay : Nat
  deriving DecidableEq, Repr

/-- Bytes of HBM, and of one engine's scratchpad (Table 10-6, R81). -/
def hbmEnd : Nat := 0x9000000000

/-- The Lockkeeper before input appears. -/
def Lk.reset : Lk := ⟨false, false, false, false, 0, false, 0, true, false, 0, 0, 0, 0, 0, 0, false, false, false, false⟩

/-- No weave applied. -/
def WeaveCtx.reset : WeaveCtx := ⟨false, .empty, 0, [], 0, .empty, 0, 0⟩

/-- Fuses as shipped: KEY0 blown at manufacture (R375). -/
def Fuses.reset : Fuses := ⟨[none, none, none, none], 1, 0, 0, 0⟩

/-- Boot flash as shipped (R376). -/
def Flash.reset : Flash := ⟨[], [], [], [], 0, [], false, false⟩

/-- A responder with no connection. -/
def Spdm.reset : Spdm := ⟨0, 0, 0, 0, 0⟩

/-- The SEC at cold reset (R378). -/
def Sec.reset : Sec :=
  ⟨[0, 0, 0, 0], [], false, false, false, 0, 0, false, 0, 0, 0, false, 0, 0, .reset, .reset, [], []⟩

/-- The scratchpad of engine `e` (R81). -/
def spadBase (e : Nat) : Nat := 0x2000000000000 + e * 0x2000000

/-- Memory whose contents no rule gives before it is written: HBM, the CXL range and the scratchpads. -/
def undefReset : List (Nat × Nat × Nat) :=
  (0, hbmEnd, 0) :: (0x1000000000000, 0x1080000000000, 0) :: (List.range 32).map (fun e => (spadBase e, spadBase e + 0x1800000, 0))

/-- The module before input appears: every register at the value that its table gives (R10), nothing in memory. -/
def State.reset : State where
  pending := []
  regs := []
  mem := []
  undef := undefReset
  poison := []
  free := 1
  resp := .none
  lk := .reset
  weave := .reset
  fuses := .reset
  flash := .reset
  sec := .reset
  failEng := 0
  failPvu := 0
  failTc := 0
  failQuay := 0
  failCh := 0
  psq := []
  slots := []
  pvu := []
  asu := []
  quay := []
  binds := []
  macs := []
  xch := []
  jobs := []
  port := []
  ring := []
  out := []
  msix := []
  pba := 0
  added := 0
  kvp := []
  thread := []
  l1 := []
  il1 := []
  wakes := []
  time := 0
  core := []
  takes := []
  homes := []
  copies := []
  resv := []
  recs := []
  hq := []
  poolK := 0
  poolEra := 0
  pci := .reset
  replay := 0

end Sys2Proof.Machine
end

