-- ==== Sys2Proof/Machine/Ops.lean ====
section
/-! DEFINITION. The named operations over registers and memory: every meaning reads and writes the state through them.
Registers by address and field (R8, R10); memory bytes, poison and undefined ranges (R81, R82, R256, R261-R265). -/

namespace Sys2Proof.Machine

/-! ### registers -/

/-- The row of a register address, its block's identification kind, the unit's number and the offset in the block. -/
def findReg (a : Nat) : Option (RegRow × Nat × Nat × Nat) :=
  regBlocks.findSome? (fun b =>
    if a < b.base then none
    else
      let r := takeDims b.dims (a - b.base)
      if r.1 < b.size then
        (b.rows.find? (fun w => decide (w.off ≤ r.1) && decide ((takeDims w.dims (r.1 - w.off)).1 = 0))).map
          (fun w => (w, b.idk, r.2, r.1))
      else none)

/-- What the identification register of unit `i` holds beside its fixed bits. -/
def idBits (kind i : Nat) : Nat :=
  if kind = 1 then i + (i / 8) * 32
  else if kind = 2 then i
  else if kind = 3 then i + (i / 4) * 16 + (i / 2) * 64 + (i ^^^ 1) * 512
  else 0

/-- The reset value of the register at an address (R10). -/
def regReset (a : Nat) : Word :=
  match findReg a with
  | none => 0
  | some (w, k, i, o) => BitVec.ofNat 64 (w.rst + (if o = 0 then idBits k i else 0))

/-- The register at `a`. -/
def State.reg (s : State) (a : Nat) : Word := KMap.get s.regs (regReset a) a

/-- The state with register `a` holding `v`. -/
def State.setReg (s : State) (a : Nat) (v : Word) : State :=
  { s with regs := KMap.set s.regs (regReset a) a v }

/-- Field `f` of register `a`. -/
def State.fld (s : State) (a : Nat) (f : Fld) : Nat := (s.reg a).fld f

/-- The state with field `f` of register `a` holding `v`. -/
def State.setFld (s : State) (a : Nat) (f : Fld) (v : Nat) : State :=
  s.setReg a ((s.reg a).setFld f v)

/-- A one-bit field of a register. -/
def State.flag (s : State) (a : Nat) (f : Fld) : Bool := decide (s.fld a f ≠ 0)

/-- Bit `i` of a field. -/
def State.fldBit (s : State) (a : Nat) (f : Fld) (i : Nat) : Bool := (s.fld a f).testBit i

/-- The state with bit `i` of a field of a register at `b`. -/
def State.setFldBit (s : State) (a : Nat) (f : Fld) (i : Nat) (b : Bool) : State :=
  s.setFld a f (setBit (s.fld a f) i b)

/-- Add to a counter field, holding its largest value rather than wrapping. -/
def State.addSat (s : State) (a : Nat) (f : Fld) (n : Nat) : State :=
  s.setFld a f (min (s.fld a f + n) (2 ^ f.2 - 1))

/-- Add to a 64-bit counter. -/
def State.count (s : State) (a : Nat) (n : Nat) : State :=
  s.setReg a (s.reg a + BitVec.ofNat 64 n)

/-- Registers to their reset values: those at the addresses given. -/
def State.resetRegs (s : State) (l : List Nat) : State :=
  { s with regs := l.foldl (fun m a => KMap.erase m a) s.regs }

/-- Registers in [lo, hi) to their reset values. -/
def State.resetRange (s : State) (lo hi : Nat) : State :=
  { s with regs := s.regs.filter (fun p => !(decide (lo ≤ p.1) && decide (p.1 < hi))) }

/-- A software write to a register's bits: RW bits take the value, RW1C bits clear where it has ones (R10). -/
def applyWrite (w : RegRow) (old v : Word) : Word :=
  let rw := BitVec.ofNat 64 w.rw
  let w1c := BitVec.ofNat 64 w.w1c
  ((old &&& ~~~ rw) ||| (v &&& rw)) &&& ~~~ (v &&& w1c)

/-- The value a read of a register returns: WO bits read zero (R10). -/
def readValue (w : RegRow) (old : Word) : Word := old &&& ~~~ (BitVec.ofNat 64 w.wo)

/-- What a read leaves: RC bits cleared (R10). -/
def afterRead (w : RegRow) (old : Word) : Word := old &&& ~~~ (BitVec.ofNat 64 w.rc)

/-! ### the physical map (R81, R256, R259, R261) -/

/-- One octet slab (R261). -/
def slabSize : Nat := 0x900000000

/-- Memory of a slab below its system area (R259). -/
def slabUser : Nat := 0x8C0000000

def cxlBase : Nat := 0x1000000000000
def cxlEnd : Nat := 0x1080000000000
def spadAll : Nat := 0x2000000000000
def regBase : Nat := 0x3000000000000
def regEnd : Nat := 0x3000005000000

def isHbm (a : Nat) : Bool := decide (a < hbmEnd)
def isCxl (a : Nat) : Bool := decide (cxlBase ≤ a) && decide (a < cxlEnd)
def isReg (a : Nat) : Bool := decide (regBase ≤ a) && decide (a < regEnd)

/-- In the scratchpad stride of some engine. -/
def isSpadStride (a : Nat) : Bool := decide (spadAll ≤ a) && decide (a < spadAll + 0x40000000)

/-- The engine whose scratchpad stride holds an address. -/
def spadEng (a : Nat) : Nat := (a - spadAll) / 0x2000000

/-- The offset in that stride. -/
def spadOff (a : Nat) : Nat := (a - spadAll) % 0x2000000

/-- In a scratchpad, not in a reserved offset (R81). -/
def isSpad (a : Nat) : Bool := isSpadStride a && decide (spadOff a < 0x1800000)

/-- The octet of an HBM address (R261). -/
def octetOf (a : Nat) : Nat := a / slabSize

/-- The module channel of an HBM address (R261). -/
def channelOf (a : Nat) : Nat :=
  let k := (a % slabSize) / 4096
  8 * octetOf a + ((k % 8) ^^^ ((k / 8) % 8))

/-- The address within its channel (R261). -/
def channelAddr (a : Nat) : Nat :=
  let x := a % slabSize
  (x / 4096 / 8) * 4096 + x % 4096

/-- A system area of a slab (R259). -/
def isSystem (a : Nat) : Bool := isHbm a && decide (slabUser ≤ a % slabSize)

/-- The record of stake `k` in the active weave. -/
def State.stake (s : State) (k : Nat) : StakeRec :=
  ((s.weave.cur.stakes.find? (fun r => r.stake == k && r.enable))).getD .off

/-- The stake is enabled in the active weave. -/
def State.enabled (s : State) (k : Nat) : Bool := s.weave.active && (s.stake k).enable

/-- The depth of a pound that no entry names (Table 1-4); 0 for an ID that names no pound. -/
def poundDefault (id : Nat) : Nat :=
  match id / 0x100 with
  | 1 => 64
  | 2 => 32
  | 3 => 64
  | 4 => 32
  | 5 => 64
  | 6 => 256
  | 7 => if id % 4 = 0 then 48 else if id % 4 = 1 then 32 else 64
  | 8 => 256
  | _ => 0

/-- The depth that a weave gives a pound (R20). -/
def WeaveData.depth (w : WeaveData) (id : Nat) : Nat := ((w.pounds.find? (fun p => p.1 == id)).map (fun p => p.2)).getD (poundDefault id)

/-- The depth of a pound in the active weave. -/
def State.pound (s : State) (id : Nat) : Nat := s.weave.cur.depth id

/-- The least depth of a pound (Table 1-4). -/
def poundMin (id : Nat) : Nat :=
  match id / 0x100 with
  | 2 => 8
  | 4 => 8
  | 7 => if id % 4 < 2 then 8 else 16
  | _ => 16

/-- The depth at which a pound runs: the weave's, or less under the armed PTB_CRED entries that name it (R390). -/
def State.poundNow (s : State) (id : Nat) : Nat :=
  (List.range 8).foldl (fun n k =>
    let a := R.ptbCred k
    if s.flag R.ptbCtl F.ptbCtlArm && s.flag a F.ptbCredEn && s.fld a F.ptbCredPound == id then
      min n (max (poundMin id) (s.fld a F.ptbCredCap))
    else n) (s.pound id)

/-- The stake that owns an engine, if any. -/
def State.engOwner (s : State) (e : Nat) : Option Nat := firstOf 16 (fun k => s.enabled k && (s.stake k).eng.testBit e)

/-- The stake that owns a PVU, if any. -/
def State.pvuOwner (s : State) (v : Nat) : Option Nat := firstOf 16 (fun k => s.enabled k && (s.stake k).pvu.testBit v)

/-- The stake that owns a tile core, if any. -/
def State.tcOwner (s : State) (t : Nat) : Option Nat := firstOf 16 (fun k => s.enabled k && (s.stake k).tc.testBit t)

/-- The stake that owns an octet, if any (R262). -/
def State.octOwner (s : State) (o : Nat) : Option Nat := firstOf 16 (fun k => s.enabled k && (s.stake k).ch.testBit (8 * o))

/-- The stake that owns a reduction job, if any. -/
def State.jobOwner (s : State) (j : Nat) : Option Nat :=
  firstOf 16 (fun k => s.enabled k && decide ((s.stake k).jobBase ≤ j) && decide (j < (s.stake k).jobBase + (s.stake k).jobCount))

/-- Bytes of a tag area for a record and a number of dies (R147). -/
def areaBytes (r : StakeRec) (dies : Nat) : Nat :=
  if dies * r.mb = 0 then 0 else (r.stackLim - r.stackBase) / (dies * r.mb * 0x200000) * 0x200000

/-- The dies on which stake `k` owns an engine, ascending. -/
def State.diesOf (s : State) (k : Nat) : List Nat :=
  (List.range 4).filter (fun d => decide (((s.stake k).eng >>> (8 * d)) % 256 ≠ 0))

/-- [a, a + n) lies in the HBM memory that mask `ch` gives a stake, system areas excluded (R259). -/
def inChMem (ch a n : Nat) : Bool :=
  isHbm a && ch.testBit (8 * octetOf a) && decide (a % slabSize + n ≤ slabUser)

/-- [a, a + n) lies in the stake's HBM memory (R259). -/
def State.inHbmOf (s : State) (k a n : Nat) : Bool := inChMem (s.stake k).ch a n

/-- [a, a + n) lies in the CXL range. -/
def inCxl (a n : Nat) : Bool := decide (cxlBase ≤ a) && decide (a + n ≤ cxlEnd)

/-- [a, a + n) lies in the scratchpad of an engine of stake `k`. -/
def State.inSpadOf (s : State) (k a n : Nat) : Bool :=
  isSpadStride a && (s.stake k).eng.testBit (spadEng a) && decide (spadOff a + n ≤ 0x1800000)

/-- [a, a + n) lies in the stake's memory (R259). -/
def State.inStake (s : State) (k a n : Nat) : Bool := s.inHbmOf k a n || inCxl a n || s.inSpadOf k a n

/-- [a, a + n) lies in shared memory: system areas and slabs of octets that no stake owns (R259). -/
def State.inShared (s : State) (a n : Nat) : Bool :=
  isHbm a && decide (a + n ≤ hbmEnd) &&
    (if (s.octOwner (octetOf a)).isSome then decide (slabUser ≤ a % slabSize) && decide (a % slabSize + n ≤ slabSize)
     else decide (a % slabSize + n ≤ slabSize))

/-- [a, a + n) lies in the map: HBM, CXL, or one scratchpad outside its reserved offsets (R256, R81). -/
def inMap (a n : Nat) : Bool :=
  (isHbm a && decide (a + n ≤ hbmEnd)) || inCxl a n || (isSpadStride a && decide (spadOff a + n ≤ 0x1800000))

/-- The stack of an HBM address is lost (R265). -/
def State.stackLost (s : State) (a : Nat) : Bool :=
  isHbm a && decide (s.fld (R.memStatus (octetOf a / 2)) F.memStatusState = 3)

/-! ### memory bytes -/

/-- Memory in its canonical form: addresses strictly rising, no entry equal to the 0 that an unlisted address reads as. -/
abbrev Memory.wf (m : KMap Byte) : Prop := KMap.Canon (fun _ => 0) m

/-- The undefined range that covers an address, by its loss number. -/
def undefAt (l : List (Nat × Nat × Nat)) (a : Nat) : Option Nat :=
  (l.find? (fun r => decide (r.1 ≤ a) && decide (a < r.2.1))).map (fun r => r.2.2)

/-- Ranges without [lo, hi). -/
def cutRange (lo hi : Nat) (l : List (Nat × Nat × Nat)) : List (Nat × Nat × Nat) :=
  l.flatMap (fun r =>
    if hi ≤ r.1 || r.2.1 ≤ lo then [r]
    else (if r.1 < lo then [(r.1, lo, r.2.2)] else []) ++ (if hi < r.2.1 then [(hi, r.2.1, r.2.2)] else []))

/-- The byte of memory at an address. -/
def State.byte (s : State) (a : Nat) : Byte :=
  match undefAt s.undef a with
  | some st => Config.freeByte st a
  | none => KMap.get s.mem 0 a

/-- The state with one byte of memory written. -/
def State.setByte (s : State) (a : Nat) (v : Byte) : State :=
  { s with mem := KMap.set s.mem 0 a v, undef := cutRange a (a + 1) s.undef }

/-- Consecutive bytes written from an address. -/
def State.setBytes (s : State) (a : Nat) : List Byte → State
  | [] => s
  | b :: t => (s.setByte a b).setBytes (a + 1) t

/-- The `n` bytes at an address. -/
def State.bytes (s : State) (a n : Nat) : List Byte := (List.range n).map (fun i => s.byte (a + i))

/-- The little-endian number of `n` bytes at an address. -/
def State.num (s : State) (a n : Nat) : Nat := ofBytes (s.bytes a n)

/-- A range whose contents become undefined. -/
def State.lose (s : State) (lo hi : Nat) : State :=
  { s with mem := s.mem.filter (fun p => !(decide (lo ≤ p.1) && decide (p.1 < hi)))
           undef := (lo, hi, s.free) :: cutRange lo hi s.undef
           poison := s.poison.filter (fun p => !(decide (lo ≤ p) && decide (p < hi)))
           free := s.free + 1 }

/-! ### poison (R82, R263, R265, R285) -/

/-- The poison unit of an address: an 8-byte word of a scratchpad, a 64-byte line elsewhere. -/
def unitOf (a : Nat) : Nat := if isSpadStride a then a / 8 * 8 else a / 64 * 64

/-- The size of that unit. -/
def unitSize (a : Nat) : Nat := if isSpadStride a then 8 else 64

/-- A read of [a, a + n) returns poison: a poisoned unit, a lost stack, or (R269) a CXL port that is down. -/
def State.bad (s : State) (a n : Nat) : Bool :=
  s.poison.any (fun p => decide (p < a + n) && decide (a < p + unitSize p)) ||
    s.stackLost a || (decide (0 < n) && s.stackLost (a + n - 1))

/-- The units of [a, a + n) poisoned. -/
def State.poisonRange (s : State) (a n : Nat) : State :=
  if n = 0 then s
  else
    let u := unitSize a
    let f := unitOf a
    let c := (a + n - 1 - f) / u + 1
    { s with poison := (List.range c).foldl (fun l i => insertNat (f + i * u) l) s.poison }

/-- Poison cleared on the units that a write of [a, a + n) covers wholly (R82, R263). -/
def State.cleanse (s : State) (a n : Nat) : State :=
  { s with poison := s.poison.filter (fun p => !(decide (a ≤ p) && decide (p + unitSize p ≤ a + n))) }

/-! ### errors of the arrays (R82, R263, R269) -/

/-- The 64-byte line of an address. -/
def lineOf (a : Nat) : Nat := a / 64 * 64

/-- A line newly poisoned by its controller: counted once, its address recorded while none is (R263). -/
def State.eccPoison (s : State) (l : Nat) : State :=
  let h := octetOf l / 2
  if s.poison.contains l then s
  else
    let s := (s.poisonRange l 64).addSat (R.memEcc h) F.memEccUncorr 1
    if s.flag (R.memErrAddr h) F.memErrAddrValid then s
    else (s.setFld (R.memErrAddr h) F.memErrAddrAddr (l / 64)).setFld (R.memErrAddr h) F.memErrAddrValid 1

/-- What a read of a line finds in the array: 0 good, 1 corrected, else uncorrectable (R263); a CXL device corrects within itself
and returns the rest as poison (R269). A line with the poison code word is not counted again. -/
def State.eccRead (s : State) (a ecc : Nat) : State :=
  if ecc = 0 ∨ s.stackLost a ∨ s.poison.contains (lineOf a) then s
  else if isCxl a then (if ecc = 1 then s else s.poisonRange (lineOf a) 64)
  else if !(isHbm a) then s
  else if ecc = 1 then s.addSat (R.memEcc (octetOf a / 2)) F.memEccCorr 1
  else s.eccPoison (lineOf a)

/-- A word of a scratchpad read with an error of its code (R82). -/
def State.spadEcc (s : State) (a ecc : Nat) : State :=
  let e := R.mxeEcc (spadEng a)
  if ecc = 0 ∨ s.poison.contains (unitOf a) then s
  else if ecc = 1 then s.addSat e F.mxeEccCorr 1
  else (s.poisonRange a 1).addSat e F.mxeEccUncorr 1

/-- The errors that reads of the intervals [lo, hi) find in the arrays, each at its word or line. -/
def State.arrayErrs (s : State) (spans : List (Nat × Nat)) (x : Errs) : State :=
  (x.mem.filter (fun p => spans.any (fun r => decide (r.1 ≤ p.1) && decide (p.1 < r.2)))).foldl
    (fun s p => if isSpad p.1 then s.spadEcc p.1 p.2 else s.eccRead p.1 p.2) s

/-- The 64-byte units that a fabric read of [a, a + n) takes, as an interval (R82, R263). -/
def fabricSpan (a n : Nat) : Nat × Nat := (lineOf a, lineOf (a + n - 1) + 64)

/-- Fold over a list of numbers. -/
def State.forAll (s : State) (l : List Nat) (f : State → Nat → State) : State := l.foldl f s

/-! ### accesses by units, at the point of coherence -/

/-- The 64-byte line `l` meets [a, a + n). -/
def meets (l a n : Nat) : Bool := decide (l < a + n) && decide (a < l + 64)

/-- The line is OPEN: a transaction on it, or its eviction, is in progress (R274, R275). -/
def Home.isOpen (m : Home) (l : Nat) : Bool :=
  m.tracks.any (fun t => decide (1 ≤ t.phase) && decide (t.phase ≤ 3) && (lineOf t.req.addr == l || t.victim == some l))

/-- A home whose lines in [a, a + n) are written: their entries go, or hold nobody while a transaction keeps them OPEN, and their
watches fire (R279, R283). -/
def Home.written (m : Home) (a n : Nat) : Home :=
  { m with
    dir := (m.dir.filter (fun e => !(meets e.line a n) || m.isOpen e.line)).map
      (fun e => if meets e.line a n then { e with owned := false, holders := 0 } else e)
    watches := m.watches.filter (fun w => !(meets w.1 a n)) }

/-- The WAKEs that the watches on [a, a + n) send: tile core and line (R283). -/
def Home.wakes (m : Home) (a n : Nat) : List (Nat × Nat) := (m.watches.filter (fun w => meets w.1 a n)).map (fun w => (w.2, w.1))

/-- What a write of [a, a + n) does at the homes of its lines (R279, R282, R283): holders and directory entries go, watches fire,
and reservations clear, but for the one of the writer itself. -/
def State.touch (s : State) (a n : Nat) (own : Option Nat) : State :=
  { s with homes := s.homes.map (fun p => (p.1, p.2.written a n))
           wakes := s.wakes ++ s.homes.flatMap (fun p => p.2.wakes a n)
           copies := s.copies.filter (fun e => !(meets e.1 a n))
           resv := s.resv.filter (fun p => !(meets p.2 a n) || decide (own = some p.1)) }

/-- The committed decoder that covers a CXL address (R268, R269). -/
def State.decoder (s : State) (a : Nat) : Option Nat :=
  firstOf 8 (fun n => s.flag (R.cxtDecCtl n) F.cxtDecCtlCommitted &&
    decide (s.fld (R.cxtDecBase n) F.cxtDecBaseBase * 2 ^ 28 ≤ a) &&
    decide (a < s.fld (R.cxtDecBase n) F.cxtDecBaseBase * 2 ^ 28 + s.fld (R.cxtDecSize n) F.cxtDecSizeSize * 2 ^ 28))

/-- The port that decoder `n` sends an address to (R267). -/
def State.decPort (s : State) (n a : Nat) : Nat :=
  let gran := 256 * 2 ^ s.fld (R.cxtDecCtl n) F.cxtDecCtlGran
  let ways := 2 ^ s.fld (R.cxtDecCtl n) F.cxtDecCtlWays
  let w := ((a - s.fld (R.cxtDecBase n) F.cxtDecBaseBase * 2 ^ 28) / gran) % ways
  (s.fld (R.cxtDecCtl n) F.cxtDecCtlTarget >>> (2 * w)) % 4

/-- The CXL port of an address is down (R269). -/
def State.cxlDown (s : State) (a : Nat) : Bool :=
  match s.decoder a with
  | none => false
  | some n => !(s.flag (R.cxtPStatus (s.decPort n a)) F.cxtPStatusLinkUp)

/-- A write to the address is dropped: the stack is lost (R265), no committed decoder covers it or its CXL port is down (R269). -/
def State.dropped (s : State) (a : Nat) : Bool :=
  s.stackLost a || (isCxl a && ((s.decoder a).isNone || s.cxlDown a))

/-- [a, a + n) meets the part of a scratchpad that belongs to the ASU (R81). -/
def State.asuPart (s : State) (a n : Nat) : Bool :=
  isSpadStride a && (match s.engOwner (spadEng a) with
    | none => false
    | some k => decide ((24 - (s.stake k).spad) * 0x100000 < spadOff a + n))

/-- An access to [a, a + n) gets an error response (R81, R256, R269). -/
def State.err (s : State) (a n : Nat) : Bool :=
  !(inMap a n) || (isCxl a && ((s.decoder a).isNone || (s.decoder (a + n - 1)).isNone))

/-- [a, a + n) meets a CXL port that is down: a port serves at least 256 bytes in a row (R267). -/
def State.cxlCut (s : State) (a n : Nat) : Bool :=
  isCxl a && (List.range ((a % 256 + n + 255) / 256)).any (fun i => s.cxlDown ((a / 256 + i) * 256))

/-- CXT_ERR counts an access to the CXL range: one that no decoder covers, one to a port that is down, or (a read) poisoned lines
that a device returns (R269). -/
def State.noteCxl (s : State) (a n : Nat) (read : Bool) : State :=
  if !(isCxl a) then s
  else if s.err a n then s.addSat R.cxtErr F.cxtErrUnmapped 1
  else if s.cxlCut a n then s.addSat R.cxtErr F.cxtErrLinkDown 1
  else if read && s.bad a n then s.addSat R.cxtErr F.cxtErrPoison 1
  else s

/-- The bytes of `d` that mask `m` selects written to the line at `l`; a masked write leaves poison (R263). -/
def State.wrMask (s : State) (l m : Nat) (d : List Byte) (own : Option Nat) : State :=
  if s.dropped l then s.noteCxl l 64 false
  else
    let s := s.forAll (onesOf 64 m) (fun s i => s.setByte (l + i) (d.getD i 0))
    (if m % 2 ^ 64 = 2 ^ 64 - 1 then s.cleanse l 64 else s).touch l 64 own

/-- A unit's write of bytes, taken or dropped by its first byte (R265, R269; log 16), and dropped in the ASU's part of a scratchpad
(R81: the model keeps a frame's bytes at its home, log 10, so the ASU itself writes none there); it clears the poison it replaces whole
and drops cached copies of the lines (R173). -/
def State.wr (s : State) (a : Nat) (b : List Byte) : State :=
  if s.dropped a || s.asuPart a b.length then s.noteCxl a b.length false else ((s.setBytes a b).cleanse a b.length).touch a b.length none

/-- A unit's write of an `n`-byte number. -/
def State.wrN (s : State) (a n v : Nat) : State := s.wr a (toBytes n v)

/-- A unit's write that carries poison. -/
def State.wrPoison (s : State) (a n : Nat) : State := if s.dropped a || s.asuPart a n then s.noteCxl a n false else (s.poisonRange a n).touch a n none

/-- What a unit's reads of the intervals [lo, hi) find: errors in the arrays, and accesses that CXT_ERR counts, one for each interval
(R269, log 50). -/
def State.readErrs (s : State) (spans : List (Nat × Nat)) (x : Errs) : State :=
  spans.foldl (fun s r => s.noteCxl r.1 (r.2 - r.1) true) (s.arrayErrs spans x)

/-- A read of [a, a + n) by an engine or a DVU fails: an error response or poison. -/
def State.unreadWord (s : State) (a n : Nat) : Bool := s.err a n || s.bad a n || s.cxlCut a n

/-- A fabric read of [a, a + n) returns poison: of a scratchpad it reads units of 64 bytes (R82). -/
def State.badFabric (s : State) (a n : Nat) : Bool :=
  if isSpadStride a ∧ 0 < n then s.bad (a / 64 * 64) ((a + n - 1) / 64 * 64 + 64 - a / 64 * 64) else s.bad a n

/-- A read of [a, a + n) by another unit fails. -/
def State.unreadable (s : State) (a n : Nat) : Bool := s.err a n || s.badFabric a n || s.cxlCut a n

/-! ### free values -/

/-- The next free word and the state that has drawn it (log 5). -/
def State.draw (s : State) : Word × State := (Config.freeWord s.free, { s with free := s.free + 1 })

/-- The state with an answer given. -/
def State.answer (s : State) (r : Resp) : State := { s with resp := r }

/-! ### contexts -/

/-- The context of a pass sequencer. -/
def State.q (s : State) (k : Nat) : Psq := KMap.get s.psq .idle k

/-- The state with the context of pass sequencer `k`. -/
def State.setQ (s : State) (k : Nat) (c : Psq) : State := { s with psq := KMap.set s.psq .idle k c }

/-- A PVU. -/
def Pvu.idle : Pvu := ⟨[], 0, 0⟩

/-- The context of a PVU. -/
def State.pv (s : State) (v : Nat) : Pvu := KMap.get s.pvu .idle v

/-- The state with the context of PVU `v`. -/
def State.setPv (s : State) (v : Nat) (c : Pvu) : State := { s with pvu := KMap.set s.pvu .idle v c }

/-- The context of the ASU of die `d` for stake `k`. -/
def State.as (s : State) (d k : Nat) : Asu := KMap.get s.asu .empty (d * 16 + k)

/-- The state with that context. -/
def State.setAs (s : State) (d k : Nat) (c : Asu) : State := { s with asu := KMap.set s.asu .empty (d * 16 + k) c }

/-- The context of a quay unit. -/
def State.qu (s : State) (q : Nat) : Quay := KMap.get s.quay .empty q

/-- The state with the context of quay unit `q`. -/
def State.setQu (s : State) (q : Nat) (c : Quay) : State := { s with quay := KMap.set s.quay .empty q c }

/-- A statistics slot of a stake. -/
def State.slot (s : State) (k i : Nat) : Slot := KMap.get s.slots ⟨0, 0, 0⟩ (k * 64 + i)

/-- The state with a statistics slot. -/
def State.setSlot (s : State) (k i : Nat) (v : Slot) : State :=
  { s with slots := KMap.set s.slots ⟨0, 0, 0⟩ (k * 64 + i) v }

/-! ### signals (R325, R326) -/

/-- What a word of the MSI-X table holds after reset: vector control words mask their vector. -/
def msixDefault (i : Nat) : Nat := if i % 4 = 3 then 1 else 0

/-- Word `i` of the MSI-X table. -/
def State.msixWord (s : State) (i : Nat) : Nat := KMap.get s.msix (msixDefault i) i

/-- The registers of server core `c`. -/
def State.coreRegs (s : State) (c : Nat) : KMap Nat := KMap.get s.core [] c

/-- Register `i` of server core `c` written. -/
def State.setCore (s : State) (c i v : Nat) : State := { s with core := KMap.set s.core [] c (KMap.set (s.coreRegs c) 0 i v) }

/-- A message sent outward. -/
def State.send (s : State) (m : HostMsg) : State := { s with out := s.out ++ [m] }

/-- Identity `eiid` pends in the S file of server core `hart` (R240, R325). -/
def State.pend (s : State) (hart eiid : Nat) : State := s.setCore hart 8193 (setBit (KMap.get (s.coreRegs hart) 0 8193) eiid true)

/-- A vector may be sent: MSI-X is enabled, and neither the function nor the vector is masked (R325, PCIe). -/
def State.vectorOpen (s : State) (vector : Nat) : Bool :=
  s.pci.msixOn && !s.pci.msixMask && !((s.msixWord (4 * vector + 3)).testBit 0)

/-- A target signalled: an MSI-X vector, pending where it is masked and dropped where MSI-X is off, or an IMSIC interrupt. -/
def State.signal (s : State) (imsic : Bool) (vector hart eiid : Nat) : State :=
  if imsic then (s.send (.imsic hart eiid)).pend hart eiid
  else if s.vectorOpen vector then s.send (.msix vector)
  else if s.pci.msixOn then { s with pba := setBit s.pba vector true }
  else s

/-- Pending vectors that are no longer masked are sent. -/
def State.sendPending (s : State) : State :=
  s.forAll (List.range 96) (fun s v =>
    if s.pba.testBit v && s.vectorOpen v then ({ s with pba := setBit s.pba v false } : State).send (.msix v) else s)

/-- A bit of an event register rises; its target is signalled once where it is enabled (R326). -/
def State.raiseEvent (s : State) (a cfg : Nat) (f : Fld) : State :=
  if s.flag a f then s
  else
    let s := s.setFld a f 1
    if (s.fld cfg F.hifSEvtCfgEnable).testBit f.1 then
      s.signal (s.flag cfg F.hifSEvtCfgTarget) (s.fld cfg F.hifSEvtCfgVector) (s.fld cfg F.hifSEvtCfgHart) (s.fld cfg F.hifSEvtCfgEiid)
    else s

/-- An event of the module (R326). -/
def State.modEvent (s : State) (f : Fld) : State := s.raiseEvent R.hifMEvt R.hifMEvtCfg f

/-- An event of a stake (R326). -/
def State.stakeEvent (s : State) (k : Nat) (f : Fld) : State := s.raiseEvent (R.hifSEvt k) (R.hifSEvtCfg k) f

end Sys2Proof.Machine
end

