-- ==== Sys2Proof/Machine/Transc.lean ====
section
/-! DEFINITION. The functions that R97 and R102 give to within 2 units in the last place: each value is computed with more than 100
spare bits and rounded to FP32, and Config.ulps picks the result among the codes within 2 of it (log 6). -/

namespace Sys2Proof.Machine

/-! ### fixed point: numbers in units of 2 to the −320 -/

/-- One. -/
def fxOne : Nat := 2 ^ 320

/-- A finite value in units of 2 to the −320, rounded down in magnitude. -/
def fxOf (m : Nat) (e : Int) : Nat := (atScale m e (-320)).1

/-- A product. -/
def fxMul (a b : Nat) : Nat := (a * b) >>> 320

/-- A quotient. -/
def fxDiv (a b : Nat) : Nat := (a <<< 320) / b

/-- Taylor's sum of e to the −z for a small z, from term `i` on, `n` terms: 1 − z/i (1 − z/(i+1) (...)). -/
def expSum (z i : Nat) : Nat → Nat
  | 0 => fxOne
  | n + 1 => fxOne - fxMul z (expSum z (i + 1) n) / i

/-- A square, `n` times over. -/
def fxSquares (a : Nat) : Nat → Nat
  | 0 => a
  | n + 1 => fxSquares (fxMul a a) n

/-- e to the −y; 0 from 180 on. -/
def expNeg (y : Nat) : Nat := if 180 * fxOne ≤ y then 0 else fxSquares (expSum (y >>> 16) 1 26) 16

/-- z + z³/3 + z⁵/5 + ..., `n` terms: the argument whose tanh is z. -/
def atanhSum (z : Nat) (n : Nat) : Nat :=
  let q := fxMul z z
  ((List.range n).foldl (fun (st : Nat × Nat) i => (st.1 + st.2 / (2 * i + 1), fxMul st.2 q)) (0, z)).1

/-- ln (1 + t) for t from 0 to 1. -/
def ln1p (t : Nat) : Nat := 2 * atanhSum (fxDiv t (2 * fxOne + t)) 72

/-- The logistic function of a number of sign `neg` and magnitude `y`. -/
def logistic (neg : Bool) (y : Nat) : Nat :=
  let t := expNeg y
  fxDiv (if neg then t else fxOne) (fxOne + t)

/-! ### reference values -/

/-- A value in units of 2 to the −320. -/
def fxVal (x : Int) : Val := .ofUnits x (-320)

/-- The FP32 code of a fixed-point number. -/
def fx32 (x : Int) : Nat := rne32 (fxVal x)

/-- e to the x; the quotient 1 / e^−x for a positive x. -/
def refExp (neg : Bool) (m : Nat) (e : Int) : Nat :=
  let t := expNeg (fxOf m e)
  if neg then fx32 t
  else if topExp m e < 8 then (if t = 0 then 0x7F800000 else divMag false 1 0 t (-320))
  else 0x7F800000

/-- ln x of a positive x: exponent times ln 2, and the logarithm of a mantissa from 3/4 to 3/2. -/
def refLog (m : Nat) (e : Int) : Nat :=
  let k := Nat.log2 m
  let up := decide (3 * 2 ^ k ≤ 2 * m)
  let x : Int := (e + (k : Int)) + (if up then 1 else 0)
  let f := fxOf m (-(k : Int) - (if up then 1 else 0))
  let part : Int := if up then -(2 * (atanhSum (fxDiv (fxOne - f) (fxOne + f)) 72 : Int)) else 2 * (atanhSum (fxDiv (f - fxOne) (fxOne + f)) 72 : Int)
  fx32 (x * (ln1p fxOne : Int) + part)

/-- 1 / √x of a positive x. -/
def refRsqrt (m : Nat) (e : Int) : Nat :=
  let odd := if e % 2 = 0 then 0 else 1
  let n := 2 ^ 120 / (m <<< odd)
  let r := isqrt n
  rne32 (.fin false (2 * r + 1) (-(e - odd) / 2 - 61))

/-- √(2/π), in units of 2 to the −320. -/
def root2pi : Nat :=
  1704271078036369527640793026491347494927463643304879350637741155034799905963359738391626168040302

/-- The logistic function of 2u, u = √(2/π)(s + 0.044715 s³), for the magnitude `y` of s (Table 4-7): (1 + tanh u) / 2. -/
def geluGate (neg : Bool) (y : Nat) : Nat :=
  let c := fxMul y (fxOne + 44715 * fxMul y y / 1000000)
  logistic neg (2 * fxMul root2pi c)

/-- GELU, SILU, SIGMOID, TANH and SOFTPLUS of a finite x. -/
def refAct (op : Nat) (neg : Bool) (m : Nat) (e : Int) : Nat :=
  let y := fxOf m e
  let sg : Int := if neg then -1 else 1
  match op with
  | 0x21 => rne32 (Val.mul (.fin neg m e) (fxVal (geluGate neg y)))
  | 0x22 => rne32 (Val.mul (.fin neg m e) (fxVal (logistic neg y)))
  | 0x23 => fx32 (logistic neg y)
  | 0x24 => let t := expNeg (2 * y); fx32 (sg * (fxDiv (fxOne - t) (fxOne + t) : Int))
  | _ => let l := fxVal (ln1p (expNeg y)); rne32 (if neg then l else Val.add (.fin false m e) l)

/-- The exact value of d of Table 4-7 for a finite saved value, rounded to FP32. -/
def refDeriv (op : Nat) (neg : Bool) (m : Nat) (e : Int) : Nat :=
  let s : Val := .fin neg m e
  let y := fxOf m e
  let one : Val := .fin false 1 0
  match op with
  | 0x29 => rne32 (Val.mul s (Val.add one (Val.neg s)))
  | 0x2A => rne32 (Val.add one (Val.neg (Val.mul s s)))
  | 0x2B =>
    let g := geluGate neg y
    let bell := fxVal (2 * fxMul (fxMul g (fxOne - g)) root2pi)
    let poly := fxVal (fxOne + 134145 * fxMul y y / 1000000)
    rne32 (Val.add (fxVal g) (Val.mul s (Val.mul bell poly)))
  | 0x2C =>
    let g := logistic neg y
    rne32 (Val.mul (fxVal g) (Val.add one (Val.mul s (fxVal (logistic (!neg) y)))))
  | _ => fx32 (logistic neg y)

/-! ### within 2 units in the last place -/

/-- A code's place in the order of FP32 values. -/
def ord32 (x : Nat) : Int := if x.testBit 31 then -((x % 2 ^ 31 : Nat) : Int) else ((x % 2 ^ 31 : Nat) : Int)

/-- The code `k` places from a finite code, no further than the infinities. -/
def near32 (x : Nat) (k : Int) : Nat :=
  let o := max (-0x7F800000) (min 0x7F800000 (ord32 x + k))
  if o < 0 ∨ (o = 0 ∧ x.testBit 31) then 2 ^ 31 + o.natAbs else o.natAbs

/-- The place, from −2 to 2, that the part's fixed algorithm gives a result. -/
def ulpOff (op x : Nat) : Int := [0, 1, 2, -1, -2].getD (Config.ulps op x % 5) 0

/-- A function's result at `x`, from its correctly rounded value: within 2 places of it, an infinity kept (R97). -/
def within2 (op x ref : Nat) : Nat := if isFin32 ref then near32 ref (ulpOff op x) else ref

/-- The functions of R97 on a finite, non-zero x (for LOG and RSQRT a positive one). -/
def fn32 (op x : Nat) : Nat :=
  match val32 x with
  | .fin neg m e =>
    within2 op x (match op with
      | 0x12 => refExp neg m e
      | 0x13 => refLog m e
      | 0x14 => refRsqrt m e
      | 0x15 => div32 one32 x
      | _ => refAct op neg m e)
  | _ => nan32

/-- d of Table 4-7 for a saved value (R102): a NaN for one that is not finite, DRELU's exact. -/
def deriv32 (op s : Nat) : Nat :=
  match val32 s with
  | .fin neg m e => if op = 0x28 then (if ¬ neg ∧ m ≠ 0 then one32 else 0) else within2 op s (refDeriv op neg m e)
  | _ => nan32

end Sys2Proof.Machine
end

