-- ==== Sys2Proof/Machine/Operands.lean ====
section
/-! DEFINITION. Operand forms: packed elements in memory (R41, R90), stream and chain descriptors (R89, R93, R94), matrix
instruction words and descriptors (R66, R67), and the arithmetic of chain operations (R95, R97, R102). -/

namespace Sys2Proof.Machine

/-! ### packed elements (R41) -/

/-- Element `i` of a `w`-bit stream at `a`. -/
def State.elem (s : State) (a w i : Nat) : Nat :=
  bits (s.num (a + w * i / 8) ((w * i % 8 + w + 7) / 8)) (w * i % 8) w

/-- Codes of width `w` packed into a number, the first lowest. -/
def packCodes (w : Nat) : List Nat → Nat
  | [] => 0
  | c :: t => c % 2 ^ w + 2 ^ w * packCodes w t

/-- The bytes of packed codes over the bytes that stood there: bits beyond the last element keep their value. -/
def packOver (w : Nat) (codes : List Nat) (old : List Byte) : List Byte :=
  let n := w * codes.length
  let nb := (n + 7) / 8
  toBytes nb (packCodes w codes + (ofBytes (old.take nb) >>> n) <<< n)

/-- A row of codes written at `a`. -/
def State.wrRow (s : State) (a w : Nat) (codes : List Nat) : State :=
  s.wr a (packOver w codes (s.bytes a ((w * codes.length + 7) / 8)))

/-- Bytes that a row of `n` elements of width `w` takes. -/
def rowBytes (w n : Nat) : Nat := (w * n + 7) / 8

/-! ### chain arithmetic (R95, R97, R98, R102) -/

/-- MAX of R97: NaN if either is NaN; −0 below +0. -/
def max32 (a b : Nat) : Nat :=
  if isNaN32 a || isNaN32 b then nan32
  else if Val.lt (val32 a) (val32 b) then b
  else if Val.lt (val32 b) (val32 a) then a
  else if a % 2 ^ 32 = 0x80000000 then b else a

/-- MIN of R97. -/
def min32 (a b : Nat) : Nat :=
  if isNaN32 a || isNaN32 b then nan32
  else if Val.lt (val32 a) (val32 b) then a
  else if Val.lt (val32 b) (val32 a) then b
  else if a % 2 ^ 32 = 0x80000000 then a else b

/-- `a > b` as CMPGT compares; false for NaN. -/
def gt32 (a b : Nat) : Bool := Val.lt (val32 b) (val32 a)

/-- The value is above zero. -/
def pos32 (x : Nat) : Bool := gt32 x 0

/-- The function of one value that an OP names, special values by IEEE 754 (R97). -/
def unary32 (op x : Nat) : Nat :=
  let neg := x.testBit 31 && decide (x % 2 ^ 31 ≠ 0)
  let zero := decide (x % 2 ^ 31 = 0)
  let pinf := decide (x % 2 ^ 32 = 0x7F800000)
  let ninf := decide (x % 2 ^ 32 = 0xFF800000)
  let f := fn32 op x
  if isNaN32 x then nan32
  else match op with
  | 0x10 => x % 2 ^ 31
  | 0x11 => (x + 2 ^ 31) % 2 ^ 32
  | 0x12 => if ninf then 0 else if pinf then 0x7F800000 else if zero then one32 else f
  | 0x13 => if zero then 0xFF800000 else if neg then nan32 else if pinf then 0x7F800000 else if x = one32 then 0 else f
  | 0x14 => if zero then (if x.testBit 31 then 0xFF800000 else 0x7F800000) else if neg then nan32 else if pinf then 0 else f
  | 0x15 => if zero then (if x.testBit 31 then 0xFF800000 else 0x7F800000)
            else if pinf then 0 else if ninf then 0x80000000 else f
  | 0x16 => sqrt32 x
  | 0x20 => max32 x 0
  | 0x21 => if pinf ∨ zero then x % 2 ^ 32 else if ninf then (Config.edge32 op).toNat else f
  | 0x22 => if pinf ∨ zero then x % 2 ^ 32 else if ninf then (Config.edge32 op).toNat else f
  | 0x23 => if ninf then 0 else if pinf then one32 else f
  | 0x24 => if ninf then 0xBF800000 else if pinf then one32 else if zero then x % 2 ^ 32 else f
  | 0x25 => if ninf then 0 else if pinf then 0x7F800000 else f
  | _ => f

/-- The operation of two values that an OP names (Table 4-6). -/
def binary32 (op x a : Nat) : Nat :=
  match op with
  | 0x01 => add32 x a
  | 0x02 => sub32 x a
  | 0x03 => mul32 x a
  | 0x04 => div32 x a
  | 0x05 => max32 x a
  | 0x06 => min32 x a
  | _ => sub32 a x

/-- A derivative multiply (R102): gradient `g`, saved value `sv`. -/
def deriv (op g sv : Nat) : Nat := mul32 g (deriv32 op sv)

/-- Codes 0x01 to 0x07, of two values. -/
def isBinary (op : Nat) : Bool := decide (1 ≤ op) && decide (op ≤ 7)

/-- Codes 0x10 to 0x16 and 0x20 to 0x25, of one value. -/
def isUnary (op : Nat) : Bool := (decide (0x10 ≤ op) && decide (op ≤ 0x16)) || (decide (0x20 ≤ op) && decide (op ≤ 0x25))

/-- Codes 0x28 to 0x2D, derivative multiplies. -/
def isDeriv (op : Nat) : Bool := decide (0x28 ≤ op) && decide (op ≤ 0x2D)

/-- One of the elementwise operations, as chains and PV instructions apply them (R95, R113). -/
def elemOp (op x a : Nat) : Nat :=
  if isBinary op then binary32 op x a else if isDeriv op then deriv op x a else unary32 op x

/-- The sum of a row, or of its squares, in the window of R50 (R98). -/
def rowSum (sq : Bool) (xs : List Nat) : Nat :=
  let vs := xs.map val32
  groupSum false ((vs.zip (if sq then vs else vs.map (fun _ => val32 one32))).map (fun p => Val.mul p.1 p.2))

/-- The maximum of a row of active lanes (R98). -/
def rowMax (abs : Bool) (xs : List Nat) : Nat :=
  let ys := if abs then xs.map (fun x => unary32 0x10 x) else xs
  match ys with
  | [] => 0xFF800000
  | y :: t => t.foldl max32 y

/-! ### stream descriptors (R89, Table 4-2) -/

/-- A stream descriptor. -/
structure StreamD where
  addr   : Nat
  saddr  : Nat
  stride : Nat
  ctx    : Nat
  rows   : Nat
  cols   : Nat
  fmt    : Nat
  kind   : Nat
  mode   : Nat
  last   : Nat
  deriving DecidableEq, Repr

/-- A stream descriptor from its 32 bytes. -/
def parseStream (b : List Byte) (o : Nat) : StreamD :=
  ⟨numAt b o 8, numAt b (o + 8) 8, numAt b (o + 0x10) 4, numAt b (o + 0x14) 4, numAt b (o + 0x18) 2, numAt b (o + 0x1A) 2,
   numAt b (o + 0x1C) 1, numAt b (o + 0x1D) 1, numAt b (o + 0x1E) 1, numAt b (o + 0x1F) 1⟩

def StreamD.bitf (d : StreamD) : Bool := d.fmt.testBit 5
def StreamD.code (d : StreamD) : Nat := d.fmt % 32
def StreamD.rnd (d : StreamD) : Nat := d.mode % 4
def StreamD.mx (d : StreamD) : Bool := d.mode.testBit 2
def StreamD.rs (d : StreamD) : Bool := d.mode.testBit 3

/-- Reserved bits of a stream descriptor. -/
def StreamD.reserved (d : StreamD) : Bool := decide (d.fmt ≥ 64) || decide (d.mode ≥ 16) || decide (d.last ≠ 0)

/-- Bits of one element of a stream. -/
def StreamD.width (d : StreamD) : Nat :=
  if d.bitf then 1 else match Fmt.ofCode d.code with | some f => f.width | none => 0

/-- Bytes of one row of `n` elements of a MEM stream (R41, R43). -/
def StreamD.rowLen (d : StreamD) (n : Nat) : Nat :=
  if d.bitf then (n + 7) / 8
  else match Fmt.ofCode d.code with
    | some .bw8 => 33 * ceilDiv n 32
    | some .bw16 => 65 * ceilDiv n 32
    | some f => rowBytes f.width n
    | none => 0

/-- The bounding intervals of a stream of R rows and C columns: data of a MEM stream, and scales where it has them (R90, R109). -/
def StreamD.spans (d : StreamD) (r c : Nat) : List (Nat × Nat) :=
  if d.kind = 0 ∨ r = 0 then []
  else (if d.kind = 1 then [(d.addr, d.addr + (r - 1) * d.stride + d.rowLen c)] else []) ++
    (if d.mx then [(d.saddr, d.saddr + r * ceilDiv c 32)] else []) ++
    (if d.rs then [(d.saddr, d.saddr + 4 * r)] else [])

/-! ### chain descriptors (R93, R94) -/

/-- An operation word. -/
structure OpW where
  op   : Nat
  asel : Nat
  reg  : Nat
  psel : Nat
  rsv  : Nat
  imm  : Nat
  raw  : Nat
  deriving DecidableEq, Repr

/-- An operation word from its 64 bits (Table 4-5). -/
def parseOp (w : Nat) : OpW := ⟨bits w 0 8, bits w 8 3, bits w 11 5, bits w 16 1, bits w 17 15, bits w 32 32, w⟩

/-- A chain descriptor (Table 4-4). -/
structure ChainD where
  level   : Nat
  nops    : Nat
  slot    : Nat
  rsv     : Nat
  ops     : List OpW
  src1    : StreamD
  src2    : StreamD
  dst     : StreamD
  lane    : Nat
  rowv    : Nat
  aux     : Nat
  pushOff : Nat
  pushStr : Nat
  count   : Nat
  deriving DecidableEq, Repr

/-- A chain descriptor from its 192 bytes; `rsv` collects its reserved bytes. -/
def parseChain (b : List Byte) : ChainD :=
  { level := numAt b 0 1, nops := numAt b 1 1, slot := numAt b 2 1
    rsv := numAt b 3 5 + numAt b 0xAC 4 + numAt b 0xB8 8
    ops := (List.range 4).map (fun i => parseOp (numAt b (8 + 8 * i) 8))
    src1 := parseStream b 0x28, src2 := parseStream b 0x48, dst := parseStream b 0x68
    lane := numAt b 0x88 8, rowv := numAt b 0x90 8, aux := numAt b 0x98 8, pushOff := numAt b 0xA0 8
    pushStr := numAt b 0xA8 4, count := numAt b 0xB0 8 }

/-- The operations in use. -/
def ChainD.used (c : ChainD) : List OpW := c.ops.take c.nops

/-- The chain's PUSH, if any. -/
def ChainD.push (c : ChainD) : Option OpW := c.used.find? (fun o => o.op == 0x3C)

/-- The chain's operation that writes AUXOUT, if any (R96, R98). -/
def ChainD.auxOp (c : ChainD) : Option OpW :=
  c.used.find? (fun o => o.op == 0x34 || (decide (0x30 ≤ o.op) && decide (o.op ≤ 0x33) && o.asel == 0))

/-- The chain compresses. -/
def ChainD.compress (c : ChainD) : Option OpW := c.used.find? (fun o => o.op == 0x3D)

/-- The chain expands. -/
def ChainD.expand (c : ChainD) : Option OpW := c.used.find? (fun o => o.op == 0x3E)

/-- PVU registers that a chain names: PVU and register (R106, R216). -/
def ChainD.regs (c : ChainD) (die : Nat) : List (Nat × Nat) :=
  c.used.flatMap (fun o => if o.asel = 5 then
    (if o.op = 0x38 then [o.reg, o.reg + 1, o.reg + 2] else [o.reg]).map (fun r => (2 * die + o.psel, r)) else [])

/-! ### matrix instructions (R66, R67) -/

/-- A matrix instruction's fields (Table 3-3). -/
structure MxW where
  opc   : Nat
  eng   : Nat
  fmtx  : Nat
  fmtw  : Nat
  scm   : Nat
  sat   : Bool
  accin : Bool
  m     : Nat
  n     : Nat
  k     : Nat
  desc  : Nat
  rsv   : Bool
  deriving DecidableEq, Repr

/-- A matrix instruction word read (Table 3-3). -/
def parseMx (w : Nat) : MxW :=
  ⟨bits w 0 8, bits w 32 5, bits w 37 5, bits w 42 5, bits w 47 2, bit w 49, bit w 50, bits w 52 10 + 1, bits w 64 8 + 1,
   bits w 72 16 + 1, bits w 88 16, bit w 51 || decide (bits w 62 2 ≠ 0) || decide (bits w 104 24 ≠ 0)⟩

/-- SCM includes MX32 (Table 2-5). -/
def MxW.mx (w : MxW) : Bool := w.scm.testBit 1

/-- SCM includes ROW. -/
def MxW.row (w : MxW) : Bool := w.scm.testBit 0

/-- A matrix descriptor (Table 3-4). -/
structure MxD where
  level  : Nat
  rsv    : Nat
  xstr   : Nat
  xaddr  : Nat
  waddr  : Nat
  wstr   : Nat
  drain  : Nat
  xs     : Nat
  ws     : Nat
  xrow   : Nat
  wrow   : Nat
  acc    : Nat
  accstr : Nat
  deriving DecidableEq, Repr

/-- A matrix descriptor from its 128 bytes. -/
def parseMxD (b : List Byte) : MxD :=
  ⟨numAt b 0 1, numAt b 1 3 + numAt b 0x4C 52, numAt b 4 4, numAt b 8 8, numAt b 0x10 8, numAt b 0x18 4, numAt b 0x1C 4,
   numAt b 0x20 8, numAt b 0x28 8, numAt b 0x30 8, numAt b 0x38 8, numAt b 0x40 8, numAt b 0x48 4⟩

/-- Two intervals [lo, hi) overlap. -/
def overlap (a b : Nat × Nat) : Bool := decide (a.1 < b.2) && decide (b.1 < a.2)

/-- Some interval of one list overlaps some interval of the other. -/
def anyOverlap (a b : List (Nat × Nat)) : Bool := a.any (fun x => b.any (fun y => overlap x y))

end Sys2Proof.Machine
end

