-- ==== Sys2Proof/Machine/Psq.lean ====
section
/-! DEFINITION. The pass sequencers: tokens, headers, dispatch, completion, faults, stops, resumption, the context area and
the control instructions (R119-R146). -/

namespace Sys2Proof.Machine

/-! ### tokens (R123-R127) -/

/-- Counter TKc of stake `k`. -/
def State.tok (s : State) (k c : Nat) : Nat := s.fld (R.psqToken k (c / 4)) (16 * (c % 4), 16)

/-- The state with TKc holding `v`. -/
def State.setTok (s : State) (k c v : Nat) : State := s.setFld (R.psqToken k (c / 4)) (16 * (c % 4), 16) v

/-- The mask that a WAIT or POST value names (R123). -/
def State.tset (s : State) (k v : Nat) : Nat := if v = 0 then 0 else (s.reg (R.psqTset k (v - 1))).toNat

/-- Every counter of a mask holds at least 1 (R124). -/
def State.tokensReady (s : State) (k mask : Nat) : Bool := (onesOf 64 mask).all (fun c => decide (1 ≤ s.tok k c))

/-- Every counter of a mask decremented (R124). -/
def State.takeTokens (s : State) (k mask : Nat) : State :=
  s.forAll (onesOf 64 mask) (fun s c => s.setTok k c (s.tok k c - 1))

/-- Every counter of a mask incremented, holding 65,535 (R125). -/
def State.giveTokens (s : State) (k mask : Nat) : State :=
  s.forAll (onesOf 64 mask) (fun s c => s.setTok k c (min 65535 (s.tok k c + 1)))

/-- An increment of some counter of a mask would go above 65,535 (R125). -/
def State.overflows (s : State) (k mask : Nat) : Bool := (onesOf 64 mask).any (fun c => decide (s.tok k c = 65535))

/-! ### status -/

def stUnformed : Nat := 0
def stIdle : Nat := 1
def stRunning : Nat := 2
def stStopping : Nat := 3
def stStopped : Nat := 4

/-- PSQ_STATUS.STATE. -/
def State.pst (s : State) (k : Nat) : Nat := s.fld (R.psqStatus k) F.psqStatusState

/-- The state with PSQ_STATUS.STATE holding `v`. -/
def State.setPst (s : State) (k v : Nat) : State := s.setFld (R.psqStatus k) F.psqStatusState v

/-- A stop cause is set. -/
def State.stopCause (s : State) (k : Nat) : Bool :=
  s.flag (R.psqStatus k) F.psqStatusStopPreempt || s.flag (R.psqStatus k) F.psqStatusStopFault ||
    s.flag (R.psqStatus k) F.psqStatusStopQuiesce

/-- A hold is present. -/
def State.held (s : State) (k : Nat) : Bool :=
  s.flag (R.psqStatus k) F.psqStatusHoldThrottle || s.flag (R.psqStatus k) F.psqStatusHoldBrace ||
    s.flag (R.psqStatus k) F.psqStatusHoldSeal

/-- The streams of stake `k` may dispatch (R140). -/
def State.dispatching (s : State) (k : Nat) : Bool := decide (s.pst k = stRunning) && !(s.stopCause k) && !(s.held k)

/-- Nothing that has not issued may issue: a brace or a stop, except while SEAL runs (R76, R133, Table 5-5). -/
def State.noIssue (s : State) (k : Nat) : Bool :=
  !(s.flag (R.psqStatus k) F.psqStatusHoldSeal) &&
    (s.flag (R.psqStatus k) F.psqStatusHoldBrace || s.stopCause k)

/-- The state with the outstanding list of a stake, and PSQ_xINFLIGHT following it. -/
def State.setOutst (s : State) (k : Nat) (l : List Outst) : State :=
  (s.setQ k { s.q k with outst := l }).forAll [0, 1, 2] (fun s x =>
    s.setFld (R.psqInflight k x) F.psqInflightOutstanding ((l.filter (fun o => o.strm == x)).length))

/-- The next place in the order of issue: past those of every outstanding instruction (R115). -/
def Psq.nextTurn (c : Psq) : Nat := c.outst.foldl (fun n o => max n o.turn) 0 + 1

/-- An instruction issued at place `n`; the re-run of one that had issued keeps its place (R343). -/
def Outst.issueAt (o : Outst) (n : Nat) : Outst :=
  { o with
    issued := true
    rerun := false
    turn := if o.turn = 0 then n else o.turn }

/-- Replace the outstanding instruction with dispatch number `n`. -/
def State.updOutst (s : State) (k n : Nat) (f : Outst → Outst) : State :=
  s.setQ k { s.q k with outst := (s.q k).outst.map (fun o => if o.seq = n then f o else o) }

/-! ### headers (R122, Table 5-1) -/

def opcOf (w : Nat) : Nat := bits w 0 8
def waitOf (w : Nat) : Nat := bits w 16 8
def postOf (w : Nat) : Nat := bits w 24 8

/-! ### what runs on an engine and its DVU -/

/-- An outstanding matrix instruction. -/
def Outst.isMx (o : Outst) : Bool := decide (0x40 ≤ opcOf o.word) && decide (opcOf o.word ≤ 0x42)

/-- An outstanding VX instruction. -/
def Outst.isVx (o : Outst) : Bool := opcOf o.word == 0x50

/-- An outstanding PV instruction. -/
def Outst.isPv (o : Outst) : Bool := opcOf o.word == 0x58

/-- MXE_STATUS.STATE, PREPARED and SHADOW_VALID of an engine follow what is outstanding. DESIGN CHOICE (log 46), safe: the shadow half of
the latch holds a complete block while a dispatched instruction has not issued. -/
def State.syncMxe (s : State) (k e : Nat) : State :=
  let l := (s.q k).outst.filter (fun o => o.isMx && o.unit == e)
  if s.failEng.testBit e then s
  else
    let p := (l.filter (fun o => !o.issued)).length
    let s := s.setFld (R.mxeStatus e) F.mxeStatusPrepared (min p 2)
    let s := s.setFld (R.mxeStatus e) F.mxeStatusShadowValid (if p = 0 then 0 else 1)
    s.setFld (R.mxeStatus e) F.mxeStatusState (if l.any (fun o => o.issued) then 3 else if l.isEmpty then 1 else 2)

/-- VEC_DVU_STATUS.STATE of a DVU follows what is outstanding. -/
def State.syncDvu (s : State) (k e : Nat) : State :=
  let l := (s.q k).outst.filter (fun o => (o.isMx || o.isVx) && o.unit == e)
  if s.failEng.testBit e then s
  else s.setFld (R.vecDvuStatus e) F.vecDvuStatusState (if l.isEmpty then 1 else 2)

/-- Both, for every engine of a stake. -/
def State.syncUnits (s : State) (k : Nat) : State :=
  s.forAll (onesOf 32 (s.stake k).eng) (fun s e => (s.syncMxe k e).syncDvu k e)

/-! ### the context area (R145) -/

/-- TOP of a tag: the height of its stack in segments (R150). -/
def Asu.topOf (c : Asu) (t : Nat) : Nat :=
  (c.frames.filter (fun f => f.tag == t)).foldl (fun m f => max m (f.start + f.height)) 0

/-- The tag word of the context area (R165): TOP and the index of the tag's area; zero for a tag that is not open. -/
def Asu.word (c : Asu) (t : Nat) : Nat :=
  match c.areas.find? (fun p => p.1 == t) with
  | none => 0
  | some p => c.topOf t % 2 ^ 28 + p.2 * 2 ^ 28

/-- The tokens, limits and program state of a stake written to its context area (Table 5-8). -/
def State.writeCtxLive (s : State) (k : Nat) : State :=
  let b := s.fld (R.psqCtx k) F.psqCtxBase * 4096
  let s := s.forAll [0, 1, 2] (fun s x =>
    (((s.wr (b + 0x40 + 32 * x) (toBytes 8 (s.reg (R.psqIndex k x)).toNat)).wr (b + 0x48 + 32 * x)
      (toBytes 8 (s.reg (R.psqPc k x)).toNat)).wr (b + 0x50 + 32 * x) (toBytes 8 (s.reg (R.psqLimit k x)).toNat)).wr
      (b + 0x58 + 32 * x) (toBytes 8 (s.reg (R.psqAhead k x)).toNat))
  s.forAll (List.range 16) (fun s i => s.wr (b + 0x100 + 8 * i) (toBytes 8 (s.reg (R.psqToken k i)).toNat))

/-- The whole context area (Table 5-8). -/
def State.writeCtx (s : State) (k : Nat) : State :=
  let b := s.fld (R.psqCtx k) F.psqCtxBase * 4096
  let s := s.wr b (List.replicate 4096 0)
  let s := s.wr b (toBytes 8 ((s.stake k).level + 16))
  let s := s.wr (b + 8) (toBytes 8 (s.reg (R.psqStep k)).toNat)
  let s := s.wr (b + 16) (toBytes 8 (s.reg (R.psqSeed k)).toNat)
  let s := s.wr (b + 24) (toBytes 8 (s.reg (R.psqSeedNext k)).toNat)
  let s := s.wr (b + 32) (toBytes 8 (s.fld (R.psqStatus k) F.psqStatusOpenMb))
  let s := s.writeCtxLive k
  s.forAll (List.range 4) (fun s d => s.forAll (List.range 16) (fun s t =>
    s.wr (b + 0x200 + 64 * d + 4 * t) (toBytes 4 ((s.as d k).word t))))

/-- Writes to live state are written through while STOPPED (Table 5-7). -/
def State.ctxThrough (s : State) (k : Nat) : State :=
  if s.pst k = stStopped ∧ s.flag (R.psqStatus k) F.psqStatusCtxValid then s.writeCtxLive k else s

/-- A post from outside the streams: no fault on overflow (R126). -/
def State.extPost (s : State) (k mask : Nat) : State := (s.giveTokens k mask).ctxThrough k

/-! ### stops (R140-R143) -/

/-- The lowest index among instructions. -/
def minIndex : List Outst → Option Outst
  | [] => none
  | o :: t => match minIndex t with
    | none => some o
    | some p => if p.index < o.index then some p else some o

/-- The AHEAD map of a stream whose index falls from `next` to `i0`: bit j says that index `i0 + 1 + j` has completed or is completing
(R142); `gone` are withdrawn, `skip` says that `next` itself was to be skipped, `old` is the map so far. -/
def aheadMap (i0 next : Nat) (gone : List Nat) (skip : Bool) (old : Nat) : Nat :=
  (List.range 64).foldl (fun m j =>
    let i := i0 + 1 + j
    setBit m j (!(gone.contains i) && (decide (i < next) || (decide (i = next) && skip) || (decide (next < i) && old.testBit (i - next - 1))))) 0

/-- One stream's program state rolled back to its oldest withdrawn instruction, where that is before it (R140, R142). -/
def State.rollback (s : State) (k : Nat) (gone : List Outst) (x : Nat) : State :=
  let mine := gone.filter (fun o => o.strm == x)
  match minIndex mine with
  | none => s
  | some o =>
    let next := (s.reg (R.psqIndex k x)).toNat
    let m := aheadMap (min o.index next) next (mine.map (·.index)) ((s.q k).skip.testBit x) (s.reg (R.psqAhead k x)).toNat
    let s := s.setReg (R.psqAhead k x) (BitVec.ofNat 64 m)
    if next ≤ o.index then s
    else
      let s := s.setReg (R.psqIndex k x) (BitVec.ofNat 64 o.index)
      let s := s.setReg (R.psqPc k x) (BitVec.ofNat 64 o.pc)
      s.setQ k { s.q k with skip := setBit (s.q k).skip x false }

/-- What a withdrawn instruction leaves: an SDROP's slot is no longer being dropped (R159), an RJOB's job is free, and staging
reservations are given back (R174). -/
def State.unwind (s : State) (k : Nat) (o : Outst) : State :=
  let s := if bits o.word 0 8 = 0x1B then
      let d := bits o.word 32 2
      let c := s.as d k
      s.setAs d k { c with frames := c.frames.map (fun f => if f.state = 3 + bits o.word 46 1 then { f with dropping := false } else f) }
    else if bits o.word 0 8 = 0x30 then
      let j := bits o.word 32 6
      if s.jobs.any (fun p => p.1 == j && p.2.stake == k && p.2.seq == o.seq && !p.2.issued) then
        ({ s with jobs := KMap.erase s.jobs j }).setReg (R.rdxJStatus j) 0
      else s
    else s
  { s with quay := s.quay.map (fun p => (p.1, { p.2 with
      resv := p.2.resv.filter (fun r => !(r.stake == k && r.seq == o.seq))
      waiting := p.2.waiting.filter (fun r => !(r.stake == k && r.seq == o.seq)) })) }

/-- The outstanding instructions that meet `p` are withdrawn: tokens return, no effect (R140). -/
def State.withdrawSome (s : State) (k : Nat) (p : Outst → Bool) : State :=
  let gone := (s.q k).outst.filter p
  let s := [0, 1, 2].foldl (fun s x => s.rollback k gone x) s
  let s := gone.foldl (fun s o => (s.giveTokens k o.waits).unwind k o) s
  (s.setOutst k ((s.q k).outst.filter (fun o => !(p o)))).syncUnits k

/-- Outstanding instructions that have not issued are withdrawn, and program words are fetched again (R121, R140). -/
def State.withdraw (s : State) (k : Nat) : State :=
  let s := s.withdrawSome k (fun o => !o.issued && !o.rerun)
  s.setQ k { s.q k with words := [] }

/-- A stop that its cause allows to begin: not during SEAL (R133, Table 5-7). -/
def State.stopNow (s : State) (k : Nat) : State :=
  if s.pst k = stRunning ∧ s.stopCause k ∧ ¬ s.flag (R.psqStatus k) F.psqStatusHoldSeal
  then (s.withdraw k).setPst k stStopping else s

/-- A stop cause recorded, and the stop begun (Table 5-5). -/
def State.beginStop (s : State) (k : Nat) (cause : Fld) : State :=
  (s.setFld (R.psqStatus k) cause 1).stopNow k

/-- A fault of a stream: recorded if it is the stream's first, and the stake stops (R141). -/
def State.raiseFault (s : State) (k x index code unit : Nat) (after : Bool) : State :=
  let s := if s.flag (R.psqFrec0 k x) F.psqFrec0Valid then s else
    let w : Word := (0 : Word)
    let w := ((w.setFld F.psqFrec0Code code).setFld F.psqFrec0Unit unit).setFld F.psqFrec0Valid 1
    (s.setReg (R.psqFrec0 k x) (w.setFld F.psqFrec0After (if after then 1 else 0))).setReg (R.psqFrec1 k x)
      (BitVec.ofNat 64 index)
  (if s.flag (R.psqStatus k) F.psqStatusStopFault then s else s.stakeEvent k F.hifSEvtFaultStop).beginStop k F.psqStatusStopFault

/-- A precise fault of an instruction that is outstanding and has not issued. While SEAL runs, the stop waits for it and SEAL for every
outstanding instruction, so the faulting one is withdrawn at once (R133, R141, Table 5-7). -/
def State.faultOut (s : State) (k : Nat) (o : Outst) (code unit : Nat) : State :=
  let s := s.raiseFault k o.strm o.index code unit false
  if s.flag (R.psqStatus k) F.psqStatusHoldSeal then s.withdrawSome k (fun p => p.seq == o.seq && !p.issued) else s

/-- A stopped stake that no cause holds runs again (R411). -/
def State.autoResume (s : State) (k : Nat) : State :=
  if s.pst k = stStopped ∧ ¬ s.stopCause k then
    (s.setPst k stRunning).setFld (R.psqStatus k) F.psqStatusCtxValid 0
  else s

/-! ### header checks (R122, Table 5-1) -/

/-- Reserved bits of a control instruction (Table 5-2). -/
def ctlReserved (w : Nat) : Bool :=
  match opcOf w with
  | 0x00 => decide (bits w 32 96 ≠ 0)
  | 0x01 => decide (bits w 56 72 ≠ 0)
  | 0x02 => decide (bits w 36 92 ≠ 0)
  | 0x03 => decide (bits w 36 92 ≠ 0)
  | 0x04 => decide (bits w 46 82 ≠ 0)
  | _ => false

/-- Table 5-1 assigns the OPC. -/
def opcAssigned (o : Nat) : Bool :=
  decide (o ≤ 4) || (decide (0x10 ≤ o) && decide (o ≤ 0x37)) || (decide (0x40 ≤ o) && decide (o ≤ 0x43)) ||
    o == 0x50 || o == 0x58

/-- Table 5-1 allows the OPC in the stream: 0 F, 1 B, 2 U. It has no row for 0x43, which raises MX_OPC in any stream (R65). -/
def opcAllowed (o x : Nat) : Bool :=
  if o = 0x02 then x == 0
  else if o = 0x03 ∨ o = 0x04 then x == 1
  else if 0x18 ≤ o ∧ o ≤ 0x27 then x == 0 || x == 1
  else if 0x28 ≤ o ∧ o ≤ 0x37 then x == 2
  else if 0x40 ≤ o ∧ o ≤ 0x42 then x == 0 || x == 1
  else true

/-- A reserved OPC inside an assigned class, or a mnemonic outside its streams: the class's own fault (R65, R152, R185,
R201, R229, R300). -/
def classFault (o x : Nat) : Option Nat :=
  if o = 0x43 then some 0x20
  else if 0x11 ≤ o ∧ o ≤ 0x17 then some 0x80
  else if 0x1D ≤ o ∧ o ≤ 0x1F then some 0x40
  else if (o = 0x1A ∨ o = 0x1B ∨ o = 0x1C) ∧ x = 0 then some 0x40
  else if o = 0x26 ∨ o = 0x27 then some 0x70
  else if 0x2C ≤ o ∧ o ≤ 0x2F then some 0x50
  else if 0x32 ≤ o ∧ o ≤ 0x37 then some 0x60
  else none

/-- The first header fault of an instruction in a stream (R122). -/
def State.headFault (s : State) (k x w : Nat) : Option Nat :=
  if bits w 8 4 ≠ (s.stake k).level then some 0x02
  else if bits w 12 4 ≠ 0 ∨ ctlReserved w then some 0x03
  else if !(opcAssigned (opcOf w)) then some 0x01
  else if !(opcAllowed (opcOf w) x) then some 0x04
  else classFault (opcOf w) x

/-- The ASU of a die records a fault (R167). -/
def State.asuErr (s : State) (d k x index code : Nat) : State :=
  let w : Word := (0 : Word)
  let w := ((w.setFld F.asuErrCode code).setFld F.asuErrStake k).setFld F.asuErrStream x
  s.setReg (R.asuErr d) (w.setFld F.asuErrIndex (index % 2 ^ 32))

/-- The KVP of the lowest-numbered die on which the stake owns an engine: its keeper (R226). -/
def State.keeper (s : State) (k : Nat) : Nat := (s.diesOf k).headD 0

/-- The keeper of a stake records a fault (R239). -/
def State.kvpErr (s : State) (k x index code : Nat) : State :=
  let w : Word := (0 : Word)
  let w := ((w.setFld F.kvpErrCode code).setFld F.kvpErrStake k).setFld F.kvpErrStream x
  s.setReg (R.kvpErr (s.keeper k)) (w.setFld F.kvpErrIndex (index % 2 ^ 32))

/-- RDX_ERR records a fault (R215). -/
def State.rdxFault (s : State) (k code : Nat) (job : Option Nat) : State :=
  let a := R.rdxErr
  let s := (s.setFld a F.rdxErrCode code).setFld a F.rdxErrStake k
  (s.setFld a F.rdxErrJob (job.getD 0)).setFld a F.rdxErrJobValid (if job.isSome then 1 else 0)

/-- A header fault raised at the head of a stream; the ASU, the reduction engine and the keeper also record theirs (R167, R215,
R239). -/
def State.raiseHead (s : State) (k x w code : Nat) : State :=
  let i := (s.reg (R.psqIndex k x)).toNat
  let s := if code = 0x40 then s.asuErr (bits w 32 2) k x i code
    else if code = 0x60 then s.rdxFault k code none
    else if code = 0x70 then s.kvpErr k x i code
    else s
  s.raiseFault k x i code 0xFF false

/-! ### fetching and dispatching (R119, R121, R128, R129) -/

def State.pcOf (s : State) (k x : Nat) : Nat := s.fld (R.psqPc k x) F.psqPcPc
def State.indexOf (s : State) (k x : Nat) : Nat := (s.reg (R.psqIndex k x)).toNat
def State.limitOf (s : State) (k x : Nat) : Nat := (s.reg (R.psqLimit k x)).toNat
def State.lenOf (s : State) (k x : Nat) : Nat := s.fld (R.psqLen k x) F.psqLenLen
def State.progAddr (s : State) (k x pc : Nat) : Nat := s.fld (R.psqBase k x) F.psqBaseBase * 64 + 16 * pc

/-- A fetched word of a stream. -/
def Psq.wordAt (c : Psq) (x pc : Nat) : Option Nat := (c.words.find? (fun p => p.1 == x && p.2.1 == pc)).map (·.2.2)

/-- The word at the head of a stream. -/
def State.headWord (s : State) (k x : Nat) : Option Nat := (s.q k).wordAt x (s.pcOf k x)

/-- The program offset after a word: the target of a JUMP, else the next (R131, R143). -/
def nextPc (w pc : Nat) : Nat := if opcOf w = 0x01 then bits w 32 24 else pc + 1

/-- The index of a stream moves to the next, at the given offset; its AHEAD bit says whether that is to be skipped (R143). -/
def State.stepIndex (s : State) (k x pc : Nat) : State :=
  let ah := (s.reg (R.psqAhead k x)).toNat
  let s := s.setFld (R.psqPc k x) F.psqPcPc pc
  let s := s.setReg (R.psqIndex k x) (BitVec.ofNat 64 (s.indexOf k x + 1))
  let s := s.setReg (R.psqAhead k x) (BitVec.ofNat 64 (ah / 2))
  s.setQ k { s.q k with skip := setBit (s.q k).skip x (ah.testBit 0) }

/-- The aligned 64-byte line that holds a stream's PC cannot be read (R121). -/
def State.lineBad (s : State) (k x : Nat) : Bool := s.unreadable (s.progAddr k x (s.pcOf k x / 4 * 4)) 64

/-- The words of that line fetched, those at or beyond LEN ignored (R119, R121). -/
def State.fetchLine (s : State) (k x : Nat) : State :=
  let p0 := s.pcOf k x / 4 * 4
  let ws := ((List.range 4).filter (fun j => decide (p0 + j < s.lenOf k x))).map
    (fun j => (x, p0 + j, s.num (s.progAddr k x (p0 + j)) 16))
  s.setQ k { s.q k with words := (s.q k).words.filter (fun p => !(p.1 == x)) ++ ws }

/-- Completed instructions at the head are skipped, in at most `n` fetches and skips: no dispatch, no post; PC follows, a JUMP among them
too (R143). It stops where the stream may not fetch or a fetch would fault, which PROGRAM_FETCH then reports. -/
def State.skipDone (s : State) (k x : Nat) : Nat → State
  | 0 => s
  | n + 1 =>
    if !((s.q k).skip.testBit x) || decide (s.limitOf k x ≤ s.indexOf k x) || decide (s.lenOf k x ≤ s.pcOf k x) then s
    else match s.headWord k x with
      | none => if s.lineBad k x then s else (s.fetchLine k x).skipDone k x n
      | some w => (s.stepIndex k x (nextPc w (s.pcOf k x))).skipDone k x n

/-- At most 65 completed instructions stand in a row (R142), each with a line to fetch. -/
def skipFuel : Nat := 130

/-- The head of a stream moves on: next index, the given offset, and past completed instructions. -/
def State.advance (s : State) (k x pc : Nat) : State := (s.stepIndex k x pc).skipDone k x skipFuel

/-- The index is within 64 of the stream's oldest outstanding instruction (R129). -/
def State.inWindow (s : State) (k x : Nat) : Bool :=
  match minIndex ((s.q k).outst.filter (fun o => o.strm == x)) with
  | none => true
  | some o => decide (s.indexOf k x < o.index + 64)

/-- An SPOP that holds at the head of B: its slot's frame is being dropped (R157). -/
def State.slotBusy (s : State) (k w : Nat) : Bool :=
  opcOf w == 0x1A && (s.as (bits w 32 2) k).frames.any (fun f => f.state == 3 + bits w 46 1 && f.dropping)

/-- Another stream takes a token first: B before U before F, where its head could dispatch now and one counter holds a single token for
both (R128). -/
def State.outranked (s : State) (k x mask : Nat) : Bool :=
  (if x = 1 then [] else if x = 2 then [1] else [1, 2]).any (fun y =>
    decide (s.indexOf k y < s.limitOf k y) && !((s.q k).skip.testBit y) && s.inWindow k y &&
      (match s.headWord k y with
        | none => false
        | some w =>
          let m := s.tset k (waitOf w)
          (s.headFault k y w).isNone && s.tokensReady k m && !(s.slotBusy k w) &&
            (onesOf 64 (m &&& mask)).any (fun c => decide (s.tok k c = 1))))

/-- The head of stream `x`, when it is one of the OPCs, may dispatch and has no header fault, is handed to `body`; a
header fault is raised; otherwise nothing happens (R122, R124, R128, R129). -/
def State.withHead (s : State) (k x : Nat) (opcs : List Nat) (body : Nat → State → State) : State :=
  if !(s.dispatching k) || decide (s.limitOf k x ≤ s.indexOf k x) || (s.q k).skip.testBit x then s
  else match s.headWord k x with
    | none => s
    | some w =>
      match s.headFault k x w with
      | some c => s.raiseHead k x w c
      | none =>
        let m := s.tset k (waitOf w)
        if !(opcs.contains (opcOf w)) || !(s.tokensReady k m) || !(s.inWindow k x) || s.outranked k x m then s
        else body w s

/-- Posts of a completed instruction; an overflow is a fault after completion (R124, R125). -/
def State.postSet (s : State) (k x index v : Nat) : State :=
  let m := s.tset k v
  let ov := s.overflows k m
  let s := s.giveTokens k m
  if ov then s.raiseFault k x index 0x05 0xFF true else s

/-- The head dispatches and completes at once (control instructions, R124). -/
def State.dispatchDone (s : State) (k x w pc : Nat) : State :=
  let i := s.indexOf k x
  let s := s.takeTokens k (s.tset k (waitOf w))
  (s.advance k x pc).postSet k x i (postOf w)

/-- The engine that serves engine `e`: itself, or its substitute by PSQ_FT_SUBST (R341). -/
def State.engFor (s : State) (k e : Nat) : Nat := e / 8 * 8 + s.fld (R.psqFtSubst k (e / 16)) (3 * (e % 16), 3)

/-- Engine `e` has failed and no working engine of the stake serves it (R342). -/
def State.engNone (s : State) (k e : Nat) : Bool := s.failEng.testBit (s.engFor k e)

/-- The number of the next dispatch: past every one so far. -/
def Psq.fresh (c : Psq) : Nat := c.outst.foldl (fun n o => max n (o.seq + 1)) c.seq

/-- What dispatch records of an instruction: the unit, the descriptor copies and the frame bound. -/
def State.newOutst (s : State) (k x w unit : Nat) (issued : Bool) (desc chain : List Byte) (frame : Nat) : Outst :=
  { seq := (s.q k).fresh, strm := x, index := s.indexOf k x, pc := s.pcOf k x, word := w, unit := unit
    waits := s.tset k (waitOf w), step := s.fld (R.psqStep k) (0, 32), issued := issued, desc := desc, chain := chain
    frame := frame, pushTo := 0, acc := [], accInt := false, feed := [], run := .start, prog := 0, rerun := false
    turn := if issued then (s.q k).nextTurn else 0 }

/-- The head dispatches and becomes outstanding (R129). -/
def State.dispatchOut (s : State) (k x w unit : Nat) (issued : Bool) (desc chain : List Byte) (frame : Nat) : State :=
  let o := s.newOutst k x w unit issued desc chain frame
  let s := s.takeTokens k o.waits
  let s := s.setQ k { s.q k with seq := (s.q k).fresh + 1 }
  (s.setOutst k ((s.q k).outst ++ [o])).advance k x (s.pcOf k x + 1)

/-- An outstanding instruction completes: it leaves the list and posts (R124). -/
def State.complete (s : State) (k : Nat) (o : Outst) : State :=
  (s.setOutst k ((s.q k).outst.filter (fun p => !(p.seq == o.seq)))).postSet k o.strm o.index (postOf o.word)

/-- The head of a stream has its header checked (R122). -/
def State.checkHead (s : State) (k x : Nat) : State :=
  match s.headWord k x with
  | none => s
  | some w => match s.headFault k x w with
    | some c => s.raiseHead k x w c
    | none => s

/-- PROGRAM_FETCH: completed instructions are passed, then the line of the head is fetched. A fetch past the end and one that fails are
faults at the index concerned (R119, R121), of an instruction to be skipped as of another (R143). -/
def State.programFetch (s : State) (k x : Nat) : State :=
  let s := s.skipDone k x skipFuel
  if !(s.dispatching k) || decide (s.limitOf k x ≤ s.indexOf k x) then s
  else if s.lenOf k x ≤ s.pcOf k x then
    (s.setFld (R.psqPc k x) F.psqPcPc (s.lenOf k x)).raiseFault k x (s.indexOf k x) 0x09 0xFF false
  else if (s.headWord k x).isSome then (if (s.q k).skip.testBit x then s else s.checkHead k x)
  else if s.lineBad k x then s.raiseFault k x (s.indexOf k x) 0x06 0xFF false
  else if (s.q k).skip.testBit x then s
  else (s.fetchLine k x).checkHead k x

/-- PROGRAM_FETCH (R121). -/
def execProgramFetch (k : Fin 16) (x : Strm) (s : State) : Host.Outcome State Fault Refusal :=
  .next (s.programFetch k x.num)

/-- NOP (R131). -/
def execNop (k : Fin 16) (x : Strm) (s : State) : Host.Outcome State Fault Refusal :=
  .next (s.withHead k x.num [0x00] (fun w s => s.dispatchDone k x.num w (s.pcOf k x.num + 1)))

/-- JUMP (R131): a TARGET not below LEN raises PS_JUMP. -/
def execJump (k : Fin 16) (x : Strm) (s : State) : Host.Outcome State Fault Refusal :=
  .next (s.withHead k x.num [0x01] (fun w s =>
    if s.lenOf k x.num ≤ bits w 32 24 then s.raiseFault k x.num (s.indexOf k x.num) 0x09 0xFF false
    else s.dispatchDone k x.num w (bits w 32 24)))

/-! ### micro-batches (R132, R148, R149) -/

/-- The lowest tag area of a die part that no tag holds (R148). -/
def Asu.freeArea (c : Asu) : Nat := ((firstOf 16 (fun i => !(c.areas.any (fun p => p.2 == i)))).getD 0)

/-- ASU_S_STATUS, ASU_T_WORD and the counts that report an ASU context. -/
def State.syncAsu (s : State) (d k : Nat) : State :=
  let c := s.as d k
  let tags := c.areas.foldl (fun m p => setBit m p.1 true) 0
  let has := fun (p : Frame → Bool) => if c.frames.any p then 1 else 0
  let a := R.asuSStatus d k
  let s := s.setFld a F.asuSStatusTags tags
  let s := s.setFld a F.asuSStatusSlot0 (has (fun f => f.state == 3))
  let s := s.setFld a F.asuSStatusSlot1 (has (fun f => f.state == 4))
  let s := s.setFld a F.asuSStatusOpenF (has (fun f => f.state == 0))
  let s := s.setFld a F.asuSStatusOpenB (has (fun f => f.state == 1))
  s.forAll (List.range 16) (fun s t =>
    let w : Word := BitVec.ofNat 64 (c.word t + ((c.frames.filter (fun f => f.tag == t)).length) * 2 ^ 32)
    s.setReg (R.asuTWord d k t) w)

/-- The open set of micro-batch tags with a tag opened or closed. -/
def State.setMb (s : State) (k t : Nat) (b : Bool) : State :=
  let m := setBit (s.fld (R.psqStatus k) F.psqStatusOpenMb) t b
  (s.setFld (R.psqStatus k) F.psqStatusOpenMb m).setFld (R.psqStatus k) F.psqStatusOpenCount (popcount 16 m)

/-- MBEGIN (R132): opens a tag once a place is free; each ASU of the stake's dies gives it a tag area (R148). -/
def State.mbegin (s : State) (k : Nat) : State :=
  s.withHead k 0 [0x02] (fun w s =>
    let t := bits w 32 4
    let m := s.fld (R.psqStatus k) F.psqStatusOpenMb
    if m.testBit t then s.raiseFault k 0 (s.indexOf k 0) 0x07 0xFF false
    else if (s.stake k).mb ≤ popcount 16 m then s
    else
      let s := s.forAll (s.diesOf k) (fun s d =>
        let c := s.as d k
        (s.setAs d k { c with areas := c.areas ++ [(t, c.freeArea)] }).syncAsu d k)
      (s.setMb k t true).dispatchDone k 0 w (s.pcOf k 0 + 1))

/-- MEND (R132, R149): a tag that still holds a frame raises AS_RESIDUE on every such die and stays open. -/
def State.mend (s : State) (k : Nat) : State :=
  s.withHead k 1 [0x03] (fun w s =>
    let t := bits w 32 4
    let i := s.indexOf k 1
    let full := (s.diesOf k).filter (fun d => (s.as d k).frames.any (fun f => f.tag == t))
    if !((s.fld (R.psqStatus k) F.psqStatusOpenMb).testBit t) then s.raiseFault k 1 i 0x07 0xFF false
    else if !(full.isEmpty) then
      (s.forAll full (fun s d => s.asuErr d k 1 i 0x49)).raiseFault k 1 i 0x49 0xFF false
    else
      let s := s.forAll (s.diesOf k) (fun s d =>
        let c := s.as d k
        (s.setAs d k { c with areas := c.areas.filter (fun p => !(p.1 == t)) }).syncAsu d k)
      (s.setMb k t false).dispatchDone k 1 w (s.pcOf k 1 + 1))

/-- MBEGIN. -/
def execMbegin (k : Fin 16) (s : State) : Host.Outcome State Fault Refusal := .next (s.mbegin k)

/-- MEND. -/
def execMend (k : Fin 16) (s : State) : Host.Outcome State Fault Refusal := .next (s.mend k)

/-! ### the step boundary (R133-R135) -/

/-- SEAL at the head of B (Table 5-3 steps 1 and 2): invalid slot fields raise PS_SEAL before step 2. -/
def State.sealBegin (s : State) (k : Nat) : State :=
  s.withHead k 1 [0x04] (fun w s =>
    let base := bits w 32 6
    let cnt := bits w 38 7
    if cnt = 0 ∨ 64 < cnt ∨ 64 < base + cnt then s.raiseFault k 1 (s.indexOf k 1) 0x08 0xFF false
    else
      let m := s.tset k (waitOf w)
      let s := (s.takeTokens k m).setFld (R.psqStatus k) F.psqStatusHoldSeal 1
      s.setQ k { s.q k with sealing := some (w, s.indexOf k 1, m) })

/-- SEAL. -/
def execSeal (k : Fin 16) (s : State) : Host.Outcome State Fault Refusal := .next (s.sealBegin k)

/-- Step 5 of Table 5-3: slots and unit counters latch into STA, STA_STEP last (R135). -/
def State.latchStats (s : State) (k : Nat) : State :=
  let step := s.reg (R.psqStep k)
  let s := s.forAll (List.range 64) (fun s i =>
    let v := s.slot k i
    (s.setFld (R.staMaxabs k i) F.staMaxabsMaxabs v.maxabs).setReg (R.staCount k i)
      (BitVec.ofNat 64 (min v.nonfin (2 ^ 32 - 1) + min v.sat (2 ^ 32 - 1) * 2 ^ 32)))
  let nf := (List.range 64).foldl (fun n i => n + (s.slot k i).nonfin) 0
  let sa := (List.range 64).foldl (fun n i => n + (s.slot k i).sat) 0
  let s := s.setReg (R.staSum k) (BitVec.ofNat 64 (min nf (2 ^ 32 - 1) + min sa (2 ^ 32 - 1) * 2 ^ 32))
  let s := s.forAll (onesOf 32 (s.stake k).eng) (fun s e =>
    let src := [R.mxeCntIssue e, R.mxeCntStream e, R.mxeCntLatch e, R.mxeCntFeed e, R.mxeCntDrain e, R.mxeCntToken e,
      R.mxeCntMacs e, R.vecDvuCntRows e, R.vecDvuCntWait e]
    (s.setReg (R.staEng e 0) step).forAll (List.range 9) (fun s i => s.setReg (R.staEng e (i + 1)) (s.reg (src.getD i 0))))
  let s := s.forAll (onesOf 8 (s.stake k).pvu) (fun s v =>
    (s.setReg (R.staPvu v 0) step).setReg (R.staPvu v 1) (s.reg (R.vecPvuCntOps v)))
  s.setReg (R.staStep k) step

/-- Step 6 of Table 5-3: slots and counters restart, the step number increments and the next seed becomes active. -/
def State.restartStats (s : State) (k : Nat) : State :=
  let s := s.forAll (List.range 64) (fun s i => s.setSlot k i ⟨0, 0, 0⟩)
  let s := s.resetRegs ((onesOf 32 (s.stake k).eng).flatMap (fun e => [R.mxeCntIssue e, R.mxeCntStream e, R.mxeCntLatch e,
    R.mxeCntFeed e, R.mxeCntDrain e, R.mxeCntToken e, R.mxeCntMacs e, R.vecDvuCntRows e, R.vecDvuCntWait e]))
  let s := { s with macs := (onesOf 32 (s.stake k).eng).foldl (fun m e => KMap.erase m e) s.macs }
  let s := s.resetRegs ((onesOf 8 (s.stake k).pvu).map R.vecPvuCntOps)
  let s := s.resetRegs ((List.range 4).flatMap (fun d => [R.asuSCntSpill d k, R.asuSCntFetch d k, R.asuSCntWait d k]))
  let s := s.resetRegs ((List.range 16).flatMap (fun q => [R.quySCntFold q k, R.quySCntUpd q k, R.quySCntClr q k,
    R.quySCntHold q k, R.quySCntResv q k]))
  (s.count (R.psqStep k) 1).setReg (R.psqSeed k) (s.reg (R.psqSeedNext k))

/-- SEAL_LATCH: steps 3 to 8 of Table 5-3. `handoff` takes the step and the numbered slots handed over, or none (R194, R198). -/
def State.sealLatch (s : State) (k : Nat) (handoff : State → Nat → Option (List (Nat × Slot)) → State) : State :=
  match (s.q k).sealing with
  | none => s
  | some (w, i, m) =>
    if !((s.q k).outst.isEmpty) then s
    else
      let s0 := (s.setQ k { s.q k with sealing := none }).setFld (R.psqStatus k) F.psqStatusHoldSeal 0
      if s.fld (R.psqStatus k) F.psqStatusOpenMb ≠ 0 then
        (s0.giveTokens k m).raiseFault k 1 i 0x08 0xFF false
      else
        let step := s.fld (R.psqStep k) (0, 32)
        let s1 := s0.latchStats k
        let rec0 := (List.range (bits w 38 7)).map (fun j => (bits w 32 6 + j, s1.slot k (bits w 32 6 + j)))
        let s2 := s1.restartStats k
        let s3 := handoff s2 step (if bit w 45 && decide ((s.stake k).group ≠ 0xFF) then some rec0 else none)
        ((s3.advance k 1 (s.pcOf k 1 + 1)).postSet k 1 i (postOf w)).stopNow k

/-! ### commands of PSQ_CMD (R120, R137, R143, R144) -/

/-- A command refused: only PSQ_STATUS.REFUSED changes. -/
def State.refuse (s : State) (k : Nat) : State := s.setFld (R.psqStatus k) F.psqStatusRefused 1

/-- A command accepted. -/
def State.accept (s : State) (k : Nat) : State := s.setFld (R.psqStatus k) F.psqStatusRefused 0

/-- START from IDLE (R120): PC, INDEX and AHEAD of all three streams to 0, the next seed active, RUNNING. -/
def State.psqStart (s : State) (k : Nat) : State :=
  if s.pst k = stIdle then
    let s := (s.accept k).forAll [0, 1, 2] (fun s x =>
      ((s.setReg (R.psqPc k x) 0).setReg (R.psqIndex k x) 0).setReg (R.psqAhead k x) 0)
    let s := s.setQ k { s.q k with words := [], skip := 0 }
    ((s.setReg (R.psqSeed k) (s.reg (R.psqSeedNext k))).setPst k stRunning).stopNow k
  else s.refuse k

/-- STOP from RUNNING (R140). -/
def State.psqStop (s : State) (k : Nat) : State :=
  if s.pst k = stRunning then (s.accept k).beginStop k F.psqStatusStopPreempt else s.refuse k

/-- One stream marks its faulting instruction as done (R143 SKIP). -/
def State.skipFaulting (s : State) (k skip x : Nat) : State :=
  if skip.testBit x ∧ s.flag (R.psqFrec0 k x) F.psqFrec0Valid ∧ ¬ s.flag (R.psqFrec0 k x) F.psqFrec0After then
    let fi := (s.reg (R.psqFrec1 k x)).toNat
    let i := s.indexOf k x
    if fi = i then s.setQ k { s.q k with skip := setBit (s.q k).skip x true }
    else if i < fi ∧ fi ≤ i + 64 then
      s.setReg (R.psqAhead k x) (BitVec.ofNat 64 (setBit (s.reg (R.psqAhead k x)).toNat (fi - i - 1) true))
    else s
  else s

/-- RESUME from STOPPED (R143, R144): PREEMPT and FAULT clear; QUIESCE does not. `rebuild` is the ASUs' part (R165). -/
def State.psqResume (s : State) (k skip : Nat) (rebuild : State → Nat → State) : State :=
  if s.pst k = stStopped then
    let s := s.accept k
    let s := s.forAll [0, 1, 2] (fun s x => s.skipFaulting k skip x)
    let s := s.forAll [0, 1, 2] (fun s x => (s.setReg (R.psqFrec0 k x) 0).setReg (R.psqFrec1 k x) 0)
    let s := (s.setFld (R.psqStatus k) F.psqStatusStopPreempt 0).setFld (R.psqStatus k) F.psqStatusStopFault 0
    ((rebuild s k).setQ k { s.q k with words := [] }).autoResume k
  else s.refuse k

/-- RESTORE from IDLE (R137). -/
def State.psqRestore (s : State) (k : Nat) : State :=
  if s.pst k = stIdle ∧ [0, 1, 2].all (fun x => decide (s.pcOf k x < s.lenOf k x) && decide (s.indexOf k x ≤ s.limitOf k x)) then
    let s := (s.accept k).setQ k { s.q k with words := [], skip := 0 }
    ((s.setReg (R.psqSeed k) (s.reg (R.psqSeedNext k))).setPst k stRunning).stopNow k
  else s.refuse k

/-- STOP_COMPLETE (R142, R165): every issued instruction has completed; the context is written; STOPPED. -/
def State.stopComplete (s : State) (k : Nat) : State :=
  if s.pst k = stStopping ∧ (s.q k).outst.isEmpty then
    let s := (s.writeCtx k).setPst k stStopped
    let s := (s.setFld (R.psqStatus k) F.psqStatusCtxValid 1).stakeEvent k F.hifSEvtStopped
    s.autoResume k
  else s

/-- A write that sets LIMIT, or is refused below INDEX (R120): the new state and whether it was taken. -/
def State.setLimit (s : State) (k x v : Nat) : State × Bool :=
  if v < s.indexOf k x then (s, false)
  else ((s.setReg (R.psqLimit k x) (BitVec.ofNat 64 v)).ctxThrough k, true)

end Sys2Proof.Machine
end

