-- ==== Sys2Proof/Machine/Asu.lean ====
section
/-! DEFINITION. The activation stack units: tag areas, frames and trailers, the stack instructions, residency (R147-R167). -/

namespace Sys2Proof.Machine

/-! ### addresses (R147, R150) -/

/-- Segments of a tag area of stake `k`. -/
def State.areaSegs (s : State) (k : Nat) : Nat := areaBytes (s.stake k) (s.diesOf k).length / 4096

/-- Position of a die among the stake's dies. -/
def State.diePos (s : State) (d k : Nat) : Nat := ((s.diesOf k).filter (fun e => decide (e < d))).length

/-- Base of the area that a tag holds on a die (R147, R148). -/
def State.tagBase (s : State) (d k t : Nat) : Nat :=
  let i := (((s.as d k).areas.find? (fun p => p.1 == t)).map (·.2)).getD 0
  (s.stake k).stackBase + (s.diePos d k * (s.stake k).mb + i) * (s.areaSegs k * 4096)

/-- Home address of a frame's data part. -/
def State.frameBase (s : State) (d k : Nat) (f : Frame) : Nat := s.tagBase d k f.tag + f.start * 4096

/-- Address of a frame's trailer: the last 64 bytes of its last segment (R150). -/
def State.trailerAddr (s : State) (d k : Nat) (f : Frame) : Nat := s.frameBase d k f + f.height * 4096 - 64

/-- The scale part of a row-scaled frame. -/
def State.scaleBase (s : State) (d k : Nat) (f : Frame) : Nat := s.frameBase d k f + f.segs * 4096

/-- A row-scaled FP8 frame (R150). -/
def Frame.scaled (f : Frame) : Bool := (f.fmt == 3 || f.fmt == 4) && !f.fixed

/-- The signed scale exponent of a fixed-scale frame. -/
def Frame.exp (f : Frame) : Int := sint 8 f.fexp

/-- The number by which instructions bind a frame: die, tag and START, plus one (R158). -/
def frameId (d : Nat) (f : Frame) : Nat := (d * 16 + f.tag) * 2 ^ 28 + f.start + 1

/-- A frame's trailer written (Table 6-1). -/
def State.wrTrailer (s : State) (d k : Nat) (f : Frame) : State :=
  s.wr (s.trailerAddr d k f) (toBytes 2 f.label ++ toBytes 1 f.fmt ++ toBytes 1 f.state ++ toBytes 4 f.segs ++
    toBytes 4 f.start ++ toBytes 1 f.fexp ++ toBytes 1 (if f.fixed then 1 else 0) ++ List.replicate 50 0)

/-- Frames of an ASU context replaced through `g`, trailers of those that changed rewritten, and the registers synced. -/
def State.mapFrames (s : State) (d k : Nat) (g : Frame → Frame) : State :=
  let c := s.as d k
  let s := c.frames.foldl (fun s f => if (g f).state = f.state then s else s.wrTrailer d k (g f)) s
  (s.setAs d k { c with frames := c.frames.map g }).syncAsu d k

/-! ### rebuilding from memory (R165) -/

/-- The home address of a segment of a tag. -/
def State.segHome (s : State) (d k : Nat) (p : Nat × Nat) : Nat := s.tagBase d k p.1 + p.2 * 4096

/-- A frame of a tag as its trailer at `a` gives it; what no trailer holds it takes from the frame `old` (Table 6-1). -/
def State.readTrailer (s : State) (a t : Nat) (old : Option Frame) : Frame :=
  let b := s.bytes a 64
  let f := old.getD ⟨t, 0, 0, 0, 0, false, 0, 0, false, false, false, 0⟩
  { f with
    tag := t
    start := numAt b 8 4
    segs := numAt b 4 4
    fmt := numAt b 2 1
    fexp := numAt b 12 1
    fixed := (numAt b 13 1).testBit 0
    label := numAt b 0 2
    state := numAt b 3 1
    pinned := f.pinned || numAt b 3 1 == 3 || numAt b 3 1 == 4 }

/-- The frames of a tag below segment `top`, lowest first, walked through their trailers, and whether one could not be read (R151, R165,
Table 6-4). Where a trailer cannot be read, the frames that the ASU knew below it stay. -/
def State.walkTag (s : State) (d k t : Nat) (old : List Frame) : Nat → Nat → List Frame → List Frame × Bool
  | 0, _, acc => (acc, false)
  | n + 1, top, acc =>
    if top = 0 then (acc, false)
    else
      let a := s.segHome d k (t, top) - 64
      if s.bad a 64 then (old.filter (fun f => decide (f.start < top)) ++ acc, true)
      else
        let f := s.readTrailer a t (old.find? (fun g => decide (g.start + g.height = top)))
        if top ≤ f.start then (acc, false) else s.walkTag d k t old n f.start (f :: acc)

/-- The ASU of a die rebuilds a stake's open tags from the tag words of the context area and the trailers (R165): tag areas, TOP and
frames; a tag with an unreadable trailer is marked (Table 6-4). The pool and the near area are kept. -/
def State.asuRebuildDie (s : State) (k d : Nat) : State :=
  let c := s.as d k
  let b := s.fld (R.psqCtx k) F.psqCtxBase * 4096 + 0x200 + 64 * d
  let tags := (List.range 16).filter (fun t => c.areas.any (fun p => p.1 == t))
  let c := { c with areas := c.areas.map (fun p => (p.1, s.num (b + 4 * p.1) 4 / 2 ^ 28)) }
  let s := s.setAs d k c
  let r := tags.map (fun t =>
    let top := s.num (b + 4 * t) 4 % 2 ^ 28
    (t, s.walkTag d k t (c.frames.filter (fun f => f.tag == t)) top top []))
  (s.setAs d k { c with
    frames := r.flatMap (fun p => p.2.1)
    unread := (r.filter (fun p => p.2.2)).map (fun p => p.1) }).syncAsu d k

/-- RESUME rebuilds the ASUs of the stake's dies, where a context is valid (R165). -/
def State.asuRebuild (s : State) (k : Nat) : State :=
  if s.flag (R.psqStatus k) F.psqStatusCtxValid then s.forAll (s.diesOf k) (fun s d => s.asuRebuildDie k d) else s

/-! ### shared checks (R152) -/

/-- A stack instruction's fault: recorded by the ASU and the stream (R167). -/
def State.asFault (s : State) (d k x code : Nat) : State :=
  let i := s.indexOf k x
  (s.asuErr d k x i code).raiseFault k x i code 0xFF false

/-- The frame that a stream has open on a die. -/
def Asu.openOf (c : Asu) (x : Nat) : Option Frame := c.frames.find? (fun f => f.state == x)

/-- The frame in a pop slot. -/
def Asu.slotOf (c : Asu) (n : Nat) : Option Frame := c.frames.find? (fun f => f.state == 3 + n)

/-- A stack instruction: `rsv` tells its AS_OPC cases; AS_OPC, AS_DIE, then its own checks and effect (R152). -/
def State.stackOp (s : State) (k x opc : Nat) (rsv : Nat → Bool) (body : Nat → Nat → State → State) : State :=
  s.withHead k x [opc] (fun w s =>
    let d := bits w 32 2
    if rsv w then s.asFault d k x 0x40
    else if !((s.diesOf k).contains d) then s.asFault d k x 0x41
    else body w d s)

/-! ### SOPEN, SCLOSE (R153-R156) -/

/-- SOPEN's word breaks R152: unlisted bits, FMT and BIT, FIXED and FEXP. -/
def sopenBad (w : Nat) : Bool :=
  let fmt := bits w 40 5
  let fexp := bits w 96 8
  decide (bits w 34 2 ≠ 0) || decide (bits w 46 2 ≠ 0) || decide (bits w 105 23 ≠ 0) ||
    (if bit w 45 then decide (fmt ≠ 0) else !(fmt == 8 || fmt == 3 || fmt == 4)) ||
    (if bit w 104 then bit w 45 || !(fmt == 3 || fmt == 4) || fexp == 0x80 || fexp == 0x81 else decide (fexp ≠ 0))

/-- SOPEN (R153): reserves the frame's segments, raises TOP, writes the trailer. -/
def State.sopen (s : State) (k x : Nat) : State :=
  s.stackOp k x 0x18 sopenBad (fun w d s =>
    let t := bits w 36 4
    let c := s.as d k
    let f : Frame := { tag := t, start := c.topOf t, segs := bits w 64 32, fmt := bits w 40 6, fexp := bits w 96 8
                       fixed := bit w 104, label := bits w 48 16, state := x, dropping := false
                       bound := false, pinned := false, closedAt := 0 }
    if !((s.fld (R.psqStatus k) F.psqStatusOpenMb).testBit t) then s.asFault d k x 0x42
    else if (c.openOf x).isSome then s.asFault d k x 0x43
    else if c.unread.contains t then s.asFault d k x 0x48
    else if f.segs = 0 ∨ s.areaSegs k < f.start + f.height then s.asFault d k x 0x44
    else
      let s := (s.setAs d k { c with frames := c.frames ++ [f] }).wrTrailer d k f
      (s.syncAsu d k).dispatchDone k x w (s.pcOf k x + 1))

/-- SCLOSE at dispatch (R156): it waits for the instructions that push into the frame. -/
def State.sclose (s : State) (k x : Nat) : State :=
  s.stackOp k x 0x19 (fun w => decide (bits w 34 94 ≠ 0)) (fun w d s =>
    match (s.as d k).openOf x with
    | none => s.asFault d k x 0x43
    | some f =>
      if (s.as d k).unread.contains f.tag || s.bad (s.trailerAddr d k f) 64 then s.asFault d k x 0x48
      else
        let s := s.dispatchOut k x w d false [] [] 0
        s.updOutst k ((s.q k).seq - 1) (fun o => { o with pushTo := frameId d f }))

/-- An instruction that the ASU of die `d` issues after its dispatch: SCLOSE or SDROP. -/
def Outst.onAsu (o : Outst) (d : Nat) : Bool := (opcOf o.word == 0x19 || opcOf o.word == 0x1B) && o.unit == d

/-- The next instruction that the ASU of die `d` issues for stake `k`: in dispatch order (R129). -/
def State.nextAsu (s : State) (d k : Nat) : Option Outst := (s.q k).outst.find? (fun o => o.onAsu d && !o.issued)

/-- An SCLOSE whose earlier pushes of its stream into the frame have completed (R156). -/
def State.scloseReady (s : State) (k : Nat) (o : Outst) : Bool :=
  opcOf o.word == 0x19 && !((s.q k).outst.any (fun p => decide (p.seq < o.seq) && p.strm == o.strm && p.pushTo == o.pushTo))

/-- SCLOSE_ISSUE (R156): every earlier push into the frame has completed; the frame closes and SCLOSE completes. -/
def State.scloseIssue (s : State) (k : Nat) : State :=
  match (List.range 4).findSome? (fun d => (s.nextAsu d k).filter (s.scloseReady k)) with
  | none => s
  | some o =>
    if s.noIssue k then s
    else
      let d := o.unit
      let n := (s.as d k).frames.foldl (fun m f => max m f.closedAt) 0 + 1
      let s := s.mapFrames d k (fun f => if frameId d f = o.pushTo ∧ f.state = o.strm then { f with state := 2, closedAt := n } else f)
      s.complete k o

/-! ### SPOP, SDROP, SBIND (R157-R160) -/

/-- Segments of a frame: its tag and its segment numbers. -/
def Frame.parts (f : Frame) : List (Nat × Nat) := (List.range f.height).map (fun i => (f.tag, f.start + i))

/-- The frames that SPOP prefetches below a raised frame: the next DEPTH in the tag, descending (R162). -/
def Asu.below (c : Asu) (f : Frame) (depth : Nat) : List Frame :=
  ((c.frames.filter (fun g => g.tag == f.tag && decide (g.start < f.start))).reverse).take depth

/-- The segments that are to be fetched for frames: not resident, on no way into the pool, and not of a bound frame (R160, R162). -/
def Asu.wanted (c : Asu) (fs : List Frame) : List (Nat × Nat) :=
  ((fs.filter (fun f => !f.bound)).flatMap Frame.parts).filter (fun p =>
    !(c.pool.contains p) && !(c.xferq.contains p) && !(c.pushq.contains p))

/-- SPOP (R157). -/
def State.spop (s : State) (k : Nat) : State :=
  s.stackOp k 1 0x1A (fun w => decide (bits w 34 2 ≠ 0) || decide (bits w 40 6 ≠ 0) || decide (bits w 64 64 ≠ 0)) (fun w d s =>
    let t := bits w 36 4
    let n := bits w 46 1
    let c := s.as d k
    match (c.frames.filter (fun f => f.tag == t && f.state == 2)).getLast? with
    | none => if c.unread.contains t then s.asFault d k 1 0x48 else s.asFault d k 1 0x46
    | some f =>
      if c.unread.contains t then s.asFault d k 1 0x48
      else match c.slotOf n with
        | some g => if g.dropping then s else s.asFault d k 1 0x43
        | none =>
          if bit w 47 && decide (f.label ≠ bits w 48 16) then s.asFault d k 1 0x47
          else if s.bad (s.trailerAddr d k f) 64 then s.asFault d k 1 0x48
          else
            let depth := min 4 (s.fld (R.asuSPf d k) F.asuSPfDepth)
            let pf := f :: (c.below f depth).takeWhile (fun g => !(s.bad (s.trailerAddr d k g) 64))
            let need := c.wanted pf
            let s := s.mapFrames d k (fun g =>
              if g.tag = f.tag ∧ g.start = f.start then { g with state := 3 + n, pinned := true }
              else if pf.any (fun h => h.tag == g.tag && h.start == g.start) then { g with pinned := true } else g)
            let s := if (s.stake k).spad = 0 then s else s.setAs d k { s.as d k with xferq := (s.as d k).xferq ++ need }
            s.dispatchDone k 1 w (s.pcOf k 1 + 1))

/-- The frames below a dropped one whose trailers the freeing walk reads: none while a frame above it is held; else the dropped ones
below and the held frame that ends the walk (R159, Table 6-4). -/
def Asu.walked (c : Asu) (f : Frame) : List Frame :=
  if c.frames.any (fun g => g.tag == f.tag && decide (f.start < g.start) && g.state != 5) then []
  else
    let l := (c.frames.filter (fun g => g.tag == f.tag && decide (g.start < f.start))).reverse
    let m := l.takeWhile (fun g => g.state == 5)
    m ++ (l.drop m.length).take 1

/-- SDROP at dispatch (R159). -/
def State.sdrop (s : State) (k : Nat) : State :=
  s.stackOp k 1 0x1B (fun w => decide (bits w 34 12 ≠ 0) || decide (bits w 47 81 ≠ 0)) (fun w d s =>
    let n := bits w 46 1
    match (s.as d k).slotOf n with
    | none => s.asFault d k 1 0x43
    | some f =>
      if f.dropping then s.asFault d k 1 0x43
      else if (s.as d k).unread.contains f.tag || (f :: (s.as d k).walked f).any (fun g => s.bad (s.trailerAddr d k g) 64)
        then s.asFault d k 1 0x48
      else
        let s := s.mapFrames d k (fun g => if g.state = 3 + n then { g with dropping := true } else g)
        s.dispatchOut k 1 w d false [] [] (frameId d f))

/-- SBIND (R160). -/
def State.sbind (s : State) (k : Nat) : State :=
  s.stackOp k 1 0x1C (fun w => decide (bits w 34 12 ≠ 0) || decide (bits w 47 17 ≠ 0) || decide (bits w 116 12 ≠ 0)) (fun w d s =>
    let a := bits w 64 52
    match (s.as d k).slotOf (bits w 46 1) with
    | none => s.asFault d k 1 0x48
    | some f =>
      if f.dropping || decide (a % 64 ≠ 0) || !(s.inStake k a 16) then s.asFault d k 1 0x48
      else
        let c := s.as d k
        let away := ((c.pool ++ c.pushq ++ c.near.map (fun p => (p.1, p.2.1))).filter (fun p => f.parts.contains p)).length
        let s := s.count (R.asuSCntSpill d k) away
        let s := s.setAs d k { c with pool := c.pool.filter (fun p => !(f.parts.contains p))
                                      near := c.near.filter (fun p => !(f.parts.contains (p.1, p.2.1)))
                                      pushq := c.pushq.filter (fun p => !(f.parts.contains p))
                                      xferq := c.xferq.filter (fun p => !(f.parts.contains p)) }
        let s := s.mapFrames d k (fun g => if g.state = f.state then { g with bound := true } else g)
        let s := s.wr a (toBytes 8 (s.frameBase d k f) ++ toBytes 8 (if f.scaled then s.scaleBase d k f else 0))
        s.dispatchDone k 1 w (s.pcOf k 1 + 1))

/-! ### residency (R161-R163) -/

/-- Pool capacity in segments (R161). -/
def State.poolSegs (s : State) (d k : Nat) : Nat :=
  (s.stake k).spad * 256 * popcount 8 ((s.stake k).eng >>> (8 * d))

/-- Segments that the near area of a stake holds on a die, 0 where it is not in use (R163). -/
def State.nearSegs (s : State) (d k : Nat) : Nat :=
  if isCxl (s.stake k).stackBase then s.fld (R.asuSNearSize d k) F.asuSNearSizeSize * 512 else 0

/-- A segment's bytes copied to `a`, poison with them. -/
def State.copySeg (s : State) (d k : Nat) (p : Nat × Nat) (a : Nat) : State :=
  let h := s.segHome d k p
  if s.bad h 4096 then s.wrPoison a 4096 else s.wr a (s.bytes h 4096)

/-- An evicted segment written home, or to the near area, whose earliest-written segment moves on home where it is full (R163). -/
def State.evict (s : State) (d k : Nat) (p : Nat × Nat) : State :=
  let near := s.nearSegs d k
  if near = 0 then s.count (R.asuSCntSpill d k) 1
  else
    let c := s.as d k
    let full := near ≤ c.near.length
    let l := if full then c.near.drop 1 else c.near
    let i := (firstOf (l.length + 1) (fun i => !(l.any (fun q => q.2.2 == i)))).getD 0
    let s := s.setAs d k { c with near := l ++ [(p.1, p.2, i)] }
    (s.copySeg d k p (s.fld (R.asuSNear d k) F.asuSNearBase * 0x200000 + 4096 * i)).count (R.asuSCntSpill d k) (if full then 2 else 1)

/-- The closed, unraised and unprefetched frame closed earliest that has resident segments (R162). -/
def Asu.victim (c : Asu) : Option Frame :=
  c.frames.foldl (fun a f =>
    if f.state = 2 ∧ ¬ f.pinned ∧ f.parts.any (fun p => c.pool.contains p) then
      match a with
      | none => some f
      | some g => if f.closedAt < g.closedAt then some f else some g
    else a) none

/-- A segment resident in the pool: no longer in the near area. -/
def Asu.enter (c : Asu) (p : Nat × Nat) : Asu :=
  { c with
    pool := c.pool ++ [p]
    near := c.near.filter (fun q => (q.1, q.2.1) != p) }

/-- A read of pool words of the stake on a die finds errors of their code; an uncorrectable one poisons the line of the segment at `home`
that it holds (R82, Table 6-4). -/
def State.poolErrs (s : State) (d k home : Nat) (x : Errs) : State :=
  (x.mem.filter (fun p => s.asuPart p.1 1 && decide (spadEng p.1 / 8 = d) && s.engOwner (spadEng p.1) == some k)).foldl (fun s p =>
    let s := s.spadEcc p.1 p.2
    if 2 ≤ p.2 then s.poisonRange (home + p.1 % 4096) 1 else s) s

/-- Room made in a full pool: the victim's resident segments are read and written away. -/
def State.evictFrame (s : State) (d k : Nat) (f : Frame) (x : Errs) : State :=
  let c := s.as d k
  let away := c.pool.filter (fun q => f.parts.contains q)
  let s := s.poolErrs d k (s.segHome d k (away.headD (0, 0))) x
  let s := s.setAs d k { c with pool := c.pool.filter (fun q => !(f.parts.contains q)) }
  away.foldl (fun s q => s.evict d k q) s

/-- A brace lets no new spill start (Table 6-4). -/
def State.noSpill (s : State) (k : Nat) : Bool := s.flag (R.psqStatus k) F.psqStatusHoldBrace

/-- ASU_SEGMENT_PUSH (R162): a pushed segment takes a free pool segment, else one that a victim leaves, else it goes straight home. -/
def State.segmentPush (s : State) (d k : Nat) (x : Errs) : State :=
  let c := s.as d k
  match c.pushq with
  | [] => s
  | p :: t =>
    let c := { c with pushq := t }
    let cap := s.poolSegs d k
    if c.pool.contains p then s.setAs d k c
    else if c.pool.length < cap then s.setAs d k (c.enter p)
    else if s.noSpill k then s
    else match (if cap = 0 then none else c.victim) with
      | none => (s.setAs d k c).count (R.asuSCntSpill d k) 1
      | some f =>
        let s := (s.setAs d k c).evictFrame d k f x
        s.setAs d k ((s.as d k).enter p)

/-- ASU_SEGMENT_TRANSFER_DONE (R162): a fetched segment has been read from its home or near copy and is in the pool; with no place and no
victim it is not fetched. -/
def State.segmentDone (s : State) (d k : Nat) (x : Errs) : State :=
  let c := s.as d k
  match c.xferq with
  | [] => s
  | p :: t =>
    let c := { c with xferq := t }
    let h := s.segHome d k p
    let got := fun (s : State) => ((s.setAs d k ((s.as d k).enter p)).readErrs [(h, h + 4096)] x).count (R.asuSCntFetch d k) 1
    if c.pool.contains p then s.setAs d k c
    else if c.pool.length < s.poolSegs d k then got (s.setAs d k c)
    else if s.noSpill k then s
    else match c.victim with
      | none => s.setAs d k c
      | some f => got ((s.setAs d k c).evictFrame d k f x)

/-- Every resident segment written to its home or near address, and the pool emptied (Table 6-4, warm reset). -/
def State.asuFlush (s : State) (k : Nat) : State :=
  s.forAll (List.range 4) (fun s d =>
    let c := s.as d k
    let s := s.setAs d k { c with pool := [], pushq := [], xferq := [] }
    let s := c.pool.foldl (fun s p => s.evict d k p) s
    s.count (R.asuSCntSpill d k) c.pushq.length)

/-- Every frame, TOP, slot and tag-area assignment of a stake lost (Table 6-4, stake or cold reset). -/
def State.asuClear (s : State) (k : Nat) : State :=
  s.forAll (List.range 4) (fun s d => (s.setAs d k .empty).syncAsu d k)

def execSopen (k : Fin 16) (x : Strm) (s : State) : Host.Outcome State Fault Refusal := .next (s.sopen k x.num)
def execSclose (k : Fin 16) (x : Strm) (s : State) : Host.Outcome State Fault Refusal := .next (s.sclose k x.num)
def execScloseIssue (k : Fin 16) (s : State) : Host.Outcome State Fault Refusal := .next (s.scloseIssue k)
def execSpop (k : Fin 16) (s : State) : Host.Outcome State Fault Refusal := .next (s.spop k)
def execSdrop (k : Fin 16) (s : State) : Host.Outcome State Fault Refusal := .next (s.sdrop k)
def execSbind (k : Fin 16) (s : State) : Host.Outcome State Fault Refusal := .next (s.sbind k)
def execAsuSegmentPush (d : Fin 4) (k : Fin 16) (errs : Errs) (s : State) : Host.Outcome State Fault Refusal := .next (s.segmentPush d k errs)
def execAsuSegmentTransferDone (d : Fin 4) (k : Fin 16) (errs : Errs) (s : State) : Host.Outcome State Fault Refusal :=
  .next (s.segmentDone d k errs)

end Sys2Proof.Machine
end

