-- ==== Sys2Proof/Machine/Access.lean ====
section
/-! DEFINITION. Who may write which register, the isolation wrappers, and the outcome of a register write (R22, R23,
R370-R373). -/

namespace Sys2Proof.Machine

/-! ### owners (R22, R23) -/

/-- Default owners of a register address (Table 1-5): bit 0 SEC, bit 1 server cores, bit 2 host. -/
def ownerDefault (a : Nat) : Nat :=
  let o := a - regBase
  let b := o / 0x100000
  if b = 0 ∨ b = 3 ∨ (0x4000000 ≤ o ∧ o < 0x4100000) then 1
  else if b = 1 ∨ b = 2 ∨ b = 5 ∨ b = 8 then 3
  else if b = 6 ∨ b = 7 ∨ (0x3000000 ≤ o ∧ o < 0x4000000) then 2
  else 6

/-- Owners of a register address: the weave's OWNER entry, else the default; no host column in the self-hosted role. -/
def State.owners (s : State) (a : Nat) : Nat :=
  let b := (a - regBase) / 0x10000
  let o := if s.weave.active then
      (match s.weave.cur.owners.find? (fun e => decide (e.block ≤ b) && decide (b < e.block + e.span)) with
        | some e => e.owners
        | none => ownerDefault a)
    else ownerDefault a
  if s.fld R.lkOpt F.lkOptRole = 0 then setBit o 2 false else o

/-- Bit of OWNERS that stands for a master. -/
def ownerBit : Master → Nat
  | .sec => 0
  | .host => 2
  | .core _ => 1

/-- Master `m` may write the register (R22). -/
def State.mayWrite (s : State) (m : Master) (a : Nat) : Bool := (s.owners a).testBit (ownerBit m)

/-! ### isolation wrappers (R355, R369, R370) -/

/-- The domain of Table 15-9 is released, or forced (R369). -/
def State.domainUp (s : State) (n : Nat) : Bool :=
  s.lk.powered && (decide (n ≤ s.fld R.lkStatus F.lkStatusPhase) || s.lk.forced.testBit n)

/-- Island `i` reports SETTLED. -/
def State.settled (s : State) (i : Nat) : Bool := s.fld (R.lkIsl i) F.lkIslState == 2

/-- Stake `k` is in a stake reset (R363). -/
def State.inStakeReset (s : State) (k : Nat) : Bool := s.fldBit R.lkStatus F.lkStatusStakeRst k

/-- A unit is owned by a stake that is not in reset. -/
def State.unitOpen (s : State) (owner : Option Nat) : Bool :=
  match owner with
  | none => false
  | some k => !(s.inStakeReset k)

/-- A domain is released and the island of its block is settled. -/
def State.blockUp (s : State) (n i : Nat) : Bool := s.domainUp n && s.settled i

/-- The wrapper of the register block at an address is open (R370): its domain released, its island SETTLED, and its unit owned,
not failed and not in a stake reset. The Lockkeeper is always on (R349). A failed engine's wrapper closes over its lanes and DVU only,
not over its registers. A module whose weave FAILED answers with GLB, WV and SEC
only (Table 1-7 step 8). -/
def State.wrapperOpen (s : State) (a : Nat) : Bool :=
  let o := a - regBase
  let b := o / 0x100000
  if b = 0 ∨ b = 1 ∨ b = 3 then s.blockUp 3 95
  else if s.fld R.wvStatus F.wvStatusState = 3 then false
  else if b = 2 then s.lk.powered
  else if 0x4000000 ≤ o ∧ o < 0x4100000 then s.blockUp 3 95
  else if b = 4 ∨ b = 6 ∨ b = 7 then s.blockUp 4 81
  else if b = 5 then
    let p := o % 0x100000 / 0x10000
    if o % 0x10000 < 0x8000 then s.blockUp 8 (83 + p) else s.blockUp 4 81
  else if b = 8 then s.blockUp 6 68
  else if 0x1000000 ≤ o ∧ o < 0x2000000 then
    let d := (o - 0x1000000) / 0x400000
    let x := (o - 0x1000000) % 0x400000 / 0x10000
    if x < 8 then s.blockUp 8 (8 * d + x) && s.unitOpen (s.engOwner (8 * d + x))
    else if x < 10 then
      s.blockUp 8 (32 + 2 * d + (x - 8)) && s.unitOpen (s.pvuOwner (2 * d + (x - 8))) && !(s.failPvu.testBit (2 * d + (x - 8)))
    else if x = 10 then s.blockUp 8 (40 + d)
    else if x = 11 then s.blockUp 8 (44 + d)
    else if x = 12 then s.blockUp 8 (64 + d)
    else s.blockUp 5 (69 + d)
  else if 0x2000000 ≤ o ∧ o < 0x3000000 then s.blockUp 8 82 && !(s.inStakeReset ((o - 0x2000000) / 0x10000))
  else if 0x3000000 ≤ o ∧ o < 0x4000000 then
    let q := (o - 0x3000000) / 0x10000
    s.blockUp 8 (48 + q) && !(s.failQuay.testBit q)
  else s.blockUp 8 82

/-! ### the Lockkeeper's context and MOD_FAULT_N -/

/-- The Lockkeeper's context changed. -/
def State.modLk (s : State) (f : Lk → Lk) : State := { s with lk := f s.lk }

/-- Stake `k` is no longer to resume after a warm reset. -/
def State.noResume (s : State) (k : Nat) : State := s.modLk (fun l => { l with resume := setBit l.resume k false })

/-- A warm reset is in progress: from its start until its last domain is released. -/
def State.warming (s : State) : Bool := s.lk.warm || s.flag R.lkStatus F.lkStatusWrst

/-- MOD_FAULT_N follows its causes (Table 15-7), and holds during a warm reset (R365). -/
def State.syncFault (s : State) : State :=
  if s.warming then s
  else
    let f := s.flag R.lkStatus F.lkStatusPgFail || s.flag R.lkStatus F.lkStatusOptBad || s.fld R.wvStatus F.wvStatusState == 3 ||
      s.flag R.lkSb F.lkSbFault
    s.modLk (fun l => { l with faultN := f })

/-! ### outcomes (R371-R373) -/

/-- Count one of the host's rejected or superseded writes. -/
def State.hostRejected (s : State) : State := s.addSat R.hifErr F.hifErrRejected 1

/-- A write dropped with an error response; the host's are counted (R307, HIF_ERR). -/
def State.dropWrite (s : State) (m : Master) : State := (if m = .host then s.hostRejected else s).answer .error

/-- LK_WSTATm records an outcome: 1 APPLIED, 2 REJECTED, 3 SUPERSEDED (R373). -/
def State.wstat (s : State) (m : Master) (a out : Nat) : State :=
  let w : Word := (0 : Word)
  let s := s.setReg (R.lkWstat m.num) ((w.setFld F.lkWstatOutcome out).setFld F.lkWstatAddr (a / 8))
  if m = .host ∧ 2 ≤ out then s.hostRejected else s

/-- Writes of other masters in the decision window: superseded, or rejected where the master is no owner (R371). -/
def State.supersede (s : State) (a : Nat) (m : Master) (rivals : List Master) : State :=
  rivals.foldl (fun s r => if r = m then s else s.wstat r a (if s.mayWrite r a then 3 else 2)) s

/-- A write to a register by a master, with the writes of other masters that it beats: dropped with an error response at a
closed wrapper, rejected for a master that is no owner, else taken. -/
def State.command (s : State) (m : Master) (rivals : List Master) (a : Nat) (body : State → State) : State :=
  if !(s.wrapperOpen a) then s.dropWrite m
  else if !(s.mayWrite m a) then (s.wstat m a 2).answer .error
  else
    let t := body (((s.wstat m a 1).supersede a m rivals).answer .done)
    if t.resp = .error then t.dropWrite m else t

end Sys2Proof.Machine
end

