-- ==== Sys2Proof/Machine/Ptb.lean ====
section
/-! DEFINITION. Perturbation (R390-R392): arming, and the entries whose action is not time alone: PTB_LINK, PTB_SPILL, PTB_HOME. -/

namespace Sys2Proof.Machine

/-- An entry is enabled and perturbation is armed. -/
def State.ptbOn (s : State) (a : Nat) (en : Fld) : Bool := s.flag R.ptbCtl F.ptbCtlArm && s.flag a en

/-- A count kept since arming. -/
def State.ptbCount (s : State) (k : Nat) : Nat := KMap.get s.sec.ptbN 0 k

/-- That count raised by one. -/
def State.ptbTick (s : State) (k : Nat) : State :=
  { s with sec := { s.sec with ptbN := KMap.set s.sec.ptbN 0 k (s.ptbCount k + 1) } }

/-- The draw u of decision `n` of entry `k` (R390). -/
def State.ptbDraw (s : State) (k n : Nat) : Nat := mix ((mix ((s.reg R.ptbSeed).toNat ^^^ k) + n) % 2 ^ 64)

/-- PTB_LINK: whether a frame that port `p` receives is discarded, one of each INTERVAL (below 64 acts as 64); which one of an
interval its draw says (log 23). -/
def State.ptbLink (s : State) (p : Nat) : Bool × State :=
  if s.ptbOn R.ptbLink F.ptbLinkEn && s.fldBit R.ptbLink F.ptbLinkPorts p then
    let iv := max 64 (s.fld R.ptbLink F.ptbLinkInterval)
    let f := s.ptbCount (64 + p)
    let hit := decide (f % iv = s.ptbDraw 24 (f / iv) % iv)
    let s := s.ptbTick (64 + p)
    (hit, if hit then s.addSat R.ptbCntB F.ptbCntBLink 1 else s)
  else (false, s)

/-- PTB_SPILL: whether the owner of a job marks a block spilled at a stage: every EVERY-th of the first pass in BW8, and with STAGE2
the BW16 retries of those. -/
def State.ptbSpill (s : State) (job st b : Nat) (bw16 : Bool) : Bool × State :=
  let a := R.ptbSpill
  if !(s.ptbOn a F.ptbSpillEn) || s.fld a F.ptbSpillJob != job || bw16 then (false, s)
  else if st = 0 then
    let hit := decide ((s.ptbCount 25 + 1) % max 1 (s.fld a F.ptbSpillEvery) = 0)
    let s := s.ptbTick 25
    if hit then
      let s := { s with sec := { s.sec with ptbMarks := insertNat (job * 2 ^ 32 + b) s.sec.ptbMarks } }
      (true, s.addSat R.ptbCntB F.ptbCntBSpill1 1)
    else (false, s)
  else if st = 1 && s.flag a F.ptbSpillStage2 && s.sec.ptbMarks.contains (job * 2 ^ 32 + b) then
    let s := { s with sec := { s.sec with ptbMarks := s.sec.ptbMarks.filter (fun x => x != job * 2 ^ 32 + b) } }
    (true, s.addSat R.ptbCntB F.ptbCntBSpill2 1)
  else (false, s)

/-- PTB_HOME: whether home `h` discards a snoop answer of an agent: the next COUNT of them. -/
def State.ptbHome (s : State) (h agent : Nat) : Bool × State :=
  let a := R.ptbHome
  if s.ptbOn a F.ptbHomeEn && s.fld a F.ptbHomeHome == h && s.fld a F.ptbHomeAgent == agent &&
      decide (s.ptbCount 26 < s.fld a F.ptbHomeCount) then
    (true, (s.ptbTick 26).addSat R.ptbCntB F.ptbCntBHome 1)
  else (false, s)

/-- A harmful entry is enabled (Table 16-6). -/
def State.ptbHarm (s : State) : Bool :=
  (s.flag R.ptbSpill F.ptbSpillEn && s.flag R.ptbSpill F.ptbSpillStage2) || s.flag R.ptbHome F.ptbHomeEn

/-- A write of PTB_CTL (R391): ARM = 1 arms, or is refused for a harmful entry while the gate is closed. -/
def State.ptbArm (s : State) (v : Word) : State :=
  let a := R.ptbCtl
  if v.fld F.ptbCtlArm = 0 then s.setFld a F.ptbCtlArm 0
  else if s.flag a F.ptbCtlArm then s
  else if s.ptbHarm && !(s.flag R.secState F.secStateGate) then s.setFld a F.ptbCtlRefused 1
  else
    let s := (s.setFld a F.ptbCtlArm 1).setFld a F.ptbCtlRefused 0
    { s with sec := { s.sec with armed := true, harm := s.sec.harm || s.ptbHarm, ptbN := [], ptbMarks := [] } }

/-- PTB_ARM. -/
def execPtbArm (m : Master) (v : Word) (s : State) : Host.Outcome State Fault Refusal :=
  .next (s.command m [] R.ptbCtl (fun s => s.ptbArm v))

end Sys2Proof.Machine
end

