-- ==== Sys2Proof/Machine/Flags.lean ====
section
/-! DEFINITION. The statistics taps: MAXABS, non-finite and saturation events of conversions, and the slots that combine
them (R57, R99, R110). -/

namespace Sys2Proof.Machine

/-- The larger magnitude of a finite FP32 value and a running maximum; non-finite values do not enter (R110). -/
def tapMax (m x : Nat) : Nat := if isFin32 x then max m (x % 2 ^ 31) else m

/-- Events of a list of conversions: non-finite and saturation counts (R57). -/
def tapCount (l : List Conv) : Nat × Nat :=
  ((l.filter (fun c => c.nonfin)).length, (l.filter (fun c => c.sat)).length)

/-- A contribution to a statistics slot: maximum and integer additions (R110). -/
def State.tap (s : State) (k i maxabs nonfin sat : Nat) : State :=
  let v := s.slot k i
  s.setSlot k i ⟨max v.maxabs maxabs, v.nonfin + nonfin, v.sat + sat⟩

/-- A chain's tap values after a row's values and conversions. -/
def ChainRun.tapRow (r : ChainRun) (xs : List Nat) (cs : List Conv) : ChainRun :=
  { r with maxabs := xs.foldl tapMax r.maxabs, nonfin := r.nonfin + (tapCount cs).1, sat := r.sat + (tapCount cs).2 }

end Sys2Proof.Machine
end

