-- ==== Sys2Proof/Machine/Dvu.lean ====
section
/-! DEFINITION. Drain and vector units: chain checks (R84-R109, R118), one row of a chain (R86-R107), and what a chain writes
when its instruction completes (R98-R101, R110, R114, R117). -/

namespace Sys2Proof.Machine

/-! ### PVU registers (R111, R114) -/

/-- The cleared register. -/
def zero256 : List Nat := List.replicate 256 0

/-- Register V`r` of PVU `v`. -/
def State.pvReg (s : State) (v r : Nat) : List Nat := KMap.get (s.pv v).regs zero256 r

/-- The bytes of FP32 codes. -/
def fp32Bytes (l : List Nat) : List Byte := l.flatMap (fun x => toBytes 4 x)

/-- Register V`r` of PVU `v` committed, and written through to the backing area (R114). -/
def State.setPvReg (s : State) (v r : Nat) (l : List Nat) : State :=
  let s := s.setPv v { s.pv v with regs := KMap.set (s.pv v).regs zero256 r l }
  s.wr (s.fld (R.vecPvuBack v) F.vecPvuBackBase * 0x8000 + 1024 * r) (fp32Bytes l)

/-- Element `m` of a register as a chain reads it for row `m` (R216). -/
def State.pvElem (s : State) (v r m : Nat) : Nat :=
  if m < 256 then (s.pvReg v r).getD m 0 else (Config.pvuBeyond m).toNat

/-- The element with the chain's own earlier updates. -/
def State.pvNow (s : State) (run : ChainRun) (v r m : Nat) : Nat :=
  match run.pv.find? (fun p => p.1 == v && p.2.1 == r && p.2.2.1 == m) with
  | some p => p.2.2.2
  | none => s.pvElem v r m

/-- Element updates applied, oldest first, each register they name written through once. DESIGN CHOICE (log 47), unsafe: a register has
256 elements, and an update for a row m of 256 or more is dropped. -/
def State.commitPv (s : State) (l : List (Nat × Nat × Nat × Nat)) : State :=
  let names := l.foldl (fun a p => if a.contains (p.1, p.2.1) then a else a ++ [(p.1, p.2.1)]) []
  names.foldl (fun s vr =>
    s.setPvReg vr.1 vr.2 (l.reverse.foldl (fun row p =>
      if p.1 = vr.1 ∧ p.2.1 = vr.2 then setAt row p.2.2.1 p.2.2.2 else row) (s.pvReg vr.1 vr.2))) s

/-! ### chain checks (R118) -/

/-- The code of the first condition that holds. -/
def firstCode (l : List (Bool × Nat)) : Option Nat := (l.find? (fun p => p.1)).map (fun p => p.2)

/-- Table 4-6 lists the code. -/
def opKnown (o : Nat) : Bool :=
  isBinary o || isUnary o || isDeriv o || (decide (0x30 ≤ o) && decide (o ≤ 0x34)) || o == 0x38 || o == 0x39 ||
    o == 0x3C || o == 0x3D || o == 0x3E

/-- The ASEL column of Table 4-6. -/
def aselOk (o a : Nat) : Bool :=
  if isBinary o then decide (1 ≤ a) && decide (a ≤ 5)
  else if isDeriv o || o == 0x3D || o == 0x3E then a == 1
  else if 0x30 ≤ o ∧ o ≤ 0x33 then a == 0 || a == 5
  else if o = 0x38 then a == 5
  else a == 0

/-- An operation word breaks R95. -/
def OpW.bad (o : OpW) : Bool :=
  !(opKnown o.op) || !(aselOk o.op o.asel) || decide (o.rsv ≠ 0) ||
    (decide (o.imm ≠ 0) && decide (o.asel ≠ 4) && !([0x38, 0x39, 0x3C, 0x3D, 0x3E].contains o.op))

/-- Rows and columns that a chain processes: M and N of a drain, SRC1's of a standalone chain, the mask's rows under
EXPAND (R87, R105, R108). -/
def ChainD.dims (c : ChainD) (drain : Option (Nat × Nat)) : Nat × Nat :=
  match drain with
  | some p => p
  | none => (if c.expand.isSome then c.src2.rows else c.src1.rows, c.src1.cols)

/-- The streams that a descriptor describes: SRC1, SRC2 and DST but those of KIND 0. -/
def ChainD.allStreams (c : ChainD) : List StreamD := [c.src1, c.src2, c.dst].filter (fun d => decide (d.kind ≠ 0))

/-- SRC2 is one mask row of ROWS bits: COMPRESS in row mode, or EXPAND (R104, R105). -/
def ChainD.maskRow (c : ChainD) : Bool :=
  c.expand.isSome || (match c.compress with
    | none => false
    | some o => !(o.imm.testBit 0))

/-- The streams whose formats and shapes count. DESIGN CHOICE (log 47), unsafe: the FMT, ROWS, COLS and addresses of a stream not in
use (KIND 0), and of SRC1 in a drain chain, whose rows come from the drain buffer, are not looked at. -/
def ChainD.streams (c : ChainD) (drain : Option (Nat × Nat)) : List StreamD :=
  (if drain.isSome then [] else [c.src1]) ++ [c.src2, c.dst].filter (fun d => decide (d.kind ≠ 0))

/-- The PVUs that a chain names: ASEL 5 operands and KIND 4 streams. -/
def ChainD.pvus (c : ChainD) (drain : Option (Nat × Nat)) (die : Nat) : List Nat :=
  (c.regs die).map (fun p => p.1) ++
    ((c.streams drain).filter (fun d => d.kind == 4)).map (fun d => 2 * die + bits d.addr 5 1)

/-- KINDs stand where Table 4-1 allows them. -/
def ChainD.kindsOk (c : ChainD) (drain : Option (Nat × Nat)) : Bool :=
  if drain.isSome then c.src1.kind == 2 && [0, 1, 3, 4, 5].contains c.src2.kind && [0, 1, 4, 6].contains c.dst.kind
  else [1, 4].contains c.src1.kind && [0, 1, 4, 5].contains c.src2.kind && [0, 1, 4].contains c.dst.kind

/-- VX_DESC conditions of a descriptor that was read (Table 4-12). -/
def ChainD.descBad (c : ChainD) (drain : Option (Nat × Nat)) (level : Nat) : Bool :=
  !(c.kindsOk drain) || decide (c.level ≠ level) || decide (c.rsv ≠ 0) || decide (63 < c.slot) ||
    (c.ops.drop c.nops).any (fun o => decide (o.raw ≠ 0)) || c.src1.reserved || c.src2.reserved || c.dst.reserved ||
    (decide (c.dst.kind ≠ 0) && c.dst.rs) ||
    c.allStreams.any (fun d => (d.mx && d.rs) || (d.bitf && (d.mx || d.rs)))

/-- R96, and NOPS above 4. -/
def ChainD.chainBad (c : ChainD) (drain : Option (Nat × Nat)) : Bool :=
  let u := c.used
  let n (p : OpW → Bool) : Nat := (u.filter p).length
  decide (4 < c.nops) ||
    decide (1 < n (fun o => o.op == 0x34 || (decide (0x30 ≤ o.op) && decide (o.op ≤ 0x33) && o.asel == 0))) ||
    decide (1 < n (fun o => o.op == 0x3C)) ||
    u.dropLast.any (fun o => o.op == 0x3D) ||
    (u.drop 1).any (fun o => o.op == 0x3E) || (drain.isSome && u.any (fun o => o.op == 0x3E)) ||
    (u.any (fun o => o.op == 0x38) && (match drain with | none => true | some p => decide (256 < p.1))) ||
    (u.any (fun o => o.asel == 1) && c.src2.kind == 0) ||
    (c.push.isSome && c.dst.kind == 6)

/-- A PUSH's IMM breaks R100. -/
def pushImmBad (imm : Nat) : Bool :=
  decide (imm ≥ 128) || (imm.testBit 5 && imm.testBit 6) ||
    (if imm.testBit 5 || imm.testBit 6 then decide (imm % 32 ≠ 0) else !([8, 3, 4].contains (imm % 32)))

/-- A stream's format is refused (Table 2-2, R89, R96). DESIGN CHOICE (log 45), unsafe: BW8 and BW16, which Table 2-2 gives the DVU for
conversion only, are taken in a chain that also has operations. -/
def StreamD.formatBad (d : StreamD) : Bool :=
  if d.bitf then decide (d.code ≠ 0)
  else match Fmt.ofCode d.code with
    | none => true
    | some f => d.mx && !f.mx

/-- VX_FORMAT conditions. -/
def ChainD.formatBad (c : ChainD) (drain : Option (Nat × Nat)) : Bool :=
  (c.streams drain).any StreamD.formatBad || c.allStreams.any (fun d => d.rnd == 3) ||
    (match c.push with | some o => pushImmBad o.imm | none => false) ||
    ((c.compress.isSome || c.expand.isSome) && !(c.src2.bitf))

/-- A stream of block wire format. -/
def StreamD.isBw (d : StreamD) : Bool := !d.bitf && (d.code == 14 || d.code == 15)

/-- The pop slot's frame of a KIND 5 stream, as a later reader sees it (R158, R159). -/
def Asu.popOf (c : Asu) (d : StreamD) : Option Frame :=
  (c.slotOf (bits d.addr 63 1)).filter (fun f => !f.dropping)

/-- The record size of a stake (R170). -/
def recSize (m12 : Bool) : Nat := if m12 then 12 else 16

/-- The group size G of a stake (R170). -/
def groupSize (m12 : Bool) : Nat := if m12 then 768 else 1024

/-- VX_SHAPE conditions. DESIGN CHOICE (log 47), safe: COMPRESS into a QUAY destination, for which R101 and R104 give no form, is one. -/
def State.shapeBad (s : State) (k die : Nat) (drain : Option (Nat × Nat)) (c : ChainD) : Bool :=
  let (r, n) := c.dims drain
  let rng := fun (d : StreamD) => decide (d.rows = 0) || decide (1024 < d.rows) || decide (d.cols = 0) || decide (256 < d.cols)
  let differs := fun (d : StreamD) => decide (d.rows ≠ r) || decide (d.cols ≠ n)
  let g := groupSize (s.stake k).master12
  (c.streams drain).any (fun d => rng d || (d.isBw && decide (d.cols % 32 ≠ 0))) ||
    (decide (c.src2.kind ≠ 0) && differs c.src2) ||
    (decide (c.dst.kind ≠ 0) && (match c.compress with
      | none => differs c.dst
      | some o => if o.imm.testBit 0 then decide (c.dst.rows * c.dst.cols < r * n)
                  else decide (c.dst.rows < r) || decide (c.dst.cols ≠ n))) ||
    (c.dst.kind == 6 && (c.compress.isSome || decide (c.dst.fmt ≠ 0) || c.dst.mx || decide (r % 64 ≠ 0) || decide (c.dst.addr % 256 ≠ 0) ||
      decide (c.dst.stride % g ≠ 0))) ||
    (c.src2.kind == 5 && (match (s.as die k).popOf c.src2 with
      | none => false
      | some f => decide (f.fmt ≠ c.src2.fmt)))

/-- A COMPRESS destination in element mode is one run (R104). -/
def ChainD.dstRun (c : ChainD) : Bool :=
  match c.compress with
  | none => false
  | some o => o.imm.testBit 0

/-- VX_ALIGN conditions (Tables 4-2 and 4-4); the destination of COMPRESS in element mode has no rows, and its STRIDE is ignored (R104). -/
def ChainD.alignBad (c : ChainD) (drain : Option (Nat × Nat)) : Bool :=
  (c.streams drain).any (fun d => d.kind == 1 && decide (d.addr % 64 ≠ 0)) ||
    ((if drain.isSome then [] else [c.src1]) ++ [c.src2] ++ (if c.dstRun then [] else [c.dst])).any (fun d =>
      decide (d.kind ≠ 0) && decide (d.stride % 64 ≠ 0)) ||
    [c.lane, c.rowv, c.aux, c.pushStr].any (fun a => decide (a % 64 ≠ 0)) || decide (c.count % 8 ≠ 0)

/-- The chain reads LANEVEC. -/
def ChainD.usesLane (c : ChainD) : Bool := c.used.any (fun o => o.asel == 2)

/-- The chain reads ROWVEC. -/
def ChainD.usesRow (c : ChainD) : Bool := c.used.any (fun o => o.asel == 3)

/-- Bytes of AUXOUT that a chain writes: 4 a column for CSUM, 4 a row otherwise (R98). -/
def ChainD.auxBytes (c : ChainD) (r n : Nat) : Nat :=
  match c.auxOp with
  | none => 0
  | some o => if o.op = 0x34 then 4 * n else 4 * r

/-- Scales of a stream, where it has them, lie in the stake's memory. -/
def State.scalesIn (s : State) (k : Nat) (d : StreamD) : Bool :=
  (!d.mx || s.inStake k d.saddr (d.rows * ceilDiv d.cols 32)) && (!d.rs || s.inStake k d.saddr (4 * d.rows))

/-- Every row of a MEM stream lies in the stake's memory. -/
def State.rowsIn (s : State) (k : Nat) (d : StreamD) : Bool :=
  (List.range d.rows).all (fun m => s.inStake k (d.addr + m * d.stride) (d.rowLen d.cols)) && s.scalesIn k d

/-- A source lies in the stake's memory: a mask row as ROWS bits, a MEM stream by its rows, another by its scales. -/
def State.sourceIn (s : State) (k : Nat) (mask : Bool) (d : StreamD) : Bool :=
  if d.kind = 0 then true
  else if d.kind = 1 then (if mask then s.inStake k d.addr (ceilDiv d.rows 8) else s.rowsIn k d)
  else s.scalesIn k d

/-- Record groups that a QUAY destination names lie in the stake's HBM channels. -/
def State.quayIn (s : State) (k r n : Nat) (c : ChainD) : Bool :=
  let g := groupSize (s.stake k).master12
  (List.range n).all (fun l => s.inHbmOf k (c.dst.addr + l * c.dst.stride) (g * (r / 64)))

/-- A KIND 4 stream of `n` rows names a register above V31. -/
def StreamD.regsBad (d : StreamD) (n : Nat) : Bool := d.kind == 4 && decide (32 < d.addr % 32 + n)

/-- VX_ADDR conditions: an address outside the stake's memory, or a register above V31. -/
def State.addrBad (s : State) (k : Nat) (drain : Option (Nat × Nat)) (c : ChainD) : Bool :=
  let (r, n) := c.dims drain
  (drain.isNone && !(s.sourceIn k false c.src1)) || !(s.sourceIn k c.maskRow c.src2) ||
    (c.dst.kind == 1 && !(if c.dstRun then s.inStake k c.dst.addr (c.dst.rowLen (r * n)) &&
        (!c.dst.mx || s.inStake k c.dst.saddr (ceilDiv (r * n) 32)) else s.rowsIn k c.dst)) ||
    (c.dst.kind == 6 && !(s.quayIn k r n c)) ||
    (drain.isNone && c.src1.regsBad c.src1.rows) || c.src2.regsBad (if c.maskRow then 1 else c.src2.rows) ||
    c.dst.regsBad (if c.dstRun then ceilDiv (r * n) 256 else c.dst.rows) ||
    c.used.any (fun o => o.op == 0x38 && decide (29 < o.reg)) ||
    (c.usesLane && !(s.inStake k c.lane (4 * n))) || (c.usesRow && !(s.inStake k c.rowv (4 * r))) ||
    (c.auxOp.isSome && !(s.inStake k c.aux (c.auxBytes r n))) || (c.compress.isSome && !(s.inStake k c.count 8))

/-- The format that a PUSH sends (R100): FMT with BIT in bit 5. -/
def State.pushFmt (s : State) (k imm : Nat) : Nat :=
  if imm.testBit 5 then 32 else if imm.testBit 6 then (s.stake k).ffmt else imm % 32

/-- Bytes of a row of `n` elements in a frame's format. -/
def frameRow (fmt n : Nat) : Nat :=
  if fmt.testBit 5 then (n + 7) / 8 else match Fmt.ofCode fmt with | some f => rowBytes f.width n | none => 0

/-- Row starts that R151 allows in a frame. -/
def Frame.startUnit (f : Frame) : Nat := if f.scaled then 256 else 64

/-- AS_PUSH (R155). -/
def State.pushBad (s : State) (k x die r n : Nat) (c : ChainD) : Bool :=
  match c.push with
  | none => false
  | some o =>
    if x = 2 then true
    else match (s.as die k).openOf x with
      | none => true
      | some f =>
        decide (f.fmt ≠ s.pushFmt k o.imm) || decide (c.pushOff % f.startUnit ≠ 0) || decide (c.pushStr % f.startUnit ≠ 0) ||
          decide (f.segs * 4096 < c.pushOff + (r - 1) * c.pushStr + (if f.scaled then 256 else frameRow f.fmt n))

/-- AS_SLOT for a KIND 5 stream (R158). -/
def State.slotBad (s : State) (k die : Nat) (c : ChainD) : Bool :=
  if c.src2.kind ≠ 5 then false
  else match (s.as die k).popOf c.src2 with
    | none => true
    | some f =>
      let off := c.src2.addr % 2 ^ 63
      decide (off % f.startUnit ≠ 0) || decide (c.src2.stride % f.startUnit ≠ 0) ||
        decide (f.segs * 4096 < off + (if c.maskRow then ceilDiv c.src2.rows 8
          else (c.src2.rows - 1) * c.src2.stride + frameRow f.fmt c.src2.cols))

/-- The bounding interval of the frame rows that a KIND 5 SRC2 reads, and of their scales. -/
def State.popSpan (s : State) (k die : Nat) (c : ChainD) (f : Frame) : List (Nat × Nat) :=
  let off := c.src2.addr % 2 ^ 63
  let len := if c.maskRow then ceilDiv c.src2.rows 8 else (c.src2.rows - 1) * c.src2.stride + frameRow f.fmt c.src2.cols
  (s.frameBase die k f + off, s.frameBase die k f + off + len) ::
    (if f.scaled then [(s.scaleBase die k f + 4 * (off / 256), s.scaleBase die k f + 4 * ((off + len + 255) / 256))] else [])

/-- Bounding intervals of a chain's inputs (R109), but for those of a popped frame. -/
def ChainD.inputs (c : ChainD) (drain : Option (Nat × Nat)) : List (Nat × Nat) :=
  let (r, n) := c.dims drain
  (if drain.isSome then [] else c.src1.spans c.src1.rows c.src1.cols) ++
    (if c.maskRow then (if c.src2.kind = 1 then [(c.src2.addr, c.src2.addr + ceilDiv c.src2.rows 8)] else [])
     else c.src2.spans c.src2.rows c.src2.cols) ++
    (if c.usesLane then [(c.lane, c.lane + 4 * n)] else []) ++ (if c.usesRow then [(c.rowv, c.rowv + 4 * r)] else [])

/-- The registers of a KIND 4 stream of `n` rows, as an interval of PVU * 32 + register. -/
def StreamD.regSpan (d : StreamD) (n : Nat) : List (Nat × Nat) :=
  if d.kind = 4 then [(bits d.addr 0 6, bits d.addr 0 6 + n)] else []

/-- The bounding interval of a QUAY destination. -/
def ChainD.quaySpan (c : ChainD) (g r n : Nat) : List (Nat × Nat) :=
  if c.dst.kind = 6 then [(c.dst.addr, c.dst.addr + (n - 1) * c.dst.stride + g * (r / 64))] else []

/-- Bounding intervals of a chain's outputs. -/
def ChainD.outputs (c : ChainD) (drain : Option (Nat × Nat)) (g : Nat) : List (Nat × Nat) :=
  let (r, n) := c.dims drain
  (if c.dstRun then (if c.dst.kind = 1 then (c.dst.addr, c.dst.addr + c.dst.rowLen (r * n)) ::
      (if c.dst.mx then [(c.dst.saddr, c.dst.saddr + ceilDiv (r * n) 32)] else []) else [])
   else c.dst.spans c.dst.rows c.dst.cols) ++ c.quaySpan g r n ++
    (if c.auxOp.isSome then [(c.aux, c.aux + c.auxBytes r n)] else []) ++
    (if c.compress.isSome then [(c.count, c.count + 8)] else [])

/-- VX_OVERLAP (R109); `pop` holds the intervals of a popped frame. -/
def ChainD.overlapBad (c : ChainD) (drain : Option (Nat × Nat)) (g : Nat) (pop : List (Nat × Nat)) : Bool :=
  let (r, n) := c.dims drain
  anyOverlap (c.outputs drain g) (c.inputs drain ++ pop) ||
    anyOverlap (c.dst.regSpan (if c.dstRun then ceilDiv (r * n) 256 else c.dst.rows))
      ((if drain.isSome then [] else c.src1.regSpan c.src1.rows) ++ c.src2.regSpan (if c.maskRow then 1 else c.src2.rows))

/-- The intervals of the frame that a KIND 5 SRC2 pops. -/
def State.popSpans (s : State) (k die : Nat) (c : ChainD) : List (Nat × Nat) :=
  if c.src2.kind ≠ 5 then []
  else match (s.as die k).popOf c.src2 with
    | none => []
    | some f => s.popSpan k die c f

/-- A PVU that can execute the operations of PVU `v` of stake `k`: itself, or another of the stake where it has failed (R114). -/
def State.pvuAble (s : State) (k v : Nat) : Bool :=
  !(s.failPvu.testBit v) || (List.range 8).any (fun u => (s.stake k).pvu.testBit u && !(s.failPvu.testBit u))

/-- A chain names a PVU outside the stake, or one that none of the stake's can stand in for (R84, R342). -/
def State.pvuBad (s : State) (k die : Nat) (drain : Option (Nat × Nat)) (c : ChainD) : Bool :=
  (c.pvus drain die).any (fun v => !((s.stake k).pvu.testBit v) || !(s.pvuAble k v))

/-- The first fault of a chain whose descriptor was read, from VX_DESC on (R118). -/
def State.chainFault (s : State) (k x e level : Nat) (drain : Option (Nat × Nat)) (c : ChainD) : Option Nat :=
  let (r, n) := c.dims drain
  let die := e / 8
  firstCode [(c.descBad drain level, 0x36), (c.used.any OpW.bad, 0x31), (c.chainBad drain, 0x33), (c.formatBad drain, 0x32),
    (s.shapeBad k die drain c, 0x34), (c.alignBad drain, 0x35), (s.addrBad k drain c, 0x37), (s.pushBad k x die r n c, 0x45),
    (s.slotBad k die c, 0x48), (c.overlapBad drain (groupSize (s.stake k).master12) (s.popSpans k die c), 0x38)]

/-- The chain descriptor `i` of DVU `e`, where the index and the read are good (R93, R412). -/
def State.readChain (s : State) (e i : Nat) : Option (List Byte) :=
  let a := s.fld (R.vecCtbl e) F.vecCtblBase * 4096 + 192 * i
  if s.fld (R.vecCtblLen e) F.vecCtblLenEntries ≤ i ∨ s.unreadWord a 192 then none else some (s.bytes a 192)

/-- VEC_DVU_ERR records a fault; AS_PUSH and AS_SLOT are also recorded by the die's ASU (R118). -/
def State.dvuErr (s : State) (e k x index code : Nat) : State :=
  let w : Word := (0 : Word)
  let w := ((w.setFld F.vecDvuErrCode code).setFld F.vecDvuErrStream x).setFld F.vecDvuErrIndex (index % 2 ^ 32)
  let s := s.setReg (R.vecDvuErr e) w
  if code = 0x45 ∨ code = 0x48 then s.asuErr (e / 8) k x index code else s

/-! ### sources of a row (R87-R90, R151, R158) -/

/-- Codes of one row of block wire format (R43, R90). -/
def State.bwRow (s : State) (w a c : Nat) : List Nat :=
  (List.range c).map (fun n =>
    let b := a + (n / 32) * (1 + 4 * w)
    ofBw w (s.byte b).toNat (sint w (s.num (b + 1 + (n % 32) * (w / 8)) (w / 8))))

/-- The scales of a stream applied to row `m`: RS multiplies it by its row scale, MX each block by its E8M0 scale (R89, R90). -/
def State.scaleRow (s : State) (d : StreamD) (m : Nat) (row : List Nat) : List Nat :=
  if d.rs then row.map (fun x => mul32 x (s.num (d.saddr + 4 * m) 4))
  else if d.mx then (List.range row.length).map (fun n =>
    rne32 (scaled (val32 (row.getD n 0)) (mxScale (s.byte (d.saddr + m * ceilDiv row.length 32 + n / 32)).toNat)))
  else row

/-- The scales' read of row `m` of `c` columns returns poison or an error response. -/
def State.scaleRowBad (s : State) (d : StreamD) (m c : Nat) : Bool :=
  (d.mx && s.unreadWord (d.saddr + m * ceilDiv c 32) (ceilDiv c 32)) || (d.rs && s.unreadWord (d.saddr + 4 * m) 4)

/-- Row `m` of a MEM stream with `c` columns, as FP32 codes (R89, R90). DESIGN CHOICE (log 45), unsafe: an INT32 element that FP32 does
not hold is rounded to nearest even, as R87 rounds accumulators. -/
def State.memRow (s : State) (d : StreamD) (m c : Nat) : List Nat :=
  let a := d.addr + m * d.stride
  let row :=
    if d.bitf then (List.range c).map (fun n => if s.elem a 1 n = 1 then one32 else 0)
    else match Fmt.ofCode d.code with
      | none => []
      | some .bw8 => s.bwRow 8 a c
      | some .bw16 => s.bwRow 16 a c
      | some f => (List.range c).map (fun n =>
          let v := decodeElem f d.mx (s.elem a f.width n)
          rne32 (if d.mx then scaled v (mxScale (s.byte (d.saddr + m * ceilDiv c 32 + n / 32)).toNat) else v))
  if d.rs then row.map (fun x => mul32 x (s.num (d.saddr + 4 * m) 4)) else row

/-- That row's read returns poison or an error response. -/
def State.memRowBad (s : State) (d : StreamD) (m c : Nat) : Bool :=
  s.unreadWord (d.addr + m * d.stride) (d.rowLen c) || s.scaleRowBad d m c

/-- The frame that an instruction bound at dispatch. -/
def State.boundFrame (s : State) (die k id : Nat) : Option Frame :=
  (s.as die k).frames.find? (fun f => frameId die f == id)

/-- Row `m` of the popped frame (R151, R158). -/
def State.frameRowOf (s : State) (die k : Nat) (f : Frame) (d : StreamD) (m c : Nat) : List Nat :=
  let off := d.addr % 2 ^ 63 + m * d.stride
  let a := s.frameBase die k f + off
  if f.fmt.testBit 5 then (List.range c).map (fun n => if s.elem a 1 n = 1 then one32 else 0)
  else match Fmt.ofCode f.fmt with
    | none => []
    | some g => (List.range c).map (fun n =>
        let v := rne32 (decodeElem g false (s.elem a g.width n))
        if f.scaled then mul32 v (s.num (s.scaleBase die k f + 4 * (off / 256)) 4)
        else if f.fixed then mul32 v (rne32 (.fin false 1 f.exp)) else v)

/-- That row's read returns poison. -/
def State.frameRowBad (s : State) (die k : Nat) (f : Frame) (d : StreamD) (m c : Nat) : Bool :=
  let off := d.addr % 2 ^ 63 + m * d.stride
  s.unreadWord (s.frameBase die k f + off) (frameRow f.fmt c) ||
    (f.scaled && s.unreadWord (s.scaleBase die k f + 4 * (off / 256)) 4)

/-- Row `m` of a source stream with `c` columns, and whether its read returned poison. -/
def State.srcRow (s : State) (die k : Nat) (o : Outst) (d : StreamD) (m c : Nat) : List Nat × Bool :=
  match d.kind with
  | 1 => (s.memRow d m c, s.memRowBad d m c)
  | 3 => (s.scaleRow d m ((List.range c).map (fun n => (o.feed.getD m []).getD n 0)), s.scaleRowBad d m c)
  | 4 => (s.scaleRow d m ((s.pvReg (2 * die + bits d.addr 5 1) (d.addr % 32 + m)).take c), s.scaleRowBad d m c)
  | 5 => match s.boundFrame die k o.frame with
    | none => (List.replicate c 0, true)
    | some f => (s.scaleRow d m (s.frameRowOf die k f d m c), s.frameRowBad die k f d m c || s.scaleRowBad d m c)
  | _ => (List.replicate c 0, false)

/-- Bit `i` of the one mask row of COMPRESS row mode or EXPAND (R104, R105). -/
def State.maskBit (s : State) (die k : Nat) (o : Outst) (d : StreamD) (i : Nat) : Bool × Bool :=
  match d.kind with
  | 1 => (s.elem d.addr 1 i == 1, s.unreadWord (d.addr + i / 8) 1)
  | 5 => match s.boundFrame die k o.frame with
    | none => (false, true)
    | some f => (s.elem (s.frameBase die k f + d.addr % 2 ^ 63) 1 i == 1, s.unreadWord (s.frameBase die k f + d.addr % 2 ^ 63 + i / 8) 1)
  | _ => (pos32 ((s.srcRow die k o d 0 (i + 1)).1.getD i 0), false)

/-! ### one row (R86, R92) -/

/-- The scale exponent of a row pushed into a row-scaled frame (R100). -/
def pushExp (f : Fmt) (xs : List Nat) : Int :=
  if xs.any isNaN32 then 0
  else match blockTop (xs.map val32) with
    | none => 0
    | some t => max (-126) (min 127 (t - f.mxEmax))

/-- A pushed row: its bytes, its scale (FP32, 0 where the frame has none) and its conversions (R100). DESIGN CHOICE (log 47), unsafe: the
bits of its last byte beyond the last element are zero. -/
def pushRow (f : Frame) (xs : List Nat) : List Byte × Nat × List Conv :=
  if f.fmt.testBit 5 then
    (toBytes ((xs.length + 7) / 8) (packCodes 1 (xs.map (fun x => if pos32 x then 1 else 0))), 0,
      xs.map (fun x => ⟨0, !(isFin32 x), false⟩))
  else match Fmt.ofCode f.fmt with
    | none => ([], 0, [])
    | some g =>
      let e := if f.scaled then pushExp g xs else if f.fixed then f.exp else 0
      let cs := xs.map (fun x => convert g false .rne 0 (Val.scale (-e) (val32 x)))
      (toBytes (rowBytes g.width xs.length) (packCodes g.width (cs.map (fun c => c.code))),
        (if f.scaled then rne32 (.fin false 1 e) else 0), cs)

/-- The operand `a` of an operation for row `m`, column `n` (R94, R216). -/
def State.operand (s : State) (die : Nat) (c : ChainD) (o : OpW) (ys : List Nat) (m n : Nat) : Nat :=
  match o.asel with
  | 1 => ys.getD n 0
  | 2 => s.num (c.lane + 4 * n) 4
  | 3 => s.num (c.rowv + 4 * m) 4
  | 4 => o.imm
  | 5 => s.pvElem (2 * die + o.psel) o.reg m
  | _ => 0

/-- A list of pairs of an index and an element. -/
def indexed (l : List Nat) : List (Nat × Nat) := (List.range l.length).zip l

/-- The online-softmax step of R106 on one row: p, and Vr, Vr+1 and Vr+2. -/
def osmRow (cc vr vr1 : Nat) (xs : List Nat) : List Nat × Nat × Nat × Nat :=
  let sc := xs.map (mul32 cc)
  let mn := max32 vr (rowMax false sc)
  let ninf := decide (mn = 0xFF800000)
  let p := if ninf then xs.map (fun _ => 0) else sc.map (fun y => unary32 0x12 (sub32 y mn))
  let alpha := if ninf then one32 else unary32 0x12 (sub32 vr mn)
  (p, mn, add32 (mul32 alpha vr1) (rowSum false p), alpha)

/-- One operation on row `m` (Table 4-6). -/
def State.chainOp (s : State) (die k : Nat) (o : Outst) (c : ChainD) (m : Nat) (ys : List Nat)
    (st : ChainRun × List Nat) (w : OpW) : ChainRun × List Nat :=
  let (run, xs) := st
  let v := 2 * die + w.psel
  if 0x30 ≤ w.op ∧ w.op ≤ 0x33 then
    let r := match w.op with
      | 0x30 => rowMax false xs
      | 0x31 => rowMax true xs
      | 0x32 => rowSum false xs
      | _ => rowSum true xs
    if w.asel = 0 then ({ run with aux := run.aux ++ [r] }, xs)
    else
      let old := s.pvNow run v w.reg m
      ({ run with pv := (v, w.reg, m, if w.op < 0x32 then max32 old r else add32 old r) :: run.pv }, xs)
  else if w.op = 0x34 then
    ({ run with aux := (indexed xs).map (fun p => add32 (run.aux.getD p.1 0) p.2) }, xs)
  else if w.op = 0x38 then
    let (p, mn, sum, alpha) := osmRow w.imm (s.pvNow run v w.reg m) (s.pvNow run v (w.reg + 1) m) xs
    ({ run with pv := (v, w.reg + 2, m, alpha) :: (v, w.reg + 1, m, sum) :: (v, w.reg, m, mn) :: run.pv }, p)
  else if w.op = 0x39 then
    (run, (indexed xs).map (fun p => if (p.1 : Int) - m > sint 32 w.imm then 0xFF800000 else p.2))
  else if w.op = 0x3C then
    match s.boundFrame die k o.pushTo with
    | none => (run, xs)
    | some f =>
      let (b, sc, cs) := pushRow f xs
      ({ run with pushes := (c.pushOff + m * c.pushStr, b, sc) :: run.pushes }.tapRow xs cs, xs)
  else if w.op = 0x3D ∨ w.op = 0x3E then (run, xs)
  else (run, (indexed xs).map (fun p => elemOp w.op p.2 (s.operand die c w ys m p.1)))

/-- Conversions and bytes of a row written to a MEM stream: codes of its format, R58 scales, or R90 blocks. `idx` is the
stream index of its first element for stochastic rounding (R99). -/
def dstBytes (key : SrKey) (d : StreamD) (idx : Nat) (xs : List Nat) (old : List Byte) : List Byte × List Byte × List Conv :=
  if d.bitf then
    (packOver 1 (xs.map (fun x => if pos32 x then 1 else 0)) old, [], xs.map (fun x => ⟨0, !(isFin32 x), false⟩))
  else match Fmt.ofCode d.code, Rnd.ofCode d.rnd with
    | some f, some r =>
      if f = .bw8 ∨ f = .bw16 then
        let w := f.width
        let blk := fun (b : List Nat) =>
          let vs := b.map val32
          let e : Nat := if b.any (fun x => !(isFin32 x)) then 0xFF
            else match blockTop vs with
              | none => 0
              | some t => (max 0 (min 254 (128 + t))).toNat
          (toBytes 1 e ++ b.flatMap (fun x => toBytes (w / 8) (if e = 0xFF then 0 else ofSint w (toBw w e x).1)),
            b.map (fun x => (⟨0, !(isFin32 x), decide (e ≠ 0xFF) && (toBw w e x).2⟩ : Conv)))
        let bs := (chunks 32 xs.length xs).map blk
        (bs.flatMap (fun b => b.1), [], bs.flatMap (fun b => b.2))
      else
        let us := (List.range xs.length).map (fun i => key.draw (idx + i))
        if d.mx then
          let bs := (chunks 32 xs.length (xs.zip us)).map (fun (b : List (Nat × Nat)) => mxWrite f r (b.map (fun p => p.2)) (b.map (fun p => val32 p.1)))
          let cs := bs.flatMap (fun b => b.2)
          (packOver f.width (cs.map (fun c => c.code)) old, bs.map (fun b => BitVec.ofNat 8 b.1), cs)
        else
          let cs := (xs.zip us).map (fun p => convert f false r p.2 (val32 p.1))
          (packOver f.width (cs.map (fun c => c.code)) old, [], cs)
    | _, _ => ([], [], [])

/-- What a chain's stochastic rounding draws from (R60). -/
def State.srKey (s : State) (k step ctx : Nat) : SrKey := ⟨(s.reg (R.psqSeed k)).toNat, step, ctx⟩

/-- Values written at a destination's row position `r`. -/
def State.writeDst (s : State) (k die : Nat) (o : Outst) (d : StreamD) (r idx : Nat) (xs : List Nat) (run : ChainRun) :
    State × ChainRun :=
  match d.kind with
  | 1 =>
    let a := d.addr + r * d.stride
    let (b, sc, cs) := dstBytes (s.srKey k o.step d.ctx) d idx xs (s.bytes a (d.rowLen xs.length))
    let s := s.wr a b
    let s := if d.mx then s.wr (d.saddr + r * ceilDiv xs.length 32) sc else s
    (s, run.tapRow xs cs)
  | 4 =>
    let v := 2 * die + bits d.addr 5 1
    let up : List (Nat × Nat × Nat × Nat) := ((indexed xs).map (fun p => (v, d.addr % 32 + r, p.1, canon32 p.2))).reverse
    let run : ChainRun := { run with pv := up ++ run.pv }
    (s, run.tapRow xs
      (xs.map (fun x => convert .fp32 false .rne 0 (val32 x))))
  | 6 => (s, { run with tile := run.tile ++ [xs] }.tapRow xs (xs.map (fun x => convert .fp32 false .rne 0 (val32 x))))
  | _ => (s, run)

/-- A row's values at the destination, under COMPRESS where the chain ends with it (R99, R104). -/
def State.sinkRow (s : State) (k die : Nat) (o : Outst) (c : ChainD) (m : Nat) (ys xs : List Nat) (run : ChainRun) :
    State × ChainRun :=
  match c.compress with
  | none => s.writeDst k die o c.dst m (m * xs.length) xs run
  | some w =>
    if w.imm.testBit 0 then
      let sel := (xs.zip ys).filterMap (fun p => if pos32 p.2 then some p.1 else none)
      (s, { run with tile := [run.tile.flatten ++ sel], dense := run.dense + sel.length })
    else
      let (b, p) := s.maskBit die k o c.src2 m
      let run := { run with poison := run.poison || p }
      if b then s.writeDst k die o c.dst run.dense (run.dense * xs.length) xs { run with dense := run.dense + 1 }
      else (s, run)

/-- The primary source of row `m` of a standalone chain, under EXPAND where the chain begins with it (R105, R108). -/
def State.vxSource (s : State) (k die : Nat) (o : Outst) (c : ChainD) (m : Nat) (run : ChainRun) : List Nat × ChainRun :=
  match c.expand with
  | none =>
    let (xs, p) := s.srcRow die k o c.src1 m c.src1.cols
    (xs, { run with poison := run.poison || p })
  | some w =>
    let fill := List.replicate c.src1.cols w.imm
    let (b, p) := s.maskBit die k o c.src2 m
    let run := { run with poison := run.poison || p }
    if ¬ b then (fill, run)
    else if c.src1.rows ≤ run.dense then (fill, { run with overrun := true })
    else
      let (xs, p) := s.srcRow die k o c.src1 run.dense c.src1.cols
      (xs, { run with dense := run.dense + 1, poison := run.poison || p })

/-- LANEVEC or ROWVEC reads of a row return poison. -/
def State.vecBad (s : State) (c : ChainD) (m n : Nat) : Bool :=
  (c.usesLane && s.unreadWord c.lane (4 * n)) || (c.usesRow && s.unreadWord (c.rowv + 4 * m) 4)

/-- SRC2 read as rows of elements: not a mask row of COMPRESS row mode or EXPAND. -/
def ChainD.src2Rows (c : ChainD) : Bool :=
  decide (c.src2.kind ≠ 0) && c.expand.isNone && (match c.compress with | some w => w.imm.testBit 0 | none => true)

/-- Row `m` with source values `xs` passes the chain. -/
def State.runRow (s : State) (k e : Nat) (o : Outst) (c : ChainD) (m : Nat) (xs : List Nat) (run : ChainRun) : State × ChainRun :=
  let die := e / 8
  let n := xs.length
  let (ys, p) := if c.src2Rows then s.srcRow die k o c.src2 m n else ([], false)
  let run := { run with poison := run.poison || p || s.vecBad c m n }
  let (run, zs) := c.used.foldl (s.chainOp die k o c m ys) (run, xs)
  let (s, run) := s.sinkRow k die o c m ys zs run
  (s, { run with row := m + 1 })

/-- A row of raw INT32 accumulators that a chain with no operations passes unchanged (R80, R87). -/
def State.rawRow (s : State) (o : Outst) (c : ChainD) (m : Nat) (run : ChainRun) : State × ChainRun :=
  let xs := o.acc.getD m []
  let s := s.wrRow (c.dst.addr + m * c.dst.stride) 32 xs
  (s, { run.tapRow (xs.map (fun x => intTo32 (sint 32 x))) [] with row := m + 1 })

/-! ### completion of a chain -/

/-- Segments of a frame that a pushed row touches. -/
def Frame.touched (f : Frame) (off len : Nat) : List (Nat × Nat) :=
  (List.range ((off + len - 1) / 4096 - off / 4096 + 1)).map (fun i => (f.tag, f.start + off / 4096 + i))

/-- Pushed rows join their frame (R100, R101); `bad` writes them as poison (Table 4-11). -/
def State.commitPush (s : State) (die k : Nat) (f : Frame) (bad : Bool) (p : Nat × List Byte × Nat) : State :=
  let a := s.frameBase die k f + p.1
  let s := if bad then s.wrPoison a p.2.1.length else s.wr a p.2.1
  let sa := s.scaleBase die k f + 4 * (p.1 / 256)
  let s := if f.scaled then s.wrN sa 4 p.2.2 else s
  let c := s.as die k
  let new := (f.touched p.1 p.2.1.length).filter (fun q => !(c.pushq.contains q) && !(c.pool.contains q))
  s.setAs die k { c with pushq := c.pushq ++ new }

/-- The whole destination and other outputs written as poison (Table 4-11). -/
def State.poisonOutputs (s : State) (drain : Option (Nat × Nat)) (c : ChainD) (run : ChainRun) : State :=
  let (r, n) := c.dims drain
  let s := if c.dst.kind ≠ 1 then s
    else if c.dstRun then s.wrPoison c.dst.addr (c.dst.rowLen run.dense)
    else s.forAll (List.range (if c.compress.isSome then run.dense else r)) (fun s m =>
      s.wrPoison (c.dst.addr + m * c.dst.stride) (c.dst.rowLen n))
  let s := if c.auxOp.isSome then s.wrPoison c.aux (c.auxBytes r n) else s
  if c.compress.isSome then s.wrPoison c.count 8 else s

/-- What a chain commits when its instruction completes: pushes, AUXOUT, COUNTADDR, PVU updates and statistics. -/
def State.commitChain (s : State) (k e : Nat) (o : Outst) (c : ChainD) (drain : Option (Nat × Nat)) : State :=
  let die := e / 8
  let (r, n) := c.dims drain
  let (s, run) := if c.dstRun then
      (if c.dst.kind = 4 then
        let v := 2 * die + bits c.dst.addr 5 1
        let xs := o.run.tile.flatten
        let up : List (Nat × Nat × Nat × Nat) :=
          ((indexed xs).map (fun p => (v, c.dst.addr % 32 + p.1 / 256, p.1 % 256, canon32 p.2))).reverse
        let run : ChainRun := { o.run with pv := up ++ o.run.pv }
        (s, run.tapRow xs (xs.map (fun x => convert .fp32 false .rne 0 (val32 x))))
       else s.writeDst k die o c.dst 0 0 o.run.tile.flatten o.run)
    else (s, o.run)
  let bad := run.poison
  let s := match s.boundFrame die k o.pushTo with
    | none => s
    | some f => run.pushes.reverse.foldl (fun s p => s.commitPush die k f bad p) s
  let s := if c.auxOp.isSome then s.wr c.aux (fp32Bytes run.aux) else s
  let s := if c.compress.isSome then s.wrN c.count 8 run.dense else s
  let s := if bad then s.poisonOutputs drain c run else s
  let s := s.commitPv (if bad then run.pv.map (fun p => (p.1, p.2.1, p.2.2.1, nan32)) else run.pv)
  let outs := (if c.dst.kind ≠ 0 then (if c.compress.isSome then (if c.dstRun then run.dense else run.dense * n) else r * n) else 0) +
    (if c.push.isSome then r * n else 0)
  let (ma, nf, sa) := if bad then (0, outs, 0) else (run.maxabs, run.nonfin, run.sat)
  let s := s.tap k c.slot ma nf sa
  (s.addSat (R.vecDvuEvt e) F.vecDvuEvtNonfin nf).addSat (R.vecDvuEvt e) F.vecDvuEvtSat sa

/-- A fault reported after completion, recorded by the DVU and the stream. -/
def State.dvuAfter (s : State) (k e : Nat) (o : Outst) (code : Nat) : State :=
  (s.dvuErr e k o.strm o.index code).raiseFault k o.strm o.index code e true

/-! ### what runs on a DVU -/

/-- M and N of a matrix instruction. -/
def Outst.mn (o : Outst) : Nat × Nat := ((parseMx o.word).m, (parseMx o.word).n)

/-- The drain extent of an instruction: M and N, or none for a standalone chain. -/
def Outst.drain (o : Outst) : Option (Nat × Nat) := if o.isMx then some o.mn else none

/-- Rows that an instruction's chain processes. -/
def Outst.rows (o : Outst) : Nat := ((parseChain o.chain).dims o.drain).1

/-- PVU registers that a PV instruction names (R115). -/
def pvRegs (w : Nat) : List (Nat × Nat) :=
  let v := bits w 32 3
  let op := bits w 40 8
  let vd := (v, bits w 48 5)
  let va := (v, bits w 53 5)
  let vb := (v, bits w 58 5)
  if op = 0x61 then [va]
  else if op = 0x60 ∨ op = 0x62 then [vd]
  else if op = 0x63 ∨ op = 0x64 then [vd, va]
  else if op ≤ 0x2D ∧ isUnary op then [vd, va]
  else if bit w 63 then [vd, va]
  else [vd, va, vb]

/-- PVU registers that an instruction's chain names, KIND 4 streams included (R115, R216). -/
def Outst.chainRegs (o : Outst) : List (Nat × Nat) :=
  let c := parseChain o.chain
  let die := o.unit / 8
  c.regs die ++ ((c.streams o.drain).filter (fun d => d.kind == 4)).flatMap (fun d =>
    (List.range d.rows).map (fun m => (2 * die + bits d.addr 5 1, d.addr % 32 + m)))

/-- PVU registers that an instruction names (R115). -/
def Outst.names (o : Outst) : List (Nat × Nat) := if o.isPv then pvRegs o.word else if o.isMx || o.isVx then o.chainRegs else []

/-- Some register of `l` is named by an outstanding instruction of stake `k`, other than instruction `n`, that issued before place `turn`
(0: before now). Operations that name one register run one at a time, each whole, in the order of issue (R115). -/
def State.regsBusy (s : State) (k n turn : Nat) (l : List (Nat × Nat)) : Bool :=
  (s.q k).outst.any (fun p => p.seq != n && decide (0 < p.turn) && (decide (turn = 0) || decide (p.turn < turn)) &&
    p.names.any (fun r => l.contains r))

/-- A chain's first row waits for what issued before it on its registers. -/
def State.regsWait (s : State) (k : Nat) (o : Outst) : Bool := decide (o.run.row = 0) && s.regsBusy k o.seq o.turn o.chainRegs

/-! ### tile buffers (R92, R101) -/

/-- Tiles of 64 rows that an instruction with a QUAY destination has begun and whose slices have not all left. -/
def Outst.tiles (o : Outst) : Nat :=
  if (parseChain o.chain).dst.kind = 6 then ceilDiv o.run.row 64 - o.run.sent / o.mn.2 else 0

/-- Tile buffers 0 and 1 in use. DESIGN CHOICE (log 47), safe: a drain chain without a QUAY destination holds none, R101 being the one use
that the spec gives them. -/
def State.drainTiles (s : State) (k e : Nat) : Nat :=
  ((s.q k).outst.filter (fun o => o.isMx && o.unit == e && o.issued)).foldl (fun n o => n + o.tiles) 0

/-- A drain row waits for its destination: its tile needs a buffer, and both are in use. -/
def State.tileWait (s : State) (k e : Nat) (o : Outst) : Bool :=
  (parseChain o.chain).dst.kind == 6 && decide (o.run.row % 64 = 0) && decide (2 ≤ s.drainTiles k e)

/-! ### DVU_ROW, VX, VX_COMPLETE -/

/-- The row of a drain chain that is next on DVU `e`: the oldest issued instruction with rows left (R92). -/
def State.nextDrain (s : State) (k e : Nat) : Option Outst :=
  (s.q k).outst.find? (fun o => o.isMx && o.unit == e && o.issued && decide (o.run.row < o.rows))

/-- The standalone chain that is next on DVU `e`. -/
def State.nextVx (s : State) (k e : Nat) : Option Outst :=
  match (s.q k).outst.find? (fun o => o.isVx && o.unit == e) with
  | none => none
  | some o => if o.run.row < o.rows then some o else none

/-- The segments of a popped frame that row `m` reads and the row before it did not, where they are not in the pool (Table 6-3). -/
def State.directSegs (s : State) (k die : Nat) (o : Outst) (c : ChainD) (m : Nat) : Nat :=
  if c.src2.kind ≠ 5 then 0
  else match s.boundFrame die k o.frame with
    | none => 0
    | some f =>
      let len := if c.maskRow then ceilDiv c.src2.rows 8 else frameRow f.fmt c.src2.cols
      let segs := fun (i : Nat) =>
        let off := c.src2.addr % 2 ^ 63 + (if c.maskRow then 0 else i * c.src2.stride)
        (List.range ((off + len - 1) / 4096 - off / 4096 + 1)).map (fun j => (f.tag, f.start + off / 4096 + j))
      ((segs m).filter (fun p => !((s.as die k).pool.contains p) && (m == 0 || !((segs (m - 1)).contains p)))).length

/-- What the reads of a row find in the arrays: its streams, the pool, the drain buffer, the tile buffers and the PVU registers (R78,
R117). -/
def State.rowErrs (s : State) (k e : Nat) (o : Outst) (x : Errs) : State :=
  let die := e / 8
  let c := parseChain o.chain
  let pop := match (if c.src2.kind = 5 then s.boundFrame die k o.frame else none) with
    | none => []
    | some f => s.popSpan k die c f
  let s := s.readErrs (c.inputs o.drain ++ pop) x
  let s := match pop with
    | [] => s
    | p :: _ => s.poolErrs die k (p.1 / 4096 * 4096) x
  let s := ((s.addSat (R.mxeEcc e) F.mxeEccCorr x.buf).addSat (R.mxeEcc e) F.mxeEccUncorr x.unc).addSat (R.vecDvuEvt e) F.vecDvuEvtEccCorr x.tile
  match o.chainRegs with
  | [] => s
  | r :: _ => s.addSat (R.vecPvuErr r.1) F.vecPvuErrEccCorr x.reg

/-- Row `run.row` of an instruction passes its chain; the row counter advances (R92). An uncorrectable error of the drain buffer is
delivered as poison (MXE_ECC). -/
def State.oneRow (s : State) (k e : Nat) (o : Outst) (x : Errs) : State :=
  let c := parseChain o.chain
  let m := o.run.row
  let n := s.directSegs k (e / 8) o c m
  let s := (s.rowErrs k e o x).count (R.asuSCntFetch (e / 8) k) n
  let run0 : ChainRun := { o.run with poison := o.run.poison || decide (0 < x.unc) }
  let (s, run) :=
    if o.isMx then
      (if o.accInt ∧ c.nops = 0 ∧ c.dst.kind = 1 ∧ c.dst.fmt = 9 ∧ c.dst.mx = false then s.rawRow o c m run0
       else
        let xs := o.acc.getD m []
        s.runRow k e o c m (if o.accInt then xs.map (fun x => intTo32 (sint 32 x)) else xs) run0)
    else
      let (xs, run) := s.vxSource k (e / 8) o c m run0
      s.runRow k e o c m xs run
  (s.updOutst k o.seq (fun p => { p.issueAt (s.q k).nextTurn with run := run })).count (R.vecDvuCntRows e) 1

/-- A row of the standalone chain that is next on DVU `e`, if it may go: its first row issues the instruction (R92, R108). -/
def State.vxRow (s : State) (k e : Nat) (x : Errs) : State :=
  match s.nextVx k e with
  | none => s
  | some o => if s.regsWait k o || (!o.issued && s.noIssue k && !o.rerun) then s else s.oneRow k e o x

/-- DVU_ROW (R92): a drain row takes precedence over a standalone row; one that waits for its registers or for a tile buffer leaves the
cycle to the standalone row. `wait` is how many engine cycles the drain row waited, `away` how many ASU cycles its SRC2 row waited on a
segment outside the pool. -/
def State.dvuRow (s : State) (e wait away : Nat) (x : Errs) : State :=
  match s.engOwner e with
  | none => s
  | some k =>
    if s.failEng.testBit e then s
    else match s.nextDrain k e with
      | none => s.vxRow k e x
      | some o =>
        if s.regsWait k o || s.tileWait k e o then s.vxRow k e x
        else
          let n := s.directSegs k (e / 8) o (parseChain o.chain) o.run.row
          ((s.count (R.vecDvuCntWait e) wait).count (R.asuSCntWait (e / 8) k) (if n = 0 then 0 else away)).oneRow k e o x

/-- VEC_DVU_STATUS as a read shows it: tile buffers in use and what the next drain row waits for. DESIGN CHOICE (log 47), safe: a
standalone chain in progress holds one of tile buffers 2 and 3; a wait for registers shows as SRC2_WAIT. -/
def State.dvuView (s : State) (e : Nat) : Word :=
  let v := s.reg (R.vecDvuStatus e)
  match s.engOwner e with
  | none => v
  | some k =>
    let aux := (s.q k).outst.any (fun o => o.isVx && o.unit == e && o.issued)
    let v := (v.setFld F.vecDvuStatusDrainTiles (min 2 (s.drainTiles k e))).setFld F.vecDvuStatusAuxTiles (if aux then 1 else 0)
    match s.nextDrain k e with
    | none => v
    | some o =>
      (v.setFld F.vecDvuStatusSrc2Wait (if s.regsWait k o then 1 else 0)).setFld F.vecDvuStatusDstWait (if s.tileWait k e o then 1 else 0)

/-- A VX instruction's own word and descriptor checks, and its dispatch (R108, R118). -/
def State.vx (s : State) (k x : Nat) : State :=
  s.withHead k x [0x50] (fun w s =>
    let e := bits w 32 5
    let i := s.indexOf k x
    let rsv := decide (bits w 37 3 ≠ 0) || decide (bits w 56 72 ≠ 0)
    let fault := fun (c : Nat) => (s.dvuErr e k x i c).raiseFault k x i c e false
    if !((s.stake k).eng.testBit e) || s.engNone k e then s.raiseFault k x i 0x30 e false
    else match s.readChain e (bits w 40 16) with
      | none => fault (if rsv then 0x31 else 0x36)
      | some b =>
        let c := parseChain b
        if s.pvuBad k (e / 8) none c then s.raiseFault k x i 0x30 e false
        else if rsv then fault 0x31
        else match s.chainFault k x e (s.stake k).level none c with
          | some f => fault f
          | none =>
            let die := e / 8
            let fr := if c.src2.kind = 5 then (((s.as die k).popOf c.src2).map (frameId die)).getD 0 else 0
            let dest := if c.push.isSome then (((s.as die k).openOf x).map (frameId die)).getD 0 else 0
            let u := s.engFor k e
            let s := s.dispatchOut k x w u false [] b fr
            (s.updOutst k ((s.q k).seq - 1) (fun o => { o with pushTo := dest })).syncDvu k u)

/-- VX_COMPLETE (R108): every row has passed; outputs commit and the instruction posts. -/
def State.vxComplete (s : State) (e : Nat) : State :=
  match s.engOwner e with
  | none => s
  | some k => match (s.q k).outst.find? (fun o => o.isVx && o.unit == e) with
    | none => s
    | some o =>
      if ¬ o.issued ∨ o.run.row < o.rows then s
      else
        let s := (s.commitChain k e o (parseChain o.chain) none).complete k o
        let s := if o.run.overrun then s.dvuAfter k e o 0x3A else s
        (if o.run.poison then s.dvuAfter k e o 0x3B else s).syncDvu k e

/-- DVU_ROW. -/
def execDvuRow (e : Fin 32) (wait away : Nat) (errs : Errs) (s : State) : Host.Outcome State Fault Refusal :=
  .next (s.dvuRow e wait away errs)

/-- VX. -/
def execVx (k : Fin 16) (x : Strm) (s : State) : Host.Outcome State Fault Refusal := .next (s.vx k x.num)

/-- VX_COMPLETE. -/
def execVxComplete (e : Fin 32) (s : State) : Host.Outcome State Fault Refusal := .next (s.vxComplete e)

end Sys2Proof.Machine
end

