-- ==== Sys2Proof/Machine/Mxe.lean ====
section
/-! DEFINITION. Matrix engines: dispatch checks of MXF, MXB and MXW, issue with the exact products, completion (R63-R83). -/

namespace Sys2Proof.Machine

/-! ### classes and extents (R63, R68, R72) -/

/-- Width class of an operand: 4, 8, 16 or 32 bits; N12 counts as 16 (R3, R47). -/
def Fmt.cls (f : Fmt) : Nat := if f.width ≤ 4 then 4 else if f.width ≤ 8 then 8 else if f.width ≤ 16 then 16 else 32

/-- KB and c of a pairing (Table 3-1). -/
def classOf (a b : Fmt) : Nat × Nat :=
  match max a.cls b.cls with
  | 4 => (512, 1)
  | 8 => (256, 1)
  | 16 => (256, 2)
  | _ => (256, 8)

/-- MXW transposes the streamed operand (Table 3-2). -/
def MxW.xT (w : MxW) : Bool := w.opc == 0x42

/-- MXB and MXW transpose the latched operand (Table 3-2). -/
def MxW.wT (w : MxW) : Bool := w.opc != 0x40

/-- Stored rows and elements per stored row of an operand with `r` rows along the result and K along the product. -/
def stored (t : Bool) (r kk : Nat) : Nat × Nat := if t then (kk, r) else (r, kk)

/-- Scale bytes per operand row (R68). -/
def MxW.scaleRow (w : MxW) : Nat := ceilDiv w.k 32

/-- Feeder footprint F (R72). -/
def footprint (w : MxW) (d : MxD) (fx : Fmt) : Nat :=
  w.m * rowBytes fx.width w.k + (if w.mx then w.m * w.k / 32 else 0) + (if d.xrow = 0 then 0 else 4 * w.m)

/-- The bounding intervals of an instruction's inputs (R79). -/
def mxInputs (w : MxW) (d : MxD) (fx fw : Fmt) : List (Nat × Nat) :=
  let (xr, xc) := stored w.xT w.m w.k
  let (wr, wc) := stored w.wT w.n w.k
  [(d.xaddr, d.xaddr + (xr - 1) * d.xstr + rowBytes fx.width xc), (d.waddr, d.waddr + (wr - 1) * d.wstr + rowBytes fw.width wc)] ++
    (if w.mx then [(d.xs, d.xs + w.m * w.scaleRow), (d.ws, d.ws + w.n * w.scaleRow)] else []) ++
    (if d.xrow = 0 then [] else [(d.xrow, d.xrow + 4 * w.m)]) ++ (if d.wrow = 0 then [] else [(d.wrow, d.wrow + 4 * w.n)]) ++
    (if w.accin then [(d.acc, d.acc + (w.m - 1) * d.accstr + 4 * w.n)] else [])

/-! ### checks (R83) -/

/-- MX_DESC conditions of a descriptor that was read (Table 3-10). A scale address is zero exactly where SCM has no MX32. -/
def MxD.bad (d : MxD) (w : MxW) (level : Nat) : Bool :=
  decide (d.level ≠ level) || decide (d.rsv ≠ 0) || (decide (d.xs ≠ 0) != w.mx) || (decide (d.ws ≠ 0) != w.mx) ||
    (!(w.row) && (decide (d.xrow ≠ 0) || decide (d.wrow ≠ 0)))

/-- MX_ALIGN conditions (Table 3-4). DESIGN CHOICE (log 46), unsafe: ACCADDR and ACCSTRIDE are checked where ACCIN = 1 only, the
instruction reading them nowhere else. -/
def MxD.alignBad (d : MxD) (w : MxW) : Bool :=
  [d.xaddr, d.waddr, d.xstr, d.wstr, d.xrow, d.wrow].any (fun a => decide (a % 64 ≠ 0)) ||
    (w.accin && (decide (d.acc % 64 ≠ 0) || decide (d.accstr % 64 ≠ 0) || decide (d.accstr < 4 * w.n)))

/-- [a, a + n) is in the map and in no other stake's scratchpad (Table 3-10, MX_ADDR). DESIGN CHOICE (log 46), unsafe: register space,
which Table 10-6 also lists, holds no operands and raises MX_ADDR. -/
def State.mxIn (s : State) (k a n : Nat) : Bool := inMap a n && (!(isSpadStride a) || s.inSpadOf k a n)

/-- `r` rows of `n` bytes at a stride, each accepted. -/
def State.mxRows (s : State) (k a str r n : Nat) : Bool := (List.range r).all (fun i => s.mxIn k (a + i * str) n)

/-- MX_ADDR conditions. -/
def State.mxAddrBad (s : State) (k : Nat) (w : MxW) (d : MxD) (fx fw : Fmt) : Bool :=
  let (xr, xc) := stored w.xT w.m w.k
  let (wr, wc) := stored w.wT w.n w.k
  !(s.mxRows k d.xaddr d.xstr xr (rowBytes fx.width xc)) || !(s.mxRows k d.waddr d.wstr wr (rowBytes fw.width wc)) ||
    (w.mx && (!(s.mxIn k d.xs (w.m * w.scaleRow)) || !(s.mxIn k d.ws (w.n * w.scaleRow)))) ||
    (decide (d.xrow ≠ 0) && !(s.mxIn k d.xrow (4 * w.m))) || (decide (d.wrow ≠ 0) && !(s.mxIn k d.wrow (4 * w.n))) ||
    (w.accin && !(s.mxRows k d.acc d.accstr w.m (4 * w.n)))

/-- MXE_ERR records a fault (R83). -/
def State.mxeErr (s : State) (e x index code : Nat) : State :=
  let w : Word := (0 : Word)
  let w := ((w.setFld F.mxeErrCode code).setFld F.mxeErrStream x).setFld F.mxeErrIndex (index % 2 ^ 32)
  s.setReg (R.mxeErr e) w

/-- The matrix descriptor `i` of engine `e`, where the index and the read are good (R67, R412). -/
def State.readMx (s : State) (e i : Nat) : Option (List Byte) :=
  let a := s.fld (R.mxeDtbl e) F.mxeDtblBase * 4096 + 128 * i
  if s.fld (R.mxeDtblLen e) F.mxeDtblLenEntries ≤ i ∨ s.unreadWord a 128 then none else some (s.bytes a 128)

/-- A matrix instruction's fault: by code, where it is recorded beside the fault record. -/
def State.mxFault (s : State) (k x e code : Nat) : State :=
  let i := s.indexOf k x
  let s := if code = 0x20 ∨ code = 0x21 ∨ code = 0x30 then s
    else if 0x20 ≤ code ∧ code < 0x30 then s.mxeErr e x i code else s.dvuErr e k x i code
  s.raiseFault k x i code e false

/-- The faults of a matrix instruction after MX_ENGINE, in the order of R83; `none` and the copies where it has none. -/
def State.mxCheck (s : State) (k x wd : Nat) : Nat × List Byte × List Byte :=
  let w := parseMx wd
  match Fmt.ofCode w.fmtx, Fmt.ofCode w.fmtw with
  | some fx, some fw =>
    if !(fx.matrixOperand) || !(fw.matrixOperand) || !(mayPair fx fw w.mx) then (0x22, [], [])
    else if w.mx && decide (w.k % 32 ≠ 0) then (0x23, [], [])
    else match s.readMx w.eng w.desc with
      | none => (0x27, [], [])
      | some b =>
        let d := parseMxD b
        if d.bad w (s.stake k).level then (0x27, [], [])
        else if d.alignBad w then (0x25, [], [])
        else if s.mxAddrBad k w d fx fw then (0x28, [], [])
        else if 524288 < footprint w d fx then (0x24, [], [])
        else match s.readChain w.eng d.drain with
          | none => (0x36, [], [])
          | some cb =>
            let c := parseChain cb
            if s.pvuBad k (w.eng / 8) (some (w.m, w.n)) c then (0x30, [], [])
            else match s.chainFault k x w.eng (s.stake k).level (some (w.m, w.n)) c with
              | some f => (f, [], [])
              | none =>
                if anyOverlap (c.outputs (some (w.m, w.n)) (groupSize (s.stake k).master12)) (mxInputs w d fx fw) then (0x26, [], [])
                else (0, b, cb)
  | _, _ => (0x22, [], [])

/-- A matrix instruction dispatches: its engine reads the descriptors (R67, R73, R93). -/
def State.mxDispatch (s : State) (k x opc : Nat) : State :=
  s.withHead k x [opc] (fun wd s =>
    let w := parseMx wd
    if w.rsv then s.mxFault k x w.eng 0x20
    else if !((s.stake k).eng.testBit w.eng) then s.mxFault k x w.eng 0x21
    else if s.engNone k w.eng then s.mxFault k x w.eng 0x30
    else
      let (f, b, cb) := s.mxCheck k x wd
      if f ≠ 0 then s.mxFault k x w.eng f
      else
        let c := parseChain cb
        let die := w.eng / 8
        let fr := if c.src2.kind = 5 then (((s.as die k).popOf c.src2).map (frameId die)).getD 0 else 0
        let dest := if c.push.isSome then (((s.as die k).openOf x).map (frameId die)).getD 0 else 0
        let u := s.engFor k w.eng
        let s := s.dispatchOut k x wd u false b cb fr
        ((s.updOutst k ((s.q k).seq - 1) (fun o => { o with pushTo := dest })).syncMxe k u).syncDvu k u)

/-! ### the products (R45-R55, R68) -/

/-- Element (r, k) of an operand (R68). -/
def State.mxElem (s : State) (f : Fmt) (t : Bool) (a str r kk : Nat) : Nat :=
  if t then s.elem (a + kk * str) f.width r else s.elem (a + r * str) f.width kk

/-- Row r of an operand along K: exact values, MX32 scales included (R48). -/
def State.mxVals (s : State) (w : MxW) (f : Fmt) (t : Bool) (a str sc r : Nat) : List Val :=
  (List.range w.k).map (fun i =>
    let v := decodeElem f w.mx (s.mxElem f t a str r i)
    if w.mx then scaled v (mxScale (s.byte (sc + r * w.scaleRow + i / 32)).toNat) else v)

/-- Row r of an integer operand along K. -/
def State.mxInts (s : State) (w : MxW) (f : Fmt) (t : Bool) (a str r : Nat) : List Int :=
  (List.range w.k).map (fun i =>
    let x := s.mxElem f t a str r i
    if f = .uint8 then ((x % 256 : Nat) : Int) else sint f.width x)

/-- Element `i` of a ROW vector; 1.0 where the vector is omitted (R45). -/
def State.rowVec (s : State) (a i : Nat) : Nat := if a = 0 then one32 else s.num (a + 4 * i) 4

/-- The result rows of an instruction, and whether they are integers (R45, R54, R55). -/
def State.mxCompute (s : State) (w : MxW) (d : MxD) (fx fw : Fmt) : List (List Nat) × Bool :=
  let ints := intPair fx fw w.mx
  let acc := fun (m n : Nat) => if w.accin then s.num (d.acc + m * d.accstr + 4 * n) 4 else 0
  let scale := fun (m n a : Nat) => if w.row then rowScale a (s.rowVec d.xrow m) (s.rowVec d.wrow n) else a
  if ints then
    let ws := (List.range w.n).map (fun n => s.mxInts w fw w.wT d.waddr d.wstr n)
    ((List.range w.m).map (fun m =>
      let xs := s.mxInts w fx w.xT d.xaddr d.xstr m
      (List.range w.n).map (fun n =>
        let r := dotInt w.sat (sint 32 (acc m n)) xs (ws.getD n [])
        if w.row then scale m n (intTo32 r) else ofSint 32 r)), !w.row)
  else
    let ws := (List.range w.n).map (fun n => s.mxVals w fw w.wT d.waddr d.wstr d.ws n)
    ((List.range w.m).map (fun m =>
      let xs := s.mxVals w fx w.xT d.xaddr d.xstr d.xs m
      (List.range w.n).map (fun n => scale m n (dotFloat (if w.mx then 32 else 256) (acc m n) xs (ws.getD n [])))), false)

/-- FEEDER rows: the streamed elements of the last latch block, +0 from K on (Table 4-1). DESIGN CHOICE (log 46), unsafe: an element of an
MX32 operand carries its scale (R46). -/
def State.mxFeed (s : State) (w : MxW) (d : MxD) (fx fw : Fmt) : List (List Nat) :=
  let kb := (classOf fx fw).1
  let k0 := kb * (ceilDiv w.k kb - 1)
  (List.range w.m).map (fun m =>
    let vs := s.mxVals w fx w.xT d.xaddr d.xstr d.xs m
    (List.range 256).map (fun n => if w.k ≤ k0 + n then 0 else rne32 (vs.getD (k0 + n) .zero)))

/-- An input of the instruction returns poison or an error response (Table 3-7). -/
def State.mxPoisoned (s : State) (w : MxW) (d : MxD) (fx fw : Fmt) : Bool :=
  let (xr, xc) := stored w.xT w.m w.k
  let (wr, wc) := stored w.wT w.n w.k
  (List.range xr).any (fun i => s.unreadWord (d.xaddr + i * d.xstr) (rowBytes fx.width xc)) ||
    (List.range wr).any (fun i => s.unreadWord (d.waddr + i * d.wstr) (rowBytes fw.width wc)) ||
    (w.mx && (s.unreadWord d.xs (w.m * w.scaleRow) || s.unreadWord d.ws (w.n * w.scaleRow))) ||
    (decide (d.xrow ≠ 0) && s.unreadWord d.xrow (4 * w.m)) || (decide (d.wrow ≠ 0) && s.unreadWord d.wrow (4 * w.n)) ||
    (w.accin && (List.range w.m).any (fun i => s.unreadWord (d.acc + i * d.accstr) (4 * w.n)))

/-! ### issue (R73, R174, R175) -/

/-- Rows and bytes that a QUAY destination covers (R175). -/
def quayConflict (rs : Nat) (a : ChainD × Nat × Nat) (b : ChainD × Nat × Nat) : Bool :=
  let (ca, ma, na) := a
  let (cb, mb, nb) := b
  if ca.dst.stride = cb.dst.stride ∧ ca.dst.stride ≠ 0 then
    let st := ca.dst.stride
    overlap (ca.dst.addr / st, ca.dst.addr / st + na) (cb.dst.addr / st, cb.dst.addr / st + nb) &&
      overlap (ca.dst.addr % st, ca.dst.addr % st + rs * ma) (cb.dst.addr % st, cb.dst.addr % st + rs * mb)
  else anyOverlap (ca.quaySpan (rs * 64) ma na) (cb.quaySpan (rs * 64) mb nb)

/-- An earlier instruction of the stake with a conflicting QUAY destination is outstanding (R174, R175). -/
def State.quayBlocked (s : State) (k : Nat) (o : Outst) : Bool :=
  let c := parseChain o.chain
  c.dst.kind == 6 && (s.q k).outst.any (fun p =>
    p.isMx && decide (p.seq < o.seq) && (parseChain p.chain).dst.kind == 6 &&
      quayConflict (recSize (s.stake k).master12) (c, o.mn.1, o.mn.2) (parseChain p.chain, p.mn.1, p.mn.2))

/-- The record address of a slice: tile `t`, lane `n` (R101). -/
def sliceAddr (m12 : Bool) (c : ChainD) (n t : Nat) : Nat := c.dst.addr + n * c.dst.stride + recSize m12 * 64 * t

/-- The quay units that an instruction with a QUAY destination addresses, and slices for each, ascending. -/
def State.quayShares (s : State) (k : Nat) (o : Outst) : List (Nat × Nat) :=
  let c := parseChain o.chain
  let (m, n) := o.mn
  let m12 := (s.stake k).master12
  let us := (List.range (m / 64)).flatMap (fun t => (List.range n).map (fun l => octetOf (sliceAddr m12 c l t)))
  (List.range 16).filterMap (fun q =>
    let cnt := (us.filter (fun u => u == q)).length
    if cnt = 0 then none else some (q, cnt))

/-- Shares with the mirror copies that partners hold (R174): what each quay unit reserves, ascending. -/
def State.quayNeeds (s : State) (k : Nat) (o : Outst) : List (Nat × Nat) :=
  let sh := s.quayShares k o
  (List.range 16).filterMap (fun q =>
    let cnt := ((sh.filter (fun p => p.1 == q || p.1 == (q ^^^ 1))).map (fun p => p.2)).foldl (· + ·) 0
    if cnt = 0 then none else some (q, cnt))

/-- An instruction holds its reservation on a quay unit. -/
def State.reserved (s : State) (k : Nat) (o : Outst) (q : Nat) : Bool :=
  (s.qu q).resv.any (fun r => r.stake == k && r.seq == o.seq)

/-- Every reservation that an instruction needs is held. -/
def State.quayReady (s : State) (k : Nat) (o : Outst) : Bool :=
  (parseChain o.chain).dst.kind != 6 || ((s.quayNeeds k o).all (fun p => s.reserved k o p.1) && !(s.quayBlocked k o))

/-- Instructions that have issued on an engine and whose chain has rows left: their drain regions are not free (R77). -/
def State.draining (s : State) (k e : Nat) : List Outst :=
  (s.q k).outst.filter (fun p => p.isMx && p.unit == e && p.issued && decide (p.run.row < p.rows))

/-- The drain buffer of 1,024 rows has a free region for an instruction's rows (R73 condition 4, R77). -/
def State.drainRoom (s : State) (k e : Nat) (o : Outst) : Bool :=
  decide ((s.draining k e).foldl (fun n p => n + p.mn.1) 0 + o.mn.1 ≤ 1024)

/-- The part of an instruction's footprint that its last latch block uses, sx with it (R77). -/
def lastPart (w : MxW) (d : MxD) (fx fw : Fmt) : Nat :=
  let kb := (classOf fx fw).1
  let kl := w.k - kb * (ceilDiv w.k kb - 1)
  w.m * rowBytes fx.width kl + (if w.mx then w.m * kl / 32 else 0) + (if d.xrow = 0 then 0 else 4 * w.m)

/-- The formats of a matrix instruction. -/
def MxW.fx (w : MxW) : Fmt := (Fmt.ofCode w.fmtx).getD .fp32

/-- The latched operand's. -/
def MxW.fw (w : MxW) : Fmt := (Fmt.ofCode w.fmtw).getD .fp32

/-- The feeder buffer of 524,288 bytes holds an instruction whole beside what the last block of the one before it still uses, unless
that block has been released (R73 condition 3, R77). -/
def State.feederRoom (s : State) (k e : Nat) (o : Outst) (released : Bool) : Bool :=
  let w := parseMx o.word
  released || (match (s.draining k e).getLast? with
    | none => true
    | some a =>
      let v := parseMx a.word
      decide (footprint w (parseMxD o.desc) w.fx ≤ 524288 - lastPart v (parseMxD a.desc) v.fx v.fw))

/-- The next matrix instruction to issue on an engine. -/
def State.nextMx (s : State) (k e : Nat) : Option Outst := (s.q k).outst.find? (fun o => o.isMx && o.unit == e && !o.issued)

/-- Errors met while an instruction's inputs are fetched and its buffers read: in its input intervals, and in the engine's feeder, latch
and drain buffer (R78, R82). -/
def State.mxErrs (s : State) (e : Nat) (w : MxW) (d : MxD) (x : Errs) : State :=
  (((s.readErrs (mxInputs w d w.fx w.fw) x).addSat (R.mxeEcc e) F.mxeEccCorr x.buf).addSat (R.mxeEcc e) F.mxeEccUncorr x.unc)

/-- An issued instruction's results are computed and its issue is counted (R73, R78). `latch`, `feed`, `drain` and `token` are the engine
cycles that MXE_CNT_LATCH, FEED, DRAIN and TOKEN count for it. -/
def State.mxRun (s : State) (k e : Nat) (o : Outst) (latch feed drain token : Nat) (x : Errs) : State :=
  let w := parseMx o.word
  let d := parseMxD o.desc
  let s := s.mxErrs e w d x
  let (acc, ints) := s.mxCompute w d w.fx w.fw
  let feedRows := if (parseChain o.chain).src2.kind = 3 then s.mxFeed w d w.fx w.fw else []
  let bad := s.mxPoisoned w d w.fx w.fw || decide (0 < x.unc)
  let (kb, c) := classOf w.fx w.fw
  let s := s.updOutst k o.seq (fun p => { p.issueAt (s.q k).nextTurn with
    acc := acc, accInt := ints, feed := feedRows, prog := if bad then 1 else 0, run := { p.run with poison := bad } })
  let s := ((s.count (R.mxeCntIssue e) 1).count (R.mxeCntStream e) (ceilDiv w.k kb * w.m * c)).count (R.mxeCntLatch e) latch
  let s := ((s.count (R.mxeCntFeed e) feed).count (R.mxeCntDrain e) drain).count (R.mxeCntToken e) token
  let total := KMap.get s.macs 0 e + w.n * w.k * w.m
  let s := { s with macs := KMap.set s.macs 0 e total }
  (s.setReg (R.mxeCntMacs e) (BitVec.ofNat 64 (total / 65536))).syncMxe k e

/-- MX_ISSUE (R73): the engine's oldest prepared instruction issues once its wait tokens are taken (at dispatch), its feeder and drain
regions are free and its reservations are held. DESIGN CHOICE (log 46), safe: the loads of the shadow half and of the feeder are done
when the command comes; `released` says that the last block of the instruction before it has been released. -/
def State.mxIssue (s : State) (e latch feed drain token : Nat) (released : Bool) (x : Errs) : State :=
  match s.engOwner e with
  | none => s
  | some k => match s.nextMx k e with
    | none => s
    | some o =>
      if (s.noIssue k && !o.rerun) || s.failEng.testBit e || !(s.drainRoom k e o) || !(s.feederRoom k e o released) || !(s.quayReady k o) then s
      else s.mxRun k e o latch feed drain token x

/-! ### completion (R75, R101, R176) -/

/-- Slices of an instruction that have left its DVU. -/
def Outst.slicesDone (o : Outst) : Bool := (parseChain o.chain).dst.kind != 6 || decide (o.run.sent = o.mn.2 * (o.mn.1 / 64))

/-- Every staged slice of an instruction is marked poisoned (Table 4-11). -/
def State.poisonSlices (s : State) (k n : Nat) : State :=
  let mark := fun (v : Slice) => if v.stake = k ∧ v.seq = n then { v with poison := true } else v
  { s with quay := s.quay.map (fun p => (p.1, { p.2 with staged := p.2.staged.map mark, mirror := p.2.mirror.map mark })) }

/-- MX_COMPLETE (R75): the oldest issued instruction whose last row and slice have left; outputs commit, fold triggers reach every
addressed quay unit, and it posts. -/
def State.mxComplete (s : State) (e : Nat) : State :=
  match s.engOwner e with
  | none => s
  | some k => match (s.q k).outst.find? (fun o => o.isMx && o.unit == e && o.issued) with
    | none => s
    | some o =>
      if o.run.row < o.rows ∨ ¬ o.slicesDone then s
      else
        let c := parseChain o.chain
        let s := s.commitChain k e o c (some o.mn)
        let s := if o.run.poison then s.poisonSlices k o.seq else s
        let s := if c.dst.kind = 6 then s.forAll ((s.quayShares k o).map (fun p => p.1)) (fun s q =>
            s.setQu q { s.qu q with trig := (s.qu q).trig ++ [.fold k o.seq] }) else s
        let s := s.complete k o
        let s := if o.prog = 1 then (s.mxeErr e o.strm o.index 0x2A).raiseFault k o.strm o.index 0x2A e true
          else if o.run.poison then s.dvuAfter k e o 0x3B else s
        (s.syncMxe k e).syncDvu k e

/-- MXF (R64). -/
def execMxf (k : Fin 16) (x : Strm) (s : State) : Host.Outcome State Fault Refusal := .next (s.mxDispatch k x.num 0x40)

/-- MXB (R64). -/
def execMxb (k : Fin 16) (x : Strm) (s : State) : Host.Outcome State Fault Refusal := .next (s.mxDispatch k x.num 0x41)

/-- MXW (R64). -/
def execMxw (k : Fin 16) (x : Strm) (s : State) : Host.Outcome State Fault Refusal := .next (s.mxDispatch k x.num 0x42)

/-- MX_ISSUE. -/
def execMxIssue (e : Fin 32) (latch feed drain token : Nat) (released : Bool) (errs : Errs) (s : State) : Host.Outcome State Fault Refusal :=
  .next (s.mxIssue e latch feed drain token released errs)

/-- MX_COMPLETE. -/
def execMxComplete (e : Fin 32) (s : State) : Host.Outcome State Fault Refusal := .next (s.mxComplete e)

end Sys2Proof.Machine
end

