-- ==== Sys2Proof/Machine/Quay.lean ====
section
/-! DEFINITION. Quay units: record groups, staging, folds, updates, working copies, quay instructions and far atomics
(R168-R191). -/

namespace Sys2Proof.Machine

/-! ### atomic operations (Table 7-6) -/

/-- The value that an atomic writes, from the old value and its operands, at a width of `n` bytes; FP32 at 4 bytes. CAS
compares with `a` and stores `b`. -/
def atomicNew (op : AtomOp) (n old a b : Nat) : Nat :=
  let w := 8 * n
  let lo := fun (x : Nat) => x % 2 ^ w
  match op with
  | .add => lo (old + a)
  | .addF => add32 old (lo a)
  | .minS => if sint w old ≤ sint w a then lo old else lo a
  | .maxS => if sint w a ≤ sint w old then lo old else lo a
  | .minU => min (lo old) (lo a)
  | .maxU => max (lo old) (lo a)
  | .minF => min32 old (lo a)
  | .maxF => max32 old (lo a)
  | .and => lo old &&& lo a
  | .or => lo old ||| lo a
  | .xor => lo old ^^^ lo a
  | .swap => lo a
  | .cas => if lo old = lo a then lo b else lo old

/-! ### jobs and tensors -/

/-- A reduction job dispatched and not closed. -/
def State.job (s : State) (j : Nat) : Option Job := KMap.find s.jobs j

/-- The state with job `j`. -/
def State.setJob (s : State) (j : Nat) (v : Job) : State := { s with jobs := KMap.put s.jobs j v }

/-- A tensor's records, or a range of a job: base, stride, rows and bytes of a row (R171, Table 8-3). -/
structure Tensor where
  base   : Nat
  stride : Nat
  rows   : Nat
  bytes  : Nat
  deriving DecidableEq, Repr

/-- The last row of the tensor that begins at or before `a`. -/
def Tensor.rowOf (t : Tensor) (a : Nat) : Nat := min ((a - t.base) / t.stride) (t.rows - 1)

/-- Byte `a` belongs to the tensor. -/
def Tensor.holds (t : Tensor) (a : Nat) : Bool :=
  decide (0 < t.rows) && decide (t.base ≤ a) && decide (a - t.base - t.rowOf a * t.stride < t.bytes)

/-- A group of the tensor, of `g` bytes, begins at `a`. -/
def Tensor.isGroup (t : Tensor) (g a : Nat) : Bool := t.holds a && (a - t.base - t.rowOf a * t.stride) % g == 0

/-- A row of the tensor meets [x, x + n): of the rows that begin before its end, the last reaches furthest. -/
def Tensor.meetsSpan (t : Tensor) (x n : Nat) : Bool :=
  decide (0 < n) && decide (0 < t.rows) && decide (0 < t.bytes) && decide (t.base < x + n) &&
    decide (x < t.base + t.rowOf (x + n - 1) * t.stride + t.bytes)

/-- Tensors that share a record. -/
def Tensor.meets (a b : Tensor) : Bool := (List.range a.rows).any (fun n => b.meetsSpan (a.base + n * a.stride) a.bytes)

/-- Every record of `a` is a record of `b`, group by group of `g` bytes (R203 item 6). -/
def Tensor.within (g : Nat) (a b : Tensor) : Bool :=
  (List.range a.rows).all (fun n => (List.range (a.bytes / g)).all (fun c => b.isGroup g (a.base + n * a.stride + c * g)))

/-- One group, or one line, as a tensor. -/
def Tensor.single (a n : Nat) : Tensor := ⟨a, n, 1, n⟩

/-- Every record of the tensor lies in the stake's HBM channels. -/
def State.tensorIn (s : State) (k : Nat) (t : Tensor) : Bool :=
  (List.range t.rows).all (fun n => s.inHbmOf k (t.base + n * t.stride) t.bytes)

/-- The octets that hold groups of a tensor, ascending (R169). -/
def Tensor.units (t : Tensor) (g : Nat) : List Nat :=
  let us := (List.range t.rows).flatMap (fun n => [octetOf (t.base + n * t.stride), octetOf (t.base + n * t.stride + t.bytes - g)])
  (List.range 16).filter (fun q => us.contains q)

/-- The ranges of a job descriptor (Table 8-3), at group size `g`. -/
def jobRanges (g : Nat) (b : List Byte) : List Tensor :=
  (List.range (numAt b 3 1)).map (fun i =>
    let o := 0x20 + 24 * i
    ⟨numAt b o 8, numAt b (o + 8) 8, numAt b (o + 16) 4, numAt b (o + 20) 4 / 64 * g⟩)

/-- The groups of a job's ranges, in job order (R204). -/
def jobGroups (g : Nat) (b : List Byte) : List Nat :=
  (jobRanges g b).flatMap (fun t => (List.range t.rows).flatMap (fun n =>
    (List.range (t.bytes / g)).map (fun c => t.base + n * t.stride + c * g)))

/-- The group size of a stake. -/
def State.gsize (s : State) (k : Nat) : Nat := groupSize (s.stake k).master12

/-- The quay unit that does the work of unit `q`: itself, or the partner that covers it (R189). -/
def State.quayBy (s : State) (q : Nat) : Nat := if s.failQuay.testBit q then q ^^^ 1 else q

/-- The quay unit that serves the channels of an address (R169, R189). -/
def State.quayFor (s : State) (a : Nat) : Nat := s.quayBy (octetOf a)

/-! ### quay descriptors (R186, Table 7-5) -/

/-- A quay descriptor. -/
structure QuayD where
  level   : Nat
  opt     : Nat
  wfmt    : Nat
  wmode   : Nat
  slot    : Nat
  mplen   : Nat
  rsv     : Nat
  rows    : Nat
  cols    : Nat
  rbase   : Nat
  rstride : Nat
  wbase   : Nat
  wstride : Nat
  ctx     : Nat
  wsaddr  : Nat
  mpaddr  : Nat
  gscale  : Nat
  p       : List Nat
  deriving DecidableEq, Repr

/-- A quay descriptor from its 128 bytes. -/
def parseQuay (b : List Byte) : QuayD :=
  { level := numAt b 0 1, opt := numAt b 1 1, wfmt := numAt b 2 1, wmode := numAt b 3 1, slot := numAt b 4 1, mplen := numAt b 5 1
    rsv := numAt b 6 2 + numAt b 0x44 4 + numAt b 0x78 8, rows := numAt b 8 4, cols := numAt b 12 4, rbase := numAt b 0x10 8
    rstride := numAt b 0x18 8, wbase := numAt b 0x20 8, wstride := numAt b 0x28 4, ctx := numAt b 0x2C 4
    wsaddr := numAt b 0x30 8, mpaddr := numAt b 0x38 8, gscale := numAt b 0x40 4
    p := (List.range 12).map (fun i => numAt b (0x48 + 4 * i) 4) }

def QuayD.wscm (d : QuayD) : Nat := d.wmode % 4
def QuayD.wrnd (d : QuayD) : Nat := bits d.wmode 2 2
def QuayD.mrnd (d : QuayD) : Nat := bits d.wmode 4 2

/-- The tensor of a descriptor at group size `g`. -/
def QuayD.tensor (d : QuayD) (g : Nat) : Tensor := ⟨d.rbase, d.rstride, d.rows, d.cols / 64 * g⟩

/-- QY_DESC conditions of a descriptor that was read (R187). -/
def QuayD.descBad (d : QuayD) (level : Nat) : Bool :=
  decide (d.level ≠ level) || decide (3 < d.opt) || decide (31 < d.wfmt) || decide (63 < d.wmode) || d.wscm == 3 ||
    decide (63 < d.slot) || (if d.opt = 3 then d.mplen == 0 || decide (64 < d.mplen) else decide (d.mplen ≠ 0)) ||
    decide (d.rsv ≠ 0) || d.rows == 0 || decide (1048576 < d.rows) || d.cols == 0 || decide (1048576 < d.cols) ||
    decide (d.cols % 64 ≠ 0) || (d.wscm == 0 && decide (d.wsaddr ≠ 0)) || (decide (d.opt ≠ 3) && decide (d.mpaddr ≠ 0))

/-- QY_ALIGN conditions. -/
def QuayD.alignBad (d : QuayD) (daddr g : Nat) : Bool :=
  decide (daddr % 64 ≠ 0) || decide (d.rbase % 256 ≠ 0) || decide (d.rstride % g ≠ 0) ||
    [d.wbase, d.wstride, d.wsaddr, d.mpaddr].any (fun a => decide (a % 64 ≠ 0))

/-- QY_FORMAT conditions. -/
def QuayD.formatBad (d : QuayD) : Bool :=
  (match Fmt.ofCode d.wfmt with
    | none => true
    | some f => !f.working || (d.wscm == 2 && !f.mx)) || d.wrnd == 3 || d.mrnd == 3

/-- The width of the working format. -/
def QuayD.wwidth (d : QuayD) : Nat := match Fmt.ofCode d.wfmt with | some f => f.width | none => 0

/-- QY_ADDR conditions. -/
def State.quayAddrBad (s : State) (k : Nat) (d : QuayD) : Bool :=
  !(s.tensorIn k (d.tensor (s.gsize k))) ||
    !((List.range d.rows).all (fun n => s.inStake k (d.wbase + n * d.wstride) (rowBytes d.wwidth d.cols))) ||
    (d.wscm == 1 && !(s.inStake k d.wsaddr (4 * d.rows))) ||
    (d.wscm == 2 && !(s.inStake k d.wsaddr (d.rows * (d.cols / 32)))) ||
    (d.opt == 3 && !(s.inStake k d.mpaddr (4 * d.mplen)))

/-- A microprogram word breaks R181. -/
def microBad (w : Nat) : Bool :=
  let op := w % 256
  let d := bits w 8 5
  decide (0x12 < op) || decide (bits w 28 4 ≠ 0) || (decide (op ≠ 0) && decide (4 ≤ d) && decide (d ≤ 15)) ||
    [d, bits w 13 5, bits w 18 5, bits w 23 5].any (fun r => decide (23 < r))

/-- The words of a microprogram copy. -/
def microWords (b : List Byte) : List Nat := (List.range (b.length / 4)).map (fun i => numAt b (4 * i) 4)

/-! ### updates (R178-R182) -/

/-- One microprogram operation on a lane's registers. -/
def microStep (l : List Nat) (w : Nat) : List Nat :=
  let a := l.getD (bits w 13 5) 0
  let b := l.getD (bits w 18 5) 0
  let c := l.getD (bits w 23 5) 0
  let r := match w % 256 with
    | 0x01 => add32 a b
    | 0x02 => sub32 a b
    | 0x03 => mul32 a b
    | 0x04 => div32 a b
    | 0x05 => rne32 (Val.add (Val.mul (val32 a) (val32 b)) (val32 c))
    | 0x06 => max32 a b
    | 0x07 => min32 a b
    | 0x08 => unary32 0x10 a
    | 0x09 => unary32 0x11 a
    | 0x0A => sqrt32 a
    | 0x0B => unary32 0x14 a
    | 0x0C => unary32 0x15 a
    | 0x0D => unary32 0x12 a
    | 0x0E => unary32 0x13 a
    | 0x0F => if isNaN32 a then nan32 else if a % 2 ^ 31 = 0 then 0 else if a.testBit 31 then 0xBF800000 else one32
    | 0x10 => if gt32 a b then one32 else 0
    | 0x11 => if c % 2 ^ 31 ≠ 0 then a else b
    | _ => a
  setAt l (bits w 8 5) r

/-- A lane's program up to END: w, m and v. -/
def microRun (ws p : List Nat) (g w m v : Nat) : Nat × Nat × Nat :=
  let l := (ws.takeWhile (fun x => x % 256 != 0)).foldl microStep ([g, w, m, v] ++ p ++ List.replicate 8 0)
  (l.getD 1 0, l.getD 2 0, l.getD 3 0)

/-- The built-in optimisers on one element (R179). -/
def optimise (opt : Nat) (ws p : List Nat) (g w m v : Nat) : Nat × Nat × Nat :=
  let pp := fun i => p.getD i 0
  match opt with
  | 0 => (sub32 w (mul32 (pp 0) (add32 g (mul32 (pp 1) w))), m, v)
  | 1 =>
    let m := add32 (mul32 (pp 2) m) (add32 g (mul32 (pp 1) w))
    (sub32 w (mul32 (pp 0) m), m, v)
  | 2 =>
    let m := add32 (mul32 (pp 2) m) (mul32 (pp 3) g)
    let v := add32 (mul32 (pp 4) v) (mul32 (pp 5) (mul32 g g))
    let u := div32 (mul32 m (pp 7)) (add32 (sqrt32 (mul32 v (pp 8))) (pp 6))
    (sub32 w (mul32 (pp 0) (add32 u (mul32 (pp 1) w))), m, v)
  | _ => microRun ws p g w m v

/-- Offsets of the moments and the accumulator in a group (Table 7-1). -/
def momentOff (m12 : Bool) (i : Nat) : Nat := if m12 then 0x100 + 0x80 * i else 0x100 + 0x100 * i
def accOff (m12 : Bool) : Nat := if m12 then 0x200 else 0x300

/-- 64 FP32 values at an address. -/
def State.fp64s (s : State) (a : Nat) : List Nat := (List.range 64).map (fun j => s.num (a + 4 * j) 4)

/-- A moment part widened to FP32 (R179). -/
def State.moments (s : State) (m12 : Bool) (a i : Nat) : List Nat :=
  if m12 then (List.range 64).map (fun j => s.num (a + momentOff m12 i + 2 * j) 2 * 65536) else s.fp64s (a + momentOff m12 i)

/-- The values of a moment part written back to BF16: an unchanged value keeps its bits and its conversion counts nothing (R180). -/
def momentConv (rnd : Nat) (key : SrKey) (idx : Nat) (old new : List Nat) : List Conv :=
  (List.range 64).map (fun j =>
    let x := new.getD j 0
    if x = old.getD j 0 then ⟨x / 65536, false, false⟩
    else convert .bf16 false ((Rnd.ofCode rnd).getD .rne) (key.draw (idx + j)) (val32 x))

/-- A moment part written back (R180); the saturations counted (R183). -/
def State.wrMoments (s : State) (m12 : Bool) (a i rnd : Nat) (key : SrKey) (idx : Nat) (old new : List Nat) : State × Nat :=
  if m12 then
    let cs := momentConv rnd key idx old new
    (s.wr (a + momentOff m12 i) (cs.flatMap (fun c => toBytes 2 c.code)), (cs.filter (fun c => c.sat)).length)
  else (s.wr (a + momentOff m12 i) (fp32Bytes new), 0)

/-- Conversions of 64 masters of row `n`, group column `c`, to the working copy, and their scale bytes (R182). -/
def State.copyConv (s : State) (key : SrKey) (d : QuayD) (n c : Nat) (ws : List Nat) : List Conv × List Nat :=
  let f := (Fmt.ofCode d.wfmt).getD .fp32
  let r := (Rnd.ofCode d.wrnd).getD .rne
  let us := (List.range 64).map (fun j => key.draw (n * d.cols + 64 * c + j))
  if d.wscm = 2 then
    let bs := [0, 1].map (fun h => mxWrite f r ((us.drop (32 * h)).take 32) (((ws.drop (32 * h)).take 32).map val32))
    (bs.flatMap (fun b => b.2), bs.map (fun b => b.1))
  else
    let sn := s.num (d.wsaddr + 4 * n) 4
    ((ws.zip us).map (fun p => convert f false r p.2 (val32 (if d.wscm = 1 then div32 p.1 sn else p.1))), [])

/-- Address of a group's working-copy bytes. -/
def QuayD.copyAddr (d : QuayD) (n c : Nat) : Nat := d.wbase + n * d.wstride + 8 * d.wwidth * c

/-- The working copy of a group written, or written as poison (R182, R190). -/
def State.wrCopy (s : State) (d : QuayD) (n c : Nat) (cs : List Conv) (sc : List Nat) (bad : Bool) : State :=
  let a := d.copyAddr n c
  if bad then s.wrPoison a (8 * d.wwidth)
  else
    let s := s.wr a (toBytes (8 * d.wwidth) (packCodes d.wwidth (cs.map (fun x => x.code))))
    if d.wscm = 2 then s.wr (d.wsaddr + n * (d.cols / 32) + 2 * c) (sc.map (BitVec.ofNat 8)) else s

/-- The key of a quay descriptor's stochastic rounding, with its ctx changed by `x`. -/
def State.quayKey (s : State) (k : Nat) (d : QuayD) (x : Nat) : SrKey :=
  s.srKey k (s.fld (R.psqStep k) (0, 32)) (d.ctx ^^^ x)

/-- The first poisoned group since the last read is kept by the unit that met it (R190). -/
def State.quayBadAddr (s : State) (a : Nat) : State :=
  let r := R.quyPoisonAddr (s.quayFor a)
  if s.flag r F.quyPoisonAddrValid then s else (s.setFld r F.quyPoisonAddrAddr a).setFld r F.quyPoisonAddrValid 1

/-- The quay unit that found poison in the group at `a` records the fault (R190, R191). -/
def State.quayPoison (s : State) (a k x index job : Nat) (jv : Bool) : State :=
  let w : Word := (0 : Word)
  let w := ((w.setFld F.quyErrCode 0x57).setFld F.quyErrStake k).setFld F.quyErrStream x
  let w := ((w.setFld F.quyErrIndex (index % 2 ^ 32)).setFld F.quyErrJob job).setFld F.quyErrJobValid (if jv then 1 else 0)
  (s.setReg (R.quyErr (s.quayFor a)) w).quayBadAddr a

/-- Errors that a quay unit meets in the intervals that it reads, and in its staging: counted by the memory and in QUY_ECC (R190);
`buf` corrected and `unc` uncorrectable ones in staging. -/
def State.quayErrs (s : State) (q : Nat) (spans : List (Nat × Nat)) (x : Errs) (buf unc : Nat) : State :=
  let l := x.mem.filter (fun p => decide (p.2 ≠ 0) && isHbm p.1 && !(s.poison.contains (lineOf p.1)) && !(s.stackLost p.1) &&
    spans.any (fun r => decide (r.1 ≤ p.1) && decide (p.1 < r.2)))
  let one := (l.filter (fun p => p.2 == 1)).length
  ((s.readErrs spans x).addSat (R.quyEcc q) F.quyEccCorr (one + buf)).addSat (R.quyEcc q) F.quyEccUncorr (l.length - one + unc)

/-- The group at row `n`, column `c` of a tensor. -/
def QuayD.group (d : QuayD) (g n c : Nat) : Nat := d.rbase + n * d.rstride + g * c

/-- ROWP's scale of row `n` returns poison. -/
def State.scaleBad (s : State) (d : QuayD) (n : Nat) : Bool := d.wscm == 1 && s.unreadable (d.wsaddr + 4 * n) 4

/-- One group updated with the gradients `gs` (R178-R183): records, working copy and, where `taps`, statistics; the new state, and
whether poison was met. PRESUMED (log 48): a poisoned ROWP scale counts as poison of the working copy alone. -/
def State.updateGroup (s : State) (k : Nat) (d : QuayD) (ws : List Nat) (n c : Nat) (gs : List Nat) (bad taps : Bool) : State × Bool :=
  let m12 := (s.stake k).master12
  let g := groupSize m12
  let a := d.group g n c
  let s := s.count (R.quySCntUpd (s.quayFor a) k) 1
  if bad || s.unreadable a (accOff m12) then (((s.wrPoison a g).wrCopy d n c [] [] true), true)
  else
    let w0 := s.fp64s a
    let m0 := s.moments m12 a 0
    let v0 := s.moments m12 a 1
    let rs := (List.range 64).map (fun j => optimise d.opt ws d.p (gs.getD j 0) (w0.getD j 0) (m0.getD j 0) (v0.getD j 0))
    let w1 := rs.map (fun r => r.1)
    let idx := n * d.cols + 64 * c
    let s := s.wr a (fp32Bytes w1)
    let (s, sm) := s.wrMoments m12 a 0 d.mrnd (s.quayKey k d 0) idx m0 (rs.map (fun r => r.2.1))
    let (s, sv) := s.wrMoments m12 a 1 d.mrnd (s.quayKey k d 0x80000000) idx v0 (rs.map (fun r => r.2.2))
    let s := s.wr (a + accOff m12) (List.replicate 256 0)
    let (cs, sc) := s.copyConv (s.quayKey k d 0x40000000) d n c w1
    let sb := s.scaleBad d n
    let s := s.wrCopy d n c cs sc sb
    let nf := ((w1.zip cs).filter (fun p => !(isFin32 p.1) || p.2.nonfin)).length
    ((if taps then s.tap k d.slot (w1.foldl tapMax 0) nf ((cs.filter (fun x => x.sat)).length + sm + sv) else s), sb)

/-- The lines of a group's masters that return poison, 0 to 3. -/
def State.badMasters (s : State) (a : Nat) : List Nat := (List.range 4).filter (fun i => s.unreadable (a + 64 * i) 64)

/-- One group's working copy rewritten from its masters (QEMIT); the elements of a poisoned master, and the scale of their MX block, are
written as poison (R190). -/
def State.emitGroup (s : State) (k : Nat) (d : QuayD) (n c : Nat) : State × Bool :=
  let a := d.group (s.gsize k) n c
  let bad := if s.scaleBad d n then List.range 4 else s.badMasters a
  let ms := s.fp64s a
  let ws := (List.range 64).map (fun j => if bad.contains (j / 16) then 0 else ms.getD j 0)
  let (cs, sc) := s.copyConv (s.quayKey k d 0x40000000) d n c ws
  let t := (s.wrCopy d n c cs sc false).forAll bad (fun s i =>
    let s := s.wrPoison (d.copyAddr n c + 2 * d.wwidth * i) (2 * d.wwidth)
    if d.wscm = 2 then s.wrPoison (d.wsaddr + n * (d.cols / 32) + 2 * c + i / 2) 1 else s)
  (t, bad != [])

/-- One group's accumulators cleared. -/
def State.clearGroup (s : State) (k a : Nat) : State :=
  (s.wr (a + accOff (s.stake k).master12) (List.replicate 256 0)).count (R.quySCntClr (s.quayFor a) k) 1

/-! ### staging and folds (R174-R177) -/

/-- One of the units of a unit's controller has failed, so that nothing is mirrored. -/
def State.quayDegraded (s : State) (q : Nat) : Bool := s.failQuay.testBit q || s.failQuay.testBit (q ^^^ 1)

/-- Bytes of staging in use or reserved at a quay unit: its share with its partner's, and blocks with the partner's (R174). -/
def State.staging (s : State) (q : Nat) : Nat :=
  256 * ((s.qu q).resv.map (fun r => r.slices)).foldl (· + ·) 0 +
    128 * ((s.qu q).blocks.length + (if s.quayDegraded q then (s.qu (q ^^^ 1)).blocks else (s.qu q).blockMirror).length)

/-- QUY_STATUS of a unit and its partner follow the staging and the jobs that hold groups. -/
def State.syncQuay (s : State) (q : Nat) : State :=
  s.forAll [q, q ^^^ 1] (fun s u =>
    let n := ((s.qu u).trig.filter (fun t => match t with
      | .read j => ((s.job j).map (fun v => v.begun)).getD false
      | _ => false)).length
    (s.setFld (R.quyStatus u) F.quyStatusStageKib (ceilDiv (s.staging u) 1024)).setFld (R.quyStatus u) F.quyStatusJobsOpen n)

/-- Both quay units of a unit's controller have failed (R189). -/
def State.quayLost (s : State) (q : Nat) : Bool := s.failQuay.testBit q && s.failQuay.testBit (q ^^^ 1)

/-- The staging room fits a reservation. -/
def State.fits (s : State) (q n : Nat) : Bool := decide (s.staging q + 256 * n ≤ 4194304)

/-- QUAY_RESERVE (R174): the next reservation of the engine's next instruction, once no earlier conflicting instruction is
outstanding. Both units of a controller failed: QY_UNIT (R189). `wait` engine cycles were spent waiting. -/
def State.quayReserve (s : State) (e wait : Nat) : State :=
  match s.engOwner e with
  | none => s
  | some k => match s.nextMx k e with
    | none => s
    | some o =>
      if (parseChain o.chain).dst.kind ≠ 6 ∨ s.quayBlocked k o ∨ (s.noIssue k ∧ ¬ o.rerun) then s
      else if (s.quayShares k o).any (fun p => s.quayLost p.1) then s.faultOut k o 0x58 e
      else match (s.quayNeeds k o).find? (fun p => !(s.reserved k o p.1)) with
        | none => s
        | some (q, n) =>
          let c := s.qu q
          if c.waiting.any (fun r => r.stake == k && r.seq == o.seq) then s.count (R.mxeCntDrain e) wait
          else
            let r : Resv := ⟨k, o.seq, n⟩
            let s := s.count (R.mxeCntDrain e) wait
            if c.waiting.isEmpty && s.fits q n then (s.setQu q { c with resv := c.resv ++ [r] }).syncQuay q
            else s.setQu q { c with waiting := c.waiting ++ [r] }

/-- QUAY_RESERVATION_GRANT (R174): the reservation that waits longest fits and is granted; it waited `wait` quay cycles. -/
def State.quayGrant (s : State) (q wait : Nat) : State :=
  match (s.qu q).waiting with
  | [] => s
  | r :: t =>
    if s.fits q r.slices then
      ((s.setQu q { s.qu q with
        resv := (s.qu q).resv ++ [r]
        waiting := t }).count (R.quySCntResv q r.stake) wait).syncQuay q
    else s

/-- QUAY_SLICE_ARRIVE (R101, R174): the next slice of the oldest instruction with slices left reaches its unit, and its mirror
the partner. -/
def State.sliceArrive (s : State) (e : Nat) : State :=
  match s.engOwner e with
  | none => s
  | some k => match (s.q k).outst.find? (fun o => o.isMx && o.unit == e && o.issued && !o.slicesDone) with
    | none => s
    | some o =>
      let n := o.mn.2
      let t := o.run.sent / n
      let l := o.run.sent % n
      if o.run.row < 64 * (t + 1) then s
      else
        let a := sliceAddr (s.stake k).master12 (parseChain o.chain) l t
        let v : Slice := ⟨k, o.seq, a, (List.range 64).map (fun j => (o.run.tile.getD (64 * t + j) []).getD l 0), o.run.poison⟩
        let q := octetOf a
        let s := s.setQu q { s.qu q with staged := (s.qu q).staged ++ [v] }
        let s := if s.quayDegraded q then s
          else s.setQu (q ^^^ 1) { s.qu (q ^^^ 1) with mirror := (s.qu (q ^^^ 1)).mirror ++ [v] }
        s.updOutst k o.seq (fun p => { p with run := { p.run with sent := p.run.sent + 1 } })

/-! ### the order of operations on a group (R176, R177) -/

/-- What a trigger at unit `q` acts on: groups, or the line of an atomic. -/
def State.trigAt (s : State) (q : Nat) : Trig → List Tensor
  | .fold k n => ((s.qu q).staged.filter (fun v => v.stake == k && v.seq == n)).map (fun v => .single v.addr (s.gsize k))
  | .op k n => match (s.q k).outst.find? (fun o => o.seq == n) with
    | none => []
    | some o => [(parseQuay o.desc).tensor (s.gsize k)]
  | .read id => match s.job id with
    | none => []
    | some j => jobRanges (s.gsize j.stake) j.desc
  | .upd id i => match s.job id with
    | none => []
    | some j => [.single ((jobGroups (s.gsize j.stake) j.desc).getD i 0) (s.gsize j.stake)]
  | .atom f => [.single (lineOf f.addr) 64]

/-- A job has made its first reads of a group. -/
def Job.didRead (j : Job) (i : Nat) : Bool := j.passed.contains (2 * i) && j.passed.contains (2 * i + 1)

/-- A job's first read of a group that meets `want` is still to be made. -/
def State.unreadBy (s : State) (id : Nat) (want : List Tensor) : Bool :=
  match s.job id with
  | none => false
  | some j =>
    let gs := jobGroups (s.gsize j.stake) j.desc
    !j.skip && (List.range gs.length).any (fun i => !(j.didRead i) && want.any (fun t => t.meets (.single (gs.getD i 0) (s.gsize j.stake))))

/-- Trigger `e`, which reached unit `q` before `t`, is to be applied before `t` acts on `want`. A job's reads hold folds, clears,
QUPD and QEMIT until its close; updates and other reads pass them, and an atomic passes them once they are made. -/
def State.trigAhead (s : State) (q : Nat) (t : Trig) (want : List Tensor) (e : Trig) : Bool :=
  (s.trigAt q e).any (fun x => want.any (fun y => y.meets x)) &&
    (match e, t with
      | .read _, .upd _ _ => false
      | .read _, .read _ => false
      | .read id, .atom _ => s.unreadBy id want
      | _, _ => true)

/-- Nothing that reached unit `q` before its trigger `i` keeps that from acting on `want`. -/
def State.trigFree (s : State) (q i : Nat) (want : List Tensor) : Bool :=
  match (s.qu q).trig[i]? with
  | none => false
  | some t => !(((s.qu q).trig.take i).any (s.trigAhead q t want))

/-- Trigger `i` waits behind an open job. -/
def State.trigHeld (s : State) (q i : Nat) : Bool :=
  match (s.qu q).trig[i]? with
  | none => false
  | some t => ((s.qu q).trig.take i).any (fun e => (match e with
      | .read _ => true
      | _ => false) && s.trigAhead q t (s.trigAt q t) e)

/-- The first place among a unit's triggers that `p` accepts. -/
def Quay.placeOf (c : Quay) (p : Nat → Trig → Bool) : Option Nat :=
  (List.range c.trig.length).find? (fun i => (c.trig[i]?).any (p i))

/-- A quay unit without trigger `i`. -/
def Quay.dropTrig (c : Quay) (i : Nat) : Quay := { c with trig := c.trig.eraseIdx i }

/-- Quay work does not start under a brace; before a warm reset, what was accepted completes (Table 7-7). -/
def State.quayHalt (s : State) : Bool := s.flag R.lkStatus F.lkStatusWarn && !(s.flag R.lkStatus F.lkStatusWrst)

/-! ### folds (R176) -/

/-- A slice folds into its group's accumulators; poison leaves them poisoned (R190). -/
def State.foldSlice (s : State) (v : Slice) : State :=
  let a := v.addr + accOff (s.stake v.stake).master12
  let s := s.count (R.quySCntFold (s.quayFor v.addr) v.stake) 1
  if v.poison || s.unreadable a 256 then (s.wrPoison a 256).quayBadAddr v.addr
  else s.wr a (fp32Bytes (((s.fp64s a).zip v.vals).map (fun p => add32 p.1 p.2)))

/-- Reservations whose slices have been folded are given back. -/
def State.releaseResv (s : State) (k n q : Nat) : State :=
  let busy := fun (u : Nat) => (s.qu u).trig.contains (.fold k n) || (s.qu u).staged.any (fun v => v.stake == k && v.seq == n)
  if busy q || busy (q ^^^ 1) then s
  else (s.forAll [q, q ^^^ 1] (fun s u =>
    s.setQu u { s.qu u with resv := (s.qu u).resv.filter (fun r => !(r.stake == k && r.seq == n)) })).syncQuay q

/-- Staged slices of an instruction at a unit. -/
def Quay.slicesOf (c : Quay) (k n : Nat) : List Slice := c.staged.filter (fun v => v.stake == k && v.seq == n)

/-- The slices of fold trigger `i` that may fold now. -/
def State.foldable (s : State) (q i k n : Nat) : List Slice :=
  ((s.qu q).slicesOf k n).filter (fun v => s.trigFree q i [.single v.addr (s.gsize k)])

/-- Slices leave the staging of a unit and the mirror of its partner. -/
def State.unstage (s : State) (q : Nat) (l : List Slice) : State :=
  let s := s.setQu q { s.qu q with staged := (s.qu q).staged.filter (fun v => !(l.contains v)) }
  s.setQu (q ^^^ 1) { s.qu (q ^^^ 1) with mirror := (s.qu (q ^^^ 1)).mirror.filter (fun v => !(l.contains v)) }

/-- QUY_S_CNT_HOLD: the first fold trigger behind an open job has waited `n` quay cycles (R177). -/
def State.countHold (s : State) (q n : Nat) : State :=
  match (s.qu q).placeOf (fun i t => match t with
    | .fold _ _ => s.trigHeld q i
    | _ => false) with
  | none => s
  | some i => match (s.qu q).trig[i]? with
    | some (.fold k _) => s.count (R.quySCntHold (s.quayBy q) k) n
    | _ => s

/-- Fold trigger `i` of a unit has its turn: nothing earlier keeps one of its slices waiting, or none of them is left. -/
def State.foldTurn (s : State) (q i : Nat) : Trig → Bool
  | .fold k n => ((s.qu q).slicesOf k n).isEmpty || !(s.foldable q i k n).isEmpty
  | _ => false

/-- QUAY_FOLD (R176, R177): the first fold trigger with a slice that nothing earlier keeps waiting folds what it may; slices of a group
that a job holds stay for the close, the trigger with them. -/
def State.quayFold (s : State) (q held : Nat) (x : Errs) : State :=
  let s := s.countHold q held
  if s.quayLost q || s.quayHalt then s
  else match (s.qu q).placeOf (s.foldTurn q) with
  | none => s
  | some i => match (s.qu q).trig[i]? with
    | some (.fold k n) =>
      let l := s.foldable q i k n
      let off := accOff (s.stake k).master12
      let s := s.quayErrs (s.quayBy q) (l.map (fun v => (v.addr + off, v.addr + off + 256))) x x.buf x.unc
      let s := s.unstage q l
      let s := if ((s.qu q).slicesOf k n).isEmpty then s.setQu q ((s.qu q).dropTrig i) else s
      let bad := (l.take x.unc).map (fun (v : Slice) => { v with poison := true })
      let s := (bad ++ l.drop x.unc).foldl State.foldSlice s
      s.releaseResv k n q
    | _ => s

/-! ### quay instructions (R185-R187) -/

/-- The descriptor at DADDR and its microprogram, where the reads are good (R186, R412). -/
def State.readQuay (s : State) (a : Nat) : Option (List Byte × List Byte) :=
  if s.unreadable a 128 then none
  else
    let b := s.bytes a 128
    let d := parseQuay b
    if d.opt = 3 ∧ d.mplen ≤ 64 then (if s.unreadable d.mpaddr (4 * d.mplen) then none else some (b, s.bytes d.mpaddr (4 * d.mplen)))
    else some (b, [])

/-- The tensor of a binding. -/
def State.bindTensor (s : State) (b : Bind) : Tensor := (parseQuay b.desc).tensor (s.gsize b.stake)

/-- The first fault of a quay instruction after QY_OPC (R187); `job` is a QBIND's. -/
def State.quayFault (s : State) (k daddr : Nat) (job : Option Nat) : Nat :=
  let r := s.stake k
  let mine : List Bind := match job with | none => [] | some j => s.binds.filter (fun b => b.job == j)
  if (match job with | none => false | some j => decide (j < r.jobBase) || decide (r.jobBase + r.jobCount ≤ j)) then 0x54
  else match s.readQuay daddr with
    | none => 0x51
    | some (b, mp) =>
      let d := parseQuay b
      let t := d.tensor (s.gsize k)
      (firstCode [(d.descBad r.level, 0x51), (d.alignBad daddr (s.gsize k), 0x52), (d.formatBad, 0x55), (s.quayAddrBad k d, 0x53),
        ((microWords mp).any microBad, 0x56),
        (decide (8 ≤ mine.length) || mine.any (fun m => (s.bindTensor m).meets t), 0x59),
        ((t.units (s.gsize k)).any s.quayLost, 0x58)]).getD 0

/-- A quay instruction at the head of U: QY_OPC, its checks, then `body`. -/
def State.quayOp (s : State) (k opc : Nat) (rsv : Nat → Bool) (job : Nat → Option Nat)
    (body : Nat → List Byte → List Byte → State → State) : State :=
  s.withHead k 2 [opc] (fun w s =>
    let i := s.indexOf k 2
    if rsv w then s.raiseFault k 2 i 0x50 0xFF false
    else
      let f := s.quayFault k (bits w 64 52) (job w)
      if f ≠ 0 then s.raiseFault k 2 i f 0xFF false
      else match s.readQuay (bits w 64 52) with
        | none => s
        | some (b, mp) => body w b mp s)

/-- QUPD, QCLR and QEMIT issue as every unit that holds groups of the tensor accepts their triggers (R185). -/
def State.quayTensorOp (s : State) (k opc : Nat) : State :=
  s.quayOp k opc (fun w => decide (bits w 32 32 ≠ 0) || decide (bits w 116 12 ≠ 0)) (fun _ => none) (fun w b mp s =>
    let n := (s.q k).fresh
    let us := ((parseQuay b).tensor (s.gsize k)).units (s.gsize k)
    let s := s.dispatchOut k 2 w 0 true b mp 0
    s.forAll us (fun s q => s.setQu q { s.qu q with trig := (s.qu q).trig ++ [.op k n] }))

/-- QBIND (R185, R187): binds the job until it closes, and completes at dispatch. -/
def State.qbind (s : State) (k : Nat) : State :=
  s.quayOp k 0x29 (fun w => decide (bits w 38 26 ≠ 0) || decide (bits w 116 12 ≠ 0)) (fun w => some (bits w 32 6)) (fun w b mp s =>
    let v : Bind := ⟨bits w 32 6, k, b, mp, s.fld (R.psqStep k) (0, 32), s.indexOf k 2⟩
    ({ s with binds := s.binds ++ [v] }).dispatchDone k 2 w (s.pcOf k 2 + 1))

/-- The intervals that a QUPD or QEMIT reads of the group at row `n`, column `c`. -/
def State.groupSpans (s : State) (k : Nat) (d : QuayD) (opc n c : Nat) : List (Nat × Nat) :=
  let a := d.group (s.gsize k) n c
  let scale := if d.wscm = 1 then [(d.wsaddr + 4 * n, d.wsaddr + 4 * n + 4)] else []
  if opc = 0x28 then (a, a + s.gsize k) :: scale else if opc = 0x2B then (a, a + 256) :: scale else []

/-- The work of a QUPD, QCLR or QEMIT on one group: the state, and whether poison was met. -/
def State.quayGroup (s : State) (k : Nat) (o : Outst) (n c : Nat) (x : Errs) : State × Bool :=
  let d := parseQuay o.desc
  let a := d.group (s.gsize k) n c
  let acc := a + accOff (s.stake k).master12
  let s := s.quayErrs (s.quayFor a) (s.groupSpans k d (opcOf o.word) n c) x 0 0
  match opcOf o.word with
  | 0x28 => s.updateGroup k d (microWords o.chain) n c ((s.fp64s acc).map (fun v => mul32 v d.gscale)) (s.unreadable acc 256) true
  | 0x2A => (s.clearGroup k a, false)
  | _ => s.emitGroup k d n c

/-- That work on every group of the tensor; each unit that finds poison records it (R191). The state, and the first poisoned group. -/
def State.quayWork (s : State) (k : Nat) (o : Outst) (x : Errs) : State × Option Nat :=
  let d := parseQuay o.desc
  ((List.range d.rows).flatMap (fun n => (List.range (d.cols / 64)).map (fun c => (n, c)))).foldl (fun st p =>
    let (s, first) := st
    let a := d.group (s.gsize k) p.1 p.2
    let (s, bad) := s.quayGroup k o p.1 p.2 x
    if bad then (s.quayPoison a k 2 o.index 0 false, if first.isNone then some a else first) else (s, first)) (s, none)

/-- The place of an operation's trigger at a unit. -/
def State.opPlace (s : State) (q k n : Nat) : Option Nat := (s.qu q).placeOf (fun _ t => t == .op k n)

/-- A QUPD, QCLR or QEMIT may act at a unit: nothing that reached it earlier acts on its groups. -/
def State.opFree (s : State) (k : Nat) (o : Outst) (q : Nat) : Bool :=
  !(s.quayLost q) && (s.opPlace q k o.seq).any (fun i => s.trigFree q i (s.trigAt q (.op k o.seq)))

/-- The units that hold groups of an operation's tensor. -/
def State.opUnits (s : State) (k : Nat) (o : Outst) : List Nat := ((parseQuay o.desc).tensor (s.gsize k)).units (s.gsize k)

/-- QUAY_OP_COMPLETE (R176, R185): the oldest QUPD, QCLR or QEMIT whose turn has come at every unit does its work, is visible and
completes; one that waits behind an open job has waited `held` quay cycles (R177). -/
def State.quayOpComplete (s : State) (k held : Nat) (x : Errs) : State :=
  let ops := (s.q k).outst.filter (fun o => [0x28, 0x2A, 0x2B].contains (opcOf o.word))
  let s := match ops.find? (fun o => (s.opUnits k o).any (fun q => (s.opPlace q k o.seq).any (s.trigHeld q))) with
    | none => s
    | some o => s.forAll ((s.opUnits k o).filter (fun q => (s.opPlace q k o.seq).any (s.trigHeld q))) (fun s q =>
      s.count (R.quySCntHold (s.quayBy q) k) held)
  match ops.find? (fun o => (s.opUnits k o).all (s.opFree k o)) with
  | none => s
  | some o =>
    if s.quayHalt then s
    else
      let s := s.forAll (s.opUnits k o) (fun s q => s.setQu q { s.qu q with trig := (s.qu q).trig.filter (fun t => t != .op k o.seq) })
      let (s, bad) := s.quayWork k o x
      let s := s.complete k o
      match bad with
      | none => s
      | some a => s.raiseFault k 2 o.index 0x57 (s.quayFor a) true

/-! ### reduced blocks and bound updates (R178) -/

/-- REDUCED_BLOCK_ARRIVE (R174, R178, R206): a SPILLED block is discarded; a FINAL one is staged where the unit and its partner have
room, and mirrored in the partner. The second of a group's blocks triggers its update. -/
def State.blockArrive (s : State) (q : Nat) : State :=
  match (s.qu q).inbox with
  | [] => s
  | b :: t =>
    if s.quayLost q then s
    else if !b.final then s.setQu q { s.qu q with inbox := t }
    else if !(decide (s.staging q + 128 ≤ 4194304) && (s.quayDegraded q || decide (s.staging (q ^^^ 1) + 128 ≤ 4194304))) then s
    else
      let i := b.block / 2
      let pair := (s.qu q).blocks.any (fun c => c.job == b.job && c.block / 2 == i)
      let s := s.setQu q { s.qu q with
        inbox := t
        blocks := (s.qu q).blocks ++ [b]
        trig := (s.qu q).trig ++ (if pair then [.upd b.job i] else []) }
      let s := if s.quayDegraded q then s
        else s.setQu (q ^^^ 1) { s.qu (q ^^^ 1) with blockMirror := (s.qu (q ^^^ 1)).blockMirror ++ [b] }
      s.syncQuay q

/-- The binding of a job whose tensor holds a group. -/
def State.bindOf (s : State) (j a : Nat) : Option Bind := s.binds.find? (fun b => b.job == j && (s.bindTensor b).isGroup (s.gsize b.stake) a)

/-- Row and group column of a group in a descriptor's tensor. -/
def QuayD.place (d : QuayD) (g a : Nat) : Nat × Nat :=
  let n := (d.tensor g).rowOf a
  (n, (a - d.rbase - n * d.rstride) / g)

/-- The blocks of a group leave the staging of a unit and the mirror of its partner. -/
def State.dropBlocks (s : State) (q id i : Nat) : State :=
  let keep := fun (l : List Block) => l.filter (fun b => !(b.job == id && b.block / 2 == i))
  let s := s.setQu q { s.qu q with blocks := keep (s.qu q).blocks }
  s.setQu (q ^^^ 1) { s.qu (q ^^^ 1) with blockMirror := keep (s.qu (q ^^^ 1)).blockMirror }

/-- The update of group `i` of a job under its binding, with blocks `b` and `c` (R178). It counts toward the statistics of the step in
which the QBIND dispatched: of the current step, or of a step whose statistics are latched and change no more (R134, R135, R183). -/
def State.updateBound (s : State) (q id i : Nat) (j : Job) (bd : Bind) (b c : Block) (x : Errs) : State :=
  let d := parseQuay bd.desc
  let a := (jobGroups (s.gsize j.stake) j.desc).getD i 0
  let (n, cc) := d.place (s.gsize j.stake) a
  let gs := (b.vals ++ c.vals).map (fun r => mul32 r j.jgs)
  let scale := if d.wscm = 1 then [(d.wsaddr + 4 * n, d.wsaddr + 4 * n + 4)] else []
  let s := s.quayErrs (s.quayFor a) ((a, a + accOff (s.stake j.stake).master12) :: scale) x x.buf x.unc
  let taps := decide (bd.step = s.fld (R.psqStep j.stake) (0, 32))
  let (s, bad) := s.updateGroup j.stake d (microWords bd.prog) n cc gs (b.poison || c.poison || decide (0 < x.unc)) taps
  let s := s.dropBlocks q id i
  let s := if bad then s.quayPoison a j.stake 2 bd.index id true else s
  let s := s.setJob id { j with updated := j.updated ++ [i], toSend := insertNat i j.toSend, badUpd := j.badUpd || bad }
  (s.setFld (R.rdxJStatus id) F.rdxJStatusOwnedLeft (s.fld (R.rdxJStatus id) F.rdxJStatusOwnedLeft - 1)).syncQuay q

/-- Update trigger `i` of a unit has its turn. -/
def State.updTurn (s : State) (q i : Nat) (t : Trig) : Bool :=
  match t with
  | .upd _ _ => s.trigFree q i (s.trigAt q t)
  | _ => false

/-- QUAY_BOUND_UPDATE (R178): the first update whose turn has come. -/
def State.boundUpdate (s : State) (q : Nat) (x : Errs) : State :=
  if s.quayLost q || s.quayHalt then s
  else match (s.qu q).placeOf (s.updTurn q) with
  | none => s
  | some p => match (s.qu q).trig[p]? with
    | some (.upd id i) =>
      let bs := (s.qu q).blocks
      let t := s.setQu q ((s.qu q).dropTrig p)
      match s.job id, bs.find? (fun b => b.job == id && b.block == 2 * i), bs.find? (fun b => b.job == id && b.block == 2 * i + 1) with
      | some j, some b, some c =>
        match s.bindOf id ((jobGroups (s.gsize j.stake) j.desc).getD i 0) with
        | some bd => t.updateBound q id i j bd b c x
        | none => t
      | _, _, _ => t
    | _ => s

/-! ### far atomics (R188) -/

/-- The tile thread that sent a forwarded atomic, whose own reservation its write keeps (R282). -/
def State.atomThread (s : State) (id : Nat) : Option Nat :=
  match (KMap.get s.homes .empty (id % 20)).tracks.find? (fun t => t.id == id / 20) with
  | none => none
  | some t => if 112 ≤ t.req.who then some (t.req.who - 112) else none

/-- Atomic trigger `i` of a unit has its turn. -/
def State.atomTurn (s : State) (q i : Nat) (t : Trig) : Bool :=
  match t with
  | .atom _ => s.trigFree q i (s.trigAt q t)
  | _ => false

/-- FAR_ATOMIC: the unit executes the first forwarded atomic whose turn on its group and line has come, and returns the old value. -/
def State.farAtomic (s : State) (q : Nat) (x : Errs) : State :=
  if s.quayLost q then s
  else match (s.qu q).placeOf (s.atomTurn q) with
  | none => s
  | some i => match (s.qu q).trig[i]? with
    | some (.atom f) =>
      let s := s.readErrs [(lineOf f.addr, lineOf f.addr + 64)] x
      let old := s.num f.addr f.size
      let bad := s.bad f.addr f.size
      let s := if bad ∨ s.dropped f.addr then s
        else (s.setBytes f.addr (toBytes f.size (atomicNew f.op f.size old f.a f.b))).touch f.addr f.size (s.atomThread f.id)
      let c := s.qu q
      (s.setQu q { c.dropTrig i with olds := c.olds ++ [(f.id, if bad then 2 ^ 64 else old)] }).count
        (R.quyCntAtom (s.quayBy q)) 1
    | _ => s

/-- QUPD (R185). -/
def execQupd (k : Fin 16) (s : State) : Host.Outcome State Fault Refusal := .next (s.quayTensorOp k 0x28)
/-- QBIND (R185). -/
def execQbind (k : Fin 16) (s : State) : Host.Outcome State Fault Refusal := .next (s.qbind k)
/-- QCLR (R185). -/
def execQclr (k : Fin 16) (s : State) : Host.Outcome State Fault Refusal := .next (s.quayTensorOp k 0x2A)
/-- QEMIT (R185). -/
def execQemit (k : Fin 16) (s : State) : Host.Outcome State Fault Refusal := .next (s.quayTensorOp k 0x2B)
/-- QUAY_RESERVE. -/
def execQuayReserve (e : Fin 32) (wait : Nat) (s : State) : Host.Outcome State Fault Refusal := .next (s.quayReserve e wait)
/-- QUAY_RESERVATION_GRANT. -/
def execQuayReservationGrant (q : Fin 16) (wait : Nat) (s : State) : Host.Outcome State Fault Refusal := .next (s.quayGrant q wait)
/-- QUAY_SLICE_ARRIVE. -/
def execQuaySliceArrive (e : Fin 32) (s : State) : Host.Outcome State Fault Refusal := .next (s.sliceArrive e)
/-- REDUCED_BLOCK_ARRIVE. -/
def execReducedBlockArrive (q : Fin 16) (s : State) : Host.Outcome State Fault Refusal := .next (s.blockArrive q)
end Sys2Proof.Machine
end

