-- ==== Sys2Proof/Machine/Pvu.lean ====
section
/-! DEFINITION. Programmable vector units: PV instructions, their commits and the assist ring (R111-R118). -/

namespace Sys2Proof.Machine

/-! ### PV instruction words (R112, R113) -/

/-- Operations that PV instructions take from Table 4-6. -/
def pvElementwise (op : Nat) : Bool := isBinary op || isUnary op || isDeriv op

/-- LD or ST. -/
def pvMem (op : Nat) : Bool := op == 0x60 || op == 0x61

/-- The memory stream of 256 elements that LD and ST name. -/
def pvStream (w : Nat) : StreamD := ⟨bits w 64 52, 0, 0, 0, 1, 256, bits w 116 5, 1, bits w 121 2, 0⟩

/-- VX_OPC for a PV word (R112, R113, Table 4-10). -/
def pvOpcBad (w : Nat) : Bool :=
  let op := bits w 40 8
  decide (bits w 35 5 ≠ 0) || !(pvElementwise op || (decide (0x60 ≤ op) && decide (op ≤ 0x66))) ||
    (if pvMem op then decide (bits w 123 5 ≠ 0) else decide (bits w 96 32 ≠ 0)) ||
    (op == 0x63 && decide (bits w 64 2 = 3))

/-- The first fault of a PV word of stake `k` after VX_UNIT (R118). -/
def State.pvFault (s : State) (k w : Nat) : Option Nat :=
  let op := bits w 40 8
  let d := pvStream w
  firstCode [(pvOpcBad w, 0x31),
    (pvMem op && (d.formatBad || d.rnd == 3 || (op == 0x61 && d.rnd == 2)), 0x32),
    (pvMem op && decide (d.addr % 64 ≠ 0), 0x35),
    (pvMem op && !(s.inStake k d.addr (d.rowLen 256)), 0x37)]

/-- VEC_PVU_ERR records a fault, keeping its error count. -/
def State.pvErr (s : State) (v x index code : Nat) (assist : Bool) : State :=
  let a := R.vecPvuErr v
  let s := ((s.setFld a F.vecPvuErrCode code).setFld a F.vecPvuErrStream x).setFld a F.vecPvuErrIndex (index % 2 ^ 32)
  s.setFld a F.vecPvuErrAssist (if assist then 1 else 0)

/-- VEC_PVU_STATUS of a PVU follows what is outstanding on it. -/
def State.syncPvu (s : State) (v : Nat) : State :=
  if s.failPvu.testBit v then s
  else match s.pvuOwner v with
    | none => s
    | some k =>
      let n := (s.pv v).head - (s.pv v).tail
      let busy := n ≠ 0 || (s.q k).outst.any (fun o => o.isPv && o.unit == v)
      (s.setFld (R.vecPvuStatus v) F.vecPvuStatusState (if busy then 2 else 1)).setFld (R.vecPvuStatus v) F.vecPvuStatusAqPending n

/-- A PV instruction at the head of a stream, of the operations that `ops` names: its checks and its dispatch, by which it issues
(R112, R115). -/
def State.pvHead (s : State) (k x : Nat) (ops : Nat → Bool) : State :=
  s.withHead k x [0x58] (fun w s =>
    let v := bits w 32 3
    let i := s.indexOf k x
    if !(ops (bits w 40 8)) then s
    else if !((s.stake k).pvu.testBit v) || !(s.pvuAble k v) then s.raiseFault k x i 0x30 v false
    else match s.pvFault k w with
      | some c => (s.pvErr v x i c false).raiseFault k x i c v false
      | none => (s.dispatchOut k x w v true [] [] 0).syncPvu v)

/-! ### what an operation does (R113, R114) -/

/-- The register that an operation gives VD: the rows of VD, VA and VB (or IMM broadcast) before it. -/
def pvResult (w : Nat) (vd va vb : List Nat) : List Nat :=
  let op := bits w 40 8
  let imm := bits w 64 32
  let b := fun (j : Nat) => if bit w 63 then imm else vb.getD j 0
  let row := fun (f : Nat → Nat) => (List.range 256).map f
  match op with
  | 0x62 => row (fun _ => imm)
  | 0x63 =>
    let r := match imm % 4 with
      | 0 => rowSum false va
      | 1 => rowMax false va
      | _ => va.foldl min32 0x7F800000
    row (fun _ => r)
  | 0x64 => row (fun _ => va.getD (imm % 256) 0)
  | 0x65 => row (fun j => if gt32 (va.getD j 0) (b j) then one32 else 0)
  | 0x66 => row (fun j => if vd.getD j 0 % 2 ^ 31 ≠ 0 then va.getD j 0 else b j)
  | _ => row (fun j => elemOp op (va.getD j 0) (b j))

/-- A PV word executed on PVU `v`: the state, and whether LD read poison. -/
def State.pvRun (s : State) (v w : Nat) : State × Bool :=
  let op := bits w 40 8
  let d := pvStream w
  let rd := bits w 48 5
  let va := s.pvReg v (bits w 53 5)
  let s := s.count (R.vecPvuCntOps v) 1
  if op = 0x60 then
    if s.memRowBad d 0 256 then (s.setPvReg v rd (List.replicate 256 nan32), true)
    else (s.setPvReg v rd (s.memRow d 0 256), false)
  else if op = 0x61 then
    let r := dstBytes ⟨0, 0, 0⟩ d 0 va (s.bytes d.addr (d.rowLen 256))
    (s.wr d.addr r.1, false)
  else (s.setPvReg v rd (pvResult w (s.pvReg v rd) va (s.pvReg v (bits w 58 5))), false)

/-- What a PV operation's reads find in the arrays: LD's stream and the register file (R117). -/
def State.pvErrs (s : State) (v w : Nat) (x : Errs) : State :=
  let d := pvStream w
  (if bits w 40 8 = 0x60 then s.readErrs [(d.addr, d.addr + d.rowLen 256)] x else s).addSat (R.vecPvuErr v) F.vecPvuErrEccCorr x.reg

/-- PV_COMMIT (R114, R115): the oldest PV instruction of the PVU completes, once what issued before it on its registers has. -/
def State.pvCommit (s : State) (v : Nat) (x : Errs) : State :=
  match s.pvuOwner v with
  | none => s
  | some k => match (s.q k).outst.find? (fun o => o.isPv && o.unit == v) with
    | none => s
    | some o =>
      if s.regsBusy k o.seq o.turn (pvRegs o.word) || !(s.pvuAble k v) then s
      else
        let r := (s.pvErrs v o.word x).pvRun v o.word
        let s := r.1.complete k o
        let s := if r.2 then (s.pvErr v o.strm o.index 0x3B false).raiseFault k o.strm o.index 0x3B v true else s
        s.syncPvu v

/-- An assist of the ring of PVU `v`: the fault it completes with, or none (R116, R118). -/
def State.assistFault (s : State) (k v w : Nat) : Option Nat :=
  if bits w 32 3 ≠ v then some 0x30
  else if opcOf w ≠ 0x58 ∨ bits w 12 4 ≠ 0 ∨ pvOpcBad w then some 0x31
  else if waitOf w ≠ 0 ∨ postOf w ≠ 0 ∨ bits w 8 4 ≠ (s.stake k).level then some 0x36
  else s.pvFault k w

/-- PVU_ASSIST (R116): the next assist of the ring executes whole, and the completion count at offset 0x400 increments. -/
def State.pvuAssist (s : State) (v : Nat) (x : Errs) : State :=
  match s.pvuOwner v with
  | none => s
  | some k =>
    let c := s.pv v
    let base := s.fld (R.vecPvuAq v) F.vecPvuAqBase * 4096
    let a := base + 16 * (c.tail % 64)
    let w := s.num a 16
    if c.head ≤ c.tail ∨ ¬ s.flag (R.vecPvuAq v) F.vecPvuAqEnable ∨ ¬ s.pvuAble k v then s
    else
      let f := if s.unreadable a 16 then some 0x36 else s.assistFault k v w
      if f.isNone && s.regsBusy k (s.q k).fresh 0 (pvRegs w) then s
      else
        let s := match f with
          | some e => s.pvErr v 0 (c.tail % 64) e true
          | none =>
            let r := (s.pvErrs v w x).pvRun v w
            if r.2 then r.1.pvErr v 0 (c.tail % 64) 0x3B true else r.1
        let s := s.setPv v { s.pv v with tail := c.tail + 1 }
        (s.wrN (base + 0x400) 8 (s.num (base + 0x400) 8 + 1)).syncPvu v

/-- PV_OP (R113): the operations of Table 4-6; a POP outside both tables raises VX_OPC. -/
def execPvOp (k : Fin 16) (x : Strm) (s : State) : Host.Outcome State Fault Refusal :=
  .next (s.pvHead k x.num (fun p => decide (p < 0x60) || decide (0x66 < p)))
/-- PV LD (R113). -/
def execPvLd (k : Fin 16) (x : Strm) (s : State) : Host.Outcome State Fault Refusal := .next (s.pvHead k x.num (fun p => p == 0x60))
/-- PV ST (R113). -/
def execPvSt (k : Fin 16) (x : Strm) (s : State) : Host.Outcome State Fault Refusal := .next (s.pvHead k x.num (fun p => p == 0x61))
/-- PV SPLAT (R113). -/
def execPvSplat (k : Fin 16) (x : Strm) (s : State) : Host.Outcome State Fault Refusal := .next (s.pvHead k x.num (fun p => p == 0x62))
/-- PV LRED (R113). -/
def execPvLred (k : Fin 16) (x : Strm) (s : State) : Host.Outcome State Fault Refusal := .next (s.pvHead k x.num (fun p => p == 0x63))
/-- PV BCAST (R113). -/
def execPvBcast (k : Fin 16) (x : Strm) (s : State) : Host.Outcome State Fault Refusal := .next (s.pvHead k x.num (fun p => p == 0x64))
/-- PV CMPGT (R113). -/
def execPvCmpgt (k : Fin 16) (x : Strm) (s : State) : Host.Outcome State Fault Refusal := .next (s.pvHead k x.num (fun p => p == 0x65))
/-- PV SEL (R113). -/
def execPvSel (k : Fin 16) (x : Strm) (s : State) : Host.Outcome State Fault Refusal := .next (s.pvHead k x.num (fun p => p == 0x66))
/-- PV_COMMIT. -/
def execPvCommit (p : Fin 8) (errs : Errs) (s : State) : Host.Outcome State Fault Refusal := .next (s.pvCommit p errs)
/-- PVU_ASSIST. -/
def execPvuAssist (p : Fin 8) (errs : Errs) (s : State) : Host.Outcome State Fault Refusal := .next (s.pvuAssist p errs)

end Sys2Proof.Machine
end

