-- ==== Sys2Proof/Machine/Tcx.lean ====
section
/-! DEFINITION. Tile cores: threads, save areas, L1 data caches, the Xritar instructions and stream slots (R243-R255, R271), and
the watches of the homes (R273, R283). -/

namespace Sys2Proof.Machine

/-! ### homes and watches (R273, R283) -/

/-- The home agent of an address (R273). -/
def homeOf (a : Nat) : Nat :=
  if isCxl a then (((a >>> 12) ^^^ (a >>> 28)) % 65536) % 20
  else 4 + 4 * (octetOf a / 4) + (((a >>> 6) ^^^ (a >>> 12) ^^^ (a >>> 20) ^^^ (a >>> 28)) % 4)

/-- A home agent's context. -/
def State.home (s : State) (h : Nat) : Home := KMap.get s.homes .empty h

/-- The state with a home agent's context. -/
def State.setHome (s : State) (h : Nat) (v : Home) : State := { s with homes := KMap.set s.homes .empty h v }

/-- A watch of tile core `c` on the line at `l`, where an entry of the 256 is free (R283). -/
def State.addWatch (s : State) (h l c : Nat) : State :=
  let m := s.home h
  if m.watches.length < 256 ∧ !(m.watches.contains (l, c)) then s.setHome h { m with watches := m.watches ++ [(l, c)] } else s

/-! ### threads -/

/-- TCX_T of a thread. -/
def thrReg (t : Nat) : Nat := R.tcxT (t / 512) (t % 512)

/-- The tile core of a thread (R243). -/
def coreOf (t : Nat) : Nat := 64 * (t / 512) + t % 512 / 8

/-- The context of a thread. -/
def State.thr (s : State) (t : Nat) : Thread := KMap.get s.thread .idle t

/-- The state with the context of a thread. -/
def State.setThr (s : State) (t : Nat) (v : Thread) : State := { s with thread := KMap.set s.thread .idle t v }

/-- The tile core that runs a thread: its own, or the one that took it (R250). -/
def State.runCore (s : State) (t : Nat) : Nat :=
  if (s.thr t).host = 0 then coreOf t else 64 * (t / 512) + ((s.thr t).host - 1)

/-- TCX_T.STATE. -/
def State.tState (s : State) (t : Nat) : Nat := s.fld (thrReg t) F.tcxTState

/-- TCX_T.STATE shows a state; a thread that another core runs shows REHOMED while it runs or waits. -/
def State.setT (s : State) (t v : Nat) : State :=
  s.setFld (thrReg t) F.tcxTState (if (s.thr t).host ≠ 0 ∧ (v = 1 ∨ v = 2) then 6 else v)

/-- TCX_T.STATE shows a state, unless the thread is BRACED. -/
def State.go (s : State) (t v : Nat) : State := if s.tState t = 3 then s else s.setT t v

/-- The thread runs and waits for nothing. -/
def State.runs (s : State) (t : Nat) : Bool := (s.tState t == 1 || s.tState t == 6) && (s.thr t).wait == 0

/-- A register of a thread; x0 is zero. -/
def State.treg (s : State) (t i : Nat) : Nat := if i = 0 then 0 else KMap.get (s.thr t).regs 0 i

/-- The state with a register of a thread written; x0 discards. -/
def State.setTreg (s : State) (t i v : Nat) : State :=
  if i = 0 then s else s.setThr t { s.thr t with regs := KMap.set (s.thr t).regs 0 i (v % 2 ^ 64) }

def tPc : Nat := 64
def tFcsr : Nat := 65
def tMode : Nat := 66
def tTrap : Nat := 67
def tStatus : Nat := 68
def tVec : Nat := 69
def tEpc : Nat := 70
def tCause : Nat := 71
def tVal : Nat := 72
def tCycle : Nat := 78

/-- A trap into M-mode; one that meets a trap still held stops the thread as FAULTED (R245). -/
def State.trap (s : State) (t cause tval : Nat) : State :=
  if s.treg t tTrap ≠ 0 then (s.setT t 5).setFld (thrReg t) F.tcxTCause (s.treg t tCause % 256)
  else
    let st := s.treg t tStatus
    let st' := setBit (setBit (setBit (setBit st 7 (st.testBit 3)) 3 false) 11 (s.treg t tMode != 0)) 12 (s.treg t tMode != 0)
    let s := (((s.setTreg t tEpc (s.treg t tPc)).setTreg t tCause cause).setTreg t tVal tval).setTreg t tStatus st'
    ((s.setTreg t tTrap 1).setTreg t tMode 3).setTreg t tPc (s.treg t tVec / 4 * 4)

/-- What the base instructions of a thread left in its registers, in order (log 21): a 0 for TRAP is an mret, another value a trap of
a base instruction with that mcause plus one, and nothing is left by a thread that stopped. The cycle CSR only rises. -/
def State.lead (s : State) (t : Nat) (l : List (Nat × Nat)) : State :=
  l.foldl (fun s p =>
    if !(s.runs t) then s
    else if p.1 = tTrap then (if p.2 = 0 then s.setTreg t tTrap 0 else s.trap t (p.2 - 1) (s.treg t tVal))
    else if p.1 = tCycle then s.setTreg t tCycle (max p.2 (s.treg t tCycle))
    else if p.1 < 98 then s.setTreg t p.1 p.2
    else s) s

/-- An instruction of a thread ends: its result in rd, and the pc moves on. -/
def State.retire (s : State) (t rd v : Nat) : State :=
  let s := (s.setTreg t rd v).setTreg t tPc (s.treg t tPc + 4)
  (s.setThr t { s.thr t with wait := 0 }).go t 1

/-- A thread waits on an instruction: 1 a token, 2 a word, 3 an assist entry. -/
def State.tWait (s : State) (t w word : Nat) : State := (s.setThr t { s.thr t with wait := w, word := word }).go t 2

/-! ### L1 data caches (R243, R248) -/

/-- All 64 bytes of a line. -/
def fullMask : Nat := 2 ^ 64 - 1

/-- The L1 of a tile core. -/
def State.l1Of (s : State) (c : Nat) : List L1Line := KMap.get s.l1 [] c

/-- The state with the L1 of a tile core. -/
def State.setL1 (s : State) (c : Nat) (l : List L1Line) : State := { s with l1 := KMap.set s.l1 [] c l }

/-- A line of an L1, empty where there is none. -/
def State.l1Line (s : State) (c l : Nat) : L1Line :=
  ((s.l1Of c).find? (fun e => e.line == l)).getD ⟨l, 0, 0, false, List.replicate 64 0, 0⟩

/-- The dirty bytes of a line written back to the point of coherence (R248). -/
def State.flushLine (s : State) (e : L1Line) (own : Option Nat) : State :=
  if e.dirty = 0 then s else s.wrMask e.line e.dirty e.data own

/-- Room for a new line: of 512 lines, one goes, its dirty bytes written back. Which one the spec does not say (log 5). -/
def State.l1Room (s : State) (c : Nat) : State :=
  if (s.l1Of c).length < 512 then s
  else
    let (w, s) := s.draw
    match (s.l1Of c)[w.toNat % 512]? with
    | none => s
    | some e => (s.flushLine e none).setL1 c ((s.l1Of c).filter (fun x => x.line != e.line))

/-- A line of an L1 replaced, or added. -/
def State.putLine (s : State) (c : Nat) (e : L1Line) : State :=
  if (s.l1Of c).any (fun x => x.line == e.line) then s.setL1 c ((s.l1Of c).map (fun x => if x.line = e.line then e else x))
  else
    let s := s.l1Room c
    s.setL1 c (s.l1Of c ++ [e])

/-- A line of an L1 with the bytes that it does not hold fetched. -/
def State.fetched (s : State) (c l : Nat) : L1Line :=
  let e := s.l1Line c l
  { e with have_ := fullMask
           bad := s.bad l 64 || s.cxlDown l
           data := (List.range 64).map (fun i => if e.have_.testBit i then e.data.getD i 0 else s.byte (l + i))
           unsaid := 0 }

/-- A clean fill of the bytes that a line does not hold. -/
def State.fill (s : State) (c l : Nat) : State := (s.putLine c (s.fetched c l)).noteCxl l 64 true

/-- A prefetched line (R271): what it met is reported when a consumer reads it, and it writes no dirty line back. -/
def State.fillAhead (s : State) (c l : Nat) : State :=
  let e := { s.fetched c l with unsaid := if s.cxlDown l then 1 else if isCxl l && s.bad l 64 then 2 else 0 }
  if (s.l1Of c).length < 512 then s.setL1 c (s.l1Of c ++ [e])
  else
    let (w, s) := s.draw
    match (s.l1Of c)[w.toNat % 512]? with
    | none => s
    | some v => if v.dirty = 0 then s.setL1 c ((s.l1Of c).filter (fun x => x.line != v.line) ++ [e]) else s

/-- A consumer reads a line: what its prefetch met is counted now (R271). -/
def State.sayLine (s : State) (c l : Nat) : State :=
  let e := s.l1Line c l
  if e.unsaid = 0 then s
  else (s.putLine c { e with unsaid := 0 }).addSat R.cxtErr (if e.unsaid = 1 then F.cxtErrLinkDown else F.cxtErrPoison) 1

/-- The lines that [a, a + n) meets. -/
def linesOf (a n : Nat) : List Nat :=
  if n = 0 then [] else (List.range ((a + n - 1) / 64 - a / 64 + 1)).map (fun i => (a / 64 + i) * 64)

/-- The byte mask of the part of [a, a + n) in the line at `l`. -/
def partMask (l a n : Nat) : Nat :=
  (List.range 64).foldl (fun m i => if a ≤ l + i ∧ l + i < a + n then setBit m i true else m) 0

/-- Bytes as the contexts of a core see them: its L1 before memory. -/
def State.coreBytes (s : State) (c a n : Nat) : List Byte :=
  (List.range n).map (fun i =>
    let e := s.l1Line c ((a + i) / 64 * 64)
    if e.have_.testBit ((a + i) % 64) then e.data.getD ((a + i) % 64) 0 else s.byte (a + i))

/-- A cached load: lines that do not hold every byte are filled; a line that was filled with poison answers poison. -/
def State.cachedLoad (s : State) (c a n : Nat) : State :=
  let s := s.forAll (linesOf a n) (fun s l =>
    let m := partMask l a n
    if (s.l1Line c l).have_ &&& m = m then s.sayLine c l else s.fill c l)
  if (linesOf a n).any (fun l => let m := partMask l a n; (s.l1Line c l).bad && (s.l1Line c l).dirty &&& m != m) then s.answer .poison
  else s.answer (.data (s.coreBytes c a n))

/-- A cached store: its bytes become dirty in the L1. -/
def State.cachedStore (s : State) (c a : Nat) (b : List Byte) : State :=
  (s.forAll (linesOf a b.length) (fun s l =>
    let e := s.l1Line c l
    let m := partMask l a b.length
    let d := (List.range 64).map (fun i => if m.testBit i then b.getD (l + i - a) 0 else e.data.getD i 0)
    s.putLine c { e with have_ := e.have_ ||| m, dirty := e.dirty ||| m, data := d })).answer .done

/-- A line lies in the range of an acquire or release; a length of 0 stands for the whole L1 (Table 10-4). -/
def inRange (l a n : Nat) : Bool := decide (n = 0) || meets l a n

/-- A release over a range: dirty bytes go to the point of coherence (R248). -/
def State.release (s : State) (t a n : Nat) : State :=
  let c := s.runCore t
  let s := s.forAll (List.range (s.l1Of c).length) (fun s i =>
    match (s.l1Of c)[i]? with
    | none => s
    | some e => if inRange e.line a n then s.flushLine e (some t) else s)
  s.setL1 c ((s.l1Of c).map (fun e => if inRange e.line a n then { e with dirty := 0 } else e))

/-- An acquire over a range: clean bytes go, dirty bytes stay (R248). -/
def State.acquire (s : State) (t a n : Nat) : State :=
  let c := s.runCore t
  s.setL1 c (((s.l1Of c).map (fun e => if inRange e.line a n then { e with have_ := e.dirty, bad := false } else e)).filter
    (fun e => e.have_ != 0))

/-- Before an AMO, LR or SC: the line's dirty bytes are written back and the line goes (R248). -/
def State.dropLine (s : State) (t l : Nat) : State :=
  let c := s.runCore t
  (s.flushLine (s.l1Line c l) (some t)).setL1 c ((s.l1Of c).filter (fun e => e.line != l))

/-! ### save areas and operation numbers (R249, R250) -/

/-- The thread's save area. -/
def State.saveArea (s : State) (t : Nat) : Nat := s.fld (R.tcxSave (t / 512)) F.tcxSaveBase * 2 ^ 19 + 1024 * (t % 512)

/-- The operation number of a thread. -/
def State.opnum (s : State) (t : Nat) : Nat := s.fld (thrReg t) F.tcxTOpnum

/-- The thread's state written to its save area; `numbered` marks an operation that carries the number saved (log 21). -/
def State.saveThread (s : State) (t : Nat) (numbered : Bool) : State :=
  let a := s.saveArea t
  let rs := fun (l : List Nat) => l.flatMap (fun i => toBytes 8 (s.treg t i))
  let mode := s.treg t tMode + 4 * s.treg t tTrap + (if numbered then 8 else 0)
  let s := s.wr a (rs (List.range 66))
  let s := s.wrN (a + 0x210) 8 (s.opnum t)
  let s := s.wr (a + 0x218) (toBytes 8 mode ++ rs ((List.range 10).map (68 + ·) ++ (List.range 18).map (80 + ·)))
  s.wr (a + 0x300) ((List.range 4).flatMap (fun i => slice (KMap.get (s.thr t).slots [] i) 0 32))

/-- The number of the next operation: incremented, but for an operation that a restart repeats (R250). -/
def State.nextOp (s : State) (t : Nat) : State :=
  if (s.thr t).redo then s.setThr t { s.thr t with redo := false }
  else s.setFld (thrReg t) F.tcxTOpnum ((s.opnum t + 1) % 2 ^ 32)

/-- The answer that an agent kept for this thread's operation number (R250). -/
def State.kept (s : State) (agent t : Nat) : Option Nat :=
  match KMap.find s.recs (agent * 2048 + t) with
  | some (n, v) => if n = s.opnum t then some v else none
  | none => none

/-- The agent keeps an answer. -/
def State.keep (s : State) (agent t v : Nat) : State :=
  { s with recs := KMap.put s.recs (agent * 2048 + t) (s.opnum t, v) }

/-- A release point that acts outside the core: the number, the save area, and (where the operation releases) the whole L1. -/
def State.sendPoint (s : State) (t : Nat) (rel : Bool) : State :=
  let s := (s.nextOp t).saveThread t true
  if rel then s.release t 0 0 else s

/-- A halt or a release before a reset (R245, R246): the state is saved and the L1 released. -/
def State.retreat (s : State) (t : Nat) : State := ((s.saveThread t false).release t 0 0)

/-! ### stream slots (R255, R271) -/

/-- A stream descriptor in range. -/
def streamOk (d : List Byte) : Bool :=
  let size := numAt d 20 2
  let ahead := numAt d 22 1
  decide (1 ≤ size) && decide (size ≤ 4096) && decide (1 ≤ ahead) && decide (ahead ≤ 64) && decide (numAt d 23 1 = 1) &&
    decide (numAt d 24 8 = 0)

/-- The element of a stream that an address falls in. -/
def streamElem (d : List Byte) (a : Nat) : Option Nat :=
  let base : Int := numAt d 0 8
  let st := sint 64 (numAt d 8 8)
  let size : Int := numAt d 20 2
  let x : Int := a
  let i : Int := if st = 0 then 0 else if 0 < st then (x - base) / st else if x < base then (base - x + (-st) - 1) / (-st) else 0
  if 0 ≤ i ∧ i < numAt d 16 4 ∧ base + i * st ≤ x ∧ x < base + i * st + size then some i.toNat else none

/-- The lines of element `i`, none where it leaves the address space. -/
def streamLines (d : List Byte) (i : Nat) : List Nat :=
  let a : Int := (numAt d 0 8 : Int) + i * sint 64 (numAt d 8 8)
  if 0 ≤ a then linesOf a.toNat (numAt d 20 2) else []

/-- A load of a thread prefetches for each of its streams that it falls in (R255): clean lines of the stake's cached memory. -/
def State.prefetch (s : State) (t k a : Nat) : State :=
  s.forAll (List.range 4) (fun s i =>
    let d := KMap.get (s.thr t).slots [] i
    match (if streamOk d then streamElem d a else none) with
    | none => s
    | some e =>
      s.forAll ((List.range (numAt d 22 1)).map (e + 1 + ·)) (fun s j =>
        if numAt d 16 4 ≤ j then s
        else s.forAll (streamLines d j) (fun s l =>
          if (s.inHbmOf k l 64 || inCxl l 64) && !(s.err l 64) && (s.l1Line (s.runCore t) l).have_ == 0 then s.fillAhead (s.runCore t) l else s)))

/-! ### a thread's accesses (R244, R256, R260) -/

/-- The stake of a thread's tile core; of none for a core that has none. -/
def State.tStake (s : State) (t : Nat) : Option Nat := s.tcOwner (coreOf t)

/-- The configuration byte of PMP entry `i` of a thread. -/
def State.pmpCfg (s : State) (t i : Nat) : Nat := bits (s.treg t (80 + i / 8)) (8 * (i % 8)) 8

/-- The addresses [lo, hi) of PMP entry `i`, as the RISC-V privileged architecture gives them (log 51). -/
def State.pmpRange (s : State) (t i : Nat) : Nat × Nat :=
  let x := s.treg t (82 + i)
  let m := x ^^^ (x + 1)
  match bits (s.pmpCfg t i) 3 2 with
  | 1 => (if i = 0 then 0 else 4 * s.treg t (81 + i), 4 * x)
  | 2 => (4 * x, 4 * x + 4)
  | 3 => (4 * (x - x % (m + 1)), 4 * (x - x % (m + 1)) + 4 * (m + 1))
  | _ => (0, 0)

/-- The PMP entries of a thread let mode `md` make an access of kind `x` (0 read, 1 write, 2 fetch) to [a, a + n) (R243). -/
def State.pmpMay (s : State) (t md a n x : Nat) : Bool :=
  match firstOf 16 (fun i => decide (max a (s.pmpRange t i).1 < min (a + n) (s.pmpRange t i).2)) with
  | none => md == 3
  | some i => decide ((s.pmpRange t i).1 ≤ a) && decide (a + n ≤ (s.pmpRange t i).2) &&
      ((md == 3 && !((s.pmpCfg t i).testBit 7)) || (s.pmpCfg t i).testBit x)

/-- The mode of a thread's loads and stores: its own, or that of MPP where MPRV is set (log 51). -/
def State.dataMode (s : State) (t : Nat) : Nat :=
  if (s.treg t tStatus).testBit 17 then bits (s.treg t tStatus) 11 2 else s.treg t tMode

/-- The thread may make an access of kind `x` to [a, a + n): memory of its stake (R244), no error, and its PMP entries let it. -/
def State.tMay (s : State) (t a n x : Nat) : Bool :=
  match s.tStake t with
  | none => false
  | some k => s.inStake k a n && !(s.err a n) && s.pmpMay t (if x = 2 then s.treg t tMode else s.dataMode t) a n x

/-! ### fetches (R243, R244) -/

/-- The lines of the instruction L1 of a tile core. -/
def State.il1Of (s : State) (c : Nat) : List Nat := KMap.get s.il1 [] c

/-- The state with those lines. -/
def State.setIl1 (s : State) (c : Nat) (l : List Nat) : State := { s with il1 := KMap.set s.il1 [] c l }

/-- A line fetched into the instruction L1: of 256 lines one goes; which one the spec does not say (log 5). -/
def State.ifill (s : State) (c l : Nat) : State :=
  if (s.il1Of c).contains l || isSpadStride l then s
  else
    let s := s.noteCxl l 64 true
    if (s.il1Of c).length < 256 then s.setIl1 c (s.il1Of c ++ [l])
    else
      let (w, s) := s.draw
      s.setIl1 c ((s.il1Of c).eraseIdx (w.toNat % 256) ++ [l])

/-- A command of a thread: its base instructions first, then the fetch of its own `n` bytes, an instruction access fault where the
thread may not fetch them, and then what it does. -/
def State.asThread (s : State) (t : Nat) (lead : List (Nat × Nat)) (n : Nat) (act : State → State) : State :=
  if !(s.runs t) then s
  else
    let s := s.lead t lead
    if !(s.runs t) then s
    else if !(s.tMay t (s.treg t tPc) n 2) then s.trap t 1 (s.treg t tPc)
    else act (s.forAll (linesOf (s.treg t tPc) n) (fun s l => s.ifill (s.runCore t) l))

/-! ### Xritar (R247) -/

def xRd (w : Nat) : Nat := bits w 7 5
def xRs1 (w : Nat) : Nat := bits w 15 5
def xRs2 (w : Nat) : Nat := bits w 20 5

/-- One Xritar instruction of a thread that runs: a word of another instruction is no such event; a bad funct7 or a non-zero
unused field traps; else it acts, with the values of rs1 and rs2. -/
def State.xritar (s : State) (t : Nat) (lead : List (Nat × Nat)) (f3 word : Nat) (unused : List Nat)
    (act : State → Nat → Nat → State) : State :=
  if word % 128 ≠ 0x0B ∨ bits word 12 3 ≠ f3 ∨ 2 ^ 32 ≤ word then s
  else
    s.asThread t lead 4 (fun s =>
      if bits word 25 7 ≠ 0 ∨ unused.any (fun f => bits word f 5 ≠ 0) then s.trap t 2 word
      else act s (s.treg t (xRs1 word)) (s.treg t (xRs2 word)))

/-- rt.acq. -/
def State.rtAcq (s : State) (t : Nat) (lead : List (Nat × Nat)) (word : Nat) : State :=
  s.xritar t lead 0 word [7] (fun s a n => (s.acquire t a n).retire t 0 0)

/-- rt.rel: a release point of its own. -/
def State.rtRel (s : State) (t : Nat) (lead : List (Nat × Nat)) (word : Nat) : State :=
  s.xritar t lead 1 word [7] (fun s a n => ((s.saveThread t false).release t a n).retire t 0 0)

/-- rt.tpost (R252). -/
def State.rtTpost (s : State) (t : Nat) (lead : List (Nat × Nat)) (word : Nat) : State :=
  s.xritar t lead 2 word [7, 20] (fun s c _ =>
    match s.tStake t with
    | none => s
    | some k =>
      let s := s.sendPoint t true
      let s := if (s.kept (20 + k) t).isSome then s else (s.extPost k (2 ^ (c % 64))).keep (20 + k) t 0
      s.retire t 0 0)

/-- A take that was served: its answer in rd, and the L1 acquired. -/
def State.taken (s : State) (t v : Nat) : State :=
  let rd := xRd (s.thr t).word
  (s.acquire t 0 0).retire t rd v

/-- Thread `t` joins the queue of stake `k` for its counter `c` and waits; an answer kept for this operation number ends it (R250). -/
def State.takeWait (s : State) (t k c word : Nat) : State :=
  let s := (s.sendPoint t false).tWait t 1 word
  (s.kept (20 + k) t).elim { s with takes := s.takes ++ [(k, t, c)] } (fun v => s.taken t v)

/-- rt.ttake (R252): it joins the PSQ's queue and waits. -/
def State.rtTtake (s : State) (t : Nat) (lead : List (Nat × Nat)) (word : Nat) : State :=
  s.xritar t lead 3 word [20] (fun s c _ =>
    match s.tStake t with
    | none => s
    | some k => s.takeWait t k (c % 64) word)

/-- TTAKE_SERVE (R252): the earliest waiting take of the stake whose counter holds a token takes it. -/
def State.ttakeServe (s : State) (k : Nat) : State :=
  match s.takes.find? (fun e => decide (e.1 = k) && decide (1 ≤ s.tok k e.2.2)) with
  | none => s
  | some e =>
    let v := s.tok k e.2.2
    let s := { s with takes := s.takes.filter (fun x => !(x == e)) }
    (((s.setTok k e.2.2 (v - 1)).ctxThrough k).keep (20 + k) e.2.1 v).taken e.2.1 v

/-- rt.twait reads its word: it ends where the word is large enough, else it waits and has a watch (R254). A word that reads as
poison, or cannot be read, ends no wait. -/
def State.twaitRead (s : State) (t word a v : Nat) : State :=
  let good := !(s.unreadable a 8)
  let w := s.num a 8
  if good && decide (v ≤ w) then (s.acquire t 0 0).retire t (xRd word) w
  else (if isSpadStride a then s else s.addWatch (homeOf a) (lineOf a) (s.runCore t)).tWait t 2 word

/-- rt.twait (R254). -/
def State.rtTwait (s : State) (t : Nat) (lead : List (Nat × Nat)) (word : Nat) : State :=
  s.xritar t lead 4 word [] (fun s a v =>
    if a % 8 ≠ 0 then s.trap t 4 a
    else if !(s.tMay t a 8 0) then s.trap t 5 a
    else s.twaitRead t word a v)

/-- TWAIT_REREAD (R254): a WAKE, taken here, or 4,096 tile cycles. -/
def State.twaitReread (s : State) (t : Nat) : State :=
  let c := s.thr t
  let a := s.treg t (xRs1 c.word)
  if c.wait ≠ 2 then s
  else ({ s with wakes := s.wakes.filter (fun w => !(w == (s.runCore t, lineOf a))) } : State).twaitRead t c.word a (s.treg t (xRs2 c.word))

/-- The assist is appended to the ring of PVU `p` and its number returned, or the thread waits for a free entry (R116, R253). -/
def State.apostSend (s : State) (t p a word : Nat) : State :=
  match s.kept (36 + p) t with
  | some v => s.retire t (xRd word) v
  | none =>
    let c := s.pv p
    if 64 ≤ c.head - c.tail then s.tWait t 3 word
    else
      let b := s.coreBytes (s.runCore t) a 16
      let s := (s.wr (s.fld (R.vecPvuAq p) F.vecPvuAqBase * 4096 + 16 * (c.head % 64)) b).setPv p { c with head := c.head + 1 }
      ((s.syncPvu p).keep (36 + p) t c.head).retire t (xRd word) c.head

/-- rt.apost (R253). A thread that waits for an entry tries again. -/
def State.rtApost (s : State) (t : Nat) (lead : List (Nat × Nat)) (word : Nat) : State :=
  let c := s.thr t
  if c.wait = 3 then
    s.apostSend t (s.treg t (xRs1 c.word) % 8) (s.treg t (xRs2 c.word)) c.word
  else
    s.xritar t lead 5 word [] (fun s p a =>
      let p := p % 8
      if s.tStake t ≠ s.pvuOwner p ∨ (s.pvuOwner p).isNone ∨ ¬ s.flag (R.vecPvuAq p) F.vecPvuAqEnable then s.trap t 7 a
      else if !(s.tMay t a 16 0) then s.trap t 5 a
      else (s.sendPoint t true).apostSend t p a word)

/-- rt.sdesc (R255): a descriptor outside its ranges empties the slot. -/
def State.rtSdesc (s : State) (t : Nat) (lead : List (Nat × Nat)) (word : Nat) : State :=
  s.xritar t lead 6 word [7] (fun s i a =>
    if !(s.tMay t a 32 0) then s.trap t 5 a
    else
      let d := s.coreBytes (s.runCore t) a 32
      let good := streamOk d && !((linesOf a 32).any (fun l => s.bad l 64))
      (s.setThr t { s.thr t with slots := KMap.set (s.thr t).slots [] (i % 4) (if good then d else []) }).retire t 0 0)

/-- rt.sstop (R247). -/
def State.rtSstop (s : State) (t : Nat) (lead : List (Nat × Nat)) (word : Nat) : State :=
  s.xritar t lead 7 word [7, 20] (fun s i _ =>
    (s.setThr t { s.thr t with slots := KMap.erase (s.thr t).slots (i % 4) }).retire t 0 0)

/-! ### launch and halt (R245) -/

/-- The thread leaves its waits. -/
def State.unwait (s : State) (t : Nat) : State :=
  let s := { s with takes := s.takes.filter (fun e => e.2.1 != t) }
  s.setThr t { s.thr t with wait := 0 }

/-- A thread halts, after a release (R245). -/
def State.haltThread (s : State) (t : Nat) : State := ((s.retreat t).unwait t).setT t 4

/-- A refused LAUNCH in TCX_ERR. -/
def State.tcxErr (s : State) (d code core thread : Nat) : State :=
  s.setReg (R.tcxErr d) ((((0 : Word).setFld F.tcxErrCode code).setFld F.tcxErrCore core).setFld F.tcxErrThread thread)

/-- LAUNCH of a thread (R245). -/
def State.launch (s : State) (d core thread : Nat) : State :=
  let t := d * 512 + core * 8 + thread
  match s.tStake t with
  | none => s.tcxErr d 1 core thread
  | some k =>
    if s.tState t ≠ 0 ∧ s.tState t ≠ 4 then s.tcxErr d 2 core thread
    else if s.failTc.testBit (coreOf t) then s.answer .error
    else
      let s := s.setThr t .idle
      let s := ((s.setTreg t tPc (s.fld (R.tcxLaunchPc d) F.tcxLaunchPcPc * 2)).setTreg t 10 (s.reg (R.tcxLaunchArg d)).toNat).setTreg t tMode 3
      (s.setFld (thrReg t) F.tcxTStake k).setT t 1

/-- CMD 2 (R245): a thread that is not IDLE, HALTED or FAULTED halts. -/
def State.haltCmd (s : State) (d core thread : Nat) : State :=
  let t := d * 512 + core * 8 + thread
  if s.tState t = 0 ∨ s.tState t = 4 ∨ s.tState t = 5 then s else s.haltThread t

/-- WFI of a thread (R245). -/
def State.wfi (s : State) (t : Nat) (lead : List (Nat × Nat)) : State :=
  s.asThread t lead 4 (fun s =>
    if s.treg t tMode = 0 then
      if (s.treg t tStatus).testBit 21 then s.trap t 2 0x10500073 else s.retire t 0 0
    else if (s.treg t tStatus).testBit 3 then s.retire t 0 0
    else (s.setTreg t tPc (s.treg t tPc + 4)).haltThread t)

/-! ### restarts (R246, R250) -/

/-- A thread restarts from its save area on core `host` of its die (plus one; 0 its own). -/
def State.restart (s : State) (t host : Nat) : State :=
  let a := s.saveArea t
  let w := fun (s : State) (o : Nat) => s.num (a + o) 8
  let s := s.unwait t
  let s := s.setThr t { Thread.idle with host := host, redo := (w s 0x218).testBit 3 }
  let s := s.forAll (List.range 66) (fun s i => s.setTreg t i (w s (8 * i)))
  let s := (s.setTreg t tMode (w s 0x218 % 4)).setTreg t tTrap (bits (w s 0x218) 2 1)
  let s := s.forAll (List.range 10) (fun s i => s.setTreg t (68 + i) (w s (0x220 + 8 * i)))
  let s := s.forAll (List.range 18) (fun s i => s.setTreg t (80 + i) (w s (0x270 + 8 * i)))
  let s := s.forAll (List.range 4) (fun s i =>
    let d := s.bytes (a + 0x300 + 32 * i) 32
    if streamOk d then s.setThr t { s.thr t with slots := KMap.set (s.thr t).slots [] i d } else s)
  ((s.setFld (thrReg t) F.tcxTOpnum (s.num (a + 0x210) 4)).setFld (thrReg t) F.tcxTHost (host - 1)).setT t 1

/-- The threads of the tile cores of a mask. -/
def threadsOf (mask : Nat) : List Nat :=
  (onesOf 256 mask).flatMap (fun c => (List.range 8).map (fun i => (c / 64) * 512 + (c % 64) * 8 + i))

/-- A stake's threads stall at their next instruction boundary, or go on (Table 10-3). -/
def State.braceThreads (s : State) (k : Nat) (on : Bool) : State :=
  s.forAll (threadsOf (s.stake k).tc) (fun s t =>
    if on then (if s.tState t = 1 ∨ s.tState t = 2 ∨ s.tState t = 6 then s.setFld (thrReg t) F.tcxTState 3 else s)
    else if s.tState t = 3 then s.setT t (if (s.thr t).wait = 0 then 1 else 2)
    else s)

/-- Threads of a stake reset: IDLE, L1 lines dropped (Table 10-3). -/
def State.idleThreads (s : State) (mask : Nat) : State :=
  let s := s.forAll (onesOf 256 mask) (fun s c => (s.setL1 c []).setIl1 c [])
  s.forAll (threadsOf mask) (fun s t => ((s.unwait t).setThr t .idle).setT t 0)

/-- Threads of cores that leave a stake release and halt (Table 10-3). -/
def State.haltThreads (s : State) (mask : Nat) : State :=
  s.forAll (threadsOf mask) (fun s t => if s.tState t = 0 ∨ s.tState t = 4 ∨ s.tState t = 5 then s else s.haltThread t)

/-! ### meanings -/

/-- TCX_LAUNCH CMD 1. -/
def execTcxLaunch (m : Master) (rivals : List Master) (d : Fin 4) (core : Fin 64) (thread : Fin 8) (s : State) :
    Host.Outcome State Fault Refusal := .next (s.command m rivals (R.tcxLaunch d) (fun s => s.launch d core thread))
/-- TCX_LAUNCH CMD 2. -/
def execTcxHalt (m : Master) (rivals : List Master) (d : Fin 4) (core : Fin 64) (thread : Fin 8) (s : State) :
    Host.Outcome State Fault Refusal := .next (s.command m rivals (R.tcxLaunch d) (fun s => s.haltCmd d core thread))
/-- WFI. -/
def execWfi (t : Fin 2048) (lead : List (Nat × Nat)) (s : State) : Host.Outcome State Fault Refusal := .next (s.wfi t lead)
/-- rt.acq. -/
def execRtAcq (t : Fin 2048) (lead : List (Nat × Nat)) (word : Nat) (s : State) : Host.Outcome State Fault Refusal :=
  .next (s.rtAcq t lead word)
/-- rt.rel. -/
def execRtRel (t : Fin 2048) (lead : List (Nat × Nat)) (word : Nat) (s : State) : Host.Outcome State Fault Refusal :=
  .next (s.rtRel t lead word)
/-- rt.tpost. -/
def execRtTpost (t : Fin 2048) (lead : List (Nat × Nat)) (word : Nat) (s : State) : Host.Outcome State Fault Refusal :=
  .next (s.rtTpost t lead word)
/-- rt.ttake. -/
def execRtTtake (t : Fin 2048) (lead : List (Nat × Nat)) (word : Nat) (s : State) : Host.Outcome State Fault Refusal :=
  .next (s.rtTtake t lead word)
/-- TTAKE_SERVE. -/
def execTtakeServe (k : Fin 16) (s : State) : Host.Outcome State Fault Refusal := .next (s.ttakeServe k)
/-- rt.twait. -/
def execRtTwait (t : Fin 2048) (lead : List (Nat × Nat)) (word : Nat) (s : State) : Host.Outcome State Fault Refusal :=
  .next (s.rtTwait t lead word)
/-- TWAIT_REREAD. -/
def execTwaitReread (t : Fin 2048) (s : State) : Host.Outcome State Fault Refusal := .next (s.twaitReread t)
/-- rt.apost. -/
def execRtApost (t : Fin 2048) (lead : List (Nat × Nat)) (word : Nat) (s : State) : Host.Outcome State Fault Refusal :=
  .next (s.rtApost t lead word)
/-- rt.sdesc. -/
def execRtSdesc (t : Fin 2048) (lead : List (Nat × Nat)) (word : Nat) (s : State) : Host.Outcome State Fault Refusal :=
  .next (s.rtSdesc t lead word)
/-- rt.sstop. -/
def execRtSstop (t : Fin 2048) (lead : List (Nat × Nat)) (word : Nat) (s : State) : Host.Outcome State Fault Refusal :=
  .next (s.rtSstop t lead word)

end Sys2Proof.Machine
end

