-- ==== Sys2Proof/Machine/Coh.lean ====
section
/-! DEFINITION. Home agents: directories, trackers, snoops, atomics, watches and reservations (R272-R286). Memory holds the
value at the point of coherence; directories and caches hold states. -/

namespace Sys2Proof.Machine

/-- The directory entry of a line. -/
def Home.entry (m : Home) (l : Nat) : Option DirEnt := m.dir.find? (fun e => e.line == l)

/-- The directory with an entry for a line. -/
def Home.setEntry (m : Home) (e : DirEnt) : Home := { m with dir := m.dir.filter (fun x => x.line != e.line) ++ [e] }

/-- The directory without the line's entry where that holds nobody. -/
def Home.sweep (m : Home) (l : Nat) : Home := { m with dir := m.dir.filter (fun x => !(x.line == l && x.holders == 0)) }

/-- The holders of a line's entry changed. -/
def Home.holders (m : Home) (l : Nat) (f : Nat → Nat) : Home :=
  { m with dir := m.dir.map (fun x => if x.line = l then { x with holders := f x.holders } else x) }

/-- The directory without a line. -/
def Home.dropEntry (m : Home) (l : Nat) : Home := { m with dir := m.dir.filter (fun x => x.line != l) }

/-- The tracker with number `id`. -/
def Home.tracker (m : Home) (id : Nat) : Option Tracker := m.tracks.find? (fun t => t.id == id)

/-- The number of the next tracker: past every one so far. -/
def Home.fresh (m : Home) : Nat := m.tracks.foldl (fun n t => max n (t.id + 1)) m.next

/-- A tracker replaced. -/
def Home.setTracker (m : Home) (t : Tracker) : Home := { m with tracks := m.tracks.map (fun x => if x.id = t.id then t else x) }

/-- A home updated. -/
def State.modHome (s : State) (h : Nat) (f : Home → Home) : State := s.setHome h (f (s.home h))

/-- COH_AGE.THRESHOLD; 0 acts as 1. -/
def State.ageLimit (s : State) : Nat := max 1 (s.fld R.cohAge F.cohAgeThreshold)

/-- A count field that wraps. -/
def State.bump (s : State) (a : Nat) (f : Fld) (n : Nat) : State := s.setFld a f (s.fld a f + n)

/-- COH_ERR (R284, R285, Table 11-4). -/
def State.cohErr (s : State) (code h agent : Nat) : State :=
  s.setReg R.cohErr ((((0 : Word).setFld F.cohErrCode code).setFld F.cohErrHome h).setFld F.cohErrAgent agent)

/-- A line poisoned by its home: the poison code word in memory, no entry and no copy, watches fired, the first address recorded
(R284). -/
def State.homePoison (s : State) (l : Nat) : State :=
  let s := ((s.wrPoison l 64).touch l 64 none).modEvent F.hifMEvtCohPoison
  if s.flag R.cohPoisonAddr F.cohPoisonAddrValid then s
  else (s.setFld R.cohPoisonAddr F.cohPoisonAddrAddr (l / 64)).setFld R.cohPoisonAddr F.cohPoisonAddrValid 1

/-- A copy granted to a caching agent. -/
def State.copyTo (s : State) (l agent : Nat) (owned : Bool) : State :=
  { s with copies := s.copies.filter (fun c => !(c.1 == l && c.2.1 == agent)) ++ [(l, agent, owned)] }

/-- Copies of a line dropped, but for one agent's. -/
def State.dropCopies (s : State) (l keep : Nat) : State :=
  { s with copies := s.copies.filter (fun c => !(c.1 == l && c.2.1 != keep)) }

/-- Watches on a line fire (R283). -/
def State.fire (s : State) (h l : Nat) : State :=
  let w := (s.home h).wakes l 64
  ({ s with wakes := s.wakes ++ w } : State).modHome h (fun m => { m with watches := m.watches.filter (fun w => !(meets w.1 l 64)) })

/-- RETRY (R278): the home records the request. -/
def State.retryReq (s : State) (h : Nat) (r : HomeReq) : State :=
  let s := s.modHome h (fun m => { m with retry := m.retry ++ [(m.next, r, false)], next := m.next + 1 })
  (s.bump (R.cohHCntRetry h) F.cohHCntRetryRetries 1).answer .retry

/-- The slice of a home's die, as an agent (Table 11-1). -/
def sliceOf (h : Nat) : Nat := if h < 4 then 64 else 65 + (h - 4) / 4

/-- A tile thread's operation that carries a number (R250). -/
def HomeReq.numbered (r : HomeReq) : Bool := decide (112 ≤ r.who) && (r.kind == .atomic || r.kind == .sc)

/-- A tracker completes with an answer, which is also kept for a tile thread's operation (R281); an entry left with no holder is
freed. -/
def State.homeDone (s : State) (h : Nat) (t : Tracker) (r : Resp) (keepAs : Option Nat) : State :=
  let s := s.modHome h (fun m => (m.setTracker { t with phase := 4, victim := none, snoops := [], ans := r }).sweep (lineOf t.req.addr))
  let s := match keepAs with
    | some v => if t.req.numbered then { s with recs := KMap.put s.recs (h * 2048 + (t.req.who - 112)) (t.req.opnum, v) } else s
    | none => s
  s.answer r

/-- What a value answers: 2^64 stands for poison. -/
def valueResp (v : Nat) : Resp := if v = 2 ^ 64 then .poison else .value v

/-- The tile thread of a request, whose own reservation its writes keep (R282). -/
def HomeReq.thread (r : HomeReq) : Option Nat := if 112 ≤ r.who then some (r.who - 112) else none

/-- The bytes of a number at their places in its line. -/
def placed (a n v : Nat) : List Byte := List.replicate (a % 64) 0 ++ toBytes n v

/-- An operation on a number in memory at the home (R280, Table 7-6): the old value, none where the line cannot be read. -/
def State.atomHere (s : State) (r : HomeReq) : Option Nat × State :=
  let l := lineOf r.addr
  let old := s.num r.addr r.size
  if s.unreadable l 64 then (none, s)
  else (some old, s.wrMask l (partMask l r.addr r.size) (placed r.addr r.size (atomicNew r.op r.size old r.a r.b)) r.thread)

/-- The home's action, with every snoop answered (Table 11-3, R280, R282); `bad`: the line was poisoned on the way. A line of the CXL
range that no decoder covers gets an error response (R269). -/
def State.homeAct (s : State) (h : Nat) (t : Tracker) (bad : Bool) : State :=
  let r := t.req
  let l := lineOf r.addr
  let s := s.noteCxl l 64 (r.kind != .wrFull && r.kind != .wrMasked)
  let rd := if bad || s.unreadable l 64 then Resp.poison else Resp.none
  let dead := s.stackLost l || (isCxl l && s.cxlDown l)
  let line := fun st => if rd = .poison then .poison else Resp.line st (s.bytes l 64)
  if s.err l 64 then s.homeDone h t .error none
  else match r.kind with
  | .rdShared =>
    let s' := if bad then s else
      let e := ((s.home h).entry l).getD ⟨l, false, 0, (s.home h).stamp⟩
      (s.modHome h (fun m => { m.setEntry { e with owned := false, holders := setBit e.holders r.who true } with stamp := m.stamp + 1 })).copyTo l r.who false
    s'.homeDone h t (line 0) none
  | .rdUnique =>
    let s' := if bad then s else
      let e := ((s.home h).entry l).getD ⟨l, true, 0, (s.home h).stamp⟩
      let s := s.modHome h (fun m => { m.setEntry { e with owned := true, holders := 2 ^ r.who } with stamp := m.stamp + 1 })
      ((s.dropCopies l r.who).copyTo l r.who true).fire h l
    s'.homeDone h t (line 1) none
  | .rdOnce => s.homeDone h t (line 2) none
  | .wrFull =>
    if dead then s.homeDone h t .error none
    else
      let s := s.wr l (slice r.data 0 64)
      let s := if r.alloc then
          (s.modHome h (fun m => { m.setEntry ⟨l, false, 2 ^ sliceOf h, m.stamp⟩ with stamp := m.stamp + 1 })).copyTo l (sliceOf h) false
        else s
      s.homeDone h t .done none
  | .wrMasked => if dead then s.homeDone h t .error none else (s.wrMask l r.mask (slice r.data 0 64) none).homeDone h t .done none
  | .watch =>
    (s.addWatch h l (s.runCore (r.who - 112))).homeDone h t (if rd = .poison then .poison else .value (s.num r.addr 8)) none
  | .lr =>
    ({ s with resv := KMap.put s.resv (r.who - 112) l } : State).homeDone h t (if rd = .poison then .poison else .value (s.num r.addr r.size)) none
  | .sc =>
    let ok := KMap.find s.resv (r.who - 112) == some l && !dead
    let s := { s with resv := KMap.erase s.resv (r.who - 112) }
    let s := if ok then s.wrMask l (partMask l r.addr r.size) (placed r.addr r.size r.a) r.thread else s
    s.homeDone h t (.value (if ok then 0 else 1)) (some (if ok then 0 else 1))
  | .atomic =>
    let (old, s) := if bad then (none, s) else s.atomHere r
    let v := old.getD (2 ^ 64)
    ((s.fire h l).bump (R.cohHCntAtom h) F.cohHCntAtomHome 1).homeDone h t (valueResp v) (some v)

/-- An ATOMIC goes on to the quay unit of its octet (R280); no unit of the pair left, the home answers an error (R189). -/
def State.homeFar (s : State) (h : Nat) (t : Tracker) : State :=
  let r := t.req
  let q := octetOf r.addr
  if s.quayLost q then s.homeDone h t .error none
  else
    let s := s.modHome h (fun m => m.setTracker { t with phase := 3, victim := none, snoops := [] })
    (s.setQu q { s.qu q with trig := (s.qu q).trig ++ [.atom ⟨h + 20 * t.id, r.op, r.addr, r.size, r.a, r.b⟩] }).bump (R.cohHCntAtom h) F.cohHCntAtomQuay 1

/-- What the home does once no snoop of the request's own line is open. -/
def State.homeServe (s : State) (h : Nat) (t : Tracker) (bad : Bool) : State :=
  if t.far && !bad then s.homeFar h t else s.homeAct h t bad

/-- The snoops that a request needs beside an eviction: the agents (Table 11-3). -/
def snoopsFor (r : HomeReq) (e : Option DirEnt) (stands : Bool) : List Nat :=
  match e with
  | none => []
  | some e =>
    match r.kind with
    | .rdShared | .rdOnce | .watch | .lr => if e.owned then (onesOf 69 e.holders).filter (· ≠ r.who) else []
    | .rdUnique => (onesOf 69 e.holders).filter (· ≠ r.who)
    | .wrFull | .wrMasked | .atomic => onesOf 69 e.holders
    | .sc => if stands then onesOf 69 e.holders else []

/-- A request that needs an entry allocates one (R275). -/
def needsEntry (r : HomeReq) : Bool := r.kind == .rdShared || r.kind == .rdUnique || (r.kind == .wrFull && r.alloc)

/-- The request's own part, its entry being at hand: snoops, the quay unit, or the action at once. An entry that reads
uncorrectable names nobody, and every agent is snooped (Table 11-4). -/
def State.homeRun (s : State) (h : Nat) (t : Tracker) : State :=
  let r := t.req
  let l := lineOf r.addr
  let e := (s.home h).entry l
  let lost := r.ecc == 2 && e.isSome
  let sn := if lost then List.range 69 else snoopsFor r e (KMap.find s.resv (r.who - 112) == some l)
  let s := if lost then (s.cohErr 3 h r.who).modHome h (fun m => m.holders l (fun _ => 0)) else s
  if sn ≠ [] then s.modHome h (fun m => m.setTracker { t with phase := 2, victim := none, snoops := sn.map (fun a => (a, 0)) })
  else s.homeServe h t false

/-- The oldest entry of a list that is not open (R275). -/
def victimOf (m : Home) (l : List DirEnt) : Option DirEnt :=
  (l.filter (fun e => !(m.isOpen e.line))).foldl (fun b e => match b with
    | none => some e
    | some x => if e.stamp < x.stamp then some e else some x) none

/-- GRANT to the recorded request with the highest AGE, ties to the lowest agent number (R278): called where a tracker has freed. -/
def Home.grantOne (m : Home) : Home :=
  let best := (m.retry.filter (fun p => !p.2.2)).foldl (fun (b : Option (Nat × HomeReq × Bool)) p => match b with
    | none => some p
    | some x => if x.2.1.age < p.2.1.age ∨ (x.2.1.age = p.2.1.age ∧ p.2.1.who < x.2.1.who) then some p else some x) none
  { m with retry := match best with
    | none => m.retry
    | some b => m.retry.map (fun p => if p.1 = b.1 then (p.1, p.2.1, true) else p) }

/-- A tracker freed, and the GRANT that this sends. -/
def Home.freed (m : Home) (id : Nat) : Home := ({ m with tracks := m.tracks.filter (fun x => x.id != id) } : Home).grantOne

/-- A transaction begins where its line is not OPEN: it allocates an entry, evicting a victim of a full set, or gets RETRY and
frees its tracker (R275). -/
def State.homeBegin (s : State) (h id : Nat) : State :=
  let m := s.home h
  match m.tracker id with
  | none => s
  | some t =>
    let l := lineOf t.req.addr
    if t.phase ≠ 0 ∨ m.isOpen l then s
    else
      let s := if t.req.ecc = 1 then s.addSat (R.cohHStatus h) F.cohHStatusEccCorr 1 else s
      let ways := m.dir.filter (fun e => Config.dirSet h e.line % 65536 == Config.dirSet h l % 65536)
      if needsEntry t.req ∧ (m.entry l).isNone ∧ 16 ≤ ways.length then
        match victimOf m ways with
        | none => (s.modHome h (fun m => m.freed id)).retryReq h t.req
        | some v =>
          let s := s.count (R.cohHCntEvict h) 1
          let sn := onesOf 69 v.holders
          if sn = [] then (s.modHome h (fun m => m.dropEntry v.line)).homeRun h t
          else s.modHome h (fun m => m.setTracker { t with phase := 1, victim := some v.line, snoops := sn.map (fun a => (a, 0)) })
      else s.homeRun h t

/-- Requests that wait on their line run in the order in which they took their trackers (R278, R279). -/
def State.homeWake (s : State) (h : Nat) : State :=
  s.forAll ((s.home h).tracks.map (·.id)) (fun s id => s.homeBegin h id)

/-- The home has seen this operation of a thread: the answer it kept, or none while the first is still open (R281). -/
def State.homeSeen (s : State) (h : Nat) (r : HomeReq) : Option (Option Nat) :=
  if !r.numbered then none
  else
    let same := fun (x : HomeReq) => x.numbered && x.who == r.who && x.opnum == r.opnum
    match KMap.find s.recs (h * 2048 + (r.who - 112)) with
    | some (n, v) =>
      if n = r.opnum then some (some v)
      else if (s.home h).tracks.any (fun t => same t.req) then some none else none
    | none => if (s.home h).tracks.any (fun t => same t.req) then some none else none

/-- What a kept value answers: a poisoned or a plain old value, or the result of an SC. -/
def HomeReq.keptAs (r : HomeReq) (v : Nat) : Resp := if r.kind = .sc then .value v else valueResp v

/-- The home decides where an ATOMIC executes as it assigns the tracker (R280): at the quay unit for an HBM line that has no entry. -/
def State.goesFar (s : State) (h : Nat) (r : HomeReq) : Bool :=
  r.kind == .atomic && isHbm r.addr && ((s.home h).entry (lineOf r.addr)).isNone

/-- A request reaches its home: it takes a tracker, or is answered RETRY (R278); a home in reset answers an error (R370), and an
operation that the home has seen is not performed again (R281). -/
def State.homeReq (s : State) (h : Nat) (r : HomeReq) : State :=
  if homeOf r.addr ≠ h ∨ ¬ (isHbm r.addr ∨ isCxl r.addr) then s
  else if !(s.domainUp 6) then s.answer .error
  else match s.homeSeen h r with
  | some (some v) => s.answer (r.keptAs v)
  | some none => s
  | none =>
    let m := s.home h
    let used := (m.tracks.filter (fun t => !t.rsvd)).length
    let rs := (m.tracks.filter (fun t => t.rsvd)).length
    let old := (m.retry.filter (fun p => decide (r.age < p.2.1.age) && decide (s.ageLimit ≤ p.2.1.age))).length
    let rsvd := decide (254 ≤ used)
    if rsvd ∧ ¬ (s.ageLimit ≤ r.age ∧ rs + old < 2) then s.retryReq h r
    else
      let s := if rsvd then s.addSat (R.cohHCntRetry h) F.cohHCntRetryReservedUsed 1 else s
      let far := s.goesFar h r
      let s := s.modHome h (fun m => { m with tracks := m.tracks ++ [⟨m.fresh, r, rsvd, far, 0, none, [], .none⟩], next := m.fresh + 1 })
      s.homeBegin h m.fresh

/-- Every snoop of a transaction is answered: an eviction frees its way and the request goes on; else the home acts. -/
def State.homeNext (s : State) (h : Nat) (t : Tracker) (bad : Bool) : State :=
  let s := match t.victim with
    | some v => (s.modHome h (fun m => m.dropEntry v)).homeRun h { t with phase := 0, victim := none, snoops := [] }
    | none => s.homeServe h t bad
  s.homeWake h

/-- The snoops of a tracker change, and the transaction goes on where none is left. -/
def State.snoopsLeft (s : State) (h : Nat) (t : Tracker) (l : List (Nat × Nat)) : State :=
  if l = [] then s.homeNext h { t with snoops := [] } false else s.modHome h (fun m => m.setTracker { t with snoops := l })

/-- The line that a tracker's snoops are for. -/
def Tracker.line (t : Tracker) : Nat := t.victim.getD (lineOf t.req.addr)

/-- SNOOP: the agent invalidates, shares or copies, and its answer is on the way (R279, Table 11-4). -/
def State.snoop (s : State) (h agent tid : Nat) (wback : Bool) : State :=
  match (s.home h).tracker tid with
  | none => s
  | some t =>
    if !(t.snoops.contains (agent, 0)) then s
    else
      let l := t.line
      let c := (s.copies.find? (fun c => c.1 == l && c.2.1 == agent)).map (fun c => c.2.2)
      let wb := wback && c == some true
      let ans := if wb then 3 else if c = some true then 2 else 1
      let inval := t.victim.isSome || t.req.ecc == 2 || !([ReqKind.rdShared, .rdOnce, .watch, .lr].contains t.req.kind)
      let s := if inval || wb then { s with copies := s.copies.filter (fun x => !(x.1 == l && x.2.1 == agent)) }
        else if t.req.kind = .rdShared ∧ c = some true then s.copyTo l agent false
        else s
      s.modHome h (fun m => m.setTracker { t with snoops := t.snoops.map (fun x => if x = (agent, 0) then (agent, ans) else x) })

/-- R284 and R285: the line of the transaction is poisoned and the transaction completes. -/
def State.snoopPoison (s : State) (h : Nat) (t : Tracker) (code agent : Nat) : State :=
  let s := ((s.homePoison t.line).cohErr code h agent)
  s.homeNext h t true

/-- An answer that reaches the home; a late one is discarded (R285). -/
def State.takeAnswer (s : State) (h agent tid : Nat) (err : Bool) : State :=
  let m := s.home h
  match m.tracker tid with
  | none =>
    if m.late.contains (agent, tid) then
      (s.modHome h (fun m => { m with late := m.late.erase (agent, tid) })).bump (R.cohHCntTimeout h) F.cohHCntTimeoutLate 1
    else s
  | some t =>
    match t.snoops.find? (fun x => x.1 == agent) with
    | none =>
      if m.late.contains (agent, tid) then
        (s.modHome h (fun m => { m with late := m.late.erase (agent, tid) })).bump (R.cohHCntTimeout h) F.cohHCntTimeoutLate 1
      else s
    | some x =>
      let rest := t.snoops.filter (fun y => y.1 != agent)
      if err then
        let own := match m.entry t.line with
          | some e => e.owned && e.holders.testBit agent
          | none => false
        let s := { s with copies := s.copies.filter (fun c => !(c.1 == t.line && c.2.1 == agent)) }
        if own then s.snoopPoison h t 2 agent else s.snoopsLeft h t rest
      else if x.2 = 0 ∨ 4 ≤ x.2 then s
      else if x.2 = 3 then
        s.modHome h (fun m => m.setTracker { t with snoops := t.snoops.map (fun y => if y = x then (agent, 4) else y) })
      else s.snoopsLeft h t rest

/-- SNOOP_ANSWER, but for one that PTB_HOME discards: its snoop stays unanswered (R390). -/
def State.snoopAnswer (s : State) (h agent tid : Nat) (err : Bool) : State :=
  match (s.home h).tracker tid with
  | none => s.takeAnswer h agent tid err
  | some t =>
    if t.snoops.any (fun x => x.1 == agent && (decide (x.2 ≠ 0) || err)) then
      let (lost, s) := s.ptbHome h agent
      if lost then s.modHome h (fun m => m.setTracker { t with snoops := t.snoops.map (fun y => if y.1 = agent then (agent, 5) else y) })
      else s.takeAnswer h agent tid err
    else s.takeAnswer h agent tid err

/-- SNOOP_TIMEOUT (R284): the unanswered snoops of the transaction time out and become late. One answered NONE_WB is no longer
timed: its write-back always arrives (Table 11-4). -/
def State.snoopTimeout (s : State) (h tid : Nat) : State :=
  match (s.home h).tracker tid with
  | none => s
  | some t =>
    match t.snoops.filter (fun y => y.2 != 4) with
    | [] => s
    | x :: l =>
      let s := s.modHome h (fun m => { m with late := m.late ++ (x :: l).map (fun y => (y.1, tid)) })
      (s.bump (R.cohHCntTimeout h) F.cohHCntTimeoutTimeouts (x :: l).length).snoopPoison h t 1 x.1

/-- WBACK (Table 11-3): the holder is removed; a home that waits for the write-back takes it as the snoop's data (Table 11-4). -/
def State.wback (s : State) (h agent a : Nat) : State :=
  let l := lineOf a
  if homeOf l ≠ h then s
  else
    match (s.home h).tracks.find? (fun t => t.line == l && t.snoops.any (fun x => x.1 == agent && decide (3 ≤ x.2))) with
    | some t =>
      let s := s.modHome h (fun m => m.holders l (fun v => setBit v agent false))
      if t.snoops.contains (agent, 4) then s.snoopsLeft h t (t.snoops.filter (fun y => y.1 != agent))
      else s.modHome h (fun m => m.setTracker { t with snoops := t.snoops.map (fun y => if y.1 = agent then (agent, 1) else y) })
    | none =>
      if !(s.copies.contains (l, agent, true)) then s
      else
        let s := { s with copies := s.copies.filter (fun c => !(c == (l, agent, true))) }
        s.modHome h (fun m => match m.entry l with
          | none => m
          | some e =>
            let e' := { e with holders := setBit e.holders agent false }
            if e'.holders = 0 ∧ !(m.isOpen l) then m.dropEntry l else m.setEntry e')

/-- TRACKER_FREE (R278): a completed transaction frees its tracker, and GRANT goes to a recorded request. -/
def State.trackerFree (s : State) (h : Nat) : State :=
  match (s.home h).tracks.find? (fun t => t.phase == 4) with
  | none => s
  | some t => s.modHome h (fun m => m.freed t.id)

/-- GRANT (R278): the requester sends its request again, AGE increased by 1. -/
def State.grant (s : State) (h tid : Nat) : State :=
  match (s.home h).retry.find? (fun p => p.1 == tid && p.2.2) with
  | none => s
  | some p =>
    (s.modHome h (fun m => { m with retry := m.retry.filter (fun x => x.1 != tid) })).homeReq h { p.2.1 with age := p.2.1.age + 1 }

/-- QUAY_ATOMIC_RETURN (R280): the old value returns; the home closes the transaction and answers. -/
def State.quayReturn (s : State) (h tid : Nat) : State :=
  match (s.home h).tracker tid with
  | none => s
  | some t =>
    let key := h + 20 * tid
    match (List.range 16).find? (fun q => (s.qu q).olds.any (fun o => o.1 == key)) with
    | none => s
    | some q =>
      if t.phase ≠ 3 then s
      else
        let v := (((s.qu q).olds.find? (fun o => o.1 == key)).getD (0, 0)).2
        let s := s.setQu q { s.qu q with olds := (s.qu q).olds.filter (fun o => o.1 != key) }
        let s := s.touch (lineOf t.req.addr) 64 t.req.thread
        (s.homeDone h t (valueResp v) (some v)).homeWake h

/-! ### requests by thread and by agent -/

/-- A request with no payload. -/
def plainReq (k : ReqKind) (who a age ecc : Nat) : HomeReq := ⟨k, who, a, age, 0, [], false, .add, 8, 0, 0, 0, ecc⟩

/-- Number of a requester (HomeReq). -/
def reqNum : Requester → Nat
  | .core n => n
  | .host => 69
  | .sec => 70
  | .unit k => 80 + k
  | .tile t => 112 + t

/-- The widths and alignment of Table 7-6; FP32 operations are 4 bytes wide. -/
def atomOk (op : AtomOp) (a size : Nat) : Bool :=
  (size == 4 || (size == 8 && !(op == .addF || op == .minF || op == .maxF))) && a % size == 0

/-- A tile thread's AMO, LR or SC before its request (R244, R248, R260): it traps outside the cached memory of its stake, or its line
leaves the L1; `kinds` are the accesses that the PMP must let it make; `act` sends. -/
def State.tileAtom (s : State) (t : Nat) (lead : List (Nat × Nat)) (a size : Nat) (load : Bool) (kinds : List Nat) (act : State → State) :
    State :=
  s.asThread t lead 4 (fun s =>
    if a % size ≠ 0 then s.trap t (if load then 4 else 6) a
    else if isSpadStride a ∨ !(kinds.all (fun x => s.tMay t a size x)) then s.trap t (if load then 5 else 7) a
    else act (s.dropLine t (lineOf a)))

/-- A numbered operation of thread `t` (R281) goes to its home, which answers a repeat from its record. -/
def State.numbered (s : State) (h t : Nat) (q : HomeReq) : State :=
  let s := (s.nextOp t).saveThread t true
  s.homeReq h { q with opnum := s.opnum t }

/-- The home of an access is not `h`: no such request reaches it. -/
def elsewhere (h a : Nat) : Bool := (isHbm a || isCxl a) && homeOf a != h

/-- What the base instructions of server core `c` left in its registers (log 21); x0 and the time CSR discard. -/
def State.coreLead (s : State) (c : Nat) (l : List (Nat × Nat)) : State :=
  l.foldl (fun s p => if p.1 = 0 ∨ p.1 = 4096 + 0xC01 ∨ 8199 ≤ p.1 then s else s.setCore c p.1 (p.2 % 2 ^ (if 128 ≤ p.1 ∧ p.1 < 160 then 256 else if 8192 ≤ p.1 then 2048 else 64))) s

/-- A CSR of server core `c` as the core reads it: the time CSR is the one count of the S-die (R241), and STIP of mip (bit 5) is
the comparison of stimecmp with it. -/
def State.coreCsr (s : State) (c n : Nat) : Nat :=
  let v := KMap.get (s.coreRegs c) 0 (4096 + n)
  if n = 0xC01 then s.time
  else if n = 0x344 then setBit v 5 (decide (KMap.get (s.coreRegs c) 0 (4096 + 0x14D) ≤ s.time))
  else v

/-- Server core `c` writes its own copy of a line that it owns: reservations of others clear, and no home is asked (R280, R282). -/
def State.ownWrite (s : State) (c a : Nat) (d : List Byte) : State :=
  let s := (s.setBytes a d).cleanse a d.length
  { s with resv := s.resv.filter (fun p => !(meets p.2 a d.length) || p.1 == 2048 + c) }

/-- Server core `c` owns the lines that [a, a + n) meets. -/
def State.owns (s : State) (c a n : Nat) : Bool := (linesOf a n).all (fun l => s.copies.contains (l, c, true))

/-- An AMO of server core `c` in its own L2, on a line in state O (R280). -/
def State.coreAtom (s : State) (c : Nat) (op : AtomOp) (a size x y : Nat) : State :=
  if s.bad a size then s.answer .poison
  else
    let old := s.num a size
    (s.ownWrite c a (toBytes size (atomicNew op size old x y))).answer (.value old)

/-- A host AtomicOp reaches memory through BAR2 only: the link up, the window enabled, and the address in it (R309). -/
def State.hostReaches (s : State) (a n : Nat) : Bool :=
  let b := s.fld R.hifWin F.hifWinBase * 2 ^ 26
  s.flag R.hifStatus F.hifStatusLinkUp && !s.pci.d3 && s.flag R.hifWin F.hifWinEn && s.wrapperOpen R.hifWin && decide (b ≤ a) &&
    decide (a + n ≤ b + 2 ^ 26)

/-- ATOMIC (R280, R281). -/
def State.atomicReq (s : State) (h : Nat) (r : Requester) (lead : List (Nat × Nat)) (op : AtomOp) (a age ecc size x y : Nat) : State :=
  let q : HomeReq := ⟨.atomic, reqNum r, a, age, 0, [], false, op, size, x, y, 0, ecc⟩
  let go := fun (s : State) => if !(isHbm a || isCxl a) ∨ !(atomOk op a size) then s.answer .error else s.homeReq h q
  if size ≠ 4 ∧ size ≠ 8 ∨ elsewhere h a then s
  else
    match r with
    | .tile t =>
      if !(atomOk op 0 size) then s
      else s.tileAtom t lead a size false [0, 1] (fun s => s.numbered h t q)
    | .core c =>
      let s := s.coreLead c lead
      if s.owns c a size && atomOk op a size then s.coreAtom c op a size x y else go s
    | .host => if s.hostReaches a size then go s else s
    | _ => go s

/-- LR (R282): of a tile thread at the home; of a server core in its own L2, on a line in state O. -/
def State.lrReq (s : State) (h : Nat) (r : Requester) (lead : List (Nat × Nat)) (a age ecc size : Nat) : State :=
  if size ≠ 4 ∧ size ≠ 8 ∨ elsewhere h a then s
  else match r with
  | .tile t => s.tileAtom t lead a size true [0] (fun s => s.homeReq h { plainReq .lr (112 + t) a age ecc with size := size })
  | .core c =>
    let s := s.coreLead c lead
    if !(isHbm a || isCxl a) then s.answer .error
    else if a % size ≠ 0 ∨ !(s.owns c a size) then s
    else ({ s with resv := KMap.put s.resv (2048 + c) (lineOf a) } : State).answer (if s.bad a size then .poison else .value (s.num a size))
  | _ => s

/-- SC (R282): of a tile thread a numbered operation either way; of a server core in its own L2, failing where the reservation or the
line has gone. -/
def State.scReq (s : State) (h : Nat) (r : Requester) (lead : List (Nat × Nat)) (a age ecc size v : Nat) : State :=
  if size ≠ 4 ∧ size ≠ 8 ∨ elsewhere h a then s
  else match r with
  | .tile t =>
    s.tileAtom t lead a size false [1] (fun s => s.numbered h t { plainReq .sc (112 + t) a age ecc with size := size, a := v })
  | .core c =>
    let s := s.coreLead c lead
    if !(isHbm a || isCxl a) then s.answer .error
    else if a % size ≠ 0 then s
    else
      let good := KMap.find s.resv (2048 + c) == some (lineOf a) && s.owns c a size
      let s := { s with resv := KMap.erase s.resv (2048 + c) }
      if good then (s.ownWrite c a (toBytes size v)).answer (.value 0) else s.answer (.value 1)
  | _ => s

/-- The stake holds ways in the slice of die `d` (R15, R279). -/
def State.holdsWays (s : State) (k d : Nat) : Bool := (s.stake k).ways.getD (d + 1) 0 != 0

/-- The slices, as agents, in which a stake holds ways of `ways` (R15). -/
def waySlices (ways : List Nat) : List Nat := ((List.range 5).filter (fun i => ways.getD i 0 != 0)).map (64 + ·)

/-- Ways of a stake written back and invalidated in the slices `ag`: the copies of lines of its memory go, and the homes forget them
(Table 11-4; log 53). -/
def State.dropWays (s : State) (k : Nat) (ag : List Nat) : State :=
  let mine := fun (l : Nat) => s.inHbmOf k l 64 || inCxl l 64
  { s with
    copies := s.copies.filter (fun c => !(ag.contains c.2.1 && mine c.1))
    homes := s.homes.map (fun (p : Nat × Home) => (p.1, { p.2 with
      dir := (p.2.dir.map (fun e => if mine e.line then { e with holders := ag.foldl (fun m a => setBit m a false) e.holders } else e)).filter
        (fun e => e.holders != 0 || p.2.isOpen e.line) })) }

/-- A slice reads for a unit of stake `k` with RD_ONCE only where the stake holds no ways in it (R279). -/
def State.onceMay (s : State) (who : Nat) : Bool :=
  if 80 ≤ who ∧ who < 96 then (List.range 4).any (fun d => !(s.holdsWays (who - 80) d)) else true

/-- A die's slice allocates, with RD_SHARED, only where some stake holds ways in it (R279). -/
def State.sharedMay (s : State) (agent : Nat) : Bool :=
  if 65 ≤ agent then (List.range 16).any (fun k => s.enabled k && s.holdsWays k (agent - 65)) else true

/-- RD_SHARED. -/
def execRdShared (h : Fin 20) (agent : Fin 69) (addr age dirEcc : Nat) (s : State) : Host.Outcome State Fault Refusal :=
  .next (if s.sharedMay agent then s.homeReq h (plainReq .rdShared agent addr age dirEcc) else s)
/-- RD_UNIQUE. -/
def execRdUnique (h : Fin 20) (agent : Fin 69) (addr age dirEcc : Nat) (s : State) : Host.Outcome State Fault Refusal :=
  .next (s.homeReq h (plainReq .rdUnique agent addr age dirEcc))
/-- RD_ONCE. -/
def execRdOnce (h : Fin 20) (who : Fin 112) (addr age dirEcc : Nat) (s : State) : Host.Outcome State Fault Refusal :=
  .next (if s.onceMay who then s.homeReq h (plainReq .rdOnce who addr age dirEcc) else s)
/-- WR_FULL. -/
def execWrFull (h : Fin 20) (who : Fin 112) (addr age dirEcc : Nat) (alloc : Bool) (data : List Byte) (s : State) :
    Host.Outcome State Fault Refusal :=
  .next (s.homeReq h { plainReq .wrFull who addr age dirEcc with data := data, alloc := alloc })
/-- WR_MASKED. -/
def execWrMasked (h : Fin 20) (who : Fin 112) (addr age dirEcc mask : Nat) (data : List Byte) (s : State) :
    Host.Outcome State Fault Refusal :=
  .next (s.homeReq h { plainReq .wrMasked who addr age dirEcc with data := data, mask := mask })
/-- ATOMIC. -/
def execAtomic (h : Fin 20) (r : Requester) (lead : List (Nat × Nat)) (op : AtomOp) (addr age dirEcc size a b : Nat) (s : State) :
    Host.Outcome State Fault Refusal := .next (s.atomicReq h r lead op addr age dirEcc size a b)
/-- WATCH. -/
def execWatch (h : Fin 20) (t : Fin 2048) (addr age dirEcc : Nat) (s : State) : Host.Outcome State Fault Refusal :=
  .next (if addr % 8 = 0 then s.homeReq h (plainReq .watch (112 + t) addr age dirEcc) else s)
/-- WBACK. -/
def execWback (h : Fin 20) (agent : Fin 69) (addr : Nat) (s : State) : Host.Outcome State Fault Refusal := .next (s.wback h agent addr)
/-- GRANT. -/
def execGrant (h : Fin 20) (tid : Nat) (s : State) : Host.Outcome State Fault Refusal := .next (s.grant h tid)
/-- TRACKER_FREE. -/
def execTrackerFree (h : Fin 20) (s : State) : Host.Outcome State Fault Refusal := .next (s.trackerFree h)
/-- SNOOP. -/
def execSnoop (h : Fin 20) (agent : Fin 69) (tid : Nat) (wback : Bool) (s : State) : Host.Outcome State Fault Refusal :=
  .next (s.snoop h agent tid wback)
/-- SNOOP_ANSWER. -/
def execSnoopAnswer (h : Fin 20) (agent : Fin 69) (tid : Nat) (err : Bool) (s : State) : Host.Outcome State Fault Refusal :=
  .next (s.snoopAnswer h agent tid err)
/-- SNOOP_TIMEOUT. -/
def execSnoopTimeout (h : Fin 20) (tid : Nat) (s : State) : Host.Outcome State Fault Refusal := .next (s.snoopTimeout h tid)
/-- QUAY_ATOMIC_RETURN. -/
def execQuayAtomicReturn (h : Fin 20) (tid : Nat) (s : State) : Host.Outcome State Fault Refusal := .next (s.quayReturn h tid)
/-- LR. -/
def execLr (h : Fin 20) (r : Requester) (lead : List (Nat × Nat)) (addr age dirEcc size : Nat) (s : State) :
    Host.Outcome State Fault Refusal := .next (s.lrReq h r lead addr age dirEcc size)
/-- SC. -/
def execSc (h : Fin 20) (r : Requester) (lead : List (Nat × Nat)) (addr age dirEcc size v : Nat) (s : State) :
    Host.Outcome State Fault Refusal := .next (s.scReq h r lead addr age dirEcc size v)

end Sys2Proof.Machine
end

