-- ==== Sys2Proof/Machine/Psqc.lean ====
section
/-! DEFINITION. PSQ commands as register writes: PSQ_CMD, PSQ_POST and PSQ_xLIMIT (R120, R126, R137, R140, R143, R144). -/

namespace Sys2Proof.Machine

/-- A PSQ command by its CMD value; other values have no effect. -/
def State.psqDo (s : State) (k cmd skip : Nat) : State :=
  if cmd = 1 then s.psqStart k
  else if cmd = 2 then s.psqStop k
  else if cmd = 3 then s.psqResume k skip State.asuRebuild
  else if cmd = 4 then s.psqRestore k
  else s

/-- START. -/
def execStart (m : Master) (rivals : List Master) (k : Fin 16) (s : State) : Host.Outcome State Fault Refusal :=
  .next (s.command m rivals (R.psqCmd k) (fun s => s.psqDo k 1 0))
/-- STOP. -/
def execStop (m : Master) (rivals : List Master) (k : Fin 16) (s : State) : Host.Outcome State Fault Refusal :=
  .next (s.command m rivals (R.psqCmd k) (fun s => s.psqDo k 2 0))
/-- RESUME with SKIP. -/
def execResume (m : Master) (rivals : List Master) (k : Fin 16) (skip : Nat) (s : State) : Host.Outcome State Fault Refusal :=
  .next (s.command m rivals (R.psqCmd k) (fun s => s.psqDo k 3 (skip % 8)))
/-- RESTORE. -/
def execRestore (m : Master) (rivals : List Master) (k : Fin 16) (s : State) : Host.Outcome State Fault Refusal :=
  .next (s.command m rivals (R.psqCmd k) (fun s => s.psqDo k 4 0))
/-- PSQ_POST: every counter whose mask bit is set (R126). -/
def execPsqPost (m : Master) (k : Fin 16) (mask : Nat) (s : State) : Host.Outcome State Fault Refusal :=
  .next (s.command m [] (R.psqPost k) (fun s => s.extPost k (mask % 2 ^ 64)))

/-- A write of LIMIT; one below INDEX gets an error response (R120). -/
def State.limitWrite (s : State) (k x v : Nat) : State :=
  let r := s.setLimit k x (v % 2 ^ 64)
  if r.2 then r.1 else s.answer .error

/-- PSQ_xLIMIT. -/
def execPsqXlimitWrite (m : Master) (k : Fin 16) (x : Strm) (v : Nat) (s : State) : Host.Outcome State Fault Refusal :=
  .next (s.command m [] (R.psqLimit k x.num) (fun s => s.limitWrite k x.num v))

end Sys2Proof.Machine
end

