-- ==== Sys2Proof/Machine/Hif.lean ====
section
/-! DEFINITION. The host interface's queue pairs, their commands, the pool ring, interrupts, and the journals of accepted work
(R315-R327, R329-R337, R344-R346). -/

namespace Sys2Proof.Machine

/-! ### queue pairs -/

/-- The context of a queue pair. -/
def State.hqOf (s : State) (n : Nat) : Hq := KMap.get s.hq .idle n

/-- The state with the context of a queue pair. -/
def State.setHq (s : State) (n : Nat) (c : Hq) : State := { s with hq := KMap.set s.hq .idle n c }

/-- The context of a queue pair changed. -/
def State.modHq (s : State) (n : Nat) (f : Hq → Hq) : State := s.setHq n (f (s.hqOf n))

/-- HIF_Q_CFG.OWNER: a stake, or 0xFF for the pool. -/
def State.qpOwner (s : State) (n : Nat) : Nat := s.fld (R.hifQCfg n) F.hifQCfgOwner

/-- The queue pair belongs to the server-core pool. -/
def State.isPool (s : State) (n : Nat) : Bool := s.qpOwner n == 0xFF

/-- HIF_Q_CFG.DEPTH. -/
def State.depth (s : State) (n : Nat) : Nat := s.fld (R.hifQCfg n) F.hifQCfgDepth

/-- Bytes of a submission entry (R317). -/
def State.esize (s : State) (n : Nat) : Nat := if s.flag (R.hifQCfg n) F.hifQCfgEsize then 512 else 64

/-- HIF_Q_STATUS.STATE: 0 DISABLED, 1 ACTIVE, 2 ERROR. -/
def State.qState (s : State) (n : Nat) : Nat := s.fld (R.hifQStatus n) F.hifQStatusState

/-- [a, a + len) lies in the memory of the queue pair's owner (R323). -/
def State.inOwner (s : State) (n a len : Nat) : Bool :=
  if s.isPool n then s.inShared a len else s.inStake (s.qpOwner n) a len

/-- Acceptance is held: brace, a stake reset of the owner (Table 13-8), a warm pre-phase (Table 14-4), or the owner quiesces for a
partial re-weave (R348). -/
def State.acceptHeld (s : State) (n : Nat) : Bool :=
  s.lk.warnLow || s.flag R.lkStatus F.lkStatusWrst ||
    (!(s.isPool n) && (s.flag (R.psqStatus (s.qpOwner n)) F.psqStatusStopQuiesce || s.inStakeReset (s.qpOwner n)))

/-! ### interrupts (R325) -/

/-- The target of a queue pair is signalled, where interrupts are enabled. -/
def State.irqSend (s : State) (n : Nat) : State :=
  let a := R.hifQIrq n
  if s.flag a F.hifQIrqEn then
    s.signal (s.flag a F.hifQIrqTarget) (s.fld a F.hifQIrqVector) (s.fld a F.hifQIrqHart) (s.fld a F.hifQIrqEiid)
  else s

/-- A pending set that has reached COUNT (0 acts as 1), or has no delay, is signalled once. -/
def State.irqCheck (s : State) (n : Nat) : State :=
  let c := s.hqOf n
  let a := R.hifQIrq n
  if c.irq ≠ [] ∧ !c.sent ∧ s.flag a F.hifQIrqEn ∧ (max 1 (s.fld a F.hifQIrqCount) ≤ c.irq.length ∨ s.fld a F.hifQIrqTime = 0) then
    (s.setHq n { c with sent := true }).irqSend n
  else s

/-- IRQ_TIMER: TIME has passed since the first pending entry. -/
def State.irqTimer (s : State) (n : Nat) : State :=
  let c := s.hqOf n
  if c.irq ≠ [] ∧ !c.sent ∧ s.flag (R.hifQIrq n) F.hifQIrqEn then (s.setHq n { c with sent := true }).irqSend n else s

/-- The queue pair enters ERROR (R320, R325); one that is in it keeps its code and slot (log 52). -/
def State.qpError (s : State) (n code slot : Nat) : State :=
  if s.qState n = 2 then s
  else ((s.setFld (R.hifQStatus n) F.hifQStatusState 2).setReg (R.hifQErr n)
    (((0 : Word).setFld F.hifQErrCode code).setFld F.hifQErrSlot slot)).irqSend n

/-! ### completion entries (R322) -/

/-- The 24 bytes before PHASE. -/
def cqBytes (n seq result cid sqhead status kind : Nat) : List Byte :=
  toBytes 8 seq ++ toBytes 8 result ++ toBytes 2 cid ++ toBytes 2 sqhead ++ toBytes 1 status ++ toBytes 1 kind ++ toBytes 1 n ++ [0]

/-- A completion entry written: its 24 bytes, then PHASE in a write of its own. -/
def State.cqWrite (s : State) (n seq result cid status kind : Nat) : State :=
  let c := s.hqOf n
  let d := s.depth n
  let i := c.cqTail % (2 * d)
  let a := s.fld (R.hifQCq n) F.hifQCqBase * 4096 + 32 * i
  let b := cqBytes n seq result cid (c.h % d) status kind
  let ph := toBytes 8 (if c.cqTail / (2 * d) % 2 = 0 then 1 else 0)
  let s := if s.flag (R.hifQCq n) F.hifQCqHostmem then (s.send (.write a b)).send (.write (a + 24) ph) else (s.wr a b).wr (a + 24) ph
  s.setHq n { c with cqTail := c.cqTail + 1 }

/-- The CQ has room to fetch one more entry: two for each command fetched and not completed, and the DONE entries still to be
written (R322). -/
def State.cqRoom (s : State) (n : Nat) : Bool :=
  let c := s.hqOf n
  let own := 2 * c.hold.length + c.lost.length + (c.run.map (fun x => if x.done then 1 else 2)).sum
  decide (c.cqTail - c.cqHead + own + 2 ≤ 2 * s.depth n)

/-- A write of a completion entry fails on the link (Table 13-8). -/
def State.cqFails (s : State) (n : Nat) (cqOk : Bool) : Bool :=
  s.flag (R.hifQCq n) F.hifQCqHostmem && !(cqOk && s.flag R.hifStatus F.hifStatusLinkUp)

/-- The queue pair enters ERROR with CQ_WRITE. -/
def State.cqLost (s : State) (n : Nat) : State := s.qpError n 3 ((s.hqOf n).cqTail % (2 * s.depth n))

/-- No entry may be written: the queue pair is DISABLED, or in ERROR with CQ_WRITE until RESTART. -/
def State.cqShut (s : State) (n : Nat) : Bool := s.qState n == 0 || s.fld (R.hifQErr n) F.hifQErrCode == 3

/-- A REFUSED entry written and signalled, or kept for RESTART. -/
def State.refuseEntry (s : State) (n cid st : Nat) (cqOk : Bool) : State :=
  if s.cqShut n || s.cqFails n cqOk then (s.modHq n (fun c => { c with lost := c.lost ++ [(cid, st)] })).cqLost n
  else (s.cqWrite n 0 0 cid st 3).irqSend n

/-! ### the journal (R333, R334) -/

/-- Slots of a stake's journal. -/
def State.jSlots (s : State) (k : Nat) : Nat := (s.stake k).jrnlKib - 4

/-- The slot of a sequence number. -/
def State.jSlot (s : State) (k n : Nat) : Nat := (s.stake k).jrnlBase + 4096 + ((n - 1) % s.jSlots k) * 1024

/-- A record header line (Table 14-3). -/
def jHeader (seq epoch state qp esize ack status cid result prog : Nat) : List Byte :=
  toBytes 8 seq ++ toBytes 4 epoch ++ toBytes 1 state ++ toBytes 1 qp ++ toBytes 1 (esize + 2 * ack) ++ toBytes 1 status ++
    toBytes 2 cid ++ List.replicate 6 0 ++ toBytes 8 result ++ toBytes 8 prog ++ List.replicate 24 0

/-- A command's fields. -/
def Cmd.opc (c : Cmd) : Nat := numAt c.entry 0 1
def Cmd.cid (c : Cmd) : Nat := numAt c.entry 4 2
def Cmd.irq (c : Cmd) : Bool := bit (numAt c.entry 2 1) 0

/-- PSQ_JRNL_STATUS.EPOCH. -/
def State.epochOf (s : State) (k : Nat) : Nat := s.fld (R.psqJrnlStatus k) F.psqJrnlStatusEpoch

/-- A record's header line written with a STATE (R334). -/
def State.jWrite (s : State) (k n : Nat) (c : Cmd) (st : Nat) : State :=
  s.wr (s.jSlot k c.seq) (jHeader c.seq (s.epochOf k) st n (if c.entry.length = 512 then 1 else 0) (if c.ack then 1 else 0)
    c.status c.cid c.result c.prog)

/-- PSQ_JRNL_OLDEST: the oldest unretired number, NEXT where there is none. -/
def State.jOldest (s : State) (k : Nat) : State :=
  let next := s.fld (R.psqJrnlNext k) F.psqJrnlNextNext
  let l := (List.range 64).flatMap (fun n => if s.qpOwner n = k then (s.hqOf n).run.map (·.seq) else [])
  s.setFld (R.psqJrnlOldest k) F.psqJrnlOldestOldest (l.foldl min next)

/-- An epoch ends (R344, R345): no command of it executes any more. -/
def State.endEpoch (s : State) (k cause : Nat) : State :=
  if !(s.flag (R.psqJrnlStatus k) F.psqJrnlStatusOpen) then s
  else
    let a := R.psqJrnlStatus k
    let s := ((((s.setFld a F.psqJrnlStatusOpen 0).setFld a F.psqJrnlStatusEnded 1).setFld a F.psqJrnlStatusCause cause).setFld a
      F.psqJrnlStatusFull 0).setFld a F.psqJrnlStatusReplay 0
    let s := s.setReg (R.psqJrnlLast k) (((0 : Word).setFld F.psqJrnlLastLast (s.fld (R.psqJrnlNext k) F.psqJrnlNextNext - 1)).setFld
      F.psqJrnlLastValid 1)
    let s := s.forAll (List.range 64) (fun s n =>
      if s.qpOwner n = k then s.modHq n (fun c => { c with run := [], fin := [], hold := [] }) else s)
    s.stakeEvent k F.hifSEvtEpochEnd

/-- Bytes of a range to zero. -/
def State.zero (s : State) (a n : Nat) : State :=
  (({ s with mem := s.mem.filter (fun p => !(decide (a ≤ p.1) && decide (p.1 < a + n))), undef := cutRange a (a + n) s.undef } : State).cleanse
    a n).touch a n none

/-- A new epoch opens (R346): the next number of the module, every slot free, the header written. -/
def State.openEpoch (s : State) (k : Nat) : State :=
  let b := (s.stake k).jrnlBase
  if s.stackLost b then s
  else
    let e := (s.flash.epoch + 1) % 2 ^ 32
    let s := { s with flash := { s.flash with epoch := e } }
    let s := s.zero b ((s.stake k).jrnlKib * 1024)
    let s := s.wr b ([0x4A, 0x52, 0x4E, 0x4C] ++ toBytes 1 (s.stake k).level ++ toBytes 1 k ++ [0, 0] ++ toBytes 4 e ++ toBytes 4 (s.jSlots k))
    let s := s.setReg (R.psqJrnlStatus k) (((0 : Word).setFld F.psqJrnlStatusEpoch e).setFld F.psqJrnlStatusOpen 1)
    (s.setFld (R.psqJrnlNext k) F.psqJrnlNextNext 1).setFld (R.psqJrnlOldest k) F.psqJrnlOldestOldest 1

/-! ### fetching (R317-R321) -/

/-- The slot whose GEN is due and its generation (R318). -/
def State.qSlot (s : State) (n : Nat) : Nat := (s.hqOf n).h % s.depth n
def State.qGen (s : State) (n : Nat) : Nat := (s.hqOf n).h / s.depth n + 1

/-- HEAD and GEN of HIF_Q_STATUS follow the fetch position. -/
def State.syncHead (s : State) (n : Nat) : State :=
  (s.setFld (R.hifQStatus n) F.hifQStatusHead (s.qSlot n)).setFld (R.hifQStatus n) F.hifQStatusGen (s.qGen n)

/-- Offsets of the operand bytes that a command may use, as ranges (Table 13-5). -/
def operandBytes (opc : Nat) : List (Nat × Nat) :=
  if opc = 0x01 then [(8, 8)]
  else if opc = 0x02 then [(8, 21)]
  else if opc = 0x10 then [(8, 8), (0x1C, 1)]
  else if opc = 0x11 then [(8, 8)]
  else if opc = 0x12 then [(0x1C, 1)]
  else if 0x20 ≤ opc ∧ opc ≤ 0x2F then [(8, 56)]
  else []

/-- Reserved bits or bytes that are not zero. -/
def reservedSet (e : List Byte) : Bool :=
  let opc := numAt e 0 1
  let inlen := numAt e 6 2
  let x := numAt e 0x1C 1
  decide (16 ≤ numAt e 1 1) || decide (2 ≤ numAt e 2 1) ||
    (List.range 56).any (fun i => !((operandBytes opc).any (fun r => decide (r.1 ≤ 8 + i) && decide (8 + i < r.1 + r.2))) && e.getD (8 + i) 0 != 0) ||
    (List.range (e.length - 0x40)).any (fun i => decide (inlen ≤ i) && e.getD (0x40 + i) 0 != 0) ||
    (opc == 0x02 && (decide (4 ≤ x) || decide (numAt e 0x18 4 = 0))) || (opc == 0x10 && decide (3 ≤ x)) || (opc == 0x12 && decide (128 ≤ x))

/-- An address outside the owner's memory, or misaligned. -/
def State.badAddr (s : State) (n : Nat) (e : List Byte) : Bool :=
  let opc := numAt e 0 1
  let x := numAt e 0x1C 1
  let len := numAt e 0x18 4
  if opc = 0x01 then numAt e 8 8 % 64 != 0 || !(s.inOwner n (numAt e 8 8) (numAt e 6 2))
  else if opc = 0x02 then (!(bit x 0) && !(s.inOwner n (numAt e 8 8) len)) || (!(bit x 1) && !(s.inOwner n (numAt e 16 8) len))
  else false

/-- The check of Table 13-7 that refuses an entry, in the order of its codes. -/
def State.refusal (s : State) (n : Nat) (e : List Byte) : Option Nat :=
  let opc := numAt e 0 1
  let inlen := numAt e 6 2
  let pool := decide (0x20 ≤ opc) && decide (opc ≤ 0x2F)
  let k := s.qpOwner n
  if (if s.isPool n then !pool else !([0x00, 0x01, 0x02, 0x10, 0x11, 0x12].contains opc)) then some 0x01
  else if numAt e 1 1 % 16 ≠ s.fld (R.hifQCfg n) F.hifQCfgGranted then some 0x02
  else if reservedSet e then some 0x03
  else if 448 < inlen ∨ (e.length = 64 ∧ (inlen ≠ 0 ∨ opc = 0x01)) then some 0x04
  else if s.badAddr n e then some 0x05
  else if !(s.isPool n) && (!(s.enabled k) || (s.flag (R.psqJrnlStatus k) F.psqJrnlStatusEnded && s.stackLost (s.stake k).jrnlBase)) then some 0x06
  else none

/-- A fetched entry whose GEN matches: REFUSED, or held for acceptance. -/
def State.takeEntry (s : State) (n : Nat) (e : List Byte) (cqOk : Bool) : State :=
  let s := (s.modHq n (fun c => { c with h := (c.h + 1) % (255 * s.depth n), again := 0 })).syncHead n
  match s.refusal n e with
  | some st => s.refuseEntry n (numAt e 4 2) st cqOk
  | none => s.modHq n (fun c => { c with hold := c.hold ++ [e] })

/-- The bytes of the entry at the fetch position: from host memory as it answered, or from module memory; none for an error or
poison. -/
def State.entryBytes (s : State) (n : Nat) (host : Option (List Byte)) : Option (List Byte) :=
  let sz := s.esize n
  let a := s.fld (R.hifQSq n) F.hifQSqBase * 4096 + s.qSlot n * sz
  if s.flag (R.hifQSq n) F.hifQSqHostmem then (if s.flag R.hifStatus F.hifStatusLinkUp then host.map (fun b => slice b 0 sz) else none)
  else if s.unreadable a sz then none
  else some (s.bytes a sz)

/-- SQ_FETCH (R319, R320). -/
def State.sqFetch (s : State) (n : Nat) (host : Option (List Byte)) (cqOk : Bool) : State :=
  let c := s.hqOf n
  if s.qState n ≠ 1 ∨ c.deleting ∨ c.again ≠ 0 ∨ c.h = c.a ∨ !(s.cqRoom n) ∨ s.acceptHeld n then s
  else
    match s.entryBytes n host with
    | none => s.qpError n 4 (s.qSlot n)
    | some e => if numAt e 3 1 = s.qGen n then s.takeEntry n e cqOk else s.setHq n { c with again := 1 }

/-- SQ_REFETCH (R320): 1 µs later; after 8 re-fetches the mismatch is reported. -/
def State.sqRefetch (s : State) (n : Nat) (host : Option (List Byte)) (cqOk : Bool) : State :=
  let c := s.hqOf n
  if s.qState n ≠ 1 ∨ c.deleting ∨ c.again = 0 then s
  else
    let s := s.addSat (R.hifQCnt n) F.hifQCntRefetch 1
    match s.entryBytes n host with
    | none => (s.setHq n { c with again := 0 }).qpError n 4 (s.qSlot n)
    | some e =>
      if numAt e 3 1 = s.qGen n then s.takeEntry n e cqOk
      else if 8 ≤ c.again then (s.setHq n { c with again := 0 }).qpError n 1 (s.qSlot n)
      else s.setHq n { c with again := c.again + 1 }

/-! ### acceptance (R321, R329, R334, R336) -/

/-- The same command of a queue pair: its number, and the enabling of the pool ring (R332). -/
def Cmd.same (c x : Cmd) : Bool := x.seq == c.seq && x.era == c.era

/-- A command replaced. -/
def State.putCmd (s : State) (n : Nat) (c : Cmd) : State :=
  s.modHq n (fun q => { q with run := q.run.map (fun x => if c.same x then c else x) })

/-- The ACCEPT entry of a command, while its queue pair can take one. -/
def State.ackCmd (s : State) (k n : Nat) (c : Cmd) (cqOk : Bool) : State :=
  if s.cqShut n ∨ c.ack then s
  else if s.cqFails n cqOk then s.cqLost n
  else
    let c' := { c with ack := true }
    let s := (s.cqWrite n c.seq 0 c.cid 0 1).putCmd n c'
    if k = 0xFF then s else s.jWrite k n c' (if c.issued then 2 else 1)

/-- A command just delivered: nothing done. -/
def Cmd.new (seq era : Nat) (e : List Byte) : Cmd := ⟨seq, era, e, false, false, false, 0, 0, 0, false⟩

/-- A command accepted with a sequence number. -/
def State.acceptCmd (s : State) (k n seq era : Nat) (e : List Byte) (cqOk : Bool) : State :=
  let c := Cmd.new seq era e
  let s := s.modHq n (fun q => { q with hold := q.hold.tail, run := q.run ++ [c] })
  let s := s.setFld (R.hifQCnt n) F.hifQCntAccepted (s.fld (R.hifQCnt n) F.hifQCntAccepted + 1)
  s.ackCmd k n c cqOk

/-- JOURNAL_COMMIT: the oldest fetched entry of a stake queue pair is accepted as its record commits. -/
def State.jCommit (s : State) (n : Nat) (cqOk : Bool) : State :=
  let k := s.qpOwner n
  match (s.hqOf n).hold with
  | [] => s
  | e :: _ =>
    let st := R.psqJrnlStatus k
    if s.isPool n ∨ s.acceptHeld n ∨ ¬ s.flag st F.psqJrnlStatusOpen ∨ s.flag st F.psqJrnlStatusClosed then s
    else
      let seq := s.fld (R.psqJrnlNext k) F.psqJrnlNextNext
      let a := s.jSlot k seq
      if s.bad a 64 then s.endEpoch k 4
      else if s.num (a + 8) 4 = s.epochOf k ∧ 1 ≤ s.num (a + 12) 1 ∧ s.num (a + 12) 1 ≤ 3 then s.setFld st F.psqJrnlStatusFull 1
      else
        let s := s.setFld st F.psqJrnlStatusFull 0
        let s := s.wr (a + 64) (e ++ List.replicate (960 - e.length) 0)
        let s := s.jWrite k n (.new seq 0 e) 1
        ((s.setFld (R.psqJrnlNext k) F.psqJrnlNextNext (seq + 1)).acceptCmd k n seq 0 e cqOk).jOldest k

/-! ### execution (R323, R335) -/

/-- The oldest accepted command of the given opcodes that has not completed. -/
def State.nextCmd (s : State) (n : Nat) (p : Nat → Bool) : Option Cmd :=
  if s.flag R.lkStatus F.lkStatusWrst then none else (s.hqOf n).run.find? (fun c => !c.done && p c.opc)

/-- Every earlier command of the queue pair has completed. -/
def State.firstLeft (s : State) (n seq : Nat) : Bool := (s.hqOf n).run.all (fun c => c.done || decide (seq ≤ c.seq))

/-- Steps 5 and 6 of Table 14-4: once every replayed PSQ command is DONE the stake resumes, and REPLAY clears once every record is. -/
def State.afterReplay (s : State) (k : Nat) : State :=
  if !(s.flag (R.psqJrnlStatus k) F.psqJrnlStatusReplay) then s
  else
    let cs := (List.range 64).flatMap (fun n => if s.qpOwner n = k then (s.hqOf n).run else [])
    let s := if s.lk.resume.testBit k && cs.all (fun c => c.done || decide (c.opc < 0x10)) then
        let s := s.noResume k
        if s.pst k = stStopped ∧ !(s.stopCause k) then s.psqResume k 0 State.asuRebuild else s
      else s
    if cs.all (fun c => c.done) then s.setFld (R.psqJrnlStatus k) F.psqJrnlStatusReplay 0 else s

/-- A command completes: its record is DONE (R334). -/
def State.finishCmd (s : State) (n : Nat) (c : Cmd) (status result : Nat) : State :=
  let c := { c with issued := true, done := true, status := status, result := result }
  let s := (s.putCmd n c).modHq n (fun q => { q with fin := q.fin ++ [(c.seq, c.era)] })
  if s.isPool n then s else (s.jWrite (s.qpOwner n) n c 3).afterReplay (s.qpOwner n)

/-- NOP completes at issue. -/
def State.hifNop (s : State) (n : Nat) : State :=
  match s.nextCmd n (· == 0x00) with
  | none => s
  | some c => s.finishCmd n c 0 0

/-- WRITE stores its inline bytes. -/
def State.hifWrite (s : State) (n : Nat) : State :=
  match s.nextCmd n (· == 0x01) with
  | none => s
  | some c =>
    let s := (s.putCmd n { c with issued := true }).jWrite (s.qpOwner n) n { c with issued := true } 2
    (s.wr (numAt c.entry 8 8) (slice c.entry 64 (numAt c.entry 6 2))).finishCmd n { c with issued := true } 0 0

/-- Bytes copied to module memory by 64-byte pieces, poison where the source piece is poison; `src` is the source plus one, 0 for host
memory, whose bytes are poison where `poisoned`. -/
def State.copyIn (s : State) (src dst : Nat) (b : List Byte) (poisoned : Bool) : State :=
  s.forAll (List.range (ceilDiv b.length 64)) (fun s i =>
    let d := (b.drop (64 * i)).take 64
    if (if src = 0 then poisoned else s.unreadable (src - 1 + 64 * i) d.length) then s.wrPoison (dst + 64 * i) d.length else s.wr (dst + 64 * i) d)

/-- Bytes sent to host memory in the same way. -/
def State.copyOut (s : State) (src dst : Nat) (b : List Byte) (poisoned : Bool) : State :=
  s.forAll (List.range (ceilDiv b.length 64)) (fun s i =>
    let d := (b.drop (64 * i)).take 64
    if (if src = 0 then poisoned else s.unreadable (src - 1 + 64 * i) d.length) then s.send (.poison (dst + 64 * i) d.length) else s.send (.write (dst + 64 * i) d))

/-- COPY: the oldest copies up to its next 4 KiB boundary and records PROGRESS. -/
def State.copyStep (s : State) (n : Nat) (host : Option (List Byte)) (poisoned hostOk : Bool) : State :=
  match s.nextCmd n (· == 0x02) with
  | none => s
  | some c =>
    if s.lk.warnLow then s
    else
      let e := c.entry
      let x := numAt e 0x1C 1
      let len := numAt e 0x18 4
      let m := min 4096 (len - c.prog)
      let src := numAt e 8 8 + c.prog
      let dst := numAt e 16 8 + c.prog
      let up := s.flag R.hifStatus F.hifStatusLinkUp
      let b := if bit x 0 then (if up then host.map (fun b => slice b 0 m) else none) else some (s.bytes src m)
      match b with
      | none => s.finishCmd n c 0x0A c.prog
      | some b =>
        if bit x 1 && !(hostOk && up) then s.finishCmd n c 0x0A c.prog
        else
          let ps := if bit x 0 then 0 else src + 1
          let bad := c.poison || (if bit x 0 then poisoned else s.unreadable src m)
          let s := if bit x 1 then s.copyOut ps dst b poisoned else s.copyIn ps dst b poisoned
          let c := { c with issued := true, prog := c.prog + m, poison := bad }
          if len ≤ c.prog then (s.putCmd n c).finishCmd n c (if bad then 9 else 0) len
          else (s.putCmd n c).jWrite (s.qpOwner n) n c 2

/-- A PSQ command of a queue pair that may issue: every earlier command has completed, and no brace (R323, Table 13-8). -/
def State.psqReady (s : State) (n opc : Nat) : Option Cmd :=
  match s.nextCmd n (· == opc) with
  | none => none
  | some c => if s.firstLeft n c.seq && !s.lk.warnLow then some c else none

/-- PSQ_LIMIT (R120): the previous LIMIT is its result. -/
def State.hifLimit (s : State) (n : Nat) : State :=
  match s.psqReady n 0x10 with
  | none => s
  | some c =>
    let k := s.qpOwner n
    let x := numAt c.entry 0x1C 1 % 4
    let old := s.limitOf k x
    let r := s.setLimit k x (numAt c.entry 8 8)
    if r.2 then r.1.finishCmd n c 0 old else s.finishCmd n c 0x07 old

/-- PSQ_POST. -/
def State.hifPost (s : State) (n : Nat) : State :=
  match s.psqReady n 0x11 with
  | none => s
  | some c => (s.extPost (s.qpOwner n) (numAt c.entry 8 8)).finishCmd n c 0 0

/-- PSQ_CMD. A replayed STOP stops a stake that a warm reset stopped, before it resumes (Table 14-4 step 5). -/
def State.hifCmd (s : State) (n : Nat) : State :=
  match s.psqReady n 0x12 with
  | none => s
  | some c =>
    let k := s.qpOwner n
    let x := numAt c.entry 0x1C 1
    let cmd := x % 16
    if cmd = 2 ∧ s.lk.resume.testBit k then
      (((s.noResume k).accept k).setFld (R.psqStatus k) F.psqStatusStopPreempt 1).finishCmd n c 0 0
    else
      let s := s.psqDo k cmd (bits x 4 3)
      s.finishCmd n c (if 1 ≤ cmd ∧ cmd ≤ 4 ∧ s.flag (R.psqStatus k) F.psqStatusRefused then 0x08 else 0) 0

/-- 4,096 delivered commands lack their HIF_POOL_DONE (R324). -/
def State.poolFull (s : State) : Bool :=
  decide (4096 ≤ ((List.range 64).map (fun n => if s.isPool n then ((s.hqOf n).run.filter (fun c => !c.done)).length else 0)).sum)

/-- POOL (R324): accepted into the ring while fewer than 4,096 delivered commands lack their HIF_POOL_DONE. -/
def State.hifPool (s : State) (n : Nat) (cqOk : Bool) : State :=
  match (s.hqOf n).hold with
  | [] => s
  | e :: _ =>
    if !(s.isPool n) ∨ s.acceptHeld n ∨ ¬ s.flag R.hifPoolRing F.hifPoolRingEnable ∨ s.poolFull then s
    else
      let b := s.fld R.hifPoolRing F.hifPoolRingBase * 2 ^ 22
      let s := s.wr (b + 512 * (s.poolK % 4096)) (e ++ List.replicate (512 - e.length) 0)
      let s := { s with poolK := s.poolK + 1 }
      ((s.wrN (b + 0x200000) 8 s.poolK).modEvent F.hifMEvtPool).acceptCmd 0xFF n s.poolK s.poolEra e cqOk

/-- HIF_POOL_DONE: server-core software reports a command of a pool queue pair. -/
def State.poolDone (s : State) (n cid status : Nat) : State :=
  match (s.hqOf n).run.find? (fun c => !c.done && c.cid == cid) with
  | none => s
  | some c => if s.isPool n ∧ (status = 0 ∨ status = 0x0B) then s.finishCmd n c status 0 else s

/-- The queue pair is DISABLED, once its DELETE has nothing left (R316). -/
def State.deleteDone (s : State) (n : Nat) : State :=
  if (s.hqOf n).deleting ∧ (s.hqOf n).run = [] then (s.setHq n .idle).setFld (R.hifQStatus n) F.hifQStatusState 0 else s

/-- COMMAND_COMPLETE: the oldest completed command gets its DONE entry and its record is REPORTED (R313, R321, R336). A CQ write that
fails on the link puts the queue pair in ERROR, and the entry is written after RESTART. -/
def State.cmdComplete (s : State) (n : Nat) (cqOk : Bool) : State :=
  let q := s.hqOf n
  match q.fin with
  | [] => s
  | id :: rest =>
    match q.run.find? (fun c => (c.seq, c.era) == id) with
    | none => s
    | some c =>
      if s.cqShut n then s
      else if s.cqFails n cqOk then s.cqLost n
      else
        let s := s.cqWrite n c.seq c.result c.cid c.status 2
        let s := s.modHq n (fun x => { x with fin := rest, run := x.run.filter (fun y => !(c.same y)),
                                              irq := if c.irq then x.irq ++ [q.cqTail] else x.irq })
        let s := if s.isPool n then s else (s.jWrite (s.qpOwner n) n c 4).jOldest (s.qpOwner n)
        (s.irqCheck n).deleteDone n

/-! ### doorbells (R319, R322) -/

/-- A doorbell dropped: counted in HIF_ERR. -/
def State.dbDrop (s : State) : State := s.addSat R.hifErr F.hifErrDbDrop 1

/-- HIF_Q_CFG.SUBMIT names the master (R319). -/
def State.maySubmit (s : State) (m : Master) (n : Nat) : Bool :=
  match m with
  | .sec => false
  | .core _ => s.fldBit (R.hifQCfg n) F.hifQCfgSubmit 0
  | .host => s.fldBit (R.hifQCfg n) F.hifQCfgSubmit 1

/-- HIF_DB_SQ. -/
def State.dbSq (s : State) (m : Master) (n tail gen : Nat) : State :=
  if s.qState n = 0 ∨ !(s.maySubmit m n) then s.dbDrop
  else
    let c := s.hqOf n
    let d := s.depth n
    let w := 255 * d
    let b := ((gen + 254) % 255) * d + (if tail = 0 then d else tail)
    let x := (b + w - c.a) % w
    if x = 0 then s
    else if x ≤ d - (c.a + w - c.h) % w then
      (s.setHq n { c with a := b % w }).setFld (R.hifQStatus n) F.hifQStatusTail tail
    else if w - d ≤ x then s.addSat (R.hifQCnt n) F.hifQCntStale 1
    else s.qpError n 2 tail

/-- HIF_DB_CQ. -/
def State.dbCq (s : State) (m : Master) (n head : Nat) : State :=
  if s.qState n = 0 ∨ !(s.maySubmit m n) then s.dbDrop
  else
    let c := s.hqOf n
    let w := 2 * s.depth n
    let x := (head + w - c.cqHead % w) % w
    if w ≤ head ∨ c.cqTail - c.cqHead < x then s.dbDrop
    else
      let h := c.cqHead + x
      let left := c.irq.filter (fun i => decide (h ≤ i))
      (s.setHq n { c with cqHead := h, irq := left, sent := c.sent && left == c.irq }).irqCheck n

/-! ### CREATE, DELETE, RESTART (R315, R316, R320) -/

/-- The refusal of CREATE, if any: 1 LEVEL, 3 ADDR, 4 STATE, 5 OWNER; the base registers hold only aligned bases. -/
def State.createRefusal (s : State) (n : Nat) : Option Nat :=
  let lv := min (s.fld (R.hifQCfg n) F.hifQCfgLevel) (s.fld R.glbArchLevel F.glbArchLevelLevelMax)
  let mem := fun (a : Nat) (f h : Fld) (len : Nat) => s.flag a h || s.inOwner n (s.fld a f * 4096) len
  if s.qState n ≠ 0 then some 4
  else if lv < s.fld R.glbArchLevel F.glbArchLevelLevelMin then some 1
  else if !(s.isPool n) && !(s.enabled (s.qpOwner n)) then some 5
  else if !(mem (R.hifQSq n) F.hifQSqBase F.hifQSqHostmem (s.depth n * s.esize n)) ||
      !(mem (R.hifQCq n) F.hifQCqBase F.hifQCqHostmem (64 * s.depth n)) then some 3
  else none

/-- An unreported DONE record gets its DONE entry. -/
def State.reportDone (s : State) (k n : Nat) (c : Cmd) : State :=
  let i := (s.hqOf n).cqTail
  let s := s.cqWrite n c.seq c.result c.cid c.status 2
  let s := s.modHq n (fun x => { x with fin := x.fin.filter (· != (c.seq, c.era)), run := x.run.filter (fun y => !(c.same y)),
                                        irq := if c.irq then x.irq ++ [i] else x.irq })
  (s.jWrite k n c 4).jOldest k

/-- Unreported records get one entry each, in sequence order: DONE, or ACCEPT now (Table 14-4 step 7). One that the link refuses puts the
queue pair in ERROR (Table 13-8), and those left wait for RESTART. -/
def State.reportLeft (s : State) (n : Nat) : State :=
  let k := s.qpOwner n
  let s := s.modHq n (fun x => { x with run := x.run.map (fun c => { c with ack := c.ack && c.done }) })
  ((s.hqOf n).run).foldl (fun s c =>
    if !c.done then s.ackCmd k n c true
    else if s.cqShut n then s
    else if s.cqFails n true then s.cqLost n
    else s.reportDone k n c) s

/-- CREATE. -/
def State.qpCreate (s : State) (n : Nat) : State :=
  match s.createRefusal n with
  | some r => s.setFld (R.hifQStatus n) F.hifQStatusRefusal r
  | none =>
    let lv := min (s.fld (R.hifQCfg n) F.hifQCfgLevel) (s.fld R.glbArchLevel F.glbArchLevelLevelMax)
    let s := s.setFld (R.hifQCfg n) F.hifQCfgGranted lv
    let c := s.hqOf n
    let s := s.setHq n { Hq.idle with run := c.run, fin := c.fin }
    let s := s.setReg (R.hifQStatus n) ((((0 : Word).setFld F.hifQStatusState 1).setFld F.hifQStatusGen 1).setFld F.hifQStatusBraced
      (if s.lk.warnLow then 1 else 0))
    let s := (s.setReg (R.hifQErr n) 0).setFld (R.hifQCnt n) F.hifQCntAccepted 0
    (s.reportLeft n).irqCheck n

/-- DELETE. -/
def State.qpDelete (s : State) (n : Nat) : State :=
  if s.qState n = 0 then s else (s.modHq n (fun c => { c with deleting := true, hold := [], again := 0 })).deleteDone n

/-- RESTART: only in ERROR. REFUSED and ACCEPT entries whose writes failed are written again; where the link is down they fail again. -/
def State.qpRestart (s : State) (n : Nat) : State :=
  if s.qState n ≠ 2 then s
  else
    let s := ((s.setReg (R.hifQErr n) 0).setFld (R.hifQStatus n) F.hifQStatusState 1).modHq n (fun c => { c with again := 0 })
    let again := (s.hqOf n).lost
    let s := again.foldl (fun s p => s.refuseEntry n p.1 p.2 true) (s.modHq n (fun c => { c with lost := [] }))
    ((s.hqOf n).run.filter (fun c => !c.done)).foldl (fun s c => s.ackCmd (s.qpOwner n) n c true) s

/-- A queue pair after a reset: DISABLED, fetched entries gone, its registers at their reset values; accepted commands of a stake
wait in its journal (Table 13-8, R337). -/
def State.qpReset (s : State) (n : Nat) : State :=
  let keep := s.reg (R.hifQCfg n)
  let s := (s.setHq n .idle).resetRegs [R.hifQSq n, R.hifQCq n, R.hifQCfg n, R.hifQStatus n, R.hifQErr n, R.hifQIrq n, R.hifQCnt n]
  (s.setFld (R.hifQCfg n) F.hifQCfgDepth (keep.fld F.hifQCfgDepth)).setFld (R.hifQCfg n) F.hifQCfgOwner (keep.fld F.hifQCfgOwner)

/-! ### replay (Table 14-4) -/

/-- A record of the current epoch in a slot, by its number, queue pair and command; none where the slot is free. -/
def State.readRecord (s : State) (k i e : Nat) : Option (Nat × Nat × Nat × Cmd) :=
  let a := (s.stake k).jrnlBase + 4096 + 1024 * i
  let st := s.num (a + 12) 1
  if s.num (a + 8) 4 ≠ e ∨ st = 0 ∨ 4 < st then none
  else
    let f := s.num (a + 14) 1
    let entry := s.bytes (a + 64) (if bit f 0 then 512 else 64)
    some (s.num a 6, s.num (a + 13) 1, st,
      ⟨s.num a 6, 0, entry, bit f 1, decide (2 ≤ st), decide (3 ≤ st), s.num (a + 15) 1, s.num (a + 24) 8, s.num (a + 32) 8, false⟩)

/-- A command placed by sequence number. -/
def insertCmd (c : Cmd) : List Cmd → List Cmd
  | [] => [c]
  | x :: t => if c.seq < x.seq then c :: x :: t else x :: insertCmd c t

/-- JOURNAL_REPLAY: step 3 of Table 14-4 for a stake that a reset left to be replayed. -/
def State.jReplay (s : State) (k : Nat) : State :=
  let b := (s.stake k).jrnlBase
  if !(s.replay.testBit k) ∨ !(s.enabled k) ∨ !(s.wrapperOpen (R.psqStatus k)) ∨ s.fld (R.memStatus (octetOf b / 2)) F.memStatusState ≠ 1 then s
  else
    let s := { s with replay := setBit s.replay k false }
    let n := s.jSlots k
    let e := s.num (b + 8) 4
    let rs := (List.range n).filterMap (fun i => s.readRecord k i e)
    let next := (rs.map (fun r => r.1)).foldl max 0 + 1
    let live := rs.filter (fun r => decide (r.2.2.1 ≤ 3))
    let s := s.setReg (R.psqJrnlStatus k) ((((0 : Word).setFld F.psqJrnlStatusEpoch e).setFld F.psqJrnlStatusOpen 1).setFld
      F.psqJrnlStatusReplay 1 |>.setFld F.psqJrnlStatusClosed (if s.lk.warnLow then 1 else 0))
    let s := s.setFld (R.psqJrnlNext k) F.psqJrnlNextNext next
    if s.bad b 4096 || (List.range n).any (fun i => s.bad (b + 4096 + 1024 * i) 64) then s.endEpoch k 4
    else
      let s := live.foldl (fun s r => s.modHq r.2.1 (fun q => { q with run := insertCmd r.2.2.2 q.run })) s
      let s := s.forAll (List.range 64) (fun s i => s.modHq i (fun q => if s.qpOwner i = k then { q with fin := (q.run.filter (·.done)).map (fun c => (c.seq, c.era)) } else q))
      (s.jOldest k).afterReplay k

/-! ### meanings -/

/-- CREATE. -/
def execCreate (m : Master) (rivals : List Master) (n : Fin 64) (s : State) : Host.Outcome State Fault Refusal :=
  .next (s.command m rivals (R.hifQCtl n) (fun s => s.qpCreate n))
/-- DELETE. -/
def execDelete (m : Master) (rivals : List Master) (n : Fin 64) (s : State) : Host.Outcome State Fault Refusal :=
  .next (s.command m rivals (R.hifQCtl n) (fun s => s.qpDelete n))
/-- RESTART. -/
def execRestart (m : Master) (rivals : List Master) (n : Fin 64) (s : State) : Host.Outcome State Fault Refusal :=
  .next (s.command m rivals (R.hifQCtl n) (fun s => s.qpRestart n))
/-- HIF_DB_SQ. -/
def execHifDbSq (m : Master) (n : Fin 64) (tail gen : Nat) (s : State) : Host.Outcome State Fault Refusal :=
  .next (s.command m [] (R.hifDbSq n) (fun s => s.dbSq m n (tail % 65536) (gen % 256)))
/-- HIF_DB_CQ. -/
def execHifDbCq (m : Master) (n : Fin 64) (head : Nat) (s : State) : Host.Outcome State Fault Refusal :=
  .next (s.command m [] (R.hifDbCq n) (fun s => s.dbCq m n (head % 65536)))
/-- SQ_FETCH. -/
def execSqFetch (n : Fin 64) (host : Option (List Byte)) (cqOk : Bool) (s : State) : Host.Outcome State Fault Refusal :=
  .next (s.sqFetch n host cqOk)
/-- SQ_REFETCH. -/
def execSqRefetch (n : Fin 64) (host : Option (List Byte)) (cqOk : Bool) (s : State) : Host.Outcome State Fault Refusal :=
  .next (s.sqRefetch n host cqOk)
/-- JOURNAL_COMMIT. -/
def execJournalCommit (n : Fin 64) (cqOk : Bool) (s : State) : Host.Outcome State Fault Refusal := .next (s.jCommit n cqOk)
/-- NOP of a queue pair. -/
def execHifNop (n : Fin 64) (s : State) : Host.Outcome State Fault Refusal := .next (s.hifNop n)
/-- WRITE. -/
def execHifWrite (n : Fin 64) (s : State) : Host.Outcome State Fault Refusal := .next (s.hifWrite n)
/-- COPY. -/
def execCopy (n : Fin 64) (host : Option (List Byte)) (poisoned hostOk : Bool) (s : State) : Host.Outcome State Fault Refusal :=
  .next (s.copyStep n host poisoned hostOk)
/-- PSQ_LIMIT. -/
def execPsqLimit (n : Fin 64) (s : State) : Host.Outcome State Fault Refusal := .next (s.hifLimit n)
/-- PSQ_POST of a queue pair. -/
def execHifPsqPost (n : Fin 64) (s : State) : Host.Outcome State Fault Refusal := .next (s.hifPost n)
/-- PSQ_CMD of a queue pair. -/
def execHifPsqCmd (n : Fin 64) (s : State) : Host.Outcome State Fault Refusal := .next (s.hifCmd n)
/-- POOL. -/
def execPool (n : Fin 64) (cqOk : Bool) (s : State) : Host.Outcome State Fault Refusal := .next (s.hifPool n cqOk)
/-- COMMAND_COMPLETE. -/
def execCommandComplete (n : Fin 64) (cqOk : Bool) (s : State) : Host.Outcome State Fault Refusal := .next (s.cmdComplete n cqOk)
/-- HIF_POOL_DONE. -/
def execHifPoolDone (m : Master) (n : Fin 64) (cid status : Nat) (s : State) : Host.Outcome State Fault Refusal :=
  .next (s.command m [] R.hifPoolDone (fun s => s.poolDone n (cid % 65536) (status % 256)))
/-- IRQ_TIMER. -/
def execIrqTimer (n : Fin 64) (s : State) : Host.Outcome State Fault Refusal := .next (s.irqTimer n)
/-- JOURNAL_REPLAY. -/
def execJournalReplay (k : Fin 16) (s : State) : Host.Outcome State Fault Refusal := .next (s.jReplay k)

/-- The pool ring enabled at a base: k restarts at 0, and with it the count word (R324, R332). -/
def State.ringEnable (s : State) (base : Nat) : State :=
  let s := (s.setFld R.hifPoolRing F.hifPoolRingEnable 1).setFld R.hifPoolRing F.hifPoolRingBase (base / 2 ^ 22)
  { s.wrN (base / 2 ^ 22 * 2 ^ 22 + 0x200000) 8 0 with poolK := 0, poolEra := s.poolEra + 1 }

/-- HIF_POOL_RING with ENABLE. -/
def execHifPoolRingEnable (m : Master) (base : Nat) (s : State) : Host.Outcome State Fault Refusal :=
  .next (s.command m [] R.hifPoolRing (fun s => s.ringEnable base))

end Sys2Proof.Machine
end

