-- ==== Sys2Proof/Machine/Sha.lean ====
section
/-! DEFINITION. SHA-384, which R13, R377, R378 and R410 name. The spec gives no text of it: PRESUMED (log 6), the function of FIPS 180-4. -/

namespace Sys2Proof.Machine

/-- The eight working words of the hash. -/
structure ShaWords where
  a : Word
  b : Word
  c : Word
  d : Word
  e : Word
  f : Word
  g : Word
  h : Word
  deriving DecidableEq, Repr

/-- The words before the first block. -/
def shaStart : ShaWords :=
  ⟨0xcbbb9d5dc1059ed8, 0x629a292a367cd507, 0x9159015a3070dd17, 0x152fecd8f70e5939,
    0x67332667ffc00b31, 0x8eb44a8768581511, 0xdb0c2e0d64f98fa7, 0x47b5481dbefa4fa4⟩

/-- Round constants 0 to 19. -/
def shaK0 : List Word :=
  [0x428a2f98d728ae22, 0x7137449123ef65cd, 0xb5c0fbcfec4d3b2f, 0xe9b5dba58189dbbc, 0x3956c25bf348b538,
    0x59f111f1b605d019, 0x923f82a4af194f9b, 0xab1c5ed5da6d8118, 0xd807aa98a3030242, 0x12835b0145706fbe,
    0x243185be4ee4b28c, 0x550c7dc3d5ffb4e2, 0x72be5d74f27b896f, 0x80deb1fe3b1696b1, 0x9bdc06a725c71235,
    0xc19bf174cf692694, 0xe49b69c19ef14ad2, 0xefbe4786384f25e3, 0x0fc19dc68b8cd5b5, 0x240ca1cc77ac9c65]

/-- Round constants 20 to 39. -/
def shaK1 : List Word :=
  [0x2de92c6f592b0275, 0x4a7484aa6ea6e483, 0x5cb0a9dcbd41fbd4, 0x76f988da831153b5, 0x983e5152ee66dfab,
    0xa831c66d2db43210, 0xb00327c898fb213f, 0xbf597fc7beef0ee4, 0xc6e00bf33da88fc2, 0xd5a79147930aa725,
    0x06ca6351e003826f, 0x142929670a0e6e70, 0x27b70a8546d22ffc, 0x2e1b21385c26c926, 0x4d2c6dfc5ac42aed,
    0x53380d139d95b3df, 0x650a73548baf63de, 0x766a0abb3c77b2a8, 0x81c2c92e47edaee6, 0x92722c851482353b]

/-- Round constants 40 to 59. -/
def shaK2 : List Word :=
  [0xa2bfe8a14cf10364, 0xa81a664bbc423001, 0xc24b8b70d0f89791, 0xc76c51a30654be30, 0xd192e819d6ef5218,
    0xd69906245565a910, 0xf40e35855771202a, 0x106aa07032bbd1b8, 0x19a4c116b8d2d0c8, 0x1e376c085141ab53,
    0x2748774cdf8eeb99, 0x34b0bcb5e19b48a8, 0x391c0cb3c5c95a63, 0x4ed8aa4ae3418acb, 0x5b9cca4f7763e373,
    0x682e6ff3d6b2b8a3, 0x748f82ee5defb2fc, 0x78a5636f43172f60, 0x84c87814a1f0ab72, 0x8cc702081a6439ec]

/-- Round constants 60 to 79. -/
def shaK3 : List Word :=
  [0x90befffa23631e28, 0xa4506cebde82bde9, 0xbef9a3f7b2c67915, 0xc67178f2e372532b, 0xca273eceea26619c,
    0xd186b8c721c0c207, 0xeada7dd6cde0eb1e, 0xf57d4f7fee6ed178, 0x06f067aa72176fba, 0x0a637dc5a2c898a6,
    0x113f9804bef90dae, 0x1b710b35131c471b, 0x28db77f523047d84, 0x32caab7b40c72493, 0x3c9ebe0a15c9bebc,
    0x431d67c49c100d4c, 0x4cc5d4becb3e42b6, 0x597f299cfc657e2a, 0x5fcb6fab3ad6faec, 0x6c44198c4a475817]

/-- The functions of the rounds and of the message schedule: three turns, or two and a shift, added without carry. -/
def shaTurn (x : Word) (i j k : Nat) : Word := x.rotateRight i ^^^ x.rotateRight j ^^^ x.rotateRight k
def shaShift (x : Word) (i j k : Nat) : Word := x.rotateRight i ^^^ x.rotateRight j ^^^ (x >>> k)

/-- A round: the working words, and the next sixteen words of the schedule, whose first it takes. -/
def shaRound (p : ShaWords × List Word) (k : Word) : ShaWords × List Word :=
  let s := p.1
  let w := p.2.getD 0 0
  let t := s.h + shaTurn s.e 14 18 41 + ((s.e &&& s.f) ^^^ (~~~s.e &&& s.g)) + k + w
  let u := shaTurn s.a 28 34 39 + ((s.a &&& s.b) ^^^ (s.a &&& s.c) ^^^ (s.b &&& s.c))
  (⟨t + u, s.a, s.b, s.c, s.d + t, s.e, s.f, s.g⟩,
    p.2.drop 1 ++ [shaShift (p.2.getD 14 0) 19 61 6 + p.2.getD 9 0 + shaShift (p.2.getD 1 0) 1 8 7 + w])

/-- A big-endian number. -/
def bigEndian (l : List Byte) : Nat := l.foldl (fun n b => n * 256 + b.toNat) 0

/-- A block of 128 bytes. -/
def shaBlock (s : ShaWords) (b : List Byte) : ShaWords :=
  let w := (List.range 16).map (fun i => BitVec.ofNat 64 (bigEndian ((b.drop (8 * i)).take 8)))
  let t := ((shaK0 ++ shaK1 ++ shaK2 ++ shaK3).foldl shaRound (s, w)).1
  ⟨s.a + t.a, s.b + t.b, s.c + t.c, s.d + t.d, s.e + t.e, s.f + t.f, s.g + t.g, s.h + t.h⟩

/-- A message padded to whole blocks: a one bit, zeros, and its length in bits as sixteen bytes. -/
def shaPad (b : List Byte) : List Byte :=
  b ++ ((0x80 : Byte) :: List.replicate ((239 - b.length % 128) % 128) (0 : Byte)) ++ (toBytes 16 (8 * b.length)).reverse

/-- SHA-384 of bytes: byte i of the digest in bits [8i+7:8i]. -/
@[irreducible] def sha384 (b : List Byte) : BitVec 384 :=
  let m := shaPad b
  let s := (List.range (m.length / 128)).foldl (fun s i => shaBlock s ((m.drop (128 * i)).take 128)) shaStart
  let word := fun (w : Word) => (toBytes 8 w.toNat).reverse
  BitVec.ofNat 384 (ofBytes ([s.a, s.b, s.c, s.d, s.e, s.f].flatMap word))

end Sys2Proof.Machine
end

