-- ==== Sys2Proof/Machine/Image.lean ====
section
/-! DEFINITION. Signed images: layout, sections and records, and the checks of Table 1-6 (R12-R24, R297, R376, R409). -/

namespace Sys2Proof.Machine

/-! ### layout (R12) -/

/-- The least length of an image: header, one directory entry and signature. -/
def imgMin : Nat := 0x80 + 16 + 96

def imgLevel (b : List Byte) : Nat := numAt b 4 1 % 16
def imgKind (b : List Byte) : Nat := numAt b 5 1
def imgLen (b : List Byte) : Nat := numAt b 8 4
def imgCount (b : List Byte) : Nat := numAt b 0xC 4
def imgId (b : List Byte) : Nat := numAt b 0x10 8
def imgVersion (b : List Byte) : Nat := numAt b 0x18 4
def imgSecVersion (b : List Byte) : Nat := numAt b 0x1C 4
def imgKey (b : List Byte) : BitVec 384 := BitVec.ofNat 384 (numAt b 0x20 48)
def imgTarget (b : List Byte) : Nat := numAt b 0x50 1

/-- The image digest (R13, R410): SHA-384 of the bytes before the signature. -/
def imgDigest (b : List Byte) : BitVec 384 := sha384 (b.take (imgLen b - 96))

/-- A directory entry: its index, TYPE, LEVEL byte, FLAGS, OFFSET, LENGTH and last word. -/
structure Sect where
  idx   : Nat
  ty    : Nat
  level : Nat
  flags : Nat
  off   : Nat
  len   : Nat
  zero  : Nat
  deriving DecidableEq, Repr

/-- The directory. -/
def imgDir (b : List Byte) : List Sect :=
  (List.range (min (imgCount b) 65536)).map (fun i =>
    let a := 0x80 + 16 * i
    ⟨i, numAt b a 1, numAt b (a + 1) 1, numAt b (a + 2) 2, numAt b (a + 4) 4, numAt b (a + 8) 4, numAt b (a + 12) 4⟩)

/-- Bytes of a record of a section type; 0 for a type without records. -/
def recLen (ty : Nat) : Nat :=
  if ty = 1 then 144 else if ty = 2 then 8 else if ty = 3 ∨ ty = 4 then 16 else if ty = 5 then 4 else if ty = 6 then 8
  else if ty = 7 then 4 else 0

/-- The records of the section of a type: section index, record index, bytes. -/
def imgRecords (b : List Byte) (ty : Nat) : List (Nat × Nat × List Byte) :=
  ((imgDir b).filter (fun e => e.ty == ty)).flatMap (fun e =>
    (List.range (e.len / recLen ty)).map (fun i => (e.idx, i, slice b (e.off + i * recLen ty) (recLen ty))))

/-! ### records -/

/-- A stake record (Table 1-3). -/
def parseStake (r : List Byte) : StakeRec where
  level     := numAt r 1 1 % 16
  stake     := numAt r 2 1
  enable    := bit (numAt r 3 1) 0
  master12  := bit (numAt r 3 1) 1
  eng       := numAt r 8 4
  pvu       := numAt r 0xC 1
  spad      := numAt r 0xD 1
  mb        := numAt r 0xE 1
  tc        := numAt r 0x10 32
  ch        := numAt r 0x30 16
  ways      := (List.range 5).map (fun i => numAt r (0x40 + 2 * i) 2)
  stackBase := numAt r 0x50 8
  stackLim  := numAt r 0x58 8
  wfmt      := numAt r 0x60 1
  ffmt      := numAt r 0x61 1
  xfmt      := numAt r 0x62 1
  group     := numAt r 0x63 1
  jobBase   := numAt r 0x64 1
  jobCount  := numAt r 0x65 1
  seqLimit  := numAt r 0x66 2
  kvPages   := numAt r 0x68 4
  kvBase    := numAt r 0x70 8
  jrnlBase  := numAt r 0x78 8
  jrnlKib   := numAt r 0x80 4

/-- A RING record (R18). -/
def parseRing (r : List Byte) : RingRec :=
  ⟨numAt r 2 1, numAt r 4 2, numAt r 6 2, numAt r 8 2, numAt r 10 2⟩

/-- A GROUP record (R19). -/
def parseGroup (r : List Byte) : GroupRec :=
  ⟨numAt r 2 1, numAt r 3 1, numAt r 4 2, numAt r 6 2, numAt r 8 1, numAt r 12 4⟩

/-- An OWNER entry (R22). -/
def parseOwner (r : List Byte) : OwnerRec := ⟨numAt r 0 4, numAt r 4 2, numAt r 6 1⟩

/-- A record put in the place of the one with the same key, else at the end. -/
def putRec {α : Type} (key : α → Nat) (l : List α) (r : α) : List α :=
  if l.any (fun x => key x == key r) then l.map (fun x => if key x = key r then r else x) else l ++ [r]

/-- The sections of an image programmed over what is there, record by record (Table 1-7 step 4, Table 1-8 step 6). A partial image's
OWNER entries stand before those they cover. -/
def imgProgram (b : List Byte) (w : WeaveData) : WeaveData :=
  let recs := fun (ty : Nat) => (imgRecords b ty).map (fun p => p.2.2)
  { stakes := ((recs 1).map parseStake).foldl (putRec (fun r => r.stake)) w.stakes
    widths := match recs 2 with | r :: _ => numAt r 2 6 | [] => w.widths
    rings  := ((recs 3).map parseRing).foldl (putRec (fun r => r.ring)) w.rings
    groups := ((recs 4).map parseGroup).foldl (putRec (fun r => r.group)) w.groups
    pounds := ((recs 5).map (fun r => (numAt r 0 2, numAt r 2 2))).foldl (putRec (fun p => p.1)) w.pounds
    owners := (recs 6).map parseOwner ++ w.owners
    hostq  := ((recs 7).map (fun r => (numAt r 0 1, numAt r 1 1))).foldl (putRec (fun p => p.1)) w.hostq }

/-! ### checks (Table 1-6) -/

/-- A failed check as WV_ERR records it: CODE, SECTION, RECORD, STAKE. -/
abbrev ImgErr := Nat × Nat × Nat × Nat

/-- The first error of a list of tests. -/
def firstErr (l : List (Bool × ImgErr)) : Option ImgErr := (l.find? (fun p => p.1)).map (fun p => p.2)

/-- Two intervals [lo, hi) share an element; an empty one shares none. -/
def spanMeet (a b : Nat × Nat) : Bool := decide (max a.1 b.1 < min a.2 b.2)

/-- Sections share a byte (R12). -/
def sectMeet (a b : Sect) : Bool := spanMeet (a.off, a.off + a.len) (b.off, b.off + b.len)

/-- A section's placement breaks R12. -/
def sectBad (b : List Byte) (dir : List Sect) (e : Sect) : Bool :=
  decide (e.off < 0x80 + 16 * imgCount b) || decide (imgLen b - 96 < e.off + e.len) ||
    dir.any (fun f => f.idx != e.idx && sectMeet e f)

/-- A weave image: KIND 0 or 1 (R12). -/
def isWeave (b : List Byte) : Bool := decide (imgKind b ≤ 1)

/-- The largest length of an image by its KIND (R12, R376). DESIGN CHOICE (log 44), unsafe: a KIND that Table 1-1 does not name is held to
the limit of a weave image. -/
def kindLimit (kind : Nat) : Nat := if kind = 2 then 0x1000000 else if kind = 3 then 0x400000 else 0x100000

/-- Check 1: FORMAT. `given` is the length given for the copy; record lengths are those of a weave image. -/
def check1 (b : List Byte) (given : Option Nat) : Option ImgErr :=
  let n := imgLen b
  if numAt b 0 4 ≠ 0x4D495657 ∨ numAt b 6 2 ≠ 0x80 ∨ kindLimit (imgKind b) < n ∨ given.any (fun g => g != n) ∨
      n < 0x80 + 16 * imgCount b + 96 then some (1, 0, 0, 0)
  else
    let dir := imgDir b
    (dir.find? (fun e => sectBad b dir e || (isWeave b && decide (recLen e.ty ≠ 0) && decide (e.len % recLen e.ty ≠ 0)))).map (fun e =>
      (1, e.idx, 0, 0))

/-- Check 2: KEY_ID names a usable key slot (R375, R381). -/
def Fuses.usable (f : Fuses) (i : Nat) : Bool := f.valid.testBit i && !(f.revoked.testBit i)

/-- The digest that a slot holds; slot 0 holds Plynser's own as shipped. -/
def Fuses.digest (f : Fuses) (i : Nat) : BitVec 384 := ((f.keys.getD i none)).getD Config.factoryKey

/-- A usable slot holds the key. -/
def Fuses.enrolled (f : Fuses) (key : BitVec 384) : Bool :=
  (List.range 4).any (fun i => f.usable i && f.digest i == key)

/-- Check 5: LEVEL. -/
def check5 (s : State) (b : List Byte) : Option ImgErr :=
  let h := imgLevel b
  let bad := fun (l : Nat) => decide (l = 0) || decide (h < l)
  if h < s.fld R.glbArchLevel F.glbArchLevelLevelMin ∨ s.fld R.glbArchLevel F.glbArchLevelLevelMax < h then some (5, 0, 0, 0)
  else match (imgDir b).find? (fun e => bad (e.level % 16)) with
    | some e => some (5, e.idx, 0, 0)
    | none =>
      if isWeave b then
        ([1, 2, 3, 4].flatMap (fun t => imgRecords b t)).find? (fun r => bad (numAt r.2.2 1 1 % 16)) |>.map (fun r => (5, r.1, r.2.1, 0))
      else none

/-- Checks 1 to 5, which firmware images share (R376). -/
def checkImage (s : State) (b : List Byte) (given : Option Nat) (sigOk : Bool) : Option ImgErr :=
  match check1 b given with
  | some e => some e
  | none =>
    match firstErr [(!(s.fuses.enrolled (imgKey b)), (3, 0, 0, 0)), (!sigOk, (2, 0, 0, 0)),
        (decide (imgSecVersion b < s.fuses.rollback), (4, 0, 0, 0))] with
    | some e => some e
    | none => check5 s b

/-- A partial image's target is the writer's, and its record's (Table 1-2). -/
def targetOk (b : List Byte) (target : Nat) : Bool :=
  imgTarget b == target &&
    (target == 0xFF || (imgRecords b 1).all (fun r => numAt r.2.2 2 1 == target))

/-- The pounds of the target's units, which a POUND entry of a partial image may name (Table 1-2): those of its engines and of its queue
pairs. DESIGN CHOICE (log 44), unsafe: pounds of shared units (ASUs, quay units, homes) and of ports are no stake's. -/
def poundOf (w : WeaveData) (r : StakeRec) (id : Nat) : Bool :=
  (decide (0x100 ≤ id) && decide (id < 0x400) && decide (id % 0x100 < 32) && r.eng.testBit (id % 0x100)) ||
    (decide (0x800 ≤ id) && decide (id < 0x840) && w.hostq.any (fun p => p.1 == id - 0x800 && p.2 == r.stake))

/-- Check 6: SECTION. `new` is what the image would make of the active weave. -/
def check6 (b : List Byte) (target : Nat) (new : WeaveData) : Option ImgErr :=
  let dir := imgDir b
  let partly := target != 0xFF
  let cnt := fun (ty : Nat) => (imgRecords b ty).length
  let r := ((imgRecords b 1).map (fun p => parseStake p.2.2)).headD .off
  let first := fun (ty : Nat) (p : List Byte → Bool) => (imgRecords b ty).find? (fun x => p x.2.2)
  match dir.find? (fun e => recLen e.ty == 0 && bit e.flags 0) with
  | some e => some (0xB, e.idx, 0, 0)
  | none =>
    match dir.find? (fun e => dir.any (fun f => f.ty == e.ty && decide (f.idx < e.idx)) || (partly && (e.ty == 2 || e.ty == 3))) with
    | some e => some (0xB, e.idx, 0, 0)
    | none =>
      if imgKind b ≠ (if partly then 1 else 0) ∨ !(targetOk b target) then some (0xB, 0, 0, 0)
      else if partly then
        if cnt 1 ≠ 1 ∨ 1 < cnt 4 then some (0xB, 0, 0, target)
        else
          let bad := (first 4 (fun x => decide (r.group ≠ numAt x 2 1) ||
              new.stakes.any (fun q => q.enable && q.stake != target && q.group == numAt x 2 1))).orElse (fun _ =>
            (first 5 (fun x => !(poundOf new r (numAt x 0 2)))).orElse (fun _ =>
            (first 6 (fun x => decide (numAt x 0 4 ≠ 0x200 + target) || decide (numAt x 4 2 ≠ 1))).orElse (fun _ =>
            first 7 (fun x => decide (numAt x 1 1 ≠ target)))))
          bad.map (fun x => (0xB, x.1, x.2.1, target))
      else if cnt 1 < 1 ∨ 16 < cnt 1 ∨ cnt 2 ≠ 1 ∨ 16 < cnt 3 ∨ 16 < cnt 4 then some (0xB, 0, 0, 0)
      else none

/-- Every byte of [i, i + n) is zero. -/
def zeros (r : List Byte) (i n : Nat) : Bool := numAt r i n == 0

/-- CH_MASK consists of whole octets (R262). -/
def octets (ch : Nat) : Bool := (List.range 16).all (fun o => (ch >>> (8 * o)) % 256 == 0 || (ch >>> (8 * o)) % 256 == 255)

/-- The bytes that check 7 requires a record to begin with: its TYPE, and LEVEL[7:4] zero (R14). -/
def recHead (x : List Byte) (ty : Nat) : Bool := numAt x 0 1 == ty && decide (numAt x 1 1 < 16)

/-- A stake record in range (Table 1-3, R262, R409). -/
def stakeOk (x : List Byte) : Bool :=
  let r := parseStake x
  recHead x 1 && decide (r.stake < 16) && (
    if !r.enable then zeros x 3 141
    else
      decide (numAt x 3 1 < 4) && zeros x 4 4 && decide (r.eng ≠ 0) && decide (r.spad ≤ 16) && decide (1 ≤ r.mb) && decide (r.mb ≤ 16) &&
      zeros x 0xF 1 && octets r.ch && zeros x 0x4A 6 && decide (r.stackBase % 2 ^ 21 = 0) && decide (r.stackLim % 2 ^ 21 = 0) &&
      decide (r.stackBase < r.stackLim) && areaBytes r ((List.range 4).filter (fun d => decide (r.eng >>> (8 * d) % 256 ≠ 0))).length != 0 &&
      (inChMem r.ch r.stackBase (r.stackLim - r.stackBase) || inCxl r.stackBase (r.stackLim - r.stackBase)) &&
      [1, 2, 3, 4, 5, 6, 7, 0xB, 0xD].contains r.wfmt && [8, 3, 4].contains r.ffmt && [0xE, 0xF].contains r.xfmt &&
      (decide (r.group < 16) || r.group == 0xFF) && decide (r.jobBase < 64) && decide (r.seqLimit ≤ 256) && zeros x 0x6C 4 &&
      decide (r.kvBase % 65536 = 0) && (r.kvPages == 0 || inChMem r.ch r.kvBase 1) && decide (r.jrnlBase % 2 ^ 21 = 0) &&
      decide (r.jrnlKib % 2048 = 0) && inChMem r.ch r.jrnlBase (r.jrnlKib * 1024) && zeros x 0x84 12)

/-- A width code of the TOWPATH record for each port, and its unused bits (R17). -/
def widthsOk (x : List Byte) : Bool :=
  recHead x 2 && decide (numAt x 2 6 < 2 ^ 36) && (List.range 12).all (fun p => decide (bits (numAt x 2 6) (3 * p) 3 ≤ 4))

/-- A RING record in range (R18). -/
def ringOk (x : List Byte) : Bool :=
  let r := parseRing x
  recHead x 3 && decide (r.ring < 16) && zeros x 3 1 && decide (r.egress < 4096) && decide (r.ingress < 4096) &&
    decide (1 ≤ r.length) && decide (r.length ≤ 1024) && decide (r.position < r.length) && zeros x 12 4

/-- A GROUP record in range (R19). -/
def groupOk (x : List Byte) : Bool :=
  let r := parseGroup x
  recHead x 4 && decide (r.group < 16) && decide (1 ≤ r.members) && decide (r.members ≤ 1024) &&
    decide (r.rank < r.members) && decide (r.headroom ≤ 7) && zeros x 9 3

/-- The range of a pound's depth (Table 1-4); none for an ID that names no pound. -/
def poundRange (id : Nat) : Option (Nat × Nat) :=
  let i := id % 0x100
  match id / 0x100 with
  | 1 => if i < 32 then some (16, 256) else none
  | 2 => if i < 32 then some (8, 128) else none
  | 3 => if i < 32 then some (16, 256) else none
  | 4 => if i < 4 then some (8, 64) else none
  | 5 => if i < 16 then some (16, 128) else none
  | 6 => if i < 48 then some (16, 512) else none
  | 7 => if i < 80 then some (if i % 4 = 0 then (8, 128) else if i % 4 = 1 then (8, 64) else (16, 128)) else none
  | 8 => if i < 64 then some (16, 4096) else none
  | _ => none

/-- A POUND entry in range (R20). -/
def poundOk (x : List Byte) : Bool :=
  match poundRange (numAt x 0 2) with
  | none => false
  | some (lo, hi) => decide (lo ≤ numAt x 2 2) && decide (numAt x 2 2 ≤ hi)

/-- Blocks that the SEC must keep, in units of 64 KiB: GLB, WV, LK, SEC and PTB (R22). -/
def secBlocks : List (Nat × Nat) := [(0, 16), (0x10, 16), (0x20, 16), (0x30, 16), (0x400, 16)]

/-- An OWNER entry in range (R22, Table 10-6). -/
def ownerOk (x : List Byte) : Bool :=
  let r := parseOwner x
  decide (r.owners < 8) && zeros x 7 1 && decide (r.block + r.span ≤ 0x500) &&
    (r.owners.testBit 0 || !(secBlocks.any (fun p => spanMeet (p.1, p.1 + p.2) (r.block, r.block + r.span))))

/-- A HOSTQ entry in range (R21). -/
def hostqOk (x : List Byte) : Bool :=
  decide (numAt x 0 1 < 64) && (decide (numAt x 1 1 < 16) || numAt x 1 1 == 0xFF) && zeros x 2 2

/-- Check 7: RANGE. -/
def check7 (b : List Byte) : Option ImgErr :=
  let bad := fun (ty : Nat) (ok : List Byte → Bool) => ((imgRecords b ty).find? (fun x => !(ok x.2.2))).map (fun x => (8, x.1, x.2.1,
    if ty = 1 then numAt x.2.2 2 1 % 16 else 0))
  if 16 ≤ numAt b 4 1 ∨ imgCount b < 1 ∨ 32 < imgCount b ∨ !(zeros b 0x51 47) then some (8, 0, 0, 0)
  else match (imgDir b).find? (fun e => decide (16 ≤ e.level) || decide (2 ≤ e.flags) || decide (e.zero ≠ 0)) with
    | some e => some (8, e.idx, 0, 0)
    | none =>
      (bad 1 stakeOk).orElse (fun _ => (bad 2 widthsOk).orElse (fun _ => (bad 3 ringOk).orElse (fun _ => (bad 4 groupOk).orElse
        (fun _ => (bad 5 poundOk).orElse (fun _ => (bad 6 ownerOk).orElse (fun _ => bad 7 hostqOk))))))

/-- The activation-stack region and the journal of a stake (R409). -/
def StakeRec.spans (r : StakeRec) : List (Nat × Nat) :=
  [(r.stackBase, r.stackLim), (r.jrnlBase, r.jrnlBase + r.jrnlKib * 1024)]

/-- Two stakes share a unit, a way, a job ID or a region. -/
def stakesMeet (a b : StakeRec) : Bool :=
  decide (a.eng &&& b.eng ≠ 0) || decide (a.pvu &&& b.pvu ≠ 0) || decide (a.tc &&& b.tc ≠ 0) || decide (a.ch &&& b.ch ≠ 0) ||
    (a.ways.zip b.ways).any (fun p => decide (p.1 &&& p.2 ≠ 0)) ||
    spanMeet (a.jobBase, a.jobBase + a.jobCount) (b.jobBase, b.jobBase + b.jobCount) ||
    a.spans.any (fun x => b.spans.any (fun y => spanMeet x y))

/-- The first entry of a list that meets an earlier one, or one already there. -/
def findMeet {α : Type} (f : α → α → Bool) (before : List α) : List (Nat × Nat × α) → Option (Nat × Nat × α)
  | [] => none
  | x :: t => if before.any (fun y => f y x.2.2) then some x else findMeet f (x.2.2 :: before) t

/-- The first entry at which a sum passes a limit. -/
def findSum {α : Type} (f : α → Nat) (limit acc : Nat) : List (Nat × Nat × α) → Option (Nat × Nat × α)
  | [] => none
  | x :: t => if limit < acc + f x.2.2 then some x else findSum f limit (acc + f x.2.2) t

/-- The enabled stake records of an image, with their places. -/
def imgStakes (b : List Byte) : List (Nat × Nat × StakeRec) :=
  ((imgRecords b 1).map (fun x => (x.1, x.2.1, parseStake x.2.2))).filter (fun x => x.2.2.enable)

/-- The stakes that stay as they are under a partial image. -/
def otherStakes (new : WeaveData) (target : Nat) : List StakeRec :=
  if target = 0xFF then [] else new.stakes.filter (fun r => r.enable && r.stake != target)

/-- A failed check at a record: WV_ERR names its section and its index there, and the stake of a stake record (R24). -/
def atStake (code : Nat) (x : Nat × Nat × StakeRec) : ImgErr := (code, x.1, x.2.1, x.2.2.stake % 16)

/-- Check 8: OVERLAP, over the image's own entries and the enabled stakes that would be active. -/
def check8 (b : List Byte) (old new : WeaveData) (target : Nat) : Option ImgErr :=
  let place := fun {α : Type} (ty : Nat) (f : List Byte → α) => (imgRecords b ty).map (fun x => (x.1, x.2.1, f x.2.2))
  let mine := if target = 0xFF then [] else old.hostq.filter (fun y => y.2 != target && y.2 != 0xFF)
  ((findMeet stakesMeet (otherStakes new target) (imgStakes b)).map (atStake 6)).orElse fun _ =>
  (((imgStakes b).find? (fun x => match x.2.2.spans with | [p, q] => spanMeet p q | _ => false)).map (atStake 6)).orElse fun _ =>
  ((findMeet (fun (x y : Nat × Nat) => x.1 == y.1 && x.2 != y.2) mine (place 7 (fun x => (numAt x 0 1, numAt x 1 1)))).map
    (fun x => (6, x.1, x.2.1, x.2.2.2 % 16))).orElse fun _ =>
  ((findMeet (fun (x y : OwnerRec) => spanMeet (x.block, x.block + x.span) (y.block, y.block + y.span)) [] (place 6 parseOwner)).map
    (fun x => (6, x.1, x.2.1, 0))).orElse fun _ =>
  (findMeet (fun (x y : RingRec) => decide (x.egress &&& y.egress ≠ 0) || decide (x.ingress &&& y.ingress ≠ 0)) []
    (place 3 parseRing)).map (fun x => (6, x.1, x.2.1, 0))

/-- The receive depths of port `p` add up to more than 1,024 flits (R20). -/
def WeaveData.portOver (w : WeaveData) (p : Nat) : Bool :=
  decide (1024 < ((List.range 4).map (fun c => w.depth (0x600 + 4 * p + c))).foldl (· + ·) 0)

/-- Checks 9 to 11: LIMIT, REFERENCE and FAILED_UNIT. -/
def check9 (s : State) (b : List Byte) (new : WeaveData) (target : Nat) : Option ImgErr :=
  let others := otherStakes new target
  let on := (imgStakes b).filter (fun x => new.stakes.contains x.2.2)
  let sum := fun (f : StakeRec → Nat) => (others.map f).foldl (· + ·) 0
  ((findSum (·.seqLimit) 256 (sum (·.seqLimit)) on).map (atStake 7)).orElse fun _ =>
  ((findSum (·.jobCount) 64 (sum (·.jobCount)) on).map (atStake 7)).orElse fun _ =>
  ((on.find? (fun x => decide (64 < x.2.2.jobBase + x.2.2.jobCount))).map (atStake 7)).orElse fun _ =>
  (((imgRecords b 5).find? (fun x => decide (numAt x.2.2 0 2 / 256 = 6) && new.portOver (numAt x.2.2 0 2 % 256 / 4))).map
    (fun x => (7, x.1, x.2.1, 0))).orElse fun _ =>
  ((on.find? (fun x => x.2.2.group != 0xFF && !(new.groups.any (fun g => g.group == x.2.2.group)))).map (atStake 0x10)).orElse fun _ =>
  (((imgRecords b 4).find? (fun x => !(new.rings.any (fun r => r.ring == (parseGroup x.2.2).ring)))).map
    (fun x => (0x10, x.1, x.2.1, 0))).orElse fun _ =>
  (on.find? (fun x => let r := x.2.2
    decide (r.eng &&& s.failEng ≠ 0) || decide (r.pvu &&& s.failPvu ≠ 0) || decide (r.tc &&& s.failTc ≠ 0) ||
      decide (r.ch &&& s.failCh ≠ 0))).map (atStake 9)

/-- The checks of a weave image for a target (0xFF: a full image), in order (R24). -/
def checkWeave (s : State) (b : List Byte) (given : Option Nat) (target : Nat) (sigOk : Bool) : Option ImgErr :=
  let old := if target = 0xFF then WeaveData.empty else s.weave.cur
  let new := imgProgram b old
  (checkImage s b given sigOk).orElse (fun _ => (check6 b target new).orElse (fun _ => (check7 b).orElse (fun _ =>
    (check8 b old new target).orElse (fun _ => check9 s b new target))))

end Sys2Proof.Machine
end

