-- ==== Sys2Proof/Machine/Kvp.lean ====
section
/-! DEFINITION. The KV page manager: the pool's records, KV instructions, gathers and their moorings, baskets (R226-R239). -/

namespace Sys2Proof.Machine

/-! ### the pool (R226, R227) -/

/-- What the keeper of a stake holds. -/
def State.kv (s : State) (k : Nat) : Kvp := KMap.get s.kvp .reset k

/-- The state with what the keeper of a stake holds. -/
def State.setKv (s : State) (k : Nat) (c : Kvp) : State := { s with kvp := KMap.set s.kvp .reset k c }

/-- ROWB of a stake's pool. -/
def State.rowb (s : State) (k : Nat) : Nat := s.fld (R.kvpSGeom (s.keeper k) k) F.kvpSGeomRowb64 * 64

/-- PSIZE for a row of `r` bytes (R226). -/
def psizeOf (r : Nat) : Nat := ceilDiv (16 * r) 4096 * 4096

/-- LAYERS of a stake's pool. -/
def State.layers (s : State) (k : Nat) : Nat := s.fld (R.kvpSGeom (s.keeper k) k) F.kvpSGeomLayers

/-- PT_ENTRIES of a stake's pool. -/
def State.ptEntries (s : State) (k : Nat) : Nat := s.fld (R.kvpSGeom (s.keeper k) k) F.kvpSGeomPtEntries

/-- The address of row `t` mod 16 of page `p`, layer `l` (R226). -/
def State.kvRow (s : State) (k p l t : Nat) : Nat :=
  (s.stake k).kvBase + (l * (s.stake k).kvPages + p) * psizeOf (s.rowb k) + t % 16 * s.rowb k

/-- The page record of page `p`. -/
def State.pageAt (s : State) (k p : Nat) : Nat := s.fld (R.kvpSMeta (s.keeper k) k) F.kvpSMetaBase * 4096 + 8 * p

/-- The sequence record of sequence `q`. -/
def State.seqAt (s : State) (k q : Nat) : Nat := s.fld (R.kvpSSeqrec (s.keeper k) k) F.kvpSSeqrecBase * 4096 + 16 * q

/-- The table entry of logical page `i` of sequence `q`. -/
def State.entryAt (s : State) (k q i : Nat) : Nat :=
  s.fld (R.kvpSPtab (s.keeper k) k) F.kvpSPtabBase * 4096 + (q * s.ptEntries k + i) * 4

/-- No page. -/
def noPage : Nat := 0xFFFFFFFF

def State.refs (s : State) (k p : Nat) : Nat := s.num (s.pageAt k p) 2
def State.moors (s : State) (k p : Nat) : Nat := s.num (s.pageAt k p + 2) 1
def State.pendingPage (s : State) (k p : Nat) : Bool := (s.num (s.pageAt k p + 3) 1).testBit 0
def State.entry (s : State) (k q i : Nat) : Nat := s.num (s.entryAt k q i) 4
def State.seqLen (s : State) (k q : Nat) : Nat := s.num (s.seqAt k q) 4
def State.live (s : State) (k q : Nat) : Bool := (s.num (s.seqAt k q + 4) 1).testBit 0

/-- The low half of a page record: REFS, MOORS and PENDING. -/
def State.setPage (s : State) (k p refs moors : Nat) (pend : Bool) : State :=
  s.wr (s.pageAt k p) (toBytes 2 refs ++ toBytes 1 moors ++ toBytes 1 (if pend then 1 else 0))

/-- A sequence record. -/
def State.setSeq (s : State) (k q len : Nat) (live : Bool) : State :=
  s.wr (s.seqAt k q) (toBytes 4 len ++ toBytes 1 (if live then 1 else 0) ++ List.replicate 11 0)

/-- A table entry. -/
def State.setEntry (s : State) (k q i p : Nat) : State := s.wrN (s.entryAt k q i) 4 p

/-- KVP_S_STATUS.FREE of a pool. -/
def State.freePages (s : State) (k : Nat) : Nat := s.fld (R.kvpSStatus (s.keeper k) k) F.kvpSStatusFree

/-- The state with KVP_S_STATUS.FREE. -/
def State.setFreePages (s : State) (k n : Nat) : State := s.setFld (R.kvpSStatus (s.keeper k) k) F.kvpSStatusFree n

/-- A page goes to the head of the free list (R234, R235). -/
def State.freePage (s : State) (k p : Nat) : State :=
  let s := (s.setPage k p 0 0 false).wrN (s.pageAt k p + 4) 4 (s.kv k).head
  (s.setKv k { s.kv k with head := p }).setFreePages k (s.freePages k + 1)

/-- The page at the head of the free list is taken with REFS 1 (R230). -/
def State.takePage (s : State) (k : Nat) : Option (Nat × State) :=
  let p := (s.kv k).head
  if p = noPage then none
  else
    let s := s.setKv k { s.kv k with head := s.num (s.pageAt k p + 4) 4 }
    some (p, (s.setPage k p 1 0 false).setFreePages k (s.freePages k - 1))

/-- One reference less; the last one frees the page, or leaves it PENDING under a mooring (R234). -/
def State.dropRef (s : State) (k p : Nat) : State :=
  let r := s.refs k p - 1
  let m := s.moors k p
  if r ≠ 0 then s.setPage k p r m (s.pendingPage k p)
  else if m = 0 then s.freePage k p
  else s.setPage k p 0 m true

/-- A mooring on a page (R232). -/
def State.moor (s : State) (k p : Nat) : State := s.setPage k p (s.refs k p) (s.moors k p + 1) (s.pendingPage k p)

/-- A mooring released; a PENDING page without moorings is freed (R234). -/
def State.unmoor (s : State) (k p : Nat) : State :=
  let m := s.moors k p - 1
  if m = 0 ∧ s.pendingPage k p then s.freePage k p
  else s.setPage k p (s.refs k p) m (s.pendingPage k p)

/-- Bytes copied, counted in units of 64 since the last INIT. -/
def State.countCopy (s : State) (k n : Nat) : State :=
  let c := (s.kv k).copied + n
  (s.setKv k { s.kv k with copied := c }).setReg (R.kvpSCntCopy (s.keeper k) k) (BitVec.ofNat 64 (c / 64))

/-- A copy of bytes; what cannot be read is written as poison, which is reported (R238). -/
def State.copyPiece (s : State) (k src dst n : Nat) : State × Bool :=
  let s := s.countCopy k n
  if s.unreadable src n then (s.wrPoison dst n, true) else (s.wr dst (s.bytes src n), false)

/-- A list of copies: source, destination, length. -/
def State.copyPieces (s : State) (k : Nat) (l : List (Nat × Nat × Nat)) : State × Bool :=
  l.foldl (fun st p =>
    let r := st.1.copyPiece k p.1 p.2.1 p.2.2
    (r.1, st.2 || r.2)) (s, false)

/-! ### descriptors and baskets (R229) -/

/-- A KV descriptor (Table 9-11). -/
structure KvD where
  level  : Nat
  rsv    : Nat
  layer  : Nat
  seq    : Nat
  seq2   : Nat
  ntok   : Nat
  first  : Nat
  basket : Nat
  addr   : Nat
  stride : Nat
  coloff : Nat
  colb   : Nat
  mask   : Nat
  deriving DecidableEq, Repr

/-- A KV descriptor from its 128 bytes. -/
def parseKv (b : List Byte) : KvD :=
  ⟨numAt b 0 1, numAt b 1 1 + numAt b 0x2C 4 + numAt b 0x50 48, numAt b 2 2, numAt b 4 2, numAt b 6 2, numAt b 8 4, numAt b 12 4,
   numAt b 16 8, numAt b 24 8, numAt b 32 4, numAt b 36 4, numAt b 40 4, numAt b 48 32⟩

/-- The descriptor names a basket. -/
def kvBasketOp (opc : Nat) : Bool := opc == 0x20 || opc == 0x21 || opc == 0x24

/-- KV_DESC conditions of a descriptor that was read, by the fields its instruction uses. -/
def State.kvDescBad (s : State) (k opc daddr : Nat) (d : KvD) : Bool :=
  let ntok := decide (d.ntok = 0) || decide (65536 < d.ntok)
  let cols := decide (s.layers k ≤ d.layer) || decide (d.stride % 4 ≠ 0) || decide (d.stride < d.colb) ||
    decide (d.coloff % 4 ≠ 0) || decide (d.colb % 4 ≠ 0) || decide (s.rowb k < d.coloff + d.colb)
  decide (daddr % 64 ≠ 0) || decide (d.level ≠ (s.stake k).level) || decide (d.rsv ≠ 0) ||
    ((kvBasketOp opc || opc == 0x25) && decide (d.basket % 64 ≠ 0)) ||
    ((opc ≤ 0x23) && ntok) || ((opc == 0x21 || opc == 0x22) && cols) ||
    (opc == 0x25 && (decide (d.coloff = 0) || decide (256 < d.coloff)))

/-- The sequences of a basket. -/
def basketSeqs (b : List Byte) : List Nat := (List.range (numAt b 2 2)).map (fun i => numAt b (16 + i) 1)

/-- KV_DESC conditions of a basket that was read. -/
def basketBad (b : List Byte) (level : Nat) : Bool :=
  let n := numAt b 2 2
  decide (numAt b 0 1 ≠ level) || decide (numAt b 1 1 ≠ 0) || n == 0 || decide (256 < n) || decide (numAt b 12 4 ≠ 0) ||
    decide (numAt b (16 + n) (304 - n) ≠ 0) || !(decide (basketSeqs b).Nodup)

/-- Sequences that a KV instruction names and, for KBASKET, that its MASK selects. -/
def kvSeqs (opc : Nat) (d : KvD) (basket : List Byte) : List Nat :=
  if kvBasketOp opc then basketSeqs basket
  else if opc = 0x22 then [d.seq]
  else if opc = 0x23 then [d.seq, d.seq2]
  else onesOf 256 d.mask

/-- Every row of `n` that starts at ADDR lies in the stake's memory. -/
def State.kvRowsIn (s : State) (k : Nat) (d : KvD) (n : Nat) : Bool :=
  d.colb == 0 || (List.range n).all (fun t => s.inStake k (d.addr + t * d.stride) d.colb)

/-- Baskets of BMAX that hold `n` sequences. -/
def basketCount (d : KvD) (n : Nat) : Nat := if d.coloff = 0 then 0 else ceilDiv n d.coloff

/-- KV_ADDR conditions. -/
def State.kvAddrBad (s : State) (k opc : Nat) (d : KvD) : Bool :=
  if kvBasketOp opc then !(s.inStake k d.basket 320)
  else if opc = 0x25 then !(s.inStake k d.basket (64 + 320 * basketCount d (popcount 256 d.mask)))
  else opc == 0x22 && !(s.kvRowsIn k d d.ntok)

/-- A page or sequence record of the sequences is poisoned (R238). PRESUMED (log 49): so is one whose table entry cannot be read. -/
def State.kvRecordBad (s : State) (k : Nat) (l : List Nat) : Bool :=
  l.any (fun q => s.unreadable (s.seqAt k q) 16 ||
    (s.live k q && (List.range (ceilDiv (s.seqLen k q) 16)).any (fun i =>
      s.unreadable (s.entryAt k q i) 4 || s.unreadable (s.pageAt k (s.entry k q i)) 8)))

/-- The pages that KEXTEND needs for the sequences of a basket; `cw` names a page for each copy on write before (R230). -/
def State.pagesNeeded (s : State) (k ntok : Nat) : List Nat → List Nat → Nat
  | [], _ => 0
  | q :: t, cw =>
    let len := if s.live k q then s.seqLen k q else 0
    let p := s.entry k q (len / 16)
    let cow := decide (len % 16 ≠ 0) && decide (1 + cw.count p < s.refs k p)
    ceilDiv (len + ntok) 16 - ceilDiv len 16 + (if cow then 1 else 0) + s.pagesNeeded k ntok t (if cow then p :: cw else cw)

/-- One of the first `n` records of the free list that starts with page `p` is poisoned (R238). -/
def State.freeListBad (s : State) (k p : Nat) : Nat → Bool
  | 0 => false
  | n + 1 => s.unreadable (s.pageAt k p) 8 || s.freeListBad k (s.num (s.pageAt k p + 4) 4) n

/-- KV_SEQ conditions. -/
def State.kvSeqBad (s : State) (k opc : Nat) (l : List Nat) : Bool :=
  l.any (fun q => decide ((s.stake k).seqLimit ≤ q)) ||
    (if opc = 0x20 then false
     else if opc = 0x23 then !(s.live k (l.getD 0 0)) || s.live k (l.getD 1 0)
     else l.any (fun q => !(s.live k q)))

/-- Faults that depend on what the pool holds (R230-R234), in the order KV_SEQ, KV_RANGE, KV_SHARED, KV_REFS, KV_NOPAGE. -/
def State.kvPoolFault (s : State) (k opc : Nat) (d : KvD) (l : List Nat) : Option Nat :=
  let len := fun (q : Nat) => if s.live k q then s.seqLen k q else 0
  firstOfCodes [(s.kvSeqBad k opc l, 0x72),
    (match opc with
      | 0x20 => l.any (fun q => decide (16 * s.ptEntries k < len q + d.ntok))
      | 0x21 => l.any (fun q => decide (len q < d.ntok))
      | 0x22 => decide (len d.seq < d.first + d.ntok)
      | 0x23 => decide (len d.seq < d.ntok)
      | _ => false, 0x73),
    (opc == 0x21 && l.any (fun q => (List.range (ceilDiv (len q) 16 - (len q - d.ntok) / 16)).any (fun i =>
      decide (1 < s.refs k (s.entry k q ((len q - d.ntok) / 16 + i))))), 0x76),
    (opc == 0x23 && (List.range (ceilDiv d.ntok 16)).any (fun i => decide (65535 ≤ s.refs k (s.entry k d.seq i))), 0x75),
    (opc == 0x20 && decide (s.freePages k < s.pagesNeeded k d.ntok l []), 0x74)]
where
  /-- The code of the first condition that holds. -/
  firstOfCodes (l : List (Bool × Nat)) : Option Nat := (l.find? (fun p => p.1)).map (fun p => p.2)

/-- The pool is READY and no record of it was found poisoned (R228, R238). -/
def State.kvReady (s : State) (k : Nat) : Bool :=
  s.flag (R.kvpSStatus (s.keeper k) k) F.kvpSStatusReady && !(s.flag (R.kvpSStatus (s.keeper k) k) F.kvpSStatusMetaPoison)

/-- META_POISON is set (R238). -/
def State.metaPoison (s : State) (k : Nat) : State := s.setFld (R.kvpSStatus (s.keeper k) k) F.kvpSStatusMetaPoison 1

/-- A fault of a KV instruction. -/
def State.raiseKv (s : State) (k x i code : Nat) : State :=
  (s.kvpErr k x i code).raiseFault k x i code 0xFF false

/-! ### effects (R230-R234, R237) -/

/-- The pieces of a copy of rows 0 to `n` - 1 of every layer plane from page `a` to page `b`. -/
def State.planePieces (s : State) (k a b n : Nat) : List (Nat × Nat × Nat) :=
  (List.range (s.layers k)).map (fun l => (s.kvRow k a l 0, s.kvRow k b l 0, n * s.rowb k))

/-- New pages for logical pages `i` on, `n` of them (R230 step 3). -/
def State.growPages (s : State) (k q i : Nat) : Nat → Option State
  | 0 => some s
  | n + 1 => match s.takePage k with
    | none => none
    | some (p, s) => (s.setEntry k q i p).growPages k q (i + 1) n

/-- Rows just added hold undefined bytes (R230). -/
def State.undefineRows (s : State) (k q len ntok : Nat) : State :=
  s.forAll (List.range ((len + ntok - 1) / 16 - len / 16 + 1)) (fun s i =>
    let lp := len / 16 + i
    let lo := max len (16 * lp)
    let hi := min (len + ntok) (16 * lp + 16)
    s.forAll (List.range (s.layers k)) (fun s l =>
      let a := s.kvRow k (s.entry k q lp) l lo
      s.lose a (a + (hi - lo) * s.rowb k)))

/-- One basket entry of KEXTEND (R230): none where the free list runs out. -/
def State.extendSeq (s : State) (k ntok q : Nat) : Option (State × Bool) :=
  let len := if s.live k q then s.seqLen k q else 0
  let cow : Option (State × Bool) :=
    if len % 16 ≠ 0 ∧ 1 < s.refs k (s.entry k q (len / 16)) then
      match s.takePage k with
      | none => none
      | some (p, s) =>
        let old := s.entry k q (len / 16)
        let r := s.copyPieces k (s.planePieces k old p (len % 16))
        some ((((r.1.setEntry k q (len / 16) p).dropRef k old).count (R.kvpSCntCow (s.keeper k) k) 1), r.2)
    else some (s, false)
  match cow with
  | none => none
  | some (s, bad) =>
    let a := ceilDiv len 16
    match s.growPages k q a (ceilDiv (len + ntok) 16 - a) with
    | none => none
    | some s => some ((s.setSeq k q (len + ntok) true).undefineRows k q len ntok, bad)

/-- KEXTEND over a basket, or none where the pages do not suffice. -/
def State.extendAll (s : State) (k ntok : Nat) : List Nat → Option (State × Bool)
  | [] => some (s, false)
  | q :: t => match s.extendSeq k ntok q with
    | none => none
    | some (s, b) => (s.extendAll k ntok t).map (fun r => (r.1, r.2 || b))

/-- KWRITE (R231). -/
def State.kvWrite (s : State) (k : Nat) (d : KvD) (l : List Nat) : State × Bool :=
  s.copyPieces k ((l.zip (List.range l.length)).flatMap (fun e => (List.range d.ntok).map (fun t =>
    let pos := s.seqLen k e.1 - d.ntok + t
    (d.addr + (e.2 * d.ntok + t) * d.stride, s.kvRow k (s.entry k e.1 (pos / 16)) d.layer pos + d.coloff, d.colb))))

/-- KSHARE (R233). -/
def State.kvShare (s : State) (k : Nat) (d : KvD) : State :=
  let s := s.forAll (List.range (ceilDiv d.ntok 16)) (fun s i =>
    let p := s.entry k d.seq i
    (s.setEntry k d.seq2 i p).setPage k p (s.refs k p + 1) (s.moors k p) (s.pendingPage k p))
  s.setSeq k d.seq2 d.ntok true

/-- KFREE of one sequence (R234). -/
def State.kvFree (s : State) (k q : Nat) : State :=
  let s := s.forAll (List.range (ceilDiv (s.seqLen k q) 16)) (fun s i =>
    let p := s.entry k q i
    (s.dropRef k p).setEntry k q i noPage)
  s.setSeq k q 0 false

/-- Insert a sequence in descending order of length, ties by ascending number. -/
def insertByLen (len : Nat → Nat) (q : Nat) : List Nat → List Nat
  | [] => [q]
  | a :: t => if len a < len q then q :: a :: t else a :: insertByLen len q t

/-- KBASKET (R237): the count, then each basket. -/
def State.kvBaskets (s : State) (k : Nat) (d : KvD) : State :=
  let len := s.seqLen k
  let l := (onesOf 256 d.mask).foldl (fun m q => insertByLen len q m) []
  let n := basketCount d l.length
  let s' := s.wr d.basket (toBytes 8 n ++ List.replicate 56 0)
  s'.forAll (List.range n) (fun s' b =>
    let qs := (l.drop (b * d.coloff)).take d.coloff
    s'.wr (d.basket + 64 + 320 * b)
      (toBytes 1 (s.stake k).level ++ toBytes 1 0 ++ toBytes 2 qs.length ++ toBytes 4 (len (qs.headD 0)) ++
        toBytes 4 (len (qs.getLastD 0)) ++ toBytes 4 0 ++ slice (qs.flatMap (toBytes 1)) 0 304))

/-! ### KV instructions (R229) -/

/-- Gathers of a stake that have issued. -/
def State.gathers (s : State) (k : Nat) : List Outst := (s.q k).outst.filter (fun o => opcOf o.word == 0x22 && o.issued)

/-- KVP_S_STATUS.GATHERS follows them. -/
def State.syncKv (s : State) (k : Nat) : State :=
  s.setFld (R.kvpSStatus (s.keeper k) k) F.kvpSStatusGathers (s.gathers k).length

/-- KEXTEND's effect; its pages suffice (R230). -/
def State.kvExtend (s : State) (k : Nat) (d : KvD) (l : List Nat) : State × Bool := (s.extendAll k d.ntok l).getD (s, false)

/-- What a KV instruction does as it issues, by its OPC, and whether it met poison; KGATHER's rows are copied later (R230-R237). -/
def State.kvEffect (s : State) (k opc : Nat) (d : KvD) (l : List Nat) : State × Bool :=
  match opc with
  | 0x20 => s.kvExtend k d l
  | 0x21 => s.kvWrite k d l
  | 0x23 => (s.kvShare k d, false)
  | 0x24 => (s.forAll l (fun s q => s.kvFree k q), false)
  | 0x25 => (s.kvBaskets k d, false)
  | _ => (s, false)

/-- The pages that a gather reads, in order; none for another instruction. -/
def State.gatherPages (s : State) (k opc : Nat) (d : KvD) : List Nat :=
  if opc = 0x22 then (List.range ((d.first + d.ntok - 1) / 16 - d.first / 16 + 1)).map (fun i => s.entry k d.seq (d.first / 16 + i)) else []

/-- The fault of a KV instruction as it issues: the pool or a record that it reads, then what the pool holds; `true` marks a record
found poisoned (R228, R238). -/
def State.kvIssueFault (s : State) (k opc : Nat) (d : KvD) (l : List Nat) : Option (Bool × Nat) :=
  if !(s.kvReady k) then some (false, 0x77)
  else if s.kvRecordBad k l then some (true, 0x77)
  else match s.kvPoolFault k opc d l with
    | some c => some (false, c)
    | none => if opc == 0x20 && s.freeListBad k (s.kv k).head (s.pagesNeeded k d.ntok l []) then some (true, 0x77) else none

/-- KV instructions. -/
def Outst.isKv (o : Outst) : Bool := decide (0x20 ≤ opcOf o.word) && decide (opcOf o.word ≤ 0x25)

/-- The KV instructions of a stake issue in dispatch order (R129): at acceptance, a gather while fewer than 8 run, with every page of
its range moored (R232). -/
def State.issueKv (s : State) (k : Nat) : Nat → State
  | 0 => s
  | n + 1 =>
    match (s.q k).outst.find? (fun o => o.isKv && !o.issued) with
    | none => s
    | some o =>
      let opc := opcOf o.word
      let d := parseKv o.desc
      let l := kvSeqs opc d o.chain
      if s.noIssue k || (opc == 0x22 && decide (8 ≤ (s.gathers k).length)) then s
      else match s.kvIssueFault k opc d l with
        | some (rec, c) =>
          let s := if rec then s.metaPoison k else s
          (s.kvpErr k o.strm o.index c).faultOut k o c 0xFF
        | none =>
          let pages := s.gatherPages k opc d
          let s := s.forAll pages (fun s p => s.moor k p)
          let (s, bad) := s.kvEffect k opc d l
          let s := s.updOutst k o.seq (fun p => { p.issueAt (s.q k).nextTurn with acc := [pages], run := { p.run with poison := bad } })
          (s.syncKv k).issueKv k n

/-- A KV instruction at the head of F or B: its word, the pool, its descriptor and basket; it dispatches, and issues in its turn. -/
def State.kvOp (s : State) (k x opc : Nat) : State :=
  s.withHead k x [opc] (fun w s =>
    let i := s.indexOf k x
    let a := bits w 64 52
    let b := s.bytes a 128
    let d := parseKv b
    if bits w 32 32 ≠ 0 ∨ bits w 116 12 ≠ 0 then s.raiseKv k x i 0x70
    else if !(s.kvReady k) then s.raiseKv k x i 0x77
    else if s.unreadable a 128 || s.kvDescBad k opc a d then s.raiseKv k x i 0x71
    else if s.kvAddrBad k opc d then s.raiseKv k x i 0x78
    else
      let bk := if kvBasketOp opc then s.bytes d.basket 320 else []
      if kvBasketOp opc && (s.unreadable d.basket 320 || basketBad bk (s.stake k).level) then s.raiseKv k x i 0x71
      else if opc == 0x21 && !(s.kvRowsIn k d ((kvSeqs opc d bk).length * d.ntok)) then s.raiseKv k x i 0x78
      else
        let s := s.dispatchOut k x w 0xFF false b bk 0
        s.issueKv k (s.q k).outst.length)

/-- KGATHER_UNMOOR (R232): the rows of the next page of the oldest gather with pages left are copied; the page is unmoored. -/
def State.gatherPage (s : State) (k : Nat) : State :=
  match (s.gathers k).find? (fun o => decide (o.prog < (o.acc.headD []).length)) with
  | none => s
  | some o =>
    let d := parseKv o.desc
    let p := (o.acc.headD []).getD o.prog 0
    let lp := d.first / 16 + o.prog
    let lo := max d.first (16 * lp)
    let hi := min (d.first + d.ntok) (16 * lp + 16)
    let r := s.copyPieces k ((List.range (hi - lo)).map (fun j =>
      (s.kvRow k p d.layer (lo + j) + d.coloff, d.addr + (lo + j - d.first) * d.stride, d.colb)))
    let s := if r.1.unreadable (s.pageAt k p) 8 then r.1.metaPoison k else r.1.unmoor k p
    s.updOutst k o.seq (fun o => { o with
      prog := o.prog + 1
      run := { o.run with poison := o.run.poison || r.2 } })

/-- KV_COMPLETE (R229): the oldest KV instruction whose writes are all made completes; KV_POISON is reported after (R238). -/
def State.kvComplete (s : State) (k : Nat) : State :=
  match (s.q k).outst.find? (fun o => o.isKv && o.issued &&
      (opcOf o.word != 0x22 || decide ((o.acc.headD []).length ≤ o.prog))) with
  | none => s
  | some o =>
    let s := s.complete k o
    let s := if o.run.poison then (s.kvpErr k o.strm o.index 0x79).raiseFault k o.strm o.index 0x79 0xFF true else s
    (s.syncKv k).issueKv k (s.q k).outst.length

/-! ### INIT and RELEASE (R228) -/

/-- Intervals that a pool must not overlap: the stake's activation-stack region and journal (R409). -/
def StakeRec.regions (r : StakeRec) : List (Nat × Nat) :=
  [(r.stackBase, r.stackLim), (r.jrnlBase, r.jrnlBase + r.jrnlKib * 1024)]

/-- INIT's checks. -/
def State.kvInitBad (s : State) (k : Nat) : Bool :=
  let r := s.stake k
  let d := s.keeper k
  let g := R.kvpSGeom d k
  let rb := s.fld g F.kvpSGeomRowb64
  let ly := s.layers k
  let n := ly * r.kvPages * psizeOf (s.rowb k)
  rb == 0 || decide (256 < rb) || ly == 0 || decide (256 < ly) || s.ptEntries k == 0 || r.kvPages == 0 ||
    !(s.inHbmOf k r.kvBase n) || !(s.inStake k (s.pageAt k 0) (8 * r.kvPages)) || !(s.inStake k (s.seqAt k 0) (16 * r.seqLimit)) ||
    !(s.inStake k (s.entryAt k 0 0) (4 * s.ptEntries k * r.seqLimit)) || anyOverlap [(r.kvBase, r.kvBase + n)] r.regions

/-- INIT (R228). -/
def State.kvInit (s : State) (k : Nat) : State :=
  let a := R.kvpSStatus (s.keeper k) k
  if s.kvInitBad k then s.setFld a F.kvpSStatusInitErr 1
  else
    let n := (s.stake k).kvPages
    let s := s.wr (s.pageAt k 0) ((List.range n).flatMap (fun p => toBytes 4 0 ++ toBytes 4 (if p + 1 = n then noPage else p + 1)))
    let s := s.wr (s.seqAt k 0) (List.replicate (16 * (s.stake k).seqLimit) 0)
    let s := s.wr (s.entryAt k 0 0) (List.replicate (4 * ((s.stake k).seqLimit * s.ptEntries k)) 0xFF)
    let s := ((s.setKv k ⟨0, 0⟩).setReg (R.kvpSCntCow (s.keeper k) k) 0).setReg (R.kvpSCntCopy (s.keeper k) k) 0
    let s := ((s.setFld a F.kvpSStatusInitErr 0).setFld a F.kvpSStatusMetaPoison 0).setFld a F.kvpSStatusFree n
    s.setFld a F.kvpSStatusReady 1

/-- A write of KVP_S_CMD at die `d`: dropped with an error response in a KVP that is not the stake's keeper, and while the stake is neither
IDLE nor STOPPED. -/
def State.kvCmd (s : State) (m : Master) (rivals : List Master) (d k : Nat) (body : State → State) : State :=
  s.command m rivals (R.kvpSCmd d k) (fun s =>
    if !(s.enabled k) || decide (d ≠ s.keeper k) || !(s.pst k == stIdle || s.pst k == stStopped) then s.answer .error else body s)

/-- KEXTEND (R230). -/
def execKextend (k : Fin 16) (x : Strm) (s : State) : Host.Outcome State Fault Refusal :=
  .next (s.kvOp k x.num 0x20)
/-- KWRITE (R231). -/
def execKwrite (k : Fin 16) (x : Strm) (s : State) : Host.Outcome State Fault Refusal :=
  .next (s.kvOp k x.num 0x21)
/-- KGATHER (R232). -/
def execKgather (k : Fin 16) (x : Strm) (s : State) : Host.Outcome State Fault Refusal :=
  .next (s.kvOp k x.num 0x22)
/-- KSHARE (R233). -/
def execKshare (k : Fin 16) (x : Strm) (s : State) : Host.Outcome State Fault Refusal :=
  .next (s.kvOp k x.num 0x23)
/-- KFREE (R234). -/
def execKfree (k : Fin 16) (x : Strm) (s : State) : Host.Outcome State Fault Refusal :=
  .next (s.kvOp k x.num 0x24)
/-- KBASKET (R237). -/
def execKbasket (k : Fin 16) (x : Strm) (s : State) : Host.Outcome State Fault Refusal :=
  .next (s.kvOp k x.num 0x25)
/-- KGATHER_UNMOOR. -/
def execKgatherUnmoor (k : Fin 16) (s : State) : Host.Outcome State Fault Refusal := .next (s.gatherPage k)
/-- KV_COMPLETE. -/
def execKvComplete (k : Fin 16) (s : State) : Host.Outcome State Fault Refusal := .next (s.kvComplete k)
/-- INIT (R228). -/
def execInit (m : Master) (rivals : List Master) (d : Fin 4) (k : Fin 16) (s : State) : Host.Outcome State Fault Refusal :=
  .next (s.kvCmd m rivals d k (fun s => s.kvInit k))
/-- RELEASE (R228). -/
def execRelease (m : Master) (rivals : List Master) (d : Fin 4) (k : Fin 16) (s : State) : Host.Outcome State Fault Refusal :=
  .next (s.kvCmd m rivals d k (fun s => s.setFld (R.kvpSStatus (s.keeper k) k) F.kvpSStatusReady 0))

end Sys2Proof.Machine
end

