-- ==== Sys2Proof/Machine/Fec.lean ====
section
/-! DEFINITION. Towpath frames as bytes: header, flit, CRC-32 and the parity of two Reed-Solomon RS(140,132) codewords over GF(2^8)
(R290, R291). -/

namespace Sys2Proof.Machine

/-! ### GF(2^8), field polynomial x^8 + x^4 + x^3 + x^2 + 1 -/

/-- Times x. -/
def gfX (a : Nat) : Nat := if a < 128 then 2 * a else (2 * a) ^^^ 0x11D

/-- Product, over the `n` low bits of `b`. -/
def gfMulN (a b : Nat) : Nat → Nat
  | 0 => 0
  | n + 1 => (if b.testBit 0 then a else 0) ^^^ gfMulN (gfX a) (b / 2) n

/-- Product. -/
def gfMul (a b : Nat) : Nat := gfMulN a b 8

/-- Power. -/
def gfPow (a : Nat) : Nat → Nat
  | 0 => 1
  | n + 1 => gfMul a (gfPow a n)

/-- Inverse: a^254, by squares. -/
def gfInv (a : Nat) : Nat :=
  let sq := fun (x : Nat) => gfMul x x
  let a3 := gfMul (sq a) a
  let a7 := gfMul (sq a3) a
  let a15 := gfMul (sq a7) a
  let a31 := gfMul (sq a15) a
  let a63 := gfMul (sq a31) a
  sq (gfMul (sq a63) a)

/-- A polynomial, lowest coefficient first, at `x`. -/
def gfEval (p : List Nat) (x : Nat) : Nat := p.foldr (fun c acc => c ^^^ gfMul acc x) 0

/-! ### decoding -/

/-- Syndromes of a codeword whose first byte is the highest coefficient, at the roots 1, x, ..., x^7. -/
def rsSyndromes (w : List Nat) : List Nat :=
  (List.range 8).map (fun j => let r := gfPow 2 j; w.foldl (fun acc c => gfMul acc r ^^^ c) 0)

/-- Coefficients of p + k x^m q. -/
def gfAddScaled (p q : List Nat) (k m : Nat) : List Nat :=
  (List.range 9).map (fun i => p.getD i 0 ^^^ (if m ≤ i then gfMul k (q.getD (i - m) 0) else 0))

/-- Berlekamp-Massey: the error locator and its degree. -/
def rsLocator (s : List Nat) : List Nat × Nat :=
  let r := (List.range 8).foldl (fun (st : List Nat × List Nat × Nat × Nat × Nat) n =>
    let (c, b, l, m, db) := st
    let d := (List.range (l + 1)).foldl (fun a i => a ^^^ gfMul (c.getD i 0) (s.getD (n - i) 0)) 0
    if d = 0 then (c, b, l, m + 1, db)
    else
      let c' := gfAddScaled c b (gfMul d (gfInv db)) m
      if 2 * l ≤ n then (c', c, n + 1 - l, 1, d) else (c', b, l, m + 1, db)) ([1], [1], 0, 1, 1)
  (r.1, r.2.2.1)

/-- A codeword of 140 bytes corrected: the bytes and the positions changed, or none where more than 4 bytes are wrong (R291). -/
def rsDecode (w : List Nat) : Option (List Nat × List Nat) :=
  let s := rsSyndromes w
  if s.all (fun x => x == 0) then some (w, [])
  else
    let (lam, l) := rsLocator s
    let omega := (List.range 8).map (fun i => (List.range (i + 1)).foldl (fun a j => a ^^^ gfMul (s.getD j 0) (lam.getD (i - j) 0)) 0)
    let deriv := (List.range 8).map (fun i => if i % 2 = 0 then lam.getD (i + 1) 0 else 0)
    let bad := (List.range 140).filter (fun i => gfEval lam (gfInv (gfPow 2 (139 - i))) == 0)
    if l = 0 ∨ 4 < l ∨ bad.length ≠ l then none
    else
      let w' := bad.foldl (fun w i =>
        let x := gfPow 2 (139 - i)
        let xi := gfInv x
        setAt w i (w.getD i 0 ^^^ gfMul x (gfMul (gfEval omega xi) (gfInv (gfEval deriv xi))))) w
      if (rsSyndromes w').all (fun x => x == 0) then some (w', bad) else none

/-- The place in a frame of byte `j` of codeword `c`. -/
def fecPlace (c j : Nat) : Nat := if j < 132 then 2 * j + c else 264 + 2 * (j - 132) + c

/-- The data bytes of a frame of 280 bytes after correction, and the frame bytes corrected (R291). -/
def fecDecode (b : List Byte) : Option (List Byte × List Nat) :=
  let word := fun (c : Nat) => (List.range 140).map (fun j => (b.getD (fecPlace c j) 0).toNat)
  match rsDecode (word 0), rsDecode (word 1) with
  | some (w0, f0), some (w1, f1) =>
    some ((List.range 264).map (fun i => BitVec.ofNat 8 (if i % 2 = 0 then w0.getD (i / 2) 0 else w1.getD (i / 2) 0)),
      f0.map (fecPlace 0) ++ f1.map (fecPlace 1))
  | _, _ => none

/-! ### encoding -/

/-- The generator with roots 1, x, ..., x^7, highest coefficient first. -/
def rsGen : List Nat :=
  (List.range 8).foldl (fun g j => List.zipWith (· ^^^ ·) (g ++ [0]) (0 :: g.map (fun c => gfMul c (gfPow 2 j)))) [1]

/-- The eight parity bytes of 132 data bytes: the remainder by `g`, the generator (R291). -/
def rsParity (g data : List Nat) : List Nat :=
  data.foldl (fun par d =>
    let f := d ^^^ par.headD 0
    List.zipWith (fun c p => gfMul f c ^^^ p) (g.drop 1) (par.drop 1 ++ [0])) (List.replicate 8 0)

/-! ### the CRC -/

/-- `n` bits of a CRC-32 of polynomial 0x04C1_1DB7, least significant bit first. -/
def crcBits (c : Nat) : Nat → Nat
  | 0 => c
  | n + 1 => crcBits (if c.testBit 0 then (c / 2) ^^^ 0xEDB88320 else c / 2) n

/-- The CRC-32 of a frame (Table 12-3). PRESUMED (log 58), unsafe: bit order, first value and final complement are those of the
IEEE 802.3 CRC-32, which has this polynomial. -/
def crc32 (b : List Byte) : Nat := (b.foldl (fun c x => crcBits (c ^^^ x.toNat) 8) 0xFFFFFFFF) ^^^ 0xFFFFFFFF

/-! ### frames -/

/-- A frame's header (Table 12-3). -/
def frameHead (kind cls seq ack : Nat) (nak : Bool) : Nat :=
  kind + 4 * cls + 16 * seq + 2 ^ 16 * ack + (if nak then 2 ^ 28 else 0)

/-- The 280 bytes of a frame: header and flit, CRC, and the parity of both codewords (R290, R291). -/
def frameBytes (head : Nat) (flit : List Byte) : List Byte :=
  let b := toBytes 4 head ++ slice flit 0 256
  let d := b ++ toBytes 4 (crc32 b)
  let par := fun (c : Nat) => rsParity rsGen ((List.range 132).map (fun j => (d.getD (2 * j + c) 0).toNat))
  let p0 := par 0
  let p1 := par 1
  d ++ (List.range 16).map (fun i => BitVec.ofNat 8 ((if i % 2 = 0 then p0 else p1).getD (i / 2) 0))

/-- A frame received: KIND, header, flit and the bytes corrected, or none where it is discarded: an uncorrectable codeword, a failed
CRC or an invalid KIND (R291). -/
def readFrame (b : List Byte) : Option (Nat × Nat × List Byte × List Nat) :=
  match fecDecode b with
  | none => none
  | some (d, fixed) =>
    let h := numAt d 0 4
    if crc32 (slice d 0 260) = numAt d 260 4 ∧ (h % 4 = 1 ∨ h % 4 = 2) then some (h % 4, h, slice d 4 256, fixed) else none

end Sys2Proof.Machine
end

