-- ==== Sys2Proof/Machine/Twp.lean ====
section
/-! DEFINITION. Towpath: ports, frames, credits, retry, training, rings, transfers and receive windows (R287-R305). -/

namespace Sys2Proof.Machine

/-! ### contexts -/

/-- The context of port `p`. -/
def State.pt (s : State) (p : Nat) : Port := KMap.get s.port .idle p

/-- The state with the context of port `p`. -/
def State.setPt (s : State) (p : Nat) (c : Port) : State := { s with port := KMap.set s.port .idle p c }

/-- The context of ring direction `rd`: ring * 2 + direction, 0 down, 1 up. -/
def State.rg (s : State) (rd : Nat) : RingDir := KMap.get s.ring .idle rd

/-- The state with the context of a ring direction. -/
def State.setRg (s : State) (rd : Nat) (c : RingDir) : State := { s with ring := KMap.set s.ring .idle rd c }

/-- The RING record of ring `r` (R18). -/
def State.ringRec (s : State) (r : Nat) : Option RingRec :=
  if s.weave.active then s.weave.cur.rings.find? (fun g => g.ring == r) else none

/-- The ports on which this module sends in a ring direction: EGRESS down, INGRESS up. -/
def State.sendMask (s : State) (rd : Nat) : Nat :=
  match s.ringRec (rd / 2) with
  | none => 0
  | some g => if rd % 2 = 0 then g.egress else g.ingress

/-- The ring direction of barges that port `p` sends: down on the ring whose EGRESS holds it, else up. -/
def State.ringDirs (s : State) : List Nat :=
  if s.weave.active then s.weave.cur.rings.flatMap (fun g => [2 * g.ring, 2 * g.ring + 1]) else []

/-- The ring direction of an arriving barge with DIR bit `d` (R297): down on the ring whose INGRESS holds the port, up on the one
whose EGRESS does. -/
def State.arrival (s : State) (p d : Nat) : Option Nat :=
  let l := s.ringDirs.filter (fun rd => (s.sendMask (rd ^^^ 1)).testBit p)
  match l.find? (fun rd => rd % 2 == d) with
  | some rd => some rd
  | none => l.head?

/-- TWP_P_STATUS.STATE. -/
def State.portState (s : State) (p : Nat) : Nat := s.fld (R.twpPStatus p) F.twpPStatusState

/-- The state with TWP_P_STATUS.STATE holding `v`; the event of a port that goes DOWN (R326). -/
def State.setPortState (s : State) (p v : Nat) : State :=
  let old := s.portState p
  let s := s.setFld (R.twpPStatus p) F.twpPStatusState v
  if v = 4 ∧ old ≠ 4 then s.modEvent F.hifMEvtTwpDown else s

/-- The configured width code of a port (R17), the OPTSEL default resolved; 1 disables it. -/
def State.widthCode (s : State) (p : Nat) : Nat :=
  if s.weave.active then
    let c := bits s.weave.cur.widths (3 * p) 3
    if c = 0 then s.fld R.lkOpt F.lkOptWidth else c
  else 1

/-- Lanes of a width code: 2 for x2, 4 for x4, 8 for x8. -/
def widthLanes (c : Nat) : Nat := if c = 2 then 2 else if c = 3 then 4 else if c = 4 then 8 else 0

/-- TWP_R_STATUS of a ring follows its ports and tags. -/
def State.syncRing (s : State) (r : Nat) : State :=
  match s.ringRec r with
  | none => s
  | some g =>
    let act := (List.range 12).foldl (fun m p => setBit m p (s.portState p == 2)) 0
    let tags := fun (c : RingDir) => (c.tags.map (fun t => t.1) ++ c.stuck.map (fun t => t.1)).foldl (fun m t => setBit m t true) 0
    let a := R.twpRStatus r
    let s := (s.setFld a F.twpRStatusEgUp (act &&& g.egress)).setFld a F.twpRStatusInUp (act &&& g.ingress)
    (s.setFld a F.twpRStatusTagsDn (tags (s.rg (2 * r)))).setFld a F.twpRStatusTagsUp (tags (s.rg (2 * r + 1)))

/-! ### sending (R296, R298, R205) -/

/-- A flit is a seal barge: class 3, TYPE 1. -/
def isSealFlit (cls : Nat) (f : List Byte) : Bool := cls == 3 && numAt f 0 1 == 1

/-- The job of a reduction flit. -/
def flitJob (f : List Byte) : Nat := bits (numAt f 2 1) 0 6

/-- The ring holds the seal or job credit that a barge needs. -/
def RingDir.credited (c : RingDir) (cls : Nat) (f : List Byte) : Bool :=
  if cls ≠ 3 then true
  else if isSealFlit cls f then decide (c.seals < 4)
  else decide (KMap.get c.jobs 0 (flitJob f) < 256)

/-- Count a barge as sent, or take it back. -/
def RingDir.charge (c : RingDir) (cls : Nat) (f : List Byte) (sent : Bool) : RingDir :=
  if cls ≠ 3 then c
  else if isSealFlit cls f then { c with seals := if sent then c.seals + 1 else c.seals - 1 }
  else
    let n := KMap.get c.jobs 0 (flitJob f)
    { c with jobs := KMap.set c.jobs 0 (flitJob f) (if sent then n + 1 else n - 1) }

/-- Some stack is in self-refresh: the ports return no class 0 to 2 credits (Table 12-7). -/
def State.hbmAsleep (s : State) : Bool := (List.range 8).any (fun h => s.fld (R.memStatus h) F.memStatusState == 2)

/-- Two ports lead to one neighbour: a ring direction sends on both (R295). -/
def State.sameNeighbour (s : State) (p q : Nat) : Bool :=
  s.ringDirs.any (fun rd => (s.sendMask rd).testBit p && (s.sendMask rd).testBit q)

/-- DONE_DN (`d` = 0) or DONE_UP of a port's CTRL flit: toggles and statuses of what arrives there in that direction. -/
def State.doneField (s : State) (p d : Nat) : List Byte :=
  match s.ringDirs.find? (fun rd => (s.sendMask (rd ^^^ 1)).testBit p && rd % 2 == d) with
  | some rd => toBytes 6 ((s.rg rd).tog + 65536 * (s.rg rd).stat)
  | none => List.replicate 6 0

/-- ACKX of port `q` in the CTRL flits of port `p`: the final ACK of a down port toward the same neighbour, VALID (R299). -/
def State.ackxField (s : State) (p q : Nat) : Nat :=
  match (s.pt q).final with
  | some a => if s.sameNeighbour p q then a % 4096 + 0x8000 else 0
  | none => 0

/-- The CTRL flit of port `p` (Table 12-4). While HBM is in self-refresh CREDIT0 to CREDIT2 stay as last sent (Table 12-7). -/
def State.ctrlFlit (s : State) (p : Nat) : List Byte :=
  let c := s.pt p
  let credit := fun (i : Nat) => toBytes 2 (c.freed.getD i 0)
  let low := if s.hbmAsleep then slice c.said 2 6 else credit 0 ++ credit 1 ++ credit 2
  low ++ credit 3 ++ credit 4 ++ s.doneField p 0 ++ s.doneField p 1 ++ [0, 0] ++
    (List.range 12).flatMap (fun q => toBytes 2 (s.ackxField p q)) ++
    (List.range 64).flatMap (fun j => toBytes 2 (KMap.get c.freedJob 0 j)) ++ List.replicate 80 0

/-- The ACK of the frames a port sends: SEQ of the last DATA frame accepted in order (R292). -/
def Port.ackNow (c : Port) : Nat := (c.rxSeq + 4095) % 4096

/-- What a CTRL frame of port `p` would say now: ACK and NAK, and the flit. -/
def State.ctrlSays (s : State) (p : Nat) : List Byte :=
  toBytes 2 ((s.pt p).ackNow + (if (s.pt p).nak then 4096 else 0)) ++ s.ctrlFlit p

/-- A CTRL frame leaves (R295). -/
def State.sendCtrl (s : State) (p : Nat) : State :=
  let c := s.pt p
  let b := s.ctrlSays p
  s.setPt p { c with
    wire := c.wire ++ [.frame (frameBytes (frameHead 2 0 0 c.ackNow c.nak) (b.drop 2))]
    said := b
    run := 0 }

/-- A DATA frame leaves, with the ACK and NAK of now; after 32 of them a CTRL frame follows where the control state has changed
(R292, R295). -/
def State.sendData (s : State) (p : Nat) (f : TxFrame) : State :=
  let c := s.pt p
  let s := s.setPt p { c with
    wire := c.wire ++ [.frame (frameBytes (frameHead 1 f.cls f.seq c.ackNow c.nak) f.flit)]
    run := c.run + 1 }
  if 32 ≤ c.run + 1 ∧ s.ctrlSays p ≠ c.said then s.sendCtrl p else s

/-- The port of a ring direction that sends a flit of a class next: an ACTIVE one with credit, in ascending order from the port whose
turn it is (R292, R296, R298). -/
def State.portFor (s : State) (rd cls : Nat) (f : List Byte) : Option Nat :=
  ((List.range 12).map (fun i => ((s.rg rd).turn + i) % 12)).find? (fun p =>
    let c := s.pt p
    (s.sendMask rd).testBit p && s.portState p == 2 && c.session && decide (c.replay.length < 1024) &&
      (isSealFlit cls f || decide (0 < c.credit.getD cls 0)))

/-- A flit framed and sent on a port; the frame is kept until it is acknowledged (R292). -/
def State.txFrame (s : State) (p rd cls : Nat) (f : List Byte) : State :=
  let c := s.pt p
  let credit := if isSealFlit cls f then c.credit else setAt c.credit cls (c.credit.getD cls 0 - 1)
  let fr : TxFrame := ⟨c.txSeq, cls, rd, f⟩
  (s.setPt p { c with
    txSeq := (c.txSeq + 1) % 4096
    credit := credit
    replay := c.replay ++ [fr] }).sendData p fr

/-- The place of the barge of a ring direction that leaves next, and its port: class 0 first, then the classes 1 to 3 in turn, among
those that hold credit (R296). -/
def State.nextFlit (s : State) (rd : Nat) : Option (Nat × Nat) :=
  let g := s.rg rd
  (0 :: (List.range 3).map (fun i => (g.lastCls + i) % 3 + 1)).findSome? (fun c =>
    (g.txq.zipIdx.findSome? (fun e =>
      if e.1.1 = c ∧ g.credited c e.1.2 then (s.portFor rd c e.1.2).map (fun p => (e.2, p)) else none)))

/-- Barges of a ring direction that hold their credits leave, at most `n`; the others wait. -/
def State.pumpN (s : State) (rd : Nat) : Nat → State
  | 0 => s
  | n + 1 => match s.nextFlit rd with
    | none => s
    | some (i, p) =>
      let g := s.rg rd
      let e := g.txq.getD i (0, [])
      let g := g.charge e.1 e.2 true
      ((s.setRg rd { g with
        txq := g.txq.eraseIdx i
        turn := (p + 1) % 12
        lastCls := if e.1 = 0 then g.lastCls else e.1 }).txFrame p rd e.1 e.2).pumpN rd n

/-- Every barge of a ring direction that holds its credits leaves. -/
def State.pump (s : State) (rd : Nat) : State := s.pumpN rd (s.rg rd).txq.length

/-- A barge handed to a ring direction. -/
def State.emit (s : State) (rd cls : Nat) (f : List Byte) : State :=
  (s.setRg rd { s.rg rd with txq := (s.rg rd).txq ++ [(cls, f)] }).pump rd

/-- Every ring direction that sends on port `p` sends what it can. -/
def State.pumpPort (s : State) (p : Nat) : State :=
  (s.ringDirs.filter (fun rd => (s.sendMask rd).testBit p)).foldl (fun s rd => (s.pump rd).syncRing (rd / 2)) s

/-- Frames of a port returned to their ring directions, ahead of what waits (R299). -/
def State.resend (s : State) (l : List TxFrame) : State :=
  let s := l.reverse.foldl (fun s f =>
    let c := (s.rg f.rd).charge f.cls f.flit false
    s.setRg f.rd { c with txq := (f.cls, f.flit) :: c.txq }) s
  s.ringDirs.foldl (fun s rd => s.pump rd) s

/-- Frames that follow an acknowledged SEQ. -/
def afterAck (l : List TxFrame) (ack : Nat) : List TxFrame :=
  if l.any (fun f => f.seq == ack) then (l.dropWhile (fun f => !(f.seq == ack))).drop 1 else l

/-! ### sessions and training (R288, R289, R294, R299) -/

/-- A port with no DATA frame ready sends a CTRL frame. DESIGN CHOICE (log 59), safe: one that says what the last one said is not
recorded again. -/
def State.talk (s : State) (p : Nat) : State :=
  if s.portState p = 2 ∧ (s.pt p).session ∧ s.ctrlSays p ≠ (s.pt p).said then s.sendCtrl p else s

/-- Every port says what is new. -/
def State.talkAll (s : State) : State := (List.range 12).foldl State.talk s

/-- The link session of a port ends: its final ACK is kept, and unacknowledged frames are held (R299). -/
def State.endSession (s : State) (p : Nat) : State :=
  let c := s.pt p
  if ¬ c.session then s.setPt p { c with locking := none }
  else s.setPt p { c with
    session := false
    final := some c.ackNow
    held := c.held ++ c.replay
    replay := []
    nak := false
    nakIn := false
    nakRun := 0
    badRun := 0
    fails := 0
    locking := none
    rx := c.rx.map (fun e => (e.1 % 8 + 8, e.2)) }

/-- A port whose session has ended and which is down. -/
def State.portDown (s : State) (p : Nat) : State :=
  let s := ((s.endSession p).setPortState p 4).setFld (R.twpPStatus p) F.twpPStatusWidth 0
  (s.ringDirs.foldl (fun s rd => s.syncRing (rd / 2)) s).talkAll

/-- A fast retrain begins (R294). -/
def State.startRetrain (s : State) (p : Nat) : State :=
  if s.portState p = 2 ∧ (s.pt p).session then
    let s := (s.setPt p { s.pt p with nakRun := 0, badRun := 0 }).setPortState p 3
    s.ringDirs.foldl (fun s rd => s.syncRing (rd / 2)) s
  else s

/-- The widest usable width, in lanes, no wider than either end's (R288); 0 where none is usable. -/
def usableWidth (good mine theirs : Nat) : Nat :=
  let fits := fun (w : Nat) => decide (w ≤ mine) && decide (w ≤ theirs) &&
    (List.range (8 / w)).any (fun g => decide (bits good (g * w) w = 2 ^ w - 1))
  if fits 8 then 8 else if fits 4 then 4 else if fits 2 then 2 else 0

/-- The first lane of the active group: the lowest-numbered usable group of the width. -/
def groupBase (good w : Nat) : Nat :=
  ((firstOf (8 / w) (fun g => decide (bits good (g * w) w = 2 ^ w - 1))).getD 0) * w

/-- TWP_P_STATUS.WIDTH code of a width in lanes. -/
def widthField (w : Nat) : Nat := if w = 8 then 3 else if w = 4 then 2 else if w = 2 then 1 else 0

/-- Step 5 of Table 12-2: the level that R36 resolves, if any. -/
def State.linkLevel (s : State) (i : TrainInfo) : Option Nat :=
  let lo := s.fld R.glbArchLevel F.glbArchLevelLevelMin
  let hi := s.fld R.glbArchLevel F.glbArchLevelLevelMax
  let l := min hi i.levelMax
  if lo ≤ l ∧ i.levelMin ≤ l then some l else none

/-- What step 4 reports of the partner, and LANES_GOOD. -/
def State.partner (s : State) (p : Nat) (i : TrainInfo) (good : Nat) : State :=
  let a := R.twpPStatus p
  let s := (s.setReg (R.twpPPartner p) (BitVec.ofNat 64 i.modid)).setFld a F.twpPStatusPartnerPort i.port
  (s.setFld a F.twpPStatusPartnerLevels (i.levelMin % 16 + 16 * (i.levelMax % 16))).setFld a F.twpPStatusLanesGood good

/-- What this end sends in step 4 of Table 12-2; the final ACK only after a full training. -/
def State.linkOffer (s : State) (p good : Nat) (full : Bool) : LinkOffer :=
  { lanes := good
    modid := (s.reg R.twpModid).toNat
    port := p
    levelMin := s.fld R.glbArchLevel F.glbArchLevelLevelMin
    levelMax := s.fld R.glbArchLevel F.glbArchLevelLevelMax
    width := widthLanes (s.widthCode p)
    depths := (List.range 4).map (fun c => s.poundNow (0x600 + 4 * p + c))
    ack := if full then (s.pt p).final.getD 4095 else 0 }

/-- Step 4: this end's part of the exchange leaves. -/
def State.sendOffer (s : State) (p good : Nat) (full : Bool) : State :=
  s.setPt p { s.pt p with wire := (s.pt p).wire ++ [.train (s.linkOffer p good full)] }

/-- Step 5: no level is common. -/
def State.levelMismatch (s : State) (p : Nat) : State :=
  let s := ((s.endSession p).setPortState p 5).setFld (R.twpPStatus p) F.twpPStatusWidth 0
  s.ringDirs.foldl (fun s rd => s.syncRing (rd / 2)) s

/-- Steps 4 and 5 of Table 12-2 with the lanes that pass this end's check: the exchange, the level (R36) and the width (R288); the
port then waits for frame lock, or is DOWN or at LEVEL_MISMATCH. -/
def State.resolve (s : State) (p passed : Nat) (i : TrainInfo) (full : Bool) : State :=
  let s := s.sendOffer p passed full
  let good := passed &&& (i.lanes % 256)
  let s := s.partner p i good
  let w := usableWidth good (widthLanes (s.widthCode p)) i.width
  match s.linkLevel i with
  | none => s.levelMismatch p
  | some l =>
    if w = 0 then s.portDown p
    else
      let s := (s.setFld (R.twpPStatus p) F.twpPStatusLevel l).setFld (R.twpPStatus p) F.twpPStatusWidth (widthField w)
      s.setPt p { s.pt p with locking := some full }

/-- Steps 1 to 5 of a full training (Table 12-2): the session ends; the port waits for frame lock, or is DOWN or at
LEVEL_MISMATCH. -/
def State.trainFull (s : State) (p : Nat) (i : TrainInfo) : State :=
  if s.widthCode p = 1 ∨ ¬ s.wrapperOpen (R.twpPStatus p) then s
  else
    let s := ((s.endSession p).addSat (R.twpPCntLink p) F.twpPCntLinkFull 1).setPortState p 1
    if ¬ i.up then s.portDown p
    else
      let s := s.setPt p { s.pt p with
        lockAck := i.ack % 4096
        credit := (List.range 4).map (fun j => i.depths.getD j 0)
        badLanes := 0 }
      s.resolve p (i.passed % 256) i true

/-- A fast retrain has failed; the third failure in a row ends the session and starts a full training, and the port counts as down
(R294, R299). -/
def State.fastFailed (s : State) (p : Nat) : State :=
  let n := (s.pt p).fails + 1
  if n < 3 then s.setPt p { s.pt p with
    fails := n
    locking := none }
  else
    let s := ((s.endSession p).setPortState p 1).setFld (R.twpPStatus p) F.twpPStatusWidth 0
    (s.ringDirs.foldl (fun s rd => s.syncRing (rd / 2)) s).talkAll

/-- Steps 3 to 5 of a fast retrain (R289, R294). It fails where the exchange does not take place, or, as the next one shows, where
step 6 does not lock. -/
def State.trainFast (s : State) (p : Nat) (i : TrainInfo) : State :=
  if s.portState p ≠ 3 then s
  else
    let s := if (s.pt p).locking.isSome then s.fastFailed p else s
    if s.portState p ≠ 3 then s
    else
      let s := s.addSat (R.twpPCntLink p) F.twpPCntLinkFast 1
      if i.up then s.resolve p ((i.passed % 256) &&& (255 - (s.pt p).badLanes % 256)) i false else s.fastFailed p

/-- Tags that waited for a full training of port `p` (R301). -/
def RingDir.unstick (c : RingDir) (p : Nat) : RingDir :=
  { c with stuck := (c.stuck.map (fun t => (t.1, setBit t.2 p false))).filter (fun t => decide (t.2 ≠ 0)) }

/-- Steps 6 and 7 of Table 12-2: 64 frames decode and the port is ACTIVE. After a full training a new session begins, and frames
that follow the partner's final ACK are sent again. -/
def State.frameLock (s : State) (p : Nat) : State :=
  match (s.pt p).locking with
  | none => s
  | some full =>
    let c := s.pt p
    let s := if full then
        let again := afterAck c.held c.lockAck
        let s := s.setPt p { c with
          session := true
          txSeq := 0
          rxSeq := 0
          replay := []
          held := []
          final := none
          seen := [0, 0, 0, 0, c.seen.getD 4 0]
          freed := [0, 0, 0, 0, c.freed.getD 4 0]
          said := []
          run := 0
          fails := 0
          locking := none }
        let s := s.setPortState p 2
        let s := s.ringDirs.foldl (fun s rd => if (s.sendMask rd).testBit p then s.setRg rd ((s.rg rd).unstick p) else s) s
        s.resend again
      else (s.setPt p { c with
          fails := 0
          nakRun := 0
          badRun := 0
          locking := none }).setPortState p 2
    (s.pumpPort p).talk p

/-! ### frames (R290-R295) -/

/-- NAK is raised in the frames sent: a new episode is counted. -/
def State.raiseNak (s : State) (p : Nat) : State :=
  if (s.pt p).nak then s
  else (s.setPt p { s.pt p with nak := true }).addSat (R.twpPCntLink p) F.twpPCntLinkNaks 1

/-- A frame that did not decode is discarded (R291, R292); eight in a row start a fast retrain (R294). -/
def State.badFrame (s : State) (p : Nat) : State :=
  let s := (s.addSat (R.twpPCntFec p) F.twpPCntFecUncorr 1).raiseNak p
  let s := s.setPt p { s.pt p with badRun := (s.pt p).badRun + 1 }
  if 8 ≤ (s.pt p).badRun then s.startRetrain p else s

/-- Corrected bytes counted for the port and for their lanes (R290). -/
def State.countCorr (s : State) (p : Nat) (l : List Nat) : State :=
  let w := [0, 2, 4, 8].getD (s.fld (R.twpPStatus p) F.twpPStatusWidth) 0
  let base := groupBase (s.fld (R.twpPStatus p) F.twpPStatusLanesGood) w
  l.foldl (fun s i => (s.addSat (R.twpPCntFec p) F.twpPCntFecCorr 1).addSat (R.twpPLane p) (8 * (base + i % w), 8) 1) s

/-- The ACK and NAK of a received frame (R292): acknowledged frames leave the replay buffer; a rising NAK re-sends the others, and
the eighth NAK of one frame starts a fast retrain. -/
def State.takeAck (s : State) (p ack : Nat) (nak : Bool) : State :=
  let c := s.pt p
  let left := afterAck c.replay ack
  let run := if left.length < c.replay.length then 0 else c.nakRun
  let rises := nak && !c.nakIn
  let s := s.setPt p { c with
    replay := left
    nakIn := nak
    nakRun := if rises then run + 1 else run }
  if !rises then s
  else
    let s := left.foldl (fun s f => s.sendData p f) (s.addSat (R.twpPCntLink p) F.twpPCntLinkReplays 1)
    if 8 ≤ run + 1 then s.startRetrain p else s

/-- Flits of class `c` freed, which the port's CTRL frames report (R295). -/
def State.freeFlit (s : State) (p c : Nat) : State :=
  if 8 ≤ c then s
  else s.setPt p { s.pt p with freed := setAt (s.pt p).freed c (((s.pt p).freed.getD c 0 + 1) % 65536) }

/-- A flit accepted in sequence: barges of a wrong TYPE or LEVEL are discarded and counted (R302, R213); the others wait to be
consumed, a reduction barge in the park buffer (R205). -/
def State.acceptFlit (s : State) (p cls : Nat) (f : List Byte) : State :=
  let ty := numAt f 0 1
  let slot := if isSealFlit cls f then 4 else cls
  if cls ≠ 3 ∧ ty ≠ 0x10 then (s.addSat (R.twpPErr p) F.twpPErrBadType 1).freeFlit p slot
  else if cls = 3 ∧ (ty = 0 ∨ 7 < ty) then (s.addSat R.rdxErr F.rdxErrBadBarge 1).freeFlit p slot
  else if bits (numAt f 1 1) 0 4 ≠ s.fld (R.twpPStatus p) F.twpPStatusLevel then
    (s.addSat (R.twpPErr p) F.twpPErrBadLevel 1).freeFlit p slot
  else
    let s := s.setPt p { s.pt p with rx := (s.pt p).rx ++ [(cls, f)] }
    if slot = 3 then s.freeFlit p 3 else s

/-- The port takes frames: ACTIVE, in a session. -/
def State.receiving (s : State) (p : Nat) : Bool := s.portState p == 2 && (s.pt p).session

/-- A frame of `kind` that port `p` receives. One that PTB_LINK picks is discarded: counted, and NAKed as any discarded frame is, and no
step toward a retrain (R292, R392). One that decodes is acted on by `act`, given its header and flit; then the port sends what it can. -/
def State.frame (s : State) (p kind : Nat) (b : List Byte) (act : Nat → List Byte → State → State) : State :=
  if !(s.receiving p) || decide (b.length ≠ 280) then s
  else
    let r := readFrame b
    if (r.map (fun x => x.1)).getD kind ≠ kind then s
    else
      let (lost, s) := s.ptbLink p
      let s := if lost then (s.addSat (R.twpPCntFec p) F.twpPCntFecUncorr 1).raiseNak p
        else match r with
          | none => s.badFrame p
          | some (_, h, f, fixed) =>
            let s := s.countCorr p fixed
            act h f ((s.setPt p { s.pt p with badRun := 0 }).takeAck p (bits h 16 12) (h.testBit 28))
      (s.pumpPort p).talk p

/-- What a DATA frame does (R292): accepted where its SEQ follows the last one accepted, else NAKed. -/
def State.dataAct (s : State) (p h : Nat) (f : List Byte) : State :=
  let c := s.pt p
  if bits h 4 12 = c.rxSeq then
    (s.setPt p { c with
      rxSeq := (c.rxSeq + 1) % 4096
      nak := false }).acceptFlit p (bits h 2 2) f
  else s.raiseNak p

/-- DATA_FRAME (R291, R292). -/
def State.dataFrame (s : State) (p : Nat) (b : List Byte) : State := s.frame p 1 b (fun h f s => s.dataAct p h f)

/-- Credits granted by a CTRL flit: every CREDIT field is cumulative modulo 2^16 (R295, R296). -/
def State.takeCredits (s : State) (p : Nat) (f : List Byte) : State :=
  let c := s.pt p
  let now := (List.range 5).map (fun i => numAt f (2 * i) 2)
  let delta := fun (i : Nat) => (now.getD i 0 + 65536 - c.seen.getD i 0) % 65536
  let jobs := (List.range 64).map (fun j => (j, numAt f (0x30 + 2 * j) 2))
  let dj := jobs.map (fun (e : Nat × Nat) => (e.1, (e.2 + 65536 - KMap.get c.seenJob 0 e.1) % 65536))
  let s := s.setPt p { c with
    credit := (List.range 4).map (fun i => c.credit.getD i 0 + delta i)
    seen := now
    seenJob := jobs.foldl (fun m e => KMap.set m 0 e.1 e.2) c.seenJob }
  (s.ringDirs.filter (fun rd => (s.sendMask rd).testBit p && rd % 2 == 0)).foldl (fun s rd =>
    let g := s.rg rd
    s.setRg rd { g with
      seals := g.seals - delta 4
      jobs := dj.foldl (fun m e => KMap.set m 0 e.1 (KMap.get m 0 e.1 - e.2)) g.jobs }) s

/-- DONE toggles and statuses that a CTRL flit carries for what this module sent in a ring direction (R301, R295). -/
def State.takeDone (s : State) (rd v : Nat) : State :=
  let g := s.rg rd
  let new := (onesOf 16 (bits v 0 16 ^^^ g.seen)).filter (fun t => g.tags.any (fun x => x.1 == t))
  s.setRg rd { g with
    seen := bits v 0 16
    done := g.done ++ new.map (fun t => (t, bits v (16 + 2 * t) 2)) }

/-- ACKX of a CTRL flit: a down port whose partner is port `n` of the same neighbour learns its final ACK, and its later frames go to
the ports that remain (R299). -/
def State.takeAckx (s : State) (rd : Nat) (f : List Byte) : State :=
  (List.range 12).foldl (fun s p =>
    let e := numAt f (0x18 + 2 * (s.fld (R.twpPStatus p) F.twpPStatusPartnerPort)) 2
    let c := s.pt p
    if (s.sendMask rd).testBit p ∧ ¬ c.session ∧ c.held ≠ [] ∧ e.testBit 15 ∧
        (List.range 12).any (fun q => (s.sendMask rd).testBit q && s.portState q == 2) then
      (s.setPt p { c with held := [] }).resend (afterAck c.held (e % 4096))
    else s) s

/-- What a CTRL frame says: credits, DONE toggles and final ACKs (R295). -/
def State.ctrlAct (s : State) (p : Nat) (f : List Byte) : State :=
  (s.ringDirs.filter (fun rd => (s.sendMask rd).testBit p)).foldl (fun s rd =>
    (s.takeDone rd (numAt f (if rd % 2 = 0 then 0x0A else 0x10) 6)).takeAckx rd f) (s.takeCredits p f)

/-- CTRL_FRAME (R295). -/
def State.ctrlFrame (s : State) (p : Nat) (b : List Byte) : State := s.frame p 2 b (fun _ f s => s.ctrlAct p f)

/-! ### transfers (R300-R303) -/

/-- Barges of a transfer of LEN bytes. -/
def totalBarges (len : Nat) : Nat := max 1 (ceilDiv len 240)

/-- A transfer descriptor breaks R300. -/
def tsendDescBad (b : List Byte) (daddr level : Nat) : Bool :=
  let len := numAt b 4 4
  decide (daddr % 64 ≠ 0) || decide (numAt b 0 1 ≠ level) || decide (2 < numAt b 1 1) || decide (63 < numAt b 2 1) ||
    decide (numAt b 3 1 ≠ 0) || decide (numAt b 8 8 % 64 ≠ 0) || decide (numAt b 20 44 ≠ 0) ||
    (numAt b 1 1 == 0 && decide (240 < len)) || decide (2 ^ 32 < numAt b 16 4 + len)

/-- TSEND (R300, R305): checks, the descriptor copy, dispatch. -/
def State.tsend (s : State) (k x : Nat) : State :=
  s.withHead k x [0x10] (fun w s =>
    let i := s.indexOf k x
    let a := bits w 64 52
    let fault := fun (c : Nat) => s.raiseFault k x i c 0xFF false
    if bits w 37 27 ≠ 0 ∨ bits w 116 12 ≠ 0 then fault 0x80
    else if s.unreadable a 64 then fault 0x81
    else
      let b := s.bytes a 64
      if tsendDescBad b a (s.stake k).level then fault 0x81
      else if s.sendMask (2 * bits w 32 4 + bits w 36 1) = 0 then fault 0x82
      else if numAt b 4 4 ≠ 0 ∧ ¬ s.inStake k (numAt b 8 8) (numAt b 4 4) then fault 0x83
      else s.dispatchOut k x w 0xFF false b [] 0)

/-- The ring direction that a TSEND names. -/
def Outst.rd (o : Outst) : Nat := 2 * bits o.word 32 4 + bits o.word 36 1

/-- Barge `j` of a transfer (Table 12-6), and whether its source returned poison. -/
def State.transferBarge (s : State) (o : Outst) (tag j : Nat) : List Byte × Bool :=
  let len := numAt o.desc 4 4
  let n := min 240 (len - 240 * j)
  let a := numAt o.desc 8 8 + 240 * j
  let bad := decide (0 < n) && s.unreadable a n
  let head := [0x10, 1, bits o.word 36 1 + (if bad then 2 else 0), tag, numAt o.desc 2 1, n, 0, 0].flatMap (toBytes 1)
  (head ++ toBytes 4 (numAt o.desc 16 4 + 240 * j) ++ toBytes 4 (totalBarges len) ++
    (if bad then List.replicate 240 0 else slice (s.bytes a n) 0 240), bad)

/-- A window accepts a barge (R303 step 1). -/
def State.windowOk (s : State) (rd : Nat) (f : List Byte) (slot : RxSlot) : Bool :=
  let w := bits (numAt f 4 1) 0 6
  let c := R.twpWinCtl w
  let k := s.fld c F.twpWinCtlStake
  s.flag c F.twpWinCtlEnable && s.enabled k && !(s.inStakeReset k) &&
    s.fld c F.twpWinCtlRing == rd / 2 && s.fld c F.twpWinCtlDir == rd % 2 &&
    decide (numAt f 8 4 + numAt f 5 1 ≤ s.fld (R.twpWinSize w) F.twpWinSizeSize) && w == slot.win

/-- A transfer barge that travels in ring direction `rd` is received (R303): written or rejected; after the last of its transfer, the
window's token is posted and the tag's DONE bit toggles. -/
def State.receiveBarge (s : State) (rd : Nat) (f : List Byte) : State :=
  let tag := numAt f 3 1 % 16
  let w := bits (numAt f 4 1) 0 6
  let n := numAt f 5 1
  let old := KMap.get (s.rg rd).slots .free tag
  let slot := if old.active then old else ⟨w, numAt f 12 4, 0, 0, true⟩
  let a := s.fld (R.twpWinBase w) F.twpWinBaseBase + numAt f 8 4
  let ok := s.windowOk rd f slot
  let bad := (numAt f 2 1).testBit 1
  let s := if ¬ ok then s.addSat (R.twpWinCtl w) F.twpWinCtlRejects 1
    else if bad then s.wrPoison a n else s.wr a (slice f 16 n)
  let st := if ¬ ok then 1 else if bad ∧ slot.status = 0 then 2 else slot.status
  let slot : RxSlot := { slot with count := slot.count + 1, status := st }
  if slot.count < slot.total then s.setRg rd { s.rg rd with slots := KMap.set (s.rg rd).slots .free tag slot }
  else
    let c := R.twpWinCtl slot.win
    let s := if st = 1 then s else s.extPost (s.fld c F.twpWinCtlStake) (2 ^ s.fld c F.twpWinCtlToken)
    let g := s.rg rd
    s.setRg rd { g with
      slots := KMap.erase g.slots tag
      tog := g.tog ^^^ (2 ^ tag)
      stat := g.stat - bits g.stat (2 * tag) 2 * 4 ^ tag + st * 4 ^ tag }

/-- The lowest free tag of a ring direction. -/
def RingDir.freeTag (g : RingDir) : Option Nat :=
  firstOf 16 (fun t => !(g.tags.any (fun x => x.1 == t)) && !(g.stuck.any (fun x => x.1 == t)))

/-- TSEND_ISSUE (R301): the oldest waiting TSEND of the stake whose ring direction has a free tag takes the lowest, and sends its barges;
a ring of LENGTH 1 delivers them inside the module. -/
def State.tsendIssue (s : State) (k : Nat) : State :=
  match (s.q k).outst.find? (fun o => opcOf o.word == 0x10 && !o.issued && (s.rg o.rd).freeTag.isSome) with
  | none => s
  | some o =>
    match (s.rg o.rd).freeTag with
    | none => s
    | some tag =>
      if s.noIssue k then s
      else
        let bs := (List.range (totalBarges (numAt o.desc 4 4))).map (s.transferBarge o tag)
        let s := s.updOutst k o.seq (fun p => { p.issueAt (s.q k).nextTurn with
          prog := tag + 1
          run := { p.run with poison := bs.any (fun b => b.2) } })
        let s := s.setRg o.rd { s.rg o.rd with tags := (s.rg o.rd).tags ++ [(tag, k, o.seq)] }
        let inside := match s.ringRec (o.rd / 2) with
          | some r => r.length == 1
          | none => false
        let s := if inside then
            let s := bs.foldl (fun s b => s.receiveBarge o.rd b.1) s
            s.takeDone o.rd ((s.rg o.rd).tog + 65536 * (s.rg o.rd).stat)
          else
            let s := s.setRg o.rd { s.rg o.rd with txq := (s.rg o.rd).txq ++ bs.map (fun b => (numAt o.desc 1 1, b.1)) }
            s.pump o.rd
        s.syncRing (o.rd / 2)

/-- The TSEND that holds a tag completes, with a fault reported after completion where `code` is not 0. -/
def State.tsendEnd (s : State) (k n code : Nat) : State :=
  match (s.q k).outst.find? (fun o => o.seq == n) with
  | none => s
  | some o =>
    let s := s.complete k o
    if code = 0 then s else s.raiseFault k o.strm o.index code 0xFF true

/-- TSEND_COMPLETE (R301, R303): the DONE toggle of a tag has arrived; the tag is free. -/
def State.tsendComplete (s : State) (rd tag : Nat) : State :=
  let g := s.rg rd
  match g.tags.find? (fun t => t.1 == tag), g.done.find? (fun t => t.1 == tag) with
  | some (_, k, n), some (_, st) =>
    let sent := (s.q k).outst.any (fun o => o.seq == n && o.run.poison)
    let s := s.setRg rd { g with
      tags := g.tags.filter (fun t => t.1 != tag)
      done := g.done.filter (fun t => t.1 != tag) }
    (s.tsendEnd k n (if st = 1 then 0x85 else if st = 2 ∨ sent then 0x86 else 0)).syncRing (rd / 2)
  | _, _ => s

/-- TSEND_TIMEOUT (R301): TWP_XLIMIT has passed; the tag stays unusable until every port of the direction has trained fully. -/
def State.tsendTimeout (s : State) (rd tag : Nat) : State :=
  let g := s.rg rd
  match g.tags.find? (fun t => t.1 == tag) with
  | none => s
  | some (_, k, n) =>
    if g.done.any (fun t => t.1 == tag) then s
    else
      let s := s.setRg rd { g with
        tags := g.tags.filter (fun t => t.1 != tag)
        stuck := g.stuck ++ [(tag, s.sendMask rd)] }
      (s.tsendEnd k n 0x84).syncRing (rd / 2)

/-- TRANSFER_BARGE (R303): the oldest barge of a class 0 to 2 at a port is consumed. -/
def State.takeBarge (s : State) (p cls : Nat) : State :=
  match (s.pt p).rx.findIdx? (fun e => e.1 % 8 == cls) with
  | none => s
  | some i =>
    let e := (s.pt p).rx.getD i (0, [])
    if cls = 3 ∨ s.hbmAsleep then s
    else match s.arrival p ((numAt e.2 2 1) % 2) with
      | none => s
      | some rd =>
        let s := s.setPt p { s.pt p with rx := (s.pt p).rx.eraseIdx i }
        (s.receiveBarge rd e.2).freeFlit p e.1

/-! ### port commands and windows -/

/-- TWP_P_CMD 1: a fast retrain is requested. -/
def State.cmdFast (s : State) (p : Nat) : State := s.startRetrain p

/-- TWP_P_CMD 2: a full training is requested: the session ends and the port trains. -/
def State.cmdFull (s : State) (p : Nat) : State :=
  if s.widthCode p = 1 then s
  else
    let s := ((s.endSession p).setPortState p 1).setFld (R.twpPStatus p) F.twpPStatusWidth 0
    s.ringDirs.foldl (fun s rd => s.syncRing (rd / 2)) s

/-- A write of TWP_WIN_CTL (R303): RING and DIR only while disabled; enabling a window outside its stake's memory sets WERR. -/
def State.winWrite (s : State) (w : Nat) (v : Word) : State :=
  let a := R.twpWinCtl w
  let on := s.flag a F.twpWinCtlEnable
  let s := (s.setFld a F.twpWinCtlStake (v.fld F.twpWinCtlStake)).setFld a F.twpWinCtlToken (v.fld F.twpWinCtlToken)
  let s := if on then s
    else (s.setFld a F.twpWinCtlRing (v.fld F.twpWinCtlRing)).setFld a F.twpWinCtlDir (v.fld F.twpWinCtlDir)
  if v.fld F.twpWinCtlEnable = 0 then s.setFld a F.twpWinCtlEnable 0
  else if on then s
  else if s.inStake (s.fld a F.twpWinCtlStake) (s.fld (R.twpWinBase w) F.twpWinBaseBase) (s.fld (R.twpWinSize w) F.twpWinSizeSize) then
    (s.setFld a F.twpWinCtlEnable 1).setFld a F.twpWinCtlWerr 0
  else s.setFld a F.twpWinCtlWerr 1

/-- TSEND (R300). -/
def execTsend (k : Fin 16) (x : Strm) (s : State) : Host.Outcome State Fault Refusal := .next (s.tsend k x.num)
/-- TSEND_ISSUE. -/
def execTsendIssue (k : Fin 16) (s : State) : Host.Outcome State Fault Refusal := .next (s.tsendIssue k)
/-- TSEND_COMPLETE. -/
def execTsendComplete (ring : Fin 16) (dir : RDir) (tag : Fin 16) (s : State) : Host.Outcome State Fault Refusal :=
  .next (s.tsendComplete (2 * ring + dir.num) tag)
/-- TSEND_TIMEOUT. -/
def execTsendTimeout (ring : Fin 16) (dir : RDir) (tag : Fin 16) (s : State) : Host.Outcome State Fault Refusal :=
  .next (s.tsendTimeout (2 * ring + dir.num) tag)
/-- TRANSFER_BARGE. -/
def execTransferBarge (port : Fin 12) (cls : Fin 4) (s : State) : Host.Outcome State Fault Refusal := .next (s.takeBarge port cls)
/-- DATA_FRAME. -/
def execDataFrame (port : Fin 12) (b : List Byte) (s : State) : Host.Outcome State Fault Refusal :=
  .next (s.dataFrame port b)
/-- CTRL_FRAME. -/
def execCtrlFrame (port : Fin 12) (b : List Byte) (s : State) : Host.Outcome State Fault Refusal :=
  .next (s.ctrlFrame port b)
/-- FULL_TRAINING: of a port that no 100 ms repeat is due for. -/
def execFullTraining (port : Fin 12) (info : TrainInfo) (s : State) : Host.Outcome State Fault Refusal :=
  .next (if s.portState port = 4 ∨ s.portState port = 5 then s else s.trainFull port info)
/-- TRAINING_RETRY: of a port in DOWN or LEVEL_MISMATCH. -/
def execTrainingRetry (port : Fin 12) (info : TrainInfo) (s : State) : Host.Outcome State Fault Refusal :=
  .next (if s.portState port = 4 ∨ s.portState port = 5 then s.trainFull port info else s)
/-- FAST_RETRAIN. -/
def execFastRetrain (port : Fin 12) (info : TrainInfo) (s : State) : Host.Outcome State Fault Refusal := .next (s.trainFast port info)
/-- FRAME_LOCK. -/
def execFrameLock (port : Fin 12) (s : State) : Host.Outcome State Fault Refusal := .next (s.frameLock port)
/-- LANE_LOCK_LOSS (R294): the lane is marked failed and a fast retrain narrows the port. -/
def execLaneLockLoss (port : Fin 12) (lane : Fin 8) (s : State) : Host.Outcome State Fault Refusal :=
  .next (if s.portState port = 2 ∨ s.portState port = 3 then
    (s.setPt port { s.pt port with badLanes := setBit (s.pt port).badLanes lane true }).startRetrain port else s)
/-- PORT_DOWN (R299): of a port that was up. -/
def execPortDown (port : Fin 12) (s : State) : Host.Outcome State Fault Refusal :=
  .next (if s.portState port = 2 ∨ s.portState port = 3 then s.portDown port else s)
/-- TAKE_PORT_DOWN (R299). -/
def execTakePortDown (m : Master) (rivals : List Master) (port : Fin 12) (s : State) : Host.Outcome State Fault Refusal :=
  .next (s.command m rivals (R.twpPCmd port) (fun s => if s.portState port = 0 then s else s.portDown port))
/-- TWP_CMD_FAST_RETRAIN. -/
def execTwpCmdFastRetrain (m : Master) (rivals : List Master) (port : Fin 12) (s : State) : Host.Outcome State Fault Refusal :=
  .next (s.command m rivals (R.twpPCmd port) (fun s => s.cmdFast port))
/-- TWP_CMD_FULL_TRAINING. -/
def execTwpCmdFullTraining (m : Master) (rivals : List Master) (port : Fin 12) (s : State) : Host.Outcome State Fault Refusal :=
  .next (s.command m rivals (R.twpPCmd port) (fun s => s.cmdFull port))
/-- TWP_WIN_ENABLE (R303). -/
def execTwpWinEnable (m : Master) (w : Fin 64) (v : Word) (s : State) : Host.Outcome State Fault Refusal :=
  .next (s.command m [] (R.twpWinCtl w) (fun s => s.winWrite w v))

end Sys2Proof.Machine
end

