-- ==== Sys2Proof/Machine/Rdx.lean ====
section
/-! DEFINITION. Gradient reduction: the seal exchange, reduction jobs, barges, retries, the all-gather and the close
(R192-R215). -/

namespace Sys2Proof.Machine

/-! ### FP64 (Table 8-1) -/

/-- The value of an FP64 code. -/
def val64 (x : Nat) : Val :=
  let neg := x.testBit 63
  let e := bits x 52 11
  let f := bits x 0 52
  if e = 2047 then (if f = 0 then .inf neg else .nan)
  else if e = 0 then .fin neg f (-1074)
  else .fin neg (2 ^ 52 + f) ((e : Int) - 1075)

/-- rne64. -/
def rne64 (v : Val) : Nat :=
  let sg := fun (neg : Bool) (mag : Nat) => if neg then 2 ^ 63 + mag else mag
  match v with
  | .nan => 0x7FF8000000000000
  | .inf neg => sg neg 0x7FF0000000000000
  | .fin neg 0 _ => sg neg 0
  | .fin neg m e =>
    let q := max (topExp m e) (-1022) - 52
    let k := roundMag .rne 0 m e q
    sg neg (min ((q + 1074).toNat * 2 ^ 52 + k) 0x7FF0000000000000)

/-! ### the group (R192) -/

/-- The GROUP record of a stake (R19). -/
def State.groupRec (s : State) (k : Nat) : Option GroupRec :=
  if s.enabled k then s.weave.cur.groups.find? (fun g => g.group == (s.stake k).group) else none

/-- Ring, position and length of a stake's group, where its record meets R192. -/
def State.member (s : State) (k : Nat) : Option (Nat × Nat × Nat) :=
  match s.groupRec k with
  | none => none
  | some g => match s.ringRec g.ring with
    | none => none
    | some r => if r.length = g.members ∧ g.rank = r.position then some (g.ring, r.position, r.length) else none

/-- The stake that receives the seal barges of a ring: the lowest whose group names it. -/
def State.ringStake (s : State) (r : Nat) : Option Nat :=
  firstOf 16 (fun k => match s.groupRec k with
    | some g => g.ring == r
    | none => false)

/-- The exchange context of a stake. -/
def State.xc (s : State) (k : Nat) : Xch := KMap.get s.xch .idle k

/-- The state with the exchange context of a stake; RDX_S_XSTAT.QUEUED follows it. -/
def State.setXc (s : State) (k : Nat) (c : Xch) : State :=
  ({ s with xch := KMap.set s.xch .idle k c }).setFld (R.rdxSXstat k) F.rdxSXstatQueued (if c.queued.isSome then 1 else 0)

/-! ### seal records (R193-R195) -/

/-- A seal record's 64 bytes (Table 8-1). -/
def SealRec.bytes (r : SealRec) : List Byte :=
  toBytes 4 r.gid ++ toBytes 2 r.members ++ toBytes 1 r.headroom ++
    toBytes 1 (r.level % 16 + (if r.mismatch then 16 else 0) + (if r.wide then 32 else 0)) ++ toBytes 4 r.step ++
    toBytes 4 r.nonfin ++ toBytes 8 r.normsq ++ (List.range 40).flatMap (fun i => toBytes 1 (r.exps.getD i 0))

/-- A seal record from its 64 bytes. -/
def parseSeal (b : List Byte) : SealRec :=
  ⟨numAt b 0 4, numAt b 4 2, numAt b 6 1, numAt b 7 1 % 16, (numAt b 7 1).testBit 4, (numAt b 7 1).testBit 5, numAt b 8 4,
   numAt b 12 4, numAt b 16 8, (List.range 40).map (fun i => numAt b (24 + i) 1)⟩

/-- The partial that RDX_S_PARTIAL names: an FP64 code, and 1 where it was replaced (R194). -/
def State.partialOf (s : State) (k : Nat) : Nat × Nat :=
  let a := s.fld (R.rdxSPartial k) F.rdxSPartialAddr * 4
  if ¬ s.flag (R.rdxSPartial k) F.rdxSPartialValid then (0, 0)
  else if s.unreadable a 4 ∨ ¬ isFin32 (s.num a 4) then (0, 1)
  else (rne64 (val32 (s.num a 4)), 0)

/-- The scale position of a slot (RDX_S_SLOTMAP); none where it is ignored. -/
def State.slotPos (s : State) (k i : Nat) : Option Nat :=
  let m := s.fld (R.rdxSSlotmap k (i / 8)) (8 * (i % 8), 8)
  if m.testBit 7 ∨ 40 ≤ m % 64 then none else some (m % 64)

/-- The member's own record at SEAL step 7 (R194). -/
def State.ownRecord (s : State) (k step : Nat) (g : GroupRec) (l : List (Nat × Slot)) : SealRec :=
  let p := s.partialOf k
  let nf := l.foldl (fun n e => n + e.2.nonfin) 0 + p.2
  let exps := (List.range 40).map (fun j => l.foldl (fun m e =>
    if s.slotPos k e.1 = some j then max m (bits e.2.maxabs 23 8) else m) 0)
  ⟨g.id, g.members, g.headroom, (s.stake k).level, false, (s.stake k).xfmt == 0x0F, step, min nf (2 ^ 32 - 1), p.1, exps⟩

/-- received ⊕ own (R195, Table 8-1). -/
def sealCombine (r o : SealRec) : SealRec :=
  { r with
    mismatch := r.mismatch || o.mismatch || r.gid != o.gid || r.members != o.members || r.headroom != o.headroom ||
      r.level != o.level || r.wide != o.wide || r.step != o.step
    nonfin := min (r.nonfin + o.nonfin) (2 ^ 32 - 1)
    normsq := rne64 (Val.add (val64 r.normsq) (val64 o.normsq))
    exps := (List.range 40).map (fun i => max (r.exps.getD i 0) (o.exps.getD i 0)) }

/-! ### barges (R213) -/

/-- A reduction barge: TYPE, job, units, INDEX, SPILL and POISON marks, sender's position, STEP and payload (Table 8-6). -/
def bargeBytes (ty job count index spill poison src step : Nat) (payload : List Byte) : List Byte :=
  toBytes 1 ty ++ toBytes 1 1 ++ toBytes 1 job ++ toBytes 1 count ++ toBytes 4 index ++ toBytes 1 spill ++ toBytes 1 poison ++
    toBytes 2 src ++ toBytes 4 step ++ slice payload 0 240

/-- A seal record sent to the next position. -/
def State.sendSeal (s : State) (ring p : Nat) (r : SealRec) (step : Nat) : State :=
  s.emit (2 * ring) 3 (bargeBytes 1 0 1 0 0 0 p step r.bytes)

/-! ### exchanges (R195-R198) -/

/-- The post of an exchange's end (R196). -/
def State.xchPost (s : State) (k : Nat) : State :=
  if s.flag (R.rdxSXctl k) F.rdxSXctlPost then s.extPost k (2 ^ s.fld (R.rdxSXctl k) F.rdxSXctlToken) else s

/-- The agreed record's fields and the verdict (R197). -/
def State.agree (s : State) (k : Nat) (r : SealRec) : State :=
  let s := s.setFld (R.rdxSXnonfin k) F.rdxSXnonfinAgreed r.nonfin
  let s := s.setReg (R.rdxSXnormsq k) (BitVec.ofNat 64 r.normsq)
  let s := s.forAll (List.range 5) (fun s i =>
    s.setReg (R.rdxSXexp k i) (BitVec.ofNat 64 (ofBytes ((List.range 8).map (fun j => BitVec.ofNat 8 (r.exps.getD (8 * i + j) 0))))))
  if r.nonfin = 0 ∨ r.mismatch then s
  else ((s.setFld (R.rdxSXstat k) F.rdxSXstatSkip 1).count (R.rdxSCntSkip k) 1).stakeEvent k F.hifSEvtSkip

/-- The hand-off of a step has ended, whatever the end: held barges of it go, and later ones are discarded (R196). -/
def Xch.endStep (c : Xch) (step : Nat) : Xch :=
  { c with
    ended := insertNat step c.ended
    buffer := c.buffer.filter (fun b => b.1 != step) }

/-- The open exchange of a stake ends in state `st` of RDX_S_XSTAT: 2 DONE, 3 MISMATCH, 4 TIMEOUT, 5 CONFIG. -/
def State.closeXch (s : State) (k st : Nat) (agreed : Option SealRec) : State :=
  match (s.xc k).current with
  | none => s
  | some h =>
    let c := s.xc k
    let s := (s.setFld (R.rdxSXstat k) F.rdxSXstatState st).setReg (R.rdxSCntSpill k) 0
    let s := match agreed with
      | some r => s.agree k r
      | none => s
    let s := if st = 2 then s else s.stakeEvent k F.hifSEvtXchg
    let s := s.xchPost k
    s.setXc k { c.endStep h.step with
      current := none
      passed := false
      agreed := agreed }

/-- A record of the open exchange's STEP is processed by the member's position (R195). -/
def State.sealStep (s : State) (k : Nat) (r : SealRec) : State :=
  match (s.xc k).current, s.member k with
  | some h, some (ring, p, l) =>
    let own := h.own.getD r
    let fin := fun (s : State) (a : SealRec) => s.closeXch k (if a.mismatch then 3 else 2) (some a)
    if p + 1 = l then
      let a := sealCombine r own
      fin (s.sendSeal ring p a h.step) a
    else if p = 0 ∨ (s.xc k).passed then
      fin (if p + 2 = l then s else s.sendSeal ring p r h.step) r
    else (s.sendSeal ring p (sealCombine r own) h.step).setXc k { s.xc k with passed := true }
  | _, _ => s

/-- Records held for the open exchange are processed in arrival order. -/
def State.drainSeals (s : State) (k : Nat) : Nat → State
  | 0 => s
  | n + 1 =>
    match (s.xc k).current with
    | none => s
    | some h => match (s.xc k).buffer.findIdx? (fun b => b.1 == h.step) with
      | none => s
      | some i =>
        let r := ((s.xc k).buffer.getD i (0, h.own.getD ⟨0, 0, 0, 0, false, false, 0, 0, 0, []⟩)).2
        ((s.setXc k { s.xc k with buffer := (s.xc k).buffer.eraseIdx i }).sealStep k r).drainSeals k n

/-- A hand-off starts (R195, R196, R198): state NONE at once, CONFIG where R192 fails, the own record agreed where L is 1. -/
def State.openXch (s : State) (k : Nat) (h : Handoff) : State :=
  let a := R.rdxSXstat k
  let s := (s.setFld a F.rdxSXstatSkip 0).setFld a F.rdxSXstatSuperseded 0
  match h.own with
  | none => (s.setFld a F.rdxSXstatState 0).setXc k { (s.xc k).endStep h.step with agreed := none }
  | some r =>
    let s := ((s.setFld a F.rdxSXstatState 1).setFld a F.rdxSXstatStep h.step).setFld (R.rdxSXnonfin k) F.rdxSXnonfinLocal r.nonfin
    let s := s.setXc k { s.xc k with
      current := some h
      passed := false
      agreed := none }
    match s.member k with
    | none => s.closeXch k 5 none
    | some (ring, p, l) =>
      if l = 1 then s.closeXch k 2 (some r)
      else if p = 0 then s.sendSeal ring 0 r h.step
      else s

/-- The queued hand-off starts once none is open; held records of it are processed (R196, R198). -/
def State.nextXch (s : State) (k : Nat) : Nat → State
  | 0 => s
  | n + 1 =>
    let s := s.drainSeals k 4
    match (s.xc k).current, (s.xc k).queued with
    | none, some h => ((s.setXc k { s.xc k with queued := none }).openXch k h).nextXch k n
    | _, _ => s

/-- A hand-off at SEAL step 7: opened, or queued behind the open exchange, replacing one already queued (R198). -/
def State.handoff (s : State) (k step : Nat) (l : Option (List (Nat × Slot))) : State :=
  let h : Handoff := ⟨step, match l, s.groupRec k with
    | some l, some g => some (s.ownRecord k step g l)
    | _, _ => none⟩
  if (s.xc k).current.isNone then (s.openXch k h).nextXch k 2
  else
    let s := match (s.xc k).queued with
      | none => s
      | some q =>
        let s := (s.setFld (R.rdxSXstat k) F.rdxSXstatSuperseded 1).setXc k ((s.xc k).endStep q.step)
        if q.own.isNone then s else (s.stakeEvent k F.hifSEvtXchg).xchPost k
    s.setXc k { s.xc k with queued := some h }

/-- The exchange of the latest hand-off has ended (R201). -/
def State.xchEnded (s : State) (k : Nat) : Bool := (s.xc k).current.isNone && (s.xc k).queued.isNone

/-- SEAL_BARGE (R195, R196): the oldest seal barge at a port is consumed: processed, held, or discarded where its STEP has ended. -/
def State.takeSeal (s : State) (p : Nat) : State :=
  match (s.pt p).rx.findIdx? (fun e => isSealFlit (e.1 % 8) e.2), s.arrival p 0 with
  | some i, some rd =>
    let e := (s.pt p).rx.getD i (0, [])
    let s := (s.setPt p { s.pt p with rx := (s.pt p).rx.eraseIdx i }).freeFlit p 4
    match s.ringStake (rd / 2) with
    | none => s
    | some k =>
      let step := numAt e.2 12 4
      if (s.xc k).ended.contains step then s
      else (s.setXc k { s.xc k with buffer := (s.xc k).buffer ++ [(step, parseSeal (slice e.2 16 64))] }).nextXch k 3
  | _, _ => s

/-- EXCHANGE_TIMEOUT (R196). -/
def State.xchTimeout (s : State) (k : Nat) : State :=
  if (s.xc k).current.isNone then s else (s.closeXch k 4 none).nextXch k 3

/-! ### job descriptors and checks (R199-R204) -/

/-- A precise fault of the reduction engine in U. -/
def State.raiseRdx (s : State) (k index code : Nat) (job : Option Nat) : State :=
  let s := if code < 0x60 then s else s.rdxFault k code job
  s.raiseFault k 2 index code 0xFF false

/-- A precise fault of an outstanding RJOB or XREAD. -/
def State.rdxOut (s : State) (k : Nat) (o : Outst) (code : Nat) (job : Option Nat) : State :=
  (if code < 0x60 then s else s.rdxFault k code job).faultOut k o code 0xFF

/-- RD_DESC conditions of a descriptor that was read (Table 8-3). -/
def jobDescBad (b : List Byte) (level : Nat) : Bool :=
  let n := numAt b 3 1
  let clip := numAt b 8 4
  let rng := fun (x : Nat) => decide (x = 0) || decide (1048576 < x)
  decide (numAt b 0 1 ≠ level) || decide (1 < numAt b 1 1) || decide (39 < numAt b 2 1) || n == 0 || decide (8 < n) ||
    (numAt b 1 1 == 1 && !(isFin32 clip && pos32 clip)) || decide (numAt b 12 20 ≠ 0) || decide (numAt b 0xE0 32 ≠ 0) ||
    (List.range 8).any (fun i =>
      let o := 0x20 + 24 * i
      if i < n then rng (numAt b (o + 16) 4) || rng (numAt b (o + 20) 4) || decide (numAt b (o + 20) 4 % 64 ≠ 0)
      else decide (numAt b o 24 ≠ 0))

/-- RD_ALIGN conditions of a job's ranges. -/
def jobAlignBad (b : List Byte) (g : Nat) : Bool :=
  (List.range (numAt b 3 1)).any (fun i => decide (numAt b (0x20 + 24 * i) 8 % 256 ≠ 0) || decide (numAt b (0x28 + 24 * i) 8 % g ≠ 0))

/-- Two of a list of tensors share a record. -/
def anyMeet : List Tensor → Bool
  | [] => false
  | t :: l => l.any (fun u => t.meets u) || anyMeet l

/-- Groups of a list of ranges. -/
def rangeGroups (g : Nat) (l : List Tensor) : Nat := l.foldl (fun n t => n + t.rows * (t.bytes / g)) 0

/-- The first fault of an RJOB that issues (R203). -/
def State.jobFault (s : State) (k : Nat) (o : Outst) : Option Nat :=
  let j := bits o.word 32 6
  let r := s.stake k
  let g := s.gsize k
  let ts := jobRanges g o.desc
  let mine := s.binds.filter (fun b => b.job == j)
  firstCode [(r.group == 0xFF, 0x64), (s.fld (R.rdxSXstat k) F.rdxSXstatState != 2, 0x65),
    (o.desc.isEmpty || jobDescBad o.desc r.level, 0x61),
    (decide (bits o.word 64 52 % 64 ≠ 0) || jobAlignBad o.desc g, 0x62),
    (decide (j < r.jobBase) || decide (r.jobBase + r.jobCount ≤ j) ||
      (match s.job j with
        | some v => v.issued || v.stake != k || v.seq != o.seq
        | none => false), 0x63),
    (!(ts.all (fun t => s.tensorIn k t)) || anyMeet ts || decide (2 ^ 31 < rangeGroups g ts), 0x66),
    (!(ts.all (fun t => mine.any (fun b => t.within g (s.bindTensor b)))), 0x54)]

/-- The gradient scale of a job (R200). -/
def jobScale (b : List Byte) (normsq : Nat) : Nat :=
  let n2 := rne32 (val64 normsq)
  let clip := numAt b 8 4
  let c := if numAt b 1 1 = 1 ∧ gt32 n2 (mul32 clip clip) then mul32 clip (unary32 0x14 n2) else one32
  mul32 (numAt b 4 4) c

/-- The position that owns group `i` of `n` (R204). -/
def chunkOwner (l n i : Nat) : Nat := i * l / n

/-- The groups of an open job. -/
def State.groupsOf (s : State) (j : Job) : List Nat := jobGroups (s.gsize j.stake) j.desc

/-! ### blocks (R206, R208) -/

/-- A block on its way: its elements (mantissas of BW8 or BW16 at the stage's exponent, or FP32 codes), spill and poison marks. -/
structure Blk where
  vals   : List Int
  spill  : Bool
  poison : Bool
  deriving DecidableEq, Repr

/-- The wire width and exponent of a stage: 0 first pass, 1 BW16 retry, 2 FP32 (width 0). -/
def State.stageFmt (s : State) (j : Job) (st : Nat) : Nat × Nat :=
  let wide := (s.stake j.stake).xfmt == 0x0F
  if st = 0 then (if wide then 16 else 8, j.exp)
  else if st = 1 then (16, min 254 (j.exp + 8))
  else (0, 0)

/-- This member's own block: the 32 accumulators, converted at a stage (R206, R208). -/
def State.ownBlock (s : State) (j : Job) (gs : List Nat) (b st : Nat) : Blk :=
  let a := gs.getD (b / 2) 0 + accOff (s.stake j.stake).master12 + 128 * (b % 2)
  let xs := (List.range 32).map (fun i => s.num (a + 4 * i) 4)
  let (w, e) := s.stageFmt j st
  let bad := s.unreadable a 128
  if w = 0 then ⟨xs.map (fun (x : Nat) => (x : Int)), false, bad⟩
  else
    let cs := xs.map (toBw w e)
    ⟨cs.map (fun c => c.1), cs.any (fun c => c.2), bad⟩

/-- A job may read the accumulators of a group: everything that reached its quay unit before the job's reads has been applied (R176). -/
def State.mayRead (s : State) (id g a : Nat) : Bool :=
  let q := octetOf a
  !(s.quayLost q) && ((s.qu q).placeOf (fun _ t => t == .read id)).any (fun i => s.trigFree q i [.single a g])

/-- What the reads of a job's blocks meet: errors are counted, and the address of a poisoned group is kept (R190). -/
def State.noteReads (s : State) (j : Job) (gs bs : List Nat) (x : Errs) : State :=
  bs.foldl (fun s b =>
    let g := gs.getD (b / 2) 0
    let a := g + accOff (s.stake j.stake).master12 + 128 * (b % 2)
    let s := s.quayErrs (s.quayFor g) [(a, a + 128)] x 0 0
    if s.unreadable a 128 then s.quayBadAddr g else s) s

/-- A received block and the own one added (R206, R208). -/
def addBlk (w : Nat) (r o : Blk) : Blk :=
  if w = 0 then ⟨(r.vals.zip o.vals).map (fun p => (add32 p.1.toNat p.2.toNat : Int)), false, r.poison || o.poison⟩
  else
    let m : Int := 2 ^ (w - 1) - 1
    let sums := (r.vals.zip o.vals).map (fun p => p.1 + p.2)
    ⟨sums.map (fun x => max (-m) (min m x)), r.spill || o.spill || sums.any (fun x => decide (m < x) || decide (x < -m)),
     r.poison || o.poison⟩

/-- A block's unit in a SCATTER barge of TYPE `ty` (Table 8-7). -/
def unitBytes (ty w e b : Nat) (v : Blk) : List Byte :=
  if w = 0 then toBytes 4 b ++ v.vals.flatMap (fun x => toBytes 4 x.toNat)
  else (if ty = 3 then toBytes 4 b else []) ++ toBytes 1 e ++ v.vals.flatMap (fun x => toBytes (w / 8) (ofSint w x))

/-- Bytes of a unit. -/
def unitLen (ty : Nat) : Nat := if ty = 2 then 33 else if ty = 3 then 69 else if ty = 4 then 132 else 4

/-- A unit's block number and block, from a SCATTER barge. -/
def readUnit (ty : Nat) (f : List Byte) (u : Nat) : Nat × Blk :=
  let o := 16 + u * unitLen ty
  let sp := (numAt f 8 1).testBit u
  let po := (numAt f 9 1).testBit u
  if ty = 2 then (numAt f 4 4 + u, ⟨(List.range 32).map (fun i => sint 8 (numAt f (o + 1 + i) 1)), sp, po⟩)
  else if ty = 3 then (numAt f o 4, ⟨(List.range 32).map (fun i => sint 16 (numAt f (o + 5 + 2 * i) 2)), sp, po⟩)
  else (numAt f o 4, ⟨(List.range 32).map (fun i => (numAt f (o + 4 + 4 * i) 4 : Int)), sp, po⟩)

/-- A mask with bit u for unit u. -/
def unitMask (l : List Bool) : Nat := (l.zip (List.range l.length)).foldl (fun m p => setBit m p.2 p.1) 0

/-- Blocks of one stage sent to the next position in one SCATTER barge. -/
def State.sendBlocks (s : State) (j : Job) (id ring p ty st : Nat) (l : List (Nat × Blk)) : State :=
  let (w, e) := s.stageFmt j st
  let index := if ty = 2 then (l.map (fun b => b.1)).headD 0 else 0
  s.emit (2 * ring) 3 (bargeBytes ty id l.length index (unitMask (l.map (fun b => b.2.spill)))
    (unitMask (l.map (fun b => b.2.poison))) p j.step (l.flatMap (fun b => unitBytes ty w e b.1 b.2)))

/-- A list cut into pieces of `n`. -/
def pieces {α : Type} (n : Nat) (l : List α) : List (List α) :=
  (List.range (ceilDiv l.length n)).map (fun i => (l.drop (n * i)).take n)

/-- The TYPE of the SCATTER barges of a stage. -/
def State.stageType (s : State) (j : Job) (st : Nat) : Nat :=
  if st = 0 then (if (s.stake j.stake).xfmt == 0x0F then 3 else 2) else if st = 1 then 3 else 4

/-- Units in a SCATTER barge. -/
def perBarge (ty : Nat) : Nat := if ty = 2 then 7 else if ty = 3 then 3 else 1

/-- A complete block delivered to its owning quay unit: FINAL without a spill mark, or poisoned; else SPILLED (R206). -/
def State.deliver (s : State) (j : Job) (id : Nat) (gs : List Nat) (st b : Nat) (v : Blk) : State :=
  let (w, e) := s.stageFmt j st
  let final := v.poison || !v.spill
  let q := octetOf (gs.getD (b / 2) 0)
  let codes := if w = 0 then v.vals.map (fun x => x.toNat) else v.vals.map (ofBw w e)
  let blk : Block := ⟨id, b, codes, final, v.poison⟩
  let s := s.setQu q { s.qu q with inbox := (s.qu q).inbox ++ [blk] }
  let s := s.addSat (R.rdxJCnt id) (if final then F.rdxJCntFinal else F.rdxJCntSpilled) 1
  if final then s
  else s.addSat (R.rdxSCntSpill j.stake) (if st = 0 then F.rdxSCntSpillBw16 else F.rdxSCntSpillFp32) 1

/-- A complete block at its owner, marked spilled where PTB_SPILL says so (Table 16-6). -/
def State.forceSpill (s : State) (j : Job) (id st b : Nat) (v : Blk) : Blk × State :=
  let (hit, s) := s.ptbSpill id st b ((s.stake j.stake).xfmt == 0x0F)
  (if hit then { v with spill := true } else v, s)

/-- Complete blocks in turn. -/
def State.forceSpills (s : State) (j : Job) (id : Nat) : List (Nat × Nat × Blk) → List (Nat × Nat × Blk) × State
  | [] => ([], s)
  | d :: t =>
    let (v, s) := s.forceSpill j id d.1 d.2.1 d.2.2
    let (l, s) := s.forceSpills j id t
    ((d.1, d.2.1, v) :: l, s)

/-- A block that only this module contributes to (L = 1): delivered, and retried in place while it spills (R208). -/
def State.deliverAlone (s : State) (j : Job) (id : Nat) (gs : List Nat) (b st : Nat) : Nat → State
  | 0 => s
  | n + 1 =>
    let (v, s) := s.forceSpill j id st b (s.ownBlock j gs b st)
    let s := s.deliver j id gs st b v
    if v.spill ∧ ¬ v.poison then s.deliverAlone j id gs b (st + 1) n else s

/-- Elements added counted; RDX_CNT_ADD in units of 2,048. -/
def State.countAdded (s : State) (n : Nat) : State :=
  ({ s with added := s.added + n }).setReg R.rdxCntAdd (BitVec.ofNat 64 ((s.added + n) / 2048))

/-! ### issue and close of a job (R203, R206, R210, R212) -/

/-- RDX_JOBS_OPEN follows the open jobs. -/
def State.syncJobs (s : State) : State :=
  let s := s.setReg R.rdxJobsOpen (BitVec.ofNat 64 (s.jobs.foldl (fun m p => setBit m p.1 p.2.issued) 0))
  s.forAll (List.range 16) (fun s q => s.syncQuay q)

/-- A quay unit without what a job had there: its reads and so its hold, its updates and its blocks. -/
def Quay.dropJob (c : Quay) (id : Nat) : Quay :=
  { c with
    trig := c.trig.filter (fun t => match t with
      | .read j => j != id
      | .upd j _ => j != id
      | _ => true)
    inbox := c.inbox.filter (fun b => b.job != id)
    blocks := c.blocks.filter (fun b => b.job != id)
    blockMirror := c.blockMirror.filter (fun b => b.job != id) }

/-- A job's ID becomes free: its bindings end, and the triggers that waited behind it have their turn (R177, R212). -/
def State.freeJob (s : State) (id : Nat) : State :=
  let s := { s with
    jobs := KMap.erase s.jobs id
    binds := s.binds.filter (fun b => b.job != id)
    quay := s.quay.map (fun (p : Nat × Quay) => (p.1, p.2.dropJob id)) }
  (s.setReg (R.rdxJStatus id) 0).syncJobs

/-- The RJOB of a job completes, with the faults reported after completion (R215). -/
def State.endRjob (s : State) (id : Nat) (j : Job) (codes : List Nat) : State :=
  match (s.q j.stake).outst.find? (fun o => o.seq == j.seq) with
  | none => s
  | some o => (s.complete j.stake o).forAll codes (fun s code =>
      (if code < 0x60 then s else s.rdxFault j.stake code (some id)).raiseFault j.stake 2 o.index code 0xFF true)

/-- The accumulators of every group of a job clear, and the job closes (R177, R210, R212). -/
def State.closeJob (s : State) (id : Nat) (j : Job) (codes : List Nat) : State :=
  let s := (s.groupsOf j).foldl (fun s a => s.clearGroup j.stake a) s
  (s.freeJob id).endRjob id j codes

/-- RJOB at the head of U (R201, R202): the descriptor copy; the job waits for the exchange. -/
def State.rjob (s : State) (k : Nat) : State :=
  s.withHead k 2 [0x30] (fun w s =>
    let i := s.indexOf k 2
    let a := bits w 64 52
    let id := bits w 32 6
    let r := s.stake k
    if bits w 38 26 ≠ 0 ∨ bits w 116 12 ≠ 0 then s.raiseRdx k i 0x60 (some id)
    else if ¬ s.inStake k a 256 then s.raiseRdx k i 0x66 (some id)
    else
      let b := if s.unreadable a 256 then [] else s.bytes a 256
      let n := (s.q k).fresh
      let s := s.dispatchOut k 2 w 0xFF false b [] 0
      if r.jobBase ≤ id ∧ id < r.jobBase + r.jobCount ∧ (s.job id).isNone then
        let st : Word := (0 : Word)
        let v : Job := ⟨k, n, b, false, false, false, 0, 0, 0, [], [], [], [], false, false⟩
        (s.setJob id v).setReg (R.rdxJStatus id) ((st.setFld F.rdxJStatusState 1).setFld F.rdxJStatusStake k)
      else s)

/-- The groups whose blocks this member reads first: all where it is alone or skips, else the chunk that it begins (R206, R210). -/
def firstGroups (p l n : Nat) (skip : Bool) : List Nat :=
  (List.range n).filter (fun i => skip || decide (l = 1) || chunkOwner l n i == (p + l - 1) % l)

/-- The first-pass chunk that this member begins: its converted blocks, or the delivery where it is alone (R206). -/
def State.beginScatter (s : State) (id : Nat) (j : Job) (ring p l : Nat) (bs : List Nat) : State :=
  let gs := s.groupsOf j
  if l = 1 then bs.foldl (fun s b => s.deliverAlone j id gs b 0 3) s
  else
    let ty := s.stageType j 0
    (pieces (perBarge ty) bs).foldl (fun s c =>
      s.sendBlocks j id ring p ty 0 (c.map (fun b => (b, s.ownBlock j gs b 0)))) s

/-- An open job makes its first reads once what reached the quay units before them has been applied (R176); under SKIP it closes
(R210). -/
def State.startJob (s : State) (id : Nat) (x : Errs) : State :=
  match s.job id with
  | none => s
  | some j =>
    match s.member j.stake with
    | none => s
    | some (ring, p, l) =>
      let gs := s.groupsOf j
      let is := firstGroups p l gs.length j.skip
      if !j.issued || j.begun || !(is.all (fun i => s.mayRead id (s.gsize j.stake) (gs.getD i 0))) then s
      else
        let bs := is.flatMap (fun i => [2 * i, 2 * i + 1])
        let j := { j with begun := true, passed := bs.foldl (fun l b => insertNat b l) j.passed }
        let s := (s.setJob id j).syncJobs
        if j.skip then s.closeJob id j [] else (s.noteReads j gs bs x).beginScatter id j ring p l bs

/-- Jobs whose reads waited begin where they may. -/
def State.startJobs (s : State) (x : Errs) : State := (s.jobs.map (fun p => p.1)).foldl (fun s id => s.startJob id x) s

/-- A job that issues: its scale, exponent and verdict, and its reads on their way to the quay units (R199, R200, R206). -/
def State.openJob (s : State) (k : Nat) (o : Outst) (p l : Nat) (r : SealRec) (x : Errs) : State :=
  let id := bits o.word 32 6
  let e := min 254 (r.exps.getD (numAt o.desc 2 1) 0 + 1 + r.headroom)
  let jgs := jobScale o.desc r.normsq
  let skip := s.flag (R.rdxSXstat k) F.rdxSXstatSkip
  let j : Job := ⟨k, o.seq, o.desc, true, false, skip, jgs, e, r.step, [], [], [], [], false, false⟩
  let s := s.updOutst k o.seq (fun v => v.issueAt (s.q k).nextTurn)
  let gs := s.groupsOf j
  let owned := ((List.range gs.length).filter (fun i => chunkOwner l gs.length i == p)).length
  let st : Word := (0 : Word)
  let st := ((st.setFld F.rdxJStatusState 2).setFld F.rdxJStatusStake k).setFld F.rdxJStatusSkip (if skip then 1 else 0)
  let s := (s.setJob id j).setReg (R.rdxJStatus id) (st.setFld F.rdxJStatusOwnedLeft owned)
  let sc : Word := (0 : Word)
  let s := s.setReg (R.rdxJScale id) ((sc.setFld F.rdxJScaleJgs jgs).setFld F.rdxJScaleE e)
  let us := (List.range 16).filter (fun q => gs.any (fun a => octetOf a == q))
  let s := us.foldl (fun s q => s.setQu q { s.qu q with trig := (s.qu q).trig ++ [.read id] }) s
  ((s.setReg (R.rdxJCnt id) 0).syncJobs).startJob id x

/-- RJOB_ISSUE (R199, R200, R203, R210): the oldest RJOB of the stake issues once the exchange of the latest hand-off has ended. -/
def State.rjobIssue (s : State) (k : Nat) (x : Errs) : State :=
  match (s.q k).outst.find? (fun o => opcOf o.word == 0x30 && !o.issued) with
  | none => s
  | some o =>
    if !(s.xchEnded k) || s.noIssue k then s
    else match s.jobFault k o with
      | some c => s.rdxOut k o c (some (bits o.word 32 6))
      | none =>
        match s.member k, (s.xc k).agreed with
        | some (_, p, l), some r => s.openJob k o p l r x
        | _, _ => s

/-- XREAD (R201): checked and dispatched at the head of U; once the exchange of the latest hand-off has ended it writes 128 bytes and
completes. -/
def State.xreadEnd (s : State) (k : Nat) : State :=
  match (s.q k).outst.find? (fun o => opcOf o.word == 0x31) with
  | none => s
  | some o =>
    if !(s.xchEnded k) || s.noIssue k then s
    else if s.fld (R.rdxSXstat k) F.rdxSXstatState = 0 then s.rdxOut k o 0x65 none
    else
      let b := (match (s.xc k).agreed with
        | some r => r.bytes
        | none => List.replicate 64 0) ++ toBytes 8 (s.reg (R.rdxSXstat k)).toNat ++ List.replicate 56 0
      (s.wr (bits o.word 64 52) b).complete k o

/-- XREAD at the head of U. -/
def State.xreadHead (s : State) (k : Nat) : State :=
  s.withHead k 2 [0x31] (fun w s =>
    let i := s.indexOf k 2
    let a := bits w 64 52
    if bits w 32 32 ≠ 0 ∨ bits w 116 12 ≠ 0 then s.raiseRdx k i 0x60 none
    else if a % 64 ≠ 0 then s.raiseRdx k i 0x62 none
    else if ¬ s.inStake k a 128 then s.raiseRdx k i 0x66 none
    else s.dispatchOut k 2 w 0xFF false [] [] 0)

/-! ### barges received (R205-R211) -/

/-- The oldest barge of a TYPE at a port whose job this module has issued in the barge's exchange, and that `may` be processed: its
place, flit and job. -/
def State.ripe (s : State) (p ty : Nat) (may : Job → List Byte → Bool) : Option (Nat × (Nat × List Byte) × Job) :=
  let ok := fun (e : Nat × List Byte) => e.1 % 8 == 3 && numAt e.2 0 1 == ty &&
    (match s.job (flitJob e.2) with
      | some j => j.issued && !j.skip && j.step == numAt e.2 12 4 && may j e.2
      | none => false)
  match (s.pt p).rx.findIdx? ok with
  | none => none
  | some i =>
    let e := (s.pt p).rx.getD i (0, [])
    (s.job (flitJob e.2)).map (fun j => (i, e, j))

/-- A parked flit leaves and its job credit returns (R205). -/
def State.consume (s : State) (p i id : Nat) : State :=
  let c := s.pt p
  s.setPt p { c with
    rx := c.rx.eraseIdx i
    freedJob := KMap.set c.freedJob 0 id ((KMap.get c.freedJob 0 id + 1) % 65536) }

/-- The stage of a block in a SCATTER barge of TYPE `ty`: with XFMT BW16 a block's second SCATTER16 is its retry. -/
def State.stageOf (s : State) (j : Job) (ty b : Nat) : Nat :=
  if ty = 2 then 0 else if ty = 4 then 2
  else if (s.stake j.stake).xfmt == 0x0F && !(j.passed.contains b) then 0 else 1

/-- The units of a SCATTER barge that name blocks of the job. -/
def State.bargeUnits (s : State) (j : Job) (ty : Nat) (f : List Byte) : List (Nat × Blk) :=
  ((List.range (min (numAt f 3 1) (perBarge ty))).map (readUnit ty f)).filter (fun u => decide (u.1 / 2 < (s.groupsOf j).length))

/-- The own blocks that a SCATTER barge adds to may be read (R176). -/
def State.mayAdd (s : State) (ty : Nat) (j : Job) (f : List Byte) : Bool :=
  (s.bargeUnits j ty f).all (fun u => s.mayRead (flitJob f) (s.gsize j.stake) ((s.groupsOf j).getD (u.1 / 2) 0))

/-- A SCATTER barge of TYPE `ty` at port `p` is processed (R206, R208): its blocks are added and forwarded, or delivered by their
owner, which asks for retries of those that spilled. -/
def State.takeScatter (s : State) (p ty : Nat) (x : Errs) : State :=
  match s.ripe p ty (s.mayAdd ty) with
  | none => s
  | some (i, e, j) =>
    match s.member j.stake with
    | none => s
    | some (ring, pos, l) =>
      let id := flitJob e.2
      let gs := s.groupsOf j
      let us := s.bargeUnits j ty e.2
      let s := s.noteReads j gs (us.map (fun u => u.1)) x
      let done := us.map (fun u =>
        let st := s.stageOf j ty u.1
        (st, u.1, addBlk (s.stageFmt j st).1 u.2 (s.ownBlock j gs u.1 st)))
      let s := (s.consume p i id).countAdded (32 * us.length)
      let j' := { j with passed := us.foldl (fun l u => insertNat u.1 l) j.passed }
      let s := s.setJob id j'
      let (mine, s) := s.forceSpills j' id (done.filter (fun d => chunkOwner l gs.length (d.2.1 / 2) == pos))
      let rest := done.filter (fun d => chunkOwner l gs.length (d.2.1 / 2) != pos)
      let s := if rest.isEmpty then s
        else s.sendBlocks j' id ring pos ty ((rest.map (fun d => d.1)).headD 0) (rest.map (fun d => d.2))
      let s := mine.foldl (fun s d => s.deliver j' id gs d.1 d.2.1 d.2.2) s
      let again := fun (st : Nat) => (mine.filter (fun d => d.1 == st && d.2.2.spill && !d.2.2.poison)).map (fun d => d.2.1)
      [0, 1].foldl (fun s st =>
        if (again st).isEmpty then s
        else s.emit (2 * ring) 3 (bargeBytes (5 + st) id (again st).length 0 0 0 pos j.step ((again st).flatMap (toBytes 4)))) s

/-- The blocks of the job that a REQ16 or REQ32 barge names. -/
def State.reqBlocks (s : State) (j : Job) (f : List Byte) : List Nat :=
  ((List.range (min (numAt f 3 1) 60)).map (fun u => numAt f (16 + 4 * u) 4)).filter (fun b => decide (b / 2 < (s.groupsOf j).length))

/-- The own blocks that a REQ16 or REQ32 barge names may be read (R176). -/
def State.mayRetry (s : State) (j : Job) (f : List Byte) : Bool :=
  (s.reqBlocks j f).all (fun b => s.mayRead (flitJob f) (s.gsize j.stake) ((s.groupsOf j).getD (b / 2) 0))

/-- A REQ16 or REQ32 barge at port `p` starts a retry of the blocks it names (R208 steps 2 and 5). -/
def State.takeReq (s : State) (p ty : Nat) (x : Errs) : State :=
  match s.ripe p ty s.mayRetry with
  | none => s
  | some (i, e, j) =>
    match s.member j.stake with
    | none => s
    | some (ring, pos, _) =>
      let id := flitJob e.2
      let gs := s.groupsOf j
      let st := ty - 4
      let bs := s.reqBlocks j e.2
      let t := s.stageType j st
      (pieces (perBarge t) bs).foldl (fun s c => s.sendBlocks j id ring pos t st (c.map (fun b => (b, s.ownBlock j gs b st))))
        ((s.noteReads j gs bs x).consume p i id)

/-- Working-copy bytes of a group in a binding's format, and MX32 scale bytes (Table 8-7). -/
def QuayD.gatherLen (d : QuayD) : Nat := 8 * d.wwidth + (if d.wscm = 2 then 2 else 0)

/-- Where a binding puts a group's working copy and its scale bytes (R182, R211). -/
def QuayD.copyAt (d : QuayD) (g a : Nat) : Nat × Nat :=
  let (n, c) := d.place g a
  (d.wbase + n * d.wstride + 8 * d.wwidth * c, d.wsaddr + n * (d.cols / 32) + 2 * c)

/-- A group's working copy written as received (R211). -/
def State.gatherWrite (s : State) (j : Job) (id a : Nat) (b : List Byte) (bad : Bool) : State :=
  match s.bindOf id a with
  | none => s
  | some bd =>
    let d := parseQuay bd.desc
    let (wa, sa) := d.copyAt (s.gsize j.stake) a
    let n := 8 * d.wwidth
    let s := if bad then s.wrPoison wa n else s.wr wa (slice b 0 n)
    if d.wscm = 2 then (if bad then s.wrPoison sa 2 else s.wr sa (slice b n 2)) else s

/-- GATHER (R211): the groups of a barge are written by the own bindings, and forwarded unless the next position owns them. -/
def State.takeGather (s : State) (p : Nat) : State :=
  match s.ripe p 7 (fun _ _ => true) with
  | none => s
  | some (i, e, j) =>
    match s.member j.stake with
    | none => s
    | some (ring, pos, l) =>
      let id := flitJob e.2
      let gs := s.groupsOf j
      let first := numAt e.2 4 4
      let len := match s.bindOf id (gs.getD first 0) with
        | some b => (parseQuay b.desc).gatherLen
        | none => 240
      let us := (List.range (numAt e.2 3 1)).filter (fun u => decide (first + u < gs.length) && decide ((u + 1) * len ≤ 240))
      let s := s.consume p i id
      let s := us.foldl (fun s u =>
        s.gatherWrite j id (gs.getD (first + u) 0) (slice e.2 (16 + u * len) len) ((numAt e.2 9 1).testBit u)) s
      let s := s.setJob id { j with
        written := us.foldl (fun m u => insertNat (first + u) m) j.written
        badCopy := j.badCopy || us.any (fun u => (numAt e.2 9 1).testBit u) }
      if chunkOwner l gs.length first = (pos + 1) % l then s
      else s.emit (2 * ring) 3 (toBytes 1 7 ++ slice e.2 1 9 ++ toBytes 2 pos ++ slice e.2 12 244)

/-- GATHER_SEND (R211): consecutive owned groups whose working copies are visible leave in one barge. -/
def State.gatherSend (s : State) (k : Nat) : State :=
  match s.jobs.find? (fun p => p.2.stake == k && p.2.issued && !p.2.toSend.isEmpty), s.member k with
  | some (id, j), some (ring, pos, l) =>
    if l = 1 then s.setJob id { j with toSend := [] }
    else
      let gs := s.groupsOf j
      let first := j.toSend.headD 0
      let len := fun (i : Nat) => match s.bindOf id (gs.getD i 0) with
        | some b => (parseQuay b.desc).gatherLen
        | none => 240
      let run := ((List.range (240 / len first)).map (fun u => first + u)).takeWhile (fun i => j.toSend.contains i && len i == len first)
      let one := fun (i : Nat) => match s.bindOf id (gs.getD i 0) with
        | none => ([], false)
        | some b =>
          let d := parseQuay b.desc
          let (wa, sa) := d.copyAt (s.gsize k) (gs.getD i 0)
          let n := 8 * d.wwidth
          let mx := d.wscm == 2
          (s.bytes wa n ++ (if mx then s.bytes sa 2 else []), s.unreadable wa n || (mx && s.unreadable sa 2))
      let us := run.map one
      let f := bargeBytes 7 id us.length first 0 (unitMask (us.map (fun u => u.2))) pos j.step (us.flatMap (fun u => u.1))
      (s.setJob id { j with toSend := j.toSend.filter (fun i => !(run.contains i)) }).emit (2 * ring) 3 f
  | _, _ => s

/-- JOB_CLOSE (R212): every owned group updated and sent, every other written, every barge sent and its credit back. -/
def State.jobClose (s : State) (id : Nat) : State :=
  match s.job id with
  | none => s
  | some j => match s.member j.stake with
    | none => s
    | some (ring, pos, l) =>
      let gs := s.groupsOf j
      let g := s.rg (2 * ring)
      let ready := j.begun && j.toSend.isEmpty &&
        (List.range gs.length).all (fun i => if chunkOwner l gs.length i = pos then j.updated.contains i else j.written.contains i) &&
        !(g.txq.any (fun e => e.1 == 3 && !(isSealFlit e.1 e.2) && flitJob e.2 == id)) && decide (KMap.get g.jobs 0 id = 0)
      if ready then s.closeJob id j ((if j.badUpd then [0x57] else []) ++ (if j.badCopy then [0x68] else [])) else s

/-- JOB_TIMEOUT (R214): the job ends; its groups are released without clearing, and what it still had to send is dropped. -/
def State.jobTimeout (s : State) (id : Nat) : State :=
  match s.job id with
  | none => s
  | some j =>
    if ¬ j.issued then s
    else
      let s := s.ringDirs.foldl (fun s rd => s.setRg rd { s.rg rd with
        txq := (s.rg rd).txq.filter (fun e => !(e.1 == 3 && !(isSealFlit e.1 e.2) && flitJob e.2 == id)) }) s
      (s.freeJob id).endRjob id j [0x67]

/-- SEAL_LATCH (R133): the hand-off of step 7 begins the exchange. -/
def execSealLatch (k : Fin 16) (s : State) : Host.Outcome State Fault Refusal :=
  .next (s.sealLatch k (fun s step l => s.handoff k step l))
/-- RJOB. -/
def execRjob (k : Fin 16) (s : State) : Host.Outcome State Fault Refusal := .next (s.rjob k)
/-- RJOB_ISSUE. -/
def execRjobIssue (k : Fin 16) (errs : Errs) (s : State) : Host.Outcome State Fault Refusal := .next (s.rjobIssue k errs)
/-- QUAY_FOLD. -/
def execQuayFold (q : Fin 16) (held : Nat) (errs : Errs) (s : State) : Host.Outcome State Fault Refusal :=
  .next ((s.quayFold q held errs).startJobs errs)
/-- QUAY_OP_COMPLETE. -/
def execQuayOpComplete (k : Fin 16) (held : Nat) (errs : Errs) (s : State) : Host.Outcome State Fault Refusal :=
  .next ((s.quayOpComplete k held errs).startJobs errs)
/-- QUAY_BOUND_UPDATE. -/
def execQuayBoundUpdate (q : Fin 16) (errs : Errs) (s : State) : Host.Outcome State Fault Refusal :=
  .next ((s.boundUpdate q errs).startJobs errs)
/-- FAR_ATOMIC. -/
def execFarAtomic (q : Fin 16) (errs : Errs) (s : State) : Host.Outcome State Fault Refusal :=
  .next ((s.farAtomic q errs).startJobs errs)
/-- XREAD. -/
def execXread (k : Fin 16) (s : State) : Host.Outcome State Fault Refusal := .next ((s.xreadHead k).xreadEnd k)
/-- SEAL_BARGE. -/
def execSealBarge (port : Fin 12) (s : State) : Host.Outcome State Fault Refusal := .next (s.takeSeal port)
/-- EXCHANGE_TIMEOUT. -/
def execExchangeTimeout (k : Fin 16) (s : State) : Host.Outcome State Fault Refusal := .next (s.xchTimeout k)
/-- SCATTER8. -/
def execScatter8 (port : Fin 12) (errs : Errs) (s : State) : Host.Outcome State Fault Refusal := .next (s.takeScatter port 2 errs)
/-- SCATTER16. -/
def execScatter16 (port : Fin 12) (errs : Errs) (s : State) : Host.Outcome State Fault Refusal := .next (s.takeScatter port 3 errs)
/-- SCATTER32. -/
def execScatter32 (port : Fin 12) (errs : Errs) (s : State) : Host.Outcome State Fault Refusal := .next (s.takeScatter port 4 errs)
/-- REQ16. -/
def execReq16 (port : Fin 12) (errs : Errs) (s : State) : Host.Outcome State Fault Refusal := .next (s.takeReq port 5 errs)
/-- REQ32. -/
def execReq32 (port : Fin 12) (errs : Errs) (s : State) : Host.Outcome State Fault Refusal := .next (s.takeReq port 6 errs)
/-- GATHER. -/
def execGather (port : Fin 12) (s : State) : Host.Outcome State Fault Refusal := .next (s.takeGather port)
/-- GATHER_SEND. -/
def execGatherSend (k : Fin 16) (s : State) : Host.Outcome State Fault Refusal := .next (s.gatherSend k)
/-- JOB_CLOSE. -/
def execJobClose (j : Fin 64) (s : State) : Host.Outcome State Fault Refusal := .next (s.jobClose j)
/-- JOB_TIMEOUT. -/
def execJobTimeout (j : Fin 64) (s : State) : Host.Outcome State Fault Refusal := .next (s.jobTimeout j)

end Sys2Proof.Machine
end

