-- ==== Sys2Proof/Machine/Weave.lean ====
section
/-! DEFINITION. Applying a weave: what its records give the registers and units, the boot application, and partial re-weaves
(R25-R32, R82, R114, R348, R378, R410). -/

namespace Sys2Proof.Machine

/-! ### measurements (R378) -/

/-- Measurement `i` (1 to 4) extended with a digest, and the event logged. -/
def State.extend (s : State) (i : Nat) (d : BitVec 384) : State :=
  let m := s.sec.meas.getD (i - 1) 0
  { s with sec := { s.sec with
    meas := setAt s.sec.meas (i - 1) (sha384 (toBytes 48 m.toNat ++ toBytes 48 d.toNat))
    log := s.sec.log ++ [(i, d)] } }

/-! ### what the records show (RWL fields) -/

/-- `a` without the bits of `b`. -/
def bitsOff (a b : Nat) : Nat := a - (a &&& b)

/-- PSQ_FT_CAP: the working units of a stake. -/
def State.showCap (s : State) (k : Nat) : State :=
  let r := s.stake k
  let w : Word := 0
  s.setReg (R.psqFtCap k) (if s.enabled k then ((w.setFld F.psqFtCapEng (bitsOff r.eng s.failEng)).setFld F.psqFtCapPvu
    (bitsOff r.pvu s.failPvu)).setFld F.psqFtCapTc (popcount 256 (bitsOff r.tc s.failTc)) else 0)

/-- The summary window of a stake (R10 RWL), zero while it is disabled. -/
def State.showWindow (s : State) (k : Nat) : State :=
  let r := s.stake k
  let w : Word := 0
  let on := fun (v : Word) => if s.enabled k then v else 0
  let s1 := s.setReg (R.wvStkEng k) (on ((((w.setFld F.wvStkEngEngMask r.eng).setFld F.wvStkEngPvuMask r.pvu).setFld
    F.wvStkEngMbLimit r.mb).setFld F.wvStkEngSpadShare r.spad))
  let s1 := s1.forAll (List.range 4) (fun t i => t.setReg (R.wvStkTc k i) (on (BitVec.ofNat 64 (r.tc >>> (64 * i)))))
  let s1 := s1.forAll (List.range 2) (fun t i => t.setReg (R.wvStkCh k i) (on (BitVec.ofNat 64 (r.ch >>> (64 * i)))))
  let f := ((((w.setFld F.wvStkFmtWfmt r.wfmt).setFld F.wvStkFmtFfmt r.ffmt).setFld F.wvStkFmtXfmt r.xfmt).setFld F.wvStkFmtMaster12
    (if r.master12 then 1 else 0)).setFld F.wvStkFmtGroup r.group
  s1.setReg (R.wvStkFmt k) (on (((f.setFld F.wvStkFmtJobBase r.jobBase).setFld F.wvStkFmtJobCount r.jobCount).setFld F.wvStkFmtLevel
    r.level))

/-- What the weave gives the registers of a stake's PSQ, ASU and KVP contexts. -/
def State.showStake (s : State) (k : Nat) : State :=
  let on := s.enabled k
  let n := fun (b : Bool) (v : Nat) => if on && b then v else 0
  let s := (s.showWindow k).showCap k
  let s := s.setFld (R.psqId k) F.psqIdLevel (n true (s.stake k).level)
  let s := s.setFldBit R.wvStatus F.wvStatusStakes k on
  s.forAll (List.range 4) (fun s d =>
    let mine := (s.diesOf k).contains d
    let s := (s.setFld (R.asuSArea d k) F.asuSAreaAreaSegs (n mine (s.areaSegs k))).setFld (R.asuSArea d k) F.asuSAreaPoolSegs
      (n mine (s.poolSegs d k))
    let s := s.setFld (R.asuSStatus d k) F.asuSStatusInUse (n mine 1)
    s.setFld (R.kvpSStatus d k) F.kvpSStatusKeeper (n (s.keeper k == d) 1))

/-- A queue pair's depth and owner (R20, R21). -/
def State.showQueue (s : State) (n : Nat) : State :=
  let o := ((s.weave.cur.hostq.find? (fun p => p.1 == n)).map (fun p => p.2)).getD 0xFF
  (s.setFld (R.hifQCfg n) F.hifQCfgDepth (s.pound (0x800 + n))).setFld (R.hifQCfg n) F.hifQCfgOwner o

/-- Everything that the active weave gives the registers (Table 1-7 step 4). -/
def State.showWeave (s : State) : State :=
  (s.forAll (List.range 16) State.showStake).forAll (List.range 64) State.showQueue

/-! ### units given and taken -/

/-- An engine with its DVU, or a PVU, shows its owner; a failed one stays FAILED. -/
def State.showEng (s : State) (e : Nat) : State :=
  if s.failEng.testBit e then s
  else match s.engOwner e with
    | none => ((s.setFld (R.mxeStatus e) F.mxeStatusState 0).setFld (R.mxeStatus e) F.mxeStatusStake 0).setFld (R.vecDvuStatus e)
        F.vecDvuStatusState 0
    | some k => ((s.setFld (R.mxeStatus e) F.mxeStatusState 1).setFld (R.mxeStatus e) F.mxeStatusStake k).setFld (R.vecDvuStatus e)
        F.vecDvuStatusState 1

/-- A PVU shows its owner. -/
def State.showPvu (s : State) (v : Nat) : State :=
  if s.failPvu.testBit v then s
  else match s.pvuOwner v with
    | none => (s.setFld (R.vecPvuStatus v) F.vecPvuStatusState 0).setFld (R.vecPvuStatus v) F.vecPvuStatusStake 0
    | some k => (s.setFld (R.vecPvuStatus v) F.vecPvuStatusState 1).setFld (R.vecPvuStatus v) F.vecPvuStatusStake k

/-- A quay unit is ACTIVE while a stake owns channels of it. -/
def State.showQuay (s : State) (q : Nat) : State :=
  if 2 ≤ s.fld (R.quyStatus q) F.quyStatusState then s
  else s.setFld (R.quyStatus q) F.quyStatusState (if (s.octOwner q).isSome then 1 else 0)

/-- Units that masks name show their owners. -/
def State.showUnits (s : State) (eng pvu : Nat) : State :=
  ((s.forAll (onesOf 32 eng) State.showEng).forAll (onesOf 8 pvu) State.showPvu).forAll (List.range 16) State.showQuay

/-- The islands of the UNITS domain that the weave assigns begin to settle; the others are gated (R353, R355). -/
def State.islandOwned (s : State) (i : Nat) : Bool :=
  if i < 32 then (s.engOwner i).isSome
  else if i < 40 then (s.pvuOwner (i - 32)).isSome
  else if 64 ≤ i ∧ i < 68 then (List.range 64).any (fun t => (s.tcOwner (64 * (i - 64) + t)).isSome)
  else if 83 ≤ i ∧ i < 95 then s.widthCode (i - 83) != 1
  else true

/-- Islands of a released domain (Tables 15-2 and 15-9). -/
def domainIslands (n : Nat) : List Nat :=
  if n = 3 then [95] else if n = 4 then [81] else if n = 5 then [69, 70, 71, 72] else if n = 6 then [68]
  else if n = 8 then List.range 68 ++ [82] ++ (List.range 12).map (83 + ·)
  else if n = 9 then (List.range 8).map (73 + ·) else []

/-- A domain's islands begin to settle: SETTLING, or GATED where no stake owns the unit. -/
def State.wakeIslands (s : State) (n : Nat) : State :=
  s.forAll (domainIslands n) (fun s i =>
    if s.fld (R.lkIsl i) F.lkIslState = 2 then s
    else s.setFld (R.lkIsl i) F.lkIslState (if n = 8 ∧ ¬ s.islandOwned i then 3 else 1))

/-- The island of a unit whose owner changed: it settles when it gains an owner, and is gated when it has none. -/
def State.turnIsland (s : State) (i : Nat) : State :=
  let st := s.fld (R.lkIsl i) F.lkIslState
  if s.islandOwned i then (if st = 3 then s.setFld (R.lkIsl i) F.lkIslState 1 else s)
  else if st = 1 ∨ st = 2 then s.setFld (R.lkIsl i) F.lkIslState 3 else s

/-- A stake is formed: its PSQ is IDLE and its journal opens an epoch (R144, R346). -/
def State.formStake (s : State) (k : Nat) : State :=
  if s.enabled k then (s.setPst k stIdle).openEpoch k else s

/-- The UNITS domain is released with the active weave (Table 1-7 step 5). -/
def State.releaseUnits (s : State) : State :=
  let s := { s with lk := { s.lk with unitsUp := true } }
  let s := (s.setFld R.lkStatus F.lkStatusPhase (max 8 (s.fld R.lkStatus F.lkStatusPhase))).wakeIslands 8
  s.showUnits (2 ^ 32 - 1) 255

/-! ### the boot application (Table 1-7) -/

/-- The bytes of a flash region: as programmed, else as shipped; none where a programming was interrupted (R376). -/
def State.flashImage (s : State) (r : Nat) : Option (List Byte) :=
  if s.flash.invalid.contains r then none else some ((KMap.find s.flash.regions r).getD (Config.factoryFlash r))

/-- The first `n` bytes of the staging buffer (R314); those never written are undefined. -/
def State.stagedImage (s : State) (n : Nat) : List Byte :=
  (List.range n).map (fun i => (KMap.find s.weave.staging i).getD (Config.freeByte s.weave.stage (2 ^ 52 + i)))

/-- WV_ERR records a failed check. -/
def State.wvError (s : State) (e : ImgErr) (partly : Bool) : State :=
  let w : Word := 0
  s.setReg R.wvErr (((((w.setFld F.wvErrCode e.1).setFld F.wvErrSection e.2.1).setFld F.wvErrRecord e.2.2.1).setFld F.wvErrStake
    e.2.2.2).setFld F.wvErrPartial (if partly then 1 else 0))

/-- WV_DIGEST (R410). -/
def State.showDigest (s : State) (d : BitVec 384) : State :=
  let s := { s with weave := { s.weave with digest := d } }
  s.forAll (List.range 6) (fun s i => s.setReg (R.wvDigest i) (BitVec.ofNat 64 (d.toNat >>> (64 * i))))

/-- PSQ_JRNL_PREV and PSQ_JRNL_PREV_EPOCH show the capture in the boot flash, VALID where it was complete (R347). A later loss needs a
capture of its own. -/
def State.showPrev (s : State) : State :=
  let v := if s.flash.captureOk then 1 else 0
  let s := s.forAll (List.range 16) (fun s k =>
    let c := s.flash.capture.getD k (0, 0)
    (s.setReg (R.psqJrnlPrev k) (((0 : Word).setFld F.psqJrnlPrevLast c.2).setFld F.psqJrnlPrevValid v)).setReg (R.psqJrnlPrevEpoch k)
      ((0 : Word).setFld F.psqJrnlPrevEpochEpoch c.1))
  { s with flash := { s.flash with captureOk := false } }

/-- A full image that passed its checks is applied (Table 1-7 steps 4 to 6). `src`: 0 slot A, 1 slot B, 2 host. -/
def State.applyFull (s : State) (b : List Byte) (src : Nat) : State :=
  let s := { s with weave := { s.weave with active := true, cur := imgProgram b .empty, phase := 0 } }
  let s := s.showWeave.releaseUnits
  let s := s.showPrev.forAll (List.range 16) State.formStake
  let s := (s.setReg R.wvImageId (BitVec.ofNat 64 (imgId b))).setReg R.wvVersion (BitVec.ofNat 64 (imgVersion b + imgSecVersion b * 2 ^ 32))
  let s := ((s.setFld R.wvStatus F.wvStatusState 1).setFld R.wvStatus F.wvStatusSrc src).setFld R.wvStatus F.wvStatusLevel (imgLevel b)
  let s := (s.setFld R.wvGen F.wvGenGen 1).showDigest (imgDigest b)
  let s := s.extend 2 (imgDigest b)
  if src = 2 then s.setFld R.hifStatus F.hifStatusBoot 3 else s

/-- The module is FAILED (Table 1-7 step 8). -/
def State.weaveFailed (s : State) : State := s.setFld R.wvStatus F.wvStatusState 3

/-- An image is checked, and applied where it passes; else its error is recorded. DESIGN CHOICE (log 44), unsafe: a slot left invalid by an
interrupted programming (R376) fails check 1, FORMAT. -/
def State.tryImage (s : State) (img : Option (List Byte)) (given : Option Nat) (sigOk : Bool) (src : Nat) : Bool × State :=
  match img with
  | none => (false, s.wvError (1, 0, 0, 0) false)
  | some b => match checkWeave s b given 0xFF sigOk with
    | none => (true, s.applyFull b src)
    | some e => (false, s.wvError e false)

/-- The UNITS domain is released braced, or at throttle level 3, where those hold (Table 15-11). -/
def State.holdUnits (s : State) : State :=
  s.forAll (List.range 16) (fun s k =>
    if !(s.enabled k) then s
    else
      let s := if s.lk.warnLow then ((s.setFld (R.psqStatus k) F.psqStatusHoldBrace 1).setFld (R.psqJrnlStatus k) F.psqJrnlStatusClosed
        1).braceThreads k true else s
      if s.fld R.lkThrot F.lkThrotLevel = 3 then s.setFld (R.psqStatus k) F.psqStatusHoldThrottle 1 else s)

/-- WEAVE_BOOT_APPLY (Table 1-7). `sigA` and `sigB` say whether the signatures of the two sources verify. -/
def State.weaveBoot (s : State) (sigA sigB : Bool) : State :=
  if !(s.domainUp 7) || s.weave.active || s.fld R.wvStatus F.wvStatusState ≠ 0 then s
  else if s.fld R.lkOpt F.lkOptBoot = 1 then
    if !s.lk.bootGo then s
    else
      let r := s.tryImage (some (s.stagedImage (s.fld R.hifBoot F.hifBootLen))) (some (s.fld R.hifBoot F.hifBootLen)) sigA 2
      if r.1 then r.2.holdUnits else r.2.weaveFailed.setFld R.hifStatus F.hifStatusBoot 3
  else
    let r := s.tryImage (s.flashImage 2) none sigA 0
    if r.1 then r.2.holdUnits
    else
      let r := (r.2.setFld R.wvStatus F.wvStatusSrc 1).tryImage (s.flashImage 3) none sigB 1
      if r.1 then r.2.holdUnits else r.2.weaveFailed

/-! ### partial re-weaves (Table 1-8) -/

/-- The target of the partial re-weave in progress. -/
def State.partStake (s : State) : Nat := s.fld R.wvStatus F.wvStatusPartStake

/-- A partial re-weave ends with an OUTCOME. -/
def State.partEnd (s : State) (outcome : Nat) : State :=
  let s := (s.setFld R.wvPartResult F.wvPartResultOutcome outcome).setFld R.wvStatus F.wvStatusPartBusy 0
  { s with weave := { s.weave with phase := 0, part := .empty, partDig := 0 } }

/-- The copy and checks of the image at WV_PART_ADDR (R27, Table 1-8 steps 1 to 3). -/
def State.partCheck (s : State) (k : Nat) (sigOk : Bool) : State :=
  let a := s.fld R.wvPartAddr F.wvPartAddrAddr * 4096
  let n := s.fld R.wvPartLen F.wvPartLenLen
  let fail := fun (e : ImgErr) => (s.wvError (e.1, e.2.1, e.2.2.1, k) true).partEnd 2
  if n = 0 ∨ 0x100000 < n then fail (1, 0, 0, k)
  else if s.unreadable a n then fail (0x11, 0, 0, k)
  else
    let b := s.bytes a n
    match checkWeave s b (some n) k sigOk with
    | some e => fail e
    | none => { s with weave := { s.weave with part := imgProgram b s.weave.cur, partDig := imgDigest b, phase := 3 } }

/-- WV_CMD with CMD 1 (R27, R28). -/
def State.partStart (s : State) (k : Nat) (sigOk : Bool) : State :=
  let st := s.fld R.wvStatus F.wvStatusState
  if s.flag R.wvStatus F.wvStatusPartBusy then s.setFld R.wvErr F.wvErrCode 0x0C
  else if st = 0 ∨ st = 3 then (s.setFld R.wvErr F.wvErrCode 0x0F).setFld R.wvErr F.wvErrPartial 1
  else ((s.setFld R.wvStatus F.wvStatusPartBusy 1).setFld R.wvStatus F.wvStatusPartStake k).partCheck k sigOk

/-- No seal exchange or reduction job of the stake is open. -/
def State.noJobs (s : State) (k : Nat) : Bool := s.xchEnded k && !(s.jobs.any (fun p => p.2.stake == k && p.2.issued))

/-- PARTIAL_QUIESCE_BEGIN (Table 1-8 step 4). -/
def State.partQuiesce (s : State) : State :=
  let k := s.partStake
  if s.weave.phase ≠ 3 ∨ !(s.noJobs k) then s
  else
    let s := ({ s with weave := { s.weave with phase := 5 } } : State).setFld R.wvStatus F.wvStatusState 2
    if s.enabled k then s.beginStop k F.psqStatusStopQuiesce else s

/-- The record of stake `k` that the partial image would make active. -/
def State.newStake (s : State) (k : Nat) : StakeRec :=
  (s.weave.part.stakes.find? (fun r => r.stake == k && r.enable)).getD .off

/-- The activation-stack fields that let frames carry over (Table 6-4). -/
def sameStack (a b : StakeRec) : Bool :=
  let dies := fun (e : Nat) => (List.range 4).map (fun d => decide ((e >>> (8 * d)) % 256 ≠ 0))
  a.stackBase == b.stackBase && a.stackLim == b.stackLim && a.mb == b.mb && a.spad == b.spad && dies a.eng == dies b.eng

/-- The journal stays where it is (R32). -/
def sameJournal (a b : StakeRec) : Bool := a.enable && b.enable && a.jrnlBase == b.jrnlBase && a.jrnlKib == b.jrnlKib

/-- Quiescence is complete (Table 1-8 steps 4 to 6, Table 6-4, R348). -/
def State.quiet (s : State) (k : Nat) : Bool :=
  let new := s.newStake k
  if !(s.enabled k) then true
  else
    (s.pst k == stIdle || s.pst k == stStopped) && (s.q k).outst.isEmpty && s.noJobs k &&
      (sameStack (s.stake k) new || s.fld (R.psqStatus k) F.psqStatusOpenCount == 0) &&
      (List.range 64).all (fun n => s.qpOwner n != k || (s.hqOf n).run.all (fun c => if new.enable then c.done || !c.issued else false))

/-- The partial re-weave is abandoned with a code (R30, Table 1-9): the stake goes on under its old record. -/
def State.partAbandon (s : State) (code : Nat) : State :=
  let k := s.partStake
  let s := ((s.wvError (code, 0, 0, k) true).partEnd 3).setFld R.wvStatus F.wvStatusState 1
  ((s.setFld (R.psqStatus k) F.psqStatusStopQuiesce 0).autoResume k).stakeEvent k F.hifSEvtReweave

/-- A stake's program state (R136) and open tags clear, and CTX_VALID with them; its holds and stop causes end (R144, Table 5-7). The
tokens (R127), the step number, the seeds, REFUSED and what software set up (programs, token sets, the context area) stay. -/
def State.psqClear (s : State) (k : Nat) : State :=
  let refused := s.flag (R.psqStatus k) F.psqStatusRefused
  let s := (s.setQ k .idle).resetRegs ([R.psqStatus k, R.psqFtSubst k 0, R.psqFtSubst k 1] ++
    (List.range 3).flatMap (fun x => [R.psqPc k x, R.psqIndex k x, R.psqLimit k x, R.psqFrec0 k x, R.psqFrec1 k x, R.psqInflight k x,
      R.psqAhead k x]))
  s.setFld (R.psqStatus k) F.psqStatusRefused (if refused then 1 else 0)

/-- Engines that leave a stake: their scratchpads are undefined (R82). -/
def State.loseSpads (s : State) (eng : Nat) : State :=
  s.forAll (onesOf 32 eng) (fun s e => s.lose (spadBase e) (spadBase e + 0x1800000))

/-- What a partial re-weave takes from its target: cores halt, PVUs clear, scratchpads are lost (Table 10-3, R114, R82). -/
def State.takeUnits (s : State) (old new : StakeRec) : State :=
  let s := (s.haltThreads (bitsOff old.tc new.tc)).loseSpads (bitsOff old.eng new.eng)
  s.forAll (onesOf 8 (bitsOff old.pvu new.pvu)) (fun s v => s.setPv v .idle)

/-- The KV pool carries over, or READY clears (Table 9-8). `kd` is the old keeper's die. -/
def State.keepPool (s : State) (k kd : Nat) (old new : StakeRec) : State :=
  if new.enable ∧ old.kvBase = new.kvBase ∧ old.kvPages = new.kvPages ∧ old.seqLimit = new.seqLimit ∧ s.keeper k = kd then s
  else (s.setFld (R.kvpSStatus kd k) F.kvpSStatusReady 0).setKv k .reset

/-- Queue pairs whose owner changes are DISABLED; those of a removed stake too (Table 13-8, R348). -/
def State.turnQueues (s : State) (k : Nat) : State :=
  s.forAll (List.range 64) (fun s n =>
    let o := s.qpOwner n
    let s := s.showQueue n
    if s.qpOwner n ≠ o ∨ (o = k ∧ ¬ s.enabled k) then s.qpReset n else s)

/-- The commit point (Table 1-8 steps 6 and 7). -/
def State.partApply (s : State) : State :=
  let k := s.partStake
  let old := s.stake k
  let new := s.newStake k
  let kd := s.keeper k
  let dig := sha384 (toBytes 48 s.weave.digest.toNat ++ toBytes 48 s.weave.partDig.toNat)
  let ended := old.enable && !(sameJournal old new)
  let last := s.fld (R.psqJrnlNext k) F.psqJrnlNextNext - 1
  let s := if ended then s.endEpoch k 3 else s
  let s := (s.setFld R.wvPartResult F.wvPartResultEpochEnded (if ended then 1 else 0)).setFld R.wvPartResult F.wvPartResultLastSeq
    (if ended then last else 0)
  let s := (s.takeUnits old new).dropWays k (waySlices ((List.range 5).map (fun i => bitsOff (old.ways.getD i 0) (new.ways.getD i 0))))
  let s := (s.extend 2 s.weave.partDig).showDigest dig
  let s := { s with weave := { s.weave with cur := s.weave.part } }
  let s := if sameStack old new && new.enable then s else s.asuClear k
  let s := (s.keepPool k kd old new).resetRegs [R.psqFtSubst k 0, R.psqFtSubst k 1]
  let s := (s.turnQueues k).showStake k
  let s := s.showUnits (old.eng ||| new.eng) (old.pvu ||| new.pvu)
  let s := s.forAll (List.range 68) State.turnIsland
  let s := if new.enable then (if old.enable then s else s.setPst k stIdle)
    else ({ (s.psqClear k).setPst k stUnformed with binds := s.binds.filter (fun b => b.stake != k) } : State)
  let s := if new.enable && !(sameJournal old new) then s.openEpoch k else s
  let s := (s.setFld (R.psqStatus k) F.psqStatusStopQuiesce 0).autoResume k
  let s := ((s.setFld R.wvGen F.wvGenGen (s.fld R.wvGen F.wvGenGen + 1)).partEnd 1).setFld R.wvStatus F.wvStatusState 1
  s.stakeEvent k F.hifSEvtReweave

/-- PARTIAL_COMMIT: the commit point, once quiescence is complete and SUPPLY_WARN_N is deasserted; a new record that names a failed
unit is abandoned (Table 1-9). -/
def State.partCommit (s : State) : State :=
  let k := s.partStake
  let new := s.newStake k
  if s.weave.phase ≠ 5 then s
  else if new.eng &&& s.failEng ≠ 0 ∨ new.pvu &&& s.failPvu ≠ 0 ∨ new.tc &&& s.failTc ≠ 0 ∨ new.ch &&& s.failCh ≠ 0 then
    s.partAbandon 9
  else if s.lk.warnLow ∨ !(s.quiet k) then s
  else s.partApply

/-- QUIESCE_TIMEOUT (R30). -/
def State.partTimeout (s : State) : State := if s.weave.phase = 5 then s.partAbandon 0x0D else s

/-! ### meanings -/

/-- WEAVE_BOOT_APPLY. -/
def execWeaveBootApply (sigA sigB : Bool) (s : State) : Host.Outcome State Fault Refusal :=
  .next (s.weaveBoot sigA sigB).syncFault
/-- WV_CMD_APPLY_PARTIAL. -/
def execWvCmdApplyPartial (m : Master) (rivals : List Master) (k : Fin 16) (sigOk : Bool) (s : State) : Host.Outcome State Fault Refusal :=
  .next (s.command m rivals R.wvCmd (fun s => s.partStart k sigOk))
/-- PARTIAL_QUIESCE_BEGIN. -/
def execPartialQuiesceBegin (s : State) : Host.Outcome State Fault Refusal := .next s.partQuiesce
/-- PARTIAL_COMMIT. -/
def execPartialCommit (s : State) : Host.Outcome State Fault Refusal := .next s.partCommit
/-- QUIESCE_TIMEOUT. -/
def execQuiesceTimeout (s : State) : Host.Outcome State Fault Refusal := .next s.partTimeout

end Sys2Proof.Machine
end

