-- ==== Sys2Proof/Machine/Boot.lean ====
section
/-! DEFINITION. What the SEC runs and measures as the module comes up: SEC and SCX firmware, boot measurements, sealed secrets
(R376-R379, R385, R387). -/

namespace Sys2Proof.Machine

/-! ### firmware (R376, R377) -/

/-- LOAD and SECRET_ADDR of an SCX firmware image. -/
def imgLoad (b : List Byte) : Nat := numAt b 0x58 8
def imgSecretAddr (b : List Byte) : Nat := numAt b 0x60 8

/-- The code of a firmware image. -/
def imgCode (b : List Byte) : List Byte :=
  match imgDir b with
  | e :: _ => slice b e.off e.len
  | [] => []

/-- LOAD and SECRET_ADDR lie where R376 puts them. -/
def State.scxPlaced (s : State) (b : List Byte) : Bool :=
  let a := imgLoad b
  let c := imgSecretAddr b
  decide (a % 4096 = 0) && s.inShared a (imgCode b).length && (c == 0 || (decide (c % 0x40000 = 0) && s.inShared c 0x40000))

/-- The reserved bits and bytes of a firmware image's header and directory are zero (R9, R12); bytes 0x58 to 0x67 are R376's. -/
def firmZeros (b : List Byte) : Bool :=
  decide (numAt b 4 1 < 16) && zeros b 0x51 7 && zeros b 0x68 24 &&
    (imgDir b).all (fun e => decide (e.level < 16) && decide (e.flags < 2) && e.zero == 0)

/-- A firmware image passes: checks 1 to 5, the kind of its region (0, 1 SEC, 4, 5 SCX), TARGET and its one code section. -/
def State.firmOk (s : State) (b : List Byte) (region : Nat) (sigOk : Bool) : Bool :=
  let scx := decide (4 ≤ region)
  (checkImage s b none sigOk).isNone && firmZeros b && imgKind b == (if scx then 2 else 3) &&
    imgTarget b == 0xFF && ((imgDir b).map (fun e => e.ty)) == [1] && (!scx || s.scxPlaced b)

/-- The first of two regions that passes. -/
def State.firmware (s : State) (region : Nat) (sigA sigB : Bool) : Option (Nat × List Byte) :=
  let pick := fun (r : Nat) (ok : Bool) => match s.flashImage r with
    | some b => if s.firmOk b r ok then some (r, b) else none
    | none => none
  (pick region sigA).orElse (fun _ => pick (region + 1) sigB)

/-! ### the SEC comes up (R377, R378, R387) -/

/-- The digest that measurement 4 takes: OPTSEL code, GLB_ARCH_LEVEL, usable key digests, fused minimum. -/
def State.configDigest (s : State) : BitVec 384 :=
  sha384 (toBytes 1 (s.fld R.lkOpt F.lkOptCode) ++ toBytes 8 (s.reg R.glbArchLevel).toNat ++
    ((List.range 4).filter s.fuses.usable).flatMap (fun i => toBytes 48 (s.fuses.digest i).toNat) ++ toBytes 1 s.fuses.rollback)

/-- SEC_KEYS and SEC_STATE show the fuses, the flash marks and the policy. -/
def State.showSec (s : State) : State :=
  let s := ((s.setFld R.secKeys F.secKeysValid s.fuses.valid).setFld R.secKeys F.secKeysRevoked s.fuses.revoked).setFld R.secKeys
    F.secKeysMinimum s.fuses.rollback
  let b := fun (x : Bool) => if x then 1 else 0
  let s := (s.setFld R.secState F.secStatePolicy (b (s.flag R.lkOpt F.lkOptDebug && !Config.policyLock))).setFld R.secState
    F.secStateErasePending (b s.flash.erasePending)
  ((s.setFld R.secState F.secStateSecrets (b (s.flash.secrets != []))).setFld R.secState F.secStateOpenings s.fuses.openings).setFld
    R.secState F.secStateBusy (b (s.sec.busy != 0))

/-- Steps 5 and 6 of Table 16-5: the sealed store erased, an OPENINGS fuse blown, ERASE_PENDING clear. -/
def State.eraseStore (s : State) : State :=
  { s with flash := { s.flash with secrets := [], erasePending := false }
           fuses := { s.fuses with openings := if s.fuses.openings < 32 then s.fuses.openings + 1 else s.fuses.openings } }

/-- The release of MGT: the ROM completes a pending erasure, verifies and runs SEC firmware, and starts the measurements. -/
def State.secBoot (s : State) (sigA sigB : Bool) : State :=
  let s := (if s.flash.erasePending then s.eraseStore else s).extend 1 Config.romDigest
  let s := match s.firmware 0 sigA sigB with
    | some (r, b) =>
      let s := ((s.extend 1 (imgDigest b)).setFld R.secFw F.secFwVersion (imgVersion b)).setFld R.secFw F.secFwSlot r
      s.setFld R.secState F.secStateBoot 1
    | none => (s.setFld R.secState F.secStateBoot 2).weaveFailed
  let s := s.extend 4 s.configDigest
  { s.showSec with sec := { s.sec with aliasGen := s.sec.aliasGen + 1 } }

/-! ### server cores (R377, R385) -/

/-- The 256 KiB area of sealed secrets: 64 entries of 4 KiB. -/
def secretArea (l : KMap (List Byte)) : List Byte :=
  (List.range 64).flatMap (fun i =>
    let v := KMap.get l [] i
    slice (toBytes 4 v.length ++ v) 0 4096)

/-- SCX firmware verified and placed, and the secrets written, before SCX release. The first release after a
cold reset also measures it. -/
def State.scxBoot (s : State) (sigA sigB : Bool) : Option State :=
  match s.firmware 4 sigA sigB with
  | none => none
  | some (_, b) =>
    let s := s.wr (imgLoad b) (imgCode b)
    let c := imgSecretAddr b
    let s := if c = 0 then s else s.wr c (secretArea s.flash.secrets)
    let s := if s.flag R.lkSb F.lkSbReady then s else s.extend 3 (imgDigest b)
    some { s with sec := { s.sec with secretAddr := c, scxLoad := imgLoad b } }

end Sys2Proof.Machine
end

