-- ==== Sys2Proof/Machine/Lock.lean ====
section
/-! DEFINITION. Input, rails, the option and trim load, and the release of the domains (R349-R355, R359, R360, R366-R369, R403). -/

namespace Sys2Proof.Machine

/-! ### cold resets (R359, R360, Table 15-6) -/

/-- EPOCH and LAST of every stake written to the boot flash (R347). -/
def State.takeCapture (s : State) : State :=
  let l := (List.range 16).map (fun k =>
    (s.epochOf k, if s.flag (R.psqJrnlStatus k) F.psqJrnlStatusOpen then s.fld (R.psqJrnlNext k) F.psqJrnlNextNext - 1
      else s.fld (R.psqJrnlLast k) F.psqJrnlLastLast))
  { s with flash := { s.flash with capture := l, captureOk := true } }

/-- What a cold reset leaves: fuses and flash (a region whose programming it interrupts is invalid, R384), what the pins show, and what was
sent; everything else at its reset value, and memory undefined (R82, R344). -/
def State.coldState (s : State) (lk : Lk) : State :=
  { State.reset with
    pending := s.pending
    free := s.free + 1
    resp := s.resp
    out := s.out
    fuses := s.fuses
    flash := if s.sec.busy = 0x11 then { s.flash with invalid := insertNat s.sec.target s.flash.invalid } else s.flash
    undef := undefReset.map (fun r => (r.1, r.2.1, s.free))
    weave := { WeaveCtx.reset with stage := s.free }
    sec := { Sec.reset with nonces := s.sec.nonces, aliasGen := s.sec.aliasGen }
    lk := lk }

/-- The rails start again, where PWR_OK is high: V_IB is enabled; a low WRST_N holds the sequence before XF (R350, R403). -/
def State.startRails (s : State) : State :=
  if s.lk.pwrOk then s.modLk (fun l => { l with railsOn := 1, coldHold := l.wrstLow }) else s

/-- A cold reset with its cause. -/
def State.cold (s : State) (cause : Nat) (escalated : Bool) : State :=
  let lk := { Lk.reset with powered := s.lk.powered, pwrOk := s.lk.pwrOk, warnLow := s.lk.warnLow, wrstLow := s.lk.wrstLow }
  let t := ((s.coldState lk).setFld R.lkCause F.lkCauseLast cause).setFld R.lkCause F.lkCauseEscalated (if escalated then 1 else 0)
  (t.setFld R.lkStatus F.lkStatusWarn (if s.lk.warnLow then 1 else 0)).startRails

/-- POWER_ON: the Lockkeeper starts on V_AON; the pins read by their pull resistors (R349, R401). -/
def State.powerOn (s : State) : State :=
  if s.lk.powered then s else s.coldState { Lk.reset with powered := true }

/-- INPUT_LOSS: every state is lost. -/
def State.inputLoss (s : State) : State := s.coldState Lk.reset

/-- PWR_OK_RISE: a failed rail's report ends, and the rails start. -/
def State.pwrRise (s : State) : State :=
  if !s.lk.powered || s.lk.pwrOk then s
  else
    let s := (s.setFld R.lkStatus F.lkStatusPgFail 0).setFld R.lkRail F.lkRailFailRail 0
    (s.modLk (fun l => { l with pwrOk := true })).syncFault.startRails

/-- PWR_OK_FALL: a cold reset; the report of a failed rail stays until PWR_OK rises again (R350). -/
def State.pwrFall (s : State) : State :=
  if !s.lk.powered || !s.lk.pwrOk then s
  else
    let pg := s.fld R.lkStatus F.lkStatusPgFail
    let fr := s.fld R.lkRail F.lkRailFailRail
    let t := (s.modLk (fun l => { l with pwrOk := false })).cold 2 false
    ((t.setFld R.lkStatus F.lkStatusPgFail pg).setFld R.lkRail F.lkRailFailRail fr).syncFault

/-! ### rails (R350) -/

/-- The rails are being brought up. -/
def State.railing (s : State) : Bool :=
  s.lk.powered && s.lk.pwrOk && s.fld R.lkStatus F.lkStatusPhase == 0 && !(s.flag R.lkStatus F.lkStatusPgFail)

/-- RAIL_ENABLE: the next rail. -/
def State.railEnable (s : State) : State :=
  if s.railing ∧ 1 ≤ s.lk.railsOn ∧ s.lk.railsOn < 8 then s.modLk (fun l => { l with railsOn := l.railsOn + 1 }) else s

/-- RAIL_POWER_GOOD: the last one ends the RAILS domain's release. -/
def State.railGood (s : State) (r : Nat) : State :=
  if s.railing ∧ r < s.lk.railsOn then
    let s := s.setFldBit R.lkRail F.lkRailPg r true
    if s.fld R.lkRail F.lkRailPg = 255 then s.setFld R.lkStatus F.lkStatusPhase 1 else s
  else s

/-- RAIL_PG_TIMEOUT: the earliest enabled rail that has not reported. -/
def State.railTimeout (s : State) : State :=
  match firstOf s.lk.railsOn (fun r => !(s.fldBit R.lkRail F.lkRailPg r)) with
  | none => s
  | some r =>
    if !s.railing then s
    else
      let s := (s.setFld R.lkRail F.lkRailFailRail (r + 1)).setFld R.lkStatus F.lkStatusPgFail 1
      (s.modLk (fun l => { l with railsOn := 0 })).syncFault

/-! ### the option and trim load (R366, R367) -/

/-- OPTSEL latched in LK_OPT (Table 15-8); a blown POLICY_LOCK makes the debug policy Locked (Table 16-1). DESIGN CHOICE (log 61), unsafe:
the codes 12 to 15, which Table 15-8 calls invalid, leave role, boot source, default width and debug policy 0. -/
def State.latchOpt (s : State) (c : Nat) : State :=
  let w : Word := (0 : Word).setFld F.lkOptCode c
  if 12 ≤ c then s.setReg R.lkOpt w
  else
    let b := fun (p : Bool) => if p then 1 else 0
    let w := ((w.setFld F.lkOptRole (b (decide (4 ≤ c)))).setFld F.lkOptBoot (b (decide (8 ≤ c)))).setFld F.lkOptWidth
      (if c / 2 % 2 = 0 then 4 else 3)
    s.setReg R.lkOpt (w.setFld F.lkOptDebug (if Config.policyLock then 0 else c % 2))

/-- The nominal clock of island `i` in MHz (Table 15-2), which trim sets (R353, R367). -/
def nominalMhz (i : Nat) : Nat :=
  if i < 44 then 2500 else if i < 73 then 2000 else if i < 81 then 3400 else if i = 81 then 1500 else if i = 82 then 1250
  else if i < 95 then 1600 else 800

/-- The registers that trims, fuses and options give their values. -/
def State.loadTrims (s : State) : State :=
  let s := s.forAll (List.range 96) (fun s i => s.setFld (R.lkIsl i) F.lkIslNominal (nominalMhz i))
  let s := (s.setReg R.secId Config.serial).setFld R.glbId F.glbIdStepping Config.stepping
  s.showSec.setFld R.lkStatus F.lkStatusLoadDone 1

/-- What OPTSEL gives the host interface and the ports, at a cold reset (R307, TWP_MODID). -/
def State.loadRole (s : State) : State :=
  let r := s.fld R.lkOpt F.lkOptRole
  (s.setFld R.hifCtl F.hifCtlLinkEn r).setReg R.twpModid Config.modid

/-- An invalid option: WV_STATUS.STATE reads FAILED and MOD_FAULT_N is asserted. -/
def State.optBad (s : State) : State := (s.setFld R.lkStatus F.lkStatusOptBad 1).weaveFailed.syncFault

/-- The load ends: every trim, then LOAD_DONE. -/
def State.loadEnd (s : State) : State :=
  s.loadTrims.setFld R.lkStatus F.lkStatusPhase (max 2 (s.fld R.lkStatus F.lkStatusPhase))

/-- OPTION_LOAD: at cold reset OPTSEL by 16 samples; unequal samples restart the load, and the ones after eight restarts set OPT_BAD (log 61). -/
def State.optionLoad (s : State) (samples : List Nat) (slotId : Nat) : State :=
  let ph := s.fld R.lkStatus F.lkStatusPhase
  if !s.lk.powered || !s.lk.pwrOk || s.flag R.lkStatus F.lkStatusLoadDone || s.flag R.lkStatus F.lkStatusWrst ||
      !(ph == 1 || (s.lk.warm && ph != 0)) then s
  else if !s.lk.optRead then s.loadEnd
  else
    let c := samples.headD 0 % 16
    let s := s.modLk (fun l => { l with slotId := slotId % 16 })
    if samples.all (fun x => decide (x % 16 = c)) then
      let s := ((s.latchOpt c).modLk (fun l => { l with optRead := false })).loadRole
      (if 12 ≤ c then s.optBad else s).loadEnd
    else
      if s.lk.optTries < 8 then s.modLk (fun l => { l with optTries := l.optTries + 1 })
      else (s.modLk (fun l => { l with optRead := false })).optBad.loadEnd

/-! ### domains (R355, R368) -/

/-- ISLAND_SETTLED. -/
def State.islandSettled (s : State) (i : Nat) : State :=
  if s.fld (R.lkIsl i) F.lkIslState = 1 then s.setFld (R.lkIsl i) F.lkIslState 2 else s

/-- HIF_STATUS and HIF_WIN as the XF domain comes up (R307, R314). -/
def State.hifUp (s : State) : State :=
  let s := (s.setFld R.hifStatus F.hifStatusRole (s.fld R.lkOpt F.lkOptRole)).setFld R.hifWin F.hifWinEn (s.fld R.lkOpt F.lkOptRole)
  if s.fld R.lkOpt F.lkOptBoot = 0 then s
  else s.setFld R.hifStatus F.hifStatusBoot (if s.fld R.wvStatus F.wvStatusState = 0 then 1 else 3)

/-- Registers of a PVU loaded from its backing area (R114). -/
def State.reloadPvu (s : State) (v : Nat) : State :=
  let b := s.fld (R.vecPvuBack v) F.vecPvuBackBase * 0x8000
  let regs := (List.range 32).foldl (fun (m : KMap (List Nat)) r =>
    KMap.set m zero256 r ((List.range 256).map (fun i => s.num (b + 1024 * r + 4 * i) 4))) []
  s.setPv v { s.pv v with regs := regs }

/-- A stake that ran when a warm reset began and has no record to replay resumes (Table 14-4 step 5). -/
def State.resumeIdle (s : State) (k : Nat) : State :=
  if s.lk.resume.testBit k && !(s.replay.testBit k) then
    let s := s.noResume k
    if s.pst k = stStopped ∧ !(s.stopCause k) then s.psqResume k 0 State.asuRebuild else s
  else s

/-- The UNITS domain released again with the active weave (R26): PVU registers and threads come back from memory (R114, Table 10-3). -/
def State.unitsAgain (s : State) : State :=
  let s := s.releaseUnits.forAll (List.range 64) State.showQueue
  let s := s.forAll (List.range 8) (fun s v => if (s.pvuOwner v).isSome && !(s.failPvu.testBit v) then s.reloadPvu v else s)
  let ts := (s.thread.filter (fun p => p.2.back)).map (fun p => p.1)
  let s := s.forAll ts (fun s t => s.restart t (s.thr t).host)
  (s.forAll (List.range 16) State.resumeIdle).holdUnits

/-- The conditions of the next domain (Table 15-9, R366, R403). -/
def State.mayRelease (s : State) (n : Nat) : Bool :=
  s.lk.powered && s.lk.pwrOk && s.flag R.lkStatus F.lkStatusLoadDone && !(s.flag R.lkStatus F.lkStatusWrst) && decide (3 ≤ n) && decide (n ≤ 9) &&
    (n == 3 || (!s.lk.coldHold && !(s.flag R.lkStatus F.lkStatusOptBad) && !(s.lk.warm && s.lk.wrstLow))) &&
    (n != 7 || ((List.range 8).all (fun h => s.fld (R.memStatus h) F.memStatusState == 1 || s.fld (R.memStatus h) F.memStatusState == 3) &&
      (s.fld R.lkOpt F.lkOptBoot == 0 || s.fld R.wvStatus F.wvStatusState != 0 || s.lk.bootGo))) &&
    (n != 8 || s.weave.active) &&
    (n != 9 || ((s.fld R.wvStatus F.wvStatusState == 1 || s.fld R.wvStatus F.wvStatusState == 2) && !s.lk.scxBad))

/-- The last domain is released: a warm reset ends and the sideband outputs follow again (R365). -/
def State.lastUp (s : State) : State :=
  ((s.modLk (fun l => { l with warm := false })).setFld R.lkSb F.lkSbThrot (if s.fld R.lkThrot F.lkThrotLevel = 0 then 0 else 1)).syncFault

/-- The SCX release (R377, R365). -/
def State.scxRelease (s : State) (sigA sigB : Bool) : State :=
  match s.scxBoot sigA sigB with
  | none => ((s.modLk (fun l => { l with scxBad := true })).setFld R.lkSb F.lkSbFault 1).lastUp
  | some s => (((s.setFld R.lkStatus F.lkStatusPhase 9).wakeIslands 9).setFld R.lkSb F.lkSbReady 1).lastUp

/-- DOMAIN_RELEASE: the next domain. `sigA` and `sigB` say whether the signatures of the two firmware regions that it reads verify. -/
def State.domainRelease (s : State) (sigA sigB : Bool) : State :=
  let n := s.fld R.lkStatus F.lkStatusPhase + 1
  if !(s.mayRelease n) then s
  else if n = 8 then s.unitsAgain
  else if n = 9 then s.scxRelease sigA sigB
  else
    let s := (s.setFld R.lkStatus F.lkStatusPhase n).wakeIslands n
    if n = 3 then (s.secBoot sigA sigB).syncFault
    else if n = 4 then (s.setFld R.lkSb F.lkSbCxlRst 0).hifUp
    else s

/-- HBM_STACK_READY: trained, or out of self-refresh. -/
def State.stackReady (s : State) (h : Nat) : State :=
  let st := s.fld (R.memStatus h) F.memStatusState
  if s.domainUp 5 ∧ (st = 0 ∨ st = 2) then s.setFld (R.memStatus h) F.memStatusState 1 else s

/-- A write of LK_FORCE (R369): domains of order 3 to 9 released at once, for the SEC with the debug gate open. -/
def State.forceWrite (s : State) (m : Master) (v : Nat) : State :=
  let s := s.setFld R.lkForce F.lkForceDomain (v % 1024)
  if m = .sec ∧ s.flag R.secState F.secStateGate ∧ s.flag R.lkStatus F.lkStatusLoadDone then
    (onesOf 10 v).foldl (fun s n =>
      if n < 3 then s else (s.modLk (fun l => { l with forced := setBit l.forced n true })).wakeIslands n) s
  else s

/-! ### meanings -/

/-- POWER_ON. -/
def execPowerOn (s : State) : Host.Outcome State Fault Refusal := .next s.powerOn
/-- INPUT_LOSS. -/
def execInputLoss (s : State) : Host.Outcome State Fault Refusal := .next s.inputLoss
/-- PWR_OK_RISE. -/
def execPwrOkRise (s : State) : Host.Outcome State Fault Refusal := .next s.pwrRise
/-- PWR_OK_FALL. -/
def execPwrOkFall (s : State) : Host.Outcome State Fault Refusal := .next s.pwrFall
/-- RAIL_ENABLE. -/
def execRailEnable (s : State) : Host.Outcome State Fault Refusal := .next s.railEnable
/-- RAIL_POWER_GOOD. -/
def execRailPowerGood (rail : Fin 8) (s : State) : Host.Outcome State Fault Refusal := .next (s.railGood rail)
/-- RAIL_PG_TIMEOUT. -/
def execRailPgTimeout (s : State) : Host.Outcome State Fault Refusal := .next s.railTimeout
/-- OPTION_LOAD. -/
def execOptionLoad (samples : List Nat) (slotId : Nat) (s : State) : Host.Outcome State Fault Refusal := .next (s.optionLoad samples slotId)
/-- DOMAIN_RELEASE. -/
def execDomainRelease (sigA sigB : Bool) (s : State) : Host.Outcome State Fault Refusal := .next (s.domainRelease sigA sigB)
/-- ISLAND_SETTLED. -/
def execIslandSettled (i : Fin 96) (s : State) : Host.Outcome State Fault Refusal := .next (s.islandSettled i)
/-- HBM_STACK_READY. -/
def execHbmStackReady (st : Fin 8) (s : State) : Host.Outcome State Fault Refusal := .next (s.stackReady st)
/-- LK_FORCE. -/
def execLkForce (m : Master) (domains : Nat) (s : State) : Host.Outcome State Fault Refusal :=
  .next (s.command m [] R.lkForce (fun s => s.forceWrite m domains))

end Sys2Proof.Machine
end

