-- ==== Sys2Proof/Machine/Reset.lean ====
section
/-! DEFINITION. Warm resets, the watchdog, security resets and stake resets (R337, R359-R365, R389; Tables 6-4, 7-7, 8-8, 10-3, 11-4,
12-7, 13-8, 14-4, 15-6). -/

namespace Sys2Proof.Machine

/-! ### warm resets -/

/-- A partial re-weave in progress goes no further (Table 1-9). -/
def State.partCut (s : State) : State :=
  if s.flag R.wvStatus F.wvStatusPartBusy then s.partAbandon 0x0E else s

/-- A stake stops for a warm reset as for PREEMPT; one that ran is to resume (Table 14-4 step 5). -/
def State.warmStop (s : State) (k : Nat) : State :=
  let ran := s.enabled k && (s.pst k == stRunning || s.pst k == stStopping) && !(s.stopCause k)
  if ran then (s.modLk (fun l => { l with resume := setBit l.resume k true })).beginStop k F.psqStatusStopPreempt else s

/-- A warm reset starts with its pre-phase (R361); one that is in it absorbs another (R362). A stake reset in progress is absorbed. -/
def State.warmBegin (s : State) (cause : Nat) : State :=
  if !s.lk.powered || !s.lk.pwrOk || s.flag R.lkStatus F.lkStatusWrst || s.flag R.lkStatus F.lkStatusPgFail then s
  else
    let s := ((s.setFld R.lkStatus F.lkStatusWrst 1).setFld R.lkStatus F.lkStatusStakeRst 0).setFld R.lkCause F.lkCauseLast cause
    let s := s.setFld R.lkCause F.lkCauseWarm ((s.fld R.lkCause F.lkCauseWarm + 1) % 2 ^ 32)
    (s.modLk (fun l => { l with warmCause := cause })).partCut.forAll (List.range 16) State.warmStop

/-- Every stake has stopped and nothing that the pre-phase waits for is left (R361). -/
def State.drained (s : State) : Bool :=
  (List.range 16).all (fun k => s.pst k != stRunning && s.pst k != stStopping && (s.q k).outst.isEmpty && s.xchEnded k) &&
    !(s.jobs.any (fun p => p.2.issued)) && s.homes.all (fun p => p.2.tracks.all (fun t => t.phase == 4)) &&
    s.quay.all (fun p => p.2.trig.isEmpty)

/-- A tile thread releases, stops, and is to restart (Table 10-3). -/
def State.parkThread (s : State) (t : Nat) : State :=
  let st := s.tState t
  if st = 1 ∨ st = 2 ∨ st = 3 ∨ st = 6 then
    let s := (s.retreat t).unwait t
    (s.setThr t { s.thr t with back := true }).setT t 0
  else s

/-- Caches written back, directories, watches and reservations cleared, and the server cores in reset; the atomic records stay
(Table 11-4, Table 15-6). -/
def State.clearHomes (s : State) : State :=
  { s with
    homes := s.homes.map (fun (p : Nat × Home) => (p.1, { p.2 with dir := [], tracks := [], retry := [], watches := [], late := [] }))
    copies := []
    resv := []
    wakes := []
    l1 := []
    il1 := []
    core := [] }

/-- The HIF after a reset: every queue pair DISABLED, every register but HIF_CTL at its reset value (Table 13-8). -/
def State.hifReset (s : State) : State :=
  let c := s.reg R.hifCtl
  let s := ({ s with hq := [], msix := [], pba := 0, poolK := 0, pci := .reset } : State).resetRange R.hifStatus (R.hifStatus + 0x100000)
  (s.setReg R.hifCtl c).forAll (List.range 64) State.showQueue

/-- Stakes whose journal has records to replay: those with an open epoch (R337). -/
def State.replaySet (s : State) : Nat :=
  (List.range 16).foldl (fun m k => setBit m k (s.enabled k && s.flag (R.psqJrnlStatus k) F.psqJrnlStatusOpen)) 0

/-- Islands of the domains that a warm reset resets: not the SEC's, and not the ports' (Table 15-6). -/
def State.islandsDown (s : State) : State :=
  s.forAll (List.range 95) (fun s i => if 83 ≤ i then s else s.setFld (R.lkIsl i) F.lkIslState 0)

/-- The PTB block after a reset (R393). -/
def State.ptbReset (s : State) : State :=
  ({ s with sec := { s.sec with ptbN := [], ptbMarks := [] } } : State).resetRange R.ptbCtl (R.ptbCtl + 0x10000)

/-- What a warm reset does to the units: stopped threads, caches, stacks in self-refresh, ASU pools, staged slices and mirrors. -/
def State.warmUnits (s : State) : State :=
  let s := (s.forAll (s.thread.map (fun p => p.1)) State.parkThread).clearHomes
  let s := s.forAll (List.range 16) State.asuFlush
  let s := s.forAll (List.range 16) (fun s k =>
    if s.lk.resume.testBit k then s.setFld (R.psqStatus k) F.psqStatusStopPreempt 0 else s)
  s.forAll (List.range 8) (fun s h => if s.fld (R.memStatus h) F.memStatusState = 1 then s.setFld (R.memStatus h) F.memStatusState 2 else s)

/-- WARM_PREPHASE_DONE: the domains that a warm reset does not keep are reset (Table 15-6). -/
def State.warmDone (s : State) : State :=
  if !(s.flag R.lkStatus F.lkStatusWrst) || !s.drained then s
  else
    let m := s.replaySet
    let s := s.warmUnits.hifReset.ptbReset.islandsDown
    let s := (s.setFld R.lkWdog F.lkWdogEn 0).setFld R.lkStatus F.lkStatusLoadDone 0
    let s := (s.setFld R.lkStatus F.lkStatusPhase (min 3 (s.fld R.lkStatus F.lkStatusPhase))).setFld R.lkStatus F.lkStatusWrst 0
    { s with
      replay := m
      lk := { s.lk with warm := true, forced := 0, unitsUp := false, bootGo := false, scxBad := false } }

/-- WARM_PREPHASE_TIMEOUT: a cold reset instead, after the capture; LAST keeps the warm cause. -/
def State.warmTimeout (s : State) : State :=
  if s.flag R.lkStatus F.lkStatusWrst then s.takeCapture.cold s.lk.warmCause true else s

/-- WRST_N_ASSERT. -/
def State.wrstLow (s : State) : State :=
  if !s.lk.powered || s.lk.wrstLow then s else (s.modLk (fun l => { l with wrstLow := true })).warmBegin 3

/-- WRST_N_DEASSERT: the domains held in reset may be released. -/
def State.wrstHigh (s : State) : State :=
  if s.lk.wrstLow ∧ ¬ s.lk.coldHold then s.modLk (fun l => { l with wrstLow := false }) else s

/-- WRST_HOLD_RELEASE (R403). -/
def State.holdRelease (s : State) : State :=
  if s.lk.coldHold then s.modLk (fun l => { l with wrstLow := false, coldHold := false }) else s

/-- A hot reset or FLR reaches the Lockkeeper while the link is up (R307). -/
def State.linkReset (s : State) (cause : Nat) : State :=
  if s.flag R.hifStatus F.hifStatusLinkUp then s.warmBegin cause else s

/-! ### the watchdog (R364) -/

/-- PERIOD, where 0 acts as 1. -/
def State.wdogPeriod (s : State) : Nat := max 1 (s.fld R.lkWdog F.lkWdogPeriod)

/-- LEFT restored. -/
def State.wdogLoad (s : State) : State := s.setFld R.lkWdog F.lkWdogLeft s.wdogPeriod

/-- WATCHDOG_TICK. -/
def State.wdogTick (s : State) : State :=
  if s.flag R.lkWdog F.lkWdogEn then s.setFld R.lkWdog F.lkWdogLeft (s.fld R.lkWdog F.lkWdogLeft - 1) else s

/-- WATCHDOG_EXPIRY. -/
def State.wdogExpire (s : State) : State :=
  if s.flag R.lkWdog F.lkWdogEn ∧ s.fld R.lkWdog F.lkWdogLeft = 0 then s.warmBegin 6 else s

/-! ### security resets (R389, R347) -/

/-- SECURITY_RESET: the capture, then a cold reset. -/
def State.securityReset (s : State) : State := if s.domainUp 3 then s.takeCapture.cold 7 false else s

/-- JOURNAL_CAPTURE_DONE. -/
def State.captureDone (s : State) : State :=
  if s.sec.capturing then { s.takeCapture with sec := { s.sec with capturing := false, paused := false } } else s

/-! ### stake resets (R363) -/

/-- An instruction that a stake reset discards instead of completing (Table 8-8). -/
def Outst.discarded (o : Outst) : Bool := opcOf o.word == 0x30 || opcOf o.word == 0x31

/-- A quay unit without what it holds for a stake (Table 7-7). -/
def Quay.dropStake (c : Quay) (k : Nat) : Quay :=
  { c with
    resv := c.resv.filter (fun r => r.stake != k)
    waiting := c.waiting.filter (fun r => r.stake != k)
    staged := c.staged.filter (fun v => v.stake != k)
    mirror := c.mirror.filter (fun v => v.stake != k)
    trig := c.trig.filter (fun (t : Trig) => match t with
      | .fold j _ => j != k
      | .op j _ => j != k
      | _ => true) }

/-- The stake's jobs and exchange are discarded (Table 8-8). -/
def State.dropJobs (s : State) (k : Nat) : State :=
  let ids := (s.jobs.filter (fun p => p.2.stake == k)).map (fun p => p.1)
  ((s.forAll ids State.freeJob).setXc k .idle).setReg (R.rdxSXstat k) 0

/-- The stake's contexts in the shared ASU, KVP and quay units reset (R363 step 4). -/
def State.dropContexts (s : State) (k : Nat) : State :=
  let s := { s with
    quay := s.quay.map (fun (p : Nat × Quay) => (p.1, p.2.dropStake k))
    binds := s.binds.filter (fun b => b.stake != k) }
  let s := s.forAll (List.range 16) (fun s q => (s.resetRange (R.quySCntFold q k) (R.quySCntFold q k + 0x40)).syncQuay q)
  let s := s.forAll (List.range 4) (fun s d =>
    (s.resetRange (R.asuSStatus d k) (R.asuSStatus d k + 0x40)).resetRange (R.kvpSStatus d k) (R.kvpSStatus d k + 0x40))
  (s.asuClear k).setKv k .reset

/-- The stake's windows clear ENABLE (Table 12-7). -/
def State.dropWindows (s : State) (k : Nat) : State :=
  s.forAll (List.range 64) (fun s w =>
    if s.fld (R.twpWinCtl w) F.twpWinCtlStake = k then s.setFld (R.twpWinCtl w) F.twpWinCtlEnable 0 else s)

/-- The stake's engines, with their DVUs and scratchpads, and its PVUs reset (R82, R114, R363). -/
def State.resetUnits (s : State) (k : Nat) : State :=
  let r := s.stake k
  let s := s.forAll (onesOf 32 r.eng) (fun s e =>
    if s.failEng.testBit e then s else s.resetRange (R.mxeId e) (R.mxeId e + 0x10000))
  let s := { s with macs := (onesOf 32 r.eng).foldl (fun m e => KMap.erase m e) s.macs }
  let s := s.forAll (onesOf 8 r.pvu) (fun s v =>
    let s := s.setPv v .idle
    if s.failPvu.testBit v then s else s.resetRange (R.vecPvuId v) (R.vecPvuId v + 0x10000))
  (s.loseSpads r.eng).showUnits r.eng r.pvu

/-- Braced or at throttle level 3, a stake is released so (Table 15-11). -/
def State.holdStake (s : State) (k : Nat) : State :=
  let s := if s.lk.warnLow then s.setFld (R.psqStatus k) F.psqStatusHoldBrace 1 else s
  if s.fld R.lkThrot F.lkThrotLevel = 3 then s.setFld (R.psqStatus k) F.psqStatusHoldThrottle 1 else s

/-- Steps 3 to 6 of R363, once issued work has completed. -/
def State.stakeDone (s : State) (k : Nat) : State :=
  if !((s.q k).outst.all Outst.discarded) then s
  else
    let s := ((((s.dropJobs k).dropContexts k).idleThreads (s.stake k).tc).dropWindows k).dropWays k (waySlices (s.stake k).ways)
    let s := s.forAll (List.range 64) (fun s n => if s.qpOwner n = k then s.qpReset n else s)
    let s := (((s.resetUnits k).psqClear k).resetRegs ((List.range 16).map (R.psqToken k))).setPst k stIdle |>.showStake k
    let s := { s with replay := setBit s.replay k (s.flag (R.psqJrnlStatus k) F.psqJrnlStatusOpen) }
    (s.holdStake k).setFldBit R.lkStatus F.lkStatusStakeRst k false

/-- STAKE_RESET: issued work completes first; refused for a stake that is not enabled, absorbed by a warm reset. -/
def State.stakeReset (s : State) (k : Nat) : State :=
  if !(s.enabled k) || s.inStakeReset k || s.flag R.lkStatus F.lkStatusWrst then s
  else
    let s := s.setFldBit R.lkStatus F.lkStatusStakeRst k true
    if s.pst k = stRunning then s.beginStop k F.psqStatusStopPreempt
    else if s.pst k = stStopping then s
    else s.stakeDone k

/-- STOP_COMPLETE: a stop, or the end of a stake's issued work before its reset. -/
def State.stopEnd (s : State) (k : Nat) : State :=
  if s.inStakeReset k then (if s.pst k = stStopping then s.stakeDone k else s) else s.stopComplete k

/-! ### meanings -/

/-- WARM_PREPHASE_DONE. -/
def execWarmPrephaseDone (s : State) : Host.Outcome State Fault Refusal := .next s.warmDone
/-- WARM_PREPHASE_TIMEOUT. -/
def execWarmPrephaseTimeout (s : State) : Host.Outcome State Fault Refusal := .next s.warmTimeout
/-- WRST_N_ASSERT. -/
def execWrstNAssert (s : State) : Host.Outcome State Fault Refusal := .next s.wrstLow
/-- WRST_N_DEASSERT. -/
def execWrstNDeassert (s : State) : Host.Outcome State Fault Refusal := .next s.wrstHigh
/-- WRST_HOLD_RELEASE. -/
def execWrstHoldRelease (s : State) : Host.Outcome State Fault Refusal := .next s.holdRelease
/-- PCIE_HOT_RESET. -/
def execPcieHotReset (s : State) : Host.Outcome State Fault Refusal := .next (s.linkReset 4)
/-- FLR. -/
def execFlr (s : State) : Host.Outcome State Fault Refusal := .next (s.linkReset 5)
/-- WATCHDOG_TICK. -/
def execWatchdogTick (s : State) : Host.Outcome State Fault Refusal := .next s.wdogTick
/-- WATCHDOG_EXPIRY. -/
def execWatchdogExpiry (s : State) : Host.Outcome State Fault Refusal := .next s.wdogExpire
/-- LK_WDOG_KICK. -/
def execLkWdogKick (m : Master) (s : State) : Host.Outcome State Fault Refusal := .next (s.command m [] R.lkWdogKick State.wdogLoad)
/-- SECURITY_RESET. -/
def execSecurityReset (s : State) : Host.Outcome State Fault Refusal := .next s.securityReset
/-- JOURNAL_CAPTURE_DONE. -/
def execJournalCaptureDone (s : State) : Host.Outcome State Fault Refusal := .next s.captureDone
/-- STAKE_RESET. -/
def execStakeReset (m : Master) (rivals : List Master) (k : Fin 16) (s : State) : Host.Outcome State Fault Refusal :=
  .next (s.command m rivals R.lkCmd (fun s => s.stakeReset k))
/-- STOP_COMPLETE. -/
def execStopComplete (k : Fin 16) (s : State) : Host.Outcome State Fault Refusal := .next (s.stopEnd k)

end Sys2Proof.Machine
end

