-- ==== Sys2Proof/Machine/Brace.lean ====
section
/-! DEFINITION. Brace, throttle, sideband outputs, and the PCIe link (R307, R314, R356-R358, R365). -/

namespace Sys2Proof.Machine

/-! ### brace (Table 15-4, R358) -/

/-- A stake braces: its hold, the withdrawal, its commits and its threads (Tables 5-5 and 10-3, R347). -/
def State.braceStake (s : State) (k : Nat) : State :=
  if !(s.enabled k) || !(s.domainUp 8) then s
  else
    let s := s.setFld (R.psqStatus k) F.psqStatusHoldBrace 1
    let s := if s.flag (R.psqStatus k) F.psqStatusHoldSeal then s else s.withdraw k
    (s.setFld (R.psqJrnlStatus k) F.psqJrnlStatusClosed 1).braceThreads k true

/-- HIF_Q_STATUS.BRACED of the active queue pairs. -/
def State.markBraced (s : State) (v : Nat) : State :=
  s.forAll (List.range 64) (fun s n => if s.qState n = 0 then s else s.setFld (R.hifQStatus n) F.hifQStatusBraced v)

/-- SUPPLY_WARN_ASSERT: steps 1 to 3 of Table 15-4. -/
def State.warnOn (s : State) : State :=
  if !s.lk.powered || s.lk.warnLow then s
  else
    let s := (s.modLk (fun l => { l with warnLow := true })).setFld R.lkStatus F.lkStatusWarn 1
    let s := if s.domainUp 4 then (s.modEvent F.hifMEvtWarnOn).markBraced 1 else s
    let s := s.forAll (List.range 16) State.braceStake
    { s with
      sec := { s.sec with capturing := s.domainUp 3, paused := s.sec.busy != 0 }
      flash := { s.flash with captureOk := s.flash.captureOk && !(s.domainUp 3) } }

/-- BRACE_COMPLETE: step 4 of Table 15-4. -/
def State.braceDone (s : State) : State :=
  let ok := (List.range 16).all (fun k => !(s.enabled k) || (s.flag (R.psqStatus k) F.psqStatusHoldBrace &&
    s.flag (R.psqJrnlStatus k) F.psqJrnlStatusClosed && (s.q k).outst.all (fun o => !(o.issued && (o.isMx || o.isVx || o.isPv)))))
  if s.lk.warnLow && ok then s.setFld R.lkStatus F.lkStatusBraced 1 else s

/-- The hold of a brace ends for a stake. -/
def State.unbraceStake (s : State) (k : Nat) : State :=
  ((s.setFld (R.psqStatus k) F.psqStatusHoldBrace 0).setFld (R.psqJrnlStatus k) F.psqJrnlStatusClosed 0).braceThreads k false

/-- SUPPLY_WARN_DEASSERT (R358): recovery; a capture that no loss followed is void. -/
def State.warnOff (s : State) : State :=
  if !s.lk.warnLow then s
  else
    let s := ((s.modLk (fun l => { l with warnLow := false })).setFld R.lkStatus F.lkStatusWarn 0).setFld R.lkStatus F.lkStatusBraced 0
    let s := if s.domainUp 4 then (s.modEvent F.hifMEvtWarnOff).markBraced 0 else s
    let s := s.forAll (List.range 16) State.unbraceStake
    { s with
      sec := { s.sec with capturing := false, paused := false }
      flash := { s.flash with captureOk := s.flash.captureOk && !(s.domainUp 3) } }

/-! ### throttle (R356) -/

/-- The level that a junction temperature asks for. -/
def levelFor (t : Nat) : Nat := if 105 ≤ t then 3 else if 100 ≤ t then 2 else if 95 ≤ t then 1 else 0

/-- The effective level, its sources, MOD_THROT_N and the holds follow the requests. -/
def State.syncThrottle (s : State) : State :=
  let hbm := if s.lk.hbmHot = 0 then 0 else 2
  let sw := s.fld R.lkThrot F.lkThrotSw
  let lv := max s.lk.tjLevel (max hbm sw)
  let b := fun (x v : Nat) => if 0 < lv ∧ x = lv then v else 0
  let s := (s.setFld R.lkThrot F.lkThrotLevel lv).setFld R.lkThrot F.lkThrotSrc (b s.lk.tjLevel 1 + b hbm 2 + b sw 4)
  let s := if s.warming then s else s.setFld R.lkSb F.lkSbThrot (if lv = 0 then 0 else 1)
  s.forAll (List.range 16) (fun s k =>
    if s.enabled k && s.domainUp 8 then s.setFld (R.psqStatus k) F.psqStatusHoldThrottle (if lv = 3 then 1 else 0) else s)

/-- THROTTLE_CHANGE: the hottest A-die junction reads `tj` °C; a level holds until the temperature is 5 °C below its threshold. -/
def State.junction (s : State) (tj : Nat) : State :=
  if !s.lk.powered then s
  else
    let lv := max (levelFor tj) (min s.lk.tjLevel (levelFor (tj + 4)))
    ((s.setFld R.lkThrot F.lkThrotTj (min tj 255)).modLk (fun l => { l with tjLevel := lv })).syncThrottle

/-! ### the PCIe link (R307, R314) -/

/-- The link goes down. -/
def State.linkOff (s : State) : State :=
  let a := R.hifStatus
  (((s.setFld a F.hifStatusLinkUp 0).setFld a F.hifStatusWidth 0).setFld a F.hifStatusSpeed 0).setFld a F.hifStatusFlit 0

/-- PCIE_LINK_UP. -/
def State.linkOn (s : State) (width speed : Nat) (flit : Bool) : State :=
  let a := R.hifStatus
  if !(s.blockUp 4 81) || !(s.flag R.hifCtl F.hifCtlLinkEn) then s
  else (((s.setFld a F.hifStatusLinkUp 1).setFld a F.hifStatusWidth width).setFld a F.hifStatusSpeed speed).setFld a F.hifStatusFlit
    (if flit then 1 else 0)

/-- A write of HIF_CTL.LINK_EN: clearing it takes the link down at once. -/
def State.linkEnable (s : State) (b : Bool) : State :=
  let s := s.setFld R.hifCtl F.hifCtlLinkEn (if b then 1 else 0)
  if b then s else s.linkOff

/-- A write of GO with LEN (R314): dropped for a LEN out of range; it releases the SEC domain while BOOT reads WAITING. -/
def State.bootGo (s : State) (len : Nat) : State :=
  if len = 0 ∨ 0x100000 < len then s.answer .error
  else
    let s := s.setFld R.hifBoot F.hifBootLen len
    if s.fld R.hifStatus F.hifStatusBoot = 1 then (s.modLk (fun l => { l with bootGo := true })).setFld R.hifStatus F.hifStatusBoot 2 else s

/-! ### meanings -/

/-- SUPPLY_WARN_ASSERT. -/
def execSupplyWarnAssert (s : State) : Host.Outcome State Fault Refusal := .next s.warnOn
/-- BRACE_COMPLETE. -/
def execBraceComplete (s : State) : Host.Outcome State Fault Refusal := .next s.braceDone
/-- SUPPLY_WARN_DEASSERT. -/
def execSupplyWarnDeassert (s : State) : Host.Outcome State Fault Refusal := .next s.warnOff
/-- THROTTLE_CHANGE. -/
def execThrottleChange (tj : Nat) (s : State) : Host.Outcome State Fault Refusal := .next (s.junction tj)
/-- LK_THROT.SW. -/
def execLkThrotSwWrite (m : Master) (v : Nat) (s : State) : Host.Outcome State Fault Refusal :=
  .next (s.command m [] R.lkThrot (fun s => (s.setFld R.lkThrot F.lkThrotSw (v % 4)).syncThrottle))
/-- LK_SB.FAULT. -/
def execLkSbFaultWrite (m : Master) (b : Bool) (s : State) : Host.Outcome State Fault Refusal :=
  .next (s.command m [] R.lkSb (fun s => (s.setFld R.lkSb F.lkSbFault (if b then 1 else 0)).syncFault))
/-- PCIE_LINK_UP. -/
def execPcieLinkUp (width speed : Nat) (flit : Bool) (s : State) : Host.Outcome State Fault Refusal := .next (s.linkOn width speed flit)
/-- PCIE_LINK_DOWN. -/
def execPcieLinkDown (s : State) : Host.Outcome State Fault Refusal := .next s.linkOff
/-- HIF_CTL.LINK_EN. -/
def execHifCtlLinkEn (m : Master) (b : Bool) (s : State) : Host.Outcome State Fault Refusal :=
  .next (s.command m [] R.hifCtl (fun s => s.linkEnable b))
/-- HIF_BOOT.GO. -/
def execHifBootGo (m : Master) (rivals : List Master) (len : Nat) (s : State) : Host.Outcome State Fault Refusal :=
  .next (s.command m rivals R.hifBoot (fun s => s.bootGo (len % 2 ^ 21)))

end Sys2Proof.Machine
end

