-- ==== Sys2Proof/Machine/Faults.lean ====
section
/-! DEFINITION. Single-part faults: a unit marked failed, its work moved to a peer, and the record (R85, R114, R189, R250, R294, R299,
R338-R343). -/

namespace Sys2Proof.Machine

/-! ### the record (Table 14-6 step 6) -/

/-- PSQ_FT_REC0, PSQ_FT_REC1 and PSQ_FT_CAP of a stake, and HIF_S_EVT.FAULT_RECORD. `ns` is the interruption. -/
def State.recordFault (s : State) (k kind unit : Nat) (peer : Option Nat) (nopeer : Bool) (ns : Nat) : State :=
  let a := R.psqFtRec0 k
  let s := ((s.setFld a F.psqFtRec0Kind kind).setFld a F.psqFtRec0Unit unit).setFld a F.psqFtRec0Peer (peer.getD 0xFF)
  let s := (s.setFld a F.psqFtRec0Valid 1).setFld a F.psqFtRec0Nopeer (if nopeer then 1 else 0)
  let s := s.addSat a F.psqFtRec0Count 1
  let s := (s.setFld (R.psqFtRec1 k) F.psqFtRec1Interrupt (ns % 2 ^ 32)).setFld (R.psqFtRec1 k) F.psqFtRec1Step (s.fld (R.psqStep k) (0, 32))
  (s.showCap k).stakeEvent k F.hifSEvtFaultRecord

/-! ### instructions that move or hold (R340, R342, R343) -/

/-- An instruction as it is re-dispatched: nothing of the failed run; one that had issued counts as issued. -/
def Outst.again (o : Outst) (u : Nat) : Outst :=
  { o with
    unit := u
    rerun := o.issued || o.rerun
    issued := false
    acc := []
    accInt := false
    feed := []
    run := .start
    prog := 0 }

/-- `new` placed before the first instruction that meets `p`, or at the end. -/
def insertBefore (p : Outst → Bool) (new : List Outst) : List Outst → List Outst
  | [] => new
  | o :: t => if p o then new ++ o :: t else o :: insertBefore p new t

/-- Staged slices of instructions discarded unfolded (Table 7-7). -/
def Quay.dropSlices (c : Quay) (k : Nat) (l : List Nat) : Quay :=
  { c with
    staged := c.staged.filter (fun v => !(v.stake == k && l.contains v.seq))
    mirror := c.mirror.filter (fun v => !(v.stake == k && l.contains v.seq)) }

/-- Instructions that no unit can run count as not issued, and each stream of theirs holds with a fault (R342). Under SEAL, which
every outstanding instruction would hold, they are withdrawn at once (R133). -/
def State.holdWork (s : State) (k code unit : Nat) (p : Outst → Bool) : State :=
  let l := (s.q k).outst.filter p
  let s := s.setOutst k ((s.q k).outst.map (fun o => if p o then { o.again o.unit with rerun := false } else o))
  let s := s.forAll [0, 1, 2] (fun s x =>
    match minIndex (l.filter (fun o => o.strm == x)) with
    | none => s
    | some o => s.raiseFault k x o.index code unit false)
  if l ≠ [] ∧ s.pst k = stStopping then s.withdraw k
  else if s.flag (R.psqStatus k) F.psqStatusHoldSeal then s.withdrawSome k (fun o => p o && !o.issued)
  else s

/-! ### engines with their DVUs (R85, R341) -/

/-- The lowest-numbered working engine of the stake on the same die. -/
def State.engPeer (s : State) (k e : Nat) : Option Nat :=
  firstOf 32 (fun u => decide (u / 8 = e / 8) && (s.stake k).eng.testBit u && !(s.failEng.testBit u))

/-- The failed engine's outstanding instructions move to a peer, ahead of the peer's own unissued work. -/
def State.moveWork (s : State) (k e u : Nat) : State :=
  let on := fun (o : Outst) => (o.isMx || o.isVx) && o.unit == e
  let mine := (s.q k).outst.filter on
  let ids := mine.map (fun o => o.seq)
  let new := mine.map (fun o => o.again u)
  let l := insertBefore (fun o => o.isMx && o.unit == u && !o.issued) (new.filter Outst.isMx) ((s.q k).outst.filter (fun o => !(on o)))
  let l := insertBefore (fun o => o.isVx && o.unit == u && !o.issued) (new.filter Outst.isVx) l
  let s := s.setOutst k l
  let s := { s with quay := s.quay.map (fun (p : Nat × Quay) => (p.1, p.2.dropSlices k ids)) }
  let es := (List.range 32).filter (fun i => decide (i / 8 = e / 8) && s.engFor k i == e)
  let s := s.forAll es (fun s i => s.setFld (R.psqFtSubst k (i / 16)) (3 * (i % 16), 3) (u % 8))
  (s.syncMxe k u).syncDvu k u

/-- An engine and its DVU fail. -/
def State.failEngine (s : State) (e ns : Nat) : State :=
  if s.failEng.testBit e then s
  else
    let s := ({ s with failEng := setBit s.failEng e true } : State).setFld (R.mxeStatus e) F.mxeStatusState 4
    let s := (s.setFld (R.mxeStatus e) F.mxeStatusPrepared 0).setFld (R.vecDvuStatus e) F.vecDvuStatusState 3
    match s.engOwner e with
    | none => s
    | some k =>
      match s.engPeer k e with
      | some u => (s.moveWork k e u).recordFault k 1 e (some u) false ns
      | none => (s.holdWork k 0x30 e (fun o => (o.isMx || o.isVx) && o.unit == e)).recordFault k 1 e none true ns

/-! ### PVUs (R114) -/

/-- A PVU fails: another of the stake runs its operations, on registers loaded from the backing area. -/
def State.failPvuUnit (s : State) (v ns : Nat) : State :=
  if s.failPvu.testBit v then s
  else
    let s := ({ s with failPvu := setBit s.failPvu v true } : State).setFld (R.vecPvuStatus v) F.vecPvuStatusState 3
    match s.pvuOwner v with
    | none => s
    | some k =>
      match firstOf 8 (fun u => (s.stake k).pvu.testBit u && !(s.failPvu.testBit u)) with
      | some u => (s.reloadPvu v).recordFault k 2 v (some u) false ns
      | none => (s.holdWork k 0x30 v (fun o => o.isPv && o.unit == v)).recordFault k 2 v none true ns

/-! ### tile cores (R250) -/

/-- Threads of others that a core hosts. -/
def State.hosted (s : State) (c : Nat) : Nat := (s.thread.filter (fun p => decide (p.1 / 512 = c / 64) && p.2.host == c % 64 + 1)).length

/-- The lowest-numbered working core of the stake on the die with a free standby context. -/
def State.hostFor (s : State) (k c : Nat) : Option Nat :=
  firstOf 256 (fun u => decide (u / 64 = c / 64) && (s.stake k).tc.testBit u && !(s.failTc.testBit u) && decide (s.hosted u < 8))

/-- A thread of a failed core restarts in a standby context, or becomes FAULTED with CAUSE 0xFF (R342). -/
def State.rehome (s : State) (k c t : Nat) : State :=
  let st := s.tState t
  match s.hostFor k c with
  | some u =>
    let s := s.restart t (u % 64 + 1)
    if st = 3 then s.setFld (thrReg t) F.tcxTState 3 else s
  | none => (((s.unwait t).setThr t .idle).setT t 5).setFld (thrReg t) F.tcxTCause 0xFF

/-- A tile core fails: its L1 is lost, and its threads, and those that it hosted, move. -/
def State.failCore (s : State) (c ns : Nat) : State :=
  if s.failTc.testBit c then s
  else
    let s := ({ s with failTc := setBit s.failTc c true } : State).setL1 c [] |>.setIl1 c []
    match s.tcOwner c with
    | none => s
    | some k =>
      let ts := (List.range 512).filterMap (fun i =>
        let t := 512 * (c / 64) + i
        let st := s.tState t
        if s.runCore t = c ∧ (st = 1 ∨ st = 2 ∨ st = 3 ∨ st = 6) then some t else none)
      let peer := s.hostFor k c
      let s := ts.foldl (fun s t => s.rehome k c t) s
      let lost := ts.any (fun t => s.tState t == 5)
      s.recordFault k 3 c peer (lost || peer.isNone) ns

/-! ### quay units (R189) -/

/-- The transactions of atomics that a lost controller held end with error responses (R340, R370). -/
def State.failAtoms (s : State) (q : Nat) : State :=
  let l := (s.qu q).trig.filterMap (fun t => match t with
    | .atom f => some f
    | _ => none)
  let s := s.setQu q { s.qu q with trig := (s.qu q).trig.filter (fun t => match t with
    | .atom _ => false
    | _ => true) }
  l.foldl (fun s f =>
    let h := f.id % 20
    match (s.home h).tracker (f.id / 20) with
    | none => s
    | some t => (s.homeDone h t .error none).homeWake h) s

/-- What a controller without a working quay unit held goes with it. -/
def Quay.lost (c : Quay) : Quay := { Quay.empty with olds := c.olds }

/-- A QUPD, QCLR or QEMIT that names channels of a quay unit. -/
def State.namesQuay (s : State) (k q : Nat) (o : Outst) : Bool :=
  [0x28, 0x2A, 0x2B].contains (opcOf o.word) && (s.opUnits k o).any (fun u => u == q || u == (q ^^^ 1))

/-- Both quay units of a controller have failed: operations on its channels hold with QY_UNIT. -/
def State.loseQuay (s : State) (q : Nat) : State :=
  let s := s.forAll [q, q ^^^ 1] State.failAtoms
  let s := s.forAll (List.range 16) (fun s k =>
    let ids := ((s.q k).outst.filter (s.namesQuay k q)).map (fun o => o.seq)
    let s := { s with quay := s.quay.map (fun (p : Nat × Quay) => (p.1, { p.2 with
      trig := p.2.trig.filter (fun (t : Trig) => match t with
        | .op j n => !(j == k && ids.contains n)
        | _ => true) })) }
    s.holdWork k 0x58 q (s.namesQuay k q))
  (s.setQu q (s.qu q).lost).setQu (q ^^^ 1) (s.qu (q ^^^ 1)).lost

/-- The partner of a failed quay unit carries its work on from its own copies, and nothing is mirrored any longer (R189). -/
def State.coverQuay (s : State) (q : Nat) : State :=
  let p := q ^^^ 1
  let s := s.setQu q { s.qu q with
    staged := (s.qu p).mirror
    blocks := (s.qu p).blockMirror
    mirror := []
    blockMirror := [] }
  (s.setQu p { s.qu p with
    mirror := []
    blockMirror := [] }).setFld (R.quyStatus p) F.quyStatusState 2

/-- A quay unit fails: its partner covers. -/
def State.failQuayUnit (s : State) (q ns : Nat) : State :=
  if s.failQuay.testBit q then s
  else
    let p := q ^^^ 1
    let s := ({ s with failQuay := setBit s.failQuay q true } : State).setFld (R.quyStatus q) F.quyStatusState 3
    let both := s.failQuay.testBit p
    let s := if both then s.loseQuay q else s.coverQuay q
    match s.octOwner q with
    | none => s
    | some k => s.recordFault k 4 q (if both then none else some p) both ns

/-! ### Towpath lanes and ports (R294, R299) -/

/-- The stakes whose ring uses a port. -/
def State.portStakes (s : State) (p : Nat) : List Nat :=
  (List.range 16).filter (fun k => match s.groupRec k with
    | none => false
    | some g => match s.ringRec g.ring with
      | none => false
      | some r => r.egress.testBit p || r.ingress.testBit p)

/-- A lane fails: the port retrains at a narrower width. -/
def State.failLane (s : State) (p lane ns : Nat) : State :=
  let s := (s.setPt p { s.pt p with badLanes := setBit (s.pt p).badLanes lane true }).startRetrain p
  s.forAll (s.portStakes p) (fun s k => s.recordFault k 5 (8 * p + lane) none false ns)

/-- Another ACTIVE port that sends in a ring direction of port `p`. -/
def State.portPeer (s : State) (p : Nat) : Option Nat :=
  firstOf 12 (fun u => u != p && s.portState u == 2 && s.ringDirs.any (fun rd => (s.sendMask rd).testBit p && (s.sendMask rd).testBit u))

/-- A port fails: the remaining ports of its ring direction carry on. -/
def State.failPort (s : State) (p ns : Nat) : State :=
  let s := if s.portState p = 2 ∨ s.portState p = 3 then s.portDown p else s
  let u := s.portPeer p
  s.forAll (s.portStakes p) (fun s k => s.recordFault k 6 p u u.isNone ns)

/-! ### UNIT_FAILURE (R338) -/

/-- A unit fails, by KIND of PSQ_FT_REC0 and module number; `ns` is the time to step 5 of Table 14-6. -/
def State.unitFailure (s : State) (kind unit ns : Nat) : State :=
  if !(s.domainUp 8) then s
  else if kind = 1 ∧ unit < 32 then s.failEngine unit ns
  else if kind = 2 ∧ unit < 8 then s.failPvuUnit unit ns
  else if kind = 3 ∧ unit < 256 then s.failCore unit ns
  else if kind = 4 ∧ unit < 16 then s.failQuayUnit unit ns
  else if kind = 5 ∧ unit < 96 then s.failLane (unit / 8) (unit % 8) ns
  else if kind = 6 ∧ unit < 12 then s.failPort unit ns
  else s

/-- UNIT_FAILURE: a checker reports. -/
def execUnitFailure (kind unit ns : Nat) (s : State) : Host.Outcome State Fault Refusal := .next (s.unitFailure kind unit ns)
/-- UNIT_WATCHDOG_TIMEOUT: a unit does not answer its island's handshake. A lane or port has none. -/
def execUnitWatchdogTimeout (kind unit ns : Nat) (s : State) : Host.Outcome State Fault Refusal :=
  .next (if kind ≤ 4 then s.unitFailure kind unit ns else s)

end Sys2Proof.Machine
end

