-- ==== Sys2Proof/Machine/RegAccess.lean ====
section
/-! DEFINITION. Register space: what a read returns and clears, and what a write does at each register (R8-R10, R22, R257, R258,
R371-R373, and the register tables of every chapter). -/

namespace Sys2Proof.Machine

/-! ### reads -/

/-- The words that no command keeps up to date, as a read shows them: trackers and watches of a home, the stake of a tile thread's
core, the gate beside PTB_CTL.ARM (R391), and the present clock of a settled island, which is free (log 3). -/
def State.regView (s : State) (a : Nat) : Word × State :=
  let v := s.reg a
  match firstOf 20 (fun h => R.cohHStatus h == a) with
  | some h =>
    let m := s.home h
    (((v.setFld F.cohHStatusBusy m.tracks.length).setFld F.cohHStatusRsv (m.tracks.filter (·.rsvd)).length).setFld F.cohHStatusWatches
      m.watches.length, s)
  | none =>
    match firstOf 32 (fun e => R.vecDvuStatus e == a) with
    | some e => (s.dvuView e, s)
    | none =>
    if R.tcxT 0 0 ≤ a ∧ a < R.tcxT 3 512 ∧ (a - R.tcxT 0 0) % 0x400000 < 0x1000 then
      let t := 512 * ((a - R.tcxT 0 0) / 0x400000) + (a - R.tcxT 0 0) % 0x400000 / 8
      (v.setFld F.tcxTStake ((s.tStake t).getD 0), s)
    else if a = R.ptbCtl then (v.setFld F.ptbCtlHarmfulOk (s.fld R.secState F.secStateGate), s)
    else if R.lkIsl 0 ≤ a ∧ a < R.lkIsl 96 ∧ v.fld F.lkIslState = 2 then
      let (w, s) := s.draw
      (v.setFld F.lkIslFreq (w.toNat % 65536), s)
    else (v, s)

/-- The MSI-X table and its pending bits (HIF +0xC_0000 and +0xD_0000). -/
def msixTable : Nat := regBase + 0x4C0000
def msixPba : Nat := regBase + 0x4D0000
def isMsix (a : Nat) : Bool := decide (msixTable ≤ a) && decide (a < msixTable + 96 * 16)
def isPba (a : Nat) : Bool := decide (msixPba ≤ a) && decide (a < msixPba + 16)

/-- A window of a CXL device's own registers (CXT, offset 0x1_0000 + port * 0x1_0000). -/
def isCxlWindow (a : Nat) : Bool := decide (regBase + 0x710000 ≤ a) && decide (a < regBase + 0x750000)

/-- The stake window of a KVP that is not the stake's keeper. -/
def State.kvpAway (s : State) (a : Nat) : Bool :=
  let o := (a - R.kvpId 0) % 0x400000
  decide (R.kvpId 0 ≤ a) && decide (a < R.kvpId 4) && decide (0x100 ≤ o) && decide (o < 0x500) &&
    decide ((a - R.kvpId 0) / 0x400000 ≠ s.keeper ((o - 0x100) / 0x40))

/-- A read of a register: an error response at a closed wrapper; zero where no register is; else its value, with its RC fields
cleared. What a CXL device answers in its window is free (log 25). -/
def State.regRead (s : State) (a : Nat) : State :=
  if a % 8 ≠ 0 ∨ !(isReg a) ∨ !(s.wrapperOpen a) then s.answer .error
  else if isCxlWindow a then
    let (w, s) := s.draw
    s.answer (.value w.toNat)
  else if isMsix a then
    s.answer (.value (s.msixWord ((a - msixTable) / 4) + 2 ^ 32 * s.msixWord ((a - msixTable) / 4 + 1)))
  else if isPba a then s.answer (.value (bits s.pba (8 * (a - msixPba)) 64))
  else if s.kvpAway a then s.answer (.value 0)
  else
    match findReg a with
    | none => s.answer (.value 0)
    | some (w, _, _, _) =>
      let (v, s) := s.regView a
      (s.setReg a (afterRead w (s.reg a))).answer (.value (readValue w v).toNat)

/-! ### writes -/

/-- A plain write: RW bits take the value, RW1C bits clear, the rest stands (R10). -/
def State.plainWrite (s : State) (a : Nat) (v : Word) : State :=
  match findReg a with
  | none => s.answer .error
  | some (w, _, _, _) => s.setReg a (applyWrite w (s.reg a) v)

/-- A write that its block accepts only under a condition: else dropped with an error response. -/
def State.guarded (s : State) (ok : Bool) (t : State) : State := if ok then t else s.answer .error

/-- A register of a pass sequencer, at offset `o` of its block (R120, R127, R136, R137, R144). -/
def State.psqWrite (s : State) (k o a : Nat) (v : Word) : State :=
  let idle := s.pst k == stIdle
  let still := idle || s.pst k == stStopped
  let w := s.plainWrite a v
  if o = 0x10 then s.psqDo k (v.fld F.psqCmdCmd) (v.fld F.psqCmdSkip)
  else if o = 0x38 then s.extPost k v.toNat
  else if o = 0x18 ∨ o = 0x20 then s.guarded still w
  else if 0x100 ≤ o ∧ o < 0x1C0 then
    let f := (o - 0x100) % 0x40
    if f = 0 ∨ f = 8 then s.guarded still w
    else if f = 0x10 ∨ f = 0x18 then s.guarded idle w
    else if f = 0x20 then s.limitWrite k ((o - 0x100) / 0x40) v.toNat
    else w
  else if 0x300 ≤ o ∧ o < 0x318 then s.guarded idle w
  else if 0x200 ≤ o ∧ o < 0x280 then s.guarded still (w.ctxThrough k)
  else if 0x808 ≤ o ∧ o < 0x1000 then s.guarded still w
  else w

/-- A register of PVU `p`: enabling the assist ring counts its entries from 0 (R253). -/
def State.pvuWrite (s : State) (p o a : Nat) (v : Word) : State :=
  let w := s.plainWrite a v
  if o = 0x18 ∧ ¬ s.flag a F.vecPvuAqEnable ∧ w.flag a F.vecPvuAqEnable then
    (w.setPv p { w.pv p with head := 0, tail := 0 }).syncPvu p
  else w

/-- KVP_S_CMD (R228). -/
def State.kvDo (s : State) (k cmd : Nat) : State :=
  if cmd = 1 then s.kvInit k
  else if cmd = 2 then s.setFld (R.kvpSStatus (s.keeper k) k) F.kvpSStatusReady 0
  else s

/-- A register of the KVP of die `d` (09_attention, KVP registers): of its stakes' windows, geometry only while READY is 0, commands
only of a stake that is IDLE or STOPPED. -/
def State.kvpWrite (s : State) (d o a : Nat) (v : Word) : State :=
  let k := (o - 0x100) / 0x40
  let f := (o - 0x100) % 0x40
  if o < 0x100 ∨ 0x500 ≤ o then s.plainWrite a v
  else if !(s.enabled k) || s.kvpAway a then s.answer .error
  else if f = 0x28 then s.guarded (s.pst k == stIdle || s.pst k == stStopped) (s.kvDo k (v.fld F.kvpSCmdCmd))
  else if f = 8 then s.guarded (!(s.flag (R.kvpSStatus d k) F.kvpSStatusReady))
    ((s.plainWrite a v).setFld a F.kvpSGeomPsize4k (psizeOf (v.fld F.kvpSGeomRowb64 * 64) / 4096))
  else if f = 0x10 ∨ f = 0x18 ∨ f = 0x20 then s.guarded (!(s.flag (R.kvpSStatus d k) F.kvpSStatusReady)) (s.plainWrite a v)
  else s.plainWrite a v

/-- A register of the TCX of die `d`. -/
def State.tcxWrite (s : State) (d o a : Nat) (v : Word) : State :=
  if o = 8 then
    let c := v.fld F.tcxLaunchCore
    let t := v.fld F.tcxLaunchThread
    if v.fld F.tcxLaunchCmd = 1 then s.launch d c t
    else if v.fld F.tcxLaunchCmd = 2 then s.haltCmd d c t
    else s
  else s.plainWrite a v

/-! ### CXL decoders (R267, R268) -/

/-- The range of decoder `n`. -/
def State.decRange (s : State) (n : Nat) : Nat × Nat :=
  let b := s.fld (R.cxtDecBase n) F.cxtDecBaseBase * 2 ^ 28
  (b, b + s.fld (R.cxtDecSize n) F.cxtDecSizeSize * 2 ^ 28)

/-- The ports that the used ways of decoder `n` name. -/
def State.decPorts (s : State) (n : Nat) : List Nat :=
  (List.range (2 ^ s.fld (R.cxtDecCtl n) F.cxtDecCtlWays)).map (fun w => (s.fld (R.cxtDecCtl n) F.cxtDecCtlTarget >>> (2 * w)) % 4)

/-- The conditions of R268. Reserved WAYS and GRAN values do not commit (log 26). -/
def State.decOk (s : State) (n : Nat) : Bool :=
  let ways := s.fld (R.cxtDecCtl n) F.cxtDecCtlWays
  let size := s.fld (R.cxtDecSize n) F.cxtDecSizeSize
  let r := s.decRange n
  let ps := s.decPorts n
  decide (ways < 3) && decide (s.fld (R.cxtDecCtl n) F.cxtDecCtlGran < 7) && size != 0 && size % 2 ^ ways == 0 &&
    decide (cxlBase ≤ r.1) && decide (r.2 ≤ cxlEnd) &&
    (List.range 8).all (fun m => m == n || !(s.flag (R.cxtDecCtl m) F.cxtDecCtlCommitted) || !(overlap r (s.decRange m))) &&
    decide ps.Nodup &&
    ps.all (fun p => s.flag (R.cxtPStatus p) F.cxtPStatusLinkUp && s.flag (R.cxtPStatus p) F.cxtPStatusDevice)

/-- COMMIT set: the decoder commits, or COMMIT_ERR is set and nothing else changes. A committed decoder accepts no such write. -/
def State.decCommit (s : State) (n : Nat) : State :=
  let a := R.cxtDecCtl n
  if s.flag a F.cxtDecCtlCommitted then s.answer .error
  else if s.decOk n then ((s.setFld a F.cxtDecCtlCommit 1).setFld a F.cxtDecCtlCommitted 1).setFld a F.cxtDecCtlCommitErr 0
  else s.setFld a F.cxtDecCtlCommitErr 1

/-- COMMIT cleared: an unlocked decoder is uncommitted. -/
def State.decUncommit (s : State) (n : Nat) : State :=
  let a := R.cxtDecCtl n
  if s.flag a F.cxtDecCtlLock && s.flag a F.cxtDecCtlCommitted then s.answer .error
  else (s.setFld a F.cxtDecCtlCommit 0).setFld a F.cxtDecCtlCommitted 0

/-- LOCK set, while COMMITTED is 0. -/
def State.decLock (s : State) (n : Nat) : State :=
  if s.flag (R.cxtDecCtl n) F.cxtDecCtlCommitted then s.answer .error else s.setFld (R.cxtDecCtl n) F.cxtDecCtlLock 1

/-- A write of CXT_DEC_CTL (R268). While COMMITTED is 1 it can only clear COMMIT. Else its fields take effect, but a COMMIT that fails
leaves everything but COMMIT_ERR as it was. -/
def State.decWrite (s : State) (n : Nat) (v : Word) : State :=
  let a := R.cxtDecCtl n
  if s.flag a F.cxtDecCtlCommitted then (if v.fld F.cxtDecCtlCommit = 1 then s.answer .error else s.decUncommit n)
  else
    let w := ((s.setFld a F.cxtDecCtlWays (v.fld F.cxtDecCtlWays)).setFld a F.cxtDecCtlGran (v.fld F.cxtDecCtlGran)).setFld a
      F.cxtDecCtlTarget (v.fld F.cxtDecCtlTarget)
    let w := if v.fld F.cxtDecCtlLock = 1 then w.decLock n else w
    if v.fld F.cxtDecCtlCommit = 0 then w.decUncommit n
    else if w.decOk n then w.decCommit n
    else s.setFld a F.cxtDecCtlCommitErr 1

/-- A register of the CXT block: a decoder's BASE and SIZE only while it is not committed. A device window's writes leave the module. -/
def State.cxtWrite (s : State) (o a : Nat) (v : Word) : State :=
  if isCxlWindow a then s
  else if 0x100 ≤ o ∧ o < 0x200 then
    let n := (o - 0x100) / 0x20
    if (o - 0x100) % 0x20 = 0x10 then s.decWrite n v
    else if s.flag (R.cxtDecCtl n) F.cxtDecCtlCommitted then s.answer .error
    else s.plainWrite a v
  else s.plainWrite a v

/-! ### other blocks -/

/-- TWP_P_CMD (R299). -/
def State.portDo (s : State) (p cmd : Nat) : State :=
  if cmd = 1 then s.cmdFast p
  else if cmd = 2 then s.cmdFull p
  else if cmd = 3 then (if s.portState p = 0 then s else s.portDown p)
  else s

/-- A register of the Towpath blocks: a window's BASE and SIZE only while it is disabled (R303). -/
def State.twpWrite (s : State) (p o a : Nat) (v : Word) : State :=
  if o = 8 then s.portDo p (v.fld F.twpPCmdCmd)
  else if p = 0 ∧ 0x8400 ≤ o ∧ o < 0x8C00 then
    let w := (o - 0x8400) / 0x20
    if (o - 0x8400) % 0x20 = 0x10 then s.winWrite w v
    else if s.flag (R.twpWinCtl w) F.twpWinCtlEnable then s.answer .error
    else s.plainWrite a v
  else s.plainWrite a v

/-- A write of the MSI-X table; a vector unmasked with its bit pending is signalled (R325, PCIe). -/
def State.msixWrite (s : State) (a : Nat) (v : Word) : State :=
  let i := (a - msixTable) / 4
  let put := fun (m : KMap Nat) (j x : Nat) => KMap.set m (msixDefault j) j x
  ({ s with msix := put (put s.msix i (v.toNat % 2 ^ 32)) (i + 1) (v.toNat / 2 ^ 32) } : State).sendPending

/-- HIF_Q_CTL (R315, R316, R320). -/
def State.qpDo (s : State) (n cmd : Nat) : State :=
  if cmd = 1 then s.qpCreate n
  else if cmd = 2 then s.qpDelete n
  else if cmd = 3 then s.qpRestart n
  else s

/-- A register of the host interface (13_host, HIF registers). -/
def State.hifWrite8 (s : State) (m : Master) (o a : Nat) (v : Word) : State :=
  if isMsix a then s.msixWrite a v
  else if isPba a then s
  else if o = 8 then s.linkEnable (v.fld F.hifCtlLinkEn == 1)
  else if o = 0x10 then (if v.fld F.hifBootGo = 1 then s.bootGo (v.fld F.hifBootLen) else s.setFld a F.hifBootLen (v.fld F.hifBootLen))
  else if o = 0x300 then
    (if v.fld F.hifPoolRingEnable = 1 ∧ ¬ s.flag a F.hifPoolRingEnable then s.ringEnable (v.fld F.hifPoolRingBase * 2 ^ 22)
     else s.plainWrite a v)
  else if o = 0x308 then s.poolDone (v.fld F.hifPoolDoneQp) (v.fld F.hifPoolDoneCid) (v.fld F.hifPoolDoneStatus)
  else if 0x1000 ≤ o ∧ o < 0x2000 then
    let n := (o - 0x1000) / 0x40
    let f := o % 0x40
    if f = 0 ∨ f = 8 then s.guarded (s.qState n == 0) (s.plainWrite a v)
    else if f = 0x18 then s.qpDo n (v.fld F.hifQCtlCmd)
    else if f = 0x30 then (s.plainWrite a v).irqCheck n
    else s.plainWrite a v
  else if 0x80000 ≤ o ∧ o < 0xC0000 then
    let n := (o - 0x80000) / 0x1000
    if o % 0x1000 = 0 then s.dbSq m n (v.fld F.hifDbSqTail) (v.fld F.hifDbSqGen)
    else if o % 0x1000 = 8 then s.dbCq m n (v.fld F.hifDbCqHead)
    else s.plainWrite a v
  else s.plainWrite a v

/-- LK_WDOG: enabling the watchdog starts LEFT at PERIOD (R364). -/
def State.wdogWrite (s : State) (v : Word) : State :=
  let w := s.plainWrite R.lkWdog v
  if s.flag R.lkWdog F.lkWdogEn ∨ ¬ w.flag R.lkWdog F.lkWdogEn then w else w.wdogLoad

/-- A register of the Lockkeeper (15_lockkeeper, LK registers). -/
def State.lkWrite (s : State) (m : Master) (o a : Nat) (v : Word) : State :=
  if o = 0x18 then (if v.fld F.lkCmdCmd = 1 then s.stakeReset (v.fld F.lkCmdStake) else s)
  else if o = 0x20 then s.wdogWrite v
  else if o = 0x28 then s.wdogLoad
  else if o = 0x30 then (s.plainWrite a v).syncThrottle
  else if o = 0x38 then s.forceWrite m (v.toNat % 1024)
  else if o = 0x48 then (s.plainWrite a v).syncFault
  else s.plainWrite a v

/-- WV_CMD (R27, R28): whether the image's signature verifies is free here (log 5). Any write while PART_BUSY is 1 is BUSY. -/
def State.wvWrite (s : State) (o a : Nat) (v : Word) : State :=
  if o = 0x20 then
    (if v.fld F.wvCmdCmd = 1 then
      let (w, s) := s.draw
      s.partStart (v.fld F.wvCmdStake) (w.getLsbD 0)
     else if s.flag R.wvStatus F.wvStatusPartBusy then s.setFld R.wvErr F.wvErrCode 0x0C
     else s)
  else s.plainWrite a v

/-- A perturbation register: entries accept writes only while ARM is 0 (R390). -/
def State.ptbWrite (s : State) (o a : Nat) (v : Word) : State :=
  if o = 0 then s.ptbArm v
  else if 0x100 ≤ o ∧ s.flag R.ptbCtl F.ptbCtlArm then s.answer .error
  else s.plainWrite a v

/-- What a write that its island takes does, by block (R257). -/
def State.regBody (s : State) (m : Master) (a : Nat) (v : Word) : State :=
  let o := a - regBase
  let b := o / 0x100000
  if b = 1 then s.wvWrite (o - 0x100000) a v
  else if b = 2 then s.lkWrite m (o - 0x200000) a v
  else if b = 4 then s.hifWrite8 m (o - 0x400000) a v
  else if b = 5 then s.twpWrite ((o - 0x500000) / 0x10000) (o % 0x10000) a v
  else if b = 7 then s.cxtWrite (o - 0x700000) a v
  else if 0x1000000 ≤ o ∧ o < 0x2000000 then
    let d := (o - 0x1000000) / 0x400000
    let x := (o - 0x1000000) % 0x400000 / 0x10000
    if x = 8 ∨ x = 9 then s.pvuWrite (2 * d + (x - 8)) (o % 0x10000) a v
    else if x = 11 then s.kvpWrite d (o % 0x10000) a v
    else if x = 12 then s.tcxWrite d (o % 0x10000) a v
    else s.plainWrite a v
  else if 0x2000000 ≤ o ∧ o < 0x3000000 then s.psqWrite ((o - 0x2000000) / 0x10000) (o % 0x10000) a v
  else if 0x4000000 ≤ o ∧ o < 0x4100000 then s.ptbWrite (o - 0x4000000) a v
  else s.plainWrite a v

/-- A register is there: in a table, in the MSI-X table or its pending bits, or in a device window. -/
def regHere (a : Nat) : Bool := (findReg a).isSome || isMsix a || isPba a || isCxlWindow a

/-- A write of 8 bytes to register space (R257, R258, R371-R373). -/
def State.regWrite (s : State) (m : Master) (a : Nat) (v : Word) : State :=
  if a % 8 ≠ 0 ∨ !(isReg a) ∨ !(regHere a) then s.dropWrite m else s.command m [] a (fun s => s.regBody m a v)

/-- An access to register space: only naturally aligned 8-byte accesses (R258). -/
def State.regAccess (s : State) (m : Master) (a : Nat) (x : Access) : State :=
  match x with
  | .read n => if n = 8 then s.regRead a else s.answer .error
  | .write d => if d.length = 8 then s.regWrite m a (BitVec.ofNat 64 (ofBytes d)) else s.dropWrite m
  | .atom _ _ _ _ => s.answer .error

/-! ### meanings -/

/-- REGISTER_WRITE (R372, R373). -/
def execRegisterWrite (m : Master) (addr : Nat) (v : Word) (s : State) : Host.Outcome State Fault Refusal := .next (s.regWrite m addr v)
/-- CXT_DEC_COMMIT. -/
def execCxtDecCommit (m : Master) (n : Fin 8) (s : State) : Host.Outcome State Fault Refusal :=
  .next (s.command m [] (R.cxtDecCtl n) (fun s => s.decCommit n))
/-- CXT_DEC_UNCOMMIT. -/
def execCxtDecUncommit (m : Master) (n : Fin 8) (s : State) : Host.Outcome State Fault Refusal :=
  .next (s.command m [] (R.cxtDecCtl n) (fun s => s.decUncommit n))
/-- CXT_DEC_LOCK. -/
def execCxtDecLock (m : Master) (n : Fin 8) (s : State) : Host.Outcome State Fault Refusal :=
  .next (s.command m [] (R.cxtDecCtl n) (fun s => s.decLock n))

end Sys2Proof.Machine
end

