-- ==== Sys2Proof/Machine/Mem.lean ====
section
/-! DEFINITION. Accesses to the physical map: HBM with its code and scrubber, the CXL range, scratchpads, registers, and the host's
BARs (R81, R82, R244, R256-R271, R307-R311, R314). -/

namespace Sys2Proof.Machine

/-! ### HBM (R263-R265) -/

/-- PATROL_SCRUB: the scrub read of one line; `raced`: a write to the line has reached the controller since; `last`: the pass ends. -/
def State.patrol (s : State) (h a ecc : Nat) (raced last : Bool) : State :=
  if s.fld (R.memStatus h) F.memStatusState ≠ 1 ∨ s.fld (R.memScrub h) F.memScrubPeriod = 0 ∨ !(isHbm a) ∨ octetOf a / 2 ≠ h then s
  else
    let s := if raced && ecc != 1 then s else s.eccRead a ecc
    if last then s.setFld (R.memScrub h) F.memScrubPasses (s.fld (R.memScrub h) F.memScrubPasses + 1) else s

/-- A stack is declared lost (R265): its channels are failed, and the epochs of the stakes with a channel of it end (R344). -/
def State.loseStack (s : State) (h cause : Nat) : State :=
  let a := R.memStatus h
  let s := ((s.setFld a F.memStatusState 3).setFld a F.memStatusLostCause cause).modEvent F.hifMEvtHbmLost
  let s := { s with failCh := s.failCh ||| ((2 ^ 16 - 1) <<< (16 * h)) }
  s.forAll (List.range 16) (fun s k => if s.enabled k && ((s.stake k).ch >>> (16 * h)) % 2 ^ 16 != 0 then s.endEpoch k 2 else s)

/-- HBM_STACK_LOST: by training while it trains, by parity or temperature at any time. -/
def State.stackFails (s : State) (h cause : Nat) : State :=
  let st := s.fld (R.memStatus h) F.memStatusState
  if !(s.domainUp 5) ∨ st = 3 ∨ cause = 0 ∨ 3 < cause ∨ (cause = 1 ∧ st ≠ 0) then s else s.loseStack h cause

/-- HBM_TEMP_CHANGE: a throttle request above 95 °C until 90 °C (R356), and at 105 °C the stack is lost. -/
def State.stackTemp (s : State) (h t : Nat) : State :=
  if !(s.domainUp 5) then s
  else
    let s := s.setFld (R.memStatus h) F.memStatusTemp (min t 255)
    let hot := decide (95 < t) || (s.lk.hbmHot.testBit h && decide (90 < t))
    let s := (s.modLk (fun l => { l with hbmHot := setBit l.hbmHot h hot })).syncThrottle
    if 105 ≤ t then s.stackFails h 3 else s

/-- CXL_LINK_DOWN (R269). -/
def State.cxlOff (s : State) (p : Nat) : State :=
  if s.flag (R.cxtPStatus p) F.cxtPStatusLinkUp then (s.setFld (R.cxtPStatus p) F.cxtPStatusLinkUp 0).modEvent F.hifMEvtCxlDown else s

/-- CXL_LINK_UP: x16 or x8, 256-byte flits at 64 GT/s and at no lower rate (R266). -/
def State.cxlOn (s : State) (p width speed : Nat) (flit device : Bool) : State :=
  let a := R.cxtPStatus p
  if !(s.blockUp 4 81) ∨ flit ≠ decide (speed = 6) ∨ ¬ (width = 16 ∨ width = 8) ∨ speed = 0 ∨ 6 < speed then s
  else ((((s.setFld a F.cxtPStatusLinkUp 1).setFld a F.cxtPStatusWidth width).setFld a F.cxtPStatusSpeed speed).setFld a
    F.cxtPStatusFlit256 (if flit then 1 else 0)).setFld a F.cxtPStatusDevice (if device then 1 else 0)

/-! ### accesses -/

/-- Bytes of an access. -/
def accSize : Access → Nat
  | .read n => n
  | .write d => d.length
  | .atom _ n _ _ => n

/-- The domains on an address's way are released (R370). -/
def State.memUp (s : State) (a : Nat) : Bool :=
  if isHbm a then s.domainUp 5 && s.domainUp 6 else if isCxl a then s.domainUp 4 && s.domainUp 6 else s.domainUp 8

/-- A naturally aligned access of 1 to 8 bytes (Table 10-8). -/
def natural (a n : Nat) : Bool := (n == 1 || n == 2 || n == 4 || n == 8) && a % n == 0

/-- A scratchpad access that has reached the scratchpad (R81, R82): a read takes every word of its 64-byte units; no AtomicOp acts
here (Table 10-8). -/
def State.spadDo (s : State) (a : Nat) (x : Access) (e : Errs) : State :=
  match x with
  | .read n =>
    let s := s.readErrs [fabricSpan a n] e
    if s.badFabric a n then s.answer .poison else s.answer (.data (s.bytes a n))
  | .write d => if s.asuPart a d.length then s.answer .error else (s.wr a d).answer .done
  | .atom _ _ _ _ => s.answer .error

/-- The requester may reach the scratchpad: units only that of their own stake, cores only with naturally aligned accesses. -/
def State.spadMay (s : State) (r : Requester) (a n : Nat) : Bool :=
  match r with
  | .unit k => s.engOwner (spadEng a) == some k.val
  | .core _ => natural a n
  | _ => true

/-- A fabric access to a scratchpad: an error at a reserved offset and at a closed wrapper (R81, R370). -/
def State.spadAccess (s : State) (r : Requester) (a : Nat) (x : Access) (e : Errs) : State :=
  if 0x1800000 < spadOff a + accSize x ∨ !(s.domainUp 8) ∨ !(s.unitOpen (s.engOwner (spadEng a))) ∨ !(s.spadMay r a (accSize x)) then s.answer .error
  else s.spadDo a x e

/-- A read of HBM or of the CXL range at the point of coherence. -/
def State.servedRead (s : State) (a n : Nat) (e : Errs) : State :=
  let s := s.readErrs [fabricSpan a n] e
  if s.err a n then s.answer .error
  else if s.unreadable a n then s.answer .poison
  else s.answer (.data (s.bytes a n))

/-- A write there; dropped with an error response at a lost stack or a port that is down (R265, R269). -/
def State.servedWrite (s : State) (a : Nat) (d : List Byte) : State :=
  if s.err a d.length ∨ s.stackLost a ∨ s.cxlCut a d.length then (s.noteCxl a d.length false).answer .error
  else (s.wr a d).answer .done

/-- Server core `c` holds copies of the lines that [a, a + n) meets. -/
def State.holdsAll (s : State) (c a n : Nat) : Bool := (linesOf a n).all (fun l => s.copies.any (fun p => p.1 == l && p.2.1 == c))

/-- A line that [a, a + n) meets is OPEN: no other request reaches it until the transaction closes (R279, R280). -/
def State.lineOpen (s : State) (a n : Nat) : Bool := (linesOf a n).any (fun l => (s.home (homeOf l)).isOpen l)

/-- An access of a fabric requester to memory outside the scratchpads. A core reads its own copies and writes those that it owns; else
the access waits while a line is OPEN. -/
def State.memServed (s : State) (r : Requester) (a : Nat) (x : Access) (e : Errs) : State :=
  let core := match r with
    | .core c => some c.val
    | _ => none
  match x with
  | .read n =>
    if (core.any (fun c => s.holdsAll c a n)) || !(s.lineOpen a n) then s.servedRead a n e else s
  | .write d =>
    match core.filter (fun c => s.owns c a d.length) with
    | some c => (s.ownWrite c a d).answer .done
    | none => if s.lineOpen a d.length then s else s.servedWrite a d
  | .atom _ _ _ _ => s.answer .error

/-- A load or store of a tile thread (R244, R248, R260): traps outside its stake's memory, uncached in scratchpads, else through its
L1; a load prefetches for its streams (R255). -/
def State.tileAccess (s : State) (t : Nat) (lead : List (Nat × Nat)) (a : Nat) (x : Access) (e : Errs) : State :=
  let n := accSize x
  let c := s.runCore t
  let miss := (linesOf a n).filter (fun l => (s.l1Line c l).have_ &&& partMask l a n != partMask l a n)
  match x with
  | .atom _ _ _ _ => s
  | .read n =>
    if !(isSpadStride a) && miss.any (fun l => s.lineOpen l 64) then s
    else s.asThread t lead 2 (fun s =>
      if !(s.tMay t a n 0) then (s.noteCxl a n false).trap t 5 a
      else if isSpadStride a then (if natural a n then s.spadDo a x e else s.trap t 4 a)
      else ((s.arrayErrs (miss.map (fun l => (l, l + 64))) e).cachedLoad c a n).prefetch t ((s.tStake t).getD 0) a)
  | .write d =>
    s.asThread t lead 2 (fun s =>
      if !(s.tMay t a n 1) then (s.noteCxl a n false).trap t 7 a
      else if isSpadStride a then
        (if !(natural a n) then s.trap t 6 a
         else if s.asuPart a n then s.trap t 7 a
         else s.spadDo a x e)
      else s.cachedStore c a d)

/-- An access of a master: registers, a scratchpad, memory, or an error at a hole or in reset. -/
def State.coreAccess (s : State) (m : Master) (r : Requester) (a : Nat) (x : Access) (e : Errs) : State :=
  if isReg a then s.regAccess m a x
  else if isSpadStride a then s.spadAccess r a x e
  else if !(inMap a (accSize x)) ∨ !(s.memUp a) then s.answer .error
  else s.memServed r a x e

/-- MEMORY_ACCESS: an access by physical address (R256, R259). -/
def State.memAccess (s : State) (r : Requester) (lead : List (Nat × Nat)) (a : Nat) (x : Access) (e : Errs) : State :=
  let n := accSize x
  if n = 0 then s
  else
    match r with
    | .tile t => s.tileAccess t lead a x e
    | .unit k =>
      if !(s.inStake k a n) ∨ !(s.memUp a) then s.answer .error
      else if isSpadStride a then s.spadAccess r a x e
      else s.memServed r a x e
    | .sec => s.coreAccess .sec r a x e
    | .host => s.coreAccess .host r a x e
    | .core c => (s.coreLead c lead).coreAccess (.core c) r a x e

/-! ### the host's BARs (R307-R311, R314) -/

/-- AER records what the function answered (R306). -/
def State.aer (s : State) (b : Nat) : State := { s with pci := { s.pci with aer := setBit s.pci.aer b true } }

/-- A host read or AtomicOp that an error refuses gets a Completer Abort; a posted write gets no answer (R307). -/
def State.hostAnswer (s : State) (x : Access) : State :=
  match x with
  | .write _ => s.answer .none
  | _ => if s.resp = .error then (s.aer 15).answer .abort else s

/-- The function claims no such request: Unsupported Request. -/
def State.hostUnsupported (s : State) (x : Access) : State :=
  match x with
  | .write _ => (s.aer 20).answer .none
  | _ => (s.aer 20).answer .unsupported

/-- The function's IDs (Table 13-1): vendor, device, revision and class code, from the lowest bits up. -/
def State.pciIds (s : State) : Nat := 0x1F7A + 2 ^ 16 * 0x0001 + 2 ^ 32 * s.fld R.glbId F.glbIdStepping + 2 ^ 40 * 0x120000

/-- The host's configuration requests (Table 13-1): 0 the power state, 1 MSI-X Enable (bit 0) and Function Mask (bit 1), 2 AER status
bits to clear, 3 a read of the IDs. -/
def State.config (s : State) (l : List (Nat × Nat)) : State :=
  if !(s.flag R.hifStatus F.hifStatusLinkUp) then s
  else (l.foldl (fun (s : State) p =>
    if p.1 = 0 then { s with pci := { s.pci with d3 := p.2 == 3 } }
    else if p.1 = 1 then { s with pci := { s.pci with msixOn := bit p.2 0, msixMask := bit p.2 1 } }
    else if p.1 = 2 then { s with pci := { s.pci with aer := s.pci.aer &&& (s.pci.aer ^^^ p.2) } }
    else if p.1 = 3 then s.answer (.value s.pciIds)
    else s) s).sendPending

/-- A read that nothing claims reads zero; a write there is dropped and counted (R308). -/
def State.unused (s : State) (x : Access) : State :=
  match x with
  | .read _ => s.answer (.value 0)
  | .write _ => s.hostRejected.answer .none
  | .atom _ _ _ _ => s.hostUnsupported x

/-- The host waits to stage an image (R314). -/
def State.hostWaits (s : State) : Bool := s.fld R.hifStatus F.hifStatusBoot == 1

/-- The register address of a BAR0 offset (Table 13-2). -/
def State.bar0Addr (s : State) (off : Nat) : Nat :=
  if off < 0x800000 then regBase + off else s.fld R.hifRwin F.hifRwinBase * 2 ^ 22 + (off - 0x800000)

/-- BAR0_ACCESS; an offset past the BAR makes no access (the configuration requests stand alone). In D3hot only configuration requests are served; while the host waits to stage an image, four registers answer. -/
def State.bar0 (s : State) (off : Nat) (x : Access) : State :=
  if !(s.flag R.hifStatus F.hifStatusLinkUp) ∨ 0x1000000 ≤ off then s
  else if s.pci.d3 then s.hostUnsupported x
  else if 0xC00000 ≤ off ∨ (s.hostWaits ∧ ¬ [R.glbId, R.hifStatus, R.hifBoot, R.hifSync].contains (s.bar0Addr off)) then s.unused x
  else (s.regAccess .host (s.bar0Addr off) x).hostAnswer x

/-- The staging buffer of the SEC (R314). -/
def State.stageAccess (s : State) (off : Nat) (x : Access) : State :=
  match x with
  | .read n => s.answer (.data ((List.range n).map (fun i =>
      (KMap.find s.weave.staging (off + i)).getD (Config.freeByte s.weave.stage (2 ^ 52 + (off + i))))))
  | .write d =>
    let m := (List.range d.length).foldl (fun (m : KMap Byte) i => KMap.put m (off + i) (d.getD i 0)) s.weave.staging
    ({ s with weave := { s.weave with staging := m } } : State).answer .none
  | .atom _ _ _ _ => s.hostUnsupported x

/-- A BAR2 access that gets an error response is counted. -/
def State.bar2Answer (s : State) (x : Access) : State :=
  (if s.resp = .error then s.addSat R.hifErr F.hifErrBar2 1 |>.answer .error else s).hostAnswer x

/-- The AtomicOps that the function completes: FetchAdd, Swap and CAS of 4 or 8 bytes (R306). -/
def pcieAtom (op : AtomOp) (size : Nat) : Bool := (op == .add || op == .swap || op == .cas) && (size == 4 || size == 8)

/-- A host access to the module's memory: an AtomicOp goes to the line's home (R280, R309). -/
def State.hostMem (s : State) (a : Nat) (x : Access) (e : Errs) : State :=
  match x with
  | .atom op n p q =>
    if (isHbm a || isCxl a) && atomOk op a n then s.homeReq (homeOf a) ⟨.atomic, 69, a, 0, 0, [], false, op, n, p, q, 0, 0⟩
    else s.answer .error
  | _ => s.memAccess .host [] a x e

/-- BAR2_ACCESS: through HIF_WIN, or (until an image is applied) to the staging buffer. -/
def State.bar2 (s : State) (off : Nat) (x : Access) (e : Errs) : State :=
  let n := accSize x
  let a := s.fld R.hifWin F.hifWinBase * 2 ^ 26 + off
  let other := match x with
    | .atom op n _ _ => !(pcieAtom op n)
    | _ => false
  if !(s.flag R.hifStatus F.hifStatusLinkUp) ∨ 0x4000000 < off + n ∨ n = 0 then s
  else if s.pci.d3 || other then s.hostUnsupported x
  else if s.hostWaits ∨ s.fld R.hifStatus F.hifStatusBoot = 2 then
    (if off + n ≤ 0x100000 then s.stageAccess off x else (s.answer .error).bar2Answer x)
  else if !(s.wrapperOpen R.hifWin) ∨ ¬ s.flag R.hifWin F.hifWinEn ∨ isReg a then (s.answer .error).bar2Answer x
  else (s.hostMem a x e).bar2Answer x

/-- HIF_SYNC_READ: every earlier write is already performed in this model, and the answer is zero (R311). -/
def State.syncRead (s : State) : State :=
  if s.flag R.hifStatus F.hifStatusLinkUp then s.answer (if s.wrapperOpen R.hifSync then .value 0 else .abort) else s

/-! ### meanings -/

/-- SCRATCHPAD_ACCESS. -/
def execScratchpadAccess (r : Requester) (lead : List (Nat × Nat)) (addr : Nat) (a : Access) (errs : Errs) (s : State) :
    Host.Outcome State Fault Refusal := .next (if isSpadStride addr then s.memAccess r lead addr a errs else s)
/-- MEMORY_ACCESS. -/
def execMemoryAccess (r : Requester) (lead : List (Nat × Nat)) (addr : Nat) (a : Access) (errs : Errs) (s : State) :
    Host.Outcome State Fault Refusal := .next (s.memAccess r lead addr a errs)
/-- PATROL_SCRUB. -/
def execPatrolScrub (st : Fin 8) (addr : Nat) (ecc : Nat) (raced : Bool) (last : Bool) (s : State) : Host.Outcome State Fault Refusal :=
  .next (s.patrol st addr ecc raced last)
/-- HBM_STACK_LOST. -/
def execHbmStackLost (st : Fin 8) (cause : Nat) (s : State) : Host.Outcome State Fault Refusal := .next (s.stackFails st cause)
/-- HBM_TEMP_CHANGE. -/
def execHbmTempChange (st : Fin 8) (temp : Nat) (s : State) : Host.Outcome State Fault Refusal := .next (s.stackTemp st temp)
/-- CXL_LINK_DOWN. -/
def execCxlLinkDown (p : Fin 4) (s : State) : Host.Outcome State Fault Refusal := .next (s.cxlOff p)
/-- CXL_LINK_UP. -/
def execCxlLinkUp (p : Fin 4) (width speed : Nat) (flit device : Bool) (s : State) : Host.Outcome State Fault Refusal :=
  .next (s.cxlOn p width speed flit device)
/-- BAR0_ACCESS. -/
def execBar0Access (cfg : List (Nat × Nat)) (off : Nat) (a : Access) (s : State) : Host.Outcome State Fault Refusal :=
  .next ((s.config cfg).bar0 off a)
/-- BAR2_ACCESS. -/
def execBar2Access (cfg : List (Nat × Nat)) (off : Nat) (a : Access) (errs : Errs) (s : State) : Host.Outcome State Fault Refusal :=
  .next ((s.config cfg).bar2 off a errs)
/-- HIF_SYNC_READ. -/
def execHifSyncRead (s : State) : Host.Outcome State Fault Refusal := .next s.syncRead

end Sys2Proof.Machine
end

