-- ==== Sys2Proof/Machine/Sec.lean ====
section
/-! DEFINITION. Management of the module: the command protocol, boot flash, keys, rollback, sealed secrets and the debug gate (R381-R389,
R393). -/

namespace Sys2Proof.Machine

/-! ### the protocol (R382-R384) -/

def stOk : Nat := 0
def stBusy : Nat := 1
def stBadCmd : Nat := 2
def stAuth : Nat := 3
def stPolicy : Nat := 4
def stState : Nat := 5
def stLevel : Nat := 6

/-- A request reaches the SEC: MGT is released, and a DOE request needs the link (R328). -/
def State.mgmtUp (s : State) (i3c : Bool) : Bool := s.domainUp 3 && (i3c || s.flag R.hifStatus F.hifStatusLinkUp)

/-- SEC_MGMT shows a command, its status and its transport. -/
def State.showMgmt (s : State) (cmd status : Nat) (i3c : Bool) : State :=
  ((s.setFld R.secMgmt F.secMgmtLastCmd cmd).setFld R.secMgmt F.secMgmtLastStatus status).setFld R.secMgmt F.secMgmtTransport
    (if i3c then 1 else 0)

/-- A response: CMD with bit 7 set, the TAG, STATUS and the result. -/
def State.respond (s : State) (q : Req) (cmd status : Nat) (b : List Byte) : State :=
  (s.showMgmt cmd status q.i3c).answer (.mgmt (cmd + 0x80) q.tag status b)

/-- The AUTH field is good: a usable slot, a signature that verifies, and an unexpired nonce (R383). -/
def State.authOk (s : State) (q : Req) : Bool :=
  match q.auth with
  | none => false
  | some a => decide (a.slot < 4) && s.fuses.usable a.slot && a.sigOk && s.sec.nonce

/-- The status of a refusal for which the spec names none: not OK and not BUSY, else free (log 28). -/
def State.openStatus (s : State) : Nat × State :=
  let (w, s) := s.draw
  (2 + w.toNat % 5, s)

/-- A refused command of that kind: no effect but its response. -/
def State.refuseCmd (s : State) (q : Req) (cmd : Nat) : State :=
  let (st, s) := s.openStatus
  s.respond q cmd st []

/-- Bytes that the spec leaves open: nonces, signatures, key shares (log 5). -/
def State.freeBytes (s : State) (n : Nat) : List Byte × State :=
  ((List.range n).map (fun i => Config.freeByte s.free (2 ^ 53 + i)), { s with free := s.free + 1 })

/-- The commands that the ROM answers when no SEC firmware verifies (R377). -/
def romCmd (cmd : Nat) : Bool := cmd == 1 || cmd == 2 || cmd == 3 || cmd == 0x10 || cmd == 0x11

/-- A command that needs no AUTH. -/
def State.openCmd (s : State) (q : Req) (cmd : Nat) (body : State → State) : State :=
  if !(s.mgmtUp q.i3c) then s
  else if q.level ≠ 1 then s.respond q cmd stLevel []
  else if q.rsvd ≠ 0 then s.refuseCmd q cmd
  else if s.sec.busy ≠ 0 ∧ cmd ≠ 1 ∧ cmd ≠ 3 then s.respond q cmd stState []
  else body s

/-- A privileged command: the nonce serves it whatever comes of it; `warn`: it returns STATE while SUPPLY_WARN_N is asserted (R393). -/
def State.authCmd (s : State) (q : Req) (cmd : Nat) (warn : Bool) (body : State → State) : State :=
  if !(s.mgmtUp q.i3c) ∨ (s.fld R.secState F.secStateBoot = 2 ∧ !(romCmd cmd)) then s
  else
    let ok := s.authOk q
    let s := { s with sec := { s.sec with nonce := false } }
    if q.level ≠ 1 then s.respond q cmd stLevel []
    else if q.rsvd ≠ 0 then s.refuseCmd q cmd
    else if s.sec.busy ≠ 0 then s.respond q cmd stState []
    else if !ok then s.respond q cmd stAuth []
    else if warn && s.lk.warnLow then s.respond q cmd stState []
    else body s

/-! ### status, nonces and the log -/

/-- GET_STATUS. -/
def State.getStatus (s : State) (q : Req) : State :=
  s.openCmd q 1 (fun s => s.respond q 1 stOk
    ([R.secState, R.secMgmt, R.lkStatus, R.lkThrot, R.wvStatus].flatMap (fun a => toBytes 8 (s.reg a).toNat)))

/-- GET_NONCE. -/
def State.getNonce (s : State) (q : Req) : State :=
  s.openCmd q 2 (fun s =>
    let (b, s) := s.freeBytes 32
    ({ s with sec := { s.sec with nonce := true, nonces := s.sec.nonces + 1 } } : State).respond q 2 stOk b)

/-- GET_LOG. -/
def State.getLog (s : State) (q : Req) (off : Nat) : State :=
  s.openCmd q 3 (fun s => s.respond q 3 stOk (((Config.logBytes s.sec.log).drop off).take 4096))

/-! ### flash (R376, R384) -/

/-- Sizes of the regions 0 to 5. -/
def regionSize (r : Nat) : Nat := if r < 2 then 0x400000 else if r < 4 then 0x100000 else 0x1000000

/-- FLASH_WRITE: into the update area. -/
def State.flashWrite (s : State) (q : Req) (off : Nat) (data : List Byte) : State :=
  s.authCmd q 0x10 false (fun s =>
    if 4096 < data.length ∨ 0x1000000 < off + data.length then s.refuseCmd q 0x10
    else
      let m := (List.range data.length).foldl (fun (m : KMap Byte) i => KMap.put m (off + i) (data.getD i 0)) s.flash.update
      ({ s with flash := { s.flash with update := m } } : State).respond q 0x10 stOk [])

/-- The first `n` bytes of the update area. -/
def State.updateArea (s : State) (n : Nat) : List Byte :=
  (List.range n).map (fun i => (KMap.find s.flash.update i).getD ((Config.factoryFlash 6).getD i 0))

/-- The update area verifies as an image for a region. -/
def State.updateOk (s : State) (region n : Nat) (sigOk : Bool) : Bool :=
  decide (region < 6) && decide (n ≤ regionSize region) &&
    (let b := s.updateArea n
     if region = 2 ∨ region = 3 then (checkWeave s b (some n) 0xFF sigOk).isNone else imgLen b == n && s.firmOk b region sigOk)

/-- FLASH_COMMIT: a failed verification leaves the region unchanged; else the region is programmed, and until it is done it is
invalid to a reset. -/
def State.flashCommit (s : State) (q : Req) (region len : Nat) (sigOk : Bool) : State :=
  s.authCmd q 0x11 true (fun s =>
    if s.updateOk region len sigOk then
      (({ s with sec := { s.sec with busy := 0x11, target := region, targetLen := len } } : State).showSec).respond q 0x11 stBusy []
    else s.refuseCmd q 0x11)

/-- A BUSY command ends: its final status. -/
def State.endBusy (s : State) : State :=
  ({ s with sec := { s.sec with busy := 0 } } : State).showSec.showMgmt s.sec.busy stOk (s.flag R.secMgmt F.secMgmtTransport)

/-- FLASH_COMMIT_DONE. -/
def State.flashDone (s : State) : State :=
  if s.sec.busy ≠ 0x11 ∨ s.sec.paused then s
  else
    let r := s.sec.target
    let b := s.updateArea s.sec.targetLen
    ({ s with flash := { s.flash with regions := KMap.put s.flash.regions r b, invalid := s.flash.invalid.filter (fun x => x != r) } } :
      State).endBusy

/-! ### keys and rollback (R381) -/

/-- The configuration changed: measurement 4 is extended again (R378). -/
def State.reconfig (s : State) : State := (s.extend 4 s.configDigest).showSec

/-- ENROLL_KEY: the lowest slot that is neither VALID nor REVOKED. -/
def State.enroll (s : State) (q : Req) (d : BitVec 384) : State :=
  s.authCmd q 0x12 true (fun s =>
    match firstOf 4 (fun i => !(s.fuses.valid.testBit i) && !(s.fuses.revoked.testBit i)) with
    | none => s.refuseCmd q 0x12
    | some i =>
      ({ s with fuses := { s.fuses with keys := setAt s.fuses.keys i (some d), valid := setBit s.fuses.valid i true } } :
        State).reconfig.respond q 0x12 stOk [])

/-- REVOKE_KEY: refused if no other slot would remain usable. -/
def State.revoke (s : State) (q : Req) (slot : Nat) : State :=
  s.authCmd q 0x13 true (fun s =>
    if 4 ≤ slot ∨ !((List.range 4).any (fun i => i != slot && s.fuses.usable i)) then s.refuseCmd q 0x13
    else ({ s with fuses := { s.fuses with revoked := setBit s.fuses.revoked slot true } } : State).reconfig.respond q 0x13 stOk [])

/-- ADVANCE_ROLLBACK: to at most 63 and at most the SEC_VERSION of the active full weave. -/
def State.advanceMin (s : State) (q : Req) (v : Nat) : State :=
  s.authCmd q 0x14 true (fun s =>
    if 63 < v ∨ v < s.fuses.rollback ∨ !s.weave.active ∨ s.fld R.wvVersion F.wvVersionSecVersion < v then s.refuseCmd q 0x14
    else ({ s with fuses := { s.fuses with rollback := v } } : State).reconfig.respond q 0x14 stOk [])

/-! ### secrets (R385) and the debug gate (R386, R387) -/

/-- SECRET_PUT: length 0 deletes. -/
def State.secretPut (s : State) (q : Req) (idx : Nat) (data : List Byte) : State :=
  s.authCmd q 0x15 false (fun s =>
    if 64 ≤ idx ∨ 1024 < data.length then s.refuseCmd q 0x15
    else ({ s with flash := { s.flash with secrets := KMap.set s.flash.secrets [] idx data } } : State).showSec.respond q 0x15 stOk [])

/-- Step 3 of Table 16-5: sessions end, nonces go, and the secrets of the server cores are zeroed. -/
def State.zeroSecrets (s : State) : State :=
  let s := { s with sec := { s.sec with nonce := false
                                        spdmDoe := { s.sec.spdmDoe with session := 0 }
                                        spdmI3c := { s.sec.spdmI3c with session := 0 } } }
  if s.sec.secretAddr = 0 then s else s.zero s.sec.secretAddr 0x40000

/-- DEBUG_OPEN: steps 1 to 4 of Table 16-5. -/
def State.debugOpen (s : State) (q : Req) : State :=
  s.authCmd q 0x16 true (fun s =>
    if ¬ s.flag R.secState F.secStatePolicy ∨ 32 ≤ s.fuses.openings then s.respond q 0x16 stPolicy []
    else
      let s := s.zeroSecrets
      ({ s with sec := { s.sec with busy := 0x16 }, flash := { s.flash with erasePending := true } } : State).showSec.respond q 0x16 stBusy [])

/-- DEBUG_OPEN_ERASE_DONE: steps 5 to 7. -/
def State.debugOpenDone (s : State) : State :=
  if s.sec.busy ≠ 0x16 ∨ s.sec.paused then s
  else
    let s := s.eraseStore.endBusy.setFld R.secState F.secStateGate 1
    { s with sec := { s.sec with aliasGen := s.sec.aliasGen + 1 } }

/-- MODULE_RESET: answered, then the security reset that it requests (R389). -/
def State.moduleReset (s : State) (q : Req) : State :=
  s.authCmd q 0x17 false (fun s => (s.respond q 0x17 stOk []).securityReset)

/-- NONCE_EXPIRY. -/
def State.nonceExpiry (s : State) : State := { s with sec := { s.sec with nonce := false } }

/-! ### meanings -/

/-- GET_STATUS. -/
def execGetStatus (q : Req) (s : State) : Host.Outcome State Fault Refusal := .next (s.getStatus q)
/-- GET_NONCE. -/
def execGetNonce (q : Req) (s : State) : Host.Outcome State Fault Refusal := .next (s.getNonce q)
/-- GET_LOG. -/
def execGetLog (q : Req) (off : Nat) (s : State) : Host.Outcome State Fault Refusal := .next (s.getLog q off)
/-- FLASH_WRITE. -/
def execFlashWrite (q : Req) (off : Nat) (data : List Byte) (s : State) : Host.Outcome State Fault Refusal := .next (s.flashWrite q off data)
/-- FLASH_COMMIT. -/
def execFlashCommit (q : Req) (region len : Nat) (sigOk : Bool) (s : State) : Host.Outcome State Fault Refusal :=
  .next (s.flashCommit q region len sigOk)
/-- FLASH_COMMIT_DONE. -/
def execFlashCommitDone (s : State) : Host.Outcome State Fault Refusal := .next s.flashDone
/-- ENROLL_KEY. -/
def execEnrollKey (q : Req) (digest : BitVec 384) (s : State) : Host.Outcome State Fault Refusal := .next (s.enroll q digest)
/-- REVOKE_KEY. -/
def execRevokeKey (q : Req) (slot : Nat) (s : State) : Host.Outcome State Fault Refusal := .next (s.revoke q slot)
/-- ADVANCE_ROLLBACK. -/
def execAdvanceRollback (q : Req) (v : Nat) (s : State) : Host.Outcome State Fault Refusal := .next (s.advanceMin q v)
/-- SECRET_PUT. -/
def execSecretPut (q : Req) (idx : Nat) (data : List Byte) (s : State) : Host.Outcome State Fault Refusal := .next (s.secretPut q idx data)
/-- DEBUG_OPEN. -/
def execDebugOpen (q : Req) (s : State) : Host.Outcome State Fault Refusal := .next (s.debugOpen q)
/-- DEBUG_OPEN_ERASE_DONE. -/
def execDebugOpenEraseDone (s : State) : Host.Outcome State Fault Refusal := .next s.debugOpenDone
/-- MODULE_RESET. -/
def execModuleReset (q : Req) (s : State) : Host.Outcome State Fault Refusal := .next (s.moduleReset q)
/-- NONCE_EXPIRY. -/
def execNonceExpiry (s : State) : Host.Outcome State Fault Refusal := .next s.nonceExpiry

end Sys2Proof.Machine
end

