-- ==== Sys2Proof/Machine/Spdm.lean ====
section
/-! DEFINITION. The SPDM responder on its two transports, and the DOE mailbox (R328, R377-R380). Message codes are those of SPDM 1.3
and of PCIe DOE (log 29). -/

namespace Sys2Proof.Machine

/-- The responder of a transport. -/
def State.sp (s : State) (i3c : Bool) : Spdm := if i3c then s.sec.spdmI3c else s.sec.spdmDoe

/-- The state with the responder of a transport. -/
def State.setSp (s : State) (i3c : Bool) (v : Spdm) : State :=
  { s with sec := if i3c then { s.sec with spdmI3c := v } else { s.sec with spdmDoe := v } }

/-- ERROR with a code. -/
def State.spErr (s : State) (code : Nat) : State := s.answer (.spdm 0x7F [BitVec.ofNat 8 code])

def spInvalid : Nat := 0x01
def spUnexpected : Nat := 0x04
def spDecrypt : Nat := 0x06
def spUnsupported : Nat := 0x07
def spSessions : Nat := 0x0A
def spVersion : Nat := 0x41

/-- A request that the responder takes: MGT is up; `phase` is the least phase of the connection that it needs. -/
def State.spReq (s : State) (i3c : Bool) (phase : Nat) (body : State → Spdm → State) : State :=
  if !(s.mgmtUp i3c) then s
  else if (s.sp i3c).phase < phase then s.spErr spUnexpected
  else body s (s.sp i3c)

/-- KEY_EXCHANGE and the session requests: the ROM alone does not support them (R377). -/
def State.spSess (s : State) (i3c : Bool) (body : State → Spdm → State) : State :=
  s.spReq i3c 0 (fun s c =>
    if s.fld R.secState F.secStateBoot = 2 then s.spErr spUnsupported
    else if c.phase < 3 then s.spErr spUnexpected
    else body s c)

/-- The certificate chain of slot 0: DeviceID's, then the Alias certificate (R379, R380). -/
def State.certChain (s : State) : List Byte :=
  Config.factoryFlash 7 ++ Config.aliasCert (s.sec.meas.getD 0 0) s.sec.aliasGen

/-- Its digest. -/
def State.certDigest (s : State) : List Byte := toBytes 48 (sha384 s.certChain).toNat

/-- Measurement 5, the debug-state word (Table 16-3). -/
def State.debugWord (s : State) : Nat :=
  let b := fun (x : Bool) => if x then 1 else 0
  b (s.flag R.secState F.secStateGate) + 2 * b (s.flag R.secState F.secStatePolicy) + 4 * b s.sec.armed + 8 * b s.sec.harm +
    65536 * s.fuses.openings

/-- Measurement `i`, 1 to 5. -/
def State.measBytes (s : State) (i : Nat) : List Byte :=
  if i = 5 then toBytes 8 s.debugWord else toBytes 48 (s.sec.meas.getD (i - 1) 0).toNat

/-- The measurements that an operation names: 0 how many there are, 1 to 5 one, 0xFF all. -/
def State.measFor (s : State) (idx : Nat) : Option (List Byte) :=
  if idx = 0 then some [5]
  else if idx = 0xFF then some ([1, 2, 3, 4, 5].flatMap s.measBytes)
  else if idx ≤ 5 then some (s.measBytes idx)
  else none

/-- A response that ends with a signature by the Alias key, which is free (log 5). -/
def State.spSigned (s : State) (code : Nat) (b : List Byte) : State :=
  let (g, s) := s.freeBytes 96
  s.answer (.spdm code (b ++ g))

/-! ### meanings -/

/-- GET_VERSION: the connection starts again; versions 1.2 and 1.3. -/
def execSpdmGetVersion (i3c : Bool) (s : State) : Host.Outcome State Fault Refusal :=
  .next (s.spReq i3c 0 (fun s c => (s.setSp i3c { c with phase := 1, version := 0, session := 0 }).answer (.spdm 0x04 [0x12, 0x13])))
/-- GET_CAPABILITIES. -/
def execSpdmGetCapabilities (i3c : Bool) (version : Nat) (s : State) : Host.Outcome State Fault Refusal :=
  .next (s.spReq i3c 1 (fun s c =>
    if version = 0x12 ∨ version = 0x13 then (s.setSp i3c { c with phase := max 2 c.phase, version := version }).answer (.spdm 0x61 [])
    else s.spErr spVersion))
/-- NEGOTIATE_ALGORITHMS: `algOk`: the requester offers a supported asymmetric algorithm. -/
def execSpdmNegotiateAlgorithms (i3c : Bool) (algOk : Bool) (s : State) : Host.Outcome State Fault Refusal :=
  .next (s.spReq i3c 2 (fun s c =>
    if algOk then (s.setSp i3c { c with phase := 3 }).answer (.spdm 0x63 []) else s.spErr spUnsupported))
/-- GET_DIGESTS. -/
def execSpdmGetDigests (i3c : Bool) (s : State) : Host.Outcome State Fault Refusal :=
  .next (s.spReq i3c 3 (fun s _ => s.answer (.spdm 0x01 s.certDigest)))
/-- The certificate bytes that one response holds: a DOE data object has at most 16 KiB, 16 of them headers (R328, log 60). -/
def certPart (i3c : Bool) (len : Nat) : Nat := if i3c then len else min len (0x4000 - 16)

/-- GET_CERTIFICATE: slot 0 only. -/
def execSpdmGetCertificate (i3c : Bool) (slot off len : Nat) (s : State) : Host.Outcome State Fault Refusal :=
  .next (s.spReq i3c 3 (fun s _ =>
    if slot ≠ 0 ∨ s.certChain.length < off then s.spErr spInvalid else s.answer (.spdm 0x02 ((s.certChain.drop off).take (certPart i3c len)))))
/-- CHALLENGE: slot 0 only. -/
def execSpdmChallenge (i3c : Bool) (slot : Nat) (nonce : List Byte) (s : State) : Host.Outcome State Fault Refusal :=
  .next (s.spReq i3c 3 (fun s _ => if slot ≠ 0 then s.spErr spInvalid else s.spSigned 0x03 (s.certDigest ++ nonce)))
/-- GET_MEASUREMENTS. -/
def execSpdmGetMeasurements (i3c : Bool) (idx : Nat) (sign : Bool) (s : State) : Host.Outcome State Fault Refusal :=
  .next (s.spReq i3c 3 (fun s _ =>
    match s.measFor idx with
    | none => s.spErr spInvalid
    | some b => if sign then s.spSigned 0x60 b else s.answer (.spdm 0x60 b)))
/-- KEY_EXCHANGE: one session of each transport at a time (log 29). -/
def execSpdmKeyExchange (i3c : Bool) (reqId : Nat) (s : State) : Host.Outcome State Fault Refusal :=
  .next (s.spSess i3c (fun s c =>
    if c.session ≠ 0 then s.spErr spSessions
    else (s.setSp i3c { c with session := 1, sessId := reqId, keyGen := 0 }).spSigned 0x64 (toBytes 2 reqId)))
/-- FINISH: a bad HMAC ends the handshake. -/
def execSpdmFinish (i3c : Bool) (hmacOk : Bool) (s : State) : Host.Outcome State Fault Refusal :=
  .next (s.spSess i3c (fun s c =>
    if c.session ≠ 1 then s.spErr spUnexpected
    else if hmacOk then (s.setSp i3c { c with session := 2 }).answer (.spdm 0x65 [])
    else (s.setSp i3c { c with session := 0 }).spErr spDecrypt))
/-- HEARTBEAT. -/
def execSpdmHeartbeat (i3c : Bool) (s : State) : Host.Outcome State Fault Refusal :=
  .next (s.spSess i3c (fun s c => if c.session ≠ 2 then s.spErr spUnexpected else s.answer (.spdm 0x68 [])))
/-- KEY_UPDATE: 1 this direction's key, 2 all keys, 3 verify. -/
def execSpdmKeyUpdate (i3c : Bool) (op : Nat) (s : State) : Host.Outcome State Fault Refusal :=
  .next (s.spSess i3c (fun s c =>
    if c.session ≠ 2 then s.spErr spUnexpected
    else if op = 1 ∨ op = 2 then (s.setSp i3c { c with keyGen := c.keyGen + 1 }).answer (.spdm 0x69 [BitVec.ofNat 8 op])
    else if op = 3 then s.answer (.spdm 0x69 [3])
    else s.spErr spInvalid))
/-- END_SESSION. -/
def execSpdmEndSession (i3c : Bool) (s : State) : Host.Outcome State Fault Refusal :=
  .next (s.spSess i3c (fun s c =>
    if c.session ≠ 2 then s.spErr spUnexpected else (s.setSp i3c { c with session := 0 }).answer (.spdm 0x6C [])))
/-- DOE_ABORT: the mailbox is reset; requests are whole in this model, so no other object is in progress. -/
def execDoeAbort (s : State) : Host.Outcome State Fault Refusal := .next (if s.mgmtUp false then s.answer .none else s)
/-- DOE_DISCOVERY: vendor, type and next index of the mailbox's protocols. -/
def execDoeDiscovery (index : Nat) (s : State) : Host.Outcome State Fault Refusal :=
  .next (if !(s.mgmtUp false) then s
    else if index < 3 then s.answer (.data (toBytes 2 1 ++ toBytes 1 index ++ toBytes 1 (index + 1)))
    else if index = 3 then s.answer (.data (toBytes 2 0x1F7A ++ toBytes 1 1 ++ toBytes 1 0))
    else s.answer (.data (toBytes 2 0xFFFF ++ toBytes 1 0 ++ toBytes 1 0)))

end Sys2Proof.Machine
end

