-- ==== Sys2Proof/Machine/Stack.lean ====
section
/-! DEFINITION. The end of a popped frame: which instructions still read it, and SDROP_ISSUE (R159). -/

namespace Sys2Proof.Machine

/-- The intervals of memory that an outstanding instruction reads by address: operands and chain streams, a PVU's load, a transfer's
source and a KWRITE's rows. -/
def Outst.reads (o : Outst) : List (Nat × Nat) :=
  let w := parseMx o.word
  let c := parseChain o.chain
  let kv := parseKv o.desc
  let rows := (kvSeqs 0x21 kv o.chain).length * kv.ntok
  if o.isMx then mxInputs w (parseMxD o.desc) w.fx w.fw ++ c.inputs o.drain
  else if o.isVx then c.inputs o.drain
  else if o.isPv then (if bits o.word 40 8 = 0x60 then (pvStream o.word).spans 1 256 else [])
  else if opcOf o.word = 0x10 then [(numAt o.desc 8 8, numAt o.desc 8 8 + numAt o.desc 4 4)]
  else if opcOf o.word = 0x21 ∧ rows ≠ 0 then [(kv.addr, kv.addr + (rows - 1) * kv.stride + kv.colb)]
  else []

/-- The bytes of a frame at its home. -/
def State.frameSpan (s : State) (d k : Nat) (f : Frame) : Nat × Nat := (s.frameBase d k f, s.frameBase d k f + f.height * 4096)

/-- An outstanding instruction reads a frame: through the slot, or through addresses that SBIND gave (R159). -/
def State.readsFrame (s : State) (d k : Nat) (f : Frame) (o : Outst) : Bool :=
  (o.frame == frameId d f && opcOf o.word != 0x1B) || (f.bound && anyOverlap o.reads [s.frameSpan d k f])

/-- Frames of a tag freed from the top while dropped (R159). -/
def freeTop (fs : List Frame) (t : Nat) : List Frame :=
  let mine := (fs.filter (fun f => f.tag == t)).reverse.dropWhile (fun f => f.state == 5)
  fs.filter (fun f => f.tag != t || mine.any (fun g => g.start == f.start))

/-- An SDROP whose slot no instruction dispatched before it in B still reads (R159). -/
def State.sdropReady (s : State) (k : Nat) (o : Outst) : Bool :=
  opcOf o.word == 0x1B && (match (s.as o.unit k).slotOf (bits o.word 46 1) with
    | none => false
    | some f => !((s.q k).outst.any (fun p => decide (p.seq < o.seq) && p.strm == 1 && s.readsFrame o.unit k f p)))

/-- A context without the segments of frames that are gone. -/
def Asu.keepFrames (c : Asu) (fs : List Frame) : Asu :=
  let live := fun (p : Nat × Nat) => fs.any (fun f => f.parts.contains p)
  { c with
    frames := fs
    pool := c.pool.filter live
    near := c.near.filter (fun p => live (p.1, p.2.1))
    pushq := c.pushq.filter live
    xferq := c.xferq.filter live }

/-- SDROP_ISSUE (R129, R159): in the ASU's order, earlier readers having completed; the slot empties and frames free. -/
def State.sdropIssue (s : State) (k : Nat) : State :=
  match (List.range 4).findSome? (fun d => (s.nextAsu d k).filter (s.sdropReady k)) with
  | none => s
  | some o =>
    if s.noIssue k then s
    else
      let d := o.unit
      let n := bits o.word 46 1
      let t := (((s.as d k).slotOf n).map (·.tag)).getD 0
      let s := s.mapFrames d k (fun f => if f.state = 3 + n then { f with state := 5, dropping := false, pinned := false } else f)
      let s := s.setAs d k ((s.as d k).keepFrames (freeTop (s.as d k).frames t))
      (s.syncAsu d k).complete k o

/-- SDROP_ISSUE. -/
def execSdropIssue (k : Fin 16) (s : State) : Host.Outcome State Fault Refusal := .next (s.sdropIssue k)

end Sys2Proof.Machine
end

