-- ==== Sys2Proof/Machine/Dispatch.lean ====
section
/-! DEFINITION. The effect of a command on everything but the queue: one arm per row of the command table. -/

namespace Sys2Proof.Machine

def exec (i : Instr) (s : State) : Host.Outcome State Fault Refusal :=
  match i with
  | .powerOn => Sys2Proof.Machine.execPowerOn s
  | .pwrOkRise => Sys2Proof.Machine.execPwrOkRise s
  | .pwrOkFall => Sys2Proof.Machine.execPwrOkFall s
  | .railEnable => Sys2Proof.Machine.execRailEnable s
  | .railPgTimeout => Sys2Proof.Machine.execRailPgTimeout s
  | .railPowerGood rail => Sys2Proof.Machine.execRailPowerGood rail s
  | .optionLoad samples slotId => Sys2Proof.Machine.execOptionLoad samples slotId s
  | .domainRelease sigA sigB => Sys2Proof.Machine.execDomainRelease sigA sigB s
  | .islandSettled island => Sys2Proof.Machine.execIslandSettled island s
  | .weaveBootApply sigA sigB => Sys2Proof.Machine.execWeaveBootApply sigA sigB s
  | .wrstNAssert => Sys2Proof.Machine.execWrstNAssert s
  | .wrstHoldRelease => Sys2Proof.Machine.execWrstHoldRelease s
  | .wrstNDeassert => Sys2Proof.Machine.execWrstNDeassert s
  | .pcieHotReset => Sys2Proof.Machine.execPcieHotReset s
  | .flr => Sys2Proof.Machine.execFlr s
  | .warmPrephaseDone => Sys2Proof.Machine.execWarmPrephaseDone s
  | .warmPrephaseTimeout => Sys2Proof.Machine.execWarmPrephaseTimeout s
  | .watchdogExpiry => Sys2Proof.Machine.execWatchdogExpiry s
  | .watchdogTick => Sys2Proof.Machine.execWatchdogTick s
  | .lkWdogKick m => Sys2Proof.Machine.execLkWdogKick m s
  | .securityReset => Sys2Proof.Machine.execSecurityReset s
  | .stakeReset m rivals k => Sys2Proof.Machine.execStakeReset m rivals k s
  | .lkForce m domains => Sys2Proof.Machine.execLkForce m domains s
  | .supplyWarnAssert => Sys2Proof.Machine.execSupplyWarnAssert s
  | .braceComplete => Sys2Proof.Machine.execBraceComplete s
  | .supplyWarnDeassert => Sys2Proof.Machine.execSupplyWarnDeassert s
  | .throttleChange tj => Sys2Proof.Machine.execThrottleChange tj s
  | .lkThrotSwWrite m v => Sys2Proof.Machine.execLkThrotSwWrite m v s
  | .lkSbFaultWrite m b => Sys2Proof.Machine.execLkSbFaultWrite m b s
  | .registerWrite m addr v => Sys2Proof.Machine.execRegisterWrite m addr v s
  | .inputLoss => Sys2Proof.Machine.execInputLoss s
  | .hbmStackReady st => Sys2Proof.Machine.execHbmStackReady st s
  | .journalCaptureDone => Sys2Proof.Machine.execJournalCaptureDone s
  | .wvCmdApplyPartial m rivals k sigOk => Sys2Proof.Machine.execWvCmdApplyPartial m rivals k sigOk s
  | .partialQuiesceBegin => Sys2Proof.Machine.execPartialQuiesceBegin s
  | .partialCommit => Sys2Proof.Machine.execPartialCommit s
  | .quiesceTimeout => Sys2Proof.Machine.execQuiesceTimeout s
  | .programFetch k x => Sys2Proof.Machine.execProgramFetch k x s
  | .nop k x => Sys2Proof.Machine.execNop k x s
  | .jump k x => Sys2Proof.Machine.execJump k x s
  | .mbegin k => Sys2Proof.Machine.execMbegin k s
  | .mend k => Sys2Proof.Machine.execMend k s
  | .seal k => Sys2Proof.Machine.execSeal k s
  | .sealLatch k => Sys2Proof.Machine.execSealLatch k s
  | .start m rivals k => Sys2Proof.Machine.execStart m rivals k s
  | .stop m rivals k => Sys2Proof.Machine.execStop m rivals k s
  | .resume m rivals k skip => Sys2Proof.Machine.execResume m rivals k skip s
  | .restore m rivals k => Sys2Proof.Machine.execRestore m rivals k s
  | .stopComplete k => Sys2Proof.Machine.execStopComplete k s
  | .psqPost m k mask => Sys2Proof.Machine.execPsqPost m k mask s
  | .psqXlimitWrite m k x v => Sys2Proof.Machine.execPsqXlimitWrite m k x v s
  | .mxf k x => Sys2Proof.Machine.execMxf k x s
  | .mxb k x => Sys2Proof.Machine.execMxb k x s
  | .mxw k x => Sys2Proof.Machine.execMxw k x s
  | .mxIssue e latch feed drain token released errs => Sys2Proof.Machine.execMxIssue e latch feed drain token released errs s
  | .mxComplete e => Sys2Proof.Machine.execMxComplete e s
  | .dvuRow e wait away errs => Sys2Proof.Machine.execDvuRow e wait away errs s
  | .vx k x => Sys2Proof.Machine.execVx k x s
  | .vxComplete e => Sys2Proof.Machine.execVxComplete e s
  | .pvOp k x => Sys2Proof.Machine.execPvOp k x s
  | .pvLd k x => Sys2Proof.Machine.execPvLd k x s
  | .pvSt k x => Sys2Proof.Machine.execPvSt k x s
  | .pvSplat k x => Sys2Proof.Machine.execPvSplat k x s
  | .pvLred k x => Sys2Proof.Machine.execPvLred k x s
  | .pvBcast k x => Sys2Proof.Machine.execPvBcast k x s
  | .pvCmpgt k x => Sys2Proof.Machine.execPvCmpgt k x s
  | .pvSel k x => Sys2Proof.Machine.execPvSel k x s
  | .pvCommit p errs => Sys2Proof.Machine.execPvCommit p errs s
  | .pvuAssist p errs => Sys2Proof.Machine.execPvuAssist p errs s
  | .sopen k x => Sys2Proof.Machine.execSopen k x s
  | .sclose k x => Sys2Proof.Machine.execSclose k x s
  | .scloseIssue k => Sys2Proof.Machine.execScloseIssue k s
  | .spop k => Sys2Proof.Machine.execSpop k s
  | .sdrop k => Sys2Proof.Machine.execSdrop k s
  | .sdropIssue k => Sys2Proof.Machine.execSdropIssue k s
  | .sbind k => Sys2Proof.Machine.execSbind k s
  | .asuSegmentPush d k errs => Sys2Proof.Machine.execAsuSegmentPush d k errs s
  | .asuSegmentTransferDone d k errs => Sys2Proof.Machine.execAsuSegmentTransferDone d k errs s
  | .qupd k => Sys2Proof.Machine.execQupd k s
  | .qbind k => Sys2Proof.Machine.execQbind k s
  | .qclr k => Sys2Proof.Machine.execQclr k s
  | .qemit k => Sys2Proof.Machine.execQemit k s
  | .quayOpComplete k held errs => Sys2Proof.Machine.execQuayOpComplete k held errs s
  | .quayReserve e wait => Sys2Proof.Machine.execQuayReserve e wait s
  | .quayReservationGrant q wait => Sys2Proof.Machine.execQuayReservationGrant q wait s
  | .quaySliceArrive e => Sys2Proof.Machine.execQuaySliceArrive e s
  | .quayFold q held errs => Sys2Proof.Machine.execQuayFold q held errs s
  | .reducedBlockArrive q => Sys2Proof.Machine.execReducedBlockArrive q s
  | .quayBoundUpdate q errs => Sys2Proof.Machine.execQuayBoundUpdate q errs s
  | .farAtomic q errs => Sys2Proof.Machine.execFarAtomic q errs s
  | .rjob k => Sys2Proof.Machine.execRjob k s
  | .rjobIssue k errs => Sys2Proof.Machine.execRjobIssue k errs s
  | .xread k => Sys2Proof.Machine.execXread k s
  | .sealBarge port => Sys2Proof.Machine.execSealBarge port s
  | .exchangeTimeout k => Sys2Proof.Machine.execExchangeTimeout k s
  | .scatter8 port errs => Sys2Proof.Machine.execScatter8 port errs s
  | .scatter16 port errs => Sys2Proof.Machine.execScatter16 port errs s
  | .scatter32 port errs => Sys2Proof.Machine.execScatter32 port errs s
  | .req16 port errs => Sys2Proof.Machine.execReq16 port errs s
  | .req32 port errs => Sys2Proof.Machine.execReq32 port errs s
  | .gather port => Sys2Proof.Machine.execGather port s
  | .gatherSend k => Sys2Proof.Machine.execGatherSend k s
  | .jobClose j => Sys2Proof.Machine.execJobClose j s
  | .jobTimeout j => Sys2Proof.Machine.execJobTimeout j s
  | .kextend k x => Sys2Proof.Machine.execKextend k x s
  | .kwrite k x => Sys2Proof.Machine.execKwrite k x s
  | .kgather k x => Sys2Proof.Machine.execKgather k x s
  | .kgatherUnmoor k => Sys2Proof.Machine.execKgatherUnmoor k s
  | .kshare k x => Sys2Proof.Machine.execKshare k x s
  | .kfree k x => Sys2Proof.Machine.execKfree k x s
  | .kbasket k x => Sys2Proof.Machine.execKbasket k x s
  | .kvComplete k => Sys2Proof.Machine.execKvComplete k s
  | .init m rivals d k => Sys2Proof.Machine.execInit m rivals d k s
  | .release m rivals d k => Sys2Proof.Machine.execRelease m rivals d k s
  | .tsend k x => Sys2Proof.Machine.execTsend k x s
  | .tsendIssue k => Sys2Proof.Machine.execTsendIssue k s
  | .tsendComplete ring dir tag => Sys2Proof.Machine.execTsendComplete ring dir tag s
  | .tsendTimeout ring dir tag => Sys2Proof.Machine.execTsendTimeout ring dir tag s
  | .transferBarge port cls => Sys2Proof.Machine.execTransferBarge port cls s
  | .dataFrame port bytes => Sys2Proof.Machine.execDataFrame port bytes s
  | .ctrlFrame port bytes => Sys2Proof.Machine.execCtrlFrame port bytes s
  | .fullTraining port info => Sys2Proof.Machine.execFullTraining port info s
  | .fastRetrain port info => Sys2Proof.Machine.execFastRetrain port info s
  | .trainingRetry port info => Sys2Proof.Machine.execTrainingRetry port info s
  | .portDown port => Sys2Proof.Machine.execPortDown port s
  | .takePortDown m rivals port => Sys2Proof.Machine.execTakePortDown m rivals port s
  | .twpCmdFastRetrain m rivals port => Sys2Proof.Machine.execTwpCmdFastRetrain m rivals port s
  | .twpCmdFullTraining m rivals port => Sys2Proof.Machine.execTwpCmdFullTraining m rivals port s
  | .twpWinEnable m w v => Sys2Proof.Machine.execTwpWinEnable m w v s
  | .frameLock port => Sys2Proof.Machine.execFrameLock port s
  | .laneLockLoss port lane => Sys2Proof.Machine.execLaneLockLoss port lane s
  | .tcxLaunch m rivals d core thread => Sys2Proof.Machine.execTcxLaunch m rivals d core thread s
  | .tcxHalt m rivals d core thread => Sys2Proof.Machine.execTcxHalt m rivals d core thread s
  | .wfi t lead => Sys2Proof.Machine.execWfi t lead s
  | .rtAcq t lead word => Sys2Proof.Machine.execRtAcq t lead word s
  | .rtRel t lead word => Sys2Proof.Machine.execRtRel t lead word s
  | .rtTpost t lead word => Sys2Proof.Machine.execRtTpost t lead word s
  | .rtTtake t lead word => Sys2Proof.Machine.execRtTtake t lead word s
  | .ttakeServe k => Sys2Proof.Machine.execTtakeServe k s
  | .rtTwait t lead word => Sys2Proof.Machine.execRtTwait t lead word s
  | .twaitReread t => Sys2Proof.Machine.execTwaitReread t s
  | .rtApost t lead word => Sys2Proof.Machine.execRtApost t lead word s
  | .rtSdesc t lead word => Sys2Proof.Machine.execRtSdesc t lead word s
  | .rtSstop t lead word => Sys2Proof.Machine.execRtSstop t lead word s
  | .scratchpadAccess r lead addr a errs => Sys2Proof.Machine.execScratchpadAccess r lead addr a errs s
  | .memoryAccess r lead addr a errs => Sys2Proof.Machine.execMemoryAccess r lead addr a errs s
  | .patrolScrub st addr ecc raced last => Sys2Proof.Machine.execPatrolScrub st addr ecc raced last s
  | .hbmStackLost st cause => Sys2Proof.Machine.execHbmStackLost st cause s
  | .hbmTempChange st temp => Sys2Proof.Machine.execHbmTempChange st temp s
  | .cxtDecCommit m n => Sys2Proof.Machine.execCxtDecCommit m n s
  | .cxtDecUncommit m n => Sys2Proof.Machine.execCxtDecUncommit m n s
  | .cxtDecLock m n => Sys2Proof.Machine.execCxtDecLock m n s
  | .cxlLinkDown p => Sys2Proof.Machine.execCxlLinkDown p s
  | .cxlLinkUp p width speed flit device => Sys2Proof.Machine.execCxlLinkUp p width speed flit device s
  | .rdShared h agent addr age dirEcc => Sys2Proof.Machine.execRdShared h agent addr age dirEcc s
  | .rdUnique h agent addr age dirEcc => Sys2Proof.Machine.execRdUnique h agent addr age dirEcc s
  | .rdOnce h who addr age dirEcc => Sys2Proof.Machine.execRdOnce h who addr age dirEcc s
  | .wrFull h who addr age dirEcc alloc data => Sys2Proof.Machine.execWrFull h who addr age dirEcc alloc data s
  | .wrMasked h who addr age dirEcc mask data => Sys2Proof.Machine.execWrMasked h who addr age dirEcc mask data s
  | .atomic h r lead op addr age dirEcc size a b => Sys2Proof.Machine.execAtomic h r lead op addr age dirEcc size a b s
  | .watch h t addr age dirEcc => Sys2Proof.Machine.execWatch h t addr age dirEcc s
  | .wback h agent addr => Sys2Proof.Machine.execWback h agent addr s
  | .grant h tid => Sys2Proof.Machine.execGrant h tid s
  | .trackerFree h => Sys2Proof.Machine.execTrackerFree h s
  | .snoop h agent tid wback => Sys2Proof.Machine.execSnoop h agent tid wback s
  | .snoopAnswer h agent tid err => Sys2Proof.Machine.execSnoopAnswer h agent tid err s
  | .snoopTimeout h tid => Sys2Proof.Machine.execSnoopTimeout h tid s
  | .quayAtomicReturn h tid => Sys2Proof.Machine.execQuayAtomicReturn h tid s
  | .lr h r lead addr age dirEcc size => Sys2Proof.Machine.execLr h r lead addr age dirEcc size s
  | .sc h r lead addr age dirEcc size v => Sys2Proof.Machine.execSc h r lead addr age dirEcc size v s
  | .bar0Access cfg off a => Sys2Proof.Machine.execBar0Access cfg off a s
  | .bar2Access cfg off a errs => Sys2Proof.Machine.execBar2Access cfg off a errs s
  | .hifSyncRead => Sys2Proof.Machine.execHifSyncRead s
  | .hifCtlLinkEn m b => Sys2Proof.Machine.execHifCtlLinkEn m b s
  | .hifBootGo m rivals len => Sys2Proof.Machine.execHifBootGo m rivals len s
  | .create m rivals n => Sys2Proof.Machine.execCreate m rivals n s
  | .delete m rivals n => Sys2Proof.Machine.execDelete m rivals n s
  | .restart m rivals n => Sys2Proof.Machine.execRestart m rivals n s
  | .hifDbSq m n tail gen => Sys2Proof.Machine.execHifDbSq m n tail gen s
  | .hifDbCq m n head => Sys2Proof.Machine.execHifDbCq m n head s
  | .sqFetch n host cqOk => Sys2Proof.Machine.execSqFetch n host cqOk s
  | .sqRefetch n host cqOk => Sys2Proof.Machine.execSqRefetch n host cqOk s
  | .journalCommit n cqOk => Sys2Proof.Machine.execJournalCommit n cqOk s
  | .hifNop n => Sys2Proof.Machine.execHifNop n s
  | .hifWrite n => Sys2Proof.Machine.execHifWrite n s
  | .copy n host poisoned hostOk => Sys2Proof.Machine.execCopy n host poisoned hostOk s
  | .psqLimit n => Sys2Proof.Machine.execPsqLimit n s
  | .hifPsqPost n => Sys2Proof.Machine.execHifPsqPost n s
  | .hifPsqCmd n => Sys2Proof.Machine.execHifPsqCmd n s
  | .pool n cqOk => Sys2Proof.Machine.execPool n cqOk s
  | .commandComplete n cqOk => Sys2Proof.Machine.execCommandComplete n cqOk s
  | .hifPoolDone m n cid status => Sys2Proof.Machine.execHifPoolDone m n cid status s
  | .hifPoolRingEnable m base => Sys2Proof.Machine.execHifPoolRingEnable m base s
  | .irqTimer n => Sys2Proof.Machine.execIrqTimer n s
  | .pcieLinkUp width speed flit => Sys2Proof.Machine.execPcieLinkUp width speed flit s
  | .pcieLinkDown => Sys2Proof.Machine.execPcieLinkDown s
  | .journalReplay k => Sys2Proof.Machine.execJournalReplay k s
  | .unitFailure kind unit ns => Sys2Proof.Machine.execUnitFailure kind unit ns s
  | .unitWatchdogTimeout kind unit ns => Sys2Proof.Machine.execUnitWatchdogTimeout kind unit ns s
  | .getStatus q => Sys2Proof.Machine.execGetStatus q s
  | .getNonce q => Sys2Proof.Machine.execGetNonce q s
  | .getLog q off => Sys2Proof.Machine.execGetLog q off s
  | .flashWrite q off data => Sys2Proof.Machine.execFlashWrite q off data s
  | .flashCommit q region len sigOk => Sys2Proof.Machine.execFlashCommit q region len sigOk s
  | .flashCommitDone => Sys2Proof.Machine.execFlashCommitDone s
  | .enrollKey q digest => Sys2Proof.Machine.execEnrollKey q digest s
  | .revokeKey q slot => Sys2Proof.Machine.execRevokeKey q slot s
  | .advanceRollback q v => Sys2Proof.Machine.execAdvanceRollback q v s
  | .secretPut q idx data => Sys2Proof.Machine.execSecretPut q idx data s
  | .debugOpen q => Sys2Proof.Machine.execDebugOpen q s
  | .debugOpenEraseDone => Sys2Proof.Machine.execDebugOpenEraseDone s
  | .moduleReset q => Sys2Proof.Machine.execModuleReset q s
  | .nonceExpiry => Sys2Proof.Machine.execNonceExpiry s
  | .spdmGetVersion i3c => Sys2Proof.Machine.execSpdmGetVersion i3c s
  | .spdmGetCapabilities i3c version => Sys2Proof.Machine.execSpdmGetCapabilities i3c version s
  | .spdmNegotiateAlgorithms i3c algOk => Sys2Proof.Machine.execSpdmNegotiateAlgorithms i3c algOk s
  | .spdmGetDigests i3c => Sys2Proof.Machine.execSpdmGetDigests i3c s
  | .spdmGetCertificate i3c slot off len => Sys2Proof.Machine.execSpdmGetCertificate i3c slot off len s
  | .spdmChallenge i3c slot nonce => Sys2Proof.Machine.execSpdmChallenge i3c slot nonce s
  | .spdmGetMeasurements i3c idx sign => Sys2Proof.Machine.execSpdmGetMeasurements i3c idx sign s
  | .spdmKeyExchange i3c reqId => Sys2Proof.Machine.execSpdmKeyExchange i3c reqId s
  | .spdmFinish i3c hmacOk => Sys2Proof.Machine.execSpdmFinish i3c hmacOk s
  | .spdmHeartbeat i3c => Sys2Proof.Machine.execSpdmHeartbeat i3c s
  | .spdmKeyUpdate i3c op => Sys2Proof.Machine.execSpdmKeyUpdate i3c op s
  | .spdmEndSession i3c => Sys2Proof.Machine.execSpdmEndSession i3c s
  | .doeAbort => Sys2Proof.Machine.execDoeAbort s
  | .doeDiscovery index => Sys2Proof.Machine.execDoeDiscovery index s
  | .ptbArm m v => Sys2Proof.Machine.execPtbArm m v s

end Sys2Proof.Machine
end

