-- ==== Sys2Proof/Machine/Tick.lean ====
section
/-! DEFINITION. What a step does while no command waits. -/

namespace Sys2Proof.Machine

/-- A moment with no command. DESIGN CHOICE (log 54), safe: while the supply is up, the reference count of the S-die advances by one
(R241), and every ACTIVE port with no DATA frame ready sends a CTRL frame (R295). -/
def State.tick (s : State) : State :=
  if s.lk.powered then ({ s with time := s.time + 1 } : State).talkAll else s

end Sys2Proof.Machine
end

