-- ==== Sys2Proof/Safety.lean ====
section
/-! DEFINITION. Safe runs: the commands of a list, one after another, none of which stops the model. With them the terms that
statements use: an outcome that is a next state with a property, and what two states have in common. -/

namespace Sys2Proof.Machine

/-- The state after a list of commands, each acting in turn; none where one of them stops. -/
def runAll : List Instr → State → Option State
  | [], s => some s
  | c :: t, s =>
    match exec c s with
    | .next s' => runAll t s'
    | _ => none

/-- A list of commands is safe from a state: each of them answers a next state. -/
def SafeRun (l : List Instr) (s : State) : Prop := (runAll l s).isSome = true

/-- A step is safe: it answers a next state. -/
def SafeStep (s : State) : Prop := ∃ t, step s = .next t

/-- The outcome is a next state, and it has the property. -/
def Answers (o : Host.Outcome State Fault Refusal) (P : State → Prop) : Prop := ∃ t, o = .next t ∧ P t

/-- Every byte of memory reads in `t` as it does in `s`. -/
def SameMemory (s t : State) : Prop := ∀ a, t.byte a = s.byte a

/-- Every byte of memory outside the ranges of `l`, each a first address and a length, reads in `t` as it does in `s`. -/
def MemoryBut (l : List (Nat × Nat)) (s t : State) : Prop := ∀ a, (∀ r ∈ l, a < r.1 ∨ r.1 + r.2 ≤ a) → t.byte a = s.byte a

/-- Every register but those at the addresses of `l` holds in `t` what it holds in `s`. -/
def SameRegs (l : List Nat) (s t : State) : Prop := ∀ a, a ∉ l → t.reg a = s.reg a

/-- The registers that record the outcomes of register writes: HIF_ERR and LK_WSTATm (R373). -/
def outcomeRegs : List Nat := R.hifErr :: (List.range 128).map R.lkWstat

/-- A write by master `m` to the register at `a` is taken: its wrapper is open, and `m` is one of its owners (R22, R370). -/
def Granted (s : State) (m : Master) (a : Nat) : Prop := s.wrapperOpen a = true ∧ s.mayWrite m a = true

/-- The registers that count and record errors of the arrays and of the CXL range (R82, R263, R269). -/
def errorRegs : List Nat :=
  R.cxtErr :: (List.range 8).flatMap (fun h => [R.memEcc h, R.memErrAddr h]) ++ (List.range 32).map R.mxeEcc

/-- A unit's write of the `n` bytes at `a` is taken: no stack of them is lost, no CXL port down, and they are no part of an ASU's
(R81, R265, R269). -/
def Lands (s : State) (a n : Nat) : Prop := s.dropped a = false ∧ s.asuPart a n = false

/-- Every error that reads find is a corrected one (R82, R263). -/
def Corrected (x : Errs) : Prop := ∀ e ∈ x.mem, e.2 < 2

/-- The instruction `w` at the head of stream `x` of stake `k` may dispatch (R122, R124, R128, R129, R140). -/
def Ready (s : State) (k x w : Nat) : Prop :=
  s.dispatching k = true ∧ s.indexOf k x < s.limitOf k x ∧ (s.q k).skip.testBit x = false ∧ s.headWord k x = some w ∧
    s.headFault k x w = none ∧ s.tokensReady k (s.tset k (waitOf w)) = true ∧ s.inWindow k x = true ∧
    s.outranked k x (s.tset k (waitOf w)) = false

/-- The tokens of the wait set of `w` are taken, and no other (R124). -/
def Taken (s t : State) (k w : Nat) : Prop :=
  ∀ c, c < 64 → t.tok k c = s.tok k c - (if (s.tset k (waitOf w)).testBit c then 1 else 0)

/-- The stream is past its head: INDEX and PC count one more, where no completed instruction follows (R119, R143). -/
def Advanced (s t : State) (k x pc : Nat) : Prop :=
  (s.reg (R.psqAhead k x)).toNat.testBit 0 = false →
    t.indexOf k x = (s.indexOf k x + 1) % 2 ^ 64 ∧ t.pcOf k x = pc % 2 ^ F.psqPcPc.2

/-- The head of stream `x` has dispatched to `unit` and is the newest outstanding instruction (R124, R129, R130). -/
def Dispatched (s t : State) (k x w unit : Nat) (issued : Bool) : Prop :=
  Taken s t k w ∧ Advanced s t k x (s.pcOf k x + 1) ∧ (t.q k).outst.length = (s.q k).outst.length + 1 ∧
    ∃ o, (t.q k).outst.getLast? = some o ∧ o.seq = (s.q k).fresh ∧ o.strm = x ∧ o.index = s.indexOf k x ∧ o.word = w ∧ o.unit = unit ∧
      o.waits = s.tset k (waitOf w) ∧ o.issued = issued

/-- The head of stream `x` has dispatched and completed at once: its waits are taken and its posts given (R124, R125). -/
def DoneAtOnce (s t : State) (k x w pc : Nat) : Prop :=
  Advanced s t k x pc ∧ (t.q k).outst = (s.q k).outst ∧
    ∀ c, c < 64 → t.tok k c = s.tok k c - (if (s.tset k (waitOf w)).testBit c then 1 else 0) +
      (if (s.tset k (postOf w)).testBit c then 1 else 0)

/-- No post of `w` overflows its counter once the waits are taken (R125). -/
def NoOverflow (s : State) (k w : Nat) : Prop :=
  ∀ c, (s.tset k (postOf w)).testBit c = true → s.tok k c - (if (s.tset k (waitOf w)).testBit c then 1 else 0) < 65535

/-- No post of `w` overflows its counter (R125). -/
def PostsFit (s : State) (k w : Nat) : Prop := ∀ c, (s.tset k (postOf w)).testBit c = true → s.tok k c < 65535

/-- The posts of `w` are given, and no other token changes (R124). -/
def Posted (s t : State) (k w : Nat) : Prop :=
  ∀ c, c < 64 → t.tok k c = s.tok k c + (if (s.tset k (postOf w)).testBit c then 1 else 0)

/-- The outstanding instruction `o` has completed: it is outstanding no more, and its posts are given (R124, R129). -/
def Completed (s t : State) (k : Nat) (o : Outst) : Prop :=
  (t.q k).outst = (s.q k).outst.filter (fun p => !(p.seq == o.seq)) ∧ Posted s t k o.word

/-- The fault record of stream `x` of stake `k` holds a fault's code and index, as the stream's first (R141, R146). -/
def Faulted (s t : State) (k x code index : Nat) : Prop :=
  s.flag (R.psqFrec0 k x) F.psqFrec0Valid = false → t.flag (R.psqFrec0 k x) F.psqFrec0Valid = true ∧
    t.fld (R.psqFrec0 k x) F.psqFrec0Code = code ∧ t.reg (R.psqFrec1 k x) = BitVec.ofNat 64 index ∧
    t.flag (R.psqStatus k) F.psqStatusStopFault = true

/-- The bytes that a chain's row stores at row position `r` of a MEM destination of `n` columns, and its scale bytes (R89, R90). -/
def rowStores (d : StreamD) (r n : Nat) : List (Nat × Nat) :=
  if d.kind = 1 then (d.addr + r * d.stride, d.rowLen n) :: (if d.mx then [(d.saddr + r * ceilDiv n 32, ceilDiv n 32)] else []) else []

/-- Elements of the source row that the chain of `o` processes next on DVU `e`. -/
def rowLength (s : State) (k e : Nat) (o : Outst) : Nat :=
  if o.isMx then (o.acc.getD o.run.row []).length else (s.vxSource k (e / 8) o (parseChain o.chain) o.run.row o.run).1.length

/-- Rows and group columns of a quay descriptor's tensor. -/
def groupsOf (d : QuayD) : List (Nat × Nat) := (List.range d.rows).flatMap (fun n => (List.range (d.cols / 64)).map (fun c => (n, c)))

/-- The bytes of the working copy of a group, and its MX scale bytes (R182). -/
def copyStores (d : QuayD) (n c : Nat) : List (Nat × Nat) :=
  (d.copyAddr n c, 8 * d.wwidth) :: (if d.wscm = 2 then [(d.wsaddr + n * (d.cols / 32) + 2 * c, 2)] else [])

/-- The group at row `n`, column `c` is updated with the gradients `gs`: the 64 masters are what the optimiser gives of the gradient, the
masters and the moments, and the accumulators are cleared (R178, R179). -/
def Updated (s t : State) (k : Nat) (d : QuayD) (ws : List Nat) (n c : Nat) (gs : List Nat) : Prop :=
  let m12 := (s.stake k).master12
  let a := d.group (s.gsize k) n c
  t.fp64s a = (List.range 64).map (fun j => (optimise d.opt ws d.p (gs.getD j 0) ((s.fp64s a).getD j 0) ((s.moments m12 a 0).getD j 0)
    ((s.moments m12 a 1).getD j 0)).1 % 2 ^ 32) ∧ t.fp64s (a + accOff m12) = List.replicate 64 0

/-- A barge has been handed to ring direction `rd`: it waits there for credit, or a port has sent it and keeps it (R292, R298). -/
def Leaves (t : State) (rd cls : Nat) (f : List Byte) : Prop :=
  (cls, f) ∈ (t.rg rd).txq ∨ ∃ p, ∃ e ∈ (t.pt p).replay, e.rd = rd ∧ e.cls = cls ∧ e.flit = f

/-- The job has closed: its ID is free, and the accumulators of its groups are clear (R212). -/
def JobClosed (s t : State) (id : Nat) (j : Job) : Prop :=
  t.job id = none ∧ (∀ b ∈ t.binds, b.job ≠ id) ∧
    ((∀ a ∈ s.groupsOf j, Lands s (a + accOff (s.stake j.stake).master12) 256) →
      ∀ a ∈ s.groupsOf j, t.fp64s (a + accOff (s.stake j.stake).master12) = List.replicate 64 0)

/-- Ranges, each a first address and a length, of which no two share a byte. -/
def Separate (l : List (Nat × Nat)) : Prop := l.Pairwise (fun a b => a.1 + a.2 ≤ b.1 ∨ b.1 + b.2 ≤ a.1)

/-- A unit's writes to any bytes of the ranges of `l` are taken. -/
def Writable (l : List (Nat × Nat)) (s : State) : Prop := ∀ r ∈ l, ∀ i n, i + n ≤ r.2 → i < r.2 → Lands s (r.1 + i) n

/-- No reduction job that has issued waits for its first reads (R176). -/
def NoJobWaits (s : State) : Prop := ∀ p ∈ s.jobs, p.2.begun = true ∨ p.2.issued = false

/-- Every KV instruction of the stake that is outstanding has issued (R129). -/
def KvInOrder (s : State) (k : Nat) : Prop := ∀ o ∈ (s.q k).outst, o.isKv = true → o.issued = true

/-- The records and the pages of a stake's KV pool do not overlap, and its records name pages of the pool (R226, R227). -/
def PoolSound (s : State) (k : Nat) : Prop :=
  let n := (s.stake k).kvPages
  let lim := (s.stake k).seqLimit
  Separate [(s.pageAt k 0, 8 * n), (s.seqAt k 0, 16 * lim), (s.entryAt k 0 0, 4 * (lim * s.ptEntries k)),
    ((s.stake k).kvBase, s.layers k * n * psizeOf (s.rowb k))] ∧
  ((s.kv k).head < n ∨ (s.kv k).head = noPage) ∧
  (∀ p, p < n → s.num (s.pageAt k p + 4) 4 < n ∨ s.num (s.pageAt k p + 4) 4 = noPage) ∧
  ∀ q, q < lim → s.live k q = true → ∀ i, i < ceilDiv (s.seqLen k q) 16 → s.entry k q i < n

/-- The KV instruction `w` of code `opc` names the descriptor `d`, the basket `bk` and the sequences `l`, and passes the checks of its word,
of the pool, of the descriptor and of the basket (R229). -/
def KvTaken (s : State) (k opc w : Nat) (d : KvD) (bk : List Byte) (l : List Nat) : Prop :=
  opcOf w = opc ∧ bits w 32 32 = 0 ∧ bits w 116 12 = 0 ∧ s.kvReady k = true ∧ s.unreadable (bits w 64 52) 128 = false ∧
    d = parseKv (s.bytes (bits w 64 52) 128) ∧ s.kvDescBad k opc (bits w 64 52) d = false ∧ s.kvAddrBad k opc d = false ∧
    bk = (if kvBasketOp opc then s.bytes d.basket 320 else []) ∧
    (kvBasketOp opc = true → s.unreadable d.basket 320 = false ∧ basketBad bk (s.stake k).level = false) ∧
    l = kvSeqs opc d bk ∧ (opc = 0x21 → s.kvRowsIn k d (l.length * d.ntok) = true)

/-- What the pool holds lets the instruction go on: no record is poisoned, and no check of its contents fails (R230-R234, R238). -/
def KvAllowed (s : State) (k opc : Nat) (d : KvD) (l : List Nat) : Prop := s.kvIssueFault k opc d l = none

/-- Thread `t` runs, still runs after its base instructions `lead`, and may fetch the `n` bytes that follow them (R243, R244). -/
def Fetches (s : State) (t : Nat) (lead : List (Nat × Nat)) (n : Nat) : Prop :=
  s.runs t = true ∧ (s.lead t lead).runs t = true ∧ (s.lead t lead).tMay t ((s.lead t lead).treg t tPc) n 2 = true

/-- The state in which thread `t` meets its next instruction: its base instructions are done and its `n` bytes fetched (R243). -/
def met (s : State) (t : Nat) (lead : List (Nat × Nat)) (n : Nat) : State :=
  (s.lead t lead).forAll (linesOf ((s.lead t lead).treg t tPc) n) (fun s l => s.ifill (s.runCore t) l)

/-- Thread `t` meets a Xritar word of the funct3 (R247). -/
def Issues (s : State) (t : Nat) (lead : List (Nat × Nat)) (f3 word : Nat) : Prop :=
  Fetches s t lead 4 ∧ word % 128 = 0x0B ∧ bits word 12 3 = f3 ∧ word < 2 ^ 32

/-- Thread `t` has ended an instruction with the result `v` in register `rd`: the pc is 4 further, its other registers are as in `u`, and it
runs. -/
def Retired (u s' : State) (t rd v : Nat) : Prop :=
  (rd ≠ 0 → s'.treg t rd = v % 2 ^ 64) ∧ s'.treg t tPc = (u.treg t tPc + 4) % 2 ^ 64 ∧
    (∀ i, i ≠ rd → i ≠ tPc → s'.treg t i = u.treg t i) ∧ s'.runs t = true

/-- Thread `t` has trapped into M-mode with a cause and a value, or, where a trap was still held, stopped as FAULTED (R245). -/
def Trapped (u s' : State) (t cause tval : Nat) : Prop :=
  (u.treg t tTrap = 0 → s'.treg t tEpc = u.treg t tPc % 2 ^ 64 ∧ s'.treg t tCause = cause ∧ s'.treg t tVal = tval % 2 ^ 64 ∧
      s'.treg t tMode = 3 ∧ s'.treg t tTrap = 1 ∧ s'.treg t tPc = u.treg t tVec / 4 * 4 % 2 ^ 64 ∧ s'.tState t = u.tState t) ∧
    (u.treg t tTrap ≠ 0 → s'.tState t = 5 ∧ s'.thread = u.thread)

/-- The save area of thread `t` (R249). -/
def saved (s : State) (t : Nat) : Nat × Nat := (s.saveArea t, 0x380)

/-- The lines that the L1 of the core of thread `t` holds. -/
def linesHeld (s : State) (t : Nat) : List (Nat × Nat) := (s.l1Of (s.runCore t)).map (fun e => (e.line, 64))

/-- The home `h` of `a` can serve a request for its line at once: its domain is released, a tracker is to spare, the line is not OPEN and
no agent holds it (R278, R279). -/
def HomeFree (s : State) (h a : Nat) : Prop := homeOf a = h ∧ (isHbm a = true ∨ isCxl a = true) ∧ s.domainUp 6 = true ∧
  ((s.home h).tracks.filter (fun t => !t.rsvd)).length < 254 ∧ (s.home h).isOpen (lineOf a) = false ∧
  ∀ e, (s.home h).entry (lineOf a) = some e → onesOf 69 e.holders = []

/-- A write of the line at `l` gets an error response: its stack is lost, its CXL port down, or no decoder covers it (R265, R269). -/
def Unwritable (s : State) (l : Nat) : Prop := s.stackLost l = true ∨ (isCxl l = true ∧ (s.cxlDown l = true ∨ s.err l 64 = true))

/-- The place of the next completion entry of queue pair `n`. -/
def cqPlace (s : State) (n : Nat) : Nat := s.fld (R.hifQCq n) F.hifQCqBase * 4096 + 32 * ((s.hqOf n).cqTail % (2 * s.depth n))

/-- Queue pair `n` has written its next completion entry, with PHASE after its other bytes (R322). -/
def Entered (s t : State) (n head seq result cid status kind : Nat) : Prop :=
  let b := cqBytes n seq result cid head status kind
  let phase := toBytes 8 (if (s.hqOf n).cqTail / (2 * s.depth n) % 2 = 0 then 1 else 0)
  (t.hqOf n).cqTail = (s.hqOf n).cqTail + 1 ∧
    (s.flag (R.hifQCq n) F.hifQCqHostmem = true → ∃ m, t.out = s.out ++ [.write (cqPlace s n) b, .write (cqPlace s n + 24) phase] ++ m) ∧
    (s.flag (R.hifQCq n) F.hifQCqHostmem = false → Writable [(cqPlace s n, 32)] s → t.bytes (cqPlace s n) 32 = b ++ phase)

/-- The bytes of module memory that the next completion entry of queue pair `n` takes. -/
def cqBut (s : State) (n : Nat) : List (Nat × Nat) := if s.flag (R.hifQCq n) F.hifQCqHostmem then [] else [(cqPlace s n, 32)]

/-- The header line of a record of queue pair `n` (R333). -/
def recordAt (s : State) (n : Nat) (c : Cmd) : Nat × Nat := (s.jSlot (s.qpOwner n) c.seq, 64)

/-- The header line of the record of `c` stands in its slot with a STATE (R334). -/
def Recorded (s t : State) (n : Nat) (c : Cmd) (st : Nat) : Prop :=
  Lands s (recordAt s n c).1 64 → t.bytes (recordAt s n c).1 64 = jHeader c.seq (s.epochOf (s.qpOwner n)) st n
    (if c.entry.length = 512 then 1 else 0) (if c.ack then 1 else 0) c.status c.cid c.result c.prog

/-- A command of queue pair `n` has completed as `c`: it waits for its DONE entry, and a stake's record of it is DONE (R334). -/
def Finished (s t : State) (n : Nat) (c : Cmd) : Prop :=
  (t.hqOf n).run = (s.hqOf n).run.map (fun x => if c.same x then c else x) ∧ (t.hqOf n).fin = (s.hqOf n).fin ++ [(c.seq, c.era)] ∧
    c.issued = true ∧ c.done = true ∧ (s.isPool n = false → Recorded s t n c 3)

/-- No replay of the journal of queue pair `n`'s stake is on its way. -/
def Settled (s : State) (n : Nat) : Prop := s.flag (R.psqJrnlStatus (s.qpOwner n)) F.psqJrnlStatusReplay = false

/-- What only weaves, resets, failures and the SEC change: the weave, the fuses, the flash, the SEC's context, the failed marks. -/
def SameModule (s t : State) : Prop :=
  t.weave = s.weave ∧ t.fuses = s.fuses ∧ t.flash = s.flash ∧ t.sec = s.sec ∧ t.failEng = s.failEng ∧ t.failPvu = s.failPvu ∧
    t.failTc = s.failTc ∧ t.failQuay = s.failQuay ∧ t.failCh = s.failCh

/-- A register of the global, weave, Lockkeeper or security block, other than the write outcomes LK_WSTATm. -/
def Global (a : Nat) : Prop := a < 0x3000000400000 ∧ ¬ (0x3000000200400 ≤ a ∧ a < 0x3000000200800)

/-- A register elsewhere, or a write outcome. -/
def Far (a : Nat) : Prop := ¬ Global a

/-- What `t` has in common with `s` where only the work of stakes has come between; of the Lockkeeper's context only the stakes that are to
resume after a warm reset may differ. -/
structure Apart (s t : State) : Prop where
  lk       : t.lk = { s.lk with resume := t.lk.resume }
  weave    : t.weave = s.weave
  fuses    : t.fuses = s.fuses
  failEng  : t.failEng = s.failEng
  failPvu  : t.failPvu = s.failPvu
  failTc   : t.failTc = s.failTc
  failQuay : t.failQuay = s.failQuay
  failCh   : t.failCh = s.failCh
  regs     : ∀ a, Global a → t.reg a = s.reg a

/-- The newest tracker of home `h` has completed. -/
def HomeEnded (s t : State) (h : Nat) : Prop := (∃ T ∈ (t.home h).tracks, T.id = (s.home h).fresh ∧ T.phase = 4) ∧ Apart s t

end Sys2Proof.Machine

namespace Sys2Proof

/-- The work of stakes: all but the commands of power, resets, weaves, failures, security and accesses to registers. -/
def Instr.work : Instr → Bool
  | .powerOn .. | .pwrOkRise .. | .pwrOkFall .. | .railEnable .. | .railPgTimeout .. | .railPowerGood .. | .optionLoad ..
  | .domainRelease .. | .islandSettled .. | .weaveBootApply .. | .wrstNAssert .. | .wrstHoldRelease .. | .wrstNDeassert ..
  | .pcieHotReset .. | .flr .. | .warmPrephaseDone .. | .warmPrephaseTimeout .. | .watchdogExpiry .. | .watchdogTick ..
  | .lkWdogKick .. | .securityReset .. | .stakeReset .. | .lkForce .. | .supplyWarnAssert .. | .braceComplete ..
  | .supplyWarnDeassert .. | .throttleChange .. | .lkThrotSwWrite .. | .lkSbFaultWrite .. | .registerWrite .. | .inputLoss ..
  | .wvCmdApplyPartial .. | .partialQuiesceBegin .. | .partialCommit .. | .quiesceTimeout .. | .stopComplete ..
  | .scratchpadAccess .. | .memoryAccess .. | .hbmStackLost .. | .hbmTempChange .. | .bar0Access .. | .bar2Access ..
  | .hifBootGo .. | .unitFailure .. | .unitWatchdogTimeout .. | .getStatus .. | .getNonce .. | .getLog ..
  | .flashWrite .. | .flashCommit .. | .flashCommitDone .. | .enrollKey .. | .revokeKey .. | .advanceRollback .. | .secretPut ..
  | .debugOpen .. | .debugOpenEraseDone .. | .moduleReset .. => false
  | _ => true

/-- The commands that may store to memory. -/
def Instr.stores : Instr → Bool
  | .powerOn .. | .pwrOkFall .. | .domainRelease .. | .weaveBootApply .. | .warmPrephaseDone .. | .warmPrephaseTimeout ..
  | .securityReset .. | .stakeReset .. | .registerWrite .. | .inputLoss .. | .partialCommit .. | .sealLatch .. | .stopComplete ..
  | .psqPost .. | .psqXlimitWrite .. | .mxComplete .. | .dvuRow .. | .vxComplete .. | .pvCommit .. | .pvuAssist .. | .sopen ..
  | .asuSegmentPush .. | .asuSegmentTransferDone ..
  | .scloseIssue .. | .spop .. | .sdrop .. | .sdropIssue .. | .sbind .. | .quayOpComplete .. | .quayFold .. | .quayBoundUpdate ..
  | .farAtomic .. | .rjobIssue .. | .xread .. | .sealBarge .. | .exchangeTimeout .. | .scatter8 .. | .scatter16 ..
  | .scatter32 .. | .gather .. | .jobClose .. | .kextend .. | .kwrite .. | .kgather .. | .kgatherUnmoor ..
  | .kshare .. | .kfree .. | .kbasket .. | .kvComplete .. | .init .. | .tsendIssue .. | .transferBarge .. | .tcxHalt .. | .wfi ..
  | .rtRel .. | .rtTpost .. | .rtTtake .. | .ttakeServe .. | .rtApost .. | .scratchpadAccess .. | .memoryAccess .. | .rdShared ..
  | .rdUnique .. | .rdOnce .. | .wrFull .. | .wrMasked .. | .atomic .. | .watch .. | .wback .. | .grant .. | .snoopAnswer ..
  | .snoopTimeout .. | .quayAtomicReturn .. | .lr .. | .sc .. | .bar0Access .. | .bar2Access .. | .create ..
  | .restart .. | .sqFetch .. | .sqRefetch .. | .journalCommit .. | .hifNop .. | .hifWrite .. | .copy .. | .psqLimit ..
  | .hifPsqPost .. | .hifPsqCmd .. | .pool .. | .commandComplete .. | .hifPoolDone .. | .hifPoolRingEnable .. | .unitFailure ..
  | .unitWatchdogTimeout .. | .debugOpen .. | .moduleReset .. => true
  | _ => false

end Sys2Proof
end

