-- ==== Sys2Proof/Certificates/Slice0/Obligations.lean ====
section
/-! DEFINITION. The statements for the provers. -/

open Sys2Proof Sys2Proof.Machine


/-- R350, R359, R360, R403: POWER_ON, INPUT_LOSS, PWR_OK_RISE and PWR_OK_FALL. R350, R365, R368: RAIL_ENABLE, RAIL_POWER_GOOD and RAIL_PG_TIMEOUT. -/
def Obligations.InputAndRails : Prop :=
  ((∀ s : State, s.lk.powered = false → Answers (exec .powerOn s) (fun t =>
      t.lk = { Lk.reset with powered := true } ∧ SameRegs [] State.reset t ∧ t.weave.active = false ∧ t.fuses = s.fuses ∧ t.out = s.out)) ∧
    (∀ s : State, Answers (exec .inputLoss s) (fun t =>
      t.lk = Lk.reset ∧ SameRegs [] State.reset t ∧ t.weave.active = false ∧ t.fuses = s.fuses ∧ t.out = s.out)) ∧
    (∀ s : State, s.lk.powered = true → s.lk.pwrOk = false → Answers (exec .pwrOkRise s) (fun t =>
      t.lk.pwrOk = true ∧ t.lk.railsOn = 1 ∧ t.lk.coldHold = s.lk.wrstLow ∧ t.fld R.lkStatus F.lkStatusPgFail = 0 ∧
      t.fld R.lkRail F.lkRailFailRail = 0 ∧ SameRegs [R.lkStatus, R.lkRail] s t ∧ SameMemory s t ∧ SameModule s t)) ∧
    (∀ s : State, s.lk.powered = true → s.lk.pwrOk = true → Answers (exec .pwrOkFall s) (fun t =>
      t.lk.pwrOk = false ∧ t.lk.powered = true ∧ t.lk.railsOn = 0 ∧ t.fld R.lkStatus F.lkStatusPhase = 0 ∧ t.fld R.lkCause F.lkCauseLast = 2 ∧
      t.fld R.lkStatus F.lkStatusPgFail = s.fld R.lkStatus F.lkStatusPgFail ∧
      t.fld R.lkRail F.lkRailFailRail = s.fld R.lkRail F.lkRailFailRail ∧
      SameRegs [R.lkStatus, R.lkRail, R.lkCause] State.reset t ∧ t.weave.active = false ∧ t.fuses = s.fuses))) ∧
  ((∀ s : State, s.railing = true → 1 ≤ s.lk.railsOn → s.lk.railsOn < 8 →
      exec .railEnable s = .next { s with lk := { s.lk with railsOn := s.lk.railsOn + 1 } }) ∧
    (∀ (s : State) (r : Fin 8), s.railing = true → r < s.lk.railsOn → Answers (exec (.railPowerGood r) s) (fun t =>
      t.fldBit R.lkRail F.lkRailPg r = true ∧ (∀ j, j ≠ r.val → t.fldBit R.lkRail F.lkRailPg j = s.fldBit R.lkRail F.lkRailPg j) ∧
      (t.fld R.lkStatus F.lkStatusPhase = if t.fld R.lkRail F.lkRailPg = 255 then 1 else 0) ∧
      SameRegs [R.lkStatus, R.lkRail] s t ∧ t.lk = s.lk ∧ SameMemory s t ∧ SameModule s t)) ∧
    (∀ (s : State) (r : Nat), s.railing = true → s.warming = false → r < s.lk.railsOn → r < 8 → s.fldBit R.lkRail F.lkRailPg r = false →
      (∀ j, j < r → s.fldBit R.lkRail F.lkRailPg j = true) → Answers (exec .railPgTimeout s) (fun t =>
      t.fld R.lkRail F.lkRailFailRail = r + 1 ∧ t.flag R.lkStatus F.lkStatusPgFail = true ∧ t.lk.railsOn = 0 ∧ t.lk.faultN = true ∧
      SameRegs [R.lkStatus, R.lkRail] s t ∧ SameMemory s t ∧ SameModule s t)))

/-- R366, R367: OPTION_LOAD. R355, R265, R369: ISLAND_SETTLED, HBM_STACK_READY, LK_FORCE. -/
def Obligations.OptionsIslandsAndForce : Prop :=
  (∀ (s : State) (l : List Nat) (slot c : Nat), s.lk.powered = true → s.lk.pwrOk = true → s.flag R.lkStatus F.lkStatusLoadDone = false →
      s.flag R.lkStatus F.lkStatusWrst = false → s.fld R.lkStatus F.lkStatusPhase = 1 → s.lk.optRead = true → l.length = 16 →
      (c < 12 → (∀ x ∈ l, x = c) → Answers (exec (.optionLoad l slot) s) (fun t =>
        t.fld R.lkOpt F.lkOptCode = c ∧ t.fld R.lkOpt F.lkOptRole = (if 4 ≤ c then 1 else 0) ∧
        t.fld R.lkOpt F.lkOptBoot = (if 8 ≤ c then 1 else 0) ∧ t.fld R.lkOpt F.lkOptWidth = (if c % 4 < 2 then 4 else 3) ∧
        t.fld R.lkOpt F.lkOptDebug = (if Config.policyLock then 0 else c % 2) ∧ (∀ i, i < 96 → t.fld (R.lkIsl i) F.lkIslNominal = nominalMhz i) ∧
        t.flag R.lkStatus F.lkStatusLoadDone = true ∧ t.flag R.lkStatus F.lkStatusOptBad = s.flag R.lkStatus F.lkStatusOptBad ∧
        t.fld R.lkStatus F.lkStatusPhase = 2 ∧ t.lk.slotId = slot % 16 ∧ t.lk.optRead = false)) ∧
      ((∃ x ∈ l, x % 16 ≠ l.headD 0 % 16) → s.lk.optTries < 8 →
        exec (.optionLoad l slot) s = .next { s with lk := { s.lk with slotId := slot % 16, optTries := s.lk.optTries + 1 } }) ∧
      (((∃ x ∈ l, x % 16 ≠ l.headD 0 % 16) ∧ s.lk.optTries = 8) ∨ (12 ≤ c ∧ c < 16 ∧ ∀ x ∈ l, x = c) →
        Answers (exec (.optionLoad l slot) s) (fun t =>
          t.flag R.lkStatus F.lkStatusOptBad = true ∧ t.fld R.wvStatus F.wvStatusState = 3 ∧ t.flag R.lkStatus F.lkStatusLoadDone = true ∧
          t.fld R.lkStatus F.lkStatusPhase = 2 ∧ t.lk.optRead = false))) ∧
  ((∀ (s : State) (i : Fin 96), s.fld (R.lkIsl i) F.lkIslState = 1 →
      exec (.islandSettled i) s = .next (s.setFld (R.lkIsl i) F.lkIslState 2)) ∧
    (∀ (s : State) (h : Fin 8), s.domainUp 5 = true → s.fld (R.memStatus h) F.memStatusState = 0 ∨ s.fld (R.memStatus h) F.memStatusState = 2 →
      exec (.hbmStackReady h) s = .next (s.setFld (R.memStatus h) F.memStatusState 1)) ∧
    (∀ (s : State) (d : Nat), Granted s .sec R.lkForce → s.flag R.secState F.secStateGate = true →
      s.flag R.lkStatus F.lkStatusLoadDone = true → Answers (exec (.lkForce .sec d) s) (fun t =>
      t.fld R.lkForce F.lkForceDomain = d % 1024 ∧ t.resp = .done ∧ SameMemory s t ∧ SameModule s t ∧
      ∀ n, 3 ≤ n → n < 10 → d.testBit n = true → t.domainUp n = true)) ∧
    (∀ (s : State) (m : Master) (d : Nat), Granted s m R.lkForce → m ≠ .sec ∨ s.flag R.secState F.secStateGate = false →
      Answers (exec (.lkForce m d) s) (fun t =>
      t.fld R.lkForce F.lkForceDomain = d % 1024 ∧ t.lk = s.lk ∧ SameRegs [R.lkForce, R.lkWstat m.num] s t ∧ SameMemory s t)))

/-- R355, R365, R368, R377: DOMAIN_RELEASE. -/
def Obligations.DomainsRelease : Prop :=
  ∀ (s : State) (a b : Bool) (n : Nat), s.fld R.lkStatus F.lkStatusPhase + 1 = n → s.mayRelease n = true →
    (n ≤ 7 → Answers (exec (.domainRelease a b) s) (fun t => t.fld R.lkStatus F.lkStatusPhase = n ∧
      (∀ i ∈ domainIslands n, s.fld (R.lkIsl i) F.lkIslState ≠ 2 → t.fld (R.lkIsl i) F.lkIslState = 1) ∧
      (n = 4 → t.flag R.lkSb F.lkSbCxlRst = false ∧ t.fld R.hifStatus F.hifStatusRole = s.fld R.lkOpt F.lkOptRole))) ∧
    (n = 8 → Answers (exec (.domainRelease a b) s) (fun t => t.fld R.lkStatus F.lkStatusPhase = 8 ∧ t.lk.unitsUp = true ∧
      t.weave = s.weave ∧ t.fuses = s.fuses)) ∧
    (n = 9 → s.scxBoot a b ≠ none → Answers (exec (.domainRelease a b) s) (fun t => t.fld R.lkStatus F.lkStatusPhase = 9 ∧
      t.flag R.lkSb F.lkSbReady = true ∧ t.lk.warm = false)) ∧
    (n = 9 → s.scxBoot a b = none → Answers (exec (.domainRelease a b) s) (fun t => t.fld R.lkStatus F.lkStatusPhase = 8 ∧
      t.flag R.lkSb F.lkSbFault = true))

/-- R24, R25, R378, R410: WEAVE_BOOT_APPLY. -/
def Obligations.BootWeaveApplies : Prop :=
  ∀ (s : State) (sa sb : Bool), s.domainUp 7 = true → s.weave.active = false → s.fld R.wvStatus F.wvStatusState = 0 →
    let applied := fun (b : List Byte) (src : Nat) (t : State) =>
      t.weave.active = true ∧ t.weave.cur = imgProgram b .empty ∧ t.weave.digest = imgDigest b ∧ t.fld R.wvStatus F.wvStatusState = 1 ∧
      t.fld R.wvStatus F.wvStatusSrc = src ∧ t.fld R.wvGen F.wvGenGen = 1 ∧
      t.sec.meas = setAt s.sec.meas 1 (sha384 (toBytes 48 (s.sec.meas.getD 1 0).toNat ++ toBytes 48 (imgDigest b).toNat))
    (s.fld R.lkOpt F.lkOptBoot = 0 → ∀ b, s.flashImage 2 = some b → checkWeave s b none 0xFF sa = none →
      Answers (exec (.weaveBootApply sa sb) s) (applied b 0)) ∧
    (s.fld R.lkOpt F.lkOptBoot = 0 → ∀ (b c : List Byte) (e : ImgErr), s.flashImage 2 = some b → checkWeave s b none 0xFF sa = some e →
      s.flashImage 3 = some c → checkWeave ((s.wvError e false).setFld R.wvStatus F.wvStatusSrc 1) c none 0xFF sb = none →
      Answers (exec (.weaveBootApply sa sb) s) (fun t => applied c 1 t ∧ t.fld R.wvErr F.wvErrCode = e.1 % 256)) ∧
    (s.fld R.lkOpt F.lkOptBoot = 0 → s.flashImage 2 = none → s.flashImage 3 = none → Answers (exec (.weaveBootApply sa sb) s) (fun t =>
      t.weave.active = false ∧ t.fld R.wvStatus F.wvStatusState = 3 ∧ t.fld R.wvErr F.wvErrCode = 1)) ∧
    (s.fld R.lkOpt F.lkOptBoot = 1 → s.lk.bootGo = true →
      checkWeave s (s.stagedImage (s.fld R.hifBoot F.hifBootLen)) (some (s.fld R.hifBoot F.hifBootLen)) 0xFF sa = none →
      Answers (exec (.weaveBootApply sa sb) s) (applied (s.stagedImage (s.fld R.hifBoot F.hifBootLen)) 2)) ∧
    (s.fld R.lkOpt F.lkOptBoot = 1 → s.lk.bootGo = true → ∀ e : ImgErr,
      checkWeave s (s.stagedImage (s.fld R.hifBoot F.hifBootLen)) (some (s.fld R.hifBoot F.hifBootLen)) 0xFF sa = some e →
      Answers (exec (.weaveBootApply sa sb) s) (fun t => t.weave.active = false ∧ t.fld R.wvStatus F.wvStatusState = 3 ∧
        t.fld R.wvErr F.wvErrCode = e.1 % 256 ∧ t.fld R.hifStatus F.hifStatusBoot = 3)) ∧
    (s.fld R.lkOpt F.lkOptBoot = 0 ∨ s.fld R.lkOpt F.lkOptBoot = 1 ∧ s.lk.bootGo = true → Answers (exec (.weaveBootApply sa sb) s) (fun t =>
      (t.weave.active = true ∧ t.fld R.wvStatus F.wvStatusState = 1 ∨ t.weave.active = false ∧ t.fld R.wvStatus F.wvStatusState = 3)))

/-- R359, R361, R362, R364: WRST_N_ASSERT, PCIE_HOT_RESET, FLR, WATCHDOG_EXPIRY. R360, R361, R403: WARM_PREPHASE_DONE, WARM_PREPHASE_TIMEOUT, WRST_N_DEASSERT, WRST_HOLD_RELEASE. -/
def Obligations.WarmResets : Prop :=
  (∀ s : State, s.lk.powered = true → s.lk.pwrOk = true → s.flag R.lkStatus F.lkStatusPgFail = false →
      let begun := fun (cause : Nat) (t : State) =>
        t.flag R.lkStatus F.lkStatusWrst = true ∧ t.fld R.lkStatus F.lkStatusStakeRst = 0 ∧ t.fld R.lkCause F.lkCauseLast = cause ∧
        t.fld R.lkCause F.lkCauseWarm = (s.fld R.lkCause F.lkCauseWarm + 1) % 2 ^ 32 ∧ t.lk.warmCause = cause ∧ t.fuses = s.fuses
      (s.flag R.lkStatus F.lkStatusWrst = false →
        (s.lk.wrstLow = false → Answers (exec .wrstNAssert s) (fun t => begun 3 t ∧ t.lk.wrstLow = true)) ∧
        (s.flag R.hifStatus F.hifStatusLinkUp = true → Answers (exec .pcieHotReset s) (begun 4) ∧ Answers (exec .flr s) (begun 5)) ∧
        (s.flag R.lkWdog F.lkWdogEn = true → s.fld R.lkWdog F.lkWdogLeft = 0 → Answers (exec .watchdogExpiry s) (begun 6))) ∧
      (s.flag R.lkStatus F.lkStatusWrst = true →
        exec .pcieHotReset s = .next s ∧ exec .flr s = .next s ∧ exec .watchdogExpiry s = .next s)) ∧
  ((∀ s : State, s.flag R.lkStatus F.lkStatusWrst = true → s.drained = true → Answers (exec .warmPrephaseDone s) (fun t =>
      t.flag R.lkStatus F.lkStatusWrst = false ∧ t.flag R.lkStatus F.lkStatusLoadDone = false ∧
      t.fld R.lkStatus F.lkStatusPhase = min 3 (s.fld R.lkStatus F.lkStatusPhase) ∧ t.flag R.lkWdog F.lkWdogEn = false ∧
      t.copies = [] ∧ t.l1 = [] ∧ t.resv = [] ∧ t.hq = [] ∧ t.port = s.port ∧ t.recs = s.recs ∧
      (∀ h, h < 8 → t.fld (R.memStatus h) F.memStatusState =
        if s.fld (R.memStatus h) F.memStatusState = 1 then 2 else s.fld (R.memStatus h) F.memStatusState) ∧
      t.reg R.hifCtl = s.reg R.hifCtl ∧ t.weave = s.weave ∧ t.fuses = s.fuses ∧ t.failEng = s.failEng ∧ t.failPvu = s.failPvu ∧
      t.failTc = s.failTc ∧ t.failQuay = s.failQuay ∧ t.failCh = s.failCh ∧ t.lk.warm = true ∧ t.lk.forced = 0)) ∧
    (∀ s : State, s.flag R.lkStatus F.lkStatusWrst = true → Answers (exec .warmPrephaseTimeout s) (fun t =>
      t.fld R.lkStatus F.lkStatusPhase = 0 ∧ t.fld R.lkCause F.lkCauseLast = s.lk.warmCause % 8 ∧
      t.flag R.lkCause F.lkCauseEscalated = true ∧ t.flash.captureOk = true ∧ t.flash.capture = s.takeCapture.flash.capture ∧
      t.weave.active = false ∧ t.fuses = s.fuses ∧ SameRegs [R.lkStatus, R.lkCause] State.reset t)) ∧
    (∀ s : State, s.lk.wrstLow = true → s.lk.coldHold = false →
      exec .wrstNDeassert s = .next { s with lk := { s.lk with wrstLow := false } }) ∧
    (∀ s : State, s.lk.coldHold = true →
      exec .wrstHoldRelease s = .next { s with lk := { s.lk with wrstLow := false, coldHold := false } }))

/-- R347, R360, R364, R389: WATCHDOG_TICK, LK_WDOG_KICK, SECURITY_RESET, JOURNAL_CAPTURE_DONE. -/
def Obligations.WatchdogAndSecurityReset : Prop :=
  (∀ s : State, s.flag R.lkWdog F.lkWdogEn = true →
    exec .watchdogTick s = .next (s.setFld R.lkWdog F.lkWdogLeft (s.fld R.lkWdog F.lkWdogLeft - 1))) ∧
  (∀ (s : State) (m : Master), Granted s m R.lkWdogKick → Answers (exec (.lkWdogKick m) s) (fun t =>
    t.fld R.lkWdog F.lkWdogLeft = max 1 (s.fld R.lkWdog F.lkWdogPeriod) ∧ t.flag R.lkWdog F.lkWdogEn = s.flag R.lkWdog F.lkWdogEn ∧
    t.resp = .done ∧ SameRegs [R.lkWdog, R.lkWstat m.num] s t ∧ SameMemory s t ∧ SameModule s t ∧ t.lk = s.lk)) ∧
  (∀ s : State, s.domainUp 3 = true → Answers (exec .securityReset s) (fun t =>
    t.fld R.lkStatus F.lkStatusPhase = 0 ∧ t.fld R.lkCause F.lkCauseLast = 7 ∧ t.flag R.lkCause F.lkCauseEscalated = false ∧
    t.flash.captureOk = true ∧ t.flash.capture = s.takeCapture.flash.capture ∧ t.weave.active = false ∧ t.fuses = s.fuses ∧
    SameRegs [R.lkStatus, R.lkCause] State.reset t)) ∧
  (∀ s : State, s.sec.capturing = true → Answers (exec .journalCaptureDone s) (fun t =>
    t.flash.captureOk = true ∧ t.sec.capturing = false ∧
    (∀ k, k < 16 → s.flag (R.psqJrnlStatus k) F.psqJrnlStatusOpen = true →
      t.flash.capture.getD k (0, 0) = (s.fld (R.psqJrnlStatus k) F.psqJrnlStatusEpoch, s.fld (R.psqJrnlNext k) F.psqJrnlNextNext - 1)) ∧
    SameRegs [] s t ∧ SameMemory s t ∧ t.weave = s.weave ∧ t.fuses = s.fuses))

/-- R140, R142, R144, R363: STAKE_RESET and STOP_COMPLETE. -/
def Obligations.StakeResetAndStopComplete : Prop :=
  (∀ (s : State) (m : Master) (rivals : List Master) (k : Fin 16), Granted s m R.lkCmd → s.enabled k = true → s.inStakeReset k = false →
    s.flag R.lkStatus F.lkStatusWrst = false →
    (s.pst k = stRunning → s.flag (R.psqStatus k) F.psqStatusHoldSeal = false → Answers (exec (.stakeReset m rivals k) s) (fun t =>
      t.inStakeReset k = true ∧ t.pst k = stStopping ∧ t.flag (R.psqStatus k) F.psqStatusStopPreempt = true ∧ t.resp = .done)) ∧
    (s.pst k ≠ stRunning → s.pst k ≠ stStopping → (s.q k).outst = [] → Answers (exec (.stakeReset m rivals k) s) (fun t =>
      t.inStakeReset k = false ∧ t.pst k = stIdle ∧ t.stopCause k = false ∧ (t.q k).outst = [] ∧ t.resp = .done))) ∧
  (∀ (s : State) (k : Fin 16), s.pst k = stStopping → (s.q k).outst = [] →
    (s.inStakeReset k = false → s.stopCause k = true → Answers (exec (.stopComplete k) s) (fun t =>
      t.pst k = stStopped ∧ t.flag (R.psqStatus k) F.psqStatusCtxValid = true ∧ Apart s t)) ∧
    (s.inStakeReset k = false → s.stopCause k = false → Answers (exec (.stopComplete k) s) (fun t =>
      t.pst k = stRunning ∧ t.flag (R.psqStatus k) F.psqStatusCtxValid = false ∧ Apart s t)) ∧
    (s.inStakeReset k = true → Answers (exec (.stopComplete k) s) (fun t =>
      t.pst k = stIdle ∧ t.inStakeReset k = false ∧ (t.q k).outst = [])))

/-- R347, R357, R358: SUPPLY_WARN_ASSERT, BRACE_COMPLETE, SUPPLY_WARN_DEASSERT. R356, R365: THROTTLE_CHANGE, LK_THROT.SW, LK_SB.FAULT. -/
def Obligations.BraceThrottleAndFault : Prop :=
  ((∀ s : State, s.lk.powered = true → s.lk.warnLow = false → Answers (exec .supplyWarnAssert s) (fun t =>
      t.flag R.lkStatus F.lkStatusWarn = true ∧ t.lk.warnLow = true ∧ t.sec.capturing = s.domainUp 3 ∧
      (s.domainUp 3 = true → t.flash.captureOk = false) ∧ t.weave = s.weave ∧ t.fuses = s.fuses ∧
      (s.domainUp 8 = true → ∀ k, k < 16 → s.enabled k = true → t.flag (R.psqStatus k) F.psqStatusHoldBrace = true ∧
        t.flag (R.psqJrnlStatus k) F.psqJrnlStatusClosed = true ∧ t.pst k = s.pst k))) ∧
    (∀ s : State, s.lk.warnLow = true → (∀ k, k < 16 → s.enabled k = true → s.flag (R.psqStatus k) F.psqStatusHoldBrace = true ∧
        s.flag (R.psqJrnlStatus k) F.psqJrnlStatusClosed = true ∧
        ∀ o ∈ (s.q k).outst, o.issued = true → o.isMx = false ∧ o.isVx = false ∧ o.isPv = false) →
      exec .braceComplete s = .next (s.setFld R.lkStatus F.lkStatusBraced 1)) ∧
    (∀ s : State, s.lk.warnLow = true → Answers (exec .supplyWarnDeassert s) (fun t =>
      t.flag R.lkStatus F.lkStatusWarn = false ∧ t.flag R.lkStatus F.lkStatusBraced = false ∧ t.lk.warnLow = false ∧ t.sec.capturing = false ∧
      (s.domainUp 3 = true → t.flash.captureOk = false) ∧ t.weave = s.weave ∧ t.fuses = s.fuses ∧ SameMemory s t ∧
      ∀ k, k < 16 → t.flag (R.psqStatus k) F.psqStatusHoldBrace = false ∧ t.flag (R.psqJrnlStatus k) F.psqJrnlStatusClosed = false ∧
        t.pst k = s.pst k))) ∧
  (let follows := fun (s t : State) (lv : Nat) =>
      t.fld R.lkThrot F.lkThrotLevel = lv % 4 ∧ (s.warming = false → t.flag R.lkSb F.lkSbThrot = decide (lv ≠ 0)) ∧
      (s.domainUp 8 = true → ∀ k, k < 16 → s.enabled k = true →
        t.flag (R.psqStatus k) F.psqStatusHoldThrottle = decide (lv = 3) ∧ t.pst k = s.pst k) ∧ SameMemory s t ∧ SameModule s t
    let hbm := fun (s : State) => if s.lk.hbmHot = 0 then 0 else 2
    (∀ (s : State) (tj : Nat), s.lk.powered = true → Answers (exec (.throttleChange tj) s) (fun t =>
      let lv := max (levelFor tj) (min s.lk.tjLevel (levelFor (tj + 4)))
      follows s t (max lv (max (hbm s) (s.fld R.lkThrot F.lkThrotSw))) ∧ t.lk.tjLevel = lv ∧
      t.fld R.lkThrot F.lkThrotTj = min tj 255)) ∧
    (∀ (s : State) (m : Master) (v : Nat), Granted s m R.lkThrot → Answers (exec (.lkThrotSwWrite m v) s) (fun t =>
      follows s t (max s.lk.tjLevel (max (hbm s) (v % 4))) ∧ t.fld R.lkThrot F.lkThrotSw = v % 4 ∧ t.resp = .done)) ∧
    (∀ (s : State) (m : Master) (b : Bool), Granted s m R.lkSb → Answers (exec (.lkSbFaultWrite m b) s) (fun t =>
      t.flag R.lkSb F.lkSbFault = b ∧ t.resp = .done ∧ (s.warming = false → b = true → t.lk.faultN = true) ∧
      SameRegs [R.lkSb, R.lkWstat m.num] s t ∧ SameMemory s t ∧ SameModule s t)))

/-- R307, R314: PCIE_LINK_UP, PCIE_LINK_DOWN, HIF_CTL.LINK_EN, HIF_BOOT.GO. -/
def Obligations.PcieLinkAndBootGo : Prop :=
  (∀ (s : State) (width speed : Nat) (flit : Bool), s.blockUp 4 81 = true → s.flag R.hifCtl F.hifCtlLinkEn = true →
    width < 2 ^ F.hifStatusWidth.2 → speed < 2 ^ F.hifStatusSpeed.2 → Answers (exec (.pcieLinkUp width speed flit) s) (fun t =>
    t.flag R.hifStatus F.hifStatusLinkUp = true ∧ t.fld R.hifStatus F.hifStatusWidth = width ∧ t.fld R.hifStatus F.hifStatusSpeed = speed ∧
    t.flag R.hifStatus F.hifStatusFlit = flit ∧ SameRegs [R.hifStatus] s t ∧ SameMemory s t)) ∧
  (∀ s : State, Answers (exec .pcieLinkDown s) (fun t =>
    t.flag R.hifStatus F.hifStatusLinkUp = false ∧ t.fld R.hifStatus F.hifStatusWidth = 0 ∧ SameRegs [R.hifStatus] s t ∧ SameMemory s t)) ∧
  (∀ (s : State) (m : Master) (b : Bool), Granted s m R.hifCtl → Answers (exec (.hifCtlLinkEn m b) s) (fun t =>
    t.flag R.hifCtl F.hifCtlLinkEn = b ∧ t.resp = .done ∧
    (if b then t.reg R.hifStatus = s.reg R.hifStatus else t.flag R.hifStatus F.hifStatusLinkUp = false) ∧
    SameRegs [R.hifCtl, R.hifStatus, R.lkWstat m.num] s t ∧ SameMemory s t)) ∧
  (∀ (s : State) (m : Master) (rivals : List Master) (len : Nat), Granted s m R.hifBoot → 0 < len → len ≤ 0x100000 →
    Answers (exec (.hifBootGo m rivals len) s) (fun t =>
    t.fld R.hifBoot F.hifBootLen = len ∧ t.resp = .done ∧
    (s.fld R.hifStatus F.hifStatusBoot = 1 → t.fld R.hifStatus F.hifStatusBoot = 2 ∧ t.lk.bootGo = true) ∧
    (s.fld R.hifStatus F.hifStatusBoot ≠ 1 → t.reg R.hifStatus = s.reg R.hifStatus ∧ t.lk = s.lk) ∧
    (rivals = [] → SameRegs [R.hifBoot, R.hifStatus, R.lkWstat m.num] s t) ∧ SameMemory s t)) ∧
  (∀ (s : State) (m : Master) (rivals : List Master) (len : Nat), Granted s m R.hifBoot → len = 0 ∨ 0x100000 < len ∧ len < 2 ^ 21 →
    Answers (exec (.hifBootGo m rivals len) s) (fun t => t.resp = .error ∧ SameRegs outcomeRegs s t ∧ t.lk = s.lk ∧ SameMemory s t))

/-- R10, R22, R257, R258, R370, R372, R373: REGISTER_WRITE. R390, R391: PTB_ARM. -/
def Obligations.RegisterWritesAndArming : Prop :=
  (∀ (s : State) (m : Master) (a : Nat) (v : Word),
      let dropped := fun (l : List Nat) (t : State) =>
        t.resp = .error ∧ SameRegs (if m = .host then R.hifErr :: l else l) s t ∧ SameMemory s t ∧ SameModule s t
      (a % 8 ≠ 0 ∨ isReg a = false ∨ regHere a = false → Answers (exec (.registerWrite m a v) s) (dropped [])) ∧
      (s.wrapperOpen a = false → Answers (exec (.registerWrite m a v) s) (dropped [])) ∧
      (a % 8 = 0 → isReg a = true → regHere a = true → s.wrapperOpen a = true → s.mayWrite m a = false →
        Answers (exec (.registerWrite m a v) s) (fun t => dropped [R.lkWstat m.num] t ∧
          t.fld (R.lkWstat m.num) F.lkWstatOutcome = 2 ∧ t.fld (R.lkWstat m.num) F.lkWstatAddr = a / 8 % 2 ^ F.lkWstatAddr.2)) ∧
      (∀ e, findReg a = some e → a % 8 = 0 → isReg a = true → Granted s m a →
        let b := (a - regBase) / 0x100000
        let x := (a - regBase - 0x1000000) % 0x400000 / 0x10000
        (b = 0 ∨ b = 3 ∨ b = 6 ∨ b = 8 ∨ (0x10 ≤ b ∧ b < 0x20 ∧ x ≠ 8 ∧ x ≠ 9 ∧ x ≠ 11 ∧ x ≠ 12) ∨ (0x30 ≤ b ∧ b < 0x40)) →
        Answers (exec (.registerWrite m a v) s) (fun t => t.reg a = applyWrite e.1 (s.reg a) v ∧ t.resp = .done ∧
          t.fld (R.lkWstat m.num) F.lkWstatOutcome = 1 ∧ t.fld (R.lkWstat m.num) F.lkWstatAddr = a / 8 % 2 ^ F.lkWstatAddr.2 ∧
          SameRegs [a, R.lkWstat m.num] s t ∧ SameMemory s t ∧ SameModule s t))) ∧
  (∀ (s : State) (m : Master) (v : Word), Granted s m R.ptbCtl →
      (v.fld F.ptbCtlArm = 1 → s.flag R.ptbCtl F.ptbCtlArm = false → s.ptbHarm = true → s.flag R.secState F.secStateGate = false →
        Answers (exec (.ptbArm m v) s) (fun t => t.flag R.ptbCtl F.ptbCtlArm = false ∧ t.flag R.ptbCtl F.ptbCtlRefused = true ∧
          t.sec = s.sec ∧ SameRegs [R.ptbCtl, R.lkWstat m.num] s t ∧ SameMemory s t ∧ t.weave = s.weave)) ∧
      (v.fld F.ptbCtlArm = 1 → s.flag R.ptbCtl F.ptbCtlArm = false → s.ptbHarm = false ∨ s.flag R.secState F.secStateGate = true →
        Answers (exec (.ptbArm m v) s) (fun t => t.flag R.ptbCtl F.ptbCtlArm = true ∧ t.flag R.ptbCtl F.ptbCtlRefused = false ∧
          t.sec.armed = true ∧ (t.sec.harm = true ↔ s.sec.harm = true ∨ s.ptbHarm = true) ∧
          SameRegs [R.ptbCtl, R.lkWstat m.num] s t ∧ SameMemory s t ∧ t.weave = s.weave)) ∧
      (v.fld F.ptbCtlArm = 0 → Answers (exec (.ptbArm m v) s) (fun t => t.flag R.ptbCtl F.ptbCtlArm = false ∧
        SameRegs [R.ptbCtl, R.lkWstat m.num] s t ∧ SameMemory s t ∧ t.weave = s.weave)))

/-- R27, R29, R30: WV_CMD_APPLY_PARTIAL, PARTIAL_QUIESCE_BEGIN, PARTIAL_COMMIT, QUIESCE_TIMEOUT. -/
def Obligations.PartialReweave : Prop :=
  (∀ (s : State) (m : Master) (rivals : List Master) (k : Fin 16) (ok : Bool), Granted s m R.wvCmd →
    s.flag R.wvStatus F.wvStatusPartBusy = false → s.fld R.wvStatus F.wvStatusState = 1 →
    let u := ((((s.wstat m R.wvCmd 1).supersede R.wvCmd m rivals).answer .done).setFld R.wvStatus F.wvStatusPartBusy 1).setFld R.wvStatus
      F.wvStatusPartStake k
    let a := s.fld R.wvPartAddr F.wvPartAddrAddr * 4096
    let n := s.fld R.wvPartLen F.wvPartLenLen
    n ≠ 0 → n ≤ 0x100000 → s.unreadable a n = false → checkWeave u (s.bytes a n) (some n) k ok = none →
    Answers (exec (.wvCmdApplyPartial m rivals k ok) s) (fun t =>
      t.flag R.wvStatus F.wvStatusPartBusy = true ∧ t.partStake = k ∧ t.weave.phase = 3 ∧ t.weave.cur = s.weave.cur ∧
      t.weave.part = imgProgram (s.bytes a n) s.weave.cur ∧ t.resp = .done ∧ SameMemory s t)) ∧
  (∀ s : State, s.weave.phase = 3 → s.noJobs s.partStake = true → Answers (exec .partialQuiesceBegin s) (fun t =>
    t.weave.phase = 5 ∧ t.fld R.wvStatus F.wvStatusState = 2 ∧ t.partStake = s.partStake ∧ t.weave.cur = s.weave.cur ∧
    (s.enabled s.partStake = true → t.flag (R.psqStatus s.partStake) F.psqStatusStopQuiesce = true) ∧ SameMemory s t)) ∧
  (∀ s : State, s.weave.phase = 5 → s.lk.warnLow = false → s.quiet s.partStake = true →
    (s.newStake s.partStake).eng &&& s.failEng = 0 → (s.newStake s.partStake).pvu &&& s.failPvu = 0 →
    (s.newStake s.partStake).tc &&& s.failTc = 0 → (s.newStake s.partStake).ch &&& s.failCh = 0 → Answers (exec .partialCommit s) (fun t =>
    t.weave.cur = s.weave.part ∧ t.weave.phase = 0 ∧ t.fld R.wvStatus F.wvStatusState = 1 ∧ t.flag R.wvStatus F.wvStatusPartBusy = false ∧
    t.fld R.wvGen F.wvGenGen = (s.fld R.wvGen F.wvGenGen + 1) % 2 ^ F.wvGenGen.2 ∧
    t.fld R.wvPartResult F.wvPartResultOutcome = 1 ∧ t.fuses = s.fuses)) ∧
  (∀ s : State, s.weave.phase = 5 → Answers (exec .quiesceTimeout s) (fun t =>
    t.weave.cur = s.weave.cur ∧ t.weave.phase = 0 ∧ t.fld R.wvStatus F.wvStatusState = 1 ∧ t.flag R.wvStatus F.wvStatusPartBusy = false ∧
    t.fld R.wvErr F.wvErrCode = 0x0D ∧ t.fld R.wvPartResult F.wvPartResultOutcome = 3 ∧
    t.flag (R.psqStatus s.partStake) F.psqStatusStopQuiesce = false ∧ SameMemory s t))

/-- R119, R121, R122, R124, R131: PROGRAM_FETCH, NOP, JUMP. R132, R148, R149: MBEGIN, MEND. -/
def Obligations.ProgramAndMicroBatches : Prop :=
  (∀ (s : State) (k : Fin 16) (x : Strm),
      (s.dispatching k = true → s.indexOf k x.num < s.limitOf k x.num → (s.q k).skip.testBit x.num = false →
        (s.pcOf k x.num < s.lenOf k x.num → s.headWord k x.num = none →
          s.unreadable (s.progAddr k x.num (s.pcOf k x.num / 4 * 4)) 64 = false →
          s.headFault k x.num (s.num (s.progAddr k x.num (s.pcOf k x.num)) 16) = none → Answers (exec (.programFetch k x) s) (fun t =>
            t.headWord k x.num = some (s.num (s.progAddr k x.num (s.pcOf k x.num)) 16) ∧ t.regs = s.regs ∧ SameMemory s t ∧ Apart s t)) ∧
        (s.lenOf k x.num ≤ s.pcOf k x.num → Answers (exec (.programFetch k x) s) (fun t =>
          Faulted s t k x.num 0x09 (s.indexOf k x.num) ∧ Apart s t)) ∧
        (s.pcOf k x.num < s.lenOf k x.num → s.headWord k x.num = none →
          s.unreadable (s.progAddr k x.num (s.pcOf k x.num / 4 * 4)) 64 = true → Answers (exec (.programFetch k x) s) (fun t =>
            Faulted s t k x.num 0x06 (s.indexOf k x.num) ∧ Apart s t))) ∧
      (∀ w, Ready s k x.num w → opcOf w = 0x00 → NoOverflow s k w → Answers (exec (.nop k x) s) (fun t =>
        DoneAtOnce s t k x.num w (s.pcOf k x.num + 1) ∧ SameMemory s t ∧ Apart s t)) ∧
      (∀ w, Ready s k x.num w → opcOf w = 0x01 → bits w 32 24 < s.lenOf k x.num → NoOverflow s k w → Answers (exec (.jump k x) s) (fun t =>
        DoneAtOnce s t k x.num w (bits w 32 24) ∧ SameMemory s t ∧ Apart s t)) ∧
      (∀ w, Ready s k x.num w → opcOf w = 0x01 → s.lenOf k x.num ≤ bits w 32 24 → Answers (exec (.jump k x) s) (fun t =>
        Faulted s t k x.num 0x09 (s.indexOf k x.num) ∧ Apart s t))) ∧
  (∀ (s : State) (k : Fin 16) (w : Nat),
      let m := s.fld (R.psqStatus k) F.psqStatusOpenMb
      let g := bits w 32 4
      let held := (s.diesOf k).filter (fun d => (s.as d k).frames.any (fun f => f.tag == g))
      (Ready s k 0 w → opcOf w = 0x02 →
        (m.testBit g = false → popcount 16 m < (s.stake k).mb → NoOverflow s k w → Answers (exec (.mbegin k) s) (fun t =>
          t.fld (R.psqStatus k) F.psqStatusOpenMb = setBit m g true ∧
          t.fld (R.psqStatus k) F.psqStatusOpenCount = popcount 16 (setBit m g true) % 2 ^ F.psqStatusOpenCount.2 ∧
          (∀ d ∈ s.diesOf k, (t.as d k).areas = (s.as d k).areas ++ [(g, (s.as d k).freeArea)]) ∧
          DoneAtOnce s t k 0 w (s.pcOf k 0 + 1) ∧ SameMemory s t ∧ Apart s t)) ∧
        (m.testBit g = true → Answers (exec (.mbegin k) s) (fun t => Faulted s t k 0 0x07 (s.indexOf k 0) ∧ Apart s t)) ∧
        (m.testBit g = false → (s.stake k).mb ≤ popcount 16 m → exec (.mbegin k) s = .next s)) ∧
      (Ready s k 1 w → opcOf w = 0x03 →
        (m.testBit g = true → held = [] → NoOverflow s k w → Answers (exec (.mend k) s) (fun t =>
          t.fld (R.psqStatus k) F.psqStatusOpenMb = setBit m g false ∧
          (∀ d ∈ s.diesOf k, (t.as d k).areas = (s.as d k).areas.filter (fun p => !(p.1 == g))) ∧
          DoneAtOnce s t k 1 w (s.pcOf k 1 + 1) ∧ SameMemory s t ∧ Apart s t)) ∧
        (m.testBit g = true → held ≠ [] → Answers (exec (.mend k) s) (fun t =>
          t.fld (R.psqStatus k) F.psqStatusOpenMb = m ∧ Faulted s t k 1 0x49 (s.indexOf k 1) ∧ Apart s t)) ∧
        (m.testBit g = false → Answers (exec (.mend k) s) (fun t => Faulted s t k 1 0x07 (s.indexOf k 1) ∧ Apart s t))))

/-- R120, R137, R140, R143, R144: START, STOP, RESUME, RESTORE. R120, R126, R144: PSQ_POST, PSQ_xLIMIT_WRITE. -/
def Obligations.StreamsAndPosts : Prop :=
  (∀ (s : State) (m : Master) (rivals : List Master) (k : Fin 16), Granted s m (R.psqCmd k) →
      let st := R.psqStatus k
      let refused := fun t : State => t.flag st F.psqStatusRefused = true ∧ t.pst k = s.pst k ∧
        (∀ f, (f.1 + f.2 ≤ F.psqStatusRefused.1 ∨ F.psqStatusRefused.1 + 1 ≤ f.1) → t.fld st f = s.fld st f) ∧
        SameRegs (st :: outcomeRegs) s t ∧ t.psq = s.psq ∧ SameMemory s t ∧ t.resp = .done
      let restorable := ∀ x, x < 3 → s.pcOf k x < s.lenOf k x ∧ s.indexOf k x ≤ s.limitOf k x
      (s.pst k = 1 → s.stopCause k = false → Answers (exec (.start m rivals k) s) (fun t =>
        t.pst k = 2 ∧ t.flag st F.psqStatusRefused = false ∧ t.reg (R.psqSeed k) = s.reg (R.psqSeedNext k) ∧
        (∀ x, x < 3 → t.indexOf k x = 0 ∧ t.pcOf k x = 0 ∧ t.reg (R.psqAhead k x) = 0 ∧ t.limitOf k x = s.limitOf k x) ∧
        (∀ c, c < 64 → t.tok k c = s.tok k c) ∧ SameMemory s t ∧ Apart s t)) ∧
      (s.pst k ≠ 1 → Answers (exec (.start m rivals k) s) refused) ∧
      (s.pst k = 2 → Answers (exec (.stop m rivals k) s) (fun t =>
        t.flag st F.psqStatusStopPreempt = true ∧ t.flag st F.psqStatusRefused = false ∧
        (s.flag st F.psqStatusHoldSeal = false → t.pst k = 3 ∧ ∀ o ∈ (t.q k).outst, o.issued = true ∨ o.rerun = true) ∧
        (s.flag st F.psqStatusHoldSeal = true → t.pst k = 2 ∧ t.psq = s.psq) ∧ SameMemory s t ∧ Apart s t)) ∧
      (s.pst k ≠ 2 → Answers (exec (.stop m rivals k) s) refused) ∧
      (∀ skip, s.pst k = 4 → Answers (exec (.resume m rivals k skip) s) (fun t =>
        t.pst k = (if s.flag st F.psqStatusStopQuiesce then 4 else 2) ∧ t.flag st F.psqStatusStopPreempt = false ∧
        t.flag st F.psqStatusStopFault = false ∧ t.flag st F.psqStatusStopQuiesce = s.flag st F.psqStatusStopQuiesce ∧
        (∀ x, x < 3 → t.reg (R.psqFrec0 k x) = 0 ∧ t.reg (R.psqFrec1 k x) = 0 ∧ t.indexOf k x = s.indexOf k x ∧ t.pcOf k x = s.pcOf k x ∧
          (skip.testBit x = false → t.reg (R.psqAhead k x) = s.reg (R.psqAhead k x))) ∧ SameMemory s t ∧ Apart s t)) ∧
      (∀ skip, s.pst k ≠ 4 → Answers (exec (.resume m rivals k skip) s) refused) ∧
      (s.pst k = 1 → s.stopCause k = false → restorable → Answers (exec (.restore m rivals k) s) (fun t =>
        t.pst k = 2 ∧ t.reg (R.psqSeed k) = s.reg (R.psqSeedNext k) ∧
        SameRegs (st :: R.psqSeed k :: outcomeRegs) s t ∧ SameMemory s t ∧ Apart s t)) ∧
      (s.pst k ≠ 1 ∨ ¬ restorable → Answers (exec (.restore m rivals k) s) refused)) ∧
  (∀ (s : State) (m : Master) (k : Fin 16),
      let through := s.pst k = 4 ∧ s.flag (R.psqStatus k) F.psqStatusCtxValid = true
      let area := s.fld (R.psqCtx k) F.psqCtxBase * 4096
      (∀ mask, Granted s m (R.psqPost k) → Answers (exec (.psqPost m k mask) s) (fun t =>
        (∀ c, c < 64 → t.tok k c = if mask.testBit c then min 65535 (s.tok k c + 1) else s.tok k c) ∧
        SameRegs ((List.range 16).map (R.psqToken k) ++ outcomeRegs) s t ∧ (¬ through → SameMemory s t) ∧
        (through → Writable [(area, 4096)] s →
          (∀ i, i < 16 → t.num (area + 0x100 + 8 * i) 8 = (t.reg (R.psqToken k i)).toNat) ∧
          ∀ a, (a < area ∨ area + 4096 ≤ a) → t.byte a = s.byte a) ∧ t.resp = .done ∧ Apart s t)) ∧
      (∀ (x : Strm) v, Granted s m (R.psqLimit k x.num) → s.indexOf k x.num ≤ v % 2 ^ 64 →
        Answers (exec (.psqXlimitWrite m k x v) s) (fun t =>
          t.limitOf k x.num = v % 2 ^ 64 ∧ SameRegs (R.psqLimit k x.num :: outcomeRegs) s t ∧ (¬ through → SameMemory s t) ∧
          (through → Writable [(area, 4096)] s →
            t.num (area + 0x50 + 32 * x.num) 8 = v % 2 ^ 64 ∧ ∀ a, (a < area ∨ area + 4096 ≤ a) → t.byte a = s.byte a) ∧
          t.resp = .done ∧ Apart s t)) ∧
      (∀ (x : Strm) v, Granted s m (R.psqLimit k x.num) → v % 2 ^ 64 < s.indexOf k x.num →
        Answers (exec (.psqXlimitWrite m k x v) s) (fun t =>
          SameRegs outcomeRegs s t ∧ t.resp = .error ∧ SameMemory s t ∧ Apart s t)))

/-- R133, R135, R136: SEAL, SEAL_LATCH. -/
def Obligations.StepBoundary : Prop :=
  ∀ (s : State) (k : Fin 16),
    let st := R.psqStatus k
    (∀ w, Ready s k 1 w → opcOf w = 0x04 →
      (bits w 38 7 ≠ 0 ∧ bits w 38 7 ≤ 64 ∧ bits w 32 6 + bits w 38 7 ≤ 64 → Answers (exec (.seal k) s) (fun t =>
        t.flag st F.psqStatusHoldSeal = true ∧ Taken s t k w ∧ t.indexOf k 1 = s.indexOf k 1 ∧ t.dispatching k = false ∧
        (t.q k).sealing = some (w, s.indexOf k 1, s.tset k (waitOf w)) ∧ SameMemory s t ∧ Apart s t)) ∧
      (bits w 38 7 = 0 ∨ 64 < bits w 38 7 ∨ 64 < bits w 32 6 + bits w 38 7 → Answers (exec (.seal k) s) (fun t =>
        Faulted s t k 1 0x08 (s.indexOf k 1) ∧ SameMemory s t ∧ Apart s t))) ∧
    (∀ w i m, (s.q k).sealing = some (w, i, m) → (s.q k).outst = [] → s.fld st F.psqStatusOpenMb = 0 → s.stopCause k = false →
      (w.testBit 45 = false ∨ (s.stake k).group = 0xFF) → (s.xc k).current = none → (s.xc k).queued = none →
      PostsFit s k w → Answers (exec (.sealLatch k) s) (fun t =>
        t.flag st F.psqStatusHoldSeal = false ∧ (t.q k).sealing = none ∧ t.pst k = s.pst k ∧
        t.reg (R.staStep k) = s.reg (R.psqStep k) ∧ t.reg (R.psqStep k) = s.reg (R.psqStep k) + 1 ∧
        t.reg (R.psqSeed k) = s.reg (R.psqSeedNext k) ∧
        (∀ j, j < 64 → t.slot k j = ⟨0, 0, 0⟩ ∧ t.fld (R.staMaxabs k j) F.staMaxabsMaxabs = (s.slot k j).maxabs % 2 ^ F.staMaxabsMaxabs.2 ∧
          t.reg (R.staCount k j) =
            BitVec.ofNat 64 (min (s.slot k j).nonfin (2 ^ 32 - 1) + min (s.slot k j).sat (2 ^ 32 - 1) * 2 ^ 32)) ∧
        (∀ e, e < 32 → (s.stake k).eng.testBit e = true →
          t.reg (R.staEng e 0) = s.reg (R.psqStep k) ∧ t.reg (R.staEng e 7) = s.reg (R.mxeCntMacs e) ∧ t.reg (R.mxeCntMacs e) = 0 ∧
          t.reg (R.staEng e 8) = s.reg (R.vecDvuCntRows e) ∧ t.reg (R.vecDvuCntRows e) = 0) ∧
        Posted s t k w ∧
        Advanced s t k 1 (s.pcOf k 1 + 1) ∧ t.fld (R.rdxSXstat k) F.rdxSXstatState = 0 ∧ SameMemory s t ∧ Apart s t)) ∧
    (∀ w i m, (s.q k).sealing = some (w, i, m) → (s.q k).outst = [] → s.fld st F.psqStatusOpenMb ≠ 0 →
      Answers (exec (.sealLatch k) s) (fun t =>
        Faulted s t k 1 0x08 i ∧ t.flag st F.psqStatusHoldSeal = false ∧ t.reg (R.psqStep k) = s.reg (R.psqStep k) ∧
        (∀ c, c < 64 → t.tok k c = if m.testBit c then min 65535 (s.tok k c + 1) else s.tok k c) ∧ Apart s t)) ∧
    ((s.q k).sealing = none ∨ (s.q k).outst ≠ [] → exec (.sealLatch k) s = .next s)

/-- R64, R65, R67, R83, R124, R129, R130: MXF, MXB, MXW. -/
def Obligations.MatrixDispatch : Prop :=
  ∀ (s : State) (k : Fin 16) (x : Strm),
    let go := fun (c : Instr) (opc : Nat) => ∀ w, Ready s k x.num w → opcOf w = opc →
      let p := parseMx w
      let faulted := fun code => Answers (exec c s) (fun t => Faulted s t k x.num code (s.indexOf k x.num) ∧ SameMemory s t ∧ Apart s t)
      (p.rsv = true → faulted 0x20) ∧
      (p.rsv = false → (s.stake k).eng.testBit p.eng = false → faulted 0x21) ∧
      (p.rsv = false → (s.stake k).eng.testBit p.eng = true → s.engNone k p.eng = true → faulted 0x30) ∧
      (p.rsv = false → (s.stake k).eng.testBit p.eng = true → s.engNone k p.eng = false → ∀ f b cb, s.mxCheck k x.num w = (f, b, cb) →
        (f ≠ 0 → faulted f) ∧
        (f = 0 → Answers (exec c s) (fun t => Dispatched s t k x.num w (s.engFor k p.eng) false ∧
          (t.q k).outst.getLast?.map (fun o => (o.desc, o.chain)) = some (b, cb) ∧ SameMemory s t ∧ Apart s t)))
    go (.mxf k x) 0x40 ∧ go (.mxb k x) 0x41 ∧ go (.mxw k x) 0x42

/-- R73, R75, R98, R124: MX_ISSUE, MX_COMPLETE. R80, R89, R92, R108, R115: DVU_ROW. -/
def Obligations.MatrixWork : Prop :=
  (∀ (s : State) (e : Fin 32) (k : Nat), s.engOwner e = some k →
      (∀ latch feed drain token released x o, s.nextMx k e = some o → (s.noIssue k = false ∨ o.rerun = true) → s.failEng.testBit e = false →
        s.drainRoom k e o = true → s.feederRoom k e o released = true → s.quayReady k o = true →
        Answers (exec (.mxIssue e latch feed drain token released x) s) (fun t =>
          let p := parseMx o.word
          let r := s.mxCompute p (parseMxD o.desc) ((Fmt.ofCode p.fmtx).getD .fp32) ((Fmt.ofCode p.fmtw).getD .fp32)
          (∃ q ∈ (t.q k).outst, q.seq = o.seq ∧ q.issued = true ∧ q.acc = r.1 ∧ q.accInt = r.2 ∧ q.word = o.word) ∧
          t.reg (R.mxeCntIssue e) = s.reg (R.mxeCntIssue e) + 1 ∧
          t.reg (R.mxeCntLatch e) = s.reg (R.mxeCntLatch e) + BitVec.ofNat 64 latch ∧
          t.reg (R.mxeCntToken e) = s.reg (R.mxeCntToken e) + BitVec.ofNat 64 token ∧
          (∀ c, c < 64 → t.tok k c = s.tok k c) ∧ SameMemory s t ∧ Apart s t)) ∧
      (∀ latch feed drain token released x, s.nextMx k e = none → exec (.mxIssue e latch feed drain token released x) s = .next s) ∧
      (∀ o, (s.q k).outst.find? (fun o => o.isMx && o.unit == e.val && o.issued) = some o → o.rows ≤ o.run.row → o.slicesDone = true →
        o.run.poison = false → o.prog ≠ 1 → PostsFit s k o.word → Answers (exec (.mxComplete e) s) (fun t =>
          let c := parseChain o.chain
          Completed s t k o ∧ Apart s t ∧
          (o.run.pushes = [] → c.compress = none → o.run.pv = [] →
            (c.auxOp = none → SameMemory s t) ∧
            (c.auxOp ≠ none → Lands s c.aux (4 * o.run.aux.length) → t.bytes c.aux (4 * o.run.aux.length) = fp32Bytes o.run.aux ∧
              MemoryBut [(c.aux, 4 * o.run.aux.length)] s t)))) ∧
      ((s.q k).outst.find? (fun o => o.isMx && o.unit == e.val && o.issued) = none → exec (.mxComplete e) s = .next s)) ∧
  (∀ (s : State) (e : Fin 32) (wait away k : Nat) (x : Errs), s.engOwner e = some k → s.failEng.testBit e = false →
      let passed := fun (t : State) (o : Outst) =>
        let c := parseChain o.chain
        (∃ p ∈ (t.q k).outst, p.seq = o.seq ∧ p.run.row = o.run.row + 1 ∧ p.issued = true) ∧
        t.reg (R.vecDvuCntRows e) = s.reg (R.vecDvuCntRows e) + 1 ∧ Apart s t ∧
        MemoryBut (rowStores c.dst (if c.compress.isSome then o.run.dense else o.run.row) (rowLength s k e o)) s t
      (∀ o, s.nextDrain k e = some o → s.regsWait k o = false → s.tileWait k e o = false →
        Answers (exec (.dvuRow e wait away x) s) (fun t =>
          let c := parseChain o.chain
          passed t o ∧ t.reg (R.vecDvuCntWait e) = s.reg (R.vecDvuCntWait e) + BitVec.ofNat 64 wait ∧
          (o.accInt = true → c.nops = 0 → c.dst.kind = 1 → c.dst.fmt = 9 → c.dst.mx = false →
            Lands s (c.dst.addr + o.run.row * c.dst.stride) (4 * (o.acc.getD o.run.row []).length) → ∀ n, n < (o.acc.getD o.run.row []).length →
              t.num (c.dst.addr + o.run.row * c.dst.stride + 4 * n) 4 = (o.acc.getD o.run.row []).getD n 0 % 2 ^ 32))) ∧
      (∀ o, (∀ d, s.nextDrain k e = some d → s.regsWait k d = true ∨ s.tileWait k e d = true) → s.nextVx k e = some o →
        s.regsWait k o = false → (o.issued = true ∨ s.noIssue k = false ∨ o.rerun = true) →
        Answers (exec (.dvuRow e wait away x) s) (fun t => passed t o ∧ t.reg (R.vecDvuCntWait e) = s.reg (R.vecDvuCntWait e))) ∧
      (s.nextDrain k e = none → s.nextVx k e = none → exec (.dvuRow e wait away x) s = .next s))

/-- R93, R108, R118, R124, R129, R412: VX, VX_COMPLETE. -/
def Obligations.StandaloneChains : Prop :=
  (∀ (s : State) (k : Fin 16) (x : Strm) (w : Nat), Ready s k x.num w → opcOf w = 0x50 →
    let e := bits w 32 5
    let rsv := bits w 37 3 ≠ 0 ∨ bits w 56 72 ≠ 0
    let owned := (s.stake k).eng.testBit e = true ∧ s.engNone k e = false
    let faulted := fun code => Answers (exec (.vx k x) s) (fun t =>
      Faulted s t k x.num code (s.indexOf k x.num) ∧ SameMemory s t ∧ Apart s t)
    (¬ owned → faulted 0x30) ∧
    (owned → ¬ rsv → s.readChain e (bits w 40 16) = none → faulted 0x36) ∧
    (owned → rsv → s.readChain e (bits w 40 16) = none → faulted 0x31) ∧
    (∀ b, owned → s.readChain e (bits w 40 16) = some b →
      (s.pvuBad k (e / 8) none (parseChain b) = true → faulted 0x30) ∧
      (s.pvuBad k (e / 8) none (parseChain b) = false → rsv → faulted 0x31) ∧
      (∀ f, s.pvuBad k (e / 8) none (parseChain b) = false → ¬ rsv →
        s.chainFault k x.num e (s.stake k).level none (parseChain b) = some f → faulted f) ∧
      (s.pvuBad k (e / 8) none (parseChain b) = false → ¬ rsv →
        s.chainFault k x.num e (s.stake k).level none (parseChain b) = none → Answers (exec (.vx k x) s) (fun t =>
          Dispatched s t k x.num w (s.engFor k e) false ∧ (t.q k).outst.getLast?.map (fun o => o.chain) = some b ∧
          SameMemory s t ∧ Apart s t)))) ∧
  (∀ (s : State) (e : Fin 32) (k : Nat) (o : Outst), s.engOwner e = some k →
    (s.q k).outst.find? (fun o => o.isVx && o.unit == e.val) = some o → o.issued = true → o.rows ≤ o.run.row → o.run.poison = false →
    let c := parseChain o.chain
    (o.run.overrun = false → PostsFit s k o.word → Answers (exec (.vxComplete e) s) (fun t =>
      Completed s t k o ∧ Apart s t ∧
      (o.run.pushes = [] → c.compress = none → c.auxOp = none → o.run.pv = [] → SameMemory s t))) ∧
    (o.run.overrun = true → Answers (exec (.vxComplete e) s) (fun t =>
      (PostsFit s k o.word → Faulted s t k o.strm 0x3A o.index) ∧ Apart s t)))

/-- R112, R113, R115, R118, R124, R129: PV_OP, PV_LD, PV_ST, PV_SPLAT, PV_LRED, PV_BCAST, PV_CMPGT, PV_SEL. R111, R113, R114, R115, R116, R118: PV_COMMIT, PVU_ASSIST. -/
def Obligations.PvInstructions : Prop :=
  (∀ (s : State) (k : Fin 16) (x : Strm),
      let go := fun (c : Instr) (mine : Nat → Prop) => ∀ w, Ready s k x.num w → opcOf w = 0x58 → mine (bits w 40 8) →
        let v := bits w 32 3
        let able := (s.stake k).pvu.testBit v = true ∧ s.pvuAble k v = true
        let faulted := fun code => Answers (exec c s) (fun t => Faulted s t k x.num code (s.indexOf k x.num) ∧ SameMemory s t ∧ Apart s t)
        (¬ able → faulted 0x30) ∧ (∀ f, able → s.pvFault k w = some f → faulted f) ∧
        (able → s.pvFault k w = none → Answers (exec c s) (fun t => Dispatched s t k x.num w v true ∧ SameMemory s t ∧ Apart s t))
      go (.pvOp k x) (fun p => p < 0x60 ∨ 0x66 < p) ∧ go (.pvLd k x) (fun p => p = 0x60) ∧ go (.pvSt k x) (fun p => p = 0x61) ∧
      go (.pvSplat k x) (fun p => p = 0x62) ∧ go (.pvLred k x) (fun p => p = 0x63) ∧ go (.pvBcast k x) (fun p => p = 0x64) ∧
      go (.pvCmpgt k x) (fun p => p = 0x65) ∧ go (.pvSel k x) (fun p => p = 0x66)) ∧
  (∀ (s : State) (v : Fin 8) (k : Nat) (x : Errs), s.pvuOwner v = some k → s.pvuAble k v = true →
      let back := fun w => s.fld (R.vecPvuBack v) F.vecPvuBackBase * 0x8000 + 1024 * bits w 48 5
      let done := fun (t : State) (w : Nat) (r : List Nat) =>
        (∀ n, n ≠ bits w 48 5 → t.pvReg v n = s.pvReg v n) ∧ t.pvReg v (bits w 48 5) = r ∧
        t.reg (R.vecPvuCntOps v) = s.reg (R.vecPvuCntOps v) + 1
      let result := fun w => pvResult w (s.pvReg v (bits w 48 5)) (s.pvReg v (bits w 53 5)) (s.pvReg v (bits w 58 5))
      (∀ o, (s.q k).outst.find? (fun o => o.isPv && o.unit == v.val) = some o → s.regsBusy k o.seq o.turn (pvRegs o.word) = false →
        PostsFit s k o.word →
        let op := bits o.word 40 8
        let d := pvStream o.word
        (op ≠ 0x60 → op ≠ 0x61 → (result o.word).length = 256 → Answers (exec (.pvCommit v x) s) (fun t =>
          done t o.word (result o.word) ∧ Completed s t k o ∧ MemoryBut [(back o.word, 1024)] s t ∧
          (Lands s (back o.word) 1024 → t.bytes (back o.word) 1024 = fp32Bytes (result o.word)) ∧ Apart s t)) ∧
        (op = 0x60 → (s.pvErrs v o.word x).memRowBad d 0 256 = false → Answers (exec (.pvCommit v x) s) (fun t =>
          done t o.word (s.memRow d 0 256) ∧ Completed s t k o ∧ MemoryBut [(back o.word, 1024)] s t ∧ Apart s t)) ∧
        (op = 0x60 → (s.pvErrs v o.word x).memRowBad d 0 256 = true → Answers (exec (.pvCommit v x) s) (fun t =>
          done t o.word (List.replicate 256 nan32) ∧ Faulted s t k o.strm 0x3B o.index ∧ MemoryBut [(back o.word, 1024)] s t ∧ Apart s t)) ∧
        (op = 0x61 → (s.pvReg v (bits o.word 53 5)).length = 256 → Answers (exec (.pvCommit v x) s) (fun t =>
          (∀ n, t.pvReg v n = s.pvReg v n) ∧ Completed s t k o ∧ MemoryBut [(d.addr, d.rowLen 256)] s t ∧ Apart s t))) ∧
      (let c := s.pv v
       let base := s.fld (R.vecPvuAq v) F.vecPvuAqBase * 4096
       let w := s.num (base + 16 * (c.tail % 64)) 16
       c.tail < c.head → s.flag (R.vecPvuAq v) F.vecPvuAqEnable = true → s.unreadable (base + 16 * (c.tail % 64)) 16 = false →
       Lands s (base + 0x400) 8 →
       (s.assistFault k v w = none → (s.q k).outst = [] → bits w 40 8 ≠ 0x60 →
         bits w 40 8 ≠ 0x61 → (result w).length = 256 → (back w + 1024 ≤ base + 0x400 ∨ base + 0x408 ≤ back w) →
         Answers (exec (.pvuAssist v x) s) (fun t =>
           done t w (result w) ∧ (t.pv v).tail = c.tail + 1 ∧ (t.pv v).head = c.head ∧
           t.num (base + 0x400) 8 = (s.num (base + 0x400) 8 + 1) % 2 ^ 64 ∧ MemoryBut [(back w, 1024), (base + 0x400, 8)] s t ∧ Apart s t)) ∧
       (∀ f, s.assistFault k v w = some f → Answers (exec (.pvuAssist v x) s) (fun t =>
         (∀ n, t.pvReg v n = s.pvReg v n) ∧ (t.pv v).tail = c.tail + 1 ∧ t.fld (R.vecPvuErr v) F.vecPvuErrCode = f % 2 ^ F.vecPvuErrCode.2 ∧
         t.flag (R.vecPvuErr v) F.vecPvuErrAssist = true ∧ t.num (base + 0x400) 8 = (s.num (base + 0x400) 8 + 1) % 2 ^ 64 ∧
         MemoryBut [(base + 0x400, 8)] s t ∧ Apart s t))))

/-- R150, R152, R153, R156, R167: SOPEN, SCLOSE, SCLOSE_ISSUE. -/
def Obligations.FramesOpenAndClose : Prop :=
  ∀ (s : State) (k : Fin 16),
    (∀ (x : Strm) w, Ready s k x.num w → opcOf w = 0x18 →
      let d := bits w 32 2
      let tag := bits w 36 4
      let c := s.as d k
      let faulted := fun code => Answers (exec (.sopen k x) s) (fun t => Faulted s t k x.num code (s.indexOf k x.num) ∧
        t.fld (R.asuErr d) F.asuErrCode = code ∧ (t.as d k).frames.map (fun f => (f.tag, f.start, f.state)) = c.frames.map (fun f => (f.tag, f.start, f.state)) ∧ SameMemory s t ∧ Apart s t)
      let opened := (s.fld (R.psqStatus k) F.psqStatusOpenMb).testBit tag
      (sopenBad w = true → faulted 0x40) ∧ (sopenBad w = false → d ∉ s.diesOf k → faulted 0x41) ∧
      (sopenBad w = false → d ∈ s.diesOf k → (opened = false → faulted 0x42) ∧ (opened = true → c.openOf x.num ≠ none → faulted 0x43) ∧
        ∀ f, f = (⟨tag, c.topOf tag, bits w 64 32, bits w 40 6, bits w 96 8, bit w 104, bits w 48 16, x.num, false, false, false, 0⟩ : Frame) →
        opened = true → c.openOf x.num = none → tag ∉ c.unread →
        (f.segs = 0 ∨ s.areaSegs k < f.start + f.height → faulted 0x44) ∧
        (f.segs ≠ 0 → f.start + f.height ≤ s.areaSegs k → NoOverflow s k w → Answers (exec (.sopen k x) s) (fun t =>
          let a := s.trailerAddr d k f
          (t.as d k).frames = c.frames ++ [f] ∧ DoneAtOnce s t k x.num w (s.pcOf k x.num + 1) ∧ MemoryBut [(a, 64)] s t ∧
          (Lands s a 64 → t.num a 2 = f.label ∧ t.num (a + 2) 1 = f.fmt ∧ t.num (a + 3) 1 = x.num ∧ t.num (a + 4) 4 = f.segs ∧
            t.num (a + 8) 4 = f.start % 2 ^ 32) ∧ Apart s t)))) ∧
    (∀ (x : Strm) w, Ready s k x.num w → opcOf w = 0x19 → bits w 34 94 = 0 → bits w 32 2 ∈ s.diesOf k →
      let d := bits w 32 2
      ((s.as d k).openOf x.num = none → Answers (exec (.sclose k x) s) (fun t =>
        Faulted s t k x.num 0x43 (s.indexOf k x.num) ∧ SameMemory s t ∧ Apart s t)) ∧
      (∀ f, (s.as d k).openOf x.num = some f → f.tag ∉ (s.as d k).unread → s.bad (s.trailerAddr d k f) 64 = false →
        Answers (exec (.sclose k x) s) (fun t => Dispatched s t k x.num w d false ∧
          (t.q k).outst.getLast?.map (fun o => o.pushTo) = some (frameId d f) ∧ SameMemory s t ∧ Apart s t))) ∧
    (∀ o, (List.range 4).findSome? (fun d => (s.nextAsu d k).filter (s.scloseReady k)) = some o → s.noIssue k = false →
      PostsFit s k o.word →
      let mine := (s.as o.unit k).frames.filter (fun f => decide (frameId o.unit f = o.pushTo ∧ f.state = o.strm))
      Answers (exec (.scloseIssue k) s) (fun t => Completed s t k o ∧
        (∀ f ∈ mine, ∃ g ∈ (t.as o.unit k).frames, g.tag = f.tag ∧ g.start = f.start ∧ g.segs = f.segs ∧ g.state = 2) ∧
        (t.as o.unit k).frames.length = (s.as o.unit k).frames.length ∧
        MemoryBut (mine.map (fun f => (s.trailerAddr o.unit k f, 64))) s t ∧ Apart s t)) ∧
    ((s.q k).outst = [] → exec (.scloseIssue k) s = .next s)

/-- R157, R158, R160, R162: SPOP, SBIND. R158, R159: SDROP, SDROP_ISSUE. -/
def Obligations.FramesPopBindDrop : Prop :=
  (∀ (s : State) (k : Fin 16) (w : Nat), Ready s k 1 w →
      let d := bits w 32 2
      let c := s.as d k
      let n := bits w 46 1
      let faulted := fun i code => Answers (exec i s) (fun t => Faulted s t k 1 code (s.indexOf k 1) ∧
        t.fld (R.asuErr d) F.asuErrCode = code ∧ (t.as d k).frames.map (fun f => (f.tag, f.start, f.state)) = c.frames.map (fun f => (f.tag, f.start, f.state)) ∧ SameMemory s t ∧ Apart s t)
      (opcOf w = 0x1A → bits w 34 2 = 0 → bits w 40 6 = 0 → bits w 64 64 = 0 → d ∈ s.diesOf k → bits w 36 4 ∉ c.unread →
        let closed := c.frames.filter (fun f => f.tag == bits w 36 4 && f.state == 2)
        (closed = [] → faulted (.spop k) 0x46) ∧
        (∀ f g, closed.getLast? = some f → c.slotOf n = some g →
          (g.dropping = false → faulted (.spop k) 0x43) ∧ (g.dropping = true → exec (.spop k) s = .next s)) ∧
        (∀ f, closed.getLast? = some f → c.slotOf n = none →
          (w.testBit 47 = true → f.label ≠ bits w 48 16 → faulted (.spop k) 0x47) ∧
          ((w.testBit 47 = false ∨ f.label = bits w 48 16) → s.bad (s.trailerAddr d k f) 64 = false → NoOverflow s k w →
            Answers (exec (.spop k) s) (fun t => ((t.as d k).slotOf n).map (fun g => (g.tag, g.start)) = some (f.tag, f.start) ∧
              (t.as d k).frames.length = c.frames.length ∧ DoneAtOnce s t k 1 w (s.pcOf k 1 + 1) ∧
              MemoryBut ((c.frames.filter (fun g => g.tag == f.tag && g.start == f.start)).map (fun g => (s.trailerAddr d k g, 64))) s t ∧
              Apart s t)))) ∧
      (opcOf w = 0x1C → bits w 34 12 = 0 → bits w 47 17 = 0 → bits w 116 12 = 0 → d ∈ s.diesOf k →
        let a := bits w 64 52
        (c.slotOf n = none → faulted (.sbind k) 0x48) ∧
        (∀ f, c.slotOf n = some f → (f.dropping = true ∨ a % 64 ≠ 0 ∨ s.inStake k a 16 = false) → faulted (.sbind k) 0x48) ∧
        (∀ f, c.slotOf n = some f → f.dropping = false → a % 64 = 0 → s.inStake k a 16 = true → NoOverflow s k w →
          Answers (exec (.sbind k) s) (fun t =>
            (Lands s a 16 → t.num a 8 = s.frameBase d k f % 2 ^ 64 ∧
              t.num (a + 8) 8 = if f.scaled then s.scaleBase d k f % 2 ^ 64 else 0) ∧
            MemoryBut [(a, 16)] s t ∧ (∀ p ∈ f.parts, p ∉ (t.as d k).pool) ∧ (∀ p ∈ (t.as d k).pool, p ∈ c.pool) ∧
            DoneAtOnce s t k 1 w (s.pcOf k 1 + 1) ∧ Apart s t)))) ∧
  (∀ (s : State) (k : Fin 16),
      (∀ w, Ready s k 1 w → opcOf w = 0x1B → bits w 34 12 = 0 → bits w 47 81 = 0 → bits w 32 2 ∈ s.diesOf k →
        let d := bits w 32 2
        let c := s.as d k
        let n := bits w 46 1
        ((∀ f, c.slotOf n = some f → f.dropping = true) → Answers (exec (.sdrop k) s) (fun t =>
          Faulted s t k 1 0x43 (s.indexOf k 1) ∧ SameMemory s t ∧ Apart s t)) ∧
        (∀ f, c.slotOf n = some f → f.dropping = false → f.tag ∉ c.unread → s.bad (s.trailerAddr d k f) 64 = false →
          (∀ g ∈ c.walked f, s.bad (s.trailerAddr d k g) 64 = false) →
          Answers (exec (.sdrop k) s) (fun t => Dispatched s t k 1 w d false ∧
            (t.q k).outst.getLast?.map (fun o => o.frame) = some (frameId d f) ∧
            (∀ g ∈ (t.as d k).frames, g.state = 3 + n → g.dropping = true) ∧ SameMemory s t ∧ Apart s t))) ∧
      (∀ o, (List.range 4).findSome? (fun d => (s.nextAsu d k).filter (s.sdropReady k)) = some o → s.noIssue k = false →
        ∀ f, (s.as o.unit k).slotOf (bits o.word 46 1) = some f → PostsFit s k o.word →
        ((s.as o.unit k).frames.map (fun f => (f.tag, f.start))).Nodup →
        let c := s.as o.unit k
        Answers (exec (.sdropIssue k) s) (fun t =>
          (t.as o.unit k).slotOf (bits o.word 46 1) = none ∧
          (∀ g, ((t.as o.unit k).frames.filter (fun g => g.tag == f.tag)).getLast? = some g → g.state ≠ 5) ∧
          (∀ g ∈ c.frames, g.tag ≠ f.tag → g.state ≠ f.state → g ∈ (t.as o.unit k).frames) ∧
          MemoryBut ((c.frames.filter (fun g => g.state == f.state)).map (fun g => (s.trailerAddr o.unit k g, 64))) s t ∧
          Completed s t k o ∧ Apart s t)) ∧
      ((s.q k).outst = [] → exec (.sdropIssue k) s = .next s))

/-- R161, R162, R163: ASU_SEGMENT_PUSH, ASU_SEGMENT_TRANSFER_DONE. -/
def Obligations.Residency : Prop :=
  ∀ (s : State) (d : Fin 4) (k : Fin 16) (x : Errs),
    let c := s.as d k
    let cap := s.poolSegs d k
    let kept := fun t : State => (t.as d k).frames = c.frames ∧ (∀ i, (t.q i).outst = (s.q i).outst) ∧ Apart s t
    (∀ p rest, c.pushq = p :: rest →
      (p ∈ c.pool → Answers (exec (.asuSegmentPush d k x) s) (fun t =>
        (t.as d k).pool = c.pool ∧ (t.as d k).pushq = rest ∧ t.regs = s.regs ∧ SameMemory s t ∧ kept t)) ∧
      (p ∉ c.pool → c.pool.length < cap → Answers (exec (.asuSegmentPush d k x) s) (fun t =>
        (t.as d k).pool = c.pool ++ [p] ∧ (t.as d k).pushq = rest ∧ t.regs = s.regs ∧ SameMemory s t ∧ kept t)) ∧
      (p ∉ c.pool → cap ≤ c.pool.length → s.noSpill k = true → exec (.asuSegmentPush d k x) s = .next s) ∧
      (∀ f, p ∉ c.pool → cap ≤ c.pool.length → 0 < cap → c.victim = some f → p ∉ f.parts → s.noSpill k = false →
        Answers (exec (.asuSegmentPush d k x) s) (fun t =>
        p ∈ (t.as d k).pool ∧ (∀ q ∈ f.parts, q ∉ (t.as d k).pool) ∧ (∀ q ∈ c.pool, q ∉ f.parts → q ∈ (t.as d k).pool) ∧
        SameRegs (R.asuSCntSpill d k :: errorRegs) s t ∧ (s.nearSegs d k = 0 → SameMemory s t) ∧
        MemoryBut [(s.fld (R.asuSNear d k) F.asuSNearBase * 0x200000, 4096 * max (s.nearSegs d k) c.near.length)] s t ∧ kept t)) ∧
      (p ∉ c.pool → cap ≤ c.pool.length → s.noSpill k = false → (cap = 0 ∨ c.victim = none) →
        Answers (exec (.asuSegmentPush d k x) s) (fun t => (t.as d k).pool = c.pool ∧ (t.as d k).pushq = rest ∧
          t.reg (R.asuSCntSpill d k) = s.reg (R.asuSCntSpill d k) + 1 ∧ SameRegs [R.asuSCntSpill d k] s t ∧ SameMemory s t ∧ kept t))) ∧
    (c.pushq = [] → exec (.asuSegmentPush d k x) s = .next s) ∧
    (∀ p rest, c.xferq = p :: rest → p ∉ c.pool → c.pool.length < cap → Answers (exec (.asuSegmentTransferDone d k x) s) (fun t =>
      (t.as d k).pool = c.pool ++ [p] ∧ (t.as d k).xferq = rest ∧ t.reg (R.asuSCntFetch d k) = s.reg (R.asuSCntFetch d k) + 1 ∧
      SameRegs (R.asuSCntFetch d k :: errorRegs) s t ∧ SameMemory s t ∧ kept t)) ∧
    (c.xferq = [] → exec (.asuSegmentTransferDone d k x) s = .next s)

/-- R185, R186, R187, R124, R129: QUPD, QBIND, QCLR, QEMIT. R176, R178, R179, R182, R185: QUAY_OP_COMPLETE. -/
def Obligations.QuayOperations : Prop :=
  (∀ (s : State) (k : Fin 16) (w : Nat), Ready s k 2 w →
      let faulted := fun c code => Answers (exec c s) (fun t => Faulted s t k 2 code (s.indexOf k 2) ∧ t.binds = s.binds ∧
        SameMemory s t ∧ Apart s t)
      let op := fun (c : Instr) (opc : Nat) => opcOf w = opc →
        let bad := bits w 32 32 ≠ 0 ∨ bits w 116 12 ≠ 0
        let f := s.quayFault k (bits w 64 52) none
        (bad → faulted c 0x50) ∧ (¬ bad → f ≠ 0 → faulted c f) ∧
        (∀ b mp, ¬ bad → f = 0 → s.readQuay (bits w 64 52) = some (b, mp) → Answers (exec c s) (fun t =>
          Dispatched s t k 2 w 0 true ∧ (t.q k).outst.getLast?.map (fun o => (o.desc, o.chain)) = some (b, mp) ∧
          (∀ q ∈ ((parseQuay b).tensor (s.gsize k)).units (s.gsize k), (t.qu q).trig = (s.qu q).trig ++ [.op k (s.q k).fresh]) ∧
          SameMemory s t ∧ Apart s t))
      op (.qupd k) 0x28 ∧ op (.qclr k) 0x2A ∧ op (.qemit k) 0x2B ∧
      (opcOf w = 0x29 →
        let bad := bits w 38 26 ≠ 0 ∨ bits w 116 12 ≠ 0
        let f := s.quayFault k (bits w 64 52) (some (bits w 32 6))
        (bad → faulted (.qbind k) 0x50) ∧ (¬ bad → f ≠ 0 → faulted (.qbind k) f) ∧
        (∀ b mp, ¬ bad → f = 0 → s.readQuay (bits w 64 52) = some (b, mp) → NoOverflow s k w → Answers (exec (.qbind k) s) (fun t =>
          t.binds = s.binds ++ [⟨bits w 32 6, k, b, mp, s.fld (R.psqStep k) (0, 32), s.indexOf k 2⟩] ∧
          DoneAtOnce s t k 2 w (s.pcOf k 2 + 1) ∧ SameMemory s t ∧ Apart s t)))) ∧
  (∀ (s : State) (k : Fin 16) (wait : Nat) (x : Errs), NoJobWaits s →
      let ops := (s.q k).outst.filter (fun o => [0x28, 0x2A, 0x2B].contains (opcOf o.word))
      let next := ops.find? (fun o => (s.opUnits k o).all (s.opFree k o))
      let c := Instr.quayOpComplete k wait x
      (∀ o, next = some o → s.quayHalt = false → PostsFit s k o.word →
        let d := parseQuay o.desc
        let g := s.gsize k
        let acc := accOff (s.stake k).master12
        let addr := fun (p : Nat × Nat) => d.group g p.1 p.2
        let copies := (groupsOf d).flatMap (fun p => copyStores d p.1 p.2)
        let ended := fun (t : State) => Completed s t k o ∧ (∀ q ∈ s.opUnits k o, Trig.op k o.seq ∉ (t.qu q).trig) ∧ Apart s t
        (opcOf o.word = 0x2A → (∀ p ∈ groupsOf d, Lands s (addr p + acc) 256) → Answers (exec c s) (fun t =>
          (∀ p ∈ groupsOf d, t.fp64s (addr p + acc) = List.replicate 64 0) ∧
          MemoryBut ((groupsOf d).map (fun p => (addr p + acc, 256))) s t ∧ ended t)) ∧
        (opcOf o.word = 0x28 → Corrected x → (∀ p ∈ groupsOf d, s.unreadable (addr p) acc = false ∧ s.unreadable (addr p + acc) 256 = false ∧
            s.scaleBad d p.1 = false) →
          Answers (exec c s) (fun t => MemoryBut ((groupsOf d).map (fun p => (addr p, g)) ++ copies) s t ∧ ended t ∧
            (d.rows = 1 → d.cols = 64 → Writable [(addr (0, 0), 1024)] s → (∀ r ∈ copies, r.1 + r.2 ≤ d.rbase ∨ d.rbase + g ≤ r.1) →
              Updated s t k d (microWords o.chain) 0 0 ((s.fp64s (d.rbase + acc)).map (fun v => mul32 v d.gscale))))) ∧
        (opcOf o.word = 0x2B → Corrected x → (∀ p ∈ groupsOf d, s.badMasters (addr p) = [] ∧ s.scaleBad d p.1 = false) →
          Answers (exec c s) (fun t => MemoryBut copies s t ∧ ended t))) ∧
      (next = none ∨ s.quayHalt = true → Answers (exec c s) (fun t =>
        SameRegs ((List.range 16).map (fun q => R.quySCntHold q k)) s t ∧ t.quay = s.quay ∧ t.q k = s.q k ∧ SameMemory s t ∧ Apart s t)))

/-- R101, R174, R178, R189: QUAY_RESERVE, QUAY_RESERVATION_GRANT, QUAY_SLICE_ARRIVE, REDUCED_BLOCK_ARRIVE. -/
def Obligations.QuayStaging : Prop :=
  (∀ (s : State) (e : Fin 32) (wait k : Nat) (o : Outst), s.engOwner e = some k → s.nextMx k e = some o →
    o.strm < 3 → (parseChain o.chain).dst.kind = 6 → s.quayBlocked k o = false → (s.noIssue k = false ∨ o.rerun = true) →
    let mine : Nat → Resv := fun n => ⟨k, o.seq, n⟩
    let lost := (s.quayShares k o).any (fun p => s.quayLost p.1)
    (lost = true → Answers (exec (.quayReserve e wait) s) (fun t =>
      (s.flag (R.psqFrec0 k o.strm) F.psqFrec0Valid = false → t.fld (R.psqFrec0 k o.strm) F.psqFrec0Code = 0x58) ∧
      t.flag (R.psqStatus k) F.psqStatusStopFault = true ∧ SameMemory s t ∧ Apart s t)) ∧
    (∀ q n, lost = false → (s.quayNeeds k o).find? (fun p => !(s.reserved k o p.1)) = some (q, n) →
      (s.qu q).waiting.any (fun r => r.stake == k && r.seq == o.seq) = false → Answers (exec (.quayReserve e wait) s) (fun t =>
        t.reg (R.mxeCntDrain e) = s.reg (R.mxeCntDrain e) + BitVec.ofNat 64 wait ∧
        ((s.qu q).waiting = [] → s.fits q n = true → (t.qu q).resv = (s.qu q).resv ++ [mine n] ∧ (t.qu q).waiting = []) ∧
        (((s.qu q).waiting ≠ [] ∨ s.fits q n = false) → (t.qu q).resv = (s.qu q).resv ∧ (t.qu q).waiting = (s.qu q).waiting ++ [mine n]) ∧
        SameMemory s t ∧ Apart s t))) ∧
  (∀ (s : State) (q : Fin 16) (wait : Nat),
    ((s.qu q).waiting = [] → exec (.quayReservationGrant q wait) s = .next s) ∧
    (∀ r rest, (s.qu q).waiting = r :: rest →
      (s.fits q r.slices = true → r.stake < 16 → Answers (exec (.quayReservationGrant q wait) s) (fun t =>
        (t.qu q).resv = (s.qu q).resv ++ [r] ∧ (t.qu q).waiting = rest ∧
        t.reg (R.quySCntResv q r.stake) = s.reg (R.quySCntResv q r.stake) + BitVec.ofNat 64 wait ∧ SameMemory s t ∧ Apart s t)) ∧
      (s.fits q r.slices = false → exec (.quayReservationGrant q wait) s = .next s)) ∧
    ((s.qu q).inbox = [] → exec (.reducedBlockArrive q) s = .next s) ∧
    (∀ b rest, (s.qu q).inbox = b :: rest → s.quayLost q = false →
      let room := s.staging q + 128 ≤ 4194304 ∧ (s.quayDegraded q = true ∨ s.staging (q.val ^^^ 1) + 128 ≤ 4194304)
      let i := b.block / 2
      let pair := (s.qu q).blocks.any (fun c => c.job == b.job && c.block / 2 == i)
      (b.final = false → Answers (exec (.reducedBlockArrive q) s) (fun t =>
        (t.qu q).inbox = rest ∧ (t.qu q).blocks = (s.qu q).blocks ∧ (t.qu q).trig = (s.qu q).trig ∧ SameMemory s t ∧ Apart s t)) ∧
      (b.final = true → ¬ room → exec (.reducedBlockArrive q) s = .next s) ∧
      (b.final = true → room → Answers (exec (.reducedBlockArrive q) s) (fun t =>
        (t.qu q).inbox = rest ∧ (t.qu q).blocks = (s.qu q).blocks ++ [b] ∧
        (t.qu q).trig = (s.qu q).trig ++ (if pair then [Trig.upd b.job i] else []) ∧
        (s.quayDegraded q = false → (t.qu (q.val ^^^ 1)).blockMirror = (s.qu (q.val ^^^ 1)).blockMirror ++ [b]) ∧
        SameMemory s t ∧ Apart s t)))) ∧
  (∀ (s : State) (e : Fin 32) (k : Nat) (o : Outst), s.engOwner e = some k →
    (s.q k).outst.find? (fun o => o.isMx && o.unit == e.val && o.issued && !o.slicesDone) = some o →
    let tile := o.run.sent / o.mn.2
    let lane := o.run.sent % o.mn.2
    let a := sliceAddr (s.stake k).master12 (parseChain o.chain) lane tile
    let q := octetOf a
    let v : Slice := ⟨k, o.seq, a, (List.range 64).map (fun j => (o.run.tile.getD (64 * tile + j) []).getD lane 0), o.run.poison⟩
    (64 * (tile + 1) ≤ o.run.row → Answers (exec (.quaySliceArrive e) s) (fun t =>
      (t.qu q).staged = (s.qu q).staged ++ [v] ∧
      (t.qu (q ^^^ 1)).mirror = (if s.quayDegraded q then (s.qu (q ^^^ 1)).mirror else (s.qu (q ^^^ 1)).mirror ++ [v]) ∧
      (∃ p ∈ (t.q k).outst, p.seq = o.seq ∧ p.run.sent = o.run.sent + 1) ∧ t.regs = s.regs ∧ SameMemory s t ∧ Apart s t)) ∧
    (o.run.row < 64 * (tile + 1) → exec (.quaySliceArrive e) s = .next s))

/-- R176, R177, R178, R188: QUAY_FOLD, QUAY_BOUND_UPDATE, FAR_ATOMIC. -/
def Obligations.FoldsAndFarAtomics : Prop :=
  ∀ (s : State) (q : Fin 16) (wait : Nat) (x : Errs), s.quayLost q = false → NoJobWaits s → Corrected x →
    let trig := (s.qu q).trig
    (∀ p k n, (s.qu q).placeOf (s.foldTurn q) = some p → trig[p]? = some (.fold k n) → s.quayHalt = false →
      let l := s.foldable q p k n
      let acc := fun (v : Slice) => v.addr + accOff (s.stake v.stake).master12
      Answers (exec (.quayFold q wait x) s) (fun t =>
        (t.qu q).staged = (s.qu q).staged.filter (fun v => !(l.contains v)) ∧
        (t.qu q).trig = (if (s.qu q).slicesOf k n = l then trig.eraseIdx p else trig) ∧
        MemoryBut (l.map (fun v => (acc v, 256))) s t ∧
        (∀ v, l = [v] → v.poison = false → x.unc = 0 → s.unreadable (acc v) 256 = false → v.vals.length = 64 →
          Lands s (acc v) 256 → ∀ j, j < 64 →
            t.num (acc v + 4 * j) 4 = add32 (s.num (acc v + 4 * j) 4) (v.vals.getD j 0) % 2 ^ 32) ∧ Apart s t)) ∧
    ((s.qu q).placeOf (s.foldTurn q) = none ∨ s.quayHalt = true → Answers (exec (.quayFold q wait x) s) (fun t =>
      (∀ a, (∀ u k, a ≠ R.quySCntHold u k) → t.reg a = s.reg a) ∧ t.quay = s.quay ∧
      SameMemory s t ∧ Apart s t)) ∧
    (∀ p id i b c j bd, (s.qu q).placeOf (s.updTurn q) = some p → trig[p]? = some (.upd id i) → s.quayHalt = false →
      (s.qu q).blocks.find? (fun b => b.job == id && b.block == 2 * i) = some b →
      (s.qu q).blocks.find? (fun b => b.job == id && b.block == 2 * i + 1) = some c → s.job id = some j → id < 64 → j.stake < 16 →
      let a := (jobGroups (s.gsize j.stake) j.desc).getD i 0
      s.bindOf id a = some bd → b.poison = false → c.poison = false → x.unc = 0 →
      let d := parseQuay bd.desc
      let g := d.place (s.gsize j.stake) a
      let r := d.group (s.gsize j.stake) g.1 g.2
      s.unreadable r (accOff (s.stake j.stake).master12) = false → s.scaleBad d g.1 = false →
      Answers (exec (.quayBoundUpdate q x) s) (fun t =>
        MemoryBut ((r, s.gsize j.stake) :: copyStores d g.1 g.2) s t ∧ (t.qu q).trig = trig.eraseIdx p ∧
        (t.qu q).blocks = (s.qu q).blocks.filter (fun b => !(b.job == id && b.block / 2 == i)) ∧
        (t.job id).map (fun j => (j.updated, j.toSend, j.badUpd)) = some (j.updated ++ [i], insertNat i j.toSend, j.badUpd) ∧
        t.fld (R.rdxJStatus id) F.rdxJStatusOwnedLeft = s.fld (R.rdxJStatus id) F.rdxJStatusOwnedLeft - 1 ∧
        (Writable [(r, 1024)] s → (∀ x ∈ copyStores d g.1 g.2, x.1 + x.2 ≤ r ∨ r + s.gsize j.stake ≤ x.1) →
          Updated s t j.stake d (microWords bd.prog) g.1 g.2 ((b.vals ++ c.vals).map (fun r => mul32 r j.jgs))) ∧ Apart s t)) ∧
    ((s.qu q).placeOf (s.updTurn q) = none ∨ s.quayHalt = true → exec (.quayBoundUpdate q x) s = .next s) ∧
    (∀ p f, (s.qu q).placeOf (s.atomTurn q) = some p → trig[p]? = some (.atom f) → Answers (exec (.farAtomic q x) s) (fun t =>
      (t.qu q).trig = trig.eraseIdx p ∧ t.reg (R.quyCntAtom (s.quayBy q)) = s.reg (R.quyCntAtom (s.quayBy q)) + 1 ∧ Apart s t ∧
      (s.bad f.addr f.size = false → (t.qu q).olds = (s.qu q).olds ++ [(f.id, s.num f.addr f.size)] ∧ MemoryBut [(f.addr, f.size)] s t ∧
        (s.dropped f.addr = false →
          t.num f.addr f.size = atomicNew f.op f.size (s.num f.addr f.size) f.a f.b % 2 ^ (8 * f.size))) ∧
      (s.bad f.addr f.size = true → (t.qu q).olds = (s.qu q).olds ++ [(f.id, 2 ^ 64)] ∧ SameMemory s t))) ∧
    ((s.qu q).placeOf (s.atomTurn q) = none → exec (.farAtomic q x) s = .next s)

/-- R195, R196, R197, R198: SEAL_BARGE, EXCHANGE_TIMEOUT. -/
def Obligations.SealExchanges : Prop :=
  (∀ (s : State) (p : Fin 12) (i rd k : Nat), (s.pt p).rx.findIdx? (fun e => isSealFlit (e.1 % 8) e.2) = some i →
    s.arrival p 0 = some rd → s.ringStake (rd / 2) = some k →
    let f := ((s.pt p).rx.getD i (0, [])).2
    let step := numAt f 12 4
    let r := parseSeal (slice f 16 64)
    (step ∈ (s.xc k).ended → Answers (exec (.sealBarge p) s) (fun t =>
      (t.pt p).rx = (s.pt p).rx.eraseIdx i ∧ t.xch = s.xch ∧ t.regs = s.regs ∧ SameMemory s t ∧ Apart s t)) ∧
    (step ∉ (s.xc k).ended → (s.xc k).current = none → (s.xc k).queued = none → Answers (exec (.sealBarge p) s) (fun t =>
      (t.pt p).rx = (s.pt p).rx.eraseIdx i ∧ (t.xc k).buffer = (s.xc k).buffer ++ [(step, r)] ∧ (t.xc k).current = none ∧
      SameMemory s t ∧ Apart s t)) ∧
    (∀ h own ring pos l, step ∉ (s.xc k).ended → (s.xc k).current = some h → h.step = step → h.own = some own → (s.xc k).buffer = [] →
      (s.xc k).queued = none → s.member k = some (ring, pos, l) →
      (pos + 1 = l → Answers (exec (.sealBarge p) s) (fun t =>
        let a := sealCombine r own
        (t.xc k).current = none ∧ (t.xc k).agreed = some a ∧ h.step ∈ (t.xc k).ended ∧ t.fld (R.rdxSXstat k) F.rdxSXstatState = (if a.mismatch then 3 else 2) ∧
        t.fld (R.rdxSXnonfin k) F.rdxSXnonfinAgreed = a.nonfin % 2 ^ 32 ∧ t.reg (R.rdxSXnormsq k) = BitVec.ofNat 64 a.normsq ∧
        (a.mismatch = false → a.nonfin ≠ 0 → t.flag (R.rdxSXstat k) F.rdxSXstatSkip = true) ∧
        Leaves t (2 * ring) 3 (bargeBytes 1 0 1 0 0 0 pos step a.bytes) ∧ Apart s t)) ∧
      (0 < pos → pos + 1 < l → (s.xc k).passed = false → Answers (exec (.sealBarge p) s) (fun t =>
        t.fld (R.rdxSXstat k) F.rdxSXstatState = s.fld (R.rdxSXstat k) F.rdxSXstatState ∧ (t.xc k).current = some h ∧
        (t.xc k).passed = true ∧ Leaves t (2 * ring) 3 (bargeBytes 1 0 1 0 0 0 pos step (sealCombine r own).bytes) ∧
        SameMemory s t ∧ Apart s t)))) ∧
  (∀ (s : State) (k : Fin 16),
    ((s.xc k).current = none → exec (.exchangeTimeout k) s = .next s) ∧
    (∀ h, (s.xc k).current = some h → (s.xc k).queued = none → Answers (exec (.exchangeTimeout k) s) (fun t =>
      t.fld (R.rdxSXstat k) F.rdxSXstatState = 4 ∧ (t.xc k).current = none ∧ h.step ∈ (t.xc k).ended ∧
      (s.flag (R.rdxSXctl k) F.rdxSXctlPost = true → t.tok k (s.fld (R.rdxSXctl k) F.rdxSXctlToken) =
        min 65535 (s.tok k (s.fld (R.rdxSXctl k) F.rdxSXctlToken) + 1)) ∧
      (s.pst k ≠ 4 → SameMemory s t) ∧ Apart s t)))

/-- R199, R200, R201, R202, R203, R210: RJOB, RJOB_ISSUE, XREAD. -/
def Obligations.ReductionJobs : Prop :=
  ∀ (s : State) (k : Fin 16) (x : Errs),
    (∀ w, Ready s k 2 w → opcOf w = 0x30 →
      let id := bits w 32 6
      let a := bits w 64 52
      let faulted := fun code => Answers (exec (.rjob k) s) (fun t => Faulted s t k 2 code (s.indexOf k 2) ∧
        t.fld R.rdxErr F.rdxErrCode = code ∧ t.fld R.rdxErr F.rdxErrJob = id ∧ SameMemory s t ∧ Apart s t)
      (bits w 38 26 ≠ 0 ∨ bits w 116 12 ≠ 0 → faulted 0x60) ∧
      (bits w 38 26 = 0 → bits w 116 12 = 0 → s.inStake k a 256 = false → faulted 0x66) ∧
      (bits w 38 26 = 0 → bits w 116 12 = 0 → s.inStake k a 256 = true → Answers (exec (.rjob k) s) (fun t =>
        Dispatched s t k 2 w 0xFF false ∧
        (t.q k).outst.getLast?.map (fun o => o.desc) = some (if s.unreadable a 256 then [] else s.bytes a 256) ∧
        ((s.stake k).jobBase ≤ id → id < (s.stake k).jobBase + (s.stake k).jobCount → s.job id = none →
          (t.job id).map (fun j => (j.stake, j.seq, j.issued)) = some (k.val, (s.q k).fresh, false) ∧
          t.fld (R.rdxJStatus id) F.rdxJStatusState = 1 ∧ t.fld (R.rdxJStatus id) F.rdxJStatusStake = k) ∧
        SameMemory s t ∧ Apart s t))) ∧
    (∀ o, (s.q k).outst.find? (fun o => opcOf o.word == 0x30 && !o.issued) = some o → s.xchEnded k = true → s.noIssue k = false →
      o.strm = 2 → let id := bits o.word 32 6
      (∀ c, s.jobFault k o = some c → Answers (exec (.rjobIssue k x) s) (fun t =>
        Faulted s t k 2 c o.index ∧ SameMemory s t ∧ Apart s t)) ∧
      (∀ ring pos l r, s.jobFault k o = none → s.member k = some (ring, pos, l) → (s.xc k).agreed = some r →
        let e := min 254 (r.exps.getD (numAt o.desc 2 1) 0 + 1 + r.headroom)
        let jgs := jobScale o.desc r.normsq
        let j : Job := ⟨k, o.seq, o.desc, true, false, s.flag (R.rdxSXstat k) F.rdxSXstatSkip, jgs, e, r.step, [], [], [], [], false, false⟩
        let first := ∀ q, q < 16 → (s.qu q).trig = [] ∧ s.quayLost q = false
        (j.skip = false → l ≠ 1 → Answers (exec (.rjobIssue k x) s) (fun t =>
          (t.job id).map (fun v => { v with
            begun := false
            passed := [] }) = some j ∧ (first → (t.job id).map (fun v => v.begun) = some true) ∧ t.fld (R.rdxJStatus id) F.rdxJStatusState = 2 ∧ t.fld (R.rdxJScale id) F.rdxJScaleJgs = jgs % 2 ^ 32 ∧
          t.fld (R.rdxJScale id) F.rdxJScaleE = e ∧ SameMemory s t ∧ Apart s t)) ∧
        (j.skip = true → first → (s.q k).outst.find? (fun p => p.seq == o.seq) = some o → PostsFit s k o.word →
          Answers (exec (.rjobIssue k x) s) (fun t =>
          JobClosed s t id j ∧ t.ring = s.ring ∧ Posted s t k o.word ∧ (∀ p ∈ (t.q k).outst, p.seq ≠ o.seq) ∧
          MemoryBut ((s.groupsOf j).map (fun a => (a + accOff (s.stake k).master12, 256))) s t ∧ Apart s t)))) ∧
    (∀ w, Ready s k 2 w → opcOf w = 0x31 → bits w 32 32 = 0 → bits w 116 12 = 0 → bits w 64 52 % 64 = 0 →
      s.inStake k (bits w 64 52) 128 = true → (∀ o ∈ (s.q k).outst, opcOf o.word ≠ 0x31) →
      let a := bits w 64 52
      let st := R.rdxSXstat k
      (s.xchEnded k = true → s.fld st F.rdxSXstatState ≠ 0 → NoOverflow s k w →
        Answers (exec (.xread k) s) (fun t => DoneAtOnce s t k 2 w (s.pcOf k 2 + 1) ∧ MemoryBut [(a, 128)] s t ∧
          (s.dropped a = false → (∀ r, (s.xc k).agreed = some r → t.bytes a 64 = r.bytes) ∧
            t.num (a + 64) 8 = (s.reg st).toNat ∧ t.bytes (a + 72) 56 = List.replicate 56 0) ∧ Apart s t)) ∧
      (s.xchEnded k = true → s.fld st F.rdxSXstatState = 0 → Answers (exec (.xread k) s) (fun t =>
        Faulted s t k 2 0x65 (s.indexOf k 2) ∧ SameMemory s t ∧ Apart s t)) ∧
      (s.xchEnded k = false → Answers (exec (.xread k) s) (fun t =>
        Dispatched s t k 2 w 0xFF false ∧ SameMemory s t ∧ Apart s t)))

/-- R205, R206, R207, R208, R211, R213: SCATTER8, SCATTER16, SCATTER32, REQ16, REQ32, GATHER. -/
def Obligations.ReductionBarges : Prop :=
  ∀ (s : State) (p : Fin 12) (x : Errs), Corrected x →
    let ripe := fun (ty : Nat) (may : Job → List Byte → Bool) (i : Nat) (e : Nat × List Byte) (j : Job) (ring pos l : Nat) =>
      s.ripe p ty may = some (i, e, j) ∧ s.member j.stake = some (ring, pos, l)
    let consumed := fun (t : State) (i : Nat) => (t.pt p).rx = (s.pt p).rx.eraseIdx i ∧ Apart s t
    let scatter := fun (c : Instr) (ty : Nat) => ∀ i e j ring pos l, ripe ty (s.mayAdd ty) i e j ring pos l →
      s.flag R.ptbCtl F.ptbCtlArm = false →
      let gs := s.groupsOf j
      ∀ u, s.bargeUnits j ty e.2 = [u] →
      let st := s.stageOf j ty u.1
      let f := s.stageFmt j st
      let v := addBlk f.1 u.2 (s.ownBlock j gs u.1 st)
      let final := v.poison || !v.spill
      let codes := if f.1 = 0 then v.vals.map (fun x => x.toNat) else v.vals.map (ofBw f.1 f.2)
      Answers (exec c s) (fun t => consumed t i ∧ t.added = s.added + 32 ∧ SameMemory s t ∧
        (chunkOwner l gs.length (u.1 / 2) ≠ pos → Leaves t (2 * ring) 3 (bargeBytes ty (flitJob e.2) 1 (if ty = 2 then u.1 else 0)
          (unitMask [v.spill]) (unitMask [v.poison]) pos j.step (unitBytes ty f.1 f.2 u.1 v))) ∧
        (chunkOwner l gs.length (u.1 / 2) = pos →
          (⟨flitJob e.2, u.1, codes, final, v.poison⟩ : Block) ∈ (t.qu (octetOf (gs.getD (u.1 / 2) 0))).inbox ∧
          (final = false → st < 2 → Leaves t (2 * ring) 3 (bargeBytes (5 + st) (flitJob e.2) 1 0 0 0 pos j.step (toBytes 4 u.1)))))
    let request := fun (c : Instr) (st : Nat) => ∀ i e j ring pos l, ripe (4 + st) s.mayRetry i e j ring pos l → numAt e.2 3 1 = 1 →
      let gs := s.groupsOf j
      let b := numAt e.2 16 4
      let ty := s.stageType j st
      let f := s.stageFmt j st
      let v := s.ownBlock j gs b st
      b / 2 < gs.length → Answers (exec c s) (fun t => consumed t i ∧ SameMemory s t ∧
        Leaves t (2 * ring) 3 (bargeBytes ty (flitJob e.2) 1 (if ty = 2 then b else 0) (unitMask [v.spill]) (unitMask [v.poison]) pos
          j.step (unitBytes ty f.1 f.2 b v)))
    scatter (.scatter8 p x) 2 ∧ scatter (.scatter16 p x) 3 ∧ scatter (.scatter32 p x) 4 ∧ request (.req16 p x) 1 ∧ request (.req32 p x) 2 ∧
    (∀ i e j ring pos l, ripe 7 (fun _ _ => true) i e j ring pos l → numAt e.2 3 1 = 1 → e.2.length = 256 → (numAt e.2 9 1).testBit 0 = false →
      let gs := s.groupsOf j
      let first := numAt e.2 4 4
      first < gs.length → ∀ b, s.bindOf (flitJob e.2) (gs.getD first 0) = some b →
      let d := parseQuay b.desc
      let at0 := d.copyAt (s.gsize j.stake) (gs.getD first 0)
      d.gatherLen ≤ 240 → Answers (exec (.gather p) s) (fun t => consumed t i ∧
        MemoryBut ((at0.1, 8 * d.wwidth) :: (if d.wscm = 2 then [(at0.2, 2)] else [])) s t ∧
        (d.wscm ≠ 2 → Lands s at0.1 (8 * d.wwidth) → t.bytes at0.1 (8 * d.wwidth) = slice e.2 16 (8 * d.wwidth)) ∧
        (t.job (flitJob e.2)).map (fun j => j.written) = some (insertNat first j.written) ∧
        (chunkOwner l gs.length first = (pos + 1) % l → t.ring = s.ring) ∧
        (chunkOwner l gs.length first ≠ (pos + 1) % l →
          Leaves t (2 * ring) 3 (toBytes 1 7 ++ slice e.2 1 9 ++ toBytes 2 pos ++ slice e.2 12 244))))

/-- R211, R212, R214: GATHER_SEND, JOB_CLOSE, JOB_TIMEOUT. -/
def Obligations.JobsEnd : Prop :=
  (∀ (s : State) (k : Fin 16) (id : Nat) (j : Job) (ring pos l first : Nat),
    s.jobs.find? (fun p => p.2.stake == k.val && p.2.issued && !p.2.toSend.isEmpty) = some (id, j) →
    s.member k = some (ring, pos, l) → j.toSend = [first] →
    (l = 1 → Answers (exec (.gatherSend k) s) (fun t =>
      (t.job id).map (fun j => j.toSend) = some [] ∧ t.ring = s.ring ∧ t.port = s.port ∧ SameMemory s t ∧ Apart s t)) ∧
    (∀ b, l ≠ 1 → s.bindOf id ((s.groupsOf j).getD first 0) = some b →
      let d := parseQuay b.desc
      let at0 := d.copyAt (s.gsize k) ((s.groupsOf j).getD first 0)
      let n := 8 * d.wwidth
      let mx := d.wscm == 2
      let bad := s.unreadable at0.1 n || (mx && s.unreadable at0.2 2)
      0 < d.gatherLen → d.gatherLen ≤ 240 → Answers (exec (.gatherSend k) s) (fun t =>
        (t.job id).map (fun j => j.toSend) = some [] ∧ SameMemory s t ∧ Apart s t ∧
        Leaves t (2 * ring) 3 (bargeBytes 7 id 1 first 0 (unitMask [bad]) pos j.step
          (s.bytes at0.1 n ++ if mx then s.bytes at0.2 2 else []))))) ∧
  (∀ (s : State) (id : Fin 64) (j : Job) (o : Outst), s.job id = some j →
    (s.q j.stake).outst.find? (fun o => o.seq == j.seq) = some o → PostsFit s j.stake o.word → j.stake < 16 →
    (∀ ring pos l, s.member j.stake = some (ring, pos, l) →
      let g := s.rg (2 * ring)
      let gs := s.groupsOf j
      let ready := j.begun = true ∧ j.toSend = [] ∧
        (∀ i, i < gs.length → if chunkOwner l gs.length i = pos then i ∈ j.updated else i ∈ j.written) ∧
        (∀ e ∈ g.txq, e.1 = 3 → isSealFlit e.1 e.2 = false → flitJob e.2 ≠ id) ∧ KMap.get g.jobs 0 id = 0
      (ready → Answers (exec (.jobClose id) s) (fun t => JobClosed s t id j ∧
        MemoryBut (gs.map (fun a => (a + accOff (s.stake j.stake).master12, 256))) s t ∧
        (j.badUpd = false → j.badCopy = false → Completed s t j.stake o) ∧
        (j.badUpd = true → Faulted s t j.stake 2 0x57 o.index) ∧
        (j.badUpd = false → j.badCopy = true → Faulted s t j.stake 2 0x68 o.index) ∧
        (j.badCopy = true → t.fld R.rdxErr F.rdxErrCode = 0x68) ∧ Apart s t)) ∧
      (¬ ready → exec (.jobClose id) s = .next s)) ∧
    (j.issued = true → Answers (exec (.jobTimeout id) s) (fun t => t.job id = none ∧ Faulted s t j.stake 2 0x67 o.index ∧
      (∀ rd ∈ s.ringDirs, ∀ e ∈ (t.rg rd).txq, e.1 = 3 → isSealFlit e.1 e.2 = false → flitJob e.2 ≠ id) ∧ SameMemory s t ∧ Apart s t)) ∧
    (j.issued = false → exec (.jobTimeout id) s = .next s))

/-- R229, R230, R238, R239: KEXTEND, KWRITE, KGATHER, KSHARE, KFREE, KBASKET. -/
def Obligations.KvChecks : Prop :=
  ∀ (s : State) (k : Fin 16) (x : Strm) (w : Nat), Ready s k x.num w →
    let a := bits w 64 52
    let d := parseKv (s.bytes a 128)
    let bk := s.bytes d.basket 320
    let faulted := fun (c : Instr) code => Answers (exec c s) (fun t => Faulted s t k x.num code (s.indexOf k x.num) ∧
      t.fld (R.kvpErr (s.keeper k)) F.kvpErrCode = code ∧ SameMemory s t ∧ Apart s t)
    let go := fun (c : Instr) (opc : Nat) => opcOf w = opc →
      let word := bits w 32 32 = 0 ∧ bits w 116 12 = 0
      let desc := word ∧ s.kvReady k = true ∧ s.unreadable a 128 = false ∧ s.kvDescBad k opc a d = false
      (¬ word → faulted c 0x70) ∧ (word → s.kvReady k = false → faulted c 0x77) ∧
      (word → s.kvReady k = true → s.unreadable a 128 = true ∨ s.kvDescBad k opc a d = true → faulted c 0x71) ∧
      (desc → s.kvAddrBad k opc d = true → faulted c 0x78) ∧
      (desc → s.kvAddrBad k opc d = false → kvBasketOp opc = true → s.unreadable d.basket 320 = true ∨ basketBad bk (s.stake k).level = true →
        faulted c 0x71) ∧
      (∀ l, KvTaken s k opc w d (if kvBasketOp opc then bk else []) l → KvInOrder s k → (opc = 0x22 → (s.gathers k).length < 8) →
        ∀ rec f, s.kvIssueFault k opc d l = some (rec, f) → faulted c f ∧ Answers (exec c s) (fun t =>
          rec = true → t.flag (R.kvpSStatus (s.keeper k) k) F.kvpSStatusMetaPoison = true))
    go (.kextend k x) 0x20 ∧ go (.kwrite k x) 0x21 ∧ go (.kgather k x) 0x22 ∧ go (.kshare k x) 0x23 ∧ go (.kfree k x) 0x24 ∧
    go (.kbasket k x) 0x25

/-- R226, R229, R230, R231, R233: KEXTEND, KWRITE, KSHARE. R229, R234, R237: KFREE, KBASKET. -/
def Obligations.KvGrowthAndRelease : Prop :=
  (∀ (s : State) (k : Fin 16) (x : Strm) (w : Nat) (d : KvD) (bk : List Byte) (l : List Nat), Ready s k x.num w → KvInOrder s k →
      (∀ q r, KvTaken s k 0x20 w d bk l → KvAllowed s k 0x20 d l → l = [q] → s.extendAll k d.ntok l = some r →
        let len := if s.live k q then s.seqLen k q else 0
        (len % 16 = 0 ∨ s.refs k (s.entry k q (len / 16)) ≤ 1) →
        PoolSound s k → Writable [(s.seqAt k q, 16), (s.entryAt k q 0, 4 * s.ptEntries k)] s → Answers (exec (.kextend k x) s) (fun t =>
          t.seqLen k q = (len + d.ntok) % 2 ^ 32 ∧ t.live k q = true ∧
          t.freePages k = s.freePages k - (ceilDiv (len + d.ntok) 16 - ceilDiv len 16) ∧
          Dispatched s t k x.num w 0xFF true ∧ Apart s t)) ∧
      (∀ q, KvTaken s k 0x21 w d bk l → KvAllowed s k 0x21 d l → l = [q] → d.ntok = 1 →
        let pos := s.seqLen k q - 1
        let row := s.kvRow k (s.entry k q (pos / 16)) d.layer pos + d.coloff
        Answers (exec (.kwrite k x) s) (fun t =>
          MemoryBut [(row, d.colb)] s t ∧ (s.unreadable d.addr d.colb = false → Lands s row d.colb → t.bytes row d.colb = s.bytes d.addr d.colb) ∧
          Dispatched s t k x.num w 0xFF true ∧ Apart s t)) ∧
      (KvTaken s k 0x23 w d bk l → KvAllowed s k 0x23 d l → d.ntok ≤ 16 →
        let p := s.entry k d.seq 0
        let l := [(s.entryAt k d.seq2 0, 4), (s.pageAt k p, 8), (s.seqAt k d.seq2, 16)]
        Separate l → Writable l s → Answers (exec (.kshare k x) s) (fun t =>
          t.entry k d.seq2 0 = p ∧ t.refs k p = (s.refs k p + 1) % 2 ^ 16 ∧ t.seqLen k d.seq2 = d.ntok ∧ t.live k d.seq2 = true ∧
          MemoryBut [(s.entryAt k d.seq2 0, 4), (s.pageAt k p, 4), (s.seqAt k d.seq2, 16)] s t ∧
          Dispatched s t k x.num w 0xFF true ∧ Apart s t))) ∧
  (∀ (s : State) (k : Fin 16) (x : Strm) (w : Nat) (d : KvD) (bk : List Byte) (l : List Nat), Ready s k x.num w → KvInOrder s k →
      (∀ q, KvTaken s k 0x24 w d bk l → KvAllowed s k 0x24 d l → l = [q] → 0 < s.seqLen k q → s.seqLen k q ≤ 16 →
        let p := s.entry k q 0
        let l := [(s.entryAt k q 0, 4), (s.pageAt k p, 8), (s.seqAt k q, 16)]
        Separate l → Writable l s → Answers (exec (.kfree k x) s) (fun t =>
          t.live k q = false ∧ t.entry k q 0 = noPage ∧
          (s.refs k p = 1 → s.moors k p = 0 → (t.kv k).head = p ∧ t.num (t.pageAt k p + 4) 4 = (s.kv k).head % 2 ^ 32 ∧
            (s.freePages k + 1 < 2 ^ F.kvpSStatusFree.2 → t.freePages k = s.freePages k + 1)) ∧
          (1 < s.refs k p → t.refs k p = s.refs k p - 1 ∧ (t.kv k).head = (s.kv k).head) ∧
          (s.refs k p = 1 → s.moors k p ≠ 0 → t.pendingPage k p = true ∧ (t.kv k).head = (s.kv k).head) ∧
          MemoryBut [(s.entryAt k q 0, 4), (s.pageAt k p, 8), (s.seqAt k q, 16)] s t ∧
          Dispatched s t k x.num w 0xFF true ∧ Apart s t)) ∧
      (KvTaken s k 0x25 w d bk l → KvAllowed s k 0x25 d l →
        let n := basketCount d (popcount 256 d.mask)
        Writable [(d.basket, 64 + 320 * n)] s → Answers (exec (.kbasket k x) s) (fun t =>
        t.num d.basket 8 = n ∧ MemoryBut [(d.basket, 64 + 320 * n)] s t ∧
        (∀ q, onesOf 256 d.mask = [q] → t.bytes (d.basket + 64) 17 =
          toBytes 1 (s.stake k).level ++ toBytes 1 0 ++ toBytes 2 1 ++ toBytes 4 (s.seqLen k q) ++ toBytes 4 (s.seqLen k q) ++ toBytes 4 0 ++
            toBytes 1 q) ∧
        Dispatched s t k x.num w 0xFF true ∧ Apart s t)))

/-- R229, R232, R238: KGATHER, KGATHER_UNMOOR, KV_COMPLETE. -/
def Obligations.Gathers : Prop :=
  (∀ (s : State) (k : Fin 16) (x : Strm) (w : Nat) (d : KvD) (l : List Nat), Ready s k x.num w → KvTaken s k 0x22 w d [] l →
    KvInOrder s k →
    (8 ≤ (s.gathers k).length → Answers (exec (.kgather k x) s) (fun t =>
      Dispatched s t k x.num w 0xFF false ∧ SameMemory s t ∧ Apart s t)) ∧
    ((s.gathers k).length < 8 → KvAllowed s k 0x22 d l →
      let i0 := d.first / 16
      let n := (d.first + d.ntok - 1) / 16 - i0 + 1
      Answers (exec (.kgather k x) s) (fun t => Dispatched s t k x.num w 0xFF true ∧ (t.gathers k).length = (s.gathers k).length + 1 ∧
        MemoryBut ((List.range n).map (fun i => (s.pageAt k (s.entry k d.seq (i0 + i)), 4))) s t ∧
        (n = 1 → Writable [(s.pageAt k (s.entry k d.seq i0), 4)] s → t.moors k (s.entry k d.seq i0) = (s.moors k (s.entry k d.seq i0) + 1) % 2 ^ 8) ∧ Apart s t))) ∧
  (∀ (s : State) (k : Fin 16) (o : Outst),
    (s.gathers k).find? (fun o => decide (o.prog < (o.acc.headD []).length)) = some o →
    let d := parseKv o.desc
    let p := (o.acc.headD []).getD o.prog 0
    let lp := d.first / 16 + o.prog
    let lo := max d.first (16 * lp)
    let hi := min (d.first + d.ntok) (16 * lp + 16)
    Answers (exec (.kgatherUnmoor k) s) (fun t =>
      MemoryBut ((s.pageAt k p, 8) :: (List.range (hi - lo)).map (fun j => (d.addr + (lo + j - d.first) * d.stride, d.colb))) s t ∧
      (∃ q ∈ (t.q k).outst, q.seq = o.seq ∧ q.prog = o.prog + 1) ∧ (t.q k).outst.length = (s.q k).outst.length ∧ Apart s t)) ∧
  (∀ (s : State) (k : Fin 16),
    let next := (s.q k).outst.find? (fun o => o.isKv && o.issued &&
      (opcOf o.word != 0x22 || decide ((o.acc.headD []).length ≤ o.prog)))
    (next = none → exec (.kvComplete k) s = .next s) ∧
    (∀ o, next = some o → KvInOrder s k → PostsFit s k o.word →
      (o.run.poison = false → Answers (exec (.kvComplete k) s) (fun t => Completed s t k o ∧ SameMemory s t ∧ Apart s t)) ∧
      (o.run.poison = true → Answers (exec (.kvComplete k) s) (fun t => Faulted s t k o.strm 0x79 o.index ∧ SameMemory s t ∧ Apart s t))))

/-- R226, R227, R228: INIT, RELEASE. -/
def Obligations.KvPool : Prop :=
  ∀ (s : State) (m : Master) (rivals : List Master) (d : Fin 4) (k : Fin 16), Granted s m (R.kvpSCmd d k) →
    let a := R.kvpSStatus d k
    let good := s.enabled k = true ∧ s.keeper k = d ∧ (s.pst k = 1 ∨ s.pst k = 4)
    let n := (s.stake k).kvPages
    let lim := (s.stake k).seqLimit
    let pt := s.ptEntries k
    (good → s.kvInitBad k = false →
      let l := [(s.pageAt k 0, 8 * n), (s.seqAt k 0, 16 * lim), (s.entryAt k 0 0, 4 * (lim * pt))]
      Separate l → Writable l s → Answers (exec (.init m rivals d k) s) (fun t =>
        t.flag a F.kvpSStatusReady = true ∧ t.fld a F.kvpSStatusFree = n % 2 ^ F.kvpSStatusFree.2 ∧ t.kvReady k = true ∧
        t.flag a F.kvpSStatusInitErr = false ∧ t.reg (R.kvpSCntCow d k) = 0 ∧ t.reg (R.kvpSCntCopy d k) = 0 ∧ (t.kv k).head = 0 ∧
        (∀ p, p < n → t.refs k p = 0 ∧ t.moors k p = 0 ∧ t.pendingPage k p = false ∧
          t.num (t.pageAt k p + 4) 4 = (if p + 1 = n then noPage else (p + 1) % 2 ^ 32)) ∧
        (∀ q, q < lim → t.live k q = false ∧ t.seqLen k q = 0) ∧ (∀ i, i < lim * pt → t.num (s.entryAt k 0 i) 4 = noPage) ∧
        MemoryBut [(s.pageAt k 0, 8 * n), (s.seqAt k 0, 16 * lim), (s.entryAt k 0 0, 4 * (lim * pt))] s t ∧ t.resp = .done ∧ Apart s t)) ∧
    (good → s.kvInitBad k = true → Answers (exec (.init m rivals d k) s) (fun t =>
      t.flag a F.kvpSStatusInitErr = true ∧ t.flag a F.kvpSStatusReady = s.flag a F.kvpSStatusReady ∧
      SameRegs (a :: outcomeRegs) s t ∧ SameMemory s t ∧ Apart s t)) ∧
    (good → Answers (exec (.release m rivals d k) s) (fun t =>
      t.flag a F.kvpSStatusReady = false ∧ SameRegs (a :: outcomeRegs) s t ∧ SameMemory s t ∧ t.resp = .done ∧ Apart s t)) ∧
    (¬ good →
      Answers (exec (.init m rivals d k) s) (fun t => t.resp = .error ∧ SameRegs outcomeRegs s t ∧ SameMemory s t ∧ Apart s t) ∧
      Answers (exec (.release m rivals d k) s) (fun t => t.resp = .error ∧ SameRegs outcomeRegs s t ∧ SameMemory s t ∧ Apart s t))

/-- R300, R301, R303, R305: TSEND, TSEND_ISSUE, TSEND_COMPLETE, TSEND_TIMEOUT, TRANSFER_BARGE. -/
def Obligations.Transfers : Prop :=
  (∀ (s : State) (k : Fin 16) (x : Strm) (w : Nat), Ready s k x.num w → opcOf w = 0x10 →
    let a := bits w 64 52
    let b := s.bytes a 64
    let word := bits w 37 27 = 0 ∧ bits w 116 12 = 0
    let desc := word ∧ s.unreadable a 64 = false ∧ tsendDescBad b a (s.stake k).level = false
    let path := s.sendMask (2 * bits w 32 4 + bits w 36 1) ≠ 0
    let inside := numAt b 4 4 = 0 ∨ s.inStake k (numAt b 8 8) (numAt b 4 4) = true
    let faulted := fun code => Answers (exec (.tsend k x) s) (fun t => Faulted s t k x.num code (s.indexOf k x.num) ∧ SameMemory s t ∧ Apart s t)
    (¬ word → faulted 0x80) ∧ (word → ¬ desc → faulted 0x81) ∧ (desc → ¬ path → faulted 0x82) ∧ (desc → path → ¬ inside → faulted 0x83) ∧
    (desc → path → inside → Answers (exec (.tsend k x) s) (fun t => Dispatched s t k x.num w 0xFF false ∧
      (t.q k).outst.getLast?.map (fun o => o.desc) = some b ∧ SameMemory s t ∧ Apart s t))) ∧
  (∀ (s : State) (k : Fin 16) (o : Outst) (r : RingRec) (tag : Nat),
    (s.q k).outst.find? (fun o => opcOf o.word == 0x10 && !o.issued && (s.rg o.rd).freeTag.isSome) = some o → s.noIssue k = false → s.ringRec (o.rd / 2) = some r →
    r.length ≠ 1 →
    (s.rg o.rd).freeTag = some tag → Answers (exec (.tsendIssue k) s) (fun t =>
      (t.rg o.rd).tags = (s.rg o.rd).tags ++ [(tag, k.val, o.seq)] ∧
      (∃ p ∈ (t.q k).outst, p.seq = o.seq ∧ p.issued = true ∧ p.prog = tag + 1) ∧
      (∀ j, j < totalBarges (numAt o.desc 4 4) → Leaves t o.rd (numAt o.desc 1 1) (s.transferBarge o tag j).1) ∧
      SameMemory s t ∧ Apart s t)) ∧
  (∀ (s : State) (ring : Fin 16) (dir : RDir) (tag : Fin 16) (k n : Nat) (o : Outst),
    let rd := 2 * ring.val + dir.num
    let g := s.rg rd
    g.tags.find? (fun t => t.1 == tag.val) = some (tag.val, k, n) → (s.q k).outst.find? (fun o => o.seq == n) = some o → k < 16 →
    PostsFit s k o.word →
    (∀ st, g.done.find? (fun t => t.1 == tag.val) = some (tag.val, st) →
      let poisoned := (s.q k).outst.any (fun o => o.seq == n && o.run.poison)
      Answers (exec (.tsendComplete ring dir tag) s) (fun t =>
        (∀ x ∈ (t.rg rd).tags, x.1 ≠ tag.val) ∧
        (st ≠ 1 → st ≠ 2 → poisoned = false → Completed s t k o) ∧
        (st = 1 → Faulted s t k o.strm 0x85 o.index) ∧
        (st ≠ 1 → (st = 2 ∨ poisoned = true) → Faulted s t k o.strm 0x86 o.index) ∧ SameMemory s t ∧ Apart s t)) ∧
    (g.done.any (fun t => t.1 == tag.val) = false → Answers (exec (.tsendTimeout ring dir tag) s) (fun t =>
      (∀ x ∈ (t.rg rd).tags, x.1 ≠ tag.val) ∧ (t.rg rd).stuck = g.stuck ++ [(tag.val, s.sendMask rd)] ∧
      Faulted s t k o.strm 0x84 o.index ∧ SameMemory s t ∧ Apart s t))) ∧
  (∀ (s : State) (p : Fin 12) (cls : Fin 4) (i rd : Nat),
    (s.pt p).rx.findIdx? (fun e => e.1 % 8 == cls.val) = some i → cls.val ≠ 3 → s.hbmAsleep = false →
    let f := ((s.pt p).rx.getD i (0, [])).2
    s.arrival p ((numAt f 2 1) % 2) = some rd →
    let tag := numAt f 3 1 % 16
    let w := bits (numAt f 4 1) 0 6
    let n := numAt f 5 1
    let old := KMap.get (s.rg rd).slots .free tag
    let slot := if old.active then old else ⟨w, numAt f 12 4, 0, 0, true⟩
    let a := s.fld (R.twpWinBase w) F.twpWinBaseBase + numAt f 8 4
    let ok := s.windowOk rd f slot
    let bad := (numAt f 2 1).testBit 1
    let c := R.twpWinCtl slot.win
    let st := if ok = false then 1 else if bad ∧ slot.status = 0 then 2 else slot.status
    slot.win < 64 → s.pst (s.fld c F.twpWinCtlStake) ≠ 4 → Answers (exec (.transferBarge p cls) s) (fun t =>
      (t.pt p).rx = (s.pt p).rx.eraseIdx i ∧ MemoryBut (if ok then [(a, n)] else []) s t ∧
      (ok = true → bad = false → Lands s a n → t.bytes a n = slice f 16 n) ∧
      (ok = false → t.fld (R.twpWinCtl w) F.twpWinCtlRejects =
        min (s.fld (R.twpWinCtl w) F.twpWinCtlRejects + 1) (2 ^ F.twpWinCtlRejects.2 - 1)) ∧
      (slot.count + 1 < slot.total → (KMap.get (t.rg rd).slots .free tag).count = slot.count + 1 ∧ (t.rg rd).tog = (s.rg rd).tog) ∧
      (slot.total ≤ slot.count + 1 → (t.rg rd).tog = (s.rg rd).tog ^^^ 2 ^ tag ∧
        (st ≠ 1 → t.tok (s.fld c F.twpWinCtlStake) (s.fld c F.twpWinCtlToken) =
          min 65535 (s.tok (s.fld c F.twpWinCtlStake) (s.fld c F.twpWinCtlToken) + 1))) ∧ Apart s t))

/-- R290, R291, R292, R295, R296: DATA_FRAME, CTRL_FRAME. -/
def Obligations.FramesReceived : Prop :=
  ∀ (s : State) (p : Fin 12) (b : List Byte), b.length = 280 →
    let c := s.pt p
    let discarded := fun i : Instr => Answers (exec i s) (fun t =>
      (t.pt p).nak = true ∧ (t.pt p).rx = c.rx ∧ (t.pt p).rxSeq = c.rxSeq ∧ t.fld (R.twpPCntFec p) F.twpPCntFecUncorr =
        min (s.fld (R.twpPCntFec p) F.twpPCntFecUncorr + 1) (2 ^ F.twpPCntFecUncorr.2 - 1) ∧ SameMemory s t ∧ Apart s t)
    (s.receiving p = false → exec (.dataFrame p b) s = .next s ∧ exec (.ctrlFrame p b) s = .next s) ∧
    (s.receiving p = true → s.flag R.ptbCtl F.ptbCtlArm = false → (∀ rd, (s.rg rd).txq = []) →
      (readFrame b = none → discarded (.dataFrame p b) ∧ discarded (.ctrlFrame p b)) ∧
      (∀ kind h f fixed, readFrame b = some (kind, h, f, fixed) →
        let told := fun t : State => t.portState p = 2 → (t.pt p).said = t.ctrlSays p
        (kind ≠ 1 → exec (.dataFrame p b) s = .next s) ∧ (kind ≠ 2 → exec (.ctrlFrame p b) s = .next s) ∧
        (kind = 1 → Answers (exec (.dataFrame p b) s) (fun t =>
          (t.pt p).replay = afterAck c.replay (bits h 16 12) ∧ told t ∧ SameMemory s t ∧ Apart s t ∧
          (bits h 4 12 = c.rxSeq → (t.pt p).rxSeq = (c.rxSeq + 1) % 4096 ∧ (t.pt p).nak = false ∧
            ((if bits h 2 2 = 3 then 1 ≤ numAt f 0 1 ∧ numAt f 0 1 ≤ 7 else numAt f 0 1 = 0x10) →
              bits (numAt f 1 1) 0 4 = s.fld (R.twpPStatus p) F.twpPStatusLevel → (t.pt p).rx = c.rx ++ [(bits h 2 2, f)])) ∧
          (bits h 4 12 ≠ c.rxSeq → (t.pt p).rxSeq = c.rxSeq ∧ (t.pt p).nak = true ∧ (t.pt p).rx = c.rx))) ∧
        (kind = 2 → (∀ q, q < 12 → (s.pt q).held = []) → Answers (exec (.ctrlFrame p b) s) (fun t => told t ∧
          (∀ i, i < 4 → (t.pt p).credit.getD i 0 = c.credit.getD i 0 + (numAt f (2 * i) 2 + 65536 - c.seen.getD i 0) % 65536) ∧
          (t.pt p).replay = afterAck c.replay (bits h 16 12) ∧ (t.pt p).rx = c.rx ∧ SameMemory s t ∧ Apart s t))))

/-- R288, R289, R294, R299, R303: FULL_TRAINING, TRAINING_RETRY, FAST_RETRAIN, FRAME_LOCK, LANE_LOCK_LOSS, PORT_DOWN, TAKE_PORT_DOWN,
TWP_CMD_FAST_RETRAIN, TWP_CMD_FULL_TRAINING, TWP_WIN_ENABLE. -/
def Obligations.PortsTrain : Prop :=
  ∀ (s : State) (p : Fin 12),
    let a := R.twpPStatus p
    let c := s.pt p
    let idle := fun t : State => SameMemory s t ∧ Apart s t
    let reaches := fun (i : Instr) (v : Nat) => Answers (exec i s) (fun t => t.portState p = v ∧ (t.pt p).session = false ∧
      t.fld a F.twpPStatusWidth = 0 ∧ idle t)
    let trains := fun (i : Instr) (info : TrainInfo) =>
      let w := usableWidth ((info.passed % 256) &&& (info.lanes % 256)) (widthLanes (s.widthCode p)) info.width
      (info.up = false → reaches i 4) ∧ (info.up = true → s.linkLevel info = none → reaches i 5) ∧
      (∀ l, info.up = true → s.linkLevel info = some l → w = 0 → reaches i 4) ∧
      (∀ l, info.up = true → s.linkLevel info = some l → w ≠ 0 → Answers (exec i s) (fun t =>
        t.portState p = 1 ∧ (t.pt p).session = false ∧ (t.pt p).locking = some true ∧ t.fld a F.twpPStatusLevel = l % 2 ^ F.twpPStatusLevel.2 ∧
        t.fld a F.twpPStatusWidth = widthField w ∧ (t.pt p).credit = (List.range 4).map (fun j => info.depths.getD j 0) ∧
        t.reg (R.twpPPartner p) = BitVec.ofNat 64 info.modid ∧ (∃ o, (t.pt p).wire = c.wire ++ [.train o] ∧ o.lanes = info.passed % 256 ∧
          o.modid = (s.reg R.twpModid).toNat ∧ o.port = (p : Nat) ∧ o.width = widthLanes (s.widthCode p) ∧
          o.ack = (if c.session then c.ackNow else c.final.getD 4095)) ∧ idle t))
    (∀ info, s.widthCode p ≠ 1 → s.wrapperOpen a = true →
      (s.portState p ≠ 4 → s.portState p ≠ 5 → trains (.fullTraining p info) info) ∧
      (s.portState p = 4 ∨ s.portState p = 5 → trains (.trainingRetry p info) info)) ∧
    (c.locking = some true → Answers (exec (.frameLock p) s) (fun t => t.portState p = 2 ∧ (t.pt p).session = true ∧
      (t.pt p).rxSeq = 0 ∧ (t.pt p).held = [] ∧ (t.pt p).final = none ∧ (t.pt p).locking = none ∧ idle t)) ∧
    (c.locking = some false → Answers (exec (.frameLock p) s) (fun t => t.portState p = 2 ∧ (t.pt p).session = c.session ∧
      (t.pt p).rxSeq = c.rxSeq ∧ (t.pt p).locking = none ∧ idle t)) ∧
    (c.locking = none → exec (.frameLock p) s = .next s) ∧
    (∀ info, s.portState p = 3 → c.locking = none →
      let w := usableWidth (((info.passed % 256) &&& (255 - c.badLanes % 256)) &&& (info.lanes % 256)) (widthLanes (s.widthCode p)) info.width
      (info.up = true → s.linkLevel info = none → reaches (.fastRetrain p info) 5) ∧
      (∀ l, info.up = true → s.linkLevel info = some l → (w = 0 → reaches (.fastRetrain p info) 4) ∧
        (w ≠ 0 → Answers (exec (.fastRetrain p info) s) (fun t => (t.pt p).locking = some false ∧ t.portState p = 3 ∧
          t.fld a F.twpPStatusWidth = widthField w ∧ (t.pt p).session = c.session ∧ idle t))) ∧
      (info.up = false → c.fails < 2 → Answers (exec (.fastRetrain p info) s) (fun t => (t.pt p).fails = c.fails + 1 ∧ t.portState p = 3 ∧
        (t.pt p).session = c.session ∧ idle t)) ∧
      (info.up = false → 2 ≤ c.fails → reaches (.fastRetrain p info) 1)) ∧
    (∀ info, s.portState p = 3 → c.locking ≠ none → 2 ≤ c.fails → reaches (.fastRetrain p info) 1) ∧
    (∀ lane : Fin 8, s.portState p = 2 → c.session = true → Answers (exec (.laneLockLoss p lane) s) (fun t =>
      t.portState p = 3 ∧ (t.pt p).badLanes = setBit c.badLanes lane true ∧ (t.pt p).session = true ∧ idle t)) ∧
    (s.portState p = 2 ∨ s.portState p = 3 → reaches (.portDown p) 4) ∧
    (∀ m rivals, Granted s m (R.twpPCmd p) →
      (s.portState p ≠ 0 → reaches (.takePortDown m rivals p) 4) ∧
      (s.widthCode p ≠ 1 → reaches (.twpCmdFullTraining m rivals p) 1) ∧
      (s.portState p = 2 → c.session = true → Answers (exec (.twpCmdFastRetrain m rivals p) s) (fun t =>
        t.portState p = 3 ∧ (t.pt p).session = true ∧ idle t))) ∧
    (∀ m (w : Fin 64) v, Granted s m (R.twpWinCtl w) → s.flag (R.twpWinCtl w) F.twpWinCtlEnable = false →
      let inside := s.inStake (Word.fld v F.twpWinCtlStake) (s.fld (R.twpWinBase w) F.twpWinBaseBase) (s.fld (R.twpWinSize w) F.twpWinSizeSize)
      Answers (exec (.twpWinEnable m w v) s) (fun t =>
        t.fld (R.twpWinCtl w) F.twpWinCtlStake = Word.fld v F.twpWinCtlStake ∧
        t.fld (R.twpWinCtl w) F.twpWinCtlRing = Word.fld v F.twpWinCtlRing ∧ t.fld (R.twpWinCtl w) F.twpWinCtlToken = Word.fld v F.twpWinCtlToken ∧
        t.flag (R.twpWinCtl w) F.twpWinCtlEnable = (Word.fld v F.twpWinCtlEnable != 0 && inside) ∧
        (Word.fld v F.twpWinCtlEnable ≠ 0 → t.flag (R.twpWinCtl w) F.twpWinCtlWerr = !inside) ∧ t.resp = .done ∧
        SameRegs (R.twpWinCtl w :: outcomeRegs) s t ∧ idle t))

/-- R244, R245, R247, R249: TCX_LAUNCH, TCX_HALT, WFI, and the traps of rt.acq, rt.rel, rt.tpost, rt.ttake, rt.twait, rt.apost, rt.sdesc,
rt.sstop. -/
def Obligations.ThreadsStartAndStop : Prop :=
  (∀ (s : State) (m : Master) (rivals : List Master) (d : Fin 4) (core : Fin 64) (th : Fin 8), Granted s m (R.tcxLaunch d) →
    let t := d.val * 512 + core.val * 8 + th.val
    let refused := fun code => Answers (exec (.tcxLaunch m rivals d core th) s) (fun s' =>
      s'.fld (R.tcxErr d) F.tcxErrCode = code ∧ s'.fld (R.tcxErr d) F.tcxErrCore = core ∧ s'.fld (R.tcxErr d) F.tcxErrThread = th ∧
      s'.thread = s.thread ∧ SameMemory s s' ∧ Apart s s')
    (s.tStake t = none → refused 1) ∧
    (∀ k, s.tStake t = some k → s.tState t ≠ 0 → s.tState t ≠ 4 → refused 2) ∧
    (∀ k, s.tStake t = some k → (s.tState t = 0 ∨ s.tState t = 4) → s.failTc.testBit (coreOf t) = false →
      Answers (exec (.tcxLaunch m rivals d core th) s) (fun s' => s'.tState t = 1 ∧ s'.runs t = true ∧
        s'.treg t tPc = s.fld (R.tcxLaunchPc d) F.tcxLaunchPcPc * 2 % 2 ^ 64 ∧ s'.treg t 10 = (s.reg (R.tcxLaunchArg d)).toNat ∧
        s'.treg t tMode = 3 ∧ (∀ i, i ≠ tPc → i ≠ 10 → i ≠ tMode → s'.treg t i = 0) ∧ SameMemory s s' ∧ Apart s s')) ∧
    (s.tState t ≠ 0 → s.tState t ≠ 4 → s.tState t ≠ 5 → Answers (exec (.tcxHalt m rivals d core th) s) (fun s' => s'.tState t = 4 ∧
      (∀ e ∈ s'.takes, e.2.1 ≠ t) ∧ (∀ e ∈ s'.l1Of (s'.runCore t), e.dirty = 0) ∧
      MemoryBut (saved s t :: linesHeld s t) s s' ∧ Apart s s'))) ∧
  (∀ (s : State) (t : Fin 2048) (lead : List (Nat × Nat)), s.runs t = true → (s.lead t lead).runs t = true →
    (s.lead t lead).tMay t ((s.lead t lead).treg t tPc) 4 2 = false → Answers (exec (.wfi t lead) s) (fun s' =>
      Trapped (s.lead t lead) s' t 1 ((s.lead t lead).treg t tPc) ∧ SameMemory s s' ∧ Apart s s')) ∧
  (∀ (s : State) (t : Fin 2048) (lead : List (Nat × Nat)), Fetches s t lead 4 →
    let u := s.lead t lead
    (u.treg t tMode ≠ 0 → (u.treg t tStatus).testBit 3 = false → Answers (exec (.wfi t lead) s) (fun s' => s'.tState t = 4 ∧
      MemoryBut (saved s t :: linesHeld s t) s s' ∧ Apart s s')) ∧
    (u.treg t tMode ≠ 0 → (u.treg t tStatus).testBit 3 = true → Answers (exec (.wfi t lead) s) (fun s' =>
      Retired u s' t 0 0 ∧ SameMemory s s' ∧ Apart s s')) ∧
    (u.treg t tMode = 0 → (u.treg t tStatus).testBit 21 = true → Answers (exec (.wfi t lead) s) (fun s' =>
      Trapped u s' t 2 0x10500073 ∧ SameMemory s s' ∧ Apart s s'))) ∧
  (∀ (s : State) (t : Fin 2048) (lead : List (Nat × Nat)) (word : Nat),
    let bad := fun (c : Instr) (f3 : Nat) (unused : List Nat) => Issues s t lead f3 word →
      (bits word 25 7 ≠ 0 ∨ ∃ f ∈ unused, bits word f 5 ≠ 0) →
      Answers (exec c s) (fun s' => Trapped (s.lead t lead) s' t 2 word ∧ SameMemory s s' ∧ Apart s s')
    bad (.rtAcq t lead word) 0 [7] ∧ bad (.rtRel t lead word) 1 [7] ∧ bad (.rtTpost t lead word) 2 [7, 20] ∧
    bad (.rtTtake t lead word) 3 [20] ∧ bad (.rtTwait t lead word) 4 [] ∧ bad (.rtApost t lead word) 5 [] ∧
    bad (.rtSdesc t lead word) 6 [7] ∧ bad (.rtSstop t lead word) 7 [7, 20])

/-- R247, R248, R250, R252, R255: RT_ACQ, RT_REL, RT_TPOST, RT_TTAKE, TTAKE_SERVE, RT_SDESC, RT_SSTOP. -/
def Obligations.TileInstructions : Prop :=
  (∀ (s : State) (t : Fin 2048) (lead : List (Nat × Nat)) (word : Nat), bits word 25 7 = 0 →
    let u := s.lead t lead
    let a := u.treg t (xRs1 word)
    let b := u.treg t (xRs2 word)
    let c := s.runCore t
    (Issues s t lead 0 word → bits word 7 5 = 0 → Answers (exec (.rtAcq t lead word) s) (fun s' => Retired u s' t 0 0 ∧
      (∀ e ∈ s'.l1Of c, inRange e.line a b = true → e.have_ = e.dirty) ∧
      (∀ e ∈ s.l1Of c, e.dirty ≠ 0 → e.have_ ≠ 0 → ∃ f ∈ s'.l1Of c, f.line = e.line ∧ f.dirty = e.dirty ∧ f.data = e.data) ∧
      SameMemory s s' ∧ Apart s s')) ∧
    (Issues s t lead 1 word → bits word 7 5 = 0 → Answers (exec (.rtRel t lead word) s) (fun s' => Retired u s' t 0 0 ∧
      (∀ e ∈ s'.l1Of c, inRange e.line a b = true → e.dirty = 0) ∧
      MemoryBut (saved s t :: linesHeld s t) s s' ∧ Apart s s')) ∧
    (∀ k, Issues s t lead 2 word → bits word 7 5 = 0 → bits word 20 5 = 0 → s.tStake t = some k → s.pst k ≠ 4 → (s.thr t).redo = false →
      let n := (s.opnum t + 1) % 2 ^ 32
      let before := KMap.find s.recs ((20 + k) * 2048 + t)
      ((∀ v, before ≠ some (n, v)) → Answers (exec (.rtTpost t lead word) s) (fun s' => Retired u s' t 0 0 ∧ s'.opnum t = n ∧
        s'.tok k (a % 64) = min 65535 (s.tok k (a % 64) + 1) ∧ (∀ i, i < 64 → i ≠ a % 64 → s'.tok k i = s.tok k i) ∧
        MemoryBut (saved s t :: linesHeld s t) s s' ∧ Apart s s')) ∧
      (∀ v, before = some (n, v) → Answers (exec (.rtTpost t lead word) s) (fun s' => Retired u s' t 0 0 ∧
        (∀ i, i < 64 → s'.tok k i = s.tok k i) ∧ Apart s s'))) ∧
    (∀ k, Issues s t lead 3 word → bits word 20 5 = 0 → s.tStake t = some k → (s.thr t).redo = false →
      (∀ v, KMap.find s.recs ((20 + k) * 2048 + t) ≠ some ((s.opnum t + 1) % 2 ^ 32, v)) →
      Answers (exec (.rtTtake t lead word) s) (fun s' => s'.takes = s.takes ++ [(k, t.val, a % 64)] ∧ (s'.thr t).wait = 1 ∧
        (∀ i, s'.treg t i = u.treg t i) ∧ (∀ i, i < 64 → s'.tok k i = s.tok k i) ∧ MemoryBut [saved s t] s s' ∧ Apart s s')) ∧
    (Issues s t lead 6 word → bits word 7 5 = 0 → u.tMay t b 32 0 = true → Answers (exec (.rtSdesc t lead word) s) (fun s' =>
      let d := s.coreBytes c b 32
      KMap.get (s'.thr t).slots [] (a % 4) = (if streamOk d && !((linesOf b 32).any (fun l => s.bad l 64)) then d else []) ∧
      Retired u s' t 0 0 ∧ SameMemory s s' ∧ Apart s s')) ∧
    (Issues s t lead 7 word → bits word 7 5 = 0 → bits word 20 5 = 0 → Answers (exec (.rtSstop t lead word) s) (fun s' =>
      KMap.get (s'.thr t).slots [] (a % 4) = [] ∧ Retired u s' t 0 0 ∧ SameMemory s s' ∧ Apart s s'))) ∧
  (∀ (s : State) (k : Fin 16),
    let next := s.takes.find? (fun e => decide (e.1 = k.val) && decide (1 ≤ s.tok k e.2.2))
    (next = none → exec (.ttakeServe k) s = .next s) ∧
    (∀ t c, next = some (k.val, t, c) → t < 2048 → c < 64 → s.pst k ≠ 4 → xRd (s.thr t).word ≠ 0 →
      Answers (exec (.ttakeServe k) s) (fun s' => (k.val, t, c) ∉ s'.takes ∧ s'.tok k c = s.tok k c - 1 ∧
        (∀ i, i < 64 → i ≠ c → s'.tok k i = s.tok k i) ∧ s'.treg t (xRd (s.thr t).word) = s.tok k c ∧
        s'.treg t tPc = (s.treg t tPc + 4) % 2 ^ 64 ∧ (s'.thr t).wait = 0 ∧ SameMemory s s' ∧ Apart s s')))

/-- R116, R253, R254: RT_TWAIT, TWAIT_REREAD, RT_APOST. -/
def Obligations.TileWaits : Prop :=
  (∀ (s : State) (t : Fin 2048) (lead : List (Nat × Nat)) (word : Nat), bits word 25 7 = 0 →
    let u := s.lead t lead
    let a := u.treg t (xRs1 word)
    let b := u.treg t (xRs2 word)
    (Issues s t lead 4 word →
      let trapped := fun cause => Answers (exec (.rtTwait t lead word) s) (fun s' => Trapped u s' t cause a ∧ SameMemory s s' ∧ Apart s s')
      (a % 8 ≠ 0 → trapped 4) ∧ (a % 8 = 0 → u.tMay t a 8 0 = false → trapped 5) ∧
      (a % 8 = 0 → u.tMay t a 8 0 = true → s.unreadable a 8 = false → b ≤ s.num a 8 → Answers (exec (.rtTwait t lead word) s) (fun s' =>
        Retired u s' t (xRd word) (s.num a 8) ∧ SameMemory s s' ∧ Apart s s')) ∧
      (a % 8 = 0 → u.tMay t a 8 0 = true → (s.unreadable a 8 = true ∨ s.num a 8 < b) → Answers (exec (.rtTwait t lead word) s) (fun s' =>
        (s'.thr t).wait = 2 ∧ (s'.thr t).word = word ∧ (∀ i, s'.treg t i = u.treg t i) ∧
        (isSpadStride a = false → (s.home (homeOf a)).watches.length < 256 → (lineOf a, s.runCore t) ∈ (s'.home (homeOf a)).watches) ∧
        SameMemory s s' ∧ Apart s s'))) ∧
    (∀ k, Issues s t lead 5 word →
      let p := a % 8
      let c := s.pv p
      let slot := s.fld (R.vecPvuAq p) F.vecPvuAqBase * 4096 + 16 * (c.head % 64)
      (s.pvuOwner p ≠ s.tStake t ∨ s.pvuOwner p = none ∨ s.flag (R.vecPvuAq p) F.vecPvuAqEnable = false →
        Answers (exec (.rtApost t lead word) s) (fun s' => Trapped u s' t 7 b ∧ SameMemory s s' ∧ Apart s s')) ∧
      (s.pvuOwner p = some k → s.tStake t = some k → s.flag (R.vecPvuAq p) F.vecPvuAqEnable = true → u.tMay t b 16 0 = true →
        (s.thr t).redo = false → (∀ v, KMap.find s.recs ((36 + p) * 2048 + t) ≠ some ((s.opnum t + 1) % 2 ^ 32, v)) →
        s.l1Of (s.runCore t) = [] → (c.head < c.tail + 64 → Lands s slot 16 → b + 16 ≤ (saved s t).1 ∨ (saved s t).1 + 0x380 ≤ b →
          Answers (exec (.rtApost t lead word) s) (fun s' => (s'.pv p).head = c.head + 1 ∧ (s'.pv p).tail = c.tail ∧
            s'.bytes slot 16 = s.bytes b 16 ∧ Retired u s' t (xRd word) c.head ∧ MemoryBut [saved s t, (slot, 16)] s s' ∧ Apart s s')) ∧
        (c.tail + 64 ≤ c.head → Answers (exec (.rtApost t lead word) s) (fun s' => (s'.thr t).wait = 3 ∧ s'.pv p = c ∧
          MemoryBut [saved s t] s s' ∧ Apart s s'))))) ∧
  (∀ (s : State) (t : Fin 2048),
    let w := (s.thr t).word
    let a := s.treg t (xRs1 w)
    ((s.thr t).wait ≠ 2 → exec (.twaitReread t) s = .next s) ∧
    ((s.thr t).wait = 2 → s.unreadable a 8 = false → s.treg t (xRs2 w) ≤ s.num a 8 → Answers (exec (.twaitReread t) s) (fun s' =>
      (s.runCore t, lineOf a) ∉ s'.wakes ∧ (xRd w ≠ 0 → s'.treg t (xRd w) = s.num a 8) ∧ s'.treg t tPc = (s.treg t tPc + 4) % 2 ^ 64 ∧ (s'.thr t).wait = 0 ∧
      SameMemory s s' ∧ Apart s s')) ∧
    ((s.thr t).wait = 2 → (s.unreadable a 8 = true ∨ s.num a 8 < s.treg t (xRs2 w)) → Answers (exec (.twaitReread t) s) (fun s' =>
      (s'.thr t).wait = 2 ∧ (∀ i, s'.treg t i = s.treg t i) ∧ SameMemory s s' ∧ Apart s s')))

/-- R244, R248, R256, R259, R263, R265, R269, R279: MEMORY_ACCESS outside registers and scratchpads. -/
def Obligations.MemoryAccesses : Prop :=
  (∀ (s : State) (r : Requester) (lead : List (Nat × Nat)) (a : Nat) (x : Access) (e : Errs),
    isReg a = false → isSpadStride a = false → accSize x ≠ 0 → (∀ t, r ≠ .tile t) →
    let may := s.err a (accSize x) = false ∧ s.memUp a = true ∧ ∀ k : Fin 16, r = .unit k → s.inStake k a (accSize x) = true
    let idle := s.lineOpen a (accSize x) = false
    let same := fun t : State => SameMemory s t ∧ SameRegs errorRegs s t ∧ Apart s t
    let run := exec (.memoryAccess r lead a x e) s
    let waits := Answers run (fun t => t.resp = s.resp ∧ t.poison = s.poison ∧ same t)
    (∀ n, x = .read n →
      let holds := ∃ c : Fin 64, r = .core c ∧ s.holdsAll c a n = true
      (may → ¬ idle → ¬ holds → waits) ∧
      (idle ∨ holds →
        (¬ may → Answers run (fun t => t.resp = .error ∧ same t)) ∧
        (may → e.mem = [] → Answers run (fun t =>
          t.resp = (if s.unreadable a n then .poison else .data (s.bytes a n)) ∧ t.poison = s.poison ∧ same t)) ∧
        (∀ p ecc, may → e.mem = [(p, ecc)] → isHbm p = true → lineOf a ≤ p → p < lineOf (a + n - 1) + 64 → s.stackLost p = false →
          s.poison.contains (lineOf p) = false →
          let h := octetOf p / 2
          (ecc = 1 → Answers run (fun t => t.resp = (if s.unreadable a n then .poison else .data (s.bytes a n)) ∧ t.poison = s.poison ∧
            t.fld (R.memEcc h) F.memEccCorr = min (s.fld (R.memEcc h) F.memEccCorr + 1) (2 ^ 32 - 1) ∧ same t)) ∧
          (2 ≤ ecc → Answers run (fun t => t.resp = .poison ∧ lineOf p ∈ t.poison ∧
            t.fld (R.memEcc h) F.memEccUncorr = min (s.fld (R.memEcc h) F.memEccUncorr + 1) (2 ^ 16 - 1) ∧
            (s.flag (R.memErrAddr h) F.memErrAddrValid = false →
              t.fld (R.memErrAddr h) F.memErrAddrAddr = p / 64 % 2 ^ F.memErrAddrAddr.2 ∧
              t.flag (R.memErrAddr h) F.memErrAddrValid = true) ∧ same t))))) ∧
    (∀ d, x = .write d →
      let lost := s.stackLost a = true ∨ s.cxlCut a d.length = true
      let own := ∃ c : Fin 64, r = .core c ∧ s.owns c a d.length = true
      (may → ¬ idle → ¬ own → waits) ∧
      (idle → (¬ may ∨ lost) → ¬ own → Answers run (fun t => t.resp = .error ∧ same t)) ∧
      (may → own ∨ (idle ∧ ¬ lost) → Answers run (fun t => t.resp = .done ∧ t.bytes a d.length = d ∧ MemoryBut [(a, d.length)] s t ∧
        (∀ p ∈ t.poison, p ∈ s.poison ∧ ¬ (a ≤ p ∧ p + unitSize p ≤ a + d.length)) ∧ Apart s t))) ∧
    (∀ op n p q, x = .atom op n p q → Answers run (fun t => t.resp = .error ∧ same t))) ∧
  (∀ (s : State) (i : Fin 2048) (lead : List (Nat × Nat)) (a : Nat) (x : Access) (e : Errs), accSize x ≠ 0 → isSpadStride a = false →
    let u := s.lead i lead
    let c := s.runCore i
    let v := s.l1Line c (lineOf a)
    let m := partMask (lineOf a) a (accSize x)
    let held := v.have_ &&& m = m
    let run := exec (.memoryAccess (.tile i) lead a x e) s
    let within := a % 64 + accSize x ≤ 64
    let rest := fun t : State => (∀ j, t.treg i j = u.treg i j) ∧ MemoryBut (linesHeld s i) s t ∧ Apart s t
    (∀ n, x = .read n → within →
      (¬ held → s.lineOpen (lineOf a) 64 = true → run = .next s) ∧
      (held ∨ s.lineOpen (lineOf a) 64 = false → Fetches s i lead 2 →
        (u.tMay i a n 0 = false → Answers run (fun t => Trapped u t i 5 a ∧ SameMemory s t ∧ Apart s t)) ∧
        (u.tMay i a n 0 = true → e.mem = [] →
          let bad := if held then v.bad else s.bad (lineOf a) 64 || s.cxlDown (lineOf a)
          Answers run (fun t => t.resp = (if bad && (v.dirty &&& m) != m then .poison else .data (s.coreBytes c a n)) ∧ rest t)))) ∧
    (∀ d, x = .write d → Fetches s i lead 2 →
      (u.tMay i a d.length 1 = false → Answers run (fun t => Trapped u t i 7 a ∧ SameMemory s t ∧ Apart s t)) ∧
      (u.tMay i a d.length 1 = true → within → Answers run (fun t => t.resp = .done ∧ t.coreBytes c a d.length = d ∧ rest t))))

/-- R81, R82, R259, R260: SCRATCHPAD_ACCESS, MEMORY_ACCESS. -/
def Obligations.ScratchpadAccesses : Prop :=
  ∀ (s : State) (r : Requester) (lead : List (Nat × Nat)) (a : Nat) (x : Access) (errs : Errs),
    (isSpadStride a = false → exec (.scratchpadAccess r lead a x errs) s = .next s) ∧
    (isSpadStride a = true → accSize x ≠ 0 → ∀ c, c = Instr.scratchpadAccess r lead a x errs ∨ c = Instr.memoryAccess r lead a x errs →
      let n := accSize x
      let good := s.domainUp 8 = true ∧ s.unitOpen (s.engOwner (spadEng a)) = true ∧ spadOff a + n ≤ 0x1800000
      let same := fun t : State => SameMemory s t ∧ SameRegs errorRegs s t ∧ Apart s t
      let value := fun n => if s.badFabric a n then Resp.poison else .data (s.bytes a n)
      let reads := fun n => (errs.mem = [] → Answers (exec c s) (fun t => t.resp = value n ∧ t.poison = s.poison ∧ same t)) ∧
          (∀ p ecc, errs.mem = [(p, ecc)] → isSpad p = true → lineOf a ≤ p → p < lineOf (a + n - 1) + 64 → s.poison.contains (unitOf p) = false →
            let e := R.mxeEcc (spadEng p)
            (ecc = 1 → Answers (exec c s) (fun t => t.resp = value n ∧
              t.poison = s.poison ∧ t.fld e F.mxeEccCorr = min (s.fld e F.mxeEccCorr + 1) (2 ^ 16 - 1) ∧ same t)) ∧
            (2 ≤ ecc → Answers (exec c s) (fun t => t.resp = .poison ∧ unitOf p ∈ t.poison ∧
              t.fld e F.mxeEccUncorr = min (s.fld e F.mxeEccUncorr + 1) (2 ^ 16 - 1) ∧ same t)))
      let stores := fun d : List Byte => Answers (exec c s) (fun t => t.resp = .done ∧ t.bytes a d.length = d ∧
          MemoryBut [(a, d.length)] s t ∧ Apart s t)
      ((∀ i, r ≠ .tile i) →
        let may := good ∧ (∀ i, r = .core i → natural a n = true) ∧
          ∀ k : Fin 16, r = .unit k → s.inStake k a n = true ∧ s.engOwner (spadEng a) = some k.val
        (¬ may → Answers (exec c s) (fun t => t.resp = .error ∧ same t)) ∧
        (may → ∀ n, x = .read n → reads n) ∧
        (may → ∀ d, x = .write d → (s.asuPart a d.length = true → Answers (exec c s) (fun t => t.resp = .error ∧ same t)) ∧
          (s.asuPart a d.length = false → stores d)) ∧
        (∀ op n p q, x = .atom op n p q → Answers (exec c s) (fun t => t.resp = .error ∧ same t))) ∧
      (∀ i : Fin 2048, r = .tile i → Fetches s i lead 2 →
        let u := s.lead i lead
        let traps := fun cause => Answers (exec c s) (fun t => Trapped u t i cause a ∧ SameMemory s t ∧ Apart s t)
        (∀ n, x = .read n → (u.tMay i a n 0 = false → traps 5) ∧
          (u.tMay i a n 0 = true → (natural a n = false → traps 4) ∧ (natural a n = true → reads n))) ∧
        (∀ d, x = .write d → (u.tMay i a d.length 1 = false → traps 7) ∧
          (u.tMay i a d.length 1 = true → (natural a n = false → traps 6) ∧
            (natural a n = true → (s.asuPart a n = true → traps 7) ∧ (s.asuPart a n = false → stores d))))))

/-- R263, R264, R265, R344, R356: PATROL_SCRUB, HBM_STACK_LOST, HBM_TEMP_CHANGE. R267, R268, R269: CXT_DEC_COMMIT, CXT_DEC_UNCOMMIT, CXT_DEC_LOCK, CXL_LINK_DOWN, CXL_LINK_UP. -/
def Obligations.HbmAndCxl : Prop :=
  ((∀ (s : State) (h : Fin 8) (a ecc : Nat) (raced last : Bool), isHbm a = true → octetOf a / 2 = h →
      s.fld (R.memStatus h) F.memStatusState = 1 → s.fld (R.memScrub h) F.memScrubPeriod ≠ 0 →
      Answers (exec (.patrolScrub h a ecc raced last) s) (fun t =>
        t.fld (R.memScrub h) F.memScrubPasses = (s.fld (R.memScrub h) F.memScrubPasses + (if last then 1 else 0)) % 2 ^ 32 ∧
        (ecc = 0 ∨ (raced = true ∧ ecc ≠ 1) → t.reg (R.memEcc h) = s.reg (R.memEcc h) ∧ t.poison = s.poison) ∧
        (s.poison.contains (lineOf a) = false →
          (ecc = 1 → t.fld (R.memEcc h) F.memEccCorr = min (s.fld (R.memEcc h) F.memEccCorr + 1) (2 ^ 32 - 1) ∧ t.poison = s.poison) ∧
          (2 ≤ ecc → raced = false → lineOf a ∈ t.poison ∧
            t.fld (R.memEcc h) F.memEccUncorr = min (s.fld (R.memEcc h) F.memEccUncorr + 1) (2 ^ 16 - 1))) ∧
        SameRegs [R.memScrub h, R.memEcc h, R.memErrAddr h] s t ∧ SameMemory s t ∧ Apart s t)) ∧
    (∀ (s : State) (h : Fin 8) (cause : Nat), s.domainUp 5 = true →
      let st := s.fld (R.memStatus h) F.memStatusState
      let lost := fun (cause : Nat) (t : State) =>
        t.fld (R.memStatus h) F.memStatusState = 3 ∧ t.fld (R.memStatus h) F.memStatusLostCause = cause ∧
        t.flag R.hifMEvt F.hifMEvtHbmLost = true ∧ t.failCh = (s.failCh ||| ((2 ^ 16 - 1) <<< (16 * h.val))) ∧
        (∀ a, isHbm a = true → octetOf a / 2 = h → t.stackLost a = true) ∧
        (∀ k, k < 16 →
          let hit := s.enabled k = true ∧ ((s.stake k).ch >>> (16 * h.val)) % 2 ^ 16 ≠ 0 ∧ s.flag (R.psqJrnlStatus k) F.psqJrnlStatusOpen = true
          (hit → t.flag (R.psqJrnlStatus k) F.psqJrnlStatusOpen = false ∧ t.flag (R.psqJrnlStatus k) F.psqJrnlStatusEnded = true ∧
            t.fld (R.psqJrnlStatus k) F.psqJrnlStatusCause = 2) ∧
          (¬ hit → t.reg (R.psqJrnlStatus k) = s.reg (R.psqJrnlStatus k))) ∧ SameMemory s t
      (1 ≤ cause → cause ≤ 3 → st ≠ 3 → (cause = 1 → st = 0) → Answers (exec (.hbmStackLost h cause) s) (lost cause)) ∧
      (st = 3 → exec (.hbmStackLost h cause) s = .next s) ∧
      (cause = 1 → st ≠ 0 → exec (.hbmStackLost h cause) s = .next s) ∧
      (∀ temp, Answers (exec (.hbmTempChange h temp) s) (fun t =>
        t.fld (R.memStatus h) F.memStatusTemp = min temp 255 ∧
        t.lk.hbmHot.testBit h = (decide (95 < temp) || (s.lk.hbmHot.testBit h && decide (90 < temp))) ∧
        t.fld R.lkThrot F.lkThrotLevel = max s.lk.tjLevel (max (if t.lk.hbmHot = 0 then 0 else 2) (s.fld R.lkThrot F.lkThrotSw)) % 4 ∧
        (105 ≤ temp → st ≠ 3 → lost 3 t) ∧
        (temp < 105 → t.fld (R.memStatus h) F.memStatusState = st ∧ t.failCh = s.failCh) ∧ SameMemory s t)))) ∧
  ((∀ (s : State) (m : Master) (n : Fin 8), Granted s m (R.cxtDecCtl n) →
      let c := R.cxtDecCtl n
      let ways := s.fld c F.cxtDecCtlWays
      let size := s.fld (R.cxtDecSize n) F.cxtDecSizeSize
      let first := fun i => s.fld (R.cxtDecBase i) F.cxtDecBaseBase * 2 ^ 28
      let past := fun i => first i + s.fld (R.cxtDecSize i) F.cxtDecSizeSize * 2 ^ 28
      let port := fun w => (s.fld c F.cxtDecCtlTarget >>> (2 * w)) % 4
      let ok := ways < 3 ∧ s.fld c F.cxtDecCtlGran < 7 ∧ size ≠ 0 ∧ size % 2 ^ ways = 0 ∧ cxlBase ≤ first n ∧
        past n ≤ cxlEnd ∧
        (∀ i, i < 8 → i ≠ n → s.flag (R.cxtDecCtl i) F.cxtDecCtlCommitted = true → past n ≤ first i ∨ past i ≤ first n) ∧
        (∀ v w, v < w → w < 2 ^ ways → port v ≠ port w) ∧
        (∀ w, w < 2 ^ ways → s.flag (R.cxtPStatus (port w)) F.cxtPStatusLinkUp = true ∧ s.flag (R.cxtPStatus (port w)) F.cxtPStatusDevice = true)
      let only := fun t : State => t.resp = .done ∧ SameRegs [c, R.lkWstat m.num] s t ∧ SameMemory s t ∧ SameModule s t
      let refused := fun t : State => t.resp = .error ∧ SameRegs outcomeRegs s t ∧ SameMemory s t ∧ SameModule s t
      (s.flag c F.cxtDecCtlCommitted = false →
        (ok → Answers (exec (.cxtDecCommit m n) s) (fun t => t.flag c F.cxtDecCtlCommit = true ∧ t.flag c F.cxtDecCtlCommitted = true ∧
          t.flag c F.cxtDecCtlCommitErr = false ∧ t.fld c F.cxtDecCtlTarget = s.fld c F.cxtDecCtlTarget ∧ only t)) ∧
        (¬ ok → Answers (exec (.cxtDecCommit m n) s) (fun t => t.flag c F.cxtDecCtlCommitted = false ∧ t.flag c F.cxtDecCtlCommitErr = true ∧
          only t))) ∧
      (s.flag c F.cxtDecCtlCommitted = true → Answers (exec (.cxtDecCommit m n) s) refused ∧ Answers (exec (.cxtDecLock m n) s) refused) ∧
      (s.flag c F.cxtDecCtlLock = false ∨ s.flag c F.cxtDecCtlCommitted = false → Answers (exec (.cxtDecUncommit m n) s) (fun t =>
        t.flag c F.cxtDecCtlCommit = false ∧ t.flag c F.cxtDecCtlCommitted = false ∧ only t)) ∧
      (s.flag c F.cxtDecCtlLock = true → s.flag c F.cxtDecCtlCommitted = true → Answers (exec (.cxtDecUncommit m n) s) refused) ∧
      (s.flag c F.cxtDecCtlCommitted = false → Answers (exec (.cxtDecLock m n) s) (fun t => t.flag c F.cxtDecCtlLock = true ∧
        t.flag c F.cxtDecCtlCommitted = false ∧ only t))) ∧
    (∀ (s : State) (p : Fin 4) (width speed : Nat) (flit device : Bool),
      let a := R.cxtPStatus p
      (s.flag a F.cxtPStatusLinkUp = true → Answers (exec (.cxlLinkDown p) s) (fun t => t.flag a F.cxtPStatusLinkUp = false ∧
        t.flag R.hifMEvt F.hifMEvtCxlDown = true ∧ SameRegs [a, R.hifMEvt] s t ∧ SameMemory s t ∧ SameModule s t)) ∧
      (s.flag a F.cxtPStatusLinkUp = false → exec (.cxlLinkDown p) s = .next s) ∧
      (s.blockUp 4 81 = true → flit = decide (speed = 6) → (width = 16 ∨ width = 8) → 1 ≤ speed → speed ≤ 6 → Answers (exec (.cxlLinkUp p width speed flit device) s) (fun t => t.flag a F.cxtPStatusLinkUp = true ∧
        t.fld a F.cxtPStatusWidth = width % 2 ^ F.cxtPStatusWidth.2 ∧ t.fld a F.cxtPStatusSpeed = speed % 2 ^ F.cxtPStatusSpeed.2 ∧
        t.flag a F.cxtPStatusFlit256 = flit ∧ t.flag a F.cxtPStatusDevice = device ∧ SameRegs [a] s t ∧ SameMemory s t ∧ SameModule s t)) ∧
      (s.blockUp 4 81 = false → exec (.cxlLinkUp p width speed flit device) s = .next s)))

/-- R256-R258, R307, R308, R311, R314, R370: MEMORY_ACCESS to registers, BAR0_ACCESS, BAR2_ACCESS, HIF_SYNC_READ. -/
def Obligations.RegisterAccessesAndBars : Prop :=
  let by' := fun (r : Requester) (m : Master) => (r = .sec ∧ m = .sec) ∨ (r = .host ∧ m = .host) ∨ ∃ c, r = .core c ∧ m = .core c
  (∀ (s : State) (r : Requester) (m : Master) (lead : List (Nat × Nat)) (a : Nat) (errs : Errs), isReg a = true → by' r m →
    let run := fun x => exec (.memoryAccess r lead a x errs) s
    (∀ n, n ≠ 0 → (n ≠ 8 ∨ a % 8 ≠ 0 ∨ s.wrapperOpen a = false) → Answers (run (.read n)) (fun t =>
      t.resp = .error ∧ SameRegs [] s t ∧ SameMemory s t)) ∧
    (∀ w i j k, a % 8 = 0 → s.wrapperOpen a = true → findReg a = some (w, i, j, k) → s.regView a = (s.reg a, s) → isCxlWindow a = false →
      isMsix a = false → isPba a = false → s.kvpAway a = false → Answers (run (.read 8)) (fun t =>
      t.resp = .value (readValue w (s.reg a)).toNat ∧ t.reg a = afterRead w (s.reg a) ∧ SameRegs [a] s t ∧ SameMemory s t)) ∧
    (∀ h : Fin 20, a = R.cohHStatus h → s.wrapperOpen a = true → Answers (run (.read 8)) (fun t => ∃ v : Word,
      t.resp = .value v.toNat ∧ v.fld F.cohHStatusBusy = (s.home h).tracks.length % 2 ^ F.cohHStatusBusy.2 ∧
      v.fld F.cohHStatusWatches = (s.home h).watches.length % 2 ^ F.cohHStatusWatches.2 ∧ SameMemory s t)) ∧
    (∀ d : List Byte, d.length = 8 → exec (.memoryAccess r [] a (.write d) errs) s = exec (.registerWrite m a (BitVec.ofNat 64 (ofBytes d))) s) ∧
    (∀ op n p q, n ≠ 0 → Answers (run (.atom op n p q)) (fun t => t.resp = .error ∧ SameRegs [] s t ∧ SameMemory s t)) ∧
    (∀ d : List Byte, d ≠ [] → d.length ≠ 8 → Answers (run (.write d)) (fun t =>
      t.resp = .error ∧ SameRegs [R.hifErr] s t ∧ SameMemory s t))) ∧
  (∀ (s : State) (cfg : List (Nat × Nat)) (off v : Nat) (x : Access), 0x1000000 ≤ off →
    exec (.bar0Access cfg off x) s = .next (s.config cfg) ∧
    (s.flag R.hifStatus F.hifStatusLinkUp = false → s.config cfg = s) ∧
    (s.flag R.hifStatus F.hifStatusLinkUp = true → SameMemory s (s.config cfg) ∧ SameRegs [] s (s.config cfg) ∧
      (s.config [(0, v)]).pci.d3 = (v == 3) ∧
      ((s.config [(1, v)]).pci.msixOn = bit v 0 ∧ (s.config [(1, v)]).pci.msixMask = bit v 1) ∧
      (s.config [(2, v)]).pci.aer = s.pci.aer &&& (s.pci.aer ^^^ v) ∧ (s.config [(3, v)]).resp = .value s.pciIds)) ∧
  (∀ (s : State) (cfg : List (Nat × Nat)) (off : Nat) (x : Access), (s.config cfg).flag R.hifStatus F.hifStatusLinkUp = true → off < 0x1000000 →
    let w := s.config cfg
    let a := if off < 0x800000 then regBase + off else w.fld R.hifRwin F.hifRwinBase * 2 ^ 22 + (off - 0x800000)
    let closed := 0xC00000 ≤ off ∨ (w.fld R.hifStatus F.hifStatusBoot = 1 ∧ a ≠ R.glbId ∧ a ≠ R.hifStatus ∧ a ≠ R.hifBoot ∧ a ≠ R.hifSync)
    let u := w.regAccess .host a x
    let run := exec (.bar0Access cfg off x) s
    let write := ∃ d, x = .write d
    (w.pci.d3 = true → Answers run (fun t => t.resp = (match x with
        | .write _ => .none
        | _ => .unsupported) ∧ t.pci.aer.testBit 20 = true ∧ SameRegs [] s t ∧ SameMemory s t)) ∧
    (w.pci.d3 = false → closed → (∀ n, x = .read n → run = .next (w.answer (.value 0))) ∧
      (∀ op n p q, x = .atom op n p q → Answers run (fun t => t.resp = .unsupported ∧ SameRegs [] s t ∧ SameMemory s t)) ∧
      (∀ d, x = .write d → Answers run (fun t => t.resp = .none ∧
        t.fld R.hifErr F.hifErrRejected = min (s.fld R.hifErr F.hifErrRejected + 1) (2 ^ F.hifErrRejected.2 - 1) ∧
        SameRegs [R.hifErr] s t ∧ SameMemory s t))) ∧
    (w.pci.d3 = false → ¬ closed → (write → run = .next (u.answer .none)) ∧
      (¬ write → (u.resp ≠ .error → run = .next u) ∧ (u.resp = .error → Answers run (fun t => t.resp = .abort ∧ t.pci.aer.testBit 15 = true ∧
        SameRegs [] u t ∧ SameMemory u t))))) ∧
  (∀ (s : State) (cfg : List (Nat × Nat)) (off : Nat) (x : Access) (errs : Errs), (s.config cfg).flag R.hifStatus F.hifStatusLinkUp = true →
    accSize x ≠ 0 → off + accSize x ≤ 0x4000000 →
    let w := s.config cfg
    let a := w.fld R.hifWin F.hifWinBase * 2 ^ 26 + off
    let staging := w.fld R.hifStatus F.hifStatusBoot = 1 ∨ w.fld R.hifStatus F.hifStatusBoot = 2
    let on := w.wrapperOpen R.hifWin = true ∧ w.flag R.hifWin F.hifWinEn = true
    let turned := match x with
      | .write _ => Resp.none
      | _ => Resp.abort
    let other := w.pci.d3 = true ∨ ∃ op n p q, x = .atom op n p q ∧ pcieAtom op n = false
    let counted := fun u t : State => t.fld R.hifErr F.hifErrBar2 = min (u.fld R.hifErr F.hifErrBar2 + 1) (2 ^ 16 - 1)
    let run := exec (.bar2Access cfg off x errs) s
    let refused := Answers run (fun t => t.resp = turned ∧ counted s t ∧ SameRegs [R.hifErr] s t ∧ SameMemory s t)
    (other → Answers run (fun t => t.resp = (match x with
        | .write _ => .none
        | _ => .unsupported) ∧ SameRegs [] s t ∧ SameMemory s t)) ∧
    (¬ other → staging → off + accSize x ≤ 0x100000 →
      (∀ n, x = .read n → Answers run (fun t => t.resp = .data ((List.range n).map (fun i =>
        (KMap.find s.weave.staging (off + i)).getD (Config.freeByte s.weave.stage (2 ^ 52 + (off + i))))) ∧ t.weave = s.weave ∧ SameRegs [] s t ∧
        SameMemory s t)) ∧
      (∀ d, x = .write d → Answers run (fun t => t.resp = .none ∧
        (∀ i, i < d.length → KMap.find t.weave.staging (off + i) = some (d.getD i 0)) ∧
        (∀ j, j < off ∨ off + d.length ≤ j → KMap.find t.weave.staging j = KMap.find s.weave.staging j) ∧
        t.weave.cur = s.weave.cur ∧ SameRegs [] s t ∧ SameMemory s t))) ∧
    (¬ other → staging → 0x100000 < off + accSize x → refused) ∧
    (¬ other → ¬ staging → (¬ on ∨ isReg a = true) → refused) ∧
    (¬ other → ¬ staging → on → isReg a = false → (∀ op n p q, x ≠ .atom op n p q) →
      ∀ u, exec (.memoryAccess .host [] a x errs) w = .next u → Answers run (fun t =>
      t.resp = (if u.resp = .error then turned else
        match x with
        | .write _ => .none
        | _ => u.resp) ∧ SameMemory u t ∧ SameRegs [R.hifErr] u t ∧ (u.resp = .error → counted u t))) ∧
    (¬ other → ¬ staging → on → isReg a = false → ∀ op n p q, x = .atom op n p q →
      ((isHbm a = false → isCxl a = false → refused) ∧ (atomOk op a n = false → refused)) ∧
      ∀ h : Fin 20, h.val = homeOf a → isHbm a = true ∨ isCxl a = true → atomOk op a n = true →
        ∀ u, exec (.atomic h .host [] op a 0 0 n p q) w = .next u → Answers run (fun t =>
          t.homes = u.homes ∧ SameMemory u t ∧ (u.resp ≠ .error → t.resp = u.resp)))) ∧
  (∀ s : State, s.flag R.hifStatus F.hifStatusLinkUp = true →
    (s.wrapperOpen R.hifSync = true → exec .hifSyncRead s = .next (s.answer (.value 0))) ∧
    (s.wrapperOpen R.hifSync = false → exec .hifSyncRead s = .next (s.answer .abort)))

/-- R269, R273-R275, R278, R279, R283, R370: RD_SHARED, RD_UNIQUE, RD_ONCE, WATCH. -/
def Obligations.HomeReads : Prop :=
  (∀ (s : State) (h : Fin 20) (g : Fin 69) (w : Fin 112) (a age ecc : Nat),
    (s.sharedMay g = false → exec (.rdShared h g a age ecc) s = .next s) ∧ (s.onceMay w = false → exec (.rdOnce h w a age ecc) s = .next s)) ∧
  ∀ (s : State) (h : Fin 20) (a age : Nat) (i : Instr) (r : HomeReq),
    (∃ g : Fin 69, i = .rdShared h g a age 0 ∧ r = plainReq .rdShared g a age 0 ∧ s.sharedMay g = true) ∨
      (∃ g : Fin 69, i = .rdUnique h g a age 0 ∧ r = plainReq .rdUnique g a age 0) ∨
      (∃ g : Fin 112, i = .rdOnce h g a age 0 ∧ r = plainReq .rdOnce g a age 0 ∧ s.onceMay g = true) ∨
      (∃ g : Fin 2048, i = .watch h g a age 0 ∧ r = plainReq .watch (112 + g) a age 0 ∧ a % 8 = 0) →
    homeOf a = h → isHbm a = true ∨ isCxl a = true →
    let m := s.home h
    let l := lineOf a
    let used := (m.tracks.filter (fun t => !t.rsvd)).length
    let owner := (m.entry l).elim [] (fun e => if e.owned = true ∨ r.kind = .rdUnique then (onesOf 69 e.holders).filter (· ≠ r.who) else [])
    let same := fun t : State => SameMemory s t ∧ Apart s t
    let swept := fun t : State => (t.home h).dir = m.dir.filter (fun x => !(x.line == l && x.holders == 0))
    (s.domainUp 6 = false → exec i s = .next (s.answer .error)) ∧
    (s.domainUp 6 = true → 254 ≤ used → age < s.ageLimit → Answers (exec i s) (fun t => t.resp = .retry ∧
      (t.home h).retry = m.retry ++ [(m.next, r, false)] ∧ (t.home h).tracks = m.tracks ∧ same t)) ∧
    (s.domainUp 6 = true → used < 254 →
      (m.isOpen l = true → Answers (exec i s) (fun t =>
        (t.home h).tracks = m.tracks ++ [⟨m.fresh, r, false, false, 0, none, [], .none⟩] ∧ t.resp = s.resp ∧ t.copies = s.copies ∧ same t)) ∧
      (m.isOpen l = false → (needsEntry r = true → m.entry l = none →
          (m.dir.filter (fun e => Config.dirSet h e.line % 65536 == Config.dirSet h l % 65536)).length < 16) →
        (owner ≠ [] → Answers (exec i s) (fun t =>
          (t.home h).tracks = m.tracks ++ [⟨m.fresh, r, false, false, 2, none, owner.map (fun g => (g, 0)), .none⟩] ∧ (t.home h).dir = m.dir ∧
          t.copies = s.copies ∧ same t)) ∧
        (owner = [] → s.err l 64 = true → Answers (exec i s) (fun t => t.resp = .error ∧ t.copies = s.copies ∧ same t)) ∧
        (owner = [] → s.err l 64 = false → Answers (exec i s) (fun t =>
          let line := fun st => if s.unreadable l 64 = true then Resp.poison else .line st (s.bytes l 64)
          same t ∧ (∃ T ∈ (t.home h).tracks, T.id = m.fresh ∧ T.phase = 4 ∧ T.req = r) ∧
          match r.kind with
          | .rdShared => t.resp = line 0 ∧ (l, r.who, false) ∈ t.copies ∧
            ∃ e, (t.home h).entry l = some e ∧ e.owned = false ∧
              e.holders = setBit ((m.entry l).elim 0 (fun e => e.holders)) r.who true
          | .rdUnique => t.resp = line 1 ∧ (∀ c ∈ t.copies, c.1 = l → c = (l, r.who, true)) ∧ (l, r.who, true) ∈ t.copies ∧
            (∃ e, (t.home h).entry l = some e ∧ e.owned = true ∧ e.holders = 2 ^ r.who) ∧
            (∀ w ∈ (t.home h).watches, lineOf w.1 ≠ l) ∧ t.wakes = s.wakes ++ m.wakes l 64
          | .rdOnce => t.resp = line 2 ∧ swept t ∧ t.copies = s.copies
          | _ => t.resp = (if s.unreadable l 64 = true then .poison else .value (s.num a 8)) ∧ swept t ∧
            (m.watches.length < 256 → (l, s.runCore (r.who - 112)) ∈ (t.home h).watches) ∧ t.copies = s.copies))))

/-- R248, R250, R260, R278, R280, R281: WR_FULL, WR_MASKED, ATOMIC. -/
def Obligations.HomeWritesAndAtomics : Prop :=
  (∀ (s : State) (h : Fin 20) (who : Fin 112) (a age mask : Nat) (alloc : Bool) (d : List Byte), HomeFree s h a → d.length = 64 →
    let l := lineOf a
    let full := exec (.wrFull h who a age 0 alloc d) s
    let masked := exec (.wrMasked h who a age 0 mask d) s
    (Unwritable s l → Answers masked (fun t => t.resp = .error ∧ SameMemory s t ∧ HomeEnded s t h)) ∧
    (¬ Unwritable s l → Answers masked (fun t => t.resp = .done ∧ MemoryBut [(l, 64)] s t ∧ (t.home h).entry l = none ∧
      (∀ i, i < 64 → t.byte (l + i) = if mask.testBit i then d.getD i 0 else s.byte (l + i)) ∧ HomeEnded s t h)) ∧
    ((alloc = true → (s.home h).entry l = none →
        ((s.home h).dir.filter (fun e => Config.dirSet h e.line % 65536 == Config.dirSet h l % 65536)).length < 16) →
      (Unwritable s l → Answers full (fun t => t.resp = .error ∧ SameMemory s t ∧ HomeEnded s t h)) ∧
      (¬ Unwritable s l → Answers full (fun t => t.resp = .done ∧ MemoryBut [(l, 64)] s t ∧ t.bytes l 64 = d ∧
        (alloc = false → (t.home h).entry l = none) ∧
        (alloc = true → ∃ e, (t.home h).entry l = some e ∧ e.owned = false ∧ e.holders = 2 ^ sliceOf h ∧ (l, sliceOf h, false) ∈ t.copies) ∧
        HomeEnded s t h)))) ∧
  (let acts := fun (u : State) (h : Nat) (o : Host.Outcome State Fault Refusal) (op : AtomOp) (a size x y : Nat) => HomeFree u h a →
      let l := lineOf a
      let far := (u.home h).entry l = none ∧ isHbm a = true
      let v := if u.unreadable l 64 = true then 2 ^ 64 else u.num a size
      (far → u.quayLost (octetOf a) = true → Answers o (fun t => t.resp = .error ∧ SameMemory u t ∧ Apart u t)) ∧
      (far → u.quayLost (octetOf a) = false → Answers o (fun t =>
        (t.qu (octetOf a)).trig = (u.qu (octetOf a)).trig ++ [.atom ⟨h + 20 * (u.home h).fresh, op, a, size, x, y⟩] ∧
        (∃ T ∈ (t.home h).tracks, T.id = (u.home h).fresh ∧ T.phase = 3) ∧ SameMemory u t ∧ Apart u t)) ∧
      (¬ far → u.err l 64 = true → Answers o (fun t => t.resp = .error ∧ SameMemory u t ∧ HomeEnded u t h)) ∧
      (¬ far → u.err l 64 = false → Answers o (fun t => t.resp = valueResp v ∧ HomeEnded u t h ∧
        (v ≠ 2 ^ 64 → ¬ Unwritable u l → t.num a size = atomicNew op size v x y % 2 ^ (8 * size) ∧ MemoryBut [(a, size)] u t) ∧
        (v = 2 ^ 64 ∨ Unwritable u l → SameMemory u t)))
    ∀ (s : State) (h : Fin 20) (lead : List (Nat × Nat)) (op : AtomOp) (a age size x y : Nat), homeOf a = h →
      (isHbm a = true ∨ isCxl a = true) → size = 4 ∨ size = 8 →
      (∀ r, (r = .sec ∨ (∃ k, r = .unit k) ∨ (r = .host ∧ s.hostReaches a size = true)) →
        (atomOk op a size = true → acts s h (exec (.atomic h r lead op a age 0 size x y) s) op a size x y) ∧
        (atomOk op a size = false → exec (.atomic h r lead op a age 0 size x y) s = .next (s.answer .error))) ∧
      (s.hostReaches a size = false → exec (.atomic h .host lead op a age 0 size x y) s = .next s) ∧
      (∀ c : Fin 64,
        let u := s.coreLead c lead
        let o := exec (.atomic h (.core c) lead op a age 0 size x y) s
        (atomOk op a size = false → o = .next (u.answer .error)) ∧
        (atomOk op a size = true → u.owns c a size = false → acts u h o op a size x y) ∧
        (atomOk op a size = true → u.owns c a size = true → Answers o (fun t => t.homes = u.homes ∧ t.copies = u.copies ∧ Apart u t ∧
          (u.bad a size = true → t.resp = .poison ∧ SameMemory u t) ∧
          (u.bad a size = false → t.resp = .value (u.num a size) ∧ MemoryBut [(a, size)] u t ∧
            t.num a size = atomicNew op size (u.num a size) x y % 2 ^ (8 * size))))) ∧
      (∀ i : Fin 2048, Fetches s i lead 4 → atomOk op 0 size = true →
        let w := met s i lead 4
        let u := (((w.dropLine i (lineOf a)).nextOp i).saveThread i true)
        let q : HomeReq := ⟨.atomic, 112 + i, a, age, 0, [], false, op, size, x, y, u.opnum i, 0⟩
        let o := exec (.atomic h (.tile i) lead op a age 0 size x y) s
        let may := a % size = 0 ∧ isSpadStride a = false ∧ w.tMay i a size 0 = true ∧ w.tMay i a size 1 = true
        (may → u.domainUp 6 = true → (u.homeSeen h q = none → acts u h o op a size x y) ∧ (u.homeSeen h q = some none → o = .next u) ∧
          (∀ v, u.homeSeen h q = some (some v) → o = .next (u.answer (valueResp v)))) ∧
        (a % size ≠ 0 → Answers o (fun t => Trapped (s.lead i lead) t i 6 a ∧ SameMemory s t ∧ Apart s t)) ∧
        (a % size = 0 → ¬ may → Answers o (fun t => Trapped (s.lead i lead) t i 7 a ∧ SameMemory s t ∧ Apart s t))))

/-- R244, R248, R250, R281, R282: LR, SC. -/
def Obligations.Reservations : Prop :=
  ∀ (s : State) (h : Fin 20) (lead : List (Nat × Nat)) (a age size v : Nat), homeOf a = h → (isHbm a = true ∨ isCxl a = true) →
    size = 4 ∨ size = 8 →
    let l := lineOf a
    (∀ i : Fin 2048, Fetches s i lead 4 →
      let w := met s i lead 4
      let aligned := a % size = 0
      let mayRead := aligned ∧ isSpadStride a = false ∧ w.tMay i a size 0 = true
      let mayWrite := aligned ∧ isSpadStride a = false ∧ w.tMay i a size 1 = true
      let first := w.dropLine i l
      let u := (first.nextOp i).saveThread i true
      let q : HomeReq := { plainReq .sc (112 + i) a age 0 with
        size := size
        a := v
        opnum := u.opnum i }
      let lr := exec (.lr h (.tile i) lead a age 0 size) s
      let sc := exec (.sc h (.tile i) lead a age 0 size v) s
      let traps := fun (o : Host.Outcome State Fault Refusal) (cause : Nat) =>
        Answers o (fun t => Trapped (s.lead i lead) t i cause a ∧ SameMemory s t ∧ Apart s t)
      (mayRead → HomeFree first h a → first.err l 64 = false → Answers lr (fun t => KMap.find t.resv i = some l ∧
        t.resp = (if first.unreadable l 64 = true then .poison else .value (first.num a size)) ∧ SameMemory first t ∧ HomeEnded first t h)) ∧
      (mayWrite → HomeFree u h a → u.homeSeen h q = none → u.err l 64 = false →
        let stands := KMap.find u.resv i = some l ∧ ¬ Unwritable u l
        (stands → Answers sc (fun t => t.resp = .value 0 ∧ t.num a size = v % 2 ^ (8 * size) ∧ MemoryBut [(a, size)] u t ∧
          KMap.find t.resv i = none ∧ HomeEnded u t h)) ∧
        (¬ stands → Answers sc (fun t => t.resp = .value 1 ∧ SameMemory u t ∧ KMap.find t.resv i = none ∧ HomeEnded u t h))) ∧
      (∀ n, mayWrite → u.domainUp 6 = true → u.homeSeen h q = some (some n) → sc = .next (u.answer (.value n))) ∧
      (¬ aligned → traps lr 4 ∧ traps sc 6) ∧ (aligned → ¬ mayRead → traps lr 5) ∧ (aligned → ¬ mayWrite → traps sc 7)) ∧
    (∀ c : Fin 64,
      let u := s.coreLead c lead
      let lr := exec (.lr h (.core c) lead a age 0 size) s
      let sc := exec (.sc h (.core c) lead a age 0 size v) s
      a % size = 0 →
      (u.owns c a size = true → Answers lr (fun t => KMap.find t.resv (2048 + c) = some l ∧ t.homes = u.homes ∧ SameMemory u t ∧ Apart u t ∧
        t.resp = (if u.bad a size = true then .poison else .value (u.num a size)))) ∧
      (u.owns c a size = false → lr = .next u) ∧
      (let stands := KMap.find u.resv (2048 + c) = some l ∧ u.owns c a size = true;
        (stands → Answers sc (fun t => t.resp = .value 0 ∧ t.num a size = v % 2 ^ (8 * size) ∧ MemoryBut [(a, size)] u t ∧
          KMap.find t.resv (2048 + c) = none ∧ t.homes = u.homes ∧ Apart u t)) ∧
        (¬ stands → Answers sc (fun t => t.resp = .value 1 ∧ SameMemory u t ∧ KMap.find t.resv (2048 + c) = none ∧ t.homes = u.homes ∧
          Apart u t)))) ∧
    (∀ r, (r = .sec ∨ r = .host ∨ ∃ k, r = .unit k) → exec (.lr h r lead a age 0 size) s = .next s ∧ exec (.sc h r lead a age 0 size v) s = .next s)

/-- R278-R280, R284, R285: SNOOP, SNOOP_ANSWER, SNOOP_TIMEOUT, WBACK, TRACKER_FREE, GRANT, QUAY_ATOMIC_RETURN. -/
def Obligations.HomeTransactions : Prop :=
  ∀ (s : State) (h : Fin 20),
    let m := s.home h
    let still := ∀ x ∈ m.tracks, x.phase ≠ 0
    (∀ (g : Fin 69) (id : Nat) (wb : Bool) (T : Tracker), m.tracker id = some T → (g.val, 0) ∈ T.snoops →
      let l := T.victim.getD (lineOf T.req.addr)
      let owns := (s.copies.find? (fun c => c.1 == l && c.2.1 == g.val)).map (fun c => c.2.2) = some true
      let shared := T.victim = none ∧ T.req.ecc ≠ 2 ∧ (T.req.kind = .rdShared ∨ T.req.kind = .rdOnce ∨ T.req.kind = .watch ∨ T.req.kind = .lr)
      Answers (exec (.snoop h g id wb) s) (fun t =>
        (t.home h).tracks = m.tracks.map (fun x => if x.id = T.id then { T with snoops := T.snoops.map (fun y =>
          if y = (g.val, 0) then (g.val, if owns then (if wb then 3 else 2) else 1) else y) } else x) ∧
        (¬ shared ∨ (wb = true ∧ owns) → ∀ c ∈ t.copies, ¬ (c.1 = l ∧ c.2.1 = g.val)) ∧
        (shared → owns → wb = false → T.req.kind = .rdShared → (l, g.val, false) ∈ t.copies ∧ (l, g.val, true) ∉ t.copies) ∧
        (∀ c, ¬ (c.1 = l ∧ c.2.1 = g.val) → (c ∈ t.copies ↔ c ∈ s.copies)) ∧ SameMemory s t ∧ Apart s t)) ∧
    (∀ (g : Fin 69) (id : Nat) (T : Tracker) (x : Nat × Nat), m.tracker id = some T → T.snoops.find? (fun y => y.1 == g.val) = some x →
      (s.ptbHome h g).1 = false → (x.2 = 1 ∨ x.2 = 2) → T.far = false → s.err (lineOf T.req.addr) 64 = false →
      let rest := T.snoops.filter (fun y => y.1 != g.val)
      let l := lineOf T.req.addr
      (rest ≠ [] → Answers (exec (.snoopAnswer h g id false) s) (fun t =>
        (t.home h).tracks = m.tracks.map (fun y => if y.id = T.id then { T with snoops := rest } else y) ∧ t.regs = s.regs ∧
        SameMemory s t ∧ Apart s t)) ∧
      (rest = [] → T.victim = none → still → Answers (exec (.snoopAnswer h g id false) s) (fun t =>
        (∃ X ∈ (t.home h).tracks, X.id = T.id ∧ X.phase = 4) ∧ Apart s t ∧
        (T.req.kind = .rdShared → t.resp = (if s.unreadable l 64 = true then .poison else .line 0 (s.bytes l 64)) ∧
          (l, T.req.who, false) ∈ t.copies ∧ SameMemory s t))) ∧
      (∀ e, T.victim = none → T.req.kind = .rdShared → still → m.entry l = some e → e.owned = true → e.holders.testBit g = true →
        Answers (exec (.snoopAnswer h g id true) s) (fun t => t.resp = .poison ∧ t.fld R.cohErr F.cohErrCode = 2 ∧
          t.fld R.cohErr F.cohErrHome = h ∧ t.fld R.cohErr F.cohErrAgent = g ∧ t.flag R.hifMEvt F.hifMEvtCohPoison = true ∧
          (Lands s l 64 → l ∈ t.poison) ∧ SameMemory s t))) ∧
    (∀ (g : Fin 69) (id : Nat) (err : Bool), m.tracker id = none →
      ((g.val, id) ∈ m.late → Answers (exec (.snoopAnswer h g id err) s) (fun t => (t.home h).late = m.late.erase (g.val, id) ∧
        t.fld (R.cohHCntTimeout h) F.cohHCntTimeoutLate = (s.fld (R.cohHCntTimeout h) F.cohHCntTimeoutLate + 1) % 2 ^ F.cohHCntTimeoutLate.2 ∧
        (t.home h).tracks = m.tracks ∧ SameRegs [R.cohHCntTimeout h] s t ∧ SameMemory s t)) ∧
      ((g.val, id) ∉ m.late → exec (.snoopAnswer h g id err) s = .next s)) ∧
    (∀ (id : Nat) (T : Tracker), m.tracker id = some T → T.snoops.filter (fun y => y.2 != 4) = [] → exec (.snoopTimeout h id) s = .next s) ∧
    (∀ (id : Nat) (T : Tracker) (x : Nat × Nat) (r : List (Nat × Nat)), m.tracker id = some T → T.snoops.filter (fun y => y.2 != 4) = x :: r →
      T.victim = none → s.err (lineOf T.req.addr) 64 = false → still → x.1 < 69 → Answers (exec (.snoopTimeout h id) s) (fun t =>
        t.fld R.cohErr F.cohErrCode = 1 ∧ t.fld R.cohErr F.cohErrHome = h ∧ t.fld R.cohErr F.cohErrAgent = x.1 ∧
        t.flag R.hifMEvt F.hifMEvtCohPoison = true ∧ (t.home h).late = m.late ++ (x :: r).map (fun y => (y.1, id)) ∧
        t.fld (R.cohHCntTimeout h) F.cohHCntTimeoutTimeouts =
          (s.fld (R.cohHCntTimeout h) F.cohHCntTimeoutTimeouts + (x :: r).length) % 2 ^ F.cohHCntTimeoutTimeouts.2 ∧
        (∃ X ∈ (t.home h).tracks, X.id = T.id ∧ X.phase = 4) ∧
        (T.req.kind = .rdShared → t.resp = .poison ∧ (Lands s (lineOf T.req.addr) 64 → lineOf T.req.addr ∈ t.poison) ∧
          SameMemory s t))) ∧
    (∀ (g : Fin 69) (a : Nat), homeOf (lineOf a) = h →
      let l := lineOf a
      let awaited := fun t : Tracker => t.line == l && t.snoops.any (fun y => y.1 == g.val && decide (3 ≤ y.2))
      (m.tracks.find? awaited = none → s.copies.contains (l, g.val, true) = true → Answers (exec (.wback h g a) s) (fun t =>
        (l, g.val, true) ∉ t.copies ∧ (∀ c, c ≠ (l, g.val, true) → (c ∈ t.copies ↔ c ∈ s.copies)) ∧
        (∀ e, (t.home h).entry l = some e → e.holders.testBit g = false) ∧ SameMemory s t ∧ Apart s t)) ∧
      (∀ T, m.tracks.find? awaited = some T → (g.val, 4) ∉ T.snoops → Answers (exec (.wback h g a) s) (fun t =>
        (t.home h).tracks = m.tracks.map (fun y => if y.id = T.id then { T with snoops := T.snoops.map (fun y =>
          if y.1 = g.val then (g.val, 1) else y) } else y) ∧
        (∀ e, (t.home h).entry l = some e → e.holders.testBit g = false) ∧ SameMemory s t ∧ Apart s t))) ∧
    (∀ T, m.tracks.find? (fun t => t.phase == 4) = some T → Answers (exec (.trackerFree h) s) (fun t =>
      (t.home h).tracks = m.tracks.filter (fun x => x.id != T.id) ∧
      ((∀ p ∈ m.retry, p.2.2 = true) → (t.home h).retry = m.retry) ∧
      (∀ p ∈ m.retry, p.2.2 = false → ∃ b ∈ m.retry, b.2.2 = false ∧
        (∀ c ∈ m.retry, c.2.2 = false → c.2.1.age < b.2.1.age ∨ (c.2.1.age = b.2.1.age ∧ b.2.1.who ≤ c.2.1.who)) ∧
        (t.home h).retry = m.retry.map (fun c => if c.1 = b.1 then (c.1, c.2.1, true) else c)) ∧ SameMemory s t ∧ Apart s t)) ∧
    (m.tracks.find? (fun t => t.phase == 4) = none → exec (.trackerFree h) s = .next s) ∧
    (∀ (id : Nat) (p : Nat × HomeReq × Bool), m.retry.find? (fun p => p.1 == id && p.2.2) = some p → homeOf p.2.1.addr = h →
      isHbm p.2.1.addr = true ∨ isCxl p.2.1.addr = true → s.domainUp 6 = true → (m.tracks.filter (fun t => !t.rsvd)).length < 254 →
      m.isOpen (lineOf p.2.1.addr) = true → s.homeSeen h p.2.1 = none → Answers (exec (.grant h id) s) (fun t =>
        (t.home h).retry = m.retry.filter (fun x => x.1 != id) ∧
        (t.home h).tracks = m.tracks ++ [⟨m.fresh, { p.2.1 with age := p.2.1.age + 1 }, false, s.goesFar h p.2.1, 0, none, [], .none⟩] ∧ SameMemory s t ∧ Apart s t)) ∧
    (∀ (id q v : Nat) (T : Tracker), m.tracker id = some T → T.phase = 3 → q < 16 → still →
      (∀ p, p < q → ∀ o ∈ (s.qu p).olds, o.1 ≠ h + 20 * id) → (s.qu q).olds.find? (fun o => o.1 == h + 20 * id) = some (h + 20 * id, v) →
      Answers (exec (.quayAtomicReturn h id) s) (fun t => t.resp = valueResp v ∧ (∃ X ∈ (t.home h).tracks, X.id = T.id ∧ X.phase = 4) ∧
        (∀ o ∈ (t.qu q).olds, o.1 ≠ h + 20 * id) ∧
        (T.req.numbered = true → KMap.find t.recs (h * 2048 + (T.req.who - 112)) = some (T.req.opnum, v)) ∧ SameMemory s t ∧ Apart s t))

/-- R315, R316, R319, R320, R322, R325: CREATE, DELETE, RESTART, HIF_DB_SQ, HIF_DB_CQ, IRQ_TIMER. -/
def Obligations.QueuePairs : Prop :=
  ∀ (s : State) (m : Master) (rivals : List Master) (n : Fin 64),
    let q := s.hqOf n
    let cfg := R.hifQCfg n
    let st := R.hifQStatus n
    let lv := min (s.fld cfg F.hifQCfgLevel) (s.fld R.glbArchLevel F.glbArchLevelLevelMax)
    let near := fun (a : Nat) (f h : Fld) (len : Nat) => s.flag a h || s.inOwner n (s.fld a f * 4096) len
    let reach := near (R.hifQSq n) F.hifQSqBase F.hifQSqHostmem (s.depth n * s.esize n) &&
      near (R.hifQCq n) F.hifQCqBase F.hifQCqHostmem (64 * s.depth n)
    let why := if s.qState n ≠ 0 then 4 else if lv < s.fld R.glbArchLevel F.glbArchLevelLevelMin then 1
      else if s.isPool n = false ∧ s.enabled (s.qpOwner n) = false then 5 else if reach = false then 3 else 0
    let only := fun (l : List Nat) (t : State) => SameRegs (l ++ outcomeRegs) s t ∧ SameMemory s t ∧ SameModule s t
    let there := s.cqFails n true = false
    (Granted s m (R.hifQCtl n) →
      (why ≠ 0 → Answers (exec (.create m rivals n) s) (fun t => t.fld st F.hifQStatusRefusal = why ∧ t.qState n = s.qState n ∧ t.hq = s.hq ∧
        only [st] t)) ∧
      (why = 0 → there ∨ q.run = [] → Answers (exec (.create m rivals n) s) (fun t =>
        t.qState n = 1 ∧ t.fld st F.hifQStatusGen = 1 ∧ t.fld st F.hifQStatusHead = 0 ∧ t.fld st F.hifQStatusRefusal = 0 ∧
        t.fld cfg F.hifQCfgGranted = lv % 2 ^ F.hifQCfgGranted.2 ∧ t.reg (R.hifQErr n) = 0 ∧
        (t.hqOf n).a = 0 ∧ (t.hqOf n).h = 0 ∧ (t.hqOf n).hold = [] ∧ (t.hqOf n).cqHead = 0 ∧
        (q.run = [] → (t.hqOf n).cqTail = 0 ∧ (t.hqOf n).run = [] ∧ only [st, cfg, R.hifQErr n, R.hifQCnt n] t) ∧
        (∀ c, q.run = [c] → (t.hqOf n).cqTail = 1 ∧ (t.hqOf n).run = if c.done then [] else [{ c with ack := true }]))) ∧
      (why = 0 → ¬ there → ∀ c, q.run = [c] → Answers (exec (.create m rivals n) s) (fun t =>
        t.qState n = 2 ∧ t.fld (R.hifQErr n) F.hifQErrCode = 3 ∧ (t.hqOf n).cqTail = 0 ∧ SameMemory s t ∧
        (t.hqOf n).run = [if c.done then c else { c with ack := false }])) ∧
      (s.qState n = 0 → Answers (exec (.delete m rivals n) s) (fun t => t.hq = s.hq ∧ only [] t)) ∧
      (s.qState n ≠ 0 → q.run ≠ [] → Answers (exec (.delete m rivals n) s) (fun t => t.qState n = s.qState n ∧
        t.hqOf n = { q with deleting := true, hold := [], again := 0 } ∧ only [] t)) ∧
      (s.qState n ≠ 0 → q.run = [] → Answers (exec (.delete m rivals n) s) (fun t => t.qState n = 0 ∧ t.hqOf n = .idle ∧ only [st] t)) ∧
      (s.qState n ≠ 2 → Answers (exec (.restart m rivals n) s) (fun t => t.hq = s.hq ∧ only [] t)) ∧
      (s.qState n = 2 → (∀ c ∈ q.run, c.done = true ∨ c.ack = true) →
        (q.lost = [] → Answers (exec (.restart m rivals n) s) (fun t => t.qState n = 1 ∧
          t.reg (R.hifQErr n) = 0 ∧ t.hqOf n = { q with again := 0 } ∧ only [st, R.hifQErr n] t)) ∧
        (∀ cid status, q.lost = [(cid, status)] →
          (there → Answers (exec (.restart m rivals n) s) (fun t => t.qState n = 1 ∧ (t.hqOf n).lost = [] ∧
            Entered s t n (q.h % s.depth n) 0 0 cid status 3 ∧ MemoryBut (cqBut s n) s t)) ∧
          (¬ there → Answers (exec (.restart m rivals n) s) (fun t => t.qState n = 2 ∧ t.fld (R.hifQErr n) F.hifQErrCode = 3 ∧
            (t.hqOf n).lost = q.lost ∧ SameMemory s t))))) ∧
    (∀ tail gen, tail < 65536 → gen < 256 → Granted s m (R.hifDbSq n) →
      let run := exec (.hifDbSq m n tail gen) s
      let d := s.depth n
      let at_ := ((gen + 254) % 255) * d + (if tail = 0 then d else tail)
      let ahead := (at_ + 255 * d - q.a) % (255 * d)
      let free := d - (q.a + 255 * d - q.h) % (255 * d)
      (s.qState n = 0 ∨ s.maySubmit m n = false → Answers run (fun t => t.hq = s.hq ∧
        t.fld R.hifErr F.hifErrDbDrop = min (s.fld R.hifErr F.hifErrDbDrop + 1) (2 ^ F.hifErrDbDrop.2 - 1) ∧ only [] t)) ∧
      (s.qState n ≠ 0 → s.maySubmit m n = true → d ≠ 0 →
        (ahead = 0 → Answers run (fun t => t.hq = s.hq ∧ only [] t)) ∧
        (ahead ≠ 0 → ahead ≤ free → Answers run (fun t => t.hqOf n = { q with a := at_ % (255 * d) } ∧
          t.fld st F.hifQStatusTail = tail % 2 ^ F.hifQStatusTail.2 ∧ only [st] t)) ∧
        (ahead ≠ 0 → free < ahead → 255 * d - d ≤ ahead → Answers run (fun t => t.hq = s.hq ∧
          t.fld (R.hifQCnt n) F.hifQCntStale = min (s.fld (R.hifQCnt n) F.hifQCntStale + 1) (2 ^ F.hifQCntStale.2 - 1) ∧
          only [R.hifQCnt n] t)) ∧
        (s.qState n = 2 → Answers run (fun t => t.qState n = 2 ∧ t.reg (R.hifQErr n) = s.reg (R.hifQErr n))) ∧
        (free < ahead → ahead < 255 * d - d → s.qState n ≠ 2 → Answers run (fun t => t.qState n = 2 ∧ t.fld (R.hifQErr n) F.hifQErrCode = 2 ∧
          t.fld (R.hifQErr n) F.hifQErrSlot = tail % 2 ^ F.hifQErrSlot.2 ∧ t.hq = s.hq ∧ only [st, R.hifQErr n] t)))) ∧
    (∀ head, head < 65536 → Granted s m (R.hifDbCq n) → s.qState n ≠ 0 → s.maySubmit m n = true → s.depth n ≠ 0 →
      let w := 2 * s.depth n
      let by_ := (head + w - q.cqHead % w) % w
      (w ≤ head ∨ q.cqTail - q.cqHead < by_ → Answers (exec (.hifDbCq m n head) s) (fun t => t.hq = s.hq ∧
        t.fld R.hifErr F.hifErrDbDrop = min (s.fld R.hifErr F.hifErrDbDrop + 1) (2 ^ F.hifErrDbDrop.2 - 1) ∧ only [] t)) ∧
      (head < w → by_ ≤ q.cqTail - q.cqHead → Answers (exec (.hifDbCq m n head) s) (fun t => (t.hqOf n).cqHead = q.cqHead + by_ ∧
        (t.hqOf n).irq = q.irq.filter (fun i => decide (q.cqHead + by_ ≤ i)) ∧ (t.hqOf n).cqTail = q.cqTail ∧ (t.hqOf n).run = q.run ∧
        only [] t))) ∧
    (let a := R.hifQIrq n
      let v := s.fld a F.hifQIrqVector
      (q.irq ≠ [] → q.sent = false → s.flag a F.hifQIrqEn = true → Answers (exec (.irqTimer n) s) (fun t =>
        t.hqOf n = { q with sent := true } ∧ only [] t ∧
        (s.flag a F.hifQIrqTarget = true → t.out = s.out ++ [.imsic (s.fld a F.hifQIrqHart) (s.fld a F.hifQIrqEiid)]) ∧
        (s.flag a F.hifQIrqTarget = false → s.vectorOpen v = true → t.out = s.out ++ [.msix v]) ∧
        (s.flag a F.hifQIrqTarget = false → s.vectorOpen v = false → t.out = s.out ∧ t.pba.testBit v = (s.pci.msixOn || s.pba.testBit v)))) ∧
      (q.irq = [] ∨ q.sent = true ∨ s.flag a F.hifQIrqEn = false → exec (.irqTimer n) s = .next s))

/-- R317-R322, R324, R329, R333, R334: SQ_FETCH, SQ_REFETCH, JOURNAL_COMMIT, POOL. -/
def Obligations.FetchingAndAcceptance : Prop :=
  (∀ (s : State) (n : Fin 64) (host : Option (List Byte)) (cqOk : Bool), s.qState n = 1 → (s.hqOf n).deleting = false →
    s.fld (R.hifQErr n) F.hifQErrCode ≠ 3 →
    let q := s.hqOf n
    let d := s.depth n
    let size := if s.flag (R.hifQCfg n) F.hifQCfgEsize then 512 else 64
    let a := s.fld (R.hifQSq n) F.hifQSqBase * 4096 + q.h % d * size
    let got := if s.flag (R.hifQSq n) F.hifQSqHostmem then (if s.flag R.hifStatus F.hifStatusLinkUp then host.map (fun b => slice b 0 size) else none)
      else if s.unreadable a size then none else some (s.bytes a size)
    let next := (q.h + 1) % (255 * d)
    let due := fun e => numAt e 3 1 = q.h / d + 1
    let errs := fun (i : Instr) (code : Nat) => Answers (exec i s) (fun t => t.qState n = 2 ∧ t.fld (R.hifQErr n) F.hifQErrCode = code ∧
      t.fld (R.hifQErr n) F.hifQErrSlot = q.h % d % 2 ^ F.hifQErrSlot.2 ∧ (t.hqOf n).h = q.h ∧ (t.hqOf n).hold = q.hold ∧ SameMemory s t)
    let takes := fun (i : Instr) (e : List Byte) =>
      (s.refusal n e = none → Answers (exec i s) (fun t => (t.hqOf n).h = next ∧ (t.hqOf n).hold = q.hold ++ [e] ∧ (t.hqOf n).again = 0 ∧
        t.fld (R.hifQStatus n) F.hifQStatusHead = next % d % 2 ^ F.hifQStatusHead.2 ∧
        t.fld (R.hifQStatus n) F.hifQStatusGen = (next / d + 1) % 2 ^ F.hifQStatusGen.2 ∧ t.qState n = 1 ∧ SameMemory s t)) ∧
      (∀ status, s.refusal n e = some status → s.cqFails n cqOk = false → Answers (exec i s) (fun t => (t.hqOf n).h = next ∧ (t.hqOf n).hold = q.hold ∧
        Entered s t n (next % d) 0 0 (numAt e 4 2) status 3 ∧ MemoryBut (cqBut s n) s t)) ∧
      (∀ status, s.refusal n e = some status → s.cqFails n cqOk = true → Answers (exec i s) (fun t => (t.hqOf n).h = next ∧ (t.hqOf n).hold = q.hold ∧
        (t.hqOf n).lost = q.lost ++ [(numAt e 4 2, status)] ∧ t.qState n = 2 ∧ t.fld (R.hifQErr n) F.hifQErrCode = 3 ∧ SameMemory s t))
    (q.again = 0 → q.h ≠ q.a → s.cqRoom n = true → s.acceptHeld n = false →
      (got = none → errs (.sqFetch n host cqOk) 4) ∧
      (∀ e, got = some e → due e → takes (.sqFetch n host cqOk) e) ∧
      (∀ e, got = some e → ¬ due e → Answers (exec (.sqFetch n host cqOk) s) (fun t => t.hqOf n = { q with again := 1 } ∧ t.regs = s.regs ∧
        SameMemory s t))) ∧
    (q.again ≠ 0 →
      (got = none → errs (.sqRefetch n host cqOk) 4) ∧
      (∀ e, got = some e → due e → takes (.sqRefetch n host cqOk) e) ∧
      (∀ e, got = some e → ¬ due e → 8 ≤ q.again → errs (.sqRefetch n host cqOk) 1) ∧
      (∀ e, got = some e → ¬ due e → q.again < 8 → Answers (exec (.sqRefetch n host cqOk) s) (fun t => t.hqOf n = { q with again := q.again + 1 } ∧
        t.fld (R.hifQCnt n) F.hifQCntRefetch = min (s.fld (R.hifQCnt n) F.hifQCntRefetch + 1) (2 ^ F.hifQCntRefetch.2 - 1) ∧
        SameRegs [R.hifQCnt n] s t ∧ SameMemory s t)))) ∧
  (∀ (s : State) (n : Fin 64) (e : List Byte) (r : List (List Byte)) (cqOk : Bool), (s.hqOf n).hold = e :: r → e.length ≤ 960 →
    s.isPool n = false → s.acceptHeld n = false →
    let k := s.qpOwner n
    let st := R.psqJrnlStatus k
    let seq := s.fld (R.psqJrnlNext k) F.psqJrnlNextNext
    let a := s.jSlot k seq
    let busy := s.num (a + 8) 4 = s.epochOf k ∧ 1 ≤ s.num (a + 12) 1 ∧ s.num (a + 12) 1 ≤ 3
    let c : Cmd := { Cmd.new seq 0 e with ack := true }
    let run := exec (.journalCommit n cqOk) s
    (s.flag st F.psqJrnlStatusOpen = false ∨ s.flag st F.psqJrnlStatusClosed = true → run = .next s) ∧
    (s.flag st F.psqJrnlStatusOpen = true → s.flag st F.psqJrnlStatusClosed = false →
      (s.bad a 64 = true → Answers run (fun t => t.flag st F.psqJrnlStatusOpen = false ∧ t.flag st F.psqJrnlStatusEnded = true ∧
        t.fld st F.psqJrnlStatusCause = 4 ∧ (t.hqOf n).run = [] ∧ (t.hqOf n).hold = [] ∧ SameMemory s t)) ∧
      (s.bad a 64 = false → busy → Answers run (fun t => t.flag st F.psqJrnlStatusFull = true ∧ t.hq = s.hq ∧ SameRegs [st] s t ∧ SameMemory s t)) ∧
      (s.bad a 64 = false → ¬ busy → s.qState n ≠ 0 → s.fld (R.hifQErr n) F.hifQErrCode ≠ 3 → s.cqFails n cqOk = true → s.qState n ≠ 2 → Answers run (fun t =>
        (t.hqOf n).hold = r ∧ (t.hqOf n).run = (s.hqOf n).run ++ [{ c with ack := false }] ∧ t.qState n = 2 ∧ t.fld (R.hifQErr n) F.hifQErrCode = 3 ∧
        Recorded s t n { c with ack := false } 1 ∧ MemoryBut [(a, 1024)] s t)) ∧
      (s.bad a 64 = false → ¬ busy → s.qState n ≠ 0 → s.fld (R.hifQErr n) F.hifQErrCode ≠ 3 → s.cqFails n cqOk = false → Writable [(a, 1024)] s →
        Separate ((a, 1024) :: cqBut s n) → Answers run (fun t =>
        (t.hqOf n).hold = r ∧ (t.hqOf n).run = ((s.hqOf n).run ++ [c]).map (fun x => if c.same x then c else x) ∧
        t.fld (R.psqJrnlNext k) F.psqJrnlNextNext = (seq + 1) % 2 ^ F.psqJrnlNextNext.2 ∧
        t.fld (R.hifQCnt n) F.hifQCntAccepted = (s.fld (R.hifQCnt n) F.hifQCntAccepted + 1) % 2 ^ F.hifQCntAccepted.2 ∧
        t.flag st F.psqJrnlStatusFull = false ∧ Entered s t n ((s.hqOf n).h % s.depth n) seq 0 c.cid 0 1 ∧ Recorded s t n c 1 ∧
        t.bytes (a + 64) e.length = e ∧ MemoryBut ((a, 1024) :: cqBut s n) s t)))) ∧
  (∀ (s : State) (n : Fin 64) (e : List Byte) (r : List (List Byte)) (cqOk : Bool), (s.hqOf n).hold = e :: r → e.length ≤ 512 → s.isPool n = true →
    s.acceptHeld n = false → s.flag R.hifPoolRing F.hifPoolRingEnable = true → s.qState n ≠ 0 → s.fld (R.hifQErr n) F.hifQErrCode ≠ 3 →
    let left := ((List.range 64).map (fun i => if s.isPool i then ((s.hqOf i).run.filter (fun c => !c.done)).length else 0)).sum
    let b := s.fld R.hifPoolRing F.hifPoolRingBase * 2 ^ 22
    let c : Cmd := { Cmd.new (s.poolK + 1) s.poolEra e with ack := true }
    (4096 ≤ left → exec (.pool n cqOk) s = .next s) ∧
    (left < 4096 → s.cqFails n cqOk = true → s.qState n ≠ 2 → Answers (exec (.pool n cqOk) s) (fun t => t.poolK = s.poolK + 1 ∧ t.qState n = 2 ∧
      t.fld (R.hifQErr n) F.hifQErrCode = 3 ∧ (t.hqOf n).run = (s.hqOf n).run ++ [{ c with ack := false }])) ∧
    (left < 4096 → s.cqFails n cqOk = false → Writable [(b, 0x200008)] s → Separate ((b, 0x200008) :: cqBut s n) → Answers (exec (.pool n cqOk) s) (fun t =>
      t.poolK = s.poolK + 1 ∧ t.bytes (b + 512 * (s.poolK % 4096)) e.length = e ∧ t.num (b + 0x200000) 8 = (s.poolK + 1) % 2 ^ 64 ∧
      t.flag R.hifMEvt F.hifMEvtPool = true ∧ (t.hqOf n).hold = r ∧ (t.hqOf n).cqTail = (s.hqOf n).cqTail + 1 ∧
      (s.flag R.hifMEvt F.hifMEvtPool = true → Entered s t n ((s.hqOf n).h % s.depth n) (s.poolK + 1) 0 c.cid 0 1) ∧
      (t.hqOf n).run = ((s.hqOf n).run ++ [c]).map (fun x => if c.same x then c else x) ∧
      t.fld (R.hifQCnt n) F.hifQCntAccepted = (s.fld (R.hifQCnt n) F.hifQCntAccepted + 1) % 2 ^ F.hifQCntAccepted.2 ∧
      MemoryBut ((b + 512 * (s.poolK % 4096), 512) :: (b + 0x200000, 8) :: cqBut s n) s t)))

/-- R313, R320-R324, R332, R334-R336: NOP, WRITE, COPY, PSQ_LIMIT, PSQ_POST, PSQ_CMD, COMMAND_COMPLETE, HIF_POOL_DONE,
HIF_POOL_RING_ENABLE. -/
def Obligations.HostCommands : Prop :=
  (∀ (s : State) (n : Fin 64) (c : Cmd) (opc : Nat), s.nextCmd n (· == opc) = some c → Settled s n → s.isPool n = false →
    let k := s.qpOwner n
    let e := c.entry
    let ends := fun (u t : State) (status result prog : Nat) (bad : Bool) => Finished u t n
      { c with issued := true, done := true, status := status, result := result, prog := prog, poison := bad }
    let rec_ := [recordAt s n c]
    (opc = 0 → Answers (exec (.hifNop n) s) (fun t => ends s t 0 0 c.prog c.poison ∧ SameRegs errorRegs s t ∧ MemoryBut rec_ s t)) ∧
    (opc = 1 → Lands s (numAt e 8 8) (numAt e 6 2) → Separate ((numAt e 8 8, numAt e 6 2) :: rec_) → Answers (exec (.hifWrite n) s) (fun t =>
      t.bytes (numAt e 8 8) (numAt e 6 2) = slice e 64 (numAt e 6 2) ∧ ends s t 0 0 c.prog c.poison ∧
      MemoryBut ((numAt e 8 8, numAt e 6 2) :: rec_) s t)) ∧
    (opc = 2 → s.lk.warnLow = false → ∀ (host : Option (List Byte)) (poisoned hostOk : Bool),
      let x := numAt e 0x1C 1
      let len := numAt e 0x18 4
      let m := min 4096 (len - c.prog)
      let src := numAt e 8 8 + c.prog
      let dst := numAt e 16 8 + c.prog
      let up := s.flag R.hifStatus F.hifStatusLinkUp
      let run := exec (.copy n host poisoned hostOk) s
      let on := fun (t : State) (bad : Bool) => (len ≤ c.prog + m → ends s t (if bad then 9 else 0) len (c.prog + m) bad) ∧
        (c.prog + m < len → (t.hqOf n).fin = (s.hqOf n).fin ∧ ∃ y ∈ (t.hqOf n).run, y = { c with issued := true, prog := c.prog + m, poison := bad })
      let fails := Answers run (fun t => ends s t 0x0A c.prog c.prog c.poison ∧ MemoryBut rec_ s t)
      (bit x 0 = true → host = none ∨ up = false → fails) ∧
      (bit x 0 = false → bit x 1 = true → hostOk = false ∨ up = false → fails) ∧
      (bit x 0 = false → bit x 1 = false → s.unreadable src m = false → Writable [(dst, m)] s →
        Separate ((dst, m) :: rec_) → Answers run (fun t => t.bytes dst m = s.bytes src m ∧ on t c.poison ∧ MemoryBut ((dst, m) :: rec_) s t)) ∧
      (∀ b, bit x 0 = true → bit x 1 = false → host = some b → up = true → Writable [(dst, m)] s →
        Separate ((dst / 64 * 64, m + 128) :: rec_) → Answers run (fun t => MemoryBut ((dst, m) :: rec_) s t ∧
          (poisoned = false → t.bytes dst m = slice b 0 m ∧ on t c.poison) ∧ (poisoned = true → on t true ∧ (0 < m → t.bad dst m = true)))) ∧
      (∀ b, bit x 1 = true → hostOk = true → up = true →
        (if bit x 0 then ∃ l, host = some l ∧ b = slice l 0 m else s.unreadable src m = false ∧ b = s.bytes src m) → Answers run (fun t =>
        let sick := bit x 0 && poisoned
        t.out = s.out ++ (List.range (ceilDiv m 64)).map (fun i => if sick then .poison (dst + 64 * i) ((b.drop (64 * i)).take 64).length
          else .write (dst + 64 * i) ((b.drop (64 * i)).take 64)) ∧ on t (c.poison || sick) ∧ MemoryBut rec_ s t)) ∧
      (bit x 0 = false → bit x 1 = false ∨ (hostOk = true ∧ up = true) → s.unreadable src m = true → Answers run (fun t =>
        (len ≤ c.prog + m → ∃ y ∈ (t.hqOf n).run, y.seq = c.seq ∧ y.done = true ∧ y.status = 9) ∧
        (c.prog + m < len → ∃ y ∈ (t.hqOf n).run, y = { c with issued := true, prog := c.prog + m, poison := true })))) ∧
    (s.firstLeft n c.seq = true → s.lk.warnLow = false →
      (opc = 0x10 →
        let x := numAt e 0x1C 1 % 4
        (s.indexOf k x ≤ numAt e 8 8 → Answers (exec (.psqLimit n) s) (fun t => t.limitOf k x = numAt e 8 8 % 2 ^ 64 ∧
          SameRegs (R.psqLimit k x :: errorRegs) s t ∧ (∃ y ∈ (t.hqOf n).run, y.seq = c.seq ∧ y.done = true ∧ y.status = 0 ∧ y.result = s.limitOf k x) ∧
          (s.pst k ≠ 4 → ends s t 0 (s.limitOf k x) c.prog c.poison ∧ MemoryBut rec_ s t))) ∧
        (numAt e 8 8 < s.indexOf k x → Answers (exec (.psqLimit n) s) (fun t => ends s t 7 (s.limitOf k x) c.prog c.poison ∧ SameRegs errorRegs s t ∧
          MemoryBut rec_ s t))) ∧
      (opc = 0x11 → Answers (exec (.hifPsqPost n) s) (fun t =>
        (∀ i, i < 64 → t.tok k i = if (numAt e 8 8).testBit i then min 65535 (s.tok k i + 1) else s.tok k i) ∧
        SameRegs ((List.range 16).map (R.psqToken k) ++ errorRegs) s t ∧ (∃ y ∈ (t.hqOf n).run, y.seq = c.seq ∧ y.done = true ∧ y.status = 0) ∧
        (t.hqOf n).fin = (s.hqOf n).fin ++ [(c.seq, c.era)])) ∧
      (opc = 0x12 → s.lk.resume.testBit k = false → Answers (exec (.hifPsqCmd n) s) (fun t =>
        ∃ y ∈ (t.hqOf n).run, y.seq = c.seq ∧ y.done = true ∧ (t.hqOf n).fin = (s.hqOf n).fin ++ [(c.seq, c.era)] ∧
          let cmd := numAt e 0x1C 1 % 16
          (cmd = 1 → s.pst k ≠ 1 → y.status = 8 ∧ t.pst k = s.pst k) ∧
          (cmd = 1 → s.pst k = 1 → s.stopCause k = false → y.status = 0 ∧ t.pst k = 2 ∧ ∀ x, x < 3 → t.indexOf k x = 0 ∧ t.pcOf k x = 0) ∧
          (cmd = 2 → s.pst k ≠ 2 → y.status = 8 ∧ t.pst k = s.pst k) ∧
          (cmd = 2 → s.pst k = 2 → y.status = 0 ∧ t.flag (R.psqStatus k) F.psqStatusStopPreempt = true) ∧
          (cmd = 3 → s.pst k ≠ 4 → y.status = 8 ∧ t.pst k = s.pst k) ∧
          (cmd = 3 → s.pst k = 4 → y.status = 0 ∧ t.flag (R.psqStatus k) F.psqStatusStopFault = false) ∧
          (cmd = 4 → s.pst k ≠ 1 → y.status = 8 ∧ t.pst k = s.pst k))))) ∧
  (∀ (s : State) (n : Fin 64) (id : Nat × Nat) (rest : List (Nat × Nat)) (c : Cmd) (cqOk : Bool), (s.hqOf n).fin = id :: rest →
    (s.hqOf n).run.find? (fun c => (c.seq, c.era) == id) = some c → s.qState n ≠ 0 → s.fld (R.hifQErr n) F.hifQErrCode ≠ 3 →
    let lost := s.flag (R.hifQCq n) F.hifQCqHostmem = true ∧ (cqOk = false ∨ s.flag R.hifStatus F.hifStatusLinkUp = false)
    (lost → s.qState n = 2 → exec (.commandComplete n cqOk) s = .next s) ∧
    (lost → s.qState n ≠ 2 → Answers (exec (.commandComplete n cqOk) s) (fun t => t.qState n = 2 ∧ t.fld (R.hifQErr n) F.hifQErrCode = 3 ∧ t.hq = s.hq ∧ SameMemory s t)) ∧
    (¬ lost → (s.hqOf n).deleting = false →
      let recs := if s.isPool n then [] else [recordAt s n c]
      Separate (cqBut s n ++ recs) → Answers (exec (.commandComplete n cqOk) s) (fun t =>
        Entered s t n ((s.hqOf n).h % s.depth n) c.seq c.result c.cid c.status 2 ∧ (t.hqOf n).fin = rest ∧
        (t.hqOf n).run = (s.hqOf n).run.filter (fun y => !(c.same y)) ∧
        (t.hqOf n).irq = (s.hqOf n).irq ++ (if c.irq then [(s.hqOf n).cqTail] else []) ∧
        (s.isPool n = false → Recorded s t n c 4) ∧ MemoryBut (cqBut s n ++ recs) s t))) ∧
  (∀ (s : State) (m : Master) (n : Fin 64) (cid status : Nat), Granted s m R.hifPoolDone →
    let found := (s.hqOf n).run.find? (fun c => !c.done && c.cid == cid % 65536)
    (∀ c, found = some c → s.isPool n = true → status = 0 ∨ status = 0x0B → Answers (exec (.hifPoolDone m n cid status) s) (fun t =>
      Finished s t n { c with issued := true, done := true, status := status, result := 0 } ∧ SameRegs outcomeRegs s t ∧ SameMemory s t)) ∧
    (found = none ∨ s.isPool n = false ∨ (status % 256 ≠ 0 ∧ status % 256 ≠ 0x0B) → Answers (exec (.hifPoolDone m n cid status) s) (fun t =>
      t.hq = s.hq ∧ SameRegs outcomeRegs s t ∧ SameMemory s t))) ∧
  (∀ (s : State) (m : Master) (base : Nat), Granted s m R.hifPoolRing → base < 2 ^ 52 → Answers (exec (.hifPoolRingEnable m base) s) (fun t =>
    t.flag R.hifPoolRing F.hifPoolRingEnable = true ∧ t.fld R.hifPoolRing F.hifPoolRingBase = base / 2 ^ 22 % 2 ^ F.hifPoolRingBase.2 ∧
    t.poolK = 0 ∧ t.poolEra = s.poolEra + 1 ∧ (Lands s (base / 2 ^ 22 * 2 ^ 22 + 0x200000) 8 → t.num (base / 2 ^ 22 * 2 ^ 22 + 0x200000) 8 = 0) ∧
    MemoryBut [(base / 2 ^ 22 * 2 ^ 22 + 0x200000, 8)] s t))

/-- R85, R250, R338-R343: UNIT_FAILURE, UNIT_WATCHDOG_TIMEOUT. -/
def Obligations.UnitFailures : Prop :=
  ∀ (s : State) (ns : Nat), s.domainUp 8 = true →
    let record := fun (t : State) (k kind unit : Nat) (peer : Option Nat) (alone : Bool) =>
      let a := R.psqFtRec0 k
      t.fld a F.psqFtRec0Kind = kind ∧ t.fld a F.psqFtRec0Unit = unit ∧ t.fld a F.psqFtRec0Peer = peer.getD 0xFF ∧
        t.flag a F.psqFtRec0Valid = true ∧ t.flag a F.psqFtRec0Nopeer = alone ∧
        t.fld a F.psqFtRec0Count = min (s.fld a F.psqFtRec0Count + 1) (2 ^ F.psqFtRec0Count.2 - 1) ∧
        t.fld (R.psqFtRec1 k) F.psqFtRec1Interrupt = ns % 2 ^ 32 ∧
        t.fld (R.psqFtRec1 k) F.psqFtRec1Step = s.fld (R.psqStep k) (0, 32) % 2 ^ F.psqFtRec1Step.2 ∧
        t.flag (R.hifSEvt k) F.hifSEvtFaultRecord = true
    let holds := fun (t : State) (k : Nat) (p : Outst → Bool) => ∀ x, x < 3 → ∀ o,
      minIndex ((s.q k).outst.filter (fun o => p o && o.strm == x)) = some o → Faulted s t k x 0x30 o.index
    (∀ kind unit, 5 ≤ kind → exec (.unitWatchdogTimeout kind unit ns) s = .next s) ∧
    (∀ (kind unit : Nat) (i : Instr), (i = .unitFailure kind unit ns ∨ (i = .unitWatchdogTimeout kind unit ns ∧ kind ≤ 4)) →
      (kind = 1 → unit < 32 →
        (s.failEng.testBit unit = true → exec i s = .next s) ∧
        (s.failEng.testBit unit = false →
          let on := fun o : Outst => (o.isMx || o.isVx) && o.unit == unit
          (s.engOwner unit = none → Answers (exec i s) (fun t => t.failEng = setBit s.failEng unit true ∧
            t.fld (R.mxeStatus unit) F.mxeStatusState = 4 ∧ t.fld (R.vecDvuStatus unit) F.vecDvuStatusState = 3 ∧
            SameRegs [R.mxeStatus unit, R.vecDvuStatus unit] s t ∧ SameMemory s t)) ∧
          (∀ k, s.engOwner unit = some k →
            let peer := firstOf 32 (fun u => decide (u / 8 = unit / 8) && (s.stake k).eng.testBit u && !(s.failEng.testBit u) && u != unit)
            (∀ u, peer = some u → Answers (exec i s) (fun t => t.failEng = setBit s.failEng unit true ∧ record t k 1 unit (some u) false ∧
              t.fld (R.mxeStatus unit) F.mxeStatusState = 4 ∧ t.fld (R.vecDvuStatus unit) F.vecDvuStatusState = 3 ∧
              (∀ o ∈ (t.q k).outst, on o = false) ∧ (t.q k).outst.length = (s.q k).outst.length ∧
              (∀ o ∈ (s.q k).outst, on o = true → o.again u ∈ (t.q k).outst) ∧ (∀ o ∈ (s.q k).outst, on o = false → o ∈ (t.q k).outst) ∧
              (∀ e, e < 32 → e / 8 = unit / 8 → s.engFor k e = unit → t.fld (R.psqFtSubst k (e / 16)) (3 * (e % 16), 3) = u % 8) ∧
              SameMemory s t)) ∧
            (peer = none → Answers (exec i s) (fun t => t.failEng = setBit s.failEng unit true ∧ record t k 1 unit none true ∧
              holds t k on))))) ∧
      (kind = 2 → unit < 8 →
        (s.failPvu.testBit unit = true → exec i s = .next s) ∧
        (s.failPvu.testBit unit = false → ∀ k, s.pvuOwner unit = some k →
          let peer := firstOf 8 (fun u => (s.stake k).pvu.testBit u && !(s.failPvu.testBit u) && u != unit)
          Answers (exec i s) (fun t => t.failPvu = setBit s.failPvu unit true ∧ record t k 2 unit peer peer.isNone ∧
            (peer = none → holds t k (fun o => o.isPv && o.unit == unit))))) ∧
      (kind = 3 → unit < 256 →
        (s.failTc.testBit unit = true → exec i s = .next s) ∧
        (s.failTc.testBit unit = false → ∀ k, s.tcOwner unit = some k →
          let hit := fun t => t / 512 = unit / 64 ∧ s.runCore t = unit ∧ (s.tState t = 1 ∨ s.tState t = 2 ∨ s.tState t = 3 ∨ s.tState t = 6)
          let host := ({ s with failTc := setBit s.failTc unit true } : State).hostFor k unit
          (host = none → Answers (exec i s) (fun t => t.failTc = setBit s.failTc unit true ∧ t.l1Of unit = [] ∧ record t k 3 unit none true ∧
            (∀ x, x < 2048 → hit x → t.tState x = 5 ∧ t.fld (thrReg x) F.tcxTCause = 0xFF) ∧
            (∀ x, x < 2048 → ¬ hit x → t.tState x = s.tState x))) ∧
          (∀ u, host = some u → (∀ x, x < 2048 → ¬ hit x) → Answers (exec i s) (fun t => t.failTc = setBit s.failTc unit true ∧
            t.l1Of unit = [] ∧ record t k 3 unit (some u) false ∧ t.thread = s.thread)) ∧
          (∀ u x, host = some u → x < 2048 → hit x → (∀ y, y < 2048 → hit y → y = x) → Answers (exec i s) (fun t => t.runCore x = u ∧
            t.tState x = (if s.tState x = 3 then 3 else 6) ∧ t.treg x tPc = s.num (s.saveArea x + 8 * tPc) 8 ∧
            record t k 3 unit (some u) false ∧ SameMemory s t)))) ∧
      (kind = 4 → unit < 16 →
        (s.failQuay.testBit unit = true → exec i s = .next s) ∧
        (s.failQuay.testBit unit = false → ∀ k, s.octOwner unit = some k →
          let both := s.failQuay.testBit (unit ^^^ 1)
          Answers (exec i s) (fun t => t.failQuay = setBit s.failQuay unit true ∧
            record t k 4 unit (if both then none else some (unit ^^^ 1)) both ∧ t.fld (R.quyStatus unit) F.quyStatusState = 3 ∧
            (both = false → t.fld (R.quyStatus (unit ^^^ 1)) F.quyStatusState = 2 ∧ SameMemory s t)))) ∧
      (kind = 5 → unit < 96 → i = .unitFailure kind unit ns → Answers (exec i s) (fun t =>
        (t.pt (unit / 8)).badLanes = setBit (s.pt (unit / 8)).badLanes (unit % 8) true ∧
        (s.portState (unit / 8) = 2 → (s.pt (unit / 8)).session = true → t.portState (unit / 8) = 3) ∧
        (∀ k ∈ s.portStakes (unit / 8), record t k 5 unit none false) ∧ SameMemory s t)) ∧
      (kind = 6 → unit < 12 → i = .unitFailure kind unit ns → Answers (exec i s) (fun t =>
        (s.portState unit = 2 ∨ s.portState unit = 3 → t.portState unit = 4 ∧ (t.pt unit).session = false) ∧
        (∀ k ∈ s.portStakes unit, t.fld (R.psqFtRec0 k) F.psqFtRec0Kind = 6 ∧ t.fld (R.psqFtRec0 k) F.psqFtRec0Unit = unit ∧
          t.flag (R.psqFtRec0 k) F.psqFtRec0Valid = true) ∧ SameMemory s t)))

/-- R333, R337, R344, Table 14-4: JOURNAL_REPLAY. -/
def Obligations.JournalReplays : Prop :=
  ∀ (s : State) (k : Fin 16),
    let b := (s.stake k).jrnlBase
    let st := R.psqJrnlStatus k
    let n := (s.stake k).jrnlKib - 4
    let e := s.num (b + 8) 4
    let spoilt := s.bad b 4096 = true ∨ ∃ i, i < n ∧ s.bad (b + 4096 + 1024 * i) 64 = true
    let found := (List.range n).filterMap (fun i => s.readRecord k i e)
    let ready := s.replay.testBit k = true ∧ s.enabled k = true ∧ s.wrapperOpen (R.psqStatus k) = true ∧
      s.fld (R.memStatus (octetOf b / 2)) F.memStatusState = 1
    (¬ ready → exec (.journalReplay k) s = .next s) ∧
    (ready → spoilt → Answers (exec (.journalReplay k) s) (fun t => t.replay = setBit s.replay k false ∧
      t.flag st F.psqJrnlStatusOpen = false ∧ t.flag st F.psqJrnlStatusEnded = true ∧ t.fld st F.psqJrnlStatusCause = 4 ∧ SameMemory s t)) ∧
    (ready → ¬ spoilt → Answers (exec (.journalReplay k) s) (fun t => t.replay = setBit s.replay k false ∧ t.epochOf k = e ∧
      t.flag st F.psqJrnlStatusOpen = true ∧ t.flag st F.psqJrnlStatusClosed = s.lk.warnLow ∧
      t.fld (R.psqJrnlNext k) F.psqJrnlNextNext = ((found.map (·.1)).foldl max 0 + 1) % 2 ^ F.psqJrnlNextNext.2 ∧
      (∀ r ∈ found, r.2.2.1 ≤ 3 → r.2.2.2 ∈ (t.hqOf r.2.1).run) ∧
      (t.flag st F.psqJrnlStatusReplay = false ↔ ∀ i, i < 64 → s.qpOwner i = k → ∀ c ∈ (t.hqOf i).run, c.done = true) ∧
      (s.lk.resume.testBit k = false → SameMemory s t)))

/-- R377, R378, R381-R387, R389, R393: GET_STATUS, GET_NONCE, GET_LOG, FLASH_WRITE, FLASH_COMMIT, FLASH_COMMIT_DONE, ENROLL_KEY,
REVOKE_KEY, ADVANCE_ROLLBACK, SECRET_PUT, DEBUG_OPEN, DEBUG_OPEN_ERASE_DONE, MODULE_RESET, NONCE_EXPIRY. -/
def Obligations.ManagementCommands : Prop :=
  (∀ (s : State) (q : Req), s.mgmtUp q.i3c = true →
    let answered := fun (t : State) (cmd status : Nat) (b : List Byte) => t.resp = .mgmt (cmd + 0x80) q.tag status b ∧
      t.fld R.secMgmt F.secMgmtLastCmd = cmd ∧ t.fld R.secMgmt F.secMgmtLastStatus = status ∧ t.flag R.secMgmt F.secMgmtTransport = q.i3c
    let calm := q.level = 1 ∧ q.rsvd = 0
    let same := fun t : State => t.fuses = s.fuses ∧ t.flash = s.flash ∧ t.sec.busy = s.sec.busy ∧ SameRegs [R.secMgmt] s t ∧ SameMemory s t
    (∀ off, let opens := [(Instr.getStatus q, 1), (.getNonce q, 2), (.getLog q off, 3)]
      (∀ p ∈ opens, (q.level ≠ 1 → Answers (exec p.1 s) (fun t => answered t p.2 6 [] ∧ t.sec = s.sec ∧ same t)) ∧
        (q.level = 1 → q.rsvd ≠ 0 → Answers (exec p.1 s) (fun t => (∃ st, 2 ≤ st ∧ st ≤ 6 ∧ answered t p.2 st []) ∧ t.sec = s.sec ∧ same t))) ∧
      (calm → Answers (exec (.getStatus q) s) (fun t => answered t 1 0 ([R.secState, R.secMgmt, R.lkStatus, R.lkThrot, R.wvStatus].flatMap (fun a =>
        toBytes 8 (s.reg a).toNat)) ∧ t.sec = s.sec ∧ same t)) ∧
      (calm → Answers (exec (.getLog q off) s) (fun t => answered t 3 0 (((Config.logBytes s.sec.log).drop off).take 4096) ∧ t.sec = s.sec ∧ same t)) ∧
      (calm → s.sec.busy = 0 → Answers (exec (.getNonce q) s) (fun t => (∃ b : List Byte, b.length = 32 ∧ answered t 2 0 b) ∧ t.sec.nonce = true ∧
        t.sec.nonces = s.sec.nonces + 1 ∧ same t)) ∧
      (calm → s.sec.busy ≠ 0 → Answers (exec (.getNonce q) s) (fun t => answered t 2 5 [] ∧ t.sec = s.sec ∧ same t))) ∧
    (∀ (off region len slot v idx : Nat) (data : List Byte) (sigOk : Bool) (d : BitVec 384),
      let auth := ∃ a, q.auth = some a ∧ a.slot < 4 ∧ s.fuses.usable a.slot = true ∧ a.sigOk = true ∧ s.sec.nonce = true
      let rom := s.fld R.secState F.secStateBoot = 2
      let good := calm ∧ s.sec.busy = 0 ∧ auth
      let all := [(Instr.flashWrite q off data, 0x10, false), (.flashCommit q region len sigOk, 0x11, true), (.enrollKey q d, 0x12, true),
        (.revokeKey q slot, 0x13, true), (.advanceRollback q v, 0x14, true), (.secretPut q idx data, 0x15, false), (.debugOpen q, 0x16, true),
        (.moduleReset q, 0x17, false)]
      let turned := fun (i : Instr) (cmd st : Nat) => Answers (exec i s) (fun t => answered t cmd st [] ∧ t.sec.nonce = false ∧ same t)
      let open_ := fun (i : Instr) (cmd : Nat) => Answers (exec i s) (fun t => (∃ st, 2 ≤ st ∧ st ≤ 6 ∧ answered t cmd st []) ∧
        t.sec.nonce = false ∧ same t)
      (∀ p ∈ all, (rom → 0x12 ≤ p.2.1 → exec p.1 s = .next s) ∧ (¬ rom ∨ p.2.1 < 0x12 →
        (q.level ≠ 1 → turned p.1 p.2.1 6) ∧
        (q.level = 1 → q.rsvd ≠ 0 → open_ p.1 p.2.1) ∧
        (calm → s.sec.busy ≠ 0 → turned p.1 p.2.1 5) ∧
        (calm → s.sec.busy = 0 → ¬ auth → turned p.1 p.2.1 3) ∧
        (good → p.2.2 = true → s.lk.warnLow = true → turned p.1 p.2.1 5))) ∧
      (good →
        (data.length ≤ 4096 → off + data.length ≤ 0x1000000 → Answers (exec (.flashWrite q off data) s) (fun t => answered t 0x10 0 [] ∧
          (∀ i, i < data.length → KMap.find t.flash.update (off + i) = some (data.getD i 0)) ∧
          (∀ i, i < off ∨ off + data.length ≤ i → KMap.find t.flash.update i = KMap.find s.flash.update i) ∧
          t.flash.regions = s.flash.regions ∧ t.fuses = s.fuses ∧ SameMemory s t)) ∧
        (4096 < data.length ∨ 0x1000000 < off + data.length → open_ (.flashWrite q off data) 0x10) ∧
        (s.lk.warnLow = false → (s.updateOk region len sigOk = true → Answers (exec (.flashCommit q region len sigOk) s) (fun t =>
            answered t 0x11 1 [] ∧ t.sec.busy = 0x11 ∧ t.sec.target = region ∧ t.sec.targetLen = len ∧ t.flash = s.flash ∧ t.fuses = s.fuses)) ∧
          (s.updateOk region len sigOk = false → open_ (.flashCommit q region len sigOk) 0x11)) ∧
        (¬ rom → (idx < 64 → data.length ≤ 1024 → Answers (exec (.secretPut q idx data) s) (fun t => answered t 0x15 0 [] ∧
            t.flash.secrets = KMap.set s.flash.secrets [] idx data ∧ t.fuses = s.fuses ∧ SameMemory s t)) ∧
          (64 ≤ idx ∨ 1024 < data.length → open_ (.secretPut q idx data) 0x15) ∧
          Answers (exec (.moduleReset q) s) (fun t => (∃ u : State, answered u 0x17 0 [] ∧ u.sec.nonce = false ∧ u.fuses = s.fuses ∧
            u.flash = s.flash ∧ SameRegs [R.secMgmt] s u ∧ exec .securityReset u = .next t) ∧
            t.fld R.lkStatus F.lkStatusPhase = 0 ∧ t.fld R.lkCause F.lkCauseLast = 7 ∧ t.weave.active = false ∧ t.fuses = s.fuses ∧
            SameRegs [R.lkStatus, R.lkCause] State.reset t) ∧
          (s.lk.warnLow = false →
            let free := firstOf 4 (fun i => !(s.fuses.valid.testBit i) && !(s.fuses.revoked.testBit i))
            let left := (List.range 4).any (fun i => i != slot && s.fuses.usable i)
            let logged := fun t : State => ∃ g, t.sec.log = s.sec.log ++ [(4, g)]
            (∀ i, free = some i → Answers (exec (.enrollKey q d) s) (fun t => answered t 0x12 0 [] ∧ t.fuses.valid = setBit s.fuses.valid i true ∧
              t.fuses.keys = setAt s.fuses.keys i (some d) ∧ t.fuses.revoked = s.fuses.revoked ∧ logged t)) ∧
            (free = none → open_ (.enrollKey q d) 0x12) ∧
            (slot < 4 → left = true → Answers (exec (.revokeKey q slot) s) (fun t => answered t 0x13 0 [] ∧
              t.fuses.revoked = setBit s.fuses.revoked slot true ∧ t.fuses.valid = s.fuses.valid ∧ logged t)) ∧
            (4 ≤ slot ∨ left = false → open_ (.revokeKey q slot) 0x13) ∧
            (v ≤ 63 → s.fuses.rollback ≤ v → s.weave.active = true → v ≤ s.fld R.wvVersion F.wvVersionSecVersion →
              Answers (exec (.advanceRollback q v) s) (fun t => answered t 0x14 0 [] ∧ t.fuses = { s.fuses with rollback := v } ∧ logged t)) ∧
            (63 < v ∨ v < s.fuses.rollback ∨ s.weave.active = false ∨ s.fld R.wvVersion F.wvVersionSecVersion < v →
              open_ (.advanceRollback q v) 0x14) ∧
            (s.flag R.secState F.secStatePolicy = false ∨ 32 ≤ s.fuses.openings → turned (.debugOpen q) 0x16 4) ∧
            (s.flag R.secState F.secStatePolicy = true → s.fuses.openings < 32 → Answers (exec (.debugOpen q) s) (fun t => answered t 0x16 1 [] ∧
              t.sec.busy = 0x16 ∧ t.flash.erasePending = true ∧ t.sec.nonce = false ∧ t.sec.spdmDoe.session = 0 ∧ t.sec.spdmI3c.session = 0 ∧
              t.fuses = s.fuses ∧ (∀ i, s.sec.secretAddr ≠ 0 → i < 0x40000 → t.byte (s.sec.secretAddr + i) = 0)))))))) ∧
  (∀ s : State,
    exec .nonceExpiry s = .next { s with sec := { s.sec with nonce := false } } ∧
    (s.sec.busy = 0x11 → s.sec.paused = false → Answers (exec .flashCommitDone s) (fun t =>
      KMap.find t.flash.regions s.sec.target = some (s.updateArea s.sec.targetLen) ∧
      (∀ r, r ≠ s.sec.target → KMap.find t.flash.regions r = KMap.find s.flash.regions r) ∧ s.sec.target ∉ t.flash.invalid ∧ t.sec.busy = 0 ∧
      t.fld R.secMgmt F.secMgmtLastCmd = 0x11 ∧ t.fld R.secMgmt F.secMgmtLastStatus = 0 ∧ t.fuses = s.fuses ∧ SameMemory s t)) ∧
    (s.sec.busy ≠ 0x11 ∨ s.sec.paused = true → exec .flashCommitDone s = .next s) ∧
    (s.sec.busy = 0x16 → s.sec.paused = false → Answers (exec .debugOpenEraseDone s) (fun t => t.flag R.secState F.secStateGate = true ∧
      t.flash.secrets = [] ∧ t.flash.erasePending = false ∧ t.sec.aliasGen = s.sec.aliasGen + 1 ∧ t.sec.busy = 0 ∧
      t.fuses.openings = (if s.fuses.openings < 32 then s.fuses.openings + 1 else s.fuses.openings) ∧ SameMemory s t)) ∧
    (s.sec.busy ≠ 0x16 ∨ s.sec.paused = true → exec .debugOpenEraseDone s = .next s))

/-- R328, R377-R380, log 29 (the model's choice of codes): SPDM_GET_VERSION, SPDM_GET_CAPABILITIES, SPDM_NEGOTIATE_ALGORITHMS,
SPDM_GET_DIGESTS, SPDM_GET_CERTIFICATE, SPDM_CHALLENGE, SPDM_GET_MEASUREMENTS, SPDM_KEY_EXCHANGE, SPDM_FINISH, SPDM_HEARTBEAT,
SPDM_KEY_UPDATE, SPDM_END_SESSION, DOE_ABORT, DOE_DISCOVERY. -/
def Obligations.SpdmAndDoe : Prop :=
  (∀ (s : State) (i3c : Bool), s.mgmtUp i3c = true →
    let c := s.sp i3c
    let keeps := fun t : State => t.sp (!i3c) = s.sp (!i3c) ∧ t.regs = s.regs ∧ t.fuses = s.fuses ∧ t.flash = s.flash ∧ SameMemory s t
    let tells := fun (i : Instr) (code : Nat) (b : List Byte) (c' : Spdm) => Answers (exec i s) (fun t => t.resp = .spdm code b ∧ t.sp i3c = c' ∧ keeps t)
    let errs := fun (i : Instr) (code : Nat) (c' : Spdm) => tells i 0x7F [BitVec.ofNat 8 code] c'
    let signs := fun (i : Instr) (code : Nat) (b : List Byte) (c' : Spdm) => Answers (exec i s) (fun t => (∃ g : List Byte, g.length = 96 ∧
      t.resp = .spdm code (b ++ g)) ∧ t.sp i3c = c' ∧ keeps t)
    tells (.spdmGetVersion i3c) 0x04 [0x12, 0x13] { c with phase := 1, version := 0, session := 0 } ∧
    (∀ v, (c.phase < 1 → errs (.spdmGetCapabilities i3c v) 0x04 c) ∧
      (1 ≤ c.phase → v = 0x12 ∨ v = 0x13 → tells (.spdmGetCapabilities i3c v) 0x61 [] { c with phase := max 2 c.phase, version := v }) ∧
      (1 ≤ c.phase → v ≠ 0x12 → v ≠ 0x13 → errs (.spdmGetCapabilities i3c v) 0x41 c)) ∧
    (∀ ok, (c.phase < 2 → errs (.spdmNegotiateAlgorithms i3c ok) 0x04 c) ∧
      (2 ≤ c.phase → ok = true → tells (.spdmNegotiateAlgorithms i3c ok) 0x63 [] { c with phase := 3 }) ∧
      (2 ≤ c.phase → ok = false → errs (.spdmNegotiateAlgorithms i3c ok) 0x07 c)) ∧
    (∀ (slot off len idx : Nat) (nonce : List Byte) (sign : Bool),
      (c.phase < 3 → ∀ i ∈ [Instr.spdmGetDigests i3c, .spdmGetCertificate i3c slot off len, .spdmChallenge i3c slot nonce,
        .spdmGetMeasurements i3c idx sign], errs i 0x04 c) ∧
      (3 ≤ c.phase →
        tells (.spdmGetDigests i3c) 0x01 (toBytes 48 (sha384 s.certChain).toNat) c ∧
        (slot = 0 → off ≤ s.certChain.length → tells (.spdmGetCertificate i3c slot off len) 0x02
          ((s.certChain.drop off).take (if i3c then len else min len 0x3FF0)) c) ∧
        (slot ≠ 0 ∨ s.certChain.length < off → errs (.spdmGetCertificate i3c slot off len) 0x01 c) ∧
        (slot = 0 → signs (.spdmChallenge i3c slot nonce) 0x03 (toBytes 48 (sha384 s.certChain).toNat ++ nonce) c) ∧
        (slot ≠ 0 → errs (.spdmChallenge i3c slot nonce) 0x01 c) ∧
        (∀ b, s.measFor idx = some b → (sign = true → signs (.spdmGetMeasurements i3c idx sign) 0x60 b c) ∧
          (sign = false → tells (.spdmGetMeasurements i3c idx sign) 0x60 b c)) ∧
        (5 < idx → idx ≠ 0xFF → errs (.spdmGetMeasurements i3c idx sign) 0x01 c))) ∧
    (∀ (reqId op : Nat) (ok : Bool),
      let rom := s.fld R.secState F.secStateBoot = 2
      (∀ i ∈ [Instr.spdmKeyExchange i3c reqId, .spdmFinish i3c ok, .spdmHeartbeat i3c, .spdmKeyUpdate i3c op, .spdmEndSession i3c],
        (rom → errs i 0x07 c) ∧ (¬ rom → c.phase < 3 → errs i 0x04 c)) ∧
      (¬ rom → 3 ≤ c.phase →
        (c.session = 0 → signs (.spdmKeyExchange i3c reqId) 0x64 (toBytes 2 reqId) { c with session := 1, sessId := reqId, keyGen := 0 }) ∧
        (c.session ≠ 0 → errs (.spdmKeyExchange i3c reqId) 0x0A c) ∧
        (c.session ≠ 1 → errs (.spdmFinish i3c ok) 0x04 c) ∧
        (c.session = 1 → ok = true → tells (.spdmFinish i3c ok) 0x65 [] { c with session := 2 }) ∧
        (c.session = 1 → ok = false → errs (.spdmFinish i3c ok) 0x06 { c with session := 0 }) ∧
        (c.session ≠ 2 → ∀ i ∈ [Instr.spdmHeartbeat i3c, .spdmKeyUpdate i3c op, .spdmEndSession i3c], errs i 0x04 c) ∧
        (c.session = 2 → tells (.spdmHeartbeat i3c) 0x68 [] c ∧ tells (.spdmEndSession i3c) 0x6C [] { c with session := 0 } ∧
          (op = 1 ∨ op = 2 → tells (.spdmKeyUpdate i3c op) 0x69 [BitVec.ofNat 8 op] { c with keyGen := c.keyGen + 1 }) ∧
          (op = 3 → tells (.spdmKeyUpdate i3c op) 0x69 [3] c) ∧ (op = 0 ∨ 3 < op → errs (.spdmKeyUpdate i3c op) 0x01 c))))) ∧
  (∀ (s : State) (index : Nat), s.mgmtUp false = true →
    exec .doeAbort s = .next (s.answer .none) ∧
    exec (.doeDiscovery index) s = .next (s.answer (.data (if index < 3 then toBytes 2 1 ++ toBytes 1 index ++ toBytes 1 (index + 1)
      else if index = 3 then toBytes 2 0x1F7A ++ toBytes 1 1 ++ toBytes 1 0 else toBytes 2 0xFFFF ++ toBytes 1 0 ++ toBytes 1 0))))

/-- A step takes the command at the front of the queue. What an empty queue does is the model's choice (logs 2 and 54). -/
def Obligations.StepTakesFrontCommand : Prop :=
  (∀ (s : State) (c : Instr) (rest : List Instr), s.pending = c :: rest → step s = exec c { s with pending := rest }) ∧
  (∀ s : State, s.pending = [] →
    (s.lk.powered = false → step s = .next s) ∧
    (s.lk.powered = true → Answers (step s) (fun t => t.time = s.time + 1 ∧ t.pending = [] ∧ t.resp = s.resp ∧ t.out = s.out ∧
      SameRegs [] s t ∧ SameMemory s t ∧ SameModule s t)))

/-- R10, R349, R350: the state at reset; values that the tables do not give are the model's (log 3). -/
def Obligations.ResetState : Prop :=
  State.reset.pending = [] ∧ State.reset.out = [] ∧ State.reset.mem = [] ∧ State.reset.lk.powered = false ∧
    (∀ a, State.reset.reg a = regReset a) ∧ (∀ n, State.reset.domainUp n = false) ∧ (∀ a, State.reset.wrapperOpen a = false) ∧
    (∀ k, State.reset.enabled k = false) ∧ KMap.Canon regReset State.reset.regs ∧ Memory.wf State.reset.mem

/-- R375, R381, R10: what every step keeps. -/
def Obligations.StepKeepsInvariant : Prop :=
  ∀ s t : State, step s = .next t →
    t.pending = s.pending.tail ∧ (∃ l, t.out = s.out ++ l) ∧
    (KMap.Canon regReset s.regs → KMap.Canon regReset t.regs) ∧
    ((Memory.wf s.mem ∧ ∀ p ∈ s.mem, undefAt s.undef p.1 = none) → (Memory.wf t.mem ∧ ∀ p ∈ t.mem, undefAt t.undef p.1 = none)) ∧
    (∀ i, s.fuses.valid.testBit i = true → t.fuses.valid.testBit i = true ∧ t.fuses.keys[i]? = s.fuses.keys[i]?) ∧
    (∀ i, s.fuses.revoked.testBit i = true → t.fuses.revoked.testBit i = true) ∧
    s.fuses.rollback ≤ t.fuses.rollback ∧ s.fuses.openings ≤ t.fuses.openings

/-- R22, R338, R349, R370: what the work of stakes leaves alone. -/
def Obligations.WorkLeavesTheModule : Prop := ∀ (i : Instr) (s : State), i.work = true → Answers (exec i s) (fun t => Apart s t)

/-- What commands without a store leave alone. -/
def Obligations.CommandsThatStoreNothing : Prop := ∀ (i : Instr) (s : State), i.stores = false → Answers (exec i s) (fun t => SameMemory s t)

/-- R53: the special values of a group sum. -/
def Obligations.GroupSpecials : Prop :=
  ∀ l : List (Val × Val),
    let sum := groupSum (l.any (fun p => p.1 == .nan || p.2 == .nan)) (l.map (fun p => Val.mul p.1 p.2))
    let nan := (∃ p ∈ l, p.1 = .nan ∨ p.2 = .nan) ∨
      (∃ p ∈ l, ∃ b c e, p = (Val.inf b, Val.fin c 0 e) ∨ p = (Val.fin c 0 e, Val.inf b)) ∨
      ((∃ p ∈ l, Val.mul p.1 p.2 = .inf false) ∧ ∃ p ∈ l, Val.mul p.1 p.2 = .inf true)
    (nan → sum = 0x7FC00000) ∧
    (¬ nan → ∀ b, (∃ p ∈ l, Val.mul p.1 p.2 = .inf b) → sum = if b then 0xFF800000 else 0x7F800000)

/-- R316: DELETE and RESTART. -/
def Obligations.DeleteAndRestart : Prop :=
  ∀ (s : State) (m : Master) (rivals : List Master) (n : Fin 64),
    (((s.hqOf n).deleting = true ∨ s.qState n = 0) → ∀ host ok, exec (.sqFetch n host ok) s = .next s ∧ exec (.sqRefetch n host ok) s = .next s) ∧
    (Granted s m (R.hifQCtl n) →
      (s.qState n ≠ 0 → Answers (exec (.delete m rivals n) s) (fun t => ((t.hqOf n).deleting = true ∨ t.qState n = 0) ∧
        (t.qState n = 0 ↔ (s.hqOf n).run = []))) ∧
      (s.qState n ≠ 2 → Answers (exec (.restart m rivals n) s) (fun t => t.hq = s.hq ∧ t.qState n = s.qState n)) ∧
      (s.qState n = 2 → s.cqFails n true = false → Answers (exec (.restart m rivals n) s) (fun t => t.qState n = 1))) ∧
    (∀ (c : Cmd) (rest : List (Nat × Nat)) (ok : Bool), (s.hqOf n).deleting = true → s.qState n ≠ 0 → (s.hqOf n).fin = (c.seq, c.era) :: rest →
      (s.hqOf n).run.find? (fun x => (x.seq, x.era) == (c.seq, c.era)) = some c → s.fld (R.hifQErr n) F.hifQErrCode ≠ 3 →
      s.flag (R.hifQCq n) F.hifQCqHostmem = false → Answers (exec (.commandComplete n ok) s) (fun t =>
        t.qState n = 0 ↔ ∀ x ∈ (s.hqOf n).run, c.same x = true))
end

