-- ==== Sys2Proof/Laws/Store.lean ====
section
/-! SUPPORT. Laws of the sparse maps: what a read finds after a write, and that every map operation keeps the canonical form. -/

namespace Sys2Proof.Machine

set_option linter.unusedSimpArgs false
set_option linter.unnecessarySimpa false

variable {α : Type}

theorem KMap.find_erase (m : KMap α) (k j : Nat) : KMap.find (KMap.erase m k) j = if j = k then none else KMap.find m j := by
  induction m with
  | nil => simp [KMap.erase, KMap.find]
  | cons p t ih =>
    by_cases h : p.1 = k
    · rw [KMap.erase, if_pos h, ih]
      by_cases hj : j = k
      · rw [if_pos hj, if_pos hj]
      · rw [if_neg hj, if_neg hj, KMap.find, if_neg (fun e => hj (e.symm.trans h))]
    · rw [KMap.erase, if_neg h, KMap.find, KMap.find, ih]
      by_cases hj : p.1 = j
      · rw [if_pos hj, if_pos hj, if_neg (fun e => h (hj.trans e))]
      · rw [if_neg hj, if_neg hj]

theorem KMap.find_put (m : KMap α) (k j : Nat) (v : α) :
    KMap.find (KMap.put m k v) j = if j = k then some v else KMap.find m j := by
  have one : ∀ t : KMap α, KMap.find ((k, v) :: t) j = if j = k then some v else KMap.find t j := by
    intro t
    rw [KMap.find]
    by_cases hj : j = k
    · rw [if_pos hj.symm, if_pos hj]
    · rw [if_neg (fun e => hj e.symm), if_neg hj]
  induction m with
  | nil => rw [KMap.put, one]
  | cons p t ih =>
    rw [KMap.put]
    by_cases h1 : k < p.1
    · rw [if_pos h1, one]
    · rw [if_neg h1]
      by_cases h : p.1 = k
      · rw [if_pos h, one, KMap.find]
        by_cases hj : j = k
        · rw [if_pos hj, if_pos hj]
        · rw [if_neg hj, if_neg hj, if_neg (fun e => hj (e.symm.trans h))]
      · rw [if_neg h, KMap.find, KMap.find, ih]
        by_cases hj : p.1 = j
        · rw [if_pos hj, if_pos hj, if_neg (fun e => h (hj.trans e))]
        · rw [if_neg hj, if_neg hj]

/-- A read after a write: the value written at its key, what was there elsewhere. -/
theorem KMap.get_set [DecidableEq α] (m : KMap α) (d e v : α) (k j : Nat) (h : j = k → e = d) :
    KMap.get (KMap.set m d k v) e j = if j = k then v else KMap.get m e j := by
  unfold KMap.get KMap.set
  by_cases hv : v = d
  · by_cases hj : j = k <;> simp [hv, KMap.find_erase, hj]
    · exact h hj
  · by_cases hj : j = k <;> simp [hv, KMap.find_put, hj]

theorem KMap.get_set_same [DecidableEq α] (m : KMap α) (d v : α) (k : Nat) : KMap.get (KMap.set m d k v) d k = v := by
  simp [KMap.get_set]

theorem KMap.get_set_other [DecidableEq α] (m : KMap α) (d e v : α) (k j : Nat) (h : j ≠ k) :
    KMap.get (KMap.set m d k v) e j = KMap.get m e j := by
  rw [KMap.get_set _ _ _ _ _ _ (fun c => absurd c h)]; simp [h]

theorem KMap.mem_erase {m : KMap α} {k : Nat} {p : Nat × α} (h : p ∈ KMap.erase m k) : p ∈ m := by
  induction m with
  | nil => simp [KMap.erase] at h
  | cons q t ih =>
    by_cases hq : q.1 = k
    · simp [KMap.erase, hq] at h; exact List.mem_cons_of_mem _ (ih h)
    · simp [KMap.erase, hq] at h
      rcases h with h | h
      · simp [h]
      · exact List.mem_cons_of_mem _ (ih h)

theorem KMap.mem_put {m : KMap α} {k : Nat} {v : α} {p : Nat × α} (h : p ∈ KMap.put m k v) : p = (k, v) ∨ p ∈ m := by
  induction m with
  | nil => simp [KMap.put] at h; exact .inl h
  | cons q t ih =>
    by_cases h1 : k < q.1
    · simp [KMap.put, h1] at h; simpa using h
    · by_cases hq : q.1 = k
      · simp [KMap.put, hq] at h
        rcases h with h | h
        · exact .inl h
        · exact .inr (List.mem_cons_of_mem _ h)
      · simp [KMap.put, h1, hq] at h
        rcases h with h | h
        · exact .inr (by simp [h])
        · rcases ih h with h | h
          · exact .inl h
          · exact .inr (List.mem_cons_of_mem _ h)

theorem KMap.Sorted.erase {m : KMap α} (h : KMap.Sorted m) (k : Nat) : KMap.Sorted (KMap.erase m k) := by
  induction m with
  | nil => simpa [KMap.erase] using h
  | cons p t ih =>
    have h' := List.pairwise_cons.mp h
    by_cases hp : p.1 = k
    · simpa [KMap.erase, hp] using ih h'.2
    · simp only [KMap.erase, hp, if_false]
      exact List.pairwise_cons.mpr ⟨fun q hq => h'.1 q (KMap.mem_erase hq), ih h'.2⟩

theorem KMap.Sorted.put {m : KMap α} (h : KMap.Sorted m) (k : Nat) (v : α) : KMap.Sorted (KMap.put m k v) := by
  induction m with
  | nil => simp [KMap.put, KMap.Sorted]
  | cons p t ih =>
    have h' := List.pairwise_cons.mp h
    by_cases h1 : k < p.1
    · simp only [KMap.put, h1, if_true]
      refine List.pairwise_cons.mpr ⟨fun q hq => ?_, h⟩
      rcases List.mem_cons.mp hq with e | e
      · simpa [e] using h1
      · exact lt_trans h1 (h'.1 q e)
    · by_cases hp : p.1 = k
      · simp only [KMap.put, hp, lt_irrefl, if_false, if_true]
        exact List.pairwise_cons.mpr ⟨fun q hq => by simpa [hp] using h'.1 q hq, h'.2⟩
      · simp only [KMap.put, h1, hp, if_false]
        refine List.pairwise_cons.mpr ⟨fun q hq => ?_, ih h'.2⟩
        rcases KMap.mem_put hq with e | e
        · subst e; exact lt_of_le_of_ne (Nat.le_of_not_lt h1) hp
        · exact h'.1 q e

/-- A write keeps the canonical form. -/
theorem KMap.Canon.set [DecidableEq α] {d : Nat → α} {m : KMap α} (h : KMap.Canon d m) (k : Nat) (v : α) :
    KMap.Canon d (KMap.set m (d k) k v) := by
  unfold KMap.set
  by_cases hv : v = d k
  · simp only [hv, if_true]
    exact ⟨h.1.erase k, fun p hp => h.2 p (KMap.mem_erase hp)⟩
  · simp only [hv, if_false]
    refine ⟨h.1.put k v, fun p hp => ?_⟩
    rcases KMap.mem_put hp with e | e
    · subst e; exact hv
    · exact h.2 p e

/-- Removing a key keeps the canonical form. -/
theorem KMap.Canon.erase {d : Nat → α} {m : KMap α} (h : KMap.Canon d m) (k : Nat) : KMap.Canon d (KMap.erase m k) :=
  ⟨h.1.erase k, fun p hp => h.2 p (KMap.mem_erase hp)⟩

/-- Removing the entries that fail a test keeps the canonical form. -/
theorem KMap.Canon.filter {d : Nat → α} {m : KMap α} (h : KMap.Canon d m) (f : Nat × α → Bool) : KMap.Canon d (List.filter f m) :=
  ⟨h.1.filter f, fun p hp => h.2 p (List.mem_filter.mp hp).1⟩

theorem KMap.Canon.erases {d : Nat → α} {m : KMap α} (h : KMap.Canon d m) (l : List Nat) :
    KMap.Canon d (l.foldl (fun m a => KMap.erase m a) m) := by
  induction l generalizing m with
  | nil => exact h
  | cons a t ih => exact ih (h.erase a)

theorem KMap.canon_nil (d : Nat → α) : KMap.Canon d ([] : KMap α) := ⟨List.Pairwise.nil, by simp⟩

/-- Reading a filtered map: what the map held at a key that the test admits. -/
theorem KMap.find_filter (m : KMap α) (f : Nat → Bool) (k : Nat) :
    KMap.find (List.filter (fun p => f p.1) m) k = if f k then KMap.find m k else none := by
  induction m with
  | nil => simp [KMap.find]
  | cons p t ih =>
    by_cases hp : p.1 = k
    · by_cases hk : f k
      · have : f p.1 = true := by rw [hp]; exact hk
        simp [List.filter_cons, this, KMap.find, hp, hk]
      · have : ¬ f p.1 = true := by rw [hp]; exact hk
        simp [List.filter_cons, this, ih, hk]
    · by_cases hq : f p.1
      · simp [List.filter_cons, hq, KMap.find, hp, ih]
      · simp [List.filter_cons, hq, KMap.find, hp, ih]

/-- Setting one element of a list leaves the others. -/
theorem setAt_other {α : Type} (l : List α) (i j : Nat) (v : α) (h : i ≠ j) : (setAt l i v)[j]? = l[j]? := by
  induction l generalizing i j with
  | nil => rfl
  | cons a t ih =>
    cases i with
    | zero => cases j with
      | zero => exact absurd rfl h
      | succ j => rfl
    | succ i => cases j with
      | zero => rfl
      | succ j => exact ih i j (fun e => h (congrArg _ e))

end Sys2Proof.Machine
end

