-- ==== Sys2Proof/Laws/Word.lean ====
section
/-! SUPPORT. Laws of register fields and of numbers read as bits. -/

namespace Sys2Proof

theorem setBit_testBit (x i j : Nat) : (setBit x i true).testBit j = (x.testBit j || decide (i = j)) := by
  simp [setBit, Nat.testBit_shiftLeft]
  rcases Nat.lt_trichotomy i j with h | h | h
  · have : j - i ≠ 0 := by omega
    simp [h.le, Nat.testBit_one_eq_true_iff_self_eq_zero, this, h.ne]
  · simp [h]
  · simp [show ¬ i ≤ j by omega, h.ne']

/-- A field inside the register reads back what was put there. -/
theorem Word.fld_setFld_same (w : Word) (lo n v : Nat) (h : lo + n ≤ 64) : (w.setFld (lo, n) v).fld (lo, n) = v % 2 ^ n := by
  have hb : 2 ^ n ≤ 2 ^ 64 := Nat.pow_le_pow_right (by omega) (by omega)
  have hv : v % 2 ^ n < 2 ^ n := Nat.mod_lt _ (Nat.two_pow_pos n)
  rw [← Nat.mod_eq_of_lt (Nat.mod_lt v (Nat.two_pow_pos n))]
  apply Nat.eq_of_testBit_eq
  intro i
  simp only [Word.fld, Word.setFld, fldMask, BitVec.testBit_toNat, Nat.mod_mod]
  by_cases hi : i < n
  · have h1 : lo + i < 64 := by omega
    have h3 : i < 64 := by omega
    have h2 : ∀ x, (BitVec.ofNat 64 x).getLsbD i = x.testBit i := fun x => by rw [BitVec.getLsbD_ofNat, decide_eq_true h3, Bool.true_and]
    simp only [BitVec.getLsbD_extractLsb', BitVec.getLsbD_or, BitVec.getLsbD_and, BitVec.getLsbD_not, BitVec.getLsbD_shiftLeft,
      Nat.add_sub_cancel_left, h2, Nat.testBit_two_pow_sub_one, hi, h1, decide_true, Nat.testBit_mod_two_pow]
    simp
  · simp [hi]

/-- Writing one field leaves the fields that do not overlap it. -/
theorem Word.fld_setFld_other (w : Word) (lo n lo' n' v : Nat) (h : lo' + n' ≤ lo ∨ lo + n ≤ lo') :
    (w.setFld (lo, n) v).fld (lo', n') = w.fld (lo', n') := by
  simp only [Word.fld]
  congr 1
  apply BitVec.eq_of_getLsbD_eq
  intro i hi
  simp only [BitVec.getLsbD_extractLsb', hi, Word.setFld, fldMask, decide_true, Bool.true_and]
  have h4 : lo' + i ≥ 64 → w.getLsbD (lo' + i) = false := fun h => BitVec.getLsbD_of_ge _ _ h
  simp only [BitVec.getLsbD_or, BitVec.getLsbD_and, BitVec.getLsbD_not, BitVec.getLsbD_shiftLeft, BitVec.getLsbD_ofNat,
    Nat.testBit_two_pow_sub_one, Nat.testBit_mod_two_pow]
  by_cases h1 : lo' + i < 64
  · by_cases hlo : lo' + i < lo
    · simp [hlo, h1]
    · simp [hlo, h1, show ¬ lo' + i - lo < n by omega]
  · simp [h4 (by omega), h1]

end Sys2Proof
end

