-- ==== Sys2Proof/Laws/Keeps.lean ====
section
/-! SUPPORT. What every operation keeps: the waiting commands, the count of free values, what was sent, the canonical form of
registers and memory, and the one-way fuses. One relation, with one lemma for each operation. -/

namespace Sys2Proof.Machine

set_option linter.unusedSimpArgs false

/-- Fuses are blown, never unblown (R375): a key's digest stays once its slot is valid, a revocation and the rollback minimum stand, and the
count of openings does not fall. -/
structure Fuses.Le (f g : Fuses) : Prop where
  valid    : ∀ i, f.valid.testBit i = true → g.valid.testBit i = true
  keys     : ∀ i, f.valid.testBit i = true → g.keys[i]? = f.keys[i]?
  revoked  : ∀ i, f.revoked.testBit i = true → g.revoked.testBit i = true
  rollback : f.rollback ≤ g.rollback
  openings : f.openings ≤ g.openings

theorem Fuses.Le.refl (f : Fuses) : f.Le f := ⟨fun _ h => h, fun _ _ => rfl, fun _ h => h, le_refl _, le_refl _⟩

theorem Fuses.Le.trans {f g h : Fuses} (a : f.Le g) (b : g.Le h) : f.Le h :=
  ⟨fun i x => b.valid i (a.valid i x), fun i x => (b.keys i (a.valid i x)).trans (a.keys i x), fun i x => b.revoked i (a.revoked i x),
    a.rollback.trans b.rollback, a.openings.trans b.openings⟩

/-- Memory in canonical form, and nothing listed where its contents are undefined. -/
def MemOk (m : KMap Byte) (u : List (Nat × Nat × Nat)) : Prop := Memory.wf m ∧ ∀ p ∈ m, undefAt u p.1 = none

/-- What a state holds that every command keeps. -/
structure Keeps (s t : State) : Prop where
  pending : t.pending = s.pending
  free    : s.free ≤ t.free
  out     : ∃ l, t.out = s.out ++ l
  regs    : KMap.Canon regReset s.regs → KMap.Canon regReset t.regs
  mem     : MemOk s.mem s.undef → MemOk t.mem t.undef
  fuses   : s.fuses.Le t.fuses

theorem Keeps.refl (s : State) : Keeps s s := ⟨rfl, le_refl _, ⟨[], by simp⟩, id, id, .refl _⟩

theorem Keeps.trans {r s t : State} (a : Keeps r s) (b : Keeps s t) : Keeps r t := by
  refine ⟨b.pending.trans a.pending, a.free.trans b.free, ?_, b.regs ∘ a.regs, b.mem ∘ a.mem, a.fuses.trans b.fuses⟩
  obtain ⟨l, hl⟩ := a.out
  obtain ⟨m, hm⟩ := b.out
  exact ⟨l ++ m, by rw [hm, hl, List.append_assoc]⟩

/-- A change of other fields. -/
theorem Keeps.upd {r s t : State} (hp : t.pending = s.pending) (hf : t.free = s.free) (ho : t.out = s.out) (hr : t.regs = s.regs)
    (hm : t.mem = s.mem) (hu : t.undef = s.undef) (hx : t.fuses = s.fuses) (h : Keeps r s) : Keeps r t :=
  h.trans ⟨hp, hf ▸ le_refl _, ⟨[], by simp [ho]⟩, fun c => hr ▸ c, fun c => hm ▸ hu ▸ c, hx ▸ .refl _⟩

/-- A change of other fields, in the form that a structure update takes. -/
theorem Keeps.mk_upd {z s : State} (h : Keeps z s) (poison' : List Nat) (resp' : Resp) (lk' : Lk) (weave' : WeaveCtx) (flash' : Flash)
    (sec' : Sec) (failEng' : Nat) (failPvu' : Nat) (failTc' : Nat) (failQuay' : Nat) (failCh' : Nat) (psq' : KMap Psq) (slots' : KMap
    Slot) (pvu' : KMap Pvu) (asu' : KMap Asu) (quay' : KMap Quay) (binds' : List Bind) (macs' : KMap Nat) (xch' : KMap Xch) (jobs' :
    KMap Job) (port' : KMap Port) (ring' : KMap RingDir) (msix' : KMap Nat) (pba' : Nat) (added' : Nat) (kvp' : KMap Kvp) (thread' :
    KMap Thread) (l1' : KMap (List L1Line)) (il1' : KMap (List Nat)) (wakes' : List (Nat × Nat)) (time' : Nat) (core' : KMap (KMap Nat))
    (takes' : List (Nat × Nat × Nat)) (homes' : KMap Home) (copies' : List (Nat × Nat × Bool)) (resv' : KMap Nat) (recs' : KMap (Nat ×
    Nat)) (hq' : KMap Hq) (poolK' : Nat) (poolEra' : Nat) (pci' : Pci) (replay' : Nat) :
    Keeps z ⟨s.pending, s.regs, s.mem, s.undef, poison', s.free, resp', lk', weave', s.fuses, flash', sec', failEng', failPvu', failTc',
    failQuay', failCh', psq', slots', pvu', asu', quay', binds', macs', xch', jobs', port', ring', s.out, msix', pba', added', kvp',
    thread', l1', il1', wakes', time', core', takes', homes', copies', resv', recs', hq', poolK', poolEra', pci', replay'⟩ :=
  Keeps.upd (s := s) rfl rfl rfl rfl rfl rfl rfl h

theorem Keeps.ite {r a b : State} {c : Prop} [Decidable c] (ha : Keeps r a) (hb : Keeps r b) : Keeps r (if c then a else b) := by
  split <;> assumption

/-- A choice on whether a value is there. -/
theorem Keeps.elim {z n : State} {α : Type} {f : α → State} (o : Option α) (hn : Keeps z n) (hs : ∀ v, Keeps z (f v)) :
    Keeps z (o.elim n f) := by
  cases o with
  | none => exact hn
  | some v => exact hs v

theorem Keeps.foldl {β : Type} {r : State} {f : State → β → State} (hf : ∀ u b, Keeps r u → Keeps r (f u b)) (l : List β) {s : State}
    (h : Keeps r s) : Keeps r (l.foldl f s) := by
  induction l generalizing s with
  | nil => exact h
  | cons a t ih => exact ih (hf _ _ h)

theorem Keeps.foldl_fst {β γ : Type} {r : State} {f : State × γ → β → State × γ} (hf : ∀ u b, Keeps r u.1 → Keeps r (f u b).1)
    (l : List β) {p : State × γ} (h : Keeps r p.1) : Keeps r (l.foldl f p).1 := by
  induction l generalizing p with
  | nil => exact h
  | cons a t ih => exact ih (hf _ _ h)

theorem Keeps.foldl_snd {β γ : Type} {r : State} {f : γ × State → β → γ × State} (hf : ∀ u b, Keeps r u.2 → Keeps r (f u b).2)
    (l : List β) {p : γ × State} (h : Keeps r p.2) : Keeps r (l.foldl f p).2 := by
  induction l generalizing p with
  | nil => exact h
  | cons a t ih => exact ih (hf _ _ h)

theorem State.forAll_keeps {r s : State} (l : List Nat) {f : State → Nat → State} (hf : ∀ u i, Keeps r u → Keeps r (f u i))
    (h : Keeps r s) : Keeps r (s.forAll l f) := Keeps.foldl hf l h

theorem State.setReg_keeps {r s : State} (a : Nat) (v : Word) (h : Keeps r s) : Keeps r (s.setReg a v) :=
  h.trans ⟨rfl, le_refl _, ⟨[], by simp [State.setReg]⟩, fun c => KMap.Canon.set (d := regReset) c a v, id, .refl _⟩

theorem State.resetRegs_keeps {r s : State} (l : List Nat) (h : Keeps r s) : Keeps r (s.resetRegs l) :=
  h.trans ⟨rfl, le_refl _, ⟨[], by simp [State.resetRegs]⟩, fun c => c.erases l, id, .refl _⟩

theorem State.resetRange_keeps {r s : State} (lo hi : Nat) (h : Keeps r s) : Keeps r (s.resetRange lo hi) :=
  h.trans ⟨rfl, le_refl _, ⟨[], by simp [State.resetRange]⟩, fun c => c.filter _, id, .refl _⟩

/-- Cutting a range leaves every address outside it as it was, and covers none inside it. -/
theorem undefAt_cutRange (u : List (Nat × Nat × Nat)) (lo hi a : Nat) :
    undefAt (cutRange lo hi u) a = if lo ≤ a ∧ a < hi then none else undefAt u a := by
  induction u with
  | nil => simp [undefAt, cutRange]
  | cons p t ih =>
    have app : ∀ (x y : List (Nat × Nat × Nat)), undefAt (x ++ y) a = (undefAt x a).or (undefAt y a) := by
      intro x y
      unfold undefAt
      rw [List.find?_append]
      cases List.find? (fun r => decide (r.1 ≤ a) && decide (a < r.2.1)) x <;> simp
    have nil : undefAt [] a = none := rfl
    have one : ∀ (q : Nat × Nat × Nat), undefAt [q] a = if q.1 ≤ a ∧ a < q.2.1 then some q.2.2 else none := by
      intro q
      by_cases h1 : q.1 ≤ a <;> by_cases h2 : a < q.2.1 <;> simp [undefAt, List.find?_cons, h1, h2]
    have e : cutRange lo hi (p :: t) = (if hi ≤ p.1 ∨ p.2.1 ≤ lo then [p]
      else (if p.1 < lo then [(p.1, lo, p.2.2)] else []) ++ (if hi < p.2.1 then [(hi, p.2.1, p.2.2)] else [])) ++ cutRange lo hi t := by
      simp [cutRange, List.flatMap_cons]
    rw [e, app, ih, show p :: t = [p] ++ t from rfl, app, one]
    by_cases k2 : lo ≤ a ∧ a < hi
    · rw [if_pos k2, if_pos k2, Option.or_none]
      by_cases h : hi ≤ p.1 ∨ p.2.1 ≤ lo
      · rw [if_pos h, one, if_neg (by omega)]
      · rw [if_neg h, app]
        by_cases h1 : p.1 < lo <;> by_cases h2 : hi < p.2.1 <;> simp only [h1, h2, if_true, if_false, one, nil] <;>
          first | rfl | (split_ifs <;> first | rfl | (exfalso; omega))
    · rw [if_neg k2, if_neg k2]
      congr 1
      by_cases h : hi ≤ p.1 ∨ p.2.1 ≤ lo
      · rw [if_pos h, one]
      · rw [if_neg h, app]
        by_cases h1 : p.1 < lo <;> by_cases h2 : hi < p.2.1 <;> simp only [h1, h2, if_true, if_false, one, nil] <;>
          first | rfl | (split_ifs <;> first | rfl | (exfalso; omega))

theorem State.setByte_keeps {r s : State} (a : Nat) (v : Byte) (h : Keeps r s) : Keeps r (s.setByte a v) := by
  refine h.trans ⟨rfl, le_refl _, ⟨[], by simp [State.setByte]⟩, id, fun c => ⟨?_, fun p hp => ?_⟩, .refl _⟩
  · exact KMap.Canon.set (d := fun _ => (0 : Byte)) c.1 a v
  · rw [State.setByte, undefAt_cutRange]
    split
    · rfl
    · rename_i k
      have hp : p ∈ KMap.set s.mem 0 a v := hp
      unfold KMap.set at hp
      split at hp
      · exact c.2 p (KMap.mem_erase hp)
      · rcases KMap.mem_put hp with e | e
        · subst e; simp at k
        · exact c.2 p e

theorem State.setBytes_keeps {r s : State} (a : Nat) (l : List Byte) (h : Keeps r s) : Keeps r (s.setBytes a l) := by
  induction l generalizing s a with
  | nil => exact h
  | cons b t ih => exact ih _ (State.setByte_keeps a b h)

theorem State.lose_keeps {r s : State} (lo hi : Nat) (h : Keeps r s) : Keeps r (s.lose lo hi) := by
  refine h.trans ⟨rfl, Nat.le_succ _, ⟨[], by simp [State.lose]⟩, id, fun c => ⟨c.1.filter _, fun p hp => ?_⟩, .refl _⟩
  have hp' := List.mem_filter.mp hp
  have e : undefAt ((lo, hi, s.free) :: cutRange lo hi s.undef) p.1 =
      if lo ≤ p.1 ∧ p.1 < hi then some s.free else undefAt (cutRange lo hi s.undef) p.1 := by
    by_cases h1 : lo ≤ p.1 <;> by_cases h2 : p.1 < hi <;> simp [undefAt, List.find?_cons, h1, h2]
  have k : ¬ (lo ≤ p.1 ∧ p.1 < hi) := by
    have := hp'.2
    simp at this
    omega
  show undefAt ((lo, hi, s.free) :: cutRange lo hi s.undef) p.1 = none
  rw [e, if_neg k, undefAt_cutRange, if_neg k]
  exact c.2 p hp'.1

theorem State.draw_keeps {r s : State} (h : Keeps r s) : Keeps r s.draw.2 :=
  h.trans ⟨rfl, Nat.le_succ _, ⟨[], by simp [State.draw]⟩, id, id, .refl _⟩

theorem State.send_keeps {r s : State} (m : HostMsg) (h : Keeps r s) : Keeps r (s.send m) :=
  h.trans ⟨rfl, le_refl _, ⟨[m], rfl⟩, id, id, .refl _⟩

/-- Taking a clean-out of some bytes: they are listed no more, and nothing covers them. -/
theorem Keeps.clear {s : State} (lo hi : Nat) :
    MemOk s.mem s.undef → MemOk (s.mem.filter (fun p => !(decide (lo ≤ p.1) && decide (p.1 < hi)))) (cutRange lo hi s.undef) := by
  refine fun c => ⟨c.1.filter _, fun p hp => ?_⟩
  have hp' := List.mem_filter.mp hp
  have k : ¬ (lo ≤ p.1 ∧ p.1 < hi) := by
    have := hp'.2
    simp at this
    omega
  rw [undefAt_cutRange, if_neg k]
  exact c.2 p hp'.1

end Sys2Proof.Machine
end

