-- ==== Sys2Proof/Laws/State.lean ====
section
/-! SUPPORT. What the named updates of State leave, one lemma for each field and each way of reading it, and what they change. -/

namespace Sys2Proof.Machine

variable (s : State)

/-! ### setReg -/

@[simp] theorem State.setReg_pending (a : Nat) (v : Word) : (s.setReg a v).pending = s.pending := rfl
@[simp] theorem State.setReg_mem (a : Nat) (v : Word) : (s.setReg a v).mem = s.mem := rfl
@[simp] theorem State.setReg_undef (a : Nat) (v : Word) : (s.setReg a v).undef = s.undef := rfl
@[simp] theorem State.setReg_poison (a : Nat) (v : Word) : (s.setReg a v).poison = s.poison := rfl
@[simp] theorem State.setReg_free (a : Nat) (v : Word) : (s.setReg a v).free = s.free := rfl
@[simp] theorem State.setReg_resp (a : Nat) (v : Word) : (s.setReg a v).resp = s.resp := rfl
@[simp] theorem State.setReg_lk (a : Nat) (v : Word) : (s.setReg a v).lk = s.lk := rfl
@[simp] theorem State.setReg_weave (a : Nat) (v : Word) : (s.setReg a v).weave = s.weave := rfl
@[simp] theorem State.setReg_fuses (a : Nat) (v : Word) : (s.setReg a v).fuses = s.fuses := rfl
@[simp] theorem State.setReg_flash (a : Nat) (v : Word) : (s.setReg a v).flash = s.flash := rfl
@[simp] theorem State.setReg_sec (a : Nat) (v : Word) : (s.setReg a v).sec = s.sec := rfl
@[simp] theorem State.setReg_failEng (a : Nat) (v : Word) : (s.setReg a v).failEng = s.failEng := rfl
@[simp] theorem State.setReg_failPvu (a : Nat) (v : Word) : (s.setReg a v).failPvu = s.failPvu := rfl
@[simp] theorem State.setReg_failTc (a : Nat) (v : Word) : (s.setReg a v).failTc = s.failTc := rfl
@[simp] theorem State.setReg_failQuay (a : Nat) (v : Word) : (s.setReg a v).failQuay = s.failQuay := rfl
@[simp] theorem State.setReg_failCh (a : Nat) (v : Word) : (s.setReg a v).failCh = s.failCh := rfl
@[simp] theorem State.setReg_psq (a : Nat) (v : Word) : (s.setReg a v).psq = s.psq := rfl
@[simp] theorem State.setReg_slots (a : Nat) (v : Word) : (s.setReg a v).slots = s.slots := rfl
@[simp] theorem State.setReg_pvu (a : Nat) (v : Word) : (s.setReg a v).pvu = s.pvu := rfl
@[simp] theorem State.setReg_asu (a : Nat) (v : Word) : (s.setReg a v).asu = s.asu := rfl
@[simp] theorem State.setReg_quay (a : Nat) (v : Word) : (s.setReg a v).quay = s.quay := rfl
@[simp] theorem State.setReg_binds (a : Nat) (v : Word) : (s.setReg a v).binds = s.binds := rfl
@[simp] theorem State.setReg_macs (a : Nat) (v : Word) : (s.setReg a v).macs = s.macs := rfl
@[simp] theorem State.setReg_xch (a : Nat) (v : Word) : (s.setReg a v).xch = s.xch := rfl
@[simp] theorem State.setReg_jobs (a : Nat) (v : Word) : (s.setReg a v).jobs = s.jobs := rfl
@[simp] theorem State.setReg_port (a : Nat) (v : Word) : (s.setReg a v).port = s.port := rfl
@[simp] theorem State.setReg_ring (a : Nat) (v : Word) : (s.setReg a v).ring = s.ring := rfl
@[simp] theorem State.setReg_out (a : Nat) (v : Word) : (s.setReg a v).out = s.out := rfl
@[simp] theorem State.setReg_msix (a : Nat) (v : Word) : (s.setReg a v).msix = s.msix := rfl
@[simp] theorem State.setReg_pba (a : Nat) (v : Word) : (s.setReg a v).pba = s.pba := rfl
@[simp] theorem State.setReg_added (a : Nat) (v : Word) : (s.setReg a v).added = s.added := rfl
@[simp] theorem State.setReg_kvp (a : Nat) (v : Word) : (s.setReg a v).kvp = s.kvp := rfl
@[simp] theorem State.setReg_thread (a : Nat) (v : Word) : (s.setReg a v).thread = s.thread := rfl
@[simp] theorem State.setReg_l1 (a : Nat) (v : Word) : (s.setReg a v).l1 = s.l1 := rfl
@[simp] theorem State.setReg_il1 (a : Nat) (v : Word) : (s.setReg a v).il1 = s.il1 := rfl
@[simp] theorem State.setReg_wakes (a : Nat) (v : Word) : (s.setReg a v).wakes = s.wakes := rfl
@[simp] theorem State.setReg_time (a : Nat) (v : Word) : (s.setReg a v).time = s.time := rfl
@[simp] theorem State.setReg_core (a : Nat) (v : Word) : (s.setReg a v).core = s.core := rfl
@[simp] theorem State.setReg_takes (a : Nat) (v : Word) : (s.setReg a v).takes = s.takes := rfl
@[simp] theorem State.setReg_homes (a : Nat) (v : Word) : (s.setReg a v).homes = s.homes := rfl
@[simp] theorem State.setReg_copies (a : Nat) (v : Word) : (s.setReg a v).copies = s.copies := rfl
@[simp] theorem State.setReg_resv (a : Nat) (v : Word) : (s.setReg a v).resv = s.resv := rfl
@[simp] theorem State.setReg_recs (a : Nat) (v : Word) : (s.setReg a v).recs = s.recs := rfl
@[simp] theorem State.setReg_hq (a : Nat) (v : Word) : (s.setReg a v).hq = s.hq := rfl
@[simp] theorem State.setReg_poolK (a : Nat) (v : Word) : (s.setReg a v).poolK = s.poolK := rfl
@[simp] theorem State.setReg_poolEra (a : Nat) (v : Word) : (s.setReg a v).poolEra = s.poolEra := rfl
@[simp] theorem State.setReg_pci (a : Nat) (v : Word) : (s.setReg a v).pci = s.pci := rfl
@[simp] theorem State.setReg_replay (a : Nat) (v : Word) : (s.setReg a v).replay = s.replay := rfl
@[simp] theorem State.setReg_q (a : Nat) (v : Word) (x : Nat) : (s.setReg a v).q x = s.q x := rfl
@[simp] theorem State.setReg_pv (a : Nat) (v : Word) (x : Nat) : (s.setReg a v).pv x = s.pv x := rfl
@[simp] theorem State.setReg_as (a : Nat) (v : Word) (x y : Nat) : (s.setReg a v).as x y = s.as x y := rfl
@[simp] theorem State.setReg_qu (a : Nat) (v : Word) (x : Nat) : (s.setReg a v).qu x = s.qu x := rfl
@[simp] theorem State.setReg_slot (a : Nat) (v : Word) (x y : Nat) : (s.setReg a v).slot x y = s.slot x y := rfl
@[simp] theorem State.setReg_hqOf (a : Nat) (v : Word) (x : Nat) : (s.setReg a v).hqOf x = s.hqOf x := rfl
@[simp] theorem State.setReg_kv (a : Nat) (v : Word) (x : Nat) : (s.setReg a v).kv x = s.kv x := rfl
@[simp] theorem State.setReg_job (a : Nat) (v : Word) (x : Nat) : (s.setReg a v).job x = s.job x := rfl
@[simp] theorem State.setReg_xc (a : Nat) (v : Word) (x : Nat) : (s.setReg a v).xc x = s.xc x := rfl
@[simp] theorem State.setReg_home (a : Nat) (v : Word) (x : Nat) : (s.setReg a v).home x = s.home x := rfl
@[simp] theorem State.setReg_thr (a : Nat) (v : Word) (x : Nat) : (s.setReg a v).thr x = s.thr x := rfl
@[simp] theorem State.setReg_pt (a : Nat) (v : Word) (x : Nat) : (s.setReg a v).pt x = s.pt x := rfl
@[simp] theorem State.setReg_rg (a : Nat) (v : Word) (x : Nat) : (s.setReg a v).rg x = s.rg x := rfl
@[simp] theorem State.setReg_byte (a : Nat) (v : Word) (x : Nat) : (s.setReg a v).byte x = s.byte x := rfl
@[simp] theorem State.setReg_coreRegs (a : Nat) (v : Word) (x : Nat) : (s.setReg a v).coreRegs x = s.coreRegs x := rfl
@[simp] theorem State.setReg_stake (a : Nat) (v : Word) (x : Nat) : (s.setReg a v).stake x = s.stake x := rfl
@[simp] theorem State.setReg_enabled (a : Nat) (v : Word) (x : Nat) : (s.setReg a v).enabled x = s.enabled x := rfl

/-! ### setFld -/

@[simp] theorem State.setFld_pending (a : Nat) (f : Fld) (v : Nat) : (s.setFld a f v).pending = s.pending := rfl
@[simp] theorem State.setFld_mem (a : Nat) (f : Fld) (v : Nat) : (s.setFld a f v).mem = s.mem := rfl
@[simp] theorem State.setFld_undef (a : Nat) (f : Fld) (v : Nat) : (s.setFld a f v).undef = s.undef := rfl
@[simp] theorem State.setFld_poison (a : Nat) (f : Fld) (v : Nat) : (s.setFld a f v).poison = s.poison := rfl
@[simp] theorem State.setFld_free (a : Nat) (f : Fld) (v : Nat) : (s.setFld a f v).free = s.free := rfl
@[simp] theorem State.setFld_resp (a : Nat) (f : Fld) (v : Nat) : (s.setFld a f v).resp = s.resp := rfl
@[simp] theorem State.setFld_lk (a : Nat) (f : Fld) (v : Nat) : (s.setFld a f v).lk = s.lk := rfl
@[simp] theorem State.setFld_weave (a : Nat) (f : Fld) (v : Nat) : (s.setFld a f v).weave = s.weave := rfl
@[simp] theorem State.setFld_fuses (a : Nat) (f : Fld) (v : Nat) : (s.setFld a f v).fuses = s.fuses := rfl
@[simp] theorem State.setFld_flash (a : Nat) (f : Fld) (v : Nat) : (s.setFld a f v).flash = s.flash := rfl
@[simp] theorem State.setFld_sec (a : Nat) (f : Fld) (v : Nat) : (s.setFld a f v).sec = s.sec := rfl
@[simp] theorem State.setFld_failEng (a : Nat) (f : Fld) (v : Nat) : (s.setFld a f v).failEng = s.failEng := rfl
@[simp] theorem State.setFld_failPvu (a : Nat) (f : Fld) (v : Nat) : (s.setFld a f v).failPvu = s.failPvu := rfl
@[simp] theorem State.setFld_failTc (a : Nat) (f : Fld) (v : Nat) : (s.setFld a f v).failTc = s.failTc := rfl
@[simp] theorem State.setFld_failQuay (a : Nat) (f : Fld) (v : Nat) : (s.setFld a f v).failQuay = s.failQuay := rfl
@[simp] theorem State.setFld_failCh (a : Nat) (f : Fld) (v : Nat) : (s.setFld a f v).failCh = s.failCh := rfl
@[simp] theorem State.setFld_psq (a : Nat) (f : Fld) (v : Nat) : (s.setFld a f v).psq = s.psq := rfl
@[simp] theorem State.setFld_slots (a : Nat) (f : Fld) (v : Nat) : (s.setFld a f v).slots = s.slots := rfl
@[simp] theorem State.setFld_pvu (a : Nat) (f : Fld) (v : Nat) : (s.setFld a f v).pvu = s.pvu := rfl
@[simp] theorem State.setFld_asu (a : Nat) (f : Fld) (v : Nat) : (s.setFld a f v).asu = s.asu := rfl
@[simp] theorem State.setFld_quay (a : Nat) (f : Fld) (v : Nat) : (s.setFld a f v).quay = s.quay := rfl
@[simp] theorem State.setFld_binds (a : Nat) (f : Fld) (v : Nat) : (s.setFld a f v).binds = s.binds := rfl
@[simp] theorem State.setFld_macs (a : Nat) (f : Fld) (v : Nat) : (s.setFld a f v).macs = s.macs := rfl
@[simp] theorem State.setFld_xch (a : Nat) (f : Fld) (v : Nat) : (s.setFld a f v).xch = s.xch := rfl
@[simp] theorem State.setFld_jobs (a : Nat) (f : Fld) (v : Nat) : (s.setFld a f v).jobs = s.jobs := rfl
@[simp] theorem State.setFld_port (a : Nat) (f : Fld) (v : Nat) : (s.setFld a f v).port = s.port := rfl
@[simp] theorem State.setFld_ring (a : Nat) (f : Fld) (v : Nat) : (s.setFld a f v).ring = s.ring := rfl
@[simp] theorem State.setFld_out (a : Nat) (f : Fld) (v : Nat) : (s.setFld a f v).out = s.out := rfl
@[simp] theorem State.setFld_msix (a : Nat) (f : Fld) (v : Nat) : (s.setFld a f v).msix = s.msix := rfl
@[simp] theorem State.setFld_pba (a : Nat) (f : Fld) (v : Nat) : (s.setFld a f v).pba = s.pba := rfl
@[simp] theorem State.setFld_added (a : Nat) (f : Fld) (v : Nat) : (s.setFld a f v).added = s.added := rfl
@[simp] theorem State.setFld_kvp (a : Nat) (f : Fld) (v : Nat) : (s.setFld a f v).kvp = s.kvp := rfl
@[simp] theorem State.setFld_thread (a : Nat) (f : Fld) (v : Nat) : (s.setFld a f v).thread = s.thread := rfl
@[simp] theorem State.setFld_l1 (a : Nat) (f : Fld) (v : Nat) : (s.setFld a f v).l1 = s.l1 := rfl
@[simp] theorem State.setFld_il1 (a : Nat) (f : Fld) (v : Nat) : (s.setFld a f v).il1 = s.il1 := rfl
@[simp] theorem State.setFld_wakes (a : Nat) (f : Fld) (v : Nat) : (s.setFld a f v).wakes = s.wakes := rfl
@[simp] theorem State.setFld_time (a : Nat) (f : Fld) (v : Nat) : (s.setFld a f v).time = s.time := rfl
@[simp] theorem State.setFld_core (a : Nat) (f : Fld) (v : Nat) : (s.setFld a f v).core = s.core := rfl
@[simp] theorem State.setFld_takes (a : Nat) (f : Fld) (v : Nat) : (s.setFld a f v).takes = s.takes := rfl
@[simp] theorem State.setFld_homes (a : Nat) (f : Fld) (v : Nat) : (s.setFld a f v).homes = s.homes := rfl
@[simp] theorem State.setFld_copies (a : Nat) (f : Fld) (v : Nat) : (s.setFld a f v).copies = s.copies := rfl
@[simp] theorem State.setFld_resv (a : Nat) (f : Fld) (v : Nat) : (s.setFld a f v).resv = s.resv := rfl
@[simp] theorem State.setFld_recs (a : Nat) (f : Fld) (v : Nat) : (s.setFld a f v).recs = s.recs := rfl
@[simp] theorem State.setFld_hq (a : Nat) (f : Fld) (v : Nat) : (s.setFld a f v).hq = s.hq := rfl
@[simp] theorem State.setFld_poolK (a : Nat) (f : Fld) (v : Nat) : (s.setFld a f v).poolK = s.poolK := rfl
@[simp] theorem State.setFld_poolEra (a : Nat) (f : Fld) (v : Nat) : (s.setFld a f v).poolEra = s.poolEra := rfl
@[simp] theorem State.setFld_pci (a : Nat) (f : Fld) (v : Nat) : (s.setFld a f v).pci = s.pci := rfl
@[simp] theorem State.setFld_replay (a : Nat) (f : Fld) (v : Nat) : (s.setFld a f v).replay = s.replay := rfl
@[simp] theorem State.setFld_q (a : Nat) (f : Fld) (v : Nat) (x : Nat) : (s.setFld a f v).q x = s.q x := rfl
@[simp] theorem State.setFld_pv (a : Nat) (f : Fld) (v : Nat) (x : Nat) : (s.setFld a f v).pv x = s.pv x := rfl
@[simp] theorem State.setFld_as (a : Nat) (f : Fld) (v : Nat) (x y : Nat) : (s.setFld a f v).as x y = s.as x y := rfl
@[simp] theorem State.setFld_qu (a : Nat) (f : Fld) (v : Nat) (x : Nat) : (s.setFld a f v).qu x = s.qu x := rfl
@[simp] theorem State.setFld_slot (a : Nat) (f : Fld) (v : Nat) (x y : Nat) : (s.setFld a f v).slot x y = s.slot x y := rfl
@[simp] theorem State.setFld_hqOf (a : Nat) (f : Fld) (v : Nat) (x : Nat) : (s.setFld a f v).hqOf x = s.hqOf x := rfl
@[simp] theorem State.setFld_kv (a : Nat) (f : Fld) (v : Nat) (x : Nat) : (s.setFld a f v).kv x = s.kv x := rfl
@[simp] theorem State.setFld_job (a : Nat) (f : Fld) (v : Nat) (x : Nat) : (s.setFld a f v).job x = s.job x := rfl
@[simp] theorem State.setFld_xc (a : Nat) (f : Fld) (v : Nat) (x : Nat) : (s.setFld a f v).xc x = s.xc x := rfl
@[simp] theorem State.setFld_home (a : Nat) (f : Fld) (v : Nat) (x : Nat) : (s.setFld a f v).home x = s.home x := rfl
@[simp] theorem State.setFld_thr (a : Nat) (f : Fld) (v : Nat) (x : Nat) : (s.setFld a f v).thr x = s.thr x := rfl
@[simp] theorem State.setFld_pt (a : Nat) (f : Fld) (v : Nat) (x : Nat) : (s.setFld a f v).pt x = s.pt x := rfl
@[simp] theorem State.setFld_rg (a : Nat) (f : Fld) (v : Nat) (x : Nat) : (s.setFld a f v).rg x = s.rg x := rfl
@[simp] theorem State.setFld_byte (a : Nat) (f : Fld) (v : Nat) (x : Nat) : (s.setFld a f v).byte x = s.byte x := rfl
@[simp] theorem State.setFld_coreRegs (a : Nat) (f : Fld) (v : Nat) (x : Nat) : (s.setFld a f v).coreRegs x = s.coreRegs x := rfl
@[simp] theorem State.setFld_stake (a : Nat) (f : Fld) (v : Nat) (x : Nat) : (s.setFld a f v).stake x = s.stake x := rfl
@[simp] theorem State.setFld_enabled (a : Nat) (f : Fld) (v : Nat) (x : Nat) : (s.setFld a f v).enabled x = s.enabled x := rfl

/-! ### setFldBit -/

@[simp] theorem State.setFldBit_pending (a : Nat) (f : Fld) (i : Nat) (b : Bool) : (s.setFldBit a f i b).pending = s.pending := rfl
@[simp] theorem State.setFldBit_mem (a : Nat) (f : Fld) (i : Nat) (b : Bool) : (s.setFldBit a f i b).mem = s.mem := rfl
@[simp] theorem State.setFldBit_undef (a : Nat) (f : Fld) (i : Nat) (b : Bool) : (s.setFldBit a f i b).undef = s.undef := rfl
@[simp] theorem State.setFldBit_poison (a : Nat) (f : Fld) (i : Nat) (b : Bool) : (s.setFldBit a f i b).poison = s.poison := rfl
@[simp] theorem State.setFldBit_free (a : Nat) (f : Fld) (i : Nat) (b : Bool) : (s.setFldBit a f i b).free = s.free := rfl
@[simp] theorem State.setFldBit_resp (a : Nat) (f : Fld) (i : Nat) (b : Bool) : (s.setFldBit a f i b).resp = s.resp := rfl
@[simp] theorem State.setFldBit_lk (a : Nat) (f : Fld) (i : Nat) (b : Bool) : (s.setFldBit a f i b).lk = s.lk := rfl
@[simp] theorem State.setFldBit_weave (a : Nat) (f : Fld) (i : Nat) (b : Bool) : (s.setFldBit a f i b).weave = s.weave := rfl
@[simp] theorem State.setFldBit_fuses (a : Nat) (f : Fld) (i : Nat) (b : Bool) : (s.setFldBit a f i b).fuses = s.fuses := rfl
@[simp] theorem State.setFldBit_flash (a : Nat) (f : Fld) (i : Nat) (b : Bool) : (s.setFldBit a f i b).flash = s.flash := rfl
@[simp] theorem State.setFldBit_sec (a : Nat) (f : Fld) (i : Nat) (b : Bool) : (s.setFldBit a f i b).sec = s.sec := rfl
@[simp] theorem State.setFldBit_failEng (a : Nat) (f : Fld) (i : Nat) (b : Bool) : (s.setFldBit a f i b).failEng = s.failEng := rfl
@[simp] theorem State.setFldBit_failPvu (a : Nat) (f : Fld) (i : Nat) (b : Bool) : (s.setFldBit a f i b).failPvu = s.failPvu := rfl
@[simp] theorem State.setFldBit_failTc (a : Nat) (f : Fld) (i : Nat) (b : Bool) : (s.setFldBit a f i b).failTc = s.failTc := rfl
@[simp] theorem State.setFldBit_failQuay (a : Nat) (f : Fld) (i : Nat) (b : Bool) : (s.setFldBit a f i b).failQuay = s.failQuay := rfl
@[simp] theorem State.setFldBit_failCh (a : Nat) (f : Fld) (i : Nat) (b : Bool) : (s.setFldBit a f i b).failCh = s.failCh := rfl
@[simp] theorem State.setFldBit_psq (a : Nat) (f : Fld) (i : Nat) (b : Bool) : (s.setFldBit a f i b).psq = s.psq := rfl
@[simp] theorem State.setFldBit_slots (a : Nat) (f : Fld) (i : Nat) (b : Bool) : (s.setFldBit a f i b).slots = s.slots := rfl
@[simp] theorem State.setFldBit_pvu (a : Nat) (f : Fld) (i : Nat) (b : Bool) : (s.setFldBit a f i b).pvu = s.pvu := rfl
@[simp] theorem State.setFldBit_asu (a : Nat) (f : Fld) (i : Nat) (b : Bool) : (s.setFldBit a f i b).asu = s.asu := rfl
@[simp] theorem State.setFldBit_quay (a : Nat) (f : Fld) (i : Nat) (b : Bool) : (s.setFldBit a f i b).quay = s.quay := rfl
@[simp] theorem State.setFldBit_binds (a : Nat) (f : Fld) (i : Nat) (b : Bool) : (s.setFldBit a f i b).binds = s.binds := rfl
@[simp] theorem State.setFldBit_macs (a : Nat) (f : Fld) (i : Nat) (b : Bool) : (s.setFldBit a f i b).macs = s.macs := rfl
@[simp] theorem State.setFldBit_xch (a : Nat) (f : Fld) (i : Nat) (b : Bool) : (s.setFldBit a f i b).xch = s.xch := rfl
@[simp] theorem State.setFldBit_jobs (a : Nat) (f : Fld) (i : Nat) (b : Bool) : (s.setFldBit a f i b).jobs = s.jobs := rfl
@[simp] theorem State.setFldBit_port (a : Nat) (f : Fld) (i : Nat) (b : Bool) : (s.setFldBit a f i b).port = s.port := rfl
@[simp] theorem State.setFldBit_ring (a : Nat) (f : Fld) (i : Nat) (b : Bool) : (s.setFldBit a f i b).ring = s.ring := rfl
@[simp] theorem State.setFldBit_out (a : Nat) (f : Fld) (i : Nat) (b : Bool) : (s.setFldBit a f i b).out = s.out := rfl
@[simp] theorem State.setFldBit_msix (a : Nat) (f : Fld) (i : Nat) (b : Bool) : (s.setFldBit a f i b).msix = s.msix := rfl
@[simp] theorem State.setFldBit_pba (a : Nat) (f : Fld) (i : Nat) (b : Bool) : (s.setFldBit a f i b).pba = s.pba := rfl
@[simp] theorem State.setFldBit_added (a : Nat) (f : Fld) (i : Nat) (b : Bool) : (s.setFldBit a f i b).added = s.added := rfl
@[simp] theorem State.setFldBit_kvp (a : Nat) (f : Fld) (i : Nat) (b : Bool) : (s.setFldBit a f i b).kvp = s.kvp := rfl
@[simp] theorem State.setFldBit_thread (a : Nat) (f : Fld) (i : Nat) (b : Bool) : (s.setFldBit a f i b).thread = s.thread := rfl
@[simp] theorem State.setFldBit_l1 (a : Nat) (f : Fld) (i : Nat) (b : Bool) : (s.setFldBit a f i b).l1 = s.l1 := rfl
@[simp] theorem State.setFldBit_il1 (a : Nat) (f : Fld) (i : Nat) (b : Bool) : (s.setFldBit a f i b).il1 = s.il1 := rfl
@[simp] theorem State.setFldBit_wakes (a : Nat) (f : Fld) (i : Nat) (b : Bool) : (s.setFldBit a f i b).wakes = s.wakes := rfl
@[simp] theorem State.setFldBit_time (a : Nat) (f : Fld) (i : Nat) (b : Bool) : (s.setFldBit a f i b).time = s.time := rfl
@[simp] theorem State.setFldBit_core (a : Nat) (f : Fld) (i : Nat) (b : Bool) : (s.setFldBit a f i b).core = s.core := rfl
@[simp] theorem State.setFldBit_takes (a : Nat) (f : Fld) (i : Nat) (b : Bool) : (s.setFldBit a f i b).takes = s.takes := rfl
@[simp] theorem State.setFldBit_homes (a : Nat) (f : Fld) (i : Nat) (b : Bool) : (s.setFldBit a f i b).homes = s.homes := rfl
@[simp] theorem State.setFldBit_copies (a : Nat) (f : Fld) (i : Nat) (b : Bool) : (s.setFldBit a f i b).copies = s.copies := rfl
@[simp] theorem State.setFldBit_resv (a : Nat) (f : Fld) (i : Nat) (b : Bool) : (s.setFldBit a f i b).resv = s.resv := rfl
@[simp] theorem State.setFldBit_recs (a : Nat) (f : Fld) (i : Nat) (b : Bool) : (s.setFldBit a f i b).recs = s.recs := rfl
@[simp] theorem State.setFldBit_hq (a : Nat) (f : Fld) (i : Nat) (b : Bool) : (s.setFldBit a f i b).hq = s.hq := rfl
@[simp] theorem State.setFldBit_poolK (a : Nat) (f : Fld) (i : Nat) (b : Bool) : (s.setFldBit a f i b).poolK = s.poolK := rfl
@[simp] theorem State.setFldBit_poolEra (a : Nat) (f : Fld) (i : Nat) (b : Bool) : (s.setFldBit a f i b).poolEra = s.poolEra := rfl
@[simp] theorem State.setFldBit_pci (a : Nat) (f : Fld) (i : Nat) (b : Bool) : (s.setFldBit a f i b).pci = s.pci := rfl
@[simp] theorem State.setFldBit_replay (a : Nat) (f : Fld) (i : Nat) (b : Bool) : (s.setFldBit a f i b).replay = s.replay := rfl
@[simp] theorem State.setFldBit_q (a : Nat) (f : Fld) (i : Nat) (b : Bool) (x : Nat) : (s.setFldBit a f i b).q x = s.q x := rfl
@[simp] theorem State.setFldBit_pv (a : Nat) (f : Fld) (i : Nat) (b : Bool) (x : Nat) : (s.setFldBit a f i b).pv x = s.pv x := rfl
@[simp] theorem State.setFldBit_as (a : Nat) (f : Fld) (i : Nat) (b : Bool) (x y : Nat) : (s.setFldBit a f i b).as x y = s.as x y := rfl
@[simp] theorem State.setFldBit_qu (a : Nat) (f : Fld) (i : Nat) (b : Bool) (x : Nat) : (s.setFldBit a f i b).qu x = s.qu x := rfl
@[simp] theorem State.setFldBit_slot (a : Nat) (f : Fld) (i : Nat) (b : Bool) (x y : Nat) : (s.setFldBit a f i b).slot x y = s.slot x y := rfl
@[simp] theorem State.setFldBit_hqOf (a : Nat) (f : Fld) (i : Nat) (b : Bool) (x : Nat) : (s.setFldBit a f i b).hqOf x = s.hqOf x := rfl
@[simp] theorem State.setFldBit_kv (a : Nat) (f : Fld) (i : Nat) (b : Bool) (x : Nat) : (s.setFldBit a f i b).kv x = s.kv x := rfl
@[simp] theorem State.setFldBit_job (a : Nat) (f : Fld) (i : Nat) (b : Bool) (x : Nat) : (s.setFldBit a f i b).job x = s.job x := rfl
@[simp] theorem State.setFldBit_xc (a : Nat) (f : Fld) (i : Nat) (b : Bool) (x : Nat) : (s.setFldBit a f i b).xc x = s.xc x := rfl
@[simp] theorem State.setFldBit_home (a : Nat) (f : Fld) (i : Nat) (b : Bool) (x : Nat) : (s.setFldBit a f i b).home x = s.home x := rfl
@[simp] theorem State.setFldBit_thr (a : Nat) (f : Fld) (i : Nat) (b : Bool) (x : Nat) : (s.setFldBit a f i b).thr x = s.thr x := rfl
@[simp] theorem State.setFldBit_pt (a : Nat) (f : Fld) (i : Nat) (b : Bool) (x : Nat) : (s.setFldBit a f i b).pt x = s.pt x := rfl
@[simp] theorem State.setFldBit_rg (a : Nat) (f : Fld) (i : Nat) (b : Bool) (x : Nat) : (s.setFldBit a f i b).rg x = s.rg x := rfl
@[simp] theorem State.setFldBit_byte (a : Nat) (f : Fld) (i : Nat) (b : Bool) (x : Nat) : (s.setFldBit a f i b).byte x = s.byte x := rfl
@[simp] theorem State.setFldBit_coreRegs (a : Nat) (f : Fld) (i : Nat) (b : Bool) (x : Nat) : (s.setFldBit a f i b).coreRegs x = s.coreRegs x := rfl
@[simp] theorem State.setFldBit_stake (a : Nat) (f : Fld) (i : Nat) (b : Bool) (x : Nat) : (s.setFldBit a f i b).stake x = s.stake x := rfl
@[simp] theorem State.setFldBit_enabled (a : Nat) (f : Fld) (i : Nat) (b : Bool) (x : Nat) : (s.setFldBit a f i b).enabled x = s.enabled x := rfl

/-! ### addSat -/

@[simp] theorem State.addSat_pending (a : Nat) (f : Fld) (n : Nat) : (s.addSat a f n).pending = s.pending := rfl
@[simp] theorem State.addSat_mem (a : Nat) (f : Fld) (n : Nat) : (s.addSat a f n).mem = s.mem := rfl
@[simp] theorem State.addSat_undef (a : Nat) (f : Fld) (n : Nat) : (s.addSat a f n).undef = s.undef := rfl
@[simp] theorem State.addSat_poison (a : Nat) (f : Fld) (n : Nat) : (s.addSat a f n).poison = s.poison := rfl
@[simp] theorem State.addSat_free (a : Nat) (f : Fld) (n : Nat) : (s.addSat a f n).free = s.free := rfl
@[simp] theorem State.addSat_resp (a : Nat) (f : Fld) (n : Nat) : (s.addSat a f n).resp = s.resp := rfl
@[simp] theorem State.addSat_lk (a : Nat) (f : Fld) (n : Nat) : (s.addSat a f n).lk = s.lk := rfl
@[simp] theorem State.addSat_weave (a : Nat) (f : Fld) (n : Nat) : (s.addSat a f n).weave = s.weave := rfl
@[simp] theorem State.addSat_fuses (a : Nat) (f : Fld) (n : Nat) : (s.addSat a f n).fuses = s.fuses := rfl
@[simp] theorem State.addSat_flash (a : Nat) (f : Fld) (n : Nat) : (s.addSat a f n).flash = s.flash := rfl
@[simp] theorem State.addSat_sec (a : Nat) (f : Fld) (n : Nat) : (s.addSat a f n).sec = s.sec := rfl
@[simp] theorem State.addSat_failEng (a : Nat) (f : Fld) (n : Nat) : (s.addSat a f n).failEng = s.failEng := rfl
@[simp] theorem State.addSat_failPvu (a : Nat) (f : Fld) (n : Nat) : (s.addSat a f n).failPvu = s.failPvu := rfl
@[simp] theorem State.addSat_failTc (a : Nat) (f : Fld) (n : Nat) : (s.addSat a f n).failTc = s.failTc := rfl
@[simp] theorem State.addSat_failQuay (a : Nat) (f : Fld) (n : Nat) : (s.addSat a f n).failQuay = s.failQuay := rfl
@[simp] theorem State.addSat_failCh (a : Nat) (f : Fld) (n : Nat) : (s.addSat a f n).failCh = s.failCh := rfl
@[simp] theorem State.addSat_psq (a : Nat) (f : Fld) (n : Nat) : (s.addSat a f n).psq = s.psq := rfl
@[simp] theorem State.addSat_slots (a : Nat) (f : Fld) (n : Nat) : (s.addSat a f n).slots = s.slots := rfl
@[simp] theorem State.addSat_pvu (a : Nat) (f : Fld) (n : Nat) : (s.addSat a f n).pvu = s.pvu := rfl
@[simp] theorem State.addSat_asu (a : Nat) (f : Fld) (n : Nat) : (s.addSat a f n).asu = s.asu := rfl
@[simp] theorem State.addSat_quay (a : Nat) (f : Fld) (n : Nat) : (s.addSat a f n).quay = s.quay := rfl
@[simp] theorem State.addSat_binds (a : Nat) (f : Fld) (n : Nat) : (s.addSat a f n).binds = s.binds := rfl
@[simp] theorem State.addSat_macs (a : Nat) (f : Fld) (n : Nat) : (s.addSat a f n).macs = s.macs := rfl
@[simp] theorem State.addSat_xch (a : Nat) (f : Fld) (n : Nat) : (s.addSat a f n).xch = s.xch := rfl
@[simp] theorem State.addSat_jobs (a : Nat) (f : Fld) (n : Nat) : (s.addSat a f n).jobs = s.jobs := rfl
@[simp] theorem State.addSat_port (a : Nat) (f : Fld) (n : Nat) : (s.addSat a f n).port = s.port := rfl
@[simp] theorem State.addSat_ring (a : Nat) (f : Fld) (n : Nat) : (s.addSat a f n).ring = s.ring := rfl
@[simp] theorem State.addSat_out (a : Nat) (f : Fld) (n : Nat) : (s.addSat a f n).out = s.out := rfl
@[simp] theorem State.addSat_msix (a : Nat) (f : Fld) (n : Nat) : (s.addSat a f n).msix = s.msix := rfl
@[simp] theorem State.addSat_pba (a : Nat) (f : Fld) (n : Nat) : (s.addSat a f n).pba = s.pba := rfl
@[simp] theorem State.addSat_added (a : Nat) (f : Fld) (n : Nat) : (s.addSat a f n).added = s.added := rfl
@[simp] theorem State.addSat_kvp (a : Nat) (f : Fld) (n : Nat) : (s.addSat a f n).kvp = s.kvp := rfl
@[simp] theorem State.addSat_thread (a : Nat) (f : Fld) (n : Nat) : (s.addSat a f n).thread = s.thread := rfl
@[simp] theorem State.addSat_l1 (a : Nat) (f : Fld) (n : Nat) : (s.addSat a f n).l1 = s.l1 := rfl
@[simp] theorem State.addSat_il1 (a : Nat) (f : Fld) (n : Nat) : (s.addSat a f n).il1 = s.il1 := rfl
@[simp] theorem State.addSat_wakes (a : Nat) (f : Fld) (n : Nat) : (s.addSat a f n).wakes = s.wakes := rfl
@[simp] theorem State.addSat_time (a : Nat) (f : Fld) (n : Nat) : (s.addSat a f n).time = s.time := rfl
@[simp] theorem State.addSat_core (a : Nat) (f : Fld) (n : Nat) : (s.addSat a f n).core = s.core := rfl
@[simp] theorem State.addSat_takes (a : Nat) (f : Fld) (n : Nat) : (s.addSat a f n).takes = s.takes := rfl
@[simp] theorem State.addSat_homes (a : Nat) (f : Fld) (n : Nat) : (s.addSat a f n).homes = s.homes := rfl
@[simp] theorem State.addSat_copies (a : Nat) (f : Fld) (n : Nat) : (s.addSat a f n).copies = s.copies := rfl
@[simp] theorem State.addSat_resv (a : Nat) (f : Fld) (n : Nat) : (s.addSat a f n).resv = s.resv := rfl
@[simp] theorem State.addSat_recs (a : Nat) (f : Fld) (n : Nat) : (s.addSat a f n).recs = s.recs := rfl
@[simp] theorem State.addSat_hq (a : Nat) (f : Fld) (n : Nat) : (s.addSat a f n).hq = s.hq := rfl
@[simp] theorem State.addSat_poolK (a : Nat) (f : Fld) (n : Nat) : (s.addSat a f n).poolK = s.poolK := rfl
@[simp] theorem State.addSat_poolEra (a : Nat) (f : Fld) (n : Nat) : (s.addSat a f n).poolEra = s.poolEra := rfl
@[simp] theorem State.addSat_pci (a : Nat) (f : Fld) (n : Nat) : (s.addSat a f n).pci = s.pci := rfl
@[simp] theorem State.addSat_replay (a : Nat) (f : Fld) (n : Nat) : (s.addSat a f n).replay = s.replay := rfl
@[simp] theorem State.addSat_q (a : Nat) (f : Fld) (n : Nat) (x : Nat) : (s.addSat a f n).q x = s.q x := rfl
@[simp] theorem State.addSat_pv (a : Nat) (f : Fld) (n : Nat) (x : Nat) : (s.addSat a f n).pv x = s.pv x := rfl
@[simp] theorem State.addSat_as (a : Nat) (f : Fld) (n : Nat) (x y : Nat) : (s.addSat a f n).as x y = s.as x y := rfl
@[simp] theorem State.addSat_qu (a : Nat) (f : Fld) (n : Nat) (x : Nat) : (s.addSat a f n).qu x = s.qu x := rfl
@[simp] theorem State.addSat_slot (a : Nat) (f : Fld) (n : Nat) (x y : Nat) : (s.addSat a f n).slot x y = s.slot x y := rfl
@[simp] theorem State.addSat_hqOf (a : Nat) (f : Fld) (n : Nat) (x : Nat) : (s.addSat a f n).hqOf x = s.hqOf x := rfl
@[simp] theorem State.addSat_kv (a : Nat) (f : Fld) (n : Nat) (x : Nat) : (s.addSat a f n).kv x = s.kv x := rfl
@[simp] theorem State.addSat_job (a : Nat) (f : Fld) (n : Nat) (x : Nat) : (s.addSat a f n).job x = s.job x := rfl
@[simp] theorem State.addSat_xc (a : Nat) (f : Fld) (n : Nat) (x : Nat) : (s.addSat a f n).xc x = s.xc x := rfl
@[simp] theorem State.addSat_home (a : Nat) (f : Fld) (n : Nat) (x : Nat) : (s.addSat a f n).home x = s.home x := rfl
@[simp] theorem State.addSat_thr (a : Nat) (f : Fld) (n : Nat) (x : Nat) : (s.addSat a f n).thr x = s.thr x := rfl
@[simp] theorem State.addSat_pt (a : Nat) (f : Fld) (n : Nat) (x : Nat) : (s.addSat a f n).pt x = s.pt x := rfl
@[simp] theorem State.addSat_rg (a : Nat) (f : Fld) (n : Nat) (x : Nat) : (s.addSat a f n).rg x = s.rg x := rfl
@[simp] theorem State.addSat_byte (a : Nat) (f : Fld) (n : Nat) (x : Nat) : (s.addSat a f n).byte x = s.byte x := rfl
@[simp] theorem State.addSat_coreRegs (a : Nat) (f : Fld) (n : Nat) (x : Nat) : (s.addSat a f n).coreRegs x = s.coreRegs x := rfl
@[simp] theorem State.addSat_stake (a : Nat) (f : Fld) (n : Nat) (x : Nat) : (s.addSat a f n).stake x = s.stake x := rfl
@[simp] theorem State.addSat_enabled (a : Nat) (f : Fld) (n : Nat) (x : Nat) : (s.addSat a f n).enabled x = s.enabled x := rfl

/-! ### count -/

@[simp] theorem State.count_pending (a n : Nat) : (s.count a n).pending = s.pending := rfl
@[simp] theorem State.count_mem (a n : Nat) : (s.count a n).mem = s.mem := rfl
@[simp] theorem State.count_undef (a n : Nat) : (s.count a n).undef = s.undef := rfl
@[simp] theorem State.count_poison (a n : Nat) : (s.count a n).poison = s.poison := rfl
@[simp] theorem State.count_free (a n : Nat) : (s.count a n).free = s.free := rfl
@[simp] theorem State.count_resp (a n : Nat) : (s.count a n).resp = s.resp := rfl
@[simp] theorem State.count_lk (a n : Nat) : (s.count a n).lk = s.lk := rfl
@[simp] theorem State.count_weave (a n : Nat) : (s.count a n).weave = s.weave := rfl
@[simp] theorem State.count_fuses (a n : Nat) : (s.count a n).fuses = s.fuses := rfl
@[simp] theorem State.count_flash (a n : Nat) : (s.count a n).flash = s.flash := rfl
@[simp] theorem State.count_sec (a n : Nat) : (s.count a n).sec = s.sec := rfl
@[simp] theorem State.count_failEng (a n : Nat) : (s.count a n).failEng = s.failEng := rfl
@[simp] theorem State.count_failPvu (a n : Nat) : (s.count a n).failPvu = s.failPvu := rfl
@[simp] theorem State.count_failTc (a n : Nat) : (s.count a n).failTc = s.failTc := rfl
@[simp] theorem State.count_failQuay (a n : Nat) : (s.count a n).failQuay = s.failQuay := rfl
@[simp] theorem State.count_failCh (a n : Nat) : (s.count a n).failCh = s.failCh := rfl
@[simp] theorem State.count_psq (a n : Nat) : (s.count a n).psq = s.psq := rfl
@[simp] theorem State.count_slots (a n : Nat) : (s.count a n).slots = s.slots := rfl
@[simp] theorem State.count_pvu (a n : Nat) : (s.count a n).pvu = s.pvu := rfl
@[simp] theorem State.count_asu (a n : Nat) : (s.count a n).asu = s.asu := rfl
@[simp] theorem State.count_quay (a n : Nat) : (s.count a n).quay = s.quay := rfl
@[simp] theorem State.count_binds (a n : Nat) : (s.count a n).binds = s.binds := rfl
@[simp] theorem State.count_macs (a n : Nat) : (s.count a n).macs = s.macs := rfl
@[simp] theorem State.count_xch (a n : Nat) : (s.count a n).xch = s.xch := rfl
@[simp] theorem State.count_jobs (a n : Nat) : (s.count a n).jobs = s.jobs := rfl
@[simp] theorem State.count_port (a n : Nat) : (s.count a n).port = s.port := rfl
@[simp] theorem State.count_ring (a n : Nat) : (s.count a n).ring = s.ring := rfl
@[simp] theorem State.count_out (a n : Nat) : (s.count a n).out = s.out := rfl
@[simp] theorem State.count_msix (a n : Nat) : (s.count a n).msix = s.msix := rfl
@[simp] theorem State.count_pba (a n : Nat) : (s.count a n).pba = s.pba := rfl
@[simp] theorem State.count_added (a n : Nat) : (s.count a n).added = s.added := rfl
@[simp] theorem State.count_kvp (a n : Nat) : (s.count a n).kvp = s.kvp := rfl
@[simp] theorem State.count_thread (a n : Nat) : (s.count a n).thread = s.thread := rfl
@[simp] theorem State.count_l1 (a n : Nat) : (s.count a n).l1 = s.l1 := rfl
@[simp] theorem State.count_il1 (a n : Nat) : (s.count a n).il1 = s.il1 := rfl
@[simp] theorem State.count_wakes (a n : Nat) : (s.count a n).wakes = s.wakes := rfl
@[simp] theorem State.count_time (a n : Nat) : (s.count a n).time = s.time := rfl
@[simp] theorem State.count_core (a n : Nat) : (s.count a n).core = s.core := rfl
@[simp] theorem State.count_takes (a n : Nat) : (s.count a n).takes = s.takes := rfl
@[simp] theorem State.count_homes (a n : Nat) : (s.count a n).homes = s.homes := rfl
@[simp] theorem State.count_copies (a n : Nat) : (s.count a n).copies = s.copies := rfl
@[simp] theorem State.count_resv (a n : Nat) : (s.count a n).resv = s.resv := rfl
@[simp] theorem State.count_recs (a n : Nat) : (s.count a n).recs = s.recs := rfl
@[simp] theorem State.count_hq (a n : Nat) : (s.count a n).hq = s.hq := rfl
@[simp] theorem State.count_poolK (a n : Nat) : (s.count a n).poolK = s.poolK := rfl
@[simp] theorem State.count_poolEra (a n : Nat) : (s.count a n).poolEra = s.poolEra := rfl
@[simp] theorem State.count_pci (a n : Nat) : (s.count a n).pci = s.pci := rfl
@[simp] theorem State.count_replay (a n : Nat) : (s.count a n).replay = s.replay := rfl
@[simp] theorem State.count_q (a n : Nat) (x : Nat) : (s.count a n).q x = s.q x := rfl
@[simp] theorem State.count_pv (a n : Nat) (x : Nat) : (s.count a n).pv x = s.pv x := rfl
@[simp] theorem State.count_as (a n : Nat) (x y : Nat) : (s.count a n).as x y = s.as x y := rfl
@[simp] theorem State.count_qu (a n : Nat) (x : Nat) : (s.count a n).qu x = s.qu x := rfl
@[simp] theorem State.count_slot (a n : Nat) (x y : Nat) : (s.count a n).slot x y = s.slot x y := rfl
@[simp] theorem State.count_hqOf (a n : Nat) (x : Nat) : (s.count a n).hqOf x = s.hqOf x := rfl
@[simp] theorem State.count_kv (a n : Nat) (x : Nat) : (s.count a n).kv x = s.kv x := rfl
@[simp] theorem State.count_job (a n : Nat) (x : Nat) : (s.count a n).job x = s.job x := rfl
@[simp] theorem State.count_xc (a n : Nat) (x : Nat) : (s.count a n).xc x = s.xc x := rfl
@[simp] theorem State.count_home (a n : Nat) (x : Nat) : (s.count a n).home x = s.home x := rfl
@[simp] theorem State.count_thr (a n : Nat) (x : Nat) : (s.count a n).thr x = s.thr x := rfl
@[simp] theorem State.count_pt (a n : Nat) (x : Nat) : (s.count a n).pt x = s.pt x := rfl
@[simp] theorem State.count_rg (a n : Nat) (x : Nat) : (s.count a n).rg x = s.rg x := rfl
@[simp] theorem State.count_byte (a n : Nat) (x : Nat) : (s.count a n).byte x = s.byte x := rfl
@[simp] theorem State.count_coreRegs (a n : Nat) (x : Nat) : (s.count a n).coreRegs x = s.coreRegs x := rfl
@[simp] theorem State.count_stake (a n : Nat) (x : Nat) : (s.count a n).stake x = s.stake x := rfl
@[simp] theorem State.count_enabled (a n : Nat) (x : Nat) : (s.count a n).enabled x = s.enabled x := rfl

/-! ### resetRegs -/

@[simp] theorem State.resetRegs_pending (l : List Nat) : (s.resetRegs l).pending = s.pending := rfl
@[simp] theorem State.resetRegs_mem (l : List Nat) : (s.resetRegs l).mem = s.mem := rfl
@[simp] theorem State.resetRegs_undef (l : List Nat) : (s.resetRegs l).undef = s.undef := rfl
@[simp] theorem State.resetRegs_poison (l : List Nat) : (s.resetRegs l).poison = s.poison := rfl
@[simp] theorem State.resetRegs_free (l : List Nat) : (s.resetRegs l).free = s.free := rfl
@[simp] theorem State.resetRegs_resp (l : List Nat) : (s.resetRegs l).resp = s.resp := rfl
@[simp] theorem State.resetRegs_lk (l : List Nat) : (s.resetRegs l).lk = s.lk := rfl
@[simp] theorem State.resetRegs_weave (l : List Nat) : (s.resetRegs l).weave = s.weave := rfl
@[simp] theorem State.resetRegs_fuses (l : List Nat) : (s.resetRegs l).fuses = s.fuses := rfl
@[simp] theorem State.resetRegs_flash (l : List Nat) : (s.resetRegs l).flash = s.flash := rfl
@[simp] theorem State.resetRegs_sec (l : List Nat) : (s.resetRegs l).sec = s.sec := rfl
@[simp] theorem State.resetRegs_failEng (l : List Nat) : (s.resetRegs l).failEng = s.failEng := rfl
@[simp] theorem State.resetRegs_failPvu (l : List Nat) : (s.resetRegs l).failPvu = s.failPvu := rfl
@[simp] theorem State.resetRegs_failTc (l : List Nat) : (s.resetRegs l).failTc = s.failTc := rfl
@[simp] theorem State.resetRegs_failQuay (l : List Nat) : (s.resetRegs l).failQuay = s.failQuay := rfl
@[simp] theorem State.resetRegs_failCh (l : List Nat) : (s.resetRegs l).failCh = s.failCh := rfl
@[simp] theorem State.resetRegs_psq (l : List Nat) : (s.resetRegs l).psq = s.psq := rfl
@[simp] theorem State.resetRegs_slots (l : List Nat) : (s.resetRegs l).slots = s.slots := rfl
@[simp] theorem State.resetRegs_pvu (l : List Nat) : (s.resetRegs l).pvu = s.pvu := rfl
@[simp] theorem State.resetRegs_asu (l : List Nat) : (s.resetRegs l).asu = s.asu := rfl
@[simp] theorem State.resetRegs_quay (l : List Nat) : (s.resetRegs l).quay = s.quay := rfl
@[simp] theorem State.resetRegs_binds (l : List Nat) : (s.resetRegs l).binds = s.binds := rfl
@[simp] theorem State.resetRegs_macs (l : List Nat) : (s.resetRegs l).macs = s.macs := rfl
@[simp] theorem State.resetRegs_xch (l : List Nat) : (s.resetRegs l).xch = s.xch := rfl
@[simp] theorem State.resetRegs_jobs (l : List Nat) : (s.resetRegs l).jobs = s.jobs := rfl
@[simp] theorem State.resetRegs_port (l : List Nat) : (s.resetRegs l).port = s.port := rfl
@[simp] theorem State.resetRegs_ring (l : List Nat) : (s.resetRegs l).ring = s.ring := rfl
@[simp] theorem State.resetRegs_out (l : List Nat) : (s.resetRegs l).out = s.out := rfl
@[simp] theorem State.resetRegs_msix (l : List Nat) : (s.resetRegs l).msix = s.msix := rfl
@[simp] theorem State.resetRegs_pba (l : List Nat) : (s.resetRegs l).pba = s.pba := rfl
@[simp] theorem State.resetRegs_added (l : List Nat) : (s.resetRegs l).added = s.added := rfl
@[simp] theorem State.resetRegs_kvp (l : List Nat) : (s.resetRegs l).kvp = s.kvp := rfl
@[simp] theorem State.resetRegs_thread (l : List Nat) : (s.resetRegs l).thread = s.thread := rfl
@[simp] theorem State.resetRegs_l1 (l : List Nat) : (s.resetRegs l).l1 = s.l1 := rfl
@[simp] theorem State.resetRegs_il1 (l : List Nat) : (s.resetRegs l).il1 = s.il1 := rfl
@[simp] theorem State.resetRegs_wakes (l : List Nat) : (s.resetRegs l).wakes = s.wakes := rfl
@[simp] theorem State.resetRegs_time (l : List Nat) : (s.resetRegs l).time = s.time := rfl
@[simp] theorem State.resetRegs_core (l : List Nat) : (s.resetRegs l).core = s.core := rfl
@[simp] theorem State.resetRegs_takes (l : List Nat) : (s.resetRegs l).takes = s.takes := rfl
@[simp] theorem State.resetRegs_homes (l : List Nat) : (s.resetRegs l).homes = s.homes := rfl
@[simp] theorem State.resetRegs_copies (l : List Nat) : (s.resetRegs l).copies = s.copies := rfl
@[simp] theorem State.resetRegs_resv (l : List Nat) : (s.resetRegs l).resv = s.resv := rfl
@[simp] theorem State.resetRegs_recs (l : List Nat) : (s.resetRegs l).recs = s.recs := rfl
@[simp] theorem State.resetRegs_hq (l : List Nat) : (s.resetRegs l).hq = s.hq := rfl
@[simp] theorem State.resetRegs_poolK (l : List Nat) : (s.resetRegs l).poolK = s.poolK := rfl
@[simp] theorem State.resetRegs_poolEra (l : List Nat) : (s.resetRegs l).poolEra = s.poolEra := rfl
@[simp] theorem State.resetRegs_pci (l : List Nat) : (s.resetRegs l).pci = s.pci := rfl
@[simp] theorem State.resetRegs_replay (l : List Nat) : (s.resetRegs l).replay = s.replay := rfl
@[simp] theorem State.resetRegs_q (l : List Nat) (x : Nat) : (s.resetRegs l).q x = s.q x := rfl
@[simp] theorem State.resetRegs_pv (l : List Nat) (x : Nat) : (s.resetRegs l).pv x = s.pv x := rfl
@[simp] theorem State.resetRegs_as (l : List Nat) (x y : Nat) : (s.resetRegs l).as x y = s.as x y := rfl
@[simp] theorem State.resetRegs_qu (l : List Nat) (x : Nat) : (s.resetRegs l).qu x = s.qu x := rfl
@[simp] theorem State.resetRegs_slot (l : List Nat) (x y : Nat) : (s.resetRegs l).slot x y = s.slot x y := rfl
@[simp] theorem State.resetRegs_hqOf (l : List Nat) (x : Nat) : (s.resetRegs l).hqOf x = s.hqOf x := rfl
@[simp] theorem State.resetRegs_kv (l : List Nat) (x : Nat) : (s.resetRegs l).kv x = s.kv x := rfl
@[simp] theorem State.resetRegs_job (l : List Nat) (x : Nat) : (s.resetRegs l).job x = s.job x := rfl
@[simp] theorem State.resetRegs_xc (l : List Nat) (x : Nat) : (s.resetRegs l).xc x = s.xc x := rfl
@[simp] theorem State.resetRegs_home (l : List Nat) (x : Nat) : (s.resetRegs l).home x = s.home x := rfl
@[simp] theorem State.resetRegs_thr (l : List Nat) (x : Nat) : (s.resetRegs l).thr x = s.thr x := rfl
@[simp] theorem State.resetRegs_pt (l : List Nat) (x : Nat) : (s.resetRegs l).pt x = s.pt x := rfl
@[simp] theorem State.resetRegs_rg (l : List Nat) (x : Nat) : (s.resetRegs l).rg x = s.rg x := rfl
@[simp] theorem State.resetRegs_byte (l : List Nat) (x : Nat) : (s.resetRegs l).byte x = s.byte x := rfl
@[simp] theorem State.resetRegs_coreRegs (l : List Nat) (x : Nat) : (s.resetRegs l).coreRegs x = s.coreRegs x := rfl
@[simp] theorem State.resetRegs_stake (l : List Nat) (x : Nat) : (s.resetRegs l).stake x = s.stake x := rfl
@[simp] theorem State.resetRegs_enabled (l : List Nat) (x : Nat) : (s.resetRegs l).enabled x = s.enabled x := rfl

/-! ### resetRange -/

@[simp] theorem State.resetRange_pending (lo hi : Nat) : (s.resetRange lo hi).pending = s.pending := rfl
@[simp] theorem State.resetRange_mem (lo hi : Nat) : (s.resetRange lo hi).mem = s.mem := rfl
@[simp] theorem State.resetRange_undef (lo hi : Nat) : (s.resetRange lo hi).undef = s.undef := rfl
@[simp] theorem State.resetRange_poison (lo hi : Nat) : (s.resetRange lo hi).poison = s.poison := rfl
@[simp] theorem State.resetRange_free (lo hi : Nat) : (s.resetRange lo hi).free = s.free := rfl
@[simp] theorem State.resetRange_resp (lo hi : Nat) : (s.resetRange lo hi).resp = s.resp := rfl
@[simp] theorem State.resetRange_lk (lo hi : Nat) : (s.resetRange lo hi).lk = s.lk := rfl
@[simp] theorem State.resetRange_weave (lo hi : Nat) : (s.resetRange lo hi).weave = s.weave := rfl
@[simp] theorem State.resetRange_fuses (lo hi : Nat) : (s.resetRange lo hi).fuses = s.fuses := rfl
@[simp] theorem State.resetRange_flash (lo hi : Nat) : (s.resetRange lo hi).flash = s.flash := rfl
@[simp] theorem State.resetRange_sec (lo hi : Nat) : (s.resetRange lo hi).sec = s.sec := rfl
@[simp] theorem State.resetRange_failEng (lo hi : Nat) : (s.resetRange lo hi).failEng = s.failEng := rfl
@[simp] theorem State.resetRange_failPvu (lo hi : Nat) : (s.resetRange lo hi).failPvu = s.failPvu := rfl
@[simp] theorem State.resetRange_failTc (lo hi : Nat) : (s.resetRange lo hi).failTc = s.failTc := rfl
@[simp] theorem State.resetRange_failQuay (lo hi : Nat) : (s.resetRange lo hi).failQuay = s.failQuay := rfl
@[simp] theorem State.resetRange_failCh (lo hi : Nat) : (s.resetRange lo hi).failCh = s.failCh := rfl
@[simp] theorem State.resetRange_psq (lo hi : Nat) : (s.resetRange lo hi).psq = s.psq := rfl
@[simp] theorem State.resetRange_slots (lo hi : Nat) : (s.resetRange lo hi).slots = s.slots := rfl
@[simp] theorem State.resetRange_pvu (lo hi : Nat) : (s.resetRange lo hi).pvu = s.pvu := rfl
@[simp] theorem State.resetRange_asu (lo hi : Nat) : (s.resetRange lo hi).asu = s.asu := rfl
@[simp] theorem State.resetRange_quay (lo hi : Nat) : (s.resetRange lo hi).quay = s.quay := rfl
@[simp] theorem State.resetRange_binds (lo hi : Nat) : (s.resetRange lo hi).binds = s.binds := rfl
@[simp] theorem State.resetRange_macs (lo hi : Nat) : (s.resetRange lo hi).macs = s.macs := rfl
@[simp] theorem State.resetRange_xch (lo hi : Nat) : (s.resetRange lo hi).xch = s.xch := rfl
@[simp] theorem State.resetRange_jobs (lo hi : Nat) : (s.resetRange lo hi).jobs = s.jobs := rfl
@[simp] theorem State.resetRange_port (lo hi : Nat) : (s.resetRange lo hi).port = s.port := rfl
@[simp] theorem State.resetRange_ring (lo hi : Nat) : (s.resetRange lo hi).ring = s.ring := rfl
@[simp] theorem State.resetRange_out (lo hi : Nat) : (s.resetRange lo hi).out = s.out := rfl
@[simp] theorem State.resetRange_msix (lo hi : Nat) : (s.resetRange lo hi).msix = s.msix := rfl
@[simp] theorem State.resetRange_pba (lo hi : Nat) : (s.resetRange lo hi).pba = s.pba := rfl
@[simp] theorem State.resetRange_added (lo hi : Nat) : (s.resetRange lo hi).added = s.added := rfl
@[simp] theorem State.resetRange_kvp (lo hi : Nat) : (s.resetRange lo hi).kvp = s.kvp := rfl
@[simp] theorem State.resetRange_thread (lo hi : Nat) : (s.resetRange lo hi).thread = s.thread := rfl
@[simp] theorem State.resetRange_l1 (lo hi : Nat) : (s.resetRange lo hi).l1 = s.l1 := rfl
@[simp] theorem State.resetRange_il1 (lo hi : Nat) : (s.resetRange lo hi).il1 = s.il1 := rfl
@[simp] theorem State.resetRange_wakes (lo hi : Nat) : (s.resetRange lo hi).wakes = s.wakes := rfl
@[simp] theorem State.resetRange_time (lo hi : Nat) : (s.resetRange lo hi).time = s.time := rfl
@[simp] theorem State.resetRange_core (lo hi : Nat) : (s.resetRange lo hi).core = s.core := rfl
@[simp] theorem State.resetRange_takes (lo hi : Nat) : (s.resetRange lo hi).takes = s.takes := rfl
@[simp] theorem State.resetRange_homes (lo hi : Nat) : (s.resetRange lo hi).homes = s.homes := rfl
@[simp] theorem State.resetRange_copies (lo hi : Nat) : (s.resetRange lo hi).copies = s.copies := rfl
@[simp] theorem State.resetRange_resv (lo hi : Nat) : (s.resetRange lo hi).resv = s.resv := rfl
@[simp] theorem State.resetRange_recs (lo hi : Nat) : (s.resetRange lo hi).recs = s.recs := rfl
@[simp] theorem State.resetRange_hq (lo hi : Nat) : (s.resetRange lo hi).hq = s.hq := rfl
@[simp] theorem State.resetRange_poolK (lo hi : Nat) : (s.resetRange lo hi).poolK = s.poolK := rfl
@[simp] theorem State.resetRange_poolEra (lo hi : Nat) : (s.resetRange lo hi).poolEra = s.poolEra := rfl
@[simp] theorem State.resetRange_pci (lo hi : Nat) : (s.resetRange lo hi).pci = s.pci := rfl
@[simp] theorem State.resetRange_replay (lo hi : Nat) : (s.resetRange lo hi).replay = s.replay := rfl
@[simp] theorem State.resetRange_q (lo hi : Nat) (x : Nat) : (s.resetRange lo hi).q x = s.q x := rfl
@[simp] theorem State.resetRange_pv (lo hi : Nat) (x : Nat) : (s.resetRange lo hi).pv x = s.pv x := rfl
@[simp] theorem State.resetRange_as (lo hi : Nat) (x y : Nat) : (s.resetRange lo hi).as x y = s.as x y := rfl
@[simp] theorem State.resetRange_qu (lo hi : Nat) (x : Nat) : (s.resetRange lo hi).qu x = s.qu x := rfl
@[simp] theorem State.resetRange_slot (lo hi : Nat) (x y : Nat) : (s.resetRange lo hi).slot x y = s.slot x y := rfl
@[simp] theorem State.resetRange_hqOf (lo hi : Nat) (x : Nat) : (s.resetRange lo hi).hqOf x = s.hqOf x := rfl
@[simp] theorem State.resetRange_kv (lo hi : Nat) (x : Nat) : (s.resetRange lo hi).kv x = s.kv x := rfl
@[simp] theorem State.resetRange_job (lo hi : Nat) (x : Nat) : (s.resetRange lo hi).job x = s.job x := rfl
@[simp] theorem State.resetRange_xc (lo hi : Nat) (x : Nat) : (s.resetRange lo hi).xc x = s.xc x := rfl
@[simp] theorem State.resetRange_home (lo hi : Nat) (x : Nat) : (s.resetRange lo hi).home x = s.home x := rfl
@[simp] theorem State.resetRange_thr (lo hi : Nat) (x : Nat) : (s.resetRange lo hi).thr x = s.thr x := rfl
@[simp] theorem State.resetRange_pt (lo hi : Nat) (x : Nat) : (s.resetRange lo hi).pt x = s.pt x := rfl
@[simp] theorem State.resetRange_rg (lo hi : Nat) (x : Nat) : (s.resetRange lo hi).rg x = s.rg x := rfl
@[simp] theorem State.resetRange_byte (lo hi : Nat) (x : Nat) : (s.resetRange lo hi).byte x = s.byte x := rfl
@[simp] theorem State.resetRange_coreRegs (lo hi : Nat) (x : Nat) : (s.resetRange lo hi).coreRegs x = s.coreRegs x := rfl
@[simp] theorem State.resetRange_stake (lo hi : Nat) (x : Nat) : (s.resetRange lo hi).stake x = s.stake x := rfl
@[simp] theorem State.resetRange_enabled (lo hi : Nat) (x : Nat) : (s.resetRange lo hi).enabled x = s.enabled x := rfl

/-! ### setByte -/

@[simp] theorem State.setByte_pending (a : Nat) (v : Byte) : (s.setByte a v).pending = s.pending := rfl
@[simp] theorem State.setByte_regs (a : Nat) (v : Byte) : (s.setByte a v).regs = s.regs := rfl
@[simp] theorem State.setByte_poison (a : Nat) (v : Byte) : (s.setByte a v).poison = s.poison := rfl
@[simp] theorem State.setByte_free (a : Nat) (v : Byte) : (s.setByte a v).free = s.free := rfl
@[simp] theorem State.setByte_resp (a : Nat) (v : Byte) : (s.setByte a v).resp = s.resp := rfl
@[simp] theorem State.setByte_lk (a : Nat) (v : Byte) : (s.setByte a v).lk = s.lk := rfl
@[simp] theorem State.setByte_weave (a : Nat) (v : Byte) : (s.setByte a v).weave = s.weave := rfl
@[simp] theorem State.setByte_fuses (a : Nat) (v : Byte) : (s.setByte a v).fuses = s.fuses := rfl
@[simp] theorem State.setByte_flash (a : Nat) (v : Byte) : (s.setByte a v).flash = s.flash := rfl
@[simp] theorem State.setByte_sec (a : Nat) (v : Byte) : (s.setByte a v).sec = s.sec := rfl
@[simp] theorem State.setByte_failEng (a : Nat) (v : Byte) : (s.setByte a v).failEng = s.failEng := rfl
@[simp] theorem State.setByte_failPvu (a : Nat) (v : Byte) : (s.setByte a v).failPvu = s.failPvu := rfl
@[simp] theorem State.setByte_failTc (a : Nat) (v : Byte) : (s.setByte a v).failTc = s.failTc := rfl
@[simp] theorem State.setByte_failQuay (a : Nat) (v : Byte) : (s.setByte a v).failQuay = s.failQuay := rfl
@[simp] theorem State.setByte_failCh (a : Nat) (v : Byte) : (s.setByte a v).failCh = s.failCh := rfl
@[simp] theorem State.setByte_psq (a : Nat) (v : Byte) : (s.setByte a v).psq = s.psq := rfl
@[simp] theorem State.setByte_slots (a : Nat) (v : Byte) : (s.setByte a v).slots = s.slots := rfl
@[simp] theorem State.setByte_pvu (a : Nat) (v : Byte) : (s.setByte a v).pvu = s.pvu := rfl
@[simp] theorem State.setByte_asu (a : Nat) (v : Byte) : (s.setByte a v).asu = s.asu := rfl
@[simp] theorem State.setByte_quay (a : Nat) (v : Byte) : (s.setByte a v).quay = s.quay := rfl
@[simp] theorem State.setByte_binds (a : Nat) (v : Byte) : (s.setByte a v).binds = s.binds := rfl
@[simp] theorem State.setByte_macs (a : Nat) (v : Byte) : (s.setByte a v).macs = s.macs := rfl
@[simp] theorem State.setByte_xch (a : Nat) (v : Byte) : (s.setByte a v).xch = s.xch := rfl
@[simp] theorem State.setByte_jobs (a : Nat) (v : Byte) : (s.setByte a v).jobs = s.jobs := rfl
@[simp] theorem State.setByte_port (a : Nat) (v : Byte) : (s.setByte a v).port = s.port := rfl
@[simp] theorem State.setByte_ring (a : Nat) (v : Byte) : (s.setByte a v).ring = s.ring := rfl
@[simp] theorem State.setByte_out (a : Nat) (v : Byte) : (s.setByte a v).out = s.out := rfl
@[simp] theorem State.setByte_msix (a : Nat) (v : Byte) : (s.setByte a v).msix = s.msix := rfl
@[simp] theorem State.setByte_pba (a : Nat) (v : Byte) : (s.setByte a v).pba = s.pba := rfl
@[simp] theorem State.setByte_added (a : Nat) (v : Byte) : (s.setByte a v).added = s.added := rfl
@[simp] theorem State.setByte_kvp (a : Nat) (v : Byte) : (s.setByte a v).kvp = s.kvp := rfl
@[simp] theorem State.setByte_thread (a : Nat) (v : Byte) : (s.setByte a v).thread = s.thread := rfl
@[simp] theorem State.setByte_l1 (a : Nat) (v : Byte) : (s.setByte a v).l1 = s.l1 := rfl
@[simp] theorem State.setByte_il1 (a : Nat) (v : Byte) : (s.setByte a v).il1 = s.il1 := rfl
@[simp] theorem State.setByte_wakes (a : Nat) (v : Byte) : (s.setByte a v).wakes = s.wakes := rfl
@[simp] theorem State.setByte_time (a : Nat) (v : Byte) : (s.setByte a v).time = s.time := rfl
@[simp] theorem State.setByte_core (a : Nat) (v : Byte) : (s.setByte a v).core = s.core := rfl
@[simp] theorem State.setByte_takes (a : Nat) (v : Byte) : (s.setByte a v).takes = s.takes := rfl
@[simp] theorem State.setByte_homes (a : Nat) (v : Byte) : (s.setByte a v).homes = s.homes := rfl
@[simp] theorem State.setByte_copies (a : Nat) (v : Byte) : (s.setByte a v).copies = s.copies := rfl
@[simp] theorem State.setByte_resv (a : Nat) (v : Byte) : (s.setByte a v).resv = s.resv := rfl
@[simp] theorem State.setByte_recs (a : Nat) (v : Byte) : (s.setByte a v).recs = s.recs := rfl
@[simp] theorem State.setByte_hq (a : Nat) (v : Byte) : (s.setByte a v).hq = s.hq := rfl
@[simp] theorem State.setByte_poolK (a : Nat) (v : Byte) : (s.setByte a v).poolK = s.poolK := rfl
@[simp] theorem State.setByte_poolEra (a : Nat) (v : Byte) : (s.setByte a v).poolEra = s.poolEra := rfl
@[simp] theorem State.setByte_pci (a : Nat) (v : Byte) : (s.setByte a v).pci = s.pci := rfl
@[simp] theorem State.setByte_replay (a : Nat) (v : Byte) : (s.setByte a v).replay = s.replay := rfl
@[simp] theorem State.setByte_reg (a : Nat) (v : Byte) (x : Nat) : (s.setByte a v).reg x = s.reg x := rfl
@[simp] theorem State.setByte_fld (a : Nat) (v : Byte) (x : Nat) (g : Fld) : (s.setByte a v).fld x g = s.fld x g := rfl
@[simp] theorem State.setByte_flag (a : Nat) (v : Byte) (x : Nat) (g : Fld) : (s.setByte a v).flag x g = s.flag x g := rfl
@[simp] theorem State.setByte_fldBit (a : Nat) (v : Byte) (x : Nat) (g : Fld) (j : Nat) : (s.setByte a v).fldBit x g j = s.fldBit x g j := rfl
@[simp] theorem State.setByte_q (a : Nat) (v : Byte) (x : Nat) : (s.setByte a v).q x = s.q x := rfl
@[simp] theorem State.setByte_pv (a : Nat) (v : Byte) (x : Nat) : (s.setByte a v).pv x = s.pv x := rfl
@[simp] theorem State.setByte_as (a : Nat) (v : Byte) (x y : Nat) : (s.setByte a v).as x y = s.as x y := rfl
@[simp] theorem State.setByte_qu (a : Nat) (v : Byte) (x : Nat) : (s.setByte a v).qu x = s.qu x := rfl
@[simp] theorem State.setByte_slot (a : Nat) (v : Byte) (x y : Nat) : (s.setByte a v).slot x y = s.slot x y := rfl
@[simp] theorem State.setByte_hqOf (a : Nat) (v : Byte) (x : Nat) : (s.setByte a v).hqOf x = s.hqOf x := rfl
@[simp] theorem State.setByte_kv (a : Nat) (v : Byte) (x : Nat) : (s.setByte a v).kv x = s.kv x := rfl
@[simp] theorem State.setByte_job (a : Nat) (v : Byte) (x : Nat) : (s.setByte a v).job x = s.job x := rfl
@[simp] theorem State.setByte_xc (a : Nat) (v : Byte) (x : Nat) : (s.setByte a v).xc x = s.xc x := rfl
@[simp] theorem State.setByte_home (a : Nat) (v : Byte) (x : Nat) : (s.setByte a v).home x = s.home x := rfl
@[simp] theorem State.setByte_thr (a : Nat) (v : Byte) (x : Nat) : (s.setByte a v).thr x = s.thr x := rfl
@[simp] theorem State.setByte_pt (a : Nat) (v : Byte) (x : Nat) : (s.setByte a v).pt x = s.pt x := rfl
@[simp] theorem State.setByte_rg (a : Nat) (v : Byte) (x : Nat) : (s.setByte a v).rg x = s.rg x := rfl
@[simp] theorem State.setByte_coreRegs (a : Nat) (v : Byte) (x : Nat) : (s.setByte a v).coreRegs x = s.coreRegs x := rfl
@[simp] theorem State.setByte_stake (a : Nat) (v : Byte) (x : Nat) : (s.setByte a v).stake x = s.stake x := rfl
@[simp] theorem State.setByte_enabled (a : Nat) (v : Byte) (x : Nat) : (s.setByte a v).enabled x = s.enabled x := rfl

/-! ### setBytes -/

@[simp] theorem State.setBytes_pending (a : Nat) (l : List Byte) : (s.setBytes a l).pending = s.pending := by
  induction l generalizing s a with
  | nil => rfl
  | cons b t ih => exact ih _ _
@[simp] theorem State.setBytes_regs (a : Nat) (l : List Byte) : (s.setBytes a l).regs = s.regs := by
  induction l generalizing s a with
  | nil => rfl
  | cons b t ih => exact ih _ _
@[simp] theorem State.setBytes_poison (a : Nat) (l : List Byte) : (s.setBytes a l).poison = s.poison := by
  induction l generalizing s a with
  | nil => rfl
  | cons b t ih => exact ih _ _
@[simp] theorem State.setBytes_free (a : Nat) (l : List Byte) : (s.setBytes a l).free = s.free := by
  induction l generalizing s a with
  | nil => rfl
  | cons b t ih => exact ih _ _
@[simp] theorem State.setBytes_resp (a : Nat) (l : List Byte) : (s.setBytes a l).resp = s.resp := by
  induction l generalizing s a with
  | nil => rfl
  | cons b t ih => exact ih _ _
@[simp] theorem State.setBytes_lk (a : Nat) (l : List Byte) : (s.setBytes a l).lk = s.lk := by
  induction l generalizing s a with
  | nil => rfl
  | cons b t ih => exact ih _ _
@[simp] theorem State.setBytes_weave (a : Nat) (l : List Byte) : (s.setBytes a l).weave = s.weave := by
  induction l generalizing s a with
  | nil => rfl
  | cons b t ih => exact ih _ _
@[simp] theorem State.setBytes_fuses (a : Nat) (l : List Byte) : (s.setBytes a l).fuses = s.fuses := by
  induction l generalizing s a with
  | nil => rfl
  | cons b t ih => exact ih _ _
@[simp] theorem State.setBytes_flash (a : Nat) (l : List Byte) : (s.setBytes a l).flash = s.flash := by
  induction l generalizing s a with
  | nil => rfl
  | cons b t ih => exact ih _ _
@[simp] theorem State.setBytes_sec (a : Nat) (l : List Byte) : (s.setBytes a l).sec = s.sec := by
  induction l generalizing s a with
  | nil => rfl
  | cons b t ih => exact ih _ _
@[simp] theorem State.setBytes_failEng (a : Nat) (l : List Byte) : (s.setBytes a l).failEng = s.failEng := by
  induction l generalizing s a with
  | nil => rfl
  | cons b t ih => exact ih _ _
@[simp] theorem State.setBytes_failPvu (a : Nat) (l : List Byte) : (s.setBytes a l).failPvu = s.failPvu := by
  induction l generalizing s a with
  | nil => rfl
  | cons b t ih => exact ih _ _
@[simp] theorem State.setBytes_failTc (a : Nat) (l : List Byte) : (s.setBytes a l).failTc = s.failTc := by
  induction l generalizing s a with
  | nil => rfl
  | cons b t ih => exact ih _ _
@[simp] theorem State.setBytes_failQuay (a : Nat) (l : List Byte) : (s.setBytes a l).failQuay = s.failQuay := by
  induction l generalizing s a with
  | nil => rfl
  | cons b t ih => exact ih _ _
@[simp] theorem State.setBytes_failCh (a : Nat) (l : List Byte) : (s.setBytes a l).failCh = s.failCh := by
  induction l generalizing s a with
  | nil => rfl
  | cons b t ih => exact ih _ _
@[simp] theorem State.setBytes_psq (a : Nat) (l : List Byte) : (s.setBytes a l).psq = s.psq := by
  induction l generalizing s a with
  | nil => rfl
  | cons b t ih => exact ih _ _
@[simp] theorem State.setBytes_slots (a : Nat) (l : List Byte) : (s.setBytes a l).slots = s.slots := by
  induction l generalizing s a with
  | nil => rfl
  | cons b t ih => exact ih _ _
@[simp] theorem State.setBytes_pvu (a : Nat) (l : List Byte) : (s.setBytes a l).pvu = s.pvu := by
  induction l generalizing s a with
  | nil => rfl
  | cons b t ih => exact ih _ _
@[simp] theorem State.setBytes_asu (a : Nat) (l : List Byte) : (s.setBytes a l).asu = s.asu := by
  induction l generalizing s a with
  | nil => rfl
  | cons b t ih => exact ih _ _
@[simp] theorem State.setBytes_quay (a : Nat) (l : List Byte) : (s.setBytes a l).quay = s.quay := by
  induction l generalizing s a with
  | nil => rfl
  | cons b t ih => exact ih _ _
@[simp] theorem State.setBytes_binds (a : Nat) (l : List Byte) : (s.setBytes a l).binds = s.binds := by
  induction l generalizing s a with
  | nil => rfl
  | cons b t ih => exact ih _ _
@[simp] theorem State.setBytes_macs (a : Nat) (l : List Byte) : (s.setBytes a l).macs = s.macs := by
  induction l generalizing s a with
  | nil => rfl
  | cons b t ih => exact ih _ _
@[simp] theorem State.setBytes_xch (a : Nat) (l : List Byte) : (s.setBytes a l).xch = s.xch := by
  induction l generalizing s a with
  | nil => rfl
  | cons b t ih => exact ih _ _
@[simp] theorem State.setBytes_jobs (a : Nat) (l : List Byte) : (s.setBytes a l).jobs = s.jobs := by
  induction l generalizing s a with
  | nil => rfl
  | cons b t ih => exact ih _ _
@[simp] theorem State.setBytes_port (a : Nat) (l : List Byte) : (s.setBytes a l).port = s.port := by
  induction l generalizing s a with
  | nil => rfl
  | cons b t ih => exact ih _ _
@[simp] theorem State.setBytes_ring (a : Nat) (l : List Byte) : (s.setBytes a l).ring = s.ring := by
  induction l generalizing s a with
  | nil => rfl
  | cons b t ih => exact ih _ _
@[simp] theorem State.setBytes_out (a : Nat) (l : List Byte) : (s.setBytes a l).out = s.out := by
  induction l generalizing s a with
  | nil => rfl
  | cons b t ih => exact ih _ _
@[simp] theorem State.setBytes_msix (a : Nat) (l : List Byte) : (s.setBytes a l).msix = s.msix := by
  induction l generalizing s a with
  | nil => rfl
  | cons b t ih => exact ih _ _
@[simp] theorem State.setBytes_pba (a : Nat) (l : List Byte) : (s.setBytes a l).pba = s.pba := by
  induction l generalizing s a with
  | nil => rfl
  | cons b t ih => exact ih _ _
@[simp] theorem State.setBytes_added (a : Nat) (l : List Byte) : (s.setBytes a l).added = s.added := by
  induction l generalizing s a with
  | nil => rfl
  | cons b t ih => exact ih _ _
@[simp] theorem State.setBytes_kvp (a : Nat) (l : List Byte) : (s.setBytes a l).kvp = s.kvp := by
  induction l generalizing s a with
  | nil => rfl
  | cons b t ih => exact ih _ _
@[simp] theorem State.setBytes_thread (a : Nat) (l : List Byte) : (s.setBytes a l).thread = s.thread := by
  induction l generalizing s a with
  | nil => rfl
  | cons b t ih => exact ih _ _
@[simp] theorem State.setBytes_l1 (a : Nat) (l : List Byte) : (s.setBytes a l).l1 = s.l1 := by
  induction l generalizing s a with
  | nil => rfl
  | cons b t ih => exact ih _ _
@[simp] theorem State.setBytes_il1 (a : Nat) (l : List Byte) : (s.setBytes a l).il1 = s.il1 := by
  induction l generalizing s a with
  | nil => rfl
  | cons b t ih => exact ih _ _
@[simp] theorem State.setBytes_wakes (a : Nat) (l : List Byte) : (s.setBytes a l).wakes = s.wakes := by
  induction l generalizing s a with
  | nil => rfl
  | cons b t ih => exact ih _ _
@[simp] theorem State.setBytes_time (a : Nat) (l : List Byte) : (s.setBytes a l).time = s.time := by
  induction l generalizing s a with
  | nil => rfl
  | cons b t ih => exact ih _ _
@[simp] theorem State.setBytes_core (a : Nat) (l : List Byte) : (s.setBytes a l).core = s.core := by
  induction l generalizing s a with
  | nil => rfl
  | cons b t ih => exact ih _ _
@[simp] theorem State.setBytes_takes (a : Nat) (l : List Byte) : (s.setBytes a l).takes = s.takes := by
  induction l generalizing s a with
  | nil => rfl
  | cons b t ih => exact ih _ _
@[simp] theorem State.setBytes_homes (a : Nat) (l : List Byte) : (s.setBytes a l).homes = s.homes := by
  induction l generalizing s a with
  | nil => rfl
  | cons b t ih => exact ih _ _
@[simp] theorem State.setBytes_copies (a : Nat) (l : List Byte) : (s.setBytes a l).copies = s.copies := by
  induction l generalizing s a with
  | nil => rfl
  | cons b t ih => exact ih _ _
@[simp] theorem State.setBytes_resv (a : Nat) (l : List Byte) : (s.setBytes a l).resv = s.resv := by
  induction l generalizing s a with
  | nil => rfl
  | cons b t ih => exact ih _ _
@[simp] theorem State.setBytes_recs (a : Nat) (l : List Byte) : (s.setBytes a l).recs = s.recs := by
  induction l generalizing s a with
  | nil => rfl
  | cons b t ih => exact ih _ _
@[simp] theorem State.setBytes_hq (a : Nat) (l : List Byte) : (s.setBytes a l).hq = s.hq := by
  induction l generalizing s a with
  | nil => rfl
  | cons b t ih => exact ih _ _
@[simp] theorem State.setBytes_poolK (a : Nat) (l : List Byte) : (s.setBytes a l).poolK = s.poolK := by
  induction l generalizing s a with
  | nil => rfl
  | cons b t ih => exact ih _ _
@[simp] theorem State.setBytes_poolEra (a : Nat) (l : List Byte) : (s.setBytes a l).poolEra = s.poolEra := by
  induction l generalizing s a with
  | nil => rfl
  | cons b t ih => exact ih _ _
@[simp] theorem State.setBytes_pci (a : Nat) (l : List Byte) : (s.setBytes a l).pci = s.pci := by
  induction l generalizing s a with
  | nil => rfl
  | cons b t ih => exact ih _ _
@[simp] theorem State.setBytes_replay (a : Nat) (l : List Byte) : (s.setBytes a l).replay = s.replay := by
  induction l generalizing s a with
  | nil => rfl
  | cons b t ih => exact ih _ _
@[simp] theorem State.setBytes_reg (a : Nat) (l : List Byte) (x : Nat) : (s.setBytes a l).reg x = s.reg x := by simp [State.reg]
@[simp] theorem State.setBytes_fld (a : Nat) (l : List Byte) (x : Nat) (g : Fld) : (s.setBytes a l).fld x g = s.fld x g := by simp [State.fld]
@[simp] theorem State.setBytes_flag (a : Nat) (l : List Byte) (x : Nat) (g : Fld) : (s.setBytes a l).flag x g = s.flag x g := by simp [State.flag]
@[simp] theorem State.setBytes_fldBit (a : Nat) (l : List Byte) (x : Nat) (g : Fld) (j : Nat) : (s.setBytes a l).fldBit x g j = s.fldBit x g j := by simp [State.fldBit]
@[simp] theorem State.setBytes_q (a : Nat) (l : List Byte) (x : Nat) : (s.setBytes a l).q x = s.q x := by simp [State.q]
@[simp] theorem State.setBytes_pv (a : Nat) (l : List Byte) (x : Nat) : (s.setBytes a l).pv x = s.pv x := by simp [State.pv]
@[simp] theorem State.setBytes_as (a : Nat) (l : List Byte) (x y : Nat) : (s.setBytes a l).as x y = s.as x y := by simp [State.as]
@[simp] theorem State.setBytes_qu (a : Nat) (l : List Byte) (x : Nat) : (s.setBytes a l).qu x = s.qu x := by simp [State.qu]
@[simp] theorem State.setBytes_slot (a : Nat) (l : List Byte) (x y : Nat) : (s.setBytes a l).slot x y = s.slot x y := by simp [State.slot]
@[simp] theorem State.setBytes_hqOf (a : Nat) (l : List Byte) (x : Nat) : (s.setBytes a l).hqOf x = s.hqOf x := by simp [State.hqOf]
@[simp] theorem State.setBytes_kv (a : Nat) (l : List Byte) (x : Nat) : (s.setBytes a l).kv x = s.kv x := by simp [State.kv]
@[simp] theorem State.setBytes_job (a : Nat) (l : List Byte) (x : Nat) : (s.setBytes a l).job x = s.job x := by simp [State.job]
@[simp] theorem State.setBytes_xc (a : Nat) (l : List Byte) (x : Nat) : (s.setBytes a l).xc x = s.xc x := by simp [State.xc]
@[simp] theorem State.setBytes_home (a : Nat) (l : List Byte) (x : Nat) : (s.setBytes a l).home x = s.home x := by simp [State.home]
@[simp] theorem State.setBytes_thr (a : Nat) (l : List Byte) (x : Nat) : (s.setBytes a l).thr x = s.thr x := by simp [State.thr]
@[simp] theorem State.setBytes_pt (a : Nat) (l : List Byte) (x : Nat) : (s.setBytes a l).pt x = s.pt x := by simp [State.pt]
@[simp] theorem State.setBytes_rg (a : Nat) (l : List Byte) (x : Nat) : (s.setBytes a l).rg x = s.rg x := by simp [State.rg]
@[simp] theorem State.setBytes_coreRegs (a : Nat) (l : List Byte) (x : Nat) : (s.setBytes a l).coreRegs x = s.coreRegs x := by simp [State.coreRegs]
@[simp] theorem State.setBytes_stake (a : Nat) (l : List Byte) (x : Nat) : (s.setBytes a l).stake x = s.stake x := by simp [State.stake]
@[simp] theorem State.setBytes_enabled (a : Nat) (l : List Byte) (x : Nat) : (s.setBytes a l).enabled x = s.enabled x := by simp [State.enabled]

/-! ### lose -/

@[simp] theorem State.lose_pending (lo hi : Nat) : (s.lose lo hi).pending = s.pending := rfl
@[simp] theorem State.lose_regs (lo hi : Nat) : (s.lose lo hi).regs = s.regs := rfl
@[simp] theorem State.lose_resp (lo hi : Nat) : (s.lose lo hi).resp = s.resp := rfl
@[simp] theorem State.lose_lk (lo hi : Nat) : (s.lose lo hi).lk = s.lk := rfl
@[simp] theorem State.lose_weave (lo hi : Nat) : (s.lose lo hi).weave = s.weave := rfl
@[simp] theorem State.lose_fuses (lo hi : Nat) : (s.lose lo hi).fuses = s.fuses := rfl
@[simp] theorem State.lose_flash (lo hi : Nat) : (s.lose lo hi).flash = s.flash := rfl
@[simp] theorem State.lose_sec (lo hi : Nat) : (s.lose lo hi).sec = s.sec := rfl
@[simp] theorem State.lose_failEng (lo hi : Nat) : (s.lose lo hi).failEng = s.failEng := rfl
@[simp] theorem State.lose_failPvu (lo hi : Nat) : (s.lose lo hi).failPvu = s.failPvu := rfl
@[simp] theorem State.lose_failTc (lo hi : Nat) : (s.lose lo hi).failTc = s.failTc := rfl
@[simp] theorem State.lose_failQuay (lo hi : Nat) : (s.lose lo hi).failQuay = s.failQuay := rfl
@[simp] theorem State.lose_failCh (lo hi : Nat) : (s.lose lo hi).failCh = s.failCh := rfl
@[simp] theorem State.lose_psq (lo hi : Nat) : (s.lose lo hi).psq = s.psq := rfl
@[simp] theorem State.lose_slots (lo hi : Nat) : (s.lose lo hi).slots = s.slots := rfl
@[simp] theorem State.lose_pvu (lo hi : Nat) : (s.lose lo hi).pvu = s.pvu := rfl
@[simp] theorem State.lose_asu (lo hi : Nat) : (s.lose lo hi).asu = s.asu := rfl
@[simp] theorem State.lose_quay (lo hi : Nat) : (s.lose lo hi).quay = s.quay := rfl
@[simp] theorem State.lose_binds (lo hi : Nat) : (s.lose lo hi).binds = s.binds := rfl
@[simp] theorem State.lose_macs (lo hi : Nat) : (s.lose lo hi).macs = s.macs := rfl
@[simp] theorem State.lose_xch (lo hi : Nat) : (s.lose lo hi).xch = s.xch := rfl
@[simp] theorem State.lose_jobs (lo hi : Nat) : (s.lose lo hi).jobs = s.jobs := rfl
@[simp] theorem State.lose_port (lo hi : Nat) : (s.lose lo hi).port = s.port := rfl
@[simp] theorem State.lose_ring (lo hi : Nat) : (s.lose lo hi).ring = s.ring := rfl
@[simp] theorem State.lose_out (lo hi : Nat) : (s.lose lo hi).out = s.out := rfl
@[simp] theorem State.lose_msix (lo hi : Nat) : (s.lose lo hi).msix = s.msix := rfl
@[simp] theorem State.lose_pba (lo hi : Nat) : (s.lose lo hi).pba = s.pba := rfl
@[simp] theorem State.lose_added (lo hi : Nat) : (s.lose lo hi).added = s.added := rfl
@[simp] theorem State.lose_kvp (lo hi : Nat) : (s.lose lo hi).kvp = s.kvp := rfl
@[simp] theorem State.lose_thread (lo hi : Nat) : (s.lose lo hi).thread = s.thread := rfl
@[simp] theorem State.lose_l1 (lo hi : Nat) : (s.lose lo hi).l1 = s.l1 := rfl
@[simp] theorem State.lose_il1 (lo hi : Nat) : (s.lose lo hi).il1 = s.il1 := rfl
@[simp] theorem State.lose_wakes (lo hi : Nat) : (s.lose lo hi).wakes = s.wakes := rfl
@[simp] theorem State.lose_time (lo hi : Nat) : (s.lose lo hi).time = s.time := rfl
@[simp] theorem State.lose_core (lo hi : Nat) : (s.lose lo hi).core = s.core := rfl
@[simp] theorem State.lose_takes (lo hi : Nat) : (s.lose lo hi).takes = s.takes := rfl
@[simp] theorem State.lose_homes (lo hi : Nat) : (s.lose lo hi).homes = s.homes := rfl
@[simp] theorem State.lose_copies (lo hi : Nat) : (s.lose lo hi).copies = s.copies := rfl
@[simp] theorem State.lose_resv (lo hi : Nat) : (s.lose lo hi).resv = s.resv := rfl
@[simp] theorem State.lose_recs (lo hi : Nat) : (s.lose lo hi).recs = s.recs := rfl
@[simp] theorem State.lose_hq (lo hi : Nat) : (s.lose lo hi).hq = s.hq := rfl
@[simp] theorem State.lose_poolK (lo hi : Nat) : (s.lose lo hi).poolK = s.poolK := rfl
@[simp] theorem State.lose_poolEra (lo hi : Nat) : (s.lose lo hi).poolEra = s.poolEra := rfl
@[simp] theorem State.lose_pci (lo hi : Nat) : (s.lose lo hi).pci = s.pci := rfl
@[simp] theorem State.lose_replay (lo hi : Nat) : (s.lose lo hi).replay = s.replay := rfl
@[simp] theorem State.lose_reg (lo hi : Nat) (x : Nat) : (s.lose lo hi).reg x = s.reg x := rfl
@[simp] theorem State.lose_fld (lo hi : Nat) (x : Nat) (g : Fld) : (s.lose lo hi).fld x g = s.fld x g := rfl
@[simp] theorem State.lose_flag (lo hi : Nat) (x : Nat) (g : Fld) : (s.lose lo hi).flag x g = s.flag x g := rfl
@[simp] theorem State.lose_fldBit (lo hi : Nat) (x : Nat) (g : Fld) (j : Nat) : (s.lose lo hi).fldBit x g j = s.fldBit x g j := rfl
@[simp] theorem State.lose_q (lo hi : Nat) (x : Nat) : (s.lose lo hi).q x = s.q x := rfl
@[simp] theorem State.lose_pv (lo hi : Nat) (x : Nat) : (s.lose lo hi).pv x = s.pv x := rfl
@[simp] theorem State.lose_as (lo hi : Nat) (x y : Nat) : (s.lose lo hi).as x y = s.as x y := rfl
@[simp] theorem State.lose_qu (lo hi : Nat) (x : Nat) : (s.lose lo hi).qu x = s.qu x := rfl
@[simp] theorem State.lose_slot (lo hi : Nat) (x y : Nat) : (s.lose lo hi).slot x y = s.slot x y := rfl
@[simp] theorem State.lose_hqOf (lo hi : Nat) (x : Nat) : (s.lose lo hi).hqOf x = s.hqOf x := rfl
@[simp] theorem State.lose_kv (lo hi : Nat) (x : Nat) : (s.lose lo hi).kv x = s.kv x := rfl
@[simp] theorem State.lose_job (lo hi : Nat) (x : Nat) : (s.lose lo hi).job x = s.job x := rfl
@[simp] theorem State.lose_xc (lo hi : Nat) (x : Nat) : (s.lose lo hi).xc x = s.xc x := rfl
@[simp] theorem State.lose_home (lo hi : Nat) (x : Nat) : (s.lose lo hi).home x = s.home x := rfl
@[simp] theorem State.lose_thr (lo hi : Nat) (x : Nat) : (s.lose lo hi).thr x = s.thr x := rfl
@[simp] theorem State.lose_pt (lo hi : Nat) (x : Nat) : (s.lose lo hi).pt x = s.pt x := rfl
@[simp] theorem State.lose_rg (lo hi : Nat) (x : Nat) : (s.lose lo hi).rg x = s.rg x := rfl
@[simp] theorem State.lose_coreRegs (lo hi : Nat) (x : Nat) : (s.lose lo hi).coreRegs x = s.coreRegs x := rfl
@[simp] theorem State.lose_stake (lo hi : Nat) (x : Nat) : (s.lose lo hi).stake x = s.stake x := rfl
@[simp] theorem State.lose_enabled (lo hi : Nat) (x : Nat) : (s.lose lo hi).enabled x = s.enabled x := rfl

/-! ### cleanse -/

@[simp] theorem State.cleanse_pending (a n : Nat) : (s.cleanse a n).pending = s.pending := rfl
@[simp] theorem State.cleanse_regs (a n : Nat) : (s.cleanse a n).regs = s.regs := rfl
@[simp] theorem State.cleanse_mem (a n : Nat) : (s.cleanse a n).mem = s.mem := rfl
@[simp] theorem State.cleanse_undef (a n : Nat) : (s.cleanse a n).undef = s.undef := rfl
@[simp] theorem State.cleanse_free (a n : Nat) : (s.cleanse a n).free = s.free := rfl
@[simp] theorem State.cleanse_resp (a n : Nat) : (s.cleanse a n).resp = s.resp := rfl
@[simp] theorem State.cleanse_lk (a n : Nat) : (s.cleanse a n).lk = s.lk := rfl
@[simp] theorem State.cleanse_weave (a n : Nat) : (s.cleanse a n).weave = s.weave := rfl
@[simp] theorem State.cleanse_fuses (a n : Nat) : (s.cleanse a n).fuses = s.fuses := rfl
@[simp] theorem State.cleanse_flash (a n : Nat) : (s.cleanse a n).flash = s.flash := rfl
@[simp] theorem State.cleanse_sec (a n : Nat) : (s.cleanse a n).sec = s.sec := rfl
@[simp] theorem State.cleanse_failEng (a n : Nat) : (s.cleanse a n).failEng = s.failEng := rfl
@[simp] theorem State.cleanse_failPvu (a n : Nat) : (s.cleanse a n).failPvu = s.failPvu := rfl
@[simp] theorem State.cleanse_failTc (a n : Nat) : (s.cleanse a n).failTc = s.failTc := rfl
@[simp] theorem State.cleanse_failQuay (a n : Nat) : (s.cleanse a n).failQuay = s.failQuay := rfl
@[simp] theorem State.cleanse_failCh (a n : Nat) : (s.cleanse a n).failCh = s.failCh := rfl
@[simp] theorem State.cleanse_psq (a n : Nat) : (s.cleanse a n).psq = s.psq := rfl
@[simp] theorem State.cleanse_slots (a n : Nat) : (s.cleanse a n).slots = s.slots := rfl
@[simp] theorem State.cleanse_pvu (a n : Nat) : (s.cleanse a n).pvu = s.pvu := rfl
@[simp] theorem State.cleanse_asu (a n : Nat) : (s.cleanse a n).asu = s.asu := rfl
@[simp] theorem State.cleanse_quay (a n : Nat) : (s.cleanse a n).quay = s.quay := rfl
@[simp] theorem State.cleanse_binds (a n : Nat) : (s.cleanse a n).binds = s.binds := rfl
@[simp] theorem State.cleanse_macs (a n : Nat) : (s.cleanse a n).macs = s.macs := rfl
@[simp] theorem State.cleanse_xch (a n : Nat) : (s.cleanse a n).xch = s.xch := rfl
@[simp] theorem State.cleanse_jobs (a n : Nat) : (s.cleanse a n).jobs = s.jobs := rfl
@[simp] theorem State.cleanse_port (a n : Nat) : (s.cleanse a n).port = s.port := rfl
@[simp] theorem State.cleanse_ring (a n : Nat) : (s.cleanse a n).ring = s.ring := rfl
@[simp] theorem State.cleanse_out (a n : Nat) : (s.cleanse a n).out = s.out := rfl
@[simp] theorem State.cleanse_msix (a n : Nat) : (s.cleanse a n).msix = s.msix := rfl
@[simp] theorem State.cleanse_pba (a n : Nat) : (s.cleanse a n).pba = s.pba := rfl
@[simp] theorem State.cleanse_added (a n : Nat) : (s.cleanse a n).added = s.added := rfl
@[simp] theorem State.cleanse_kvp (a n : Nat) : (s.cleanse a n).kvp = s.kvp := rfl
@[simp] theorem State.cleanse_thread (a n : Nat) : (s.cleanse a n).thread = s.thread := rfl
@[simp] theorem State.cleanse_l1 (a n : Nat) : (s.cleanse a n).l1 = s.l1 := rfl
@[simp] theorem State.cleanse_il1 (a n : Nat) : (s.cleanse a n).il1 = s.il1 := rfl
@[simp] theorem State.cleanse_wakes (a n : Nat) : (s.cleanse a n).wakes = s.wakes := rfl
@[simp] theorem State.cleanse_time (a n : Nat) : (s.cleanse a n).time = s.time := rfl
@[simp] theorem State.cleanse_core (a n : Nat) : (s.cleanse a n).core = s.core := rfl
@[simp] theorem State.cleanse_takes (a n : Nat) : (s.cleanse a n).takes = s.takes := rfl
@[simp] theorem State.cleanse_homes (a n : Nat) : (s.cleanse a n).homes = s.homes := rfl
@[simp] theorem State.cleanse_copies (a n : Nat) : (s.cleanse a n).copies = s.copies := rfl
@[simp] theorem State.cleanse_resv (a n : Nat) : (s.cleanse a n).resv = s.resv := rfl
@[simp] theorem State.cleanse_recs (a n : Nat) : (s.cleanse a n).recs = s.recs := rfl
@[simp] theorem State.cleanse_hq (a n : Nat) : (s.cleanse a n).hq = s.hq := rfl
@[simp] theorem State.cleanse_poolK (a n : Nat) : (s.cleanse a n).poolK = s.poolK := rfl
@[simp] theorem State.cleanse_poolEra (a n : Nat) : (s.cleanse a n).poolEra = s.poolEra := rfl
@[simp] theorem State.cleanse_pci (a n : Nat) : (s.cleanse a n).pci = s.pci := rfl
@[simp] theorem State.cleanse_replay (a n : Nat) : (s.cleanse a n).replay = s.replay := rfl
@[simp] theorem State.cleanse_reg (a n : Nat) (x : Nat) : (s.cleanse a n).reg x = s.reg x := rfl
@[simp] theorem State.cleanse_fld (a n : Nat) (x : Nat) (g : Fld) : (s.cleanse a n).fld x g = s.fld x g := rfl
@[simp] theorem State.cleanse_flag (a n : Nat) (x : Nat) (g : Fld) : (s.cleanse a n).flag x g = s.flag x g := rfl
@[simp] theorem State.cleanse_fldBit (a n : Nat) (x : Nat) (g : Fld) (j : Nat) : (s.cleanse a n).fldBit x g j = s.fldBit x g j := rfl
@[simp] theorem State.cleanse_q (a n : Nat) (x : Nat) : (s.cleanse a n).q x = s.q x := rfl
@[simp] theorem State.cleanse_pv (a n : Nat) (x : Nat) : (s.cleanse a n).pv x = s.pv x := rfl
@[simp] theorem State.cleanse_as (a n : Nat) (x y : Nat) : (s.cleanse a n).as x y = s.as x y := rfl
@[simp] theorem State.cleanse_qu (a n : Nat) (x : Nat) : (s.cleanse a n).qu x = s.qu x := rfl
@[simp] theorem State.cleanse_slot (a n : Nat) (x y : Nat) : (s.cleanse a n).slot x y = s.slot x y := rfl
@[simp] theorem State.cleanse_hqOf (a n : Nat) (x : Nat) : (s.cleanse a n).hqOf x = s.hqOf x := rfl
@[simp] theorem State.cleanse_kv (a n : Nat) (x : Nat) : (s.cleanse a n).kv x = s.kv x := rfl
@[simp] theorem State.cleanse_job (a n : Nat) (x : Nat) : (s.cleanse a n).job x = s.job x := rfl
@[simp] theorem State.cleanse_xc (a n : Nat) (x : Nat) : (s.cleanse a n).xc x = s.xc x := rfl
@[simp] theorem State.cleanse_home (a n : Nat) (x : Nat) : (s.cleanse a n).home x = s.home x := rfl
@[simp] theorem State.cleanse_thr (a n : Nat) (x : Nat) : (s.cleanse a n).thr x = s.thr x := rfl
@[simp] theorem State.cleanse_pt (a n : Nat) (x : Nat) : (s.cleanse a n).pt x = s.pt x := rfl
@[simp] theorem State.cleanse_rg (a n : Nat) (x : Nat) : (s.cleanse a n).rg x = s.rg x := rfl
@[simp] theorem State.cleanse_byte (a n : Nat) (x : Nat) : (s.cleanse a n).byte x = s.byte x := rfl
@[simp] theorem State.cleanse_coreRegs (a n : Nat) (x : Nat) : (s.cleanse a n).coreRegs x = s.coreRegs x := rfl
@[simp] theorem State.cleanse_stake (a n : Nat) (x : Nat) : (s.cleanse a n).stake x = s.stake x := rfl
@[simp] theorem State.cleanse_enabled (a n : Nat) (x : Nat) : (s.cleanse a n).enabled x = s.enabled x := rfl

/-! ### touch -/

@[simp] theorem State.touch_pending (a n : Nat) (o : Option Nat) : (s.touch a n o).pending = s.pending := rfl
@[simp] theorem State.touch_regs (a n : Nat) (o : Option Nat) : (s.touch a n o).regs = s.regs := rfl
@[simp] theorem State.touch_mem (a n : Nat) (o : Option Nat) : (s.touch a n o).mem = s.mem := rfl
@[simp] theorem State.touch_undef (a n : Nat) (o : Option Nat) : (s.touch a n o).undef = s.undef := rfl
@[simp] theorem State.touch_poison (a n : Nat) (o : Option Nat) : (s.touch a n o).poison = s.poison := rfl
@[simp] theorem State.touch_free (a n : Nat) (o : Option Nat) : (s.touch a n o).free = s.free := rfl
@[simp] theorem State.touch_resp (a n : Nat) (o : Option Nat) : (s.touch a n o).resp = s.resp := rfl
@[simp] theorem State.touch_lk (a n : Nat) (o : Option Nat) : (s.touch a n o).lk = s.lk := rfl
@[simp] theorem State.touch_weave (a n : Nat) (o : Option Nat) : (s.touch a n o).weave = s.weave := rfl
@[simp] theorem State.touch_fuses (a n : Nat) (o : Option Nat) : (s.touch a n o).fuses = s.fuses := rfl
@[simp] theorem State.touch_flash (a n : Nat) (o : Option Nat) : (s.touch a n o).flash = s.flash := rfl
@[simp] theorem State.touch_sec (a n : Nat) (o : Option Nat) : (s.touch a n o).sec = s.sec := rfl
@[simp] theorem State.touch_failEng (a n : Nat) (o : Option Nat) : (s.touch a n o).failEng = s.failEng := rfl
@[simp] theorem State.touch_failPvu (a n : Nat) (o : Option Nat) : (s.touch a n o).failPvu = s.failPvu := rfl
@[simp] theorem State.touch_failTc (a n : Nat) (o : Option Nat) : (s.touch a n o).failTc = s.failTc := rfl
@[simp] theorem State.touch_failQuay (a n : Nat) (o : Option Nat) : (s.touch a n o).failQuay = s.failQuay := rfl
@[simp] theorem State.touch_failCh (a n : Nat) (o : Option Nat) : (s.touch a n o).failCh = s.failCh := rfl
@[simp] theorem State.touch_psq (a n : Nat) (o : Option Nat) : (s.touch a n o).psq = s.psq := rfl
@[simp] theorem State.touch_slots (a n : Nat) (o : Option Nat) : (s.touch a n o).slots = s.slots := rfl
@[simp] theorem State.touch_pvu (a n : Nat) (o : Option Nat) : (s.touch a n o).pvu = s.pvu := rfl
@[simp] theorem State.touch_asu (a n : Nat) (o : Option Nat) : (s.touch a n o).asu = s.asu := rfl
@[simp] theorem State.touch_quay (a n : Nat) (o : Option Nat) : (s.touch a n o).quay = s.quay := rfl
@[simp] theorem State.touch_binds (a n : Nat) (o : Option Nat) : (s.touch a n o).binds = s.binds := rfl
@[simp] theorem State.touch_macs (a n : Nat) (o : Option Nat) : (s.touch a n o).macs = s.macs := rfl
@[simp] theorem State.touch_xch (a n : Nat) (o : Option Nat) : (s.touch a n o).xch = s.xch := rfl
@[simp] theorem State.touch_jobs (a n : Nat) (o : Option Nat) : (s.touch a n o).jobs = s.jobs := rfl
@[simp] theorem State.touch_port (a n : Nat) (o : Option Nat) : (s.touch a n o).port = s.port := rfl
@[simp] theorem State.touch_ring (a n : Nat) (o : Option Nat) : (s.touch a n o).ring = s.ring := rfl
@[simp] theorem State.touch_out (a n : Nat) (o : Option Nat) : (s.touch a n o).out = s.out := rfl
@[simp] theorem State.touch_msix (a n : Nat) (o : Option Nat) : (s.touch a n o).msix = s.msix := rfl
@[simp] theorem State.touch_pba (a n : Nat) (o : Option Nat) : (s.touch a n o).pba = s.pba := rfl
@[simp] theorem State.touch_added (a n : Nat) (o : Option Nat) : (s.touch a n o).added = s.added := rfl
@[simp] theorem State.touch_kvp (a n : Nat) (o : Option Nat) : (s.touch a n o).kvp = s.kvp := rfl
@[simp] theorem State.touch_thread (a n : Nat) (o : Option Nat) : (s.touch a n o).thread = s.thread := rfl
@[simp] theorem State.touch_l1 (a n : Nat) (o : Option Nat) : (s.touch a n o).l1 = s.l1 := rfl
@[simp] theorem State.touch_il1 (a n : Nat) (o : Option Nat) : (s.touch a n o).il1 = s.il1 := rfl
@[simp] theorem State.touch_time (a n : Nat) (o : Option Nat) : (s.touch a n o).time = s.time := rfl
@[simp] theorem State.touch_core (a n : Nat) (o : Option Nat) : (s.touch a n o).core = s.core := rfl
@[simp] theorem State.touch_takes (a n : Nat) (o : Option Nat) : (s.touch a n o).takes = s.takes := rfl
@[simp] theorem State.touch_recs (a n : Nat) (o : Option Nat) : (s.touch a n o).recs = s.recs := rfl
@[simp] theorem State.touch_hq (a n : Nat) (o : Option Nat) : (s.touch a n o).hq = s.hq := rfl
@[simp] theorem State.touch_poolK (a n : Nat) (o : Option Nat) : (s.touch a n o).poolK = s.poolK := rfl
@[simp] theorem State.touch_poolEra (a n : Nat) (o : Option Nat) : (s.touch a n o).poolEra = s.poolEra := rfl
@[simp] theorem State.touch_pci (a n : Nat) (o : Option Nat) : (s.touch a n o).pci = s.pci := rfl
@[simp] theorem State.touch_replay (a n : Nat) (o : Option Nat) : (s.touch a n o).replay = s.replay := rfl
@[simp] theorem State.touch_reg (a n : Nat) (o : Option Nat) (x : Nat) : (s.touch a n o).reg x = s.reg x := rfl
@[simp] theorem State.touch_fld (a n : Nat) (o : Option Nat) (x : Nat) (g : Fld) : (s.touch a n o).fld x g = s.fld x g := rfl
@[simp] theorem State.touch_flag (a n : Nat) (o : Option Nat) (x : Nat) (g : Fld) : (s.touch a n o).flag x g = s.flag x g := rfl
@[simp] theorem State.touch_fldBit (a n : Nat) (o : Option Nat) (x : Nat) (g : Fld) (j : Nat) : (s.touch a n o).fldBit x g j = s.fldBit x g j := rfl
@[simp] theorem State.touch_q (a n : Nat) (o : Option Nat) (x : Nat) : (s.touch a n o).q x = s.q x := rfl
@[simp] theorem State.touch_pv (a n : Nat) (o : Option Nat) (x : Nat) : (s.touch a n o).pv x = s.pv x := rfl
@[simp] theorem State.touch_as (a n : Nat) (o : Option Nat) (x y : Nat) : (s.touch a n o).as x y = s.as x y := rfl
@[simp] theorem State.touch_qu (a n : Nat) (o : Option Nat) (x : Nat) : (s.touch a n o).qu x = s.qu x := rfl
@[simp] theorem State.touch_slot (a n : Nat) (o : Option Nat) (x y : Nat) : (s.touch a n o).slot x y = s.slot x y := rfl
@[simp] theorem State.touch_hqOf (a n : Nat) (o : Option Nat) (x : Nat) : (s.touch a n o).hqOf x = s.hqOf x := rfl
@[simp] theorem State.touch_kv (a n : Nat) (o : Option Nat) (x : Nat) : (s.touch a n o).kv x = s.kv x := rfl
@[simp] theorem State.touch_job (a n : Nat) (o : Option Nat) (x : Nat) : (s.touch a n o).job x = s.job x := rfl
@[simp] theorem State.touch_xc (a n : Nat) (o : Option Nat) (x : Nat) : (s.touch a n o).xc x = s.xc x := rfl
@[simp] theorem State.touch_thr (a n : Nat) (o : Option Nat) (x : Nat) : (s.touch a n o).thr x = s.thr x := rfl
@[simp] theorem State.touch_pt (a n : Nat) (o : Option Nat) (x : Nat) : (s.touch a n o).pt x = s.pt x := rfl
@[simp] theorem State.touch_rg (a n : Nat) (o : Option Nat) (x : Nat) : (s.touch a n o).rg x = s.rg x := rfl
@[simp] theorem State.touch_byte (a n : Nat) (o : Option Nat) (x : Nat) : (s.touch a n o).byte x = s.byte x := rfl
@[simp] theorem State.touch_coreRegs (a n : Nat) (o : Option Nat) (x : Nat) : (s.touch a n o).coreRegs x = s.coreRegs x := rfl
@[simp] theorem State.touch_stake (a n : Nat) (o : Option Nat) (x : Nat) : (s.touch a n o).stake x = s.stake x := rfl
@[simp] theorem State.touch_enabled (a n : Nat) (o : Option Nat) (x : Nat) : (s.touch a n o).enabled x = s.enabled x := rfl

/-! ### noteCxl -/

@[simp] theorem State.noteCxl_pending (a n : Nat) (b : Bool) : (s.noteCxl a n b).pending = s.pending := by
  unfold State.noteCxl; repeat' split
  all_goals simp
@[simp] theorem State.noteCxl_mem (a n : Nat) (b : Bool) : (s.noteCxl a n b).mem = s.mem := by
  unfold State.noteCxl; repeat' split
  all_goals simp
@[simp] theorem State.noteCxl_undef (a n : Nat) (b : Bool) : (s.noteCxl a n b).undef = s.undef := by
  unfold State.noteCxl; repeat' split
  all_goals simp
@[simp] theorem State.noteCxl_poison (a n : Nat) (b : Bool) : (s.noteCxl a n b).poison = s.poison := by
  unfold State.noteCxl; repeat' split
  all_goals simp
@[simp] theorem State.noteCxl_free (a n : Nat) (b : Bool) : (s.noteCxl a n b).free = s.free := by
  unfold State.noteCxl; repeat' split
  all_goals simp
@[simp] theorem State.noteCxl_resp (a n : Nat) (b : Bool) : (s.noteCxl a n b).resp = s.resp := by
  unfold State.noteCxl; repeat' split
  all_goals simp
@[simp] theorem State.noteCxl_lk (a n : Nat) (b : Bool) : (s.noteCxl a n b).lk = s.lk := by
  unfold State.noteCxl; repeat' split
  all_goals simp
@[simp] theorem State.noteCxl_weave (a n : Nat) (b : Bool) : (s.noteCxl a n b).weave = s.weave := by
  unfold State.noteCxl; repeat' split
  all_goals simp
@[simp] theorem State.noteCxl_fuses (a n : Nat) (b : Bool) : (s.noteCxl a n b).fuses = s.fuses := by
  unfold State.noteCxl; repeat' split
  all_goals simp
@[simp] theorem State.noteCxl_flash (a n : Nat) (b : Bool) : (s.noteCxl a n b).flash = s.flash := by
  unfold State.noteCxl; repeat' split
  all_goals simp
@[simp] theorem State.noteCxl_sec (a n : Nat) (b : Bool) : (s.noteCxl a n b).sec = s.sec := by
  unfold State.noteCxl; repeat' split
  all_goals simp
@[simp] theorem State.noteCxl_failEng (a n : Nat) (b : Bool) : (s.noteCxl a n b).failEng = s.failEng := by
  unfold State.noteCxl; repeat' split
  all_goals simp
@[simp] theorem State.noteCxl_failPvu (a n : Nat) (b : Bool) : (s.noteCxl a n b).failPvu = s.failPvu := by
  unfold State.noteCxl; repeat' split
  all_goals simp
@[simp] theorem State.noteCxl_failTc (a n : Nat) (b : Bool) : (s.noteCxl a n b).failTc = s.failTc := by
  unfold State.noteCxl; repeat' split
  all_goals simp
@[simp] theorem State.noteCxl_failQuay (a n : Nat) (b : Bool) : (s.noteCxl a n b).failQuay = s.failQuay := by
  unfold State.noteCxl; repeat' split
  all_goals simp
@[simp] theorem State.noteCxl_failCh (a n : Nat) (b : Bool) : (s.noteCxl a n b).failCh = s.failCh := by
  unfold State.noteCxl; repeat' split
  all_goals simp
@[simp] theorem State.noteCxl_psq (a n : Nat) (b : Bool) : (s.noteCxl a n b).psq = s.psq := by
  unfold State.noteCxl; repeat' split
  all_goals simp
@[simp] theorem State.noteCxl_slots (a n : Nat) (b : Bool) : (s.noteCxl a n b).slots = s.slots := by
  unfold State.noteCxl; repeat' split
  all_goals simp
@[simp] theorem State.noteCxl_pvu (a n : Nat) (b : Bool) : (s.noteCxl a n b).pvu = s.pvu := by
  unfold State.noteCxl; repeat' split
  all_goals simp
@[simp] theorem State.noteCxl_asu (a n : Nat) (b : Bool) : (s.noteCxl a n b).asu = s.asu := by
  unfold State.noteCxl; repeat' split
  all_goals simp
@[simp] theorem State.noteCxl_quay (a n : Nat) (b : Bool) : (s.noteCxl a n b).quay = s.quay := by
  unfold State.noteCxl; repeat' split
  all_goals simp
@[simp] theorem State.noteCxl_binds (a n : Nat) (b : Bool) : (s.noteCxl a n b).binds = s.binds := by
  unfold State.noteCxl; repeat' split
  all_goals simp
@[simp] theorem State.noteCxl_macs (a n : Nat) (b : Bool) : (s.noteCxl a n b).macs = s.macs := by
  unfold State.noteCxl; repeat' split
  all_goals simp
@[simp] theorem State.noteCxl_xch (a n : Nat) (b : Bool) : (s.noteCxl a n b).xch = s.xch := by
  unfold State.noteCxl; repeat' split
  all_goals simp
@[simp] theorem State.noteCxl_jobs (a n : Nat) (b : Bool) : (s.noteCxl a n b).jobs = s.jobs := by
  unfold State.noteCxl; repeat' split
  all_goals simp
@[simp] theorem State.noteCxl_port (a n : Nat) (b : Bool) : (s.noteCxl a n b).port = s.port := by
  unfold State.noteCxl; repeat' split
  all_goals simp
@[simp] theorem State.noteCxl_ring (a n : Nat) (b : Bool) : (s.noteCxl a n b).ring = s.ring := by
  unfold State.noteCxl; repeat' split
  all_goals simp
@[simp] theorem State.noteCxl_out (a n : Nat) (b : Bool) : (s.noteCxl a n b).out = s.out := by
  unfold State.noteCxl; repeat' split
  all_goals simp
@[simp] theorem State.noteCxl_msix (a n : Nat) (b : Bool) : (s.noteCxl a n b).msix = s.msix := by
  unfold State.noteCxl; repeat' split
  all_goals simp
@[simp] theorem State.noteCxl_pba (a n : Nat) (b : Bool) : (s.noteCxl a n b).pba = s.pba := by
  unfold State.noteCxl; repeat' split
  all_goals simp
@[simp] theorem State.noteCxl_added (a n : Nat) (b : Bool) : (s.noteCxl a n b).added = s.added := by
  unfold State.noteCxl; repeat' split
  all_goals simp
@[simp] theorem State.noteCxl_kvp (a n : Nat) (b : Bool) : (s.noteCxl a n b).kvp = s.kvp := by
  unfold State.noteCxl; repeat' split
  all_goals simp
@[simp] theorem State.noteCxl_thread (a n : Nat) (b : Bool) : (s.noteCxl a n b).thread = s.thread := by
  unfold State.noteCxl; repeat' split
  all_goals simp
@[simp] theorem State.noteCxl_l1 (a n : Nat) (b : Bool) : (s.noteCxl a n b).l1 = s.l1 := by
  unfold State.noteCxl; repeat' split
  all_goals simp
@[simp] theorem State.noteCxl_il1 (a n : Nat) (b : Bool) : (s.noteCxl a n b).il1 = s.il1 := by
  unfold State.noteCxl; repeat' split
  all_goals simp
@[simp] theorem State.noteCxl_wakes (a n : Nat) (b : Bool) : (s.noteCxl a n b).wakes = s.wakes := by
  unfold State.noteCxl; repeat' split
  all_goals simp
@[simp] theorem State.noteCxl_time (a n : Nat) (b : Bool) : (s.noteCxl a n b).time = s.time := by
  unfold State.noteCxl; repeat' split
  all_goals simp
@[simp] theorem State.noteCxl_core (a n : Nat) (b : Bool) : (s.noteCxl a n b).core = s.core := by
  unfold State.noteCxl; repeat' split
  all_goals simp
@[simp] theorem State.noteCxl_takes (a n : Nat) (b : Bool) : (s.noteCxl a n b).takes = s.takes := by
  unfold State.noteCxl; repeat' split
  all_goals simp
@[simp] theorem State.noteCxl_homes (a n : Nat) (b : Bool) : (s.noteCxl a n b).homes = s.homes := by
  unfold State.noteCxl; repeat' split
  all_goals simp
@[simp] theorem State.noteCxl_copies (a n : Nat) (b : Bool) : (s.noteCxl a n b).copies = s.copies := by
  unfold State.noteCxl; repeat' split
  all_goals simp
@[simp] theorem State.noteCxl_resv (a n : Nat) (b : Bool) : (s.noteCxl a n b).resv = s.resv := by
  unfold State.noteCxl; repeat' split
  all_goals simp
@[simp] theorem State.noteCxl_recs (a n : Nat) (b : Bool) : (s.noteCxl a n b).recs = s.recs := by
  unfold State.noteCxl; repeat' split
  all_goals simp
@[simp] theorem State.noteCxl_hq (a n : Nat) (b : Bool) : (s.noteCxl a n b).hq = s.hq := by
  unfold State.noteCxl; repeat' split
  all_goals simp
@[simp] theorem State.noteCxl_poolK (a n : Nat) (b : Bool) : (s.noteCxl a n b).poolK = s.poolK := by
  unfold State.noteCxl; repeat' split
  all_goals simp
@[simp] theorem State.noteCxl_poolEra (a n : Nat) (b : Bool) : (s.noteCxl a n b).poolEra = s.poolEra := by
  unfold State.noteCxl; repeat' split
  all_goals simp
@[simp] theorem State.noteCxl_pci (a n : Nat) (b : Bool) : (s.noteCxl a n b).pci = s.pci := by
  unfold State.noteCxl; repeat' split
  all_goals simp
@[simp] theorem State.noteCxl_replay (a n : Nat) (b : Bool) : (s.noteCxl a n b).replay = s.replay := by
  unfold State.noteCxl; repeat' split
  all_goals simp
@[simp] theorem State.noteCxl_q (a n : Nat) (b : Bool) (x : Nat) : (s.noteCxl a n b).q x = s.q x := by simp [State.q]
@[simp] theorem State.noteCxl_pv (a n : Nat) (b : Bool) (x : Nat) : (s.noteCxl a n b).pv x = s.pv x := by simp [State.pv]
@[simp] theorem State.noteCxl_as (a n : Nat) (b : Bool) (x y : Nat) : (s.noteCxl a n b).as x y = s.as x y := by simp [State.as]
@[simp] theorem State.noteCxl_qu (a n : Nat) (b : Bool) (x : Nat) : (s.noteCxl a n b).qu x = s.qu x := by simp [State.qu]
@[simp] theorem State.noteCxl_slot (a n : Nat) (b : Bool) (x y : Nat) : (s.noteCxl a n b).slot x y = s.slot x y := by simp [State.slot]
@[simp] theorem State.noteCxl_hqOf (a n : Nat) (b : Bool) (x : Nat) : (s.noteCxl a n b).hqOf x = s.hqOf x := by simp [State.hqOf]
@[simp] theorem State.noteCxl_kv (a n : Nat) (b : Bool) (x : Nat) : (s.noteCxl a n b).kv x = s.kv x := by simp [State.kv]
@[simp] theorem State.noteCxl_job (a n : Nat) (b : Bool) (x : Nat) : (s.noteCxl a n b).job x = s.job x := by simp [State.job]
@[simp] theorem State.noteCxl_xc (a n : Nat) (b : Bool) (x : Nat) : (s.noteCxl a n b).xc x = s.xc x := by simp [State.xc]
@[simp] theorem State.noteCxl_home (a n : Nat) (b : Bool) (x : Nat) : (s.noteCxl a n b).home x = s.home x := by simp [State.home]
@[simp] theorem State.noteCxl_thr (a n : Nat) (b : Bool) (x : Nat) : (s.noteCxl a n b).thr x = s.thr x := by simp [State.thr]
@[simp] theorem State.noteCxl_pt (a n : Nat) (b : Bool) (x : Nat) : (s.noteCxl a n b).pt x = s.pt x := by simp [State.pt]
@[simp] theorem State.noteCxl_rg (a n : Nat) (b : Bool) (x : Nat) : (s.noteCxl a n b).rg x = s.rg x := by simp [State.rg]
@[simp] theorem State.noteCxl_byte (a n : Nat) (b : Bool) (x : Nat) : (s.noteCxl a n b).byte x = s.byte x := by simp [State.byte]
@[simp] theorem State.noteCxl_coreRegs (a n : Nat) (b : Bool) (x : Nat) : (s.noteCxl a n b).coreRegs x = s.coreRegs x := by simp [State.coreRegs]
@[simp] theorem State.noteCxl_stake (a n : Nat) (b : Bool) (x : Nat) : (s.noteCxl a n b).stake x = s.stake x := by simp [State.stake]
@[simp] theorem State.noteCxl_enabled (a n : Nat) (b : Bool) (x : Nat) : (s.noteCxl a n b).enabled x = s.enabled x := by simp [State.enabled]

/-! ### wr -/

@[simp] theorem State.wr_pending (a : Nat) (l : List Byte) : (s.wr a l).pending = s.pending := by
  unfold State.wr; split <;> simp
@[simp] theorem State.wr_free (a : Nat) (l : List Byte) : (s.wr a l).free = s.free := by
  unfold State.wr; split <;> simp
@[simp] theorem State.wr_resp (a : Nat) (l : List Byte) : (s.wr a l).resp = s.resp := by
  unfold State.wr; split <;> simp
@[simp] theorem State.wr_lk (a : Nat) (l : List Byte) : (s.wr a l).lk = s.lk := by
  unfold State.wr; split <;> simp
@[simp] theorem State.wr_weave (a : Nat) (l : List Byte) : (s.wr a l).weave = s.weave := by
  unfold State.wr; split <;> simp
@[simp] theorem State.wr_fuses (a : Nat) (l : List Byte) : (s.wr a l).fuses = s.fuses := by
  unfold State.wr; split <;> simp
@[simp] theorem State.wr_flash (a : Nat) (l : List Byte) : (s.wr a l).flash = s.flash := by
  unfold State.wr; split <;> simp
@[simp] theorem State.wr_sec (a : Nat) (l : List Byte) : (s.wr a l).sec = s.sec := by
  unfold State.wr; split <;> simp
@[simp] theorem State.wr_failEng (a : Nat) (l : List Byte) : (s.wr a l).failEng = s.failEng := by
  unfold State.wr; split <;> simp
@[simp] theorem State.wr_failPvu (a : Nat) (l : List Byte) : (s.wr a l).failPvu = s.failPvu := by
  unfold State.wr; split <;> simp
@[simp] theorem State.wr_failTc (a : Nat) (l : List Byte) : (s.wr a l).failTc = s.failTc := by
  unfold State.wr; split <;> simp
@[simp] theorem State.wr_failQuay (a : Nat) (l : List Byte) : (s.wr a l).failQuay = s.failQuay := by
  unfold State.wr; split <;> simp
@[simp] theorem State.wr_failCh (a : Nat) (l : List Byte) : (s.wr a l).failCh = s.failCh := by
  unfold State.wr; split <;> simp
@[simp] theorem State.wr_psq (a : Nat) (l : List Byte) : (s.wr a l).psq = s.psq := by
  unfold State.wr; split <;> simp
@[simp] theorem State.wr_slots (a : Nat) (l : List Byte) : (s.wr a l).slots = s.slots := by
  unfold State.wr; split <;> simp
@[simp] theorem State.wr_pvu (a : Nat) (l : List Byte) : (s.wr a l).pvu = s.pvu := by
  unfold State.wr; split <;> simp
@[simp] theorem State.wr_asu (a : Nat) (l : List Byte) : (s.wr a l).asu = s.asu := by
  unfold State.wr; split <;> simp
@[simp] theorem State.wr_quay (a : Nat) (l : List Byte) : (s.wr a l).quay = s.quay := by
  unfold State.wr; split <;> simp
@[simp] theorem State.wr_binds (a : Nat) (l : List Byte) : (s.wr a l).binds = s.binds := by
  unfold State.wr; split <;> simp
@[simp] theorem State.wr_macs (a : Nat) (l : List Byte) : (s.wr a l).macs = s.macs := by
  unfold State.wr; split <;> simp
@[simp] theorem State.wr_xch (a : Nat) (l : List Byte) : (s.wr a l).xch = s.xch := by
  unfold State.wr; split <;> simp
@[simp] theorem State.wr_jobs (a : Nat) (l : List Byte) : (s.wr a l).jobs = s.jobs := by
  unfold State.wr; split <;> simp
@[simp] theorem State.wr_port (a : Nat) (l : List Byte) : (s.wr a l).port = s.port := by
  unfold State.wr; split <;> simp
@[simp] theorem State.wr_ring (a : Nat) (l : List Byte) : (s.wr a l).ring = s.ring := by
  unfold State.wr; split <;> simp
@[simp] theorem State.wr_out (a : Nat) (l : List Byte) : (s.wr a l).out = s.out := by
  unfold State.wr; split <;> simp
@[simp] theorem State.wr_msix (a : Nat) (l : List Byte) : (s.wr a l).msix = s.msix := by
  unfold State.wr; split <;> simp
@[simp] theorem State.wr_pba (a : Nat) (l : List Byte) : (s.wr a l).pba = s.pba := by
  unfold State.wr; split <;> simp
@[simp] theorem State.wr_added (a : Nat) (l : List Byte) : (s.wr a l).added = s.added := by
  unfold State.wr; split <;> simp
@[simp] theorem State.wr_kvp (a : Nat) (l : List Byte) : (s.wr a l).kvp = s.kvp := by
  unfold State.wr; split <;> simp
@[simp] theorem State.wr_thread (a : Nat) (l : List Byte) : (s.wr a l).thread = s.thread := by
  unfold State.wr; split <;> simp
@[simp] theorem State.wr_l1 (a : Nat) (l : List Byte) : (s.wr a l).l1 = s.l1 := by
  unfold State.wr; split <;> simp
@[simp] theorem State.wr_il1 (a : Nat) (l : List Byte) : (s.wr a l).il1 = s.il1 := by
  unfold State.wr; split <;> simp
@[simp] theorem State.wr_time (a : Nat) (l : List Byte) : (s.wr a l).time = s.time := by
  unfold State.wr; split <;> simp
@[simp] theorem State.wr_core (a : Nat) (l : List Byte) : (s.wr a l).core = s.core := by
  unfold State.wr; split <;> simp
@[simp] theorem State.wr_takes (a : Nat) (l : List Byte) : (s.wr a l).takes = s.takes := by
  unfold State.wr; split <;> simp
@[simp] theorem State.wr_recs (a : Nat) (l : List Byte) : (s.wr a l).recs = s.recs := by
  unfold State.wr; split <;> simp
@[simp] theorem State.wr_hq (a : Nat) (l : List Byte) : (s.wr a l).hq = s.hq := by
  unfold State.wr; split <;> simp
@[simp] theorem State.wr_poolK (a : Nat) (l : List Byte) : (s.wr a l).poolK = s.poolK := by
  unfold State.wr; split <;> simp
@[simp] theorem State.wr_poolEra (a : Nat) (l : List Byte) : (s.wr a l).poolEra = s.poolEra := by
  unfold State.wr; split <;> simp
@[simp] theorem State.wr_pci (a : Nat) (l : List Byte) : (s.wr a l).pci = s.pci := by
  unfold State.wr; split <;> simp
@[simp] theorem State.wr_replay (a : Nat) (l : List Byte) : (s.wr a l).replay = s.replay := by
  unfold State.wr; split <;> simp
@[simp] theorem State.wr_q (a : Nat) (l : List Byte) (x : Nat) : (s.wr a l).q x = s.q x := by simp [State.q]
@[simp] theorem State.wr_pv (a : Nat) (l : List Byte) (x : Nat) : (s.wr a l).pv x = s.pv x := by simp [State.pv]
@[simp] theorem State.wr_as (a : Nat) (l : List Byte) (x y : Nat) : (s.wr a l).as x y = s.as x y := by simp [State.as]
@[simp] theorem State.wr_qu (a : Nat) (l : List Byte) (x : Nat) : (s.wr a l).qu x = s.qu x := by simp [State.qu]
@[simp] theorem State.wr_slot (a : Nat) (l : List Byte) (x y : Nat) : (s.wr a l).slot x y = s.slot x y := by simp [State.slot]
@[simp] theorem State.wr_hqOf (a : Nat) (l : List Byte) (x : Nat) : (s.wr a l).hqOf x = s.hqOf x := by simp [State.hqOf]
@[simp] theorem State.wr_kv (a : Nat) (l : List Byte) (x : Nat) : (s.wr a l).kv x = s.kv x := by simp [State.kv]
@[simp] theorem State.wr_job (a : Nat) (l : List Byte) (x : Nat) : (s.wr a l).job x = s.job x := by simp [State.job]
@[simp] theorem State.wr_xc (a : Nat) (l : List Byte) (x : Nat) : (s.wr a l).xc x = s.xc x := by simp [State.xc]
@[simp] theorem State.wr_thr (a : Nat) (l : List Byte) (x : Nat) : (s.wr a l).thr x = s.thr x := by simp [State.thr]
@[simp] theorem State.wr_pt (a : Nat) (l : List Byte) (x : Nat) : (s.wr a l).pt x = s.pt x := by simp [State.pt]
@[simp] theorem State.wr_rg (a : Nat) (l : List Byte) (x : Nat) : (s.wr a l).rg x = s.rg x := by simp [State.rg]
@[simp] theorem State.wr_coreRegs (a : Nat) (l : List Byte) (x : Nat) : (s.wr a l).coreRegs x = s.coreRegs x := by simp [State.coreRegs]
@[simp] theorem State.wr_stake (a : Nat) (l : List Byte) (x : Nat) : (s.wr a l).stake x = s.stake x := by simp [State.stake]
@[simp] theorem State.wr_enabled (a : Nat) (l : List Byte) (x : Nat) : (s.wr a l).enabled x = s.enabled x := by simp [State.enabled]

/-! ### wrN -/

@[simp] theorem State.wrN_pending (a n v : Nat) : (s.wrN a n v).pending = s.pending := by
  unfold State.wrN; simp
@[simp] theorem State.wrN_free (a n v : Nat) : (s.wrN a n v).free = s.free := by
  unfold State.wrN; simp
@[simp] theorem State.wrN_resp (a n v : Nat) : (s.wrN a n v).resp = s.resp := by
  unfold State.wrN; simp
@[simp] theorem State.wrN_lk (a n v : Nat) : (s.wrN a n v).lk = s.lk := by
  unfold State.wrN; simp
@[simp] theorem State.wrN_weave (a n v : Nat) : (s.wrN a n v).weave = s.weave := by
  unfold State.wrN; simp
@[simp] theorem State.wrN_fuses (a n v : Nat) : (s.wrN a n v).fuses = s.fuses := by
  unfold State.wrN; simp
@[simp] theorem State.wrN_flash (a n v : Nat) : (s.wrN a n v).flash = s.flash := by
  unfold State.wrN; simp
@[simp] theorem State.wrN_sec (a n v : Nat) : (s.wrN a n v).sec = s.sec := by
  unfold State.wrN; simp
@[simp] theorem State.wrN_failEng (a n v : Nat) : (s.wrN a n v).failEng = s.failEng := by
  unfold State.wrN; simp
@[simp] theorem State.wrN_failPvu (a n v : Nat) : (s.wrN a n v).failPvu = s.failPvu := by
  unfold State.wrN; simp
@[simp] theorem State.wrN_failTc (a n v : Nat) : (s.wrN a n v).failTc = s.failTc := by
  unfold State.wrN; simp
@[simp] theorem State.wrN_failQuay (a n v : Nat) : (s.wrN a n v).failQuay = s.failQuay := by
  unfold State.wrN; simp
@[simp] theorem State.wrN_failCh (a n v : Nat) : (s.wrN a n v).failCh = s.failCh := by
  unfold State.wrN; simp
@[simp] theorem State.wrN_psq (a n v : Nat) : (s.wrN a n v).psq = s.psq := by
  unfold State.wrN; simp
@[simp] theorem State.wrN_slots (a n v : Nat) : (s.wrN a n v).slots = s.slots := by
  unfold State.wrN; simp
@[simp] theorem State.wrN_pvu (a n v : Nat) : (s.wrN a n v).pvu = s.pvu := by
  unfold State.wrN; simp
@[simp] theorem State.wrN_asu (a n v : Nat) : (s.wrN a n v).asu = s.asu := by
  unfold State.wrN; simp
@[simp] theorem State.wrN_quay (a n v : Nat) : (s.wrN a n v).quay = s.quay := by
  unfold State.wrN; simp
@[simp] theorem State.wrN_binds (a n v : Nat) : (s.wrN a n v).binds = s.binds := by
  unfold State.wrN; simp
@[simp] theorem State.wrN_macs (a n v : Nat) : (s.wrN a n v).macs = s.macs := by
  unfold State.wrN; simp
@[simp] theorem State.wrN_xch (a n v : Nat) : (s.wrN a n v).xch = s.xch := by
  unfold State.wrN; simp
@[simp] theorem State.wrN_jobs (a n v : Nat) : (s.wrN a n v).jobs = s.jobs := by
  unfold State.wrN; simp
@[simp] theorem State.wrN_port (a n v : Nat) : (s.wrN a n v).port = s.port := by
  unfold State.wrN; simp
@[simp] theorem State.wrN_ring (a n v : Nat) : (s.wrN a n v).ring = s.ring := by
  unfold State.wrN; simp
@[simp] theorem State.wrN_out (a n v : Nat) : (s.wrN a n v).out = s.out := by
  unfold State.wrN; simp
@[simp] theorem State.wrN_msix (a n v : Nat) : (s.wrN a n v).msix = s.msix := by
  unfold State.wrN; simp
@[simp] theorem State.wrN_pba (a n v : Nat) : (s.wrN a n v).pba = s.pba := by
  unfold State.wrN; simp
@[simp] theorem State.wrN_added (a n v : Nat) : (s.wrN a n v).added = s.added := by
  unfold State.wrN; simp
@[simp] theorem State.wrN_kvp (a n v : Nat) : (s.wrN a n v).kvp = s.kvp := by
  unfold State.wrN; simp
@[simp] theorem State.wrN_thread (a n v : Nat) : (s.wrN a n v).thread = s.thread := by
  unfold State.wrN; simp
@[simp] theorem State.wrN_l1 (a n v : Nat) : (s.wrN a n v).l1 = s.l1 := by
  unfold State.wrN; simp
@[simp] theorem State.wrN_il1 (a n v : Nat) : (s.wrN a n v).il1 = s.il1 := by
  unfold State.wrN; simp
@[simp] theorem State.wrN_time (a n v : Nat) : (s.wrN a n v).time = s.time := by
  unfold State.wrN; simp
@[simp] theorem State.wrN_core (a n v : Nat) : (s.wrN a n v).core = s.core := by
  unfold State.wrN; simp
@[simp] theorem State.wrN_takes (a n v : Nat) : (s.wrN a n v).takes = s.takes := by
  unfold State.wrN; simp
@[simp] theorem State.wrN_recs (a n v : Nat) : (s.wrN a n v).recs = s.recs := by
  unfold State.wrN; simp
@[simp] theorem State.wrN_hq (a n v : Nat) : (s.wrN a n v).hq = s.hq := by
  unfold State.wrN; simp
@[simp] theorem State.wrN_poolK (a n v : Nat) : (s.wrN a n v).poolK = s.poolK := by
  unfold State.wrN; simp
@[simp] theorem State.wrN_poolEra (a n v : Nat) : (s.wrN a n v).poolEra = s.poolEra := by
  unfold State.wrN; simp
@[simp] theorem State.wrN_pci (a n v : Nat) : (s.wrN a n v).pci = s.pci := by
  unfold State.wrN; simp
@[simp] theorem State.wrN_replay (a n v : Nat) : (s.wrN a n v).replay = s.replay := by
  unfold State.wrN; simp
@[simp] theorem State.wrN_q (a n v : Nat) (x : Nat) : (s.wrN a n v).q x = s.q x := by simp [State.q]
@[simp] theorem State.wrN_pv (a n v : Nat) (x : Nat) : (s.wrN a n v).pv x = s.pv x := by simp [State.pv]
@[simp] theorem State.wrN_as (a n v : Nat) (x y : Nat) : (s.wrN a n v).as x y = s.as x y := by simp [State.as]
@[simp] theorem State.wrN_qu (a n v : Nat) (x : Nat) : (s.wrN a n v).qu x = s.qu x := by simp [State.qu]
@[simp] theorem State.wrN_slot (a n v : Nat) (x y : Nat) : (s.wrN a n v).slot x y = s.slot x y := by simp [State.slot]
@[simp] theorem State.wrN_hqOf (a n v : Nat) (x : Nat) : (s.wrN a n v).hqOf x = s.hqOf x := by simp [State.hqOf]
@[simp] theorem State.wrN_kv (a n v : Nat) (x : Nat) : (s.wrN a n v).kv x = s.kv x := by simp [State.kv]
@[simp] theorem State.wrN_job (a n v : Nat) (x : Nat) : (s.wrN a n v).job x = s.job x := by simp [State.job]
@[simp] theorem State.wrN_xc (a n v : Nat) (x : Nat) : (s.wrN a n v).xc x = s.xc x := by simp [State.xc]
@[simp] theorem State.wrN_thr (a n v : Nat) (x : Nat) : (s.wrN a n v).thr x = s.thr x := by simp [State.thr]
@[simp] theorem State.wrN_pt (a n v : Nat) (x : Nat) : (s.wrN a n v).pt x = s.pt x := by simp [State.pt]
@[simp] theorem State.wrN_rg (a n v : Nat) (x : Nat) : (s.wrN a n v).rg x = s.rg x := by simp [State.rg]
@[simp] theorem State.wrN_coreRegs (a n v : Nat) (x : Nat) : (s.wrN a n v).coreRegs x = s.coreRegs x := by simp [State.coreRegs]
@[simp] theorem State.wrN_stake (a n v : Nat) (x : Nat) : (s.wrN a n v).stake x = s.stake x := by simp [State.stake]
@[simp] theorem State.wrN_enabled (a n v : Nat) (x : Nat) : (s.wrN a n v).enabled x = s.enabled x := by simp [State.enabled]

/-! ### answer -/

@[simp] theorem State.answer_pending (r : Resp) : (s.answer r).pending = s.pending := rfl
@[simp] theorem State.answer_regs (r : Resp) : (s.answer r).regs = s.regs := rfl
@[simp] theorem State.answer_mem (r : Resp) : (s.answer r).mem = s.mem := rfl
@[simp] theorem State.answer_undef (r : Resp) : (s.answer r).undef = s.undef := rfl
@[simp] theorem State.answer_poison (r : Resp) : (s.answer r).poison = s.poison := rfl
@[simp] theorem State.answer_free (r : Resp) : (s.answer r).free = s.free := rfl
@[simp] theorem State.answer_lk (r : Resp) : (s.answer r).lk = s.lk := rfl
@[simp] theorem State.answer_weave (r : Resp) : (s.answer r).weave = s.weave := rfl
@[simp] theorem State.answer_fuses (r : Resp) : (s.answer r).fuses = s.fuses := rfl
@[simp] theorem State.answer_flash (r : Resp) : (s.answer r).flash = s.flash := rfl
@[simp] theorem State.answer_sec (r : Resp) : (s.answer r).sec = s.sec := rfl
@[simp] theorem State.answer_failEng (r : Resp) : (s.answer r).failEng = s.failEng := rfl
@[simp] theorem State.answer_failPvu (r : Resp) : (s.answer r).failPvu = s.failPvu := rfl
@[simp] theorem State.answer_failTc (r : Resp) : (s.answer r).failTc = s.failTc := rfl
@[simp] theorem State.answer_failQuay (r : Resp) : (s.answer r).failQuay = s.failQuay := rfl
@[simp] theorem State.answer_failCh (r : Resp) : (s.answer r).failCh = s.failCh := rfl
@[simp] theorem State.answer_psq (r : Resp) : (s.answer r).psq = s.psq := rfl
@[simp] theorem State.answer_slots (r : Resp) : (s.answer r).slots = s.slots := rfl
@[simp] theorem State.answer_pvu (r : Resp) : (s.answer r).pvu = s.pvu := rfl
@[simp] theorem State.answer_asu (r : Resp) : (s.answer r).asu = s.asu := rfl
@[simp] theorem State.answer_quay (r : Resp) : (s.answer r).quay = s.quay := rfl
@[simp] theorem State.answer_binds (r : Resp) : (s.answer r).binds = s.binds := rfl
@[simp] theorem State.answer_macs (r : Resp) : (s.answer r).macs = s.macs := rfl
@[simp] theorem State.answer_xch (r : Resp) : (s.answer r).xch = s.xch := rfl
@[simp] theorem State.answer_jobs (r : Resp) : (s.answer r).jobs = s.jobs := rfl
@[simp] theorem State.answer_port (r : Resp) : (s.answer r).port = s.port := rfl
@[simp] theorem State.answer_ring (r : Resp) : (s.answer r).ring = s.ring := rfl
@[simp] theorem State.answer_out (r : Resp) : (s.answer r).out = s.out := rfl
@[simp] theorem State.answer_msix (r : Resp) : (s.answer r).msix = s.msix := rfl
@[simp] theorem State.answer_pba (r : Resp) : (s.answer r).pba = s.pba := rfl
@[simp] theorem State.answer_added (r : Resp) : (s.answer r).added = s.added := rfl
@[simp] theorem State.answer_kvp (r : Resp) : (s.answer r).kvp = s.kvp := rfl
@[simp] theorem State.answer_thread (r : Resp) : (s.answer r).thread = s.thread := rfl
@[simp] theorem State.answer_l1 (r : Resp) : (s.answer r).l1 = s.l1 := rfl
@[simp] theorem State.answer_il1 (r : Resp) : (s.answer r).il1 = s.il1 := rfl
@[simp] theorem State.answer_wakes (r : Resp) : (s.answer r).wakes = s.wakes := rfl
@[simp] theorem State.answer_time (r : Resp) : (s.answer r).time = s.time := rfl
@[simp] theorem State.answer_core (r : Resp) : (s.answer r).core = s.core := rfl
@[simp] theorem State.answer_takes (r : Resp) : (s.answer r).takes = s.takes := rfl
@[simp] theorem State.answer_homes (r : Resp) : (s.answer r).homes = s.homes := rfl
@[simp] theorem State.answer_copies (r : Resp) : (s.answer r).copies = s.copies := rfl
@[simp] theorem State.answer_resv (r : Resp) : (s.answer r).resv = s.resv := rfl
@[simp] theorem State.answer_recs (r : Resp) : (s.answer r).recs = s.recs := rfl
@[simp] theorem State.answer_hq (r : Resp) : (s.answer r).hq = s.hq := rfl
@[simp] theorem State.answer_poolK (r : Resp) : (s.answer r).poolK = s.poolK := rfl
@[simp] theorem State.answer_poolEra (r : Resp) : (s.answer r).poolEra = s.poolEra := rfl
@[simp] theorem State.answer_pci (r : Resp) : (s.answer r).pci = s.pci := rfl
@[simp] theorem State.answer_replay (r : Resp) : (s.answer r).replay = s.replay := rfl
@[simp] theorem State.answer_reg (r : Resp) (x : Nat) : (s.answer r).reg x = s.reg x := rfl
@[simp] theorem State.answer_fld (r : Resp) (x : Nat) (g : Fld) : (s.answer r).fld x g = s.fld x g := rfl
@[simp] theorem State.answer_flag (r : Resp) (x : Nat) (g : Fld) : (s.answer r).flag x g = s.flag x g := rfl
@[simp] theorem State.answer_fldBit (r : Resp) (x : Nat) (g : Fld) (j : Nat) : (s.answer r).fldBit x g j = s.fldBit x g j := rfl
@[simp] theorem State.answer_q (r : Resp) (x : Nat) : (s.answer r).q x = s.q x := rfl
@[simp] theorem State.answer_pv (r : Resp) (x : Nat) : (s.answer r).pv x = s.pv x := rfl
@[simp] theorem State.answer_as (r : Resp) (x y : Nat) : (s.answer r).as x y = s.as x y := rfl
@[simp] theorem State.answer_qu (r : Resp) (x : Nat) : (s.answer r).qu x = s.qu x := rfl
@[simp] theorem State.answer_slot (r : Resp) (x y : Nat) : (s.answer r).slot x y = s.slot x y := rfl
@[simp] theorem State.answer_hqOf (r : Resp) (x : Nat) : (s.answer r).hqOf x = s.hqOf x := rfl
@[simp] theorem State.answer_kv (r : Resp) (x : Nat) : (s.answer r).kv x = s.kv x := rfl
@[simp] theorem State.answer_job (r : Resp) (x : Nat) : (s.answer r).job x = s.job x := rfl
@[simp] theorem State.answer_xc (r : Resp) (x : Nat) : (s.answer r).xc x = s.xc x := rfl
@[simp] theorem State.answer_home (r : Resp) (x : Nat) : (s.answer r).home x = s.home x := rfl
@[simp] theorem State.answer_thr (r : Resp) (x : Nat) : (s.answer r).thr x = s.thr x := rfl
@[simp] theorem State.answer_pt (r : Resp) (x : Nat) : (s.answer r).pt x = s.pt x := rfl
@[simp] theorem State.answer_rg (r : Resp) (x : Nat) : (s.answer r).rg x = s.rg x := rfl
@[simp] theorem State.answer_byte (r : Resp) (x : Nat) : (s.answer r).byte x = s.byte x := rfl
@[simp] theorem State.answer_coreRegs (r : Resp) (x : Nat) : (s.answer r).coreRegs x = s.coreRegs x := rfl
@[simp] theorem State.answer_stake (r : Resp) (x : Nat) : (s.answer r).stake x = s.stake x := rfl
@[simp] theorem State.answer_enabled (r : Resp) (x : Nat) : (s.answer r).enabled x = s.enabled x := rfl

/-! ### setQ -/

@[simp] theorem State.setQ_pending (k : Nat) (c : Psq) : (s.setQ k c).pending = s.pending := rfl
@[simp] theorem State.setQ_regs (k : Nat) (c : Psq) : (s.setQ k c).regs = s.regs := rfl
@[simp] theorem State.setQ_mem (k : Nat) (c : Psq) : (s.setQ k c).mem = s.mem := rfl
@[simp] theorem State.setQ_undef (k : Nat) (c : Psq) : (s.setQ k c).undef = s.undef := rfl
@[simp] theorem State.setQ_poison (k : Nat) (c : Psq) : (s.setQ k c).poison = s.poison := rfl
@[simp] theorem State.setQ_free (k : Nat) (c : Psq) : (s.setQ k c).free = s.free := rfl
@[simp] theorem State.setQ_resp (k : Nat) (c : Psq) : (s.setQ k c).resp = s.resp := rfl
@[simp] theorem State.setQ_lk (k : Nat) (c : Psq) : (s.setQ k c).lk = s.lk := rfl
@[simp] theorem State.setQ_weave (k : Nat) (c : Psq) : (s.setQ k c).weave = s.weave := rfl
@[simp] theorem State.setQ_fuses (k : Nat) (c : Psq) : (s.setQ k c).fuses = s.fuses := rfl
@[simp] theorem State.setQ_flash (k : Nat) (c : Psq) : (s.setQ k c).flash = s.flash := rfl
@[simp] theorem State.setQ_sec (k : Nat) (c : Psq) : (s.setQ k c).sec = s.sec := rfl
@[simp] theorem State.setQ_failEng (k : Nat) (c : Psq) : (s.setQ k c).failEng = s.failEng := rfl
@[simp] theorem State.setQ_failPvu (k : Nat) (c : Psq) : (s.setQ k c).failPvu = s.failPvu := rfl
@[simp] theorem State.setQ_failTc (k : Nat) (c : Psq) : (s.setQ k c).failTc = s.failTc := rfl
@[simp] theorem State.setQ_failQuay (k : Nat) (c : Psq) : (s.setQ k c).failQuay = s.failQuay := rfl
@[simp] theorem State.setQ_failCh (k : Nat) (c : Psq) : (s.setQ k c).failCh = s.failCh := rfl
@[simp] theorem State.setQ_slots (k : Nat) (c : Psq) : (s.setQ k c).slots = s.slots := rfl
@[simp] theorem State.setQ_pvu (k : Nat) (c : Psq) : (s.setQ k c).pvu = s.pvu := rfl
@[simp] theorem State.setQ_asu (k : Nat) (c : Psq) : (s.setQ k c).asu = s.asu := rfl
@[simp] theorem State.setQ_quay (k : Nat) (c : Psq) : (s.setQ k c).quay = s.quay := rfl
@[simp] theorem State.setQ_binds (k : Nat) (c : Psq) : (s.setQ k c).binds = s.binds := rfl
@[simp] theorem State.setQ_macs (k : Nat) (c : Psq) : (s.setQ k c).macs = s.macs := rfl
@[simp] theorem State.setQ_xch (k : Nat) (c : Psq) : (s.setQ k c).xch = s.xch := rfl
@[simp] theorem State.setQ_jobs (k : Nat) (c : Psq) : (s.setQ k c).jobs = s.jobs := rfl
@[simp] theorem State.setQ_port (k : Nat) (c : Psq) : (s.setQ k c).port = s.port := rfl
@[simp] theorem State.setQ_ring (k : Nat) (c : Psq) : (s.setQ k c).ring = s.ring := rfl
@[simp] theorem State.setQ_out (k : Nat) (c : Psq) : (s.setQ k c).out = s.out := rfl
@[simp] theorem State.setQ_msix (k : Nat) (c : Psq) : (s.setQ k c).msix = s.msix := rfl
@[simp] theorem State.setQ_pba (k : Nat) (c : Psq) : (s.setQ k c).pba = s.pba := rfl
@[simp] theorem State.setQ_added (k : Nat) (c : Psq) : (s.setQ k c).added = s.added := rfl
@[simp] theorem State.setQ_kvp (k : Nat) (c : Psq) : (s.setQ k c).kvp = s.kvp := rfl
@[simp] theorem State.setQ_thread (k : Nat) (c : Psq) : (s.setQ k c).thread = s.thread := rfl
@[simp] theorem State.setQ_l1 (k : Nat) (c : Psq) : (s.setQ k c).l1 = s.l1 := rfl
@[simp] theorem State.setQ_il1 (k : Nat) (c : Psq) : (s.setQ k c).il1 = s.il1 := rfl
@[simp] theorem State.setQ_wakes (k : Nat) (c : Psq) : (s.setQ k c).wakes = s.wakes := rfl
@[simp] theorem State.setQ_time (k : Nat) (c : Psq) : (s.setQ k c).time = s.time := rfl
@[simp] theorem State.setQ_core (k : Nat) (c : Psq) : (s.setQ k c).core = s.core := rfl
@[simp] theorem State.setQ_takes (k : Nat) (c : Psq) : (s.setQ k c).takes = s.takes := rfl
@[simp] theorem State.setQ_homes (k : Nat) (c : Psq) : (s.setQ k c).homes = s.homes := rfl
@[simp] theorem State.setQ_copies (k : Nat) (c : Psq) : (s.setQ k c).copies = s.copies := rfl
@[simp] theorem State.setQ_resv (k : Nat) (c : Psq) : (s.setQ k c).resv = s.resv := rfl
@[simp] theorem State.setQ_recs (k : Nat) (c : Psq) : (s.setQ k c).recs = s.recs := rfl
@[simp] theorem State.setQ_hq (k : Nat) (c : Psq) : (s.setQ k c).hq = s.hq := rfl
@[simp] theorem State.setQ_poolK (k : Nat) (c : Psq) : (s.setQ k c).poolK = s.poolK := rfl
@[simp] theorem State.setQ_poolEra (k : Nat) (c : Psq) : (s.setQ k c).poolEra = s.poolEra := rfl
@[simp] theorem State.setQ_pci (k : Nat) (c : Psq) : (s.setQ k c).pci = s.pci := rfl
@[simp] theorem State.setQ_replay (k : Nat) (c : Psq) : (s.setQ k c).replay = s.replay := rfl
@[simp] theorem State.setQ_reg (k : Nat) (c : Psq) (x : Nat) : (s.setQ k c).reg x = s.reg x := rfl
@[simp] theorem State.setQ_fld (k : Nat) (c : Psq) (x : Nat) (g : Fld) : (s.setQ k c).fld x g = s.fld x g := rfl
@[simp] theorem State.setQ_flag (k : Nat) (c : Psq) (x : Nat) (g : Fld) : (s.setQ k c).flag x g = s.flag x g := rfl
@[simp] theorem State.setQ_fldBit (k : Nat) (c : Psq) (x : Nat) (g : Fld) (j : Nat) : (s.setQ k c).fldBit x g j = s.fldBit x g j := rfl
@[simp] theorem State.setQ_pv (k : Nat) (c : Psq) (x : Nat) : (s.setQ k c).pv x = s.pv x := rfl
@[simp] theorem State.setQ_as (k : Nat) (c : Psq) (x y : Nat) : (s.setQ k c).as x y = s.as x y := rfl
@[simp] theorem State.setQ_qu (k : Nat) (c : Psq) (x : Nat) : (s.setQ k c).qu x = s.qu x := rfl
@[simp] theorem State.setQ_slot (k : Nat) (c : Psq) (x y : Nat) : (s.setQ k c).slot x y = s.slot x y := rfl
@[simp] theorem State.setQ_hqOf (k : Nat) (c : Psq) (x : Nat) : (s.setQ k c).hqOf x = s.hqOf x := rfl
@[simp] theorem State.setQ_kv (k : Nat) (c : Psq) (x : Nat) : (s.setQ k c).kv x = s.kv x := rfl
@[simp] theorem State.setQ_job (k : Nat) (c : Psq) (x : Nat) : (s.setQ k c).job x = s.job x := rfl
@[simp] theorem State.setQ_xc (k : Nat) (c : Psq) (x : Nat) : (s.setQ k c).xc x = s.xc x := rfl
@[simp] theorem State.setQ_home (k : Nat) (c : Psq) (x : Nat) : (s.setQ k c).home x = s.home x := rfl
@[simp] theorem State.setQ_thr (k : Nat) (c : Psq) (x : Nat) : (s.setQ k c).thr x = s.thr x := rfl
@[simp] theorem State.setQ_pt (k : Nat) (c : Psq) (x : Nat) : (s.setQ k c).pt x = s.pt x := rfl
@[simp] theorem State.setQ_rg (k : Nat) (c : Psq) (x : Nat) : (s.setQ k c).rg x = s.rg x := rfl
@[simp] theorem State.setQ_byte (k : Nat) (c : Psq) (x : Nat) : (s.setQ k c).byte x = s.byte x := rfl
@[simp] theorem State.setQ_coreRegs (k : Nat) (c : Psq) (x : Nat) : (s.setQ k c).coreRegs x = s.coreRegs x := rfl
@[simp] theorem State.setQ_stake (k : Nat) (c : Psq) (x : Nat) : (s.setQ k c).stake x = s.stake x := rfl
@[simp] theorem State.setQ_enabled (k : Nat) (c : Psq) (x : Nat) : (s.setQ k c).enabled x = s.enabled x := rfl

/-! ### setPv -/

@[simp] theorem State.setPv_pending (k : Nat) (c : Pvu) : (s.setPv k c).pending = s.pending := rfl
@[simp] theorem State.setPv_regs (k : Nat) (c : Pvu) : (s.setPv k c).regs = s.regs := rfl
@[simp] theorem State.setPv_mem (k : Nat) (c : Pvu) : (s.setPv k c).mem = s.mem := rfl
@[simp] theorem State.setPv_undef (k : Nat) (c : Pvu) : (s.setPv k c).undef = s.undef := rfl
@[simp] theorem State.setPv_poison (k : Nat) (c : Pvu) : (s.setPv k c).poison = s.poison := rfl
@[simp] theorem State.setPv_free (k : Nat) (c : Pvu) : (s.setPv k c).free = s.free := rfl
@[simp] theorem State.setPv_resp (k : Nat) (c : Pvu) : (s.setPv k c).resp = s.resp := rfl
@[simp] theorem State.setPv_lk (k : Nat) (c : Pvu) : (s.setPv k c).lk = s.lk := rfl
@[simp] theorem State.setPv_weave (k : Nat) (c : Pvu) : (s.setPv k c).weave = s.weave := rfl
@[simp] theorem State.setPv_fuses (k : Nat) (c : Pvu) : (s.setPv k c).fuses = s.fuses := rfl
@[simp] theorem State.setPv_flash (k : Nat) (c : Pvu) : (s.setPv k c).flash = s.flash := rfl
@[simp] theorem State.setPv_sec (k : Nat) (c : Pvu) : (s.setPv k c).sec = s.sec := rfl
@[simp] theorem State.setPv_failEng (k : Nat) (c : Pvu) : (s.setPv k c).failEng = s.failEng := rfl
@[simp] theorem State.setPv_failPvu (k : Nat) (c : Pvu) : (s.setPv k c).failPvu = s.failPvu := rfl
@[simp] theorem State.setPv_failTc (k : Nat) (c : Pvu) : (s.setPv k c).failTc = s.failTc := rfl
@[simp] theorem State.setPv_failQuay (k : Nat) (c : Pvu) : (s.setPv k c).failQuay = s.failQuay := rfl
@[simp] theorem State.setPv_failCh (k : Nat) (c : Pvu) : (s.setPv k c).failCh = s.failCh := rfl
@[simp] theorem State.setPv_psq (k : Nat) (c : Pvu) : (s.setPv k c).psq = s.psq := rfl
@[simp] theorem State.setPv_slots (k : Nat) (c : Pvu) : (s.setPv k c).slots = s.slots := rfl
@[simp] theorem State.setPv_asu (k : Nat) (c : Pvu) : (s.setPv k c).asu = s.asu := rfl
@[simp] theorem State.setPv_quay (k : Nat) (c : Pvu) : (s.setPv k c).quay = s.quay := rfl
@[simp] theorem State.setPv_binds (k : Nat) (c : Pvu) : (s.setPv k c).binds = s.binds := rfl
@[simp] theorem State.setPv_macs (k : Nat) (c : Pvu) : (s.setPv k c).macs = s.macs := rfl
@[simp] theorem State.setPv_xch (k : Nat) (c : Pvu) : (s.setPv k c).xch = s.xch := rfl
@[simp] theorem State.setPv_jobs (k : Nat) (c : Pvu) : (s.setPv k c).jobs = s.jobs := rfl
@[simp] theorem State.setPv_port (k : Nat) (c : Pvu) : (s.setPv k c).port = s.port := rfl
@[simp] theorem State.setPv_ring (k : Nat) (c : Pvu) : (s.setPv k c).ring = s.ring := rfl
@[simp] theorem State.setPv_out (k : Nat) (c : Pvu) : (s.setPv k c).out = s.out := rfl
@[simp] theorem State.setPv_msix (k : Nat) (c : Pvu) : (s.setPv k c).msix = s.msix := rfl
@[simp] theorem State.setPv_pba (k : Nat) (c : Pvu) : (s.setPv k c).pba = s.pba := rfl
@[simp] theorem State.setPv_added (k : Nat) (c : Pvu) : (s.setPv k c).added = s.added := rfl
@[simp] theorem State.setPv_kvp (k : Nat) (c : Pvu) : (s.setPv k c).kvp = s.kvp := rfl
@[simp] theorem State.setPv_thread (k : Nat) (c : Pvu) : (s.setPv k c).thread = s.thread := rfl
@[simp] theorem State.setPv_l1 (k : Nat) (c : Pvu) : (s.setPv k c).l1 = s.l1 := rfl
@[simp] theorem State.setPv_il1 (k : Nat) (c : Pvu) : (s.setPv k c).il1 = s.il1 := rfl
@[simp] theorem State.setPv_wakes (k : Nat) (c : Pvu) : (s.setPv k c).wakes = s.wakes := rfl
@[simp] theorem State.setPv_time (k : Nat) (c : Pvu) : (s.setPv k c).time = s.time := rfl
@[simp] theorem State.setPv_core (k : Nat) (c : Pvu) : (s.setPv k c).core = s.core := rfl
@[simp] theorem State.setPv_takes (k : Nat) (c : Pvu) : (s.setPv k c).takes = s.takes := rfl
@[simp] theorem State.setPv_homes (k : Nat) (c : Pvu) : (s.setPv k c).homes = s.homes := rfl
@[simp] theorem State.setPv_copies (k : Nat) (c : Pvu) : (s.setPv k c).copies = s.copies := rfl
@[simp] theorem State.setPv_resv (k : Nat) (c : Pvu) : (s.setPv k c).resv = s.resv := rfl
@[simp] theorem State.setPv_recs (k : Nat) (c : Pvu) : (s.setPv k c).recs = s.recs := rfl
@[simp] theorem State.setPv_hq (k : Nat) (c : Pvu) : (s.setPv k c).hq = s.hq := rfl
@[simp] theorem State.setPv_poolK (k : Nat) (c : Pvu) : (s.setPv k c).poolK = s.poolK := rfl
@[simp] theorem State.setPv_poolEra (k : Nat) (c : Pvu) : (s.setPv k c).poolEra = s.poolEra := rfl
@[simp] theorem State.setPv_pci (k : Nat) (c : Pvu) : (s.setPv k c).pci = s.pci := rfl
@[simp] theorem State.setPv_replay (k : Nat) (c : Pvu) : (s.setPv k c).replay = s.replay := rfl
@[simp] theorem State.setPv_reg (k : Nat) (c : Pvu) (x : Nat) : (s.setPv k c).reg x = s.reg x := rfl
@[simp] theorem State.setPv_fld (k : Nat) (c : Pvu) (x : Nat) (g : Fld) : (s.setPv k c).fld x g = s.fld x g := rfl
@[simp] theorem State.setPv_flag (k : Nat) (c : Pvu) (x : Nat) (g : Fld) : (s.setPv k c).flag x g = s.flag x g := rfl
@[simp] theorem State.setPv_fldBit (k : Nat) (c : Pvu) (x : Nat) (g : Fld) (j : Nat) : (s.setPv k c).fldBit x g j = s.fldBit x g j := rfl
@[simp] theorem State.setPv_q (k : Nat) (c : Pvu) (x : Nat) : (s.setPv k c).q x = s.q x := rfl
@[simp] theorem State.setPv_as (k : Nat) (c : Pvu) (x y : Nat) : (s.setPv k c).as x y = s.as x y := rfl
@[simp] theorem State.setPv_qu (k : Nat) (c : Pvu) (x : Nat) : (s.setPv k c).qu x = s.qu x := rfl
@[simp] theorem State.setPv_slot (k : Nat) (c : Pvu) (x y : Nat) : (s.setPv k c).slot x y = s.slot x y := rfl
@[simp] theorem State.setPv_hqOf (k : Nat) (c : Pvu) (x : Nat) : (s.setPv k c).hqOf x = s.hqOf x := rfl
@[simp] theorem State.setPv_kv (k : Nat) (c : Pvu) (x : Nat) : (s.setPv k c).kv x = s.kv x := rfl
@[simp] theorem State.setPv_job (k : Nat) (c : Pvu) (x : Nat) : (s.setPv k c).job x = s.job x := rfl
@[simp] theorem State.setPv_xc (k : Nat) (c : Pvu) (x : Nat) : (s.setPv k c).xc x = s.xc x := rfl
@[simp] theorem State.setPv_home (k : Nat) (c : Pvu) (x : Nat) : (s.setPv k c).home x = s.home x := rfl
@[simp] theorem State.setPv_thr (k : Nat) (c : Pvu) (x : Nat) : (s.setPv k c).thr x = s.thr x := rfl
@[simp] theorem State.setPv_pt (k : Nat) (c : Pvu) (x : Nat) : (s.setPv k c).pt x = s.pt x := rfl
@[simp] theorem State.setPv_rg (k : Nat) (c : Pvu) (x : Nat) : (s.setPv k c).rg x = s.rg x := rfl
@[simp] theorem State.setPv_byte (k : Nat) (c : Pvu) (x : Nat) : (s.setPv k c).byte x = s.byte x := rfl
@[simp] theorem State.setPv_coreRegs (k : Nat) (c : Pvu) (x : Nat) : (s.setPv k c).coreRegs x = s.coreRegs x := rfl
@[simp] theorem State.setPv_stake (k : Nat) (c : Pvu) (x : Nat) : (s.setPv k c).stake x = s.stake x := rfl
@[simp] theorem State.setPv_enabled (k : Nat) (c : Pvu) (x : Nat) : (s.setPv k c).enabled x = s.enabled x := rfl

/-! ### setAs -/

@[simp] theorem State.setAs_pending (d k : Nat) (c : Asu) : (s.setAs d k c).pending = s.pending := rfl
@[simp] theorem State.setAs_regs (d k : Nat) (c : Asu) : (s.setAs d k c).regs = s.regs := rfl
@[simp] theorem State.setAs_mem (d k : Nat) (c : Asu) : (s.setAs d k c).mem = s.mem := rfl
@[simp] theorem State.setAs_undef (d k : Nat) (c : Asu) : (s.setAs d k c).undef = s.undef := rfl
@[simp] theorem State.setAs_poison (d k : Nat) (c : Asu) : (s.setAs d k c).poison = s.poison := rfl
@[simp] theorem State.setAs_free (d k : Nat) (c : Asu) : (s.setAs d k c).free = s.free := rfl
@[simp] theorem State.setAs_resp (d k : Nat) (c : Asu) : (s.setAs d k c).resp = s.resp := rfl
@[simp] theorem State.setAs_lk (d k : Nat) (c : Asu) : (s.setAs d k c).lk = s.lk := rfl
@[simp] theorem State.setAs_weave (d k : Nat) (c : Asu) : (s.setAs d k c).weave = s.weave := rfl
@[simp] theorem State.setAs_fuses (d k : Nat) (c : Asu) : (s.setAs d k c).fuses = s.fuses := rfl
@[simp] theorem State.setAs_flash (d k : Nat) (c : Asu) : (s.setAs d k c).flash = s.flash := rfl
@[simp] theorem State.setAs_sec (d k : Nat) (c : Asu) : (s.setAs d k c).sec = s.sec := rfl
@[simp] theorem State.setAs_failEng (d k : Nat) (c : Asu) : (s.setAs d k c).failEng = s.failEng := rfl
@[simp] theorem State.setAs_failPvu (d k : Nat) (c : Asu) : (s.setAs d k c).failPvu = s.failPvu := rfl
@[simp] theorem State.setAs_failTc (d k : Nat) (c : Asu) : (s.setAs d k c).failTc = s.failTc := rfl
@[simp] theorem State.setAs_failQuay (d k : Nat) (c : Asu) : (s.setAs d k c).failQuay = s.failQuay := rfl
@[simp] theorem State.setAs_failCh (d k : Nat) (c : Asu) : (s.setAs d k c).failCh = s.failCh := rfl
@[simp] theorem State.setAs_psq (d k : Nat) (c : Asu) : (s.setAs d k c).psq = s.psq := rfl
@[simp] theorem State.setAs_slots (d k : Nat) (c : Asu) : (s.setAs d k c).slots = s.slots := rfl
@[simp] theorem State.setAs_pvu (d k : Nat) (c : Asu) : (s.setAs d k c).pvu = s.pvu := rfl
@[simp] theorem State.setAs_quay (d k : Nat) (c : Asu) : (s.setAs d k c).quay = s.quay := rfl
@[simp] theorem State.setAs_binds (d k : Nat) (c : Asu) : (s.setAs d k c).binds = s.binds := rfl
@[simp] theorem State.setAs_macs (d k : Nat) (c : Asu) : (s.setAs d k c).macs = s.macs := rfl
@[simp] theorem State.setAs_xch (d k : Nat) (c : Asu) : (s.setAs d k c).xch = s.xch := rfl
@[simp] theorem State.setAs_jobs (d k : Nat) (c : Asu) : (s.setAs d k c).jobs = s.jobs := rfl
@[simp] theorem State.setAs_port (d k : Nat) (c : Asu) : (s.setAs d k c).port = s.port := rfl
@[simp] theorem State.setAs_ring (d k : Nat) (c : Asu) : (s.setAs d k c).ring = s.ring := rfl
@[simp] theorem State.setAs_out (d k : Nat) (c : Asu) : (s.setAs d k c).out = s.out := rfl
@[simp] theorem State.setAs_msix (d k : Nat) (c : Asu) : (s.setAs d k c).msix = s.msix := rfl
@[simp] theorem State.setAs_pba (d k : Nat) (c : Asu) : (s.setAs d k c).pba = s.pba := rfl
@[simp] theorem State.setAs_added (d k : Nat) (c : Asu) : (s.setAs d k c).added = s.added := rfl
@[simp] theorem State.setAs_kvp (d k : Nat) (c : Asu) : (s.setAs d k c).kvp = s.kvp := rfl
@[simp] theorem State.setAs_thread (d k : Nat) (c : Asu) : (s.setAs d k c).thread = s.thread := rfl
@[simp] theorem State.setAs_l1 (d k : Nat) (c : Asu) : (s.setAs d k c).l1 = s.l1 := rfl
@[simp] theorem State.setAs_il1 (d k : Nat) (c : Asu) : (s.setAs d k c).il1 = s.il1 := rfl
@[simp] theorem State.setAs_wakes (d k : Nat) (c : Asu) : (s.setAs d k c).wakes = s.wakes := rfl
@[simp] theorem State.setAs_time (d k : Nat) (c : Asu) : (s.setAs d k c).time = s.time := rfl
@[simp] theorem State.setAs_core (d k : Nat) (c : Asu) : (s.setAs d k c).core = s.core := rfl
@[simp] theorem State.setAs_takes (d k : Nat) (c : Asu) : (s.setAs d k c).takes = s.takes := rfl
@[simp] theorem State.setAs_homes (d k : Nat) (c : Asu) : (s.setAs d k c).homes = s.homes := rfl
@[simp] theorem State.setAs_copies (d k : Nat) (c : Asu) : (s.setAs d k c).copies = s.copies := rfl
@[simp] theorem State.setAs_resv (d k : Nat) (c : Asu) : (s.setAs d k c).resv = s.resv := rfl
@[simp] theorem State.setAs_recs (d k : Nat) (c : Asu) : (s.setAs d k c).recs = s.recs := rfl
@[simp] theorem State.setAs_hq (d k : Nat) (c : Asu) : (s.setAs d k c).hq = s.hq := rfl
@[simp] theorem State.setAs_poolK (d k : Nat) (c : Asu) : (s.setAs d k c).poolK = s.poolK := rfl
@[simp] theorem State.setAs_poolEra (d k : Nat) (c : Asu) : (s.setAs d k c).poolEra = s.poolEra := rfl
@[simp] theorem State.setAs_pci (d k : Nat) (c : Asu) : (s.setAs d k c).pci = s.pci := rfl
@[simp] theorem State.setAs_replay (d k : Nat) (c : Asu) : (s.setAs d k c).replay = s.replay := rfl
@[simp] theorem State.setAs_reg (d k : Nat) (c : Asu) (x : Nat) : (s.setAs d k c).reg x = s.reg x := rfl
@[simp] theorem State.setAs_fld (d k : Nat) (c : Asu) (x : Nat) (g : Fld) : (s.setAs d k c).fld x g = s.fld x g := rfl
@[simp] theorem State.setAs_flag (d k : Nat) (c : Asu) (x : Nat) (g : Fld) : (s.setAs d k c).flag x g = s.flag x g := rfl
@[simp] theorem State.setAs_fldBit (d k : Nat) (c : Asu) (x : Nat) (g : Fld) (j : Nat) : (s.setAs d k c).fldBit x g j = s.fldBit x g j := rfl
@[simp] theorem State.setAs_q (d k : Nat) (c : Asu) (x : Nat) : (s.setAs d k c).q x = s.q x := rfl
@[simp] theorem State.setAs_pv (d k : Nat) (c : Asu) (x : Nat) : (s.setAs d k c).pv x = s.pv x := rfl
@[simp] theorem State.setAs_qu (d k : Nat) (c : Asu) (x : Nat) : (s.setAs d k c).qu x = s.qu x := rfl
@[simp] theorem State.setAs_slot (d k : Nat) (c : Asu) (x y : Nat) : (s.setAs d k c).slot x y = s.slot x y := rfl
@[simp] theorem State.setAs_hqOf (d k : Nat) (c : Asu) (x : Nat) : (s.setAs d k c).hqOf x = s.hqOf x := rfl
@[simp] theorem State.setAs_kv (d k : Nat) (c : Asu) (x : Nat) : (s.setAs d k c).kv x = s.kv x := rfl
@[simp] theorem State.setAs_job (d k : Nat) (c : Asu) (x : Nat) : (s.setAs d k c).job x = s.job x := rfl
@[simp] theorem State.setAs_xc (d k : Nat) (c : Asu) (x : Nat) : (s.setAs d k c).xc x = s.xc x := rfl
@[simp] theorem State.setAs_home (d k : Nat) (c : Asu) (x : Nat) : (s.setAs d k c).home x = s.home x := rfl
@[simp] theorem State.setAs_thr (d k : Nat) (c : Asu) (x : Nat) : (s.setAs d k c).thr x = s.thr x := rfl
@[simp] theorem State.setAs_pt (d k : Nat) (c : Asu) (x : Nat) : (s.setAs d k c).pt x = s.pt x := rfl
@[simp] theorem State.setAs_rg (d k : Nat) (c : Asu) (x : Nat) : (s.setAs d k c).rg x = s.rg x := rfl
@[simp] theorem State.setAs_byte (d k : Nat) (c : Asu) (x : Nat) : (s.setAs d k c).byte x = s.byte x := rfl
@[simp] theorem State.setAs_coreRegs (d k : Nat) (c : Asu) (x : Nat) : (s.setAs d k c).coreRegs x = s.coreRegs x := rfl
@[simp] theorem State.setAs_stake (d k : Nat) (c : Asu) (x : Nat) : (s.setAs d k c).stake x = s.stake x := rfl
@[simp] theorem State.setAs_enabled (d k : Nat) (c : Asu) (x : Nat) : (s.setAs d k c).enabled x = s.enabled x := rfl

/-! ### setQu -/

@[simp] theorem State.setQu_pending (k : Nat) (c : Quay) : (s.setQu k c).pending = s.pending := rfl
@[simp] theorem State.setQu_regs (k : Nat) (c : Quay) : (s.setQu k c).regs = s.regs := rfl
@[simp] theorem State.setQu_mem (k : Nat) (c : Quay) : (s.setQu k c).mem = s.mem := rfl
@[simp] theorem State.setQu_undef (k : Nat) (c : Quay) : (s.setQu k c).undef = s.undef := rfl
@[simp] theorem State.setQu_poison (k : Nat) (c : Quay) : (s.setQu k c).poison = s.poison := rfl
@[simp] theorem State.setQu_free (k : Nat) (c : Quay) : (s.setQu k c).free = s.free := rfl
@[simp] theorem State.setQu_resp (k : Nat) (c : Quay) : (s.setQu k c).resp = s.resp := rfl
@[simp] theorem State.setQu_lk (k : Nat) (c : Quay) : (s.setQu k c).lk = s.lk := rfl
@[simp] theorem State.setQu_weave (k : Nat) (c : Quay) : (s.setQu k c).weave = s.weave := rfl
@[simp] theorem State.setQu_fuses (k : Nat) (c : Quay) : (s.setQu k c).fuses = s.fuses := rfl
@[simp] theorem State.setQu_flash (k : Nat) (c : Quay) : (s.setQu k c).flash = s.flash := rfl
@[simp] theorem State.setQu_sec (k : Nat) (c : Quay) : (s.setQu k c).sec = s.sec := rfl
@[simp] theorem State.setQu_failEng (k : Nat) (c : Quay) : (s.setQu k c).failEng = s.failEng := rfl
@[simp] theorem State.setQu_failPvu (k : Nat) (c : Quay) : (s.setQu k c).failPvu = s.failPvu := rfl
@[simp] theorem State.setQu_failTc (k : Nat) (c : Quay) : (s.setQu k c).failTc = s.failTc := rfl
@[simp] theorem State.setQu_failQuay (k : Nat) (c : Quay) : (s.setQu k c).failQuay = s.failQuay := rfl
@[simp] theorem State.setQu_failCh (k : Nat) (c : Quay) : (s.setQu k c).failCh = s.failCh := rfl
@[simp] theorem State.setQu_psq (k : Nat) (c : Quay) : (s.setQu k c).psq = s.psq := rfl
@[simp] theorem State.setQu_slots (k : Nat) (c : Quay) : (s.setQu k c).slots = s.slots := rfl
@[simp] theorem State.setQu_pvu (k : Nat) (c : Quay) : (s.setQu k c).pvu = s.pvu := rfl
@[simp] theorem State.setQu_asu (k : Nat) (c : Quay) : (s.setQu k c).asu = s.asu := rfl
@[simp] theorem State.setQu_binds (k : Nat) (c : Quay) : (s.setQu k c).binds = s.binds := rfl
@[simp] theorem State.setQu_macs (k : Nat) (c : Quay) : (s.setQu k c).macs = s.macs := rfl
@[simp] theorem State.setQu_xch (k : Nat) (c : Quay) : (s.setQu k c).xch = s.xch := rfl
@[simp] theorem State.setQu_jobs (k : Nat) (c : Quay) : (s.setQu k c).jobs = s.jobs := rfl
@[simp] theorem State.setQu_port (k : Nat) (c : Quay) : (s.setQu k c).port = s.port := rfl
@[simp] theorem State.setQu_ring (k : Nat) (c : Quay) : (s.setQu k c).ring = s.ring := rfl
@[simp] theorem State.setQu_out (k : Nat) (c : Quay) : (s.setQu k c).out = s.out := rfl
@[simp] theorem State.setQu_msix (k : Nat) (c : Quay) : (s.setQu k c).msix = s.msix := rfl
@[simp] theorem State.setQu_pba (k : Nat) (c : Quay) : (s.setQu k c).pba = s.pba := rfl
@[simp] theorem State.setQu_added (k : Nat) (c : Quay) : (s.setQu k c).added = s.added := rfl
@[simp] theorem State.setQu_kvp (k : Nat) (c : Quay) : (s.setQu k c).kvp = s.kvp := rfl
@[simp] theorem State.setQu_thread (k : Nat) (c : Quay) : (s.setQu k c).thread = s.thread := rfl
@[simp] theorem State.setQu_l1 (k : Nat) (c : Quay) : (s.setQu k c).l1 = s.l1 := rfl
@[simp] theorem State.setQu_il1 (k : Nat) (c : Quay) : (s.setQu k c).il1 = s.il1 := rfl
@[simp] theorem State.setQu_wakes (k : Nat) (c : Quay) : (s.setQu k c).wakes = s.wakes := rfl
@[simp] theorem State.setQu_time (k : Nat) (c : Quay) : (s.setQu k c).time = s.time := rfl
@[simp] theorem State.setQu_core (k : Nat) (c : Quay) : (s.setQu k c).core = s.core := rfl
@[simp] theorem State.setQu_takes (k : Nat) (c : Quay) : (s.setQu k c).takes = s.takes := rfl
@[simp] theorem State.setQu_homes (k : Nat) (c : Quay) : (s.setQu k c).homes = s.homes := rfl
@[simp] theorem State.setQu_copies (k : Nat) (c : Quay) : (s.setQu k c).copies = s.copies := rfl
@[simp] theorem State.setQu_resv (k : Nat) (c : Quay) : (s.setQu k c).resv = s.resv := rfl
@[simp] theorem State.setQu_recs (k : Nat) (c : Quay) : (s.setQu k c).recs = s.recs := rfl
@[simp] theorem State.setQu_hq (k : Nat) (c : Quay) : (s.setQu k c).hq = s.hq := rfl
@[simp] theorem State.setQu_poolK (k : Nat) (c : Quay) : (s.setQu k c).poolK = s.poolK := rfl
@[simp] theorem State.setQu_poolEra (k : Nat) (c : Quay) : (s.setQu k c).poolEra = s.poolEra := rfl
@[simp] theorem State.setQu_pci (k : Nat) (c : Quay) : (s.setQu k c).pci = s.pci := rfl
@[simp] theorem State.setQu_replay (k : Nat) (c : Quay) : (s.setQu k c).replay = s.replay := rfl
@[simp] theorem State.setQu_reg (k : Nat) (c : Quay) (x : Nat) : (s.setQu k c).reg x = s.reg x := rfl
@[simp] theorem State.setQu_fld (k : Nat) (c : Quay) (x : Nat) (g : Fld) : (s.setQu k c).fld x g = s.fld x g := rfl
@[simp] theorem State.setQu_flag (k : Nat) (c : Quay) (x : Nat) (g : Fld) : (s.setQu k c).flag x g = s.flag x g := rfl
@[simp] theorem State.setQu_fldBit (k : Nat) (c : Quay) (x : Nat) (g : Fld) (j : Nat) : (s.setQu k c).fldBit x g j = s.fldBit x g j := rfl
@[simp] theorem State.setQu_q (k : Nat) (c : Quay) (x : Nat) : (s.setQu k c).q x = s.q x := rfl
@[simp] theorem State.setQu_pv (k : Nat) (c : Quay) (x : Nat) : (s.setQu k c).pv x = s.pv x := rfl
@[simp] theorem State.setQu_as (k : Nat) (c : Quay) (x y : Nat) : (s.setQu k c).as x y = s.as x y := rfl
@[simp] theorem State.setQu_slot (k : Nat) (c : Quay) (x y : Nat) : (s.setQu k c).slot x y = s.slot x y := rfl
@[simp] theorem State.setQu_hqOf (k : Nat) (c : Quay) (x : Nat) : (s.setQu k c).hqOf x = s.hqOf x := rfl
@[simp] theorem State.setQu_kv (k : Nat) (c : Quay) (x : Nat) : (s.setQu k c).kv x = s.kv x := rfl
@[simp] theorem State.setQu_job (k : Nat) (c : Quay) (x : Nat) : (s.setQu k c).job x = s.job x := rfl
@[simp] theorem State.setQu_xc (k : Nat) (c : Quay) (x : Nat) : (s.setQu k c).xc x = s.xc x := rfl
@[simp] theorem State.setQu_home (k : Nat) (c : Quay) (x : Nat) : (s.setQu k c).home x = s.home x := rfl
@[simp] theorem State.setQu_thr (k : Nat) (c : Quay) (x : Nat) : (s.setQu k c).thr x = s.thr x := rfl
@[simp] theorem State.setQu_pt (k : Nat) (c : Quay) (x : Nat) : (s.setQu k c).pt x = s.pt x := rfl
@[simp] theorem State.setQu_rg (k : Nat) (c : Quay) (x : Nat) : (s.setQu k c).rg x = s.rg x := rfl
@[simp] theorem State.setQu_byte (k : Nat) (c : Quay) (x : Nat) : (s.setQu k c).byte x = s.byte x := rfl
@[simp] theorem State.setQu_coreRegs (k : Nat) (c : Quay) (x : Nat) : (s.setQu k c).coreRegs x = s.coreRegs x := rfl
@[simp] theorem State.setQu_stake (k : Nat) (c : Quay) (x : Nat) : (s.setQu k c).stake x = s.stake x := rfl
@[simp] theorem State.setQu_enabled (k : Nat) (c : Quay) (x : Nat) : (s.setQu k c).enabled x = s.enabled x := rfl

/-! ### setSlot -/

@[simp] theorem State.setSlot_pending (k i : Nat) (v : Slot) : (s.setSlot k i v).pending = s.pending := rfl
@[simp] theorem State.setSlot_regs (k i : Nat) (v : Slot) : (s.setSlot k i v).regs = s.regs := rfl
@[simp] theorem State.setSlot_mem (k i : Nat) (v : Slot) : (s.setSlot k i v).mem = s.mem := rfl
@[simp] theorem State.setSlot_undef (k i : Nat) (v : Slot) : (s.setSlot k i v).undef = s.undef := rfl
@[simp] theorem State.setSlot_poison (k i : Nat) (v : Slot) : (s.setSlot k i v).poison = s.poison := rfl
@[simp] theorem State.setSlot_free (k i : Nat) (v : Slot) : (s.setSlot k i v).free = s.free := rfl
@[simp] theorem State.setSlot_resp (k i : Nat) (v : Slot) : (s.setSlot k i v).resp = s.resp := rfl
@[simp] theorem State.setSlot_lk (k i : Nat) (v : Slot) : (s.setSlot k i v).lk = s.lk := rfl
@[simp] theorem State.setSlot_weave (k i : Nat) (v : Slot) : (s.setSlot k i v).weave = s.weave := rfl
@[simp] theorem State.setSlot_fuses (k i : Nat) (v : Slot) : (s.setSlot k i v).fuses = s.fuses := rfl
@[simp] theorem State.setSlot_flash (k i : Nat) (v : Slot) : (s.setSlot k i v).flash = s.flash := rfl
@[simp] theorem State.setSlot_sec (k i : Nat) (v : Slot) : (s.setSlot k i v).sec = s.sec := rfl
@[simp] theorem State.setSlot_failEng (k i : Nat) (v : Slot) : (s.setSlot k i v).failEng = s.failEng := rfl
@[simp] theorem State.setSlot_failPvu (k i : Nat) (v : Slot) : (s.setSlot k i v).failPvu = s.failPvu := rfl
@[simp] theorem State.setSlot_failTc (k i : Nat) (v : Slot) : (s.setSlot k i v).failTc = s.failTc := rfl
@[simp] theorem State.setSlot_failQuay (k i : Nat) (v : Slot) : (s.setSlot k i v).failQuay = s.failQuay := rfl
@[simp] theorem State.setSlot_failCh (k i : Nat) (v : Slot) : (s.setSlot k i v).failCh = s.failCh := rfl
@[simp] theorem State.setSlot_psq (k i : Nat) (v : Slot) : (s.setSlot k i v).psq = s.psq := rfl
@[simp] theorem State.setSlot_pvu (k i : Nat) (v : Slot) : (s.setSlot k i v).pvu = s.pvu := rfl
@[simp] theorem State.setSlot_asu (k i : Nat) (v : Slot) : (s.setSlot k i v).asu = s.asu := rfl
@[simp] theorem State.setSlot_quay (k i : Nat) (v : Slot) : (s.setSlot k i v).quay = s.quay := rfl
@[simp] theorem State.setSlot_binds (k i : Nat) (v : Slot) : (s.setSlot k i v).binds = s.binds := rfl
@[simp] theorem State.setSlot_macs (k i : Nat) (v : Slot) : (s.setSlot k i v).macs = s.macs := rfl
@[simp] theorem State.setSlot_xch (k i : Nat) (v : Slot) : (s.setSlot k i v).xch = s.xch := rfl
@[simp] theorem State.setSlot_jobs (k i : Nat) (v : Slot) : (s.setSlot k i v).jobs = s.jobs := rfl
@[simp] theorem State.setSlot_port (k i : Nat) (v : Slot) : (s.setSlot k i v).port = s.port := rfl
@[simp] theorem State.setSlot_ring (k i : Nat) (v : Slot) : (s.setSlot k i v).ring = s.ring := rfl
@[simp] theorem State.setSlot_out (k i : Nat) (v : Slot) : (s.setSlot k i v).out = s.out := rfl
@[simp] theorem State.setSlot_msix (k i : Nat) (v : Slot) : (s.setSlot k i v).msix = s.msix := rfl
@[simp] theorem State.setSlot_pba (k i : Nat) (v : Slot) : (s.setSlot k i v).pba = s.pba := rfl
@[simp] theorem State.setSlot_added (k i : Nat) (v : Slot) : (s.setSlot k i v).added = s.added := rfl
@[simp] theorem State.setSlot_kvp (k i : Nat) (v : Slot) : (s.setSlot k i v).kvp = s.kvp := rfl
@[simp] theorem State.setSlot_thread (k i : Nat) (v : Slot) : (s.setSlot k i v).thread = s.thread := rfl
@[simp] theorem State.setSlot_l1 (k i : Nat) (v : Slot) : (s.setSlot k i v).l1 = s.l1 := rfl
@[simp] theorem State.setSlot_il1 (k i : Nat) (v : Slot) : (s.setSlot k i v).il1 = s.il1 := rfl
@[simp] theorem State.setSlot_wakes (k i : Nat) (v : Slot) : (s.setSlot k i v).wakes = s.wakes := rfl
@[simp] theorem State.setSlot_time (k i : Nat) (v : Slot) : (s.setSlot k i v).time = s.time := rfl
@[simp] theorem State.setSlot_core (k i : Nat) (v : Slot) : (s.setSlot k i v).core = s.core := rfl
@[simp] theorem State.setSlot_takes (k i : Nat) (v : Slot) : (s.setSlot k i v).takes = s.takes := rfl
@[simp] theorem State.setSlot_homes (k i : Nat) (v : Slot) : (s.setSlot k i v).homes = s.homes := rfl
@[simp] theorem State.setSlot_copies (k i : Nat) (v : Slot) : (s.setSlot k i v).copies = s.copies := rfl
@[simp] theorem State.setSlot_resv (k i : Nat) (v : Slot) : (s.setSlot k i v).resv = s.resv := rfl
@[simp] theorem State.setSlot_recs (k i : Nat) (v : Slot) : (s.setSlot k i v).recs = s.recs := rfl
@[simp] theorem State.setSlot_hq (k i : Nat) (v : Slot) : (s.setSlot k i v).hq = s.hq := rfl
@[simp] theorem State.setSlot_poolK (k i : Nat) (v : Slot) : (s.setSlot k i v).poolK = s.poolK := rfl
@[simp] theorem State.setSlot_poolEra (k i : Nat) (v : Slot) : (s.setSlot k i v).poolEra = s.poolEra := rfl
@[simp] theorem State.setSlot_pci (k i : Nat) (v : Slot) : (s.setSlot k i v).pci = s.pci := rfl
@[simp] theorem State.setSlot_replay (k i : Nat) (v : Slot) : (s.setSlot k i v).replay = s.replay := rfl
@[simp] theorem State.setSlot_reg (k i : Nat) (v : Slot) (x : Nat) : (s.setSlot k i v).reg x = s.reg x := rfl
@[simp] theorem State.setSlot_fld (k i : Nat) (v : Slot) (x : Nat) (g : Fld) : (s.setSlot k i v).fld x g = s.fld x g := rfl
@[simp] theorem State.setSlot_flag (k i : Nat) (v : Slot) (x : Nat) (g : Fld) : (s.setSlot k i v).flag x g = s.flag x g := rfl
@[simp] theorem State.setSlot_fldBit (k i : Nat) (v : Slot) (x : Nat) (g : Fld) (j : Nat) : (s.setSlot k i v).fldBit x g j = s.fldBit x g j := rfl
@[simp] theorem State.setSlot_q (k i : Nat) (v : Slot) (x : Nat) : (s.setSlot k i v).q x = s.q x := rfl
@[simp] theorem State.setSlot_pv (k i : Nat) (v : Slot) (x : Nat) : (s.setSlot k i v).pv x = s.pv x := rfl
@[simp] theorem State.setSlot_as (k i : Nat) (v : Slot) (x y : Nat) : (s.setSlot k i v).as x y = s.as x y := rfl
@[simp] theorem State.setSlot_qu (k i : Nat) (v : Slot) (x : Nat) : (s.setSlot k i v).qu x = s.qu x := rfl
@[simp] theorem State.setSlot_hqOf (k i : Nat) (v : Slot) (x : Nat) : (s.setSlot k i v).hqOf x = s.hqOf x := rfl
@[simp] theorem State.setSlot_kv (k i : Nat) (v : Slot) (x : Nat) : (s.setSlot k i v).kv x = s.kv x := rfl
@[simp] theorem State.setSlot_job (k i : Nat) (v : Slot) (x : Nat) : (s.setSlot k i v).job x = s.job x := rfl
@[simp] theorem State.setSlot_xc (k i : Nat) (v : Slot) (x : Nat) : (s.setSlot k i v).xc x = s.xc x := rfl
@[simp] theorem State.setSlot_home (k i : Nat) (v : Slot) (x : Nat) : (s.setSlot k i v).home x = s.home x := rfl
@[simp] theorem State.setSlot_thr (k i : Nat) (v : Slot) (x : Nat) : (s.setSlot k i v).thr x = s.thr x := rfl
@[simp] theorem State.setSlot_pt (k i : Nat) (v : Slot) (x : Nat) : (s.setSlot k i v).pt x = s.pt x := rfl
@[simp] theorem State.setSlot_rg (k i : Nat) (v : Slot) (x : Nat) : (s.setSlot k i v).rg x = s.rg x := rfl
@[simp] theorem State.setSlot_byte (k i : Nat) (v : Slot) (x : Nat) : (s.setSlot k i v).byte x = s.byte x := rfl
@[simp] theorem State.setSlot_coreRegs (k i : Nat) (v : Slot) (x : Nat) : (s.setSlot k i v).coreRegs x = s.coreRegs x := rfl
@[simp] theorem State.setSlot_stake (k i : Nat) (v : Slot) (x : Nat) : (s.setSlot k i v).stake x = s.stake x := rfl
@[simp] theorem State.setSlot_enabled (k i : Nat) (v : Slot) (x : Nat) : (s.setSlot k i v).enabled x = s.enabled x := rfl

/-! ### send -/

@[simp] theorem State.send_pending (m : HostMsg) : (s.send m).pending = s.pending := rfl
@[simp] theorem State.send_regs (m : HostMsg) : (s.send m).regs = s.regs := rfl
@[simp] theorem State.send_mem (m : HostMsg) : (s.send m).mem = s.mem := rfl
@[simp] theorem State.send_undef (m : HostMsg) : (s.send m).undef = s.undef := rfl
@[simp] theorem State.send_poison (m : HostMsg) : (s.send m).poison = s.poison := rfl
@[simp] theorem State.send_free (m : HostMsg) : (s.send m).free = s.free := rfl
@[simp] theorem State.send_resp (m : HostMsg) : (s.send m).resp = s.resp := rfl
@[simp] theorem State.send_lk (m : HostMsg) : (s.send m).lk = s.lk := rfl
@[simp] theorem State.send_weave (m : HostMsg) : (s.send m).weave = s.weave := rfl
@[simp] theorem State.send_fuses (m : HostMsg) : (s.send m).fuses = s.fuses := rfl
@[simp] theorem State.send_flash (m : HostMsg) : (s.send m).flash = s.flash := rfl
@[simp] theorem State.send_sec (m : HostMsg) : (s.send m).sec = s.sec := rfl
@[simp] theorem State.send_failEng (m : HostMsg) : (s.send m).failEng = s.failEng := rfl
@[simp] theorem State.send_failPvu (m : HostMsg) : (s.send m).failPvu = s.failPvu := rfl
@[simp] theorem State.send_failTc (m : HostMsg) : (s.send m).failTc = s.failTc := rfl
@[simp] theorem State.send_failQuay (m : HostMsg) : (s.send m).failQuay = s.failQuay := rfl
@[simp] theorem State.send_failCh (m : HostMsg) : (s.send m).failCh = s.failCh := rfl
@[simp] theorem State.send_psq (m : HostMsg) : (s.send m).psq = s.psq := rfl
@[simp] theorem State.send_slots (m : HostMsg) : (s.send m).slots = s.slots := rfl
@[simp] theorem State.send_pvu (m : HostMsg) : (s.send m).pvu = s.pvu := rfl
@[simp] theorem State.send_asu (m : HostMsg) : (s.send m).asu = s.asu := rfl
@[simp] theorem State.send_quay (m : HostMsg) : (s.send m).quay = s.quay := rfl
@[simp] theorem State.send_binds (m : HostMsg) : (s.send m).binds = s.binds := rfl
@[simp] theorem State.send_macs (m : HostMsg) : (s.send m).macs = s.macs := rfl
@[simp] theorem State.send_xch (m : HostMsg) : (s.send m).xch = s.xch := rfl
@[simp] theorem State.send_jobs (m : HostMsg) : (s.send m).jobs = s.jobs := rfl
@[simp] theorem State.send_port (m : HostMsg) : (s.send m).port = s.port := rfl
@[simp] theorem State.send_ring (m : HostMsg) : (s.send m).ring = s.ring := rfl
@[simp] theorem State.send_msix (m : HostMsg) : (s.send m).msix = s.msix := rfl
@[simp] theorem State.send_pba (m : HostMsg) : (s.send m).pba = s.pba := rfl
@[simp] theorem State.send_added (m : HostMsg) : (s.send m).added = s.added := rfl
@[simp] theorem State.send_kvp (m : HostMsg) : (s.send m).kvp = s.kvp := rfl
@[simp] theorem State.send_thread (m : HostMsg) : (s.send m).thread = s.thread := rfl
@[simp] theorem State.send_l1 (m : HostMsg) : (s.send m).l1 = s.l1 := rfl
@[simp] theorem State.send_il1 (m : HostMsg) : (s.send m).il1 = s.il1 := rfl
@[simp] theorem State.send_wakes (m : HostMsg) : (s.send m).wakes = s.wakes := rfl
@[simp] theorem State.send_time (m : HostMsg) : (s.send m).time = s.time := rfl
@[simp] theorem State.send_core (m : HostMsg) : (s.send m).core = s.core := rfl
@[simp] theorem State.send_takes (m : HostMsg) : (s.send m).takes = s.takes := rfl
@[simp] theorem State.send_homes (m : HostMsg) : (s.send m).homes = s.homes := rfl
@[simp] theorem State.send_copies (m : HostMsg) : (s.send m).copies = s.copies := rfl
@[simp] theorem State.send_resv (m : HostMsg) : (s.send m).resv = s.resv := rfl
@[simp] theorem State.send_recs (m : HostMsg) : (s.send m).recs = s.recs := rfl
@[simp] theorem State.send_hq (m : HostMsg) : (s.send m).hq = s.hq := rfl
@[simp] theorem State.send_poolK (m : HostMsg) : (s.send m).poolK = s.poolK := rfl
@[simp] theorem State.send_poolEra (m : HostMsg) : (s.send m).poolEra = s.poolEra := rfl
@[simp] theorem State.send_pci (m : HostMsg) : (s.send m).pci = s.pci := rfl
@[simp] theorem State.send_replay (m : HostMsg) : (s.send m).replay = s.replay := rfl
@[simp] theorem State.send_reg (m : HostMsg) (x : Nat) : (s.send m).reg x = s.reg x := rfl
@[simp] theorem State.send_fld (m : HostMsg) (x : Nat) (g : Fld) : (s.send m).fld x g = s.fld x g := rfl
@[simp] theorem State.send_flag (m : HostMsg) (x : Nat) (g : Fld) : (s.send m).flag x g = s.flag x g := rfl
@[simp] theorem State.send_fldBit (m : HostMsg) (x : Nat) (g : Fld) (j : Nat) : (s.send m).fldBit x g j = s.fldBit x g j := rfl
@[simp] theorem State.send_q (m : HostMsg) (x : Nat) : (s.send m).q x = s.q x := rfl
@[simp] theorem State.send_pv (m : HostMsg) (x : Nat) : (s.send m).pv x = s.pv x := rfl
@[simp] theorem State.send_as (m : HostMsg) (x y : Nat) : (s.send m).as x y = s.as x y := rfl
@[simp] theorem State.send_qu (m : HostMsg) (x : Nat) : (s.send m).qu x = s.qu x := rfl
@[simp] theorem State.send_slot (m : HostMsg) (x y : Nat) : (s.send m).slot x y = s.slot x y := rfl
@[simp] theorem State.send_hqOf (m : HostMsg) (x : Nat) : (s.send m).hqOf x = s.hqOf x := rfl
@[simp] theorem State.send_kv (m : HostMsg) (x : Nat) : (s.send m).kv x = s.kv x := rfl
@[simp] theorem State.send_job (m : HostMsg) (x : Nat) : (s.send m).job x = s.job x := rfl
@[simp] theorem State.send_xc (m : HostMsg) (x : Nat) : (s.send m).xc x = s.xc x := rfl
@[simp] theorem State.send_home (m : HostMsg) (x : Nat) : (s.send m).home x = s.home x := rfl
@[simp] theorem State.send_thr (m : HostMsg) (x : Nat) : (s.send m).thr x = s.thr x := rfl
@[simp] theorem State.send_pt (m : HostMsg) (x : Nat) : (s.send m).pt x = s.pt x := rfl
@[simp] theorem State.send_rg (m : HostMsg) (x : Nat) : (s.send m).rg x = s.rg x := rfl
@[simp] theorem State.send_byte (m : HostMsg) (x : Nat) : (s.send m).byte x = s.byte x := rfl
@[simp] theorem State.send_coreRegs (m : HostMsg) (x : Nat) : (s.send m).coreRegs x = s.coreRegs x := rfl
@[simp] theorem State.send_stake (m : HostMsg) (x : Nat) : (s.send m).stake x = s.stake x := rfl
@[simp] theorem State.send_enabled (m : HostMsg) (x : Nat) : (s.send m).enabled x = s.enabled x := rfl

/-! ### setCore -/

@[simp] theorem State.setCore_pending (c i v : Nat) : (s.setCore c i v).pending = s.pending := rfl
@[simp] theorem State.setCore_regs (c i v : Nat) : (s.setCore c i v).regs = s.regs := rfl
@[simp] theorem State.setCore_mem (c i v : Nat) : (s.setCore c i v).mem = s.mem := rfl
@[simp] theorem State.setCore_undef (c i v : Nat) : (s.setCore c i v).undef = s.undef := rfl
@[simp] theorem State.setCore_poison (c i v : Nat) : (s.setCore c i v).poison = s.poison := rfl
@[simp] theorem State.setCore_free (c i v : Nat) : (s.setCore c i v).free = s.free := rfl
@[simp] theorem State.setCore_resp (c i v : Nat) : (s.setCore c i v).resp = s.resp := rfl
@[simp] theorem State.setCore_lk (c i v : Nat) : (s.setCore c i v).lk = s.lk := rfl
@[simp] theorem State.setCore_weave (c i v : Nat) : (s.setCore c i v).weave = s.weave := rfl
@[simp] theorem State.setCore_fuses (c i v : Nat) : (s.setCore c i v).fuses = s.fuses := rfl
@[simp] theorem State.setCore_flash (c i v : Nat) : (s.setCore c i v).flash = s.flash := rfl
@[simp] theorem State.setCore_sec (c i v : Nat) : (s.setCore c i v).sec = s.sec := rfl
@[simp] theorem State.setCore_failEng (c i v : Nat) : (s.setCore c i v).failEng = s.failEng := rfl
@[simp] theorem State.setCore_failPvu (c i v : Nat) : (s.setCore c i v).failPvu = s.failPvu := rfl
@[simp] theorem State.setCore_failTc (c i v : Nat) : (s.setCore c i v).failTc = s.failTc := rfl
@[simp] theorem State.setCore_failQuay (c i v : Nat) : (s.setCore c i v).failQuay = s.failQuay := rfl
@[simp] theorem State.setCore_failCh (c i v : Nat) : (s.setCore c i v).failCh = s.failCh := rfl
@[simp] theorem State.setCore_psq (c i v : Nat) : (s.setCore c i v).psq = s.psq := rfl
@[simp] theorem State.setCore_slots (c i v : Nat) : (s.setCore c i v).slots = s.slots := rfl
@[simp] theorem State.setCore_pvu (c i v : Nat) : (s.setCore c i v).pvu = s.pvu := rfl
@[simp] theorem State.setCore_asu (c i v : Nat) : (s.setCore c i v).asu = s.asu := rfl
@[simp] theorem State.setCore_quay (c i v : Nat) : (s.setCore c i v).quay = s.quay := rfl
@[simp] theorem State.setCore_binds (c i v : Nat) : (s.setCore c i v).binds = s.binds := rfl
@[simp] theorem State.setCore_macs (c i v : Nat) : (s.setCore c i v).macs = s.macs := rfl
@[simp] theorem State.setCore_xch (c i v : Nat) : (s.setCore c i v).xch = s.xch := rfl
@[simp] theorem State.setCore_jobs (c i v : Nat) : (s.setCore c i v).jobs = s.jobs := rfl
@[simp] theorem State.setCore_port (c i v : Nat) : (s.setCore c i v).port = s.port := rfl
@[simp] theorem State.setCore_ring (c i v : Nat) : (s.setCore c i v).ring = s.ring := rfl
@[simp] theorem State.setCore_out (c i v : Nat) : (s.setCore c i v).out = s.out := rfl
@[simp] theorem State.setCore_msix (c i v : Nat) : (s.setCore c i v).msix = s.msix := rfl
@[simp] theorem State.setCore_pba (c i v : Nat) : (s.setCore c i v).pba = s.pba := rfl
@[simp] theorem State.setCore_added (c i v : Nat) : (s.setCore c i v).added = s.added := rfl
@[simp] theorem State.setCore_kvp (c i v : Nat) : (s.setCore c i v).kvp = s.kvp := rfl
@[simp] theorem State.setCore_thread (c i v : Nat) : (s.setCore c i v).thread = s.thread := rfl
@[simp] theorem State.setCore_l1 (c i v : Nat) : (s.setCore c i v).l1 = s.l1 := rfl
@[simp] theorem State.setCore_il1 (c i v : Nat) : (s.setCore c i v).il1 = s.il1 := rfl
@[simp] theorem State.setCore_wakes (c i v : Nat) : (s.setCore c i v).wakes = s.wakes := rfl
@[simp] theorem State.setCore_time (c i v : Nat) : (s.setCore c i v).time = s.time := rfl
@[simp] theorem State.setCore_takes (c i v : Nat) : (s.setCore c i v).takes = s.takes := rfl
@[simp] theorem State.setCore_homes (c i v : Nat) : (s.setCore c i v).homes = s.homes := rfl
@[simp] theorem State.setCore_copies (c i v : Nat) : (s.setCore c i v).copies = s.copies := rfl
@[simp] theorem State.setCore_resv (c i v : Nat) : (s.setCore c i v).resv = s.resv := rfl
@[simp] theorem State.setCore_recs (c i v : Nat) : (s.setCore c i v).recs = s.recs := rfl
@[simp] theorem State.setCore_hq (c i v : Nat) : (s.setCore c i v).hq = s.hq := rfl
@[simp] theorem State.setCore_poolK (c i v : Nat) : (s.setCore c i v).poolK = s.poolK := rfl
@[simp] theorem State.setCore_poolEra (c i v : Nat) : (s.setCore c i v).poolEra = s.poolEra := rfl
@[simp] theorem State.setCore_pci (c i v : Nat) : (s.setCore c i v).pci = s.pci := rfl
@[simp] theorem State.setCore_replay (c i v : Nat) : (s.setCore c i v).replay = s.replay := rfl
@[simp] theorem State.setCore_reg (c i v : Nat) (x : Nat) : (s.setCore c i v).reg x = s.reg x := rfl
@[simp] theorem State.setCore_fld (c i v : Nat) (x : Nat) (g : Fld) : (s.setCore c i v).fld x g = s.fld x g := rfl
@[simp] theorem State.setCore_flag (c i v : Nat) (x : Nat) (g : Fld) : (s.setCore c i v).flag x g = s.flag x g := rfl
@[simp] theorem State.setCore_fldBit (c i v : Nat) (x : Nat) (g : Fld) (j : Nat) : (s.setCore c i v).fldBit x g j = s.fldBit x g j := rfl
@[simp] theorem State.setCore_q (c i v : Nat) (x : Nat) : (s.setCore c i v).q x = s.q x := rfl
@[simp] theorem State.setCore_pv (c i v : Nat) (x : Nat) : (s.setCore c i v).pv x = s.pv x := rfl
@[simp] theorem State.setCore_as (c i v : Nat) (x y : Nat) : (s.setCore c i v).as x y = s.as x y := rfl
@[simp] theorem State.setCore_qu (c i v : Nat) (x : Nat) : (s.setCore c i v).qu x = s.qu x := rfl
@[simp] theorem State.setCore_slot (c i v : Nat) (x y : Nat) : (s.setCore c i v).slot x y = s.slot x y := rfl
@[simp] theorem State.setCore_hqOf (c i v : Nat) (x : Nat) : (s.setCore c i v).hqOf x = s.hqOf x := rfl
@[simp] theorem State.setCore_kv (c i v : Nat) (x : Nat) : (s.setCore c i v).kv x = s.kv x := rfl
@[simp] theorem State.setCore_job (c i v : Nat) (x : Nat) : (s.setCore c i v).job x = s.job x := rfl
@[simp] theorem State.setCore_xc (c i v : Nat) (x : Nat) : (s.setCore c i v).xc x = s.xc x := rfl
@[simp] theorem State.setCore_home (c i v : Nat) (x : Nat) : (s.setCore c i v).home x = s.home x := rfl
@[simp] theorem State.setCore_thr (c i v : Nat) (x : Nat) : (s.setCore c i v).thr x = s.thr x := rfl
@[simp] theorem State.setCore_pt (c i v : Nat) (x : Nat) : (s.setCore c i v).pt x = s.pt x := rfl
@[simp] theorem State.setCore_rg (c i v : Nat) (x : Nat) : (s.setCore c i v).rg x = s.rg x := rfl
@[simp] theorem State.setCore_byte (c i v : Nat) (x : Nat) : (s.setCore c i v).byte x = s.byte x := rfl
@[simp] theorem State.setCore_stake (c i v : Nat) (x : Nat) : (s.setCore c i v).stake x = s.stake x := rfl
@[simp] theorem State.setCore_enabled (c i v : Nat) (x : Nat) : (s.setCore c i v).enabled x = s.enabled x := rfl

/-! ### pend -/

@[simp] theorem State.pend_pending (h e : Nat) : (s.pend h e).pending = s.pending := rfl
@[simp] theorem State.pend_regs (h e : Nat) : (s.pend h e).regs = s.regs := rfl
@[simp] theorem State.pend_mem (h e : Nat) : (s.pend h e).mem = s.mem := rfl
@[simp] theorem State.pend_undef (h e : Nat) : (s.pend h e).undef = s.undef := rfl
@[simp] theorem State.pend_poison (h e : Nat) : (s.pend h e).poison = s.poison := rfl
@[simp] theorem State.pend_free (h e : Nat) : (s.pend h e).free = s.free := rfl
@[simp] theorem State.pend_resp (h e : Nat) : (s.pend h e).resp = s.resp := rfl
@[simp] theorem State.pend_lk (h e : Nat) : (s.pend h e).lk = s.lk := rfl
@[simp] theorem State.pend_weave (h e : Nat) : (s.pend h e).weave = s.weave := rfl
@[simp] theorem State.pend_fuses (h e : Nat) : (s.pend h e).fuses = s.fuses := rfl
@[simp] theorem State.pend_flash (h e : Nat) : (s.pend h e).flash = s.flash := rfl
@[simp] theorem State.pend_sec (h e : Nat) : (s.pend h e).sec = s.sec := rfl
@[simp] theorem State.pend_failEng (h e : Nat) : (s.pend h e).failEng = s.failEng := rfl
@[simp] theorem State.pend_failPvu (h e : Nat) : (s.pend h e).failPvu = s.failPvu := rfl
@[simp] theorem State.pend_failTc (h e : Nat) : (s.pend h e).failTc = s.failTc := rfl
@[simp] theorem State.pend_failQuay (h e : Nat) : (s.pend h e).failQuay = s.failQuay := rfl
@[simp] theorem State.pend_failCh (h e : Nat) : (s.pend h e).failCh = s.failCh := rfl
@[simp] theorem State.pend_psq (h e : Nat) : (s.pend h e).psq = s.psq := rfl
@[simp] theorem State.pend_slots (h e : Nat) : (s.pend h e).slots = s.slots := rfl
@[simp] theorem State.pend_pvu (h e : Nat) : (s.pend h e).pvu = s.pvu := rfl
@[simp] theorem State.pend_asu (h e : Nat) : (s.pend h e).asu = s.asu := rfl
@[simp] theorem State.pend_quay (h e : Nat) : (s.pend h e).quay = s.quay := rfl
@[simp] theorem State.pend_binds (h e : Nat) : (s.pend h e).binds = s.binds := rfl
@[simp] theorem State.pend_macs (h e : Nat) : (s.pend h e).macs = s.macs := rfl
@[simp] theorem State.pend_xch (h e : Nat) : (s.pend h e).xch = s.xch := rfl
@[simp] theorem State.pend_jobs (h e : Nat) : (s.pend h e).jobs = s.jobs := rfl
@[simp] theorem State.pend_port (h e : Nat) : (s.pend h e).port = s.port := rfl
@[simp] theorem State.pend_ring (h e : Nat) : (s.pend h e).ring = s.ring := rfl
@[simp] theorem State.pend_out (h e : Nat) : (s.pend h e).out = s.out := rfl
@[simp] theorem State.pend_msix (h e : Nat) : (s.pend h e).msix = s.msix := rfl
@[simp] theorem State.pend_pba (h e : Nat) : (s.pend h e).pba = s.pba := rfl
@[simp] theorem State.pend_added (h e : Nat) : (s.pend h e).added = s.added := rfl
@[simp] theorem State.pend_kvp (h e : Nat) : (s.pend h e).kvp = s.kvp := rfl
@[simp] theorem State.pend_thread (h e : Nat) : (s.pend h e).thread = s.thread := rfl
@[simp] theorem State.pend_l1 (h e : Nat) : (s.pend h e).l1 = s.l1 := rfl
@[simp] theorem State.pend_il1 (h e : Nat) : (s.pend h e).il1 = s.il1 := rfl
@[simp] theorem State.pend_wakes (h e : Nat) : (s.pend h e).wakes = s.wakes := rfl
@[simp] theorem State.pend_time (h e : Nat) : (s.pend h e).time = s.time := rfl
@[simp] theorem State.pend_takes (h e : Nat) : (s.pend h e).takes = s.takes := rfl
@[simp] theorem State.pend_homes (h e : Nat) : (s.pend h e).homes = s.homes := rfl
@[simp] theorem State.pend_copies (h e : Nat) : (s.pend h e).copies = s.copies := rfl
@[simp] theorem State.pend_resv (h e : Nat) : (s.pend h e).resv = s.resv := rfl
@[simp] theorem State.pend_recs (h e : Nat) : (s.pend h e).recs = s.recs := rfl
@[simp] theorem State.pend_hq (h e : Nat) : (s.pend h e).hq = s.hq := rfl
@[simp] theorem State.pend_poolK (h e : Nat) : (s.pend h e).poolK = s.poolK := rfl
@[simp] theorem State.pend_poolEra (h e : Nat) : (s.pend h e).poolEra = s.poolEra := rfl
@[simp] theorem State.pend_pci (h e : Nat) : (s.pend h e).pci = s.pci := rfl
@[simp] theorem State.pend_replay (h e : Nat) : (s.pend h e).replay = s.replay := rfl
@[simp] theorem State.pend_reg (h e : Nat) (x : Nat) : (s.pend h e).reg x = s.reg x := rfl
@[simp] theorem State.pend_fld (h e : Nat) (x : Nat) (g : Fld) : (s.pend h e).fld x g = s.fld x g := rfl
@[simp] theorem State.pend_flag (h e : Nat) (x : Nat) (g : Fld) : (s.pend h e).flag x g = s.flag x g := rfl
@[simp] theorem State.pend_fldBit (h e : Nat) (x : Nat) (g : Fld) (j : Nat) : (s.pend h e).fldBit x g j = s.fldBit x g j := rfl
@[simp] theorem State.pend_q (h e : Nat) (x : Nat) : (s.pend h e).q x = s.q x := rfl
@[simp] theorem State.pend_pv (h e : Nat) (x : Nat) : (s.pend h e).pv x = s.pv x := rfl
@[simp] theorem State.pend_as (h e : Nat) (x y : Nat) : (s.pend h e).as x y = s.as x y := rfl
@[simp] theorem State.pend_qu (h e : Nat) (x : Nat) : (s.pend h e).qu x = s.qu x := rfl
@[simp] theorem State.pend_slot (h e : Nat) (x y : Nat) : (s.pend h e).slot x y = s.slot x y := rfl
@[simp] theorem State.pend_hqOf (h e : Nat) (x : Nat) : (s.pend h e).hqOf x = s.hqOf x := rfl
@[simp] theorem State.pend_kv (h e : Nat) (x : Nat) : (s.pend h e).kv x = s.kv x := rfl
@[simp] theorem State.pend_job (h e : Nat) (x : Nat) : (s.pend h e).job x = s.job x := rfl
@[simp] theorem State.pend_xc (h e : Nat) (x : Nat) : (s.pend h e).xc x = s.xc x := rfl
@[simp] theorem State.pend_home (h e : Nat) (x : Nat) : (s.pend h e).home x = s.home x := rfl
@[simp] theorem State.pend_thr (h e : Nat) (x : Nat) : (s.pend h e).thr x = s.thr x := rfl
@[simp] theorem State.pend_pt (h e : Nat) (x : Nat) : (s.pend h e).pt x = s.pt x := rfl
@[simp] theorem State.pend_rg (h e : Nat) (x : Nat) : (s.pend h e).rg x = s.rg x := rfl
@[simp] theorem State.pend_byte (h e : Nat) (x : Nat) : (s.pend h e).byte x = s.byte x := rfl
@[simp] theorem State.pend_stake (h e : Nat) (x : Nat) : (s.pend h e).stake x = s.stake x := rfl
@[simp] theorem State.pend_enabled (h e : Nat) (x : Nat) : (s.pend h e).enabled x = s.enabled x := rfl

/-! ### signal -/

@[simp] theorem State.signal_pending (b : Bool) (v h e : Nat) : (s.signal b v h e).pending = s.pending := by
  unfold State.signal; split; rfl; split; rfl; split <;> rfl
@[simp] theorem State.signal_regs (b : Bool) (v h e : Nat) : (s.signal b v h e).regs = s.regs := by
  unfold State.signal; split; rfl; split; rfl; split <;> rfl
@[simp] theorem State.signal_mem (b : Bool) (v h e : Nat) : (s.signal b v h e).mem = s.mem := by
  unfold State.signal; split; rfl; split; rfl; split <;> rfl
@[simp] theorem State.signal_undef (b : Bool) (v h e : Nat) : (s.signal b v h e).undef = s.undef := by
  unfold State.signal; split; rfl; split; rfl; split <;> rfl
@[simp] theorem State.signal_poison (b : Bool) (v h e : Nat) : (s.signal b v h e).poison = s.poison := by
  unfold State.signal; split; rfl; split; rfl; split <;> rfl
@[simp] theorem State.signal_free (b : Bool) (v h e : Nat) : (s.signal b v h e).free = s.free := by
  unfold State.signal; split; rfl; split; rfl; split <;> rfl
@[simp] theorem State.signal_resp (b : Bool) (v h e : Nat) : (s.signal b v h e).resp = s.resp := by
  unfold State.signal; split; rfl; split; rfl; split <;> rfl
@[simp] theorem State.signal_lk (b : Bool) (v h e : Nat) : (s.signal b v h e).lk = s.lk := by
  unfold State.signal; split; rfl; split; rfl; split <;> rfl
@[simp] theorem State.signal_weave (b : Bool) (v h e : Nat) : (s.signal b v h e).weave = s.weave := by
  unfold State.signal; split; rfl; split; rfl; split <;> rfl
@[simp] theorem State.signal_fuses (b : Bool) (v h e : Nat) : (s.signal b v h e).fuses = s.fuses := by
  unfold State.signal; split; rfl; split; rfl; split <;> rfl
@[simp] theorem State.signal_flash (b : Bool) (v h e : Nat) : (s.signal b v h e).flash = s.flash := by
  unfold State.signal; split; rfl; split; rfl; split <;> rfl
@[simp] theorem State.signal_sec (b : Bool) (v h e : Nat) : (s.signal b v h e).sec = s.sec := by
  unfold State.signal; split; rfl; split; rfl; split <;> rfl
@[simp] theorem State.signal_failEng (b : Bool) (v h e : Nat) : (s.signal b v h e).failEng = s.failEng := by
  unfold State.signal; split; rfl; split; rfl; split <;> rfl
@[simp] theorem State.signal_failPvu (b : Bool) (v h e : Nat) : (s.signal b v h e).failPvu = s.failPvu := by
  unfold State.signal; split; rfl; split; rfl; split <;> rfl
@[simp] theorem State.signal_failTc (b : Bool) (v h e : Nat) : (s.signal b v h e).failTc = s.failTc := by
  unfold State.signal; split; rfl; split; rfl; split <;> rfl
@[simp] theorem State.signal_failQuay (b : Bool) (v h e : Nat) : (s.signal b v h e).failQuay = s.failQuay := by
  unfold State.signal; split; rfl; split; rfl; split <;> rfl
@[simp] theorem State.signal_failCh (b : Bool) (v h e : Nat) : (s.signal b v h e).failCh = s.failCh := by
  unfold State.signal; split; rfl; split; rfl; split <;> rfl
@[simp] theorem State.signal_psq (b : Bool) (v h e : Nat) : (s.signal b v h e).psq = s.psq := by
  unfold State.signal; split; rfl; split; rfl; split <;> rfl
@[simp] theorem State.signal_slots (b : Bool) (v h e : Nat) : (s.signal b v h e).slots = s.slots := by
  unfold State.signal; split; rfl; split; rfl; split <;> rfl
@[simp] theorem State.signal_pvu (b : Bool) (v h e : Nat) : (s.signal b v h e).pvu = s.pvu := by
  unfold State.signal; split; rfl; split; rfl; split <;> rfl
@[simp] theorem State.signal_asu (b : Bool) (v h e : Nat) : (s.signal b v h e).asu = s.asu := by
  unfold State.signal; split; rfl; split; rfl; split <;> rfl
@[simp] theorem State.signal_quay (b : Bool) (v h e : Nat) : (s.signal b v h e).quay = s.quay := by
  unfold State.signal; split; rfl; split; rfl; split <;> rfl
@[simp] theorem State.signal_binds (b : Bool) (v h e : Nat) : (s.signal b v h e).binds = s.binds := by
  unfold State.signal; split; rfl; split; rfl; split <;> rfl
@[simp] theorem State.signal_macs (b : Bool) (v h e : Nat) : (s.signal b v h e).macs = s.macs := by
  unfold State.signal; split; rfl; split; rfl; split <;> rfl
@[simp] theorem State.signal_xch (b : Bool) (v h e : Nat) : (s.signal b v h e).xch = s.xch := by
  unfold State.signal; split; rfl; split; rfl; split <;> rfl
@[simp] theorem State.signal_jobs (b : Bool) (v h e : Nat) : (s.signal b v h e).jobs = s.jobs := by
  unfold State.signal; split; rfl; split; rfl; split <;> rfl
@[simp] theorem State.signal_port (b : Bool) (v h e : Nat) : (s.signal b v h e).port = s.port := by
  unfold State.signal; split; rfl; split; rfl; split <;> rfl
@[simp] theorem State.signal_ring (b : Bool) (v h e : Nat) : (s.signal b v h e).ring = s.ring := by
  unfold State.signal; split; rfl; split; rfl; split <;> rfl
@[simp] theorem State.signal_msix (b : Bool) (v h e : Nat) : (s.signal b v h e).msix = s.msix := by
  unfold State.signal; split; rfl; split; rfl; split <;> rfl
@[simp] theorem State.signal_added (b : Bool) (v h e : Nat) : (s.signal b v h e).added = s.added := by
  unfold State.signal; split; rfl; split; rfl; split <;> rfl
@[simp] theorem State.signal_kvp (b : Bool) (v h e : Nat) : (s.signal b v h e).kvp = s.kvp := by
  unfold State.signal; split; rfl; split; rfl; split <;> rfl
@[simp] theorem State.signal_thread (b : Bool) (v h e : Nat) : (s.signal b v h e).thread = s.thread := by
  unfold State.signal; split; rfl; split; rfl; split <;> rfl
@[simp] theorem State.signal_l1 (b : Bool) (v h e : Nat) : (s.signal b v h e).l1 = s.l1 := by
  unfold State.signal; split; rfl; split; rfl; split <;> rfl
@[simp] theorem State.signal_il1 (b : Bool) (v h e : Nat) : (s.signal b v h e).il1 = s.il1 := by
  unfold State.signal; split; rfl; split; rfl; split <;> rfl
@[simp] theorem State.signal_wakes (b : Bool) (v h e : Nat) : (s.signal b v h e).wakes = s.wakes := by
  unfold State.signal; split; rfl; split; rfl; split <;> rfl
@[simp] theorem State.signal_time (b : Bool) (v h e : Nat) : (s.signal b v h e).time = s.time := by
  unfold State.signal; split; rfl; split; rfl; split <;> rfl
@[simp] theorem State.signal_takes (b : Bool) (v h e : Nat) : (s.signal b v h e).takes = s.takes := by
  unfold State.signal; split; rfl; split; rfl; split <;> rfl
@[simp] theorem State.signal_homes (b : Bool) (v h e : Nat) : (s.signal b v h e).homes = s.homes := by
  unfold State.signal; split; rfl; split; rfl; split <;> rfl
@[simp] theorem State.signal_copies (b : Bool) (v h e : Nat) : (s.signal b v h e).copies = s.copies := by
  unfold State.signal; split; rfl; split; rfl; split <;> rfl
@[simp] theorem State.signal_resv (b : Bool) (v h e : Nat) : (s.signal b v h e).resv = s.resv := by
  unfold State.signal; split; rfl; split; rfl; split <;> rfl
@[simp] theorem State.signal_recs (b : Bool) (v h e : Nat) : (s.signal b v h e).recs = s.recs := by
  unfold State.signal; split; rfl; split; rfl; split <;> rfl
@[simp] theorem State.signal_hq (b : Bool) (v h e : Nat) : (s.signal b v h e).hq = s.hq := by
  unfold State.signal; split; rfl; split; rfl; split <;> rfl
@[simp] theorem State.signal_poolK (b : Bool) (v h e : Nat) : (s.signal b v h e).poolK = s.poolK := by
  unfold State.signal; split; rfl; split; rfl; split <;> rfl
@[simp] theorem State.signal_poolEra (b : Bool) (v h e : Nat) : (s.signal b v h e).poolEra = s.poolEra := by
  unfold State.signal; split; rfl; split; rfl; split <;> rfl
@[simp] theorem State.signal_pci (b : Bool) (v h e : Nat) : (s.signal b v h e).pci = s.pci := by
  unfold State.signal; split; rfl; split; rfl; split <;> rfl
@[simp] theorem State.signal_replay (b : Bool) (v h e : Nat) : (s.signal b v h e).replay = s.replay := by
  unfold State.signal; split; rfl; split; rfl; split <;> rfl
@[simp] theorem State.signal_reg (b : Bool) (v h e : Nat) (x : Nat) : (s.signal b v h e).reg x = s.reg x := by simp [State.reg]
@[simp] theorem State.signal_fld (b : Bool) (v h e : Nat) (x : Nat) (g : Fld) : (s.signal b v h e).fld x g = s.fld x g := by simp [State.fld]
@[simp] theorem State.signal_flag (b : Bool) (v h e : Nat) (x : Nat) (g : Fld) : (s.signal b v h e).flag x g = s.flag x g := by simp [State.flag]
@[simp] theorem State.signal_fldBit (b : Bool) (v h e : Nat) (x : Nat) (g : Fld) (j : Nat) : (s.signal b v h e).fldBit x g j = s.fldBit x g j := by simp [State.fldBit]
@[simp] theorem State.signal_q (b : Bool) (v h e : Nat) (x : Nat) : (s.signal b v h e).q x = s.q x := by simp [State.q]
@[simp] theorem State.signal_pv (b : Bool) (v h e : Nat) (x : Nat) : (s.signal b v h e).pv x = s.pv x := by simp [State.pv]
@[simp] theorem State.signal_as (b : Bool) (v h e : Nat) (x y : Nat) : (s.signal b v h e).as x y = s.as x y := by simp [State.as]
@[simp] theorem State.signal_qu (b : Bool) (v h e : Nat) (x : Nat) : (s.signal b v h e).qu x = s.qu x := by simp [State.qu]
@[simp] theorem State.signal_slot (b : Bool) (v h e : Nat) (x y : Nat) : (s.signal b v h e).slot x y = s.slot x y := by simp [State.slot]
@[simp] theorem State.signal_hqOf (b : Bool) (v h e : Nat) (x : Nat) : (s.signal b v h e).hqOf x = s.hqOf x := by simp [State.hqOf]
@[simp] theorem State.signal_kv (b : Bool) (v h e : Nat) (x : Nat) : (s.signal b v h e).kv x = s.kv x := by simp [State.kv]
@[simp] theorem State.signal_job (b : Bool) (v h e : Nat) (x : Nat) : (s.signal b v h e).job x = s.job x := by simp [State.job]
@[simp] theorem State.signal_xc (b : Bool) (v h e : Nat) (x : Nat) : (s.signal b v h e).xc x = s.xc x := by simp [State.xc]
@[simp] theorem State.signal_home (b : Bool) (v h e : Nat) (x : Nat) : (s.signal b v h e).home x = s.home x := by simp [State.home]
@[simp] theorem State.signal_thr (b : Bool) (v h e : Nat) (x : Nat) : (s.signal b v h e).thr x = s.thr x := by simp [State.thr]
@[simp] theorem State.signal_pt (b : Bool) (v h e : Nat) (x : Nat) : (s.signal b v h e).pt x = s.pt x := by simp [State.pt]
@[simp] theorem State.signal_rg (b : Bool) (v h e : Nat) (x : Nat) : (s.signal b v h e).rg x = s.rg x := by simp [State.rg]
@[simp] theorem State.signal_byte (b : Bool) (v h e : Nat) (x : Nat) : (s.signal b v h e).byte x = s.byte x := by simp [State.byte]
@[simp] theorem State.signal_stake (b : Bool) (v h e : Nat) (x : Nat) : (s.signal b v h e).stake x = s.stake x := by simp [State.stake]
@[simp] theorem State.signal_enabled (b : Bool) (v h e : Nat) (x : Nat) : (s.signal b v h e).enabled x = s.enabled x := by simp [State.enabled]

/-! ### raiseEvent -/

@[simp] theorem State.raiseEvent_pending (a c : Nat) (f : Fld) : (s.raiseEvent a c f).pending = s.pending := by
  unfold State.raiseEvent; split; rfl; simp only []; split <;> simp
@[simp] theorem State.raiseEvent_mem (a c : Nat) (f : Fld) : (s.raiseEvent a c f).mem = s.mem := by
  unfold State.raiseEvent; split; rfl; simp only []; split <;> simp
@[simp] theorem State.raiseEvent_undef (a c : Nat) (f : Fld) : (s.raiseEvent a c f).undef = s.undef := by
  unfold State.raiseEvent; split; rfl; simp only []; split <;> simp
@[simp] theorem State.raiseEvent_poison (a c : Nat) (f : Fld) : (s.raiseEvent a c f).poison = s.poison := by
  unfold State.raiseEvent; split; rfl; simp only []; split <;> simp
@[simp] theorem State.raiseEvent_free (a c : Nat) (f : Fld) : (s.raiseEvent a c f).free = s.free := by
  unfold State.raiseEvent; split; rfl; simp only []; split <;> simp
@[simp] theorem State.raiseEvent_resp (a c : Nat) (f : Fld) : (s.raiseEvent a c f).resp = s.resp := by
  unfold State.raiseEvent; split; rfl; simp only []; split <;> simp
@[simp] theorem State.raiseEvent_lk (a c : Nat) (f : Fld) : (s.raiseEvent a c f).lk = s.lk := by
  unfold State.raiseEvent; split; rfl; simp only []; split <;> simp
@[simp] theorem State.raiseEvent_weave (a c : Nat) (f : Fld) : (s.raiseEvent a c f).weave = s.weave := by
  unfold State.raiseEvent; split; rfl; simp only []; split <;> simp
@[simp] theorem State.raiseEvent_fuses (a c : Nat) (f : Fld) : (s.raiseEvent a c f).fuses = s.fuses := by
  unfold State.raiseEvent; split; rfl; simp only []; split <;> simp
@[simp] theorem State.raiseEvent_flash (a c : Nat) (f : Fld) : (s.raiseEvent a c f).flash = s.flash := by
  unfold State.raiseEvent; split; rfl; simp only []; split <;> simp
@[simp] theorem State.raiseEvent_sec (a c : Nat) (f : Fld) : (s.raiseEvent a c f).sec = s.sec := by
  unfold State.raiseEvent; split; rfl; simp only []; split <;> simp
@[simp] theorem State.raiseEvent_failEng (a c : Nat) (f : Fld) : (s.raiseEvent a c f).failEng = s.failEng := by
  unfold State.raiseEvent; split; rfl; simp only []; split <;> simp
@[simp] theorem State.raiseEvent_failPvu (a c : Nat) (f : Fld) : (s.raiseEvent a c f).failPvu = s.failPvu := by
  unfold State.raiseEvent; split; rfl; simp only []; split <;> simp
@[simp] theorem State.raiseEvent_failTc (a c : Nat) (f : Fld) : (s.raiseEvent a c f).failTc = s.failTc := by
  unfold State.raiseEvent; split; rfl; simp only []; split <;> simp
@[simp] theorem State.raiseEvent_failQuay (a c : Nat) (f : Fld) : (s.raiseEvent a c f).failQuay = s.failQuay := by
  unfold State.raiseEvent; split; rfl; simp only []; split <;> simp
@[simp] theorem State.raiseEvent_failCh (a c : Nat) (f : Fld) : (s.raiseEvent a c f).failCh = s.failCh := by
  unfold State.raiseEvent; split; rfl; simp only []; split <;> simp
@[simp] theorem State.raiseEvent_psq (a c : Nat) (f : Fld) : (s.raiseEvent a c f).psq = s.psq := by
  unfold State.raiseEvent; split; rfl; simp only []; split <;> simp
@[simp] theorem State.raiseEvent_slots (a c : Nat) (f : Fld) : (s.raiseEvent a c f).slots = s.slots := by
  unfold State.raiseEvent; split; rfl; simp only []; split <;> simp
@[simp] theorem State.raiseEvent_pvu (a c : Nat) (f : Fld) : (s.raiseEvent a c f).pvu = s.pvu := by
  unfold State.raiseEvent; split; rfl; simp only []; split <;> simp
@[simp] theorem State.raiseEvent_asu (a c : Nat) (f : Fld) : (s.raiseEvent a c f).asu = s.asu := by
  unfold State.raiseEvent; split; rfl; simp only []; split <;> simp
@[simp] theorem State.raiseEvent_quay (a c : Nat) (f : Fld) : (s.raiseEvent a c f).quay = s.quay := by
  unfold State.raiseEvent; split; rfl; simp only []; split <;> simp
@[simp] theorem State.raiseEvent_binds (a c : Nat) (f : Fld) : (s.raiseEvent a c f).binds = s.binds := by
  unfold State.raiseEvent; split; rfl; simp only []; split <;> simp
@[simp] theorem State.raiseEvent_macs (a c : Nat) (f : Fld) : (s.raiseEvent a c f).macs = s.macs := by
  unfold State.raiseEvent; split; rfl; simp only []; split <;> simp
@[simp] theorem State.raiseEvent_xch (a c : Nat) (f : Fld) : (s.raiseEvent a c f).xch = s.xch := by
  unfold State.raiseEvent; split; rfl; simp only []; split <;> simp
@[simp] theorem State.raiseEvent_jobs (a c : Nat) (f : Fld) : (s.raiseEvent a c f).jobs = s.jobs := by
  unfold State.raiseEvent; split; rfl; simp only []; split <;> simp
@[simp] theorem State.raiseEvent_port (a c : Nat) (f : Fld) : (s.raiseEvent a c f).port = s.port := by
  unfold State.raiseEvent; split; rfl; simp only []; split <;> simp
@[simp] theorem State.raiseEvent_ring (a c : Nat) (f : Fld) : (s.raiseEvent a c f).ring = s.ring := by
  unfold State.raiseEvent; split; rfl; simp only []; split <;> simp
@[simp] theorem State.raiseEvent_msix (a c : Nat) (f : Fld) : (s.raiseEvent a c f).msix = s.msix := by
  unfold State.raiseEvent; split; rfl; simp only []; split <;> simp
@[simp] theorem State.raiseEvent_added (a c : Nat) (f : Fld) : (s.raiseEvent a c f).added = s.added := by
  unfold State.raiseEvent; split; rfl; simp only []; split <;> simp
@[simp] theorem State.raiseEvent_kvp (a c : Nat) (f : Fld) : (s.raiseEvent a c f).kvp = s.kvp := by
  unfold State.raiseEvent; split; rfl; simp only []; split <;> simp
@[simp] theorem State.raiseEvent_thread (a c : Nat) (f : Fld) : (s.raiseEvent a c f).thread = s.thread := by
  unfold State.raiseEvent; split; rfl; simp only []; split <;> simp
@[simp] theorem State.raiseEvent_l1 (a c : Nat) (f : Fld) : (s.raiseEvent a c f).l1 = s.l1 := by
  unfold State.raiseEvent; split; rfl; simp only []; split <;> simp
@[simp] theorem State.raiseEvent_il1 (a c : Nat) (f : Fld) : (s.raiseEvent a c f).il1 = s.il1 := by
  unfold State.raiseEvent; split; rfl; simp only []; split <;> simp
@[simp] theorem State.raiseEvent_wakes (a c : Nat) (f : Fld) : (s.raiseEvent a c f).wakes = s.wakes := by
  unfold State.raiseEvent; split; rfl; simp only []; split <;> simp
@[simp] theorem State.raiseEvent_time (a c : Nat) (f : Fld) : (s.raiseEvent a c f).time = s.time := by
  unfold State.raiseEvent; split; rfl; simp only []; split <;> simp
@[simp] theorem State.raiseEvent_takes (a c : Nat) (f : Fld) : (s.raiseEvent a c f).takes = s.takes := by
  unfold State.raiseEvent; split; rfl; simp only []; split <;> simp
@[simp] theorem State.raiseEvent_homes (a c : Nat) (f : Fld) : (s.raiseEvent a c f).homes = s.homes := by
  unfold State.raiseEvent; split; rfl; simp only []; split <;> simp
@[simp] theorem State.raiseEvent_copies (a c : Nat) (f : Fld) : (s.raiseEvent a c f).copies = s.copies := by
  unfold State.raiseEvent; split; rfl; simp only []; split <;> simp
@[simp] theorem State.raiseEvent_resv (a c : Nat) (f : Fld) : (s.raiseEvent a c f).resv = s.resv := by
  unfold State.raiseEvent; split; rfl; simp only []; split <;> simp
@[simp] theorem State.raiseEvent_recs (a c : Nat) (f : Fld) : (s.raiseEvent a c f).recs = s.recs := by
  unfold State.raiseEvent; split; rfl; simp only []; split <;> simp
@[simp] theorem State.raiseEvent_hq (a c : Nat) (f : Fld) : (s.raiseEvent a c f).hq = s.hq := by
  unfold State.raiseEvent; split; rfl; simp only []; split <;> simp
@[simp] theorem State.raiseEvent_poolK (a c : Nat) (f : Fld) : (s.raiseEvent a c f).poolK = s.poolK := by
  unfold State.raiseEvent; split; rfl; simp only []; split <;> simp
@[simp] theorem State.raiseEvent_poolEra (a c : Nat) (f : Fld) : (s.raiseEvent a c f).poolEra = s.poolEra := by
  unfold State.raiseEvent; split; rfl; simp only []; split <;> simp
@[simp] theorem State.raiseEvent_pci (a c : Nat) (f : Fld) : (s.raiseEvent a c f).pci = s.pci := by
  unfold State.raiseEvent; split; rfl; simp only []; split <;> simp
@[simp] theorem State.raiseEvent_replay (a c : Nat) (f : Fld) : (s.raiseEvent a c f).replay = s.replay := by
  unfold State.raiseEvent; split; rfl; simp only []; split <;> simp
@[simp] theorem State.raiseEvent_q (a c : Nat) (f : Fld) (x : Nat) : (s.raiseEvent a c f).q x = s.q x := by simp [State.q]
@[simp] theorem State.raiseEvent_pv (a c : Nat) (f : Fld) (x : Nat) : (s.raiseEvent a c f).pv x = s.pv x := by simp [State.pv]
@[simp] theorem State.raiseEvent_as (a c : Nat) (f : Fld) (x y : Nat) : (s.raiseEvent a c f).as x y = s.as x y := by simp [State.as]
@[simp] theorem State.raiseEvent_qu (a c : Nat) (f : Fld) (x : Nat) : (s.raiseEvent a c f).qu x = s.qu x := by simp [State.qu]
@[simp] theorem State.raiseEvent_slot (a c : Nat) (f : Fld) (x y : Nat) : (s.raiseEvent a c f).slot x y = s.slot x y := by simp [State.slot]
@[simp] theorem State.raiseEvent_hqOf (a c : Nat) (f : Fld) (x : Nat) : (s.raiseEvent a c f).hqOf x = s.hqOf x := by simp [State.hqOf]
@[simp] theorem State.raiseEvent_kv (a c : Nat) (f : Fld) (x : Nat) : (s.raiseEvent a c f).kv x = s.kv x := by simp [State.kv]
@[simp] theorem State.raiseEvent_job (a c : Nat) (f : Fld) (x : Nat) : (s.raiseEvent a c f).job x = s.job x := by simp [State.job]
@[simp] theorem State.raiseEvent_xc (a c : Nat) (f : Fld) (x : Nat) : (s.raiseEvent a c f).xc x = s.xc x := by simp [State.xc]
@[simp] theorem State.raiseEvent_home (a c : Nat) (f : Fld) (x : Nat) : (s.raiseEvent a c f).home x = s.home x := by simp [State.home]
@[simp] theorem State.raiseEvent_thr (a c : Nat) (f : Fld) (x : Nat) : (s.raiseEvent a c f).thr x = s.thr x := by simp [State.thr]
@[simp] theorem State.raiseEvent_pt (a c : Nat) (f : Fld) (x : Nat) : (s.raiseEvent a c f).pt x = s.pt x := by simp [State.pt]
@[simp] theorem State.raiseEvent_rg (a c : Nat) (f : Fld) (x : Nat) : (s.raiseEvent a c f).rg x = s.rg x := by simp [State.rg]
@[simp] theorem State.raiseEvent_byte (a c : Nat) (f : Fld) (x : Nat) : (s.raiseEvent a c f).byte x = s.byte x := by simp [State.byte]
@[simp] theorem State.raiseEvent_stake (a c : Nat) (f : Fld) (x : Nat) : (s.raiseEvent a c f).stake x = s.stake x := by simp [State.stake]
@[simp] theorem State.raiseEvent_enabled (a c : Nat) (f : Fld) (x : Nat) : (s.raiseEvent a c f).enabled x = s.enabled x := by simp [State.enabled]

/-! ### modEvent -/

@[simp] theorem State.modEvent_pending (f : Fld) : (s.modEvent f).pending = s.pending := by
  unfold State.modEvent; simp
@[simp] theorem State.modEvent_mem (f : Fld) : (s.modEvent f).mem = s.mem := by
  unfold State.modEvent; simp
@[simp] theorem State.modEvent_undef (f : Fld) : (s.modEvent f).undef = s.undef := by
  unfold State.modEvent; simp
@[simp] theorem State.modEvent_poison (f : Fld) : (s.modEvent f).poison = s.poison := by
  unfold State.modEvent; simp
@[simp] theorem State.modEvent_free (f : Fld) : (s.modEvent f).free = s.free := by
  unfold State.modEvent; simp
@[simp] theorem State.modEvent_resp (f : Fld) : (s.modEvent f).resp = s.resp := by
  unfold State.modEvent; simp
@[simp] theorem State.modEvent_lk (f : Fld) : (s.modEvent f).lk = s.lk := by
  unfold State.modEvent; simp
@[simp] theorem State.modEvent_weave (f : Fld) : (s.modEvent f).weave = s.weave := by
  unfold State.modEvent; simp
@[simp] theorem State.modEvent_fuses (f : Fld) : (s.modEvent f).fuses = s.fuses := by
  unfold State.modEvent; simp
@[simp] theorem State.modEvent_flash (f : Fld) : (s.modEvent f).flash = s.flash := by
  unfold State.modEvent; simp
@[simp] theorem State.modEvent_sec (f : Fld) : (s.modEvent f).sec = s.sec := by
  unfold State.modEvent; simp
@[simp] theorem State.modEvent_failEng (f : Fld) : (s.modEvent f).failEng = s.failEng := by
  unfold State.modEvent; simp
@[simp] theorem State.modEvent_failPvu (f : Fld) : (s.modEvent f).failPvu = s.failPvu := by
  unfold State.modEvent; simp
@[simp] theorem State.modEvent_failTc (f : Fld) : (s.modEvent f).failTc = s.failTc := by
  unfold State.modEvent; simp
@[simp] theorem State.modEvent_failQuay (f : Fld) : (s.modEvent f).failQuay = s.failQuay := by
  unfold State.modEvent; simp
@[simp] theorem State.modEvent_failCh (f : Fld) : (s.modEvent f).failCh = s.failCh := by
  unfold State.modEvent; simp
@[simp] theorem State.modEvent_psq (f : Fld) : (s.modEvent f).psq = s.psq := by
  unfold State.modEvent; simp
@[simp] theorem State.modEvent_slots (f : Fld) : (s.modEvent f).slots = s.slots := by
  unfold State.modEvent; simp
@[simp] theorem State.modEvent_pvu (f : Fld) : (s.modEvent f).pvu = s.pvu := by
  unfold State.modEvent; simp
@[simp] theorem State.modEvent_asu (f : Fld) : (s.modEvent f).asu = s.asu := by
  unfold State.modEvent; simp
@[simp] theorem State.modEvent_quay (f : Fld) : (s.modEvent f).quay = s.quay := by
  unfold State.modEvent; simp
@[simp] theorem State.modEvent_binds (f : Fld) : (s.modEvent f).binds = s.binds := by
  unfold State.modEvent; simp
@[simp] theorem State.modEvent_macs (f : Fld) : (s.modEvent f).macs = s.macs := by
  unfold State.modEvent; simp
@[simp] theorem State.modEvent_xch (f : Fld) : (s.modEvent f).xch = s.xch := by
  unfold State.modEvent; simp
@[simp] theorem State.modEvent_jobs (f : Fld) : (s.modEvent f).jobs = s.jobs := by
  unfold State.modEvent; simp
@[simp] theorem State.modEvent_port (f : Fld) : (s.modEvent f).port = s.port := by
  unfold State.modEvent; simp
@[simp] theorem State.modEvent_ring (f : Fld) : (s.modEvent f).ring = s.ring := by
  unfold State.modEvent; simp
@[simp] theorem State.modEvent_msix (f : Fld) : (s.modEvent f).msix = s.msix := by
  unfold State.modEvent; simp
@[simp] theorem State.modEvent_added (f : Fld) : (s.modEvent f).added = s.added := by
  unfold State.modEvent; simp
@[simp] theorem State.modEvent_kvp (f : Fld) : (s.modEvent f).kvp = s.kvp := by
  unfold State.modEvent; simp
@[simp] theorem State.modEvent_thread (f : Fld) : (s.modEvent f).thread = s.thread := by
  unfold State.modEvent; simp
@[simp] theorem State.modEvent_l1 (f : Fld) : (s.modEvent f).l1 = s.l1 := by
  unfold State.modEvent; simp
@[simp] theorem State.modEvent_il1 (f : Fld) : (s.modEvent f).il1 = s.il1 := by
  unfold State.modEvent; simp
@[simp] theorem State.modEvent_wakes (f : Fld) : (s.modEvent f).wakes = s.wakes := by
  unfold State.modEvent; simp
@[simp] theorem State.modEvent_time (f : Fld) : (s.modEvent f).time = s.time := by
  unfold State.modEvent; simp
@[simp] theorem State.modEvent_takes (f : Fld) : (s.modEvent f).takes = s.takes := by
  unfold State.modEvent; simp
@[simp] theorem State.modEvent_homes (f : Fld) : (s.modEvent f).homes = s.homes := by
  unfold State.modEvent; simp
@[simp] theorem State.modEvent_copies (f : Fld) : (s.modEvent f).copies = s.copies := by
  unfold State.modEvent; simp
@[simp] theorem State.modEvent_resv (f : Fld) : (s.modEvent f).resv = s.resv := by
  unfold State.modEvent; simp
@[simp] theorem State.modEvent_recs (f : Fld) : (s.modEvent f).recs = s.recs := by
  unfold State.modEvent; simp
@[simp] theorem State.modEvent_hq (f : Fld) : (s.modEvent f).hq = s.hq := by
  unfold State.modEvent; simp
@[simp] theorem State.modEvent_poolK (f : Fld) : (s.modEvent f).poolK = s.poolK := by
  unfold State.modEvent; simp
@[simp] theorem State.modEvent_poolEra (f : Fld) : (s.modEvent f).poolEra = s.poolEra := by
  unfold State.modEvent; simp
@[simp] theorem State.modEvent_pci (f : Fld) : (s.modEvent f).pci = s.pci := by
  unfold State.modEvent; simp
@[simp] theorem State.modEvent_replay (f : Fld) : (s.modEvent f).replay = s.replay := by
  unfold State.modEvent; simp
@[simp] theorem State.modEvent_q (f : Fld) (x : Nat) : (s.modEvent f).q x = s.q x := by simp [State.q]
@[simp] theorem State.modEvent_pv (f : Fld) (x : Nat) : (s.modEvent f).pv x = s.pv x := by simp [State.pv]
@[simp] theorem State.modEvent_as (f : Fld) (x y : Nat) : (s.modEvent f).as x y = s.as x y := by simp [State.as]
@[simp] theorem State.modEvent_qu (f : Fld) (x : Nat) : (s.modEvent f).qu x = s.qu x := by simp [State.qu]
@[simp] theorem State.modEvent_slot (f : Fld) (x y : Nat) : (s.modEvent f).slot x y = s.slot x y := by simp [State.slot]
@[simp] theorem State.modEvent_hqOf (f : Fld) (x : Nat) : (s.modEvent f).hqOf x = s.hqOf x := by simp [State.hqOf]
@[simp] theorem State.modEvent_kv (f : Fld) (x : Nat) : (s.modEvent f).kv x = s.kv x := by simp [State.kv]
@[simp] theorem State.modEvent_job (f : Fld) (x : Nat) : (s.modEvent f).job x = s.job x := by simp [State.job]
@[simp] theorem State.modEvent_xc (f : Fld) (x : Nat) : (s.modEvent f).xc x = s.xc x := by simp [State.xc]
@[simp] theorem State.modEvent_home (f : Fld) (x : Nat) : (s.modEvent f).home x = s.home x := by simp [State.home]
@[simp] theorem State.modEvent_thr (f : Fld) (x : Nat) : (s.modEvent f).thr x = s.thr x := by simp [State.thr]
@[simp] theorem State.modEvent_pt (f : Fld) (x : Nat) : (s.modEvent f).pt x = s.pt x := by simp [State.pt]
@[simp] theorem State.modEvent_rg (f : Fld) (x : Nat) : (s.modEvent f).rg x = s.rg x := by simp [State.rg]
@[simp] theorem State.modEvent_byte (f : Fld) (x : Nat) : (s.modEvent f).byte x = s.byte x := by simp [State.byte]
@[simp] theorem State.modEvent_stake (f : Fld) (x : Nat) : (s.modEvent f).stake x = s.stake x := by simp [State.stake]
@[simp] theorem State.modEvent_enabled (f : Fld) (x : Nat) : (s.modEvent f).enabled x = s.enabled x := by simp [State.enabled]

/-! ### stakeEvent -/

@[simp] theorem State.stakeEvent_pending (k : Nat) (f : Fld) : (s.stakeEvent k f).pending = s.pending := by
  unfold State.stakeEvent; simp
@[simp] theorem State.stakeEvent_mem (k : Nat) (f : Fld) : (s.stakeEvent k f).mem = s.mem := by
  unfold State.stakeEvent; simp
@[simp] theorem State.stakeEvent_undef (k : Nat) (f : Fld) : (s.stakeEvent k f).undef = s.undef := by
  unfold State.stakeEvent; simp
@[simp] theorem State.stakeEvent_poison (k : Nat) (f : Fld) : (s.stakeEvent k f).poison = s.poison := by
  unfold State.stakeEvent; simp
@[simp] theorem State.stakeEvent_free (k : Nat) (f : Fld) : (s.stakeEvent k f).free = s.free := by
  unfold State.stakeEvent; simp
@[simp] theorem State.stakeEvent_resp (k : Nat) (f : Fld) : (s.stakeEvent k f).resp = s.resp := by
  unfold State.stakeEvent; simp
@[simp] theorem State.stakeEvent_lk (k : Nat) (f : Fld) : (s.stakeEvent k f).lk = s.lk := by
  unfold State.stakeEvent; simp
@[simp] theorem State.stakeEvent_weave (k : Nat) (f : Fld) : (s.stakeEvent k f).weave = s.weave := by
  unfold State.stakeEvent; simp
@[simp] theorem State.stakeEvent_fuses (k : Nat) (f : Fld) : (s.stakeEvent k f).fuses = s.fuses := by
  unfold State.stakeEvent; simp
@[simp] theorem State.stakeEvent_flash (k : Nat) (f : Fld) : (s.stakeEvent k f).flash = s.flash := by
  unfold State.stakeEvent; simp
@[simp] theorem State.stakeEvent_sec (k : Nat) (f : Fld) : (s.stakeEvent k f).sec = s.sec := by
  unfold State.stakeEvent; simp
@[simp] theorem State.stakeEvent_failEng (k : Nat) (f : Fld) : (s.stakeEvent k f).failEng = s.failEng := by
  unfold State.stakeEvent; simp
@[simp] theorem State.stakeEvent_failPvu (k : Nat) (f : Fld) : (s.stakeEvent k f).failPvu = s.failPvu := by
  unfold State.stakeEvent; simp
@[simp] theorem State.stakeEvent_failTc (k : Nat) (f : Fld) : (s.stakeEvent k f).failTc = s.failTc := by
  unfold State.stakeEvent; simp
@[simp] theorem State.stakeEvent_failQuay (k : Nat) (f : Fld) : (s.stakeEvent k f).failQuay = s.failQuay := by
  unfold State.stakeEvent; simp
@[simp] theorem State.stakeEvent_failCh (k : Nat) (f : Fld) : (s.stakeEvent k f).failCh = s.failCh := by
  unfold State.stakeEvent; simp
@[simp] theorem State.stakeEvent_psq (k : Nat) (f : Fld) : (s.stakeEvent k f).psq = s.psq := by
  unfold State.stakeEvent; simp
@[simp] theorem State.stakeEvent_slots (k : Nat) (f : Fld) : (s.stakeEvent k f).slots = s.slots := by
  unfold State.stakeEvent; simp
@[simp] theorem State.stakeEvent_pvu (k : Nat) (f : Fld) : (s.stakeEvent k f).pvu = s.pvu := by
  unfold State.stakeEvent; simp
@[simp] theorem State.stakeEvent_asu (k : Nat) (f : Fld) : (s.stakeEvent k f).asu = s.asu := by
  unfold State.stakeEvent; simp
@[simp] theorem State.stakeEvent_quay (k : Nat) (f : Fld) : (s.stakeEvent k f).quay = s.quay := by
  unfold State.stakeEvent; simp
@[simp] theorem State.stakeEvent_binds (k : Nat) (f : Fld) : (s.stakeEvent k f).binds = s.binds := by
  unfold State.stakeEvent; simp
@[simp] theorem State.stakeEvent_macs (k : Nat) (f : Fld) : (s.stakeEvent k f).macs = s.macs := by
  unfold State.stakeEvent; simp
@[simp] theorem State.stakeEvent_xch (k : Nat) (f : Fld) : (s.stakeEvent k f).xch = s.xch := by
  unfold State.stakeEvent; simp
@[simp] theorem State.stakeEvent_jobs (k : Nat) (f : Fld) : (s.stakeEvent k f).jobs = s.jobs := by
  unfold State.stakeEvent; simp
@[simp] theorem State.stakeEvent_port (k : Nat) (f : Fld) : (s.stakeEvent k f).port = s.port := by
  unfold State.stakeEvent; simp
@[simp] theorem State.stakeEvent_ring (k : Nat) (f : Fld) : (s.stakeEvent k f).ring = s.ring := by
  unfold State.stakeEvent; simp
@[simp] theorem State.stakeEvent_msix (k : Nat) (f : Fld) : (s.stakeEvent k f).msix = s.msix := by
  unfold State.stakeEvent; simp
@[simp] theorem State.stakeEvent_added (k : Nat) (f : Fld) : (s.stakeEvent k f).added = s.added := by
  unfold State.stakeEvent; simp
@[simp] theorem State.stakeEvent_kvp (k : Nat) (f : Fld) : (s.stakeEvent k f).kvp = s.kvp := by
  unfold State.stakeEvent; simp
@[simp] theorem State.stakeEvent_thread (k : Nat) (f : Fld) : (s.stakeEvent k f).thread = s.thread := by
  unfold State.stakeEvent; simp
@[simp] theorem State.stakeEvent_l1 (k : Nat) (f : Fld) : (s.stakeEvent k f).l1 = s.l1 := by
  unfold State.stakeEvent; simp
@[simp] theorem State.stakeEvent_il1 (k : Nat) (f : Fld) : (s.stakeEvent k f).il1 = s.il1 := by
  unfold State.stakeEvent; simp
@[simp] theorem State.stakeEvent_wakes (k : Nat) (f : Fld) : (s.stakeEvent k f).wakes = s.wakes := by
  unfold State.stakeEvent; simp
@[simp] theorem State.stakeEvent_time (k : Nat) (f : Fld) : (s.stakeEvent k f).time = s.time := by
  unfold State.stakeEvent; simp
@[simp] theorem State.stakeEvent_takes (k : Nat) (f : Fld) : (s.stakeEvent k f).takes = s.takes := by
  unfold State.stakeEvent; simp
@[simp] theorem State.stakeEvent_homes (k : Nat) (f : Fld) : (s.stakeEvent k f).homes = s.homes := by
  unfold State.stakeEvent; simp
@[simp] theorem State.stakeEvent_copies (k : Nat) (f : Fld) : (s.stakeEvent k f).copies = s.copies := by
  unfold State.stakeEvent; simp
@[simp] theorem State.stakeEvent_resv (k : Nat) (f : Fld) : (s.stakeEvent k f).resv = s.resv := by
  unfold State.stakeEvent; simp
@[simp] theorem State.stakeEvent_recs (k : Nat) (f : Fld) : (s.stakeEvent k f).recs = s.recs := by
  unfold State.stakeEvent; simp
@[simp] theorem State.stakeEvent_hq (k : Nat) (f : Fld) : (s.stakeEvent k f).hq = s.hq := by
  unfold State.stakeEvent; simp
@[simp] theorem State.stakeEvent_poolK (k : Nat) (f : Fld) : (s.stakeEvent k f).poolK = s.poolK := by
  unfold State.stakeEvent; simp
@[simp] theorem State.stakeEvent_poolEra (k : Nat) (f : Fld) : (s.stakeEvent k f).poolEra = s.poolEra := by
  unfold State.stakeEvent; simp
@[simp] theorem State.stakeEvent_pci (k : Nat) (f : Fld) : (s.stakeEvent k f).pci = s.pci := by
  unfold State.stakeEvent; simp
@[simp] theorem State.stakeEvent_replay (k : Nat) (f : Fld) : (s.stakeEvent k f).replay = s.replay := by
  unfold State.stakeEvent; simp
@[simp] theorem State.stakeEvent_q (k : Nat) (f : Fld) (x : Nat) : (s.stakeEvent k f).q x = s.q x := by simp [State.q]
@[simp] theorem State.stakeEvent_pv (k : Nat) (f : Fld) (x : Nat) : (s.stakeEvent k f).pv x = s.pv x := by simp [State.pv]
@[simp] theorem State.stakeEvent_as (k : Nat) (f : Fld) (x y : Nat) : (s.stakeEvent k f).as x y = s.as x y := by simp [State.as]
@[simp] theorem State.stakeEvent_qu (k : Nat) (f : Fld) (x : Nat) : (s.stakeEvent k f).qu x = s.qu x := by simp [State.qu]
@[simp] theorem State.stakeEvent_slot (k : Nat) (f : Fld) (x y : Nat) : (s.stakeEvent k f).slot x y = s.slot x y := by simp [State.slot]
@[simp] theorem State.stakeEvent_hqOf (k : Nat) (f : Fld) (x : Nat) : (s.stakeEvent k f).hqOf x = s.hqOf x := by simp [State.hqOf]
@[simp] theorem State.stakeEvent_kv (k : Nat) (f : Fld) (x : Nat) : (s.stakeEvent k f).kv x = s.kv x := by simp [State.kv]
@[simp] theorem State.stakeEvent_job (k : Nat) (f : Fld) (x : Nat) : (s.stakeEvent k f).job x = s.job x := by simp [State.job]
@[simp] theorem State.stakeEvent_xc (k : Nat) (f : Fld) (x : Nat) : (s.stakeEvent k f).xc x = s.xc x := by simp [State.xc]
@[simp] theorem State.stakeEvent_home (k : Nat) (f : Fld) (x : Nat) : (s.stakeEvent k f).home x = s.home x := by simp [State.home]
@[simp] theorem State.stakeEvent_thr (k : Nat) (f : Fld) (x : Nat) : (s.stakeEvent k f).thr x = s.thr x := by simp [State.thr]
@[simp] theorem State.stakeEvent_pt (k : Nat) (f : Fld) (x : Nat) : (s.stakeEvent k f).pt x = s.pt x := by simp [State.pt]
@[simp] theorem State.stakeEvent_rg (k : Nat) (f : Fld) (x : Nat) : (s.stakeEvent k f).rg x = s.rg x := by simp [State.rg]
@[simp] theorem State.stakeEvent_byte (k : Nat) (f : Fld) (x : Nat) : (s.stakeEvent k f).byte x = s.byte x := by simp [State.byte]
@[simp] theorem State.stakeEvent_stake (k : Nat) (f : Fld) (x : Nat) : (s.stakeEvent k f).stake x = s.stake x := by simp [State.stake]
@[simp] theorem State.stakeEvent_enabled (k : Nat) (f : Fld) (x : Nat) : (s.stakeEvent k f).enabled x = s.enabled x := by simp [State.enabled]

/-! ### modLk -/

@[simp] theorem State.modLk_pending (f : Lk → Lk) : (s.modLk f).pending = s.pending := rfl
@[simp] theorem State.modLk_regs (f : Lk → Lk) : (s.modLk f).regs = s.regs := rfl
@[simp] theorem State.modLk_mem (f : Lk → Lk) : (s.modLk f).mem = s.mem := rfl
@[simp] theorem State.modLk_undef (f : Lk → Lk) : (s.modLk f).undef = s.undef := rfl
@[simp] theorem State.modLk_poison (f : Lk → Lk) : (s.modLk f).poison = s.poison := rfl
@[simp] theorem State.modLk_free (f : Lk → Lk) : (s.modLk f).free = s.free := rfl
@[simp] theorem State.modLk_resp (f : Lk → Lk) : (s.modLk f).resp = s.resp := rfl
@[simp] theorem State.modLk_weave (f : Lk → Lk) : (s.modLk f).weave = s.weave := rfl
@[simp] theorem State.modLk_fuses (f : Lk → Lk) : (s.modLk f).fuses = s.fuses := rfl
@[simp] theorem State.modLk_flash (f : Lk → Lk) : (s.modLk f).flash = s.flash := rfl
@[simp] theorem State.modLk_sec (f : Lk → Lk) : (s.modLk f).sec = s.sec := rfl
@[simp] theorem State.modLk_failEng (f : Lk → Lk) : (s.modLk f).failEng = s.failEng := rfl
@[simp] theorem State.modLk_failPvu (f : Lk → Lk) : (s.modLk f).failPvu = s.failPvu := rfl
@[simp] theorem State.modLk_failTc (f : Lk → Lk) : (s.modLk f).failTc = s.failTc := rfl
@[simp] theorem State.modLk_failQuay (f : Lk → Lk) : (s.modLk f).failQuay = s.failQuay := rfl
@[simp] theorem State.modLk_failCh (f : Lk → Lk) : (s.modLk f).failCh = s.failCh := rfl
@[simp] theorem State.modLk_psq (f : Lk → Lk) : (s.modLk f).psq = s.psq := rfl
@[simp] theorem State.modLk_slots (f : Lk → Lk) : (s.modLk f).slots = s.slots := rfl
@[simp] theorem State.modLk_pvu (f : Lk → Lk) : (s.modLk f).pvu = s.pvu := rfl
@[simp] theorem State.modLk_asu (f : Lk → Lk) : (s.modLk f).asu = s.asu := rfl
@[simp] theorem State.modLk_quay (f : Lk → Lk) : (s.modLk f).quay = s.quay := rfl
@[simp] theorem State.modLk_binds (f : Lk → Lk) : (s.modLk f).binds = s.binds := rfl
@[simp] theorem State.modLk_macs (f : Lk → Lk) : (s.modLk f).macs = s.macs := rfl
@[simp] theorem State.modLk_xch (f : Lk → Lk) : (s.modLk f).xch = s.xch := rfl
@[simp] theorem State.modLk_jobs (f : Lk → Lk) : (s.modLk f).jobs = s.jobs := rfl
@[simp] theorem State.modLk_port (f : Lk → Lk) : (s.modLk f).port = s.port := rfl
@[simp] theorem State.modLk_ring (f : Lk → Lk) : (s.modLk f).ring = s.ring := rfl
@[simp] theorem State.modLk_out (f : Lk → Lk) : (s.modLk f).out = s.out := rfl
@[simp] theorem State.modLk_msix (f : Lk → Lk) : (s.modLk f).msix = s.msix := rfl
@[simp] theorem State.modLk_pba (f : Lk → Lk) : (s.modLk f).pba = s.pba := rfl
@[simp] theorem State.modLk_added (f : Lk → Lk) : (s.modLk f).added = s.added := rfl
@[simp] theorem State.modLk_kvp (f : Lk → Lk) : (s.modLk f).kvp = s.kvp := rfl
@[simp] theorem State.modLk_thread (f : Lk → Lk) : (s.modLk f).thread = s.thread := rfl
@[simp] theorem State.modLk_l1 (f : Lk → Lk) : (s.modLk f).l1 = s.l1 := rfl
@[simp] theorem State.modLk_il1 (f : Lk → Lk) : (s.modLk f).il1 = s.il1 := rfl
@[simp] theorem State.modLk_wakes (f : Lk → Lk) : (s.modLk f).wakes = s.wakes := rfl
@[simp] theorem State.modLk_time (f : Lk → Lk) : (s.modLk f).time = s.time := rfl
@[simp] theorem State.modLk_core (f : Lk → Lk) : (s.modLk f).core = s.core := rfl
@[simp] theorem State.modLk_takes (f : Lk → Lk) : (s.modLk f).takes = s.takes := rfl
@[simp] theorem State.modLk_homes (f : Lk → Lk) : (s.modLk f).homes = s.homes := rfl
@[simp] theorem State.modLk_copies (f : Lk → Lk) : (s.modLk f).copies = s.copies := rfl
@[simp] theorem State.modLk_resv (f : Lk → Lk) : (s.modLk f).resv = s.resv := rfl
@[simp] theorem State.modLk_recs (f : Lk → Lk) : (s.modLk f).recs = s.recs := rfl
@[simp] theorem State.modLk_hq (f : Lk → Lk) : (s.modLk f).hq = s.hq := rfl
@[simp] theorem State.modLk_poolK (f : Lk → Lk) : (s.modLk f).poolK = s.poolK := rfl
@[simp] theorem State.modLk_poolEra (f : Lk → Lk) : (s.modLk f).poolEra = s.poolEra := rfl
@[simp] theorem State.modLk_pci (f : Lk → Lk) : (s.modLk f).pci = s.pci := rfl
@[simp] theorem State.modLk_replay (f : Lk → Lk) : (s.modLk f).replay = s.replay := rfl
@[simp] theorem State.modLk_reg (f : Lk → Lk) (x : Nat) : (s.modLk f).reg x = s.reg x := rfl
@[simp] theorem State.modLk_fld (f : Lk → Lk) (x : Nat) (g : Fld) : (s.modLk f).fld x g = s.fld x g := rfl
@[simp] theorem State.modLk_flag (f : Lk → Lk) (x : Nat) (g : Fld) : (s.modLk f).flag x g = s.flag x g := rfl
@[simp] theorem State.modLk_fldBit (f : Lk → Lk) (x : Nat) (g : Fld) (j : Nat) : (s.modLk f).fldBit x g j = s.fldBit x g j := rfl
@[simp] theorem State.modLk_q (f : Lk → Lk) (x : Nat) : (s.modLk f).q x = s.q x := rfl
@[simp] theorem State.modLk_pv (f : Lk → Lk) (x : Nat) : (s.modLk f).pv x = s.pv x := rfl
@[simp] theorem State.modLk_as (f : Lk → Lk) (x y : Nat) : (s.modLk f).as x y = s.as x y := rfl
@[simp] theorem State.modLk_qu (f : Lk → Lk) (x : Nat) : (s.modLk f).qu x = s.qu x := rfl
@[simp] theorem State.modLk_slot (f : Lk → Lk) (x y : Nat) : (s.modLk f).slot x y = s.slot x y := rfl
@[simp] theorem State.modLk_hqOf (f : Lk → Lk) (x : Nat) : (s.modLk f).hqOf x = s.hqOf x := rfl
@[simp] theorem State.modLk_kv (f : Lk → Lk) (x : Nat) : (s.modLk f).kv x = s.kv x := rfl
@[simp] theorem State.modLk_job (f : Lk → Lk) (x : Nat) : (s.modLk f).job x = s.job x := rfl
@[simp] theorem State.modLk_xc (f : Lk → Lk) (x : Nat) : (s.modLk f).xc x = s.xc x := rfl
@[simp] theorem State.modLk_home (f : Lk → Lk) (x : Nat) : (s.modLk f).home x = s.home x := rfl
@[simp] theorem State.modLk_thr (f : Lk → Lk) (x : Nat) : (s.modLk f).thr x = s.thr x := rfl
@[simp] theorem State.modLk_pt (f : Lk → Lk) (x : Nat) : (s.modLk f).pt x = s.pt x := rfl
@[simp] theorem State.modLk_rg (f : Lk → Lk) (x : Nat) : (s.modLk f).rg x = s.rg x := rfl
@[simp] theorem State.modLk_byte (f : Lk → Lk) (x : Nat) : (s.modLk f).byte x = s.byte x := rfl
@[simp] theorem State.modLk_coreRegs (f : Lk → Lk) (x : Nat) : (s.modLk f).coreRegs x = s.coreRegs x := rfl
@[simp] theorem State.modLk_stake (f : Lk → Lk) (x : Nat) : (s.modLk f).stake x = s.stake x := rfl
@[simp] theorem State.modLk_enabled (f : Lk → Lk) (x : Nat) : (s.modLk f).enabled x = s.enabled x := rfl

/-! ### setHq -/

@[simp] theorem State.setHq_pending (k : Nat) (c : Hq) : (s.setHq k c).pending = s.pending := rfl
@[simp] theorem State.setHq_regs (k : Nat) (c : Hq) : (s.setHq k c).regs = s.regs := rfl
@[simp] theorem State.setHq_mem (k : Nat) (c : Hq) : (s.setHq k c).mem = s.mem := rfl
@[simp] theorem State.setHq_undef (k : Nat) (c : Hq) : (s.setHq k c).undef = s.undef := rfl
@[simp] theorem State.setHq_poison (k : Nat) (c : Hq) : (s.setHq k c).poison = s.poison := rfl
@[simp] theorem State.setHq_free (k : Nat) (c : Hq) : (s.setHq k c).free = s.free := rfl
@[simp] theorem State.setHq_resp (k : Nat) (c : Hq) : (s.setHq k c).resp = s.resp := rfl
@[simp] theorem State.setHq_lk (k : Nat) (c : Hq) : (s.setHq k c).lk = s.lk := rfl
@[simp] theorem State.setHq_weave (k : Nat) (c : Hq) : (s.setHq k c).weave = s.weave := rfl
@[simp] theorem State.setHq_fuses (k : Nat) (c : Hq) : (s.setHq k c).fuses = s.fuses := rfl
@[simp] theorem State.setHq_flash (k : Nat) (c : Hq) : (s.setHq k c).flash = s.flash := rfl
@[simp] theorem State.setHq_sec (k : Nat) (c : Hq) : (s.setHq k c).sec = s.sec := rfl
@[simp] theorem State.setHq_failEng (k : Nat) (c : Hq) : (s.setHq k c).failEng = s.failEng := rfl
@[simp] theorem State.setHq_failPvu (k : Nat) (c : Hq) : (s.setHq k c).failPvu = s.failPvu := rfl
@[simp] theorem State.setHq_failTc (k : Nat) (c : Hq) : (s.setHq k c).failTc = s.failTc := rfl
@[simp] theorem State.setHq_failQuay (k : Nat) (c : Hq) : (s.setHq k c).failQuay = s.failQuay := rfl
@[simp] theorem State.setHq_failCh (k : Nat) (c : Hq) : (s.setHq k c).failCh = s.failCh := rfl
@[simp] theorem State.setHq_psq (k : Nat) (c : Hq) : (s.setHq k c).psq = s.psq := rfl
@[simp] theorem State.setHq_slots (k : Nat) (c : Hq) : (s.setHq k c).slots = s.slots := rfl
@[simp] theorem State.setHq_pvu (k : Nat) (c : Hq) : (s.setHq k c).pvu = s.pvu := rfl
@[simp] theorem State.setHq_asu (k : Nat) (c : Hq) : (s.setHq k c).asu = s.asu := rfl
@[simp] theorem State.setHq_quay (k : Nat) (c : Hq) : (s.setHq k c).quay = s.quay := rfl
@[simp] theorem State.setHq_binds (k : Nat) (c : Hq) : (s.setHq k c).binds = s.binds := rfl
@[simp] theorem State.setHq_macs (k : Nat) (c : Hq) : (s.setHq k c).macs = s.macs := rfl
@[simp] theorem State.setHq_xch (k : Nat) (c : Hq) : (s.setHq k c).xch = s.xch := rfl
@[simp] theorem State.setHq_jobs (k : Nat) (c : Hq) : (s.setHq k c).jobs = s.jobs := rfl
@[simp] theorem State.setHq_port (k : Nat) (c : Hq) : (s.setHq k c).port = s.port := rfl
@[simp] theorem State.setHq_ring (k : Nat) (c : Hq) : (s.setHq k c).ring = s.ring := rfl
@[simp] theorem State.setHq_out (k : Nat) (c : Hq) : (s.setHq k c).out = s.out := rfl
@[simp] theorem State.setHq_msix (k : Nat) (c : Hq) : (s.setHq k c).msix = s.msix := rfl
@[simp] theorem State.setHq_pba (k : Nat) (c : Hq) : (s.setHq k c).pba = s.pba := rfl
@[simp] theorem State.setHq_added (k : Nat) (c : Hq) : (s.setHq k c).added = s.added := rfl
@[simp] theorem State.setHq_kvp (k : Nat) (c : Hq) : (s.setHq k c).kvp = s.kvp := rfl
@[simp] theorem State.setHq_thread (k : Nat) (c : Hq) : (s.setHq k c).thread = s.thread := rfl
@[simp] theorem State.setHq_l1 (k : Nat) (c : Hq) : (s.setHq k c).l1 = s.l1 := rfl
@[simp] theorem State.setHq_il1 (k : Nat) (c : Hq) : (s.setHq k c).il1 = s.il1 := rfl
@[simp] theorem State.setHq_wakes (k : Nat) (c : Hq) : (s.setHq k c).wakes = s.wakes := rfl
@[simp] theorem State.setHq_time (k : Nat) (c : Hq) : (s.setHq k c).time = s.time := rfl
@[simp] theorem State.setHq_core (k : Nat) (c : Hq) : (s.setHq k c).core = s.core := rfl
@[simp] theorem State.setHq_takes (k : Nat) (c : Hq) : (s.setHq k c).takes = s.takes := rfl
@[simp] theorem State.setHq_homes (k : Nat) (c : Hq) : (s.setHq k c).homes = s.homes := rfl
@[simp] theorem State.setHq_copies (k : Nat) (c : Hq) : (s.setHq k c).copies = s.copies := rfl
@[simp] theorem State.setHq_resv (k : Nat) (c : Hq) : (s.setHq k c).resv = s.resv := rfl
@[simp] theorem State.setHq_recs (k : Nat) (c : Hq) : (s.setHq k c).recs = s.recs := rfl
@[simp] theorem State.setHq_poolK (k : Nat) (c : Hq) : (s.setHq k c).poolK = s.poolK := rfl
@[simp] theorem State.setHq_poolEra (k : Nat) (c : Hq) : (s.setHq k c).poolEra = s.poolEra := rfl
@[simp] theorem State.setHq_pci (k : Nat) (c : Hq) : (s.setHq k c).pci = s.pci := rfl
@[simp] theorem State.setHq_replay (k : Nat) (c : Hq) : (s.setHq k c).replay = s.replay := rfl
@[simp] theorem State.setHq_reg (k : Nat) (c : Hq) (x : Nat) : (s.setHq k c).reg x = s.reg x := rfl
@[simp] theorem State.setHq_fld (k : Nat) (c : Hq) (x : Nat) (g : Fld) : (s.setHq k c).fld x g = s.fld x g := rfl
@[simp] theorem State.setHq_flag (k : Nat) (c : Hq) (x : Nat) (g : Fld) : (s.setHq k c).flag x g = s.flag x g := rfl
@[simp] theorem State.setHq_fldBit (k : Nat) (c : Hq) (x : Nat) (g : Fld) (j : Nat) : (s.setHq k c).fldBit x g j = s.fldBit x g j := rfl
@[simp] theorem State.setHq_q (k : Nat) (c : Hq) (x : Nat) : (s.setHq k c).q x = s.q x := rfl
@[simp] theorem State.setHq_pv (k : Nat) (c : Hq) (x : Nat) : (s.setHq k c).pv x = s.pv x := rfl
@[simp] theorem State.setHq_as (k : Nat) (c : Hq) (x y : Nat) : (s.setHq k c).as x y = s.as x y := rfl
@[simp] theorem State.setHq_qu (k : Nat) (c : Hq) (x : Nat) : (s.setHq k c).qu x = s.qu x := rfl
@[simp] theorem State.setHq_slot (k : Nat) (c : Hq) (x y : Nat) : (s.setHq k c).slot x y = s.slot x y := rfl
@[simp] theorem State.setHq_kv (k : Nat) (c : Hq) (x : Nat) : (s.setHq k c).kv x = s.kv x := rfl
@[simp] theorem State.setHq_job (k : Nat) (c : Hq) (x : Nat) : (s.setHq k c).job x = s.job x := rfl
@[simp] theorem State.setHq_xc (k : Nat) (c : Hq) (x : Nat) : (s.setHq k c).xc x = s.xc x := rfl
@[simp] theorem State.setHq_home (k : Nat) (c : Hq) (x : Nat) : (s.setHq k c).home x = s.home x := rfl
@[simp] theorem State.setHq_thr (k : Nat) (c : Hq) (x : Nat) : (s.setHq k c).thr x = s.thr x := rfl
@[simp] theorem State.setHq_pt (k : Nat) (c : Hq) (x : Nat) : (s.setHq k c).pt x = s.pt x := rfl
@[simp] theorem State.setHq_rg (k : Nat) (c : Hq) (x : Nat) : (s.setHq k c).rg x = s.rg x := rfl
@[simp] theorem State.setHq_byte (k : Nat) (c : Hq) (x : Nat) : (s.setHq k c).byte x = s.byte x := rfl
@[simp] theorem State.setHq_coreRegs (k : Nat) (c : Hq) (x : Nat) : (s.setHq k c).coreRegs x = s.coreRegs x := rfl
@[simp] theorem State.setHq_stake (k : Nat) (c : Hq) (x : Nat) : (s.setHq k c).stake x = s.stake x := rfl
@[simp] theorem State.setHq_enabled (k : Nat) (c : Hq) (x : Nat) : (s.setHq k c).enabled x = s.enabled x := rfl

/-! ### setKv -/

@[simp] theorem State.setKv_pending (k : Nat) (c : Kvp) : (s.setKv k c).pending = s.pending := rfl
@[simp] theorem State.setKv_regs (k : Nat) (c : Kvp) : (s.setKv k c).regs = s.regs := rfl
@[simp] theorem State.setKv_mem (k : Nat) (c : Kvp) : (s.setKv k c).mem = s.mem := rfl
@[simp] theorem State.setKv_undef (k : Nat) (c : Kvp) : (s.setKv k c).undef = s.undef := rfl
@[simp] theorem State.setKv_poison (k : Nat) (c : Kvp) : (s.setKv k c).poison = s.poison := rfl
@[simp] theorem State.setKv_free (k : Nat) (c : Kvp) : (s.setKv k c).free = s.free := rfl
@[simp] theorem State.setKv_resp (k : Nat) (c : Kvp) : (s.setKv k c).resp = s.resp := rfl
@[simp] theorem State.setKv_lk (k : Nat) (c : Kvp) : (s.setKv k c).lk = s.lk := rfl
@[simp] theorem State.setKv_weave (k : Nat) (c : Kvp) : (s.setKv k c).weave = s.weave := rfl
@[simp] theorem State.setKv_fuses (k : Nat) (c : Kvp) : (s.setKv k c).fuses = s.fuses := rfl
@[simp] theorem State.setKv_flash (k : Nat) (c : Kvp) : (s.setKv k c).flash = s.flash := rfl
@[simp] theorem State.setKv_sec (k : Nat) (c : Kvp) : (s.setKv k c).sec = s.sec := rfl
@[simp] theorem State.setKv_failEng (k : Nat) (c : Kvp) : (s.setKv k c).failEng = s.failEng := rfl
@[simp] theorem State.setKv_failPvu (k : Nat) (c : Kvp) : (s.setKv k c).failPvu = s.failPvu := rfl
@[simp] theorem State.setKv_failTc (k : Nat) (c : Kvp) : (s.setKv k c).failTc = s.failTc := rfl
@[simp] theorem State.setKv_failQuay (k : Nat) (c : Kvp) : (s.setKv k c).failQuay = s.failQuay := rfl
@[simp] theorem State.setKv_failCh (k : Nat) (c : Kvp) : (s.setKv k c).failCh = s.failCh := rfl
@[simp] theorem State.setKv_psq (k : Nat) (c : Kvp) : (s.setKv k c).psq = s.psq := rfl
@[simp] theorem State.setKv_slots (k : Nat) (c : Kvp) : (s.setKv k c).slots = s.slots := rfl
@[simp] theorem State.setKv_pvu (k : Nat) (c : Kvp) : (s.setKv k c).pvu = s.pvu := rfl
@[simp] theorem State.setKv_asu (k : Nat) (c : Kvp) : (s.setKv k c).asu = s.asu := rfl
@[simp] theorem State.setKv_quay (k : Nat) (c : Kvp) : (s.setKv k c).quay = s.quay := rfl
@[simp] theorem State.setKv_binds (k : Nat) (c : Kvp) : (s.setKv k c).binds = s.binds := rfl
@[simp] theorem State.setKv_macs (k : Nat) (c : Kvp) : (s.setKv k c).macs = s.macs := rfl
@[simp] theorem State.setKv_xch (k : Nat) (c : Kvp) : (s.setKv k c).xch = s.xch := rfl
@[simp] theorem State.setKv_jobs (k : Nat) (c : Kvp) : (s.setKv k c).jobs = s.jobs := rfl
@[simp] theorem State.setKv_port (k : Nat) (c : Kvp) : (s.setKv k c).port = s.port := rfl
@[simp] theorem State.setKv_ring (k : Nat) (c : Kvp) : (s.setKv k c).ring = s.ring := rfl
@[simp] theorem State.setKv_out (k : Nat) (c : Kvp) : (s.setKv k c).out = s.out := rfl
@[simp] theorem State.setKv_msix (k : Nat) (c : Kvp) : (s.setKv k c).msix = s.msix := rfl
@[simp] theorem State.setKv_pba (k : Nat) (c : Kvp) : (s.setKv k c).pba = s.pba := rfl
@[simp] theorem State.setKv_added (k : Nat) (c : Kvp) : (s.setKv k c).added = s.added := rfl
@[simp] theorem State.setKv_thread (k : Nat) (c : Kvp) : (s.setKv k c).thread = s.thread := rfl
@[simp] theorem State.setKv_l1 (k : Nat) (c : Kvp) : (s.setKv k c).l1 = s.l1 := rfl
@[simp] theorem State.setKv_il1 (k : Nat) (c : Kvp) : (s.setKv k c).il1 = s.il1 := rfl
@[simp] theorem State.setKv_wakes (k : Nat) (c : Kvp) : (s.setKv k c).wakes = s.wakes := rfl
@[simp] theorem State.setKv_time (k : Nat) (c : Kvp) : (s.setKv k c).time = s.time := rfl
@[simp] theorem State.setKv_core (k : Nat) (c : Kvp) : (s.setKv k c).core = s.core := rfl
@[simp] theorem State.setKv_takes (k : Nat) (c : Kvp) : (s.setKv k c).takes = s.takes := rfl
@[simp] theorem State.setKv_homes (k : Nat) (c : Kvp) : (s.setKv k c).homes = s.homes := rfl
@[simp] theorem State.setKv_copies (k : Nat) (c : Kvp) : (s.setKv k c).copies = s.copies := rfl
@[simp] theorem State.setKv_resv (k : Nat) (c : Kvp) : (s.setKv k c).resv = s.resv := rfl
@[simp] theorem State.setKv_recs (k : Nat) (c : Kvp) : (s.setKv k c).recs = s.recs := rfl
@[simp] theorem State.setKv_hq (k : Nat) (c : Kvp) : (s.setKv k c).hq = s.hq := rfl
@[simp] theorem State.setKv_poolK (k : Nat) (c : Kvp) : (s.setKv k c).poolK = s.poolK := rfl
@[simp] theorem State.setKv_poolEra (k : Nat) (c : Kvp) : (s.setKv k c).poolEra = s.poolEra := rfl
@[simp] theorem State.setKv_pci (k : Nat) (c : Kvp) : (s.setKv k c).pci = s.pci := rfl
@[simp] theorem State.setKv_replay (k : Nat) (c : Kvp) : (s.setKv k c).replay = s.replay := rfl
@[simp] theorem State.setKv_reg (k : Nat) (c : Kvp) (x : Nat) : (s.setKv k c).reg x = s.reg x := rfl
@[simp] theorem State.setKv_fld (k : Nat) (c : Kvp) (x : Nat) (g : Fld) : (s.setKv k c).fld x g = s.fld x g := rfl
@[simp] theorem State.setKv_flag (k : Nat) (c : Kvp) (x : Nat) (g : Fld) : (s.setKv k c).flag x g = s.flag x g := rfl
@[simp] theorem State.setKv_fldBit (k : Nat) (c : Kvp) (x : Nat) (g : Fld) (j : Nat) : (s.setKv k c).fldBit x g j = s.fldBit x g j := rfl
@[simp] theorem State.setKv_q (k : Nat) (c : Kvp) (x : Nat) : (s.setKv k c).q x = s.q x := rfl
@[simp] theorem State.setKv_pv (k : Nat) (c : Kvp) (x : Nat) : (s.setKv k c).pv x = s.pv x := rfl
@[simp] theorem State.setKv_as (k : Nat) (c : Kvp) (x y : Nat) : (s.setKv k c).as x y = s.as x y := rfl
@[simp] theorem State.setKv_qu (k : Nat) (c : Kvp) (x : Nat) : (s.setKv k c).qu x = s.qu x := rfl
@[simp] theorem State.setKv_slot (k : Nat) (c : Kvp) (x y : Nat) : (s.setKv k c).slot x y = s.slot x y := rfl
@[simp] theorem State.setKv_hqOf (k : Nat) (c : Kvp) (x : Nat) : (s.setKv k c).hqOf x = s.hqOf x := rfl
@[simp] theorem State.setKv_job (k : Nat) (c : Kvp) (x : Nat) : (s.setKv k c).job x = s.job x := rfl
@[simp] theorem State.setKv_xc (k : Nat) (c : Kvp) (x : Nat) : (s.setKv k c).xc x = s.xc x := rfl
@[simp] theorem State.setKv_home (k : Nat) (c : Kvp) (x : Nat) : (s.setKv k c).home x = s.home x := rfl
@[simp] theorem State.setKv_thr (k : Nat) (c : Kvp) (x : Nat) : (s.setKv k c).thr x = s.thr x := rfl
@[simp] theorem State.setKv_pt (k : Nat) (c : Kvp) (x : Nat) : (s.setKv k c).pt x = s.pt x := rfl
@[simp] theorem State.setKv_rg (k : Nat) (c : Kvp) (x : Nat) : (s.setKv k c).rg x = s.rg x := rfl
@[simp] theorem State.setKv_byte (k : Nat) (c : Kvp) (x : Nat) : (s.setKv k c).byte x = s.byte x := rfl
@[simp] theorem State.setKv_coreRegs (k : Nat) (c : Kvp) (x : Nat) : (s.setKv k c).coreRegs x = s.coreRegs x := rfl
@[simp] theorem State.setKv_stake (k : Nat) (c : Kvp) (x : Nat) : (s.setKv k c).stake x = s.stake x := rfl
@[simp] theorem State.setKv_enabled (k : Nat) (c : Kvp) (x : Nat) : (s.setKv k c).enabled x = s.enabled x := rfl

/-! ### setJob -/

@[simp] theorem State.setJob_pending (k : Nat) (c : Job) : (s.setJob k c).pending = s.pending := rfl
@[simp] theorem State.setJob_regs (k : Nat) (c : Job) : (s.setJob k c).regs = s.regs := rfl
@[simp] theorem State.setJob_mem (k : Nat) (c : Job) : (s.setJob k c).mem = s.mem := rfl
@[simp] theorem State.setJob_undef (k : Nat) (c : Job) : (s.setJob k c).undef = s.undef := rfl
@[simp] theorem State.setJob_poison (k : Nat) (c : Job) : (s.setJob k c).poison = s.poison := rfl
@[simp] theorem State.setJob_free (k : Nat) (c : Job) : (s.setJob k c).free = s.free := rfl
@[simp] theorem State.setJob_resp (k : Nat) (c : Job) : (s.setJob k c).resp = s.resp := rfl
@[simp] theorem State.setJob_lk (k : Nat) (c : Job) : (s.setJob k c).lk = s.lk := rfl
@[simp] theorem State.setJob_weave (k : Nat) (c : Job) : (s.setJob k c).weave = s.weave := rfl
@[simp] theorem State.setJob_fuses (k : Nat) (c : Job) : (s.setJob k c).fuses = s.fuses := rfl
@[simp] theorem State.setJob_flash (k : Nat) (c : Job) : (s.setJob k c).flash = s.flash := rfl
@[simp] theorem State.setJob_sec (k : Nat) (c : Job) : (s.setJob k c).sec = s.sec := rfl
@[simp] theorem State.setJob_failEng (k : Nat) (c : Job) : (s.setJob k c).failEng = s.failEng := rfl
@[simp] theorem State.setJob_failPvu (k : Nat) (c : Job) : (s.setJob k c).failPvu = s.failPvu := rfl
@[simp] theorem State.setJob_failTc (k : Nat) (c : Job) : (s.setJob k c).failTc = s.failTc := rfl
@[simp] theorem State.setJob_failQuay (k : Nat) (c : Job) : (s.setJob k c).failQuay = s.failQuay := rfl
@[simp] theorem State.setJob_failCh (k : Nat) (c : Job) : (s.setJob k c).failCh = s.failCh := rfl
@[simp] theorem State.setJob_psq (k : Nat) (c : Job) : (s.setJob k c).psq = s.psq := rfl
@[simp] theorem State.setJob_slots (k : Nat) (c : Job) : (s.setJob k c).slots = s.slots := rfl
@[simp] theorem State.setJob_pvu (k : Nat) (c : Job) : (s.setJob k c).pvu = s.pvu := rfl
@[simp] theorem State.setJob_asu (k : Nat) (c : Job) : (s.setJob k c).asu = s.asu := rfl
@[simp] theorem State.setJob_quay (k : Nat) (c : Job) : (s.setJob k c).quay = s.quay := rfl
@[simp] theorem State.setJob_binds (k : Nat) (c : Job) : (s.setJob k c).binds = s.binds := rfl
@[simp] theorem State.setJob_macs (k : Nat) (c : Job) : (s.setJob k c).macs = s.macs := rfl
@[simp] theorem State.setJob_xch (k : Nat) (c : Job) : (s.setJob k c).xch = s.xch := rfl
@[simp] theorem State.setJob_port (k : Nat) (c : Job) : (s.setJob k c).port = s.port := rfl
@[simp] theorem State.setJob_ring (k : Nat) (c : Job) : (s.setJob k c).ring = s.ring := rfl
@[simp] theorem State.setJob_out (k : Nat) (c : Job) : (s.setJob k c).out = s.out := rfl
@[simp] theorem State.setJob_msix (k : Nat) (c : Job) : (s.setJob k c).msix = s.msix := rfl
@[simp] theorem State.setJob_pba (k : Nat) (c : Job) : (s.setJob k c).pba = s.pba := rfl
@[simp] theorem State.setJob_added (k : Nat) (c : Job) : (s.setJob k c).added = s.added := rfl
@[simp] theorem State.setJob_kvp (k : Nat) (c : Job) : (s.setJob k c).kvp = s.kvp := rfl
@[simp] theorem State.setJob_thread (k : Nat) (c : Job) : (s.setJob k c).thread = s.thread := rfl
@[simp] theorem State.setJob_l1 (k : Nat) (c : Job) : (s.setJob k c).l1 = s.l1 := rfl
@[simp] theorem State.setJob_il1 (k : Nat) (c : Job) : (s.setJob k c).il1 = s.il1 := rfl
@[simp] theorem State.setJob_wakes (k : Nat) (c : Job) : (s.setJob k c).wakes = s.wakes := rfl
@[simp] theorem State.setJob_time (k : Nat) (c : Job) : (s.setJob k c).time = s.time := rfl
@[simp] theorem State.setJob_core (k : Nat) (c : Job) : (s.setJob k c).core = s.core := rfl
@[simp] theorem State.setJob_takes (k : Nat) (c : Job) : (s.setJob k c).takes = s.takes := rfl
@[simp] theorem State.setJob_homes (k : Nat) (c : Job) : (s.setJob k c).homes = s.homes := rfl
@[simp] theorem State.setJob_copies (k : Nat) (c : Job) : (s.setJob k c).copies = s.copies := rfl
@[simp] theorem State.setJob_resv (k : Nat) (c : Job) : (s.setJob k c).resv = s.resv := rfl
@[simp] theorem State.setJob_recs (k : Nat) (c : Job) : (s.setJob k c).recs = s.recs := rfl
@[simp] theorem State.setJob_hq (k : Nat) (c : Job) : (s.setJob k c).hq = s.hq := rfl
@[simp] theorem State.setJob_poolK (k : Nat) (c : Job) : (s.setJob k c).poolK = s.poolK := rfl
@[simp] theorem State.setJob_poolEra (k : Nat) (c : Job) : (s.setJob k c).poolEra = s.poolEra := rfl
@[simp] theorem State.setJob_pci (k : Nat) (c : Job) : (s.setJob k c).pci = s.pci := rfl
@[simp] theorem State.setJob_replay (k : Nat) (c : Job) : (s.setJob k c).replay = s.replay := rfl
@[simp] theorem State.setJob_reg (k : Nat) (c : Job) (x : Nat) : (s.setJob k c).reg x = s.reg x := rfl
@[simp] theorem State.setJob_fld (k : Nat) (c : Job) (x : Nat) (g : Fld) : (s.setJob k c).fld x g = s.fld x g := rfl
@[simp] theorem State.setJob_flag (k : Nat) (c : Job) (x : Nat) (g : Fld) : (s.setJob k c).flag x g = s.flag x g := rfl
@[simp] theorem State.setJob_fldBit (k : Nat) (c : Job) (x : Nat) (g : Fld) (j : Nat) : (s.setJob k c).fldBit x g j = s.fldBit x g j := rfl
@[simp] theorem State.setJob_q (k : Nat) (c : Job) (x : Nat) : (s.setJob k c).q x = s.q x := rfl
@[simp] theorem State.setJob_pv (k : Nat) (c : Job) (x : Nat) : (s.setJob k c).pv x = s.pv x := rfl
@[simp] theorem State.setJob_as (k : Nat) (c : Job) (x y : Nat) : (s.setJob k c).as x y = s.as x y := rfl
@[simp] theorem State.setJob_qu (k : Nat) (c : Job) (x : Nat) : (s.setJob k c).qu x = s.qu x := rfl
@[simp] theorem State.setJob_slot (k : Nat) (c : Job) (x y : Nat) : (s.setJob k c).slot x y = s.slot x y := rfl
@[simp] theorem State.setJob_hqOf (k : Nat) (c : Job) (x : Nat) : (s.setJob k c).hqOf x = s.hqOf x := rfl
@[simp] theorem State.setJob_kv (k : Nat) (c : Job) (x : Nat) : (s.setJob k c).kv x = s.kv x := rfl
@[simp] theorem State.setJob_xc (k : Nat) (c : Job) (x : Nat) : (s.setJob k c).xc x = s.xc x := rfl
@[simp] theorem State.setJob_home (k : Nat) (c : Job) (x : Nat) : (s.setJob k c).home x = s.home x := rfl
@[simp] theorem State.setJob_thr (k : Nat) (c : Job) (x : Nat) : (s.setJob k c).thr x = s.thr x := rfl
@[simp] theorem State.setJob_pt (k : Nat) (c : Job) (x : Nat) : (s.setJob k c).pt x = s.pt x := rfl
@[simp] theorem State.setJob_rg (k : Nat) (c : Job) (x : Nat) : (s.setJob k c).rg x = s.rg x := rfl
@[simp] theorem State.setJob_byte (k : Nat) (c : Job) (x : Nat) : (s.setJob k c).byte x = s.byte x := rfl
@[simp] theorem State.setJob_coreRegs (k : Nat) (c : Job) (x : Nat) : (s.setJob k c).coreRegs x = s.coreRegs x := rfl
@[simp] theorem State.setJob_stake (k : Nat) (c : Job) (x : Nat) : (s.setJob k c).stake x = s.stake x := rfl
@[simp] theorem State.setJob_enabled (k : Nat) (c : Job) (x : Nat) : (s.setJob k c).enabled x = s.enabled x := rfl

/-! ### setXc -/

@[simp] theorem State.setXc_pending (k : Nat) (c : Xch) : (s.setXc k c).pending = s.pending := rfl
@[simp] theorem State.setXc_mem (k : Nat) (c : Xch) : (s.setXc k c).mem = s.mem := rfl
@[simp] theorem State.setXc_undef (k : Nat) (c : Xch) : (s.setXc k c).undef = s.undef := rfl
@[simp] theorem State.setXc_poison (k : Nat) (c : Xch) : (s.setXc k c).poison = s.poison := rfl
@[simp] theorem State.setXc_free (k : Nat) (c : Xch) : (s.setXc k c).free = s.free := rfl
@[simp] theorem State.setXc_resp (k : Nat) (c : Xch) : (s.setXc k c).resp = s.resp := rfl
@[simp] theorem State.setXc_lk (k : Nat) (c : Xch) : (s.setXc k c).lk = s.lk := rfl
@[simp] theorem State.setXc_weave (k : Nat) (c : Xch) : (s.setXc k c).weave = s.weave := rfl
@[simp] theorem State.setXc_fuses (k : Nat) (c : Xch) : (s.setXc k c).fuses = s.fuses := rfl
@[simp] theorem State.setXc_flash (k : Nat) (c : Xch) : (s.setXc k c).flash = s.flash := rfl
@[simp] theorem State.setXc_sec (k : Nat) (c : Xch) : (s.setXc k c).sec = s.sec := rfl
@[simp] theorem State.setXc_failEng (k : Nat) (c : Xch) : (s.setXc k c).failEng = s.failEng := rfl
@[simp] theorem State.setXc_failPvu (k : Nat) (c : Xch) : (s.setXc k c).failPvu = s.failPvu := rfl
@[simp] theorem State.setXc_failTc (k : Nat) (c : Xch) : (s.setXc k c).failTc = s.failTc := rfl
@[simp] theorem State.setXc_failQuay (k : Nat) (c : Xch) : (s.setXc k c).failQuay = s.failQuay := rfl
@[simp] theorem State.setXc_failCh (k : Nat) (c : Xch) : (s.setXc k c).failCh = s.failCh := rfl
@[simp] theorem State.setXc_psq (k : Nat) (c : Xch) : (s.setXc k c).psq = s.psq := rfl
@[simp] theorem State.setXc_slots (k : Nat) (c : Xch) : (s.setXc k c).slots = s.slots := rfl
@[simp] theorem State.setXc_pvu (k : Nat) (c : Xch) : (s.setXc k c).pvu = s.pvu := rfl
@[simp] theorem State.setXc_asu (k : Nat) (c : Xch) : (s.setXc k c).asu = s.asu := rfl
@[simp] theorem State.setXc_quay (k : Nat) (c : Xch) : (s.setXc k c).quay = s.quay := rfl
@[simp] theorem State.setXc_binds (k : Nat) (c : Xch) : (s.setXc k c).binds = s.binds := rfl
@[simp] theorem State.setXc_macs (k : Nat) (c : Xch) : (s.setXc k c).macs = s.macs := rfl
@[simp] theorem State.setXc_jobs (k : Nat) (c : Xch) : (s.setXc k c).jobs = s.jobs := rfl
@[simp] theorem State.setXc_port (k : Nat) (c : Xch) : (s.setXc k c).port = s.port := rfl
@[simp] theorem State.setXc_ring (k : Nat) (c : Xch) : (s.setXc k c).ring = s.ring := rfl
@[simp] theorem State.setXc_out (k : Nat) (c : Xch) : (s.setXc k c).out = s.out := rfl
@[simp] theorem State.setXc_msix (k : Nat) (c : Xch) : (s.setXc k c).msix = s.msix := rfl
@[simp] theorem State.setXc_pba (k : Nat) (c : Xch) : (s.setXc k c).pba = s.pba := rfl
@[simp] theorem State.setXc_added (k : Nat) (c : Xch) : (s.setXc k c).added = s.added := rfl
@[simp] theorem State.setXc_kvp (k : Nat) (c : Xch) : (s.setXc k c).kvp = s.kvp := rfl
@[simp] theorem State.setXc_thread (k : Nat) (c : Xch) : (s.setXc k c).thread = s.thread := rfl
@[simp] theorem State.setXc_l1 (k : Nat) (c : Xch) : (s.setXc k c).l1 = s.l1 := rfl
@[simp] theorem State.setXc_il1 (k : Nat) (c : Xch) : (s.setXc k c).il1 = s.il1 := rfl
@[simp] theorem State.setXc_wakes (k : Nat) (c : Xch) : (s.setXc k c).wakes = s.wakes := rfl
@[simp] theorem State.setXc_time (k : Nat) (c : Xch) : (s.setXc k c).time = s.time := rfl
@[simp] theorem State.setXc_core (k : Nat) (c : Xch) : (s.setXc k c).core = s.core := rfl
@[simp] theorem State.setXc_takes (k : Nat) (c : Xch) : (s.setXc k c).takes = s.takes := rfl
@[simp] theorem State.setXc_homes (k : Nat) (c : Xch) : (s.setXc k c).homes = s.homes := rfl
@[simp] theorem State.setXc_copies (k : Nat) (c : Xch) : (s.setXc k c).copies = s.copies := rfl
@[simp] theorem State.setXc_resv (k : Nat) (c : Xch) : (s.setXc k c).resv = s.resv := rfl
@[simp] theorem State.setXc_recs (k : Nat) (c : Xch) : (s.setXc k c).recs = s.recs := rfl
@[simp] theorem State.setXc_hq (k : Nat) (c : Xch) : (s.setXc k c).hq = s.hq := rfl
@[simp] theorem State.setXc_poolK (k : Nat) (c : Xch) : (s.setXc k c).poolK = s.poolK := rfl
@[simp] theorem State.setXc_poolEra (k : Nat) (c : Xch) : (s.setXc k c).poolEra = s.poolEra := rfl
@[simp] theorem State.setXc_pci (k : Nat) (c : Xch) : (s.setXc k c).pci = s.pci := rfl
@[simp] theorem State.setXc_replay (k : Nat) (c : Xch) : (s.setXc k c).replay = s.replay := rfl
@[simp] theorem State.setXc_q (k : Nat) (c : Xch) (x : Nat) : (s.setXc k c).q x = s.q x := rfl
@[simp] theorem State.setXc_pv (k : Nat) (c : Xch) (x : Nat) : (s.setXc k c).pv x = s.pv x := rfl
@[simp] theorem State.setXc_as (k : Nat) (c : Xch) (x y : Nat) : (s.setXc k c).as x y = s.as x y := rfl
@[simp] theorem State.setXc_qu (k : Nat) (c : Xch) (x : Nat) : (s.setXc k c).qu x = s.qu x := rfl
@[simp] theorem State.setXc_slot (k : Nat) (c : Xch) (x y : Nat) : (s.setXc k c).slot x y = s.slot x y := rfl
@[simp] theorem State.setXc_hqOf (k : Nat) (c : Xch) (x : Nat) : (s.setXc k c).hqOf x = s.hqOf x := rfl
@[simp] theorem State.setXc_kv (k : Nat) (c : Xch) (x : Nat) : (s.setXc k c).kv x = s.kv x := rfl
@[simp] theorem State.setXc_job (k : Nat) (c : Xch) (x : Nat) : (s.setXc k c).job x = s.job x := rfl
@[simp] theorem State.setXc_home (k : Nat) (c : Xch) (x : Nat) : (s.setXc k c).home x = s.home x := rfl
@[simp] theorem State.setXc_thr (k : Nat) (c : Xch) (x : Nat) : (s.setXc k c).thr x = s.thr x := rfl
@[simp] theorem State.setXc_pt (k : Nat) (c : Xch) (x : Nat) : (s.setXc k c).pt x = s.pt x := rfl
@[simp] theorem State.setXc_rg (k : Nat) (c : Xch) (x : Nat) : (s.setXc k c).rg x = s.rg x := rfl
@[simp] theorem State.setXc_byte (k : Nat) (c : Xch) (x : Nat) : (s.setXc k c).byte x = s.byte x := rfl
@[simp] theorem State.setXc_coreRegs (k : Nat) (c : Xch) (x : Nat) : (s.setXc k c).coreRegs x = s.coreRegs x := rfl
@[simp] theorem State.setXc_stake (k : Nat) (c : Xch) (x : Nat) : (s.setXc k c).stake x = s.stake x := rfl
@[simp] theorem State.setXc_enabled (k : Nat) (c : Xch) (x : Nat) : (s.setXc k c).enabled x = s.enabled x := rfl

/-! ### setHome -/

@[simp] theorem State.setHome_pending (k : Nat) (c : Home) : (s.setHome k c).pending = s.pending := rfl
@[simp] theorem State.setHome_regs (k : Nat) (c : Home) : (s.setHome k c).regs = s.regs := rfl
@[simp] theorem State.setHome_mem (k : Nat) (c : Home) : (s.setHome k c).mem = s.mem := rfl
@[simp] theorem State.setHome_undef (k : Nat) (c : Home) : (s.setHome k c).undef = s.undef := rfl
@[simp] theorem State.setHome_poison (k : Nat) (c : Home) : (s.setHome k c).poison = s.poison := rfl
@[simp] theorem State.setHome_free (k : Nat) (c : Home) : (s.setHome k c).free = s.free := rfl
@[simp] theorem State.setHome_resp (k : Nat) (c : Home) : (s.setHome k c).resp = s.resp := rfl
@[simp] theorem State.setHome_lk (k : Nat) (c : Home) : (s.setHome k c).lk = s.lk := rfl
@[simp] theorem State.setHome_weave (k : Nat) (c : Home) : (s.setHome k c).weave = s.weave := rfl
@[simp] theorem State.setHome_fuses (k : Nat) (c : Home) : (s.setHome k c).fuses = s.fuses := rfl
@[simp] theorem State.setHome_flash (k : Nat) (c : Home) : (s.setHome k c).flash = s.flash := rfl
@[simp] theorem State.setHome_sec (k : Nat) (c : Home) : (s.setHome k c).sec = s.sec := rfl
@[simp] theorem State.setHome_failEng (k : Nat) (c : Home) : (s.setHome k c).failEng = s.failEng := rfl
@[simp] theorem State.setHome_failPvu (k : Nat) (c : Home) : (s.setHome k c).failPvu = s.failPvu := rfl
@[simp] theorem State.setHome_failTc (k : Nat) (c : Home) : (s.setHome k c).failTc = s.failTc := rfl
@[simp] theorem State.setHome_failQuay (k : Nat) (c : Home) : (s.setHome k c).failQuay = s.failQuay := rfl
@[simp] theorem State.setHome_failCh (k : Nat) (c : Home) : (s.setHome k c).failCh = s.failCh := rfl
@[simp] theorem State.setHome_psq (k : Nat) (c : Home) : (s.setHome k c).psq = s.psq := rfl
@[simp] theorem State.setHome_slots (k : Nat) (c : Home) : (s.setHome k c).slots = s.slots := rfl
@[simp] theorem State.setHome_pvu (k : Nat) (c : Home) : (s.setHome k c).pvu = s.pvu := rfl
@[simp] theorem State.setHome_asu (k : Nat) (c : Home) : (s.setHome k c).asu = s.asu := rfl
@[simp] theorem State.setHome_quay (k : Nat) (c : Home) : (s.setHome k c).quay = s.quay := rfl
@[simp] theorem State.setHome_binds (k : Nat) (c : Home) : (s.setHome k c).binds = s.binds := rfl
@[simp] theorem State.setHome_macs (k : Nat) (c : Home) : (s.setHome k c).macs = s.macs := rfl
@[simp] theorem State.setHome_xch (k : Nat) (c : Home) : (s.setHome k c).xch = s.xch := rfl
@[simp] theorem State.setHome_jobs (k : Nat) (c : Home) : (s.setHome k c).jobs = s.jobs := rfl
@[simp] theorem State.setHome_port (k : Nat) (c : Home) : (s.setHome k c).port = s.port := rfl
@[simp] theorem State.setHome_ring (k : Nat) (c : Home) : (s.setHome k c).ring = s.ring := rfl
@[simp] theorem State.setHome_out (k : Nat) (c : Home) : (s.setHome k c).out = s.out := rfl
@[simp] theorem State.setHome_msix (k : Nat) (c : Home) : (s.setHome k c).msix = s.msix := rfl
@[simp] theorem State.setHome_pba (k : Nat) (c : Home) : (s.setHome k c).pba = s.pba := rfl
@[simp] theorem State.setHome_added (k : Nat) (c : Home) : (s.setHome k c).added = s.added := rfl
@[simp] theorem State.setHome_kvp (k : Nat) (c : Home) : (s.setHome k c).kvp = s.kvp := rfl
@[simp] theorem State.setHome_thread (k : Nat) (c : Home) : (s.setHome k c).thread = s.thread := rfl
@[simp] theorem State.setHome_l1 (k : Nat) (c : Home) : (s.setHome k c).l1 = s.l1 := rfl
@[simp] theorem State.setHome_il1 (k : Nat) (c : Home) : (s.setHome k c).il1 = s.il1 := rfl
@[simp] theorem State.setHome_wakes (k : Nat) (c : Home) : (s.setHome k c).wakes = s.wakes := rfl
@[simp] theorem State.setHome_time (k : Nat) (c : Home) : (s.setHome k c).time = s.time := rfl
@[simp] theorem State.setHome_core (k : Nat) (c : Home) : (s.setHome k c).core = s.core := rfl
@[simp] theorem State.setHome_takes (k : Nat) (c : Home) : (s.setHome k c).takes = s.takes := rfl
@[simp] theorem State.setHome_copies (k : Nat) (c : Home) : (s.setHome k c).copies = s.copies := rfl
@[simp] theorem State.setHome_resv (k : Nat) (c : Home) : (s.setHome k c).resv = s.resv := rfl
@[simp] theorem State.setHome_recs (k : Nat) (c : Home) : (s.setHome k c).recs = s.recs := rfl
@[simp] theorem State.setHome_hq (k : Nat) (c : Home) : (s.setHome k c).hq = s.hq := rfl
@[simp] theorem State.setHome_poolK (k : Nat) (c : Home) : (s.setHome k c).poolK = s.poolK := rfl
@[simp] theorem State.setHome_poolEra (k : Nat) (c : Home) : (s.setHome k c).poolEra = s.poolEra := rfl
@[simp] theorem State.setHome_pci (k : Nat) (c : Home) : (s.setHome k c).pci = s.pci := rfl
@[simp] theorem State.setHome_replay (k : Nat) (c : Home) : (s.setHome k c).replay = s.replay := rfl
@[simp] theorem State.setHome_reg (k : Nat) (c : Home) (x : Nat) : (s.setHome k c).reg x = s.reg x := rfl
@[simp] theorem State.setHome_fld (k : Nat) (c : Home) (x : Nat) (g : Fld) : (s.setHome k c).fld x g = s.fld x g := rfl
@[simp] theorem State.setHome_flag (k : Nat) (c : Home) (x : Nat) (g : Fld) : (s.setHome k c).flag x g = s.flag x g := rfl
@[simp] theorem State.setHome_fldBit (k : Nat) (c : Home) (x : Nat) (g : Fld) (j : Nat) : (s.setHome k c).fldBit x g j = s.fldBit x g j := rfl
@[simp] theorem State.setHome_q (k : Nat) (c : Home) (x : Nat) : (s.setHome k c).q x = s.q x := rfl
@[simp] theorem State.setHome_pv (k : Nat) (c : Home) (x : Nat) : (s.setHome k c).pv x = s.pv x := rfl
@[simp] theorem State.setHome_as (k : Nat) (c : Home) (x y : Nat) : (s.setHome k c).as x y = s.as x y := rfl
@[simp] theorem State.setHome_qu (k : Nat) (c : Home) (x : Nat) : (s.setHome k c).qu x = s.qu x := rfl
@[simp] theorem State.setHome_slot (k : Nat) (c : Home) (x y : Nat) : (s.setHome k c).slot x y = s.slot x y := rfl
@[simp] theorem State.setHome_hqOf (k : Nat) (c : Home) (x : Nat) : (s.setHome k c).hqOf x = s.hqOf x := rfl
@[simp] theorem State.setHome_kv (k : Nat) (c : Home) (x : Nat) : (s.setHome k c).kv x = s.kv x := rfl
@[simp] theorem State.setHome_job (k : Nat) (c : Home) (x : Nat) : (s.setHome k c).job x = s.job x := rfl
@[simp] theorem State.setHome_xc (k : Nat) (c : Home) (x : Nat) : (s.setHome k c).xc x = s.xc x := rfl
@[simp] theorem State.setHome_thr (k : Nat) (c : Home) (x : Nat) : (s.setHome k c).thr x = s.thr x := rfl
@[simp] theorem State.setHome_pt (k : Nat) (c : Home) (x : Nat) : (s.setHome k c).pt x = s.pt x := rfl
@[simp] theorem State.setHome_rg (k : Nat) (c : Home) (x : Nat) : (s.setHome k c).rg x = s.rg x := rfl
@[simp] theorem State.setHome_byte (k : Nat) (c : Home) (x : Nat) : (s.setHome k c).byte x = s.byte x := rfl
@[simp] theorem State.setHome_coreRegs (k : Nat) (c : Home) (x : Nat) : (s.setHome k c).coreRegs x = s.coreRegs x := rfl
@[simp] theorem State.setHome_stake (k : Nat) (c : Home) (x : Nat) : (s.setHome k c).stake x = s.stake x := rfl
@[simp] theorem State.setHome_enabled (k : Nat) (c : Home) (x : Nat) : (s.setHome k c).enabled x = s.enabled x := rfl

/-! ### setThr -/

@[simp] theorem State.setThr_pending (k : Nat) (c : Thread) : (s.setThr k c).pending = s.pending := rfl
@[simp] theorem State.setThr_regs (k : Nat) (c : Thread) : (s.setThr k c).regs = s.regs := rfl
@[simp] theorem State.setThr_mem (k : Nat) (c : Thread) : (s.setThr k c).mem = s.mem := rfl
@[simp] theorem State.setThr_undef (k : Nat) (c : Thread) : (s.setThr k c).undef = s.undef := rfl
@[simp] theorem State.setThr_poison (k : Nat) (c : Thread) : (s.setThr k c).poison = s.poison := rfl
@[simp] theorem State.setThr_free (k : Nat) (c : Thread) : (s.setThr k c).free = s.free := rfl
@[simp] theorem State.setThr_resp (k : Nat) (c : Thread) : (s.setThr k c).resp = s.resp := rfl
@[simp] theorem State.setThr_lk (k : Nat) (c : Thread) : (s.setThr k c).lk = s.lk := rfl
@[simp] theorem State.setThr_weave (k : Nat) (c : Thread) : (s.setThr k c).weave = s.weave := rfl
@[simp] theorem State.setThr_fuses (k : Nat) (c : Thread) : (s.setThr k c).fuses = s.fuses := rfl
@[simp] theorem State.setThr_flash (k : Nat) (c : Thread) : (s.setThr k c).flash = s.flash := rfl
@[simp] theorem State.setThr_sec (k : Nat) (c : Thread) : (s.setThr k c).sec = s.sec := rfl
@[simp] theorem State.setThr_failEng (k : Nat) (c : Thread) : (s.setThr k c).failEng = s.failEng := rfl
@[simp] theorem State.setThr_failPvu (k : Nat) (c : Thread) : (s.setThr k c).failPvu = s.failPvu := rfl
@[simp] theorem State.setThr_failTc (k : Nat) (c : Thread) : (s.setThr k c).failTc = s.failTc := rfl
@[simp] theorem State.setThr_failQuay (k : Nat) (c : Thread) : (s.setThr k c).failQuay = s.failQuay := rfl
@[simp] theorem State.setThr_failCh (k : Nat) (c : Thread) : (s.setThr k c).failCh = s.failCh := rfl
@[simp] theorem State.setThr_psq (k : Nat) (c : Thread) : (s.setThr k c).psq = s.psq := rfl
@[simp] theorem State.setThr_slots (k : Nat) (c : Thread) : (s.setThr k c).slots = s.slots := rfl
@[simp] theorem State.setThr_pvu (k : Nat) (c : Thread) : (s.setThr k c).pvu = s.pvu := rfl
@[simp] theorem State.setThr_asu (k : Nat) (c : Thread) : (s.setThr k c).asu = s.asu := rfl
@[simp] theorem State.setThr_quay (k : Nat) (c : Thread) : (s.setThr k c).quay = s.quay := rfl
@[simp] theorem State.setThr_binds (k : Nat) (c : Thread) : (s.setThr k c).binds = s.binds := rfl
@[simp] theorem State.setThr_macs (k : Nat) (c : Thread) : (s.setThr k c).macs = s.macs := rfl
@[simp] theorem State.setThr_xch (k : Nat) (c : Thread) : (s.setThr k c).xch = s.xch := rfl
@[simp] theorem State.setThr_jobs (k : Nat) (c : Thread) : (s.setThr k c).jobs = s.jobs := rfl
@[simp] theorem State.setThr_port (k : Nat) (c : Thread) : (s.setThr k c).port = s.port := rfl
@[simp] theorem State.setThr_ring (k : Nat) (c : Thread) : (s.setThr k c).ring = s.ring := rfl
@[simp] theorem State.setThr_out (k : Nat) (c : Thread) : (s.setThr k c).out = s.out := rfl
@[simp] theorem State.setThr_msix (k : Nat) (c : Thread) : (s.setThr k c).msix = s.msix := rfl
@[simp] theorem State.setThr_pba (k : Nat) (c : Thread) : (s.setThr k c).pba = s.pba := rfl
@[simp] theorem State.setThr_added (k : Nat) (c : Thread) : (s.setThr k c).added = s.added := rfl
@[simp] theorem State.setThr_kvp (k : Nat) (c : Thread) : (s.setThr k c).kvp = s.kvp := rfl
@[simp] theorem State.setThr_l1 (k : Nat) (c : Thread) : (s.setThr k c).l1 = s.l1 := rfl
@[simp] theorem State.setThr_il1 (k : Nat) (c : Thread) : (s.setThr k c).il1 = s.il1 := rfl
@[simp] theorem State.setThr_wakes (k : Nat) (c : Thread) : (s.setThr k c).wakes = s.wakes := rfl
@[simp] theorem State.setThr_time (k : Nat) (c : Thread) : (s.setThr k c).time = s.time := rfl
@[simp] theorem State.setThr_core (k : Nat) (c : Thread) : (s.setThr k c).core = s.core := rfl
@[simp] theorem State.setThr_takes (k : Nat) (c : Thread) : (s.setThr k c).takes = s.takes := rfl
@[simp] theorem State.setThr_homes (k : Nat) (c : Thread) : (s.setThr k c).homes = s.homes := rfl
@[simp] theorem State.setThr_copies (k : Nat) (c : Thread) : (s.setThr k c).copies = s.copies := rfl
@[simp] theorem State.setThr_resv (k : Nat) (c : Thread) : (s.setThr k c).resv = s.resv := rfl
@[simp] theorem State.setThr_recs (k : Nat) (c : Thread) : (s.setThr k c).recs = s.recs := rfl
@[simp] theorem State.setThr_hq (k : Nat) (c : Thread) : (s.setThr k c).hq = s.hq := rfl
@[simp] theorem State.setThr_poolK (k : Nat) (c : Thread) : (s.setThr k c).poolK = s.poolK := rfl
@[simp] theorem State.setThr_poolEra (k : Nat) (c : Thread) : (s.setThr k c).poolEra = s.poolEra := rfl
@[simp] theorem State.setThr_pci (k : Nat) (c : Thread) : (s.setThr k c).pci = s.pci := rfl
@[simp] theorem State.setThr_replay (k : Nat) (c : Thread) : (s.setThr k c).replay = s.replay := rfl
@[simp] theorem State.setThr_reg (k : Nat) (c : Thread) (x : Nat) : (s.setThr k c).reg x = s.reg x := rfl
@[simp] theorem State.setThr_fld (k : Nat) (c : Thread) (x : Nat) (g : Fld) : (s.setThr k c).fld x g = s.fld x g := rfl
@[simp] theorem State.setThr_flag (k : Nat) (c : Thread) (x : Nat) (g : Fld) : (s.setThr k c).flag x g = s.flag x g := rfl
@[simp] theorem State.setThr_fldBit (k : Nat) (c : Thread) (x : Nat) (g : Fld) (j : Nat) : (s.setThr k c).fldBit x g j = s.fldBit x g j := rfl
@[simp] theorem State.setThr_q (k : Nat) (c : Thread) (x : Nat) : (s.setThr k c).q x = s.q x := rfl
@[simp] theorem State.setThr_pv (k : Nat) (c : Thread) (x : Nat) : (s.setThr k c).pv x = s.pv x := rfl
@[simp] theorem State.setThr_as (k : Nat) (c : Thread) (x y : Nat) : (s.setThr k c).as x y = s.as x y := rfl
@[simp] theorem State.setThr_qu (k : Nat) (c : Thread) (x : Nat) : (s.setThr k c).qu x = s.qu x := rfl
@[simp] theorem State.setThr_slot (k : Nat) (c : Thread) (x y : Nat) : (s.setThr k c).slot x y = s.slot x y := rfl
@[simp] theorem State.setThr_hqOf (k : Nat) (c : Thread) (x : Nat) : (s.setThr k c).hqOf x = s.hqOf x := rfl
@[simp] theorem State.setThr_kv (k : Nat) (c : Thread) (x : Nat) : (s.setThr k c).kv x = s.kv x := rfl
@[simp] theorem State.setThr_job (k : Nat) (c : Thread) (x : Nat) : (s.setThr k c).job x = s.job x := rfl
@[simp] theorem State.setThr_xc (k : Nat) (c : Thread) (x : Nat) : (s.setThr k c).xc x = s.xc x := rfl
@[simp] theorem State.setThr_home (k : Nat) (c : Thread) (x : Nat) : (s.setThr k c).home x = s.home x := rfl
@[simp] theorem State.setThr_pt (k : Nat) (c : Thread) (x : Nat) : (s.setThr k c).pt x = s.pt x := rfl
@[simp] theorem State.setThr_rg (k : Nat) (c : Thread) (x : Nat) : (s.setThr k c).rg x = s.rg x := rfl
@[simp] theorem State.setThr_byte (k : Nat) (c : Thread) (x : Nat) : (s.setThr k c).byte x = s.byte x := rfl
@[simp] theorem State.setThr_coreRegs (k : Nat) (c : Thread) (x : Nat) : (s.setThr k c).coreRegs x = s.coreRegs x := rfl
@[simp] theorem State.setThr_stake (k : Nat) (c : Thread) (x : Nat) : (s.setThr k c).stake x = s.stake x := rfl
@[simp] theorem State.setThr_enabled (k : Nat) (c : Thread) (x : Nat) : (s.setThr k c).enabled x = s.enabled x := rfl

/-! ### setL1 -/

@[simp] theorem State.setL1_pending (k : Nat) (l : List L1Line) : (s.setL1 k l).pending = s.pending := rfl
@[simp] theorem State.setL1_regs (k : Nat) (l : List L1Line) : (s.setL1 k l).regs = s.regs := rfl
@[simp] theorem State.setL1_mem (k : Nat) (l : List L1Line) : (s.setL1 k l).mem = s.mem := rfl
@[simp] theorem State.setL1_undef (k : Nat) (l : List L1Line) : (s.setL1 k l).undef = s.undef := rfl
@[simp] theorem State.setL1_poison (k : Nat) (l : List L1Line) : (s.setL1 k l).poison = s.poison := rfl
@[simp] theorem State.setL1_free (k : Nat) (l : List L1Line) : (s.setL1 k l).free = s.free := rfl
@[simp] theorem State.setL1_resp (k : Nat) (l : List L1Line) : (s.setL1 k l).resp = s.resp := rfl
@[simp] theorem State.setL1_lk (k : Nat) (l : List L1Line) : (s.setL1 k l).lk = s.lk := rfl
@[simp] theorem State.setL1_weave (k : Nat) (l : List L1Line) : (s.setL1 k l).weave = s.weave := rfl
@[simp] theorem State.setL1_fuses (k : Nat) (l : List L1Line) : (s.setL1 k l).fuses = s.fuses := rfl
@[simp] theorem State.setL1_flash (k : Nat) (l : List L1Line) : (s.setL1 k l).flash = s.flash := rfl
@[simp] theorem State.setL1_sec (k : Nat) (l : List L1Line) : (s.setL1 k l).sec = s.sec := rfl
@[simp] theorem State.setL1_failEng (k : Nat) (l : List L1Line) : (s.setL1 k l).failEng = s.failEng := rfl
@[simp] theorem State.setL1_failPvu (k : Nat) (l : List L1Line) : (s.setL1 k l).failPvu = s.failPvu := rfl
@[simp] theorem State.setL1_failTc (k : Nat) (l : List L1Line) : (s.setL1 k l).failTc = s.failTc := rfl
@[simp] theorem State.setL1_failQuay (k : Nat) (l : List L1Line) : (s.setL1 k l).failQuay = s.failQuay := rfl
@[simp] theorem State.setL1_failCh (k : Nat) (l : List L1Line) : (s.setL1 k l).failCh = s.failCh := rfl
@[simp] theorem State.setL1_psq (k : Nat) (l : List L1Line) : (s.setL1 k l).psq = s.psq := rfl
@[simp] theorem State.setL1_slots (k : Nat) (l : List L1Line) : (s.setL1 k l).slots = s.slots := rfl
@[simp] theorem State.setL1_pvu (k : Nat) (l : List L1Line) : (s.setL1 k l).pvu = s.pvu := rfl
@[simp] theorem State.setL1_asu (k : Nat) (l : List L1Line) : (s.setL1 k l).asu = s.asu := rfl
@[simp] theorem State.setL1_quay (k : Nat) (l : List L1Line) : (s.setL1 k l).quay = s.quay := rfl
@[simp] theorem State.setL1_binds (k : Nat) (l : List L1Line) : (s.setL1 k l).binds = s.binds := rfl
@[simp] theorem State.setL1_macs (k : Nat) (l : List L1Line) : (s.setL1 k l).macs = s.macs := rfl
@[simp] theorem State.setL1_xch (k : Nat) (l : List L1Line) : (s.setL1 k l).xch = s.xch := rfl
@[simp] theorem State.setL1_jobs (k : Nat) (l : List L1Line) : (s.setL1 k l).jobs = s.jobs := rfl
@[simp] theorem State.setL1_port (k : Nat) (l : List L1Line) : (s.setL1 k l).port = s.port := rfl
@[simp] theorem State.setL1_ring (k : Nat) (l : List L1Line) : (s.setL1 k l).ring = s.ring := rfl
@[simp] theorem State.setL1_out (k : Nat) (l : List L1Line) : (s.setL1 k l).out = s.out := rfl
@[simp] theorem State.setL1_msix (k : Nat) (l : List L1Line) : (s.setL1 k l).msix = s.msix := rfl
@[simp] theorem State.setL1_pba (k : Nat) (l : List L1Line) : (s.setL1 k l).pba = s.pba := rfl
@[simp] theorem State.setL1_added (k : Nat) (l : List L1Line) : (s.setL1 k l).added = s.added := rfl
@[simp] theorem State.setL1_kvp (k : Nat) (l : List L1Line) : (s.setL1 k l).kvp = s.kvp := rfl
@[simp] theorem State.setL1_thread (k : Nat) (l : List L1Line) : (s.setL1 k l).thread = s.thread := rfl
@[simp] theorem State.setL1_il1 (k : Nat) (l : List L1Line) : (s.setL1 k l).il1 = s.il1 := rfl
@[simp] theorem State.setL1_wakes (k : Nat) (l : List L1Line) : (s.setL1 k l).wakes = s.wakes := rfl
@[simp] theorem State.setL1_time (k : Nat) (l : List L1Line) : (s.setL1 k l).time = s.time := rfl
@[simp] theorem State.setL1_core (k : Nat) (l : List L1Line) : (s.setL1 k l).core = s.core := rfl
@[simp] theorem State.setL1_takes (k : Nat) (l : List L1Line) : (s.setL1 k l).takes = s.takes := rfl
@[simp] theorem State.setL1_homes (k : Nat) (l : List L1Line) : (s.setL1 k l).homes = s.homes := rfl
@[simp] theorem State.setL1_copies (k : Nat) (l : List L1Line) : (s.setL1 k l).copies = s.copies := rfl
@[simp] theorem State.setL1_resv (k : Nat) (l : List L1Line) : (s.setL1 k l).resv = s.resv := rfl
@[simp] theorem State.setL1_recs (k : Nat) (l : List L1Line) : (s.setL1 k l).recs = s.recs := rfl
@[simp] theorem State.setL1_hq (k : Nat) (l : List L1Line) : (s.setL1 k l).hq = s.hq := rfl
@[simp] theorem State.setL1_poolK (k : Nat) (l : List L1Line) : (s.setL1 k l).poolK = s.poolK := rfl
@[simp] theorem State.setL1_poolEra (k : Nat) (l : List L1Line) : (s.setL1 k l).poolEra = s.poolEra := rfl
@[simp] theorem State.setL1_pci (k : Nat) (l : List L1Line) : (s.setL1 k l).pci = s.pci := rfl
@[simp] theorem State.setL1_replay (k : Nat) (l : List L1Line) : (s.setL1 k l).replay = s.replay := rfl
@[simp] theorem State.setL1_reg (k : Nat) (l : List L1Line) (x : Nat) : (s.setL1 k l).reg x = s.reg x := rfl
@[simp] theorem State.setL1_fld (k : Nat) (l : List L1Line) (x : Nat) (g : Fld) : (s.setL1 k l).fld x g = s.fld x g := rfl
@[simp] theorem State.setL1_flag (k : Nat) (l : List L1Line) (x : Nat) (g : Fld) : (s.setL1 k l).flag x g = s.flag x g := rfl
@[simp] theorem State.setL1_fldBit (k : Nat) (l : List L1Line) (x : Nat) (g : Fld) (j : Nat) : (s.setL1 k l).fldBit x g j = s.fldBit x g j := rfl
@[simp] theorem State.setL1_q (k : Nat) (l : List L1Line) (x : Nat) : (s.setL1 k l).q x = s.q x := rfl
@[simp] theorem State.setL1_pv (k : Nat) (l : List L1Line) (x : Nat) : (s.setL1 k l).pv x = s.pv x := rfl
@[simp] theorem State.setL1_as (k : Nat) (l : List L1Line) (x y : Nat) : (s.setL1 k l).as x y = s.as x y := rfl
@[simp] theorem State.setL1_qu (k : Nat) (l : List L1Line) (x : Nat) : (s.setL1 k l).qu x = s.qu x := rfl
@[simp] theorem State.setL1_slot (k : Nat) (l : List L1Line) (x y : Nat) : (s.setL1 k l).slot x y = s.slot x y := rfl
@[simp] theorem State.setL1_hqOf (k : Nat) (l : List L1Line) (x : Nat) : (s.setL1 k l).hqOf x = s.hqOf x := rfl
@[simp] theorem State.setL1_kv (k : Nat) (l : List L1Line) (x : Nat) : (s.setL1 k l).kv x = s.kv x := rfl
@[simp] theorem State.setL1_job (k : Nat) (l : List L1Line) (x : Nat) : (s.setL1 k l).job x = s.job x := rfl
@[simp] theorem State.setL1_xc (k : Nat) (l : List L1Line) (x : Nat) : (s.setL1 k l).xc x = s.xc x := rfl
@[simp] theorem State.setL1_home (k : Nat) (l : List L1Line) (x : Nat) : (s.setL1 k l).home x = s.home x := rfl
@[simp] theorem State.setL1_thr (k : Nat) (l : List L1Line) (x : Nat) : (s.setL1 k l).thr x = s.thr x := rfl
@[simp] theorem State.setL1_pt (k : Nat) (l : List L1Line) (x : Nat) : (s.setL1 k l).pt x = s.pt x := rfl
@[simp] theorem State.setL1_rg (k : Nat) (l : List L1Line) (x : Nat) : (s.setL1 k l).rg x = s.rg x := rfl
@[simp] theorem State.setL1_byte (k : Nat) (l : List L1Line) (x : Nat) : (s.setL1 k l).byte x = s.byte x := rfl
@[simp] theorem State.setL1_coreRegs (k : Nat) (l : List L1Line) (x : Nat) : (s.setL1 k l).coreRegs x = s.coreRegs x := rfl
@[simp] theorem State.setL1_stake (k : Nat) (l : List L1Line) (x : Nat) : (s.setL1 k l).stake x = s.stake x := rfl
@[simp] theorem State.setL1_enabled (k : Nat) (l : List L1Line) (x : Nat) : (s.setL1 k l).enabled x = s.enabled x := rfl

/-! ### setIl1 -/

@[simp] theorem State.setIl1_pending (k : Nat) (l : List Nat) : (s.setIl1 k l).pending = s.pending := rfl
@[simp] theorem State.setIl1_regs (k : Nat) (l : List Nat) : (s.setIl1 k l).regs = s.regs := rfl
@[simp] theorem State.setIl1_mem (k : Nat) (l : List Nat) : (s.setIl1 k l).mem = s.mem := rfl
@[simp] theorem State.setIl1_undef (k : Nat) (l : List Nat) : (s.setIl1 k l).undef = s.undef := rfl
@[simp] theorem State.setIl1_poison (k : Nat) (l : List Nat) : (s.setIl1 k l).poison = s.poison := rfl
@[simp] theorem State.setIl1_free (k : Nat) (l : List Nat) : (s.setIl1 k l).free = s.free := rfl
@[simp] theorem State.setIl1_resp (k : Nat) (l : List Nat) : (s.setIl1 k l).resp = s.resp := rfl
@[simp] theorem State.setIl1_lk (k : Nat) (l : List Nat) : (s.setIl1 k l).lk = s.lk := rfl
@[simp] theorem State.setIl1_weave (k : Nat) (l : List Nat) : (s.setIl1 k l).weave = s.weave := rfl
@[simp] theorem State.setIl1_fuses (k : Nat) (l : List Nat) : (s.setIl1 k l).fuses = s.fuses := rfl
@[simp] theorem State.setIl1_flash (k : Nat) (l : List Nat) : (s.setIl1 k l).flash = s.flash := rfl
@[simp] theorem State.setIl1_sec (k : Nat) (l : List Nat) : (s.setIl1 k l).sec = s.sec := rfl
@[simp] theorem State.setIl1_failEng (k : Nat) (l : List Nat) : (s.setIl1 k l).failEng = s.failEng := rfl
@[simp] theorem State.setIl1_failPvu (k : Nat) (l : List Nat) : (s.setIl1 k l).failPvu = s.failPvu := rfl
@[simp] theorem State.setIl1_failTc (k : Nat) (l : List Nat) : (s.setIl1 k l).failTc = s.failTc := rfl
@[simp] theorem State.setIl1_failQuay (k : Nat) (l : List Nat) : (s.setIl1 k l).failQuay = s.failQuay := rfl
@[simp] theorem State.setIl1_failCh (k : Nat) (l : List Nat) : (s.setIl1 k l).failCh = s.failCh := rfl
@[simp] theorem State.setIl1_psq (k : Nat) (l : List Nat) : (s.setIl1 k l).psq = s.psq := rfl
@[simp] theorem State.setIl1_slots (k : Nat) (l : List Nat) : (s.setIl1 k l).slots = s.slots := rfl
@[simp] theorem State.setIl1_pvu (k : Nat) (l : List Nat) : (s.setIl1 k l).pvu = s.pvu := rfl
@[simp] theorem State.setIl1_asu (k : Nat) (l : List Nat) : (s.setIl1 k l).asu = s.asu := rfl
@[simp] theorem State.setIl1_quay (k : Nat) (l : List Nat) : (s.setIl1 k l).quay = s.quay := rfl
@[simp] theorem State.setIl1_binds (k : Nat) (l : List Nat) : (s.setIl1 k l).binds = s.binds := rfl
@[simp] theorem State.setIl1_macs (k : Nat) (l : List Nat) : (s.setIl1 k l).macs = s.macs := rfl
@[simp] theorem State.setIl1_xch (k : Nat) (l : List Nat) : (s.setIl1 k l).xch = s.xch := rfl
@[simp] theorem State.setIl1_jobs (k : Nat) (l : List Nat) : (s.setIl1 k l).jobs = s.jobs := rfl
@[simp] theorem State.setIl1_port (k : Nat) (l : List Nat) : (s.setIl1 k l).port = s.port := rfl
@[simp] theorem State.setIl1_ring (k : Nat) (l : List Nat) : (s.setIl1 k l).ring = s.ring := rfl
@[simp] theorem State.setIl1_out (k : Nat) (l : List Nat) : (s.setIl1 k l).out = s.out := rfl
@[simp] theorem State.setIl1_msix (k : Nat) (l : List Nat) : (s.setIl1 k l).msix = s.msix := rfl
@[simp] theorem State.setIl1_pba (k : Nat) (l : List Nat) : (s.setIl1 k l).pba = s.pba := rfl
@[simp] theorem State.setIl1_added (k : Nat) (l : List Nat) : (s.setIl1 k l).added = s.added := rfl
@[simp] theorem State.setIl1_kvp (k : Nat) (l : List Nat) : (s.setIl1 k l).kvp = s.kvp := rfl
@[simp] theorem State.setIl1_thread (k : Nat) (l : List Nat) : (s.setIl1 k l).thread = s.thread := rfl
@[simp] theorem State.setIl1_l1 (k : Nat) (l : List Nat) : (s.setIl1 k l).l1 = s.l1 := rfl
@[simp] theorem State.setIl1_wakes (k : Nat) (l : List Nat) : (s.setIl1 k l).wakes = s.wakes := rfl
@[simp] theorem State.setIl1_time (k : Nat) (l : List Nat) : (s.setIl1 k l).time = s.time := rfl
@[simp] theorem State.setIl1_core (k : Nat) (l : List Nat) : (s.setIl1 k l).core = s.core := rfl
@[simp] theorem State.setIl1_takes (k : Nat) (l : List Nat) : (s.setIl1 k l).takes = s.takes := rfl
@[simp] theorem State.setIl1_homes (k : Nat) (l : List Nat) : (s.setIl1 k l).homes = s.homes := rfl
@[simp] theorem State.setIl1_copies (k : Nat) (l : List Nat) : (s.setIl1 k l).copies = s.copies := rfl
@[simp] theorem State.setIl1_resv (k : Nat) (l : List Nat) : (s.setIl1 k l).resv = s.resv := rfl
@[simp] theorem State.setIl1_recs (k : Nat) (l : List Nat) : (s.setIl1 k l).recs = s.recs := rfl
@[simp] theorem State.setIl1_hq (k : Nat) (l : List Nat) : (s.setIl1 k l).hq = s.hq := rfl
@[simp] theorem State.setIl1_poolK (k : Nat) (l : List Nat) : (s.setIl1 k l).poolK = s.poolK := rfl
@[simp] theorem State.setIl1_poolEra (k : Nat) (l : List Nat) : (s.setIl1 k l).poolEra = s.poolEra := rfl
@[simp] theorem State.setIl1_pci (k : Nat) (l : List Nat) : (s.setIl1 k l).pci = s.pci := rfl
@[simp] theorem State.setIl1_replay (k : Nat) (l : List Nat) : (s.setIl1 k l).replay = s.replay := rfl
@[simp] theorem State.setIl1_reg (k : Nat) (l : List Nat) (x : Nat) : (s.setIl1 k l).reg x = s.reg x := rfl
@[simp] theorem State.setIl1_fld (k : Nat) (l : List Nat) (x : Nat) (g : Fld) : (s.setIl1 k l).fld x g = s.fld x g := rfl
@[simp] theorem State.setIl1_flag (k : Nat) (l : List Nat) (x : Nat) (g : Fld) : (s.setIl1 k l).flag x g = s.flag x g := rfl
@[simp] theorem State.setIl1_fldBit (k : Nat) (l : List Nat) (x : Nat) (g : Fld) (j : Nat) : (s.setIl1 k l).fldBit x g j = s.fldBit x g j := rfl
@[simp] theorem State.setIl1_q (k : Nat) (l : List Nat) (x : Nat) : (s.setIl1 k l).q x = s.q x := rfl
@[simp] theorem State.setIl1_pv (k : Nat) (l : List Nat) (x : Nat) : (s.setIl1 k l).pv x = s.pv x := rfl
@[simp] theorem State.setIl1_as (k : Nat) (l : List Nat) (x y : Nat) : (s.setIl1 k l).as x y = s.as x y := rfl
@[simp] theorem State.setIl1_qu (k : Nat) (l : List Nat) (x : Nat) : (s.setIl1 k l).qu x = s.qu x := rfl
@[simp] theorem State.setIl1_slot (k : Nat) (l : List Nat) (x y : Nat) : (s.setIl1 k l).slot x y = s.slot x y := rfl
@[simp] theorem State.setIl1_hqOf (k : Nat) (l : List Nat) (x : Nat) : (s.setIl1 k l).hqOf x = s.hqOf x := rfl
@[simp] theorem State.setIl1_kv (k : Nat) (l : List Nat) (x : Nat) : (s.setIl1 k l).kv x = s.kv x := rfl
@[simp] theorem State.setIl1_job (k : Nat) (l : List Nat) (x : Nat) : (s.setIl1 k l).job x = s.job x := rfl
@[simp] theorem State.setIl1_xc (k : Nat) (l : List Nat) (x : Nat) : (s.setIl1 k l).xc x = s.xc x := rfl
@[simp] theorem State.setIl1_home (k : Nat) (l : List Nat) (x : Nat) : (s.setIl1 k l).home x = s.home x := rfl
@[simp] theorem State.setIl1_thr (k : Nat) (l : List Nat) (x : Nat) : (s.setIl1 k l).thr x = s.thr x := rfl
@[simp] theorem State.setIl1_pt (k : Nat) (l : List Nat) (x : Nat) : (s.setIl1 k l).pt x = s.pt x := rfl
@[simp] theorem State.setIl1_rg (k : Nat) (l : List Nat) (x : Nat) : (s.setIl1 k l).rg x = s.rg x := rfl
@[simp] theorem State.setIl1_byte (k : Nat) (l : List Nat) (x : Nat) : (s.setIl1 k l).byte x = s.byte x := rfl
@[simp] theorem State.setIl1_coreRegs (k : Nat) (l : List Nat) (x : Nat) : (s.setIl1 k l).coreRegs x = s.coreRegs x := rfl
@[simp] theorem State.setIl1_stake (k : Nat) (l : List Nat) (x : Nat) : (s.setIl1 k l).stake x = s.stake x := rfl
@[simp] theorem State.setIl1_enabled (k : Nat) (l : List Nat) (x : Nat) : (s.setIl1 k l).enabled x = s.enabled x := rfl

/-! ### setPt -/

@[simp] theorem State.setPt_pending (k : Nat) (c : Port) : (s.setPt k c).pending = s.pending := rfl
@[simp] theorem State.setPt_regs (k : Nat) (c : Port) : (s.setPt k c).regs = s.regs := rfl
@[simp] theorem State.setPt_mem (k : Nat) (c : Port) : (s.setPt k c).mem = s.mem := rfl
@[simp] theorem State.setPt_undef (k : Nat) (c : Port) : (s.setPt k c).undef = s.undef := rfl
@[simp] theorem State.setPt_poison (k : Nat) (c : Port) : (s.setPt k c).poison = s.poison := rfl
@[simp] theorem State.setPt_free (k : Nat) (c : Port) : (s.setPt k c).free = s.free := rfl
@[simp] theorem State.setPt_resp (k : Nat) (c : Port) : (s.setPt k c).resp = s.resp := rfl
@[simp] theorem State.setPt_lk (k : Nat) (c : Port) : (s.setPt k c).lk = s.lk := rfl
@[simp] theorem State.setPt_weave (k : Nat) (c : Port) : (s.setPt k c).weave = s.weave := rfl
@[simp] theorem State.setPt_fuses (k : Nat) (c : Port) : (s.setPt k c).fuses = s.fuses := rfl
@[simp] theorem State.setPt_flash (k : Nat) (c : Port) : (s.setPt k c).flash = s.flash := rfl
@[simp] theorem State.setPt_sec (k : Nat) (c : Port) : (s.setPt k c).sec = s.sec := rfl
@[simp] theorem State.setPt_failEng (k : Nat) (c : Port) : (s.setPt k c).failEng = s.failEng := rfl
@[simp] theorem State.setPt_failPvu (k : Nat) (c : Port) : (s.setPt k c).failPvu = s.failPvu := rfl
@[simp] theorem State.setPt_failTc (k : Nat) (c : Port) : (s.setPt k c).failTc = s.failTc := rfl
@[simp] theorem State.setPt_failQuay (k : Nat) (c : Port) : (s.setPt k c).failQuay = s.failQuay := rfl
@[simp] theorem State.setPt_failCh (k : Nat) (c : Port) : (s.setPt k c).failCh = s.failCh := rfl
@[simp] theorem State.setPt_psq (k : Nat) (c : Port) : (s.setPt k c).psq = s.psq := rfl
@[simp] theorem State.setPt_slots (k : Nat) (c : Port) : (s.setPt k c).slots = s.slots := rfl
@[simp] theorem State.setPt_pvu (k : Nat) (c : Port) : (s.setPt k c).pvu = s.pvu := rfl
@[simp] theorem State.setPt_asu (k : Nat) (c : Port) : (s.setPt k c).asu = s.asu := rfl
@[simp] theorem State.setPt_quay (k : Nat) (c : Port) : (s.setPt k c).quay = s.quay := rfl
@[simp] theorem State.setPt_binds (k : Nat) (c : Port) : (s.setPt k c).binds = s.binds := rfl
@[simp] theorem State.setPt_macs (k : Nat) (c : Port) : (s.setPt k c).macs = s.macs := rfl
@[simp] theorem State.setPt_xch (k : Nat) (c : Port) : (s.setPt k c).xch = s.xch := rfl
@[simp] theorem State.setPt_jobs (k : Nat) (c : Port) : (s.setPt k c).jobs = s.jobs := rfl
@[simp] theorem State.setPt_ring (k : Nat) (c : Port) : (s.setPt k c).ring = s.ring := rfl
@[simp] theorem State.setPt_out (k : Nat) (c : Port) : (s.setPt k c).out = s.out := rfl
@[simp] theorem State.setPt_msix (k : Nat) (c : Port) : (s.setPt k c).msix = s.msix := rfl
@[simp] theorem State.setPt_pba (k : Nat) (c : Port) : (s.setPt k c).pba = s.pba := rfl
@[simp] theorem State.setPt_added (k : Nat) (c : Port) : (s.setPt k c).added = s.added := rfl
@[simp] theorem State.setPt_kvp (k : Nat) (c : Port) : (s.setPt k c).kvp = s.kvp := rfl
@[simp] theorem State.setPt_thread (k : Nat) (c : Port) : (s.setPt k c).thread = s.thread := rfl
@[simp] theorem State.setPt_l1 (k : Nat) (c : Port) : (s.setPt k c).l1 = s.l1 := rfl
@[simp] theorem State.setPt_il1 (k : Nat) (c : Port) : (s.setPt k c).il1 = s.il1 := rfl
@[simp] theorem State.setPt_wakes (k : Nat) (c : Port) : (s.setPt k c).wakes = s.wakes := rfl
@[simp] theorem State.setPt_time (k : Nat) (c : Port) : (s.setPt k c).time = s.time := rfl
@[simp] theorem State.setPt_core (k : Nat) (c : Port) : (s.setPt k c).core = s.core := rfl
@[simp] theorem State.setPt_takes (k : Nat) (c : Port) : (s.setPt k c).takes = s.takes := rfl
@[simp] theorem State.setPt_homes (k : Nat) (c : Port) : (s.setPt k c).homes = s.homes := rfl
@[simp] theorem State.setPt_copies (k : Nat) (c : Port) : (s.setPt k c).copies = s.copies := rfl
@[simp] theorem State.setPt_resv (k : Nat) (c : Port) : (s.setPt k c).resv = s.resv := rfl
@[simp] theorem State.setPt_recs (k : Nat) (c : Port) : (s.setPt k c).recs = s.recs := rfl
@[simp] theorem State.setPt_hq (k : Nat) (c : Port) : (s.setPt k c).hq = s.hq := rfl
@[simp] theorem State.setPt_poolK (k : Nat) (c : Port) : (s.setPt k c).poolK = s.poolK := rfl
@[simp] theorem State.setPt_poolEra (k : Nat) (c : Port) : (s.setPt k c).poolEra = s.poolEra := rfl
@[simp] theorem State.setPt_pci (k : Nat) (c : Port) : (s.setPt k c).pci = s.pci := rfl
@[simp] theorem State.setPt_replay (k : Nat) (c : Port) : (s.setPt k c).replay = s.replay := rfl
@[simp] theorem State.setPt_reg (k : Nat) (c : Port) (x : Nat) : (s.setPt k c).reg x = s.reg x := rfl
@[simp] theorem State.setPt_fld (k : Nat) (c : Port) (x : Nat) (g : Fld) : (s.setPt k c).fld x g = s.fld x g := rfl
@[simp] theorem State.setPt_flag (k : Nat) (c : Port) (x : Nat) (g : Fld) : (s.setPt k c).flag x g = s.flag x g := rfl
@[simp] theorem State.setPt_fldBit (k : Nat) (c : Port) (x : Nat) (g : Fld) (j : Nat) : (s.setPt k c).fldBit x g j = s.fldBit x g j := rfl
@[simp] theorem State.setPt_q (k : Nat) (c : Port) (x : Nat) : (s.setPt k c).q x = s.q x := rfl
@[simp] theorem State.setPt_pv (k : Nat) (c : Port) (x : Nat) : (s.setPt k c).pv x = s.pv x := rfl
@[simp] theorem State.setPt_as (k : Nat) (c : Port) (x y : Nat) : (s.setPt k c).as x y = s.as x y := rfl
@[simp] theorem State.setPt_qu (k : Nat) (c : Port) (x : Nat) : (s.setPt k c).qu x = s.qu x := rfl
@[simp] theorem State.setPt_slot (k : Nat) (c : Port) (x y : Nat) : (s.setPt k c).slot x y = s.slot x y := rfl
@[simp] theorem State.setPt_hqOf (k : Nat) (c : Port) (x : Nat) : (s.setPt k c).hqOf x = s.hqOf x := rfl
@[simp] theorem State.setPt_kv (k : Nat) (c : Port) (x : Nat) : (s.setPt k c).kv x = s.kv x := rfl
@[simp] theorem State.setPt_job (k : Nat) (c : Port) (x : Nat) : (s.setPt k c).job x = s.job x := rfl
@[simp] theorem State.setPt_xc (k : Nat) (c : Port) (x : Nat) : (s.setPt k c).xc x = s.xc x := rfl
@[simp] theorem State.setPt_home (k : Nat) (c : Port) (x : Nat) : (s.setPt k c).home x = s.home x := rfl
@[simp] theorem State.setPt_thr (k : Nat) (c : Port) (x : Nat) : (s.setPt k c).thr x = s.thr x := rfl
@[simp] theorem State.setPt_rg (k : Nat) (c : Port) (x : Nat) : (s.setPt k c).rg x = s.rg x := rfl
@[simp] theorem State.setPt_byte (k : Nat) (c : Port) (x : Nat) : (s.setPt k c).byte x = s.byte x := rfl
@[simp] theorem State.setPt_coreRegs (k : Nat) (c : Port) (x : Nat) : (s.setPt k c).coreRegs x = s.coreRegs x := rfl
@[simp] theorem State.setPt_stake (k : Nat) (c : Port) (x : Nat) : (s.setPt k c).stake x = s.stake x := rfl
@[simp] theorem State.setPt_enabled (k : Nat) (c : Port) (x : Nat) : (s.setPt k c).enabled x = s.enabled x := rfl

/-! ### setRg -/

@[simp] theorem State.setRg_pending (k : Nat) (c : RingDir) : (s.setRg k c).pending = s.pending := rfl
@[simp] theorem State.setRg_regs (k : Nat) (c : RingDir) : (s.setRg k c).regs = s.regs := rfl
@[simp] theorem State.setRg_mem (k : Nat) (c : RingDir) : (s.setRg k c).mem = s.mem := rfl
@[simp] theorem State.setRg_undef (k : Nat) (c : RingDir) : (s.setRg k c).undef = s.undef := rfl
@[simp] theorem State.setRg_poison (k : Nat) (c : RingDir) : (s.setRg k c).poison = s.poison := rfl
@[simp] theorem State.setRg_free (k : Nat) (c : RingDir) : (s.setRg k c).free = s.free := rfl
@[simp] theorem State.setRg_resp (k : Nat) (c : RingDir) : (s.setRg k c).resp = s.resp := rfl
@[simp] theorem State.setRg_lk (k : Nat) (c : RingDir) : (s.setRg k c).lk = s.lk := rfl
@[simp] theorem State.setRg_weave (k : Nat) (c : RingDir) : (s.setRg k c).weave = s.weave := rfl
@[simp] theorem State.setRg_fuses (k : Nat) (c : RingDir) : (s.setRg k c).fuses = s.fuses := rfl
@[simp] theorem State.setRg_flash (k : Nat) (c : RingDir) : (s.setRg k c).flash = s.flash := rfl
@[simp] theorem State.setRg_sec (k : Nat) (c : RingDir) : (s.setRg k c).sec = s.sec := rfl
@[simp] theorem State.setRg_failEng (k : Nat) (c : RingDir) : (s.setRg k c).failEng = s.failEng := rfl
@[simp] theorem State.setRg_failPvu (k : Nat) (c : RingDir) : (s.setRg k c).failPvu = s.failPvu := rfl
@[simp] theorem State.setRg_failTc (k : Nat) (c : RingDir) : (s.setRg k c).failTc = s.failTc := rfl
@[simp] theorem State.setRg_failQuay (k : Nat) (c : RingDir) : (s.setRg k c).failQuay = s.failQuay := rfl
@[simp] theorem State.setRg_failCh (k : Nat) (c : RingDir) : (s.setRg k c).failCh = s.failCh := rfl
@[simp] theorem State.setRg_psq (k : Nat) (c : RingDir) : (s.setRg k c).psq = s.psq := rfl
@[simp] theorem State.setRg_slots (k : Nat) (c : RingDir) : (s.setRg k c).slots = s.slots := rfl
@[simp] theorem State.setRg_pvu (k : Nat) (c : RingDir) : (s.setRg k c).pvu = s.pvu := rfl
@[simp] theorem State.setRg_asu (k : Nat) (c : RingDir) : (s.setRg k c).asu = s.asu := rfl
@[simp] theorem State.setRg_quay (k : Nat) (c : RingDir) : (s.setRg k c).quay = s.quay := rfl
@[simp] theorem State.setRg_binds (k : Nat) (c : RingDir) : (s.setRg k c).binds = s.binds := rfl
@[simp] theorem State.setRg_macs (k : Nat) (c : RingDir) : (s.setRg k c).macs = s.macs := rfl
@[simp] theorem State.setRg_xch (k : Nat) (c : RingDir) : (s.setRg k c).xch = s.xch := rfl
@[simp] theorem State.setRg_jobs (k : Nat) (c : RingDir) : (s.setRg k c).jobs = s.jobs := rfl
@[simp] theorem State.setRg_port (k : Nat) (c : RingDir) : (s.setRg k c).port = s.port := rfl
@[simp] theorem State.setRg_out (k : Nat) (c : RingDir) : (s.setRg k c).out = s.out := rfl
@[simp] theorem State.setRg_msix (k : Nat) (c : RingDir) : (s.setRg k c).msix = s.msix := rfl
@[simp] theorem State.setRg_pba (k : Nat) (c : RingDir) : (s.setRg k c).pba = s.pba := rfl
@[simp] theorem State.setRg_added (k : Nat) (c : RingDir) : (s.setRg k c).added = s.added := rfl
@[simp] theorem State.setRg_kvp (k : Nat) (c : RingDir) : (s.setRg k c).kvp = s.kvp := rfl
@[simp] theorem State.setRg_thread (k : Nat) (c : RingDir) : (s.setRg k c).thread = s.thread := rfl
@[simp] theorem State.setRg_l1 (k : Nat) (c : RingDir) : (s.setRg k c).l1 = s.l1 := rfl
@[simp] theorem State.setRg_il1 (k : Nat) (c : RingDir) : (s.setRg k c).il1 = s.il1 := rfl
@[simp] theorem State.setRg_wakes (k : Nat) (c : RingDir) : (s.setRg k c).wakes = s.wakes := rfl
@[simp] theorem State.setRg_time (k : Nat) (c : RingDir) : (s.setRg k c).time = s.time := rfl
@[simp] theorem State.setRg_core (k : Nat) (c : RingDir) : (s.setRg k c).core = s.core := rfl
@[simp] theorem State.setRg_takes (k : Nat) (c : RingDir) : (s.setRg k c).takes = s.takes := rfl
@[simp] theorem State.setRg_homes (k : Nat) (c : RingDir) : (s.setRg k c).homes = s.homes := rfl
@[simp] theorem State.setRg_copies (k : Nat) (c : RingDir) : (s.setRg k c).copies = s.copies := rfl
@[simp] theorem State.setRg_resv (k : Nat) (c : RingDir) : (s.setRg k c).resv = s.resv := rfl
@[simp] theorem State.setRg_recs (k : Nat) (c : RingDir) : (s.setRg k c).recs = s.recs := rfl
@[simp] theorem State.setRg_hq (k : Nat) (c : RingDir) : (s.setRg k c).hq = s.hq := rfl
@[simp] theorem State.setRg_poolK (k : Nat) (c : RingDir) : (s.setRg k c).poolK = s.poolK := rfl
@[simp] theorem State.setRg_poolEra (k : Nat) (c : RingDir) : (s.setRg k c).poolEra = s.poolEra := rfl
@[simp] theorem State.setRg_pci (k : Nat) (c : RingDir) : (s.setRg k c).pci = s.pci := rfl
@[simp] theorem State.setRg_replay (k : Nat) (c : RingDir) : (s.setRg k c).replay = s.replay := rfl
@[simp] theorem State.setRg_reg (k : Nat) (c : RingDir) (x : Nat) : (s.setRg k c).reg x = s.reg x := rfl
@[simp] theorem State.setRg_fld (k : Nat) (c : RingDir) (x : Nat) (g : Fld) : (s.setRg k c).fld x g = s.fld x g := rfl
@[simp] theorem State.setRg_flag (k : Nat) (c : RingDir) (x : Nat) (g : Fld) : (s.setRg k c).flag x g = s.flag x g := rfl
@[simp] theorem State.setRg_fldBit (k : Nat) (c : RingDir) (x : Nat) (g : Fld) (j : Nat) : (s.setRg k c).fldBit x g j = s.fldBit x g j := rfl
@[simp] theorem State.setRg_q (k : Nat) (c : RingDir) (x : Nat) : (s.setRg k c).q x = s.q x := rfl
@[simp] theorem State.setRg_pv (k : Nat) (c : RingDir) (x : Nat) : (s.setRg k c).pv x = s.pv x := rfl
@[simp] theorem State.setRg_as (k : Nat) (c : RingDir) (x y : Nat) : (s.setRg k c).as x y = s.as x y := rfl
@[simp] theorem State.setRg_qu (k : Nat) (c : RingDir) (x : Nat) : (s.setRg k c).qu x = s.qu x := rfl
@[simp] theorem State.setRg_slot (k : Nat) (c : RingDir) (x y : Nat) : (s.setRg k c).slot x y = s.slot x y := rfl
@[simp] theorem State.setRg_hqOf (k : Nat) (c : RingDir) (x : Nat) : (s.setRg k c).hqOf x = s.hqOf x := rfl
@[simp] theorem State.setRg_kv (k : Nat) (c : RingDir) (x : Nat) : (s.setRg k c).kv x = s.kv x := rfl
@[simp] theorem State.setRg_job (k : Nat) (c : RingDir) (x : Nat) : (s.setRg k c).job x = s.job x := rfl
@[simp] theorem State.setRg_xc (k : Nat) (c : RingDir) (x : Nat) : (s.setRg k c).xc x = s.xc x := rfl
@[simp] theorem State.setRg_home (k : Nat) (c : RingDir) (x : Nat) : (s.setRg k c).home x = s.home x := rfl
@[simp] theorem State.setRg_thr (k : Nat) (c : RingDir) (x : Nat) : (s.setRg k c).thr x = s.thr x := rfl
@[simp] theorem State.setRg_pt (k : Nat) (c : RingDir) (x : Nat) : (s.setRg k c).pt x = s.pt x := rfl
@[simp] theorem State.setRg_byte (k : Nat) (c : RingDir) (x : Nat) : (s.setRg k c).byte x = s.byte x := rfl
@[simp] theorem State.setRg_coreRegs (k : Nat) (c : RingDir) (x : Nat) : (s.setRg k c).coreRegs x = s.coreRegs x := rfl
@[simp] theorem State.setRg_stake (k : Nat) (c : RingDir) (x : Nat) : (s.setRg k c).stake x = s.stake x := rfl
@[simp] theorem State.setRg_enabled (k : Nat) (c : RingDir) (x : Nat) : (s.setRg k c).enabled x = s.enabled x := rfl

/-! ### setSp -/

@[simp] theorem State.setSp_pending (b : Bool) (c : Spdm) : (s.setSp b c).pending = s.pending := rfl
@[simp] theorem State.setSp_regs (b : Bool) (c : Spdm) : (s.setSp b c).regs = s.regs := rfl
@[simp] theorem State.setSp_mem (b : Bool) (c : Spdm) : (s.setSp b c).mem = s.mem := rfl
@[simp] theorem State.setSp_undef (b : Bool) (c : Spdm) : (s.setSp b c).undef = s.undef := rfl
@[simp] theorem State.setSp_poison (b : Bool) (c : Spdm) : (s.setSp b c).poison = s.poison := rfl
@[simp] theorem State.setSp_free (b : Bool) (c : Spdm) : (s.setSp b c).free = s.free := rfl
@[simp] theorem State.setSp_resp (b : Bool) (c : Spdm) : (s.setSp b c).resp = s.resp := rfl
@[simp] theorem State.setSp_lk (b : Bool) (c : Spdm) : (s.setSp b c).lk = s.lk := rfl
@[simp] theorem State.setSp_weave (b : Bool) (c : Spdm) : (s.setSp b c).weave = s.weave := rfl
@[simp] theorem State.setSp_fuses (b : Bool) (c : Spdm) : (s.setSp b c).fuses = s.fuses := rfl
@[simp] theorem State.setSp_flash (b : Bool) (c : Spdm) : (s.setSp b c).flash = s.flash := rfl
@[simp] theorem State.setSp_failEng (b : Bool) (c : Spdm) : (s.setSp b c).failEng = s.failEng := rfl
@[simp] theorem State.setSp_failPvu (b : Bool) (c : Spdm) : (s.setSp b c).failPvu = s.failPvu := rfl
@[simp] theorem State.setSp_failTc (b : Bool) (c : Spdm) : (s.setSp b c).failTc = s.failTc := rfl
@[simp] theorem State.setSp_failQuay (b : Bool) (c : Spdm) : (s.setSp b c).failQuay = s.failQuay := rfl
@[simp] theorem State.setSp_failCh (b : Bool) (c : Spdm) : (s.setSp b c).failCh = s.failCh := rfl
@[simp] theorem State.setSp_psq (b : Bool) (c : Spdm) : (s.setSp b c).psq = s.psq := rfl
@[simp] theorem State.setSp_slots (b : Bool) (c : Spdm) : (s.setSp b c).slots = s.slots := rfl
@[simp] theorem State.setSp_pvu (b : Bool) (c : Spdm) : (s.setSp b c).pvu = s.pvu := rfl
@[simp] theorem State.setSp_asu (b : Bool) (c : Spdm) : (s.setSp b c).asu = s.asu := rfl
@[simp] theorem State.setSp_quay (b : Bool) (c : Spdm) : (s.setSp b c).quay = s.quay := rfl
@[simp] theorem State.setSp_binds (b : Bool) (c : Spdm) : (s.setSp b c).binds = s.binds := rfl
@[simp] theorem State.setSp_macs (b : Bool) (c : Spdm) : (s.setSp b c).macs = s.macs := rfl
@[simp] theorem State.setSp_xch (b : Bool) (c : Spdm) : (s.setSp b c).xch = s.xch := rfl
@[simp] theorem State.setSp_jobs (b : Bool) (c : Spdm) : (s.setSp b c).jobs = s.jobs := rfl
@[simp] theorem State.setSp_port (b : Bool) (c : Spdm) : (s.setSp b c).port = s.port := rfl
@[simp] theorem State.setSp_ring (b : Bool) (c : Spdm) : (s.setSp b c).ring = s.ring := rfl
@[simp] theorem State.setSp_out (b : Bool) (c : Spdm) : (s.setSp b c).out = s.out := rfl
@[simp] theorem State.setSp_msix (b : Bool) (c : Spdm) : (s.setSp b c).msix = s.msix := rfl
@[simp] theorem State.setSp_pba (b : Bool) (c : Spdm) : (s.setSp b c).pba = s.pba := rfl
@[simp] theorem State.setSp_added (b : Bool) (c : Spdm) : (s.setSp b c).added = s.added := rfl
@[simp] theorem State.setSp_kvp (b : Bool) (c : Spdm) : (s.setSp b c).kvp = s.kvp := rfl
@[simp] theorem State.setSp_thread (b : Bool) (c : Spdm) : (s.setSp b c).thread = s.thread := rfl
@[simp] theorem State.setSp_l1 (b : Bool) (c : Spdm) : (s.setSp b c).l1 = s.l1 := rfl
@[simp] theorem State.setSp_il1 (b : Bool) (c : Spdm) : (s.setSp b c).il1 = s.il1 := rfl
@[simp] theorem State.setSp_wakes (b : Bool) (c : Spdm) : (s.setSp b c).wakes = s.wakes := rfl
@[simp] theorem State.setSp_time (b : Bool) (c : Spdm) : (s.setSp b c).time = s.time := rfl
@[simp] theorem State.setSp_core (b : Bool) (c : Spdm) : (s.setSp b c).core = s.core := rfl
@[simp] theorem State.setSp_takes (b : Bool) (c : Spdm) : (s.setSp b c).takes = s.takes := rfl
@[simp] theorem State.setSp_homes (b : Bool) (c : Spdm) : (s.setSp b c).homes = s.homes := rfl
@[simp] theorem State.setSp_copies (b : Bool) (c : Spdm) : (s.setSp b c).copies = s.copies := rfl
@[simp] theorem State.setSp_resv (b : Bool) (c : Spdm) : (s.setSp b c).resv = s.resv := rfl
@[simp] theorem State.setSp_recs (b : Bool) (c : Spdm) : (s.setSp b c).recs = s.recs := rfl
@[simp] theorem State.setSp_hq (b : Bool) (c : Spdm) : (s.setSp b c).hq = s.hq := rfl
@[simp] theorem State.setSp_poolK (b : Bool) (c : Spdm) : (s.setSp b c).poolK = s.poolK := rfl
@[simp] theorem State.setSp_poolEra (b : Bool) (c : Spdm) : (s.setSp b c).poolEra = s.poolEra := rfl
@[simp] theorem State.setSp_pci (b : Bool) (c : Spdm) : (s.setSp b c).pci = s.pci := rfl
@[simp] theorem State.setSp_replay (b : Bool) (c : Spdm) : (s.setSp b c).replay = s.replay := rfl
@[simp] theorem State.setSp_reg (b : Bool) (c : Spdm) (x : Nat) : (s.setSp b c).reg x = s.reg x := rfl
@[simp] theorem State.setSp_fld (b : Bool) (c : Spdm) (x : Nat) (g : Fld) : (s.setSp b c).fld x g = s.fld x g := rfl
@[simp] theorem State.setSp_flag (b : Bool) (c : Spdm) (x : Nat) (g : Fld) : (s.setSp b c).flag x g = s.flag x g := rfl
@[simp] theorem State.setSp_fldBit (b : Bool) (c : Spdm) (x : Nat) (g : Fld) (j : Nat) : (s.setSp b c).fldBit x g j = s.fldBit x g j := rfl
@[simp] theorem State.setSp_q (b : Bool) (c : Spdm) (x : Nat) : (s.setSp b c).q x = s.q x := rfl
@[simp] theorem State.setSp_pv (b : Bool) (c : Spdm) (x : Nat) : (s.setSp b c).pv x = s.pv x := rfl
@[simp] theorem State.setSp_as (b : Bool) (c : Spdm) (x y : Nat) : (s.setSp b c).as x y = s.as x y := rfl
@[simp] theorem State.setSp_qu (b : Bool) (c : Spdm) (x : Nat) : (s.setSp b c).qu x = s.qu x := rfl
@[simp] theorem State.setSp_slot (b : Bool) (c : Spdm) (x y : Nat) : (s.setSp b c).slot x y = s.slot x y := rfl
@[simp] theorem State.setSp_hqOf (b : Bool) (c : Spdm) (x : Nat) : (s.setSp b c).hqOf x = s.hqOf x := rfl
@[simp] theorem State.setSp_kv (b : Bool) (c : Spdm) (x : Nat) : (s.setSp b c).kv x = s.kv x := rfl
@[simp] theorem State.setSp_job (b : Bool) (c : Spdm) (x : Nat) : (s.setSp b c).job x = s.job x := rfl
@[simp] theorem State.setSp_xc (b : Bool) (c : Spdm) (x : Nat) : (s.setSp b c).xc x = s.xc x := rfl
@[simp] theorem State.setSp_home (b : Bool) (c : Spdm) (x : Nat) : (s.setSp b c).home x = s.home x := rfl
@[simp] theorem State.setSp_thr (b : Bool) (c : Spdm) (x : Nat) : (s.setSp b c).thr x = s.thr x := rfl
@[simp] theorem State.setSp_pt (b : Bool) (c : Spdm) (x : Nat) : (s.setSp b c).pt x = s.pt x := rfl
@[simp] theorem State.setSp_rg (b : Bool) (c : Spdm) (x : Nat) : (s.setSp b c).rg x = s.rg x := rfl
@[simp] theorem State.setSp_byte (b : Bool) (c : Spdm) (x : Nat) : (s.setSp b c).byte x = s.byte x := rfl
@[simp] theorem State.setSp_coreRegs (b : Bool) (c : Spdm) (x : Nat) : (s.setSp b c).coreRegs x = s.coreRegs x := rfl
@[simp] theorem State.setSp_stake (b : Bool) (c : Spdm) (x : Nat) : (s.setSp b c).stake x = s.stake x := rfl
@[simp] theorem State.setSp_enabled (b : Bool) (c : Spdm) (x : Nat) : (s.setSp b c).enabled x = s.enabled x := rfl

/-! ### registers -/

theorem State.reg_setReg (a b : Nat) (v : Word) : (s.setReg a v).reg b = if b = a then v else s.reg b :=
  KMap.get_set _ _ _ _ _ _ (fun h => by rw [h])

@[simp] theorem State.reg_setReg_same (a : Nat) (v : Word) : (s.setReg a v).reg a = v := by simp [State.reg_setReg]

theorem State.reg_setReg_other (a b : Nat) (v : Word) (h : b ≠ a) : (s.setReg a v).reg b = s.reg b := by simp [State.reg_setReg, h]

theorem State.reg_setFld (a b : Nat) (f : Fld) (v : Nat) :
    (s.setFld a f v).reg b = if b = a then (s.reg a).setFld f v else s.reg b := by
  unfold State.setFld; exact s.reg_setReg a b _

/-- A field just written. -/
theorem State.fld_setFld_same (a : Nat) (f : Fld) (v : Nat) (h : f.1 + f.2 ≤ 64) : (s.setFld a f v).fld a f = v % 2 ^ f.2 := by
  simp only [State.fld, State.reg_setFld, if_true]
  exact Word.fld_setFld_same _ _ _ _ h

/-- A field of another register. -/
theorem State.fld_setFld_reg (a b : Nat) (f g : Fld) (v : Nat) (h : b ≠ a) : (s.setFld a f v).fld b g = s.fld b g := by
  simp only [State.fld, State.reg_setFld, if_neg h]

/-- Another field of the same register. -/
theorem State.fld_setFld_fld (a : Nat) (f g : Fld) (v : Nat) (h : g.1 + g.2 ≤ f.1 ∨ f.1 + f.2 ≤ g.1) :
    (s.setFld a f v).fld a g = s.fld a g := by
  simp only [State.fld, State.reg_setFld, if_true]
  exact Word.fld_setFld_other _ _ _ _ _ _ h

theorem State.fld_setReg (a b : Nat) (v : Word) (g : Fld) : (s.setReg a v).fld b g = if b = a then v.fld g else s.fld b g := by
  simp only [State.fld, State.reg_setReg]; split <;> rfl

theorem State.flag_eq_fld (a : Nat) (f : Fld) : s.flag a f = decide (s.fld a f ≠ 0) := rfl

/-! ### contexts -/

theorem State.q_setQ (k j : Nat) (c : Psq) : (s.setQ k c).q j = if j = k then c else s.q j := KMap.get_set _ _ _ _ _ _ (fun _ => rfl)

theorem State.pv_setPv (k j : Nat) (c : Pvu) : (s.setPv k c).pv j = if j = k then c else s.pv j := KMap.get_set _ _ _ _ _ _ (fun _ => rfl)

theorem State.as_setAs (d k x y : Nat) (c : Asu) :
    (s.setAs d k c).as x y = if x * 16 + y = d * 16 + k then c else s.as x y := KMap.get_set _ _ _ _ _ _ (fun _ => rfl)

theorem State.qu_setQu (k j : Nat) (c : Quay) : (s.setQu k c).qu j = if j = k then c else s.qu j := KMap.get_set _ _ _ _ _ _ (fun _ => rfl)

theorem State.slot_setSlot (k i x y : Nat) (c : Slot) :
    (s.setSlot k i c).slot x y = if x * 64 + y = k * 64 + i then c else s.slot x y := KMap.get_set _ _ _ _ _ _ (fun _ => rfl)

theorem State.hqOf_setHq (k j : Nat) (c : Hq) : (s.setHq k c).hqOf j = if j = k then c else s.hqOf j :=
  KMap.get_set _ _ _ _ _ _ (fun _ => rfl)

theorem State.kv_setKv (k j : Nat) (c : Kvp) : (s.setKv k c).kv j = if j = k then c else s.kv j := KMap.get_set _ _ _ _ _ _ (fun _ => rfl)

theorem State.job_setJob (k j : Nat) (c : Job) : (s.setJob k c).job j = if j = k then some c else s.job j := KMap.find_put _ _ _ _

theorem State.xc_setXc (k j : Nat) (c : Xch) : (s.setXc k c).xc j = if j = k then c else s.xc j := KMap.get_set _ _ _ _ _ _ (fun _ => rfl)

theorem State.home_setHome (k j : Nat) (c : Home) : (s.setHome k c).home j = if j = k then c else s.home j :=
  KMap.get_set _ _ _ _ _ _ (fun _ => rfl)

theorem State.thr_setThr (k j : Nat) (c : Thread) : (s.setThr k c).thr j = if j = k then c else s.thr j :=
  KMap.get_set _ _ _ _ _ _ (fun _ => rfl)

theorem State.pt_setPt (k j : Nat) (c : Port) : (s.setPt k c).pt j = if j = k then c else s.pt j := KMap.get_set _ _ _ _ _ _ (fun _ => rfl)

theorem State.rg_setRg (k j : Nat) (c : RingDir) : (s.setRg k c).rg j = if j = k then c else s.rg j :=
  KMap.get_set _ _ _ _ _ _ (fun _ => rfl)

@[simp] theorem State.modLk_lk (f : Lk → Lk) : (s.modLk f).lk = f s.lk := rfl
@[simp] theorem State.answer_resp (r : Resp) : (s.answer r).resp = r := rfl
@[simp] theorem State.send_out (m : HostMsg) : (s.send m).out = s.out ++ [m] := rfl

/-! ### the error count that a unit's write may raise -/

/-- A unit's write leaves every register but CXT_ERR. -/
theorem State.reg_noteCxl (a n r : Nat) (b : Bool) (h : r ≠ R.cxtErr) : (s.noteCxl a n b).reg r = s.reg r := by
  unfold State.noteCxl
  repeat' split
  all_goals simp [State.addSat, State.reg_setFld, h]

theorem State.reg_wr (a r : Nat) (l : List Byte) (h : r ≠ R.cxtErr) : (s.wr a l).reg r = s.reg r := by
  unfold State.wr
  split
  · exact s.reg_noteCxl _ _ _ _ h
  · simp

theorem State.fld_wr (a r : Nat) (l : List Byte) (f : Fld) (h : r ≠ R.cxtErr) : (s.wr a l).fld r f = s.fld r f := by
  simp only [State.fld, s.reg_wr a r l h]

theorem State.reg_wrN (a n v r : Nat) (h : r ≠ R.cxtErr) : (s.wrN a n v).reg r = s.reg r := s.reg_wr _ _ _ h

/-- A unit's write outside the CXL range leaves every register. -/
theorem State.regs_wr (a : Nat) (l : List Byte) (h : isCxl a = false) : (s.wr a l).regs = s.regs := by
  unfold State.wr State.noteCxl
  split <;> simp [h]

/-! ### memory -/

/-- A byte just written reads back; the others are as before. -/
theorem State.byte_setByte (a x : Nat) (v : Byte) : (s.setByte a v).byte x = if x = a then v else s.byte x := by
  have hu : undefAt (s.setByte a v).undef x = if x = a then none else undefAt s.undef x := by
    show undefAt (cutRange a (a + 1) s.undef) x = _
    rw [undefAt_cutRange]
    by_cases h : x = a
    · rw [if_pos (by omega), if_pos h]
    · rw [if_neg (by omega), if_neg h]
  have hm : KMap.get (s.setByte a v).mem 0 x = if x = a then v else KMap.get s.mem 0 x := KMap.get_set _ _ _ _ _ _ (fun _ => rfl)
  unfold State.byte
  rw [hu, hm]
  by_cases h : x = a
  · simp [h]
  · simp [h]

/-- Bytes just written read back; the others are as before. -/
theorem State.byte_setBytes (a x : Nat) (l : List Byte) :
    (s.setBytes a l).byte x = if a ≤ x ∧ x < a + l.length then l.getD (x - a) 0 else s.byte x := by
  induction l generalizing s a with
  | nil => rw [if_neg (by simp)]; rfl
  | cons b t ih =>
    show ((s.setByte a b).setBytes (a + 1) t).byte x = _
    rw [ih, State.byte_setByte]
    simp only [List.length_cons]
    by_cases h1 : x = a
    · rw [if_neg (by omega), if_pos h1, if_pos (by omega)]; simp [h1]
    · by_cases h2 : a + 1 ≤ x ∧ x < a + 1 + t.length
      · rw [if_pos h2, if_pos (by omega), show x - a = (x - (a + 1)) + 1 by omega, List.getD_cons_succ]
      · rw [if_neg h2, if_neg h1, if_neg (by omega)]

theorem State.byte_of (u : State) (hm : u.mem = s.mem) (hu : u.undef = s.undef) (x : Nat) : u.byte x = s.byte x := by
  unfold State.byte; rw [hm, hu]

/-- A unit's write of bytes that is not dropped. -/
theorem State.byte_wr (a x : Nat) (l : List Byte) (h : s.dropped a = false) (h' : s.asuPart a l.length = false) :
    (s.wr a l).byte x = if a ≤ x ∧ x < a + l.length then l.getD (x - a) 0 else s.byte x := by
  unfold State.wr
  rw [if_neg (by simp [h, h'])]
  exact s.byte_setBytes a x l

@[simp] theorem length_toBytes (n v : Nat) : (toBytes n v).length = n := by
  induction n generalizing v with
  | zero => rfl
  | succ n ih => simp [toBytes, ih]


end Sys2Proof.Machine
end

