-- ==== Sys2Proof/Laws/Apart.lean ====
section
/-! SUPPORT. What the work of the stakes leaves alone: the Lockkeeper, the weave, the fuses, the failed marks, and the registers of
the global, weave, Lockkeeper and security blocks (but for the write outcomes). One relation, with one lemma for each operation. -/

namespace Sys2Proof.Machine

theorem Apart.refl (s : State) : Apart s s := ⟨rfl, rfl, rfl, rfl, rfl, rfl, rfl, rfl, fun _ _ => rfl⟩

theorem Apart.trans {r s t : State} (a : Apart r s) (b : Apart s t) : Apart r t :=
  ⟨by have h := b.lk; rw [a.lk] at h; exact h, b.weave.trans a.weave, b.fuses.trans a.fuses, b.failEng.trans a.failEng, b.failPvu.trans a.failPvu,
    b.failTc.trans a.failTc, b.failQuay.trans a.failQuay, b.failCh.trans a.failCh, fun x h => (b.regs x h).trans (a.regs x h)⟩

/-- A field of a global register. -/
theorem Apart.fld {s t : State} (h : Apart s t) (a : Nat) (f : Fld) (g : Global a) : t.fld a f = s.fld a f := by
  unfold State.fld; rw [h.regs a g]

/-- A change of other fields. -/
theorem Apart.mk_upd {z s : State} (h : Apart z s) (pending' : List Instr) (mem' : KMap Byte) (undef' : List (Nat × Nat × Nat)) (poison'
    : List Nat) (free' : Nat) (resp' : Resp) (flash' : Flash) (sec' : Sec) (psq' : KMap Psq) (slots' : KMap Slot) (pvu' : KMap Pvu)
    (asu' : KMap Asu) (quay' : KMap Quay) (binds' : List Bind) (macs' : KMap Nat) (xch' : KMap Xch) (jobs' : KMap Job) (port' : KMap
    Port) (ring' : KMap RingDir) (out' : List HostMsg) (msix' : KMap Nat) (pba' : Nat) (added' : Nat) (kvp' : KMap Kvp) (thread' : KMap
    Thread) (l1' : KMap (List L1Line)) (il1' : KMap (List Nat)) (wakes' : List (Nat × Nat)) (time' : Nat) (core' : KMap (KMap Nat))
    (takes' : List (Nat × Nat × Nat)) (homes' : KMap Home) (copies' : List (Nat × Nat × Bool)) (resv' : KMap Nat) (recs' : KMap (Nat ×
    Nat)) (hq' : KMap Hq) (poolK' : Nat) (poolEra' : Nat) (pci' : Pci) (replay' : Nat) :
    Apart z ⟨pending', s.regs, mem', undef', poison', free', resp', s.lk, s.weave, s.fuses, flash', sec', s.failEng, s.failPvu,
    s.failTc, s.failQuay, s.failCh, psq', slots', pvu', asu', quay', binds', macs', xch', jobs', port', ring', out', msix', pba',
    added', kvp', thread', l1', il1', wakes', time', core', takes', homes', copies', resv', recs', hq', poolK', poolEra', pci', replay'⟩
    :=
  h.trans ⟨rfl, rfl, rfl, rfl, rfl, rfl, rfl, rfl, fun _ _ => rfl⟩

theorem Apart.ite {r a b : State} {c : Prop} [Decidable c] (ha : Apart r a) (hb : Apart r b) : Apart r (if c then a else b) := by
  split <;> assumption

theorem Apart.elim {z n : State} {α : Type} {f : α → State} (o : Option α) (hn : Apart z n) (hs : ∀ v, Apart z (f v)) :
    Apart z (o.elim n f) := by
  cases o with
  | none => exact hn
  | some v => exact hs v

theorem Apart.foldl {β : Type} {r : State} {f : State → β → State} (hf : ∀ u b, Apart r u → Apart r (f u b)) (l : List β) {s : State}
    (h : Apart r s) : Apart r (l.foldl f s) := by
  induction l generalizing s with
  | nil => exact h
  | cons a t ih => exact ih (hf _ _ h)

theorem Apart.foldl_fst {β γ : Type} {r : State} {f : State × γ → β → State × γ} (hf : ∀ u b, Apart r u.1 → Apart r (f u b).1)
    (l : List β) {p : State × γ} (h : Apart r p.1) : Apart r (l.foldl f p).1 := by
  induction l generalizing p with
  | nil => exact h
  | cons a t ih => exact ih (hf _ _ h)

theorem Apart.foldl_snd {β γ : Type} {r : State} {f : γ × State → β → γ × State} (hf : ∀ u b, Apart r u.2 → Apart r (f u b).2)
    (l : List β) {p : γ × State} (h : Apart r p.2) : Apart r (l.foldl f p).2 := by
  induction l generalizing p with
  | nil => exact h
  | cons a t ih => exact ih (hf _ _ h)

theorem State.forAll_apart {r s : State} (l : List Nat) {f : State → Nat → State} (hf : ∀ u i, Apart r u → Apart r (f u i))
    (h : Apart r s) : Apart r (s.forAll l f) := Apart.foldl hf l h

theorem State.setReg_apart {r s : State} (a : Nat) (v : Word) (ha : Far a) (h : Apart r s) : Apart r (s.setReg a v) :=
  h.trans ⟨rfl, rfl, rfl, rfl, rfl, rfl, rfl, rfl, fun x g => State.reg_setReg_other s a x v (fun e => ha (e ▸ g))⟩

theorem State.setFld_apart {r s : State} (a : Nat) (f : Fld) (v : Nat) (ha : Far a) (h : Apart r s) : Apart r (s.setFld a f v) :=
  State.setReg_apart a _ ha h

theorem State.setFldBit_apart {r s : State} (a : Nat) (f : Fld) (i : Nat) (b : Bool) (ha : Far a) (h : Apart r s) :
    Apart r (s.setFldBit a f i b) := State.setReg_apart a _ ha h

theorem State.addSat_apart {r s : State} (a : Nat) (f : Fld) (n : Nat) (ha : Far a) (h : Apart r s) : Apart r (s.addSat a f n) :=
  State.setReg_apart a _ ha h

theorem State.count_apart {r s : State} (a n : Nat) (ha : Far a) (h : Apart r s) : Apart r (s.count a n) := State.setReg_apart a _ ha h

theorem State.setByte_apart {r s : State} (a : Nat) (v : Byte) (h : Apart r s) : Apart r (s.setByte a v) :=
  h.trans ⟨rfl, rfl, rfl, rfl, rfl, rfl, rfl, rfl, fun _ _ => rfl⟩

theorem State.setBytes_apart {r s : State} (a : Nat) (l : List Byte) (h : Apart r s) : Apart r (s.setBytes a l) := by
  induction l generalizing s a with
  | nil => exact h
  | cons b t ih => exact ih _ (State.setByte_apart a b h)

theorem State.lose_apart {r s : State} (lo hi : Nat) (h : Apart r s) : Apart r (s.lose lo hi) :=
  h.trans ⟨rfl, rfl, rfl, rfl, rfl, rfl, rfl, rfl, fun _ _ => rfl⟩

theorem State.draw_apart {r s : State} (h : Apart r s) : Apart r s.draw.2 :=
  h.trans ⟨rfl, rfl, rfl, rfl, rfl, rfl, rfl, rfl, fun _ _ => rfl⟩

theorem State.send_apart {r s : State} (m : HostMsg) (h : Apart r s) : Apart r (s.send m) :=
  h.trans ⟨rfl, rfl, rfl, rfl, rfl, rfl, rfl, rfl, fun _ _ => rfl⟩

/-! ### registers of other blocks -/

theorem R.mxeId_far (e : Nat) : Far (R.mxeId e ) := by unfold Far Global R.mxeId; omega
theorem R.mxeStatus_far (e : Nat) : Far (R.mxeStatus e ) := by unfold Far Global R.mxeStatus; omega
theorem R.mxeDtbl_far (e : Nat) : Far (R.mxeDtbl e ) := by unfold Far Global R.mxeDtbl; omega
theorem R.mxeDtblLen_far (e : Nat) : Far (R.mxeDtblLen e ) := by unfold Far Global R.mxeDtblLen; omega
theorem R.mxeErr_far (e : Nat) : Far (R.mxeErr e ) := by unfold Far Global R.mxeErr; omega
theorem R.mxeEcc_far (e : Nat) : Far (R.mxeEcc e ) := by unfold Far Global R.mxeEcc; omega
theorem R.mxeCntIssue_far (e : Nat) : Far (R.mxeCntIssue e ) := by unfold Far Global R.mxeCntIssue; omega
theorem R.mxeCntStream_far (e : Nat) : Far (R.mxeCntStream e ) := by unfold Far Global R.mxeCntStream; omega
theorem R.mxeCntLatch_far (e : Nat) : Far (R.mxeCntLatch e ) := by unfold Far Global R.mxeCntLatch; omega
theorem R.mxeCntFeed_far (e : Nat) : Far (R.mxeCntFeed e ) := by unfold Far Global R.mxeCntFeed; omega
theorem R.mxeCntDrain_far (e : Nat) : Far (R.mxeCntDrain e ) := by unfold Far Global R.mxeCntDrain; omega
theorem R.mxeCntToken_far (e : Nat) : Far (R.mxeCntToken e ) := by unfold Far Global R.mxeCntToken; omega
theorem R.mxeCntMacs_far (e : Nat) : Far (R.mxeCntMacs e ) := by unfold Far Global R.mxeCntMacs; omega
theorem R.vecDvuStatus_far (e : Nat) : Far (R.vecDvuStatus e ) := by unfold Far Global R.vecDvuStatus; omega
theorem R.vecCtbl_far (e : Nat) : Far (R.vecCtbl e ) := by unfold Far Global R.vecCtbl; omega
theorem R.vecCtblLen_far (e : Nat) : Far (R.vecCtblLen e ) := by unfold Far Global R.vecCtblLen; omega
theorem R.vecDvuErr_far (e : Nat) : Far (R.vecDvuErr e ) := by unfold Far Global R.vecDvuErr; omega
theorem R.vecDvuEvt_far (e : Nat) : Far (R.vecDvuEvt e ) := by unfold Far Global R.vecDvuEvt; omega
theorem R.vecDvuCntRows_far (e : Nat) : Far (R.vecDvuCntRows e ) := by unfold Far Global R.vecDvuCntRows; omega
theorem R.vecDvuCntWait_far (e : Nat) : Far (R.vecDvuCntWait e ) := by unfold Far Global R.vecDvuCntWait; omega
theorem R.vecPvuId_far (v : Nat) : Far (R.vecPvuId v ) := by unfold Far Global R.vecPvuId; omega
theorem R.vecPvuStatus_far (v : Nat) : Far (R.vecPvuStatus v ) := by unfold Far Global R.vecPvuStatus; omega
theorem R.vecPvuBack_far (v : Nat) : Far (R.vecPvuBack v ) := by unfold Far Global R.vecPvuBack; omega
theorem R.vecPvuAq_far (v : Nat) : Far (R.vecPvuAq v ) := by unfold Far Global R.vecPvuAq; omega
theorem R.vecPvuErr_far (v : Nat) : Far (R.vecPvuErr v ) := by unfold Far Global R.vecPvuErr; omega
theorem R.vecPvuCntOps_far (v : Nat) : Far (R.vecPvuCntOps v ) := by unfold Far Global R.vecPvuCntOps; omega
theorem R.psqId_far (k : Nat) : Far (R.psqId k ) := by unfold Far Global R.psqId; omega
theorem R.psqStatus_far (k : Nat) : Far (R.psqStatus k ) := by unfold Far Global R.psqStatus; omega
theorem R.psqCmd_far (k : Nat) : Far (R.psqCmd k ) := by unfold Far Global R.psqCmd; omega
theorem R.psqCtx_far (k : Nat) : Far (R.psqCtx k ) := by unfold Far Global R.psqCtx; omega
theorem R.psqStep_far (k : Nat) : Far (R.psqStep k ) := by unfold Far Global R.psqStep; omega
theorem R.psqSeed_far (k : Nat) : Far (R.psqSeed k ) := by unfold Far Global R.psqSeed; omega
theorem R.psqSeedNext_far (k : Nat) : Far (R.psqSeedNext k ) := by unfold Far Global R.psqSeedNext; omega
theorem R.psqPost_far (k : Nat) : Far (R.psqPost k ) := by unfold Far Global R.psqPost; omega
theorem R.psqBase_far (k x : Nat) : Far (R.psqBase k x ) := by unfold Far Global R.psqBase; omega
theorem R.psqLen_far (k x : Nat) : Far (R.psqLen k x ) := by unfold Far Global R.psqLen; omega
theorem R.psqPc_far (k x : Nat) : Far (R.psqPc k x ) := by unfold Far Global R.psqPc; omega
theorem R.psqIndex_far (k x : Nat) : Far (R.psqIndex k x ) := by unfold Far Global R.psqIndex; omega
theorem R.psqLimit_far (k x : Nat) : Far (R.psqLimit k x ) := by unfold Far Global R.psqLimit; omega
theorem R.psqFrec0_far (k x : Nat) : Far (R.psqFrec0 k x ) := by unfold Far Global R.psqFrec0; omega
theorem R.psqFrec1_far (k x : Nat) : Far (R.psqFrec1 k x ) := by unfold Far Global R.psqFrec1; omega
theorem R.psqInflight_far (k x : Nat) : Far (R.psqInflight k x ) := by unfold Far Global R.psqInflight; omega
theorem R.psqAhead_far (k x : Nat) : Far (R.psqAhead k x ) := by unfold Far Global R.psqAhead; omega
theorem R.psqToken_far (k i : Nat) : Far (R.psqToken k i ) := by unfold Far Global R.psqToken; omega
theorem R.psqTset_far (k i : Nat) : Far (R.psqTset k i ) := by unfold Far Global R.psqTset; omega
theorem R.psqJrnlStatus_far (k : Nat) : Far (R.psqJrnlStatus k ) := by unfold Far Global R.psqJrnlStatus; omega
theorem R.psqJrnlNext_far (k : Nat) : Far (R.psqJrnlNext k ) := by unfold Far Global R.psqJrnlNext; omega
theorem R.psqJrnlOldest_far (k : Nat) : Far (R.psqJrnlOldest k ) := by unfold Far Global R.psqJrnlOldest; omega
theorem R.psqJrnlLast_far (k : Nat) : Far (R.psqJrnlLast k ) := by unfold Far Global R.psqJrnlLast; omega
theorem R.psqJrnlPrev_far (k : Nat) : Far (R.psqJrnlPrev k ) := by unfold Far Global R.psqJrnlPrev; omega
theorem R.psqJrnlPrevEpoch_far (k : Nat) : Far (R.psqJrnlPrevEpoch k ) := by unfold Far Global R.psqJrnlPrevEpoch; omega
theorem R.psqFtRec0_far (k : Nat) : Far (R.psqFtRec0 k ) := by unfold Far Global R.psqFtRec0; omega
theorem R.psqFtRec1_far (k : Nat) : Far (R.psqFtRec1 k ) := by unfold Far Global R.psqFtRec1; omega
theorem R.psqFtCap_far (k : Nat) : Far (R.psqFtCap k ) := by unfold Far Global R.psqFtCap; omega
theorem R.psqFtSubst_far (k i : Nat) : Far (R.psqFtSubst k i ) := by unfold Far Global R.psqFtSubst; omega
theorem R.staStep_far (s : Nat) : Far (R.staStep s ) := by unfold Far Global R.staStep; omega
theorem R.staSum_far (s : Nat) : Far (R.staSum s ) := by unfold Far Global R.staSum; omega
theorem R.staMaxabs_far (s i : Nat) : Far (R.staMaxabs s i ) := by unfold Far Global R.staMaxabs; omega
theorem R.staCount_far (s i : Nat) : Far (R.staCount s i ) := by unfold Far Global R.staCount; omega
theorem R.staEng_far (e i : Nat) : Far (R.staEng e i ) := by unfold Far Global R.staEng; omega
theorem R.staPvu_far (v i : Nat) : Far (R.staPvu v i ) := by unfold Far Global R.staPvu; omega
theorem R.asuId_far (d : Nat) : Far (R.asuId d ) := by unfold Far Global R.asuId; omega
theorem R.asuErr_far (d : Nat) : Far (R.asuErr d ) := by unfold Far Global R.asuErr; omega
theorem R.asuSStatus_far (d s : Nat) : Far (R.asuSStatus d s ) := by unfold Far Global R.asuSStatus; omega
theorem R.asuSArea_far (d s : Nat) : Far (R.asuSArea d s ) := by unfold Far Global R.asuSArea; omega
theorem R.asuSNear_far (d s : Nat) : Far (R.asuSNear d s ) := by unfold Far Global R.asuSNear; omega
theorem R.asuSNearSize_far (d s : Nat) : Far (R.asuSNearSize d s ) := by unfold Far Global R.asuSNearSize; omega
theorem R.asuSPf_far (d s : Nat) : Far (R.asuSPf d s ) := by unfold Far Global R.asuSPf; omega
theorem R.asuSCntSpill_far (d s : Nat) : Far (R.asuSCntSpill d s ) := by unfold Far Global R.asuSCntSpill; omega
theorem R.asuSCntFetch_far (d s : Nat) : Far (R.asuSCntFetch d s ) := by unfold Far Global R.asuSCntFetch; omega
theorem R.asuSCntWait_far (d s : Nat) : Far (R.asuSCntWait d s ) := by unfold Far Global R.asuSCntWait; omega
theorem R.asuTWord_far (d s t : Nat) : Far (R.asuTWord d s t ) := by unfold Far Global R.asuTWord; omega
theorem R.quyId_far (q : Nat) : Far (R.quyId q ) := by unfold Far Global R.quyId; omega
theorem R.quyStatus_far (q : Nat) : Far (R.quyStatus q ) := by unfold Far Global R.quyStatus; omega
theorem R.quyErr_far (q : Nat) : Far (R.quyErr q ) := by unfold Far Global R.quyErr; omega
theorem R.quyEcc_far (q : Nat) : Far (R.quyEcc q ) := by unfold Far Global R.quyEcc; omega
theorem R.quyPoisonAddr_far (q : Nat) : Far (R.quyPoisonAddr q ) := by unfold Far Global R.quyPoisonAddr; omega
theorem R.quyCntAtom_far (q : Nat) : Far (R.quyCntAtom q ) := by unfold Far Global R.quyCntAtom; omega
theorem R.quySCntFold_far (q s : Nat) : Far (R.quySCntFold q s ) := by unfold Far Global R.quySCntFold; omega
theorem R.quySCntUpd_far (q s : Nat) : Far (R.quySCntUpd q s ) := by unfold Far Global R.quySCntUpd; omega
theorem R.quySCntClr_far (q s : Nat) : Far (R.quySCntClr q s ) := by unfold Far Global R.quySCntClr; omega
theorem R.quySCntHold_far (q s : Nat) : Far (R.quySCntHold q s ) := by unfold Far Global R.quySCntHold; omega
theorem R.quySCntResv_far (q s : Nat) : Far (R.quySCntResv q s ) := by unfold Far Global R.quySCntResv; omega
theorem R.rdxId_far : Far (R.rdxId ) := by unfold Far Global R.rdxId; omega
theorem R.rdxErr_far : Far (R.rdxErr ) := by unfold Far Global R.rdxErr; omega
theorem R.rdxJobsOpen_far : Far (R.rdxJobsOpen ) := by unfold Far Global R.rdxJobsOpen; omega
theorem R.rdxCntAdd_far : Far (R.rdxCntAdd ) := by unfold Far Global R.rdxCntAdd; omega
theorem R.rdxSXctl_far (s : Nat) : Far (R.rdxSXctl s ) := by unfold Far Global R.rdxSXctl; omega
theorem R.rdxSXlimit_far (s : Nat) : Far (R.rdxSXlimit s ) := by unfold Far Global R.rdxSXlimit; omega
theorem R.rdxSPartial_far (s : Nat) : Far (R.rdxSPartial s ) := by unfold Far Global R.rdxSPartial; omega
theorem R.rdxSXstat_far (s : Nat) : Far (R.rdxSXstat s ) := by unfold Far Global R.rdxSXstat; omega
theorem R.rdxSXnonfin_far (s : Nat) : Far (R.rdxSXnonfin s ) := by unfold Far Global R.rdxSXnonfin; omega
theorem R.rdxSXnormsq_far (s : Nat) : Far (R.rdxSXnormsq s ) := by unfold Far Global R.rdxSXnormsq; omega
theorem R.rdxSXexp_far (s i : Nat) : Far (R.rdxSXexp s i ) := by unfold Far Global R.rdxSXexp; omega
theorem R.rdxSSlotmap_far (s i : Nat) : Far (R.rdxSSlotmap s i ) := by unfold Far Global R.rdxSSlotmap; omega
theorem R.rdxSCntSkip_far (s : Nat) : Far (R.rdxSCntSkip s ) := by unfold Far Global R.rdxSCntSkip; omega
theorem R.rdxSCntSpill_far (s : Nat) : Far (R.rdxSCntSpill s ) := by unfold Far Global R.rdxSCntSpill; omega
theorem R.rdxJStatus_far (j : Nat) : Far (R.rdxJStatus j ) := by unfold Far Global R.rdxJStatus; omega
theorem R.rdxJScale_far (j : Nat) : Far (R.rdxJScale j ) := by unfold Far Global R.rdxJScale; omega
theorem R.rdxJCnt_far (j : Nat) : Far (R.rdxJCnt j ) := by unfold Far Global R.rdxJCnt; omega
theorem R.kvpId_far (d : Nat) : Far (R.kvpId d ) := by unfold Far Global R.kvpId; omega
theorem R.kvpErr_far (d : Nat) : Far (R.kvpErr d ) := by unfold Far Global R.kvpErr; omega
theorem R.kvpSStatus_far (d s : Nat) : Far (R.kvpSStatus d s ) := by unfold Far Global R.kvpSStatus; omega
theorem R.kvpSGeom_far (d s : Nat) : Far (R.kvpSGeom d s ) := by unfold Far Global R.kvpSGeom; omega
theorem R.kvpSMeta_far (d s : Nat) : Far (R.kvpSMeta d s ) := by unfold Far Global R.kvpSMeta; omega
theorem R.kvpSSeqrec_far (d s : Nat) : Far (R.kvpSSeqrec d s ) := by unfold Far Global R.kvpSSeqrec; omega
theorem R.kvpSPtab_far (d s : Nat) : Far (R.kvpSPtab d s ) := by unfold Far Global R.kvpSPtab; omega
theorem R.kvpSCmd_far (d s : Nat) : Far (R.kvpSCmd d s ) := by unfold Far Global R.kvpSCmd; omega
theorem R.kvpSCntCow_far (d s : Nat) : Far (R.kvpSCntCow d s ) := by unfold Far Global R.kvpSCntCow; omega
theorem R.kvpSCntCopy_far (d s : Nat) : Far (R.kvpSCntCopy d s ) := by unfold Far Global R.kvpSCntCopy; omega
theorem R.tcxSave_far (d : Nat) : Far (R.tcxSave d ) := by unfold Far Global R.tcxSave; omega
theorem R.tcxLaunch_far (d : Nat) : Far (R.tcxLaunch d ) := by unfold Far Global R.tcxLaunch; omega
theorem R.tcxLaunchPc_far (d : Nat) : Far (R.tcxLaunchPc d ) := by unfold Far Global R.tcxLaunchPc; omega
theorem R.tcxLaunchArg_far (d : Nat) : Far (R.tcxLaunchArg d ) := by unfold Far Global R.tcxLaunchArg; omega
theorem R.tcxErr_far (d : Nat) : Far (R.tcxErr d ) := by unfold Far Global R.tcxErr; omega
theorem R.tcxT_far (d t : Nat) : Far (R.tcxT d t ) := by unfold Far Global R.tcxT; omega
theorem R.memStatus_far (h : Nat) : Far (R.memStatus h ) := by unfold Far Global R.memStatus; omega
theorem R.memEcc_far (h : Nat) : Far (R.memEcc h ) := by unfold Far Global R.memEcc; omega
theorem R.memErrAddr_far (h : Nat) : Far (R.memErrAddr h ) := by unfold Far Global R.memErrAddr; omega
theorem R.memScrub_far (h : Nat) : Far (R.memScrub h ) := by unfold Far Global R.memScrub; omega
theorem R.cxtPStatus_far (p : Nat) : Far (R.cxtPStatus p ) := by unfold Far Global R.cxtPStatus; omega
theorem R.cxtErr_far : Far (R.cxtErr ) := by unfold Far Global R.cxtErr; omega
theorem R.cxtDecBase_far (n : Nat) : Far (R.cxtDecBase n ) := by unfold Far Global R.cxtDecBase; omega
theorem R.cxtDecSize_far (n : Nat) : Far (R.cxtDecSize n ) := by unfold Far Global R.cxtDecSize; omega
theorem R.cxtDecCtl_far (n : Nat) : Far (R.cxtDecCtl n ) := by unfold Far Global R.cxtDecCtl; omega
theorem R.cohId_far : Far (R.cohId ) := by unfold Far Global R.cohId; omega
theorem R.cohTimeout_far : Far (R.cohTimeout ) := by unfold Far Global R.cohTimeout; omega
theorem R.cohAge_far : Far (R.cohAge ) := by unfold Far Global R.cohAge; omega
theorem R.cohErr_far : Far (R.cohErr ) := by unfold Far Global R.cohErr; omega
theorem R.cohPoisonAddr_far : Far (R.cohPoisonAddr ) := by unfold Far Global R.cohPoisonAddr; omega
theorem R.cohHStatus_far (h : Nat) : Far (R.cohHStatus h ) := by unfold Far Global R.cohHStatus; omega
theorem R.cohHCntEvict_far (h : Nat) : Far (R.cohHCntEvict h ) := by unfold Far Global R.cohHCntEvict; omega
theorem R.cohHCntRetry_far (h : Nat) : Far (R.cohHCntRetry h ) := by unfold Far Global R.cohHCntRetry; omega
theorem R.cohHCntTimeout_far (h : Nat) : Far (R.cohHCntTimeout h ) := by unfold Far Global R.cohHCntTimeout; omega
theorem R.cohHCntAtom_far (h : Nat) : Far (R.cohHCntAtom h ) := by unfold Far Global R.cohHCntAtom; omega
theorem R.twpPStatus_far (p : Nat) : Far (R.twpPStatus p ) := by unfold Far Global R.twpPStatus; omega
theorem R.twpPCmd_far (p : Nat) : Far (R.twpPCmd p ) := by unfold Far Global R.twpPCmd; omega
theorem R.twpPPartner_far (p : Nat) : Far (R.twpPPartner p ) := by unfold Far Global R.twpPPartner; omega
theorem R.twpPCntLink_far (p : Nat) : Far (R.twpPCntLink p ) := by unfold Far Global R.twpPCntLink; omega
theorem R.twpPCntFec_far (p : Nat) : Far (R.twpPCntFec p ) := by unfold Far Global R.twpPCntFec; omega
theorem R.twpPLane_far (p : Nat) : Far (R.twpPLane p ) := by unfold Far Global R.twpPLane; omega
theorem R.twpPErr_far (p : Nat) : Far (R.twpPErr p ) := by unfold Far Global R.twpPErr; omega
theorem R.twpModid_far : Far (R.twpModid ) := by unfold Far Global R.twpModid; omega
theorem R.twpXlimit_far : Far (R.twpXlimit ) := by unfold Far Global R.twpXlimit; omega
theorem R.twpRStatus_far (r : Nat) : Far (R.twpRStatus r ) := by unfold Far Global R.twpRStatus; omega
theorem R.twpWinBase_far (w : Nat) : Far (R.twpWinBase w ) := by unfold Far Global R.twpWinBase; omega
theorem R.twpWinSize_far (w : Nat) : Far (R.twpWinSize w ) := by unfold Far Global R.twpWinSize; omega
theorem R.twpWinCtl_far (w : Nat) : Far (R.twpWinCtl w ) := by unfold Far Global R.twpWinCtl; omega
theorem R.hifStatus_far : Far (R.hifStatus ) := by unfold Far Global R.hifStatus; omega
theorem R.hifCtl_far : Far (R.hifCtl ) := by unfold Far Global R.hifCtl; omega
theorem R.hifBoot_far : Far (R.hifBoot ) := by unfold Far Global R.hifBoot; omega
theorem R.hifWin_far : Far (R.hifWin ) := by unfold Far Global R.hifWin; omega
theorem R.hifRwin_far : Far (R.hifRwin ) := by unfold Far Global R.hifRwin; omega
theorem R.hifSync_far : Far (R.hifSync ) := by unfold Far Global R.hifSync; omega
theorem R.hifErr_far : Far (R.hifErr ) := by unfold Far Global R.hifErr; omega
theorem R.hifMEvt_far : Far (R.hifMEvt ) := by unfold Far Global R.hifMEvt; omega
theorem R.hifMEvtCfg_far : Far (R.hifMEvtCfg ) := by unfold Far Global R.hifMEvtCfg; omega
theorem R.hifSEvtCfg_far (s : Nat) : Far (R.hifSEvtCfg s ) := by unfold Far Global R.hifSEvtCfg; omega
theorem R.hifSEvt_far (s : Nat) : Far (R.hifSEvt s ) := by unfold Far Global R.hifSEvt; omega
theorem R.hifPoolRing_far : Far (R.hifPoolRing ) := by unfold Far Global R.hifPoolRing; omega
theorem R.hifPoolDone_far : Far (R.hifPoolDone ) := by unfold Far Global R.hifPoolDone; omega
theorem R.hifQSq_far (n : Nat) : Far (R.hifQSq n ) := by unfold Far Global R.hifQSq; omega
theorem R.hifQCq_far (n : Nat) : Far (R.hifQCq n ) := by unfold Far Global R.hifQCq; omega
theorem R.hifQCfg_far (n : Nat) : Far (R.hifQCfg n ) := by unfold Far Global R.hifQCfg; omega
theorem R.hifQCtl_far (n : Nat) : Far (R.hifQCtl n ) := by unfold Far Global R.hifQCtl; omega
theorem R.hifQStatus_far (n : Nat) : Far (R.hifQStatus n ) := by unfold Far Global R.hifQStatus; omega
theorem R.hifQErr_far (n : Nat) : Far (R.hifQErr n ) := by unfold Far Global R.hifQErr; omega
theorem R.hifQIrq_far (n : Nat) : Far (R.hifQIrq n ) := by unfold Far Global R.hifQIrq; omega
theorem R.hifQCnt_far (n : Nat) : Far (R.hifQCnt n ) := by unfold Far Global R.hifQCnt; omega
theorem R.hifDbSq_far (n : Nat) : Far (R.hifDbSq n ) := by unfold Far Global R.hifDbSq; omega
theorem R.hifDbCq_far (n : Nat) : Far (R.hifDbCq n ) := by unfold Far Global R.hifDbCq; omega
theorem R.ptbCtl_far : Far (R.ptbCtl ) := by unfold Far Global R.ptbCtl; omega
theorem R.ptbSeed_far : Far (R.ptbSeed ) := by unfold Far Global R.ptbSeed; omega
theorem R.ptbCntA_far : Far (R.ptbCntA ) := by unfold Far Global R.ptbCntA; omega
theorem R.ptbCntB_far : Far (R.ptbCntB ) := by unfold Far Global R.ptbCntB; omega
theorem R.ptbCred_far (i : Nat) : Far (R.ptbCred i ) := by unfold Far Global R.ptbCred; omega
theorem R.ptbDly_far (i : Nat) : Far (R.ptbDly i ) := by unfold Far Global R.ptbDly; omega
theorem R.ptbBp_far (i : Nat) : Far (R.ptbBp i ) := by unfold Far Global R.ptbBp; omega
theorem R.ptbLink_far : Far (R.ptbLink ) := by unfold Far Global R.ptbLink; omega
theorem R.ptbSpill_far : Far (R.ptbSpill ) := by unfold Far Global R.ptbSpill; omega
theorem R.ptbHome_far : Far (R.ptbHome ) := by unfold Far Global R.ptbHome; omega

theorem thrReg_far (t : Nat) : Far (thrReg t) := R.tcxT_far _ _

end Sys2Proof.Machine
end

