-- ==== Sys2Proof/Laws/ApartOps.lean ====
section
/-! SUPPORT. What the operations of Machine/Ops.lean leave to the Lockkeeper, the weave and the SEC (Laws/Apart.lean). -/

namespace Sys2Proof.Machine

set_option linter.unusedTactic false
set_option linter.unreachableTactic false
set_option linter.unusedSimpArgs false

theorem State.reg_resetRegs (s : State) (l : List Nat) (x : Nat) (h : x ∉ l) : (s.resetRegs l).reg x = s.reg x := by
  unfold State.resetRegs State.reg KMap.get
  congr 1
  dsimp only
  induction l generalizing s with
  | nil => rfl
  | cons a t ih =>
    simp only [List.mem_cons, not_or] at h
    have e : KMap.find (KMap.erase s.regs a) x = KMap.find s.regs x := by rw [KMap.find_erase, if_neg h.1]
    rw [List.foldl_cons]
    exact (ih { s with regs := KMap.erase s.regs a } h.2).trans e

theorem State.resetRegs_apart {z s : State} (l : List Nat) (ha : ∀ a ∈ l, Far a) (hk : Apart z s) : Apart z (s.resetRegs l) :=
  hk.trans ⟨rfl, rfl, rfl, rfl, rfl, rfl, rfl, rfl, fun x g => State.reg_resetRegs s l x (fun h => ha x h g)⟩

theorem State.reg_resetRange (s : State) (lo hi x : Nat) (h : ¬ (lo ≤ x ∧ x < hi)) : (s.resetRange lo hi).reg x = s.reg x := by
  unfold State.reg State.resetRange KMap.get
  rw [KMap.find_filter s.regs (fun k => !(decide (lo ≤ k) && decide (k < hi))) x, if_pos (by simp; omega)]

theorem State.resetRange_apart {z s : State} (lo hi : Nat) (ha : 0x3000000400000 ≤ lo) (hk : Apart z s) : Apart z (s.resetRange lo hi) :=
  hk.trans ⟨rfl, rfl, rfl, rfl, rfl, rfl, rfl, rfl, fun x g => State.reg_resetRange s lo hi x (fun h => by have := g.1; omega)⟩

theorem State.poisonRange_apart {z s : State} (a n : Nat) (hk : Apart z s) :
    Apart z (s.poisonRange a n) := by
  unfold State.poisonRange
  try dsimp only
  repeat' first
    | with_reducible (first | exact hk | assumption | apply Apart.ite | apply Apart.foldl | apply Apart.foldl_fst | apply Apart.foldl_snd)
    | fail_if_no_progress with_reducible apply Apart.mk_upd
    | (intro _ _ _; try dsimp only)
    | intro _
    | split

theorem State.cleanse_apart {z s : State} (a n : Nat) (hk : Apart z s) :
    Apart z (s.cleanse a n) := by
  unfold State.cleanse
  try dsimp only
  repeat' first
    | with_reducible (first | exact hk | assumption | apply Apart.ite)
    | fail_if_no_progress with_reducible apply Apart.mk_upd
    | (intro _ _ _; try dsimp only)
    | intro _
    | split

theorem State.eccPoison_apart {z s : State} (l : Nat) (hk : Apart z s) :
    Apart z (s.eccPoison l) := by
  unfold State.eccPoison
  try dsimp only
  repeat' first
    | with_reducible (first | exact hk | assumption | apply Apart.ite | apply State.poisonRange_apart | apply State.addSat_apart | apply State.setFld_apart | exact R.memEcc_far _ | exact R.memErrAddr_far _)
    | fail_if_no_progress with_reducible apply Apart.mk_upd
    | (intro _ _ _; try dsimp only)
    | intro _
    | split

theorem State.eccRead_apart {z s : State} (a ecc : Nat) (hk : Apart z s) :
    Apart z (s.eccRead a ecc) := by
  unfold State.eccRead
  try dsimp only
  repeat' first
    | with_reducible (first | exact hk | assumption | apply Apart.ite | apply State.poisonRange_apart | apply State.addSat_apart | apply State.eccPoison_apart | exact R.memEcc_far _)
    | fail_if_no_progress with_reducible apply Apart.mk_upd
    | (intro _ _ _; try dsimp only)
    | intro _
    | split

theorem State.spadEcc_apart {z s : State} (a ecc : Nat) (hk : Apart z s) :
    Apart z (s.spadEcc a ecc) := by
  unfold State.spadEcc
  try dsimp only
  repeat' first
    | with_reducible (first | exact hk | assumption | apply Apart.ite | apply State.addSat_apart | apply State.poisonRange_apart | exact R.mxeEcc_far _)
    | fail_if_no_progress with_reducible apply Apart.mk_upd
    | (intro _ _ _; try dsimp only)
    | intro _
    | split

theorem State.arrayErrs_apart {z s : State} (spans : List (Nat × Nat)) (x : Errs) (hk : Apart z s) :
    Apart z (s.arrayErrs spans x) := by
  unfold State.arrayErrs
  try dsimp only
  repeat' first
    | with_reducible (first | exact hk | assumption | apply Apart.ite | apply State.spadEcc_apart | apply State.eccRead_apart | apply Apart.foldl | apply Apart.foldl_fst | apply Apart.foldl_snd)
    | fail_if_no_progress with_reducible apply Apart.mk_upd
    | (intro _ _ _; try dsimp only)
    | intro _
    | split

theorem State.touch_apart {z s : State} (a n : Nat) (own : Option Nat) (hk : Apart z s) :
    Apart z (s.touch a n own) := by
  unfold State.touch
  try dsimp only
  repeat' first
    | with_reducible (first | exact hk | assumption | apply Apart.ite)
    | fail_if_no_progress with_reducible apply Apart.mk_upd
    | (intro _ _ _; try dsimp only)
    | intro _
    | split

theorem State.noteCxl_apart {z s : State} (a n : Nat) (read : Bool) (hk : Apart z s) :
    Apart z (s.noteCxl a n read) := by
  unfold State.noteCxl
  try dsimp only
  repeat' first
    | with_reducible (first | exact hk | assumption | apply Apart.ite | apply State.addSat_apart | exact R.cxtErr_far)
    | fail_if_no_progress with_reducible apply Apart.mk_upd
    | (intro _ _ _; try dsimp only)
    | intro _
    | split

theorem State.wrMask_apart {z s : State} (l m : Nat) (d : List Byte) (own : Option Nat) (hk : Apart z s) :
    Apart z (s.wrMask l m d own) := by
  unfold State.wrMask
  try dsimp only
  repeat' first
    | with_reducible (first | exact hk | assumption | apply Apart.ite | apply State.noteCxl_apart | apply State.forAll_apart | apply State.setByte_apart | apply State.cleanse_apart | apply State.touch_apart)
    | fail_if_no_progress with_reducible apply Apart.mk_upd
    | (intro _ _ _; try dsimp only)
    | intro _
    | split

theorem State.wr_apart {z s : State} (a : Nat) (b : List Byte) (hk : Apart z s) :
    Apart z (s.wr a b) := by
  unfold State.wr
  try dsimp only
  repeat' first
    | with_reducible (first | exact hk | assumption | apply Apart.ite | apply State.noteCxl_apart | apply State.setBytes_apart | apply State.cleanse_apart | apply State.touch_apart)
    | fail_if_no_progress with_reducible apply Apart.mk_upd
    | (intro _ _ _; try dsimp only)
    | intro _
    | split

theorem State.wrN_apart {z s : State} (a n v : Nat) (hk : Apart z s) :
    Apart z (s.wrN a n v) := by
  unfold State.wrN
  try dsimp only
  repeat' first
    | with_reducible (first | exact hk | assumption | apply Apart.ite | apply State.wr_apart)
    | fail_if_no_progress with_reducible apply Apart.mk_upd
    | (intro _ _ _; try dsimp only)
    | intro _
    | split

theorem State.wrPoison_apart {z s : State} (a n : Nat) (hk : Apart z s) :
    Apart z (s.wrPoison a n) := by
  unfold State.wrPoison
  try dsimp only
  repeat' first
    | with_reducible (first | exact hk | assumption | apply Apart.ite | apply State.noteCxl_apart | apply State.poisonRange_apart | apply State.touch_apart)
    | fail_if_no_progress with_reducible apply Apart.mk_upd
    | (intro _ _ _; try dsimp only)
    | intro _
    | split

theorem State.readErrs_apart {z s : State} (spans : List (Nat × Nat)) (x : Errs) (hk : Apart z s) :
    Apart z (s.readErrs spans x) := by
  unfold State.readErrs
  try dsimp only
  repeat' first
    | with_reducible (first | exact hk | assumption | apply Apart.ite | apply State.noteCxl_apart | apply State.arrayErrs_apart | apply Apart.foldl | apply Apart.foldl_fst | apply Apart.foldl_snd)
    | fail_if_no_progress with_reducible apply Apart.mk_upd
    | (intro _ _ _; try dsimp only)
    | intro _
    | split

theorem State.answer_apart {z s : State} (r : Resp) (hk : Apart z s) :
    Apart z (s.answer r) := by
  unfold State.answer
  try dsimp only
  repeat' first
    | with_reducible (first | exact hk | assumption | apply Apart.ite)
    | fail_if_no_progress with_reducible apply Apart.mk_upd
    | (intro _ _ _; try dsimp only)
    | intro _
    | split

theorem State.setQ_apart {z s : State} (k : Nat) (c : Psq) (hk : Apart z s) :
    Apart z (s.setQ k c) := by
  unfold State.setQ
  try dsimp only
  repeat' first
    | with_reducible (first | exact hk | assumption | apply Apart.ite)
    | fail_if_no_progress with_reducible apply Apart.mk_upd
    | (intro _ _ _; try dsimp only)
    | intro _
    | split

theorem State.setPv_apart {z s : State} (v : Nat) (c : Pvu) (hk : Apart z s) :
    Apart z (s.setPv v c) := by
  unfold State.setPv
  try dsimp only
  repeat' first
    | with_reducible (first | exact hk | assumption | apply Apart.ite)
    | fail_if_no_progress with_reducible apply Apart.mk_upd
    | (intro _ _ _; try dsimp only)
    | intro _
    | split

theorem State.setAs_apart {z s : State} (d k : Nat) (c : Asu) (hk : Apart z s) :
    Apart z (s.setAs d k c) := by
  unfold State.setAs
  try dsimp only
  repeat' first
    | with_reducible (first | exact hk | assumption | apply Apart.ite)
    | fail_if_no_progress with_reducible apply Apart.mk_upd
    | (intro _ _ _; try dsimp only)
    | intro _
    | split

theorem State.setQu_apart {z s : State} (q : Nat) (c : Quay) (hk : Apart z s) :
    Apart z (s.setQu q c) := by
  unfold State.setQu
  try dsimp only
  repeat' first
    | with_reducible (first | exact hk | assumption | apply Apart.ite)
    | fail_if_no_progress with_reducible apply Apart.mk_upd
    | (intro _ _ _; try dsimp only)
    | intro _
    | split

theorem State.setSlot_apart {z s : State} (k i : Nat) (v : Slot) (hk : Apart z s) :
    Apart z (s.setSlot k i v) := by
  unfold State.setSlot
  try dsimp only
  repeat' first
    | with_reducible (first | exact hk | assumption | apply Apart.ite)
    | fail_if_no_progress with_reducible apply Apart.mk_upd
    | (intro _ _ _; try dsimp only)
    | intro _
    | split

theorem State.setCore_apart {z s : State} (c i v : Nat) (hk : Apart z s) :
    Apart z (s.setCore c i v) := by
  unfold State.setCore
  try dsimp only
  repeat' first
    | with_reducible (first | exact hk | assumption | apply Apart.ite)
    | fail_if_no_progress with_reducible apply Apart.mk_upd
    | (intro _ _ _; try dsimp only)
    | intro _
    | split

theorem State.pend_apart {z s : State} (hart eiid : Nat) (hk : Apart z s) :
    Apart z (s.pend hart eiid) := by
  unfold State.pend
  try dsimp only
  repeat' first
    | with_reducible (first | exact hk | assumption | apply Apart.ite | apply State.setCore_apart)
    | fail_if_no_progress with_reducible apply Apart.mk_upd
    | (intro _ _ _; try dsimp only)
    | intro _
    | split

theorem State.signal_apart {z s : State} (imsic : Bool) (vector hart eiid : Nat) (hk : Apart z s) :
    Apart z (s.signal imsic vector hart eiid) := by
  unfold State.signal
  try dsimp only
  repeat' first
    | with_reducible (first | exact hk | assumption | apply Apart.ite | apply State.send_apart | apply State.pend_apart)
    | fail_if_no_progress with_reducible apply Apart.mk_upd
    | (intro _ _ _; try dsimp only)
    | intro _
    | split

theorem State.sendPending_apart {z s : State} (hk : Apart z s) :
    Apart z s.sendPending := by
  unfold State.sendPending
  try dsimp only
  repeat' first
    | with_reducible (first | exact hk | assumption | apply Apart.ite | apply State.forAll_apart | apply State.send_apart)
    | fail_if_no_progress with_reducible apply Apart.mk_upd
    | (intro _ _ _; try dsimp only)
    | intro _
    | split

theorem State.raiseEvent_apart {z s : State} (a cfg : Nat) (f : Fld) (ha : Far a) (hk : Apart z s) : Apart z (s.raiseEvent a cfg f) := by
  unfold State.raiseEvent
  dsimp only
  repeat' first
    | with_reducible (first | exact hk | exact ha | apply Apart.ite | apply State.setFld_apart | apply State.signal_apart)
    | split

theorem State.modEvent_apart {z s : State} (f : Fld) (hk : Apart z s) :
    Apart z (s.modEvent f) := by
  unfold State.modEvent
  try dsimp only
  repeat' first
    | with_reducible (first | exact hk | assumption | apply Apart.ite | apply State.raiseEvent_apart | exact R.hifMEvt_far | exact R.hifMEvtCfg_far)
    | fail_if_no_progress with_reducible apply Apart.mk_upd
    | (intro _ _ _; try dsimp only)
    | intro _
    | split

theorem State.stakeEvent_apart {z s : State} (k : Nat) (f : Fld) (hk : Apart z s) :
    Apart z (s.stakeEvent k f) := by
  unfold State.stakeEvent
  try dsimp only
  repeat' first
    | with_reducible (first | exact hk | assumption | apply Apart.ite | apply State.raiseEvent_apart | exact R.hifSEvt_far _ | exact R.hifSEvtCfg_far _)
    | fail_if_no_progress with_reducible apply Apart.mk_upd
    | (intro _ _ _; try dsimp only)
    | intro _
    | split

end Sys2Proof.Machine
end

