-- ==== Sys2Proof/Laws/ApartOperands.lean ====
section
/-! SUPPORT. What the operations of Machine/Operands.lean leave to the Lockkeeper, the weave and the SEC (Laws/Apart.lean). -/

namespace Sys2Proof.Machine

set_option linter.unusedTactic false
set_option linter.unreachableTactic false
set_option linter.unusedSimpArgs false

theorem State.wrRow_apart {z s : State} (a w : Nat) (codes : List Nat) (hk : Apart z s) :
    Apart z (s.wrRow a w codes) := by
  unfold State.wrRow
  try dsimp only
  repeat' first
    | with_reducible (first | exact hk | assumption | apply Apart.ite | apply State.wr_apart)
    | fail_if_no_progress with_reducible apply Apart.mk_upd
    | (intro _ _ _; try dsimp only)
    | intro _
    | split

end Sys2Proof.Machine
end

