-- ==== Sys2Proof/Laws/ApartFlags.lean ====
section
/-! SUPPORT. What the operations of Machine/Flags.lean leave to the Lockkeeper, the weave and the SEC (Laws/Apart.lean). -/

namespace Sys2Proof.Machine

set_option linter.unusedTactic false
set_option linter.unreachableTactic false
set_option linter.unusedSimpArgs false

theorem State.tap_apart {z s : State} (k i maxabs nonfin sat : Nat) (hk : Apart z s) :
    Apart z (s.tap k i maxabs nonfin sat) := by
  unfold State.tap
  try dsimp only
  repeat' first
    | with_reducible (first | exact hk | assumption | apply Apart.ite | apply State.setSlot_apart)
    | fail_if_no_progress with_reducible apply Apart.mk_upd
    | (intro _ _ _; try dsimp only)
    | intro _
    | split

end Sys2Proof.Machine
end

