-- ==== Sys2Proof/Laws/ApartAccess.lean ====
section
/-! SUPPORT. What the operations of Machine/Access.lean leave to the Lockkeeper, the weave and the SEC (Laws/Apart.lean). -/

namespace Sys2Proof.Machine

set_option linter.unusedTactic false
set_option linter.unreachableTactic false
set_option linter.unusedSimpArgs false

theorem State.noResume_apart {z s : State} (k : Nat) (hk : Apart z s) : Apart z (s.noResume k) :=
  hk.trans ⟨rfl, rfl, rfl, rfl, rfl, rfl, rfl, rfl, fun _ _ => rfl⟩

theorem State.hostRejected_apart {z s : State} (hk : Apart z s) :
    Apart z s.hostRejected := by
  unfold State.hostRejected
  try dsimp only
  repeat' first
    | with_reducible (first | exact hk | assumption | apply Apart.ite | apply State.addSat_apart | exact R.hifErr_far)
    | fail_if_no_progress with_reducible apply Apart.mk_upd
    | (intro _ _ _; try dsimp only)
    | intro _
    | split

theorem State.dropWrite_apart {z s : State} (m : Master) (hk : Apart z s) :
    Apart z (s.dropWrite m) := by
  unfold State.dropWrite
  try dsimp only
  repeat' first
    | with_reducible (first | exact hk | assumption | apply Apart.ite | apply State.hostRejected_apart | apply State.answer_apart)
    | fail_if_no_progress with_reducible apply Apart.mk_upd
    | (intro _ _ _; try dsimp only)
    | intro _
    | split

theorem masterNum_lt (m : Master) : m.num < 66 := by
  cases m with
  | core n => simp only [Master.num]; omega
  | _ => simp [Master.num]

theorem wstat_far (m : Master) : Far (R.lkWstat m.num) := by
  have := masterNum_lt m
  unfold Far Global R.lkWstat; omega

theorem State.wstat_apart {z s : State} (m : Master) (a out : Nat) (hk : Apart z s) : Apart z (s.wstat m a out) := by
  unfold State.wstat
  exact Apart.ite (State.hostRejected_apart (State.setReg_apart _ _ (wstat_far m) hk)) (State.setReg_apart _ _ (wstat_far m) hk)

theorem State.supersede_apart {z s : State} (a : Nat) (m : Master) (rivals : List Master) (hk : Apart z s) :
    Apart z (s.supersede a m rivals) := by
  unfold State.supersede
  try dsimp only
  repeat' first
    | with_reducible (first | exact hk | assumption | apply Apart.ite | apply State.wstat_apart | apply Apart.foldl | apply Apart.foldl_fst | apply Apart.foldl_snd)
    | fail_if_no_progress with_reducible apply Apart.mk_upd
    | (intro _ _ _; try dsimp only)
    | intro _
    | split

theorem State.command_apart {z s : State} (m : Master) (rivals : List Master) (a : Nat) (body : State → State) (hbody : ∀ u, Apart z u → Apart z (body u)) (hk : Apart z s) :
    Apart z (s.command m rivals a body) := by
  unfold State.command
  try dsimp only
  repeat' first
    | with_reducible (first | exact hk | assumption | apply Apart.ite | apply State.dropWrite_apart | apply State.wstat_apart | apply State.answer_apart | apply State.supersede_apart | apply hbody)
    | fail_if_no_progress with_reducible apply Apart.mk_upd
    | (intro _ _ _; try dsimp only)
    | intro _
    | split

end Sys2Proof.Machine
end

