-- ==== Sys2Proof/Laws/ApartPsq.lean ====
section
/-! SUPPORT. What the operations of Machine/Psq.lean leave to the Lockkeeper, the weave and the SEC (Laws/Apart.lean). -/

namespace Sys2Proof.Machine

set_option linter.unusedTactic false
set_option linter.unreachableTactic false
set_option linter.unusedSimpArgs false

theorem State.setTok_apart {z s : State} (k c v : Nat) (hk : Apart z s) :
    Apart z (s.setTok k c v) := by
  unfold State.setTok
  try dsimp only
  repeat' first
    | with_reducible (first | exact hk | assumption | apply Apart.ite | apply State.setFld_apart | exact R.psqToken_far _ _)
    | fail_if_no_progress with_reducible apply Apart.mk_upd
    | (intro _ _ _; try dsimp only)
    | intro _
    | split

theorem State.takeTokens_apart {z s : State} (k mask : Nat) (hk : Apart z s) :
    Apart z (s.takeTokens k mask) := by
  unfold State.takeTokens
  try dsimp only
  repeat' first
    | with_reducible (first | exact hk | assumption | apply Apart.ite | apply State.forAll_apart | apply State.setTok_apart)
    | fail_if_no_progress with_reducible apply Apart.mk_upd
    | (intro _ _ _; try dsimp only)
    | intro _
    | split

theorem State.giveTokens_apart {z s : State} (k mask : Nat) (hk : Apart z s) :
    Apart z (s.giveTokens k mask) := by
  unfold State.giveTokens
  try dsimp only
  repeat' first
    | with_reducible (first | exact hk | assumption | apply Apart.ite | apply State.forAll_apart | apply State.setTok_apart)
    | fail_if_no_progress with_reducible apply Apart.mk_upd
    | (intro _ _ _; try dsimp only)
    | intro _
    | split

theorem State.setPst_apart {z s : State} (k v : Nat) (hk : Apart z s) :
    Apart z (s.setPst k v) := by
  unfold State.setPst
  try dsimp only
  repeat' first
    | with_reducible (first | exact hk | assumption | apply Apart.ite | apply State.setFld_apart | exact R.psqStatus_far _)
    | fail_if_no_progress with_reducible apply Apart.mk_upd
    | (intro _ _ _; try dsimp only)
    | intro _
    | split

theorem State.setOutst_apart {z s : State} (k : Nat) (l : List Outst) (hk : Apart z s) :
    Apart z (s.setOutst k l) := by
  unfold State.setOutst
  try dsimp only
  repeat' first
    | with_reducible (first | exact hk | assumption | apply Apart.ite | apply State.setQ_apart | apply State.forAll_apart | apply State.setFld_apart | exact R.psqInflight_far _ _)
    | fail_if_no_progress with_reducible apply Apart.mk_upd
    | (intro _ _ _; try dsimp only)
    | intro _
    | split

theorem State.updOutst_apart {z s : State} (k n : Nat) (f : Outst → Outst) (hk : Apart z s) :
    Apart z (s.updOutst k n f) := by
  unfold State.updOutst
  try dsimp only
  repeat' first
    | with_reducible (first | exact hk | assumption | apply Apart.ite | apply State.setQ_apart)
    | fail_if_no_progress with_reducible apply Apart.mk_upd
    | (intro _ _ _; try dsimp only)
    | intro _
    | split

theorem State.syncMxe_apart {z s : State} (k e : Nat) (hk : Apart z s) :
    Apart z (s.syncMxe k e) := by
  unfold State.syncMxe
  try dsimp only
  repeat' first
    | with_reducible (first | exact hk | assumption | apply Apart.ite | apply State.setFld_apart | exact R.mxeStatus_far _)
    | fail_if_no_progress with_reducible apply Apart.mk_upd
    | (intro _ _ _; try dsimp only)
    | intro _
    | split

theorem State.syncDvu_apart {z s : State} (k e : Nat) (hk : Apart z s) :
    Apart z (s.syncDvu k e) := by
  unfold State.syncDvu
  try dsimp only
  repeat' first
    | with_reducible (first | exact hk | assumption | apply Apart.ite | apply State.setFld_apart | exact R.vecDvuStatus_far _)
    | fail_if_no_progress with_reducible apply Apart.mk_upd
    | (intro _ _ _; try dsimp only)
    | intro _
    | split

theorem State.syncUnits_apart {z s : State} (k : Nat) (hk : Apart z s) :
    Apart z (s.syncUnits k) := by
  unfold State.syncUnits
  try dsimp only
  repeat' first
    | with_reducible (first | exact hk | assumption | apply Apart.ite | apply State.forAll_apart | apply State.syncMxe_apart | apply State.syncDvu_apart)
    | fail_if_no_progress with_reducible apply Apart.mk_upd
    | (intro _ _ _; try dsimp only)
    | intro _
    | split

theorem State.writeCtxLive_apart {z s : State} (k : Nat) (hk : Apart z s) :
    Apart z (s.writeCtxLive k) := by
  unfold State.writeCtxLive
  try dsimp only
  repeat' first
    | with_reducible (first | exact hk | assumption | apply Apart.ite | apply State.forAll_apart | apply State.wr_apart | exact R.psqCtx_far _ | exact R.psqIndex_far _ _ | exact R.psqPc_far _ _ | exact R.psqLimit_far _ _ | exact R.psqAhead_far _ _ | exact R.psqToken_far _ _)
    | fail_if_no_progress with_reducible apply Apart.mk_upd
    | (intro _ _ _; try dsimp only)
    | intro _
    | split

theorem State.writeCtx_apart {z s : State} (k : Nat) (hk : Apart z s) :
    Apart z (s.writeCtx k) := by
  unfold State.writeCtx
  try dsimp only
  repeat' first
    | with_reducible (first | exact hk | assumption | apply Apart.ite | apply State.wr_apart | apply State.writeCtxLive_apart | apply State.forAll_apart | exact R.psqCtx_far _ | exact R.psqStep_far _ | exact R.psqSeed_far _ | exact R.psqSeedNext_far _ | exact R.psqStatus_far _)
    | fail_if_no_progress with_reducible apply Apart.mk_upd
    | (intro _ _ _; try dsimp only)
    | intro _
    | split

theorem State.ctxThrough_apart {z s : State} (k : Nat) (hk : Apart z s) :
    Apart z (s.ctxThrough k) := by
  unfold State.ctxThrough
  try dsimp only
  repeat' first
    | with_reducible (first | exact hk | assumption | apply Apart.ite | apply State.writeCtxLive_apart | exact R.psqStatus_far _)
    | fail_if_no_progress with_reducible apply Apart.mk_upd
    | (intro _ _ _; try dsimp only)
    | intro _
    | split

theorem State.extPost_apart {z s : State} (k mask : Nat) (hk : Apart z s) :
    Apart z (s.extPost k mask) := by
  unfold State.extPost
  try dsimp only
  repeat' first
    | with_reducible (first | exact hk | assumption | apply Apart.ite | apply State.giveTokens_apart | apply State.ctxThrough_apart)
    | fail_if_no_progress with_reducible apply Apart.mk_upd
    | (intro _ _ _; try dsimp only)
    | intro _
    | split

theorem State.rollback_apart {z s : State} (k : Nat) (gone : List Outst) (x : Nat) (hk : Apart z s) :
    Apart z (s.rollback k gone x) := by
  unfold State.rollback
  try dsimp only
  repeat' first
    | with_reducible (first | exact hk | assumption | apply Apart.ite | apply State.setReg_apart | apply State.setQ_apart | exact R.psqIndex_far _ _ | exact R.psqAhead_far _ _ | exact R.psqPc_far _ _)
    | fail_if_no_progress with_reducible apply Apart.mk_upd
    | (intro _ _ _; try dsimp only)
    | intro _
    | split

theorem State.unwind_apart {z s : State} (k : Nat) (o : Outst) (hk : Apart z s) :
    Apart z (s.unwind k o) := by
  unfold State.unwind
  try dsimp only
  repeat' first
    | with_reducible (first | exact hk | assumption | apply Apart.ite | apply State.setAs_apart | apply State.setReg_apart | exact R.rdxJStatus_far _)
    | fail_if_no_progress with_reducible apply Apart.mk_upd
    | (intro _ _ _; try dsimp only)
    | intro _
    | split

theorem State.withdrawSome_apart {z s : State} (k : Nat) (p : Outst → Bool) (hk : Apart z s) :
    Apart z (s.withdrawSome k p) := by
  unfold State.withdrawSome
  try dsimp only
  repeat' first
    | with_reducible (first | exact hk | assumption | apply Apart.ite | apply State.rollback_apart | apply State.giveTokens_apart | apply State.unwind_apart | apply State.setOutst_apart | apply State.syncUnits_apart | apply Apart.foldl | apply Apart.foldl_fst | apply Apart.foldl_snd)
    | fail_if_no_progress with_reducible apply Apart.mk_upd
    | (intro _ _ _; try dsimp only)
    | intro _
    | split

theorem State.withdraw_apart {z s : State} (k : Nat) (hk : Apart z s) :
    Apart z (s.withdraw k) := by
  unfold State.withdraw
  try dsimp only
  repeat' first
    | with_reducible (first | exact hk | assumption | apply Apart.ite | apply State.withdrawSome_apart | apply State.setQ_apart)
    | fail_if_no_progress with_reducible apply Apart.mk_upd
    | (intro _ _ _; try dsimp only)
    | intro _
    | split

theorem State.stopNow_apart {z s : State} (k : Nat) (hk : Apart z s) :
    Apart z (s.stopNow k) := by
  unfold State.stopNow
  try dsimp only
  repeat' first
    | with_reducible (first | exact hk | assumption | apply Apart.ite | apply State.withdraw_apart | apply State.setPst_apart | exact R.psqStatus_far _)
    | fail_if_no_progress with_reducible apply Apart.mk_upd
    | (intro _ _ _; try dsimp only)
    | intro _
    | split

theorem State.beginStop_apart {z s : State} (k : Nat) (cause : Fld) (hk : Apart z s) :
    Apart z (s.beginStop k cause) := by
  unfold State.beginStop
  try dsimp only
  repeat' first
    | with_reducible (first | exact hk | assumption | apply Apart.ite | apply State.setFld_apart | apply State.stopNow_apart | exact R.psqStatus_far _)
    | fail_if_no_progress with_reducible apply Apart.mk_upd
    | (intro _ _ _; try dsimp only)
    | intro _
    | split

theorem State.raiseFault_apart {z s : State} (k x index code unit : Nat) (after : Bool) (hk : Apart z s) :
    Apart z (s.raiseFault k x index code unit after) := by
  unfold State.raiseFault
  try dsimp only
  repeat' first
    | with_reducible (first | exact hk | assumption | apply Apart.ite | apply State.setFld_apart | apply State.setReg_apart | apply State.stakeEvent_apart | apply State.beginStop_apart | exact R.psqFrec0_far _ _ | exact R.psqFrec1_far _ _ | exact R.psqStatus_far _)
    | fail_if_no_progress with_reducible apply Apart.mk_upd
    | (intro _ _ _; try dsimp only)
    | intro _
    | split

theorem State.faultOut_apart {z s : State} (k : Nat) (o : Outst) (code unit : Nat) (hk : Apart z s) :
    Apart z (s.faultOut k o code unit) := by
  unfold State.faultOut
  try dsimp only
  repeat' first
    | with_reducible (first | exact hk | assumption | apply Apart.ite | apply State.raiseFault_apart | apply State.withdrawSome_apart | exact R.psqStatus_far _)
    | fail_if_no_progress with_reducible apply Apart.mk_upd
    | (intro _ _ _; try dsimp only)
    | intro _
    | split

theorem State.autoResume_apart {z s : State} (k : Nat) (hk : Apart z s) :
    Apart z (s.autoResume k) := by
  unfold State.autoResume
  try dsimp only
  repeat' first
    | with_reducible (first | exact hk | assumption | apply Apart.ite | apply State.setPst_apart | apply State.setFld_apart | exact R.psqStatus_far _)
    | fail_if_no_progress with_reducible apply Apart.mk_upd
    | (intro _ _ _; try dsimp only)
    | intro _
    | split

theorem State.asuErr_apart {z s : State} (d k x index code : Nat) (hk : Apart z s) :
    Apart z (s.asuErr d k x index code) := by
  unfold State.asuErr
  try dsimp only
  repeat' first
    | with_reducible (first | exact hk | assumption | apply Apart.ite | apply State.setFld_apart | apply State.setReg_apart | exact R.asuErr_far _)
    | fail_if_no_progress with_reducible apply Apart.mk_upd
    | (intro _ _ _; try dsimp only)
    | intro _
    | split

theorem State.kvpErr_apart {z s : State} (k x index code : Nat) (hk : Apart z s) :
    Apart z (s.kvpErr k x index code) := by
  unfold State.kvpErr
  try dsimp only
  repeat' first
    | with_reducible (first | exact hk | assumption | apply Apart.ite | apply State.setFld_apart | apply State.setReg_apart | exact R.kvpErr_far _)
    | fail_if_no_progress with_reducible apply Apart.mk_upd
    | (intro _ _ _; try dsimp only)
    | intro _
    | split

theorem State.rdxFault_apart {z s : State} (k code : Nat) (job : Option Nat) (hk : Apart z s) :
    Apart z (s.rdxFault k code job) := by
  unfold State.rdxFault
  try dsimp only
  repeat' first
    | with_reducible (first | exact hk | assumption | apply Apart.ite | apply State.setFld_apart | exact R.rdxErr_far)
    | fail_if_no_progress with_reducible apply Apart.mk_upd
    | (intro _ _ _; try dsimp only)
    | intro _
    | split

theorem State.raiseHead_apart {z s : State} (k x w code : Nat) (hk : Apart z s) :
    Apart z (s.raiseHead k x w code) := by
  unfold State.raiseHead
  try dsimp only
  repeat' first
    | with_reducible (first | exact hk | assumption | apply Apart.ite | apply State.asuErr_apart | apply State.rdxFault_apart | apply State.kvpErr_apart | apply State.raiseFault_apart | exact R.psqIndex_far _ _)
    | fail_if_no_progress with_reducible apply Apart.mk_upd
    | (intro _ _ _; try dsimp only)
    | intro _
    | split

theorem State.stepIndex_apart {z s : State} (k x pc : Nat) (hk : Apart z s) :
    Apart z (s.stepIndex k x pc) := by
  unfold State.stepIndex
  try dsimp only
  repeat' first
    | with_reducible (first | exact hk | assumption | apply Apart.ite | apply State.setFld_apart | apply State.setReg_apart | apply State.setQ_apart | exact R.psqAhead_far _ _ | exact R.psqPc_far _ _ | exact R.psqIndex_far _ _)
    | fail_if_no_progress with_reducible apply Apart.mk_upd
    | (intro _ _ _; try dsimp only)
    | intro _
    | split

theorem State.fetchLine_apart {z s : State} (k x : Nat) (hk : Apart z s) :
    Apart z (s.fetchLine k x) := by
  unfold State.fetchLine
  try dsimp only
  repeat' first
    | with_reducible (first | exact hk | assumption | apply Apart.ite | apply State.setQ_apart)
    | fail_if_no_progress with_reducible apply Apart.mk_upd
    | (intro _ _ _; try dsimp only)
    | intro _
    | split

theorem State.skipDone_apart {z s : State} (k x : Nat) (n : Nat) (hk : Apart z s) :
    Apart z (s.skipDone k x n) := by
  induction n generalizing s  with
  | zero => exact hk
  | succ n ih =>
    unfold State.skipDone
    try dsimp only
    repeat' first
      | with_reducible (first | exact hk | assumption | apply Apart.ite | apply State.fetchLine_apart | apply State.stepIndex_apart | apply ih)
      | fail_if_no_progress with_reducible apply Apart.mk_upd
      | (intro _ _ _; try dsimp only)
      | intro _
      | split

theorem State.advance_apart {z s : State} (k x pc : Nat) (hk : Apart z s) :
    Apart z (s.advance k x pc) := by
  unfold State.advance
  try dsimp only
  repeat' first
    | with_reducible (first | exact hk | assumption | apply Apart.ite | apply State.stepIndex_apart | apply State.skipDone_apart)
    | fail_if_no_progress with_reducible apply Apart.mk_upd
    | (intro _ _ _; try dsimp only)
    | intro _
    | split

theorem State.withHead_apart {z s : State} (k x : Nat) (opcs : List Nat) (body : Nat → State → State) (hbody : ∀ x0 u, Apart z u → Apart z (body x0 u)) (hk : Apart z s) :
    Apart z (s.withHead k x opcs body) := by
  unfold State.withHead
  try dsimp only
  repeat' first
    | with_reducible (first | exact hk | assumption | apply Apart.ite | apply State.raiseHead_apart | apply hbody)
    | fail_if_no_progress with_reducible apply Apart.mk_upd
    | (intro _ _ _; try dsimp only)
    | intro _
    | split

theorem State.postSet_apart {z s : State} (k x index v : Nat) (hk : Apart z s) :
    Apart z (s.postSet k x index v) := by
  unfold State.postSet
  try dsimp only
  repeat' first
    | with_reducible (first | exact hk | assumption | apply Apart.ite | apply State.giveTokens_apart | apply State.raiseFault_apart)
    | fail_if_no_progress with_reducible apply Apart.mk_upd
    | (intro _ _ _; try dsimp only)
    | intro _
    | split

theorem State.dispatchDone_apart {z s : State} (k x w pc : Nat) (hk : Apart z s) :
    Apart z (s.dispatchDone k x w pc) := by
  unfold State.dispatchDone
  try dsimp only
  repeat' first
    | with_reducible (first | exact hk | assumption | apply Apart.ite | apply State.takeTokens_apart | apply State.advance_apart | apply State.postSet_apart)
    | fail_if_no_progress with_reducible apply Apart.mk_upd
    | (intro _ _ _; try dsimp only)
    | intro _
    | split

theorem State.dispatchOut_apart {z s : State} (k x w unit : Nat) (issued : Bool) (desc chain : List Byte) (frame : Nat) (hk : Apart z s) :
    Apart z (s.dispatchOut k x w unit issued desc chain frame) := by
  unfold State.dispatchOut
  try dsimp only
  repeat' first
    | with_reducible (first | exact hk | assumption | apply Apart.ite | apply State.takeTokens_apart | apply State.setQ_apart | apply State.setOutst_apart | apply State.advance_apart)
    | fail_if_no_progress with_reducible apply Apart.mk_upd
    | (intro _ _ _; try dsimp only)
    | intro _
    | split

theorem State.complete_apart {z s : State} (k : Nat) (o : Outst) (hk : Apart z s) :
    Apart z (s.complete k o) := by
  unfold State.complete
  try dsimp only
  repeat' first
    | with_reducible (first | exact hk | assumption | apply Apart.ite | apply State.setOutst_apart | apply State.postSet_apart)
    | fail_if_no_progress with_reducible apply Apart.mk_upd
    | (intro _ _ _; try dsimp only)
    | intro _
    | split

theorem State.checkHead_apart {z s : State} (k x : Nat) (hk : Apart z s) :
    Apart z (s.checkHead k x) := by
  unfold State.checkHead
  try dsimp only
  repeat' first
    | with_reducible (first | exact hk | assumption | apply Apart.ite | apply State.raiseHead_apart)
    | fail_if_no_progress with_reducible apply Apart.mk_upd
    | (intro _ _ _; try dsimp only)
    | intro _
    | split

theorem State.programFetch_apart {z s : State} (k x : Nat) (hk : Apart z s) :
    Apart z (s.programFetch k x) := by
  unfold State.programFetch
  try dsimp only
  repeat' first
    | with_reducible (first | exact hk | assumption | apply Apart.ite | apply State.skipDone_apart | apply State.setFld_apart | apply State.raiseFault_apart | apply State.checkHead_apart | apply State.fetchLine_apart | exact R.psqPc_far _ _)
    | fail_if_no_progress with_reducible apply Apart.mk_upd
    | (intro _ _ _; try dsimp only)
    | intro _
    | split

theorem State.syncAsu_apart {z s : State} (d k : Nat) (hk : Apart z s) :
    Apart z (s.syncAsu d k) := by
  unfold State.syncAsu
  try dsimp only
  repeat' first
    | with_reducible (first | exact hk | assumption | apply Apart.ite | apply State.setFld_apart | apply State.forAll_apart | apply State.setReg_apart | exact R.asuSStatus_far _ _ | exact R.asuTWord_far _ _ _ | apply Apart.foldl | apply Apart.foldl_fst | apply Apart.foldl_snd)
    | fail_if_no_progress with_reducible apply Apart.mk_upd
    | (intro _ _ _; try dsimp only)
    | intro _
    | split

theorem State.setMb_apart {z s : State} (k t : Nat) (b : Bool) (hk : Apart z s) :
    Apart z (s.setMb k t b) := by
  unfold State.setMb
  try dsimp only
  repeat' first
    | with_reducible (first | exact hk | assumption | apply Apart.ite | apply State.setFld_apart | exact R.psqStatus_far _)
    | fail_if_no_progress with_reducible apply Apart.mk_upd
    | (intro _ _ _; try dsimp only)
    | intro _
    | split

theorem State.mbegin_apart {z s : State} (k : Nat) (hk : Apart z s) :
    Apart z (s.mbegin k) := by
  unfold State.mbegin
  try dsimp only
  repeat' first
    | with_reducible (first | exact hk | assumption | apply Apart.ite | apply State.withHead_apart | apply State.raiseFault_apart | apply State.forAll_apart | apply State.setAs_apart | apply State.syncAsu_apart | apply State.setMb_apart | apply State.dispatchDone_apart | exact R.psqStatus_far _)
    | fail_if_no_progress with_reducible apply Apart.mk_upd
    | (intro _ _ _; try dsimp only)
    | intro _
    | split

theorem State.mend_apart {z s : State} (k : Nat) (hk : Apart z s) :
    Apart z (s.mend k) := by
  unfold State.mend
  try dsimp only
  repeat' first
    | with_reducible (first | exact hk | assumption | apply Apart.ite | apply State.withHead_apart | apply State.raiseFault_apart | apply State.forAll_apart | apply State.asuErr_apart | apply State.setAs_apart | apply State.syncAsu_apart | apply State.setMb_apart | apply State.dispatchDone_apart | exact R.psqStatus_far _)
    | fail_if_no_progress with_reducible apply Apart.mk_upd
    | (intro _ _ _; try dsimp only)
    | intro _
    | split

theorem State.sealBegin_apart {z s : State} (k : Nat) (hk : Apart z s) :
    Apart z (s.sealBegin k) := by
  unfold State.sealBegin
  try dsimp only
  repeat' first
    | with_reducible (first | exact hk | assumption | apply Apart.ite | apply State.withHead_apart | apply State.raiseFault_apart | apply State.takeTokens_apart | apply State.setFld_apart | apply State.setQ_apart | exact R.psqStatus_far _)
    | fail_if_no_progress with_reducible apply Apart.mk_upd
    | (intro _ _ _; try dsimp only)
    | intro _
    | split

theorem State.latchStats_apart {z s : State} (k : Nat) (hk : Apart z s) :
    Apart z (s.latchStats k) := by
  unfold State.latchStats
  try dsimp only
  repeat' first
    | with_reducible (first | exact hk | assumption | apply Apart.ite | apply State.forAll_apart | apply State.setFld_apart | apply State.setReg_apart | exact R.psqStep_far _ | exact R.staMaxabs_far _ _ | exact R.staCount_far _ _ | exact R.staSum_far _ | exact R.mxeCntIssue_far _ | exact R.mxeCntStream_far _ | exact R.mxeCntLatch_far _ | exact R.mxeCntFeed_far _ | exact R.mxeCntDrain_far _ | exact R.mxeCntToken_far _ | exact R.mxeCntMacs_far _ | exact R.vecDvuCntRows_far _ | exact R.vecDvuCntWait_far _ | exact R.staEng_far _ _ | exact R.staPvu_far _ _ | exact R.vecPvuCntOps_far _ | exact R.staStep_far _ | apply Apart.foldl | apply Apart.foldl_fst | apply Apart.foldl_snd)
    | fail_if_no_progress with_reducible apply Apart.mk_upd
    | (intro _ _ _; try dsimp only)
    | intro _
    | split

theorem State.restartStats_apart {z s : State} (k : Nat) (hk : Apart z s) :
    Apart z (s.restartStats k) := by
  unfold State.restartStats
  try dsimp only
  repeat' first
    | with_reducible (first | exact hk | assumption | apply Apart.ite | apply State.forAll_apart | apply State.setSlot_apart | apply State.resetRegs_apart | apply State.count_apart | apply State.setReg_apart | exact R.mxeCntIssue_far _ | exact R.mxeCntStream_far _ | exact R.mxeCntLatch_far _ | exact R.mxeCntFeed_far _ | exact R.mxeCntDrain_far _ | exact R.mxeCntToken_far _ | exact R.mxeCntMacs_far _ | exact R.vecDvuCntRows_far _ | exact R.vecDvuCntWait_far _ | exact R.vecPvuCntOps_far _ | exact R.asuSCntSpill_far _ _ | exact R.asuSCntFetch_far _ _ | exact R.asuSCntWait_far _ _ | exact R.quySCntFold_far _ _ | exact R.quySCntUpd_far _ _ | exact R.quySCntClr_far _ _ | exact R.quySCntHold_far _ _ | exact R.quySCntResv_far _ _ | exact R.psqStep_far _ | exact R.psqSeed_far _ | exact R.psqSeedNext_far _ | apply Apart.foldl | apply Apart.foldl_fst | apply Apart.foldl_snd)
    | (intro a h
       simp only [List.mem_flatMap, List.mem_map, List.mem_append, List.mem_cons, List.not_mem_nil, or_false] at h
       (casesm* _ ∨ _, Exists _, _ ∧ _) <;> subst_vars <;> (first | exact R.mxeCntIssue_far _ | exact R.mxeCntStream_far _ | exact R.mxeCntLatch_far _ | exact R.mxeCntFeed_far _ | exact R.mxeCntDrain_far _ | exact R.mxeCntToken_far _ | exact R.mxeCntMacs_far _ | exact R.vecDvuCntRows_far _ | exact R.vecDvuCntWait_far _ | exact R.vecPvuCntOps_far _ | exact R.asuSCntSpill_far _ _ | exact R.asuSCntFetch_far _ _ | exact R.asuSCntWait_far _ _ | exact R.quySCntFold_far _ _ | exact R.quySCntUpd_far _ _ | exact R.quySCntClr_far _ _ | exact R.quySCntHold_far _ _ | exact R.quySCntResv_far _ _ | exact R.psqStep_far _ | exact R.psqSeed_far _ | exact R.psqSeedNext_far _))
    | fail_if_no_progress with_reducible apply Apart.mk_upd
    | (intro _ _ _; try dsimp only)
    | intro _
    | split

theorem State.sealLatch_apart {z s : State} (k : Nat) (handoff : State → Nat → Option (List (Nat × Slot)) → State) (hhandoff : ∀ u x1 x2, Apart z u → Apart z (handoff u x1 x2)) (hk : Apart z s) :
    Apart z (s.sealLatch k handoff) := by
  unfold State.sealLatch
  try dsimp only
  repeat' first
    | with_reducible (first | exact hk | assumption | apply Apart.ite | apply State.setQ_apart | apply State.setFld_apart | apply State.giveTokens_apart | apply State.raiseFault_apart | apply State.latchStats_apart | apply State.restartStats_apart | apply State.advance_apart | apply State.postSet_apart | apply State.stopNow_apart | exact R.psqStatus_far _ | exact R.psqStep_far _ | apply hhandoff)
    | fail_if_no_progress with_reducible apply Apart.mk_upd
    | (intro _ _ _; try dsimp only)
    | intro _
    | split

theorem State.refuse_apart {z s : State} (k : Nat) (hk : Apart z s) :
    Apart z (s.refuse k) := by
  unfold State.refuse
  try dsimp only
  repeat' first
    | with_reducible (first | exact hk | assumption | apply Apart.ite | apply State.setFld_apart | exact R.psqStatus_far _)
    | fail_if_no_progress with_reducible apply Apart.mk_upd
    | (intro _ _ _; try dsimp only)
    | intro _
    | split

theorem State.accept_apart {z s : State} (k : Nat) (hk : Apart z s) :
    Apart z (s.accept k) := by
  unfold State.accept
  try dsimp only
  repeat' first
    | with_reducible (first | exact hk | assumption | apply Apart.ite | apply State.setFld_apart | exact R.psqStatus_far _)
    | fail_if_no_progress with_reducible apply Apart.mk_upd
    | (intro _ _ _; try dsimp only)
    | intro _
    | split

theorem State.psqStart_apart {z s : State} (k : Nat) (hk : Apart z s) :
    Apart z (s.psqStart k) := by
  unfold State.psqStart
  try dsimp only
  repeat' first
    | with_reducible (first | exact hk | assumption | apply Apart.ite | apply State.accept_apart | apply State.forAll_apart | apply State.setReg_apart | apply State.setQ_apart | apply State.setPst_apart | apply State.stopNow_apart | apply State.refuse_apart | exact R.psqPc_far _ _ | exact R.psqIndex_far _ _ | exact R.psqAhead_far _ _ | exact R.psqSeed_far _ | exact R.psqSeedNext_far _)
    | fail_if_no_progress with_reducible apply Apart.mk_upd
    | (intro _ _ _; try dsimp only)
    | intro _
    | split

theorem State.psqStop_apart {z s : State} (k : Nat) (hk : Apart z s) :
    Apart z (s.psqStop k) := by
  unfold State.psqStop
  try dsimp only
  repeat' first
    | with_reducible (first | exact hk | assumption | apply Apart.ite | apply State.accept_apart | apply State.beginStop_apart | apply State.refuse_apart)
    | fail_if_no_progress with_reducible apply Apart.mk_upd
    | (intro _ _ _; try dsimp only)
    | intro _
    | split

theorem State.skipFaulting_apart {z s : State} (k skip x : Nat) (hk : Apart z s) :
    Apart z (s.skipFaulting k skip x) := by
  unfold State.skipFaulting
  try dsimp only
  repeat' first
    | with_reducible (first | exact hk | assumption | apply Apart.ite | apply State.setQ_apart | apply State.setReg_apart | exact R.psqFrec0_far _ _ | exact R.psqFrec1_far _ _ | exact R.psqAhead_far _ _)
    | fail_if_no_progress with_reducible apply Apart.mk_upd
    | (intro _ _ _; try dsimp only)
    | intro _
    | split

theorem State.psqResume_apart {z s : State} (k skip : Nat) (rebuild : State → Nat → State) (hrebuild : ∀ u x1, Apart z u → Apart z (rebuild u x1)) (hk : Apart z s) :
    Apart z (s.psqResume k skip rebuild) := by
  unfold State.psqResume
  try dsimp only
  repeat' first
    | with_reducible (first | exact hk | assumption | apply Apart.ite | apply State.accept_apart | apply State.forAll_apart | apply State.skipFaulting_apart | apply State.setReg_apart | apply State.setFld_apart | apply State.setQ_apart | apply State.autoResume_apart | apply State.refuse_apart | exact R.psqFrec0_far _ _ | exact R.psqFrec1_far _ _ | exact R.psqStatus_far _ | apply hrebuild)
    | fail_if_no_progress with_reducible apply Apart.mk_upd
    | (intro _ _ _; try dsimp only)
    | intro _
    | split

theorem State.psqRestore_apart {z s : State} (k : Nat) (hk : Apart z s) :
    Apart z (s.psqRestore k) := by
  unfold State.psqRestore
  try dsimp only
  repeat' first
    | with_reducible (first | exact hk | assumption | apply Apart.ite | apply State.accept_apart | apply State.setQ_apart | apply State.setReg_apart | apply State.setPst_apart | apply State.stopNow_apart | apply State.refuse_apart | exact R.psqSeed_far _ | exact R.psqSeedNext_far _)
    | fail_if_no_progress with_reducible apply Apart.mk_upd
    | (intro _ _ _; try dsimp only)
    | intro _
    | split

theorem State.stopComplete_apart {z s : State} (k : Nat) (hk : Apart z s) :
    Apart z (s.stopComplete k) := by
  unfold State.stopComplete
  try dsimp only
  repeat' first
    | with_reducible (first | exact hk | assumption | apply Apart.ite | apply State.writeCtx_apart | apply State.setPst_apart | apply State.setFld_apart | apply State.stakeEvent_apart | apply State.autoResume_apart | exact R.psqStatus_far _)
    | fail_if_no_progress with_reducible apply Apart.mk_upd
    | (intro _ _ _; try dsimp only)
    | intro _
    | split

theorem State.setLimit_apart {z s : State} (k x v : Nat) (hk : Apart z s) :
    Apart z (s.setLimit k x v).1 := by
  unfold State.setLimit
  try dsimp only
  repeat' first
    | with_reducible (first | exact hk | assumption | apply Apart.ite | apply State.setReg_apart | apply State.ctxThrough_apart | exact R.psqLimit_far _ _)
    | fail_if_no_progress with_reducible apply Apart.mk_upd
    | (intro _ _ _; try dsimp only)
    | intro _
    | split

end Sys2Proof.Machine
end

