-- ==== Sys2Proof/Laws/ApartAsu.lean ====
section
/-! SUPPORT. What the operations of Machine/Asu.lean leave to the Lockkeeper, the weave and the SEC (Laws/Apart.lean). -/

namespace Sys2Proof.Machine

set_option linter.unusedTactic false
set_option linter.unreachableTactic false
set_option linter.unusedSimpArgs false

theorem State.wrTrailer_apart {z s : State} (d k : Nat) (f : Frame) (hk : Apart z s) :
    Apart z (s.wrTrailer d k f) := by
  unfold State.wrTrailer
  try dsimp only
  repeat' first
    | with_reducible (first | exact hk | assumption | apply Apart.ite | apply State.wr_apart)
    | fail_if_no_progress with_reducible apply Apart.mk_upd
    | (intro _ _ _; try dsimp only)
    | intro _
    | split

theorem State.mapFrames_apart {z s : State} (d k : Nat) (g : Frame → Frame) (hk : Apart z s) :
    Apart z (s.mapFrames d k g) := by
  unfold State.mapFrames
  try dsimp only
  repeat' first
    | with_reducible (first | exact hk | assumption | apply Apart.ite | apply State.wrTrailer_apart | apply State.setAs_apart | apply State.syncAsu_apart | apply Apart.foldl | apply Apart.foldl_fst | apply Apart.foldl_snd)
    | fail_if_no_progress with_reducible apply Apart.mk_upd
    | (intro _ _ _; try dsimp only)
    | intro _
    | split

theorem State.asuRebuildDie_apart {z s : State} (k d : Nat) (hk : Apart z s) :
    Apart z (s.asuRebuildDie k d) := by
  unfold State.asuRebuildDie
  try dsimp only
  repeat' first
    | with_reducible (first | exact hk | assumption | apply Apart.ite | apply State.setAs_apart | apply State.syncAsu_apart | exact R.psqCtx_far _)
    | fail_if_no_progress with_reducible apply Apart.mk_upd
    | (intro _ _ _; try dsimp only)
    | intro _
    | split

theorem State.asuRebuild_apart {z s : State} (k : Nat) (hk : Apart z s) :
    Apart z (s.asuRebuild k) := by
  unfold State.asuRebuild
  try dsimp only
  repeat' first
    | with_reducible (first | exact hk | assumption | apply Apart.ite | apply State.forAll_apart | apply State.asuRebuildDie_apart | exact R.psqStatus_far _)
    | fail_if_no_progress with_reducible apply Apart.mk_upd
    | (intro _ _ _; try dsimp only)
    | intro _
    | split

theorem State.asFault_apart {z s : State} (d k x code : Nat) (hk : Apart z s) :
    Apart z (s.asFault d k x code) := by
  unfold State.asFault
  try dsimp only
  repeat' first
    | with_reducible (first | exact hk | assumption | apply Apart.ite | apply State.asuErr_apart | apply State.raiseFault_apart)
    | fail_if_no_progress with_reducible apply Apart.mk_upd
    | (intro _ _ _; try dsimp only)
    | intro _
    | split

theorem State.stackOp_apart {z s : State} (k x opc : Nat) (rsv : Nat → Bool) (body : Nat → Nat → State → State) (hbody : ∀ x0 x1 u, Apart z u → Apart z (body x0 x1 u)) (hk : Apart z s) :
    Apart z (s.stackOp k x opc rsv body) := by
  unfold State.stackOp
  try dsimp only
  repeat' first
    | with_reducible (first | exact hk | assumption | apply Apart.ite | apply State.withHead_apart | apply State.asFault_apart | apply hbody)
    | fail_if_no_progress with_reducible apply Apart.mk_upd
    | (intro _ _ _; try dsimp only)
    | intro _
    | split

theorem State.sopen_apart {z s : State} (k x : Nat) (hk : Apart z s) :
    Apart z (s.sopen k x) := by
  unfold State.sopen
  try dsimp only
  repeat' first
    | with_reducible (first | exact hk | assumption | apply Apart.ite | apply State.stackOp_apart | apply State.asFault_apart | apply State.setAs_apart | apply State.wrTrailer_apart | apply State.syncAsu_apart | apply State.dispatchDone_apart | exact R.psqStatus_far _)
    | fail_if_no_progress with_reducible apply Apart.mk_upd
    | (intro _ _ _; try dsimp only)
    | intro _
    | split

theorem State.sclose_apart {z s : State} (k x : Nat) (hk : Apart z s) :
    Apart z (s.sclose k x) := by
  unfold State.sclose
  try dsimp only
  repeat' first
    | with_reducible (first | exact hk | assumption | apply Apart.ite | apply State.stackOp_apart | apply State.asFault_apart | apply State.dispatchOut_apart | apply State.updOutst_apart)
    | fail_if_no_progress with_reducible apply Apart.mk_upd
    | (intro _ _ _; try dsimp only)
    | intro _
    | split

theorem State.scloseIssue_apart {z s : State} (k : Nat) (hk : Apart z s) :
    Apart z (s.scloseIssue k) := by
  unfold State.scloseIssue
  try dsimp only
  repeat' first
    | with_reducible (first | exact hk | assumption | apply Apart.ite | apply State.mapFrames_apart | apply State.complete_apart | apply Apart.foldl | apply Apart.foldl_fst | apply Apart.foldl_snd)
    | fail_if_no_progress with_reducible apply Apart.mk_upd
    | (intro _ _ _; try dsimp only)
    | intro _
    | split

theorem State.spop_apart {z s : State} (k : Nat) (hk : Apart z s) :
    Apart z (s.spop k) := by
  unfold State.spop
  try dsimp only
  repeat' first
    | with_reducible (first | exact hk | assumption | apply Apart.ite | apply State.stackOp_apart | apply State.asFault_apart | apply State.mapFrames_apart | apply State.setAs_apart | apply State.dispatchDone_apart | exact R.asuSPf_far _ _)
    | fail_if_no_progress with_reducible apply Apart.mk_upd
    | (intro _ _ _; try dsimp only)
    | intro _
    | split

theorem State.sdrop_apart {z s : State} (k : Nat) (hk : Apart z s) :
    Apart z (s.sdrop k) := by
  unfold State.sdrop
  try dsimp only
  repeat' first
    | with_reducible (first | exact hk | assumption | apply Apart.ite | apply State.stackOp_apart | apply State.asFault_apart | apply State.mapFrames_apart | apply State.dispatchOut_apart)
    | fail_if_no_progress with_reducible apply Apart.mk_upd
    | (intro _ _ _; try dsimp only)
    | intro _
    | split

theorem State.sbind_apart {z s : State} (k : Nat) (hk : Apart z s) :
    Apart z (s.sbind k) := by
  unfold State.sbind
  try dsimp only
  repeat' first
    | with_reducible (first | exact hk | assumption | apply Apart.ite | apply State.stackOp_apart | apply State.asFault_apart | apply State.count_apart | apply State.setAs_apart | apply State.mapFrames_apart | apply State.wr_apart | apply State.dispatchDone_apart | exact R.asuSCntSpill_far _ _)
    | fail_if_no_progress with_reducible apply Apart.mk_upd
    | (intro _ _ _; try dsimp only)
    | intro _
    | split

theorem State.copySeg_apart {z s : State} (d k : Nat) (p : Nat × Nat) (a : Nat) (hk : Apart z s) :
    Apart z (s.copySeg d k p a) := by
  unfold State.copySeg
  try dsimp only
  repeat' first
    | with_reducible (first | exact hk | assumption | apply Apart.ite | apply State.wrPoison_apart | apply State.wr_apart)
    | fail_if_no_progress with_reducible apply Apart.mk_upd
    | (intro _ _ _; try dsimp only)
    | intro _
    | split

theorem State.evict_apart {z s : State} (d k : Nat) (p : Nat × Nat) (hk : Apart z s) :
    Apart z (s.evict d k p) := by
  unfold State.evict
  try dsimp only
  repeat' first
    | with_reducible (first | exact hk | assumption | apply Apart.ite | apply State.count_apart | apply State.setAs_apart | apply State.copySeg_apart | exact R.asuSCntSpill_far _ _ | exact R.asuSNear_far _ _)
    | fail_if_no_progress with_reducible apply Apart.mk_upd
    | (intro _ _ _; try dsimp only)
    | intro _
    | split

theorem State.poolErrs_apart {z s : State} (d k home : Nat) (x : Errs) (hk : Apart z s) :
    Apart z (s.poolErrs d k home x) := by
  unfold State.poolErrs
  try dsimp only
  repeat' first
    | with_reducible (first | exact hk | assumption | apply Apart.ite | apply State.spadEcc_apart | apply State.poisonRange_apart | apply Apart.foldl | apply Apart.foldl_fst | apply Apart.foldl_snd)
    | fail_if_no_progress with_reducible apply Apart.mk_upd
    | (intro _ _ _; try dsimp only)
    | intro _
    | split

theorem State.evictFrame_apart {z s : State} (d k : Nat) (f : Frame) (x : Errs) (hk : Apart z s) :
    Apart z (s.evictFrame d k f x) := by
  unfold State.evictFrame
  try dsimp only
  repeat' first
    | with_reducible (first | exact hk | assumption | apply Apart.ite | apply State.poolErrs_apart | apply State.setAs_apart | apply State.evict_apart | apply Apart.foldl | apply Apart.foldl_fst | apply Apart.foldl_snd)
    | fail_if_no_progress with_reducible apply Apart.mk_upd
    | (intro _ _ _; try dsimp only)
    | intro _
    | split

theorem State.segmentPush_apart {z s : State} (d k : Nat) (x : Errs) (hk : Apart z s) :
    Apart z (s.segmentPush d k x) := by
  unfold State.segmentPush
  try dsimp only
  repeat' first
    | with_reducible (first | exact hk | assumption | apply Apart.ite | apply State.setAs_apart | apply State.count_apart | apply State.evictFrame_apart | exact R.asuSCntSpill_far _ _)
    | fail_if_no_progress with_reducible apply Apart.mk_upd
    | (intro _ _ _; try dsimp only)
    | intro _
    | split

theorem State.segmentDone_apart {z s : State} (d k : Nat) (x : Errs) (hk : Apart z s) :
    Apart z (s.segmentDone d k x) := by
  unfold State.segmentDone
  try dsimp only
  repeat' first
    | with_reducible (first | exact hk | assumption | apply Apart.ite | apply State.setAs_apart | apply State.readErrs_apart | apply State.count_apart | apply State.evictFrame_apart | exact R.asuSCntFetch_far _ _)
    | fail_if_no_progress with_reducible apply Apart.mk_upd
    | (intro _ _ _; try dsimp only)
    | intro _
    | split

theorem State.asuFlush_apart {z s : State} (k : Nat) (hk : Apart z s) :
    Apart z (s.asuFlush k) := by
  unfold State.asuFlush
  try dsimp only
  repeat' first
    | with_reducible (first | exact hk | assumption | apply Apart.ite | apply State.forAll_apart | apply State.setAs_apart | apply State.evict_apart | apply State.count_apart | exact R.asuSCntSpill_far _ _ | apply Apart.foldl | apply Apart.foldl_fst | apply Apart.foldl_snd)
    | fail_if_no_progress with_reducible apply Apart.mk_upd
    | (intro _ _ _; try dsimp only)
    | intro _
    | split

theorem State.asuClear_apart {z s : State} (k : Nat) (hk : Apart z s) :
    Apart z (s.asuClear k) := by
  unfold State.asuClear
  try dsimp only
  repeat' first
    | with_reducible (first | exact hk | assumption | apply Apart.ite | apply State.forAll_apart | apply State.setAs_apart | apply State.syncAsu_apart)
    | fail_if_no_progress with_reducible apply Apart.mk_upd
    | (intro _ _ _; try dsimp only)
    | intro _
    | split

end Sys2Proof.Machine
end

