-- ==== Sys2Proof/Laws/ApartPsqc.lean ====
section
/-! SUPPORT. What the operations of Machine/Psqc.lean leave to the Lockkeeper, the weave and the SEC (Laws/Apart.lean). -/

namespace Sys2Proof.Machine

set_option linter.unusedTactic false
set_option linter.unreachableTactic false
set_option linter.unusedSimpArgs false

theorem State.psqDo_apart {z s : State} (k cmd skip : Nat) (hk : Apart z s) :
    Apart z (s.psqDo k cmd skip) := by
  unfold State.psqDo
  try dsimp only
  repeat' first
    | with_reducible (first | exact hk | assumption | apply Apart.ite | apply State.psqStart_apart | apply State.psqStop_apart | apply State.psqResume_apart | apply State.asuRebuild_apart | apply State.psqRestore_apart)
    | fail_if_no_progress with_reducible apply Apart.mk_upd
    | (intro _ _ _; try dsimp only)
    | intro _
    | split

theorem State.limitWrite_apart {z s : State} (k x v : Nat) (hk : Apart z s) :
    Apart z (s.limitWrite k x v) := by
  unfold State.limitWrite
  try dsimp only
  repeat' first
    | with_reducible (first | exact hk | assumption | apply Apart.ite | apply State.setLimit_apart | apply State.answer_apart)
    | fail_if_no_progress with_reducible apply Apart.mk_upd
    | (intro _ _ _; try dsimp only)
    | intro _
    | split

end Sys2Proof.Machine
end

