-- ==== Sys2Proof/Laws/ApartDvu.lean ====
section
/-! SUPPORT. What the operations of Machine/Dvu.lean leave to the Lockkeeper, the weave and the SEC (Laws/Apart.lean). -/

namespace Sys2Proof.Machine

set_option linter.unusedTactic false
set_option linter.unreachableTactic false
set_option linter.unusedSimpArgs false

theorem State.setPvReg_apart {z s : State} (v r : Nat) (l : List Nat) (hk : Apart z s) :
    Apart z (s.setPvReg v r l) := by
  unfold State.setPvReg
  try dsimp only
  repeat' first
    | with_reducible (first | exact hk | assumption | apply Apart.ite | apply State.setPv_apart | apply State.wr_apart | exact R.vecPvuBack_far _)
    | fail_if_no_progress with_reducible apply Apart.mk_upd
    | (intro _ _ _; try dsimp only)
    | intro _
    | split

theorem State.commitPv_apart {z s : State} (l : List (Nat × Nat × Nat × Nat)) (hk : Apart z s) :
    Apart z (s.commitPv l) := by
  unfold State.commitPv
  try dsimp only
  repeat' first
    | with_reducible (first | exact hk | assumption | apply Apart.ite | apply State.setPvReg_apart | apply Apart.foldl | apply Apart.foldl_fst | apply Apart.foldl_snd)
    | fail_if_no_progress with_reducible apply Apart.mk_upd
    | (intro _ _ _; try dsimp only)
    | intro _
    | split

theorem State.dvuErr_apart {z s : State} (e k x index code : Nat) (hk : Apart z s) :
    Apart z (s.dvuErr e k x index code) := by
  unfold State.dvuErr
  try dsimp only
  repeat' first
    | with_reducible (first | exact hk | assumption | apply Apart.ite | apply State.setFld_apart | apply State.setReg_apart | apply State.asuErr_apart | exact R.vecDvuErr_far _)
    | fail_if_no_progress with_reducible apply Apart.mk_upd
    | (intro _ _ _; try dsimp only)
    | intro _
    | split

theorem State.writeDst_apart {z s : State} (k die : Nat) (o : Outst) (d : StreamD) (r idx : Nat) (xs : List Nat) (run : ChainRun) (hk : Apart z s) :
    Apart z (s.writeDst k die o d r idx xs run).1 := by
  unfold State.writeDst
  try dsimp only
  repeat' first
    | with_reducible (first | exact hk | assumption | apply Apart.ite | apply State.wr_apart)
    | fail_if_no_progress with_reducible apply Apart.mk_upd
    | (intro _ _ _; try dsimp only)
    | intro _
    | split

theorem State.sinkRow_apart {z s : State} (k die : Nat) (o : Outst) (c : ChainD) (m : Nat) (ys xs : List Nat) (run : ChainRun) (hk : Apart z s) :
    Apart z (s.sinkRow k die o c m ys xs run).1 := by
  unfold State.sinkRow
  try dsimp only
  repeat' first
    | with_reducible (first | exact hk | assumption | apply Apart.ite | apply State.writeDst_apart)
    | fail_if_no_progress with_reducible apply Apart.mk_upd
    | (intro _ _ _; try dsimp only)
    | intro _
    | split

theorem State.runRow_apart {z s : State} (k e : Nat) (o : Outst) (c : ChainD) (m : Nat) (xs : List Nat) (run : ChainRun) (hk : Apart z s) :
    Apart z (s.runRow k e o c m xs run).1 := by
  unfold State.runRow
  try dsimp only
  repeat' first
    | with_reducible (first | exact hk | assumption | apply Apart.ite | apply State.sinkRow_apart | apply Apart.foldl | apply Apart.foldl_fst | apply Apart.foldl_snd)
    | fail_if_no_progress with_reducible apply Apart.mk_upd
    | (intro _ _ _; try dsimp only)
    | intro _
    | split

theorem State.rawRow_apart {z s : State} (o : Outst) (c : ChainD) (m : Nat) (run : ChainRun) (hk : Apart z s) :
    Apart z (s.rawRow o c m run).1 := by
  unfold State.rawRow
  try dsimp only
  repeat' first
    | with_reducible (first | exact hk | assumption | apply Apart.ite | apply State.wrRow_apart)
    | fail_if_no_progress with_reducible apply Apart.mk_upd
    | (intro _ _ _; try dsimp only)
    | intro _
    | split

theorem State.commitPush_apart {z s : State} (die k : Nat) (f : Frame) (bad : Bool) (p : Nat × List Byte × Nat) (hk : Apart z s) :
    Apart z (s.commitPush die k f bad p) := by
  unfold State.commitPush
  try dsimp only
  repeat' first
    | with_reducible (first | exact hk | assumption | apply Apart.ite | apply State.wrPoison_apart | apply State.wr_apart | apply State.wrN_apart | apply State.setAs_apart)
    | fail_if_no_progress with_reducible apply Apart.mk_upd
    | (intro _ _ _; try dsimp only)
    | intro _
    | split

theorem State.poisonOutputs_apart {z s : State} (drain : Option (Nat × Nat)) (c : ChainD) (run : ChainRun) (hk : Apart z s) :
    Apart z (s.poisonOutputs drain c run) := by
  unfold State.poisonOutputs
  try dsimp only
  repeat' first
    | with_reducible (first | exact hk | assumption | apply Apart.ite | apply State.wrPoison_apart | apply State.forAll_apart | apply State.count_apart)
    | fail_if_no_progress with_reducible apply Apart.mk_upd
    | (intro _ _ _; try dsimp only)
    | intro _
    | split

theorem State.commitChain_apart {z s : State} (k e : Nat) (o : Outst) (c : ChainD) (drain : Option (Nat × Nat)) (hk : Apart z s) :
    Apart z (s.commitChain k e o c drain) := by
  unfold State.commitChain
  try dsimp only
  repeat' first
    | with_reducible (first | exact hk | assumption | apply Apart.ite | apply State.writeDst_apart | apply State.commitPush_apart | apply State.wr_apart | apply State.wrN_apart | apply State.count_apart | apply State.poisonOutputs_apart | apply State.commitPv_apart | apply State.tap_apart | apply State.addSat_apart | exact R.vecDvuEvt_far _ | apply Apart.foldl | apply Apart.foldl_fst | apply Apart.foldl_snd)
    | fail_if_no_progress with_reducible apply Apart.mk_upd
    | (intro _ _ _; try dsimp only)
    | intro _
    | split

theorem State.dvuAfter_apart {z s : State} (k e : Nat) (o : Outst) (code : Nat) (hk : Apart z s) :
    Apart z (s.dvuAfter k e o code) := by
  unfold State.dvuAfter
  try dsimp only
  repeat' first
    | with_reducible (first | exact hk | assumption | apply Apart.ite | apply State.dvuErr_apart | apply State.raiseFault_apart)
    | fail_if_no_progress with_reducible apply Apart.mk_upd
    | (intro _ _ _; try dsimp only)
    | intro _
    | split

theorem State.rowErrs_apart {z s : State} (k e : Nat) (o : Outst) (x : Errs) (hk : Apart z s) :
    Apart z (s.rowErrs k e o x) := by
  unfold State.rowErrs
  try dsimp only
  repeat' first
    | with_reducible (first | exact hk | assumption | apply Apart.ite | apply State.readErrs_apart | apply State.poolErrs_apart | apply State.addSat_apart | exact R.mxeEcc_far _ | exact R.vecDvuEvt_far _ | exact R.vecPvuErr_far _)
    | fail_if_no_progress with_reducible apply Apart.mk_upd
    | (intro _ _ _; try dsimp only)
    | intro _
    | split

theorem State.oneRow_apart {z s : State} (k e : Nat) (o : Outst) (x : Errs) (hk : Apart z s) :
    Apart z (s.oneRow k e o x) := by
  unfold State.oneRow
  try dsimp only
  repeat' first
    | with_reducible (first | exact hk | assumption | apply Apart.ite | apply State.rowErrs_apart | apply State.count_apart | apply State.rawRow_apart | apply State.runRow_apart | apply State.updOutst_apart | exact R.asuSCntFetch_far _ _ | exact R.vecDvuCntRows_far _)
    | fail_if_no_progress with_reducible apply Apart.mk_upd
    | (intro _ _ _; try dsimp only)
    | intro _
    | split

theorem State.vxRow_apart {z s : State} (k e : Nat) (x : Errs) (hk : Apart z s) :
    Apart z (s.vxRow k e x) := by
  unfold State.vxRow
  try dsimp only
  repeat' first
    | with_reducible (first | exact hk | assumption | apply Apart.ite | apply State.oneRow_apart)
    | fail_if_no_progress with_reducible apply Apart.mk_upd
    | (intro _ _ _; try dsimp only)
    | intro _
    | split

theorem State.dvuRow_apart {z s : State} (e wait away : Nat) (x : Errs) (hk : Apart z s) :
    Apart z (s.dvuRow e wait away x) := by
  unfold State.dvuRow
  try dsimp only
  repeat' first
    | with_reducible (first | exact hk | assumption | apply Apart.ite | apply State.vxRow_apart | apply State.count_apart | apply State.oneRow_apart | exact R.vecDvuCntWait_far _ | exact R.asuSCntWait_far _ _)
    | fail_if_no_progress with_reducible apply Apart.mk_upd
    | (intro _ _ _; try dsimp only)
    | intro _
    | split

theorem State.vx_apart {z s : State} (k x : Nat) (hk : Apart z s) :
    Apart z (s.vx k x) := by
  unfold State.vx
  try dsimp only
  repeat' first
    | with_reducible (first | exact hk | assumption | apply Apart.ite | apply State.withHead_apart | apply State.dvuErr_apart | apply State.raiseFault_apart | apply State.dispatchOut_apart | apply State.updOutst_apart | apply State.syncDvu_apart)
    | fail_if_no_progress with_reducible apply Apart.mk_upd
    | (intro _ _ _; try dsimp only)
    | intro _
    | split

theorem State.vxComplete_apart {z s : State} (e : Nat) (hk : Apart z s) :
    Apart z (s.vxComplete e) := by
  unfold State.vxComplete
  try dsimp only
  repeat' first
    | with_reducible (first | exact hk | assumption | apply Apart.ite | apply State.commitChain_apart | apply State.complete_apart | apply State.dvuAfter_apart | apply State.syncDvu_apart)
    | fail_if_no_progress with_reducible apply Apart.mk_upd
    | (intro _ _ _; try dsimp only)
    | intro _
    | split

end Sys2Proof.Machine
end

