-- ==== Sys2Proof/Laws/ApartMxe.lean ====
section
/-! SUPPORT. What the operations of Machine/Mxe.lean leave to the Lockkeeper, the weave and the SEC (Laws/Apart.lean). -/

namespace Sys2Proof.Machine

set_option linter.unusedTactic false
set_option linter.unreachableTactic false
set_option linter.unusedSimpArgs false

theorem State.mxeErr_apart {z s : State} (e x index code : Nat) (hk : Apart z s) :
    Apart z (s.mxeErr e x index code) := by
  unfold State.mxeErr
  try dsimp only
  repeat' first
    | with_reducible (first | exact hk | assumption | apply Apart.ite | apply State.setFld_apart | apply State.setReg_apart | exact R.mxeErr_far _)
    | fail_if_no_progress with_reducible apply Apart.mk_upd
    | (intro _ _ _; try dsimp only)
    | intro _
    | split

theorem State.mxFault_apart {z s : State} (k x e code : Nat) (hk : Apart z s) :
    Apart z (s.mxFault k x e code) := by
  unfold State.mxFault
  try dsimp only
  repeat' first
    | with_reducible (first | exact hk | assumption | apply Apart.ite | apply State.mxeErr_apart | apply State.dvuErr_apart | apply State.raiseFault_apart)
    | fail_if_no_progress with_reducible apply Apart.mk_upd
    | (intro _ _ _; try dsimp only)
    | intro _
    | split

theorem State.mxDispatch_apart {z s : State} (k x opc : Nat) (hk : Apart z s) :
    Apart z (s.mxDispatch k x opc) := by
  unfold State.mxDispatch
  try dsimp only
  repeat' first
    | with_reducible (first | exact hk | assumption | apply Apart.ite | apply State.withHead_apart | apply State.mxFault_apart | apply State.dispatchOut_apart | apply State.updOutst_apart | apply State.syncMxe_apart | apply State.syncDvu_apart)
    | fail_if_no_progress with_reducible apply Apart.mk_upd
    | (intro _ _ _; try dsimp only)
    | intro _
    | split

theorem State.mxErrs_apart {z s : State} (e : Nat) (w : MxW) (d : MxD) (x : Errs) (hk : Apart z s) :
    Apart z (s.mxErrs e w d x) := by
  unfold State.mxErrs
  try dsimp only
  repeat' first
    | with_reducible (first | exact hk | assumption | apply Apart.ite | apply State.readErrs_apart | apply State.addSat_apart | exact R.mxeEcc_far _)
    | fail_if_no_progress with_reducible apply Apart.mk_upd
    | (intro _ _ _; try dsimp only)
    | intro _
    | split

theorem State.mxRun_apart {z s : State} (k e : Nat) (o : Outst) (latch feed drain token : Nat) (x : Errs) (hk : Apart z s) :
    Apart z (s.mxRun k e o latch feed drain token x) := by
  unfold State.mxRun
  try dsimp only
  repeat' first
    | with_reducible (first | exact hk | assumption | apply Apart.ite | apply State.mxErrs_apart | apply State.updOutst_apart | apply State.count_apart | apply State.setReg_apart | apply State.syncMxe_apart | exact R.mxeCntIssue_far _ | exact R.mxeCntStream_far _ | exact R.mxeCntLatch_far _ | exact R.mxeCntFeed_far _ | exact R.mxeCntDrain_far _ | exact R.mxeCntToken_far _ | exact R.mxeCntMacs_far _)
    | fail_if_no_progress with_reducible apply Apart.mk_upd
    | (intro _ _ _; try dsimp only)
    | intro _
    | split

theorem State.mxIssue_apart {z s : State} (e latch feed drain token : Nat) (released : Bool) (x : Errs) (hk : Apart z s) :
    Apart z (s.mxIssue e latch feed drain token released x) := by
  unfold State.mxIssue
  try dsimp only
  repeat' first
    | with_reducible (first | exact hk | assumption | apply Apart.ite | apply State.mxRun_apart)
    | fail_if_no_progress with_reducible apply Apart.mk_upd
    | (intro _ _ _; try dsimp only)
    | intro _
    | split

theorem State.poisonSlices_apart {z s : State} (k n : Nat) (hk : Apart z s) :
    Apart z (s.poisonSlices k n) := by
  unfold State.poisonSlices
  try dsimp only
  repeat' first
    | with_reducible (first | exact hk | assumption | apply Apart.ite)
    | fail_if_no_progress with_reducible apply Apart.mk_upd
    | (intro _ _ _; try dsimp only)
    | intro _
    | split

theorem State.mxComplete_apart {z s : State} (e : Nat) (hk : Apart z s) :
    Apart z (s.mxComplete e) := by
  unfold State.mxComplete
  try dsimp only
  repeat' first
    | with_reducible (first | exact hk | assumption | apply Apart.ite | apply State.commitChain_apart | apply State.poisonSlices_apart | apply State.forAll_apart | apply State.setQu_apart | apply State.complete_apart | apply State.mxeErr_apart | apply State.raiseFault_apart | apply State.dvuAfter_apart | apply State.syncMxe_apart | apply State.syncDvu_apart)
    | fail_if_no_progress with_reducible apply Apart.mk_upd
    | (intro _ _ _; try dsimp only)
    | intro _
    | split

end Sys2Proof.Machine
end

