-- ==== Sys2Proof/Laws/ApartQuay.lean ====
section
/-! SUPPORT. What the operations of Machine/Quay.lean leave to the Lockkeeper, the weave and the SEC (Laws/Apart.lean). -/

namespace Sys2Proof.Machine

set_option linter.unusedTactic false
set_option linter.unreachableTactic false
set_option linter.unusedSimpArgs false

theorem State.setJob_apart {z s : State} (j : Nat) (v : Job) (hk : Apart z s) :
    Apart z (s.setJob j v) := by
  unfold State.setJob
  try dsimp only
  repeat' first
    | with_reducible (first | exact hk | assumption | apply Apart.ite)
    | fail_if_no_progress with_reducible apply Apart.mk_upd
    | (intro _ _ _; try dsimp only)
    | intro _
    | split

theorem State.wrMoments_apart {z s : State} (m12 : Bool) (a i rnd : Nat) (key : SrKey) (idx : Nat) (old new : List Nat) (hk : Apart z s) :
    Apart z (s.wrMoments m12 a i rnd key idx old new).1 := by
  unfold State.wrMoments
  try dsimp only
  repeat' first
    | with_reducible (first | exact hk | assumption | apply Apart.ite | apply State.wr_apart)
    | fail_if_no_progress with_reducible apply Apart.mk_upd
    | (intro _ _ _; try dsimp only)
    | intro _
    | split

theorem State.wrCopy_apart {z s : State} (d : QuayD) (n c : Nat) (cs : List Conv) (sc : List Nat) (bad : Bool) (hk : Apart z s) :
    Apart z (s.wrCopy d n c cs sc bad) := by
  unfold State.wrCopy
  try dsimp only
  repeat' first
    | with_reducible (first | exact hk | assumption | apply Apart.ite | apply State.wrPoison_apart | apply State.wr_apart)
    | fail_if_no_progress with_reducible apply Apart.mk_upd
    | (intro _ _ _; try dsimp only)
    | intro _
    | split

theorem State.quayBadAddr_apart {z s : State} (a : Nat) (hk : Apart z s) :
    Apart z (s.quayBadAddr a) := by
  unfold State.quayBadAddr
  try dsimp only
  repeat' first
    | with_reducible (first | exact hk | assumption | apply Apart.ite | apply State.setFld_apart | exact R.quyPoisonAddr_far _)
    | fail_if_no_progress with_reducible apply Apart.mk_upd
    | (intro _ _ _; try dsimp only)
    | intro _
    | split

theorem State.quayPoison_apart {z s : State} (a k x index job : Nat) (jv : Bool) (hk : Apart z s) :
    Apart z (s.quayPoison a k x index job jv) := by
  unfold State.quayPoison
  try dsimp only
  repeat' first
    | with_reducible (first | exact hk | assumption | apply Apart.ite | apply State.setFld_apart | apply State.setReg_apart | apply State.quayBadAddr_apart | exact R.quyErr_far _)
    | fail_if_no_progress with_reducible apply Apart.mk_upd
    | (intro _ _ _; try dsimp only)
    | intro _
    | split

theorem State.quayErrs_apart {z s : State} (q : Nat) (spans : List (Nat × Nat)) (x : Errs) (buf unc : Nat) (hk : Apart z s) :
    Apart z (s.quayErrs q spans x buf unc) := by
  unfold State.quayErrs
  try dsimp only
  repeat' first
    | with_reducible (first | exact hk | assumption | apply Apart.ite | apply State.readErrs_apart | apply State.addSat_apart | exact R.quyEcc_far _)
    | fail_if_no_progress with_reducible apply Apart.mk_upd
    | (intro _ _ _; try dsimp only)
    | intro _
    | split

theorem State.updateGroup_apart {z s : State} (k : Nat) (d : QuayD) (ws : List Nat) (n c : Nat) (gs : List Nat) (bad taps : Bool) (hk : Apart z s) :
    Apart z (s.updateGroup k d ws n c gs bad taps).1 := by
  unfold State.updateGroup
  try dsimp only
  repeat' first
    | with_reducible (first | exact hk | assumption | apply Apart.ite | apply State.count_apart | apply State.wrPoison_apart | apply State.wrCopy_apart | apply State.wr_apart | apply State.wrMoments_apart | apply State.tap_apart | exact R.quySCntUpd_far _ _ | apply Apart.foldl | apply Apart.foldl_fst | apply Apart.foldl_snd)
    | fail_if_no_progress with_reducible apply Apart.mk_upd
    | (intro _ _ _; try dsimp only)
    | intro _
    | split

theorem State.emitGroup_apart {z s : State} (k : Nat) (d : QuayD) (n c : Nat) (hk : Apart z s) :
    Apart z (s.emitGroup k d n c).1 := by
  unfold State.emitGroup
  try dsimp only
  repeat' first
    | with_reducible (first | exact hk | assumption | apply Apart.ite | apply State.wrCopy_apart | apply State.forAll_apart | apply State.wrPoison_apart)
    | fail_if_no_progress with_reducible apply Apart.mk_upd
    | (intro _ _ _; try dsimp only)
    | intro _
    | split

theorem State.clearGroup_apart {z s : State} (k a : Nat) (hk : Apart z s) :
    Apart z (s.clearGroup k a) := by
  unfold State.clearGroup
  try dsimp only
  repeat' first
    | with_reducible (first | exact hk | assumption | apply Apart.ite | apply State.wr_apart | apply State.count_apart | exact R.quySCntClr_far _ _)
    | fail_if_no_progress with_reducible apply Apart.mk_upd
    | (intro _ _ _; try dsimp only)
    | intro _
    | split

theorem State.syncQuay_apart {z s : State} (q : Nat) (hk : Apart z s) :
    Apart z (s.syncQuay q) := by
  unfold State.syncQuay
  try dsimp only
  repeat' first
    | with_reducible (first | exact hk | assumption | apply Apart.ite | apply State.forAll_apart | apply State.setFld_apart | exact R.quyStatus_far _)
    | fail_if_no_progress with_reducible apply Apart.mk_upd
    | (intro _ _ _; try dsimp only)
    | intro _
    | split

theorem State.quayReserve_apart {z s : State} (e wait : Nat) (hk : Apart z s) :
    Apart z (s.quayReserve e wait) := by
  unfold State.quayReserve
  try dsimp only
  repeat' first
    | with_reducible (first | exact hk | assumption | apply Apart.ite | apply State.faultOut_apart | apply State.count_apart | apply State.setQu_apart | apply State.syncQuay_apart | exact R.mxeCntDrain_far _)
    | fail_if_no_progress with_reducible apply Apart.mk_upd
    | (intro _ _ _; try dsimp only)
    | intro _
    | split

theorem State.quayGrant_apart {z s : State} (q wait : Nat) (hk : Apart z s) :
    Apart z (s.quayGrant q wait) := by
  unfold State.quayGrant
  try dsimp only
  repeat' first
    | with_reducible (first | exact hk | assumption | apply Apart.ite | apply State.setQu_apart | apply State.count_apart | apply State.syncQuay_apart | exact R.quySCntResv_far _ _)
    | fail_if_no_progress with_reducible apply Apart.mk_upd
    | (intro _ _ _; try dsimp only)
    | intro _
    | split

theorem State.sliceArrive_apart {z s : State} (e : Nat) (hk : Apart z s) :
    Apart z (s.sliceArrive e) := by
  unfold State.sliceArrive
  try dsimp only
  repeat' first
    | with_reducible (first | exact hk | assumption | apply Apart.ite | apply State.setQu_apart | apply State.updOutst_apart)
    | fail_if_no_progress with_reducible apply Apart.mk_upd
    | (intro _ _ _; try dsimp only)
    | intro _
    | split

theorem State.foldSlice_apart {z s : State} (v : Slice) (hk : Apart z s) :
    Apart z (s.foldSlice v) := by
  unfold State.foldSlice
  try dsimp only
  repeat' first
    | with_reducible (first | exact hk | assumption | apply Apart.ite | apply State.count_apart | apply State.wrPoison_apart | apply State.quayBadAddr_apart | apply State.wr_apart | exact R.quySCntFold_far _ _)
    | fail_if_no_progress with_reducible apply Apart.mk_upd
    | (intro _ _ _; try dsimp only)
    | intro _
    | split

theorem State.releaseResv_apart {z s : State} (k n q : Nat) (hk : Apart z s) :
    Apart z (s.releaseResv k n q) := by
  unfold State.releaseResv
  try dsimp only
  repeat' first
    | with_reducible (first | exact hk | assumption | apply Apart.ite | apply State.forAll_apart | apply State.setQu_apart | apply State.syncQuay_apart)
    | fail_if_no_progress with_reducible apply Apart.mk_upd
    | (intro _ _ _; try dsimp only)
    | intro _
    | split

theorem State.unstage_apart {z s : State} (q : Nat) (l : List Slice) (hk : Apart z s) :
    Apart z (s.unstage q l) := by
  unfold State.unstage
  try dsimp only
  repeat' first
    | with_reducible (first | exact hk | assumption | apply Apart.ite | apply State.setQu_apart)
    | fail_if_no_progress with_reducible apply Apart.mk_upd
    | (intro _ _ _; try dsimp only)
    | intro _
    | split

theorem State.countHold_apart {z s : State} (q n : Nat) (hk : Apart z s) :
    Apart z (s.countHold q n) := by
  unfold State.countHold
  try dsimp only
  repeat' first
    | with_reducible (first | exact hk | assumption | apply Apart.ite | apply State.count_apart | exact R.quySCntHold_far _ _)
    | fail_if_no_progress with_reducible apply Apart.mk_upd
    | (intro _ _ _; try dsimp only)
    | intro _
    | split

theorem State.quayFold_apart {z s : State} (q held : Nat) (x : Errs) (hk : Apart z s) :
    Apart z (s.quayFold q held x) := by
  unfold State.quayFold
  try dsimp only
  repeat' first
    | with_reducible (first | exact hk | assumption | apply Apart.ite | apply State.countHold_apart | apply State.quayErrs_apart | apply State.unstage_apart | apply State.setQu_apart | apply State.foldSlice_apart | apply State.releaseResv_apart | apply Apart.foldl | apply Apart.foldl_fst | apply Apart.foldl_snd)
    | fail_if_no_progress with_reducible apply Apart.mk_upd
    | (intro _ _ _; try dsimp only)
    | intro _
    | split

theorem State.quayOp_apart {z s : State} (k opc : Nat) (rsv : Nat → Bool) (job : Nat → Option Nat) (body : Nat → List Byte → List Byte → State → State) (hbody : ∀ x0 x1 x2 u, Apart z u → Apart z (body x0 x1 x2 u)) (hk : Apart z s) :
    Apart z (s.quayOp k opc rsv job body) := by
  unfold State.quayOp
  try dsimp only
  repeat' first
    | with_reducible (first | exact hk | assumption | apply Apart.ite | apply State.withHead_apart | apply State.raiseFault_apart | apply hbody)
    | fail_if_no_progress with_reducible apply Apart.mk_upd
    | (intro _ _ _; try dsimp only)
    | intro _
    | split

theorem State.quayTensorOp_apart {z s : State} (k opc : Nat) (hk : Apart z s) :
    Apart z (s.quayTensorOp k opc) := by
  unfold State.quayTensorOp
  try dsimp only
  repeat' first
    | with_reducible (first | exact hk | assumption | apply Apart.ite | apply State.quayOp_apart | apply State.dispatchOut_apart | apply State.forAll_apart | apply State.setQu_apart)
    | fail_if_no_progress with_reducible apply Apart.mk_upd
    | (intro _ _ _; try dsimp only)
    | intro _
    | split

theorem State.qbind_apart {z s : State} (k : Nat) (hk : Apart z s) :
    Apart z (s.qbind k) := by
  unfold State.qbind
  try dsimp only
  repeat' first
    | with_reducible (first | exact hk | assumption | apply Apart.ite | apply State.quayOp_apart | apply State.dispatchDone_apart | exact R.psqStep_far _)
    | fail_if_no_progress with_reducible apply Apart.mk_upd
    | (intro _ _ _; try dsimp only)
    | intro _
    | split

theorem State.quayGroup_apart {z s : State} (k : Nat) (o : Outst) (n c : Nat) (x : Errs) (hk : Apart z s) :
    Apart z (s.quayGroup k o n c x).1 := by
  unfold State.quayGroup
  try dsimp only
  repeat' first
    | with_reducible (first | exact hk | assumption | apply Apart.ite | apply State.quayErrs_apart | apply State.updateGroup_apart | apply State.clearGroup_apart | apply State.emitGroup_apart)
    | fail_if_no_progress with_reducible apply Apart.mk_upd
    | (intro _ _ _; try dsimp only)
    | intro _
    | split

theorem State.quayWork_apart {z s : State} (k : Nat) (o : Outst) (x : Errs) (hk : Apart z s) :
    Apart z (s.quayWork k o x).1 := by
  unfold State.quayWork
  try dsimp only
  repeat' first
    | with_reducible (first | exact hk | assumption | apply Apart.ite | apply State.quayGroup_apart | apply State.quayPoison_apart | apply Apart.foldl | apply Apart.foldl_fst | apply Apart.foldl_snd)
    | fail_if_no_progress with_reducible apply Apart.mk_upd
    | (intro _ _ _; try dsimp only)
    | intro _
    | split

theorem State.quayOpComplete_apart {z s : State} (k held : Nat) (x : Errs) (hk : Apart z s) :
    Apart z (s.quayOpComplete k held x) := by
  unfold State.quayOpComplete
  try dsimp only
  repeat' first
    | with_reducible (first | exact hk | assumption | apply Apart.ite | apply State.forAll_apart | apply State.count_apart | apply State.setQu_apart | apply State.quayWork_apart | apply State.complete_apart | apply State.raiseFault_apart | exact R.quySCntHold_far _ _)
    | fail_if_no_progress with_reducible apply Apart.mk_upd
    | (intro _ _ _; try dsimp only)
    | intro _
    | split

theorem State.blockArrive_apart {z s : State} (q : Nat) (hk : Apart z s) :
    Apart z (s.blockArrive q) := by
  unfold State.blockArrive
  try dsimp only
  repeat' first
    | with_reducible (first | exact hk | assumption | apply Apart.ite | apply State.setQu_apart | apply State.syncQuay_apart)
    | fail_if_no_progress with_reducible apply Apart.mk_upd
    | (intro _ _ _; try dsimp only)
    | intro _
    | split

theorem State.dropBlocks_apart {z s : State} (q id i : Nat) (hk : Apart z s) :
    Apart z (s.dropBlocks q id i) := by
  unfold State.dropBlocks
  try dsimp only
  repeat' first
    | with_reducible (first | exact hk | assumption | apply Apart.ite | apply State.setQu_apart)
    | fail_if_no_progress with_reducible apply Apart.mk_upd
    | (intro _ _ _; try dsimp only)
    | intro _
    | split

theorem State.updateBound_apart {z s : State} (q id i : Nat) (j : Job) (bd : Bind) (b c : Block) (x : Errs) (hk : Apart z s) :
    Apart z (s.updateBound q id i j bd b c x) := by
  unfold State.updateBound
  try dsimp only
  repeat' first
    | with_reducible (first | exact hk | assumption | apply Apart.ite | apply State.quayErrs_apart | apply State.updateGroup_apart | apply State.dropBlocks_apart | apply State.quayPoison_apart | apply State.setJob_apart | apply State.setFld_apart | apply State.syncQuay_apart | exact R.psqStep_far _ | exact R.rdxJStatus_far _)
    | fail_if_no_progress with_reducible apply Apart.mk_upd
    | (intro _ _ _; try dsimp only)
    | intro _
    | split

theorem State.boundUpdate_apart {z s : State} (q : Nat) (x : Errs) (hk : Apart z s) :
    Apart z (s.boundUpdate q x) := by
  unfold State.boundUpdate
  try dsimp only
  repeat' first
    | with_reducible (first | exact hk | assumption | apply Apart.ite | apply State.setQu_apart | apply State.updateBound_apart)
    | fail_if_no_progress with_reducible apply Apart.mk_upd
    | (intro _ _ _; try dsimp only)
    | intro _
    | split

theorem State.farAtomic_apart {z s : State} (q : Nat) (x : Errs) (hk : Apart z s) :
    Apart z (s.farAtomic q x) := by
  unfold State.farAtomic
  try dsimp only
  repeat' first
    | with_reducible (first | exact hk | assumption | apply Apart.ite | apply State.readErrs_apart | apply State.setBytes_apart | apply State.touch_apart | apply State.setQu_apart | apply State.count_apart | exact R.quyCntAtom_far _)
    | fail_if_no_progress with_reducible apply Apart.mk_upd
    | (intro _ _ _; try dsimp only)
    | intro _
    | split

end Sys2Proof.Machine
end

