-- ==== Sys2Proof/Laws/ApartPvu.lean ====
section
/-! SUPPORT. What the operations of Machine/Pvu.lean leave to the Lockkeeper, the weave and the SEC (Laws/Apart.lean). -/

namespace Sys2Proof.Machine

set_option linter.unusedTactic false
set_option linter.unreachableTactic false
set_option linter.unusedSimpArgs false

theorem State.pvErr_apart {z s : State} (v x index code : Nat) (assist : Bool) (hk : Apart z s) :
    Apart z (s.pvErr v x index code assist) := by
  unfold State.pvErr
  try dsimp only
  repeat' first
    | with_reducible (first | exact hk | assumption | apply Apart.ite | apply State.setFld_apart | exact R.vecPvuErr_far _)
    | fail_if_no_progress with_reducible apply Apart.mk_upd
    | (intro _ _ _; try dsimp only)
    | intro _
    | split

theorem State.syncPvu_apart {z s : State} (v : Nat) (hk : Apart z s) :
    Apart z (s.syncPvu v) := by
  unfold State.syncPvu
  try dsimp only
  repeat' first
    | with_reducible (first | exact hk | assumption | apply Apart.ite | apply State.setFld_apart | exact R.vecPvuStatus_far _)
    | fail_if_no_progress with_reducible apply Apart.mk_upd
    | (intro _ _ _; try dsimp only)
    | intro _
    | split

theorem State.pvHead_apart {z s : State} (k x : Nat) (ops : Nat → Bool) (hk : Apart z s) :
    Apart z (s.pvHead k x ops) := by
  unfold State.pvHead
  try dsimp only
  repeat' first
    | with_reducible (first | exact hk | assumption | apply Apart.ite | apply State.withHead_apart | apply State.raiseFault_apart | apply State.pvErr_apart | apply State.dispatchOut_apart | apply State.syncPvu_apart)
    | fail_if_no_progress with_reducible apply Apart.mk_upd
    | (intro _ _ _; try dsimp only)
    | intro _
    | split

theorem State.pvRun_apart {z s : State} (v w : Nat) (hk : Apart z s) :
    Apart z (s.pvRun v w).1 := by
  unfold State.pvRun
  try dsimp only
  repeat' first
    | with_reducible (first | exact hk | assumption | apply Apart.ite | apply State.count_apart | apply State.setPvReg_apart | apply State.wr_apart | exact R.vecPvuCntOps_far _)
    | fail_if_no_progress with_reducible apply Apart.mk_upd
    | (intro _ _ _; try dsimp only)
    | intro _
    | split

theorem State.pvErrs_apart {z s : State} (v w : Nat) (x : Errs) (hk : Apart z s) :
    Apart z (s.pvErrs v w x) := by
  unfold State.pvErrs
  try dsimp only
  repeat' first
    | with_reducible (first | exact hk | assumption | apply Apart.ite | apply State.readErrs_apart | apply State.addSat_apart | exact R.vecPvuErr_far _)
    | fail_if_no_progress with_reducible apply Apart.mk_upd
    | (intro _ _ _; try dsimp only)
    | intro _
    | split

theorem State.pvCommit_apart {z s : State} (v : Nat) (x : Errs) (hk : Apart z s) :
    Apart z (s.pvCommit v x) := by
  unfold State.pvCommit
  try dsimp only
  repeat' first
    | with_reducible (first | exact hk | assumption | apply Apart.ite | apply State.pvErrs_apart | apply State.pvRun_apart | apply State.complete_apart | apply State.pvErr_apart | apply State.raiseFault_apart | apply State.syncPvu_apart)
    | fail_if_no_progress with_reducible apply Apart.mk_upd
    | (intro _ _ _; try dsimp only)
    | intro _
    | split

theorem State.pvuAssist_apart {z s : State} (v : Nat) (x : Errs) (hk : Apart z s) :
    Apart z (s.pvuAssist v x) := by
  unfold State.pvuAssist
  try dsimp only
  repeat' first
    | with_reducible (first | exact hk | assumption | apply Apart.ite | apply State.pvErr_apart | apply State.pvErrs_apart | apply State.pvRun_apart | apply State.setPv_apart | apply State.wrN_apart | apply State.syncPvu_apart | exact R.vecPvuAq_far _)
    | fail_if_no_progress with_reducible apply Apart.mk_upd
    | (intro _ _ _; try dsimp only)
    | intro _
    | split

end Sys2Proof.Machine
end

