-- ==== Sys2Proof/Laws/ApartPtb.lean ====
section
/-! SUPPORT. What the operations of Machine/Ptb.lean leave to the Lockkeeper, the weave and the SEC (Laws/Apart.lean). -/

namespace Sys2Proof.Machine

set_option linter.unusedTactic false
set_option linter.unreachableTactic false
set_option linter.unusedSimpArgs false

theorem State.ptbTick_apart {z s : State} (k : Nat) (hk : Apart z s) :
    Apart z (s.ptbTick k) := by
  unfold State.ptbTick
  try dsimp only
  repeat' first
    | with_reducible (first | exact hk | assumption | apply Apart.ite)
    | fail_if_no_progress with_reducible apply Apart.mk_upd
    | (intro _ _ _; try dsimp only)
    | intro _
    | split

theorem State.ptbLink_apart {z s : State} (p : Nat) (hk : Apart z s) :
    Apart z (s.ptbLink p).2 := by
  unfold State.ptbLink
  try dsimp only
  repeat' first
    | with_reducible (first | exact hk | assumption | apply Apart.ite | apply State.ptbTick_apart | apply State.addSat_apart | exact R.ptbLink_far | exact R.ptbCntB_far)
    | fail_if_no_progress with_reducible apply Apart.mk_upd
    | (intro _ _ _; try dsimp only)
    | intro _
    | split

theorem State.ptbSpill_apart {z s : State} (job st b : Nat) (bw16 : Bool) (hk : Apart z s) :
    Apart z (s.ptbSpill job st b bw16).2 := by
  unfold State.ptbSpill
  try dsimp only
  repeat' first
    | with_reducible (first | exact hk | assumption | apply Apart.ite | apply State.ptbTick_apart | apply State.addSat_apart | exact R.ptbSpill_far | exact R.ptbCntB_far)
    | fail_if_no_progress with_reducible apply Apart.mk_upd
    | (intro _ _ _; try dsimp only)
    | intro _
    | split

theorem State.ptbHome_apart {z s : State} (h agent : Nat) (hk : Apart z s) :
    Apart z (s.ptbHome h agent).2 := by
  unfold State.ptbHome
  try dsimp only
  repeat' first
    | with_reducible (first | exact hk | assumption | apply Apart.ite | apply State.ptbTick_apart | apply State.addSat_apart | exact R.ptbHome_far | exact R.ptbCntB_far)
    | fail_if_no_progress with_reducible apply Apart.mk_upd
    | (intro _ _ _; try dsimp only)
    | intro _
    | split

theorem State.ptbArm_apart {z s : State} (v : Word) (hk : Apart z s) :
    Apart z (s.ptbArm v) := by
  unfold State.ptbArm
  try dsimp only
  repeat' first
    | with_reducible (first | exact hk | assumption | apply Apart.ite | apply State.setFld_apart | exact R.ptbCtl_far)
    | fail_if_no_progress with_reducible apply Apart.mk_upd
    | (intro _ _ _; try dsimp only)
    | intro _
    | split

end Sys2Proof.Machine
end

