-- ==== Sys2Proof/Laws/ApartTwp.lean ====
section
/-! SUPPORT. What the operations of Machine/Twp.lean leave to the Lockkeeper, the weave and the SEC (Laws/Apart.lean). -/

namespace Sys2Proof.Machine

set_option linter.unusedTactic false
set_option linter.unreachableTactic false
set_option linter.unusedSimpArgs false

theorem State.setPt_apart {z s : State} (p : Nat) (c : Port) (hk : Apart z s) :
    Apart z (s.setPt p c) := by
  unfold State.setPt
  try dsimp only
  repeat' first
    | with_reducible (first | exact hk | assumption | apply Apart.ite)
    | fail_if_no_progress with_reducible apply Apart.mk_upd
    | (intro _ _ _; try dsimp only)
    | intro _
    | split

theorem State.setRg_apart {z s : State} (rd : Nat) (c : RingDir) (hk : Apart z s) :
    Apart z (s.setRg rd c) := by
  unfold State.setRg
  try dsimp only
  repeat' first
    | with_reducible (first | exact hk | assumption | apply Apart.ite)
    | fail_if_no_progress with_reducible apply Apart.mk_upd
    | (intro _ _ _; try dsimp only)
    | intro _
    | split

theorem State.setPortState_apart {z s : State} (p v : Nat) (hk : Apart z s) :
    Apart z (s.setPortState p v) := by
  unfold State.setPortState
  try dsimp only
  repeat' first
    | with_reducible (first | exact hk | assumption | apply Apart.ite | apply State.setFld_apart | apply State.modEvent_apart | exact R.twpPStatus_far _)
    | fail_if_no_progress with_reducible apply Apart.mk_upd
    | (intro _ _ _; try dsimp only)
    | intro _
    | split

theorem State.syncRing_apart {z s : State} (r : Nat) (hk : Apart z s) :
    Apart z (s.syncRing r) := by
  unfold State.syncRing
  try dsimp only
  repeat' first
    | with_reducible (first | exact hk | assumption | apply Apart.ite | apply State.setFld_apart | exact R.twpRStatus_far _ | apply Apart.foldl | apply Apart.foldl_fst | apply Apart.foldl_snd)
    | fail_if_no_progress with_reducible apply Apart.mk_upd
    | (intro _ _ _; try dsimp only)
    | intro _
    | split

theorem State.sendCtrl_apart {z s : State} (p : Nat) (hk : Apart z s) :
    Apart z (s.sendCtrl p) := by
  unfold State.sendCtrl
  try dsimp only
  repeat' first
    | with_reducible (first | exact hk | assumption | apply Apart.ite | apply State.setPt_apart)
    | fail_if_no_progress with_reducible apply Apart.mk_upd
    | (intro _ _ _; try dsimp only)
    | intro _
    | split

theorem State.sendData_apart {z s : State} (p : Nat) (f : TxFrame) (hk : Apart z s) :
    Apart z (s.sendData p f) := by
  unfold State.sendData
  try dsimp only
  repeat' first
    | with_reducible (first | exact hk | assumption | apply Apart.ite | apply State.setPt_apart | apply State.sendCtrl_apart)
    | fail_if_no_progress with_reducible apply Apart.mk_upd
    | (intro _ _ _; try dsimp only)
    | intro _
    | split

theorem State.txFrame_apart {z s : State} (p rd cls : Nat) (f : List Byte) (hk : Apart z s) :
    Apart z (s.txFrame p rd cls f) := by
  unfold State.txFrame
  try dsimp only
  repeat' first
    | with_reducible (first | exact hk | assumption | apply Apart.ite | apply State.setPt_apart | apply State.sendData_apart)
    | fail_if_no_progress with_reducible apply Apart.mk_upd
    | (intro _ _ _; try dsimp only)
    | intro _
    | split

theorem State.pumpN_apart {z s : State} (rd : Nat) (n : Nat) (hk : Apart z s) :
    Apart z (s.pumpN rd n) := by
  induction n generalizing s  with
  | zero => exact hk
  | succ n ih =>
    unfold State.pumpN
    try dsimp only
    repeat' first
      | with_reducible (first | exact hk | assumption | apply Apart.ite | apply State.setRg_apart | apply State.txFrame_apart | apply ih)
      | fail_if_no_progress with_reducible apply Apart.mk_upd
      | (intro _ _ _; try dsimp only)
      | intro _
      | split

theorem State.pump_apart {z s : State} (rd : Nat) (hk : Apart z s) :
    Apart z (s.pump rd) := by
  unfold State.pump
  try dsimp only
  repeat' first
    | with_reducible (first | exact hk | assumption | apply Apart.ite | apply State.pumpN_apart)
    | fail_if_no_progress with_reducible apply Apart.mk_upd
    | (intro _ _ _; try dsimp only)
    | intro _
    | split

theorem State.emit_apart {z s : State} (rd cls : Nat) (f : List Byte) (hk : Apart z s) :
    Apart z (s.emit rd cls f) := by
  unfold State.emit
  try dsimp only
  repeat' first
    | with_reducible (first | exact hk | assumption | apply Apart.ite | apply State.setRg_apart | apply State.pump_apart)
    | fail_if_no_progress with_reducible apply Apart.mk_upd
    | (intro _ _ _; try dsimp only)
    | intro _
    | split

theorem State.pumpPort_apart {z s : State} (p : Nat) (hk : Apart z s) :
    Apart z (s.pumpPort p) := by
  unfold State.pumpPort
  try dsimp only
  repeat' first
    | with_reducible (first | exact hk | assumption | apply Apart.ite | apply State.pump_apart | apply State.syncRing_apart | apply Apart.foldl | apply Apart.foldl_fst | apply Apart.foldl_snd)
    | fail_if_no_progress with_reducible apply Apart.mk_upd
    | (intro _ _ _; try dsimp only)
    | intro _
    | split

theorem State.resend_apart {z s : State} (l : List TxFrame) (hk : Apart z s) :
    Apart z (s.resend l) := by
  unfold State.resend
  try dsimp only
  repeat' first
    | with_reducible (first | exact hk | assumption | apply Apart.ite | apply State.setRg_apart | apply State.pump_apart | apply Apart.foldl | apply Apart.foldl_fst | apply Apart.foldl_snd)
    | fail_if_no_progress with_reducible apply Apart.mk_upd
    | (intro _ _ _; try dsimp only)
    | intro _
    | split

theorem State.talk_apart {z s : State} (p : Nat) (hk : Apart z s) :
    Apart z (s.talk p) := by
  unfold State.talk
  try dsimp only
  repeat' first
    | with_reducible (first | exact hk | assumption | apply Apart.ite | apply State.sendCtrl_apart)
    | fail_if_no_progress with_reducible apply Apart.mk_upd
    | (intro _ _ _; try dsimp only)
    | intro _
    | split

theorem State.talkAll_apart {z s : State} (hk : Apart z s) :
    Apart z s.talkAll := by
  unfold State.talkAll
  try dsimp only
  repeat' first
    | with_reducible (first | exact hk | assumption | apply Apart.ite | apply State.talk_apart | apply Apart.foldl | apply Apart.foldl_fst | apply Apart.foldl_snd)
    | fail_if_no_progress with_reducible apply Apart.mk_upd
    | (intro _ _ _; try dsimp only)
    | intro _
    | split

theorem State.endSession_apart {z s : State} (p : Nat) (hk : Apart z s) :
    Apart z (s.endSession p) := by
  unfold State.endSession
  try dsimp only
  repeat' first
    | with_reducible (first | exact hk | assumption | apply Apart.ite | apply State.setPt_apart)
    | fail_if_no_progress with_reducible apply Apart.mk_upd
    | (intro _ _ _; try dsimp only)
    | intro _
    | split

theorem State.portDown_apart {z s : State} (p : Nat) (hk : Apart z s) :
    Apart z (s.portDown p) := by
  unfold State.portDown
  try dsimp only
  repeat' first
    | with_reducible (first | exact hk | assumption | apply Apart.ite | apply State.endSession_apart | apply State.setPortState_apart | apply State.setFld_apart | apply State.syncRing_apart | apply State.talkAll_apart | exact R.twpPStatus_far _ | apply Apart.foldl | apply Apart.foldl_fst | apply Apart.foldl_snd)
    | fail_if_no_progress with_reducible apply Apart.mk_upd
    | (intro _ _ _; try dsimp only)
    | intro _
    | split

theorem State.startRetrain_apart {z s : State} (p : Nat) (hk : Apart z s) :
    Apart z (s.startRetrain p) := by
  unfold State.startRetrain
  try dsimp only
  repeat' first
    | with_reducible (first | exact hk | assumption | apply Apart.ite | apply State.setPt_apart | apply State.setPortState_apart | apply State.syncRing_apart | apply Apart.foldl | apply Apart.foldl_fst | apply Apart.foldl_snd)
    | fail_if_no_progress with_reducible apply Apart.mk_upd
    | (intro _ _ _; try dsimp only)
    | intro _
    | split

theorem State.partner_apart {z s : State} (p : Nat) (i : TrainInfo) (good : Nat) (hk : Apart z s) :
    Apart z (s.partner p i good) := by
  unfold State.partner
  try dsimp only
  repeat' first
    | with_reducible (first | exact hk | assumption | apply Apart.ite | apply State.setReg_apart | apply State.setFld_apart | exact R.twpPStatus_far _ | exact R.twpPPartner_far _)
    | fail_if_no_progress with_reducible apply Apart.mk_upd
    | (intro _ _ _; try dsimp only)
    | intro _
    | split

theorem State.sendOffer_apart {z s : State} (p good : Nat) (full : Bool) (hk : Apart z s) :
    Apart z (s.sendOffer p good full) := by
  unfold State.sendOffer
  try dsimp only
  repeat' first
    | with_reducible (first | exact hk | assumption | apply Apart.ite | apply State.setPt_apart)
    | fail_if_no_progress with_reducible apply Apart.mk_upd
    | (intro _ _ _; try dsimp only)
    | intro _
    | split

theorem State.levelMismatch_apart {z s : State} (p : Nat) (hk : Apart z s) :
    Apart z (s.levelMismatch p) := by
  unfold State.levelMismatch
  try dsimp only
  repeat' first
    | with_reducible (first | exact hk | assumption | apply Apart.ite | apply State.endSession_apart | apply State.setPortState_apart | apply State.setFld_apart | apply State.syncRing_apart | exact R.twpPStatus_far _ | apply Apart.foldl | apply Apart.foldl_fst | apply Apart.foldl_snd)
    | fail_if_no_progress with_reducible apply Apart.mk_upd
    | (intro _ _ _; try dsimp only)
    | intro _
    | split

theorem State.resolve_apart {z s : State} (p passed : Nat) (i : TrainInfo) (full : Bool) (hk : Apart z s) :
    Apart z (s.resolve p passed i full) := by
  unfold State.resolve
  try dsimp only
  repeat' first
    | with_reducible (first | exact hk | assumption | apply Apart.ite | apply State.sendOffer_apart | apply State.partner_apart | apply State.levelMismatch_apart | apply State.portDown_apart | apply State.setFld_apart | apply State.setPt_apart | exact R.twpPStatus_far _)
    | fail_if_no_progress with_reducible apply Apart.mk_upd
    | (intro _ _ _; try dsimp only)
    | intro _
    | split

theorem State.trainFull_apart {z s : State} (p : Nat) (i : TrainInfo) (hk : Apart z s) :
    Apart z (s.trainFull p i) := by
  unfold State.trainFull
  try dsimp only
  repeat' first
    | with_reducible (first | exact hk | assumption | apply Apart.ite | apply State.endSession_apart | apply State.addSat_apart | apply State.setPortState_apart | apply State.portDown_apart | apply State.setPt_apart | apply State.resolve_apart | exact R.twpPStatus_far _ | exact R.twpPCntLink_far _)
    | fail_if_no_progress with_reducible apply Apart.mk_upd
    | (intro _ _ _; try dsimp only)
    | intro _
    | split

theorem State.fastFailed_apart {z s : State} (p : Nat) (hk : Apart z s) :
    Apart z (s.fastFailed p) := by
  unfold State.fastFailed
  try dsimp only
  repeat' first
    | with_reducible (first | exact hk | assumption | apply Apart.ite | apply State.setPt_apart | apply State.endSession_apart | apply State.setPortState_apart | apply State.setFld_apart | apply State.syncRing_apart | apply State.talkAll_apart | exact R.twpPStatus_far _ | apply Apart.foldl | apply Apart.foldl_fst | apply Apart.foldl_snd)
    | fail_if_no_progress with_reducible apply Apart.mk_upd
    | (intro _ _ _; try dsimp only)
    | intro _
    | split

theorem State.trainFast_apart {z s : State} (p : Nat) (i : TrainInfo) (hk : Apart z s) :
    Apart z (s.trainFast p i) := by
  unfold State.trainFast
  try dsimp only
  repeat' first
    | with_reducible (first | exact hk | assumption | apply Apart.ite | apply State.fastFailed_apart | apply State.addSat_apart | apply State.resolve_apart | exact R.twpPCntLink_far _)
    | fail_if_no_progress with_reducible apply Apart.mk_upd
    | (intro _ _ _; try dsimp only)
    | intro _
    | split

theorem State.frameLock_apart {z s : State} (p : Nat) (hk : Apart z s) :
    Apart z (s.frameLock p) := by
  unfold State.frameLock
  try dsimp only
  repeat' first
    | with_reducible (first | exact hk | assumption | apply Apart.ite | apply State.setPt_apart | apply State.setPortState_apart | apply State.setRg_apart | apply State.resend_apart | apply State.pumpPort_apart | apply State.talk_apart | apply Apart.foldl | apply Apart.foldl_fst | apply Apart.foldl_snd)
    | fail_if_no_progress with_reducible apply Apart.mk_upd
    | (intro _ _ _; try dsimp only)
    | intro _
    | split

theorem State.raiseNak_apart {z s : State} (p : Nat) (hk : Apart z s) :
    Apart z (s.raiseNak p) := by
  unfold State.raiseNak
  try dsimp only
  repeat' first
    | with_reducible (first | exact hk | assumption | apply Apart.ite | apply State.setPt_apart | apply State.addSat_apart | exact R.twpPCntLink_far _)
    | fail_if_no_progress with_reducible apply Apart.mk_upd
    | (intro _ _ _; try dsimp only)
    | intro _
    | split

theorem State.badFrame_apart {z s : State} (p : Nat) (hk : Apart z s) :
    Apart z (s.badFrame p) := by
  unfold State.badFrame
  try dsimp only
  repeat' first
    | with_reducible (first | exact hk | assumption | apply Apart.ite | apply State.addSat_apart | apply State.raiseNak_apart | apply State.setPt_apart | apply State.startRetrain_apart | exact R.twpPCntFec_far _)
    | fail_if_no_progress with_reducible apply Apart.mk_upd
    | (intro _ _ _; try dsimp only)
    | intro _
    | split

theorem State.countCorr_apart {z s : State} (p : Nat) (l : List Nat) (hk : Apart z s) :
    Apart z (s.countCorr p l) := by
  unfold State.countCorr
  try dsimp only
  repeat' first
    | with_reducible (first | exact hk | assumption | apply Apart.ite | apply State.addSat_apart | exact R.twpPStatus_far _ | exact R.twpPCntFec_far _ | exact R.twpPLane_far _ | apply Apart.foldl | apply Apart.foldl_fst | apply Apart.foldl_snd)
    | fail_if_no_progress with_reducible apply Apart.mk_upd
    | (intro _ _ _; try dsimp only)
    | intro _
    | split

theorem State.takeAck_apart {z s : State} (p ack : Nat) (nak : Bool) (hk : Apart z s) :
    Apart z (s.takeAck p ack nak) := by
  unfold State.takeAck
  try dsimp only
  repeat' first
    | with_reducible (first | exact hk | assumption | apply Apart.ite | apply State.setPt_apart | apply State.sendData_apart | apply State.addSat_apart | apply State.startRetrain_apart | exact R.twpPCntLink_far _ | apply Apart.foldl | apply Apart.foldl_fst | apply Apart.foldl_snd)
    | fail_if_no_progress with_reducible apply Apart.mk_upd
    | (intro _ _ _; try dsimp only)
    | intro _
    | split

theorem State.freeFlit_apart {z s : State} (p c : Nat) (hk : Apart z s) :
    Apart z (s.freeFlit p c) := by
  unfold State.freeFlit
  try dsimp only
  repeat' first
    | with_reducible (first | exact hk | assumption | apply Apart.ite | apply State.setPt_apart)
    | fail_if_no_progress with_reducible apply Apart.mk_upd
    | (intro _ _ _; try dsimp only)
    | intro _
    | split

theorem State.acceptFlit_apart {z s : State} (p cls : Nat) (f : List Byte) (hk : Apart z s) :
    Apart z (s.acceptFlit p cls f) := by
  unfold State.acceptFlit
  try dsimp only
  repeat' first
    | with_reducible (first | exact hk | assumption | apply Apart.ite | apply State.addSat_apart | apply State.freeFlit_apart | apply State.setPt_apart | exact R.twpPErr_far _ | exact R.rdxErr_far | exact R.twpPStatus_far _)
    | fail_if_no_progress with_reducible apply Apart.mk_upd
    | (intro _ _ _; try dsimp only)
    | intro _
    | split

theorem State.frame_apart {z s : State} (p kind : Nat) (b : List Byte) (act : Nat → List Byte → State → State) (hact : ∀ x0 x1 u, Apart z u → Apart z (act x0 x1 u)) (hk : Apart z s) :
    Apart z (s.frame p kind b act) := by
  unfold State.frame
  try dsimp only
  repeat' first
    | with_reducible (first | exact hk | assumption | apply Apart.ite | apply State.ptbLink_apart | apply State.addSat_apart | apply State.raiseNak_apart | apply State.badFrame_apart | apply State.countCorr_apart | apply State.setPt_apart | apply State.takeAck_apart | apply State.pumpPort_apart | apply State.talk_apart | exact R.twpPCntFec_far _ | apply hact)
    | fail_if_no_progress with_reducible apply Apart.mk_upd
    | (intro _ _ _; try dsimp only)
    | intro _
    | split

theorem State.dataAct_apart {z s : State} (p h : Nat) (f : List Byte) (hk : Apart z s) :
    Apart z (s.dataAct p h f) := by
  unfold State.dataAct
  try dsimp only
  repeat' first
    | with_reducible (first | exact hk | assumption | apply Apart.ite | apply State.setPt_apart | apply State.acceptFlit_apart | apply State.raiseNak_apart)
    | fail_if_no_progress with_reducible apply Apart.mk_upd
    | (intro _ _ _; try dsimp only)
    | intro _
    | split

theorem State.dataFrame_apart {z s : State} (p : Nat) (b : List Byte) (hk : Apart z s) :
    Apart z (s.dataFrame p b) := by
  unfold State.dataFrame
  try dsimp only
  repeat' first
    | with_reducible (first | exact hk | assumption | apply Apart.ite | apply State.frame_apart | apply State.dataAct_apart)
    | fail_if_no_progress with_reducible apply Apart.mk_upd
    | (intro _ _ _; try dsimp only)
    | intro _
    | split

theorem State.takeCredits_apart {z s : State} (p : Nat) (f : List Byte) (hk : Apart z s) :
    Apart z (s.takeCredits p f) := by
  unfold State.takeCredits
  try dsimp only
  repeat' first
    | with_reducible (first | exact hk | assumption | apply Apart.ite | apply State.setPt_apart | apply State.setRg_apart | apply Apart.foldl | apply Apart.foldl_fst | apply Apart.foldl_snd)
    | fail_if_no_progress with_reducible apply Apart.mk_upd
    | (intro _ _ _; try dsimp only)
    | intro _
    | split

theorem State.takeDone_apart {z s : State} (rd v : Nat) (hk : Apart z s) :
    Apart z (s.takeDone rd v) := by
  unfold State.takeDone
  try dsimp only
  repeat' first
    | with_reducible (first | exact hk | assumption | apply Apart.ite | apply State.setRg_apart)
    | fail_if_no_progress with_reducible apply Apart.mk_upd
    | (intro _ _ _; try dsimp only)
    | intro _
    | split

theorem State.takeAckx_apart {z s : State} (rd : Nat) (f : List Byte) (hk : Apart z s) :
    Apart z (s.takeAckx rd f) := by
  unfold State.takeAckx
  try dsimp only
  repeat' first
    | with_reducible (first | exact hk | assumption | apply Apart.ite | apply State.setPt_apart | apply State.resend_apart | exact R.twpPStatus_far _ | apply Apart.foldl | apply Apart.foldl_fst | apply Apart.foldl_snd)
    | fail_if_no_progress with_reducible apply Apart.mk_upd
    | (intro _ _ _; try dsimp only)
    | intro _
    | split

theorem State.ctrlAct_apart {z s : State} (p : Nat) (f : List Byte) (hk : Apart z s) :
    Apart z (s.ctrlAct p f) := by
  unfold State.ctrlAct
  try dsimp only
  repeat' first
    | with_reducible (first | exact hk | assumption | apply Apart.ite | apply State.takeDone_apart | apply State.takeAckx_apart | apply State.takeCredits_apart | apply Apart.foldl | apply Apart.foldl_fst | apply Apart.foldl_snd)
    | fail_if_no_progress with_reducible apply Apart.mk_upd
    | (intro _ _ _; try dsimp only)
    | intro _
    | split

theorem State.ctrlFrame_apart {z s : State} (p : Nat) (b : List Byte) (hk : Apart z s) :
    Apart z (s.ctrlFrame p b) := by
  unfold State.ctrlFrame
  try dsimp only
  repeat' first
    | with_reducible (first | exact hk | assumption | apply Apart.ite | apply State.frame_apart | apply State.ctrlAct_apart)
    | fail_if_no_progress with_reducible apply Apart.mk_upd
    | (intro _ _ _; try dsimp only)
    | intro _
    | split

theorem State.tsend_apart {z s : State} (k x : Nat) (hk : Apart z s) :
    Apart z (s.tsend k x) := by
  unfold State.tsend
  try dsimp only
  repeat' first
    | with_reducible (first | exact hk | assumption | apply Apart.ite | apply State.withHead_apart | apply State.raiseFault_apart | apply State.dispatchOut_apart)
    | fail_if_no_progress with_reducible apply Apart.mk_upd
    | (intro _ _ _; try dsimp only)
    | intro _
    | split

theorem State.receiveBarge_apart {z s : State} (rd : Nat) (f : List Byte) (hk : Apart z s) :
    Apart z (s.receiveBarge rd f) := by
  unfold State.receiveBarge
  try dsimp only
  repeat' first
    | with_reducible (first | exact hk | assumption | apply Apart.ite | apply State.addSat_apart | apply State.wrPoison_apart | apply State.wr_apart | apply State.count_apart | apply State.setRg_apart | apply State.extPost_apart | exact R.twpWinBase_far _ | exact R.twpWinCtl_far _)
    | fail_if_no_progress with_reducible apply Apart.mk_upd
    | (intro _ _ _; try dsimp only)
    | intro _
    | split

theorem State.tsendIssue_apart {z s : State} (k : Nat) (hk : Apart z s) :
    Apart z (s.tsendIssue k) := by
  unfold State.tsendIssue
  try dsimp only
  repeat' first
    | with_reducible (first | exact hk | assumption | apply Apart.ite | apply State.updOutst_apart | apply State.setRg_apart | apply State.receiveBarge_apart | apply State.takeDone_apart | apply State.pump_apart | apply State.syncRing_apart | apply Apart.foldl | apply Apart.foldl_fst | apply Apart.foldl_snd)
    | fail_if_no_progress with_reducible apply Apart.mk_upd
    | (intro _ _ _; try dsimp only)
    | intro _
    | split

theorem State.tsendEnd_apart {z s : State} (k n code : Nat) (hk : Apart z s) :
    Apart z (s.tsendEnd k n code) := by
  unfold State.tsendEnd
  try dsimp only
  repeat' first
    | with_reducible (first | exact hk | assumption | apply Apart.ite | apply State.complete_apart | apply State.raiseFault_apart)
    | fail_if_no_progress with_reducible apply Apart.mk_upd
    | (intro _ _ _; try dsimp only)
    | intro _
    | split

theorem State.tsendComplete_apart {z s : State} (rd tag : Nat) (hk : Apart z s) :
    Apart z (s.tsendComplete rd tag) := by
  unfold State.tsendComplete
  try dsimp only
  repeat' first
    | with_reducible (first | exact hk | assumption | apply Apart.ite | apply State.setRg_apart | apply State.tsendEnd_apart | apply State.syncRing_apart)
    | fail_if_no_progress with_reducible apply Apart.mk_upd
    | (intro _ _ _; try dsimp only)
    | intro _
    | split

theorem State.tsendTimeout_apart {z s : State} (rd tag : Nat) (hk : Apart z s) :
    Apart z (s.tsendTimeout rd tag) := by
  unfold State.tsendTimeout
  try dsimp only
  repeat' first
    | with_reducible (first | exact hk | assumption | apply Apart.ite | apply State.setRg_apart | apply State.tsendEnd_apart | apply State.syncRing_apart)
    | fail_if_no_progress with_reducible apply Apart.mk_upd
    | (intro _ _ _; try dsimp only)
    | intro _
    | split

theorem State.takeBarge_apart {z s : State} (p cls : Nat) (hk : Apart z s) :
    Apart z (s.takeBarge p cls) := by
  unfold State.takeBarge
  try dsimp only
  repeat' first
    | with_reducible (first | exact hk | assumption | apply Apart.ite | apply State.setPt_apart | apply State.receiveBarge_apart | apply State.freeFlit_apart)
    | fail_if_no_progress with_reducible apply Apart.mk_upd
    | (intro _ _ _; try dsimp only)
    | intro _
    | split

theorem State.cmdFast_apart {z s : State} (p : Nat) (hk : Apart z s) :
    Apart z (s.cmdFast p) := by
  unfold State.cmdFast
  try dsimp only
  repeat' first
    | with_reducible (first | exact hk | assumption | apply Apart.ite | apply State.startRetrain_apart)
    | fail_if_no_progress with_reducible apply Apart.mk_upd
    | (intro _ _ _; try dsimp only)
    | intro _
    | split

theorem State.cmdFull_apart {z s : State} (p : Nat) (hk : Apart z s) :
    Apart z (s.cmdFull p) := by
  unfold State.cmdFull
  try dsimp only
  repeat' first
    | with_reducible (first | exact hk | assumption | apply Apart.ite | apply State.endSession_apart | apply State.setPortState_apart | apply State.setFld_apart | apply State.syncRing_apart | exact R.twpPStatus_far _ | apply Apart.foldl | apply Apart.foldl_fst | apply Apart.foldl_snd)
    | fail_if_no_progress with_reducible apply Apart.mk_upd
    | (intro _ _ _; try dsimp only)
    | intro _
    | split

theorem State.winWrite_apart {z s : State} (w : Nat) (v : Word) (hk : Apart z s) :
    Apart z (s.winWrite w v) := by
  unfold State.winWrite
  try dsimp only
  repeat' first
    | with_reducible (first | exact hk | assumption | apply Apart.ite | apply State.setFld_apart | exact R.twpWinCtl_far _ | exact R.twpWinBase_far _ | exact R.twpWinSize_far _)
    | fail_if_no_progress with_reducible apply Apart.mk_upd
    | (intro _ _ _; try dsimp only)
    | intro _
    | split

end Sys2Proof.Machine
end

