-- ==== Sys2Proof/Laws/ApartRdx.lean ====
section
/-! SUPPORT. What the operations of Machine/Rdx.lean leave to the Lockkeeper, the weave and the SEC (Laws/Apart.lean). -/

namespace Sys2Proof.Machine

set_option linter.unusedTactic false
set_option linter.unreachableTactic false
set_option linter.unusedSimpArgs false

theorem State.setXc_apart {z s : State} (k : Nat) (c : Xch) (hk : Apart z s) :
    Apart z (s.setXc k c) := by
  unfold State.setXc
  try dsimp only
  repeat' first
    | with_reducible (first | exact hk | assumption | apply Apart.ite | apply State.setFld_apart | exact R.rdxSXstat_far _)
    | fail_if_no_progress with_reducible apply Apart.mk_upd
    | (intro _ _ _; try dsimp only)
    | intro _
    | split

theorem State.sendSeal_apart {z s : State} (ring p : Nat) (r : SealRec) (step : Nat) (hk : Apart z s) :
    Apart z (s.sendSeal ring p r step) := by
  unfold State.sendSeal
  try dsimp only
  repeat' first
    | with_reducible (first | exact hk | assumption | apply Apart.ite | apply State.emit_apart)
    | fail_if_no_progress with_reducible apply Apart.mk_upd
    | (intro _ _ _; try dsimp only)
    | intro _
    | split

theorem State.xchPost_apart {z s : State} (k : Nat) (hk : Apart z s) :
    Apart z (s.xchPost k) := by
  unfold State.xchPost
  try dsimp only
  repeat' first
    | with_reducible (first | exact hk | assumption | apply Apart.ite | apply State.extPost_apart | exact R.rdxSXctl_far _)
    | fail_if_no_progress with_reducible apply Apart.mk_upd
    | (intro _ _ _; try dsimp only)
    | intro _
    | split

theorem State.agree_apart {z s : State} (k : Nat) (r : SealRec) (hk : Apart z s) :
    Apart z (s.agree k r) := by
  unfold State.agree
  try dsimp only
  repeat' first
    | with_reducible (first | exact hk | assumption | apply Apart.ite | apply State.setFld_apart | apply State.setReg_apart | apply State.forAll_apart | apply State.count_apart | apply State.stakeEvent_apart | exact R.rdxSXnonfin_far _ | exact R.rdxSXnormsq_far _ | exact R.rdxSXexp_far _ _ | exact R.rdxSXstat_far _ | exact R.rdxSCntSkip_far _)
    | fail_if_no_progress with_reducible apply Apart.mk_upd
    | (intro _ _ _; try dsimp only)
    | intro _
    | split

theorem State.closeXch_apart {z s : State} (k st : Nat) (agreed : Option SealRec) (hk : Apart z s) :
    Apart z (s.closeXch k st agreed) := by
  unfold State.closeXch
  try dsimp only
  repeat' first
    | with_reducible (first | exact hk | assumption | apply Apart.ite | apply State.setFld_apart | apply State.setReg_apart | apply State.agree_apart | apply State.stakeEvent_apart | apply State.xchPost_apart | apply State.setXc_apart | exact R.rdxSXstat_far _ | exact R.rdxSCntSpill_far _)
    | fail_if_no_progress with_reducible apply Apart.mk_upd
    | (intro _ _ _; try dsimp only)
    | intro _
    | split

theorem State.sealStep_apart {z s : State} (k : Nat) (r : SealRec) (hk : Apart z s) :
    Apart z (s.sealStep k r) := by
  unfold State.sealStep
  try dsimp only
  repeat' first
    | with_reducible (first | exact hk | assumption | apply Apart.ite | apply State.closeXch_apart | apply State.sendSeal_apart | apply State.setXc_apart)
    | fail_if_no_progress with_reducible apply Apart.mk_upd
    | (intro _ _ _; try dsimp only)
    | intro _
    | split

theorem State.drainSeals_apart {z s : State} (k : Nat) (n : Nat) (hk : Apart z s) :
    Apart z (s.drainSeals k n) := by
  induction n generalizing s  with
  | zero => exact hk
  | succ n ih =>
    unfold State.drainSeals
    try dsimp only
    repeat' first
      | with_reducible (first | exact hk | assumption | apply Apart.ite | apply State.setXc_apart | apply State.sealStep_apart | apply ih)
      | fail_if_no_progress with_reducible apply Apart.mk_upd
      | (intro _ _ _; try dsimp only)
      | intro _
      | split

theorem State.openXch_apart {z s : State} (k : Nat) (h : Handoff) (hk : Apart z s) :
    Apart z (s.openXch k h) := by
  unfold State.openXch
  try dsimp only
  repeat' first
    | with_reducible (first | exact hk | assumption | apply Apart.ite | apply State.setFld_apart | apply State.setXc_apart | apply State.closeXch_apart | apply State.sendSeal_apart | exact R.rdxSXstat_far _ | exact R.rdxSXnonfin_far _)
    | fail_if_no_progress with_reducible apply Apart.mk_upd
    | (intro _ _ _; try dsimp only)
    | intro _
    | split

theorem State.nextXch_apart {z s : State} (k : Nat) (n : Nat) (hk : Apart z s) :
    Apart z (s.nextXch k n) := by
  induction n generalizing s  with
  | zero => exact hk
  | succ n ih =>
    unfold State.nextXch
    try dsimp only
    repeat' first
      | with_reducible (first | exact hk | assumption | apply Apart.ite | apply State.drainSeals_apart | apply State.setXc_apart | apply State.openXch_apart | apply ih)
      | fail_if_no_progress with_reducible apply Apart.mk_upd
      | (intro _ _ _; try dsimp only)
      | intro _
      | split

theorem State.handoff_apart {z s : State} (k step : Nat) (l : Option (List (Nat × Slot))) (hk : Apart z s) :
    Apart z (s.handoff k step l) := by
  unfold State.handoff
  try dsimp only
  repeat' first
    | with_reducible (first | exact hk | assumption | apply Apart.ite | apply State.openXch_apart | apply State.nextXch_apart | apply State.setFld_apart | apply State.setXc_apart | apply State.stakeEvent_apart | apply State.xchPost_apart | exact R.rdxSXstat_far _)
    | fail_if_no_progress with_reducible apply Apart.mk_upd
    | (intro _ _ _; try dsimp only)
    | intro _
    | split

theorem State.takeSeal_apart {z s : State} (p : Nat) (hk : Apart z s) :
    Apart z (s.takeSeal p) := by
  unfold State.takeSeal
  try dsimp only
  repeat' first
    | with_reducible (first | exact hk | assumption | apply Apart.ite | apply State.setPt_apart | apply State.freeFlit_apart | apply State.setXc_apart | apply State.nextXch_apart)
    | fail_if_no_progress with_reducible apply Apart.mk_upd
    | (intro _ _ _; try dsimp only)
    | intro _
    | split

theorem State.xchTimeout_apart {z s : State} (k : Nat) (hk : Apart z s) :
    Apart z (s.xchTimeout k) := by
  unfold State.xchTimeout
  try dsimp only
  repeat' first
    | with_reducible (first | exact hk | assumption | apply Apart.ite | apply State.closeXch_apart | apply State.nextXch_apart)
    | fail_if_no_progress with_reducible apply Apart.mk_upd
    | (intro _ _ _; try dsimp only)
    | intro _
    | split

theorem State.raiseRdx_apart {z s : State} (k index code : Nat) (job : Option Nat) (hk : Apart z s) :
    Apart z (s.raiseRdx k index code job) := by
  unfold State.raiseRdx
  try dsimp only
  repeat' first
    | with_reducible (first | exact hk | assumption | apply Apart.ite | apply State.rdxFault_apart | apply State.raiseFault_apart)
    | fail_if_no_progress with_reducible apply Apart.mk_upd
    | (intro _ _ _; try dsimp only)
    | intro _
    | split

theorem State.rdxOut_apart {z s : State} (k : Nat) (o : Outst) (code : Nat) (job : Option Nat) (hk : Apart z s) :
    Apart z (s.rdxOut k o code job) := by
  unfold State.rdxOut
  try dsimp only
  repeat' first
    | with_reducible (first | exact hk | assumption | apply Apart.ite | apply State.rdxFault_apart | apply State.faultOut_apart)
    | fail_if_no_progress with_reducible apply Apart.mk_upd
    | (intro _ _ _; try dsimp only)
    | intro _
    | split

theorem State.noteReads_apart {z s : State} (j : Job) (gs bs : List Nat) (x : Errs) (hk : Apart z s) :
    Apart z (s.noteReads j gs bs x) := by
  unfold State.noteReads
  try dsimp only
  repeat' first
    | with_reducible (first | exact hk | assumption | apply Apart.ite | apply State.quayErrs_apart | apply State.quayBadAddr_apart | apply Apart.foldl | apply Apart.foldl_fst | apply Apart.foldl_snd)
    | fail_if_no_progress with_reducible apply Apart.mk_upd
    | (intro _ _ _; try dsimp only)
    | intro _
    | split

theorem State.sendBlocks_apart {z s : State} (j : Job) (id ring p ty st : Nat) (l : List (Nat × Blk)) (hk : Apart z s) :
    Apart z (s.sendBlocks j id ring p ty st l) := by
  unfold State.sendBlocks
  try dsimp only
  repeat' first
    | with_reducible (first | exact hk | assumption | apply Apart.ite | apply State.emit_apart)
    | fail_if_no_progress with_reducible apply Apart.mk_upd
    | (intro _ _ _; try dsimp only)
    | intro _
    | split

theorem State.deliver_apart {z s : State} (j : Job) (id : Nat) (gs : List Nat) (st b : Nat) (v : Blk) (hk : Apart z s) :
    Apart z (s.deliver j id gs st b v) := by
  unfold State.deliver
  try dsimp only
  repeat' first
    | with_reducible (first | exact hk | assumption | apply Apart.ite | apply State.setQu_apart | apply State.addSat_apart | exact R.rdxJCnt_far _ | exact R.rdxSCntSpill_far _)
    | fail_if_no_progress with_reducible apply Apart.mk_upd
    | (intro _ _ _; try dsimp only)
    | intro _
    | split

theorem State.forceSpill_apart {z s : State} (j : Job) (id st b : Nat) (v : Blk) (hk : Apart z s) :
    Apart z (s.forceSpill j id st b v).2 := by
  unfold State.forceSpill
  try dsimp only
  repeat' first
    | with_reducible (first | exact hk | assumption | apply Apart.ite | apply State.ptbSpill_apart)
    | fail_if_no_progress with_reducible apply Apart.mk_upd
    | (intro _ _ _; try dsimp only)
    | intro _
    | split

theorem State.forceSpills_apart {z s : State} (j : Job) (id : Nat) (l : List (Nat × Nat × Blk)) (hk : Apart z s) :
    Apart z (s.forceSpills j id l).2 := by
  induction l generalizing s with
  | nil => exact hk
  | cons d t ih => exact ih (State.forceSpill_apart j id d.1 d.2.1 d.2.2 hk)

theorem State.deliverAlone_apart {z s : State} (j : Job) (id : Nat) (gs : List Nat) (b st : Nat) (n : Nat) (hk : Apart z s) :
    Apart z (s.deliverAlone j id gs b st n) := by
  induction n generalizing s st with
  | zero => exact hk
  | succ n ih =>
    unfold State.deliverAlone
    try dsimp only
    repeat' first
      | with_reducible (first | exact hk | assumption | apply Apart.ite | apply State.forceSpill_apart | apply State.deliver_apart | apply ih)
      | fail_if_no_progress with_reducible apply Apart.mk_upd
      | (intro _ _ _; try dsimp only)
      | intro _
      | split

theorem State.countAdded_apart {z s : State} (n : Nat) (hk : Apart z s) :
    Apart z (s.countAdded n) := by
  unfold State.countAdded
  try dsimp only
  repeat' first
    | with_reducible (first | exact hk | assumption | apply Apart.ite | apply State.setReg_apart | exact R.rdxCntAdd_far)
    | fail_if_no_progress with_reducible apply Apart.mk_upd
    | (intro _ _ _; try dsimp only)
    | intro _
    | split

theorem State.syncJobs_apart {z s : State} (hk : Apart z s) :
    Apart z s.syncJobs := by
  unfold State.syncJobs
  try dsimp only
  repeat' first
    | with_reducible (first | exact hk | assumption | apply Apart.ite | apply State.setReg_apart | apply State.forAll_apart | apply State.syncQuay_apart | exact R.rdxJobsOpen_far | apply Apart.foldl | apply Apart.foldl_fst | apply Apart.foldl_snd)
    | fail_if_no_progress with_reducible apply Apart.mk_upd
    | (intro _ _ _; try dsimp only)
    | intro _
    | split

theorem State.freeJob_apart {z s : State} (id : Nat) (hk : Apart z s) :
    Apart z (s.freeJob id) := by
  unfold State.freeJob
  try dsimp only
  repeat' first
    | with_reducible (first | exact hk | assumption | apply Apart.ite | apply State.setReg_apart | apply State.syncJobs_apart | exact R.rdxJStatus_far _)
    | fail_if_no_progress with_reducible apply Apart.mk_upd
    | (intro _ _ _; try dsimp only)
    | intro _
    | split

theorem State.endRjob_apart {z s : State} (id : Nat) (j : Job) (codes : List Nat) (hk : Apart z s) :
    Apart z (s.endRjob id j codes) := by
  unfold State.endRjob
  try dsimp only
  repeat' first
    | with_reducible (first | exact hk | assumption | apply Apart.ite | apply State.complete_apart | apply State.forAll_apart | apply State.rdxFault_apart | apply State.raiseFault_apart)
    | fail_if_no_progress with_reducible apply Apart.mk_upd
    | (intro _ _ _; try dsimp only)
    | intro _
    | split

theorem State.closeJob_apart {z s : State} (id : Nat) (j : Job) (codes : List Nat) (hk : Apart z s) :
    Apart z (s.closeJob id j codes) := by
  unfold State.closeJob
  try dsimp only
  repeat' first
    | with_reducible (first | exact hk | assumption | apply Apart.ite | apply State.clearGroup_apart | apply State.freeJob_apart | apply State.endRjob_apart | apply Apart.foldl | apply Apart.foldl_fst | apply Apart.foldl_snd)
    | fail_if_no_progress with_reducible apply Apart.mk_upd
    | (intro _ _ _; try dsimp only)
    | intro _
    | split

theorem State.rjob_apart {z s : State} (k : Nat) (hk : Apart z s) :
    Apart z (s.rjob k) := by
  unfold State.rjob
  try dsimp only
  repeat' first
    | with_reducible (first | exact hk | assumption | apply Apart.ite | apply State.withHead_apart | apply State.raiseRdx_apart | apply State.dispatchOut_apart | apply State.setJob_apart | apply State.setReg_apart | apply State.setFld_apart | exact R.rdxJStatus_far _)
    | fail_if_no_progress with_reducible apply Apart.mk_upd
    | (intro _ _ _; try dsimp only)
    | intro _
    | split

theorem State.beginScatter_apart {z s : State} (id : Nat) (j : Job) (ring p l : Nat) (bs : List Nat) (hk : Apart z s) :
    Apart z (s.beginScatter id j ring p l bs) := by
  unfold State.beginScatter
  try dsimp only
  repeat' first
    | with_reducible (first | exact hk | assumption | apply Apart.ite | apply State.deliverAlone_apart | apply State.sendBlocks_apart | apply Apart.foldl | apply Apart.foldl_fst | apply Apart.foldl_snd)
    | fail_if_no_progress with_reducible apply Apart.mk_upd
    | (intro _ _ _; try dsimp only)
    | intro _
    | split

theorem State.startJob_apart {z s : State} (id : Nat) (x : Errs) (hk : Apart z s) :
    Apart z (s.startJob id x) := by
  unfold State.startJob
  try dsimp only
  repeat' first
    | with_reducible (first | exact hk | assumption | apply Apart.ite | apply State.setJob_apart | apply State.syncJobs_apart | apply State.closeJob_apart | apply State.noteReads_apart | apply State.beginScatter_apart | apply Apart.foldl | apply Apart.foldl_fst | apply Apart.foldl_snd)
    | fail_if_no_progress with_reducible apply Apart.mk_upd
    | (intro _ _ _; try dsimp only)
    | intro _
    | split

theorem State.startJobs_apart {z s : State} (x : Errs) (hk : Apart z s) :
    Apart z (s.startJobs x) := by
  unfold State.startJobs
  try dsimp only
  repeat' first
    | with_reducible (first | exact hk | assumption | apply Apart.ite | apply State.startJob_apart | apply Apart.foldl | apply Apart.foldl_fst | apply Apart.foldl_snd)
    | fail_if_no_progress with_reducible apply Apart.mk_upd
    | (intro _ _ _; try dsimp only)
    | intro _
    | split

theorem State.openJob_apart {z s : State} (k : Nat) (o : Outst) (p l : Nat) (r : SealRec) (x : Errs) (hk : Apart z s) :
    Apart z (s.openJob k o p l r x) := by
  unfold State.openJob
  try dsimp only
  repeat' first
    | with_reducible (first | exact hk | assumption | apply Apart.ite | apply State.updOutst_apart | apply State.setFld_apart | apply State.setJob_apart | apply State.setReg_apart | apply State.setQu_apart | apply State.syncJobs_apart | apply State.startJob_apart | exact R.rdxSXstat_far _ | exact R.rdxJStatus_far _ | exact R.rdxJScale_far _ | exact R.rdxJCnt_far _ | apply Apart.foldl | apply Apart.foldl_fst | apply Apart.foldl_snd)
    | fail_if_no_progress with_reducible apply Apart.mk_upd
    | (intro _ _ _; try dsimp only)
    | intro _
    | split

theorem State.rjobIssue_apart {z s : State} (k : Nat) (x : Errs) (hk : Apart z s) :
    Apart z (s.rjobIssue k x) := by
  unfold State.rjobIssue
  try dsimp only
  repeat' first
    | with_reducible (first | exact hk | assumption | apply Apart.ite | apply State.rdxOut_apart | apply State.openJob_apart)
    | fail_if_no_progress with_reducible apply Apart.mk_upd
    | (intro _ _ _; try dsimp only)
    | intro _
    | split

theorem State.xreadEnd_apart {z s : State} (k : Nat) (hk : Apart z s) :
    Apart z (s.xreadEnd k) := by
  unfold State.xreadEnd
  try dsimp only
  repeat' first
    | with_reducible (first | exact hk | assumption | apply Apart.ite | apply State.rdxOut_apart | apply State.wr_apart | apply State.complete_apart | exact R.rdxSXstat_far _)
    | fail_if_no_progress with_reducible apply Apart.mk_upd
    | (intro _ _ _; try dsimp only)
    | intro _
    | split

theorem State.xreadHead_apart {z s : State} (k : Nat) (hk : Apart z s) :
    Apart z (s.xreadHead k) := by
  unfold State.xreadHead
  try dsimp only
  repeat' first
    | with_reducible (first | exact hk | assumption | apply Apart.ite | apply State.withHead_apart | apply State.raiseRdx_apart | apply State.dispatchOut_apart)
    | fail_if_no_progress with_reducible apply Apart.mk_upd
    | (intro _ _ _; try dsimp only)
    | intro _
    | split

theorem State.consume_apart {z s : State} (p i id : Nat) (hk : Apart z s) :
    Apart z (s.consume p i id) := by
  unfold State.consume
  try dsimp only
  repeat' first
    | with_reducible (first | exact hk | assumption | apply Apart.ite | apply State.setPt_apart)
    | fail_if_no_progress with_reducible apply Apart.mk_upd
    | (intro _ _ _; try dsimp only)
    | intro _
    | split

theorem State.takeScatter_apart {z s : State} (p ty : Nat) (x : Errs) (hk : Apart z s) :
    Apart z (s.takeScatter p ty x) := by
  unfold State.takeScatter
  try dsimp only
  repeat' first
    | with_reducible (first | exact hk | assumption | apply Apart.ite | apply State.noteReads_apart | apply State.consume_apart | apply State.countAdded_apart | apply State.setJob_apart | apply State.forceSpills_apart | apply State.sendBlocks_apart | apply State.deliver_apart | apply State.emit_apart | apply Apart.foldl | apply Apart.foldl_fst | apply Apart.foldl_snd)
    | fail_if_no_progress with_reducible apply Apart.mk_upd
    | (intro _ _ _; try dsimp only)
    | intro _
    | split

theorem State.takeReq_apart {z s : State} (p ty : Nat) (x : Errs) (hk : Apart z s) :
    Apart z (s.takeReq p ty x) := by
  unfold State.takeReq
  try dsimp only
  repeat' first
    | with_reducible (first | exact hk | assumption | apply Apart.ite | apply State.sendBlocks_apart | apply State.noteReads_apart | apply State.consume_apart | apply Apart.foldl | apply Apart.foldl_fst | apply Apart.foldl_snd)
    | fail_if_no_progress with_reducible apply Apart.mk_upd
    | (intro _ _ _; try dsimp only)
    | intro _
    | split

theorem State.gatherWrite_apart {z s : State} (j : Job) (id a : Nat) (b : List Byte) (bad : Bool) (hk : Apart z s) :
    Apart z (s.gatherWrite j id a b bad) := by
  unfold State.gatherWrite
  try dsimp only
  repeat' first
    | with_reducible (first | exact hk | assumption | apply Apart.ite | apply State.wrPoison_apart | apply State.wr_apart)
    | fail_if_no_progress with_reducible apply Apart.mk_upd
    | (intro _ _ _; try dsimp only)
    | intro _
    | split

theorem State.takeGather_apart {z s : State} (p : Nat) (hk : Apart z s) :
    Apart z (s.takeGather p) := by
  unfold State.takeGather
  try dsimp only
  repeat' first
    | with_reducible (first | exact hk | assumption | apply Apart.ite | apply State.consume_apart | apply State.gatherWrite_apart | apply State.setJob_apart | apply State.emit_apart | apply Apart.foldl | apply Apart.foldl_fst | apply Apart.foldl_snd)
    | fail_if_no_progress with_reducible apply Apart.mk_upd
    | (intro _ _ _; try dsimp only)
    | intro _
    | split

theorem State.gatherSend_apart {z s : State} (k : Nat) (hk : Apart z s) :
    Apart z (s.gatherSend k) := by
  unfold State.gatherSend
  try dsimp only
  repeat' first
    | with_reducible (first | exact hk | assumption | apply Apart.ite | apply State.setJob_apart | apply State.emit_apart)
    | fail_if_no_progress with_reducible apply Apart.mk_upd
    | (intro _ _ _; try dsimp only)
    | intro _
    | split

theorem State.jobClose_apart {z s : State} (id : Nat) (hk : Apart z s) :
    Apart z (s.jobClose id) := by
  unfold State.jobClose
  try dsimp only
  repeat' first
    | with_reducible (first | exact hk | assumption | apply Apart.ite | apply State.closeJob_apart)
    | fail_if_no_progress with_reducible apply Apart.mk_upd
    | (intro _ _ _; try dsimp only)
    | intro _
    | split

theorem State.jobTimeout_apart {z s : State} (id : Nat) (hk : Apart z s) :
    Apart z (s.jobTimeout id) := by
  unfold State.jobTimeout
  try dsimp only
  repeat' first
    | with_reducible (first | exact hk | assumption | apply Apart.ite | apply State.setRg_apart | apply State.freeJob_apart | apply State.endRjob_apart | apply Apart.foldl | apply Apart.foldl_fst | apply Apart.foldl_snd)
    | fail_if_no_progress with_reducible apply Apart.mk_upd
    | (intro _ _ _; try dsimp only)
    | intro _
    | split

end Sys2Proof.Machine
end

