-- ==== Sys2Proof/Laws/ApartKvp.lean ====
section
/-! SUPPORT. What the operations of Machine/Kvp.lean leave to the Lockkeeper, the weave and the SEC (Laws/Apart.lean). -/

namespace Sys2Proof.Machine

set_option linter.unusedTactic false
set_option linter.unreachableTactic false
set_option linter.unusedSimpArgs false

theorem State.setKv_apart {z s : State} (k : Nat) (c : Kvp) (hk : Apart z s) :
    Apart z (s.setKv k c) := by
  unfold State.setKv
  try dsimp only
  repeat' first
    | with_reducible (first | exact hk | assumption | apply Apart.ite)
    | fail_if_no_progress with_reducible apply Apart.mk_upd
    | (intro _ _ _; try dsimp only)
    | intro _
    | split

theorem State.setPage_apart {z s : State} (k p refs moors : Nat) (pend : Bool) (hk : Apart z s) :
    Apart z (s.setPage k p refs moors pend) := by
  unfold State.setPage
  try dsimp only
  repeat' first
    | with_reducible (first | exact hk | assumption | apply Apart.ite | apply State.wr_apart)
    | fail_if_no_progress with_reducible apply Apart.mk_upd
    | (intro _ _ _; try dsimp only)
    | intro _
    | split

theorem State.setSeq_apart {z s : State} (k q len : Nat) (live : Bool) (hk : Apart z s) :
    Apart z (s.setSeq k q len live) := by
  unfold State.setSeq
  try dsimp only
  repeat' first
    | with_reducible (first | exact hk | assumption | apply Apart.ite | apply State.wr_apart)
    | fail_if_no_progress with_reducible apply Apart.mk_upd
    | (intro _ _ _; try dsimp only)
    | intro _
    | split

theorem State.setEntry_apart {z s : State} (k q i p : Nat) (hk : Apart z s) :
    Apart z (s.setEntry k q i p) := by
  unfold State.setEntry
  try dsimp only
  repeat' first
    | with_reducible (first | exact hk | assumption | apply Apart.ite | apply State.wrN_apart)
    | fail_if_no_progress with_reducible apply Apart.mk_upd
    | (intro _ _ _; try dsimp only)
    | intro _
    | split

theorem State.setFreePages_apart {z s : State} (k n : Nat) (hk : Apart z s) :
    Apart z (s.setFreePages k n) := by
  unfold State.setFreePages
  try dsimp only
  repeat' first
    | with_reducible (first | exact hk | assumption | apply Apart.ite | apply State.setFld_apart | exact R.kvpSStatus_far _ _)
    | fail_if_no_progress with_reducible apply Apart.mk_upd
    | (intro _ _ _; try dsimp only)
    | intro _
    | split

theorem State.freePage_apart {z s : State} (k p : Nat) (hk : Apart z s) :
    Apart z (s.freePage k p) := by
  unfold State.freePage
  try dsimp only
  repeat' first
    | with_reducible (first | exact hk | assumption | apply Apart.ite | apply State.setPage_apart | apply State.wrN_apart | apply State.setKv_apart | apply State.setFreePages_apart)
    | fail_if_no_progress with_reducible apply Apart.mk_upd
    | (intro _ _ _; try dsimp only)
    | intro _
    | split

theorem State.takePage_apart {z s : State} (k : Nat) (hk : Apart z s) :
    ∀ p t, s.takePage k = some (p, t) → Apart z t := by
  intro p t e
  unfold State.takePage at e
  dsimp only at e
  split at e
  · cases e
  · cases e
    repeat' first
      | with_reducible (first | exact hk | assumption | apply Apart.ite | apply State.setKv_apart | apply State.setPage_apart | apply State.setFreePages_apart)
      | fail_if_no_progress with_reducible apply Apart.mk_upd
      | (intro _ _ _; try dsimp only)
      | intro _
      | split

theorem State.dropRef_apart {z s : State} (k p : Nat) (hk : Apart z s) :
    Apart z (s.dropRef k p) := by
  unfold State.dropRef
  try dsimp only
  repeat' first
    | with_reducible (first | exact hk | assumption | apply Apart.ite | apply State.setPage_apart | apply State.freePage_apart)
    | fail_if_no_progress with_reducible apply Apart.mk_upd
    | (intro _ _ _; try dsimp only)
    | intro _
    | split

theorem State.moor_apart {z s : State} (k p : Nat) (hk : Apart z s) :
    Apart z (s.moor k p) := by
  unfold State.moor
  try dsimp only
  repeat' first
    | with_reducible (first | exact hk | assumption | apply Apart.ite | apply State.setPage_apart)
    | fail_if_no_progress with_reducible apply Apart.mk_upd
    | (intro _ _ _; try dsimp only)
    | intro _
    | split

theorem State.unmoor_apart {z s : State} (k p : Nat) (hk : Apart z s) :
    Apart z (s.unmoor k p) := by
  unfold State.unmoor
  try dsimp only
  repeat' first
    | with_reducible (first | exact hk | assumption | apply Apart.ite | apply State.freePage_apart | apply State.setPage_apart)
    | fail_if_no_progress with_reducible apply Apart.mk_upd
    | (intro _ _ _; try dsimp only)
    | intro _
    | split

theorem State.countCopy_apart {z s : State} (k n : Nat) (hk : Apart z s) :
    Apart z (s.countCopy k n) := by
  unfold State.countCopy
  try dsimp only
  repeat' first
    | with_reducible (first | exact hk | assumption | apply Apart.ite | apply State.setKv_apart | apply State.setReg_apart | exact R.kvpSCntCopy_far _ _)
    | fail_if_no_progress with_reducible apply Apart.mk_upd
    | (intro _ _ _; try dsimp only)
    | intro _
    | split

theorem State.copyPiece_apart {z s : State} (k src dst n : Nat) (hk : Apart z s) :
    Apart z (s.copyPiece k src dst n).1 := by
  unfold State.copyPiece
  try dsimp only
  repeat' first
    | with_reducible (first | exact hk | assumption | apply Apart.ite | apply State.countCopy_apart | apply State.wrPoison_apart | apply State.wr_apart)
    | fail_if_no_progress with_reducible apply Apart.mk_upd
    | (intro _ _ _; try dsimp only)
    | intro _
    | split

theorem State.copyPieces_apart {z s : State} (k : Nat) (l : List (Nat × Nat × Nat)) (hk : Apart z s) :
    Apart z (s.copyPieces k l).1 := by
  unfold State.copyPieces
  try dsimp only
  repeat' first
    | with_reducible (first | exact hk | assumption | apply Apart.ite | apply State.copyPiece_apart | apply Apart.foldl | apply Apart.foldl_fst | apply Apart.foldl_snd)
    | fail_if_no_progress with_reducible apply Apart.mk_upd
    | (intro _ _ _; try dsimp only)
    | intro _
    | split

theorem State.metaPoison_apart {z s : State} (k : Nat) (hk : Apart z s) :
    Apart z (s.metaPoison k) := by
  unfold State.metaPoison
  try dsimp only
  repeat' first
    | with_reducible (first | exact hk | assumption | apply Apart.ite | apply State.setFld_apart | exact R.kvpSStatus_far _ _)
    | fail_if_no_progress with_reducible apply Apart.mk_upd
    | (intro _ _ _; try dsimp only)
    | intro _
    | split

theorem State.raiseKv_apart {z s : State} (k x i code : Nat) (hk : Apart z s) :
    Apart z (s.raiseKv k x i code) := by
  unfold State.raiseKv
  try dsimp only
  repeat' first
    | with_reducible (first | exact hk | assumption | apply Apart.ite | apply State.kvpErr_apart | apply State.raiseFault_apart)
    | fail_if_no_progress with_reducible apply Apart.mk_upd
    | (intro _ _ _; try dsimp only)
    | intro _
    | split

theorem State.growPages_apart {z s : State} (k q i n : Nat) (hk : Apart z s) : ∀ t, s.growPages k q i n = some t → Apart z t := by
  induction n generalizing s i with
  | zero => intro t e; cases e; exact hk
  | succ n ih =>
    intro t e
    unfold State.growPages at e
    split at e
    · cases e
    · rename_i p u e'
      exact ih _ (State.setEntry_apart k q i p (State.takePage_apart k hk _ _ e')) _ e

theorem State.undefineRows_apart {z s : State} (k q len ntok : Nat) (hk : Apart z s) :
    Apart z (s.undefineRows k q len ntok) := by
  unfold State.undefineRows
  try dsimp only
  repeat' first
    | with_reducible (first | exact hk | assumption | apply Apart.ite | apply State.forAll_apart | apply State.lose_apart)
    | fail_if_no_progress with_reducible apply Apart.mk_upd
    | (intro _ _ _; try dsimp only)
    | intro _
    | split

theorem State.extendSeq_apart {z s : State} (k ntok q : Nat) (hk : Apart z s) :
    ∀ t b, s.extendSeq k ntok q = some (t, b) → Apart z t := by
  intro t b e
  unfold State.extendSeq at e
  dsimp only at e
  split at e
  · cases e
  · rename_i u bad e'
    have hu : Apart z u := by
      repeat' split at e'
      all_goals first
        | (cases e'; done)
        | (cases e'; exact hk)
        | (cases e'
           exact State.count_apart _ _ (by first | exact R.kvpSCntCow_far _ _) (State.dropRef_apart k _ (State.setEntry_apart k q _ _ (State.copyPieces_apart k _
             (State.takePage_apart k hk _ _ (by assumption))))))
    split at e
    · cases e
    · rename_i v ev
      cases e
      exact State.undefineRows_apart k q _ ntok (State.setSeq_apart k q _ true (State.growPages_apart k q _ _ hu _ ev))

theorem State.extendAll_apart {z s : State} (k ntok : Nat) (l : List Nat) (hk : Apart z s) :
    ∀ t b, s.extendAll k ntok l = some (t, b) → Apart z t := by
  induction l generalizing s with
  | nil => intro t b e; cases e; exact hk
  | cons q l ih =>
    intro t b e
    unfold State.extendAll at e
    split at e
    · cases e
    · rename_i u c ec
      have hu := State.extendSeq_apart k ntok q hk _ _ ec
      cases h : u.extendAll k ntok l with
      | none => rw [h] at e; cases e
      | some p => rw [h] at e; cases e; exact ih hu _ _ h

theorem State.kvWrite_apart {z s : State} (k : Nat) (d : KvD) (l : List Nat) (hk : Apart z s) :
    Apart z (s.kvWrite k d l).1 := by
  unfold State.kvWrite
  try dsimp only
  repeat' first
    | with_reducible (first | exact hk | assumption | apply Apart.ite | apply State.copyPieces_apart)
    | fail_if_no_progress with_reducible apply Apart.mk_upd
    | (intro _ _ _; try dsimp only)
    | intro _
    | split

theorem State.kvShare_apart {z s : State} (k : Nat) (d : KvD) (hk : Apart z s) :
    Apart z (s.kvShare k d) := by
  unfold State.kvShare
  try dsimp only
  repeat' first
    | with_reducible (first | exact hk | assumption | apply Apart.ite | apply State.forAll_apart | apply State.setEntry_apart | apply State.setPage_apart | apply State.setSeq_apart)
    | fail_if_no_progress with_reducible apply Apart.mk_upd
    | (intro _ _ _; try dsimp only)
    | intro _
    | split

theorem State.kvFree_apart {z s : State} (k q : Nat) (hk : Apart z s) :
    Apart z (s.kvFree k q) := by
  unfold State.kvFree
  try dsimp only
  repeat' first
    | with_reducible (first | exact hk | assumption | apply Apart.ite | apply State.forAll_apart | apply State.dropRef_apart | apply State.setEntry_apart | apply State.setSeq_apart)
    | fail_if_no_progress with_reducible apply Apart.mk_upd
    | (intro _ _ _; try dsimp only)
    | intro _
    | split

theorem State.kvBaskets_apart {z s : State} (k : Nat) (d : KvD) (hk : Apart z s) :
    Apart z (s.kvBaskets k d) := by
  unfold State.kvBaskets
  try dsimp only
  repeat' first
    | with_reducible (first | exact hk | assumption | apply Apart.ite | apply State.wr_apart | apply State.forAll_apart | apply Apart.foldl | apply Apart.foldl_fst | apply Apart.foldl_snd)
    | fail_if_no_progress with_reducible apply Apart.mk_upd
    | (intro _ _ _; try dsimp only)
    | intro _
    | split

theorem State.syncKv_apart {z s : State} (k : Nat) (hk : Apart z s) :
    Apart z (s.syncKv k) := by
  unfold State.syncKv
  try dsimp only
  repeat' first
    | with_reducible (first | exact hk | assumption | apply Apart.ite | apply State.setFld_apart | exact R.kvpSStatus_far _ _)
    | fail_if_no_progress with_reducible apply Apart.mk_upd
    | (intro _ _ _; try dsimp only)
    | intro _
    | split

theorem State.kvExtend_apart {z s : State} (k : Nat) (d : KvD) (l : List Nat) (hk : Apart z s) : Apart z (s.kvExtend k d l).1 := by
  unfold State.kvExtend
  cases h : s.extendAll k d.ntok l with
  | none => exact hk
  | some p => exact State.extendAll_apart k d.ntok l hk _ _ h

theorem State.kvEffect_apart {z s : State} (k opc : Nat) (d : KvD) (l : List Nat) (hk : Apart z s) :
    Apart z (s.kvEffect k opc d l).1 := by
  unfold State.kvEffect
  try dsimp only
  repeat' first
    | with_reducible (first | exact hk | assumption | apply Apart.ite | apply State.kvExtend_apart | apply State.kvWrite_apart | apply State.kvShare_apart | apply State.forAll_apart | apply State.kvFree_apart | apply State.kvBaskets_apart)
    | fail_if_no_progress with_reducible apply Apart.mk_upd
    | (intro _ _ _; try dsimp only)
    | intro _
    | split

theorem State.issueKv_apart {z s : State} (k : Nat) (n : Nat) (hk : Apart z s) :
    Apart z (s.issueKv k n) := by
  induction n generalizing s  with
  | zero => exact hk
  | succ n ih =>
    unfold State.issueKv
    try dsimp only
    repeat' first
      | with_reducible (first | exact hk | assumption | apply Apart.ite | apply State.metaPoison_apart | apply State.kvpErr_apart | apply State.faultOut_apart | apply State.forAll_apart | apply State.moor_apart | apply State.kvEffect_apart | apply State.updOutst_apart | apply State.syncKv_apart | apply ih)
      | fail_if_no_progress with_reducible apply Apart.mk_upd
      | (intro _ _ _; try dsimp only)
      | intro _
      | split

theorem State.kvOp_apart {z s : State} (k x opc : Nat) (hk : Apart z s) :
    Apart z (s.kvOp k x opc) := by
  unfold State.kvOp
  try dsimp only
  repeat' first
    | with_reducible (first | exact hk | assumption | apply Apart.ite | apply State.withHead_apart | apply State.raiseKv_apart | apply State.dispatchOut_apart | apply State.issueKv_apart)
    | fail_if_no_progress with_reducible apply Apart.mk_upd
    | (intro _ _ _; try dsimp only)
    | intro _
    | split

theorem State.gatherPage_apart {z s : State} (k : Nat) (hk : Apart z s) :
    Apart z (s.gatherPage k) := by
  unfold State.gatherPage
  try dsimp only
  repeat' first
    | with_reducible (first | exact hk | assumption | apply Apart.ite | apply State.copyPieces_apart | apply State.metaPoison_apart | apply State.unmoor_apart | apply State.updOutst_apart)
    | fail_if_no_progress with_reducible apply Apart.mk_upd
    | (intro _ _ _; try dsimp only)
    | intro _
    | split

theorem State.kvComplete_apart {z s : State} (k : Nat) (hk : Apart z s) :
    Apart z (s.kvComplete k) := by
  unfold State.kvComplete
  try dsimp only
  repeat' first
    | with_reducible (first | exact hk | assumption | apply Apart.ite | apply State.complete_apart | apply State.kvpErr_apart | apply State.raiseFault_apart | apply State.syncKv_apart | apply State.issueKv_apart)
    | fail_if_no_progress with_reducible apply Apart.mk_upd
    | (intro _ _ _; try dsimp only)
    | intro _
    | split

theorem State.kvInit_apart {z s : State} (k : Nat) (hk : Apart z s) :
    Apart z (s.kvInit k) := by
  unfold State.kvInit
  try dsimp only
  repeat' first
    | with_reducible (first | exact hk | assumption | apply Apart.ite | apply State.setFld_apart | apply State.wr_apart | apply State.setKv_apart | apply State.setReg_apart | exact R.kvpSStatus_far _ _ | exact R.kvpSCntCow_far _ _ | exact R.kvpSCntCopy_far _ _)
    | fail_if_no_progress with_reducible apply Apart.mk_upd
    | (intro _ _ _; try dsimp only)
    | intro _
    | split

theorem State.kvCmd_apart {z s : State} (m : Master) (rivals : List Master) (d k : Nat) (body : State → State) (hbody : ∀ u, Apart z u → Apart z (body u)) (hk : Apart z s) :
    Apart z (s.kvCmd m rivals d k body) := by
  unfold State.kvCmd
  try dsimp only
  repeat' first
    | with_reducible (first | exact hk | assumption | apply Apart.ite | apply State.command_apart | apply State.answer_apart | exact R.kvpSCmd_far _ _ | apply hbody)
    | fail_if_no_progress with_reducible apply Apart.mk_upd
    | (intro _ _ _; try dsimp only)
    | intro _
    | split

end Sys2Proof.Machine
end

