-- ==== Sys2Proof/Laws/ApartStack.lean ====
section
/-! SUPPORT. What the operations of Machine/Stack.lean leave to the Lockkeeper, the weave and the SEC (Laws/Apart.lean). -/

namespace Sys2Proof.Machine

set_option linter.unusedTactic false
set_option linter.unreachableTactic false
set_option linter.unusedSimpArgs false

theorem State.sdropIssue_apart {z s : State} (k : Nat) (hk : Apart z s) :
    Apart z (s.sdropIssue k) := by
  unfold State.sdropIssue
  try dsimp only
  repeat' first
    | with_reducible (first | exact hk | assumption | apply Apart.ite | apply State.mapFrames_apart | apply State.setAs_apart | apply State.syncAsu_apart | apply State.complete_apart)
    | fail_if_no_progress with_reducible apply Apart.mk_upd
    | (intro _ _ _; try dsimp only)
    | intro _
    | split

end Sys2Proof.Machine
end

