-- ==== Sys2Proof/Laws/ApartTcx.lean ====
section
/-! SUPPORT. What the operations of Machine/Tcx.lean leave to the Lockkeeper, the weave and the SEC (Laws/Apart.lean). -/

namespace Sys2Proof.Machine

set_option linter.unusedTactic false
set_option linter.unreachableTactic false
set_option linter.unusedSimpArgs false

theorem State.setHome_apart {z s : State} (h : Nat) (v : Home) (hk : Apart z s) :
    Apart z (s.setHome h v) := by
  unfold State.setHome
  try dsimp only
  repeat' first
    | with_reducible (first | exact hk | assumption | apply Apart.ite)
    | fail_if_no_progress with_reducible apply Apart.mk_upd
    | (intro _ _ _; try dsimp only)
    | intro _
    | split

theorem State.addWatch_apart {z s : State} (h l c : Nat) (hk : Apart z s) :
    Apart z (s.addWatch h l c) := by
  unfold State.addWatch
  try dsimp only
  repeat' first
    | with_reducible (first | exact hk | assumption | apply Apart.ite | apply State.setHome_apart)
    | fail_if_no_progress with_reducible apply Apart.mk_upd
    | (intro _ _ _; try dsimp only)
    | intro _
    | split

theorem State.setThr_apart {z s : State} (t : Nat) (v : Thread) (hk : Apart z s) :
    Apart z (s.setThr t v) := by
  unfold State.setThr
  try dsimp only
  repeat' first
    | with_reducible (first | exact hk | assumption | apply Apart.ite)
    | fail_if_no_progress with_reducible apply Apart.mk_upd
    | (intro _ _ _; try dsimp only)
    | intro _
    | split

theorem State.setT_apart {z s : State} (t v : Nat) (hk : Apart z s) :
    Apart z (s.setT t v) := by
  unfold State.setT
  try dsimp only
  repeat' first
    | with_reducible (first | exact hk | assumption | apply Apart.ite | apply State.setFld_apart | exact thrReg_far _)
    | fail_if_no_progress with_reducible apply Apart.mk_upd
    | (intro _ _ _; try dsimp only)
    | intro _
    | split

theorem State.go_apart {z s : State} (t v : Nat) (hk : Apart z s) :
    Apart z (s.go t v) := by
  unfold State.go
  try dsimp only
  repeat' first
    | with_reducible (first | exact hk | assumption | apply Apart.ite | apply State.setT_apart)
    | fail_if_no_progress with_reducible apply Apart.mk_upd
    | (intro _ _ _; try dsimp only)
    | intro _
    | split

theorem State.setTreg_apart {z s : State} (t i v : Nat) (hk : Apart z s) :
    Apart z (s.setTreg t i v) := by
  unfold State.setTreg
  try dsimp only
  repeat' first
    | with_reducible (first | exact hk | assumption | apply Apart.ite | apply State.setThr_apart)
    | fail_if_no_progress with_reducible apply Apart.mk_upd
    | (intro _ _ _; try dsimp only)
    | intro _
    | split

theorem State.trap_apart {z s : State} (t cause tval : Nat) (hk : Apart z s) :
    Apart z (s.trap t cause tval) := by
  unfold State.trap
  try dsimp only
  repeat' first
    | with_reducible (first | exact hk | assumption | apply Apart.ite | apply State.setT_apart | apply State.setFld_apart | apply State.setTreg_apart | exact thrReg_far _)
    | fail_if_no_progress with_reducible apply Apart.mk_upd
    | (intro _ _ _; try dsimp only)
    | intro _
    | split

theorem State.lead_apart {z s : State} (t : Nat) (l : List (Nat × Nat)) (hk : Apart z s) :
    Apart z (s.lead t l) := by
  unfold State.lead
  try dsimp only
  repeat' first
    | with_reducible (first | exact hk | assumption | apply Apart.ite | apply State.setTreg_apart | apply State.trap_apart | apply Apart.foldl | apply Apart.foldl_fst | apply Apart.foldl_snd)
    | fail_if_no_progress with_reducible apply Apart.mk_upd
    | (intro _ _ _; try dsimp only)
    | intro _
    | split

theorem State.retire_apart {z s : State} (t rd v : Nat) (hk : Apart z s) :
    Apart z (s.retire t rd v) := by
  unfold State.retire
  try dsimp only
  repeat' first
    | with_reducible (first | exact hk | assumption | apply Apart.ite | apply State.setTreg_apart | apply State.setThr_apart | apply State.go_apart)
    | fail_if_no_progress with_reducible apply Apart.mk_upd
    | (intro _ _ _; try dsimp only)
    | intro _
    | split

theorem State.tWait_apart {z s : State} (t w word : Nat) (hk : Apart z s) :
    Apart z (s.tWait t w word) := by
  unfold State.tWait
  try dsimp only
  repeat' first
    | with_reducible (first | exact hk | assumption | apply Apart.ite | apply State.setThr_apart | apply State.go_apart)
    | fail_if_no_progress with_reducible apply Apart.mk_upd
    | (intro _ _ _; try dsimp only)
    | intro _
    | split

theorem State.setL1_apart {z s : State} (c : Nat) (l : List L1Line) (hk : Apart z s) :
    Apart z (s.setL1 c l) := by
  unfold State.setL1
  try dsimp only
  repeat' first
    | with_reducible (first | exact hk | assumption | apply Apart.ite)
    | fail_if_no_progress with_reducible apply Apart.mk_upd
    | (intro _ _ _; try dsimp only)
    | intro _
    | split

theorem State.flushLine_apart {z s : State} (e : L1Line) (own : Option Nat) (hk : Apart z s) :
    Apart z (s.flushLine e own) := by
  unfold State.flushLine
  try dsimp only
  repeat' first
    | with_reducible (first | exact hk | assumption | apply Apart.ite | apply State.wrMask_apart)
    | fail_if_no_progress with_reducible apply Apart.mk_upd
    | (intro _ _ _; try dsimp only)
    | intro _
    | split

theorem State.l1Room_apart {z s : State} (c : Nat) (hk : Apart z s) :
    Apart z (s.l1Room c) := by
  unfold State.l1Room
  try dsimp only
  repeat' first
    | with_reducible (first | exact hk | assumption | apply Apart.ite | apply State.draw_apart | apply State.flushLine_apart | apply State.setL1_apart)
    | fail_if_no_progress with_reducible apply Apart.mk_upd
    | (intro _ _ _; try dsimp only)
    | intro _
    | split

theorem State.putLine_apart {z s : State} (c : Nat) (e : L1Line) (hk : Apart z s) :
    Apart z (s.putLine c e) := by
  unfold State.putLine
  try dsimp only
  repeat' first
    | with_reducible (first | exact hk | assumption | apply Apart.ite | apply State.setL1_apart | apply State.l1Room_apart)
    | fail_if_no_progress with_reducible apply Apart.mk_upd
    | (intro _ _ _; try dsimp only)
    | intro _
    | split

theorem State.fill_apart {z s : State} (c l : Nat) (hk : Apart z s) :
    Apart z (s.fill c l) := by
  unfold State.fill
  try dsimp only
  repeat' first
    | with_reducible (first | exact hk | assumption | apply Apart.ite | apply State.putLine_apart | apply State.noteCxl_apart)
    | fail_if_no_progress with_reducible apply Apart.mk_upd
    | (intro _ _ _; try dsimp only)
    | intro _
    | split

theorem State.fillAhead_apart {z s : State} (c l : Nat) (hk : Apart z s) :
    Apart z (s.fillAhead c l) := by
  unfold State.fillAhead
  try dsimp only
  repeat' first
    | with_reducible (first | exact hk | assumption | apply Apart.ite | apply State.setL1_apart | apply State.draw_apart)
    | fail_if_no_progress with_reducible apply Apart.mk_upd
    | (intro _ _ _; try dsimp only)
    | intro _
    | split

theorem State.sayLine_apart {z s : State} (c l : Nat) (hk : Apart z s) :
    Apart z (s.sayLine c l) := by
  unfold State.sayLine
  try dsimp only
  repeat' first
    | with_reducible (first | exact hk | assumption | apply Apart.ite | apply State.putLine_apart | apply State.addSat_apart | exact R.cxtErr_far)
    | fail_if_no_progress with_reducible apply Apart.mk_upd
    | (intro _ _ _; try dsimp only)
    | intro _
    | split

theorem State.cachedLoad_apart {z s : State} (c a n : Nat) (hk : Apart z s) :
    Apart z (s.cachedLoad c a n) := by
  unfold State.cachedLoad
  try dsimp only
  repeat' first
    | with_reducible (first | exact hk | assumption | apply Apart.ite | apply State.forAll_apart | apply State.sayLine_apart | apply State.fill_apart | apply State.answer_apart)
    | fail_if_no_progress with_reducible apply Apart.mk_upd
    | (intro _ _ _; try dsimp only)
    | intro _
    | split

theorem State.cachedStore_apart {z s : State} (c a : Nat) (b : List Byte) (hk : Apart z s) :
    Apart z (s.cachedStore c a b) := by
  unfold State.cachedStore
  try dsimp only
  repeat' first
    | with_reducible (first | exact hk | assumption | apply Apart.ite | apply State.forAll_apart | apply State.putLine_apart | apply State.answer_apart)
    | fail_if_no_progress with_reducible apply Apart.mk_upd
    | (intro _ _ _; try dsimp only)
    | intro _
    | split

theorem State.release_apart {z s : State} (t a n : Nat) (hk : Apart z s) :
    Apart z (s.release t a n) := by
  unfold State.release
  try dsimp only
  repeat' first
    | with_reducible (first | exact hk | assumption | apply Apart.ite | apply State.forAll_apart | apply State.flushLine_apart | apply State.setL1_apart)
    | fail_if_no_progress with_reducible apply Apart.mk_upd
    | (intro _ _ _; try dsimp only)
    | intro _
    | split

theorem State.acquire_apart {z s : State} (t a n : Nat) (hk : Apart z s) :
    Apart z (s.acquire t a n) := by
  unfold State.acquire
  try dsimp only
  repeat' first
    | with_reducible (first | exact hk | assumption | apply Apart.ite | apply State.setL1_apart)
    | fail_if_no_progress with_reducible apply Apart.mk_upd
    | (intro _ _ _; try dsimp only)
    | intro _
    | split

theorem State.dropLine_apart {z s : State} (t l : Nat) (hk : Apart z s) :
    Apart z (s.dropLine t l) := by
  unfold State.dropLine
  try dsimp only
  repeat' first
    | with_reducible (first | exact hk | assumption | apply Apart.ite | apply State.flushLine_apart | apply State.setL1_apart)
    | fail_if_no_progress with_reducible apply Apart.mk_upd
    | (intro _ _ _; try dsimp only)
    | intro _
    | split

theorem State.saveThread_apart {z s : State} (t : Nat) (numbered : Bool) (hk : Apart z s) :
    Apart z (s.saveThread t numbered) := by
  unfold State.saveThread
  try dsimp only
  repeat' first
    | with_reducible (first | exact hk | assumption | apply Apart.ite | apply State.wr_apart | apply State.wrN_apart)
    | fail_if_no_progress with_reducible apply Apart.mk_upd
    | (intro _ _ _; try dsimp only)
    | intro _
    | split

theorem State.nextOp_apart {z s : State} (t : Nat) (hk : Apart z s) :
    Apart z (s.nextOp t) := by
  unfold State.nextOp
  try dsimp only
  repeat' first
    | with_reducible (first | exact hk | assumption | apply Apart.ite | apply State.setThr_apart | apply State.setFld_apart | exact thrReg_far _)
    | fail_if_no_progress with_reducible apply Apart.mk_upd
    | (intro _ _ _; try dsimp only)
    | intro _
    | split

theorem State.keep_apart {z s : State} (agent t v : Nat) (hk : Apart z s) :
    Apart z (s.keep agent t v) := by
  unfold State.keep
  try dsimp only
  repeat' first
    | with_reducible (first | exact hk | assumption | apply Apart.ite)
    | fail_if_no_progress with_reducible apply Apart.mk_upd
    | (intro _ _ _; try dsimp only)
    | intro _
    | split

theorem State.sendPoint_apart {z s : State} (t : Nat) (rel : Bool) (hk : Apart z s) :
    Apart z (s.sendPoint t rel) := by
  unfold State.sendPoint
  try dsimp only
  repeat' first
    | with_reducible (first | exact hk | assumption | apply Apart.ite | apply State.nextOp_apart | apply State.saveThread_apart | apply State.release_apart)
    | fail_if_no_progress with_reducible apply Apart.mk_upd
    | (intro _ _ _; try dsimp only)
    | intro _
    | split

theorem State.retreat_apart {z s : State} (t : Nat) (hk : Apart z s) :
    Apart z (s.retreat t) := by
  unfold State.retreat
  try dsimp only
  repeat' first
    | with_reducible (first | exact hk | assumption | apply Apart.ite | apply State.saveThread_apart | apply State.release_apart)
    | fail_if_no_progress with_reducible apply Apart.mk_upd
    | (intro _ _ _; try dsimp only)
    | intro _
    | split

theorem State.prefetch_apart {z s : State} (t k a : Nat) (hk : Apart z s) :
    Apart z (s.prefetch t k a) := by
  unfold State.prefetch
  try dsimp only
  repeat' first
    | with_reducible (first | exact hk | assumption | apply Apart.ite | apply State.forAll_apart | apply State.fillAhead_apart)
    | fail_if_no_progress with_reducible apply Apart.mk_upd
    | (intro _ _ _; try dsimp only)
    | intro _
    | split

theorem State.setIl1_apart {z s : State} (c : Nat) (l : List Nat) (hk : Apart z s) :
    Apart z (s.setIl1 c l) := by
  unfold State.setIl1
  try dsimp only
  repeat' first
    | with_reducible (first | exact hk | assumption | apply Apart.ite)
    | fail_if_no_progress with_reducible apply Apart.mk_upd
    | (intro _ _ _; try dsimp only)
    | intro _
    | split

theorem State.ifill_apart {z s : State} (c l : Nat) (hk : Apart z s) :
    Apart z (s.ifill c l) := by
  unfold State.ifill
  try dsimp only
  repeat' first
    | with_reducible (first | exact hk | assumption | apply Apart.ite | apply State.noteCxl_apart | apply State.setIl1_apart | apply State.draw_apart)
    | fail_if_no_progress with_reducible apply Apart.mk_upd
    | (intro _ _ _; try dsimp only)
    | intro _
    | split

theorem State.asThread_apart {z s : State} (t : Nat) (lead : List (Nat × Nat)) (n : Nat) (act : State → State) (hact : ∀ u, Apart z u → Apart z (act u)) (hk : Apart z s) :
    Apart z (s.asThread t lead n act) := by
  unfold State.asThread
  try dsimp only
  repeat' first
    | with_reducible (first | exact hk | assumption | apply Apart.ite | apply State.lead_apart | apply State.trap_apart | apply State.forAll_apart | apply State.ifill_apart | apply hact)
    | fail_if_no_progress with_reducible apply Apart.mk_upd
    | (intro _ _ _; try dsimp only)
    | intro _
    | split

theorem State.xritar_apart {z s : State} (t : Nat) (lead : List (Nat × Nat)) (f3 word : Nat) (unused : List Nat) (act : State → Nat → Nat → State) (hact : ∀ u x1 x2, Apart z u → Apart z (act u x1 x2)) (hk : Apart z s) :
    Apart z (s.xritar t lead f3 word unused act) := by
  unfold State.xritar
  try dsimp only
  repeat' first
    | with_reducible (first | exact hk | assumption | apply Apart.ite | apply State.asThread_apart | apply State.trap_apart | apply hact)
    | fail_if_no_progress with_reducible apply Apart.mk_upd
    | (intro _ _ _; try dsimp only)
    | intro _
    | split

theorem State.rtAcq_apart {z s : State} (t : Nat) (lead : List (Nat × Nat)) (word : Nat) (hk : Apart z s) :
    Apart z (s.rtAcq t lead word) := by
  unfold State.rtAcq
  try dsimp only
  repeat' first
    | with_reducible (first | exact hk | assumption | apply Apart.ite | apply State.xritar_apart | apply State.acquire_apart | apply State.retire_apart)
    | fail_if_no_progress with_reducible apply Apart.mk_upd
    | (intro _ _ _; try dsimp only)
    | intro _
    | split

theorem State.rtRel_apart {z s : State} (t : Nat) (lead : List (Nat × Nat)) (word : Nat) (hk : Apart z s) :
    Apart z (s.rtRel t lead word) := by
  unfold State.rtRel
  try dsimp only
  repeat' first
    | with_reducible (first | exact hk | assumption | apply Apart.ite | apply State.xritar_apart | apply State.saveThread_apart | apply State.release_apart | apply State.retire_apart)
    | fail_if_no_progress with_reducible apply Apart.mk_upd
    | (intro _ _ _; try dsimp only)
    | intro _
    | split

theorem State.rtTpost_apart {z s : State} (t : Nat) (lead : List (Nat × Nat)) (word : Nat) (hk : Apart z s) :
    Apart z (s.rtTpost t lead word) := by
  unfold State.rtTpost
  try dsimp only
  repeat' first
    | with_reducible (first | exact hk | assumption | apply Apart.ite | apply State.xritar_apart | apply State.sendPoint_apart | apply State.extPost_apart | apply State.keep_apart | apply State.retire_apart)
    | fail_if_no_progress with_reducible apply Apart.mk_upd
    | (intro _ _ _; try dsimp only)
    | intro _
    | split

theorem State.taken_apart {z s : State} (t v : Nat) (hk : Apart z s) :
    Apart z (s.taken t v) := by
  unfold State.taken
  try dsimp only
  repeat' first
    | with_reducible (first | exact hk | assumption | apply Apart.ite | apply State.acquire_apart | apply State.retire_apart)
    | fail_if_no_progress with_reducible apply Apart.mk_upd
    | (intro _ _ _; try dsimp only)
    | intro _
    | split

theorem State.takeWait_apart {z s : State} (t k c word : Nat) (hk : Apart z s) :
    Apart z (s.takeWait t k c word) := by
  unfold State.takeWait
  try dsimp only
  repeat' first
    | with_reducible (first | exact hk | assumption | apply Apart.ite | apply State.sendPoint_apart | apply State.tWait_apart | apply State.taken_apart | apply Apart.elim)
    | fail_if_no_progress with_reducible apply Apart.mk_upd
    | (intro _ _ _; try dsimp only)
    | intro _
    | split

theorem State.rtTtake_apart {z s : State} (t : Nat) (lead : List (Nat × Nat)) (word : Nat) (hk : Apart z s) :
    Apart z (s.rtTtake t lead word) := by
  unfold State.rtTtake
  apply State.xritar_apart _ _ _ _ _ _ _ hk
  intro u c d hu
  cases u.tStake t with
  | none => exact hu
  | some k => exact State.takeWait_apart _ _ _ _ hu

theorem State.ttakeServe_apart {z s : State} (k : Nat) (hk : Apart z s) :
    Apart z (s.ttakeServe k) := by
  unfold State.ttakeServe
  try dsimp only
  repeat' first
    | with_reducible (first | exact hk | assumption | apply Apart.ite | apply State.setTok_apart | apply State.ctxThrough_apart | apply State.keep_apart | apply State.taken_apart)
    | fail_if_no_progress with_reducible apply Apart.mk_upd
    | (intro _ _ _; try dsimp only)
    | intro _
    | split

theorem State.twaitRead_apart {z s : State} (t word a v : Nat) (hk : Apart z s) :
    Apart z (s.twaitRead t word a v) := by
  unfold State.twaitRead
  try dsimp only
  repeat' first
    | with_reducible (first | exact hk | assumption | apply Apart.ite | apply State.acquire_apart | apply State.retire_apart | apply State.addWatch_apart | apply State.tWait_apart)
    | fail_if_no_progress with_reducible apply Apart.mk_upd
    | (intro _ _ _; try dsimp only)
    | intro _
    | split

theorem State.rtTwait_apart {z s : State} (t : Nat) (lead : List (Nat × Nat)) (word : Nat) (hk : Apart z s) :
    Apart z (s.rtTwait t lead word) := by
  unfold State.rtTwait
  try dsimp only
  repeat' first
    | with_reducible (first | exact hk | assumption | apply Apart.ite | apply State.xritar_apart | apply State.trap_apart | apply State.twaitRead_apart)
    | fail_if_no_progress with_reducible apply Apart.mk_upd
    | (intro _ _ _; try dsimp only)
    | intro _
    | split

theorem State.twaitReread_apart {z s : State} (t : Nat) (hk : Apart z s) :
    Apart z (s.twaitReread t) := by
  unfold State.twaitReread
  try dsimp only
  repeat' first
    | with_reducible (first | exact hk | assumption | apply Apart.ite | apply State.twaitRead_apart)
    | fail_if_no_progress with_reducible apply Apart.mk_upd
    | (intro _ _ _; try dsimp only)
    | intro _
    | split

theorem State.apostSend_apart {z s : State} (t p a word : Nat) (hk : Apart z s) :
    Apart z (s.apostSend t p a word) := by
  unfold State.apostSend
  try dsimp only
  repeat' first
    | with_reducible (first | exact hk | assumption | apply Apart.ite | apply State.retire_apart | apply State.tWait_apart | apply State.wr_apart | apply State.setPv_apart | apply State.syncPvu_apart | apply State.keep_apart | exact R.vecPvuAq_far _)
    | fail_if_no_progress with_reducible apply Apart.mk_upd
    | (intro _ _ _; try dsimp only)
    | intro _
    | split

theorem State.rtApost_apart {z s : State} (t : Nat) (lead : List (Nat × Nat)) (word : Nat) (hk : Apart z s) :
    Apart z (s.rtApost t lead word) := by
  unfold State.rtApost
  try dsimp only
  repeat' first
    | with_reducible (first | exact hk | assumption | apply Apart.ite | apply State.apostSend_apart | apply State.xritar_apart | apply State.trap_apart | apply State.sendPoint_apart | exact R.vecPvuAq_far _)
    | fail_if_no_progress with_reducible apply Apart.mk_upd
    | (intro _ _ _; try dsimp only)
    | intro _
    | split

theorem State.rtSdesc_apart {z s : State} (t : Nat) (lead : List (Nat × Nat)) (word : Nat) (hk : Apart z s) :
    Apart z (s.rtSdesc t lead word) := by
  unfold State.rtSdesc
  try dsimp only
  repeat' first
    | with_reducible (first | exact hk | assumption | apply Apart.ite | apply State.xritar_apart | apply State.trap_apart | apply State.setThr_apart | apply State.retire_apart)
    | fail_if_no_progress with_reducible apply Apart.mk_upd
    | (intro _ _ _; try dsimp only)
    | intro _
    | split

theorem State.rtSstop_apart {z s : State} (t : Nat) (lead : List (Nat × Nat)) (word : Nat) (hk : Apart z s) :
    Apart z (s.rtSstop t lead word) := by
  unfold State.rtSstop
  try dsimp only
  repeat' first
    | with_reducible (first | exact hk | assumption | apply Apart.ite | apply State.xritar_apart | apply State.setThr_apart | apply State.retire_apart)
    | fail_if_no_progress with_reducible apply Apart.mk_upd
    | (intro _ _ _; try dsimp only)
    | intro _
    | split

theorem State.unwait_apart {z s : State} (t : Nat) (hk : Apart z s) :
    Apart z (s.unwait t) := by
  unfold State.unwait
  try dsimp only
  repeat' first
    | with_reducible (first | exact hk | assumption | apply Apart.ite | apply State.setThr_apart)
    | fail_if_no_progress with_reducible apply Apart.mk_upd
    | (intro _ _ _; try dsimp only)
    | intro _
    | split

theorem State.haltThread_apart {z s : State} (t : Nat) (hk : Apart z s) :
    Apart z (s.haltThread t) := by
  unfold State.haltThread
  try dsimp only
  repeat' first
    | with_reducible (first | exact hk | assumption | apply Apart.ite | apply State.retreat_apart | apply State.unwait_apart | apply State.setT_apart)
    | fail_if_no_progress with_reducible apply Apart.mk_upd
    | (intro _ _ _; try dsimp only)
    | intro _
    | split

theorem State.tcxErr_apart {z s : State} (d code core thread : Nat) (hk : Apart z s) :
    Apart z (s.tcxErr d code core thread) := by
  unfold State.tcxErr
  try dsimp only
  repeat' first
    | with_reducible (first | exact hk | assumption | apply Apart.ite | apply State.setReg_apart | apply State.setFld_apart | exact R.tcxErr_far _)
    | fail_if_no_progress with_reducible apply Apart.mk_upd
    | (intro _ _ _; try dsimp only)
    | intro _
    | split

theorem State.launch_apart {z s : State} (d core thread : Nat) (hk : Apart z s) :
    Apart z (s.launch d core thread) := by
  unfold State.launch
  try dsimp only
  repeat' first
    | with_reducible (first | exact hk | assumption | apply Apart.ite | apply State.tcxErr_apart | apply State.answer_apart | apply State.setThr_apart | apply State.setTreg_apart | apply State.setFld_apart | apply State.setT_apart | exact R.tcxLaunchPc_far _ | exact R.tcxLaunchArg_far _ | exact thrReg_far _)
    | fail_if_no_progress with_reducible apply Apart.mk_upd
    | (intro _ _ _; try dsimp only)
    | intro _
    | split

theorem State.haltCmd_apart {z s : State} (d core thread : Nat) (hk : Apart z s) :
    Apart z (s.haltCmd d core thread) := by
  unfold State.haltCmd
  try dsimp only
  repeat' first
    | with_reducible (first | exact hk | assumption | apply Apart.ite | apply State.haltThread_apart)
    | fail_if_no_progress with_reducible apply Apart.mk_upd
    | (intro _ _ _; try dsimp only)
    | intro _
    | split

theorem State.wfi_apart {z s : State} (t : Nat) (lead : List (Nat × Nat)) (hk : Apart z s) :
    Apart z (s.wfi t lead) := by
  unfold State.wfi
  try dsimp only
  repeat' first
    | with_reducible (first | exact hk | assumption | apply Apart.ite | apply State.asThread_apart | apply State.trap_apart | apply State.retire_apart | apply State.setTreg_apart | apply State.haltThread_apart)
    | fail_if_no_progress with_reducible apply Apart.mk_upd
    | (intro _ _ _; try dsimp only)
    | intro _
    | split

theorem State.restart_apart {z s : State} (t host : Nat) (hk : Apart z s) :
    Apart z (s.restart t host) := by
  unfold State.restart
  try dsimp only
  repeat' first
    | with_reducible (first | exact hk | assumption | apply Apart.ite | apply State.unwait_apart | apply State.setThr_apart | apply State.forAll_apart | apply State.setTreg_apart | apply State.setFld_apart | apply State.setT_apart | exact thrReg_far _)
    | fail_if_no_progress with_reducible apply Apart.mk_upd
    | (intro _ _ _; try dsimp only)
    | intro _
    | split

theorem State.braceThreads_apart {z s : State} (k : Nat) (on : Bool) (hk : Apart z s) :
    Apart z (s.braceThreads k on) := by
  unfold State.braceThreads
  try dsimp only
  repeat' first
    | with_reducible (first | exact hk | assumption | apply Apart.ite | apply State.forAll_apart | apply State.setFld_apart | apply State.setT_apart | exact thrReg_far _)
    | fail_if_no_progress with_reducible apply Apart.mk_upd
    | (intro _ _ _; try dsimp only)
    | intro _
    | split

theorem State.idleThreads_apart {z s : State} (mask : Nat) (hk : Apart z s) :
    Apart z (s.idleThreads mask) := by
  unfold State.idleThreads
  try dsimp only
  repeat' first
    | with_reducible (first | exact hk | assumption | apply Apart.ite | apply State.forAll_apart | apply State.setL1_apart | apply State.setIl1_apart | apply State.unwait_apart | apply State.setThr_apart | apply State.setT_apart)
    | fail_if_no_progress with_reducible apply Apart.mk_upd
    | (intro _ _ _; try dsimp only)
    | intro _
    | split

theorem State.haltThreads_apart {z s : State} (mask : Nat) (hk : Apart z s) :
    Apart z (s.haltThreads mask) := by
  unfold State.haltThreads
  try dsimp only
  repeat' first
    | with_reducible (first | exact hk | assumption | apply Apart.ite | apply State.forAll_apart | apply State.haltThread_apart)
    | fail_if_no_progress with_reducible apply Apart.mk_upd
    | (intro _ _ _; try dsimp only)
    | intro _
    | split

end Sys2Proof.Machine
end

