-- ==== Sys2Proof/Laws/ApartCoh.lean ====
section
/-! SUPPORT. What the operations of Machine/Coh.lean leave to the Lockkeeper, the weave and the SEC (Laws/Apart.lean). -/

namespace Sys2Proof.Machine

set_option linter.unusedTactic false
set_option linter.unreachableTactic false
set_option linter.unusedSimpArgs false

theorem State.modHome_apart {z s : State} (h : Nat) (f : Home → Home) (hk : Apart z s) :
    Apart z (s.modHome h f) := by
  unfold State.modHome
  try dsimp only
  repeat' first
    | with_reducible (first | exact hk | assumption | apply Apart.ite | apply State.setHome_apart)
    | fail_if_no_progress with_reducible apply Apart.mk_upd
    | (intro _ _ _; try dsimp only)
    | intro _
    | split

theorem State.bump_apart {z s : State} (a : Nat) (f : Fld) (n : Nat) (ha : Far a) (hk : Apart z s) : Apart z (s.bump a f n) :=
  State.setFld_apart _ _ _ ha hk

theorem State.cohErr_apart {z s : State} (code h agent : Nat) (hk : Apart z s) :
    Apart z (s.cohErr code h agent) := by
  unfold State.cohErr
  try dsimp only
  repeat' first
    | with_reducible (first | exact hk | assumption | apply Apart.ite | apply State.setReg_apart | apply State.setFld_apart | exact R.cohErr_far)
    | fail_if_no_progress with_reducible apply Apart.mk_upd
    | (intro _ _ _; try dsimp only)
    | intro _
    | split

theorem State.homePoison_apart {z s : State} (l : Nat) (hk : Apart z s) :
    Apart z (s.homePoison l) := by
  unfold State.homePoison
  try dsimp only
  repeat' first
    | with_reducible (first | exact hk | assumption | apply Apart.ite | apply State.wrPoison_apart | apply State.touch_apart | apply State.modEvent_apart | apply State.setFld_apart | exact R.cohPoisonAddr_far)
    | fail_if_no_progress with_reducible apply Apart.mk_upd
    | (intro _ _ _; try dsimp only)
    | intro _
    | split

theorem State.copyTo_apart {z s : State} (l agent : Nat) (owned : Bool) (hk : Apart z s) :
    Apart z (s.copyTo l agent owned) := by
  unfold State.copyTo
  try dsimp only
  repeat' first
    | with_reducible (first | exact hk | assumption | apply Apart.ite)
    | fail_if_no_progress with_reducible apply Apart.mk_upd
    | (intro _ _ _; try dsimp only)
    | intro _
    | split

theorem State.dropCopies_apart {z s : State} (l keep : Nat) (hk : Apart z s) :
    Apart z (s.dropCopies l keep) := by
  unfold State.dropCopies
  try dsimp only
  repeat' first
    | with_reducible (first | exact hk | assumption | apply Apart.ite)
    | fail_if_no_progress with_reducible apply Apart.mk_upd
    | (intro _ _ _; try dsimp only)
    | intro _
    | split

theorem State.fire_apart {z s : State} (h l : Nat) (hk : Apart z s) :
    Apart z (s.fire h l) := by
  unfold State.fire
  try dsimp only
  repeat' first
    | with_reducible (first | exact hk | assumption | apply Apart.ite | apply State.modHome_apart)
    | fail_if_no_progress with_reducible apply Apart.mk_upd
    | (intro _ _ _; try dsimp only)
    | intro _
    | split

theorem State.retryReq_apart {z s : State} (h : Nat) (r : HomeReq) (hk : Apart z s) :
    Apart z (s.retryReq h r) := by
  unfold State.retryReq
  try dsimp only
  repeat' first
    | with_reducible (first | exact hk | assumption | apply Apart.ite | apply State.modHome_apart | apply State.bump_apart | apply State.answer_apart | exact R.cohHCntRetry_far _)
    | fail_if_no_progress with_reducible apply Apart.mk_upd
    | (intro _ _ _; try dsimp only)
    | intro _
    | split

theorem State.homeDone_apart {z s : State} (h : Nat) (t : Tracker) (r : Resp) (keepAs : Option Nat) (hk : Apart z s) :
    Apart z (s.homeDone h t r keepAs) := by
  unfold State.homeDone
  try dsimp only
  repeat' first
    | with_reducible (first | exact hk | assumption | apply Apart.ite | apply State.modHome_apart | apply State.answer_apart)
    | fail_if_no_progress with_reducible apply Apart.mk_upd
    | (intro _ _ _; try dsimp only)
    | intro _
    | split

theorem State.atomHere_apart {z s : State} (r : HomeReq) (hk : Apart z s) :
    Apart z (s.atomHere r).2 := by
  unfold State.atomHere
  try dsimp only
  repeat' first
    | with_reducible (first | exact hk | assumption | apply Apart.ite | apply State.wrMask_apart)
    | fail_if_no_progress with_reducible apply Apart.mk_upd
    | (intro _ _ _; try dsimp only)
    | intro _
    | split

theorem State.homeAct_apart {z s : State} (h : Nat) (t : Tracker) (bad : Bool) (hk : Apart z s) :
    Apart z (s.homeAct h t bad) := by
  unfold State.homeAct
  try dsimp only
  repeat' first
    | with_reducible (first | exact hk | assumption | apply Apart.ite | apply State.noteCxl_apart | apply State.homeDone_apart | apply State.modHome_apart | apply State.setEntry_apart | apply State.copyTo_apart | apply State.dropCopies_apart | apply State.fire_apart | apply State.wr_apart | apply State.wrMask_apart | apply State.addWatch_apart | apply State.atomHere_apart | apply State.bump_apart | exact R.cohHCntAtom_far _)
    | fail_if_no_progress with_reducible apply Apart.mk_upd
    | (intro _ _ _; try dsimp only)
    | intro _
    | split

theorem State.homeFar_apart {z s : State} (h : Nat) (t : Tracker) (hk : Apart z s) :
    Apart z (s.homeFar h t) := by
  unfold State.homeFar
  try dsimp only
  repeat' first
    | with_reducible (first | exact hk | assumption | apply Apart.ite | apply State.homeDone_apart | apply State.modHome_apart | apply State.setQu_apart | apply State.bump_apart | exact R.cohHCntAtom_far _)
    | fail_if_no_progress with_reducible apply Apart.mk_upd
    | (intro _ _ _; try dsimp only)
    | intro _
    | split

theorem State.homeServe_apart {z s : State} (h : Nat) (t : Tracker) (bad : Bool) (hk : Apart z s) :
    Apart z (s.homeServe h t bad) := by
  unfold State.homeServe
  try dsimp only
  repeat' first
    | with_reducible (first | exact hk | assumption | apply Apart.ite | apply State.homeFar_apart | apply State.homeAct_apart)
    | fail_if_no_progress with_reducible apply Apart.mk_upd
    | (intro _ _ _; try dsimp only)
    | intro _
    | split

theorem State.homeRun_apart {z s : State} (h : Nat) (t : Tracker) (hk : Apart z s) :
    Apart z (s.homeRun h t) := by
  unfold State.homeRun
  try dsimp only
  repeat' first
    | with_reducible (first | exact hk | assumption | apply Apart.ite | apply State.cohErr_apart | apply State.modHome_apart | apply State.homeServe_apart)
    | fail_if_no_progress with_reducible apply Apart.mk_upd
    | (intro _ _ _; try dsimp only)
    | intro _
    | split

theorem State.homeBegin_apart {z s : State} (h id : Nat) (hk : Apart z s) :
    Apart z (s.homeBegin h id) := by
  unfold State.homeBegin
  try dsimp only
  repeat' first
    | with_reducible (first | exact hk | assumption | apply Apart.ite | apply State.addSat_apart | apply State.modHome_apart | apply State.retryReq_apart | apply State.count_apart | apply State.homeRun_apart | exact R.cohHStatus_far _ | exact R.cohHCntEvict_far _)
    | fail_if_no_progress with_reducible apply Apart.mk_upd
    | (intro _ _ _; try dsimp only)
    | intro _
    | split

theorem State.homeWake_apart {z s : State} (h : Nat) (hk : Apart z s) :
    Apart z (s.homeWake h) := by
  unfold State.homeWake
  try dsimp only
  repeat' first
    | with_reducible (first | exact hk | assumption | apply Apart.ite | apply State.forAll_apart | apply State.homeBegin_apart)
    | fail_if_no_progress with_reducible apply Apart.mk_upd
    | (intro _ _ _; try dsimp only)
    | intro _
    | split

theorem State.homeReq_apart {z s : State} (h : Nat) (r : HomeReq) (hk : Apart z s) :
    Apart z (s.homeReq h r) := by
  unfold State.homeReq
  try dsimp only
  repeat' first
    | with_reducible (first | exact hk | assumption | apply Apart.ite | apply State.answer_apart | apply State.retryReq_apart | apply State.addSat_apart | apply State.modHome_apart | apply State.homeBegin_apart | exact R.cohHCntRetry_far _)
    | fail_if_no_progress with_reducible apply Apart.mk_upd
    | (intro _ _ _; try dsimp only)
    | intro _
    | split

theorem State.homeNext_apart {z s : State} (h : Nat) (t : Tracker) (bad : Bool) (hk : Apart z s) :
    Apart z (s.homeNext h t bad) := by
  unfold State.homeNext
  try dsimp only
  repeat' first
    | with_reducible (first | exact hk | assumption | apply Apart.ite | apply State.modHome_apart | apply State.homeRun_apart | apply State.homeServe_apart | apply State.homeWake_apart)
    | fail_if_no_progress with_reducible apply Apart.mk_upd
    | (intro _ _ _; try dsimp only)
    | intro _
    | split

theorem State.snoopsLeft_apart {z s : State} (h : Nat) (t : Tracker) (l : List (Nat × Nat)) (hk : Apart z s) :
    Apart z (s.snoopsLeft h t l) := by
  unfold State.snoopsLeft
  try dsimp only
  repeat' first
    | with_reducible (first | exact hk | assumption | apply Apart.ite | apply State.homeNext_apart | apply State.modHome_apart)
    | fail_if_no_progress with_reducible apply Apart.mk_upd
    | (intro _ _ _; try dsimp only)
    | intro _
    | split

theorem State.snoop_apart {z s : State} (h agent tid : Nat) (wback : Bool) (hk : Apart z s) :
    Apart z (s.snoop h agent tid wback) := by
  unfold State.snoop
  try dsimp only
  repeat' first
    | with_reducible (first | exact hk | assumption | apply Apart.ite | apply State.copyTo_apart | apply State.modHome_apart)
    | fail_if_no_progress with_reducible apply Apart.mk_upd
    | (intro _ _ _; try dsimp only)
    | intro _
    | split

theorem State.snoopPoison_apart {z s : State} (h : Nat) (t : Tracker) (code agent : Nat) (hk : Apart z s) :
    Apart z (s.snoopPoison h t code agent) := by
  unfold State.snoopPoison
  try dsimp only
  repeat' first
    | with_reducible (first | exact hk | assumption | apply Apart.ite | apply State.homePoison_apart | apply State.cohErr_apart | apply State.homeNext_apart)
    | fail_if_no_progress with_reducible apply Apart.mk_upd
    | (intro _ _ _; try dsimp only)
    | intro _
    | split

theorem State.takeAnswer_apart {z s : State} (h agent tid : Nat) (err : Bool) (hk : Apart z s) :
    Apart z (s.takeAnswer h agent tid err) := by
  unfold State.takeAnswer
  try dsimp only
  repeat' first
    | with_reducible (first | exact hk | assumption | apply Apart.ite | apply State.modHome_apart | apply State.bump_apart | apply State.snoopPoison_apart | apply State.snoopsLeft_apart | exact R.cohHCntTimeout_far _)
    | fail_if_no_progress with_reducible apply Apart.mk_upd
    | (intro _ _ _; try dsimp only)
    | intro _
    | split

theorem State.snoopAnswer_apart {z s : State} (h agent tid : Nat) (err : Bool) (hk : Apart z s) :
    Apart z (s.snoopAnswer h agent tid err) := by
  unfold State.snoopAnswer
  try dsimp only
  repeat' first
    | with_reducible (first | exact hk | assumption | apply Apart.ite | apply State.takeAnswer_apart | apply State.ptbHome_apart | apply State.modHome_apart)
    | fail_if_no_progress with_reducible apply Apart.mk_upd
    | (intro _ _ _; try dsimp only)
    | intro _
    | split

theorem State.snoopTimeout_apart {z s : State} (h tid : Nat) (hk : Apart z s) :
    Apart z (s.snoopTimeout h tid) := by
  unfold State.snoopTimeout
  try dsimp only
  repeat' first
    | with_reducible (first | exact hk | assumption | apply Apart.ite | apply State.modHome_apart | apply State.bump_apart | apply State.snoopPoison_apart | exact R.cohHCntTimeout_far _)
    | fail_if_no_progress with_reducible apply Apart.mk_upd
    | (intro _ _ _; try dsimp only)
    | intro _
    | split

theorem State.wback_apart {z s : State} (h agent a : Nat) (hk : Apart z s) :
    Apart z (s.wback h agent a) := by
  unfold State.wback
  try dsimp only
  repeat' first
    | with_reducible (first | exact hk | assumption | apply Apart.ite | apply State.modHome_apart | apply State.snoopsLeft_apart | apply State.setEntry_apart)
    | fail_if_no_progress with_reducible apply Apart.mk_upd
    | (intro _ _ _; try dsimp only)
    | intro _
    | split

theorem State.trackerFree_apart {z s : State} (h : Nat) (hk : Apart z s) :
    Apart z (s.trackerFree h) := by
  unfold State.trackerFree
  try dsimp only
  repeat' first
    | with_reducible (first | exact hk | assumption | apply Apart.ite | apply State.modHome_apart)
    | fail_if_no_progress with_reducible apply Apart.mk_upd
    | (intro _ _ _; try dsimp only)
    | intro _
    | split

theorem State.grant_apart {z s : State} (h tid : Nat) (hk : Apart z s) :
    Apart z (s.grant h tid) := by
  unfold State.grant
  try dsimp only
  repeat' first
    | with_reducible (first | exact hk | assumption | apply Apart.ite | apply State.modHome_apart | apply State.homeReq_apart)
    | fail_if_no_progress with_reducible apply Apart.mk_upd
    | (intro _ _ _; try dsimp only)
    | intro _
    | split

theorem State.quayReturn_apart {z s : State} (h tid : Nat) (hk : Apart z s) :
    Apart z (s.quayReturn h tid) := by
  unfold State.quayReturn
  try dsimp only
  repeat' first
    | with_reducible (first | exact hk | assumption | apply Apart.ite | apply State.setQu_apart | apply State.touch_apart | apply State.homeDone_apart | apply State.homeWake_apart)
    | fail_if_no_progress with_reducible apply Apart.mk_upd
    | (intro _ _ _; try dsimp only)
    | intro _
    | split

theorem State.tileAtom_apart {z s : State} (t : Nat) (lead : List (Nat × Nat)) (a size : Nat) (load : Bool) (kinds : List Nat) (act : State → State) (hact : ∀ u, Apart z u → Apart z (act u)) (hk : Apart z s) :
    Apart z (s.tileAtom t lead a size load kinds act) := by
  unfold State.tileAtom
  try dsimp only
  repeat' first
    | with_reducible (first | exact hk | assumption | apply Apart.ite | apply State.asThread_apart | apply State.trap_apart | apply State.dropLine_apart | apply hact)
    | fail_if_no_progress with_reducible apply Apart.mk_upd
    | (intro _ _ _; try dsimp only)
    | intro _
    | split

theorem State.numbered_apart {z s : State} (h t : Nat) (q : HomeReq) (hk : Apart z s) :
    Apart z (s.numbered h t q) := by
  unfold State.numbered
  try dsimp only
  repeat' first
    | with_reducible (first | exact hk | assumption | apply Apart.ite | apply State.nextOp_apart | apply State.saveThread_apart | apply State.homeReq_apart)
    | fail_if_no_progress with_reducible apply Apart.mk_upd
    | (intro _ _ _; try dsimp only)
    | intro _
    | split

theorem State.coreLead_apart {z s : State} (c : Nat) (l : List (Nat × Nat)) (hk : Apart z s) :
    Apart z (s.coreLead c l) := by
  unfold State.coreLead
  try dsimp only
  repeat' first
    | with_reducible (first | exact hk | assumption | apply Apart.ite | apply State.setCore_apart | apply Apart.foldl | apply Apart.foldl_fst | apply Apart.foldl_snd)
    | fail_if_no_progress with_reducible apply Apart.mk_upd
    | (intro _ _ _; try dsimp only)
    | intro _
    | split

theorem State.ownWrite_apart {z s : State} (c a : Nat) (d : List Byte) (hk : Apart z s) :
    Apart z (s.ownWrite c a d) := by
  unfold State.ownWrite
  try dsimp only
  repeat' first
    | with_reducible (first | exact hk | assumption | apply Apart.ite | apply State.setBytes_apart | apply State.cleanse_apart)
    | fail_if_no_progress with_reducible apply Apart.mk_upd
    | (intro _ _ _; try dsimp only)
    | intro _
    | split

theorem State.coreAtom_apart {z s : State} (c : Nat) (op : AtomOp) (a size x y : Nat) (hk : Apart z s) :
    Apart z (s.coreAtom c op a size x y) := by
  unfold State.coreAtom
  try dsimp only
  repeat' first
    | with_reducible (first | exact hk | assumption | apply Apart.ite | apply State.answer_apart | apply State.ownWrite_apart)
    | fail_if_no_progress with_reducible apply Apart.mk_upd
    | (intro _ _ _; try dsimp only)
    | intro _
    | split

theorem State.atomicReq_apart {z s : State} (h : Nat) (r : Requester) (lead : List (Nat × Nat)) (op : AtomOp) (a age ecc size x y : Nat) (hk : Apart z s) :
    Apart z (s.atomicReq h r lead op a age ecc size x y) := by
  unfold State.atomicReq
  extract_lets q go
  have hg : ∀ u, Apart z u → Apart z (go u) := fun u hu => Apart.ite (State.answer_apart _ hu) (State.homeReq_apart _ _ hu)
  refine Apart.ite hk ?_
  cases r with
  | tile t => exact Apart.ite hk (State.tileAtom_apart _ _ _ _ _ _ _ (fun u hu => State.numbered_apart _ _ _ hu) hk)
  | core c => exact Apart.ite (State.coreAtom_apart _ _ _ _ _ _ (State.coreLead_apart _ _ hk)) (hg _ (State.coreLead_apart _ _ hk))
  | host => exact Apart.ite (hg _ hk) hk
  | _ => exact hg _ hk

theorem State.lrReq_apart {z s : State} (h : Nat) (r : Requester) (lead : List (Nat × Nat)) (a age ecc size : Nat) (hk : Apart z s) :
    Apart z (s.lrReq h r lead a age ecc size) := by
  unfold State.lrReq
  try dsimp only
  repeat' first
    | with_reducible (first | exact hk | assumption | apply Apart.ite | apply State.tileAtom_apart | apply State.homeReq_apart | apply State.coreLead_apart | apply State.answer_apart)
    | fail_if_no_progress with_reducible apply Apart.mk_upd
    | (intro _ _ _; try dsimp only)
    | intro _
    | split

theorem State.scReq_apart {z s : State} (h : Nat) (r : Requester) (lead : List (Nat × Nat)) (a age ecc size v : Nat) (hk : Apart z s) :
    Apart z (s.scReq h r lead a age ecc size v) := by
  unfold State.scReq
  try dsimp only
  repeat' first
    | with_reducible (first | exact hk | assumption | apply Apart.ite | apply State.tileAtom_apart | apply State.numbered_apart | apply State.coreLead_apart | apply State.answer_apart | apply State.ownWrite_apart)
    | fail_if_no_progress with_reducible apply Apart.mk_upd
    | (intro _ _ _; try dsimp only)
    | intro _
    | split

theorem State.dropWays_apart {z s : State} (k : Nat) (ag : List Nat) (hk : Apart z s) :
    Apart z (s.dropWays k ag) := by
  unfold State.dropWays
  try dsimp only
  repeat' first
    | with_reducible (first | exact hk | assumption | apply Apart.ite | apply Apart.foldl | apply Apart.foldl_fst | apply Apart.foldl_snd)
    | fail_if_no_progress with_reducible apply Apart.mk_upd
    | (intro _ _ _; try dsimp only)
    | intro _
    | split

end Sys2Proof.Machine
end

