-- ==== Sys2Proof/Laws/ApartHif.lean ====
section
/-! SUPPORT. What the operations of Machine/Hif.lean leave to the Lockkeeper, the weave and the SEC (Laws/Apart.lean). -/

namespace Sys2Proof.Machine

set_option linter.unusedTactic false
set_option linter.unreachableTactic false
set_option linter.unusedSimpArgs false

theorem State.setHq_apart {z s : State} (n : Nat) (c : Hq) (hk : Apart z s) :
    Apart z (s.setHq n c) := by
  unfold State.setHq
  try dsimp only
  repeat' first
    | with_reducible (first | exact hk | assumption | apply Apart.ite)
    | fail_if_no_progress with_reducible apply Apart.mk_upd
    | (intro _ _ _; try dsimp only)
    | intro _
    | split

theorem State.modHq_apart {z s : State} (n : Nat) (f : Hq → Hq) (hk : Apart z s) :
    Apart z (s.modHq n f) := by
  unfold State.modHq
  try dsimp only
  repeat' first
    | with_reducible (first | exact hk | assumption | apply Apart.ite | apply State.setHq_apart)
    | fail_if_no_progress with_reducible apply Apart.mk_upd
    | (intro _ _ _; try dsimp only)
    | intro _
    | split

theorem State.irqSend_apart {z s : State} (n : Nat) (hk : Apart z s) :
    Apart z (s.irqSend n) := by
  unfold State.irqSend
  try dsimp only
  repeat' first
    | with_reducible (first | exact hk | assumption | apply Apart.ite | apply State.signal_apart | exact R.hifQIrq_far _)
    | fail_if_no_progress with_reducible apply Apart.mk_upd
    | (intro _ _ _; try dsimp only)
    | intro _
    | split

theorem State.irqCheck_apart {z s : State} (n : Nat) (hk : Apart z s) :
    Apart z (s.irqCheck n) := by
  unfold State.irqCheck
  try dsimp only
  repeat' first
    | with_reducible (first | exact hk | assumption | apply Apart.ite | apply State.setHq_apart | apply State.irqSend_apart | exact R.hifQIrq_far _)
    | fail_if_no_progress with_reducible apply Apart.mk_upd
    | (intro _ _ _; try dsimp only)
    | intro _
    | split

theorem State.irqTimer_apart {z s : State} (n : Nat) (hk : Apart z s) :
    Apart z (s.irqTimer n) := by
  unfold State.irqTimer
  try dsimp only
  repeat' first
    | with_reducible (first | exact hk | assumption | apply Apart.ite | apply State.setHq_apart | apply State.irqSend_apart | exact R.hifQIrq_far _)
    | fail_if_no_progress with_reducible apply Apart.mk_upd
    | (intro _ _ _; try dsimp only)
    | intro _
    | split

theorem State.qpError_apart {z s : State} (n code slot : Nat) (hk : Apart z s) :
    Apart z (s.qpError n code slot) := by
  unfold State.qpError
  try dsimp only
  repeat' first
    | with_reducible (first | exact hk | assumption | apply Apart.ite | apply State.setFld_apart | apply State.setReg_apart | apply State.irqSend_apart | exact R.hifQStatus_far _ | exact R.hifQErr_far _)
    | fail_if_no_progress with_reducible apply Apart.mk_upd
    | (intro _ _ _; try dsimp only)
    | intro _
    | split

theorem State.cqWrite_apart {z s : State} (n seq result cid status kind : Nat) (hk : Apart z s) :
    Apart z (s.cqWrite n seq result cid status kind) := by
  unfold State.cqWrite
  try dsimp only
  repeat' first
    | with_reducible (first | exact hk | assumption | apply Apart.ite | apply State.send_apart | apply State.wr_apart | apply State.setHq_apart | exact R.hifQCq_far _)
    | fail_if_no_progress with_reducible apply Apart.mk_upd
    | (intro _ _ _; try dsimp only)
    | intro _
    | split

theorem State.cqLost_apart {z s : State} (n : Nat) (hk : Apart z s) :
    Apart z (s.cqLost n) := by
  unfold State.cqLost
  try dsimp only
  repeat' first
    | with_reducible (first | exact hk | assumption | apply Apart.ite | apply State.qpError_apart)
    | fail_if_no_progress with_reducible apply Apart.mk_upd
    | (intro _ _ _; try dsimp only)
    | intro _
    | split

theorem State.refuseEntry_apart {z s : State} (n cid st : Nat) (cqOk : Bool) (hk : Apart z s) :
    Apart z (s.refuseEntry n cid st cqOk) := by
  unfold State.refuseEntry
  try dsimp only
  repeat' first
    | with_reducible (first | exact hk | assumption | apply Apart.ite | apply State.modHq_apart | apply State.cqLost_apart | apply State.cqWrite_apart | apply State.irqSend_apart)
    | fail_if_no_progress with_reducible apply Apart.mk_upd
    | (intro _ _ _; try dsimp only)
    | intro _
    | split

theorem State.jWrite_apart {z s : State} (k n : Nat) (c : Cmd) (st : Nat) (hk : Apart z s) :
    Apart z (s.jWrite k n c st) := by
  unfold State.jWrite
  try dsimp only
  repeat' first
    | with_reducible (first | exact hk | assumption | apply Apart.ite | apply State.wr_apart)
    | fail_if_no_progress with_reducible apply Apart.mk_upd
    | (intro _ _ _; try dsimp only)
    | intro _
    | split

theorem State.jOldest_apart {z s : State} (k : Nat) (hk : Apart z s) :
    Apart z (s.jOldest k) := by
  unfold State.jOldest
  try dsimp only
  repeat' first
    | with_reducible (first | exact hk | assumption | apply Apart.ite | apply State.setFld_apart | exact R.psqJrnlNext_far _ | exact R.psqJrnlOldest_far _ | apply Apart.foldl | apply Apart.foldl_fst | apply Apart.foldl_snd)
    | fail_if_no_progress with_reducible apply Apart.mk_upd
    | (intro _ _ _; try dsimp only)
    | intro _
    | split

theorem State.endEpoch_apart {z s : State} (k cause : Nat) (hk : Apart z s) :
    Apart z (s.endEpoch k cause) := by
  unfold State.endEpoch
  try dsimp only
  repeat' first
    | with_reducible (first | exact hk | assumption | apply Apart.ite | apply State.setFld_apart | apply State.setReg_apart | apply State.forAll_apart | apply State.modHq_apart | apply State.stakeEvent_apart | exact R.psqJrnlStatus_far _ | exact R.psqJrnlLast_far _ | exact R.psqJrnlNext_far _)
    | fail_if_no_progress with_reducible apply Apart.mk_upd
    | (intro _ _ _; try dsimp only)
    | intro _
    | split

theorem State.zero_apart {z s : State} (a n : Nat) (hk : Apart z s) :
    Apart z (s.zero a n) := by
  unfold State.zero
  try dsimp only
  repeat' first
    | with_reducible (first | exact hk | assumption | apply Apart.ite | apply State.cleanse_apart | apply State.touch_apart)
    | fail_if_no_progress with_reducible apply Apart.mk_upd
    | (intro _ _ _; try dsimp only)
    | intro _
    | split

theorem State.openEpoch_apart {z s : State} (k : Nat) (hk : Apart z s) :
    Apart z (s.openEpoch k) := by
  unfold State.openEpoch
  try dsimp only
  repeat' first
    | with_reducible (first | exact hk | assumption | apply Apart.ite | apply State.zero_apart | apply State.wr_apart | apply State.setReg_apart | apply State.setFld_apart | exact R.psqJrnlStatus_far _ | exact R.psqJrnlNext_far _ | exact R.psqJrnlOldest_far _)
    | fail_if_no_progress with_reducible apply Apart.mk_upd
    | (intro _ _ _; try dsimp only)
    | intro _
    | split

theorem State.syncHead_apart {z s : State} (n : Nat) (hk : Apart z s) :
    Apart z (s.syncHead n) := by
  unfold State.syncHead
  try dsimp only
  repeat' first
    | with_reducible (first | exact hk | assumption | apply Apart.ite | apply State.setFld_apart | exact R.hifQStatus_far _)
    | fail_if_no_progress with_reducible apply Apart.mk_upd
    | (intro _ _ _; try dsimp only)
    | intro _
    | split

theorem State.takeEntry_apart {z s : State} (n : Nat) (e : List Byte) (cqOk : Bool) (hk : Apart z s) :
    Apart z (s.takeEntry n e cqOk) := by
  unfold State.takeEntry
  try dsimp only
  repeat' first
    | with_reducible (first | exact hk | assumption | apply Apart.ite | apply State.modHq_apart | apply State.syncHead_apart | apply State.refuseEntry_apart)
    | fail_if_no_progress with_reducible apply Apart.mk_upd
    | (intro _ _ _; try dsimp only)
    | intro _
    | split

theorem State.sqFetch_apart {z s : State} (n : Nat) (host : Option (List Byte)) (cqOk : Bool) (hk : Apart z s) :
    Apart z (s.sqFetch n host cqOk) := by
  unfold State.sqFetch
  try dsimp only
  repeat' first
    | with_reducible (first | exact hk | assumption | apply Apart.ite | apply State.qpError_apart | apply State.takeEntry_apart | apply State.setHq_apart)
    | fail_if_no_progress with_reducible apply Apart.mk_upd
    | (intro _ _ _; try dsimp only)
    | intro _
    | split

theorem State.sqRefetch_apart {z s : State} (n : Nat) (host : Option (List Byte)) (cqOk : Bool) (hk : Apart z s) :
    Apart z (s.sqRefetch n host cqOk) := by
  unfold State.sqRefetch
  try dsimp only
  repeat' first
    | with_reducible (first | exact hk | assumption | apply Apart.ite | apply State.addSat_apart | apply State.setHq_apart | apply State.qpError_apart | apply State.takeEntry_apart | exact R.hifQCnt_far _)
    | fail_if_no_progress with_reducible apply Apart.mk_upd
    | (intro _ _ _; try dsimp only)
    | intro _
    | split

theorem State.putCmd_apart {z s : State} (n : Nat) (c : Cmd) (hk : Apart z s) :
    Apart z (s.putCmd n c) := by
  unfold State.putCmd
  try dsimp only
  repeat' first
    | with_reducible (first | exact hk | assumption | apply Apart.ite | apply State.modHq_apart)
    | fail_if_no_progress with_reducible apply Apart.mk_upd
    | (intro _ _ _; try dsimp only)
    | intro _
    | split

theorem State.ackCmd_apart {z s : State} (k n : Nat) (c : Cmd) (cqOk : Bool) (hk : Apart z s) :
    Apart z (s.ackCmd k n c cqOk) := by
  unfold State.ackCmd
  try dsimp only
  repeat' first
    | with_reducible (first | exact hk | assumption | apply Apart.ite | apply State.cqLost_apart | apply State.cqWrite_apart | apply State.putCmd_apart | apply State.jWrite_apart)
    | fail_if_no_progress with_reducible apply Apart.mk_upd
    | (intro _ _ _; try dsimp only)
    | intro _
    | split

theorem State.acceptCmd_apart {z s : State} (k n seq era : Nat) (e : List Byte) (cqOk : Bool) (hk : Apart z s) :
    Apart z (s.acceptCmd k n seq era e cqOk) := by
  unfold State.acceptCmd
  try dsimp only
  repeat' first
    | with_reducible (first | exact hk | assumption | apply Apart.ite | apply State.modHq_apart | apply State.setFld_apart | apply State.ackCmd_apart | exact R.hifQCnt_far _)
    | fail_if_no_progress with_reducible apply Apart.mk_upd
    | (intro _ _ _; try dsimp only)
    | intro _
    | split

theorem State.jCommit_apart {z s : State} (n : Nat) (cqOk : Bool) (hk : Apart z s) :
    Apart z (s.jCommit n cqOk) := by
  unfold State.jCommit
  try dsimp only
  repeat' first
    | with_reducible (first | exact hk | assumption | apply Apart.ite | apply State.endEpoch_apart | apply State.setFld_apart | apply State.wr_apart | apply State.jWrite_apart | apply State.acceptCmd_apart | apply State.jOldest_apart | exact R.psqJrnlStatus_far _ | exact R.psqJrnlNext_far _)
    | fail_if_no_progress with_reducible apply Apart.mk_upd
    | (intro _ _ _; try dsimp only)
    | intro _
    | split

theorem State.afterReplay_apart {z s : State} (k : Nat) (hk : Apart z s) :
    Apart z (s.afterReplay k) := by
  unfold State.afterReplay
  try dsimp only
  repeat' first
    | with_reducible (first | exact hk | assumption | apply Apart.ite | apply State.noResume_apart | apply State.psqResume_apart | apply State.asuRebuild_apart | apply State.setFld_apart | exact R.psqJrnlStatus_far _)
    | fail_if_no_progress with_reducible apply Apart.mk_upd
    | (intro _ _ _; try dsimp only)
    | intro _
    | split

theorem State.finishCmd_apart {z s : State} (n : Nat) (c : Cmd) (status result : Nat) (hk : Apart z s) :
    Apart z (s.finishCmd n c status result) := by
  unfold State.finishCmd
  try dsimp only
  repeat' first
    | with_reducible (first | exact hk | assumption | apply Apart.ite | apply State.putCmd_apart | apply State.modHq_apart | apply State.jWrite_apart | apply State.afterReplay_apart)
    | fail_if_no_progress with_reducible apply Apart.mk_upd
    | (intro _ _ _; try dsimp only)
    | intro _
    | split

theorem State.hifNop_apart {z s : State} (n : Nat) (hk : Apart z s) :
    Apart z (s.hifNop n) := by
  unfold State.hifNop
  try dsimp only
  repeat' first
    | with_reducible (first | exact hk | assumption | apply Apart.ite | apply State.finishCmd_apart)
    | fail_if_no_progress with_reducible apply Apart.mk_upd
    | (intro _ _ _; try dsimp only)
    | intro _
    | split

theorem State.hifWrite_apart {z s : State} (n : Nat) (hk : Apart z s) :
    Apart z (s.hifWrite n) := by
  unfold State.hifWrite
  try dsimp only
  repeat' first
    | with_reducible (first | exact hk | assumption | apply Apart.ite | apply State.putCmd_apart | apply State.jWrite_apart | apply State.wr_apart | apply State.finishCmd_apart)
    | fail_if_no_progress with_reducible apply Apart.mk_upd
    | (intro _ _ _; try dsimp only)
    | intro _
    | split

theorem State.copyIn_apart {z s : State} (src dst : Nat) (b : List Byte) (poisoned : Bool) (hk : Apart z s) :
    Apart z (s.copyIn src dst b poisoned) := by
  unfold State.copyIn
  try dsimp only
  repeat' first
    | with_reducible (first | exact hk | assumption | apply Apart.ite | apply State.forAll_apart | apply State.wrPoison_apart | apply State.wr_apart)
    | fail_if_no_progress with_reducible apply Apart.mk_upd
    | (intro _ _ _; try dsimp only)
    | intro _
    | split

theorem State.copyOut_apart {z s : State} (src dst : Nat) (b : List Byte) (poisoned : Bool) (hk : Apart z s) :
    Apart z (s.copyOut src dst b poisoned) := by
  unfold State.copyOut
  try dsimp only
  repeat' first
    | with_reducible (first | exact hk | assumption | apply Apart.ite | apply State.forAll_apart | apply State.send_apart)
    | fail_if_no_progress with_reducible apply Apart.mk_upd
    | (intro _ _ _; try dsimp only)
    | intro _
    | split

theorem State.copyStep_apart {z s : State} (n : Nat) (host : Option (List Byte)) (poisoned hostOk : Bool) (hk : Apart z s) :
    Apart z (s.copyStep n host poisoned hostOk) := by
  unfold State.copyStep
  try dsimp only
  repeat' first
    | with_reducible (first | exact hk | assumption | apply Apart.ite | apply State.finishCmd_apart | apply State.copyOut_apart | apply State.copyIn_apart | apply State.putCmd_apart | apply State.jWrite_apart | exact R.hifStatus_far)
    | fail_if_no_progress with_reducible apply Apart.mk_upd
    | (intro _ _ _; try dsimp only)
    | intro _
    | split

theorem State.hifLimit_apart {z s : State} (n : Nat) (hk : Apart z s) :
    Apart z (s.hifLimit n) := by
  unfold State.hifLimit
  try dsimp only
  repeat' first
    | with_reducible (first | exact hk | assumption | apply Apart.ite | apply State.setLimit_apart | apply State.finishCmd_apart)
    | fail_if_no_progress with_reducible apply Apart.mk_upd
    | (intro _ _ _; try dsimp only)
    | intro _
    | split

theorem State.hifPost_apart {z s : State} (n : Nat) (hk : Apart z s) :
    Apart z (s.hifPost n) := by
  unfold State.hifPost
  try dsimp only
  repeat' first
    | with_reducible (first | exact hk | assumption | apply Apart.ite | apply State.extPost_apart | apply State.finishCmd_apart)
    | fail_if_no_progress with_reducible apply Apart.mk_upd
    | (intro _ _ _; try dsimp only)
    | intro _
    | split

theorem State.hifCmd_apart {z s : State} (n : Nat) (hk : Apart z s) :
    Apart z (s.hifCmd n) := by
  unfold State.hifCmd
  try dsimp only
  repeat' first
    | with_reducible (first | exact hk | assumption | apply Apart.ite | apply State.noResume_apart | apply State.accept_apart | apply State.setFld_apart | apply State.finishCmd_apart | apply State.psqDo_apart | exact R.psqStatus_far _)
    | fail_if_no_progress with_reducible apply Apart.mk_upd
    | (intro _ _ _; try dsimp only)
    | intro _
    | split

theorem State.hifPool_apart {z s : State} (n : Nat) (cqOk : Bool) (hk : Apart z s) : Apart z (s.hifPool n cqOk) := by
  unfold State.hifPool
  split
  · exact hk
  · refine Apart.ite hk (State.acceptCmd_apart _ _ _ _ _ _ (State.modEvent_apart _ (State.wrN_apart _ _ _ ?_)))
    exact Apart.mk_upd (State.wr_apart _ _ hk) ..

theorem State.poolDone_apart {z s : State} (n cid status : Nat) (hk : Apart z s) :
    Apart z (s.poolDone n cid status) := by
  unfold State.poolDone
  try dsimp only
  repeat' first
    | with_reducible (first | exact hk | assumption | apply Apart.ite | apply State.finishCmd_apart)
    | fail_if_no_progress with_reducible apply Apart.mk_upd
    | (intro _ _ _; try dsimp only)
    | intro _
    | split

theorem State.deleteDone_apart {z s : State} (n : Nat) (hk : Apart z s) :
    Apart z (s.deleteDone n) := by
  unfold State.deleteDone
  try dsimp only
  repeat' first
    | with_reducible (first | exact hk | assumption | apply Apart.ite | apply State.setHq_apart | apply State.setFld_apart | exact R.hifQStatus_far _)
    | fail_if_no_progress with_reducible apply Apart.mk_upd
    | (intro _ _ _; try dsimp only)
    | intro _
    | split

theorem State.cmdComplete_apart {z s : State} (n : Nat) (cqOk : Bool) (hk : Apart z s) :
    Apart z (s.cmdComplete n cqOk) := by
  unfold State.cmdComplete
  try dsimp only
  repeat' first
    | with_reducible (first | exact hk | assumption | apply Apart.ite | apply State.cqLost_apart | apply State.cqWrite_apart | apply State.modHq_apart | apply State.jWrite_apart | apply State.jOldest_apart | apply State.irqCheck_apart | apply State.deleteDone_apart)
    | fail_if_no_progress with_reducible apply Apart.mk_upd
    | (intro _ _ _; try dsimp only)
    | intro _
    | split

theorem State.dbDrop_apart {z s : State} (hk : Apart z s) :
    Apart z s.dbDrop := by
  unfold State.dbDrop
  try dsimp only
  repeat' first
    | with_reducible (first | exact hk | assumption | apply Apart.ite | apply State.addSat_apart | exact R.hifErr_far)
    | fail_if_no_progress with_reducible apply Apart.mk_upd
    | (intro _ _ _; try dsimp only)
    | intro _
    | split

theorem State.dbSq_apart {z s : State} (m : Master) (n tail gen : Nat) (hk : Apart z s) :
    Apart z (s.dbSq m n tail gen) := by
  unfold State.dbSq
  try dsimp only
  repeat' first
    | with_reducible (first | exact hk | assumption | apply Apart.ite | apply State.dbDrop_apart | apply State.setHq_apart | apply State.setFld_apart | apply State.addSat_apart | apply State.qpError_apart | exact R.hifQStatus_far _ | exact R.hifQCnt_far _)
    | fail_if_no_progress with_reducible apply Apart.mk_upd
    | (intro _ _ _; try dsimp only)
    | intro _
    | split

theorem State.dbCq_apart {z s : State} (m : Master) (n head : Nat) (hk : Apart z s) :
    Apart z (s.dbCq m n head) := by
  unfold State.dbCq
  try dsimp only
  repeat' first
    | with_reducible (first | exact hk | assumption | apply Apart.ite | apply State.dbDrop_apart | apply State.setHq_apart | apply State.irqCheck_apart)
    | fail_if_no_progress with_reducible apply Apart.mk_upd
    | (intro _ _ _; try dsimp only)
    | intro _
    | split

theorem State.reportDone_apart {z s : State} (k n : Nat) (c : Cmd) (hk : Apart z s) :
    Apart z (s.reportDone k n c) := by
  unfold State.reportDone
  try dsimp only
  repeat' first
    | with_reducible (first | exact hk | assumption | apply Apart.ite | apply State.cqWrite_apart | apply State.modHq_apart | apply State.jWrite_apart | apply State.jOldest_apart)
    | fail_if_no_progress with_reducible apply Apart.mk_upd
    | (intro _ _ _; try dsimp only)
    | intro _
    | split

theorem State.reportLeft_apart {z s : State} (n : Nat) (hk : Apart z s) :
    Apart z (s.reportLeft n) := by
  unfold State.reportLeft
  try dsimp only
  repeat' first
    | with_reducible (first | exact hk | assumption | apply Apart.ite | apply State.modHq_apart | apply State.ackCmd_apart | apply State.cqLost_apart | apply State.reportDone_apart | apply Apart.foldl | apply Apart.foldl_fst | apply Apart.foldl_snd)
    | fail_if_no_progress with_reducible apply Apart.mk_upd
    | (intro _ _ _; try dsimp only)
    | intro _
    | split

theorem State.qpCreate_apart {z s : State} (n : Nat) (hk : Apart z s) :
    Apart z (s.qpCreate n) := by
  unfold State.qpCreate
  try dsimp only
  repeat' first
    | with_reducible (first | exact hk | assumption | apply Apart.ite | apply State.setFld_apart | apply State.setHq_apart | apply State.setReg_apart | apply State.reportLeft_apart | apply State.irqCheck_apart | exact R.hifQStatus_far _ | exact R.hifQCfg_far _ | exact R.hifQErr_far _ | exact R.hifQCnt_far _)
    | fail_if_no_progress with_reducible apply Apart.mk_upd
    | (intro _ _ _; try dsimp only)
    | intro _
    | split

theorem State.qpDelete_apart {z s : State} (n : Nat) (hk : Apart z s) :
    Apart z (s.qpDelete n) := by
  unfold State.qpDelete
  try dsimp only
  repeat' first
    | with_reducible (first | exact hk | assumption | apply Apart.ite | apply State.modHq_apart | apply State.deleteDone_apart)
    | fail_if_no_progress with_reducible apply Apart.mk_upd
    | (intro _ _ _; try dsimp only)
    | intro _
    | split

theorem State.qpRestart_apart {z s : State} (n : Nat) (hk : Apart z s) :
    Apart z (s.qpRestart n) := by
  unfold State.qpRestart
  try dsimp only
  repeat' first
    | with_reducible (first | exact hk | assumption | apply Apart.ite | apply State.setReg_apart | apply State.setFld_apart | apply State.modHq_apart | apply State.refuseEntry_apart | apply State.ackCmd_apart | exact R.hifQErr_far _ | exact R.hifQStatus_far _ | apply Apart.foldl | apply Apart.foldl_fst | apply Apart.foldl_snd)
    | fail_if_no_progress with_reducible apply Apart.mk_upd
    | (intro _ _ _; try dsimp only)
    | intro _
    | split

theorem State.qpReset_apart {z s : State} (n : Nat) (hk : Apart z s) :
    Apart z (s.qpReset n) := by
  unfold State.qpReset
  try dsimp only
  repeat' first
    | with_reducible (first | exact hk | assumption | apply Apart.ite | apply State.setHq_apart | apply State.resetRegs_apart | apply State.setFld_apart | exact R.hifQCfg_far _ | exact R.hifQSq_far _ | exact R.hifQCq_far _ | exact R.hifQStatus_far _ | exact R.hifQErr_far _ | exact R.hifQIrq_far _ | exact R.hifQCnt_far _)
    | (intro a h
       simp only [List.mem_flatMap, List.mem_map, List.mem_append, List.mem_cons, List.not_mem_nil, or_false] at h
       (casesm* _ ∨ _, Exists _, _ ∧ _) <;> subst_vars <;> (first | exact R.hifQCfg_far _ | exact R.hifQSq_far _ | exact R.hifQCq_far _ | exact R.hifQStatus_far _ | exact R.hifQErr_far _ | exact R.hifQIrq_far _ | exact R.hifQCnt_far _))
    | fail_if_no_progress with_reducible apply Apart.mk_upd
    | (intro _ _ _; try dsimp only)
    | intro _
    | split

theorem State.jReplay_apart {z s : State} (k : Nat) (hk : Apart z s) :
    Apart z (s.jReplay k) := by
  unfold State.jReplay
  try dsimp only
  repeat' first
    | with_reducible (first | exact hk | assumption | apply Apart.ite | apply State.setReg_apart | apply State.setFld_apart | apply State.endEpoch_apart | apply State.modHq_apart | apply State.forAll_apart | apply State.jOldest_apart | apply State.afterReplay_apart | exact R.psqStatus_far _ | exact R.memStatus_far _ | exact R.psqJrnlStatus_far _ | exact R.psqJrnlNext_far _ | apply Apart.foldl | apply Apart.foldl_fst | apply Apart.foldl_snd)
    | fail_if_no_progress with_reducible apply Apart.mk_upd
    | (intro _ _ _; try dsimp only)
    | intro _
    | split

theorem State.ringEnable_apart {z s : State} (base : Nat) (hk : Apart z s) :
    Apart z (s.ringEnable base) := by
  unfold State.ringEnable
  try dsimp only
  repeat' first
    | with_reducible (first | exact hk | assumption | apply Apart.ite | apply State.setFld_apart | apply State.wrN_apart | exact R.hifPoolRing_far)
    | fail_if_no_progress with_reducible apply Apart.mk_upd
    | (intro _ _ _; try dsimp only)
    | intro _
    | split

end Sys2Proof.Machine
end

