-- ==== Sys2Proof/Laws/ApartWeave.lean ====
section
/-! SUPPORT. What the operations of Machine/Weave.lean leave to the Lockkeeper, the weave and the SEC (Laws/Apart.lean). -/

namespace Sys2Proof.Machine

set_option linter.unusedTactic false
set_option linter.unreachableTactic false
set_option linter.unusedSimpArgs false

theorem State.extend_apart {z s : State} (i : Nat) (d : BitVec 384) (hk : Apart z s) :
    Apart z (s.extend i d) := by
  unfold State.extend
  try dsimp only
  repeat' first
    | with_reducible (first | exact hk | assumption | apply Apart.ite)
    | fail_if_no_progress with_reducible apply Apart.mk_upd
    | (intro _ _ _; try dsimp only)
    | intro _
    | split

theorem State.showCap_apart {z s : State} (k : Nat) (hk : Apart z s) :
    Apart z (s.showCap k) := by
  unfold State.showCap
  try dsimp only
  repeat' first
    | with_reducible (first | exact hk | assumption | apply Apart.ite | apply State.setReg_apart | apply State.setFld_apart | exact R.psqFtCap_far _)
    | fail_if_no_progress with_reducible apply Apart.mk_upd
    | (intro _ _ _; try dsimp only)
    | intro _
    | split

theorem State.showQueue_apart {z s : State} (n : Nat) (hk : Apart z s) :
    Apart z (s.showQueue n) := by
  unfold State.showQueue
  try dsimp only
  repeat' first
    | with_reducible (first | exact hk | assumption | apply Apart.ite | apply State.setFld_apart | exact R.hifQCfg_far _)
    | fail_if_no_progress with_reducible apply Apart.mk_upd
    | (intro _ _ _; try dsimp only)
    | intro _
    | split

theorem State.showEng_apart {z s : State} (e : Nat) (hk : Apart z s) :
    Apart z (s.showEng e) := by
  unfold State.showEng
  try dsimp only
  repeat' first
    | with_reducible (first | exact hk | assumption | apply Apart.ite | apply State.setFld_apart | exact R.mxeStatus_far _ | exact R.vecDvuStatus_far _)
    | fail_if_no_progress with_reducible apply Apart.mk_upd
    | (intro _ _ _; try dsimp only)
    | intro _
    | split

theorem State.showPvu_apart {z s : State} (v : Nat) (hk : Apart z s) :
    Apart z (s.showPvu v) := by
  unfold State.showPvu
  try dsimp only
  repeat' first
    | with_reducible (first | exact hk | assumption | apply Apart.ite | apply State.setFld_apart | exact R.vecPvuStatus_far _)
    | fail_if_no_progress with_reducible apply Apart.mk_upd
    | (intro _ _ _; try dsimp only)
    | intro _
    | split

theorem State.showQuay_apart {z s : State} (q : Nat) (hk : Apart z s) :
    Apart z (s.showQuay q) := by
  unfold State.showQuay
  try dsimp only
  repeat' first
    | with_reducible (first | exact hk | assumption | apply Apart.ite | apply State.setFld_apart | exact R.quyStatus_far _)
    | fail_if_no_progress with_reducible apply Apart.mk_upd
    | (intro _ _ _; try dsimp only)
    | intro _
    | split

theorem State.showUnits_apart {z s : State} (eng pvu : Nat) (hk : Apart z s) :
    Apart z (s.showUnits eng pvu) := by
  unfold State.showUnits
  try dsimp only
  repeat' first
    | with_reducible (first | exact hk | assumption | apply Apart.ite | apply State.forAll_apart | apply State.showEng_apart | apply State.showPvu_apart | apply State.showQuay_apart)
    | fail_if_no_progress with_reducible apply Apart.mk_upd
    | (intro _ _ _; try dsimp only)
    | intro _
    | split

theorem State.formStake_apart {z s : State} (k : Nat) (hk : Apart z s) :
    Apart z (s.formStake k) := by
  unfold State.formStake
  try dsimp only
  repeat' first
    | with_reducible (first | exact hk | assumption | apply Apart.ite | apply State.setPst_apart | apply State.openEpoch_apart)
    | fail_if_no_progress with_reducible apply Apart.mk_upd
    | (intro _ _ _; try dsimp only)
    | intro _
    | split

theorem State.showPrev_apart {z s : State} (hk : Apart z s) :
    Apart z s.showPrev := by
  unfold State.showPrev
  try dsimp only
  repeat' first
    | with_reducible (first | exact hk | assumption | apply Apart.ite | apply State.forAll_apart | apply State.setReg_apart | apply State.setFld_apart | exact R.psqJrnlPrev_far _ | exact R.psqJrnlPrevEpoch_far _)
    | fail_if_no_progress with_reducible apply Apart.mk_upd
    | (intro _ _ _; try dsimp only)
    | intro _
    | split

theorem State.holdUnits_apart {z s : State} (hk : Apart z s) :
    Apart z s.holdUnits := by
  unfold State.holdUnits
  try dsimp only
  repeat' first
    | with_reducible (first | exact hk | assumption | apply Apart.ite | apply State.forAll_apart | apply State.setFld_apart | apply State.braceThreads_apart | exact R.psqStatus_far _ | exact R.psqJrnlStatus_far _)
    | fail_if_no_progress with_reducible apply Apart.mk_upd
    | (intro _ _ _; try dsimp only)
    | intro _
    | split

theorem State.psqClear_apart {z s : State} (k : Nat) (hk : Apart z s) :
    Apart z (s.psqClear k) := by
  unfold State.psqClear
  try dsimp only
  repeat' first
    | with_reducible (first | exact hk | assumption | apply Apart.ite | apply State.setQ_apart | apply State.resetRegs_apart | apply State.setFld_apart | exact R.psqStatus_far _ | exact R.psqFtSubst_far _ _ | exact R.psqPc_far _ _ | exact R.psqIndex_far _ _ | exact R.psqLimit_far _ _ | exact R.psqFrec0_far _ _ | exact R.psqFrec1_far _ _ | exact R.psqInflight_far _ _ | exact R.psqAhead_far _ _)
    | (intro a h
       simp only [List.mem_flatMap, List.mem_map, List.mem_append, List.mem_cons, List.not_mem_nil, or_false] at h
       (casesm* _ ∨ _, Exists _, _ ∧ _) <;> subst_vars <;> (first | exact R.psqStatus_far _ | exact R.psqFtSubst_far _ _ | exact R.psqPc_far _ _ | exact R.psqIndex_far _ _ | exact R.psqLimit_far _ _ | exact R.psqFrec0_far _ _ | exact R.psqFrec1_far _ _ | exact R.psqInflight_far _ _ | exact R.psqAhead_far _ _))
    | fail_if_no_progress with_reducible apply Apart.mk_upd
    | (intro _ _ _; try dsimp only)
    | intro _
    | split

theorem State.loseSpads_apart {z s : State} (eng : Nat) (hk : Apart z s) :
    Apart z (s.loseSpads eng) := by
  unfold State.loseSpads
  try dsimp only
  repeat' first
    | with_reducible (first | exact hk | assumption | apply Apart.ite | apply State.forAll_apart | apply State.lose_apart)
    | fail_if_no_progress with_reducible apply Apart.mk_upd
    | (intro _ _ _; try dsimp only)
    | intro _
    | split

theorem State.takeUnits_apart {z s : State} (old new : StakeRec) (hk : Apart z s) :
    Apart z (s.takeUnits old new) := by
  unfold State.takeUnits
  try dsimp only
  repeat' first
    | with_reducible (first | exact hk | assumption | apply Apart.ite | apply State.haltThreads_apart | apply State.loseSpads_apart | apply State.forAll_apart | apply State.setPv_apart)
    | fail_if_no_progress with_reducible apply Apart.mk_upd
    | (intro _ _ _; try dsimp only)
    | intro _
    | split

theorem State.keepPool_apart {z s : State} (k kd : Nat) (old new : StakeRec) (hk : Apart z s) :
    Apart z (s.keepPool k kd old new) := by
  unfold State.keepPool
  try dsimp only
  repeat' first
    | with_reducible (first | exact hk | assumption | apply Apart.ite | apply State.setFld_apart | apply State.setKv_apart | exact R.kvpSStatus_far _ _)
    | fail_if_no_progress with_reducible apply Apart.mk_upd
    | (intro _ _ _; try dsimp only)
    | intro _
    | split

theorem State.turnQueues_apart {z s : State} (k : Nat) (hk : Apart z s) :
    Apart z (s.turnQueues k) := by
  unfold State.turnQueues
  try dsimp only
  repeat' first
    | with_reducible (first | exact hk | assumption | apply Apart.ite | apply State.forAll_apart | apply State.showQueue_apart | apply State.qpReset_apart)
    | fail_if_no_progress with_reducible apply Apart.mk_upd
    | (intro _ _ _; try dsimp only)
    | intro _
    | split

end Sys2Proof.Machine
end

