-- ==== Sys2Proof/Laws/ApartLock.lean ====
section
/-! SUPPORT. What the operations of Machine/Lock.lean leave to the Lockkeeper, the weave and the SEC (Laws/Apart.lean). -/

namespace Sys2Proof.Machine

set_option linter.unusedTactic false
set_option linter.unreachableTactic false
set_option linter.unusedSimpArgs false

theorem State.takeCapture_apart {z s : State} (hk : Apart z s) :
    Apart z s.takeCapture := by
  unfold State.takeCapture
  try dsimp only
  repeat' first
    | with_reducible (first | exact hk | assumption | apply Apart.ite | exact R.psqJrnlStatus_far _ | exact R.psqJrnlNext_far _ | exact R.psqJrnlLast_far _)
    | fail_if_no_progress with_reducible apply Apart.mk_upd
    | (intro _ _ _; try dsimp only)
    | intro _
    | split

theorem State.loadRole_apart {z s : State} (hk : Apart z s) :
    Apart z s.loadRole := by
  unfold State.loadRole
  try dsimp only
  repeat' first
    | with_reducible (first | exact hk | assumption | apply Apart.ite | apply State.setFld_apart | apply State.setReg_apart | exact R.hifCtl_far | exact R.twpModid_far)
    | fail_if_no_progress with_reducible apply Apart.mk_upd
    | (intro _ _ _; try dsimp only)
    | intro _
    | split

theorem State.hifUp_apart {z s : State} (hk : Apart z s) :
    Apart z s.hifUp := by
  unfold State.hifUp
  try dsimp only
  repeat' first
    | with_reducible (first | exact hk | assumption | apply Apart.ite | apply State.setFld_apart | exact R.hifStatus_far | exact R.hifWin_far)
    | fail_if_no_progress with_reducible apply Apart.mk_upd
    | (intro _ _ _; try dsimp only)
    | intro _
    | split

theorem State.reloadPvu_apart {z s : State} (v : Nat) (hk : Apart z s) :
    Apart z (s.reloadPvu v) := by
  unfold State.reloadPvu
  try dsimp only
  repeat' first
    | with_reducible (first | exact hk | assumption | apply Apart.ite | apply State.setPv_apart | exact R.vecPvuBack_far _ | apply Apart.foldl | apply Apart.foldl_fst | apply Apart.foldl_snd)
    | fail_if_no_progress with_reducible apply Apart.mk_upd
    | (intro _ _ _; try dsimp only)
    | intro _
    | split

theorem State.resumeIdle_apart {z s : State} (k : Nat) (hk : Apart z s) :
    Apart z (s.resumeIdle k) := by
  unfold State.resumeIdle
  try dsimp only
  repeat' first
    | with_reducible (first | exact hk | assumption | apply Apart.ite | apply State.noResume_apart | apply State.psqResume_apart | apply State.asuRebuild_apart)
    | fail_if_no_progress with_reducible apply Apart.mk_upd
    | (intro _ _ _; try dsimp only)
    | intro _
    | split

theorem State.stackReady_apart {z s : State} (h : Nat) (hk : Apart z s) :
    Apart z (s.stackReady h) := by
  unfold State.stackReady
  try dsimp only
  repeat' first
    | with_reducible (first | exact hk | assumption | apply Apart.ite | apply State.setFld_apart | exact R.memStatus_far _)
    | fail_if_no_progress with_reducible apply Apart.mk_upd
    | (intro _ _ _; try dsimp only)
    | intro _
    | split

end Sys2Proof.Machine
end

