-- ==== Sys2Proof/Laws/ApartReset.lean ====
section
/-! SUPPORT. What the operations of Machine/Reset.lean leave to the Lockkeeper, the weave and the SEC (Laws/Apart.lean). -/

namespace Sys2Proof.Machine

set_option linter.unusedTactic false
set_option linter.unreachableTactic false
set_option linter.unusedSimpArgs false

theorem State.parkThread_apart {z s : State} (t : Nat) (hk : Apart z s) :
    Apart z (s.parkThread t) := by
  unfold State.parkThread
  try dsimp only
  repeat' first
    | with_reducible (first | exact hk | assumption | apply Apart.ite | apply State.retreat_apart | apply State.unwait_apart | apply State.setThr_apart | apply State.setT_apart)
    | fail_if_no_progress with_reducible apply Apart.mk_upd
    | (intro _ _ _; try dsimp only)
    | intro _
    | split

theorem State.clearHomes_apart {z s : State} (hk : Apart z s) :
    Apart z s.clearHomes := by
  unfold State.clearHomes
  try dsimp only
  repeat' first
    | with_reducible (first | exact hk | assumption | apply Apart.ite)
    | fail_if_no_progress with_reducible apply Apart.mk_upd
    | (intro _ _ _; try dsimp only)
    | intro _
    | split

theorem State.warmUnits_apart {z s : State} (hk : Apart z s) :
    Apart z s.warmUnits := by
  unfold State.warmUnits
  try dsimp only
  repeat' first
    | with_reducible (first | exact hk | assumption | apply Apart.ite | apply State.forAll_apart | apply State.parkThread_apart | apply State.clearHomes_apart | apply State.asuFlush_apart | apply State.setFld_apart | exact R.psqStatus_far _ | exact R.memStatus_far _)
    | fail_if_no_progress with_reducible apply Apart.mk_upd
    | (intro _ _ _; try dsimp only)
    | intro _
    | split

theorem State.captureDone_apart {z s : State} (hk : Apart z s) :
    Apart z s.captureDone := by
  unfold State.captureDone
  try dsimp only
  repeat' first
    | with_reducible (first | exact hk | assumption | apply Apart.ite | apply State.takeCapture_apart)
    | fail_if_no_progress with_reducible apply Apart.mk_upd
    | (intro _ _ _; try dsimp only)
    | intro _
    | split

theorem State.dropJobs_apart {z s : State} (k : Nat) (hk : Apart z s) :
    Apart z (s.dropJobs k) := by
  unfold State.dropJobs
  try dsimp only
  repeat' first
    | with_reducible (first | exact hk | assumption | apply Apart.ite | apply State.forAll_apart | apply State.freeJob_apart | apply State.setXc_apart | apply State.setReg_apart | exact R.rdxSXstat_far _)
    | fail_if_no_progress with_reducible apply Apart.mk_upd
    | (intro _ _ _; try dsimp only)
    | intro _
    | split

theorem State.dropWindows_apart {z s : State} (k : Nat) (hk : Apart z s) :
    Apart z (s.dropWindows k) := by
  unfold State.dropWindows
  try dsimp only
  repeat' first
    | with_reducible (first | exact hk | assumption | apply Apart.ite | apply State.forAll_apart | apply State.setFld_apart | exact R.twpWinCtl_far _)
    | fail_if_no_progress with_reducible apply Apart.mk_upd
    | (intro _ _ _; try dsimp only)
    | intro _
    | split

theorem State.holdStake_apart {z s : State} (k : Nat) (hk : Apart z s) :
    Apart z (s.holdStake k) := by
  unfold State.holdStake
  try dsimp only
  repeat' first
    | with_reducible (first | exact hk | assumption | apply Apart.ite | apply State.setFld_apart | exact R.psqStatus_far _)
    | fail_if_no_progress with_reducible apply Apart.mk_upd
    | (intro _ _ _; try dsimp only)
    | intro _
    | split

end Sys2Proof.Machine
end

