-- ==== Sys2Proof/Laws/ApartBrace.lean ====
section
/-! SUPPORT. What the operations of Machine/Brace.lean leave to the Lockkeeper, the weave and the SEC (Laws/Apart.lean). -/

namespace Sys2Proof.Machine

set_option linter.unusedTactic false
set_option linter.unreachableTactic false
set_option linter.unusedSimpArgs false

theorem State.braceStake_apart {z s : State} (k : Nat) (hk : Apart z s) :
    Apart z (s.braceStake k) := by
  unfold State.braceStake
  try dsimp only
  repeat' first
    | with_reducible (first | exact hk | assumption | apply Apart.ite | apply State.setFld_apart | apply State.withdraw_apart | apply State.braceThreads_apart | exact R.psqStatus_far _ | exact R.psqJrnlStatus_far _)
    | fail_if_no_progress with_reducible apply Apart.mk_upd
    | (intro _ _ _; try dsimp only)
    | intro _
    | split

theorem State.markBraced_apart {z s : State} (v : Nat) (hk : Apart z s) :
    Apart z (s.markBraced v) := by
  unfold State.markBraced
  try dsimp only
  repeat' first
    | with_reducible (first | exact hk | assumption | apply Apart.ite | apply State.forAll_apart | apply State.setFld_apart | exact R.hifQStatus_far _)
    | fail_if_no_progress with_reducible apply Apart.mk_upd
    | (intro _ _ _; try dsimp only)
    | intro _
    | split

theorem State.unbraceStake_apart {z s : State} (k : Nat) (hk : Apart z s) :
    Apart z (s.unbraceStake k) := by
  unfold State.unbraceStake
  try dsimp only
  repeat' first
    | with_reducible (first | exact hk | assumption | apply Apart.ite | apply State.setFld_apart | apply State.braceThreads_apart | exact R.psqStatus_far _ | exact R.psqJrnlStatus_far _)
    | fail_if_no_progress with_reducible apply Apart.mk_upd
    | (intro _ _ _; try dsimp only)
    | intro _
    | split

theorem State.linkOff_apart {z s : State} (hk : Apart z s) :
    Apart z s.linkOff := by
  unfold State.linkOff
  try dsimp only
  repeat' first
    | with_reducible (first | exact hk | assumption | apply Apart.ite | apply State.setFld_apart | exact R.hifStatus_far)
    | fail_if_no_progress with_reducible apply Apart.mk_upd
    | (intro _ _ _; try dsimp only)
    | intro _
    | split

theorem State.linkOn_apart {z s : State} (width speed : Nat) (flit : Bool) (hk : Apart z s) :
    Apart z (s.linkOn width speed flit) := by
  unfold State.linkOn
  try dsimp only
  repeat' first
    | with_reducible (first | exact hk | assumption | apply Apart.ite | apply State.setFld_apart | exact R.hifStatus_far | exact R.hifCtl_far)
    | fail_if_no_progress with_reducible apply Apart.mk_upd
    | (intro _ _ _; try dsimp only)
    | intro _
    | split

theorem State.linkEnable_apart {z s : State} (b : Bool) (hk : Apart z s) :
    Apart z (s.linkEnable b) := by
  unfold State.linkEnable
  try dsimp only
  repeat' first
    | with_reducible (first | exact hk | assumption | apply Apart.ite | apply State.setFld_apart | apply State.linkOff_apart | exact R.hifCtl_far)
    | fail_if_no_progress with_reducible apply Apart.mk_upd
    | (intro _ _ _; try dsimp only)
    | intro _
    | split

end Sys2Proof.Machine
end

