-- ==== Sys2Proof/Laws/ApartFaults.lean ====
section
/-! SUPPORT. What the operations of Machine/Faults.lean leave to the Lockkeeper, the weave and the SEC (Laws/Apart.lean). -/

namespace Sys2Proof.Machine

set_option linter.unusedTactic false
set_option linter.unreachableTactic false
set_option linter.unusedSimpArgs false

theorem State.recordFault_apart {z s : State} (k kind unit : Nat) (peer : Option Nat) (nopeer : Bool) (ns : Nat) (hk : Apart z s) :
    Apart z (s.recordFault k kind unit peer nopeer ns) := by
  unfold State.recordFault
  try dsimp only
  repeat' first
    | with_reducible (first | exact hk | assumption | apply Apart.ite | apply State.setFld_apart | apply State.addSat_apart | apply State.showCap_apart | apply State.stakeEvent_apart | exact R.psqFtRec0_far _ | exact R.psqFtRec1_far _ | exact R.psqStep_far _)
    | fail_if_no_progress with_reducible apply Apart.mk_upd
    | (intro _ _ _; try dsimp only)
    | intro _
    | split

theorem State.holdWork_apart {z s : State} (k code unit : Nat) (p : Outst → Bool) (hk : Apart z s) :
    Apart z (s.holdWork k code unit p) := by
  unfold State.holdWork
  try dsimp only
  repeat' first
    | with_reducible (first | exact hk | assumption | apply Apart.ite | apply State.setOutst_apart | apply State.forAll_apart | apply State.raiseFault_apart | apply State.withdraw_apart | apply State.withdrawSome_apart | exact R.psqStatus_far _)
    | fail_if_no_progress with_reducible apply Apart.mk_upd
    | (intro _ _ _; try dsimp only)
    | intro _
    | split

theorem State.moveWork_apart {z s : State} (k e u : Nat) (hk : Apart z s) :
    Apart z (s.moveWork k e u) := by
  unfold State.moveWork
  try dsimp only
  repeat' first
    | with_reducible (first | exact hk | assumption | apply Apart.ite | apply State.setOutst_apart | apply State.forAll_apart | apply State.setFld_apart | apply State.syncMxe_apart | apply State.syncDvu_apart | exact R.psqFtSubst_far _ _)
    | fail_if_no_progress with_reducible apply Apart.mk_upd
    | (intro _ _ _; try dsimp only)
    | intro _
    | split

theorem State.rehome_apart {z s : State} (k c t : Nat) (hk : Apart z s) :
    Apart z (s.rehome k c t) := by
  unfold State.rehome
  try dsimp only
  repeat' first
    | with_reducible (first | exact hk | assumption | apply Apart.ite | apply State.restart_apart | apply State.setFld_apart | apply State.unwait_apart | apply State.setThr_apart | apply State.setT_apart | exact thrReg_far _)
    | fail_if_no_progress with_reducible apply Apart.mk_upd
    | (intro _ _ _; try dsimp only)
    | intro _
    | split

theorem State.failAtoms_apart {z s : State} (q : Nat) (hk : Apart z s) :
    Apart z (s.failAtoms q) := by
  unfold State.failAtoms
  try dsimp only
  repeat' first
    | with_reducible (first | exact hk | assumption | apply Apart.ite | apply State.setQu_apart | apply State.homeDone_apart | apply State.homeWake_apart | apply Apart.foldl | apply Apart.foldl_fst | apply Apart.foldl_snd)
    | fail_if_no_progress with_reducible apply Apart.mk_upd
    | (intro _ _ _; try dsimp only)
    | intro _
    | split

theorem State.loseQuay_apart {z s : State} (q : Nat) (hk : Apart z s) :
    Apart z (s.loseQuay q) := by
  unfold State.loseQuay
  try dsimp only
  repeat' first
    | with_reducible (first | exact hk | assumption | apply Apart.ite | apply State.forAll_apart | apply State.failAtoms_apart | apply State.holdWork_apart | apply State.setQu_apart)
    | fail_if_no_progress with_reducible apply Apart.mk_upd
    | (intro _ _ _; try dsimp only)
    | intro _
    | split

theorem State.coverQuay_apart {z s : State} (q : Nat) (hk : Apart z s) :
    Apart z (s.coverQuay q) := by
  unfold State.coverQuay
  try dsimp only
  repeat' first
    | with_reducible (first | exact hk | assumption | apply Apart.ite | apply State.setQu_apart | apply State.setFld_apart | exact R.quyStatus_far _)
    | fail_if_no_progress with_reducible apply Apart.mk_upd
    | (intro _ _ _; try dsimp only)
    | intro _
    | split

theorem State.failLane_apart {z s : State} (p lane ns : Nat) (hk : Apart z s) :
    Apart z (s.failLane p lane ns) := by
  unfold State.failLane
  try dsimp only
  repeat' first
    | with_reducible (first | exact hk | assumption | apply Apart.ite | apply State.setPt_apart | apply State.startRetrain_apart | apply State.forAll_apart | apply State.recordFault_apart)
    | fail_if_no_progress with_reducible apply Apart.mk_upd
    | (intro _ _ _; try dsimp only)
    | intro _
    | split

theorem State.failPort_apart {z s : State} (p ns : Nat) (hk : Apart z s) :
    Apart z (s.failPort p ns) := by
  unfold State.failPort
  try dsimp only
  repeat' first
    | with_reducible (first | exact hk | assumption | apply Apart.ite | apply State.portDown_apart | apply State.forAll_apart | apply State.recordFault_apart)
    | fail_if_no_progress with_reducible apply Apart.mk_upd
    | (intro _ _ _; try dsimp only)
    | intro _
    | split

end Sys2Proof.Machine
end

