-- ==== Sys2Proof/Laws/ApartRegAccess.lean ====
section
/-! SUPPORT. What the operations of Machine/RegAccess.lean leave to the Lockkeeper, the weave and the SEC (Laws/Apart.lean). -/

namespace Sys2Proof.Machine

set_option linter.unusedTactic false
set_option linter.unreachableTactic false
set_option linter.unusedSimpArgs false

theorem State.regView_apart {z s : State} (a : Nat) (hk : Apart z s) :
    Apart z (s.regView a).2 := by
  unfold State.regView
  try dsimp only
  repeat' first
    | with_reducible (first | exact hk | assumption | apply Apart.ite | apply State.setFld_apart | apply State.draw_apart | exact R.cohHStatus_far _ | exact R.vecDvuStatus_far _ | exact R.tcxT_far _ _ | exact R.ptbCtl_far)
    | fail_if_no_progress with_reducible apply Apart.mk_upd
    | (intro _ _ _; try dsimp only)
    | intro _
    | split

theorem State.guarded_apart {z s : State} (ok : Bool) (t : State) (ht : Apart z t) (hk : Apart z s) :
    Apart z (s.guarded ok t) := by
  unfold State.guarded
  try dsimp only
  repeat' first
    | with_reducible (first | exact hk | assumption | apply Apart.ite | apply State.answer_apart)
    | fail_if_no_progress with_reducible apply Apart.mk_upd
    | (intro _ _ _; try dsimp only)
    | intro _
    | split

theorem State.kvDo_apart {z s : State} (k cmd : Nat) (hk : Apart z s) :
    Apart z (s.kvDo k cmd) := by
  unfold State.kvDo
  try dsimp only
  repeat' first
    | with_reducible (first | exact hk | assumption | apply Apart.ite | apply State.kvInit_apart | apply State.setFld_apart | exact R.kvpSStatus_far _ _)
    | fail_if_no_progress with_reducible apply Apart.mk_upd
    | (intro _ _ _; try dsimp only)
    | intro _
    | split

theorem State.decCommit_apart {z s : State} (n : Nat) (hk : Apart z s) :
    Apart z (s.decCommit n) := by
  unfold State.decCommit
  try dsimp only
  repeat' first
    | with_reducible (first | exact hk | assumption | apply Apart.ite | apply State.answer_apart | apply State.setFld_apart | exact R.cxtDecCtl_far _)
    | fail_if_no_progress with_reducible apply Apart.mk_upd
    | (intro _ _ _; try dsimp only)
    | intro _
    | split

theorem State.decUncommit_apart {z s : State} (n : Nat) (hk : Apart z s) :
    Apart z (s.decUncommit n) := by
  unfold State.decUncommit
  try dsimp only
  repeat' first
    | with_reducible (first | exact hk | assumption | apply Apart.ite | apply State.answer_apart | apply State.setFld_apart | exact R.cxtDecCtl_far _)
    | fail_if_no_progress with_reducible apply Apart.mk_upd
    | (intro _ _ _; try dsimp only)
    | intro _
    | split

theorem State.decLock_apart {z s : State} (n : Nat) (hk : Apart z s) :
    Apart z (s.decLock n) := by
  unfold State.decLock
  try dsimp only
  repeat' first
    | with_reducible (first | exact hk | assumption | apply Apart.ite | apply State.answer_apart | apply State.setFld_apart | exact R.cxtDecCtl_far _)
    | fail_if_no_progress with_reducible apply Apart.mk_upd
    | (intro _ _ _; try dsimp only)
    | intro _
    | split

theorem State.decWrite_apart {z s : State} (n : Nat) (v : Word) (hk : Apart z s) :
    Apart z (s.decWrite n v) := by
  unfold State.decWrite
  try dsimp only
  repeat' first
    | with_reducible (first | exact hk | assumption | apply Apart.ite | apply State.answer_apart | apply State.decUncommit_apart | apply State.setFld_apart | apply State.decLock_apart | apply State.decCommit_apart | exact R.cxtDecCtl_far _)
    | fail_if_no_progress with_reducible apply Apart.mk_upd
    | (intro _ _ _; try dsimp only)
    | intro _
    | split

theorem State.portDo_apart {z s : State} (p cmd : Nat) (hk : Apart z s) :
    Apart z (s.portDo p cmd) := by
  unfold State.portDo
  try dsimp only
  repeat' first
    | with_reducible (first | exact hk | assumption | apply Apart.ite | apply State.cmdFast_apart | apply State.cmdFull_apart | apply State.portDown_apart)
    | fail_if_no_progress with_reducible apply Apart.mk_upd
    | (intro _ _ _; try dsimp only)
    | intro _
    | split

theorem State.msixWrite_apart {z s : State} (a : Nat) (v : Word) (hk : Apart z s) :
    Apart z (s.msixWrite a v) := by
  unfold State.msixWrite
  try dsimp only
  repeat' first
    | with_reducible (first | exact hk | assumption | apply Apart.ite | apply State.sendPending_apart)
    | fail_if_no_progress with_reducible apply Apart.mk_upd
    | (intro _ _ _; try dsimp only)
    | intro _
    | split

theorem State.qpDo_apart {z s : State} (n cmd : Nat) (hk : Apart z s) :
    Apart z (s.qpDo n cmd) := by
  unfold State.qpDo
  try dsimp only
  repeat' first
    | with_reducible (first | exact hk | assumption | apply Apart.ite | apply State.qpCreate_apart | apply State.qpDelete_apart | apply State.qpRestart_apart)
    | fail_if_no_progress with_reducible apply Apart.mk_upd
    | (intro _ _ _; try dsimp only)
    | intro _
    | split

end Sys2Proof.Machine
end

