-- ==== Sys2Proof/Laws/ApartMem.lean ====
section
/-! SUPPORT. What the operations of Machine/Mem.lean leave to the Lockkeeper, the weave and the SEC (Laws/Apart.lean). -/

namespace Sys2Proof.Machine

set_option linter.unusedTactic false
set_option linter.unreachableTactic false
set_option linter.unusedSimpArgs false

theorem State.patrol_apart {z s : State} (h a ecc : Nat) (raced last : Bool) (hk : Apart z s) :
    Apart z (s.patrol h a ecc raced last) := by
  unfold State.patrol
  try dsimp only
  repeat' first
    | with_reducible (first | exact hk | assumption | apply Apart.ite | apply State.eccRead_apart | apply State.setFld_apart | exact R.memStatus_far _ | exact R.memScrub_far _)
    | fail_if_no_progress with_reducible apply Apart.mk_upd
    | (intro _ _ _; try dsimp only)
    | intro _
    | split

theorem State.cxlOff_apart {z s : State} (p : Nat) (hk : Apart z s) :
    Apart z (s.cxlOff p) := by
  unfold State.cxlOff
  try dsimp only
  repeat' first
    | with_reducible (first | exact hk | assumption | apply Apart.ite | apply State.setFld_apart | apply State.modEvent_apart | exact R.cxtPStatus_far _)
    | fail_if_no_progress with_reducible apply Apart.mk_upd
    | (intro _ _ _; try dsimp only)
    | intro _
    | split

theorem State.cxlOn_apart {z s : State} (p width speed : Nat) (flit device : Bool) (hk : Apart z s) :
    Apart z (s.cxlOn p width speed flit device) := by
  unfold State.cxlOn
  try dsimp only
  repeat' first
    | with_reducible (first | exact hk | assumption | apply Apart.ite | apply State.setFld_apart | exact R.cxtPStatus_far _)
    | fail_if_no_progress with_reducible apply Apart.mk_upd
    | (intro _ _ _; try dsimp only)
    | intro _
    | split

theorem State.spadDo_apart {z s : State} (a : Nat) (x : Access) (e : Errs) (hk : Apart z s) :
    Apart z (s.spadDo a x e) := by
  unfold State.spadDo
  try dsimp only
  repeat' first
    | with_reducible (first | exact hk | assumption | apply Apart.ite | apply State.readErrs_apart | apply State.answer_apart | apply State.wr_apart)
    | fail_if_no_progress with_reducible apply Apart.mk_upd
    | (intro _ _ _; try dsimp only)
    | intro _
    | split

theorem State.spadAccess_apart {z s : State} (r : Requester) (a : Nat) (x : Access) (e : Errs) (hk : Apart z s) :
    Apart z (s.spadAccess r a x e) := by
  unfold State.spadAccess
  try dsimp only
  repeat' first
    | with_reducible (first | exact hk | assumption | apply Apart.ite | apply State.answer_apart | apply State.spadDo_apart)
    | fail_if_no_progress with_reducible apply Apart.mk_upd
    | (intro _ _ _; try dsimp only)
    | intro _
    | split

theorem State.servedRead_apart {z s : State} (a n : Nat) (e : Errs) (hk : Apart z s) :
    Apart z (s.servedRead a n e) := by
  unfold State.servedRead
  try dsimp only
  repeat' first
    | with_reducible (first | exact hk | assumption | apply Apart.ite | apply State.readErrs_apart | apply State.answer_apart)
    | fail_if_no_progress with_reducible apply Apart.mk_upd
    | (intro _ _ _; try dsimp only)
    | intro _
    | split

theorem State.servedWrite_apart {z s : State} (a : Nat) (d : List Byte) (hk : Apart z s) :
    Apart z (s.servedWrite a d) := by
  unfold State.servedWrite
  try dsimp only
  repeat' first
    | with_reducible (first | exact hk | assumption | apply Apart.ite | apply State.noteCxl_apart | apply State.answer_apart | apply State.wr_apart)
    | fail_if_no_progress with_reducible apply Apart.mk_upd
    | (intro _ _ _; try dsimp only)
    | intro _
    | split

theorem State.memServed_apart {z s : State} (r : Requester) (a : Nat) (x : Access) (e : Errs) (hk : Apart z s) :
    Apart z (s.memServed r a x e) := by
  unfold State.memServed
  try dsimp only
  repeat' first
    | with_reducible (first | exact hk | assumption | apply Apart.ite | apply State.servedRead_apart | apply State.ownWrite_apart | apply State.answer_apart | apply State.servedWrite_apart)
    | fail_if_no_progress with_reducible apply Apart.mk_upd
    | (intro _ _ _; try dsimp only)
    | intro _
    | split

theorem State.tileAccess_apart {z s : State} (t : Nat) (lead : List (Nat × Nat)) (a : Nat) (x : Access) (e : Errs) (hk : Apart z s) :
    Apart z (s.tileAccess t lead a x e) := by
  unfold State.tileAccess
  try dsimp only
  repeat' first
    | with_reducible (first | exact hk | assumption | apply Apart.ite | apply State.asThread_apart | apply State.noteCxl_apart | apply State.trap_apart | apply State.spadDo_apart | apply State.arrayErrs_apart | apply State.cachedLoad_apart | apply State.prefetch_apart | apply State.cachedStore_apart)
    | fail_if_no_progress with_reducible apply Apart.mk_upd
    | (intro _ _ _; try dsimp only)
    | intro _
    | split

theorem State.aer_apart {z s : State} (b : Nat) (hk : Apart z s) :
    Apart z (s.aer b) := by
  unfold State.aer
  try dsimp only
  repeat' first
    | with_reducible (first | exact hk | assumption | apply Apart.ite)
    | fail_if_no_progress with_reducible apply Apart.mk_upd
    | (intro _ _ _; try dsimp only)
    | intro _
    | split

theorem State.hostAnswer_apart {z s : State} (x : Access) (hk : Apart z s) :
    Apart z (s.hostAnswer x) := by
  unfold State.hostAnswer
  try dsimp only
  repeat' first
    | with_reducible (first | exact hk | assumption | apply Apart.ite | apply State.answer_apart | apply State.aer_apart)
    | fail_if_no_progress with_reducible apply Apart.mk_upd
    | (intro _ _ _; try dsimp only)
    | intro _
    | split

theorem State.hostUnsupported_apart {z s : State} (x : Access) (hk : Apart z s) :
    Apart z (s.hostUnsupported x) := by
  unfold State.hostUnsupported
  try dsimp only
  repeat' first
    | with_reducible (first | exact hk | assumption | apply Apart.ite | apply State.aer_apart | apply State.answer_apart)
    | fail_if_no_progress with_reducible apply Apart.mk_upd
    | (intro _ _ _; try dsimp only)
    | intro _
    | split

theorem State.config_apart {z s : State} (l : List (Nat × Nat)) (hk : Apart z s) :
    Apart z (s.config l) := by
  unfold State.config
  try dsimp only
  repeat' first
    | with_reducible (first | exact hk | assumption | apply Apart.ite | apply State.aer_apart | apply State.answer_apart | apply State.sendPending_apart | exact R.hifStatus_far | apply Apart.foldl | apply Apart.foldl_fst | apply Apart.foldl_snd)
    | fail_if_no_progress with_reducible apply Apart.mk_upd
    | (intro _ _ _; try dsimp only)
    | intro _
    | split

theorem State.unused_apart {z s : State} (x : Access) (hk : Apart z s) :
    Apart z (s.unused x) := by
  unfold State.unused
  try dsimp only
  repeat' first
    | with_reducible (first | exact hk | assumption | apply Apart.ite | apply State.answer_apart | apply State.hostRejected_apart | apply State.hostUnsupported_apart)
    | fail_if_no_progress with_reducible apply Apart.mk_upd
    | (intro _ _ _; try dsimp only)
    | intro _
    | split

theorem State.bar2Answer_apart {z s : State} (x : Access) (hk : Apart z s) :
    Apart z (s.bar2Answer x) := by
  unfold State.bar2Answer
  try dsimp only
  repeat' first
    | with_reducible (first | exact hk | assumption | apply Apart.ite | apply State.addSat_apart | apply State.answer_apart | apply State.hostAnswer_apart | exact R.hifErr_far)
    | fail_if_no_progress with_reducible apply Apart.mk_upd
    | (intro _ _ _; try dsimp only)
    | intro _
    | split

theorem State.syncRead_apart {z s : State} (hk : Apart z s) :
    Apart z s.syncRead := by
  unfold State.syncRead
  try dsimp only
  repeat' first
    | with_reducible (first | exact hk | assumption | apply Apart.ite | apply State.answer_apart | exact R.hifStatus_far | exact R.hifSync_far)
    | fail_if_no_progress with_reducible apply Apart.mk_upd
    | (intro _ _ _; try dsimp only)
    | intro _
    | split

end Sys2Proof.Machine
end

