-- ==== Sys2Proof/Laws/ApartSec.lean ====
section
/-! SUPPORT. What the operations of Machine/Sec.lean leave to the Lockkeeper, the weave and the SEC (Laws/Apart.lean). -/

namespace Sys2Proof.Machine

set_option linter.unusedTactic false
set_option linter.unreachableTactic false
set_option linter.unusedSimpArgs false

theorem State.openStatus_apart {z s : State} (hk : Apart z s) :
    Apart z s.openStatus.2 := by
  unfold State.openStatus
  try dsimp only
  repeat' first
    | with_reducible (first | exact hk | assumption | apply Apart.ite | apply State.draw_apart)
    | fail_if_no_progress with_reducible apply Apart.mk_upd
    | (intro _ _ _; try dsimp only)
    | intro _
    | split

theorem State.freeBytes_apart {z s : State} (n : Nat) (hk : Apart z s) :
    Apart z (s.freeBytes n).2 := by
  unfold State.freeBytes
  try dsimp only
  repeat' first
    | with_reducible (first | exact hk | assumption | apply Apart.ite)
    | fail_if_no_progress with_reducible apply Apart.mk_upd
    | (intro _ _ _; try dsimp only)
    | intro _
    | split

theorem State.zeroSecrets_apart {z s : State} (hk : Apart z s) :
    Apart z s.zeroSecrets := by
  unfold State.zeroSecrets
  try dsimp only
  repeat' first
    | with_reducible (first | exact hk | assumption | apply Apart.ite | apply State.zero_apart)
    | fail_if_no_progress with_reducible apply Apart.mk_upd
    | (intro _ _ _; try dsimp only)
    | intro _
    | split

theorem State.nonceExpiry_apart {z s : State} (hk : Apart z s) :
    Apart z s.nonceExpiry := by
  unfold State.nonceExpiry
  try dsimp only
  repeat' first
    | with_reducible (first | exact hk | assumption | apply Apart.ite)
    | fail_if_no_progress with_reducible apply Apart.mk_upd
    | (intro _ _ _; try dsimp only)
    | intro _
    | split

end Sys2Proof.Machine
end

