-- ==== Sys2Proof/Laws/ApartSpdm.lean ====
section
/-! SUPPORT. What the operations of Machine/Spdm.lean leave to the Lockkeeper, the weave and the SEC (Laws/Apart.lean). -/

namespace Sys2Proof.Machine

set_option linter.unusedTactic false
set_option linter.unreachableTactic false
set_option linter.unusedSimpArgs false

theorem State.setSp_apart {z s : State} (i3c : Bool) (v : Spdm) (hk : Apart z s) :
    Apart z (s.setSp i3c v) := by
  unfold State.setSp
  try dsimp only
  repeat' first
    | with_reducible (first | exact hk | assumption | apply Apart.ite)
    | fail_if_no_progress with_reducible apply Apart.mk_upd
    | (intro _ _ _; try dsimp only)
    | intro _
    | split

theorem State.spErr_apart {z s : State} (code : Nat) (hk : Apart z s) :
    Apart z (s.spErr code) := by
  unfold State.spErr
  try dsimp only
  repeat' first
    | with_reducible (first | exact hk | assumption | apply Apart.ite | apply State.answer_apart)
    | fail_if_no_progress with_reducible apply Apart.mk_upd
    | (intro _ _ _; try dsimp only)
    | intro _
    | split

theorem State.spReq_apart {z s : State} (i3c : Bool) (phase : Nat) (body : State → Spdm → State) (hbody : ∀ u x1, Apart z u → Apart z (body u x1)) (hk : Apart z s) :
    Apart z (s.spReq i3c phase body) := by
  unfold State.spReq
  try dsimp only
  repeat' first
    | with_reducible (first | exact hk | assumption | apply Apart.ite | apply State.spErr_apart | apply hbody)
    | fail_if_no_progress with_reducible apply Apart.mk_upd
    | (intro _ _ _; try dsimp only)
    | intro _
    | split

theorem State.spSess_apart {z s : State} (i3c : Bool) (body : State → Spdm → State) (hbody : ∀ u x1, Apart z u → Apart z (body u x1)) (hk : Apart z s) :
    Apart z (s.spSess i3c body) := by
  unfold State.spSess
  try dsimp only
  repeat' first
    | with_reducible (first | exact hk | assumption | apply Apart.ite | apply State.spReq_apart | apply State.spErr_apart | apply hbody)
    | fail_if_no_progress with_reducible apply Apart.mk_upd
    | (intro _ _ _; try dsimp only)
    | intro _
    | split

theorem State.spSigned_apart {z s : State} (code : Nat) (b : List Byte) (hk : Apart z s) :
    Apart z (s.spSigned code b) := by
  unfold State.spSigned
  try dsimp only
  repeat' first
    | with_reducible (first | exact hk | assumption | apply Apart.ite | apply State.freeBytes_apart | apply State.answer_apart)
    | fail_if_no_progress with_reducible apply Apart.mk_upd
    | (intro _ _ _; try dsimp only)
    | intro _
    | split

end Sys2Proof.Machine
end

