-- ==== Sys2Proof/Laws/ApartRuns.lean ====
section
/-! SUPPORT. What the commands of the stakes' work leave alone. -/

namespace Sys2Proof.Machine

set_option linter.unusedTactic false
set_option linter.unreachableTactic false

/-- The outcome is a next state, which leaves the module's own state alone. -/
def Parts (s : State) (o : Host.Outcome State Fault Refusal) : Prop := ∃ t, o = .next t ∧ Apart s t

theorem Apart.got {z t : State} {b : Bool} {p : State × Bool} (e : some p = some (t, b)) (h : Apart z p.1) : Apart z t := by
  cases e; exact h

theorem execProgramFetch_parts (k : Fin 16) (x : Strm) (s : State) : Parts s (execProgramFetch k x s) := by
  refine ⟨_, rfl, ?_⟩
  have hk := Apart.refl s
  repeat' first
    | with_reducible (first | assumption | apply Apart.ite | apply State.programFetch_apart)
    | (intro _ _ _; try dsimp only)
    | intro _
    | split

theorem execNop_parts (k : Fin 16) (x : Strm) (s : State) : Parts s (execNop k x s) := by
  refine ⟨_, rfl, ?_⟩
  have hk := Apart.refl s
  repeat' first
    | with_reducible (first | assumption | apply Apart.ite | apply State.withHead_apart | apply State.dispatchDone_apart)
    | (intro _ _ _; try dsimp only)
    | intro _
    | split

theorem execJump_parts (k : Fin 16) (x : Strm) (s : State) : Parts s (execJump k x s) := by
  refine ⟨_, rfl, ?_⟩
  have hk := Apart.refl s
  repeat' first
    | with_reducible (first | assumption | apply Apart.ite | apply State.withHead_apart | apply State.raiseFault_apart | apply State.dispatchDone_apart)
    | (intro _ _ _; try dsimp only)
    | intro _
    | split

theorem execMbegin_parts (k : Fin 16) (s : State) : Parts s (execMbegin k s) := by
  refine ⟨_, rfl, ?_⟩
  have hk := Apart.refl s
  repeat' first
    | with_reducible (first | assumption | apply Apart.ite | apply State.mbegin_apart)
    | (intro _ _ _; try dsimp only)
    | intro _
    | split

theorem execMend_parts (k : Fin 16) (s : State) : Parts s (execMend k s) := by
  refine ⟨_, rfl, ?_⟩
  have hk := Apart.refl s
  repeat' first
    | with_reducible (first | assumption | apply Apart.ite | apply State.mend_apart)
    | (intro _ _ _; try dsimp only)
    | intro _
    | split

theorem execSeal_parts (k : Fin 16) (s : State) : Parts s (execSeal k s) := by
  refine ⟨_, rfl, ?_⟩
  have hk := Apart.refl s
  repeat' first
    | with_reducible (first | assumption | apply Apart.ite | apply State.sealBegin_apart)
    | (intro _ _ _; try dsimp only)
    | intro _
    | split

theorem execSopen_parts (k : Fin 16) (x : Strm) (s : State) : Parts s (execSopen k x s) := by
  refine ⟨_, rfl, ?_⟩
  have hk := Apart.refl s
  repeat' first
    | with_reducible (first | assumption | apply Apart.ite | apply State.sopen_apart)
    | (intro _ _ _; try dsimp only)
    | intro _
    | split

theorem execSclose_parts (k : Fin 16) (x : Strm) (s : State) : Parts s (execSclose k x s) := by
  refine ⟨_, rfl, ?_⟩
  have hk := Apart.refl s
  repeat' first
    | with_reducible (first | assumption | apply Apart.ite | apply State.sclose_apart)
    | (intro _ _ _; try dsimp only)
    | intro _
    | split

theorem execScloseIssue_parts (k : Fin 16) (s : State) : Parts s (execScloseIssue k s) := by
  refine ⟨_, rfl, ?_⟩
  have hk := Apart.refl s
  repeat' first
    | with_reducible (first | assumption | apply Apart.ite | apply State.scloseIssue_apart)
    | (intro _ _ _; try dsimp only)
    | intro _
    | split

theorem execSpop_parts (k : Fin 16) (s : State) : Parts s (execSpop k s) := by
  refine ⟨_, rfl, ?_⟩
  have hk := Apart.refl s
  repeat' first
    | with_reducible (first | assumption | apply Apart.ite | apply State.spop_apart)
    | (intro _ _ _; try dsimp only)
    | intro _
    | split

theorem execSdrop_parts (k : Fin 16) (s : State) : Parts s (execSdrop k s) := by
  refine ⟨_, rfl, ?_⟩
  have hk := Apart.refl s
  repeat' first
    | with_reducible (first | assumption | apply Apart.ite | apply State.sdrop_apart)
    | (intro _ _ _; try dsimp only)
    | intro _
    | split

theorem execSbind_parts (k : Fin 16) (s : State) : Parts s (execSbind k s) := by
  refine ⟨_, rfl, ?_⟩
  have hk := Apart.refl s
  repeat' first
    | with_reducible (first | assumption | apply Apart.ite | apply State.sbind_apart)
    | (intro _ _ _; try dsimp only)
    | intro _
    | split

theorem execAsuSegmentPush_parts (d : Fin 4) (k : Fin 16) (errs : Errs) (s : State) : Parts s (execAsuSegmentPush d k errs s) := by
  refine ⟨_, rfl, ?_⟩
  have hk := Apart.refl s
  repeat' first
    | with_reducible (first | assumption | apply Apart.ite | apply State.segmentPush_apart)
    | (intro _ _ _; try dsimp only)
    | intro _
    | split

theorem execAsuSegmentTransferDone_parts (d : Fin 4) (k : Fin 16) (errs : Errs) (s : State) : Parts s (execAsuSegmentTransferDone d k errs s) := by
  refine ⟨_, rfl, ?_⟩
  have hk := Apart.refl s
  repeat' first
    | with_reducible (first | assumption | apply Apart.ite | apply State.segmentDone_apart)
    | (intro _ _ _; try dsimp only)
    | intro _
    | split

theorem execStart_parts (m : Master) (rivals : List Master) (k : Fin 16) (s : State) : Parts s (execStart m rivals k s) := by
  refine ⟨_, rfl, ?_⟩
  have hk := Apart.refl s
  repeat' first
    | with_reducible (first | assumption | apply Apart.ite | apply State.command_apart | apply State.psqDo_apart | exact R.psqCmd_far _)
    | (intro _ _ _; try dsimp only)
    | intro _
    | split

theorem execStop_parts (m : Master) (rivals : List Master) (k : Fin 16) (s : State) : Parts s (execStop m rivals k s) := by
  refine ⟨_, rfl, ?_⟩
  have hk := Apart.refl s
  repeat' first
    | with_reducible (first | assumption | apply Apart.ite | apply State.command_apart | apply State.psqDo_apart | exact R.psqCmd_far _)
    | (intro _ _ _; try dsimp only)
    | intro _
    | split

theorem execResume_parts (m : Master) (rivals : List Master) (k : Fin 16) (skip : Nat) (s : State) : Parts s (execResume m rivals k skip s) := by
  refine ⟨_, rfl, ?_⟩
  have hk := Apart.refl s
  repeat' first
    | with_reducible (first | assumption | apply Apart.ite | apply State.command_apart | apply State.psqDo_apart | exact R.psqCmd_far _)
    | (intro _ _ _; try dsimp only)
    | intro _
    | split

theorem execRestore_parts (m : Master) (rivals : List Master) (k : Fin 16) (s : State) : Parts s (execRestore m rivals k s) := by
  refine ⟨_, rfl, ?_⟩
  have hk := Apart.refl s
  repeat' first
    | with_reducible (first | assumption | apply Apart.ite | apply State.command_apart | apply State.psqDo_apart | exact R.psqCmd_far _)
    | (intro _ _ _; try dsimp only)
    | intro _
    | split

theorem execPsqPost_parts (m : Master) (k : Fin 16) (mask : Nat) (s : State) : Parts s (execPsqPost m k mask s) := by
  refine ⟨_, rfl, ?_⟩
  have hk := Apart.refl s
  repeat' first
    | with_reducible (first | assumption | apply Apart.ite | apply State.command_apart | apply State.extPost_apart | exact R.psqPost_far _)
    | (intro _ _ _; try dsimp only)
    | intro _
    | split

theorem execPsqXlimitWrite_parts (m : Master) (k : Fin 16) (x : Strm) (v : Nat) (s : State) : Parts s (execPsqXlimitWrite m k x v s) := by
  refine ⟨_, rfl, ?_⟩
  have hk := Apart.refl s
  repeat' first
    | with_reducible (first | assumption | apply Apart.ite | apply State.command_apart | apply State.limitWrite_apart | exact R.psqLimit_far _ _)
    | (intro _ _ _; try dsimp only)
    | intro _
    | split

theorem execDvuRow_parts (e : Fin 32) (wait away : Nat) (errs : Errs) (s : State) : Parts s (execDvuRow e wait away errs s) := by
  refine ⟨_, rfl, ?_⟩
  have hk := Apart.refl s
  repeat' first
    | with_reducible (first | assumption | apply Apart.ite | apply State.dvuRow_apart)
    | (intro _ _ _; try dsimp only)
    | intro _
    | split

theorem execVx_parts (k : Fin 16) (x : Strm) (s : State) : Parts s (execVx k x s) := by
  refine ⟨_, rfl, ?_⟩
  have hk := Apart.refl s
  repeat' first
    | with_reducible (first | assumption | apply Apart.ite | apply State.vx_apart)
    | (intro _ _ _; try dsimp only)
    | intro _
    | split

theorem execVxComplete_parts (e : Fin 32) (s : State) : Parts s (execVxComplete e s) := by
  refine ⟨_, rfl, ?_⟩
  have hk := Apart.refl s
  repeat' first
    | with_reducible (first | assumption | apply Apart.ite | apply State.vxComplete_apart)
    | (intro _ _ _; try dsimp only)
    | intro _
    | split

theorem execMxf_parts (k : Fin 16) (x : Strm) (s : State) : Parts s (execMxf k x s) := by
  refine ⟨_, rfl, ?_⟩
  have hk := Apart.refl s
  repeat' first
    | with_reducible (first | assumption | apply Apart.ite | apply State.mxDispatch_apart)
    | (intro _ _ _; try dsimp only)
    | intro _
    | split

theorem execMxb_parts (k : Fin 16) (x : Strm) (s : State) : Parts s (execMxb k x s) := by
  refine ⟨_, rfl, ?_⟩
  have hk := Apart.refl s
  repeat' first
    | with_reducible (first | assumption | apply Apart.ite | apply State.mxDispatch_apart)
    | (intro _ _ _; try dsimp only)
    | intro _
    | split

theorem execMxw_parts (k : Fin 16) (x : Strm) (s : State) : Parts s (execMxw k x s) := by
  refine ⟨_, rfl, ?_⟩
  have hk := Apart.refl s
  repeat' first
    | with_reducible (first | assumption | apply Apart.ite | apply State.mxDispatch_apart)
    | (intro _ _ _; try dsimp only)
    | intro _
    | split

theorem execMxIssue_parts (e : Fin 32) (latch feed drain token : Nat) (released : Bool) (errs : Errs) (s : State) : Parts s (execMxIssue e latch feed drain token released errs s) := by
  refine ⟨_, rfl, ?_⟩
  have hk := Apart.refl s
  repeat' first
    | with_reducible (first | assumption | apply Apart.ite | apply State.mxIssue_apart)
    | (intro _ _ _; try dsimp only)
    | intro _
    | split

theorem execMxComplete_parts (e : Fin 32) (s : State) : Parts s (execMxComplete e s) := by
  refine ⟨_, rfl, ?_⟩
  have hk := Apart.refl s
  repeat' first
    | with_reducible (first | assumption | apply Apart.ite | apply State.mxComplete_apart)
    | (intro _ _ _; try dsimp only)
    | intro _
    | split

theorem execQupd_parts (k : Fin 16) (s : State) : Parts s (execQupd k s) := by
  refine ⟨_, rfl, ?_⟩
  have hk := Apart.refl s
  repeat' first
    | with_reducible (first | assumption | apply Apart.ite | apply State.quayTensorOp_apart)
    | (intro _ _ _; try dsimp only)
    | intro _
    | split

theorem execQbind_parts (k : Fin 16) (s : State) : Parts s (execQbind k s) := by
  refine ⟨_, rfl, ?_⟩
  have hk := Apart.refl s
  repeat' first
    | with_reducible (first | assumption | apply Apart.ite | apply State.qbind_apart)
    | (intro _ _ _; try dsimp only)
    | intro _
    | split

theorem execQclr_parts (k : Fin 16) (s : State) : Parts s (execQclr k s) := by
  refine ⟨_, rfl, ?_⟩
  have hk := Apart.refl s
  repeat' first
    | with_reducible (first | assumption | apply Apart.ite | apply State.quayTensorOp_apart)
    | (intro _ _ _; try dsimp only)
    | intro _
    | split

theorem execQemit_parts (k : Fin 16) (s : State) : Parts s (execQemit k s) := by
  refine ⟨_, rfl, ?_⟩
  have hk := Apart.refl s
  repeat' first
    | with_reducible (first | assumption | apply Apart.ite | apply State.quayTensorOp_apart)
    | (intro _ _ _; try dsimp only)
    | intro _
    | split

theorem execQuayReserve_parts (e : Fin 32) (wait : Nat) (s : State) : Parts s (execQuayReserve e wait s) := by
  refine ⟨_, rfl, ?_⟩
  have hk := Apart.refl s
  repeat' first
    | with_reducible (first | assumption | apply Apart.ite | apply State.quayReserve_apart)
    | (intro _ _ _; try dsimp only)
    | intro _
    | split

theorem execQuayReservationGrant_parts (q : Fin 16) (wait : Nat) (s : State) : Parts s (execQuayReservationGrant q wait s) := by
  refine ⟨_, rfl, ?_⟩
  have hk := Apart.refl s
  repeat' first
    | with_reducible (first | assumption | apply Apart.ite | apply State.quayGrant_apart)
    | (intro _ _ _; try dsimp only)
    | intro _
    | split

theorem execQuaySliceArrive_parts (e : Fin 32) (s : State) : Parts s (execQuaySliceArrive e s) := by
  refine ⟨_, rfl, ?_⟩
  have hk := Apart.refl s
  repeat' first
    | with_reducible (first | assumption | apply Apart.ite | apply State.sliceArrive_apart)
    | (intro _ _ _; try dsimp only)
    | intro _
    | split

theorem execReducedBlockArrive_parts (q : Fin 16) (s : State) : Parts s (execReducedBlockArrive q s) := by
  refine ⟨_, rfl, ?_⟩
  have hk := Apart.refl s
  repeat' first
    | with_reducible (first | assumption | apply Apart.ite | apply State.blockArrive_apart)
    | (intro _ _ _; try dsimp only)
    | intro _
    | split

theorem execPvOp_parts (k : Fin 16) (x : Strm) (s : State) : Parts s (execPvOp k x s) := by
  refine ⟨_, rfl, ?_⟩
  have hk := Apart.refl s
  repeat' first
    | with_reducible (first | assumption | apply Apart.ite | apply State.pvHead_apart)
    | (intro _ _ _; try dsimp only)
    | intro _
    | split

theorem execPvLd_parts (k : Fin 16) (x : Strm) (s : State) : Parts s (execPvLd k x s) := by
  refine ⟨_, rfl, ?_⟩
  have hk := Apart.refl s
  repeat' first
    | with_reducible (first | assumption | apply Apart.ite | apply State.pvHead_apart)
    | (intro _ _ _; try dsimp only)
    | intro _
    | split

theorem execPvSt_parts (k : Fin 16) (x : Strm) (s : State) : Parts s (execPvSt k x s) := by
  refine ⟨_, rfl, ?_⟩
  have hk := Apart.refl s
  repeat' first
    | with_reducible (first | assumption | apply Apart.ite | apply State.pvHead_apart)
    | (intro _ _ _; try dsimp only)
    | intro _
    | split

theorem execPvSplat_parts (k : Fin 16) (x : Strm) (s : State) : Parts s (execPvSplat k x s) := by
  refine ⟨_, rfl, ?_⟩
  have hk := Apart.refl s
  repeat' first
    | with_reducible (first | assumption | apply Apart.ite | apply State.pvHead_apart)
    | (intro _ _ _; try dsimp only)
    | intro _
    | split

theorem execPvLred_parts (k : Fin 16) (x : Strm) (s : State) : Parts s (execPvLred k x s) := by
  refine ⟨_, rfl, ?_⟩
  have hk := Apart.refl s
  repeat' first
    | with_reducible (first | assumption | apply Apart.ite | apply State.pvHead_apart)
    | (intro _ _ _; try dsimp only)
    | intro _
    | split

theorem execPvBcast_parts (k : Fin 16) (x : Strm) (s : State) : Parts s (execPvBcast k x s) := by
  refine ⟨_, rfl, ?_⟩
  have hk := Apart.refl s
  repeat' first
    | with_reducible (first | assumption | apply Apart.ite | apply State.pvHead_apart)
    | (intro _ _ _; try dsimp only)
    | intro _
    | split

theorem execPvCmpgt_parts (k : Fin 16) (x : Strm) (s : State) : Parts s (execPvCmpgt k x s) := by
  refine ⟨_, rfl, ?_⟩
  have hk := Apart.refl s
  repeat' first
    | with_reducible (first | assumption | apply Apart.ite | apply State.pvHead_apart)
    | (intro _ _ _; try dsimp only)
    | intro _
    | split

theorem execPvSel_parts (k : Fin 16) (x : Strm) (s : State) : Parts s (execPvSel k x s) := by
  refine ⟨_, rfl, ?_⟩
  have hk := Apart.refl s
  repeat' first
    | with_reducible (first | assumption | apply Apart.ite | apply State.pvHead_apart)
    | (intro _ _ _; try dsimp only)
    | intro _
    | split

theorem execPvCommit_parts (p : Fin 8) (errs : Errs) (s : State) : Parts s (execPvCommit p errs s) := by
  refine ⟨_, rfl, ?_⟩
  have hk := Apart.refl s
  repeat' first
    | with_reducible (first | assumption | apply Apart.ite | apply State.pvCommit_apart)
    | (intro _ _ _; try dsimp only)
    | intro _
    | split

theorem execPvuAssist_parts (p : Fin 8) (errs : Errs) (s : State) : Parts s (execPvuAssist p errs s) := by
  refine ⟨_, rfl, ?_⟩
  have hk := Apart.refl s
  repeat' first
    | with_reducible (first | assumption | apply Apart.ite | apply State.pvuAssist_apart)
    | (intro _ _ _; try dsimp only)
    | intro _
    | split

theorem execPtbArm_parts (m : Master) (v : Word) (s : State) : Parts s (execPtbArm m v s) := by
  refine ⟨_, rfl, ?_⟩
  have hk := Apart.refl s
  repeat' first
    | with_reducible (first | assumption | apply Apart.ite | apply State.command_apart | apply State.ptbArm_apart | exact R.ptbCtl_far)
    | (intro _ _ _; try dsimp only)
    | intro _
    | split

theorem execTsend_parts (k : Fin 16) (x : Strm) (s : State) : Parts s (execTsend k x s) := by
  refine ⟨_, rfl, ?_⟩
  have hk := Apart.refl s
  repeat' first
    | with_reducible (first | assumption | apply Apart.ite | apply State.tsend_apart)
    | (intro _ _ _; try dsimp only)
    | intro _
    | split

theorem execTsendIssue_parts (k : Fin 16) (s : State) : Parts s (execTsendIssue k s) := by
  refine ⟨_, rfl, ?_⟩
  have hk := Apart.refl s
  repeat' first
    | with_reducible (first | assumption | apply Apart.ite | apply State.tsendIssue_apart)
    | (intro _ _ _; try dsimp only)
    | intro _
    | split

theorem execTsendComplete_parts (ring : Fin 16) (dir : RDir) (tag : Fin 16) (s : State) : Parts s (execTsendComplete ring dir tag s) := by
  refine ⟨_, rfl, ?_⟩
  have hk := Apart.refl s
  repeat' first
    | with_reducible (first | assumption | apply Apart.ite | apply State.tsendComplete_apart)
    | (intro _ _ _; try dsimp only)
    | intro _
    | split

theorem execTsendTimeout_parts (ring : Fin 16) (dir : RDir) (tag : Fin 16) (s : State) : Parts s (execTsendTimeout ring dir tag s) := by
  refine ⟨_, rfl, ?_⟩
  have hk := Apart.refl s
  repeat' first
    | with_reducible (first | assumption | apply Apart.ite | apply State.tsendTimeout_apart)
    | (intro _ _ _; try dsimp only)
    | intro _
    | split

theorem execTransferBarge_parts (port : Fin 12) (cls : Fin 4) (s : State) : Parts s (execTransferBarge port cls s) := by
  refine ⟨_, rfl, ?_⟩
  have hk := Apart.refl s
  repeat' first
    | with_reducible (first | assumption | apply Apart.ite | apply State.takeBarge_apart)
    | (intro _ _ _; try dsimp only)
    | intro _
    | split

theorem execDataFrame_parts (port : Fin 12) (b : List Byte) (s : State) : Parts s (execDataFrame port b s) := by
  refine ⟨_, rfl, ?_⟩
  have hk := Apart.refl s
  repeat' first
    | with_reducible (first | assumption | apply Apart.ite | apply State.dataFrame_apart)
    | (intro _ _ _; try dsimp only)
    | intro _
    | split

theorem execCtrlFrame_parts (port : Fin 12) (b : List Byte) (s : State) : Parts s (execCtrlFrame port b s) := by
  refine ⟨_, rfl, ?_⟩
  have hk := Apart.refl s
  repeat' first
    | with_reducible (first | assumption | apply Apart.ite | apply State.ctrlFrame_apart)
    | (intro _ _ _; try dsimp only)
    | intro _
    | split

theorem execFullTraining_parts (port : Fin 12) (info : TrainInfo) (s : State) : Parts s (execFullTraining port info s) := by
  refine ⟨_, rfl, ?_⟩
  have hk := Apart.refl s
  repeat' first
    | with_reducible (first | assumption | apply Apart.ite | apply State.trainFull_apart)
    | (intro _ _ _; try dsimp only)
    | intro _
    | split

theorem execTrainingRetry_parts (port : Fin 12) (info : TrainInfo) (s : State) : Parts s (execTrainingRetry port info s) := by
  refine ⟨_, rfl, ?_⟩
  have hk := Apart.refl s
  repeat' first
    | with_reducible (first | assumption | apply Apart.ite | apply State.trainFull_apart)
    | (intro _ _ _; try dsimp only)
    | intro _
    | split

theorem execFastRetrain_parts (port : Fin 12) (info : TrainInfo) (s : State) : Parts s (execFastRetrain port info s) := by
  refine ⟨_, rfl, ?_⟩
  have hk := Apart.refl s
  repeat' first
    | with_reducible (first | assumption | apply Apart.ite | apply State.trainFast_apart)
    | (intro _ _ _; try dsimp only)
    | intro _
    | split

theorem execFrameLock_parts (port : Fin 12) (s : State) : Parts s (execFrameLock port s) := by
  refine ⟨_, rfl, ?_⟩
  have hk := Apart.refl s
  repeat' first
    | with_reducible (first | assumption | apply Apart.ite | apply State.frameLock_apart)
    | (intro _ _ _; try dsimp only)
    | intro _
    | split

theorem execLaneLockLoss_parts (port : Fin 12) (lane : Fin 8) (s : State) : Parts s (execLaneLockLoss port lane s) := by
  refine ⟨_, rfl, ?_⟩
  have hk := Apart.refl s
  repeat' first
    | with_reducible (first | assumption | apply Apart.ite | apply State.setPt_apart | apply State.startRetrain_apart)
    | (intro _ _ _; try dsimp only)
    | intro _
    | split

theorem execPortDown_parts (port : Fin 12) (s : State) : Parts s (execPortDown port s) := by
  refine ⟨_, rfl, ?_⟩
  have hk := Apart.refl s
  repeat' first
    | with_reducible (first | assumption | apply Apart.ite | apply State.portDown_apart)
    | (intro _ _ _; try dsimp only)
    | intro _
    | split

theorem execTakePortDown_parts (m : Master) (rivals : List Master) (port : Fin 12) (s : State) : Parts s (execTakePortDown m rivals port s) := by
  refine ⟨_, rfl, ?_⟩
  have hk := Apart.refl s
  repeat' first
    | with_reducible (first | assumption | apply Apart.ite | apply State.command_apart | apply State.portDown_apart | exact R.twpPCmd_far _)
    | (intro _ _ _; try dsimp only)
    | intro _
    | split

theorem execTwpCmdFastRetrain_parts (m : Master) (rivals : List Master) (port : Fin 12) (s : State) : Parts s (execTwpCmdFastRetrain m rivals port s) := by
  refine ⟨_, rfl, ?_⟩
  have hk := Apart.refl s
  repeat' first
    | with_reducible (first | assumption | apply Apart.ite | apply State.command_apart | apply State.cmdFast_apart | exact R.twpPCmd_far _)
    | (intro _ _ _; try dsimp only)
    | intro _
    | split

theorem execTwpCmdFullTraining_parts (m : Master) (rivals : List Master) (port : Fin 12) (s : State) : Parts s (execTwpCmdFullTraining m rivals port s) := by
  refine ⟨_, rfl, ?_⟩
  have hk := Apart.refl s
  repeat' first
    | with_reducible (first | assumption | apply Apart.ite | apply State.command_apart | apply State.cmdFull_apart | exact R.twpPCmd_far _)
    | (intro _ _ _; try dsimp only)
    | intro _
    | split

theorem execTwpWinEnable_parts (m : Master) (w : Fin 64) (v : Word) (s : State) : Parts s (execTwpWinEnable m w v s) := by
  refine ⟨_, rfl, ?_⟩
  have hk := Apart.refl s
  repeat' first
    | with_reducible (first | assumption | apply Apart.ite | apply State.command_apart | apply State.winWrite_apart | exact R.twpWinCtl_far _)
    | (intro _ _ _; try dsimp only)
    | intro _
    | split

theorem execSealLatch_parts (k : Fin 16) (s : State) : Parts s (execSealLatch k s) := by
  refine ⟨_, rfl, ?_⟩
  have hk := Apart.refl s
  repeat' first
    | with_reducible (first | assumption | apply Apart.ite | apply State.sealLatch_apart | apply State.handoff_apart)
    | (intro _ _ _; try dsimp only)
    | intro _
    | split

theorem execRjob_parts (k : Fin 16) (s : State) : Parts s (execRjob k s) := by
  refine ⟨_, rfl, ?_⟩
  have hk := Apart.refl s
  repeat' first
    | with_reducible (first | assumption | apply Apart.ite | apply State.rjob_apart)
    | (intro _ _ _; try dsimp only)
    | intro _
    | split

theorem execRjobIssue_parts (k : Fin 16) (errs : Errs) (s : State) : Parts s (execRjobIssue k errs s) := by
  refine ⟨_, rfl, ?_⟩
  have hk := Apart.refl s
  repeat' first
    | with_reducible (first | assumption | apply Apart.ite | apply State.rjobIssue_apart)
    | (intro _ _ _; try dsimp only)
    | intro _
    | split

theorem execQuayFold_parts (q : Fin 16) (held : Nat) (errs : Errs) (s : State) : Parts s (execQuayFold q held errs s) := by
  refine ⟨_, rfl, ?_⟩
  have hk := Apart.refl s
  repeat' first
    | with_reducible (first | assumption | apply Apart.ite | apply State.quayFold_apart | apply State.startJobs_apart)
    | (intro _ _ _; try dsimp only)
    | intro _
    | split

theorem execQuayOpComplete_parts (k : Fin 16) (held : Nat) (errs : Errs) (s : State) : Parts s (execQuayOpComplete k held errs s) := by
  refine ⟨_, rfl, ?_⟩
  have hk := Apart.refl s
  repeat' first
    | with_reducible (first | assumption | apply Apart.ite | apply State.quayOpComplete_apart | apply State.startJobs_apart)
    | (intro _ _ _; try dsimp only)
    | intro _
    | split

theorem execQuayBoundUpdate_parts (q : Fin 16) (errs : Errs) (s : State) : Parts s (execQuayBoundUpdate q errs s) := by
  refine ⟨_, rfl, ?_⟩
  have hk := Apart.refl s
  repeat' first
    | with_reducible (first | assumption | apply Apart.ite | apply State.boundUpdate_apart | apply State.startJobs_apart)
    | (intro _ _ _; try dsimp only)
    | intro _
    | split

theorem execFarAtomic_parts (q : Fin 16) (errs : Errs) (s : State) : Parts s (execFarAtomic q errs s) := by
  refine ⟨_, rfl, ?_⟩
  have hk := Apart.refl s
  repeat' first
    | with_reducible (first | assumption | apply Apart.ite | apply State.farAtomic_apart | apply State.startJobs_apart)
    | (intro _ _ _; try dsimp only)
    | intro _
    | split

theorem execXread_parts (k : Fin 16) (s : State) : Parts s (execXread k s) := by
  refine ⟨_, rfl, ?_⟩
  have hk := Apart.refl s
  repeat' first
    | with_reducible (first | assumption | apply Apart.ite | apply State.xreadHead_apart | apply State.xreadEnd_apart)
    | (intro _ _ _; try dsimp only)
    | intro _
    | split

theorem execSealBarge_parts (port : Fin 12) (s : State) : Parts s (execSealBarge port s) := by
  refine ⟨_, rfl, ?_⟩
  have hk := Apart.refl s
  repeat' first
    | with_reducible (first | assumption | apply Apart.ite | apply State.takeSeal_apart)
    | (intro _ _ _; try dsimp only)
    | intro _
    | split

theorem execExchangeTimeout_parts (k : Fin 16) (s : State) : Parts s (execExchangeTimeout k s) := by
  refine ⟨_, rfl, ?_⟩
  have hk := Apart.refl s
  repeat' first
    | with_reducible (first | assumption | apply Apart.ite | apply State.xchTimeout_apart)
    | (intro _ _ _; try dsimp only)
    | intro _
    | split

theorem execScatter8_parts (port : Fin 12) (errs : Errs) (s : State) : Parts s (execScatter8 port errs s) := by
  refine ⟨_, rfl, ?_⟩
  have hk := Apart.refl s
  repeat' first
    | with_reducible (first | assumption | apply Apart.ite | apply State.takeScatter_apart)
    | (intro _ _ _; try dsimp only)
    | intro _
    | split

theorem execScatter16_parts (port : Fin 12) (errs : Errs) (s : State) : Parts s (execScatter16 port errs s) := by
  refine ⟨_, rfl, ?_⟩
  have hk := Apart.refl s
  repeat' first
    | with_reducible (first | assumption | apply Apart.ite | apply State.takeScatter_apart)
    | (intro _ _ _; try dsimp only)
    | intro _
    | split

theorem execScatter32_parts (port : Fin 12) (errs : Errs) (s : State) : Parts s (execScatter32 port errs s) := by
  refine ⟨_, rfl, ?_⟩
  have hk := Apart.refl s
  repeat' first
    | with_reducible (first | assumption | apply Apart.ite | apply State.takeScatter_apart)
    | (intro _ _ _; try dsimp only)
    | intro _
    | split

theorem execReq16_parts (port : Fin 12) (errs : Errs) (s : State) : Parts s (execReq16 port errs s) := by
  refine ⟨_, rfl, ?_⟩
  have hk := Apart.refl s
  repeat' first
    | with_reducible (first | assumption | apply Apart.ite | apply State.takeReq_apart)
    | (intro _ _ _; try dsimp only)
    | intro _
    | split

theorem execReq32_parts (port : Fin 12) (errs : Errs) (s : State) : Parts s (execReq32 port errs s) := by
  refine ⟨_, rfl, ?_⟩
  have hk := Apart.refl s
  repeat' first
    | with_reducible (first | assumption | apply Apart.ite | apply State.takeReq_apart)
    | (intro _ _ _; try dsimp only)
    | intro _
    | split

theorem execGather_parts (port : Fin 12) (s : State) : Parts s (execGather port s) := by
  refine ⟨_, rfl, ?_⟩
  have hk := Apart.refl s
  repeat' first
    | with_reducible (first | assumption | apply Apart.ite | apply State.takeGather_apart)
    | (intro _ _ _; try dsimp only)
    | intro _
    | split

theorem execGatherSend_parts (k : Fin 16) (s : State) : Parts s (execGatherSend k s) := by
  refine ⟨_, rfl, ?_⟩
  have hk := Apart.refl s
  repeat' first
    | with_reducible (first | assumption | apply Apart.ite | apply State.gatherSend_apart)
    | (intro _ _ _; try dsimp only)
    | intro _
    | split

theorem execJobClose_parts (j : Fin 64) (s : State) : Parts s (execJobClose j s) := by
  refine ⟨_, rfl, ?_⟩
  have hk := Apart.refl s
  repeat' first
    | with_reducible (first | assumption | apply Apart.ite | apply State.jobClose_apart)
    | (intro _ _ _; try dsimp only)
    | intro _
    | split

theorem execJobTimeout_parts (j : Fin 64) (s : State) : Parts s (execJobTimeout j s) := by
  refine ⟨_, rfl, ?_⟩
  have hk := Apart.refl s
  repeat' first
    | with_reducible (first | assumption | apply Apart.ite | apply State.jobTimeout_apart)
    | (intro _ _ _; try dsimp only)
    | intro _
    | split

theorem execKextend_parts (k : Fin 16) (x : Strm) (s : State) : Parts s (execKextend k x s) := by
  refine ⟨_, rfl, ?_⟩
  have hk := Apart.refl s
  repeat' first
    | with_reducible (first | assumption | apply Apart.ite | apply State.kvOp_apart | exact State.extendAll_apart _ _ _ (by assumption) _ _ (by assumption) | refine Apart.got (by assumption) ?_)
    | (intro _ _ _; try dsimp only)
    | intro _
    | split

theorem execKwrite_parts (k : Fin 16) (x : Strm) (s : State) : Parts s (execKwrite k x s) := by
  refine ⟨_, rfl, ?_⟩
  have hk := Apart.refl s
  repeat' first
    | with_reducible (first | assumption | apply Apart.ite | apply State.kvOp_apart | exact State.extendAll_apart _ _ _ (by assumption) _ _ (by assumption) | refine Apart.got (by assumption) ?_)
    | (intro _ _ _; try dsimp only)
    | intro _
    | split

theorem execKgather_parts (k : Fin 16) (x : Strm) (s : State) : Parts s (execKgather k x s) := by
  refine ⟨_, rfl, ?_⟩
  have hk := Apart.refl s
  repeat' first
    | with_reducible (first | assumption | apply Apart.ite | apply State.kvOp_apart | exact State.extendAll_apart _ _ _ (by assumption) _ _ (by assumption) | refine Apart.got (by assumption) ?_)
    | (intro _ _ _; try dsimp only)
    | intro _
    | split

theorem execKshare_parts (k : Fin 16) (x : Strm) (s : State) : Parts s (execKshare k x s) := by
  refine ⟨_, rfl, ?_⟩
  have hk := Apart.refl s
  repeat' first
    | with_reducible (first | assumption | apply Apart.ite | apply State.kvOp_apart | exact State.extendAll_apart _ _ _ (by assumption) _ _ (by assumption) | refine Apart.got (by assumption) ?_)
    | (intro _ _ _; try dsimp only)
    | intro _
    | split

theorem execKfree_parts (k : Fin 16) (x : Strm) (s : State) : Parts s (execKfree k x s) := by
  refine ⟨_, rfl, ?_⟩
  have hk := Apart.refl s
  repeat' first
    | with_reducible (first | assumption | apply Apart.ite | apply State.kvOp_apart | exact State.extendAll_apart _ _ _ (by assumption) _ _ (by assumption) | refine Apart.got (by assumption) ?_)
    | (intro _ _ _; try dsimp only)
    | intro _
    | split

theorem execKbasket_parts (k : Fin 16) (x : Strm) (s : State) : Parts s (execKbasket k x s) := by
  refine ⟨_, rfl, ?_⟩
  have hk := Apart.refl s
  repeat' first
    | with_reducible (first | assumption | apply Apart.ite | apply State.kvOp_apart | exact State.extendAll_apart _ _ _ (by assumption) _ _ (by assumption) | refine Apart.got (by assumption) ?_)
    | (intro _ _ _; try dsimp only)
    | intro _
    | split

theorem execKgatherUnmoor_parts (k : Fin 16) (s : State) : Parts s (execKgatherUnmoor k s) := by
  refine ⟨_, rfl, ?_⟩
  have hk := Apart.refl s
  repeat' first
    | with_reducible (first | assumption | apply Apart.ite | apply State.gatherPage_apart)
    | (intro _ _ _; try dsimp only)
    | intro _
    | split

theorem execKvComplete_parts (k : Fin 16) (s : State) : Parts s (execKvComplete k s) := by
  refine ⟨_, rfl, ?_⟩
  have hk := Apart.refl s
  repeat' first
    | with_reducible (first | assumption | apply Apart.ite | apply State.kvComplete_apart)
    | (intro _ _ _; try dsimp only)
    | intro _
    | split

theorem execInit_parts (m : Master) (rivals : List Master) (d : Fin 4) (k : Fin 16) (s : State) : Parts s (execInit m rivals d k s) := by
  refine ⟨_, rfl, ?_⟩
  have hk := Apart.refl s
  repeat' first
    | with_reducible (first | assumption | apply Apart.ite | apply State.kvCmd_apart | apply State.kvInit_apart)
    | (intro _ _ _; try dsimp only)
    | intro _
    | split

theorem execRelease_parts (m : Master) (rivals : List Master) (d : Fin 4) (k : Fin 16) (s : State) : Parts s (execRelease m rivals d k s) := by
  refine ⟨_, rfl, ?_⟩
  have hk := Apart.refl s
  repeat' first
    | with_reducible (first | assumption | apply Apart.ite | apply State.kvCmd_apart | apply State.setFld_apart | exact R.kvpSStatus_far _ _)
    | (intro _ _ _; try dsimp only)
    | intro _
    | split

theorem execSdropIssue_parts (k : Fin 16) (s : State) : Parts s (execSdropIssue k s) := by
  refine ⟨_, rfl, ?_⟩
  have hk := Apart.refl s
  repeat' first
    | with_reducible (first | assumption | apply Apart.ite | apply State.sdropIssue_apart)
    | (intro _ _ _; try dsimp only)
    | intro _
    | split

theorem execTcxLaunch_parts (m : Master) (rivals : List Master) (d : Fin 4) (core : Fin 64) (thread : Fin 8) (s : State) : Parts s (execTcxLaunch m rivals d core thread s) := by
  refine ⟨_, rfl, ?_⟩
  have hk := Apart.refl s
  repeat' first
    | with_reducible (first | assumption | apply Apart.ite | apply State.command_apart | apply State.launch_apart | exact R.tcxLaunch_far _)
    | (intro _ _ _; try dsimp only)
    | intro _
    | split

theorem execTcxHalt_parts (m : Master) (rivals : List Master) (d : Fin 4) (core : Fin 64) (thread : Fin 8) (s : State) : Parts s (execTcxHalt m rivals d core thread s) := by
  refine ⟨_, rfl, ?_⟩
  have hk := Apart.refl s
  repeat' first
    | with_reducible (first | assumption | apply Apart.ite | apply State.command_apart | apply State.haltCmd_apart | exact R.tcxLaunch_far _)
    | (intro _ _ _; try dsimp only)
    | intro _
    | split

theorem execWfi_parts (t : Fin 2048) (lead : List (Nat × Nat)) (s : State) : Parts s (execWfi t lead s) := by
  refine ⟨_, rfl, ?_⟩
  have hk := Apart.refl s
  repeat' first
    | with_reducible (first | assumption | apply Apart.ite | apply State.wfi_apart)
    | (intro _ _ _; try dsimp only)
    | intro _
    | split

theorem execRtAcq_parts (t : Fin 2048) (lead : List (Nat × Nat)) (word : Nat) (s : State) : Parts s (execRtAcq t lead word s) := by
  refine ⟨_, rfl, ?_⟩
  have hk := Apart.refl s
  repeat' first
    | with_reducible (first | assumption | apply Apart.ite | apply State.rtAcq_apart)
    | (intro _ _ _; try dsimp only)
    | intro _
    | split

theorem execRtRel_parts (t : Fin 2048) (lead : List (Nat × Nat)) (word : Nat) (s : State) : Parts s (execRtRel t lead word s) := by
  refine ⟨_, rfl, ?_⟩
  have hk := Apart.refl s
  repeat' first
    | with_reducible (first | assumption | apply Apart.ite | apply State.rtRel_apart)
    | (intro _ _ _; try dsimp only)
    | intro _
    | split

theorem execRtTpost_parts (t : Fin 2048) (lead : List (Nat × Nat)) (word : Nat) (s : State) : Parts s (execRtTpost t lead word s) := by
  refine ⟨_, rfl, ?_⟩
  have hk := Apart.refl s
  repeat' first
    | with_reducible (first | assumption | apply Apart.ite | apply State.rtTpost_apart)
    | (intro _ _ _; try dsimp only)
    | intro _
    | split

theorem execRtTtake_parts (t : Fin 2048) (lead : List (Nat × Nat)) (word : Nat) (s : State) : Parts s (execRtTtake t lead word s) := by
  refine ⟨_, rfl, ?_⟩
  have hk := Apart.refl s
  repeat' first
    | with_reducible (first | assumption | apply Apart.ite | apply State.rtTtake_apart)
    | (intro _ _ _; try dsimp only)
    | intro _
    | split

theorem execTtakeServe_parts (k : Fin 16) (s : State) : Parts s (execTtakeServe k s) := by
  refine ⟨_, rfl, ?_⟩
  have hk := Apart.refl s
  repeat' first
    | with_reducible (first | assumption | apply Apart.ite | apply State.ttakeServe_apart)
    | (intro _ _ _; try dsimp only)
    | intro _
    | split

theorem execRtTwait_parts (t : Fin 2048) (lead : List (Nat × Nat)) (word : Nat) (s : State) : Parts s (execRtTwait t lead word s) := by
  refine ⟨_, rfl, ?_⟩
  have hk := Apart.refl s
  repeat' first
    | with_reducible (first | assumption | apply Apart.ite | apply State.rtTwait_apart)
    | (intro _ _ _; try dsimp only)
    | intro _
    | split

theorem execTwaitReread_parts (t : Fin 2048) (s : State) : Parts s (execTwaitReread t s) := by
  refine ⟨_, rfl, ?_⟩
  have hk := Apart.refl s
  repeat' first
    | with_reducible (first | assumption | apply Apart.ite | apply State.twaitReread_apart)
    | (intro _ _ _; try dsimp only)
    | intro _
    | split

theorem execRtApost_parts (t : Fin 2048) (lead : List (Nat × Nat)) (word : Nat) (s : State) : Parts s (execRtApost t lead word s) := by
  refine ⟨_, rfl, ?_⟩
  have hk := Apart.refl s
  repeat' first
    | with_reducible (first | assumption | apply Apart.ite | apply State.rtApost_apart)
    | (intro _ _ _; try dsimp only)
    | intro _
    | split

theorem execRtSdesc_parts (t : Fin 2048) (lead : List (Nat × Nat)) (word : Nat) (s : State) : Parts s (execRtSdesc t lead word s) := by
  refine ⟨_, rfl, ?_⟩
  have hk := Apart.refl s
  repeat' first
    | with_reducible (first | assumption | apply Apart.ite | apply State.rtSdesc_apart)
    | (intro _ _ _; try dsimp only)
    | intro _
    | split

theorem execRtSstop_parts (t : Fin 2048) (lead : List (Nat × Nat)) (word : Nat) (s : State) : Parts s (execRtSstop t lead word s) := by
  refine ⟨_, rfl, ?_⟩
  have hk := Apart.refl s
  repeat' first
    | with_reducible (first | assumption | apply Apart.ite | apply State.rtSstop_apart)
    | (intro _ _ _; try dsimp only)
    | intro _
    | split

theorem execRdShared_parts (h : Fin 20) (agent : Fin 69) (addr age dirEcc : Nat) (s : State) : Parts s (execRdShared h agent addr age dirEcc s) := by
  refine ⟨_, rfl, ?_⟩
  have hk := Apart.refl s
  repeat' first
    | with_reducible (first | assumption | apply Apart.ite | apply State.homeReq_apart)
    | (intro _ _ _; try dsimp only)
    | intro _
    | split

theorem execRdUnique_parts (h : Fin 20) (agent : Fin 69) (addr age dirEcc : Nat) (s : State) : Parts s (execRdUnique h agent addr age dirEcc s) := by
  refine ⟨_, rfl, ?_⟩
  have hk := Apart.refl s
  repeat' first
    | with_reducible (first | assumption | apply Apart.ite | apply State.homeReq_apart)
    | (intro _ _ _; try dsimp only)
    | intro _
    | split

theorem execRdOnce_parts (h : Fin 20) (who : Fin 112) (addr age dirEcc : Nat) (s : State) : Parts s (execRdOnce h who addr age dirEcc s) := by
  refine ⟨_, rfl, ?_⟩
  have hk := Apart.refl s
  repeat' first
    | with_reducible (first | assumption | apply Apart.ite | apply State.homeReq_apart)
    | (intro _ _ _; try dsimp only)
    | intro _
    | split

theorem execWrFull_parts (h : Fin 20) (who : Fin 112) (addr age dirEcc : Nat) (alloc : Bool) (data : List Byte) (s : State) : Parts s (execWrFull h who addr age dirEcc alloc data s) := by
  refine ⟨_, rfl, ?_⟩
  have hk := Apart.refl s
  repeat' first
    | with_reducible (first | assumption | apply Apart.ite | apply State.homeReq_apart)
    | (intro _ _ _; try dsimp only)
    | intro _
    | split

theorem execWrMasked_parts (h : Fin 20) (who : Fin 112) (addr age dirEcc mask : Nat) (data : List Byte) (s : State) : Parts s (execWrMasked h who addr age dirEcc mask data s) := by
  refine ⟨_, rfl, ?_⟩
  have hk := Apart.refl s
  repeat' first
    | with_reducible (first | assumption | apply Apart.ite | apply State.homeReq_apart)
    | (intro _ _ _; try dsimp only)
    | intro _
    | split

theorem execAtomic_parts (h : Fin 20) (r : Requester) (lead : List (Nat × Nat)) (op : AtomOp) (addr age dirEcc size a b : Nat) (s : State) : Parts s (execAtomic h r lead op addr age dirEcc size a b s) := by
  refine ⟨_, rfl, ?_⟩
  have hk := Apart.refl s
  repeat' first
    | with_reducible (first | assumption | apply Apart.ite | apply State.atomicReq_apart)
    | (intro _ _ _; try dsimp only)
    | intro _
    | split

theorem execWatch_parts (h : Fin 20) (t : Fin 2048) (addr age dirEcc : Nat) (s : State) : Parts s (execWatch h t addr age dirEcc s) := by
  refine ⟨_, rfl, ?_⟩
  have hk := Apart.refl s
  repeat' first
    | with_reducible (first | assumption | apply Apart.ite | apply State.homeReq_apart)
    | (intro _ _ _; try dsimp only)
    | intro _
    | split

theorem execWback_parts (h : Fin 20) (agent : Fin 69) (addr : Nat) (s : State) : Parts s (execWback h agent addr s) := by
  refine ⟨_, rfl, ?_⟩
  have hk := Apart.refl s
  repeat' first
    | with_reducible (first | assumption | apply Apart.ite | apply State.wback_apart)
    | (intro _ _ _; try dsimp only)
    | intro _
    | split

theorem execGrant_parts (h : Fin 20) (tid : Nat) (s : State) : Parts s (execGrant h tid s) := by
  refine ⟨_, rfl, ?_⟩
  have hk := Apart.refl s
  repeat' first
    | with_reducible (first | assumption | apply Apart.ite | apply State.grant_apart)
    | (intro _ _ _; try dsimp only)
    | intro _
    | split

theorem execTrackerFree_parts (h : Fin 20) (s : State) : Parts s (execTrackerFree h s) := by
  refine ⟨_, rfl, ?_⟩
  have hk := Apart.refl s
  repeat' first
    | with_reducible (first | assumption | apply Apart.ite | apply State.trackerFree_apart)
    | (intro _ _ _; try dsimp only)
    | intro _
    | split

theorem execSnoop_parts (h : Fin 20) (agent : Fin 69) (tid : Nat) (wback : Bool) (s : State) : Parts s (execSnoop h agent tid wback s) := by
  refine ⟨_, rfl, ?_⟩
  have hk := Apart.refl s
  repeat' first
    | with_reducible (first | assumption | apply Apart.ite | apply State.snoop_apart)
    | (intro _ _ _; try dsimp only)
    | intro _
    | split

theorem execSnoopAnswer_parts (h : Fin 20) (agent : Fin 69) (tid : Nat) (err : Bool) (s : State) : Parts s (execSnoopAnswer h agent tid err s) := by
  refine ⟨_, rfl, ?_⟩
  have hk := Apart.refl s
  repeat' first
    | with_reducible (first | assumption | apply Apart.ite | apply State.snoopAnswer_apart)
    | (intro _ _ _; try dsimp only)
    | intro _
    | split

theorem execSnoopTimeout_parts (h : Fin 20) (tid : Nat) (s : State) : Parts s (execSnoopTimeout h tid s) := by
  refine ⟨_, rfl, ?_⟩
  have hk := Apart.refl s
  repeat' first
    | with_reducible (first | assumption | apply Apart.ite | apply State.snoopTimeout_apart)
    | (intro _ _ _; try dsimp only)
    | intro _
    | split

theorem execQuayAtomicReturn_parts (h : Fin 20) (tid : Nat) (s : State) : Parts s (execQuayAtomicReturn h tid s) := by
  refine ⟨_, rfl, ?_⟩
  have hk := Apart.refl s
  repeat' first
    | with_reducible (first | assumption | apply Apart.ite | apply State.quayReturn_apart)
    | (intro _ _ _; try dsimp only)
    | intro _
    | split

theorem execLr_parts (h : Fin 20) (r : Requester) (lead : List (Nat × Nat)) (addr age dirEcc size : Nat) (s : State) : Parts s (execLr h r lead addr age dirEcc size s) := by
  refine ⟨_, rfl, ?_⟩
  have hk := Apart.refl s
  repeat' first
    | with_reducible (first | assumption | apply Apart.ite | apply State.lrReq_apart)
    | (intro _ _ _; try dsimp only)
    | intro _
    | split

theorem execSc_parts (h : Fin 20) (r : Requester) (lead : List (Nat × Nat)) (addr age dirEcc size v : Nat) (s : State) : Parts s (execSc h r lead addr age dirEcc size v s) := by
  refine ⟨_, rfl, ?_⟩
  have hk := Apart.refl s
  repeat' first
    | with_reducible (first | assumption | apply Apart.ite | apply State.scReq_apart)
    | (intro _ _ _; try dsimp only)
    | intro _
    | split

theorem execCreate_parts (m : Master) (rivals : List Master) (n : Fin 64) (s : State) : Parts s (execCreate m rivals n s) := by
  refine ⟨_, rfl, ?_⟩
  have hk := Apart.refl s
  repeat' first
    | with_reducible (first | assumption | apply Apart.ite | apply State.command_apart | apply State.qpCreate_apart | exact R.hifQCtl_far _)
    | (intro _ _ _; try dsimp only)
    | intro _
    | split

theorem execDelete_parts (m : Master) (rivals : List Master) (n : Fin 64) (s : State) : Parts s (execDelete m rivals n s) := by
  refine ⟨_, rfl, ?_⟩
  have hk := Apart.refl s
  repeat' first
    | with_reducible (first | assumption | apply Apart.ite | apply State.command_apart | apply State.qpDelete_apart | exact R.hifQCtl_far _)
    | (intro _ _ _; try dsimp only)
    | intro _
    | split

theorem execRestart_parts (m : Master) (rivals : List Master) (n : Fin 64) (s : State) : Parts s (execRestart m rivals n s) := by
  refine ⟨_, rfl, ?_⟩
  have hk := Apart.refl s
  repeat' first
    | with_reducible (first | assumption | apply Apart.ite | apply State.command_apart | apply State.qpRestart_apart | exact R.hifQCtl_far _)
    | (intro _ _ _; try dsimp only)
    | intro _
    | split

theorem execHifDbSq_parts (m : Master) (n : Fin 64) (tail gen : Nat) (s : State) : Parts s (execHifDbSq m n tail gen s) := by
  refine ⟨_, rfl, ?_⟩
  have hk := Apart.refl s
  repeat' first
    | with_reducible (first | assumption | apply Apart.ite | apply State.command_apart | apply State.dbSq_apart | exact R.hifDbSq_far _)
    | (intro _ _ _; try dsimp only)
    | intro _
    | split

theorem execHifDbCq_parts (m : Master) (n : Fin 64) (head : Nat) (s : State) : Parts s (execHifDbCq m n head s) := by
  refine ⟨_, rfl, ?_⟩
  have hk := Apart.refl s
  repeat' first
    | with_reducible (first | assumption | apply Apart.ite | apply State.command_apart | apply State.dbCq_apart | exact R.hifDbCq_far _)
    | (intro _ _ _; try dsimp only)
    | intro _
    | split

theorem execSqFetch_parts (n : Fin 64) (host : Option (List Byte)) (cqOk : Bool) (s : State) : Parts s (execSqFetch n host cqOk s) := by
  refine ⟨_, rfl, ?_⟩
  have hk := Apart.refl s
  repeat' first
    | with_reducible (first | assumption | apply Apart.ite | apply State.sqFetch_apart)
    | (intro _ _ _; try dsimp only)
    | intro _
    | split

theorem execSqRefetch_parts (n : Fin 64) (host : Option (List Byte)) (cqOk : Bool) (s : State) : Parts s (execSqRefetch n host cqOk s) := by
  refine ⟨_, rfl, ?_⟩
  have hk := Apart.refl s
  repeat' first
    | with_reducible (first | assumption | apply Apart.ite | apply State.sqRefetch_apart)
    | (intro _ _ _; try dsimp only)
    | intro _
    | split

theorem execJournalCommit_parts (n : Fin 64) (cqOk : Bool) (s : State) : Parts s (execJournalCommit n cqOk s) := by
  refine ⟨_, rfl, ?_⟩
  have hk := Apart.refl s
  repeat' first
    | with_reducible (first | assumption | apply Apart.ite | apply State.jCommit_apart)
    | (intro _ _ _; try dsimp only)
    | intro _
    | split

theorem execHifNop_parts (n : Fin 64) (s : State) : Parts s (execHifNop n s) := by
  refine ⟨_, rfl, ?_⟩
  have hk := Apart.refl s
  repeat' first
    | with_reducible (first | assumption | apply Apart.ite | apply State.hifNop_apart)
    | (intro _ _ _; try dsimp only)
    | intro _
    | split

theorem execHifWrite_parts (n : Fin 64) (s : State) : Parts s (execHifWrite n s) := by
  refine ⟨_, rfl, ?_⟩
  have hk := Apart.refl s
  repeat' first
    | with_reducible (first | assumption | apply Apart.ite | apply State.hifWrite_apart)
    | (intro _ _ _; try dsimp only)
    | intro _
    | split

theorem execCopy_parts (n : Fin 64) (host : Option (List Byte)) (poisoned hostOk : Bool) (s : State) : Parts s (execCopy n host poisoned hostOk s) := by
  refine ⟨_, rfl, ?_⟩
  have hk := Apart.refl s
  repeat' first
    | with_reducible (first | assumption | apply Apart.ite | apply State.copyStep_apart)
    | (intro _ _ _; try dsimp only)
    | intro _
    | split

theorem execPsqLimit_parts (n : Fin 64) (s : State) : Parts s (execPsqLimit n s) := by
  refine ⟨_, rfl, ?_⟩
  have hk := Apart.refl s
  repeat' first
    | with_reducible (first | assumption | apply Apart.ite | apply State.hifLimit_apart)
    | (intro _ _ _; try dsimp only)
    | intro _
    | split

theorem execHifPsqPost_parts (n : Fin 64) (s : State) : Parts s (execHifPsqPost n s) := by
  refine ⟨_, rfl, ?_⟩
  have hk := Apart.refl s
  repeat' first
    | with_reducible (first | assumption | apply Apart.ite | apply State.hifPost_apart)
    | (intro _ _ _; try dsimp only)
    | intro _
    | split

theorem execHifPsqCmd_parts (n : Fin 64) (s : State) : Parts s (execHifPsqCmd n s) := by
  refine ⟨_, rfl, ?_⟩
  have hk := Apart.refl s
  repeat' first
    | with_reducible (first | assumption | apply Apart.ite | apply State.hifCmd_apart)
    | (intro _ _ _; try dsimp only)
    | intro _
    | split

theorem execPool_parts (n : Fin 64) (cqOk : Bool) (s : State) : Parts s (execPool n cqOk s) := by
  refine ⟨_, rfl, ?_⟩
  have hk := Apart.refl s
  repeat' first
    | with_reducible (first | assumption | apply Apart.ite | apply State.hifPool_apart)
    | (intro _ _ _; try dsimp only)
    | intro _
    | split

theorem execCommandComplete_parts (n : Fin 64) (cqOk : Bool) (s : State) : Parts s (execCommandComplete n cqOk s) := by
  refine ⟨_, rfl, ?_⟩
  have hk := Apart.refl s
  repeat' first
    | with_reducible (first | assumption | apply Apart.ite | apply State.cmdComplete_apart)
    | (intro _ _ _; try dsimp only)
    | intro _
    | split

theorem execHifPoolDone_parts (m : Master) (n : Fin 64) (cid status : Nat) (s : State) : Parts s (execHifPoolDone m n cid status s) := by
  refine ⟨_, rfl, ?_⟩
  have hk := Apart.refl s
  repeat' first
    | with_reducible (first | assumption | apply Apart.ite | apply State.command_apart | apply State.poolDone_apart | exact R.hifPoolDone_far)
    | (intro _ _ _; try dsimp only)
    | intro _
    | split

theorem execIrqTimer_parts (n : Fin 64) (s : State) : Parts s (execIrqTimer n s) := by
  refine ⟨_, rfl, ?_⟩
  have hk := Apart.refl s
  repeat' first
    | with_reducible (first | assumption | apply Apart.ite | apply State.irqTimer_apart)
    | (intro _ _ _; try dsimp only)
    | intro _
    | split

theorem execJournalReplay_parts (k : Fin 16) (s : State) : Parts s (execJournalReplay k s) := by
  refine ⟨_, rfl, ?_⟩
  have hk := Apart.refl s
  repeat' first
    | with_reducible (first | assumption | apply Apart.ite | apply State.jReplay_apart)
    | (intro _ _ _; try dsimp only)
    | intro _
    | split

theorem execHifPoolRingEnable_parts (m : Master) (base : Nat) (s : State) : Parts s (execHifPoolRingEnable m base s) := by
  refine ⟨_, rfl, ?_⟩
  have hk := Apart.refl s
  repeat' first
    | with_reducible (first | assumption | apply Apart.ite | apply State.command_apart | apply State.ringEnable_apart | exact R.hifPoolRing_far)
    | (intro _ _ _; try dsimp only)
    | intro _
    | split

theorem execHbmStackReady_parts (st : Fin 8) (s : State) : Parts s (execHbmStackReady st s) := by
  refine ⟨_, rfl, ?_⟩
  have hk := Apart.refl s
  repeat' first
    | with_reducible (first | assumption | apply Apart.ite | apply State.stackReady_apart)
    | (intro _ _ _; try dsimp only)
    | intro _
    | split

theorem execJournalCaptureDone_parts  (s : State) : Parts s (execJournalCaptureDone s) := by
  refine ⟨_, rfl, ?_⟩
  have hk := Apart.refl s
  repeat' first
    | with_reducible (first | assumption | apply Apart.ite | apply State.captureDone_apart)
    | (intro _ _ _; try dsimp only)
    | intro _
    | split

theorem execPcieLinkUp_parts (width speed : Nat) (flit : Bool) (s : State) : Parts s (execPcieLinkUp width speed flit s) := by
  refine ⟨_, rfl, ?_⟩
  have hk := Apart.refl s
  repeat' first
    | with_reducible (first | assumption | apply Apart.ite | apply State.linkOn_apart)
    | (intro _ _ _; try dsimp only)
    | intro _
    | split

theorem execPcieLinkDown_parts  (s : State) : Parts s (execPcieLinkDown s) := by
  refine ⟨_, rfl, ?_⟩
  have hk := Apart.refl s
  repeat' first
    | with_reducible (first | assumption | apply Apart.ite | apply State.linkOff_apart)
    | (intro _ _ _; try dsimp only)
    | intro _
    | split

theorem execHifCtlLinkEn_parts (m : Master) (b : Bool) (s : State) : Parts s (execHifCtlLinkEn m b s) := by
  refine ⟨_, rfl, ?_⟩
  have hk := Apart.refl s
  repeat' first
    | with_reducible (first | assumption | apply Apart.ite | apply State.command_apart | apply State.linkEnable_apart | exact R.hifCtl_far)
    | (intro _ _ _; try dsimp only)
    | intro _
    | split

theorem execCxtDecCommit_parts (m : Master) (n : Fin 8) (s : State) : Parts s (execCxtDecCommit m n s) := by
  refine ⟨_, rfl, ?_⟩
  have hk := Apart.refl s
  repeat' first
    | with_reducible (first | assumption | apply Apart.ite | apply State.command_apart | apply State.decCommit_apart | exact R.cxtDecCtl_far _)
    | (intro _ _ _; try dsimp only)
    | intro _
    | split

theorem execCxtDecUncommit_parts (m : Master) (n : Fin 8) (s : State) : Parts s (execCxtDecUncommit m n s) := by
  refine ⟨_, rfl, ?_⟩
  have hk := Apart.refl s
  repeat' first
    | with_reducible (first | assumption | apply Apart.ite | apply State.command_apart | apply State.decUncommit_apart | exact R.cxtDecCtl_far _)
    | (intro _ _ _; try dsimp only)
    | intro _
    | split

theorem execCxtDecLock_parts (m : Master) (n : Fin 8) (s : State) : Parts s (execCxtDecLock m n s) := by
  refine ⟨_, rfl, ?_⟩
  have hk := Apart.refl s
  repeat' first
    | with_reducible (first | assumption | apply Apart.ite | apply State.command_apart | apply State.decLock_apart | exact R.cxtDecCtl_far _)
    | (intro _ _ _; try dsimp only)
    | intro _
    | split

theorem execPatrolScrub_parts (st : Fin 8) (addr : Nat) (ecc : Nat) (raced : Bool) (last : Bool) (s : State) : Parts s (execPatrolScrub st addr ecc raced last s) := by
  refine ⟨_, rfl, ?_⟩
  have hk := Apart.refl s
  repeat' first
    | with_reducible (first | assumption | apply Apart.ite | apply State.patrol_apart)
    | (intro _ _ _; try dsimp only)
    | intro _
    | split

theorem execCxlLinkDown_parts (p : Fin 4) (s : State) : Parts s (execCxlLinkDown p s) := by
  refine ⟨_, rfl, ?_⟩
  have hk := Apart.refl s
  repeat' first
    | with_reducible (first | assumption | apply Apart.ite | apply State.cxlOff_apart)
    | (intro _ _ _; try dsimp only)
    | intro _
    | split

theorem execCxlLinkUp_parts (p : Fin 4) (width speed : Nat) (flit device : Bool) (s : State) : Parts s (execCxlLinkUp p width speed flit device s) := by
  refine ⟨_, rfl, ?_⟩
  have hk := Apart.refl s
  repeat' first
    | with_reducible (first | assumption | apply Apart.ite | apply State.cxlOn_apart)
    | (intro _ _ _; try dsimp only)
    | intro _
    | split

theorem execHifSyncRead_parts  (s : State) : Parts s (execHifSyncRead s) := by
  refine ⟨_, rfl, ?_⟩
  have hk := Apart.refl s
  repeat' first
    | with_reducible (first | assumption | apply Apart.ite | apply State.syncRead_apart)
    | (intro _ _ _; try dsimp only)
    | intro _
    | split

theorem execNonceExpiry_parts  (s : State) : Parts s (execNonceExpiry s) := by
  refine ⟨_, rfl, ?_⟩
  have hk := Apart.refl s
  repeat' first
    | with_reducible (first | assumption | apply Apart.ite | apply State.nonceExpiry_apart)
    | (intro _ _ _; try dsimp only)
    | intro _
    | split

theorem execSpdmGetVersion_parts (i3c : Bool) (s : State) : Parts s (execSpdmGetVersion i3c s) := by
  refine ⟨_, rfl, ?_⟩
  have hk := Apart.refl s
  repeat' first
    | with_reducible (first | assumption | apply Apart.ite | apply State.spReq_apart | apply State.setSp_apart | apply State.answer_apart)
    | (intro _ _ _; try dsimp only)
    | intro _
    | split

theorem execSpdmGetCapabilities_parts (i3c : Bool) (version : Nat) (s : State) : Parts s (execSpdmGetCapabilities i3c version s) := by
  refine ⟨_, rfl, ?_⟩
  have hk := Apart.refl s
  repeat' first
    | with_reducible (first | assumption | apply Apart.ite | apply State.spReq_apart | apply State.setSp_apart | apply State.answer_apart | apply State.spErr_apart)
    | (intro _ _ _; try dsimp only)
    | intro _
    | split

theorem execSpdmNegotiateAlgorithms_parts (i3c : Bool) (algOk : Bool) (s : State) : Parts s (execSpdmNegotiateAlgorithms i3c algOk s) := by
  refine ⟨_, rfl, ?_⟩
  have hk := Apart.refl s
  repeat' first
    | with_reducible (first | assumption | apply Apart.ite | apply State.spReq_apart | apply State.setSp_apart | apply State.answer_apart | apply State.spErr_apart)
    | (intro _ _ _; try dsimp only)
    | intro _
    | split

theorem execSpdmGetDigests_parts (i3c : Bool) (s : State) : Parts s (execSpdmGetDigests i3c s) := by
  refine ⟨_, rfl, ?_⟩
  have hk := Apart.refl s
  repeat' first
    | with_reducible (first | assumption | apply Apart.ite | apply State.spReq_apart | apply State.answer_apart)
    | (intro _ _ _; try dsimp only)
    | intro _
    | split

theorem execSpdmGetCertificate_parts (i3c : Bool) (slot off len : Nat) (s : State) : Parts s (execSpdmGetCertificate i3c slot off len s) := by
  refine ⟨_, rfl, ?_⟩
  have hk := Apart.refl s
  repeat' first
    | with_reducible (first | assumption | apply Apart.ite | apply State.spReq_apart | apply State.spErr_apart | apply State.answer_apart)
    | (intro _ _ _; try dsimp only)
    | intro _
    | split

theorem execSpdmChallenge_parts (i3c : Bool) (slot : Nat) (nonce : List Byte) (s : State) : Parts s (execSpdmChallenge i3c slot nonce s) := by
  refine ⟨_, rfl, ?_⟩
  have hk := Apart.refl s
  repeat' first
    | with_reducible (first | assumption | apply Apart.ite | apply State.spReq_apart | apply State.spErr_apart | apply State.spSigned_apart)
    | (intro _ _ _; try dsimp only)
    | intro _
    | split

theorem execSpdmGetMeasurements_parts (i3c : Bool) (idx : Nat) (sign : Bool) (s : State) : Parts s (execSpdmGetMeasurements i3c idx sign s) := by
  refine ⟨_, rfl, ?_⟩
  have hk := Apart.refl s
  repeat' first
    | with_reducible (first | assumption | apply Apart.ite | apply State.spReq_apart | apply State.spErr_apart | apply State.spSigned_apart | apply State.answer_apart)
    | (intro _ _ _; try dsimp only)
    | intro _
    | split

theorem execSpdmKeyExchange_parts (i3c : Bool) (reqId : Nat) (s : State) : Parts s (execSpdmKeyExchange i3c reqId s) := by
  refine ⟨_, rfl, ?_⟩
  have hk := Apart.refl s
  repeat' first
    | with_reducible (first | assumption | apply Apart.ite | apply State.spSess_apart | apply State.spErr_apart | apply State.setSp_apart | apply State.spSigned_apart)
    | (intro _ _ _; try dsimp only)
    | intro _
    | split

theorem execSpdmFinish_parts (i3c : Bool) (hmacOk : Bool) (s : State) : Parts s (execSpdmFinish i3c hmacOk s) := by
  refine ⟨_, rfl, ?_⟩
  have hk := Apart.refl s
  repeat' first
    | with_reducible (first | assumption | apply Apart.ite | apply State.spSess_apart | apply State.spErr_apart | apply State.setSp_apart | apply State.answer_apart)
    | (intro _ _ _; try dsimp only)
    | intro _
    | split

theorem execSpdmHeartbeat_parts (i3c : Bool) (s : State) : Parts s (execSpdmHeartbeat i3c s) := by
  refine ⟨_, rfl, ?_⟩
  have hk := Apart.refl s
  repeat' first
    | with_reducible (first | assumption | apply Apart.ite | apply State.spSess_apart | apply State.spErr_apart | apply State.answer_apart)
    | (intro _ _ _; try dsimp only)
    | intro _
    | split

theorem execSpdmKeyUpdate_parts (i3c : Bool) (op : Nat) (s : State) : Parts s (execSpdmKeyUpdate i3c op s) := by
  refine ⟨_, rfl, ?_⟩
  have hk := Apart.refl s
  repeat' first
    | with_reducible (first | assumption | apply Apart.ite | apply State.spSess_apart | apply State.spErr_apart | apply State.setSp_apart | apply State.answer_apart)
    | (intro _ _ _; try dsimp only)
    | intro _
    | split

theorem execSpdmEndSession_parts (i3c : Bool) (s : State) : Parts s (execSpdmEndSession i3c s) := by
  refine ⟨_, rfl, ?_⟩
  have hk := Apart.refl s
  repeat' first
    | with_reducible (first | assumption | apply Apart.ite | apply State.spSess_apart | apply State.spErr_apart | apply State.setSp_apart | apply State.answer_apart)
    | (intro _ _ _; try dsimp only)
    | intro _
    | split

theorem execDoeAbort_parts  (s : State) : Parts s (execDoeAbort s) := by
  refine ⟨_, rfl, ?_⟩
  have hk := Apart.refl s
  repeat' first
    | with_reducible (first | assumption | apply Apart.ite | apply State.answer_apart)
    | (intro _ _ _; try dsimp only)
    | intro _
    | split

theorem execDoeDiscovery_parts (index : Nat) (s : State) : Parts s (execDoeDiscovery index s) := by
  refine ⟨_, rfl, ?_⟩
  have hk := Apart.refl s
  repeat' first
    | with_reducible (first | assumption | apply Apart.ite | apply State.answer_apart)
    | (intro _ _ _; try dsimp only)
    | intro _
    | split

end Sys2Proof.Machine
end

