-- ==== Sys2Proof/Laws/Dry.lean ====
section
/-! SUPPORT. The operations that store nothing to memory: one lemma for each. -/

namespace Sys2Proof.Machine

/-- Memory is the same, and so is what of it is undefined. -/
structure Dry (s t : State) : Prop where
  mem   : t.mem = s.mem
  undef : t.undef = s.undef

theorem Dry.refl (s : State) : Dry s s := ⟨rfl, rfl⟩

theorem Dry.trans {r s t : State} (a : Dry r s) (b : Dry s t) : Dry r t := ⟨b.mem.trans a.mem, b.undef.trans a.undef⟩

/-- Every byte reads as before. -/
theorem Dry.same {s t : State} (h : Dry s t) : SameMemory s t := fun a => State.byte_of s t h.mem h.undef a

/-- A change of other fields. -/
theorem Dry.mk_upd {z s : State} (h : Dry z s) (pending' : List Instr) (regs' : KMap Word) (poison' : List Nat) (free' : Nat) (resp' :
    Resp) (lk' : Lk) (weave' : WeaveCtx) (fuses' : Fuses) (flash' : Flash) (sec' : Sec) (failEng' : Nat) (failPvu' : Nat) (failTc' :
    Nat) (failQuay' : Nat) (failCh' : Nat) (psq' : KMap Psq) (slots' : KMap Slot) (pvu' : KMap Pvu) (asu' : KMap Asu) (quay' : KMap
    Quay) (binds' : List Bind) (macs' : KMap Nat) (xch' : KMap Xch) (jobs' : KMap Job) (port' : KMap Port) (ring' : KMap RingDir) (out'
    : List HostMsg) (msix' : KMap Nat) (pba' : Nat) (added' : Nat) (kvp' : KMap Kvp) (thread' : KMap Thread) (l1' : KMap (List L1Line))
    (il1' : KMap (List Nat)) (wakes' : List (Nat × Nat)) (time' : Nat) (core' : KMap (KMap Nat)) (takes' : List (Nat × Nat × Nat))
    (homes' : KMap Home) (copies' : List (Nat × Nat × Bool)) (resv' : KMap Nat) (recs' : KMap (Nat × Nat)) (hq' : KMap Hq) (poolK' :
    Nat) (poolEra' : Nat) (pci' : Pci) (replay' : Nat) :
    Dry z ⟨pending', regs', s.mem, s.undef, poison', free', resp', lk', weave', fuses', flash', sec', failEng', failPvu', failTc',
    failQuay', failCh', psq', slots', pvu', asu', quay', binds', macs', xch', jobs', port', ring', out', msix', pba', added', kvp',
    thread', l1', il1', wakes', time', core', takes', homes', copies', resv', recs', hq', poolK', poolEra', pci', replay'⟩ :=
  h.trans ⟨rfl, rfl⟩

theorem Dry.ite {r a b : State} {c : Prop} [Decidable c] (ha : Dry r a) (hb : Dry r b) : Dry r (if c then a else b) := by
  split <;> assumption

theorem Dry.elim {z n : State} {α : Type} {f : α → State} (o : Option α) (hn : Dry z n) (hs : ∀ v, Dry z (f v)) :
    Dry z (o.elim n f) := by
  cases o with
  | none => exact hn
  | some v => exact hs v

theorem Dry.foldl {β : Type} {r : State} {f : State → β → State} (hf : ∀ u b, Dry r u → Dry r (f u b)) (l : List β) {s : State}
    (h : Dry r s) : Dry r (l.foldl f s) := by
  induction l generalizing s with
  | nil => exact h
  | cons a t ih => exact ih (hf _ _ h)

theorem Dry.foldl_fst {β γ : Type} {r : State} {f : State × γ → β → State × γ} (hf : ∀ u b, Dry r u.1 → Dry r (f u b).1)
    (l : List β) {p : State × γ} (h : Dry r p.1) : Dry r (l.foldl f p).1 := by
  induction l generalizing p with
  | nil => exact h
  | cons a t ih => exact ih (hf _ _ h)

theorem Dry.foldl_snd {β γ : Type} {r : State} {f : γ × State → β → γ × State} (hf : ∀ u b, Dry r u.2 → Dry r (f u b).2)
    (l : List β) {p : γ × State} (h : Dry r p.2) : Dry r (l.foldl f p).2 := by
  induction l generalizing p with
  | nil => exact h
  | cons a t ih => exact ih (hf _ _ h)

theorem State.forAll_dry {r s : State} (l : List Nat) {f : State → Nat → State} (hf : ∀ u i, Dry r u → Dry r (f u i))
    (h : Dry r s) : Dry r (s.forAll l f) := Dry.foldl hf l h

theorem State.setReg_dry {r s : State} (a : Nat) (v : Word) (h : Dry r s) : Dry r (s.setReg a v) := h.trans ⟨rfl, rfl⟩

theorem State.setFld_dry {r s : State} (a : Nat) (f : Fld) (v : Nat) (h : Dry r s) : Dry r (s.setFld a f v) := h.trans ⟨rfl, rfl⟩

theorem State.setFldBit_dry {r s : State} (a : Nat) (f : Fld) (i : Nat) (b : Bool) (h : Dry r s) : Dry r (s.setFldBit a f i b) :=
  h.trans ⟨rfl, rfl⟩

theorem State.addSat_dry {r s : State} (a : Nat) (f : Fld) (n : Nat) (h : Dry r s) : Dry r (s.addSat a f n) := h.trans ⟨rfl, rfl⟩

theorem State.count_dry {r s : State} (a n : Nat) (h : Dry r s) : Dry r (s.count a n) := h.trans ⟨rfl, rfl⟩

theorem State.draw_dry {r s : State} (h : Dry r s) : Dry r s.draw.2 := h.trans ⟨rfl, rfl⟩

theorem State.send_dry {r s : State} (m : HostMsg) (h : Dry r s) : Dry r (s.send m) := h.trans ⟨rfl, rfl⟩

end Sys2Proof.Machine
end

