-- ==== Sys2Proof/Laws/DryOps.lean ====
section
/-! SUPPORT. Operations of Machine/Ops.lean that store nothing to memory (Laws/Dry.lean). -/

namespace Sys2Proof.Machine

set_option linter.unusedTactic false
set_option linter.unreachableTactic false
set_option linter.unusedSimpArgs false

theorem State.resetRegs_dry {z s : State} (l : List Nat) (hk : Dry z s) : Dry z (s.resetRegs l) := hk.trans ⟨rfl, rfl⟩

theorem State.resetRange_dry {z s : State} (lo hi : Nat) (hk : Dry z s) : Dry z (s.resetRange lo hi) := hk.trans ⟨rfl, rfl⟩

theorem State.poisonRange_dry {z s : State} (a n : Nat) (hk : Dry z s) :
    Dry z (s.poisonRange a n) := by
  unfold State.poisonRange
  try dsimp only
  repeat' first
    | with_reducible (first | exact hk | assumption | apply Dry.ite | apply Dry.foldl | apply Dry.foldl_fst | apply Dry.foldl_snd)
    | fail_if_no_progress with_reducible apply Dry.mk_upd
    | (intro _ _ _; try dsimp only)
    | intro _
    | split

theorem State.cleanse_dry {z s : State} (a n : Nat) (hk : Dry z s) :
    Dry z (s.cleanse a n) := by
  unfold State.cleanse
  try dsimp only
  repeat' first
    | with_reducible (first | exact hk | assumption | apply Dry.ite)
    | fail_if_no_progress with_reducible apply Dry.mk_upd
    | (intro _ _ _; try dsimp only)
    | intro _
    | split

theorem State.eccPoison_dry {z s : State} (l : Nat) (hk : Dry z s) :
    Dry z (s.eccPoison l) := by
  unfold State.eccPoison
  try dsimp only
  repeat' first
    | with_reducible (first | exact hk | assumption | apply Dry.ite | apply State.poisonRange_dry | apply State.addSat_dry | apply State.setFld_dry)
    | fail_if_no_progress with_reducible apply Dry.mk_upd
    | (intro _ _ _; try dsimp only)
    | intro _
    | split

theorem State.eccRead_dry {z s : State} (a ecc : Nat) (hk : Dry z s) :
    Dry z (s.eccRead a ecc) := by
  unfold State.eccRead
  try dsimp only
  repeat' first
    | with_reducible (first | exact hk | assumption | apply Dry.ite | apply State.poisonRange_dry | apply State.addSat_dry | apply State.eccPoison_dry)
    | fail_if_no_progress with_reducible apply Dry.mk_upd
    | (intro _ _ _; try dsimp only)
    | intro _
    | split

theorem State.spadEcc_dry {z s : State} (a ecc : Nat) (hk : Dry z s) :
    Dry z (s.spadEcc a ecc) := by
  unfold State.spadEcc
  try dsimp only
  repeat' first
    | with_reducible (first | exact hk | assumption | apply Dry.ite | apply State.addSat_dry | apply State.poisonRange_dry)
    | fail_if_no_progress with_reducible apply Dry.mk_upd
    | (intro _ _ _; try dsimp only)
    | intro _
    | split

theorem State.arrayErrs_dry {z s : State} (spans : List (Nat × Nat)) (x : Errs) (hk : Dry z s) :
    Dry z (s.arrayErrs spans x) := by
  unfold State.arrayErrs
  try dsimp only
  repeat' first
    | with_reducible (first | exact hk | assumption | apply Dry.ite | apply State.spadEcc_dry | apply State.eccRead_dry | apply Dry.foldl | apply Dry.foldl_fst | apply Dry.foldl_snd)
    | fail_if_no_progress with_reducible apply Dry.mk_upd
    | (intro _ _ _; try dsimp only)
    | intro _
    | split

theorem State.touch_dry {z s : State} (a n : Nat) (own : Option Nat) (hk : Dry z s) :
    Dry z (s.touch a n own) := by
  unfold State.touch
  try dsimp only
  repeat' first
    | with_reducible (first | exact hk | assumption | apply Dry.ite)
    | fail_if_no_progress with_reducible apply Dry.mk_upd
    | (intro _ _ _; try dsimp only)
    | intro _
    | split

theorem State.noteCxl_dry {z s : State} (a n : Nat) (read : Bool) (hk : Dry z s) :
    Dry z (s.noteCxl a n read) := by
  unfold State.noteCxl
  try dsimp only
  repeat' first
    | with_reducible (first | exact hk | assumption | apply Dry.ite | apply State.addSat_dry)
    | fail_if_no_progress with_reducible apply Dry.mk_upd
    | (intro _ _ _; try dsimp only)
    | intro _
    | split

theorem State.wrPoison_dry {z s : State} (a n : Nat) (hk : Dry z s) :
    Dry z (s.wrPoison a n) := by
  unfold State.wrPoison
  try dsimp only
  repeat' first
    | with_reducible (first | exact hk | assumption | apply Dry.ite | apply State.noteCxl_dry | apply State.poisonRange_dry | apply State.touch_dry)
    | fail_if_no_progress with_reducible apply Dry.mk_upd
    | (intro _ _ _; try dsimp only)
    | intro _
    | split

theorem State.readErrs_dry {z s : State} (spans : List (Nat × Nat)) (x : Errs) (hk : Dry z s) :
    Dry z (s.readErrs spans x) := by
  unfold State.readErrs
  try dsimp only
  repeat' first
    | with_reducible (first | exact hk | assumption | apply Dry.ite | apply State.noteCxl_dry | apply State.arrayErrs_dry | apply Dry.foldl | apply Dry.foldl_fst | apply Dry.foldl_snd)
    | fail_if_no_progress with_reducible apply Dry.mk_upd
    | (intro _ _ _; try dsimp only)
    | intro _
    | split

theorem State.answer_dry {z s : State} (r : Resp) (hk : Dry z s) :
    Dry z (s.answer r) := by
  unfold State.answer
  try dsimp only
  repeat' first
    | with_reducible (first | exact hk | assumption | apply Dry.ite)
    | fail_if_no_progress with_reducible apply Dry.mk_upd
    | (intro _ _ _; try dsimp only)
    | intro _
    | split

theorem State.setQ_dry {z s : State} (k : Nat) (c : Psq) (hk : Dry z s) :
    Dry z (s.setQ k c) := by
  unfold State.setQ
  try dsimp only
  repeat' first
    | with_reducible (first | exact hk | assumption | apply Dry.ite)
    | fail_if_no_progress with_reducible apply Dry.mk_upd
    | (intro _ _ _; try dsimp only)
    | intro _
    | split

theorem State.setPv_dry {z s : State} (v : Nat) (c : Pvu) (hk : Dry z s) :
    Dry z (s.setPv v c) := by
  unfold State.setPv
  try dsimp only
  repeat' first
    | with_reducible (first | exact hk | assumption | apply Dry.ite)
    | fail_if_no_progress with_reducible apply Dry.mk_upd
    | (intro _ _ _; try dsimp only)
    | intro _
    | split

theorem State.setAs_dry {z s : State} (d k : Nat) (c : Asu) (hk : Dry z s) :
    Dry z (s.setAs d k c) := by
  unfold State.setAs
  try dsimp only
  repeat' first
    | with_reducible (first | exact hk | assumption | apply Dry.ite)
    | fail_if_no_progress with_reducible apply Dry.mk_upd
    | (intro _ _ _; try dsimp only)
    | intro _
    | split

theorem State.setQu_dry {z s : State} (q : Nat) (c : Quay) (hk : Dry z s) :
    Dry z (s.setQu q c) := by
  unfold State.setQu
  try dsimp only
  repeat' first
    | with_reducible (first | exact hk | assumption | apply Dry.ite)
    | fail_if_no_progress with_reducible apply Dry.mk_upd
    | (intro _ _ _; try dsimp only)
    | intro _
    | split

theorem State.setSlot_dry {z s : State} (k i : Nat) (v : Slot) (hk : Dry z s) :
    Dry z (s.setSlot k i v) := by
  unfold State.setSlot
  try dsimp only
  repeat' first
    | with_reducible (first | exact hk | assumption | apply Dry.ite)
    | fail_if_no_progress with_reducible apply Dry.mk_upd
    | (intro _ _ _; try dsimp only)
    | intro _
    | split

theorem State.setCore_dry {z s : State} (c i v : Nat) (hk : Dry z s) :
    Dry z (s.setCore c i v) := by
  unfold State.setCore
  try dsimp only
  repeat' first
    | with_reducible (first | exact hk | assumption | apply Dry.ite)
    | fail_if_no_progress with_reducible apply Dry.mk_upd
    | (intro _ _ _; try dsimp only)
    | intro _
    | split

theorem State.pend_dry {z s : State} (hart eiid : Nat) (hk : Dry z s) :
    Dry z (s.pend hart eiid) := by
  unfold State.pend
  try dsimp only
  repeat' first
    | with_reducible (first | exact hk | assumption | apply Dry.ite | apply State.setCore_dry)
    | fail_if_no_progress with_reducible apply Dry.mk_upd
    | (intro _ _ _; try dsimp only)
    | intro _
    | split

theorem State.signal_dry {z s : State} (imsic : Bool) (vector hart eiid : Nat) (hk : Dry z s) :
    Dry z (s.signal imsic vector hart eiid) := by
  unfold State.signal
  try dsimp only
  repeat' first
    | with_reducible (first | exact hk | assumption | apply Dry.ite | apply State.send_dry | apply State.pend_dry)
    | fail_if_no_progress with_reducible apply Dry.mk_upd
    | (intro _ _ _; try dsimp only)
    | intro _
    | split

theorem State.sendPending_dry {z s : State} (hk : Dry z s) :
    Dry z s.sendPending := by
  unfold State.sendPending
  try dsimp only
  repeat' first
    | with_reducible (first | exact hk | assumption | apply Dry.ite | apply State.forAll_dry | apply State.send_dry)
    | fail_if_no_progress with_reducible apply Dry.mk_upd
    | (intro _ _ _; try dsimp only)
    | intro _
    | split

theorem State.raiseEvent_dry {z s : State} (a cfg : Nat) (f : Fld) (hk : Dry z s) :
    Dry z (s.raiseEvent a cfg f) := by
  unfold State.raiseEvent
  try dsimp only
  repeat' first
    | with_reducible (first | exact hk | assumption | apply Dry.ite | apply State.setFld_dry | apply State.signal_dry)
    | fail_if_no_progress with_reducible apply Dry.mk_upd
    | (intro _ _ _; try dsimp only)
    | intro _
    | split

theorem State.modEvent_dry {z s : State} (f : Fld) (hk : Dry z s) :
    Dry z (s.modEvent f) := by
  unfold State.modEvent
  try dsimp only
  repeat' first
    | with_reducible (first | exact hk | assumption | apply Dry.ite | apply State.raiseEvent_dry)
    | fail_if_no_progress with_reducible apply Dry.mk_upd
    | (intro _ _ _; try dsimp only)
    | intro _
    | split

theorem State.stakeEvent_dry {z s : State} (k : Nat) (f : Fld) (hk : Dry z s) :
    Dry z (s.stakeEvent k f) := by
  unfold State.stakeEvent
  try dsimp only
  repeat' first
    | with_reducible (first | exact hk | assumption | apply Dry.ite | apply State.raiseEvent_dry)
    | fail_if_no_progress with_reducible apply Dry.mk_upd
    | (intro _ _ _; try dsimp only)
    | intro _
    | split

end Sys2Proof.Machine
end

