-- ==== Sys2Proof/Laws/DryFlags.lean ====
section
/-! SUPPORT. Operations of Machine/Flags.lean that store nothing to memory (Laws/Dry.lean). -/

namespace Sys2Proof.Machine

set_option linter.unusedTactic false
set_option linter.unreachableTactic false
set_option linter.unusedSimpArgs false

theorem State.tap_dry {z s : State} (k i maxabs nonfin sat : Nat) (hk : Dry z s) :
    Dry z (s.tap k i maxabs nonfin sat) := by
  unfold State.tap
  try dsimp only
  repeat' first
    | with_reducible (first | exact hk | assumption | apply Dry.ite | apply State.setSlot_dry)
    | fail_if_no_progress with_reducible apply Dry.mk_upd
    | (intro _ _ _; try dsimp only)
    | intro _
    | split

end Sys2Proof.Machine
end

