-- ==== Sys2Proof/Laws/DryAccess.lean ====
section
/-! SUPPORT. Operations of Machine/Access.lean that store nothing to memory (Laws/Dry.lean). -/

namespace Sys2Proof.Machine

set_option linter.unusedTactic false
set_option linter.unreachableTactic false
set_option linter.unusedSimpArgs false

theorem State.modLk_dry {z s : State} (f : Lk → Lk) (hk : Dry z s) : Dry z (s.modLk f) := hk.trans ⟨rfl, rfl⟩

theorem State.noResume_dry {z s : State} (k : Nat) (hk : Dry z s) :
    Dry z (s.noResume k) := by
  unfold State.noResume
  try dsimp only
  repeat' first
    | with_reducible (first | exact hk | assumption | apply Dry.ite | apply State.modLk_dry)
    | fail_if_no_progress with_reducible apply Dry.mk_upd
    | (intro _ _ _; try dsimp only)
    | intro _
    | split

theorem State.syncFault_dry {z s : State} (hk : Dry z s) :
    Dry z s.syncFault := by
  unfold State.syncFault
  try dsimp only
  repeat' first
    | with_reducible (first | exact hk | assumption | apply Dry.ite | apply State.modLk_dry)
    | fail_if_no_progress with_reducible apply Dry.mk_upd
    | (intro _ _ _; try dsimp only)
    | intro _
    | split

theorem State.hostRejected_dry {z s : State} (hk : Dry z s) :
    Dry z s.hostRejected := by
  unfold State.hostRejected
  try dsimp only
  repeat' first
    | with_reducible (first | exact hk | assumption | apply Dry.ite | apply State.addSat_dry)
    | fail_if_no_progress with_reducible apply Dry.mk_upd
    | (intro _ _ _; try dsimp only)
    | intro _
    | split

theorem State.dropWrite_dry {z s : State} (m : Master) (hk : Dry z s) :
    Dry z (s.dropWrite m) := by
  unfold State.dropWrite
  try dsimp only
  repeat' first
    | with_reducible (first | exact hk | assumption | apply Dry.ite | apply State.hostRejected_dry | apply State.answer_dry)
    | fail_if_no_progress with_reducible apply Dry.mk_upd
    | (intro _ _ _; try dsimp only)
    | intro _
    | split

theorem State.wstat_dry {z s : State} (m : Master) (a out : Nat) (hk : Dry z s) :
    Dry z (s.wstat m a out) := by
  unfold State.wstat
  try dsimp only
  repeat' first
    | with_reducible (first | exact hk | assumption | apply Dry.ite | apply State.setReg_dry | apply State.setFld_dry | apply State.hostRejected_dry)
    | fail_if_no_progress with_reducible apply Dry.mk_upd
    | (intro _ _ _; try dsimp only)
    | intro _
    | split

theorem State.supersede_dry {z s : State} (a : Nat) (m : Master) (rivals : List Master) (hk : Dry z s) :
    Dry z (s.supersede a m rivals) := by
  unfold State.supersede
  try dsimp only
  repeat' first
    | with_reducible (first | exact hk | assumption | apply Dry.ite | apply State.wstat_dry | apply Dry.foldl | apply Dry.foldl_fst | apply Dry.foldl_snd)
    | fail_if_no_progress with_reducible apply Dry.mk_upd
    | (intro _ _ _; try dsimp only)
    | intro _
    | split

theorem State.command_dry {z s : State} (m : Master) (rivals : List Master) (a : Nat) (body : State → State) (hbody : ∀ u, Dry z u → Dry z (body u)) (hk : Dry z s) :
    Dry z (s.command m rivals a body) := by
  unfold State.command
  try dsimp only
  repeat' first
    | with_reducible (first | exact hk | assumption | apply Dry.ite | apply State.dropWrite_dry | apply State.wstat_dry | apply State.answer_dry | apply State.supersede_dry | apply hbody)
    | fail_if_no_progress with_reducible apply Dry.mk_upd
    | (intro _ _ _; try dsimp only)
    | intro _
    | split

end Sys2Proof.Machine
end

