-- ==== Sys2Proof/Laws/DryPsq.lean ====
section
/-! SUPPORT. Operations of Machine/Psq.lean that store nothing to memory (Laws/Dry.lean). -/

namespace Sys2Proof.Machine

set_option linter.unusedTactic false
set_option linter.unreachableTactic false
set_option linter.unusedSimpArgs false

theorem State.setTok_dry {z s : State} (k c v : Nat) (hk : Dry z s) :
    Dry z (s.setTok k c v) := by
  unfold State.setTok
  try dsimp only
  repeat' first
    | with_reducible (first | exact hk | assumption | apply Dry.ite | apply State.setFld_dry)
    | fail_if_no_progress with_reducible apply Dry.mk_upd
    | (intro _ _ _; try dsimp only)
    | intro _
    | split

theorem State.takeTokens_dry {z s : State} (k mask : Nat) (hk : Dry z s) :
    Dry z (s.takeTokens k mask) := by
  unfold State.takeTokens
  try dsimp only
  repeat' first
    | with_reducible (first | exact hk | assumption | apply Dry.ite | apply State.forAll_dry | apply State.setTok_dry)
    | fail_if_no_progress with_reducible apply Dry.mk_upd
    | (intro _ _ _; try dsimp only)
    | intro _
    | split

theorem State.giveTokens_dry {z s : State} (k mask : Nat) (hk : Dry z s) :
    Dry z (s.giveTokens k mask) := by
  unfold State.giveTokens
  try dsimp only
  repeat' first
    | with_reducible (first | exact hk | assumption | apply Dry.ite | apply State.forAll_dry | apply State.setTok_dry)
    | fail_if_no_progress with_reducible apply Dry.mk_upd
    | (intro _ _ _; try dsimp only)
    | intro _
    | split

theorem State.setPst_dry {z s : State} (k v : Nat) (hk : Dry z s) :
    Dry z (s.setPst k v) := by
  unfold State.setPst
  try dsimp only
  repeat' first
    | with_reducible (first | exact hk | assumption | apply Dry.ite | apply State.setFld_dry)
    | fail_if_no_progress with_reducible apply Dry.mk_upd
    | (intro _ _ _; try dsimp only)
    | intro _
    | split

theorem State.setOutst_dry {z s : State} (k : Nat) (l : List Outst) (hk : Dry z s) :
    Dry z (s.setOutst k l) := by
  unfold State.setOutst
  try dsimp only
  repeat' first
    | with_reducible (first | exact hk | assumption | apply Dry.ite | apply State.setQ_dry | apply State.forAll_dry | apply State.setFld_dry)
    | fail_if_no_progress with_reducible apply Dry.mk_upd
    | (intro _ _ _; try dsimp only)
    | intro _
    | split

theorem State.updOutst_dry {z s : State} (k n : Nat) (f : Outst → Outst) (hk : Dry z s) :
    Dry z (s.updOutst k n f) := by
  unfold State.updOutst
  try dsimp only
  repeat' first
    | with_reducible (first | exact hk | assumption | apply Dry.ite | apply State.setQ_dry)
    | fail_if_no_progress with_reducible apply Dry.mk_upd
    | (intro _ _ _; try dsimp only)
    | intro _
    | split

theorem State.syncMxe_dry {z s : State} (k e : Nat) (hk : Dry z s) :
    Dry z (s.syncMxe k e) := by
  unfold State.syncMxe
  try dsimp only
  repeat' first
    | with_reducible (first | exact hk | assumption | apply Dry.ite | apply State.setFld_dry)
    | fail_if_no_progress with_reducible apply Dry.mk_upd
    | (intro _ _ _; try dsimp only)
    | intro _
    | split

theorem State.syncDvu_dry {z s : State} (k e : Nat) (hk : Dry z s) :
    Dry z (s.syncDvu k e) := by
  unfold State.syncDvu
  try dsimp only
  repeat' first
    | with_reducible (first | exact hk | assumption | apply Dry.ite | apply State.setFld_dry)
    | fail_if_no_progress with_reducible apply Dry.mk_upd
    | (intro _ _ _; try dsimp only)
    | intro _
    | split

theorem State.syncUnits_dry {z s : State} (k : Nat) (hk : Dry z s) :
    Dry z (s.syncUnits k) := by
  unfold State.syncUnits
  try dsimp only
  repeat' first
    | with_reducible (first | exact hk | assumption | apply Dry.ite | apply State.forAll_dry | apply State.syncMxe_dry | apply State.syncDvu_dry)
    | fail_if_no_progress with_reducible apply Dry.mk_upd
    | (intro _ _ _; try dsimp only)
    | intro _
    | split

theorem State.rollback_dry {z s : State} (k : Nat) (gone : List Outst) (x : Nat) (hk : Dry z s) :
    Dry z (s.rollback k gone x) := by
  unfold State.rollback
  try dsimp only
  repeat' first
    | with_reducible (first | exact hk | assumption | apply Dry.ite | apply State.setReg_dry | apply State.setQ_dry)
    | fail_if_no_progress with_reducible apply Dry.mk_upd
    | (intro _ _ _; try dsimp only)
    | intro _
    | split

theorem State.unwind_dry {z s : State} (k : Nat) (o : Outst) (hk : Dry z s) :
    Dry z (s.unwind k o) := by
  unfold State.unwind
  try dsimp only
  repeat' first
    | with_reducible (first | exact hk | assumption | apply Dry.ite | apply State.setAs_dry | apply State.setReg_dry)
    | fail_if_no_progress with_reducible apply Dry.mk_upd
    | (intro _ _ _; try dsimp only)
    | intro _
    | split

theorem State.withdrawSome_dry {z s : State} (k : Nat) (p : Outst → Bool) (hk : Dry z s) :
    Dry z (s.withdrawSome k p) := by
  unfold State.withdrawSome
  try dsimp only
  repeat' first
    | with_reducible (first | exact hk | assumption | apply Dry.ite | apply State.rollback_dry | apply State.giveTokens_dry | apply State.unwind_dry | apply State.setOutst_dry | apply State.syncUnits_dry | apply Dry.foldl | apply Dry.foldl_fst | apply Dry.foldl_snd)
    | fail_if_no_progress with_reducible apply Dry.mk_upd
    | (intro _ _ _; try dsimp only)
    | intro _
    | split

theorem State.withdraw_dry {z s : State} (k : Nat) (hk : Dry z s) :
    Dry z (s.withdraw k) := by
  unfold State.withdraw
  try dsimp only
  repeat' first
    | with_reducible (first | exact hk | assumption | apply Dry.ite | apply State.withdrawSome_dry | apply State.setQ_dry)
    | fail_if_no_progress with_reducible apply Dry.mk_upd
    | (intro _ _ _; try dsimp only)
    | intro _
    | split

theorem State.stopNow_dry {z s : State} (k : Nat) (hk : Dry z s) :
    Dry z (s.stopNow k) := by
  unfold State.stopNow
  try dsimp only
  repeat' first
    | with_reducible (first | exact hk | assumption | apply Dry.ite | apply State.withdraw_dry | apply State.setPst_dry)
    | fail_if_no_progress with_reducible apply Dry.mk_upd
    | (intro _ _ _; try dsimp only)
    | intro _
    | split

theorem State.beginStop_dry {z s : State} (k : Nat) (cause : Fld) (hk : Dry z s) :
    Dry z (s.beginStop k cause) := by
  unfold State.beginStop
  try dsimp only
  repeat' first
    | with_reducible (first | exact hk | assumption | apply Dry.ite | apply State.setFld_dry | apply State.stopNow_dry)
    | fail_if_no_progress with_reducible apply Dry.mk_upd
    | (intro _ _ _; try dsimp only)
    | intro _
    | split

theorem State.raiseFault_dry {z s : State} (k x index code unit : Nat) (after : Bool) (hk : Dry z s) :
    Dry z (s.raiseFault k x index code unit after) := by
  unfold State.raiseFault
  try dsimp only
  repeat' first
    | with_reducible (first | exact hk | assumption | apply Dry.ite | apply State.setFld_dry | apply State.setReg_dry | apply State.stakeEvent_dry | apply State.beginStop_dry)
    | fail_if_no_progress with_reducible apply Dry.mk_upd
    | (intro _ _ _; try dsimp only)
    | intro _
    | split

theorem State.faultOut_dry {z s : State} (k : Nat) (o : Outst) (code unit : Nat) (hk : Dry z s) :
    Dry z (s.faultOut k o code unit) := by
  unfold State.faultOut
  try dsimp only
  repeat' first
    | with_reducible (first | exact hk | assumption | apply Dry.ite | apply State.raiseFault_dry | apply State.withdrawSome_dry)
    | fail_if_no_progress with_reducible apply Dry.mk_upd
    | (intro _ _ _; try dsimp only)
    | intro _
    | split

theorem State.autoResume_dry {z s : State} (k : Nat) (hk : Dry z s) :
    Dry z (s.autoResume k) := by
  unfold State.autoResume
  try dsimp only
  repeat' first
    | with_reducible (first | exact hk | assumption | apply Dry.ite | apply State.setPst_dry | apply State.setFld_dry)
    | fail_if_no_progress with_reducible apply Dry.mk_upd
    | (intro _ _ _; try dsimp only)
    | intro _
    | split

theorem State.asuErr_dry {z s : State} (d k x index code : Nat) (hk : Dry z s) :
    Dry z (s.asuErr d k x index code) := by
  unfold State.asuErr
  try dsimp only
  repeat' first
    | with_reducible (first | exact hk | assumption | apply Dry.ite | apply State.setFld_dry | apply State.setReg_dry)
    | fail_if_no_progress with_reducible apply Dry.mk_upd
    | (intro _ _ _; try dsimp only)
    | intro _
    | split

theorem State.kvpErr_dry {z s : State} (k x index code : Nat) (hk : Dry z s) :
    Dry z (s.kvpErr k x index code) := by
  unfold State.kvpErr
  try dsimp only
  repeat' first
    | with_reducible (first | exact hk | assumption | apply Dry.ite | apply State.setFld_dry | apply State.setReg_dry)
    | fail_if_no_progress with_reducible apply Dry.mk_upd
    | (intro _ _ _; try dsimp only)
    | intro _
    | split

theorem State.rdxFault_dry {z s : State} (k code : Nat) (job : Option Nat) (hk : Dry z s) :
    Dry z (s.rdxFault k code job) := by
  unfold State.rdxFault
  try dsimp only
  repeat' first
    | with_reducible (first | exact hk | assumption | apply Dry.ite | apply State.setFld_dry)
    | fail_if_no_progress with_reducible apply Dry.mk_upd
    | (intro _ _ _; try dsimp only)
    | intro _
    | split

theorem State.raiseHead_dry {z s : State} (k x w code : Nat) (hk : Dry z s) :
    Dry z (s.raiseHead k x w code) := by
  unfold State.raiseHead
  try dsimp only
  repeat' first
    | with_reducible (first | exact hk | assumption | apply Dry.ite | apply State.asuErr_dry | apply State.rdxFault_dry | apply State.kvpErr_dry | apply State.raiseFault_dry)
    | fail_if_no_progress with_reducible apply Dry.mk_upd
    | (intro _ _ _; try dsimp only)
    | intro _
    | split

theorem State.stepIndex_dry {z s : State} (k x pc : Nat) (hk : Dry z s) :
    Dry z (s.stepIndex k x pc) := by
  unfold State.stepIndex
  try dsimp only
  repeat' first
    | with_reducible (first | exact hk | assumption | apply Dry.ite | apply State.setFld_dry | apply State.setReg_dry | apply State.setQ_dry)
    | fail_if_no_progress with_reducible apply Dry.mk_upd
    | (intro _ _ _; try dsimp only)
    | intro _
    | split

theorem State.fetchLine_dry {z s : State} (k x : Nat) (hk : Dry z s) :
    Dry z (s.fetchLine k x) := by
  unfold State.fetchLine
  try dsimp only
  repeat' first
    | with_reducible (first | exact hk | assumption | apply Dry.ite | apply State.setQ_dry)
    | fail_if_no_progress with_reducible apply Dry.mk_upd
    | (intro _ _ _; try dsimp only)
    | intro _
    | split

theorem State.skipDone_dry {z s : State} (k x : Nat) (n : Nat) (hk : Dry z s) :
    Dry z (s.skipDone k x n) := by
  induction n generalizing s  with
  | zero => exact hk
  | succ n ih =>
    unfold State.skipDone
    try dsimp only
    repeat' first
      | with_reducible (first | exact hk | assumption | apply Dry.ite | apply State.fetchLine_dry | apply State.stepIndex_dry | apply ih)
      | fail_if_no_progress with_reducible apply Dry.mk_upd
      | (intro _ _ _; try dsimp only)
      | intro _
      | split

theorem State.advance_dry {z s : State} (k x pc : Nat) (hk : Dry z s) :
    Dry z (s.advance k x pc) := by
  unfold State.advance
  try dsimp only
  repeat' first
    | with_reducible (first | exact hk | assumption | apply Dry.ite | apply State.stepIndex_dry | apply State.skipDone_dry)
    | fail_if_no_progress with_reducible apply Dry.mk_upd
    | (intro _ _ _; try dsimp only)
    | intro _
    | split

theorem State.withHead_dry {z s : State} (k x : Nat) (opcs : List Nat) (body : Nat → State → State) (hbody : ∀ x0 u, Dry z u → Dry z (body x0 u)) (hk : Dry z s) :
    Dry z (s.withHead k x opcs body) := by
  unfold State.withHead
  try dsimp only
  repeat' first
    | with_reducible (first | exact hk | assumption | apply Dry.ite | apply State.raiseHead_dry | apply hbody)
    | fail_if_no_progress with_reducible apply Dry.mk_upd
    | (intro _ _ _; try dsimp only)
    | intro _
    | split

theorem State.postSet_dry {z s : State} (k x index v : Nat) (hk : Dry z s) :
    Dry z (s.postSet k x index v) := by
  unfold State.postSet
  try dsimp only
  repeat' first
    | with_reducible (first | exact hk | assumption | apply Dry.ite | apply State.giveTokens_dry | apply State.raiseFault_dry)
    | fail_if_no_progress with_reducible apply Dry.mk_upd
    | (intro _ _ _; try dsimp only)
    | intro _
    | split

theorem State.dispatchDone_dry {z s : State} (k x w pc : Nat) (hk : Dry z s) :
    Dry z (s.dispatchDone k x w pc) := by
  unfold State.dispatchDone
  try dsimp only
  repeat' first
    | with_reducible (first | exact hk | assumption | apply Dry.ite | apply State.takeTokens_dry | apply State.advance_dry | apply State.postSet_dry)
    | fail_if_no_progress with_reducible apply Dry.mk_upd
    | (intro _ _ _; try dsimp only)
    | intro _
    | split

theorem State.dispatchOut_dry {z s : State} (k x w unit : Nat) (issued : Bool) (desc chain : List Byte) (frame : Nat) (hk : Dry z s) :
    Dry z (s.dispatchOut k x w unit issued desc chain frame) := by
  unfold State.dispatchOut
  try dsimp only
  repeat' first
    | with_reducible (first | exact hk | assumption | apply Dry.ite | apply State.takeTokens_dry | apply State.setQ_dry | apply State.setOutst_dry | apply State.advance_dry)
    | fail_if_no_progress with_reducible apply Dry.mk_upd
    | (intro _ _ _; try dsimp only)
    | intro _
    | split

theorem State.complete_dry {z s : State} (k : Nat) (o : Outst) (hk : Dry z s) :
    Dry z (s.complete k o) := by
  unfold State.complete
  try dsimp only
  repeat' first
    | with_reducible (first | exact hk | assumption | apply Dry.ite | apply State.setOutst_dry | apply State.postSet_dry)
    | fail_if_no_progress with_reducible apply Dry.mk_upd
    | (intro _ _ _; try dsimp only)
    | intro _
    | split

theorem State.checkHead_dry {z s : State} (k x : Nat) (hk : Dry z s) :
    Dry z (s.checkHead k x) := by
  unfold State.checkHead
  try dsimp only
  repeat' first
    | with_reducible (first | exact hk | assumption | apply Dry.ite | apply State.raiseHead_dry)
    | fail_if_no_progress with_reducible apply Dry.mk_upd
    | (intro _ _ _; try dsimp only)
    | intro _
    | split

theorem State.programFetch_dry {z s : State} (k x : Nat) (hk : Dry z s) :
    Dry z (s.programFetch k x) := by
  unfold State.programFetch
  try dsimp only
  repeat' first
    | with_reducible (first | exact hk | assumption | apply Dry.ite | apply State.skipDone_dry | apply State.setFld_dry | apply State.raiseFault_dry | apply State.checkHead_dry | apply State.fetchLine_dry)
    | fail_if_no_progress with_reducible apply Dry.mk_upd
    | (intro _ _ _; try dsimp only)
    | intro _
    | split

theorem State.syncAsu_dry {z s : State} (d k : Nat) (hk : Dry z s) :
    Dry z (s.syncAsu d k) := by
  unfold State.syncAsu
  try dsimp only
  repeat' first
    | with_reducible (first | exact hk | assumption | apply Dry.ite | apply State.setFld_dry | apply State.forAll_dry | apply State.setReg_dry | apply Dry.foldl | apply Dry.foldl_fst | apply Dry.foldl_snd)
    | fail_if_no_progress with_reducible apply Dry.mk_upd
    | (intro _ _ _; try dsimp only)
    | intro _
    | split

theorem State.setMb_dry {z s : State} (k t : Nat) (b : Bool) (hk : Dry z s) :
    Dry z (s.setMb k t b) := by
  unfold State.setMb
  try dsimp only
  repeat' first
    | with_reducible (first | exact hk | assumption | apply Dry.ite | apply State.setFld_dry)
    | fail_if_no_progress with_reducible apply Dry.mk_upd
    | (intro _ _ _; try dsimp only)
    | intro _
    | split

theorem State.mbegin_dry {z s : State} (k : Nat) (hk : Dry z s) :
    Dry z (s.mbegin k) := by
  unfold State.mbegin
  try dsimp only
  repeat' first
    | with_reducible (first | exact hk | assumption | apply Dry.ite | apply State.withHead_dry | apply State.raiseFault_dry | apply State.forAll_dry | apply State.setAs_dry | apply State.syncAsu_dry | apply State.setMb_dry | apply State.dispatchDone_dry)
    | fail_if_no_progress with_reducible apply Dry.mk_upd
    | (intro _ _ _; try dsimp only)
    | intro _
    | split

theorem State.mend_dry {z s : State} (k : Nat) (hk : Dry z s) :
    Dry z (s.mend k) := by
  unfold State.mend
  try dsimp only
  repeat' first
    | with_reducible (first | exact hk | assumption | apply Dry.ite | apply State.withHead_dry | apply State.raiseFault_dry | apply State.forAll_dry | apply State.asuErr_dry | apply State.setAs_dry | apply State.syncAsu_dry | apply State.setMb_dry | apply State.dispatchDone_dry)
    | fail_if_no_progress with_reducible apply Dry.mk_upd
    | (intro _ _ _; try dsimp only)
    | intro _
    | split

theorem State.sealBegin_dry {z s : State} (k : Nat) (hk : Dry z s) :
    Dry z (s.sealBegin k) := by
  unfold State.sealBegin
  try dsimp only
  repeat' first
    | with_reducible (first | exact hk | assumption | apply Dry.ite | apply State.withHead_dry | apply State.raiseFault_dry | apply State.takeTokens_dry | apply State.setFld_dry | apply State.setQ_dry)
    | fail_if_no_progress with_reducible apply Dry.mk_upd
    | (intro _ _ _; try dsimp only)
    | intro _
    | split

theorem State.latchStats_dry {z s : State} (k : Nat) (hk : Dry z s) :
    Dry z (s.latchStats k) := by
  unfold State.latchStats
  try dsimp only
  repeat' first
    | with_reducible (first | exact hk | assumption | apply Dry.ite | apply State.forAll_dry | apply State.setFld_dry | apply State.setReg_dry | apply Dry.foldl | apply Dry.foldl_fst | apply Dry.foldl_snd)
    | fail_if_no_progress with_reducible apply Dry.mk_upd
    | (intro _ _ _; try dsimp only)
    | intro _
    | split

theorem State.restartStats_dry {z s : State} (k : Nat) (hk : Dry z s) :
    Dry z (s.restartStats k) := by
  unfold State.restartStats
  try dsimp only
  repeat' first
    | with_reducible (first | exact hk | assumption | apply Dry.ite | apply State.forAll_dry | apply State.setSlot_dry | apply State.resetRegs_dry | apply State.count_dry | apply State.setReg_dry | apply Dry.foldl | apply Dry.foldl_fst | apply Dry.foldl_snd)
    | fail_if_no_progress with_reducible apply Dry.mk_upd
    | (intro _ _ _; try dsimp only)
    | intro _
    | split

theorem State.sealLatch_dry {z s : State} (k : Nat) (handoff : State → Nat → Option (List (Nat × Slot)) → State) (hhandoff : ∀ u x1 x2, Dry z u → Dry z (handoff u x1 x2)) (hk : Dry z s) :
    Dry z (s.sealLatch k handoff) := by
  unfold State.sealLatch
  try dsimp only
  repeat' first
    | with_reducible (first | exact hk | assumption | apply Dry.ite | apply State.setQ_dry | apply State.setFld_dry | apply State.giveTokens_dry | apply State.raiseFault_dry | apply State.latchStats_dry | apply State.restartStats_dry | apply State.advance_dry | apply State.postSet_dry | apply State.stopNow_dry | apply hhandoff)
    | fail_if_no_progress with_reducible apply Dry.mk_upd
    | (intro _ _ _; try dsimp only)
    | intro _
    | split

theorem State.refuse_dry {z s : State} (k : Nat) (hk : Dry z s) :
    Dry z (s.refuse k) := by
  unfold State.refuse
  try dsimp only
  repeat' first
    | with_reducible (first | exact hk | assumption | apply Dry.ite | apply State.setFld_dry)
    | fail_if_no_progress with_reducible apply Dry.mk_upd
    | (intro _ _ _; try dsimp only)
    | intro _
    | split

theorem State.accept_dry {z s : State} (k : Nat) (hk : Dry z s) :
    Dry z (s.accept k) := by
  unfold State.accept
  try dsimp only
  repeat' first
    | with_reducible (first | exact hk | assumption | apply Dry.ite | apply State.setFld_dry)
    | fail_if_no_progress with_reducible apply Dry.mk_upd
    | (intro _ _ _; try dsimp only)
    | intro _
    | split

theorem State.psqStart_dry {z s : State} (k : Nat) (hk : Dry z s) :
    Dry z (s.psqStart k) := by
  unfold State.psqStart
  try dsimp only
  repeat' first
    | with_reducible (first | exact hk | assumption | apply Dry.ite | apply State.accept_dry | apply State.forAll_dry | apply State.setReg_dry | apply State.setQ_dry | apply State.setPst_dry | apply State.stopNow_dry | apply State.refuse_dry)
    | fail_if_no_progress with_reducible apply Dry.mk_upd
    | (intro _ _ _; try dsimp only)
    | intro _
    | split

theorem State.psqStop_dry {z s : State} (k : Nat) (hk : Dry z s) :
    Dry z (s.psqStop k) := by
  unfold State.psqStop
  try dsimp only
  repeat' first
    | with_reducible (first | exact hk | assumption | apply Dry.ite | apply State.accept_dry | apply State.beginStop_dry | apply State.refuse_dry)
    | fail_if_no_progress with_reducible apply Dry.mk_upd
    | (intro _ _ _; try dsimp only)
    | intro _
    | split

theorem State.skipFaulting_dry {z s : State} (k skip x : Nat) (hk : Dry z s) :
    Dry z (s.skipFaulting k skip x) := by
  unfold State.skipFaulting
  try dsimp only
  repeat' first
    | with_reducible (first | exact hk | assumption | apply Dry.ite | apply State.setQ_dry | apply State.setReg_dry)
    | fail_if_no_progress with_reducible apply Dry.mk_upd
    | (intro _ _ _; try dsimp only)
    | intro _
    | split

theorem State.psqResume_dry {z s : State} (k skip : Nat) (rebuild : State → Nat → State) (hrebuild : ∀ u x1, Dry z u → Dry z (rebuild u x1)) (hk : Dry z s) :
    Dry z (s.psqResume k skip rebuild) := by
  unfold State.psqResume
  try dsimp only
  repeat' first
    | with_reducible (first | exact hk | assumption | apply Dry.ite | apply State.accept_dry | apply State.forAll_dry | apply State.skipFaulting_dry | apply State.setReg_dry | apply State.setFld_dry | apply State.setQ_dry | apply State.autoResume_dry | apply State.refuse_dry | apply hrebuild)
    | fail_if_no_progress with_reducible apply Dry.mk_upd
    | (intro _ _ _; try dsimp only)
    | intro _
    | split

theorem State.psqRestore_dry {z s : State} (k : Nat) (hk : Dry z s) :
    Dry z (s.psqRestore k) := by
  unfold State.psqRestore
  try dsimp only
  repeat' first
    | with_reducible (first | exact hk | assumption | apply Dry.ite | apply State.accept_dry | apply State.setQ_dry | apply State.setReg_dry | apply State.setPst_dry | apply State.stopNow_dry | apply State.refuse_dry)
    | fail_if_no_progress with_reducible apply Dry.mk_upd
    | (intro _ _ _; try dsimp only)
    | intro _
    | split

end Sys2Proof.Machine
end

