-- ==== Sys2Proof/Laws/DryAsu.lean ====
section
/-! SUPPORT. Operations of Machine/Asu.lean that store nothing to memory (Laws/Dry.lean). -/

namespace Sys2Proof.Machine

set_option linter.unusedTactic false
set_option linter.unreachableTactic false
set_option linter.unusedSimpArgs false

theorem State.asuRebuildDie_dry {z s : State} (k d : Nat) (hk : Dry z s) :
    Dry z (s.asuRebuildDie k d) := by
  unfold State.asuRebuildDie
  try dsimp only
  repeat' first
    | with_reducible (first | exact hk | assumption | apply Dry.ite | apply State.setAs_dry | apply State.syncAsu_dry)
    | fail_if_no_progress with_reducible apply Dry.mk_upd
    | (intro _ _ _; try dsimp only)
    | intro _
    | split

theorem State.asuRebuild_dry {z s : State} (k : Nat) (hk : Dry z s) :
    Dry z (s.asuRebuild k) := by
  unfold State.asuRebuild
  try dsimp only
  repeat' first
    | with_reducible (first | exact hk | assumption | apply Dry.ite | apply State.forAll_dry | apply State.asuRebuildDie_dry)
    | fail_if_no_progress with_reducible apply Dry.mk_upd
    | (intro _ _ _; try dsimp only)
    | intro _
    | split

theorem State.asFault_dry {z s : State} (d k x code : Nat) (hk : Dry z s) :
    Dry z (s.asFault d k x code) := by
  unfold State.asFault
  try dsimp only
  repeat' first
    | with_reducible (first | exact hk | assumption | apply Dry.ite | apply State.asuErr_dry | apply State.raiseFault_dry)
    | fail_if_no_progress with_reducible apply Dry.mk_upd
    | (intro _ _ _; try dsimp only)
    | intro _
    | split

theorem State.stackOp_dry {z s : State} (k x opc : Nat) (rsv : Nat → Bool) (body : Nat → Nat → State → State) (hbody : ∀ x0 x1 u, Dry z u → Dry z (body x0 x1 u)) (hk : Dry z s) :
    Dry z (s.stackOp k x opc rsv body) := by
  unfold State.stackOp
  try dsimp only
  repeat' first
    | with_reducible (first | exact hk | assumption | apply Dry.ite | apply State.withHead_dry | apply State.asFault_dry | apply hbody)
    | fail_if_no_progress with_reducible apply Dry.mk_upd
    | (intro _ _ _; try dsimp only)
    | intro _
    | split

theorem State.sclose_dry {z s : State} (k x : Nat) (hk : Dry z s) :
    Dry z (s.sclose k x) := by
  unfold State.sclose
  try dsimp only
  repeat' first
    | with_reducible (first | exact hk | assumption | apply Dry.ite | apply State.stackOp_dry | apply State.asFault_dry | apply State.dispatchOut_dry | apply State.updOutst_dry)
    | fail_if_no_progress with_reducible apply Dry.mk_upd
    | (intro _ _ _; try dsimp only)
    | intro _
    | split

theorem State.poolErrs_dry {z s : State} (d k home : Nat) (x : Errs) (hk : Dry z s) :
    Dry z (s.poolErrs d k home x) := by
  unfold State.poolErrs
  try dsimp only
  repeat' first
    | with_reducible (first | exact hk | assumption | apply Dry.ite | apply State.spadEcc_dry | apply State.poisonRange_dry | apply Dry.foldl | apply Dry.foldl_fst | apply Dry.foldl_snd)
    | fail_if_no_progress with_reducible apply Dry.mk_upd
    | (intro _ _ _; try dsimp only)
    | intro _
    | split

theorem State.asuClear_dry {z s : State} (k : Nat) (hk : Dry z s) :
    Dry z (s.asuClear k) := by
  unfold State.asuClear
  try dsimp only
  repeat' first
    | with_reducible (first | exact hk | assumption | apply Dry.ite | apply State.forAll_dry | apply State.setAs_dry | apply State.syncAsu_dry)
    | fail_if_no_progress with_reducible apply Dry.mk_upd
    | (intro _ _ _; try dsimp only)
    | intro _
    | split

end Sys2Proof.Machine
end

