-- ==== Sys2Proof/Laws/DryPsqc.lean ====
section
/-! SUPPORT. Operations of Machine/Psqc.lean that store nothing to memory (Laws/Dry.lean). -/

namespace Sys2Proof.Machine

set_option linter.unusedTactic false
set_option linter.unreachableTactic false
set_option linter.unusedSimpArgs false

theorem State.psqDo_dry {z s : State} (k cmd skip : Nat) (hk : Dry z s) :
    Dry z (s.psqDo k cmd skip) := by
  unfold State.psqDo
  try dsimp only
  repeat' first
    | with_reducible (first | exact hk | assumption | apply Dry.ite | apply State.psqStart_dry | apply State.psqStop_dry | apply State.psqResume_dry | apply State.asuRebuild_dry | apply State.psqRestore_dry)
    | fail_if_no_progress with_reducible apply Dry.mk_upd
    | (intro _ _ _; try dsimp only)
    | intro _
    | split

end Sys2Proof.Machine
end

