-- ==== Sys2Proof/Laws/DryDvu.lean ====
section
/-! SUPPORT. Operations of Machine/Dvu.lean that store nothing to memory (Laws/Dry.lean). -/

namespace Sys2Proof.Machine

set_option linter.unusedTactic false
set_option linter.unreachableTactic false
set_option linter.unusedSimpArgs false

theorem State.dvuErr_dry {z s : State} (e k x index code : Nat) (hk : Dry z s) :
    Dry z (s.dvuErr e k x index code) := by
  unfold State.dvuErr
  try dsimp only
  repeat' first
    | with_reducible (first | exact hk | assumption | apply Dry.ite | apply State.setFld_dry | apply State.setReg_dry | apply State.asuErr_dry)
    | fail_if_no_progress with_reducible apply Dry.mk_upd
    | (intro _ _ _; try dsimp only)
    | intro _
    | split

theorem State.poisonOutputs_dry {z s : State} (drain : Option (Nat × Nat)) (c : ChainD) (run : ChainRun) (hk : Dry z s) :
    Dry z (s.poisonOutputs drain c run) := by
  unfold State.poisonOutputs
  try dsimp only
  repeat' first
    | with_reducible (first | exact hk | assumption | apply Dry.ite | apply State.wrPoison_dry | apply State.forAll_dry | apply State.count_dry)
    | fail_if_no_progress with_reducible apply Dry.mk_upd
    | (intro _ _ _; try dsimp only)
    | intro _
    | split

theorem State.dvuAfter_dry {z s : State} (k e : Nat) (o : Outst) (code : Nat) (hk : Dry z s) :
    Dry z (s.dvuAfter k e o code) := by
  unfold State.dvuAfter
  try dsimp only
  repeat' first
    | with_reducible (first | exact hk | assumption | apply Dry.ite | apply State.dvuErr_dry | apply State.raiseFault_dry)
    | fail_if_no_progress with_reducible apply Dry.mk_upd
    | (intro _ _ _; try dsimp only)
    | intro _
    | split

theorem State.rowErrs_dry {z s : State} (k e : Nat) (o : Outst) (x : Errs) (hk : Dry z s) :
    Dry z (s.rowErrs k e o x) := by
  unfold State.rowErrs
  try dsimp only
  repeat' first
    | with_reducible (first | exact hk | assumption | apply Dry.ite | apply State.readErrs_dry | apply State.poolErrs_dry | apply State.addSat_dry)
    | fail_if_no_progress with_reducible apply Dry.mk_upd
    | (intro _ _ _; try dsimp only)
    | intro _
    | split

theorem State.vx_dry {z s : State} (k x : Nat) (hk : Dry z s) :
    Dry z (s.vx k x) := by
  unfold State.vx
  try dsimp only
  repeat' first
    | with_reducible (first | exact hk | assumption | apply Dry.ite | apply State.withHead_dry | apply State.dvuErr_dry | apply State.raiseFault_dry | apply State.dispatchOut_dry | apply State.updOutst_dry | apply State.syncDvu_dry)
    | fail_if_no_progress with_reducible apply Dry.mk_upd
    | (intro _ _ _; try dsimp only)
    | intro _
    | split

end Sys2Proof.Machine
end

