-- ==== Sys2Proof/Laws/DryMxe.lean ====
section
/-! SUPPORT. Operations of Machine/Mxe.lean that store nothing to memory (Laws/Dry.lean). -/

namespace Sys2Proof.Machine

set_option linter.unusedTactic false
set_option linter.unreachableTactic false
set_option linter.unusedSimpArgs false

theorem State.mxeErr_dry {z s : State} (e x index code : Nat) (hk : Dry z s) :
    Dry z (s.mxeErr e x index code) := by
  unfold State.mxeErr
  try dsimp only
  repeat' first
    | with_reducible (first | exact hk | assumption | apply Dry.ite | apply State.setFld_dry | apply State.setReg_dry)
    | fail_if_no_progress with_reducible apply Dry.mk_upd
    | (intro _ _ _; try dsimp only)
    | intro _
    | split

theorem State.mxFault_dry {z s : State} (k x e code : Nat) (hk : Dry z s) :
    Dry z (s.mxFault k x e code) := by
  unfold State.mxFault
  try dsimp only
  repeat' first
    | with_reducible (first | exact hk | assumption | apply Dry.ite | apply State.mxeErr_dry | apply State.dvuErr_dry | apply State.raiseFault_dry)
    | fail_if_no_progress with_reducible apply Dry.mk_upd
    | (intro _ _ _; try dsimp only)
    | intro _
    | split

theorem State.mxDispatch_dry {z s : State} (k x opc : Nat) (hk : Dry z s) :
    Dry z (s.mxDispatch k x opc) := by
  unfold State.mxDispatch
  try dsimp only
  repeat' first
    | with_reducible (first | exact hk | assumption | apply Dry.ite | apply State.withHead_dry | apply State.mxFault_dry | apply State.dispatchOut_dry | apply State.updOutst_dry | apply State.syncMxe_dry | apply State.syncDvu_dry)
    | fail_if_no_progress with_reducible apply Dry.mk_upd
    | (intro _ _ _; try dsimp only)
    | intro _
    | split

theorem State.mxErrs_dry {z s : State} (e : Nat) (w : MxW) (d : MxD) (x : Errs) (hk : Dry z s) :
    Dry z (s.mxErrs e w d x) := by
  unfold State.mxErrs
  try dsimp only
  repeat' first
    | with_reducible (first | exact hk | assumption | apply Dry.ite | apply State.readErrs_dry | apply State.addSat_dry)
    | fail_if_no_progress with_reducible apply Dry.mk_upd
    | (intro _ _ _; try dsimp only)
    | intro _
    | split

theorem State.mxRun_dry {z s : State} (k e : Nat) (o : Outst) (latch feed drain token : Nat) (x : Errs) (hk : Dry z s) :
    Dry z (s.mxRun k e o latch feed drain token x) := by
  unfold State.mxRun
  try dsimp only
  repeat' first
    | with_reducible (first | exact hk | assumption | apply Dry.ite | apply State.mxErrs_dry | apply State.updOutst_dry | apply State.count_dry | apply State.setReg_dry | apply State.syncMxe_dry)
    | fail_if_no_progress with_reducible apply Dry.mk_upd
    | (intro _ _ _; try dsimp only)
    | intro _
    | split

theorem State.mxIssue_dry {z s : State} (e latch feed drain token : Nat) (released : Bool) (x : Errs) (hk : Dry z s) :
    Dry z (s.mxIssue e latch feed drain token released x) := by
  unfold State.mxIssue
  try dsimp only
  repeat' first
    | with_reducible (first | exact hk | assumption | apply Dry.ite | apply State.mxRun_dry)
    | fail_if_no_progress with_reducible apply Dry.mk_upd
    | (intro _ _ _; try dsimp only)
    | intro _
    | split

theorem State.poisonSlices_dry {z s : State} (k n : Nat) (hk : Dry z s) :
    Dry z (s.poisonSlices k n) := by
  unfold State.poisonSlices
  try dsimp only
  repeat' first
    | with_reducible (first | exact hk | assumption | apply Dry.ite)
    | fail_if_no_progress with_reducible apply Dry.mk_upd
    | (intro _ _ _; try dsimp only)
    | intro _
    | split

end Sys2Proof.Machine
end

