-- ==== Sys2Proof/Laws/DryQuay.lean ====
section
/-! SUPPORT. Operations of Machine/Quay.lean that store nothing to memory (Laws/Dry.lean). -/

namespace Sys2Proof.Machine

set_option linter.unusedTactic false
set_option linter.unreachableTactic false
set_option linter.unusedSimpArgs false

theorem State.setJob_dry {z s : State} (j : Nat) (v : Job) (hk : Dry z s) :
    Dry z (s.setJob j v) := by
  unfold State.setJob
  try dsimp only
  repeat' first
    | with_reducible (first | exact hk | assumption | apply Dry.ite)
    | fail_if_no_progress with_reducible apply Dry.mk_upd
    | (intro _ _ _; try dsimp only)
    | intro _
    | split

theorem State.quayBadAddr_dry {z s : State} (a : Nat) (hk : Dry z s) :
    Dry z (s.quayBadAddr a) := by
  unfold State.quayBadAddr
  try dsimp only
  repeat' first
    | with_reducible (first | exact hk | assumption | apply Dry.ite | apply State.setFld_dry)
    | fail_if_no_progress with_reducible apply Dry.mk_upd
    | (intro _ _ _; try dsimp only)
    | intro _
    | split

theorem State.quayPoison_dry {z s : State} (a k x index job : Nat) (jv : Bool) (hk : Dry z s) :
    Dry z (s.quayPoison a k x index job jv) := by
  unfold State.quayPoison
  try dsimp only
  repeat' first
    | with_reducible (first | exact hk | assumption | apply Dry.ite | apply State.setFld_dry | apply State.setReg_dry | apply State.quayBadAddr_dry)
    | fail_if_no_progress with_reducible apply Dry.mk_upd
    | (intro _ _ _; try dsimp only)
    | intro _
    | split

theorem State.quayErrs_dry {z s : State} (q : Nat) (spans : List (Nat × Nat)) (x : Errs) (buf unc : Nat) (hk : Dry z s) :
    Dry z (s.quayErrs q spans x buf unc) := by
  unfold State.quayErrs
  try dsimp only
  repeat' first
    | with_reducible (first | exact hk | assumption | apply Dry.ite | apply State.readErrs_dry | apply State.addSat_dry)
    | fail_if_no_progress with_reducible apply Dry.mk_upd
    | (intro _ _ _; try dsimp only)
    | intro _
    | split

theorem State.syncQuay_dry {z s : State} (q : Nat) (hk : Dry z s) :
    Dry z (s.syncQuay q) := by
  unfold State.syncQuay
  try dsimp only
  repeat' first
    | with_reducible (first | exact hk | assumption | apply Dry.ite | apply State.forAll_dry | apply State.setFld_dry)
    | fail_if_no_progress with_reducible apply Dry.mk_upd
    | (intro _ _ _; try dsimp only)
    | intro _
    | split

theorem State.quayReserve_dry {z s : State} (e wait : Nat) (hk : Dry z s) :
    Dry z (s.quayReserve e wait) := by
  unfold State.quayReserve
  try dsimp only
  repeat' first
    | with_reducible (first | exact hk | assumption | apply Dry.ite | apply State.faultOut_dry | apply State.count_dry | apply State.setQu_dry | apply State.syncQuay_dry)
    | fail_if_no_progress with_reducible apply Dry.mk_upd
    | (intro _ _ _; try dsimp only)
    | intro _
    | split

theorem State.quayGrant_dry {z s : State} (q wait : Nat) (hk : Dry z s) :
    Dry z (s.quayGrant q wait) := by
  unfold State.quayGrant
  try dsimp only
  repeat' first
    | with_reducible (first | exact hk | assumption | apply Dry.ite | apply State.setQu_dry | apply State.count_dry | apply State.syncQuay_dry)
    | fail_if_no_progress with_reducible apply Dry.mk_upd
    | (intro _ _ _; try dsimp only)
    | intro _
    | split

theorem State.sliceArrive_dry {z s : State} (e : Nat) (hk : Dry z s) :
    Dry z (s.sliceArrive e) := by
  unfold State.sliceArrive
  try dsimp only
  repeat' first
    | with_reducible (first | exact hk | assumption | apply Dry.ite | apply State.setQu_dry | apply State.updOutst_dry)
    | fail_if_no_progress with_reducible apply Dry.mk_upd
    | (intro _ _ _; try dsimp only)
    | intro _
    | split

theorem State.releaseResv_dry {z s : State} (k n q : Nat) (hk : Dry z s) :
    Dry z (s.releaseResv k n q) := by
  unfold State.releaseResv
  try dsimp only
  repeat' first
    | with_reducible (first | exact hk | assumption | apply Dry.ite | apply State.forAll_dry | apply State.setQu_dry | apply State.syncQuay_dry)
    | fail_if_no_progress with_reducible apply Dry.mk_upd
    | (intro _ _ _; try dsimp only)
    | intro _
    | split

theorem State.unstage_dry {z s : State} (q : Nat) (l : List Slice) (hk : Dry z s) :
    Dry z (s.unstage q l) := by
  unfold State.unstage
  try dsimp only
  repeat' first
    | with_reducible (first | exact hk | assumption | apply Dry.ite | apply State.setQu_dry)
    | fail_if_no_progress with_reducible apply Dry.mk_upd
    | (intro _ _ _; try dsimp only)
    | intro _
    | split

theorem State.countHold_dry {z s : State} (q n : Nat) (hk : Dry z s) :
    Dry z (s.countHold q n) := by
  unfold State.countHold
  try dsimp only
  repeat' first
    | with_reducible (first | exact hk | assumption | apply Dry.ite | apply State.count_dry)
    | fail_if_no_progress with_reducible apply Dry.mk_upd
    | (intro _ _ _; try dsimp only)
    | intro _
    | split

theorem State.quayOp_dry {z s : State} (k opc : Nat) (rsv : Nat → Bool) (job : Nat → Option Nat) (body : Nat → List Byte → List Byte → State → State) (hbody : ∀ x0 x1 x2 u, Dry z u → Dry z (body x0 x1 x2 u)) (hk : Dry z s) :
    Dry z (s.quayOp k opc rsv job body) := by
  unfold State.quayOp
  try dsimp only
  repeat' first
    | with_reducible (first | exact hk | assumption | apply Dry.ite | apply State.withHead_dry | apply State.raiseFault_dry | apply hbody)
    | fail_if_no_progress with_reducible apply Dry.mk_upd
    | (intro _ _ _; try dsimp only)
    | intro _
    | split

theorem State.quayTensorOp_dry {z s : State} (k opc : Nat) (hk : Dry z s) :
    Dry z (s.quayTensorOp k opc) := by
  unfold State.quayTensorOp
  try dsimp only
  repeat' first
    | with_reducible (first | exact hk | assumption | apply Dry.ite | apply State.quayOp_dry | apply State.dispatchOut_dry | apply State.forAll_dry | apply State.setQu_dry)
    | fail_if_no_progress with_reducible apply Dry.mk_upd
    | (intro _ _ _; try dsimp only)
    | intro _
    | split

theorem State.qbind_dry {z s : State} (k : Nat) (hk : Dry z s) :
    Dry z (s.qbind k) := by
  unfold State.qbind
  try dsimp only
  repeat' first
    | with_reducible (first | exact hk | assumption | apply Dry.ite | apply State.quayOp_dry | apply State.dispatchDone_dry)
    | fail_if_no_progress with_reducible apply Dry.mk_upd
    | (intro _ _ _; try dsimp only)
    | intro _
    | split

theorem State.blockArrive_dry {z s : State} (q : Nat) (hk : Dry z s) :
    Dry z (s.blockArrive q) := by
  unfold State.blockArrive
  try dsimp only
  repeat' first
    | with_reducible (first | exact hk | assumption | apply Dry.ite | apply State.setQu_dry | apply State.syncQuay_dry)
    | fail_if_no_progress with_reducible apply Dry.mk_upd
    | (intro _ _ _; try dsimp only)
    | intro _
    | split

theorem State.dropBlocks_dry {z s : State} (q id i : Nat) (hk : Dry z s) :
    Dry z (s.dropBlocks q id i) := by
  unfold State.dropBlocks
  try dsimp only
  repeat' first
    | with_reducible (first | exact hk | assumption | apply Dry.ite | apply State.setQu_dry)
    | fail_if_no_progress with_reducible apply Dry.mk_upd
    | (intro _ _ _; try dsimp only)
    | intro _
    | split

end Sys2Proof.Machine
end

