-- ==== Sys2Proof/Laws/DryPvu.lean ====
section
/-! SUPPORT. Operations of Machine/Pvu.lean that store nothing to memory (Laws/Dry.lean). -/

namespace Sys2Proof.Machine

set_option linter.unusedTactic false
set_option linter.unreachableTactic false
set_option linter.unusedSimpArgs false

theorem State.pvErr_dry {z s : State} (v x index code : Nat) (assist : Bool) (hk : Dry z s) :
    Dry z (s.pvErr v x index code assist) := by
  unfold State.pvErr
  try dsimp only
  repeat' first
    | with_reducible (first | exact hk | assumption | apply Dry.ite | apply State.setFld_dry)
    | fail_if_no_progress with_reducible apply Dry.mk_upd
    | (intro _ _ _; try dsimp only)
    | intro _
    | split

theorem State.syncPvu_dry {z s : State} (v : Nat) (hk : Dry z s) :
    Dry z (s.syncPvu v) := by
  unfold State.syncPvu
  try dsimp only
  repeat' first
    | with_reducible (first | exact hk | assumption | apply Dry.ite | apply State.setFld_dry)
    | fail_if_no_progress with_reducible apply Dry.mk_upd
    | (intro _ _ _; try dsimp only)
    | intro _
    | split

theorem State.pvHead_dry {z s : State} (k x : Nat) (ops : Nat → Bool) (hk : Dry z s) :
    Dry z (s.pvHead k x ops) := by
  unfold State.pvHead
  try dsimp only
  repeat' first
    | with_reducible (first | exact hk | assumption | apply Dry.ite | apply State.withHead_dry | apply State.raiseFault_dry | apply State.pvErr_dry | apply State.dispatchOut_dry | apply State.syncPvu_dry)
    | fail_if_no_progress with_reducible apply Dry.mk_upd
    | (intro _ _ _; try dsimp only)
    | intro _
    | split

theorem State.pvErrs_dry {z s : State} (v w : Nat) (x : Errs) (hk : Dry z s) :
    Dry z (s.pvErrs v w x) := by
  unfold State.pvErrs
  try dsimp only
  repeat' first
    | with_reducible (first | exact hk | assumption | apply Dry.ite | apply State.readErrs_dry | apply State.addSat_dry)
    | fail_if_no_progress with_reducible apply Dry.mk_upd
    | (intro _ _ _; try dsimp only)
    | intro _
    | split

end Sys2Proof.Machine
end

