-- ==== Sys2Proof/Laws/DryPtb.lean ====
section
/-! SUPPORT. Operations of Machine/Ptb.lean that store nothing to memory (Laws/Dry.lean). -/

namespace Sys2Proof.Machine

set_option linter.unusedTactic false
set_option linter.unreachableTactic false
set_option linter.unusedSimpArgs false

theorem State.ptbTick_dry {z s : State} (k : Nat) (hk : Dry z s) :
    Dry z (s.ptbTick k) := by
  unfold State.ptbTick
  try dsimp only
  repeat' first
    | with_reducible (first | exact hk | assumption | apply Dry.ite)
    | fail_if_no_progress with_reducible apply Dry.mk_upd
    | (intro _ _ _; try dsimp only)
    | intro _
    | split

theorem State.ptbLink_dry {z s : State} (p : Nat) (hk : Dry z s) :
    Dry z (s.ptbLink p).2 := by
  unfold State.ptbLink
  try dsimp only
  repeat' first
    | with_reducible (first | exact hk | assumption | apply Dry.ite | apply State.ptbTick_dry | apply State.addSat_dry)
    | fail_if_no_progress with_reducible apply Dry.mk_upd
    | (intro _ _ _; try dsimp only)
    | intro _
    | split

theorem State.ptbSpill_dry {z s : State} (job st b : Nat) (bw16 : Bool) (hk : Dry z s) :
    Dry z (s.ptbSpill job st b bw16).2 := by
  unfold State.ptbSpill
  try dsimp only
  repeat' first
    | with_reducible (first | exact hk | assumption | apply Dry.ite | apply State.ptbTick_dry | apply State.addSat_dry)
    | fail_if_no_progress with_reducible apply Dry.mk_upd
    | (intro _ _ _; try dsimp only)
    | intro _
    | split

theorem State.ptbHome_dry {z s : State} (h agent : Nat) (hk : Dry z s) :
    Dry z (s.ptbHome h agent).2 := by
  unfold State.ptbHome
  try dsimp only
  repeat' first
    | with_reducible (first | exact hk | assumption | apply Dry.ite | apply State.ptbTick_dry | apply State.addSat_dry)
    | fail_if_no_progress with_reducible apply Dry.mk_upd
    | (intro _ _ _; try dsimp only)
    | intro _
    | split

theorem State.ptbArm_dry {z s : State} (v : Word) (hk : Dry z s) :
    Dry z (s.ptbArm v) := by
  unfold State.ptbArm
  try dsimp only
  repeat' first
    | with_reducible (first | exact hk | assumption | apply Dry.ite | apply State.setFld_dry)
    | fail_if_no_progress with_reducible apply Dry.mk_upd
    | (intro _ _ _; try dsimp only)
    | intro _
    | split

end Sys2Proof.Machine
end

