-- ==== Sys2Proof/Laws/DryTwp.lean ====
section
/-! SUPPORT. Operations of Machine/Twp.lean that store nothing to memory (Laws/Dry.lean). -/

namespace Sys2Proof.Machine

set_option linter.unusedTactic false
set_option linter.unreachableTactic false
set_option linter.unusedSimpArgs false

theorem State.setPt_dry {z s : State} (p : Nat) (c : Port) (hk : Dry z s) :
    Dry z (s.setPt p c) := by
  unfold State.setPt
  try dsimp only
  repeat' first
    | with_reducible (first | exact hk | assumption | apply Dry.ite)
    | fail_if_no_progress with_reducible apply Dry.mk_upd
    | (intro _ _ _; try dsimp only)
    | intro _
    | split

theorem State.setRg_dry {z s : State} (rd : Nat) (c : RingDir) (hk : Dry z s) :
    Dry z (s.setRg rd c) := by
  unfold State.setRg
  try dsimp only
  repeat' first
    | with_reducible (first | exact hk | assumption | apply Dry.ite)
    | fail_if_no_progress with_reducible apply Dry.mk_upd
    | (intro _ _ _; try dsimp only)
    | intro _
    | split

theorem State.setPortState_dry {z s : State} (p v : Nat) (hk : Dry z s) :
    Dry z (s.setPortState p v) := by
  unfold State.setPortState
  try dsimp only
  repeat' first
    | with_reducible (first | exact hk | assumption | apply Dry.ite | apply State.setFld_dry | apply State.modEvent_dry)
    | fail_if_no_progress with_reducible apply Dry.mk_upd
    | (intro _ _ _; try dsimp only)
    | intro _
    | split

theorem State.syncRing_dry {z s : State} (r : Nat) (hk : Dry z s) :
    Dry z (s.syncRing r) := by
  unfold State.syncRing
  try dsimp only
  repeat' first
    | with_reducible (first | exact hk | assumption | apply Dry.ite | apply State.setFld_dry | apply Dry.foldl | apply Dry.foldl_fst | apply Dry.foldl_snd)
    | fail_if_no_progress with_reducible apply Dry.mk_upd
    | (intro _ _ _; try dsimp only)
    | intro _
    | split

theorem State.sendCtrl_dry {z s : State} (p : Nat) (hk : Dry z s) :
    Dry z (s.sendCtrl p) := by
  unfold State.sendCtrl
  try dsimp only
  repeat' first
    | with_reducible (first | exact hk | assumption | apply Dry.ite | apply State.setPt_dry)
    | fail_if_no_progress with_reducible apply Dry.mk_upd
    | (intro _ _ _; try dsimp only)
    | intro _
    | split

theorem State.sendData_dry {z s : State} (p : Nat) (f : TxFrame) (hk : Dry z s) :
    Dry z (s.sendData p f) := by
  unfold State.sendData
  try dsimp only
  repeat' first
    | with_reducible (first | exact hk | assumption | apply Dry.ite | apply State.setPt_dry | apply State.sendCtrl_dry)
    | fail_if_no_progress with_reducible apply Dry.mk_upd
    | (intro _ _ _; try dsimp only)
    | intro _
    | split

theorem State.txFrame_dry {z s : State} (p rd cls : Nat) (f : List Byte) (hk : Dry z s) :
    Dry z (s.txFrame p rd cls f) := by
  unfold State.txFrame
  try dsimp only
  repeat' first
    | with_reducible (first | exact hk | assumption | apply Dry.ite | apply State.setPt_dry | apply State.sendData_dry)
    | fail_if_no_progress with_reducible apply Dry.mk_upd
    | (intro _ _ _; try dsimp only)
    | intro _
    | split

theorem State.pumpN_dry {z s : State} (rd : Nat) (n : Nat) (hk : Dry z s) :
    Dry z (s.pumpN rd n) := by
  induction n generalizing s  with
  | zero => exact hk
  | succ n ih =>
    unfold State.pumpN
    try dsimp only
    repeat' first
      | with_reducible (first | exact hk | assumption | apply Dry.ite | apply State.setRg_dry | apply State.txFrame_dry | apply ih)
      | fail_if_no_progress with_reducible apply Dry.mk_upd
      | (intro _ _ _; try dsimp only)
      | intro _
      | split

theorem State.pump_dry {z s : State} (rd : Nat) (hk : Dry z s) :
    Dry z (s.pump rd) := by
  unfold State.pump
  try dsimp only
  repeat' first
    | with_reducible (first | exact hk | assumption | apply Dry.ite | apply State.pumpN_dry)
    | fail_if_no_progress with_reducible apply Dry.mk_upd
    | (intro _ _ _; try dsimp only)
    | intro _
    | split

theorem State.emit_dry {z s : State} (rd cls : Nat) (f : List Byte) (hk : Dry z s) :
    Dry z (s.emit rd cls f) := by
  unfold State.emit
  try dsimp only
  repeat' first
    | with_reducible (first | exact hk | assumption | apply Dry.ite | apply State.setRg_dry | apply State.pump_dry)
    | fail_if_no_progress with_reducible apply Dry.mk_upd
    | (intro _ _ _; try dsimp only)
    | intro _
    | split

theorem State.pumpPort_dry {z s : State} (p : Nat) (hk : Dry z s) :
    Dry z (s.pumpPort p) := by
  unfold State.pumpPort
  try dsimp only
  repeat' first
    | with_reducible (first | exact hk | assumption | apply Dry.ite | apply State.pump_dry | apply State.syncRing_dry | apply Dry.foldl | apply Dry.foldl_fst | apply Dry.foldl_snd)
    | fail_if_no_progress with_reducible apply Dry.mk_upd
    | (intro _ _ _; try dsimp only)
    | intro _
    | split

theorem State.resend_dry {z s : State} (l : List TxFrame) (hk : Dry z s) :
    Dry z (s.resend l) := by
  unfold State.resend
  try dsimp only
  repeat' first
    | with_reducible (first | exact hk | assumption | apply Dry.ite | apply State.setRg_dry | apply State.pump_dry | apply Dry.foldl | apply Dry.foldl_fst | apply Dry.foldl_snd)
    | fail_if_no_progress with_reducible apply Dry.mk_upd
    | (intro _ _ _; try dsimp only)
    | intro _
    | split

theorem State.talk_dry {z s : State} (p : Nat) (hk : Dry z s) :
    Dry z (s.talk p) := by
  unfold State.talk
  try dsimp only
  repeat' first
    | with_reducible (first | exact hk | assumption | apply Dry.ite | apply State.sendCtrl_dry)
    | fail_if_no_progress with_reducible apply Dry.mk_upd
    | (intro _ _ _; try dsimp only)
    | intro _
    | split

theorem State.talkAll_dry {z s : State} (hk : Dry z s) :
    Dry z s.talkAll := by
  unfold State.talkAll
  try dsimp only
  repeat' first
    | with_reducible (first | exact hk | assumption | apply Dry.ite | apply State.talk_dry | apply Dry.foldl | apply Dry.foldl_fst | apply Dry.foldl_snd)
    | fail_if_no_progress with_reducible apply Dry.mk_upd
    | (intro _ _ _; try dsimp only)
    | intro _
    | split

theorem State.endSession_dry {z s : State} (p : Nat) (hk : Dry z s) :
    Dry z (s.endSession p) := by
  unfold State.endSession
  try dsimp only
  repeat' first
    | with_reducible (first | exact hk | assumption | apply Dry.ite | apply State.setPt_dry)
    | fail_if_no_progress with_reducible apply Dry.mk_upd
    | (intro _ _ _; try dsimp only)
    | intro _
    | split

theorem State.portDown_dry {z s : State} (p : Nat) (hk : Dry z s) :
    Dry z (s.portDown p) := by
  unfold State.portDown
  try dsimp only
  repeat' first
    | with_reducible (first | exact hk | assumption | apply Dry.ite | apply State.endSession_dry | apply State.setPortState_dry | apply State.setFld_dry | apply State.syncRing_dry | apply State.talkAll_dry | apply Dry.foldl | apply Dry.foldl_fst | apply Dry.foldl_snd)
    | fail_if_no_progress with_reducible apply Dry.mk_upd
    | (intro _ _ _; try dsimp only)
    | intro _
    | split

theorem State.startRetrain_dry {z s : State} (p : Nat) (hk : Dry z s) :
    Dry z (s.startRetrain p) := by
  unfold State.startRetrain
  try dsimp only
  repeat' first
    | with_reducible (first | exact hk | assumption | apply Dry.ite | apply State.setPt_dry | apply State.setPortState_dry | apply State.syncRing_dry | apply Dry.foldl | apply Dry.foldl_fst | apply Dry.foldl_snd)
    | fail_if_no_progress with_reducible apply Dry.mk_upd
    | (intro _ _ _; try dsimp only)
    | intro _
    | split

theorem State.partner_dry {z s : State} (p : Nat) (i : TrainInfo) (good : Nat) (hk : Dry z s) :
    Dry z (s.partner p i good) := by
  unfold State.partner
  try dsimp only
  repeat' first
    | with_reducible (first | exact hk | assumption | apply Dry.ite | apply State.setReg_dry | apply State.setFld_dry)
    | fail_if_no_progress with_reducible apply Dry.mk_upd
    | (intro _ _ _; try dsimp only)
    | intro _
    | split

theorem State.sendOffer_dry {z s : State} (p good : Nat) (full : Bool) (hk : Dry z s) :
    Dry z (s.sendOffer p good full) := by
  unfold State.sendOffer
  try dsimp only
  repeat' first
    | with_reducible (first | exact hk | assumption | apply Dry.ite | apply State.setPt_dry)
    | fail_if_no_progress with_reducible apply Dry.mk_upd
    | (intro _ _ _; try dsimp only)
    | intro _
    | split

theorem State.levelMismatch_dry {z s : State} (p : Nat) (hk : Dry z s) :
    Dry z (s.levelMismatch p) := by
  unfold State.levelMismatch
  try dsimp only
  repeat' first
    | with_reducible (first | exact hk | assumption | apply Dry.ite | apply State.endSession_dry | apply State.setPortState_dry | apply State.setFld_dry | apply State.syncRing_dry | apply Dry.foldl | apply Dry.foldl_fst | apply Dry.foldl_snd)
    | fail_if_no_progress with_reducible apply Dry.mk_upd
    | (intro _ _ _; try dsimp only)
    | intro _
    | split

theorem State.resolve_dry {z s : State} (p passed : Nat) (i : TrainInfo) (full : Bool) (hk : Dry z s) :
    Dry z (s.resolve p passed i full) := by
  unfold State.resolve
  try dsimp only
  repeat' first
    | with_reducible (first | exact hk | assumption | apply Dry.ite | apply State.sendOffer_dry | apply State.partner_dry | apply State.levelMismatch_dry | apply State.portDown_dry | apply State.setFld_dry | apply State.setPt_dry)
    | fail_if_no_progress with_reducible apply Dry.mk_upd
    | (intro _ _ _; try dsimp only)
    | intro _
    | split

theorem State.trainFull_dry {z s : State} (p : Nat) (i : TrainInfo) (hk : Dry z s) :
    Dry z (s.trainFull p i) := by
  unfold State.trainFull
  try dsimp only
  repeat' first
    | with_reducible (first | exact hk | assumption | apply Dry.ite | apply State.endSession_dry | apply State.addSat_dry | apply State.setPortState_dry | apply State.portDown_dry | apply State.setPt_dry | apply State.resolve_dry)
    | fail_if_no_progress with_reducible apply Dry.mk_upd
    | (intro _ _ _; try dsimp only)
    | intro _
    | split

theorem State.fastFailed_dry {z s : State} (p : Nat) (hk : Dry z s) :
    Dry z (s.fastFailed p) := by
  unfold State.fastFailed
  try dsimp only
  repeat' first
    | with_reducible (first | exact hk | assumption | apply Dry.ite | apply State.setPt_dry | apply State.endSession_dry | apply State.setPortState_dry | apply State.setFld_dry | apply State.syncRing_dry | apply State.talkAll_dry | apply Dry.foldl | apply Dry.foldl_fst | apply Dry.foldl_snd)
    | fail_if_no_progress with_reducible apply Dry.mk_upd
    | (intro _ _ _; try dsimp only)
    | intro _
    | split

theorem State.trainFast_dry {z s : State} (p : Nat) (i : TrainInfo) (hk : Dry z s) :
    Dry z (s.trainFast p i) := by
  unfold State.trainFast
  try dsimp only
  repeat' first
    | with_reducible (first | exact hk | assumption | apply Dry.ite | apply State.fastFailed_dry | apply State.addSat_dry | apply State.resolve_dry)
    | fail_if_no_progress with_reducible apply Dry.mk_upd
    | (intro _ _ _; try dsimp only)
    | intro _
    | split

theorem State.frameLock_dry {z s : State} (p : Nat) (hk : Dry z s) :
    Dry z (s.frameLock p) := by
  unfold State.frameLock
  try dsimp only
  repeat' first
    | with_reducible (first | exact hk | assumption | apply Dry.ite | apply State.setPt_dry | apply State.setPortState_dry | apply State.setRg_dry | apply State.resend_dry | apply State.pumpPort_dry | apply State.talk_dry | apply Dry.foldl | apply Dry.foldl_fst | apply Dry.foldl_snd)
    | fail_if_no_progress with_reducible apply Dry.mk_upd
    | (intro _ _ _; try dsimp only)
    | intro _
    | split

theorem State.raiseNak_dry {z s : State} (p : Nat) (hk : Dry z s) :
    Dry z (s.raiseNak p) := by
  unfold State.raiseNak
  try dsimp only
  repeat' first
    | with_reducible (first | exact hk | assumption | apply Dry.ite | apply State.setPt_dry | apply State.addSat_dry)
    | fail_if_no_progress with_reducible apply Dry.mk_upd
    | (intro _ _ _; try dsimp only)
    | intro _
    | split

theorem State.badFrame_dry {z s : State} (p : Nat) (hk : Dry z s) :
    Dry z (s.badFrame p) := by
  unfold State.badFrame
  try dsimp only
  repeat' first
    | with_reducible (first | exact hk | assumption | apply Dry.ite | apply State.addSat_dry | apply State.raiseNak_dry | apply State.setPt_dry | apply State.startRetrain_dry)
    | fail_if_no_progress with_reducible apply Dry.mk_upd
    | (intro _ _ _; try dsimp only)
    | intro _
    | split

theorem State.countCorr_dry {z s : State} (p : Nat) (l : List Nat) (hk : Dry z s) :
    Dry z (s.countCorr p l) := by
  unfold State.countCorr
  try dsimp only
  repeat' first
    | with_reducible (first | exact hk | assumption | apply Dry.ite | apply State.addSat_dry | apply Dry.foldl | apply Dry.foldl_fst | apply Dry.foldl_snd)
    | fail_if_no_progress with_reducible apply Dry.mk_upd
    | (intro _ _ _; try dsimp only)
    | intro _
    | split

theorem State.takeAck_dry {z s : State} (p ack : Nat) (nak : Bool) (hk : Dry z s) :
    Dry z (s.takeAck p ack nak) := by
  unfold State.takeAck
  try dsimp only
  repeat' first
    | with_reducible (first | exact hk | assumption | apply Dry.ite | apply State.setPt_dry | apply State.sendData_dry | apply State.addSat_dry | apply State.startRetrain_dry | apply Dry.foldl | apply Dry.foldl_fst | apply Dry.foldl_snd)
    | fail_if_no_progress with_reducible apply Dry.mk_upd
    | (intro _ _ _; try dsimp only)
    | intro _
    | split

theorem State.freeFlit_dry {z s : State} (p c : Nat) (hk : Dry z s) :
    Dry z (s.freeFlit p c) := by
  unfold State.freeFlit
  try dsimp only
  repeat' first
    | with_reducible (first | exact hk | assumption | apply Dry.ite | apply State.setPt_dry)
    | fail_if_no_progress with_reducible apply Dry.mk_upd
    | (intro _ _ _; try dsimp only)
    | intro _
    | split

theorem State.acceptFlit_dry {z s : State} (p cls : Nat) (f : List Byte) (hk : Dry z s) :
    Dry z (s.acceptFlit p cls f) := by
  unfold State.acceptFlit
  try dsimp only
  repeat' first
    | with_reducible (first | exact hk | assumption | apply Dry.ite | apply State.addSat_dry | apply State.freeFlit_dry | apply State.setPt_dry)
    | fail_if_no_progress with_reducible apply Dry.mk_upd
    | (intro _ _ _; try dsimp only)
    | intro _
    | split

theorem State.frame_dry {z s : State} (p kind : Nat) (b : List Byte) (act : Nat → List Byte → State → State) (hact : ∀ x0 x1 u, Dry z u → Dry z (act x0 x1 u)) (hk : Dry z s) :
    Dry z (s.frame p kind b act) := by
  unfold State.frame
  try dsimp only
  repeat' first
    | with_reducible (first | exact hk | assumption | apply Dry.ite | apply State.ptbLink_dry | apply State.addSat_dry | apply State.raiseNak_dry | apply State.badFrame_dry | apply State.countCorr_dry | apply State.setPt_dry | apply State.takeAck_dry | apply State.pumpPort_dry | apply State.talk_dry | apply hact)
    | fail_if_no_progress with_reducible apply Dry.mk_upd
    | (intro _ _ _; try dsimp only)
    | intro _
    | split

theorem State.dataAct_dry {z s : State} (p h : Nat) (f : List Byte) (hk : Dry z s) :
    Dry z (s.dataAct p h f) := by
  unfold State.dataAct
  try dsimp only
  repeat' first
    | with_reducible (first | exact hk | assumption | apply Dry.ite | apply State.setPt_dry | apply State.acceptFlit_dry | apply State.raiseNak_dry)
    | fail_if_no_progress with_reducible apply Dry.mk_upd
    | (intro _ _ _; try dsimp only)
    | intro _
    | split

theorem State.dataFrame_dry {z s : State} (p : Nat) (b : List Byte) (hk : Dry z s) :
    Dry z (s.dataFrame p b) := by
  unfold State.dataFrame
  try dsimp only
  repeat' first
    | with_reducible (first | exact hk | assumption | apply Dry.ite | apply State.frame_dry | apply State.dataAct_dry)
    | fail_if_no_progress with_reducible apply Dry.mk_upd
    | (intro _ _ _; try dsimp only)
    | intro _
    | split

theorem State.takeCredits_dry {z s : State} (p : Nat) (f : List Byte) (hk : Dry z s) :
    Dry z (s.takeCredits p f) := by
  unfold State.takeCredits
  try dsimp only
  repeat' first
    | with_reducible (first | exact hk | assumption | apply Dry.ite | apply State.setPt_dry | apply State.setRg_dry | apply Dry.foldl | apply Dry.foldl_fst | apply Dry.foldl_snd)
    | fail_if_no_progress with_reducible apply Dry.mk_upd
    | (intro _ _ _; try dsimp only)
    | intro _
    | split

theorem State.takeDone_dry {z s : State} (rd v : Nat) (hk : Dry z s) :
    Dry z (s.takeDone rd v) := by
  unfold State.takeDone
  try dsimp only
  repeat' first
    | with_reducible (first | exact hk | assumption | apply Dry.ite | apply State.setRg_dry)
    | fail_if_no_progress with_reducible apply Dry.mk_upd
    | (intro _ _ _; try dsimp only)
    | intro _
    | split

theorem State.takeAckx_dry {z s : State} (rd : Nat) (f : List Byte) (hk : Dry z s) :
    Dry z (s.takeAckx rd f) := by
  unfold State.takeAckx
  try dsimp only
  repeat' first
    | with_reducible (first | exact hk | assumption | apply Dry.ite | apply State.setPt_dry | apply State.resend_dry | apply Dry.foldl | apply Dry.foldl_fst | apply Dry.foldl_snd)
    | fail_if_no_progress with_reducible apply Dry.mk_upd
    | (intro _ _ _; try dsimp only)
    | intro _
    | split

theorem State.ctrlAct_dry {z s : State} (p : Nat) (f : List Byte) (hk : Dry z s) :
    Dry z (s.ctrlAct p f) := by
  unfold State.ctrlAct
  try dsimp only
  repeat' first
    | with_reducible (first | exact hk | assumption | apply Dry.ite | apply State.takeDone_dry | apply State.takeAckx_dry | apply State.takeCredits_dry | apply Dry.foldl | apply Dry.foldl_fst | apply Dry.foldl_snd)
    | fail_if_no_progress with_reducible apply Dry.mk_upd
    | (intro _ _ _; try dsimp only)
    | intro _
    | split

theorem State.ctrlFrame_dry {z s : State} (p : Nat) (b : List Byte) (hk : Dry z s) :
    Dry z (s.ctrlFrame p b) := by
  unfold State.ctrlFrame
  try dsimp only
  repeat' first
    | with_reducible (first | exact hk | assumption | apply Dry.ite | apply State.frame_dry | apply State.ctrlAct_dry)
    | fail_if_no_progress with_reducible apply Dry.mk_upd
    | (intro _ _ _; try dsimp only)
    | intro _
    | split

theorem State.tsend_dry {z s : State} (k x : Nat) (hk : Dry z s) :
    Dry z (s.tsend k x) := by
  unfold State.tsend
  try dsimp only
  repeat' first
    | with_reducible (first | exact hk | assumption | apply Dry.ite | apply State.withHead_dry | apply State.raiseFault_dry | apply State.dispatchOut_dry)
    | fail_if_no_progress with_reducible apply Dry.mk_upd
    | (intro _ _ _; try dsimp only)
    | intro _
    | split

theorem State.tsendEnd_dry {z s : State} (k n code : Nat) (hk : Dry z s) :
    Dry z (s.tsendEnd k n code) := by
  unfold State.tsendEnd
  try dsimp only
  repeat' first
    | with_reducible (first | exact hk | assumption | apply Dry.ite | apply State.complete_dry | apply State.raiseFault_dry)
    | fail_if_no_progress with_reducible apply Dry.mk_upd
    | (intro _ _ _; try dsimp only)
    | intro _
    | split

theorem State.tsendComplete_dry {z s : State} (rd tag : Nat) (hk : Dry z s) :
    Dry z (s.tsendComplete rd tag) := by
  unfold State.tsendComplete
  try dsimp only
  repeat' first
    | with_reducible (first | exact hk | assumption | apply Dry.ite | apply State.setRg_dry | apply State.tsendEnd_dry | apply State.syncRing_dry)
    | fail_if_no_progress with_reducible apply Dry.mk_upd
    | (intro _ _ _; try dsimp only)
    | intro _
    | split

theorem State.tsendTimeout_dry {z s : State} (rd tag : Nat) (hk : Dry z s) :
    Dry z (s.tsendTimeout rd tag) := by
  unfold State.tsendTimeout
  try dsimp only
  repeat' first
    | with_reducible (first | exact hk | assumption | apply Dry.ite | apply State.setRg_dry | apply State.tsendEnd_dry | apply State.syncRing_dry)
    | fail_if_no_progress with_reducible apply Dry.mk_upd
    | (intro _ _ _; try dsimp only)
    | intro _
    | split

theorem State.cmdFast_dry {z s : State} (p : Nat) (hk : Dry z s) :
    Dry z (s.cmdFast p) := by
  unfold State.cmdFast
  try dsimp only
  repeat' first
    | with_reducible (first | exact hk | assumption | apply Dry.ite | apply State.startRetrain_dry)
    | fail_if_no_progress with_reducible apply Dry.mk_upd
    | (intro _ _ _; try dsimp only)
    | intro _
    | split

theorem State.cmdFull_dry {z s : State} (p : Nat) (hk : Dry z s) :
    Dry z (s.cmdFull p) := by
  unfold State.cmdFull
  try dsimp only
  repeat' first
    | with_reducible (first | exact hk | assumption | apply Dry.ite | apply State.endSession_dry | apply State.setPortState_dry | apply State.setFld_dry | apply State.syncRing_dry | apply Dry.foldl | apply Dry.foldl_fst | apply Dry.foldl_snd)
    | fail_if_no_progress with_reducible apply Dry.mk_upd
    | (intro _ _ _; try dsimp only)
    | intro _
    | split

theorem State.winWrite_dry {z s : State} (w : Nat) (v : Word) (hk : Dry z s) :
    Dry z (s.winWrite w v) := by
  unfold State.winWrite
  try dsimp only
  repeat' first
    | with_reducible (first | exact hk | assumption | apply Dry.ite | apply State.setFld_dry)
    | fail_if_no_progress with_reducible apply Dry.mk_upd
    | (intro _ _ _; try dsimp only)
    | intro _
    | split

end Sys2Proof.Machine
end

