-- ==== Sys2Proof/Laws/DryRdx.lean ====
section
/-! SUPPORT. Operations of Machine/Rdx.lean that store nothing to memory (Laws/Dry.lean). -/

namespace Sys2Proof.Machine

set_option linter.unusedTactic false
set_option linter.unreachableTactic false
set_option linter.unusedSimpArgs false

theorem State.setXc_dry {z s : State} (k : Nat) (c : Xch) (hk : Dry z s) :
    Dry z (s.setXc k c) := by
  unfold State.setXc
  try dsimp only
  repeat' first
    | with_reducible (first | exact hk | assumption | apply Dry.ite | apply State.setFld_dry)
    | fail_if_no_progress with_reducible apply Dry.mk_upd
    | (intro _ _ _; try dsimp only)
    | intro _
    | split

theorem State.sendSeal_dry {z s : State} (ring p : Nat) (r : SealRec) (step : Nat) (hk : Dry z s) :
    Dry z (s.sendSeal ring p r step) := by
  unfold State.sendSeal
  try dsimp only
  repeat' first
    | with_reducible (first | exact hk | assumption | apply Dry.ite | apply State.emit_dry)
    | fail_if_no_progress with_reducible apply Dry.mk_upd
    | (intro _ _ _; try dsimp only)
    | intro _
    | split

theorem State.agree_dry {z s : State} (k : Nat) (r : SealRec) (hk : Dry z s) :
    Dry z (s.agree k r) := by
  unfold State.agree
  try dsimp only
  repeat' first
    | with_reducible (first | exact hk | assumption | apply Dry.ite | apply State.setFld_dry | apply State.setReg_dry | apply State.forAll_dry | apply State.count_dry | apply State.stakeEvent_dry)
    | fail_if_no_progress with_reducible apply Dry.mk_upd
    | (intro _ _ _; try dsimp only)
    | intro _
    | split

theorem State.raiseRdx_dry {z s : State} (k index code : Nat) (job : Option Nat) (hk : Dry z s) :
    Dry z (s.raiseRdx k index code job) := by
  unfold State.raiseRdx
  try dsimp only
  repeat' first
    | with_reducible (first | exact hk | assumption | apply Dry.ite | apply State.rdxFault_dry | apply State.raiseFault_dry)
    | fail_if_no_progress with_reducible apply Dry.mk_upd
    | (intro _ _ _; try dsimp only)
    | intro _
    | split

theorem State.rdxOut_dry {z s : State} (k : Nat) (o : Outst) (code : Nat) (job : Option Nat) (hk : Dry z s) :
    Dry z (s.rdxOut k o code job) := by
  unfold State.rdxOut
  try dsimp only
  repeat' first
    | with_reducible (first | exact hk | assumption | apply Dry.ite | apply State.rdxFault_dry | apply State.faultOut_dry)
    | fail_if_no_progress with_reducible apply Dry.mk_upd
    | (intro _ _ _; try dsimp only)
    | intro _
    | split

theorem State.noteReads_dry {z s : State} (j : Job) (gs bs : List Nat) (x : Errs) (hk : Dry z s) :
    Dry z (s.noteReads j gs bs x) := by
  unfold State.noteReads
  try dsimp only
  repeat' first
    | with_reducible (first | exact hk | assumption | apply Dry.ite | apply State.quayErrs_dry | apply State.quayBadAddr_dry | apply Dry.foldl | apply Dry.foldl_fst | apply Dry.foldl_snd)
    | fail_if_no_progress with_reducible apply Dry.mk_upd
    | (intro _ _ _; try dsimp only)
    | intro _
    | split

theorem State.sendBlocks_dry {z s : State} (j : Job) (id ring p ty st : Nat) (l : List (Nat × Blk)) (hk : Dry z s) :
    Dry z (s.sendBlocks j id ring p ty st l) := by
  unfold State.sendBlocks
  try dsimp only
  repeat' first
    | with_reducible (first | exact hk | assumption | apply Dry.ite | apply State.emit_dry)
    | fail_if_no_progress with_reducible apply Dry.mk_upd
    | (intro _ _ _; try dsimp only)
    | intro _
    | split

theorem State.deliver_dry {z s : State} (j : Job) (id : Nat) (gs : List Nat) (st b : Nat) (v : Blk) (hk : Dry z s) :
    Dry z (s.deliver j id gs st b v) := by
  unfold State.deliver
  try dsimp only
  repeat' first
    | with_reducible (first | exact hk | assumption | apply Dry.ite | apply State.setQu_dry | apply State.addSat_dry)
    | fail_if_no_progress with_reducible apply Dry.mk_upd
    | (intro _ _ _; try dsimp only)
    | intro _
    | split

theorem State.forceSpill_dry {z s : State} (j : Job) (id st b : Nat) (v : Blk) (hk : Dry z s) :
    Dry z (s.forceSpill j id st b v).2 := by
  unfold State.forceSpill
  try dsimp only
  repeat' first
    | with_reducible (first | exact hk | assumption | apply Dry.ite | apply State.ptbSpill_dry)
    | fail_if_no_progress with_reducible apply Dry.mk_upd
    | (intro _ _ _; try dsimp only)
    | intro _
    | split

theorem State.deliverAlone_dry {z s : State} (j : Job) (id : Nat) (gs : List Nat) (b st : Nat) (n : Nat) (hk : Dry z s) :
    Dry z (s.deliverAlone j id gs b st n) := by
  induction n generalizing s st with
  | zero => exact hk
  | succ n ih =>
    unfold State.deliverAlone
    try dsimp only
    repeat' first
      | with_reducible (first | exact hk | assumption | apply Dry.ite | apply State.forceSpill_dry | apply State.deliver_dry | apply ih)
      | fail_if_no_progress with_reducible apply Dry.mk_upd
      | (intro _ _ _; try dsimp only)
      | intro _
      | split

theorem State.countAdded_dry {z s : State} (n : Nat) (hk : Dry z s) :
    Dry z (s.countAdded n) := by
  unfold State.countAdded
  try dsimp only
  repeat' first
    | with_reducible (first | exact hk | assumption | apply Dry.ite | apply State.setReg_dry)
    | fail_if_no_progress with_reducible apply Dry.mk_upd
    | (intro _ _ _; try dsimp only)
    | intro _
    | split

theorem State.syncJobs_dry {z s : State} (hk : Dry z s) :
    Dry z s.syncJobs := by
  unfold State.syncJobs
  try dsimp only
  repeat' first
    | with_reducible (first | exact hk | assumption | apply Dry.ite | apply State.setReg_dry | apply State.forAll_dry | apply State.syncQuay_dry | apply Dry.foldl | apply Dry.foldl_fst | apply Dry.foldl_snd)
    | fail_if_no_progress with_reducible apply Dry.mk_upd
    | (intro _ _ _; try dsimp only)
    | intro _
    | split

theorem State.freeJob_dry {z s : State} (id : Nat) (hk : Dry z s) :
    Dry z (s.freeJob id) := by
  unfold State.freeJob
  try dsimp only
  repeat' first
    | with_reducible (first | exact hk | assumption | apply Dry.ite | apply State.setReg_dry | apply State.syncJobs_dry)
    | fail_if_no_progress with_reducible apply Dry.mk_upd
    | (intro _ _ _; try dsimp only)
    | intro _
    | split

theorem State.endRjob_dry {z s : State} (id : Nat) (j : Job) (codes : List Nat) (hk : Dry z s) :
    Dry z (s.endRjob id j codes) := by
  unfold State.endRjob
  try dsimp only
  repeat' first
    | with_reducible (first | exact hk | assumption | apply Dry.ite | apply State.complete_dry | apply State.forAll_dry | apply State.rdxFault_dry | apply State.raiseFault_dry)
    | fail_if_no_progress with_reducible apply Dry.mk_upd
    | (intro _ _ _; try dsimp only)
    | intro _
    | split

theorem State.rjob_dry {z s : State} (k : Nat) (hk : Dry z s) :
    Dry z (s.rjob k) := by
  unfold State.rjob
  try dsimp only
  repeat' first
    | with_reducible (first | exact hk | assumption | apply Dry.ite | apply State.withHead_dry | apply State.raiseRdx_dry | apply State.dispatchOut_dry | apply State.setJob_dry | apply State.setReg_dry | apply State.setFld_dry)
    | fail_if_no_progress with_reducible apply Dry.mk_upd
    | (intro _ _ _; try dsimp only)
    | intro _
    | split

theorem State.beginScatter_dry {z s : State} (id : Nat) (j : Job) (ring p l : Nat) (bs : List Nat) (hk : Dry z s) :
    Dry z (s.beginScatter id j ring p l bs) := by
  unfold State.beginScatter
  try dsimp only
  repeat' first
    | with_reducible (first | exact hk | assumption | apply Dry.ite | apply State.deliverAlone_dry | apply State.sendBlocks_dry | apply Dry.foldl | apply Dry.foldl_fst | apply Dry.foldl_snd)
    | fail_if_no_progress with_reducible apply Dry.mk_upd
    | (intro _ _ _; try dsimp only)
    | intro _
    | split

theorem State.xreadHead_dry {z s : State} (k : Nat) (hk : Dry z s) :
    Dry z (s.xreadHead k) := by
  unfold State.xreadHead
  try dsimp only
  repeat' first
    | with_reducible (first | exact hk | assumption | apply Dry.ite | apply State.withHead_dry | apply State.raiseRdx_dry | apply State.dispatchOut_dry)
    | fail_if_no_progress with_reducible apply Dry.mk_upd
    | (intro _ _ _; try dsimp only)
    | intro _
    | split

theorem State.consume_dry {z s : State} (p i id : Nat) (hk : Dry z s) :
    Dry z (s.consume p i id) := by
  unfold State.consume
  try dsimp only
  repeat' first
    | with_reducible (first | exact hk | assumption | apply Dry.ite | apply State.setPt_dry)
    | fail_if_no_progress with_reducible apply Dry.mk_upd
    | (intro _ _ _; try dsimp only)
    | intro _
    | split

theorem State.takeReq_dry {z s : State} (p ty : Nat) (x : Errs) (hk : Dry z s) :
    Dry z (s.takeReq p ty x) := by
  unfold State.takeReq
  try dsimp only
  repeat' first
    | with_reducible (first | exact hk | assumption | apply Dry.ite | apply State.sendBlocks_dry | apply State.noteReads_dry | apply State.consume_dry | apply Dry.foldl | apply Dry.foldl_fst | apply Dry.foldl_snd)
    | fail_if_no_progress with_reducible apply Dry.mk_upd
    | (intro _ _ _; try dsimp only)
    | intro _
    | split

theorem State.gatherSend_dry {z s : State} (k : Nat) (hk : Dry z s) :
    Dry z (s.gatherSend k) := by
  unfold State.gatherSend
  try dsimp only
  repeat' first
    | with_reducible (first | exact hk | assumption | apply Dry.ite | apply State.setJob_dry | apply State.emit_dry)
    | fail_if_no_progress with_reducible apply Dry.mk_upd
    | (intro _ _ _; try dsimp only)
    | intro _
    | split

theorem State.jobTimeout_dry {z s : State} (id : Nat) (hk : Dry z s) :
    Dry z (s.jobTimeout id) := by
  unfold State.jobTimeout
  try dsimp only
  repeat' first
    | with_reducible (first | exact hk | assumption | apply Dry.ite | apply State.setRg_dry | apply State.freeJob_dry | apply State.endRjob_dry | apply Dry.foldl | apply Dry.foldl_fst | apply Dry.foldl_snd)
    | fail_if_no_progress with_reducible apply Dry.mk_upd
    | (intro _ _ _; try dsimp only)
    | intro _
    | split

end Sys2Proof.Machine
end

