-- ==== Sys2Proof/Laws/DryKvp.lean ====
section
/-! SUPPORT. Operations of Machine/Kvp.lean that store nothing to memory (Laws/Dry.lean). -/

namespace Sys2Proof.Machine

set_option linter.unusedTactic false
set_option linter.unreachableTactic false
set_option linter.unusedSimpArgs false

theorem State.setKv_dry {z s : State} (k : Nat) (c : Kvp) (hk : Dry z s) :
    Dry z (s.setKv k c) := by
  unfold State.setKv
  try dsimp only
  repeat' first
    | with_reducible (first | exact hk | assumption | apply Dry.ite)
    | fail_if_no_progress with_reducible apply Dry.mk_upd
    | (intro _ _ _; try dsimp only)
    | intro _
    | split

theorem State.setFreePages_dry {z s : State} (k n : Nat) (hk : Dry z s) :
    Dry z (s.setFreePages k n) := by
  unfold State.setFreePages
  try dsimp only
  repeat' first
    | with_reducible (first | exact hk | assumption | apply Dry.ite | apply State.setFld_dry)
    | fail_if_no_progress with_reducible apply Dry.mk_upd
    | (intro _ _ _; try dsimp only)
    | intro _
    | split

theorem State.countCopy_dry {z s : State} (k n : Nat) (hk : Dry z s) :
    Dry z (s.countCopy k n) := by
  unfold State.countCopy
  try dsimp only
  repeat' first
    | with_reducible (first | exact hk | assumption | apply Dry.ite | apply State.setKv_dry | apply State.setReg_dry)
    | fail_if_no_progress with_reducible apply Dry.mk_upd
    | (intro _ _ _; try dsimp only)
    | intro _
    | split

theorem State.metaPoison_dry {z s : State} (k : Nat) (hk : Dry z s) :
    Dry z (s.metaPoison k) := by
  unfold State.metaPoison
  try dsimp only
  repeat' first
    | with_reducible (first | exact hk | assumption | apply Dry.ite | apply State.setFld_dry)
    | fail_if_no_progress with_reducible apply Dry.mk_upd
    | (intro _ _ _; try dsimp only)
    | intro _
    | split

theorem State.raiseKv_dry {z s : State} (k x i code : Nat) (hk : Dry z s) :
    Dry z (s.raiseKv k x i code) := by
  unfold State.raiseKv
  try dsimp only
  repeat' first
    | with_reducible (first | exact hk | assumption | apply Dry.ite | apply State.kvpErr_dry | apply State.raiseFault_dry)
    | fail_if_no_progress with_reducible apply Dry.mk_upd
    | (intro _ _ _; try dsimp only)
    | intro _
    | split

theorem State.syncKv_dry {z s : State} (k : Nat) (hk : Dry z s) :
    Dry z (s.syncKv k) := by
  unfold State.syncKv
  try dsimp only
  repeat' first
    | with_reducible (first | exact hk | assumption | apply Dry.ite | apply State.setFld_dry)
    | fail_if_no_progress with_reducible apply Dry.mk_upd
    | (intro _ _ _; try dsimp only)
    | intro _
    | split

theorem State.kvCmd_dry {z s : State} (m : Master) (rivals : List Master) (d k : Nat) (body : State → State) (hbody : ∀ u, Dry z u → Dry z (body u)) (hk : Dry z s) :
    Dry z (s.kvCmd m rivals d k body) := by
  unfold State.kvCmd
  try dsimp only
  repeat' first
    | with_reducible (first | exact hk | assumption | apply Dry.ite | apply State.command_dry | apply State.answer_dry | apply hbody)
    | fail_if_no_progress with_reducible apply Dry.mk_upd
    | (intro _ _ _; try dsimp only)
    | intro _
    | split

end Sys2Proof.Machine
end

