-- ==== Sys2Proof/Laws/DryTcx.lean ====
section
/-! SUPPORT. Operations of Machine/Tcx.lean that store nothing to memory (Laws/Dry.lean). -/

namespace Sys2Proof.Machine

set_option linter.unusedTactic false
set_option linter.unreachableTactic false
set_option linter.unusedSimpArgs false

theorem State.setHome_dry {z s : State} (h : Nat) (v : Home) (hk : Dry z s) :
    Dry z (s.setHome h v) := by
  unfold State.setHome
  try dsimp only
  repeat' first
    | with_reducible (first | exact hk | assumption | apply Dry.ite)
    | fail_if_no_progress with_reducible apply Dry.mk_upd
    | (intro _ _ _; try dsimp only)
    | intro _
    | split

theorem State.addWatch_dry {z s : State} (h l c : Nat) (hk : Dry z s) :
    Dry z (s.addWatch h l c) := by
  unfold State.addWatch
  try dsimp only
  repeat' first
    | with_reducible (first | exact hk | assumption | apply Dry.ite | apply State.setHome_dry)
    | fail_if_no_progress with_reducible apply Dry.mk_upd
    | (intro _ _ _; try dsimp only)
    | intro _
    | split

theorem State.setThr_dry {z s : State} (t : Nat) (v : Thread) (hk : Dry z s) :
    Dry z (s.setThr t v) := by
  unfold State.setThr
  try dsimp only
  repeat' first
    | with_reducible (first | exact hk | assumption | apply Dry.ite)
    | fail_if_no_progress with_reducible apply Dry.mk_upd
    | (intro _ _ _; try dsimp only)
    | intro _
    | split

theorem State.setT_dry {z s : State} (t v : Nat) (hk : Dry z s) :
    Dry z (s.setT t v) := by
  unfold State.setT
  try dsimp only
  repeat' first
    | with_reducible (first | exact hk | assumption | apply Dry.ite | apply State.setFld_dry)
    | fail_if_no_progress with_reducible apply Dry.mk_upd
    | (intro _ _ _; try dsimp only)
    | intro _
    | split

theorem State.go_dry {z s : State} (t v : Nat) (hk : Dry z s) :
    Dry z (s.go t v) := by
  unfold State.go
  try dsimp only
  repeat' first
    | with_reducible (first | exact hk | assumption | apply Dry.ite | apply State.setT_dry)
    | fail_if_no_progress with_reducible apply Dry.mk_upd
    | (intro _ _ _; try dsimp only)
    | intro _
    | split

theorem State.setTreg_dry {z s : State} (t i v : Nat) (hk : Dry z s) :
    Dry z (s.setTreg t i v) := by
  unfold State.setTreg
  try dsimp only
  repeat' first
    | with_reducible (first | exact hk | assumption | apply Dry.ite | apply State.setThr_dry)
    | fail_if_no_progress with_reducible apply Dry.mk_upd
    | (intro _ _ _; try dsimp only)
    | intro _
    | split

theorem State.trap_dry {z s : State} (t cause tval : Nat) (hk : Dry z s) :
    Dry z (s.trap t cause tval) := by
  unfold State.trap
  try dsimp only
  repeat' first
    | with_reducible (first | exact hk | assumption | apply Dry.ite | apply State.setT_dry | apply State.setFld_dry | apply State.setTreg_dry)
    | fail_if_no_progress with_reducible apply Dry.mk_upd
    | (intro _ _ _; try dsimp only)
    | intro _
    | split

theorem State.lead_dry {z s : State} (t : Nat) (l : List (Nat × Nat)) (hk : Dry z s) :
    Dry z (s.lead t l) := by
  unfold State.lead
  try dsimp only
  repeat' first
    | with_reducible (first | exact hk | assumption | apply Dry.ite | apply State.setTreg_dry | apply State.trap_dry | apply Dry.foldl | apply Dry.foldl_fst | apply Dry.foldl_snd)
    | fail_if_no_progress with_reducible apply Dry.mk_upd
    | (intro _ _ _; try dsimp only)
    | intro _
    | split

theorem State.retire_dry {z s : State} (t rd v : Nat) (hk : Dry z s) :
    Dry z (s.retire t rd v) := by
  unfold State.retire
  try dsimp only
  repeat' first
    | with_reducible (first | exact hk | assumption | apply Dry.ite | apply State.setTreg_dry | apply State.setThr_dry | apply State.go_dry)
    | fail_if_no_progress with_reducible apply Dry.mk_upd
    | (intro _ _ _; try dsimp only)
    | intro _
    | split

theorem State.tWait_dry {z s : State} (t w word : Nat) (hk : Dry z s) :
    Dry z (s.tWait t w word) := by
  unfold State.tWait
  try dsimp only
  repeat' first
    | with_reducible (first | exact hk | assumption | apply Dry.ite | apply State.setThr_dry | apply State.go_dry)
    | fail_if_no_progress with_reducible apply Dry.mk_upd
    | (intro _ _ _; try dsimp only)
    | intro _
    | split

theorem State.setL1_dry {z s : State} (c : Nat) (l : List L1Line) (hk : Dry z s) :
    Dry z (s.setL1 c l) := by
  unfold State.setL1
  try dsimp only
  repeat' first
    | with_reducible (first | exact hk | assumption | apply Dry.ite)
    | fail_if_no_progress with_reducible apply Dry.mk_upd
    | (intro _ _ _; try dsimp only)
    | intro _
    | split

theorem State.fillAhead_dry {z s : State} (c l : Nat) (hk : Dry z s) :
    Dry z (s.fillAhead c l) := by
  unfold State.fillAhead
  try dsimp only
  repeat' first
    | with_reducible (first | exact hk | assumption | apply Dry.ite | apply State.setL1_dry | apply State.draw_dry)
    | fail_if_no_progress with_reducible apply Dry.mk_upd
    | (intro _ _ _; try dsimp only)
    | intro _
    | split

theorem State.acquire_dry {z s : State} (t a n : Nat) (hk : Dry z s) :
    Dry z (s.acquire t a n) := by
  unfold State.acquire
  try dsimp only
  repeat' first
    | with_reducible (first | exact hk | assumption | apply Dry.ite | apply State.setL1_dry)
    | fail_if_no_progress with_reducible apply Dry.mk_upd
    | (intro _ _ _; try dsimp only)
    | intro _
    | split

theorem State.nextOp_dry {z s : State} (t : Nat) (hk : Dry z s) :
    Dry z (s.nextOp t) := by
  unfold State.nextOp
  try dsimp only
  repeat' first
    | with_reducible (first | exact hk | assumption | apply Dry.ite | apply State.setThr_dry | apply State.setFld_dry)
    | fail_if_no_progress with_reducible apply Dry.mk_upd
    | (intro _ _ _; try dsimp only)
    | intro _
    | split

theorem State.keep_dry {z s : State} (agent t v : Nat) (hk : Dry z s) :
    Dry z (s.keep agent t v) := by
  unfold State.keep
  try dsimp only
  repeat' first
    | with_reducible (first | exact hk | assumption | apply Dry.ite)
    | fail_if_no_progress with_reducible apply Dry.mk_upd
    | (intro _ _ _; try dsimp only)
    | intro _
    | split

theorem State.prefetch_dry {z s : State} (t k a : Nat) (hk : Dry z s) :
    Dry z (s.prefetch t k a) := by
  unfold State.prefetch
  try dsimp only
  repeat' first
    | with_reducible (first | exact hk | assumption | apply Dry.ite | apply State.forAll_dry | apply State.fillAhead_dry)
    | fail_if_no_progress with_reducible apply Dry.mk_upd
    | (intro _ _ _; try dsimp only)
    | intro _
    | split

theorem State.setIl1_dry {z s : State} (c : Nat) (l : List Nat) (hk : Dry z s) :
    Dry z (s.setIl1 c l) := by
  unfold State.setIl1
  try dsimp only
  repeat' first
    | with_reducible (first | exact hk | assumption | apply Dry.ite)
    | fail_if_no_progress with_reducible apply Dry.mk_upd
    | (intro _ _ _; try dsimp only)
    | intro _
    | split

theorem State.ifill_dry {z s : State} (c l : Nat) (hk : Dry z s) :
    Dry z (s.ifill c l) := by
  unfold State.ifill
  try dsimp only
  repeat' first
    | with_reducible (first | exact hk | assumption | apply Dry.ite | apply State.noteCxl_dry | apply State.setIl1_dry | apply State.draw_dry)
    | fail_if_no_progress with_reducible apply Dry.mk_upd
    | (intro _ _ _; try dsimp only)
    | intro _
    | split

theorem State.asThread_dry {z s : State} (t : Nat) (lead : List (Nat × Nat)) (n : Nat) (act : State → State) (hact : ∀ u, Dry z u → Dry z (act u)) (hk : Dry z s) :
    Dry z (s.asThread t lead n act) := by
  unfold State.asThread
  try dsimp only
  repeat' first
    | with_reducible (first | exact hk | assumption | apply Dry.ite | apply State.lead_dry | apply State.trap_dry | apply State.forAll_dry | apply State.ifill_dry | apply hact)
    | fail_if_no_progress with_reducible apply Dry.mk_upd
    | (intro _ _ _; try dsimp only)
    | intro _
    | split

theorem State.xritar_dry {z s : State} (t : Nat) (lead : List (Nat × Nat)) (f3 word : Nat) (unused : List Nat) (act : State → Nat → Nat → State) (hact : ∀ u x1 x2, Dry z u → Dry z (act u x1 x2)) (hk : Dry z s) :
    Dry z (s.xritar t lead f3 word unused act) := by
  unfold State.xritar
  try dsimp only
  repeat' first
    | with_reducible (first | exact hk | assumption | apply Dry.ite | apply State.asThread_dry | apply State.trap_dry | apply hact)
    | fail_if_no_progress with_reducible apply Dry.mk_upd
    | (intro _ _ _; try dsimp only)
    | intro _
    | split

theorem State.rtAcq_dry {z s : State} (t : Nat) (lead : List (Nat × Nat)) (word : Nat) (hk : Dry z s) :
    Dry z (s.rtAcq t lead word) := by
  unfold State.rtAcq
  try dsimp only
  repeat' first
    | with_reducible (first | exact hk | assumption | apply Dry.ite | apply State.xritar_dry | apply State.acquire_dry | apply State.retire_dry)
    | fail_if_no_progress with_reducible apply Dry.mk_upd
    | (intro _ _ _; try dsimp only)
    | intro _
    | split

theorem State.taken_dry {z s : State} (t v : Nat) (hk : Dry z s) :
    Dry z (s.taken t v) := by
  unfold State.taken
  try dsimp only
  repeat' first
    | with_reducible (first | exact hk | assumption | apply Dry.ite | apply State.acquire_dry | apply State.retire_dry)
    | fail_if_no_progress with_reducible apply Dry.mk_upd
    | (intro _ _ _; try dsimp only)
    | intro _
    | split

theorem State.twaitRead_dry {z s : State} (t word a v : Nat) (hk : Dry z s) :
    Dry z (s.twaitRead t word a v) := by
  unfold State.twaitRead
  try dsimp only
  repeat' first
    | with_reducible (first | exact hk | assumption | apply Dry.ite | apply State.acquire_dry | apply State.retire_dry | apply State.addWatch_dry | apply State.tWait_dry)
    | fail_if_no_progress with_reducible apply Dry.mk_upd
    | (intro _ _ _; try dsimp only)
    | intro _
    | split

theorem State.rtTwait_dry {z s : State} (t : Nat) (lead : List (Nat × Nat)) (word : Nat) (hk : Dry z s) :
    Dry z (s.rtTwait t lead word) := by
  unfold State.rtTwait
  try dsimp only
  repeat' first
    | with_reducible (first | exact hk | assumption | apply Dry.ite | apply State.xritar_dry | apply State.trap_dry | apply State.twaitRead_dry)
    | fail_if_no_progress with_reducible apply Dry.mk_upd
    | (intro _ _ _; try dsimp only)
    | intro _
    | split

theorem State.twaitReread_dry {z s : State} (t : Nat) (hk : Dry z s) :
    Dry z (s.twaitReread t) := by
  unfold State.twaitReread
  try dsimp only
  repeat' first
    | with_reducible (first | exact hk | assumption | apply Dry.ite | apply State.twaitRead_dry)
    | fail_if_no_progress with_reducible apply Dry.mk_upd
    | (intro _ _ _; try dsimp only)
    | intro _
    | split

theorem State.rtSdesc_dry {z s : State} (t : Nat) (lead : List (Nat × Nat)) (word : Nat) (hk : Dry z s) :
    Dry z (s.rtSdesc t lead word) := by
  unfold State.rtSdesc
  try dsimp only
  repeat' first
    | with_reducible (first | exact hk | assumption | apply Dry.ite | apply State.xritar_dry | apply State.trap_dry | apply State.setThr_dry | apply State.retire_dry)
    | fail_if_no_progress with_reducible apply Dry.mk_upd
    | (intro _ _ _; try dsimp only)
    | intro _
    | split

theorem State.rtSstop_dry {z s : State} (t : Nat) (lead : List (Nat × Nat)) (word : Nat) (hk : Dry z s) :
    Dry z (s.rtSstop t lead word) := by
  unfold State.rtSstop
  try dsimp only
  repeat' first
    | with_reducible (first | exact hk | assumption | apply Dry.ite | apply State.xritar_dry | apply State.setThr_dry | apply State.retire_dry)
    | fail_if_no_progress with_reducible apply Dry.mk_upd
    | (intro _ _ _; try dsimp only)
    | intro _
    | split

theorem State.unwait_dry {z s : State} (t : Nat) (hk : Dry z s) :
    Dry z (s.unwait t) := by
  unfold State.unwait
  try dsimp only
  repeat' first
    | with_reducible (first | exact hk | assumption | apply Dry.ite | apply State.setThr_dry)
    | fail_if_no_progress with_reducible apply Dry.mk_upd
    | (intro _ _ _; try dsimp only)
    | intro _
    | split

theorem State.tcxErr_dry {z s : State} (d code core thread : Nat) (hk : Dry z s) :
    Dry z (s.tcxErr d code core thread) := by
  unfold State.tcxErr
  try dsimp only
  repeat' first
    | with_reducible (first | exact hk | assumption | apply Dry.ite | apply State.setReg_dry | apply State.setFld_dry)
    | fail_if_no_progress with_reducible apply Dry.mk_upd
    | (intro _ _ _; try dsimp only)
    | intro _
    | split

theorem State.launch_dry {z s : State} (d core thread : Nat) (hk : Dry z s) :
    Dry z (s.launch d core thread) := by
  unfold State.launch
  try dsimp only
  repeat' first
    | with_reducible (first | exact hk | assumption | apply Dry.ite | apply State.tcxErr_dry | apply State.answer_dry | apply State.setThr_dry | apply State.setTreg_dry | apply State.setFld_dry | apply State.setT_dry)
    | fail_if_no_progress with_reducible apply Dry.mk_upd
    | (intro _ _ _; try dsimp only)
    | intro _
    | split

theorem State.restart_dry {z s : State} (t host : Nat) (hk : Dry z s) :
    Dry z (s.restart t host) := by
  unfold State.restart
  try dsimp only
  repeat' first
    | with_reducible (first | exact hk | assumption | apply Dry.ite | apply State.unwait_dry | apply State.setThr_dry | apply State.forAll_dry | apply State.setTreg_dry | apply State.setFld_dry | apply State.setT_dry)
    | fail_if_no_progress with_reducible apply Dry.mk_upd
    | (intro _ _ _; try dsimp only)
    | intro _
    | split

theorem State.braceThreads_dry {z s : State} (k : Nat) (on : Bool) (hk : Dry z s) :
    Dry z (s.braceThreads k on) := by
  unfold State.braceThreads
  try dsimp only
  repeat' first
    | with_reducible (first | exact hk | assumption | apply Dry.ite | apply State.forAll_dry | apply State.setFld_dry | apply State.setT_dry)
    | fail_if_no_progress with_reducible apply Dry.mk_upd
    | (intro _ _ _; try dsimp only)
    | intro _
    | split

theorem State.idleThreads_dry {z s : State} (mask : Nat) (hk : Dry z s) :
    Dry z (s.idleThreads mask) := by
  unfold State.idleThreads
  try dsimp only
  repeat' first
    | with_reducible (first | exact hk | assumption | apply Dry.ite | apply State.forAll_dry | apply State.setL1_dry | apply State.setIl1_dry | apply State.unwait_dry | apply State.setThr_dry | apply State.setT_dry)
    | fail_if_no_progress with_reducible apply Dry.mk_upd
    | (intro _ _ _; try dsimp only)
    | intro _
    | split

end Sys2Proof.Machine
end

