-- ==== Sys2Proof/Laws/DryCoh.lean ====
section
/-! SUPPORT. Operations of Machine/Coh.lean that store nothing to memory (Laws/Dry.lean). -/

namespace Sys2Proof.Machine

set_option linter.unusedTactic false
set_option linter.unreachableTactic false
set_option linter.unusedSimpArgs false

theorem State.modHome_dry {z s : State} (h : Nat) (f : Home → Home) (hk : Dry z s) :
    Dry z (s.modHome h f) := by
  unfold State.modHome
  try dsimp only
  repeat' first
    | with_reducible (first | exact hk | assumption | apply Dry.ite | apply State.setHome_dry)
    | fail_if_no_progress with_reducible apply Dry.mk_upd
    | (intro _ _ _; try dsimp only)
    | intro _
    | split

theorem State.bump_dry {z s : State} (a : Nat) (f : Fld) (n : Nat) (hk : Dry z s) :
    Dry z (s.bump a f n) := by
  unfold State.bump
  try dsimp only
  repeat' first
    | with_reducible (first | exact hk | assumption | apply Dry.ite | apply State.setFld_dry)
    | fail_if_no_progress with_reducible apply Dry.mk_upd
    | (intro _ _ _; try dsimp only)
    | intro _
    | split

theorem State.cohErr_dry {z s : State} (code h agent : Nat) (hk : Dry z s) :
    Dry z (s.cohErr code h agent) := by
  unfold State.cohErr
  try dsimp only
  repeat' first
    | with_reducible (first | exact hk | assumption | apply Dry.ite | apply State.setReg_dry | apply State.setFld_dry)
    | fail_if_no_progress with_reducible apply Dry.mk_upd
    | (intro _ _ _; try dsimp only)
    | intro _
    | split

theorem State.homePoison_dry {z s : State} (l : Nat) (hk : Dry z s) :
    Dry z (s.homePoison l) := by
  unfold State.homePoison
  try dsimp only
  repeat' first
    | with_reducible (first | exact hk | assumption | apply Dry.ite | apply State.wrPoison_dry | apply State.touch_dry | apply State.modEvent_dry | apply State.setFld_dry)
    | fail_if_no_progress with_reducible apply Dry.mk_upd
    | (intro _ _ _; try dsimp only)
    | intro _
    | split

theorem State.copyTo_dry {z s : State} (l agent : Nat) (owned : Bool) (hk : Dry z s) :
    Dry z (s.copyTo l agent owned) := by
  unfold State.copyTo
  try dsimp only
  repeat' first
    | with_reducible (first | exact hk | assumption | apply Dry.ite)
    | fail_if_no_progress with_reducible apply Dry.mk_upd
    | (intro _ _ _; try dsimp only)
    | intro _
    | split

theorem State.dropCopies_dry {z s : State} (l keep : Nat) (hk : Dry z s) :
    Dry z (s.dropCopies l keep) := by
  unfold State.dropCopies
  try dsimp only
  repeat' first
    | with_reducible (first | exact hk | assumption | apply Dry.ite)
    | fail_if_no_progress with_reducible apply Dry.mk_upd
    | (intro _ _ _; try dsimp only)
    | intro _
    | split

theorem State.fire_dry {z s : State} (h l : Nat) (hk : Dry z s) :
    Dry z (s.fire h l) := by
  unfold State.fire
  try dsimp only
  repeat' first
    | with_reducible (first | exact hk | assumption | apply Dry.ite | apply State.modHome_dry)
    | fail_if_no_progress with_reducible apply Dry.mk_upd
    | (intro _ _ _; try dsimp only)
    | intro _
    | split

theorem State.retryReq_dry {z s : State} (h : Nat) (r : HomeReq) (hk : Dry z s) :
    Dry z (s.retryReq h r) := by
  unfold State.retryReq
  try dsimp only
  repeat' first
    | with_reducible (first | exact hk | assumption | apply Dry.ite | apply State.modHome_dry | apply State.bump_dry | apply State.answer_dry)
    | fail_if_no_progress with_reducible apply Dry.mk_upd
    | (intro _ _ _; try dsimp only)
    | intro _
    | split

theorem State.homeDone_dry {z s : State} (h : Nat) (t : Tracker) (r : Resp) (keepAs : Option Nat) (hk : Dry z s) :
    Dry z (s.homeDone h t r keepAs) := by
  unfold State.homeDone
  try dsimp only
  repeat' first
    | with_reducible (first | exact hk | assumption | apply Dry.ite | apply State.modHome_dry | apply State.answer_dry)
    | fail_if_no_progress with_reducible apply Dry.mk_upd
    | (intro _ _ _; try dsimp only)
    | intro _
    | split

theorem State.homeFar_dry {z s : State} (h : Nat) (t : Tracker) (hk : Dry z s) :
    Dry z (s.homeFar h t) := by
  unfold State.homeFar
  try dsimp only
  repeat' first
    | with_reducible (first | exact hk | assumption | apply Dry.ite | apply State.homeDone_dry | apply State.modHome_dry | apply State.setQu_dry | apply State.bump_dry)
    | fail_if_no_progress with_reducible apply Dry.mk_upd
    | (intro _ _ _; try dsimp only)
    | intro _
    | split

theorem State.snoop_dry {z s : State} (h agent tid : Nat) (wback : Bool) (hk : Dry z s) :
    Dry z (s.snoop h agent tid wback) := by
  unfold State.snoop
  try dsimp only
  repeat' first
    | with_reducible (first | exact hk | assumption | apply Dry.ite | apply State.copyTo_dry | apply State.modHome_dry)
    | fail_if_no_progress with_reducible apply Dry.mk_upd
    | (intro _ _ _; try dsimp only)
    | intro _
    | split

theorem State.trackerFree_dry {z s : State} (h : Nat) (hk : Dry z s) :
    Dry z (s.trackerFree h) := by
  unfold State.trackerFree
  try dsimp only
  repeat' first
    | with_reducible (first | exact hk | assumption | apply Dry.ite | apply State.modHome_dry)
    | fail_if_no_progress with_reducible apply Dry.mk_upd
    | (intro _ _ _; try dsimp only)
    | intro _
    | split

theorem State.coreLead_dry {z s : State} (c : Nat) (l : List (Nat × Nat)) (hk : Dry z s) :
    Dry z (s.coreLead c l) := by
  unfold State.coreLead
  try dsimp only
  repeat' first
    | with_reducible (first | exact hk | assumption | apply Dry.ite | apply State.setCore_dry | apply Dry.foldl | apply Dry.foldl_fst | apply Dry.foldl_snd)
    | fail_if_no_progress with_reducible apply Dry.mk_upd
    | (intro _ _ _; try dsimp only)
    | intro _
    | split

theorem State.dropWays_dry {z s : State} (k : Nat) (ag : List Nat) (hk : Dry z s) :
    Dry z (s.dropWays k ag) := by
  unfold State.dropWays
  try dsimp only
  repeat' first
    | with_reducible (first | exact hk | assumption | apply Dry.ite | apply Dry.foldl | apply Dry.foldl_fst | apply Dry.foldl_snd)
    | fail_if_no_progress with_reducible apply Dry.mk_upd
    | (intro _ _ _; try dsimp only)
    | intro _
    | split

end Sys2Proof.Machine
end

