-- ==== Sys2Proof/Laws/DryHif.lean ====
section
/-! SUPPORT. Operations of Machine/Hif.lean that store nothing to memory (Laws/Dry.lean). -/

namespace Sys2Proof.Machine

set_option linter.unusedTactic false
set_option linter.unreachableTactic false
set_option linter.unusedSimpArgs false

theorem State.setHq_dry {z s : State} (n : Nat) (c : Hq) (hk : Dry z s) :
    Dry z (s.setHq n c) := by
  unfold State.setHq
  try dsimp only
  repeat' first
    | with_reducible (first | exact hk | assumption | apply Dry.ite)
    | fail_if_no_progress with_reducible apply Dry.mk_upd
    | (intro _ _ _; try dsimp only)
    | intro _
    | split

theorem State.modHq_dry {z s : State} (n : Nat) (f : Hq → Hq) (hk : Dry z s) :
    Dry z (s.modHq n f) := by
  unfold State.modHq
  try dsimp only
  repeat' first
    | with_reducible (first | exact hk | assumption | apply Dry.ite | apply State.setHq_dry)
    | fail_if_no_progress with_reducible apply Dry.mk_upd
    | (intro _ _ _; try dsimp only)
    | intro _
    | split

theorem State.irqSend_dry {z s : State} (n : Nat) (hk : Dry z s) :
    Dry z (s.irqSend n) := by
  unfold State.irqSend
  try dsimp only
  repeat' first
    | with_reducible (first | exact hk | assumption | apply Dry.ite | apply State.signal_dry)
    | fail_if_no_progress with_reducible apply Dry.mk_upd
    | (intro _ _ _; try dsimp only)
    | intro _
    | split

theorem State.irqCheck_dry {z s : State} (n : Nat) (hk : Dry z s) :
    Dry z (s.irqCheck n) := by
  unfold State.irqCheck
  try dsimp only
  repeat' first
    | with_reducible (first | exact hk | assumption | apply Dry.ite | apply State.setHq_dry | apply State.irqSend_dry)
    | fail_if_no_progress with_reducible apply Dry.mk_upd
    | (intro _ _ _; try dsimp only)
    | intro _
    | split

theorem State.irqTimer_dry {z s : State} (n : Nat) (hk : Dry z s) :
    Dry z (s.irqTimer n) := by
  unfold State.irqTimer
  try dsimp only
  repeat' first
    | with_reducible (first | exact hk | assumption | apply Dry.ite | apply State.setHq_dry | apply State.irqSend_dry)
    | fail_if_no_progress with_reducible apply Dry.mk_upd
    | (intro _ _ _; try dsimp only)
    | intro _
    | split

theorem State.qpError_dry {z s : State} (n code slot : Nat) (hk : Dry z s) :
    Dry z (s.qpError n code slot) := by
  unfold State.qpError
  try dsimp only
  repeat' first
    | with_reducible (first | exact hk | assumption | apply Dry.ite | apply State.setFld_dry | apply State.setReg_dry | apply State.irqSend_dry)
    | fail_if_no_progress with_reducible apply Dry.mk_upd
    | (intro _ _ _; try dsimp only)
    | intro _
    | split

theorem State.cqLost_dry {z s : State} (n : Nat) (hk : Dry z s) :
    Dry z (s.cqLost n) := by
  unfold State.cqLost
  try dsimp only
  repeat' first
    | with_reducible (first | exact hk | assumption | apply Dry.ite | apply State.qpError_dry)
    | fail_if_no_progress with_reducible apply Dry.mk_upd
    | (intro _ _ _; try dsimp only)
    | intro _
    | split

theorem State.jOldest_dry {z s : State} (k : Nat) (hk : Dry z s) :
    Dry z (s.jOldest k) := by
  unfold State.jOldest
  try dsimp only
  repeat' first
    | with_reducible (first | exact hk | assumption | apply Dry.ite | apply State.setFld_dry | apply Dry.foldl | apply Dry.foldl_fst | apply Dry.foldl_snd)
    | fail_if_no_progress with_reducible apply Dry.mk_upd
    | (intro _ _ _; try dsimp only)
    | intro _
    | split

theorem State.endEpoch_dry {z s : State} (k cause : Nat) (hk : Dry z s) :
    Dry z (s.endEpoch k cause) := by
  unfold State.endEpoch
  try dsimp only
  repeat' first
    | with_reducible (first | exact hk | assumption | apply Dry.ite | apply State.setFld_dry | apply State.setReg_dry | apply State.forAll_dry | apply State.modHq_dry | apply State.stakeEvent_dry)
    | fail_if_no_progress with_reducible apply Dry.mk_upd
    | (intro _ _ _; try dsimp only)
    | intro _
    | split

theorem State.syncHead_dry {z s : State} (n : Nat) (hk : Dry z s) :
    Dry z (s.syncHead n) := by
  unfold State.syncHead
  try dsimp only
  repeat' first
    | with_reducible (first | exact hk | assumption | apply Dry.ite | apply State.setFld_dry)
    | fail_if_no_progress with_reducible apply Dry.mk_upd
    | (intro _ _ _; try dsimp only)
    | intro _
    | split

theorem State.putCmd_dry {z s : State} (n : Nat) (c : Cmd) (hk : Dry z s) :
    Dry z (s.putCmd n c) := by
  unfold State.putCmd
  try dsimp only
  repeat' first
    | with_reducible (first | exact hk | assumption | apply Dry.ite | apply State.modHq_dry)
    | fail_if_no_progress with_reducible apply Dry.mk_upd
    | (intro _ _ _; try dsimp only)
    | intro _
    | split

theorem State.afterReplay_dry {z s : State} (k : Nat) (hk : Dry z s) :
    Dry z (s.afterReplay k) := by
  unfold State.afterReplay
  try dsimp only
  repeat' first
    | with_reducible (first | exact hk | assumption | apply Dry.ite | apply State.noResume_dry | apply State.psqResume_dry | apply State.asuRebuild_dry | apply State.setFld_dry)
    | fail_if_no_progress with_reducible apply Dry.mk_upd
    | (intro _ _ _; try dsimp only)
    | intro _
    | split

theorem State.copyOut_dry {z s : State} (src dst : Nat) (b : List Byte) (poisoned : Bool) (hk : Dry z s) :
    Dry z (s.copyOut src dst b poisoned) := by
  unfold State.copyOut
  try dsimp only
  repeat' first
    | with_reducible (first | exact hk | assumption | apply Dry.ite | apply State.forAll_dry | apply State.send_dry)
    | fail_if_no_progress with_reducible apply Dry.mk_upd
    | (intro _ _ _; try dsimp only)
    | intro _
    | split

theorem State.deleteDone_dry {z s : State} (n : Nat) (hk : Dry z s) :
    Dry z (s.deleteDone n) := by
  unfold State.deleteDone
  try dsimp only
  repeat' first
    | with_reducible (first | exact hk | assumption | apply Dry.ite | apply State.setHq_dry | apply State.setFld_dry)
    | fail_if_no_progress with_reducible apply Dry.mk_upd
    | (intro _ _ _; try dsimp only)
    | intro _
    | split

theorem State.dbDrop_dry {z s : State} (hk : Dry z s) :
    Dry z s.dbDrop := by
  unfold State.dbDrop
  try dsimp only
  repeat' first
    | with_reducible (first | exact hk | assumption | apply Dry.ite | apply State.addSat_dry)
    | fail_if_no_progress with_reducible apply Dry.mk_upd
    | (intro _ _ _; try dsimp only)
    | intro _
    | split

theorem State.dbSq_dry {z s : State} (m : Master) (n tail gen : Nat) (hk : Dry z s) :
    Dry z (s.dbSq m n tail gen) := by
  unfold State.dbSq
  try dsimp only
  repeat' first
    | with_reducible (first | exact hk | assumption | apply Dry.ite | apply State.dbDrop_dry | apply State.setHq_dry | apply State.setFld_dry | apply State.addSat_dry | apply State.qpError_dry)
    | fail_if_no_progress with_reducible apply Dry.mk_upd
    | (intro _ _ _; try dsimp only)
    | intro _
    | split

theorem State.dbCq_dry {z s : State} (m : Master) (n head : Nat) (hk : Dry z s) :
    Dry z (s.dbCq m n head) := by
  unfold State.dbCq
  try dsimp only
  repeat' first
    | with_reducible (first | exact hk | assumption | apply Dry.ite | apply State.dbDrop_dry | apply State.setHq_dry | apply State.irqCheck_dry)
    | fail_if_no_progress with_reducible apply Dry.mk_upd
    | (intro _ _ _; try dsimp only)
    | intro _
    | split

theorem State.qpDelete_dry {z s : State} (n : Nat) (hk : Dry z s) :
    Dry z (s.qpDelete n) := by
  unfold State.qpDelete
  try dsimp only
  repeat' first
    | with_reducible (first | exact hk | assumption | apply Dry.ite | apply State.modHq_dry | apply State.deleteDone_dry)
    | fail_if_no_progress with_reducible apply Dry.mk_upd
    | (intro _ _ _; try dsimp only)
    | intro _
    | split

theorem State.qpReset_dry {z s : State} (n : Nat) (hk : Dry z s) :
    Dry z (s.qpReset n) := by
  unfold State.qpReset
  try dsimp only
  repeat' first
    | with_reducible (first | exact hk | assumption | apply Dry.ite | apply State.setHq_dry | apply State.resetRegs_dry | apply State.setFld_dry)
    | fail_if_no_progress with_reducible apply Dry.mk_upd
    | (intro _ _ _; try dsimp only)
    | intro _
    | split

theorem State.jReplay_dry {z s : State} (k : Nat) (hk : Dry z s) :
    Dry z (s.jReplay k) := by
  unfold State.jReplay
  try dsimp only
  repeat' first
    | with_reducible (first | exact hk | assumption | apply Dry.ite | apply State.setReg_dry | apply State.setFld_dry | apply State.endEpoch_dry | apply State.modHq_dry | apply State.forAll_dry | apply State.jOldest_dry | apply State.afterReplay_dry | apply Dry.foldl | apply Dry.foldl_fst | apply Dry.foldl_snd)
    | fail_if_no_progress with_reducible apply Dry.mk_upd
    | (intro _ _ _; try dsimp only)
    | intro _
    | split

end Sys2Proof.Machine
end

