-- ==== Sys2Proof/Laws/DryWeave.lean ====
section
/-! SUPPORT. Operations of Machine/Weave.lean that store nothing to memory (Laws/Dry.lean). -/

namespace Sys2Proof.Machine

set_option linter.unusedTactic false
set_option linter.unreachableTactic false
set_option linter.unusedSimpArgs false

theorem State.extend_dry {z s : State} (i : Nat) (d : BitVec 384) (hk : Dry z s) :
    Dry z (s.extend i d) := by
  unfold State.extend
  try dsimp only
  repeat' first
    | with_reducible (first | exact hk | assumption | apply Dry.ite)
    | fail_if_no_progress with_reducible apply Dry.mk_upd
    | (intro _ _ _; try dsimp only)
    | intro _
    | split

theorem State.showCap_dry {z s : State} (k : Nat) (hk : Dry z s) :
    Dry z (s.showCap k) := by
  unfold State.showCap
  try dsimp only
  repeat' first
    | with_reducible (first | exact hk | assumption | apply Dry.ite | apply State.setReg_dry | apply State.setFld_dry)
    | fail_if_no_progress with_reducible apply Dry.mk_upd
    | (intro _ _ _; try dsimp only)
    | intro _
    | split

theorem State.showWindow_dry {z s : State} (k : Nat) (hk : Dry z s) :
    Dry z (s.showWindow k) := by
  unfold State.showWindow
  try dsimp only
  repeat' first
    | with_reducible (first | exact hk | assumption | apply Dry.ite | apply State.setReg_dry | apply State.setFld_dry | apply State.forAll_dry)
    | fail_if_no_progress with_reducible apply Dry.mk_upd
    | (intro _ _ _; try dsimp only)
    | intro _
    | split

theorem State.showStake_dry {z s : State} (k : Nat) (hk : Dry z s) :
    Dry z (s.showStake k) := by
  unfold State.showStake
  try dsimp only
  repeat' first
    | with_reducible (first | exact hk | assumption | apply Dry.ite | apply State.showWindow_dry | apply State.showCap_dry | apply State.setFld_dry | apply State.setFldBit_dry | apply State.forAll_dry)
    | fail_if_no_progress with_reducible apply Dry.mk_upd
    | (intro _ _ _; try dsimp only)
    | intro _
    | split

theorem State.showQueue_dry {z s : State} (n : Nat) (hk : Dry z s) :
    Dry z (s.showQueue n) := by
  unfold State.showQueue
  try dsimp only
  repeat' first
    | with_reducible (first | exact hk | assumption | apply Dry.ite | apply State.setFld_dry)
    | fail_if_no_progress with_reducible apply Dry.mk_upd
    | (intro _ _ _; try dsimp only)
    | intro _
    | split

theorem State.showWeave_dry {z s : State} (hk : Dry z s) :
    Dry z s.showWeave := by
  unfold State.showWeave
  try dsimp only
  repeat' first
    | with_reducible (first | exact hk | assumption | apply Dry.ite | apply State.forAll_dry | apply State.showStake_dry | apply State.showQueue_dry)
    | fail_if_no_progress with_reducible apply Dry.mk_upd
    | (intro _ _ _; try dsimp only)
    | intro _
    | split

theorem State.showEng_dry {z s : State} (e : Nat) (hk : Dry z s) :
    Dry z (s.showEng e) := by
  unfold State.showEng
  try dsimp only
  repeat' first
    | with_reducible (first | exact hk | assumption | apply Dry.ite | apply State.setFld_dry)
    | fail_if_no_progress with_reducible apply Dry.mk_upd
    | (intro _ _ _; try dsimp only)
    | intro _
    | split

theorem State.showPvu_dry {z s : State} (v : Nat) (hk : Dry z s) :
    Dry z (s.showPvu v) := by
  unfold State.showPvu
  try dsimp only
  repeat' first
    | with_reducible (first | exact hk | assumption | apply Dry.ite | apply State.setFld_dry)
    | fail_if_no_progress with_reducible apply Dry.mk_upd
    | (intro _ _ _; try dsimp only)
    | intro _
    | split

theorem State.showQuay_dry {z s : State} (q : Nat) (hk : Dry z s) :
    Dry z (s.showQuay q) := by
  unfold State.showQuay
  try dsimp only
  repeat' first
    | with_reducible (first | exact hk | assumption | apply Dry.ite | apply State.setFld_dry)
    | fail_if_no_progress with_reducible apply Dry.mk_upd
    | (intro _ _ _; try dsimp only)
    | intro _
    | split

theorem State.showUnits_dry {z s : State} (eng pvu : Nat) (hk : Dry z s) :
    Dry z (s.showUnits eng pvu) := by
  unfold State.showUnits
  try dsimp only
  repeat' first
    | with_reducible (first | exact hk | assumption | apply Dry.ite | apply State.forAll_dry | apply State.showEng_dry | apply State.showPvu_dry | apply State.showQuay_dry)
    | fail_if_no_progress with_reducible apply Dry.mk_upd
    | (intro _ _ _; try dsimp only)
    | intro _
    | split

theorem State.wakeIslands_dry {z s : State} (n : Nat) (hk : Dry z s) :
    Dry z (s.wakeIslands n) := by
  unfold State.wakeIslands
  try dsimp only
  repeat' first
    | with_reducible (first | exact hk | assumption | apply Dry.ite | apply State.forAll_dry | apply State.setFld_dry)
    | fail_if_no_progress with_reducible apply Dry.mk_upd
    | (intro _ _ _; try dsimp only)
    | intro _
    | split

theorem State.turnIsland_dry {z s : State} (i : Nat) (hk : Dry z s) :
    Dry z (s.turnIsland i) := by
  unfold State.turnIsland
  try dsimp only
  repeat' first
    | with_reducible (first | exact hk | assumption | apply Dry.ite | apply State.setFld_dry)
    | fail_if_no_progress with_reducible apply Dry.mk_upd
    | (intro _ _ _; try dsimp only)
    | intro _
    | split

theorem State.releaseUnits_dry {z s : State} (hk : Dry z s) :
    Dry z s.releaseUnits := by
  unfold State.releaseUnits
  try dsimp only
  repeat' first
    | with_reducible (first | exact hk | assumption | apply Dry.ite | apply State.setFld_dry | apply State.wakeIslands_dry | apply State.showUnits_dry)
    | fail_if_no_progress with_reducible apply Dry.mk_upd
    | (intro _ _ _; try dsimp only)
    | intro _
    | split

theorem State.wvError_dry {z s : State} (e : ImgErr) (partly : Bool) (hk : Dry z s) :
    Dry z (s.wvError e partly) := by
  unfold State.wvError
  try dsimp only
  repeat' first
    | with_reducible (first | exact hk | assumption | apply Dry.ite | apply State.setReg_dry | apply State.setFld_dry)
    | fail_if_no_progress with_reducible apply Dry.mk_upd
    | (intro _ _ _; try dsimp only)
    | intro _
    | split

theorem State.showDigest_dry {z s : State} (d : BitVec 384) (hk : Dry z s) :
    Dry z (s.showDigest d) := by
  unfold State.showDigest
  try dsimp only
  repeat' first
    | with_reducible (first | exact hk | assumption | apply Dry.ite | apply State.forAll_dry | apply State.setReg_dry)
    | fail_if_no_progress with_reducible apply Dry.mk_upd
    | (intro _ _ _; try dsimp only)
    | intro _
    | split

theorem State.showPrev_dry {z s : State} (hk : Dry z s) :
    Dry z s.showPrev := by
  unfold State.showPrev
  try dsimp only
  repeat' first
    | with_reducible (first | exact hk | assumption | apply Dry.ite | apply State.forAll_dry | apply State.setReg_dry | apply State.setFld_dry)
    | fail_if_no_progress with_reducible apply Dry.mk_upd
    | (intro _ _ _; try dsimp only)
    | intro _
    | split

theorem State.weaveFailed_dry {z s : State} (hk : Dry z s) :
    Dry z s.weaveFailed := by
  unfold State.weaveFailed
  try dsimp only
  repeat' first
    | with_reducible (first | exact hk | assumption | apply Dry.ite | apply State.setFld_dry)
    | fail_if_no_progress with_reducible apply Dry.mk_upd
    | (intro _ _ _; try dsimp only)
    | intro _
    | split

theorem State.holdUnits_dry {z s : State} (hk : Dry z s) :
    Dry z s.holdUnits := by
  unfold State.holdUnits
  try dsimp only
  repeat' first
    | with_reducible (first | exact hk | assumption | apply Dry.ite | apply State.forAll_dry | apply State.setFld_dry | apply State.braceThreads_dry)
    | fail_if_no_progress with_reducible apply Dry.mk_upd
    | (intro _ _ _; try dsimp only)
    | intro _
    | split

theorem State.partEnd_dry {z s : State} (outcome : Nat) (hk : Dry z s) :
    Dry z (s.partEnd outcome) := by
  unfold State.partEnd
  try dsimp only
  repeat' first
    | with_reducible (first | exact hk | assumption | apply Dry.ite | apply State.setFld_dry)
    | fail_if_no_progress with_reducible apply Dry.mk_upd
    | (intro _ _ _; try dsimp only)
    | intro _
    | split

theorem State.partCheck_dry {z s : State} (k : Nat) (sigOk : Bool) (hk : Dry z s) :
    Dry z (s.partCheck k sigOk) := by
  unfold State.partCheck
  try dsimp only
  repeat' first
    | with_reducible (first | exact hk | assumption | apply Dry.ite | apply State.wvError_dry | apply State.partEnd_dry)
    | fail_if_no_progress with_reducible apply Dry.mk_upd
    | (intro _ _ _; try dsimp only)
    | intro _
    | split

theorem State.partStart_dry {z s : State} (k : Nat) (sigOk : Bool) (hk : Dry z s) :
    Dry z (s.partStart k sigOk) := by
  unfold State.partStart
  try dsimp only
  repeat' first
    | with_reducible (first | exact hk | assumption | apply Dry.ite | apply State.setFld_dry | apply State.partCheck_dry)
    | fail_if_no_progress with_reducible apply Dry.mk_upd
    | (intro _ _ _; try dsimp only)
    | intro _
    | split

theorem State.partQuiesce_dry {z s : State} (hk : Dry z s) :
    Dry z s.partQuiesce := by
  unfold State.partQuiesce
  try dsimp only
  repeat' first
    | with_reducible (first | exact hk | assumption | apply Dry.ite | apply State.setFld_dry | apply State.beginStop_dry)
    | fail_if_no_progress with_reducible apply Dry.mk_upd
    | (intro _ _ _; try dsimp only)
    | intro _
    | split

theorem State.partAbandon_dry {z s : State} (code : Nat) (hk : Dry z s) :
    Dry z (s.partAbandon code) := by
  unfold State.partAbandon
  try dsimp only
  repeat' first
    | with_reducible (first | exact hk | assumption | apply Dry.ite | apply State.wvError_dry | apply State.partEnd_dry | apply State.setFld_dry | apply State.autoResume_dry | apply State.stakeEvent_dry)
    | fail_if_no_progress with_reducible apply Dry.mk_upd
    | (intro _ _ _; try dsimp only)
    | intro _
    | split

theorem State.psqClear_dry {z s : State} (k : Nat) (hk : Dry z s) :
    Dry z (s.psqClear k) := by
  unfold State.psqClear
  try dsimp only
  repeat' first
    | with_reducible (first | exact hk | assumption | apply Dry.ite | apply State.setQ_dry | apply State.resetRegs_dry | apply State.setFld_dry)
    | fail_if_no_progress with_reducible apply Dry.mk_upd
    | (intro _ _ _; try dsimp only)
    | intro _
    | split

theorem State.keepPool_dry {z s : State} (k kd : Nat) (old new : StakeRec) (hk : Dry z s) :
    Dry z (s.keepPool k kd old new) := by
  unfold State.keepPool
  try dsimp only
  repeat' first
    | with_reducible (first | exact hk | assumption | apply Dry.ite | apply State.setFld_dry | apply State.setKv_dry)
    | fail_if_no_progress with_reducible apply Dry.mk_upd
    | (intro _ _ _; try dsimp only)
    | intro _
    | split

theorem State.turnQueues_dry {z s : State} (k : Nat) (hk : Dry z s) :
    Dry z (s.turnQueues k) := by
  unfold State.turnQueues
  try dsimp only
  repeat' first
    | with_reducible (first | exact hk | assumption | apply Dry.ite | apply State.forAll_dry | apply State.showQueue_dry | apply State.qpReset_dry)
    | fail_if_no_progress with_reducible apply Dry.mk_upd
    | (intro _ _ _; try dsimp only)
    | intro _
    | split

theorem State.partTimeout_dry {z s : State} (hk : Dry z s) :
    Dry z s.partTimeout := by
  unfold State.partTimeout
  try dsimp only
  repeat' first
    | with_reducible (first | exact hk | assumption | apply Dry.ite | apply State.partAbandon_dry)
    | fail_if_no_progress with_reducible apply Dry.mk_upd
    | (intro _ _ _; try dsimp only)
    | intro _
    | split

end Sys2Proof.Machine
end

