-- ==== Sys2Proof/Laws/DryBoot.lean ====
section
/-! SUPPORT. Operations of Machine/Boot.lean that store nothing to memory (Laws/Dry.lean). -/

namespace Sys2Proof.Machine

set_option linter.unusedTactic false
set_option linter.unreachableTactic false
set_option linter.unusedSimpArgs false

theorem State.showSec_dry {z s : State} (hk : Dry z s) :
    Dry z s.showSec := by
  unfold State.showSec
  try dsimp only
  repeat' first
    | with_reducible (first | exact hk | assumption | apply Dry.ite | apply State.setFld_dry | apply State.rollback_dry)
    | fail_if_no_progress with_reducible apply Dry.mk_upd
    | (intro _ _ _; try dsimp only)
    | intro _
    | split

theorem State.eraseStore_dry {z s : State} (hk : Dry z s) :
    Dry z s.eraseStore := by
  unfold State.eraseStore
  try dsimp only
  repeat' first
    | with_reducible (first | exact hk | assumption | apply Dry.ite)
    | fail_if_no_progress with_reducible apply Dry.mk_upd
    | (intro _ _ _; try dsimp only)
    | intro _
    | split

theorem State.secBoot_dry {z s : State} (sigA sigB : Bool) (hk : Dry z s) :
    Dry z (s.secBoot sigA sigB) := by
  unfold State.secBoot
  try dsimp only
  repeat' first
    | with_reducible (first | exact hk | assumption | apply Dry.ite | apply State.eraseStore_dry | apply State.extend_dry | apply State.setFld_dry | apply State.weaveFailed_dry | apply State.showSec_dry)
    | fail_if_no_progress with_reducible apply Dry.mk_upd
    | (intro _ _ _; try dsimp only)
    | intro _
    | split

end Sys2Proof.Machine
end

