-- ==== Sys2Proof/Laws/DryLock.lean ====
section
/-! SUPPORT. Operations of Machine/Lock.lean that store nothing to memory (Laws/Dry.lean). -/

namespace Sys2Proof.Machine

set_option linter.unusedTactic false
set_option linter.unreachableTactic false
set_option linter.unusedSimpArgs false

theorem State.takeCapture_dry {z s : State} (hk : Dry z s) :
    Dry z s.takeCapture := by
  unfold State.takeCapture
  try dsimp only
  repeat' first
    | with_reducible (first | exact hk | assumption | apply Dry.ite)
    | fail_if_no_progress with_reducible apply Dry.mk_upd
    | (intro _ _ _; try dsimp only)
    | intro _
    | split

theorem State.startRails_dry {z s : State} (hk : Dry z s) :
    Dry z s.startRails := by
  unfold State.startRails
  try dsimp only
  repeat' first
    | with_reducible (first | exact hk | assumption | apply Dry.ite | apply State.modLk_dry)
    | fail_if_no_progress with_reducible apply Dry.mk_upd
    | (intro _ _ _; try dsimp only)
    | intro _
    | split

theorem State.pwrRise_dry {z s : State} (hk : Dry z s) :
    Dry z s.pwrRise := by
  unfold State.pwrRise
  try dsimp only
  repeat' first
    | with_reducible (first | exact hk | assumption | apply Dry.ite | apply State.setFld_dry | apply State.modLk_dry | apply State.syncFault_dry | apply State.startRails_dry)
    | fail_if_no_progress with_reducible apply Dry.mk_upd
    | (intro _ _ _; try dsimp only)
    | intro _
    | split

theorem State.railEnable_dry {z s : State} (hk : Dry z s) :
    Dry z s.railEnable := by
  unfold State.railEnable
  try dsimp only
  repeat' first
    | with_reducible (first | exact hk | assumption | apply Dry.ite | apply State.modLk_dry)
    | fail_if_no_progress with_reducible apply Dry.mk_upd
    | (intro _ _ _; try dsimp only)
    | intro _
    | split

theorem State.railGood_dry {z s : State} (r : Nat) (hk : Dry z s) :
    Dry z (s.railGood r) := by
  unfold State.railGood
  try dsimp only
  repeat' first
    | with_reducible (first | exact hk | assumption | apply Dry.ite | apply State.setFldBit_dry | apply State.setFld_dry)
    | fail_if_no_progress with_reducible apply Dry.mk_upd
    | (intro _ _ _; try dsimp only)
    | intro _
    | split

theorem State.railTimeout_dry {z s : State} (hk : Dry z s) :
    Dry z s.railTimeout := by
  unfold State.railTimeout
  try dsimp only
  repeat' first
    | with_reducible (first | exact hk | assumption | apply Dry.ite | apply State.setFld_dry | apply State.modLk_dry | apply State.syncFault_dry)
    | fail_if_no_progress with_reducible apply Dry.mk_upd
    | (intro _ _ _; try dsimp only)
    | intro _
    | split

theorem State.latchOpt_dry {z s : State} (c : Nat) (hk : Dry z s) :
    Dry z (s.latchOpt c) := by
  unfold State.latchOpt
  try dsimp only
  repeat' first
    | with_reducible (first | exact hk | assumption | apply Dry.ite | apply State.setFld_dry | apply State.setReg_dry)
    | fail_if_no_progress with_reducible apply Dry.mk_upd
    | (intro _ _ _; try dsimp only)
    | intro _
    | split

theorem State.loadTrims_dry {z s : State} (hk : Dry z s) :
    Dry z s.loadTrims := by
  unfold State.loadTrims
  try dsimp only
  repeat' first
    | with_reducible (first | exact hk | assumption | apply Dry.ite | apply State.forAll_dry | apply State.setFld_dry | apply State.setReg_dry | apply State.showSec_dry)
    | fail_if_no_progress with_reducible apply Dry.mk_upd
    | (intro _ _ _; try dsimp only)
    | intro _
    | split

theorem State.loadRole_dry {z s : State} (hk : Dry z s) :
    Dry z s.loadRole := by
  unfold State.loadRole
  try dsimp only
  repeat' first
    | with_reducible (first | exact hk | assumption | apply Dry.ite | apply State.setFld_dry | apply State.setReg_dry)
    | fail_if_no_progress with_reducible apply Dry.mk_upd
    | (intro _ _ _; try dsimp only)
    | intro _
    | split

theorem State.optBad_dry {z s : State} (hk : Dry z s) :
    Dry z s.optBad := by
  unfold State.optBad
  try dsimp only
  repeat' first
    | with_reducible (first | exact hk | assumption | apply Dry.ite | apply State.setFld_dry | apply State.weaveFailed_dry | apply State.syncFault_dry)
    | fail_if_no_progress with_reducible apply Dry.mk_upd
    | (intro _ _ _; try dsimp only)
    | intro _
    | split

theorem State.loadEnd_dry {z s : State} (hk : Dry z s) :
    Dry z s.loadEnd := by
  unfold State.loadEnd
  try dsimp only
  repeat' first
    | with_reducible (first | exact hk | assumption | apply Dry.ite | apply State.loadTrims_dry | apply State.setFld_dry)
    | fail_if_no_progress with_reducible apply Dry.mk_upd
    | (intro _ _ _; try dsimp only)
    | intro _
    | split

theorem State.optionLoad_dry {z s : State} (samples : List Nat) (slotId : Nat) (hk : Dry z s) :
    Dry z (s.optionLoad samples slotId) := by
  unfold State.optionLoad
  try dsimp only
  repeat' first
    | with_reducible (first | exact hk | assumption | apply Dry.ite | apply State.loadEnd_dry | apply State.modLk_dry | apply State.latchOpt_dry | apply State.loadRole_dry | apply State.optBad_dry)
    | fail_if_no_progress with_reducible apply Dry.mk_upd
    | (intro _ _ _; try dsimp only)
    | intro _
    | split

theorem State.islandSettled_dry {z s : State} (i : Nat) (hk : Dry z s) :
    Dry z (s.islandSettled i) := by
  unfold State.islandSettled
  try dsimp only
  repeat' first
    | with_reducible (first | exact hk | assumption | apply Dry.ite | apply State.setFld_dry)
    | fail_if_no_progress with_reducible apply Dry.mk_upd
    | (intro _ _ _; try dsimp only)
    | intro _
    | split

theorem State.hifUp_dry {z s : State} (hk : Dry z s) :
    Dry z s.hifUp := by
  unfold State.hifUp
  try dsimp only
  repeat' first
    | with_reducible (first | exact hk | assumption | apply Dry.ite | apply State.setFld_dry)
    | fail_if_no_progress with_reducible apply Dry.mk_upd
    | (intro _ _ _; try dsimp only)
    | intro _
    | split

theorem State.reloadPvu_dry {z s : State} (v : Nat) (hk : Dry z s) :
    Dry z (s.reloadPvu v) := by
  unfold State.reloadPvu
  try dsimp only
  repeat' first
    | with_reducible (first | exact hk | assumption | apply Dry.ite | apply State.setPv_dry | apply Dry.foldl | apply Dry.foldl_fst | apply Dry.foldl_snd)
    | fail_if_no_progress with_reducible apply Dry.mk_upd
    | (intro _ _ _; try dsimp only)
    | intro _
    | split

theorem State.resumeIdle_dry {z s : State} (k : Nat) (hk : Dry z s) :
    Dry z (s.resumeIdle k) := by
  unfold State.resumeIdle
  try dsimp only
  repeat' first
    | with_reducible (first | exact hk | assumption | apply Dry.ite | apply State.noResume_dry | apply State.psqResume_dry | apply State.asuRebuild_dry)
    | fail_if_no_progress with_reducible apply Dry.mk_upd
    | (intro _ _ _; try dsimp only)
    | intro _
    | split

theorem State.unitsAgain_dry {z s : State} (hk : Dry z s) :
    Dry z s.unitsAgain := by
  unfold State.unitsAgain
  try dsimp only
  repeat' first
    | with_reducible (first | exact hk | assumption | apply Dry.ite | apply State.releaseUnits_dry | apply State.forAll_dry | apply State.showQueue_dry | apply State.reloadPvu_dry | apply State.restart_dry | apply State.resumeIdle_dry | apply State.holdUnits_dry)
    | fail_if_no_progress with_reducible apply Dry.mk_upd
    | (intro _ _ _; try dsimp only)
    | intro _
    | split

theorem State.lastUp_dry {z s : State} (hk : Dry z s) :
    Dry z s.lastUp := by
  unfold State.lastUp
  try dsimp only
  repeat' first
    | with_reducible (first | exact hk | assumption | apply Dry.ite | apply State.modLk_dry | apply State.setFld_dry | apply State.syncFault_dry)
    | fail_if_no_progress with_reducible apply Dry.mk_upd
    | (intro _ _ _; try dsimp only)
    | intro _
    | split

theorem State.stackReady_dry {z s : State} (h : Nat) (hk : Dry z s) :
    Dry z (s.stackReady h) := by
  unfold State.stackReady
  try dsimp only
  repeat' first
    | with_reducible (first | exact hk | assumption | apply Dry.ite | apply State.setFld_dry)
    | fail_if_no_progress with_reducible apply Dry.mk_upd
    | (intro _ _ _; try dsimp only)
    | intro _
    | split

theorem State.forceWrite_dry {z s : State} (m : Master) (v : Nat) (hk : Dry z s) :
    Dry z (s.forceWrite m v) := by
  unfold State.forceWrite
  try dsimp only
  repeat' first
    | with_reducible (first | exact hk | assumption | apply Dry.ite | apply State.setFld_dry | apply State.modLk_dry | apply State.wakeIslands_dry | apply Dry.foldl | apply Dry.foldl_fst | apply Dry.foldl_snd)
    | fail_if_no_progress with_reducible apply Dry.mk_upd
    | (intro _ _ _; try dsimp only)
    | intro _
    | split

end Sys2Proof.Machine
end

