-- ==== Sys2Proof/Laws/DryReset.lean ====
section
/-! SUPPORT. Operations of Machine/Reset.lean that store nothing to memory (Laws/Dry.lean). -/

namespace Sys2Proof.Machine

set_option linter.unusedTactic false
set_option linter.unreachableTactic false
set_option linter.unusedSimpArgs false

theorem State.partCut_dry {z s : State} (hk : Dry z s) :
    Dry z s.partCut := by
  unfold State.partCut
  try dsimp only
  repeat' first
    | with_reducible (first | exact hk | assumption | apply Dry.ite | apply State.partAbandon_dry)
    | fail_if_no_progress with_reducible apply Dry.mk_upd
    | (intro _ _ _; try dsimp only)
    | intro _
    | split

theorem State.warmStop_dry {z s : State} (k : Nat) (hk : Dry z s) :
    Dry z (s.warmStop k) := by
  unfold State.warmStop
  try dsimp only
  repeat' first
    | with_reducible (first | exact hk | assumption | apply Dry.ite | apply State.modLk_dry | apply State.beginStop_dry)
    | fail_if_no_progress with_reducible apply Dry.mk_upd
    | (intro _ _ _; try dsimp only)
    | intro _
    | split

theorem State.warmBegin_dry {z s : State} (cause : Nat) (hk : Dry z s) :
    Dry z (s.warmBegin cause) := by
  unfold State.warmBegin
  try dsimp only
  repeat' first
    | with_reducible (first | exact hk | assumption | apply Dry.ite | apply State.setFld_dry | apply State.modLk_dry | apply State.partCut_dry | apply State.forAll_dry | apply State.warmStop_dry)
    | fail_if_no_progress with_reducible apply Dry.mk_upd
    | (intro _ _ _; try dsimp only)
    | intro _
    | split

theorem State.clearHomes_dry {z s : State} (hk : Dry z s) :
    Dry z s.clearHomes := by
  unfold State.clearHomes
  try dsimp only
  repeat' first
    | with_reducible (first | exact hk | assumption | apply Dry.ite)
    | fail_if_no_progress with_reducible apply Dry.mk_upd
    | (intro _ _ _; try dsimp only)
    | intro _
    | split

theorem State.hifReset_dry {z s : State} (hk : Dry z s) :
    Dry z s.hifReset := by
  unfold State.hifReset
  try dsimp only
  repeat' first
    | with_reducible (first | exact hk | assumption | apply Dry.ite | apply State.resetRange_dry | apply State.setReg_dry | apply State.forAll_dry | apply State.showQueue_dry)
    | fail_if_no_progress with_reducible apply Dry.mk_upd
    | (intro _ _ _; try dsimp only)
    | intro _
    | split

theorem State.islandsDown_dry {z s : State} (hk : Dry z s) :
    Dry z s.islandsDown := by
  unfold State.islandsDown
  try dsimp only
  repeat' first
    | with_reducible (first | exact hk | assumption | apply Dry.ite | apply State.forAll_dry | apply State.setFld_dry)
    | fail_if_no_progress with_reducible apply Dry.mk_upd
    | (intro _ _ _; try dsimp only)
    | intro _
    | split

theorem State.ptbReset_dry {z s : State} (hk : Dry z s) :
    Dry z s.ptbReset := by
  unfold State.ptbReset
  try dsimp only
  repeat' first
    | with_reducible (first | exact hk | assumption | apply Dry.ite | apply State.resetRange_dry)
    | fail_if_no_progress with_reducible apply Dry.mk_upd
    | (intro _ _ _; try dsimp only)
    | intro _
    | split

theorem State.wrstLow_dry {z s : State} (hk : Dry z s) :
    Dry z s.wrstLow := by
  unfold State.wrstLow
  try dsimp only
  repeat' first
    | with_reducible (first | exact hk | assumption | apply Dry.ite | apply State.modLk_dry | apply State.warmBegin_dry)
    | fail_if_no_progress with_reducible apply Dry.mk_upd
    | (intro _ _ _; try dsimp only)
    | intro _
    | split

theorem State.wrstHigh_dry {z s : State} (hk : Dry z s) :
    Dry z s.wrstHigh := by
  unfold State.wrstHigh
  try dsimp only
  repeat' first
    | with_reducible (first | exact hk | assumption | apply Dry.ite | apply State.wrstLow_dry | apply State.modLk_dry)
    | fail_if_no_progress with_reducible apply Dry.mk_upd
    | (intro _ _ _; try dsimp only)
    | intro _
    | split

theorem State.holdRelease_dry {z s : State} (hk : Dry z s) :
    Dry z s.holdRelease := by
  unfold State.holdRelease
  try dsimp only
  repeat' first
    | with_reducible (first | exact hk | assumption | apply Dry.ite | apply State.modLk_dry)
    | fail_if_no_progress with_reducible apply Dry.mk_upd
    | (intro _ _ _; try dsimp only)
    | intro _
    | split

theorem State.linkReset_dry {z s : State} (cause : Nat) (hk : Dry z s) :
    Dry z (s.linkReset cause) := by
  unfold State.linkReset
  try dsimp only
  repeat' first
    | with_reducible (first | exact hk | assumption | apply Dry.ite | apply State.warmBegin_dry)
    | fail_if_no_progress with_reducible apply Dry.mk_upd
    | (intro _ _ _; try dsimp only)
    | intro _
    | split

theorem State.wdogLoad_dry {z s : State} (hk : Dry z s) :
    Dry z s.wdogLoad := by
  unfold State.wdogLoad
  try dsimp only
  repeat' first
    | with_reducible (first | exact hk | assumption | apply Dry.ite | apply State.setFld_dry)
    | fail_if_no_progress with_reducible apply Dry.mk_upd
    | (intro _ _ _; try dsimp only)
    | intro _
    | split

theorem State.wdogTick_dry {z s : State} (hk : Dry z s) :
    Dry z s.wdogTick := by
  unfold State.wdogTick
  try dsimp only
  repeat' first
    | with_reducible (first | exact hk | assumption | apply Dry.ite | apply State.setFld_dry)
    | fail_if_no_progress with_reducible apply Dry.mk_upd
    | (intro _ _ _; try dsimp only)
    | intro _
    | split

theorem State.wdogExpire_dry {z s : State} (hk : Dry z s) :
    Dry z s.wdogExpire := by
  unfold State.wdogExpire
  try dsimp only
  repeat' first
    | with_reducible (first | exact hk | assumption | apply Dry.ite | apply State.warmBegin_dry)
    | fail_if_no_progress with_reducible apply Dry.mk_upd
    | (intro _ _ _; try dsimp only)
    | intro _
    | split

theorem State.captureDone_dry {z s : State} (hk : Dry z s) :
    Dry z s.captureDone := by
  unfold State.captureDone
  try dsimp only
  repeat' first
    | with_reducible (first | exact hk | assumption | apply Dry.ite | apply State.takeCapture_dry)
    | fail_if_no_progress with_reducible apply Dry.mk_upd
    | (intro _ _ _; try dsimp only)
    | intro _
    | split

theorem State.dropJobs_dry {z s : State} (k : Nat) (hk : Dry z s) :
    Dry z (s.dropJobs k) := by
  unfold State.dropJobs
  try dsimp only
  repeat' first
    | with_reducible (first | exact hk | assumption | apply Dry.ite | apply State.forAll_dry | apply State.freeJob_dry | apply State.setXc_dry | apply State.setReg_dry)
    | fail_if_no_progress with_reducible apply Dry.mk_upd
    | (intro _ _ _; try dsimp only)
    | intro _
    | split

theorem State.dropContexts_dry {z s : State} (k : Nat) (hk : Dry z s) :
    Dry z (s.dropContexts k) := by
  unfold State.dropContexts
  try dsimp only
  repeat' first
    | with_reducible (first | exact hk | assumption | apply Dry.ite | apply State.forAll_dry | apply State.resetRange_dry | apply State.syncQuay_dry | apply State.asuClear_dry | apply State.setKv_dry)
    | fail_if_no_progress with_reducible apply Dry.mk_upd
    | (intro _ _ _; try dsimp only)
    | intro _
    | split

theorem State.dropWindows_dry {z s : State} (k : Nat) (hk : Dry z s) :
    Dry z (s.dropWindows k) := by
  unfold State.dropWindows
  try dsimp only
  repeat' first
    | with_reducible (first | exact hk | assumption | apply Dry.ite | apply State.forAll_dry | apply State.setFld_dry)
    | fail_if_no_progress with_reducible apply Dry.mk_upd
    | (intro _ _ _; try dsimp only)
    | intro _
    | split

theorem State.holdStake_dry {z s : State} (k : Nat) (hk : Dry z s) :
    Dry z (s.holdStake k) := by
  unfold State.holdStake
  try dsimp only
  repeat' first
    | with_reducible (first | exact hk | assumption | apply Dry.ite | apply State.setFld_dry)
    | fail_if_no_progress with_reducible apply Dry.mk_upd
    | (intro _ _ _; try dsimp only)
    | intro _
    | split

end Sys2Proof.Machine
end

