-- ==== Sys2Proof/Laws/DryBrace.lean ====
section
/-! SUPPORT. Operations of Machine/Brace.lean that store nothing to memory (Laws/Dry.lean). -/

namespace Sys2Proof.Machine

set_option linter.unusedTactic false
set_option linter.unreachableTactic false
set_option linter.unusedSimpArgs false

theorem State.braceStake_dry {z s : State} (k : Nat) (hk : Dry z s) :
    Dry z (s.braceStake k) := by
  unfold State.braceStake
  try dsimp only
  repeat' first
    | with_reducible (first | exact hk | assumption | apply Dry.ite | apply State.setFld_dry | apply State.withdraw_dry | apply State.braceThreads_dry)
    | fail_if_no_progress with_reducible apply Dry.mk_upd
    | (intro _ _ _; try dsimp only)
    | intro _
    | split

theorem State.markBraced_dry {z s : State} (v : Nat) (hk : Dry z s) :
    Dry z (s.markBraced v) := by
  unfold State.markBraced
  try dsimp only
  repeat' first
    | with_reducible (first | exact hk | assumption | apply Dry.ite | apply State.forAll_dry | apply State.setFld_dry)
    | fail_if_no_progress with_reducible apply Dry.mk_upd
    | (intro _ _ _; try dsimp only)
    | intro _
    | split

theorem State.warnOn_dry {z s : State} (hk : Dry z s) :
    Dry z s.warnOn := by
  unfold State.warnOn
  try dsimp only
  repeat' first
    | with_reducible (first | exact hk | assumption | apply Dry.ite | apply State.modLk_dry | apply State.setFld_dry | apply State.modEvent_dry | apply State.markBraced_dry | apply State.forAll_dry | apply State.braceStake_dry)
    | fail_if_no_progress with_reducible apply Dry.mk_upd
    | (intro _ _ _; try dsimp only)
    | intro _
    | split

theorem State.braceDone_dry {z s : State} (hk : Dry z s) :
    Dry z s.braceDone := by
  unfold State.braceDone
  try dsimp only
  repeat' first
    | with_reducible (first | exact hk | assumption | apply Dry.ite | apply State.setFld_dry)
    | fail_if_no_progress with_reducible apply Dry.mk_upd
    | (intro _ _ _; try dsimp only)
    | intro _
    | split

theorem State.unbraceStake_dry {z s : State} (k : Nat) (hk : Dry z s) :
    Dry z (s.unbraceStake k) := by
  unfold State.unbraceStake
  try dsimp only
  repeat' first
    | with_reducible (first | exact hk | assumption | apply Dry.ite | apply State.setFld_dry | apply State.braceThreads_dry)
    | fail_if_no_progress with_reducible apply Dry.mk_upd
    | (intro _ _ _; try dsimp only)
    | intro _
    | split

theorem State.warnOff_dry {z s : State} (hk : Dry z s) :
    Dry z s.warnOff := by
  unfold State.warnOff
  try dsimp only
  repeat' first
    | with_reducible (first | exact hk | assumption | apply Dry.ite | apply State.modLk_dry | apply State.setFld_dry | apply State.modEvent_dry | apply State.markBraced_dry | apply State.forAll_dry | apply State.unbraceStake_dry)
    | fail_if_no_progress with_reducible apply Dry.mk_upd
    | (intro _ _ _; try dsimp only)
    | intro _
    | split

theorem State.syncThrottle_dry {z s : State} (hk : Dry z s) :
    Dry z s.syncThrottle := by
  unfold State.syncThrottle
  try dsimp only
  repeat' first
    | with_reducible (first | exact hk | assumption | apply Dry.ite | apply State.setFld_dry | apply State.forAll_dry)
    | fail_if_no_progress with_reducible apply Dry.mk_upd
    | (intro _ _ _; try dsimp only)
    | intro _
    | split

theorem State.junction_dry {z s : State} (tj : Nat) (hk : Dry z s) :
    Dry z (s.junction tj) := by
  unfold State.junction
  try dsimp only
  repeat' first
    | with_reducible (first | exact hk | assumption | apply Dry.ite | apply State.setFld_dry | apply State.modLk_dry | apply State.syncThrottle_dry)
    | fail_if_no_progress with_reducible apply Dry.mk_upd
    | (intro _ _ _; try dsimp only)
    | intro _
    | split

theorem State.linkOff_dry {z s : State} (hk : Dry z s) :
    Dry z s.linkOff := by
  unfold State.linkOff
  try dsimp only
  repeat' first
    | with_reducible (first | exact hk | assumption | apply Dry.ite | apply State.setFld_dry)
    | fail_if_no_progress with_reducible apply Dry.mk_upd
    | (intro _ _ _; try dsimp only)
    | intro _
    | split

theorem State.linkOn_dry {z s : State} (width speed : Nat) (flit : Bool) (hk : Dry z s) :
    Dry z (s.linkOn width speed flit) := by
  unfold State.linkOn
  try dsimp only
  repeat' first
    | with_reducible (first | exact hk | assumption | apply Dry.ite | apply State.setFld_dry)
    | fail_if_no_progress with_reducible apply Dry.mk_upd
    | (intro _ _ _; try dsimp only)
    | intro _
    | split

theorem State.linkEnable_dry {z s : State} (b : Bool) (hk : Dry z s) :
    Dry z (s.linkEnable b) := by
  unfold State.linkEnable
  try dsimp only
  repeat' first
    | with_reducible (first | exact hk | assumption | apply Dry.ite | apply State.setFld_dry | apply State.linkOff_dry)
    | fail_if_no_progress with_reducible apply Dry.mk_upd
    | (intro _ _ _; try dsimp only)
    | intro _
    | split

theorem State.bootGo_dry {z s : State} (len : Nat) (hk : Dry z s) :
    Dry z (s.bootGo len) := by
  unfold State.bootGo
  try dsimp only
  repeat' first
    | with_reducible (first | exact hk | assumption | apply Dry.ite | apply State.answer_dry | apply State.setFld_dry | apply State.modLk_dry)
    | fail_if_no_progress with_reducible apply Dry.mk_upd
    | (intro _ _ _; try dsimp only)
    | intro _
    | split

end Sys2Proof.Machine
end

