-- ==== Sys2Proof/Laws/DryFaults.lean ====
section
/-! SUPPORT. Operations of Machine/Faults.lean that store nothing to memory (Laws/Dry.lean). -/

namespace Sys2Proof.Machine

set_option linter.unusedTactic false
set_option linter.unreachableTactic false
set_option linter.unusedSimpArgs false

theorem State.recordFault_dry {z s : State} (k kind unit : Nat) (peer : Option Nat) (nopeer : Bool) (ns : Nat) (hk : Dry z s) :
    Dry z (s.recordFault k kind unit peer nopeer ns) := by
  unfold State.recordFault
  try dsimp only
  repeat' first
    | with_reducible (first | exact hk | assumption | apply Dry.ite | apply State.setFld_dry | apply State.addSat_dry | apply State.showCap_dry | apply State.stakeEvent_dry)
    | fail_if_no_progress with_reducible apply Dry.mk_upd
    | (intro _ _ _; try dsimp only)
    | intro _
    | split

theorem State.holdWork_dry {z s : State} (k code unit : Nat) (p : Outst → Bool) (hk : Dry z s) :
    Dry z (s.holdWork k code unit p) := by
  unfold State.holdWork
  try dsimp only
  repeat' first
    | with_reducible (first | exact hk | assumption | apply Dry.ite | apply State.setOutst_dry | apply State.forAll_dry | apply State.raiseFault_dry | apply State.withdraw_dry | apply State.withdrawSome_dry)
    | fail_if_no_progress with_reducible apply Dry.mk_upd
    | (intro _ _ _; try dsimp only)
    | intro _
    | split

theorem State.moveWork_dry {z s : State} (k e u : Nat) (hk : Dry z s) :
    Dry z (s.moveWork k e u) := by
  unfold State.moveWork
  try dsimp only
  repeat' first
    | with_reducible (first | exact hk | assumption | apply Dry.ite | apply State.setOutst_dry | apply State.forAll_dry | apply State.setFld_dry | apply State.syncMxe_dry | apply State.syncDvu_dry)
    | fail_if_no_progress with_reducible apply Dry.mk_upd
    | (intro _ _ _; try dsimp only)
    | intro _
    | split

theorem State.failEngine_dry {z s : State} (e ns : Nat) (hk : Dry z s) :
    Dry z (s.failEngine e ns) := by
  unfold State.failEngine
  try dsimp only
  repeat' first
    | with_reducible (first | exact hk | assumption | apply Dry.ite | apply State.setFld_dry | apply State.moveWork_dry | apply State.recordFault_dry | apply State.holdWork_dry)
    | fail_if_no_progress with_reducible apply Dry.mk_upd
    | (intro _ _ _; try dsimp only)
    | intro _
    | split

theorem State.failPvuUnit_dry {z s : State} (v ns : Nat) (hk : Dry z s) :
    Dry z (s.failPvuUnit v ns) := by
  unfold State.failPvuUnit
  try dsimp only
  repeat' first
    | with_reducible (first | exact hk | assumption | apply Dry.ite | apply State.setFld_dry | apply State.reloadPvu_dry | apply State.recordFault_dry | apply State.holdWork_dry)
    | fail_if_no_progress with_reducible apply Dry.mk_upd
    | (intro _ _ _; try dsimp only)
    | intro _
    | split

theorem State.rehome_dry {z s : State} (k c t : Nat) (hk : Dry z s) :
    Dry z (s.rehome k c t) := by
  unfold State.rehome
  try dsimp only
  repeat' first
    | with_reducible (first | exact hk | assumption | apply Dry.ite | apply State.restart_dry | apply State.setFld_dry | apply State.unwait_dry | apply State.setThr_dry | apply State.setT_dry)
    | fail_if_no_progress with_reducible apply Dry.mk_upd
    | (intro _ _ _; try dsimp only)
    | intro _
    | split

theorem State.failCore_dry {z s : State} (c ns : Nat) (hk : Dry z s) :
    Dry z (s.failCore c ns) := by
  unfold State.failCore
  try dsimp only
  repeat' first
    | with_reducible (first | exact hk | assumption | apply Dry.ite | apply State.setL1_dry | apply State.setIl1_dry | apply State.rehome_dry | apply State.recordFault_dry | apply Dry.foldl | apply Dry.foldl_fst | apply Dry.foldl_snd)
    | fail_if_no_progress with_reducible apply Dry.mk_upd
    | (intro _ _ _; try dsimp only)
    | intro _
    | split

theorem State.coverQuay_dry {z s : State} (q : Nat) (hk : Dry z s) :
    Dry z (s.coverQuay q) := by
  unfold State.coverQuay
  try dsimp only
  repeat' first
    | with_reducible (first | exact hk | assumption | apply Dry.ite | apply State.setQu_dry | apply State.setFld_dry)
    | fail_if_no_progress with_reducible apply Dry.mk_upd
    | (intro _ _ _; try dsimp only)
    | intro _
    | split

theorem State.failLane_dry {z s : State} (p lane ns : Nat) (hk : Dry z s) :
    Dry z (s.failLane p lane ns) := by
  unfold State.failLane
  try dsimp only
  repeat' first
    | with_reducible (first | exact hk | assumption | apply Dry.ite | apply State.setPt_dry | apply State.startRetrain_dry | apply State.forAll_dry | apply State.recordFault_dry)
    | fail_if_no_progress with_reducible apply Dry.mk_upd
    | (intro _ _ _; try dsimp only)
    | intro _
    | split

theorem State.failPort_dry {z s : State} (p ns : Nat) (hk : Dry z s) :
    Dry z (s.failPort p ns) := by
  unfold State.failPort
  try dsimp only
  repeat' first
    | with_reducible (first | exact hk | assumption | apply Dry.ite | apply State.portDown_dry | apply State.forAll_dry | apply State.recordFault_dry)
    | fail_if_no_progress with_reducible apply Dry.mk_upd
    | (intro _ _ _; try dsimp only)
    | intro _
    | split

end Sys2Proof.Machine
end

