-- ==== Sys2Proof/Laws/DryRegAccess.lean ====
section
/-! SUPPORT. Operations of Machine/RegAccess.lean that store nothing to memory (Laws/Dry.lean). -/

namespace Sys2Proof.Machine

set_option linter.unusedTactic false
set_option linter.unreachableTactic false
set_option linter.unusedSimpArgs false

theorem State.regView_dry {z s : State} (a : Nat) (hk : Dry z s) :
    Dry z (s.regView a).2 := by
  unfold State.regView
  try dsimp only
  repeat' first
    | with_reducible (first | exact hk | assumption | apply Dry.ite | apply State.setFld_dry | apply State.draw_dry)
    | fail_if_no_progress with_reducible apply Dry.mk_upd
    | (intro _ _ _; try dsimp only)
    | intro _
    | split

theorem State.regRead_dry {z s : State} (a : Nat) (hk : Dry z s) :
    Dry z (s.regRead a) := by
  unfold State.regRead
  try dsimp only
  repeat' first
    | with_reducible (first | exact hk | assumption | apply Dry.ite | apply State.answer_dry | apply State.draw_dry | apply State.regView_dry | apply State.setReg_dry)
    | fail_if_no_progress with_reducible apply Dry.mk_upd
    | (intro _ _ _; try dsimp only)
    | intro _
    | split

theorem State.plainWrite_dry {z s : State} (a : Nat) (v : Word) (hk : Dry z s) :
    Dry z (s.plainWrite a v) := by
  unfold State.plainWrite
  try dsimp only
  repeat' first
    | with_reducible (first | exact hk | assumption | apply Dry.ite | apply State.answer_dry | apply State.setReg_dry)
    | fail_if_no_progress with_reducible apply Dry.mk_upd
    | (intro _ _ _; try dsimp only)
    | intro _
    | split

theorem State.guarded_dry {z s : State} (ok : Bool) (t : State) (ht : Dry z t) (hk : Dry z s) :
    Dry z (s.guarded ok t) := by
  unfold State.guarded
  try dsimp only
  repeat' first
    | with_reducible (first | exact hk | assumption | apply Dry.ite | apply State.answer_dry)
    | fail_if_no_progress with_reducible apply Dry.mk_upd
    | (intro _ _ _; try dsimp only)
    | intro _
    | split

theorem State.pvuWrite_dry {z s : State} (p o a : Nat) (v : Word) (hk : Dry z s) :
    Dry z (s.pvuWrite p o a v) := by
  unfold State.pvuWrite
  try dsimp only
  repeat' first
    | with_reducible (first | exact hk | assumption | apply Dry.ite | apply State.plainWrite_dry | apply State.setPv_dry | apply State.syncPvu_dry)
    | fail_if_no_progress with_reducible apply Dry.mk_upd
    | (intro _ _ _; try dsimp only)
    | intro _
    | split

theorem State.decCommit_dry {z s : State} (n : Nat) (hk : Dry z s) :
    Dry z (s.decCommit n) := by
  unfold State.decCommit
  try dsimp only
  repeat' first
    | with_reducible (first | exact hk | assumption | apply Dry.ite | apply State.answer_dry | apply State.setFld_dry)
    | fail_if_no_progress with_reducible apply Dry.mk_upd
    | (intro _ _ _; try dsimp only)
    | intro _
    | split

theorem State.decUncommit_dry {z s : State} (n : Nat) (hk : Dry z s) :
    Dry z (s.decUncommit n) := by
  unfold State.decUncommit
  try dsimp only
  repeat' first
    | with_reducible (first | exact hk | assumption | apply Dry.ite | apply State.answer_dry | apply State.setFld_dry)
    | fail_if_no_progress with_reducible apply Dry.mk_upd
    | (intro _ _ _; try dsimp only)
    | intro _
    | split

theorem State.decLock_dry {z s : State} (n : Nat) (hk : Dry z s) :
    Dry z (s.decLock n) := by
  unfold State.decLock
  try dsimp only
  repeat' first
    | with_reducible (first | exact hk | assumption | apply Dry.ite | apply State.answer_dry | apply State.setFld_dry)
    | fail_if_no_progress with_reducible apply Dry.mk_upd
    | (intro _ _ _; try dsimp only)
    | intro _
    | split

theorem State.decWrite_dry {z s : State} (n : Nat) (v : Word) (hk : Dry z s) :
    Dry z (s.decWrite n v) := by
  unfold State.decWrite
  try dsimp only
  repeat' first
    | with_reducible (first | exact hk | assumption | apply Dry.ite | apply State.answer_dry | apply State.decUncommit_dry | apply State.setFld_dry | apply State.decLock_dry | apply State.decCommit_dry)
    | fail_if_no_progress with_reducible apply Dry.mk_upd
    | (intro _ _ _; try dsimp only)
    | intro _
    | split

theorem State.cxtWrite_dry {z s : State} (o a : Nat) (v : Word) (hk : Dry z s) :
    Dry z (s.cxtWrite o a v) := by
  unfold State.cxtWrite
  try dsimp only
  repeat' first
    | with_reducible (first | exact hk | assumption | apply Dry.ite | apply State.decWrite_dry | apply State.answer_dry | apply State.plainWrite_dry)
    | fail_if_no_progress with_reducible apply Dry.mk_upd
    | (intro _ _ _; try dsimp only)
    | intro _
    | split

theorem State.portDo_dry {z s : State} (p cmd : Nat) (hk : Dry z s) :
    Dry z (s.portDo p cmd) := by
  unfold State.portDo
  try dsimp only
  repeat' first
    | with_reducible (first | exact hk | assumption | apply Dry.ite | apply State.cmdFast_dry | apply State.cmdFull_dry | apply State.portDown_dry)
    | fail_if_no_progress with_reducible apply Dry.mk_upd
    | (intro _ _ _; try dsimp only)
    | intro _
    | split

theorem State.twpWrite_dry {z s : State} (p o a : Nat) (v : Word) (hk : Dry z s) :
    Dry z (s.twpWrite p o a v) := by
  unfold State.twpWrite
  try dsimp only
  repeat' first
    | with_reducible (first | exact hk | assumption | apply Dry.ite | apply State.portDo_dry | apply State.winWrite_dry | apply State.answer_dry | apply State.plainWrite_dry)
    | fail_if_no_progress with_reducible apply Dry.mk_upd
    | (intro _ _ _; try dsimp only)
    | intro _
    | split

theorem State.msixWrite_dry {z s : State} (a : Nat) (v : Word) (hk : Dry z s) :
    Dry z (s.msixWrite a v) := by
  unfold State.msixWrite
  try dsimp only
  repeat' first
    | with_reducible (first | exact hk | assumption | apply Dry.ite | apply State.sendPending_dry)
    | fail_if_no_progress with_reducible apply Dry.mk_upd
    | (intro _ _ _; try dsimp only)
    | intro _
    | split

theorem State.wdogWrite_dry {z s : State} (v : Word) (hk : Dry z s) :
    Dry z (s.wdogWrite v) := by
  unfold State.wdogWrite
  try dsimp only
  repeat' first
    | with_reducible (first | exact hk | assumption | apply Dry.ite | apply State.plainWrite_dry | apply State.wdogLoad_dry)
    | fail_if_no_progress with_reducible apply Dry.mk_upd
    | (intro _ _ _; try dsimp only)
    | intro _
    | split

theorem State.wvWrite_dry {z s : State} (o a : Nat) (v : Word) (hk : Dry z s) :
    Dry z (s.wvWrite o a v) := by
  unfold State.wvWrite
  try dsimp only
  repeat' first
    | with_reducible (first | exact hk | assumption | apply Dry.ite | apply State.draw_dry | apply State.partStart_dry | apply State.setFld_dry | apply State.plainWrite_dry)
    | fail_if_no_progress with_reducible apply Dry.mk_upd
    | (intro _ _ _; try dsimp only)
    | intro _
    | split

theorem State.ptbWrite_dry {z s : State} (o a : Nat) (v : Word) (hk : Dry z s) :
    Dry z (s.ptbWrite o a v) := by
  unfold State.ptbWrite
  try dsimp only
  repeat' first
    | with_reducible (first | exact hk | assumption | apply Dry.ite | apply State.ptbArm_dry | apply State.answer_dry | apply State.plainWrite_dry)
    | fail_if_no_progress with_reducible apply Dry.mk_upd
    | (intro _ _ _; try dsimp only)
    | intro _
    | split

end Sys2Proof.Machine
end

