-- ==== Sys2Proof/Laws/DryMem.lean ====
section
/-! SUPPORT. Operations of Machine/Mem.lean that store nothing to memory (Laws/Dry.lean). -/

namespace Sys2Proof.Machine

set_option linter.unusedTactic false
set_option linter.unreachableTactic false
set_option linter.unusedSimpArgs false

theorem State.patrol_dry {z s : State} (h a ecc : Nat) (raced last : Bool) (hk : Dry z s) :
    Dry z (s.patrol h a ecc raced last) := by
  unfold State.patrol
  try dsimp only
  repeat' first
    | with_reducible (first | exact hk | assumption | apply Dry.ite | apply State.eccRead_dry | apply State.setFld_dry)
    | fail_if_no_progress with_reducible apply Dry.mk_upd
    | (intro _ _ _; try dsimp only)
    | intro _
    | split

theorem State.loseStack_dry {z s : State} (h cause : Nat) (hk : Dry z s) :
    Dry z (s.loseStack h cause) := by
  unfold State.loseStack
  try dsimp only
  repeat' first
    | with_reducible (first | exact hk | assumption | apply Dry.ite | apply State.setFld_dry | apply State.modEvent_dry | apply State.forAll_dry | apply State.endEpoch_dry)
    | fail_if_no_progress with_reducible apply Dry.mk_upd
    | (intro _ _ _; try dsimp only)
    | intro _
    | split

theorem State.stackFails_dry {z s : State} (h cause : Nat) (hk : Dry z s) :
    Dry z (s.stackFails h cause) := by
  unfold State.stackFails
  try dsimp only
  repeat' first
    | with_reducible (first | exact hk | assumption | apply Dry.ite | apply State.loseStack_dry)
    | fail_if_no_progress with_reducible apply Dry.mk_upd
    | (intro _ _ _; try dsimp only)
    | intro _
    | split

theorem State.stackTemp_dry {z s : State} (h t : Nat) (hk : Dry z s) :
    Dry z (s.stackTemp h t) := by
  unfold State.stackTemp
  try dsimp only
  repeat' first
    | with_reducible (first | exact hk | assumption | apply Dry.ite | apply State.setFld_dry | apply State.modLk_dry | apply State.syncThrottle_dry | apply State.stackFails_dry)
    | fail_if_no_progress with_reducible apply Dry.mk_upd
    | (intro _ _ _; try dsimp only)
    | intro _
    | split

theorem State.cxlOff_dry {z s : State} (p : Nat) (hk : Dry z s) :
    Dry z (s.cxlOff p) := by
  unfold State.cxlOff
  try dsimp only
  repeat' first
    | with_reducible (first | exact hk | assumption | apply Dry.ite | apply State.setFld_dry | apply State.modEvent_dry)
    | fail_if_no_progress with_reducible apply Dry.mk_upd
    | (intro _ _ _; try dsimp only)
    | intro _
    | split

theorem State.cxlOn_dry {z s : State} (p width speed : Nat) (flit device : Bool) (hk : Dry z s) :
    Dry z (s.cxlOn p width speed flit device) := by
  unfold State.cxlOn
  try dsimp only
  repeat' first
    | with_reducible (first | exact hk | assumption | apply Dry.ite | apply State.setFld_dry)
    | fail_if_no_progress with_reducible apply Dry.mk_upd
    | (intro _ _ _; try dsimp only)
    | intro _
    | split

theorem State.servedRead_dry {z s : State} (a n : Nat) (e : Errs) (hk : Dry z s) :
    Dry z (s.servedRead a n e) := by
  unfold State.servedRead
  try dsimp only
  repeat' first
    | with_reducible (first | exact hk | assumption | apply Dry.ite | apply State.readErrs_dry | apply State.answer_dry)
    | fail_if_no_progress with_reducible apply Dry.mk_upd
    | (intro _ _ _; try dsimp only)
    | intro _
    | split

theorem State.aer_dry {z s : State} (b : Nat) (hk : Dry z s) :
    Dry z (s.aer b) := by
  unfold State.aer
  try dsimp only
  repeat' first
    | with_reducible (first | exact hk | assumption | apply Dry.ite)
    | fail_if_no_progress with_reducible apply Dry.mk_upd
    | (intro _ _ _; try dsimp only)
    | intro _
    | split

theorem State.hostAnswer_dry {z s : State} (x : Access) (hk : Dry z s) :
    Dry z (s.hostAnswer x) := by
  unfold State.hostAnswer
  try dsimp only
  repeat' first
    | with_reducible (first | exact hk | assumption | apply Dry.ite | apply State.answer_dry | apply State.aer_dry)
    | fail_if_no_progress with_reducible apply Dry.mk_upd
    | (intro _ _ _; try dsimp only)
    | intro _
    | split

theorem State.hostUnsupported_dry {z s : State} (x : Access) (hk : Dry z s) :
    Dry z (s.hostUnsupported x) := by
  unfold State.hostUnsupported
  try dsimp only
  repeat' first
    | with_reducible (first | exact hk | assumption | apply Dry.ite | apply State.aer_dry | apply State.answer_dry)
    | fail_if_no_progress with_reducible apply Dry.mk_upd
    | (intro _ _ _; try dsimp only)
    | intro _
    | split

theorem State.config_dry {z s : State} (l : List (Nat × Nat)) (hk : Dry z s) :
    Dry z (s.config l) := by
  unfold State.config
  try dsimp only
  repeat' first
    | with_reducible (first | exact hk | assumption | apply Dry.ite | apply State.aer_dry | apply State.answer_dry | apply State.sendPending_dry | apply Dry.foldl | apply Dry.foldl_fst | apply Dry.foldl_snd)
    | fail_if_no_progress with_reducible apply Dry.mk_upd
    | (intro _ _ _; try dsimp only)
    | intro _
    | split

theorem State.unused_dry {z s : State} (x : Access) (hk : Dry z s) :
    Dry z (s.unused x) := by
  unfold State.unused
  try dsimp only
  repeat' first
    | with_reducible (first | exact hk | assumption | apply Dry.ite | apply State.answer_dry | apply State.hostRejected_dry | apply State.hostUnsupported_dry)
    | fail_if_no_progress with_reducible apply Dry.mk_upd
    | (intro _ _ _; try dsimp only)
    | intro _
    | split

theorem State.stageAccess_dry {z s : State} (off : Nat) (x : Access) (hk : Dry z s) :
    Dry z (s.stageAccess off x) := by
  unfold State.stageAccess
  try dsimp only
  repeat' first
    | with_reducible (first | exact hk | assumption | apply Dry.ite | apply State.answer_dry | apply State.hostUnsupported_dry | apply Dry.foldl | apply Dry.foldl_fst | apply Dry.foldl_snd)
    | fail_if_no_progress with_reducible apply Dry.mk_upd
    | (intro _ _ _; try dsimp only)
    | intro _
    | split

theorem State.bar2Answer_dry {z s : State} (x : Access) (hk : Dry z s) :
    Dry z (s.bar2Answer x) := by
  unfold State.bar2Answer
  try dsimp only
  repeat' first
    | with_reducible (first | exact hk | assumption | apply Dry.ite | apply State.addSat_dry | apply State.answer_dry | apply State.hostAnswer_dry)
    | fail_if_no_progress with_reducible apply Dry.mk_upd
    | (intro _ _ _; try dsimp only)
    | intro _
    | split

theorem State.syncRead_dry {z s : State} (hk : Dry z s) :
    Dry z s.syncRead := by
  unfold State.syncRead
  try dsimp only
  repeat' first
    | with_reducible (first | exact hk | assumption | apply Dry.ite | apply State.answer_dry)
    | fail_if_no_progress with_reducible apply Dry.mk_upd
    | (intro _ _ _; try dsimp only)
    | intro _
    | split

end Sys2Proof.Machine
end

