-- ==== Sys2Proof/Laws/DrySec.lean ====
section
/-! SUPPORT. Operations of Machine/Sec.lean that store nothing to memory (Laws/Dry.lean). -/

namespace Sys2Proof.Machine

set_option linter.unusedTactic false
set_option linter.unreachableTactic false
set_option linter.unusedSimpArgs false

theorem State.showMgmt_dry {z s : State} (cmd status : Nat) (i3c : Bool) (hk : Dry z s) :
    Dry z (s.showMgmt cmd status i3c) := by
  unfold State.showMgmt
  try dsimp only
  repeat' first
    | with_reducible (first | exact hk | assumption | apply Dry.ite | apply State.setFld_dry)
    | fail_if_no_progress with_reducible apply Dry.mk_upd
    | (intro _ _ _; try dsimp only)
    | intro _
    | split

theorem State.respond_dry {z s : State} (q : Req) (cmd status : Nat) (b : List Byte) (hk : Dry z s) :
    Dry z (s.respond q cmd status b) := by
  unfold State.respond
  try dsimp only
  repeat' first
    | with_reducible (first | exact hk | assumption | apply Dry.ite | apply State.showMgmt_dry | apply State.answer_dry)
    | fail_if_no_progress with_reducible apply Dry.mk_upd
    | (intro _ _ _; try dsimp only)
    | intro _
    | split

theorem State.openStatus_dry {z s : State} (hk : Dry z s) :
    Dry z s.openStatus.2 := by
  unfold State.openStatus
  try dsimp only
  repeat' first
    | with_reducible (first | exact hk | assumption | apply Dry.ite | apply State.draw_dry)
    | fail_if_no_progress with_reducible apply Dry.mk_upd
    | (intro _ _ _; try dsimp only)
    | intro _
    | split

theorem State.refuseCmd_dry {z s : State} (q : Req) (cmd : Nat) (hk : Dry z s) :
    Dry z (s.refuseCmd q cmd) := by
  unfold State.refuseCmd
  try dsimp only
  repeat' first
    | with_reducible (first | exact hk | assumption | apply Dry.ite | apply State.openStatus_dry | apply State.respond_dry)
    | fail_if_no_progress with_reducible apply Dry.mk_upd
    | (intro _ _ _; try dsimp only)
    | intro _
    | split

theorem State.freeBytes_dry {z s : State} (n : Nat) (hk : Dry z s) :
    Dry z (s.freeBytes n).2 := by
  unfold State.freeBytes
  try dsimp only
  repeat' first
    | with_reducible (first | exact hk | assumption | apply Dry.ite)
    | fail_if_no_progress with_reducible apply Dry.mk_upd
    | (intro _ _ _; try dsimp only)
    | intro _
    | split

theorem State.openCmd_dry {z s : State} (q : Req) (cmd : Nat) (body : State → State) (hbody : ∀ u, Dry z u → Dry z (body u)) (hk : Dry z s) :
    Dry z (s.openCmd q cmd body) := by
  unfold State.openCmd
  try dsimp only
  repeat' first
    | with_reducible (first | exact hk | assumption | apply Dry.ite | apply State.respond_dry | apply State.refuseCmd_dry | apply hbody)
    | fail_if_no_progress with_reducible apply Dry.mk_upd
    | (intro _ _ _; try dsimp only)
    | intro _
    | split

theorem State.authCmd_dry {z s : State} (q : Req) (cmd : Nat) (warn : Bool) (body : State → State) (hbody : ∀ u, Dry z u → Dry z (body u)) (hk : Dry z s) :
    Dry z (s.authCmd q cmd warn body) := by
  unfold State.authCmd
  try dsimp only
  repeat' first
    | with_reducible (first | exact hk | assumption | apply Dry.ite | apply State.respond_dry | apply State.refuseCmd_dry | apply hbody)
    | fail_if_no_progress with_reducible apply Dry.mk_upd
    | (intro _ _ _; try dsimp only)
    | intro _
    | split

theorem State.getStatus_dry {z s : State} (q : Req) (hk : Dry z s) :
    Dry z (s.getStatus q) := by
  unfold State.getStatus
  try dsimp only
  repeat' first
    | with_reducible (first | exact hk | assumption | apply Dry.ite | apply State.openCmd_dry | apply State.respond_dry)
    | fail_if_no_progress with_reducible apply Dry.mk_upd
    | (intro _ _ _; try dsimp only)
    | intro _
    | split

theorem State.getNonce_dry {z s : State} (q : Req) (hk : Dry z s) :
    Dry z (s.getNonce q) := by
  unfold State.getNonce
  try dsimp only
  repeat' first
    | with_reducible (first | exact hk | assumption | apply Dry.ite | apply State.openCmd_dry | apply State.freeBytes_dry | apply State.respond_dry)
    | fail_if_no_progress with_reducible apply Dry.mk_upd
    | (intro _ _ _; try dsimp only)
    | intro _
    | split

theorem State.getLog_dry {z s : State} (q : Req) (off : Nat) (hk : Dry z s) :
    Dry z (s.getLog q off) := by
  unfold State.getLog
  try dsimp only
  repeat' first
    | with_reducible (first | exact hk | assumption | apply Dry.ite | apply State.openCmd_dry | apply State.respond_dry)
    | fail_if_no_progress with_reducible apply Dry.mk_upd
    | (intro _ _ _; try dsimp only)
    | intro _
    | split

theorem State.flashWrite_dry {z s : State} (q : Req) (off : Nat) (data : List Byte) (hk : Dry z s) :
    Dry z (s.flashWrite q off data) := by
  unfold State.flashWrite
  try dsimp only
  repeat' first
    | with_reducible (first | exact hk | assumption | apply Dry.ite | apply State.authCmd_dry | apply State.refuseCmd_dry | apply State.respond_dry | apply Dry.foldl | apply Dry.foldl_fst | apply Dry.foldl_snd)
    | fail_if_no_progress with_reducible apply Dry.mk_upd
    | (intro _ _ _; try dsimp only)
    | intro _
    | split

theorem State.flashCommit_dry {z s : State} (q : Req) (region len : Nat) (sigOk : Bool) (hk : Dry z s) :
    Dry z (s.flashCommit q region len sigOk) := by
  unfold State.flashCommit
  try dsimp only
  repeat' first
    | with_reducible (first | exact hk | assumption | apply Dry.ite | apply State.authCmd_dry | apply State.showSec_dry | apply State.respond_dry | apply State.refuseCmd_dry)
    | fail_if_no_progress with_reducible apply Dry.mk_upd
    | (intro _ _ _; try dsimp only)
    | intro _
    | split

theorem State.endBusy_dry {z s : State} (hk : Dry z s) :
    Dry z s.endBusy := by
  unfold State.endBusy
  try dsimp only
  repeat' first
    | with_reducible (first | exact hk | assumption | apply Dry.ite | apply State.showSec_dry | apply State.showMgmt_dry)
    | fail_if_no_progress with_reducible apply Dry.mk_upd
    | (intro _ _ _; try dsimp only)
    | intro _
    | split

theorem State.flashDone_dry {z s : State} (hk : Dry z s) :
    Dry z s.flashDone := by
  unfold State.flashDone
  try dsimp only
  repeat' first
    | with_reducible (first | exact hk | assumption | apply Dry.ite | apply State.endBusy_dry)
    | fail_if_no_progress with_reducible apply Dry.mk_upd
    | (intro _ _ _; try dsimp only)
    | intro _
    | split

theorem State.reconfig_dry {z s : State} (hk : Dry z s) :
    Dry z s.reconfig := by
  unfold State.reconfig
  try dsimp only
  repeat' first
    | with_reducible (first | exact hk | assumption | apply Dry.ite | apply State.extend_dry | apply State.showSec_dry)
    | fail_if_no_progress with_reducible apply Dry.mk_upd
    | (intro _ _ _; try dsimp only)
    | intro _
    | split

theorem State.enroll_dry {z s : State} (q : Req) (d : BitVec 384) (hk : Dry z s) :
    Dry z (s.enroll q d) := by
  unfold State.enroll
  try dsimp only
  repeat' first
    | with_reducible (first | exact hk | assumption | apply Dry.ite | apply State.authCmd_dry | apply State.refuseCmd_dry | apply State.reconfig_dry | apply State.respond_dry)
    | fail_if_no_progress with_reducible apply Dry.mk_upd
    | (intro _ _ _; try dsimp only)
    | intro _
    | split

theorem State.revoke_dry {z s : State} (q : Req) (slot : Nat) (hk : Dry z s) :
    Dry z (s.revoke q slot) := by
  unfold State.revoke
  try dsimp only
  repeat' first
    | with_reducible (first | exact hk | assumption | apply Dry.ite | apply State.authCmd_dry | apply State.refuseCmd_dry | apply State.reconfig_dry | apply State.respond_dry)
    | fail_if_no_progress with_reducible apply Dry.mk_upd
    | (intro _ _ _; try dsimp only)
    | intro _
    | split

theorem State.advanceMin_dry {z s : State} (q : Req) (v : Nat) (hk : Dry z s) :
    Dry z (s.advanceMin q v) := by
  unfold State.advanceMin
  try dsimp only
  repeat' first
    | with_reducible (first | exact hk | assumption | apply Dry.ite | apply State.authCmd_dry | apply State.rollback_dry | apply State.refuseCmd_dry | apply State.reconfig_dry | apply State.respond_dry)
    | fail_if_no_progress with_reducible apply Dry.mk_upd
    | (intro _ _ _; try dsimp only)
    | intro _
    | split

theorem State.secretPut_dry {z s : State} (q : Req) (idx : Nat) (data : List Byte) (hk : Dry z s) :
    Dry z (s.secretPut q idx data) := by
  unfold State.secretPut
  try dsimp only
  repeat' first
    | with_reducible (first | exact hk | assumption | apply Dry.ite | apply State.authCmd_dry | apply State.refuseCmd_dry | apply State.showSec_dry | apply State.respond_dry)
    | fail_if_no_progress with_reducible apply Dry.mk_upd
    | (intro _ _ _; try dsimp only)
    | intro _
    | split

theorem State.debugOpenDone_dry {z s : State} (hk : Dry z s) :
    Dry z s.debugOpenDone := by
  unfold State.debugOpenDone
  try dsimp only
  repeat' first
    | with_reducible (first | exact hk | assumption | apply Dry.ite | apply State.eraseStore_dry | apply State.endBusy_dry | apply State.setFld_dry)
    | fail_if_no_progress with_reducible apply Dry.mk_upd
    | (intro _ _ _; try dsimp only)
    | intro _
    | split

theorem State.nonceExpiry_dry {z s : State} (hk : Dry z s) :
    Dry z s.nonceExpiry := by
  unfold State.nonceExpiry
  try dsimp only
  repeat' first
    | with_reducible (first | exact hk | assumption | apply Dry.ite)
    | fail_if_no_progress with_reducible apply Dry.mk_upd
    | (intro _ _ _; try dsimp only)
    | intro _
    | split

end Sys2Proof.Machine
end

