-- ==== Sys2Proof/Laws/DrySpdm.lean ====
section
/-! SUPPORT. Operations of Machine/Spdm.lean that store nothing to memory (Laws/Dry.lean). -/

namespace Sys2Proof.Machine

set_option linter.unusedTactic false
set_option linter.unreachableTactic false
set_option linter.unusedSimpArgs false

theorem State.setSp_dry {z s : State} (i3c : Bool) (v : Spdm) (hk : Dry z s) :
    Dry z (s.setSp i3c v) := by
  unfold State.setSp
  try dsimp only
  repeat' first
    | with_reducible (first | exact hk | assumption | apply Dry.ite)
    | fail_if_no_progress with_reducible apply Dry.mk_upd
    | (intro _ _ _; try dsimp only)
    | intro _
    | split

theorem State.spErr_dry {z s : State} (code : Nat) (hk : Dry z s) :
    Dry z (s.spErr code) := by
  unfold State.spErr
  try dsimp only
  repeat' first
    | with_reducible (first | exact hk | assumption | apply Dry.ite | apply State.answer_dry)
    | fail_if_no_progress with_reducible apply Dry.mk_upd
    | (intro _ _ _; try dsimp only)
    | intro _
    | split

theorem State.spReq_dry {z s : State} (i3c : Bool) (phase : Nat) (body : State → Spdm → State) (hbody : ∀ u x1, Dry z u → Dry z (body u x1)) (hk : Dry z s) :
    Dry z (s.spReq i3c phase body) := by
  unfold State.spReq
  try dsimp only
  repeat' first
    | with_reducible (first | exact hk | assumption | apply Dry.ite | apply State.spErr_dry | apply hbody)
    | fail_if_no_progress with_reducible apply Dry.mk_upd
    | (intro _ _ _; try dsimp only)
    | intro _
    | split

theorem State.spSess_dry {z s : State} (i3c : Bool) (body : State → Spdm → State) (hbody : ∀ u x1, Dry z u → Dry z (body u x1)) (hk : Dry z s) :
    Dry z (s.spSess i3c body) := by
  unfold State.spSess
  try dsimp only
  repeat' first
    | with_reducible (first | exact hk | assumption | apply Dry.ite | apply State.spReq_dry | apply State.spErr_dry | apply hbody)
    | fail_if_no_progress with_reducible apply Dry.mk_upd
    | (intro _ _ _; try dsimp only)
    | intro _
    | split

theorem State.spSigned_dry {z s : State} (code : Nat) (b : List Byte) (hk : Dry z s) :
    Dry z (s.spSigned code b) := by
  unfold State.spSigned
  try dsimp only
  repeat' first
    | with_reducible (first | exact hk | assumption | apply Dry.ite | apply State.freeBytes_dry | apply State.answer_dry)
    | fail_if_no_progress with_reducible apply Dry.mk_upd
    | (intro _ _ _; try dsimp only)
    | intro _
    | split

end Sys2Proof.Machine
end

