-- ==== Sys2Proof/Laws/DryRuns.lean ====
section
/-! SUPPORT. The commands that store nothing to memory. -/

namespace Sys2Proof.Machine

set_option linter.unusedTactic false
set_option linter.unreachableTactic false

/-- The outcome is a next state, in which memory is the same. -/
def Drys (s : State) (o : Host.Outcome State Fault Refusal) : Prop := ∃ t, o = .next t ∧ Dry s t

theorem Dry.got {z t : State} {b : Bool} {p : State × Bool} (e : some p = some (t, b)) (h : Dry z p.1) : Dry z t := by
  cases e; exact h

theorem execProgramFetch_drys (k : Fin 16) (x : Strm) (s : State) : Drys s (execProgramFetch k x s) := by
  refine ⟨_, rfl, ?_⟩
  have hk := Dry.refl s
  repeat' first
    | with_reducible (first | assumption | apply Dry.ite | apply State.programFetch_dry)
    | (intro _ _ _; try dsimp only)
    | intro _
    | split

theorem execNop_drys (k : Fin 16) (x : Strm) (s : State) : Drys s (execNop k x s) := by
  refine ⟨_, rfl, ?_⟩
  have hk := Dry.refl s
  repeat' first
    | with_reducible (first | assumption | apply Dry.ite | apply State.withHead_dry | apply State.dispatchDone_dry)
    | (intro _ _ _; try dsimp only)
    | intro _
    | split

theorem execJump_drys (k : Fin 16) (x : Strm) (s : State) : Drys s (execJump k x s) := by
  refine ⟨_, rfl, ?_⟩
  have hk := Dry.refl s
  repeat' first
    | with_reducible (first | assumption | apply Dry.ite | apply State.withHead_dry | apply State.raiseFault_dry | apply State.dispatchDone_dry)
    | (intro _ _ _; try dsimp only)
    | intro _
    | split

theorem execMbegin_drys (k : Fin 16) (s : State) : Drys s (execMbegin k s) := by
  refine ⟨_, rfl, ?_⟩
  have hk := Dry.refl s
  repeat' first
    | with_reducible (first | assumption | apply Dry.ite | apply State.mbegin_dry)
    | (intro _ _ _; try dsimp only)
    | intro _
    | split

theorem execMend_drys (k : Fin 16) (s : State) : Drys s (execMend k s) := by
  refine ⟨_, rfl, ?_⟩
  have hk := Dry.refl s
  repeat' first
    | with_reducible (first | assumption | apply Dry.ite | apply State.mend_dry)
    | (intro _ _ _; try dsimp only)
    | intro _
    | split

theorem execSeal_drys (k : Fin 16) (s : State) : Drys s (execSeal k s) := by
  refine ⟨_, rfl, ?_⟩
  have hk := Dry.refl s
  repeat' first
    | with_reducible (first | assumption | apply Dry.ite | apply State.sealBegin_dry)
    | (intro _ _ _; try dsimp only)
    | intro _
    | split

theorem execSclose_drys (k : Fin 16) (x : Strm) (s : State) : Drys s (execSclose k x s) := by
  refine ⟨_, rfl, ?_⟩
  have hk := Dry.refl s
  repeat' first
    | with_reducible (first | assumption | apply Dry.ite | apply State.sclose_dry)
    | (intro _ _ _; try dsimp only)
    | intro _
    | split

theorem execStart_drys (m : Master) (rivals : List Master) (k : Fin 16) (s : State) : Drys s (execStart m rivals k s) := by
  refine ⟨_, rfl, ?_⟩
  have hk := Dry.refl s
  repeat' first
    | with_reducible (first | assumption | apply Dry.ite | apply State.command_dry | apply State.psqDo_dry)
    | (intro _ _ _; try dsimp only)
    | intro _
    | split

theorem execStop_drys (m : Master) (rivals : List Master) (k : Fin 16) (s : State) : Drys s (execStop m rivals k s) := by
  refine ⟨_, rfl, ?_⟩
  have hk := Dry.refl s
  repeat' first
    | with_reducible (first | assumption | apply Dry.ite | apply State.command_dry | apply State.psqDo_dry)
    | (intro _ _ _; try dsimp only)
    | intro _
    | split

theorem execResume_drys (m : Master) (rivals : List Master) (k : Fin 16) (skip : Nat) (s : State) : Drys s (execResume m rivals k skip s) := by
  refine ⟨_, rfl, ?_⟩
  have hk := Dry.refl s
  repeat' first
    | with_reducible (first | assumption | apply Dry.ite | apply State.command_dry | apply State.psqDo_dry)
    | (intro _ _ _; try dsimp only)
    | intro _
    | split

theorem execRestore_drys (m : Master) (rivals : List Master) (k : Fin 16) (s : State) : Drys s (execRestore m rivals k s) := by
  refine ⟨_, rfl, ?_⟩
  have hk := Dry.refl s
  repeat' first
    | with_reducible (first | assumption | apply Dry.ite | apply State.command_dry | apply State.psqDo_dry)
    | (intro _ _ _; try dsimp only)
    | intro _
    | split

theorem execVx_drys (k : Fin 16) (x : Strm) (s : State) : Drys s (execVx k x s) := by
  refine ⟨_, rfl, ?_⟩
  have hk := Dry.refl s
  repeat' first
    | with_reducible (first | assumption | apply Dry.ite | apply State.vx_dry)
    | (intro _ _ _; try dsimp only)
    | intro _
    | split

theorem execMxf_drys (k : Fin 16) (x : Strm) (s : State) : Drys s (execMxf k x s) := by
  refine ⟨_, rfl, ?_⟩
  have hk := Dry.refl s
  repeat' first
    | with_reducible (first | assumption | apply Dry.ite | apply State.mxDispatch_dry)
    | (intro _ _ _; try dsimp only)
    | intro _
    | split

theorem execMxb_drys (k : Fin 16) (x : Strm) (s : State) : Drys s (execMxb k x s) := by
  refine ⟨_, rfl, ?_⟩
  have hk := Dry.refl s
  repeat' first
    | with_reducible (first | assumption | apply Dry.ite | apply State.mxDispatch_dry)
    | (intro _ _ _; try dsimp only)
    | intro _
    | split

theorem execMxw_drys (k : Fin 16) (x : Strm) (s : State) : Drys s (execMxw k x s) := by
  refine ⟨_, rfl, ?_⟩
  have hk := Dry.refl s
  repeat' first
    | with_reducible (first | assumption | apply Dry.ite | apply State.mxDispatch_dry)
    | (intro _ _ _; try dsimp only)
    | intro _
    | split

theorem execMxIssue_drys (e : Fin 32) (latch feed drain token : Nat) (released : Bool) (errs : Errs) (s : State) : Drys s (execMxIssue e latch feed drain token released errs s) := by
  refine ⟨_, rfl, ?_⟩
  have hk := Dry.refl s
  repeat' first
    | with_reducible (first | assumption | apply Dry.ite | apply State.mxIssue_dry)
    | (intro _ _ _; try dsimp only)
    | intro _
    | split

theorem execQupd_drys (k : Fin 16) (s : State) : Drys s (execQupd k s) := by
  refine ⟨_, rfl, ?_⟩
  have hk := Dry.refl s
  repeat' first
    | with_reducible (first | assumption | apply Dry.ite | apply State.quayTensorOp_dry)
    | (intro _ _ _; try dsimp only)
    | intro _
    | split

theorem execQbind_drys (k : Fin 16) (s : State) : Drys s (execQbind k s) := by
  refine ⟨_, rfl, ?_⟩
  have hk := Dry.refl s
  repeat' first
    | with_reducible (first | assumption | apply Dry.ite | apply State.qbind_dry)
    | (intro _ _ _; try dsimp only)
    | intro _
    | split

theorem execQclr_drys (k : Fin 16) (s : State) : Drys s (execQclr k s) := by
  refine ⟨_, rfl, ?_⟩
  have hk := Dry.refl s
  repeat' first
    | with_reducible (first | assumption | apply Dry.ite | apply State.quayTensorOp_dry)
    | (intro _ _ _; try dsimp only)
    | intro _
    | split

theorem execQemit_drys (k : Fin 16) (s : State) : Drys s (execQemit k s) := by
  refine ⟨_, rfl, ?_⟩
  have hk := Dry.refl s
  repeat' first
    | with_reducible (first | assumption | apply Dry.ite | apply State.quayTensorOp_dry)
    | (intro _ _ _; try dsimp only)
    | intro _
    | split

theorem execQuayReserve_drys (e : Fin 32) (wait : Nat) (s : State) : Drys s (execQuayReserve e wait s) := by
  refine ⟨_, rfl, ?_⟩
  have hk := Dry.refl s
  repeat' first
    | with_reducible (first | assumption | apply Dry.ite | apply State.quayReserve_dry)
    | (intro _ _ _; try dsimp only)
    | intro _
    | split

theorem execQuayReservationGrant_drys (q : Fin 16) (wait : Nat) (s : State) : Drys s (execQuayReservationGrant q wait s) := by
  refine ⟨_, rfl, ?_⟩
  have hk := Dry.refl s
  repeat' first
    | with_reducible (first | assumption | apply Dry.ite | apply State.quayGrant_dry)
    | (intro _ _ _; try dsimp only)
    | intro _
    | split

theorem execQuaySliceArrive_drys (e : Fin 32) (s : State) : Drys s (execQuaySliceArrive e s) := by
  refine ⟨_, rfl, ?_⟩
  have hk := Dry.refl s
  repeat' first
    | with_reducible (first | assumption | apply Dry.ite | apply State.sliceArrive_dry)
    | (intro _ _ _; try dsimp only)
    | intro _
    | split

theorem execReducedBlockArrive_drys (q : Fin 16) (s : State) : Drys s (execReducedBlockArrive q s) := by
  refine ⟨_, rfl, ?_⟩
  have hk := Dry.refl s
  repeat' first
    | with_reducible (first | assumption | apply Dry.ite | apply State.blockArrive_dry)
    | (intro _ _ _; try dsimp only)
    | intro _
    | split

theorem execPvOp_drys (k : Fin 16) (x : Strm) (s : State) : Drys s (execPvOp k x s) := by
  refine ⟨_, rfl, ?_⟩
  have hk := Dry.refl s
  repeat' first
    | with_reducible (first | assumption | apply Dry.ite | apply State.pvHead_dry)
    | (intro _ _ _; try dsimp only)
    | intro _
    | split

theorem execPvLd_drys (k : Fin 16) (x : Strm) (s : State) : Drys s (execPvLd k x s) := by
  refine ⟨_, rfl, ?_⟩
  have hk := Dry.refl s
  repeat' first
    | with_reducible (first | assumption | apply Dry.ite | apply State.pvHead_dry)
    | (intro _ _ _; try dsimp only)
    | intro _
    | split

theorem execPvSt_drys (k : Fin 16) (x : Strm) (s : State) : Drys s (execPvSt k x s) := by
  refine ⟨_, rfl, ?_⟩
  have hk := Dry.refl s
  repeat' first
    | with_reducible (first | assumption | apply Dry.ite | apply State.pvHead_dry)
    | (intro _ _ _; try dsimp only)
    | intro _
    | split

theorem execPvSplat_drys (k : Fin 16) (x : Strm) (s : State) : Drys s (execPvSplat k x s) := by
  refine ⟨_, rfl, ?_⟩
  have hk := Dry.refl s
  repeat' first
    | with_reducible (first | assumption | apply Dry.ite | apply State.pvHead_dry)
    | (intro _ _ _; try dsimp only)
    | intro _
    | split

theorem execPvLred_drys (k : Fin 16) (x : Strm) (s : State) : Drys s (execPvLred k x s) := by
  refine ⟨_, rfl, ?_⟩
  have hk := Dry.refl s
  repeat' first
    | with_reducible (first | assumption | apply Dry.ite | apply State.pvHead_dry)
    | (intro _ _ _; try dsimp only)
    | intro _
    | split

theorem execPvBcast_drys (k : Fin 16) (x : Strm) (s : State) : Drys s (execPvBcast k x s) := by
  refine ⟨_, rfl, ?_⟩
  have hk := Dry.refl s
  repeat' first
    | with_reducible (first | assumption | apply Dry.ite | apply State.pvHead_dry)
    | (intro _ _ _; try dsimp only)
    | intro _
    | split

theorem execPvCmpgt_drys (k : Fin 16) (x : Strm) (s : State) : Drys s (execPvCmpgt k x s) := by
  refine ⟨_, rfl, ?_⟩
  have hk := Dry.refl s
  repeat' first
    | with_reducible (first | assumption | apply Dry.ite | apply State.pvHead_dry)
    | (intro _ _ _; try dsimp only)
    | intro _
    | split

theorem execPvSel_drys (k : Fin 16) (x : Strm) (s : State) : Drys s (execPvSel k x s) := by
  refine ⟨_, rfl, ?_⟩
  have hk := Dry.refl s
  repeat' first
    | with_reducible (first | assumption | apply Dry.ite | apply State.pvHead_dry)
    | (intro _ _ _; try dsimp only)
    | intro _
    | split

theorem execPtbArm_drys (m : Master) (v : Word) (s : State) : Drys s (execPtbArm m v s) := by
  refine ⟨_, rfl, ?_⟩
  have hk := Dry.refl s
  repeat' first
    | with_reducible (first | assumption | apply Dry.ite | apply State.command_dry | apply State.ptbArm_dry)
    | (intro _ _ _; try dsimp only)
    | intro _
    | split

theorem execTsend_drys (k : Fin 16) (x : Strm) (s : State) : Drys s (execTsend k x s) := by
  refine ⟨_, rfl, ?_⟩
  have hk := Dry.refl s
  repeat' first
    | with_reducible (first | assumption | apply Dry.ite | apply State.tsend_dry)
    | (intro _ _ _; try dsimp only)
    | intro _
    | split

theorem execTsendComplete_drys (ring : Fin 16) (dir : RDir) (tag : Fin 16) (s : State) : Drys s (execTsendComplete ring dir tag s) := by
  refine ⟨_, rfl, ?_⟩
  have hk := Dry.refl s
  repeat' first
    | with_reducible (first | assumption | apply Dry.ite | apply State.tsendComplete_dry)
    | (intro _ _ _; try dsimp only)
    | intro _
    | split

theorem execTsendTimeout_drys (ring : Fin 16) (dir : RDir) (tag : Fin 16) (s : State) : Drys s (execTsendTimeout ring dir tag s) := by
  refine ⟨_, rfl, ?_⟩
  have hk := Dry.refl s
  repeat' first
    | with_reducible (first | assumption | apply Dry.ite | apply State.tsendTimeout_dry)
    | (intro _ _ _; try dsimp only)
    | intro _
    | split

theorem execDataFrame_drys (port : Fin 12) (b : List Byte) (s : State) : Drys s (execDataFrame port b s) := by
  refine ⟨_, rfl, ?_⟩
  have hk := Dry.refl s
  repeat' first
    | with_reducible (first | assumption | apply Dry.ite | apply State.dataFrame_dry)
    | (intro _ _ _; try dsimp only)
    | intro _
    | split

theorem execCtrlFrame_drys (port : Fin 12) (b : List Byte) (s : State) : Drys s (execCtrlFrame port b s) := by
  refine ⟨_, rfl, ?_⟩
  have hk := Dry.refl s
  repeat' first
    | with_reducible (first | assumption | apply Dry.ite | apply State.ctrlFrame_dry)
    | (intro _ _ _; try dsimp only)
    | intro _
    | split

theorem execFullTraining_drys (port : Fin 12) (info : TrainInfo) (s : State) : Drys s (execFullTraining port info s) := by
  refine ⟨_, rfl, ?_⟩
  have hk := Dry.refl s
  repeat' first
    | with_reducible (first | assumption | apply Dry.ite | apply State.trainFull_dry)
    | (intro _ _ _; try dsimp only)
    | intro _
    | split

theorem execTrainingRetry_drys (port : Fin 12) (info : TrainInfo) (s : State) : Drys s (execTrainingRetry port info s) := by
  refine ⟨_, rfl, ?_⟩
  have hk := Dry.refl s
  repeat' first
    | with_reducible (first | assumption | apply Dry.ite | apply State.trainFull_dry)
    | (intro _ _ _; try dsimp only)
    | intro _
    | split

theorem execFastRetrain_drys (port : Fin 12) (info : TrainInfo) (s : State) : Drys s (execFastRetrain port info s) := by
  refine ⟨_, rfl, ?_⟩
  have hk := Dry.refl s
  repeat' first
    | with_reducible (first | assumption | apply Dry.ite | apply State.trainFast_dry)
    | (intro _ _ _; try dsimp only)
    | intro _
    | split

theorem execFrameLock_drys (port : Fin 12) (s : State) : Drys s (execFrameLock port s) := by
  refine ⟨_, rfl, ?_⟩
  have hk := Dry.refl s
  repeat' first
    | with_reducible (first | assumption | apply Dry.ite | apply State.frameLock_dry)
    | (intro _ _ _; try dsimp only)
    | intro _
    | split

theorem execLaneLockLoss_drys (port : Fin 12) (lane : Fin 8) (s : State) : Drys s (execLaneLockLoss port lane s) := by
  refine ⟨_, rfl, ?_⟩
  have hk := Dry.refl s
  repeat' first
    | with_reducible (first | assumption | apply Dry.ite | apply State.setPt_dry | apply State.startRetrain_dry)
    | (intro _ _ _; try dsimp only)
    | intro _
    | split

theorem execPortDown_drys (port : Fin 12) (s : State) : Drys s (execPortDown port s) := by
  refine ⟨_, rfl, ?_⟩
  have hk := Dry.refl s
  repeat' first
    | with_reducible (first | assumption | apply Dry.ite | apply State.portDown_dry)
    | (intro _ _ _; try dsimp only)
    | intro _
    | split

theorem execTakePortDown_drys (m : Master) (rivals : List Master) (port : Fin 12) (s : State) : Drys s (execTakePortDown m rivals port s) := by
  refine ⟨_, rfl, ?_⟩
  have hk := Dry.refl s
  repeat' first
    | with_reducible (first | assumption | apply Dry.ite | apply State.command_dry | apply State.portDown_dry)
    | (intro _ _ _; try dsimp only)
    | intro _
    | split

theorem execTwpCmdFastRetrain_drys (m : Master) (rivals : List Master) (port : Fin 12) (s : State) : Drys s (execTwpCmdFastRetrain m rivals port s) := by
  refine ⟨_, rfl, ?_⟩
  have hk := Dry.refl s
  repeat' first
    | with_reducible (first | assumption | apply Dry.ite | apply State.command_dry | apply State.cmdFast_dry)
    | (intro _ _ _; try dsimp only)
    | intro _
    | split

theorem execTwpCmdFullTraining_drys (m : Master) (rivals : List Master) (port : Fin 12) (s : State) : Drys s (execTwpCmdFullTraining m rivals port s) := by
  refine ⟨_, rfl, ?_⟩
  have hk := Dry.refl s
  repeat' first
    | with_reducible (first | assumption | apply Dry.ite | apply State.command_dry | apply State.cmdFull_dry)
    | (intro _ _ _; try dsimp only)
    | intro _
    | split

theorem execTwpWinEnable_drys (m : Master) (w : Fin 64) (v : Word) (s : State) : Drys s (execTwpWinEnable m w v s) := by
  refine ⟨_, rfl, ?_⟩
  have hk := Dry.refl s
  repeat' first
    | with_reducible (first | assumption | apply Dry.ite | apply State.command_dry | apply State.winWrite_dry)
    | (intro _ _ _; try dsimp only)
    | intro _
    | split

theorem execRjob_drys (k : Fin 16) (s : State) : Drys s (execRjob k s) := by
  refine ⟨_, rfl, ?_⟩
  have hk := Dry.refl s
  repeat' first
    | with_reducible (first | assumption | apply Dry.ite | apply State.rjob_dry)
    | (intro _ _ _; try dsimp only)
    | intro _
    | split

theorem execReq16_drys (port : Fin 12) (errs : Errs) (s : State) : Drys s (execReq16 port errs s) := by
  refine ⟨_, rfl, ?_⟩
  have hk := Dry.refl s
  repeat' first
    | with_reducible (first | assumption | apply Dry.ite | apply State.takeReq_dry)
    | (intro _ _ _; try dsimp only)
    | intro _
    | split

theorem execReq32_drys (port : Fin 12) (errs : Errs) (s : State) : Drys s (execReq32 port errs s) := by
  refine ⟨_, rfl, ?_⟩
  have hk := Dry.refl s
  repeat' first
    | with_reducible (first | assumption | apply Dry.ite | apply State.takeReq_dry)
    | (intro _ _ _; try dsimp only)
    | intro _
    | split

theorem execGatherSend_drys (k : Fin 16) (s : State) : Drys s (execGatherSend k s) := by
  refine ⟨_, rfl, ?_⟩
  have hk := Dry.refl s
  repeat' first
    | with_reducible (first | assumption | apply Dry.ite | apply State.gatherSend_dry)
    | (intro _ _ _; try dsimp only)
    | intro _
    | split

theorem execJobTimeout_drys (j : Fin 64) (s : State) : Drys s (execJobTimeout j s) := by
  refine ⟨_, rfl, ?_⟩
  have hk := Dry.refl s
  repeat' first
    | with_reducible (first | assumption | apply Dry.ite | apply State.jobTimeout_dry)
    | (intro _ _ _; try dsimp only)
    | intro _
    | split

theorem execRelease_drys (m : Master) (rivals : List Master) (d : Fin 4) (k : Fin 16) (s : State) : Drys s (execRelease m rivals d k s) := by
  refine ⟨_, rfl, ?_⟩
  have hk := Dry.refl s
  repeat' first
    | with_reducible (first | assumption | apply Dry.ite | apply State.kvCmd_dry | apply State.setFld_dry)
    | (intro _ _ _; try dsimp only)
    | intro _
    | split

theorem execTcxLaunch_drys (m : Master) (rivals : List Master) (d : Fin 4) (core : Fin 64) (thread : Fin 8) (s : State) : Drys s (execTcxLaunch m rivals d core thread s) := by
  refine ⟨_, rfl, ?_⟩
  have hk := Dry.refl s
  repeat' first
    | with_reducible (first | assumption | apply Dry.ite | apply State.command_dry | apply State.launch_dry)
    | (intro _ _ _; try dsimp only)
    | intro _
    | split

theorem execRtAcq_drys (t : Fin 2048) (lead : List (Nat × Nat)) (word : Nat) (s : State) : Drys s (execRtAcq t lead word s) := by
  refine ⟨_, rfl, ?_⟩
  have hk := Dry.refl s
  repeat' first
    | with_reducible (first | assumption | apply Dry.ite | apply State.rtAcq_dry)
    | (intro _ _ _; try dsimp only)
    | intro _
    | split

theorem execRtTwait_drys (t : Fin 2048) (lead : List (Nat × Nat)) (word : Nat) (s : State) : Drys s (execRtTwait t lead word s) := by
  refine ⟨_, rfl, ?_⟩
  have hk := Dry.refl s
  repeat' first
    | with_reducible (first | assumption | apply Dry.ite | apply State.rtTwait_dry)
    | (intro _ _ _; try dsimp only)
    | intro _
    | split

theorem execTwaitReread_drys (t : Fin 2048) (s : State) : Drys s (execTwaitReread t s) := by
  refine ⟨_, rfl, ?_⟩
  have hk := Dry.refl s
  repeat' first
    | with_reducible (first | assumption | apply Dry.ite | apply State.twaitReread_dry)
    | (intro _ _ _; try dsimp only)
    | intro _
    | split

theorem execRtSdesc_drys (t : Fin 2048) (lead : List (Nat × Nat)) (word : Nat) (s : State) : Drys s (execRtSdesc t lead word s) := by
  refine ⟨_, rfl, ?_⟩
  have hk := Dry.refl s
  repeat' first
    | with_reducible (first | assumption | apply Dry.ite | apply State.rtSdesc_dry)
    | (intro _ _ _; try dsimp only)
    | intro _
    | split

theorem execRtSstop_drys (t : Fin 2048) (lead : List (Nat × Nat)) (word : Nat) (s : State) : Drys s (execRtSstop t lead word s) := by
  refine ⟨_, rfl, ?_⟩
  have hk := Dry.refl s
  repeat' first
    | with_reducible (first | assumption | apply Dry.ite | apply State.rtSstop_dry)
    | (intro _ _ _; try dsimp only)
    | intro _
    | split

theorem execTrackerFree_drys (h : Fin 20) (s : State) : Drys s (execTrackerFree h s) := by
  refine ⟨_, rfl, ?_⟩
  have hk := Dry.refl s
  repeat' first
    | with_reducible (first | assumption | apply Dry.ite | apply State.trackerFree_dry)
    | (intro _ _ _; try dsimp only)
    | intro _
    | split

theorem execSnoop_drys (h : Fin 20) (agent : Fin 69) (tid : Nat) (wback : Bool) (s : State) : Drys s (execSnoop h agent tid wback s) := by
  refine ⟨_, rfl, ?_⟩
  have hk := Dry.refl s
  repeat' first
    | with_reducible (first | assumption | apply Dry.ite | apply State.snoop_dry)
    | (intro _ _ _; try dsimp only)
    | intro _
    | split

theorem execDelete_drys (m : Master) (rivals : List Master) (n : Fin 64) (s : State) : Drys s (execDelete m rivals n s) := by
  refine ⟨_, rfl, ?_⟩
  have hk := Dry.refl s
  repeat' first
    | with_reducible (first | assumption | apply Dry.ite | apply State.command_dry | apply State.qpDelete_dry)
    | (intro _ _ _; try dsimp only)
    | intro _
    | split

theorem execHifDbSq_drys (m : Master) (n : Fin 64) (tail gen : Nat) (s : State) : Drys s (execHifDbSq m n tail gen s) := by
  refine ⟨_, rfl, ?_⟩
  have hk := Dry.refl s
  repeat' first
    | with_reducible (first | assumption | apply Dry.ite | apply State.command_dry | apply State.dbSq_dry)
    | (intro _ _ _; try dsimp only)
    | intro _
    | split

theorem execHifDbCq_drys (m : Master) (n : Fin 64) (head : Nat) (s : State) : Drys s (execHifDbCq m n head s) := by
  refine ⟨_, rfl, ?_⟩
  have hk := Dry.refl s
  repeat' first
    | with_reducible (first | assumption | apply Dry.ite | apply State.command_dry | apply State.dbCq_dry)
    | (intro _ _ _; try dsimp only)
    | intro _
    | split

theorem execIrqTimer_drys (n : Fin 64) (s : State) : Drys s (execIrqTimer n s) := by
  refine ⟨_, rfl, ?_⟩
  have hk := Dry.refl s
  repeat' first
    | with_reducible (first | assumption | apply Dry.ite | apply State.irqTimer_dry)
    | (intro _ _ _; try dsimp only)
    | intro _
    | split

theorem execJournalReplay_drys (k : Fin 16) (s : State) : Drys s (execJournalReplay k s) := by
  refine ⟨_, rfl, ?_⟩
  have hk := Dry.refl s
  repeat' first
    | with_reducible (first | assumption | apply Dry.ite | apply State.jReplay_dry)
    | (intro _ _ _; try dsimp only)
    | intro _
    | split

theorem execWvCmdApplyPartial_drys (m : Master) (rivals : List Master) (k : Fin 16) (sigOk : Bool) (s : State) : Drys s (execWvCmdApplyPartial m rivals k sigOk s) := by
  refine ⟨_, rfl, ?_⟩
  have hk := Dry.refl s
  repeat' first
    | with_reducible (first | assumption | apply Dry.ite | apply State.command_dry | apply State.partStart_dry)
    | (intro _ _ _; try dsimp only)
    | intro _
    | split

theorem execPartialQuiesceBegin_drys  (s : State) : Drys s (execPartialQuiesceBegin s) := by
  refine ⟨_, rfl, ?_⟩
  have hk := Dry.refl s
  repeat' first
    | with_reducible (first | assumption | apply Dry.ite | apply State.partQuiesce_dry)
    | (intro _ _ _; try dsimp only)
    | intro _
    | split

theorem execQuiesceTimeout_drys  (s : State) : Drys s (execQuiesceTimeout s) := by
  refine ⟨_, rfl, ?_⟩
  have hk := Dry.refl s
  repeat' first
    | with_reducible (first | assumption | apply Dry.ite | apply State.partTimeout_dry)
    | (intro _ _ _; try dsimp only)
    | intro _
    | split

theorem execPwrOkRise_drys  (s : State) : Drys s (execPwrOkRise s) := by
  refine ⟨_, rfl, ?_⟩
  have hk := Dry.refl s
  repeat' first
    | with_reducible (first | assumption | apply Dry.ite | apply State.pwrRise_dry)
    | (intro _ _ _; try dsimp only)
    | intro _
    | split

theorem execRailEnable_drys  (s : State) : Drys s (execRailEnable s) := by
  refine ⟨_, rfl, ?_⟩
  have hk := Dry.refl s
  repeat' first
    | with_reducible (first | assumption | apply Dry.ite | apply State.railEnable_dry)
    | (intro _ _ _; try dsimp only)
    | intro _
    | split

theorem execRailPowerGood_drys (rail : Fin 8) (s : State) : Drys s (execRailPowerGood rail s) := by
  refine ⟨_, rfl, ?_⟩
  have hk := Dry.refl s
  repeat' first
    | with_reducible (first | assumption | apply Dry.ite | apply State.railGood_dry)
    | (intro _ _ _; try dsimp only)
    | intro _
    | split

theorem execRailPgTimeout_drys  (s : State) : Drys s (execRailPgTimeout s) := by
  refine ⟨_, rfl, ?_⟩
  have hk := Dry.refl s
  repeat' first
    | with_reducible (first | assumption | apply Dry.ite | apply State.railTimeout_dry)
    | (intro _ _ _; try dsimp only)
    | intro _
    | split

theorem execOptionLoad_drys (samples : List Nat) (slotId : Nat) (s : State) : Drys s (execOptionLoad samples slotId s) := by
  refine ⟨_, rfl, ?_⟩
  have hk := Dry.refl s
  repeat' first
    | with_reducible (first | assumption | apply Dry.ite | apply State.optionLoad_dry)
    | (intro _ _ _; try dsimp only)
    | intro _
    | split

theorem execIslandSettled_drys (i : Fin 96) (s : State) : Drys s (execIslandSettled i s) := by
  refine ⟨_, rfl, ?_⟩
  have hk := Dry.refl s
  repeat' first
    | with_reducible (first | assumption | apply Dry.ite | apply State.islandSettled_dry)
    | (intro _ _ _; try dsimp only)
    | intro _
    | split

theorem execHbmStackReady_drys (st : Fin 8) (s : State) : Drys s (execHbmStackReady st s) := by
  refine ⟨_, rfl, ?_⟩
  have hk := Dry.refl s
  repeat' first
    | with_reducible (first | assumption | apply Dry.ite | apply State.stackReady_dry)
    | (intro _ _ _; try dsimp only)
    | intro _
    | split

theorem execLkForce_drys (m : Master) (domains : Nat) (s : State) : Drys s (execLkForce m domains s) := by
  refine ⟨_, rfl, ?_⟩
  have hk := Dry.refl s
  repeat' first
    | with_reducible (first | assumption | apply Dry.ite | apply State.command_dry | apply State.forceWrite_dry)
    | (intro _ _ _; try dsimp only)
    | intro _
    | split

theorem execWrstNAssert_drys  (s : State) : Drys s (execWrstNAssert s) := by
  refine ⟨_, rfl, ?_⟩
  have hk := Dry.refl s
  repeat' first
    | with_reducible (first | assumption | apply Dry.ite | apply State.wrstLow_dry)
    | (intro _ _ _; try dsimp only)
    | intro _
    | split

theorem execWrstNDeassert_drys  (s : State) : Drys s (execWrstNDeassert s) := by
  refine ⟨_, rfl, ?_⟩
  have hk := Dry.refl s
  repeat' first
    | with_reducible (first | assumption | apply Dry.ite | apply State.wrstHigh_dry)
    | (intro _ _ _; try dsimp only)
    | intro _
    | split

theorem execWrstHoldRelease_drys  (s : State) : Drys s (execWrstHoldRelease s) := by
  refine ⟨_, rfl, ?_⟩
  have hk := Dry.refl s
  repeat' first
    | with_reducible (first | assumption | apply Dry.ite | apply State.holdRelease_dry)
    | (intro _ _ _; try dsimp only)
    | intro _
    | split

theorem execPcieHotReset_drys  (s : State) : Drys s (execPcieHotReset s) := by
  refine ⟨_, rfl, ?_⟩
  have hk := Dry.refl s
  repeat' first
    | with_reducible (first | assumption | apply Dry.ite | apply State.linkReset_dry)
    | (intro _ _ _; try dsimp only)
    | intro _
    | split

theorem execFlr_drys  (s : State) : Drys s (execFlr s) := by
  refine ⟨_, rfl, ?_⟩
  have hk := Dry.refl s
  repeat' first
    | with_reducible (first | assumption | apply Dry.ite | apply State.linkReset_dry)
    | (intro _ _ _; try dsimp only)
    | intro _
    | split

theorem execWatchdogTick_drys  (s : State) : Drys s (execWatchdogTick s) := by
  refine ⟨_, rfl, ?_⟩
  have hk := Dry.refl s
  repeat' first
    | with_reducible (first | assumption | apply Dry.ite | apply State.wdogTick_dry)
    | (intro _ _ _; try dsimp only)
    | intro _
    | split

theorem execWatchdogExpiry_drys  (s : State) : Drys s (execWatchdogExpiry s) := by
  refine ⟨_, rfl, ?_⟩
  have hk := Dry.refl s
  repeat' first
    | with_reducible (first | assumption | apply Dry.ite | apply State.wdogExpire_dry)
    | (intro _ _ _; try dsimp only)
    | intro _
    | split

theorem execLkWdogKick_drys (m : Master) (s : State) : Drys s (execLkWdogKick m s) := by
  refine ⟨_, rfl, ?_⟩
  have hk := Dry.refl s
  repeat' first
    | with_reducible (first | assumption | apply Dry.ite | apply State.command_dry | apply State.wdogLoad_dry)
    | (intro _ _ _; try dsimp only)
    | intro _
    | split

theorem execJournalCaptureDone_drys  (s : State) : Drys s (execJournalCaptureDone s) := by
  refine ⟨_, rfl, ?_⟩
  have hk := Dry.refl s
  repeat' first
    | with_reducible (first | assumption | apply Dry.ite | apply State.captureDone_dry)
    | (intro _ _ _; try dsimp only)
    | intro _
    | split

theorem execSupplyWarnAssert_drys  (s : State) : Drys s (execSupplyWarnAssert s) := by
  refine ⟨_, rfl, ?_⟩
  have hk := Dry.refl s
  repeat' first
    | with_reducible (first | assumption | apply Dry.ite | apply State.warnOn_dry)
    | (intro _ _ _; try dsimp only)
    | intro _
    | split

theorem execBraceComplete_drys  (s : State) : Drys s (execBraceComplete s) := by
  refine ⟨_, rfl, ?_⟩
  have hk := Dry.refl s
  repeat' first
    | with_reducible (first | assumption | apply Dry.ite | apply State.braceDone_dry)
    | (intro _ _ _; try dsimp only)
    | intro _
    | split

theorem execSupplyWarnDeassert_drys  (s : State) : Drys s (execSupplyWarnDeassert s) := by
  refine ⟨_, rfl, ?_⟩
  have hk := Dry.refl s
  repeat' first
    | with_reducible (first | assumption | apply Dry.ite | apply State.warnOff_dry)
    | (intro _ _ _; try dsimp only)
    | intro _
    | split

theorem execThrottleChange_drys (tj : Nat) (s : State) : Drys s (execThrottleChange tj s) := by
  refine ⟨_, rfl, ?_⟩
  have hk := Dry.refl s
  repeat' first
    | with_reducible (first | assumption | apply Dry.ite | apply State.junction_dry)
    | (intro _ _ _; try dsimp only)
    | intro _
    | split

theorem execLkThrotSwWrite_drys (m : Master) (v : Nat) (s : State) : Drys s (execLkThrotSwWrite m v s) := by
  refine ⟨_, rfl, ?_⟩
  have hk := Dry.refl s
  repeat' first
    | with_reducible (first | assumption | apply Dry.ite | apply State.command_dry | apply State.setFld_dry | apply State.syncThrottle_dry)
    | (intro _ _ _; try dsimp only)
    | intro _
    | split

theorem execLkSbFaultWrite_drys (m : Master) (b : Bool) (s : State) : Drys s (execLkSbFaultWrite m b s) := by
  refine ⟨_, rfl, ?_⟩
  have hk := Dry.refl s
  repeat' first
    | with_reducible (first | assumption | apply Dry.ite | apply State.command_dry | apply State.setFld_dry | apply State.syncFault_dry)
    | (intro _ _ _; try dsimp only)
    | intro _
    | split

theorem execPcieLinkUp_drys (width speed : Nat) (flit : Bool) (s : State) : Drys s (execPcieLinkUp width speed flit s) := by
  refine ⟨_, rfl, ?_⟩
  have hk := Dry.refl s
  repeat' first
    | with_reducible (first | assumption | apply Dry.ite | apply State.linkOn_dry)
    | (intro _ _ _; try dsimp only)
    | intro _
    | split

theorem execPcieLinkDown_drys  (s : State) : Drys s (execPcieLinkDown s) := by
  refine ⟨_, rfl, ?_⟩
  have hk := Dry.refl s
  repeat' first
    | with_reducible (first | assumption | apply Dry.ite | apply State.linkOff_dry)
    | (intro _ _ _; try dsimp only)
    | intro _
    | split

theorem execHifCtlLinkEn_drys (m : Master) (b : Bool) (s : State) : Drys s (execHifCtlLinkEn m b s) := by
  refine ⟨_, rfl, ?_⟩
  have hk := Dry.refl s
  repeat' first
    | with_reducible (first | assumption | apply Dry.ite | apply State.command_dry | apply State.linkEnable_dry)
    | (intro _ _ _; try dsimp only)
    | intro _
    | split

theorem execHifBootGo_drys (m : Master) (rivals : List Master) (len : Nat) (s : State) : Drys s (execHifBootGo m rivals len s) := by
  refine ⟨_, rfl, ?_⟩
  have hk := Dry.refl s
  repeat' first
    | with_reducible (first | assumption | apply Dry.ite | apply State.command_dry | apply State.bootGo_dry)
    | (intro _ _ _; try dsimp only)
    | intro _
    | split

theorem execCxtDecCommit_drys (m : Master) (n : Fin 8) (s : State) : Drys s (execCxtDecCommit m n s) := by
  refine ⟨_, rfl, ?_⟩
  have hk := Dry.refl s
  repeat' first
    | with_reducible (first | assumption | apply Dry.ite | apply State.command_dry | apply State.decCommit_dry)
    | (intro _ _ _; try dsimp only)
    | intro _
    | split

theorem execCxtDecUncommit_drys (m : Master) (n : Fin 8) (s : State) : Drys s (execCxtDecUncommit m n s) := by
  refine ⟨_, rfl, ?_⟩
  have hk := Dry.refl s
  repeat' first
    | with_reducible (first | assumption | apply Dry.ite | apply State.command_dry | apply State.decUncommit_dry)
    | (intro _ _ _; try dsimp only)
    | intro _
    | split

theorem execCxtDecLock_drys (m : Master) (n : Fin 8) (s : State) : Drys s (execCxtDecLock m n s) := by
  refine ⟨_, rfl, ?_⟩
  have hk := Dry.refl s
  repeat' first
    | with_reducible (first | assumption | apply Dry.ite | apply State.command_dry | apply State.decLock_dry)
    | (intro _ _ _; try dsimp only)
    | intro _
    | split

theorem execPatrolScrub_drys (st : Fin 8) (addr : Nat) (ecc : Nat) (raced : Bool) (last : Bool) (s : State) : Drys s (execPatrolScrub st addr ecc raced last s) := by
  refine ⟨_, rfl, ?_⟩
  have hk := Dry.refl s
  repeat' first
    | with_reducible (first | assumption | apply Dry.ite | apply State.patrol_dry)
    | (intro _ _ _; try dsimp only)
    | intro _
    | split

theorem execHbmStackLost_drys (st : Fin 8) (cause : Nat) (s : State) : Drys s (execHbmStackLost st cause s) := by
  refine ⟨_, rfl, ?_⟩
  have hk := Dry.refl s
  repeat' first
    | with_reducible (first | assumption | apply Dry.ite | apply State.stackFails_dry)
    | (intro _ _ _; try dsimp only)
    | intro _
    | split

theorem execHbmTempChange_drys (st : Fin 8) (temp : Nat) (s : State) : Drys s (execHbmTempChange st temp s) := by
  refine ⟨_, rfl, ?_⟩
  have hk := Dry.refl s
  repeat' first
    | with_reducible (first | assumption | apply Dry.ite | apply State.stackTemp_dry)
    | (intro _ _ _; try dsimp only)
    | intro _
    | split

theorem execCxlLinkDown_drys (p : Fin 4) (s : State) : Drys s (execCxlLinkDown p s) := by
  refine ⟨_, rfl, ?_⟩
  have hk := Dry.refl s
  repeat' first
    | with_reducible (first | assumption | apply Dry.ite | apply State.cxlOff_dry)
    | (intro _ _ _; try dsimp only)
    | intro _
    | split

theorem execCxlLinkUp_drys (p : Fin 4) (width speed : Nat) (flit device : Bool) (s : State) : Drys s (execCxlLinkUp p width speed flit device s) := by
  refine ⟨_, rfl, ?_⟩
  have hk := Dry.refl s
  repeat' first
    | with_reducible (first | assumption | apply Dry.ite | apply State.cxlOn_dry)
    | (intro _ _ _; try dsimp only)
    | intro _
    | split

theorem execHifSyncRead_drys  (s : State) : Drys s (execHifSyncRead s) := by
  refine ⟨_, rfl, ?_⟩
  have hk := Dry.refl s
  repeat' first
    | with_reducible (first | assumption | apply Dry.ite | apply State.syncRead_dry)
    | (intro _ _ _; try dsimp only)
    | intro _
    | split

theorem execGetStatus_drys (q : Req) (s : State) : Drys s (execGetStatus q s) := by
  refine ⟨_, rfl, ?_⟩
  have hk := Dry.refl s
  repeat' first
    | with_reducible (first | assumption | apply Dry.ite | apply State.getStatus_dry)
    | (intro _ _ _; try dsimp only)
    | intro _
    | split

theorem execGetNonce_drys (q : Req) (s : State) : Drys s (execGetNonce q s) := by
  refine ⟨_, rfl, ?_⟩
  have hk := Dry.refl s
  repeat' first
    | with_reducible (first | assumption | apply Dry.ite | apply State.getNonce_dry)
    | (intro _ _ _; try dsimp only)
    | intro _
    | split

theorem execGetLog_drys (q : Req) (off : Nat) (s : State) : Drys s (execGetLog q off s) := by
  refine ⟨_, rfl, ?_⟩
  have hk := Dry.refl s
  repeat' first
    | with_reducible (first | assumption | apply Dry.ite | apply State.getLog_dry)
    | (intro _ _ _; try dsimp only)
    | intro _
    | split

theorem execFlashWrite_drys (q : Req) (off : Nat) (data : List Byte) (s : State) : Drys s (execFlashWrite q off data s) := by
  refine ⟨_, rfl, ?_⟩
  have hk := Dry.refl s
  repeat' first
    | with_reducible (first | assumption | apply Dry.ite | apply State.flashWrite_dry)
    | (intro _ _ _; try dsimp only)
    | intro _
    | split

theorem execFlashCommit_drys (q : Req) (region len : Nat) (sigOk : Bool) (s : State) : Drys s (execFlashCommit q region len sigOk s) := by
  refine ⟨_, rfl, ?_⟩
  have hk := Dry.refl s
  repeat' first
    | with_reducible (first | assumption | apply Dry.ite | apply State.flashCommit_dry)
    | (intro _ _ _; try dsimp only)
    | intro _
    | split

theorem execFlashCommitDone_drys  (s : State) : Drys s (execFlashCommitDone s) := by
  refine ⟨_, rfl, ?_⟩
  have hk := Dry.refl s
  repeat' first
    | with_reducible (first | assumption | apply Dry.ite | apply State.flashDone_dry)
    | (intro _ _ _; try dsimp only)
    | intro _
    | split

theorem execEnrollKey_drys (q : Req) (digest : BitVec 384) (s : State) : Drys s (execEnrollKey q digest s) := by
  refine ⟨_, rfl, ?_⟩
  have hk := Dry.refl s
  repeat' first
    | with_reducible (first | assumption | apply Dry.ite | apply State.enroll_dry)
    | (intro _ _ _; try dsimp only)
    | intro _
    | split

theorem execRevokeKey_drys (q : Req) (slot : Nat) (s : State) : Drys s (execRevokeKey q slot s) := by
  refine ⟨_, rfl, ?_⟩
  have hk := Dry.refl s
  repeat' first
    | with_reducible (first | assumption | apply Dry.ite | apply State.revoke_dry)
    | (intro _ _ _; try dsimp only)
    | intro _
    | split

theorem execAdvanceRollback_drys (q : Req) (v : Nat) (s : State) : Drys s (execAdvanceRollback q v s) := by
  refine ⟨_, rfl, ?_⟩
  have hk := Dry.refl s
  repeat' first
    | with_reducible (first | assumption | apply Dry.ite | apply State.advanceMin_dry)
    | (intro _ _ _; try dsimp only)
    | intro _
    | split

theorem execSecretPut_drys (q : Req) (idx : Nat) (data : List Byte) (s : State) : Drys s (execSecretPut q idx data s) := by
  refine ⟨_, rfl, ?_⟩
  have hk := Dry.refl s
  repeat' first
    | with_reducible (first | assumption | apply Dry.ite | apply State.secretPut_dry)
    | (intro _ _ _; try dsimp only)
    | intro _
    | split

theorem execDebugOpenEraseDone_drys  (s : State) : Drys s (execDebugOpenEraseDone s) := by
  refine ⟨_, rfl, ?_⟩
  have hk := Dry.refl s
  repeat' first
    | with_reducible (first | assumption | apply Dry.ite | apply State.debugOpenDone_dry)
    | (intro _ _ _; try dsimp only)
    | intro _
    | split

theorem execNonceExpiry_drys  (s : State) : Drys s (execNonceExpiry s) := by
  refine ⟨_, rfl, ?_⟩
  have hk := Dry.refl s
  repeat' first
    | with_reducible (first | assumption | apply Dry.ite | apply State.nonceExpiry_dry)
    | (intro _ _ _; try dsimp only)
    | intro _
    | split

theorem execSpdmGetVersion_drys (i3c : Bool) (s : State) : Drys s (execSpdmGetVersion i3c s) := by
  refine ⟨_, rfl, ?_⟩
  have hk := Dry.refl s
  repeat' first
    | with_reducible (first | assumption | apply Dry.ite | apply State.spReq_dry | apply State.setSp_dry | apply State.answer_dry)
    | (intro _ _ _; try dsimp only)
    | intro _
    | split

theorem execSpdmGetCapabilities_drys (i3c : Bool) (version : Nat) (s : State) : Drys s (execSpdmGetCapabilities i3c version s) := by
  refine ⟨_, rfl, ?_⟩
  have hk := Dry.refl s
  repeat' first
    | with_reducible (first | assumption | apply Dry.ite | apply State.spReq_dry | apply State.setSp_dry | apply State.answer_dry | apply State.spErr_dry)
    | (intro _ _ _; try dsimp only)
    | intro _
    | split

theorem execSpdmNegotiateAlgorithms_drys (i3c : Bool) (algOk : Bool) (s : State) : Drys s (execSpdmNegotiateAlgorithms i3c algOk s) := by
  refine ⟨_, rfl, ?_⟩
  have hk := Dry.refl s
  repeat' first
    | with_reducible (first | assumption | apply Dry.ite | apply State.spReq_dry | apply State.setSp_dry | apply State.answer_dry | apply State.spErr_dry)
    | (intro _ _ _; try dsimp only)
    | intro _
    | split

theorem execSpdmGetDigests_drys (i3c : Bool) (s : State) : Drys s (execSpdmGetDigests i3c s) := by
  refine ⟨_, rfl, ?_⟩
  have hk := Dry.refl s
  repeat' first
    | with_reducible (first | assumption | apply Dry.ite | apply State.spReq_dry | apply State.answer_dry)
    | (intro _ _ _; try dsimp only)
    | intro _
    | split

theorem execSpdmGetCertificate_drys (i3c : Bool) (slot off len : Nat) (s : State) : Drys s (execSpdmGetCertificate i3c slot off len s) := by
  refine ⟨_, rfl, ?_⟩
  have hk := Dry.refl s
  repeat' first
    | with_reducible (first | assumption | apply Dry.ite | apply State.spReq_dry | apply State.spErr_dry | apply State.answer_dry)
    | (intro _ _ _; try dsimp only)
    | intro _
    | split

theorem execSpdmChallenge_drys (i3c : Bool) (slot : Nat) (nonce : List Byte) (s : State) : Drys s (execSpdmChallenge i3c slot nonce s) := by
  refine ⟨_, rfl, ?_⟩
  have hk := Dry.refl s
  repeat' first
    | with_reducible (first | assumption | apply Dry.ite | apply State.spReq_dry | apply State.spErr_dry | apply State.spSigned_dry)
    | (intro _ _ _; try dsimp only)
    | intro _
    | split

theorem execSpdmGetMeasurements_drys (i3c : Bool) (idx : Nat) (sign : Bool) (s : State) : Drys s (execSpdmGetMeasurements i3c idx sign s) := by
  refine ⟨_, rfl, ?_⟩
  have hk := Dry.refl s
  repeat' first
    | with_reducible (first | assumption | apply Dry.ite | apply State.spReq_dry | apply State.spErr_dry | apply State.spSigned_dry | apply State.answer_dry)
    | (intro _ _ _; try dsimp only)
    | intro _
    | split

theorem execSpdmKeyExchange_drys (i3c : Bool) (reqId : Nat) (s : State) : Drys s (execSpdmKeyExchange i3c reqId s) := by
  refine ⟨_, rfl, ?_⟩
  have hk := Dry.refl s
  repeat' first
    | with_reducible (first | assumption | apply Dry.ite | apply State.spSess_dry | apply State.spErr_dry | apply State.setSp_dry | apply State.spSigned_dry)
    | (intro _ _ _; try dsimp only)
    | intro _
    | split

theorem execSpdmFinish_drys (i3c : Bool) (hmacOk : Bool) (s : State) : Drys s (execSpdmFinish i3c hmacOk s) := by
  refine ⟨_, rfl, ?_⟩
  have hk := Dry.refl s
  repeat' first
    | with_reducible (first | assumption | apply Dry.ite | apply State.spSess_dry | apply State.spErr_dry | apply State.setSp_dry | apply State.answer_dry)
    | (intro _ _ _; try dsimp only)
    | intro _
    | split

theorem execSpdmHeartbeat_drys (i3c : Bool) (s : State) : Drys s (execSpdmHeartbeat i3c s) := by
  refine ⟨_, rfl, ?_⟩
  have hk := Dry.refl s
  repeat' first
    | with_reducible (first | assumption | apply Dry.ite | apply State.spSess_dry | apply State.spErr_dry | apply State.answer_dry)
    | (intro _ _ _; try dsimp only)
    | intro _
    | split

theorem execSpdmKeyUpdate_drys (i3c : Bool) (op : Nat) (s : State) : Drys s (execSpdmKeyUpdate i3c op s) := by
  refine ⟨_, rfl, ?_⟩
  have hk := Dry.refl s
  repeat' first
    | with_reducible (first | assumption | apply Dry.ite | apply State.spSess_dry | apply State.spErr_dry | apply State.setSp_dry | apply State.answer_dry)
    | (intro _ _ _; try dsimp only)
    | intro _
    | split

theorem execSpdmEndSession_drys (i3c : Bool) (s : State) : Drys s (execSpdmEndSession i3c s) := by
  refine ⟨_, rfl, ?_⟩
  have hk := Dry.refl s
  repeat' first
    | with_reducible (first | assumption | apply Dry.ite | apply State.spSess_dry | apply State.spErr_dry | apply State.setSp_dry | apply State.answer_dry)
    | (intro _ _ _; try dsimp only)
    | intro _
    | split

theorem execDoeAbort_drys  (s : State) : Drys s (execDoeAbort s) := by
  refine ⟨_, rfl, ?_⟩
  have hk := Dry.refl s
  repeat' first
    | with_reducible (first | assumption | apply Dry.ite | apply State.answer_dry)
    | (intro _ _ _; try dsimp only)
    | intro _
    | split

theorem execDoeDiscovery_drys (index : Nat) (s : State) : Drys s (execDoeDiscovery index s) := by
  refine ⟨_, rfl, ?_⟩
  have hk := Dry.refl s
  repeat' first
    | with_reducible (first | assumption | apply Dry.ite | apply State.answer_dry)
    | (intro _ _ _; try dsimp only)
    | intro _
    | split

end Sys2Proof.Machine
end

