-- ==== Sys2Proof/Laws/DryTick.lean ====
section
/-! SUPPORT. Operations of Machine/Tick.lean that store nothing to memory (Laws/Dry.lean). -/

namespace Sys2Proof.Machine

set_option linter.unusedTactic false
set_option linter.unreachableTactic false
set_option linter.unusedSimpArgs false

theorem State.tick_dry {z s : State} (hk : Dry z s) :
    Dry z s.tick := by
  unfold State.tick
  try dsimp only
  repeat' first
    | with_reducible (first | exact hk | assumption | apply Dry.ite | apply State.talkAll_dry)
    | fail_if_no_progress with_reducible apply Dry.mk_upd
    | (intro _ _ _; try dsimp only)
    | intro _
    | split

end Sys2Proof.Machine
end

