-- ==== Sys2Proof/Laws/KeepsOps.lean ====
section
/-! SUPPORT. What the operations of Machine/Ops.lean keep (Laws/Keeps.lean). -/

namespace Sys2Proof.Machine

set_option linter.unusedTactic false
set_option linter.unreachableTactic false

theorem State.setFld_keeps {z s : State} (a : Nat) (f : Fld) (v : Nat) (hk : Keeps z s) :
    Keeps z (s.setFld a f v) := by
  unfold State.setFld
  try dsimp only
  repeat' first
    | with_reducible (first | exact hk | assumption | apply Keeps.ite | apply State.setReg_keeps)
    | fail_if_no_progress with_reducible apply Keeps.mk_upd
    | (intro _ _ _; try dsimp only)
    | intro _
    | split

theorem State.setFldBit_keeps {z s : State} (a : Nat) (f : Fld) (i : Nat) (b : Bool) (hk : Keeps z s) :
    Keeps z (s.setFldBit a f i b) := by
  unfold State.setFldBit
  try dsimp only
  repeat' first
    | with_reducible (first | exact hk | assumption | apply Keeps.ite | apply State.setFld_keeps)
    | fail_if_no_progress with_reducible apply Keeps.mk_upd
    | (intro _ _ _; try dsimp only)
    | intro _
    | split

theorem State.addSat_keeps {z s : State} (a : Nat) (f : Fld) (n : Nat) (hk : Keeps z s) :
    Keeps z (s.addSat a f n) := by
  unfold State.addSat
  try dsimp only
  repeat' first
    | with_reducible (first | exact hk | assumption | apply Keeps.ite | apply State.setFld_keeps)
    | fail_if_no_progress with_reducible apply Keeps.mk_upd
    | (intro _ _ _; try dsimp only)
    | intro _
    | split

theorem State.count_keeps {z s : State} (a : Nat) (n : Nat) (hk : Keeps z s) :
    Keeps z (s.count a n) := by
  unfold State.count
  try dsimp only
  repeat' first
    | with_reducible (first | exact hk | assumption | apply Keeps.ite | apply State.setReg_keeps)
    | fail_if_no_progress with_reducible apply Keeps.mk_upd
    | (intro _ _ _; try dsimp only)
    | intro _
    | split

theorem State.poisonRange_keeps {z s : State} (a n : Nat) (hk : Keeps z s) :
    Keeps z (s.poisonRange a n) := by
  unfold State.poisonRange
  try dsimp only
  repeat' first
    | with_reducible (first | exact hk | assumption | apply Keeps.ite | apply Keeps.foldl | apply Keeps.foldl_fst | apply Keeps.foldl_snd)
    | fail_if_no_progress with_reducible apply Keeps.mk_upd
    | (intro _ _ _; try dsimp only)
    | intro _
    | split

theorem State.cleanse_keeps {z s : State} (a n : Nat) (hk : Keeps z s) :
    Keeps z (s.cleanse a n) := by
  unfold State.cleanse
  try dsimp only
  repeat' first
    | with_reducible (first | exact hk | assumption | apply Keeps.ite)
    | fail_if_no_progress with_reducible apply Keeps.mk_upd
    | (intro _ _ _; try dsimp only)
    | intro _
    | split

theorem State.eccPoison_keeps {z s : State} (l : Nat) (hk : Keeps z s) :
    Keeps z (s.eccPoison l) := by
  unfold State.eccPoison
  try dsimp only
  repeat' first
    | with_reducible (first | exact hk | assumption | apply Keeps.ite | apply State.poisonRange_keeps | apply State.addSat_keeps | apply State.setFld_keeps)
    | fail_if_no_progress with_reducible apply Keeps.mk_upd
    | (intro _ _ _; try dsimp only)
    | intro _
    | split

theorem State.eccRead_keeps {z s : State} (a ecc : Nat) (hk : Keeps z s) :
    Keeps z (s.eccRead a ecc) := by
  unfold State.eccRead
  try dsimp only
  repeat' first
    | with_reducible (first | exact hk | assumption | apply Keeps.ite | apply State.poisonRange_keeps | apply State.addSat_keeps | apply State.eccPoison_keeps)
    | fail_if_no_progress with_reducible apply Keeps.mk_upd
    | (intro _ _ _; try dsimp only)
    | intro _
    | split

theorem State.spadEcc_keeps {z s : State} (a ecc : Nat) (hk : Keeps z s) :
    Keeps z (s.spadEcc a ecc) := by
  unfold State.spadEcc
  try dsimp only
  repeat' first
    | with_reducible (first | exact hk | assumption | apply Keeps.ite | apply State.addSat_keeps | apply State.poisonRange_keeps)
    | fail_if_no_progress with_reducible apply Keeps.mk_upd
    | (intro _ _ _; try dsimp only)
    | intro _
    | split

theorem State.arrayErrs_keeps {z s : State} (spans : List (Nat × Nat)) (x : Errs) (hk : Keeps z s) :
    Keeps z (s.arrayErrs spans x) := by
  unfold State.arrayErrs
  try dsimp only
  repeat' first
    | with_reducible (first | exact hk | assumption | apply Keeps.ite | apply State.spadEcc_keeps | apply State.eccRead_keeps | apply Keeps.foldl | apply Keeps.foldl_fst | apply Keeps.foldl_snd)
    | fail_if_no_progress with_reducible apply Keeps.mk_upd
    | (intro _ _ _; try dsimp only)
    | intro _
    | split

theorem State.touch_keeps {z s : State} (a n : Nat) (own : Option Nat) (hk : Keeps z s) :
    Keeps z (s.touch a n own) := by
  unfold State.touch
  try dsimp only
  repeat' first
    | with_reducible (first | exact hk | assumption | apply Keeps.ite)
    | fail_if_no_progress with_reducible apply Keeps.mk_upd
    | (intro _ _ _; try dsimp only)
    | intro _
    | split

theorem State.noteCxl_keeps {z s : State} (a n : Nat) (read : Bool) (hk : Keeps z s) :
    Keeps z (s.noteCxl a n read) := by
  unfold State.noteCxl
  try dsimp only
  repeat' first
    | with_reducible (first | exact hk | assumption | apply Keeps.ite | apply State.addSat_keeps)
    | fail_if_no_progress with_reducible apply Keeps.mk_upd
    | (intro _ _ _; try dsimp only)
    | intro _
    | split

theorem State.wrMask_keeps {z s : State} (l m : Nat) (d : List Byte) (own : Option Nat) (hk : Keeps z s) :
    Keeps z (s.wrMask l m d own) := by
  unfold State.wrMask
  try dsimp only
  repeat' first
    | with_reducible (first | exact hk | assumption | apply Keeps.ite | apply State.noteCxl_keeps | apply State.forAll_keeps | apply State.setByte_keeps | apply State.cleanse_keeps | apply State.touch_keeps)
    | fail_if_no_progress with_reducible apply Keeps.mk_upd
    | (intro _ _ _; try dsimp only)
    | intro _
    | split

theorem State.wr_keeps {z s : State} (a : Nat) (b : List Byte) (hk : Keeps z s) :
    Keeps z (s.wr a b) := by
  unfold State.wr
  try dsimp only
  repeat' first
    | with_reducible (first | exact hk | assumption | apply Keeps.ite | apply State.noteCxl_keeps | apply State.setBytes_keeps | apply State.cleanse_keeps | apply State.touch_keeps)
    | fail_if_no_progress with_reducible apply Keeps.mk_upd
    | (intro _ _ _; try dsimp only)
    | intro _
    | split

theorem State.wrN_keeps {z s : State} (a n v : Nat) (hk : Keeps z s) :
    Keeps z (s.wrN a n v) := by
  unfold State.wrN
  try dsimp only
  repeat' first
    | with_reducible (first | exact hk | assumption | apply Keeps.ite | apply State.wr_keeps)
    | fail_if_no_progress with_reducible apply Keeps.mk_upd
    | (intro _ _ _; try dsimp only)
    | intro _
    | split

theorem State.wrPoison_keeps {z s : State} (a n : Nat) (hk : Keeps z s) :
    Keeps z (s.wrPoison a n) := by
  unfold State.wrPoison
  try dsimp only
  repeat' first
    | with_reducible (first | exact hk | assumption | apply Keeps.ite | apply State.noteCxl_keeps | apply State.poisonRange_keeps | apply State.touch_keeps)
    | fail_if_no_progress with_reducible apply Keeps.mk_upd
    | (intro _ _ _; try dsimp only)
    | intro _
    | split

theorem State.readErrs_keeps {z s : State} (spans : List (Nat × Nat)) (x : Errs) (hk : Keeps z s) :
    Keeps z (s.readErrs spans x) := by
  unfold State.readErrs
  try dsimp only
  repeat' first
    | with_reducible (first | exact hk | assumption | apply Keeps.ite | apply State.noteCxl_keeps | apply State.arrayErrs_keeps | apply Keeps.foldl | apply Keeps.foldl_fst | apply Keeps.foldl_snd)
    | fail_if_no_progress with_reducible apply Keeps.mk_upd
    | (intro _ _ _; try dsimp only)
    | intro _
    | split

theorem State.answer_keeps {z s : State} (r : Resp) (hk : Keeps z s) :
    Keeps z (s.answer r) := by
  unfold State.answer
  try dsimp only
  repeat' first
    | with_reducible (first | exact hk | assumption | apply Keeps.ite)
    | fail_if_no_progress with_reducible apply Keeps.mk_upd
    | (intro _ _ _; try dsimp only)
    | intro _
    | split

theorem State.setQ_keeps {z s : State} (k : Nat) (c : Psq) (hk : Keeps z s) :
    Keeps z (s.setQ k c) := by
  unfold State.setQ
  try dsimp only
  repeat' first
    | with_reducible (first | exact hk | assumption | apply Keeps.ite)
    | fail_if_no_progress with_reducible apply Keeps.mk_upd
    | (intro _ _ _; try dsimp only)
    | intro _
    | split

theorem State.setPv_keeps {z s : State} (v : Nat) (c : Pvu) (hk : Keeps z s) :
    Keeps z (s.setPv v c) := by
  unfold State.setPv
  try dsimp only
  repeat' first
    | with_reducible (first | exact hk | assumption | apply Keeps.ite)
    | fail_if_no_progress with_reducible apply Keeps.mk_upd
    | (intro _ _ _; try dsimp only)
    | intro _
    | split

theorem State.setAs_keeps {z s : State} (d k : Nat) (c : Asu) (hk : Keeps z s) :
    Keeps z (s.setAs d k c) := by
  unfold State.setAs
  try dsimp only
  repeat' first
    | with_reducible (first | exact hk | assumption | apply Keeps.ite)
    | fail_if_no_progress with_reducible apply Keeps.mk_upd
    | (intro _ _ _; try dsimp only)
    | intro _
    | split

theorem State.setQu_keeps {z s : State} (q : Nat) (c : Quay) (hk : Keeps z s) :
    Keeps z (s.setQu q c) := by
  unfold State.setQu
  try dsimp only
  repeat' first
    | with_reducible (first | exact hk | assumption | apply Keeps.ite)
    | fail_if_no_progress with_reducible apply Keeps.mk_upd
    | (intro _ _ _; try dsimp only)
    | intro _
    | split

theorem State.setSlot_keeps {z s : State} (k i : Nat) (v : Slot) (hk : Keeps z s) :
    Keeps z (s.setSlot k i v) := by
  unfold State.setSlot
  try dsimp only
  repeat' first
    | with_reducible (first | exact hk | assumption | apply Keeps.ite)
    | fail_if_no_progress with_reducible apply Keeps.mk_upd
    | (intro _ _ _; try dsimp only)
    | intro _
    | split

theorem State.setCore_keeps {z s : State} (c i v : Nat) (hk : Keeps z s) :
    Keeps z (s.setCore c i v) := by
  unfold State.setCore
  try dsimp only
  repeat' first
    | with_reducible (first | exact hk | assumption | apply Keeps.ite)
    | fail_if_no_progress with_reducible apply Keeps.mk_upd
    | (intro _ _ _; try dsimp only)
    | intro _
    | split

theorem State.pend_keeps {z s : State} (hart eiid : Nat) (hk : Keeps z s) :
    Keeps z (s.pend hart eiid) := by
  unfold State.pend
  try dsimp only
  repeat' first
    | with_reducible (first | exact hk | assumption | apply Keeps.ite | apply State.setCore_keeps)
    | fail_if_no_progress with_reducible apply Keeps.mk_upd
    | (intro _ _ _; try dsimp only)
    | intro _
    | split

theorem State.signal_keeps {z s : State} (imsic : Bool) (vector hart eiid : Nat) (hk : Keeps z s) :
    Keeps z (s.signal imsic vector hart eiid) := by
  unfold State.signal
  try dsimp only
  repeat' first
    | with_reducible (first | exact hk | assumption | apply Keeps.ite | apply State.send_keeps | apply State.pend_keeps)
    | fail_if_no_progress with_reducible apply Keeps.mk_upd
    | (intro _ _ _; try dsimp only)
    | intro _
    | split

theorem State.sendPending_keeps {z s : State} (hk : Keeps z s) :
    Keeps z s.sendPending := by
  unfold State.sendPending
  try dsimp only
  repeat' first
    | with_reducible (first | exact hk | assumption | apply Keeps.ite | apply State.forAll_keeps | apply State.send_keeps)
    | fail_if_no_progress with_reducible apply Keeps.mk_upd
    | (intro _ _ _; try dsimp only)
    | intro _
    | split

theorem State.raiseEvent_keeps {z s : State} (a cfg : Nat) (f : Fld) (hk : Keeps z s) :
    Keeps z (s.raiseEvent a cfg f) := by
  unfold State.raiseEvent
  try dsimp only
  repeat' first
    | with_reducible (first | exact hk | assumption | apply Keeps.ite | apply State.setFld_keeps | apply State.signal_keeps)
    | fail_if_no_progress with_reducible apply Keeps.mk_upd
    | (intro _ _ _; try dsimp only)
    | intro _
    | split

theorem State.modEvent_keeps {z s : State} (f : Fld) (hk : Keeps z s) :
    Keeps z (s.modEvent f) := by
  unfold State.modEvent
  try dsimp only
  repeat' first
    | with_reducible (first | exact hk | assumption | apply Keeps.ite | apply State.raiseEvent_keeps)
    | fail_if_no_progress with_reducible apply Keeps.mk_upd
    | (intro _ _ _; try dsimp only)
    | intro _
    | split

theorem State.stakeEvent_keeps {z s : State} (k : Nat) (f : Fld) (hk : Keeps z s) :
    Keeps z (s.stakeEvent k f) := by
  unfold State.stakeEvent
  try dsimp only
  repeat' first
    | with_reducible (first | exact hk | assumption | apply Keeps.ite | apply State.raiseEvent_keeps)
    | fail_if_no_progress with_reducible apply Keeps.mk_upd
    | (intro _ _ _; try dsimp only)
    | intro _
    | split

end Sys2Proof.Machine
end

