-- ==== Sys2Proof/Laws/KeepsOperands.lean ====
section
/-! SUPPORT. What the operations of Machine/Operands.lean keep (Laws/Keeps.lean). -/

namespace Sys2Proof.Machine

set_option linter.unusedTactic false
set_option linter.unreachableTactic false

theorem State.wrRow_keeps {z s : State} (a w : Nat) (codes : List Nat) (hk : Keeps z s) :
    Keeps z (s.wrRow a w codes) := by
  unfold State.wrRow
  try dsimp only
  repeat' first
    | with_reducible (first | exact hk | assumption | apply Keeps.ite | apply State.wr_keeps)
    | fail_if_no_progress with_reducible apply Keeps.mk_upd
    | (intro _ _ _; try dsimp only)
    | intro _
    | split

end Sys2Proof.Machine
end

