-- ==== Sys2Proof/Laws/KeepsFlags.lean ====
section
/-! SUPPORT. What the operations of Machine/Flags.lean keep (Laws/Keeps.lean). -/

namespace Sys2Proof.Machine

set_option linter.unusedTactic false
set_option linter.unreachableTactic false

theorem State.tap_keeps {z s : State} (k i maxabs nonfin sat : Nat) (hk : Keeps z s) :
    Keeps z (s.tap k i maxabs nonfin sat) := by
  unfold State.tap
  try dsimp only
  repeat' first
    | with_reducible (first | exact hk | assumption | apply Keeps.ite | apply State.setSlot_keeps)
    | fail_if_no_progress with_reducible apply Keeps.mk_upd
    | (intro _ _ _; try dsimp only)
    | intro _
    | split

end Sys2Proof.Machine
end

