-- ==== Sys2Proof/Laws/KeepsAccess.lean ====
section
/-! SUPPORT. What the operations of Machine/Access.lean keep (Laws/Keeps.lean). -/

namespace Sys2Proof.Machine

set_option linter.unusedTactic false
set_option linter.unreachableTactic false

theorem State.modLk_keeps {z s : State} (f : Lk → Lk) (hk : Keeps z s) :
    Keeps z (s.modLk f) := by
  unfold State.modLk
  try dsimp only
  repeat' first
    | with_reducible (first | exact hk | assumption | apply Keeps.ite)
    | fail_if_no_progress with_reducible apply Keeps.mk_upd
    | (intro _ _ _; try dsimp only)
    | intro _
    | split

theorem State.noResume_keeps {z s : State} (k : Nat) (hk : Keeps z s) :
    Keeps z (s.noResume k) := by
  unfold State.noResume
  try dsimp only
  repeat' first
    | with_reducible (first | exact hk | assumption | apply Keeps.ite | apply State.modLk_keeps)
    | fail_if_no_progress with_reducible apply Keeps.mk_upd
    | (intro _ _ _; try dsimp only)
    | intro _
    | split

theorem State.syncFault_keeps {z s : State} (hk : Keeps z s) :
    Keeps z s.syncFault := by
  unfold State.syncFault
  try dsimp only
  repeat' first
    | with_reducible (first | exact hk | assumption | apply Keeps.ite | apply State.modLk_keeps)
    | fail_if_no_progress with_reducible apply Keeps.mk_upd
    | (intro _ _ _; try dsimp only)
    | intro _
    | split

theorem State.hostRejected_keeps {z s : State} (hk : Keeps z s) :
    Keeps z s.hostRejected := by
  unfold State.hostRejected
  try dsimp only
  repeat' first
    | with_reducible (first | exact hk | assumption | apply Keeps.ite | apply State.addSat_keeps)
    | fail_if_no_progress with_reducible apply Keeps.mk_upd
    | (intro _ _ _; try dsimp only)
    | intro _
    | split

theorem State.dropWrite_keeps {z s : State} (m : Master) (hk : Keeps z s) :
    Keeps z (s.dropWrite m) := by
  unfold State.dropWrite
  try dsimp only
  repeat' first
    | with_reducible (first | exact hk | assumption | apply Keeps.ite | apply State.hostRejected_keeps | apply State.answer_keeps)
    | fail_if_no_progress with_reducible apply Keeps.mk_upd
    | (intro _ _ _; try dsimp only)
    | intro _
    | split

theorem State.wstat_keeps {z s : State} (m : Master) (a out : Nat) (hk : Keeps z s) :
    Keeps z (s.wstat m a out) := by
  unfold State.wstat
  try dsimp only
  repeat' first
    | with_reducible (first | exact hk | assumption | apply Keeps.ite | apply State.setReg_keeps | apply State.setFld_keeps | apply State.hostRejected_keeps)
    | fail_if_no_progress with_reducible apply Keeps.mk_upd
    | (intro _ _ _; try dsimp only)
    | intro _
    | split

theorem State.supersede_keeps {z s : State} (a : Nat) (m : Master) (rivals : List Master) (hk : Keeps z s) :
    Keeps z (s.supersede a m rivals) := by
  unfold State.supersede
  try dsimp only
  repeat' first
    | with_reducible (first | exact hk | assumption | apply Keeps.ite | apply State.wstat_keeps | apply Keeps.foldl | apply Keeps.foldl_fst | apply Keeps.foldl_snd)
    | fail_if_no_progress with_reducible apply Keeps.mk_upd
    | (intro _ _ _; try dsimp only)
    | intro _
    | split

theorem State.command_keeps {z s : State} (m : Master) (rivals : List Master) (a : Nat) (body : State → State) (hbody : ∀ u, Keeps z u → Keeps z (body u)) (hk : Keeps z s) :
    Keeps z (s.command m rivals a body) := by
  unfold State.command
  try dsimp only
  repeat' first
    | with_reducible (first | exact hk | assumption | apply Keeps.ite | apply State.dropWrite_keeps | apply State.wstat_keeps | apply State.answer_keeps | apply State.supersede_keeps | apply hbody)
    | fail_if_no_progress with_reducible apply Keeps.mk_upd
    | (intro _ _ _; try dsimp only)
    | intro _
    | split

end Sys2Proof.Machine
end

