-- ==== Sys2Proof/Laws/KeepsPsq.lean ====
section
/-! SUPPORT. What the operations of Machine/Psq.lean keep (Laws/Keeps.lean). -/

namespace Sys2Proof.Machine

set_option linter.unusedTactic false
set_option linter.unreachableTactic false

theorem State.setTok_keeps {z s : State} (k c v : Nat) (hk : Keeps z s) :
    Keeps z (s.setTok k c v) := by
  unfold State.setTok
  try dsimp only
  repeat' first
    | with_reducible (first | exact hk | assumption | apply Keeps.ite | apply State.setFld_keeps)
    | fail_if_no_progress with_reducible apply Keeps.mk_upd
    | (intro _ _ _; try dsimp only)
    | intro _
    | split

theorem State.takeTokens_keeps {z s : State} (k mask : Nat) (hk : Keeps z s) :
    Keeps z (s.takeTokens k mask) := by
  unfold State.takeTokens
  try dsimp only
  repeat' first
    | with_reducible (first | exact hk | assumption | apply Keeps.ite | apply State.forAll_keeps | apply State.setTok_keeps)
    | fail_if_no_progress with_reducible apply Keeps.mk_upd
    | (intro _ _ _; try dsimp only)
    | intro _
    | split

theorem State.giveTokens_keeps {z s : State} (k mask : Nat) (hk : Keeps z s) :
    Keeps z (s.giveTokens k mask) := by
  unfold State.giveTokens
  try dsimp only
  repeat' first
    | with_reducible (first | exact hk | assumption | apply Keeps.ite | apply State.forAll_keeps | apply State.setTok_keeps)
    | fail_if_no_progress with_reducible apply Keeps.mk_upd
    | (intro _ _ _; try dsimp only)
    | intro _
    | split

theorem State.setPst_keeps {z s : State} (k v : Nat) (hk : Keeps z s) :
    Keeps z (s.setPst k v) := by
  unfold State.setPst
  try dsimp only
  repeat' first
    | with_reducible (first | exact hk | assumption | apply Keeps.ite | apply State.setFld_keeps)
    | fail_if_no_progress with_reducible apply Keeps.mk_upd
    | (intro _ _ _; try dsimp only)
    | intro _
    | split

theorem State.setOutst_keeps {z s : State} (k : Nat) (l : List Outst) (hk : Keeps z s) :
    Keeps z (s.setOutst k l) := by
  unfold State.setOutst
  try dsimp only
  repeat' first
    | with_reducible (first | exact hk | assumption | apply Keeps.ite | apply State.setQ_keeps | apply State.forAll_keeps | apply State.setFld_keeps)
    | fail_if_no_progress with_reducible apply Keeps.mk_upd
    | (intro _ _ _; try dsimp only)
    | intro _
    | split

theorem State.updOutst_keeps {z s : State} (k n : Nat) (f : Outst → Outst) (hk : Keeps z s) :
    Keeps z (s.updOutst k n f) := by
  unfold State.updOutst
  try dsimp only
  repeat' first
    | with_reducible (first | exact hk | assumption | apply Keeps.ite | apply State.setQ_keeps)
    | fail_if_no_progress with_reducible apply Keeps.mk_upd
    | (intro _ _ _; try dsimp only)
    | intro _
    | split

theorem State.syncMxe_keeps {z s : State} (k e : Nat) (hk : Keeps z s) :
    Keeps z (s.syncMxe k e) := by
  unfold State.syncMxe
  try dsimp only
  repeat' first
    | with_reducible (first | exact hk | assumption | apply Keeps.ite | apply State.setFld_keeps)
    | fail_if_no_progress with_reducible apply Keeps.mk_upd
    | (intro _ _ _; try dsimp only)
    | intro _
    | split

theorem State.syncDvu_keeps {z s : State} (k e : Nat) (hk : Keeps z s) :
    Keeps z (s.syncDvu k e) := by
  unfold State.syncDvu
  try dsimp only
  repeat' first
    | with_reducible (first | exact hk | assumption | apply Keeps.ite | apply State.setFld_keeps)
    | fail_if_no_progress with_reducible apply Keeps.mk_upd
    | (intro _ _ _; try dsimp only)
    | intro _
    | split

theorem State.syncUnits_keeps {z s : State} (k : Nat) (hk : Keeps z s) :
    Keeps z (s.syncUnits k) := by
  unfold State.syncUnits
  try dsimp only
  repeat' first
    | with_reducible (first | exact hk | assumption | apply Keeps.ite | apply State.forAll_keeps | apply State.syncMxe_keeps | apply State.syncDvu_keeps)
    | fail_if_no_progress with_reducible apply Keeps.mk_upd
    | (intro _ _ _; try dsimp only)
    | intro _
    | split

theorem State.writeCtxLive_keeps {z s : State} (k : Nat) (hk : Keeps z s) :
    Keeps z (s.writeCtxLive k) := by
  unfold State.writeCtxLive
  try dsimp only
  repeat' first
    | with_reducible (first | exact hk | assumption | apply Keeps.ite | apply State.forAll_keeps | apply State.wr_keeps)
    | fail_if_no_progress with_reducible apply Keeps.mk_upd
    | (intro _ _ _; try dsimp only)
    | intro _
    | split

theorem State.writeCtx_keeps {z s : State} (k : Nat) (hk : Keeps z s) :
    Keeps z (s.writeCtx k) := by
  unfold State.writeCtx
  try dsimp only
  repeat' first
    | with_reducible (first | exact hk | assumption | apply Keeps.ite | apply State.wr_keeps | apply State.writeCtxLive_keeps | apply State.forAll_keeps)
    | fail_if_no_progress with_reducible apply Keeps.mk_upd
    | (intro _ _ _; try dsimp only)
    | intro _
    | split

theorem State.ctxThrough_keeps {z s : State} (k : Nat) (hk : Keeps z s) :
    Keeps z (s.ctxThrough k) := by
  unfold State.ctxThrough
  try dsimp only
  repeat' first
    | with_reducible (first | exact hk | assumption | apply Keeps.ite | apply State.writeCtxLive_keeps)
    | fail_if_no_progress with_reducible apply Keeps.mk_upd
    | (intro _ _ _; try dsimp only)
    | intro _
    | split

theorem State.extPost_keeps {z s : State} (k mask : Nat) (hk : Keeps z s) :
    Keeps z (s.extPost k mask) := by
  unfold State.extPost
  try dsimp only
  repeat' first
    | with_reducible (first | exact hk | assumption | apply Keeps.ite | apply State.giveTokens_keeps | apply State.ctxThrough_keeps)
    | fail_if_no_progress with_reducible apply Keeps.mk_upd
    | (intro _ _ _; try dsimp only)
    | intro _
    | split

theorem State.rollback_keeps {z s : State} (k : Nat) (gone : List Outst) (x : Nat) (hk : Keeps z s) :
    Keeps z (s.rollback k gone x) := by
  unfold State.rollback
  try dsimp only
  repeat' first
    | with_reducible (first | exact hk | assumption | apply Keeps.ite | apply State.setReg_keeps | apply State.setQ_keeps)
    | fail_if_no_progress with_reducible apply Keeps.mk_upd
    | (intro _ _ _; try dsimp only)
    | intro _
    | split

theorem State.unwind_keeps {z s : State} (k : Nat) (o : Outst) (hk : Keeps z s) :
    Keeps z (s.unwind k o) := by
  unfold State.unwind
  try dsimp only
  repeat' first
    | with_reducible (first | exact hk | assumption | apply Keeps.ite | apply State.setAs_keeps | apply State.setReg_keeps)
    | fail_if_no_progress with_reducible apply Keeps.mk_upd
    | (intro _ _ _; try dsimp only)
    | intro _
    | split

theorem State.withdrawSome_keeps {z s : State} (k : Nat) (p : Outst → Bool) (hk : Keeps z s) :
    Keeps z (s.withdrawSome k p) := by
  unfold State.withdrawSome
  try dsimp only
  repeat' first
    | with_reducible (first | exact hk | assumption | apply Keeps.ite | apply State.rollback_keeps | apply State.giveTokens_keeps | apply State.unwind_keeps | apply State.setOutst_keeps | apply State.syncUnits_keeps | apply Keeps.foldl | apply Keeps.foldl_fst | apply Keeps.foldl_snd)
    | fail_if_no_progress with_reducible apply Keeps.mk_upd
    | (intro _ _ _; try dsimp only)
    | intro _
    | split

theorem State.withdraw_keeps {z s : State} (k : Nat) (hk : Keeps z s) :
    Keeps z (s.withdraw k) := by
  unfold State.withdraw
  try dsimp only
  repeat' first
    | with_reducible (first | exact hk | assumption | apply Keeps.ite | apply State.withdrawSome_keeps | apply State.setQ_keeps)
    | fail_if_no_progress with_reducible apply Keeps.mk_upd
    | (intro _ _ _; try dsimp only)
    | intro _
    | split

theorem State.stopNow_keeps {z s : State} (k : Nat) (hk : Keeps z s) :
    Keeps z (s.stopNow k) := by
  unfold State.stopNow
  try dsimp only
  repeat' first
    | with_reducible (first | exact hk | assumption | apply Keeps.ite | apply State.withdraw_keeps | apply State.setPst_keeps)
    | fail_if_no_progress with_reducible apply Keeps.mk_upd
    | (intro _ _ _; try dsimp only)
    | intro _
    | split

theorem State.beginStop_keeps {z s : State} (k : Nat) (cause : Fld) (hk : Keeps z s) :
    Keeps z (s.beginStop k cause) := by
  unfold State.beginStop
  try dsimp only
  repeat' first
    | with_reducible (first | exact hk | assumption | apply Keeps.ite | apply State.setFld_keeps | apply State.stopNow_keeps)
    | fail_if_no_progress with_reducible apply Keeps.mk_upd
    | (intro _ _ _; try dsimp only)
    | intro _
    | split

theorem State.raiseFault_keeps {z s : State} (k x index code unit : Nat) (after : Bool) (hk : Keeps z s) :
    Keeps z (s.raiseFault k x index code unit after) := by
  unfold State.raiseFault
  try dsimp only
  repeat' first
    | with_reducible (first | exact hk | assumption | apply Keeps.ite | apply State.setFld_keeps | apply State.setReg_keeps | apply State.stakeEvent_keeps | apply State.beginStop_keeps)
    | fail_if_no_progress with_reducible apply Keeps.mk_upd
    | (intro _ _ _; try dsimp only)
    | intro _
    | split

theorem State.faultOut_keeps {z s : State} (k : Nat) (o : Outst) (code unit : Nat) (hk : Keeps z s) :
    Keeps z (s.faultOut k o code unit) := by
  unfold State.faultOut
  try dsimp only
  repeat' first
    | with_reducible (first | exact hk | assumption | apply Keeps.ite | apply State.raiseFault_keeps | apply State.withdrawSome_keeps)
    | fail_if_no_progress with_reducible apply Keeps.mk_upd
    | (intro _ _ _; try dsimp only)
    | intro _
    | split

theorem State.autoResume_keeps {z s : State} (k : Nat) (hk : Keeps z s) :
    Keeps z (s.autoResume k) := by
  unfold State.autoResume
  try dsimp only
  repeat' first
    | with_reducible (first | exact hk | assumption | apply Keeps.ite | apply State.setPst_keeps | apply State.setFld_keeps)
    | fail_if_no_progress with_reducible apply Keeps.mk_upd
    | (intro _ _ _; try dsimp only)
    | intro _
    | split

theorem State.asuErr_keeps {z s : State} (d k x index code : Nat) (hk : Keeps z s) :
    Keeps z (s.asuErr d k x index code) := by
  unfold State.asuErr
  try dsimp only
  repeat' first
    | with_reducible (first | exact hk | assumption | apply Keeps.ite | apply State.setFld_keeps | apply State.setReg_keeps)
    | fail_if_no_progress with_reducible apply Keeps.mk_upd
    | (intro _ _ _; try dsimp only)
    | intro _
    | split

theorem State.kvpErr_keeps {z s : State} (k x index code : Nat) (hk : Keeps z s) :
    Keeps z (s.kvpErr k x index code) := by
  unfold State.kvpErr
  try dsimp only
  repeat' first
    | with_reducible (first | exact hk | assumption | apply Keeps.ite | apply State.setFld_keeps | apply State.setReg_keeps)
    | fail_if_no_progress with_reducible apply Keeps.mk_upd
    | (intro _ _ _; try dsimp only)
    | intro _
    | split

theorem State.rdxFault_keeps {z s : State} (k code : Nat) (job : Option Nat) (hk : Keeps z s) :
    Keeps z (s.rdxFault k code job) := by
  unfold State.rdxFault
  try dsimp only
  repeat' first
    | with_reducible (first | exact hk | assumption | apply Keeps.ite | apply State.setFld_keeps)
    | fail_if_no_progress with_reducible apply Keeps.mk_upd
    | (intro _ _ _; try dsimp only)
    | intro _
    | split

theorem State.raiseHead_keeps {z s : State} (k x w code : Nat) (hk : Keeps z s) :
    Keeps z (s.raiseHead k x w code) := by
  unfold State.raiseHead
  try dsimp only
  repeat' first
    | with_reducible (first | exact hk | assumption | apply Keeps.ite | apply State.asuErr_keeps | apply State.rdxFault_keeps | apply State.kvpErr_keeps | apply State.raiseFault_keeps)
    | fail_if_no_progress with_reducible apply Keeps.mk_upd
    | (intro _ _ _; try dsimp only)
    | intro _
    | split

theorem State.stepIndex_keeps {z s : State} (k x pc : Nat) (hk : Keeps z s) :
    Keeps z (s.stepIndex k x pc) := by
  unfold State.stepIndex
  try dsimp only
  repeat' first
    | with_reducible (first | exact hk | assumption | apply Keeps.ite | apply State.setFld_keeps | apply State.setReg_keeps | apply State.setQ_keeps)
    | fail_if_no_progress with_reducible apply Keeps.mk_upd
    | (intro _ _ _; try dsimp only)
    | intro _
    | split

theorem State.fetchLine_keeps {z s : State} (k x : Nat) (hk : Keeps z s) :
    Keeps z (s.fetchLine k x) := by
  unfold State.fetchLine
  try dsimp only
  repeat' first
    | with_reducible (first | exact hk | assumption | apply Keeps.ite | apply State.setQ_keeps)
    | fail_if_no_progress with_reducible apply Keeps.mk_upd
    | (intro _ _ _; try dsimp only)
    | intro _
    | split

theorem State.skipDone_keeps {z s : State} (k x : Nat) (n : Nat) (hk : Keeps z s) :
    Keeps z (s.skipDone k x n) := by
  induction n generalizing s  with
  | zero => exact hk
  | succ n ih =>
    unfold State.skipDone
    try dsimp only
    repeat' first
      | with_reducible (first | exact hk | assumption | apply Keeps.ite | apply State.fetchLine_keeps | apply State.stepIndex_keeps | apply ih)
      | fail_if_no_progress with_reducible apply Keeps.mk_upd
      | (intro _ _ _; try dsimp only)
      | intro _
      | split

theorem State.advance_keeps {z s : State} (k x pc : Nat) (hk : Keeps z s) :
    Keeps z (s.advance k x pc) := by
  unfold State.advance
  try dsimp only
  repeat' first
    | with_reducible (first | exact hk | assumption | apply Keeps.ite | apply State.stepIndex_keeps | apply State.skipDone_keeps)
    | fail_if_no_progress with_reducible apply Keeps.mk_upd
    | (intro _ _ _; try dsimp only)
    | intro _
    | split

theorem State.withHead_keeps {z s : State} (k x : Nat) (opcs : List Nat) (body : Nat → State → State) (hbody : ∀ x0 u, Keeps z u → Keeps z (body x0 u)) (hk : Keeps z s) :
    Keeps z (s.withHead k x opcs body) := by
  unfold State.withHead
  try dsimp only
  repeat' first
    | with_reducible (first | exact hk | assumption | apply Keeps.ite | apply State.raiseHead_keeps | apply hbody)
    | fail_if_no_progress with_reducible apply Keeps.mk_upd
    | (intro _ _ _; try dsimp only)
    | intro _
    | split

theorem State.postSet_keeps {z s : State} (k x index v : Nat) (hk : Keeps z s) :
    Keeps z (s.postSet k x index v) := by
  unfold State.postSet
  try dsimp only
  repeat' first
    | with_reducible (first | exact hk | assumption | apply Keeps.ite | apply State.giveTokens_keeps | apply State.raiseFault_keeps)
    | fail_if_no_progress with_reducible apply Keeps.mk_upd
    | (intro _ _ _; try dsimp only)
    | intro _
    | split

theorem State.dispatchDone_keeps {z s : State} (k x w pc : Nat) (hk : Keeps z s) :
    Keeps z (s.dispatchDone k x w pc) := by
  unfold State.dispatchDone
  try dsimp only
  repeat' first
    | with_reducible (first | exact hk | assumption | apply Keeps.ite | apply State.takeTokens_keeps | apply State.advance_keeps | apply State.postSet_keeps)
    | fail_if_no_progress with_reducible apply Keeps.mk_upd
    | (intro _ _ _; try dsimp only)
    | intro _
    | split

theorem State.dispatchOut_keeps {z s : State} (k x w unit : Nat) (issued : Bool) (desc chain : List Byte) (frame : Nat) (hk : Keeps z s) :
    Keeps z (s.dispatchOut k x w unit issued desc chain frame) := by
  unfold State.dispatchOut
  try dsimp only
  repeat' first
    | with_reducible (first | exact hk | assumption | apply Keeps.ite | apply State.takeTokens_keeps | apply State.setQ_keeps | apply State.setOutst_keeps | apply State.advance_keeps)
    | fail_if_no_progress with_reducible apply Keeps.mk_upd
    | (intro _ _ _; try dsimp only)
    | intro _
    | split

theorem State.complete_keeps {z s : State} (k : Nat) (o : Outst) (hk : Keeps z s) :
    Keeps z (s.complete k o) := by
  unfold State.complete
  try dsimp only
  repeat' first
    | with_reducible (first | exact hk | assumption | apply Keeps.ite | apply State.setOutst_keeps | apply State.postSet_keeps)
    | fail_if_no_progress with_reducible apply Keeps.mk_upd
    | (intro _ _ _; try dsimp only)
    | intro _
    | split

theorem State.checkHead_keeps {z s : State} (k x : Nat) (hk : Keeps z s) :
    Keeps z (s.checkHead k x) := by
  unfold State.checkHead
  try dsimp only
  repeat' first
    | with_reducible (first | exact hk | assumption | apply Keeps.ite | apply State.raiseHead_keeps)
    | fail_if_no_progress with_reducible apply Keeps.mk_upd
    | (intro _ _ _; try dsimp only)
    | intro _
    | split

theorem State.programFetch_keeps {z s : State} (k x : Nat) (hk : Keeps z s) :
    Keeps z (s.programFetch k x) := by
  unfold State.programFetch
  try dsimp only
  repeat' first
    | with_reducible (first | exact hk | assumption | apply Keeps.ite | apply State.skipDone_keeps | apply State.setFld_keeps | apply State.raiseFault_keeps | apply State.checkHead_keeps | apply State.fetchLine_keeps)
    | fail_if_no_progress with_reducible apply Keeps.mk_upd
    | (intro _ _ _; try dsimp only)
    | intro _
    | split

theorem State.syncAsu_keeps {z s : State} (d k : Nat) (hk : Keeps z s) :
    Keeps z (s.syncAsu d k) := by
  unfold State.syncAsu
  try dsimp only
  repeat' first
    | with_reducible (first | exact hk | assumption | apply Keeps.ite | apply State.setFld_keeps | apply State.forAll_keeps | apply State.setReg_keeps | apply Keeps.foldl | apply Keeps.foldl_fst | apply Keeps.foldl_snd)
    | fail_if_no_progress with_reducible apply Keeps.mk_upd
    | (intro _ _ _; try dsimp only)
    | intro _
    | split

theorem State.setMb_keeps {z s : State} (k t : Nat) (b : Bool) (hk : Keeps z s) :
    Keeps z (s.setMb k t b) := by
  unfold State.setMb
  try dsimp only
  repeat' first
    | with_reducible (first | exact hk | assumption | apply Keeps.ite | apply State.setFld_keeps)
    | fail_if_no_progress with_reducible apply Keeps.mk_upd
    | (intro _ _ _; try dsimp only)
    | intro _
    | split

theorem State.mbegin_keeps {z s : State} (k : Nat) (hk : Keeps z s) :
    Keeps z (s.mbegin k) := by
  unfold State.mbegin
  try dsimp only
  repeat' first
    | with_reducible (first | exact hk | assumption | apply Keeps.ite | apply State.withHead_keeps | apply State.raiseFault_keeps | apply State.forAll_keeps | apply State.setAs_keeps | apply State.syncAsu_keeps | apply State.setMb_keeps | apply State.dispatchDone_keeps)
    | fail_if_no_progress with_reducible apply Keeps.mk_upd
    | (intro _ _ _; try dsimp only)
    | intro _
    | split

theorem State.mend_keeps {z s : State} (k : Nat) (hk : Keeps z s) :
    Keeps z (s.mend k) := by
  unfold State.mend
  try dsimp only
  repeat' first
    | with_reducible (first | exact hk | assumption | apply Keeps.ite | apply State.withHead_keeps | apply State.raiseFault_keeps | apply State.forAll_keeps | apply State.asuErr_keeps | apply State.setAs_keeps | apply State.syncAsu_keeps | apply State.setMb_keeps | apply State.dispatchDone_keeps)
    | fail_if_no_progress with_reducible apply Keeps.mk_upd
    | (intro _ _ _; try dsimp only)
    | intro _
    | split

theorem State.sealBegin_keeps {z s : State} (k : Nat) (hk : Keeps z s) :
    Keeps z (s.sealBegin k) := by
  unfold State.sealBegin
  try dsimp only
  repeat' first
    | with_reducible (first | exact hk | assumption | apply Keeps.ite | apply State.withHead_keeps | apply State.raiseFault_keeps | apply State.takeTokens_keeps | apply State.setFld_keeps | apply State.setQ_keeps)
    | fail_if_no_progress with_reducible apply Keeps.mk_upd
    | (intro _ _ _; try dsimp only)
    | intro _
    | split

theorem State.latchStats_keeps {z s : State} (k : Nat) (hk : Keeps z s) :
    Keeps z (s.latchStats k) := by
  unfold State.latchStats
  try dsimp only
  repeat' first
    | with_reducible (first | exact hk | assumption | apply Keeps.ite | apply State.forAll_keeps | apply State.setFld_keeps | apply State.setReg_keeps | apply Keeps.foldl | apply Keeps.foldl_fst | apply Keeps.foldl_snd)
    | fail_if_no_progress with_reducible apply Keeps.mk_upd
    | (intro _ _ _; try dsimp only)
    | intro _
    | split

theorem State.restartStats_keeps {z s : State} (k : Nat) (hk : Keeps z s) :
    Keeps z (s.restartStats k) := by
  unfold State.restartStats
  try dsimp only
  repeat' first
    | with_reducible (first | exact hk | assumption | apply Keeps.ite | apply State.forAll_keeps | apply State.setSlot_keeps | apply State.resetRegs_keeps | apply State.count_keeps | apply State.setReg_keeps | apply Keeps.foldl | apply Keeps.foldl_fst | apply Keeps.foldl_snd)
    | fail_if_no_progress with_reducible apply Keeps.mk_upd
    | (intro _ _ _; try dsimp only)
    | intro _
    | split

theorem State.sealLatch_keeps {z s : State} (k : Nat) (handoff : State → Nat → Option (List (Nat × Slot)) → State) (hhandoff : ∀ u x1 x2, Keeps z u → Keeps z (handoff u x1 x2)) (hk : Keeps z s) :
    Keeps z (s.sealLatch k handoff) := by
  unfold State.sealLatch
  try dsimp only
  repeat' first
    | with_reducible (first | exact hk | assumption | apply Keeps.ite | apply State.setQ_keeps | apply State.setFld_keeps | apply State.giveTokens_keeps | apply State.raiseFault_keeps | apply State.latchStats_keeps | apply State.restartStats_keeps | apply State.advance_keeps | apply State.postSet_keeps | apply State.stopNow_keeps | apply hhandoff)
    | fail_if_no_progress with_reducible apply Keeps.mk_upd
    | (intro _ _ _; try dsimp only)
    | intro _
    | split

theorem State.refuse_keeps {z s : State} (k : Nat) (hk : Keeps z s) :
    Keeps z (s.refuse k) := by
  unfold State.refuse
  try dsimp only
  repeat' first
    | with_reducible (first | exact hk | assumption | apply Keeps.ite | apply State.setFld_keeps)
    | fail_if_no_progress with_reducible apply Keeps.mk_upd
    | (intro _ _ _; try dsimp only)
    | intro _
    | split

theorem State.accept_keeps {z s : State} (k : Nat) (hk : Keeps z s) :
    Keeps z (s.accept k) := by
  unfold State.accept
  try dsimp only
  repeat' first
    | with_reducible (first | exact hk | assumption | apply Keeps.ite | apply State.setFld_keeps)
    | fail_if_no_progress with_reducible apply Keeps.mk_upd
    | (intro _ _ _; try dsimp only)
    | intro _
    | split

theorem State.psqStart_keeps {z s : State} (k : Nat) (hk : Keeps z s) :
    Keeps z (s.psqStart k) := by
  unfold State.psqStart
  try dsimp only
  repeat' first
    | with_reducible (first | exact hk | assumption | apply Keeps.ite | apply State.accept_keeps | apply State.forAll_keeps | apply State.setReg_keeps | apply State.setQ_keeps | apply State.setPst_keeps | apply State.stopNow_keeps | apply State.refuse_keeps)
    | fail_if_no_progress with_reducible apply Keeps.mk_upd
    | (intro _ _ _; try dsimp only)
    | intro _
    | split

theorem State.psqStop_keeps {z s : State} (k : Nat) (hk : Keeps z s) :
    Keeps z (s.psqStop k) := by
  unfold State.psqStop
  try dsimp only
  repeat' first
    | with_reducible (first | exact hk | assumption | apply Keeps.ite | apply State.accept_keeps | apply State.beginStop_keeps | apply State.refuse_keeps)
    | fail_if_no_progress with_reducible apply Keeps.mk_upd
    | (intro _ _ _; try dsimp only)
    | intro _
    | split

theorem State.skipFaulting_keeps {z s : State} (k skip x : Nat) (hk : Keeps z s) :
    Keeps z (s.skipFaulting k skip x) := by
  unfold State.skipFaulting
  try dsimp only
  repeat' first
    | with_reducible (first | exact hk | assumption | apply Keeps.ite | apply State.setQ_keeps | apply State.setReg_keeps)
    | fail_if_no_progress with_reducible apply Keeps.mk_upd
    | (intro _ _ _; try dsimp only)
    | intro _
    | split

theorem State.psqResume_keeps {z s : State} (k skip : Nat) (rebuild : State → Nat → State) (hrebuild : ∀ u x1, Keeps z u → Keeps z (rebuild u x1)) (hk : Keeps z s) :
    Keeps z (s.psqResume k skip rebuild) := by
  unfold State.psqResume
  try dsimp only
  repeat' first
    | with_reducible (first | exact hk | assumption | apply Keeps.ite | apply State.accept_keeps | apply State.forAll_keeps | apply State.skipFaulting_keeps | apply State.setReg_keeps | apply State.setFld_keeps | apply State.setQ_keeps | apply State.autoResume_keeps | apply State.refuse_keeps | apply hrebuild)
    | fail_if_no_progress with_reducible apply Keeps.mk_upd
    | (intro _ _ _; try dsimp only)
    | intro _
    | split

theorem State.psqRestore_keeps {z s : State} (k : Nat) (hk : Keeps z s) :
    Keeps z (s.psqRestore k) := by
  unfold State.psqRestore
  try dsimp only
  repeat' first
    | with_reducible (first | exact hk | assumption | apply Keeps.ite | apply State.accept_keeps | apply State.setQ_keeps | apply State.setReg_keeps | apply State.setPst_keeps | apply State.stopNow_keeps | apply State.refuse_keeps)
    | fail_if_no_progress with_reducible apply Keeps.mk_upd
    | (intro _ _ _; try dsimp only)
    | intro _
    | split

theorem State.stopComplete_keeps {z s : State} (k : Nat) (hk : Keeps z s) :
    Keeps z (s.stopComplete k) := by
  unfold State.stopComplete
  try dsimp only
  repeat' first
    | with_reducible (first | exact hk | assumption | apply Keeps.ite | apply State.writeCtx_keeps | apply State.setPst_keeps | apply State.setFld_keeps | apply State.stakeEvent_keeps | apply State.autoResume_keeps)
    | fail_if_no_progress with_reducible apply Keeps.mk_upd
    | (intro _ _ _; try dsimp only)
    | intro _
    | split

theorem State.setLimit_keeps {z s : State} (k x v : Nat) (hk : Keeps z s) :
    Keeps z (s.setLimit k x v).1 := by
  unfold State.setLimit
  try dsimp only
  repeat' first
    | with_reducible (first | exact hk | assumption | apply Keeps.ite | apply State.setReg_keeps | apply State.ctxThrough_keeps)
    | fail_if_no_progress with_reducible apply Keeps.mk_upd
    | (intro _ _ _; try dsimp only)
    | intro _
    | split

end Sys2Proof.Machine
end

