-- ==== Sys2Proof/Laws/KeepsAsu.lean ====
section
/-! SUPPORT. What the operations of Machine/Asu.lean keep (Laws/Keeps.lean). -/

namespace Sys2Proof.Machine

set_option linter.unusedTactic false
set_option linter.unreachableTactic false

theorem State.wrTrailer_keeps {z s : State} (d k : Nat) (f : Frame) (hk : Keeps z s) :
    Keeps z (s.wrTrailer d k f) := by
  unfold State.wrTrailer
  try dsimp only
  repeat' first
    | with_reducible (first | exact hk | assumption | apply Keeps.ite | apply State.wr_keeps)
    | fail_if_no_progress with_reducible apply Keeps.mk_upd
    | (intro _ _ _; try dsimp only)
    | intro _
    | split

theorem State.mapFrames_keeps {z s : State} (d k : Nat) (g : Frame → Frame) (hk : Keeps z s) :
    Keeps z (s.mapFrames d k g) := by
  unfold State.mapFrames
  try dsimp only
  repeat' first
    | with_reducible (first | exact hk | assumption | apply Keeps.ite | apply State.wrTrailer_keeps | apply State.setAs_keeps | apply State.syncAsu_keeps | apply Keeps.foldl | apply Keeps.foldl_fst | apply Keeps.foldl_snd)
    | fail_if_no_progress with_reducible apply Keeps.mk_upd
    | (intro _ _ _; try dsimp only)
    | intro _
    | split

theorem State.asuRebuildDie_keeps {z s : State} (k d : Nat) (hk : Keeps z s) :
    Keeps z (s.asuRebuildDie k d) := by
  unfold State.asuRebuildDie
  try dsimp only
  repeat' first
    | with_reducible (first | exact hk | assumption | apply Keeps.ite | apply State.setAs_keeps | apply State.syncAsu_keeps)
    | fail_if_no_progress with_reducible apply Keeps.mk_upd
    | (intro _ _ _; try dsimp only)
    | intro _
    | split

theorem State.asuRebuild_keeps {z s : State} (k : Nat) (hk : Keeps z s) :
    Keeps z (s.asuRebuild k) := by
  unfold State.asuRebuild
  try dsimp only
  repeat' first
    | with_reducible (first | exact hk | assumption | apply Keeps.ite | apply State.forAll_keeps | apply State.asuRebuildDie_keeps)
    | fail_if_no_progress with_reducible apply Keeps.mk_upd
    | (intro _ _ _; try dsimp only)
    | intro _
    | split

theorem State.asFault_keeps {z s : State} (d k x code : Nat) (hk : Keeps z s) :
    Keeps z (s.asFault d k x code) := by
  unfold State.asFault
  try dsimp only
  repeat' first
    | with_reducible (first | exact hk | assumption | apply Keeps.ite | apply State.asuErr_keeps | apply State.raiseFault_keeps)
    | fail_if_no_progress with_reducible apply Keeps.mk_upd
    | (intro _ _ _; try dsimp only)
    | intro _
    | split

theorem State.stackOp_keeps {z s : State} (k x opc : Nat) (rsv : Nat → Bool) (body : Nat → Nat → State → State) (hbody : ∀ x0 x1 u, Keeps z u → Keeps z (body x0 x1 u)) (hk : Keeps z s) :
    Keeps z (s.stackOp k x opc rsv body) := by
  unfold State.stackOp
  try dsimp only
  repeat' first
    | with_reducible (first | exact hk | assumption | apply Keeps.ite | apply State.withHead_keeps | apply State.asFault_keeps | apply hbody)
    | fail_if_no_progress with_reducible apply Keeps.mk_upd
    | (intro _ _ _; try dsimp only)
    | intro _
    | split

theorem State.sopen_keeps {z s : State} (k x : Nat) (hk : Keeps z s) :
    Keeps z (s.sopen k x) := by
  unfold State.sopen
  try dsimp only
  repeat' first
    | with_reducible (first | exact hk | assumption | apply Keeps.ite | apply State.stackOp_keeps | apply State.asFault_keeps | apply State.setAs_keeps | apply State.wrTrailer_keeps | apply State.syncAsu_keeps | apply State.dispatchDone_keeps)
    | fail_if_no_progress with_reducible apply Keeps.mk_upd
    | (intro _ _ _; try dsimp only)
    | intro _
    | split

theorem State.sclose_keeps {z s : State} (k x : Nat) (hk : Keeps z s) :
    Keeps z (s.sclose k x) := by
  unfold State.sclose
  try dsimp only
  repeat' first
    | with_reducible (first | exact hk | assumption | apply Keeps.ite | apply State.stackOp_keeps | apply State.asFault_keeps | apply State.dispatchOut_keeps | apply State.updOutst_keeps)
    | fail_if_no_progress with_reducible apply Keeps.mk_upd
    | (intro _ _ _; try dsimp only)
    | intro _
    | split

theorem State.scloseIssue_keeps {z s : State} (k : Nat) (hk : Keeps z s) :
    Keeps z (s.scloseIssue k) := by
  unfold State.scloseIssue
  try dsimp only
  repeat' first
    | with_reducible (first | exact hk | assumption | apply Keeps.ite | apply State.mapFrames_keeps | apply State.complete_keeps | apply Keeps.foldl | apply Keeps.foldl_fst | apply Keeps.foldl_snd)
    | fail_if_no_progress with_reducible apply Keeps.mk_upd
    | (intro _ _ _; try dsimp only)
    | intro _
    | split

theorem State.spop_keeps {z s : State} (k : Nat) (hk : Keeps z s) :
    Keeps z (s.spop k) := by
  unfold State.spop
  try dsimp only
  repeat' first
    | with_reducible (first | exact hk | assumption | apply Keeps.ite | apply State.stackOp_keeps | apply State.asFault_keeps | apply State.mapFrames_keeps | apply State.setAs_keeps | apply State.dispatchDone_keeps)
    | fail_if_no_progress with_reducible apply Keeps.mk_upd
    | (intro _ _ _; try dsimp only)
    | intro _
    | split

theorem State.sdrop_keeps {z s : State} (k : Nat) (hk : Keeps z s) :
    Keeps z (s.sdrop k) := by
  unfold State.sdrop
  try dsimp only
  repeat' first
    | with_reducible (first | exact hk | assumption | apply Keeps.ite | apply State.stackOp_keeps | apply State.asFault_keeps | apply State.mapFrames_keeps | apply State.dispatchOut_keeps)
    | fail_if_no_progress with_reducible apply Keeps.mk_upd
    | (intro _ _ _; try dsimp only)
    | intro _
    | split

theorem State.sbind_keeps {z s : State} (k : Nat) (hk : Keeps z s) :
    Keeps z (s.sbind k) := by
  unfold State.sbind
  try dsimp only
  repeat' first
    | with_reducible (first | exact hk | assumption | apply Keeps.ite | apply State.stackOp_keeps | apply State.asFault_keeps | apply State.count_keeps | apply State.setAs_keeps | apply State.mapFrames_keeps | apply State.wr_keeps | apply State.dispatchDone_keeps)
    | fail_if_no_progress with_reducible apply Keeps.mk_upd
    | (intro _ _ _; try dsimp only)
    | intro _
    | split

theorem State.copySeg_keeps {z s : State} (d k : Nat) (p : Nat × Nat) (a : Nat) (hk : Keeps z s) :
    Keeps z (s.copySeg d k p a) := by
  unfold State.copySeg
  try dsimp only
  repeat' first
    | with_reducible (first | exact hk | assumption | apply Keeps.ite | apply State.wrPoison_keeps | apply State.wr_keeps)
    | fail_if_no_progress with_reducible apply Keeps.mk_upd
    | (intro _ _ _; try dsimp only)
    | intro _
    | split

theorem State.evict_keeps {z s : State} (d k : Nat) (p : Nat × Nat) (hk : Keeps z s) :
    Keeps z (s.evict d k p) := by
  unfold State.evict
  try dsimp only
  repeat' first
    | with_reducible (first | exact hk | assumption | apply Keeps.ite | apply State.count_keeps | apply State.setAs_keeps | apply State.copySeg_keeps)
    | fail_if_no_progress with_reducible apply Keeps.mk_upd
    | (intro _ _ _; try dsimp only)
    | intro _
    | split

theorem State.poolErrs_keeps {z s : State} (d k home : Nat) (x : Errs) (hk : Keeps z s) :
    Keeps z (s.poolErrs d k home x) := by
  unfold State.poolErrs
  try dsimp only
  repeat' first
    | with_reducible (first | exact hk | assumption | apply Keeps.ite | apply State.spadEcc_keeps | apply State.poisonRange_keeps | apply Keeps.foldl | apply Keeps.foldl_fst | apply Keeps.foldl_snd)
    | fail_if_no_progress with_reducible apply Keeps.mk_upd
    | (intro _ _ _; try dsimp only)
    | intro _
    | split

theorem State.evictFrame_keeps {z s : State} (d k : Nat) (f : Frame) (x : Errs) (hk : Keeps z s) :
    Keeps z (s.evictFrame d k f x) := by
  unfold State.evictFrame
  try dsimp only
  repeat' first
    | with_reducible (first | exact hk | assumption | apply Keeps.ite | apply State.poolErrs_keeps | apply State.setAs_keeps | apply State.evict_keeps | apply Keeps.foldl | apply Keeps.foldl_fst | apply Keeps.foldl_snd)
    | fail_if_no_progress with_reducible apply Keeps.mk_upd
    | (intro _ _ _; try dsimp only)
    | intro _
    | split

theorem State.segmentPush_keeps {z s : State} (d k : Nat) (x : Errs) (hk : Keeps z s) :
    Keeps z (s.segmentPush d k x) := by
  unfold State.segmentPush
  try dsimp only
  repeat' first
    | with_reducible (first | exact hk | assumption | apply Keeps.ite | apply State.setAs_keeps | apply State.count_keeps | apply State.evictFrame_keeps)
    | fail_if_no_progress with_reducible apply Keeps.mk_upd
    | (intro _ _ _; try dsimp only)
    | intro _
    | split

theorem State.segmentDone_keeps {z s : State} (d k : Nat) (x : Errs) (hk : Keeps z s) :
    Keeps z (s.segmentDone d k x) := by
  unfold State.segmentDone
  try dsimp only
  repeat' first
    | with_reducible (first | exact hk | assumption | apply Keeps.ite | apply State.setAs_keeps | apply State.readErrs_keeps | apply State.count_keeps | apply State.evictFrame_keeps)
    | fail_if_no_progress with_reducible apply Keeps.mk_upd
    | (intro _ _ _; try dsimp only)
    | intro _
    | split

theorem State.asuFlush_keeps {z s : State} (k : Nat) (hk : Keeps z s) :
    Keeps z (s.asuFlush k) := by
  unfold State.asuFlush
  try dsimp only
  repeat' first
    | with_reducible (first | exact hk | assumption | apply Keeps.ite | apply State.forAll_keeps | apply State.setAs_keeps | apply State.evict_keeps | apply State.count_keeps | apply Keeps.foldl | apply Keeps.foldl_fst | apply Keeps.foldl_snd)
    | fail_if_no_progress with_reducible apply Keeps.mk_upd
    | (intro _ _ _; try dsimp only)
    | intro _
    | split

theorem State.asuClear_keeps {z s : State} (k : Nat) (hk : Keeps z s) :
    Keeps z (s.asuClear k) := by
  unfold State.asuClear
  try dsimp only
  repeat' first
    | with_reducible (first | exact hk | assumption | apply Keeps.ite | apply State.forAll_keeps | apply State.setAs_keeps | apply State.syncAsu_keeps)
    | fail_if_no_progress with_reducible apply Keeps.mk_upd
    | (intro _ _ _; try dsimp only)
    | intro _
    | split

end Sys2Proof.Machine
end

