-- ==== Sys2Proof/Laws/KeepsPsqc.lean ====
section
/-! SUPPORT. What the operations of Machine/Psqc.lean keep (Laws/Keeps.lean). -/

namespace Sys2Proof.Machine

set_option linter.unusedTactic false
set_option linter.unreachableTactic false

theorem State.psqDo_keeps {z s : State} (k cmd skip : Nat) (hk : Keeps z s) :
    Keeps z (s.psqDo k cmd skip) := by
  unfold State.psqDo
  try dsimp only
  repeat' first
    | with_reducible (first | exact hk | assumption | apply Keeps.ite | apply State.psqStart_keeps | apply State.psqStop_keeps | apply State.psqResume_keeps | apply State.asuRebuild_keeps | apply State.psqRestore_keeps)
    | fail_if_no_progress with_reducible apply Keeps.mk_upd
    | (intro _ _ _; try dsimp only)
    | intro _
    | split

theorem State.limitWrite_keeps {z s : State} (k x v : Nat) (hk : Keeps z s) :
    Keeps z (s.limitWrite k x v) := by
  unfold State.limitWrite
  try dsimp only
  repeat' first
    | with_reducible (first | exact hk | assumption | apply Keeps.ite | apply State.setLimit_keeps | apply State.answer_keeps)
    | fail_if_no_progress with_reducible apply Keeps.mk_upd
    | (intro _ _ _; try dsimp only)
    | intro _
    | split

end Sys2Proof.Machine
end

