-- ==== Sys2Proof/Laws/KeepsDvu.lean ====
section
/-! SUPPORT. What the operations of Machine/Dvu.lean keep (Laws/Keeps.lean). -/

namespace Sys2Proof.Machine

set_option linter.unusedTactic false
set_option linter.unreachableTactic false

theorem State.setPvReg_keeps {z s : State} (v r : Nat) (l : List Nat) (hk : Keeps z s) :
    Keeps z (s.setPvReg v r l) := by
  unfold State.setPvReg
  try dsimp only
  repeat' first
    | with_reducible (first | exact hk | assumption | apply Keeps.ite | apply State.setPv_keeps | apply State.wr_keeps)
    | fail_if_no_progress with_reducible apply Keeps.mk_upd
    | (intro _ _ _; try dsimp only)
    | intro _
    | split

theorem State.commitPv_keeps {z s : State} (l : List (Nat × Nat × Nat × Nat)) (hk : Keeps z s) :
    Keeps z (s.commitPv l) := by
  unfold State.commitPv
  try dsimp only
  repeat' first
    | with_reducible (first | exact hk | assumption | apply Keeps.ite | apply State.setPvReg_keeps | apply Keeps.foldl | apply Keeps.foldl_fst | apply Keeps.foldl_snd)
    | fail_if_no_progress with_reducible apply Keeps.mk_upd
    | (intro _ _ _; try dsimp only)
    | intro _
    | split

theorem State.dvuErr_keeps {z s : State} (e k x index code : Nat) (hk : Keeps z s) :
    Keeps z (s.dvuErr e k x index code) := by
  unfold State.dvuErr
  try dsimp only
  repeat' first
    | with_reducible (first | exact hk | assumption | apply Keeps.ite | apply State.setFld_keeps | apply State.setReg_keeps | apply State.asuErr_keeps)
    | fail_if_no_progress with_reducible apply Keeps.mk_upd
    | (intro _ _ _; try dsimp only)
    | intro _
    | split

theorem State.writeDst_keeps {z s : State} (k die : Nat) (o : Outst) (d : StreamD) (r idx : Nat) (xs : List Nat) (run : ChainRun) (hk : Keeps z s) :
    Keeps z (s.writeDst k die o d r idx xs run).1 := by
  unfold State.writeDst
  try dsimp only
  repeat' first
    | with_reducible (first | exact hk | assumption | apply Keeps.ite | apply State.wr_keeps)
    | fail_if_no_progress with_reducible apply Keeps.mk_upd
    | (intro _ _ _; try dsimp only)
    | intro _
    | split

theorem State.sinkRow_keeps {z s : State} (k die : Nat) (o : Outst) (c : ChainD) (m : Nat) (ys xs : List Nat) (run : ChainRun) (hk : Keeps z s) :
    Keeps z (s.sinkRow k die o c m ys xs run).1 := by
  unfold State.sinkRow
  try dsimp only
  repeat' first
    | with_reducible (first | exact hk | assumption | apply Keeps.ite | apply State.writeDst_keeps)
    | fail_if_no_progress with_reducible apply Keeps.mk_upd
    | (intro _ _ _; try dsimp only)
    | intro _
    | split

theorem State.runRow_keeps {z s : State} (k e : Nat) (o : Outst) (c : ChainD) (m : Nat) (xs : List Nat) (run : ChainRun) (hk : Keeps z s) :
    Keeps z (s.runRow k e o c m xs run).1 := by
  unfold State.runRow
  try dsimp only
  repeat' first
    | with_reducible (first | exact hk | assumption | apply Keeps.ite | apply State.sinkRow_keeps | apply Keeps.foldl | apply Keeps.foldl_fst | apply Keeps.foldl_snd)
    | fail_if_no_progress with_reducible apply Keeps.mk_upd
    | (intro _ _ _; try dsimp only)
    | intro _
    | split

theorem State.rawRow_keeps {z s : State} (o : Outst) (c : ChainD) (m : Nat) (run : ChainRun) (hk : Keeps z s) :
    Keeps z (s.rawRow o c m run).1 := by
  unfold State.rawRow
  try dsimp only
  repeat' first
    | with_reducible (first | exact hk | assumption | apply Keeps.ite | apply State.wrRow_keeps)
    | fail_if_no_progress with_reducible apply Keeps.mk_upd
    | (intro _ _ _; try dsimp only)
    | intro _
    | split

theorem State.commitPush_keeps {z s : State} (die k : Nat) (f : Frame) (bad : Bool) (p : Nat × List Byte × Nat) (hk : Keeps z s) :
    Keeps z (s.commitPush die k f bad p) := by
  unfold State.commitPush
  try dsimp only
  repeat' first
    | with_reducible (first | exact hk | assumption | apply Keeps.ite | apply State.wrPoison_keeps | apply State.wr_keeps | apply State.wrN_keeps | apply State.setAs_keeps)
    | fail_if_no_progress with_reducible apply Keeps.mk_upd
    | (intro _ _ _; try dsimp only)
    | intro _
    | split

theorem State.poisonOutputs_keeps {z s : State} (drain : Option (Nat × Nat)) (c : ChainD) (run : ChainRun) (hk : Keeps z s) :
    Keeps z (s.poisonOutputs drain c run) := by
  unfold State.poisonOutputs
  try dsimp only
  repeat' first
    | with_reducible (first | exact hk | assumption | apply Keeps.ite | apply State.wrPoison_keeps | apply State.forAll_keeps | apply State.count_keeps)
    | fail_if_no_progress with_reducible apply Keeps.mk_upd
    | (intro _ _ _; try dsimp only)
    | intro _
    | split

theorem State.commitChain_keeps {z s : State} (k e : Nat) (o : Outst) (c : ChainD) (drain : Option (Nat × Nat)) (hk : Keeps z s) :
    Keeps z (s.commitChain k e o c drain) := by
  unfold State.commitChain
  try dsimp only
  repeat' first
    | with_reducible (first | exact hk | assumption | apply Keeps.ite | apply State.writeDst_keeps | apply State.commitPush_keeps | apply State.wr_keeps | apply State.wrN_keeps | apply State.count_keeps | apply State.poisonOutputs_keeps | apply State.commitPv_keeps | apply State.tap_keeps | apply State.addSat_keeps | apply Keeps.foldl | apply Keeps.foldl_fst | apply Keeps.foldl_snd)
    | fail_if_no_progress with_reducible apply Keeps.mk_upd
    | (intro _ _ _; try dsimp only)
    | intro _
    | split

theorem State.dvuAfter_keeps {z s : State} (k e : Nat) (o : Outst) (code : Nat) (hk : Keeps z s) :
    Keeps z (s.dvuAfter k e o code) := by
  unfold State.dvuAfter
  try dsimp only
  repeat' first
    | with_reducible (first | exact hk | assumption | apply Keeps.ite | apply State.dvuErr_keeps | apply State.raiseFault_keeps)
    | fail_if_no_progress with_reducible apply Keeps.mk_upd
    | (intro _ _ _; try dsimp only)
    | intro _
    | split

theorem State.rowErrs_keeps {z s : State} (k e : Nat) (o : Outst) (x : Errs) (hk : Keeps z s) :
    Keeps z (s.rowErrs k e o x) := by
  unfold State.rowErrs
  try dsimp only
  repeat' first
    | with_reducible (first | exact hk | assumption | apply Keeps.ite | apply State.readErrs_keeps | apply State.poolErrs_keeps | apply State.addSat_keeps)
    | fail_if_no_progress with_reducible apply Keeps.mk_upd
    | (intro _ _ _; try dsimp only)
    | intro _
    | split

theorem State.oneRow_keeps {z s : State} (k e : Nat) (o : Outst) (x : Errs) (hk : Keeps z s) :
    Keeps z (s.oneRow k e o x) := by
  unfold State.oneRow
  try dsimp only
  repeat' first
    | with_reducible (first | exact hk | assumption | apply Keeps.ite | apply State.rowErrs_keeps | apply State.count_keeps | apply State.rawRow_keeps | apply State.runRow_keeps | apply State.updOutst_keeps)
    | fail_if_no_progress with_reducible apply Keeps.mk_upd
    | (intro _ _ _; try dsimp only)
    | intro _
    | split

theorem State.vxRow_keeps {z s : State} (k e : Nat) (x : Errs) (hk : Keeps z s) :
    Keeps z (s.vxRow k e x) := by
  unfold State.vxRow
  try dsimp only
  repeat' first
    | with_reducible (first | exact hk | assumption | apply Keeps.ite | apply State.oneRow_keeps)
    | fail_if_no_progress with_reducible apply Keeps.mk_upd
    | (intro _ _ _; try dsimp only)
    | intro _
    | split

theorem State.dvuRow_keeps {z s : State} (e wait away : Nat) (x : Errs) (hk : Keeps z s) :
    Keeps z (s.dvuRow e wait away x) := by
  unfold State.dvuRow
  try dsimp only
  repeat' first
    | with_reducible (first | exact hk | assumption | apply Keeps.ite | apply State.vxRow_keeps | apply State.count_keeps | apply State.oneRow_keeps)
    | fail_if_no_progress with_reducible apply Keeps.mk_upd
    | (intro _ _ _; try dsimp only)
    | intro _
    | split

theorem State.vx_keeps {z s : State} (k x : Nat) (hk : Keeps z s) :
    Keeps z (s.vx k x) := by
  unfold State.vx
  try dsimp only
  repeat' first
    | with_reducible (first | exact hk | assumption | apply Keeps.ite | apply State.withHead_keeps | apply State.dvuErr_keeps | apply State.raiseFault_keeps | apply State.dispatchOut_keeps | apply State.updOutst_keeps | apply State.syncDvu_keeps)
    | fail_if_no_progress with_reducible apply Keeps.mk_upd
    | (intro _ _ _; try dsimp only)
    | intro _
    | split

theorem State.vxComplete_keeps {z s : State} (e : Nat) (hk : Keeps z s) :
    Keeps z (s.vxComplete e) := by
  unfold State.vxComplete
  try dsimp only
  repeat' first
    | with_reducible (first | exact hk | assumption | apply Keeps.ite | apply State.commitChain_keeps | apply State.complete_keeps | apply State.dvuAfter_keeps | apply State.syncDvu_keeps)
    | fail_if_no_progress with_reducible apply Keeps.mk_upd
    | (intro _ _ _; try dsimp only)
    | intro _
    | split

end Sys2Proof.Machine
end

