-- ==== Sys2Proof/Laws/KeepsMxe.lean ====
section
/-! SUPPORT. What the operations of Machine/Mxe.lean keep (Laws/Keeps.lean). -/

namespace Sys2Proof.Machine

set_option linter.unusedTactic false
set_option linter.unreachableTactic false

theorem State.mxeErr_keeps {z s : State} (e x index code : Nat) (hk : Keeps z s) :
    Keeps z (s.mxeErr e x index code) := by
  unfold State.mxeErr
  try dsimp only
  repeat' first
    | with_reducible (first | exact hk | assumption | apply Keeps.ite | apply State.setFld_keeps | apply State.setReg_keeps)
    | fail_if_no_progress with_reducible apply Keeps.mk_upd
    | (intro _ _ _; try dsimp only)
    | intro _
    | split

theorem State.mxFault_keeps {z s : State} (k x e code : Nat) (hk : Keeps z s) :
    Keeps z (s.mxFault k x e code) := by
  unfold State.mxFault
  try dsimp only
  repeat' first
    | with_reducible (first | exact hk | assumption | apply Keeps.ite | apply State.mxeErr_keeps | apply State.dvuErr_keeps | apply State.raiseFault_keeps)
    | fail_if_no_progress with_reducible apply Keeps.mk_upd
    | (intro _ _ _; try dsimp only)
    | intro _
    | split

theorem State.mxDispatch_keeps {z s : State} (k x opc : Nat) (hk : Keeps z s) :
    Keeps z (s.mxDispatch k x opc) := by
  unfold State.mxDispatch
  try dsimp only
  repeat' first
    | with_reducible (first | exact hk | assumption | apply Keeps.ite | apply State.withHead_keeps | apply State.mxFault_keeps | apply State.dispatchOut_keeps | apply State.updOutst_keeps | apply State.syncMxe_keeps | apply State.syncDvu_keeps)
    | fail_if_no_progress with_reducible apply Keeps.mk_upd
    | (intro _ _ _; try dsimp only)
    | intro _
    | split

theorem State.mxErrs_keeps {z s : State} (e : Nat) (w : MxW) (d : MxD) (x : Errs) (hk : Keeps z s) :
    Keeps z (s.mxErrs e w d x) := by
  unfold State.mxErrs
  try dsimp only
  repeat' first
    | with_reducible (first | exact hk | assumption | apply Keeps.ite | apply State.readErrs_keeps | apply State.addSat_keeps)
    | fail_if_no_progress with_reducible apply Keeps.mk_upd
    | (intro _ _ _; try dsimp only)
    | intro _
    | split

theorem State.mxRun_keeps {z s : State} (k e : Nat) (o : Outst) (latch feed drain token : Nat) (x : Errs) (hk : Keeps z s) :
    Keeps z (s.mxRun k e o latch feed drain token x) := by
  unfold State.mxRun
  try dsimp only
  repeat' first
    | with_reducible (first | exact hk | assumption | apply Keeps.ite | apply State.mxErrs_keeps | apply State.updOutst_keeps | apply State.count_keeps | apply State.setReg_keeps | apply State.syncMxe_keeps)
    | fail_if_no_progress with_reducible apply Keeps.mk_upd
    | (intro _ _ _; try dsimp only)
    | intro _
    | split

theorem State.mxIssue_keeps {z s : State} (e latch feed drain token : Nat) (released : Bool) (x : Errs) (hk : Keeps z s) :
    Keeps z (s.mxIssue e latch feed drain token released x) := by
  unfold State.mxIssue
  try dsimp only
  repeat' first
    | with_reducible (first | exact hk | assumption | apply Keeps.ite | apply State.mxRun_keeps)
    | fail_if_no_progress with_reducible apply Keeps.mk_upd
    | (intro _ _ _; try dsimp only)
    | intro _
    | split

theorem State.poisonSlices_keeps {z s : State} (k n : Nat) (hk : Keeps z s) :
    Keeps z (s.poisonSlices k n) := by
  unfold State.poisonSlices
  try dsimp only
  repeat' first
    | with_reducible (first | exact hk | assumption | apply Keeps.ite)
    | fail_if_no_progress with_reducible apply Keeps.mk_upd
    | (intro _ _ _; try dsimp only)
    | intro _
    | split

theorem State.mxComplete_keeps {z s : State} (e : Nat) (hk : Keeps z s) :
    Keeps z (s.mxComplete e) := by
  unfold State.mxComplete
  try dsimp only
  repeat' first
    | with_reducible (first | exact hk | assumption | apply Keeps.ite | apply State.commitChain_keeps | apply State.poisonSlices_keeps | apply State.forAll_keeps | apply State.setQu_keeps | apply State.complete_keeps | apply State.mxeErr_keeps | apply State.raiseFault_keeps | apply State.dvuAfter_keeps | apply State.syncMxe_keeps | apply State.syncDvu_keeps)
    | fail_if_no_progress with_reducible apply Keeps.mk_upd
    | (intro _ _ _; try dsimp only)
    | intro _
    | split

end Sys2Proof.Machine
end

