-- ==== Sys2Proof/Laws/KeepsQuay.lean ====
section
/-! SUPPORT. What the operations of Machine/Quay.lean keep (Laws/Keeps.lean). -/

namespace Sys2Proof.Machine

set_option linter.unusedTactic false
set_option linter.unreachableTactic false

theorem State.setJob_keeps {z s : State} (j : Nat) (v : Job) (hk : Keeps z s) :
    Keeps z (s.setJob j v) := by
  unfold State.setJob
  try dsimp only
  repeat' first
    | with_reducible (first | exact hk | assumption | apply Keeps.ite)
    | fail_if_no_progress with_reducible apply Keeps.mk_upd
    | (intro _ _ _; try dsimp only)
    | intro _
    | split

theorem State.wrMoments_keeps {z s : State} (m12 : Bool) (a i rnd : Nat) (key : SrKey) (idx : Nat) (old new : List Nat) (hk : Keeps z s) :
    Keeps z (s.wrMoments m12 a i rnd key idx old new).1 := by
  unfold State.wrMoments
  try dsimp only
  repeat' first
    | with_reducible (first | exact hk | assumption | apply Keeps.ite | apply State.wr_keeps)
    | fail_if_no_progress with_reducible apply Keeps.mk_upd
    | (intro _ _ _; try dsimp only)
    | intro _
    | split

theorem State.wrCopy_keeps {z s : State} (d : QuayD) (n c : Nat) (cs : List Conv) (sc : List Nat) (bad : Bool) (hk : Keeps z s) :
    Keeps z (s.wrCopy d n c cs sc bad) := by
  unfold State.wrCopy
  try dsimp only
  repeat' first
    | with_reducible (first | exact hk | assumption | apply Keeps.ite | apply State.wrPoison_keeps | apply State.wr_keeps)
    | fail_if_no_progress with_reducible apply Keeps.mk_upd
    | (intro _ _ _; try dsimp only)
    | intro _
    | split

theorem State.quayBadAddr_keeps {z s : State} (a : Nat) (hk : Keeps z s) :
    Keeps z (s.quayBadAddr a) := by
  unfold State.quayBadAddr
  try dsimp only
  repeat' first
    | with_reducible (first | exact hk | assumption | apply Keeps.ite | apply State.setFld_keeps)
    | fail_if_no_progress with_reducible apply Keeps.mk_upd
    | (intro _ _ _; try dsimp only)
    | intro _
    | split

theorem State.quayPoison_keeps {z s : State} (a k x index job : Nat) (jv : Bool) (hk : Keeps z s) :
    Keeps z (s.quayPoison a k x index job jv) := by
  unfold State.quayPoison
  try dsimp only
  repeat' first
    | with_reducible (first | exact hk | assumption | apply Keeps.ite | apply State.setFld_keeps | apply State.setReg_keeps | apply State.quayBadAddr_keeps)
    | fail_if_no_progress with_reducible apply Keeps.mk_upd
    | (intro _ _ _; try dsimp only)
    | intro _
    | split

theorem State.quayErrs_keeps {z s : State} (q : Nat) (spans : List (Nat × Nat)) (x : Errs) (buf unc : Nat) (hk : Keeps z s) :
    Keeps z (s.quayErrs q spans x buf unc) := by
  unfold State.quayErrs
  try dsimp only
  repeat' first
    | with_reducible (first | exact hk | assumption | apply Keeps.ite | apply State.readErrs_keeps | apply State.addSat_keeps)
    | fail_if_no_progress with_reducible apply Keeps.mk_upd
    | (intro _ _ _; try dsimp only)
    | intro _
    | split

theorem State.updateGroup_keeps {z s : State} (k : Nat) (d : QuayD) (ws : List Nat) (n c : Nat) (gs : List Nat) (bad taps : Bool) (hk : Keeps z s) :
    Keeps z (s.updateGroup k d ws n c gs bad taps).1 := by
  unfold State.updateGroup
  try dsimp only
  repeat' first
    | with_reducible (first | exact hk | assumption | apply Keeps.ite | apply State.count_keeps | apply State.wrPoison_keeps | apply State.wrCopy_keeps | apply State.wr_keeps | apply State.wrMoments_keeps | apply State.tap_keeps | apply Keeps.foldl | apply Keeps.foldl_fst | apply Keeps.foldl_snd)
    | fail_if_no_progress with_reducible apply Keeps.mk_upd
    | (intro _ _ _; try dsimp only)
    | intro _
    | split

theorem State.emitGroup_keeps {z s : State} (k : Nat) (d : QuayD) (n c : Nat) (hk : Keeps z s) :
    Keeps z (s.emitGroup k d n c).1 := by
  unfold State.emitGroup
  try dsimp only
  repeat' first
    | with_reducible (first | exact hk | assumption | apply Keeps.ite | apply State.wrCopy_keeps | apply State.forAll_keeps | apply State.wrPoison_keeps)
    | fail_if_no_progress with_reducible apply Keeps.mk_upd
    | (intro _ _ _; try dsimp only)
    | intro _
    | split

theorem State.clearGroup_keeps {z s : State} (k a : Nat) (hk : Keeps z s) :
    Keeps z (s.clearGroup k a) := by
  unfold State.clearGroup
  try dsimp only
  repeat' first
    | with_reducible (first | exact hk | assumption | apply Keeps.ite | apply State.wr_keeps | apply State.count_keeps)
    | fail_if_no_progress with_reducible apply Keeps.mk_upd
    | (intro _ _ _; try dsimp only)
    | intro _
    | split

theorem State.syncQuay_keeps {z s : State} (q : Nat) (hk : Keeps z s) :
    Keeps z (s.syncQuay q) := by
  unfold State.syncQuay
  try dsimp only
  repeat' first
    | with_reducible (first | exact hk | assumption | apply Keeps.ite | apply State.forAll_keeps | apply State.setFld_keeps)
    | fail_if_no_progress with_reducible apply Keeps.mk_upd
    | (intro _ _ _; try dsimp only)
    | intro _
    | split

theorem State.quayReserve_keeps {z s : State} (e wait : Nat) (hk : Keeps z s) :
    Keeps z (s.quayReserve e wait) := by
  unfold State.quayReserve
  try dsimp only
  repeat' first
    | with_reducible (first | exact hk | assumption | apply Keeps.ite | apply State.faultOut_keeps | apply State.count_keeps | apply State.setQu_keeps | apply State.syncQuay_keeps)
    | fail_if_no_progress with_reducible apply Keeps.mk_upd
    | (intro _ _ _; try dsimp only)
    | intro _
    | split

theorem State.quayGrant_keeps {z s : State} (q wait : Nat) (hk : Keeps z s) :
    Keeps z (s.quayGrant q wait) := by
  unfold State.quayGrant
  try dsimp only
  repeat' first
    | with_reducible (first | exact hk | assumption | apply Keeps.ite | apply State.setQu_keeps | apply State.count_keeps | apply State.syncQuay_keeps)
    | fail_if_no_progress with_reducible apply Keeps.mk_upd
    | (intro _ _ _; try dsimp only)
    | intro _
    | split

theorem State.sliceArrive_keeps {z s : State} (e : Nat) (hk : Keeps z s) :
    Keeps z (s.sliceArrive e) := by
  unfold State.sliceArrive
  try dsimp only
  repeat' first
    | with_reducible (first | exact hk | assumption | apply Keeps.ite | apply State.setQu_keeps | apply State.updOutst_keeps)
    | fail_if_no_progress with_reducible apply Keeps.mk_upd
    | (intro _ _ _; try dsimp only)
    | intro _
    | split

theorem State.foldSlice_keeps {z s : State} (v : Slice) (hk : Keeps z s) :
    Keeps z (s.foldSlice v) := by
  unfold State.foldSlice
  try dsimp only
  repeat' first
    | with_reducible (first | exact hk | assumption | apply Keeps.ite | apply State.count_keeps | apply State.wrPoison_keeps | apply State.quayBadAddr_keeps | apply State.wr_keeps)
    | fail_if_no_progress with_reducible apply Keeps.mk_upd
    | (intro _ _ _; try dsimp only)
    | intro _
    | split

theorem State.releaseResv_keeps {z s : State} (k n q : Nat) (hk : Keeps z s) :
    Keeps z (s.releaseResv k n q) := by
  unfold State.releaseResv
  try dsimp only
  repeat' first
    | with_reducible (first | exact hk | assumption | apply Keeps.ite | apply State.forAll_keeps | apply State.setQu_keeps | apply State.syncQuay_keeps)
    | fail_if_no_progress with_reducible apply Keeps.mk_upd
    | (intro _ _ _; try dsimp only)
    | intro _
    | split

theorem State.unstage_keeps {z s : State} (q : Nat) (l : List Slice) (hk : Keeps z s) :
    Keeps z (s.unstage q l) := by
  unfold State.unstage
  try dsimp only
  repeat' first
    | with_reducible (first | exact hk | assumption | apply Keeps.ite | apply State.setQu_keeps)
    | fail_if_no_progress with_reducible apply Keeps.mk_upd
    | (intro _ _ _; try dsimp only)
    | intro _
    | split

theorem State.countHold_keeps {z s : State} (q n : Nat) (hk : Keeps z s) :
    Keeps z (s.countHold q n) := by
  unfold State.countHold
  try dsimp only
  repeat' first
    | with_reducible (first | exact hk | assumption | apply Keeps.ite | apply State.count_keeps)
    | fail_if_no_progress with_reducible apply Keeps.mk_upd
    | (intro _ _ _; try dsimp only)
    | intro _
    | split

theorem State.quayFold_keeps {z s : State} (q held : Nat) (x : Errs) (hk : Keeps z s) :
    Keeps z (s.quayFold q held x) := by
  unfold State.quayFold
  try dsimp only
  repeat' first
    | with_reducible (first | exact hk | assumption | apply Keeps.ite | apply State.countHold_keeps | apply State.quayErrs_keeps | apply State.unstage_keeps | apply State.setQu_keeps | apply State.foldSlice_keeps | apply State.releaseResv_keeps | apply Keeps.foldl | apply Keeps.foldl_fst | apply Keeps.foldl_snd)
    | fail_if_no_progress with_reducible apply Keeps.mk_upd
    | (intro _ _ _; try dsimp only)
    | intro _
    | split

theorem State.quayOp_keeps {z s : State} (k opc : Nat) (rsv : Nat → Bool) (job : Nat → Option Nat) (body : Nat → List Byte → List Byte → State → State) (hbody : ∀ x0 x1 x2 u, Keeps z u → Keeps z (body x0 x1 x2 u)) (hk : Keeps z s) :
    Keeps z (s.quayOp k opc rsv job body) := by
  unfold State.quayOp
  try dsimp only
  repeat' first
    | with_reducible (first | exact hk | assumption | apply Keeps.ite | apply State.withHead_keeps | apply State.raiseFault_keeps | apply hbody)
    | fail_if_no_progress with_reducible apply Keeps.mk_upd
    | (intro _ _ _; try dsimp only)
    | intro _
    | split

theorem State.quayTensorOp_keeps {z s : State} (k opc : Nat) (hk : Keeps z s) :
    Keeps z (s.quayTensorOp k opc) := by
  unfold State.quayTensorOp
  try dsimp only
  repeat' first
    | with_reducible (first | exact hk | assumption | apply Keeps.ite | apply State.quayOp_keeps | apply State.dispatchOut_keeps | apply State.forAll_keeps | apply State.setQu_keeps)
    | fail_if_no_progress with_reducible apply Keeps.mk_upd
    | (intro _ _ _; try dsimp only)
    | intro _
    | split

theorem State.qbind_keeps {z s : State} (k : Nat) (hk : Keeps z s) :
    Keeps z (s.qbind k) := by
  unfold State.qbind
  try dsimp only
  repeat' first
    | with_reducible (first | exact hk | assumption | apply Keeps.ite | apply State.quayOp_keeps | apply State.dispatchDone_keeps)
    | fail_if_no_progress with_reducible apply Keeps.mk_upd
    | (intro _ _ _; try dsimp only)
    | intro _
    | split

theorem State.quayGroup_keeps {z s : State} (k : Nat) (o : Outst) (n c : Nat) (x : Errs) (hk : Keeps z s) :
    Keeps z (s.quayGroup k o n c x).1 := by
  unfold State.quayGroup
  try dsimp only
  repeat' first
    | with_reducible (first | exact hk | assumption | apply Keeps.ite | apply State.quayErrs_keeps | apply State.updateGroup_keeps | apply State.clearGroup_keeps | apply State.emitGroup_keeps)
    | fail_if_no_progress with_reducible apply Keeps.mk_upd
    | (intro _ _ _; try dsimp only)
    | intro _
    | split

theorem State.quayWork_keeps {z s : State} (k : Nat) (o : Outst) (x : Errs) (hk : Keeps z s) :
    Keeps z (s.quayWork k o x).1 := by
  unfold State.quayWork
  try dsimp only
  repeat' first
    | with_reducible (first | exact hk | assumption | apply Keeps.ite | apply State.quayGroup_keeps | apply State.quayPoison_keeps | apply Keeps.foldl | apply Keeps.foldl_fst | apply Keeps.foldl_snd)
    | fail_if_no_progress with_reducible apply Keeps.mk_upd
    | (intro _ _ _; try dsimp only)
    | intro _
    | split

theorem State.quayOpComplete_keeps {z s : State} (k held : Nat) (x : Errs) (hk : Keeps z s) :
    Keeps z (s.quayOpComplete k held x) := by
  unfold State.quayOpComplete
  try dsimp only
  repeat' first
    | with_reducible (first | exact hk | assumption | apply Keeps.ite | apply State.forAll_keeps | apply State.count_keeps | apply State.setQu_keeps | apply State.quayWork_keeps | apply State.complete_keeps | apply State.raiseFault_keeps)
    | fail_if_no_progress with_reducible apply Keeps.mk_upd
    | (intro _ _ _; try dsimp only)
    | intro _
    | split

theorem State.blockArrive_keeps {z s : State} (q : Nat) (hk : Keeps z s) :
    Keeps z (s.blockArrive q) := by
  unfold State.blockArrive
  try dsimp only
  repeat' first
    | with_reducible (first | exact hk | assumption | apply Keeps.ite | apply State.setQu_keeps | apply State.syncQuay_keeps)
    | fail_if_no_progress with_reducible apply Keeps.mk_upd
    | (intro _ _ _; try dsimp only)
    | intro _
    | split

theorem State.dropBlocks_keeps {z s : State} (q id i : Nat) (hk : Keeps z s) :
    Keeps z (s.dropBlocks q id i) := by
  unfold State.dropBlocks
  try dsimp only
  repeat' first
    | with_reducible (first | exact hk | assumption | apply Keeps.ite | apply State.setQu_keeps)
    | fail_if_no_progress with_reducible apply Keeps.mk_upd
    | (intro _ _ _; try dsimp only)
    | intro _
    | split

theorem State.updateBound_keeps {z s : State} (q id i : Nat) (j : Job) (bd : Bind) (b c : Block) (x : Errs) (hk : Keeps z s) :
    Keeps z (s.updateBound q id i j bd b c x) := by
  unfold State.updateBound
  try dsimp only
  repeat' first
    | with_reducible (first | exact hk | assumption | apply Keeps.ite | apply State.quayErrs_keeps | apply State.updateGroup_keeps | apply State.dropBlocks_keeps | apply State.quayPoison_keeps | apply State.setJob_keeps | apply State.setFld_keeps | apply State.syncQuay_keeps)
    | fail_if_no_progress with_reducible apply Keeps.mk_upd
    | (intro _ _ _; try dsimp only)
    | intro _
    | split

theorem State.boundUpdate_keeps {z s : State} (q : Nat) (x : Errs) (hk : Keeps z s) :
    Keeps z (s.boundUpdate q x) := by
  unfold State.boundUpdate
  try dsimp only
  repeat' first
    | with_reducible (first | exact hk | assumption | apply Keeps.ite | apply State.setQu_keeps | apply State.updateBound_keeps)
    | fail_if_no_progress with_reducible apply Keeps.mk_upd
    | (intro _ _ _; try dsimp only)
    | intro _
    | split

theorem State.farAtomic_keeps {z s : State} (q : Nat) (x : Errs) (hk : Keeps z s) :
    Keeps z (s.farAtomic q x) := by
  unfold State.farAtomic
  try dsimp only
  repeat' first
    | with_reducible (first | exact hk | assumption | apply Keeps.ite | apply State.readErrs_keeps | apply State.setBytes_keeps | apply State.touch_keeps | apply State.setQu_keeps | apply State.count_keeps)
    | fail_if_no_progress with_reducible apply Keeps.mk_upd
    | (intro _ _ _; try dsimp only)
    | intro _
    | split

end Sys2Proof.Machine
end

