-- ==== Sys2Proof/Laws/KeepsPvu.lean ====
section
/-! SUPPORT. What the operations of Machine/Pvu.lean keep (Laws/Keeps.lean). -/

namespace Sys2Proof.Machine

set_option linter.unusedTactic false
set_option linter.unreachableTactic false

theorem State.pvErr_keeps {z s : State} (v x index code : Nat) (assist : Bool) (hk : Keeps z s) :
    Keeps z (s.pvErr v x index code assist) := by
  unfold State.pvErr
  try dsimp only
  repeat' first
    | with_reducible (first | exact hk | assumption | apply Keeps.ite | apply State.setFld_keeps)
    | fail_if_no_progress with_reducible apply Keeps.mk_upd
    | (intro _ _ _; try dsimp only)
    | intro _
    | split

theorem State.syncPvu_keeps {z s : State} (v : Nat) (hk : Keeps z s) :
    Keeps z (s.syncPvu v) := by
  unfold State.syncPvu
  try dsimp only
  repeat' first
    | with_reducible (first | exact hk | assumption | apply Keeps.ite | apply State.setFld_keeps)
    | fail_if_no_progress with_reducible apply Keeps.mk_upd
    | (intro _ _ _; try dsimp only)
    | intro _
    | split

theorem State.pvHead_keeps {z s : State} (k x : Nat) (ops : Nat → Bool) (hk : Keeps z s) :
    Keeps z (s.pvHead k x ops) := by
  unfold State.pvHead
  try dsimp only
  repeat' first
    | with_reducible (first | exact hk | assumption | apply Keeps.ite | apply State.withHead_keeps | apply State.raiseFault_keeps | apply State.pvErr_keeps | apply State.dispatchOut_keeps | apply State.syncPvu_keeps)
    | fail_if_no_progress with_reducible apply Keeps.mk_upd
    | (intro _ _ _; try dsimp only)
    | intro _
    | split

theorem State.pvRun_keeps {z s : State} (v w : Nat) (hk : Keeps z s) :
    Keeps z (s.pvRun v w).1 := by
  unfold State.pvRun
  try dsimp only
  repeat' first
    | with_reducible (first | exact hk | assumption | apply Keeps.ite | apply State.count_keeps | apply State.setPvReg_keeps | apply State.wr_keeps)
    | fail_if_no_progress with_reducible apply Keeps.mk_upd
    | (intro _ _ _; try dsimp only)
    | intro _
    | split

theorem State.pvErrs_keeps {z s : State} (v w : Nat) (x : Errs) (hk : Keeps z s) :
    Keeps z (s.pvErrs v w x) := by
  unfold State.pvErrs
  try dsimp only
  repeat' first
    | with_reducible (first | exact hk | assumption | apply Keeps.ite | apply State.readErrs_keeps | apply State.addSat_keeps)
    | fail_if_no_progress with_reducible apply Keeps.mk_upd
    | (intro _ _ _; try dsimp only)
    | intro _
    | split

theorem State.pvCommit_keeps {z s : State} (v : Nat) (x : Errs) (hk : Keeps z s) :
    Keeps z (s.pvCommit v x) := by
  unfold State.pvCommit
  try dsimp only
  repeat' first
    | with_reducible (first | exact hk | assumption | apply Keeps.ite | apply State.pvErrs_keeps | apply State.pvRun_keeps | apply State.complete_keeps | apply State.pvErr_keeps | apply State.raiseFault_keeps | apply State.syncPvu_keeps)
    | fail_if_no_progress with_reducible apply Keeps.mk_upd
    | (intro _ _ _; try dsimp only)
    | intro _
    | split

theorem State.pvuAssist_keeps {z s : State} (v : Nat) (x : Errs) (hk : Keeps z s) :
    Keeps z (s.pvuAssist v x) := by
  unfold State.pvuAssist
  try dsimp only
  repeat' first
    | with_reducible (first | exact hk | assumption | apply Keeps.ite | apply State.pvErr_keeps | apply State.pvErrs_keeps | apply State.pvRun_keeps | apply State.setPv_keeps | apply State.wrN_keeps | apply State.syncPvu_keeps)
    | fail_if_no_progress with_reducible apply Keeps.mk_upd
    | (intro _ _ _; try dsimp only)
    | intro _
    | split

end Sys2Proof.Machine
end

