-- ==== Sys2Proof/Laws/KeepsPtb.lean ====
section
/-! SUPPORT. What the operations of Machine/Ptb.lean keep (Laws/Keeps.lean). -/

namespace Sys2Proof.Machine

set_option linter.unusedTactic false
set_option linter.unreachableTactic false

theorem State.ptbTick_keeps {z s : State} (k : Nat) (hk : Keeps z s) :
    Keeps z (s.ptbTick k) := by
  unfold State.ptbTick
  try dsimp only
  repeat' first
    | with_reducible (first | exact hk | assumption | apply Keeps.ite)
    | fail_if_no_progress with_reducible apply Keeps.mk_upd
    | (intro _ _ _; try dsimp only)
    | intro _
    | split

theorem State.ptbLink_keeps {z s : State} (p : Nat) (hk : Keeps z s) :
    Keeps z (s.ptbLink p).2 := by
  unfold State.ptbLink
  try dsimp only
  repeat' first
    | with_reducible (first | exact hk | assumption | apply Keeps.ite | apply State.ptbTick_keeps | apply State.addSat_keeps)
    | fail_if_no_progress with_reducible apply Keeps.mk_upd
    | (intro _ _ _; try dsimp only)
    | intro _
    | split

theorem State.ptbSpill_keeps {z s : State} (job st b : Nat) (bw16 : Bool) (hk : Keeps z s) :
    Keeps z (s.ptbSpill job st b bw16).2 := by
  unfold State.ptbSpill
  try dsimp only
  repeat' first
    | with_reducible (first | exact hk | assumption | apply Keeps.ite | apply State.ptbTick_keeps | apply State.addSat_keeps)
    | fail_if_no_progress with_reducible apply Keeps.mk_upd
    | (intro _ _ _; try dsimp only)
    | intro _
    | split

theorem State.ptbHome_keeps {z s : State} (h agent : Nat) (hk : Keeps z s) :
    Keeps z (s.ptbHome h agent).2 := by
  unfold State.ptbHome
  try dsimp only
  repeat' first
    | with_reducible (first | exact hk | assumption | apply Keeps.ite | apply State.ptbTick_keeps | apply State.addSat_keeps)
    | fail_if_no_progress with_reducible apply Keeps.mk_upd
    | (intro _ _ _; try dsimp only)
    | intro _
    | split

theorem State.ptbArm_keeps {z s : State} (v : Word) (hk : Keeps z s) :
    Keeps z (s.ptbArm v) := by
  unfold State.ptbArm
  try dsimp only
  repeat' first
    | with_reducible (first | exact hk | assumption | apply Keeps.ite | apply State.setFld_keeps)
    | fail_if_no_progress with_reducible apply Keeps.mk_upd
    | (intro _ _ _; try dsimp only)
    | intro _
    | split

end Sys2Proof.Machine
end

