-- ==== Sys2Proof/Laws/KeepsTwp.lean ====
section
/-! SUPPORT. What the operations of Machine/Twp.lean keep (Laws/Keeps.lean). -/

namespace Sys2Proof.Machine

set_option linter.unusedTactic false
set_option linter.unreachableTactic false

theorem State.setPt_keeps {z s : State} (p : Nat) (c : Port) (hk : Keeps z s) :
    Keeps z (s.setPt p c) := by
  unfold State.setPt
  try dsimp only
  repeat' first
    | with_reducible (first | exact hk | assumption | apply Keeps.ite)
    | fail_if_no_progress with_reducible apply Keeps.mk_upd
    | (intro _ _ _; try dsimp only)
    | intro _
    | split

theorem State.setRg_keeps {z s : State} (rd : Nat) (c : RingDir) (hk : Keeps z s) :
    Keeps z (s.setRg rd c) := by
  unfold State.setRg
  try dsimp only
  repeat' first
    | with_reducible (first | exact hk | assumption | apply Keeps.ite)
    | fail_if_no_progress with_reducible apply Keeps.mk_upd
    | (intro _ _ _; try dsimp only)
    | intro _
    | split

theorem State.setPortState_keeps {z s : State} (p v : Nat) (hk : Keeps z s) :
    Keeps z (s.setPortState p v) := by
  unfold State.setPortState
  try dsimp only
  repeat' first
    | with_reducible (first | exact hk | assumption | apply Keeps.ite | apply State.setFld_keeps | apply State.modEvent_keeps)
    | fail_if_no_progress with_reducible apply Keeps.mk_upd
    | (intro _ _ _; try dsimp only)
    | intro _
    | split

theorem State.syncRing_keeps {z s : State} (r : Nat) (hk : Keeps z s) :
    Keeps z (s.syncRing r) := by
  unfold State.syncRing
  try dsimp only
  repeat' first
    | with_reducible (first | exact hk | assumption | apply Keeps.ite | apply State.setFld_keeps | apply Keeps.foldl | apply Keeps.foldl_fst | apply Keeps.foldl_snd)
    | fail_if_no_progress with_reducible apply Keeps.mk_upd
    | (intro _ _ _; try dsimp only)
    | intro _
    | split

theorem State.sendCtrl_keeps {z s : State} (p : Nat) (hk : Keeps z s) :
    Keeps z (s.sendCtrl p) := by
  unfold State.sendCtrl
  try dsimp only
  repeat' first
    | with_reducible (first | exact hk | assumption | apply Keeps.ite | apply State.setPt_keeps)
    | fail_if_no_progress with_reducible apply Keeps.mk_upd
    | (intro _ _ _; try dsimp only)
    | intro _
    | split

theorem State.sendData_keeps {z s : State} (p : Nat) (f : TxFrame) (hk : Keeps z s) :
    Keeps z (s.sendData p f) := by
  unfold State.sendData
  try dsimp only
  repeat' first
    | with_reducible (first | exact hk | assumption | apply Keeps.ite | apply State.setPt_keeps | apply State.sendCtrl_keeps)
    | fail_if_no_progress with_reducible apply Keeps.mk_upd
    | (intro _ _ _; try dsimp only)
    | intro _
    | split

theorem State.txFrame_keeps {z s : State} (p rd cls : Nat) (f : List Byte) (hk : Keeps z s) :
    Keeps z (s.txFrame p rd cls f) := by
  unfold State.txFrame
  try dsimp only
  repeat' first
    | with_reducible (first | exact hk | assumption | apply Keeps.ite | apply State.setPt_keeps | apply State.sendData_keeps)
    | fail_if_no_progress with_reducible apply Keeps.mk_upd
    | (intro _ _ _; try dsimp only)
    | intro _
    | split

theorem State.pumpN_keeps {z s : State} (rd : Nat) (n : Nat) (hk : Keeps z s) :
    Keeps z (s.pumpN rd n) := by
  induction n generalizing s  with
  | zero => exact hk
  | succ n ih =>
    unfold State.pumpN
    try dsimp only
    repeat' first
      | with_reducible (first | exact hk | assumption | apply Keeps.ite | apply State.setRg_keeps | apply State.txFrame_keeps | apply ih)
      | fail_if_no_progress with_reducible apply Keeps.mk_upd
      | (intro _ _ _; try dsimp only)
      | intro _
      | split

theorem State.pump_keeps {z s : State} (rd : Nat) (hk : Keeps z s) :
    Keeps z (s.pump rd) := by
  unfold State.pump
  try dsimp only
  repeat' first
    | with_reducible (first | exact hk | assumption | apply Keeps.ite | apply State.pumpN_keeps)
    | fail_if_no_progress with_reducible apply Keeps.mk_upd
    | (intro _ _ _; try dsimp only)
    | intro _
    | split

theorem State.emit_keeps {z s : State} (rd cls : Nat) (f : List Byte) (hk : Keeps z s) :
    Keeps z (s.emit rd cls f) := by
  unfold State.emit
  try dsimp only
  repeat' first
    | with_reducible (first | exact hk | assumption | apply Keeps.ite | apply State.setRg_keeps | apply State.pump_keeps)
    | fail_if_no_progress with_reducible apply Keeps.mk_upd
    | (intro _ _ _; try dsimp only)
    | intro _
    | split

theorem State.pumpPort_keeps {z s : State} (p : Nat) (hk : Keeps z s) :
    Keeps z (s.pumpPort p) := by
  unfold State.pumpPort
  try dsimp only
  repeat' first
    | with_reducible (first | exact hk | assumption | apply Keeps.ite | apply State.pump_keeps | apply State.syncRing_keeps | apply Keeps.foldl | apply Keeps.foldl_fst | apply Keeps.foldl_snd)
    | fail_if_no_progress with_reducible apply Keeps.mk_upd
    | (intro _ _ _; try dsimp only)
    | intro _
    | split

theorem State.resend_keeps {z s : State} (l : List TxFrame) (hk : Keeps z s) :
    Keeps z (s.resend l) := by
  unfold State.resend
  try dsimp only
  repeat' first
    | with_reducible (first | exact hk | assumption | apply Keeps.ite | apply State.setRg_keeps | apply State.pump_keeps | apply Keeps.foldl | apply Keeps.foldl_fst | apply Keeps.foldl_snd)
    | fail_if_no_progress with_reducible apply Keeps.mk_upd
    | (intro _ _ _; try dsimp only)
    | intro _
    | split

theorem State.talk_keeps {z s : State} (p : Nat) (hk : Keeps z s) :
    Keeps z (s.talk p) := by
  unfold State.talk
  try dsimp only
  repeat' first
    | with_reducible (first | exact hk | assumption | apply Keeps.ite | apply State.sendCtrl_keeps)
    | fail_if_no_progress with_reducible apply Keeps.mk_upd
    | (intro _ _ _; try dsimp only)
    | intro _
    | split

theorem State.talkAll_keeps {z s : State} (hk : Keeps z s) :
    Keeps z s.talkAll := by
  unfold State.talkAll
  try dsimp only
  repeat' first
    | with_reducible (first | exact hk | assumption | apply Keeps.ite | apply State.talk_keeps | apply Keeps.foldl | apply Keeps.foldl_fst | apply Keeps.foldl_snd)
    | fail_if_no_progress with_reducible apply Keeps.mk_upd
    | (intro _ _ _; try dsimp only)
    | intro _
    | split

theorem State.endSession_keeps {z s : State} (p : Nat) (hk : Keeps z s) :
    Keeps z (s.endSession p) := by
  unfold State.endSession
  try dsimp only
  repeat' first
    | with_reducible (first | exact hk | assumption | apply Keeps.ite | apply State.setPt_keeps)
    | fail_if_no_progress with_reducible apply Keeps.mk_upd
    | (intro _ _ _; try dsimp only)
    | intro _
    | split

theorem State.portDown_keeps {z s : State} (p : Nat) (hk : Keeps z s) :
    Keeps z (s.portDown p) := by
  unfold State.portDown
  try dsimp only
  repeat' first
    | with_reducible (first | exact hk | assumption | apply Keeps.ite | apply State.endSession_keeps | apply State.setPortState_keeps | apply State.setFld_keeps | apply State.syncRing_keeps | apply State.talkAll_keeps | apply Keeps.foldl | apply Keeps.foldl_fst | apply Keeps.foldl_snd)
    | fail_if_no_progress with_reducible apply Keeps.mk_upd
    | (intro _ _ _; try dsimp only)
    | intro _
    | split

theorem State.startRetrain_keeps {z s : State} (p : Nat) (hk : Keeps z s) :
    Keeps z (s.startRetrain p) := by
  unfold State.startRetrain
  try dsimp only
  repeat' first
    | with_reducible (first | exact hk | assumption | apply Keeps.ite | apply State.setPt_keeps | apply State.setPortState_keeps | apply State.syncRing_keeps | apply Keeps.foldl | apply Keeps.foldl_fst | apply Keeps.foldl_snd)
    | fail_if_no_progress with_reducible apply Keeps.mk_upd
    | (intro _ _ _; try dsimp only)
    | intro _
    | split

theorem State.partner_keeps {z s : State} (p : Nat) (i : TrainInfo) (good : Nat) (hk : Keeps z s) :
    Keeps z (s.partner p i good) := by
  unfold State.partner
  try dsimp only
  repeat' first
    | with_reducible (first | exact hk | assumption | apply Keeps.ite | apply State.setReg_keeps | apply State.setFld_keeps)
    | fail_if_no_progress with_reducible apply Keeps.mk_upd
    | (intro _ _ _; try dsimp only)
    | intro _
    | split

theorem State.sendOffer_keeps {z s : State} (p good : Nat) (full : Bool) (hk : Keeps z s) :
    Keeps z (s.sendOffer p good full) := by
  unfold State.sendOffer
  try dsimp only
  repeat' first
    | with_reducible (first | exact hk | assumption | apply Keeps.ite | apply State.setPt_keeps)
    | fail_if_no_progress with_reducible apply Keeps.mk_upd
    | (intro _ _ _; try dsimp only)
    | intro _
    | split

theorem State.levelMismatch_keeps {z s : State} (p : Nat) (hk : Keeps z s) :
    Keeps z (s.levelMismatch p) := by
  unfold State.levelMismatch
  try dsimp only
  repeat' first
    | with_reducible (first | exact hk | assumption | apply Keeps.ite | apply State.endSession_keeps | apply State.setPortState_keeps | apply State.setFld_keeps | apply State.syncRing_keeps | apply Keeps.foldl | apply Keeps.foldl_fst | apply Keeps.foldl_snd)
    | fail_if_no_progress with_reducible apply Keeps.mk_upd
    | (intro _ _ _; try dsimp only)
    | intro _
    | split

theorem State.resolve_keeps {z s : State} (p passed : Nat) (i : TrainInfo) (full : Bool) (hk : Keeps z s) :
    Keeps z (s.resolve p passed i full) := by
  unfold State.resolve
  try dsimp only
  repeat' first
    | with_reducible (first | exact hk | assumption | apply Keeps.ite | apply State.sendOffer_keeps | apply State.partner_keeps | apply State.levelMismatch_keeps | apply State.portDown_keeps | apply State.setFld_keeps | apply State.setPt_keeps)
    | fail_if_no_progress with_reducible apply Keeps.mk_upd
    | (intro _ _ _; try dsimp only)
    | intro _
    | split

theorem State.trainFull_keeps {z s : State} (p : Nat) (i : TrainInfo) (hk : Keeps z s) :
    Keeps z (s.trainFull p i) := by
  unfold State.trainFull
  try dsimp only
  repeat' first
    | with_reducible (first | exact hk | assumption | apply Keeps.ite | apply State.endSession_keeps | apply State.addSat_keeps | apply State.setPortState_keeps | apply State.portDown_keeps | apply State.setPt_keeps | apply State.resolve_keeps)
    | fail_if_no_progress with_reducible apply Keeps.mk_upd
    | (intro _ _ _; try dsimp only)
    | intro _
    | split

theorem State.fastFailed_keeps {z s : State} (p : Nat) (hk : Keeps z s) :
    Keeps z (s.fastFailed p) := by
  unfold State.fastFailed
  try dsimp only
  repeat' first
    | with_reducible (first | exact hk | assumption | apply Keeps.ite | apply State.setPt_keeps | apply State.endSession_keeps | apply State.setPortState_keeps | apply State.setFld_keeps | apply State.syncRing_keeps | apply State.talkAll_keeps | apply Keeps.foldl | apply Keeps.foldl_fst | apply Keeps.foldl_snd)
    | fail_if_no_progress with_reducible apply Keeps.mk_upd
    | (intro _ _ _; try dsimp only)
    | intro _
    | split

theorem State.trainFast_keeps {z s : State} (p : Nat) (i : TrainInfo) (hk : Keeps z s) :
    Keeps z (s.trainFast p i) := by
  unfold State.trainFast
  try dsimp only
  repeat' first
    | with_reducible (first | exact hk | assumption | apply Keeps.ite | apply State.fastFailed_keeps | apply State.addSat_keeps | apply State.resolve_keeps)
    | fail_if_no_progress with_reducible apply Keeps.mk_upd
    | (intro _ _ _; try dsimp only)
    | intro _
    | split

theorem State.frameLock_keeps {z s : State} (p : Nat) (hk : Keeps z s) :
    Keeps z (s.frameLock p) := by
  unfold State.frameLock
  try dsimp only
  repeat' first
    | with_reducible (first | exact hk | assumption | apply Keeps.ite | apply State.setPt_keeps | apply State.setPortState_keeps | apply State.setRg_keeps | apply State.resend_keeps | apply State.pumpPort_keeps | apply State.talk_keeps | apply Keeps.foldl | apply Keeps.foldl_fst | apply Keeps.foldl_snd)
    | fail_if_no_progress with_reducible apply Keeps.mk_upd
    | (intro _ _ _; try dsimp only)
    | intro _
    | split

theorem State.raiseNak_keeps {z s : State} (p : Nat) (hk : Keeps z s) :
    Keeps z (s.raiseNak p) := by
  unfold State.raiseNak
  try dsimp only
  repeat' first
    | with_reducible (first | exact hk | assumption | apply Keeps.ite | apply State.setPt_keeps | apply State.addSat_keeps)
    | fail_if_no_progress with_reducible apply Keeps.mk_upd
    | (intro _ _ _; try dsimp only)
    | intro _
    | split

theorem State.badFrame_keeps {z s : State} (p : Nat) (hk : Keeps z s) :
    Keeps z (s.badFrame p) := by
  unfold State.badFrame
  try dsimp only
  repeat' first
    | with_reducible (first | exact hk | assumption | apply Keeps.ite | apply State.addSat_keeps | apply State.raiseNak_keeps | apply State.setPt_keeps | apply State.startRetrain_keeps)
    | fail_if_no_progress with_reducible apply Keeps.mk_upd
    | (intro _ _ _; try dsimp only)
    | intro _
    | split

theorem State.countCorr_keeps {z s : State} (p : Nat) (l : List Nat) (hk : Keeps z s) :
    Keeps z (s.countCorr p l) := by
  unfold State.countCorr
  try dsimp only
  repeat' first
    | with_reducible (first | exact hk | assumption | apply Keeps.ite | apply State.addSat_keeps | apply Keeps.foldl | apply Keeps.foldl_fst | apply Keeps.foldl_snd)
    | fail_if_no_progress with_reducible apply Keeps.mk_upd
    | (intro _ _ _; try dsimp only)
    | intro _
    | split

theorem State.takeAck_keeps {z s : State} (p ack : Nat) (nak : Bool) (hk : Keeps z s) :
    Keeps z (s.takeAck p ack nak) := by
  unfold State.takeAck
  try dsimp only
  repeat' first
    | with_reducible (first | exact hk | assumption | apply Keeps.ite | apply State.setPt_keeps | apply State.sendData_keeps | apply State.addSat_keeps | apply State.startRetrain_keeps | apply Keeps.foldl | apply Keeps.foldl_fst | apply Keeps.foldl_snd)
    | fail_if_no_progress with_reducible apply Keeps.mk_upd
    | (intro _ _ _; try dsimp only)
    | intro _
    | split

theorem State.freeFlit_keeps {z s : State} (p c : Nat) (hk : Keeps z s) :
    Keeps z (s.freeFlit p c) := by
  unfold State.freeFlit
  try dsimp only
  repeat' first
    | with_reducible (first | exact hk | assumption | apply Keeps.ite | apply State.setPt_keeps)
    | fail_if_no_progress with_reducible apply Keeps.mk_upd
    | (intro _ _ _; try dsimp only)
    | intro _
    | split

theorem State.acceptFlit_keeps {z s : State} (p cls : Nat) (f : List Byte) (hk : Keeps z s) :
    Keeps z (s.acceptFlit p cls f) := by
  unfold State.acceptFlit
  try dsimp only
  repeat' first
    | with_reducible (first | exact hk | assumption | apply Keeps.ite | apply State.addSat_keeps | apply State.freeFlit_keeps | apply State.setPt_keeps)
    | fail_if_no_progress with_reducible apply Keeps.mk_upd
    | (intro _ _ _; try dsimp only)
    | intro _
    | split

theorem State.frame_keeps {z s : State} (p kind : Nat) (b : List Byte) (act : Nat → List Byte → State → State) (hact : ∀ x0 x1 u, Keeps z u → Keeps z (act x0 x1 u)) (hk : Keeps z s) :
    Keeps z (s.frame p kind b act) := by
  unfold State.frame
  try dsimp only
  repeat' first
    | with_reducible (first | exact hk | assumption | apply Keeps.ite | apply State.ptbLink_keeps | apply State.addSat_keeps | apply State.raiseNak_keeps | apply State.badFrame_keeps | apply State.countCorr_keeps | apply State.setPt_keeps | apply State.takeAck_keeps | apply State.pumpPort_keeps | apply State.talk_keeps | apply hact)
    | fail_if_no_progress with_reducible apply Keeps.mk_upd
    | (intro _ _ _; try dsimp only)
    | intro _
    | split

theorem State.dataAct_keeps {z s : State} (p h : Nat) (f : List Byte) (hk : Keeps z s) :
    Keeps z (s.dataAct p h f) := by
  unfold State.dataAct
  try dsimp only
  repeat' first
    | with_reducible (first | exact hk | assumption | apply Keeps.ite | apply State.setPt_keeps | apply State.acceptFlit_keeps | apply State.raiseNak_keeps)
    | fail_if_no_progress with_reducible apply Keeps.mk_upd
    | (intro _ _ _; try dsimp only)
    | intro _
    | split

theorem State.dataFrame_keeps {z s : State} (p : Nat) (b : List Byte) (hk : Keeps z s) :
    Keeps z (s.dataFrame p b) := by
  unfold State.dataFrame
  try dsimp only
  repeat' first
    | with_reducible (first | exact hk | assumption | apply Keeps.ite | apply State.frame_keeps | apply State.dataAct_keeps)
    | fail_if_no_progress with_reducible apply Keeps.mk_upd
    | (intro _ _ _; try dsimp only)
    | intro _
    | split

theorem State.takeCredits_keeps {z s : State} (p : Nat) (f : List Byte) (hk : Keeps z s) :
    Keeps z (s.takeCredits p f) := by
  unfold State.takeCredits
  try dsimp only
  repeat' first
    | with_reducible (first | exact hk | assumption | apply Keeps.ite | apply State.setPt_keeps | apply State.setRg_keeps | apply Keeps.foldl | apply Keeps.foldl_fst | apply Keeps.foldl_snd)
    | fail_if_no_progress with_reducible apply Keeps.mk_upd
    | (intro _ _ _; try dsimp only)
    | intro _
    | split

theorem State.takeDone_keeps {z s : State} (rd v : Nat) (hk : Keeps z s) :
    Keeps z (s.takeDone rd v) := by
  unfold State.takeDone
  try dsimp only
  repeat' first
    | with_reducible (first | exact hk | assumption | apply Keeps.ite | apply State.setRg_keeps)
    | fail_if_no_progress with_reducible apply Keeps.mk_upd
    | (intro _ _ _; try dsimp only)
    | intro _
    | split

theorem State.takeAckx_keeps {z s : State} (rd : Nat) (f : List Byte) (hk : Keeps z s) :
    Keeps z (s.takeAckx rd f) := by
  unfold State.takeAckx
  try dsimp only
  repeat' first
    | with_reducible (first | exact hk | assumption | apply Keeps.ite | apply State.setPt_keeps | apply State.resend_keeps | apply Keeps.foldl | apply Keeps.foldl_fst | apply Keeps.foldl_snd)
    | fail_if_no_progress with_reducible apply Keeps.mk_upd
    | (intro _ _ _; try dsimp only)
    | intro _
    | split

theorem State.ctrlAct_keeps {z s : State} (p : Nat) (f : List Byte) (hk : Keeps z s) :
    Keeps z (s.ctrlAct p f) := by
  unfold State.ctrlAct
  try dsimp only
  repeat' first
    | with_reducible (first | exact hk | assumption | apply Keeps.ite | apply State.takeDone_keeps | apply State.takeAckx_keeps | apply State.takeCredits_keeps | apply Keeps.foldl | apply Keeps.foldl_fst | apply Keeps.foldl_snd)
    | fail_if_no_progress with_reducible apply Keeps.mk_upd
    | (intro _ _ _; try dsimp only)
    | intro _
    | split

theorem State.ctrlFrame_keeps {z s : State} (p : Nat) (b : List Byte) (hk : Keeps z s) :
    Keeps z (s.ctrlFrame p b) := by
  unfold State.ctrlFrame
  try dsimp only
  repeat' first
    | with_reducible (first | exact hk | assumption | apply Keeps.ite | apply State.frame_keeps | apply State.ctrlAct_keeps)
    | fail_if_no_progress with_reducible apply Keeps.mk_upd
    | (intro _ _ _; try dsimp only)
    | intro _
    | split

theorem State.tsend_keeps {z s : State} (k x : Nat) (hk : Keeps z s) :
    Keeps z (s.tsend k x) := by
  unfold State.tsend
  try dsimp only
  repeat' first
    | with_reducible (first | exact hk | assumption | apply Keeps.ite | apply State.withHead_keeps | apply State.raiseFault_keeps | apply State.dispatchOut_keeps)
    | fail_if_no_progress with_reducible apply Keeps.mk_upd
    | (intro _ _ _; try dsimp only)
    | intro _
    | split

theorem State.receiveBarge_keeps {z s : State} (rd : Nat) (f : List Byte) (hk : Keeps z s) :
    Keeps z (s.receiveBarge rd f) := by
  unfold State.receiveBarge
  try dsimp only
  repeat' first
    | with_reducible (first | exact hk | assumption | apply Keeps.ite | apply State.addSat_keeps | apply State.wrPoison_keeps | apply State.wr_keeps | apply State.count_keeps | apply State.setRg_keeps | apply State.extPost_keeps)
    | fail_if_no_progress with_reducible apply Keeps.mk_upd
    | (intro _ _ _; try dsimp only)
    | intro _
    | split

theorem State.tsendIssue_keeps {z s : State} (k : Nat) (hk : Keeps z s) :
    Keeps z (s.tsendIssue k) := by
  unfold State.tsendIssue
  try dsimp only
  repeat' first
    | with_reducible (first | exact hk | assumption | apply Keeps.ite | apply State.updOutst_keeps | apply State.setRg_keeps | apply State.receiveBarge_keeps | apply State.takeDone_keeps | apply State.pump_keeps | apply State.syncRing_keeps | apply Keeps.foldl | apply Keeps.foldl_fst | apply Keeps.foldl_snd)
    | fail_if_no_progress with_reducible apply Keeps.mk_upd
    | (intro _ _ _; try dsimp only)
    | intro _
    | split

theorem State.tsendEnd_keeps {z s : State} (k n code : Nat) (hk : Keeps z s) :
    Keeps z (s.tsendEnd k n code) := by
  unfold State.tsendEnd
  try dsimp only
  repeat' first
    | with_reducible (first | exact hk | assumption | apply Keeps.ite | apply State.complete_keeps | apply State.raiseFault_keeps)
    | fail_if_no_progress with_reducible apply Keeps.mk_upd
    | (intro _ _ _; try dsimp only)
    | intro _
    | split

theorem State.tsendComplete_keeps {z s : State} (rd tag : Nat) (hk : Keeps z s) :
    Keeps z (s.tsendComplete rd tag) := by
  unfold State.tsendComplete
  try dsimp only
  repeat' first
    | with_reducible (first | exact hk | assumption | apply Keeps.ite | apply State.setRg_keeps | apply State.tsendEnd_keeps | apply State.syncRing_keeps)
    | fail_if_no_progress with_reducible apply Keeps.mk_upd
    | (intro _ _ _; try dsimp only)
    | intro _
    | split

theorem State.tsendTimeout_keeps {z s : State} (rd tag : Nat) (hk : Keeps z s) :
    Keeps z (s.tsendTimeout rd tag) := by
  unfold State.tsendTimeout
  try dsimp only
  repeat' first
    | with_reducible (first | exact hk | assumption | apply Keeps.ite | apply State.setRg_keeps | apply State.tsendEnd_keeps | apply State.syncRing_keeps)
    | fail_if_no_progress with_reducible apply Keeps.mk_upd
    | (intro _ _ _; try dsimp only)
    | intro _
    | split

theorem State.takeBarge_keeps {z s : State} (p cls : Nat) (hk : Keeps z s) :
    Keeps z (s.takeBarge p cls) := by
  unfold State.takeBarge
  try dsimp only
  repeat' first
    | with_reducible (first | exact hk | assumption | apply Keeps.ite | apply State.setPt_keeps | apply State.receiveBarge_keeps | apply State.freeFlit_keeps)
    | fail_if_no_progress with_reducible apply Keeps.mk_upd
    | (intro _ _ _; try dsimp only)
    | intro _
    | split

theorem State.cmdFast_keeps {z s : State} (p : Nat) (hk : Keeps z s) :
    Keeps z (s.cmdFast p) := by
  unfold State.cmdFast
  try dsimp only
  repeat' first
    | with_reducible (first | exact hk | assumption | apply Keeps.ite | apply State.startRetrain_keeps)
    | fail_if_no_progress with_reducible apply Keeps.mk_upd
    | (intro _ _ _; try dsimp only)
    | intro _
    | split

theorem State.cmdFull_keeps {z s : State} (p : Nat) (hk : Keeps z s) :
    Keeps z (s.cmdFull p) := by
  unfold State.cmdFull
  try dsimp only
  repeat' first
    | with_reducible (first | exact hk | assumption | apply Keeps.ite | apply State.endSession_keeps | apply State.setPortState_keeps | apply State.setFld_keeps | apply State.syncRing_keeps | apply Keeps.foldl | apply Keeps.foldl_fst | apply Keeps.foldl_snd)
    | fail_if_no_progress with_reducible apply Keeps.mk_upd
    | (intro _ _ _; try dsimp only)
    | intro _
    | split

theorem State.winWrite_keeps {z s : State} (w : Nat) (v : Word) (hk : Keeps z s) :
    Keeps z (s.winWrite w v) := by
  unfold State.winWrite
  try dsimp only
  repeat' first
    | with_reducible (first | exact hk | assumption | apply Keeps.ite | apply State.setFld_keeps)
    | fail_if_no_progress with_reducible apply Keeps.mk_upd
    | (intro _ _ _; try dsimp only)
    | intro _
    | split

end Sys2Proof.Machine
end

