-- ==== Sys2Proof/Laws/KeepsRdx.lean ====
section
/-! SUPPORT. What the operations of Machine/Rdx.lean keep (Laws/Keeps.lean). -/

namespace Sys2Proof.Machine

set_option linter.unusedTactic false
set_option linter.unreachableTactic false

theorem State.setXc_keeps {z s : State} (k : Nat) (c : Xch) (hk : Keeps z s) :
    Keeps z (s.setXc k c) := by
  unfold State.setXc
  try dsimp only
  repeat' first
    | with_reducible (first | exact hk | assumption | apply Keeps.ite | apply State.setFld_keeps)
    | fail_if_no_progress with_reducible apply Keeps.mk_upd
    | (intro _ _ _; try dsimp only)
    | intro _
    | split

theorem State.sendSeal_keeps {z s : State} (ring p : Nat) (r : SealRec) (step : Nat) (hk : Keeps z s) :
    Keeps z (s.sendSeal ring p r step) := by
  unfold State.sendSeal
  try dsimp only
  repeat' first
    | with_reducible (first | exact hk | assumption | apply Keeps.ite | apply State.emit_keeps)
    | fail_if_no_progress with_reducible apply Keeps.mk_upd
    | (intro _ _ _; try dsimp only)
    | intro _
    | split

theorem State.xchPost_keeps {z s : State} (k : Nat) (hk : Keeps z s) :
    Keeps z (s.xchPost k) := by
  unfold State.xchPost
  try dsimp only
  repeat' first
    | with_reducible (first | exact hk | assumption | apply Keeps.ite | apply State.extPost_keeps)
    | fail_if_no_progress with_reducible apply Keeps.mk_upd
    | (intro _ _ _; try dsimp only)
    | intro _
    | split

theorem State.agree_keeps {z s : State} (k : Nat) (r : SealRec) (hk : Keeps z s) :
    Keeps z (s.agree k r) := by
  unfold State.agree
  try dsimp only
  repeat' first
    | with_reducible (first | exact hk | assumption | apply Keeps.ite | apply State.setFld_keeps | apply State.setReg_keeps | apply State.forAll_keeps | apply State.count_keeps | apply State.stakeEvent_keeps)
    | fail_if_no_progress with_reducible apply Keeps.mk_upd
    | (intro _ _ _; try dsimp only)
    | intro _
    | split

theorem State.closeXch_keeps {z s : State} (k st : Nat) (agreed : Option SealRec) (hk : Keeps z s) :
    Keeps z (s.closeXch k st agreed) := by
  unfold State.closeXch
  try dsimp only
  repeat' first
    | with_reducible (first | exact hk | assumption | apply Keeps.ite | apply State.setFld_keeps | apply State.setReg_keeps | apply State.agree_keeps | apply State.stakeEvent_keeps | apply State.xchPost_keeps | apply State.setXc_keeps)
    | fail_if_no_progress with_reducible apply Keeps.mk_upd
    | (intro _ _ _; try dsimp only)
    | intro _
    | split

theorem State.sealStep_keeps {z s : State} (k : Nat) (r : SealRec) (hk : Keeps z s) :
    Keeps z (s.sealStep k r) := by
  unfold State.sealStep
  try dsimp only
  repeat' first
    | with_reducible (first | exact hk | assumption | apply Keeps.ite | apply State.closeXch_keeps | apply State.sendSeal_keeps | apply State.setXc_keeps)
    | fail_if_no_progress with_reducible apply Keeps.mk_upd
    | (intro _ _ _; try dsimp only)
    | intro _
    | split

theorem State.drainSeals_keeps {z s : State} (k : Nat) (n : Nat) (hk : Keeps z s) :
    Keeps z (s.drainSeals k n) := by
  induction n generalizing s  with
  | zero => exact hk
  | succ n ih =>
    unfold State.drainSeals
    try dsimp only
    repeat' first
      | with_reducible (first | exact hk | assumption | apply Keeps.ite | apply State.setXc_keeps | apply State.sealStep_keeps | apply ih)
      | fail_if_no_progress with_reducible apply Keeps.mk_upd
      | (intro _ _ _; try dsimp only)
      | intro _
      | split

theorem State.openXch_keeps {z s : State} (k : Nat) (h : Handoff) (hk : Keeps z s) :
    Keeps z (s.openXch k h) := by
  unfold State.openXch
  try dsimp only
  repeat' first
    | with_reducible (first | exact hk | assumption | apply Keeps.ite | apply State.setFld_keeps | apply State.setXc_keeps | apply State.closeXch_keeps | apply State.sendSeal_keeps)
    | fail_if_no_progress with_reducible apply Keeps.mk_upd
    | (intro _ _ _; try dsimp only)
    | intro _
    | split

theorem State.nextXch_keeps {z s : State} (k : Nat) (n : Nat) (hk : Keeps z s) :
    Keeps z (s.nextXch k n) := by
  induction n generalizing s  with
  | zero => exact hk
  | succ n ih =>
    unfold State.nextXch
    try dsimp only
    repeat' first
      | with_reducible (first | exact hk | assumption | apply Keeps.ite | apply State.drainSeals_keeps | apply State.setXc_keeps | apply State.openXch_keeps | apply ih)
      | fail_if_no_progress with_reducible apply Keeps.mk_upd
      | (intro _ _ _; try dsimp only)
      | intro _
      | split

theorem State.handoff_keeps {z s : State} (k step : Nat) (l : Option (List (Nat × Slot))) (hk : Keeps z s) :
    Keeps z (s.handoff k step l) := by
  unfold State.handoff
  try dsimp only
  repeat' first
    | with_reducible (first | exact hk | assumption | apply Keeps.ite | apply State.openXch_keeps | apply State.nextXch_keeps | apply State.setFld_keeps | apply State.setXc_keeps | apply State.stakeEvent_keeps | apply State.xchPost_keeps)
    | fail_if_no_progress with_reducible apply Keeps.mk_upd
    | (intro _ _ _; try dsimp only)
    | intro _
    | split

theorem State.takeSeal_keeps {z s : State} (p : Nat) (hk : Keeps z s) :
    Keeps z (s.takeSeal p) := by
  unfold State.takeSeal
  try dsimp only
  repeat' first
    | with_reducible (first | exact hk | assumption | apply Keeps.ite | apply State.setPt_keeps | apply State.freeFlit_keeps | apply State.setXc_keeps | apply State.nextXch_keeps)
    | fail_if_no_progress with_reducible apply Keeps.mk_upd
    | (intro _ _ _; try dsimp only)
    | intro _
    | split

theorem State.xchTimeout_keeps {z s : State} (k : Nat) (hk : Keeps z s) :
    Keeps z (s.xchTimeout k) := by
  unfold State.xchTimeout
  try dsimp only
  repeat' first
    | with_reducible (first | exact hk | assumption | apply Keeps.ite | apply State.closeXch_keeps | apply State.nextXch_keeps)
    | fail_if_no_progress with_reducible apply Keeps.mk_upd
    | (intro _ _ _; try dsimp only)
    | intro _
    | split

theorem State.raiseRdx_keeps {z s : State} (k index code : Nat) (job : Option Nat) (hk : Keeps z s) :
    Keeps z (s.raiseRdx k index code job) := by
  unfold State.raiseRdx
  try dsimp only
  repeat' first
    | with_reducible (first | exact hk | assumption | apply Keeps.ite | apply State.rdxFault_keeps | apply State.raiseFault_keeps)
    | fail_if_no_progress with_reducible apply Keeps.mk_upd
    | (intro _ _ _; try dsimp only)
    | intro _
    | split

theorem State.rdxOut_keeps {z s : State} (k : Nat) (o : Outst) (code : Nat) (job : Option Nat) (hk : Keeps z s) :
    Keeps z (s.rdxOut k o code job) := by
  unfold State.rdxOut
  try dsimp only
  repeat' first
    | with_reducible (first | exact hk | assumption | apply Keeps.ite | apply State.rdxFault_keeps | apply State.faultOut_keeps)
    | fail_if_no_progress with_reducible apply Keeps.mk_upd
    | (intro _ _ _; try dsimp only)
    | intro _
    | split

theorem State.noteReads_keeps {z s : State} (j : Job) (gs bs : List Nat) (x : Errs) (hk : Keeps z s) :
    Keeps z (s.noteReads j gs bs x) := by
  unfold State.noteReads
  try dsimp only
  repeat' first
    | with_reducible (first | exact hk | assumption | apply Keeps.ite | apply State.quayErrs_keeps | apply State.quayBadAddr_keeps | apply Keeps.foldl | apply Keeps.foldl_fst | apply Keeps.foldl_snd)
    | fail_if_no_progress with_reducible apply Keeps.mk_upd
    | (intro _ _ _; try dsimp only)
    | intro _
    | split

theorem State.sendBlocks_keeps {z s : State} (j : Job) (id ring p ty st : Nat) (l : List (Nat × Blk)) (hk : Keeps z s) :
    Keeps z (s.sendBlocks j id ring p ty st l) := by
  unfold State.sendBlocks
  try dsimp only
  repeat' first
    | with_reducible (first | exact hk | assumption | apply Keeps.ite | apply State.emit_keeps)
    | fail_if_no_progress with_reducible apply Keeps.mk_upd
    | (intro _ _ _; try dsimp only)
    | intro _
    | split

theorem State.deliver_keeps {z s : State} (j : Job) (id : Nat) (gs : List Nat) (st b : Nat) (v : Blk) (hk : Keeps z s) :
    Keeps z (s.deliver j id gs st b v) := by
  unfold State.deliver
  try dsimp only
  repeat' first
    | with_reducible (first | exact hk | assumption | apply Keeps.ite | apply State.setQu_keeps | apply State.addSat_keeps)
    | fail_if_no_progress with_reducible apply Keeps.mk_upd
    | (intro _ _ _; try dsimp only)
    | intro _
    | split

theorem State.forceSpill_keeps {z s : State} (j : Job) (id st b : Nat) (v : Blk) (hk : Keeps z s) :
    Keeps z (s.forceSpill j id st b v).2 := by
  unfold State.forceSpill
  try dsimp only
  repeat' first
    | with_reducible (first | exact hk | assumption | apply Keeps.ite | apply State.ptbSpill_keeps)
    | fail_if_no_progress with_reducible apply Keeps.mk_upd
    | (intro _ _ _; try dsimp only)
    | intro _
    | split

theorem State.forceSpills_keeps {z s : State} (j : Job) (id : Nat) (l : List (Nat × Nat × Blk)) (hk : Keeps z s) :
    Keeps z (s.forceSpills j id l).2 := by
  induction l generalizing s with
  | nil => exact hk
  | cons d t ih => exact ih (State.forceSpill_keeps j id d.1 d.2.1 d.2.2 hk)

theorem State.deliverAlone_keeps {z s : State} (j : Job) (id : Nat) (gs : List Nat) (b st : Nat) (n : Nat) (hk : Keeps z s) :
    Keeps z (s.deliverAlone j id gs b st n) := by
  induction n generalizing s st with
  | zero => exact hk
  | succ n ih =>
    unfold State.deliverAlone
    try dsimp only
    repeat' first
      | with_reducible (first | exact hk | assumption | apply Keeps.ite | apply State.forceSpill_keeps | apply State.deliver_keeps | apply ih)
      | fail_if_no_progress with_reducible apply Keeps.mk_upd
      | (intro _ _ _; try dsimp only)
      | intro _
      | split

theorem State.countAdded_keeps {z s : State} (n : Nat) (hk : Keeps z s) :
    Keeps z (s.countAdded n) := by
  unfold State.countAdded
  try dsimp only
  repeat' first
    | with_reducible (first | exact hk | assumption | apply Keeps.ite | apply State.setReg_keeps)
    | fail_if_no_progress with_reducible apply Keeps.mk_upd
    | (intro _ _ _; try dsimp only)
    | intro _
    | split

theorem State.syncJobs_keeps {z s : State} (hk : Keeps z s) :
    Keeps z s.syncJobs := by
  unfold State.syncJobs
  try dsimp only
  repeat' first
    | with_reducible (first | exact hk | assumption | apply Keeps.ite | apply State.setReg_keeps | apply State.forAll_keeps | apply State.syncQuay_keeps | apply Keeps.foldl | apply Keeps.foldl_fst | apply Keeps.foldl_snd)
    | fail_if_no_progress with_reducible apply Keeps.mk_upd
    | (intro _ _ _; try dsimp only)
    | intro _
    | split

theorem State.freeJob_keeps {z s : State} (id : Nat) (hk : Keeps z s) :
    Keeps z (s.freeJob id) := by
  unfold State.freeJob
  try dsimp only
  repeat' first
    | with_reducible (first | exact hk | assumption | apply Keeps.ite | apply State.setReg_keeps | apply State.syncJobs_keeps)
    | fail_if_no_progress with_reducible apply Keeps.mk_upd
    | (intro _ _ _; try dsimp only)
    | intro _
    | split

theorem State.endRjob_keeps {z s : State} (id : Nat) (j : Job) (codes : List Nat) (hk : Keeps z s) :
    Keeps z (s.endRjob id j codes) := by
  unfold State.endRjob
  try dsimp only
  repeat' first
    | with_reducible (first | exact hk | assumption | apply Keeps.ite | apply State.complete_keeps | apply State.forAll_keeps | apply State.rdxFault_keeps | apply State.raiseFault_keeps)
    | fail_if_no_progress with_reducible apply Keeps.mk_upd
    | (intro _ _ _; try dsimp only)
    | intro _
    | split

theorem State.closeJob_keeps {z s : State} (id : Nat) (j : Job) (codes : List Nat) (hk : Keeps z s) :
    Keeps z (s.closeJob id j codes) := by
  unfold State.closeJob
  try dsimp only
  repeat' first
    | with_reducible (first | exact hk | assumption | apply Keeps.ite | apply State.clearGroup_keeps | apply State.freeJob_keeps | apply State.endRjob_keeps | apply Keeps.foldl | apply Keeps.foldl_fst | apply Keeps.foldl_snd)
    | fail_if_no_progress with_reducible apply Keeps.mk_upd
    | (intro _ _ _; try dsimp only)
    | intro _
    | split

theorem State.rjob_keeps {z s : State} (k : Nat) (hk : Keeps z s) :
    Keeps z (s.rjob k) := by
  unfold State.rjob
  try dsimp only
  repeat' first
    | with_reducible (first | exact hk | assumption | apply Keeps.ite | apply State.withHead_keeps | apply State.raiseRdx_keeps | apply State.dispatchOut_keeps | apply State.setJob_keeps | apply State.setReg_keeps | apply State.setFld_keeps)
    | fail_if_no_progress with_reducible apply Keeps.mk_upd
    | (intro _ _ _; try dsimp only)
    | intro _
    | split

theorem State.beginScatter_keeps {z s : State} (id : Nat) (j : Job) (ring p l : Nat) (bs : List Nat) (hk : Keeps z s) :
    Keeps z (s.beginScatter id j ring p l bs) := by
  unfold State.beginScatter
  try dsimp only
  repeat' first
    | with_reducible (first | exact hk | assumption | apply Keeps.ite | apply State.deliverAlone_keeps | apply State.sendBlocks_keeps | apply Keeps.foldl | apply Keeps.foldl_fst | apply Keeps.foldl_snd)
    | fail_if_no_progress with_reducible apply Keeps.mk_upd
    | (intro _ _ _; try dsimp only)
    | intro _
    | split

theorem State.startJob_keeps {z s : State} (id : Nat) (x : Errs) (hk : Keeps z s) :
    Keeps z (s.startJob id x) := by
  unfold State.startJob
  try dsimp only
  repeat' first
    | with_reducible (first | exact hk | assumption | apply Keeps.ite | apply State.setJob_keeps | apply State.syncJobs_keeps | apply State.closeJob_keeps | apply State.noteReads_keeps | apply State.beginScatter_keeps | apply Keeps.foldl | apply Keeps.foldl_fst | apply Keeps.foldl_snd)
    | fail_if_no_progress with_reducible apply Keeps.mk_upd
    | (intro _ _ _; try dsimp only)
    | intro _
    | split

theorem State.startJobs_keeps {z s : State} (x : Errs) (hk : Keeps z s) :
    Keeps z (s.startJobs x) := by
  unfold State.startJobs
  try dsimp only
  repeat' first
    | with_reducible (first | exact hk | assumption | apply Keeps.ite | apply State.startJob_keeps | apply Keeps.foldl | apply Keeps.foldl_fst | apply Keeps.foldl_snd)
    | fail_if_no_progress with_reducible apply Keeps.mk_upd
    | (intro _ _ _; try dsimp only)
    | intro _
    | split

theorem State.openJob_keeps {z s : State} (k : Nat) (o : Outst) (p l : Nat) (r : SealRec) (x : Errs) (hk : Keeps z s) :
    Keeps z (s.openJob k o p l r x) := by
  unfold State.openJob
  try dsimp only
  repeat' first
    | with_reducible (first | exact hk | assumption | apply Keeps.ite | apply State.updOutst_keeps | apply State.setFld_keeps | apply State.setJob_keeps | apply State.setReg_keeps | apply State.setQu_keeps | apply State.syncJobs_keeps | apply State.startJob_keeps | apply Keeps.foldl | apply Keeps.foldl_fst | apply Keeps.foldl_snd)
    | fail_if_no_progress with_reducible apply Keeps.mk_upd
    | (intro _ _ _; try dsimp only)
    | intro _
    | split

theorem State.rjobIssue_keeps {z s : State} (k : Nat) (x : Errs) (hk : Keeps z s) :
    Keeps z (s.rjobIssue k x) := by
  unfold State.rjobIssue
  try dsimp only
  repeat' first
    | with_reducible (first | exact hk | assumption | apply Keeps.ite | apply State.rdxOut_keeps | apply State.openJob_keeps)
    | fail_if_no_progress with_reducible apply Keeps.mk_upd
    | (intro _ _ _; try dsimp only)
    | intro _
    | split

theorem State.xreadEnd_keeps {z s : State} (k : Nat) (hk : Keeps z s) :
    Keeps z (s.xreadEnd k) := by
  unfold State.xreadEnd
  try dsimp only
  repeat' first
    | with_reducible (first | exact hk | assumption | apply Keeps.ite | apply State.rdxOut_keeps | apply State.wr_keeps | apply State.complete_keeps)
    | fail_if_no_progress with_reducible apply Keeps.mk_upd
    | (intro _ _ _; try dsimp only)
    | intro _
    | split

theorem State.xreadHead_keeps {z s : State} (k : Nat) (hk : Keeps z s) :
    Keeps z (s.xreadHead k) := by
  unfold State.xreadHead
  try dsimp only
  repeat' first
    | with_reducible (first | exact hk | assumption | apply Keeps.ite | apply State.withHead_keeps | apply State.raiseRdx_keeps | apply State.dispatchOut_keeps)
    | fail_if_no_progress with_reducible apply Keeps.mk_upd
    | (intro _ _ _; try dsimp only)
    | intro _
    | split

theorem State.consume_keeps {z s : State} (p i id : Nat) (hk : Keeps z s) :
    Keeps z (s.consume p i id) := by
  unfold State.consume
  try dsimp only
  repeat' first
    | with_reducible (first | exact hk | assumption | apply Keeps.ite | apply State.setPt_keeps)
    | fail_if_no_progress with_reducible apply Keeps.mk_upd
    | (intro _ _ _; try dsimp only)
    | intro _
    | split

theorem State.takeScatter_keeps {z s : State} (p ty : Nat) (x : Errs) (hk : Keeps z s) :
    Keeps z (s.takeScatter p ty x) := by
  unfold State.takeScatter
  try dsimp only
  repeat' first
    | with_reducible (first | exact hk | assumption | apply Keeps.ite | apply State.noteReads_keeps | apply State.consume_keeps | apply State.countAdded_keeps | apply State.setJob_keeps | apply State.forceSpills_keeps | apply State.sendBlocks_keeps | apply State.deliver_keeps | apply State.emit_keeps | apply Keeps.foldl | apply Keeps.foldl_fst | apply Keeps.foldl_snd)
    | fail_if_no_progress with_reducible apply Keeps.mk_upd
    | (intro _ _ _; try dsimp only)
    | intro _
    | split

theorem State.takeReq_keeps {z s : State} (p ty : Nat) (x : Errs) (hk : Keeps z s) :
    Keeps z (s.takeReq p ty x) := by
  unfold State.takeReq
  try dsimp only
  repeat' first
    | with_reducible (first | exact hk | assumption | apply Keeps.ite | apply State.sendBlocks_keeps | apply State.noteReads_keeps | apply State.consume_keeps | apply Keeps.foldl | apply Keeps.foldl_fst | apply Keeps.foldl_snd)
    | fail_if_no_progress with_reducible apply Keeps.mk_upd
    | (intro _ _ _; try dsimp only)
    | intro _
    | split

theorem State.gatherWrite_keeps {z s : State} (j : Job) (id a : Nat) (b : List Byte) (bad : Bool) (hk : Keeps z s) :
    Keeps z (s.gatherWrite j id a b bad) := by
  unfold State.gatherWrite
  try dsimp only
  repeat' first
    | with_reducible (first | exact hk | assumption | apply Keeps.ite | apply State.wrPoison_keeps | apply State.wr_keeps)
    | fail_if_no_progress with_reducible apply Keeps.mk_upd
    | (intro _ _ _; try dsimp only)
    | intro _
    | split

theorem State.takeGather_keeps {z s : State} (p : Nat) (hk : Keeps z s) :
    Keeps z (s.takeGather p) := by
  unfold State.takeGather
  try dsimp only
  repeat' first
    | with_reducible (first | exact hk | assumption | apply Keeps.ite | apply State.consume_keeps | apply State.gatherWrite_keeps | apply State.setJob_keeps | apply State.emit_keeps | apply Keeps.foldl | apply Keeps.foldl_fst | apply Keeps.foldl_snd)
    | fail_if_no_progress with_reducible apply Keeps.mk_upd
    | (intro _ _ _; try dsimp only)
    | intro _
    | split

theorem State.gatherSend_keeps {z s : State} (k : Nat) (hk : Keeps z s) :
    Keeps z (s.gatherSend k) := by
  unfold State.gatherSend
  try dsimp only
  repeat' first
    | with_reducible (first | exact hk | assumption | apply Keeps.ite | apply State.setJob_keeps | apply State.emit_keeps)
    | fail_if_no_progress with_reducible apply Keeps.mk_upd
    | (intro _ _ _; try dsimp only)
    | intro _
    | split

theorem State.jobClose_keeps {z s : State} (id : Nat) (hk : Keeps z s) :
    Keeps z (s.jobClose id) := by
  unfold State.jobClose
  try dsimp only
  repeat' first
    | with_reducible (first | exact hk | assumption | apply Keeps.ite | apply State.closeJob_keeps)
    | fail_if_no_progress with_reducible apply Keeps.mk_upd
    | (intro _ _ _; try dsimp only)
    | intro _
    | split

theorem State.jobTimeout_keeps {z s : State} (id : Nat) (hk : Keeps z s) :
    Keeps z (s.jobTimeout id) := by
  unfold State.jobTimeout
  try dsimp only
  repeat' first
    | with_reducible (first | exact hk | assumption | apply Keeps.ite | apply State.setRg_keeps | apply State.freeJob_keeps | apply State.endRjob_keeps | apply Keeps.foldl | apply Keeps.foldl_fst | apply Keeps.foldl_snd)
    | fail_if_no_progress with_reducible apply Keeps.mk_upd
    | (intro _ _ _; try dsimp only)
    | intro _
    | split

end Sys2Proof.Machine
end

