-- ==== Sys2Proof/Laws/KeepsKvp.lean ====
section
/-! SUPPORT. What the operations of Machine/Kvp.lean keep (Laws/Keeps.lean). -/

namespace Sys2Proof.Machine

set_option linter.unusedTactic false
set_option linter.unreachableTactic false

theorem State.setKv_keeps {z s : State} (k : Nat) (c : Kvp) (hk : Keeps z s) :
    Keeps z (s.setKv k c) := by
  unfold State.setKv
  try dsimp only
  repeat' first
    | with_reducible (first | exact hk | assumption | apply Keeps.ite)
    | fail_if_no_progress with_reducible apply Keeps.mk_upd
    | (intro _ _ _; try dsimp only)
    | intro _
    | split

theorem State.setPage_keeps {z s : State} (k p refs moors : Nat) (pend : Bool) (hk : Keeps z s) :
    Keeps z (s.setPage k p refs moors pend) := by
  unfold State.setPage
  try dsimp only
  repeat' first
    | with_reducible (first | exact hk | assumption | apply Keeps.ite | apply State.wr_keeps)
    | fail_if_no_progress with_reducible apply Keeps.mk_upd
    | (intro _ _ _; try dsimp only)
    | intro _
    | split

theorem State.setSeq_keeps {z s : State} (k q len : Nat) (live : Bool) (hk : Keeps z s) :
    Keeps z (s.setSeq k q len live) := by
  unfold State.setSeq
  try dsimp only
  repeat' first
    | with_reducible (first | exact hk | assumption | apply Keeps.ite | apply State.wr_keeps)
    | fail_if_no_progress with_reducible apply Keeps.mk_upd
    | (intro _ _ _; try dsimp only)
    | intro _
    | split

theorem State.setEntry_keeps {z s : State} (k q i p : Nat) (hk : Keeps z s) :
    Keeps z (s.setEntry k q i p) := by
  unfold State.setEntry
  try dsimp only
  repeat' first
    | with_reducible (first | exact hk | assumption | apply Keeps.ite | apply State.wrN_keeps)
    | fail_if_no_progress with_reducible apply Keeps.mk_upd
    | (intro _ _ _; try dsimp only)
    | intro _
    | split

theorem State.setFreePages_keeps {z s : State} (k n : Nat) (hk : Keeps z s) :
    Keeps z (s.setFreePages k n) := by
  unfold State.setFreePages
  try dsimp only
  repeat' first
    | with_reducible (first | exact hk | assumption | apply Keeps.ite | apply State.setFld_keeps)
    | fail_if_no_progress with_reducible apply Keeps.mk_upd
    | (intro _ _ _; try dsimp only)
    | intro _
    | split

theorem State.freePage_keeps {z s : State} (k p : Nat) (hk : Keeps z s) :
    Keeps z (s.freePage k p) := by
  unfold State.freePage
  try dsimp only
  repeat' first
    | with_reducible (first | exact hk | assumption | apply Keeps.ite | apply State.setPage_keeps | apply State.wrN_keeps | apply State.setKv_keeps | apply State.setFreePages_keeps)
    | fail_if_no_progress with_reducible apply Keeps.mk_upd
    | (intro _ _ _; try dsimp only)
    | intro _
    | split

theorem State.takePage_keeps {z s : State} (k : Nat) (hk : Keeps z s) :
    ∀ p t, s.takePage k = some (p, t) → Keeps z t := by
  intro p t e
  unfold State.takePage at e
  dsimp only at e
  split at e
  · cases e
  · cases e
    repeat' first
      | with_reducible (first | exact hk | assumption | apply Keeps.ite | apply State.setKv_keeps | apply State.setPage_keeps | apply State.setFreePages_keeps)
      | fail_if_no_progress with_reducible apply Keeps.mk_upd
      | (intro _ _ _; try dsimp only)
      | intro _
      | split

theorem State.dropRef_keeps {z s : State} (k p : Nat) (hk : Keeps z s) :
    Keeps z (s.dropRef k p) := by
  unfold State.dropRef
  try dsimp only
  repeat' first
    | with_reducible (first | exact hk | assumption | apply Keeps.ite | apply State.setPage_keeps | apply State.freePage_keeps)
    | fail_if_no_progress with_reducible apply Keeps.mk_upd
    | (intro _ _ _; try dsimp only)
    | intro _
    | split

theorem State.moor_keeps {z s : State} (k p : Nat) (hk : Keeps z s) :
    Keeps z (s.moor k p) := by
  unfold State.moor
  try dsimp only
  repeat' first
    | with_reducible (first | exact hk | assumption | apply Keeps.ite | apply State.setPage_keeps)
    | fail_if_no_progress with_reducible apply Keeps.mk_upd
    | (intro _ _ _; try dsimp only)
    | intro _
    | split

theorem State.unmoor_keeps {z s : State} (k p : Nat) (hk : Keeps z s) :
    Keeps z (s.unmoor k p) := by
  unfold State.unmoor
  try dsimp only
  repeat' first
    | with_reducible (first | exact hk | assumption | apply Keeps.ite | apply State.freePage_keeps | apply State.setPage_keeps)
    | fail_if_no_progress with_reducible apply Keeps.mk_upd
    | (intro _ _ _; try dsimp only)
    | intro _
    | split

theorem State.countCopy_keeps {z s : State} (k n : Nat) (hk : Keeps z s) :
    Keeps z (s.countCopy k n) := by
  unfold State.countCopy
  try dsimp only
  repeat' first
    | with_reducible (first | exact hk | assumption | apply Keeps.ite | apply State.setKv_keeps | apply State.setReg_keeps)
    | fail_if_no_progress with_reducible apply Keeps.mk_upd
    | (intro _ _ _; try dsimp only)
    | intro _
    | split

theorem State.copyPiece_keeps {z s : State} (k src dst n : Nat) (hk : Keeps z s) :
    Keeps z (s.copyPiece k src dst n).1 := by
  unfold State.copyPiece
  try dsimp only
  repeat' first
    | with_reducible (first | exact hk | assumption | apply Keeps.ite | apply State.countCopy_keeps | apply State.wrPoison_keeps | apply State.wr_keeps)
    | fail_if_no_progress with_reducible apply Keeps.mk_upd
    | (intro _ _ _; try dsimp only)
    | intro _
    | split

theorem State.copyPieces_keeps {z s : State} (k : Nat) (l : List (Nat × Nat × Nat)) (hk : Keeps z s) :
    Keeps z (s.copyPieces k l).1 := by
  unfold State.copyPieces
  try dsimp only
  repeat' first
    | with_reducible (first | exact hk | assumption | apply Keeps.ite | apply State.copyPiece_keeps | apply Keeps.foldl | apply Keeps.foldl_fst | apply Keeps.foldl_snd)
    | fail_if_no_progress with_reducible apply Keeps.mk_upd
    | (intro _ _ _; try dsimp only)
    | intro _
    | split

theorem State.metaPoison_keeps {z s : State} (k : Nat) (hk : Keeps z s) :
    Keeps z (s.metaPoison k) := by
  unfold State.metaPoison
  try dsimp only
  repeat' first
    | with_reducible (first | exact hk | assumption | apply Keeps.ite | apply State.setFld_keeps)
    | fail_if_no_progress with_reducible apply Keeps.mk_upd
    | (intro _ _ _; try dsimp only)
    | intro _
    | split

theorem State.raiseKv_keeps {z s : State} (k x i code : Nat) (hk : Keeps z s) :
    Keeps z (s.raiseKv k x i code) := by
  unfold State.raiseKv
  try dsimp only
  repeat' first
    | with_reducible (first | exact hk | assumption | apply Keeps.ite | apply State.kvpErr_keeps | apply State.raiseFault_keeps)
    | fail_if_no_progress with_reducible apply Keeps.mk_upd
    | (intro _ _ _; try dsimp only)
    | intro _
    | split

theorem State.growPages_keeps {z s : State} (k q i n : Nat) (hk : Keeps z s) : ∀ t, s.growPages k q i n = some t → Keeps z t := by
  induction n generalizing s i with
  | zero => intro t e; cases e; exact hk
  | succ n ih =>
    intro t e
    unfold State.growPages at e
    split at e
    · cases e
    · rename_i p u e'
      exact ih _ (State.setEntry_keeps k q i p (State.takePage_keeps k hk _ _ e')) _ e

theorem State.undefineRows_keeps {z s : State} (k q len ntok : Nat) (hk : Keeps z s) :
    Keeps z (s.undefineRows k q len ntok) := by
  unfold State.undefineRows
  try dsimp only
  repeat' first
    | with_reducible (first | exact hk | assumption | apply Keeps.ite | apply State.forAll_keeps | apply State.lose_keeps)
    | fail_if_no_progress with_reducible apply Keeps.mk_upd
    | (intro _ _ _; try dsimp only)
    | intro _
    | split

theorem State.extendSeq_keeps {z s : State} (k ntok q : Nat) (hk : Keeps z s) :
    ∀ t b, s.extendSeq k ntok q = some (t, b) → Keeps z t := by
  intro t b e
  unfold State.extendSeq at e
  dsimp only at e
  split at e
  · cases e
  · rename_i u bad e'
    have hu : Keeps z u := by
      repeat' split at e'
      all_goals first
        | (cases e'; done)
        | (cases e'; exact hk)
        | (cases e'
           exact State.count_keeps _ _ (State.dropRef_keeps k _ (State.setEntry_keeps k q _ _ (State.copyPieces_keeps k _
             (State.takePage_keeps k hk _ _ (by assumption))))))
    split at e
    · cases e
    · rename_i v ev
      cases e
      exact State.undefineRows_keeps k q _ ntok (State.setSeq_keeps k q _ true (State.growPages_keeps k q _ _ hu _ ev))

theorem State.extendAll_keeps {z s : State} (k ntok : Nat) (l : List Nat) (hk : Keeps z s) :
    ∀ t b, s.extendAll k ntok l = some (t, b) → Keeps z t := by
  induction l generalizing s with
  | nil => intro t b e; cases e; exact hk
  | cons q l ih =>
    intro t b e
    unfold State.extendAll at e
    split at e
    · cases e
    · rename_i u c ec
      have hu := State.extendSeq_keeps k ntok q hk _ _ ec
      cases h : u.extendAll k ntok l with
      | none => rw [h] at e; cases e
      | some p => rw [h] at e; cases e; exact ih hu _ _ h

theorem State.kvWrite_keeps {z s : State} (k : Nat) (d : KvD) (l : List Nat) (hk : Keeps z s) :
    Keeps z (s.kvWrite k d l).1 := by
  unfold State.kvWrite
  try dsimp only
  repeat' first
    | with_reducible (first | exact hk | assumption | apply Keeps.ite | apply State.copyPieces_keeps)
    | fail_if_no_progress with_reducible apply Keeps.mk_upd
    | (intro _ _ _; try dsimp only)
    | intro _
    | split

theorem State.kvShare_keeps {z s : State} (k : Nat) (d : KvD) (hk : Keeps z s) :
    Keeps z (s.kvShare k d) := by
  unfold State.kvShare
  try dsimp only
  repeat' first
    | with_reducible (first | exact hk | assumption | apply Keeps.ite | apply State.forAll_keeps | apply State.setEntry_keeps | apply State.setPage_keeps | apply State.setSeq_keeps)
    | fail_if_no_progress with_reducible apply Keeps.mk_upd
    | (intro _ _ _; try dsimp only)
    | intro _
    | split

theorem State.kvFree_keeps {z s : State} (k q : Nat) (hk : Keeps z s) :
    Keeps z (s.kvFree k q) := by
  unfold State.kvFree
  try dsimp only
  repeat' first
    | with_reducible (first | exact hk | assumption | apply Keeps.ite | apply State.forAll_keeps | apply State.dropRef_keeps | apply State.setEntry_keeps | apply State.setSeq_keeps)
    | fail_if_no_progress with_reducible apply Keeps.mk_upd
    | (intro _ _ _; try dsimp only)
    | intro _
    | split

theorem State.kvBaskets_keeps {z s : State} (k : Nat) (d : KvD) (hk : Keeps z s) :
    Keeps z (s.kvBaskets k d) := by
  unfold State.kvBaskets
  try dsimp only
  repeat' first
    | with_reducible (first | exact hk | assumption | apply Keeps.ite | apply State.wr_keeps | apply State.forAll_keeps | apply Keeps.foldl | apply Keeps.foldl_fst | apply Keeps.foldl_snd)
    | fail_if_no_progress with_reducible apply Keeps.mk_upd
    | (intro _ _ _; try dsimp only)
    | intro _
    | split

theorem State.syncKv_keeps {z s : State} (k : Nat) (hk : Keeps z s) :
    Keeps z (s.syncKv k) := by
  unfold State.syncKv
  try dsimp only
  repeat' first
    | with_reducible (first | exact hk | assumption | apply Keeps.ite | apply State.setFld_keeps)
    | fail_if_no_progress with_reducible apply Keeps.mk_upd
    | (intro _ _ _; try dsimp only)
    | intro _
    | split

theorem State.kvExtend_keeps {z s : State} (k : Nat) (d : KvD) (l : List Nat) (hk : Keeps z s) : Keeps z (s.kvExtend k d l).1 := by
  unfold State.kvExtend
  cases h : s.extendAll k d.ntok l with
  | none => exact hk
  | some p => exact State.extendAll_keeps k d.ntok l hk _ _ h

theorem State.kvEffect_keeps {z s : State} (k opc : Nat) (d : KvD) (l : List Nat) (hk : Keeps z s) :
    Keeps z (s.kvEffect k opc d l).1 := by
  unfold State.kvEffect
  try dsimp only
  repeat' first
    | with_reducible (first | exact hk | assumption | apply Keeps.ite | apply State.kvExtend_keeps | apply State.kvWrite_keeps | apply State.kvShare_keeps | apply State.forAll_keeps | apply State.kvFree_keeps | apply State.kvBaskets_keeps)
    | fail_if_no_progress with_reducible apply Keeps.mk_upd
    | (intro _ _ _; try dsimp only)
    | intro _
    | split

theorem State.issueKv_keeps {z s : State} (k : Nat) (n : Nat) (hk : Keeps z s) :
    Keeps z (s.issueKv k n) := by
  induction n generalizing s  with
  | zero => exact hk
  | succ n ih =>
    unfold State.issueKv
    try dsimp only
    repeat' first
      | with_reducible (first | exact hk | assumption | apply Keeps.ite | apply State.metaPoison_keeps | apply State.kvpErr_keeps | apply State.faultOut_keeps | apply State.forAll_keeps | apply State.moor_keeps | apply State.kvEffect_keeps | apply State.updOutst_keeps | apply State.syncKv_keeps | apply ih)
      | fail_if_no_progress with_reducible apply Keeps.mk_upd
      | (intro _ _ _; try dsimp only)
      | intro _
      | split

theorem State.kvOp_keeps {z s : State} (k x opc : Nat) (hk : Keeps z s) :
    Keeps z (s.kvOp k x opc) := by
  unfold State.kvOp
  try dsimp only
  repeat' first
    | with_reducible (first | exact hk | assumption | apply Keeps.ite | apply State.withHead_keeps | apply State.raiseKv_keeps | apply State.dispatchOut_keeps | apply State.issueKv_keeps)
    | fail_if_no_progress with_reducible apply Keeps.mk_upd
    | (intro _ _ _; try dsimp only)
    | intro _
    | split

theorem State.gatherPage_keeps {z s : State} (k : Nat) (hk : Keeps z s) :
    Keeps z (s.gatherPage k) := by
  unfold State.gatherPage
  try dsimp only
  repeat' first
    | with_reducible (first | exact hk | assumption | apply Keeps.ite | apply State.copyPieces_keeps | apply State.metaPoison_keeps | apply State.unmoor_keeps | apply State.updOutst_keeps)
    | fail_if_no_progress with_reducible apply Keeps.mk_upd
    | (intro _ _ _; try dsimp only)
    | intro _
    | split

theorem State.kvComplete_keeps {z s : State} (k : Nat) (hk : Keeps z s) :
    Keeps z (s.kvComplete k) := by
  unfold State.kvComplete
  try dsimp only
  repeat' first
    | with_reducible (first | exact hk | assumption | apply Keeps.ite | apply State.complete_keeps | apply State.kvpErr_keeps | apply State.raiseFault_keeps | apply State.syncKv_keeps | apply State.issueKv_keeps)
    | fail_if_no_progress with_reducible apply Keeps.mk_upd
    | (intro _ _ _; try dsimp only)
    | intro _
    | split

theorem State.kvInit_keeps {z s : State} (k : Nat) (hk : Keeps z s) :
    Keeps z (s.kvInit k) := by
  unfold State.kvInit
  try dsimp only
  repeat' first
    | with_reducible (first | exact hk | assumption | apply Keeps.ite | apply State.setFld_keeps | apply State.wr_keeps | apply State.setKv_keeps | apply State.setReg_keeps)
    | fail_if_no_progress with_reducible apply Keeps.mk_upd
    | (intro _ _ _; try dsimp only)
    | intro _
    | split

theorem State.kvCmd_keeps {z s : State} (m : Master) (rivals : List Master) (d k : Nat) (body : State → State) (hbody : ∀ u, Keeps z u → Keeps z (body u)) (hk : Keeps z s) :
    Keeps z (s.kvCmd m rivals d k body) := by
  unfold State.kvCmd
  try dsimp only
  repeat' first
    | with_reducible (first | exact hk | assumption | apply Keeps.ite | apply State.command_keeps | apply State.answer_keeps | apply hbody)
    | fail_if_no_progress with_reducible apply Keeps.mk_upd
    | (intro _ _ _; try dsimp only)
    | intro _
    | split

end Sys2Proof.Machine
end

