-- ==== Sys2Proof/Laws/KeepsStack.lean ====
section
/-! SUPPORT. What the operations of Machine/Stack.lean keep (Laws/Keeps.lean). -/

namespace Sys2Proof.Machine

set_option linter.unusedTactic false
set_option linter.unreachableTactic false

theorem State.sdropIssue_keeps {z s : State} (k : Nat) (hk : Keeps z s) :
    Keeps z (s.sdropIssue k) := by
  unfold State.sdropIssue
  try dsimp only
  repeat' first
    | with_reducible (first | exact hk | assumption | apply Keeps.ite | apply State.mapFrames_keeps | apply State.setAs_keeps | apply State.syncAsu_keeps | apply State.complete_keeps)
    | fail_if_no_progress with_reducible apply Keeps.mk_upd
    | (intro _ _ _; try dsimp only)
    | intro _
    | split

end Sys2Proof.Machine
end

