-- ==== Sys2Proof/Laws/KeepsTcx.lean ====
section
/-! SUPPORT. What the operations of Machine/Tcx.lean keep (Laws/Keeps.lean). -/

namespace Sys2Proof.Machine

set_option linter.unusedTactic false
set_option linter.unreachableTactic false

theorem State.setHome_keeps {z s : State} (h : Nat) (v : Home) (hk : Keeps z s) :
    Keeps z (s.setHome h v) := by
  unfold State.setHome
  try dsimp only
  repeat' first
    | with_reducible (first | exact hk | assumption | apply Keeps.ite)
    | fail_if_no_progress with_reducible apply Keeps.mk_upd
    | (intro _ _ _; try dsimp only)
    | intro _
    | split

theorem State.addWatch_keeps {z s : State} (h l c : Nat) (hk : Keeps z s) :
    Keeps z (s.addWatch h l c) := by
  unfold State.addWatch
  try dsimp only
  repeat' first
    | with_reducible (first | exact hk | assumption | apply Keeps.ite | apply State.setHome_keeps)
    | fail_if_no_progress with_reducible apply Keeps.mk_upd
    | (intro _ _ _; try dsimp only)
    | intro _
    | split

theorem State.setThr_keeps {z s : State} (t : Nat) (v : Thread) (hk : Keeps z s) :
    Keeps z (s.setThr t v) := by
  unfold State.setThr
  try dsimp only
  repeat' first
    | with_reducible (first | exact hk | assumption | apply Keeps.ite)
    | fail_if_no_progress with_reducible apply Keeps.mk_upd
    | (intro _ _ _; try dsimp only)
    | intro _
    | split

theorem State.setT_keeps {z s : State} (t v : Nat) (hk : Keeps z s) :
    Keeps z (s.setT t v) := by
  unfold State.setT
  try dsimp only
  repeat' first
    | with_reducible (first | exact hk | assumption | apply Keeps.ite | apply State.setFld_keeps)
    | fail_if_no_progress with_reducible apply Keeps.mk_upd
    | (intro _ _ _; try dsimp only)
    | intro _
    | split

theorem State.go_keeps {z s : State} (t v : Nat) (hk : Keeps z s) :
    Keeps z (s.go t v) := by
  unfold State.go
  try dsimp only
  repeat' first
    | with_reducible (first | exact hk | assumption | apply Keeps.ite | apply State.setT_keeps)
    | fail_if_no_progress with_reducible apply Keeps.mk_upd
    | (intro _ _ _; try dsimp only)
    | intro _
    | split

theorem State.setTreg_keeps {z s : State} (t i v : Nat) (hk : Keeps z s) :
    Keeps z (s.setTreg t i v) := by
  unfold State.setTreg
  try dsimp only
  repeat' first
    | with_reducible (first | exact hk | assumption | apply Keeps.ite | apply State.setThr_keeps)
    | fail_if_no_progress with_reducible apply Keeps.mk_upd
    | (intro _ _ _; try dsimp only)
    | intro _
    | split

theorem State.trap_keeps {z s : State} (t cause tval : Nat) (hk : Keeps z s) :
    Keeps z (s.trap t cause tval) := by
  unfold State.trap
  try dsimp only
  repeat' first
    | with_reducible (first | exact hk | assumption | apply Keeps.ite | apply State.setT_keeps | apply State.setFld_keeps | apply State.setTreg_keeps)
    | fail_if_no_progress with_reducible apply Keeps.mk_upd
    | (intro _ _ _; try dsimp only)
    | intro _
    | split

theorem State.lead_keeps {z s : State} (t : Nat) (l : List (Nat × Nat)) (hk : Keeps z s) :
    Keeps z (s.lead t l) := by
  unfold State.lead
  try dsimp only
  repeat' first
    | with_reducible (first | exact hk | assumption | apply Keeps.ite | apply State.setTreg_keeps | apply State.trap_keeps | apply Keeps.foldl | apply Keeps.foldl_fst | apply Keeps.foldl_snd)
    | fail_if_no_progress with_reducible apply Keeps.mk_upd
    | (intro _ _ _; try dsimp only)
    | intro _
    | split

theorem State.retire_keeps {z s : State} (t rd v : Nat) (hk : Keeps z s) :
    Keeps z (s.retire t rd v) := by
  unfold State.retire
  try dsimp only
  repeat' first
    | with_reducible (first | exact hk | assumption | apply Keeps.ite | apply State.setTreg_keeps | apply State.setThr_keeps | apply State.go_keeps)
    | fail_if_no_progress with_reducible apply Keeps.mk_upd
    | (intro _ _ _; try dsimp only)
    | intro _
    | split

theorem State.tWait_keeps {z s : State} (t w word : Nat) (hk : Keeps z s) :
    Keeps z (s.tWait t w word) := by
  unfold State.tWait
  try dsimp only
  repeat' first
    | with_reducible (first | exact hk | assumption | apply Keeps.ite | apply State.setThr_keeps | apply State.go_keeps)
    | fail_if_no_progress with_reducible apply Keeps.mk_upd
    | (intro _ _ _; try dsimp only)
    | intro _
    | split

theorem State.setL1_keeps {z s : State} (c : Nat) (l : List L1Line) (hk : Keeps z s) :
    Keeps z (s.setL1 c l) := by
  unfold State.setL1
  try dsimp only
  repeat' first
    | with_reducible (first | exact hk | assumption | apply Keeps.ite)
    | fail_if_no_progress with_reducible apply Keeps.mk_upd
    | (intro _ _ _; try dsimp only)
    | intro _
    | split

theorem State.flushLine_keeps {z s : State} (e : L1Line) (own : Option Nat) (hk : Keeps z s) :
    Keeps z (s.flushLine e own) := by
  unfold State.flushLine
  try dsimp only
  repeat' first
    | with_reducible (first | exact hk | assumption | apply Keeps.ite | apply State.wrMask_keeps)
    | fail_if_no_progress with_reducible apply Keeps.mk_upd
    | (intro _ _ _; try dsimp only)
    | intro _
    | split

theorem State.l1Room_keeps {z s : State} (c : Nat) (hk : Keeps z s) :
    Keeps z (s.l1Room c) := by
  unfold State.l1Room
  try dsimp only
  repeat' first
    | with_reducible (first | exact hk | assumption | apply Keeps.ite | apply State.draw_keeps | apply State.flushLine_keeps | apply State.setL1_keeps)
    | fail_if_no_progress with_reducible apply Keeps.mk_upd
    | (intro _ _ _; try dsimp only)
    | intro _
    | split

theorem State.putLine_keeps {z s : State} (c : Nat) (e : L1Line) (hk : Keeps z s) :
    Keeps z (s.putLine c e) := by
  unfold State.putLine
  try dsimp only
  repeat' first
    | with_reducible (first | exact hk | assumption | apply Keeps.ite | apply State.setL1_keeps | apply State.l1Room_keeps)
    | fail_if_no_progress with_reducible apply Keeps.mk_upd
    | (intro _ _ _; try dsimp only)
    | intro _
    | split

theorem State.fill_keeps {z s : State} (c l : Nat) (hk : Keeps z s) :
    Keeps z (s.fill c l) := by
  unfold State.fill
  try dsimp only
  repeat' first
    | with_reducible (first | exact hk | assumption | apply Keeps.ite | apply State.putLine_keeps | apply State.noteCxl_keeps)
    | fail_if_no_progress with_reducible apply Keeps.mk_upd
    | (intro _ _ _; try dsimp only)
    | intro _
    | split

theorem State.fillAhead_keeps {z s : State} (c l : Nat) (hk : Keeps z s) :
    Keeps z (s.fillAhead c l) := by
  unfold State.fillAhead
  try dsimp only
  repeat' first
    | with_reducible (first | exact hk | assumption | apply Keeps.ite | apply State.setL1_keeps | apply State.draw_keeps)
    | fail_if_no_progress with_reducible apply Keeps.mk_upd
    | (intro _ _ _; try dsimp only)
    | intro _
    | split

theorem State.sayLine_keeps {z s : State} (c l : Nat) (hk : Keeps z s) :
    Keeps z (s.sayLine c l) := by
  unfold State.sayLine
  try dsimp only
  repeat' first
    | with_reducible (first | exact hk | assumption | apply Keeps.ite | apply State.putLine_keeps | apply State.addSat_keeps)
    | fail_if_no_progress with_reducible apply Keeps.mk_upd
    | (intro _ _ _; try dsimp only)
    | intro _
    | split

theorem State.cachedLoad_keeps {z s : State} (c a n : Nat) (hk : Keeps z s) :
    Keeps z (s.cachedLoad c a n) := by
  unfold State.cachedLoad
  try dsimp only
  repeat' first
    | with_reducible (first | exact hk | assumption | apply Keeps.ite | apply State.forAll_keeps | apply State.sayLine_keeps | apply State.fill_keeps | apply State.answer_keeps)
    | fail_if_no_progress with_reducible apply Keeps.mk_upd
    | (intro _ _ _; try dsimp only)
    | intro _
    | split

theorem State.cachedStore_keeps {z s : State} (c a : Nat) (b : List Byte) (hk : Keeps z s) :
    Keeps z (s.cachedStore c a b) := by
  unfold State.cachedStore
  try dsimp only
  repeat' first
    | with_reducible (first | exact hk | assumption | apply Keeps.ite | apply State.forAll_keeps | apply State.putLine_keeps | apply State.answer_keeps)
    | fail_if_no_progress with_reducible apply Keeps.mk_upd
    | (intro _ _ _; try dsimp only)
    | intro _
    | split

theorem State.release_keeps {z s : State} (t a n : Nat) (hk : Keeps z s) :
    Keeps z (s.release t a n) := by
  unfold State.release
  try dsimp only
  repeat' first
    | with_reducible (first | exact hk | assumption | apply Keeps.ite | apply State.forAll_keeps | apply State.flushLine_keeps | apply State.setL1_keeps)
    | fail_if_no_progress with_reducible apply Keeps.mk_upd
    | (intro _ _ _; try dsimp only)
    | intro _
    | split

theorem State.acquire_keeps {z s : State} (t a n : Nat) (hk : Keeps z s) :
    Keeps z (s.acquire t a n) := by
  unfold State.acquire
  try dsimp only
  repeat' first
    | with_reducible (first | exact hk | assumption | apply Keeps.ite | apply State.setL1_keeps)
    | fail_if_no_progress with_reducible apply Keeps.mk_upd
    | (intro _ _ _; try dsimp only)
    | intro _
    | split

theorem State.dropLine_keeps {z s : State} (t l : Nat) (hk : Keeps z s) :
    Keeps z (s.dropLine t l) := by
  unfold State.dropLine
  try dsimp only
  repeat' first
    | with_reducible (first | exact hk | assumption | apply Keeps.ite | apply State.flushLine_keeps | apply State.setL1_keeps)
    | fail_if_no_progress with_reducible apply Keeps.mk_upd
    | (intro _ _ _; try dsimp only)
    | intro _
    | split

theorem State.saveThread_keeps {z s : State} (t : Nat) (numbered : Bool) (hk : Keeps z s) :
    Keeps z (s.saveThread t numbered) := by
  unfold State.saveThread
  try dsimp only
  repeat' first
    | with_reducible (first | exact hk | assumption | apply Keeps.ite | apply State.wr_keeps | apply State.wrN_keeps)
    | fail_if_no_progress with_reducible apply Keeps.mk_upd
    | (intro _ _ _; try dsimp only)
    | intro _
    | split

theorem State.nextOp_keeps {z s : State} (t : Nat) (hk : Keeps z s) :
    Keeps z (s.nextOp t) := by
  unfold State.nextOp
  try dsimp only
  repeat' first
    | with_reducible (first | exact hk | assumption | apply Keeps.ite | apply State.setThr_keeps | apply State.setFld_keeps)
    | fail_if_no_progress with_reducible apply Keeps.mk_upd
    | (intro _ _ _; try dsimp only)
    | intro _
    | split

theorem State.keep_keeps {z s : State} (agent t v : Nat) (hk : Keeps z s) :
    Keeps z (s.keep agent t v) := by
  unfold State.keep
  try dsimp only
  repeat' first
    | with_reducible (first | exact hk | assumption | apply Keeps.ite)
    | fail_if_no_progress with_reducible apply Keeps.mk_upd
    | (intro _ _ _; try dsimp only)
    | intro _
    | split

theorem State.sendPoint_keeps {z s : State} (t : Nat) (rel : Bool) (hk : Keeps z s) :
    Keeps z (s.sendPoint t rel) := by
  unfold State.sendPoint
  try dsimp only
  repeat' first
    | with_reducible (first | exact hk | assumption | apply Keeps.ite | apply State.nextOp_keeps | apply State.saveThread_keeps | apply State.release_keeps)
    | fail_if_no_progress with_reducible apply Keeps.mk_upd
    | (intro _ _ _; try dsimp only)
    | intro _
    | split

theorem State.retreat_keeps {z s : State} (t : Nat) (hk : Keeps z s) :
    Keeps z (s.retreat t) := by
  unfold State.retreat
  try dsimp only
  repeat' first
    | with_reducible (first | exact hk | assumption | apply Keeps.ite | apply State.saveThread_keeps | apply State.release_keeps)
    | fail_if_no_progress with_reducible apply Keeps.mk_upd
    | (intro _ _ _; try dsimp only)
    | intro _
    | split

theorem State.prefetch_keeps {z s : State} (t k a : Nat) (hk : Keeps z s) :
    Keeps z (s.prefetch t k a) := by
  unfold State.prefetch
  try dsimp only
  repeat' first
    | with_reducible (first | exact hk | assumption | apply Keeps.ite | apply State.forAll_keeps | apply State.fillAhead_keeps)
    | fail_if_no_progress with_reducible apply Keeps.mk_upd
    | (intro _ _ _; try dsimp only)
    | intro _
    | split

theorem State.setIl1_keeps {z s : State} (c : Nat) (l : List Nat) (hk : Keeps z s) :
    Keeps z (s.setIl1 c l) := by
  unfold State.setIl1
  try dsimp only
  repeat' first
    | with_reducible (first | exact hk | assumption | apply Keeps.ite)
    | fail_if_no_progress with_reducible apply Keeps.mk_upd
    | (intro _ _ _; try dsimp only)
    | intro _
    | split

theorem State.ifill_keeps {z s : State} (c l : Nat) (hk : Keeps z s) :
    Keeps z (s.ifill c l) := by
  unfold State.ifill
  try dsimp only
  repeat' first
    | with_reducible (first | exact hk | assumption | apply Keeps.ite | apply State.noteCxl_keeps | apply State.setIl1_keeps | apply State.draw_keeps)
    | fail_if_no_progress with_reducible apply Keeps.mk_upd
    | (intro _ _ _; try dsimp only)
    | intro _
    | split

theorem State.asThread_keeps {z s : State} (t : Nat) (lead : List (Nat × Nat)) (n : Nat) (act : State → State) (hact : ∀ u, Keeps z u → Keeps z (act u)) (hk : Keeps z s) :
    Keeps z (s.asThread t lead n act) := by
  unfold State.asThread
  try dsimp only
  repeat' first
    | with_reducible (first | exact hk | assumption | apply Keeps.ite | apply State.lead_keeps | apply State.trap_keeps | apply State.forAll_keeps | apply State.ifill_keeps | apply hact)
    | fail_if_no_progress with_reducible apply Keeps.mk_upd
    | (intro _ _ _; try dsimp only)
    | intro _
    | split

theorem State.xritar_keeps {z s : State} (t : Nat) (lead : List (Nat × Nat)) (f3 word : Nat) (unused : List Nat) (act : State → Nat → Nat → State) (hact : ∀ u x1 x2, Keeps z u → Keeps z (act u x1 x2)) (hk : Keeps z s) :
    Keeps z (s.xritar t lead f3 word unused act) := by
  unfold State.xritar
  try dsimp only
  repeat' first
    | with_reducible (first | exact hk | assumption | apply Keeps.ite | apply State.asThread_keeps | apply State.trap_keeps | apply hact)
    | fail_if_no_progress with_reducible apply Keeps.mk_upd
    | (intro _ _ _; try dsimp only)
    | intro _
    | split

theorem State.rtAcq_keeps {z s : State} (t : Nat) (lead : List (Nat × Nat)) (word : Nat) (hk : Keeps z s) :
    Keeps z (s.rtAcq t lead word) := by
  unfold State.rtAcq
  try dsimp only
  repeat' first
    | with_reducible (first | exact hk | assumption | apply Keeps.ite | apply State.xritar_keeps | apply State.acquire_keeps | apply State.retire_keeps)
    | fail_if_no_progress with_reducible apply Keeps.mk_upd
    | (intro _ _ _; try dsimp only)
    | intro _
    | split

theorem State.rtRel_keeps {z s : State} (t : Nat) (lead : List (Nat × Nat)) (word : Nat) (hk : Keeps z s) :
    Keeps z (s.rtRel t lead word) := by
  unfold State.rtRel
  try dsimp only
  repeat' first
    | with_reducible (first | exact hk | assumption | apply Keeps.ite | apply State.xritar_keeps | apply State.saveThread_keeps | apply State.release_keeps | apply State.retire_keeps)
    | fail_if_no_progress with_reducible apply Keeps.mk_upd
    | (intro _ _ _; try dsimp only)
    | intro _
    | split

theorem State.rtTpost_keeps {z s : State} (t : Nat) (lead : List (Nat × Nat)) (word : Nat) (hk : Keeps z s) :
    Keeps z (s.rtTpost t lead word) := by
  unfold State.rtTpost
  try dsimp only
  repeat' first
    | with_reducible (first | exact hk | assumption | apply Keeps.ite | apply State.xritar_keeps | apply State.sendPoint_keeps | apply State.extPost_keeps | apply State.keep_keeps | apply State.retire_keeps)
    | fail_if_no_progress with_reducible apply Keeps.mk_upd
    | (intro _ _ _; try dsimp only)
    | intro _
    | split

theorem State.taken_keeps {z s : State} (t v : Nat) (hk : Keeps z s) :
    Keeps z (s.taken t v) := by
  unfold State.taken
  try dsimp only
  repeat' first
    | with_reducible (first | exact hk | assumption | apply Keeps.ite | apply State.acquire_keeps | apply State.retire_keeps)
    | fail_if_no_progress with_reducible apply Keeps.mk_upd
    | (intro _ _ _; try dsimp only)
    | intro _
    | split

theorem State.takeWait_keeps {z s : State} (t k c word : Nat) (hk : Keeps z s) :
    Keeps z (s.takeWait t k c word) := by
  unfold State.takeWait
  try dsimp only
  repeat' first
    | with_reducible (first | exact hk | assumption | apply Keeps.ite | apply State.sendPoint_keeps | apply State.tWait_keeps | apply State.taken_keeps | apply Keeps.elim)
    | fail_if_no_progress with_reducible apply Keeps.mk_upd
    | (intro _ _ _; try dsimp only)
    | intro _
    | split

theorem State.rtTtake_keeps {z s : State} (t : Nat) (lead : List (Nat × Nat)) (word : Nat) (hk : Keeps z s) :
    Keeps z (s.rtTtake t lead word) := by
  unfold State.rtTtake
  apply State.xritar_keeps _ _ _ _ _ _ _ hk
  intro u c d hu
  cases u.tStake t with
  | none => exact hu
  | some k => exact State.takeWait_keeps _ _ _ _ hu

theorem State.ttakeServe_keeps {z s : State} (k : Nat) (hk : Keeps z s) :
    Keeps z (s.ttakeServe k) := by
  unfold State.ttakeServe
  try dsimp only
  repeat' first
    | with_reducible (first | exact hk | assumption | apply Keeps.ite | apply State.setTok_keeps | apply State.ctxThrough_keeps | apply State.keep_keeps | apply State.taken_keeps)
    | fail_if_no_progress with_reducible apply Keeps.mk_upd
    | (intro _ _ _; try dsimp only)
    | intro _
    | split

theorem State.twaitRead_keeps {z s : State} (t word a v : Nat) (hk : Keeps z s) :
    Keeps z (s.twaitRead t word a v) := by
  unfold State.twaitRead
  try dsimp only
  repeat' first
    | with_reducible (first | exact hk | assumption | apply Keeps.ite | apply State.acquire_keeps | apply State.retire_keeps | apply State.addWatch_keeps | apply State.tWait_keeps)
    | fail_if_no_progress with_reducible apply Keeps.mk_upd
    | (intro _ _ _; try dsimp only)
    | intro _
    | split

theorem State.rtTwait_keeps {z s : State} (t : Nat) (lead : List (Nat × Nat)) (word : Nat) (hk : Keeps z s) :
    Keeps z (s.rtTwait t lead word) := by
  unfold State.rtTwait
  try dsimp only
  repeat' first
    | with_reducible (first | exact hk | assumption | apply Keeps.ite | apply State.xritar_keeps | apply State.trap_keeps | apply State.twaitRead_keeps)
    | fail_if_no_progress with_reducible apply Keeps.mk_upd
    | (intro _ _ _; try dsimp only)
    | intro _
    | split

theorem State.twaitReread_keeps {z s : State} (t : Nat) (hk : Keeps z s) :
    Keeps z (s.twaitReread t) := by
  unfold State.twaitReread
  try dsimp only
  repeat' first
    | with_reducible (first | exact hk | assumption | apply Keeps.ite | apply State.twaitRead_keeps)
    | fail_if_no_progress with_reducible apply Keeps.mk_upd
    | (intro _ _ _; try dsimp only)
    | intro _
    | split

theorem State.apostSend_keeps {z s : State} (t p a word : Nat) (hk : Keeps z s) :
    Keeps z (s.apostSend t p a word) := by
  unfold State.apostSend
  try dsimp only
  repeat' first
    | with_reducible (first | exact hk | assumption | apply Keeps.ite | apply State.retire_keeps | apply State.tWait_keeps | apply State.wr_keeps | apply State.setPv_keeps | apply State.syncPvu_keeps | apply State.keep_keeps)
    | fail_if_no_progress with_reducible apply Keeps.mk_upd
    | (intro _ _ _; try dsimp only)
    | intro _
    | split

theorem State.rtApost_keeps {z s : State} (t : Nat) (lead : List (Nat × Nat)) (word : Nat) (hk : Keeps z s) :
    Keeps z (s.rtApost t lead word) := by
  unfold State.rtApost
  try dsimp only
  repeat' first
    | with_reducible (first | exact hk | assumption | apply Keeps.ite | apply State.apostSend_keeps | apply State.xritar_keeps | apply State.trap_keeps | apply State.sendPoint_keeps)
    | fail_if_no_progress with_reducible apply Keeps.mk_upd
    | (intro _ _ _; try dsimp only)
    | intro _
    | split

theorem State.rtSdesc_keeps {z s : State} (t : Nat) (lead : List (Nat × Nat)) (word : Nat) (hk : Keeps z s) :
    Keeps z (s.rtSdesc t lead word) := by
  unfold State.rtSdesc
  try dsimp only
  repeat' first
    | with_reducible (first | exact hk | assumption | apply Keeps.ite | apply State.xritar_keeps | apply State.trap_keeps | apply State.setThr_keeps | apply State.retire_keeps)
    | fail_if_no_progress with_reducible apply Keeps.mk_upd
    | (intro _ _ _; try dsimp only)
    | intro _
    | split

theorem State.rtSstop_keeps {z s : State} (t : Nat) (lead : List (Nat × Nat)) (word : Nat) (hk : Keeps z s) :
    Keeps z (s.rtSstop t lead word) := by
  unfold State.rtSstop
  try dsimp only
  repeat' first
    | with_reducible (first | exact hk | assumption | apply Keeps.ite | apply State.xritar_keeps | apply State.setThr_keeps | apply State.retire_keeps)
    | fail_if_no_progress with_reducible apply Keeps.mk_upd
    | (intro _ _ _; try dsimp only)
    | intro _
    | split

theorem State.unwait_keeps {z s : State} (t : Nat) (hk : Keeps z s) :
    Keeps z (s.unwait t) := by
  unfold State.unwait
  try dsimp only
  repeat' first
    | with_reducible (first | exact hk | assumption | apply Keeps.ite | apply State.setThr_keeps)
    | fail_if_no_progress with_reducible apply Keeps.mk_upd
    | (intro _ _ _; try dsimp only)
    | intro _
    | split

theorem State.haltThread_keeps {z s : State} (t : Nat) (hk : Keeps z s) :
    Keeps z (s.haltThread t) := by
  unfold State.haltThread
  try dsimp only
  repeat' first
    | with_reducible (first | exact hk | assumption | apply Keeps.ite | apply State.retreat_keeps | apply State.unwait_keeps | apply State.setT_keeps)
    | fail_if_no_progress with_reducible apply Keeps.mk_upd
    | (intro _ _ _; try dsimp only)
    | intro _
    | split

theorem State.tcxErr_keeps {z s : State} (d code core thread : Nat) (hk : Keeps z s) :
    Keeps z (s.tcxErr d code core thread) := by
  unfold State.tcxErr
  try dsimp only
  repeat' first
    | with_reducible (first | exact hk | assumption | apply Keeps.ite | apply State.setReg_keeps | apply State.setFld_keeps)
    | fail_if_no_progress with_reducible apply Keeps.mk_upd
    | (intro _ _ _; try dsimp only)
    | intro _
    | split

theorem State.launch_keeps {z s : State} (d core thread : Nat) (hk : Keeps z s) :
    Keeps z (s.launch d core thread) := by
  unfold State.launch
  try dsimp only
  repeat' first
    | with_reducible (first | exact hk | assumption | apply Keeps.ite | apply State.tcxErr_keeps | apply State.answer_keeps | apply State.setThr_keeps | apply State.setTreg_keeps | apply State.setFld_keeps | apply State.setT_keeps)
    | fail_if_no_progress with_reducible apply Keeps.mk_upd
    | (intro _ _ _; try dsimp only)
    | intro _
    | split

theorem State.haltCmd_keeps {z s : State} (d core thread : Nat) (hk : Keeps z s) :
    Keeps z (s.haltCmd d core thread) := by
  unfold State.haltCmd
  try dsimp only
  repeat' first
    | with_reducible (first | exact hk | assumption | apply Keeps.ite | apply State.haltThread_keeps)
    | fail_if_no_progress with_reducible apply Keeps.mk_upd
    | (intro _ _ _; try dsimp only)
    | intro _
    | split

theorem State.wfi_keeps {z s : State} (t : Nat) (lead : List (Nat × Nat)) (hk : Keeps z s) :
    Keeps z (s.wfi t lead) := by
  unfold State.wfi
  try dsimp only
  repeat' first
    | with_reducible (first | exact hk | assumption | apply Keeps.ite | apply State.asThread_keeps | apply State.trap_keeps | apply State.retire_keeps | apply State.setTreg_keeps | apply State.haltThread_keeps)
    | fail_if_no_progress with_reducible apply Keeps.mk_upd
    | (intro _ _ _; try dsimp only)
    | intro _
    | split

theorem State.restart_keeps {z s : State} (t host : Nat) (hk : Keeps z s) :
    Keeps z (s.restart t host) := by
  unfold State.restart
  try dsimp only
  repeat' first
    | with_reducible (first | exact hk | assumption | apply Keeps.ite | apply State.unwait_keeps | apply State.setThr_keeps | apply State.forAll_keeps | apply State.setTreg_keeps | apply State.setFld_keeps | apply State.setT_keeps)
    | fail_if_no_progress with_reducible apply Keeps.mk_upd
    | (intro _ _ _; try dsimp only)
    | intro _
    | split

theorem State.braceThreads_keeps {z s : State} (k : Nat) (on : Bool) (hk : Keeps z s) :
    Keeps z (s.braceThreads k on) := by
  unfold State.braceThreads
  try dsimp only
  repeat' first
    | with_reducible (first | exact hk | assumption | apply Keeps.ite | apply State.forAll_keeps | apply State.setFld_keeps | apply State.setT_keeps)
    | fail_if_no_progress with_reducible apply Keeps.mk_upd
    | (intro _ _ _; try dsimp only)
    | intro _
    | split

theorem State.idleThreads_keeps {z s : State} (mask : Nat) (hk : Keeps z s) :
    Keeps z (s.idleThreads mask) := by
  unfold State.idleThreads
  try dsimp only
  repeat' first
    | with_reducible (first | exact hk | assumption | apply Keeps.ite | apply State.forAll_keeps | apply State.setL1_keeps | apply State.setIl1_keeps | apply State.unwait_keeps | apply State.setThr_keeps | apply State.setT_keeps)
    | fail_if_no_progress with_reducible apply Keeps.mk_upd
    | (intro _ _ _; try dsimp only)
    | intro _
    | split

theorem State.haltThreads_keeps {z s : State} (mask : Nat) (hk : Keeps z s) :
    Keeps z (s.haltThreads mask) := by
  unfold State.haltThreads
  try dsimp only
  repeat' first
    | with_reducible (first | exact hk | assumption | apply Keeps.ite | apply State.forAll_keeps | apply State.haltThread_keeps)
    | fail_if_no_progress with_reducible apply Keeps.mk_upd
    | (intro _ _ _; try dsimp only)
    | intro _
    | split

end Sys2Proof.Machine
end

