-- ==== Sys2Proof/Laws/KeepsCoh.lean ====
section
/-! SUPPORT. What the operations of Machine/Coh.lean keep (Laws/Keeps.lean). -/

namespace Sys2Proof.Machine

set_option linter.unusedTactic false
set_option linter.unreachableTactic false

theorem State.modHome_keeps {z s : State} (h : Nat) (f : Home → Home) (hk : Keeps z s) :
    Keeps z (s.modHome h f) := by
  unfold State.modHome
  try dsimp only
  repeat' first
    | with_reducible (first | exact hk | assumption | apply Keeps.ite | apply State.setHome_keeps)
    | fail_if_no_progress with_reducible apply Keeps.mk_upd
    | (intro _ _ _; try dsimp only)
    | intro _
    | split

theorem State.bump_keeps {z s : State} (a : Nat) (f : Fld) (n : Nat) (hk : Keeps z s) :
    Keeps z (s.bump a f n) := by
  unfold State.bump
  try dsimp only
  repeat' first
    | with_reducible (first | exact hk | assumption | apply Keeps.ite | apply State.setFld_keeps)
    | fail_if_no_progress with_reducible apply Keeps.mk_upd
    | (intro _ _ _; try dsimp only)
    | intro _
    | split

theorem State.cohErr_keeps {z s : State} (code h agent : Nat) (hk : Keeps z s) :
    Keeps z (s.cohErr code h agent) := by
  unfold State.cohErr
  try dsimp only
  repeat' first
    | with_reducible (first | exact hk | assumption | apply Keeps.ite | apply State.setReg_keeps | apply State.setFld_keeps)
    | fail_if_no_progress with_reducible apply Keeps.mk_upd
    | (intro _ _ _; try dsimp only)
    | intro _
    | split

theorem State.homePoison_keeps {z s : State} (l : Nat) (hk : Keeps z s) :
    Keeps z (s.homePoison l) := by
  unfold State.homePoison
  try dsimp only
  repeat' first
    | with_reducible (first | exact hk | assumption | apply Keeps.ite | apply State.wrPoison_keeps | apply State.touch_keeps | apply State.modEvent_keeps | apply State.setFld_keeps)
    | fail_if_no_progress with_reducible apply Keeps.mk_upd
    | (intro _ _ _; try dsimp only)
    | intro _
    | split

theorem State.copyTo_keeps {z s : State} (l agent : Nat) (owned : Bool) (hk : Keeps z s) :
    Keeps z (s.copyTo l agent owned) := by
  unfold State.copyTo
  try dsimp only
  repeat' first
    | with_reducible (first | exact hk | assumption | apply Keeps.ite)
    | fail_if_no_progress with_reducible apply Keeps.mk_upd
    | (intro _ _ _; try dsimp only)
    | intro _
    | split

theorem State.dropCopies_keeps {z s : State} (l keep : Nat) (hk : Keeps z s) :
    Keeps z (s.dropCopies l keep) := by
  unfold State.dropCopies
  try dsimp only
  repeat' first
    | with_reducible (first | exact hk | assumption | apply Keeps.ite)
    | fail_if_no_progress with_reducible apply Keeps.mk_upd
    | (intro _ _ _; try dsimp only)
    | intro _
    | split

theorem State.fire_keeps {z s : State} (h l : Nat) (hk : Keeps z s) :
    Keeps z (s.fire h l) := by
  unfold State.fire
  try dsimp only
  repeat' first
    | with_reducible (first | exact hk | assumption | apply Keeps.ite | apply State.modHome_keeps)
    | fail_if_no_progress with_reducible apply Keeps.mk_upd
    | (intro _ _ _; try dsimp only)
    | intro _
    | split

theorem State.retryReq_keeps {z s : State} (h : Nat) (r : HomeReq) (hk : Keeps z s) :
    Keeps z (s.retryReq h r) := by
  unfold State.retryReq
  try dsimp only
  repeat' first
    | with_reducible (first | exact hk | assumption | apply Keeps.ite | apply State.modHome_keeps | apply State.bump_keeps | apply State.answer_keeps)
    | fail_if_no_progress with_reducible apply Keeps.mk_upd
    | (intro _ _ _; try dsimp only)
    | intro _
    | split

theorem State.homeDone_keeps {z s : State} (h : Nat) (t : Tracker) (r : Resp) (keepAs : Option Nat) (hk : Keeps z s) :
    Keeps z (s.homeDone h t r keepAs) := by
  unfold State.homeDone
  try dsimp only
  repeat' first
    | with_reducible (first | exact hk | assumption | apply Keeps.ite | apply State.modHome_keeps | apply State.answer_keeps)
    | fail_if_no_progress with_reducible apply Keeps.mk_upd
    | (intro _ _ _; try dsimp only)
    | intro _
    | split

theorem State.atomHere_keeps {z s : State} (r : HomeReq) (hk : Keeps z s) :
    Keeps z (s.atomHere r).2 := by
  unfold State.atomHere
  try dsimp only
  repeat' first
    | with_reducible (first | exact hk | assumption | apply Keeps.ite | apply State.wrMask_keeps)
    | fail_if_no_progress with_reducible apply Keeps.mk_upd
    | (intro _ _ _; try dsimp only)
    | intro _
    | split

theorem State.homeAct_keeps {z s : State} (h : Nat) (t : Tracker) (bad : Bool) (hk : Keeps z s) :
    Keeps z (s.homeAct h t bad) := by
  unfold State.homeAct
  try dsimp only
  repeat' first
    | with_reducible (first | exact hk | assumption | apply Keeps.ite | apply State.noteCxl_keeps | apply State.homeDone_keeps | apply State.modHome_keeps | apply State.setEntry_keeps | apply State.copyTo_keeps | apply State.dropCopies_keeps | apply State.fire_keeps | apply State.wr_keeps | apply State.wrMask_keeps | apply State.addWatch_keeps | apply State.atomHere_keeps | apply State.bump_keeps)
    | fail_if_no_progress with_reducible apply Keeps.mk_upd
    | (intro _ _ _; try dsimp only)
    | intro _
    | split

theorem State.homeFar_keeps {z s : State} (h : Nat) (t : Tracker) (hk : Keeps z s) :
    Keeps z (s.homeFar h t) := by
  unfold State.homeFar
  try dsimp only
  repeat' first
    | with_reducible (first | exact hk | assumption | apply Keeps.ite | apply State.homeDone_keeps | apply State.modHome_keeps | apply State.setQu_keeps | apply State.bump_keeps)
    | fail_if_no_progress with_reducible apply Keeps.mk_upd
    | (intro _ _ _; try dsimp only)
    | intro _
    | split

theorem State.homeServe_keeps {z s : State} (h : Nat) (t : Tracker) (bad : Bool) (hk : Keeps z s) :
    Keeps z (s.homeServe h t bad) := by
  unfold State.homeServe
  try dsimp only
  repeat' first
    | with_reducible (first | exact hk | assumption | apply Keeps.ite | apply State.homeFar_keeps | apply State.homeAct_keeps)
    | fail_if_no_progress with_reducible apply Keeps.mk_upd
    | (intro _ _ _; try dsimp only)
    | intro _
    | split

theorem State.homeRun_keeps {z s : State} (h : Nat) (t : Tracker) (hk : Keeps z s) :
    Keeps z (s.homeRun h t) := by
  unfold State.homeRun
  try dsimp only
  repeat' first
    | with_reducible (first | exact hk | assumption | apply Keeps.ite | apply State.cohErr_keeps | apply State.modHome_keeps | apply State.homeServe_keeps)
    | fail_if_no_progress with_reducible apply Keeps.mk_upd
    | (intro _ _ _; try dsimp only)
    | intro _
    | split

theorem State.homeBegin_keeps {z s : State} (h id : Nat) (hk : Keeps z s) :
    Keeps z (s.homeBegin h id) := by
  unfold State.homeBegin
  try dsimp only
  repeat' first
    | with_reducible (first | exact hk | assumption | apply Keeps.ite | apply State.addSat_keeps | apply State.modHome_keeps | apply State.retryReq_keeps | apply State.count_keeps | apply State.homeRun_keeps)
    | fail_if_no_progress with_reducible apply Keeps.mk_upd
    | (intro _ _ _; try dsimp only)
    | intro _
    | split

theorem State.homeWake_keeps {z s : State} (h : Nat) (hk : Keeps z s) :
    Keeps z (s.homeWake h) := by
  unfold State.homeWake
  try dsimp only
  repeat' first
    | with_reducible (first | exact hk | assumption | apply Keeps.ite | apply State.forAll_keeps | apply State.homeBegin_keeps)
    | fail_if_no_progress with_reducible apply Keeps.mk_upd
    | (intro _ _ _; try dsimp only)
    | intro _
    | split

theorem State.homeReq_keeps {z s : State} (h : Nat) (r : HomeReq) (hk : Keeps z s) :
    Keeps z (s.homeReq h r) := by
  unfold State.homeReq
  try dsimp only
  repeat' first
    | with_reducible (first | exact hk | assumption | apply Keeps.ite | apply State.answer_keeps | apply State.retryReq_keeps | apply State.addSat_keeps | apply State.modHome_keeps | apply State.homeBegin_keeps)
    | fail_if_no_progress with_reducible apply Keeps.mk_upd
    | (intro _ _ _; try dsimp only)
    | intro _
    | split

theorem State.homeNext_keeps {z s : State} (h : Nat) (t : Tracker) (bad : Bool) (hk : Keeps z s) :
    Keeps z (s.homeNext h t bad) := by
  unfold State.homeNext
  try dsimp only
  repeat' first
    | with_reducible (first | exact hk | assumption | apply Keeps.ite | apply State.modHome_keeps | apply State.homeRun_keeps | apply State.homeServe_keeps | apply State.homeWake_keeps)
    | fail_if_no_progress with_reducible apply Keeps.mk_upd
    | (intro _ _ _; try dsimp only)
    | intro _
    | split

theorem State.snoopsLeft_keeps {z s : State} (h : Nat) (t : Tracker) (l : List (Nat × Nat)) (hk : Keeps z s) :
    Keeps z (s.snoopsLeft h t l) := by
  unfold State.snoopsLeft
  try dsimp only
  repeat' first
    | with_reducible (first | exact hk | assumption | apply Keeps.ite | apply State.homeNext_keeps | apply State.modHome_keeps)
    | fail_if_no_progress with_reducible apply Keeps.mk_upd
    | (intro _ _ _; try dsimp only)
    | intro _
    | split

theorem State.snoop_keeps {z s : State} (h agent tid : Nat) (wback : Bool) (hk : Keeps z s) :
    Keeps z (s.snoop h agent tid wback) := by
  unfold State.snoop
  try dsimp only
  repeat' first
    | with_reducible (first | exact hk | assumption | apply Keeps.ite | apply State.copyTo_keeps | apply State.modHome_keeps)
    | fail_if_no_progress with_reducible apply Keeps.mk_upd
    | (intro _ _ _; try dsimp only)
    | intro _
    | split

theorem State.snoopPoison_keeps {z s : State} (h : Nat) (t : Tracker) (code agent : Nat) (hk : Keeps z s) :
    Keeps z (s.snoopPoison h t code agent) := by
  unfold State.snoopPoison
  try dsimp only
  repeat' first
    | with_reducible (first | exact hk | assumption | apply Keeps.ite | apply State.homePoison_keeps | apply State.cohErr_keeps | apply State.homeNext_keeps)
    | fail_if_no_progress with_reducible apply Keeps.mk_upd
    | (intro _ _ _; try dsimp only)
    | intro _
    | split

theorem State.takeAnswer_keeps {z s : State} (h agent tid : Nat) (err : Bool) (hk : Keeps z s) :
    Keeps z (s.takeAnswer h agent tid err) := by
  unfold State.takeAnswer
  try dsimp only
  repeat' first
    | with_reducible (first | exact hk | assumption | apply Keeps.ite | apply State.modHome_keeps | apply State.bump_keeps | apply State.snoopPoison_keeps | apply State.snoopsLeft_keeps)
    | fail_if_no_progress with_reducible apply Keeps.mk_upd
    | (intro _ _ _; try dsimp only)
    | intro _
    | split

theorem State.snoopAnswer_keeps {z s : State} (h agent tid : Nat) (err : Bool) (hk : Keeps z s) :
    Keeps z (s.snoopAnswer h agent tid err) := by
  unfold State.snoopAnswer
  try dsimp only
  repeat' first
    | with_reducible (first | exact hk | assumption | apply Keeps.ite | apply State.takeAnswer_keeps | apply State.ptbHome_keeps | apply State.modHome_keeps)
    | fail_if_no_progress with_reducible apply Keeps.mk_upd
    | (intro _ _ _; try dsimp only)
    | intro _
    | split

theorem State.snoopTimeout_keeps {z s : State} (h tid : Nat) (hk : Keeps z s) :
    Keeps z (s.snoopTimeout h tid) := by
  unfold State.snoopTimeout
  try dsimp only
  repeat' first
    | with_reducible (first | exact hk | assumption | apply Keeps.ite | apply State.modHome_keeps | apply State.bump_keeps | apply State.snoopPoison_keeps)
    | fail_if_no_progress with_reducible apply Keeps.mk_upd
    | (intro _ _ _; try dsimp only)
    | intro _
    | split

theorem State.wback_keeps {z s : State} (h agent a : Nat) (hk : Keeps z s) :
    Keeps z (s.wback h agent a) := by
  unfold State.wback
  try dsimp only
  repeat' first
    | with_reducible (first | exact hk | assumption | apply Keeps.ite | apply State.modHome_keeps | apply State.snoopsLeft_keeps | apply State.setEntry_keeps)
    | fail_if_no_progress with_reducible apply Keeps.mk_upd
    | (intro _ _ _; try dsimp only)
    | intro _
    | split

theorem State.trackerFree_keeps {z s : State} (h : Nat) (hk : Keeps z s) :
    Keeps z (s.trackerFree h) := by
  unfold State.trackerFree
  try dsimp only
  repeat' first
    | with_reducible (first | exact hk | assumption | apply Keeps.ite | apply State.modHome_keeps)
    | fail_if_no_progress with_reducible apply Keeps.mk_upd
    | (intro _ _ _; try dsimp only)
    | intro _
    | split

theorem State.grant_keeps {z s : State} (h tid : Nat) (hk : Keeps z s) :
    Keeps z (s.grant h tid) := by
  unfold State.grant
  try dsimp only
  repeat' first
    | with_reducible (first | exact hk | assumption | apply Keeps.ite | apply State.modHome_keeps | apply State.homeReq_keeps)
    | fail_if_no_progress with_reducible apply Keeps.mk_upd
    | (intro _ _ _; try dsimp only)
    | intro _
    | split

theorem State.quayReturn_keeps {z s : State} (h tid : Nat) (hk : Keeps z s) :
    Keeps z (s.quayReturn h tid) := by
  unfold State.quayReturn
  try dsimp only
  repeat' first
    | with_reducible (first | exact hk | assumption | apply Keeps.ite | apply State.setQu_keeps | apply State.touch_keeps | apply State.homeDone_keeps | apply State.homeWake_keeps)
    | fail_if_no_progress with_reducible apply Keeps.mk_upd
    | (intro _ _ _; try dsimp only)
    | intro _
    | split

theorem State.tileAtom_keeps {z s : State} (t : Nat) (lead : List (Nat × Nat)) (a size : Nat) (load : Bool) (kinds : List Nat) (act : State → State) (hact : ∀ u, Keeps z u → Keeps z (act u)) (hk : Keeps z s) :
    Keeps z (s.tileAtom t lead a size load kinds act) := by
  unfold State.tileAtom
  try dsimp only
  repeat' first
    | with_reducible (first | exact hk | assumption | apply Keeps.ite | apply State.asThread_keeps | apply State.trap_keeps | apply State.dropLine_keeps | apply hact)
    | fail_if_no_progress with_reducible apply Keeps.mk_upd
    | (intro _ _ _; try dsimp only)
    | intro _
    | split

theorem State.numbered_keeps {z s : State} (h t : Nat) (q : HomeReq) (hk : Keeps z s) :
    Keeps z (s.numbered h t q) := by
  unfold State.numbered
  try dsimp only
  repeat' first
    | with_reducible (first | exact hk | assumption | apply Keeps.ite | apply State.nextOp_keeps | apply State.saveThread_keeps | apply State.homeReq_keeps)
    | fail_if_no_progress with_reducible apply Keeps.mk_upd
    | (intro _ _ _; try dsimp only)
    | intro _
    | split

theorem State.coreLead_keeps {z s : State} (c : Nat) (l : List (Nat × Nat)) (hk : Keeps z s) :
    Keeps z (s.coreLead c l) := by
  unfold State.coreLead
  try dsimp only
  repeat' first
    | with_reducible (first | exact hk | assumption | apply Keeps.ite | apply State.setCore_keeps | apply Keeps.foldl | apply Keeps.foldl_fst | apply Keeps.foldl_snd)
    | fail_if_no_progress with_reducible apply Keeps.mk_upd
    | (intro _ _ _; try dsimp only)
    | intro _
    | split

theorem State.ownWrite_keeps {z s : State} (c a : Nat) (d : List Byte) (hk : Keeps z s) :
    Keeps z (s.ownWrite c a d) := by
  unfold State.ownWrite
  try dsimp only
  repeat' first
    | with_reducible (first | exact hk | assumption | apply Keeps.ite | apply State.setBytes_keeps | apply State.cleanse_keeps)
    | fail_if_no_progress with_reducible apply Keeps.mk_upd
    | (intro _ _ _; try dsimp only)
    | intro _
    | split

theorem State.coreAtom_keeps {z s : State} (c : Nat) (op : AtomOp) (a size x y : Nat) (hk : Keeps z s) :
    Keeps z (s.coreAtom c op a size x y) := by
  unfold State.coreAtom
  try dsimp only
  repeat' first
    | with_reducible (first | exact hk | assumption | apply Keeps.ite | apply State.answer_keeps | apply State.ownWrite_keeps)
    | fail_if_no_progress with_reducible apply Keeps.mk_upd
    | (intro _ _ _; try dsimp only)
    | intro _
    | split

theorem State.atomicReq_keeps {z s : State} (h : Nat) (r : Requester) (lead : List (Nat × Nat)) (op : AtomOp) (a age ecc size x y : Nat) (hk : Keeps z s) :
    Keeps z (s.atomicReq h r lead op a age ecc size x y) := by
  unfold State.atomicReq
  try dsimp only
  apply Keeps.ite
  · exact hk
  cases r <;> try dsimp only
  repeat' first
    | with_reducible (first | exact hk | assumption | apply Keeps.ite | apply State.answer_keeps | apply State.homeReq_keeps | apply State.tileAtom_keeps | apply State.numbered_keeps | apply State.coreLead_keeps | apply State.coreAtom_keeps)
    | fail_if_no_progress with_reducible apply Keeps.mk_upd
    | (intro _ _ _; try dsimp only)
    | intro _
    | split

theorem State.lrReq_keeps {z s : State} (h : Nat) (r : Requester) (lead : List (Nat × Nat)) (a age ecc size : Nat) (hk : Keeps z s) :
    Keeps z (s.lrReq h r lead a age ecc size) := by
  unfold State.lrReq
  try dsimp only
  repeat' first
    | with_reducible (first | exact hk | assumption | apply Keeps.ite | apply State.tileAtom_keeps | apply State.homeReq_keeps | apply State.coreLead_keeps | apply State.answer_keeps)
    | fail_if_no_progress with_reducible apply Keeps.mk_upd
    | (intro _ _ _; try dsimp only)
    | intro _
    | split

theorem State.scReq_keeps {z s : State} (h : Nat) (r : Requester) (lead : List (Nat × Nat)) (a age ecc size v : Nat) (hk : Keeps z s) :
    Keeps z (s.scReq h r lead a age ecc size v) := by
  unfold State.scReq
  try dsimp only
  repeat' first
    | with_reducible (first | exact hk | assumption | apply Keeps.ite | apply State.tileAtom_keeps | apply State.numbered_keeps | apply State.coreLead_keeps | apply State.answer_keeps | apply State.ownWrite_keeps)
    | fail_if_no_progress with_reducible apply Keeps.mk_upd
    | (intro _ _ _; try dsimp only)
    | intro _
    | split

theorem State.dropWays_keeps {z s : State} (k : Nat) (ag : List Nat) (hk : Keeps z s) :
    Keeps z (s.dropWays k ag) := by
  unfold State.dropWays
  try dsimp only
  repeat' first
    | with_reducible (first | exact hk | assumption | apply Keeps.ite | apply Keeps.foldl | apply Keeps.foldl_fst | apply Keeps.foldl_snd)
    | fail_if_no_progress with_reducible apply Keeps.mk_upd
    | (intro _ _ _; try dsimp only)
    | intro _
    | split

end Sys2Proof.Machine
end

