-- ==== Sys2Proof/Laws/KeepsHif.lean ====
section
/-! SUPPORT. What the operations of Machine/Hif.lean keep (Laws/Keeps.lean). -/

namespace Sys2Proof.Machine

set_option linter.unusedTactic false
set_option linter.unreachableTactic false

theorem State.setHq_keeps {z s : State} (n : Nat) (c : Hq) (hk : Keeps z s) :
    Keeps z (s.setHq n c) := by
  unfold State.setHq
  try dsimp only
  repeat' first
    | with_reducible (first | exact hk | assumption | apply Keeps.ite)
    | fail_if_no_progress with_reducible apply Keeps.mk_upd
    | (intro _ _ _; try dsimp only)
    | intro _
    | split

theorem State.modHq_keeps {z s : State} (n : Nat) (f : Hq → Hq) (hk : Keeps z s) :
    Keeps z (s.modHq n f) := by
  unfold State.modHq
  try dsimp only
  repeat' first
    | with_reducible (first | exact hk | assumption | apply Keeps.ite | apply State.setHq_keeps)
    | fail_if_no_progress with_reducible apply Keeps.mk_upd
    | (intro _ _ _; try dsimp only)
    | intro _
    | split

theorem State.irqSend_keeps {z s : State} (n : Nat) (hk : Keeps z s) :
    Keeps z (s.irqSend n) := by
  unfold State.irqSend
  try dsimp only
  repeat' first
    | with_reducible (first | exact hk | assumption | apply Keeps.ite | apply State.signal_keeps)
    | fail_if_no_progress with_reducible apply Keeps.mk_upd
    | (intro _ _ _; try dsimp only)
    | intro _
    | split

theorem State.irqCheck_keeps {z s : State} (n : Nat) (hk : Keeps z s) :
    Keeps z (s.irqCheck n) := by
  unfold State.irqCheck
  try dsimp only
  repeat' first
    | with_reducible (first | exact hk | assumption | apply Keeps.ite | apply State.setHq_keeps | apply State.irqSend_keeps)
    | fail_if_no_progress with_reducible apply Keeps.mk_upd
    | (intro _ _ _; try dsimp only)
    | intro _
    | split

theorem State.irqTimer_keeps {z s : State} (n : Nat) (hk : Keeps z s) :
    Keeps z (s.irqTimer n) := by
  unfold State.irqTimer
  try dsimp only
  repeat' first
    | with_reducible (first | exact hk | assumption | apply Keeps.ite | apply State.setHq_keeps | apply State.irqSend_keeps)
    | fail_if_no_progress with_reducible apply Keeps.mk_upd
    | (intro _ _ _; try dsimp only)
    | intro _
    | split

theorem State.qpError_keeps {z s : State} (n code slot : Nat) (hk : Keeps z s) :
    Keeps z (s.qpError n code slot) := by
  unfold State.qpError
  try dsimp only
  repeat' first
    | with_reducible (first | exact hk | assumption | apply Keeps.ite | apply State.setFld_keeps | apply State.setReg_keeps | apply State.irqSend_keeps)
    | fail_if_no_progress with_reducible apply Keeps.mk_upd
    | (intro _ _ _; try dsimp only)
    | intro _
    | split

theorem State.cqWrite_keeps {z s : State} (n seq result cid status kind : Nat) (hk : Keeps z s) :
    Keeps z (s.cqWrite n seq result cid status kind) := by
  unfold State.cqWrite
  try dsimp only
  repeat' first
    | with_reducible (first | exact hk | assumption | apply Keeps.ite | apply State.send_keeps | apply State.wr_keeps | apply State.setHq_keeps)
    | fail_if_no_progress with_reducible apply Keeps.mk_upd
    | (intro _ _ _; try dsimp only)
    | intro _
    | split

theorem State.cqLost_keeps {z s : State} (n : Nat) (hk : Keeps z s) :
    Keeps z (s.cqLost n) := by
  unfold State.cqLost
  try dsimp only
  repeat' first
    | with_reducible (first | exact hk | assumption | apply Keeps.ite | apply State.qpError_keeps)
    | fail_if_no_progress with_reducible apply Keeps.mk_upd
    | (intro _ _ _; try dsimp only)
    | intro _
    | split

theorem State.refuseEntry_keeps {z s : State} (n cid st : Nat) (cqOk : Bool) (hk : Keeps z s) :
    Keeps z (s.refuseEntry n cid st cqOk) := by
  unfold State.refuseEntry
  try dsimp only
  repeat' first
    | with_reducible (first | exact hk | assumption | apply Keeps.ite | apply State.modHq_keeps | apply State.cqLost_keeps | apply State.cqWrite_keeps | apply State.irqSend_keeps)
    | fail_if_no_progress with_reducible apply Keeps.mk_upd
    | (intro _ _ _; try dsimp only)
    | intro _
    | split

theorem State.jWrite_keeps {z s : State} (k n : Nat) (c : Cmd) (st : Nat) (hk : Keeps z s) :
    Keeps z (s.jWrite k n c st) := by
  unfold State.jWrite
  try dsimp only
  repeat' first
    | with_reducible (first | exact hk | assumption | apply Keeps.ite | apply State.wr_keeps)
    | fail_if_no_progress with_reducible apply Keeps.mk_upd
    | (intro _ _ _; try dsimp only)
    | intro _
    | split

theorem State.jOldest_keeps {z s : State} (k : Nat) (hk : Keeps z s) :
    Keeps z (s.jOldest k) := by
  unfold State.jOldest
  try dsimp only
  repeat' first
    | with_reducible (first | exact hk | assumption | apply Keeps.ite | apply State.setFld_keeps | apply Keeps.foldl | apply Keeps.foldl_fst | apply Keeps.foldl_snd)
    | fail_if_no_progress with_reducible apply Keeps.mk_upd
    | (intro _ _ _; try dsimp only)
    | intro _
    | split

theorem State.endEpoch_keeps {z s : State} (k cause : Nat) (hk : Keeps z s) :
    Keeps z (s.endEpoch k cause) := by
  unfold State.endEpoch
  try dsimp only
  repeat' first
    | with_reducible (first | exact hk | assumption | apply Keeps.ite | apply State.setFld_keeps | apply State.setReg_keeps | apply State.forAll_keeps | apply State.modHq_keeps | apply State.stakeEvent_keeps)
    | fail_if_no_progress with_reducible apply Keeps.mk_upd
    | (intro _ _ _; try dsimp only)
    | intro _
    | split

theorem State.zero_keeps {z s : State} (a n : Nat) (hk : Keeps z s) : Keeps z (s.zero a n) :=
  State.touch_keeps _ _ _ (State.cleanse_keeps _ _ (hk.trans ⟨rfl, le_refl _, ⟨[], by simp⟩, id, Keeps.clear a (a + n), .refl _⟩))

theorem State.openEpoch_keeps {z s : State} (k : Nat) (hk : Keeps z s) :
    Keeps z (s.openEpoch k) := by
  unfold State.openEpoch
  try dsimp only
  repeat' first
    | with_reducible (first | exact hk | assumption | apply Keeps.ite | apply State.zero_keeps | apply State.wr_keeps | apply State.setReg_keeps | apply State.setFld_keeps)
    | fail_if_no_progress with_reducible apply Keeps.mk_upd
    | (intro _ _ _; try dsimp only)
    | intro _
    | split

theorem State.syncHead_keeps {z s : State} (n : Nat) (hk : Keeps z s) :
    Keeps z (s.syncHead n) := by
  unfold State.syncHead
  try dsimp only
  repeat' first
    | with_reducible (first | exact hk | assumption | apply Keeps.ite | apply State.setFld_keeps)
    | fail_if_no_progress with_reducible apply Keeps.mk_upd
    | (intro _ _ _; try dsimp only)
    | intro _
    | split

theorem State.takeEntry_keeps {z s : State} (n : Nat) (e : List Byte) (cqOk : Bool) (hk : Keeps z s) :
    Keeps z (s.takeEntry n e cqOk) := by
  unfold State.takeEntry
  try dsimp only
  repeat' first
    | with_reducible (first | exact hk | assumption | apply Keeps.ite | apply State.modHq_keeps | apply State.syncHead_keeps | apply State.refuseEntry_keeps)
    | fail_if_no_progress with_reducible apply Keeps.mk_upd
    | (intro _ _ _; try dsimp only)
    | intro _
    | split

theorem State.sqFetch_keeps {z s : State} (n : Nat) (host : Option (List Byte)) (cqOk : Bool) (hk : Keeps z s) :
    Keeps z (s.sqFetch n host cqOk) := by
  unfold State.sqFetch
  try dsimp only
  repeat' first
    | with_reducible (first | exact hk | assumption | apply Keeps.ite | apply State.qpError_keeps | apply State.takeEntry_keeps | apply State.setHq_keeps)
    | fail_if_no_progress with_reducible apply Keeps.mk_upd
    | (intro _ _ _; try dsimp only)
    | intro _
    | split

theorem State.sqRefetch_keeps {z s : State} (n : Nat) (host : Option (List Byte)) (cqOk : Bool) (hk : Keeps z s) :
    Keeps z (s.sqRefetch n host cqOk) := by
  unfold State.sqRefetch
  try dsimp only
  repeat' first
    | with_reducible (first | exact hk | assumption | apply Keeps.ite | apply State.addSat_keeps | apply State.setHq_keeps | apply State.qpError_keeps | apply State.takeEntry_keeps)
    | fail_if_no_progress with_reducible apply Keeps.mk_upd
    | (intro _ _ _; try dsimp only)
    | intro _
    | split

theorem State.putCmd_keeps {z s : State} (n : Nat) (c : Cmd) (hk : Keeps z s) :
    Keeps z (s.putCmd n c) := by
  unfold State.putCmd
  try dsimp only
  repeat' first
    | with_reducible (first | exact hk | assumption | apply Keeps.ite | apply State.modHq_keeps)
    | fail_if_no_progress with_reducible apply Keeps.mk_upd
    | (intro _ _ _; try dsimp only)
    | intro _
    | split

theorem State.ackCmd_keeps {z s : State} (k n : Nat) (c : Cmd) (cqOk : Bool) (hk : Keeps z s) :
    Keeps z (s.ackCmd k n c cqOk) := by
  unfold State.ackCmd
  try dsimp only
  repeat' first
    | with_reducible (first | exact hk | assumption | apply Keeps.ite | apply State.cqLost_keeps | apply State.cqWrite_keeps | apply State.putCmd_keeps | apply State.jWrite_keeps)
    | fail_if_no_progress with_reducible apply Keeps.mk_upd
    | (intro _ _ _; try dsimp only)
    | intro _
    | split

theorem State.acceptCmd_keeps {z s : State} (k n seq era : Nat) (e : List Byte) (cqOk : Bool) (hk : Keeps z s) :
    Keeps z (s.acceptCmd k n seq era e cqOk) := by
  unfold State.acceptCmd
  try dsimp only
  repeat' first
    | with_reducible (first | exact hk | assumption | apply Keeps.ite | apply State.modHq_keeps | apply State.setFld_keeps | apply State.ackCmd_keeps)
    | fail_if_no_progress with_reducible apply Keeps.mk_upd
    | (intro _ _ _; try dsimp only)
    | intro _
    | split

theorem State.jCommit_keeps {z s : State} (n : Nat) (cqOk : Bool) (hk : Keeps z s) :
    Keeps z (s.jCommit n cqOk) := by
  unfold State.jCommit
  try dsimp only
  repeat' first
    | with_reducible (first | exact hk | assumption | apply Keeps.ite | apply State.endEpoch_keeps | apply State.setFld_keeps | apply State.wr_keeps | apply State.jWrite_keeps | apply State.acceptCmd_keeps | apply State.jOldest_keeps)
    | fail_if_no_progress with_reducible apply Keeps.mk_upd
    | (intro _ _ _; try dsimp only)
    | intro _
    | split

theorem State.afterReplay_keeps {z s : State} (k : Nat) (hk : Keeps z s) :
    Keeps z (s.afterReplay k) := by
  unfold State.afterReplay
  try dsimp only
  repeat' first
    | with_reducible (first | exact hk | assumption | apply Keeps.ite | apply State.noResume_keeps | apply State.psqResume_keeps | apply State.asuRebuild_keeps | apply State.setFld_keeps)
    | fail_if_no_progress with_reducible apply Keeps.mk_upd
    | (intro _ _ _; try dsimp only)
    | intro _
    | split

theorem State.finishCmd_keeps {z s : State} (n : Nat) (c : Cmd) (status result : Nat) (hk : Keeps z s) :
    Keeps z (s.finishCmd n c status result) := by
  unfold State.finishCmd
  try dsimp only
  repeat' first
    | with_reducible (first | exact hk | assumption | apply Keeps.ite | apply State.putCmd_keeps | apply State.modHq_keeps | apply State.jWrite_keeps | apply State.afterReplay_keeps)
    | fail_if_no_progress with_reducible apply Keeps.mk_upd
    | (intro _ _ _; try dsimp only)
    | intro _
    | split

theorem State.hifNop_keeps {z s : State} (n : Nat) (hk : Keeps z s) :
    Keeps z (s.hifNop n) := by
  unfold State.hifNop
  try dsimp only
  repeat' first
    | with_reducible (first | exact hk | assumption | apply Keeps.ite | apply State.finishCmd_keeps)
    | fail_if_no_progress with_reducible apply Keeps.mk_upd
    | (intro _ _ _; try dsimp only)
    | intro _
    | split

theorem State.hifWrite_keeps {z s : State} (n : Nat) (hk : Keeps z s) :
    Keeps z (s.hifWrite n) := by
  unfold State.hifWrite
  try dsimp only
  repeat' first
    | with_reducible (first | exact hk | assumption | apply Keeps.ite | apply State.putCmd_keeps | apply State.jWrite_keeps | apply State.wr_keeps | apply State.finishCmd_keeps)
    | fail_if_no_progress with_reducible apply Keeps.mk_upd
    | (intro _ _ _; try dsimp only)
    | intro _
    | split

theorem State.copyIn_keeps {z s : State} (src dst : Nat) (b : List Byte) (poisoned : Bool) (hk : Keeps z s) :
    Keeps z (s.copyIn src dst b poisoned) := by
  unfold State.copyIn
  try dsimp only
  repeat' first
    | with_reducible (first | exact hk | assumption | apply Keeps.ite | apply State.forAll_keeps | apply State.wrPoison_keeps | apply State.wr_keeps)
    | fail_if_no_progress with_reducible apply Keeps.mk_upd
    | (intro _ _ _; try dsimp only)
    | intro _
    | split

theorem State.copyOut_keeps {z s : State} (src dst : Nat) (b : List Byte) (poisoned : Bool) (hk : Keeps z s) :
    Keeps z (s.copyOut src dst b poisoned) := by
  unfold State.copyOut
  try dsimp only
  repeat' first
    | with_reducible (first | exact hk | assumption | apply Keeps.ite | apply State.forAll_keeps | apply State.send_keeps)
    | fail_if_no_progress with_reducible apply Keeps.mk_upd
    | (intro _ _ _; try dsimp only)
    | intro _
    | split

theorem State.copyStep_keeps {z s : State} (n : Nat) (host : Option (List Byte)) (poisoned hostOk : Bool) (hk : Keeps z s) :
    Keeps z (s.copyStep n host poisoned hostOk) := by
  unfold State.copyStep
  try dsimp only
  repeat' first
    | with_reducible (first | exact hk | assumption | apply Keeps.ite | apply State.finishCmd_keeps | apply State.copyOut_keeps | apply State.copyIn_keeps | apply State.putCmd_keeps | apply State.jWrite_keeps)
    | fail_if_no_progress with_reducible apply Keeps.mk_upd
    | (intro _ _ _; try dsimp only)
    | intro _
    | split

theorem State.hifLimit_keeps {z s : State} (n : Nat) (hk : Keeps z s) :
    Keeps z (s.hifLimit n) := by
  unfold State.hifLimit
  try dsimp only
  repeat' first
    | with_reducible (first | exact hk | assumption | apply Keeps.ite | apply State.setLimit_keeps | apply State.finishCmd_keeps)
    | fail_if_no_progress with_reducible apply Keeps.mk_upd
    | (intro _ _ _; try dsimp only)
    | intro _
    | split

theorem State.hifPost_keeps {z s : State} (n : Nat) (hk : Keeps z s) :
    Keeps z (s.hifPost n) := by
  unfold State.hifPost
  try dsimp only
  repeat' first
    | with_reducible (first | exact hk | assumption | apply Keeps.ite | apply State.extPost_keeps | apply State.finishCmd_keeps)
    | fail_if_no_progress with_reducible apply Keeps.mk_upd
    | (intro _ _ _; try dsimp only)
    | intro _
    | split

theorem State.hifCmd_keeps {z s : State} (n : Nat) (hk : Keeps z s) :
    Keeps z (s.hifCmd n) := by
  unfold State.hifCmd
  try dsimp only
  repeat' first
    | with_reducible (first | exact hk | assumption | apply Keeps.ite | apply State.noResume_keeps | apply State.accept_keeps | apply State.setFld_keeps | apply State.finishCmd_keeps | apply State.psqDo_keeps)
    | fail_if_no_progress with_reducible apply Keeps.mk_upd
    | (intro _ _ _; try dsimp only)
    | intro _
    | split

theorem State.hifPool_keeps {z s : State} (n : Nat) (cqOk : Bool) (hk : Keeps z s) : Keeps z (s.hifPool n cqOk) := by
  unfold State.hifPool
  split
  · exact hk
  · refine Keeps.ite hk (State.acceptCmd_keeps _ _ _ _ _ _ (State.modEvent_keeps _ (State.wrN_keeps _ _ _ ?_)))
    exact Keeps.mk_upd (State.wr_keeps _ _ hk) ..

theorem State.poolDone_keeps {z s : State} (n cid status : Nat) (hk : Keeps z s) :
    Keeps z (s.poolDone n cid status) := by
  unfold State.poolDone
  try dsimp only
  repeat' first
    | with_reducible (first | exact hk | assumption | apply Keeps.ite | apply State.finishCmd_keeps)
    | fail_if_no_progress with_reducible apply Keeps.mk_upd
    | (intro _ _ _; try dsimp only)
    | intro _
    | split

theorem State.deleteDone_keeps {z s : State} (n : Nat) (hk : Keeps z s) :
    Keeps z (s.deleteDone n) := by
  unfold State.deleteDone
  try dsimp only
  repeat' first
    | with_reducible (first | exact hk | assumption | apply Keeps.ite | apply State.setHq_keeps | apply State.setFld_keeps)
    | fail_if_no_progress with_reducible apply Keeps.mk_upd
    | (intro _ _ _; try dsimp only)
    | intro _
    | split

theorem State.cmdComplete_keeps {z s : State} (n : Nat) (cqOk : Bool) (hk : Keeps z s) :
    Keeps z (s.cmdComplete n cqOk) := by
  unfold State.cmdComplete
  try dsimp only
  repeat' first
    | with_reducible (first | exact hk | assumption | apply Keeps.ite | apply State.cqLost_keeps | apply State.cqWrite_keeps | apply State.modHq_keeps | apply State.jWrite_keeps | apply State.jOldest_keeps | apply State.irqCheck_keeps | apply State.deleteDone_keeps)
    | fail_if_no_progress with_reducible apply Keeps.mk_upd
    | (intro _ _ _; try dsimp only)
    | intro _
    | split

theorem State.dbDrop_keeps {z s : State} (hk : Keeps z s) :
    Keeps z s.dbDrop := by
  unfold State.dbDrop
  try dsimp only
  repeat' first
    | with_reducible (first | exact hk | assumption | apply Keeps.ite | apply State.addSat_keeps)
    | fail_if_no_progress with_reducible apply Keeps.mk_upd
    | (intro _ _ _; try dsimp only)
    | intro _
    | split

theorem State.dbSq_keeps {z s : State} (m : Master) (n tail gen : Nat) (hk : Keeps z s) :
    Keeps z (s.dbSq m n tail gen) := by
  unfold State.dbSq
  try dsimp only
  repeat' first
    | with_reducible (first | exact hk | assumption | apply Keeps.ite | apply State.dbDrop_keeps | apply State.setHq_keeps | apply State.setFld_keeps | apply State.addSat_keeps | apply State.qpError_keeps)
    | fail_if_no_progress with_reducible apply Keeps.mk_upd
    | (intro _ _ _; try dsimp only)
    | intro _
    | split

theorem State.dbCq_keeps {z s : State} (m : Master) (n head : Nat) (hk : Keeps z s) :
    Keeps z (s.dbCq m n head) := by
  unfold State.dbCq
  try dsimp only
  repeat' first
    | with_reducible (first | exact hk | assumption | apply Keeps.ite | apply State.dbDrop_keeps | apply State.setHq_keeps | apply State.irqCheck_keeps)
    | fail_if_no_progress with_reducible apply Keeps.mk_upd
    | (intro _ _ _; try dsimp only)
    | intro _
    | split

theorem State.reportDone_keeps {z s : State} (k n : Nat) (c : Cmd) (hk : Keeps z s) :
    Keeps z (s.reportDone k n c) := by
  unfold State.reportDone
  try dsimp only
  repeat' first
    | with_reducible (first | exact hk | assumption | apply Keeps.ite | apply State.cqWrite_keeps | apply State.modHq_keeps | apply State.jWrite_keeps | apply State.jOldest_keeps)
    | fail_if_no_progress with_reducible apply Keeps.mk_upd
    | (intro _ _ _; try dsimp only)
    | intro _
    | split

theorem State.reportLeft_keeps {z s : State} (n : Nat) (hk : Keeps z s) :
    Keeps z (s.reportLeft n) := by
  unfold State.reportLeft
  try dsimp only
  repeat' first
    | with_reducible (first | exact hk | assumption | apply Keeps.ite | apply State.modHq_keeps | apply State.ackCmd_keeps | apply State.cqLost_keeps | apply State.reportDone_keeps | apply Keeps.foldl | apply Keeps.foldl_fst | apply Keeps.foldl_snd)
    | fail_if_no_progress with_reducible apply Keeps.mk_upd
    | (intro _ _ _; try dsimp only)
    | intro _
    | split

theorem State.qpCreate_keeps {z s : State} (n : Nat) (hk : Keeps z s) :
    Keeps z (s.qpCreate n) := by
  unfold State.qpCreate
  try dsimp only
  repeat' first
    | with_reducible (first | exact hk | assumption | apply Keeps.ite | apply State.setFld_keeps | apply State.setHq_keeps | apply State.setReg_keeps | apply State.reportLeft_keeps | apply State.irqCheck_keeps)
    | fail_if_no_progress with_reducible apply Keeps.mk_upd
    | (intro _ _ _; try dsimp only)
    | intro _
    | split

theorem State.qpDelete_keeps {z s : State} (n : Nat) (hk : Keeps z s) :
    Keeps z (s.qpDelete n) := by
  unfold State.qpDelete
  try dsimp only
  repeat' first
    | with_reducible (first | exact hk | assumption | apply Keeps.ite | apply State.modHq_keeps | apply State.deleteDone_keeps)
    | fail_if_no_progress with_reducible apply Keeps.mk_upd
    | (intro _ _ _; try dsimp only)
    | intro _
    | split

theorem State.qpRestart_keeps {z s : State} (n : Nat) (hk : Keeps z s) :
    Keeps z (s.qpRestart n) := by
  unfold State.qpRestart
  try dsimp only
  repeat' first
    | with_reducible (first | exact hk | assumption | apply Keeps.ite | apply State.setReg_keeps | apply State.setFld_keeps | apply State.modHq_keeps | apply State.refuseEntry_keeps | apply State.ackCmd_keeps | apply Keeps.foldl | apply Keeps.foldl_fst | apply Keeps.foldl_snd)
    | fail_if_no_progress with_reducible apply Keeps.mk_upd
    | (intro _ _ _; try dsimp only)
    | intro _
    | split

theorem State.qpReset_keeps {z s : State} (n : Nat) (hk : Keeps z s) :
    Keeps z (s.qpReset n) := by
  unfold State.qpReset
  try dsimp only
  repeat' first
    | with_reducible (first | exact hk | assumption | apply Keeps.ite | apply State.setHq_keeps | apply State.resetRegs_keeps | apply State.setFld_keeps)
    | fail_if_no_progress with_reducible apply Keeps.mk_upd
    | (intro _ _ _; try dsimp only)
    | intro _
    | split

theorem State.jReplay_keeps {z s : State} (k : Nat) (hk : Keeps z s) :
    Keeps z (s.jReplay k) := by
  unfold State.jReplay
  try dsimp only
  repeat' first
    | with_reducible (first | exact hk | assumption | apply Keeps.ite | apply State.setReg_keeps | apply State.setFld_keeps | apply State.endEpoch_keeps | apply State.modHq_keeps | apply State.forAll_keeps | apply State.jOldest_keeps | apply State.afterReplay_keeps | apply Keeps.foldl | apply Keeps.foldl_fst | apply Keeps.foldl_snd)
    | fail_if_no_progress with_reducible apply Keeps.mk_upd
    | (intro _ _ _; try dsimp only)
    | intro _
    | split

theorem State.ringEnable_keeps {z s : State} (base : Nat) (hk : Keeps z s) :
    Keeps z (s.ringEnable base) := by
  unfold State.ringEnable
  try dsimp only
  repeat' first
    | with_reducible (first | exact hk | assumption | apply Keeps.ite | apply State.setFld_keeps | apply State.wrN_keeps)
    | fail_if_no_progress with_reducible apply Keeps.mk_upd
    | (intro _ _ _; try dsimp only)
    | intro _
    | split

end Sys2Proof.Machine
end

