-- ==== Sys2Proof/Laws/KeepsWeave.lean ====
section
/-! SUPPORT. What the operations of Machine/Weave.lean keep (Laws/Keeps.lean). -/

namespace Sys2Proof.Machine

set_option linter.unusedTactic false
set_option linter.unreachableTactic false

theorem State.extend_keeps {z s : State} (i : Nat) (d : BitVec 384) (hk : Keeps z s) :
    Keeps z (s.extend i d) := by
  unfold State.extend
  try dsimp only
  repeat' first
    | with_reducible (first | exact hk | assumption | apply Keeps.ite)
    | fail_if_no_progress with_reducible apply Keeps.mk_upd
    | (intro _ _ _; try dsimp only)
    | intro _
    | split

theorem State.showCap_keeps {z s : State} (k : Nat) (hk : Keeps z s) :
    Keeps z (s.showCap k) := by
  unfold State.showCap
  try dsimp only
  repeat' first
    | with_reducible (first | exact hk | assumption | apply Keeps.ite | apply State.setReg_keeps | apply State.setFld_keeps)
    | fail_if_no_progress with_reducible apply Keeps.mk_upd
    | (intro _ _ _; try dsimp only)
    | intro _
    | split

theorem State.showWindow_keeps {z s : State} (k : Nat) (hk : Keeps z s) :
    Keeps z (s.showWindow k) := by
  unfold State.showWindow
  try dsimp only
  repeat' first
    | with_reducible (first | exact hk | assumption | apply Keeps.ite | apply State.setReg_keeps | apply State.setFld_keeps | apply State.forAll_keeps)
    | fail_if_no_progress with_reducible apply Keeps.mk_upd
    | (intro _ _ _; try dsimp only)
    | intro _
    | split

theorem State.showStake_keeps {z s : State} (k : Nat) (hk : Keeps z s) :
    Keeps z (s.showStake k) := by
  unfold State.showStake
  try dsimp only
  repeat' first
    | with_reducible (first | exact hk | assumption | apply Keeps.ite | apply State.showWindow_keeps | apply State.showCap_keeps | apply State.setFld_keeps | apply State.setFldBit_keeps | apply State.forAll_keeps)
    | fail_if_no_progress with_reducible apply Keeps.mk_upd
    | (intro _ _ _; try dsimp only)
    | intro _
    | split

theorem State.showQueue_keeps {z s : State} (n : Nat) (hk : Keeps z s) :
    Keeps z (s.showQueue n) := by
  unfold State.showQueue
  try dsimp only
  repeat' first
    | with_reducible (first | exact hk | assumption | apply Keeps.ite | apply State.setFld_keeps)
    | fail_if_no_progress with_reducible apply Keeps.mk_upd
    | (intro _ _ _; try dsimp only)
    | intro _
    | split

theorem State.showWeave_keeps {z s : State} (hk : Keeps z s) :
    Keeps z s.showWeave := by
  unfold State.showWeave
  try dsimp only
  repeat' first
    | with_reducible (first | exact hk | assumption | apply Keeps.ite | apply State.forAll_keeps | apply State.showStake_keeps | apply State.showQueue_keeps)
    | fail_if_no_progress with_reducible apply Keeps.mk_upd
    | (intro _ _ _; try dsimp only)
    | intro _
    | split

theorem State.showEng_keeps {z s : State} (e : Nat) (hk : Keeps z s) :
    Keeps z (s.showEng e) := by
  unfold State.showEng
  try dsimp only
  repeat' first
    | with_reducible (first | exact hk | assumption | apply Keeps.ite | apply State.setFld_keeps)
    | fail_if_no_progress with_reducible apply Keeps.mk_upd
    | (intro _ _ _; try dsimp only)
    | intro _
    | split

theorem State.showPvu_keeps {z s : State} (v : Nat) (hk : Keeps z s) :
    Keeps z (s.showPvu v) := by
  unfold State.showPvu
  try dsimp only
  repeat' first
    | with_reducible (first | exact hk | assumption | apply Keeps.ite | apply State.setFld_keeps)
    | fail_if_no_progress with_reducible apply Keeps.mk_upd
    | (intro _ _ _; try dsimp only)
    | intro _
    | split

theorem State.showQuay_keeps {z s : State} (q : Nat) (hk : Keeps z s) :
    Keeps z (s.showQuay q) := by
  unfold State.showQuay
  try dsimp only
  repeat' first
    | with_reducible (first | exact hk | assumption | apply Keeps.ite | apply State.setFld_keeps)
    | fail_if_no_progress with_reducible apply Keeps.mk_upd
    | (intro _ _ _; try dsimp only)
    | intro _
    | split

theorem State.showUnits_keeps {z s : State} (eng pvu : Nat) (hk : Keeps z s) :
    Keeps z (s.showUnits eng pvu) := by
  unfold State.showUnits
  try dsimp only
  repeat' first
    | with_reducible (first | exact hk | assumption | apply Keeps.ite | apply State.forAll_keeps | apply State.showEng_keeps | apply State.showPvu_keeps | apply State.showQuay_keeps)
    | fail_if_no_progress with_reducible apply Keeps.mk_upd
    | (intro _ _ _; try dsimp only)
    | intro _
    | split

theorem State.wakeIslands_keeps {z s : State} (n : Nat) (hk : Keeps z s) :
    Keeps z (s.wakeIslands n) := by
  unfold State.wakeIslands
  try dsimp only
  repeat' first
    | with_reducible (first | exact hk | assumption | apply Keeps.ite | apply State.forAll_keeps | apply State.setFld_keeps)
    | fail_if_no_progress with_reducible apply Keeps.mk_upd
    | (intro _ _ _; try dsimp only)
    | intro _
    | split

theorem State.turnIsland_keeps {z s : State} (i : Nat) (hk : Keeps z s) :
    Keeps z (s.turnIsland i) := by
  unfold State.turnIsland
  try dsimp only
  repeat' first
    | with_reducible (first | exact hk | assumption | apply Keeps.ite | apply State.setFld_keeps)
    | fail_if_no_progress with_reducible apply Keeps.mk_upd
    | (intro _ _ _; try dsimp only)
    | intro _
    | split

theorem State.formStake_keeps {z s : State} (k : Nat) (hk : Keeps z s) :
    Keeps z (s.formStake k) := by
  unfold State.formStake
  try dsimp only
  repeat' first
    | with_reducible (first | exact hk | assumption | apply Keeps.ite | apply State.setPst_keeps | apply State.openEpoch_keeps)
    | fail_if_no_progress with_reducible apply Keeps.mk_upd
    | (intro _ _ _; try dsimp only)
    | intro _
    | split

theorem State.releaseUnits_keeps {z s : State} (hk : Keeps z s) :
    Keeps z s.releaseUnits := by
  unfold State.releaseUnits
  try dsimp only
  repeat' first
    | with_reducible (first | exact hk | assumption | apply Keeps.ite | apply State.setFld_keeps | apply State.wakeIslands_keeps | apply State.showUnits_keeps)
    | fail_if_no_progress with_reducible apply Keeps.mk_upd
    | (intro _ _ _; try dsimp only)
    | intro _
    | split

theorem State.wvError_keeps {z s : State} (e : ImgErr) (partly : Bool) (hk : Keeps z s) :
    Keeps z (s.wvError e partly) := by
  unfold State.wvError
  try dsimp only
  repeat' first
    | with_reducible (first | exact hk | assumption | apply Keeps.ite | apply State.setReg_keeps | apply State.setFld_keeps)
    | fail_if_no_progress with_reducible apply Keeps.mk_upd
    | (intro _ _ _; try dsimp only)
    | intro _
    | split

theorem State.showDigest_keeps {z s : State} (d : BitVec 384) (hk : Keeps z s) :
    Keeps z (s.showDigest d) := by
  unfold State.showDigest
  try dsimp only
  repeat' first
    | with_reducible (first | exact hk | assumption | apply Keeps.ite | apply State.forAll_keeps | apply State.setReg_keeps)
    | fail_if_no_progress with_reducible apply Keeps.mk_upd
    | (intro _ _ _; try dsimp only)
    | intro _
    | split

theorem State.showPrev_keeps {z s : State} (hk : Keeps z s) :
    Keeps z s.showPrev := by
  unfold State.showPrev
  try dsimp only
  repeat' first
    | with_reducible (first | exact hk | assumption | apply Keeps.ite | apply State.forAll_keeps | apply State.setReg_keeps | apply State.setFld_keeps)
    | fail_if_no_progress with_reducible apply Keeps.mk_upd
    | (intro _ _ _; try dsimp only)
    | intro _
    | split

theorem State.applyFull_keeps {z s : State} (b : List Byte) (src : Nat) (hk : Keeps z s) :
    Keeps z (s.applyFull b src) := by
  unfold State.applyFull
  try dsimp only
  repeat' first
    | with_reducible (first | exact hk | assumption | apply Keeps.ite | apply State.showWeave_keeps | apply State.releaseUnits_keeps | apply State.showPrev_keeps | apply State.forAll_keeps | apply State.formStake_keeps | apply State.setReg_keeps | apply State.setFld_keeps | apply State.showDigest_keeps | apply State.extend_keeps)
    | fail_if_no_progress with_reducible apply Keeps.mk_upd
    | (intro _ _ _; try dsimp only)
    | intro _
    | split

theorem State.weaveFailed_keeps {z s : State} (hk : Keeps z s) :
    Keeps z s.weaveFailed := by
  unfold State.weaveFailed
  try dsimp only
  repeat' first
    | with_reducible (first | exact hk | assumption | apply Keeps.ite | apply State.setFld_keeps)
    | fail_if_no_progress with_reducible apply Keeps.mk_upd
    | (intro _ _ _; try dsimp only)
    | intro _
    | split

theorem State.tryImage_keeps {z s : State} (img : Option (List Byte)) (given : Option Nat) (sigOk : Bool) (src : Nat) (hk : Keeps z s) :
    Keeps z (s.tryImage img given sigOk src).2 := by
  unfold State.tryImage
  try dsimp only
  repeat' first
    | with_reducible (first | exact hk | assumption | apply Keeps.ite | apply State.wvError_keeps | apply State.applyFull_keeps)
    | fail_if_no_progress with_reducible apply Keeps.mk_upd
    | (intro _ _ _; try dsimp only)
    | intro _
    | split

theorem State.holdUnits_keeps {z s : State} (hk : Keeps z s) :
    Keeps z s.holdUnits := by
  unfold State.holdUnits
  try dsimp only
  repeat' first
    | with_reducible (first | exact hk | assumption | apply Keeps.ite | apply State.forAll_keeps | apply State.setFld_keeps | apply State.braceThreads_keeps)
    | fail_if_no_progress with_reducible apply Keeps.mk_upd
    | (intro _ _ _; try dsimp only)
    | intro _
    | split

theorem State.weaveBoot_keeps {z s : State} (sigA sigB : Bool) (hk : Keeps z s) :
    Keeps z (s.weaveBoot sigA sigB) := by
  unfold State.weaveBoot
  try dsimp only
  repeat' first
    | with_reducible (first | exact hk | assumption | apply Keeps.ite | apply State.tryImage_keeps | apply State.holdUnits_keeps | apply State.weaveFailed_keeps | apply State.setFld_keeps)
    | fail_if_no_progress with_reducible apply Keeps.mk_upd
    | (intro _ _ _; try dsimp only)
    | intro _
    | split

theorem State.partEnd_keeps {z s : State} (outcome : Nat) (hk : Keeps z s) :
    Keeps z (s.partEnd outcome) := by
  unfold State.partEnd
  try dsimp only
  repeat' first
    | with_reducible (first | exact hk | assumption | apply Keeps.ite | apply State.setFld_keeps)
    | fail_if_no_progress with_reducible apply Keeps.mk_upd
    | (intro _ _ _; try dsimp only)
    | intro _
    | split

theorem State.partCheck_keeps {z s : State} (k : Nat) (sigOk : Bool) (hk : Keeps z s) :
    Keeps z (s.partCheck k sigOk) := by
  unfold State.partCheck
  try dsimp only
  repeat' first
    | with_reducible (first | exact hk | assumption | apply Keeps.ite | apply State.wvError_keeps | apply State.partEnd_keeps)
    | fail_if_no_progress with_reducible apply Keeps.mk_upd
    | (intro _ _ _; try dsimp only)
    | intro _
    | split

theorem State.partStart_keeps {z s : State} (k : Nat) (sigOk : Bool) (hk : Keeps z s) :
    Keeps z (s.partStart k sigOk) := by
  unfold State.partStart
  try dsimp only
  repeat' first
    | with_reducible (first | exact hk | assumption | apply Keeps.ite | apply State.setFld_keeps | apply State.partCheck_keeps)
    | fail_if_no_progress with_reducible apply Keeps.mk_upd
    | (intro _ _ _; try dsimp only)
    | intro _
    | split

theorem State.partQuiesce_keeps {z s : State} (hk : Keeps z s) :
    Keeps z s.partQuiesce := by
  unfold State.partQuiesce
  try dsimp only
  repeat' first
    | with_reducible (first | exact hk | assumption | apply Keeps.ite | apply State.setFld_keeps | apply State.beginStop_keeps)
    | fail_if_no_progress with_reducible apply Keeps.mk_upd
    | (intro _ _ _; try dsimp only)
    | intro _
    | split

theorem State.partAbandon_keeps {z s : State} (code : Nat) (hk : Keeps z s) :
    Keeps z (s.partAbandon code) := by
  unfold State.partAbandon
  try dsimp only
  repeat' first
    | with_reducible (first | exact hk | assumption | apply Keeps.ite | apply State.wvError_keeps | apply State.partEnd_keeps | apply State.setFld_keeps | apply State.autoResume_keeps | apply State.stakeEvent_keeps)
    | fail_if_no_progress with_reducible apply Keeps.mk_upd
    | (intro _ _ _; try dsimp only)
    | intro _
    | split

theorem State.psqClear_keeps {z s : State} (k : Nat) (hk : Keeps z s) :
    Keeps z (s.psqClear k) := by
  unfold State.psqClear
  try dsimp only
  repeat' first
    | with_reducible (first | exact hk | assumption | apply Keeps.ite | apply State.setQ_keeps | apply State.resetRegs_keeps | apply State.setFld_keeps)
    | fail_if_no_progress with_reducible apply Keeps.mk_upd
    | (intro _ _ _; try dsimp only)
    | intro _
    | split

theorem State.loseSpads_keeps {z s : State} (eng : Nat) (hk : Keeps z s) :
    Keeps z (s.loseSpads eng) := by
  unfold State.loseSpads
  try dsimp only
  repeat' first
    | with_reducible (first | exact hk | assumption | apply Keeps.ite | apply State.forAll_keeps | apply State.lose_keeps)
    | fail_if_no_progress with_reducible apply Keeps.mk_upd
    | (intro _ _ _; try dsimp only)
    | intro _
    | split

theorem State.takeUnits_keeps {z s : State} (old new : StakeRec) (hk : Keeps z s) :
    Keeps z (s.takeUnits old new) := by
  unfold State.takeUnits
  try dsimp only
  repeat' first
    | with_reducible (first | exact hk | assumption | apply Keeps.ite | apply State.haltThreads_keeps | apply State.loseSpads_keeps | apply State.forAll_keeps | apply State.setPv_keeps)
    | fail_if_no_progress with_reducible apply Keeps.mk_upd
    | (intro _ _ _; try dsimp only)
    | intro _
    | split

theorem State.keepPool_keeps {z s : State} (k kd : Nat) (old new : StakeRec) (hk : Keeps z s) :
    Keeps z (s.keepPool k kd old new) := by
  unfold State.keepPool
  try dsimp only
  repeat' first
    | with_reducible (first | exact hk | assumption | apply Keeps.ite | apply State.setFld_keeps | apply State.setKv_keeps)
    | fail_if_no_progress with_reducible apply Keeps.mk_upd
    | (intro _ _ _; try dsimp only)
    | intro _
    | split

theorem State.turnQueues_keeps {z s : State} (k : Nat) (hk : Keeps z s) :
    Keeps z (s.turnQueues k) := by
  unfold State.turnQueues
  try dsimp only
  repeat' first
    | with_reducible (first | exact hk | assumption | apply Keeps.ite | apply State.forAll_keeps | apply State.showQueue_keeps | apply State.qpReset_keeps)
    | fail_if_no_progress with_reducible apply Keeps.mk_upd
    | (intro _ _ _; try dsimp only)
    | intro _
    | split

theorem State.partApply_keeps {z s : State} (hk : Keeps z s) :
    Keeps z s.partApply := by
  unfold State.partApply
  try dsimp only
  repeat' first
    | with_reducible (first | exact hk | assumption | apply Keeps.ite | apply State.endEpoch_keeps | apply State.setFld_keeps | apply State.takeUnits_keeps | apply State.dropWays_keeps | apply State.extend_keeps | apply State.showDigest_keeps | apply State.asuClear_keeps | apply State.keepPool_keeps | apply State.resetRegs_keeps | apply State.turnQueues_keeps | apply State.showStake_keeps | apply State.showUnits_keeps | apply State.forAll_keeps | apply State.turnIsland_keeps | apply State.setPst_keeps | apply State.psqClear_keeps | apply State.openEpoch_keeps | apply State.autoResume_keeps | apply State.partEnd_keeps | apply State.stakeEvent_keeps)
    | fail_if_no_progress with_reducible apply Keeps.mk_upd
    | (intro _ _ _; try dsimp only)
    | intro _
    | split

theorem State.partCommit_keeps {z s : State} (hk : Keeps z s) :
    Keeps z s.partCommit := by
  unfold State.partCommit
  try dsimp only
  repeat' first
    | with_reducible (first | exact hk | assumption | apply Keeps.ite | apply State.partAbandon_keeps | apply State.partApply_keeps)
    | fail_if_no_progress with_reducible apply Keeps.mk_upd
    | (intro _ _ _; try dsimp only)
    | intro _
    | split

theorem State.partTimeout_keeps {z s : State} (hk : Keeps z s) :
    Keeps z s.partTimeout := by
  unfold State.partTimeout
  try dsimp only
  repeat' first
    | with_reducible (first | exact hk | assumption | apply Keeps.ite | apply State.partAbandon_keeps)
    | fail_if_no_progress with_reducible apply Keeps.mk_upd
    | (intro _ _ _; try dsimp only)
    | intro _
    | split

end Sys2Proof.Machine
end

