-- ==== Sys2Proof/Laws/KeepsBoot.lean ====
section
/-! SUPPORT. What the operations of Machine/Boot.lean keep (Laws/Keeps.lean). -/

namespace Sys2Proof.Machine

set_option linter.unusedTactic false
set_option linter.unreachableTactic false

theorem State.showSec_keeps {z s : State} (hk : Keeps z s) :
    Keeps z s.showSec := by
  unfold State.showSec
  try dsimp only
  repeat' first
    | with_reducible (first | exact hk | assumption | apply Keeps.ite | apply State.setFld_keeps | apply State.rollback_keeps)
    | fail_if_no_progress with_reducible apply Keeps.mk_upd
    | (intro _ _ _; try dsimp only)
    | intro _
    | split

theorem State.eraseStore_keeps {z s : State} (hk : Keeps z s) : Keeps z s.eraseStore := by
  refine hk.trans ⟨rfl, le_refl _, ⟨[], by simp [State.eraseStore]⟩, id, id,
    ⟨fun _ h => h, fun _ _ => rfl, fun _ h => h, le_refl _, ?_⟩⟩
  show s.fuses.openings ≤ if s.fuses.openings < 32 then s.fuses.openings + 1 else s.fuses.openings
  split <;> omega

theorem State.secBoot_keeps {z s : State} (sigA sigB : Bool) (hk : Keeps z s) :
    Keeps z (s.secBoot sigA sigB) := by
  unfold State.secBoot
  try dsimp only
  repeat' first
    | with_reducible (first | exact hk | assumption | apply Keeps.ite | apply State.eraseStore_keeps | apply State.extend_keeps | apply State.setFld_keeps | apply State.weaveFailed_keeps | apply State.showSec_keeps)
    | fail_if_no_progress with_reducible apply Keeps.mk_upd
    | (intro _ _ _; try dsimp only)
    | intro _
    | split

theorem State.scxBoot_keeps {z s : State} (sigA sigB : Bool) (hk : Keeps z s) :
    ∀ t, s.scxBoot sigA sigB = some t → Keeps z t := by
  intro t e
  unfold State.scxBoot at e
  split at e
  · cases e
  · rename_i o b _
    rw [← Option.some.inj e]
    have h1 := State.wr_keeps (imgLoad b) (imgCode b) hk
    repeat' first
      | with_reducible (first | assumption | apply Keeps.ite | apply State.extend_keeps | apply State.wr_keeps)
      | with_reducible apply Keeps.mk_upd

end Sys2Proof.Machine
end

