-- ==== Sys2Proof/Laws/KeepsLock.lean ====
section
/-! SUPPORT. What the operations of Machine/Lock.lean keep (Laws/Keeps.lean). -/

namespace Sys2Proof.Machine

set_option linter.unusedTactic false
set_option linter.unreachableTactic false

theorem State.takeCapture_keeps {z s : State} (hk : Keeps z s) :
    Keeps z s.takeCapture := by
  unfold State.takeCapture
  try dsimp only
  repeat' first
    | with_reducible (first | exact hk | assumption | apply Keeps.ite)
    | fail_if_no_progress with_reducible apply Keeps.mk_upd
    | (intro _ _ _; try dsimp only)
    | intro _
    | split

theorem State.coldState_keeps {z s : State} (lk : Lk) (hk : Keeps z s) : Keeps z (s.coldState lk) :=
  hk.trans ⟨rfl, Nat.le_succ _, ⟨[], by simp [State.coldState]⟩, fun _ => KMap.canon_nil _,
    fun _ => ⟨KMap.canon_nil _, fun _ h => by cases h⟩, .refl _⟩

theorem State.startRails_keeps {z s : State} (hk : Keeps z s) :
    Keeps z s.startRails := by
  unfold State.startRails
  try dsimp only
  repeat' first
    | with_reducible (first | exact hk | assumption | apply Keeps.ite | apply State.modLk_keeps)
    | fail_if_no_progress with_reducible apply Keeps.mk_upd
    | (intro _ _ _; try dsimp only)
    | intro _
    | split

theorem State.cold_keeps {z s : State} (cause : Nat) (escalated : Bool) (hk : Keeps z s) :
    Keeps z (s.cold cause escalated) := by
  unfold State.cold
  try dsimp only
  repeat' first
    | with_reducible (first | exact hk | assumption | apply Keeps.ite | apply State.coldState_keeps | apply State.setFld_keeps | apply State.startRails_keeps)
    | fail_if_no_progress with_reducible apply Keeps.mk_upd
    | (intro _ _ _; try dsimp only)
    | intro _
    | split

theorem State.powerOn_keeps {z s : State} (hk : Keeps z s) :
    Keeps z s.powerOn := by
  unfold State.powerOn
  try dsimp only
  repeat' first
    | with_reducible (first | exact hk | assumption | apply Keeps.ite | apply State.coldState_keeps)
    | fail_if_no_progress with_reducible apply Keeps.mk_upd
    | (intro _ _ _; try dsimp only)
    | intro _
    | split

theorem State.inputLoss_keeps {z s : State} (hk : Keeps z s) :
    Keeps z s.inputLoss := by
  unfold State.inputLoss
  try dsimp only
  repeat' first
    | with_reducible (first | exact hk | assumption | apply Keeps.ite | apply State.coldState_keeps)
    | fail_if_no_progress with_reducible apply Keeps.mk_upd
    | (intro _ _ _; try dsimp only)
    | intro _
    | split

theorem State.pwrRise_keeps {z s : State} (hk : Keeps z s) :
    Keeps z s.pwrRise := by
  unfold State.pwrRise
  try dsimp only
  repeat' first
    | with_reducible (first | exact hk | assumption | apply Keeps.ite | apply State.setFld_keeps | apply State.modLk_keeps | apply State.syncFault_keeps | apply State.startRails_keeps)
    | fail_if_no_progress with_reducible apply Keeps.mk_upd
    | (intro _ _ _; try dsimp only)
    | intro _
    | split

theorem State.pwrFall_keeps {z s : State} (hk : Keeps z s) :
    Keeps z s.pwrFall := by
  unfold State.pwrFall
  try dsimp only
  repeat' first
    | with_reducible (first | exact hk | assumption | apply Keeps.ite | apply State.modLk_keeps | apply State.cold_keeps | apply State.setFld_keeps | apply State.syncFault_keeps)
    | fail_if_no_progress with_reducible apply Keeps.mk_upd
    | (intro _ _ _; try dsimp only)
    | intro _
    | split

theorem State.railEnable_keeps {z s : State} (hk : Keeps z s) :
    Keeps z s.railEnable := by
  unfold State.railEnable
  try dsimp only
  repeat' first
    | with_reducible (first | exact hk | assumption | apply Keeps.ite | apply State.modLk_keeps)
    | fail_if_no_progress with_reducible apply Keeps.mk_upd
    | (intro _ _ _; try dsimp only)
    | intro _
    | split

theorem State.railGood_keeps {z s : State} (r : Nat) (hk : Keeps z s) :
    Keeps z (s.railGood r) := by
  unfold State.railGood
  try dsimp only
  repeat' first
    | with_reducible (first | exact hk | assumption | apply Keeps.ite | apply State.setFldBit_keeps | apply State.setFld_keeps)
    | fail_if_no_progress with_reducible apply Keeps.mk_upd
    | (intro _ _ _; try dsimp only)
    | intro _
    | split

theorem State.railTimeout_keeps {z s : State} (hk : Keeps z s) :
    Keeps z s.railTimeout := by
  unfold State.railTimeout
  try dsimp only
  repeat' first
    | with_reducible (first | exact hk | assumption | apply Keeps.ite | apply State.setFld_keeps | apply State.modLk_keeps | apply State.syncFault_keeps)
    | fail_if_no_progress with_reducible apply Keeps.mk_upd
    | (intro _ _ _; try dsimp only)
    | intro _
    | split

theorem State.latchOpt_keeps {z s : State} (c : Nat) (hk : Keeps z s) :
    Keeps z (s.latchOpt c) := by
  unfold State.latchOpt
  try dsimp only
  repeat' first
    | with_reducible (first | exact hk | assumption | apply Keeps.ite | apply State.setFld_keeps | apply State.setReg_keeps)
    | fail_if_no_progress with_reducible apply Keeps.mk_upd
    | (intro _ _ _; try dsimp only)
    | intro _
    | split

theorem State.loadTrims_keeps {z s : State} (hk : Keeps z s) :
    Keeps z s.loadTrims := by
  unfold State.loadTrims
  try dsimp only
  repeat' first
    | with_reducible (first | exact hk | assumption | apply Keeps.ite | apply State.forAll_keeps | apply State.setFld_keeps | apply State.setReg_keeps | apply State.showSec_keeps)
    | fail_if_no_progress with_reducible apply Keeps.mk_upd
    | (intro _ _ _; try dsimp only)
    | intro _
    | split

theorem State.loadRole_keeps {z s : State} (hk : Keeps z s) :
    Keeps z s.loadRole := by
  unfold State.loadRole
  try dsimp only
  repeat' first
    | with_reducible (first | exact hk | assumption | apply Keeps.ite | apply State.setFld_keeps | apply State.setReg_keeps)
    | fail_if_no_progress with_reducible apply Keeps.mk_upd
    | (intro _ _ _; try dsimp only)
    | intro _
    | split

theorem State.optBad_keeps {z s : State} (hk : Keeps z s) :
    Keeps z s.optBad := by
  unfold State.optBad
  try dsimp only
  repeat' first
    | with_reducible (first | exact hk | assumption | apply Keeps.ite | apply State.setFld_keeps | apply State.weaveFailed_keeps | apply State.syncFault_keeps)
    | fail_if_no_progress with_reducible apply Keeps.mk_upd
    | (intro _ _ _; try dsimp only)
    | intro _
    | split

theorem State.loadEnd_keeps {z s : State} (hk : Keeps z s) :
    Keeps z s.loadEnd := by
  unfold State.loadEnd
  try dsimp only
  repeat' first
    | with_reducible (first | exact hk | assumption | apply Keeps.ite | apply State.loadTrims_keeps | apply State.setFld_keeps)
    | fail_if_no_progress with_reducible apply Keeps.mk_upd
    | (intro _ _ _; try dsimp only)
    | intro _
    | split

theorem State.optionLoad_keeps {z s : State} (samples : List Nat) (slotId : Nat) (hk : Keeps z s) :
    Keeps z (s.optionLoad samples slotId) := by
  unfold State.optionLoad
  try dsimp only
  repeat' first
    | with_reducible (first | exact hk | assumption | apply Keeps.ite | apply State.loadEnd_keeps | apply State.modLk_keeps | apply State.latchOpt_keeps | apply State.loadRole_keeps | apply State.optBad_keeps)
    | fail_if_no_progress with_reducible apply Keeps.mk_upd
    | (intro _ _ _; try dsimp only)
    | intro _
    | split

theorem State.islandSettled_keeps {z s : State} (i : Nat) (hk : Keeps z s) :
    Keeps z (s.islandSettled i) := by
  unfold State.islandSettled
  try dsimp only
  repeat' first
    | with_reducible (first | exact hk | assumption | apply Keeps.ite | apply State.setFld_keeps)
    | fail_if_no_progress with_reducible apply Keeps.mk_upd
    | (intro _ _ _; try dsimp only)
    | intro _
    | split

theorem State.hifUp_keeps {z s : State} (hk : Keeps z s) :
    Keeps z s.hifUp := by
  unfold State.hifUp
  try dsimp only
  repeat' first
    | with_reducible (first | exact hk | assumption | apply Keeps.ite | apply State.setFld_keeps)
    | fail_if_no_progress with_reducible apply Keeps.mk_upd
    | (intro _ _ _; try dsimp only)
    | intro _
    | split

theorem State.reloadPvu_keeps {z s : State} (v : Nat) (hk : Keeps z s) :
    Keeps z (s.reloadPvu v) := by
  unfold State.reloadPvu
  try dsimp only
  repeat' first
    | with_reducible (first | exact hk | assumption | apply Keeps.ite | apply State.setPv_keeps | apply Keeps.foldl | apply Keeps.foldl_fst | apply Keeps.foldl_snd)
    | fail_if_no_progress with_reducible apply Keeps.mk_upd
    | (intro _ _ _; try dsimp only)
    | intro _
    | split

theorem State.resumeIdle_keeps {z s : State} (k : Nat) (hk : Keeps z s) :
    Keeps z (s.resumeIdle k) := by
  unfold State.resumeIdle
  try dsimp only
  repeat' first
    | with_reducible (first | exact hk | assumption | apply Keeps.ite | apply State.noResume_keeps | apply State.psqResume_keeps | apply State.asuRebuild_keeps)
    | fail_if_no_progress with_reducible apply Keeps.mk_upd
    | (intro _ _ _; try dsimp only)
    | intro _
    | split

theorem State.unitsAgain_keeps {z s : State} (hk : Keeps z s) :
    Keeps z s.unitsAgain := by
  unfold State.unitsAgain
  try dsimp only
  repeat' first
    | with_reducible (first | exact hk | assumption | apply Keeps.ite | apply State.releaseUnits_keeps | apply State.forAll_keeps | apply State.showQueue_keeps | apply State.reloadPvu_keeps | apply State.restart_keeps | apply State.resumeIdle_keeps | apply State.holdUnits_keeps)
    | fail_if_no_progress with_reducible apply Keeps.mk_upd
    | (intro _ _ _; try dsimp only)
    | intro _
    | split

theorem State.lastUp_keeps {z s : State} (hk : Keeps z s) :
    Keeps z s.lastUp := by
  unfold State.lastUp
  try dsimp only
  repeat' first
    | with_reducible (first | exact hk | assumption | apply Keeps.ite | apply State.modLk_keeps | apply State.setFld_keeps | apply State.syncFault_keeps)
    | fail_if_no_progress with_reducible apply Keeps.mk_upd
    | (intro _ _ _; try dsimp only)
    | intro _
    | split

theorem State.scxRelease_keeps {z s : State} (sigA sigB : Bool) (hk : Keeps z s) :
    Keeps z (s.scxRelease sigA sigB) := by
  have hb := State.scxBoot_keeps sigA sigB hk
  unfold State.scxRelease
  cases h : s.scxBoot sigA sigB with
  | none => exact State.lastUp_keeps (State.setFld_keeps _ _ _ (State.modLk_keeps _ hk))
  | some t => exact State.lastUp_keeps (State.setFld_keeps _ _ _ (State.wakeIslands_keeps _ (State.setFld_keeps _ _ _ (hb t h))))

theorem State.domainRelease_keeps {z s : State} (sigA sigB : Bool) (hk : Keeps z s) :
    Keeps z (s.domainRelease sigA sigB) := by
  unfold State.domainRelease
  try dsimp only
  repeat' first
    | with_reducible (first | exact hk | assumption | apply Keeps.ite | apply State.unitsAgain_keeps | apply State.scxRelease_keeps | apply State.setFld_keeps | apply State.wakeIslands_keeps | apply State.secBoot_keeps | apply State.syncFault_keeps | apply State.hifUp_keeps)
    | fail_if_no_progress with_reducible apply Keeps.mk_upd
    | (intro _ _ _; try dsimp only)
    | intro _
    | split

theorem State.stackReady_keeps {z s : State} (h : Nat) (hk : Keeps z s) :
    Keeps z (s.stackReady h) := by
  unfold State.stackReady
  try dsimp only
  repeat' first
    | with_reducible (first | exact hk | assumption | apply Keeps.ite | apply State.setFld_keeps)
    | fail_if_no_progress with_reducible apply Keeps.mk_upd
    | (intro _ _ _; try dsimp only)
    | intro _
    | split

theorem State.forceWrite_keeps {z s : State} (m : Master) (v : Nat) (hk : Keeps z s) :
    Keeps z (s.forceWrite m v) := by
  unfold State.forceWrite
  try dsimp only
  repeat' first
    | with_reducible (first | exact hk | assumption | apply Keeps.ite | apply State.setFld_keeps | apply State.modLk_keeps | apply State.wakeIslands_keeps | apply Keeps.foldl | apply Keeps.foldl_fst | apply Keeps.foldl_snd)
    | fail_if_no_progress with_reducible apply Keeps.mk_upd
    | (intro _ _ _; try dsimp only)
    | intro _
    | split

end Sys2Proof.Machine
end

