-- ==== Sys2Proof/Laws/KeepsReset.lean ====
section
/-! SUPPORT. What the operations of Machine/Reset.lean keep (Laws/Keeps.lean). -/

namespace Sys2Proof.Machine

set_option linter.unusedTactic false
set_option linter.unreachableTactic false

theorem State.partCut_keeps {z s : State} (hk : Keeps z s) :
    Keeps z s.partCut := by
  unfold State.partCut
  try dsimp only
  repeat' first
    | with_reducible (first | exact hk | assumption | apply Keeps.ite | apply State.partAbandon_keeps)
    | fail_if_no_progress with_reducible apply Keeps.mk_upd
    | (intro _ _ _; try dsimp only)
    | intro _
    | split

theorem State.warmStop_keeps {z s : State} (k : Nat) (hk : Keeps z s) :
    Keeps z (s.warmStop k) := by
  unfold State.warmStop
  try dsimp only
  repeat' first
    | with_reducible (first | exact hk | assumption | apply Keeps.ite | apply State.modLk_keeps | apply State.beginStop_keeps)
    | fail_if_no_progress with_reducible apply Keeps.mk_upd
    | (intro _ _ _; try dsimp only)
    | intro _
    | split

theorem State.warmBegin_keeps {z s : State} (cause : Nat) (hk : Keeps z s) :
    Keeps z (s.warmBegin cause) := by
  unfold State.warmBegin
  try dsimp only
  repeat' first
    | with_reducible (first | exact hk | assumption | apply Keeps.ite | apply State.setFld_keeps | apply State.modLk_keeps | apply State.partCut_keeps | apply State.forAll_keeps | apply State.warmStop_keeps)
    | fail_if_no_progress with_reducible apply Keeps.mk_upd
    | (intro _ _ _; try dsimp only)
    | intro _
    | split

theorem State.parkThread_keeps {z s : State} (t : Nat) (hk : Keeps z s) :
    Keeps z (s.parkThread t) := by
  unfold State.parkThread
  try dsimp only
  repeat' first
    | with_reducible (first | exact hk | assumption | apply Keeps.ite | apply State.retreat_keeps | apply State.unwait_keeps | apply State.setThr_keeps | apply State.setT_keeps)
    | fail_if_no_progress with_reducible apply Keeps.mk_upd
    | (intro _ _ _; try dsimp only)
    | intro _
    | split

theorem State.clearHomes_keeps {z s : State} (hk : Keeps z s) :
    Keeps z s.clearHomes := by
  unfold State.clearHomes
  try dsimp only
  repeat' first
    | with_reducible (first | exact hk | assumption | apply Keeps.ite)
    | fail_if_no_progress with_reducible apply Keeps.mk_upd
    | (intro _ _ _; try dsimp only)
    | intro _
    | split

theorem State.hifReset_keeps {z s : State} (hk : Keeps z s) :
    Keeps z s.hifReset := by
  unfold State.hifReset
  try dsimp only
  repeat' first
    | with_reducible (first | exact hk | assumption | apply Keeps.ite | apply State.resetRange_keeps | apply State.setReg_keeps | apply State.forAll_keeps | apply State.showQueue_keeps)
    | fail_if_no_progress with_reducible apply Keeps.mk_upd
    | (intro _ _ _; try dsimp only)
    | intro _
    | split

theorem State.islandsDown_keeps {z s : State} (hk : Keeps z s) :
    Keeps z s.islandsDown := by
  unfold State.islandsDown
  try dsimp only
  repeat' first
    | with_reducible (first | exact hk | assumption | apply Keeps.ite | apply State.forAll_keeps | apply State.setFld_keeps)
    | fail_if_no_progress with_reducible apply Keeps.mk_upd
    | (intro _ _ _; try dsimp only)
    | intro _
    | split

theorem State.ptbReset_keeps {z s : State} (hk : Keeps z s) :
    Keeps z s.ptbReset := by
  unfold State.ptbReset
  try dsimp only
  repeat' first
    | with_reducible (first | exact hk | assumption | apply Keeps.ite | apply State.resetRange_keeps)
    | fail_if_no_progress with_reducible apply Keeps.mk_upd
    | (intro _ _ _; try dsimp only)
    | intro _
    | split

theorem State.warmUnits_keeps {z s : State} (hk : Keeps z s) :
    Keeps z s.warmUnits := by
  unfold State.warmUnits
  try dsimp only
  repeat' first
    | with_reducible (first | exact hk | assumption | apply Keeps.ite | apply State.forAll_keeps | apply State.parkThread_keeps | apply State.clearHomes_keeps | apply State.asuFlush_keeps | apply State.setFld_keeps)
    | fail_if_no_progress with_reducible apply Keeps.mk_upd
    | (intro _ _ _; try dsimp only)
    | intro _
    | split

theorem State.warmDone_keeps {z s : State} (hk : Keeps z s) :
    Keeps z s.warmDone := by
  unfold State.warmDone
  try dsimp only
  repeat' first
    | with_reducible (first | exact hk | assumption | apply Keeps.ite | apply State.warmUnits_keeps | apply State.hifReset_keeps | apply State.ptbReset_keeps | apply State.islandsDown_keeps | apply State.setFld_keeps)
    | fail_if_no_progress with_reducible apply Keeps.mk_upd
    | (intro _ _ _; try dsimp only)
    | intro _
    | split

theorem State.warmTimeout_keeps {z s : State} (hk : Keeps z s) :
    Keeps z s.warmTimeout := by
  unfold State.warmTimeout
  try dsimp only
  repeat' first
    | with_reducible (first | exact hk | assumption | apply Keeps.ite | apply State.takeCapture_keeps | apply State.cold_keeps)
    | fail_if_no_progress with_reducible apply Keeps.mk_upd
    | (intro _ _ _; try dsimp only)
    | intro _
    | split

theorem State.wrstLow_keeps {z s : State} (hk : Keeps z s) :
    Keeps z s.wrstLow := by
  unfold State.wrstLow
  try dsimp only
  repeat' first
    | with_reducible (first | exact hk | assumption | apply Keeps.ite | apply State.modLk_keeps | apply State.warmBegin_keeps)
    | fail_if_no_progress with_reducible apply Keeps.mk_upd
    | (intro _ _ _; try dsimp only)
    | intro _
    | split

theorem State.wrstHigh_keeps {z s : State} (hk : Keeps z s) :
    Keeps z s.wrstHigh := by
  unfold State.wrstHigh
  try dsimp only
  repeat' first
    | with_reducible (first | exact hk | assumption | apply Keeps.ite | apply State.wrstLow_keeps | apply State.modLk_keeps)
    | fail_if_no_progress with_reducible apply Keeps.mk_upd
    | (intro _ _ _; try dsimp only)
    | intro _
    | split

theorem State.holdRelease_keeps {z s : State} (hk : Keeps z s) :
    Keeps z s.holdRelease := by
  unfold State.holdRelease
  try dsimp only
  repeat' first
    | with_reducible (first | exact hk | assumption | apply Keeps.ite | apply State.modLk_keeps)
    | fail_if_no_progress with_reducible apply Keeps.mk_upd
    | (intro _ _ _; try dsimp only)
    | intro _
    | split

theorem State.linkReset_keeps {z s : State} (cause : Nat) (hk : Keeps z s) :
    Keeps z (s.linkReset cause) := by
  unfold State.linkReset
  try dsimp only
  repeat' first
    | with_reducible (first | exact hk | assumption | apply Keeps.ite | apply State.warmBegin_keeps)
    | fail_if_no_progress with_reducible apply Keeps.mk_upd
    | (intro _ _ _; try dsimp only)
    | intro _
    | split

theorem State.wdogLoad_keeps {z s : State} (hk : Keeps z s) :
    Keeps z s.wdogLoad := by
  unfold State.wdogLoad
  try dsimp only
  repeat' first
    | with_reducible (first | exact hk | assumption | apply Keeps.ite | apply State.setFld_keeps)
    | fail_if_no_progress with_reducible apply Keeps.mk_upd
    | (intro _ _ _; try dsimp only)
    | intro _
    | split

theorem State.wdogTick_keeps {z s : State} (hk : Keeps z s) :
    Keeps z s.wdogTick := by
  unfold State.wdogTick
  try dsimp only
  repeat' first
    | with_reducible (first | exact hk | assumption | apply Keeps.ite | apply State.setFld_keeps)
    | fail_if_no_progress with_reducible apply Keeps.mk_upd
    | (intro _ _ _; try dsimp only)
    | intro _
    | split

theorem State.wdogExpire_keeps {z s : State} (hk : Keeps z s) :
    Keeps z s.wdogExpire := by
  unfold State.wdogExpire
  try dsimp only
  repeat' first
    | with_reducible (first | exact hk | assumption | apply Keeps.ite | apply State.warmBegin_keeps)
    | fail_if_no_progress with_reducible apply Keeps.mk_upd
    | (intro _ _ _; try dsimp only)
    | intro _
    | split

theorem State.securityReset_keeps {z s : State} (hk : Keeps z s) :
    Keeps z s.securityReset := by
  unfold State.securityReset
  try dsimp only
  repeat' first
    | with_reducible (first | exact hk | assumption | apply Keeps.ite | apply State.takeCapture_keeps | apply State.cold_keeps)
    | fail_if_no_progress with_reducible apply Keeps.mk_upd
    | (intro _ _ _; try dsimp only)
    | intro _
    | split

theorem State.captureDone_keeps {z s : State} (hk : Keeps z s) :
    Keeps z s.captureDone := by
  unfold State.captureDone
  try dsimp only
  repeat' first
    | with_reducible (first | exact hk | assumption | apply Keeps.ite | apply State.takeCapture_keeps)
    | fail_if_no_progress with_reducible apply Keeps.mk_upd
    | (intro _ _ _; try dsimp only)
    | intro _
    | split

theorem State.dropJobs_keeps {z s : State} (k : Nat) (hk : Keeps z s) :
    Keeps z (s.dropJobs k) := by
  unfold State.dropJobs
  try dsimp only
  repeat' first
    | with_reducible (first | exact hk | assumption | apply Keeps.ite | apply State.forAll_keeps | apply State.freeJob_keeps | apply State.setXc_keeps | apply State.setReg_keeps)
    | fail_if_no_progress with_reducible apply Keeps.mk_upd
    | (intro _ _ _; try dsimp only)
    | intro _
    | split

theorem State.dropContexts_keeps {z s : State} (k : Nat) (hk : Keeps z s) :
    Keeps z (s.dropContexts k) := by
  unfold State.dropContexts
  try dsimp only
  repeat' first
    | with_reducible (first | exact hk | assumption | apply Keeps.ite | apply State.forAll_keeps | apply State.resetRange_keeps | apply State.syncQuay_keeps | apply State.asuClear_keeps | apply State.setKv_keeps)
    | fail_if_no_progress with_reducible apply Keeps.mk_upd
    | (intro _ _ _; try dsimp only)
    | intro _
    | split

theorem State.dropWindows_keeps {z s : State} (k : Nat) (hk : Keeps z s) :
    Keeps z (s.dropWindows k) := by
  unfold State.dropWindows
  try dsimp only
  repeat' first
    | with_reducible (first | exact hk | assumption | apply Keeps.ite | apply State.forAll_keeps | apply State.setFld_keeps)
    | fail_if_no_progress with_reducible apply Keeps.mk_upd
    | (intro _ _ _; try dsimp only)
    | intro _
    | split

theorem State.resetUnits_keeps {z s : State} (k : Nat) (hk : Keeps z s) :
    Keeps z (s.resetUnits k) := by
  unfold State.resetUnits
  try dsimp only
  repeat' first
    | with_reducible (first | exact hk | assumption | apply Keeps.ite | apply State.forAll_keeps | apply State.resetRange_keeps | apply State.setPv_keeps | apply State.loseSpads_keeps | apply State.showUnits_keeps | apply Keeps.foldl | apply Keeps.foldl_fst | apply Keeps.foldl_snd)
    | fail_if_no_progress with_reducible apply Keeps.mk_upd
    | (intro _ _ _; try dsimp only)
    | intro _
    | split

theorem State.holdStake_keeps {z s : State} (k : Nat) (hk : Keeps z s) :
    Keeps z (s.holdStake k) := by
  unfold State.holdStake
  try dsimp only
  repeat' first
    | with_reducible (first | exact hk | assumption | apply Keeps.ite | apply State.setFld_keeps)
    | fail_if_no_progress with_reducible apply Keeps.mk_upd
    | (intro _ _ _; try dsimp only)
    | intro _
    | split

theorem State.stakeDone_keeps {z s : State} (k : Nat) (hk : Keeps z s) :
    Keeps z (s.stakeDone k) := by
  unfold State.stakeDone
  try dsimp only
  repeat' first
    | with_reducible (first | exact hk | assumption | apply Keeps.ite | apply State.dropJobs_keeps | apply State.dropContexts_keeps | apply State.idleThreads_keeps | apply State.dropWindows_keeps | apply State.dropWays_keeps | apply State.forAll_keeps | apply State.qpReset_keeps | apply State.resetUnits_keeps | apply State.psqClear_keeps | apply State.resetRegs_keeps | apply State.setPst_keeps | apply State.showStake_keeps | apply State.holdStake_keeps | apply State.setFldBit_keeps)
    | fail_if_no_progress with_reducible apply Keeps.mk_upd
    | (intro _ _ _; try dsimp only)
    | intro _
    | split

theorem State.stakeReset_keeps {z s : State} (k : Nat) (hk : Keeps z s) :
    Keeps z (s.stakeReset k) := by
  unfold State.stakeReset
  try dsimp only
  repeat' first
    | with_reducible (first | exact hk | assumption | apply Keeps.ite | apply State.setFldBit_keeps | apply State.beginStop_keeps | apply State.stakeDone_keeps)
    | fail_if_no_progress with_reducible apply Keeps.mk_upd
    | (intro _ _ _; try dsimp only)
    | intro _
    | split

theorem State.stopEnd_keeps {z s : State} (k : Nat) (hk : Keeps z s) :
    Keeps z (s.stopEnd k) := by
  unfold State.stopEnd
  try dsimp only
  repeat' first
    | with_reducible (first | exact hk | assumption | apply Keeps.ite | apply State.stakeDone_keeps | apply State.stopComplete_keeps)
    | fail_if_no_progress with_reducible apply Keeps.mk_upd
    | (intro _ _ _; try dsimp only)
    | intro _
    | split

end Sys2Proof.Machine
end

