-- ==== Sys2Proof/Laws/KeepsBrace.lean ====
section
/-! SUPPORT. What the operations of Machine/Brace.lean keep (Laws/Keeps.lean). -/

namespace Sys2Proof.Machine

set_option linter.unusedTactic false
set_option linter.unreachableTactic false

theorem State.braceStake_keeps {z s : State} (k : Nat) (hk : Keeps z s) :
    Keeps z (s.braceStake k) := by
  unfold State.braceStake
  try dsimp only
  repeat' first
    | with_reducible (first | exact hk | assumption | apply Keeps.ite | apply State.setFld_keeps | apply State.withdraw_keeps | apply State.braceThreads_keeps)
    | fail_if_no_progress with_reducible apply Keeps.mk_upd
    | (intro _ _ _; try dsimp only)
    | intro _
    | split

theorem State.markBraced_keeps {z s : State} (v : Nat) (hk : Keeps z s) :
    Keeps z (s.markBraced v) := by
  unfold State.markBraced
  try dsimp only
  repeat' first
    | with_reducible (first | exact hk | assumption | apply Keeps.ite | apply State.forAll_keeps | apply State.setFld_keeps)
    | fail_if_no_progress with_reducible apply Keeps.mk_upd
    | (intro _ _ _; try dsimp only)
    | intro _
    | split

theorem State.warnOn_keeps {z s : State} (hk : Keeps z s) :
    Keeps z s.warnOn := by
  unfold State.warnOn
  try dsimp only
  repeat' first
    | with_reducible (first | exact hk | assumption | apply Keeps.ite | apply State.modLk_keeps | apply State.setFld_keeps | apply State.modEvent_keeps | apply State.markBraced_keeps | apply State.forAll_keeps | apply State.braceStake_keeps)
    | fail_if_no_progress with_reducible apply Keeps.mk_upd
    | (intro _ _ _; try dsimp only)
    | intro _
    | split

theorem State.braceDone_keeps {z s : State} (hk : Keeps z s) :
    Keeps z s.braceDone := by
  unfold State.braceDone
  try dsimp only
  repeat' first
    | with_reducible (first | exact hk | assumption | apply Keeps.ite | apply State.setFld_keeps)
    | fail_if_no_progress with_reducible apply Keeps.mk_upd
    | (intro _ _ _; try dsimp only)
    | intro _
    | split

theorem State.unbraceStake_keeps {z s : State} (k : Nat) (hk : Keeps z s) :
    Keeps z (s.unbraceStake k) := by
  unfold State.unbraceStake
  try dsimp only
  repeat' first
    | with_reducible (first | exact hk | assumption | apply Keeps.ite | apply State.setFld_keeps | apply State.braceThreads_keeps)
    | fail_if_no_progress with_reducible apply Keeps.mk_upd
    | (intro _ _ _; try dsimp only)
    | intro _
    | split

theorem State.warnOff_keeps {z s : State} (hk : Keeps z s) :
    Keeps z s.warnOff := by
  unfold State.warnOff
  try dsimp only
  repeat' first
    | with_reducible (first | exact hk | assumption | apply Keeps.ite | apply State.modLk_keeps | apply State.setFld_keeps | apply State.modEvent_keeps | apply State.markBraced_keeps | apply State.forAll_keeps | apply State.unbraceStake_keeps)
    | fail_if_no_progress with_reducible apply Keeps.mk_upd
    | (intro _ _ _; try dsimp only)
    | intro _
    | split

theorem State.syncThrottle_keeps {z s : State} (hk : Keeps z s) :
    Keeps z s.syncThrottle := by
  unfold State.syncThrottle
  try dsimp only
  repeat' first
    | with_reducible (first | exact hk | assumption | apply Keeps.ite | apply State.setFld_keeps | apply State.forAll_keeps)
    | fail_if_no_progress with_reducible apply Keeps.mk_upd
    | (intro _ _ _; try dsimp only)
    | intro _
    | split

theorem State.junction_keeps {z s : State} (tj : Nat) (hk : Keeps z s) :
    Keeps z (s.junction tj) := by
  unfold State.junction
  try dsimp only
  repeat' first
    | with_reducible (first | exact hk | assumption | apply Keeps.ite | apply State.setFld_keeps | apply State.modLk_keeps | apply State.syncThrottle_keeps)
    | fail_if_no_progress with_reducible apply Keeps.mk_upd
    | (intro _ _ _; try dsimp only)
    | intro _
    | split

theorem State.linkOff_keeps {z s : State} (hk : Keeps z s) :
    Keeps z s.linkOff := by
  unfold State.linkOff
  try dsimp only
  repeat' first
    | with_reducible (first | exact hk | assumption | apply Keeps.ite | apply State.setFld_keeps)
    | fail_if_no_progress with_reducible apply Keeps.mk_upd
    | (intro _ _ _; try dsimp only)
    | intro _
    | split

theorem State.linkOn_keeps {z s : State} (width speed : Nat) (flit : Bool) (hk : Keeps z s) :
    Keeps z (s.linkOn width speed flit) := by
  unfold State.linkOn
  try dsimp only
  repeat' first
    | with_reducible (first | exact hk | assumption | apply Keeps.ite | apply State.setFld_keeps)
    | fail_if_no_progress with_reducible apply Keeps.mk_upd
    | (intro _ _ _; try dsimp only)
    | intro _
    | split

theorem State.linkEnable_keeps {z s : State} (b : Bool) (hk : Keeps z s) :
    Keeps z (s.linkEnable b) := by
  unfold State.linkEnable
  try dsimp only
  repeat' first
    | with_reducible (first | exact hk | assumption | apply Keeps.ite | apply State.setFld_keeps | apply State.linkOff_keeps)
    | fail_if_no_progress with_reducible apply Keeps.mk_upd
    | (intro _ _ _; try dsimp only)
    | intro _
    | split

theorem State.bootGo_keeps {z s : State} (len : Nat) (hk : Keeps z s) :
    Keeps z (s.bootGo len) := by
  unfold State.bootGo
  try dsimp only
  repeat' first
    | with_reducible (first | exact hk | assumption | apply Keeps.ite | apply State.answer_keeps | apply State.setFld_keeps | apply State.modLk_keeps)
    | fail_if_no_progress with_reducible apply Keeps.mk_upd
    | (intro _ _ _; try dsimp only)
    | intro _
    | split

end Sys2Proof.Machine
end

