-- ==== Sys2Proof/Laws/KeepsFaults.lean ====
section
/-! SUPPORT. What the operations of Machine/Faults.lean keep (Laws/Keeps.lean). -/

namespace Sys2Proof.Machine

set_option linter.unusedTactic false
set_option linter.unreachableTactic false

theorem State.recordFault_keeps {z s : State} (k kind unit : Nat) (peer : Option Nat) (nopeer : Bool) (ns : Nat) (hk : Keeps z s) :
    Keeps z (s.recordFault k kind unit peer nopeer ns) := by
  unfold State.recordFault
  try dsimp only
  repeat' first
    | with_reducible (first | exact hk | assumption | apply Keeps.ite | apply State.setFld_keeps | apply State.addSat_keeps | apply State.showCap_keeps | apply State.stakeEvent_keeps)
    | fail_if_no_progress with_reducible apply Keeps.mk_upd
    | (intro _ _ _; try dsimp only)
    | intro _
    | split

theorem State.holdWork_keeps {z s : State} (k code unit : Nat) (p : Outst → Bool) (hk : Keeps z s) :
    Keeps z (s.holdWork k code unit p) := by
  unfold State.holdWork
  try dsimp only
  repeat' first
    | with_reducible (first | exact hk | assumption | apply Keeps.ite | apply State.setOutst_keeps | apply State.forAll_keeps | apply State.raiseFault_keeps | apply State.withdraw_keeps | apply State.withdrawSome_keeps)
    | fail_if_no_progress with_reducible apply Keeps.mk_upd
    | (intro _ _ _; try dsimp only)
    | intro _
    | split

theorem State.moveWork_keeps {z s : State} (k e u : Nat) (hk : Keeps z s) :
    Keeps z (s.moveWork k e u) := by
  unfold State.moveWork
  try dsimp only
  repeat' first
    | with_reducible (first | exact hk | assumption | apply Keeps.ite | apply State.setOutst_keeps | apply State.forAll_keeps | apply State.setFld_keeps | apply State.syncMxe_keeps | apply State.syncDvu_keeps)
    | fail_if_no_progress with_reducible apply Keeps.mk_upd
    | (intro _ _ _; try dsimp only)
    | intro _
    | split

theorem State.failEngine_keeps {z s : State} (e ns : Nat) (hk : Keeps z s) :
    Keeps z (s.failEngine e ns) := by
  unfold State.failEngine
  try dsimp only
  repeat' first
    | with_reducible (first | exact hk | assumption | apply Keeps.ite | apply State.setFld_keeps | apply State.moveWork_keeps | apply State.recordFault_keeps | apply State.holdWork_keeps)
    | fail_if_no_progress with_reducible apply Keeps.mk_upd
    | (intro _ _ _; try dsimp only)
    | intro _
    | split

theorem State.failPvuUnit_keeps {z s : State} (v ns : Nat) (hk : Keeps z s) :
    Keeps z (s.failPvuUnit v ns) := by
  unfold State.failPvuUnit
  try dsimp only
  repeat' first
    | with_reducible (first | exact hk | assumption | apply Keeps.ite | apply State.setFld_keeps | apply State.reloadPvu_keeps | apply State.recordFault_keeps | apply State.holdWork_keeps)
    | fail_if_no_progress with_reducible apply Keeps.mk_upd
    | (intro _ _ _; try dsimp only)
    | intro _
    | split

theorem State.rehome_keeps {z s : State} (k c t : Nat) (hk : Keeps z s) :
    Keeps z (s.rehome k c t) := by
  unfold State.rehome
  try dsimp only
  repeat' first
    | with_reducible (first | exact hk | assumption | apply Keeps.ite | apply State.restart_keeps | apply State.setFld_keeps | apply State.unwait_keeps | apply State.setThr_keeps | apply State.setT_keeps)
    | fail_if_no_progress with_reducible apply Keeps.mk_upd
    | (intro _ _ _; try dsimp only)
    | intro _
    | split

theorem State.failCore_keeps {z s : State} (c ns : Nat) (hk : Keeps z s) :
    Keeps z (s.failCore c ns) := by
  unfold State.failCore
  try dsimp only
  repeat' first
    | with_reducible (first | exact hk | assumption | apply Keeps.ite | apply State.setL1_keeps | apply State.setIl1_keeps | apply State.rehome_keeps | apply State.recordFault_keeps | apply Keeps.foldl | apply Keeps.foldl_fst | apply Keeps.foldl_snd)
    | fail_if_no_progress with_reducible apply Keeps.mk_upd
    | (intro _ _ _; try dsimp only)
    | intro _
    | split

theorem State.failAtoms_keeps {z s : State} (q : Nat) (hk : Keeps z s) :
    Keeps z (s.failAtoms q) := by
  unfold State.failAtoms
  try dsimp only
  repeat' first
    | with_reducible (first | exact hk | assumption | apply Keeps.ite | apply State.setQu_keeps | apply State.homeDone_keeps | apply State.homeWake_keeps | apply Keeps.foldl | apply Keeps.foldl_fst | apply Keeps.foldl_snd)
    | fail_if_no_progress with_reducible apply Keeps.mk_upd
    | (intro _ _ _; try dsimp only)
    | intro _
    | split

theorem State.loseQuay_keeps {z s : State} (q : Nat) (hk : Keeps z s) :
    Keeps z (s.loseQuay q) := by
  unfold State.loseQuay
  try dsimp only
  repeat' first
    | with_reducible (first | exact hk | assumption | apply Keeps.ite | apply State.forAll_keeps | apply State.failAtoms_keeps | apply State.holdWork_keeps | apply State.setQu_keeps)
    | fail_if_no_progress with_reducible apply Keeps.mk_upd
    | (intro _ _ _; try dsimp only)
    | intro _
    | split

theorem State.coverQuay_keeps {z s : State} (q : Nat) (hk : Keeps z s) :
    Keeps z (s.coverQuay q) := by
  unfold State.coverQuay
  try dsimp only
  repeat' first
    | with_reducible (first | exact hk | assumption | apply Keeps.ite | apply State.setQu_keeps | apply State.setFld_keeps)
    | fail_if_no_progress with_reducible apply Keeps.mk_upd
    | (intro _ _ _; try dsimp only)
    | intro _
    | split

theorem State.failQuayUnit_keeps {z s : State} (q ns : Nat) (hk : Keeps z s) :
    Keeps z (s.failQuayUnit q ns) := by
  unfold State.failQuayUnit
  try dsimp only
  repeat' first
    | with_reducible (first | exact hk | assumption | apply Keeps.ite | apply State.setFld_keeps | apply State.loseQuay_keeps | apply State.coverQuay_keeps | apply State.recordFault_keeps)
    | fail_if_no_progress with_reducible apply Keeps.mk_upd
    | (intro _ _ _; try dsimp only)
    | intro _
    | split

theorem State.failLane_keeps {z s : State} (p lane ns : Nat) (hk : Keeps z s) :
    Keeps z (s.failLane p lane ns) := by
  unfold State.failLane
  try dsimp only
  repeat' first
    | with_reducible (first | exact hk | assumption | apply Keeps.ite | apply State.setPt_keeps | apply State.startRetrain_keeps | apply State.forAll_keeps | apply State.recordFault_keeps)
    | fail_if_no_progress with_reducible apply Keeps.mk_upd
    | (intro _ _ _; try dsimp only)
    | intro _
    | split

theorem State.failPort_keeps {z s : State} (p ns : Nat) (hk : Keeps z s) :
    Keeps z (s.failPort p ns) := by
  unfold State.failPort
  try dsimp only
  repeat' first
    | with_reducible (first | exact hk | assumption | apply Keeps.ite | apply State.portDown_keeps | apply State.forAll_keeps | apply State.recordFault_keeps)
    | fail_if_no_progress with_reducible apply Keeps.mk_upd
    | (intro _ _ _; try dsimp only)
    | intro _
    | split

theorem State.unitFailure_keeps {z s : State} (kind unit ns : Nat) (hk : Keeps z s) :
    Keeps z (s.unitFailure kind unit ns) := by
  unfold State.unitFailure
  try dsimp only
  repeat' first
    | with_reducible (first | exact hk | assumption | apply Keeps.ite | apply State.failEngine_keeps | apply State.failPvuUnit_keeps | apply State.failCore_keeps | apply State.failQuayUnit_keeps | apply State.failLane_keeps | apply State.failPort_keeps)
    | fail_if_no_progress with_reducible apply Keeps.mk_upd
    | (intro _ _ _; try dsimp only)
    | intro _
    | split

end Sys2Proof.Machine
end

