-- ==== Sys2Proof/Laws/KeepsRegAccess.lean ====
section
/-! SUPPORT. What the operations of Machine/RegAccess.lean keep (Laws/Keeps.lean). -/

namespace Sys2Proof.Machine

set_option linter.unusedTactic false
set_option linter.unreachableTactic false

theorem State.regView_keeps {z s : State} (a : Nat) (hk : Keeps z s) :
    Keeps z (s.regView a).2 := by
  unfold State.regView
  try dsimp only
  repeat' first
    | with_reducible (first | exact hk | assumption | apply Keeps.ite | apply State.setFld_keeps | apply State.draw_keeps)
    | fail_if_no_progress with_reducible apply Keeps.mk_upd
    | (intro _ _ _; try dsimp only)
    | intro _
    | split

theorem State.regRead_keeps {z s : State} (a : Nat) (hk : Keeps z s) :
    Keeps z (s.regRead a) := by
  unfold State.regRead
  try dsimp only
  repeat' first
    | with_reducible (first | exact hk | assumption | apply Keeps.ite | apply State.answer_keeps | apply State.draw_keeps | apply State.regView_keeps | apply State.setReg_keeps)
    | fail_if_no_progress with_reducible apply Keeps.mk_upd
    | (intro _ _ _; try dsimp only)
    | intro _
    | split

theorem State.plainWrite_keeps {z s : State} (a : Nat) (v : Word) (hk : Keeps z s) :
    Keeps z (s.plainWrite a v) := by
  unfold State.plainWrite
  try dsimp only
  repeat' first
    | with_reducible (first | exact hk | assumption | apply Keeps.ite | apply State.answer_keeps | apply State.setReg_keeps)
    | fail_if_no_progress with_reducible apply Keeps.mk_upd
    | (intro _ _ _; try dsimp only)
    | intro _
    | split

theorem State.guarded_keeps {z s : State} (ok : Bool) (t : State) (ht : Keeps z t) (hk : Keeps z s) :
    Keeps z (s.guarded ok t) := by
  unfold State.guarded
  try dsimp only
  repeat' first
    | with_reducible (first | exact hk | assumption | apply Keeps.ite | apply State.answer_keeps)
    | fail_if_no_progress with_reducible apply Keeps.mk_upd
    | (intro _ _ _; try dsimp only)
    | intro _
    | split

theorem State.psqWrite_keeps {z s : State} (k o a : Nat) (v : Word) (hk : Keeps z s) :
    Keeps z (s.psqWrite k o a v) := by
  unfold State.psqWrite
  try dsimp only
  repeat' first
    | with_reducible (first | exact hk | assumption | apply Keeps.ite | apply State.plainWrite_keeps | apply State.psqDo_keeps | apply State.extPost_keeps | apply State.guarded_keeps | apply State.limitWrite_keeps | apply State.ctxThrough_keeps)
    | fail_if_no_progress with_reducible apply Keeps.mk_upd
    | (intro _ _ _; try dsimp only)
    | intro _
    | split

theorem State.pvuWrite_keeps {z s : State} (p o a : Nat) (v : Word) (hk : Keeps z s) :
    Keeps z (s.pvuWrite p o a v) := by
  unfold State.pvuWrite
  try dsimp only
  repeat' first
    | with_reducible (first | exact hk | assumption | apply Keeps.ite | apply State.plainWrite_keeps | apply State.setPv_keeps | apply State.syncPvu_keeps)
    | fail_if_no_progress with_reducible apply Keeps.mk_upd
    | (intro _ _ _; try dsimp only)
    | intro _
    | split

theorem State.kvDo_keeps {z s : State} (k cmd : Nat) (hk : Keeps z s) :
    Keeps z (s.kvDo k cmd) := by
  unfold State.kvDo
  try dsimp only
  repeat' first
    | with_reducible (first | exact hk | assumption | apply Keeps.ite | apply State.kvInit_keeps | apply State.setFld_keeps)
    | fail_if_no_progress with_reducible apply Keeps.mk_upd
    | (intro _ _ _; try dsimp only)
    | intro _
    | split

theorem State.kvpWrite_keeps {z s : State} (d o a : Nat) (v : Word) (hk : Keeps z s) :
    Keeps z (s.kvpWrite d o a v) := by
  unfold State.kvpWrite
  try dsimp only
  repeat' first
    | with_reducible (first | exact hk | assumption | apply Keeps.ite | apply State.plainWrite_keeps | apply State.answer_keeps | apply State.guarded_keeps | apply State.kvDo_keeps | apply State.setFld_keeps)
    | fail_if_no_progress with_reducible apply Keeps.mk_upd
    | (intro _ _ _; try dsimp only)
    | intro _
    | split

theorem State.tcxWrite_keeps {z s : State} (d o a : Nat) (v : Word) (hk : Keeps z s) :
    Keeps z (s.tcxWrite d o a v) := by
  unfold State.tcxWrite
  try dsimp only
  repeat' first
    | with_reducible (first | exact hk | assumption | apply Keeps.ite | apply State.launch_keeps | apply State.haltCmd_keeps | apply State.plainWrite_keeps)
    | fail_if_no_progress with_reducible apply Keeps.mk_upd
    | (intro _ _ _; try dsimp only)
    | intro _
    | split

theorem State.decCommit_keeps {z s : State} (n : Nat) (hk : Keeps z s) :
    Keeps z (s.decCommit n) := by
  unfold State.decCommit
  try dsimp only
  repeat' first
    | with_reducible (first | exact hk | assumption | apply Keeps.ite | apply State.answer_keeps | apply State.setFld_keeps)
    | fail_if_no_progress with_reducible apply Keeps.mk_upd
    | (intro _ _ _; try dsimp only)
    | intro _
    | split

theorem State.decUncommit_keeps {z s : State} (n : Nat) (hk : Keeps z s) :
    Keeps z (s.decUncommit n) := by
  unfold State.decUncommit
  try dsimp only
  repeat' first
    | with_reducible (first | exact hk | assumption | apply Keeps.ite | apply State.answer_keeps | apply State.setFld_keeps)
    | fail_if_no_progress with_reducible apply Keeps.mk_upd
    | (intro _ _ _; try dsimp only)
    | intro _
    | split

theorem State.decLock_keeps {z s : State} (n : Nat) (hk : Keeps z s) :
    Keeps z (s.decLock n) := by
  unfold State.decLock
  try dsimp only
  repeat' first
    | with_reducible (first | exact hk | assumption | apply Keeps.ite | apply State.answer_keeps | apply State.setFld_keeps)
    | fail_if_no_progress with_reducible apply Keeps.mk_upd
    | (intro _ _ _; try dsimp only)
    | intro _
    | split

theorem State.decWrite_keeps {z s : State} (n : Nat) (v : Word) (hk : Keeps z s) :
    Keeps z (s.decWrite n v) := by
  unfold State.decWrite
  try dsimp only
  repeat' first
    | with_reducible (first | exact hk | assumption | apply Keeps.ite | apply State.answer_keeps | apply State.decUncommit_keeps | apply State.setFld_keeps | apply State.decLock_keeps | apply State.decCommit_keeps)
    | fail_if_no_progress with_reducible apply Keeps.mk_upd
    | (intro _ _ _; try dsimp only)
    | intro _
    | split

theorem State.cxtWrite_keeps {z s : State} (o a : Nat) (v : Word) (hk : Keeps z s) :
    Keeps z (s.cxtWrite o a v) := by
  unfold State.cxtWrite
  try dsimp only
  repeat' first
    | with_reducible (first | exact hk | assumption | apply Keeps.ite | apply State.decWrite_keeps | apply State.answer_keeps | apply State.plainWrite_keeps)
    | fail_if_no_progress with_reducible apply Keeps.mk_upd
    | (intro _ _ _; try dsimp only)
    | intro _
    | split

theorem State.portDo_keeps {z s : State} (p cmd : Nat) (hk : Keeps z s) :
    Keeps z (s.portDo p cmd) := by
  unfold State.portDo
  try dsimp only
  repeat' first
    | with_reducible (first | exact hk | assumption | apply Keeps.ite | apply State.cmdFast_keeps | apply State.cmdFull_keeps | apply State.portDown_keeps)
    | fail_if_no_progress with_reducible apply Keeps.mk_upd
    | (intro _ _ _; try dsimp only)
    | intro _
    | split

theorem State.twpWrite_keeps {z s : State} (p o a : Nat) (v : Word) (hk : Keeps z s) :
    Keeps z (s.twpWrite p o a v) := by
  unfold State.twpWrite
  try dsimp only
  repeat' first
    | with_reducible (first | exact hk | assumption | apply Keeps.ite | apply State.portDo_keeps | apply State.winWrite_keeps | apply State.answer_keeps | apply State.plainWrite_keeps)
    | fail_if_no_progress with_reducible apply Keeps.mk_upd
    | (intro _ _ _; try dsimp only)
    | intro _
    | split

theorem State.msixWrite_keeps {z s : State} (a : Nat) (v : Word) (hk : Keeps z s) :
    Keeps z (s.msixWrite a v) := by
  unfold State.msixWrite
  try dsimp only
  repeat' first
    | with_reducible (first | exact hk | assumption | apply Keeps.ite | apply State.sendPending_keeps)
    | fail_if_no_progress with_reducible apply Keeps.mk_upd
    | (intro _ _ _; try dsimp only)
    | intro _
    | split

theorem State.qpDo_keeps {z s : State} (n cmd : Nat) (hk : Keeps z s) :
    Keeps z (s.qpDo n cmd) := by
  unfold State.qpDo
  try dsimp only
  repeat' first
    | with_reducible (first | exact hk | assumption | apply Keeps.ite | apply State.qpCreate_keeps | apply State.qpDelete_keeps | apply State.qpRestart_keeps)
    | fail_if_no_progress with_reducible apply Keeps.mk_upd
    | (intro _ _ _; try dsimp only)
    | intro _
    | split

theorem State.hifWrite8_keeps {z s : State} (m : Master) (o a : Nat) (v : Word) (hk : Keeps z s) :
    Keeps z (s.hifWrite8 m o a v) := by
  unfold State.hifWrite8
  try dsimp only
  repeat' first
    | with_reducible (first | exact hk | assumption | apply Keeps.ite | apply State.msixWrite_keeps | apply State.linkEnable_keeps | apply State.bootGo_keeps | apply State.setFld_keeps | apply State.ringEnable_keeps | apply State.plainWrite_keeps | apply State.poolDone_keeps | apply State.guarded_keeps | apply State.qpDo_keeps | apply State.irqCheck_keeps | apply State.dbSq_keeps | apply State.dbCq_keeps)
    | fail_if_no_progress with_reducible apply Keeps.mk_upd
    | (intro _ _ _; try dsimp only)
    | intro _
    | split

theorem State.wdogWrite_keeps {z s : State} (v : Word) (hk : Keeps z s) :
    Keeps z (s.wdogWrite v) := by
  unfold State.wdogWrite
  try dsimp only
  repeat' first
    | with_reducible (first | exact hk | assumption | apply Keeps.ite | apply State.plainWrite_keeps | apply State.wdogLoad_keeps)
    | fail_if_no_progress with_reducible apply Keeps.mk_upd
    | (intro _ _ _; try dsimp only)
    | intro _
    | split

theorem State.lkWrite_keeps {z s : State} (m : Master) (o a : Nat) (v : Word) (hk : Keeps z s) :
    Keeps z (s.lkWrite m o a v) := by
  unfold State.lkWrite
  try dsimp only
  repeat' first
    | with_reducible (first | exact hk | assumption | apply Keeps.ite | apply State.stakeReset_keeps | apply State.wdogWrite_keeps | apply State.wdogLoad_keeps | apply State.plainWrite_keeps | apply State.syncThrottle_keeps | apply State.forceWrite_keeps | apply State.syncFault_keeps)
    | fail_if_no_progress with_reducible apply Keeps.mk_upd
    | (intro _ _ _; try dsimp only)
    | intro _
    | split

theorem State.wvWrite_keeps {z s : State} (o a : Nat) (v : Word) (hk : Keeps z s) :
    Keeps z (s.wvWrite o a v) := by
  unfold State.wvWrite
  try dsimp only
  repeat' first
    | with_reducible (first | exact hk | assumption | apply Keeps.ite | apply State.draw_keeps | apply State.partStart_keeps | apply State.setFld_keeps | apply State.plainWrite_keeps)
    | fail_if_no_progress with_reducible apply Keeps.mk_upd
    | (intro _ _ _; try dsimp only)
    | intro _
    | split

theorem State.ptbWrite_keeps {z s : State} (o a : Nat) (v : Word) (hk : Keeps z s) :
    Keeps z (s.ptbWrite o a v) := by
  unfold State.ptbWrite
  try dsimp only
  repeat' first
    | with_reducible (first | exact hk | assumption | apply Keeps.ite | apply State.ptbArm_keeps | apply State.answer_keeps | apply State.plainWrite_keeps)
    | fail_if_no_progress with_reducible apply Keeps.mk_upd
    | (intro _ _ _; try dsimp only)
    | intro _
    | split

theorem State.regBody_keeps {z s : State} (m : Master) (a : Nat) (v : Word) (hk : Keeps z s) :
    Keeps z (s.regBody m a v) := by
  unfold State.regBody
  try dsimp only
  repeat' first
    | with_reducible (first | exact hk | assumption | apply Keeps.ite | apply State.wvWrite_keeps | apply State.lkWrite_keeps | apply State.hifWrite8_keeps | apply State.twpWrite_keeps | apply State.cxtWrite_keeps | apply State.pvuWrite_keeps | apply State.kvpWrite_keeps | apply State.tcxWrite_keeps | apply State.plainWrite_keeps | apply State.psqWrite_keeps | apply State.ptbWrite_keeps)
    | fail_if_no_progress with_reducible apply Keeps.mk_upd
    | (intro _ _ _; try dsimp only)
    | intro _
    | split

theorem State.regWrite_keeps {z s : State} (m : Master) (a : Nat) (v : Word) (hk : Keeps z s) :
    Keeps z (s.regWrite m a v) := by
  unfold State.regWrite
  try dsimp only
  repeat' first
    | with_reducible (first | exact hk | assumption | apply Keeps.ite | apply State.dropWrite_keeps | apply State.command_keeps | apply State.regBody_keeps)
    | fail_if_no_progress with_reducible apply Keeps.mk_upd
    | (intro _ _ _; try dsimp only)
    | intro _
    | split

theorem State.regAccess_keeps {z s : State} (m : Master) (a : Nat) (x : Access) (hk : Keeps z s) :
    Keeps z (s.regAccess m a x) := by
  unfold State.regAccess
  try dsimp only
  repeat' first
    | with_reducible (first | exact hk | assumption | apply Keeps.ite | apply State.regRead_keeps | apply State.answer_keeps | apply State.regWrite_keeps | apply State.dropWrite_keeps)
    | fail_if_no_progress with_reducible apply Keeps.mk_upd
    | (intro _ _ _; try dsimp only)
    | intro _
    | split

end Sys2Proof.Machine
end

