-- ==== Sys2Proof/Laws/KeepsMem.lean ====
section
/-! SUPPORT. What the operations of Machine/Mem.lean keep (Laws/Keeps.lean). -/

namespace Sys2Proof.Machine

set_option linter.unusedTactic false
set_option linter.unreachableTactic false

theorem State.patrol_keeps {z s : State} (h a ecc : Nat) (raced last : Bool) (hk : Keeps z s) :
    Keeps z (s.patrol h a ecc raced last) := by
  unfold State.patrol
  try dsimp only
  repeat' first
    | with_reducible (first | exact hk | assumption | apply Keeps.ite | apply State.eccRead_keeps | apply State.setFld_keeps)
    | fail_if_no_progress with_reducible apply Keeps.mk_upd
    | (intro _ _ _; try dsimp only)
    | intro _
    | split

theorem State.loseStack_keeps {z s : State} (h cause : Nat) (hk : Keeps z s) :
    Keeps z (s.loseStack h cause) := by
  unfold State.loseStack
  try dsimp only
  repeat' first
    | with_reducible (first | exact hk | assumption | apply Keeps.ite | apply State.setFld_keeps | apply State.modEvent_keeps | apply State.forAll_keeps | apply State.endEpoch_keeps)
    | fail_if_no_progress with_reducible apply Keeps.mk_upd
    | (intro _ _ _; try dsimp only)
    | intro _
    | split

theorem State.stackFails_keeps {z s : State} (h cause : Nat) (hk : Keeps z s) :
    Keeps z (s.stackFails h cause) := by
  unfold State.stackFails
  try dsimp only
  repeat' first
    | with_reducible (first | exact hk | assumption | apply Keeps.ite | apply State.loseStack_keeps)
    | fail_if_no_progress with_reducible apply Keeps.mk_upd
    | (intro _ _ _; try dsimp only)
    | intro _
    | split

theorem State.stackTemp_keeps {z s : State} (h t : Nat) (hk : Keeps z s) :
    Keeps z (s.stackTemp h t) := by
  unfold State.stackTemp
  try dsimp only
  repeat' first
    | with_reducible (first | exact hk | assumption | apply Keeps.ite | apply State.setFld_keeps | apply State.modLk_keeps | apply State.syncThrottle_keeps | apply State.stackFails_keeps)
    | fail_if_no_progress with_reducible apply Keeps.mk_upd
    | (intro _ _ _; try dsimp only)
    | intro _
    | split

theorem State.cxlOff_keeps {z s : State} (p : Nat) (hk : Keeps z s) :
    Keeps z (s.cxlOff p) := by
  unfold State.cxlOff
  try dsimp only
  repeat' first
    | with_reducible (first | exact hk | assumption | apply Keeps.ite | apply State.setFld_keeps | apply State.modEvent_keeps)
    | fail_if_no_progress with_reducible apply Keeps.mk_upd
    | (intro _ _ _; try dsimp only)
    | intro _
    | split

theorem State.cxlOn_keeps {z s : State} (p width speed : Nat) (flit device : Bool) (hk : Keeps z s) :
    Keeps z (s.cxlOn p width speed flit device) := by
  unfold State.cxlOn
  try dsimp only
  repeat' first
    | with_reducible (first | exact hk | assumption | apply Keeps.ite | apply State.setFld_keeps)
    | fail_if_no_progress with_reducible apply Keeps.mk_upd
    | (intro _ _ _; try dsimp only)
    | intro _
    | split

theorem State.spadDo_keeps {z s : State} (a : Nat) (x : Access) (e : Errs) (hk : Keeps z s) :
    Keeps z (s.spadDo a x e) := by
  unfold State.spadDo
  try dsimp only
  repeat' first
    | with_reducible (first | exact hk | assumption | apply Keeps.ite | apply State.readErrs_keeps | apply State.answer_keeps | apply State.wr_keeps)
    | fail_if_no_progress with_reducible apply Keeps.mk_upd
    | (intro _ _ _; try dsimp only)
    | intro _
    | split

theorem State.spadAccess_keeps {z s : State} (r : Requester) (a : Nat) (x : Access) (e : Errs) (hk : Keeps z s) :
    Keeps z (s.spadAccess r a x e) := by
  unfold State.spadAccess
  try dsimp only
  repeat' first
    | with_reducible (first | exact hk | assumption | apply Keeps.ite | apply State.answer_keeps | apply State.spadDo_keeps)
    | fail_if_no_progress with_reducible apply Keeps.mk_upd
    | (intro _ _ _; try dsimp only)
    | intro _
    | split

theorem State.servedRead_keeps {z s : State} (a n : Nat) (e : Errs) (hk : Keeps z s) :
    Keeps z (s.servedRead a n e) := by
  unfold State.servedRead
  try dsimp only
  repeat' first
    | with_reducible (first | exact hk | assumption | apply Keeps.ite | apply State.readErrs_keeps | apply State.answer_keeps)
    | fail_if_no_progress with_reducible apply Keeps.mk_upd
    | (intro _ _ _; try dsimp only)
    | intro _
    | split

theorem State.servedWrite_keeps {z s : State} (a : Nat) (d : List Byte) (hk : Keeps z s) :
    Keeps z (s.servedWrite a d) := by
  unfold State.servedWrite
  try dsimp only
  repeat' first
    | with_reducible (first | exact hk | assumption | apply Keeps.ite | apply State.noteCxl_keeps | apply State.answer_keeps | apply State.wr_keeps)
    | fail_if_no_progress with_reducible apply Keeps.mk_upd
    | (intro _ _ _; try dsimp only)
    | intro _
    | split

theorem State.memServed_keeps {z s : State} (r : Requester) (a : Nat) (x : Access) (e : Errs) (hk : Keeps z s) :
    Keeps z (s.memServed r a x e) := by
  unfold State.memServed
  try dsimp only
  repeat' first
    | with_reducible (first | exact hk | assumption | apply Keeps.ite | apply State.servedRead_keeps | apply State.ownWrite_keeps | apply State.answer_keeps | apply State.servedWrite_keeps)
    | fail_if_no_progress with_reducible apply Keeps.mk_upd
    | (intro _ _ _; try dsimp only)
    | intro _
    | split

theorem State.tileAccess_keeps {z s : State} (t : Nat) (lead : List (Nat × Nat)) (a : Nat) (x : Access) (e : Errs) (hk : Keeps z s) :
    Keeps z (s.tileAccess t lead a x e) := by
  unfold State.tileAccess
  try dsimp only
  repeat' first
    | with_reducible (first | exact hk | assumption | apply Keeps.ite | apply State.asThread_keeps | apply State.noteCxl_keeps | apply State.trap_keeps | apply State.spadDo_keeps | apply State.arrayErrs_keeps | apply State.cachedLoad_keeps | apply State.prefetch_keeps | apply State.cachedStore_keeps)
    | fail_if_no_progress with_reducible apply Keeps.mk_upd
    | (intro _ _ _; try dsimp only)
    | intro _
    | split

theorem State.coreAccess_keeps {z s : State} (m : Master) (r : Requester) (a : Nat) (x : Access) (e : Errs) (hk : Keeps z s) :
    Keeps z (s.coreAccess m r a x e) := by
  unfold State.coreAccess
  try dsimp only
  repeat' first
    | with_reducible (first | exact hk | assumption | apply Keeps.ite | apply State.regAccess_keeps | apply State.spadAccess_keeps | apply State.answer_keeps | apply State.memServed_keeps)
    | fail_if_no_progress with_reducible apply Keeps.mk_upd
    | (intro _ _ _; try dsimp only)
    | intro _
    | split

theorem State.memAccess_keeps {z s : State} (r : Requester) (lead : List (Nat × Nat)) (a : Nat) (x : Access) (e : Errs) (hk : Keeps z s) :
    Keeps z (s.memAccess r lead a x e) := by
  unfold State.memAccess
  try dsimp only
  repeat' first
    | with_reducible (first | exact hk | assumption | apply Keeps.ite | apply State.tileAccess_keeps | apply State.answer_keeps | apply State.spadAccess_keeps | apply State.memServed_keeps | apply State.coreAccess_keeps | apply State.coreLead_keeps)
    | fail_if_no_progress with_reducible apply Keeps.mk_upd
    | (intro _ _ _; try dsimp only)
    | intro _
    | split

theorem State.aer_keeps {z s : State} (b : Nat) (hk : Keeps z s) :
    Keeps z (s.aer b) := by
  unfold State.aer
  try dsimp only
  repeat' first
    | with_reducible (first | exact hk | assumption | apply Keeps.ite)
    | fail_if_no_progress with_reducible apply Keeps.mk_upd
    | (intro _ _ _; try dsimp only)
    | intro _
    | split

theorem State.hostAnswer_keeps {z s : State} (x : Access) (hk : Keeps z s) :
    Keeps z (s.hostAnswer x) := by
  unfold State.hostAnswer
  try dsimp only
  repeat' first
    | with_reducible (first | exact hk | assumption | apply Keeps.ite | apply State.answer_keeps | apply State.aer_keeps)
    | fail_if_no_progress with_reducible apply Keeps.mk_upd
    | (intro _ _ _; try dsimp only)
    | intro _
    | split

theorem State.hostUnsupported_keeps {z s : State} (x : Access) (hk : Keeps z s) :
    Keeps z (s.hostUnsupported x) := by
  unfold State.hostUnsupported
  try dsimp only
  repeat' first
    | with_reducible (first | exact hk | assumption | apply Keeps.ite | apply State.aer_keeps | apply State.answer_keeps)
    | fail_if_no_progress with_reducible apply Keeps.mk_upd
    | (intro _ _ _; try dsimp only)
    | intro _
    | split

theorem State.config_keeps {z s : State} (l : List (Nat × Nat)) (hk : Keeps z s) :
    Keeps z (s.config l) := by
  unfold State.config
  try dsimp only
  repeat' first
    | with_reducible (first | exact hk | assumption | apply Keeps.ite | apply State.aer_keeps | apply State.answer_keeps | apply State.sendPending_keeps | apply Keeps.foldl | apply Keeps.foldl_fst | apply Keeps.foldl_snd)
    | fail_if_no_progress with_reducible apply Keeps.mk_upd
    | (intro _ _ _; try dsimp only)
    | intro _
    | split

theorem State.unused_keeps {z s : State} (x : Access) (hk : Keeps z s) :
    Keeps z (s.unused x) := by
  unfold State.unused
  try dsimp only
  repeat' first
    | with_reducible (first | exact hk | assumption | apply Keeps.ite | apply State.answer_keeps | apply State.hostRejected_keeps | apply State.hostUnsupported_keeps)
    | fail_if_no_progress with_reducible apply Keeps.mk_upd
    | (intro _ _ _; try dsimp only)
    | intro _
    | split

theorem State.bar0_keeps {z s : State} (off : Nat) (x : Access) (hk : Keeps z s) :
    Keeps z (s.bar0 off x) := by
  unfold State.bar0
  try dsimp only
  repeat' first
    | with_reducible (first | exact hk | assumption | apply Keeps.ite | apply State.hostUnsupported_keeps | apply State.unused_keeps | apply State.regAccess_keeps | apply State.hostAnswer_keeps)
    | fail_if_no_progress with_reducible apply Keeps.mk_upd
    | (intro _ _ _; try dsimp only)
    | intro _
    | split

theorem State.stageAccess_keeps {z s : State} (off : Nat) (x : Access) (hk : Keeps z s) :
    Keeps z (s.stageAccess off x) := by
  unfold State.stageAccess
  try dsimp only
  repeat' first
    | with_reducible (first | exact hk | assumption | apply Keeps.ite | apply State.answer_keeps | apply State.hostUnsupported_keeps | apply Keeps.foldl | apply Keeps.foldl_fst | apply Keeps.foldl_snd)
    | fail_if_no_progress with_reducible apply Keeps.mk_upd
    | (intro _ _ _; try dsimp only)
    | intro _
    | split

theorem State.bar2Answer_keeps {z s : State} (x : Access) (hk : Keeps z s) :
    Keeps z (s.bar2Answer x) := by
  unfold State.bar2Answer
  try dsimp only
  repeat' first
    | with_reducible (first | exact hk | assumption | apply Keeps.ite | apply State.addSat_keeps | apply State.answer_keeps | apply State.hostAnswer_keeps)
    | fail_if_no_progress with_reducible apply Keeps.mk_upd
    | (intro _ _ _; try dsimp only)
    | intro _
    | split

theorem State.hostMem_keeps {z s : State} (a : Nat) (x : Access) (e : Errs) (hk : Keeps z s) :
    Keeps z (s.hostMem a x e) := by
  unfold State.hostMem
  try dsimp only
  repeat' first
    | with_reducible (first | exact hk | assumption | apply Keeps.ite | apply State.homeReq_keeps | apply State.answer_keeps | apply State.memAccess_keeps)
    | fail_if_no_progress with_reducible apply Keeps.mk_upd
    | (intro _ _ _; try dsimp only)
    | intro _
    | split

theorem State.bar2_keeps {z s : State} (off : Nat) (x : Access) (e : Errs) (hk : Keeps z s) :
    Keeps z (s.bar2 off x e) := by
  unfold State.bar2
  try dsimp only
  repeat' first
    | with_reducible (first | exact hk | assumption | apply Keeps.ite | apply State.hostUnsupported_keeps | apply State.stageAccess_keeps | apply State.answer_keeps | apply State.bar2Answer_keeps | apply State.hostMem_keeps)
    | fail_if_no_progress with_reducible apply Keeps.mk_upd
    | (intro _ _ _; try dsimp only)
    | intro _
    | split

theorem State.syncRead_keeps {z s : State} (hk : Keeps z s) :
    Keeps z s.syncRead := by
  unfold State.syncRead
  try dsimp only
  repeat' first
    | with_reducible (first | exact hk | assumption | apply Keeps.ite | apply State.answer_keeps)
    | fail_if_no_progress with_reducible apply Keeps.mk_upd
    | (intro _ _ _; try dsimp only)
    | intro _
    | split

end Sys2Proof.Machine
end

