-- ==== Sys2Proof/Laws/KeepsSec.lean ====
section
/-! SUPPORT. What the operations of Machine/Sec.lean keep (Laws/Keeps.lean). -/

namespace Sys2Proof.Machine

set_option linter.unusedTactic false
set_option linter.unreachableTactic false

theorem State.showMgmt_keeps {z s : State} (cmd status : Nat) (i3c : Bool) (hk : Keeps z s) :
    Keeps z (s.showMgmt cmd status i3c) := by
  unfold State.showMgmt
  try dsimp only
  repeat' first
    | with_reducible (first | exact hk | assumption | apply Keeps.ite | apply State.setFld_keeps)
    | fail_if_no_progress with_reducible apply Keeps.mk_upd
    | (intro _ _ _; try dsimp only)
    | intro _
    | split

theorem State.respond_keeps {z s : State} (q : Req) (cmd status : Nat) (b : List Byte) (hk : Keeps z s) :
    Keeps z (s.respond q cmd status b) := by
  unfold State.respond
  try dsimp only
  repeat' first
    | with_reducible (first | exact hk | assumption | apply Keeps.ite | apply State.showMgmt_keeps | apply State.answer_keeps)
    | fail_if_no_progress with_reducible apply Keeps.mk_upd
    | (intro _ _ _; try dsimp only)
    | intro _
    | split

theorem State.openStatus_keeps {z s : State} (hk : Keeps z s) :
    Keeps z s.openStatus.2 := by
  unfold State.openStatus
  try dsimp only
  repeat' first
    | with_reducible (first | exact hk | assumption | apply Keeps.ite | apply State.draw_keeps)
    | fail_if_no_progress with_reducible apply Keeps.mk_upd
    | (intro _ _ _; try dsimp only)
    | intro _
    | split

theorem State.refuseCmd_keeps {z s : State} (q : Req) (cmd : Nat) (hk : Keeps z s) :
    Keeps z (s.refuseCmd q cmd) := by
  unfold State.refuseCmd
  try dsimp only
  repeat' first
    | with_reducible (first | exact hk | assumption | apply Keeps.ite | apply State.openStatus_keeps | apply State.respond_keeps)
    | fail_if_no_progress with_reducible apply Keeps.mk_upd
    | (intro _ _ _; try dsimp only)
    | intro _
    | split

theorem State.freeBytes_keeps {z s : State} (n : Nat) (hk : Keeps z s) : Keeps z (s.freeBytes n).2 :=
  hk.trans ⟨rfl, Nat.le_succ _, ⟨[], by simp [State.freeBytes]⟩, id, id, .refl _⟩

theorem State.openCmd_keeps {z s : State} (q : Req) (cmd : Nat) (body : State → State) (hbody : ∀ u, Keeps z u → Keeps z (body u)) (hk : Keeps z s) :
    Keeps z (s.openCmd q cmd body) := by
  unfold State.openCmd
  try dsimp only
  repeat' first
    | with_reducible (first | exact hk | assumption | apply Keeps.ite | apply State.respond_keeps | apply State.refuseCmd_keeps | apply hbody)
    | fail_if_no_progress with_reducible apply Keeps.mk_upd
    | (intro _ _ _; try dsimp only)
    | intro _
    | split

theorem State.authCmd_keeps {z s : State} (q : Req) (cmd : Nat) (warn : Bool) (body : State → State) (hbody : ∀ u, Keeps z u → Keeps z (body u)) (hk : Keeps z s) :
    Keeps z (s.authCmd q cmd warn body) := by
  unfold State.authCmd
  try dsimp only
  repeat' first
    | with_reducible (first | exact hk | assumption | apply Keeps.ite | apply State.respond_keeps | apply State.refuseCmd_keeps | apply hbody)
    | fail_if_no_progress with_reducible apply Keeps.mk_upd
    | (intro _ _ _; try dsimp only)
    | intro _
    | split

theorem State.getStatus_keeps {z s : State} (q : Req) (hk : Keeps z s) :
    Keeps z (s.getStatus q) := by
  unfold State.getStatus
  try dsimp only
  repeat' first
    | with_reducible (first | exact hk | assumption | apply Keeps.ite | apply State.openCmd_keeps | apply State.respond_keeps)
    | fail_if_no_progress with_reducible apply Keeps.mk_upd
    | (intro _ _ _; try dsimp only)
    | intro _
    | split

theorem State.getNonce_keeps {z s : State} (q : Req) (hk : Keeps z s) :
    Keeps z (s.getNonce q) := by
  unfold State.getNonce
  try dsimp only
  repeat' first
    | with_reducible (first | exact hk | assumption | apply Keeps.ite | apply State.openCmd_keeps | apply State.freeBytes_keeps | apply State.respond_keeps)
    | fail_if_no_progress with_reducible apply Keeps.mk_upd
    | (intro _ _ _; try dsimp only)
    | intro _
    | split

theorem State.getLog_keeps {z s : State} (q : Req) (off : Nat) (hk : Keeps z s) :
    Keeps z (s.getLog q off) := by
  unfold State.getLog
  try dsimp only
  repeat' first
    | with_reducible (first | exact hk | assumption | apply Keeps.ite | apply State.openCmd_keeps | apply State.respond_keeps)
    | fail_if_no_progress with_reducible apply Keeps.mk_upd
    | (intro _ _ _; try dsimp only)
    | intro _
    | split

theorem State.flashWrite_keeps {z s : State} (q : Req) (off : Nat) (data : List Byte) (hk : Keeps z s) :
    Keeps z (s.flashWrite q off data) := by
  unfold State.flashWrite
  try dsimp only
  repeat' first
    | with_reducible (first | exact hk | assumption | apply Keeps.ite | apply State.authCmd_keeps | apply State.refuseCmd_keeps | apply State.respond_keeps | apply Keeps.foldl | apply Keeps.foldl_fst | apply Keeps.foldl_snd)
    | fail_if_no_progress with_reducible apply Keeps.mk_upd
    | (intro _ _ _; try dsimp only)
    | intro _
    | split

theorem State.flashCommit_keeps {z s : State} (q : Req) (region len : Nat) (sigOk : Bool) (hk : Keeps z s) :
    Keeps z (s.flashCommit q region len sigOk) := by
  unfold State.flashCommit
  try dsimp only
  repeat' first
    | with_reducible (first | exact hk | assumption | apply Keeps.ite | apply State.authCmd_keeps | apply State.showSec_keeps | apply State.respond_keeps | apply State.refuseCmd_keeps)
    | fail_if_no_progress with_reducible apply Keeps.mk_upd
    | (intro _ _ _; try dsimp only)
    | intro _
    | split

theorem State.endBusy_keeps {z s : State} (hk : Keeps z s) :
    Keeps z s.endBusy := by
  unfold State.endBusy
  try dsimp only
  repeat' first
    | with_reducible (first | exact hk | assumption | apply Keeps.ite | apply State.showSec_keeps | apply State.showMgmt_keeps)
    | fail_if_no_progress with_reducible apply Keeps.mk_upd
    | (intro _ _ _; try dsimp only)
    | intro _
    | split

theorem State.flashDone_keeps {z s : State} (hk : Keeps z s) :
    Keeps z s.flashDone := by
  unfold State.flashDone
  try dsimp only
  repeat' first
    | with_reducible (first | exact hk | assumption | apply Keeps.ite | apply State.endBusy_keeps)
    | fail_if_no_progress with_reducible apply Keeps.mk_upd
    | (intro _ _ _; try dsimp only)
    | intro _
    | split

theorem State.reconfig_keeps {z s : State} (hk : Keeps z s) :
    Keeps z s.reconfig := by
  unfold State.reconfig
  try dsimp only
  repeat' first
    | with_reducible (first | exact hk | assumption | apply Keeps.ite | apply State.extend_keeps | apply State.showSec_keeps)
    | fail_if_no_progress with_reducible apply Keeps.mk_upd
    | (intro _ _ _; try dsimp only)
    | intro _
    | split

/-- A free slot's key is blown. -/
theorem State.enrolled_keeps {z s : State} (i : Nat) (d : BitVec 384) (hi : s.fuses.valid.testBit i = false) (hk : Keeps z s) :
    Keeps z { s with fuses := { s.fuses with keys := setAt s.fuses.keys i (some d), valid := setBit s.fuses.valid i true } } := by
  refine hk.trans ⟨rfl, le_refl _, ⟨[], by simp⟩, id, id, ⟨fun j h => ?_, fun j h => ?_, fun _ h => h, le_refl _, le_refl _⟩⟩
  · simp [setBit_testBit, h]
  · exact setAt_other _ _ _ _ (fun e => by rw [e, h] at hi; cases hi)

theorem State.enroll_keeps {z s : State} (q : Req) (d : BitVec 384) (hk : Keeps z s) : Keeps z (s.enroll q d) := by
  unfold State.enroll
  refine State.authCmd_keeps _ _ _ _ (fun u hu => ?_) hk
  try dsimp only
  split
  · exact State.refuseCmd_keeps _ _ hu
  · rename_i i e
    have hi := List.find?_some e
    refine State.respond_keeps _ _ _ _ (State.reconfig_keeps (State.enrolled_keeps i d ?_ hu))
    revert hi
    cases u.fuses.valid.testBit i <;> simp

/-- A slot is revoked. -/
theorem State.revoked_keeps {z s : State} (i : Nat) (hk : Keeps z s) :
    Keeps z { s with fuses := { s.fuses with revoked := setBit s.fuses.revoked i true } } :=
  hk.trans ⟨rfl, le_refl _, ⟨[], by simp⟩, id, id,
    ⟨fun _ h => h, fun _ _ => rfl, fun j h => by simp [setBit_testBit, h], le_refl _, le_refl _⟩⟩

theorem State.revoke_keeps {z s : State} (q : Req) (slot : Nat) (hk : Keeps z s) : Keeps z (s.revoke q slot) := by
  unfold State.revoke
  refine State.authCmd_keeps _ _ _ _ (fun u hu => ?_) hk
  split
  · exact State.refuseCmd_keeps _ _ hu
  · exact State.respond_keeps _ _ _ _ (State.reconfig_keeps (State.revoked_keeps slot hu))

/-- The rollback minimum is raised. -/
theorem State.raised_keeps {z s : State} (v : Nat) (hv : s.fuses.rollback ≤ v) (hk : Keeps z s) :
    Keeps z { s with fuses := { s.fuses with rollback := v } } :=
  hk.trans ⟨rfl, le_refl _, ⟨[], by simp⟩, id, id, ⟨fun _ h => h, fun _ _ => rfl, fun _ h => h, hv, le_refl _⟩⟩

theorem State.advanceMin_keeps {z s : State} (q : Req) (v : Nat) (hk : Keeps z s) : Keeps z (s.advanceMin q v) := by
  unfold State.advanceMin
  refine State.authCmd_keeps _ _ _ _ (fun u hu => ?_) hk
  split
  · exact State.refuseCmd_keeps _ _ hu
  · rename_i h
    exact State.respond_keeps _ _ _ _ (State.reconfig_keeps (State.raised_keeps v (by omega) hu))

theorem State.secretPut_keeps {z s : State} (q : Req) (idx : Nat) (data : List Byte) (hk : Keeps z s) :
    Keeps z (s.secretPut q idx data) := by
  unfold State.secretPut
  try dsimp only
  repeat' first
    | with_reducible (first | exact hk | assumption | apply Keeps.ite | apply State.authCmd_keeps | apply State.refuseCmd_keeps | apply State.showSec_keeps | apply State.respond_keeps)
    | fail_if_no_progress with_reducible apply Keeps.mk_upd
    | (intro _ _ _; try dsimp only)
    | intro _
    | split

theorem State.zeroSecrets_keeps {z s : State} (hk : Keeps z s) :
    Keeps z s.zeroSecrets := by
  unfold State.zeroSecrets
  try dsimp only
  repeat' first
    | with_reducible (first | exact hk | assumption | apply Keeps.ite | apply State.zero_keeps)
    | fail_if_no_progress with_reducible apply Keeps.mk_upd
    | (intro _ _ _; try dsimp only)
    | intro _
    | split

theorem State.debugOpen_keeps {z s : State} (q : Req) (hk : Keeps z s) :
    Keeps z (s.debugOpen q) := by
  unfold State.debugOpen
  try dsimp only
  repeat' first
    | with_reducible (first | exact hk | assumption | apply Keeps.ite | apply State.authCmd_keeps | apply State.respond_keeps | apply State.zeroSecrets_keeps | apply State.showSec_keeps)
    | fail_if_no_progress with_reducible apply Keeps.mk_upd
    | (intro _ _ _; try dsimp only)
    | intro _
    | split

theorem State.debugOpenDone_keeps {z s : State} (hk : Keeps z s) :
    Keeps z s.debugOpenDone := by
  unfold State.debugOpenDone
  try dsimp only
  repeat' first
    | with_reducible (first | exact hk | assumption | apply Keeps.ite | apply State.eraseStore_keeps | apply State.endBusy_keeps | apply State.setFld_keeps)
    | fail_if_no_progress with_reducible apply Keeps.mk_upd
    | (intro _ _ _; try dsimp only)
    | intro _
    | split

theorem State.moduleReset_keeps {z s : State} (q : Req) (hk : Keeps z s) :
    Keeps z (s.moduleReset q) := by
  unfold State.moduleReset
  try dsimp only
  repeat' first
    | with_reducible (first | exact hk | assumption | apply Keeps.ite | apply State.authCmd_keeps | apply State.respond_keeps | apply State.securityReset_keeps)
    | fail_if_no_progress with_reducible apply Keeps.mk_upd
    | (intro _ _ _; try dsimp only)
    | intro _
    | split

theorem State.nonceExpiry_keeps {z s : State} (hk : Keeps z s) :
    Keeps z s.nonceExpiry := by
  unfold State.nonceExpiry
  try dsimp only
  repeat' first
    | with_reducible (first | exact hk | assumption | apply Keeps.ite)
    | fail_if_no_progress with_reducible apply Keeps.mk_upd
    | (intro _ _ _; try dsimp only)
    | intro _
    | split

end Sys2Proof.Machine
end

