-- ==== Sys2Proof/Laws/KeepsSpdm.lean ====
section
/-! SUPPORT. What the operations of Machine/Spdm.lean keep (Laws/Keeps.lean). -/

namespace Sys2Proof.Machine

set_option linter.unusedTactic false
set_option linter.unreachableTactic false

theorem State.setSp_keeps {z s : State} (i3c : Bool) (v : Spdm) (hk : Keeps z s) :
    Keeps z (s.setSp i3c v) := by
  unfold State.setSp
  try dsimp only
  repeat' first
    | with_reducible (first | exact hk | assumption | apply Keeps.ite)
    | fail_if_no_progress with_reducible apply Keeps.mk_upd
    | (intro _ _ _; try dsimp only)
    | intro _
    | split

theorem State.spErr_keeps {z s : State} (code : Nat) (hk : Keeps z s) :
    Keeps z (s.spErr code) := by
  unfold State.spErr
  try dsimp only
  repeat' first
    | with_reducible (first | exact hk | assumption | apply Keeps.ite | apply State.answer_keeps)
    | fail_if_no_progress with_reducible apply Keeps.mk_upd
    | (intro _ _ _; try dsimp only)
    | intro _
    | split

theorem State.spReq_keeps {z s : State} (i3c : Bool) (phase : Nat) (body : State → Spdm → State) (hbody : ∀ u x1, Keeps z u → Keeps z (body u x1)) (hk : Keeps z s) :
    Keeps z (s.spReq i3c phase body) := by
  unfold State.spReq
  try dsimp only
  repeat' first
    | with_reducible (first | exact hk | assumption | apply Keeps.ite | apply State.spErr_keeps | apply hbody)
    | fail_if_no_progress with_reducible apply Keeps.mk_upd
    | (intro _ _ _; try dsimp only)
    | intro _
    | split

theorem State.spSess_keeps {z s : State} (i3c : Bool) (body : State → Spdm → State) (hbody : ∀ u x1, Keeps z u → Keeps z (body u x1)) (hk : Keeps z s) :
    Keeps z (s.spSess i3c body) := by
  unfold State.spSess
  try dsimp only
  repeat' first
    | with_reducible (first | exact hk | assumption | apply Keeps.ite | apply State.spReq_keeps | apply State.spErr_keeps | apply hbody)
    | fail_if_no_progress with_reducible apply Keeps.mk_upd
    | (intro _ _ _; try dsimp only)
    | intro _
    | split

theorem State.spSigned_keeps {z s : State} (code : Nat) (b : List Byte) (hk : Keeps z s) :
    Keeps z (s.spSigned code b) := by
  unfold State.spSigned
  try dsimp only
  repeat' first
    | with_reducible (first | exact hk | assumption | apply Keeps.ite | apply State.freeBytes_keeps | apply State.answer_keeps)
    | fail_if_no_progress with_reducible apply Keeps.mk_upd
    | (intro _ _ _; try dsimp only)
    | intro _
    | split

end Sys2Proof.Machine
end

