-- ==== Sys2Proof/Laws/Runs.lean ====
section
/-! SUPPORT. What every command keeps: exec answers a next state that Keeps relates to its first. -/

namespace Sys2Proof.Machine

set_option linter.unusedTactic false
set_option linter.unreachableTactic false

/-- The outcome is a next state, which keeps what every command keeps. -/
def Kept (s : State) (o : Host.Outcome State Fault Refusal) : Prop := ∃ t, o = .next t ∧ Keeps s t

theorem Keeps.got {z t : State} {b : Bool} {p : State × Bool} (e : some p = some (t, b)) (h : Keeps z p.1) : Keeps z t := by
  cases e; exact h

theorem execProgramFetch_kept (k : Fin 16) (x : Strm) (s : State) : Kept s (execProgramFetch k x s) :=
  ⟨_, rfl, by apply State.programFetch_keeps; exact .refl s⟩

theorem execNop_kept (k : Fin 16) (x : Strm) (s : State) : Kept s (execNop k x s) := by
  refine ⟨_, rfl, ?_⟩
  have hk := Keeps.refl s
  repeat' first
    | with_reducible (first | assumption | apply Keeps.ite | apply State.withHead_keeps | apply State.dispatchDone_keeps)
    | (intro _ _ _; try dsimp only)
    | intro _
    | split

theorem execJump_kept (k : Fin 16) (x : Strm) (s : State) : Kept s (execJump k x s) := by
  refine ⟨_, rfl, ?_⟩
  have hk := Keeps.refl s
  repeat' first
    | with_reducible (first | assumption | apply Keeps.ite | apply State.withHead_keeps | apply State.raiseFault_keeps | apply State.dispatchDone_keeps)
    | (intro _ _ _; try dsimp only)
    | intro _
    | split

theorem execMbegin_kept (k : Fin 16) (s : State) : Kept s (execMbegin k s) :=
  ⟨_, rfl, by apply State.mbegin_keeps; exact .refl s⟩

theorem execMend_kept (k : Fin 16) (s : State) : Kept s (execMend k s) :=
  ⟨_, rfl, by apply State.mend_keeps; exact .refl s⟩

theorem execSeal_kept (k : Fin 16) (s : State) : Kept s (execSeal k s) :=
  ⟨_, rfl, by apply State.sealBegin_keeps; exact .refl s⟩

theorem execSopen_kept (k : Fin 16) (x : Strm) (s : State) : Kept s (execSopen k x s) :=
  ⟨_, rfl, by apply State.sopen_keeps; exact .refl s⟩

theorem execSclose_kept (k : Fin 16) (x : Strm) (s : State) : Kept s (execSclose k x s) :=
  ⟨_, rfl, by apply State.sclose_keeps; exact .refl s⟩

theorem execScloseIssue_kept (k : Fin 16) (s : State) : Kept s (execScloseIssue k s) :=
  ⟨_, rfl, by apply State.scloseIssue_keeps; exact .refl s⟩

theorem execSpop_kept (k : Fin 16) (s : State) : Kept s (execSpop k s) :=
  ⟨_, rfl, by apply State.spop_keeps; exact .refl s⟩

theorem execSdrop_kept (k : Fin 16) (s : State) : Kept s (execSdrop k s) :=
  ⟨_, rfl, by apply State.sdrop_keeps; exact .refl s⟩

theorem execSbind_kept (k : Fin 16) (s : State) : Kept s (execSbind k s) :=
  ⟨_, rfl, by apply State.sbind_keeps; exact .refl s⟩

theorem execAsuSegmentPush_kept (d : Fin 4) (k : Fin 16) (errs : Errs) (s : State) : Kept s (execAsuSegmentPush d k errs s) :=
  ⟨_, rfl, by apply State.segmentPush_keeps; exact .refl s⟩

theorem execAsuSegmentTransferDone_kept (d : Fin 4) (k : Fin 16) (errs : Errs) (s : State) : Kept s (execAsuSegmentTransferDone d k errs s) :=
  ⟨_, rfl, by apply State.segmentDone_keeps; exact .refl s⟩

theorem execStart_kept (m : Master) (rivals : List Master) (k : Fin 16) (s : State) : Kept s (execStart m rivals k s) := by
  refine ⟨_, rfl, ?_⟩
  have hk := Keeps.refl s
  repeat' first
    | with_reducible (first | assumption | apply Keeps.ite | apply State.command_keeps | apply State.psqDo_keeps)
    | (intro _ _ _; try dsimp only)
    | intro _
    | split

theorem execStop_kept (m : Master) (rivals : List Master) (k : Fin 16) (s : State) : Kept s (execStop m rivals k s) := by
  refine ⟨_, rfl, ?_⟩
  have hk := Keeps.refl s
  repeat' first
    | with_reducible (first | assumption | apply Keeps.ite | apply State.command_keeps | apply State.psqDo_keeps)
    | (intro _ _ _; try dsimp only)
    | intro _
    | split

theorem execResume_kept (m : Master) (rivals : List Master) (k : Fin 16) (skip : Nat) (s : State) : Kept s (execResume m rivals k skip s) := by
  refine ⟨_, rfl, ?_⟩
  have hk := Keeps.refl s
  repeat' first
    | with_reducible (first | assumption | apply Keeps.ite | apply State.command_keeps | apply State.psqDo_keeps)
    | (intro _ _ _; try dsimp only)
    | intro _
    | split

theorem execRestore_kept (m : Master) (rivals : List Master) (k : Fin 16) (s : State) : Kept s (execRestore m rivals k s) := by
  refine ⟨_, rfl, ?_⟩
  have hk := Keeps.refl s
  repeat' first
    | with_reducible (first | assumption | apply Keeps.ite | apply State.command_keeps | apply State.psqDo_keeps)
    | (intro _ _ _; try dsimp only)
    | intro _
    | split

theorem execPsqPost_kept (m : Master) (k : Fin 16) (mask : Nat) (s : State) : Kept s (execPsqPost m k mask s) := by
  refine ⟨_, rfl, ?_⟩
  have hk := Keeps.refl s
  repeat' first
    | with_reducible (first | assumption | apply Keeps.ite | apply State.command_keeps | apply State.extPost_keeps)
    | (intro _ _ _; try dsimp only)
    | intro _
    | split

theorem execPsqXlimitWrite_kept (m : Master) (k : Fin 16) (x : Strm) (v : Nat) (s : State) : Kept s (execPsqXlimitWrite m k x v s) := by
  refine ⟨_, rfl, ?_⟩
  have hk := Keeps.refl s
  repeat' first
    | with_reducible (first | assumption | apply Keeps.ite | apply State.command_keeps | apply State.limitWrite_keeps)
    | (intro _ _ _; try dsimp only)
    | intro _
    | split

theorem execDvuRow_kept (e : Fin 32) (wait away : Nat) (errs : Errs) (s : State) : Kept s (execDvuRow e wait away errs s) :=
  ⟨_, rfl, by apply State.dvuRow_keeps; exact .refl s⟩

theorem execVx_kept (k : Fin 16) (x : Strm) (s : State) : Kept s (execVx k x s) :=
  ⟨_, rfl, by apply State.vx_keeps; exact .refl s⟩

theorem execVxComplete_kept (e : Fin 32) (s : State) : Kept s (execVxComplete e s) :=
  ⟨_, rfl, by apply State.vxComplete_keeps; exact .refl s⟩

theorem execMxf_kept (k : Fin 16) (x : Strm) (s : State) : Kept s (execMxf k x s) :=
  ⟨_, rfl, by apply State.mxDispatch_keeps; exact .refl s⟩

theorem execMxb_kept (k : Fin 16) (x : Strm) (s : State) : Kept s (execMxb k x s) :=
  ⟨_, rfl, by apply State.mxDispatch_keeps; exact .refl s⟩

theorem execMxw_kept (k : Fin 16) (x : Strm) (s : State) : Kept s (execMxw k x s) :=
  ⟨_, rfl, by apply State.mxDispatch_keeps; exact .refl s⟩

theorem execMxIssue_kept (e : Fin 32) (latch feed drain token : Nat) (released : Bool) (errs : Errs) (s : State) : Kept s (execMxIssue e latch feed drain token released errs s) :=
  ⟨_, rfl, by apply State.mxIssue_keeps; exact .refl s⟩

theorem execMxComplete_kept (e : Fin 32) (s : State) : Kept s (execMxComplete e s) :=
  ⟨_, rfl, by apply State.mxComplete_keeps; exact .refl s⟩

theorem execQupd_kept (k : Fin 16) (s : State) : Kept s (execQupd k s) :=
  ⟨_, rfl, by apply State.quayTensorOp_keeps; exact .refl s⟩

theorem execQbind_kept (k : Fin 16) (s : State) : Kept s (execQbind k s) :=
  ⟨_, rfl, by apply State.qbind_keeps; exact .refl s⟩

theorem execQclr_kept (k : Fin 16) (s : State) : Kept s (execQclr k s) :=
  ⟨_, rfl, by apply State.quayTensorOp_keeps; exact .refl s⟩

theorem execQemit_kept (k : Fin 16) (s : State) : Kept s (execQemit k s) :=
  ⟨_, rfl, by apply State.quayTensorOp_keeps; exact .refl s⟩

theorem execQuayReserve_kept (e : Fin 32) (wait : Nat) (s : State) : Kept s (execQuayReserve e wait s) :=
  ⟨_, rfl, by apply State.quayReserve_keeps; exact .refl s⟩

theorem execQuayReservationGrant_kept (q : Fin 16) (wait : Nat) (s : State) : Kept s (execQuayReservationGrant q wait s) :=
  ⟨_, rfl, by apply State.quayGrant_keeps; exact .refl s⟩

theorem execQuaySliceArrive_kept (e : Fin 32) (s : State) : Kept s (execQuaySliceArrive e s) :=
  ⟨_, rfl, by apply State.sliceArrive_keeps; exact .refl s⟩

theorem execReducedBlockArrive_kept (q : Fin 16) (s : State) : Kept s (execReducedBlockArrive q s) :=
  ⟨_, rfl, by apply State.blockArrive_keeps; exact .refl s⟩

theorem execPvOp_kept (k : Fin 16) (x : Strm) (s : State) : Kept s (execPvOp k x s) := by
  refine ⟨_, rfl, ?_⟩
  have hk := Keeps.refl s
  repeat' first
    | with_reducible (first | assumption | apply Keeps.ite | apply State.pvHead_keeps)
    | (intro _ _ _; try dsimp only)
    | intro _
    | split

theorem execPvLd_kept (k : Fin 16) (x : Strm) (s : State) : Kept s (execPvLd k x s) := by
  refine ⟨_, rfl, ?_⟩
  have hk := Keeps.refl s
  repeat' first
    | with_reducible (first | assumption | apply Keeps.ite | apply State.pvHead_keeps)
    | (intro _ _ _; try dsimp only)
    | intro _
    | split

theorem execPvSt_kept (k : Fin 16) (x : Strm) (s : State) : Kept s (execPvSt k x s) := by
  refine ⟨_, rfl, ?_⟩
  have hk := Keeps.refl s
  repeat' first
    | with_reducible (first | assumption | apply Keeps.ite | apply State.pvHead_keeps)
    | (intro _ _ _; try dsimp only)
    | intro _
    | split

theorem execPvSplat_kept (k : Fin 16) (x : Strm) (s : State) : Kept s (execPvSplat k x s) := by
  refine ⟨_, rfl, ?_⟩
  have hk := Keeps.refl s
  repeat' first
    | with_reducible (first | assumption | apply Keeps.ite | apply State.pvHead_keeps)
    | (intro _ _ _; try dsimp only)
    | intro _
    | split

theorem execPvLred_kept (k : Fin 16) (x : Strm) (s : State) : Kept s (execPvLred k x s) := by
  refine ⟨_, rfl, ?_⟩
  have hk := Keeps.refl s
  repeat' first
    | with_reducible (first | assumption | apply Keeps.ite | apply State.pvHead_keeps)
    | (intro _ _ _; try dsimp only)
    | intro _
    | split

theorem execPvBcast_kept (k : Fin 16) (x : Strm) (s : State) : Kept s (execPvBcast k x s) := by
  refine ⟨_, rfl, ?_⟩
  have hk := Keeps.refl s
  repeat' first
    | with_reducible (first | assumption | apply Keeps.ite | apply State.pvHead_keeps)
    | (intro _ _ _; try dsimp only)
    | intro _
    | split

theorem execPvCmpgt_kept (k : Fin 16) (x : Strm) (s : State) : Kept s (execPvCmpgt k x s) := by
  refine ⟨_, rfl, ?_⟩
  have hk := Keeps.refl s
  repeat' first
    | with_reducible (first | assumption | apply Keeps.ite | apply State.pvHead_keeps)
    | (intro _ _ _; try dsimp only)
    | intro _
    | split

theorem execPvSel_kept (k : Fin 16) (x : Strm) (s : State) : Kept s (execPvSel k x s) := by
  refine ⟨_, rfl, ?_⟩
  have hk := Keeps.refl s
  repeat' first
    | with_reducible (first | assumption | apply Keeps.ite | apply State.pvHead_keeps)
    | (intro _ _ _; try dsimp only)
    | intro _
    | split

theorem execPvCommit_kept (p : Fin 8) (errs : Errs) (s : State) : Kept s (execPvCommit p errs s) :=
  ⟨_, rfl, by apply State.pvCommit_keeps; exact .refl s⟩

theorem execPvuAssist_kept (p : Fin 8) (errs : Errs) (s : State) : Kept s (execPvuAssist p errs s) :=
  ⟨_, rfl, by apply State.pvuAssist_keeps; exact .refl s⟩

theorem execPtbArm_kept (m : Master) (v : Word) (s : State) : Kept s (execPtbArm m v s) := by
  refine ⟨_, rfl, ?_⟩
  have hk := Keeps.refl s
  repeat' first
    | with_reducible (first | assumption | apply Keeps.ite | apply State.command_keeps | apply State.ptbArm_keeps)
    | (intro _ _ _; try dsimp only)
    | intro _
    | split

theorem execTsend_kept (k : Fin 16) (x : Strm) (s : State) : Kept s (execTsend k x s) :=
  ⟨_, rfl, by apply State.tsend_keeps; exact .refl s⟩

theorem execTsendIssue_kept (k : Fin 16) (s : State) : Kept s (execTsendIssue k s) :=
  ⟨_, rfl, by apply State.tsendIssue_keeps; exact .refl s⟩

theorem execTsendComplete_kept (ring : Fin 16) (dir : RDir) (tag : Fin 16) (s : State) : Kept s (execTsendComplete ring dir tag s) := by
  refine ⟨_, rfl, ?_⟩
  have hk := Keeps.refl s
  repeat' first
    | with_reducible (first | assumption | apply Keeps.ite | apply State.tsendComplete_keeps)
    | (intro _ _ _; try dsimp only)
    | intro _
    | split

theorem execTsendTimeout_kept (ring : Fin 16) (dir : RDir) (tag : Fin 16) (s : State) : Kept s (execTsendTimeout ring dir tag s) := by
  refine ⟨_, rfl, ?_⟩
  have hk := Keeps.refl s
  repeat' first
    | with_reducible (first | assumption | apply Keeps.ite | apply State.tsendTimeout_keeps)
    | (intro _ _ _; try dsimp only)
    | intro _
    | split

theorem execTransferBarge_kept (port : Fin 12) (cls : Fin 4) (s : State) : Kept s (execTransferBarge port cls s) :=
  ⟨_, rfl, by apply State.takeBarge_keeps; exact .refl s⟩

theorem execDataFrame_kept (port : Fin 12) (b : List Byte) (s : State) : Kept s (execDataFrame port b s) :=
  ⟨_, rfl, by apply State.dataFrame_keeps; exact .refl s⟩

theorem execCtrlFrame_kept (port : Fin 12) (b : List Byte) (s : State) : Kept s (execCtrlFrame port b s) :=
  ⟨_, rfl, by apply State.ctrlFrame_keeps; exact .refl s⟩

theorem execFullTraining_kept (port : Fin 12) (info : TrainInfo) (s : State) : Kept s (execFullTraining port info s) := by
  refine ⟨_, rfl, ?_⟩
  have hk := Keeps.refl s
  repeat' first
    | with_reducible (first | assumption | apply Keeps.ite | apply State.trainFull_keeps)
    | (intro _ _ _; try dsimp only)
    | intro _
    | split

theorem execTrainingRetry_kept (port : Fin 12) (info : TrainInfo) (s : State) : Kept s (execTrainingRetry port info s) := by
  refine ⟨_, rfl, ?_⟩
  have hk := Keeps.refl s
  repeat' first
    | with_reducible (first | assumption | apply Keeps.ite | apply State.trainFull_keeps)
    | (intro _ _ _; try dsimp only)
    | intro _
    | split

theorem execFastRetrain_kept (port : Fin 12) (info : TrainInfo) (s : State) : Kept s (execFastRetrain port info s) :=
  ⟨_, rfl, by apply State.trainFast_keeps; exact .refl s⟩

theorem execFrameLock_kept (port : Fin 12) (s : State) : Kept s (execFrameLock port s) :=
  ⟨_, rfl, by apply State.frameLock_keeps; exact .refl s⟩

theorem execLaneLockLoss_kept (port : Fin 12) (lane : Fin 8) (s : State) : Kept s (execLaneLockLoss port lane s) := by
  refine ⟨_, rfl, ?_⟩
  have hk := Keeps.refl s
  repeat' first
    | with_reducible (first | assumption | apply Keeps.ite | apply State.setPt_keeps | apply State.startRetrain_keeps)
    | (intro _ _ _; try dsimp only)
    | intro _
    | split

theorem execPortDown_kept (port : Fin 12) (s : State) : Kept s (execPortDown port s) := by
  refine ⟨_, rfl, ?_⟩
  have hk := Keeps.refl s
  repeat' first
    | with_reducible (first | assumption | apply Keeps.ite | apply State.portDown_keeps)
    | (intro _ _ _; try dsimp only)
    | intro _
    | split

theorem execTakePortDown_kept (m : Master) (rivals : List Master) (port : Fin 12) (s : State) : Kept s (execTakePortDown m rivals port s) := by
  refine ⟨_, rfl, ?_⟩
  have hk := Keeps.refl s
  repeat' first
    | with_reducible (first | assumption | apply Keeps.ite | apply State.command_keeps | apply State.portDown_keeps)
    | (intro _ _ _; try dsimp only)
    | intro _
    | split

theorem execTwpCmdFastRetrain_kept (m : Master) (rivals : List Master) (port : Fin 12) (s : State) : Kept s (execTwpCmdFastRetrain m rivals port s) := by
  refine ⟨_, rfl, ?_⟩
  have hk := Keeps.refl s
  repeat' first
    | with_reducible (first | assumption | apply Keeps.ite | apply State.command_keeps | apply State.cmdFast_keeps)
    | (intro _ _ _; try dsimp only)
    | intro _
    | split

theorem execTwpCmdFullTraining_kept (m : Master) (rivals : List Master) (port : Fin 12) (s : State) : Kept s (execTwpCmdFullTraining m rivals port s) := by
  refine ⟨_, rfl, ?_⟩
  have hk := Keeps.refl s
  repeat' first
    | with_reducible (first | assumption | apply Keeps.ite | apply State.command_keeps | apply State.cmdFull_keeps)
    | (intro _ _ _; try dsimp only)
    | intro _
    | split

theorem execTwpWinEnable_kept (m : Master) (w : Fin 64) (v : Word) (s : State) : Kept s (execTwpWinEnable m w v s) := by
  refine ⟨_, rfl, ?_⟩
  have hk := Keeps.refl s
  repeat' first
    | with_reducible (first | assumption | apply Keeps.ite | apply State.command_keeps | apply State.winWrite_keeps)
    | (intro _ _ _; try dsimp only)
    | intro _
    | split

theorem execSealLatch_kept (k : Fin 16) (s : State) : Kept s (execSealLatch k s) := by
  refine ⟨_, rfl, ?_⟩
  have hk := Keeps.refl s
  repeat' first
    | with_reducible (first | assumption | apply Keeps.ite | apply State.sealLatch_keeps | apply State.handoff_keeps)
    | (intro _ _ _; try dsimp only)
    | intro _
    | split

theorem execRjob_kept (k : Fin 16) (s : State) : Kept s (execRjob k s) :=
  ⟨_, rfl, by apply State.rjob_keeps; exact .refl s⟩

theorem execRjobIssue_kept (k : Fin 16) (errs : Errs) (s : State) : Kept s (execRjobIssue k errs s) :=
  ⟨_, rfl, by apply State.rjobIssue_keeps; exact .refl s⟩

theorem execQuayFold_kept (q : Fin 16) (held : Nat) (errs : Errs) (s : State) : Kept s (execQuayFold q held errs s) := by
  refine ⟨_, rfl, ?_⟩
  have hk := Keeps.refl s
  repeat' first
    | with_reducible (first | assumption | apply Keeps.ite | apply State.quayFold_keeps | apply State.startJobs_keeps)
    | (intro _ _ _; try dsimp only)
    | intro _
    | split

theorem execQuayOpComplete_kept (k : Fin 16) (held : Nat) (errs : Errs) (s : State) : Kept s (execQuayOpComplete k held errs s) := by
  refine ⟨_, rfl, ?_⟩
  have hk := Keeps.refl s
  repeat' first
    | with_reducible (first | assumption | apply Keeps.ite | apply State.quayOpComplete_keeps | apply State.startJobs_keeps)
    | (intro _ _ _; try dsimp only)
    | intro _
    | split

theorem execQuayBoundUpdate_kept (q : Fin 16) (errs : Errs) (s : State) : Kept s (execQuayBoundUpdate q errs s) := by
  refine ⟨_, rfl, ?_⟩
  have hk := Keeps.refl s
  repeat' first
    | with_reducible (first | assumption | apply Keeps.ite | apply State.boundUpdate_keeps | apply State.startJobs_keeps)
    | (intro _ _ _; try dsimp only)
    | intro _
    | split

theorem execFarAtomic_kept (q : Fin 16) (errs : Errs) (s : State) : Kept s (execFarAtomic q errs s) := by
  refine ⟨_, rfl, ?_⟩
  have hk := Keeps.refl s
  repeat' first
    | with_reducible (first | assumption | apply Keeps.ite | apply State.farAtomic_keeps | apply State.startJobs_keeps)
    | (intro _ _ _; try dsimp only)
    | intro _
    | split

theorem execXread_kept (k : Fin 16) (s : State) : Kept s (execXread k s) := by
  refine ⟨_, rfl, ?_⟩
  have hk := Keeps.refl s
  repeat' first
    | with_reducible (first | assumption | apply Keeps.ite | apply State.xreadHead_keeps | apply State.xreadEnd_keeps)
    | (intro _ _ _; try dsimp only)
    | intro _
    | split

theorem execSealBarge_kept (port : Fin 12) (s : State) : Kept s (execSealBarge port s) :=
  ⟨_, rfl, by apply State.takeSeal_keeps; exact .refl s⟩

theorem execExchangeTimeout_kept (k : Fin 16) (s : State) : Kept s (execExchangeTimeout k s) :=
  ⟨_, rfl, by apply State.xchTimeout_keeps; exact .refl s⟩

theorem execScatter8_kept (port : Fin 12) (errs : Errs) (s : State) : Kept s (execScatter8 port errs s) :=
  ⟨_, rfl, by apply State.takeScatter_keeps; exact .refl s⟩

theorem execScatter16_kept (port : Fin 12) (errs : Errs) (s : State) : Kept s (execScatter16 port errs s) :=
  ⟨_, rfl, by apply State.takeScatter_keeps; exact .refl s⟩

theorem execScatter32_kept (port : Fin 12) (errs : Errs) (s : State) : Kept s (execScatter32 port errs s) :=
  ⟨_, rfl, by apply State.takeScatter_keeps; exact .refl s⟩

theorem execReq16_kept (port : Fin 12) (errs : Errs) (s : State) : Kept s (execReq16 port errs s) :=
  ⟨_, rfl, by apply State.takeReq_keeps; exact .refl s⟩

theorem execReq32_kept (port : Fin 12) (errs : Errs) (s : State) : Kept s (execReq32 port errs s) :=
  ⟨_, rfl, by apply State.takeReq_keeps; exact .refl s⟩

theorem execGather_kept (port : Fin 12) (s : State) : Kept s (execGather port s) :=
  ⟨_, rfl, by apply State.takeGather_keeps; exact .refl s⟩

theorem execGatherSend_kept (k : Fin 16) (s : State) : Kept s (execGatherSend k s) :=
  ⟨_, rfl, by apply State.gatherSend_keeps; exact .refl s⟩

theorem execJobClose_kept (j : Fin 64) (s : State) : Kept s (execJobClose j s) :=
  ⟨_, rfl, by apply State.jobClose_keeps; exact .refl s⟩

theorem execJobTimeout_kept (j : Fin 64) (s : State) : Kept s (execJobTimeout j s) :=
  ⟨_, rfl, by apply State.jobTimeout_keeps; exact .refl s⟩

theorem execKextend_kept (k : Fin 16) (x : Strm) (s : State) : Kept s (execKextend k x s) :=
  ⟨_, rfl, by apply State.kvOp_keeps; exact .refl s⟩

theorem execKwrite_kept (k : Fin 16) (x : Strm) (s : State) : Kept s (execKwrite k x s) :=
  ⟨_, rfl, by apply State.kvOp_keeps; exact .refl s⟩

theorem execKgather_kept (k : Fin 16) (x : Strm) (s : State) : Kept s (execKgather k x s) :=
  ⟨_, rfl, by apply State.kvOp_keeps; exact .refl s⟩

theorem execKshare_kept (k : Fin 16) (x : Strm) (s : State) : Kept s (execKshare k x s) :=
  ⟨_, rfl, by apply State.kvOp_keeps; exact .refl s⟩

theorem execKfree_kept (k : Fin 16) (x : Strm) (s : State) : Kept s (execKfree k x s) :=
  ⟨_, rfl, by apply State.kvOp_keeps; exact .refl s⟩

theorem execKbasket_kept (k : Fin 16) (x : Strm) (s : State) : Kept s (execKbasket k x s) :=
  ⟨_, rfl, by apply State.kvOp_keeps; exact .refl s⟩

theorem execKgatherUnmoor_kept (k : Fin 16) (s : State) : Kept s (execKgatherUnmoor k s) :=
  ⟨_, rfl, by apply State.gatherPage_keeps; exact .refl s⟩

theorem execKvComplete_kept (k : Fin 16) (s : State) : Kept s (execKvComplete k s) :=
  ⟨_, rfl, by apply State.kvComplete_keeps; exact .refl s⟩

theorem execInit_kept (m : Master) (rivals : List Master) (d : Fin 4) (k : Fin 16) (s : State) : Kept s (execInit m rivals d k s) := by
  refine ⟨_, rfl, ?_⟩
  have hk := Keeps.refl s
  repeat' first
    | with_reducible (first | assumption | apply Keeps.ite | apply State.kvCmd_keeps | apply State.kvInit_keeps)
    | (intro _ _ _; try dsimp only)
    | intro _
    | split

theorem execRelease_kept (m : Master) (rivals : List Master) (d : Fin 4) (k : Fin 16) (s : State) : Kept s (execRelease m rivals d k s) := by
  refine ⟨_, rfl, ?_⟩
  have hk := Keeps.refl s
  repeat' first
    | with_reducible (first | assumption | apply Keeps.ite | apply State.kvCmd_keeps | apply State.setFld_keeps)
    | (intro _ _ _; try dsimp only)
    | intro _
    | split

theorem execSdropIssue_kept (k : Fin 16) (s : State) : Kept s (execSdropIssue k s) :=
  ⟨_, rfl, by apply State.sdropIssue_keeps; exact .refl s⟩

theorem execTcxLaunch_kept (m : Master) (rivals : List Master) (d : Fin 4) (core : Fin 64) (thread : Fin 8) (s : State) : Kept s (execTcxLaunch m rivals d core thread s) := by
  refine ⟨_, rfl, ?_⟩
  have hk := Keeps.refl s
  repeat' first
    | with_reducible (first | assumption | apply Keeps.ite | apply State.command_keeps | apply State.launch_keeps)
    | (intro _ _ _; try dsimp only)
    | intro _
    | split

theorem execTcxHalt_kept (m : Master) (rivals : List Master) (d : Fin 4) (core : Fin 64) (thread : Fin 8) (s : State) : Kept s (execTcxHalt m rivals d core thread s) := by
  refine ⟨_, rfl, ?_⟩
  have hk := Keeps.refl s
  repeat' first
    | with_reducible (first | assumption | apply Keeps.ite | apply State.command_keeps | apply State.haltCmd_keeps)
    | (intro _ _ _; try dsimp only)
    | intro _
    | split

theorem execWfi_kept (t : Fin 2048) (lead : List (Nat × Nat)) (s : State) : Kept s (execWfi t lead s) :=
  ⟨_, rfl, by apply State.wfi_keeps; exact .refl s⟩

theorem execRtAcq_kept (t : Fin 2048) (lead : List (Nat × Nat)) (word : Nat) (s : State) : Kept s (execRtAcq t lead word s) :=
  ⟨_, rfl, by apply State.rtAcq_keeps; exact .refl s⟩

theorem execRtRel_kept (t : Fin 2048) (lead : List (Nat × Nat)) (word : Nat) (s : State) : Kept s (execRtRel t lead word s) :=
  ⟨_, rfl, by apply State.rtRel_keeps; exact .refl s⟩

theorem execRtTpost_kept (t : Fin 2048) (lead : List (Nat × Nat)) (word : Nat) (s : State) : Kept s (execRtTpost t lead word s) :=
  ⟨_, rfl, by apply State.rtTpost_keeps; exact .refl s⟩

theorem execRtTtake_kept (t : Fin 2048) (lead : List (Nat × Nat)) (word : Nat) (s : State) : Kept s (execRtTtake t lead word s) :=
  ⟨_, rfl, by apply State.rtTtake_keeps; exact .refl s⟩

theorem execTtakeServe_kept (k : Fin 16) (s : State) : Kept s (execTtakeServe k s) :=
  ⟨_, rfl, by apply State.ttakeServe_keeps; exact .refl s⟩

theorem execRtTwait_kept (t : Fin 2048) (lead : List (Nat × Nat)) (word : Nat) (s : State) : Kept s (execRtTwait t lead word s) :=
  ⟨_, rfl, by apply State.rtTwait_keeps; exact .refl s⟩

theorem execTwaitReread_kept (t : Fin 2048) (s : State) : Kept s (execTwaitReread t s) :=
  ⟨_, rfl, by apply State.twaitReread_keeps; exact .refl s⟩

theorem execRtApost_kept (t : Fin 2048) (lead : List (Nat × Nat)) (word : Nat) (s : State) : Kept s (execRtApost t lead word s) :=
  ⟨_, rfl, by apply State.rtApost_keeps; exact .refl s⟩

theorem execRtSdesc_kept (t : Fin 2048) (lead : List (Nat × Nat)) (word : Nat) (s : State) : Kept s (execRtSdesc t lead word s) :=
  ⟨_, rfl, by apply State.rtSdesc_keeps; exact .refl s⟩

theorem execRtSstop_kept (t : Fin 2048) (lead : List (Nat × Nat)) (word : Nat) (s : State) : Kept s (execRtSstop t lead word s) :=
  ⟨_, rfl, by apply State.rtSstop_keeps; exact .refl s⟩

theorem execRdShared_kept (h : Fin 20) (agent : Fin 69) (addr age dirEcc : Nat) (s : State) : Kept s (execRdShared h agent addr age dirEcc s) := by
  refine ⟨_, rfl, ?_⟩
  have hk := Keeps.refl s
  repeat' first
    | with_reducible (first | assumption | apply Keeps.ite | apply State.homeReq_keeps)
    | (intro _ _ _; try dsimp only)
    | intro _
    | split

theorem execRdUnique_kept (h : Fin 20) (agent : Fin 69) (addr age dirEcc : Nat) (s : State) : Kept s (execRdUnique h agent addr age dirEcc s) := by
  refine ⟨_, rfl, ?_⟩
  have hk := Keeps.refl s
  repeat' first
    | with_reducible (first | assumption | apply Keeps.ite | apply State.homeReq_keeps)
    | (intro _ _ _; try dsimp only)
    | intro _
    | split

theorem execRdOnce_kept (h : Fin 20) (who : Fin 112) (addr age dirEcc : Nat) (s : State) : Kept s (execRdOnce h who addr age dirEcc s) := by
  refine ⟨_, rfl, ?_⟩
  have hk := Keeps.refl s
  repeat' first
    | with_reducible (first | assumption | apply Keeps.ite | apply State.homeReq_keeps)
    | (intro _ _ _; try dsimp only)
    | intro _
    | split

theorem execWrFull_kept (h : Fin 20) (who : Fin 112) (addr age dirEcc : Nat) (alloc : Bool) (data : List Byte) (s : State) : Kept s (execWrFull h who addr age dirEcc alloc data s) :=
  ⟨_, rfl, by apply State.homeReq_keeps; exact .refl s⟩

theorem execWrMasked_kept (h : Fin 20) (who : Fin 112) (addr age dirEcc mask : Nat) (data : List Byte) (s : State) : Kept s (execWrMasked h who addr age dirEcc mask data s) :=
  ⟨_, rfl, by apply State.homeReq_keeps; exact .refl s⟩

theorem execAtomic_kept (h : Fin 20) (r : Requester) (lead : List (Nat × Nat)) (op : AtomOp) (addr age dirEcc size a b : Nat) (s : State) : Kept s (execAtomic h r lead op addr age dirEcc size a b s) :=
  ⟨_, rfl, by apply State.atomicReq_keeps; exact .refl s⟩

theorem execWatch_kept (h : Fin 20) (t : Fin 2048) (addr age dirEcc : Nat) (s : State) : Kept s (execWatch h t addr age dirEcc s) := by
  refine ⟨_, rfl, ?_⟩
  have hk := Keeps.refl s
  repeat' first
    | with_reducible (first | assumption | apply Keeps.ite | apply State.homeReq_keeps)
    | (intro _ _ _; try dsimp only)
    | intro _
    | split

theorem execWback_kept (h : Fin 20) (agent : Fin 69) (addr : Nat) (s : State) : Kept s (execWback h agent addr s) :=
  ⟨_, rfl, by apply State.wback_keeps; exact .refl s⟩

theorem execGrant_kept (h : Fin 20) (tid : Nat) (s : State) : Kept s (execGrant h tid s) :=
  ⟨_, rfl, by apply State.grant_keeps; exact .refl s⟩

theorem execTrackerFree_kept (h : Fin 20) (s : State) : Kept s (execTrackerFree h s) :=
  ⟨_, rfl, by apply State.trackerFree_keeps; exact .refl s⟩

theorem execSnoop_kept (h : Fin 20) (agent : Fin 69) (tid : Nat) (wback : Bool) (s : State) : Kept s (execSnoop h agent tid wback s) :=
  ⟨_, rfl, by apply State.snoop_keeps; exact .refl s⟩

theorem execSnoopAnswer_kept (h : Fin 20) (agent : Fin 69) (tid : Nat) (err : Bool) (s : State) : Kept s (execSnoopAnswer h agent tid err s) :=
  ⟨_, rfl, by apply State.snoopAnswer_keeps; exact .refl s⟩

theorem execSnoopTimeout_kept (h : Fin 20) (tid : Nat) (s : State) : Kept s (execSnoopTimeout h tid s) :=
  ⟨_, rfl, by apply State.snoopTimeout_keeps; exact .refl s⟩

theorem execQuayAtomicReturn_kept (h : Fin 20) (tid : Nat) (s : State) : Kept s (execQuayAtomicReturn h tid s) :=
  ⟨_, rfl, by apply State.quayReturn_keeps; exact .refl s⟩

theorem execLr_kept (h : Fin 20) (r : Requester) (lead : List (Nat × Nat)) (addr age dirEcc size : Nat) (s : State) : Kept s (execLr h r lead addr age dirEcc size s) :=
  ⟨_, rfl, by apply State.lrReq_keeps; exact .refl s⟩

theorem execSc_kept (h : Fin 20) (r : Requester) (lead : List (Nat × Nat)) (addr age dirEcc size v : Nat) (s : State) : Kept s (execSc h r lead addr age dirEcc size v s) :=
  ⟨_, rfl, by apply State.scReq_keeps; exact .refl s⟩

theorem execCreate_kept (m : Master) (rivals : List Master) (n : Fin 64) (s : State) : Kept s (execCreate m rivals n s) := by
  refine ⟨_, rfl, ?_⟩
  have hk := Keeps.refl s
  repeat' first
    | with_reducible (first | assumption | apply Keeps.ite | apply State.command_keeps | apply State.qpCreate_keeps)
    | (intro _ _ _; try dsimp only)
    | intro _
    | split

theorem execDelete_kept (m : Master) (rivals : List Master) (n : Fin 64) (s : State) : Kept s (execDelete m rivals n s) := by
  refine ⟨_, rfl, ?_⟩
  have hk := Keeps.refl s
  repeat' first
    | with_reducible (first | assumption | apply Keeps.ite | apply State.command_keeps | apply State.qpDelete_keeps)
    | (intro _ _ _; try dsimp only)
    | intro _
    | split

theorem execRestart_kept (m : Master) (rivals : List Master) (n : Fin 64) (s : State) : Kept s (execRestart m rivals n s) := by
  refine ⟨_, rfl, ?_⟩
  have hk := Keeps.refl s
  repeat' first
    | with_reducible (first | assumption | apply Keeps.ite | apply State.command_keeps | apply State.qpRestart_keeps)
    | (intro _ _ _; try dsimp only)
    | intro _
    | split

theorem execHifDbSq_kept (m : Master) (n : Fin 64) (tail gen : Nat) (s : State) : Kept s (execHifDbSq m n tail gen s) := by
  refine ⟨_, rfl, ?_⟩
  have hk := Keeps.refl s
  repeat' first
    | with_reducible (first | assumption | apply Keeps.ite | apply State.command_keeps | apply State.dbSq_keeps)
    | (intro _ _ _; try dsimp only)
    | intro _
    | split

theorem execHifDbCq_kept (m : Master) (n : Fin 64) (head : Nat) (s : State) : Kept s (execHifDbCq m n head s) := by
  refine ⟨_, rfl, ?_⟩
  have hk := Keeps.refl s
  repeat' first
    | with_reducible (first | assumption | apply Keeps.ite | apply State.command_keeps | apply State.dbCq_keeps)
    | (intro _ _ _; try dsimp only)
    | intro _
    | split

theorem execSqFetch_kept (n : Fin 64) (host : Option (List Byte)) (cqOk : Bool) (s : State) : Kept s (execSqFetch n host cqOk s) :=
  ⟨_, rfl, by apply State.sqFetch_keeps; exact .refl s⟩

theorem execSqRefetch_kept (n : Fin 64) (host : Option (List Byte)) (cqOk : Bool) (s : State) : Kept s (execSqRefetch n host cqOk s) :=
  ⟨_, rfl, by apply State.sqRefetch_keeps; exact .refl s⟩

theorem execJournalCommit_kept (n : Fin 64) (cqOk : Bool) (s : State) : Kept s (execJournalCommit n cqOk s) :=
  ⟨_, rfl, by apply State.jCommit_keeps; exact .refl s⟩

theorem execHifNop_kept (n : Fin 64) (s : State) : Kept s (execHifNop n s) :=
  ⟨_, rfl, by apply State.hifNop_keeps; exact .refl s⟩

theorem execHifWrite_kept (n : Fin 64) (s : State) : Kept s (execHifWrite n s) :=
  ⟨_, rfl, by apply State.hifWrite_keeps; exact .refl s⟩

theorem execCopy_kept (n : Fin 64) (host : Option (List Byte)) (poisoned hostOk : Bool) (s : State) : Kept s (execCopy n host poisoned hostOk s) :=
  ⟨_, rfl, by apply State.copyStep_keeps; exact .refl s⟩

theorem execPsqLimit_kept (n : Fin 64) (s : State) : Kept s (execPsqLimit n s) :=
  ⟨_, rfl, by apply State.hifLimit_keeps; exact .refl s⟩

theorem execHifPsqPost_kept (n : Fin 64) (s : State) : Kept s (execHifPsqPost n s) :=
  ⟨_, rfl, by apply State.hifPost_keeps; exact .refl s⟩

theorem execHifPsqCmd_kept (n : Fin 64) (s : State) : Kept s (execHifPsqCmd n s) :=
  ⟨_, rfl, by apply State.hifCmd_keeps; exact .refl s⟩

theorem execPool_kept (n : Fin 64) (cqOk : Bool) (s : State) : Kept s (execPool n cqOk s) :=
  ⟨_, rfl, by apply State.hifPool_keeps; exact .refl s⟩

theorem execCommandComplete_kept (n : Fin 64) (cqOk : Bool) (s : State) : Kept s (execCommandComplete n cqOk s) :=
  ⟨_, rfl, by apply State.cmdComplete_keeps; exact .refl s⟩

theorem execHifPoolDone_kept (m : Master) (n : Fin 64) (cid status : Nat) (s : State) : Kept s (execHifPoolDone m n cid status s) := by
  refine ⟨_, rfl, ?_⟩
  have hk := Keeps.refl s
  repeat' first
    | with_reducible (first | assumption | apply Keeps.ite | apply State.command_keeps | apply State.poolDone_keeps)
    | (intro _ _ _; try dsimp only)
    | intro _
    | split

theorem execIrqTimer_kept (n : Fin 64) (s : State) : Kept s (execIrqTimer n s) :=
  ⟨_, rfl, by apply State.irqTimer_keeps; exact .refl s⟩

theorem execJournalReplay_kept (k : Fin 16) (s : State) : Kept s (execJournalReplay k s) :=
  ⟨_, rfl, by apply State.jReplay_keeps; exact .refl s⟩

theorem execHifPoolRingEnable_kept (m : Master) (base : Nat) (s : State) : Kept s (execHifPoolRingEnable m base s) := by
  refine ⟨_, rfl, ?_⟩
  have hk := Keeps.refl s
  repeat' first
    | with_reducible (first | assumption | apply Keeps.ite | apply State.command_keeps | apply State.ringEnable_keeps)
    | (intro _ _ _; try dsimp only)
    | intro _
    | split

theorem execWeaveBootApply_kept (sigA sigB : Bool) (s : State) : Kept s (execWeaveBootApply sigA sigB s) := by
  refine ⟨_, rfl, ?_⟩
  have hk := Keeps.refl s
  repeat' first
    | with_reducible (first | assumption | apply Keeps.ite | apply State.weaveBoot_keeps | apply State.syncFault_keeps)
    | (intro _ _ _; try dsimp only)
    | intro _
    | split

theorem execWvCmdApplyPartial_kept (m : Master) (rivals : List Master) (k : Fin 16) (sigOk : Bool) (s : State) : Kept s (execWvCmdApplyPartial m rivals k sigOk s) := by
  refine ⟨_, rfl, ?_⟩
  have hk := Keeps.refl s
  repeat' first
    | with_reducible (first | assumption | apply Keeps.ite | apply State.command_keeps | apply State.partStart_keeps)
    | (intro _ _ _; try dsimp only)
    | intro _
    | split

theorem execPartialQuiesceBegin_kept  (s : State) : Kept s (execPartialQuiesceBegin s) :=
  ⟨_, rfl, by apply State.partQuiesce_keeps; exact .refl s⟩

theorem execPartialCommit_kept  (s : State) : Kept s (execPartialCommit s) :=
  ⟨_, rfl, by apply State.partCommit_keeps; exact .refl s⟩

theorem execQuiesceTimeout_kept  (s : State) : Kept s (execQuiesceTimeout s) :=
  ⟨_, rfl, by apply State.partTimeout_keeps; exact .refl s⟩

theorem execPowerOn_kept  (s : State) : Kept s (execPowerOn s) :=
  ⟨_, rfl, by apply State.powerOn_keeps; exact .refl s⟩

theorem execInputLoss_kept  (s : State) : Kept s (execInputLoss s) :=
  ⟨_, rfl, by apply State.inputLoss_keeps; exact .refl s⟩

theorem execPwrOkRise_kept  (s : State) : Kept s (execPwrOkRise s) :=
  ⟨_, rfl, by apply State.pwrRise_keeps; exact .refl s⟩

theorem execPwrOkFall_kept  (s : State) : Kept s (execPwrOkFall s) :=
  ⟨_, rfl, by apply State.pwrFall_keeps; exact .refl s⟩

theorem execRailEnable_kept  (s : State) : Kept s (execRailEnable s) :=
  ⟨_, rfl, by apply State.railEnable_keeps; exact .refl s⟩

theorem execRailPowerGood_kept (rail : Fin 8) (s : State) : Kept s (execRailPowerGood rail s) :=
  ⟨_, rfl, by apply State.railGood_keeps; exact .refl s⟩

theorem execRailPgTimeout_kept  (s : State) : Kept s (execRailPgTimeout s) :=
  ⟨_, rfl, by apply State.railTimeout_keeps; exact .refl s⟩

theorem execOptionLoad_kept (samples : List Nat) (slotId : Nat) (s : State) : Kept s (execOptionLoad samples slotId s) :=
  ⟨_, rfl, by apply State.optionLoad_keeps; exact .refl s⟩

theorem execDomainRelease_kept (sigA sigB : Bool) (s : State) : Kept s (execDomainRelease sigA sigB s) :=
  ⟨_, rfl, by apply State.domainRelease_keeps; exact .refl s⟩

theorem execIslandSettled_kept (i : Fin 96) (s : State) : Kept s (execIslandSettled i s) :=
  ⟨_, rfl, by apply State.islandSettled_keeps; exact .refl s⟩

theorem execHbmStackReady_kept (st : Fin 8) (s : State) : Kept s (execHbmStackReady st s) :=
  ⟨_, rfl, by apply State.stackReady_keeps; exact .refl s⟩

theorem execLkForce_kept (m : Master) (domains : Nat) (s : State) : Kept s (execLkForce m domains s) := by
  refine ⟨_, rfl, ?_⟩
  have hk := Keeps.refl s
  repeat' first
    | with_reducible (first | assumption | apply Keeps.ite | apply State.command_keeps | apply State.forceWrite_keeps)
    | (intro _ _ _; try dsimp only)
    | intro _
    | split

theorem execWarmPrephaseDone_kept  (s : State) : Kept s (execWarmPrephaseDone s) :=
  ⟨_, rfl, by apply State.warmDone_keeps; exact .refl s⟩

theorem execWarmPrephaseTimeout_kept  (s : State) : Kept s (execWarmPrephaseTimeout s) :=
  ⟨_, rfl, by apply State.warmTimeout_keeps; exact .refl s⟩

theorem execWrstNAssert_kept  (s : State) : Kept s (execWrstNAssert s) :=
  ⟨_, rfl, by apply State.wrstLow_keeps; exact .refl s⟩

theorem execWrstNDeassert_kept  (s : State) : Kept s (execWrstNDeassert s) :=
  ⟨_, rfl, by apply State.wrstHigh_keeps; exact .refl s⟩

theorem execWrstHoldRelease_kept  (s : State) : Kept s (execWrstHoldRelease s) :=
  ⟨_, rfl, by apply State.holdRelease_keeps; exact .refl s⟩

theorem execPcieHotReset_kept  (s : State) : Kept s (execPcieHotReset s) :=
  ⟨_, rfl, by apply State.linkReset_keeps; exact .refl s⟩

theorem execFlr_kept  (s : State) : Kept s (execFlr s) :=
  ⟨_, rfl, by apply State.linkReset_keeps; exact .refl s⟩

theorem execWatchdogTick_kept  (s : State) : Kept s (execWatchdogTick s) :=
  ⟨_, rfl, by apply State.wdogTick_keeps; exact .refl s⟩

theorem execWatchdogExpiry_kept  (s : State) : Kept s (execWatchdogExpiry s) :=
  ⟨_, rfl, by apply State.wdogExpire_keeps; exact .refl s⟩

theorem execLkWdogKick_kept (m : Master) (s : State) : Kept s (execLkWdogKick m s) := by
  refine ⟨_, rfl, ?_⟩
  have hk := Keeps.refl s
  repeat' first
    | with_reducible (first | assumption | apply Keeps.ite | apply State.command_keeps | apply State.wdogLoad_keeps)
    | (intro _ _ _; try dsimp only)
    | intro _
    | split

theorem execSecurityReset_kept  (s : State) : Kept s (execSecurityReset s) :=
  ⟨_, rfl, by apply State.securityReset_keeps; exact .refl s⟩

theorem execJournalCaptureDone_kept  (s : State) : Kept s (execJournalCaptureDone s) :=
  ⟨_, rfl, by apply State.captureDone_keeps; exact .refl s⟩

theorem execStakeReset_kept (m : Master) (rivals : List Master) (k : Fin 16) (s : State) : Kept s (execStakeReset m rivals k s) := by
  refine ⟨_, rfl, ?_⟩
  have hk := Keeps.refl s
  repeat' first
    | with_reducible (first | assumption | apply Keeps.ite | apply State.command_keeps | apply State.stakeReset_keeps)
    | (intro _ _ _; try dsimp only)
    | intro _
    | split

theorem execStopComplete_kept (k : Fin 16) (s : State) : Kept s (execStopComplete k s) :=
  ⟨_, rfl, by apply State.stopEnd_keeps; exact .refl s⟩

theorem execSupplyWarnAssert_kept  (s : State) : Kept s (execSupplyWarnAssert s) :=
  ⟨_, rfl, by apply State.warnOn_keeps; exact .refl s⟩

theorem execBraceComplete_kept  (s : State) : Kept s (execBraceComplete s) :=
  ⟨_, rfl, by apply State.braceDone_keeps; exact .refl s⟩

theorem execSupplyWarnDeassert_kept  (s : State) : Kept s (execSupplyWarnDeassert s) :=
  ⟨_, rfl, by apply State.warnOff_keeps; exact .refl s⟩

theorem execThrottleChange_kept (tj : Nat) (s : State) : Kept s (execThrottleChange tj s) :=
  ⟨_, rfl, by apply State.junction_keeps; exact .refl s⟩

theorem execLkThrotSwWrite_kept (m : Master) (v : Nat) (s : State) : Kept s (execLkThrotSwWrite m v s) := by
  refine ⟨_, rfl, ?_⟩
  have hk := Keeps.refl s
  repeat' first
    | with_reducible (first | assumption | apply Keeps.ite | apply State.command_keeps | apply State.setFld_keeps | apply State.syncThrottle_keeps)
    | (intro _ _ _; try dsimp only)
    | intro _
    | split

theorem execLkSbFaultWrite_kept (m : Master) (b : Bool) (s : State) : Kept s (execLkSbFaultWrite m b s) := by
  refine ⟨_, rfl, ?_⟩
  have hk := Keeps.refl s
  repeat' first
    | with_reducible (first | assumption | apply Keeps.ite | apply State.command_keeps | apply State.setFld_keeps | apply State.syncFault_keeps)
    | (intro _ _ _; try dsimp only)
    | intro _
    | split

theorem execPcieLinkUp_kept (width speed : Nat) (flit : Bool) (s : State) : Kept s (execPcieLinkUp width speed flit s) :=
  ⟨_, rfl, by apply State.linkOn_keeps; exact .refl s⟩

theorem execPcieLinkDown_kept  (s : State) : Kept s (execPcieLinkDown s) :=
  ⟨_, rfl, by apply State.linkOff_keeps; exact .refl s⟩

theorem execHifCtlLinkEn_kept (m : Master) (b : Bool) (s : State) : Kept s (execHifCtlLinkEn m b s) := by
  refine ⟨_, rfl, ?_⟩
  have hk := Keeps.refl s
  repeat' first
    | with_reducible (first | assumption | apply Keeps.ite | apply State.command_keeps | apply State.linkEnable_keeps)
    | (intro _ _ _; try dsimp only)
    | intro _
    | split

theorem execHifBootGo_kept (m : Master) (rivals : List Master) (len : Nat) (s : State) : Kept s (execHifBootGo m rivals len s) := by
  refine ⟨_, rfl, ?_⟩
  have hk := Keeps.refl s
  repeat' first
    | with_reducible (first | assumption | apply Keeps.ite | apply State.command_keeps | apply State.bootGo_keeps)
    | (intro _ _ _; try dsimp only)
    | intro _
    | split

theorem execUnitFailure_kept (kind unit ns : Nat) (s : State) : Kept s (execUnitFailure kind unit ns s) :=
  ⟨_, rfl, by apply State.unitFailure_keeps; exact .refl s⟩

theorem execUnitWatchdogTimeout_kept (kind unit ns : Nat) (s : State) : Kept s (execUnitWatchdogTimeout kind unit ns s) := by
  refine ⟨_, rfl, ?_⟩
  have hk := Keeps.refl s
  repeat' first
    | with_reducible (first | assumption | apply Keeps.ite | apply State.unitFailure_keeps)
    | (intro _ _ _; try dsimp only)
    | intro _
    | split

theorem execRegisterWrite_kept (m : Master) (addr : Nat) (v : Word) (s : State) : Kept s (execRegisterWrite m addr v s) :=
  ⟨_, rfl, by apply State.regWrite_keeps; exact .refl s⟩

theorem execCxtDecCommit_kept (m : Master) (n : Fin 8) (s : State) : Kept s (execCxtDecCommit m n s) := by
  refine ⟨_, rfl, ?_⟩
  have hk := Keeps.refl s
  repeat' first
    | with_reducible (first | assumption | apply Keeps.ite | apply State.command_keeps | apply State.decCommit_keeps)
    | (intro _ _ _; try dsimp only)
    | intro _
    | split

theorem execCxtDecUncommit_kept (m : Master) (n : Fin 8) (s : State) : Kept s (execCxtDecUncommit m n s) := by
  refine ⟨_, rfl, ?_⟩
  have hk := Keeps.refl s
  repeat' first
    | with_reducible (first | assumption | apply Keeps.ite | apply State.command_keeps | apply State.decUncommit_keeps)
    | (intro _ _ _; try dsimp only)
    | intro _
    | split

theorem execCxtDecLock_kept (m : Master) (n : Fin 8) (s : State) : Kept s (execCxtDecLock m n s) := by
  refine ⟨_, rfl, ?_⟩
  have hk := Keeps.refl s
  repeat' first
    | with_reducible (first | assumption | apply Keeps.ite | apply State.command_keeps | apply State.decLock_keeps)
    | (intro _ _ _; try dsimp only)
    | intro _
    | split

theorem execScratchpadAccess_kept (r : Requester) (lead : List (Nat × Nat)) (addr : Nat) (a : Access) (errs : Errs) (s : State) : Kept s (execScratchpadAccess r lead addr a errs s) := by
  refine ⟨_, rfl, ?_⟩
  have hk := Keeps.refl s
  repeat' first
    | with_reducible (first | assumption | apply Keeps.ite | apply State.memAccess_keeps)
    | (intro _ _ _; try dsimp only)
    | intro _
    | split

theorem execMemoryAccess_kept (r : Requester) (lead : List (Nat × Nat)) (addr : Nat) (a : Access) (errs : Errs) (s : State) : Kept s (execMemoryAccess r lead addr a errs s) :=
  ⟨_, rfl, by apply State.memAccess_keeps; exact .refl s⟩

theorem execPatrolScrub_kept (st : Fin 8) (addr : Nat) (ecc : Nat) (raced : Bool) (last : Bool) (s : State) : Kept s (execPatrolScrub st addr ecc raced last s) :=
  ⟨_, rfl, by apply State.patrol_keeps; exact .refl s⟩

theorem execHbmStackLost_kept (st : Fin 8) (cause : Nat) (s : State) : Kept s (execHbmStackLost st cause s) :=
  ⟨_, rfl, by apply State.stackFails_keeps; exact .refl s⟩

theorem execHbmTempChange_kept (st : Fin 8) (temp : Nat) (s : State) : Kept s (execHbmTempChange st temp s) :=
  ⟨_, rfl, by apply State.stackTemp_keeps; exact .refl s⟩

theorem execCxlLinkDown_kept (p : Fin 4) (s : State) : Kept s (execCxlLinkDown p s) :=
  ⟨_, rfl, by apply State.cxlOff_keeps; exact .refl s⟩

theorem execCxlLinkUp_kept (p : Fin 4) (width speed : Nat) (flit device : Bool) (s : State) : Kept s (execCxlLinkUp p width speed flit device s) :=
  ⟨_, rfl, by apply State.cxlOn_keeps; exact .refl s⟩

theorem execBar0Access_kept (cfg : List (Nat × Nat)) (off : Nat) (a : Access) (s : State) : Kept s (execBar0Access cfg off a s) := by
  refine ⟨_, rfl, ?_⟩
  have hk := Keeps.refl s
  repeat' first
    | with_reducible (first | assumption | apply Keeps.ite | apply State.config_keeps | apply State.bar0_keeps)
    | (intro _ _ _; try dsimp only)
    | intro _
    | split

theorem execBar2Access_kept (cfg : List (Nat × Nat)) (off : Nat) (a : Access) (errs : Errs) (s : State) : Kept s (execBar2Access cfg off a errs s) := by
  refine ⟨_, rfl, ?_⟩
  have hk := Keeps.refl s
  repeat' first
    | with_reducible (first | assumption | apply Keeps.ite | apply State.config_keeps | apply State.bar2_keeps)
    | (intro _ _ _; try dsimp only)
    | intro _
    | split

theorem execHifSyncRead_kept  (s : State) : Kept s (execHifSyncRead s) :=
  ⟨_, rfl, by apply State.syncRead_keeps; exact .refl s⟩

theorem execGetStatus_kept (q : Req) (s : State) : Kept s (execGetStatus q s) :=
  ⟨_, rfl, by apply State.getStatus_keeps; exact .refl s⟩

theorem execGetNonce_kept (q : Req) (s : State) : Kept s (execGetNonce q s) :=
  ⟨_, rfl, by apply State.getNonce_keeps; exact .refl s⟩

theorem execGetLog_kept (q : Req) (off : Nat) (s : State) : Kept s (execGetLog q off s) :=
  ⟨_, rfl, by apply State.getLog_keeps; exact .refl s⟩

theorem execFlashWrite_kept (q : Req) (off : Nat) (data : List Byte) (s : State) : Kept s (execFlashWrite q off data s) :=
  ⟨_, rfl, by apply State.flashWrite_keeps; exact .refl s⟩

theorem execFlashCommit_kept (q : Req) (region len : Nat) (sigOk : Bool) (s : State) : Kept s (execFlashCommit q region len sigOk s) :=
  ⟨_, rfl, by apply State.flashCommit_keeps; exact .refl s⟩

theorem execFlashCommitDone_kept  (s : State) : Kept s (execFlashCommitDone s) :=
  ⟨_, rfl, by apply State.flashDone_keeps; exact .refl s⟩

theorem execEnrollKey_kept (q : Req) (digest : BitVec 384) (s : State) : Kept s (execEnrollKey q digest s) :=
  ⟨_, rfl, by apply State.enroll_keeps; exact .refl s⟩

theorem execRevokeKey_kept (q : Req) (slot : Nat) (s : State) : Kept s (execRevokeKey q slot s) :=
  ⟨_, rfl, by apply State.revoke_keeps; exact .refl s⟩

theorem execAdvanceRollback_kept (q : Req) (v : Nat) (s : State) : Kept s (execAdvanceRollback q v s) :=
  ⟨_, rfl, by apply State.advanceMin_keeps; exact .refl s⟩

theorem execSecretPut_kept (q : Req) (idx : Nat) (data : List Byte) (s : State) : Kept s (execSecretPut q idx data s) :=
  ⟨_, rfl, by apply State.secretPut_keeps; exact .refl s⟩

theorem execDebugOpen_kept (q : Req) (s : State) : Kept s (execDebugOpen q s) :=
  ⟨_, rfl, by apply State.debugOpen_keeps; exact .refl s⟩

theorem execDebugOpenEraseDone_kept  (s : State) : Kept s (execDebugOpenEraseDone s) :=
  ⟨_, rfl, by apply State.debugOpenDone_keeps; exact .refl s⟩

theorem execModuleReset_kept (q : Req) (s : State) : Kept s (execModuleReset q s) :=
  ⟨_, rfl, by apply State.moduleReset_keeps; exact .refl s⟩

theorem execNonceExpiry_kept  (s : State) : Kept s (execNonceExpiry s) :=
  ⟨_, rfl, by apply State.nonceExpiry_keeps; exact .refl s⟩

theorem execSpdmGetVersion_kept (i3c : Bool) (s : State) : Kept s (execSpdmGetVersion i3c s) := by
  refine ⟨_, rfl, ?_⟩
  have hk := Keeps.refl s
  repeat' first
    | with_reducible (first | assumption | apply Keeps.ite | apply State.spReq_keeps | apply State.setSp_keeps | apply State.answer_keeps)
    | (intro _ _ _; try dsimp only)
    | intro _
    | split

theorem execSpdmGetCapabilities_kept (i3c : Bool) (version : Nat) (s : State) : Kept s (execSpdmGetCapabilities i3c version s) := by
  refine ⟨_, rfl, ?_⟩
  have hk := Keeps.refl s
  repeat' first
    | with_reducible (first | assumption | apply Keeps.ite | apply State.spReq_keeps | apply State.setSp_keeps | apply State.answer_keeps | apply State.spErr_keeps)
    | (intro _ _ _; try dsimp only)
    | intro _
    | split

theorem execSpdmNegotiateAlgorithms_kept (i3c : Bool) (algOk : Bool) (s : State) : Kept s (execSpdmNegotiateAlgorithms i3c algOk s) := by
  refine ⟨_, rfl, ?_⟩
  have hk := Keeps.refl s
  repeat' first
    | with_reducible (first | assumption | apply Keeps.ite | apply State.spReq_keeps | apply State.setSp_keeps | apply State.answer_keeps | apply State.spErr_keeps)
    | (intro _ _ _; try dsimp only)
    | intro _
    | split

theorem execSpdmGetDigests_kept (i3c : Bool) (s : State) : Kept s (execSpdmGetDigests i3c s) := by
  refine ⟨_, rfl, ?_⟩
  have hk := Keeps.refl s
  repeat' first
    | with_reducible (first | assumption | apply Keeps.ite | apply State.spReq_keeps | apply State.answer_keeps)
    | (intro _ _ _; try dsimp only)
    | intro _
    | split

theorem execSpdmGetCertificate_kept (i3c : Bool) (slot off len : Nat) (s : State) : Kept s (execSpdmGetCertificate i3c slot off len s) := by
  refine ⟨_, rfl, ?_⟩
  have hk := Keeps.refl s
  repeat' first
    | with_reducible (first | assumption | apply Keeps.ite | apply State.spReq_keeps | apply State.spErr_keeps | apply State.answer_keeps)
    | (intro _ _ _; try dsimp only)
    | intro _
    | split

theorem execSpdmChallenge_kept (i3c : Bool) (slot : Nat) (nonce : List Byte) (s : State) : Kept s (execSpdmChallenge i3c slot nonce s) := by
  refine ⟨_, rfl, ?_⟩
  have hk := Keeps.refl s
  repeat' first
    | with_reducible (first | assumption | apply Keeps.ite | apply State.spReq_keeps | apply State.spErr_keeps | apply State.spSigned_keeps)
    | (intro _ _ _; try dsimp only)
    | intro _
    | split

theorem execSpdmGetMeasurements_kept (i3c : Bool) (idx : Nat) (sign : Bool) (s : State) : Kept s (execSpdmGetMeasurements i3c idx sign s) := by
  refine ⟨_, rfl, ?_⟩
  have hk := Keeps.refl s
  repeat' first
    | with_reducible (first | assumption | apply Keeps.ite | apply State.spReq_keeps | apply State.spErr_keeps | apply State.spSigned_keeps | apply State.answer_keeps)
    | (intro _ _ _; try dsimp only)
    | intro _
    | split

theorem execSpdmKeyExchange_kept (i3c : Bool) (reqId : Nat) (s : State) : Kept s (execSpdmKeyExchange i3c reqId s) := by
  refine ⟨_, rfl, ?_⟩
  have hk := Keeps.refl s
  repeat' first
    | with_reducible (first | assumption | apply Keeps.ite | apply State.spSess_keeps | apply State.spErr_keeps | apply State.setSp_keeps | apply State.spSigned_keeps)
    | (intro _ _ _; try dsimp only)
    | intro _
    | split

theorem execSpdmFinish_kept (i3c : Bool) (hmacOk : Bool) (s : State) : Kept s (execSpdmFinish i3c hmacOk s) := by
  refine ⟨_, rfl, ?_⟩
  have hk := Keeps.refl s
  repeat' first
    | with_reducible (first | assumption | apply Keeps.ite | apply State.spSess_keeps | apply State.spErr_keeps | apply State.setSp_keeps | apply State.answer_keeps)
    | (intro _ _ _; try dsimp only)
    | intro _
    | split

theorem execSpdmHeartbeat_kept (i3c : Bool) (s : State) : Kept s (execSpdmHeartbeat i3c s) := by
  refine ⟨_, rfl, ?_⟩
  have hk := Keeps.refl s
  repeat' first
    | with_reducible (first | assumption | apply Keeps.ite | apply State.spSess_keeps | apply State.spErr_keeps | apply State.answer_keeps)
    | (intro _ _ _; try dsimp only)
    | intro _
    | split

theorem execSpdmKeyUpdate_kept (i3c : Bool) (op : Nat) (s : State) : Kept s (execSpdmKeyUpdate i3c op s) := by
  refine ⟨_, rfl, ?_⟩
  have hk := Keeps.refl s
  repeat' first
    | with_reducible (first | assumption | apply Keeps.ite | apply State.spSess_keeps | apply State.spErr_keeps | apply State.setSp_keeps | apply State.answer_keeps)
    | (intro _ _ _; try dsimp only)
    | intro _
    | split

theorem execSpdmEndSession_kept (i3c : Bool) (s : State) : Kept s (execSpdmEndSession i3c s) := by
  refine ⟨_, rfl, ?_⟩
  have hk := Keeps.refl s
  repeat' first
    | with_reducible (first | assumption | apply Keeps.ite | apply State.spSess_keeps | apply State.spErr_keeps | apply State.setSp_keeps | apply State.answer_keeps)
    | (intro _ _ _; try dsimp only)
    | intro _
    | split

theorem execDoeAbort_kept  (s : State) : Kept s (execDoeAbort s) := by
  refine ⟨_, rfl, ?_⟩
  have hk := Keeps.refl s
  repeat' first
    | with_reducible (first | assumption | apply Keeps.ite | apply State.answer_keeps)
    | (intro _ _ _; try dsimp only)
    | intro _
    | split

theorem execDoeDiscovery_kept (index : Nat) (s : State) : Kept s (execDoeDiscovery index s) := by
  refine ⟨_, rfl, ?_⟩
  have hk := Keeps.refl s
  repeat' first
    | with_reducible (first | assumption | apply Keeps.ite | apply State.answer_keeps)
    | (intro _ _ _; try dsimp only)
    | intro _
    | split

/-- Every command answers a next state, and keeps what every command keeps. -/
theorem exec_kept (i : Instr) (s : State) : Kept s (exec i s) := by
  match i with
  | .powerOn => exact execPowerOn_kept s
  | .pwrOkRise => exact execPwrOkRise_kept s
  | .pwrOkFall => exact execPwrOkFall_kept s
  | .railEnable => exact execRailEnable_kept s
  | .railPgTimeout => exact execRailPgTimeout_kept s
  | .railPowerGood rail => exact execRailPowerGood_kept rail s
  | .optionLoad samples slotId => exact execOptionLoad_kept samples slotId s
  | .domainRelease sigA sigB => exact execDomainRelease_kept sigA sigB s
  | .islandSettled island => exact execIslandSettled_kept island s
  | .weaveBootApply sigA sigB => exact execWeaveBootApply_kept sigA sigB s
  | .wrstNAssert => exact execWrstNAssert_kept s
  | .wrstHoldRelease => exact execWrstHoldRelease_kept s
  | .wrstNDeassert => exact execWrstNDeassert_kept s
  | .pcieHotReset => exact execPcieHotReset_kept s
  | .flr => exact execFlr_kept s
  | .warmPrephaseDone => exact execWarmPrephaseDone_kept s
  | .warmPrephaseTimeout => exact execWarmPrephaseTimeout_kept s
  | .watchdogExpiry => exact execWatchdogExpiry_kept s
  | .watchdogTick => exact execWatchdogTick_kept s
  | .lkWdogKick m => exact execLkWdogKick_kept m s
  | .securityReset => exact execSecurityReset_kept s
  | .stakeReset m rivals k => exact execStakeReset_kept m rivals k s
  | .lkForce m domains => exact execLkForce_kept m domains s
  | .supplyWarnAssert => exact execSupplyWarnAssert_kept s
  | .braceComplete => exact execBraceComplete_kept s
  | .supplyWarnDeassert => exact execSupplyWarnDeassert_kept s
  | .throttleChange tj => exact execThrottleChange_kept tj s
  | .lkThrotSwWrite m v => exact execLkThrotSwWrite_kept m v s
  | .lkSbFaultWrite m b => exact execLkSbFaultWrite_kept m b s
  | .registerWrite m addr v => exact execRegisterWrite_kept m addr v s
  | .inputLoss => exact execInputLoss_kept s
  | .hbmStackReady st => exact execHbmStackReady_kept st s
  | .journalCaptureDone => exact execJournalCaptureDone_kept s
  | .wvCmdApplyPartial m rivals k sigOk => exact execWvCmdApplyPartial_kept m rivals k sigOk s
  | .partialQuiesceBegin => exact execPartialQuiesceBegin_kept s
  | .partialCommit => exact execPartialCommit_kept s
  | .quiesceTimeout => exact execQuiesceTimeout_kept s
  | .programFetch k x => exact execProgramFetch_kept k x s
  | .nop k x => exact execNop_kept k x s
  | .jump k x => exact execJump_kept k x s
  | .mbegin k => exact execMbegin_kept k s
  | .mend k => exact execMend_kept k s
  | .seal k => exact execSeal_kept k s
  | .sealLatch k => exact execSealLatch_kept k s
  | .start m rivals k => exact execStart_kept m rivals k s
  | .stop m rivals k => exact execStop_kept m rivals k s
  | .resume m rivals k skip => exact execResume_kept m rivals k skip s
  | .restore m rivals k => exact execRestore_kept m rivals k s
  | .stopComplete k => exact execStopComplete_kept k s
  | .psqPost m k mask => exact execPsqPost_kept m k mask s
  | .psqXlimitWrite m k x v => exact execPsqXlimitWrite_kept m k x v s
  | .mxf k x => exact execMxf_kept k x s
  | .mxb k x => exact execMxb_kept k x s
  | .mxw k x => exact execMxw_kept k x s
  | .mxIssue e latch feed drain token released errs => exact execMxIssue_kept e latch feed drain token released errs s
  | .mxComplete e => exact execMxComplete_kept e s
  | .dvuRow e wait away errs => exact execDvuRow_kept e wait away errs s
  | .vx k x => exact execVx_kept k x s
  | .vxComplete e => exact execVxComplete_kept e s
  | .pvOp k x => exact execPvOp_kept k x s
  | .pvLd k x => exact execPvLd_kept k x s
  | .pvSt k x => exact execPvSt_kept k x s
  | .pvSplat k x => exact execPvSplat_kept k x s
  | .pvLred k x => exact execPvLred_kept k x s
  | .pvBcast k x => exact execPvBcast_kept k x s
  | .pvCmpgt k x => exact execPvCmpgt_kept k x s
  | .pvSel k x => exact execPvSel_kept k x s
  | .pvCommit p errs => exact execPvCommit_kept p errs s
  | .pvuAssist p errs => exact execPvuAssist_kept p errs s
  | .sopen k x => exact execSopen_kept k x s
  | .sclose k x => exact execSclose_kept k x s
  | .scloseIssue k => exact execScloseIssue_kept k s
  | .spop k => exact execSpop_kept k s
  | .sdrop k => exact execSdrop_kept k s
  | .sdropIssue k => exact execSdropIssue_kept k s
  | .sbind k => exact execSbind_kept k s
  | .asuSegmentPush d k errs => exact execAsuSegmentPush_kept d k errs s
  | .asuSegmentTransferDone d k errs => exact execAsuSegmentTransferDone_kept d k errs s
  | .qupd k => exact execQupd_kept k s
  | .qbind k => exact execQbind_kept k s
  | .qclr k => exact execQclr_kept k s
  | .qemit k => exact execQemit_kept k s
  | .quayOpComplete k held errs => exact execQuayOpComplete_kept k held errs s
  | .quayReserve e wait => exact execQuayReserve_kept e wait s
  | .quayReservationGrant q wait => exact execQuayReservationGrant_kept q wait s
  | .quaySliceArrive e => exact execQuaySliceArrive_kept e s
  | .quayFold q held errs => exact execQuayFold_kept q held errs s
  | .reducedBlockArrive q => exact execReducedBlockArrive_kept q s
  | .quayBoundUpdate q errs => exact execQuayBoundUpdate_kept q errs s
  | .farAtomic q errs => exact execFarAtomic_kept q errs s
  | .rjob k => exact execRjob_kept k s
  | .rjobIssue k errs => exact execRjobIssue_kept k errs s
  | .xread k => exact execXread_kept k s
  | .sealBarge port => exact execSealBarge_kept port s
  | .exchangeTimeout k => exact execExchangeTimeout_kept k s
  | .scatter8 port errs => exact execScatter8_kept port errs s
  | .scatter16 port errs => exact execScatter16_kept port errs s
  | .scatter32 port errs => exact execScatter32_kept port errs s
  | .req16 port errs => exact execReq16_kept port errs s
  | .req32 port errs => exact execReq32_kept port errs s
  | .gather port => exact execGather_kept port s
  | .gatherSend k => exact execGatherSend_kept k s
  | .jobClose j => exact execJobClose_kept j s
  | .jobTimeout j => exact execJobTimeout_kept j s
  | .kextend k x => exact execKextend_kept k x s
  | .kwrite k x => exact execKwrite_kept k x s
  | .kgather k x => exact execKgather_kept k x s
  | .kgatherUnmoor k => exact execKgatherUnmoor_kept k s
  | .kshare k x => exact execKshare_kept k x s
  | .kfree k x => exact execKfree_kept k x s
  | .kbasket k x => exact execKbasket_kept k x s
  | .kvComplete k => exact execKvComplete_kept k s
  | .init m rivals d k => exact execInit_kept m rivals d k s
  | .release m rivals d k => exact execRelease_kept m rivals d k s
  | .tsend k x => exact execTsend_kept k x s
  | .tsendIssue k => exact execTsendIssue_kept k s
  | .tsendComplete ring dir tag => exact execTsendComplete_kept ring dir tag s
  | .tsendTimeout ring dir tag => exact execTsendTimeout_kept ring dir tag s
  | .transferBarge port cls => exact execTransferBarge_kept port cls s
  | .dataFrame port bytes => exact execDataFrame_kept port bytes s
  | .ctrlFrame port bytes => exact execCtrlFrame_kept port bytes s
  | .fullTraining port info => exact execFullTraining_kept port info s
  | .fastRetrain port info => exact execFastRetrain_kept port info s
  | .trainingRetry port info => exact execTrainingRetry_kept port info s
  | .portDown port => exact execPortDown_kept port s
  | .takePortDown m rivals port => exact execTakePortDown_kept m rivals port s
  | .twpCmdFastRetrain m rivals port => exact execTwpCmdFastRetrain_kept m rivals port s
  | .twpCmdFullTraining m rivals port => exact execTwpCmdFullTraining_kept m rivals port s
  | .twpWinEnable m w v => exact execTwpWinEnable_kept m w v s
  | .frameLock port => exact execFrameLock_kept port s
  | .laneLockLoss port lane => exact execLaneLockLoss_kept port lane s
  | .tcxLaunch m rivals d core thread => exact execTcxLaunch_kept m rivals d core thread s
  | .tcxHalt m rivals d core thread => exact execTcxHalt_kept m rivals d core thread s
  | .wfi t lead => exact execWfi_kept t lead s
  | .rtAcq t lead word => exact execRtAcq_kept t lead word s
  | .rtRel t lead word => exact execRtRel_kept t lead word s
  | .rtTpost t lead word => exact execRtTpost_kept t lead word s
  | .rtTtake t lead word => exact execRtTtake_kept t lead word s
  | .ttakeServe k => exact execTtakeServe_kept k s
  | .rtTwait t lead word => exact execRtTwait_kept t lead word s
  | .twaitReread t => exact execTwaitReread_kept t s
  | .rtApost t lead word => exact execRtApost_kept t lead word s
  | .rtSdesc t lead word => exact execRtSdesc_kept t lead word s
  | .rtSstop t lead word => exact execRtSstop_kept t lead word s
  | .scratchpadAccess r lead addr a errs => exact execScratchpadAccess_kept r lead addr a errs s
  | .memoryAccess r lead addr a errs => exact execMemoryAccess_kept r lead addr a errs s
  | .patrolScrub st addr ecc raced last => exact execPatrolScrub_kept st addr ecc raced last s
  | .hbmStackLost st cause => exact execHbmStackLost_kept st cause s
  | .hbmTempChange st temp => exact execHbmTempChange_kept st temp s
  | .cxtDecCommit m n => exact execCxtDecCommit_kept m n s
  | .cxtDecUncommit m n => exact execCxtDecUncommit_kept m n s
  | .cxtDecLock m n => exact execCxtDecLock_kept m n s
  | .cxlLinkDown p => exact execCxlLinkDown_kept p s
  | .cxlLinkUp p width speed flit device => exact execCxlLinkUp_kept p width speed flit device s
  | .rdShared h agent addr age dirEcc => exact execRdShared_kept h agent addr age dirEcc s
  | .rdUnique h agent addr age dirEcc => exact execRdUnique_kept h agent addr age dirEcc s
  | .rdOnce h who addr age dirEcc => exact execRdOnce_kept h who addr age dirEcc s
  | .wrFull h who addr age dirEcc alloc data => exact execWrFull_kept h who addr age dirEcc alloc data s
  | .wrMasked h who addr age dirEcc mask data => exact execWrMasked_kept h who addr age dirEcc mask data s
  | .atomic h r lead op addr age dirEcc size a b => exact execAtomic_kept h r lead op addr age dirEcc size a b s
  | .watch h t addr age dirEcc => exact execWatch_kept h t addr age dirEcc s
  | .wback h agent addr => exact execWback_kept h agent addr s
  | .grant h tid => exact execGrant_kept h tid s
  | .trackerFree h => exact execTrackerFree_kept h s
  | .snoop h agent tid wback => exact execSnoop_kept h agent tid wback s
  | .snoopAnswer h agent tid err => exact execSnoopAnswer_kept h agent tid err s
  | .snoopTimeout h tid => exact execSnoopTimeout_kept h tid s
  | .quayAtomicReturn h tid => exact execQuayAtomicReturn_kept h tid s
  | .lr h r lead addr age dirEcc size => exact execLr_kept h r lead addr age dirEcc size s
  | .sc h r lead addr age dirEcc size v => exact execSc_kept h r lead addr age dirEcc size v s
  | .bar0Access cfg off a => exact execBar0Access_kept cfg off a s
  | .bar2Access cfg off a errs => exact execBar2Access_kept cfg off a errs s
  | .hifSyncRead => exact execHifSyncRead_kept s
  | .hifCtlLinkEn m b => exact execHifCtlLinkEn_kept m b s
  | .hifBootGo m rivals len => exact execHifBootGo_kept m rivals len s
  | .create m rivals n => exact execCreate_kept m rivals n s
  | .delete m rivals n => exact execDelete_kept m rivals n s
  | .restart m rivals n => exact execRestart_kept m rivals n s
  | .hifDbSq m n tail gen => exact execHifDbSq_kept m n tail gen s
  | .hifDbCq m n head => exact execHifDbCq_kept m n head s
  | .sqFetch n host cqOk => exact execSqFetch_kept n host cqOk s
  | .sqRefetch n host cqOk => exact execSqRefetch_kept n host cqOk s
  | .journalCommit n cqOk => exact execJournalCommit_kept n cqOk s
  | .hifNop n => exact execHifNop_kept n s
  | .hifWrite n => exact execHifWrite_kept n s
  | .copy n host poisoned hostOk => exact execCopy_kept n host poisoned hostOk s
  | .psqLimit n => exact execPsqLimit_kept n s
  | .hifPsqPost n => exact execHifPsqPost_kept n s
  | .hifPsqCmd n => exact execHifPsqCmd_kept n s
  | .pool n cqOk => exact execPool_kept n cqOk s
  | .commandComplete n cqOk => exact execCommandComplete_kept n cqOk s
  | .hifPoolDone m n cid status => exact execHifPoolDone_kept m n cid status s
  | .hifPoolRingEnable m base => exact execHifPoolRingEnable_kept m base s
  | .irqTimer n => exact execIrqTimer_kept n s
  | .pcieLinkUp width speed flit => exact execPcieLinkUp_kept width speed flit s
  | .pcieLinkDown => exact execPcieLinkDown_kept s
  | .journalReplay k => exact execJournalReplay_kept k s
  | .unitFailure kind unit ns => exact execUnitFailure_kept kind unit ns s
  | .unitWatchdogTimeout kind unit ns => exact execUnitWatchdogTimeout_kept kind unit ns s
  | .getStatus q => exact execGetStatus_kept q s
  | .getNonce q => exact execGetNonce_kept q s
  | .getLog q off => exact execGetLog_kept q off s
  | .flashWrite q off data => exact execFlashWrite_kept q off data s
  | .flashCommit q region len sigOk => exact execFlashCommit_kept q region len sigOk s
  | .flashCommitDone => exact execFlashCommitDone_kept s
  | .enrollKey q digest => exact execEnrollKey_kept q digest s
  | .revokeKey q slot => exact execRevokeKey_kept q slot s
  | .advanceRollback q v => exact execAdvanceRollback_kept q v s
  | .secretPut q idx data => exact execSecretPut_kept q idx data s
  | .debugOpen q => exact execDebugOpen_kept q s
  | .debugOpenEraseDone => exact execDebugOpenEraseDone_kept s
  | .moduleReset q => exact execModuleReset_kept q s
  | .nonceExpiry => exact execNonceExpiry_kept s
  | .spdmGetVersion i3c => exact execSpdmGetVersion_kept i3c s
  | .spdmGetCapabilities i3c version => exact execSpdmGetCapabilities_kept i3c version s
  | .spdmNegotiateAlgorithms i3c algOk => exact execSpdmNegotiateAlgorithms_kept i3c algOk s
  | .spdmGetDigests i3c => exact execSpdmGetDigests_kept i3c s
  | .spdmGetCertificate i3c slot off len => exact execSpdmGetCertificate_kept i3c slot off len s
  | .spdmChallenge i3c slot nonce => exact execSpdmChallenge_kept i3c slot nonce s
  | .spdmGetMeasurements i3c idx sign => exact execSpdmGetMeasurements_kept i3c idx sign s
  | .spdmKeyExchange i3c reqId => exact execSpdmKeyExchange_kept i3c reqId s
  | .spdmFinish i3c hmacOk => exact execSpdmFinish_kept i3c hmacOk s
  | .spdmHeartbeat i3c => exact execSpdmHeartbeat_kept i3c s
  | .spdmKeyUpdate i3c op => exact execSpdmKeyUpdate_kept i3c op s
  | .spdmEndSession i3c => exact execSpdmEndSession_kept i3c s
  | .doeAbort => exact execDoeAbort_kept s
  | .doeDiscovery index => exact execDoeDiscovery_kept index s
  | .ptbArm m v => exact execPtbArm_kept m v s

end Sys2Proof.Machine
end

