-- ==== Sys2Proof/Tests/Base.lean ====
section
/-! SUPPORT. Small states and operands for the tests, and what makes the hypotheses of the statements decidable. -/

namespace Sys2Proof.Tests

open Sys2Proof Sys2Proof.Machine

/-- A state with fields of registers set: address, field, value. -/
def put (l : List (Nat × Fld × Nat)) (s : State) : State := l.foldl (fun s x => s.setFld x.1 x.2.1 x.2.2) s

/-- A module with input. -/
def powered : State := { State.reset with undef := [], lk := { Lk.reset with powered := true } }

/-- PWR_OK is high, and PHASE as given. -/
def phase (n : Nat) : State :=
  put [(R.lkStatus, F.lkStatusPhase, n)] { powered with lk := { powered.lk with pwrOk := true, railsOn := 8, unitsUp := decide (8 ≤ n) } }

def railsUp : State := put [(R.lkRail, F.lkRailPg, 3)] { phase 0 with lk := { (phase 0).lk with railsOn := 3 } }
def railsLast : State := put [(R.lkRail, F.lkRailPg, 127)] (phase 0)
def pgFail : State := put [(R.lkStatus, F.lkStatusPgFail, 1), (R.lkRail, F.lkRailFailRail, 3)] { powered with lk := { powered.lk with wrstLow := true } }

def opts (n : Nat) : State := { phase 1 with lk := { (phase 1).lk with optTries := n } }

/-- LOAD_DONE, and every island SETTLED but those of `l`. -/
def up (n : Nat) (l : List Nat) : State :=
  { phase n with
    regs := (R.lkStatus, BitVec.ofNat 64 (16 + n)) :: ((List.range 96).filter (fun i => !(l.contains i))).map (fun i => (R.lkIsl i, (2 : Word))) }

theorem up_canonical : KMap.Canon regReset (up 9 [81]).regs := by decide +kernel

/-- The island that settles last is SETTLING. -/
def settling : State := put [(R.lkIsl 95, F.lkIslState, 1)] (up 3 [])
/-- The debug gate is open, at LOAD_DONE of a warm reset. -/
def gateOpen : State := put [(R.secState, F.secStateGate, 1)] (up 3 [])

/-! ### a weave: stake 0 on die 0, stake 1 on die 1 -/

def rec0 : StakeRec where
  level := 1
  stake := 0
  enable := true
  master12 := false
  eng := 0xFF
  pvu := 3
  spad := 4
  mb := 2
  tc := 2 ^ 64 - 1
  ch := 0xFF
  ways := [1, 1, 1, 1, 1]
  stackBase := 0x200000
  stackLim := 0x600000
  wfmt := 1
  ffmt := 8
  xfmt := 0xE
  group := 0
  jobBase := 0
  jobCount := 4
  seqLimit := 16
  kvPages := 4
  kvBase := 0x800000
  jrnlBase := 0x600000
  jrnlKib := 2048

def rec1 : StakeRec := { rec0 with
  stake := 1
  eng := 0xFF00
  pvu := 0xC
  tc := (2 ^ 64 - 1) * 2 ^ 64
  ch := 0xFF00
  ways := [2, 2, 2, 2, 2]
  stackBase := 0x900200000
  stackLim := 0x900600000
  group := 0xFF
  jobBase := 4
  kvBase := 0x900800000
  jrnlBase := 0x900600000 }

def cur : WeaveData where
  stakes := [rec0, rec1]
  widths := 0
  rings := [⟨0, 1, 2, 0, 2⟩]
  groups := [⟨0, 0, 2, 0, 1, 7⟩]
  pounds := []
  owners := []
  hostq := [(0, 0), (1, 1)]

/-- The module up, with that weave active. -/
def on : State := { up 9 [] with
  regs := (R.wvStatus, (1 : Word)) :: (up 9 []).regs ++ [(R.psqStatus 0, (1 : Word)), (R.psqStatus 1, (1 : Word))]
  weave := { WeaveCtx.reset with active := true, cur := cur } }

theorem on_canonical : KMap.Canon regReset on.regs := by decide +kernel

/-- Stake 0 in a state of PSQ_STATUS. -/
def pst (n : Nat) : State := put [(R.psqStatus 0, F.psqStatusState, n)] on

/-! ### an image -/

def recBytes (r : StakeRec) : List Byte :=
  toBytes 1 1 ++ toBytes 1 r.level ++ toBytes 1 r.stake ++ toBytes 1 1 ++ toBytes 4 0 ++ toBytes 4 r.eng ++ toBytes 1 r.pvu ++ toBytes 1 r.spad ++
    toBytes 1 r.mb ++ toBytes 1 0 ++ toBytes 32 r.tc ++ toBytes 16 r.ch ++ r.ways.flatMap (toBytes 2) ++ toBytes 6 0 ++ toBytes 8 r.stackBase ++
    toBytes 8 r.stackLim ++ toBytes 1 r.wfmt ++ toBytes 1 r.ffmt ++ toBytes 1 r.xfmt ++ toBytes 1 r.group ++ toBytes 1 r.jobBase ++
    toBytes 1 r.jobCount ++ toBytes 2 r.seqLimit ++ toBytes 4 r.kvPages ++ toBytes 4 0 ++ toBytes 8 r.kvBase ++ toBytes 8 r.jrnlBase ++
    toBytes 4 r.jrnlKib ++ toBytes 12 0

/-- An image of sections, each a type and its bytes. -/
def image (kind target load : Nat) (l : List (Nat × List Byte)) : List Byte :=
  let body := l.flatMap (·.2)
  let len := 0x80 + 16 * l.length + body.length + 96
  let off := fun (i : Nat) => 0x80 + 16 * l.length + ((l.take i).flatMap (·.2)).length
  toBytes 4 0x4D495657 ++ toBytes 1 1 ++ toBytes 1 kind ++ toBytes 2 0x80 ++ toBytes 4 len ++ toBytes 4 l.length ++ toBytes 16 0 ++
    toBytes 48 0 ++ toBytes 1 target ++ toBytes 7 0 ++ toBytes 8 load ++ toBytes 32 0 ++
    ((List.range l.length).flatMap (fun i => toBytes 1 ((l.getD i (0, [])).1) ++ toBytes 1 1 ++ toBytes 2 0 ++ toBytes 4 (off i) ++
      toBytes 4 (l.getD i (0, [])).2.length ++ toBytes 4 0)) ++ body ++ toBytes 96 0

def fullImage : List Byte := image 0 0xFF 0 [(1, recBytes { rec0 with group := 0xFF }), (2, toBytes 1 2 ++ toBytes 1 1 ++ toBytes 6 0)]
def partImage : List Byte := image 1 0 0 [(1, recBytes { rec0 with group := 0xFF, pvu := 1 })]
def firmware : List Byte := image 3 0xFF 0 [(1, [1, 2, 3])]
def scxFirmware : List Byte := image 2 0xFF 0x8C0000000 [(1, [1, 2, 3])]

/-- Flash regions programmed; the key of slot 0 is zero. -/
def flashed (l : List (Nat × List Byte)) (s : State) : State :=
  { s with flash := { s.flash with regions := l.foldl (fun m p => KMap.set m [] p.1 p.2) [] }
           fuses := { s.fuses with keys := [some 0, none, none, none] } }

/-- Before the weave: domains up to SCXDOM's predecessor, the flash programmed. -/
def boot (n : Nat) (l : List (Nat × List Byte)) : State := flashed l (up n [])

def wakeHbm (v : Nat) (s : State) : State := s.forAll (List.range 8) (fun s h => s.setFld (R.memStatus h) F.memStatusState v)

/-- A full image staged by the host. -/
def staged : State :=
  let s := put [(R.lkOpt, F.lkOptBoot, 1), (R.hifBoot, F.hifBootLen, fullImage.length)] (boot 7 [])
  { s with lk := { s.lk with bootGo := true }
           weave := { s.weave with staging := (List.range fullImage.length).map (fun i => (i, fullImage.getD i 0)) } }

/-- Firmware in regions 4 and 0, every domain up but SCX. -/
def beforeScx (l : List (Nat × List Byte)) : State := flashed l (put [(R.lkStatus, F.lkStatusPhase, 8)] on)

def noFlash : State := { boot 7 [] with flash := { (boot 7 []).flash with invalid := [2, 3] } }
def firm : State := boot 2 [(0, firmware)]
def aRole : State := wakeHbm 3 (put [(R.lkOpt, F.lkOptRole, 1)] (up 3 [81]))
def unitsNext : State := put [(R.lkStatus, F.lkStatusPhase, 7)] on

/-! ### resets -/

/-- Stake 0 in a state, a watchdog that has run out, the link up and a hold seal. -/
def watched : State := put [(R.lkWdog, F.lkWdogEn, 1), (R.lkWdog, F.lkWdogPeriod, 9), (R.hifStatus, F.hifStatusLinkUp, 1)] (pst 2)
/-- The pre-phase of a warm reset. -/
def warming : State :=
  let s := put [(R.lkStatus, F.lkStatusWrst, 1), (R.hifStatus, F.hifStatusLinkUp, 1), (R.psqJrnlStatus 0, F.psqJrnlStatusOpen, 1),
    (R.psqJrnlNext 0, F.psqJrnlNextNext, 5)] (wakeHbm 1 (pst 4))
  { s with lk := { s.lk with warmCause := 4, wrstLow := true } }
def held : State := { (up 3 []) with lk := { (up 3 []).lk with coldHold := true, wrstLow := true } }
def kicked : State := put [(R.lkWdog, F.lkWdogEn, 1), (R.lkWdog, F.lkWdogLeft, 3)] on
def capturing : State :=
  let s := put [(R.psqJrnlStatus 1, F.psqJrnlStatusOpen, 1), (R.psqJrnlStatus 1, F.psqJrnlStatusEpoch, 6), (R.psqJrnlNext 1, F.psqJrnlNextNext, 5)] on
  { s with sec := { s.sec with capturing := true } }

/-- Stake 0 STOPPING with a cause, and in a stake reset where `r` is 1. -/
def stopping (cause r : Nat) : State :=
  put [(R.psqStatus 0, F.psqStatusStopPreempt, cause), (R.lkStatus, F.lkStatusStakeRst, r)] (pst 3)

/-- SUPPLY_WARN_N low: both stakes braced. -/
def braced : State :=
  let s := put [(R.psqStatus 0, F.psqStatusHoldBrace, 1), (R.psqStatus 1, F.psqStatusHoldBrace, 1), (R.psqJrnlStatus 0, F.psqJrnlStatusClosed, 1),
    (R.psqJrnlStatus 1, F.psqJrnlStatusClosed, 1)] (pst 2)
  { s with lk := { s.lk with warnLow := true } }
def hot : State := { pst 2 with lk := { (pst 2).lk with hbmHot := 1, tjLevel := 2 } }
def linkOn : State := put [(R.hifCtl, F.hifCtlLinkEn, 1), (R.hifStatus, F.hifStatusBoot, 1)] (up 4 [])
def harmful : State := put [(R.lkStatus, F.lkStatusStakeRst, 2)] on

/-- Host masters: the external host's role. -/
def hosted : State := put [(R.lkOpt, F.lkOptRole, 1)] on

/-- A partial image at 0x10000, its length given. -/
def partReady : State :=
  (put [(R.wvPartAddr, F.wvPartAddrAddr, 0x10), (R.wvPartLen, F.wvPartLenLen, partImage.length)] (flashed [] (pst 2))).setBytes 0x10000 partImage
/-- A partial re-weave of stake 0 at a step of Table 1-8, which takes one PVU. -/
def partAt (n : Nat) : State :=
  let s := put [(R.wvStatus, F.wvStatusPartBusy, 1), (R.wvStatus, F.wvStatusState, if n = 5 then 2 else 1),
    (R.psqStatus 0, F.psqStatusStopQuiesce, if n = 5 then 1 else 0)] (pst (if n = 5 then 4 else 2))
  { s with weave := { s.weave with phase := n, part := { cur with stakes := [{ rec0 with pvu := 1 }, rec1] } } }

def spills : State := put [(R.ptbSpill, F.ptbSpillEn, 1), (R.ptbSpill, F.ptbSpillStage2, 1)] on
def homes : State := put [(R.ptbHome, F.ptbHomeEn, 1), (R.secState, F.secStateGate, 1)] on

/-! ### programs -/

/-- A word of an instruction: OPC, WAIT, POST and its bits from 32. -/
def word (opc wait post rest : Nat) : Nat := opc + 2 ^ 8 + wait * 2 ^ 16 + post * 2 ^ 24 + rest * 2 ^ 32

/-- Stake 0 runs with 8 instructions to dispatch in each stream, and tokens: TSET 1 is TK0 and TK5, TSET 2 TK5 and TK63. -/
def running (s : State) : State :=
  put ([(R.psqStatus 0, F.psqStatusState, 2), (R.psqTset 0 0, (0, 64), 0x21), (R.psqTset 0 1, (0, 64), 2 ^ 63 + 32), (R.psqToken 0 0, (0, 16), 2),
    (R.psqToken 0 1, (16, 16), 1), (R.psqToken 0 15, (48, 16), 65534), (R.psqSeedNext 0, (0, 64), 77)] ++
    [0, 1, 2].flatMap (fun x => [(R.psqLimit 0 x, (0, 64), 8), (R.psqLen 0 x, F.psqLenLen, 4), (R.psqBase 0 x, F.psqBaseBase, 0x800 + 64 * x)])) s

/-- The word at the head of a stream. -/
def head (x w : Nat) (s : State) : State := (running s).setQ 0 { (running s).q 0 with words := [(x, 0, w)] }

def toFetch : State := (running on).setBytes 0x20000 (toBytes 16 (word 0x00 1 2 0))
/-- The pc of stream F is past its program. -/
def runOff : State := put [(R.psqPc 0 0, F.psqPcPc, 4)] (running on)
def unread : State := { running on with poison := [0x20000] }
def nop : State := head 0 (word 0x00 1 2 0) on
def jump : State := head 0 (word 0x01 1 2 3) on
def jumpOut : State := head 0 (word 0x01 1 2 4) on
/-- OPEN_MB as given. -/
def mbs (m : Nat) (s : State) : State := put [(R.psqStatus 0, F.psqStatusOpenMb, m), (R.psqStatus 0, F.psqStatusOpenCount, popcount 16 m)] s
def mbegin (m : Nat) : State := mbs m (head 0 (word 0x02 1 2 15) on)
/-- Frames of tag 3 on die 0. -/
def frame (tag : Nat) : Frame := ⟨tag, 0, 2, 1, 0, true, 7, 2, false, false, false, 1⟩
def mend (m : Nat) (l : List Frame) : State :=
  let s := mbs m (head 1 (word 0x03 1 2 3) on)
  s.setAs 0 0 { s.as 0 0 with frames := l, areas := [(3, 0), (15, 1)] }

/-- A SEAL of HISTORY at a word's bits. -/
def seal0 (rest : Nat) : State := head 1 (word 0x04 1 2 rest) on
/-- SEAL has dispatched, and waits for SEAL_LATCH with OPEN_MB as given. -/
def sealing (rest m : Nat) (l : List Outst) : State :=
  let s := put [(R.psqStatus 0, F.psqStatusHoldSeal, 1), (R.psqStep 0, (0, 64), 9), (R.mxeCntMacs 3, (0, 64), 5)] (mbs m (head 1 (word 0x04 1 2 rest) on))
  (s.setSlot 0 3 ⟨5, 6, 7⟩).setQ 0 { s.q 0 with sealing := some (word 0x04 1 2 rest, 0, 0x21), outst := l }

/-- An outstanding instruction. -/
def out0 : Outst where
  seq := 0
  strm := 0
  index := 0
  pc := 0
  word := word 0x10 1 2 0
  unit := 0
  waits := 0x21
  step := 0
  issued := false
  desc := []
  chain := []
  frame := 0
  pushTo := 0
  acc := []
  accInt := false
  feed := []
  run := .start
  prog := 0
  rerun := false
  turn := 0

/-- A stake with instructions outstanding. -/
def outs (l : List Outst) (s : State) : State := s.setQ 0 { s.q 0 with outst := l, seq := 7 }
def ran : State := outs [out0, { out0 with seq := 1, index := 1, issued := true }] (put [(R.psqIndex 0 0, (0, 64), 2)] (running on))
def ranSeal : State := put [(R.psqStatus 0, F.psqStatusHoldSeal, 1)] ran
def stopped (v : Nat) : State := put [(R.psqStatus 0, F.psqStatusState, 4), (R.psqStatus 0, F.psqStatusStopPreempt, 1), (R.psqStatus 0, F.psqStatusCtxValid, v),
  (R.psqCtx 0, F.psqCtxBase, 0x40), (R.psqAhead 0 0, (0, 64), 5), (R.psqFrec0 0 1, F.psqFrec0Valid, 1)] (running on)
def quiesced : State := put [(R.psqStatus 0, F.psqStatusStopQuiesce, 1)] (stopped 1)
def idle : State := put [(R.psqStatus 0, F.psqStatusState, 1), (R.psqIndex 0 0, (0, 64), 3)] (running on)
def idleLate : State := put [(R.psqIndex 0 0, (0, 64), 9)] idle

/-! ### descriptors -/

def strmBytes (d : StreamD) : List Byte :=
  toBytes 8 d.addr ++ toBytes 8 d.saddr ++ toBytes 4 d.stride ++ toBytes 4 d.ctx ++ toBytes 2 d.rows ++ toBytes 2 d.cols ++ toBytes 1 d.fmt ++
    toBytes 1 d.kind ++ toBytes 1 d.mode ++ toBytes 1 d.last
def noStrm : StreamD := ⟨0, 0, 0, 0, 0, 0, 0, 0, 0, 0⟩
/-- A MEM stream of two rows of two elements in a format. -/
def memStrm (a fmt : Nat) : StreamD := ⟨a, 0, 64, 0, 2, 2, fmt, 1, 0, 0⟩
def opw (op asel reg psel imm : Nat) : Nat := op + asel * 2 ^ 8 + reg * 2 ^ 11 + psel * 2 ^ 16 + imm * 2 ^ 32
def chainBytes (ops : List Nat) (src1 src2 dst : StreamD) (aux pushOff count : Nat) : List Byte :=
  toBytes 1 1 ++ toBytes 1 ops.length ++ toBytes 6 0 ++ (List.range 4).flatMap (fun i => toBytes 8 (ops.getD i 0)) ++ strmBytes src1 ++
    strmBytes src2 ++ strmBytes dst ++ toBytes 16 0 ++ toBytes 8 aux ++ toBytes 8 pushOff ++ toBytes 4 256 ++ toBytes 4 0 ++ toBytes 8 count ++ toBytes 8 0
/-- The drain stream of a matrix instruction. -/
def drainStrm : StreamD := ⟨0, 0, 0, 0, 0, 0, 0, 2, 0, 0⟩
/-- A chain that drains to memory at 0x34000 in a format. -/
def drainTo (ops : List Nat) (fmt : Nat) : List Byte := chainBytes ops drainStrm noStrm (memStrm 0x34000 fmt) 0x35000 0 0
/-- A standalone chain from 0x32000 to 0x34000. -/
def vxChain (ops : List Nat) : List Byte := chainBytes ops (memStrm 0x32000 0) noStrm (memStrm 0x34000 0) 0x35000 0 0
def mxDesc : List Byte :=
  toBytes 4 1 ++ toBytes 4 64 ++ toBytes 8 0x32000 ++ toBytes 8 0x33000 ++ toBytes 4 64 ++ toBytes 4 0 ++ toBytes 96 0
/-- The bits from 32 of a matrix instruction: engine, formats, two rows and columns, K = 1, descriptor 0. -/
def mxRest (e fx fw : Nat) : Nat := e + fx * 2 ^ 5 + fw * 2 ^ 10 + 2 ^ 20 + 2 ^ 32
/-- Tables of engine `e`: one matrix descriptor and one chain. -/
def tables (e : Nat) (md cd : List Byte) (s : State) : State :=
  ((put [(R.mxeDtbl e, F.mxeDtblBase, 0x30), (R.mxeDtblLen e, F.mxeDtblLenEntries, 1), (R.vecCtbl e, F.vecCtblBase, 0x31),
    (R.vecCtblLen e, F.vecCtblLenEntries, 1)] s).setBytes 0x30000 md).setBytes 0x31000 cd
def failed (e : Nat) (s : State) : State := { s with failEng := e }
def mx0 (x opc : Nat) : State := tables 0 mxDesc (drainTo [] 9) (head x (word opc 1 2 (mxRest 0 11 11)) on)
/-- The instruction with a reserved bit, of an engine of another stake, of a failed engine, and without a descriptor. -/
def mxRsv (x opc : Nat) : State := head x (word opc 1 2 (mxRest 0 11 11 + 2 ^ 19)) on
def mxOut (x opc : Nat) : State := head x (word opc 1 2 (mxRest 8 11 11)) on
def mxGone (x opc : Nat) : State := failed 1 (head x (word opc 1 2 (mxRest 0 11 11)) on)
def mxNoDesc (x opc : Nat) : State := head x (word opc 1 2 (mxRest 0 11 11)) on
/-- An outstanding MXF with its copies, and the bytes 3 and 5, 7 and 9 of its operands. -/
def mxo : Outst := { out0 with word := word 0x40 1 2 (mxRest 0 11 11), desc := mxDesc, chain := drainTo [] 9, seq := 3 }
def inputs (s : State) : State := ((((s.setByte 0x32000 3).setByte 0x32040 5).setByte 0x33000 7).setByte 0x33040 0xFE).setBytes 0x34000 (toBytes 16 0)
def mxReady : State := inputs (outs [mxo] (running on))
def mxIssued (o : Outst) : State := outs [{ o with issued := true, acc := [[21, 2 ^ 32 - 6], [35, 10]], accInt := true }] (inputs (running on))
def mxDone : State := mxIssued { mxo with run := { ChainRun.start with row := 2 } }
def auxOut : Outst := { mxo with chain := drainTo [opw 0x34 0 0 0 0] 9, run := { ChainRun.start with row := 2, aux := [5, 6] } }
def mxAux : State := mxIssued auxOut
def vx0 (e : Nat) (c : List Byte) : State := inputs (tables 0 [] c (head 0 (word 0x50 1 2 e) on))
def vxo : Outst := { out0 with word := word 0x50 1 2 0, chain := vxChain [], seq := 3 }
def vxReady : State := inputs (outs [vxo] (running on))
def vxDone (past : Bool) : State := outs [{ vxo with issued := true, run := { ChainRun.start with row := 2, overrun := past } }] (running on)

/-! ### programmable vector units -/

/-- A PV word's bits from 32: PVU, POP, VD, VA, VB and bits from 64. -/
def pvRest (v op d a b hi : Nat) : Nat := v + op * 2 ^ 8 + d * 2 ^ 16 + a * 2 ^ 21 + b * 2 ^ 26 + hi * 2 ^ 32
def pv0 (op hi : Nat) : State := head 0 (word 0x58 1 2 (pvRest 0 op 1 2 3 hi)) on
def pvBad (op hi : Nat) : State := head 0 (word 0x58 1 2 (pvRest 0 op 1 2 3 hi + 8)) on
def pvGone (op : Nat) : State := { pv0 op 5 with failPvu := 3 }
def vxGone : State := { vx0 0 (vxChain [opw 0x00 5 1 1 0]) with failPvu := 3 }
def pvOther : State := head 2 (word 0x58 1 2 (pvRest 2 0x62 1 2 3 5)) on
def backed (s : State) : State := put [(R.vecPvuBack 0, F.vecPvuBackBase, 2)] s
def pvRuns (op hi : Nat) : State := backed (outs [{ out0 with word := word 0x58 1 2 (pvRest 0 op 1 2 3 hi), issued := true }] (running on))
def assist (w : Nat) : State :=
  let s := backed (put [(R.vecPvuAq 0, F.vecPvuAqBase, 0x36), (R.vecPvuAq 0, F.vecPvuAqEnable, 1)] on)
  (s.setPv 0 { s.pv 0 with head := 1 }).setBytes 0x36000 (toBytes 16 w)

/-! ### the activation stack -/

/-- The bits from 32 of SOPEN and SPOP. -/
def asRest (d tag fmt label segs : Nat) : Nat := d + tag * 2 ^ 4 + fmt * 2 ^ 8 + label * 2 ^ 16 + segs * 2 ^ 32
/-- Frames of stake 0 on die 0, with tags 3 and 15 open. -/
def stack (l : List Frame) (s : State) : State := (mbs 0x8008 s).setAs 0 0 { s.as 0 0 with frames := l, areas := [(3, 0), (15, 1)] }
def sopen (rest : Nat) (l : List Frame) : State := stack l (head 0 (word 0x18 1 2 rest) on)
/-- A frame of tag 3 in a STATE. -/
def fr (st : Nat) : Frame := { frame 3 with state := st }
def gone (st : Nat) : Frame := { frame 3 with state := st, dropping := true }
def sclose (l : List Frame) : State := stack l (head 1 (word 0x19 1 2 0) on)
def closing : State := outs [{ out0 with word := word 0x19 1 2 0, pushTo := frameId 0 (fr 0) }] (stack [fr 0] (running on))
def spop (rest : Nat) (l : List Frame) : State := stack l (head 1 (word 0x1A 1 2 rest) on)
def sbind (a : Nat) (l : List Frame) : State :=
  let s := stack l (head 1 (word 0x1C 1 2 (a * 2 ^ 32)) on)
  s.setAs 0 0 { s.as 0 0 with pool := [(3, 0), (15, 9)] }
def sdrop (l : List Frame) : State := stack l (head 1 (word 0x1B 1 2 0) on)
def above : Frame := { gone 3 with start := 3 }
def dropping : State := outs [{ out0 with word := word 0x1B 1 2 0, strm := 1 }] (stack [fr 2, above, { frame 15 with state := 1 }] (running on))
/-- Stake 0 with one engine and a small pool. -/
def small (n : Nat) (s : State) : State := { s with weave := { s.weave with cur := { cur with stakes := [{ rec0 with eng := 1, spad := n }, rec1] } } }
def pushing (pool pushq xferq : List (Nat × Nat)) (l : List Frame) (s : State) : State :=
  s.setAs 0 0 { s.as 0 0 with frames := l, pool := pool, pushq := pushq, xferq := xferq }
/-- A pool of 256 segments, full: three of a closed frame. -/
def fullPool : State := pushing ((fr 2).parts ++ (List.range 253).map (fun i => (15, i))) [(15, 300)] [] [fr 2] (small 1 on)
def noPool : State := pushing [] [(3, 1)] [] [fr 2] (small 0 on)

/-! ### quay units -/

/-- A quay descriptor of one row of 64 columns: records at 0x100000, BF16 copies at 0x110000. -/
def quayDesc (opt mplen : Nat) : List Byte :=
  toBytes 1 1 ++ toBytes 1 opt ++ toBytes 1 1 ++ toBytes 2 0 ++ toBytes 1 mplen ++ toBytes 2 0 ++ toBytes 4 1 ++ toBytes 4 64 ++ toBytes 8 0x100000 ++
    toBytes 8 0 ++ toBytes 8 0x110000 ++ toBytes 4 128 ++ toBytes 4 5 ++ toBytes 16 0 ++ toBytes 4 one32 ++ toBytes 4 0 ++
    (List.range 12).flatMap (fun i => toBytes 4 (if i = 0 then one32 else 0)) ++ toBytes 8 0
def quayWord (opc rest : Nat) : Nat := word opc 1 2 (rest + 0x40000 * 2 ^ 32)
def quayHead (opc rest : Nat) : State := (head 2 (quayWord opc rest) on).setBytes 0x40000 (quayDesc 0 0)
def quayNone (opc rest : Nat) : State := head 2 (quayWord opc rest) on
def quayTurn (opc seq : Nat) : State :=
  let s := outs [{ out0 with word := quayWord opc 0, strm := 2, desc := quayDesc 0 0, issued := true }] (running on)
  s.setQu 0 { s.qu 0 with trig := [.op 0 seq] }
/-- A chain that drains 64 rows of two elements to the quay records at 0x100000. -/
def toQuay : List Byte := chainBytes [] drainStrm noStrm ⟨0x100000, 0, 1024, 0, 64, 2, 0, 6, 0, 0⟩ 0 0 0
def qo : Outst := { out0 with word := word 0x40 1 2 (mxRest 0 11 11 + 62 * 2 ^ 20), chain := toQuay, seq := 3 }
def reserving : State := outs [qo] (running on)
def reserveLost : State := { reserving with failQuay := 3 }
def reserveBehind : State := reserving.setQu 0 { reserving.qu 0 with waiting := [⟨1, 5, 2⟩] }
def grants (n : Nat) : State := on.setQu 0 { on.qu 0 with waiting := [⟨1, 5, n⟩, ⟨0, 1, 1⟩] }
/-- An instruction whose rows up to `r` have passed, and none of whose slices has left. -/
def slicing (r : Nat) : State :=
  outs [{ qo with issued := true, run := { ChainRun.start with row := r, tile := List.replicate 64 [one32, 2] } }] (running on)
def slice0 (bad : Bool) : Slice := ⟨0, 3, 0x100000, List.replicate 64 one32, bad⟩
def folding (l : List Slice) : State := on.setQu 0 { on.qu 0 with trig := [.fold 0 3], staged := l }
/-- A job descriptor of one range: the group at 0x100000. -/
def jobDesc : List Byte :=
  toBytes 3 1 ++ toBytes 1 1 ++ toBytes 4 one32 ++ toBytes 24 0 ++ toBytes 8 0x100000 ++ toBytes 8 0 ++ toBytes 4 1 ++ toBytes 4 64 ++ toBytes 200 0
def job0 : Job where
  stake := 0
  seq := 4
  desc := jobDesc
  issued := true
  begun := true
  skip := false
  jgs := one32
  exp := 130
  step := 0
  passed := []
  updated := []
  toSend := []
  written := []
  badCopy := false
  badUpd := false
def block (n : Nat) : Block := ⟨2, n, List.replicate 32 one32, true, false⟩
def withJob (s : State) : State :=
  put [(R.rdxJStatus 2, F.rdxJStatusOwnedLeft, 1)] ((s.setJob 2 job0).setQu 0 { s.qu 0 with trig := .read 2 :: (s.qu 0).trig })
def bound0 : Bind := ⟨2, 0, quayDesc 0 0, [], 0, 0⟩
def bound (l : List Block) : State :=
  let s := withJob on
  { s.setQu 0 { s.qu 0 with blocks := l, trig := if l.length = 2 then [.read 2, .upd 2 0] else [.read 2] } with binds := [bound0] }
def foldHeld : State := let s := withJob (folding [slice0 false]); s
def arriving (final : Bool) : State := on.setQu 0 { on.qu 0 with inbox := [{ block 0 with final := final }] }
def atom0 : FarAtom := ⟨5, .add, 0x120000, 4, 3, 0⟩
def atoms (p : List Nat) : State :=
  let s := on.setQu 0 { on.qu 0 with trig := [.atom atom0, .atom { atom0 with op := .cas }] }
  { s with poison := p }

/-! ### gradient reduction -/

/-- This module at a position of a ring of `l`; stake 0's group on it. Port 0 sends down, port 1 receives. -/
def ringAt (pos l : Nat) (s : State) : State :=
  { s with weave := { s.weave with cur := { s.weave.cur with rings := [⟨0, 1, 2, pos, l⟩], groups := [⟨0, 0, l, pos, 1, 7⟩] } } }
/-- Port `p` ACTIVE with a session and credit. -/
def active (p : Nat) (s : State) : State :=
  (put [(R.twpPStatus p, F.twpPStatusState, 2)] s).setPt p { s.pt p with session := true, credit := [8, 8, 8, 8] }
def got (cls : Nat) (f : List Byte) (s : State) : State := (active 0 s).setPt 1 { (active 0 s).pt 1 with rx := [(cls, f)] }
def seal1 (bad : Nat) : SealRec := ⟨7, 2, 1, 1, false, false, 5, bad, 0x4000000000000000, List.replicate 40 120⟩
def sealFlit (bad : Nat) : List Byte := bargeBytes 1 0 1 0 0 0 0 5 (seal1 bad).bytes
def handoff5 : Handoff := ⟨5, some (seal1 0)⟩
def xchg (c : Xch) (s : State) : State := put [(R.rdxSXctl 0, F.rdxSXctlPost, 1), (R.rdxSXctl 0, F.rdxSXctlToken, 5), (R.rdxSXstat 0, F.rdxSXstatState, 1)] (s.setXc 0 c)
def opened : Xch := { Xch.idle with current := some handoff5 }
def sealIn (pos l bad : Nat) (c : Xch) : State := got 3 (sealFlit bad) (ringAt pos l (xchg c (pst 2)))
def agreed (st : Nat) (s : State) : State := put [(R.rdxSXstat 0, F.rdxSXstatState, st)] (s.setXc 0 { Xch.idle with agreed := some (seal1 0) })

def rjobWord (rest : Nat) : Nat := word 0x30 1 2 (2 + rest + 0x50000 * 2 ^ 32)
def rjob (rest : Nat) : State := (head 2 (rjobWord rest) on).setBytes 0x50000 jobDesc
def rjobFar : State := head 2 (word 0x30 1 2 (2 + 0x900000000 * 2 ^ 32)) on
def ro : Outst := { out0 with word := rjobWord 0, strm := 2, desc := jobDesc, seq := 4 }
def issuing (st skip : Nat) : State :=
  let s := put [(R.rdxSXstat 0, F.rdxSXstatSkip, skip)] (agreed st (outs [ro] (running on)))
  { s with binds := [bound0] }
def xread (st : Nat) : State := agreed st (head 2 (word 0x31 1 2 (0x60000 * 2 ^ 32)) on)
def xreadWait : State := xchg opened (head 2 (word 0x31 1 2 (0x60000 * 2 ^ 32)) on)

/-- A reduction barge of one unit at port 1, of a job that has issued. -/
def bargeIn (pos l ty idx spill : Nat) (payload : List Byte) (s : State) : State :=
  got 3 (bargeBytes ty 2 1 idx spill 0 0 0 payload) (ringAt pos l { withJob s with binds := [bound0] })
def scatter8 (pos spill : Nat) : State := bargeIn pos 2 2 1 spill (toBytes 1 130 ++ List.replicate 32 3) on
def scatter16 (pos spill : Nat) : State := bargeIn pos 2 3 0 spill (toBytes 4 1 ++ toBytes 1 138 ++ List.replicate 64 3) on
def scatter32 (pos : Nat) : State := bargeIn pos 2 4 0 0 (toBytes 4 1 ++ (List.range 32).flatMap (fun _ => toBytes 4 one32)) on
def wide (s : State) : State := { s with weave := { s.weave with cur := { s.weave.cur with stakes := [{ rec0 with xfmt := 0xF }, rec1] } } }
def req (st : Nat) : State := bargeIn 1 2 (4 + st) 0 0 (toBytes 4 1) on
def gather (pos l : Nat) : State := bargeIn pos l 7 0 0 (List.replicate 128 9) on
/-- A job of stake 0 with its RJOB outstanding. -/
def jobAt (pos l : Nat) (j : Job) : State :=
  ringAt pos l { (outs [{ ro with issued := true }] (running on)).setJob 2 j with binds := [bound0] }
def sendJob : Job := { job0 with toSend := [0] }

/-! ### KV pages -/

/-- A KV descriptor. -/
def kvDesc (layer seq seq2 ntok first coloff mask : Nat) : List Byte :=
  toBytes 2 1 ++ toBytes 2 layer ++ toBytes 2 seq ++ toBytes 2 seq2 ++ toBytes 4 ntok ++ toBytes 4 first ++ toBytes 8 0x71000 ++
    toBytes 8 0x72000 ++ toBytes 4 32 ++ toBytes 4 coloff ++ toBytes 8 32 ++ toBytes 32 mask ++ toBytes 48 0
/-- A basket of sequences. -/
def basket (l : List Nat) : List Byte := toBytes 2 1 ++ toBytes 2 l.length ++ toBytes 12 0 ++ l.flatMap (toBytes 1) ++ toBytes (304 - l.length) 0
/-- A pool of four pages, rows of 64 bytes, two layers: sequence 3 has 5 tokens on page 1, sequence 4 has 16 on page 2; pages 0 and 3
are free. `r` is REFS of page 1, `m` its moorings. -/
def pool (ready r m : Nat) (s : State) : State :=
  let s := put [(R.kvpSGeom 0 0, F.kvpSGeomRowb64, 1), (R.kvpSGeom 0 0, F.kvpSGeomLayers, 2), (R.kvpSGeom 0 0, F.kvpSGeomPtEntries, 2),
    (R.kvpSMeta 0 0, F.kvpSMetaBase, 0x700), (R.kvpSSeqrec 0 0, F.kvpSSeqrecBase, 0x701), (R.kvpSPtab 0 0, F.kvpSPtabBase, 0x702),
    (R.kvpSStatus 0 0, F.kvpSStatusReady, ready), (R.kvpSStatus 0 0, F.kvpSStatusFree, 2)] (s.setKv 0 ⟨0, 0⟩)
  let s := (((s.setBytes 0x700000 (toBytes 4 0 ++ toBytes 4 3)).setBytes 0x700008 (toBytes 2 r ++ toBytes 2 m)).setBytes 0x700010 (toBytes 2 1)).setBytes
    0x70001C (toBytes 4 noPage)
  ((s.setBytes 0x701030 (toBytes 4 5 ++ toBytes 1 1)).setBytes 0x701040 (toBytes 4 16 ++ toBytes 1 1)).setBytes 0x702018
    (toBytes 4 1 ++ toBytes 4 noPage ++ toBytes 4 2 ++ toBytes 4 noPage)
def kvWord (opc : Nat) : Nat := word opc 1 2 (0x70000 * 2 ^ 32)
/-- A KV instruction at the head of F, its descriptor and basket in place. -/
def kvHead (opc : Nat) (d : List Byte) (l : List Nat) (s : State) : State :=
  let h := head 0 (kvWord opc) s
  (h.setBytes 0x70000 d).setBytes 0x71000 (basket l)
def kvBad (opc rest : Nat) : State := head 0 (word opc 1 2 rest) (pool 1 1 0 on)
def kvUnread (opc : Nat) : State := { pool 1 1 0 (kvHead opc (kvDesc 0 3 9 1 0 0 8) [3] on) with poison := [0x70000] }
/-- Sound instructions, by code, the sequence and the count of tokens they act on. -/
def kvOk (opc n : Nat) : State := pool 1 1 0 (kvHead opc (kvDesc 0 3 9 n 0 (if opc = 0x25 then 4 else 0) 8) [3] on)
def kvFull : State := pool 1 1 0 (kvHead 0x20 (kvDesc 0 3 9 16 0 0 8) [3, 4, 5] on)
def kgather : Outst := { out0 with word := kvWord 0x22, desc := kvDesc 0 3 9 4 1 0 0, acc := [[1]], issued := true, seq := 3 }
def gathering (n : Nat) (s : State) : State := outs (List.replicate n kgather) s
def kvDone : Outst := { kgather with prog := 1 }
def kvDoneBad : Outst := { kvDone with run := { ChainRun.start with poison := true } }
/-- Stake 0 IDLE, its pool set up or not. -/
def kvIdle (rowb : Nat) : State := put [(R.kvpSGeom 0 0, F.kvpSGeomRowb64, rowb)] (pool 0 1 0 on)

/-! ### Towpath -/

/-- A transfer barge of class 1 for window 2: flags, tag, offset, barges in all. -/
def transfer (win tot n : Nat) : List Byte := toBytes 1 0x10 ++ toBytes 1 1 ++ toBytes 1 0 ++ toBytes 1 1 ++ toBytes 1 win ++ toBytes 3 n ++ toBytes 4 0 ++ toBytes 4 tot ++
  List.replicate 240 7
def badTransfer : List Byte := (transfer 2 1 9).set 2 2
def portUp : State := put [(R.twpPStatus 1, F.twpPStatusLevel, 1)] ((active 1 (ringAt 0 2 on)).setPt 1 { (active 1 on).pt 1 with replay := [⟨5, 1, 1, [9]⟩, ⟨6, 1, 1, [8]⟩] })
def window (s : State) : State :=
  put [(R.twpWinCtl 2, F.twpWinCtlEnable, 1), (R.twpWinBase 2, F.twpWinBaseBase, 0x75000), (R.twpWinSize 2, F.twpWinSizeSize, 0x1000)] s
def barge (f : List Byte) : State := window (got 1 f (ringAt 0 2 on))
def tsendWord (rest : Nat) : Nat := word 0x10 1 2 (rest + 0x73000 * 2 ^ 32)
def tsendDesc (addr len : Nat) : List Byte := toBytes 1 1 ++ toBytes 1 1 ++ toBytes 2 2 ++ toBytes 4 len ++ toBytes 8 addr ++ toBytes 48 0
def tsend (rest addr len : Nat) : State := (ringAt 0 2 (head 0 (tsendWord rest) on)).setBytes 0x73000 (tsendDesc addr len)
def tso : Outst := { out0 with word := tsendWord 0, desc := tsendDesc 0x74000 300, seq := 3 }
def sending : State := active 0 (ringAt 0 2 (outs [tso] (running on)))
def tagged (l : List (Nat × Nat)) : State :=
  let s := ringAt 0 2 (outs [{ tso with issued := true }] (running on))
  s.setRg 0 { s.rg 0 with tags := [(0, 0, 3)], done := l }
def taggedBad (l : List (Nat × Nat)) : State := (tagged l).setQ 0 { (tagged l).q 0 with outst := [{ tso with issued := true, run := { ChainRun.start with poison := true } }] }
/-- Port 1 in a STATE, its width configured. -/
def portAt (n : Nat) : State :=
  let s := put [(R.twpPStatus 1, F.twpPStatusState, n)] (ringAt 0 2 on)
  { s with weave := { s.weave with cur := { s.weave.cur with widths := 4 * 8 } } }
def locking (f : Option Bool) : State := (portAt 1).setPt 1 { (portAt 1).pt 1 with locking := f, session := f == some false }
def retraining (n : Nat) : State := (portAt 3).setPt 1 { (portAt 3).pt 1 with session := true, fails := n }
def portRun : State := (portAt 2).setPt 1 { (portAt 2).pt 1 with session := true }

/-! ### tile threads -/

/-- A word of an Xritar instruction: funct3, rd, rs1 = x1, rs2 = x2. -/
def xword (f3 rd : Nat) : Nat := 0x0B + rd * 2 ^ 7 + f3 * 2 ^ 12 + 2 ^ 15 + 2 * 2 ^ 20
/-- Thread 0 in a STATE, with x1 and x2, its save area at 0x80000. -/
def tile (n a b : Nat) (s : State) : State :=
  ((((put [(thrReg 0, F.tcxTState, n), (R.tcxSave 0, F.tcxSaveBase, 1)] s).setTreg 0 1 a).setTreg 0 2 b).setTreg 0 tPc 0x65000).setTreg 0 tMode 3
def line (l dirty : Nat) : L1Line := ⟨l, fullMask, dirty, false, List.replicate 64 7, 0⟩
/-- Two lines in the L1 of thread 0's core. -/
def lined (s : State) : State := s.setL1 0 [line 0x60000 3, line 0x61000 0]
def known (agent : Nat) (s : State) : State := { s with recs := [(agent * 2048, (1, 4))] }
def taking (v : Nat) : State :=
  let s := put [(R.psqToken 0 0, (0, 16), v)] (tile 2 0 0 (running on))
  { s.setThr 0 { s.thr 0 with wait := 1, word := xword 3 5 } with takes := [(0, 0, 0)] }
def sdesc (n : Nat) : List Byte := toBytes 8 0x90000 ++ toBytes 8 64 ++ toBytes 4 10 ++ toBytes 2 n ++ toBytes 1 4 ++ toBytes 1 1 ++ toBytes 8 0
def described (n : Nat) : State := (tile 1 2 0x62000 on).setBytes 0x62000 (sdesc n)
def waiting (v : Nat) : State :=
  let s := (tile 2 0x63000 5 on).setBytes 0x63000 (toBytes 8 v)
  s.setThr 0 { s.thr 0 with wait := 2, word := xword 4 5 }
def apost (s : State) (n : Nat) : State :=
  let s := put [(R.vecPvuAq 0, F.vecPvuAqBase, 0x36), (R.vecPvuAq 0, F.vecPvuAqEnable, 1)] (tile 1 0 0x64000 s)
  s.setPv 0 { s.pv 0 with head := n }

/-! ### memory -/

/-- CXL decoder 0 covers the first 4 GiB of the range, on port 0, which is up or not. -/
def cxl (up : Nat) : State := put [(R.cxtDecCtl 0, F.cxtDecCtlCommitted, 1), (R.cxtDecBase 0, F.cxtDecBaseBase, 0x100000), (R.cxtDecSize 0, F.cxtDecSizeSize, 16),
  (R.cxtPStatus 0, F.cxtPStatusLinkUp, up)] on
def lost : State := put [(R.memStatus 0, F.memStatusState, 3)] on
def tainted (a : Nat) (s : State) : State := { s with poison := [a] }
def ownLine : State := { on with copies := [(0x60000, 0, true)] }
def scrubbing : State := put [(R.memStatus 0, F.memStatusState, 1), (R.memScrub 0, F.memScrubPeriod, 4)] on
def jrnl (h : Nat) : State := put [(R.memStatus 0, F.memStatusState, h), (R.psqJrnlStatus 0, F.psqJrnlStatusOpen, 1)] on
/-- A decoder to be committed: WAYS, and the port up with a device or not. -/
def dec (ways ok c l : Nat) : State :=
  put [(R.cxtDecCtl 0, F.cxtDecCtlWays, ways), (R.cxtDecCtl 0, F.cxtDecCtlTarget, 4), (R.cxtDecBase 0, F.cxtDecBaseBase, 0x100000),
    (R.cxtDecSize 0, F.cxtDecSizeSize, 16), (R.cxtPStatus 0, F.cxtPStatusLinkUp, ok), (R.cxtPStatus 0, F.cxtPStatusDevice, 1),
    (R.cxtPStatus 1, F.cxtPStatusLinkUp, ok), (R.cxtPStatus 1, F.cxtPStatusDevice, 1), (R.cxtDecCtl 0, F.cxtDecCtlCommitted, c),
    (R.cxtDecCtl 0, F.cxtDecCtlLock, l)] on
/-- The PCIe link is up; BOOT, and the memory window. -/
def linked (boot en base : Nat) : State :=
  put [(R.hifStatus, F.hifStatusLinkUp, 1), (R.hifStatus, F.hifStatusBoot, boot), (R.hifWin, F.hifWinEn, en), (R.hifWin, F.hifWinBase, base)] on
def linkedCold : State := put [(R.hifStatus, F.hifStatusLinkUp, 1)] powered

/-! ### coherence: home 4 and the line at 0x60000 -/

def req0 (k : ReqKind) : HomeReq := plainReq k 2 0x60000 1 0
def track (id phase : Nat) (k : ReqKind) (sn : List (Nat × Nat)) : Tracker := ⟨id, req0 k, false, false, phase, none, sn, .none⟩
def homed (m : Home) (s : State) : State := s.setHome 4 m
def open4 : State := homed { Home.empty with tracks := [track 0 2 .rdShared [(3, 0)]], next := 1 } on
def full4 : State := homed { Home.empty with tracks := List.replicate 254 (track 0 4 .rdShared []), next := 1 } on
/-- The line is held by agent 3 in state O, or by agent 5 in S. -/
def held4 (o : Bool) : State :=
  let s := homed { Home.empty with dir := [⟨0x60000, o, if o then 8 else 32, 0⟩], watches := [(0x60008, 1)] } on
  { s with copies := [(0x60000, if o then 3 else 5, o)], resv := [(1, 0x60000)] }
/-- An entry of the line that no agent holds. -/
def bare4 (s : State) : State := homed { Home.empty with dir := [⟨0x60000, false, 0, 0⟩] } s
def reserved4 (s : State) : State := { s with resv := [(0, 0x60000)] }
/-- Transaction 0 snoops agent 3, whose answer is `st`; agent 3 holds the line in O. -/
def snooping (k : ReqKind) (sn : List (Nat × Nat)) : State :=
  let s := homed { Home.empty with dir := [⟨0x60000, true, 8, 0⟩], tracks := [track 0 2 k sn], next := 1 } on
  { s with copies := [(0x60000, 3, true)] }
def late4 : State := homed { Home.empty with late := [(3, 7)], next := 9 } on
def freed4 (l : List (Nat × HomeReq × Bool)) : State := homed { Home.empty with tracks := [track 0 4 .rdShared [], track 1 2 .rdShared [(3, 0)]], retry := l, next := 9 } on
def returning (v : Nat) : State :=
  let s := homed { Home.empty with tracks := [{ track 0 3 .atomic [] with req := { req0 .atomic with who := 112, opnum := 6 } }], next := 1 } on
  s.setQu 0 { s.qu 0 with olds := [(4, v)] }

/-! ### host queue pairs -/

/-- Queue pair `n` of an owner in a STATE: depth 4, entries at 0xA0000, completions at 0xA8000; the journal of stake 0 is open. -/
def queue (n owner st : Nat) (s : State) : State :=
  put [(R.hifQCfg n, F.hifQCfgOwner, owner), (R.hifQCfg n, F.hifQCfgDepth, 4), (R.hifQCfg n, F.hifQCfgLevel, 1), (R.hifQCfg n, F.hifQCfgGranted, 1),
    (R.hifQCfg n, F.hifQCfgSubmit, 3), (R.hifQSq n, F.hifQSqBase, 0xA0), (R.hifQCq n, F.hifQCqBase, 0xA8), (R.hifQStatus n, F.hifQStatusState, st),
    (R.psqJrnlStatus 0, F.psqJrnlStatusOpen, 1), (R.psqJrnlStatus 0, F.psqJrnlStatusEpoch, 1), (R.psqJrnlNext 0, F.psqJrnlNextNext, 3)] s
def hq (n : Nat) (c : Hq) (s : State) : State := s.setHq n c
/-- A submission entry: opcode, generation, CID 9, and operand bytes from 8. -/
def entry (opc gen inlen : Nat) (rest : List Byte) : List Byte :=
  slice (toBytes 1 opc ++ toBytes 1 1 ++ toBytes 1 1 ++ toBytes 1 gen ++ toBytes 2 9 ++ toBytes 2 inlen ++ rest) 0 (if inlen = 0 then 64 else 512)
def cmd (seq : Nat) (e : List Byte) : Cmd := { Cmd.new seq 0 e with ack := true }
def nop0 : Cmd := cmd 2 (entry 0 1 0 [])
def doneCmd : Cmd := { nop0 with issued := true, done := true, status := 0, result := 6 }
/-- A queue pair whose next entry has a generation. -/
def fetching (e : List Byte) (c : Hq) (s : State) : State := hq 0 c ((queue 0 0 1 s).setBytes 0xA0000 e)
def toFetch0 : Hq := { Hq.idle with a := 2 }
def run0 (c : Cmd) (s : State) : State := hq 0 { Hq.idle with run := [c] } (queue 0 0 1 s)
/-- A COPY's operands: source, destination, length, spaces. -/
def copyCmd (x len : Nat) : Cmd := cmd 2 (entry 2 1 0 (toBytes 8 0xB0000 ++ toBytes 8 0xC0000 ++ toBytes 4 len ++ toBytes 1 x))
def writeCmd : Cmd := cmd 2 (entry 1 1 16 (toBytes 8 0xB0000 ++ toBytes 48 0 ++ toBytes 16 99))
def limitCmd (v : Nat) : Cmd := cmd 2 (entry 0x10 1 0 (toBytes 8 v))
def postCmd : Cmd := cmd 2 (entry 0x11 1 0 (toBytes 8 5))
def psqCmd (c : Nat) : Cmd := cmd 2 (entry 0x12 1 0 (toBytes 20 0 ++ toBytes 1 c))
def finished (s : State) (host : Nat) (del : Bool) : State :=
  hq 0 { Hq.idle with run := [doneCmd], fin := [(2, 0)], deleting := del } (put [(R.hifQCq 0, F.hifQCqHostmem, host)] (queue 0 0 1 s))
def poolQueue (c : Hq) : State :=
  hq 2 c (queue 2 0xFF 1 (put [(R.hifPoolRing, F.hifPoolRingEnable, 1), (R.hifPoolRing, F.hifPoolRingBase, 0x2300)] on))
def poolCmd : Cmd := cmd 1 (entry 0x20 1 0 [])
def irqOn (target mask : Nat) : State :=
  let s := put [(R.hifQIrq 0, F.hifQIrqEn, 1), (R.hifQIrq 0, F.hifQIrqTarget, target)] (hq 0 { Hq.idle with irq := [0] } (queue 0 0 1 on))
  { s with msix := if mask = 1 then [] else [(3, 0)] }
def journaled (st epoch : Nat) : State :=
  hq 0 { Hq.idle with hold := [entry 0 1 0 []] } (((queue 0 0 1 on).setBytes 0x601808 (toBytes 4 epoch ++ toBytes 1 st)))

/-! ### hypotheses that range over everything -/

/-- Writes to memory below the CXL range are taken where no stack is lost. -/
theorem writable_of (l : List (Nat × Nat)) (s : State) (hl : ∀ r ∈ l, r.1 + r.2 ≤ hbmEnd)
    (hs : ∀ h < 8, s.fld (R.memStatus h) F.memStatusState ≠ 3) : Writable l s := by
  intro r hr i n _ hi
  have hb := hl r hr
  have ht : r.1 + i < hbmEnd := by omega
  have hc : isCxl (r.1 + i) = false := by
    have : ¬ cxlBase ≤ r.1 + i := by simp only [cxlBase, hbmEnd] at *; omega
    simp [isCxl, this]
  have hp : isSpadStride (r.1 + i) = false := by
    have : ¬ spadAll ≤ r.1 + i := by simp only [spadAll, hbmEnd] at *; omega
    simp [isSpadStride, this]
  have hq : octetOf (r.1 + i) / 2 < 8 := by
    simp only [octetOf, slabSize, hbmEnd] at *; omega
  constructor
  · simp [State.dropped, State.stackLost, hc, hs _ hq]
  · simp [State.asuPart, hp]

/-- A claim about the members of a token set, from its 64 counters. -/
theorem forall_tokens {m : Nat} {P : Nat → Prop} (hm : m < 2 ^ 64) (h : ∀ c < 64, m.testBit c = true → P c) :
    ∀ c, m.testBit c = true → P c := by
  intro c hc
  by_cases hlt : c < 64
  · exact h c hlt hc
  · have : m.testBit c = false := Nat.testBit_lt_two_pow (lt_of_lt_of_le hm (Nat.pow_le_pow_right (by omega) (by omega)))
    rw [this] at hc; cases hc

/-- A claim about what an option holds. -/
theorem forall_some {α : Type} {o : Option α} {P : α → Prop} (h : ∀ a ∈ o, P a) : ∀ a, o = some a → P a := fun a e => h a e

/-- An absent value is no value. -/
theorem ne_some_of_isNone {α : Type} {o : Option α} (h : o.isNone = true) (a : α) : o ≠ some a := by
  intro e; rw [e] at h; cases h

/-- A module whose ring directions are all idle sends nothing. -/
theorem txq_idle {s : State} (h : s.ring = []) : ∀ rd : Nat, (s.rg rd).txq = [] := by
  intro rd; simp [State.rg, h, KMap.get, KMap.find, RingDir.idle]

end Sys2Proof.Tests
end

