-- ==== Sys2Proof/Tests/Frames.lean ====
section
/-! SUPPORT. Tests: frames written out byte by byte and what is read from them, and the states that meet the hypotheses of the statement
about received frames. The parity and CRC bytes are checked by the decoder's own equations, evaluated one byte at a time. -/

namespace Sys2Proof.Tests

open Sys2Proof Sys2Proof.Machine

set_option Elab.async false

/-- A function applied to a number that is evaluated first. -/
def strict {α : Type} (f : Nat → α) : Nat → α
  | 0 => f 0
  | n + 1 => f (n + 1)

theorem strict_eq {α : Type} (f : Nat → α) (n : Nat) : strict f n = f n := by cases n <;> rfl

/-- A left fold over numbers that evaluates every sum before the next element. -/
def foldNow {α : Type} (f : Nat → α → Nat) : Nat → List α → Nat
  | a, [] => a
  | a, c :: l => strict (fun x => foldNow f x l) (f a c)

theorem foldl_eq_foldNow {α : Type} (f : Nat → α → Nat) (l : List α) : ∀ a, l.foldl f a = foldNow f a l := by
  induction l with
  | nil => intro a; rfl
  | cons c l ih => intro a; simp [foldNow, strict_eq, ih]

/-- A codeword has no error. -/
def clean (w : List Nat) : Bool :=
  (List.range 8).all (fun j => strict (fun r => foldNow (fun acc c => gfMul acc r ^^^ c) 0 w == 0) (gfPow 2 j))

theorem rsDecode_of_clean {w : List Nat} (h : clean w = true) : rsDecode w = some (w, []) := by
  have hs : (rsSyndromes w).all (fun x => x == 0) = true := by
    simp only [rsSyndromes, foldl_eq_foldNow, List.all_map]
    simpa [clean, strict_eq, Function.comp_def] using h
  simp only [rsDecode, hs, if_true]

/-- The bytes of a codeword of a frame. -/
def codeword (b : List Byte) (c : Nat) : List Nat := (List.range 140).map (fun j => (b.getD (fecPlace c j) 0).toNat)

/-- The data bytes of a frame without errors. -/
def dataBytes (b : List Byte) : List Byte :=
  (List.range 264).map (fun i => BitVec.ofNat 8 (if i % 2 = 0 then (codeword b 0).getD (i / 2) 0 else (codeword b 1).getD (i / 2) 0))

theorem readFrame_of_clean {b : List Byte} (h0 : clean (codeword b 0) = true) (h1 : clean (codeword b 1) = true) :
    readFrame b = (let d := dataBytes b
      let h := numAt d 0 4
      if crc32 (slice d 0 260) = numAt d 260 4 ∧ (h % 4 = 1 ∨ h % 4 = 2) then some (h % 4, h, slice d 4 256, []) else none) := by
  have f0 := rsDecode_of_clean h0
  have f1 := rsDecode_of_clean h1
  simp only [codeword] at f0 f1
  simp only [readFrame, fecDecode, f0, f1, List.map_nil, List.append_nil]
  rfl

theorem crc32_eq (l : List Byte) : crc32 l = foldNow (fun c (x : Byte) => crcBits (c ^^^ x.toNat) 8) 0xFFFFFFFF l ^^^ 0xFFFFFFFF := by
  rw [crc32, foldl_eq_foldNow]

/-- A DATA frame of class 1, sequence number `seq`, acknowledging 5, with a TRANSFER barge; CRC and parity written out. -/
def dataBits (seq : Nat) (tail : List Nat) : List Byte := toBytes 4 (1 + 4 + 16 * seq + 5 * 65536) ++ transfer 2 1 9 ++ tail.map (BitVec.ofNat 8)
def data0 : List Byte := dataBits 0 [43, 7, 91, 114, 204, 246, 176, 108, 174, 127, 65, 133, 33, 178, 16, 151, 149, 69, 84, 124]
def data7 : List Byte := dataBits 7 [229, 31, 79, 162, 147, 195, 70, 106, 119, 30, 3, 49, 39, 75, 3, 131, 95, 60, 19, 198]
/-- A CTRL frame that advertises 5 flits of class 0 and 7 of class 1. -/
def ctrlFlit : List Byte := toBytes 8 (5 + 7 * 65536) ++ List.replicate 248 0
def ctrl0 : List Byte :=
  toBytes 4 (2 + 5 * 65536) ++ ctrlFlit ++
    [6, 66, 138, 134, 224, 77, 183, 61, 71, 180, 223, 24, 247, 199, 59, 121, 241, 21, 123, 179].map (BitVec.ofNat 8)
/-- A frame of zeros, whose CRC is wrong. -/
def zeros : List Byte := List.replicate 280 0

theorem test_data_frame : readFrame data0 = some (1, 327685, transfer 2 1 9, []) := by
  rw [readFrame_of_clean (by decide +kernel) (by decide +kernel)]
  simp only [crc32_eq]
  decide +kernel

theorem test_data_frame_later : readFrame data7 = some (1, 327797, transfer 2 1 9, []) := by
  rw [readFrame_of_clean (by decide +kernel) (by decide +kernel)]
  simp only [crc32_eq]
  decide +kernel

theorem test_ctrl_frame : readFrame ctrl0 = some (2, 327682, ctrlFlit, []) := by
  rw [readFrame_of_clean (by decide +kernel) (by decide +kernel)]
  simp only [crc32_eq]
  decide +kernel

theorem test_bad_crc : readFrame zeros = none := by
  rw [readFrame_of_clean (by decide +kernel) (by decide +kernel)]
  simp only [crc32_eq]
  decide +kernel

/-- The hypotheses of FramesReceived, clause by clause: a port that receives nothing; a discarded frame; DATA and CTRL frames where the
other is expected; a DATA frame in order; one out of order; a CTRL frame. -/
theorem witness_FramesReceived :
    (data0.length = 280 ∧ on.receiving 1 = false) ∧
    (portUp.receiving 1 = true ∧ portUp.flag R.ptbCtl F.ptbCtlArm = false ∧ (∀ rd : Nat, (portUp.rg rd).txq = [])) ∧
    (zeros.length = 280 ∧ readFrame zeros = none) ∧
    (ctrl0.length = 280 ∧ readFrame ctrl0 = some (2, 327682, ctrlFlit, []) ∧ ∀ q < 12, (portUp.pt q).held = []) ∧
    (data0.length = 280 ∧ readFrame data0 = some (1, 327685, transfer 2 1 9, []) ∧ bits 327685 4 12 = (portUp.pt 1).rxSeq ∧
      bits 327685 2 2 ≠ 3 ∧ numAt (transfer 2 1 9) 0 1 = 16 ∧
      bits (numAt (transfer 2 1 9) 1 1) 0 4 = portUp.fld (R.twpPStatus 1) F.twpPStatusLevel) ∧
    (data7.length = 280 ∧ readFrame data7 = some (1, 327797, transfer 2 1 9, []) ∧ bits 327797 4 12 ≠ (portUp.pt 1).rxSeq) := by
  refine ⟨by decide +kernel, ⟨by decide +kernel, by decide +kernel, txq_idle (by decide +kernel)⟩, ⟨by decide +kernel, test_bad_crc⟩,
    ⟨by decide +kernel, test_ctrl_frame, by decide +kernel⟩, ⟨by decide +kernel, test_data_frame, by decide +kernel⟩,
    ⟨by decide +kernel, test_data_frame_later, by decide +kernel⟩⟩

end Sys2Proof.Tests
end

