-- ==== Sys2Proof/WellFormed.lean ====
section
/-! DEFINITION. Well-formed commands: every operand lies in the range that its field, or the event that it tells of, admits. `exec` is
total on the others as well. -/

namespace Sys2Proof

/-- Fits in `n` bits. -/
def fits (n x : Nat) : Bool := decide (x < 2 ^ n)

/-- A physical address (R256). -/
def addrWf (a : Nat) : Bool := fits 52 a

/-- An access moves 1 to 4,096 bytes. -/
def Access.wf : Access → Bool
  | .read n => decide (1 ≤ n) && decide (n ≤ 4096)
  | .write d => decide (1 ≤ d.length) && decide (d.length ≤ 4096)
  | .atom _ n x y => (n == 4 || n == 8 || n == 16) && fits (8 * n) x && fits (8 * n) y

/-- What a read of an array finds: 0 good, 1 corrected, 2 uncorrectable. -/
def eccWf (e : Nat) : Bool := decide (e ≤ 2)

/-- The errors that a command's reads meet: addresses, each 1 corrected or 2 uncorrectable, and counts. -/
def Errs.wf (e : Errs) : Bool :=
  e.mem.all (fun p => addrWf p.1 && (p.2 == 1 || p.2 == 2)) && fits 32 e.buf && fits 32 e.unc && fits 32 e.tile && fits 32 e.reg

/-- Registers of a tile thread (Machine.Thread) with 64-bit values. -/
def leadWf (l : List (Nat × Nat)) : Bool := l.all (fun p => decide (p.1 < 98) && fits 64 p.2)

/-- Registers of a server core (Machine.State.core): 256-bit vectors, 2,048 identities of an interrupt file, the others 64-bit. -/
def coreLeadWf (l : List (Nat × Nat)) : Bool :=
  l.all (fun p => decide (p.1 < 8199) && fits (if 128 ≤ p.1 ∧ p.1 < 160 then 256 else if 8192 ≤ p.1 then 2048 else 64) p.2)

/-- What a requester's base instructions left: nothing but of a tile thread or a server core. -/
def reqLeadWf (r : Requester) (l : List (Nat × Nat)) : Bool :=
  match r with
  | .tile _ => leadWf l
  | .core _ => coreLeadWf l
  | _ => l.isEmpty

/-- Configuration requests of the host: a register of Machine.State.config and its value. -/
def cfgWf (l : List (Nat × Nat)) : Bool := l.all (fun p => decide (p.1 ≤ 3) && fits 32 p.2)

/-- A submission-queue entry read from host memory. -/
def entryWf (h : Option (List Byte)) : Bool :=
  match h with
  | none => true
  | some b => b.length == 64 || b.length == 512

/-- A management request: its fields' widths, and an AUTH slot byte (R382, R383). -/
def Req.wf (q : Req) : Bool :=
  fits 4 q.level && fits 8 q.tag && fits 11 q.rsvd && (match q.auth with | none => true | some a => fits 8 a.slot)

/-- What training finds: lanes and depths in range. -/
def TrainInfo.wf (i : TrainInfo) : Bool :=
  fits 8 i.lanes && fits 8 i.passed && fits 64 i.modid && decide (i.port < 12) && fits 4 i.levelMin && fits 4 i.levelMax && decide (i.width ≤ 8) &&
    i.depths.length == 4 && i.depths.all (fits 16) && fits 12 i.ack

/-- A 32-bit instruction of a tile thread. -/
def wordWf (l : List (Nat × Nat)) (w : Nat) : Bool := leadWf l && fits 32 w

/-- A received frame is 280 bytes (R290). -/
def frameWf (b : List Byte) : Bool := b.length == 280

/-- A request to a home. -/
def reqWf (a age ecc : Nat) : Bool := addrWf a && fits 8 age && eccWf ecc

/-- Sizes of an atomic. -/
def sizeWf (n : Nat) : Bool := n == 4 || n == 8

/-- A command's operands are in range. -/
def Instr.wf : Instr → Bool
  | .powerOn => true
  | .pwrOkRise => true
  | .pwrOkFall => true
  | .railEnable => true
  | .railPgTimeout => true
  | .railPowerGood _ => true
  | .optionLoad samples slotId => samples.length == 16 && samples.all (fits 4) && fits 4 slotId
  | .domainRelease _ _ => true
  | .islandSettled _ => true
  | .weaveBootApply _ _ => true
  | .wrstNAssert => true
  | .wrstHoldRelease => true
  | .wrstNDeassert => true
  | .pcieHotReset => true
  | .flr => true
  | .warmPrephaseDone => true
  | .warmPrephaseTimeout => true
  | .watchdogExpiry => true
  | .watchdogTick => true
  | .lkWdogKick _ => true
  | .securityReset => true
  | .stakeReset _ _ _ => true
  | .lkForce _ domains => fits 10 domains
  | .supplyWarnAssert => true
  | .braceComplete => true
  | .supplyWarnDeassert => true
  | .throttleChange tj => fits 8 tj
  | .lkThrotSwWrite _ v => fits 2 v
  | .lkSbFaultWrite _ _ => true
  | .registerWrite _ addr _ => addrWf addr
  | .inputLoss => true
  | .hbmStackReady _ => true
  | .journalCaptureDone => true
  | .wvCmdApplyPartial _ _ _ _ => true
  | .partialQuiesceBegin => true
  | .partialCommit => true
  | .quiesceTimeout => true
  | .programFetch _ _ => true
  | .nop _ _ => true
  | .jump _ _ => true
  | .mbegin _ => true
  | .mend _ => true
  | .seal _ => true
  | .sealLatch _ => true
  | .start _ _ _ => true
  | .stop _ _ _ => true
  | .resume _ _ _ skip => fits 3 skip
  | .restore _ _ _ => true
  | .stopComplete _ => true
  | .psqPost _ _ mask => fits 64 mask
  | .psqXlimitWrite _ _ _ v => fits 64 v
  | .mxf _ _ => true
  | .mxb _ _ => true
  | .mxw _ _ => true
  | .mxIssue _ latch feed drain token _ errs => fits 64 latch && fits 64 feed && fits 64 drain && fits 64 token && errs.wf
  | .mxComplete _ => true
  | .dvuRow _ wait away errs => fits 64 wait && fits 64 away && errs.wf
  | .vx _ _ => true
  | .vxComplete _ => true
  | .pvOp _ _ => true
  | .pvLd _ _ => true
  | .pvSt _ _ => true
  | .pvSplat _ _ => true
  | .pvLred _ _ => true
  | .pvBcast _ _ => true
  | .pvCmpgt _ _ => true
  | .pvSel _ _ => true
  | .pvCommit _ errs => errs.wf
  | .pvuAssist _ errs => errs.wf
  | .sopen _ _ => true
  | .sclose _ _ => true
  | .scloseIssue _ => true
  | .spop _ => true
  | .sdrop _ => true
  | .sdropIssue _ => true
  | .sbind _ => true
  | .asuSegmentPush _ _ errs => errs.wf
  | .asuSegmentTransferDone _ _ errs => errs.wf
  | .qupd _ => true
  | .qbind _ => true
  | .qclr _ => true
  | .qemit _ => true
  | .quayOpComplete _ held errs => fits 64 held && errs.wf
  | .quayReserve _ wait => fits 64 wait
  | .quayReservationGrant _ wait => fits 64 wait
  | .quaySliceArrive _ => true
  | .quayFold _ held errs => fits 64 held && errs.wf
  | .reducedBlockArrive _ => true
  | .quayBoundUpdate _ errs => errs.wf
  | .farAtomic _ errs => errs.wf
  | .rjob _ => true
  | .rjobIssue _ errs => errs.wf
  | .xread _ => true
  | .sealBarge _ => true
  | .exchangeTimeout _ => true
  | .scatter8 _ errs => errs.wf
  | .scatter16 _ errs => errs.wf
  | .scatter32 _ errs => errs.wf
  | .req16 _ errs => errs.wf
  | .req32 _ errs => errs.wf
  | .gather _ => true
  | .gatherSend _ => true
  | .jobClose _ => true
  | .jobTimeout _ => true
  | .kextend _ _ => true
  | .kwrite _ _ => true
  | .kgather _ _ => true
  | .kgatherUnmoor _ => true
  | .kshare _ _ => true
  | .kfree _ _ => true
  | .kbasket _ _ => true
  | .kvComplete _ => true
  | .init _ _ _ _ => true
  | .release _ _ _ _ => true
  | .tsend _ _ => true
  | .tsendIssue _ => true
  | .tsendComplete _ _ _ => true
  | .tsendTimeout _ _ _ => true
  | .transferBarge _ _ => true
  | .dataFrame _ bytes => frameWf bytes
  | .ctrlFrame _ bytes => frameWf bytes
  | .fullTraining _ info => info.wf
  | .fastRetrain _ info => info.wf
  | .trainingRetry _ info => info.wf
  | .portDown _ => true
  | .takePortDown _ _ _ => true
  | .twpCmdFastRetrain _ _ _ => true
  | .twpCmdFullTraining _ _ _ => true
  | .twpWinEnable _ _ _ => true
  | .frameLock _ => true
  | .laneLockLoss _ _ => true
  | .tcxLaunch _ _ _ _ _ => true
  | .tcxHalt _ _ _ _ _ => true
  | .wfi _ lead => leadWf lead
  | .rtAcq _ lead word => wordWf lead word
  | .rtRel _ lead word => wordWf lead word
  | .rtTpost _ lead word => wordWf lead word
  | .rtTtake _ lead word => wordWf lead word
  | .ttakeServe _ => true
  | .rtTwait _ lead word => wordWf lead word
  | .twaitReread _ => true
  | .rtApost _ lead word => wordWf lead word
  | .rtSdesc _ lead word => wordWf lead word
  | .rtSstop _ lead word => wordWf lead word
  | .scratchpadAccess r lead addr a errs => reqLeadWf r lead && addrWf addr && a.wf && errs.wf
  | .memoryAccess r lead addr a errs => reqLeadWf r lead && addrWf addr && a.wf && errs.wf
  | .patrolScrub _ addr ecc _ _ => addrWf addr && eccWf ecc
  | .hbmStackLost _ cause => decide (1 ≤ cause) && decide (cause ≤ 3)
  | .hbmTempChange _ temp => fits 8 temp
  | .cxtDecCommit _ _ => true
  | .cxtDecUncommit _ _ => true
  | .cxtDecLock _ _ => true
  | .cxlLinkDown _ => true
  | .cxlLinkUp _ width speed _ _ => (width == 8 || width == 16) && decide (1 ≤ speed) && decide (speed ≤ 6)
  | .rdShared _ _ addr age dirEcc => reqWf addr age dirEcc
  | .rdUnique _ _ addr age dirEcc => reqWf addr age dirEcc
  | .rdOnce _ _ addr age dirEcc => reqWf addr age dirEcc
  | .wrFull _ _ addr age dirEcc _ data => reqWf addr age dirEcc && data.length == 64
  | .wrMasked _ _ addr age dirEcc mask data => reqWf addr age dirEcc && fits 64 mask && data.length == 64
  | .atomic _ r lead _ addr age dirEcc size a b => reqLeadWf r lead && reqWf addr age dirEcc && sizeWf size && fits 64 a && fits 64 b
  | .watch _ _ addr age dirEcc => reqWf addr age dirEcc
  | .wback _ _ addr => addrWf addr
  | .grant _ _ => true
  | .trackerFree _ => true
  | .snoop _ _ _ _ => true
  | .snoopAnswer _ _ _ _ => true
  | .snoopTimeout _ _ => true
  | .quayAtomicReturn _ _ => true
  | .lr _ r lead addr age dirEcc size => reqLeadWf r lead && reqWf addr age dirEcc && sizeWf size
  | .sc _ r lead addr age dirEcc size v => reqLeadWf r lead && reqWf addr age dirEcc && sizeWf size && fits 64 v
  | .bar0Access cfg off a => cfgWf cfg && decide (off ≤ 0x1000000) && a.wf
  | .bar2Access cfg off a errs => cfgWf cfg && fits 26 off && a.wf && errs.wf
  | .hifSyncRead => true
  | .hifCtlLinkEn _ _ => true
  | .hifBootGo _ _ len => fits 21 len
  | .create _ _ _ => true
  | .delete _ _ _ => true
  | .restart _ _ _ => true
  | .hifDbSq _ _ tail gen => fits 16 tail && fits 8 gen
  | .hifDbCq _ _ head => fits 16 head
  | .sqFetch _ host _ => entryWf host
  | .sqRefetch _ host _ => entryWf host
  | .journalCommit _ _ => true
  | .hifNop _ => true
  | .hifWrite _ => true
  | .copy _ host _ _ => (match host with | none => true | some b => decide (b.length ≤ 4096))
  | .psqLimit _ => true
  | .hifPsqPost _ => true
  | .hifPsqCmd _ => true
  | .pool _ _ => true
  | .commandComplete _ _ => true
  | .hifPoolDone _ _ cid status => fits 16 cid && fits 8 status
  | .hifPoolRingEnable _ base => addrWf base
  | .irqTimer _ => true
  | .pcieLinkUp width speed _ => [1, 2, 4, 8, 16].contains width && decide (1 ≤ speed) && decide (speed ≤ 6)
  | .pcieLinkDown => true
  | .journalReplay _ => true
  | .unitFailure kind unit ns => decide (1 ≤ kind) && decide (kind ≤ 6) && fits 8 unit && fits 64 ns
  | .unitWatchdogTimeout kind unit ns => decide (1 ≤ kind) && decide (kind ≤ 4) && fits 8 unit && fits 64 ns
  | .getStatus q => q.wf
  | .getNonce q => q.wf
  | .getLog q off => q.wf && fits 32 off
  | .flashWrite q off data => q.wf && fits 32 off && decide (data.length ≤ 4096)
  | .flashCommit q region len _ => q.wf && fits 8 region && fits 32 len
  | .flashCommitDone => true
  | .enrollKey q _ => q.wf
  | .revokeKey q slot => q.wf && fits 8 slot
  | .advanceRollback q v => q.wf && fits 8 v
  | .secretPut q idx data => q.wf && fits 8 idx && decide (data.length ≤ 1024)
  | .debugOpen q => q.wf
  | .debugOpenEraseDone => true
  | .moduleReset q => q.wf
  | .nonceExpiry => true
  | .spdmGetVersion _ => true
  | .spdmGetCapabilities _ version => fits 8 version
  | .spdmNegotiateAlgorithms _ _ => true
  | .spdmGetDigests _ => true
  | .spdmGetCertificate _ slot off len => fits 4 slot && fits 16 off && fits 16 len
  | .spdmChallenge _ slot nonce => fits 4 slot && nonce.length == 32
  | .spdmGetMeasurements _ idx _ => fits 8 idx
  | .spdmKeyExchange _ reqId => fits 16 reqId
  | .spdmFinish _ _ => true
  | .spdmHeartbeat _ => true
  | .spdmKeyUpdate _ op => fits 8 op
  | .spdmEndSession _ => true
  | .doeAbort => true
  | .doeDiscovery index => fits 8 index
  | .ptbArm _ _ => true

end Sys2Proof
end

