-- ==== Sys2Proof/Tests/Slice0.lean ====
section
/-! SUPPORT. Tests: ill-formed commands are refused, and small checks of operations and commands against values that the spec gives or
that are worked out from it by hand. Expected values never come from the model. -/

namespace Sys2Proof.Tests

open Sys2Proof Sys2Proof.Machine

set_option Elab.async false

/-! ### well-formedness -/

/-- A management request that is well formed. -/
def mgmt : Req := { i3c := false, level := 1, tag := 7, rsvd := 0, auth := none }

/-- What a training finds, well formed. -/
def trained : TrainInfo :=
  { lanes := 255, passed := 255, modid := 0, port := 0, levelMin := 1, levelMax := 1, width := 8, up := true, depths := [1, 1, 1, 1], ack := 0 }

/-- One ill-formed term for each check of Instr.wf and of what it calls. -/
def illFormed : List Instr :=
  [.optionLoad (List.replicate 15 0) 0, .optionLoad (List.replicate 16 16) 0, .optionLoad (List.replicate 16 0) 16,
   .lkForce .sec 1024, .throttleChange 256, .lkThrotSwWrite .sec 4, .registerWrite .sec (2 ^ 52) 0, .resume .sec [] 0 8,
   .psqPost .sec 0 (2 ^ 64), .psqXlimitWrite .sec 0 .f (2 ^ 64), .mxIssue 0 (2 ^ 64) 0 0 0 true Errs.none,
   .mxIssue 0 0 (2 ^ 64) 0 0 true Errs.none, .mxIssue 0 0 0 (2 ^ 64) 0 true Errs.none, .mxIssue 0 0 0 0 (2 ^ 64) true Errs.none,
   .mxIssue 0 0 0 0 0 true ⟨[(2 ^ 52, 1)], 0, 0, 0, 0⟩, .dvuRow 0 0 0 ⟨[(0, 0)], 0, 0, 0, 0⟩, .dvuRow 0 (2 ^ 64) 0 Errs.none,
   .dvuRow 0 0 (2 ^ 64) Errs.none, .pvCommit 0 ⟨[], 2 ^ 32, 0, 0, 0⟩, .pvuAssist 0 ⟨[], 0, 2 ^ 32, 0, 0⟩,
   .farAtomic 0 ⟨[], 0, 0, 2 ^ 32, 0⟩, .rjobIssue 0 ⟨[], 0, 0, 0, 2 ^ 32⟩]

/-- The same, for the commands of links, cores, memory and the host. -/
def illFormed' : List Instr :=
  [.quayOpComplete 0 (2 ^ 64) Errs.none, .quayReserve 0 (2 ^ 64), .quayReservationGrant 0 (2 ^ 64), .quayFold 0 (2 ^ 64) Errs.none,
   .dataFrame 0 (List.replicate 279 0), .ctrlFrame 0 (List.replicate 281 0), .fullTraining 0 { trained with lanes := 256 },
   .fullTraining 0 { trained with passed := 256 }, .fullTraining 0 { trained with modid := 2 ^ 64 }, .fastRetrain 0 { trained with port := 12 },
   .fastRetrain 0 { trained with levelMin := 16 }, .fastRetrain 0 { trained with levelMax := 16 }, .trainingRetry 0 { trained with width := 9 },
   .trainingRetry 0 { trained with depths := [] }, .trainingRetry 0 { trained with depths := [1, 1, 1, 65536] },
   .trainingRetry 0 { trained with ack := 4096 }, .wfi 0 [(98, 0)], .wfi 0 [(1, 2 ^ 64)], .rtAcq 0 [] (2 ^ 32),
   .memoryAccess (.core 0) [(8199, 0)] 0 (.read 8) Errs.none, .memoryAccess (.core 0) [(1, 2 ^ 64)] 0 (.read 8) Errs.none,
   .memoryAccess .sec [(1, 0)] 0 (.read 8) Errs.none, .memoryAccess .sec [] 0 (.read 0) Errs.none,
   .memoryAccess .sec [] 0 (.write []) Errs.none, .memoryAccess .sec [] 0 (.atom .add 2 0 0) Errs.none,
   .memoryAccess .sec [] 0 (.atom .add 4 (2 ^ 32) 0) Errs.none, .patrolScrub 0 0 3 false false, .hbmStackLost 0 0, .hbmStackLost 0 4,
   .hbmTempChange 0 256, .cxlLinkUp 0 7 1 false true, .cxlLinkUp 0 8 7 false true, .rdShared 0 0 0 256 0, .rdUnique 0 0 0 0 3]

/-- The same, for coherence, queue pairs, failures and management. -/
def illFormed'' : List Instr :=
  [.wrFull 0 0 0 0 0 false [], .wrMasked 0 0 0 0 0 (2 ^ 64) (List.replicate 64 0), .wrMasked 0 0 0 0 0 0 [],
   .atomic 0 .sec [] .add 0 0 0 3 0 0, .atomic 0 .sec [] .add 0 0 0 4 (2 ^ 64) 0, .atomic 0 .sec [] .add 0 0 0 4 0 (2 ^ 64),
   .lr 0 .sec [] 0 0 0 3, .sc 0 .sec [] 0 0 0 4 (2 ^ 64), .bar0Access [(4, 0)] 0 (.read 8), .bar0Access [(0, 2 ^ 32)] 0 (.read 8),
   .bar0Access [] 0x1000001 (.read 8), .bar2Access [] (2 ^ 26) (.read 8) Errs.none, .hifBootGo .sec [] (2 ^ 21), .hifDbSq .sec 0 (2 ^ 16) 0,
   .hifDbSq .sec 0 0 256, .hifDbCq .sec 0 (2 ^ 16), .sqFetch 0 (some []) true, .copy 0 (some (List.replicate 4097 0)) false true,
   .hifPoolDone .sec 0 (2 ^ 16) 0, .hifPoolDone .sec 0 0 256, .hifPoolRingEnable .sec (2 ^ 52), .pcieLinkUp 3 1 false, .pcieLinkUp 4 0 false,
   .unitFailure 0 0 0, .unitFailure 7 0 0, .unitFailure 1 256 0, .unitFailure 1 0 (2 ^ 64), .unitWatchdogTimeout 5 0 0,
   .getStatus { mgmt with level := 16 }, .getNonce { mgmt with tag := 256 }, .getLog { mgmt with rsvd := 2048 } 0,
   .getStatus { mgmt with auth := some ⟨256, true⟩ }, .getLog mgmt (2 ^ 32), .flashWrite mgmt 0 (List.replicate 4097 0),
   .flashCommit mgmt 256 0 true, .revokeKey mgmt 256, .advanceRollback mgmt 256, .secretPut mgmt 256 [],
   .secretPut mgmt 0 (List.replicate 1025 0), .spdmGetCapabilities false 256, .spdmGetCertificate false 16 0 0,
   .spdmGetCertificate false 0 (2 ^ 16) 0, .spdmChallenge false 0 [], .spdmGetMeasurements false 256 false,
   .spdmKeyExchange false (2 ^ 16), .spdmKeyUpdate false 256, .doeDiscovery 256]

theorem test_wf_refuses : (illFormed ++ illFormed' ++ illFormed'').all (fun i => !i.wf) = true := by decide +kernel

theorem test_wf_accepts :
    ([.optionLoad (List.replicate 16 5) 3, .mxIssue 0 1 2 3 4 true Errs.none, .dataFrame 0 (List.replicate 280 0), .fullTraining 0 trained,
      .memoryAccess (.tile 0) [(1, 5)] 0x60000 (.write [1, 2]) Errs.none, .atomic 4 .sec [] .add 0x60000 0 0 8 1 0,
      .unitFailure 6 11 0, .getStatus mgmt] : List Instr).all Instr.wf = true := by decide +kernel

/-! ### numbers (chapter 2), expected values by hand from the tables -/

/-- 1.5 in FP8 E4M3 is 0x3C, in BF16 0x3FC0, in FP16 0x3E00. -/
theorem test_formats_agree :
    rne32 (decodeElem .e4m3 false 0x3C) = 0x3FC00000 ∧ rne32 (decodeElem .bf16 false 0x3FC0) = 0x3FC00000 ∧
      rne32 (decodeElem .fp16 false 0x3E00) = 0x3FC00000 := by decide +kernel

/-- 2^24 + 1 lies half way between two FP32 values: round to nearest even keeps 2^24. -/
theorem test_int_to_fp32_ties_even : intTo32 (2 ^ 24 + 1) = 0x4B800000 ∧ intTo32 (2 ^ 24 + 3) = 0x4B800002 := by decide +kernel

/-- R44: 1.0 under E = 127 is 64 in BW8; 0x80 reads as −128, and under E = 0xFE as −∞ (log 45). -/
theorem test_block_formats : toBw 8 127 0x3F800000 = (64, false) ∧ ofBw 8 127 64 = 0x3F800000 ∧ ofBw 8 127 (-128) = 0xC0000000 ∧
    ofBw 8 0xFE (-128) = 0xFF800000 := by decide +kernel

/-- 1 + 2 = 3, ∞ − ∞ is the canonical NaN, 1 / 3 rounds to 0x3EAAAAAB, and the root of 2 to 0x3FB504F3. -/
theorem test_arithmetic : add32 0x3F800000 0x40000000 = 0x40400000 ∧ sub32 0x7F800000 0x7F800000 = 0x7FC00000 ∧
    div32 0x3F800000 0x40400000 = 0x3EAAAAAB ∧ sqrt32 0x40000000 = 0x3FB504F3 := by decide +kernel

/-- INT8 products: 3·7 + 5·(−2) = 11. -/
theorem test_dot_int : dotInt true 0 [3, 5] [7, -2] = 11 := by decide +kernel

/-! ### codes -/

/-- The generator of eight roots 1 to x^7 of the field of 0x11D. -/
theorem test_rs_generator : rsGen = [1, 255, 11, 81, 54, 239, 173, 200, 24] := by decide +kernel

/-- The check value of the CRC-32 of IEEE 802.3 (log 58). -/
theorem test_crc32 : crc32 [0x31, 0x32, 0x33, 0x34, 0x35, 0x36, 0x37, 0x38, 0x39] = 0xCBF43926 := by decide +kernel

/-- The parity of a data byte 1 is the remainder of x^8 by the generator: the generator without its leading 1 (R291). -/
theorem test_rs_parity : rsParity rsGen [1] = [255, 11, 81, 54, 239, 173, 200, 24] := by decide +kernel

/-- SHA-384 of "abc" begins with cb 00 75 3f and ends with c8 25 a7 (FIPS 180-4, log 6). -/
theorem test_sha384 : (sha384 [0x61, 0x62, 0x63]).toNat % 2 ^ 32 = 0x3F7500CB ∧ (sha384 [0x61, 0x62, 0x63]).toNat / 2 ^ 360 = 0xA725C8 := by
  decide +kernel

/-! ### weaves (chapter 1) -/

/-- Stake 0 of Table 1-10: dies A0 to A2. Regions are its own, at the start of its memory. -/
def example0 : StakeRec := { rec0 with
  eng := 0x00FFFFFF, pvu := 0x3F, tc := 2 ^ 192 - 1, ch := 2 ^ 96 - 1, ways := [0xFF, 0xFFFF, 0xFFFF, 0xFFFF, 0], spad := 8, mb := 16, wfmt := 3,
  ffmt := 8, xfmt := 0x0E, group := 0xFF, jobBase := 0, jobCount := 48, seqLimit := 0 }

/-- Stake 1 of Table 1-10: die A3. -/
def example1 : StakeRec := { rec1 with
  eng := 0xFF000000, pvu := 0xC0, tc := 2 ^ 256 - 2 ^ 192, ch := 2 ^ 128 - 2 ^ 96, ways := [0x0F00, 0, 0, 0, 0xFFFF], spad := 0, mb := 1, wfmt := 3,
  ffmt := 8, xfmt := 0x0E, group := 0xFF, jobBase := 48, jobCount := 0, seqLimit := 256 }

/-- "The module-wide checks pass": the two stakes share no unit, channel, way or job ID. -/
theorem test_example_stakes_do_not_meet : stakesMeet example0 example1 = false := by decide +kernel

/-- A shared engine is a meeting. -/
theorem test_shared_engine_meets : stakesMeet example0 { example1 with eng := 0xFF800000 } = true := by decide +kernel

/-- An image of a STAKE and a WIDTHS record passes every check, and one byte more in its declared length fails check 1. -/
theorem test_image_checks : checkWeave (boot 7 []) fullImage none 255 true = none ∧
    (checkWeave (boot 7 []) fullImage (some (fullImage.length + 1)) 255 true).map (·.1) = some 1 := by decide +kernel

/-! ### commands -/

/-- The state after a command. -/
def after (i : Instr) (s : State) : State :=
  match exec i s with
  | .next t => t
  | _ => s

theorem test_power_on : (after .powerOn State.reset).lk.powered = true := by decide +kernel

/-- Table 15-8: OPTSEL 12 is invalid, and LK_OPT shows the code alone (log 61). -/
theorem test_optsel_invalid : ((phase 1).latchOpt 12).fld R.lkOpt F.lkOptCode = 12 ∧ ((phase 1).latchOpt 12).fld R.lkOpt F.lkOptRole = 0 := by
  decide +kernel

/-- R241: a step with nothing waiting counts one. -/
theorem test_time_counts : (match step on with | .next t => t.time | _ => 0) = on.time + 1 := by decide +kernel

/-- A write of a read-only register changes nothing (R370). -/
theorem test_read_only : (after (.registerWrite .sec (R.glbId) 5) on).reg R.glbId = on.reg R.glbId := by decide +kernel

/-- NOP waits for tokens 0 (at 2) and 5 (at 1), posts tokens 5 and 63 (at 65,534), and the stream goes on to index 1 (R124, R125). -/
theorem test_nop : let t := after (.nop 0 .f) nop
    (t.tok 0 0, t.tok 0 5, t.tok 0 63, t.indexOf 0 0) = (1, 1, 65535, 1) := by decide +kernel

/-- JUMP goes to its target (R120). -/
theorem test_jump : (after (.jump 0 .f) jump).pcOf 0 0 = 3 := by decide +kernel

/-- MXF of the INT8 rows [3], [5] and [7], [−2]: the accumulators are 21, −6, 35 and −10 (R66). -/
theorem test_mx_issue : ((after (.mxIssue 0 0 0 0 0 true Errs.none) mxReady).q 0).outst.map (·.acc) =
    [[[21, 2 ^ 32 - 6], [35, 2 ^ 32 - 10]]] := by decide +kernel

/-- MX_COMPLETE ends the instruction. -/
theorem test_mx_complete : ((after (.mxComplete 0) mxDone).q 0).outst = [] := by decide +kernel

/-- SOPEN opens a frame where none has the tag (R152). -/
theorem test_sopen : (((after (.sopen 0 .f) (sopen (asRest 0 3 8 7 2) [])).as 0 0).frames.map (·.tag)) = [3] := by decide +kernel

/-- A far atomic adds to the word and keeps the old value for its home (R188). -/
theorem test_far_atomic : ((after (.farAtomic 0 Errs.none) (atoms [])).num 0x120000 4) = 3 ∧
    (((after (.farAtomic 0 Errs.none) (atoms [])).qu 0).olds) = [(5, 0)] := by decide +kernel

/-- A tile thread's WFI ends its run until a wake (R246). -/
theorem test_wfi : (after (.wfi 0 []) (tile 1 0 0 on)).tState 0 ≠ 1 := by decide +kernel

/-- A read of a register is 64 bits wide: a narrow one answers an error (R371). -/
theorem test_narrow_register_read : (after (.memoryAccess .sec [] R.lkSb (.read 4) Errs.none) on).resp = .error := by decide +kernel

/-- Memory: what is written is read, and the bytes beside it stay (R256). -/
theorem test_memory_write : let t := after (.memoryAccess .sec [] 0x60000 (.write [1, 2]) Errs.none) on
    (t.byte 0x60000, t.byte 0x60001, t.byte 0x60002) = (1, 2, on.byte 0x60002) := by decide +kernel

/-- A host AtomicOp outside the window does nothing (R309). -/
theorem test_host_atomic_outside : after (.atomic 4 .host [] .add 0x60000 0 0 8 1 0) on = on := by decide +kernel

/-- LR then SC of one thread writes the word (R282). -/
theorem test_lr_sc :
    let s := { tile 1 0 0 on with resv := [(0, 0x60000)] }
    ((after (.sc 4 (.tile 0) [] 0x60000 0 0 4 7) s).num 0x60000 4, (after (.sc 4 (.tile 0) [] 0x60000 0 0 4 7) (tile 1 0 0 on)).num 0x60000 4) =
      (7, 0) := by decide +kernel

/-- D3hot: a read of BAR0 is an Unsupported Request (log 52). -/
theorem test_d3hot : (after (.bar0Access [(0, 3)] 0 (.read 8)) linkedCold).resp = .unsupported := by decide +kernel

/-- DOE discovery of index 3 answers the end of the list (R328, log 29). -/
theorem test_doe_end : (after (.doeDiscovery 3) (put [(R.secState, F.secStateBoot, 1), (R.hifStatus, F.hifStatusLinkUp, 1)] on)).resp =
    .data [0x7A, 0x1F, 1, 0] := by decide +kernel

/-! ### hypotheses that are met -/

/-- A NaN element, an infinity times zero, infinite products of both signs; and a list with one infinite product. -/
theorem witness_GroupSpecials :
    (∃ p ∈ [(Val.nan, Val.inf false)], p.1 = .nan ∨ p.2 = .nan) ∧
    (∃ p ∈ [(Val.inf true, Val.fin false 0 3)], ∃ b c e, p = (Val.inf b, Val.fin c 0 e) ∨ p = (Val.fin c 0 e, Val.inf b)) ∧
    (let l := [(Val.inf true, Val.fin false 3 2)];
      ¬ ((∃ p ∈ l, p.1 = .nan ∨ p.2 = .nan) ∨
        (∃ p ∈ l, ∃ b c e, p = (Val.inf b, Val.fin c 0 e) ∨ p = (Val.fin c 0 e, Val.inf b)) ∨
        ((∃ p ∈ l, Val.mul p.1 p.2 = .inf false) ∧ ∃ p ∈ l, Val.mul p.1 p.2 = .inf true)) ∧
      ∃ p ∈ l, Val.mul p.1 p.2 = .inf true) := by
  simp [Val.mul]

/-- A step that answers a next state, for StepKeepsInvariant; commands that belong to the work of stakes, for WorkLeavesTheModule; commands
without a store, for CommandsThatStoreNothing. -/
theorem witness_StepKeepsInvariant : ∃ t, step on = .next t := ⟨_, rfl⟩
theorem witness_WorkLeavesTheModule : (Instr.dvuRow 0 0 0 Errs.none).work = true ∧ (Instr.hifNop 0).work = true := by decide
theorem witness_CommandsThatStoreNothing : (Instr.programFetch 0 .f).stores = false ∧ (Instr.sclose 0 .f).stores = false := by decide

end Sys2Proof.Tests
end

