-- ==== Sys2Proof/Tests/Witness0.lean ====
section
/-! SUPPORT. Tests: for each statement named here, states and operands that meet its hypotheses together. -/

namespace Sys2Proof.Tests

open Sys2Proof Sys2Proof.Machine

set_option autoImplicit false
set_option Elab.async false

/-- States and operands that meet the hypotheses of InputAndRails, clause by clause. -/
theorem witness_InputAndRails :
    ((State.reset.lk.powered = false)) ∧
    ((powered.lk.powered = true) ∧ (powered.lk.pwrOk = false)) ∧
    (((phase 0).lk.powered = true) ∧ ((phase 0).lk.pwrOk = true)) ∧
    ((railsUp.railing = true) ∧ (1 ≤ railsUp.lk.railsOn) ∧ (railsUp.lk.railsOn < 8)) ∧
    (((phase 0).railing = true) ∧ (0 < (phase 0).lk.railsOn) ∧ (2 ≠ 0)) ∧
    (((phase 0).railing = true) ∧ ((phase 0).warming = false) ∧ (0 < (phase 0).lk.railsOn) ∧ (0 < 8) ∧ ((phase 0).fldBit R.lkRail F.lkRailPg
          0 = false) ∧ (∀ j < 0, (phase 0).fldBit R.lkRail F.lkRailPg j = true)) := by
  refine ⟨?_, ?_, ?_, ?_, ?_, ?_⟩
  · decide +kernel
  · decide +kernel
  · decide +kernel
  · decide +kernel
  · decide +kernel
  · exact ⟨by decide +kernel, by decide +kernel, by decide +kernel, by decide +kernel, by decide +kernel, by decide +kernel⟩

/-- States and operands that meet the hypotheses of OptionsIslandsAndForce, clause by clause. -/
theorem witness_OptionsIslandsAndForce :
    (((opts 6).lk.powered = true) ∧ ((opts 6).lk.pwrOk = true) ∧ ((opts 6).flag R.lkStatus F.lkStatusLoadDone = false) ∧ ((opts 6).flag
          R.lkStatus F.lkStatusWrst = false) ∧ ((opts 6).fld R.lkStatus F.lkStatusPhase = 1) ∧ ((opts 6).lk.optRead = true) ∧
          ((List.replicate 16 11).length = 16) ∧ (11 < 12) ∧ (∀ x ∈ (List.replicate 16 11), x = 11) ∧ (0 < 96)) ∧
    (((opts 6).lk.powered = true) ∧ ((opts 6).lk.pwrOk = true) ∧ ((opts 6).flag R.lkStatus F.lkStatusLoadDone = false) ∧ ((opts 6).flag
          R.lkStatus F.lkStatusWrst = false) ∧ ((opts 6).fld R.lkStatus F.lkStatusPhase = 1) ∧ ((opts 6).lk.optRead = true) ∧
          ((List.replicate 15 3 ++ [4]).length = 16) ∧ (∃ x ∈ (List.replicate 15 3 ++ [4]), x % 16 ≠ (List.replicate 15 3 ++ [4]).headD 0 %
          16) ∧ ((opts 6).lk.optTries < 8)) ∧
    (((opts 6).lk.powered = true) ∧ ((opts 6).lk.pwrOk = true) ∧ ((opts 6).flag R.lkStatus F.lkStatusLoadDone = false) ∧ ((opts 6).flag
          R.lkStatus F.lkStatusWrst = false) ∧ ((opts 6).fld R.lkStatus F.lkStatusPhase = 1) ∧ ((opts 6).lk.optRead = true) ∧
          ((List.replicate 16 12).length = 16) ∧ ((∃ x ∈ (List.replicate 16 12), x % 16 ≠ (List.replicate 16 12).headD 0 % 16) ∧ (opts
          6).lk.optTries = 8 ∨ 12 ≤ 12 ∧ 12 < 16 ∧ ∀ x ∈ (List.replicate 16 12), x = 12)) ∧
    (((phase 8).domainUp 5 = true) ∧ ((phase 8).fld (R.memStatus 0) F.memStatusState = 0 ∨ (phase 8).fld (R.memStatus 0) F.memStatusState =
          2)) ∧
    ((Granted powered .sec R.lkForce) ∧ (.sec ≠ Master.sec ∨ powered.flag R.secState F.secStateGate = false)) ∧
    ((settling.fld (R.lkIsl 95) F.lkIslState = 1)) ∧
    ((Granted gateOpen Master.sec R.lkForce) ∧ (gateOpen.flag R.secState F.secStateGate = true) ∧ (gateOpen.flag R.lkStatus
          F.lkStatusLoadDone = true) ∧ (3 ≤ 3) ∧ (3 < 10) ∧ ((0x3FF).testBit 3 = true)) := by
  refine ⟨?_, ?_, ?_, ?_, ?_, ?_, ?_⟩
  · exact ⟨by decide +kernel, by decide +kernel, by decide +kernel, by decide +kernel, by decide +kernel, by decide +kernel,
        by decide +kernel, by decide +kernel, by decide +kernel, by decide +kernel⟩
  · exact ⟨by decide +kernel, by decide +kernel, by decide +kernel, by decide +kernel, by decide +kernel, by decide +kernel,
        by decide +kernel, by decide +kernel, by decide +kernel⟩
  · exact ⟨by decide +kernel, by decide +kernel, by decide +kernel, by decide +kernel, by decide +kernel, by decide +kernel,
        by decide +kernel, by decide +kernel⟩
  · decide +kernel
  · (unfold Granted; decide +kernel)
  · decide +kernel
  · (unfold Granted; decide +kernel)

/-- States and operands that meet the hypotheses of DomainsRelease, clause by clause. -/
theorem witness_DomainsRelease :
    (((up 3 [81]).fld R.lkStatus F.lkStatusPhase + 1 = 4) ∧ ((up 3 [81]).mayRelease 4 = true) ∧ (4 ≤ 7) ∧ ((81) ∈ domainIslands 4) ∧ ((up 3
          [81]).fld (R.lkIsl (81)) F.lkIslState ≠ 2)) ∧
    ((settling.fld R.lkStatus F.lkStatusPhase + 1 = 4) ∧ (settling.mayRelease 4 = true) ∧ (4 ≤ 7)) ∧
    (((put [(R.lkStatus, F.lkStatusPhase, 7)] on).fld R.lkStatus F.lkStatusPhase + 1 = 8) ∧ ((put [(R.lkStatus, F.lkStatusPhase, 7)]
          on).mayRelease 8 = true)) ∧
    (((beforeScx [(4, scxFirmware)]).fld R.lkStatus F.lkStatusPhase + 1 = 9) ∧ ((beforeScx [(4, scxFirmware)]).mayRelease 9 = true) ∧
          ((beforeScx [(4, scxFirmware)]).scxBoot true false ≠ none)) := by
  refine ⟨?_, ?_, ?_, ?_⟩
  · decide +kernel
  · decide +kernel
  · decide +kernel
  · decide +kernel

/-- States and operands that meet the hypotheses of BootWeaveApplies, clause by clause. -/
theorem witness_BootWeaveApplies :
    ((({ boot 7 [] with flash := { (boot 7 []).flash with invalid := [2,3] } }).domainUp 7 = true) ∧
          (({ boot 7 [] with flash := { (boot 7 []).flash with invalid := [2,3] } }).weave.active = false) ∧
          (({ boot 7 [] with flash := { (boot 7 []).flash with invalid := [2,3] } }).fld R.wvStatus F.wvStatusState = 0) ∧
          (({ boot 7 [] with flash := { (boot 7 []).flash with invalid := [2,3] } }).fld R.lkOpt F.lkOptBoot = 0) ∧
          (({ boot 7 [] with flash := { (boot 7 []).flash with invalid := [2,3] } }).flashImage 2 = none) ∧
          (({ boot 7 [] with flash := { (boot 7 []).flash with invalid := [2,3] } }).flashImage 3 = none)) ∧
    ((staged.domainUp 7 = true) ∧ (staged.weave.active = false) ∧ (staged.fld R.wvStatus F.wvStatusState = 0) ∧ (staged.fld R.lkOpt
          F.lkOptBoot = 1) ∧ (staged.lk.bootGo = true) ∧ (checkWeave staged (staged.stagedImage (staged.fld R.hifBoot F.hifBootLen)) (some
          (staged.fld R.hifBoot F.hifBootLen)) 255 false = some (2, (0, (0, 0))))) ∧
    (((phase 8).domainUp 7 = true) ∧ ((phase 8).weave.active = false) ∧ ((phase 8).fld R.wvStatus F.wvStatusState = 0) ∧ ((phase 8).fld
          R.lkOpt F.lkOptBoot = 0 ∨ (phase 8).fld R.lkOpt F.lkOptBoot = 1 ∧ (phase 8).lk.bootGo = true)) := by
  refine ⟨?_, ?_, ?_⟩
  · decide +kernel
  · decide +kernel
  · decide +kernel

/-- States and operands that meet the hypotheses of WarmResets, clause by clause. -/
theorem witness_WarmResets :
    (((up 9 []).lk.powered = true) ∧ ((up 9 []).lk.pwrOk = true) ∧ ((up 9 []).flag R.lkStatus F.lkStatusPgFail = false) ∧ ((up 9 []).flag
          R.lkStatus F.lkStatusWrst = false) ∧ ((up 9 []).lk.wrstLow = false)) ∧
    ((watched.lk.powered = true) ∧ (watched.lk.pwrOk = true) ∧ (watched.flag R.lkStatus F.lkStatusPgFail = false) ∧ (watched.flag R.lkStatus
          F.lkStatusWrst = false) ∧ (watched.flag R.hifStatus F.hifStatusLinkUp = true)) ∧
    ((watched.lk.powered = true) ∧ (watched.lk.pwrOk = true) ∧ (watched.flag R.lkStatus F.lkStatusPgFail = false) ∧ (watched.flag R.lkStatus
          F.lkStatusWrst = false) ∧ (watched.flag R.lkWdog F.lkWdogEn = true) ∧ (watched.fld R.lkWdog F.lkWdogLeft = 0)) ∧
    ((warming.lk.powered = true) ∧ (warming.lk.pwrOk = true) ∧ (warming.flag R.lkStatus F.lkStatusPgFail = false) ∧ (warming.flag R.lkStatus
          F.lkStatusWrst = true)) ∧
    ((warming.flag R.lkStatus F.lkStatusWrst = true) ∧ (warming.drained = true) ∧ (0 < 8)) ∧
    ((warming.lk.wrstLow = true) ∧ (warming.lk.coldHold = false)) ∧
    ((held.lk.coldHold = true)) := by
  refine ⟨?_, ?_, ?_, ?_, ?_, ?_, ?_⟩
  · decide +kernel
  · decide +kernel
  · decide +kernel
  · decide +kernel
  · decide +kernel
  · decide +kernel
  · decide +kernel

/-- States and operands that meet the hypotheses of WatchdogAndSecurityReset, clause by clause. -/
theorem witness_WatchdogAndSecurityReset :
    ((watched.flag R.lkWdog F.lkWdogEn = true)) ∧
    ((Granted powered .sec R.lkWdogKick)) ∧
    (((up 9 []).domainUp 3 = true)) ∧
    ((capturing.sec.capturing = true) ∧ (1 < 16) ∧ (capturing.flag (R.psqJrnlStatus 1) F.psqJrnlStatusOpen = true)) := by
  refine ⟨?_, ?_, ?_, ?_⟩
  · decide +kernel
  · (unfold Granted; decide +kernel)
  · decide +kernel
  · decide +kernel

/-- States and operands that meet the hypotheses of StakeResetAndStopComplete, clause by clause. -/
theorem witness_StakeResetAndStopComplete :
    ((Granted (pst 2) .sec R.lkCmd) ∧ ((pst 2).enabled ↑0 = true) ∧ ((pst 2).inStakeReset ↑0 = false) ∧ ((pst 2).flag R.lkStatus
          F.lkStatusWrst = false) ∧ ((pst 2).pst ↑0 = stRunning) ∧ ((pst 2).flag (R.psqStatus ↑0) F.psqStatusHoldSeal = false)) ∧
    ((Granted on .sec R.lkCmd) ∧ (on.enabled ↑0 = true) ∧ (on.inStakeReset ↑0 = false) ∧ (on.flag R.lkStatus F.lkStatusWrst = false) ∧
          (on.pst ↑0 ≠ stRunning) ∧ (on.pst ↑0 ≠ stStopping) ∧ ((on.q ↑0).outst = [])) ∧
    (((stopping 1 0).pst ↑0 = stStopping) ∧ (((stopping 1 0).q ↑0).outst = []) ∧ ((stopping 1 0).inStakeReset ↑0 = false) ∧ ((stopping 1
          0).stopCause ↑0 = true)) ∧
    (((stopping 0 0).pst ↑0 = stStopping) ∧ (((stopping 0 0).q ↑0).outst = []) ∧ ((stopping 0 0).inStakeReset ↑0 = false) ∧ ((stopping 0
          0).stopCause ↑0 = false)) ∧
    (((stopping 1 1).pst ↑0 = stStopping) ∧ (((stopping 1 1).q ↑0).outst = []) ∧ ((stopping 1 1).inStakeReset ↑0 = true)) := by
  refine ⟨?_, ?_, ?_, ?_, ?_⟩
  · (unfold Granted; decide +kernel)
  · (unfold Granted; decide +kernel)
  · decide +kernel
  · decide +kernel
  · decide +kernel

/-- States and operands that meet the hypotheses of BraceThrottleAndFault, clause by clause. -/
theorem witness_BraceThrottleAndFault :
    ((powered.lk.powered = true) ∧ (powered.lk.warnLow = false)) ∧
    (((up 9 []).lk.powered = true) ∧ ((up 9 []).lk.warnLow = false) ∧ ((up 9 []).domainUp 3 = true)) ∧
    ((on.lk.powered = true) ∧ (on.lk.warnLow = false) ∧ (on.domainUp 8 = true) ∧ (0 < 16) ∧ (on.enabled 0 = true)) ∧
    ((braced.lk.warnLow = true) ∧ (∀ k < 16, braced.enabled k = true → braced.flag (R.psqStatus k) F.psqStatusHoldBrace = true ∧ braced.flag
          (R.psqJrnlStatus k) F.psqJrnlStatusClosed = true ∧ ∀ o ∈ (braced.q k).outst, o.issued = true → o.isMx = false ∧ o.isVx = false ∧
          o.isPv = false)) ∧
    ((braced.lk.warnLow = true) ∧ (braced.domainUp 3 = true)) ∧
    ((braced.lk.warnLow = true) ∧ (0 < 16)) ∧
    ((powered.lk.powered = true) ∧ (powered.warming = false)) ∧
    ((Granted powered .sec R.lkThrot) ∧ (powered.warming = false)) ∧
    ((Granted on .sec R.lkThrot) ∧ (on.domainUp 8 = true) ∧ (0 < 16) ∧ (on.enabled 0 = true)) ∧
    ((Granted powered .sec R.lkSb) ∧ (powered.warming = false)) := by
  refine ⟨?_, ?_, ?_, ?_, ?_, ?_, ?_, ?_, ?_, ?_⟩
  · decide +kernel
  · decide +kernel
  · decide +kernel
  · exact ⟨by decide +kernel, by decide +kernel⟩
  · decide +kernel
  · decide +kernel
  · decide +kernel
  · (unfold Granted; decide +kernel)
  · (unfold Granted; decide +kernel)
  · (unfold Granted; decide +kernel)

/-- States and operands that meet the hypotheses of PcieLinkAndBootGo, clause by clause. -/
theorem witness_PcieLinkAndBootGo :
    ((linkOn.blockUp 4 81 = true) ∧ (linkOn.flag R.hifCtl F.hifCtlLinkEn = true) ∧ (0 < 2 ^ F.hifStatusWidth.2) ∧ (0 < 2 ^
          F.hifStatusSpeed.2)) ∧
    ((Granted (up 9 []) (.core 0) R.hifCtl)) ∧
    ((Granted linkOn (.core 0) R.hifBoot) ∧ (0 < 5) ∧ (5 ≤ 1048576) ∧ (linkOn.fld R.hifStatus F.hifStatusBoot = 1)) ∧
    ((Granted (up 9 []) (.core 0) R.hifBoot) ∧ (0 < 5) ∧ (5 ≤ 1048576) ∧ ((up 9 []).fld R.hifStatus F.hifStatusBoot ≠ 1)) ∧
    ((Granted (up 9 []) (.core 0) R.hifBoot) ∧ (0 = 0 ∨ 1048576 < 0 ∧ 0 < 2 ^ 21)) := by
  refine ⟨?_, ?_, ?_, ?_, ?_⟩
  · decide +kernel
  · (unfold Granted; decide +kernel)
  · (unfold Granted; decide +kernel)
  · (unfold Granted; decide +kernel)
  · (unfold Granted; decide +kernel)

/-- States and operands that meet the hypotheses of RegisterWritesAndArming, clause by clause. -/
theorem witness_RegisterWritesAndArming :
    (((0x1008) % 8 ≠ 0 ∨ isReg (0x1008) = false ∨ regHere (0x1008) = false)) ∧
    ((State.reset.wrapperOpen R.glbArchLevel = false)) ∧
    ((R.lkSb % 8 = 0) ∧ (isReg R.lkSb = true) ∧ (regHere R.lkSb = true) ∧ (powered.wrapperOpen R.lkSb = true) ∧ (powered.mayWrite .host
          R.lkSb = false)) ∧
    ((findReg R.glbArchLevel = some (({ off := 16, dims := [], rw := 0, w1c := 0, rc := 0, wo := 0, rst := 273 }, 0, 0, 16))) ∧
          (R.glbArchLevel % 8 = 0) ∧ (isReg R.glbArchLevel = true) ∧ (Granted (up 9 []) .sec R.glbArchLevel) ∧ ((R.glbArchLevel - regBase) /
          1048576 = 0 ∨ (R.glbArchLevel - regBase) / 1048576 = 3 ∨ (R.glbArchLevel - regBase) / 1048576 = 6 ∨ (R.glbArchLevel - regBase) /
          1048576 = 8 ∨ 16 ≤ (R.glbArchLevel - regBase) / 1048576 ∧ (R.glbArchLevel - regBase) / 1048576 < 32 ∧ (R.glbArchLevel - regBase -
          16777216) % 4194304 / 65536 ≠ 8 ∧ (R.glbArchLevel - regBase - 16777216) % 4194304 / 65536 ≠ 9 ∧ (R.glbArchLevel - regBase -
          16777216) % 4194304 / 65536 ≠ 11 ∧ (R.glbArchLevel - regBase - 16777216) % 4194304 / 65536 ≠ 12 ∨ 48 ≤ (R.glbArchLevel - regBase)
          / 1048576 ∧ (R.glbArchLevel - regBase) / 1048576 < 64)) ∧
    ((Granted spills .sec R.ptbCtl) ∧ ((-1 : Word).fld F.ptbCtlArm = 1) ∧ (spills.flag R.ptbCtl F.ptbCtlArm = false) ∧ (spills.ptbHarm =
          true) ∧ (spills.flag R.secState F.secStateGate = false)) ∧
    ((Granted (up 9 []) .sec R.ptbCtl) ∧ ((-1 : Word).fld F.ptbCtlArm = 1) ∧ ((up 9 []).flag R.ptbCtl F.ptbCtlArm = false) ∧ ((up 9
          []).ptbHarm = false ∨ (up 9 []).flag R.secState F.secStateGate = true)) ∧
    ((Granted (up 9 []) .sec R.ptbCtl) ∧ ((0 : Word).fld F.ptbCtlArm = 0)) := by
  refine ⟨?_, ?_, ?_, ?_, ?_, ?_, ?_⟩
  · decide +kernel
  · decide +kernel
  · decide +kernel
  · (unfold Granted; decide +kernel)
  · (unfold Granted; decide +kernel)
  · (unfold Granted; decide +kernel)
  · (unfold Granted; decide +kernel)

/-- States and operands that meet the hypotheses of PartialReweave, clause by clause. -/
theorem witness_PartialReweave :
    (((partAt 3).weave.phase = 3) ∧ ((partAt 3).noJobs (partAt 3).partStake = true) ∧ ((partAt 3).enabled (partAt 3).partStake = true)) ∧
    (((partAt 5).weave.phase = 5) ∧ ((partAt 5).lk.warnLow = false) ∧ ((partAt 5).quiet (partAt 5).partStake = true) ∧ (((partAt 5).newStake
          (partAt 5).partStake).eng &&& (partAt 5).failEng = 0) ∧ (((partAt 5).newStake (partAt 5).partStake).pvu &&& (partAt 5).failPvu =
          0) ∧ (((partAt 5).newStake (partAt 5).partStake).tc &&& (partAt 5).failTc = 0) ∧ (((partAt 5).newStake (partAt 5).partStake).ch
          &&& (partAt 5).failCh = 0)) := by
  refine ⟨?_, ?_⟩
  · decide +kernel
  · decide +kernel

/-- States and operands that meet the hypotheses of ProgramAndMicroBatches, clause by clause. -/
theorem witness_ProgramAndMicroBatches :
    ((toFetch.dispatching ↑0 = true) ∧ (toFetch.indexOf (↑0) Strm.f.num < toFetch.limitOf (↑0) Strm.f.num) ∧ ((toFetch.q ↑0).skip.testBit
          Strm.f.num = false) ∧ (toFetch.pcOf (↑0) Strm.f.num < toFetch.lenOf (↑0) Strm.f.num) ∧ (toFetch.headWord (↑0) Strm.f.num = none) ∧
          (toFetch.unreadable (toFetch.progAddr (↑0) Strm.f.num (toFetch.pcOf (↑0) Strm.f.num / 4 * 4)) 64 = false) ∧ (toFetch.headFault
          (↑0) Strm.f.num (toFetch.num (toFetch.progAddr (↑0) Strm.f.num (toFetch.pcOf (↑0) Strm.f.num)) 16) = none)) ∧
    ((runOff.dispatching ↑0 = true) ∧ (runOff.indexOf (↑0) Strm.f.num < runOff.limitOf (↑0) Strm.f.num) ∧ ((runOff.q ↑0).skip.testBit
          Strm.f.num = false) ∧ (runOff.lenOf (↑0) Strm.f.num ≤ runOff.pcOf (↑0) Strm.f.num)) ∧
    ((unread.dispatching ↑0 = true) ∧ (unread.indexOf (↑0) Strm.f.num < unread.limitOf (↑0) Strm.f.num) ∧ ((unread.q ↑0).skip.testBit
          Strm.f.num = false) ∧ (unread.pcOf (↑0) Strm.f.num < unread.lenOf (↑0) Strm.f.num) ∧ (unread.headWord (↑0) Strm.f.num = none) ∧
          (unread.unreadable (unread.progAddr (↑0) Strm.f.num (unread.pcOf (↑0) Strm.f.num / 4 * 4)) 64 = true)) ∧
    ((Ready jumpOut (↑0) Strm.f.num (word 1 1 2 4)) ∧ (opcOf (word 1 1 2 4) = 1) ∧ (jumpOut.lenOf (↑0) Strm.f.num ≤ bits (word 1 1 2 4) 32
          24)) ∧
    ((Ready (mbegin 3) (↑0) 0 (word 2 1 2 15)) ∧ (opcOf (word 2 1 2 15) = 2) ∧ (((mbegin 3).fld (R.psqStatus ↑0) F.psqStatusOpenMb).testBit
          (bits (word 2 1 2 15) 32 4) = false) ∧ (((mbegin 3).stake ↑0).mb ≤ popcount 16 ((mbegin 3).fld (R.psqStatus ↑0)
          F.psqStatusOpenMb))) ∧
    ((Ready (mend 8 [frame 3]) (↑0) 1 (word 3 1 2 3)) ∧ (opcOf (word 3 1 2 3) = 3) ∧ (((mend 8 [frame 3]).fld (R.psqStatus ↑0)
          F.psqStatusOpenMb).testBit (bits (word 3 1 2 3) 32 4) = true) ∧ (List.filter (fun d => ((mend 8 [frame 3]).as d ↑0).frames.any fun
          f => f.tag == bits (word 3 1 2 3) 32 4) ((mend 8 [frame 3]).diesOf ↑0) ≠ [])) ∧
    ((Ready (mend 0 []) (↑0) 1 (word 3 1 2 3)) ∧ (opcOf (word 3 1 2 3) = 3) ∧ (((mend 0 []).fld (R.psqStatus ↑0) F.psqStatusOpenMb).testBit
          (bits (word 3 1 2 3) 32 4) = false)) := by
  refine ⟨?_, ?_, ?_, ?_, ?_, ?_, ?_⟩
  · decide +kernel
  · decide +kernel
  · decide +kernel
  · (unfold Ready; decide +kernel)
  · (unfold Ready; decide +kernel)
  · (unfold Ready; decide +kernel)
  · (unfold Ready; decide +kernel)

/-- States and operands that meet the hypotheses of StreamsAndPosts, clause by clause. -/
theorem witness_StreamsAndPosts :
    ((Granted on (.core 0) (R.psqCmd ↑0)) ∧ (on.pst ↑0 = 1) ∧ (on.stopCause ↑0 = false) ∧ (0 < 3)) ∧
    ((Granted on (.core 0) (R.psqCmd ↑0)) ∧ (on.pst ↑0 = 1) ∧ (on.stopCause ↑0 = false) ∧ (0 < 64)) ∧
    ((Granted on (.core 0) (R.psqCmd ↑0)) ∧ (on.pst ↑0 ≠ 2) ∧ (((0,3)).1 + ((0,3)).2 ≤ F.psqStatusRefused.1 ∨ F.psqStatusRefused.1 + 1 ≤
          ((0,3)).1)) ∧
    ((Granted on (.core 0) (R.psqCmd ↑0)) ∧ (on.pst ↑0 ≠ 4) ∧ (((0,3)).1 + ((0,3)).2 ≤ F.psqStatusRefused.1 ∨ F.psqStatusRefused.1 + 1 ≤
          ((0,3)).1)) ∧
    ((Granted on (.core 0) (R.psqCmd ↑0)) ∧ (on.pst ↑0 ≠ 1 ∨ ¬∀ x < 3, on.pcOf (↑0) x < on.lenOf (↑0) x ∧ on.indexOf (↑0) x ≤ on.limitOf
          (↑0) x) ∧ (((0,3)).1 + ((0,3)).2 ≤ F.psqStatusRefused.1 ∨ F.psqStatusRefused.1 + 1 ≤ ((0,3)).1)) ∧
    ((Granted on (.core 0) (R.psqPost ↑0)) ∧ (0 < 64)) ∧
    ((Granted on (.core 0) (R.psqPost ↑0)) ∧ (¬(on.pst ↑0 = 4 ∧ on.flag (R.psqStatus ↑0) F.psqStatusCtxValid = true))) ∧
    ((Granted on (.core 0) (R.psqLimit (↑0) Strm.f.num)) ∧ (on.indexOf (↑0) Strm.f.num ≤ 0 % 2 ^ 64) ∧ (¬(on.pst ↑0 = 4 ∧ on.flag
          (R.psqStatus ↑0) F.psqStatusCtxValid = true))) := by
  refine ⟨?_, ?_, ?_, ?_, ?_, ?_, ?_, ?_⟩
  · (unfold Granted; decide +kernel)
  · (unfold Granted; decide +kernel)
  · (unfold Granted; decide +kernel)
  · (unfold Granted; decide +kernel)
  · exact ⟨by (unfold Granted; decide +kernel), by decide +kernel, by decide +kernel⟩
  · (unfold Granted; decide +kernel)
  · (unfold Granted; decide +kernel)
  · (unfold Granted; decide +kernel)

/-- States and operands that meet the hypotheses of StepBoundary, clause by clause. -/
theorem witness_StepBoundary :
    ((Ready (seal0 (64 * 64)) (↑0) 1 (word 4 1 2 (64*64))) ∧ (opcOf (word 4 1 2 (64*64)) = 4) ∧ (bits (word 4 1 2 (64*64)) 38 7 ≠ 0 ∧ bits
          (word 4 1 2 (64*64)) 38 7 ≤ 64 ∧ bits (word 4 1 2 (64*64)) 32 6 + bits (word 4 1 2 (64*64)) 38 7 ≤ 64)) ∧
    ((Ready (seal0 0) (↑0) 1 (word 4 1 2 0)) ∧ (opcOf (word 4 1 2 0) = 4) ∧ (bits (word 4 1 2 0) 38 7 = 0 ∨ 64 < bits (word 4 1 2 0) 38 7 ∨
          64 < bits (word 4 1 2 0) 32 6 + bits (word 4 1 2 0) 38 7)) ∧
    ((((sealing (64*64) 0 []).q ↑0).sealing = some ((word 4 1 2 (64*64)), 0, (0x21))) ∧ (((sealing (64*64) 0 []).q ↑0).outst = []) ∧
          ((sealing (64*64) 0 []).fld (R.psqStatus ↑0) F.psqStatusOpenMb = 0) ∧ ((sealing (64*64) 0 []).stopCause ↑0 = false) ∧ ((word 4 1 2
          (64*64)).testBit 45 = false ∨ ((sealing (64*64) 0 []).stake ↑0).group = 255) ∧ (((sealing (64*64) 0 []).xc ↑0).current = none) ∧
          (((sealing (64*64) 0 []).xc ↑0).queued = none) ∧ (PostsFit (sealing (64*64) 0 []) (↑0) (word 4 1 2 (64*64))) ∧ (0 < 64)) ∧
    ((((sealing (64*64) 0 []).q ↑0).sealing = some ((word 4 1 2 (64*64)), 0, (0x21))) ∧ (((sealing (64*64) 0 []).q ↑0).outst = []) ∧
          ((sealing (64*64) 0 []).fld (R.psqStatus ↑0) F.psqStatusOpenMb = 0) ∧ ((sealing (64*64) 0 []).stopCause ↑0 = false) ∧ ((word 4 1 2
          (64*64)).testBit 45 = false ∨ ((sealing (64*64) 0 []).stake ↑0).group = 255) ∧ (((sealing (64*64) 0 []).xc ↑0).current = none) ∧
          (((sealing (64*64) 0 []).xc ↑0).queued = none) ∧ (PostsFit (sealing (64*64) 0 []) (↑0) (word 4 1 2 (64*64))) ∧ (0 < 32) ∧
          (((sealing (64*64) 0 []).stake ↑0).eng.testBit 0 = true)) ∧
    ((((sealing (64*64) 8 []).q ↑0).sealing = some ((word 4 1 2 (64*64)), 0, (0x21))) ∧ (((sealing (64*64) 8 []).q ↑0).outst = []) ∧
          ((sealing (64*64) 8 []).fld (R.psqStatus ↑0) F.psqStatusOpenMb ≠ 0) ∧ (0 < 64)) ∧
    (((State.reset.q ↑0).sealing = none ∨ (State.reset.q ↑0).outst ≠ [])) := by
  refine ⟨?_, ?_, ?_, ?_, ?_, ?_⟩
  · (unfold Ready; decide +kernel)
  · (unfold Ready; decide +kernel)
  · exact ⟨by decide +kernel, by decide +kernel, by decide +kernel, by decide +kernel, by decide +kernel, by decide +kernel,
        by decide +kernel, by (unfold PostsFit; exact forall_tokens (by decide +kernel) (by decide +kernel)), by decide +kernel⟩
  · exact ⟨by decide +kernel, by decide +kernel, by decide +kernel, by decide +kernel, by decide +kernel, by decide +kernel,
        by decide +kernel, by (unfold PostsFit; exact forall_tokens (by decide +kernel) (by decide +kernel)), by decide +kernel,
        by decide +kernel⟩
  · decide +kernel
  · decide +kernel

/-- States and operands that meet the hypotheses of MatrixDispatch, clause by clause. -/
theorem witness_MatrixDispatch :
    ((Ready (mxOut 0 0x40) (↑0) Strm.f.num (18451297598070391104)) ∧ (opcOf (18451297598070391104) = 64) ∧ ((parseMx
          (18451297598070391104)).rsv = false) ∧ (((mxOut 0 0x40).stake ↑0).eng.testBit (parseMx (18451297598070391104)).eng = false)) ∧
    ((Ready (mxGone 0 0x40) (↑0) Strm.f.num (18451297563710652736)) ∧ (opcOf (18451297563710652736) = 64) ∧ ((parseMx
          (18451297563710652736)).rsv = false) ∧ (((mxGone 0 0x40).stake ↑0).eng.testBit (parseMx (18451297563710652736)).eng = true) ∧
          ((mxGone 0 0x40).engNone (↑0) (parseMx (18451297563710652736)).eng = true)) ∧
    ((Ready (mxRsv 1 0x41) (↑0) Strm.b.num (18453549363524337985)) ∧ (opcOf (18453549363524337985) = 65) ∧ ((parseMx
          (18453549363524337985)).rsv = true)) ∧
    ((Ready (mxOut 1 0x41) (↑0) Strm.b.num (18451297598070391105)) ∧ (opcOf (18451297598070391105) = 65) ∧ ((parseMx
          (18451297598070391105)).rsv = false) ∧ (((mxOut 1 0x41).stake ↑0).eng.testBit (parseMx (18451297598070391105)).eng = false)) ∧
    ((Ready (mxGone 1 0x41) (↑0) Strm.b.num (18451297563710652737)) ∧ (opcOf (18451297563710652737) = 65) ∧ ((parseMx
          (18451297563710652737)).rsv = false) ∧ (((mxGone 1 0x41).stake ↑0).eng.testBit (parseMx (18451297563710652737)).eng = true) ∧
          ((mxGone 1 0x41).engNone (↑0) (parseMx (18451297563710652737)).eng = true)) ∧
    ((Ready (mxRsv 0 0x42) (↑0) Strm.f.num (18453549363524337986)) ∧ (opcOf (18453549363524337986) = 66) ∧ ((parseMx
          (18453549363524337986)).rsv = true)) ∧
    ((Ready (mxOut 0 0x42) (↑0) Strm.f.num (18451297598070391106)) ∧ (opcOf (18451297598070391106) = 66) ∧ ((parseMx
          (18451297598070391106)).rsv = false) ∧ (((mxOut 0 0x42).stake ↑0).eng.testBit (parseMx (18451297598070391106)).eng = false)) := by
  refine ⟨?_, ?_, ?_, ?_, ?_, ?_, ?_⟩
  · (unfold Ready; decide +kernel)
  · (unfold Ready; decide +kernel)
  · (unfold Ready; decide +kernel)
  · (unfold Ready; decide +kernel)
  · (unfold Ready; decide +kernel)
  · (unfold Ready; decide +kernel)
  · (unfold Ready; decide +kernel)

/-- States and operands that meet the hypotheses of MatrixWork, clause by clause. -/
theorem witness_MatrixWork :
    ((mxReady.engOwner 0 = some 0) ∧ (mxReady.nextMx 0 0 = some (((mxReady).q 0).outst.headD mxo)) ∧ (mxReady.noIssue 0 = false ∨
          (((mxReady).q 0).outst.headD mxo).rerun = true) ∧ (mxReady.failEng.testBit 0 = false) ∧ (mxReady.drainRoom 0 (0) (((mxReady).q
          0).outst.headD mxo) = true) ∧ (mxReady.feederRoom 0 (0) (((mxReady).q 0).outst.headD mxo) false = true) ∧ (mxReady.quayReady 0
          (((mxReady).q 0).outst.headD mxo) = true) ∧ (0 < 64)) ∧
    ((on.engOwner 0 = some 0) ∧ (on.nextMx 0 0 = none)) ∧
    ((mxDone.engOwner 0 = some 0) ∧ (List.find? (fun o => o.isMx && o.unit == 0 && o.issued) (mxDone.q 0).outst = some (((mxDone).q
          0).outst.headD mxo)) ∧ ((((mxDone).q 0).outst.headD mxo).rows ≤ (((mxDone).q 0).outst.headD mxo).run.row) ∧ ((((mxDone).q
          0).outst.headD mxo).slicesDone = true) ∧ ((((mxDone).q 0).outst.headD mxo).run.poison = false) ∧ ((((mxDone).q 0).outst.headD
          mxo).prog ≠ 1) ∧ (PostsFit mxDone 0 (((mxDone).q 0).outst.headD mxo).word) ∧ ((((mxDone).q 0).outst.headD mxo).run.pushes = []) ∧
          ((parseChain (((mxDone).q 0).outst.headD mxo).chain).compress = none) ∧ ((((mxDone).q 0).outst.headD mxo).run.pv = []) ∧
          ((parseChain (((mxDone).q 0).outst.headD mxo).chain).auxOp = none)) ∧
    ((mxAux.engOwner 0 = some 0) ∧ (List.find? (fun o => o.isMx && o.unit == 0 && o.issued) (mxAux.q 0).outst = some (((mxAux).q
          0).outst.headD mxo)) ∧ ((((mxAux).q 0).outst.headD mxo).rows ≤ (((mxAux).q 0).outst.headD mxo).run.row) ∧ ((((mxAux).q
          0).outst.headD mxo).slicesDone = true) ∧ ((((mxAux).q 0).outst.headD mxo).run.poison = false) ∧ ((((mxAux).q 0).outst.headD
          mxo).prog ≠ 1) ∧ (PostsFit mxAux 0 (((mxAux).q 0).outst.headD mxo).word) ∧ ((((mxAux).q 0).outst.headD mxo).run.pushes = []) ∧
          ((parseChain (((mxAux).q 0).outst.headD mxo).chain).compress = none) ∧ ((((mxAux).q 0).outst.headD mxo).run.pv = []) ∧
          ((parseChain (((mxAux).q 0).outst.headD mxo).chain).auxOp ≠ none) ∧ (Lands mxAux (parseChain (((mxAux).q 0).outst.headD
          mxo).chain).aux (4 * (((mxAux).q 0).outst.headD mxo).run.aux.length))) ∧
    ((on.engOwner 0 = some 0) ∧ (List.find? (fun o => o.isMx && o.unit == 0 && o.issued) (on.q 0).outst = none)) ∧
    (((mxIssued mxo).engOwner 0 = some 0) ∧ ((mxIssued mxo).failEng.testBit 0 = false) ∧ ((mxIssued mxo).nextDrain 0 0 = some ((((mxIssued
          mxo)).q 0).outst.headD mxo)) ∧ ((mxIssued mxo).regsWait 0 ((((mxIssued mxo)).q 0).outst.headD mxo) = false) ∧ ((mxIssued
          mxo).tileWait 0 (0) ((((mxIssued mxo)).q 0).outst.headD mxo) = false) ∧ (((((mxIssued mxo)).q 0).outst.headD mxo).accInt = true) ∧
          ((parseChain ((((mxIssued mxo)).q 0).outst.headD mxo).chain).nops = 0) ∧ ((parseChain ((((mxIssued mxo)).q 0).outst.headD
          mxo).chain).dst.kind = 1) ∧ ((parseChain ((((mxIssued mxo)).q 0).outst.headD mxo).chain).dst.fmt = 9) ∧ ((parseChain ((((mxIssued
          mxo)).q 0).outst.headD mxo).chain).dst.mx = false) ∧ (Lands (mxIssued mxo) ((parseChain ((((mxIssued mxo)).q 0).outst.headD
          mxo).chain).dst.addr + ((((mxIssued mxo)).q 0).outst.headD mxo).run.row * (parseChain ((((mxIssued mxo)).q 0).outst.headD
          mxo).chain).dst.stride) (4 * (((((mxIssued mxo)).q 0).outst.headD mxo).acc.getD ((((mxIssued mxo)).q 0).outst.headD mxo).run.row
          []).length)) ∧ (0 < (((((mxIssued mxo)).q 0).outst.headD mxo).acc.getD ((((mxIssued mxo)).q 0).outst.headD mxo).run.row
          []).length)) ∧
    ((vxReady.engOwner 0 = some 0) ∧ (vxReady.failEng.testBit 0 = false) ∧ (∀ (d : Outst), vxReady.nextDrain 0 0 = some d → vxReady.regsWait
          0 d = true ∨ vxReady.tileWait 0 (0) d = true) ∧ (vxReady.nextVx 0 0 = some (((vxReady).q 0).outst.headD mxo)) ∧ (vxReady.regsWait
          0 (((vxReady).q 0).outst.headD mxo) = false) ∧ ((((vxReady).q 0).outst.headD mxo).issued = true ∨ vxReady.noIssue 0 = false ∨
          (((vxReady).q 0).outst.headD mxo).rerun = true)) ∧
    ((on.engOwner 0 = some 0) ∧ (on.failEng.testBit 0 = false) ∧ (on.nextDrain 0 0 = none) ∧ (on.nextVx 0 0 = none)) := by
  refine ⟨?_, ?_, ?_, ?_, ?_, ?_, ?_, ?_⟩
  · decide +kernel
  · decide +kernel
  · exact ⟨by decide +kernel, by decide +kernel, by decide +kernel, by decide +kernel, by decide +kernel, by decide +kernel,
        by (unfold PostsFit; exact forall_tokens (by decide +kernel) (by decide +kernel)), by decide +kernel, by decide +kernel,
        by decide +kernel, by decide +kernel⟩
  · exact ⟨by decide +kernel, by decide +kernel, by decide +kernel, by decide +kernel, by decide +kernel, by decide +kernel,
        by (unfold PostsFit; exact forall_tokens (by decide +kernel) (by decide +kernel)), by decide +kernel, by decide +kernel,
        by decide +kernel, by decide +kernel, by (unfold Lands; decide +kernel)⟩
  · decide +kernel
  · (unfold Lands; decide +kernel)
  · exact ⟨by decide +kernel, by decide +kernel, by decide +kernel, by decide +kernel, by decide +kernel, by decide +kernel⟩
  · decide +kernel

/-- States and operands that meet the hypotheses of StandaloneChains, clause by clause. -/
theorem witness_StandaloneChains :
    ((Ready (head 0 (word 0x50 1 2 32) on) (↑0) Strm.f.num (137472573776)) ∧ (opcOf (137472573776) = 80) ∧ (((head 0 (word 0x50 1 2 32)
          on).stake ↑0).eng.testBit (bits (137472573776) 32 5) = true ∧ (head 0 (word 0x50 1 2 32) on).engNone (↑0) (bits (137472573776) 32
          5) = false) ∧ (bits (137472573776) 37 3 ≠ 0 ∨ bits (137472573776) 56 72 ≠ 0) ∧ ((head 0 (word 0x50 1 2 32) on).readChain (bits
          (137472573776) 32 5) (bits (137472573776) 40 16) = none)) ∧
    ((Ready (vx0 9 (vxChain [])) (↑0) Strm.f.num (38688325968)) ∧ (opcOf (38688325968) = 80) ∧ (¬(((vx0 9 (vxChain [])).stake
          ↑0).eng.testBit (bits (38688325968) 32 5) = true ∧ (vx0 9 (vxChain [])).engNone (↑0) (bits (38688325968) 32 5) = false))) ∧
    ((Ready (vx0 (2^8) (vxChain [])) (↑0) Strm.f.num (1099545248080)) ∧ (opcOf (1099545248080) = 80) ∧ (((vx0 (2^8) (vxChain [])).stake
          ↑0).eng.testBit (bits (1099545248080) 32 5) = true ∧ (vx0 (2^8) (vxChain [])).engNone (↑0) (bits (1099545248080) 32 5) = false) ∧
          (¬(bits (1099545248080) 37 3 ≠ 0 ∨ bits (1099545248080) 56 72 ≠ 0)) ∧ ((vx0 (2^8) (vxChain [])).readChain (bits (1099545248080) 32
          5) (bits (1099545248080) 40 16) = none)) ∧
    (((vxDone false).engOwner 0 = some 0) ∧ (List.find? (fun o => o.isVx && o.unit == 0) ((vxDone false).q 0).outst = some ((((vxDone
          false)).q 0).outst.headD mxo)) ∧ (((((vxDone false)).q 0).outst.headD mxo).issued = true) ∧ (((((vxDone false)).q 0).outst.headD
          mxo).rows ≤ ((((vxDone false)).q 0).outst.headD mxo).run.row) ∧ (((((vxDone false)).q 0).outst.headD mxo).run.poison = false) ∧
          (((((vxDone false)).q 0).outst.headD mxo).run.overrun = false) ∧ (PostsFit (vxDone false) 0 ((((vxDone false)).q 0).outst.headD
          mxo).word) ∧ (((((vxDone false)).q 0).outst.headD mxo).run.pushes = []) ∧ ((parseChain ((((vxDone false)).q 0).outst.headD
          mxo).chain).compress = none) ∧ ((parseChain ((((vxDone false)).q 0).outst.headD mxo).chain).auxOp = none) ∧ (((((vxDone false)).q
          0).outst.headD mxo).run.pv = [])) ∧
    (((vxDone true).engOwner 0 = some 0) ∧ (List.find? (fun o => o.isVx && o.unit == 0) ((vxDone true).q 0).outst = some ((((vxDone true)).q
          0).outst.headD mxo)) ∧ (((((vxDone true)).q 0).outst.headD mxo).issued = true) ∧ (((((vxDone true)).q 0).outst.headD mxo).rows ≤
          ((((vxDone true)).q 0).outst.headD mxo).run.row) ∧ (((((vxDone true)).q 0).outst.headD mxo).run.poison = false) ∧ (((((vxDone
          true)).q 0).outst.headD mxo).run.overrun = true) ∧ (PostsFit (vxDone true) 0 ((((vxDone true)).q 0).outst.headD mxo).word)) := by
  refine ⟨?_, ?_, ?_, ?_, ?_⟩
  · (unfold Ready; decide +kernel)
  · (unfold Ready; decide +kernel)
  · (unfold Ready; decide +kernel)
  · exact ⟨by decide +kernel, by decide +kernel, by decide +kernel, by decide +kernel, by decide +kernel, by decide +kernel,
        by (unfold PostsFit; exact forall_tokens (by decide +kernel) (by decide +kernel)), by decide +kernel, by decide +kernel,
        by decide +kernel, by decide +kernel⟩
  · exact ⟨by decide +kernel, by decide +kernel, by decide +kernel, by decide +kernel, by decide +kernel, by decide +kernel,
        by (unfold PostsFit; exact forall_tokens (by decide +kernel) (by decide +kernel))⟩

/-- States and operands that meet the hypotheses of PvInstructions, clause by clause. -/
theorem witness_PvInstructions :
    ((Ready (pvGone 0x10) (↑0) Strm.f.num (93116724962708750680)) ∧ (opcOf (93116724962708750680) = 88) ∧ (bits (93116724962708750680) 40 8
          < 96 ∨ 102 < bits (93116724962708750680) 40 8) ∧ (¬(((pvGone 0x10).stake ↑0).pvu.testBit (bits (93116724962708750680) 32 3) = true
          ∧ (pvGone 0x10).pvuAble (↑0) (bits (93116724962708750680) 32 3) = true))) ∧
    ((Ready (pvBad 0x10 0x34000) (↑0) Strm.f.num (3929009796752173338526040)) ∧ (opcOf (3929009796752173338526040) = 88) ∧ (bits
          (3929009796752173338526040) 40 8 < 96 ∨ 102 < bits (3929009796752173338526040) 40 8) ∧ (((pvBad 0x10 0x34000).stake
          ↑0).pvu.testBit (bits (3929009796752173338526040) 32 3) = true ∧ (pvBad 0x10 0x34000).pvuAble (↑0) (bits
          (3929009796752173338526040) 32 3) = true) ∧ ((pvBad 0x10 0x34000).pvFault (↑0) (3929009796752173338526040) = some (0x31))) ∧
    ((Ready (pv0 0x10 0) (↑0) Strm.f.num (883004594160992600)) ∧ (opcOf (883004594160992600) = 88) ∧ (bits (883004594160992600) 40 8 < 96 ∨
          102 < bits (883004594160992600) 40 8) ∧ (((pv0 0x10 0).stake ↑0).pvu.testBit (bits (883004594160992600) 32 3) = true ∧ (pv0 0x10
          0).pvuAble (↑0) (bits (883004594160992600) 32 3) = true) ∧ ((pv0 0x10 0).pvFault (↑0) (883004594160992600) = none)) ∧
    ((Ready (pv0 0x60 3) (↑0) Strm.f.num (56223324776219869528)) ∧ (opcOf (56223324776219869528) = 88) ∧ (bits (56223324776219869528) 40 8 =
          96) ∧ (((pv0 0x60 3).stake ↑0).pvu.testBit (bits (56223324776219869528) 32 3) = true ∧ (pv0 0x60 3).pvuAble (↑0) (bits
          (56223324776219869528) 32 3) = true) ∧ ((pv0 0x60 3).pvFault (↑0) (56223324776219869528) = some (0x35))) ∧
    ((Ready (pvGone 0x62) (↑0) Strm.f.num (93116815122662228312)) ∧ (opcOf (93116815122662228312) = 88) ∧ (bits (93116815122662228312) 40 8
          = 98) ∧ (¬(((pvGone 0x62).stake ↑0).pvu.testBit (bits (93116815122662228312) 32 3) = true ∧ (pvGone 0x62).pvuAble (↑0) (bits
          (93116815122662228312) 32 3) = true))) ∧
    ((Ready (pvBad 0x62 0x34000) (↑0) Strm.f.num (3929009796842333292003672)) ∧ (opcOf (3929009796842333292003672) = 88) ∧ (bits
          (3929009796842333292003672) 40 8 = 98) ∧ (((pvBad 0x62 0x34000).stake ↑0).pvu.testBit (bits (3929009796842333292003672) 32 3) =
          true ∧ (pvBad 0x62 0x34000).pvuAble (↑0) (bits (3929009796842333292003672) 32 3) = true) ∧ ((pvBad 0x62 0x34000).pvFault (↑0)
          (3929009796842333292003672) = some (0x31))) ∧
    ((Ready (pv0 0x64 0) (↑0) Strm.f.num (883096953137725784)) ∧ (opcOf (883096953137725784) = 88) ∧ (bits (883096953137725784) 40 8 = 100)
          ∧ (((pv0 0x64 0).stake ↑0).pvu.testBit (bits (883096953137725784) 32 3) = true ∧ (pv0 0x64 0).pvuAble (↑0) (bits
          (883096953137725784) 32 3) = true) ∧ ((pv0 0x64 0).pvFault (↑0) (883096953137725784) = none)) ∧
    (((assist 0).pvuOwner ↑0 = some 0) ∧ ((assist 0).pvuAble 0 ↑0 = true) ∧ (((assist 0).pv ↑0).tail < ((assist 0).pv ↑0).head) ∧ ((assist
          0).flag (R.vecPvuAq ↑0) F.vecPvuAqEnable = true) ∧ ((assist 0).unreadable ((assist 0).fld (R.vecPvuAq ↑0) F.vecPvuAqBase * 4096 +
          16 * (((assist 0).pv ↑0).tail % 64)) 16 = false) ∧ (Lands (assist 0) ((assist 0).fld (R.vecPvuAq ↑0) F.vecPvuAqBase * 4096 + 1024)
          8) ∧ ((assist 0).assistFault 0 (↑0) ((assist 0).num ((assist 0).fld (R.vecPvuAq ↑0) F.vecPvuAqBase * 4096 + 16 * (((assist 0).pv
          ↑0).tail % 64)) 16) = some (49))) := by
  refine ⟨?_, ?_, ?_, ?_, ?_, ?_, ?_, ?_⟩
  · (unfold Ready; decide +kernel)
  · (unfold Ready; decide +kernel)
  · (unfold Ready; decide +kernel)
  · (unfold Ready; decide +kernel)
  · (unfold Ready; decide +kernel)
  · (unfold Ready; decide +kernel)
  · (unfold Ready; decide +kernel)
  · (unfold Lands; decide +kernel)

end Sys2Proof.Tests
end

