-- ==== Sys2Proof/Tests/Witness1.lean ====
section
/-! SUPPORT. Tests: for each statement named here, states and operands that meet its hypotheses together. -/

namespace Sys2Proof.Tests

open Sys2Proof Sys2Proof.Machine

set_option autoImplicit false
set_option Elab.async false

/-- States and operands that meet the hypotheses of FramesOpenAndClose, clause by clause. -/
theorem witness_FramesOpenAndClose :
    ((Ready (sopen (asRest 0 3 9 7 2) []) (↑0) Strm.f.num (36895468574052778264)) ∧ (opcOf (36895468574052778264) = 24) ∧ (sopenBad
          (36895468574052778264) = true)) ∧
    ((Ready (sopen (asRest 1 3 8 7 2) []) (↑0) Strm.f.num (36895467478836117784)) ∧ (opcOf (36895467478836117784) = 24) ∧ (sopenBad
          (36895467478836117784) = false) ∧ (bits (36895467478836117784) 32 2 ∉ (sopen (asRest 1 3 8 7 2) []).diesOf ↑0)) ∧
    ((Ready (sopen (asRest 0 4 8 7 2) []) (↑0) Strm.f.num (36895467543260627224)) ∧ (opcOf (36895467543260627224) = 24) ∧ (sopenBad
          (36895467543260627224) = false) ∧ (bits (36895467543260627224) 32 2 ∈ (sopen (asRest 0 4 8 7 2) []).diesOf ↑0) ∧ (((sopen (asRest
          0 4 8 7 2) []).fld (R.psqStatus ↑0) F.psqStatusOpenMb).testBit (bits (36895467543260627224) 36 4) = false)) ∧
    ((Ready (sopen (asRest 0 3 8 7 2) [fr 0]) (↑0) Strm.f.num (36895467474541150488)) ∧ (opcOf (36895467474541150488) = 24) ∧ (sopenBad
          (36895467474541150488) = false) ∧ (bits (36895467474541150488) 32 2 ∈ (sopen (asRest 0 3 8 7 2) [fr 0]).diesOf ↑0) ∧ (((sopen
          (asRest 0 3 8 7 2) [fr 0]).fld (R.psqStatus ↑0) F.psqStatusOpenMb).testBit (bits (36895467474541150488) 36 4) = true) ∧ (((sopen
          (asRest 0 3 8 7 2) [fr 0]).as (bits (36895467474541150488) 32 2) ↑0).openOf Strm.f.num ≠ none)) ∧
    ((Ready (sclose []) (↑0) Strm.b.num (33620249)) ∧ (opcOf (33620249) = 25) ∧ (bits (33620249) 34 94 = 0) ∧ (bits (33620249) 32 2 ∈
          (sclose []).diesOf ↑0) ∧ (((sclose []).as (bits (33620249) 32 2) ↑0).openOf Strm.b.num = none)) ∧
    ((Ready (sclose [fr 1]) (↑0) Strm.b.num (33620249)) ∧ (opcOf (33620249) = 25) ∧ (bits (33620249) 34 94 = 0) ∧ (bits (33620249) 32 2 ∈
          (sclose [fr 1]).diesOf ↑0) ∧ (((sclose [fr 1]).as (bits (33620249) 32 2) ↑0).openOf Strm.b.num = some (fr 1)) ∧ ((fr 1).tag ∉
          ((sclose [fr 1]).as (bits (33620249) 32 2) ↑0).unread) ∧ ((sclose [fr 1]).bad ((sclose [fr 1]).trailerAddr (bits (33620249) 32 2)
          (↑0) (fr 1)) 64 = false)) ∧
    ((List.findSome? (fun d => Option.filter (closing.scloseReady ↑0) (closing.nextAsu d ↑0)) (List.range 4) = some (((closing).q
          0).outst.headD mxo)) ∧ (closing.noIssue ↑0 = false) ∧ (PostsFit closing (↑0) (((closing).q 0).outst.headD mxo).word) ∧ ((fr 0) ∈
          List.filter (fun f => decide (frameId (((closing).q 0).outst.headD mxo).unit f = (((closing).q 0).outst.headD mxo).pushTo ∧
          f.state = (((closing).q 0).outst.headD mxo).strm)) (closing.as (((closing).q 0).outst.headD mxo).unit ↑0).frames)) ∧
    (((on.q ↑0).outst = [])) := by
  refine ⟨?_, ?_, ?_, ?_, ?_, ?_, ?_, ?_⟩
  · (unfold Ready; decide +kernel)
  · (unfold Ready; decide +kernel)
  · (unfold Ready; decide +kernel)
  · (unfold Ready; decide +kernel)
  · (unfold Ready; decide +kernel)
  · (unfold Ready; decide +kernel)
  · exact ⟨by decide +kernel, by decide +kernel, by (unfold PostsFit; exact forall_tokens (by decide +kernel) (by decide +kernel)),
        by decide +kernel⟩
  · decide +kernel

/-- States and operands that meet the hypotheses of FramesPopBindDrop, clause by clause. -/
theorem witness_FramesPopBindDrop :
    ((Ready (spop (asRest 0 3 0 7 0) []) (↑0) 1 (1970531029025050)) ∧ (opcOf (1970531029025050) = 26) ∧ (bits (1970531029025050) 34 2 = 0) ∧
          (bits (1970531029025050) 40 6 = 0) ∧ (bits (1970531029025050) 64 64 = 0) ∧ (bits (1970531029025050) 32 2 ∈ (spop (asRest 0 3 0 7
          0) []).diesOf ↑0) ∧ (bits (1970531029025050) 36 4 ∉ ((spop (asRest 0 3 0 7 0) []).as (bits (1970531029025050) 32 2) ↑0).unread) ∧
          (List.filter (fun f => f.tag == bits (1970531029025050) 36 4 && f.state == 2) ((spop (asRest 0 3 0 7 0) []).as (bits
          (1970531029025050) 32 2) ↑0).frames = [])) ∧
    ((Ready (spop (asRest 0 3 0 7 0) [fr 2, fr 3]) (↑0) 1 (1970531029025050)) ∧ (opcOf (1970531029025050) = 26) ∧ (bits (1970531029025050)
          34 2 = 0) ∧ (bits (1970531029025050) 40 6 = 0) ∧ (bits (1970531029025050) 64 64 = 0) ∧ (bits (1970531029025050) 32 2 ∈ (spop
          (asRest 0 3 0 7 0) [fr 2, fr 3]).diesOf ↑0) ∧ (bits (1970531029025050) 36 4 ∉ ((spop (asRest 0 3 0 7 0) [fr 2, fr 3]).as (bits
          (1970531029025050) 32 2) ↑0).unread) ∧ ((List.filter (fun f => f.tag == bits (1970531029025050) 36 4 && f.state == 2) ((spop
          (asRest 0 3 0 7 0) [fr 2, fr 3]).as (bits (1970531029025050) 32 2) ↑0).frames).getLast? = some (fr 2)) ∧ (((spop (asRest 0 3 0 7
          0) [fr 2, fr 3]).as (bits (1970531029025050) 32 2) ↑0).slotOf (bits (1970531029025050) 46 1) = some (fr 3)) ∧ ((fr 3).dropping =
          false)) ∧
    ((Ready (spop (asRest 0 3 0 7 0) [fr 2, gone 3]) (↑0) 1 (1970531029025050)) ∧ (opcOf (1970531029025050) = 26) ∧ (bits (1970531029025050)
          34 2 = 0) ∧ (bits (1970531029025050) 40 6 = 0) ∧ (bits (1970531029025050) 64 64 = 0) ∧ (bits (1970531029025050) 32 2 ∈ (spop
          (asRest 0 3 0 7 0) [fr 2, gone 3]).diesOf ↑0) ∧ (bits (1970531029025050) 36 4 ∉ ((spop (asRest 0 3 0 7 0) [fr 2, gone 3]).as (bits
          (1970531029025050) 32 2) ↑0).unread) ∧ ((List.filter (fun f => f.tag == bits (1970531029025050) 36 4 && f.state == 2) ((spop
          (asRest 0 3 0 7 0) [fr 2, gone 3]).as (bits (1970531029025050) 32 2) ↑0).frames).getLast? = some (fr 2)) ∧ (((spop (asRest 0 3 0 7
          0) [fr 2, gone 3]).as (bits (1970531029025050) 32 2) ↑0).slotOf (bits (1970531029025050) 46 1) = some (gone 3)) ∧ ((gone
          3).dropping = true)) ∧
    ((Ready (spop (asRest 0 3 0 8 0 + 2^15) [fr 2]) (↑0) 1 (2392743494091034)) ∧ (opcOf (2392743494091034) = 26) ∧ (bits (2392743494091034)
          34 2 = 0) ∧ (bits (2392743494091034) 40 6 = 0) ∧ (bits (2392743494091034) 64 64 = 0) ∧ (bits (2392743494091034) 32 2 ∈ (spop
          (asRest 0 3 0 8 0 + 2^15) [fr 2]).diesOf ↑0) ∧ (bits (2392743494091034) 36 4 ∉ ((spop (asRest 0 3 0 8 0 + 2^15) [fr 2]).as (bits
          (2392743494091034) 32 2) ↑0).unread) ∧ ((List.filter (fun f => f.tag == bits (2392743494091034) 36 4 && f.state == 2) ((spop
          (asRest 0 3 0 8 0 + 2^15) [fr 2]).as (bits (2392743494091034) 32 2) ↑0).frames).getLast? = some (fr 2)) ∧ (((spop (asRest 0 3 0 8
          0 + 2^15) [fr 2]).as (bits (2392743494091034) 32 2) ↑0).slotOf (bits (2392743494091034) 46 1) = none) ∧
          ((2392743494091034).testBit 47 = true) ∧ ((fr 2).label ≠ bits (2392743494091034) 48 16)) ∧
    ((Ready (sbind 0x34000 []) (↑0) 1 (3929008913747544851415324)) ∧ (opcOf (3929008913747544851415324) = 28) ∧ (bits
          (3929008913747544851415324) 34 12 = 0) ∧ (bits (3929008913747544851415324) 47 17 = 0) ∧ (bits (3929008913747544851415324) 116 12 =
          0) ∧ (bits (3929008913747544851415324) 32 2 ∈ (sbind 0x34000 []).diesOf ↑0) ∧ (((sbind 0x34000 []).as (bits
          (3929008913747544851415324) 32 2) ↑0).slotOf (bits (3929008913747544851415324) 46 1) = none)) ∧
    ((Ready (sbind 0x34008 [fr 3]) (↑0) 1 (3929156487700134527828252)) ∧ (opcOf (3929156487700134527828252) = 28) ∧ (bits
          (3929156487700134527828252) 34 12 = 0) ∧ (bits (3929156487700134527828252) 47 17 = 0) ∧ (bits (3929156487700134527828252) 116 12 =
          0) ∧ (bits (3929156487700134527828252) 32 2 ∈ (sbind 0x34008 [fr 3]).diesOf ↑0) ∧ (((sbind 0x34008 [fr 3]).as (bits
          (3929156487700134527828252) 32 2) ↑0).slotOf (bits (3929156487700134527828252) 46 1) = some (fr 3)) ∧ ((fr 3).dropping = true ∨
          bits (3929156487700134527828252) 64 52 % 64 ≠ 0 ∨ (sbind 0x34008 [fr 3]).inStake (↑0) (bits (3929156487700134527828252) 64 52) 16
          = false)) ∧
    ((Ready (sdrop [gone 3]) (↑0) 1 (33620251)) ∧ (opcOf (33620251) = 27) ∧ (bits (33620251) 34 12 = 0) ∧ (bits (33620251) 47 81 = 0) ∧
          (bits (33620251) 32 2 ∈ (sdrop [gone 3]).diesOf ↑0) ∧ (∀ (f : Frame), ((sdrop [gone 3]).as (bits (33620251) 32 2) ↑0).slotOf (bits
          (33620251) 46 1) = some f → f.dropping = true)) ∧
    (((on.q ↑0).outst = [])) := by
  refine ⟨?_, ?_, ?_, ?_, ?_, ?_, ?_, ?_⟩
  · (unfold Ready; decide +kernel)
  · (unfold Ready; decide +kernel)
  · (unfold Ready; decide +kernel)
  · (unfold Ready; decide +kernel)
  · (unfold Ready; decide +kernel)
  · (unfold Ready; decide +kernel)
  · exact ⟨by (unfold Ready; decide +kernel), by decide +kernel, by decide +kernel, by decide +kernel, by decide +kernel, by decide +kernel⟩
  · decide +kernel

/-- States and operands that meet the hypotheses of Residency, clause by clause. -/
theorem witness_Residency :
    ((((pushing [(3, 1)] [(3, 1)] [] [fr 2] on).as 0 ↑0).pushq = ((3,1)) :: ([])) ∧ (((3,1)) ∈ ((pushing [(3, 1)] [(3, 1)] [] [fr 2] on).as
          0 ↑0).pool)) ∧
    ((((pushing [] [(3, 1)] [(3, 1)] [fr 2] on).as 0 ↑0).pushq = ((3,1)) :: ([])) ∧ (((3,1)) ∉ ((pushing [] [(3, 1)] [(3, 1)] [fr 2] on).as
          0 ↑0).pool) ∧ (((pushing [] [(3, 1)] [(3, 1)] [fr 2] on).as 0 ↑0).pool.length < (pushing [] [(3, 1)] [(3, 1)] [fr 2] on).poolSegs
          0 ↑0)) ∧
    (((fullPool.as 0 ↑0).pushq = ((15,300)) :: ([])) ∧ (((15,300)) ∉ (fullPool.as 0 ↑0).pool) ∧ (fullPool.poolSegs 0 ↑0 ≤ (fullPool.as 0
          ↑0).pool.length) ∧ (0 < fullPool.poolSegs 0 ↑0) ∧ ((fullPool.as 0 ↑0).victim = some (fr 2)) ∧ (((15,300)) ∉ (fr 2).parts) ∧
          (fullPool.noSpill ↑0 = false) ∧ (((3, 0)) ∈ (fr 2).parts)) ∧
    (((fullPool.as 0 ↑0).pushq = ((15,300)) :: ([])) ∧ (((15,300)) ∉ (fullPool.as 0 ↑0).pool) ∧ (fullPool.poolSegs 0 ↑0 ≤ (fullPool.as 0
          ↑0).pool.length) ∧ (0 < fullPool.poolSegs 0 ↑0) ∧ ((fullPool.as 0 ↑0).victim = some (fr 2)) ∧ (((15,300)) ∉ (fr 2).parts) ∧
          (fullPool.noSpill ↑0 = false) ∧ (((15, 0)) ∈ (fullPool.as 0 ↑0).pool) ∧ (((15, 0)) ∉ (fr 2).parts)) ∧
    (((fullPool.as 0 ↑0).pushq = ((15,300)) :: ([])) ∧ (((15,300)) ∉ (fullPool.as 0 ↑0).pool) ∧ (fullPool.poolSegs 0 ↑0 ≤ (fullPool.as 0
          ↑0).pool.length) ∧ (0 < fullPool.poolSegs 0 ↑0) ∧ ((fullPool.as 0 ↑0).victim = some (fr 2)) ∧ (((15,300)) ∉ (fr 2).parts) ∧
          (fullPool.noSpill ↑0 = false) ∧ (fullPool.nearSegs 0 ↑0 = 0)) ∧
    (((noPool.as 0 ↑0).pushq = ((3,1)) :: ([])) ∧ (((3,1)) ∉ (noPool.as 0 ↑0).pool) ∧ (noPool.poolSegs 0 ↑0 ≤ (noPool.as 0 ↑0).pool.length)
          ∧ (noPool.noSpill ↑0 = false) ∧ (noPool.poolSegs 0 ↑0 = 0 ∨ (noPool.as 0 ↑0).victim = none)) ∧
    (((on.as 0 ↑0).pushq = [])) ∧
    ((((pushing [] [(3, 1)] [(3, 1)] [fr 2] on).as 0 ↑0).xferq = ((3,1)) :: ([])) ∧ (((3,1)) ∉ ((pushing [] [(3, 1)] [(3, 1)] [fr 2] on).as
          0 ↑0).pool) ∧ (((pushing [] [(3, 1)] [(3, 1)] [fr 2] on).as 0 ↑0).pool.length < (pushing [] [(3, 1)] [(3, 1)] [fr 2] on).poolSegs
          0 ↑0)) ∧
    (((on.as 0 ↑0).xferq = [])) := by
  refine ⟨?_, ?_, ?_, ?_, ?_, ?_, ?_, ?_, ?_⟩
  · decide +kernel
  · decide +kernel
  · decide +kernel
  · decide +kernel
  · decide +kernel
  · decide +kernel
  · decide +kernel
  · decide +kernel
  · decide +kernel

/-- States and operands that meet the hypotheses of QuayOperations, clause by clause. -/
theorem witness_QuayOperations :
    ((Ready (quayHead 0x28 1) (↑0) 2 (4835703278458521027412264)) ∧ (opcOf (4835703278458521027412264) = 40) ∧ (bits
          (4835703278458521027412264) 32 32 ≠ 0 ∨ bits (4835703278458521027412264) 116 12 ≠ 0)) ∧
    ((Ready (quayHead 0x2A 1) (↑0) 2 (4835703278458521027412266)) ∧ (opcOf (4835703278458521027412266) = 42) ∧ (bits
          (4835703278458521027412266) 32 32 ≠ 0 ∨ bits (4835703278458521027412266) 116 12 ≠ 0)) ∧
    ((Ready (quayNone 0x2A 0) (↑0) 2 (4835703278458516732444970)) ∧ (opcOf (4835703278458516732444970) = 42) ∧ (¬(bits
          (4835703278458516732444970) 32 32 ≠ 0 ∨ bits (4835703278458516732444970) 116 12 ≠ 0)) ∧ ((quayNone 0x2A 0).quayFault (↑0) (bits
          (4835703278458516732444970) 64 52) none ≠ 0)) ∧
    ((Ready (quayHead 0x2B 1) (↑0) 2 (4835703278458521027412267)) ∧ (opcOf (4835703278458521027412267) = 43) ∧ (bits
          (4835703278458521027412267) 32 32 ≠ 0 ∨ bits (4835703278458521027412267) 116 12 ≠ 0)) ∧
    ((Ready (quayNone 0x2B 0) (↑0) 2 (4835703278458516732444971)) ∧ (opcOf (4835703278458516732444971) = 43) ∧ (¬(bits
          (4835703278458516732444971) 32 32 ≠ 0 ∨ bits (4835703278458516732444971) 116 12 ≠ 0)) ∧ ((quayNone 0x2B 0).quayFault (↑0) (bits
          (4835703278458516732444971) 64 52) none ≠ 0)) ∧
    ((Ready (quayNone 0x29 2) (↑0) 2 (4835703278458525322379561)) ∧ (opcOf (4835703278458525322379561) = 41) ∧ (¬(bits
          (4835703278458525322379561) 38 26 ≠ 0 ∨ bits (4835703278458525322379561) 116 12 ≠ 0)) ∧ ((quayNone 0x29 2).quayFault (↑0) (bits
          (4835703278458525322379561) 64 52) (some (bits (4835703278458525322379561) 32 6)) ≠ 0)) ∧
    ((NoJobWaits on) ∧ (List.find? (fun o => (on.opUnits (↑0) o).all (on.opFree (↑0) o)) (List.filter (fun o => [40, 42, 43].contains (opcOf
          o.word)) (on.q ↑0).outst) = none ∨ on.quayHalt = true)) := by
  refine ⟨?_, ?_, ?_, ?_, ?_, ?_, ?_⟩
  · (unfold Ready; decide +kernel)
  · (unfold Ready; decide +kernel)
  · (unfold Ready; decide +kernel)
  · (unfold Ready; decide +kernel)
  · (unfold Ready; decide +kernel)
  · (unfold Ready; decide +kernel)
  · (unfold NoJobWaits; decide +kernel)

/-- States and operands that meet the hypotheses of QuayStaging, clause by clause. -/
theorem witness_QuayStaging :
    ((((bound [block 0, block 1]).qu ↑0).waiting = [])) ∧
    ((((bound [block 0, block 1]).qu ↑0).inbox = [])) ∧
    (((((arriving true).setQu 0 { (arriving true).qu 0 with resv := [⟨1, 5, 16384⟩] }).qu ↑0).inbox = (block 0) :: ([])) ∧ (((arriving
          true).setQu 0 { (arriving true).qu 0 with resv := [⟨1, 5, 16384⟩] }).quayLost ↑0 = false) ∧ ((block 0).final = true) ∧
          (¬(((arriving true).setQu 0 { (arriving true).qu 0 with resv := [⟨1, 5, 16384⟩] }).staging ↑0 + 128 ≤ 4194304 ∧ (((arriving
          true).setQu 0 { (arriving true).qu 0 with resv := [⟨1, 5, 16384⟩] }).quayDegraded ↑0 = true ∨ ((arriving true).setQu 0
          { (arriving true).qu 0 with resv := [⟨1, 5, 16384⟩] }).staging (↑0 ^^^ 1) + 128 ≤ 4194304)))) ∧
    ((reserveLost.engOwner 0 = some 0) ∧ (reserveLost.nextMx 0 0 = some (((reserving).q 0).outst.headD mxo)) ∧ ((((reserving).q
          0).outst.headD mxo).strm < 3) ∧ ((parseChain (((reserving).q 0).outst.headD mxo).chain).dst.kind = 6) ∧ (reserveLost.quayBlocked 0
          (((reserving).q 0).outst.headD mxo) = false) ∧ (reserveLost.noIssue 0 = false ∨ (((reserving).q 0).outst.headD mxo).rerun = true)
          ∧ (((reserveLost.quayShares 0 (((reserving).q 0).outst.headD mxo)).any fun p => reserveLost.quayLost p.1) = true) ∧
          (reserveLost.flag (R.psqFrec0 0 (((reserving).q 0).outst.headD mxo).strm) F.psqFrec0Valid = false)) ∧
    ((reserving.engOwner 0 = some 0) ∧ (reserving.nextMx 0 0 = some (((reserving).q 0).outst.headD mxo)) ∧ ((((reserving).q 0).outst.headD
          mxo).strm < 3) ∧ ((parseChain (((reserving).q 0).outst.headD mxo).chain).dst.kind = 6) ∧ (reserving.quayBlocked 0 (((reserving).q
          0).outst.headD mxo) = false) ∧ (reserving.noIssue 0 = false ∨ (((reserving).q 0).outst.headD mxo).rerun = true) ∧
          (((reserving.quayShares 0 (((reserving).q 0).outst.headD mxo)).any fun p => reserving.quayLost p.1) = false) ∧ (List.find? (fun p
          => !reserving.reserved 0 (((reserving).q 0).outst.headD mxo) p.1) (reserving.quayNeeds 0 (((reserving).q 0).outst.headD mxo)) =
          some (0, 2)) ∧ (((reserving.qu 0).waiting.any fun r => r.stake == 0 && r.seq == (((reserving).q 0).outst.headD mxo).seq) = false)
          ∧ ((reserving.qu 0).waiting = []) ∧ (reserving.fits 0 2 = true)) ∧
    ((reserveBehind.engOwner 0 = some 0) ∧ (reserveBehind.nextMx 0 0 = some (((reserving).q 0).outst.headD mxo)) ∧ ((((reserving).q
          0).outst.headD mxo).strm < 3) ∧ ((parseChain (((reserving).q 0).outst.headD mxo).chain).dst.kind = 6) ∧ (reserveBehind.quayBlocked
          0 (((reserving).q 0).outst.headD mxo) = false) ∧ (reserveBehind.noIssue 0 = false ∨ (((reserving).q 0).outst.headD mxo).rerun =
          true) ∧ (((reserveBehind.quayShares 0 (((reserving).q 0).outst.headD mxo)).any fun p => reserveBehind.quayLost p.1) = false) ∧
          (List.find? (fun p => !reserveBehind.reserved 0 (((reserving).q 0).outst.headD mxo) p.1) (reserveBehind.quayNeeds 0
          (((reserving).q 0).outst.headD mxo)) = some (0, 2)) ∧ (((reserveBehind.qu 0).waiting.any fun r => r.stake == 0 && r.seq ==
          (((reserving).q 0).outst.headD mxo).seq) = false) ∧ ((reserveBehind.qu 0).waiting ≠ [] ∨ reserveBehind.fits 0 2 = false)) ∧
    (((on.qu ↑0).waiting = [])) ∧
    ((((grants 2).qu ↑0).waiting = (⟨1, 5, 2⟩ : Resv) :: ([⟨0, 1, 1⟩])) ∧ ((grants 2).fits (↑0) (⟨1, 5, 2⟩ : Resv).slices = true) ∧ ((⟨1, 5,
          2⟩ : Resv).stake < 16)) ∧
    ((((grants 20000).qu ↑0).waiting = (⟨1,5,20000⟩ : Resv) :: ([⟨0, 1, 1⟩])) ∧ ((grants 20000).fits (↑0) (⟨1,5,20000⟩ : Resv).slices =
          false)) ∧
    (((on.qu ↑0).inbox = [])) ∧
    ((((arriving false).qu ↑0).inbox = ({block 0 with final := false}) :: ([])) ∧ ((arriving false).quayLost ↑0 = false) ∧
          (({block 0 with final := false}).final = false)) ∧
    ((((arriving true).qu ↑0).inbox = (block 0) :: ([])) ∧ ((arriving true).quayLost ↑0 = false) ∧ ((block 0).final = true) ∧ ((arriving
          true).staging ↑0 + 128 ≤ 4194304 ∧ ((arriving true).quayDegraded ↑0 = true ∨ (arriving true).staging (↑0 ^^^ 1) + 128 ≤ 4194304))
          ∧ ((arriving true).quayDegraded ↑0 = false)) := by
  refine ⟨?_, ?_, ?_, ?_, ?_, ?_, ?_, ?_, ?_, ?_, ?_, ?_⟩
  · decide +kernel
  · decide +kernel
  · decide +kernel
  · decide +kernel
  · decide +kernel
  · decide +kernel
  · decide +kernel
  · decide +kernel
  · decide +kernel
  · decide +kernel
  · decide +kernel
  · decide +kernel

/-- States and operands that meet the hypotheses of FoldsAndFarAtomics, clause by clause. -/
theorem witness_FoldsAndFarAtomics :
    (((bound [block 0, block 1]).quayLost ↑0 = false) ∧ (NoJobWaits (bound [block 0, block 1])) ∧ (Corrected Errs.none) ∧ (((bound [block 0,
          block 1]).qu ↑0).placeOf ((bound [block 0, block 1]).foldTurn ↑0) = none ∨ (bound [block 0, block 1]).quayHalt = true) ∧ (∀ (u k :
          ℕ), 0 ≠ R.quySCntHold u k)) ∧
    (((bound [block 0, block 1]).quayLost ↑1 = false) ∧ (NoJobWaits (bound [block 0, block 1])) ∧ (Corrected Errs.none) ∧ (((bound [block 0,
          block 1]).qu ↑1).placeOf ((bound [block 0, block 1]).updTurn ↑1) = none ∨ (bound [block 0, block 1]).quayHalt = true)) ∧
    (((bound [block 0, block 1]).quayLost ↑0 = false) ∧ (NoJobWaits (bound [block 0, block 1])) ∧ (Corrected Errs.none) ∧ (((bound [block 0,
          block 1]).qu ↑0).placeOf ((bound [block 0, block 1]).atomTurn ↑0) = none)) ∧
    (((folding [slice0 false]).quayLost ↑0 = false) ∧ (NoJobWaits (folding [slice0 false])) ∧ (Corrected Errs.none) ∧ (((folding [slice0
          false]).qu ↑0).placeOf ((folding [slice0 false]).foldTurn ↑0) = some 0) ∧ (((folding [slice0 false]).qu ↑0).trig[0]? = some
          (Trig.fold 0 3)) ∧ ((folding [slice0 false]).quayHalt = false) ∧ ((folding [slice0 false]).foldable (↑0) 0 0 3 = [(slice0 false)])
          ∧ ((slice0 false).poison = false) ∧ (Errs.none.unc = 0) ∧ ((folding [slice0 false]).unreadable ((slice0 false).addr + accOff
          ((folding [slice0 false]).stake (slice0 false).stake).master12) 256 = false) ∧ ((slice0 false).vals.length = 64) ∧ (Lands (folding
          [slice0 false]) ((slice0 false).addr + accOff ((folding [slice0 false]).stake (slice0 false).stake).master12) 256) ∧ (0 < 64)) ∧
    ((on.quayLost ↑0 = false) ∧ (NoJobWaits on) ∧ (Corrected Errs.none) ∧ ((on.qu ↑0).placeOf (on.foldTurn ↑0) = none ∨ on.quayHalt = true)
          ∧ (∀ (u k : ℕ), 0 ≠ R.quySCntHold u k)) ∧
    ((on.quayLost ↑0 = false) ∧ (NoJobWaits on) ∧ (Corrected Errs.none) ∧ ((on.qu ↑0).placeOf (on.updTurn ↑0) = none ∨ on.quayHalt = true))
          ∧
    (((atoms []).quayLost ↑0 = false) ∧ (NoJobWaits (atoms [])) ∧ (Corrected Errs.none) ∧ (((atoms []).qu ↑0).placeOf ((atoms []).atomTurn
          ↑0) = some 0) ∧ (((atoms []).qu ↑0).trig[0]? = some (Trig.atom atom0)) ∧ ((atoms []).bad atom0.addr atom0.size = false) ∧ ((atoms
          []).dropped atom0.addr = false)) ∧
    (((atoms [0x120000]).quayLost ↑0 = false) ∧ (NoJobWaits (atoms [0x120000])) ∧ (Corrected Errs.none) ∧ (((atoms [0x120000]).qu
          ↑0).placeOf ((atoms [0x120000]).atomTurn ↑0) = some 0) ∧ (((atoms [0x120000]).qu ↑0).trig[0]? = some (Trig.atom atom0)) ∧ ((atoms
          [0x120000]).bad atom0.addr atom0.size = true)) ∧
    ((on.quayLost ↑0 = false) ∧ (NoJobWaits on) ∧ (Corrected Errs.none) ∧ ((on.qu ↑0).placeOf (on.atomTurn ↑0) = none)) := by
  refine ⟨?_, ?_, ?_, ?_, ?_, ?_, ?_, ?_, ?_⟩
  · exact ⟨by decide +kernel, by (unfold NoJobWaits; decide +kernel), by (unfold Corrected; decide +kernel), by decide +kernel,
        by (intro u k; unfold R.quySCntHold; omega)⟩
  · (unfold Corrected NoJobWaits; decide +kernel)
  · (unfold Corrected NoJobWaits; decide +kernel)
  · (unfold Lands Corrected NoJobWaits; decide +kernel)
  · exact ⟨by decide +kernel, by (unfold NoJobWaits; decide +kernel), by (unfold Corrected; decide +kernel), by decide +kernel,
        by (intro u k; unfold R.quySCntHold; omega)⟩
  · (unfold Corrected NoJobWaits; decide +kernel)
  · (unfold Corrected NoJobWaits; decide +kernel)
  · (unfold Corrected NoJobWaits; decide +kernel)
  · (unfold Corrected NoJobWaits; decide +kernel)

/-- States and operands that meet the hypotheses of SealExchanges, clause by clause. -/
theorem witness_SealExchanges :
    ((List.findIdx? (fun e => isSealFlit (e.1 % 8) e.2) ((sealIn 0 2 0 {Xch.idle with ended := [5]}).pt ↑1).rx = some 0) ∧ ((sealIn 0 2 0
          {Xch.idle with ended := [5]}).arrival (↑1) 0 = some 0) ∧ ((sealIn 0 2 0 {Xch.idle with ended := [5]}).ringStake (0 / 2) = some 0)
          ∧ (numAt (((sealIn 0 2 0 {Xch.idle with ended := [5]}).pt ↑1).rx.getD 0 (0, [])).2 12 4 ∈ ((sealIn 0 2 0
          {Xch.idle with ended := [5]}).xc 0).ended)) ∧
    ((List.findIdx? (fun e => isSealFlit (e.1 % 8) e.2) ((sealIn 0 2 0 Xch.idle).pt ↑1).rx = some 0) ∧ ((sealIn 0 2 0 Xch.idle).arrival (↑1)
          0 = some 0) ∧ ((sealIn 0 2 0 Xch.idle).ringStake (0 / 2) = some 0) ∧ (numAt (((sealIn 0 2 0 Xch.idle).pt ↑1).rx.getD 0 (0, [])).2
          12 4 ∉ ((sealIn 0 2 0 Xch.idle).xc 0).ended) ∧ (((sealIn 0 2 0 Xch.idle).xc 0).current = none) ∧ (((sealIn 0 2 0 Xch.idle).xc
          0).queued = none)) ∧
    ((List.findIdx? (fun e => isSealFlit (e.1 % 8) e.2) ((sealIn 1 2 0 opened).pt ↑1).rx = some 0) ∧ ((sealIn 1 2 0 opened).arrival (↑1) 0 =
          some 0) ∧ ((sealIn 1 2 0 opened).ringStake (0 / 2) = some 0) ∧ (numAt (((sealIn 1 2 0 opened).pt ↑1).rx.getD 0 (0, [])).2 12 4 ∉
          ((sealIn 1 2 0 opened).xc 0).ended) ∧ (((sealIn 1 2 0 opened).xc 0).current = some handoff5) ∧ (handoff5.step = numAt (((sealIn 1
          2 0 opened).pt ↑1).rx.getD 0 (0, [])).2 12 4) ∧ (handoff5.own = some (seal1 0)) ∧ (((sealIn 1 2 0 opened).xc 0).buffer = []) ∧
          (((sealIn 1 2 0 opened).xc 0).queued = none) ∧ ((sealIn 1 2 0 opened).member 0 = some (0, 1, 2)) ∧ (1 + 1 = 2)) ∧
    ((List.findIdx? (fun e => isSealFlit (e.1 % 8) e.2) ((sealIn 1 2 3 opened).pt ↑1).rx = some 0) ∧ ((sealIn 1 2 3 opened).arrival (↑1) 0 =
          some 0) ∧ ((sealIn 1 2 3 opened).ringStake (0 / 2) = some 0) ∧ (numAt (((sealIn 1 2 3 opened).pt ↑1).rx.getD 0 (0, [])).2 12 4 ∉
          ((sealIn 1 2 3 opened).xc 0).ended) ∧ (((sealIn 1 2 3 opened).xc 0).current = some handoff5) ∧ (handoff5.step = numAt (((sealIn 1
          2 3 opened).pt ↑1).rx.getD 0 (0, [])).2 12 4) ∧ (handoff5.own = some (seal1 0)) ∧ (((sealIn 1 2 3 opened).xc 0).buffer = []) ∧
          (((sealIn 1 2 3 opened).xc 0).queued = none) ∧ ((sealIn 1 2 3 opened).member 0 = some (0, 1, 2)) ∧ (1 + 1 = 2) ∧ ((sealCombine
          (parseSeal (slice (((sealIn 1 2 3 opened).pt ↑1).rx.getD 0 (0, [])).2 16 64)) (seal1 0)).mismatch = false) ∧ ((sealCombine
          (parseSeal (slice (((sealIn 1 2 3 opened).pt ↑1).rx.getD 0 (0, [])).2 16 64)) (seal1 0)).nonfin ≠ 0)) ∧
    ((List.findIdx? (fun e => isSealFlit (e.1 % 8) e.2) ((sealIn 1 3 0 opened).pt ↑1).rx = some 0) ∧ ((sealIn 1 3 0 opened).arrival (↑1) 0 =
          some 0) ∧ ((sealIn 1 3 0 opened).ringStake (0 / 2) = some 0) ∧ (numAt (((sealIn 1 3 0 opened).pt ↑1).rx.getD 0 (0, [])).2 12 4 ∉
          ((sealIn 1 3 0 opened).xc 0).ended) ∧ (((sealIn 1 3 0 opened).xc 0).current = some handoff5) ∧ (handoff5.step = numAt (((sealIn 1
          3 0 opened).pt ↑1).rx.getD 0 (0, [])).2 12 4) ∧ (handoff5.own = some (seal1 0)) ∧ (((sealIn 1 3 0 opened).xc 0).buffer = []) ∧
          (((sealIn 1 3 0 opened).xc 0).queued = none) ∧ ((sealIn 1 3 0 opened).member 0 = some (0, 1, 3)) ∧ (0 < 1) ∧ (1 + 1 < 3) ∧
          (((sealIn 1 3 0 opened).xc 0).passed = false)) ∧
    (((on.xc ↑0).current = none)) ∧
    ((((sealIn 1 2 0 opened).xc ↑0).current = some handoff5) ∧ (((sealIn 1 2 0 opened).xc ↑0).queued = none) ∧ ((sealIn 1 2 0 opened).flag
          (R.rdxSXctl ↑0) F.rdxSXctlPost = true)) ∧
    ((((sealIn 1 2 0 opened).xc ↑0).current = some handoff5) ∧ (((sealIn 1 2 0 opened).xc ↑0).queued = none) ∧ ((sealIn 1 2 0 opened).pst ↑0
          ≠ 4)) := by
  refine ⟨?_, ?_, ?_, ?_, ?_, ?_, ?_, ?_⟩
  · decide +kernel
  · decide +kernel
  · decide +kernel
  · decide +kernel
  · decide +kernel
  · decide +kernel
  · decide +kernel
  · decide +kernel

/-- States and operands that meet the hypotheses of ReductionJobs, clause by clause. -/
theorem witness_ReductionJobs :
    ((Ready (rjob 0x100) (↑0) 2 (6044629098074254008713520)) ∧ (opcOf (6044629098074254008713520) = 48) ∧ (bits (6044629098074254008713520)
          38 26 ≠ 0 ∨ bits (6044629098074254008713520) 116 12 ≠ 0)) ∧
    ((Ready rjobFar (↑0) 2 (713053462628379038350519107888)) ∧ (opcOf (713053462628379038350519107888) = 48) ∧ (bits
          (713053462628379038350519107888) 38 26 = 0) ∧ (bits (713053462628379038350519107888) 116 12 = 0) ∧ (rjobFar.inStake (↑0) (bits
          (713053462628379038350519107888) 64 52) 256 = false)) ∧
    ((Ready (rjob 0) (↑0) 2 (6044629098073154497085744)) ∧ (opcOf (6044629098073154497085744) = 48) ∧ (bits (6044629098073154497085744) 38
          26 = 0) ∧ (bits (6044629098073154497085744) 116 12 = 0) ∧ ((rjob 0).inStake (↑0) (bits (6044629098073154497085744) 64 52) 256 =
          true) ∧ (((rjob 0).stake ↑0).jobBase ≤ bits (6044629098073154497085744) 32 6) ∧ (bits (6044629098073154497085744) 32 6 < ((rjob
          0).stake ↑0).jobBase + ((rjob 0).stake ↑0).jobCount) ∧ ((rjob 0).job (bits (6044629098073154497085744) 32 6) = none)) ∧
    ((List.find? (fun o => opcOf o.word == 48 && !o.issued) ((issuing 3 0).q ↑0).outst = some ((((issuing 2 0)).q 0).outst.headD mxo)) ∧
          ((issuing 3 0).xchEnded ↑0 = true) ∧ ((issuing 3 0).noIssue ↑0 = false) ∧ (((((issuing 2 0)).q 0).outst.headD mxo).strm = 2) ∧
          ((issuing 3 0).jobFault (↑0) ((((issuing 2 0)).q 0).outst.headD mxo) = some (101))) ∧
    ((Ready xreadWait (↑0) 2 (7253554917687775081857329)) ∧ (opcOf (7253554917687775081857329) = 49) ∧ (bits (7253554917687775081857329) 32
          32 = 0) ∧ (bits (7253554917687775081857329) 116 12 = 0) ∧ (bits (7253554917687775081857329) 64 52 % 64 = 0) ∧ (xreadWait.inStake
          (↑0) (bits (7253554917687775081857329) 64 52) 128 = true) ∧ (∀ o ∈ (xreadWait.q ↑0).outst, opcOf o.word ≠ 49) ∧
          (xreadWait.xchEnded ↑0 = false)) := by
  refine ⟨?_, ?_, ?_, ?_, ?_⟩
  · (unfold Ready; decide +kernel)
  · (unfold Ready; decide +kernel)
  · (unfold Ready; decide +kernel)
  · decide +kernel
  · exact ⟨by (unfold Ready; decide +kernel), by decide +kernel, by decide +kernel, by decide +kernel, by decide +kernel, by decide +kernel,
        by decide +kernel, by decide +kernel⟩

/-- States and operands that meet the hypotheses of ReductionBarges, clause by clause. -/
theorem witness_ReductionBarges :
    ((Corrected Errs.none) ∧ ((scatter8 1 0).ripe (↑1) 2 ((scatter8 1 0).mayAdd 2) = some (0, ((((scatter8 0 0)).pt 1).rx.headD (0, [])),
          job0) ∧ (scatter8 1 0).member job0.stake = some (0, 1, 2)) ∧ ((scatter8 1 0).flag R.ptbCtl F.ptbCtlArm = false) ∧ ((scatter8 1
          0).bargeUnits job0 2 ((((scatter8 0 0)).pt 1).rx.headD (0, [])).2 = [(readUnit 2 ((((scatter8 0 0)).pt 1).rx.headD (0, [])).2 0)])
          ∧ (chunkOwner 2 ((scatter8 1 0).groupsOf job0).length ((readUnit 2 ((((scatter8 0 0)).pt 1).rx.headD (0, [])).2 0).1 / 2) ≠ 1)) ∧
    ((Corrected Errs.none) ∧ ((scatter8 0 0).ripe (↑1) 2 ((scatter8 0 0).mayAdd 2) = some (0, ((((scatter8 0 0)).pt 1).rx.headD (0, [])),
          job0) ∧ (scatter8 0 0).member job0.stake = some (0, 0, 2)) ∧ ((scatter8 0 0).flag R.ptbCtl F.ptbCtlArm = false) ∧ ((scatter8 0
          0).bargeUnits job0 2 ((((scatter8 0 0)).pt 1).rx.headD (0, [])).2 = [(readUnit 2 ((((scatter8 0 0)).pt 1).rx.headD (0, [])).2 0)])
          ∧ (chunkOwner 2 ((scatter8 0 0).groupsOf job0).length ((readUnit 2 ((((scatter8 0 0)).pt 1).rx.headD (0, [])).2 0).1 / 2) = 0)) ∧
    ((Corrected Errs.none) ∧ ((scatter16 0 0).ripe (↑1) 3 ((scatter16 0 0).mayAdd 3) = some (0, ((((scatter16 0 0)).pt 1).rx.headD (0, [])),
          job0) ∧ (scatter16 0 0).member job0.stake = some (0, 0, 2)) ∧ ((scatter16 0 0).flag R.ptbCtl F.ptbCtlArm = false) ∧ ((scatter16 0
          0).bargeUnits job0 3 ((((scatter16 0 0)).pt 1).rx.headD (0, [])).2 = [(readUnit 3 ((((scatter16 0 0)).pt 1).rx.headD (0, [])).2
          0)]) ∧ (chunkOwner 2 ((scatter16 0 0).groupsOf job0).length ((readUnit 3 ((((scatter16 0 0)).pt 1).rx.headD (0, [])).2 0).1 / 2) =
          0)) ∧
    ((Corrected Errs.none) ∧ ((req 1).ripe (↑1) (4 + 1) (req 1).mayRetry = some (0, ((((req 1)).pt 1).rx.headD (0, [])), job0) ∧ (req
          1).member job0.stake = some (0, 1, 2)) ∧ (numAt ((((req 1)).pt 1).rx.headD (0, [])).2 3 1 = 1) ∧ (numAt ((((req 1)).pt 1).rx.headD
          (0, [])).2 16 4 / 2 < ((req 1).groupsOf job0).length)) ∧
    ((Corrected Errs.none) ∧ ((req 2).ripe (↑1) (4 + 2) (req 2).mayRetry = some (0, ((((req 2)).pt 1).rx.headD (0, [])), job0) ∧ (req
          2).member job0.stake = some (0, 1, 2)) ∧ (numAt ((((req 2)).pt 1).rx.headD (0, [])).2 3 1 = 1) ∧ (numAt ((((req 2)).pt 1).rx.headD
          (0, [])).2 16 4 / 2 < ((req 2).groupsOf job0).length)) := by
  refine ⟨?_, ?_, ?_, ?_, ?_⟩
  · (unfold Corrected; decide +kernel)
  · (unfold Corrected; decide +kernel)
  · (unfold Corrected; decide +kernel)
  · (unfold Corrected; decide +kernel)
  · (unfold Corrected; decide +kernel)

/-- States and operands that meet the hypotheses of JobsEnd, clause by clause. -/
theorem witness_JobsEnd :
    ((List.find? (fun p => p.2.stake == ↑0 && p.2.issued && !p.2.toSend.isEmpty) (jobAt 0 1 sendJob).jobs = some (2, sendJob)) ∧ ((jobAt 0 1
          sendJob).member ↑0 = some (0, 0, 1)) ∧ (sendJob.toSend = [0])) ∧
    ((List.find? (fun p => p.2.stake == ↑0 && p.2.issued && !p.2.toSend.isEmpty) (jobAt 0 2 sendJob).jobs = some (2, sendJob)) ∧ ((jobAt 0 2
          sendJob).member ↑0 = some (0, 0, 2)) ∧ (sendJob.toSend = [0]) ∧ (2 ≠ 1) ∧ ((jobAt 0 2 sendJob).bindOf 2 (((jobAt 0 2
          sendJob).groupsOf sendJob).getD 0 0) = some bound0) ∧ (0 < (parseQuay bound0.desc).gatherLen) ∧ ((parseQuay bound0.desc).gatherLen
          ≤ 240)) ∧
    (((jobAt 0 1 sendJob).job ↑2 = some sendJob) ∧ (List.find? (fun o => o.seq == sendJob.seq) ((jobAt 0 1 sendJob).q sendJob.stake).outst =
          some ((((jobAt 0 1 sendJob)).q 0).outst.headD mxo)) ∧ (PostsFit (jobAt 0 1 sendJob) sendJob.stake ((((jobAt 0 1 sendJob)).q
          0).outst.headD mxo).word) ∧ (sendJob.stake < 16) ∧ ((jobAt 0 1 sendJob).member sendJob.stake = some (0, 0, 1)) ∧ (¬(sendJob.begun
          = true ∧ sendJob.toSend = [] ∧ (∀ i < ((jobAt 0 1 sendJob).groupsOf sendJob).length, if chunkOwner 1 ((jobAt 0 1 sendJob).groupsOf
          sendJob).length i = 0 then i ∈ sendJob.updated else i ∈ sendJob.written) ∧ (∀ e ∈ ((jobAt 0 1 sendJob).rg (2 * 0)).txq, e.1 = 3 →
          isSealFlit e.1 e.2 = false → flitJob e.2 ≠ ↑2) ∧ ((jobAt 0 1 sendJob).rg (2 * 0)).jobs.get 0 ↑2 = 0))) ∧
    (((jobAt 0 1 sendJob).job ↑2 = some sendJob) ∧ (List.find? (fun o => o.seq == sendJob.seq) ((jobAt 0 1 sendJob).q sendJob.stake).outst =
          some ((((jobAt 0 1 sendJob)).q 0).outst.headD mxo)) ∧ (PostsFit (jobAt 0 1 sendJob) sendJob.stake ((((jobAt 0 1 sendJob)).q
          0).outst.headD mxo).word) ∧ (sendJob.stake < 16) ∧ (sendJob.issued = true)) ∧
    (((jobAt 0 2 { job0 with issued := false }).job ↑2 = some ({ job0 with issued := false })) ∧ (List.find? (fun o => o.seq ==
          ({ job0 with issued := false }).seq) ((jobAt 0 2 { job0 with issued := false }).q ({ job0 with issued := false }).stake).outst =
          some ((((jobAt 0 1 sendJob)).q 0).outst.headD mxo)) ∧ (PostsFit (jobAt 0 2 { job0 with issued := false })
          ({ job0 with issued := false }).stake ((((jobAt 0 1 sendJob)).q 0).outst.headD mxo).word) ∧ (({ job0 with issued := false }).stake
          < 16) ∧ (({ job0 with issued := false }).issued = false)) := by
  refine ⟨?_, ?_, ?_, ?_, ?_⟩
  · decide +kernel
  · decide +kernel
  · exact ⟨by decide +kernel, by decide +kernel, by (unfold PostsFit; exact forall_tokens (by decide +kernel) (by decide +kernel)),
        by decide +kernel, by decide +kernel, by decide +kernel⟩
  · exact ⟨by decide +kernel, by decide +kernel, by (unfold PostsFit; exact forall_tokens (by decide +kernel) (by decide +kernel)),
        by decide +kernel, by decide +kernel⟩
  · exact ⟨by decide +kernel, by decide +kernel, by (unfold PostsFit; exact forall_tokens (by decide +kernel) (by decide +kernel)),
        by decide +kernel, by decide +kernel⟩

/-- States and operands that meet the hypotheses of KvChecks, clause by clause. -/
theorem witness_KvChecks :
    ((Ready (kvUnread 34) (↑0) Strm.f.num (kvWord 34)) ∧ (opcOf (kvWord 34) = 34) ∧ (bits (kvWord 34) 32 32 = 0 ∧ bits (kvWord 34) 116 12 =
          0) ∧ ((kvUnread 34).kvReady ↑0 = true) ∧ ((kvUnread 34).unreadable (bits (kvWord 34) 64 52) 128 = true ∨ (kvUnread 34).kvDescBad
          (↑0) 34 (bits (kvWord 34) 64 52) (parseKv ((kvUnread 34).bytes (bits (kvWord 34) 64 52) 128)) = true)) ∧
    ((Ready (kvUnread 35) (↑0) Strm.f.num (kvWord 35)) ∧ (opcOf (kvWord 35) = 35) ∧ (bits (kvWord 35) 32 32 = 0 ∧ bits (kvWord 35) 116 12 =
          0) ∧ ((kvUnread 35).kvReady ↑0 = true) ∧ ((kvUnread 35).unreadable (bits (kvWord 35) 64 52) 128 = true ∨ (kvUnread 35).kvDescBad
          (↑0) 35 (bits (kvWord 35) 64 52) (parseKv ((kvUnread 35).bytes (bits (kvWord 35) 64 52) 128)) = true)) ∧
    ((Ready (kvUnread 36) (↑0) Strm.f.num (kvWord 36)) ∧ (opcOf (kvWord 36) = 36) ∧ (bits (kvWord 36) 32 32 = 0 ∧ bits (kvWord 36) 116 12 =
          0) ∧ ((kvUnread 36).kvReady ↑0 = true) ∧ ((kvUnread 36).unreadable (bits (kvWord 36) 64 52) 128 = true ∨ (kvUnread 36).kvDescBad
          (↑0) 36 (bits (kvWord 36) 64 52) (parseKv ((kvUnread 36).bytes (bits (kvWord 36) 64 52) 128)) = true)) ∧
    ((Ready (pool 0 1 0 (kvHead 37 (kvDesc 0 3 9 1 0 0 8) [3] on)) (↑0) Strm.f.num (kvWord 37)) ∧ (opcOf (kvWord 37) = 37) ∧ (bits (kvWord
          37) 32 32 = 0 ∧ bits (kvWord 37) 116 12 = 0) ∧ ((pool 0 1 0 (kvHead 37 (kvDesc 0 3 9 1 0 0 8) [3] on)).kvReady ↑0 = false)) ∧
    ((Ready (kvUnread 37) (↑0) Strm.f.num (kvWord 37)) ∧ (opcOf (kvWord 37) = 37) ∧ (bits (kvWord 37) 32 32 = 0 ∧ bits (kvWord 37) 116 12 =
          0) ∧ ((kvUnread 37).kvReady ↑0 = true) ∧ ((kvUnread 37).unreadable (bits (kvWord 37) 64 52) 128 = true ∨ (kvUnread 37).kvDescBad
          (↑0) 37 (bits (kvWord 37) 64 52) (parseKv ((kvUnread 37).bytes (bits (kvWord 37) 64 52) 128)) = true)) := by
  refine ⟨?_, ?_, ?_, ?_, ?_⟩
  · (unfold Ready; decide +kernel)
  · (unfold Ready; decide +kernel)
  · (unfold Ready; decide +kernel)
  · (unfold Ready; decide +kernel)
  · (unfold Ready; decide +kernel)

/-- States and operands that meet the hypotheses of KvGrowthAndRelease, clause by clause. -/
theorem witness_KvGrowthAndRelease :
    ((Ready (kvOk 0x25 1) (↑0) Strm.f.num (kvWord 37)) ∧ (KvInOrder (kvOk 0x25 1) ↑0) ∧ (KvTaken (kvOk 0x25 1) (↑0) 37 (kvWord 37) (parseKv
          (kvDesc 0 3 9 1 0 4 8)) ([]) ([3])) ∧ (KvAllowed (kvOk 0x25 1) (↑0) 37 (parseKv (kvDesc 0 3 9 1 0 4 8)) ([3])) ∧ (Writable
          [((parseKv (kvDesc 0 3 9 1 0 4 8)).basket, 64 + 320 * basketCount (parseKv (kvDesc 0 3 9 1 0 4 8)) (popcount 256 (parseKv (kvDesc
          0 3 9 1 0 4 8)).mask))] (kvOk 0x25 1)) ∧ (onesOf 256 (parseKv (kvDesc 0 3 9 1 0 4 8)).mask = [3])) := by
  exact ⟨by (unfold Ready; decide +kernel), by (unfold KvInOrder; decide +kernel), by (unfold KvTaken; decide +kernel),
        by (unfold KvAllowed; decide +kernel), by exact writable_of _ _ (by decide +kernel) (by decide +kernel), by decide +kernel⟩

/-- States and operands that meet the hypotheses of Gathers, clause by clause. -/
theorem witness_Gathers :
    ((List.find? (fun o => decide (o.prog < (o.acc.headD []).length)) ((gathering 8 (kvOk 0x22 1)).gathers ↑0) = some kgather)) ∧
    ((List.find? (fun o => o.isKv && o.issued && (opcOf o.word != 34 || decide ((o.acc.headD []).length ≤ o.prog))) ((kvOk 0x20 1).q
          ↑0).outst = none)) ∧
    ((List.find? (fun o => o.isKv && o.issued && (opcOf o.word != 34 || decide ((o.acc.headD []).length ≤ o.prog))) ((outs [kvDone] (running
          on)).q ↑0).outst = some kvDone) ∧ (KvInOrder (outs [kvDone] (running on)) ↑0) ∧ (PostsFit (outs [kvDone] (running on)) (↑0)
          kvDone.word) ∧ (kvDone.run.poison = false)) ∧
    ((List.find? (fun o => o.isKv && o.issued && (opcOf o.word != 34 || decide ((o.acc.headD []).length ≤ o.prog))) ((outs [kvDoneBad]
          (running on)).q ↑0).outst = some kvDoneBad) ∧ (KvInOrder (outs [kvDoneBad] (running on)) ↑0) ∧ (PostsFit (outs [kvDoneBad]
          (running on)) (↑0) kvDoneBad.word) ∧ (kvDoneBad.run.poison = true)) := by
  refine ⟨?_, ?_, ?_, ?_⟩
  · decide +kernel
  · decide +kernel
  · exact ⟨by decide +kernel, by (unfold KvInOrder; decide +kernel),
        by (unfold PostsFit; exact forall_tokens (by decide +kernel) (by decide +kernel)), by decide +kernel⟩
  · exact ⟨by decide +kernel, by (unfold KvInOrder; decide +kernel),
        by (unfold PostsFit; exact forall_tokens (by decide +kernel) (by decide +kernel)), by decide +kernel⟩

/-- States and operands that meet the hypotheses of KvPool, clause by clause. -/
theorem witness_KvPool :
    ((Granted (kvIdle 1) (.core 0) (R.kvpSCmd ↑0 ↑0)) ∧ ((kvIdle 1).enabled ↑0 = true ∧ (kvIdle 1).keeper ↑0 = ↑0 ∧ ((kvIdle 1).pst ↑0 = 1 ∨
          (kvIdle 1).pst ↑0 = 4)) ∧ ((kvIdle 1).kvInitBad ↑0 = false) ∧ (Separate [((kvIdle 1).pageAt (↑0) 0, 8 * ((kvIdle 1).stake
          ↑0).kvPages), ((kvIdle 1).seqAt (↑0) 0, 16 * ((kvIdle 1).stake ↑0).seqLimit), ((kvIdle 1).entryAt (↑0) 0 0, 4 * (((kvIdle 1).stake
          ↑0).seqLimit * (kvIdle 1).ptEntries ↑0))]) ∧ (Writable [((kvIdle 1).pageAt (↑0) 0, 8 * ((kvIdle 1).stake ↑0).kvPages), ((kvIdle
          1).seqAt (↑0) 0, 16 * ((kvIdle 1).stake ↑0).seqLimit), ((kvIdle 1).entryAt (↑0) 0 0, 4 * (((kvIdle 1).stake ↑0).seqLimit * (kvIdle
          1).ptEntries ↑0))] (kvIdle 1)) ∧ (0 < ((kvIdle 1).stake ↑0).kvPages)) ∧
    ((Granted (kvIdle 1) (.core 0) (R.kvpSCmd ↑0 ↑0)) ∧ ((kvIdle 1).enabled ↑0 = true ∧ (kvIdle 1).keeper ↑0 = ↑0 ∧ ((kvIdle 1).pst ↑0 = 1 ∨
          (kvIdle 1).pst ↑0 = 4)) ∧ ((kvIdle 1).kvInitBad ↑0 = false) ∧ (Separate [((kvIdle 1).pageAt (↑0) 0, 8 * ((kvIdle 1).stake
          ↑0).kvPages), ((kvIdle 1).seqAt (↑0) 0, 16 * ((kvIdle 1).stake ↑0).seqLimit), ((kvIdle 1).entryAt (↑0) 0 0, 4 * (((kvIdle 1).stake
          ↑0).seqLimit * (kvIdle 1).ptEntries ↑0))]) ∧ (Writable [((kvIdle 1).pageAt (↑0) 0, 8 * ((kvIdle 1).stake ↑0).kvPages), ((kvIdle
          1).seqAt (↑0) 0, 16 * ((kvIdle 1).stake ↑0).seqLimit), ((kvIdle 1).entryAt (↑0) 0 0, 4 * (((kvIdle 1).stake ↑0).seqLimit * (kvIdle
          1).ptEntries ↑0))] (kvIdle 1)) ∧ (0 < ((kvIdle 1).stake ↑0).seqLimit)) ∧
    ((Granted (kvIdle 1) (.core 0) (R.kvpSCmd ↑0 ↑0)) ∧ ((kvIdle 1).enabled ↑0 = true ∧ (kvIdle 1).keeper ↑0 = ↑0 ∧ ((kvIdle 1).pst ↑0 = 1 ∨
          (kvIdle 1).pst ↑0 = 4)) ∧ ((kvIdle 1).kvInitBad ↑0 = false) ∧ (Separate [((kvIdle 1).pageAt (↑0) 0, 8 * ((kvIdle 1).stake
          ↑0).kvPages), ((kvIdle 1).seqAt (↑0) 0, 16 * ((kvIdle 1).stake ↑0).seqLimit), ((kvIdle 1).entryAt (↑0) 0 0, 4 * (((kvIdle 1).stake
          ↑0).seqLimit * (kvIdle 1).ptEntries ↑0))]) ∧ (Writable [((kvIdle 1).pageAt (↑0) 0, 8 * ((kvIdle 1).stake ↑0).kvPages), ((kvIdle
          1).seqAt (↑0) 0, 16 * ((kvIdle 1).stake ↑0).seqLimit), ((kvIdle 1).entryAt (↑0) 0 0, 4 * (((kvIdle 1).stake ↑0).seqLimit * (kvIdle
          1).ptEntries ↑0))] (kvIdle 1)) ∧ (0 < ((kvIdle 1).stake ↑0).seqLimit * (kvIdle 1).ptEntries ↑0)) ∧
    ((Granted (gathering 1 on) (.core 0) (R.kvpSCmd ↑0 ↑0)) ∧ ((gathering 1 on).enabled ↑0 = true ∧ (gathering 1 on).keeper ↑0 = ↑0 ∧
          ((gathering 1 on).pst ↑0 = 1 ∨ (gathering 1 on).pst ↑0 = 4)) ∧ ((gathering 1 on).kvInitBad ↑0 = true)) ∧
    ((Granted (kvOk 0x20 1) (.core 0) (R.kvpSCmd ↑0 ↑0)) ∧ (¬((kvOk 0x20 1).enabled ↑0 = true ∧ (kvOk 0x20 1).keeper ↑0 = ↑0 ∧ ((kvOk 0x20
          1).pst ↑0 = 1 ∨ (kvOk 0x20 1).pst ↑0 = 4)))) := by
  refine ⟨?_, ?_, ?_, ?_, ?_⟩
  · exact ⟨by (unfold Granted; decide +kernel), by decide +kernel, by decide +kernel, by (unfold Separate; decide +kernel),
        by exact writable_of _ _ (by decide +kernel) (by decide +kernel), by decide +kernel⟩
  · exact ⟨by (unfold Granted; decide +kernel), by decide +kernel, by decide +kernel, by (unfold Separate; decide +kernel),
        by exact writable_of _ _ (by decide +kernel) (by decide +kernel), by decide +kernel⟩
  · exact ⟨by (unfold Granted; decide +kernel), by decide +kernel, by decide +kernel, by (unfold Separate; decide +kernel),
        by exact writable_of _ _ (by decide +kernel) (by decide +kernel), by decide +kernel⟩
  · (unfold Granted; decide +kernel)
  · (unfold Granted; decide +kernel)

/-- States and operands that meet the hypotheses of Transfers, clause by clause. -/
theorem witness_Transfers :
    ((Ready (tsend 32 0x74000 300) (↑0) Strm.f.num (tsendWord 32)) ∧ (opcOf (tsendWord 32) = 16) ∧ (¬(bits (tsendWord 32) 37 27 = 0 ∧ bits
          (tsendWord 32) 116 12 = 0))) ∧
    ((List.find? (fun o => opcOf o.word == 16 && !o.issued && (sending.rg o.rd).freeTag.isSome) (sending.q ↑0).outst = some tso) ∧
          (sending.noIssue ↑0 = false) ∧ (sending.ringRec (tso.rd / 2) = some (⟨0, 1, 2, 0, 2⟩ : RingRec)) ∧ ((⟨0, 1, 2, 0, 2⟩ :
          RingRec).length ≠ 1) ∧ ((sending.rg tso.rd).freeTag = some 0) ∧ (0 < totalBarges (numAt tso.desc 4 4))) ∧
    ((List.find? (fun t => t.1 == ↑0) ((tagged [(0, 0)]).rg (2 * ↑0 + (RDir.dn).num)).tags = some (↑0, 0, 3)) ∧ (List.find? (fun o => o.seq
          == 3) ((tagged [(0, 0)]).q 0).outst = some ({tso with issued := true})) ∧ (0 < 16) ∧ (PostsFit (tagged [(0, 0)]) 0
          ({tso with issued := true}).word) ∧ (List.find? (fun t => t.1 == ↑0) ((tagged [(0, 0)]).rg (2 * ↑0 + (RDir.dn).num)).done = some
          (↑0, 0)) ∧ (0 ≠ 1) ∧ (0 ≠ 2) ∧ ((((tagged [(0, 0)]).q 0).outst.any fun o => o.seq == 3 && o.run.poison) = false)) ∧
    ((List.find? (fun t => t.1 == ↑0) ((tagged [(0,1)]).rg (2 * ↑0 + (RDir.dn).num)).tags = some (↑0, 0, 3)) ∧ (List.find? (fun o => o.seq
          == 3) ((tagged [(0,1)]).q 0).outst = some ({tso with issued := true})) ∧ (0 < 16) ∧ (PostsFit (tagged [(0,1)]) 0
          ({tso with issued := true}).word) ∧ (List.find? (fun t => t.1 == ↑0) ((tagged [(0,1)]).rg (2 * ↑0 + (RDir.dn).num)).done = some
          (↑0, 1))) ∧
    ((List.find? (fun t => t.1 == ↑0) ((tagged [(0,2)]).rg (2 * ↑0 + (RDir.dn).num)).tags = some (↑0, 0, 3)) ∧ (List.find? (fun o => o.seq
          == 3) ((tagged [(0,2)]).q 0).outst = some ({tso with issued := true})) ∧ (0 < 16) ∧ (PostsFit (tagged [(0,2)]) 0
          ({tso with issued := true}).word) ∧ (List.find? (fun t => t.1 == ↑0) ((tagged [(0,2)]).rg (2 * ↑0 + (RDir.dn).num)).done = some
          (↑0, 2)) ∧ (2 ≠ 1) ∧ (2 = 2 ∨ (((tagged [(0,2)]).q 0).outst.any fun o => o.seq == 3 && o.run.poison) = true)) := by
  refine ⟨?_, ?_, ?_, ?_, ?_⟩
  · (unfold Ready; decide +kernel)
  · decide +kernel
  · exact ⟨by decide +kernel, by decide +kernel, by decide +kernel,
        by (unfold PostsFit; exact forall_tokens (by decide +kernel) (by decide +kernel)), by decide +kernel, by decide +kernel,
        by decide +kernel, by decide +kernel⟩
  · exact ⟨by decide +kernel, by decide +kernel, by decide +kernel,
        by (unfold PostsFit; exact forall_tokens (by decide +kernel) (by decide +kernel)), by decide +kernel⟩
  · exact ⟨by decide +kernel, by decide +kernel, by decide +kernel,
        by (unfold PostsFit; exact forall_tokens (by decide +kernel) (by decide +kernel)), by decide +kernel, by decide +kernel,
        by decide +kernel⟩

/-- States and operands that meet the hypotheses of PortsTrain, clause by clause. -/
theorem witness_PortsTrain :
    (((retraining 2).widthCode ↑1 ≠ 1) ∧ ((retraining 2).wrapperOpen (R.twpPStatus ↑1) = true) ∧ ((retraining 2).portState ↑1 ≠ 4) ∧
          ((retraining 2).portState ↑1 ≠ 5) ∧ ((⟨⟨255, 9, 2, 1, 1, 8, [], 5⟩, false, 255⟩ : TrainInfo).up = false)) ∧
    (((retraining 2).widthCode ↑1 ≠ 1) ∧ ((retraining 2).wrapperOpen (R.twpPStatus ↑1) = true) ∧ ((retraining 2).portState ↑1 ≠ 4) ∧
          ((retraining 2).portState ↑1 ≠ 5) ∧ ((⟨⟨255, 9, 2, 3, 3, 8, [], 5⟩, true, 255⟩ : TrainInfo).up = true) ∧ ((retraining 2).linkLevel
          (⟨⟨255, 9, 2, 3, 3, 8, [], 5⟩, true, 255⟩ : TrainInfo) = none)) ∧
    (((retraining 2).widthCode ↑1 ≠ 1) ∧ ((retraining 2).wrapperOpen (R.twpPStatus ↑1) = true) ∧ ((retraining 2).portState ↑1 ≠ 4) ∧
          ((retraining 2).portState ↑1 ≠ 5) ∧ ((⟨⟨1, 9, 2, 1, 1, 8, [], 5⟩, true, 255⟩ : TrainInfo).up = true) ∧ ((retraining 2).linkLevel
          (⟨⟨1, 9, 2, 1, 1, 8, [], 5⟩, true, 255⟩ : TrainInfo) = some 1) ∧ (usableWidth ((⟨⟨1, 9, 2, 1, 1, 8, [], 5⟩, true, 255⟩ :
          TrainInfo).passed % 256 &&& (⟨⟨1, 9, 2, 1, 1, 8, [], 5⟩, true, 255⟩ : TrainInfo).lanes % 256) (widthLanes ((retraining
          2).widthCode ↑1)) (⟨⟨1, 9, 2, 1, 1, 8, [], 5⟩, true, 255⟩ : TrainInfo).width = 0)) ∧
    (((retraining 2).widthCode ↑1 ≠ 1) ∧ ((retraining 2).wrapperOpen (R.twpPStatus ↑1) = true) ∧ ((retraining 2).portState ↑1 ≠ 4) ∧
          ((retraining 2).portState ↑1 ≠ 5) ∧ ((⟨⟨255, 9, 2, 1, 1, 8, [4,4,4,4], 5⟩, true, 255⟩ : TrainInfo).up = true) ∧ ((retraining
          2).linkLevel (⟨⟨255, 9, 2, 1, 1, 8, [4,4,4,4], 5⟩, true, 255⟩ : TrainInfo) = some 1) ∧ (usableWidth ((⟨⟨255, 9, 2, 1, 1, 8,
          [4,4,4,4], 5⟩, true, 255⟩ : TrainInfo).passed % 256 &&& (⟨⟨255, 9, 2, 1, 1, 8, [4,4,4,4], 5⟩, true, 255⟩ : TrainInfo).lanes % 256)
          (widthLanes ((retraining 2).widthCode ↑1)) (⟨⟨255, 9, 2, 1, 1, 8, [4,4,4,4], 5⟩, true, 255⟩ : TrainInfo).width ≠ 0)) ∧
    (((((retraining 2).setPt 1 { (retraining 2).pt 1 with locking := some false }).pt ↑1).locking = some false)) ∧
    (((retraining 2).portState ↑1 = 3) ∧ (((retraining 2).pt ↑1).locking = none) ∧ ((⟨⟨255, 9, 2, 3, 3, 8, [], 5⟩, true, 255⟩ :
          TrainInfo).up = true) ∧ ((retraining 2).linkLevel (⟨⟨255, 9, 2, 3, 3, 8, [], 5⟩, true, 255⟩ : TrainInfo) = none)) ∧
    (((retraining 2).portState ↑1 = 3) ∧ (((retraining 2).pt ↑1).locking = none) ∧ ((⟨⟨1, 9, 2, 1, 1, 8, [], 5⟩, true, 255⟩ : TrainInfo).up
          = true) ∧ ((retraining 2).linkLevel (⟨⟨1, 9, 2, 1, 1, 8, [], 5⟩, true, 255⟩ : TrainInfo) = some 1) ∧ (usableWidth ((⟨⟨1, 9, 2, 1,
          1, 8, [], 5⟩, true, 255⟩ : TrainInfo).passed % 256 &&& 255 - ((retraining 2).pt ↑1).badLanes % 256 &&& (⟨⟨1, 9, 2, 1, 1, 8, [],
          5⟩, true, 255⟩ : TrainInfo).lanes % 256) (widthLanes ((retraining 2).widthCode ↑1)) (⟨⟨1, 9, 2, 1, 1, 8, [], 5⟩, true, 255⟩ :
          TrainInfo).width = 0)) ∧
    (((retraining 2).portState ↑1 = 3) ∧ (((retraining 2).pt ↑1).locking = none) ∧ ((⟨⟨255, 9, 2, 1, 1, 8, [4,4,4,4], 5⟩, true, 255⟩ :
          TrainInfo).up = true) ∧ ((retraining 2).linkLevel (⟨⟨255, 9, 2, 1, 1, 8, [4,4,4,4], 5⟩, true, 255⟩ : TrainInfo) = some 1) ∧
          (usableWidth ((⟨⟨255, 9, 2, 1, 1, 8, [4,4,4,4], 5⟩, true, 255⟩ : TrainInfo).passed % 256 &&& 255 - ((retraining 2).pt ↑1).badLanes
          % 256 &&& (⟨⟨255, 9, 2, 1, 1, 8, [4,4,4,4], 5⟩, true, 255⟩ : TrainInfo).lanes % 256) (widthLanes ((retraining 2).widthCode ↑1))
          (⟨⟨255, 9, 2, 1, 1, 8, [4,4,4,4], 5⟩, true, 255⟩ : TrainInfo).width ≠ 0)) ∧
    (((retraining 2).portState ↑1 = 3) ∧ (((retraining 2).pt ↑1).locking = none) ∧ ((⟨⟨255, 9, 2, 1, 1, 8, [], 5⟩, false, 255⟩ :
          TrainInfo).up = false) ∧ (2 ≤ ((retraining 2).pt ↑1).fails)) ∧
    ((((retraining 2).setPt 1 { (retraining 2).pt 1 with locking := some false }).portState ↑1 = 3) ∧ ((((retraining 2).setPt 1
          { (retraining 2).pt 1 with locking := some false }).pt ↑1).locking ≠ none) ∧ (2 ≤ (((retraining 2).setPt 1
          { (retraining 2).pt 1 with locking := some false }).pt ↑1).fails)) ∧
    (((retraining 2).portState ↑1 = 2 ∨ (retraining 2).portState ↑1 = 3)) ∧
    ((Granted (retraining 2) .sec (R.twpPCmd ↑1)) ∧ ((retraining 2).portState ↑1 ≠ 0)) := by
  refine ⟨?_, ?_, ?_, ?_, ?_, ?_, ?_, ?_, ?_, ?_, ?_, ?_⟩
  · decide +kernel
  · decide +kernel
  · decide +kernel
  · decide +kernel
  · decide +kernel
  · decide +kernel
  · decide +kernel
  · decide +kernel
  · decide +kernel
  · decide +kernel
  · decide +kernel
  · (unfold Granted; decide +kernel)

/-- States and operands that meet the hypotheses of ThreadsStartAndStop, clause by clause. -/
theorem witness_ThreadsStartAndStop :
    ((Granted on (.core 0) (R.tcxLaunch ↑2)) ∧ (on.tStake (↑2 * 512 + ↑0 * 8 + ↑0) = none)) ∧
    ((Granted (lined (tile 1 0 0 on)) (.core 0) (R.tcxLaunch ↑0)) ∧ ((lined (tile 1 0 0 on)).tStake (↑0 * 512 + ↑0 * 8 + ↑0) = some 0) ∧
          ((lined (tile 1 0 0 on)).tState (↑0 * 512 + ↑0 * 8 + ↑0) ≠ 0) ∧ ((lined (tile 1 0 0 on)).tState (↑0 * 512 + ↑0 * 8 + ↑0) ≠ 4)) ∧
    ((Granted on (.core 0) (R.tcxLaunch ↑0)) ∧ (on.tStake (↑0 * 512 + ↑0 * 8 + ↑0) = some 0) ∧ (on.tState (↑0 * 512 + ↑0 * 8 + ↑0) = 0 ∨
          on.tState (↑0 * 512 + ↑0 * 8 + ↑0) = 4) ∧ (on.failTc.testBit (coreOf (↑0 * 512 + ↑0 * 8 + ↑0)) = false) ∧ (0 ≠ tPc) ∧ (0 ≠ 10) ∧
          (0 ≠ tMode)) ∧
    (((lined (tile 1 0 0 on)).runs ↑0 = true) ∧ (((lined (tile 1 0 0 on)).lead (↑0) ([(66, 0)])).runs ↑0 = true) ∧ (((lined (tile 1 0 0
          on)).lead (↑0) ([(66, 0)])).tMay (↑0) (((lined (tile 1 0 0 on)).lead (↑0) ([(66, 0)])).treg (↑0) tPc) 4 2 = false)) ∧
    ((Fetches (lined (tile 1 0 0 on)) (↑0) ([]) 4) ∧ (((lined (tile 1 0 0 on)).lead (↑0) ([])).treg (↑0) tMode ≠ 0) ∧ ((((lined (tile 1 0 0
          on)).lead (↑0) ([])).treg (↑0) tStatus).testBit 3 = false)) ∧
    ((Fetches (lined (tile 1 0 0 on)) (↑0) ([(66, 3), (68, 8), (64, 0x1000)]) 4) ∧ (((lined (tile 1 0 0 on)).lead (↑0) ([(66, 3), (68, 8),
          (64, 0x1000)])).treg (↑0) tMode ≠ 0) ∧ ((((lined (tile 1 0 0 on)).lead (↑0) ([(66, 3), (68, 8), (64, 0x1000)])).treg (↑0)
          tStatus).testBit 3 = true)) ∧
    ((Fetches (lined (tile 1 0 0 on)) (↑0) ([(66, 0), (80, 0x1F), (82, 2 ^ 54 - 1), (68, 2097152)]) 4) ∧ (((lined (tile 1 0 0 on)).lead (↑0)
          ([(66, 0), (80, 0x1F), (82, 2 ^ 54 - 1), (68, 2097152)])).treg (↑0) tMode = 0) ∧ ((((lined (tile 1 0 0 on)).lead (↑0) ([(66, 0),
          (80, 0x1F), (82, 2 ^ 54 - 1), (68, 2097152)])).treg (↑0) tStatus).testBit 21 = true)) ∧
    ((Issues (lined (tile 1 0 0 on)) (↑0) ([]) 0 (xword 0 0 + 2^25)) ∧ (bits (xword 0 0 + 2^25) 25 7 ≠ 0 ∨ ∃ f ∈ [7], bits (xword 0 0 +
          2^25) f 5 ≠ 0)) ∧
    ((Issues (lined (tile 1 0 0 on)) (↑0) ([]) 1 (xword 1 0 + 2^25)) ∧ (bits (xword 1 0 + 2^25) 25 7 ≠ 0 ∨ ∃ f ∈ [7], bits (xword 1 0 +
          2^25) f 5 ≠ 0)) ∧
    ((Issues (lined (tile 1 0 0 on)) (↑0) ([]) 2 (xword 2 0 + 2^25)) ∧ (bits (xword 2 0 + 2^25) 25 7 ≠ 0 ∨ ∃ f ∈ [7, 20], bits (xword 2 0 +
          2^25) f 5 ≠ 0)) ∧
    ((Issues (lined (tile 1 0 0 on)) (↑0) ([]) 3 (xword 3 0 + 2^25)) ∧ (bits (xword 3 0 + 2^25) 25 7 ≠ 0 ∨ ∃ f ∈ [20], bits (xword 3 0 +
          2^25) f 5 ≠ 0)) ∧
    ((Issues (lined (tile 1 0 0 on)) (↑0) ([]) 4 (xword 4 0 + 2^25)) ∧ (bits (xword 4 0 + 2^25) 25 7 ≠ 0 ∨ ∃ f ∈ [], bits (xword 4 0 + 2^25)
          f 5 ≠ 0)) := by
  refine ⟨?_, ?_, ?_, ?_, ?_, ?_, ?_, ?_, ?_, ?_, ?_, ?_⟩
  · (unfold Granted; decide +kernel)
  · (unfold Granted; decide +kernel)
  · (unfold Granted; decide +kernel)
  · decide +kernel
  · (unfold Fetches; decide +kernel)
  · (unfold Fetches; decide +kernel)
  · (unfold Fetches; decide +kernel)
  · exact ⟨by (unfold Issues Fetches; decide +kernel), by decide +kernel⟩
  · exact ⟨by (unfold Issues Fetches; decide +kernel), by decide +kernel⟩
  · exact ⟨by (unfold Issues Fetches; decide +kernel), by decide +kernel⟩
  · exact ⟨by (unfold Issues Fetches; decide +kernel), by decide +kernel⟩
  · exact ⟨by (unfold Issues Fetches; decide +kernel), by decide +kernel⟩

/-- States and operands that meet the hypotheses of TileInstructions, clause by clause. -/
theorem witness_TileInstructions :
    ((bits (xword 2 0 - 2^21) 25 7 = 0) ∧ (Issues (lined (tile 1 0 0 on)) (↑0) ([]) 2 (xword 2 0 - 2^21)) ∧ (bits (xword 2 0 - 2^21) 7 5 =
          0) ∧ (bits (xword 2 0 - 2^21) 20 5 = 0) ∧ ((lined (tile 1 0 0 on)).tStake ↑0 = some 0) ∧ ((lined (tile 1 0 0 on)).pst 0 ≠ 4) ∧
          (((lined (tile 1 0 0 on)).thr ↑0).redo = false) ∧ (∀ (v : ℕ), (lined (tile 1 0 0 on)).recs.find ((20 + 0) * 2048 + ↑0) ≠ some
          (((lined (tile 1 0 0 on)).opnum ↑0 + 1) % 2 ^ 32, v)) ∧ (1 < 64) ∧ (1 ≠ ((lined (tile 1 0 0 on)).lead (↑0) ([])).treg (↑0) (xRs1
          (xword 2 0 - 2^21)) % 64)) ∧
    ((bits (xword 2 0 - 2^21) 25 7 = 0) ∧ (Issues (known 20 (lined (tile 1 0 0 on))) (↑0) ([]) 2 (xword 2 0 - 2^21)) ∧ (bits (xword 2 0 -
          2^21) 7 5 = 0) ∧ (bits (xword 2 0 - 2^21) 20 5 = 0) ∧ ((known 20 (lined (tile 1 0 0 on))).tStake ↑0 = some 0) ∧ ((known 20 (lined
          (tile 1 0 0 on))).pst 0 ≠ 4) ∧ (((known 20 (lined (tile 1 0 0 on))).thr ↑0).redo = false) ∧ ((known 20 (lined (tile 1 0 0
          on))).recs.find ((20 + 0) * 2048 + ↑0) = some (((known 20 (lined (tile 1 0 0 on))).opnum ↑0 + 1) % 2 ^ 32, 4)) ∧ (0 < 64)) ∧
    ((bits (xword 3 0 - 2^21) 25 7 = 0) ∧ (Issues (lined (tile 1 0 0 on)) (↑0) ([]) 3 (xword 3 0 - 2^21)) ∧ (bits (xword 3 0 - 2^21) 20 5 =
          0) ∧ ((lined (tile 1 0 0 on)).tStake ↑0 = some 0) ∧ (((lined (tile 1 0 0 on)).thr ↑0).redo = false) ∧ (∀ (v : ℕ), (lined (tile 1 0
          0 on)).recs.find ((20 + 0) * 2048 + ↑0) ≠ some (((lined (tile 1 0 0 on)).opnum ↑0 + 1) % 2 ^ 32, v)) ∧ (0 < 64)) ∧
    ((bits (xword 6 0 - 2^21) 25 7 = 0) ∧ (Issues (lined (tile 1 0 0 on)) (↑0) ([]) 6 (xword 6 0 - 2^21)) ∧ (bits (xword 6 0 - 2^21) 7 5 =
          0) ∧ (((lined (tile 1 0 0 on)).lead (↑0) ([])).tMay (↑0) (((lined (tile 1 0 0 on)).lead (↑0) ([])).treg (↑0) (xRs2 (xword 6 0 -
          2^21))) 32 0 = true)) ∧
    ((bits (xword 7 0 - 2^21) 25 7 = 0) ∧ (Issues (lined (tile 1 0 0 on)) (↑0) ([]) 7 (xword 7 0 - 2^21)) ∧ (bits (xword 7 0 - 2^21) 7 5 =
          0) ∧ (bits (xword 7 0 - 2^21) 20 5 = 0)) ∧
    ((List.find? (fun e => decide (e.1 = ↑0) && decide (1 ≤ (lined (tile 1 0 0 on)).tok (↑0) e.2.2)) (lined (tile 1 0 0 on)).takes = none))
          ∧
    ((List.find? (fun e => decide (e.1 = ↑0) && decide (1 ≤ (taking 3).tok (↑0) e.2.2)) (taking 3).takes = some (↑0, 0, 0)) ∧ (0 < 2048) ∧
          (0 < 64) ∧ ((taking 3).pst ↑0 ≠ 4) ∧ (xRd ((taking 3).thr 0).word ≠ 0) ∧ (1 < 64) ∧ (1 ≠ 0)) := by
  refine ⟨?_, ?_, ?_, ?_, ?_, ?_, ?_⟩
  · exact ⟨by decide +kernel, by (unfold Issues Fetches; decide +kernel), by decide +kernel, by decide +kernel, by decide +kernel,
        by decide +kernel, by decide +kernel, by exact fun v => ne_some_of_isNone (by decide +kernel) _, by decide +kernel,
        by decide +kernel⟩
  · (unfold Issues Fetches; decide +kernel)
  · exact ⟨by decide +kernel, by (unfold Issues Fetches; decide +kernel), by decide +kernel, by decide +kernel, by decide +kernel,
        by exact fun v => ne_some_of_isNone (by decide +kernel) _, by decide +kernel⟩
  · (unfold Issues Fetches; decide +kernel)
  · (unfold Issues Fetches; decide +kernel)
  · decide +kernel
  · decide +kernel

end Sys2Proof.Tests
end

