-- ==== Sys2Proof/Tests/Witness2.lean ====
section
/-! SUPPORT. Tests: for each statement named here, states and operands that meet its hypotheses together. -/

namespace Sys2Proof.Tests

open Sys2Proof Sys2Proof.Machine

set_option autoImplicit false
set_option Elab.async false

def sm (f : Sec → Sec) (s : State) : State := { s with sec := f s.sec }
def mg : State := sm (fun c => { c with nonce := true }) (linked 0 1 0)
def rom : State := put [(R.secState, F.secStateBoot, 2)] mg
def rq : Req := { i3c := false, level := 1, tag := 7, rsvd := 0, auth := some ⟨0, true⟩ }
def spd (n ss : Nat) (st : State) : State :=
      { st with sec := { st.sec with spdmDoe := { st.sec.spdmDoe with phase := n, version := 0x12, session := ss }, spdmI3c := { st.sec.spdmI3c with phase := n, version := 0x12, session := ss } } }
def up2 : State := put [(R.secState, F.secStateBoot, 1), (R.hifStatus, F.hifStatusLinkUp, 1)] on
def up3 : State := put [(R.secState, F.secStateBoot, 2), (R.hifStatus, F.hifStatusLinkUp, 1)] on

/-- States and operands that meet the hypotheses of TileWaits, clause by clause. -/
theorem witness_TileWaits :
    ((bits (xword 4 5) 25 7 = 0) ∧ (Issues (tile 1 0x63001 5 on) (↑0) ([]) 4 (xword 4 5)) ∧ (((tile 1 0x63001 5 on).lead (↑0) ([])).treg
          (↑0) (xRs1 (xword 4 5)) % 8 ≠ 0)) ∧
    ((bits (xword 4 5) 25 7 = 0) ∧ (Issues (tile 1 0x900000000 5 on) (↑0) ([]) 4 (xword 4 5)) ∧ (((tile 1 0x900000000 5 on).lead (↑0)
          ([])).treg (↑0) (xRs1 (xword 4 5)) % 8 = 0) ∧ (((tile 1 0x900000000 5 on).lead (↑0) ([])).tMay (↑0) (((tile 1 0x900000000 5
          on).lead (↑0) ([])).treg (↑0) (xRs1 (xword 4 5))) 8 0 = false)) ∧
    ((bits (xword 4 5) 25 7 = 0) ∧ (Issues (tile 1 0x63000 0 on) (↑0) ([]) 4 (xword 4 5)) ∧ (((tile 1 0x63000 0 on).lead (↑0) ([])).treg
          (↑0) (xRs1 (xword 4 5)) % 8 = 0) ∧ (((tile 1 0x63000 0 on).lead (↑0) ([])).tMay (↑0) (((tile 1 0x63000 0 on).lead (↑0) ([])).treg
          (↑0) (xRs1 (xword 4 5))) 8 0 = true) ∧ ((tile 1 0x63000 0 on).unreadable (((tile 1 0x63000 0 on).lead (↑0) ([])).treg (↑0) (xRs1
          (xword 4 5))) 8 = false) ∧ (((tile 1 0x63000 0 on).lead (↑0) ([])).treg (↑0) (xRs2 (xword 4 5)) ≤ (tile 1 0x63000 0 on).num
          (((tile 1 0x63000 0 on).lead (↑0) ([])).treg (↑0) (xRs1 (xword 4 5))) 8)) ∧
    ((bits (xword 4 5) 25 7 = 0) ∧ (Issues (tile 1 0x63000 5 on) (↑0) ([]) 4 (xword 4 5)) ∧ (((tile 1 0x63000 5 on).lead (↑0) ([])).treg
          (↑0) (xRs1 (xword 4 5)) % 8 = 0) ∧ (((tile 1 0x63000 5 on).lead (↑0) ([])).tMay (↑0) (((tile 1 0x63000 5 on).lead (↑0) ([])).treg
          (↑0) (xRs1 (xword 4 5))) 8 0 = true) ∧ ((tile 1 0x63000 5 on).unreadable (((tile 1 0x63000 5 on).lead (↑0) ([])).treg (↑0) (xRs1
          (xword 4 5))) 8 = true ∨ (tile 1 0x63000 5 on).num (((tile 1 0x63000 5 on).lead (↑0) ([])).treg (↑0) (xRs1 (xword 4 5))) 8 <
          ((tile 1 0x63000 5 on).lead (↑0) ([])).treg (↑0) (xRs2 (xword 4 5))) ∧ (isSpadStride (((tile 1 0x63000 5 on).lead (↑0) ([])).treg
          (↑0) (xRs1 (xword 4 5))) = false) ∧ (((tile 1 0x63000 5 on).home (homeOf (((tile 1 0x63000 5 on).lead (↑0) ([])).treg (↑0) (xRs1
          (xword 4 5))))).watches.length < 256)) ∧
    ((bits (xword 5 5) 25 7 = 0) ∧ (Issues (tile 1 0x63001 5 on) (↑0) ([]) 5 (xword 5 5)) ∧ ((tile 1 0x63001 5 on).pvuOwner (((tile 1
          0x63001 5 on).lead (↑0) ([])).treg (↑0) (xRs1 (xword 5 5)) % 8) ≠ (tile 1 0x63001 5 on).tStake ↑0 ∨ (tile 1 0x63001 5 on).pvuOwner
          (((tile 1 0x63001 5 on).lead (↑0) ([])).treg (↑0) (xRs1 (xword 5 5)) % 8) = none ∨ (tile 1 0x63001 5 on).flag (R.vecPvuAq (((tile
          1 0x63001 5 on).lead (↑0) ([])).treg (↑0) (xRs1 (xword 5 5)) % 8)) F.vecPvuAqEnable = false)) ∧
    ((bits (xword 5 5) 25 7 = 0) ∧ (Issues (apost on 64) (↑0) ([]) 5 (xword 5 5)) ∧ ((apost on 64).pvuOwner (((apost on 64).lead (↑0)
          ([])).treg (↑0) (xRs1 (xword 5 5)) % 8) = some 0) ∧ ((apost on 64).tStake ↑0 = some 0) ∧ ((apost on 64).flag (R.vecPvuAq (((apost
          on 64).lead (↑0) ([])).treg (↑0) (xRs1 (xword 5 5)) % 8)) F.vecPvuAqEnable = true) ∧ (((apost on 64).lead (↑0) ([])).tMay (↑0)
          (((apost on 64).lead (↑0) ([])).treg (↑0) (xRs2 (xword 5 5))) 16 0 = true) ∧ (((apost on 64).thr ↑0).redo = false) ∧ (∀ (v : ℕ),
          (apost on 64).recs.find ((36 + ((apost on 64).lead (↑0) ([])).treg (↑0) (xRs1 (xword 5 5)) % 8) * 2048 + ↑0) ≠ some (((apost on
          64).opnum ↑0 + 1) % 2 ^ 32, v)) ∧ ((apost on 64).l1Of ((apost on 64).runCore ↑0) = []) ∧ (((apost on 64).pv (((apost on 64).lead
          (↑0) ([])).treg (↑0) (xRs1 (xword 5 5)) % 8)).tail + 64 ≤ ((apost on 64).pv (((apost on 64).lead (↑0) ([])).treg (↑0) (xRs1 (xword
          5 5)) % 8)).head)) ∧
    ((((tile 1 0x63001 5 on).thr ↑0).wait ≠ 2)) ∧
    ((((waiting 5).thr ↑0).wait = 2) ∧ ((waiting 5).unreadable ((waiting 5).treg (↑0) (xRs1 ((waiting 5).thr ↑0).word)) 8 = false) ∧
          ((waiting 5).treg (↑0) (xRs2 ((waiting 5).thr ↑0).word) ≤ (waiting 5).num ((waiting 5).treg (↑0) (xRs1 ((waiting 5).thr ↑0).word))
          8) ∧ (xRd ((waiting 5).thr ↑0).word ≠ 0)) ∧
    ((((waiting 4).thr ↑0).wait = 2) ∧ ((waiting 4).unreadable ((waiting 4).treg (↑0) (xRs1 ((waiting 4).thr ↑0).word)) 8 = true ∨ (waiting
          4).num ((waiting 4).treg (↑0) (xRs1 ((waiting 4).thr ↑0).word)) 8 < (waiting 4).treg (↑0) (xRs2 ((waiting 4).thr ↑0).word))) := by
  refine ⟨?_, ?_, ?_, ?_, ?_, ?_, ?_, ?_, ?_⟩
  · (unfold Issues Fetches; decide +kernel)
  · (unfold Issues Fetches; decide +kernel)
  · (unfold Issues Fetches; decide +kernel)
  · (unfold Issues Fetches; decide +kernel)
  · (unfold Issues Fetches; decide +kernel)
  · exact ⟨by decide +kernel, by (unfold Issues Fetches; decide +kernel), by decide +kernel, by decide +kernel, by decide +kernel,
        by decide +kernel, by decide +kernel, by exact fun v => ne_some_of_isNone (by decide +kernel) _, by decide +kernel,
        by decide +kernel⟩
  · decide +kernel
  · decide +kernel
  · decide +kernel

/-- States and operands that meet the hypotheses of MemoryAccesses, clause by clause. -/
theorem witness_MemoryAccesses :
    ((isReg (0x60000) = false) ∧ (isSpadStride (0x60000) = false) ∧ (accSize (.read 8) ≠ 0) ∧ (∀ (t : Fin 2048), (.sec) ≠ Requester.tile t)
          ∧ ((.read 8) = Access.read 8) ∧ ((homed { Home.empty with tracks := [track 0 3 .atomic []] } on).err (0x60000) (accSize (.read 8))
          = false ∧ (homed { Home.empty with tracks := [track 0 3 .atomic []] } on).memUp (0x60000) = true ∧ ∀ (k : Fin 16), (.sec) =
          Requester.unit k → (homed { Home.empty with tracks := [track 0 3 .atomic []] } on).inStake (↑k) (0x60000) (accSize (.read 8)) =
          true) ∧ (¬(homed { Home.empty with tracks := [track 0 3 .atomic []] } on).lineOpen (0x60000) (accSize (.read 8)) = false) ∧ (¬∃ c,
          (.sec) = Requester.core c ∧ (homed { Home.empty with tracks := [track 0 3 .atomic []] } on).holdsAll (↑c) (0x60000) 8 = true)) ∧
    ((isReg (0x1000000000000) = false) ∧ (isSpadStride (0x1000000000000) = false) ∧ (accSize (.read 8) ≠ 0) ∧ (∀ (t : Fin 2048), (.sec) ≠
          Requester.tile t) ∧ ((.read 8) = Access.read 8) ∧ (on.lineOpen (0x1000000000000) (accSize (.read 8)) = false ∨ ∃ c, (.sec) =
          Requester.core c ∧ on.holdsAll (↑c) (0x1000000000000) 8 = true) ∧ (¬(on.err (0x1000000000000) (accSize (.read 8)) = false ∧
          on.memUp (0x1000000000000) = true ∧ ∀ (k : Fin 16), (.sec) = Requester.unit k → on.inStake (↑k) (0x1000000000000) (accSize (.read
          8)) = true))) ∧
    ((isReg (0x60000) = false) ∧ (isSpadStride (0x60000) = false) ∧ (accSize (.read 8) ≠ 0) ∧ (∀ (t : Fin 2048), (.sec) ≠ Requester.tile t)
          ∧ ((.read 8) = Access.read 8) ∧ (on.lineOpen (0x60000) (accSize (.read 8)) = false ∨ ∃ c, (.sec) = Requester.core c ∧ on.holdsAll
          (↑c) (0x60000) 8 = true) ∧ (on.err (0x60000) (accSize (.read 8)) = false ∧ on.memUp (0x60000) = true ∧ ∀ (k : Fin 16), (.sec) =
          Requester.unit k → on.inStake (↑k) (0x60000) (accSize (.read 8)) = true) ∧ (Errs.none.mem = [])) ∧
    ((isReg (0x60000) = false) ∧ (isSpadStride (0x60000) = false) ∧ (accSize (.read 8) ≠ 0) ∧ (∀ (t : Fin 2048), (.sec) ≠ Requester.tile t)
          ∧ ((.read 8) = Access.read 8) ∧ (on.lineOpen (0x60000) (accSize (.read 8)) = false ∨ ∃ c, (.sec) = Requester.core c ∧ on.holdsAll
          (↑c) (0x60000) 8 = true) ∧ (on.err (0x60000) (accSize (.read 8)) = false ∧ on.memUp (0x60000) = true ∧ ∀ (k : Fin 16), (.sec) =
          Requester.unit k → on.inStake (↑k) (0x60000) (accSize (.read 8)) = true) ∧ ((⟨[(0x60000, 1)], 0, 0, 0, 0⟩ : Errs).mem =
          [((0x60000), 1)]) ∧ (isHbm (0x60000) = true) ∧ (lineOf (0x60000) ≤ (0x60000)) ∧ ((0x60000) < lineOf ((0x60000) + 8 - 1) + 64) ∧
          (on.stackLost (0x60000) = false) ∧ (on.poison.contains (lineOf (0x60000)) = false)) ∧
    ((isReg (0x60000) = false) ∧ (isSpadStride (0x60000) = false) ∧ (accSize (.read 8) ≠ 0) ∧ (∀ (t : Fin 2048), (.sec) ≠ Requester.tile t)
          ∧ ((.read 8) = Access.read 8) ∧ (on.lineOpen (0x60000) (accSize (.read 8)) = false ∨ ∃ c, (.sec) = Requester.core c ∧ on.holdsAll
          (↑c) (0x60000) 8 = true) ∧ (on.err (0x60000) (accSize (.read 8)) = false ∧ on.memUp (0x60000) = true ∧ ∀ (k : Fin 16), (.sec) =
          Requester.unit k → on.inStake (↑k) (0x60000) (accSize (.read 8)) = true) ∧ ((⟨[(0x60000, 2)], 0, 0, 0, 0⟩ : Errs).mem =
          [((0x60000), 2)]) ∧ (isHbm (0x60000) = true) ∧ (lineOf (0x60000) ≤ (0x60000)) ∧ ((0x60000) < lineOf ((0x60000) + 8 - 1) + 64) ∧
          (on.stackLost (0x60000) = false) ∧ (on.poison.contains (lineOf (0x60000)) = false) ∧ (2 ≤ 2) ∧ (on.flag (R.memErrAddr (octetOf
          (0x60000) / 2)) F.memErrAddrValid = false)) ∧
    ((isReg (0x60000) = false) ∧ (isSpadStride (0x60000) = false) ∧ (accSize (.write [1, 2]) ≠ 0) ∧ (∀ (t : Fin 2048), (.sec) ≠
          Requester.tile t) ∧ ((.write [1, 2]) = Access.write ([1,2])) ∧ ((homed { Home.empty with tracks := [track 0 3 .atomic []] }
          on).err (0x60000) (accSize (.write [1, 2])) = false ∧ (homed { Home.empty with tracks := [track 0 3 .atomic []] } on).memUp
          (0x60000) = true ∧ ∀ (k : Fin 16), (.sec) = Requester.unit k → (homed { Home.empty with tracks := [track 0 3 .atomic []] }
          on).inStake (↑k) (0x60000) (accSize (.write [1, 2])) = true) ∧ (¬(homed { Home.empty with tracks := [track 0 3 .atomic []] }
          on).lineOpen (0x60000) (accSize (.write [1, 2])) = false) ∧ (¬∃ c, (.sec) = Requester.core c ∧ (homed
          { Home.empty with tracks := [track 0 3 .atomic []] } on).owns (↑c) (0x60000) ([1,2]).length = true)) ∧
    ((isReg (0x1000000000000) = false) ∧ (isSpadStride (0x1000000000000) = false) ∧ (accSize (.write [1, 2]) ≠ 0) ∧ (∀ (t : Fin 2048),
          (.sec) ≠ Requester.tile t) ∧ ((.write [1, 2]) = Access.write ([1,2])) ∧ (on.lineOpen (0x1000000000000) (accSize (.write [1, 2])) =
          false) ∧ (¬(on.err (0x1000000000000) (accSize (.write [1, 2])) = false ∧ on.memUp (0x1000000000000) = true ∧ ∀ (k : Fin 16),
          (.sec) = Requester.unit k → on.inStake (↑k) (0x1000000000000) (accSize (.write [1, 2])) = true) ∨ on.stackLost (0x1000000000000) =
          true ∨ on.cxlCut (0x1000000000000) ([1,2]).length = true) ∧ (¬∃ c, (.sec) = Requester.core c ∧ on.owns (↑c) (0x1000000000000)
          ([1,2]).length = true)) ∧
    ((isReg (0x60000) = false) ∧ (isSpadStride (0x60000) = false) ∧ (accSize (.write [1, 2]) ≠ 0) ∧ (∀ (t : Fin 2048), (.sec) ≠
          Requester.tile t) ∧ ((.write [1, 2]) = Access.write ([1,2])) ∧ (on.err (0x60000) (accSize (.write [1, 2])) = false ∧ on.memUp
          (0x60000) = true ∧ ∀ (k : Fin 16), (.sec) = Requester.unit k → on.inStake (↑k) (0x60000) (accSize (.write [1, 2])) = true) ∧ ((∃
          c, (.sec) = Requester.core c ∧ on.owns (↑c) (0x60000) ([1,2]).length = true) ∨ on.lineOpen (0x60000) (accSize (.write [1, 2])) =
          false ∧ ¬(on.stackLost (0x60000) = true ∨ on.cxlCut (0x60000) ([1,2]).length = true))) ∧
    ((isReg (0x60000) = false) ∧ (isSpadStride (0x60000) = false) ∧ (accSize (.atom .add 4 1 2) ≠ 0) ∧ (∀ (t : Fin 2048), (.sec) ≠
          Requester.tile t) ∧ ((.atom .add 4 1 2) = Access.atom (.add) 4 1 2)) ∧
    ((accSize (.read 8) ≠ 0) ∧ (isSpadStride (0x60000) = false) ∧ ((.read 8) = Access.read 8) ∧ ((0x60000) % 64 + accSize (.read 8) ≤ 64) ∧
          (¬((homed { Home.empty with tracks := [track 0 3 .atomic []] } on).l1Line ((homed
          { Home.empty with tracks := [track 0 3 .atomic []] } on).runCore ↑0) (lineOf (0x60000))).have_ &&& partMask (lineOf (0x60000))
          (0x60000) (accSize (.read 8)) = partMask (lineOf (0x60000)) (0x60000) (accSize (.read 8))) ∧ ((homed
          { Home.empty with tracks := [track 0 3 .atomic []] } on).lineOpen (lineOf (0x60000)) 64 = true)) ∧
    ((accSize (.read 8) ≠ 0) ∧ (isSpadStride (0x900000000) = false) ∧ ((.read 8) = Access.read 8) ∧ ((0x900000000) % 64 + accSize (.read 8)
          ≤ 64) ∧ ((((tile 1 0 0 (held4 true))).l1Line (((tile 1 0 0 (held4 true))).runCore ↑0) (lineOf (0x900000000))).have_ &&& partMask
          (lineOf (0x900000000)) (0x900000000) (accSize (.read 8)) = partMask (lineOf (0x900000000)) (0x900000000) (accSize (.read 8)) ∨
          ((tile 1 0 0 (held4 true))).lineOpen (lineOf (0x900000000)) 64 = false) ∧ (Fetches ((tile 1 0 0 (held4 true))) (↑0) ([]) 2) ∧
          ((((tile 1 0 0 (held4 true))).lead (↑0) ([])).tMay (↑0) (0x900000000) 8 0 = false)) ∧
    ((accSize (.read 8) ≠ 0) ∧ (isSpadStride (0x60000) = false) ∧ ((.read 8) = Access.read 8) ∧ ((0x60000) % 64 + accSize (.read 8) ≤ 64) ∧
          ((((tile 1 0 0 (held4 true))).l1Line (((tile 1 0 0 (held4 true))).runCore ↑0) (lineOf (0x60000))).have_ &&& partMask (lineOf
          (0x60000)) (0x60000) (accSize (.read 8)) = partMask (lineOf (0x60000)) (0x60000) (accSize (.read 8)) ∨ ((tile 1 0 0 (held4
          true))).lineOpen (lineOf (0x60000)) 64 = false) ∧ (Fetches ((tile 1 0 0 (held4 true))) (↑0) ([]) 2) ∧ ((((tile 1 0 0 (held4
          true))).lead (↑0) ([])).tMay (↑0) (0x60000) 8 0 = true) ∧ (Errs.none.mem = [])) := by
  refine ⟨?_, ?_, ?_, ?_, ?_, ?_, ?_, ?_, ?_, ?_, ?_, ?_⟩
  · exact ⟨by decide +kernel, by decide +kernel, by decide +kernel, by decide +kernel, by decide +kernel, by decide +kernel,
        by decide +kernel, by decide +kernel⟩
  · exact ⟨by decide +kernel, by decide +kernel, by decide +kernel, by decide +kernel, by decide +kernel, by decide +kernel,
        by decide +kernel⟩
  · exact ⟨by decide +kernel, by decide +kernel, by decide +kernel, by decide +kernel, by decide +kernel, by decide +kernel,
        by decide +kernel, by decide +kernel⟩
  · exact ⟨by decide +kernel, by decide +kernel, by decide +kernel, by decide +kernel, by decide +kernel, by decide +kernel,
        by decide +kernel, by decide +kernel, by decide +kernel, by decide +kernel, by decide +kernel, by decide +kernel, by decide +kernel⟩
  · exact ⟨by decide +kernel, by decide +kernel, by decide +kernel, by decide +kernel, by decide +kernel, by decide +kernel,
        by decide +kernel, by decide +kernel, by decide +kernel, by decide +kernel, by decide +kernel, by decide +kernel, by decide +kernel,
        by decide +kernel, by decide +kernel⟩
  · exact ⟨by decide +kernel, by decide +kernel, by decide +kernel, by decide +kernel, by decide +kernel, by decide +kernel,
        by decide +kernel, by decide +kernel⟩
  · exact ⟨by decide +kernel, by decide +kernel, by decide +kernel, by decide +kernel, by decide +kernel, by decide +kernel,
        by decide +kernel, by decide +kernel⟩
  · exact ⟨by decide +kernel, by decide +kernel, by decide +kernel, by decide +kernel, by decide +kernel, by decide +kernel,
        by decide +kernel⟩
  · exact ⟨by decide +kernel, by decide +kernel, by decide +kernel, by decide +kernel, by decide +kernel⟩
  · decide +kernel
  · (unfold Fetches; decide +kernel)
  · (unfold Fetches; decide +kernel)

/-- States and operands that meet the hypotheses of ScratchpadAccesses, clause by clause. -/
theorem witness_ScratchpadAccesses :
    ((isSpadStride (0x60000) = false)) ∧
    ((isSpadStride (0x20000017FFFFF) = true) ∧ (accSize (.read 8) ≠ 0) ∧ (∀ (i : Fin 2048), (.sec) ≠ Requester.tile i) ∧ (¬((on.domainUp 8 =
          true ∧ on.unitOpen (on.engOwner (spadEng (0x20000017FFFFF))) = true ∧ spadOff (0x20000017FFFFF) + accSize (.read 8) ≤ 25165824) ∧
          (∀ (i : Fin 64), (.sec) = Requester.core i → natural (0x20000017FFFFF) (accSize (.read 8)) = true) ∧ ∀ (k : Fin 16), (.sec) =
          Requester.unit k → on.inStake (↑k) (0x20000017FFFFF) (accSize (.read 8)) = true ∧ on.engOwner (spadEng (0x20000017FFFFF)) = some
          ↑k))) ∧
    ((isSpadStride (0x2000000000000) = true) ∧ (accSize (.read 8) ≠ 0) ∧ (∀ (i : Fin 2048), (.sec) ≠ Requester.tile i) ∧ ((on.domainUp 8 =
          true ∧ on.unitOpen (on.engOwner (spadEng (0x2000000000000))) = true ∧ spadOff (0x2000000000000) + accSize (.read 8) ≤ 25165824) ∧
          (∀ (i : Fin 64), (.sec) = Requester.core i → natural (0x2000000000000) (accSize (.read 8)) = true) ∧ ∀ (k : Fin 16), (.sec) =
          Requester.unit k → on.inStake (↑k) (0x2000000000000) (accSize (.read 8)) = true ∧ on.engOwner (spadEng (0x2000000000000)) = some
          ↑k) ∧ ((.read 8) = Access.read 8) ∧ (Errs.none.mem = [])) ∧
    ((isSpadStride (0x2000000000000) = true) ∧ (accSize (.read 8) ≠ 0) ∧ (∀ (i : Fin 2048), (.sec) ≠ Requester.tile i) ∧ ((on.domainUp 8 =
          true ∧ on.unitOpen (on.engOwner (spadEng (0x2000000000000))) = true ∧ spadOff (0x2000000000000) + accSize (.read 8) ≤ 25165824) ∧
          (∀ (i : Fin 64), (.sec) = Requester.core i → natural (0x2000000000000) (accSize (.read 8)) = true) ∧ ∀ (k : Fin 16), (.sec) =
          Requester.unit k → on.inStake (↑k) (0x2000000000000) (accSize (.read 8)) = true ∧ on.engOwner (spadEng (0x2000000000000)) = some
          ↑k) ∧ ((.read 8) = Access.read 8) ∧ ((⟨[(0x2000000000000, 1)], 0, 0, 0, 0⟩ : Errs).mem = [((0x2000000000000), 1)]) ∧ (isSpad
          (0x2000000000000) = true) ∧ (lineOf (0x2000000000000) ≤ (0x2000000000000)) ∧ ((0x2000000000000) < lineOf ((0x2000000000000) + 8 -
          1) + 64) ∧ (on.poison.contains (unitOf (0x2000000000000)) = false)) ∧
    ((isSpadStride (0x2000000000000) = true) ∧ (accSize (.read 8) ≠ 0) ∧ (∀ (i : Fin 2048), (.sec) ≠ Requester.tile i) ∧ ((on.domainUp 8 =
          true ∧ on.unitOpen (on.engOwner (spadEng (0x2000000000000))) = true ∧ spadOff (0x2000000000000) + accSize (.read 8) ≤ 25165824) ∧
          (∀ (i : Fin 64), (.sec) = Requester.core i → natural (0x2000000000000) (accSize (.read 8)) = true) ∧ ∀ (k : Fin 16), (.sec) =
          Requester.unit k → on.inStake (↑k) (0x2000000000000) (accSize (.read 8)) = true ∧ on.engOwner (spadEng (0x2000000000000)) = some
          ↑k) ∧ ((.read 8) = Access.read 8) ∧ ((⟨[(0x2000000000000, 2)], 0, 0, 0, 0⟩ : Errs).mem = [((0x2000000000000), 2)]) ∧ (isSpad
          (0x2000000000000) = true) ∧ (lineOf (0x2000000000000) ≤ (0x2000000000000)) ∧ ((0x2000000000000) < lineOf ((0x2000000000000) + 8 -
          1) + 64) ∧ (on.poison.contains (unitOf (0x2000000000000)) = false) ∧ (2 ≤ 2)) ∧
    ((isSpadStride (0x20000017FFFF0) = true) ∧ (accSize (.write [1, 2]) ≠ 0) ∧ (∀ (i : Fin 2048), (.sec) ≠ Requester.tile i) ∧ ((on.domainUp
          8 = true ∧ on.unitOpen (on.engOwner (spadEng (0x20000017FFFF0))) = true ∧ spadOff (0x20000017FFFF0) + accSize (.write [1, 2]) ≤
          25165824) ∧ (∀ (i : Fin 64), (.sec) = Requester.core i → natural (0x20000017FFFF0) (accSize (.write [1, 2])) = true) ∧ ∀ (k : Fin
          16), (.sec) = Requester.unit k → on.inStake (↑k) (0x20000017FFFF0) (accSize (.write [1, 2])) = true ∧ on.engOwner (spadEng
          (0x20000017FFFF0)) = some ↑k) ∧ ((.write [1, 2]) = Access.write ([1,2])) ∧ (on.asuPart (0x20000017FFFF0) ([1,2]).length = true)) ∧
    ((isSpadStride (0x2000000000000) = true) ∧ (accSize (.write [1, 2]) ≠ 0) ∧ (∀ (i : Fin 2048), (.sec) ≠ Requester.tile i) ∧ ((on.domainUp
          8 = true ∧ on.unitOpen (on.engOwner (spadEng (0x2000000000000))) = true ∧ spadOff (0x2000000000000) + accSize (.write [1, 2]) ≤
          25165824) ∧ (∀ (i : Fin 64), (.sec) = Requester.core i → natural (0x2000000000000) (accSize (.write [1, 2])) = true) ∧ ∀ (k : Fin
          16), (.sec) = Requester.unit k → on.inStake (↑k) (0x2000000000000) (accSize (.write [1, 2])) = true ∧ on.engOwner (spadEng
          (0x2000000000000)) = some ↑k) ∧ ((.write [1, 2]) = Access.write ([1,2])) ∧ (on.asuPart (0x2000000000000) ([1,2]).length = false))
          ∧
    ((isSpadStride (0x2000000000000) = true) ∧ (accSize (.atom .add 4 1 2) ≠ 0) ∧ (∀ (i : Fin 2048), (.sec) ≠ Requester.tile i) ∧ ((.atom
          .add 4 1 2) = Access.atom (.add) 4 1 2)) ∧
    ((isSpadStride (0x20000017FFFFF) = true) ∧ (accSize (.read 8) ≠ 0) ∧ ((.tile 0) = Requester.tile 0) ∧ (Fetches (tile 1 0 0 on) (↑0) ([])
          2) ∧ ((.read 8) = Access.read 8) ∧ (((tile 1 0 0 on).lead (↑0) ([])).tMay (↑0) (0x20000017FFFFF) 8 0 = false)) ∧
    ((isSpadStride (0x2000000000001) = true) ∧ (accSize (.read 8) ≠ 0) ∧ ((.tile 0) = Requester.tile 0) ∧ (Fetches (tile 1 0 0 on) (↑0) ([])
          2) ∧ ((.read 8) = Access.read 8) ∧ (((tile 1 0 0 on).lead (↑0) ([])).tMay (↑0) (0x2000000000001) 8 0 = true) ∧ (natural
          (0x2000000000001) 8 = false)) ∧
    ((isSpadStride (0x2000000000000) = true) ∧ (accSize (.read 8) ≠ 0) ∧ ((.tile 0) = Requester.tile 0) ∧ (Fetches (tile 1 0 0 on) (↑0) ([])
          2) ∧ ((.read 8) = Access.read 8) ∧ (((tile 1 0 0 on).lead (↑0) ([])).tMay (↑0) (0x2000000000000) 8 0 = true) ∧ (natural
          (0x2000000000000) 8 = true) ∧ (Errs.none.mem = [])) ∧
    ((isSpadStride (0x2000000000000) = true) ∧ (accSize (.read 8) ≠ 0) ∧ ((.tile 0) = Requester.tile 0) ∧ (Fetches (tile 1 0 0 on) (↑0) ([])
          2) ∧ ((.read 8) = Access.read 8) ∧ (((tile 1 0 0 on).lead (↑0) ([])).tMay (↑0) (0x2000000000000) 8 0 = true) ∧ (natural
          (0x2000000000000) 8 = true) ∧ ((⟨[(0x2000000000000, 1)], 0, 0, 0, 0⟩ : Errs).mem = [((0x2000000000000), 1)]) ∧ (isSpad
          (0x2000000000000) = true) ∧ (lineOf (0x2000000000000) ≤ (0x2000000000000)) ∧ ((0x2000000000000) < lineOf ((0x2000000000000) + 8 -
          1) + 64) ∧ ((tile 1 0 0 on).poison.contains (unitOf (0x2000000000000)) = false)) := by
  refine ⟨?_, ?_, ?_, ?_, ?_, ?_, ?_, ?_, ?_, ?_, ?_, ?_⟩
  · decide +kernel
  · exact ⟨by decide +kernel, by decide +kernel, by decide +kernel, by decide +kernel⟩
  · exact ⟨by decide +kernel, by decide +kernel, by decide +kernel, by decide +kernel, by decide +kernel, by decide +kernel⟩
  · exact ⟨by decide +kernel, by decide +kernel, by decide +kernel, by decide +kernel, by decide +kernel, by decide +kernel,
        by decide +kernel, by decide +kernel, by decide +kernel, by decide +kernel⟩
  · exact ⟨by decide +kernel, by decide +kernel, by decide +kernel, by decide +kernel, by decide +kernel, by decide +kernel,
        by decide +kernel, by decide +kernel, by decide +kernel, by decide +kernel, by decide +kernel⟩
  · exact ⟨by decide +kernel, by decide +kernel, by decide +kernel, by decide +kernel, by decide +kernel, by decide +kernel⟩
  · exact ⟨by decide +kernel, by decide +kernel, by decide +kernel, by decide +kernel, by decide +kernel, by decide +kernel⟩
  · exact ⟨by decide +kernel, by decide +kernel, by decide +kernel, by decide +kernel⟩
  · (unfold Fetches; decide +kernel)
  · (unfold Fetches; decide +kernel)
  · (unfold Fetches; decide +kernel)
  · (unfold Fetches; decide +kernel)

/-- States and operands that meet the hypotheses of HbmAndCxl, clause by clause. -/
theorem witness_HbmAndCxl :
    ((on.domainUp 5 = true) ∧ (0 < 105)) ∧
    ((Granted on (.core 0) (R.cxtDecCtl ↑0)) ∧ (on.flag (R.cxtDecCtl ↑0) F.cxtDecCtlLock = false ∨ on.flag (R.cxtDecCtl ↑0)
          F.cxtDecCtlCommitted = false)) ∧
    ((on.flag (R.cxtPStatus ↑0) F.cxtPStatusLinkUp = false)) ∧
    ((on.blockUp 4 81 = true) ∧ (false = decide (5 = 6)) ∧ (8 = 16 ∨ 8 = 8) ∧ (1 ≤ 5) ∧ (5 ≤ 6)) ∧
    ((powered.blockUp 4 81 = false)) ∧
    ((isHbm (0x60000) = true) ∧ (octetOf (0x60000) / 2 = ↑0) ∧ (scrubbing.fld (R.memStatus ↑0) F.memStatusState = 1) ∧ (scrubbing.fld
          (R.memScrub ↑0) F.memScrubPeriod ≠ 0) ∧ (0 = 0 ∨ true = true ∧ 0 ≠ 1)) ∧
    ((isHbm (0x60000) = true) ∧ (octetOf (0x60000) / 2 = ↑0) ∧ (scrubbing.fld (R.memStatus ↑0) F.memStatusState = 1) ∧ (scrubbing.fld
          (R.memScrub ↑0) F.memScrubPeriod ≠ 0) ∧ (scrubbing.poison.contains (lineOf (0x60000)) = false) ∧ (2 ≤ 2)) ∧
    ((on.domainUp 5 = true) ∧ (1 ≤ 1) ∧ (1 ≤ 3) ∧ (on.fld (R.memStatus ↑0) F.memStatusState ≠ 3) ∧ (1 = 1 → on.fld (R.memStatus ↑0)
          F.memStatusState = 0) ∧ (isHbm (0x60000) = true) ∧ (octetOf (0x60000) / 2 = ↑0)) ∧
    (((jrnl 0).domainUp 5 = true) ∧ (1 ≤ 1) ∧ (1 ≤ 3) ∧ ((jrnl 0).fld (R.memStatus ↑0) F.memStatusState ≠ 3) ∧ (1 = 1 → (jrnl 0).fld
          (R.memStatus ↑0) F.memStatusState = 0) ∧ (0 < 16) ∧ ((jrnl 0).enabled 0 = true ∧ ((jrnl 0).stake 0).ch >>> (16 * ↑0) % 2 ^ 16 ≠ 0
          ∧ (jrnl 0).flag (R.psqJrnlStatus 0) F.psqJrnlStatusOpen = true)) ∧
    ((on.domainUp 5 = true) ∧ (1 ≤ 1) ∧ (1 ≤ 3) ∧ (on.fld (R.memStatus ↑0) F.memStatusState ≠ 3) ∧ (1 = 1 → on.fld (R.memStatus ↑0)
          F.memStatusState = 0) ∧ (0 < 16) ∧ (¬(on.enabled 0 = true ∧ (on.stake 0).ch >>> (16 * ↑0) % 2 ^ 16 ≠ 0 ∧ on.flag (R.psqJrnlStatus
          0) F.psqJrnlStatusOpen = true))) ∧
    ((lost.domainUp 5 = true) ∧ (lost.fld (R.memStatus ↑0) F.memStatusState = 3)) ∧
    ((lost.domainUp 5 = true) ∧ (lost.fld (R.memStatus ↑0) F.memStatusState ≠ 0)) := by
  refine ⟨?_, ?_, ?_, ?_, ?_, ?_, ?_, ?_, ?_, ?_, ?_, ?_⟩
  · decide +kernel
  · (unfold Granted; decide +kernel)
  · decide +kernel
  · decide +kernel
  · decide +kernel
  · decide +kernel
  · decide +kernel
  · decide +kernel
  · decide +kernel
  · decide +kernel
  · decide +kernel
  · decide +kernel

/-- States and operands that meet the hypotheses of RegisterAccessesAndBars, clause by clause. -/
theorem witness_RegisterAccessesAndBars :
    ((16777216 ≤ (0x1000000)) ∧ (hosted.flag R.hifStatus F.hifStatusLinkUp = false)) ∧
    ((16777216 ≤ (0x1000000)) ∧ (linkedCold.flag R.hifStatus F.hifStatusLinkUp = true)) ∧
    (((linkedCold.config ([(0,3)])).flag R.hifStatus F.hifStatusLinkUp = true) ∧ (0 < 16777216) ∧ ((linkedCold.config ([(0,3)])).pci.d3 =
          true)) ∧
    (((linkedCold.config ([])).flag R.hifStatus F.hifStatusLinkUp = true) ∧ ((0xC00000) < 16777216) ∧ ((linkedCold.config ([])).pci.d3 =
          false) ∧ (12582912 ≤ (0xC00000) ∨ (linkedCold.config ([])).fld R.hifStatus F.hifStatusBoot = 1 ∧ (if (0xC00000) < 8388608 then
          regBase + (0xC00000) else (linkedCold.config ([])).fld R.hifRwin F.hifRwinBase * 2 ^ 22 + ((0xC00000) - 8388608)) ≠ R.glbId ∧ (if
          (0xC00000) < 8388608 then regBase + (0xC00000) else (linkedCold.config ([])).fld R.hifRwin F.hifRwinBase * 2 ^ 22 + ((0xC00000) -
          8388608)) ≠ R.hifStatus ∧ (if (0xC00000) < 8388608 then regBase + (0xC00000) else (linkedCold.config ([])).fld R.hifRwin
          F.hifRwinBase * 2 ^ 22 + ((0xC00000) - 8388608)) ≠ R.hifBoot ∧ (if (0xC00000) < 8388608 then regBase + (0xC00000) else
          (linkedCold.config ([])).fld R.hifRwin F.hifRwinBase * 2 ^ 22 + ((0xC00000) - 8388608)) ≠ R.hifSync) ∧ ((.read 8) = Access.read
          8)) ∧
    (((linkedCold.config ([])).flag R.hifStatus F.hifStatusLinkUp = true) ∧ ((0xC00000) < 16777216) ∧ ((linkedCold.config ([])).pci.d3 =
          false) ∧ (12582912 ≤ (0xC00000) ∨ (linkedCold.config ([])).fld R.hifStatus F.hifStatusBoot = 1 ∧ (if (0xC00000) < 8388608 then
          regBase + (0xC00000) else (linkedCold.config ([])).fld R.hifRwin F.hifRwinBase * 2 ^ 22 + ((0xC00000) - 8388608)) ≠ R.glbId ∧ (if
          (0xC00000) < 8388608 then regBase + (0xC00000) else (linkedCold.config ([])).fld R.hifRwin F.hifRwinBase * 2 ^ 22 + ((0xC00000) -
          8388608)) ≠ R.hifStatus ∧ (if (0xC00000) < 8388608 then regBase + (0xC00000) else (linkedCold.config ([])).fld R.hifRwin
          F.hifRwinBase * 2 ^ 22 + ((0xC00000) - 8388608)) ≠ R.hifBoot ∧ (if (0xC00000) < 8388608 then regBase + (0xC00000) else
          (linkedCold.config ([])).fld R.hifRwin F.hifRwinBase * 2 ^ 22 + ((0xC00000) - 8388608)) ≠ R.hifSync) ∧ ((.atom .add 8 8 8) =
          Access.atom (.add) 8 8 8)) ∧
    (((linkedCold.config ([])).flag R.hifStatus F.hifStatusLinkUp = true) ∧ ((0xC00000) < 16777216) ∧ ((linkedCold.config ([])).pci.d3 =
          false) ∧ (12582912 ≤ (0xC00000) ∨ (linkedCold.config ([])).fld R.hifStatus F.hifStatusBoot = 1 ∧ (if (0xC00000) < 8388608 then
          regBase + (0xC00000) else (linkedCold.config ([])).fld R.hifRwin F.hifRwinBase * 2 ^ 22 + ((0xC00000) - 8388608)) ≠ R.glbId ∧ (if
          (0xC00000) < 8388608 then regBase + (0xC00000) else (linkedCold.config ([])).fld R.hifRwin F.hifRwinBase * 2 ^ 22 + ((0xC00000) -
          8388608)) ≠ R.hifStatus ∧ (if (0xC00000) < 8388608 then regBase + (0xC00000) else (linkedCold.config ([])).fld R.hifRwin
          F.hifRwinBase * 2 ^ 22 + ((0xC00000) - 8388608)) ≠ R.hifBoot ∧ (if (0xC00000) < 8388608 then regBase + (0xC00000) else
          (linkedCold.config ([])).fld R.hifRwin F.hifRwinBase * 2 ^ 22 + ((0xC00000) - 8388608)) ≠ R.hifSync) ∧ ((.write [1, 2]) =
          Access.write ([1,2]))) ∧
    ((isReg (R.cohHStatus 4) = true) ∧ ((.sec) = Requester.sec ∧ (.sec) = Master.sec ∨ (.sec) = Requester.host ∧ (.sec) = Master.host ∨ ∃ c,
          (.sec) = Requester.core c ∧ (.sec) = Master.core c) ∧ (2 ≠ 0) ∧ (2 ≠ 8 ∨ (R.cohHStatus 4) % 8 ≠ 0 ∨ hosted.wrapperOpen
          (R.cohHStatus 4) = false)) ∧
    ((isReg (R.cohHStatus 4) = true) ∧ ((.sec) = Requester.sec ∧ (.sec) = Master.sec ∨ (.sec) = Requester.host ∧ (.sec) = Master.host ∨ ∃ c,
          (.sec) = Requester.core c ∧ (.sec) = Master.core c) ∧ (([1,2,3,4,5,6,7,8]).length = 8)) ∧
    ((isReg (R.cohHStatus 4) = true) ∧ ((.sec) = Requester.sec ∧ (.sec) = Master.sec ∨ (.sec) = Requester.host ∧ (.sec) = Master.host ∨ ∃ c,
          (.sec) = Requester.core c ∧ (.sec) = Master.core c) ∧ (8 ≠ 0)) ∧
    ((isReg (R.cohHStatus 4) = true) ∧ ((.sec) = Requester.sec ∧ (.sec) = Master.sec ∨ (.sec) = Requester.host ∧ (.sec) = Master.host ∨ ∃ c,
          (.sec) = Requester.core c ∧ (.sec) = Master.core c) ∧ (([1,2]) ≠ []) ∧ (([1,2]).length ≠ 8)) := by
  refine ⟨?_, ?_, ?_, ?_, ?_, ?_, ?_, ?_, ?_, ?_⟩
  · decide +kernel
  · decide +kernel
  · decide +kernel
  · decide +kernel
  · decide +kernel
  · decide +kernel
  · exact ⟨by decide +kernel, by decide +kernel, by decide +kernel, by decide +kernel⟩
  · exact ⟨by decide +kernel, by decide +kernel, by decide +kernel⟩
  · exact ⟨by decide +kernel, by decide +kernel, by decide +kernel⟩
  · exact ⟨by decide +kernel, by decide +kernel, by decide +kernel, by decide +kernel⟩

/-- States and operands that meet the hypotheses of HomeReads, clause by clause. -/
theorem witness_HomeReads :
    ((({ on with weave := { on.weave with cur := { cur with stakes := [{ rec0 with ways := [0, 0, 0, 0, 0] }] } } }).sharedMay ↑68 = false))
          ∧
    (((cxl 1).onceMay ↑80 = false)) ∧
    (((∃ g, (.rdShared 4 2 0x60000 0 0) = Instr.rdShared 4 g (0x60000) 0 0 ∧ (plainReq .rdShared 2 0x60000 0 0) = plainReq ReqKind.rdShared
          (↑g) (0x60000) 0 0 ∧ powered.sharedMay ↑g = true) ∨ (∃ g, (.rdShared 4 2 0x60000 0 0) = Instr.rdUnique 4 g (0x60000) 0 0 ∧
          (plainReq .rdShared 2 0x60000 0 0) = plainReq ReqKind.rdUnique (↑g) (0x60000) 0 0) ∨ (∃ g, (.rdShared 4 2 0x60000 0 0) =
          Instr.rdOnce 4 g (0x60000) 0 0 ∧ (plainReq .rdShared 2 0x60000 0 0) = plainReq ReqKind.rdOnce (↑g) (0x60000) 0 0 ∧ powered.onceMay
          ↑g = true) ∨ ∃ g, (.rdShared 4 2 0x60000 0 0) = Instr.watch 4 g (0x60000) 0 0 ∧ (plainReq .rdShared 2 0x60000 0 0) = plainReq
          ReqKind.watch (112 + ↑g) (0x60000) 0 0 ∧ (0x60000) % 8 = 0) ∧ (homeOf (0x60000) = ↑4) ∧ (isHbm (0x60000) = true ∨ isCxl (0x60000)
          = true) ∧ (powered.domainUp 6 = false)) ∧
    (((∃ g, (.rdShared 4 2 0x60000 0 0) = Instr.rdShared 4 g (0x60000) 0 0 ∧ (plainReq .rdShared 2 0x60000 0 0) = plainReq ReqKind.rdShared
          (↑g) (0x60000) 0 0 ∧ full4.sharedMay ↑g = true) ∨ (∃ g, (.rdShared 4 2 0x60000 0 0) = Instr.rdUnique 4 g (0x60000) 0 0 ∧ (plainReq
          .rdShared 2 0x60000 0 0) = plainReq ReqKind.rdUnique (↑g) (0x60000) 0 0) ∨ (∃ g, (.rdShared 4 2 0x60000 0 0) = Instr.rdOnce 4 g
          (0x60000) 0 0 ∧ (plainReq .rdShared 2 0x60000 0 0) = plainReq ReqKind.rdOnce (↑g) (0x60000) 0 0 ∧ full4.onceMay ↑g = true) ∨ ∃ g,
          (.rdShared 4 2 0x60000 0 0) = Instr.watch 4 g (0x60000) 0 0 ∧ (plainReq .rdShared 2 0x60000 0 0) = plainReq ReqKind.watch (112 +
          ↑g) (0x60000) 0 0 ∧ (0x60000) % 8 = 0) ∧ (homeOf (0x60000) = ↑4) ∧ (isHbm (0x60000) = true ∨ isCxl (0x60000) = true) ∧
          (full4.domainUp 6 = true) ∧ (254 ≤ (List.filter (fun t => !t.rsvd) (full4.home ↑4).tracks).length) ∧ (0 < full4.ageLimit)) ∧
    (((∃ g, (.rdShared 4 2 0x60000 0 0) = Instr.rdShared 4 g (0x60000) 0 0 ∧ (plainReq .rdShared 2 0x60000 0 0) = plainReq ReqKind.rdShared
          (↑g) (0x60000) 0 0 ∧ open4.sharedMay ↑g = true) ∨ (∃ g, (.rdShared 4 2 0x60000 0 0) = Instr.rdUnique 4 g (0x60000) 0 0 ∧ (plainReq
          .rdShared 2 0x60000 0 0) = plainReq ReqKind.rdUnique (↑g) (0x60000) 0 0) ∨ (∃ g, (.rdShared 4 2 0x60000 0 0) = Instr.rdOnce 4 g
          (0x60000) 0 0 ∧ (plainReq .rdShared 2 0x60000 0 0) = plainReq ReqKind.rdOnce (↑g) (0x60000) 0 0 ∧ open4.onceMay ↑g = true) ∨ ∃ g,
          (.rdShared 4 2 0x60000 0 0) = Instr.watch 4 g (0x60000) 0 0 ∧ (plainReq .rdShared 2 0x60000 0 0) = plainReq ReqKind.watch (112 +
          ↑g) (0x60000) 0 0 ∧ (0x60000) % 8 = 0) ∧ (homeOf (0x60000) = ↑4) ∧ (isHbm (0x60000) = true ∨ isCxl (0x60000) = true) ∧
          (open4.domainUp 6 = true) ∧ ((List.filter (fun t => !t.rsvd) (open4.home ↑4).tracks).length < 254) ∧ ((open4.home ↑4).isOpen
          (lineOf (0x60000)) = true)) := by
  refine ⟨?_, ?_, ?_, ?_, ?_⟩
  · decide +kernel
  · decide +kernel
  · exact ⟨by decide +kernel, by decide +kernel, by decide +kernel, by decide +kernel⟩
  · exact ⟨by decide +kernel, by decide +kernel, by decide +kernel, by decide +kernel, by decide +kernel, by decide +kernel⟩
  · exact ⟨by decide +kernel, by decide +kernel, by decide +kernel, by decide +kernel, by decide +kernel, by decide +kernel⟩

/-- States and operands that meet the hypotheses of HomeWritesAndAtomics, clause by clause. -/
theorem witness_HomeWritesAndAtomics :
    ((HomeFree (put [(R.hifWin, F.hifWinEn, 1)] (linked 0 1 0)) (↑4) (0x60000)) ∧ ((toBytes 64 9).length = 64) ∧ (¬Unwritable (put
          [(R.hifWin, F.hifWinEn, 1)] (linked 0 1 0)) (lineOf (0x60000))) ∧ (0 < 64)) ∧
    ((HomeFree (put [(R.hifWin, F.hifWinEn, 1)] (linked 0 1 0)) (↑16) (0x1001000000000)) ∧ ((toBytes 64 9).length = 64) ∧ (true = true →
          ((put [(R.hifWin, F.hifWinEn, 1)] (linked 0 1 0)).home ↑16).entry (lineOf (0x1001000000000)) = none → (List.filter (fun e =>
          Config.dirSet (↑16) e.line % 65536 == Config.dirSet (↑16) (lineOf (0x1001000000000)) % 65536) ((put [(R.hifWin, F.hifWinEn, 1)]
          (linked 0 1 0)).home ↑16).dir).length < 16) ∧ (Unwritable (put [(R.hifWin, F.hifWinEn, 1)] (linked 0 1 0)) (lineOf
          (0x1001000000000)))) ∧
    ((HomeFree (put [(R.hifWin, F.hifWinEn, 1)] (linked 0 1 0)) (↑4) (0x60000)) ∧ ((toBytes 64 9).length = 64) ∧ (false = true → ((put
          [(R.hifWin, F.hifWinEn, 1)] (linked 0 1 0)).home ↑4).entry (lineOf (0x60000)) = none → (List.filter (fun e => Config.dirSet (↑4)
          e.line % 65536 == Config.dirSet (↑4) (lineOf (0x60000)) % 65536) ((put [(R.hifWin, F.hifWinEn, 1)] (linked 0 1 0)).home
          ↑4).dir).length < 16) ∧ (¬Unwritable (put [(R.hifWin, F.hifWinEn, 1)] (linked 0 1 0)) (lineOf (0x60000)))) ∧
    ((HomeFree (put [(R.hifWin, F.hifWinEn, 1)] (linked 0 1 0)) (↑4) (0x60000)) ∧ ((toBytes 64 9).length = 64) ∧ (true = true → ((put
          [(R.hifWin, F.hifWinEn, 1)] (linked 0 1 0)).home ↑4).entry (lineOf (0x60000)) = none → (List.filter (fun e => Config.dirSet (↑4)
          e.line % 65536 == Config.dirSet (↑4) (lineOf (0x60000)) % 65536) ((put [(R.hifWin, F.hifWinEn, 1)] (linked 0 1 0)).home
          ↑4).dir).length < 16) ∧ (¬Unwritable (put [(R.hifWin, F.hifWinEn, 1)] (linked 0 1 0)) (lineOf (0x60000)))) ∧
    ((homeOf (0x60000) = ↑4) ∧ (isHbm (0x60000) = true ∨ isCxl (0x60000) = true) ∧ (4 = 4 ∨ 4 = 8) ∧ ((.sec) = Requester.sec ∨ (∃ k, (.sec)
          = Requester.unit k) ∨ (.sec) = Requester.host ∧ (put [(R.hifWin, F.hifWinEn, 1)] (linked 0 1 0)).hostReaches (0x60000) 4 = true) ∧
          (atomOk (.add) (0x60000) 4 = true) ∧ (HomeFree (put [(R.hifWin, F.hifWinEn, 1)] (linked 0 1 0)) (↑4) (0x60000)) ∧ (((put
          [(R.hifWin, F.hifWinEn, 1)] (linked 0 1 0)).home ↑4).entry (lineOf (0x60000)) = none ∧ isHbm (0x60000) = true) ∧ ((put [(R.hifWin,
          F.hifWinEn, 1)] (linked 0 1 0)).quayLost (octetOf (0x60000)) = false)) ∧
    ((homeOf (0x1001000000000) = ↑16) ∧ (isHbm (0x1001000000000) = true ∨ isCxl (0x1001000000000) = true) ∧ (4 = 4 ∨ 4 = 8) ∧ ((.sec) =
          Requester.sec ∨ (∃ k, (.sec) = Requester.unit k) ∨ (.sec) = Requester.host ∧ (put [(R.hifWin, F.hifWinEn, 1)] (linked 0 1
          0)).hostReaches (0x1001000000000) 4 = true) ∧ (atomOk (.add) (0x1001000000000) 4 = true) ∧ (HomeFree (put [(R.hifWin, F.hifWinEn,
          1)] (linked 0 1 0)) (↑16) (0x1001000000000)) ∧ (¬(((put [(R.hifWin, F.hifWinEn, 1)] (linked 0 1 0)).home ↑16).entry (lineOf
          (0x1001000000000)) = none ∧ isHbm (0x1001000000000) = true)) ∧ ((put [(R.hifWin, F.hifWinEn, 1)] (linked 0 1 0)).err (lineOf
          (0x1001000000000)) 64 = true)) ∧
    ((homeOf (0x1000000000000) = ↑0) ∧ (isHbm (0x1000000000000) = true ∨ isCxl (0x1000000000000) = true) ∧ (4 = 4 ∨ 4 = 8) ∧ ((.sec) =
          Requester.sec ∨ (∃ k, (.sec) = Requester.unit k) ∨ (.sec) = Requester.host ∧ (cxl 1).hostReaches (0x1000000000000) 4 = true) ∧
          (atomOk (.add) (0x1000000000000) 4 = true) ∧ (HomeFree (cxl 1) (↑0) (0x1000000000000)) ∧ (¬(((cxl 1).home ↑0).entry (lineOf
          (0x1000000000000)) = none ∧ isHbm (0x1000000000000) = true)) ∧ ((cxl 1).err (lineOf (0x1000000000000)) 64 = false) ∧ ((if (cxl
          1).unreadable (lineOf (0x1000000000000)) 64 = true then 2 ^ 64 else (cxl 1).num (0x1000000000000) 4) ≠ 2 ^ 64) ∧ (¬Unwritable (cxl
          1) (lineOf (0x1000000000000)))) ∧
    ((homeOf (0x1000000000000) = ↑0) ∧ (isHbm (0x1000000000000) = true ∨ isCxl (0x1000000000000) = true) ∧ (4 = 4 ∨ 4 = 8) ∧ ((.sec) =
          Requester.sec ∨ (∃ k, (.sec) = Requester.unit k) ∨ (.sec) = Requester.host ∧ (cxl 0).hostReaches (0x1000000000000) 4 = true) ∧
          (atomOk (.add) (0x1000000000000) 4 = true) ∧ (HomeFree (cxl 0) (↑0) (0x1000000000000)) ∧ (¬(((cxl 0).home ↑0).entry (lineOf
          (0x1000000000000)) = none ∧ isHbm (0x1000000000000) = true)) ∧ ((cxl 0).err (lineOf (0x1000000000000)) 64 = false) ∧ ((if (cxl
          0).unreadable (lineOf (0x1000000000000)) 64 = true then 2 ^ 64 else (cxl 0).num (0x1000000000000) 4) = 2 ^ 64 ∨ Unwritable (cxl 0)
          (lineOf (0x1000000000000)))) ∧
    ((homeOf (0x60001) = ↑4) ∧ (isHbm (0x60001) = true ∨ isCxl (0x60001) = true) ∧ (4 = 4 ∨ 4 = 8) ∧ ((.sec) = Requester.sec ∨ (∃ k, (.sec)
          = Requester.unit k) ∨ (.sec) = Requester.host ∧ (put [(R.hifWin, F.hifWinEn, 1)] (linked 0 1 0)).hostReaches (0x60001) 4 = true) ∧
          (atomOk (.add) (0x60001) 4 = false)) ∧
    ((homeOf (0x1001000000000) = ↑16) ∧ (isHbm (0x1001000000000) = true ∨ isCxl (0x1001000000000) = true) ∧ (4 = 4 ∨ 4 = 8) ∧ ((put
          [(R.hifWin, F.hifWinEn, 1)] (linked 0 1 0)).hostReaches (0x1001000000000) 4 = false)) ∧
    ((homeOf (0x60000) = ↑4) ∧ (isHbm (0x60000) = true ∨ isCxl (0x60000) = true) ∧ (4 = 4 ∨ 4 = 8) ∧ (atomOk (.add) (0x60000) 4 = true) ∧
          (((put [(R.hifWin, F.hifWinEn, 1)] (linked 0 1 0)).coreLead (0) ([])).owns (0) (0x60000) 4 = false) ∧ (HomeFree ((put [(R.hifWin,
          F.hifWinEn, 1)] (linked 0 1 0)).coreLead (0) ([])) (↑4) (0x60000)) ∧ ((((put [(R.hifWin, F.hifWinEn, 1)] (linked 0 1 0)).coreLead
          (0) ([])).home ↑4).entry (lineOf (0x60000)) = none ∧ isHbm (0x60000) = true) ∧ (((put [(R.hifWin, F.hifWinEn, 1)] (linked 0 1
          0)).coreLead (0) ([])).quayLost (octetOf (0x60000)) = false)) ∧
    ((homeOf (0x1001000000000) = ↑16) ∧ (isHbm (0x1001000000000) = true ∨ isCxl (0x1001000000000) = true) ∧ (4 = 4 ∨ 4 = 8) ∧ (atomOk (.add)
          (0x1001000000000) 4 = true) ∧ (((put [(R.hifWin, F.hifWinEn, 1)] (linked 0 1 0)).coreLead (0) ([])).owns (0) (0x1001000000000) 4 =
          false) ∧ (HomeFree ((put [(R.hifWin, F.hifWinEn, 1)] (linked 0 1 0)).coreLead (0) ([])) (↑16) (0x1001000000000)) ∧ (¬((((put
          [(R.hifWin, F.hifWinEn, 1)] (linked 0 1 0)).coreLead (0) ([])).home ↑16).entry (lineOf (0x1001000000000)) = none ∧ isHbm
          (0x1001000000000) = true)) ∧ (((put [(R.hifWin, F.hifWinEn, 1)] (linked 0 1 0)).coreLead (0) ([])).err (lineOf (0x1001000000000))
          64 = true)) := by
  refine ⟨?_, ?_, ?_, ?_, ?_, ?_, ?_, ?_, ?_, ?_, ?_, ?_⟩
  · exact ⟨by (unfold HomeFree; exact ⟨by decide +kernel, by decide +kernel, by decide +kernel, by decide +kernel,
        by decide +kernel, forall_some (by decide +kernel)⟩), by decide +kernel, by (unfold Unwritable; decide +kernel), by decide +kernel⟩
  · exact ⟨by (unfold HomeFree; exact ⟨by decide +kernel, by decide +kernel, by decide +kernel, by decide +kernel,
        by decide +kernel, forall_some (by decide +kernel)⟩), by decide +kernel, by decide +kernel, by (unfold Unwritable; decide +kernel)⟩
  · exact ⟨by (unfold HomeFree; exact ⟨by decide +kernel, by decide +kernel, by decide +kernel, by decide +kernel,
        by decide +kernel, forall_some (by decide +kernel)⟩), by decide +kernel, by decide +kernel, by (unfold Unwritable; decide +kernel)⟩
  · exact ⟨by (unfold HomeFree; exact ⟨by decide +kernel, by decide +kernel, by decide +kernel, by decide +kernel,
        by decide +kernel, forall_some (by decide +kernel)⟩), by decide +kernel, by decide +kernel, by (unfold Unwritable; decide +kernel)⟩
  · exact ⟨by decide +kernel, by decide +kernel, by decide +kernel, by decide +kernel, by decide +kernel,
        by (unfold HomeFree; exact ⟨by decide +kernel, by decide +kernel, by decide +kernel, by decide +kernel,
        by decide +kernel, forall_some (by decide +kernel)⟩), by decide +kernel, by decide +kernel⟩
  · exact ⟨by decide +kernel, by decide +kernel, by decide +kernel, by decide +kernel, by decide +kernel,
        by (unfold HomeFree; exact ⟨by decide +kernel, by decide +kernel, by decide +kernel, by decide +kernel,
        by decide +kernel, forall_some (by decide +kernel)⟩), by decide +kernel, by decide +kernel⟩
  · exact ⟨by decide +kernel, by decide +kernel, by decide +kernel, by decide +kernel, by decide +kernel,
        by (unfold HomeFree; exact ⟨by decide +kernel, by decide +kernel, by decide +kernel, by decide +kernel,
        by decide +kernel, forall_some (by decide +kernel)⟩), by decide +kernel, by decide +kernel, by decide +kernel,
        by (unfold Unwritable; decide +kernel)⟩
  · exact ⟨by decide +kernel, by decide +kernel, by decide +kernel, by decide +kernel, by decide +kernel,
        by (unfold HomeFree; exact ⟨by decide +kernel, by decide +kernel, by decide +kernel, by decide +kernel,
        by decide +kernel, forall_some (by decide +kernel)⟩), by decide +kernel, by decide +kernel, by (unfold Unwritable; decide +kernel)⟩
  · exact ⟨by decide +kernel, by decide +kernel, by decide +kernel, by decide +kernel, by decide +kernel⟩
  · decide +kernel
  · exact ⟨by decide +kernel, by decide +kernel, by decide +kernel, by decide +kernel, by decide +kernel,
        by (unfold HomeFree; exact ⟨by decide +kernel, by decide +kernel, by decide +kernel, by decide +kernel,
        by decide +kernel, forall_some (by decide +kernel)⟩), by decide +kernel, by decide +kernel⟩
  · exact ⟨by decide +kernel, by decide +kernel, by decide +kernel, by decide +kernel, by decide +kernel,
        by (unfold HomeFree; exact ⟨by decide +kernel, by decide +kernel, by decide +kernel, by decide +kernel,
        by decide +kernel, forall_some (by decide +kernel)⟩), by decide +kernel, by decide +kernel⟩

/-- States and operands that meet the hypotheses of Reservations, clause by clause. -/
theorem witness_Reservations :
    ((homeOf (0x60000) = ↑4) ∧ (isHbm (0x60000) = true ∨ isCxl (0x60000) = true) ∧ (4 = 4 ∨ 4 = 8) ∧ (Fetches (tile 1 0 0 on) (↑0) ([]) 4) ∧
          ((0x60000) % 4 = 0 ∧ isSpadStride (0x60000) = false ∧ (met (tile 1 0 0 on) (↑0) ([]) 4).tMay (↑0) (0x60000) 4 0 = true) ∧
          (HomeFree ((met (tile 1 0 0 on) (↑0) ([]) 4).dropLine (↑0) (lineOf (0x60000))) (↑4) (0x60000)) ∧ (((met (tile 1 0 0 on) (↑0) ([])
          4).dropLine (↑0) (lineOf (0x60000))).err (lineOf (0x60000)) 64 = false)) ∧
    ((homeOf (0x60004) = ↑4) ∧ (isHbm (0x60004) = true ∨ isCxl (0x60004) = true) ∧ (8 = 4 ∨ 8 = 8) ∧ (Fetches (tile 1 0 0 on) (↑0) ([]) 4) ∧
          (¬(0x60004) % 8 = 0)) ∧
    ((homeOf (0x900000000) = ↑4) ∧ (isHbm (0x900000000) = true ∨ isCxl (0x900000000) = true) ∧ (4 = 4 ∨ 4 = 8) ∧ (Fetches (tile 1 0 0 on)
          (↑0) ([]) 4) ∧ ((0x900000000) % 4 = 0) ∧ (¬((0x900000000) % 4 = 0 ∧ isSpadStride (0x900000000) = false ∧ (met (tile 1 0 0 on) (↑0)
          ([]) 4).tMay (↑0) (0x900000000) 4 0 = true))) ∧
    ((homeOf (0x900000000) = ↑4) ∧ (isHbm (0x900000000) = true ∨ isCxl (0x900000000) = true) ∧ (4 = 4 ∨ 4 = 8) ∧ (Fetches (tile 1 0 0 on)
          (↑0) ([]) 4) ∧ ((0x900000000) % 4 = 0) ∧ (¬((0x900000000) % 4 = 0 ∧ isSpadStride (0x900000000) = false ∧ (met (tile 1 0 0 on) (↑0)
          ([]) 4).tMay (↑0) (0x900000000) 4 1 = true))) ∧
    ((homeOf (0x60000) = ↑4) ∧ (isHbm (0x60000) = true ∨ isCxl (0x60000) = true) ∧ (4 = 4 ∨ 4 = 8) ∧ ((0x60000) % 4 = 0) ∧
          ((ownLine.coreLead (↑0) ([])).owns (↑0) (0x60000) 4 = true)) ∧
    ((homeOf (0x60000) = ↑4) ∧ (isHbm (0x60000) = true ∨ isCxl (0x60000) = true) ∧ (4 = 4 ∨ 4 = 8) ∧ ((0x60000) % 4 = 0) ∧ ((on.coreLead
          (↑0) ([])).owns (↑0) (0x60000) 4 = false)) ∧
    ((homeOf (0x60000) = ↑4) ∧ (isHbm (0x60000) = true ∨ isCxl (0x60000) = true) ∧ (4 = 4 ∨ 4 = 8) ∧ ((0x60000) % 4 = 0) ∧ (¬((on.coreLead
          (↑0) ([])).resv.find (2048 + ↑0) = some (lineOf (0x60000)) ∧ (on.coreLead (↑0) ([])).owns (↑0) (0x60000) 4 = true))) ∧
    ((homeOf (0x60000) = ↑4) ∧ (isHbm (0x60000) = true ∨ isCxl (0x60000) = true) ∧ (4 = 4 ∨ 4 = 8) ∧ ((.sec) = Requester.sec ∨ (.sec) =
          Requester.host ∨ ∃ k, (.sec) = Requester.unit k)) := by
  refine ⟨?_, ?_, ?_, ?_, ?_, ?_, ?_, ?_⟩
  · exact ⟨by decide +kernel, by decide +kernel, by decide +kernel, by (unfold Fetches; decide +kernel), by decide +kernel,
        by (unfold HomeFree; exact ⟨by decide +kernel, by decide +kernel, by decide +kernel, by decide +kernel,
        by decide +kernel, forall_some (by decide +kernel)⟩), by decide +kernel⟩
  · (unfold Fetches; decide +kernel)
  · (unfold Fetches; decide +kernel)
  · (unfold Fetches; decide +kernel)
  · decide +kernel
  · decide +kernel
  · decide +kernel
  · exact ⟨by decide +kernel, by decide +kernel, by decide +kernel, by decide +kernel⟩

/-- States and operands that meet the hypotheses of HomeTransactions, clause by clause. -/
theorem witness_HomeTransactions :
    ((((snooping .rdShared [(3, 0)]).home ↑4).tracker 0 = some (track 0 2 .rdShared [(3, 0)])) ∧ ((↑3, 0) ∈ (track 0 2 .rdShared [(3,
          0)]).snoops) ∧ ((track 0 2 .rdShared [(3, 0)]).victim = none ∧ (track 0 2 .rdShared [(3, 0)]).req.ecc ≠ 2 ∧ ((track 0 2 .rdShared
          [(3, 0)]).req.kind = ReqKind.rdShared ∨ (track 0 2 .rdShared [(3, 0)]).req.kind = ReqKind.rdOnce ∨ (track 0 2 .rdShared [(3,
          0)]).req.kind = ReqKind.watch ∨ (track 0 2 .rdShared [(3, 0)]).req.kind = ReqKind.lr)) ∧ (Option.map (fun c => c.2.2) (List.find?
          (fun c => c.1 == (track 0 2 .rdShared [(3, 0)]).victim.getD (lineOf (track 0 2 .rdShared [(3, 0)]).req.addr) && c.2.1 == ↑3)
          (snooping .rdShared [(3, 0)]).copies) = some true) ∧ ((track 0 2 .rdShared [(3, 0)]).req.kind = ReqKind.rdShared)) ∧
    ((((snooping .rdShared [(3, 0)]).home ↑4).tracker 0 = some (track 0 2 .rdShared [(3, 0)])) ∧ ((↑3, 0) ∈ (track 0 2 .rdShared [(3,
          0)]).snoops) ∧ (¬((0, (0, true)).1 = (track 0 2 .rdShared [(3, 0)]).victim.getD (lineOf (track 0 2 .rdShared [(3, 0)]).req.addr) ∧
          (0, (0, true)).2.1 = ↑3))) ∧
    ((((snooping .rdShared [(3, 2), (2, 0)]).home ↑4).tracker 0 = some (track 0 2 .rdShared [(3, 2), (2, 0)])) ∧ (List.find? (fun y => y.1
          == ↑3) (track 0 2 .rdShared [(3, 2), (2, 0)]).snoops = some ((3, 2))) ∧ (((snooping .rdShared [(3, 2), (2, 0)]).ptbHome ↑4 ↑3).1 =
          false) ∧ (((3, 2)).2 = 1 ∨ ((3, 2)).2 = 2) ∧ ((track 0 2 .rdShared [(3, 2), (2, 0)]).far = false) ∧ ((snooping .rdShared [(3, 2),
          (2, 0)]).err (lineOf (track 0 2 .rdShared [(3, 2), (2, 0)]).req.addr) 64 = false) ∧ (List.filter (fun y => y.1 != ↑3) (track 0 2
          .rdShared [(3, 2), (2, 0)]).snoops ≠ [])) ∧
    ((((snooping .rdShared [(3, 2)]).home ↑4).tracker 0 = some (track 0 2 .rdShared [(3, 2)])) ∧ (List.find? (fun y => y.1 == ↑3) (track 0 2
          .rdShared [(3, 2)]).snoops = some ((3, 2))) ∧ (((snooping .rdShared [(3, 2)]).ptbHome ↑4 ↑3).1 = false) ∧ (((3, 2)).2 = 1 ∨ ((3,
          2)).2 = 2) ∧ ((track 0 2 .rdShared [(3, 2)]).far = false) ∧ ((snooping .rdShared [(3, 2)]).err (lineOf (track 0 2 .rdShared [(3,
          2)]).req.addr) 64 = false) ∧ (List.filter (fun y => y.1 != ↑3) (track 0 2 .rdShared [(3, 2)]).snoops = []) ∧ ((track 0 2 .rdShared
          [(3, 2)]).victim = none) ∧ (∀ x ∈ ((snooping .rdShared [(3, 2)]).home ↑4).tracks, x.phase ≠ 0) ∧ ((track 0 2 .rdShared [(3,
          2)]).req.kind = ReqKind.rdShared)) ∧
    ((((snooping .rdShared [(3, 2)]).home ↑4).tracker 0 = some (track 0 2 .rdShared [(3, 2)])) ∧ (List.find? (fun y => y.1 == ↑3) (track 0 2
          .rdShared [(3, 2)]).snoops = some ((3, 2))) ∧ (((snooping .rdShared [(3, 2)]).ptbHome ↑4 ↑3).1 = false) ∧ (((3, 2)).2 = 1 ∨ ((3,
          2)).2 = 2) ∧ ((track 0 2 .rdShared [(3, 2)]).far = false) ∧ ((snooping .rdShared [(3, 2)]).err (lineOf (track 0 2 .rdShared [(3,
          2)]).req.addr) 64 = false) ∧ ((track 0 2 .rdShared [(3, 2)]).victim = none) ∧ ((track 0 2 .rdShared [(3, 2)]).req.kind =
          ReqKind.rdShared) ∧ (∀ x ∈ ((snooping .rdShared [(3, 2)]).home ↑4).tracks, x.phase ≠ 0) ∧ (((snooping .rdShared [(3, 2)]).home
          ↑4).entry (lineOf (track 0 2 .rdShared [(3, 2)]).req.addr) = some ((DirEnt.mk 0x60000 true 8 0))) ∧ (((DirEnt.mk 0x60000 true 8
          0)).owned = true) ∧ (((DirEnt.mk 0x60000 true 8 0)).holders.testBit ↑3 = true) ∧ (Lands (snooping .rdShared [(3, 2)]) (lineOf
          (track 0 2 .rdShared [(3, 2)]).req.addr) 64)) ∧
    (((late4.home ↑4).tracker 7 = none) ∧ ((↑3, 7) ∈ (late4.home ↑4).late)) ∧
    (((on.home ↑4).tracker 0 = none) ∧ ((↑2, 0) ∉ (on.home ↑4).late)) ∧
    ((((freed4 [(5, req0 .rdShared, false), (6, { req0 .rdShared with age := 4 }, false)]).home ↑4).tracker 0 = some (track 0 4 .rdShared
          [])) ∧ (List.filter (fun y => y.2 != 4) (track 0 4 .rdShared []).snoops = [])) ∧
    ((((snooping .rdShared [(3, 0)]).home ↑4).tracker 0 = some (track 0 2 .rdShared [(3, 0)])) ∧ (List.filter (fun y => y.2 != 4) (track 0 2
          .rdShared [(3, 0)]).snoops = ((3, 0)) :: ([])) ∧ ((track 0 2 .rdShared [(3, 0)]).victim = none) ∧ ((snooping .rdShared [(3,
          0)]).err (lineOf (track 0 2 .rdShared [(3, 0)]).req.addr) 64 = false) ∧ (∀ x ∈ ((snooping .rdShared [(3, 0)]).home ↑4).tracks,
          x.phase ≠ 0) ∧ (((3, 0)).1 < 69) ∧ ((track 0 2 .rdShared [(3, 0)]).req.kind = ReqKind.rdShared) ∧ (Lands (snooping .rdShared [(3,
          0)]) (lineOf (track 0 2 .rdShared [(3, 0)]).req.addr) 64)) ∧
    ((homeOf (lineOf (0x60000)) = ↑4) ∧ (List.find? (fun t => t.line == lineOf (0x60000) && t.snoops.any fun y => y.1 == ↑3 && decide (3 ≤
          y.2)) ((snooping .rdShared [(3, 0)]).home ↑4).tracks = none) ∧ ((snooping .rdShared [(3, 0)]).copies.contains (lineOf (0x60000),
          ↑3, true) = true) ∧ ((0, (0, true)) ≠ (lineOf (0x60000), ↑3, true))) ∧
    ((List.find? (fun t => t.phase == 4) ((freed4 [(5, req0 .rdShared, true)]).home ↑4).tracks = some (track 0 4 .rdShared [])) ∧ (∀ p ∈
          ((freed4 [(5, req0 .rdShared, true)]).home ↑4).retry, p.2.2 = true)) ∧
    ((List.find? (fun t => t.phase == 4) ((freed4 [(5, req0 .rdShared, false), (6, { req0 .rdShared with age := 4 }, false)]).home
          ↑4).tracks = some (track 0 4 .rdShared [])) ∧ (((5,
          ({ kind := Sys2Proof.Machine.ReqKind.rdShared, who := 2, addr := 393216, age := 1, mask := 0, data := [], alloc := false, op := Sys2Proof.AtomOp.add, size := 8, a := 0, b := 0, opnum := 0, ecc := 0 }
          : HomeReq), false)) ∈ ((freed4 [(5, req0 .rdShared, false), (6, { req0 .rdShared with age := 4 }, false)]).home ↑4).retry) ∧ (((5,
          ({ kind := Sys2Proof.Machine.ReqKind.rdShared, who := 2, addr := 393216, age := 1, mask := 0, data := [], alloc := false, op := Sys2Proof.AtomOp.add, size := 8, a := 0, b := 0, opnum := 0, ecc := 0 }
          : HomeReq), false)).2.2 = false)) := by
  refine ⟨?_, ?_, ?_, ?_, ?_, ?_, ?_, ?_, ?_, ?_, ?_, ?_⟩
  · decide +kernel
  · decide +kernel
  · decide +kernel
  · exact ⟨by decide +kernel, by decide +kernel, by decide +kernel, by decide +kernel, by decide +kernel, by decide +kernel,
        by decide +kernel, by decide +kernel, by decide +kernel, by decide +kernel⟩
  · exact ⟨by decide +kernel, by decide +kernel, by decide +kernel, by decide +kernel, by decide +kernel, by decide +kernel,
        by decide +kernel, by decide +kernel, by decide +kernel, by decide +kernel, by decide +kernel, by decide +kernel,
        by (unfold Lands; decide +kernel)⟩
  · decide +kernel
  · decide +kernel
  · decide +kernel
  · exact ⟨by decide +kernel, by decide +kernel, by decide +kernel, by decide +kernel, by decide +kernel, by decide +kernel,
        by decide +kernel, by (unfold Lands; decide +kernel)⟩
  · decide +kernel
  · exact ⟨by decide +kernel, by decide +kernel⟩
  · decide +kernel

/-- States and operands that meet the hypotheses of QueuePairs, clause by clause. -/
theorem witness_QueuePairs :
    ((Granted (put [(R.hifQCq 0, F.hifQCqHostmem, 1)] (hq 0 { Hq.idle with run := [nop0] } (queue 0 0 0 on))) (.core 0) (R.hifQCtl ↑0)) ∧
          ((put [(R.hifQCq 0, F.hifQCqHostmem, 1)] (hq 0 { Hq.idle with run := [nop0] } (queue 0 0 0 on))).qState ↑0 = 0)) ∧
    ((Granted (hq 0 { Hq.idle with lost := [(9, 4)] } (queue 0 0 2 on)) (.core 0) (R.hifQCtl ↑0)) ∧ ((hq 0 { Hq.idle with lost := [(9, 4)] }
          (queue 0 0 2 on)).qState ↑0 ≠ 0) ∧ (((hq 0 { Hq.idle with lost := [(9, 4)] } (queue 0 0 2 on)).hqOf ↑0).run = [])) ∧
    ((1 < 65536) ∧ (1 < 256) ∧ (Granted (put [(R.hifQCq 0, F.hifQCqHostmem, 1)] (hq 0 { Hq.idle with run := [nop0] } (queue 0 0 0 on)))
          (.core 0) (R.hifDbSq ↑0)) ∧ ((put [(R.hifQCq 0, F.hifQCqHostmem, 1)] (hq 0 { Hq.idle with run := [nop0] } (queue 0 0 0
          on))).qState ↑0 = 0 ∨ (put [(R.hifQCq 0, F.hifQCqHostmem, 1)] (hq 0 { Hq.idle with run := [nop0] } (queue 0 0 0 on))).maySubmit
          (.core 0) ↑0 = false)) ∧
    ((((put [(R.hifQCq 0, F.hifQCqHostmem, 1)] (hq 0 { Hq.idle with run := [nop0] } (queue 0 0 0 on))).hqOf ↑0).irq = [] ∨ ((put [(R.hifQCq
          0, F.hifQCqHostmem, 1)] (hq 0 { Hq.idle with run := [nop0] } (queue 0 0 0 on))).hqOf ↑0).sent = true ∨ (put [(R.hifQCq 0,
          F.hifQCqHostmem, 1)] (hq 0 { Hq.idle with run := [nop0] } (queue 0 0 0 on))).flag (R.hifQIrq ↑0) F.hifQIrqEn = false)) ∧
    ((1 < 65536) ∧ (1 < 256) ∧ (Granted (queue 0 0 2 on) (.core 0) (R.hifDbSq ↑0)) ∧ ((queue 0 0 2 on).qState ↑0 ≠ 0) ∧ ((queue 0 0 2
          on).maySubmit (.core 0) ↑0 = true) ∧ ((queue 0 0 2 on).depth ↑0 ≠ 0) ∧ ((queue 0 0 2 on).qState ↑0 = 2)) ∧
    ((1 < 65536) ∧ (Granted (queue 0 0 1 on) (.core 0) (R.hifDbCq ↑0)) ∧ ((queue 0 0 1 on).qState ↑0 ≠ 0) ∧ ((queue 0 0 1 on).maySubmit
          (.core 0) ↑0 = true) ∧ ((queue 0 0 1 on).depth ↑0 ≠ 0) ∧ (2 * (queue 0 0 1 on).depth ↑0 ≤ 1 ∨ ((queue 0 0 1 on).hqOf ↑0).cqTail -
          ((queue 0 0 1 on).hqOf ↑0).cqHead < (1 + 2 * (queue 0 0 1 on).depth ↑0 - ((queue 0 0 1 on).hqOf ↑0).cqHead % (2 * (queue 0 0 1
          on).depth ↑0)) % (2 * (queue 0 0 1 on).depth ↑0))) ∧
    ((0 < 65536) ∧ (Granted (queue 0 0 1 on) (.core 0) (R.hifDbCq ↑0)) ∧ ((queue 0 0 1 on).qState ↑0 ≠ 0) ∧ ((queue 0 0 1 on).maySubmit
          (.core 0) ↑0 = true) ∧ ((queue 0 0 1 on).depth ↑0 ≠ 0) ∧ (0 < 2 * (queue 0 0 1 on).depth ↑0) ∧ ((0 + 2 * (queue 0 0 1 on).depth ↑0
          - ((queue 0 0 1 on).hqOf ↑0).cqHead % (2 * (queue 0 0 1 on).depth ↑0)) % (2 * (queue 0 0 1 on).depth ↑0) ≤ ((queue 0 0 1 on).hqOf
          ↑0).cqTail - ((queue 0 0 1 on).hqOf ↑0).cqHead)) ∧
    ((((queue 0 0 0 on).hqOf ↑0).irq = [] ∨ ((queue 0 0 0 on).hqOf ↑0).sent = true ∨ (queue 0 0 0 on).flag (R.hifQIrq ↑0) F.hifQIrqEn =
          false)) := by
  refine ⟨?_, ?_, ?_, ?_, ?_, ?_, ?_, ?_⟩
  · (unfold Granted; decide +kernel)
  · (unfold Granted; decide +kernel)
  · (unfold Granted; decide +kernel)
  · decide +kernel
  · (unfold Granted; decide +kernel)
  · (unfold Granted; decide +kernel)
  · (unfold Granted; decide +kernel)
  · decide +kernel

/-- States and operands that meet the hypotheses of FetchingAndAcceptance, clause by clause. -/
theorem witness_FetchingAndAcceptance :
    ((((put [(R.psqJrnlStatus 0, F.psqJrnlStatusClosed, 1)] (journaled 0 0)).hqOf ↑0).hold = (entry 0 1 0 []) :: ([])) ∧ ((entry 0 1 0
          []).length ≤ 960) ∧ ((put [(R.psqJrnlStatus 0, F.psqJrnlStatusClosed, 1)] (journaled 0 0)).isPool ↑0 = false) ∧ ((put
          [(R.psqJrnlStatus 0, F.psqJrnlStatusClosed, 1)] (journaled 0 0)).acceptHeld ↑0 = false) ∧ ((put [(R.psqJrnlStatus 0,
          F.psqJrnlStatusClosed, 1)] (journaled 0 0)).flag (R.psqJrnlStatus ((put [(R.psqJrnlStatus 0, F.psqJrnlStatusClosed, 1)] (journaled
          0 0)).qpOwner ↑0)) F.psqJrnlStatusOpen = false ∨ (put [(R.psqJrnlStatus 0, F.psqJrnlStatusClosed, 1)] (journaled 0 0)).flag
          (R.psqJrnlStatus ((put [(R.psqJrnlStatus 0, F.psqJrnlStatusClosed, 1)] (journaled 0 0)).qpOwner ↑0)) F.psqJrnlStatusClosed =
          true)) ∧
    ((((tainted 0x601800 (journaled 0 0)).hqOf ↑0).hold = (entry 0 1 0 []) :: ([])) ∧ ((entry 0 1 0 []).length ≤ 960) ∧ ((tainted 0x601800
          (journaled 0 0)).isPool ↑0 = false) ∧ ((tainted 0x601800 (journaled 0 0)).acceptHeld ↑0 = false) ∧ ((tainted 0x601800 (journaled 0
          0)).flag (R.psqJrnlStatus ((tainted 0x601800 (journaled 0 0)).qpOwner ↑0)) F.psqJrnlStatusOpen = true) ∧ ((tainted 0x601800
          (journaled 0 0)).flag (R.psqJrnlStatus ((tainted 0x601800 (journaled 0 0)).qpOwner ↑0)) F.psqJrnlStatusClosed = false) ∧ ((tainted
          0x601800 (journaled 0 0)).bad ((tainted 0x601800 (journaled 0 0)).jSlot ((tainted 0x601800 (journaled 0 0)).qpOwner ↑0) ((tainted
          0x601800 (journaled 0 0)).fld (R.psqJrnlNext ((tainted 0x601800 (journaled 0 0)).qpOwner ↑0)) F.psqJrnlNextNext)) 64 = true)) ∧
    ((((journaled 1 1).hqOf ↑0).hold = (entry 0 1 0 []) :: ([])) ∧ ((entry 0 1 0 []).length ≤ 960) ∧ ((journaled 1 1).isPool ↑0 = false) ∧
          ((journaled 1 1).acceptHeld ↑0 = false) ∧ ((journaled 1 1).flag (R.psqJrnlStatus ((journaled 1 1).qpOwner ↑0)) F.psqJrnlStatusOpen
          = true) ∧ ((journaled 1 1).flag (R.psqJrnlStatus ((journaled 1 1).qpOwner ↑0)) F.psqJrnlStatusClosed = false) ∧ ((journaled 1
          1).bad ((journaled 1 1).jSlot ((journaled 1 1).qpOwner ↑0) ((journaled 1 1).fld (R.psqJrnlNext ((journaled 1 1).qpOwner ↑0))
          F.psqJrnlNextNext)) 64 = false) ∧ ((journaled 1 1).num ((journaled 1 1).jSlot ((journaled 1 1).qpOwner ↑0) ((journaled 1 1).fld
          (R.psqJrnlNext ((journaled 1 1).qpOwner ↑0)) F.psqJrnlNextNext) + 8) 4 = (journaled 1 1).epochOf ((journaled 1 1).qpOwner ↑0) ∧ 1
          ≤ (journaled 1 1).num ((journaled 1 1).jSlot ((journaled 1 1).qpOwner ↑0) ((journaled 1 1).fld (R.psqJrnlNext ((journaled 1
          1).qpOwner ↑0)) F.psqJrnlNextNext) + 12) 1 ∧ (journaled 1 1).num ((journaled 1 1).jSlot ((journaled 1 1).qpOwner ↑0) ((journaled 1
          1).fld (R.psqJrnlNext ((journaled 1 1).qpOwner ↑0)) F.psqJrnlNextNext) + 12) 1 ≤ 3)) ∧
    ((((poolQueue { Hq.idle with hold := [entry 0x20 1 0 []], run := List.replicate 4096 poolCmd }).hqOf ↑2).hold = (entry 0x20 1 0 []) ::
          ([])) ∧ ((entry 0x20 1 0 []).length ≤ 512) ∧ ((poolQueue
          { Hq.idle with hold := [entry 0x20 1 0 []], run := List.replicate 4096 poolCmd }).isPool ↑2 = true) ∧ ((poolQueue
          { Hq.idle with hold := [entry 0x20 1 0 []], run := List.replicate 4096 poolCmd }).acceptHeld ↑2 = false) ∧ ((poolQueue
          { Hq.idle with hold := [entry 0x20 1 0 []], run := List.replicate 4096 poolCmd }).flag R.hifPoolRing F.hifPoolRingEnable = true) ∧
          ((poolQueue { Hq.idle with hold := [entry 0x20 1 0 []], run := List.replicate 4096 poolCmd }).qState ↑2 ≠ 0) ∧ ((poolQueue
          { Hq.idle with hold := [entry 0x20 1 0 []], run := List.replicate 4096 poolCmd }).fld (R.hifQErr ↑2) F.hifQErrCode ≠ 3) ∧ (4096 ≤
          (List.map (fun i => if (poolQueue { Hq.idle with hold := [entry 0x20 1 0 []], run := List.replicate 4096 poolCmd }).isPool i =
          true then (List.filter (fun c => !c.done) ((poolQueue
          { Hq.idle with hold := [entry 0x20 1 0 []], run := List.replicate 4096 poolCmd }).hqOf i).run).length else 0) (List.range
          64)).sum)) := by
  refine ⟨?_, ?_, ?_, ?_⟩
  · decide +kernel
  · decide +kernel
  · decide +kernel
  · decide +kernel

/-- States and operands that meet the hypotheses of HostCommands, clause by clause. -/
theorem witness_HostCommands :
    ((((run0 nop0 on).nextCmd ↑0 fun x => x == 0) = some nop0) ∧ (Settled (run0 nop0 on) ↑0) ∧ ((run0 nop0 on).isPool ↑0 = false)) ∧
    ((((tainted 0xB0000 (run0 (copyCmd 0 5000) on)).nextCmd ↑0 fun x => x == 2) = some (copyCmd 0 5000)) ∧ (Settled (tainted 0xB0000 (run0
          (copyCmd 0 5000) on)) ↑0) ∧ ((tainted 0xB0000 (run0 (copyCmd 0 5000) on)).isPool ↑0 = false) ∧ ((tainted 0xB0000 (run0 (copyCmd 0
          5000) on)).lk.warnLow = false) ∧ (bit (numAt (copyCmd 0 5000).entry 28 1) 0 = false) ∧ (bit (numAt (copyCmd 0 5000).entry 28 1) 1
          = false ∨ true = true ∧ (tainted 0xB0000 (run0 (copyCmd 0 5000) on)).flag R.hifStatus F.hifStatusLinkUp = true) ∧ ((tainted
          0xB0000 (run0 (copyCmd 0 5000) on)).unreadable (numAt (copyCmd 0 5000).entry 8 8 + (copyCmd 0 5000).prog) (min 4096 (numAt
          (copyCmd 0 5000).entry 24 4 - (copyCmd 0 5000).prog)) = true) ∧ ((copyCmd 0 5000).prog + min 4096 (numAt (copyCmd 0 5000).entry 24
          4 - (copyCmd 0 5000).prog) < numAt (copyCmd 0 5000).entry 24 4)) ∧
    ((((run0 postCmd on).nextCmd ↑0 fun x => x == (0x11)) = some postCmd) ∧ (Settled (run0 postCmd on) ↑0) ∧ ((run0 postCmd on).isPool ↑0 =
          false) ∧ ((run0 postCmd on).firstLeft (↑0) postCmd.seq = true) ∧ ((run0 postCmd on).lk.warnLow = false) ∧ ((0x11) = 17) ∧ (0 <
          64)) ∧
    ((((run0 (psqCmd 1) on).nextCmd ↑0 fun x => x == (0x12)) = some (psqCmd 1)) ∧ (Settled (run0 (psqCmd 1) on) ↑0) ∧ ((run0 (psqCmd 1)
          on).isPool ↑0 = false) ∧ ((run0 (psqCmd 1) on).firstLeft (↑0) (psqCmd 1).seq = true) ∧ ((run0 (psqCmd 1) on).lk.warnLow = false) ∧
          ((0x12) = 18) ∧ ((run0 (psqCmd 1) on).lk.resume.testBit ((run0 (psqCmd 1) on).qpOwner ↑0) = false)) ∧
    ((((finished on 0 false).hqOf ↑0).fin = ((2, 0)) :: ([])) ∧ (List.find? (fun c => (c.seq, c.era) == ((2, 0))) ((finished on 0
          false).hqOf ↑0).run = some doneCmd) ∧ ((finished on 0 false).qState ↑0 ≠ 0) ∧ ((finished on 0 false).fld (R.hifQErr ↑0)
          F.hifQErrCode ≠ 3) ∧ (¬((finished on 0 false).flag (R.hifQCq ↑0) F.hifQCqHostmem = true ∧ (true = false ∨ (finished on 0
          false).flag R.hifStatus F.hifStatusLinkUp = false))) ∧ (((finished on 0 false).hqOf ↑0).deleting = false) ∧ (Separate (cqBut
          (finished on 0 false) ↑0 ++ if (finished on 0 false).isPool ↑0 = true then [] else [recordAt (finished on 0 false) (↑0) doneCmd]))
          ∧ ((finished on 0 false).isPool ↑0 = false)) ∧
    ((Granted (poolQueue { Hq.idle with run := [poolCmd] }) (.core 0) R.hifPoolDone) ∧ (List.find? (fun c => !c.done && c.cid == 9 % 65536)
          ((poolQueue { Hq.idle with run := [poolCmd] }).hqOf ↑2).run = some poolCmd) ∧ ((poolQueue
          { Hq.idle with run := [poolCmd] }).isPool ↑2 = true) ∧ (0 = 0 ∨ 0 = 11)) ∧
    ((Granted (run0 nop0 on) (.core 0) R.hifPoolDone) ∧ (List.find? (fun c => !c.done && c.cid == 9 % 65536) ((run0 nop0 on).hqOf ↑0).run =
          none ∨ (run0 nop0 on).isPool ↑0 = false ∨ 0 % 256 ≠ 0 ∧ 0 % 256 ≠ 11)) ∧
    ((Granted (run0 nop0 on) (.core 0) R.hifPoolRing) ∧ ((0x8C0000000) < 2 ^ 52) ∧ (Lands (run0 nop0 on) ((0x8C0000000) / 2 ^ 22 * 2 ^ 22 +
          2097152) 8)) := by
  refine ⟨?_, ?_, ?_, ?_, ?_, ?_, ?_, ?_⟩
  · (unfold Settled; decide +kernel)
  · (unfold Settled; decide +kernel)
  · (unfold Settled; decide +kernel)
  · (unfold Settled; decide +kernel)
  · (unfold Separate; decide +kernel)
  · (unfold Granted; decide +kernel)
  · (unfold Granted; decide +kernel)
  · (unfold Granted Lands; decide +kernel)

/-- States and operands that meet the hypotheses of UnitFailures, clause by clause. -/
theorem witness_UnitFailures :
    ((on.domainUp 8 = true) ∧ (5 ≤ 5)) ∧
    ((on.domainUp 8 = true) ∧ (20 < 32) ∧ (on.failEng.testBit 20 = false) ∧ (on.engOwner 20 = none)) ∧
    ((on.domainUp 8 = true) ∧ (0 < 8) ∧ (on.failPvu.testBit 0 = false) ∧ (on.pvuOwner 0 = some 0)) ∧
    ((({ on with failTc := 1 }).domainUp 8 = true) ∧ (0 < 256) ∧ (({ on with failTc := 1 }).failTc.testBit 0 = true)) ∧
    ((({ on with failQuay := 2 }).domainUp 8 = true) ∧ (1 < 16) ∧ (({ on with failQuay := 2 }).failQuay.testBit 1 = true)) ∧
    ((on.domainUp 8 = true) ∧ (0 < 16) ∧ (on.failQuay.testBit 0 = false) ∧ (on.octOwner 0 = some 0) ∧ (on.failQuay.testBit (0 ^^^ 1) =
          false)) ∧
    ((on.domainUp 8 = true) ∧ (0 < 96) ∧ (0 ∈ on.portStakes (0 / 8))) ∧
    ((on.domainUp 8 = true) ∧ (0 < 12) ∧ (0 ∈ on.portStakes 0)) := by
  refine ⟨?_, ?_, ?_, ?_, ?_, ?_, ?_, ?_⟩
  · decide +kernel
  · decide +kernel
  · decide +kernel
  · decide +kernel
  · decide +kernel
  · decide +kernel
  · decide +kernel
  · decide +kernel

/-- States and operands that meet the hypotheses of JournalReplays, clause by clause. -/
theorem witness_JournalReplays :
    ((¬(on.replay.testBit ↑0 = true ∧ on.enabled ↑0 = true ∧ on.wrapperOpen (R.psqStatus ↑0) = true ∧ on.fld (R.memStatus (octetOf (on.stake
          ↑0).jrnlBase / 2)) F.memStatusState = 1))) := by
  decide +kernel

/-- States and operands that meet the hypotheses of ManagementCommands, clause by clause. -/
theorem witness_ManagementCommands :
    (((linked 0 1 0).mgmtUp ({ rq with level := 2 }).i3c = true) ∧ (((Sys2Proof.Instr.getStatus
          { i3c := false, level := 2, tag := 7, rsvd := 0, auth := some { slot := 0, sigOk := true } }, 1)) ∈ [(Instr.getStatus
          ({ rq with level := 2 }), 1), (Instr.getNonce ({ rq with level := 2 }), 2), (Instr.getLog ({ rq with level := 2 }) 0, 3)]) ∧
          (({ rq with level := 2 }).level ≠ 1)) ∧
    (((linked 0 1 0).mgmtUp ({ rq with rsvd := 1 }).i3c = true) ∧ (((Sys2Proof.Instr.getStatus
          { i3c := false, level := 1, tag := 7, rsvd := 1, auth := some { slot := 0, sigOk := true } }, 1)) ∈ [(Instr.getStatus
          ({ rq with rsvd := 1 }), 1), (Instr.getNonce ({ rq with rsvd := 1 }), 2), (Instr.getLog ({ rq with rsvd := 1 }) 0, 3)]) ∧
          (({ rq with rsvd := 1 }).level = 1) ∧ (({ rq with rsvd := 1 }).rsvd ≠ 0)) ∧
    ((rom.mgmtUp rq.i3c = true) ∧ (((Sys2Proof.Instr.enrollKey
          { i3c := false, level := 1, tag := 7, rsvd := 0, auth := some { slot := 0, sigOk := true } }
          0x000000000000000000000000000000000000000000000000000000000000000000000000000000000000000000000000#384, 18, true)) ∈
          [(Instr.flashWrite rq 0 ([1, 2]), 16, false), (Instr.flashCommit rq 0 firmware.length true, 17, true), (Instr.enrollKey rq 0, 18,
          true), (Instr.revokeKey rq 0, 19, true), (Instr.advanceRollback rq 2, 20, true), (Instr.secretPut rq 3 ([1, 2]), 21, false),
          (Instr.debugOpen rq, 22, true), (Instr.moduleReset rq, 23, false)]) ∧ (rom.fld R.secState F.secStateBoot = 2) ∧ (18 ≤
          ((Sys2Proof.Instr.enrollKey { i3c := false, level := 1, tag := 7, rsvd := 0, auth := some { slot := 0, sigOk := true } }
          0x000000000000000000000000000000000000000000000000000000000000000000000000000000000000000000000000#384, 18, true)).2.1)) ∧
    (((linked 0 1 0).mgmtUp ({ rq with level := 2 }).i3c = true) ∧ (((Sys2Proof.Instr.flashWrite
          { i3c := false, level := 2, tag := 7, rsvd := 0, auth := some { slot := 0, sigOk := true } } 0 [0x01#8, 0x02#8], 16, false)) ∈
          [(Instr.flashWrite ({ rq with level := 2 }) 0 ([1, 2]), 16, false), (Instr.flashCommit ({ rq with level := 2 }) 0 firmware.length
          true, 17, true), (Instr.enrollKey ({ rq with level := 2 }) 0, 18, true), (Instr.revokeKey ({ rq with level := 2 }) 0, 19, true),
          (Instr.advanceRollback ({ rq with level := 2 }) 2, 20, true), (Instr.secretPut ({ rq with level := 2 }) 3 ([1, 2]), 21, false),
          (Instr.debugOpen ({ rq with level := 2 }), 22, true), (Instr.moduleReset ({ rq with level := 2 }), 23, false)]) ∧ (¬(linked 0 1
          0).fld R.secState F.secStateBoot = 2 ∨ ((Sys2Proof.Instr.flashWrite
          { i3c := false, level := 2, tag := 7, rsvd := 0, auth := some { slot := 0, sigOk := true } } 0 [0x01#8, 0x02#8], 16, false)).2.1 <
          18) ∧ (({ rq with level := 2 }).level ≠ 1)) ∧
    (((linked 0 1 0).mgmtUp ({ rq with rsvd := 1 }).i3c = true) ∧ (((Sys2Proof.Instr.flashWrite
          { i3c := false, level := 1, tag := 7, rsvd := 1, auth := some { slot := 0, sigOk := true } } 0 [0x01#8, 0x02#8], 16, false)) ∈
          [(Instr.flashWrite ({ rq with rsvd := 1 }) 0 ([1, 2]), 16, false), (Instr.flashCommit ({ rq with rsvd := 1 }) 0 firmware.length
          true, 17, true), (Instr.enrollKey ({ rq with rsvd := 1 }) 0, 18, true), (Instr.revokeKey ({ rq with rsvd := 1 }) 0, 19, true),
          (Instr.advanceRollback ({ rq with rsvd := 1 }) 2, 20, true), (Instr.secretPut ({ rq with rsvd := 1 }) 3 ([1, 2]), 21, false),
          (Instr.debugOpen ({ rq with rsvd := 1 }), 22, true), (Instr.moduleReset ({ rq with rsvd := 1 }), 23, false)]) ∧ (¬(linked 0 1
          0).fld R.secState F.secStateBoot = 2 ∨ ((Sys2Proof.Instr.flashWrite
          { i3c := false, level := 1, tag := 7, rsvd := 1, auth := some { slot := 0, sigOk := true } } 0 [0x01#8, 0x02#8], 16, false)).2.1 <
          18) ∧ (({ rq with rsvd := 1 }).level = 1) ∧ (({ rq with rsvd := 1 }).rsvd ≠ 0)) ∧
    (((sm (fun c => { c with busy := 0x11 }) mg).mgmtUp rq.i3c = true) ∧ (((Sys2Proof.Instr.flashWrite
          { i3c := false, level := 1, tag := 7, rsvd := 0, auth := some { slot := 0, sigOk := true } } 0 [0x01#8, 0x02#8], 16, false)) ∈
          [(Instr.flashWrite rq 0 ([1, 2]), 16, false), (Instr.flashCommit rq 0 firmware.length true, 17, true), (Instr.enrollKey rq 0, 18,
          true), (Instr.revokeKey rq 0, 19, true), (Instr.advanceRollback rq 2, 20, true), (Instr.secretPut rq 3 ([1, 2]), 21, false),
          (Instr.debugOpen rq, 22, true), (Instr.moduleReset rq, 23, false)]) ∧ (¬(sm (fun c => { c with busy := 0x11 }) mg).fld R.secState
          F.secStateBoot = 2 ∨ ((Sys2Proof.Instr.flashWrite
          { i3c := false, level := 1, tag := 7, rsvd := 0, auth := some { slot := 0, sigOk := true } } 0 [0x01#8, 0x02#8], 16, false)).2.1 <
          18) ∧ (rq.level = 1 ∧ rq.rsvd = 0) ∧ ((sm (fun c => { c with busy := 0x11 }) mg).sec.busy ≠ 0)) ∧
    ((on.mgmtUp ({ rq with i3c := true }).i3c = true) ∧ (((Sys2Proof.Instr.flashWrite
          { i3c := true, level := 1, tag := 7, rsvd := 0, auth := some { slot := 0, sigOk := true } } 0 [0x01#8, 0x02#8], 16, false)) ∈
          [(Instr.flashWrite ({ rq with i3c := true }) 0 ([1, 2]), 16, false), (Instr.flashCommit ({ rq with i3c := true }) 0
          firmware.length true, 17, true), (Instr.enrollKey ({ rq with i3c := true }) 0, 18, true), (Instr.revokeKey
          ({ rq with i3c := true }) 0, 19, true), (Instr.advanceRollback ({ rq with i3c := true }) 2, 20, true), (Instr.secretPut
          ({ rq with i3c := true }) 3 ([1, 2]), 21, false), (Instr.debugOpen ({ rq with i3c := true }), 22, true), (Instr.moduleReset
          ({ rq with i3c := true }), 23, false)]) ∧ (¬on.fld R.secState F.secStateBoot = 2 ∨ ((Sys2Proof.Instr.flashWrite
          { i3c := true, level := 1, tag := 7, rsvd := 0, auth := some { slot := 0, sigOk := true } } 0 [0x01#8, 0x02#8], 16, false)).2.1 <
          18) ∧ (({ rq with i3c := true }).level = 1 ∧ ({ rq with i3c := true }).rsvd = 0) ∧ (on.sec.busy = 0) ∧ (¬∃ a,
          ({ rq with i3c := true }).auth = some a ∧ a.slot < 4 ∧ on.fuses.usable a.slot = true ∧ a.sigOk = true ∧ on.sec.nonce = true)) ∧
    ((mg.mgmtUp rq.i3c = true) ∧ ((rq.level = 1 ∧ rq.rsvd = 0) ∧ mg.sec.busy = 0 ∧ ∃ a, rq.auth = some a ∧ a.slot < 4 ∧ mg.fuses.usable
          a.slot = true ∧ a.sigOk = true ∧ mg.sec.nonce = true) ∧ (([1, 2]).length ≤ 4096) ∧ (0 + ([1, 2]).length ≤ 16777216) ∧ (0 < ([1,
          2]).length)) ∧
    ((mg.mgmtUp rq.i3c = true) ∧ ((rq.level = 1 ∧ rq.rsvd = 0) ∧ mg.sec.busy = 0 ∧ ∃ a, rq.auth = some a ∧ a.slot < 4 ∧ mg.fuses.usable
          a.slot = true ∧ a.sigOk = true ∧ mg.sec.nonce = true) ∧ (([1, 2]).length ≤ 4096) ∧ (0 + ([1, 2]).length ≤ 16777216) ∧ (6 < 0 ∨ 0 +
          ([1, 2]).length ≤ 6)) ∧
    ((mg.mgmtUp rq.i3c = true) ∧ ((rq.level = 1 ∧ rq.rsvd = 0) ∧ mg.sec.busy = 0 ∧ ∃ a, rq.auth = some a ∧ a.slot < 4 ∧ mg.fuses.usable
          a.slot = true ∧ a.sigOk = true ∧ mg.sec.nonce = true) ∧ (¬mg.fld R.secState F.secStateBoot = 2) ∧ (3 < 64) ∧ (([1, 2]).length ≤
          1024)) ∧
    ((mg.mgmtUp rq.i3c = true) ∧ ((rq.level = 1 ∧ rq.rsvd = 0) ∧ mg.sec.busy = 0 ∧ ∃ a, rq.auth = some a ∧ a.slot < 4 ∧ mg.fuses.usable
          a.slot = true ∧ a.sigOk = true ∧ mg.sec.nonce = true) ∧ (¬mg.fld R.secState F.secStateBoot = 2) ∧ (mg.lk.warnLow = false) ∧
          ((firstOf 4 fun i => !mg.fuses.valid.testBit i && !mg.fuses.revoked.testBit i) = some (1))) ∧
    ((mg.mgmtUp rq.i3c = true) ∧ ((rq.level = 1 ∧ rq.rsvd = 0) ∧ mg.sec.busy = 0 ∧ ∃ a, rq.auth = some a ∧ a.slot < 4 ∧ mg.fuses.usable
          a.slot = true ∧ a.sigOk = true ∧ mg.sec.nonce = true) ∧ (¬mg.fld R.secState F.secStateBoot = 2) ∧ (mg.lk.warnLow = false) ∧ (4 ≤ 0
          ∨ ((List.range 4).any fun i => i != 0 && mg.fuses.usable i) = false)) := by
  refine ⟨?_, ?_, ?_, ?_, ?_, ?_, ?_, ?_, ?_, ?_, ?_, ?_⟩
  · decide +kernel
  · decide +kernel
  · decide +kernel
  · decide +kernel
  · decide +kernel
  · decide +kernel
  · exact ⟨by decide +kernel, by decide +kernel, by decide +kernel, by decide +kernel, by decide +kernel, by decide +kernel⟩
  · exact ⟨by decide +kernel, by decide +kernel, by decide +kernel, by decide +kernel, by decide +kernel⟩
  · exact ⟨by decide +kernel, by decide +kernel, by decide +kernel, by decide +kernel, by decide +kernel⟩
  · exact ⟨by decide +kernel, by decide +kernel, by decide +kernel, by decide +kernel, by decide +kernel⟩
  · exact ⟨by decide +kernel, by decide +kernel, by decide +kernel, by decide +kernel, by decide +kernel⟩
  · exact ⟨by decide +kernel, by decide +kernel, by decide +kernel, by decide +kernel, by decide +kernel⟩

/-- States and operands that meet the hypotheses of SpdmAndDoe, clause by clause. -/
theorem witness_SpdmAndDoe :
    (((spd 0 0 up2).mgmtUp true = true) ∧ (((spd 0 0 up2).sp true).phase < 1)) ∧
    (((spd 1 0 up2).mgmtUp true = true) ∧ (1 ≤ ((spd 1 0 up2).sp true).phase) ∧ ((0x12) = 18 ∨ (0x12) = 19)) ∧
    (((spd 1 0 up2).mgmtUp true = true) ∧ (1 ≤ ((spd 1 0 up2).sp true).phase) ∧ ((0x11) ≠ 18) ∧ ((0x11) ≠ 19)) ∧
    (((spd 0 0 up2).mgmtUp true = true) ∧ (((spd 0 0 up2).sp true).phase < 2)) ∧
    (((spd 2 0 up2).mgmtUp true = true) ∧ (2 ≤ ((spd 2 0 up2).sp true).phase)) ∧
    (((spd 0 0 up2).mgmtUp true = true) ∧ (((spd 0 0 up2).sp true).phase < 3) ∧ ((Sys2Proof.Instr.spdmGetDigests true) ∈
          [Instr.spdmGetDigests true, Instr.spdmGetCertificate true 0 0 5, Instr.spdmChallenge true 0 (List.replicate 32 7),
          Instr.spdmGetMeasurements true 0 true])) ∧
    (((spd 3 0 up2).mgmtUp true = true) ∧ (3 ≤ ((spd 3 0 up2).sp true).phase) ∧ (0 ≤ (spd 3 0 up2).certChain.length)) ∧
    (((spd 3 0 up2).mgmtUp true = true) ∧ (3 ≤ ((spd 3 0 up2).sp true).phase) ∧ (1 ≠ 0)) ∧
    (((spd 3 0 up2).mgmtUp true = true) ∧ (3 ≤ ((spd 3 0 up2).sp true).phase) ∧ ((spd 3 0 up2).measFor 0 = some ([0x05#8]))) ∧
    (((spd 3 0 up2).mgmtUp true = true) ∧ (3 ≤ ((spd 3 0 up2).sp true).phase) ∧ (5 < 6) ∧ (6 ≠ 255)) ∧
    (((spd 3 0 up3).mgmtUp true = true) ∧ ((Sys2Proof.Instr.spdmKeyExchange true 5) ∈ [Instr.spdmKeyExchange true 5, Instr.spdmFinish true
          true, Instr.spdmHeartbeat true, Instr.spdmKeyUpdate true 0, Instr.spdmEndSession true]) ∧ ((spd 3 0 up3).fld R.secState
          F.secStateBoot = 2)) ∧
    (((spd 0 0 up2).mgmtUp true = true) ∧ ((Sys2Proof.Instr.spdmKeyExchange true 5) ∈ [Instr.spdmKeyExchange true 5, Instr.spdmFinish true
          true, Instr.spdmHeartbeat true, Instr.spdmKeyUpdate true 0, Instr.spdmEndSession true]) ∧ (¬(spd 0 0 up2).fld R.secState
          F.secStateBoot = 2) ∧ (((spd 0 0 up2).sp true).phase < 3)) := by
  refine ⟨?_, ?_, ?_, ?_, ?_, ?_, ?_, ?_, ?_, ?_, ?_, ?_⟩
  · decide +kernel
  · decide +kernel
  · decide +kernel
  · decide +kernel
  · decide +kernel
  · decide +kernel
  · decide +kernel
  · decide +kernel
  · decide +kernel
  · decide +kernel
  · decide +kernel
  · decide +kernel

/-- States and operands that meet the hypotheses of StepTakesFrontCommand, clause by clause. -/
theorem witness_StepTakesFrontCommand :
    ((({ on with pending := [.flr, .powerOn] }).pending = (.flr) :: ([.powerOn]))) ∧
    ((State.reset.pending = []) ∧ (State.reset.lk.powered = false)) ∧
    ((on.pending = []) ∧ (on.lk.powered = true)) := by
  refine ⟨?_, ?_, ?_⟩
  · decide +kernel
  · decide +kernel
  · decide +kernel

/-- States and operands that meet the hypotheses of DeleteAndRestart, clause by clause. -/
theorem witness_DeleteAndRestart :
    ((((queue 0 0 0 on).hqOf ↑0).deleting = true ∨ (queue 0 0 0 on).qState ↑0 = 0)) ∧
    ((Granted (queue 0 0 1 on) (.core 0) (R.hifQCtl ↑0)) ∧ ((queue 0 0 1 on).qState ↑0 ≠ 0)) ∧
    ((Granted (queue 0 0 0 on) (.core 0) (R.hifQCtl ↑0)) ∧ ((queue 0 0 0 on).qState ↑0 ≠ 2)) ∧
    ((Granted (queue 0 0 2 on) (.core 0) (R.hifQCtl ↑0)) ∧ ((queue 0 0 2 on).qState ↑0 = 2) ∧ ((queue 0 0 2 on).cqFails (↑0) true = false))
          ∧
    ((((finished on 0 true).hqOf ↑0).deleting = true) ∧ ((finished on 0 true).qState ↑0 ≠ 0) ∧ (((finished on 0 true).hqOf ↑0).fin =
          (doneCmd.seq, doneCmd.era) :: ([])) ∧ (List.find? (fun x => (x.seq, x.era) == (doneCmd.seq, doneCmd.era)) ((finished on 0
          true).hqOf ↑0).run = some doneCmd) ∧ ((finished on 0 true).fld (R.hifQErr ↑0) F.hifQErrCode ≠ 3) ∧ ((finished on 0 true).flag
          (R.hifQCq ↑0) F.hifQCqHostmem = false)) := by
  refine ⟨?_, ?_, ?_, ?_, ?_⟩
  · decide +kernel
  · (unfold Granted; decide +kernel)
  · (unfold Granted; decide +kernel)
  · (unfold Granted; decide +kernel)
  · decide +kernel

end Sys2Proof.Tests
end

section
/-! PROOFS. The module at reset (R10, R349, R350). -/

namespace Sys2Proof.Machine

/-- Without input no domain is released, whatever the phase and the forced domains read (R349). -/
theorem State.domainUp_of_unpowered {s : State} (h : s.lk.powered = false) (n : Nat) : s.domainUp n = false := by
  simp [State.domainUp, h]

theorem State.blockUp_of_unpowered {s : State} (h : s.lk.powered = false) (n i : Nat) : s.blockUp n i = false := by
  simp [State.blockUp, State.domainUp_of_unpowered h]

/-- Without input every wrapper is closed: each opens with the domain of its block, and the Lockkeeper's with the input itself (R370). -/
theorem State.wrapperOpen_of_unpowered {s : State} (h : s.lk.powered = false) (a : Nat) : s.wrapperOpen a = false := by
  simp [State.wrapperOpen, State.blockUp_of_unpowered h, h]

/-- Without an active weave no stake is enabled. -/
theorem State.enabled_of_no_weave {s : State} (h : s.weave.active = false) (k : Nat) : s.enabled k = false := by
  simp [State.enabled, h]

/-- A register that the map does not list holds its reset value (R10). -/
theorem State.reg_of_unlisted {s : State} {a : Nat} (h : KMap.find s.regs a = none) : s.reg a = regReset a := by
  simp [State.reg, KMap.get, h]

end Sys2Proof.Machine

open Sys2Proof.Machine in
/-- Settles O55: no register and no byte is listed at reset, and there is neither input nor weave. -/
theorem resetState : Obligations.ResetState := by
  have unpowered : State.reset.lk.powered = false := rfl
  exact ⟨rfl, rfl, rfl, unpowered, fun _ => State.reg_of_unlisted rfl, State.domainUp_of_unpowered unpowered,
    State.wrapperOpen_of_unpowered unpowered, State.enabled_of_no_weave rfl, KMap.canon_nil regReset, KMap.canon_nil _⟩

end

section
/-! PROOFS. Changes to registers alone: the frame that register writes, their outcomes and their drops share (R371-R373). -/

namespace Sys2Proof.Machine

/-- Registers of `l` at most have changed; memory and what the SEC holds stand. -/
structure RegsOnly (l : List Nat) (s t : State) : Prop where
  regs   : SameRegs l s t
  memory : SameMemory s t
  held   : SameModule s t

theorem RegsOnly.refl (l : List Nat) (s : State) : RegsOnly l s s :=
  ⟨fun _ _ => rfl, fun _ => rfl, rfl, rfl, rfl, rfl, rfl, rfl, rfl, rfl, rfl⟩

theorem RegsOnly.weave {l : List Nat} {s t : State} (h : RegsOnly l s t) : t.weave = s.weave := h.held.1

theorem RegsOnly.setReg {l : List Nat} {z s : State} (h : RegsOnly l z s) {a : Nat} (ha : a ∈ l) (v : Word) :
    RegsOnly l z (s.setReg a v) := by
  refine ⟨fun b hb => ?_, h.memory, h.held⟩
  rw [s.reg_setReg_other a b v (fun e => hb (e ▸ ha))]
  exact h.regs b hb

theorem RegsOnly.setFld {l : List Nat} {z s : State} (h : RegsOnly l z s) {a : Nat} (ha : a ∈ l) (f : Fld) (v : Nat) :
    RegsOnly l z (s.setFld a f v) := h.setReg ha _

theorem RegsOnly.answer {l : List Nat} {z s : State} (h : RegsOnly l z s) (r : Resp) : RegsOnly l z (s.answer r) :=
  ⟨h.regs, h.memory, h.held⟩

theorem RegsOnly.hostRejected {l : List Nat} {z s : State} (h : RegsOnly l z s) (ha : R.hifErr ∈ l) : RegsOnly l z s.hostRejected :=
  h.setFld ha _ _

/-! ### the outcome of a write -/

/-- A register outside the Lockkeeper's block is no outcome register. -/
theorem ne_lkWstat {b : Nat} (m : Master) (h : (b - regBase) / 0x100000 ≠ 2) : b ≠ R.lkWstat m.num := by
  have := masterNum_lt m
  unfold regBase R.lkWstat at *
  omega

/-- The word of LK_WSTATm for outcome `out` of a write to `a` (R373). -/
def outcomeWord (a out : Nat) : Word := ((0 : Word).setFld F.lkWstatOutcome out).setFld F.lkWstatAddr (a / 8)

theorem fld_outcomeWord_outcome (a out : Nat) : (outcomeWord a out).fld F.lkWstatOutcome = out % 4 := by
  unfold outcomeWord
  rw [Word.fld_setFld_other _ _ _ _ _ _ (by decide)]
  exact Word.fld_setFld_same _ _ _ _ (by decide)

theorem fld_outcomeWord_addr (a out : Nat) : (outcomeWord a out).fld F.lkWstatAddr = a / 8 % 2 ^ F.lkWstatAddr.2 :=
  Word.fld_setFld_same _ _ _ _ (by decide)

theorem State.wstat_applied (s : State) (m : Master) (a : Nat) : s.wstat m a 1 = s.setReg (R.lkWstat m.num) (outcomeWord a 1) := by
  simp [State.wstat, outcomeWord]

theorem State.wstat_rejected (s : State) (m : Master) (a : Nat) :
    s.wstat m a 2 = if m = .host then (s.setReg (R.lkWstat m.num) (outcomeWord a 2)).hostRejected
      else s.setReg (R.lkWstat m.num) (outcomeWord a 2) := by
  simp [State.wstat, outcomeWord]

/-- Counting a rejected write of the host leaves the outcome recorded. -/
theorem State.reg_lkWstat_rejected (s : State) (m : Master) (a : Nat) :
    (s.wstat m a 2).reg (R.lkWstat m.num) = outcomeWord a 2 := by
  have hne : R.lkWstat m.num ≠ R.hifErr := (ne_lkWstat m (by decide)).symm
  rw [State.wstat_rejected]
  split
  · simp [State.hostRejected, State.addSat, State.reg_setFld, hne]
  · simp

/-! ### dropped writes -/

/-- A write of master `m` is dropped with an error response: registers of `l` at most have changed, and the host's count. -/
def DroppedWrite (m : Master) (l : List Nat) (s t : State) : Prop :=
  t.resp = .error ∧ SameRegs (if m = .host then R.hifErr :: l else l) s t ∧ SameMemory s t ∧ SameModule s t

theorem State.dropWrite_dropped (s : State) (m : Master) : DroppedWrite m [] s (s.dropWrite m) := by
  suffices h : RegsOnly (if m = .host then [R.hifErr] else []) s (s.dropWrite m) from ⟨rfl, h.regs, h.memory, h.held⟩
  unfold State.dropWrite
  split
  · exact ((RegsOnly.refl _ s).hostRejected (List.mem_singleton_self _)).answer _
  · exact (RegsOnly.refl _ s).answer _

theorem State.wstat_rejected_dropped (s : State) (m : Master) (a : Nat) :
    DroppedWrite m [R.lkWstat m.num] s ((s.wstat m a 2).answer .error) := by
  suffices h : RegsOnly (if m = .host then [R.hifErr, R.lkWstat m.num] else [R.lkWstat m.num]) s (s.wstat m a 2) from
    ⟨rfl, (h.answer _).regs, h.memory, h.held⟩
  rw [State.wstat_rejected]
  split
  · exact ((RegsOnly.refl _ s).setReg (List.mem_cons_of_mem _ (List.mem_singleton_self _)) _).hostRejected List.mem_cons_self
  · exact (RegsOnly.refl _ s).setReg (List.mem_singleton_self _) _

/-! ### the three ends of a write to a register -/

theorem State.command_closed {s : State} {a : Nat} (h : s.wrapperOpen a = false) (m : Master) (rivals : List Master)
    (body : State → State) : s.command m rivals a body = s.dropWrite m := by
  simp [State.command, h]

theorem State.command_unowned {s : State} {m : Master} {a : Nat} (ho : s.wrapperOpen a = true) (hm : s.mayWrite m a = false)
    (rivals : List Master) (body : State → State) : s.command m rivals a body = (s.wstat m a 2).answer .error := by
  simp [State.command, ho, hm]

/-- The state in which a granted write that beats no other acts: its outcome is recorded and answered. -/
def State.afterGrant (s : State) (m : Master) (a : Nat) : State := (s.wstat m a 1).answer .done

/-- A granted write that beats no other and that its block does not refuse does what its block says. -/
theorem State.command_granted {s t : State} {m : Master} {a : Nat} (h : Granted s m a) {body : State → State}
    (hbody : body (s.afterGrant m a) = t) (ht : t.resp = .done) : s.command m [] a body = t := by
  obtain ⟨hopen, hown⟩ := h
  have hrun : body (((s.wstat m a 1).supersede a m []).answer .done) = t := hbody
  simp [State.command, hopen, hown, hrun, ht]

@[simp] theorem State.afterGrant_resp (s : State) (m : Master) (a : Nat) : (s.afterGrant m a).resp = .done := rfl

theorem State.afterGrant_eq (s : State) (m : Master) (a : Nat) :
    s.afterGrant m a = (s.setReg (R.lkWstat m.num) (outcomeWord a 1)).answer .done := by
  rw [State.afterGrant, State.wstat_applied]

@[simp] theorem State.afterGrant_sec (s : State) (m : Master) (a : Nat) : (s.afterGrant m a).sec = s.sec := by
  rw [State.afterGrant_eq]; rfl

theorem State.reg_afterGrant (s : State) (m : Master) (a b : Nat) :
    (s.afterGrant m a).reg b = if b = R.lkWstat m.num then outcomeWord a 1 else s.reg b := by
  rw [State.afterGrant_eq]
  exact s.reg_setReg _ _ _

/-- A granted write finds every register outside the Lockkeeper's block as it was. -/
theorem State.reg_afterGrant_block (s : State) (m : Master) (a : Nat) {b : Nat} (h : (b - regBase) / 0x100000 ≠ 2) :
    (s.afterGrant m a).reg b = s.reg b := by
  rw [State.reg_afterGrant, if_neg (ne_lkWstat m h)]

theorem State.afterGrant_regsOnly (s : State) (m : Master) {a : Nat} {l : List Nat} (h : R.lkWstat m.num ∈ l) :
    RegsOnly l s (s.afterGrant m a) := by
  rw [State.afterGrant_eq]
  exact ((RegsOnly.refl l s).setReg h _).answer _

end Sys2Proof.Machine
end

section
/-! PROOFS. REGISTER_WRITE and PTB_ARM (R10, R257, R258, R372, R373, R390, R391). -/

namespace Sys2Proof.Machine

theorem exec_registerWrite (m : Master) (a : Nat) (v : Word) (s : State) :
    exec (.registerWrite m a v) s = .next (s.regWrite m a v) := rfl

theorem exec_ptbArm (m : Master) (v : Word) (s : State) :
    exec (.ptbArm m v) s = .next (s.command m [] R.ptbCtl (fun u => u.ptbArm v)) := rfl

/-! ### REGISTER_WRITE -/

theorem State.regWrite_absent {a : Nat} (h : a % 8 ≠ 0 ∨ isReg a = false ∨ regHere a = false) (s : State) (m : Master) (v : Word) :
    s.regWrite m a v = s.dropWrite m :=
  if_pos (by simpa using h)

theorem State.regWrite_present {a : Nat} (h8 : a % 8 = 0) (hr : isReg a = true) (hh : regHere a = true) (s : State) (m : Master)
    (v : Word) : s.regWrite m a v = s.command m [] a (fun u => u.regBody m a v) :=
  if_neg (by simp [h8, hr, hh])

theorem State.regWrite_closed {s : State} {a : Nat} (h : s.wrapperOpen a = false) (m : Master) (v : Word) :
    s.regWrite m a v = s.dropWrite m := by
  unfold State.regWrite
  rw [State.command_closed h, ite_self]

theorem regHere_of_findReg {a : Nat} {e : RegRow × Nat × Nat × Nat} (h : findReg a = some e) : regHere a = true := by
  simp [regHere, h]

/-- The address lies in a block whose registers have no effect beyond their bits: GLB, SEC, RDX and COH, the engines, stacks and
memories of a die, the quay units (R257). -/
def PlainBlock (a : Nat) : Prop :=
  let b := (a - regBase) / 0x100000
  let x := (a - regBase - 0x1000000) % 0x400000 / 0x10000
  b = 0 ∨ b = 3 ∨ b = 6 ∨ b = 8 ∨ (0x10 ≤ b ∧ b < 0x20 ∧ x ≠ 8 ∧ x ≠ 9 ∧ x ≠ 11 ∧ x ≠ 12) ∨ (0x30 ≤ b ∧ b < 0x40)

theorem PlainBlock.ne_two {a : Nat} (h : PlainBlock a) : (a - regBase) / 0x100000 ≠ 2 := by
  unfold PlainBlock at h
  omega

theorem State.regBody_plain {a : Nat} (h : PlainBlock a) (s : State) (m : Master) (v : Word) :
    s.regBody m a v = s.plainWrite a v := by
  unfold PlainBlock at h
  unfold State.regBody
  generalize a - regBase = o at h ⊢
  dsimp only at h ⊢
  rw [if_neg (by omega), if_neg (by omega), if_neg (by omega), if_neg (by omega), if_neg (by omega)]
  split
  · rw [if_neg (by omega), if_neg (by omega), if_neg (by omega)]
  · rw [if_neg (by omega), if_neg (by omega)]

theorem State.plainWrite_found {a : Nat} {e : RegRow × Nat × Nat × Nat} (h : findReg a = some e) (s : State) (v : Word) :
    s.plainWrite a v = s.setReg a (applyWrite e.1 (s.reg a) v) := by
  simp [State.plainWrite, h]

/-- A granted write to a register of a plain block writes its bits, and records that it was applied. -/
theorem State.regWrite_plain {s : State} {m : Master} {a : Nat} {e : RegRow × Nat × Nat × Nat} (he : findReg a = some e) (h8 : a % 8 = 0)
    (hr : isReg a = true) (hg : Granted s m a) (hp : PlainBlock a) (v : Word) :
    s.regWrite m a v = (s.afterGrant m a).setReg a (applyWrite e.1 (s.reg a) v) := by
  have hbody : (s.afterGrant m a).regBody m a v = (s.afterGrant m a).setReg a (applyWrite e.1 (s.reg a) v) := by
    rw [State.regBody_plain hp, State.plainWrite_found he, s.reg_afterGrant_block m a hp.ne_two]
  rw [State.regWrite_present h8 hr (regHere_of_findReg he)]
  exact State.command_granted hg hbody (by simp)

/-- Where no register is, the write is dropped. -/
theorem registerWrite_absent {a : Nat} (h : a % 8 ≠ 0 ∨ isReg a = false ∨ regHere a = false) (s : State) (m : Master) (v : Word) :
    Answers (exec (.registerWrite m a v) s) (DroppedWrite m [] s) := by
  rw [exec_registerWrite, State.regWrite_absent h]
  exact ⟨_, rfl, s.dropWrite_dropped m⟩

/-- At a closed wrapper the write is dropped. -/
theorem registerWrite_closed {s : State} {a : Nat} (h : s.wrapperOpen a = false) (m : Master) (v : Word) :
    Answers (exec (.registerWrite m a v) s) (DroppedWrite m [] s) := by
  rw [exec_registerWrite, State.regWrite_closed h]
  exact ⟨_, rfl, s.dropWrite_dropped m⟩

/-- The write of a master that is no owner is dropped, and recorded as rejected. -/
theorem registerWrite_unowned {s : State} {m : Master} {a : Nat} (h8 : a % 8 = 0) (hr : isReg a = true) (hh : regHere a = true)
    (ho : s.wrapperOpen a = true) (hm : s.mayWrite m a = false) (v : Word) :
    Answers (exec (.registerWrite m a v) s) (fun t => DroppedWrite m [R.lkWstat m.num] s t ∧
      t.fld (R.lkWstat m.num) F.lkWstatOutcome = 2 ∧ t.fld (R.lkWstat m.num) F.lkWstatAddr = a / 8 % 2 ^ F.lkWstatAddr.2) := by
  rw [exec_registerWrite, State.regWrite_present h8 hr hh, State.command_unowned ho hm]
  have hw : ((s.wstat m a 2).answer .error).reg (R.lkWstat m.num) = outcomeWord a 2 := s.reg_lkWstat_rejected m a
  refine ⟨_, rfl, s.wstat_rejected_dropped m a, ?_, ?_⟩
  · rw [State.fld, hw, fld_outcomeWord_outcome]
  · rw [State.fld, hw, fld_outcomeWord_addr]

/-- The write of an owner to a register of a plain block is applied. -/
theorem registerWrite_plain {s : State} {m : Master} {a : Nat} {e : RegRow × Nat × Nat × Nat} (he : findReg a = some e) (h8 : a % 8 = 0)
    (hr : isReg a = true) (hg : Granted s m a) (hp : PlainBlock a) (v : Word) :
    Answers (exec (.registerWrite m a v) s) (fun t => t.reg a = applyWrite e.1 (s.reg a) v ∧ t.resp = .done ∧
      t.fld (R.lkWstat m.num) F.lkWstatOutcome = 1 ∧ t.fld (R.lkWstat m.num) F.lkWstatAddr = a / 8 % 2 ^ F.lkWstatAddr.2 ∧
      SameRegs [a, R.lkWstat m.num] s t ∧ SameMemory s t ∧ SameModule s t) := by
  rw [exec_registerWrite, State.regWrite_plain he h8 hr hg hp]
  have hw : ((s.afterGrant m a).setReg a (applyWrite e.1 (s.reg a) v)).reg (R.lkWstat m.num) = outcomeWord a 1 := by
    rw [State.reg_setReg_other _ _ _ _ (ne_lkWstat m hp.ne_two).symm, State.reg_afterGrant, if_pos rfl]
  have hf : RegsOnly [a, R.lkWstat m.num] s ((s.afterGrant m a).setReg a (applyWrite e.1 (s.reg a) v)) :=
    (s.afterGrant_regsOnly m (by simp)).setReg (by simp) _
  refine ⟨_, rfl, State.reg_setReg_same _ _ _, rfl, ?_, ?_, hf.regs, hf.memory, hf.held⟩
  · rw [State.fld, hw, fld_outcomeWord_outcome]
  · rw [State.fld, hw, fld_outcomeWord_addr]

/-! ### PTB_ARM -/

theorem State.ptbArm_disarm {v : Word} (hv : v.fld F.ptbCtlArm = 0) (s : State) :
    s.ptbArm v = s.setFld R.ptbCtl F.ptbCtlArm 0 := by
  simp [State.ptbArm, hv]

/-- R391: a harmful entry with the gate closed. -/
theorem State.ptbArm_refused {s : State} {v : Word} (hv : v.fld F.ptbCtlArm = 1) (hoff : s.flag R.ptbCtl F.ptbCtlArm = false)
    (hh : s.ptbHarm = true) (hg : s.flag R.secState F.secStateGate = false) :
    s.ptbArm v = s.setFld R.ptbCtl F.ptbCtlRefused 1 := by
  simp [State.ptbArm, hv, hoff, hh, hg]

theorem State.flag_congr {s t : State} {a : Nat} (h : t.reg a = s.reg a) (f : Fld) : t.flag a f = s.flag a f := by
  rw [State.flag, State.fld, h]
  rfl

/-- Which harmful entries are enabled stands in PTB_SPILL and PTB_HOME alone. -/
theorem State.congr_ptbHarm {s t : State} (hs : t.reg R.ptbSpill = s.reg R.ptbSpill) (hh : t.reg R.ptbHome = s.reg R.ptbHome) :
    t.ptbHarm = s.ptbHarm := by
  simp only [State.ptbHarm, State.flag_congr hs, State.flag_congr hh]

/-- The SEC's context once arming is measured (R378, R391). -/
def Sec.arm (c : Sec) (harm : Bool) : Sec := { c with armed := true, harm := c.harm || harm, ptbN := [], ptbMarks := [] }

theorem State.ptbArm_armed {s : State} {v : Word} (hv : v.fld F.ptbCtlArm = 1) (hoff : s.flag R.ptbCtl F.ptbCtlArm = false)
    (hok : s.ptbHarm = false ∨ s.flag R.secState F.secStateGate = true) :
    s.ptbArm v = { (s.setFld R.ptbCtl F.ptbCtlArm 1).setFld R.ptbCtl F.ptbCtlRefused 0 with sec := s.sec.arm s.ptbHarm } := by
  have hr : (s.ptbHarm && !(s.flag R.secState F.secStateGate)) = false := by
    rcases hok with h | h <;> simp [h]
  have hsame : ((s.setFld R.ptbCtl F.ptbCtlArm 1).setFld R.ptbCtl F.ptbCtlRefused 0).ptbHarm = s.ptbHarm :=
    State.congr_ptbHarm (by simp [State.reg_setFld, R.ptbSpill, R.ptbCtl]) (by simp [State.reg_setFld, R.ptbHome, R.ptbCtl])
  simp [State.ptbArm, hv, hoff, hr, hsame, Sec.arm]

/-- What a granted write of PTB_CTL finds: the perturbation block and the gate as they stand. -/
theorem State.afterGrant_ptb (s : State) (m : Master) :
    (s.afterGrant m R.ptbCtl).flag R.ptbCtl F.ptbCtlArm = s.flag R.ptbCtl F.ptbCtlArm ∧
    (s.afterGrant m R.ptbCtl).ptbHarm = s.ptbHarm ∧
    (s.afterGrant m R.ptbCtl).flag R.secState F.secStateGate = s.flag R.secState F.secStateGate := by
  have same : ∀ {b : Nat}, (b - regBase) / 0x100000 ≠ 2 → (s.afterGrant m R.ptbCtl).reg b = s.reg b := s.reg_afterGrant_block m _
  exact ⟨State.flag_congr (same (by decide)) _, State.congr_ptbHarm (same (by decide)) (same (by decide)),
    State.flag_congr (same (by decide)) _⟩

/-- The registers that a write of PTB_CTL may change. -/
theorem State.afterGrant_ptb_regsOnly (s : State) (m : Master) :
    RegsOnly [R.ptbCtl, R.lkWstat m.num] s (s.afterGrant m R.ptbCtl) :=
  s.afterGrant_regsOnly m (by simp)

/-- ARM = 1 while a harmful entry is enabled and the gate is closed: refused, and nothing is measured. -/
theorem ptbArm_refused {s : State} {m : Master} {v : Word} (hg : Granted s m R.ptbCtl) (hv : v.fld F.ptbCtlArm = 1)
    (hoff : s.flag R.ptbCtl F.ptbCtlArm = false) (hh : s.ptbHarm = true) (hgate : s.flag R.secState F.secStateGate = false) :
    Answers (exec (.ptbArm m v) s) (fun t => t.flag R.ptbCtl F.ptbCtlArm = false ∧ t.flag R.ptbCtl F.ptbCtlRefused = true ∧
      t.sec = s.sec ∧ SameRegs [R.ptbCtl, R.lkWstat m.num] s t ∧ SameMemory s t ∧ t.weave = s.weave) := by
  obtain ⟨earm, eharm, egate⟩ := s.afterGrant_ptb m
  have hbody : (s.afterGrant m R.ptbCtl).ptbArm v = (s.afterGrant m R.ptbCtl).setFld R.ptbCtl F.ptbCtlRefused 1 :=
    State.ptbArm_refused hv (earm.trans hoff) (eharm.trans hh) (egate.trans hgate)
  rw [exec_ptbArm, State.command_granted hg hbody (by simp)]
  have hf := (s.afterGrant_ptb_regsOnly m).setFld List.mem_cons_self F.ptbCtlRefused 1
  refine ⟨_, rfl, ?_, ?_, s.afterGrant_sec m _, hf.regs, hf.memory, hf.weave⟩
  · rw [State.flag, State.fld_setFld_fld _ _ _ _ _ (by decide)]
    exact earm.trans hoff
  · rw [State.flag, State.fld_setFld_same _ _ _ _ (by decide)]
    rfl

/-- ARM = 1 while ARM is 0, not refused: armed, and measured with whether it may harm. -/
theorem ptbArm_armed {s : State} {m : Master} {v : Word} (hg : Granted s m R.ptbCtl) (hv : v.fld F.ptbCtlArm = 1)
    (hoff : s.flag R.ptbCtl F.ptbCtlArm = false) (hok : s.ptbHarm = false ∨ s.flag R.secState F.secStateGate = true) :
    Answers (exec (.ptbArm m v) s) (fun t => t.flag R.ptbCtl F.ptbCtlArm = true ∧ t.flag R.ptbCtl F.ptbCtlRefused = false ∧
      t.sec.armed = true ∧ (t.sec.harm = true ↔ s.sec.harm = true ∨ s.ptbHarm = true) ∧
      SameRegs [R.ptbCtl, R.lkWstat m.num] s t ∧ SameMemory s t ∧ t.weave = s.weave) := by
  obtain ⟨earm, eharm, egate⟩ := s.afterGrant_ptb m
  have hbody := State.ptbArm_armed (s := s.afterGrant m R.ptbCtl) hv (earm.trans hoff) (by rwa [eharm, egate])
  rw [eharm, State.afterGrant_sec] at hbody
  rw [exec_ptbArm, State.command_granted hg hbody (by simp)]
  have hf := ((s.afterGrant_ptb_regsOnly m).setFld List.mem_cons_self F.ptbCtlArm 1).setFld List.mem_cons_self F.ptbCtlRefused 0
  refine ⟨_, rfl, ?_, ?_, rfl, Bool.or_eq_true_iff, hf.regs, hf.memory, hf.weave⟩
  · show State.flag (((s.afterGrant m R.ptbCtl).setFld R.ptbCtl F.ptbCtlArm 1).setFld R.ptbCtl F.ptbCtlRefused 0) _ _ = true
    rw [State.flag, State.fld_setFld_fld _ _ _ _ _ (by decide), State.fld_setFld_same _ _ _ _ (by decide)]
    rfl
  · show State.flag (((s.afterGrant m R.ptbCtl).setFld R.ptbCtl F.ptbCtlArm 1).setFld R.ptbCtl F.ptbCtlRefused 0) _ _ = false
    rw [State.flag, State.fld_setFld_same _ _ _ _ (by decide)]
    rfl

/-- ARM = 0 disarms. -/
theorem ptbArm_disarm {s : State} {m : Master} {v : Word} (hg : Granted s m R.ptbCtl) (hv : v.fld F.ptbCtlArm = 0) :
    Answers (exec (.ptbArm m v) s) (fun t => t.flag R.ptbCtl F.ptbCtlArm = false ∧
      SameRegs [R.ptbCtl, R.lkWstat m.num] s t ∧ SameMemory s t ∧ t.weave = s.weave) := by
  have hbody := State.ptbArm_disarm hv (s.afterGrant m R.ptbCtl)
  rw [exec_ptbArm, State.command_granted hg hbody (by simp)]
  have hf := (s.afterGrant_ptb_regsOnly m).setFld List.mem_cons_self F.ptbCtlArm 0
  refine ⟨_, rfl, ?_, hf.regs, hf.memory, hf.weave⟩
  rw [State.flag, State.fld_setFld_same _ _ _ _ (by decide)]
  rfl

end Sys2Proof.Machine

open Sys2Proof.Machine in
/-- Settles O10, one lemma for each clause: the ends of a REGISTER_WRITE, and the three outcomes of a write of PTB_CTL. -/
theorem registerWritesAndArming : Obligations.RegisterWritesAndArming :=
  ⟨fun s m _ v => ⟨fun h => registerWrite_absent h s m v, fun h => registerWrite_closed h m v,
      fun h8 hr hh ho hm => registerWrite_unowned h8 hr hh ho hm v,
      fun _ he h8 hr hg hp => registerWrite_plain he h8 hr hg hp v⟩,
    fun _ _ _ hg => ⟨ptbArm_refused hg, ptbArm_armed hg, ptbArm_disarm hg⟩⟩

end

section
/-! PROOFS. What a stop leaves in PSQ_STATUS beside its state (R140, R142, Table 5-5): withdrawal writes the registers of the program,
the tokens, the jobs and the units, and none of the status. -/

namespace Sys2Proof.Machine

theorem State.reg_foldl {β : Type} {a : Nat} {f : State → β → State} (l : List β) (hf : ∀ u, ∀ b ∈ l, (f u b).reg a = u.reg a)
    (s : State) : (l.foldl f s).reg a = s.reg a :=
  List.foldlRecOn l f (motive := fun u => u.reg a = s.reg a) rfl (fun u hu b hb => (hf u b hb).trans hu)

theorem State.reg_forAll {a : Nat} {f : State → Nat → State} (l : List Nat) (hf : ∀ u, ∀ i ∈ l, (f u i).reg a = u.reg a) (s : State) :
    (s.forAll l f).reg a = s.reg a := State.reg_foldl l hf s

theorem lt_of_mem_onesOf {n x i : Nat} (h : i ∈ onesOf n x) : i < n := List.mem_range.mp (List.mem_filter.mp h).1

theorem State.reg_setFld_other (s : State) {a b : Nat} (h : b ≠ a) (f : Fld) (v : Nat) : (s.setFld a f v).reg b = s.reg b :=
  s.reg_setReg_other a b _ h

theorem State.psqStatus_rollback (s : State) (k : Nat) (gone : List Outst) (x : Nat) :
    (s.rollback k gone x).reg (R.psqStatus k) = s.reg (R.psqStatus k) := by
  have hahead : R.psqStatus k ≠ R.psqAhead k x := by unfold R.psqStatus R.psqAhead; omega
  have hindex : R.psqStatus k ≠ R.psqIndex k x := by unfold R.psqStatus R.psqIndex; omega
  have hpc : R.psqStatus k ≠ R.psqPc k x := by unfold R.psqStatus R.psqPc; omega
  unfold State.rollback
  dsimp only
  split
  · rfl
  · split <;> simp [State.reg_setReg, hahead, hindex, hpc]

theorem State.psqStatus_unwind (s : State) (k j : Nat) (o : Outst) :
    (s.unwind k o).reg (R.psqStatus j) = s.reg (R.psqStatus j) := by
  have hjob : R.psqStatus j ≠ R.rdxJStatus (bits o.word 32 6) := by
    have : bits o.word 32 6 < 64 := Nat.mod_lt _ (by decide)
    unfold R.psqStatus R.rdxJStatus
    omega
  unfold State.unwind
  dsimp only
  split
  · rfl
  · split
    · split
      · exact State.reg_setReg_other _ _ _ _ hjob
      · rfl
    · rfl

theorem State.psqStatus_giveTokens (s : State) (k mask : Nat) :
    (s.giveTokens k mask).reg (R.psqStatus k) = s.reg (R.psqStatus k) :=
  State.reg_forAll _ (fun u c _ => u.reg_setFld_other (by unfold R.psqStatus R.psqToken; omega) _ _) s

theorem State.psqStatus_setOutst (s : State) (k : Nat) (l : List Outst) :
    (s.setOutst k l).reg (R.psqStatus k) = s.reg (R.psqStatus k) :=
  State.reg_forAll _ (fun u x _ => u.reg_setFld_other (by unfold R.psqStatus R.psqInflight; omega) _ _) _

theorem State.psqStatus_syncMxe (s : State) (j k : Nat) {e : Nat} (he : e < 32) :
    (s.syncMxe k e).reg (R.psqStatus j) = s.reg (R.psqStatus j) := by
  have hne : R.psqStatus j ≠ R.mxeStatus e := by unfold R.psqStatus R.mxeStatus; omega
  unfold State.syncMxe
  dsimp only
  split
  · rfl
  · simp only [State.reg_setFld_other _ hne]

theorem State.psqStatus_syncDvu (s : State) (j k e : Nat) :
    (s.syncDvu k e).reg (R.psqStatus j) = s.reg (R.psqStatus j) := by
  have hne : R.psqStatus j ≠ R.vecDvuStatus e := by unfold R.psqStatus R.vecDvuStatus; omega
  unfold State.syncDvu
  dsimp only
  split
  · rfl
  · exact s.reg_setFld_other hne _ _

theorem State.psqStatus_syncUnits (s : State) (j k : Nat) : (s.syncUnits k).reg (R.psqStatus j) = s.reg (R.psqStatus j) :=
  State.reg_forAll _ (fun u e he => by
    rw [State.psqStatus_syncDvu, State.psqStatus_syncMxe _ j k (lt_of_mem_onesOf he)]) s

theorem State.psqStatus_withdraw (s : State) (k : Nat) : (s.withdraw k).reg (R.psqStatus k) = s.reg (R.psqStatus k) := by
  unfold State.withdraw State.withdrawSome
  dsimp only
  rw [State.setQ_reg, State.psqStatus_syncUnits, State.psqStatus_setOutst,
    State.reg_foldl _ (fun u o _ => by rw [State.psqStatus_unwind, State.psqStatus_giveTokens]),
    State.reg_foldl _ (fun u x _ => u.psqStatus_rollback k _ x)]

/-- The start of a stop moves STATE, and no other field of PSQ_STATUS. -/
theorem State.psqStatus_stopNow (s : State) (k : Nat) {f : Fld} (h : 3 ≤ f.1) :
    (s.stopNow k).fld (R.psqStatus k) f = s.fld (R.psqStatus k) f := by
  unfold State.stopNow
  split
  · rw [State.setPst, State.fld_setFld_fld _ _ _ _ _ (show f.1 + f.2 ≤ F.psqStatusState.1 ∨ 3 ≤ f.1 from .inr h), State.fld,
      State.psqStatus_withdraw, State.fld]
  · rfl

/-- A stop's cause stands once the stop has begun. -/
theorem State.flag_beginStop (s : State) (k : Nat) {cause : Fld} (h : 3 ≤ cause.1) (hin : cause.1 + cause.2 ≤ 64) (hbit : cause.2 = 1) :
    (s.beginStop k cause).flag (R.psqStatus k) cause = true := by
  rw [State.flag, State.beginStop, State.psqStatus_stopNow _ _ h, State.fld_setFld_same _ _ _ _ hin, hbit]
  rfl

/-- A resumption moves STATE and CTX_VALID, and leaves the stop causes. -/
theorem State.stopQuiesce_autoResume (s : State) (k : Nat) :
    (s.autoResume k).fld (R.psqStatus k) F.psqStatusStopQuiesce = s.fld (R.psqStatus k) F.psqStatusStopQuiesce := by
  unfold State.autoResume
  split
  · rw [State.fld_setFld_fld _ _ _ _ _ (by decide), State.setPst, State.fld_setFld_fld _ _ _ _ _ (by decide)]
  · rfl

/-- An event leaves every register but its own. -/
theorem State.reg_raiseEvent_other (s : State) {a b : Nat} (h : b ≠ a) (cfg : Nat) (f : Fld) :
    (s.raiseEvent a cfg f).reg b = s.reg b := by
  unfold State.raiseEvent
  dsimp only
  split
  · rfl
  · split
    · rw [State.signal_reg, s.reg_setFld_other h]
    · exact s.reg_setFld_other h _ _

theorem State.psqStatus_stakeEvent (s : State) (k j : Nat) (f : Fld) :
    (s.stakeEvent k f).reg (R.psqStatus j) = s.reg (R.psqStatus j) :=
  s.reg_raiseEvent_other (by unfold R.psqStatus R.hifSEvt; omega) _ _

end Sys2Proof.Machine
end

section
/-! PROOFS. Which registers decide what a read of module memory finds (R265, R268, R269), and a granted write that beats others (R371). -/

namespace Sys2Proof.Machine

/-- Reads of module memory meet the same poison, stacks, decoders and ports: what is poisoned stands, and so do the registers of the
CXL ports and decoders and of the HBM controllers. -/
structure SameAccess (s t : State) : Prop where
  poison : t.poison = s.poison
  regs   : ∀ a, R.cxtPStatus 0 ≤ a → t.reg a = s.reg a

theorem SameAccess.refl (s : State) : SameAccess s s := ⟨rfl, fun _ _ => rfl⟩

theorem SameAccess.setReg {z s : State} (h : SameAccess z s) {a : Nat} (ha : a < R.cxtPStatus 0) (v : Word) :
    SameAccess z (s.setReg a v) :=
  ⟨h.poison, fun b hb => (s.reg_setReg_other a b v (by omega)).trans (h.regs b hb)⟩

theorem SameAccess.setFld {z s : State} (h : SameAccess z s) {a : Nat} (ha : a < R.cxtPStatus 0) (f : Fld) (v : Nat) :
    SameAccess z (s.setFld a f v) := h.setReg ha _

section
variable {s t : State} (h : SameAccess s t)
include h

theorem SameAccess.fld {a : Nat} (ha : R.cxtPStatus 0 ≤ a) (f : Fld) : t.fld a f = s.fld a f := by
  rw [State.fld, h.regs a ha, State.fld]

theorem SameAccess.flag {a : Nat} (ha : R.cxtPStatus 0 ≤ a) (f : Fld) : t.flag a f = s.flag a f := by
  rw [State.flag, h.fld ha, State.flag]

theorem SameAccess.bad (a n : Nat) : t.bad a n = s.bad a n := by
  have hstack : ∀ i f, t.fld (R.memStatus i) f = s.fld (R.memStatus i) f :=
    fun i => h.fld (by unfold R.memStatus R.cxtPStatus; omega)
  simp only [State.bad, State.stackLost, h.poison, hstack]

theorem SameAccess.decBase (n : Nat) (f : Fld) : t.fld (R.cxtDecBase n) f = s.fld (R.cxtDecBase n) f :=
  h.fld (by unfold R.cxtDecBase R.cxtPStatus; omega) f

theorem SameAccess.decoder (a : Nat) : t.decoder a = s.decoder a := by
  have hsize : ∀ n f, t.fld (R.cxtDecSize n) f = s.fld (R.cxtDecSize n) f :=
    fun n => h.fld (by unfold R.cxtDecSize R.cxtPStatus; omega)
  have hctl : ∀ n f, t.flag (R.cxtDecCtl n) f = s.flag (R.cxtDecCtl n) f :=
    fun n => h.flag (by unfold R.cxtDecCtl R.cxtPStatus; omega)
  simp only [State.decoder, h.decBase, hsize, hctl]

theorem SameAccess.cxlDown (a : Nat) : t.cxlDown a = s.cxlDown a := by
  have hctl : ∀ n f, t.fld (R.cxtDecCtl n) f = s.fld (R.cxtDecCtl n) f :=
    fun n => h.fld (by unfold R.cxtDecCtl R.cxtPStatus; omega)
  have hport : ∀ n f, t.flag (R.cxtPStatus n) f = s.flag (R.cxtPStatus n) f :=
    fun n => h.flag (by unfold R.cxtPStatus; omega)
  simp only [State.cxlDown, State.decPort, h.decoder, h.decBase, hctl, hport]

theorem SameAccess.unreadable (a n : Nat) : t.unreadable a n = s.unreadable a n := by
  simp only [State.unreadable, State.err, State.badFabric, State.cxlCut, h.bad, h.decoder, h.cxlDown]

end

/-! ### the outcomes of a decision window (R371, R373) -/

theorem SameAccess.wstat {z s : State} (h : SameAccess z s) (m : Master) (a out : Nat) : SameAccess z (s.wstat m a out) := by
  have hout : R.lkWstat m.num < R.cxtPStatus 0 := by
    have := masterNum_lt m
    unfold R.lkWstat R.cxtPStatus
    omega
  unfold State.wstat
  dsimp only
  split
  · exact (h.setReg hout _).setFld (by decide) _ _
  · exact h.setReg hout _

theorem SameAccess.supersede {z s : State} (h : SameAccess z s) (a : Nat) (m : Master) (rivals : List Master) :
    SameAccess z (s.supersede a m rivals) :=
  List.foldlRecOn rivals _ (motive := SameAccess z) h (fun u hu r _ => by
    split
    · exact hu
    · exact hu.wstat r a _)

/-- The state in which a granted write acts: its outcome and those of the writes it beats are recorded, and it is answered. -/
def State.afterRivals (s : State) (m : Master) (rivals : List Master) (a : Nat) : State :=
  ((s.wstat m a 1).supersede a m rivals).answer .done

theorem State.afterRivals_access (s : State) (m : Master) (rivals : List Master) (a : Nat) : SameAccess s (s.afterRivals m rivals a) := by
  have h := ((SameAccess.refl s).wstat m a 1).supersede a m rivals
  exact ⟨h.poison, h.regs⟩

theorem State.afterRivals_apart (s : State) (m : Master) (rivals : List Master) (a : Nat) : Apart s (s.afterRivals m rivals a) :=
  State.answer_apart _ (State.supersede_apart a m rivals (State.wstat_apart m a 1 (.refl s)))

theorem State.afterRivals_dry (s : State) (m : Master) (rivals : List Master) (a : Nat) : Dry s (s.afterRivals m rivals a) :=
  State.answer_dry _ (State.supersede_dry a m rivals (State.wstat_dry m a 1 (.refl s)))

/-- A granted write that its block does not refuse does what its block says, whichever writes it beats. -/
theorem State.command_over_rivals {s t : State} {m : Master} {a : Nat} (h : Granted s m a) (rivals : List Master) {body : State → State}
    (hbody : body (s.afterRivals m rivals a) = t) (ht : t.resp = .done) : s.command m rivals a body = t := by
  obtain ⟨hopen, hown⟩ := h
  have hrun : body (((s.wstat m a 1).supersede a m rivals).answer .done) = t := hbody
  simp [State.command, hopen, hown, hrun, ht]

end Sys2Proof.Machine
end

section
/-! PROOFS. A partial re-weave (R27, R29, R30, Table 1-8). -/

namespace Sys2Proof.Machine

theorem R.wvStatus_global : Global R.wvStatus := by unfold Global R.wvStatus; omega
theorem R.wvErr_global : Global R.wvErr := by unfold Global R.wvErr; omega
theorem R.wvGen_global : Global R.wvGen := by unfold Global R.wvGen; omega
theorem R.wvPartAddr_global : Global R.wvPartAddr := by unfold Global R.wvPartAddr; omega
theorem R.wvPartLen_global : Global R.wvPartLen := by unfold Global R.wvPartLen; omega
theorem R.wvPartResult_global : Global R.wvPartResult := by unfold Global R.wvPartResult; omega

/-! ### WV_CMD with CMD 1 (Table 1-8 steps 1 to 3) -/

theorem exec_wvCmdApplyPartial (m : Master) (rivals : List Master) (k : Fin 16) (ok : Bool) (s : State) :
    exec (.wvCmdApplyPartial m rivals k ok) s = .next (s.command m rivals R.wvCmd (fun u => u.partStart k ok)) := rfl

/-- A re-weave of stake `k` is under way: PART_BUSY, and the stake in PART_STAKE. -/
def State.partBusy (s : State) (k : Nat) : State :=
  (s.setFld R.wvStatus F.wvStatusPartBusy 1).setFld R.wvStatus F.wvStatusPartStake k

theorem State.partBusy_flag (s : State) (k : Nat) : (s.partBusy k).flag R.wvStatus F.wvStatusPartBusy = true := by
  rw [State.flag, State.partBusy, State.fld_setFld_fld _ _ _ _ _ (by decide), State.fld_setFld_same _ _ _ _ (by decide)]
  rfl

theorem State.partBusy_partStake (s : State) (k : Fin 16) : (s.partBusy k).partStake = k := by
  rw [State.partStake, State.partBusy, State.fld_setFld_same _ _ _ _ (by decide)]
  exact Nat.mod_eq_of_lt k.isLt

theorem State.fld_partBusy_other (s : State) (k : Nat) {a : Nat} (h : a ≠ R.wvStatus) (f : Fld) : (s.partBusy k).fld a f = s.fld a f := by
  rw [State.partBusy, State.fld_setFld_reg _ _ _ _ _ _ h, State.fld_setFld_reg _ _ _ _ _ _ h]

theorem State.partStart_busy {s : State} (hidle : s.flag R.wvStatus F.wvStatusPartBusy = false)
    (hact : s.fld R.wvStatus F.wvStatusState = 1) (k : Nat) (ok : Bool) : s.partStart k ok = (s.partBusy k).partCheck k ok := by
  simp [State.partStart, State.partBusy, hidle, hact]

/-- An image that reads and passes every check is held. -/
def State.holdImage (s : State) (b : List Byte) : State :=
  { s with weave := { s.weave with part := imgProgram b s.weave.cur, partDig := imgDigest b, phase := 3 } }

section
variable (s : State) (b : List Byte)

@[simp] theorem State.holdImage_resp : (s.holdImage b).resp = s.resp := by unfold State.holdImage; rfl
@[simp] theorem State.holdImage_phase : (s.holdImage b).weave.phase = 3 := by unfold State.holdImage; rfl
@[simp] theorem State.holdImage_cur : (s.holdImage b).weave.cur = s.weave.cur := by unfold State.holdImage; rfl
@[simp] theorem State.holdImage_part : (s.holdImage b).weave.part = imgProgram b s.weave.cur := by unfold State.holdImage; rfl
@[simp] theorem State.holdImage_fld (a : Nat) (f : Fld) : (s.holdImage b).fld a f = s.fld a f := by
  unfold State.holdImage State.fld State.reg; rfl
theorem State.holdImage_dry : Dry s (s.holdImage b) := by unfold State.holdImage; exact ⟨rfl, rfl⟩

end

theorem State.partCheck_passed {s : State} {a n : Nat} (ha : s.fld R.wvPartAddr F.wvPartAddrAddr * 4096 = a)
    (hn : s.fld R.wvPartLen F.wvPartLenLen = n) (hpos : n ≠ 0) (hmax : n ≤ 0x100000) (hread : s.unreadable a n = false)
    {k : Nat} {ok : Bool} (hcheck : checkWeave s (s.bytes a n) (some n) k ok = none) :
    s.partCheck k ok = s.holdImage (s.bytes a n) := by
  unfold State.partCheck
  dsimp only
  rw [ha, hn, if_neg (by omega), if_neg (by simp [hread]), hcheck]
  rfl

section
variable (s : State) (m : Master) (rivals : List Master) (k : Fin 16)

/-- The state in which the image is checked: the write of WV_CMD is recorded and answered, and the re-weave is under way. -/
def State.partTaken : State := (s.afterRivals m rivals R.wvCmd).partBusy k

theorem State.partTaken_weave : (s.partTaken m rivals k).weave = s.weave := (s.afterRivals_apart m rivals R.wvCmd).weave

theorem State.partTaken_resp : (s.partTaken m rivals k).resp = .done := by simp [State.partTaken, State.partBusy, State.afterRivals]

theorem State.fld_partTaken {a : Nat} (hg : Global a) (ha : a ≠ R.wvStatus) (f : Fld) :
    (s.partTaken m rivals k).fld a f = s.fld a f :=
  (State.fld_partBusy_other _ _ ha f).trans ((s.afterRivals_apart m rivals R.wvCmd).fld a f hg)

theorem State.partTaken_dry : Dry s (s.partTaken m rivals k) :=
  State.setFld_dry _ _ _ (State.setFld_dry _ _ _ (s.afterRivals_dry m rivals R.wvCmd))

theorem State.partTaken_access : SameAccess s (s.partTaken m rivals k) :=
  ((s.afterRivals_access m rivals R.wvCmd).setFld (by decide) _ _).setFld (by decide) _ _

theorem State.partTaken_bytes (a n : Nat) : (s.partTaken m rivals k).bytes a n = s.bytes a n :=
  List.map_congr_left (fun i _ => (s.partTaken_dry m rivals k).same (a + i))

end

/-- A granted WV_CMD with CMD 1, with no re-weave in progress, holds an image that reads and passes every check. -/
theorem State.partStart_held {s : State} {m : Master} {rivals : List Master} {k : Fin 16} {ok : Bool} {a n : Nat}
    (hidle : s.flag R.wvStatus F.wvStatusPartBusy = false) (hact : s.fld R.wvStatus F.wvStatusState = 1)
    (ha : s.fld R.wvPartAddr F.wvPartAddrAddr * 4096 = a) (hn : s.fld R.wvPartLen F.wvPartLenLen = n) (hpos : n ≠ 0)
    (hmax : n ≤ 0x100000) (hread : s.unreadable a n = false)
    (hcheck : checkWeave (s.partTaken m rivals k) (s.bytes a n) (some n) k ok = none) :
    (s.afterRivals m rivals R.wvCmd).partStart k ok = (s.partTaken m rivals k).holdImage (s.bytes a n) := by
  have hstatus := fun f => (s.afterRivals_apart m rivals R.wvCmd).fld R.wvStatus f R.wvStatus_global
  have hbytes := s.partTaken_bytes m rivals k a n
  have haddr : (s.partTaken m rivals k).fld R.wvPartAddr F.wvPartAddrAddr * 4096 = a := by
    rw [s.fld_partTaken m rivals k R.wvPartAddr_global (by decide), ha]
  have hlen : (s.partTaken m rivals k).fld R.wvPartLen F.wvPartLenLen = n := by
    rw [s.fld_partTaken m rivals k R.wvPartLen_global (by decide), hn]
  have hreads : (s.partTaken m rivals k).unreadable a n = false := ((s.partTaken_access m rivals k).unreadable a n).trans hread
  rw [State.partStart_busy (by rw [State.flag, hstatus, ← State.flag, hidle]) ((hstatus _).trans hact), ← hbytes]
  exact State.partCheck_passed haddr hlen hpos hmax hreads (hbytes ▸ hcheck)

/-- The command answers done, with PART_BUSY, the stake in PART_STAKE and the image held. -/
theorem wvCmdApplyPartial_held {s : State} {m : Master} {rivals : List Master} {k : Fin 16} {ok : Bool} {a n : Nat}
    (hg : Granted s m R.wvCmd) (hidle : s.flag R.wvStatus F.wvStatusPartBusy = false) (hact : s.fld R.wvStatus F.wvStatusState = 1)
    (ha : s.fld R.wvPartAddr F.wvPartAddrAddr * 4096 = a) (hn : s.fld R.wvPartLen F.wvPartLenLen = n) (hpos : n ≠ 0)
    (hmax : n ≤ 0x100000) (hread : s.unreadable a n = false)
    (hcheck : checkWeave (s.partTaken m rivals k) (s.bytes a n) (some n) k ok = none) :
    Answers (exec (.wvCmdApplyPartial m rivals k ok) s) (fun t =>
      t.flag R.wvStatus F.wvStatusPartBusy = true ∧ t.partStake = k ∧ t.weave.phase = 3 ∧ t.weave.cur = s.weave.cur ∧
      t.weave.part = imgProgram (s.bytes a n) s.weave.cur ∧ t.resp = .done ∧ SameMemory s t) := by
  have hresp := ((s.partTaken m rivals k).holdImage_resp (s.bytes a n)).trans (s.partTaken_resp m rivals k)
  rw [exec_wvCmdApplyPartial,
    State.command_over_rivals hg rivals (State.partStart_held hidle hact ha hn hpos hmax hread hcheck) hresp]
  refine ⟨_, rfl, ?_, ?_, State.holdImage_phase _ _, ?_, ?_, hresp,
    ((s.partTaken_dry m rivals k).trans (State.holdImage_dry _ _)).same⟩
  · rw [State.flag, State.holdImage_fld, ← State.flag]
    exact State.partBusy_flag _ _
  · rw [State.partStake, State.holdImage_fld, ← State.partStake]
    exact State.partBusy_partStake _ _
  · rw [State.holdImage_cur, State.partTaken_weave]
  · rw [State.holdImage_part, State.partTaken_weave]

/-! ### PARTIAL_QUIESCE_BEGIN (Table 1-8 step 4) -/

/-- WV_STATUS.STATE reads QUIESCING. -/
def State.quiescing (s : State) : State :=
  ({ s with weave := { s.weave with phase := 5 } } : State).setFld R.wvStatus F.wvStatusState 2

theorem State.quiescing_state (s : State) : s.quiescing.fld R.wvStatus F.wvStatusState = 2 := State.fld_setFld_same _ _ _ _ (by decide)

theorem State.quiescing_partStake (s : State) : s.quiescing.partStake = s.partStake := State.fld_setFld_fld _ _ _ _ _ (by decide)

theorem State.quiescing_cur (s : State) : s.quiescing.weave.cur = s.weave.cur := rfl

theorem State.partQuiesce_begun {s : State} (hp : s.weave.phase = 3) (hj : s.noJobs s.partStake = true) :
    s.partQuiesce = if s.enabled s.partStake then s.quiescing.beginStop s.partStake F.psqStatusStopQuiesce else s.quiescing := by
  unfold State.partQuiesce
  dsimp only
  rw [if_neg (by simp [hp, hj])]
  rfl

/-- Once the jobs and the exchange of the target are done, the module is QUIESCING, and an enabled target has the cause QUIESCE. -/
theorem partialQuiesceBegin_quiescing {s : State} (hp : s.weave.phase = 3) (hj : s.noJobs s.partStake = true) :
    Answers (exec .partialQuiesceBegin s) (fun t =>
      t.weave.phase = 5 ∧ t.fld R.wvStatus F.wvStatusState = 2 ∧ t.partStake = s.partStake ∧ t.weave.cur = s.weave.cur ∧
      (s.enabled s.partStake = true → t.flag (R.psqStatus s.partStake) F.psqStatusStopQuiesce = true) ∧ SameMemory s t) := by
  have hend : Apart s.quiescing s.partQuiesce := by
    rw [State.partQuiesce_begun hp hj]
    exact Apart.ite (State.beginStop_apart _ _ (.refl _)) (.refl _)
  refine ⟨s.partQuiesce, rfl, congrArg WeaveCtx.phase hend.weave, (hend.fld _ _ R.wvStatus_global).trans s.quiescing_state,
    (hend.fld _ _ R.wvStatus_global).trans s.quiescing_partStake, (congrArg WeaveCtx.cur hend.weave).trans s.quiescing_cur, fun hon => ?_,
    (State.partQuiesce_dry (.refl s)).same⟩
  rw [State.partQuiesce_begun hp hj, if_pos hon]
  exact State.flag_beginStop _ _ (by decide) (by decide) rfl

/-! ### the end of a re-weave -/

/-- A re-weave has ended with an OUTCOME: nothing is in progress, the active records are those of `s`, and so are the fuses and the
other registers of the weave. -/
structure PartOver (outcome : Nat) (s t : State) : Prop where
  cur     : t.weave.cur = s.weave.cur
  phase   : t.weave.phase = 0
  fuses   : t.fuses = s.fuses
  active  : t.fld R.wvStatus F.wvStatusState = 1
  idle    : t.flag R.wvStatus F.wvStatusPartBusy = false
  outcome : t.fld R.wvPartResult F.wvPartResultOutcome = outcome
  regs    : ∀ a, Global a → a ≠ R.wvStatus → a ≠ R.wvPartResult → t.reg a = s.reg a

theorem PartOver.apart {n : Nat} {s t u : State} (h : PartOver n s t) (ha : Apart t u) : PartOver n s u where
  cur     := (congrArg WeaveCtx.cur ha.weave).trans h.cur
  phase   := (congrArg WeaveCtx.phase ha.weave).trans h.phase
  fuses   := ha.fuses.trans h.fuses
  active  := (ha.fld _ _ R.wvStatus_global).trans h.active
  idle    := by rw [State.flag, ha.fld _ _ R.wvStatus_global]; exact h.idle
  outcome := (ha.fld _ _ R.wvPartResult_global).trans h.outcome
  regs    := fun a hg hs hr => (ha.regs a hg).trans (h.regs a hg hs hr)

/-- The last registers that a re-weave writes: OUTCOME, PART_BUSY and STATE. -/
def State.partDone (s : State) (outcome : Nat) : State := (s.partEnd outcome).setFld R.wvStatus F.wvStatusState 1

theorem State.reg_partEnd (s : State) (n a : Nat) : (s.partEnd n).reg a =
    ((s.setFld R.wvPartResult F.wvPartResultOutcome n).setFld R.wvStatus F.wvStatusPartBusy 0).reg a := rfl

theorem State.partDone_over (s : State) {n : Nat} (hn : n < 4) : PartOver n s (s.partDone n) where
  cur     := rfl
  phase   := rfl
  fuses   := rfl
  active  := State.fld_setFld_same _ _ _ _ (by decide)
  idle    := by
    rw [State.flag, State.partDone, State.fld_setFld_fld _ _ _ _ _ (by decide), State.fld, State.reg_partEnd, ← State.fld,
      State.fld_setFld_same _ _ _ _ (by decide)]
    rfl
  outcome := by
    rw [State.partDone, State.fld_setFld_reg _ _ _ _ _ _ (by decide), State.fld, State.reg_partEnd, ← State.fld,
      State.fld_setFld_reg _ _ _ _ _ _ (by decide), State.fld_setFld_same _ _ _ _ (by decide)]
    exact Nat.mod_eq_of_lt hn
  regs    := fun a _ hs hr => by
    rw [State.partDone, State.reg_setFld_other _ hs, State.reg_partEnd, State.reg_setFld_other _ hs, State.reg_setFld_other _ hr]

/-! ### QUIESCE_TIMEOUT (R30) -/

theorem State.wvError_code (s : State) (e : ImgErr) (partly : Bool) : (s.wvError e partly).fld R.wvErr F.wvErrCode = e.1 % 256 := by
  rw [State.wvError, State.fld, State.reg_setReg_same, Word.fld_setFld_other _ _ _ _ _ _ (by decide),
    Word.fld_setFld_other _ _ _ _ _ _ (by decide), Word.fld_setFld_other _ _ _ _ _ _ (by decide),
    Word.fld_setFld_other _ _ _ _ _ _ (by decide)]
  exact Word.fld_setFld_same _ _ _ _ (by decide)

/-- The stop cause QUIESCE ends, and the event REWEAVE is raised. -/
def State.unquiesce (s : State) (k : Nat) : State :=
  ((s.setFld (R.psqStatus k) F.psqStatusStopQuiesce 0).autoResume k).stakeEvent k F.hifSEvtReweave

theorem State.unquiesce_apart (s : State) (k : Nat) : Apart s (s.unquiesce k) :=
  State.stakeEvent_apart _ _ (State.autoResume_apart _ (State.setFld_apart _ _ _ (R.psqStatus_far k) (.refl s)))

theorem State.unquiesce_flag (s : State) (k : Nat) : (s.unquiesce k).flag (R.psqStatus k) F.psqStatusStopQuiesce = false := by
  rw [State.flag, State.unquiesce, State.fld, State.psqStatus_stakeEvent, ← State.fld, State.stopQuiesce_autoResume,
    State.fld_setFld_same _ _ _ _ (by decide)]
  rfl

theorem State.partAbandon_eq (s : State) (code : Nat) :
    s.partAbandon code = ((s.wvError (code, 0, 0, s.partStake) true).partDone 3).unquiesce s.partStake := rfl

theorem State.partTimeout_quiescing {s : State} (h : s.weave.phase = 5) : s.partTimeout = s.partAbandon 0x0D := if_pos h

/-- A quiescence that takes too long ends the re-weave: the old record stays, and the stake's cause QUIESCE is clear. -/
theorem quiesceTimeout_abandoned {s : State} (h : s.weave.phase = 5) :
    Answers (exec .quiesceTimeout s) (fun t =>
      t.weave.cur = s.weave.cur ∧ t.weave.phase = 0 ∧ t.fld R.wvStatus F.wvStatusState = 1 ∧ t.flag R.wvStatus F.wvStatusPartBusy = false ∧
      t.fld R.wvErr F.wvErrCode = 0x0D ∧ t.fld R.wvPartResult F.wvPartResultOutcome = 3 ∧
      t.flag (R.psqStatus s.partStake) F.psqStatusStopQuiesce = false ∧ SameMemory s t) := by
  have heq : s.partTimeout = _ := (State.partTimeout_quiescing h).trans (s.partAbandon_eq 0x0D)
  have hend := ((s.wvError (0x0D, 0, 0, s.partStake) true).partDone_over (by decide : 3 < 4)).apart (State.unquiesce_apart _ s.partStake)
  rw [← heq] at hend
  have hcode : s.partTimeout.fld R.wvErr F.wvErrCode = 0x0D := by
    rw [State.fld, hend.regs _ R.wvErr_global (by decide) (by decide), ← State.fld, State.wvError_code]
    rfl
  have hcause : s.partTimeout.flag (R.psqStatus s.partStake) F.psqStatusStopQuiesce = false := by
    rw [heq, State.unquiesce_flag]
  exact ⟨s.partTimeout, rfl, hend.cur, hend.phase, hend.active, hend.idle, hcode, hend.outcome, hcause,
    (State.partTimeout_dry (.refl s)).same⟩

/-! ### PARTIAL_COMMIT (Table 1-8 steps 6 and 7) -/

/-- The records of the weave, active and held, stand, and so do WV_GEN and the fuses. -/
structure SameRecords (s t : State) : Prop where
  cur   : t.weave.cur = s.weave.cur
  part  : t.weave.part = s.weave.part
  gen   : t.reg R.wvGen = s.reg R.wvGen
  fuses : t.fuses = s.fuses

theorem SameRecords.refl (s : State) : SameRecords s s := ⟨rfl, rfl, rfl, rfl⟩

theorem SameRecords.trans {r s t : State} (a : SameRecords r s) (b : SameRecords s t) : SameRecords r t :=
  ⟨b.cur.trans a.cur, b.part.trans a.part, b.gen.trans a.gen, b.fuses.trans a.fuses⟩

theorem Apart.sameRecords {s t : State} (h : Apart s t) : SameRecords s t :=
  ⟨congrArg WeaveCtx.cur h.weave, congrArg WeaveCtx.part h.weave, h.regs _ R.wvGen_global, h.fuses⟩

theorem SameRecords.setReg {z s : State} (h : SameRecords z s) {a : Nat} (ha : a ≠ R.wvGen) (v : Word) : SameRecords z (s.setReg a v) :=
  h.trans ⟨rfl, rfl, s.reg_setReg_other a _ v ha.symm, rfl⟩

theorem SameRecords.setFld {z s : State} (h : SameRecords z s) {a : Nat} (ha : a ≠ R.wvGen) (f : Fld) (v : Nat) :
    SameRecords z (s.setFld a f v) := h.setReg ha _

theorem SameRecords.forAll {z s : State} (h : SameRecords z s) (l : List Nat) {f : State → Nat → State}
    (hf : ∀ u i, SameRecords z u → SameRecords z (f u i)) : SameRecords z (s.forAll l f) :=
  List.foldlRecOn l f (motive := SameRecords z) h (fun u hu i _ => hf u i hu)

theorem SameRecords.showDigest {z s : State} (h : SameRecords z s) (d : BitVec 384) : SameRecords z (s.showDigest d) := by
  have hdigest : SameRecords z { s with weave := { s.weave with digest := d } } := h.trans ⟨rfl, rfl, rfl, rfl⟩
  exact hdigest.forAll _ (fun u i hu => hu.setReg (by unfold R.wvDigest R.wvGen; omega) _)

theorem SameRecords.showWindow {z s : State} (h : SameRecords z s) (k : Nat) : SameRecords z (s.showWindow k) :=
  ((((h.setReg (by unfold R.wvStkEng R.wvGen; omega) _).forAll _
    (fun _ i hu => hu.setReg (by unfold R.wvStkTc R.wvGen; omega) _)).forAll _
    (fun _ i hu => hu.setReg (by unfold R.wvStkCh R.wvGen; omega) _)).setReg (by unfold R.wvStkFmt R.wvGen; omega) _)

/-- A stake's window, its bit of WV_STATUS and the contexts of its dies lie apart from WV_GEN. -/
theorem State.showStake_sameRecords (s : State) (k : Nat) : SameRecords s (s.showStake k) := by
  have hwindow := (SameRecords.refl s).showWindow k
  have hcap := hwindow.trans (State.showCap_apart k (.refl (s.showWindow k))).sameRecords
  have hid : R.psqId k ≠ R.wvGen := by unfold R.psqId R.wvGen; omega
  refine ((hcap.setFld hid _ _).setFld (by decide) _ _).forAll _ (fun u d hu => hu.trans (Apart.sameRecords ?_))
  exact State.setFld_apart _ _ _ (R.kvpSStatus_far d k) (State.setFld_apart _ _ _ (R.asuSStatus_far d k)
    (State.setFld_apart _ _ _ (R.asuSArea_far d k) (State.setFld_apart _ _ _ (R.asuSArea_far d k) (.refl u))))

theorem State.turnIsland_sameRecords {z s : State} (h : SameRecords z s) (i : Nat) : SameRecords z (s.turnIsland i) := by
  have hne : R.lkIsl i ≠ R.wvGen := by unfold R.lkIsl R.wvGen; omega
  unfold State.turnIsland
  dsimp only
  split
  · split
    · exact h.setFld hne _ _
    · exact h
  · split
    · exact h.setFld hne _ _
    · exact h

/-- The commit up to the new records: a journal that moves ends its epoch, the units that leave are taken, and the image is measured. -/
def State.partRelease (s : State) (k : Nat) (old new : StakeRec) : State :=
  let dig := sha384 (toBytes 48 s.weave.digest.toNat ++ toBytes 48 s.weave.partDig.toNat)
  let ended := old.enable && !(sameJournal old new)
  let last := s.fld (R.psqJrnlNext k) F.psqJrnlNextNext - 1
  let s := if ended then s.endEpoch k 3 else s
  let s := (s.setFld R.wvPartResult F.wvPartResultEpochEnded (if ended then 1 else 0)).setFld R.wvPartResult F.wvPartResultLastSeq
    (if ended then last else 0)
  let s := (s.takeUnits old new).dropWays k (waySlices ((List.range 5).map (fun i => bitsOff (old.ways.getD i 0) (new.ways.getD i 0))))
  (s.extend 2 s.weave.partDig).showDigest dig

theorem State.partRelease_sameRecords (s : State) (k : Nat) (old new : StakeRec) : SameRecords s (s.partRelease k old new) := by
  unfold State.partRelease
  dsimp only
  refine SameRecords.showDigest (SameRecords.trans ?_
    (State.extend_apart _ _ (State.dropWays_apart _ _ (State.takeUnits_apart _ _ (.refl _)))).sameRecords) _
  refine SameRecords.setFld (SameRecords.setFld (Apart.sameRecords ?_) (by decide) _ _) (by decide) _ _
  exact Apart.ite (State.endEpoch_apart _ _ (.refl s)) (.refl s)

/-- The held records become the active ones. -/
def State.activatePart (s : State) : State := { s with weave := { s.weave with cur := s.weave.part } }

/-- What the records of the target no longer hold is cleared, and its queue pairs turn to their owners. -/
def State.partClear (s : State) (k kd : Nat) (old new : StakeRec) : State :=
  let s := if sameStack old new && new.enable then s else s.asuClear k
  ((s.keepPool k kd old new).resetRegs [R.psqFtSubst k 0, R.psqFtSubst k 1]).turnQueues k

theorem State.partClear_apart (s : State) (k kd : Nat) (old new : StakeRec) : Apart s (s.partClear k kd old new) := by
  refine State.turnQueues_apart _ (State.resetRegs_apart _ ?_ (State.keepPool_apart _ _ _ _ ?_))
  · simp only [List.forall_mem_cons, List.not_mem_nil, false_imp_iff, implies_true, and_true]
    exact ⟨R.psqFtSubst_far k 0, R.psqFtSubst_far k 1⟩
  · exact Apart.ite (.refl s) (State.asuClear_apart k (.refl s))

/-- The registers and islands follow the new records. -/
def State.partShow (s : State) (k : Nat) (old new : StakeRec) : State :=
  ((s.showStake k).showUnits (old.eng ||| new.eng) (old.pvu ||| new.pvu)).forAll (List.range 68) State.turnIsland

theorem State.partShow_sameRecords (s : State) (k : Nat) (old new : StakeRec) : SameRecords s (s.partShow k old new) :=
  ((s.showStake_sameRecords k).trans (State.showUnits_apart _ _ (.refl _)).sameRecords).forAll _
    (fun _ i hu => State.turnIsland_sameRecords hu i)

/-- The stake goes on, is formed, or is removed with its bindings. -/
def State.turnStake (s : State) (k : Nat) (old new : StakeRec) : State :=
  if new.enable then (if old.enable then s else s.setPst k stIdle)
  else ({ (s.psqClear k).setPst k stUnformed with binds := s.binds.filter (fun b => b.stake != k) } : State)

theorem Apart.setBinds {z s : State} (h : Apart z s) (l : List Bind) : Apart z { s with binds := l } :=
  h.trans ⟨rfl, rfl, rfl, rfl, rfl, rfl, rfl, rfl, fun _ _ => rfl⟩

theorem State.turnStake_apart (s : State) (k : Nat) (old new : StakeRec) : Apart s (s.turnStake k old new) :=
  Apart.ite (Apart.ite (.refl s) (State.setPst_apart _ _ (.refl s)))
    ((State.setPst_apart k stUnformed (State.psqClear_apart k (.refl s))).setBinds _)

/-- A new journal opens its epoch, and the cause QUIESCE ends. -/
def State.partForm (s : State) (k : Nat) (old new : StakeRec) : State :=
  let s := s.turnStake k old new
  let s := if new.enable && !(sameJournal old new) then s.openEpoch k else s
  (s.setFld (R.psqStatus k) F.psqStatusStopQuiesce 0).autoResume k

theorem State.partForm_apart (s : State) (k : Nat) (old new : StakeRec) : Apart s (s.partForm k old new) := by
  have hturned := s.turnStake_apart k old new
  exact State.autoResume_apart _ (State.setFld_apart _ _ _ (R.psqStatus_far k) (Apart.ite (State.openEpoch_apart k hturned) hturned))

/-- The commit up to its last registers. -/
def State.partTurn (s : State) : State :=
  let k := s.partStake
  let old := s.stake k
  let new := s.newStake k
  (((s.partRelease k old new).activatePart.partClear k (s.keeper k) old new).partShow k old new).partForm k old new

theorem State.partApply_eq (s : State) :
    s.partApply = ((s.partTurn.setFld R.wvGen F.wvGenGen (s.partTurn.fld R.wvGen F.wvGenGen + 1)).partDone 1).stakeEvent s.partStake
      F.hifSEvtReweave := rfl

theorem SameRecords.activatePart {r s t : State} (a : SameRecords r s) (b : SameRecords s.activatePart t) :
    t.weave.cur = r.weave.part ∧ t.reg R.wvGen = r.reg R.wvGen ∧ t.fuses = r.fuses :=
  ⟨b.cur.trans a.part, b.gen.trans a.gen, b.fuses.trans a.fuses⟩

/-- The commit makes the held records active, and moves neither WV_GEN nor the fuses on its way. -/
theorem State.partTurn_records (s : State) :
    s.partTurn.weave.cur = s.weave.part ∧ s.partTurn.reg R.wvGen = s.reg R.wvGen ∧ s.partTurn.fuses = s.fuses := by
  unfold State.partTurn
  exact (s.partRelease_sameRecords _ _ _).activatePart (((State.partClear_apart _ _ _ _ _).sameRecords.trans
    (State.partShow_sameRecords _ _ _ _)).trans (State.partForm_apart _ _ _ _).sameRecords)

section
variable {s : State} (hp : s.weave.phase = 5) (hw : s.lk.warnLow = false) (hq : s.quiet s.partStake = true)
  (he : (s.newStake s.partStake).eng &&& s.failEng = 0) (hv : (s.newStake s.partStake).pvu &&& s.failPvu = 0)
  (ht : (s.newStake s.partStake).tc &&& s.failTc = 0) (hc : (s.newStake s.partStake).ch &&& s.failCh = 0)
include hp hw hq he hv ht hc

theorem State.partCommit_quiet : s.partCommit = s.partApply := by
  simp [State.partCommit, hp, hw, hq, he, hv, ht, hc]

/-- A quiet target under a high SUPPLY_WARN_N, whose new record names no failed unit: the new records are active, and WV_GEN counts
one more. -/
theorem partialCommit_applied :
    Answers (exec .partialCommit s) (fun t =>
      t.weave.cur = s.weave.part ∧ t.weave.phase = 0 ∧ t.fld R.wvStatus F.wvStatusState = 1 ∧
      t.flag R.wvStatus F.wvStatusPartBusy = false ∧ t.fld R.wvGen F.wvGenGen = (s.fld R.wvGen F.wvGenGen + 1) % 2 ^ F.wvGenGen.2 ∧
      t.fld R.wvPartResult F.wvPartResultOutcome = 1 ∧ t.fuses = s.fuses) := by
  obtain ⟨hcur, hgen, hfuses⟩ := s.partTurn_records
  have hend := ((s.partTurn.setFld R.wvGen F.wvGenGen (s.partTurn.fld R.wvGen F.wvGenGen + 1)).partDone_over (by decide : 1 < 4)).apart
    (State.stakeEvent_apart s.partStake F.hifSEvtReweave (.refl _))
  rw [← s.partApply_eq] at hend
  have hcount : s.partApply.fld R.wvGen F.wvGenGen = (s.fld R.wvGen F.wvGenGen + 1) % 2 ^ F.wvGenGen.2 := by
    rw [State.fld, hend.regs _ R.wvGen_global (by decide) (by decide), ← State.fld, State.fld_setFld_same _ _ _ _ (by decide), State.fld,
      hgen, ← State.fld]
  have heq : s.partCommit = s.partApply := State.partCommit_quiet hp hw hq he hv ht hc
  exact ⟨s.partApply, congrArg Host.Outcome.next heq, hend.cur.trans hcur, hend.phase, hend.active, hend.idle, hcount, hend.outcome,
    hend.fuses.trans hfuses⟩

end

end Sys2Proof.Machine

open Sys2Proof.Machine in
/-- Settles O11, one lemma for each command: WV_CMD with CMD 1, PARTIAL_QUIESCE_BEGIN, PARTIAL_COMMIT and QUIESCE_TIMEOUT. -/
theorem partialReweave : Obligations.PartialReweave :=
  ⟨fun _ _ _ _ _ hg hidle hact hpos hmax hread hcheck => wvCmdApplyPartial_held hg hidle hact rfl rfl hpos hmax hread hcheck,
    fun _ hp hj => partialQuiesceBegin_quiescing hp hj,
    fun _ hp hw hq he hv ht hc => partialCommit_applied hp hw hq he hv ht hc,
    fun _ h => quiesceTimeout_abandoned h⟩

end

section
/-! PROOFS. The special values of a group sum (R53). -/

namespace Sys2Proof.Machine

/-- An element of the pair is a NaN. -/
def NaNElement (p : Val × Val) : Prop := p.1 = .nan ∨ p.2 = .nan

/-- The product of the pair is an infinity times zero. -/
def InfTimesZero (p : Val × Val) : Prop :=
  ∃ b c e, p = (Val.inf b, Val.fin c 0 e) ∨ p = (Val.fin c 0 e, Val.inf b)

/-- Where a product is a NaN (R53): a factor is, or an infinity meets a zero. -/
theorem Val.mul_eq_nan_iff (p : Val × Val) :
    Val.mul p.1 p.2 = .nan ↔ NaNElement p ∨ InfTimesZero p := by
  obtain ⟨x, y⟩ := p
  cases x with
  | nan => simp [NaNElement, InfTimesZero, Val.mul]
  | inf s => cases y <;> simp [NaNElement, InfTimesZero, Val.mul, eq_comm]
  | fin s m e => cases y <;> simp [NaNElement, InfTimesZero, Val.mul, eq_comm]

/-- An infinity converts to the FP32 infinity of its sign (Table 2-7). -/
theorem rne32_inf (b : Bool) : rne32 (.inf b) = if b then 0xFF800000 else 0x7F800000 := by
  cases b <;> rfl

theorem hasInfOf_iff_mem {b : Bool} {ps : List Val} : hasInfOf b ps = true ↔ Val.inf b ∈ ps := by
  rw [hasInfOf, List.any_eq_true]
  constructor
  · rintro ⟨v, hv, hb⟩
    cases v with
    | inf t => exact beq_iff_eq.mp hb ▸ hv
    | fin _ _ _ => cases hb
    | nan => cases hb
  · exact fun h => ⟨_, h, beq_self_eq_true b⟩

/-- What makes a group sum a NaN, seen on the products: `nanIn` tells of a NaN element. -/
def ProductsNaN (nanIn : Bool) (ps : List Val) : Prop :=
  nanIn = true ∨ Val.nan ∈ ps ∨ (Val.inf false ∈ ps ∧ Val.inf true ∈ ps)

/-- What makes a group sum a NaN, seen on the pairs of elements: the first sentence of R53. -/
def PairsNaN (l : List (Val × Val)) : Prop :=
  (∃ p ∈ l, NaNElement p) ∨ (∃ p ∈ l, InfTimesZero p) ∨
  ((∃ p ∈ l, Val.mul p.1 p.2 = .inf false) ∧ ∃ p ∈ l, Val.mul p.1 p.2 = .inf true)

/-- The test of `groupSum` is `ProductsNaN`. -/
theorem groupSum_test_iff {nanIn : Bool} {ps : List Val} :
    (nanIn || ps.any (· == .nan) || (hasInfOf false ps && hasInfOf true ps)) = true ↔ ProductsNaN nanIn ps := by
  simp [ProductsNaN, hasInfOf_iff_mem, or_assoc]

theorem groupSum_of_productsNaN {nanIn : Bool} {ps : List Val} (h : ProductsNaN nanIn ps) : groupSum nanIn ps = nan32 :=
  if_pos (groupSum_test_iff.mpr h)

/-- Finite products do not appear in the sum of a group with an infinite one. -/
theorem groupSum_of_inf_mem {nanIn : Bool} {ps : List Val} {b : Bool} (h : ¬ ProductsNaN nanIn ps) (hb : Val.inf b ∈ ps) :
    groupSum nanIn ps = rne32 (.inf b) := by
  rw [groupSum, if_neg (mt groupSum_test_iff.mp h)]
  cases b with
  | false => exact if_pos (hasInfOf_iff_mem.mpr hb)
  | true =>
    have hneg : ¬ hasInfOf false ps = true := fun hf => h (.inr (.inr ⟨hasInfOf_iff_mem.mp hf, hb⟩))
    rw [if_neg hneg, if_pos (hasInfOf_iff_mem.mpr hb)]

/-- The products and the NaN elements of a group tell what R53 says of its pairs. -/
theorem productsNaN_iff_pairsNaN (l : List (Val × Val)) :
    ProductsNaN (l.any (fun p => p.1 == .nan || p.2 == .nan)) (l.map (fun p => Val.mul p.1 p.2)) ↔ PairsNaN l := by
  have helem : l.any (fun p => p.1 == .nan || p.2 == .nan) = true ↔ ∃ p ∈ l, NaNElement p := by simp [NaNElement]
  have hmul : Val.nan ∈ l.map (fun p => Val.mul p.1 p.2) ↔ (∃ p ∈ l, NaNElement p) ∨ ∃ p ∈ l, InfTimesZero p := by
    simp only [List.mem_map, Val.mul_eq_nan_iff, and_or_left, exists_or]
  rw [ProductsNaN, helem, hmul, List.mem_map, List.mem_map, or_assoc, or_self_left, PairsNaN]

end Sys2Proof.Machine

open Sys2Proof.Machine in
/-- Settles O59: a NaN by what the pairs say of the products, an infinity by what `groupSum` does with one. -/
theorem groupSpecials : Obligations.GroupSpecials := fun l =>
  ⟨fun h => groupSum_of_productsNaN ((productsNaN_iff_pairsNaN l).mpr h),
    fun h b hb => (groupSum_of_inf_mem (mt (productsNaN_iff_pairsNaN l).mp h) (List.mem_map.mpr hb)).trans (rne32_inf b)⟩

end

section
/-! PROOFS. MX_ISSUE, MX_COMPLETE and DVU_ROW (R92, R104, R105): a chain with EXPAND first and COMPRESS last, which R96 allows, counts
its dense rows twice, since both count in the one `dense` of its run. -/

namespace Sys2Proof.Machine

/-- The 32 bytes of a MEM stream of one row and one column, rows 64 bytes apart, in a format (Table 4-2). -/
def oneElementStream (addr fmt : Nat) : List Byte :=
  toBytes 8 addr ++ toBytes 8 0 ++ toBytes 4 64 ++ toBytes 4 0 ++ toBytes 2 1 ++ toBytes 2 1 ++ toBytes 1 fmt ++ toBytes 1 1 ++ toBytes 2 0

/-- EXPAND (OP 0x3E), then COMPRESS (OP 0x3D) in row mode, both of SRC2 (ASEL 1): SRC1 at 0x40 and DST at 0x80 of one FP32 element, the
mask of both at 0, the count at 0x100. -/
def expandCompress : List Byte :=
  [0, 2] ++ toBytes 6 0 ++ toBytes 8 0x13E ++ toBytes 8 0x13D ++ toBytes 16 0 ++
    oneElementStream 0x40 0 ++ oneElementStream 0 0x20 ++ oneElementStream 0x80 0 ++ toBytes 40 0 ++ toBytes 8 0x100 ++ toBytes 8 0

/-- A VX with that chain on engine 0, issued, with no row passed. -/
def expandCompressVx : Outst where
  seq := 0
  strm := 0
  index := 0
  pc := 0
  word := 0x50
  unit := 0
  waits := 0
  step := 0
  issued := true
  desc := []
  chain := expandCompress
  frame := 0
  pushTo := 0
  acc := []
  accInt := false
  feed := []
  run := .start
  prog := 0
  rerun := false
  turn := 1

/-- Stake 0 owns engine 0 and octet 0, and runs that VX; the mask selects row 0, and SRC1 holds 2.0, whose one byte other than zero is
at 0x43. -/
def expandCompressState : State :=
  { State.reset with
    weave := { WeaveCtx.reset with active := true, cur := { WeaveData.empty with
      stakes := [{ StakeRec.off with enable := true, eng := 1, ch := 0xFF }] } }
    psq := [(0, { Psq.idle with outst := [expandCompressVx] })]
    mem := [(0, 1), (0x43, 0x40)]
    undef := [] }

/-- The chain passes every check of a VX (R118). -/
theorem expandCompress_passes_checks :
    expandCompressState.chainFault 0 0 0 0 none (parseChain expandCompress) = none := by decide +kernel

/-- Row 0 is stored one row further than the first dense row of DST, which is the next one that the chain writes. -/
theorem expandCompress_second_row :
    ∀ t, exec (.dvuRow 0 0 0 Errs.none) expandCompressState = .next t → t.byte 0xC3 ≠ expandCompressState.byte 0xC3 := by
  have h : (expandCompressState.dvuRow 0 0 0 Errs.none).byte 0xC3 ≠ expandCompressState.byte 0xC3 := by decide +kernel
  rintro t ⟨⟩
  exact h

/-- The bytes of that first dense row lie elsewhere. -/
theorem expandCompress_first_row :
    ∀ r ∈ rowStores (parseChain expandCompress).dst
      (if (parseChain expandCompress).compress.isSome then expandCompressVx.run.dense else expandCompressVx.run.row)
      (rowLength expandCompressState 0 0 expandCompressVx), 0xC3 < r.1 ∨ r.1 + r.2 ≤ 0xC3 := by decide +kernel

end Sys2Proof.Machine

open Sys2Proof Sys2Proof.Machine in
/-- Refutes O16: where a chain expands and compresses, DVU_ROW stores a selected row at the dense position after the next one. -/
theorem not_matrixWork : ¬ Obligations.MatrixWork := by
  rintro ⟨-, hrow⟩
  obtain ⟨-, hvx, -⟩ := hrow expandCompressState 0 0 0 0 Errs.none (by decide +kernel) (by decide +kernel)
  have hnone : expandCompressState.nextDrain 0 0 = none := by decide +kernel
  obtain ⟨t, hexec, ⟨-, -, -, hbut⟩, -⟩ := hvx expandCompressVx (fun d hd => absurd (hnone.symm.trans hd) nofun) (by decide +kernel)
    (by decide +kernel) (.inl rfl)
  exact expandCompress_second_row t hexec (hbut _ expandCompress_first_row)

end

section
/-! PROOFS. The fault record of a stream (R141, R146): what raising a fault leaves there. Withdrawal, the start of the stop and the event
write other registers. -/

namespace Sys2Proof.Machine

/-- MXE_STATUS alone follows what is outstanding on an engine. -/
theorem State.reg_syncMxe_other (s : State) {a e : Nat} (h : a ≠ R.mxeStatus e) (k : Nat) : (s.syncMxe k e).reg a = s.reg a := by
  unfold State.syncMxe
  dsimp only
  split
  · rfl
  · simp only [State.reg_setFld_other _ h]

/-- VEC_DVU_STATUS alone follows what is outstanding on a DVU. -/
theorem State.reg_syncDvu_other (s : State) {a e : Nat} (h : a ≠ R.vecDvuStatus e) (k : Nat) : (s.syncDvu k e).reg a = s.reg a := by
  unfold State.syncDvu
  dsimp only
  split
  · rfl
  · exact s.reg_setFld_other h _ _

/-- PSQ_xFREC0 or PSQ_xFREC1 of a stream: the second stands 8 bytes behind the first. -/
def FaultReg (a : Nat) : Prop := ∃ k x y, x < 3 ∧ y < 2 ∧ a = R.psqFrec0 k x + 8 * y

theorem FaultReg.frec0 (k : Nat) {x : Nat} (hx : x < 3) : FaultReg (R.psqFrec0 k x) := ⟨k, x, 0, hx, by omega, rfl⟩

theorem FaultReg.frec1 (k : Nat) {x : Nat} (hx : x < 3) : FaultReg (R.psqFrec1 k x) :=
  ⟨k, x, 1, hx, by omega, by unfold R.psqFrec0 R.psqFrec1; omega⟩

section
variable {a : Nat} (h : FaultReg a)
include h

theorem FaultReg.ne_psqStatus (k : Nat) : a ≠ R.psqStatus k := by
  obtain ⟨j, x, y, hx, hy, rfl⟩ := h
  unfold R.psqFrec0 R.psqStatus
  omega

theorem FaultReg.ne_psqPc (k x : Nat) : a ≠ R.psqPc k x := by
  obtain ⟨j, x, y, hx, hy, rfl⟩ := h
  unfold R.psqFrec0 R.psqPc
  omega

theorem FaultReg.ne_psqIndex (k x : Nat) : a ≠ R.psqIndex k x := by
  obtain ⟨j, x, y, hx, hy, rfl⟩ := h
  unfold R.psqFrec0 R.psqIndex
  omega

theorem FaultReg.ne_psqInflight (k x : Nat) : a ≠ R.psqInflight k x := by
  obtain ⟨j, x, y, hx, hy, rfl⟩ := h
  unfold R.psqFrec0 R.psqInflight
  omega

theorem FaultReg.ne_psqAhead (k : Nat) {x : Nat} (hx : x < 3) : a ≠ R.psqAhead k x := by
  obtain ⟨j, x, y, hx, hy, rfl⟩ := h
  unfold R.psqFrec0 R.psqAhead
  omega

theorem FaultReg.ne_psqToken (k : Nat) {i : Nat} (hi : i < 16) : a ≠ R.psqToken k i := by
  obtain ⟨j, x, y, hx, hy, rfl⟩ := h
  unfold R.psqFrec0 R.psqToken
  omega

theorem FaultReg.ne_rdxJStatus (j : Nat) : a ≠ R.rdxJStatus j := by
  obtain ⟨k, x, y, hx, hy, rfl⟩ := h
  unfold R.psqFrec0 R.rdxJStatus
  omega

theorem FaultReg.ne_mxeStatus (e : Nat) : a ≠ R.mxeStatus e := by
  obtain ⟨k, x, y, hx, hy, rfl⟩ := h
  unfold R.psqFrec0 R.mxeStatus
  omega

theorem FaultReg.ne_vecDvuStatus (e : Nat) : a ≠ R.vecDvuStatus e := by
  obtain ⟨k, x, y, hx, hy, rfl⟩ := h
  unfold R.psqFrec0 R.vecDvuStatus
  omega

theorem FaultReg.ne_hifSEvt {k : Nat} (hk : k < 16) : a ≠ R.hifSEvt k := by
  obtain ⟨j, x, y, hx, hy, rfl⟩ := h
  unfold R.psqFrec0 R.hifSEvt
  omega

theorem FaultReg.ne_mxeErr (e : Nat) : a ≠ R.mxeErr e := by
  obtain ⟨k, x, y, hx, hy, rfl⟩ := h
  unfold R.psqFrec0 R.mxeErr
  omega

theorem FaultReg.ne_vecDvuErr (e : Nat) : a ≠ R.vecDvuErr e := by
  obtain ⟨k, x, y, hx, hy, rfl⟩ := h
  unfold R.psqFrec0 R.vecDvuErr
  omega

theorem FaultReg.ne_asuErr (d : Nat) : a ≠ R.asuErr d := by
  obtain ⟨k, x, y, hx, hy, rfl⟩ := h
  unfold R.psqFrec0 R.asuErr
  omega

/-! ### withdrawal -/

theorem FaultReg.reg_rollback (s : State) (k : Nat) (gone : List Outst) {x : Nat} (hx : x < 3) : (s.rollback k gone x).reg a = s.reg a := by
  unfold State.rollback
  dsimp only
  split
  · rfl
  · split <;> simp [State.reg_setReg, h.ne_psqAhead k hx, h.ne_psqIndex, h.ne_psqPc]

theorem FaultReg.reg_unwind (s : State) (k : Nat) (o : Outst) : (s.unwind k o).reg a = s.reg a := by
  have hjob : a ≠ R.rdxJStatus (bits o.word 32 6) := h.ne_rdxJStatus _
  unfold State.unwind
  dsimp only
  split
  · rfl
  · split
    · split
      · exact State.reg_setReg_other _ _ _ _ hjob
      · rfl
    · rfl

theorem FaultReg.reg_setTok (s : State) (k : Nat) {c : Nat} (hc : c < 64) (v : Nat) : (s.setTok k c v).reg a = s.reg a :=
  s.reg_setFld_other (h.ne_psqToken k (by omega)) _ _

theorem FaultReg.reg_giveTokens (s : State) (k mask : Nat) : (s.giveTokens k mask).reg a = s.reg a :=
  State.reg_forAll _ (fun u _ hc => h.reg_setTok u k (lt_of_mem_onesOf hc) _) s

theorem FaultReg.reg_setOutst (s : State) (k : Nat) (l : List Outst) : (s.setOutst k l).reg a = s.reg a :=
  State.reg_forAll _ (fun u x _ => u.reg_setFld_other (h.ne_psqInflight k x) _ _) _

theorem FaultReg.reg_syncUnits (s : State) (k : Nat) : (s.syncUnits k).reg a = s.reg a :=
  State.reg_forAll _ (fun u e _ => by
    rw [State.reg_syncDvu_other _ (h.ne_vecDvuStatus e), State.reg_syncMxe_other _ (h.ne_mxeStatus e)]) s

theorem FaultReg.reg_withdraw (s : State) (k : Nat) : (s.withdraw k).reg a = s.reg a := by
  unfold State.withdraw State.withdrawSome
  dsimp only
  rw [State.setQ_reg, h.reg_syncUnits, h.reg_setOutst, State.reg_foldl _ (fun u o _ => by rw [h.reg_unwind, h.reg_giveTokens]),
    State.reg_foldl _ (fun u x hx => h.reg_rollback u k _ (by simp at hx; omega))]

theorem FaultReg.reg_beginStop (s : State) (k : Nat) (cause : Fld) : (s.beginStop k cause).reg a = s.reg a := by
  have hs := h.ne_psqStatus k
  unfold State.beginStop State.stopNow State.setPst
  split
  · rw [State.reg_setFld_other _ hs, h.reg_withdraw, State.reg_setFld_other _ hs]
  · exact s.reg_setFld_other hs _ _

theorem FaultReg.reg_stakeEvent (s : State) {k : Nat} (hk : k < 16) (f : Fld) : (s.stakeEvent k f).reg a = s.reg a :=
  s.reg_raiseEvent_other (h.ne_hifSEvt hk) _ _

end

/-! ### raising a fault -/

/-- The word of PSQ_xFREC0 for a fault. -/
def faultWord (code unit : Nat) (after : Bool) : Word :=
  ((((0 : Word).setFld F.psqFrec0Code code).setFld F.psqFrec0Unit unit).setFld F.psqFrec0Valid 1).setFld F.psqFrec0After
    (if after then 1 else 0)

theorem fld_faultWord_valid (code unit : Nat) (after : Bool) : (faultWord code unit after).fld F.psqFrec0Valid = 1 := by
  unfold faultWord
  rw [Word.fld_setFld_other _ _ _ _ _ _ (by decide)]
  exact Word.fld_setFld_same _ _ _ _ (by decide)

theorem fld_faultWord_code {code : Nat} (h : code < 256) (unit : Nat) (after : Bool) :
    (faultWord code unit after).fld F.psqFrec0Code = code := by
  unfold faultWord
  rw [Word.fld_setFld_other _ _ _ _ _ _ (by decide), Word.fld_setFld_other _ _ _ _ _ _ (by decide),
    Word.fld_setFld_other _ _ _ _ _ _ (by decide)]
  exact (Word.fld_setFld_same _ _ _ _ (by decide)).trans (Nat.mod_eq_of_lt h)

/-- The state in which the first fault of a stream stands in its record. -/
def State.writeFrec (s : State) (k x index code unit : Nat) (after : Bool) : State :=
  (s.setReg (R.psqFrec0 k x) (faultWord code unit after)).setReg (R.psqFrec1 k x) (BitVec.ofNat 64 index)

/-- The stop that a fault begins, with its event. -/
def State.faultStop (s : State) (k : Nat) : State :=
  (if s.flag (R.psqStatus k) F.psqStatusStopFault then s else s.stakeEvent k F.hifSEvtFaultStop).beginStop k F.psqStatusStopFault

theorem State.raiseFault_first {s : State} {k x : Nat} (h : s.flag (R.psqFrec0 k x) F.psqFrec0Valid = false)
    (index code unit : Nat) (after : Bool) :
    s.raiseFault k x index code unit after = (s.writeFrec k x index code unit after).faultStop k := by
  unfold State.raiseFault
  rw [if_neg (by simp [h])]
  rfl

theorem FaultReg.reg_faultStop {a : Nat} (h : FaultReg a) (s : State) {k : Nat} (hk : k < 16) : (s.faultStop k).reg a = s.reg a := by
  rw [State.faultStop, h.reg_beginStop]
  split
  · rfl
  · exact h.reg_stakeEvent s hk _

/-- R141: a raised fault stands in its stream's record where it is the first, and the stake has the cause FAULT. -/
theorem State.raiseFault_faulted (s : State) {k x code : Nat} (hk : k < 16) (hx : x < 3) (hc : code < 256) (index unit : Nat)
    (after : Bool) : Faulted s (s.raiseFault k x index code unit after) k x code index := by
  intro hfirst
  rw [State.raiseFault_first hfirst]
  have hne : R.psqFrec0 k x ≠ R.psqFrec1 k x := by unfold R.psqFrec0 R.psqFrec1; omega
  have h0 : ((s.writeFrec k x index code unit after).faultStop k).reg (R.psqFrec0 k x) = faultWord code unit after := by
    rw [(FaultReg.frec0 k hx).reg_faultStop _ hk, State.writeFrec, State.reg_setReg_other _ _ _ _ hne, State.reg_setReg_same]
  have h1 : ((s.writeFrec k x index code unit after).faultStop k).reg (R.psqFrec1 k x) = BitVec.ofNat 64 index := by
    rw [(FaultReg.frec1 k hx).reg_faultStop _ hk, State.writeFrec, State.reg_setReg_same]
  refine ⟨?_, ?_, h1, State.flag_beginStop _ k (by decide) (by decide) rfl⟩
  · rw [State.flag, State.fld, h0, fld_faultWord_valid]
    rfl
  · rw [State.fld, h0, fld_faultWord_code hc]

/-- What was recorded beside the fault record before the fault was raised does not count. -/
theorem Faulted.of_frec0 {s u t : State} {k x code index : Nat} (h : Faulted u t k x code index)
    (hr : u.reg (R.psqFrec0 k x) = s.reg (R.psqFrec0 k x)) : Faulted s t k x code index :=
  fun hs => h (by rwa [State.flag_congr hr])

end Sys2Proof.Machine
end

section
/-! PROOFS. Dispatch of the head of a stream (R119, R124, R129): the tokens taken, the stream moved on, and the newest outstanding
instruction. -/

namespace Sys2Proof.Machine

/-! ### the head that may dispatch -/

/-- A head that is ready and of one of the OPCs is handed on. -/
theorem State.withHead_ready {s : State} {k x w : Nat} (h : Ready s k x w) {opcs : List Nat} (ho : opcs.contains (opcOf w) = true)
    (body : Nat → State → State) : s.withHead k x opcs body = body w s := by
  obtain ⟨hdisp, hlimit, hskip, hword, hfault, htokens, hwindow, hrank⟩ := h
  have hlimit : ¬ s.limitOf k x ≤ s.indexOf k x := by omega
  simp [State.withHead, hdisp, hlimit, hskip, hword, hfault, htokens, hwindow, hrank, List.contains_iff_mem.mp ho]

/-! ### tokens -/

theorem State.tok_lt (s : State) (k c : Nat) : s.tok k c < 2 ^ 16 := by
  unfold State.tok State.fld Word.fld
  exact BitVec.isLt _

theorem State.tok_setTok_same (s : State) (k c v : Nat) : (s.setTok k c v).tok k c = v % 2 ^ 16 :=
  s.fld_setFld_same _ _ _ (by show 16 * (c % 4) + 16 ≤ 64; omega)

theorem State.tok_setTok_other (s : State) (k : Nat) {c d : Nat} (h : d ≠ c) (v : Nat) : (s.setTok k c v).tok k d = s.tok k d := by
  unfold State.tok State.setTok
  by_cases hr : d / 4 = c / 4
  · rw [hr]
    exact s.fld_setFld_fld _ _ _ _ (by show 16 * (d % 4) + 16 ≤ 16 * (c % 4) ∨ 16 * (c % 4) + 16 ≤ 16 * (d % 4); omega)
  · exact s.fld_setFld_reg _ _ _ _ _ (by unfold R.psqToken; omega)

/-- Each counter of the mask is one lower, and no other changes (R124). -/
theorem State.tok_takeTokens (s : State) (k mask : Nat) {c : Nat} (hc : c < 64) :
    (s.takeTokens k mask).tok k c = s.tok k c - (if mask.testBit c then 1 else 0) := by
  have fold : ∀ (l : List Nat) (u : State), l.Nodup →
      (u.forAll l (fun u c => u.setTok k c (u.tok k c - 1))).tok k c = u.tok k c - (if c ∈ l then 1 else 0) := by
    intro l
    induction l with
    | nil => exact fun u _ => by simp [State.forAll]
    | cons d l ih =>
      intro u hnd
      obtain ⟨hd, hnd⟩ := List.nodup_cons.mp hnd
      have hstep := ih (u.setTok k d (u.tok k d - 1)) hnd
      rw [State.forAll, List.foldl_cons]
      rw [State.forAll] at hstep
      rw [hstep]
      by_cases h : c = d
      · subst h
        have := u.tok_lt k c
        rw [State.tok_setTok_same, Nat.mod_eq_of_lt (by omega)]
        simp [hd]
      · rw [State.tok_setTok_other _ _ h]
        simp [h]
  have hmem : c ∈ onesOf 64 mask ↔ mask.testBit c = true := by simp [onesOf, hc]
  have hnd : (onesOf 64 mask).Nodup := List.nodup_range.filter _
  rw [State.takeTokens, fold _ _ hnd]
  simp only [hmem]

/-- A step that leaves the token registers leaves the counters. -/
theorem State.tok_congr {s t : State} {k : Nat} (h : ∀ i, i < 16 → t.reg (R.psqToken k i) = s.reg (R.psqToken k i)) {c : Nat}
    (hc : c < 64) : t.tok k c = s.tok k c := by
  rw [State.tok, State.fld, h _ (by omega), State.tok, State.fld]

/-! ### the stream moves on -/

/-- A bit cleared reads as clear. -/
theorem testBit_setBit_false (x i : Nat) : (setBit x i false).testBit i = false := by
  by_cases h : x.testBit i = true
  · have hodd : x / 2 ^ i % 2 = 1 := by simpa [Nat.testBit_eq_decide_div_mod_eq] using h
    have hsub : (x - 2 ^ i) / 2 ^ i = x / 2 ^ i - 1 := by simpa using Nat.sub_mul_div x (2 ^ i) 1
    have hclear : setBit x i false = x - 2 ^ i := by simp [setBit, h]
    rw [hclear, Nat.testBit_eq_decide_div_mod_eq, hsub]
    simp
    omega
  · simp [setBit, h]

/-- What `skipDone` keeps, where fetching a line and passing a completed instruction keep it. -/
theorem State.skipDone_rec {k x : Nat} {P : State → Prop} (hfetch : ∀ u, P u → P (u.fetchLine k x))
    (hstep : ∀ u pc, P u → P (u.stepIndex k x pc)) (n : Nat) {s : State} (h : P s) : P (s.skipDone k x n) := by
  induction n generalizing s with
  | zero => exact h
  | succ n ih =>
    unfold State.skipDone
    split
    · exact h
    · split
      · split
        · exact h
        · exact ih (hfetch _ h)
      · exact ih (hstep _ _ h)

theorem State.skipDone_of_not_skip {s : State} {k x : Nat} (h : (s.q k).skip.testBit x = false) (n : Nat) : s.skipDone k x n = s := by
  cases n with
  | zero => rfl
  | succ n => simp [State.skipDone, h]

theorem State.q_setQ_same (s : State) (k : Nat) (c : Psq) : (s.setQ k c).q k = c := by simp [State.q_setQ]

/-- The stream that moves on leaves what is outstanding, and the numbers of dispatches. -/
theorem State.advance_outst (s : State) (k x pc : Nat) :
    ((s.advance k x pc).q k).outst = (s.q k).outst ∧ ((s.advance k x pc).q k).seq = (s.q k).seq := by
  have hstep : ∀ (u : State) pc, ((u.stepIndex k x pc).q k).outst = (u.q k).outst ∧ ((u.stepIndex k x pc).q k).seq = (u.q k).seq := by
    intro u pc
    unfold State.stepIndex
    simp [State.q_setQ_same]
  refine State.skipDone_rec (P := fun u => (u.q k).outst = (s.q k).outst ∧ (u.q k).seq = (s.q k).seq) (fun u hu => ?_)
    (fun u pc hu => ?_) _ (hstep s pc)
  · unfold State.fetchLine
    simpa [State.q_setQ_same] using hu
  · exact ⟨(hstep u pc).1.trans hu.1, (hstep u pc).2.trans hu.2⟩

/-- The stream that moves on writes its PC, INDEX and AHEAD, and no other register. -/
theorem State.reg_stepIndex_other (s : State) {a k x : Nat} (hpc : a ≠ R.psqPc k x) (hindex : a ≠ R.psqIndex k x)
    (hahead : a ≠ R.psqAhead k x) (pc : Nat) : (s.stepIndex k x pc).reg a = s.reg a := by
  simp [State.stepIndex, State.reg_setReg, State.reg_setFld, hpc, hindex, hahead]

theorem State.reg_advance_other (s : State) {a k x : Nat} (hpc : a ≠ R.psqPc k x) (hindex : a ≠ R.psqIndex k x)
    (hahead : a ≠ R.psqAhead k x) (pc : Nat) : (s.advance k x pc).reg a = s.reg a :=
  State.skipDone_rec (P := fun u => u.reg a = s.reg a) (fun _ hu => hu)
    (fun u pc hu => (u.reg_stepIndex_other hpc hindex hahead pc).trans hu) _ (s.reg_stepIndex_other hpc hindex hahead pc)

/-- Where no completed instruction follows, INDEX counts one more and PC is the offset given. -/
theorem State.advance_advanced (s : State) (k x pc : Nat) : Advanced s (s.advance k x pc) k x pc := by
  intro hahead
  have hskip : ((s.stepIndex k x pc).q k).skip.testBit x = false := by
    unfold State.stepIndex
    dsimp only
    rw [State.q_setQ_same, hahead]
    exact testBit_setBit_false _ _
  have hpi : R.psqIndex k x ≠ R.psqPc k x := by unfold R.psqIndex R.psqPc; omega
  have hia : R.psqIndex k x ≠ R.psqAhead k x := by unfold R.psqIndex R.psqAhead; omega
  have hpa : R.psqPc k x ≠ R.psqAhead k x := by unfold R.psqPc R.psqAhead; omega
  rw [State.advance, State.skipDone_of_not_skip hskip]
  constructor
  · simp [State.stepIndex, State.indexOf, State.reg_setReg, State.reg_setFld, hpi, hia]
  · rw [State.pcOf, State.stepIndex]
    rw [State.setQ_fld]
    simp only [State.fld_setReg, hpa, hpi.symm, if_false]
    exact State.fld_setFld_same _ _ _ _ (by decide)

/-! ### the newest outstanding instruction -/

theorem State.reg_takeTokens_other (s : State) {a k : Nat} (h : ∀ i, i < 16 → a ≠ R.psqToken k i) (mask : Nat) :
    (s.takeTokens k mask).reg a = s.reg a :=
  State.reg_forAll _ (fun u c hc => u.reg_setFld_other (h _ (by have := lt_of_mem_onesOf hc; omega)) _ _) s

theorem State.reg_setOutst_other (s : State) {a k : Nat} (h : ∀ x, x < 3 → a ≠ R.psqInflight k x) (l : List Outst) :
    (s.setOutst k l).reg a = s.reg a :=
  State.reg_forAll _ (fun u x hx => u.reg_setFld_other (h x (by simp at hx; omega)) _ _) _

theorem State.q_forAll {k : Nat} {f : State → Nat → State} (hf : ∀ u i, (f u i).q k = u.q k) (l : List Nat) (s : State) :
    (s.forAll l f).q k = s.q k :=
  List.foldlRecOn l f (motive := fun u => u.q k = s.q k) rfl (fun u hu i _ => (hf u i).trans hu)

theorem State.q_takeTokens (s : State) (k mask : Nat) : (s.takeTokens k mask).q k = s.q k := by
  refine State.q_forAll (fun u c => ?_) _ s
  rfl

theorem State.q_setOutst (s : State) (k : Nat) (l : List Outst) : (s.setOutst k l).q k = { s.q k with outst := l } := by
  refine (State.q_forAll (fun u x => ?_) _ _).trans (s.q_setQ_same _ _)
  rfl

/-- The state of a dispatch before the stream moves on: its tokens are taken, and it is outstanding. -/
def State.enlist (s : State) (k : Nat) (o : Outst) : State :=
  let s := s.takeTokens k o.waits
  let s := s.setQ k { s.q k with seq := (s.q k).fresh + 1 }
  s.setOutst k ((s.q k).outst ++ [o])

theorem State.q_enlist (s : State) (k : Nat) (o : Outst) :
    (s.enlist k o).q k = { s.q k with outst := (s.q k).outst ++ [o], seq := (s.q k).fresh + 1 } := by
  unfold State.enlist
  simp only [State.q_setOutst, State.q_setQ_same, State.q_takeTokens]

theorem State.tok_enlist (s : State) (k : Nat) (o : Outst) {c : Nat} (hc : c < 64) :
    (s.enlist k o).tok k c = s.tok k c - (if o.waits.testBit c then 1 else 0) := by
  rw [← s.tok_takeTokens k o.waits hc]
  refine State.tok_congr (fun i _ => ?_) hc
  unfold State.enlist
  exact State.reg_setOutst_other _ (fun x _ => by unfold R.psqToken R.psqInflight; omega) _

/-- A dispatch writes the token registers and PSQ_xINFLIGHT before the stream moves on. -/
theorem State.reg_enlist_other (s : State) {a k : Nat} (htok : ∀ i, i < 16 → a ≠ R.psqToken k i)
    (hin : ∀ x, x < 3 → a ≠ R.psqInflight k x) (o : Outst) : (s.enlist k o).reg a = s.reg a := by
  unfold State.enlist
  dsimp only
  rw [State.reg_setOutst_other _ hin, State.setQ_reg, State.reg_takeTokens_other _ htok]

theorem State.reg_enlist_psqIndex (s : State) (k : Nat) {x : Nat} (hx : x < 3) (o : Outst) :
    (s.enlist k o).reg (R.psqIndex k x) = s.reg (R.psqIndex k x) :=
  s.reg_enlist_other (fun i _ => by unfold R.psqIndex R.psqToken; omega) (fun y _ => by unfold R.psqIndex R.psqInflight; omega) o

theorem State.reg_enlist_psqAhead (s : State) (k : Nat) {x : Nat} (hx : x < 3) (o : Outst) :
    (s.enlist k o).reg (R.psqAhead k x) = s.reg (R.psqAhead k x) :=
  s.reg_enlist_other (fun i _ => by unfold R.psqAhead R.psqToken; omega) (fun y _ => by unfold R.psqAhead R.psqInflight; omega) o

theorem State.dispatchOut_eq (s : State) (k : Nat) {x : Nat} (hx : x < 3) (w unit : Nat) (issued : Bool) (desc chain : List Byte)
    (frame : Nat) : s.dispatchOut k x w unit issued desc chain frame =
      (s.enlist k (s.newOutst k x w unit issued desc chain frame)).advance k x (s.pcOf k x + 1) := by
  have hpc : (s.takeTokens k (s.tset k (waitOf w))).pcOf k x = s.pcOf k x := by
    rw [State.pcOf, State.fld, State.reg_takeTokens_other _ (fun i _ => by unfold R.psqPc R.psqToken; omega), State.pcOf, State.fld]
  rw [← hpc]
  rfl

/-- R124, R129, R130: the tokens of the dispatched head are taken, its stream moves on, and it is the newest outstanding instruction. -/
theorem State.dispatchOut_dispatched (s : State) (k : Nat) {x : Nat} (hx : x < 3) (w unit : Nat) (issued : Bool) (desc chain : List Byte)
    (frame : Nat) : Dispatched s (s.dispatchOut k x w unit issued desc chain frame) k x w unit issued := by
  rw [State.dispatchOut_eq _ _ hx]
  let o := s.newOutst k x w unit issued desc chain frame
  have houtst := ((s.enlist k o).advance_outst k x (s.pcOf k x + 1)).1
  have hlist : ((s.enlist k o).q k).outst = (s.q k).outst ++ [o] := by rw [State.q_enlist]
  refine ⟨fun c hc => ?_, fun hahead => ?_, ?_, o, ?_, rfl, rfl, rfl, rfl, rfl, rfl, rfl⟩
  · have hsame : ∀ i, i < 16 →
        ((s.enlist k o).advance k x (s.pcOf k x + 1)).reg (R.psqToken k i) = (s.enlist k o).reg (R.psqToken k i) :=
      fun i _ => State.reg_advance_other _ (by unfold R.psqToken R.psqPc; omega) (by unfold R.psqToken R.psqIndex; omega)
        (by unfold R.psqToken R.psqAhead; omega) _
    exact (State.tok_congr hsame hc).trans (s.tok_enlist k o hc)
  · rw [← s.reg_enlist_psqAhead k hx o] at hahead
    have h := State.advance_advanced _ k x (s.pcOf k x + 1) hahead
    rwa [State.indexOf, State.indexOf, s.reg_enlist_psqIndex k hx o] at h
  · rw [houtst, hlist, List.length_append, List.length_singleton]
  · rw [houtst, hlist, List.getLast?_append, List.getLast?_singleton, Option.some_or]

/-- The descriptors of the newest outstanding instruction (R130). -/
def State.newestDescs (s : State) (k : Nat) : Option (List Byte × List Byte) := (s.q k).outst.getLast?.map (fun o => (o.desc, o.chain))

theorem State.dispatchOut_newestDescs (s : State) (k : Nat) {x : Nat} (hx : x < 3) (w unit : Nat) (issued : Bool)
    (desc chain : List Byte) (frame : Nat) :
    (s.dispatchOut k x w unit issued desc chain frame).newestDescs k = some (desc, chain) := by
  rw [State.dispatchOut_eq _ _ hx, State.newestDescs, (State.advance_outst _ _ _ _).1, State.q_enlist]
  simp [State.newOutst]

/-- The newest outstanding instruction is bound to the frame that it pushes to (R155). -/
def State.bindPush (s : State) (k dest : Nat) : State := s.updOutst k ((s.q k).seq - 1) (fun o => { o with pushTo := dest })

theorem State.bindPush_outst (s : State) (k dest : Nat) :
    ((s.bindPush k dest).q k).outst =
      (s.q k).outst.map (fun o => if o.seq = (s.q k).seq - 1 then { o with pushTo := dest } else o) := by
  rw [State.bindPush, State.updOutst, State.q_setQ_same]

theorem Dispatched.bindPush {s t : State} {k x w unit : Nat} {issued : Bool} (h : Dispatched s t k x w unit issued) (dest : Nat) :
    Dispatched s (t.bindPush k dest) k x w unit issued := by
  obtain ⟨htaken, hadv, hlen, o, ho, hrest⟩ := h
  refine ⟨htaken, hadv, ?_, if o.seq = (t.q k).seq - 1 then { o with pushTo := dest } else o, ?_, ?_⟩
  · rw [State.bindPush_outst, List.length_map, hlen]
  · rw [State.bindPush_outst, List.getLast?_map, ho]
    rfl
  · split <;> exact hrest

theorem State.bindPush_newestDescs (s : State) (k dest : Nat) : (s.bindPush k dest).newestDescs k = s.newestDescs k := by
  rw [State.newestDescs, State.bindPush_outst, List.getLast?_map, Option.map_map]
  refine congrArg (Option.map · _) (funext fun o => ?_)
  dsimp only [Function.comp]
  split <;> rfl

/-- A dispatch is seen in the registers of the pass sequencers, and in what is outstanding. -/
theorem Dispatched.congr {s t u : State} {k x w unit : Nat} {issued : Bool} (h : Dispatched s t k x w unit issued)
    (hq : u.q k = t.q k) (hr : ∀ a, R.psqId 0 ≤ a → u.reg a = t.reg a) : Dispatched s u k x w unit issued := by
  have hindex : u.indexOf k x = t.indexOf k x := by
    rw [State.indexOf, hr _ (by unfold R.psqId R.psqIndex; omega), State.indexOf]
  have hpc : u.pcOf k x = t.pcOf k x := by
    rw [State.pcOf, State.fld, hr _ (by unfold R.psqId R.psqPc; omega), State.pcOf, State.fld]
  obtain ⟨htaken, hadv, hnewest⟩ := h
  refine ⟨fun c hc => ?_, fun ha => ?_, ?_⟩
  · rw [← htaken c hc]
    exact State.tok_congr (fun i _ => hr _ (by unfold R.psqId R.psqToken; omega)) hc
  · rw [hindex, hpc]
    exact hadv ha
  · rw [hq]
    exact hnewest

end Sys2Proof.Machine
end

section
/-! PROOFS. MXF, MXB and MXW (R64, R65, R67, R83): the checks in their order, and the dispatch to the engine. -/

namespace Sys2Proof.Machine

/-! ### fault codes (R83, R118) -/

theorem mem_of_firstCode {l : List (Bool × Nat)} {c : Nat} (h : firstCode l = some c) : c ∈ l.map (·.2) := by
  obtain ⟨p, hp, rfl⟩ := Option.map_eq_some_iff.mp h
  exact List.mem_map_of_mem (List.mem_of_find?_eq_some hp)

/-- The codes of a chain's faults fit the 8-bit CODE of a record. -/
theorem State.chainFault_lt {s : State} {k x e level c : Nat} {drain : Option (Nat × Nat)} {d : ChainD}
    (h : s.chainFault k x e level drain d = some c) : c < 256 := by
  have hc := mem_of_firstCode h
  simp only [List.map_cons, List.map_nil, List.mem_cons, List.not_mem_nil, or_false] at hc
  omega

/-- So do those of a matrix instruction. -/
theorem State.mxCheck_lt (s : State) (k x w : Nat) : (s.mxCheck k x w).1 < 256 := by
  unfold State.mxCheck
  dsimp only
  repeat' split
  all_goals dsimp only
  any_goals omega
  exact State.chainFault_lt ‹_›

/-! ### where a fault is recorded -/

theorem parseMx_eng_lt (w : Nat) : (parseMx w).eng < 32 := Nat.mod_lt _ (by decide)

theorem FaultReg.reg_mxeErr {a : Nat} (h : FaultReg a) (s : State) (e x index code : Nat) : (s.mxeErr e x index code).reg a = s.reg a :=
  s.reg_setReg_other _ _ _ (h.ne_mxeErr e)

theorem FaultReg.reg_dvuErr {a : Nat} (h : FaultReg a) (s : State) (e k x index code : Nat) :
    (s.dvuErr e k x index code).reg a = s.reg a := by
  unfold State.dvuErr
  dsimp only
  split
  · rw [State.asuErr, State.reg_setReg_other _ _ _ _ (h.ne_asuErr _), State.reg_setReg_other _ _ _ _ (h.ne_vecDvuErr e)]
  · exact s.reg_setReg_other _ _ _ (h.ne_vecDvuErr e)

/-- A fault of a matrix instruction stands in its stream's record, wherever else it is recorded. -/
theorem State.mxFault_faulted (s : State) {k x code : Nat} (hk : k < 16) (hx : x < 3) (hc : code < 256) (e : Nat) :
    Faulted s (s.mxFault k x e code) k x code (s.indexOf k x) := by
  have hfrec := FaultReg.frec0 k hx
  refine Faulted.of_frec0 (State.raiseFault_faulted _ hk hx hc _ e false) ?_
  split
  · rfl
  · split
    · exact hfrec.reg_mxeErr s _ _ _ _
    · exact hfrec.reg_dvuErr s _ _ _ _ _

/-! ### the head of a stream -/

section
variable {s : State} {k x w opc : Nat} (h : Ready s k x w) (ho : opcOf w = opc)
include h ho

theorem State.mxDispatch_reserved (hr : (parseMx w).rsv = true) : s.mxDispatch k x opc = s.mxFault k x (parseMx w).eng 0x20 := by
  rw [State.mxDispatch, State.withHead_ready h (by simp [ho]), if_pos hr]

variable (hr : (parseMx w).rsv = false)
include hr

theorem State.mxDispatch_foreign (he : (s.stake k).eng.testBit (parseMx w).eng = false) :
    s.mxDispatch k x opc = s.mxFault k x (parseMx w).eng 0x21 := by
  rw [State.mxDispatch, State.withHead_ready h (by simp [ho])]
  simp [hr, he]

variable (he : (s.stake k).eng.testBit (parseMx w).eng = true)
include he

theorem State.mxDispatch_failed (hn : s.engNone k (parseMx w).eng = true) :
    s.mxDispatch k x opc = s.mxFault k x (parseMx w).eng 0x30 := by
  rw [State.mxDispatch, State.withHead_ready h (by simp [ho])]
  simp [hr, he, hn]

variable (hn : s.engNone k (parseMx w).eng = false)
include hn

theorem State.mxDispatch_refused (hf : (s.mxCheck k x w).1 ≠ 0) :
    s.mxDispatch k x opc = s.mxFault k x (parseMx w).eng (s.mxCheck k x w).1 := by
  rw [State.mxDispatch, State.withHead_ready h (by simp [ho])]
  simp [hr, he, hn, hf]

theorem State.mxDispatch_passed {b cb : List Byte} (hc : s.mxCheck k x w = (0, b, cb)) :
    ∃ frame dest, s.mxDispatch k x opc =
      (((s.dispatchOut k x w (s.engFor k (parseMx w).eng) false b cb frame).bindPush k dest).syncMxe k (s.engFor k (parseMx w).eng)).syncDvu
        k (s.engFor k (parseMx w).eng) := by
  rw [State.mxDispatch, State.withHead_ready h (by simp [ho])]
  simp only [hr, he, hn, hc, Bool.false_eq_true, Bool.not_true, if_false, ne_eq, not_true]
  exact ⟨_, _, rfl⟩

end

/-- A fault of the head: its record, memory and the module's own as they were. -/
theorem State.mxDispatch_faulted {s : State} {k x w code : Nat} (hk : k < 16) (hx : x < 3) (hc : code < 256) {opc : Nat}
    (h : s.mxDispatch k x opc = s.mxFault k x (parseMx w).eng code) :
    Faulted s (s.mxDispatch k x opc) k x code (s.indexOf k x) ∧ SameMemory s (s.mxDispatch k x opc) ∧ Apart s (s.mxDispatch k x opc) :=
  ⟨h ▸ s.mxFault_faulted hk hx hc _, (State.mxDispatch_dry k x opc (.refl s)).same, State.mxDispatch_apart k x opc (.refl s)⟩

theorem State.engFor_lt (s : State) (k : Nat) {e : Nat} (he : e < 32) : s.engFor k e < 32 := by
  have hsub : s.fld (R.psqFtSubst k (e / 16)) (3 * (e % 16), 3) < 2 ^ 3 := BitVec.isLt _
  unfold State.engFor
  omega

theorem State.q_syncMxe (s : State) (k e j : Nat) : (s.syncMxe k e).q j = s.q j := by
  unfold State.syncMxe
  dsimp only
  split
  · rfl
  · rw [State.setFld_q, State.setFld_q, State.setFld_q]

theorem State.q_syncDvu (s : State) (k e j : Nat) : (s.syncDvu k e).q j = s.q j := by
  unfold State.syncDvu
  dsimp only
  split
  · rfl
  · exact State.setFld_q _ _ _ _ _

/-- What passes the checks dispatches to its engine, or to the substitute, with the descriptors as read. -/
theorem State.mxDispatch_dispatched {s : State} {k x w opc : Nat} (hx : x < 3) (h : Ready s k x w) (ho : opcOf w = opc)
    (hr : (parseMx w).rsv = false) (he : (s.stake k).eng.testBit (parseMx w).eng = true) (hn : s.engNone k (parseMx w).eng = false)
    {b cb : List Byte} (hc : s.mxCheck k x w = (0, b, cb)) :
    Dispatched s (s.mxDispatch k x opc) k x w (s.engFor k (parseMx w).eng) false ∧
      (s.mxDispatch k x opc).newestDescs k = some (b, cb) := by
  obtain ⟨frame, dest, heq⟩ := State.mxDispatch_passed h ho hr he hn hc
  generalize hu : s.engFor k (parseMx w).eng = u at heq ⊢
  have hu : u < 32 := hu ▸ s.engFor_lt k (parseMx_eng_lt w)
  let d := (s.dispatchOut k x w u false b cb frame).bindPush k dest
  have hq : ((d.syncMxe k u).syncDvu k u).q k = d.q k := by rw [State.q_syncDvu, State.q_syncMxe]
  have hreg : ∀ a, R.psqId 0 ≤ a → ((d.syncMxe k u).syncDvu k u).reg a = d.reg a := by
    intro a ha
    unfold R.psqId at ha
    rw [State.reg_syncDvu_other _ (by unfold R.vecDvuStatus; omega), State.reg_syncMxe_other _ (by unfold R.mxeStatus; omega)]
  rw [heq]
  refine ⟨((s.dispatchOut_dispatched k hx w u false b cb frame).bindPush dest).congr hq hreg, ?_⟩
  rw [State.newestDescs, hq]
  exact (State.bindPush_newestDescs _ k dest).trans (s.dispatchOut_newestDescs k hx w u false b cb frame)

end Sys2Proof.Machine

open Sys2Proof Sys2Proof.Machine in
/-- Settles O15: the three commands are one `mxDispatch`; its checks in their order, each with its code, and what passes them all. -/
theorem matrixDispatch : Obligations.MatrixDispatch := by
  intro s k x go
  have hx : x.num < 3 := by cases x <;> decide
  have all : ∀ c opc, exec c s = .next (s.mxDispatch k x.num opc) → go c opc := by
    intro c opc hexec w h ho p faulted
    have fault : ∀ {code}, code < 256 → s.mxDispatch k x.num opc = s.mxFault k x.num p.eng code → faulted code :=
      fun hc heq => ⟨_, hexec, State.mxDispatch_faulted k.isLt hx hc heq⟩
    refine ⟨fun hr => fault (by decide) (State.mxDispatch_reserved h ho hr),
      fun hr he => fault (by decide) (State.mxDispatch_foreign h ho hr he),
      fun hr he hn => fault (by decide) (State.mxDispatch_failed h ho hr he hn), fun hr he hn f b cb hc => ?_⟩
    have hcode : (s.mxCheck k x.num w).1 = f := congrArg Prod.fst hc
    constructor
    · intro hf
      exact fault (hcode ▸ s.mxCheck_lt k x.num w) (hcode ▸ State.mxDispatch_refused h ho hr he hn (hcode.symm ▸ hf))
    · rintro rfl
      obtain ⟨hd, hdescs⟩ := State.mxDispatch_dispatched hx h ho hr he hn hc
      exact ⟨_, hexec, hd, hdescs, (State.mxDispatch_dry k x.num opc (.refl s)).same, State.mxDispatch_apart k x.num opc (.refl s)⟩
  exact ⟨all _ _ rfl, all _ _ rfl, all _ _ rfl⟩

end

section
/-! PROOFS. Reads and writes that have reached a scratchpad (R81, R82): what they answer, and the errors of its words. -/

namespace Sys2Proof.Machine

/-! ### addresses of a scratchpad -/

theorem isSpadStride_iff (a : Nat) : isSpadStride a = true ↔ 0x2000000000000 ≤ a ∧ a < 0x2000040000000 := by
  simp only [isSpadStride, Bool.and_eq_true, decide_eq_true_eq]
  rfl

section
variable {a : Nat} (ha : isSpadStride a = true)
include ha

theorem spad_bounds : 0x2000000000000 ≤ a ∧ a < 0x2000040000000 := (isSpadStride_iff a).mp ha

theorem not_reg_of_spad : isReg a = false := by
  have hb := spad_bounds ha
  have hlow : ¬ regBase ≤ a := by unfold regBase; omega
  simp [isReg, hlow]

theorem not_hbm_of_spad {b : Nat} (h : lineOf a ≤ b) : isHbm b = false := by
  have hb := spad_bounds ha
  have hhigh : ¬ b < hbmEnd := by unfold hbmEnd; unfold lineOf at h; omega
  simp [isHbm, hhigh]

theorem not_cxl_of_spad {b : Nat} (h : lineOf a ≤ b) : isCxl b = false := by
  have hb := spad_bounds ha
  have hhigh : ¬ b < cxlEnd := by unfold cxlEnd; unfold lineOf at h; omega
  simp [isCxl, hhigh]

/-- CXT_ERR counts no access to a scratchpad. -/
theorem State.noteCxl_spad (s : State) {b : Nat} (h : lineOf a ≤ b) (n : Nat) (read : Bool) : s.noteCxl b n read = s := by
  simp [State.noteCxl, not_cxl_of_spad ha h]

/-- A write to a scratchpad meets no lost stack and no CXL port. -/
theorem State.not_dropped_of_spad (s : State) : s.dropped a = false := by
  have hline : lineOf a ≤ a := Nat.div_mul_le_self a 64
  simp [State.dropped, State.stackLost, not_hbm_of_spad ha hline, not_cxl_of_spad ha hline]

/-- A read of a scratchpad meets poison where its 64-byte units hold a poisoned word (R82). -/
theorem State.badFabric_spad (s : State) {n : Nat} (hn : n ≠ 0) :
    s.badFabric a n = s.poison.any (fun p => decide (p < lineOf (a + n - 1) + 64) && decide (lineOf a < p + unitSize p)) := by
  have hline : lineOf a ≤ lineOf (a + n - 1) := by unfold lineOf; omega
  have hspan : lineOf a + (lineOf (a + n - 1) + 64 - lineOf a) = lineOf (a + n - 1) + 64 := by omega
  have hlost (b : Nat) (h : lineOf a ≤ b) : s.stackLost b = false := by simp [State.stackLost, not_hbm_of_spad ha h]
  unfold State.badFabric State.bad
  rw [if_pos ⟨ha, Nat.pos_of_ne_zero hn⟩]
  simp only [← lineOf.eq_1, hspan, hlost (lineOf a) (le_refl _), hlost (lineOf (a + n - 1) + 64 - 1) (by omega), Bool.and_false,
    Bool.or_false]

end

theorem isSpadStride_of_isSpad {p : Nat} (h : isSpad p = true) : isSpadStride p = true := by
  simp only [isSpad, Bool.and_eq_true] at h
  exact h.1

theorem spadEng_lt {p : Nat} (h : isSpad p = true) : spadEng p < 32 := by
  have hb := spad_bounds (isSpadStride_of_isSpad h)
  unfold spadEng spadAll
  omega

/-! ### the error counts -/

theorem cxtErr_mem_errorRegs : R.cxtErr ∈ errorRegs := List.mem_cons_self

theorem mxeEcc_mem_errorRegs {e : Nat} (h : e < 32) : R.mxeEcc e ∈ errorRegs :=
  List.mem_append_right _ (List.mem_map_of_mem (List.mem_range.mpr h))

/-- A count goes up by one, and stays at its largest value. -/
theorem State.fld_addSat_one (s : State) (a lo n : Nat) (h : lo + n ≤ 64) :
    (s.addSat a (lo, n) 1).fld a (lo, n) = min (s.fld a (lo, n) + 1) (2 ^ n - 1) := by
  have hpos : 0 < 2 ^ n := Nat.two_pow_pos n
  unfold State.addSat
  rw [s.fld_setFld_same a (lo, n) _ h]
  exact Nat.mod_eq_of_lt (by dsimp only; omega)

theorem State.reg_addSat_other (s : State) {a b : Nat} (h : b ≠ a) (f : Fld) (n : Nat) : (s.addSat a f n).reg b = s.reg b :=
  s.reg_setFld_other h _ _

/-! ### the poison of a word -/

theorem mem_insertNat (k : Nat) (l : List Nat) : k ∈ insertNat k l := by
  induction l with
  | nil => exact List.mem_cons_self
  | cons a t ih =>
    unfold insertNat
    split
    · exact List.mem_cons_self
    · split
      · next h => exact h ▸ List.mem_cons_self
      · exact List.mem_cons_of_mem a ih

/-- Poison of one byte marks the unit that it lies in. -/
theorem State.unitOf_mem_poisonRange (s : State) (p : Nat) : unitOf p ∈ (s.poisonRange p 1).poison := by
  have hsize : unitSize p ≠ 0 := by unfold unitSize; split <;> omega
  have hone : (p + 1 - 1 - unitOf p) / unitSize p = 0 := by
    refine Nat.div_eq_of_lt ?_
    unfold unitOf unitSize
    split <;> omega
  unfold State.poisonRange
  rw [if_neg Nat.one_ne_zero]
  simp only [hone, Nat.zero_add, List.range_one, List.foldl_cons, List.foldl_nil, Nat.zero_mul, Nat.add_zero]
  exact mem_insertNat _ _

theorem State.reg_poisonRange (s : State) (p n b : Nat) : (s.poisonRange p n).reg b = s.reg b := by
  unfold State.poisonRange
  split <;> rfl

/-- A poisoned word within the 64-byte units that a read takes makes it answer poison. -/
theorem State.badFabric_of_word {s : State} {a n p : Nat} (ha : isSpadStride a = true) (hn : n ≠ 0) (hp : isSpad p = true)
    (hlo : lineOf a ≤ p) (hhi : p < lineOf (a + n - 1) + 64) (h : unitOf p ∈ s.poison) : s.badFabric a n = true := by
  have hb := spad_bounds (isSpadStride_of_isSpad hp)
  have hword : unitOf p = p / 8 * 8 := if_pos (isSpadStride_of_isSpad hp)
  have hsize : unitSize (p / 8 * 8) = 8 := if_pos ((isSpadStride_iff _).mpr (by omega))
  rw [s.badFabric_spad ha hn, List.any_eq_true]
  refine ⟨_, h, ?_⟩
  rw [hword, hsize, Bool.and_eq_true, decide_eq_true_eq, decide_eq_true_eq]
  unfold lineOf at *
  omega

/-! ### states that an access to a scratchpad cannot tell apart -/

/-- What an access to a scratchpad meets in `u` is what it would meet in `s`. -/
structure SpadView (s u : State) : Prop where
  dry    : Dry s u
  poison : u.poison = s.poison
  regs   : SameRegs [R.cxtErr] s u
  apart  : Apart s u

theorem SpadView.refl (s : State) : SpadView s s := ⟨.refl s, rfl, fun _ _ => rfl, .refl s⟩

theorem SpadView.trans {r s t : State} (h : SpadView r s) (h' : SpadView s t) : SpadView r t :=
  ⟨h.dry.trans h'.dry, h'.poison.trans h.poison, fun x hx => (h'.regs x hx).trans (h.regs x hx), h.apart.trans h'.apart⟩

/-- Memory, the module's own and every register but those that count and record errors of the arrays are as they were. -/
def SameButErrors (s t : State) : Prop := SameMemory s t ∧ SameRegs errorRegs s t ∧ Apart s t

/-- What a read of a scratchpad answers, by what memory and poison hold (R82). -/
def State.spadValue (s : State) (a n : Nat) : Resp := if s.badFabric a n then .poison else .data (s.bytes a n)

theorem State.engOwner_congr {s u : State} (h : u.weave = s.weave) (e : Nat) : u.engOwner e = s.engOwner e := by
  simp only [State.engOwner, State.enabled, State.stake, h]

theorem State.asuPart_congr {s u : State} (h : u.weave = s.weave) (a n : Nat) : u.asuPart a n = s.asuPart a n := by
  have hstake (k : Nat) : u.stake k = s.stake k := by unfold State.stake; rw [h]
  unfold State.asuPart
  simp only [State.engOwner_congr h, hstake]

theorem State.spadValue_congr {s u : State} {a n : Nat} (ha : isSpadStride a = true) (hn : n ≠ 0) (hm : SameMemory s u)
    (hp : u.poison = s.poison) : u.spadValue a n = s.spadValue a n := by
  have hbytes : u.bytes a n = s.bytes a n := by simp only [State.bytes, hm _]
  unfold State.spadValue
  rw [u.badFabric_spad ha hn, s.badFabric_spad ha hn, hp, hbytes]

/-- A read answers what memory and poison hold once the errors of its words are taken. -/
theorem State.spadDo_read (u : State) {a n : Nat} (ha : isSpadStride a = true) (e : Errs) :
    u.spadDo a (.read n) e = (u.arrayErrs [fabricSpan a n] e).answer ((u.arrayErrs [fabricSpan a n] e).spadValue a n) := by
  have herrs : u.readErrs [fabricSpan a n] e = u.arrayErrs [fabricSpan a n] e := State.noteCxl_spad ha _ (le_refl _) _ _
  unfold State.spadDo State.spadValue
  simp only [herrs]
  split <;> rfl

theorem State.arrayErrs_none (u : State) (l : List (Nat × Nat)) {e : Errs} (h : e.mem = []) : u.arrayErrs l e = u := by
  simp [State.arrayErrs, h]

/-- The one erroneous word that a read takes. -/
theorem State.arrayErrs_word (u : State) {a n p ecc : Nat} {e : Errs} (h : e.mem = [(p, ecc)]) (hp : isSpad p = true)
    (hlo : lineOf a ≤ p) (hhi : p < lineOf (a + n - 1) + 64) : u.arrayErrs [fabricSpan a n] e = u.spadEcc p ecc := by
  simp [State.arrayErrs, h, fabricSpan, hlo, hhi, hp]

/-! ### what reads and writes leave -/

/-- What an access that reads `n` bytes at `a` of a scratchpad leaves and answers (R81, R82). -/
def SpadReads (s : State) (a n : Nat) (e : Errs) (o : Host.Outcome State Fault Refusal) : Prop :=
  (e.mem = [] → Answers o (fun t => t.resp = s.spadValue a n ∧ t.poison = s.poison ∧ SameButErrors s t)) ∧
  (∀ p ecc, e.mem = [(p, ecc)] → isSpad p = true → lineOf a ≤ p → p < lineOf (a + n - 1) + 64 →
    s.poison.contains (unitOf p) = false →
    let r := R.mxeEcc (spadEng p)
    (ecc = 1 → Answers o (fun t => t.resp = s.spadValue a n ∧ t.poison = s.poison ∧
      t.fld r F.mxeEccCorr = min (s.fld r F.mxeEccCorr + 1) (2 ^ 16 - 1) ∧ SameButErrors s t)) ∧
    (2 ≤ ecc → Answers o (fun t => t.resp = .poison ∧ unitOf p ∈ t.poison ∧
      t.fld r F.mxeEccUncorr = min (s.fld r F.mxeEccUncorr + 1) (2 ^ 16 - 1) ∧ SameButErrors s t)))

/-- What an access that writes `d` at `a` of a scratchpad leaves and answers (R81). -/
def SpadStores (s : State) (a : Nat) (d : List Byte) (o : Host.Outcome State Fault Refusal) : Prop :=
  Answers o (fun t => t.resp = .done ∧ t.bytes a d.length = d ∧ MemoryBut [(a, d.length)] s t ∧ Apart s t)

/-- An error response, with nothing else changed but error counts. -/
def SpadRefuses (s : State) (o : Host.Outcome State Fault Refusal) : Prop :=
  Answers o (fun t => t.resp = .error ∧ SameButErrors s t)

section
variable {s u : State} (v : SpadView s u)
include v

theorem SpadView.sameRegs_errorRegs : SameRegs errorRegs s u :=
  fun a ha => v.regs a (fun h => ha (List.mem_singleton.mp h ▸ cxtErr_mem_errorRegs))

theorem SpadView.answer (r : Resp) : SameButErrors s (u.answer r) :=
  ⟨(State.answer_dry r v.dry).same, v.sameRegs_errorRegs, State.answer_apart r v.apart⟩

theorem SpadView.fld_mxeEcc (e : Nat) (f : Fld) : u.fld (R.mxeEcc e) f = s.fld (R.mxeEcc e) f := by
  have hne : R.mxeEcc e ∉ [R.cxtErr] := by simp [R.mxeEcc, R.cxtErr]; omega
  rw [State.fld, v.regs _ hne, State.fld]

/-- An error of a word changes no register but error counts, and no memory. -/
theorem SpadView.spadEcc {p : Nat} (hp : isSpad p = true) (ecc : Nat) (r : Resp) : SameButErrors s ((u.spadEcc p ecc).answer r) := by
  refine ⟨(State.answer_dry r (State.spadEcc_dry p ecc v.dry)).same, fun b hb => ?_,
    State.answer_apart r (State.spadEcc_apart p ecc v.apart)⟩
  have hne : b ≠ R.mxeEcc (spadEng p) := fun h => hb (h ▸ mxeEcc_mem_errorRegs (spadEng_lt hp))
  have hreg : (u.spadEcc p ecc).reg b = u.reg b := by
    unfold State.spadEcc
    dsimp only
    split
    · rfl
    · split
      · exact u.reg_addSat_other hne _ _
      · rw [State.reg_addSat_other _ hne]; exact u.reg_poisonRange ..
  exact hreg.trans (v.sameRegs_errorRegs b hb)

section
variable {a n : Nat} (ha : isSpadStride a = true) (hn : n ≠ 0) {e : Errs}
include ha hn

/-- With no error a read answers what memory and poison hold. -/
theorem SpadView.read_clean (he : e.mem = []) :
    Answers (.next (u.spadDo a (.read n) e)) (fun t => t.resp = s.spadValue a n ∧ t.poison = s.poison ∧ SameButErrors s t) := by
  rw [u.spadDo_read ha, u.arrayErrs_none _ he]
  exact ⟨_, rfl, State.spadValue_congr ha hn v.dry.same v.poison, v.poison, v.answer _⟩

variable {p ecc : Nat} (he : e.mem = [(p, ecc)]) (hp : isSpad p = true) (hlo : lineOf a ≤ p) (hhi : p < lineOf (a + n - 1) + 64)
  (hclean : s.poison.contains (unitOf p) = false)
include he hp hlo hhi hclean

/-- A corrected error of a word is counted, and the read answers as without it. -/
theorem SpadView.read_corrected (h1 : ecc = 1) :
    Answers (.next (u.spadDo a (.read n) e)) (fun t => t.resp = s.spadValue a n ∧ t.poison = s.poison ∧
      t.fld (R.mxeEcc (spadEng p)) F.mxeEccCorr = min (s.fld (R.mxeEcc (spadEng p)) F.mxeEccCorr + 1) (2 ^ 16 - 1) ∧
      SameButErrors s t) := by
  have hecc : u.spadEcc p ecc = u.addSat (R.mxeEcc (spadEng p)) F.mxeEccCorr 1 := by
    rw [State.spadEcc, v.poison, hclean, if_neg (by simp; omega), if_pos h1]
  have hpoison : (u.spadEcc p ecc).poison = s.poison := by rw [hecc, State.addSat_poison, v.poison]
  have hcount : (u.spadEcc p ecc).fld (R.mxeEcc (spadEng p)) F.mxeEccCorr =
      min (s.fld (R.mxeEcc (spadEng p)) F.mxeEccCorr + 1) (2 ^ 16 - 1) := by
    rw [← v.fld_mxeEcc, hecc]
    exact u.fld_addSat_one _ 0 16 (by omega)
  rw [u.spadDo_read ha, u.arrayErrs_word he hp hlo hhi]
  exact ⟨_, rfl, State.spadValue_congr ha hn (State.spadEcc_dry p ecc v.dry).same hpoison, hpoison, hcount, v.spadEcc hp ecc _⟩

/-- An uncorrectable error of a word poisons it and is counted, and the read answers poison. -/
theorem SpadView.read_uncorrectable (h2 : 2 ≤ ecc) :
    Answers (.next (u.spadDo a (.read n) e)) (fun t => t.resp = .poison ∧ unitOf p ∈ t.poison ∧
      t.fld (R.mxeEcc (spadEng p)) F.mxeEccUncorr = min (s.fld (R.mxeEcc (spadEng p)) F.mxeEccUncorr + 1) (2 ^ 16 - 1) ∧
      SameButErrors s t) := by
  have hecc : u.spadEcc p ecc = (u.poisonRange p 1).addSat (R.mxeEcc (spadEng p)) F.mxeEccUncorr 1 := by
    rw [State.spadEcc, v.poison, hclean, if_neg (by simp; omega), if_neg (by omega)]
  have hword : unitOf p ∈ (u.spadEcc p ecc).poison := by
    rw [hecc, State.addSat_poison]
    exact u.unitOf_mem_poisonRange p
  have hfld : (u.poisonRange p 1).fld (R.mxeEcc (spadEng p)) F.mxeEccUncorr = s.fld (R.mxeEcc (spadEng p)) F.mxeEccUncorr := by
    rw [← v.fld_mxeEcc, State.fld, State.reg_poisonRange, State.fld]
  have hcount : (u.spadEcc p ecc).fld (R.mxeEcc (spadEng p)) F.mxeEccUncorr =
      min (s.fld (R.mxeEcc (spadEng p)) F.mxeEccUncorr + 1) (2 ^ 16 - 1) := by
    rw [← hfld, hecc]
    exact State.fld_addSat_one _ _ 16 16 (by omega)
  have hpoison : (u.spadEcc p ecc).spadValue a n = .poison := if_pos (State.badFabric_of_word ha hn hp hlo hhi hword)
  rw [u.spadDo_read ha, u.arrayErrs_word he hp hlo hhi]
  exact ⟨_, rfl, hpoison, hword, hcount, v.spadEcc hp ecc _⟩

end

/-- A read of a scratchpad answers the bytes, or poison; errors of its words are counted (R82). -/
theorem SpadView.reads {a n : Nat} (ha : isSpadStride a = true) (hn : n ≠ 0) (e : Errs) :
    SpadReads s a n e (.next (u.spadDo a (.read n) e)) :=
  ⟨v.read_clean ha hn, fun _ _ he hp hlo hhi hclean =>
    ⟨v.read_corrected ha hn he hp hlo hhi hclean, v.read_uncorrectable ha hn he hp hlo hhi hclean⟩⟩

/-- A write outside the ASU's part stores its bytes and nothing more. -/
theorem SpadView.stores {a : Nat} (ha : isSpadStride a = true) {d : List Byte} (e : Errs) (hpart : s.asuPart a d.length = false) :
    SpadStores s a d (.next (u.spadDo a (.write d) e)) := by
  have hpart' : u.asuPart a d.length = false := by rw [State.asuPart_congr v.apart.weave, hpart]
  have hbyte (x : Nat) := u.byte_wr a x d (State.not_dropped_of_spad ha u) hpart'
  have hdo : u.spadDo a (.write d) e = (u.wr a d).answer .done := by simp [State.spadDo, hpart']
  rw [hdo]
  refine ⟨_, rfl, rfl, ?_, fun x hx => ?_, State.answer_apart _ (State.wr_apart a d v.apart)⟩
  · refine List.ext_getElem (by simp [State.bytes]) fun i _ hi => ?_
    simp only [State.bytes, List.getElem_map, List.getElem_range]
    exact (hbyte _).trans (by simp [hi])
  · have hout := hx _ (List.mem_singleton_self _)
    exact (hbyte x).trans ((if_neg (by simp only at hout; omega)).trans (v.dry.same x))

end

end Sys2Proof.Machine
end

section
/-! PROOFS. Accesses of masters and units to a scratchpad (R81, R82, R259, R370). -/

namespace Sys2Proof.Machine

/-- SCRATCHPAD_ACCESS and MEMORY_ACCESS do the same at a scratchpad. -/
theorem exec_spadAccess (s : State) (r : Requester) (lead : List (Nat × Nat)) {a : Nat} (ha : isSpadStride a = true) (x : Access)
    (e : Errs) {c : Instr} (hc : c = .scratchpadAccess r lead a x e ∨ c = .memoryAccess r lead a x e) :
    exec c s = .next (s.memAccess r lead a x e) := by
  rcases hc with rfl | rfl
  · show Host.Outcome.next (if isSpadStride a then s.memAccess r lead a x e else s) = _
    rw [if_pos ha]
  · rfl

theorem exec_scratchpadAccess_elsewhere (s : State) (r : Requester) (lead : List (Nat × Nat)) {a : Nat} (ha : isSpadStride a = false)
    (x : Access) (e : Errs) : exec (.scratchpadAccess r lead a x e) s = .next s := by
  show Host.Outcome.next (if isSpadStride a then s.memAccess r lead a x e else s) = _
  rw [if_neg (by simp [ha])]

/-! ### what may reach a scratchpad -/

/-- The scratchpad answers at all: its domain is up, its wrapper is open, and the offsets are not reserved (R81, R370). -/
def State.SpadOpen (s : State) (a n : Nat) : Prop :=
  s.domainUp 8 = true ∧ s.unitOpen (s.engOwner (spadEng a)) = true ∧ spadOff a + n ≤ 0x1800000

/-- A master or a unit may access the scratchpad: a server core in aligned words, a unit that of its stake (R259, R260). -/
def State.SpadMay (s : State) (r : Requester) (a n : Nat) : Prop :=
  s.SpadOpen a n ∧ (∀ i, r = .core i → natural a n = true) ∧
    ∀ k : Fin 16, r = .unit k → s.inStake k a n = true ∧ s.engOwner (spadEng a) = some k.val

theorem State.spadAccess_open {s : State} {r : Requester} {a : Nat} {x : Access} (ho : s.SpadOpen a (accSize x))
    (hr : s.spadMay r a (accSize x) = true) (e : Errs) : s.spadAccess r a x e = s.spadDo a x e := by
  obtain ⟨hup, hunit, hoff⟩ := ho
  refine if_neg ?_
  simp [hup, hunit, hr, hoff]

theorem State.spadAccess_closed {s : State} {r : Requester} {a : Nat} {x : Access}
    (h : ¬ (s.SpadOpen a (accSize x) ∧ s.spadMay r a (accSize x) = true)) (e : Errs) : s.spadAccess r a x e = s.answer .error := by
  refine if_pos ?_
  by_contra hc
  simp only [not_or, Bool.not_eq_true', Bool.not_eq_false, not_lt] at hc
  obtain ⟨hoff, hup, hunit, hr⟩ := hc
  exact h ⟨⟨hup, hunit, hoff⟩, hr⟩

/-- The registers that a core's lead sets are the core's own. -/
theorem State.coreLead_eq (s : State) (c : Nat) (l : List (Nat × Nat)) : ∃ regs, s.coreLead c l = { s with core := regs } := by
  induction l generalizing s with
  | nil => exact ⟨s.core, rfl⟩
  | cons p l ih =>
    show ∃ regs, State.coreLead _ c l = _
    dsimp only
    split
    · exact ih s
    · exact ih (s.setCore c _ _)

/-- The state in which an access of a master or a unit reaches the fabric: a server core's instruction has its lead. -/
def State.reach (s : State) (r : Requester) (lead : List (Nat × Nat)) : State :=
  match r with
  | .core c => s.coreLead c lead
  | _ => s

theorem State.reach_view (s : State) (r : Requester) (lead : List (Nat × Nat)) : SpadView s (s.reach r lead) := by
  cases r with
  | core c =>
    obtain ⟨regs, hc⟩ := s.coreLead_eq c lead
    show SpadView s (s.coreLead c lead)
    exact ⟨State.coreLead_dry c lead (.refl s), by rw [hc], fun a _ => by rw [hc]; rfl, State.coreLead_apart c lead (.refl s)⟩
  | sec => exact .refl s
  | host => exact .refl s
  | tile t => exact .refl s
  | unit k => exact .refl s

theorem State.reach_spadOpen (s : State) (r : Requester) (lead : List (Nat × Nat)) (a n : Nat) :
    (s.reach r lead).SpadOpen a n ↔ s.SpadOpen a n := by
  cases r with
  | core c =>
    obtain ⟨regs, hc⟩ := s.coreLead_eq c lead
    show State.SpadOpen (s.coreLead c lead) a n ↔ _
    rw [hc]
    rfl
  | sec => rfl
  | host => rfl
  | tile t => rfl
  | unit k => rfl

/-- A core, the SEC or the host reaches a scratchpad and not the registers. -/
theorem State.coreAccess_spad (s : State) (m : Master) (r : Requester) {a : Nat} (ha : isSpadStride a = true) (x : Access) (e : Errs) :
    s.coreAccess m r a x e = s.spadAccess r a x e := by
  unfold State.coreAccess
  rw [if_neg (by simp [not_reg_of_spad ha]), if_pos ha]

theorem State.memUp_spad (s : State) {a : Nat} (ha : isSpadStride a = true) : s.memUp a = s.domainUp 8 := by
  have hline : lineOf a ≤ a := Nat.div_mul_le_self a 64
  simp [State.memUp, not_hbm_of_spad ha hline, not_cxl_of_spad ha hline]

section
variable (s : State) {r : Requester} (hr : ∀ i, r ≠ .tile i) (lead : List (Nat × Nat)) {a : Nat} (ha : isSpadStride a = true)
  {x : Access} (hn : accSize x ≠ 0) (e : Errs)
include hr ha hn

theorem State.memAccess_spad_of_may (h : s.SpadMay r a (accSize x)) : s.memAccess r lead a x e = (s.reach r lead).spadDo a x e := by
  obtain ⟨ho, hcore, hunit⟩ := h
  have ho' := (s.reach_spadOpen r lead a _).mpr ho
  unfold State.memAccess
  rw [if_neg hn]
  cases r with
  | tile t => exact absurd rfl (hr t)
  | unit k =>
    obtain ⟨hin, howner⟩ := hunit k rfl
    have hmem : s.memUp a = true := (s.memUp_spad ha).trans ho.1
    dsimp only
    rw [if_neg (by simp [hin, hmem]), if_pos ha]
    exact State.spadAccess_open ho (by simp [State.spadMay, howner]) e
  | sec => exact (s.coreAccess_spad _ _ ha x e).trans (State.spadAccess_open ho' rfl e)
  | host => exact (s.coreAccess_spad _ _ ha x e).trans (State.spadAccess_open ho' rfl e)
  | core c => exact (State.coreAccess_spad _ _ _ ha x e).trans (State.spadAccess_open (r := .core c) ho' (hcore c rfl) e)

theorem State.memAccess_spad_of_not_may (h : ¬ s.SpadMay r a (accSize x)) :
    s.memAccess r lead a x e = (s.reach r lead).answer .error := by
  unfold State.memAccess
  rw [if_neg hn]
  cases r with
  | tile t => exact absurd rfl (hr t)
  | unit k =>
    dsimp only
    split
    · rfl
    · next hpass =>
      have hin : s.inStake k a (accSize x) = true := by simp only [not_or, Bool.not_eq_true', Bool.not_eq_false] at hpass; exact hpass.1
      refine State.spadAccess_closed (fun hc => h ⟨hc.1, nofun, fun j hj => ?_⟩) e
      cases hj
      exact ⟨hin, by simpa [State.spadMay] using hc.2⟩
  | sec => exact (s.coreAccess_spad _ _ ha x e).trans (State.spadAccess_closed (fun hc => h ⟨hc.1, nofun, nofun⟩) e)
  | host => exact (s.coreAccess_spad _ _ ha x e).trans (State.spadAccess_closed (fun hc => h ⟨hc.1, nofun, nofun⟩) e)
  | core c =>
    exact (State.coreAccess_spad _ _ _ ha x e).trans
      (State.spadAccess_closed (r := .core c) (fun hc => h ⟨(s.reach_spadOpen (.core c) lead a _).mp hc.1, fun _ _ => hc.2, nofun⟩) e)

/-- An access that may not be made gets an error response. -/
theorem State.memAccess_spad_refuses (h : ¬ s.SpadMay r a (accSize x)) : SpadRefuses s (.next (s.memAccess r lead a x e)) := by
  rw [s.memAccess_spad_of_not_may hr lead ha hn e h]
  exact ⟨_, rfl, rfl, (s.reach_view r lead).answer _⟩

end

section
variable (s : State) {r : Requester} (hr : ∀ i, r ≠ .tile i) (lead : List (Nat × Nat)) {a : Nat}
  (ha : isSpadStride a = true) (e : Errs)
include hr ha

theorem State.memAccess_spad_read {n : Nat} (hn : n ≠ 0) (h : s.SpadMay r a n) :
    SpadReads s a n e (.next (s.memAccess r lead a (.read n) e)) := by
  rw [s.memAccess_spad_of_may hr lead ha (x := .read n) hn e h]
  exact (s.reach_view r lead).reads ha hn e

theorem State.memAccess_spad_write {d : List Byte} (hn : d.length ≠ 0) (h : s.SpadMay r a d.length)
    (hpart : s.asuPart a d.length = false) :
    SpadStores s a d (.next (s.memAccess r lead a (.write d) e)) := by
  rw [s.memAccess_spad_of_may hr lead ha (x := .write d) hn e h]
  exact (s.reach_view r lead).stores ha e hpart

/-- The ASU's part takes no write from the fabric. -/
theorem State.memAccess_spad_asuPart {d : List Byte} (hn : d.length ≠ 0) (h : s.SpadMay r a d.length)
    (hpart : s.asuPart a d.length = true) :
    SpadRefuses s (.next (s.memAccess r lead a (.write d) e)) := by
  have v := s.reach_view r lead
  have hpart' : (s.reach r lead).asuPart a d.length = true := by rw [State.asuPart_congr v.apart.weave, hpart]
  rw [s.memAccess_spad_of_may hr lead ha (x := .write d) hn e h, show (s.reach r lead).spadDo a (.write d) e = _ from if_pos hpart']
  exact ⟨_, rfl, rfl, v.answer _⟩

/-- A scratchpad serves no AtomicOp. -/
theorem State.memAccess_spad_atom {op : AtomOp} {n p q : Nat} (hn : n ≠ 0) :
    SpadRefuses s (.next (s.memAccess r lead a (.atom op n p q) e)) := by
  by_cases h : s.SpadMay r a n
  · rw [s.memAccess_spad_of_may hr lead ha (x := .atom op n p q) hn e h]
    exact ⟨_, rfl, rfl, (s.reach_view r lead).answer _⟩
  · exact s.memAccess_spad_refuses hr lead ha (x := .atom op n p q) hn e h

end

end Sys2Proof.Machine
end

section
/-! PROOFS. Accesses of tile threads to a scratchpad (R243, R246, R260): the state that an access meets, and its traps. -/

namespace Sys2Proof.Machine

/-! ### registers of a thread -/

theorem State.treg_setTreg (s : State) (t i v j : Nat) (hi : i ≠ 0) :
    (s.setTreg t i v).treg t j = if j = i then v % 2 ^ 64 else s.treg t j := by
  have hthr : (s.setTreg t i v).thr t = { s.thr t with regs := KMap.set (s.thr t).regs 0 i (v % 2 ^ 64) } := by
    rw [State.setTreg, if_neg hi, State.thr_setThr, if_pos rfl]
  unfold State.treg
  rw [hthr]
  by_cases hj : j = 0
  · rw [if_pos hj, if_pos hj, if_neg (by omega)]
  · rw [if_neg hj, if_neg hj]
    exact KMap.get_set _ _ _ _ _ _ (fun _ => rfl)

theorem State.treg_congr {s u : State} (h : u.thread = s.thread) (t i : Nat) : u.treg t i = s.treg t i := by
  simp only [State.treg, State.thr, h]

/-- Nothing but the threads differs. -/
def OnlyThreads (s u : State) : Prop := ∃ threads, u = { s with thread := threads }

theorem OnlyThreads.refl (s : State) : OnlyThreads s s := ⟨s.thread, rfl⟩

theorem OnlyThreads.trans {r s t : State} (h : OnlyThreads r s) (h' : OnlyThreads s t) : OnlyThreads r t := by
  obtain ⟨x, rfl⟩ := h
  obtain ⟨y, rfl⟩ := h'
  exact ⟨y, rfl⟩

theorem OnlyThreads.tState {s u : State} (h : OnlyThreads s u) (t : Nat) : u.tState t = s.tState t := by
  obtain ⟨x, rfl⟩ := h
  rfl

theorem OnlyThreads.setTreg {s u : State} (h : OnlyThreads s u) (t i v : Nat) : OnlyThreads s (u.setTreg t i v) := by
  refine h.trans ?_
  unfold State.setTreg
  split
  · exact .refl u
  · exact ⟨_, rfl⟩

/-! ### traps -/

/-- With its trap held, a thread that traps again fails, whatever registers it has. -/
theorem State.trap_held {s : State} {t : Nat} (h : s.treg t tTrap ≠ 0) (cause tval : Nat) :
    (s.trap t cause tval).tState t = 5 ∧ (s.trap t cause tval).thread = s.thread := by
  unfold State.trap
  rw [if_pos h]
  unfold State.tState State.setT
  refine ⟨?_, by rw [State.setFld_thread, State.setFld_thread]⟩
  rw [State.fld_setFld_fld _ _ _ _ _ (by decide), State.fld_setFld_same _ _ _ _ (by decide)]
  simp [F.tcxTState]

theorem State.trap_onlyThreads {s : State} {t : Nat} (h : s.treg t tTrap = 0) (cause tval : Nat) : OnlyThreads s (s.trap t cause tval) := by
  unfold State.trap
  rw [if_neg (not_not.mpr h)]
  exact (((((((OnlyThreads.refl s).setTreg ..).setTreg ..).setTreg ..).setTreg ..).setTreg ..).setTreg ..).setTreg ..

/-- What a trap leaves: the trap entry, or a failed thread (R243). -/
theorem State.trap_trapped (s : State) (t : Nat) {cause : Nat} (hcause : cause < 2 ^ 64) (tval : Nat) :
    Trapped s (s.trap t cause tval) t cause tval := by
  refine ⟨fun h => ?_, fun h => State.trap_held h cause tval⟩
  have hmod : cause % 18446744073709551616 = cause := Nat.mod_eq_of_lt hcause
  have htState := (State.trap_onlyThreads h cause tval).tState t
  unfold State.trap at htState ⊢
  rw [if_neg (not_not.mpr h)] at htState ⊢
  refine ⟨?_, ?_, ?_, ?_, ?_, ?_, htState⟩ <;>
    simp [State.treg_setTreg, tEpc, tCause, tVal, tStatus, tTrap, tMode, tPc, tVec, hmod]

theorem Trapped.congr {u m s' : State} {t cause tval : Nat} (hthread : m.thread = u.thread) (hstate : m.tState t = u.tState t)
    (h : Trapped m s' t cause tval) : Trapped u s' t cause tval := by
  unfold Trapped at *
  simpa only [State.treg_congr hthread, hthread, hstate] using h

/-! ### the instructions that a thread ran before -/

/-- One register that the lead sets, one trap that it takes or leaves. -/
def State.leadStep (s : State) (t : Nat) (p : Nat × Nat) : State :=
  if !(s.runs t) then s
  else if p.1 = tTrap then (if p.2 = 0 then s.setTreg t tTrap 0 else s.trap t (p.2 - 1) (s.treg t tVal))
  else if p.1 = tCycle then s.setTreg t tCycle (max p.2 (s.treg t tCycle))
  else if p.1 < 98 then s.setTreg t p.1 p.2
  else s

theorem State.lead_cons (s : State) (t : Nat) (p : Nat × Nat) (l : List (Nat × Nat)) :
    s.lead t (p :: l) = (s.leadStep t p).lead t l := rfl

/-- A thread that does not run does nothing of the lead. -/
theorem State.lead_stopped {s : State} {t : Nat} (h : s.runs t = false) (l : List (Nat × Nat)) : s.lead t l = s := by
  induction l with
  | nil => rfl
  | cons p l ih => rw [State.lead_cons, State.leadStep, if_pos (by simp [h]), ih]

theorem State.not_runs_of_failed {s : State} {t : Nat} (h : s.tState t = 5) : s.runs t = false := by
  simp [State.runs, h]

/-- A step of the lead changes the thread's own registers, or the thread fails. -/
theorem State.leadStep_onlyThreads (s : State) (t : Nat) (p : Nat × Nat) :
    OnlyThreads s (s.leadStep t p) ∨ (s.leadStep t p).runs t = false := by
  unfold State.leadStep
  split
  · exact .inl (.refl s)
  · split
    · split
      · exact .inl ((OnlyThreads.refl s).setTreg ..)
      · by_cases hheld : s.treg t tTrap = 0
        · exact .inl (State.trap_onlyThreads hheld _ _)
        · exact .inr (State.not_runs_of_failed (State.trap_held hheld _ _).1)
    · split
      · exact .inl ((OnlyThreads.refl s).setTreg ..)
      · split
        · exact .inl ((OnlyThreads.refl s).setTreg ..)
        · exact .inl (.refl s)

/-- A thread that still runs after its lead has changed its own registers alone. -/
theorem State.lead_onlyThreads {s : State} {t : Nat} (l : List (Nat × Nat)) (h : (s.lead t l).runs t = true) :
    OnlyThreads s (s.lead t l) := by
  induction l generalizing s with
  | nil => exact .refl s
  | cons p l ih =>
    rw [State.lead_cons] at h ⊢
    rcases s.leadStep_onlyThreads t p with hstep | hstop
    · exact hstep.trans (ih h)
    · rw [State.lead_stopped hstop, hstop] at h
      exact absurd h Bool.false_ne_true

/-! ### the state that a thread's access meets -/

/-- After its lead, the thread's fetch has changed nothing that its access meets. -/
structure FetchView (u m : State) : Prop extends SpadView u m where
  thread : m.thread = u.thread

theorem FetchView.refl (u : State) : FetchView u u := ⟨.refl u, rfl⟩

theorem FetchView.trans {r s t : State} (h : FetchView r s) (h' : FetchView s t) : FetchView r t :=
  ⟨h.toSpadView.trans h'.toSpadView, h'.thread.trans h.thread⟩

theorem OnlyThreads.view {s u : State} (h : OnlyThreads s u) : SpadView s u := by
  obtain ⟨x, rfl⟩ := h
  exact ⟨⟨rfl, rfl⟩, rfl, fun _ _ => rfl, ⟨rfl, rfl, rfl, rfl, rfl, rfl, rfl, rfl, fun _ _ => rfl⟩⟩

/-- A fill of the instruction cache counts in CXT_ERR alone. -/
theorem State.ifill_view (u : State) (c l : Nat) : FetchView u (u.ifill c l) := by
  have hrest : (u.ifill c l).poison = u.poison ∧ SameRegs [R.cxtErr] u (u.ifill c l) ∧ (u.ifill c l).thread = u.thread := by
    have hreg (b : Nat) (hb : b ∉ [R.cxtErr]) := u.reg_noteCxl l 64 b true (fun e => hb (List.mem_singleton.mpr e))
    unfold State.ifill
    split
    · exact ⟨rfl, fun _ _ => rfl, rfl⟩
    · dsimp only
      split
      · exact ⟨u.noteCxl_poison .., hreg, u.noteCxl_thread ..⟩
      · exact ⟨u.noteCxl_poison .., hreg, u.noteCxl_thread ..⟩
  obtain ⟨hpoison, hregs, hthread⟩ := hrest
  exact ⟨⟨State.ifill_dry c l (.refl u), hpoison, hregs, State.ifill_apart c l (.refl u)⟩, hthread⟩

/-- The state in which a thread that fetched its instruction carries it out. -/
def State.afterFetch (s : State) (t : Nat) (lead : List (Nat × Nat)) (n : Nat) : State :=
  (s.lead t lead).forAll (linesOf ((s.lead t lead).treg t tPc) n) (fun s l => s.ifill (s.runCore t) l)

theorem State.forAll_ifill_view (u : State) (t : Nat) (l : List Nat) : FetchView u (u.forAll l (fun s l => s.ifill (s.runCore t) l)) := by
  induction l generalizing u with
  | nil => exact .refl u
  | cons a l ih => exact (u.ifill_view _ a).trans (ih (u.ifill (u.runCore t) a))

theorem State.afterFetch_view (s : State) (t : Nat) (lead : List (Nat × Nat)) (n : Nat) :
    FetchView (s.lead t lead) (s.afterFetch t lead n) :=
  State.forAll_ifill_view _ _ _

/-- The thread traps at address `a` after its lead, and memory and the module's own are as they were. -/
def AccessTraps (s : State) (t : Nat) (lead : List (Nat × Nat)) (a cause : Nat) (o : Host.Outcome State Fault Refusal) : Prop :=
  Answers o (fun s' => Trapped (s.lead t lead) s' t cause a ∧ SameMemory s s' ∧ Apart s s')

section
variable {s : State} {t : Nat} {lead : List (Nat × Nat)} {n : Nat} (h : Fetches s t lead n)
include h

theorem Fetches.asThread (act : State → State) : s.asThread t lead n act = act (s.afterFetch t lead n) := by
  obtain ⟨hruns, hled, hmay⟩ := h
  unfold State.asThread
  rw [if_neg (by simp [hruns])]
  dsimp only
  rw [if_neg (by simp [hled]), if_neg (by simp [hmay])]
  rfl

theorem Fetches.view : SpadView s (s.afterFetch t lead n) :=
  (State.lead_onlyThreads lead h.2.1).view.trans (s.afterFetch_view t lead n).toSpadView

theorem Fetches.trap {cause : Nat} (hcause : cause < 2 ^ 64) (tval : Nat) :
    AccessTraps s t lead tval cause (.next ((s.afterFetch t lead n).trap t cause tval)) := by
  have v := s.afterFetch_view t lead n
  have hne : thrReg t ∉ [R.cxtErr] := by simp [thrReg, R.tcxT, R.cxtErr]; omega
  have hstate : (s.afterFetch t lead n).tState t = (s.lead t lead).tState t := by
    rw [State.tState, State.fld, v.regs _ hne, State.tState, State.fld]
  exact ⟨_, rfl, (State.trap_trapped _ t hcause tval).congr v.thread hstate, (State.trap_dry t cause tval h.view.dry).same,
    State.trap_apart t cause tval h.view.apart⟩

end

/-! ### which accesses a thread may make -/

theorem State.pmpMay_congr {s u : State} (h : u.thread = s.thread) (t md a n x : Nat) : u.pmpMay t md a n x = s.pmpMay t md a n x := by
  have htreg : u.treg = s.treg := funext fun t => funext fun i => State.treg_congr h t i
  unfold State.pmpMay State.pmpRange State.pmpCfg
  rw [htreg]

theorem State.err_spad (s : State) {a : Nat} (ha : isSpadStride a = true) (n : Nat) : s.err a n = !(inMap a n) := by
  simp [State.err, not_cxl_of_spad ha (Nat.div_mul_le_self a 64)]

theorem State.inStake_congr {s u : State} (h : u.weave = s.weave) (k a n : Nat) : u.inStake k a n = s.inStake k a n := by
  have hstake : u.stake k = s.stake k := by unfold State.stake; rw [h]
  simp only [State.inStake, State.inHbmOf, State.inSpadOf, hstake]

/-- What the thread may access of a scratchpad does not change by its fetch. -/
theorem FetchView.tMay {u m : State} (v : FetchView u m) {a : Nat} (ha : isSpadStride a = true) (t n x : Nat) :
    m.tMay t a n x = u.tMay t a n x := by
  have hstake (k : Nat) : m.stake k = u.stake k := by unfold State.stake; rw [v.apart.weave]
  have howner : m.tStake t = u.tStake t := by
    simp only [State.tStake, State.tcOwner, State.enabled, hstake, v.apart.weave]
  unfold State.tMay
  simp only [howner, State.inStake_congr v.apart.weave, State.err_spad _ ha, State.pmpMay_congr v.thread, State.dataMode,
    State.treg_congr v.thread]

end Sys2Proof.Machine
end

section
/-! PROOFS. A tile thread at a scratchpad, and the statement of both commands (R81, R82, R243, R259, R260). -/

namespace Sys2Proof.Machine

section
variable {s : State} {t : Fin 2048} {lead : List (Nat × Nat)} (h : Fetches s t lead 2) {a : Nat} (ha : isSpadStride a = true) (e : Errs)
include h ha

/-- A load that has fetched: its checks in order, and the read. -/
theorem Fetches.load {n : Nat} (hn : n ≠ 0) : s.memAccess (.tile t) lead a (.read n) e =
    if (s.lead t lead).tMay t a n 0 = false then (s.afterFetch t lead 2).trap t 5 a
    else if natural a n = false then (s.afterFetch t lead 2).trap t 4 a
    else (s.afterFetch t lead 2).spadDo a (.read n) e := by
  have hmay := (s.afterFetch_view t lead 2).tMay ha t n 0
  have hline : lineOf a ≤ a := Nat.div_mul_le_self a 64
  unfold State.memAccess
  dsimp only [accSize]
  rw [if_neg hn]
  unfold State.tileAccess
  dsimp only [accSize]
  rw [if_neg (by simp [ha]), h.asThread, hmay, State.noteCxl_spad ha _ hline, if_pos ha]
  cases (s.lead t lead).tMay t a n 0 <;> cases natural a n <;> simp

/-- A store that has fetched: its checks in order, and the write. -/
theorem Fetches.store {d : List Byte} (hn : d.length ≠ 0) : s.memAccess (.tile t) lead a (.write d) e =
    if (s.lead t lead).tMay t a d.length 1 = false then (s.afterFetch t lead 2).trap t 7 a
    else if natural a d.length = false then (s.afterFetch t lead 2).trap t 6 a
    else if s.asuPart a d.length = true then (s.afterFetch t lead 2).trap t 7 a
    else (s.afterFetch t lead 2).spadDo a (.write d) e := by
  have hmay := (s.afterFetch_view t lead 2).tMay ha t d.length 1
  have hpart := State.asuPart_congr h.view.apart.weave a d.length
  have hline : lineOf a ≤ a := Nat.div_mul_le_self a 64
  unfold State.memAccess
  dsimp only [accSize]
  rw [if_neg hn]
  unfold State.tileAccess
  dsimp only [accSize]
  rw [h.asThread, hmay, State.noteCxl_spad ha _ hline, if_pos ha, hpart]
  cases (s.lead t lead).tMay t a d.length 1 <;> cases natural a d.length <;> simp

/-- What a load answers, or the cause of its trap. -/
theorem Fetches.load_answers {n : Nat} (hn : n ≠ 0) :
    ((s.lead t lead).tMay t a n 0 = false → AccessTraps s t lead a 5 (.next (s.memAccess (.tile t) lead a (.read n) e))) ∧
    ((s.lead t lead).tMay t a n 0 = true →
      (natural a n = false → AccessTraps s t lead a 4 (.next (s.memAccess (.tile t) lead a (.read n) e))) ∧
      (natural a n = true → SpadReads s a n e (.next (s.memAccess (.tile t) lead a (.read n) e)))) := by
  rw [h.load ha e hn]
  refine ⟨fun hmay => ?_, fun hmay => ⟨fun hnat => ?_, fun hnat => ?_⟩⟩
  · rw [if_pos hmay]
    exact h.trap (by decide) a
  · rw [if_neg (by simp [hmay]), if_pos hnat]
    exact h.trap (by decide) a
  · rw [if_neg (by simp [hmay]), if_neg (by simp [hnat])]
    exact h.view.reads ha hn e

/-- What a store leaves, or the cause of its trap. -/
theorem Fetches.store_answers {d : List Byte} (hn : d.length ≠ 0) :
    ((s.lead t lead).tMay t a d.length 1 = false → AccessTraps s t lead a 7 (.next (s.memAccess (.tile t) lead a (.write d) e))) ∧
    ((s.lead t lead).tMay t a d.length 1 = true →
      (natural a d.length = false → AccessTraps s t lead a 6 (.next (s.memAccess (.tile t) lead a (.write d) e))) ∧
      (natural a d.length = true →
        (s.asuPart a d.length = true → AccessTraps s t lead a 7 (.next (s.memAccess (.tile t) lead a (.write d) e))) ∧
        (s.asuPart a d.length = false → SpadStores s a d (.next (s.memAccess (.tile t) lead a (.write d) e))))) := by
  rw [h.store ha e hn]
  refine ⟨fun hmay => ?_, fun hmay => ⟨fun hnat => ?_, fun hnat => ⟨fun hpart => ?_, fun hpart => ?_⟩⟩⟩
  · rw [if_pos hmay]
    exact h.trap (by decide) a
  · rw [if_neg (by simp [hmay]), if_pos hnat]
    exact h.trap (by decide) a
  · rw [if_neg (by simp [hmay]), if_neg (by simp [hnat]), if_pos hpart]
    exact h.trap (by decide) a
  · rw [if_neg (by simp [hmay]), if_neg (by simp [hnat]), if_neg (by simp [hpart])]
    exact h.view.stores ha e hpart

end

end Sys2Proof.Machine

open Sys2Proof Sys2Proof.Machine in
/-- Settles O40: both commands make the access of `memAccess`; a master's or a unit's passes the checks of the scratchpad or gets an
error response, a thread's passes those of its core or traps, and what passes reads and writes through `spadDo`. -/
theorem scratchpadAccesses : Obligations.ScratchpadAccesses := by
  intro s r lead a x errs
  refine ⟨fun ha => exec_scratchpadAccess_elsewhere s r lead ha x errs, fun ha hn c hc => ?_⟩
  rw [exec_spadAccess s r lead ha x errs hc]
  refine ⟨fun hr => ⟨?_, ?_, ?_, ?_⟩, ?_⟩
  · exact s.memAccess_spad_refuses hr lead ha hn errs
  · rintro may n rfl
    exact s.memAccess_spad_read hr lead ha errs hn may
  · rintro may d rfl
    exact ⟨s.memAccess_spad_asuPart hr lead ha errs hn may, s.memAccess_spad_write hr lead ha errs hn may⟩
  · rintro op n p q rfl
    exact s.memAccess_spad_atom hr lead ha errs hn
  · rintro t rfl hf
    refine ⟨?_, ?_⟩
    · rintro n rfl
      exact hf.load_answers ha errs hn
    · rintro d rfl
      exact hf.store_answers ha errs hn
end

section
/-! PROOFS. What a chain leaves to the pass sequencers (R98-R101, R110, R117), and the completion of an outstanding instruction whose
posts fit (R124, R125, R129). -/

namespace Sys2Proof.Machine

/-! ### outputs of a chain -/

/-- What is outstanding, and every register of the pass sequencers, stand. -/
structure SameSequencers (s t : State) : Prop where
  q    : ∀ k, t.q k = s.q k
  regs : ∀ a, R.psqId 0 ≤ a → t.reg a = s.reg a

theorem SameSequencers.refl (s : State) : SameSequencers s s := ⟨fun _ => rfl, fun _ _ => rfl⟩

theorem ne_cxtErr_of_psqId_le {a : Nat} (h : R.psqId 0 ≤ a) : a ≠ R.cxtErr := by
  unfold R.psqId at h
  unfold R.cxtErr
  omega

section
variable {z s : State} (h : SameSequencers z s)
include h

theorem SameSequencers.wr (a : Nat) (l : List Byte) : SameSequencers z (s.wr a l) :=
  ⟨fun k => (s.wr_q a l k).trans (h.q k), fun b hb => (s.reg_wr a b l (ne_cxtErr_of_psqId_le hb)).trans (h.regs b hb)⟩

theorem SameSequencers.wrPoison (a n : Nat) : SameSequencers z (s.wrPoison a n) := by
  unfold State.wrPoison
  split
  · exact ⟨fun k => (s.noteCxl_q a n false k).trans (h.q k),
      fun b hb => (s.reg_noteCxl a n b false (ne_cxtErr_of_psqId_le hb)).trans (h.regs b hb)⟩
  · unfold State.poisonRange
    split <;> exact ⟨h.q, h.regs⟩

theorem SameSequencers.addSat {a : Nat} (ha : a < R.psqId 0) (f : Fld) (n : Nat) : SameSequencers z (s.addSat a f n) :=
  ⟨h.q, fun b hb => (s.reg_addSat_other (by omega) f n).trans (h.regs b hb)⟩

theorem SameSequencers.setPvReg (v r : Nat) (l : List Nat) : SameSequencers z (s.setPvReg v r l) := by
  have hset : SameSequencers z (s.setPv v { s.pv v with regs := KMap.set (s.pv v).regs zero256 r l }) := ⟨h.q, h.regs⟩
  exact hset.wr _ _

theorem SameSequencers.foldl {β : Type} {f : State → β → State} (hf : ∀ u b, SameSequencers z u → SameSequencers z (f u b))
    (l : List β) : SameSequencers z (l.foldl f s) :=
  List.foldlRecOn l f (motive := SameSequencers z) h (fun u hu b _ => hf u b hu)

theorem SameSequencers.commitPv (l : List (Nat × Nat × Nat × Nat)) : SameSequencers z (s.commitPv l) :=
  h.foldl (fun _ _ hu => hu.setPvReg _ _ _) _

theorem SameSequencers.commitPush (die k : Nat) (f : Frame) (bad : Bool) (p : Nat × List Byte × Nat) :
    SameSequencers z (s.commitPush die k f bad p) := by
  unfold State.commitPush
  dsimp only
  have hrow : SameSequencers z (if bad then s.wrPoison (s.frameBase die k f + p.1) p.2.1.length
      else s.wr (s.frameBase die k f + p.1) p.2.1) := by
    split
    · exact h.wrPoison _ _
    · exact h.wr _ _
  generalize (if bad then s.wrPoison (s.frameBase die k f + p.1) p.2.1.length
      else s.wr (s.frameBase die k f + p.1) p.2.1) = u at hrow ⊢
  split
  · exact ⟨(hrow.wr _ _).q, (hrow.wr _ _).regs⟩
  · exact ⟨hrow.q, hrow.regs⟩

theorem SameSequencers.writeDst (k die : Nat) (o : Outst) (d : StreamD) (r idx : Nat) (xs : List Nat) (run : ChainRun) :
    SameSequencers z (s.writeDst k die o d r idx xs run).1 := by
  unfold State.writeDst
  split
  · dsimp only
    split
    · exact (h.wr _ _).wr _ _
    · exact h.wr _ _
  all_goals exact h

theorem SameSequencers.ite {t : State} (ht : SameSequencers z t) (p : Prop) [Decidable p] : SameSequencers z (if p then t else s) := by
  split <;> assumption

theorem SameSequencers.poisonOutputs (drain : Option (Nat × Nat)) (c : ChainD) (run : ChainRun) :
    SameSequencers z (s.poisonOutputs drain c run) := by
  unfold State.poisonOutputs
  split
  next r n _ =>
    extract_lets u v
    have hu : SameSequencers z u :=
      ((h.foldl (fun _ _ hu => hu.wrPoison _ _) _).ite (h.wrPoison _ _) _).ite h _
    have hv : SameSequencers z v := hu.ite (hu.wrPoison _ _) _
    exact hv.ite (hv.wrPoison _ _) _

theorem SameSequencers.commitChain (k : Nat) {e : Nat} (he : e < 32) (o : Outst) (c : ChainD) (drain : Option (Nat × Nat)) :
    SameSequencers z (s.commitChain k e o c drain) := by
  have hevt : R.vecDvuEvt e < R.psqId 0 := by unfold R.vecDvuEvt R.psqId; omega
  unfold State.commitChain
  extract_lets die v xs up src run
  split
  next r n _ =>
  split
  next dst _ hdst =>
  have hd : SameSequencers z dst := by
    split at hdst
    · split at hdst
      · cases hdst
        exact h
      · have hrow := h.writeDst k die o c.dst 0 0 o.run.tile.flatten o.run
        rwa [hdst] at hrow
    · cases hdst
      exact h
  extract_lets bad s1 s2 s3 s4 s5 outs
  have h1 : SameSequencers z s1 := by
    unfold s1
    split
    · exact hd
    · exact hd.foldl (fun _ _ hu => hu.commitPush _ _ _ _ _) _
  have h2 : SameSequencers z s2 := h1.ite (h1.wr _ _) _
  have h3 : SameSequencers z s3 := h2.ite (h2.wr _ _) _
  have h4 : SameSequencers z s4 := h3.ite (h3.poisonOutputs _ _ _) _
  have h5 : SameSequencers z s5 := h4.commitPv _
  split
  next ma nf sa _ =>
  have htap : SameSequencers z (s5.tap k c.slot ma nf sa) := ⟨h5.q, h5.regs⟩
  exact (htap.addSat hevt _ _).addSat hevt _ _
end

/-- A chain without PUSH, AUXOUT, COMPRESS and PVU updates commits its statistics alone. -/
theorem State.commitChain_statistics (s : State) (k e : Nat) {o : Outst} {c : ChainD} (drain : Option (Nat × Nat))
    (hpush : o.run.pushes = []) (hcompress : c.compress = none) (haux : c.auxOp = none) (hpv : o.run.pv = [])
    (hpoison : o.run.poison = false) : s.commitChain k e o c drain =
      ((s.tap k c.slot o.run.maxabs o.run.nonfin o.run.sat).addSat (R.vecDvuEvt e) F.vecDvuEvtNonfin o.run.nonfin).addSat (R.vecDvuEvt e)
        F.vecDvuEvtSat o.run.sat := by
  have hrun : c.dstRun = false := by simp [ChainD.dstRun, hcompress]
  unfold State.commitChain
  simp only [hrun, hpoison, hpush, hcompress, haux, hpv, Bool.false_eq_true, if_false, Option.isSome_none, List.reverse_nil,
    List.foldl_nil]
  cases s.boundFrame (e / 8) k o.pushTo <;> rfl

/-! ### completion -/

/-- Each counter of a list has changed by `f`, once, and no other (R123). -/
theorem State.tok_forAll_setTok (k c : Nat) (f : Nat → Nat) {l : List Nat} (hl : l.Nodup) (s : State) :
    (s.forAll l (fun u d => u.setTok k d (f (u.tok k d)))).tok k c = if c ∈ l then f (s.tok k c) % 2 ^ 16 else s.tok k c := by
  unfold State.forAll
  induction l generalizing s with
  | nil => rfl
  | cons d l ih =>
    obtain ⟨hd, hl⟩ := List.nodup_cons.mp hl
    rw [List.foldl_cons, ih hl]
    by_cases h : c = d
    · subst h
      simp [hd, State.tok_setTok_same]
    · simp [h, State.tok_setTok_other]

theorem State.tok_giveTokens (s : State) (k mask : Nat) {c : Nat} (hc : c < 64) (hfit : mask.testBit c = true → s.tok k c < 65535) :
    (s.giveTokens k mask).tok k c = s.tok k c + (if mask.testBit c then 1 else 0) := by
  have hmem : c ∈ onesOf 64 mask ↔ mask.testBit c = true := by simp [onesOf, hc]
  have hnd : (onesOf 64 mask).Nodup := List.nodup_range.filter _
  rw [State.giveTokens, State.tok_forAll_setTok k c (fun n => min 65535 (n + 1)) hnd, if_congr hmem rfl rfl]
  split
  · have := hfit ‹_›
    omega
  · rfl

/-- R124, R129: an instruction whose posts fit is outstanding no more, and its posts are given. -/
theorem State.complete_of_postsFit {s : State} {k : Nat} {o : Outst} (h : PostsFit s k o.word) :
    s.complete k o = (s.setOutst k ((s.q k).outst.filter (fun p => !(p.seq == o.seq)))).giveTokens k (s.tset k (postOf o.word)) := by
  generalize hu : s.setOutst k ((s.q k).outst.filter (fun p => !(p.seq == o.seq))) = u
  have hreg : ∀ a, (∀ x, x < 3 → a ≠ R.psqInflight k x) → u.reg a = s.reg a := fun a ha => hu ▸ s.reg_setOutst_other ha _
  have hset : u.tset k (postOf o.word) = s.tset k (postOf o.word) := by
    unfold State.tset
    rw [hreg _ (fun x _ => by unfold R.psqTset R.psqInflight; omega)]
  have hover : u.overflows k (s.tset k (postOf o.word)) = false := by
    rw [State.overflows, List.any_eq_false]
    intro c hc
    have hlt := lt_of_mem_onesOf hc
    rw [State.tok_congr (fun i _ => hreg _ (fun x _ => by unfold R.psqToken R.psqInflight; omega)) hlt]
    have := h c (List.mem_filter.mp hc).2
    simp
    omega
  rw [State.complete, hu, State.postSet, hset, if_neg (by simp [hover])]

theorem SameSequencers.tok {s t : State} (h : SameSequencers s t) (k c : Nat) : t.tok k c = s.tok k c := by
  rw [State.tok, State.fld, h.regs _ (by unfold R.psqId R.psqToken; omega), State.tok, State.fld]

theorem SameSequencers.tset {s t : State} (h : SameSequencers s t) (k v : Nat) : t.tset k v = s.tset k v := by
  unfold State.tset
  rw [h.regs _ (by unfold R.psqId R.psqTset; omega)]

theorem SameSequencers.postsFit {s t : State} (h : SameSequencers s t) {k w : Nat} (hp : PostsFit s k w) : PostsFit t k w := by
  intro c hc
  rw [h.tset] at hc
  rw [h.tok]
  exact hp c hc

theorem SameSequencers.syncDvu (s : State) (k : Nat) {e : Nat} (he : e < 32) : SameSequencers s (s.syncDvu k e) :=
  ⟨s.q_syncDvu k e, fun a ha => s.reg_syncDvu_other (by unfold R.psqId at ha; unfold R.vecDvuStatus; omega) k⟩

theorem State.q_giveTokens (s : State) (k mask : Nat) : (s.giveTokens k mask).q k = s.q k := by
  refine State.q_forAll (fun u c => ?_) _ s
  rfl

theorem State.complete_completed {s : State} {k : Nat} {o : Outst} (h : PostsFit s k o.word) : Completed s (s.complete k o) k o := by
  rw [State.complete_of_postsFit h]
  refine ⟨by rw [State.q_giveTokens, State.q_setOutst], fun c hc => ?_⟩
  have htok : (s.setOutst k ((s.q k).outst.filter (fun p => !(p.seq == o.seq)))).tok k c = s.tok k c :=
    State.tok_congr (fun i _ => s.reg_setOutst_other (fun x _ => by unfold R.psqToken R.psqInflight; omega) _) hc
  rw [State.tok_giveTokens _ k _ hc (fun hb => htok ▸ h c hb), htok]

/-- A completion is seen in the registers of the pass sequencers, and in what is outstanding. -/
theorem Completed.congr {s s' t t' : State} {k : Nat} {o : Outst} (h : Completed s' t k o) (hs : SameSequencers s s')
    (ht : SameSequencers t t') : Completed s t' k o := by
  obtain ⟨hout, hpost⟩ := h
  refine ⟨by rw [ht.q, hout, hs.q], fun c hc => ?_⟩
  rw [ht.tok, hpost c hc, hs.tok, hs.tset]

theorem Faulted.congr {s t u : State} {k x code index : Nat} (h : Faulted s t k x code index) (ht : SameSequencers t u) :
    Faulted s u k x code index := by
  intro hfirst
  obtain ⟨hvalid, hcode, hindex, hstop⟩ := h hfirst
  have h0 : u.reg (R.psqFrec0 k x) = t.reg (R.psqFrec0 k x) := ht.regs _ (by unfold R.psqId R.psqFrec0; omega)
  have h1 : u.reg (R.psqFrec1 k x) = t.reg (R.psqFrec1 k x) := ht.regs _ (by unfold R.psqId R.psqFrec1; omega)
  refine ⟨by rwa [State.flag_congr h0], by rwa [State.fld, h0], h1.trans hindex, ?_⟩
  rwa [State.flag_congr (ht.regs _ (by unfold R.psqId R.psqStatus; omega))]

theorem State.engOwner_lt {s : State} {e k : Nat} (h : s.engOwner e = some k) : k < 16 := by
  have hfind : (List.range 16).find? (fun k => s.enabled k && (s.stake k).eng.testBit e) = some k := h
  exact List.mem_range.mp (List.mem_of_find?_eq_some hfind)

end Sys2Proof.Machine
end

section
/-! PROOFS. VX and VX_COMPLETE (R93, R108, R118, R124, R129, R412): what they do in the three streams that a stake has. -/

namespace Sys2Proof.Machine

/-! ### VX -/

/-- A fault of a VX's descriptor, recorded by its DVU and its stream (R118). -/
def State.vxFault (s : State) (k x e code : Nat) : State :=
  (s.dvuErr e k x (s.indexOf k x) code).raiseFault k x (s.indexOf k x) code e false

theorem State.vxFault_faulted (s : State) {k x code : Nat} (hk : k < 16) (hx : x < 3) (hc : code < 256) (e : Nat) :
    Faulted s (s.vxFault k x e code) k x code (s.indexOf k x) :=
  (State.raiseFault_faulted _ hk hx hc _ e false).of_frec0 ((FaultReg.frec0 k hx).reg_dvuErr s _ _ _ _ _)

/-- Bits that a VX word reserves are set (R108). -/
def vxReserved (w : Nat) : Bool := decide (bits w 37 3 ≠ 0) || decide (bits w 56 72 ≠ 0)

/-- The DVU of a VX is the stake's, and works or has a substitute. -/
def State.vxOwned (s : State) (k w : Nat) : Prop :=
  (s.stake k).eng.testBit (bits w 32 5) = true ∧ s.engNone k (bits w 32 5) = false

section
variable {s : State} {k x w : Nat} (h : Ready s k x w) (ho : opcOf w = 0x50)
include h ho

theorem State.vx_not_owned (hown : ¬ s.vxOwned k w) :
    s.vx k x = s.raiseFault k x (s.indexOf k x) 0x30 (bits w 32 5) false := by
  rw [State.vx, State.withHead_ready h (by simp [ho])]
  refine if_pos ?_
  simpa [State.vxOwned, imp_iff_not_or] using hown

variable (hown : s.vxOwned k w)
include hown

theorem State.vx_unread (hc : s.readChain (bits w 32 5) (bits w 40 16) = none) :
    s.vx k x = s.vxFault k x (bits w 32 5) (if vxReserved w then 0x31 else 0x36) := by
  obtain ⟨he, hn⟩ := hown
  rw [State.vx, State.withHead_ready h (by simp [ho])]
  simp only [he, hn, hc, Bool.not_true, Bool.or_false, Bool.false_eq_true, if_false]
  rfl

variable {b : List Byte} (hc : s.readChain (bits w 32 5) (bits w 40 16) = some b)
include hc

theorem State.vx_foreign_pvu (hp : s.pvuBad k (bits w 32 5 / 8) none (parseChain b) = true) :
    s.vx k x = s.raiseFault k x (s.indexOf k x) 0x30 (bits w 32 5) false := by
  obtain ⟨he, hn⟩ := hown
  rw [State.vx, State.withHead_ready h (by simp [ho])]
  simp [he, hn, hc, hp]

variable (hp : s.pvuBad k (bits w 32 5 / 8) none (parseChain b) = false)
include hp

theorem State.vx_reserved (hr : vxReserved w = true) : s.vx k x = s.vxFault k x (bits w 32 5) 0x31 := by
  obtain ⟨he, hn⟩ := hown
  rw [State.vx, State.withHead_ready h (by simp [ho])]
  unfold vxReserved at hr
  simp only [he, hn, hc, hp, hr, Bool.not_true, Bool.or_false, Bool.false_eq_true, if_false, if_true]
  rfl

variable (hr : vxReserved w = false)
include hr

theorem State.vx_refused {f : Nat} (hf : s.chainFault k x (bits w 32 5) (s.stake k).level none (parseChain b) = some f) :
    s.vx k x = s.vxFault k x (bits w 32 5) f := by
  obtain ⟨he, hn⟩ := hown
  unfold vxReserved at hr
  rw [State.vx, State.withHead_ready h (by simp [ho])]
  simp only [he, hn, hc, hp, hr, hf, Bool.not_true, Bool.or_false, Bool.false_eq_true, if_false]
  rfl

theorem State.vx_passed (hf : s.chainFault k x (bits w 32 5) (s.stake k).level none (parseChain b) = none) :
    ∃ frame dest, s.vx k x = ((s.dispatchOut k x w (s.engFor k (bits w 32 5)) false [] b frame).bindPush k dest).syncDvu k
      (s.engFor k (bits w 32 5)) := by
  obtain ⟨he, hn⟩ := hown
  unfold vxReserved at hr
  rw [State.vx, State.withHead_ready h (by simp [ho])]
  simp only [he, hn, hc, hp, hr, hf, Bool.not_true, Bool.or_false, Bool.false_eq_true, if_false]
  exact ⟨_, _, rfl⟩

end

/-- What passes the checks dispatches to its DVU, or to the substitute, with the descriptor as read. -/
theorem State.vx_dispatched {s : State} {k x w : Nat} (hx : x < 3) (h : Ready s k x w) (ho : opcOf w = 0x50) (hown : s.vxOwned k w)
    {b : List Byte} (hc : s.readChain (bits w 32 5) (bits w 40 16) = some b)
    (hp : s.pvuBad k (bits w 32 5 / 8) none (parseChain b) = false) (hr : vxReserved w = false)
    (hf : s.chainFault k x (bits w 32 5) (s.stake k).level none (parseChain b) = none) :
    Dispatched s (s.vx k x) k x w (s.engFor k (bits w 32 5)) false ∧ (s.vx k x).newestDescs k = some ([], b) := by
  obtain ⟨frame, dest, heq⟩ := State.vx_passed h ho hown hc hp hr hf
  have hsync := SameSequencers.syncDvu ((s.dispatchOut k x w (s.engFor k (bits w 32 5)) false [] b frame).bindPush k dest) k
    (s.engFor_lt k (e := bits w 32 5) (Nat.mod_lt _ (by decide)))
  rw [heq]
  refine ⟨((s.dispatchOut_dispatched k hx w _ false [] b frame).bindPush dest).congr (hsync.q k) hsync.regs, ?_⟩
  rw [State.newestDescs, hsync.q]
  exact (State.bindPush_newestDescs _ k dest).trans (s.dispatchOut_newestDescs k hx w _ false [] b frame)

/-! ### VX_COMPLETE -/

/-- The outputs of a VX committed, and the instruction completed. -/
def State.vxCommitted (s : State) (k e : Nat) (o : Outst) : State := (s.commitChain k e o (parseChain o.chain) none).complete k o

section
variable {s : State} {e k : Nat} {o : Outst} (hown : s.engOwner e = some k)
  (hfind : (s.q k).outst.find? (fun o => o.isVx && o.unit == e) = some o) (hissued : o.issued = true) (hrows : o.rows ≤ o.run.row)
  (hpoison : o.run.poison = false)
include hown hfind hissued hrows hpoison

theorem State.vxComplete_eq : s.vxComplete e =
    (if o.run.overrun then (s.vxCommitted k e o).dvuAfter k e o 0x3A else s.vxCommitted k e o).syncDvu k e := by
  have hready : ¬ (¬ o.issued ∨ o.run.row < o.rows) := by simp [hissued, hrows]
  simp only [State.vxComplete, hown, hfind, hpoison, if_neg hready, Bool.false_eq_true, if_false]
  rfl

theorem State.vxComplete_sameMemory (hover : o.run.overrun = false) (hpush : o.run.pushes = [])
    (hcompress : (parseChain o.chain).compress = none) (haux : (parseChain o.chain).auxOp = none) (hpv : o.run.pv = []) :
    SameMemory s (s.vxComplete e) := by
  rw [State.vxComplete_eq hown hfind hissued hrows hpoison, if_neg (by simp [hover]), State.vxCommitted,
    State.commitChain_statistics s k e none hpush hcompress haux hpv hpoison]
  exact (State.syncDvu_dry k e (State.complete_dry k o (State.addSat_dry _ _ _ (State.addSat_dry _ _ _
    (State.tap_dry k _ _ _ _ (.refl s)))))).same

variable (he : e < 32) (hfit : PostsFit s k o.word)
include he hfit

theorem State.vxComplete_completed (hover : o.run.overrun = false) : Completed s (s.vxComplete e) k o := by
  have hcommit := (SameSequencers.refl s).commitChain k he o (parseChain o.chain) none
  rw [State.vxComplete_eq hown hfind hissued hrows hpoison, if_neg (by simp [hover])]
  exact (State.complete_completed (hcommit.postsFit hfit)).congr hcommit (.syncDvu _ k he)

theorem State.vxComplete_faulted (hstrm : o.strm < 3) (hover : o.run.overrun = true) :
    Faulted s (s.vxComplete e) k o.strm 0x3A o.index := by
  have hcommit := (SameSequencers.refl s).commitChain k he o (parseChain o.chain) none
  have hfrec := FaultReg.frec0 k hstrm
  have hk := State.engOwner_lt hown
  have hreg : ((s.vxCommitted k e o).dvuErr e k o.strm o.index 0x3A).reg (R.psqFrec0 k o.strm) = s.reg (R.psqFrec0 k o.strm) := by
    rw [hfrec.reg_dvuErr, State.vxCommitted, State.complete_of_postsFit (hcommit.postsFit hfit), hfrec.reg_giveTokens,
      hfrec.reg_setOutst, hcommit.regs _ (by unfold R.psqId R.psqFrec0; omega)]
  rw [State.vxComplete_eq hown hfind hissued hrows hpoison, if_pos hover, State.dvuAfter]
  exact ((State.raiseFault_faulted _ hk hstrm (by decide) _ _ _).of_frec0 hreg).congr (.syncDvu _ k he)

end

/-! ### the answers of both commands -/

theorem exec_vx (k : Fin 16) (x : Strm) (s : State) : exec (.vx k x) s = .next (s.vx k x.num) := rfl

theorem exec_vxComplete (e : Fin 32) (s : State) : exec (.vxComplete e) s = .next (s.vxComplete e) := rfl

theorem strmNum_lt (x : Strm) : x.num < 3 := by cases x <;> decide

section
variable {s : State} {k : Fin 16} {x : Strm}

/-- A VX that raises `code`: it stands in its stream's record, memory and the module's own are as they were. -/
def VxRaises (s : State) (k : Fin 16) (x : Strm) (code : Nat) : Prop :=
  Answers (exec (.vx k x) s) (fun t => Faulted s t k x.num code (s.indexOf k x.num) ∧ SameMemory s t ∧ Apart s t)

theorem vxRaises_of_faulted {code : Nat} (h : Faulted s (s.vx k x.num) k x.num code (s.indexOf k x.num)) : VxRaises s k x code :=
  ⟨_, exec_vx k x s, h, (State.vx_dry k x.num (.refl s)).same, State.vx_apart k x.num (.refl s)⟩

theorem vxRaises_of_raiseFault {e code : Nat} (hc : code < 256)
    (h : s.vx k x.num = s.raiseFault k x.num (s.indexOf k x.num) code e false) : VxRaises s k x code :=
  vxRaises_of_faulted (h ▸ s.raiseFault_faulted k.isLt (strmNum_lt x) hc _ e false)

theorem vxRaises_of_vxFault {e code : Nat} (hc : code < 256) (h : s.vx k x.num = s.vxFault k x.num e code) : VxRaises s k x code :=
  vxRaises_of_faulted (h ▸ s.vxFault_faulted k.isLt (strmNum_lt x) hc e)

/-- R93, R108, R118: the checks of a VX in their order, each with its code, and what passes them all. -/
theorem vx_answers {w : Nat} (h : Ready s k x.num w) (ho : opcOf w = 0x50) :
    let e := bits w 32 5
    (¬ s.vxOwned k w → VxRaises s k x 0x30) ∧
    (s.vxOwned k w → s.readChain e (bits w 40 16) = none → VxRaises s k x (if vxReserved w then 0x31 else 0x36)) ∧
    (∀ b, s.vxOwned k w → s.readChain e (bits w 40 16) = some b →
      (s.pvuBad k (e / 8) none (parseChain b) = true → VxRaises s k x 0x30) ∧
      (s.pvuBad k (e / 8) none (parseChain b) = false → vxReserved w = true → VxRaises s k x 0x31) ∧
      (∀ f, s.pvuBad k (e / 8) none (parseChain b) = false → vxReserved w = false →
        s.chainFault k x.num e (s.stake k).level none (parseChain b) = some f → VxRaises s k x f) ∧
      (s.pvuBad k (e / 8) none (parseChain b) = false → vxReserved w = false →
        s.chainFault k x.num e (s.stake k).level none (parseChain b) = none → Answers (exec (.vx k x) s) (fun t =>
          Dispatched s t k x.num w (s.engFor k e) false ∧ t.newestDescs k = some ([], b) ∧ SameMemory s t ∧ Apart s t))) := by
  refine ⟨fun hown => vxRaises_of_raiseFault (by decide) (State.vx_not_owned h ho hown),
    fun hown hc => vxRaises_of_vxFault (by split <;> decide) (State.vx_unread h ho hown hc), fun b hown hc => ⟨?_, ?_, ?_, ?_⟩⟩
  · exact fun hp => vxRaises_of_raiseFault (by decide) (State.vx_foreign_pvu h ho hown hc hp)
  · exact fun hp hr => vxRaises_of_vxFault (by decide) (State.vx_reserved h ho hown hc hp hr)
  · exact fun f hp hr hf => vxRaises_of_vxFault (State.chainFault_lt hf) (State.vx_refused h ho hown hc hp hr hf)
  · intro hp hr hf
    obtain ⟨hd, hdescs⟩ := State.vx_dispatched (strmNum_lt x) h ho hown hc hp hr hf
    exact ⟨_, exec_vx k x s, hd, hdescs, (State.vx_dry k x.num (.refl s)).same, State.vx_apart k x.num (.refl s)⟩

end

section
variable {s : State} {e : Fin 32} {k : Nat} {o : Outst} (hown : s.engOwner e = some k)
  (hfind : (s.q k).outst.find? (fun o => o.isVx && o.unit == e.val) = some o) (hissued : o.issued = true) (hrows : o.rows ≤ o.run.row)
  (hpoison : o.run.poison = false) (hfit : PostsFit s k o.word)
include hown hfind hissued hrows hpoison hfit

/-- R124, R129: a VX whose rows have passed completes. -/
theorem vxComplete_answers (hover : o.run.overrun = false) :
    let c := parseChain o.chain
    Answers (exec (.vxComplete e) s) (fun t => Completed s t k o ∧ Apart s t ∧
      (o.run.pushes = [] → c.compress = none → c.auxOp = none → o.run.pv = [] → SameMemory s t)) :=
  ⟨_, exec_vxComplete e s, State.vxComplete_completed hown hfind hissued hrows hpoison e.isLt hfit hover,
    State.vxComplete_apart e (.refl s), State.vxComplete_sameMemory hown hfind hissued hrows hpoison hover⟩

/-- R105, R118: its overrun is recorded after completion, in each of the three streams. -/
theorem vxComplete_overrun_answers (hstrm : o.strm < 3) (hover : o.run.overrun = true) :
    Answers (exec (.vxComplete e) s) (fun t => Faulted s t k o.strm 0x3A o.index ∧ Apart s t) :=
  ⟨_, exec_vxComplete e s, State.vxComplete_faulted hown hfind hissued hrows hpoison e.isLt hfit hstrm hover,
    State.vxComplete_apart e (.refl s)⟩

end

end Sys2Proof.Machine
end

section
/-! PROOFS. VX_COMPLETE with an overrun of EXPAND (R105, R123, R141): the statement leaves the stream of the outstanding VX open, and past
stream 2 the address of a fault record is one of a token register. In the three streams that a stake has, `vx_answers`,
`vxComplete_answers` and `vxComplete_overrun_answers` give every clause. -/

namespace Sys2Proof.Machine

/-- PSQ_xFREC0 of a stream 4 would stand where counters TK20 to TK23 do (R123). -/
theorem psqFrec0_four_eq_psqToken (k : Nat) : R.psqFrec0 k 4 = R.psqToken k 5 := by
  unfold R.psqFrec0 R.psqToken
  omega

/-- The VX `expandCompressVx` at its end, with an overrun, in a stream 4 that no stake has; its POST value 1 names the first token set. -/
def strayVx : Outst :=
  { expandCompressVx with strm := 4, word := 0x1000050, run := { ChainRun.start with row := 1, overrun := true } }

/-- Stake 0 runs that VX alone; its first token set is TK21, and every counter is 0. -/
def strayState : State :=
  { expandCompressState with
    regs := [(R.psqTset 0 0, BitVec.ofNat 64 (2 ^ 21))]
    psq := [(0, { Psq.idle with outst := [strayVx] })] }

/-- The post of that VX counts TK21, which is 0. -/
theorem strayVx_postsFit : PostsFit strayState 0 strayVx.word := by
  have hset : strayState.tset 0 (postOf strayVx.word) = 2 ^ 21 := by decide +kernel
  intro c hc
  rw [hset, Nat.testBit_two_pow] at hc
  obtain rfl : 21 = c := of_decide_eq_true hc
  decide +kernel

/-- Bit 0 of TK21 is where VALID of the record would stand: it is clear before the completion. -/
theorem strayVx_no_record : strayState.flag (R.psqFrec0 0 strayVx.strm) F.psqFrec0Valid = false := by
  rw [show strayVx.strm = 4 from rfl, psqFrec0_four_eq_psqToken]
  decide +kernel

/-- The post sets that bit, so the overrun finds a record that is taken, and TK20 stands where its code would. -/
theorem strayVx_code_lost : (strayState.vxComplete 0).fld (R.psqFrec0 0 strayVx.strm) F.psqFrec0Code ≠ 0x3A := by
  rw [show strayVx.strm = 4 from rfl, psqFrec0_four_eq_psqToken]
  decide +kernel

end Sys2Proof.Machine

open Sys2Proof Sys2Proof.Machine in
/-- Refutes O17: an overrun of a VX whose stream is not one of the three is recorded over the tokens, where its own post stands. -/
theorem not_standaloneChains : ¬ Obligations.StandaloneChains := by
  rintro ⟨-, hcomplete⟩
  obtain ⟨-, hoverrun⟩ := hcomplete strayState 0 0 strayVx (by decide +kernel) (by decide +kernel) rfl (by decide +kernel) rfl
  obtain ⟨t, hexec, hfault, -⟩ := hoverrun rfl
  obtain rfl := Host.Outcome.next.inj ((exec_vxComplete 0 strayState).symm.trans hexec)
  obtain ⟨-, hcode, -⟩ := hfault strayVx_postsFit strayVx_no_record
  exact strayVx_code_lost hcode

end

section
/-! PROOFS. PSQ_POST over a stopped stake (R126, R144, R269): the tokens are written through to the context area, and CXT_ERR counts each
of these writes where no committed decoder covers the area. R145 asks for an area in the stake's HBM; PSQ_CTX itself takes any address. -/

namespace Sys2Proof.Machine

/-- Up to PHASE 8, with the pass sequencers' island SETTLED, stake 0 owns engine 0 and octet 0. It is STOPPED by PREEMPT with a valid
context, whose area is the first page of the CXL range. No decoder is committed. -/
def stoppedOverCxl : State :=
  { State.reset with
    lk := { Lk.reset with powered := true, pwrOk := true, railsOn := 8, unitsUp := true }
    weave := { WeaveCtx.reset with active := true, cur := { WeaveData.empty with
      stakes := [{ StakeRec.off with enable := true, eng := 1, ch := 0xFF }] } }
    regs := [(R.wvStatus, 1), (R.lkStatus, (regReset R.lkStatus).setFld F.lkStatusPhase 8),
      (R.lkIsl 82, (regReset (R.lkIsl 82)).setFld F.lkIslState 2),
      (R.psqStatus 0, (((0 : Word).setFld F.psqStatusState stStopped).setFld F.psqStatusStopPreempt 1).setFld F.psqStatusCtxValid 1),
      (R.psqCtx 0, BitVec.ofNat 64 cxlBase)] }

/-- A server core may write PSQ_POST there. -/
theorem stoppedOverCxl_granted : Granted stoppedOverCxl (.core 0) (R.psqPost (0 : Fin 16)) := by
  unfold Granted
  decide +kernel

/-- A post of TK0 counts its writes to the area in CXT_ERR. -/
theorem stoppedOverCxl_counts :
    ∀ t, exec (.psqPost (.core 0) 0 1) stoppedOverCxl = .next t → t.reg R.cxtErr ≠ stoppedOverCxl.reg R.cxtErr := by
  have h : (stoppedOverCxl.command (.core 0) [] (R.psqPost 0) (fun u => u.extPost 0 1)).reg R.cxtErr ≠ stoppedOverCxl.reg R.cxtErr := by
    decide +kernel
  rintro t ht
  obtain rfl := Host.Outcome.next.inj ht
  exact h

/-- CXT_ERR is neither a token register nor one of the write's outcome. -/
theorem cxtErr_not_posted : R.cxtErr ∉ (List.range 16).map (R.psqToken (0 : Fin 16)) ++ outcomeRegs := by decide +kernel

end Sys2Proof.Machine

open Sys2Proof Sys2Proof.Machine in
/-- Refutes O13: a post to a stopped stake whose context area no decoder covers changes CXT_ERR, where the statement lets only the
tokens and the write's outcome change. -/
theorem not_streamsAndPosts : ¬ Obligations.StreamsAndPosts := by
  rintro ⟨-, hposts⟩
  obtain ⟨hpost, -⟩ := hposts stoppedOverCxl (.core 0) 0
  obtain ⟨t, hexec, -, hregs, -⟩ := hpost 1 stoppedOverCxl_granted
  exact stoppedOverCxl_counts t hexec (hregs R.cxtErr cxtErr_not_posted)

end

section
/-! PROOFS. SEAL (R133, R134, Table 5-3 steps 1 and 2): the checks of its slot fields, and the hold that it puts on the stake. -/

namespace Sys2Proof.Machine

theorem exec_seal (k : Fin 16) (s : State) : exec (.seal k) s = .next (s.sealBegin k) := rfl

/-- The slot fields of a SEAL name 1 to 64 slots, none past slot 63 (R135). -/
def SealSlots (w : Nat) : Prop := bits w 38 7 ≠ 0 ∧ bits w 38 7 ≤ 64 ∧ bits w 32 6 + bits w 38 7 ≤ 64

/-- The stake with the waits of a SEAL taken and its hold set. -/
def State.sealHeld (s : State) (k w : Nat) : State :=
  let u := (s.takeTokens k (s.tset k (waitOf w))).setFld (R.psqStatus k) F.psqStatusHoldSeal 1
  u.setQ k { u.q k with sealing := some (w, u.indexOf k 1, s.tset k (waitOf w)) }

section
variable {s : State} {k w : Nat} (h : Ready s k 1 w) (ho : opcOf w = 0x04)
include h ho

theorem State.sealBegin_valid (hs : SealSlots w) : s.sealBegin k = s.sealHeld k w := by
  obtain ⟨hpos, hmax, hend⟩ := hs
  rw [State.sealBegin, State.withHead_ready h (by simp [ho])]
  exact if_neg (by omega)

theorem State.sealBegin_invalid (hs : ¬ SealSlots w) : s.sealBegin k = s.raiseFault k 1 (s.indexOf k 1) 0x08 0xFF false := by
  rw [State.sealBegin, State.withHead_ready h (by simp [ho])]
  exact if_pos (by unfold SealSlots at hs; omega)

end

theorem State.reg_sealHeld_other (s : State) {a k : Nat} (htok : ∀ i, i < 16 → a ≠ R.psqToken k i) (hst : a ≠ R.psqStatus k) (w : Nat) :
    (s.sealHeld k w).reg a = s.reg a := by
  rw [State.sealHeld, State.setQ_reg, State.reg_setFld_other _ hst, State.reg_takeTokens_other _ htok]

theorem State.flag_sealHeld_holdSeal (s : State) (k w : Nat) : (s.sealHeld k w).flag (R.psqStatus k) F.psqStatusHoldSeal = true := by
  rw [State.sealHeld, State.setQ_flag, State.flag, State.fld_setFld_same _ _ _ _ (by decide)]
  rfl

/-- A stake that SEAL holds dispatches nothing (R134). -/
theorem State.dispatching_of_holdSeal {s : State} {k : Nat} (h : s.flag (R.psqStatus k) F.psqStatusHoldSeal = true) :
    s.dispatching k = false := by
  simp [State.dispatching, State.held, h]

theorem State.sealHeld_taken (s : State) (k w : Nat) : Taken s (s.sealHeld k w) k w := by
  intro c hc
  rw [← s.tok_takeTokens k _ hc]
  refine State.tok_congr (fun i _ => ?_) hc
  rw [State.sealHeld, State.setQ_reg, State.reg_setFld_other _ (by unfold R.psqToken R.psqStatus; omega)]

theorem State.indexOf_sealHeld (s : State) (k w : Nat) : (s.sealHeld k w).indexOf k 1 = s.indexOf k 1 := by
  rw [State.indexOf, State.reg_sealHeld_other _ (fun i _ => by unfold R.psqIndex R.psqToken; omega)
    (by unfold R.psqIndex R.psqStatus; omega), State.indexOf]

theorem State.sealing_sealHeld (s : State) (k w : Nat) :
    ((s.sealHeld k w).q k).sealing = some (w, s.indexOf k 1, s.tset k (waitOf w)) := by
  rw [← s.indexOf_sealHeld k w]
  unfold State.sealHeld
  rw [State.q_setQ_same]
  rfl

/-- R133, R134: a SEAL whose slot fields are valid takes its waits and holds the stake. -/
theorem seal_valid_answers {s : State} {k : Fin 16} {w : Nat} (h : Ready s k 1 w) (ho : opcOf w = 0x04) (hs : SealSlots w) :
    Answers (exec (.seal k) s) (fun t => t.flag (R.psqStatus k) F.psqStatusHoldSeal = true ∧ Taken s t k w ∧
      t.indexOf k 1 = s.indexOf k 1 ∧ t.dispatching k = false ∧ (t.q k).sealing = some (w, s.indexOf k 1, s.tset k (waitOf w)) ∧
      SameMemory s t ∧ Apart s t) := by
  have heq := State.sealBegin_valid h ho hs
  refine ⟨_, exec_seal k s, ?_, ?_, ?_, ?_, ?_, (State.sealBegin_dry k (.refl s)).same, State.sealBegin_apart k (.refl s)⟩
  all_goals rw [heq]
  · exact s.flag_sealHeld_holdSeal k w
  · exact s.sealHeld_taken k w
  · exact s.indexOf_sealHeld k w
  · exact State.dispatching_of_holdSeal (s.flag_sealHeld_holdSeal k w)
  · exact s.sealing_sealHeld k w

/-- R135: invalid slot fields raise PS_SEAL. -/
theorem seal_invalid_answers {s : State} {k : Fin 16} {w : Nat} (h : Ready s k 1 w) (ho : opcOf w = 0x04) (hs : ¬ SealSlots w) :
    Answers (exec (.seal k) s) (fun t => Faulted s t k 1 0x08 (s.indexOf k 1) ∧ SameMemory s t ∧ Apart s t) := by
  have hfault := s.raiseFault_faulted k.isLt (show 1 < 3 by decide) (show 0x08 < 256 by decide) (s.indexOf k 1) 0xFF false
  rw [← State.sealBegin_invalid h ho hs] at hfault
  exact ⟨_, exec_seal k s, hfault, (State.sealBegin_dry k (.refl s)).same, State.sealBegin_apart k (.refl s)⟩

end Sys2Proof.Machine
end

section
/-! PROOFS. The statistics at a step boundary (R135, R136, Table 5-3 steps 5 and 6): what STA holds once the slots and counters have been
latched, and what restarts. -/

namespace Sys2Proof.Machine

/-! ### one item of a fold -/

/-- What the item `j` of a fold brings about holds at its end, where the other items leave it. -/
theorem State.forAll_item {P Q : State → Prop} {f : State → Nat → State} {l : List Nat} {j : Nat} (hj : j ∈ l)
    (hP : ∀ u, ∀ i ∈ l, P u → P (f u i)) (hset : ∀ u, P u → Q (f u j)) (hkeep : ∀ u, ∀ i ∈ l, i ≠ j → Q u → Q (f u i)) {s : State}
    (h : P s) : Q (s.forAll l f) := by
  unfold State.forAll
  induction l generalizing s with
  | nil => cases hj
  | cons d l ih =>
    rw [List.foldl_cons]
    have hP' : ∀ u, ∀ i ∈ l, P u → P (f u i) := fun u i hi => hP u i (List.mem_cons_of_mem _ hi)
    have hkeep' : ∀ u, ∀ i ∈ l, i ≠ j → Q u → Q (f u i) := fun u i hi => hkeep u i (List.mem_cons_of_mem _ hi)
    by_cases hl : j ∈ l
    · exact ih hl hP' hkeep' (hP s d List.mem_cons_self h)
    · obtain rfl : j = d := by simpa [hl] using hj
      exact List.foldlRecOn l f (motive := Q) (hset s h) (fun u hu i hi => hkeep' u i hi (fun e => hl (e ▸ hi)) hu)

theorem mem_onesOf {n x i : Nat} (hi : i < n) (h : x.testBit i = true) : i ∈ onesOf n x :=
  List.mem_filter.mpr ⟨List.mem_range.mpr hi, h⟩

/-! ### step 5 of Table 5-3: the latch -/

/-- What STA_COUNT shows of a slot: its two counts, each holding the largest of 32 bits. -/
def countWord (v : Slot) : Word := BitVec.ofNat 64 (min v.nonfin (2 ^ 32 - 1) + min v.sat (2 ^ 32 - 1) * 2 ^ 32)

/-- The counters of an engine and its DVU, in the order of STA_ENG. -/
def engCounters (e : Nat) : List Nat :=
  [R.mxeCntIssue e, R.mxeCntStream e, R.mxeCntLatch e, R.mxeCntFeed e, R.mxeCntDrain e, R.mxeCntToken e, R.mxeCntMacs e,
    R.vecDvuCntRows e, R.vecDvuCntWait e]

/-- Slot `i` latched. -/
def State.latchSlot (s : State) (k i : Nat) : State :=
  (s.setFld (R.staMaxabs k i) F.staMaxabsMaxabs (s.slot k i).maxabs).setReg (R.staCount k i) (countWord (s.slot k i))

/-- The counters of engine `e` latched, with the step. -/
def State.latchEngine (s : State) (step : Word) (e : Nat) : State :=
  (s.setReg (R.staEng e 0) step).forAll (List.range 9) (fun u i => u.setReg (R.staEng e (i + 1)) (u.reg ((engCounters e).getD i 0)))

/-- The counter of PVU `v` latched, with the step. -/
def State.latchPvu (s : State) (step : Word) (v : Nat) : State :=
  (s.setReg (R.staPvu v 0) step).setReg (R.staPvu v 1) (s.reg (R.vecPvuCntOps v))

/-- The sums of the slots' counts latched. -/
def State.latchSum (s : State) (k : Nat) : State :=
  let nf := (List.range 64).foldl (fun n i => n + (s.slot k i).nonfin) 0
  let sa := (List.range 64).foldl (fun n i => n + (s.slot k i).sat) 0
  s.setReg (R.staSum k) (BitVec.ofNat 64 (min nf (2 ^ 32 - 1) + min sa (2 ^ 32 - 1) * 2 ^ 32))

/-- The slots and their sums latched. -/
def State.latchSlots (s : State) (k : Nat) : State := (s.forAll (List.range 64) (fun u i => u.latchSlot k i)).latchSum k

/-- The counters of the engines latched as well. -/
def State.latchEngines (s : State) (k : Nat) (step : Word) : State :=
  s.forAll (onesOf 32 (s.stake k).eng) (fun u e => u.latchEngine step e)

/-- The counters of the PVUs latched as well. -/
def State.latchPvus (s : State) (k : Nat) (step : Word) : State := s.forAll (onesOf 8 (s.stake k).pvu) (fun u v => u.latchPvu step v)

theorem State.latchStats_eq (s : State) (k : Nat) :
    s.latchStats k = (((s.latchSlots k).latchEngines k (s.reg (R.psqStep k))).latchPvus k (s.reg (R.psqStep k))).setReg (R.staStep k)
      (s.reg (R.psqStep k)) := rfl

/-- Only registers have changed, none of them below `lo`. -/
structure RegsFrom (lo : Nat) (s t : State) : Prop where
  rest : t = { s with regs := t.regs }
  regs : ∀ a, a < lo → t.reg a = s.reg a

theorem RegsFrom.refl (lo : Nat) (s : State) : RegsFrom lo s s := ⟨rfl, fun _ _ => rfl⟩

section
variable {lo : Nat} {z s : State} (h : RegsFrom lo z s)
include h

theorem RegsFrom.setReg {a : Nat} (ha : lo ≤ a) (v : Word) : RegsFrom lo z (s.setReg a v) := by
  refine ⟨?_, fun b hb => (s.reg_setReg_other a b v (by omega)).trans (h.regs b hb)⟩
  conv => lhs; rw [h.rest]
  rfl

theorem RegsFrom.forAll {f : State → Nat → State} (l : List Nat) (hf : ∀ u, ∀ i ∈ l, RegsFrom lo z u → RegsFrom lo z (f u i)) :
    RegsFrom lo z (s.forAll l f) :=
  List.foldlRecOn l f (motive := RegsFrom lo z) h (fun u hu i hi => hf u i hi hu)

theorem RegsFrom.latchSlot (hlo : lo ≤ R.staStep 0) (k i : Nat) : RegsFrom lo z (s.latchSlot k i) :=
  (h.setReg (by unfold R.staStep at hlo; unfold R.staMaxabs; omega) _).setReg (by unfold R.staStep at hlo; unfold R.staCount; omega) _

theorem RegsFrom.latchEngine (hlo : lo ≤ R.staEng 0 0) (step : Word) (e : Nat) : RegsFrom lo z (s.latchEngine step e) := by
  unfold R.staEng at hlo
  exact (h.setReg (by unfold R.staEng; omega) _).forAll _ (fun u i _ hu => hu.setReg (by unfold R.staEng; omega) _)

theorem RegsFrom.latchPvu (hlo : lo ≤ R.staPvu 0 0) (step : Word) (v : Nat) : RegsFrom lo z (s.latchPvu step v) := by
  unfold R.staPvu at hlo
  exact (h.setReg (by unfold R.staPvu; omega) _).setReg (by unfold R.staPvu; omega) _

theorem RegsFrom.latchSlots (hlo : lo ≤ R.staStep 0) (k : Nat) : RegsFrom lo z (s.latchSlots k) :=
  (h.forAll _ (fun _ i _ hu => hu.latchSlot hlo k i)).setReg (by unfold R.staStep at hlo; unfold R.staSum; omega) _

theorem RegsFrom.latchEngines (hlo : lo ≤ R.staEng 0 0) (k : Nat) (step : Word) : RegsFrom lo z (s.latchEngines k step) :=
  h.forAll _ (fun _ e _ hu => hu.latchEngine hlo step e)

theorem RegsFrom.latchPvus (hlo : lo ≤ R.staPvu 0 0) (k : Nat) (step : Word) : RegsFrom lo z (s.latchPvus k step) :=
  h.forAll _ (fun _ v _ hu => hu.latchPvu hlo step v)

theorem RegsFrom.stake (k : Nat) : s.stake k = z.stake k := by rw [h.rest]; rfl

theorem RegsFrom.slot (k i : Nat) : s.slot k i = z.slot k i := by rw [h.rest]; rfl

theorem RegsFrom.q (k : Nat) : s.q k = z.q k := by rw [h.rest]; rfl

theorem RegsFrom.xc (k : Nat) : s.xc k = z.xc k := by rw [h.rest]; rfl

end

/-- The latch writes registers of the STA block alone. -/
theorem State.latchStats_from (s : State) (k : Nat) : RegsFrom (R.staStep 0) s (s.latchStats k) := by
  rw [State.latchStats_eq]
  exact ((((RegsFrom.refl _ s).latchSlots (le_refl _) k).latchEngines (by decide) k _).latchPvus (by decide) k _).setReg
    (by unfold R.staStep; omega) _

theorem State.reg_latchStats_staStep (s : State) (k : Nat) : (s.latchStats k).reg (R.staStep k) = s.reg (R.psqStep k) := by
  rw [State.latchStats_eq, State.reg_setReg_same]

/-- What STA holds of slot `j` once it has been latched (R135). -/
def SlotLatched (s t : State) (k j : Nat) : Prop :=
  t.fld (R.staMaxabs k j) F.staMaxabsMaxabs = (s.slot k j).maxabs % 2 ^ F.staMaxabsMaxabs.2 ∧
    t.reg (R.staCount k j) = countWord (s.slot k j)

theorem SlotLatched.congr {s t u : State} {k j : Nat} (h : SlotLatched s t k j) (hmax : u.reg (R.staMaxabs k j) = t.reg (R.staMaxabs k j))
    (hcount : u.reg (R.staCount k j) = t.reg (R.staCount k j)) : SlotLatched s u k j := by
  unfold SlotLatched State.fld
  rw [hmax, hcount]
  exact h

theorem State.latchSlot_latched {s u : State} (hu : RegsFrom (R.staStep 0) s u) (k j : Nat) : SlotLatched s (u.latchSlot k j) k j := by
  have hpair : R.staMaxabs k j ≠ R.staCount k j := by unfold R.staMaxabs R.staCount; omega
  unfold SlotLatched State.latchSlot
  rw [hu.slot, State.fld, State.reg_setReg_other _ _ _ _ hpair, State.reg_setReg_same]
  exact ⟨State.fld_setFld_same _ _ _ _ (by decide), rfl⟩

theorem State.latchSlots_latched (s : State) (k : Nat) {j : Nat} (hj : j < 64) : SlotLatched s (s.latchSlots k) k j := by
  have hslots : SlotLatched s (s.forAll (List.range 64) (fun u i => u.latchSlot k i)) k j := by
    refine State.forAll_item (P := RegsFrom (R.staStep 0) s) (Q := fun u => SlotLatched s u k j) (List.mem_range.mpr hj)
      (fun u i _ hu => hu.latchSlot (le_refl _) k i) (fun u hu => State.latchSlot_latched hu k j)
      (fun u i _ hi hu => hu.congr ?_ ?_) (.refl _ s)
    · rw [State.latchSlot, State.reg_setReg_other _ _ _ _ (by unfold R.staMaxabs R.staCount; omega),
        State.reg_setFld_other _ (by unfold R.staMaxabs; omega)]
    · rw [State.latchSlot, State.reg_setReg_other _ _ _ _ (by unfold R.staCount; omega),
        State.reg_setFld_other _ (by unfold R.staCount R.staMaxabs; omega)]
  exact hslots.congr (State.reg_setReg_other _ _ _ _ (by unfold R.staMaxabs R.staSum; omega))
    (State.reg_setReg_other _ _ _ _ (by unfold R.staCount R.staSum; omega))

theorem State.latchStats_slot (s : State) {k j : Nat} (hk : k < 16) (hj : j < 64) : SlotLatched s (s.latchStats k) k j := by
  have hsame : ∀ a, a < R.staEng 0 0 → a ≠ R.staStep k → (s.latchStats k).reg a = (s.latchSlots k).reg a := by
    intro a ha hne
    have hfrom := ((RegsFrom.refl (R.staEng 0 0) (s.latchSlots k)).latchEngines (le_refl _) k (s.reg (R.psqStep k))).latchPvus (by decide) k
      (s.reg (R.psqStep k))
    rw [State.latchStats_eq, State.reg_setReg_other _ _ _ _ hne, hfrom.regs a ha]
  exact (s.latchSlots_latched k hj).congr (hsame _ (by unfold R.staMaxabs R.staEng; omega) (by unfold R.staMaxabs R.staStep; omega))
    (hsame _ (by unfold R.staCount R.staEng; omega) (by unfold R.staCount R.staStep; omega))

theorem engCounters_lt {e c : Nat} (he : e < 32) (hc : c ∈ engCounters e) : c < R.staStep 0 := by
  simp only [engCounters, List.mem_cons, List.not_mem_nil, or_false, R.mxeCntIssue, R.mxeCntStream, R.mxeCntLatch, R.mxeCntFeed,
    R.mxeCntDrain, R.mxeCntToken, R.mxeCntMacs, R.vecDvuCntRows, R.vecDvuCntWait] at hc
  unfold R.staStep
  omega

/-- What STA_ENG holds of an engine once its counters have been latched with a step (R135). -/
def EngLatched (s t : State) (step : Word) (e : Nat) : Prop :=
  t.reg (R.staEng e 0) = step ∧ ∀ i c, (engCounters e)[i]? = some c → t.reg (R.staEng e (i + 1)) = s.reg c

theorem EngLatched.congr {s t u : State} {step : Word} {e : Nat} (h : EngLatched s t step e)
    (hreg : ∀ i, i < 10 → u.reg (R.staEng e i) = t.reg (R.staEng e i)) : EngLatched s u step e := by
  obtain ⟨hstep, hcount⟩ := h
  refine ⟨(hreg 0 (by decide)).trans hstep, fun i c hc => ?_⟩
  have hi : i < 9 := (List.getElem?_eq_some_iff.mp hc).1
  rw [hreg _ (by omega), hcount i c hc]

theorem State.latchEngine_latched {s u : State} (hu : RegsFrom (R.staStep 0) s u) (step : Word) {e : Nat} (he : e < 32) :
    EngLatched s (u.latchEngine step e) step e := by
  have hother : ∀ (v : State) i j w, i ≠ j → (v.setReg (R.staEng e i) w).reg (R.staEng e j) = v.reg (R.staEng e j) :=
    fun v i j w h => v.reg_setReg_other _ _ _ (by unfold R.staEng; omega)
  constructor
  · exact (State.reg_forAll _ (fun v i _ => hother v _ _ _ (by omega)) _).trans (u.reg_setReg_same _ _)
  · intro i c hc
    obtain ⟨hi, hget⟩ := List.getElem?_eq_some_iff.mp hc
    have hlt : c < R.staStep 0 := engCounters_lt he (hget ▸ List.getElem_mem hi)
    refine State.forAll_item (P := RegsFrom (R.staStep 0) s) (Q := fun v => v.reg (R.staEng e (i + 1)) = s.reg c) (List.mem_range.mpr hi)
      (fun v j _ hv => hv.setReg (by unfold R.staStep R.staEng; omega) _) (fun v hv => ?_)
      (fun v j _ hj hv => (hother v _ _ _ (by omega)).trans hv) (hu.setReg (by unfold R.staStep R.staEng; omega) _)
    rw [State.reg_setReg_same, List.getD_eq_getElem?_getD, hc]
    exact hv.regs c hlt

theorem State.latchStats_engine (s : State) {k e : Nat} (hk : k < 16) (he : e < 32) (hown : (s.stake k).eng.testBit e = true) :
    EngLatched s (s.latchStats k) (s.reg (R.psqStep k)) e := by
  have hslots := (RegsFrom.refl (R.staStep 0) s).latchSlots (le_refl _) k
  have hengines : EngLatched s ((s.latchSlots k).latchEngines k (s.reg (R.psqStep k))) (s.reg (R.psqStep k)) e := by
    rw [State.latchEngines, hslots.stake]
    refine State.forAll_item (P := RegsFrom (R.staStep 0) s) (Q := fun u => EngLatched s u (s.reg (R.psqStep k)) e) (mem_onesOf he hown)
      (fun u d _ hu => hu.latchEngine (by decide) _ d) (fun u hu => State.latchEngine_latched hu _ he)
      (fun u d _ hd hu => hu.congr fun i hi => ?_) hslots
    rw [State.latchEngine, State.reg_forAll _ (fun v j hj => State.reg_setReg_other _ _ _ _ (by
      have := List.mem_range.mp hj
      unfold R.staEng
      omega)), State.reg_setReg_other _ _ _ _ (by unfold R.staEng; omega)]
  have hpvus := (RegsFrom.refl (R.staPvu 0 0) ((s.latchSlots k).latchEngines k (s.reg (R.psqStep k)))).latchPvus (le_refl _) k
    (s.reg (R.psqStep k))
  rw [State.latchStats_eq]
  refine hengines.congr fun i hi => ?_
  rw [State.reg_setReg_other _ _ _ _ (by unfold R.staEng R.staStep; omega), hpvus.regs _ (by unfold R.staEng R.staPvu; omega)]

/-! ### step 6 of Table 5-3: the restart -/

theorem State.reg_resetRegs_mem (s : State) {l : List Nat} {a : Nat} (h : a ∈ l) : (s.resetRegs l).reg a = regReset a := by
  have herased : ∀ (l : List Nat) (m : KMap Word), a ∈ l ∨ KMap.find m a = none →
      KMap.find (l.foldl (fun m a => KMap.erase m a) m) a = none := by
    intro l
    induction l with
    | nil => exact fun m hm => hm.resolve_left List.not_mem_nil
    | cons b l ih =>
      intro m hm
      refine ih _ ?_
      rw [KMap.find_erase]
      by_cases hb : a = b
      · simp [hb]
      · simpa [hb] using hm
  exact State.reg_of_unlisted (herased l s.regs (.inl h))

/-- A register of the units of a die or of a quay unit (R257). -/
def UnitReg (a : Nat) : Prop := (R.mxeId 0 ≤ a ∧ a < R.psqId 0) ∨ (R.quyId 0 ≤ a ∧ a < R.quyId 16)

/-- The counters of the engines of stake `k`. -/
def State.engineCounters (s : State) (k : Nat) : List Nat := (onesOf 32 (s.stake k).eng).flatMap engCounters

/-- The counters of stake `k` at its PVUs, at the stacks and at the quay units. -/
def State.otherCounters (s : State) (k : Nat) : List Nat :=
  (onesOf 8 (s.stake k).pvu).map R.vecPvuCntOps ++
    (List.range 4).flatMap (fun d => [R.asuSCntSpill d k, R.asuSCntFetch d k, R.asuSCntWait d k]) ++
    (List.range 16).flatMap (fun q => [R.quySCntFold q k, R.quySCntUpd q k, R.quySCntClr q k, R.quySCntHold q k, R.quySCntResv q k])

theorem engCounters_unitReg {e c : Nat} (he : e < 32) (hc : c ∈ engCounters e) : UnitReg c := by
  simp only [engCounters, List.mem_cons, List.not_mem_nil, or_false, R.mxeCntIssue, R.mxeCntStream, R.mxeCntLatch, R.mxeCntFeed,
    R.mxeCntDrain, R.mxeCntToken, R.mxeCntMacs, R.vecDvuCntRows, R.vecDvuCntWait] at hc
  unfold UnitReg R.mxeId R.psqId
  omega

theorem State.engineCounters_unitReg {s : State} {k a : Nat} (h : a ∈ s.engineCounters k) : UnitReg a := by
  obtain ⟨e, he, ha⟩ := List.mem_flatMap.mp h
  exact engCounters_unitReg (lt_of_mem_onesOf he) ha

theorem State.otherCounters_unitReg {s : State} {k a : Nat} (hk : k < 16) (h : a ∈ s.otherCounters k) : UnitReg a := by
  simp only [State.otherCounters, List.mem_append, List.mem_flatMap, List.mem_map, List.mem_range] at h
  unfold UnitReg R.mxeId R.psqId R.quyId
  obtain (⟨v, hv, rfl⟩ | ⟨d, hd, ha⟩) | ⟨q, hq, ha⟩ := h
  · have := lt_of_mem_onesOf hv
    unfold R.vecPvuCntOps
    omega
  · simp only [List.mem_cons, List.not_mem_nil, or_false, R.asuSCntSpill, R.asuSCntFetch, R.asuSCntWait] at ha
    omega
  · simp only [List.mem_cons, List.not_mem_nil, or_false, R.quySCntFold, R.quySCntUpd, R.quySCntClr, R.quySCntHold, R.quySCntResv] at ha
    omega

/-- The slots of a stake at zero. -/
def State.clearSlots (s : State) (k : Nat) : State := s.forAll (List.range 64) (fun u i => u.setSlot k i ⟨0, 0, 0⟩)

/-- Nothing but slots has changed. -/
theorem State.clearSlots_eq (s : State) (k : Nat) : ∃ l, s.clearSlots k = { s with slots := l } := by
  unfold State.clearSlots State.forAll
  refine List.foldlRecOn (motive := fun u : State => ∃ l, u = { s with slots := l }) _ _ ⟨s.slots, rfl⟩ (fun u hu i _ => ?_)
  obtain ⟨l, rfl⟩ := hu
  exact ⟨_, rfl⟩

theorem State.reg_clearSlots (s : State) (k a : Nat) : (s.clearSlots k).reg a = s.reg a := by
  obtain ⟨l, hl⟩ := s.clearSlots_eq k
  rw [hl]
  rfl

theorem State.q_clearSlots (s : State) (k j : Nat) : (s.clearSlots k).q j = s.q j := by
  obtain ⟨l, hl⟩ := s.clearSlots_eq k
  rw [hl]
  rfl

theorem State.xc_clearSlots (s : State) (k j : Nat) : (s.clearSlots k).xc j = s.xc j := by
  obtain ⟨l, hl⟩ := s.clearSlots_eq k
  rw [hl]
  rfl

theorem State.slot_clearSlots (s : State) (k : Nat) {j : Nat} (hj : j < 64) : (s.clearSlots k).slot k j = ⟨0, 0, 0⟩ := by
  refine State.forAll_item (P := fun _ => True) (Q := fun u => u.slot k j = ⟨0, 0, 0⟩) (List.mem_range.mpr hj) (fun _ _ _ _ => trivial)
    (fun u _ => ?_) (fun u i _ hi hu => ?_) trivial
  · rw [State.slot_setSlot, if_pos rfl]
  · rwa [State.slot_setSlot, if_neg (by omega)]

/-- The products of engines counted anew. -/
def State.setMacs (s : State) (m : KMap Nat) : State := { s with macs := m }

@[simp] theorem State.setMacs_reg (s : State) (m : KMap Nat) (a : Nat) : (s.setMacs m).reg a = s.reg a := rfl
@[simp] theorem State.setMacs_slot (s : State) (m : KMap Nat) (k i : Nat) : (s.setMacs m).slot k i = s.slot k i := rfl
@[simp] theorem State.setMacs_q (s : State) (m : KMap Nat) (k : Nat) : (s.setMacs m).q k = s.q k := rfl
@[simp] theorem State.setMacs_xc (s : State) (m : KMap Nat) (k : Nat) : (s.setMacs m).xc k = s.xc k := rfl

/-- The slots and the counters of a stake restarted, before its step and seed move on. -/
def State.countersCleared (s : State) (k : Nat) : State :=
  (((s.clearSlots k).resetRegs (s.engineCounters k)).setMacs
    ((onesOf 32 (s.stake k).eng).foldl (fun m e => KMap.erase m e) s.macs)).resetRegs (s.otherCounters k)

theorem State.restartStats_eq (s : State) (k : Nat) :
    s.restartStats k =
      ((s.countersCleared k).count (R.psqStep k) 1).setReg (R.psqSeed k) ((s.countersCleared k).reg (R.psqSeedNext k)) := by
  have happend : ∀ (u : State) l m, u.resetRegs (l ++ m) = (u.resetRegs l).resetRegs m := fun u l m => by
    unfold State.resetRegs
    rw [List.foldl_append]
  obtain ⟨l, hl⟩ := s.clearSlots_eq k
  unfold State.countersCleared State.otherCounters State.restartStats
  simp only [happend]
  rw [← State.clearSlots, hl]
  rfl

theorem State.reg_countersCleared_other (s : State) {k a : Nat} (hk : k < 16) (h : ¬ UnitReg a) :
    (s.countersCleared k).reg a = s.reg a := by
  rw [State.countersCleared, State.reg_resetRegs _ _ _ (fun hm => h (State.otherCounters_unitReg hk hm)), State.setMacs_reg,
    State.reg_resetRegs _ _ _ (fun hm => h (State.engineCounters_unitReg hm)), State.reg_clearSlots]

theorem State.reg_countersCleared_engine (s : State) {k a : Nat} (h : a ∈ s.engineCounters k) :
    (s.countersCleared k).reg a = regReset a := by
  by_cases ho : a ∈ s.otherCounters k
  · exact State.reg_resetRegs_mem _ ho
  · rw [State.countersCleared, State.reg_resetRegs _ _ _ ho, State.setMacs_reg, State.reg_resetRegs_mem _ h]

section
variable (s : State) {k : Nat} (hk : k < 16)
include hk

theorem State.reg_restartStats_other {a : Nat} (hunit : ¬ UnitReg a) (hstep : a ≠ R.psqStep k) (hseed : a ≠ R.psqSeed k) :
    (s.restartStats k).reg a = s.reg a := by
  rw [State.restartStats_eq, State.reg_setReg_other _ _ _ _ hseed, State.count, State.reg_setReg_other _ _ _ _ hstep,
    s.reg_countersCleared_other hk hunit]

theorem State.reg_restartStats_psqStep : (s.restartStats k).reg (R.psqStep k) = s.reg (R.psqStep k) + 1 := by
  rw [State.restartStats_eq, State.reg_setReg_other _ _ _ _ (by unfold R.psqStep R.psqSeed; omega), State.count, State.reg_setReg_same,
    s.reg_countersCleared_other hk (by unfold UnitReg R.mxeId R.psqId R.quyId R.psqStep; omega)]
  rfl

theorem State.reg_restartStats_psqSeed : (s.restartStats k).reg (R.psqSeed k) = s.reg (R.psqSeedNext k) := by
  rw [State.restartStats_eq, State.reg_setReg_same,
    s.reg_countersCleared_other hk (by unfold UnitReg R.mxeId R.psqId R.quyId R.psqSeedNext; omega)]

/-- A counter of an engine of the stake restarts at its reset value. -/
theorem State.reg_restartStats_engCounter {e c : Nat} (he : e < 32) (hown : (s.stake k).eng.testBit e = true) (hc : c ∈ engCounters e) :
    (s.restartStats k).reg c = regReset c := by
  have hunit := engCounters_unitReg he hc
  have hmem : c ∈ s.engineCounters k := List.mem_flatMap.mpr ⟨e, mem_onesOf he hown, hc⟩
  unfold UnitReg R.mxeId R.psqId R.quyId at hunit
  rw [State.restartStats_eq, State.reg_setReg_other _ _ _ _ (by unfold R.psqSeed; omega), State.count,
    State.reg_setReg_other _ _ _ _ (by unfold R.psqStep; omega)]
  exact s.reg_countersCleared_engine hmem

end

theorem State.slot_restartStats (s : State) (k : Nat) {j : Nat} (hj : j < 64) : (s.restartStats k).slot k j = ⟨0, 0, 0⟩ := by
  rw [State.restartStats_eq, State.setReg_slot, State.count_slot, State.countersCleared, State.resetRegs_slot, State.setMacs_slot,
    State.resetRegs_slot, s.slot_clearSlots k hj]

theorem State.q_restartStats (s : State) (k j : Nat) : (s.restartStats k).q j = s.q j := by
  rw [State.restartStats_eq, State.setReg_q, State.count_q, State.countersCleared, State.resetRegs_q, State.setMacs_q, State.resetRegs_q,
    State.q_clearSlots]

theorem State.xc_restartStats (s : State) (k j : Nat) : (s.restartStats k).xc j = s.xc j := by
  rw [State.restartStats_eq, State.setReg_xc, State.count_xc, State.countersCleared, State.resetRegs_xc, State.setMacs_xc,
    State.resetRegs_xc, State.xc_clearSlots]

theorem regReset_mxeCntMacs : ∀ e < 32, regReset (R.mxeCntMacs e) = 0 := by decide +kernel

theorem regReset_vecDvuCntRows : ∀ e < 32, regReset (R.vecDvuCntRows e) = 0 := by decide +kernel

end Sys2Proof.Machine
end

section
/-! PROOFS. SEAL_LATCH (R133, R135, R136, Table 5-3 steps 3 to 8): the boundary of a step that hands nothing over, and the one that meets an
open micro-batch. -/

namespace Sys2Proof.Machine

theorem exec_sealLatch (k : Fin 16) (s : State) : exec (.sealLatch k) s = .next (s.sealLatch k (fun u step l => u.handoff k step l)) := rfl

/-! ### the hand-off of state NONE (R198) -/

/-- The exchange of a hand-off of `step` that takes no record, where none is open or queued: it has ended at once, in state NONE. -/
def State.handedNone (s : State) (k step : Nat) : State :=
  let a := R.rdxSXstat k
  (((s.setFld a F.rdxSXstatSkip 0).setFld a F.rdxSXstatSuperseded 0).setFld a F.rdxSXstatState 0).setXc k
    { (s.xc k).endStep step with agreed := none }

theorem State.handoff_none {s : State} {k : Nat} (hc : (s.xc k).current = none) (hq : (s.xc k).queued = none) (step : Nat) :
    s.handoff k step none = s.handedNone k step := by
  have hcur : ((s.handedNone k step).xc k).current = none := by simp [State.handedNone, State.xc_setXc, Xch.endStep, hc]
  have hque : ((s.handedNone k step).xc k).queued = none := by simp [State.handedNone, State.xc_setXc, Xch.endStep, hq]
  have hopen : s.handoff k step none = (s.handedNone k step).nextXch k 2 := by
    simp only [State.handoff, hc, Option.isNone_none, if_true]
    rfl
  rw [hopen, State.nextXch, State.drainSeals, hcur, hcur, hque]

theorem State.reg_setXc_other (s : State) {a k : Nat} (h : a ≠ R.rdxSXstat k) (c : Xch) : (s.setXc k c).reg a = s.reg a := by
  rw [State.setXc, State.reg_setFld_other _ h]
  rfl

theorem State.state_setXc (s : State) (k : Nat) (c : Xch) :
    (s.setXc k c).fld (R.rdxSXstat k) F.rdxSXstatState = s.fld (R.rdxSXstat k) F.rdxSXstatState := by
  rw [State.setXc, State.fld_setFld_fld _ _ _ _ _ (by decide)]
  rfl

theorem State.reg_handedNone_other (s : State) {a k : Nat} (h : a ≠ R.rdxSXstat k) (step : Nat) :
    (s.handedNone k step).reg a = s.reg a := by
  rw [State.handedNone, State.reg_setXc_other _ h, State.reg_setFld_other _ h, State.reg_setFld_other _ h, State.reg_setFld_other _ h]

theorem State.fld_handedNone_state (s : State) (k step : Nat) : (s.handedNone k step).fld (R.rdxSXstat k) F.rdxSXstatState = 0 := by
  rw [State.handedNone, State.state_setXc]
  exact State.fld_setFld_same _ _ _ _ (by decide)

theorem State.handedNone_dry {z s : State} (k step : Nat) (h : Dry z s) : Dry z (s.handedNone k step) :=
  State.setXc_dry k _ (State.setFld_dry _ _ _ (State.setFld_dry _ _ _ (State.setFld_dry _ _ _ h)))

theorem State.handedNone_apart {z s : State} (k step : Nat) (h : Apart z s) : Apart z (s.handedNone k step) :=
  State.setXc_apart k _ (State.setFld_apart _ _ _ (R.rdxSXstat_far k) (State.setFld_apart _ _ _ (R.rdxSXstat_far k)
    (State.setFld_apart _ _ _ (R.rdxSXstat_far k) h)))

/-! ### the two ends of SEAL_LATCH -/

/-- The stake that SEAL no longer holds. -/
def State.unsealed (s : State) (k : Nat) : State :=
  (s.setQ k { s.q k with sealing := none }).setFld (R.psqStatus k) F.psqStatusHoldSeal 0

/-- The state in which the step has been sealed, before stream B moves on. -/
def State.stepSealed (s : State) (k : Nat) : State :=
  (((s.unsealed k).latchStats k).restartStats k).handedNone k (s.fld (R.psqStep k) (0, 32))

theorem State.sealLatch_idle {s : State} {k : Nat} (h : (s.q k).sealing = none ∨ (s.q k).outst ≠ [])
    (handoff : State → Nat → Option (List (Nat × Slot)) → State) : s.sealLatch k handoff = s := by
  unfold State.sealLatch
  split
  · rfl
  · next hs =>
    have hne : (s.q k).outst ≠ [] := h.resolve_left (by simp [hs])
    exact if_pos (by simpa using hne)

section
variable {s : State} {k w i m : Nat} (hs : (s.q k).sealing = some (w, i, m)) (hout : (s.q k).outst = [])
include hs hout

theorem State.sealLatch_openMb (hmb : s.fld (R.psqStatus k) F.psqStatusOpenMb ≠ 0)
    (handoff : State → Nat → Option (List (Nat × Slot)) → State) :
    s.sealLatch k handoff = ((s.unsealed k).giveTokens k m).raiseFault k 1 i 0x08 0xFF false := by
  unfold State.sealLatch
  rw [hs]
  dsimp only
  rw [if_neg (by simp [hout]), if_pos hmb]
  rfl

theorem State.sealLatch_noMb (hmb : s.fld (R.psqStatus k) F.psqStatusOpenMb = 0)
    (hown : w.testBit 45 = false ∨ (s.stake k).group = 0xFF) (hc : (s.xc k).current = none) (hq : (s.xc k).queued = none) :
    s.sealLatch k (fun u step l => u.handoff k step l) =
      (((s.stepSealed k).advance k 1 (s.pcOf k 1 + 1)).postSet k 1 i (postOf w)).stopNow k := by
  have hnone : (bit w 45 && decide ((s.stake k).group ≠ 0xFF)) = false := by
    unfold bit
    rcases hown with h | h <;> simp [h]
  have hxc : (((s.unsealed k).latchStats k).restartStats k).xc k = s.xc k := by
    rw [State.xc_restartStats, (State.latchStats_from _ k).xc, State.unsealed, State.setFld_xc, State.setQ_xc]
  unfold State.stepSealed
  rw [← State.handoff_none (hxc ▸ hc) (hxc ▸ hq)]
  unfold State.sealLatch
  rw [hs]
  dsimp only
  rw [if_neg (by simp [hout]), if_neg (by simp [hmb]), if_neg (ne_true_of_eq_false hnone)]
  rfl

end

/-! ### what the boundary leaves in the registers -/

theorem State.reg_unsealed_other (s : State) {a k : Nat} (h : a ≠ R.psqStatus k) : (s.unsealed k).reg a = s.reg a := by
  rw [State.unsealed, State.reg_setFld_other _ h, State.setQ_reg]

/-- The hold alone changes in PSQ_STATUS. -/
theorem State.fld_unsealed (s : State) (k : Nat) {f : Fld}
    (h : f.1 + f.2 ≤ F.psqStatusHoldSeal.1 ∨ F.psqStatusHoldSeal.1 + F.psqStatusHoldSeal.2 ≤ f.1) :
    (s.unsealed k).fld (R.psqStatus k) f = s.fld (R.psqStatus k) f := by
  rw [State.unsealed, State.fld_setFld_fld _ _ _ _ _ h, State.setQ_fld]

theorem State.flag_unsealed_holdSeal (s : State) (k : Nat) : (s.unsealed k).flag (R.psqStatus k) F.psqStatusHoldSeal = false := by
  rw [State.flag, State.unsealed, State.fld_setFld_same _ _ _ _ (by decide)]
  rfl

theorem State.q_unsealed (s : State) (k : Nat) : (s.unsealed k).q k = { s.q k with sealing := none } := by
  rw [State.unsealed, State.setFld_q, State.q_setQ_same]

theorem State.slot_unsealed (s : State) (k j i : Nat) : (s.unsealed k).slot j i = s.slot j i := by
  rw [State.unsealed, State.setFld_slot, State.setQ_slot]

theorem State.stake_unsealed (s : State) (k j : Nat) : (s.unsealed k).stake j = s.stake j := by
  rw [State.unsealed, State.setFld_stake, State.setQ_stake]

/-- A register of a pass sequencer (R257). -/
def PsqReg (a : Nat) : Prop := R.psqId 0 ≤ a ∧ a < R.quyId 0

theorem PsqReg.not_unitReg {a : Nat} (h : PsqReg a) : ¬ UnitReg a := by
  unfold PsqReg at h
  unfold UnitReg
  omega

section
variable (s : State) {k : Nat} (hk : k < 16)
include hk

/-- Of the pass sequencers' registers, the boundary writes PSQ_STATUS, PSQ_STEP and PSQ_SEED. -/
theorem State.reg_stepSealed_psq {a : Nat} (ha : PsqReg a) (hstep : a ≠ R.psqStep k) (hseed : a ≠ R.psqSeed k) :
    (s.stepSealed k).reg a = (s.unsealed k).reg a := by
  have hlow : a < R.staStep 0 := by unfold PsqReg R.quyId at ha; unfold R.staStep; omega
  rw [State.stepSealed, State.reg_handedNone_other _ (by unfold PsqReg R.psqId at ha; unfold R.rdxSXstat; omega),
    State.reg_restartStats_other _ hk ha.not_unitReg hstep hseed, (State.latchStats_from _ k).regs a hlow]

/-- What STA latched stands. -/
theorem State.reg_stepSealed_sta {a : Nat} (ha : R.staStep 0 ≤ a) :
    (s.stepSealed k).reg a = ((s.unsealed k).latchStats k).reg a := by
  unfold R.staStep at ha
  rw [State.stepSealed, State.reg_handedNone_other _ (by unfold R.rdxSXstat; omega), State.reg_restartStats_other _ hk
    (by unfold UnitReg R.mxeId R.psqId R.quyId; omega) (by unfold R.psqStep; omega) (by unfold R.psqSeed; omega)]

theorem State.reg_stepSealed_psqStep : (s.stepSealed k).reg (R.psqStep k) = s.reg (R.psqStep k) + 1 := by
  rw [State.stepSealed, State.reg_handedNone_other _ (by unfold R.psqStep R.rdxSXstat; omega), State.reg_restartStats_psqStep _ hk,
    (State.latchStats_from _ k).regs _ (by unfold R.psqStep R.staStep; omega),
    s.reg_unsealed_other (by unfold R.psqStep R.psqStatus; omega)]

theorem State.reg_stepSealed_psqSeed : (s.stepSealed k).reg (R.psqSeed k) = s.reg (R.psqSeedNext k) := by
  rw [State.stepSealed, State.reg_handedNone_other _ (by unfold R.psqSeed R.rdxSXstat; omega), State.reg_restartStats_psqSeed _ hk,
    (State.latchStats_from _ k).regs _ (by unfold R.psqSeedNext R.staStep; omega),
    s.reg_unsealed_other (by unfold R.psqSeedNext R.psqStatus; omega)]

theorem State.reg_stepSealed_staStep : (s.stepSealed k).reg (R.staStep k) = s.reg (R.psqStep k) := by
  rw [s.reg_stepSealed_sta hk (by unfold R.staStep; omega), State.reg_latchStats_staStep,
    s.reg_unsealed_other (by unfold R.psqStep R.psqStatus; omega)]

theorem State.stepSealed_slotLatched {j : Nat} (hj : j < 64) : SlotLatched s (s.stepSealed k) k j := by
  have h := ((s.unsealed k).latchStats_slot hk hj).congr (s.reg_stepSealed_sta hk (by unfold R.staStep R.staMaxabs; omega))
    (s.reg_stepSealed_sta hk (by unfold R.staStep R.staCount; omega))
  rwa [SlotLatched, State.slot_unsealed] at h

section
variable {e : Nat} (he : e < 32) (hown : (s.stake k).eng.testBit e = true)
include he hown

theorem State.stepSealed_engLatched : EngLatched s (s.stepSealed k) (s.reg (R.psqStep k)) e := by
  obtain ⟨hstep, hcount⟩ := ((s.unsealed k).latchStats_engine hk he (by rwa [State.stake_unsealed])).congr (u := s.stepSealed k)
    (fun i _ => s.reg_stepSealed_sta hk (by unfold R.staStep R.staEng; omega))
  refine ⟨hstep.trans (s.reg_unsealed_other (by unfold R.psqStep R.psqStatus; omega)), fun i c hc => ?_⟩
  have hunit := engCounters_unitReg he (List.mem_of_getElem? hc)
  exact (hcount i c hc).trans (s.reg_unsealed_other (by unfold UnitReg R.psqId R.quyId at hunit; unfold R.psqStatus; omega))

/-- The counters of the stake's engines restart. -/
theorem State.reg_stepSealed_engCounter {c : Nat} (hc : c ∈ engCounters e) : (s.stepSealed k).reg c = regReset c := by
  have hunit := engCounters_unitReg he hc
  have hstake : ((s.unsealed k).latchStats k).stake k = s.stake k := by rw [(State.latchStats_from _ k).stake, State.stake_unsealed]
  rw [State.stepSealed, State.reg_handedNone_other _ (by unfold UnitReg R.mxeId R.quyId at hunit; unfold R.rdxSXstat; omega),
    State.reg_restartStats_engCounter _ hk he (hstake ▸ hown) hc]

end

end

theorem State.q_stepSealed (s : State) (k : Nat) : (s.stepSealed k).q k = { s.q k with sealing := none } := by
  rw [State.stepSealed, State.handedNone, State.setXc_q, State.setFld_q, State.setFld_q, State.setFld_q, State.q_restartStats,
    (State.latchStats_from _ k).q, State.q_unsealed]

theorem State.slot_stepSealed (s : State) (k : Nat) {j : Nat} (hj : j < 64) : (s.stepSealed k).slot k j = ⟨0, 0, 0⟩ := by
  rw [State.stepSealed, State.handedNone, State.setXc_slot, State.setFld_slot, State.setFld_slot, State.setFld_slot,
    State.slot_restartStats _ k hj]

/-! ### the posts of SEAL, and the streams that move on -/

theorem State.stopNow_of_no_cause {s : State} {k : Nat} (h : s.stopCause k = false) : s.stopNow k = s := by simp [State.stopNow, h]

theorem State.reg_giveTokens_other (s : State) {a k : Nat} (h : ∀ i, i < 16 → a ≠ R.psqToken k i) (mask : Nat) :
    (s.giveTokens k mask).reg a = s.reg a :=
  State.reg_forAll _ (fun u c hc => u.reg_setFld_other (h _ (by have := lt_of_mem_onesOf hc; omega)) _ _) s

/-- Posts that fit are given, and raise no fault (R125). -/
theorem State.postSet_of_fit {s : State} {k v : Nat} (h : ∀ c, c < 64 → (s.tset k v).testBit c = true → s.tok k c < 65535) (x i : Nat) :
    s.postSet k x i v = s.giveTokens k (s.tset k v) := by
  have hover : s.overflows k (s.tset k v) = false := by
    rw [State.overflows, List.any_eq_false]
    intro c hc
    have := h c (lt_of_mem_onesOf hc) (List.mem_filter.mp hc).2
    simp
    omega
  rw [State.postSet, if_neg (by simp [hover])]

end Sys2Proof.Machine
end

section
/-! PROOFS. SEAL and SEAL_LATCH, the statement (R133-R136, Table 5-3). -/

namespace Sys2Proof.Machine

/-! ### the boundary as SEAL_LATCH leaves it -/

/-- The step has been sealed, stream B is past its SEAL, and the posts of SEAL are given. -/
def State.stepClosed (s : State) (k w : Nat) : State :=
  ((s.stepSealed k).advance k 1 (s.pcOf k 1 + 1)).giveTokens k (s.tset k (postOf w))

/-- The registers that stream B moves on with, and those of the tokens. -/
def MovedReg (k a : Nat) : Prop :=
  a = R.psqPc k 1 ∨ a = R.psqIndex k 1 ∨ a = R.psqAhead k 1 ∨ ∃ i, i < 16 ∧ a = R.psqToken k i

theorem State.reg_stepClosed_other (s : State) {a k : Nat} (h : ¬ MovedReg k a) (w : Nat) :
    (s.stepClosed k w).reg a = (s.stepSealed k).reg a := by
  simp only [MovedReg, not_or, not_exists, not_and] at h
  obtain ⟨hpc, hindex, hahead, htok⟩ := h
  rw [State.stepClosed, State.reg_giveTokens_other _ htok, State.reg_advance_other _ hpc hindex hahead]

theorem MovedReg.psqReg {k a : Nat} (hk : k < 16) (h : MovedReg k a) : PsqReg a := by
  unfold PsqReg R.psqId R.quyId
  unfold MovedReg R.psqPc R.psqIndex R.psqAhead R.psqToken at h
  obtain h | h | h | ⟨i, hi, h⟩ := h <;> omega

theorem not_movedReg_psqStatus (k : Nat) : ¬ MovedReg k (R.psqStatus k) := by
  unfold MovedReg R.psqPc R.psqIndex R.psqAhead R.psqToken R.psqStatus
  omega

theorem State.advance_sealing (s : State) (k x pc : Nat) : ((s.advance k x pc).q k).sealing = (s.q k).sealing := by
  have hstep : ∀ (u : State) pc, ((u.stepIndex k x pc).q k).sealing = (u.q k).sealing := by
    intro u pc
    unfold State.stepIndex
    dsimp only
    rw [State.q_setQ_same, State.setReg_q, State.setReg_q, State.setFld_q]
  refine State.skipDone_rec (P := fun u => (u.q k).sealing = (s.q k).sealing) (fun u hu => ?_)
    (fun u pc hu => (hstep u pc).trans hu) _ (hstep s pc)
  rwa [State.fetchLine, State.q_setQ_same]

theorem State.slot_advance (s : State) (k x pc j i : Nat) : (s.advance k x pc).slot j i = s.slot j i := by
  have hstep : ∀ (u : State) pc, (u.stepIndex k x pc).slot j i = u.slot j i := by
    intro u pc
    unfold State.stepIndex
    dsimp only
    rw [State.setQ_slot, State.setReg_slot, State.setReg_slot, State.setFld_slot]
  exact State.skipDone_rec (P := fun u => u.slot j i = s.slot j i) (fun u hu => by rwa [State.fetchLine, State.setQ_slot])
    (fun u pc hu => (hstep u pc).trans hu) _ (hstep s pc)

theorem State.slot_giveTokens (s : State) (k mask j i : Nat) : (s.giveTokens k mask).slot j i = s.slot j i :=
  List.foldlRecOn (motive := fun u : State => u.slot j i = s.slot j i) _ _ rfl
    (fun u hu c _ => by rwa [State.setTok, State.setFld_slot])

section
variable (s : State) {k : Nat} (hk : k < 16)
include hk

/-- Beside the boundary's own registers, those of the pass sequencers stand. -/
theorem State.reg_stepSealed_same {a : Nat} (ha : PsqReg a) (hst : a ≠ R.psqStatus k) (hstep : a ≠ R.psqStep k) (hseed : a ≠ R.psqSeed k) :
    (s.stepSealed k).reg a = s.reg a :=
  (s.reg_stepSealed_psq hk ha hstep hseed).trans (s.reg_unsealed_other hst)

theorem State.tok_stepSealed {c : Nat} (hc : c < 64) : (s.stepSealed k).tok k c = s.tok k c :=
  State.tok_congr (fun i _ => s.reg_stepSealed_same hk (by unfold PsqReg R.psqId R.quyId R.psqToken; omega)
    (by unfold R.psqToken R.psqStatus; omega) (by unfold R.psqToken R.psqStep; omega) (by unfold R.psqToken R.psqSeed; omega)) hc

theorem State.fld_stepClosed_status (w : Nat) {f : Fld}
    (h : f.1 + f.2 ≤ F.psqStatusHoldSeal.1 ∨ F.psqStatusHoldSeal.1 + F.psqStatusHoldSeal.2 ≤ f.1) :
    (s.stepClosed k w).fld (R.psqStatus k) f = s.fld (R.psqStatus k) f := by
  rw [← s.fld_unsealed k h, State.fld, s.reg_stepClosed_other (not_movedReg_psqStatus k) w, s.reg_stepSealed_psq hk
    (by unfold PsqReg R.psqId R.quyId R.psqStatus; omega) (by unfold R.psqStatus R.psqStep; omega)
    (by unfold R.psqStatus R.psqSeed; omega), State.fld]

theorem State.flag_stepClosed_holdSeal (w : Nat) : (s.stepClosed k w).flag (R.psqStatus k) F.psqStatusHoldSeal = false := by
  rw [← s.flag_unsealed_holdSeal k]
  exact State.flag_congr ((s.reg_stepClosed_other (not_movedReg_psqStatus k) w).trans (s.reg_stepSealed_psq hk
    (by unfold PsqReg R.psqId R.quyId R.psqStatus; omega) (by unfold R.psqStatus R.psqStep; omega)
    (by unfold R.psqStatus R.psqSeed; omega))) _

theorem State.stopCause_stepClosed (w : Nat) : (s.stepClosed k w).stopCause k = s.stopCause k := by
  simp only [State.stopCause, State.flag, s.fld_stepClosed_status hk w (f := F.psqStatusStopPreempt) (by decide),
    s.fld_stepClosed_status hk w (f := F.psqStatusStopFault) (by decide),
    s.fld_stepClosed_status hk w (f := F.psqStatusStopQuiesce) (by decide)]

/-- R119, R143: stream B is past its SEAL. -/
theorem State.stepClosed_advanced (w : Nat) : Advanced s (s.stepClosed k w) k 1 (s.pcOf k 1 + 1) := by
  have hindex : (s.stepSealed k).reg (R.psqIndex k 1) = s.reg (R.psqIndex k 1) :=
    s.reg_stepSealed_same hk (by unfold PsqReg R.psqId R.quyId R.psqIndex; omega) (by unfold R.psqIndex R.psqStatus; omega)
      (by unfold R.psqIndex R.psqStep; omega) (by unfold R.psqIndex R.psqSeed; omega)
  have hahead : (s.stepSealed k).reg (R.psqAhead k 1) = s.reg (R.psqAhead k 1) :=
    s.reg_stepSealed_same hk (by unfold PsqReg R.psqId R.quyId R.psqAhead; omega) (by unfold R.psqAhead R.psqStatus; omega)
      (by unfold R.psqAhead R.psqStep; omega) (by unfold R.psqAhead R.psqSeed; omega)
  intro h
  obtain ⟨hi, hp⟩ := (s.stepSealed k).advance_advanced k 1 (s.pcOf k 1 + 1) (hahead ▸ h)
  rw [State.stepClosed]
  constructor
  · rw [State.indexOf, State.reg_giveTokens_other _ (fun i _ => by unfold R.psqIndex R.psqToken; omega), ← State.indexOf, hi,
      State.indexOf, hindex, State.indexOf]
  · rwa [State.pcOf, State.fld, State.reg_giveTokens_other _ (fun i _ => by unfold R.psqPc R.psqToken; omega), ← State.fld, ← State.pcOf]

/-- The posts of SEAL meet the counters as the step found them. -/
theorem State.tok_advance_stepSealed (pc : Nat) {c : Nat} (hc : c < 64) : ((s.stepSealed k).advance k 1 pc).tok k c = s.tok k c :=
  (State.tok_congr (fun i _ => State.reg_advance_other _ (by unfold R.psqToken R.psqPc; omega) (by unfold R.psqToken R.psqIndex; omega)
    (by unfold R.psqToken R.psqAhead; omega) _) hc).trans (s.tok_stepSealed hk hc)

variable {w : Nat} (hfit : PostsFit s k w)
include hfit

theorem State.stepClosed_posted : Posted s (s.stepClosed k w) k w := by
  intro c hc
  have htok := s.tok_advance_stepSealed hk (s.pcOf k 1 + 1) hc
  rw [State.stepClosed, State.tok_giveTokens _ k _ hc (fun hb => htok ▸ hfit c hb), htok]

theorem State.postSet_stepSealed (i : Nat) :
    ((s.stepSealed k).advance k 1 (s.pcOf k 1 + 1)).postSet k 1 i (postOf w) = s.stepClosed k w := by
  have hv : postOf w < 256 := Nat.mod_lt _ (by decide)
  have hset : ((s.stepSealed k).advance k 1 (s.pcOf k 1 + 1)).tset k (postOf w) = s.tset k (postOf w) := by
    unfold State.tset
    rw [State.reg_advance_other _ (by unfold R.psqTset R.psqPc; omega) (by unfold R.psqTset R.psqIndex; omega)
      (by unfold R.psqTset R.psqAhead; omega), s.reg_stepSealed_same hk (by unfold PsqReg R.psqId R.quyId R.psqTset; omega)
      (by unfold R.psqTset R.psqStatus; omega) (by unfold R.psqTset R.psqStep; omega) (by unfold R.psqTset R.psqSeed; omega)]
  rw [State.postSet_of_fit, hset, State.stepClosed]
  intro c hc hb
  rw [hset] at hb
  rw [s.tok_advance_stepSealed hk _ hc]
  exact hfit c hb

end

theorem State.stepClosed_dry (s : State) (k w : Nat) : Dry s (s.stepClosed k w) :=
  State.giveTokens_dry k _ (State.advance_dry k 1 _ (State.handedNone_dry k _ (State.restartStats_dry k (State.latchStats_dry k
    (State.setFld_dry _ _ _ (State.setQ_dry k _ (.refl s)))))))

theorem State.stepClosed_apart (s : State) (k w : Nat) : Apart s (s.stepClosed k w) :=
  State.giveTokens_apart k _ (State.advance_apart k 1 _ (State.handedNone_apart k _ (State.restartStats_apart k (State.latchStats_apart k
    (State.setFld_apart _ _ _ (R.psqStatus_far k) (State.setQ_apart k _ (.refl s)))))))

theorem State.sealing_stepClosed (s : State) (k w : Nat) : ((s.stepClosed k w).q k).sealing = none := by
  rw [State.stepClosed, State.q_giveTokens, State.advance_sealing, State.q_stepSealed]

theorem State.slot_stepClosed (s : State) (k w : Nat) {j : Nat} (hj : j < 64) : (s.stepClosed k w).slot k j = ⟨0, 0, 0⟩ := by
  rw [State.stepClosed, State.slot_giveTokens, State.slot_advance, s.slot_stepSealed k hj]

/-! ### a stop with nothing outstanding -/

theorem State.reg_syncUnits_psq (s : State) {a : Nat} (ha : PsqReg a) (k : Nat) : (s.syncUnits k).reg a = s.reg a := by
  unfold PsqReg R.psqId at ha
  exact State.reg_forAll _ (fun u e he => by
    have := lt_of_mem_onesOf he
    rw [State.reg_syncDvu_other _ (by unfold R.vecDvuStatus; omega), State.reg_syncMxe_other _ (by unfold R.mxeStatus; omega)]) s

/-- With nothing outstanding, withdrawal writes PSQ_xINFLIGHT alone of the pass sequencers' registers. -/
theorem State.reg_withdraw_idle {s : State} {a k : Nat} (hout : (s.q k).outst = []) (ha : PsqReg a)
    (hin : ∀ x, x < 3 → a ≠ R.psqInflight k x) : (s.withdraw k).reg a = s.reg a := by
  have hroll : ∀ (u : State) x, u.rollback k [] x = u := fun _ _ => rfl
  unfold State.withdraw State.withdrawSome
  simp only [hout, List.filter_nil, List.foldl_nil, List.foldl_cons, hroll]
  rw [State.setQ_reg, State.reg_syncUnits_psq _ ha, State.reg_setOutst_other _ hin]

theorem State.reg_beginStop_idle {s : State} {a k : Nat} (hout : (s.q k).outst = []) (ha : PsqReg a)
    (hin : ∀ x, x < 3 → a ≠ R.psqInflight k x) (hst : a ≠ R.psqStatus k) (cause : Fld) : (s.beginStop k cause).reg a = s.reg a := by
  unfold State.beginStop State.stopNow State.setPst
  split
  · rw [State.reg_setFld_other _ hst, State.reg_withdraw_idle (by rwa [State.setFld_q]) ha hin, State.reg_setFld_other _ hst]
  · exact s.reg_setFld_other hst _ _

theorem State.q_raiseEvent (s : State) (a cfg : Nat) (f : Fld) (k : Nat) : (s.raiseEvent a cfg f).q k = s.q k := by
  unfold State.raiseEvent
  dsimp only
  split
  · rfl
  · split <;> simp

/-- The stop that a fault begins writes no more of these registers. -/
theorem State.reg_faultStop_idle {s : State} {a k : Nat} (hk : k < 16) (hout : (s.q k).outst = []) (ha : PsqReg a)
    (hin : ∀ x, x < 3 → a ≠ R.psqInflight k x) (hst : a ≠ R.psqStatus k) : (s.faultStop k).reg a = s.reg a := by
  have hevt : a ≠ R.hifSEvt k := by unfold PsqReg R.psqId at ha; unfold R.hifSEvt; omega
  unfold State.faultStop
  split
  · exact State.reg_beginStop_idle hout ha hin hst _
  · have hout' : ((s.stakeEvent k F.hifSEvtFaultStop).q k).outst = [] := by rwa [State.stakeEvent, State.q_raiseEvent]
    exact (State.reg_beginStop_idle hout' ha hin hst _).trans (s.reg_raiseEvent_other hevt _ _)

/-- That stop leaves the hold of SEAL as it is. -/
theorem State.holdSeal_faultStop (s : State) (k : Nat) :
    (s.faultStop k).flag (R.psqStatus k) F.psqStatusHoldSeal = s.flag (R.psqStatus k) F.psqStatusHoldSeal := by
  have hstop : ∀ u : State, (u.beginStop k F.psqStatusStopFault).flag (R.psqStatus k) F.psqStatusHoldSeal =
      u.flag (R.psqStatus k) F.psqStatusHoldSeal := fun u => by
    rw [State.flag, State.beginStop, State.psqStatus_stopNow _ _ (by decide), State.fld_setFld_fld _ _ _ _ _ (by decide), State.flag]
  rw [State.faultStop, hstop]
  split
  · rfl
  · exact State.flag_congr (s.psqStatus_stakeEvent k k _) _

/-- The fault record of a stream written, if the fault is the stream's first. -/
def State.noteFrec (s : State) (k x index code unit : Nat) (after : Bool) : State :=
  if s.flag (R.psqFrec0 k x) F.psqFrec0Valid then s else s.writeFrec k x index code unit after

theorem State.raiseFault_eq (s : State) (k x index code unit : Nat) (after : Bool) :
    s.raiseFault k x index code unit after = (s.noteFrec k x index code unit after).faultStop k := rfl

theorem State.reg_noteFrec_other (s : State) {a k x : Nat} (h0 : a ≠ R.psqFrec0 k x) (h1 : a ≠ R.psqFrec1 k x) (index code unit : Nat)
    (after : Bool) : (s.noteFrec k x index code unit after).reg a = s.reg a := by
  unfold State.noteFrec
  split
  · rfl
  · rw [State.writeFrec, State.reg_setReg_other _ _ _ _ h1, State.reg_setReg_other _ _ _ _ h0]

theorem State.q_noteFrec (s : State) (k x index code unit : Nat) (after : Bool) :
    (s.noteFrec k x index code unit after).q k = s.q k := by
  unfold State.noteFrec
  split
  · rfl
  · rw [State.writeFrec, State.setReg_q, State.setReg_q]

/-- A fault of a stake with nothing outstanding leaves the registers of the pass sequencers but its record, PSQ_STATUS and
PSQ_xINFLIGHT. -/
theorem State.reg_raiseFault_idle {s : State} {a k x : Nat} (hk : k < 16) (hout : (s.q k).outst = []) (ha : PsqReg a)
    (hin : ∀ x, x < 3 → a ≠ R.psqInflight k x) (hst : a ≠ R.psqStatus k) (h0 : a ≠ R.psqFrec0 k x) (h1 : a ≠ R.psqFrec1 k x)
    (index code unit : Nat) (after : Bool) : (s.raiseFault k x index code unit after).reg a = s.reg a := by
  rw [State.raiseFault_eq, State.reg_faultStop_idle hk (by rwa [State.q_noteFrec]) ha hin hst, State.reg_noteFrec_other _ h0 h1]

/-- A fault leaves the hold of SEAL as it is. -/
theorem State.holdSeal_raiseFault (s : State) (k : Nat) {x : Nat} (hx : x < 3) (index code unit : Nat) (after : Bool) :
    (s.raiseFault k x index code unit after).flag (R.psqStatus k) F.psqStatusHoldSeal = s.flag (R.psqStatus k) F.psqStatusHoldSeal := by
  rw [State.raiseFault_eq, State.holdSeal_faultStop]
  exact State.flag_congr (s.reg_noteFrec_other ((FaultReg.frec0 k hx).ne_psqStatus k).symm
    ((FaultReg.frec1 k hx).ne_psqStatus k).symm _ _ _ _) _

/-- The state in which a SEAL that met an open micro-batch raises its fault: no hold, and its waits returned. -/
def State.waitsReturned (s : State) (k m : Nat) : State := (s.unsealed k).giveTokens k m

theorem State.tok_waitsReturned (s : State) (k m : Nat) {c : Nat} (hc : c < 64) :
    (s.waitsReturned k m).tok k c = if m.testBit c then min 65535 (s.tok k c + 1) else s.tok k c := by
  have hmem : c ∈ onesOf 64 m ↔ m.testBit c = true := by simp [onesOf, hc]
  have hnd : (onesOf 64 m).Nodup := List.nodup_range.filter _
  have htok : (s.unsealed k).tok k c = s.tok k c :=
    State.tok_congr (fun i _ => s.reg_unsealed_other (by unfold R.psqToken R.psqStatus; omega)) hc
  rw [State.waitsReturned, State.giveTokens, State.tok_forAll_setTok k c (fun n => min 65535 (n + 1)) hnd, if_congr hmem rfl rfl, htok]
  split
  · exact Nat.mod_eq_of_lt (by omega)
  · rfl

theorem State.reg_waitsReturned (s : State) {a k : Nat} (hst : a ≠ R.psqStatus k) (htok : ∀ i, i < 16 → a ≠ R.psqToken k i) (m : Nat) :
    (s.waitsReturned k m).reg a = s.reg a :=
  (State.reg_giveTokens_other _ htok m).trans (s.reg_unsealed_other hst)

theorem State.outst_waitsReturned (s : State) (k m : Nat) : ((s.waitsReturned k m).q k).outst = (s.q k).outst := by
  rw [State.waitsReturned, State.q_giveTokens, State.q_unsealed]

/-! ### the answers of SEAL_LATCH -/

section
variable {s : State} {k : Fin 16} {w i m : Nat} (hs : (s.q k).sealing = some (w, i, m)) (hout : (s.q k).outst = [])
include hs hout

/-- R133, R135: SEAL_LATCH closes the step of a stake that hands nothing over. -/
theorem sealLatch_closes (hmb : s.fld (R.psqStatus k) F.psqStatusOpenMb = 0) (hstop : s.stopCause k = false)
    (hown : w.testBit 45 = false ∨ (s.stake k).group = 0xFF) (hc : (s.xc k).current = none) (hq : (s.xc k).queued = none)
    (hfit : PostsFit s k w) : exec (.sealLatch k) s = .next (s.stepClosed k w) := by
  have hcause := (s.stopCause_stepClosed k.isLt w).trans hstop
  rw [exec_sealLatch, State.sealLatch_noMb hs hout hmb hown hc hq, s.postSet_stepSealed k.isLt hfit, State.stopNow_of_no_cause hcause]

/-- R133, R136: SEAL_LATCH with a micro-batch open. -/
theorem sealLatch_openMb_answers (hmb : s.fld (R.psqStatus k) F.psqStatusOpenMb ≠ 0) : Answers (exec (.sealLatch k) s) (fun t =>
    Faulted s t k 1 0x08 i ∧ t.flag (R.psqStatus k) F.psqStatusHoldSeal = false ∧ t.reg (R.psqStep k) = s.reg (R.psqStep k) ∧
    (∀ c, c < 64 → t.tok k c = if m.testBit c then min 65535 (s.tok k c + 1) else s.tok k c) ∧ Apart s t) := by
  have hk := k.isLt
  have hx : 1 < 3 := by decide
  have hout' : ((s.waitsReturned k m).q k).outst = [] := (s.outst_waitsReturned k m).trans hout
  have hfrec : (s.waitsReturned k m).reg (R.psqFrec0 k 1) = s.reg (R.psqFrec0 k 1) :=
    s.reg_waitsReturned ((FaultReg.frec0 k hx).ne_psqStatus k) (fun _ h => (FaultReg.frec0 k hx).ne_psqToken k h) m
  refine ⟨_, (exec_sealLatch k s).trans (congrArg _ (State.sealLatch_openMb hs hout hmb _)), ?_, ?_, ?_, fun c hc => ?_, ?_⟩
  · exact (State.raiseFault_faulted _ hk hx (by decide) i 0xFF false).of_frec0 hfrec
  · rw [State.holdSeal_raiseFault _ _ hx, ← s.flag_unsealed_holdSeal k]
    exact State.flag_congr (State.psqStatus_giveTokens _ _ _) _
  · exact (State.reg_raiseFault_idle hk hout' (by unfold PsqReg R.psqId R.quyId R.psqStep; omega)
      (fun x _ => by unfold R.psqStep R.psqInflight; omega) (by unfold R.psqStep R.psqStatus; omega) (by unfold R.psqStep R.psqFrec0; omega)
      (by unfold R.psqStep R.psqFrec1; omega) _ _ _ _).trans
      (s.reg_waitsReturned (by unfold R.psqStep R.psqStatus; omega) (fun _ _ => by unfold R.psqStep R.psqToken; omega) m)
  · rw [← s.tok_waitsReturned k m hc]
    exact State.tok_congr (fun j _ => State.reg_raiseFault_idle hk hout' (by unfold PsqReg R.psqId R.quyId R.psqToken; omega)
      (fun x _ => by unfold R.psqToken R.psqInflight; omega) (by unfold R.psqToken R.psqStatus; omega)
      (by unfold R.psqToken R.psqFrec0; omega) (by unfold R.psqToken R.psqFrec1; omega) _ _ _ _) hc
  · exact State.raiseFault_apart _ _ _ _ _ _ (State.giveTokens_apart _ _ (State.setFld_apart _ _ _ (R.psqStatus_far _)
      (State.setQ_apart _ _ (.refl s))))

end

/-! ### the closed step -/

section
variable (s : State) {k : Nat} (hk : k < 16) (w : Nat)
include hk

/-- Outside the pass sequencers the closed step is the sealed one. -/
theorem State.reg_stepClosed_of_not_psq {a : Nat} (ha : ¬ PsqReg a) : (s.stepClosed k w).reg a = (s.stepSealed k).reg a :=
  s.reg_stepClosed_other (fun h => ha (h.psqReg hk)) w

theorem State.reg_stepClosed_sta {a : Nat} (ha : R.staStep 0 ≤ a) : (s.stepClosed k w).reg a = (s.stepSealed k).reg a :=
  s.reg_stepClosed_of_not_psq hk w (by unfold R.staStep at ha; unfold PsqReg R.quyId; omega)

theorem State.reg_stepClosed_staStep : (s.stepClosed k w).reg (R.staStep k) = s.reg (R.psqStep k) :=
  (s.reg_stepClosed_sta hk w (by unfold R.staStep; omega)).trans (s.reg_stepSealed_staStep hk)

theorem State.reg_stepClosed_psqStep : (s.stepClosed k w).reg (R.psqStep k) = s.reg (R.psqStep k) + 1 :=
  (s.reg_stepClosed_other (by unfold MovedReg R.psqPc R.psqIndex R.psqAhead R.psqToken R.psqStep; omega) w).trans
    (s.reg_stepSealed_psqStep hk)

theorem State.reg_stepClosed_psqSeed : (s.stepClosed k w).reg (R.psqSeed k) = s.reg (R.psqSeedNext k) :=
  (s.reg_stepClosed_other (by unfold MovedReg R.psqPc R.psqIndex R.psqAhead R.psqToken R.psqSeed; omega) w).trans
    (s.reg_stepSealed_psqSeed hk)

theorem State.stepClosed_slotLatched {j : Nat} (hj : j < 64) : SlotLatched s (s.stepClosed k w) k j :=
  (s.stepSealed_slotLatched hk hj).congr (s.reg_stepClosed_sta hk w (by unfold R.staStep R.staMaxabs; omega))
    (s.reg_stepClosed_sta hk w (by unfold R.staStep R.staCount; omega))

theorem State.stepClosed_exchange : (s.stepClosed k w).fld (R.rdxSXstat k) F.rdxSXstatState = 0 := by
  rw [State.fld, s.reg_stepClosed_of_not_psq hk w (by unfold PsqReg R.psqId R.rdxSXstat; omega)]
  exact State.fld_handedNone_state _ k _

variable {e : Nat} (he : e < 32) (hown : (s.stake k).eng.testBit e = true)
include he hown

theorem State.stepClosed_engLatched : EngLatched s (s.stepClosed k w) (s.reg (R.psqStep k)) e :=
  (s.stepSealed_engLatched hk he hown).congr fun i _ => s.reg_stepClosed_sta hk w (by unfold R.staStep R.staEng; omega)

theorem State.reg_stepClosed_engCounter {c : Nat} (hc : c ∈ engCounters e) : (s.stepClosed k w).reg c = regReset c :=
  (s.reg_stepClosed_of_not_psq hk w (fun h => h.not_unitReg (engCounters_unitReg he hc))).trans
    (s.reg_stepSealed_engCounter hk he hown hc)

end

end Sys2Proof.Machine

open Sys2Proof Sys2Proof.Machine in
/-- Settles O14: SEAL by its slot fields; SEAL_LATCH by what is outstanding and whether a micro-batch is open. -/
theorem stepBoundary : Obligations.StepBoundary := by
  intro s k st
  have hk := k.isLt
  refine ⟨fun w h ho => ⟨seal_valid_answers h ho, fun hw => seal_invalid_answers h ho (by unfold SealSlots; omega)⟩,
    fun w i m hs hout hmb hstop hown hc hq hfit => ?_, fun w i m hs hout hmb => sealLatch_openMb_answers hs hout hmb,
    fun h => (exec_sealLatch k s).trans (congrArg _ (State.sealLatch_idle h _))⟩
  refine ⟨_, sealLatch_closes hs hout hmb hstop hown hc hq hfit, s.flag_stepClosed_holdSeal hk w, s.sealing_stepClosed k w,
    s.fld_stepClosed_status hk w (by decide), s.reg_stepClosed_staStep hk w, s.reg_stepClosed_psqStep hk w, s.reg_stepClosed_psqSeed hk w,
    fun j hj => ⟨s.slot_stepClosed k w hj, s.stepClosed_slotLatched hk w hj⟩, fun e he heng => ?_, s.stepClosed_posted hk hfit,
    s.stepClosed_advanced hk w, s.stepClosed_exchange hk w, (s.stepClosed_dry k w).same, s.stepClosed_apart k w⟩
  obtain ⟨hstep, hcount⟩ := s.stepClosed_engLatched hk w he heng
  have hmacs := s.reg_stepClosed_engCounter hk w he heng (c := R.mxeCntMacs e) (by simp [engCounters])
  have hrows := s.reg_stepClosed_engCounter hk w he heng (c := R.vecDvuCntRows e) (by simp [engCounters])
  exact ⟨hstep, hcount 6 _ rfl, hmacs.trans (regReset_mxeCntMacs e he), hcount 7 _ rfl, hrows.trans (regReset_vecDvuCntRows e he)⟩

end

section
/-! PROOFS. Memory that a unit writes (R81, R265, R269): the bytes that it leaves, and the numbers that it stores. -/

namespace Sys2Proof.Machine

section
variable {l l' : List (Nat × Nat)} {r s t : State}

theorem SameMemory.but (h : SameMemory s t) (l : List (Nat × Nat)) : MemoryBut l s t := fun a _ => h a

theorem MemoryBut.trans (h : MemoryBut l r s) (h' : MemoryBut l s t) : MemoryBut l r t := fun a ha => (h' a ha).trans (h a ha)

/-- Ranges that lie within others may be named by those. -/
theorem MemoryBut.within (h : MemoryBut l s t) (hl : ∀ p ∈ l, ∃ q ∈ l', q.1 ≤ p.1 ∧ p.1 + p.2 ≤ q.1 + q.2) : MemoryBut l' s t := by
  refine fun a ha => h a fun p hp => ?_
  obtain ⟨q, hq, hlo, hhi⟩ := hl p hp
  have := ha q hq
  omega

theorem MemoryBut.mono (h : MemoryBut l s t) (hl : l ⊆ l') : MemoryBut l' s t :=
  h.within fun p hp => ⟨p, hl hp, le_refl _, le_refl _⟩

end

/-- A unit's write stores to its own bytes at most. -/
theorem State.wr_memoryBut (s : State) (a : Nat) (b : List Byte) : MemoryBut [(a, b.length)] s (s.wr a b) := by
  intro x hx
  have hout : ¬ (a ≤ x ∧ x < a + b.length) := by
    have := hx _ (List.mem_singleton_self _)
    dsimp only at this
    omega
  by_cases hd : Lands s a b.length
  · rw [s.byte_wr a x b hd.1 hd.2, if_neg hout]
  · have hdrop : s.wr a b = s.noteCxl a b.length false := by
      refine if_pos ?_
      simpa [Lands, or_iff_not_imp_left] using hd
    rw [hdrop, State.noteCxl_byte]

/-! ### numbers in bytes -/

theorem ofBytes_toBytes (n v : Nat) : ofBytes (toBytes n v) = v % 256 ^ n := by
  induction n generalizing v with
  | zero => simp [toBytes, ofBytes, Nat.mod_one]
  | succ n ih =>
    have hbyte : (BitVec.ofNat 8 v).toNat = v % 256 := BitVec.toNat_ofNat v 8
    rw [toBytes, ofBytes, ih, hbyte, Nat.pow_succ', Nat.mod_mul]

/-- What a unit's write has stored reads back, from any place within it. -/
theorem State.bytes_wr_append {s : State} {a : Nat} {p b q : List Byte} (h : Lands s a (p ++ b ++ q).length) :
    (s.wr a (p ++ b ++ q)).bytes (a + p.length) b.length = b := by
  refine List.ext_getElem (by simp [State.bytes]) fun i hi hb => ?_
  have hlt : a + p.length + i < a + (p ++ b ++ q).length := by simp only [List.length_append]; omega
  have hi : p.length + i - p.length = i := by omega
  simp only [State.bytes, List.getElem_map, List.getElem_range]
  rw [s.byte_wr a _ _ h.1 h.2, if_pos ⟨by omega, hlt⟩, show a + p.length + i - a = p.length + i by omega, List.append_assoc,
    List.getD_append_right _ _ _ _ (by omega), hi, List.getD_append _ _ _ _ hb, List.getD_eq_getElem _ _ hb]

theorem State.num_wr_append {s : State} {a n v : Nat} {p q : List Byte} (h : Lands s a (p ++ toBytes n v ++ q).length) :
    (s.wr a (p ++ toBytes n v ++ q)).num (a + p.length) n = v % 256 ^ n := by
  have hb := State.bytes_wr_append h
  rw [length_toBytes] at hb
  rw [State.num, hb, ofBytes_toBytes]

theorem State.num_congr {s t : State} (h : SameMemory s t) (a n : Nat) : t.num a n = s.num a n := by
  simp only [State.num, State.bytes, h _]

end Sys2Proof.Machine
end

section
/-! PROOFS. The context that an ASU keeps for a stake, and the registers that report it (R147, R150, R165): what else their changes
leave. -/

namespace Sys2Proof.Machine

theorem SameSequencers.trans {r s t : State} (h : SameSequencers r s) (h' : SameSequencers s t) : SameSequencers r t :=
  ⟨fun k => (h'.q k).trans (h.q k), fun a ha => (h'.regs a ha).trans (h.regs a ha)⟩

/-- A register of an ASU other than ASU_ID and ASU_ERR (R257). -/
def AsuReg (a : Nat) : Prop := ∃ d, d < 4 ∧ R.asuSStatus d 0 ≤ a ∧ a < R.asuSStatus d 0 + 0xF00

section
variable {d k : Nat} (hd : d < 4) (hk : k < 16)
include hd hk

theorem asuReg_asuSStatus : AsuReg (R.asuSStatus d k) := ⟨d, hd, by unfold R.asuSStatus; omega, by unfold R.asuSStatus; omega⟩

theorem asuReg_asuSCntSpill : AsuReg (R.asuSCntSpill d k) :=
  ⟨d, hd, by unfold R.asuSStatus R.asuSCntSpill; omega, by unfold R.asuSStatus R.asuSCntSpill; omega⟩

theorem asuReg_asuTWord {t : Nat} (ht : t < 16) : AsuReg (R.asuTWord d k t) :=
  ⟨d, hd, by unfold R.asuSStatus R.asuTWord; omega, by unfold R.asuSStatus R.asuTWord; omega⟩

end

theorem AsuReg.lt_psqId {a : Nat} (h : AsuReg a) : a < R.psqId 0 := by
  obtain ⟨d, hd, hlo, hhi⟩ := h
  unfold R.asuSStatus at *
  unfold R.psqId
  omega

/-- The registers of the HBM controllers and of the CXL range are none of an ASU's. -/
theorem not_asuReg_memStatus (h : Nat) : ¬ AsuReg (R.memStatus h) := by
  rintro ⟨d, hd, hlo, hhi⟩
  unfold R.asuSStatus R.memStatus at *
  omega

theorem not_asuReg_of_cxt {a : Nat} (h : a < R.mxeId 0) : ¬ AsuReg a := by
  rintro ⟨d, hd, hlo, hhi⟩
  unfold R.asuSStatus at *
  unfold R.mxeId at h
  omega

/-- Only contexts and registers of ASUs have changed. -/
structure AsuOnly (s t : State) : Prop where
  dry   : Dry s t
  weave : t.weave = s.weave
  q     : ∀ k, t.q k = s.q k
  regs  : ∀ a, ¬ AsuReg a → t.reg a = s.reg a

theorem AsuOnly.refl (s : State) : AsuOnly s s := ⟨.refl s, rfl, fun _ => rfl, fun _ _ => rfl⟩

theorem AsuOnly.trans {r s t : State} (h : AsuOnly r s) (h' : AsuOnly s t) : AsuOnly r t :=
  ⟨h.dry.trans h'.dry, h'.weave.trans h.weave, fun k => (h'.q k).trans (h.q k), fun a ha => (h'.regs a ha).trans (h.regs a ha)⟩

section
variable {z s : State} (h : AsuOnly z s)
include h

theorem AsuOnly.setReg {a : Nat} (ha : AsuReg a) (v : Word) : AsuOnly z (s.setReg a v) :=
  ⟨State.setReg_dry a v h.dry, h.weave, h.q, fun b hb => (s.reg_setReg_other a b v (fun e => hb (e ▸ ha))).trans (h.regs b hb)⟩

theorem AsuOnly.setFld {a : Nat} (ha : AsuReg a) (f : Fld) (v : Nat) : AsuOnly z (s.setFld a f v) := h.setReg ha _

theorem AsuOnly.count {a : Nat} (ha : AsuReg a) (n : Nat) : AsuOnly z (s.count a n) := h.setReg ha _

theorem AsuOnly.setAs (d k : Nat) (c : Asu) : AsuOnly z (s.setAs d k c) := ⟨State.setAs_dry d k c h.dry, h.weave, h.q, h.regs⟩

theorem AsuOnly.syncAsu {d k : Nat} (hd : d < 4) (hk : k < 16) : AsuOnly z (s.syncAsu d k) := by
  have ha := asuReg_asuSStatus hd hk
  unfold State.syncAsu
  exact List.foldlRecOn _ _ (motive := AsuOnly z) (((((h.setFld ha _ _).setFld ha _ _).setFld ha _ _).setFld ha _ _).setFld ha _ _)
    (fun u hu t ht => hu.setReg (asuReg_asuTWord hd hk (List.mem_range.mp ht)) _)

theorem AsuOnly.sameSequencers : SameSequencers z s :=
  ⟨h.q, fun a ha => h.regs a (fun hr => absurd hr.lt_psqId (Nat.not_lt.mpr ha))⟩

theorem AsuOnly.fld {a : Nat} (ha : ¬ AsuReg a) (f : Fld) : s.fld a f = z.fld a f := by rw [State.fld, h.regs a ha, State.fld]

theorem AsuOnly.decoder (a : Nat) : s.decoder a = z.decoder a := by
  unfold State.decoder firstOf
  refine List.find?_congr fun n hn => ?_
  have hn := List.mem_range.mp hn
  rw [State.flag_congr (h.regs (R.cxtDecCtl n) (not_asuReg_of_cxt (by unfold R.cxtDecCtl R.mxeId; omega))),
    h.fld (not_asuReg_of_cxt (a := R.cxtDecBase n) (by unfold R.cxtDecBase R.mxeId; omega)),
    h.fld (not_asuReg_of_cxt (a := R.cxtDecSize n) (by unfold R.cxtDecSize R.mxeId; omega))]

theorem AsuOnly.cxlDown (a : Nat) : s.cxlDown a = z.cxlDown a := by
  unfold State.cxlDown
  rw [h.decoder]
  split
  · rfl
  next n hn =>
    have hn : n < 8 := by
      unfold State.decoder firstOf at hn
      exact List.mem_range.mp (List.mem_of_find?_eq_some hn)
    have hctl := h.fld (not_asuReg_of_cxt (a := R.cxtDecCtl n) (by unfold R.cxtDecCtl R.mxeId; omega))
    have hport : s.decPort n a = z.decPort n a := by
      unfold State.decPort
      rw [hctl, hctl, hctl, h.fld (not_asuReg_of_cxt (a := R.cxtDecBase n) (by unfold R.cxtDecBase R.mxeId; omega))]
    have hlt : z.decPort n a < 4 := Nat.mod_lt _ (by decide)
    rw [hport, State.flag_congr (h.regs _ (not_asuReg_of_cxt (by unfold R.cxtPStatus R.mxeId; omega)))]

/-- What decides whether a unit's write is taken is none of it. -/
theorem AsuOnly.lands (a n : Nat) : Lands s a n ↔ Lands z a n := by
  have hstack : s.stackLost a = z.stackLost a := by
    unfold State.stackLost
    rw [h.fld (not_asuReg_memStatus _)]
  rw [Lands, State.dropped, hstack, h.decoder, h.cxlDown, State.asuPart_congr h.weave, Lands, State.dropped]

end

/-! ### contexts -/

/-- The contexts of all ASUs stand. -/
structure SameStacks (s t : State) : Prop where
  asu : t.asu = s.asu

theorem SameStacks.refl (s : State) : SameStacks s s := ⟨rfl⟩

theorem SameStacks.trans {r s t : State} (h : SameStacks r s) (h' : SameStacks s t) : SameStacks r t := ⟨h'.asu.trans h.asu⟩

theorem SameStacks.as {s t : State} (h : SameStacks s t) (d k : Nat) : t.as d k = s.as d k := by rw [State.as, h.asu, State.as]

theorem SameStacks.setReg {z s : State} (h : SameStacks z s) (a : Nat) (v : Word) : SameStacks z (s.setReg a v) := ⟨h.asu⟩

theorem SameStacks.setFld {z s : State} (h : SameStacks z s) (a : Nat) (f : Fld) (v : Nat) : SameStacks z (s.setFld a f v) := ⟨h.asu⟩

theorem State.as_setAs_same (s : State) (d k : Nat) (c : Asu) : (s.setAs d k c).as d k = c := by rw [State.as_setAs, if_pos rfl]

theorem State.syncAsu_sameStacks (s : State) (d k : Nat) : SameStacks s (s.syncAsu d k) := by
  unfold State.syncAsu
  exact List.foldlRecOn _ _ (motive := SameStacks s) ((((((SameStacks.refl s).setFld _ _ _).setFld _ _ _).setFld _ _ _).setFld _ _
    _).setFld _ _ _) fun u hu t _ => hu.setReg _ _

theorem State.as_syncAsu (s : State) (d k : Nat) : (s.syncAsu d k).as d k = s.as d k := (s.syncAsu_sameStacks d k).as d k

/-! ### places of frames and their trailers -/

theorem State.tagBase_congr {s t : State} {d k : Nat} (hw : t.weave = s.weave) (ha : (t.as d k).areas = (s.as d k).areas) (n : Nat) :
    t.tagBase d k n = s.tagBase d k n := by
  have hstake : t.stake k = s.stake k := by unfold State.stake; rw [hw]
  simp only [State.tagBase, State.diePos, State.areaSegs, State.diesOf, ha, hstake]

theorem State.trailerAddr_congr {s t : State} {d k : Nat} (hw : t.weave = s.weave) (ha : (t.as d k).areas = (s.as d k).areas)
    (f : Frame) : t.trailerAddr d k f = s.trailerAddr d k f := by
  unfold State.trailerAddr State.frameBase
  rw [State.tagBase_congr hw ha]

/-- Two frames of one tag that take the same segments. -/
def Frame.SamePlace (f g : Frame) : Prop := g.tag = f.tag ∧ g.start = f.start ∧ g.height = f.height

theorem State.trailerAddr_samePlace (s : State) (d k : Nat) {f g : Frame} (h : f.SamePlace g) :
    s.trailerAddr d k g = s.trailerAddr d k f := by
  obtain ⟨htag, hstart, hheight⟩ := h
  unfold State.trailerAddr State.frameBase
  rw [htag, hstart, hheight]

/-- The bytes of a frame's trailer (Table 6-1). -/
def Frame.trailer (f : Frame) : List Byte :=
  toBytes 2 f.label ++ toBytes 1 f.fmt ++ toBytes 1 f.state ++ toBytes 4 f.segs ++ toBytes 4 f.start ++ toBytes 1 f.fexp ++
    toBytes 1 (if f.fixed then 1 else 0) ++ List.replicate 50 0

theorem Frame.length_trailer (f : Frame) : f.trailer.length = 64 := by
  simp only [Frame.trailer, List.length_append, length_toBytes, List.length_replicate]

theorem State.wrTrailer_eq (s : State) (d k : Nat) (f : Frame) : s.wrTrailer d k f = s.wr (s.trailerAddr d k f) f.trailer := rfl

theorem State.wrTrailer_memoryBut (s : State) (d k : Nat) (f : Frame) :
    MemoryBut [(s.trailerAddr d k f, 64)] s (s.wrTrailer d k f) := by
  have h := s.wr_memoryBut (s.trailerAddr d k f) f.trailer
  rwa [f.length_trailer] at h

@[simp] theorem State.wrTrailer_as (s : State) (d k : Nat) (f : Frame) (x y : Nat) : (s.wrTrailer d k f).as x y = s.as x y :=
  State.wr_as ..

@[simp] theorem State.wrTrailer_weave (s : State) (d k : Nat) (f : Frame) : (s.wrTrailer d k f).weave = s.weave := State.wr_weave ..

/-! ### the trailers that a change of frames rewrites -/

/-- The trailers of the frames of `l` that change STATE under `g` rewritten. -/
def State.rewriteTrailers (s : State) (d k : Nat) (g : Frame → Frame) (l : List Frame) : State :=
  l.foldl (fun s f => if (g f).state = f.state then s else s.wrTrailer d k (g f)) s

theorem State.mapFrames_eq (s : State) (d k : Nat) (g : Frame → Frame) :
    s.mapFrames d k g = ((s.rewriteTrailers d k g (s.as d k).frames).setAs d k
      { s.as d k with frames := (s.as d k).frames.map g }).syncAsu d k := rfl

/-- What a property of states keeps through rewriting. -/
theorem State.rewriteTrailers_rec {P : State → Prop} {d k : Nat} {g : Frame → Frame} {l : List Frame}
    (hf : ∀ u, ∀ f ∈ l, (g f).state ≠ f.state → P u → P (u.wrTrailer d k (g f))) {s : State} (h : P s) :
    P (s.rewriteTrailers d k g l) := by
  refine List.foldlRecOn l _ (motive := P) h fun u hu f hm => ?_
  split
  · exact hu
  · exact hf u f hm ‹_› hu

theorem State.rewriteTrailers_none (s : State) (d k : Nat) {g : Frame → Frame} {l : List Frame}
    (h : ∀ f ∈ l, (g f).state = f.state) : s.rewriteTrailers d k g l = s :=
  State.rewriteTrailers_rec (P := (· = s)) (fun _ f hf hne _ => absurd (h f hf) hne) rfl

theorem State.rewriteTrailers_sameSequencers (s : State) (d k : Nat) (g : Frame → Frame) (l : List Frame) :
    SameSequencers s (s.rewriteTrailers d k g l) := State.rewriteTrailers_rec (fun _ _ _ _ hu => hu.wr _ _) (.refl s)

theorem State.rewriteTrailers_memoryBut (s : State) (d k : Nat) {g : Frame → Frame} {l : List Frame} (hg : ∀ f : Frame, f.SamePlace (g f)) :
    MemoryBut ((l.filter (fun f => (g f).state != f.state)).map (fun f => (s.trailerAddr d k f, 64))) s (s.rewriteTrailers d k g l) := by
  have hrec := State.rewriteTrailers_rec (s := s) (d := d) (k := k) (g := g) (l := l)
    (P := fun u => (u.weave = s.weave ∧ u.as d k = s.as d k) ∧
      MemoryBut ((l.filter (fun f => (g f).state != f.state)).map (fun f => (s.trailerAddr d k f, 64))) s u) ?_
    ⟨⟨rfl, rfl⟩, fun _ _ => rfl⟩
  · exact hrec.2
  · rintro u f hf hne ⟨⟨hw, ha⟩, hm⟩
    refine ⟨⟨(u.wrTrailer_weave d k _).trans hw, (u.wrTrailer_as d k _ d k).trans ha⟩,
      hm.trans ((u.wrTrailer_memoryBut d k (g f)).mono fun r hr => ?_)⟩
    rw [List.mem_singleton.mp hr, u.trailerAddr_samePlace d k (hg f), State.trailerAddr_congr hw (congrArg Asu.areas ha)]
    exact List.mem_map_of_mem (List.mem_filter.mpr ⟨hf, by simpa using hne⟩)

/-! ### frames replaced -/

theorem State.as_mapFrames (s : State) (d k : Nat) (g : Frame → Frame) :
    (s.mapFrames d k g).as d k = { s.as d k with frames := (s.as d k).frames.map g } := by
  rw [State.mapFrames_eq, State.as_syncAsu, State.as_setAs_same]

section
variable (s : State) {d k : Nat} (hd : d < 4) (hk : k < 16)
include hd hk

theorem State.mapFrames_sameSequencers (g : Frame → Frame) : SameSequencers s (s.mapFrames d k g) := by
  rw [State.mapFrames_eq]
  exact (s.rewriteTrailers_sameSequencers d k g _).trans (((AsuOnly.refl _).setAs d k _).syncAsu hd hk).sameSequencers

/-- Frames whose STATE stays have no trailer rewritten. -/
theorem State.mapFrames_asuOnly {g : Frame → Frame} (h : ∀ f ∈ (s.as d k).frames, (g f).state = f.state) :
    AsuOnly s (s.mapFrames d k g) := by
  rw [State.mapFrames_eq, s.rewriteTrailers_none d k h]
  exact ((AsuOnly.refl s).setAs d k _).syncAsu hd hk

/-- Frames that stay in place have at most the trailers of those whose STATE changes rewritten. -/
theorem State.mapFrames_memoryBut {g : Frame → Frame} (hg : ∀ f : Frame, f.SamePlace (g f)) :
    MemoryBut (((s.as d k).frames.filter (fun f => (g f).state != f.state)).map (fun f => (s.trailerAddr d k f, 64))) s
      (s.mapFrames d k g) :=
  (s.rewriteTrailers_memoryBut d k hg).trans ((((AsuOnly.refl _).setAs d k _).syncAsu hd hk).dry.same.but _)

end

end Sys2Proof.Machine
end

section
/-! PROOFS. Dispatch, completion and the posts of an instruction (R124, R125, R129), as the contexts of the ASUs see them, and a head
that dispatches and completes at once. -/

namespace Sys2Proof.Machine

/-! ### contexts of the ASUs -/

theorem SameStacks.foldl {β : Type} {z s : State} {f : State → β → State} (hf : ∀ u b, SameStacks z u → SameStacks z (f u b))
    (l : List β) (h : SameStacks z s) : SameStacks z (l.foldl f s) :=
  List.foldlRecOn l f (motive := SameStacks z) h (fun u hu b _ => hf u b hu)

section
variable {z s : State} (h : SameStacks z s)
include h

theorem SameStacks.setQ (k : Nat) (c : Psq) : SameStacks z (s.setQ k c) := ⟨h.asu⟩

theorem SameStacks.wr (a : Nat) (b : List Byte) : SameStacks z (s.wr a b) := ⟨(s.wr_asu a b).trans h.asu⟩

theorem SameStacks.takeTokens (k mask : Nat) : SameStacks z (s.takeTokens k mask) :=
  h.foldl (fun _ _ hu => hu.setFld _ _ _) _

theorem SameStacks.giveTokens (k mask : Nat) : SameStacks z (s.giveTokens k mask) :=
  h.foldl (fun _ _ hu => hu.setFld _ _ _) _

theorem SameStacks.setOutst (k : Nat) (l : List Outst) : SameStacks z (s.setOutst k l) :=
  (h.setQ k _).foldl (fun _ _ hu => hu.setFld _ _ _) _

theorem SameStacks.stepIndex (k x pc : Nat) : SameStacks z (s.stepIndex k x pc) :=
  (((h.setFld _ _ _).setReg _ _).setReg _ _).setQ _ _

theorem SameStacks.advance (k x pc : Nat) : SameStacks z (s.advance k x pc) :=
  State.skipDone_rec (P := SameStacks z) (fun _ hu => hu.setQ _ _) (fun _ _ hu => hu.stepIndex _ _ _) _ (h.stepIndex k x pc)

theorem SameStacks.enlist (k : Nat) (o : Outst) : SameStacks z (s.enlist k o) := ((h.takeTokens _ _).setQ _ _).setOutst _ _

end

/-! ### what a step of the sequencers sees of the state before -/

section
variable {s u : State} (h : SameSequencers s u)
include h

theorem SameSequencers.indexOf (k x : Nat) : u.indexOf k x = s.indexOf k x := by
  rw [State.indexOf, h.regs _ (by unfold R.psqId R.psqIndex; omega), State.indexOf]

theorem SameSequencers.pcOf (k x : Nat) : u.pcOf k x = s.pcOf k x := by
  rw [State.pcOf, State.fld, h.regs _ (by unfold R.psqId R.psqPc; omega), State.pcOf, State.fld]

theorem SameSequencers.noOverflow {k w : Nat} (hp : NoOverflow s k w) : NoOverflow u k w := by
  intro c hc
  rw [h.tset] at hc
  rw [h.tok, h.tset]
  exact hp c hc

theorem SameSequencers.advanced {t : State} {k x pc : Nat} (ha : Advanced u t k x pc) : Advanced s t k x pc := by
  intro hahead
  have := ha (by rwa [h.regs _ (by unfold R.psqId R.psqAhead; omega)])
  rwa [h.indexOf] at this

theorem SameSequencers.doneAtOnce {t : State} {k x w pc : Nat} (hd : DoneAtOnce u t k x w pc) : DoneAtOnce s t k x w pc := by
  obtain ⟨hadv, hout, htok⟩ := hd
  refine ⟨h.advanced hadv, hout.trans (congrArg Psq.outst (h.q k)), fun c hc => ?_⟩
  rw [htok c hc, h.tok, h.tset, h.tset]

theorem SameSequencers.dispatched {t : State} {k x w unit : Nat} {issued : Bool} (hd : Dispatched u t k x w unit issued) :
    Dispatched s t k x w unit issued := by
  obtain ⟨htaken, hadv, hlen, o, ho, hseq, hstrm, hindex, hword, hunit, hwaits, hissued⟩ := hd
  refine ⟨fun c hc => ?_, h.pcOf k x ▸ h.advanced hadv, ?_, o, ho, ?_, hstrm, ?_, hword, hunit, ?_, hissued⟩
  · rw [htaken c hc, h.tok, h.tset]
  · rw [hlen, h.q]
  · rw [hseq, h.q]
  · rw [hindex, h.indexOf]
  · rw [hwaits, h.tset]

end

/-! ### a head that completes at once -/

/-- The state of a head that dispatches and completes at once, before its posts are given. -/
def State.passed (s : State) (k x w pc : Nat) : State := (s.takeTokens k (s.tset k (waitOf w))).advance k x pc

theorem State.reg_passed_other (s : State) {k x w a : Nat} (htok : ∀ i, i < 16 → a ≠ R.psqToken k i) (hpc : a ≠ R.psqPc k x) (hindex : a ≠ R.psqIndex k x)
    (hahead : a ≠ R.psqAhead k x) (pc : Nat) : (s.passed k x w pc).reg a = s.reg a :=
  (State.reg_advance_other _ hpc hindex hahead pc).trans (s.reg_takeTokens_other htok _)

section
variable (s : State) {k x w : Nat} (hx : x < 3)
include hx

theorem State.tset_passed (pc : Nat) {v : Nat} (_ : v < 256) : (s.passed k x w pc).tset k v = s.tset k v := by
  unfold State.tset
  rw [s.reg_passed_other (fun i _ => by unfold R.psqTset R.psqToken; omega) (by unfold R.psqTset R.psqPc; omega)
    (by unfold R.psqTset R.psqIndex; omega) (by unfold R.psqTset R.psqAhead; omega)]

theorem State.tok_passed (pc : Nat) {c : Nat} (hc : c < 64) :
    (s.passed k x w pc).tok k c = s.tok k c - (if (s.tset k (waitOf w)).testBit c then 1 else 0) := by
  rw [← s.tok_takeTokens k _ hc]
  exact State.tok_congr (fun i _ => State.reg_advance_other _ (by unfold R.psqToken R.psqPc; omega)
    (by unfold R.psqToken R.psqIndex; omega) (by unfold R.psqToken R.psqAhead; omega) _) hc

/-- R124, R125: where no post overflows, the head's waits are taken, its stream moves on, and its posts are given. -/
theorem State.dispatchDone_of_noOverflow (h : NoOverflow s k w) (pc : Nat) :
    s.dispatchDone k x w pc = (s.passed k x w pc).giveTokens k (s.tset k (postOf w)) := by
  have hset : (s.passed k x w pc).tset k (postOf w) = s.tset k (postOf w) := s.tset_passed hx pc (Nat.mod_lt _ (by decide))
  show (s.passed k x w pc).postSet k x (s.indexOf k x) (postOf w) = _
  rw [State.postSet_of_fit (fun c hc hb => ?_), hset]
  rw [hset] at hb
  rw [s.tok_passed hx pc hc]
  exact h c hb

theorem State.dispatchDone_doneAtOnce (h : NoOverflow s k w) (pc : Nat) : DoneAtOnce s (s.dispatchDone k x w pc) k x w pc := by
  have hwaits : (s.takeTokens k (s.tset k (waitOf w))).reg (R.psqIndex k x) = s.reg (R.psqIndex k x) :=
    s.reg_takeTokens_other (fun i _ => by unfold R.psqIndex R.psqToken; omega) _
  rw [s.dispatchDone_of_noOverflow hx h]
  refine ⟨fun hahead => ?_, ?_, fun c hc => ?_⟩
  · rw [← s.reg_takeTokens_other (a := R.psqAhead k x) (fun i _ => by unfold R.psqAhead R.psqToken; omega) (s.tset k (waitOf w))] at hahead
    have hadv := State.advance_advanced _ k x pc hahead
    rw [State.indexOf, State.indexOf, hwaits, State.pcOf] at hadv
    rwa [State.indexOf, State.indexOf, State.pcOf, State.fld, State.reg_giveTokens_other _ (fun i _ => by unfold R.psqIndex R.psqToken; omega),
      State.reg_giveTokens_other _ (fun i _ => by unfold R.psqPc R.psqToken; omega)]
  · rw [State.q_giveTokens, State.passed, (State.advance_outst _ k x pc).1, State.q_takeTokens]
  · have htok := s.tok_passed (k := k) (w := w) hx pc hc
    rw [State.tok_giveTokens _ k _ hc (fun hb => htok ▸ h c hb), htok]

theorem State.dispatchDone_sameStacks (h : NoOverflow s k w) (pc : Nat) : SameStacks s (s.dispatchDone k x w pc) := by
  rw [s.dispatchDone_of_noOverflow hx h]
  exact (((SameStacks.refl s).takeTokens _ _).advance _ _ _).giveTokens _ _

end

/-! ### completion, and a head that becomes outstanding -/

theorem State.complete_sameStacks {s : State} {k : Nat} {o : Outst} (h : PostsFit s k o.word) : SameStacks s (s.complete k o) := by
  rw [State.complete_of_postsFit h]
  exact ((SameStacks.refl s).setOutst _ _).giveTokens _ _

section
variable (s : State) (k : Nat) {x : Nat} (hx : x < 3) (w unit : Nat) (issued : Bool) (desc chain : List Byte) (frame : Nat)
include hx

theorem State.dispatchOut_outst : ((s.dispatchOut k x w unit issued desc chain frame).q k).outst =
    (s.q k).outst ++ [s.newOutst k x w unit issued desc chain frame] := by
  rw [State.dispatchOut_eq _ _ hx, (State.advance_outst _ k x _).1, State.q_enlist]

theorem State.dispatchOut_seq : ((s.dispatchOut k x w unit issued desc chain frame).q k).seq = (s.q k).fresh + 1 := by
  rw [State.dispatchOut_eq _ _ hx, (State.advance_outst _ k x _).2, State.q_enlist]

theorem State.dispatchOut_sameStacks : SameStacks s (s.dispatchOut k x w unit issued desc chain frame) := by
  rw [State.dispatchOut_eq _ _ hx]
  exact ((SameStacks.refl s).enlist _ _).advance _ _ _

end

/-- The newest outstanding instruction of a stake is the one that `bindPush` binds. -/
theorem State.bindPush_newest {s : State} {k : Nat} {o : Outst} (h : (s.q k).outst.getLast? = some o) (hseq : (s.q k).seq = o.seq + 1)
    (dest : Nat) : ((s.bindPush k dest).q k).outst.getLast?.map (fun o => o.pushTo) = some dest := by
  rw [State.bindPush_outst, List.getLast?_map, h, Option.map_some, Option.map_some, if_pos (by omega)]

end Sys2Proof.Machine
end

section
/-! PROOFS. A fault of a stack instruction (R141, R152, R167): its records, and what the stop that it begins leaves of the frames. -/

namespace Sys2Proof.Machine

/-- What tells frames of a context apart: tag, START and STATE. -/
def Frame.place (f : Frame) : Nat × Nat × Nat := (f.tag, f.start, f.state)

/-- Every frame stands where it stood, in the same STATE, and so does what every ASU_ERR holds. -/
structure SameFrames (s t : State) : Prop where
  places : ∀ d k, (t.as d k).frames.map Frame.place = (s.as d k).frames.map Frame.place
  err    : ∀ d, d < 4 → t.reg (R.asuErr d) = s.reg (R.asuErr d)

theorem SameFrames.refl (s : State) : SameFrames s s := ⟨fun _ _ => rfl, fun _ _ => rfl⟩

section
variable {z s : State} (h : SameFrames z s)
include h

theorem SameFrames.setReg {a : Nat} (ha : ∀ d, d < 4 → R.asuErr d ≠ a) (v : Word) : SameFrames z (s.setReg a v) :=
  ⟨h.places, fun d hd => (s.reg_setReg_other _ _ v (ha d hd)).trans (h.err d hd)⟩

theorem SameFrames.setFld {a : Nat} (ha : ∀ d, d < 4 → R.asuErr d ≠ a) (f : Fld) (v : Nat) : SameFrames z (s.setFld a f v) :=
  h.setReg ha _

/-- A register of a pass sequencer is no ASU_ERR. -/
theorem SameFrames.setPsq {a : Nat} (ha : R.psqId 0 ≤ a) (v : Word) : SameFrames z (s.setReg a v) :=
  h.setReg (fun d _ => by unfold R.psqId at ha; unfold R.asuErr; omega) v

theorem SameFrames.setQ (k : Nat) (c : Psq) : SameFrames z (s.setQ k c) := ⟨h.places, h.err⟩

theorem SameFrames.foldl {β : Type} {f : State → β → State} (l : List β) (hf : ∀ u, ∀ b ∈ l, SameFrames z u → SameFrames z (f u b)) :
    SameFrames z (l.foldl f s) :=
  List.foldlRecOn l f (motive := SameFrames z) h (fun u hu b hb => hf u b hb hu)

theorem SameFrames.rollback (k : Nat) (gone : List Outst) (x : Nat) : SameFrames z (s.rollback k gone x) := by
  unfold State.rollback
  dsimp only
  split
  · exact h
  next o _ =>
    have hahead := h.setPsq (a := R.psqAhead k x) (by unfold R.psqId R.psqAhead; omega)
    split
    · exact hahead _
    · exact (((hahead _).setPsq (by unfold R.psqId R.psqIndex; omega) _).setPsq (by unfold R.psqId R.psqPc; omega) _).setQ _ _

theorem SameFrames.giveTokens (k mask : Nat) : SameFrames z (s.giveTokens k mask) :=
  h.foldl _ fun _ _ _ hu => hu.setPsq (by unfold R.psqId R.psqToken; omega) _

theorem SameFrames.setOutst (k : Nat) (l : List Outst) : SameFrames z (s.setOutst k l) :=
  (h.setQ k _).foldl _ fun _ _ _ hu => hu.setPsq (by unfold R.psqId R.psqInflight; omega) _

theorem SameFrames.syncMxe (k : Nat) {e : Nat} (_ : e < 32) : SameFrames z (s.syncMxe k e) := by
  have ha : ∀ d, d < 4 → R.asuErr d ≠ R.mxeStatus e := fun d _ => by unfold R.asuErr R.mxeStatus; omega
  unfold State.syncMxe
  dsimp only
  split
  · exact h
  · exact ((h.setFld ha _ _).setFld ha _ _).setFld ha _ _

theorem SameFrames.syncDvu (k : Nat) {e : Nat} (_ : e < 32) : SameFrames z (s.syncDvu k e) := by
  unfold State.syncDvu
  dsimp only
  split
  · exact h
  · exact h.setFld (fun d _ => by unfold R.asuErr R.vecDvuStatus; omega) _ _

theorem SameFrames.syncUnits (k : Nat) : SameFrames z (s.syncUnits k) :=
  h.foldl _ fun _ _ he hu => (hu.syncMxe k (lt_of_mem_onesOf he)).syncDvu k (lt_of_mem_onesOf he)

/-- The frames of a context may change beside their places. -/
theorem SameFrames.setAs (d k : Nat) {c : Asu} (hc : c.frames.map Frame.place = (s.as d k).frames.map Frame.place) :
    SameFrames z (s.setAs d k c) := by
  refine ⟨fun x y => ?_, h.err⟩
  rw [State.as_setAs]
  split
  next heq =>
    have hkey : s.as x y = s.as d k := by unfold State.as; rw [heq]
    rw [hc, ← hkey, h.places x y]
  · exact h.places x y

/-- A withdrawn SDROP no longer drops its frame (R159). -/
theorem SameFrames.unwind (k : Nat) (o : Outst) : SameFrames z (s.unwind k o) := by
  have hjob : ∀ d, d < 4 → R.asuErr d ≠ R.rdxJStatus (bits o.word 32 6) := fun d _ => by
    have : bits o.word 32 6 < 64 := Nat.mod_lt _ (by decide)
    unfold R.asuErr R.rdxJStatus
    omega
  have hquay : ∀ {u : State} (l : KMap Quay), SameFrames z u → SameFrames z { u with quay := l } := fun _ hu => ⟨hu.places, hu.err⟩
  unfold State.unwind
  refine hquay _ ?_
  split
  · refine h.setAs _ k ?_
    rw [List.map_map]
    refine List.map_congr_left fun f _ => ?_
    dsimp only [Function.comp]
    split <;> rfl
  · dsimp only
    split
    · split
      · refine SameFrames.setReg ?_ hjob 0
        exact ⟨h.places, h.err⟩
      · exact h
    · exact h

theorem SameFrames.withdraw (k : Nat) : SameFrames z (s.withdraw k) := by
  unfold State.withdraw State.withdrawSome
  exact (((SameFrames.foldl (h.foldl _ fun _ x _ hu => hu.rollback k _ x) _ fun _ o _ hu =>
    (hu.giveTokens k o.waits).unwind k o).setOutst k _).syncUnits k).setQ k _

theorem SameFrames.raiseEvent {a : Nat} (ha : ∀ d, d < 4 → R.asuErr d ≠ a) (cfg : Nat) (f : Fld) : SameFrames z (s.raiseEvent a cfg f) :=
  ⟨fun d k => by rw [State.raiseEvent_as]; exact h.places d k, fun d hd => (s.reg_raiseEvent_other (ha d hd) cfg f).trans (h.err d hd)⟩

theorem SameFrames.beginStop (k : Nat) (cause : Fld) : SameFrames z (s.beginStop k cause) := by
  have hst : R.psqId 0 ≤ R.psqStatus k := by unfold R.psqId R.psqStatus; omega
  unfold State.beginStop State.stopNow State.setPst
  split
  · exact (SameFrames.withdraw (h.setPsq hst _) k).setPsq hst _
  · exact h.setPsq hst _

theorem SameFrames.raiseFault {k : Nat} (hk : k < 16) (x index code unit : Nat) (after : Bool) :
    SameFrames z (s.raiseFault k x index code unit after) := by
  have hnote : SameFrames z (s.noteFrec k x index code unit after) := by
    unfold State.noteFrec
    split
    · exact h
    · exact (h.setPsq (by unfold R.psqId R.psqFrec0; omega) _).setPsq (by unfold R.psqId R.psqFrec1; omega) _
  rw [State.raiseFault_eq, State.faultStop]
  refine SameFrames.beginStop ?_ k _
  split
  · exact hnote
  · exact hnote.raiseEvent (fun d _ => by unfold R.asuErr R.hifSEvt; omega) _ _

end

/-! ### the fault -/

/-- The word of ASU_ERR for a fault (R167). -/
def asuErrWord (k x index code : Nat) : Word :=
  ((((0 : Word).setFld F.asuErrCode code).setFld F.asuErrStake k).setFld F.asuErrStream x).setFld F.asuErrIndex (index % 2 ^ 32)

theorem State.asuErr_eq (s : State) (d k x index code : Nat) :
    s.asuErr d k x index code = s.setReg (R.asuErr d) (asuErrWord k x index code) := rfl

theorem fld_asuErrWord_code {code : Nat} (h : code < 256) (k x index : Nat) : (asuErrWord k x index code).fld F.asuErrCode = code := by
  unfold asuErrWord
  rw [Word.fld_setFld_other _ _ _ _ _ _ (by decide), Word.fld_setFld_other _ _ _ _ _ _ (by decide),
    Word.fld_setFld_other _ _ _ _ _ _ (by decide)]
  exact (Word.fld_setFld_same _ _ _ _ (by decide)).trans (Nat.mod_eq_of_lt h)

theorem State.asFault_eq (s : State) (d k x code : Nat) :
    s.asFault d k x code = (s.asuErr d k x (s.indexOf k x) code).raiseFault k x (s.indexOf k x) code 0xFF false := rfl

theorem State.asFault_sameFrames (s : State) (d x code : Nat) {k : Nat} (hk : k < 16) :
    SameFrames (s.asuErr d k x (s.indexOf k x) code) (s.asFault d k x code) := by
  rw [State.asFault_eq]
  exact (SameFrames.refl _).raiseFault hk _ _ _ _ _

section
variable (s : State) {d k x code : Nat} (hk : k < 16) (hc : code < 256)
include hk hc

/-- R141: the fault stands in its stream's record. -/
theorem State.asFault_faulted (hx : x < 3) : Faulted s (s.asFault d k x code) k x code (s.indexOf k x) := by
  rw [State.asFault_eq]
  exact (State.raiseFault_faulted _ hk hx hc _ _ _).of_frec0 (s.reg_setReg_other _ _ _ ((FaultReg.frec0 k hx).ne_asuErr d))

/-- R167: it stands in ASU_ERR. -/
theorem State.fld_asFault_asuErr (hd : d < 4) : (s.asFault d k x code).fld (R.asuErr d) F.asuErrCode = code := by
  rw [State.fld, (s.asFault_sameFrames d x code hk).err d hd, State.asuErr_eq, State.reg_setReg_same, fld_asuErrWord_code hc]

omit hc in
theorem State.asFault_places (y : Nat) : ((s.asFault d k x code).as y k).frames.map Frame.place = (s.as y k).frames.map Frame.place := by
  rw [(s.asFault_sameFrames d x code hk).places y k, State.asuErr_eq, State.setReg_as]

end

/-- A stack instruction that raises `code` on die `d`: both records hold it, frames and memory stand. -/
def AsRaises (c : Instr) (s : State) (d k x code : Nat) : Prop :=
  Answers (exec c s) (fun t => Faulted s t k x code (s.indexOf k x) ∧ t.fld (R.asuErr d) F.asuErrCode = code ∧
    (t.as d k).frames.map (fun f => (f.tag, f.start, f.state)) = (s.as d k).frames.map (fun f => (f.tag, f.start, f.state)) ∧
    SameMemory s t ∧ Apart s t)

theorem asRaises_of_asFault {c : Instr} {s : State} {d k x code : Nat} (hd : d < 4) (hk : k < 16) (hx : x < 3) (hc : code < 256)
    (h : exec c s = .next (s.asFault d k x code)) : AsRaises c s d k x code :=
  ⟨_, h, s.asFault_faulted hk hc hx, s.fld_asFault_asuErr hk hc hd, s.asFault_places hk d, (State.asFault_dry d k x code (.refl s)).same,
    State.asFault_apart d k x code (.refl s)⟩

/-- What is said of a stack instruction's fault where its ASU's record is not. -/
theorem AsRaises.record {c : Instr} {s : State} {d k x code : Nat} (h : AsRaises c s d k x code) :
    Answers (exec c s) (fun t => Faulted s t k x code (s.indexOf k x) ∧ SameMemory s t ∧ Apart s t) := by
  obtain ⟨t, ht, hfault, -, -, hmem, hapart⟩ := h
  exact ⟨t, ht, hfault, hmem, hapart⟩

/-! ### the head of a stream -/

theorem die_lt (w : Nat) : bits w 32 2 < 4 := Nat.mod_lt _ (by decide)

section
variable {s : State} {k x w opc : Nat} (h : Ready s k x w) (ho : opcOf w = opc) {rsv : Nat → Bool} (body : Nat → Nat → State → State)
include h ho

theorem State.stackOp_reserved (hr : rsv w = true) : s.stackOp k x opc rsv body = s.asFault (bits w 32 2) k x 0x40 := by
  rw [State.stackOp, State.withHead_ready h (by simp [ho])]
  exact if_pos hr

variable (hr : rsv w = false)
include hr

theorem State.stackOp_foreign (hd : bits w 32 2 ∉ s.diesOf k) : s.stackOp k x opc rsv body = s.asFault (bits w 32 2) k x 0x41 := by
  rw [State.stackOp, State.withHead_ready h (by simp [ho])]
  simp [hr, hd]

theorem State.stackOp_passed (hd : bits w 32 2 ∈ s.diesOf k) : s.stackOp k x opc rsv body = body w (bits w 32 2) s := by
  rw [State.stackOp, State.withHead_ready h (by simp [ho])]
  simp [hr, hd]

end

end Sys2Proof.Machine
end

section
/-! PROOFS. SOPEN (R150, R152, R153, R154): its checks in their order, the frame that it opens and its trailer. -/

namespace Sys2Proof.Machine

theorem exec_sopen (k : Fin 16) (x : Strm) (s : State) : exec (.sopen k x) s = .next (s.sopen k x.num) := rfl

/-! ### a frame opened -/

/-- The frame that SOPEN opens at TOP of its tag (R153). -/
def Asu.opening (c : Asu) (x w : Nat) : Frame :=
  ⟨bits w 36 4, c.topOf (bits w 36 4), bits w 64 32, bits w 40 6, bits w 96 8, bit w 104, bits w 48 16, x, false, false, false, 0⟩

/-- A context with one more frame. -/
def Asu.push (c : Asu) (f : Frame) : Asu := { c with frames := c.frames ++ [f] }

/-- The state in which a frame has been filed and its trailer written. -/
def State.fileFrame (s : State) (d k : Nat) (f : Frame) : State := (s.setAs d k ((s.as d k).push f)).wrTrailer d k f

/-- The same with the registers brought up to date. -/
def State.openFrame (s : State) (d k : Nat) (f : Frame) : State := (s.fileFrame d k f).syncAsu d k

/-- What a trailer shows at `a` of the frame that it ends (Table 6-1). -/
structure TrailerOf (s : State) (a : Nat) (f : Frame) : Prop where
  label : s.num a 2 = f.label % 2 ^ 16
  fmt   : s.num (a + 2) 1 = f.fmt % 2 ^ 8
  state : s.num (a + 3) 1 = f.state % 2 ^ 8
  segs  : s.num (a + 4) 4 = f.segs % 2 ^ 32
  start : s.num (a + 8) 4 = f.start % 2 ^ 32

theorem TrailerOf.congr {s t : State} {a : Nat} {f : Frame} (h : TrailerOf s a f) (hm : SameMemory s t) : TrailerOf t a f :=
  ⟨(State.num_congr hm _ _).trans h.label, (State.num_congr hm _ _).trans h.fmt, (State.num_congr hm _ _).trans h.state,
    (State.num_congr hm _ _).trans h.segs, (State.num_congr hm _ _).trans h.start⟩

/-- A number of the trailer, `p` being the bytes before it. -/
theorem State.num_wrTrailer {s : State} {d k : Nat} {f : Frame} (h : Lands s (s.trailerAddr d k f) 64) {n v : Nat} (p q : List Byte)
    (hb : f.trailer = p ++ toBytes n v ++ q) : (s.wrTrailer d k f).num (s.trailerAddr d k f + p.length) n = v % 256 ^ n := by
  rw [State.wrTrailer_eq, hb]
  rw [← f.length_trailer, hb] at h
  exact State.num_wr_append h

theorem State.wrTrailer_trailerOf {s : State} {d k : Nat} {f : Frame} (h : Lands s (s.trailerAddr d k f) 64) :
    TrailerOf (s.wrTrailer d k f) (s.trailerAddr d k f) f where
  label := State.num_wrTrailer h [] _ (by simp only [Frame.trailer, List.append_assoc, List.nil_append]; rfl)
  fmt := State.num_wrTrailer h (toBytes 2 f.label) _ (by simp only [Frame.trailer, List.append_assoc]; rfl)
  state := State.num_wrTrailer h (toBytes 2 f.label ++ toBytes 1 f.fmt) _ (by simp only [Frame.trailer, List.append_assoc]; rfl)
  segs := State.num_wrTrailer h (toBytes 2 f.label ++ toBytes 1 f.fmt ++ toBytes 1 f.state) _
    (by simp only [Frame.trailer, List.append_assoc]; rfl)
  start := State.num_wrTrailer h (toBytes 2 f.label ++ toBytes 1 f.fmt ++ toBytes 1 f.state ++ toBytes 4 f.segs) _
    (by simp only [Frame.trailer, List.append_assoc]; rfl)

section
variable (s : State) {d k : Nat} (f : Frame)

theorem State.as_openFrame : (s.openFrame d k f).as d k = (s.as d k).push f := by
  rw [State.openFrame, State.as_syncAsu, State.fileFrame, State.wrTrailer_as, State.as_setAs_same]

theorem State.trailerAddr_push : (s.setAs d k ((s.as d k).push f)).trailerAddr d k f = s.trailerAddr d k f :=
  State.trailerAddr_congr (s.setAs_weave d k _) (by rw [State.as_setAs_same, Asu.push]) f

theorem State.fileFrame_sameSequencers : SameSequencers s (s.fileFrame d k f) :=
  (((AsuOnly.refl s).setAs d k ((s.as d k).push f)).sameSequencers).wr _ _

variable (hd : d < 4) (hk : k < 16)
include hd hk

theorem State.openFrame_sameSequencers : SameSequencers s (s.openFrame d k f) :=
  (s.fileFrame_sameSequencers f).trans ((AsuOnly.refl _).syncAsu hd hk).sameSequencers

theorem State.openFrame_memoryBut : MemoryBut [(s.trailerAddr d k f, 64)] s (s.openFrame d k f) := by
  have h := (s.setAs d k ((s.as d k).push f)).wrTrailer_memoryBut d k f
  rw [s.trailerAddr_push] at h
  exact h.trans (((AsuOnly.refl _).syncAsu hd hk).dry.same.but _)

theorem State.openFrame_trailerOf (h : Lands s (s.trailerAddr d k f) 64) : TrailerOf (s.openFrame d k f) (s.trailerAddr d k f) f := by
  rw [← ((AsuOnly.refl s).setAs d k ((s.as d k).push f)).lands, ← s.trailerAddr_push f] at h
  have := State.wrTrailer_trailerOf h
  rw [s.trailerAddr_push] at this
  exact this.congr ((AsuOnly.refl _).syncAsu hd hk).dry.same

end

/-! ### the checks of SOPEN -/

section
variable {s : State} {k x w : Nat} (h : Ready s k x w) (ho : opcOf w = 0x18)
include h ho

theorem State.sopen_reserved (hb : sopenBad w = true) : s.sopen k x = s.asFault (bits w 32 2) k x 0x40 := State.stackOp_reserved h ho _ hb

variable (hb : sopenBad w = false)
include hb

theorem State.sopen_foreign (hd : bits w 32 2 ∉ s.diesOf k) : s.sopen k x = s.asFault (bits w 32 2) k x 0x41 :=
  State.stackOp_foreign h ho _ hb hd

variable (hd : bits w 32 2 ∈ s.diesOf k)
include hd

theorem State.sopen_closedTag (ht : (s.fld (R.psqStatus k) F.psqStatusOpenMb).testBit (bits w 36 4) = false) :
    s.sopen k x = s.asFault (bits w 32 2) k x 0x42 := by
  rw [State.sopen, State.stackOp_passed h ho _ hb hd]
  simp [ht]

variable (ht : (s.fld (R.psqStatus k) F.psqStatusOpenMb).testBit (bits w 36 4) = true)
include ht

theorem State.sopen_occupied (hf : (s.as (bits w 32 2) k).openOf x ≠ none) : s.sopen k x = s.asFault (bits w 32 2) k x 0x43 := by
  rw [State.sopen, State.stackOp_passed h ho _ hb hd]
  simp [ht, Option.isSome_iff_ne_none, hf]

variable (hf : (s.as (bits w 32 2) k).openOf x = none) (hu : bits w 36 4 ∉ (s.as (bits w 32 2) k).unread)
include hf hu

theorem State.sopen_overflow {f : Frame} (hfr : f = (s.as (bits w 32 2) k).opening x w)
    (hs : f.segs = 0 ∨ s.areaSegs k < f.start + f.height) : s.sopen k x = s.asFault (bits w 32 2) k x 0x44 := by
  subst hfr
  rw [State.sopen, State.stackOp_passed h ho _ hb hd]
  simp only [ht, hf, hu, List.contains_eq_mem, Option.isSome_none, Bool.not_true, Bool.false_eq_true, decide_false, if_false]
  exact if_pos hs

theorem State.sopen_opens {f : Frame} (hfr : f = (s.as (bits w 32 2) k).opening x w)
    (hs : ¬ (f.segs = 0 ∨ s.areaSegs k < f.start + f.height)) :
    s.sopen k x = (s.openFrame (bits w 32 2) k f).dispatchDone k x w (s.pcOf k x + 1) := by
  subst hfr
  rw [State.sopen, State.stackOp_passed h ho _ hb hd, ← (s.fileFrame_sameSequencers (d := bits w 32 2) (k := k) _).pcOf k x]
  simp only [ht, hf, hu, List.contains_eq_mem, Option.isSome_none, Bool.not_true, Bool.false_eq_true, decide_false, if_false]
  exact if_neg hs

end

/-! ### the answers of SOPEN -/

section
variable {s : State} {k : Fin 16} {x : Strm} {w : Nat}

theorem sopen_raises {code : Nat} (hc : code < 256) (heq : s.sopen k x.num = s.asFault (bits w 32 2) k x.num code) :
    AsRaises (.sopen k x) s (bits w 32 2) k x.num code :=
  asRaises_of_asFault (die_lt w) k.isLt (strmNum_lt x) hc ((exec_sopen k x s).trans (congrArg _ heq))

/-- R153: the frame is filed with its trailer, and SOPEN completes at once. -/
theorem sopen_answers {d : Nat} {f : Frame} (hd : d < 4)
    (heq : s.sopen k x.num = (s.openFrame d k f).dispatchDone k x.num w (s.pcOf k x.num + 1)) (hfit : NoOverflow s k w) :
    Answers (exec (.sopen k x) s) (fun t => (t.as d k).frames = (s.as d k).frames ++ [f] ∧
      DoneAtOnce s t k x.num w (s.pcOf k x.num + 1) ∧ MemoryBut [(s.trailerAddr d k f, 64)] s t ∧
      (Lands s (s.trailerAddr d k f) 64 → TrailerOf t (s.trailerAddr d k f) f) ∧ Apart s t) := by
  have hx := strmNum_lt x
  have hseq := s.openFrame_sameSequencers f hd k.isLt
  have hfit := hseq.noOverflow hfit
  have hdry := (State.dispatchDone_dry k x.num w (s.pcOf k x.num + 1) (.refl (s.openFrame d k f))).same
  refine ⟨_, (exec_sopen k x s).trans (congrArg _ heq), ?_, ?_, ?_, fun hland => ?_, ?_⟩
  · rw [(State.dispatchDone_sameStacks _ hx hfit _).as, State.as_openFrame, Asu.push]
  · exact hseq.doneAtOnce (State.dispatchDone_doneAtOnce _ hx hfit _)
  · exact (s.openFrame_memoryBut f hd k.isLt).trans (hdry.but _)
  · exact (s.openFrame_trailerOf f hd k.isLt hland).congr hdry
  · exact heq ▸ State.sopen_apart k x.num (.refl s)

end

end Sys2Proof.Machine
end

section
/-! PROOFS. SCLOSE and SCLOSE_ISSUE (R129, R156), and the statement of the instructions that open and close frames. -/

namespace Sys2Proof.Machine

theorem bits_lt (x lo n : Nat) : bits x lo n < 2 ^ n := Nat.mod_lt _ (Nat.two_pow_pos n)

/-! ### SCLOSE -/

theorem exec_sclose (k : Fin 16) (x : Strm) (s : State) : exec (.sclose k x) s = .next (s.sclose k x.num) := rfl

section
variable {s : State} {k x w : Nat} (h : Ready s k x w) (ho : opcOf w = 0x19) (hr : bits w 34 94 = 0) (hd : bits w 32 2 ∈ s.diesOf k)
include h ho hr hd

theorem State.sclose_none (hf : (s.as (bits w 32 2) k).openOf x = none) : s.sclose k x = s.asFault (bits w 32 2) k x 0x43 := by
  rw [State.sclose, State.stackOp_passed h ho _ (by simp [hr]) hd]
  simp only [hf]

theorem State.sclose_open {f : Frame} (hf : (s.as (bits w 32 2) k).openOf x = some f) (hu : f.tag ∉ (s.as (bits w 32 2) k).unread)
    (hb : s.bad (s.trailerAddr (bits w 32 2) k f) 64 = false) :
    s.sclose k x = (s.dispatchOut k x w (bits w 32 2) false [] [] 0).bindPush k (frameId (bits w 32 2) f) := by
  rw [State.sclose, State.stackOp_passed h ho _ (by simp [hr]) hd]
  simp only [hf, hu, hb, List.contains_eq_mem, decide_false, Bool.or_self, Bool.false_eq_true, if_false]
  rfl

end

/-- R156: SCLOSE of an open frame is outstanding on the die, bound to that frame. -/
theorem sclose_answers {s : State} {k : Fin 16} {x : Strm} {w : Nat} {d : Nat} {f : Frame}
    (heq : s.sclose k x.num = (s.dispatchOut k x.num w d false [] [] 0).bindPush k (frameId d f)) :
    Answers (exec (.sclose k x) s) (fun t => Dispatched s t k x.num w d false ∧
      (t.q k).outst.getLast?.map (fun o => o.pushTo) = some (frameId d f) ∧ SameMemory s t ∧ Apart s t) := by
  have hx := strmNum_lt x
  have hlast : ((s.dispatchOut k x.num w d false [] [] 0).q k).outst.getLast? = some (s.newOutst k x.num w d false [] [] 0) := by
    rw [State.dispatchOut_outst _ _ hx, List.getLast?_concat]
  refine ⟨_, (exec_sclose k x s).trans (congrArg _ heq), (s.dispatchOut_dispatched k hx w d false [] [] 0).bindPush _,
    State.bindPush_newest hlast (State.dispatchOut_seq _ _ hx ..) _, ?_, heq ▸ State.sclose_apart k x.num (.refl s)⟩
  exact heq ▸ (State.sclose_dry k x.num (.refl s)).same

/-! ### what an ASU issues after dispatch -/

/-- The next instruction that an ASU of the stake issues, of those that meet `p`. -/
def State.issues (s : State) (k : Nat) (p : Outst → Bool) : Option Outst :=
  (List.range 4).findSome? (fun d => (s.nextAsu d k).filter p)

theorem State.issues_unit_lt {s : State} {k : Nat} {p : Outst → Bool} {o : Outst} (h : s.issues k p = some o) : o.unit < 4 := by
  obtain ⟨d, hd, ho⟩ := List.exists_of_findSome?_eq_some h
  have hnext := List.find?_some (Option.eq_some_of_filter_eq_some ho)
  simp only [Outst.onAsu, Bool.and_eq_true, beq_iff_eq] at hnext
  have := List.mem_range.mp hd
  omega

theorem State.issues_none {s : State} {k : Nat} (h : (s.q k).outst = []) (p : Outst → Bool) : s.issues k p = none := by
  simp [State.issues, State.nextAsu, h]

/-! ### SCLOSE_ISSUE -/

theorem exec_scloseIssue (k : Fin 16) (s : State) : exec (.scloseIssue k) s = .next (s.scloseIssue k) := rfl

/-- The frame that an SCLOSE closes: the one that it was bound to, still open in its stream. -/
abbrev Outst.closes (o : Outst) (f : Frame) : Prop := frameId o.unit f = o.pushTo ∧ f.state = o.strm

/-- What the close with number `n` makes of a frame (R156). -/
def Outst.closing (o : Outst) (n : Nat) (f : Frame) : Frame :=
  if o.closes f then { f with state := 2, closedAt := n } else f

theorem Outst.closing_of_closes {o : Outst} {f : Frame} (h : o.closes f) (n : Nat) : o.closing n f = { f with state := 2, closedAt := n } :=
  if_pos h

theorem Outst.closing_other {o : Outst} {f : Frame} (h : ¬ o.closes f) (n : Nat) : o.closing n f = f := if_neg h

theorem Outst.closing_samePlace (o : Outst) (n : Nat) (f : Frame) : f.SamePlace (o.closing n f) := by
  by_cases h : o.closes f
  · rw [o.closing_of_closes h]
    exact ⟨rfl, rfl, rfl⟩
  · rw [o.closing_other h]
    exact ⟨rfl, rfl, rfl⟩

/-- The number of the next close (R162). -/
def Asu.nextClose (c : Asu) : Nat := c.frames.foldl (fun m f => max m f.closedAt) 0 + 1

theorem State.scloseIssue_some {s : State} {k : Nat} {o : Outst} (h : s.issues k (s.scloseReady k) = some o) (hno : s.noIssue k = false) :
    s.scloseIssue k = (s.mapFrames o.unit k (o.closing (s.as o.unit k).nextClose)).complete k o := by
  unfold State.issues at h
  simp only [State.scloseIssue, h, hno, Bool.false_eq_true, if_false]
  rfl

theorem State.scloseIssue_none {s : State} {k : Nat} (h : (s.q k).outst = []) : s.scloseIssue k = s := by
  have h := s.issues_none h (s.scloseReady k)
  unfold State.issues at h
  simp only [State.scloseIssue, h]

/-- R156: the bound frame is closed, and SCLOSE completes. -/
theorem scloseIssue_answers {s : State} {k : Fin 16} {o : Outst} (h : s.issues k (s.scloseReady k) = some o) (hno : s.noIssue k = false)
    (hfit : PostsFit s k o.word) :
    let mine := (s.as o.unit k).frames.filter (fun f => decide (frameId o.unit f = o.pushTo ∧ f.state = o.strm))
    Answers (exec (.scloseIssue k) s) (fun t => Completed s t k o ∧
      (∀ f ∈ mine, ∃ g ∈ (t.as o.unit k).frames, g.tag = f.tag ∧ g.start = f.start ∧ g.segs = f.segs ∧ g.state = 2) ∧
      (t.as o.unit k).frames.length = (s.as o.unit k).frames.length ∧
      MemoryBut (mine.map (fun f => (s.trailerAddr o.unit k f, 64))) s t ∧ Apart s t) := by
  intro mine
  have hd := State.issues_unit_lt h
  generalize hn : (s.as o.unit k).nextClose = n
  have heq := hn ▸ State.scloseIssue_some h hno
  have hseq := s.mapFrames_sameSequencers hd k.isLt (o.closing n)
  have hfit := hseq.postsFit hfit
  have hframes : ((s.scloseIssue k).as o.unit k).frames = (s.as o.unit k).frames.map (o.closing n) := by
    rw [heq, (State.complete_sameStacks hfit).as, State.as_mapFrames]
  refine ⟨_, exec_scloseIssue k s, ?_, fun f hf => ?_, ?_, ?_, State.scloseIssue_apart k (.refl s)⟩
  · rw [heq]
    exact (State.complete_completed hfit).congr hseq (.refl _)
  · obtain ⟨hmem, hclose⟩ := List.mem_filter.mp hf
    refine ⟨o.closing n f, hframes ▸ List.mem_map_of_mem hmem, ?_⟩
    rw [o.closing_of_closes (of_decide_eq_true hclose)]
    exact ⟨rfl, rfl, rfl, rfl⟩
  · rw [hframes, List.length_map]
  · rw [heq]
    refine ((s.mapFrames_memoryBut hd k.isLt (o.closing_samePlace n)).mono (List.map_subset _ fun f hf => ?_)).trans
      ((State.complete_dry k o (.refl _)).same.but _)
    obtain ⟨hmem, hchange⟩ := List.mem_filter.mp hf
    have hclose : o.closes f := by
      by_contra hc
      simp [o.closing_other hc] at hchange
    exact List.mem_filter.mpr ⟨hmem, decide_eq_true hclose⟩

end Sys2Proof.Machine

open Sys2Proof Sys2Proof.Machine in
/-- Settles O19: SOPEN by its checks in their order, SCLOSE by the frame that its stream has open, SCLOSE_ISSUE by what is to issue. -/
theorem framesOpenAndClose : Obligations.FramesOpenAndClose := by
  intro s k
  refine ⟨fun x w h ho => ⟨?_, ?_, ?_⟩, fun x w h ho hr hd => ⟨fun hf => ?_, fun f hf hu hb => ?_⟩,
    fun o hs hno hfit => scloseIssue_answers hs hno hfit, fun hout => congrArg _ (State.scloseIssue_none hout)⟩
  · exact fun hb => sopen_raises (by decide) (State.sopen_reserved h ho hb)
  · exact fun hb hd => sopen_raises (by decide) (State.sopen_foreign h ho hb hd)
  · intro hb hd
    refine ⟨fun ht => sopen_raises (by decide) (State.sopen_closedTag h ho hb hd ht),
      fun ht hf => sopen_raises (by decide) (State.sopen_occupied h ho hb hd ht hf), fun f hfr ht hf hu => ⟨fun hs => ?_, fun hs hroom hfit => ?_⟩⟩
    · exact sopen_raises (by decide) (State.sopen_overflow h ho hb hd ht hf hu hfr hs)
    · obtain ⟨t, hexec, hframes, hdone, hmem, htrailer, hapart⟩ :=
        sopen_answers (die_lt w) (State.sopen_opens h ho hb hd ht hf hu hfr (by omega)) hfit
      refine ⟨t, hexec, hframes, hdone, hmem, fun hland => ?_, hapart⟩
      obtain ⟨hlabel, hfmt, hstate, hsegs, hstart⟩ := htrailer hland
      have hx := strmNum_lt x
      obtain ⟨hl, hm, hst, hsg⟩ : f.label < 2 ^ 16 ∧ f.fmt < 2 ^ 6 ∧ f.state < 3 ∧ f.segs < 2 ^ 32 :=
        hfr ▸ ⟨bits_lt w 48 16, bits_lt w 40 6, hx, bits_lt w 64 32⟩
      have hstrm : f.state = x.num := hfr ▸ rfl
      exact ⟨by omega, by omega, by omega, by omega, hstart⟩
  · exact (asRaises_of_asFault (die_lt w) k.isLt (strmNum_lt x) (by decide)
      ((exec_sclose k x s).trans (congrArg _ (State.sclose_none h ho hr hd hf)))).record
  · exact sclose_answers (State.sclose_open h ho hr hd hf hu hb)

end

section
/-! PROOFS. SPOP (R157, R162): its checks in their order, and the frame that it raises. -/

namespace Sys2Proof.Machine

theorem exec_spop (k : Fin 16) (s : State) : exec (.spop k) s = .next (s.spop k) := rfl

/-- The closed frames of a tag, topmost last. -/
def Asu.closedOf (c : Asu) (t : Nat) : List Frame := c.frames.filter (fun f => f.tag == t && f.state == 2)

/-- Two frames with the tag and START of one. -/
abbrev Frame.Same (f g : Frame) : Prop := g.tag = f.tag ∧ g.start = f.start

/-- What SPOP of `f` into slot `n` makes of a frame, `pf` being prefetched (R157, R162). -/
def Frame.raising (f : Frame) (n : Nat) (pf : List Frame) (g : Frame) : Frame :=
  if f.Same g then { g with state := 3 + n, pinned := true }
  else if pf.any (fun h => h.tag == g.tag && h.start == g.start) then { g with pinned := true } else g

section
variable {f g : Frame} (n : Nat) (pf : List Frame)

theorem Frame.raising_same (h : f.Same g) : f.raising n pf g = { g with state := 3 + n, pinned := true } := if_pos h

theorem Frame.raising_state_other (h : ¬ f.Same g) : (f.raising n pf g).state = g.state := by
  rw [Frame.raising, if_neg h]
  split <;> rfl

theorem Frame.raising_samePlace : g.SamePlace (f.raising n pf g) := by
  unfold Frame.raising
  split
  · exact ⟨rfl, rfl, rfl⟩
  · split <;> exact ⟨rfl, rfl, rfl⟩

end

/-- A slot that was empty holds the frame raised into it. -/
theorem slotOf_raising {c c' : Asu} {f : Frame} {n : Nat} {pf : List Frame} (hf : f ∈ c.frames) (hslot : c.slotOf n = none)
    (hc : c'.frames = c.frames.map (f.raising n pf)) : (c'.slotOf n).map (fun g => (g.tag, g.start)) = some (f.tag, f.start) := by
  have hfree : ∀ g ∈ c.frames, g.state ≠ 3 + n := fun g hg => by simpa using List.find?_eq_none.mp hslot g hg
  cases hfind : c'.slotOf n with
  | none =>
    have hmem : f.raising n pf f ∈ c'.frames := hc ▸ List.mem_map_of_mem hf
    have hstate : (f.raising n pf f).state = 3 + n := by rw [Frame.raising_same n pf ⟨rfl, rfl⟩]
    exact absurd hstate (by simpa using List.find?_eq_none.mp hfind _ hmem)
  | some r =>
    have hr : r ∈ c.frames.map (f.raising n pf) := hc ▸ List.mem_of_find?_eq_some hfind
    obtain ⟨g, hg, rfl⟩ := List.mem_map.mp hr
    have hstate : (f.raising n pf g).state = 3 + n := by simpa using List.find?_some hfind
    by_cases hsame : f.Same g
    · rw [Frame.raising_same n pf hsame, Option.map_some, hsame.1, hsame.2]
    · exact absurd ((f.raising_state_other n pf hsame).symm.trans hstate) (hfree g hg)

/-! ### a frame raised -/

/-- The state in which a frame has been raised into slot `n`, with `pf` prefetched and the segments `need` to be fetched. -/
def State.raiseFrame (s : State) (d k : Nat) (f : Frame) (n : Nat) (pf : List Frame) (need : List (Nat × Nat)) : State :=
  let u := s.mapFrames d k (f.raising n pf)
  if (u.stake k).spad = 0 then u else u.setAs d k { u.as d k with xferq := (u.as d k).xferq ++ need }

section
variable (s : State) {d k : Nat} (f : Frame) (n : Nat) (pf : List Frame) (need : List (Nat × Nat))

theorem State.frames_raiseFrame : ((s.raiseFrame d k f n pf need).as d k).frames = (s.as d k).frames.map (f.raising n pf) := by
  unfold State.raiseFrame
  dsimp only
  split
  · rw [State.as_mapFrames]
  · rw [State.as_setAs_same, State.as_mapFrames]

theorem State.raiseFrame_asuOnly :
    AsuOnly (s.mapFrames d k (f.raising n pf)) (s.raiseFrame d k f n pf need) := by
  unfold State.raiseFrame
  dsimp only
  split
  · exact .refl _
  · exact (AsuOnly.refl _).setAs d k _

variable (hd : d < 4) (hk : k < 16)
include hd hk

theorem State.raiseFrame_sameSequencers : SameSequencers s (s.raiseFrame d k f n pf need) :=
  (s.mapFrames_sameSequencers hd hk _).trans (s.raiseFrame_asuOnly f n pf need).sameSequencers

/-- The trailer of the raised frame is rewritten, and no other. -/
theorem State.raiseFrame_memoryBut :
    MemoryBut (((s.as d k).frames.filter (fun g => g.tag == f.tag && g.start == f.start)).map (fun g => (s.trailerAddr d k g, 64))) s
      (s.raiseFrame d k f n pf need) := by
  refine ((s.mapFrames_memoryBut hd hk (fun g => f.raising_samePlace n pf)).mono (List.map_subset _ fun g hg => ?_)).trans
    ((s.raiseFrame_asuOnly f n pf need).dry.same.but _)
  obtain ⟨hmem, hchange⟩ := List.mem_filter.mp hg
  have hsame : f.Same g := by
    by_contra hc
    simp [f.raising_state_other n pf hc] at hchange
  exact List.mem_filter.mpr ⟨hmem, by simpa using hsame⟩

end

/-! ### the checks of SPOP -/

section
variable {s : State} {k w : Nat} (h : Ready s k 1 w) (ho : opcOf w = 0x1A) (hr : bits w 34 2 = 0 ∧ bits w 40 6 = 0 ∧ bits w 64 64 = 0)
  (hd : bits w 32 2 ∈ s.diesOf k) (hu : bits w 36 4 ∉ (s.as (bits w 32 2) k).unread)
include h ho hr hd hu

theorem State.spop_empty (hf : (s.as (bits w 32 2) k).closedOf (bits w 36 4) = []) : s.spop k = s.asFault (bits w 32 2) k 1 0x46 := by
  unfold Asu.closedOf at hf
  rw [State.spop, State.stackOp_passed h ho _ (by simp [hr]) hd]
  simp only [hf, List.getLast?_nil, hu, List.contains_eq_mem, decide_false, Bool.false_eq_true, if_false]

variable {f : Frame} (hf : ((s.as (bits w 32 2) k).closedOf (bits w 36 4)).getLast? = some f)
include hf

theorem State.spop_occupied {g : Frame} (hg : (s.as (bits w 32 2) k).slotOf (bits w 46 1) = some g) :
    s.spop k = if g.dropping then s else s.asFault (bits w 32 2) k 1 0x43 := by
  unfold Asu.closedOf at hf
  rw [State.spop, State.stackOp_passed h ho _ (by simp [hr]) hd]
  simp only [hf, hu, hg, List.contains_eq_mem, decide_false, Bool.false_eq_true, if_false]

variable (hslot : (s.as (bits w 32 2) k).slotOf (bits w 46 1) = none)
include hslot

theorem State.spop_misordered (hl : w.testBit 47 = true) (hne : f.label ≠ bits w 48 16) :
    s.spop k = s.asFault (bits w 32 2) k 1 0x47 := by
  unfold Asu.closedOf at hf
  rw [State.spop, State.stackOp_passed h ho _ (by simp [hr]) hd]
  simp only [hf, hu, hslot, bit, hl, hne, List.contains_eq_mem, decide_false, Bool.false_eq_true, if_false, ne_eq, not_false_iff,
    decide_true, Bool.and_self, if_true]

theorem State.spop_raises (hk : k < 16) (hl : w.testBit 47 = false ∨ f.label = bits w 48 16)
    (hb : s.bad (s.trailerAddr (bits w 32 2) k f) 64 = false) : ∃ pf need,
      s.spop k = (s.raiseFrame (bits w 32 2) k f (bits w 46 1) pf need).dispatchDone k 1 w (s.pcOf k 1 + 1) := by
  unfold Asu.closedOf at hf
  have hlabel : (bit w 47 && decide (f.label ≠ bits w 48 16)) = false := by
    rcases hl with hl | hl <;> simp [bit, hl]
  have heq : ∀ pf need, (s.raiseFrame (bits w 32 2) k f (bits w 46 1) pf need).dispatchDone k 1 w (s.pcOf k 1 + 1) =
      (s.raiseFrame (bits w 32 2) k f (bits w 46 1) pf need).dispatchDone k 1 w
        ((s.raiseFrame (bits w 32 2) k f (bits w 46 1) pf need).pcOf k 1 + 1) :=
    fun pf need => by rw [(s.raiseFrame_sameSequencers f _ pf need (die_lt w) hk).pcOf]
  simp only [heq]
  rw [State.spop, State.stackOp_passed h ho _ (by simp [hr]) hd]
  simp only [hf, hu, hslot, hlabel, hb, List.contains_eq_mem, decide_false, Bool.false_eq_true, if_false]
  exact ⟨_, _, rfl⟩

end

/-- R157: the frame is raised into its slot, and SPOP completes at once. -/
theorem spop_answers {s : State} {k : Fin 16} {w d n : Nat} {f : Frame} {pf : List Frame} {need : List (Nat × Nat)} (hd : d < 4)
    (hf : f ∈ (s.as d k).frames) (hslot : (s.as d k).slotOf n = none)
    (heq : s.spop k = (s.raiseFrame d k f n pf need).dispatchDone k 1 w (s.pcOf k 1 + 1)) (hfit : NoOverflow s k w) :
    Answers (exec (.spop k) s) (fun t => ((t.as d k).slotOf n).map (fun g => (g.tag, g.start)) = some (f.tag, f.start) ∧
      (t.as d k).frames.length = (s.as d k).frames.length ∧ DoneAtOnce s t k 1 w (s.pcOf k 1 + 1) ∧
      MemoryBut (((s.as d k).frames.filter (fun g => g.tag == f.tag && g.start == f.start)).map (fun g => (s.trailerAddr d k g, 64))) s t ∧
      Apart s t) := by
  have hseq := s.raiseFrame_sameSequencers f n pf need hd k.isLt
  have hfit := hseq.noOverflow hfit
  have hframes : ((s.spop k).as d k).frames = (s.as d k).frames.map (f.raising n pf) := by
    rw [heq, (State.dispatchDone_sameStacks _ (by decide) hfit _).as, State.frames_raiseFrame]
  refine ⟨_, exec_spop k s, slotOf_raising hf hslot hframes, by rw [hframes, List.length_map], ?_, ?_, State.spop_apart k (.refl s)⟩
  · rw [heq]
    exact hseq.doneAtOnce (State.dispatchDone_doneAtOnce _ (by decide) hfit _)
  · rw [heq]
    exact (s.raiseFrame_memoryBut f n pf need hd k.isLt).trans ((State.dispatchDone_dry k 1 w _ (.refl _)).same.but _)

end Sys2Proof.Machine
end

section
/-! PROOFS. SBIND (R160): its checks, the addresses that it stores, and the segments that leave the pool. -/

namespace Sys2Proof.Machine

theorem exec_sbind (k : Fin 16) (s : State) : exec (.sbind k) s = .next (s.sbind k) := rfl

/-! ### a frame bound -/

/-- A context without the segments of a frame. -/
def Asu.without (c : Asu) (f : Frame) : Asu :=
  { c with pool := c.pool.filter (fun p => !(f.parts.contains p))
           near := c.near.filter (fun p => !(f.parts.contains (p.1, p.2.1)))
           pushq := c.pushq.filter (fun p => !(f.parts.contains p))
           xferq := c.xferq.filter (fun p => !(f.parts.contains p)) }

theorem Asu.mem_pool_without {c : Asu} {f : Frame} {p : Nat × Nat} : p ∈ (c.without f).pool ↔ p ∈ c.pool ∧ p ∉ f.parts := by
  simp [Asu.without, List.mem_filter]

/-- What SBIND of `f` makes of a frame. -/
def Frame.binding (f g : Frame) : Frame := if g.state = f.state then { g with bound := true } else g

theorem Frame.binding_state (f g : Frame) : (f.binding g).state = g.state := by
  unfold Frame.binding
  split <;> rfl

/-- The state in which a frame's segments have left the pool and it is bound, `n` spills counted. -/
def State.bindFrame (s : State) (d k : Nat) (f : Frame) (n : Nat) : State :=
  ((s.count (R.asuSCntSpill d k) n).setAs d k ((s.as d k).without f)).mapFrames d k f.binding

/-- The two addresses that SBIND stores (R160). -/
def State.boundAddrs (s : State) (d k : Nat) (f : Frame) : List Byte :=
  toBytes 8 (s.frameBase d k f) ++ toBytes 8 (if f.scaled then s.scaleBase d k f else 0)

theorem State.length_boundAddrs (s : State) (d k : Nat) (f : Frame) : (s.boundAddrs d k f).length = 16 := by
  simp [State.boundAddrs, length_toBytes]

section
variable (s : State) {d k : Nat} (f : Frame) (n : Nat)

theorem State.as_bindFrame : (s.bindFrame d k f n).as d k =
    { (s.as d k).without f with frames := ((s.as d k).without f).frames.map f.binding } := by
  rw [State.bindFrame, State.as_mapFrames, State.as_setAs_same]

theorem State.areas_bindFrame : ((s.bindFrame d k f n).as d k).areas = (s.as d k).areas := by
  rw [State.as_bindFrame, Asu.without]

variable (hd : d < 4) (hk : k < 16)
include hd hk

theorem State.bindFrame_asuOnly : AsuOnly s (s.bindFrame d k f n) := by
  have hbefore := ((AsuOnly.refl s).count (asuReg_asuSCntSpill hd hk) n).setAs d k ((s.as d k).without f)
  have hmap := State.mapFrames_asuOnly ((s.count (R.asuSCntSpill d k) n).setAs d k ((s.as d k).without f)) hd hk
    (g := f.binding) fun g _ => f.binding_state g
  exact hbefore.trans hmap

theorem State.boundAddrs_bindFrame (g : Frame) : (s.bindFrame d k f n).boundAddrs d k g = s.boundAddrs d k g := by
  have hbase := State.tagBase_congr (s.bindFrame_asuOnly f n hd hk).weave (s.areas_bindFrame f n) g.tag
  simp only [State.boundAddrs, State.scaleBase, State.frameBase, hbase]

end

/-- The addresses stored read back as two numbers. -/
theorem State.num_boundAddrs {s u : State} {d k a : Nat} {f : Frame} (h : Lands u a 16) :
    (u.wr a (s.boundAddrs d k f)).num a 8 = s.frameBase d k f % 2 ^ 64 ∧
      (u.wr a (s.boundAddrs d k f)).num (a + 8) 8 = if f.scaled then s.scaleBase d k f % 2 ^ 64 else 0 := by
  have hdata := State.num_wr_append (s := u) (a := a) (p := []) (n := 8) (v := s.frameBase d k f)
    (q := toBytes 8 (if f.scaled then s.scaleBase d k f else 0)) (by simpa [length_toBytes] using h)
  have hscale := State.num_wr_append (s := u) (a := a) (p := toBytes 8 (s.frameBase d k f)) (n := 8)
    (v := if f.scaled then s.scaleBase d k f else 0) (q := []) (by simpa [length_toBytes] using h)
  rw [List.nil_append, List.length_nil, Nat.add_zero] at hdata
  rw [List.append_nil, length_toBytes] at hscale
  refine ⟨hdata, hscale.trans ?_⟩
  split
  · rfl
  · rfl

/-! ### the checks of SBIND -/

section
variable {s : State} {k w : Nat} (h : Ready s k 1 w) (ho : opcOf w = 0x1C)
  (hr : bits w 34 12 = 0 ∧ bits w 47 17 = 0 ∧ bits w 116 12 = 0) (hd : bits w 32 2 ∈ s.diesOf k)
include h ho hr hd

theorem State.sbind_empty (hf : (s.as (bits w 32 2) k).slotOf (bits w 46 1) = none) :
    s.sbind k = s.asFault (bits w 32 2) k 1 0x48 := by
  rw [State.sbind, State.stackOp_passed h ho _ (by simp [hr]) hd]
  simp only [hf]

variable {f : Frame} (hf : (s.as (bits w 32 2) k).slotOf (bits w 46 1) = some f)
include hf

theorem State.sbind_invalid (hbad : f.dropping = true ∨ bits w 64 52 % 64 ≠ 0 ∨ s.inStake k (bits w 64 52) 16 = false) :
    s.sbind k = s.asFault (bits w 32 2) k 1 0x48 := by
  have hbad : (f.dropping || decide (bits w 64 52 % 64 ≠ 0) || !(s.inStake k (bits w 64 52) 16)) = true := by
    rcases hbad with hbad | hbad | hbad <;> simp [hbad]
  rw [State.sbind, State.stackOp_passed h ho _ (by simp [hr]) hd]
  simp only [hf, hbad, if_true]

theorem State.sbind_binds (hk : k < 16) (hdrop : f.dropping = false) (hal : bits w 64 52 % 64 = 0)
    (hin : s.inStake k (bits w 64 52) 16 = true) : ∃ n,
    s.sbind k = ((s.bindFrame (bits w 32 2) k f n).wr (bits w 64 52) (s.boundAddrs (bits w 32 2) k f)).dispatchDone k 1 w (s.pcOf k 1 + 1) := by
  have hok : (f.dropping || decide (bits w 64 52 % 64 ≠ 0) || !(s.inStake k (bits w 64 52) 16)) = false := by
    simp [hdrop, hal, hin]
  have heq : ∀ n, ((s.bindFrame (bits w 32 2) k f n).wr (bits w 64 52) (s.boundAddrs (bits w 32 2) k f)).dispatchDone k 1 w (s.pcOf k 1 + 1) =
      ((s.bindFrame (bits w 32 2) k f n).wr (bits w 64 52) ((s.bindFrame (bits w 32 2) k f n).boundAddrs (bits w 32 2) k f)).dispatchDone k 1 w
        (((s.bindFrame (bits w 32 2) k f n).wr (bits w 64 52)
          ((s.bindFrame (bits w 32 2) k f n).boundAddrs (bits w 32 2) k f)).pcOf k 1 + 1) := fun n => by
    rw [s.boundAddrs_bindFrame f n (die_lt w) hk,
      ((s.bindFrame_asuOnly f n (die_lt w) hk).sameSequencers.wr (bits w 64 52) (s.boundAddrs (bits w 32 2) k f)).pcOf]
  simp only [heq]
  rw [State.sbind, State.stackOp_passed h ho _ (by simp [hr]) hd]
  simp only [hf, hok, Bool.false_eq_true, if_false]
  exact ⟨_, rfl⟩

end

/-- R160: the addresses are stored, the frame's segments leave the pool, and SBIND completes at once. -/
theorem sbind_answers {s : State} {k : Fin 16} {w d a n : Nat} {f : Frame} (hd : d < 4)
    (heq : s.sbind k = ((s.bindFrame d k f n).wr a (s.boundAddrs d k f)).dispatchDone k 1 w (s.pcOf k 1 + 1))
    (hfit : NoOverflow s k w) :
    Answers (exec (.sbind k) s) (fun t =>
      (Lands s a 16 → t.num a 8 = s.frameBase d k f % 2 ^ 64 ∧ t.num (a + 8) 8 = if f.scaled then s.scaleBase d k f % 2 ^ 64 else 0) ∧
      MemoryBut [(a, 16)] s t ∧ (∀ p ∈ f.parts, p ∉ (t.as d k).pool) ∧ (∀ p ∈ (t.as d k).pool, p ∈ (s.as d k).pool) ∧
      DoneAtOnce s t k 1 w (s.pcOf k 1 + 1) ∧ Apart s t) := by
  have honly := s.bindFrame_asuOnly f n hd k.isLt
  have hseq := honly.sameSequencers.wr a (s.boundAddrs d k f)
  have hfit := hseq.noOverflow hfit
  have hdry : SameMemory ((s.bindFrame d k f n).wr a (s.boundAddrs d k f)) (s.sbind k) :=
    heq ▸ (State.dispatchDone_dry k 1 w _ (.refl _)).same
  have hwr := (s.bindFrame d k f n).wr_memoryBut a (s.boundAddrs d k f)
  rw [s.length_boundAddrs] at hwr
  have hpool : ((s.sbind k).as d k).pool = ((s.as d k).without f).pool := by
    rw [heq, (State.dispatchDone_sameStacks _ (by decide) hfit _).as, State.wr_as, State.as_bindFrame]
  refine ⟨_, exec_sbind k s, fun hland => ?_, ?_, fun p hp => ?_, fun p hp => ?_, ?_, State.sbind_apart k (.refl s)⟩
  · rw [State.num_congr hdry, State.num_congr hdry]
    exact State.num_boundAddrs ((honly.lands a 16).mpr hland)
  · exact ((honly.dry.same.but _).trans hwr).trans (hdry.but _)
  · rw [hpool]
    exact fun hmem => (Asu.mem_pool_without.mp hmem).2 hp
  · rw [hpool] at hp
    exact (Asu.mem_pool_without.mp hp).1
  · rw [heq]
    exact hseq.doneAtOnce (State.dispatchDone_doneAtOnce _ (by decide) hfit _)

end Sys2Proof.Machine
end

section
/-! PROOFS. SDROP (R159): its checks, and the frame that it marks. -/

namespace Sys2Proof.Machine

theorem exec_sdrop (k : Fin 16) (s : State) : exec (.sdrop k) s = .next (s.sdrop k) := rfl

theorem slotOf_state {c : Asu} {n : Nat} {f : Frame} (h : c.slotOf n = some f) : f.state = 3 + n := by
  simpa using List.find?_some h

/-! ### a frame being dropped -/

/-- What SDROP of slot `n` makes of a frame. -/
def Frame.marking (n : Nat) (f : Frame) : Frame := if f.state = 3 + n then { f with dropping := true } else f

theorem Frame.marking_state (n : Nat) (f : Frame) : (f.marking n).state = f.state := by
  unfold Frame.marking
  split <;> rfl

theorem Frame.marking_dropping {n : Nat} {f : Frame} (h : f.state = 3 + n) : (f.marking n).dropping = true := by
  rw [Frame.marking, if_pos h]

/-- The state in which the frame of slot `n` is being dropped. -/
def State.markDrop (s : State) (d k n : Nat) : State := s.mapFrames d k (Frame.marking n)

theorem State.markDrop_asuOnly (s : State) {d k : Nat} (hd : d < 4) (hk : k < 16) (n : Nat) : AsuOnly s (s.markDrop d k n) :=
  s.mapFrames_asuOnly hd hk fun f _ => f.marking_state n

theorem State.frames_markDrop (s : State) (d k n : Nat) : ((s.markDrop d k n).as d k).frames = (s.as d k).frames.map (Frame.marking n) := by
  rw [State.markDrop, State.as_mapFrames]

/-! ### the checks of SDROP -/

section
variable {s : State} {k w : Nat} (h : Ready s k 1 w) (ho : opcOf w = 0x1B) (hr : bits w 34 12 = 0 ∧ bits w 47 81 = 0)
  (hd : bits w 32 2 ∈ s.diesOf k)
include h ho hr hd

/-- R159: an empty slot, or one whose drop is outstanding. -/
theorem State.sdrop_empty (hf : ∀ f, (s.as (bits w 32 2) k).slotOf (bits w 46 1) = some f → f.dropping = true) :
    s.sdrop k = s.asFault (bits w 32 2) k 1 0x43 := by
  rw [State.sdrop, State.stackOp_passed h ho _ (by simp [hr]) hd]
  cases hslot : (s.as (bits w 32 2) k).slotOf (bits w 46 1) with
  | none => simp only [hslot]
  | some f => simp only [hslot, hf f hslot, if_true]

theorem State.sdrop_marks {f : Frame} (hf : (s.as (bits w 32 2) k).slotOf (bits w 46 1) = some f) (hdrop : f.dropping = false)
    (hu : f.tag ∉ (s.as (bits w 32 2) k).unread) (hb : s.bad (s.trailerAddr (bits w 32 2) k f) 64 = false)
    (hwalk : ∀ g ∈ (s.as (bits w 32 2) k).walked f, s.bad (s.trailerAddr (bits w 32 2) k g) 64 = false) :
    s.sdrop k = (s.markDrop (bits w 32 2) k (bits w 46 1)).dispatchOut k 1 w (bits w 32 2) false [] [] (frameId (bits w 32 2) f) := by
  have hread : (f :: (s.as (bits w 32 2) k).walked f).any (fun g => s.bad (s.trailerAddr (bits w 32 2) k g) 64) = false := by
    simpa [hb] using hwalk
  rw [State.sdrop, State.stackOp_passed h ho _ (by simp [hr]) hd]
  simp only [hf, hdrop, hu, hread, List.contains_eq_mem, decide_false, Bool.or_self, Bool.false_eq_true, if_false]
  rfl

end

/-- R159: SDROP is outstanding on the die, bound to the frame, which is being dropped. -/
theorem sdrop_answers {s : State} {k : Fin 16} {w d n : Nat} {f : Frame} (hd : d < 4)
    (heq : s.sdrop k = (s.markDrop d k n).dispatchOut k 1 w d false [] [] (frameId d f)) :
    Answers (exec (.sdrop k) s) (fun t => Dispatched s t k 1 w d false ∧
      (t.q k).outst.getLast?.map (fun o => o.frame) = some (frameId d f) ∧
      (∀ g ∈ (t.as d k).frames, g.state = 3 + n → g.dropping = true) ∧ SameMemory s t ∧ Apart s t) := by
  have honly := s.markDrop_asuOnly hd k.isLt n
  refine ⟨_, exec_sdrop k s, ?_, ?_, fun g hg hstate => ?_, ?_, State.sdrop_apart k (.refl s)⟩
  · rw [heq]
    exact honly.sameSequencers.dispatched (State.dispatchOut_dispatched _ k (by decide) w d false [] [] _)
  · rw [heq, State.dispatchOut_outst _ _ (by decide), List.getLast?_concat]
    rfl
  · rw [heq, (State.dispatchOut_sameStacks _ k (by decide) w d false [] [] _).as, State.frames_markDrop] at hg
    obtain ⟨e, _, rfl⟩ := List.mem_map.mp hg
    exact Frame.marking_dropping ((e.marking_state n).symm.trans hstate)
  · rw [heq]
    exact (State.dispatchOut_dry k 1 w d false [] [] _ honly.dry).same

end Sys2Proof.Machine
end

section
/-! PROOFS. SDROP_ISSUE (R129, R159): the slot that empties and the frames that are freed, and the statement of the instructions that
raise, bind and drop frames. -/

namespace Sys2Proof.Machine

theorem exec_sdropIssue (k : Fin 16) (s : State) : exec (.sdropIssue k) s = .next (s.sdropIssue k) := rfl

/-! ### frames freed from the top of a tag -/

/-- The frames of a tag that stay: those up to the topmost that is not dropped. -/
def keptFrames (fs : List Frame) (t : Nat) : List Frame := (fs.filter (fun f => f.tag == t)).rdropWhile (fun f => f.state == 5)

theorem freeTop_eq (fs : List Frame) (t : Nat) :
    freeTop fs t = fs.filter (fun f => f.tag != t || (keptFrames fs t).any (fun g => g.start == f.start)) := by
  simp only [freeTop, keptFrames, List.rdropWhile, List.any_reverse]

theorem mem_freeTop_other {fs : List Frame} {t : Nat} {f : Frame} (hf : f ∈ fs) (ht : f.tag ≠ t) : f ∈ freeTop fs t := by
  rw [freeTop_eq]
  exact List.mem_filter.mpr ⟨hf, by simp [ht]⟩

theorem freeTop_subset (fs : List Frame) (t : Nat) : freeTop fs t ⊆ fs := by
  rw [freeTop_eq]
  exact List.filter_sublist.subset

/-- Where no two frames share tag and START, exactly those of the tag stay. -/
theorem filter_freeTop {fs : List Frame} (t : Nat) (h : (fs.map (fun f => (f.tag, f.start))).Nodup) :
    (freeTop fs t).filter (fun f => f.tag == t) = keptFrames fs t := by
  have hsplit : keptFrames fs t ++ (fs.filter (fun f => f.tag == t)).rtakeWhile (fun f => f.state == 5) =
      fs.filter (fun f => f.tag == t) := List.rdropWhile_append_rtakeWhile ..
  have htag : ∀ f ∈ fs.filter (fun f => f.tag == t), f.tag = t := fun f hf => by simpa using (List.mem_filter.mp hf).2
  have hnodup := h.sublist (List.filter_sublist.map (l₁ := fs.filter (fun f => f.tag == t)) _)
  rw [← hsplit, List.map_append, List.nodup_append] at hnodup
  obtain ⟨-, -, hdisj⟩ := hnodup
  rw [← hsplit] at htag
  have hsame : (freeTop fs t).filter (fun f => f.tag == t) =
      (fs.filter (fun f => f.tag == t)).filter (fun f => (keptFrames fs t).any (fun g => g.start == f.start)) := by
    rw [freeTop_eq, List.filter_filter, List.filter_filter]
    refine List.filter_congr fun f _ => ?_
    cases hf : f.tag == t <;> simp [bne, hf]
  rw [hsame]
  conv_lhs => rw [← hsplit]
  rw [List.filter_append, List.filter_eq_self.mpr, List.filter_eq_nil_iff.mpr, List.append_nil]
  · intro f hf hany
    obtain ⟨g, hg, hstart⟩ := List.any_eq_true.mp hany
    refine hdisj _ (List.mem_map_of_mem hg) _ (List.mem_map_of_mem hf) (Prod.ext ?_ (beq_iff_eq.mp hstart))
    rw [htag g (List.mem_append_left _ hg), htag f (List.mem_append_right _ hf)]
  · exact fun f hf => List.any_eq_true.mpr ⟨f, hf, beq_self_eq_true _⟩

/-- No dropped frame stays on top of the tag (R159). -/
theorem freeTop_top {fs : List Frame} {t : Nat} (h : (fs.map (fun f => (f.tag, f.start))).Nodup) {g : Frame}
    (hg : ((freeTop fs t).filter (fun f => f.tag == t)).getLast? = some g) : g.state ≠ 5 := by
  rw [filter_freeTop t h] at hg
  have hne : keptFrames fs t ≠ [] := List.ne_nil_of_mem (List.mem_of_getLast? hg)
  have hlast := List.rdropWhile_last_not (fun f : Frame => f.state == 5) _ hne
  rw [List.getLast?_eq_some_getLast hne, Option.some_inj] at hg
  rw [← hg]
  exact fun hstate => hlast (beq_iff_eq.mpr hstate)

/-! ### a frame dropped -/

/-- What the end of slot `n`'s drop makes of a frame. -/
def Frame.dropped (n : Nat) (f : Frame) : Frame :=
  if f.state = 3 + n then { f with state := 5, dropping := false, pinned := false } else f

theorem Frame.dropped_other {n : Nat} {f : Frame} (h : f.state ≠ 3 + n) : f.dropped n = f := if_neg h

theorem Frame.dropped_samePlace (n : Nat) (f : Frame) : f.SamePlace (f.dropped n) := by
  unfold Frame.dropped
  split <;> exact ⟨rfl, rfl, rfl⟩

theorem Frame.dropped_state_ne {n : Nat} (hn : n < 2) (f : Frame) : (f.dropped n).state ≠ 3 + n := by
  unfold Frame.dropped
  split
  · show 5 ≠ 3 + n
    omega
  · assumption

/-- The frames that an SDROP of slot `n`, whose frame has tag `t`, leaves of a context. -/
def Asu.framesAfter (c : Asu) (n t : Nat) : List Frame := freeTop (c.frames.map (Frame.dropped n)) t

section
variable {c : Asu} {n t : Nat}

theorem Asu.mem_framesAfter_other {g : Frame} (hg : g ∈ c.frames) (htag : g.tag ≠ t) (hstate : g.state ≠ 3 + n) :
    g ∈ c.framesAfter n t :=
  mem_freeTop_other (List.mem_map.mpr ⟨g, hg, Frame.dropped_other hstate⟩) htag

theorem Asu.slotOf_framesAfter {c' : Asu} (hn : n < 2) (hc : c'.frames = c.framesAfter n t) : c'.slotOf n = none := by
  refine List.find?_eq_none.mpr fun g hg => ?_
  rw [hc] at hg
  obtain ⟨f, _, rfl⟩ := List.mem_map.mp (freeTop_subset _ _ hg)
  simpa using f.dropped_state_ne hn

theorem Asu.framesAfter_top (h : (c.frames.map (fun f => (f.tag, f.start))).Nodup) {g : Frame}
    (hg : ((c.framesAfter n t).filter (fun f => f.tag == t)).getLast? = some g) : g.state ≠ 5 := by
  refine freeTop_top ?_ hg
  rw [List.map_map]
  have hplace : (fun f : Frame => (f.tag, f.start)) ∘ Frame.dropped n = fun f => (f.tag, f.start) :=
    funext fun f => by
      obtain ⟨htag, hstart, -⟩ := f.dropped_samePlace n
      exact Prod.ext htag hstart
  rwa [hplace]

end

/-- The state in which the frame of slot `n`, of tag `t`, is dropped and frames are freed. -/
def State.dropFrame (s : State) (d k n t : Nat) : State :=
  ((s.mapFrames d k (Frame.dropped n)).setAs d k (((s.mapFrames d k (Frame.dropped n)).as d k).keepFrames
    (freeTop ((s.mapFrames d k (Frame.dropped n)).as d k).frames t))).syncAsu d k

section
variable (s : State) {d k n t : Nat}

theorem State.frames_dropFrame : ((s.dropFrame d k n t).as d k).frames = (s.as d k).framesAfter n t := by
  rw [State.dropFrame, State.as_syncAsu, State.as_setAs_same, State.as_mapFrames, Asu.keepFrames, Asu.framesAfter]

variable (hd : d < 4) (hk : k < 16)
include hd hk

theorem State.dropFrame_asuOnly : AsuOnly (s.mapFrames d k (Frame.dropped n)) (s.dropFrame d k n t) :=
  ((AsuOnly.refl _).setAs d k _).syncAsu hd hk

theorem State.dropFrame_sameSequencers : SameSequencers s (s.dropFrame d k n t) :=
  (s.mapFrames_sameSequencers hd hk _).trans (State.dropFrame_asuOnly s hd hk).sameSequencers

/-- Only the trailers of the slot's frames are rewritten. -/
theorem State.dropFrame_memoryBut :
    MemoryBut (((s.as d k).frames.filter (fun f => f.state == 3 + n)).map (fun f => (s.trailerAddr d k f, 64))) s
      (s.dropFrame d k n t) := by
  refine ((s.mapFrames_memoryBut hd hk (Frame.dropped_samePlace n)).mono (List.map_subset _ fun f hf => ?_)).trans
    ((State.dropFrame_asuOnly s hd hk).dry.same.but _)
  obtain ⟨hmem, hchange⟩ := List.mem_filter.mp hf
  have hstate : f.state = 3 + n := by
    by_contra hc
    simp [Frame.dropped_other hc] at hchange
  exact List.mem_filter.mpr ⟨hmem, by simpa using hstate⟩

end

/-! ### SDROP_ISSUE -/

section
variable {s : State} {k : Nat}

theorem State.sdropIssue_some {o : Outst} (h : s.issues k (s.sdropReady k) = some o) (hno : s.noIssue k = false) {f : Frame}
    (hf : (s.as o.unit k).slotOf (bits o.word 46 1) = some f) :
    s.sdropIssue k = (s.dropFrame o.unit k (bits o.word 46 1) f.tag).complete k o := by
  unfold State.issues at h
  simp only [State.sdropIssue, h, hno, hf, Bool.false_eq_true, if_false]
  rfl

theorem State.sdropIssue_none (h : (s.q k).outst = []) : s.sdropIssue k = s := by
  have h := s.issues_none h (s.sdropReady k)
  unfold State.issues at h
  simp only [State.sdropIssue, h]

end

/-- R159: the slot empties, dropped frames on top of its tag are freed, and SDROP completes. -/
theorem sdropIssue_answers {s : State} {k : Fin 16} {o : Outst} (h : s.issues k (s.sdropReady k) = some o) (hno : s.noIssue k = false)
    {f : Frame} (hf : (s.as o.unit k).slotOf (bits o.word 46 1) = some f) (hfit : PostsFit s k o.word)
    (hnodup : ((s.as o.unit k).frames.map (fun f => (f.tag, f.start))).Nodup) :
    Answers (exec (.sdropIssue k) s) (fun t =>
      (t.as o.unit k).slotOf (bits o.word 46 1) = none ∧
      (∀ g, ((t.as o.unit k).frames.filter (fun g => g.tag == f.tag)).getLast? = some g → g.state ≠ 5) ∧
      (∀ g ∈ (s.as o.unit k).frames, g.tag ≠ f.tag → g.state ≠ f.state → g ∈ (t.as o.unit k).frames) ∧
      MemoryBut (((s.as o.unit k).frames.filter (fun g => g.state == f.state)).map (fun g => (s.trailerAddr o.unit k g, 64))) s t ∧
      Completed s t k o ∧ Apart s t) := by
  have hd := State.issues_unit_lt h
  have heq := State.sdropIssue_some h hno hf
  have hstate := slotOf_state hf
  have hseq := s.dropFrame_sameSequencers (n := bits o.word 46 1) (t := f.tag) hd k.isLt
  have hfit := hseq.postsFit hfit
  have hframes : ((s.sdropIssue k).as o.unit k).frames = (s.as o.unit k).framesAfter (bits o.word 46 1) f.tag := by
    rw [heq, (State.complete_sameStacks hfit).as, State.frames_dropFrame]
  refine ⟨_, exec_sdropIssue k s, Asu.slotOf_framesAfter (bits_lt _ _ _) hframes, fun g hg => ?_, fun g hg htag hne => ?_, ?_, ?_,
    State.sdropIssue_apart k (.refl s)⟩
  · rw [hframes] at hg
    exact Asu.framesAfter_top hnodup hg
  · rw [hframes]
    exact Asu.mem_framesAfter_other hg htag (hstate ▸ hne)
  · rw [heq, hstate]
    exact (s.dropFrame_memoryBut hd k.isLt).trans ((State.complete_dry k o (.refl _)).same.but _)
  · rw [heq]
    exact (State.complete_completed hfit).congr hseq (.refl _)

end Sys2Proof.Machine

open Sys2Proof Sys2Proof.Machine in
/-- Settles O20: SPOP, SBIND and SDROP by their checks in their order, SDROP_ISSUE by what is to issue. -/
theorem framesPopBindDrop : Obligations.FramesPopBindDrop := by
  refine ⟨fun s k w h => ⟨fun ho hr34 hr40 hr64 hd hu => ⟨fun hf => ?_, fun f g hf hg => ⟨fun hdrop => ?_, fun hdrop => ?_⟩,
      fun f hf hslot => ⟨fun hl hne => ?_, fun hl hb hfit => ?_⟩⟩,
    fun ho hr34 hr47 hr116 hd => ⟨fun hf => ?_, fun f hf hbad => ?_, fun f hf hdrop hal hin hfit => ?_⟩⟩,
    fun s k => ⟨fun w h ho hr34 hr47 hd => ⟨fun hf => ?_, fun f hf hdrop hu hb hwalk => ?_⟩,
      fun o hs hno f hf hfit hnodup => sdropIssue_answers hs hno hf hfit hnodup, fun hout => congrArg _ (State.sdropIssue_none hout)⟩⟩
  · exact asRaises_of_asFault (die_lt w) k.isLt (by decide) (by decide)
      ((exec_spop k s).trans (congrArg _ (State.spop_empty h ho ⟨hr34, hr40, hr64⟩ hd hu hf)))
  · exact asRaises_of_asFault (die_lt w) k.isLt (by decide) (by decide) ((exec_spop k s).trans (congrArg _
      ((State.spop_occupied h ho ⟨hr34, hr40, hr64⟩ hd hu hf hg).trans (if_neg (by simp [hdrop])))))
  · exact (exec_spop k s).trans (congrArg _
      ((State.spop_occupied h ho ⟨hr34, hr40, hr64⟩ hd hu hf hg).trans (if_pos hdrop)))
  · exact asRaises_of_asFault (die_lt w) k.isLt (by decide) (by decide)
      ((exec_spop k s).trans (congrArg _ (State.spop_misordered h ho ⟨hr34, hr40, hr64⟩ hd hu hf hslot hl hne)))
  · obtain ⟨pf, need, heq⟩ := State.spop_raises h ho ⟨hr34, hr40, hr64⟩ hd hu hf hslot k.isLt hl hb
    exact spop_answers (die_lt w) (List.mem_of_mem_filter (List.mem_of_getLast? hf)) hslot heq hfit
  · exact asRaises_of_asFault (die_lt w) k.isLt (by decide) (by decide)
      ((exec_sbind k s).trans (congrArg _ (State.sbind_empty h ho ⟨hr34, hr47, hr116⟩ hd hf)))
  · exact asRaises_of_asFault (die_lt w) k.isLt (by decide) (by decide)
      ((exec_sbind k s).trans (congrArg _ (State.sbind_invalid h ho ⟨hr34, hr47, hr116⟩ hd hf hbad)))
  · obtain ⟨n, heq⟩ := State.sbind_binds h ho ⟨hr34, hr47, hr116⟩ hd hf k.isLt hdrop hal hin
    exact sbind_answers (die_lt w) heq hfit
  · exact (asRaises_of_asFault (die_lt w) k.isLt (by decide) (by decide)
      ((exec_sdrop k s).trans (congrArg _ (State.sdrop_empty h ho ⟨hr34, hr47⟩ hd hf)))).record
  · exact sdrop_answers (die_lt w) (State.sdrop_marks h ho ⟨hr34, hr47⟩ hd hf hdrop hu hb hwalk)

end

section
/-! PROOFS. What errors of the arrays change beside memory and poison (R82, R263, R269): the registers that count and record them. -/

namespace Sys2Proof.Machine

/-- Sequencers and contexts stand, and of the registers only those that count and record errors have changed. -/
structure ErrorsOnly (s t : State) : Prop where
  asu   : t.asu = s.asu
  weave : t.weave = s.weave
  q     : ∀ k, t.q k = s.q k
  regs  : SameRegs errorRegs s t

theorem ErrorsOnly.refl (s : State) : ErrorsOnly s s := ⟨rfl, rfl, fun _ => rfl, fun _ _ => rfl⟩

theorem memEcc_mem_errorRegs {h : Nat} (hh : h < 8) : R.memEcc h ∈ errorRegs :=
  List.mem_append_left _ (List.mem_cons_of_mem _ (List.mem_flatMap.mpr ⟨h, List.mem_range.mpr hh, by simp⟩))

theorem memErrAddr_mem_errorRegs {h : Nat} (hh : h < 8) : R.memErrAddr h ∈ errorRegs :=
  List.mem_append_left _ (List.mem_cons_of_mem _ (List.mem_flatMap.mpr ⟨h, List.mem_range.mpr hh, by simp⟩))

/-- No register of an ASU records errors. -/
theorem AsuReg.not_mem_errorRegs {a : Nat} (h : AsuReg a) : a ∉ errorRegs := by
  obtain ⟨d, hd, hlo, hhi⟩ := h
  unfold R.asuSStatus at hlo hhi
  intro hmem
  rcases List.mem_append.mp hmem with hmem | hmem
  · rcases List.mem_cons.mp hmem with rfl | hmem
    · unfold R.cxtErr at hlo
      omega
    · obtain ⟨h, -, hmem⟩ := List.mem_flatMap.mp hmem
      simp only [List.mem_cons, List.not_mem_nil, or_false, R.memEcc, R.memErrAddr] at hmem
      omega
  · obtain ⟨e, -, rfl⟩ := List.mem_map.mp hmem
    unfold R.mxeEcc at hlo hhi
    omega

/-- The controller of an HBM address. -/
theorem octetOf_lt {a : Nat} (h : isHbm a = true) : octetOf a / 2 < 8 := by
  have h : a < 0x9000000000 := of_decide_eq_true h
  unfold octetOf slabSize
  omega

theorem octetOf_lineOf_lt {a : Nat} (h : isHbm a = true) : octetOf (lineOf a) / 2 < 8 := by
  have h : a < 0x9000000000 := of_decide_eq_true h
  unfold octetOf lineOf slabSize
  omega

theorem spadEng_lt_of_stride {a : Nat} (h : isSpadStride a = true) : spadEng a < 32 := by
  have hb := spad_bounds h
  unfold spadEng spadAll
  omega

section
variable {z s : State} (h : ErrorsOnly z s)
include h

theorem ErrorsOnly.setFld {a : Nat} (ha : a ∈ errorRegs) (f : Fld) (v : Nat) : ErrorsOnly z (s.setFld a f v) :=
  ⟨h.asu, h.weave, h.q, fun b hb => (s.reg_setFld_other (fun e : b = a => hb (e ▸ ha)) f v).trans (h.regs b hb)⟩

theorem ErrorsOnly.addSat {a : Nat} (ha : a ∈ errorRegs) (f : Fld) (n : Nat) : ErrorsOnly z (s.addSat a f n) := h.setFld ha f _

theorem ErrorsOnly.poisonRange (a n : Nat) : ErrorsOnly z (s.poisonRange a n) := by
  unfold State.poisonRange
  split
  · exact h
  · exact ⟨h.asu, h.weave, h.q, h.regs⟩

theorem ErrorsOnly.eccPoison {l : Nat} (hl : octetOf l / 2 < 8) : ErrorsOnly z (s.eccPoison l) := by
  have hcount := (h.poisonRange l 64).addSat (memEcc_mem_errorRegs hl) F.memEccUncorr 1
  unfold State.eccPoison
  dsimp only
  split
  · exact h
  · split
    · exact hcount
    · exact (hcount.setFld (memErrAddr_mem_errorRegs hl) _ _).setFld (memErrAddr_mem_errorRegs hl) _ _

theorem ErrorsOnly.eccRead (a ecc : Nat) : ErrorsOnly z (s.eccRead a ecc) := by
  unfold State.eccRead
  split
  · exact h
  · split
    · split
      · exact h
      · exact h.poisonRange _ _
    · split
      · exact h
      next hhbm =>
        have hhbm : isHbm a = true := by simpa using hhbm
        split
        · exact h.addSat (memEcc_mem_errorRegs (octetOf_lt hhbm)) _ _
        · exact h.eccPoison (octetOf_lineOf_lt hhbm)

theorem ErrorsOnly.spadEcc {a : Nat} (ha : isSpadStride a = true) (ecc : Nat) : ErrorsOnly z (s.spadEcc a ecc) := by
  have hreg := mxeEcc_mem_errorRegs (spadEng_lt_of_stride ha)
  unfold State.spadEcc
  dsimp only
  split
  · exact h
  · split
    · exact h.addSat hreg _ _
    · exact (h.poisonRange _ _).addSat hreg _ _

theorem ErrorsOnly.noteCxl (a n : Nat) (read : Bool) : ErrorsOnly z (s.noteCxl a n read) :=
  ⟨(s.noteCxl_asu a n read).trans h.asu, (s.noteCxl_weave a n read).trans h.weave, fun k => (s.noteCxl_q a n read k).trans (h.q k),
    fun b hb => (s.reg_noteCxl a n b read (fun e => hb (e ▸ cxtErr_mem_errorRegs))).trans (h.regs b hb)⟩

theorem ErrorsOnly.wr (a : Nat) (l : List Byte) : ErrorsOnly z (s.wr a l) :=
  ⟨(s.wr_asu a l).trans h.asu, (s.wr_weave a l).trans h.weave, fun k => (s.wr_q a l k).trans (h.q k),
    fun b hb => (s.reg_wr a b l (fun e => hb (e ▸ cxtErr_mem_errorRegs))).trans (h.regs b hb)⟩

theorem ErrorsOnly.touch (a n : Nat) (own : Option Nat) : ErrorsOnly z (s.touch a n own) := ⟨h.asu, h.weave, h.q, h.regs⟩

theorem ErrorsOnly.wrPoison (a n : Nat) : ErrorsOnly z (s.wrPoison a n) := by
  unfold State.wrPoison
  split
  · exact h.noteCxl _ _ _
  · exact (h.poisonRange _ _).touch _ _ _

theorem ErrorsOnly.copySeg (d k : Nat) (p : Nat × Nat) (a : Nat) : ErrorsOnly z (s.copySeg d k p a) := by
  unfold State.copySeg
  dsimp only
  split
  · exact h.wrPoison _ _
  · exact h.wr _ _

theorem ErrorsOnly.foldl {β : Type} {f : State → β → State} (l : List β) (hf : ∀ u, ∀ b ∈ l, ErrorsOnly z u → ErrorsOnly z (f u b)) :
    ErrorsOnly z (l.foldl f s) :=
  List.foldlRecOn l f (motive := ErrorsOnly z) h (fun u hu b hb => hf u b hb hu)

theorem ErrorsOnly.readErrs (spans : List (Nat × Nat)) (x : Errs) : ErrorsOnly z (s.readErrs spans x) := by
  unfold State.readErrs State.arrayErrs
  refine ErrorsOnly.foldl (h.foldl _ fun u p _ hu => ?_) _ fun u r _ hu => hu.noteCxl _ _ _
  split
  next hspad => exact hu.spadEcc (isSpadStride_of_isSpad hspad) _
  · exact hu.eccRead _ _

theorem ErrorsOnly.poolErrs (d k home : Nat) (x : Errs) : ErrorsOnly z (s.poolErrs d k home x) := by
  unfold State.poolErrs
  refine h.foldl _ fun u p hp hu => ?_
  have hmine := (List.mem_filter.mp hp).2
  simp only [Bool.and_eq_true, State.asuPart] at hmine
  obtain ⟨⟨⟨hspad, -⟩, -⟩, -⟩ := hmine
  dsimp only
  split
  · exact (hu.spadEcc hspad _).poisonRange _ _
  · exact hu.spadEcc hspad _

end

theorem ErrorsOnly.as {s t : State} (h : ErrorsOnly s t) (d k : Nat) : t.as d k = s.as d k := by rw [State.as, h.asu, State.as]

end Sys2Proof.Machine
end

section
/-! PROOFS. Eviction (R162, R163): what writing away the resident segments of a frame leaves, and the near area's bytes. -/

namespace Sys2Proof.Machine

/-- The first byte of the near area of a stake on a die (R163). -/
def State.nearBase (s : State) (d k : Nat) : Nat := s.fld (R.asuSNear d k) F.asuSNearBase * 0x200000

/-- The most segments that the near area has held or may hold. -/
def State.nearMost (s : State) (d k : Nat) : Nat := max (s.nearSegs d k) (s.as d k).near.length

theorem State.reg_count_other (s : State) {a b : Nat} (h : b ≠ a) (n : Nat) : (s.count a n).reg b = s.reg b :=
  s.reg_setReg_other a b _ h

theorem State.reg_count_same (s : State) (a n : Nat) : (s.count a n).reg a = s.reg a + BitVec.ofNat 64 n := s.reg_setReg_same a _

/-- What evictions of a stake on a die have left of `s`: they count spills, keep the near area within its size, and write there only. -/
structure Evicted (d k : Nat) (s t : State) : Prop where
  weave  : t.weave = s.weave
  q      : ∀ i, t.q i = s.q i
  regs   : SameRegs (R.asuSCntSpill d k :: errorRegs) s t
  frames : (t.as d k).frames = (s.as d k).frames
  near   : (t.as d k).near.length ≤ s.nearMost d k
  mem    : MemoryBut [(s.nearBase d k, 4096 * s.nearMost d k)] s t
  still  : s.nearSegs d k = 0 → SameMemory s t

theorem Evicted.refl (d k : Nat) (s : State) : Evicted d k s s :=
  ⟨rfl, fun _ => rfl, fun _ _ => rfl, rfl, le_max_right _ _, fun _ _ => rfl, fun _ _ => rfl⟩

section
variable {d k : Nat} {z s : State} (h : Evicted d k z s)
include h

/-- A context may change beside its frames and the near area, which may lose segments. -/
theorem Evicted.setAs {c : Asu} (hf : c.frames = (s.as d k).frames) (hn : c.near.length ≤ (s.as d k).near.length) :
    Evicted d k z (s.setAs d k c) where
  weave := h.weave
  q := h.q
  regs := h.regs
  frames := by rw [State.as_setAs_same, hf, h.frames]
  near := by
    rw [State.as_setAs_same]
    exact hn.trans h.near
  mem := h.mem
  still := h.still

theorem Evicted.errors {t : State} (he : ErrorsOnly s t) (hm : MemoryBut [(z.nearBase d k, 4096 * z.nearMost d k)] s t)
    (hs : z.nearSegs d k = 0 → SameMemory s t) : Evicted d k z t where
  weave := he.weave.trans h.weave
  q := fun i => (he.q i).trans (h.q i)
  regs := fun a ha => (he.regs a (fun hm => ha (List.mem_cons_of_mem _ hm))).trans (h.regs a ha)
  frames := by rw [he.as, h.frames]
  near := by
    rw [he.as]
    exact h.near
  mem := h.mem.trans hm
  still := fun hz a => (hs hz a).trans (h.still hz a)

theorem Evicted.count (n : Nat) : Evicted d k z (s.count (R.asuSCntSpill d k) n) where
  weave := (s.count_weave _ n).trans h.weave
  q := fun i => (s.count_q _ n i).trans (h.q i)
  regs := fun a ha => (s.reg_count_other (fun e : a = R.asuSCntSpill d k => ha (e ▸ List.mem_cons_self)) n).trans (h.regs a ha)
  frames := by rw [State.count_as, h.frames]
  near := by
    rw [State.count_as]
    exact h.near
  mem := h.mem.trans ((State.count_dry _ n (.refl s)).same.but _)
  still := fun hz a => ((State.count_dry _ n (.refl s)).same a).trans (h.still hz a)

variable (hd : d < 4) (hk : k < 16)
include hd hk

/-- The registers that place the near area stand. -/
theorem Evicted.fld_near {a : Nat} (ha : a = R.asuSNear d k ∨ a = R.asuSNearSize d k) (f : Fld) : s.fld a f = z.fld a f := by
  have hreg : AsuReg a := ⟨d, hd, by rcases ha with rfl | rfl <;> simp only [R.asuSStatus, R.asuSNear, R.asuSNearSize] <;> omega,
    by rcases ha with rfl | rfl <;> simp only [R.asuSStatus, R.asuSNear, R.asuSNearSize] <;> omega⟩
  have hne : a ≠ R.asuSCntSpill d k := by
    rcases ha with rfl | rfl <;> simp only [R.asuSCntSpill, R.asuSNear, R.asuSNearSize] <;> omega
  rw [State.fld, h.regs a (fun hm => (List.mem_cons.mp hm).elim hne hreg.not_mem_errorRegs), State.fld]

theorem Evicted.nearSegs : s.nearSegs d k = z.nearSegs d k := by
  have hstake : s.stake k = z.stake k := by unfold State.stake; rw [h.weave]
  rw [State.nearSegs, hstake, h.fld_near hd hk (.inr rfl), State.nearSegs]

theorem Evicted.nearBase : s.nearBase d k = z.nearBase d k := by
  rw [State.nearBase, h.fld_near hd hk (.inl rfl), State.nearBase]

end

/-! ### one segment -/

/-- What the near area keeps when a segment is written to it: all, or all but the earliest where it is full (R163). -/
def State.nearKept (s : State) (d k : Nat) : List (Nat × Nat × Nat) :=
  if s.nearSegs d k ≤ (s.as d k).near.length then (s.as d k).near.drop 1 else (s.as d k).near

/-- The place in the near area that the next segment takes. -/
def State.nearPlace (s : State) (d k : Nat) : Nat :=
  (firstOf ((s.nearKept d k).length + 1) (fun i => !((s.nearKept d k).any (fun q => q.2.2 == i)))).getD 0

/-- A context with one more segment in the near area. -/
def State.nearStored (s : State) (d k : Nat) (p : Nat × Nat) : Asu :=
  { s.as d k with near := s.nearKept d k ++ [(p.1, p.2, s.nearPlace d k)] }

section
variable (s : State) {d k : Nat} (p : Nat × Nat)

theorem State.evict_home (h : s.nearSegs d k = 0) : s.evict d k p = s.count (R.asuSCntSpill d k) 1 := if_pos h

theorem State.evict_near (h : s.nearSegs d k ≠ 0) : ∃ n, s.evict d k p =
    ((s.setAs d k (s.nearStored d k p)).copySeg d k p (s.nearBase d k + 4096 * s.nearPlace d k)).count (R.asuSCntSpill d k) n :=
  ⟨_, if_neg h⟩

theorem State.nearKept_length_lt (h : s.nearSegs d k ≠ 0) : (s.nearKept d k).length < s.nearMost d k := by
  unfold State.nearKept State.nearMost
  split
  · rw [List.length_drop]
    omega
  · omega

theorem State.nearPlace_le : s.nearPlace d k ≤ (s.nearKept d k).length := by
  unfold State.nearPlace
  cases hfind : firstOf ((s.nearKept d k).length + 1) (fun i => !((s.nearKept d k).any (fun q => q.2.2 == i))) with
  | none => exact Nat.zero_le _
  | some i => exact Nat.lt_succ_iff.mp (List.mem_range.mp (List.mem_of_find?_eq_some hfind))

theorem State.copySeg_memoryBut (a : Nat) : MemoryBut [(a, 4096)] s (s.copySeg d k p a) := by
  unfold State.copySeg
  dsimp only
  split
  · exact (State.wrPoison_dry _ _ (.refl s)).same.but _
  · have hwr := s.wr_memoryBut a (s.bytes (s.segHome d k p) 4096)
    rwa [State.bytes, List.length_map, List.length_range] at hwr

/-- Evictions leave the pool. -/
theorem State.pool_evict : ((s.evict d k p).as d k).pool = (s.as d k).pool := by
  by_cases hzero : s.nearSegs d k = 0
  · rw [s.evict_home p hzero, State.count_as]
  · obtain ⟨n, heq⟩ := s.evict_near p hzero
    rw [heq, State.count_as, ((ErrorsOnly.refl _).copySeg d k p _).as, State.as_setAs_same, State.nearStored]

end

/-- R163: a segment evicted goes home or into the near area. -/
theorem Evicted.evict {d k : Nat} {z s : State} (h : Evicted d k z s) (hd : d < 4) (hk : k < 16) (p : Nat × Nat) :
    Evicted d k z (s.evict d k p) := by
  by_cases hzero : s.nearSegs d k = 0
  · rw [s.evict_home p hzero]
    exact h.count 1
  · obtain ⟨n, heq⟩ := s.evict_near p hzero
    have hsegs := h.nearSegs hd hk
    have hkept := s.nearKept_length_lt hzero
    have hplace := s.nearPlace_le (d := d) (k := k)
    have hmost : s.nearMost d k ≤ z.nearMost d k := by
      have hnear := h.near
      unfold State.nearMost at hnear ⊢
      omega
    have hstored : Evicted d k z (s.setAs d k (s.nearStored d k p)) :=
      { h with
        frames := by rw [State.as_setAs_same, State.nearStored, h.frames]
        near := by
          rw [State.as_setAs_same, State.nearStored, List.length_append, List.length_singleton]
          omega }
    rw [heq]
    refine (hstored.errors ((ErrorsOnly.refl _).copySeg d k p _) ?_ fun hz => absurd (hsegs.trans hz) hzero).count n
    refine (State.copySeg_memoryBut _ p _).within fun r hr => ⟨_, List.mem_singleton_self _, ?_⟩
    rw [List.mem_singleton.mp hr, h.nearBase hd hk]
    dsimp only
    omega

/-! ### a frame -/

/-- A context whose pool has no segment of a frame. -/
def Asu.cleared (c : Asu) (f : Frame) : Asu := { c with pool := c.pool.filter (fun q => !(f.parts.contains q)) }

theorem Asu.mem_pool_cleared {c : Asu} {f : Frame} {p : Nat × Nat} : p ∈ (c.cleared f).pool ↔ p ∈ c.pool ∧ p ∉ f.parts := by
  simp [Asu.cleared, List.mem_filter]

/-- The resident segments of a frame. -/
def Asu.resident (c : Asu) (f : Frame) : List (Nat × Nat) := c.pool.filter (fun q => f.parts.contains q)

section
variable (s : State) {d k : Nat} (f : Frame) (x : Errs)

/-- The state in which the pool has been read for a frame and cleared of its segments. -/
def State.clearFrame (s : State) (d k : Nat) (f : Frame) (x : Errs) : State :=
  (s.poolErrs d k (s.segHome d k (((s.as d k).resident f).headD (0, 0))) x).setAs d k ((s.as d k).cleared f)

theorem State.evictFrame_eq : s.evictFrame d k f x =
    ((s.as d k).resident f).foldl (fun s q => s.evict d k q) (s.clearFrame d k f x) := rfl

theorem State.pool_evictFrame : ((s.evictFrame d k f x).as d k).pool = ((s.as d k).cleared f).pool := by
  rw [State.evictFrame_eq]
  refine List.foldlRecOn _ _ (motive := fun u : State => (u.as d k).pool = ((s.as d k).cleared f).pool) ?_ fun u hu q _ => ?_
  · rw [State.clearFrame, State.as_setAs_same]
  · rw [u.pool_evict, hu]

/-- R162: the frame's resident segments are written away. -/
theorem Evicted.evictFrame {z s : State} (h : Evicted d k z s) (hd : d < 4) (hk : k < 16) (f : Frame) (x : Errs) :
    Evicted d k z (s.evictFrame d k f x) := by
  have herr := (ErrorsOnly.refl s).poolErrs d k (s.segHome d k (((s.as d k).resident f).headD (0, 0))) x
  have hdry := (State.poolErrs_dry d k (s.segHome d k (((s.as d k).resident f).headD (0, 0))) x (.refl s)).same
  have hread := h.errors herr (hdry.but _) fun _ => hdry
  rw [State.evictFrame_eq, State.clearFrame]
  refine List.foldlRecOn _ _ (motive := Evicted d k z) (hread.setAs ?_ ?_) fun u hu q _ => hu.evict hd hk q
  · rw [herr.as, Asu.cleared]
  · rw [herr.as, Asu.cleared]

end

end Sys2Proof.Machine
end

section
/-! PROOFS. ASU_SEGMENT_PUSH and ASU_SEGMENT_TRANSFER_DONE (R161, R162, R163): their cases, and the statement of residency. -/

namespace Sys2Proof.Machine

theorem exec_asuSegmentPush (d : Fin 4) (k : Fin 16) (x : Errs) (s : State) :
    exec (.asuSegmentPush d k x) s = .next (s.segmentPush d k x) := rfl

theorem exec_asuSegmentTransferDone (d : Fin 4) (k : Fin 16) (x : Errs) (s : State) :
    exec (.asuSegmentTransferDone d k x) s = .next (s.segmentDone d k x) := rfl

theorem asuReg_asuSCntFetch {d k : Nat} (hd : d < 4) (hk : k < 16) : AsuReg (R.asuSCntFetch d k) :=
  ⟨d, hd, by unfold R.asuSStatus R.asuSCntFetch; omega, by unfold R.asuSStatus R.asuSCntFetch; omega⟩

/-- A context with the pushed segments that remain. -/
def Asu.pushed (c : Asu) (rest : List (Nat × Nat)) : Asu := { c with pushq := rest }

/-- A context with the segments to be fetched that remain. -/
def Asu.fetched (c : Asu) (rest : List (Nat × Nat)) : Asu := { c with xferq := rest }

theorem Asu.near_enter_length_le (c : Asu) (p : Nat × Nat) : (c.enter p).near.length ≤ c.near.length := List.length_filter_le _ _

/-! ### a pushed segment -/

section
variable {s : State} {d k : Nat} (x : Errs)

theorem State.segmentPush_empty (h : (s.as d k).pushq = []) : s.segmentPush d k x = s := by
  unfold State.segmentPush
  simp only [h]

variable {p : Nat × Nat} {rest : List (Nat × Nat)} (h : (s.as d k).pushq = p :: rest)
include h

theorem State.segmentPush_present (hp : p ∈ (s.as d k).pool) :
    s.segmentPush d k x = s.setAs d k ((s.as d k).pushed rest) := by
  unfold State.segmentPush
  simp only [h, hp, List.contains_eq_mem, decide_true, if_true]
  rfl

variable (hp : p ∉ (s.as d k).pool)
include hp

theorem State.segmentPush_free (hc : (s.as d k).pool.length < s.poolSegs d k) :
    s.segmentPush d k x = s.setAs d k (((s.as d k).pushed rest).enter p) := by
  unfold State.segmentPush
  simp only [h, hp, hc, List.contains_eq_mem, decide_false, Bool.false_eq_true, if_false, if_true]
  rfl

variable (hc : s.poolSegs d k ≤ (s.as d k).pool.length)
include hc

theorem State.segmentPush_braced (hb : s.noSpill k = true) : s.segmentPush d k x = s := by
  unfold State.segmentPush
  simp only [h, hp, Nat.not_lt.mpr hc, hb, List.contains_eq_mem, decide_false, Bool.false_eq_true, if_false, if_true]

variable (hb : s.noSpill k = false)
include hb

theorem State.segmentPush_evicts (hpos : 0 < s.poolSegs d k) {f : Frame} (hv : (s.as d k).victim = some f) :
    s.segmentPush d k x = ((s.setAs d k ((s.as d k).pushed rest)).evictFrame d k f x).setAs d k
      ((((s.setAs d k ((s.as d k).pushed rest)).evictFrame d k f x).as d k).enter p) := by
  have hv : ((s.as d k).pushed rest).victim = some f := hv
  unfold Asu.pushed at hv ⊢
  unfold State.segmentPush
  simp only [h, hp, Nat.not_lt.mpr hc, hb, Nat.ne_of_gt hpos, hv, List.contains_eq_mem, decide_false, Bool.false_eq_true, if_false]

theorem State.segmentPush_home (hv : s.poolSegs d k = 0 ∨ (s.as d k).victim = none) :
    s.segmentPush d k x = (s.setAs d k ((s.as d k).pushed rest)).count (R.asuSCntSpill d k) 1 := by
  have hnone : (if s.poolSegs d k = 0 then none else ((s.as d k).pushed rest).victim) = none := by
    rcases hv with hv | hv
    · exact if_pos hv
    · exact ite_eq_left_iff.mpr fun _ => hv.symm ▸ rfl
  unfold Asu.pushed at hnone ⊢
  unfold State.segmentPush
  simp only [h, hp, Nat.not_lt.mpr hc, hb, hnone, List.contains_eq_mem, decide_false, Bool.false_eq_true, if_false]

end

/-! ### a fetched segment -/

/-- The state in which a segment of home `a` has been read into the pool. -/
def State.fetchInto (s : State) (d k : Nat) (c : Asu) (a : Nat) (x : Errs) : State :=
  (s.setAs d k c).readErrs [(a, a + 4096)] x

section
variable {s : State} {d k : Nat} (x : Errs)

theorem State.segmentDone_empty (h : (s.as d k).xferq = []) : s.segmentDone d k x = s := by
  unfold State.segmentDone
  simp only [h]

theorem State.segmentDone_free {p : Nat × Nat} {rest : List (Nat × Nat)} (h : (s.as d k).xferq = p :: rest)
    (hp : p ∉ (s.as d k).pool) (hc : (s.as d k).pool.length < s.poolSegs d k) :
    s.segmentDone d k x = ((s.setAs d k ((s.as d k).fetched rest)).fetchInto d k
      (((s.setAs d k ((s.as d k).fetched rest)).as d k).enter p) (s.segHome d k p) x).count (R.asuSCntFetch d k) 1 := by
  unfold State.segmentDone
  simp only [h, hp, hc, List.contains_eq_mem, decide_false, Bool.false_eq_true, if_false, if_true]
  rfl

end

/-! ### what the two commands answer -/

section
variable {s : State} {d : Fin 4} {k : Fin 16} (x : Errs)

/-- A change of the context alone, of which frames stand. -/
theorem segmentPush_setAs_answers {c : Asu} (heq : s.segmentPush d k x = s.setAs d k c) (hf : c.frames = (s.as d k).frames) :
    Answers (exec (.asuSegmentPush d k x) s) (fun t => t.as d k = c ∧ t.regs = s.regs ∧ SameMemory s t ∧
      (t.as d k).frames = (s.as d k).frames ∧ (∀ i, (t.q i).outst = (s.q i).outst) ∧ Apart s t) := by
  have has : (s.segmentPush d k x).as d k = c := by rw [heq, State.as_setAs_same]
  refine ⟨_, exec_asuSegmentPush d k x s, has, ?_, ?_, by rw [has, hf], fun i => ?_, State.segmentPush_apart d k x (.refl s)⟩
  · rw [heq]
    rfl
  · rw [heq]
    exact (State.setAs_dry d k c (.refl s)).same
  · rw [heq]
    rfl

variable {p : Nat × Nat} {rest : List (Nat × Nat)}

/-- R162: the segment takes a place that a victim's segments leave. -/
theorem segmentPush_evicts_answers {f : Frame} (hpf : p ∉ f.parts)
    (heq : s.segmentPush d k x = ((s.setAs d k ((s.as d k).pushed rest)).evictFrame d k f x).setAs d k
      ((((s.setAs d k ((s.as d k).pushed rest)).evictFrame d k f x).as d k).enter p)) :
    Answers (exec (.asuSegmentPush d k x) s) (fun t =>
      p ∈ (t.as d k).pool ∧ (∀ q ∈ f.parts, q ∉ (t.as d k).pool) ∧ (∀ q ∈ (s.as d k).pool, q ∉ f.parts → q ∈ (t.as d k).pool) ∧
      Evicted d k s t ∧ Apart s t) := by
  have hstart : Evicted d k s (s.setAs d k ((s.as d k).pushed rest)) := (Evicted.refl d k s).setAs rfl (le_refl _)
  have hev := hstart.evictFrame d.isLt k.isLt f x
  have hpool : ((s.segmentPush d k x).as d k).pool = (((s.as d k).pushed rest).cleared f).pool ++ [p] := by
    rw [heq, State.as_setAs_same, Asu.enter, State.pool_evictFrame, State.as_setAs_same]
  refine ⟨_, exec_asuSegmentPush d k x s, ?_, fun q hq => ?_, fun q hq hqf => ?_, ?_, State.segmentPush_apart d k x (.refl s)⟩
  · rw [hpool]
    exact List.mem_append_right _ List.mem_cons_self
  · rw [hpool, List.mem_append, List.mem_singleton]
    rintro (hmem | rfl)
    · exact (Asu.mem_pool_cleared.mp hmem).2 hq
    · exact hpf hq
  · rw [hpool]
    exact List.mem_append_left _ (Asu.mem_pool_cleared.mpr ⟨hq, hqf⟩)
  · rw [heq]
    exact hev.setAs rfl (Asu.near_enter_length_le _ p)

/-- R162: the segment goes home, and the spill is counted. -/
theorem segmentPush_home_answers
    (heq : s.segmentPush d k x = (s.setAs d k ((s.as d k).pushed rest)).count (R.asuSCntSpill d k) 1) :
    Answers (exec (.asuSegmentPush d k x) s) (fun t => t.as d k = (s.as d k).pushed rest ∧
      t.reg (R.asuSCntSpill d k) = s.reg (R.asuSCntSpill d k) + 1 ∧ SameRegs [R.asuSCntSpill d k] s t ∧ SameMemory s t ∧
      (∀ i, (t.q i).outst = (s.q i).outst) ∧ Apart s t) := by
  refine ⟨_, exec_asuSegmentPush d k x s, ?_, ?_, fun a ha => ?_, ?_, fun i => ?_, State.segmentPush_apart d k x (.refl s)⟩
  · rw [heq, State.count_as, State.as_setAs_same]
  · rw [heq, State.reg_count_same]
    rfl
  · rw [heq, State.reg_count_other _ (fun e => ha (List.mem_singleton.mpr e))]
    rfl
  · rw [heq]
    exact (State.count_dry _ 1 (State.setAs_dry d k _ (.refl s))).same
  · rw [heq, State.count_q]
    rfl

/-- R162: a fetched segment takes a free place, and the fetch is counted. -/
theorem segmentDone_answers {c : Asu} {a : Nat}
    (heq : s.segmentDone d k x = ((s.setAs d k ((s.as d k).fetched rest)).fetchInto d k c a x).count (R.asuSCntFetch d k) 1) :
    Answers (exec (.asuSegmentTransferDone d k x) s) (fun t => t.as d k = c ∧
      t.reg (R.asuSCntFetch d k) = s.reg (R.asuSCntFetch d k) + 1 ∧ SameRegs (R.asuSCntFetch d k :: errorRegs) s t ∧ SameMemory s t ∧
      (∀ i, (t.q i).outst = (s.q i).outst) ∧ Apart s t) := by
  have hread := (ErrorsOnly.refl ((s.setAs d k ((s.as d k).fetched rest)).setAs d k c)).readErrs [(a, a + 4096)] x
  have hreg := hread.regs _ (asuReg_asuSCntFetch d.isLt k.isLt).not_mem_errorRegs
  refine ⟨_, exec_asuSegmentTransferDone d k x s, ?_, ?_, fun b hb => ?_, ?_, fun i => ?_, State.segmentDone_apart d k x (.refl s)⟩
  · rw [heq, State.count_as, State.fetchInto, hread.as, State.as_setAs_same]
  · rw [heq, State.reg_count_same, State.fetchInto, hreg]
    rfl
  · rw [List.mem_cons, not_or] at hb
    rw [heq, State.reg_count_other _ hb.1, State.fetchInto, hread.regs b hb.2]
    rfl
  · rw [heq, State.fetchInto]
    exact (State.count_dry _ 1 (State.readErrs_dry _ x (State.setAs_dry d k _ (State.setAs_dry d k _ (.refl s))))).same
  · rw [heq, State.count_q, State.fetchInto, hread.q]
    rfl

end

end Sys2Proof.Machine

open Sys2Proof Sys2Proof.Machine in
/-- Settles O21: a pushed segment by where it finds its place, a fetched one by the place that is free for it. -/
theorem residency : Obligations.Residency := by
  intro s d k x
  refine ⟨fun p rest h => ⟨fun hp => ?_, fun hp hc => ?_, fun hp hc hb => ?_, fun f hp hc hpos hv hpf hb => ?_, fun hp hc hb hv => ?_⟩,
    fun h => (exec_asuSegmentPush d k x s).trans (congrArg _ (State.segmentPush_empty x h)), fun p rest h hp hc => ?_,
    fun h => (exec_asuSegmentTransferDone d k x s).trans (congrArg _ (State.segmentDone_empty x h))⟩
  · obtain ⟨t, ht, has, hrest⟩ := segmentPush_setAs_answers x (State.segmentPush_present x h hp) rfl
    exact ⟨t, ht, (congrArg Asu.pool has).trans rfl, (congrArg Asu.pushq has).trans rfl, hrest⟩
  · obtain ⟨t, ht, has, hrest⟩ := segmentPush_setAs_answers x (State.segmentPush_free x h hp hc) rfl
    exact ⟨t, ht, (congrArg Asu.pool has).trans rfl, (congrArg Asu.pushq has).trans rfl, hrest⟩
  · exact (exec_asuSegmentPush d k x s).trans (congrArg _ (State.segmentPush_braced x h hp hc hb))
  · obtain ⟨t, ht, hin, hout, hstay, hev, hapart⟩ := segmentPush_evicts_answers x hpf (State.segmentPush_evicts x h hp hc hb hpos hv)
    exact ⟨t, ht, hin, hout, hstay, hev.regs, hev.still, hev.mem, hev.frames, fun i => congrArg Psq.outst (hev.q i), hapart⟩
  · obtain ⟨t, ht, has, hcount, hregs, hmem, hq, hapart⟩ := segmentPush_home_answers x (State.segmentPush_home x h hp hc hb hv)
    exact ⟨t, ht, (congrArg Asu.pool has).trans rfl, (congrArg Asu.pushq has).trans rfl, hcount, hregs, hmem, (congrArg Asu.frames has).trans rfl, hq, hapart⟩
  · obtain ⟨t, ht, has, hcount, hregs, hmem, hq, hapart⟩ := segmentDone_answers x (State.segmentDone_free x h hp hc)
    rw [State.as_setAs_same] at has
    exact ⟨t, ht, (congrArg Asu.pool has).trans rfl, (congrArg Asu.xferq has).trans rfl, hcount, hregs, hmem, (congrArg Asu.frames has).trans rfl, hq, hapart⟩

end

section
/-! PROOFS. What a withdrawal leaves beside the instructions that it takes back, and the stop that a fault begins (R140, R141). -/

namespace Sys2Proof.Machine

theorem FaultReg.reg_withdrawSome {a : Nat} (h : FaultReg a) (s : State) (k : Nat) (p : Outst → Bool) :
    (s.withdrawSome k p).reg a = s.reg a := by
  unfold State.withdrawSome
  dsimp only
  rw [h.reg_syncUnits, h.reg_setOutst, State.reg_foldl _ (fun u o _ => by rw [h.reg_unwind, h.reg_giveTokens]),
    State.reg_foldl _ (fun u x hx => h.reg_rollback u k _ (by simp at hx; omega))]

theorem State.psqStatus_withdrawSome (s : State) (k : Nat) (p : Outst → Bool) :
    (s.withdrawSome k p).reg (R.psqStatus k) = s.reg (R.psqStatus k) := by
  unfold State.withdrawSome
  dsimp only
  rw [State.psqStatus_syncUnits, State.psqStatus_setOutst,
    State.reg_foldl _ (fun u o _ => by rw [State.psqStatus_unwind, State.psqStatus_giveTokens]),
    State.reg_foldl _ (fun u x _ => u.psqStatus_rollback k _ x)]

/-- A raised fault is a cause of the stop, whether or not it is its stream's first. -/
theorem State.flag_raiseFault_stopFault (s : State) (k x index code unit : Nat) (after : Bool) :
    (s.raiseFault k x index code unit after).flag (R.psqStatus k) F.psqStatusStopFault = true := by
  rw [State.raiseFault_eq, State.faultStop]
  exact State.flag_beginStop _ k (by decide) (by decide) rfl

/-- A fault of an outstanding instruction leaves its stream's record and the stop's causes as raising it left them. -/
theorem State.reg_faultOut {s : State} {a k : Nat} (h : FaultReg a ∨ a = R.psqStatus k) (o : Outst) (code unit : Nat) :
    (s.faultOut k o code unit).reg a = (s.raiseFault k o.strm o.index code unit false).reg a := by
  unfold State.faultOut
  dsimp only
  split
  · rcases h with h | rfl
    · exact h.reg_withdrawSome _ k _
    · exact State.psqStatus_withdrawSome _ k _
  · rfl

/-- R141: the code of the fault stands in the record where it is the stream's first. -/
theorem State.fld_faultOut_code {s : State} {k : Nat} {o : Outst} {code : Nat} (hk : k < 16) (hx : o.strm < 3) (hc : code < 256)
    (hfirst : s.flag (R.psqFrec0 k o.strm) F.psqFrec0Valid = false) (unit : Nat) :
    (s.faultOut k o code unit).fld (R.psqFrec0 k o.strm) F.psqFrec0Code = code := by
  rw [State.fld, State.reg_faultOut (.inl (.frec0 k hx))]
  exact (s.raiseFault_faulted hk hx hc o.index unit false hfirst).2.1

theorem State.flag_faultOut_stopFault (s : State) (k : Nat) (o : Outst) (code unit : Nat) :
    (s.faultOut k o code unit).flag (R.psqStatus k) F.psqStatusStopFault = true :=
  (State.flag_congr (State.reg_faultOut (.inr rfl) o code unit) _).trans (s.flag_raiseFault_stopFault ..)

end Sys2Proof.Machine
end

section
/-! PROOFS. The context of a quay unit after its own changes, and QUY_STATUS that follows it (R174). -/

namespace Sys2Proof.Machine

/-- A quay unit is not its own partner. -/
theorem partner_ne (q : Nat) : q ^^^ 1 ≠ q := by
  intro h
  have hone : (q ^^^ 1) ^^^ q = 1 := by rw [Nat.xor_comm, Nat.xor_xor_cancel_left]
  rw [h, Nat.xor_self] at hone
  exact absurd hone (by decide)

theorem partner_lt {q : Nat} (h : q < 16) : q ^^^ 1 < 16 := Nat.xor_lt_two_pow (n := 4) h (by decide)

theorem State.qu_setQu_same (s : State) (q : Nat) (c : Quay) : (s.setQu q c).qu q = c := by rw [State.qu_setQu, if_pos rfl]

theorem State.qu_setQu_other (s : State) {q j : Nat} (h : j ≠ q) (c : Quay) : (s.setQu q c).qu j = s.qu j := by
  rw [State.qu_setQu, if_neg h]

theorem State.qu_syncQuay (s : State) (q j : Nat) : (s.syncQuay q).qu j = s.qu j := by
  unfold State.syncQuay State.forAll
  exact List.foldlRecOn _ _ (motive := fun u : State => u.qu j = s.qu j) rfl fun u hu i _ => hu

/-- Counting leaves the room of staging. -/
theorem State.fits_count (s : State) (a m q n : Nat) : (s.count a m).fits q n = s.fits q n := by
  have hstaging : (s.count a m).staging q = s.staging q := rfl
  rw [State.fits, hstaging, State.fits]

theorem State.reg_syncQuay_other (s : State) {a q : Nat} (h : ∀ u, a ≠ R.quyStatus u) : (s.syncQuay q).reg a = s.reg a := by
  unfold State.syncQuay
  exact State.reg_forAll _ (fun u i _ => by
    dsimp only
    rw [State.reg_setFld_other _ (h i), State.reg_setFld_other _ (h i)]) s

end Sys2Proof.Machine
end

section
/-! PROOFS. QUAY_RESERVE and QUAY_RESERVATION_GRANT (R174, R189): the reservations of staging. -/

namespace Sys2Proof.Machine

theorem exec_quayReserve (e : Fin 32) (wait : Nat) (s : State) : exec (.quayReserve e wait) s = .next (s.quayReserve e wait) := rfl

theorem exec_quayReservationGrant (q : Fin 16) (wait : Nat) (s : State) :
    exec (.quayReservationGrant q wait) s = .next (s.quayGrant q wait) := rfl

/-! ### QUAY_RESERVE -/

section
variable {s : State} {e k : Nat} {o : Outst} (hown : s.engOwner e = some k) (hnext : s.nextMx k e = some o)
  (hkind : (parseChain o.chain).dst.kind = 6) (hblocked : s.quayBlocked k o = false) (hissue : s.noIssue k = false ∨ o.rerun = true)
include hown hnext hkind hblocked hissue

/-- R189: a unit that the instruction addresses is lost with its partner. -/
theorem State.quayReserve_lost (hlost : (s.quayShares k o).any (fun p => s.quayLost p.1) = true) (wait : Nat) :
    s.quayReserve e wait = s.faultOut k o 0x58 e := by
  have hgo : ¬ ((parseChain o.chain).dst.kind ≠ 6 ∨ s.quayBlocked k o = true ∨ s.noIssue k = true ∧ ¬ o.rerun = true) := by
    rcases hissue with h | h <;> simp [hkind, hblocked, h]
  simp only [State.quayReserve, hown, hnext]
  rw [if_neg hgo, if_pos hlost]

variable {q n : Nat} (hlost : (s.quayShares k o).any (fun p => s.quayLost p.1) = false)
  (hneed : (s.quayNeeds k o).find? (fun p => !(s.reserved k o p.1)) = some (q, n))
  (hnew : (s.qu q).waiting.any (fun r => r.stake == k && r.seq == o.seq) = false)
include hlost hneed hnew

/-- The wait is counted; the first reservation that lacks is given where nothing waits and it fits, and waits there elsewhere. -/
theorem State.quayReserve_first (wait : Nat) : s.quayReserve e wait =
    if (s.qu q).waiting.isEmpty && s.fits q n then
      ((s.count (R.mxeCntDrain e) wait).setQu q { s.qu q with resv := (s.qu q).resv ++ [⟨k, o.seq, n⟩] }).syncQuay q
    else (s.count (R.mxeCntDrain e) wait).setQu q { s.qu q with waiting := (s.qu q).waiting ++ [⟨k, o.seq, n⟩] } := by
  have hgo : ¬ ((parseChain o.chain).dst.kind ≠ 6 ∨ s.quayBlocked k o = true ∨ s.noIssue k = true ∧ ¬ o.rerun = true) := by
    rcases hissue with h | h <;> simp [hkind, hblocked, h]
  simp only [State.quayReserve, hown, hnext]
  rw [if_neg hgo, if_neg (by simp [hlost])]
  simp only [hneed]
  rw [if_neg (by simp [hnew]), State.fits_count]

theorem State.quayReserve_given (hwait : (s.qu q).waiting = []) (hfits : s.fits q n = true) (wait : Nat) : s.quayReserve e wait =
    ((s.count (R.mxeCntDrain e) wait).setQu q { s.qu q with resv := (s.qu q).resv ++ [⟨k, o.seq, n⟩] }).syncQuay q := by
  rw [State.quayReserve_first hown hnext hkind hblocked hissue hlost hneed hnew]
  exact if_pos (by simp [hwait, hfits])

theorem State.quayReserve_waits (hwait : (s.qu q).waiting ≠ [] ∨ s.fits q n = false) (wait : Nat) : s.quayReserve e wait =
    (s.count (R.mxeCntDrain e) wait).setQu q { s.qu q with waiting := (s.qu q).waiting ++ [⟨k, o.seq, n⟩] } := by
  rw [State.quayReserve_first hown hnext hkind hblocked hissue hlost hneed hnew]
  refine if_neg ?_
  rcases hwait with h | h <;> simp [h]

end

/-- MXE_CNT_DRAIN is no register of a quay unit. -/
theorem mxeCntDrain_ne_quyStatus {e : Nat} (_ : e < 32) (u : Nat) : R.mxeCntDrain e ≠ R.quyStatus u := by
  unfold R.mxeCntDrain R.quyStatus
  omega

/-- QUY_S_CNT_RESV of a stake is no QUY_STATUS. -/
theorem quySCntResv_ne_quyStatus (q : Nat) {k : Nat} (_ : k < 16) (u : Nat) : R.quySCntResv q k ≠ R.quyStatus u := by
  unfold R.quySCntResv R.quyStatus
  omega

/-- R174, R189: the wait is counted, and the reservation stands at its unit, given or waiting. -/
theorem quayReserve_answers {s : State} {e : Fin 32} {wait k q n : Nat} {o : Outst} (hown : s.engOwner e = some k)
    (hnext : s.nextMx k e = some o) (hkind : (parseChain o.chain).dst.kind = 6) (hblocked : s.quayBlocked k o = false)
    (hissue : s.noIssue k = false ∨ o.rerun = true) (hlost : (s.quayShares k o).any (fun p => s.quayLost p.1) = false)
    (hneed : (s.quayNeeds k o).find? (fun p => !(s.reserved k o p.1)) = some (q, n))
    (hnew : (s.qu q).waiting.any (fun r => r.stake == k && r.seq == o.seq) = false) :
    Answers (exec (.quayReserve e wait) s) (fun t =>
      t.reg (R.mxeCntDrain e) = s.reg (R.mxeCntDrain e) + BitVec.ofNat 64 wait ∧
      ((s.qu q).waiting = [] → s.fits q n = true → (t.qu q).resv = (s.qu q).resv ++ [⟨k, o.seq, n⟩] ∧ (t.qu q).waiting = []) ∧
      (((s.qu q).waiting ≠ [] ∨ s.fits q n = false) →
        (t.qu q).resv = (s.qu q).resv ∧ (t.qu q).waiting = (s.qu q).waiting ++ [⟨k, o.seq, n⟩]) ∧
      SameMemory s t ∧ Apart s t) := by
  refine ⟨_, exec_quayReserve e wait s, ?_, fun hwait hfits => ?_, fun hwait => ?_, (State.quayReserve_dry e wait (.refl s)).same,
    State.quayReserve_apart e wait (.refl s)⟩
  · rw [State.quayReserve_first hown hnext hkind hblocked hissue hlost hneed hnew]
    split
    · rw [State.reg_syncQuay_other _ (mxeCntDrain_ne_quyStatus e.isLt), State.setQu_reg, State.reg_count_same]
    · rw [State.setQu_reg, State.reg_count_same]
  · rw [State.quayReserve_given hown hnext hkind hblocked hissue hlost hneed hnew hwait hfits, State.qu_syncQuay, State.qu_setQu_same]
    exact ⟨rfl, hwait⟩
  · rw [State.quayReserve_waits hown hnext hkind hblocked hissue hlost hneed hnew hwait, State.qu_setQu_same]
    exact ⟨rfl, rfl⟩

/-! ### QUAY_RESERVATION_GRANT -/

theorem State.quayGrant_empty {s : State} {q : Nat} (h : (s.qu q).waiting = []) (wait : Nat) : s.quayGrant q wait = s := by
  simp only [State.quayGrant, h]

section
variable {s : State} {q : Nat} {r : Resv} {rest : List Resv} (h : (s.qu q).waiting = r :: rest)
include h

theorem State.quayGrant_fits (hf : s.fits q r.slices = true) (wait : Nat) : s.quayGrant q wait =
    ((s.setQu q { s.qu q with resv := (s.qu q).resv ++ [r], waiting := rest }).count (R.quySCntResv q r.stake) wait).syncQuay q := by
  simp only [State.quayGrant, h]
  rw [if_pos hf]

theorem State.quayGrant_full (hf : s.fits q r.slices = false) (wait : Nat) : s.quayGrant q wait = s := by
  simp only [State.quayGrant, h]
  exact if_neg (by simp [hf])

end

/-- R174: the reservation that waits longest is given once it fits, and its wait is counted. -/
theorem quayGrant_answers {s : State} {q : Fin 16} {wait : Nat} {r : Resv} {rest : List Resv} (h : (s.qu q).waiting = r :: rest)
    (hf : s.fits q r.slices = true) (hr : r.stake < 16) : Answers (exec (.quayReservationGrant q wait) s) (fun t =>
      (t.qu q).resv = (s.qu q).resv ++ [r] ∧ (t.qu q).waiting = rest ∧
      t.reg (R.quySCntResv q r.stake) = s.reg (R.quySCntResv q r.stake) + BitVec.ofNat 64 wait ∧ SameMemory s t ∧ Apart s t) := by
  have heq := State.quayGrant_fits h hf wait
  refine ⟨_, exec_quayReservationGrant q wait s, ?_, ?_, ?_, (State.quayGrant_dry q wait (.refl s)).same,
    State.quayGrant_apart q wait (.refl s)⟩
  · rw [heq, State.qu_syncQuay, State.count_qu, State.qu_setQu_same]
  · rw [heq, State.qu_syncQuay, State.count_qu, State.qu_setQu_same]
  · rw [heq, State.reg_syncQuay_other _ (quySCntResv_ne_quyStatus q hr), State.reg_count_same, State.setQu_reg]

end Sys2Proof.Machine
end

section
/-! PROOFS. QUAY_SLICE_ARRIVE and REDUCED_BLOCK_ARRIVE (R101, R174, R178, R206): what is staged at a quay unit and mirrored in its
partner. -/

namespace Sys2Proof.Machine

theorem exec_quaySliceArrive (e : Fin 32) (s : State) : exec (.quaySliceArrive e) s = .next (s.sliceArrive e) := rfl

theorem exec_reducedBlockArrive (q : Fin 16) (s : State) : exec (.reducedBlockArrive q) s = .next (s.blockArrive q) := rfl

/-! ### a change at a unit that its partner mirrors -/

/-- A unit's context changed, and its partner's with it unless one of the two has failed (R174, R189). -/
def State.mirrored (s : State) (q : Nat) (c d : Quay) : State :=
  if s.quayDegraded q then s.setQu q c else (s.setQu q c).setQu (q ^^^ 1) d

theorem State.qu_mirrored_own (s : State) (q : Nat) (c d : Quay) : (s.mirrored q c d).qu q = c := by
  unfold State.mirrored
  split
  · exact s.qu_setQu_same q c
  · rw [State.qu_setQu_other _ (partner_ne q).symm, State.qu_setQu_same]

theorem State.qu_mirrored_partner (s : State) (q : Nat) (c d : Quay) :
    (s.mirrored q c d).qu (q ^^^ 1) = if s.quayDegraded q then s.qu (q ^^^ 1) else d := by
  unfold State.mirrored
  split
  · exact s.qu_setQu_other (partner_ne q) c
  · exact State.qu_setQu_same _ _ d

/-! ### slices -/

/-- The slice of tile `t` and lane `l` of an instruction (R101). -/
def State.sliceOf (s : State) (k : Nat) (o : Outst) (l t : Nat) : Slice :=
  ⟨k, o.seq, sliceAddr (s.stake k).master12 (parseChain o.chain) l t,
    (List.range 64).map (fun j => (o.run.tile.getD (64 * t + j) []).getD l 0), o.run.poison⟩

/-- A slice staged at a unit, with its mirror. -/
def State.stageSlice (s : State) (q : Nat) (v : Slice) : State :=
  s.mirrored q { s.qu q with staged := (s.qu q).staged ++ [v] } { s.qu (q ^^^ 1) with mirror := (s.qu (q ^^^ 1)).mirror ++ [v] }

theorem State.stageSlice_regs (s : State) (q : Nat) (v : Slice) : (s.stageSlice q v).regs = s.regs := by
  unfold State.stageSlice State.mirrored
  split <;> rfl

theorem State.q_stageSlice (s : State) (q : Nat) (v : Slice) (k : Nat) : (s.stageSlice q v).q k = s.q k := by
  unfold State.stageSlice State.mirrored
  split <;> rfl

/-- One more slice of an instruction has been sent. -/
def Outst.sentOne (o : Outst) : Outst := { o with run := { o.run with sent := o.run.sent + 1 } }

section
variable {s : State} {e k : Nat} {o : Outst} (hown : s.engOwner e = some k)
  (hfind : (s.q k).outst.find? (fun o => o.isMx && o.unit == e && o.issued && !o.slicesDone) = some o)
include hown hfind

theorem State.sliceArrive_early (h : o.run.row < 64 * (o.run.sent / o.mn.2 + 1)) : s.sliceArrive e = s := by
  simp only [State.sliceArrive, hown, hfind]
  exact if_pos h

theorem State.sliceArrive_stages (h : 64 * (o.run.sent / o.mn.2 + 1) ≤ o.run.row) {v : Slice}
    (hv : v = s.sliceOf k o (o.run.sent % o.mn.2) (o.run.sent / o.mn.2)) :
    s.sliceArrive e = (s.stageSlice (octetOf v.addr) v).updOutst k o.seq Outst.sentOne := by
  subst hv
  simp only [State.sliceArrive, hown, hfind]
  rw [if_neg (by omega)]
  refine congrArg (State.updOutst · k o.seq Outst.sentOne) ?_
  unfold State.stageSlice State.mirrored
  refine if_congr Iff.rfl rfl ?_
  rw [State.qu_setQu_other _ (partner_ne _)]
  rfl

end

theorem State.sentOne_mem {s : State} {k : Nat} {o : Outst} (h : o ∈ (s.q k).outst) :
    ∃ p ∈ ((s.updOutst k o.seq Outst.sentOne).q k).outst, p.seq = o.seq ∧ p.run.sent = o.run.sent + 1 := by
  refine ⟨o.sentOne, ?_, rfl, rfl⟩
  rw [State.updOutst, State.q_setQ_same]
  exact List.mem_map.mpr ⟨o, h, if_pos rfl⟩

/-! ### reduced blocks -/

/-- A unit whose inbox holds a FINAL block first stages it; the second block of a group triggers the group's update (R178). -/
def Quay.takeBlock (c : Quay) (b : Block) (rest : List Block) : Quay :=
  { c with
    inbox := rest
    blocks := c.blocks ++ [b]
    trig := c.trig ++ (if c.blocks.any (fun d => d.job == b.job && d.block / 2 == b.block / 2) then [.upd b.job (b.block / 2)] else []) }

/-- The unit and, unless one has failed, its partner have room for one block more (R174). -/
def State.blockRoom (s : State) (q : Nat) : Prop :=
  s.staging q + 128 ≤ 4194304 ∧ (s.quayDegraded q = true ∨ s.staging (q ^^^ 1) + 128 ≤ 4194304)

theorem State.blockArrive_empty {s : State} {q : Nat} (h : (s.qu q).inbox = []) : s.blockArrive q = s := by
  simp only [State.blockArrive, h]

section
variable {s : State} {q : Nat} {b : Block} {rest : List Block} (h : (s.qu q).inbox = b :: rest) (hlost : s.quayLost q = false)
include h hlost

theorem State.blockArrive_spilled (hb : b.final = false) : s.blockArrive q = s.setQu q { s.qu q with inbox := rest } := by
  simp only [State.blockArrive, h, hlost, hb]
  rfl

variable (hb : b.final = true)
include hb

theorem State.blockArrive_full (hroom : ¬ s.blockRoom q) : s.blockArrive q = s := by
  simp only [State.blockArrive, h, hlost, hb, Bool.not_true, Bool.false_eq_true, if_false]
  refine if_pos ?_
  rw [Bool.not_eq_true', ← Bool.not_eq_true]
  simpa only [State.blockRoom, Bool.and_eq_true, Bool.or_eq_true, decide_eq_true_eq] using hroom

theorem State.blockArrive_staged (hroom : s.blockRoom q) : s.blockArrive q =
    (s.mirrored q ((s.qu q).takeBlock b rest)
      { s.qu (q ^^^ 1) with blockMirror := (s.qu (q ^^^ 1)).blockMirror ++ [b] }).syncQuay q := by
  simp only [State.blockArrive, h, hlost, hb, Bool.not_true, Bool.false_eq_true, if_false]
  rw [if_neg (by simpa only [State.blockRoom, Bool.not_eq_true', Bool.not_eq_false, Bool.and_eq_true, Bool.or_eq_true,
    decide_eq_true_eq] using hroom)]
  refine congrArg (State.syncQuay · q) ?_
  unfold State.mirrored
  refine if_congr Iff.rfl rfl ?_
  rw [State.qu_setQu_other _ (partner_ne q)]
  rfl

end

/-- R174, R206: a SPILLED block leaves the inbox, and nothing of it stays. -/
theorem blockArrive_spilled_answers {s : State} {q : Fin 16} {b : Block} {rest : List Block} (h : (s.qu q).inbox = b :: rest)
    (hlost : s.quayLost q = false) (hb : b.final = false) : Answers (exec (.reducedBlockArrive q) s) (fun t =>
      (t.qu q).inbox = rest ∧ (t.qu q).blocks = (s.qu q).blocks ∧ (t.qu q).trig = (s.qu q).trig ∧ SameMemory s t ∧ Apart s t) := by
  have hq : (s.blockArrive q).qu q = { s.qu q with inbox := rest } := by
    rw [State.blockArrive_spilled h hlost hb, State.qu_setQu_same]
  exact ⟨_, exec_reducedBlockArrive q s, congrArg Quay.inbox hq, (congrArg Quay.blocks hq).trans rfl, (congrArg Quay.trig hq).trans rfl,
    (State.blockArrive_dry q (.refl s)).same, State.blockArrive_apart q (.refl s)⟩

/-- R174, R178, R206: a FINAL block that has room is staged and mirrored, and the second of a group triggers its update. -/
theorem blockArrive_staged_answers {s : State} {q : Fin 16} {b : Block} {rest : List Block} (h : (s.qu q).inbox = b :: rest)
    (hlost : s.quayLost q = false) (hb : b.final = true) (hroom : s.blockRoom q) : Answers (exec (.reducedBlockArrive q) s) (fun t =>
      t.qu q = (s.qu q).takeBlock b rest ∧
      (s.quayDegraded q = false → (t.qu (q.val ^^^ 1)).blockMirror = (s.qu (q.val ^^^ 1)).blockMirror ++ [b]) ∧
      SameMemory s t ∧ Apart s t) := by
  have heq := State.blockArrive_staged h hlost hb hroom
  refine ⟨_, exec_reducedBlockArrive q s, ?_, fun hd => ?_, (State.blockArrive_dry q (.refl s)).same, State.blockArrive_apart q (.refl s)⟩
  · rw [heq, State.qu_syncQuay, State.qu_mirrored_own]
  · rw [heq, State.qu_syncQuay, State.qu_mirrored_partner, hd]
    rfl

/-- R101, R174: the next slice stands at its unit and in the partner's mirror, and is counted as sent. -/
theorem sliceArrive_answers {s : State} {e : Fin 32} {k : Nat} {o : Outst} (hown : s.engOwner e = some k)
    (hfind : (s.q k).outst.find? (fun o => o.isMx && o.unit == e.val && o.issued && !o.slicesDone) = some o)
    (h : 64 * (o.run.sent / o.mn.2 + 1) ≤ o.run.row) {v : Slice}
    (hv : v = s.sliceOf k o (o.run.sent % o.mn.2) (o.run.sent / o.mn.2)) : Answers (exec (.quaySliceArrive e) s) (fun t =>
      (t.qu (octetOf v.addr)).staged = (s.qu (octetOf v.addr)).staged ++ [v] ∧
      (t.qu (octetOf v.addr ^^^ 1)).mirror = (if s.quayDegraded (octetOf v.addr) then (s.qu (octetOf v.addr ^^^ 1)).mirror
        else (s.qu (octetOf v.addr ^^^ 1)).mirror ++ [v]) ∧
      (∃ p ∈ (t.q k).outst, p.seq = o.seq ∧ p.run.sent = o.run.sent + 1) ∧ t.regs = s.regs ∧ SameMemory s t ∧ Apart s t) := by
  have heq := State.sliceArrive_stages hown hfind h hv
  have hqu : ∀ j, (s.sliceArrive e).qu j = (s.stageSlice (octetOf v.addr) v).qu j := fun j => by rw [heq]; rfl
  refine ⟨_, exec_quaySliceArrive e s, ?_, ?_, ?_, ?_, (State.sliceArrive_dry e (.refl s)).same, State.sliceArrive_apart e (.refl s)⟩
  · rw [hqu, State.stageSlice, State.qu_mirrored_own]
  · rw [hqu, State.stageSlice, State.qu_mirrored_partner]
    split <;> rfl
  · rw [heq]
    refine State.sentOne_mem ?_
    rw [State.q_stageSlice]
    exact List.mem_of_find?_eq_some hfind
  · rw [heq]
    exact s.stageSlice_regs _ v

end Sys2Proof.Machine

open Sys2Proof Sys2Proof.Machine in
/-- Settles O23: a reservation by whether its unit has room and nobody waits there, a grant by the reservation that waits longest, a
block by its mark and by the room for it, a slice by whether its rows are there. -/
theorem quayStaging : Obligations.QuayStaging := by
  refine ⟨fun s e wait k o hown hnext hstrm hkind hblocked hissue => ⟨fun hlost => ?_, fun q n hlost hneed hnew =>
      quayReserve_answers hown hnext hkind hblocked hissue hlost hneed hnew⟩,
    fun s q wait => ⟨fun h => ?_, fun r rest h => ⟨quayGrant_answers h, fun hf => ?_⟩, fun h => ?_,
      fun b rest h hlost => ⟨blockArrive_spilled_answers h hlost, fun hb hroom => ?_, fun hb hroom => ?_⟩⟩,
    fun s e k o hown hfind => ⟨fun h => sliceArrive_answers hown hfind h rfl, fun h => ?_⟩⟩
  · have heq := State.quayReserve_lost hown hnext hkind hblocked hissue hlost wait
    refine ⟨_, exec_quayReserve e wait s, fun hfirst => ?_, ?_, (State.quayReserve_dry e wait (.refl s)).same,
      State.quayReserve_apart e wait (.refl s)⟩
    · rw [heq]
      exact State.fld_faultOut_code (State.engOwner_lt hown) hstrm (by decide) hfirst e
    · rw [heq]
      exact s.flag_faultOut_stopFault k o 0x58 e
  · exact (exec_quayReservationGrant q wait s).trans (congrArg _ (State.quayGrant_empty h wait))
  · exact (exec_quayReservationGrant q wait s).trans (congrArg _ (State.quayGrant_full h hf wait))
  · exact (exec_reducedBlockArrive q s).trans (congrArg _ (State.blockArrive_empty h))
  · exact (exec_reducedBlockArrive q s).trans (congrArg _ (State.blockArrive_full h hlost hb hroom))
  · obtain ⟨t, hexec, hq, hmirror, hmem, hapart⟩ := blockArrive_staged_answers h hlost hb hroom
    exact ⟨t, hexec, congrArg Quay.inbox hq, congrArg Quay.blocks hq, congrArg Quay.trig hq, hmirror, hmem, hapart⟩
  · exact (exec_quaySliceArrive e s).trans (congrArg _ (State.sliceArrive_early hown hfind h))

end

section
/-! PROOFS. What dispatch, completion and faults leave of the contexts of the quay units, of the bindings and of the jobs. -/

namespace Sys2Proof.Machine

/-- The contexts of the quay units, the bindings and the jobs stand. -/
structure SameQuays (s t : State) : Prop where
  quay  : t.quay = s.quay
  binds : t.binds = s.binds
  jobs  : t.jobs = s.jobs

theorem SameQuays.refl (s : State) : SameQuays s s := ⟨rfl, rfl, rfl⟩

theorem SameQuays.qu {s t : State} (h : SameQuays s t) (q : Nat) : t.qu q = s.qu q := by rw [State.qu, h.quay, State.qu]

section
variable {z s : State} (h : SameQuays z s)
include h

theorem SameQuays.foldl {β : Type} {f : State → β → State} (hf : ∀ u b, SameQuays z u → SameQuays z (f u b)) (l : List β) :
    SameQuays z (l.foldl f s) :=
  List.foldlRecOn l f (motive := SameQuays z) h fun u hu b _ => hf u b hu

theorem SameQuays.setReg (a : Nat) (v : Word) : SameQuays z (s.setReg a v) := ⟨h.quay, h.binds, h.jobs⟩

theorem SameQuays.setQ (k : Nat) (c : Psq) : SameQuays z (s.setQ k c) := ⟨h.quay, h.binds, h.jobs⟩

theorem SameQuays.takeTokens (k mask : Nat) : SameQuays z (s.takeTokens k mask) := h.foldl (fun _ _ hu => hu.setReg _ _) _

theorem SameQuays.giveTokens (k mask : Nat) : SameQuays z (s.giveTokens k mask) := h.foldl (fun _ _ hu => hu.setReg _ _) _

theorem SameQuays.setOutst (k : Nat) (l : List Outst) : SameQuays z (s.setOutst k l) :=
  (h.setQ k _).foldl (fun _ _ hu => hu.setReg _ _) _

theorem SameQuays.stepIndex (k x pc : Nat) : SameQuays z (s.stepIndex k x pc) := ⟨h.quay, h.binds, h.jobs⟩

theorem SameQuays.advance (k x pc : Nat) : SameQuays z (s.advance k x pc) :=
  State.skipDone_rec (P := SameQuays z) (fun _ hu => ⟨hu.quay, hu.binds, hu.jobs⟩) (fun _ pc hu => hu.stepIndex k x pc) _
    (h.stepIndex k x pc)

end

theorem State.dispatchOut_sameQuays (s : State) (k : Nat) {x : Nat} (hx : x < 3) (w unit : Nat) (issued : Bool)
    (desc chain : List Byte) (frame : Nat) : SameQuays s (s.dispatchOut k x w unit issued desc chain frame) := by
  rw [State.dispatchOut_eq _ _ hx, State.enlist]
  exact ((((SameQuays.refl s).takeTokens _ _).setQ _ _).setOutst _ _).advance _ _ _

theorem State.dispatchDone_sameQuays {s : State} {k x w : Nat} (hx : x < 3) (h : NoOverflow s k w) (pc : Nat) :
    SameQuays s (s.dispatchDone k x w pc) := by
  rw [s.dispatchDone_of_noOverflow hx h]
  exact (((SameQuays.refl s).takeTokens _ _).advance _ _ _).giveTokens _ _

theorem State.complete_sameQuays {s : State} {k : Nat} {o : Outst} (h : PostsFit s k o.word) : SameQuays s (s.complete k o) := by
  rw [State.complete_of_postsFit h]
  exact ((SameQuays.refl s).setOutst _ _).giveTokens _ _

/-! ### the bindings where a fault is raised -/

theorem State.binds_foldl {β : Type} {f : State → β → State} (hf : ∀ u b, (f u b).binds = u.binds) (l : List β) (s : State) :
    (l.foldl f s).binds = s.binds :=
  List.foldlRecOn l f (motive := fun u : State => u.binds = s.binds) rfl fun u hu b _ => (hf u b).trans hu

theorem State.binds_rollback (s : State) (k : Nat) (gone : List Outst) (x : Nat) : (s.rollback k gone x).binds = s.binds := by
  unfold State.rollback
  dsimp only
  split
  · rfl
  · split <;> rfl

theorem State.binds_unwind (s : State) (k : Nat) (o : Outst) : (s.unwind k o).binds = s.binds := by
  unfold State.unwind
  dsimp only
  split
  · rfl
  · split
    · split <;> rfl
    · rfl

theorem State.binds_syncMxe (s : State) (k e : Nat) : (s.syncMxe k e).binds = s.binds := by
  unfold State.syncMxe
  dsimp only
  split
  · rfl
  · rw [State.setFld_binds, State.setFld_binds, State.setFld_binds]

theorem State.binds_syncDvu (s : State) (k e : Nat) : (s.syncDvu k e).binds = s.binds := by
  unfold State.syncDvu
  dsimp only
  split
  · rfl
  · exact s.setFld_binds _ _ _

theorem State.binds_syncUnits (s : State) (k : Nat) : (s.syncUnits k).binds = s.binds :=
  State.binds_foldl (fun u e => by rw [State.binds_syncDvu, State.binds_syncMxe]) _ s

theorem State.binds_withdraw (s : State) (k : Nat) : (s.withdraw k).binds = s.binds := by
  unfold State.withdraw State.withdrawSome
  dsimp only
  rw [State.setQ_binds, State.binds_syncUnits, ((SameQuays.refl _).setOutst k _).binds,
    State.binds_foldl (fun u o => by rw [State.binds_unwind, ((SameQuays.refl u).giveTokens k o.waits).binds]),
    State.binds_foldl (fun u x => u.binds_rollback k _ x)]

theorem State.binds_beginStop (s : State) (k : Nat) (cause : Fld) : (s.beginStop k cause).binds = s.binds := by
  unfold State.beginStop State.stopNow State.setPst
  split
  · rw [State.setFld_binds, State.binds_withdraw, State.setFld_binds]
  · rfl

/-- A fault leaves the bindings of the jobs. -/
theorem State.binds_raiseFault (s : State) (k x index code unit : Nat) (after : Bool) :
    (s.raiseFault k x index code unit after).binds = s.binds := by
  have hnote : (s.noteFrec k x index code unit after).binds = s.binds := by
    unfold State.noteFrec
    split <;> rfl
  rw [State.raiseFault_eq, State.faultStop, State.binds_beginStop]
  split
  · exact hnote
  · rw [State.stakeEvent_binds, hnote]

end Sys2Proof.Machine
end

section
/-! PROOFS. QUPD, QBIND, QCLR and QEMIT at the head of U (R185, R186, R187): their checks in their order, and what passes them. -/

namespace Sys2Proof.Machine

theorem exec_qupd (k : Fin 16) (s : State) : exec (.qupd k) s = .next (s.quayTensorOp k 0x28) := rfl

theorem exec_qclr (k : Fin 16) (s : State) : exec (.qclr k) s = .next (s.quayTensorOp k 0x2A) := rfl

theorem exec_qemit (k : Fin 16) (s : State) : exec (.qemit k) s = .next (s.quayTensorOp k 0x2B) := rfl

theorem exec_qbind (k : Fin 16) (s : State) : exec (.qbind k) s = .next (s.qbind k) := rfl

/-! ### the checks -/

theorem firstCode_getD_lt {l : List (Bool × Nat)} (h : ∀ c ∈ l.map (·.2), c < 256) : (firstCode l).getD 0 < 256 := by
  cases hc : firstCode l with
  | none => decide
  | some c => exact h c (mem_of_firstCode hc)

theorem State.quayFault_lt (s : State) (k daddr : Nat) (job : Option Nat) : s.quayFault k daddr job < 256 := by
  unfold State.quayFault
  extract_lets r mine
  split_ifs
  · decide
  · cases s.readQuay daddr with
    | none => exact (by decide : 0x51 < 256)
    | some p => exact firstCode_getD_lt (by simp)

section
variable {s : State} {k w opc : Nat} (h : Ready s k 2 w) (ho : opcOf w = opc) {rsv : Nat → Bool} {job : Nat → Option Nat}
  (body : Nat → List Byte → List Byte → State → State)
include h ho

theorem State.quayOp_reserved (hr : rsv w = true) :
    s.quayOp k opc rsv job body = s.raiseFault k 2 (s.indexOf k 2) 0x50 0xFF false := by
  rw [State.quayOp, State.withHead_ready h (by simp [ho])]
  exact if_pos hr

variable (hr : rsv w = false)
include hr

theorem State.quayOp_refused (hf : s.quayFault k (bits w 64 52) (job w) ≠ 0) : s.quayOp k opc rsv job body =
    s.raiseFault k 2 (s.indexOf k 2) (s.quayFault k (bits w 64 52) (job w)) 0xFF false := by
  rw [State.quayOp, State.withHead_ready h (by simp [ho])]
  dsimp only
  rw [if_neg (by simp [hr]), if_pos hf]

theorem State.quayOp_passed (hf : s.quayFault k (bits w 64 52) (job w) = 0) {b mp : List Byte}
    (hb : s.readQuay (bits w 64 52) = some (b, mp)) : s.quayOp k opc rsv job body = body w b mp s := by
  rw [State.quayOp, State.withHead_ready h (by simp [ho])]
  dsimp only
  rw [if_neg (by simp [hr]), if_neg (by simp [hf])]
  simp only [hb]

end

/-- A quay instruction that raises `code`: its stream's record holds it, bindings and memory stand. -/
def QuayRaises (c : Instr) (s : State) (k code : Nat) : Prop :=
  Answers (exec c s) (fun t => Faulted s t k 2 code (s.indexOf k 2) ∧ t.binds = s.binds ∧ SameMemory s t ∧ Apart s t)

theorem quayRaises_of_raiseFault {c : Instr} {s : State} {k code unit : Nat} {after : Bool} (hk : k < 16) (hc : code < 256)
    (h : exec c s = .next (s.raiseFault k 2 (s.indexOf k 2) code unit after)) : QuayRaises c s k code :=
  ⟨_, h, s.raiseFault_faulted hk (by decide) hc _ unit after, s.binds_raiseFault ..,
    (State.raiseFault_dry k 2 _ code unit after (.refl s)).same, State.raiseFault_apart k 2 _ code unit after (.refl s)⟩

/-! ### a trigger at every unit of a tensor -/

/-- A trigger of an operation put last at each unit of `us` (R185). -/
def State.triggerOp (s : State) (us : List Nat) (k n : Nat) : State :=
  s.forAll us (fun u q => u.setQu q { u.qu q with trig := (u.qu q).trig ++ [.op k n] })

theorem State.regs_triggerOp (s : State) (us : List Nat) (k n : Nat) : (s.triggerOp us k n).regs = s.regs :=
  List.foldlRecOn us _ (motive := fun u : State => u.regs = s.regs) rfl fun _ hu _ _ => hu

theorem State.q_triggerOp (s : State) (us : List Nat) (k n j : Nat) : (s.triggerOp us k n).q j = s.q j :=
  List.foldlRecOn us _ (motive := fun u : State => u.q j = s.q j) rfl fun _ hu _ _ => hu

/-- A unit that is not among `us` gets no trigger, one that is gets it once. -/
theorem State.trig_triggerOp (s : State) {us : List Nat} (hnd : us.Nodup) (k n q : Nat) :
    ((s.triggerOp us k n).qu q).trig = (s.qu q).trig ++ (if q ∈ us then [.op k n] else []) := by
  unfold State.triggerOp State.forAll
  induction us generalizing s with
  | nil => simp
  | cons p us ih =>
    obtain ⟨hp, hnd⟩ := List.nodup_cons.mp hnd
    rw [List.foldl_cons, ih _ hnd, State.qu_setQu]
    by_cases hq : q = p
    · subst hq
      simp [hp]
    · simp [hq]

theorem Tensor.nodup_units (t : Tensor) (g : Nat) : (t.units g).Nodup := List.nodup_range.filter _

/-! ### the instructions -/

/-- The bits of a QUPD, QCLR or QEMIT that Table 7-4 does not list. -/
def tensorOpReserved (w : Nat) : Bool := decide (bits w 32 32 ≠ 0) || decide (bits w 116 12 ≠ 0)

/-- Those of a QBIND. -/
def qbindReserved (w : Nat) : Bool := decide (bits w 38 26 ≠ 0) || decide (bits w 116 12 ≠ 0)

theorem tensorOpReserved_iff (w : Nat) : tensorOpReserved w = true ↔ bits w 32 32 ≠ 0 ∨ bits w 116 12 ≠ 0 := by
  simp [tensorOpReserved]

theorem tensorOpReserved_eq_false (w : Nat) : tensorOpReserved w = false ↔ ¬ (bits w 32 32 ≠ 0 ∨ bits w 116 12 ≠ 0) := by
  rw [← tensorOpReserved_iff, Bool.not_eq_true]

theorem qbindReserved_iff (w : Nat) : qbindReserved w = true ↔ bits w 38 26 ≠ 0 ∨ bits w 116 12 ≠ 0 := by
  simp [qbindReserved]

theorem qbindReserved_eq_false (w : Nat) : qbindReserved w = false ↔ ¬ (bits w 38 26 ≠ 0 ∨ bits w 116 12 ≠ 0) := by
  rw [← qbindReserved_iff, Bool.not_eq_true]

section
variable {s : State} {k : Fin 16} {w : Nat} (h : Ready s k 2 w)
include h

/-- R185, R186: a QUPD, QCLR or QEMIT raises its first fault, or is outstanding with a trigger at every unit of its tensor. -/
theorem quayTensorOp_answers {c : Instr} {opc : Nat} (hexec : exec c s = .next (s.quayTensorOp k opc)) (ho : opcOf w = opc) :
    (bits w 32 32 ≠ 0 ∨ bits w 116 12 ≠ 0 → QuayRaises c s k 0x50) ∧
    (¬ (bits w 32 32 ≠ 0 ∨ bits w 116 12 ≠ 0) → s.quayFault k (bits w 64 52) none ≠ 0 →
      QuayRaises c s k (s.quayFault k (bits w 64 52) none)) ∧
    (∀ b mp, ¬ (bits w 32 32 ≠ 0 ∨ bits w 116 12 ≠ 0) → s.quayFault k (bits w 64 52) none = 0 →
      s.readQuay (bits w 64 52) = some (b, mp) →
      Answers (exec c s) (fun t => Dispatched s t k 2 w 0 true ∧ t.newestDescs k = some (b, mp) ∧
        (∀ q ∈ ((parseQuay b).tensor (s.gsize k)).units (s.gsize k), (t.qu q).trig = (s.qu q).trig ++ [.op k (s.q k).fresh]) ∧
        SameMemory s t ∧ Apart s t)) := by
  rw [← tensorOpReserved_eq_false, ← tensorOpReserved_iff]
  refine ⟨fun hr => ?_, fun hr hf => ?_, fun b mp hr hf hb => ?_⟩
  · exact quayRaises_of_raiseFault k.isLt (by decide) (hexec.trans (congrArg _ (State.quayOp_reserved h ho _ hr)))
  · exact quayRaises_of_raiseFault k.isLt (s.quayFault_lt ..) (hexec.trans (congrArg _ (State.quayOp_refused h ho _ hr hf)))
  · let u := s.dispatchOut k 2 w 0 true b mp 0
    let us := ((parseQuay b).tensor (s.gsize k)).units (s.gsize k)
    have heq : s.quayTensorOp k opc = u.triggerOp us k (s.q k).fresh := State.quayOp_passed h ho _ hr hf hb
    have hq : (u.triggerOp us k (s.q k).fresh).q k = u.q k := u.q_triggerOp us k _ k
    refine ⟨_, hexec, ?_, ?_, fun q hmem => ?_, (State.quayTensorOp_dry k opc (.refl s)).same, State.quayTensorOp_apart k opc (.refl s)⟩
    · rw [heq]
      refine (s.dispatchOut_dispatched k (by decide) w 0 true b mp 0).congr hq fun a _ => ?_
      rw [State.reg, State.regs_triggerOp, State.reg]
    · rw [heq, State.newestDescs, hq]
      exact s.dispatchOut_newestDescs k (by decide) w 0 true b mp 0
    · rw [heq, State.trig_triggerOp _ (Tensor.nodup_units _ _), if_pos hmem]
      exact congrArg (fun c : Quay => c.trig ++ _) ((s.dispatchOut_sameQuays k (by decide) w 0 true b mp 0).qu q)

/-- R185, R187: a QBIND raises its first fault, or adds its binding and completes. -/
theorem qbind_answers (ho : opcOf w = 0x29) :
    (bits w 38 26 ≠ 0 ∨ bits w 116 12 ≠ 0 → QuayRaises (.qbind k) s k 0x50) ∧
    (¬ (bits w 38 26 ≠ 0 ∨ bits w 116 12 ≠ 0) → s.quayFault k (bits w 64 52) (some (bits w 32 6)) ≠ 0 →
      QuayRaises (.qbind k) s k (s.quayFault k (bits w 64 52) (some (bits w 32 6)))) ∧
    (∀ b mp, ¬ (bits w 38 26 ≠ 0 ∨ bits w 116 12 ≠ 0) → s.quayFault k (bits w 64 52) (some (bits w 32 6)) = 0 →
      s.readQuay (bits w 64 52) = some (b, mp) → NoOverflow s k w → Answers (exec (.qbind k) s) (fun t =>
        t.binds = s.binds ++ [⟨bits w 32 6, k, b, mp, s.fld (R.psqStep k) (0, 32), s.indexOf k 2⟩] ∧
        DoneAtOnce s t k 2 w (s.pcOf k 2 + 1) ∧ SameMemory s t ∧ Apart s t)) := by
  rw [← qbindReserved_eq_false, ← qbindReserved_iff]
  refine ⟨fun hr => ?_, fun hr hf => ?_, fun b mp hr hf hb hfit => ?_⟩
  · exact quayRaises_of_raiseFault k.isLt (by decide) ((exec_qbind k s).trans (congrArg _ (State.quayOp_reserved h ho _ hr)))
  · exact quayRaises_of_raiseFault k.isLt (s.quayFault_lt ..)
      ((exec_qbind k s).trans (congrArg _ (State.quayOp_refused h ho (job := fun w => some (bits w 32 6)) _ hr hf)))
  · let u : State := { s with binds := s.binds ++ [⟨bits w 32 6, k, b, mp, s.fld (R.psqStep k) (0, 32), s.indexOf k 2⟩] }
    have heq : s.qbind k = u.dispatchDone k 2 w (s.pcOf k 2 + 1) :=
      State.quayOp_passed h ho (job := fun w => some (bits w 32 6)) _ hr hf hb
    refine ⟨_, exec_qbind k s, ?_, ?_, (State.qbind_dry k (.refl s)).same, State.qbind_apart k (.refl s)⟩
    · rw [heq]
      exact (State.dispatchDone_sameQuays (s := u) (by decide) hfit _).binds
    · rw [heq]
      exact State.dispatchDone_doneAtOnce u (by decide) hfit _

end

end Sys2Proof.Machine
end

section
/-! PROOFS. What the work of quay units on record groups changes beside memory (R176-R183, R190): registers of the quay units and those
that count errors, triggers that leave, and poison that is replaced. -/

namespace Sys2Proof.Machine

/-- A register of a quay unit or beyond, or one that counts and records errors of the arrays. -/
def QuayReg (a : Nat) : Prop := R.quyId 0 ≤ a ∨ a ∈ errorRegs

theorem errorRegs_cases {a : Nat} (h : a ∈ errorRegs) :
    a = R.cxtErr ∨ (∃ i, i < 8 ∧ (a = R.memEcc i ∨ a = R.memErrAddr i)) ∨ ∃ e, e < 32 ∧ a = R.mxeEcc e := by
  rcases List.mem_append.mp h with h | h
  · rcases List.mem_cons.mp h with rfl | h
    · exact .inl rfl
    · obtain ⟨i, hi, h⟩ := List.mem_flatMap.mp h
      exact .inr (.inl ⟨i, List.mem_range.mp hi, by simpa using h⟩)
  · obtain ⟨e, he, rfl⟩ := List.mem_map.mp h
    exact .inr (.inr ⟨e, List.mem_range.mp he, rfl⟩)

/-- Nothing below the quay units but the counts of errors is theirs. -/
theorem not_quayReg {a : Nat} (hlt : a < R.quyId 0) (hcxt : a ≠ R.cxtErr) (hmem : ∀ i, i < 8 → a ≠ R.memEcc i ∧ a ≠ R.memErrAddr i)
    (hmxe : ∀ e, e < 32 → a ≠ R.mxeEcc e) : ¬ QuayReg a := by
  rintro (h | h)
  · omega
  · rcases errorRegs_cases h with h | ⟨i, hi, h⟩ | ⟨e, he, h⟩
    · exact hcxt h
    · exact h.elim (hmem i hi).1 (hmem i hi).2
    · exact hmxe e he h

theorem PsqReg.not_quayReg {a : Nat} (h : PsqReg a) : ¬ QuayReg a := by
  obtain ⟨hlo, hhi⟩ := h
  unfold R.psqId at hlo
  exact Machine.not_quayReg hhi (by unfold R.cxtErr; omega) (fun i _ => by unfold R.memEcc R.memErrAddr; omega)
    (fun e _ => by unfold R.mxeEcc; omega)

/-- The registers of the CXL ports and decoders. -/
theorem not_quayReg_of_cxt {a : Nat} (h : a < R.mxeId 0) (hne : a ≠ R.cxtErr) : ¬ QuayReg a := by
  unfold R.mxeId at h
  exact not_quayReg (by unfold R.quyId; omega) hne (fun i _ => by unfold R.memEcc R.memErrAddr; omega)
    (fun e _ => by unfold R.mxeEcc; omega)

theorem not_quayReg_memStatus {i : Nat} (h : i < 8) : ¬ QuayReg (R.memStatus i) :=
  not_quayReg (by unfold R.memStatus R.quyId; omega) (by unfold R.memStatus R.cxtErr; omega)
    (fun j _ => by unfold R.memStatus R.memEcc R.memErrAddr; omega) (fun e _ => by unfold R.memStatus R.mxeEcc; omega)

theorem not_quayReg_lkStatus : ¬ QuayReg R.lkStatus := not_quayReg_of_cxt (by decide) (by decide)

/-- What stands beside memory where quay units have worked on record groups and met no new poison. -/
structure GroupWork (s t : State) : Prop where
  weave  : t.weave = s.weave
  q      : ∀ k, t.q k = s.q k
  jobs   : t.jobs = s.jobs
  trig   : ∀ q, (t.qu q).trig ⊆ (s.qu q).trig
  poison : t.poison ⊆ s.poison
  regs   : ∀ a, ¬ QuayReg a → t.reg a = s.reg a

theorem GroupWork.refl (s : State) : GroupWork s s := ⟨rfl, fun _ => rfl, rfl, fun _ _ h => h, fun _ h => h, fun _ _ => rfl⟩

theorem GroupWork.trans {r s t : State} (h : GroupWork r s) (h' : GroupWork s t) : GroupWork r t where
  weave := h'.weave.trans h.weave
  q := fun k => (h'.q k).trans (h.q k)
  jobs := h'.jobs.trans h.jobs
  trig := fun q => List.Subset.trans (h'.trig q) (h.trig q)
  poison := List.Subset.trans h'.poison h.poison
  regs := fun a ha => (h'.regs a ha).trans (h.regs a ha)

/-! ### what keeps it -/

section
variable {z s : State} (h : GroupWork z s)
include h

theorem GroupWork.setReg {a : Nat} (ha : QuayReg a) (v : Word) : GroupWork z (s.setReg a v) :=
  ⟨h.weave, h.q, h.jobs, h.trig, h.poison, fun b hb => (s.reg_setReg_other a b v (fun e => hb (e ▸ ha))).trans (h.regs b hb)⟩

theorem GroupWork.addSat {a : Nat} (ha : QuayReg a) (f : Fld) (n : Nat) : GroupWork z (s.addSat a f n) := h.setReg ha _

theorem GroupWork.count {a : Nat} (ha : QuayReg a) (n : Nat) : GroupWork z (s.count a n) := h.setReg ha _

theorem GroupWork.tap (k i maxabs nonfin sat : Nat) : GroupWork z (s.tap k i maxabs nonfin sat) :=
  ⟨h.weave, h.q, h.jobs, h.trig, h.poison, h.regs⟩

/-- A trigger may leave a unit. -/
theorem GroupWork.setQu {q : Nat} {c : Quay} (hc : c.trig ⊆ (s.qu q).trig) : GroupWork z (s.setQu q c) where
  weave := h.weave
  q := h.q
  jobs := h.jobs
  trig := fun j => by
    rw [State.qu_setQu]
    split
    next hj => exact hj ▸ List.Subset.trans hc (h.trig q)
    · exact h.trig j
  poison := h.poison
  regs := h.regs

theorem GroupWork.noteCxl (a n : Nat) (read : Bool) : GroupWork z (s.noteCxl a n read) where
  weave := (s.noteCxl_weave a n read).trans h.weave
  q := fun k => (s.noteCxl_q a n read k).trans (h.q k)
  jobs := (s.noteCxl_jobs a n read).trans h.jobs
  trig := fun q => (s.noteCxl_qu a n read q).symm ▸ h.trig q
  poison := (s.noteCxl_poison a n read).symm ▸ h.poison
  regs := fun b hb => (s.reg_noteCxl a n b read (fun e => hb (.inr (e ▸ cxtErr_mem_errorRegs)))).trans (h.regs b hb)

/-- A write clears the poison that it replaces whole (R82). -/
theorem GroupWork.wr (a : Nat) (l : List Byte) : GroupWork z (s.wr a l) where
  weave := (s.wr_weave a l).trans h.weave
  q := fun k => (s.wr_q a l k).trans (h.q k)
  jobs := (s.wr_jobs a l).trans h.jobs
  trig := fun q => (s.wr_qu a l q).symm ▸ h.trig q
  poison := by
    unfold State.wr
    split
    · exact (s.noteCxl_poison a l.length false).symm ▸ h.poison
    · have hfilter : ((s.setBytes a l).cleanse a l.length).poison ⊆ (s.setBytes a l).poison := fun _ hp => List.mem_of_mem_filter hp
      rw [State.setBytes_poison] at hfilter
      exact List.Subset.trans hfilter h.poison
  regs := fun b hb => (s.reg_wr a b l (fun e => hb (.inr (e ▸ cxtErr_mem_errorRegs)))).trans (h.regs b hb)

theorem GroupWork.foldl {β : Type} {f : State → β → State} (l : List β) (hf : ∀ u, ∀ b ∈ l, GroupWork z u → GroupWork z (f u b)) :
    GroupWork z (l.foldl f s) :=
  List.foldlRecOn l f (motive := GroupWork z) h fun u hu b hb => hf u b hb hu

/-- Corrected errors are counted, and poison nothing (R82, R263). -/
theorem GroupWork.spadEcc {a ecc : Nat} (ha : isSpadStride a = true) (hecc : ecc < 2) : GroupWork z (s.spadEcc a ecc) := by
  unfold State.spadEcc
  dsimp only
  split
  · exact h
  · rw [if_pos (by omega)]
    exact h.addSat (.inr (mxeEcc_mem_errorRegs (spadEng_lt_of_stride ha))) _ _

theorem GroupWork.eccRead {a ecc : Nat} (hecc : ecc < 2) : GroupWork z (s.eccRead a ecc) := by
  unfold State.eccRead
  split
  · exact h
  next hne =>
    have hone : ecc = 1 := by omega
    rw [if_pos hone, if_pos hone]
    split
    · exact h
    · split
      · exact h
      next hhbm => exact h.addSat (.inr (memEcc_mem_errorRegs (octetOf_lt (by simpa using hhbm)))) _ _

theorem GroupWork.readErrs {x : Errs} (hx : Corrected x) (spans : List (Nat × Nat)) : GroupWork z (s.readErrs spans x) := by
  unfold State.readErrs State.arrayErrs
  refine GroupWork.foldl (h.foldl _ fun u p hp hu => ?_) _ fun u r _ hu => hu.noteCxl _ _ _
  have hp := hx p (List.mem_of_mem_filter hp)
  split
  next hspad => exact hu.spadEcc (isSpadStride_of_isSpad hspad) hp
  · exact hu.eccRead hp

/-- Reads of no interval find no error. -/
theorem GroupWork.readErrs_nil (x : Errs) : GroupWork z (s.readErrs [] x) := by
  have hnil : s.readErrs [] x = s := by simp [State.readErrs, State.arrayErrs]
  rwa [hnil]

theorem GroupWork.quayErrs {x : Errs} {spans : List (Nat × Nat)} (hx : Corrected x ∨ spans = []) (q buf unc : Nat) :
    GroupWork z (s.quayErrs q spans x buf unc) := by
  have hreg : QuayReg (R.quyEcc q) := .inl (by unfold R.quyId R.quyEcc; omega)
  have hread : GroupWork z (s.readErrs spans x) := by
    rcases hx with hx | rfl
    · exact h.readErrs hx spans
    · exact h.readErrs_nil x
  exact (hread.addSat hreg _ _).addSat hreg _ _

end

theorem postOf_lt (w : Nat) : postOf w < 256 := bits_lt w 24 8

/-! ### what it leaves to reads and writes of memory -/

section
variable {s t : State} (h : GroupWork s t)
include h

theorem GroupWork.fld {a : Nat} (ha : ¬ QuayReg a) (f : Fld) : t.fld a f = s.fld a f := by rw [State.fld, h.regs a ha, State.fld]

theorem GroupWork.stake (k : Nat) : t.stake k = s.stake k := by unfold State.stake; rw [h.weave]

theorem GroupWork.gsize (k : Nat) : t.gsize k = s.gsize k := by rw [State.gsize, h.stake, State.gsize]

theorem GroupWork.stackLost (a : Nat) : t.stackLost a = s.stackLost a := by
  unfold State.stackLost
  cases ha : isHbm a with
  | false => rfl
  | true => rw [h.fld (not_quayReg_memStatus (octetOf_lt ha))]

theorem GroupWork.decBase {n : Nat} (hn : n < 8) (f : Fld) : t.fld (R.cxtDecBase n) f = s.fld (R.cxtDecBase n) f :=
  h.fld (not_quayReg_of_cxt (by unfold R.cxtDecBase R.mxeId; omega) (by unfold R.cxtDecBase R.cxtErr; omega)) f

theorem GroupWork.decCtl {n : Nat} (hn : n < 8) (f : Fld) : t.fld (R.cxtDecCtl n) f = s.fld (R.cxtDecCtl n) f :=
  h.fld (not_quayReg_of_cxt (by unfold R.cxtDecCtl R.mxeId; omega) (by unfold R.cxtDecCtl R.cxtErr; omega)) f

theorem GroupWork.decoder (a : Nat) : t.decoder a = s.decoder a := by
  unfold State.decoder firstOf
  refine List.find?_congr fun n hn => ?_
  have hn := List.mem_range.mp hn
  rw [State.flag, h.decCtl hn, State.flag, h.decBase hn,
    h.fld (a := R.cxtDecSize n) (not_quayReg_of_cxt (by unfold R.cxtDecSize R.mxeId; omega) (by unfold R.cxtDecSize R.cxtErr; omega))]

theorem GroupWork.cxlDown (a : Nat) : t.cxlDown a = s.cxlDown a := by
  unfold State.cxlDown
  rw [h.decoder]
  split
  · rfl
  next n hn =>
    have hn : n < 8 := by
      unfold State.decoder firstOf at hn
      exact List.mem_range.mp (List.mem_of_find?_eq_some hn)
    have hport : t.decPort n a = s.decPort n a := by simp only [State.decPort, h.decCtl hn, h.decBase hn]
    have hlt : s.decPort n a < 4 := Nat.mod_lt _ (by decide)
    rw [hport, State.flag, State.flag, h.fld (not_quayReg_of_cxt (by unfold R.cxtPStatus R.mxeId; omega)
      (by unfold R.cxtPStatus R.cxtErr; omega))]

theorem GroupWork.lands {a n : Nat} (hl : Lands s a n) : Lands t a n := by
  rwa [Lands, State.dropped, h.stackLost, h.decoder, h.cxlDown, State.asuPart_congr h.weave]

theorem GroupWork.bad {a n : Nat} (hb : s.bad a n = false) : t.bad a n = false := by
  simp only [State.bad, Bool.or_eq_false_iff, h.stackLost] at hb ⊢
  obtain ⟨⟨hpoison, hfirst⟩, hlast⟩ := hb
  refine ⟨⟨?_, hfirst⟩, hlast⟩
  rw [List.any_eq_false] at hpoison ⊢
  exact fun p hp => hpoison p (h.poison hp)

/-- What could be read can still be read. -/
theorem GroupWork.unreadable {a n : Nat} (hr : s.unreadable a n = false) : t.unreadable a n = false := by
  simp only [State.unreadable, Bool.or_eq_false_iff] at hr ⊢
  obtain ⟨⟨herr, hfabric⟩, hcut⟩ := hr
  refine ⟨⟨?_, ?_⟩, ?_⟩
  · rwa [State.err, h.decoder, h.decoder]
  · unfold State.badFabric at hfabric ⊢
    split at hfabric
    next hs => exact (if_pos hs).trans (h.bad hfabric)
    next hs => exact (if_neg hs).trans (h.bad hfabric)
  · simpa only [State.cxlCut, h.cxlDown] using hcut

theorem GroupWork.scaleBad {d : QuayD} {n : Nat} (hs : s.scaleBad d n = false) : t.scaleBad d n = false := by
  simp only [State.scaleBad, Bool.and_eq_false_iff] at hs ⊢
  exact hs.imp_right h.unreadable

theorem GroupWork.badMasters {a : Nat} (hm : s.badMasters a = []) : t.badMasters a = [] := by
  simp only [State.badMasters, List.filter_eq_nil_iff, Bool.not_eq_true] at hm ⊢
  exact fun i hi => h.unreadable (hm i hi)

/-! ### what it leaves to the pass sequencers -/

theorem GroupWork.tok {k c : Nat} (hk : k < 16) (hc : c < 64) : t.tok k c = s.tok k c :=
  State.tok_congr (fun i hi => h.regs _ (PsqReg.not_quayReg ⟨by unfold R.psqId R.psqToken; omega, by unfold R.psqToken R.quyId; omega⟩)) hc

theorem GroupWork.tset {k v : Nat} (hk : k < 16) (hv : v < 256) : t.tset k v = s.tset k v := by
  unfold State.tset
  rw [h.regs _ (PsqReg.not_quayReg ⟨by unfold R.psqId R.psqTset; omega, by unfold R.psqTset R.quyId; omega⟩)]

theorem GroupWork.postsFit {k w : Nat} (hk : k < 16) (hp : PostsFit s k w) : PostsFit t k w := by
  intro c hc
  rw [h.tset hk (postOf_lt w)] at hc
  have hlt : c < 64 := by
    by_contra hge
    have hset : s.tset k (postOf w) < 2 ^ c := by
      refine Nat.lt_of_lt_of_le ?_ (Nat.pow_le_pow_right (by decide) (Nat.le_of_not_lt hge))
      unfold State.tset
      split
      · decide
      · exact BitVec.isLt _
    rw [Nat.testBit_lt_two_pow hset] at hc
    cases hc
  rw [h.tok hk hlt]
  exact hp c hc

/-- A completion is seen in what the work leaves. -/
theorem GroupWork.completed {u : State} {k : Nat} {o : Outst} (hk : k < 16) (hc : Completed t u k o) : Completed s u k o := by
  obtain ⟨hout, hpost⟩ := hc
  refine ⟨by rw [hout, h.q], fun c hc => ?_⟩
  rw [hpost c hc, h.tok hk hc, h.tset hk (postOf_lt o.word)]

end

end Sys2Proof.Machine
end

section
/-! PROOFS. A record group and its working copy in memory (R171, R179, R180, R182): what an update, a clear and an emit of one group
write. -/

namespace Sys2Proof.Machine

/-! ### 64 values of a group -/

theorem State.fp64s_congr {s t : State} {a : Nat} (h : ∀ y, a ≤ y → y < a + 256 → t.byte y = s.byte y) : t.fp64s a = s.fp64s a := by
  refine List.map_congr_left fun j hj => congrArg ofBytes (List.map_congr_left fun i hi => h _ ?_ ?_) <;>
    have hj := List.mem_range.mp hj <;> have hi := List.mem_range.mp hi <;> omega

theorem SameMemory.fp64s {s t : State} (h : SameMemory s t) (a : Nat) : t.fp64s a = s.fp64s a := State.fp64s_congr fun y _ _ => h y

theorem SameMemory.moments {s t : State} (h : SameMemory s t) (m12 : Bool) (a i : Nat) : t.moments m12 a i = s.moments m12 a i := by
  unfold State.moments
  rw [h.fp64s]
  simp only [State.num_congr h]

theorem MemoryBut.fp64s {l : List (Nat × Nat)} {s t : State} {a : Nat} (h : MemoryBut l s t)
    (hl : ∀ r ∈ l, r.1 + r.2 ≤ a ∨ a + 256 ≤ r.1) : t.fp64s a = s.fp64s a :=
  State.fp64s_congr fun y _ _ => h y fun r hr => by
    have := hl r hr
    omega

theorem State.fp64s_of_zeros {s : State} {a : Nat} (h : ∀ y, a ≤ y → y < a + 256 → s.byte y = 0) :
    s.fp64s a = List.replicate 64 0 := by
  refine List.eq_replicate_iff.mpr ⟨by simp [State.fp64s], fun v hv => ?_⟩
  obtain ⟨j, hj, rfl⟩ := List.mem_map.mp hv
  have hj := List.mem_range.mp hj
  have hbytes : s.bytes (a + 4 * j) 4 = List.replicate 4 0 := by
    refine List.eq_replicate_iff.mpr ⟨by simp [State.bytes], fun b hb => ?_⟩
    obtain ⟨i, hi, rfl⟩ := List.mem_map.mp hb
    have hi := List.mem_range.mp hi
    exact h _ (by omega) (by omega)
  rw [State.num, hbytes]
  rfl

theorem length_fp32Bytes (l : List Nat) : (fp32Bytes l).length = 4 * l.length := by
  simp [fp32Bytes, List.length_flatMap, Nat.mul_comm]

/-- 64 codes that a write has stored read back. -/
theorem State.fp64s_wr {s : State} {a : Nat} {l : List Nat} (hl : l.length = 64) (h : Lands s a 256) :
    (s.wr a (fp32Bytes l)).fp64s a = l.map (· % 2 ^ 32) := by
  refine List.ext_getElem (by simp [State.fp64s, hl]) fun j hj hj' => ?_
  have hj : j < l.length := by simpa using hj'
  have hsplit : fp32Bytes l = fp32Bytes (l.take j) ++ toBytes 4 l[j] ++ fp32Bytes (l.drop (j + 1)) := by
    have h := congrArg fp32Bytes (List.take_append_drop j l).symm
    rw [List.drop_eq_getElem_cons hj] at h
    rw [h, List.append_assoc]
    exact List.flatMap_append.trans (congrArg _ List.flatMap_cons)
  have hlen : (fp32Bytes (l.take j)).length = 4 * j := by rw [length_fp32Bytes, List.length_take, Nat.min_eq_left hj.le]
  have hland : Lands s a (fp32Bytes (l.take j) ++ toBytes 4 l[j] ++ fp32Bytes (l.drop (j + 1))).length := by
    rwa [← hsplit, length_fp32Bytes, hl]
  have hnum := State.num_wr_append hland
  rw [← hsplit, hlen] at hnum
  simpa [State.fp64s] using hnum

/-! ### zeros written -/

/-- A write of zeros leaves zeros. -/
theorem State.byte_wr_zeros {s : State} {a n y : Nat} (h : s.byte y = 0) : (s.wr a (List.replicate n 0)).byte y = 0 := by
  by_cases hl : Lands s a (List.replicate n (0 : Byte)).length
  · rw [s.byte_wr a y _ hl.1 hl.2]
    split
    · simp
    · exact h
  · have hdrop : s.wr a (List.replicate n 0) = s.noteCxl a (List.replicate n (0 : Byte)).length false :=
      if_pos (by simpa [Lands, or_iff_not_imp_left] using hl)
    rw [hdrop, State.noteCxl_byte, h]

theorem State.byte_wr_zeros_within {s : State} {a n y : Nat} (h : Lands s a n) (hlo : a ≤ y) (hhi : y < a + n) :
    (s.wr a (List.replicate n 0)).byte y = 0 := by
  rw [s.byte_wr a y _ h.1 (by simpa using h.2), if_pos ⟨hlo, by simpa using hhi⟩]
  simp

theorem State.wr_zeros_memoryBut (s : State) (a n : Nat) : MemoryBut [(a, n)] s (s.wr a (List.replicate n 0)) := by
  simpa using s.wr_memoryBut a (List.replicate n 0)

/-! ### accumulators cleared -/

theorem GroupWork.clearGroup {z s : State} (h : GroupWork z s) (k a : Nat) : GroupWork z (s.clearGroup k a) :=
  (h.wr _ _).count (.inl (by unfold R.quyId R.quySCntClr; omega)) 1

theorem State.clearGroup_memoryBut (s : State) (k a : Nat) :
    MemoryBut [(a + accOff (s.stake k).master12, 256)] s (s.clearGroup k a) := s.wr_zeros_memoryBut _ 256

/-! ### the working copy -/

/-- Under MX scales a copy has two scale bytes (R182). -/
theorem State.copyConv_scales (s : State) (key : SrKey) {d : QuayD} (h : d.wscm = 2) (n c : Nat) (ws : List Nat) :
    (s.copyConv key d n c ws).2.length = 2 := by
  unfold State.copyConv
  dsimp only
  rw [if_pos h]
  rfl

/-- The working copy of a group written from 64 masters (R182). -/
def State.wrWorking (s : State) (k : Nat) (d : QuayD) (n c : Nat) (ws : List Nat) : State :=
  let p := s.copyConv (s.quayKey k d 0x40000000) d n c ws
  s.wrCopy d n c p.1 p.2 (s.scaleBad d n)

section
variable {s : State} {d : QuayD} {n : Nat} (hs : s.scaleBad d n = false) (k c : Nat) (ws : List Nat)
include hs

theorem GroupWork.wrWorking {z : State} (h : GroupWork z s) : GroupWork z (s.wrWorking k d n c ws) := by
  unfold State.wrWorking State.wrCopy
  dsimp only
  rw [if_neg (by simp [hs])]
  split
  · exact (h.wr _ _).wr _ _
  · exact h.wr _ _

theorem State.wrWorking_memoryBut : MemoryBut (copyStores d n c) s (s.wrWorking k d n c ws) := by
  unfold State.wrWorking State.wrCopy copyStores
  dsimp only
  rw [hs, if_neg Bool.false_ne_true]
  generalize hlen : 8 * d.wwidth = len
  have hcopy : ∀ v, MemoryBut [(d.copyAddr n c, len)] s (s.wr (d.copyAddr n c) (toBytes len v)) := fun v => by
    have h := s.wr_memoryBut (d.copyAddr n c) (toBytes len v)
    rwa [length_toBytes] at h
  split
  next hmx =>
    have hscale : ∀ u : State, MemoryBut [(d.wsaddr + n * (d.cols / 32) + 2 * c, 2)] u (u.wr (d.wsaddr + n * (d.cols / 32) + 2 * c)
        ((s.copyConv (s.quayKey k d 0x40000000) d n c ws).2.map (BitVec.ofNat 8))) := fun u => by
      have h := u.wr_memoryBut (d.wsaddr + n * (d.cols / 32) + 2 * c)
        ((s.copyConv (s.quayKey k d 0x40000000) d n c ws).2.map (BitVec.ofNat 8))
      rwa [List.length_map, s.copyConv_scales _ hmx] at h
    exact ((hcopy _).mono (List.cons_subset_cons _ (List.nil_subset _))).trans ((hscale _).mono (List.subset_cons_self _ _))
  · exact hcopy _

end

/-! ### the records of an update -/

/-- The records of a group written back from what the optimiser gives: masters, both moments, and cleared accumulators (R178-R180). -/
def State.wrRecords (s : State) (k : Nat) (d : QuayD) (m12 : Bool) (a idx : Nat) (m v : List Nat) (rs : List (Nat × Nat × Nat)) : State :=
  let s1 := s.wr a (fp32Bytes (rs.map (fun r => r.1)))
  let s2 := (s1.wrMoments m12 a 0 d.mrnd (s1.quayKey k d 0) idx m (rs.map (fun r => r.2.1))).1
  let s3 := (s2.wrMoments m12 a 1 d.mrnd (s2.quayKey k d 0x80000000) idx v (rs.map (fun r => r.2.2))).1
  s3.wr (a + accOff m12) (List.replicate 256 0)

theorem GroupWork.wrMoments {z s : State} (h : GroupWork z s) (m12 : Bool) (a i rnd : Nat) (key : SrKey) (idx : Nat) (old new : List Nat) :
    GroupWork z (s.wrMoments m12 a i rnd key idx old new).1 := by
  unfold State.wrMoments
  split <;> exact h.wr _ _

theorem length_momentConv (rnd : Nat) (key : SrKey) (idx : Nat) (old new : List Nat) : (momentConv rnd key idx old new).length = 64 := by
  simp [momentConv]

theorem length_flatMap_toBytes {β : Type} (n : Nat) (f : β → Nat) (l : List β) :
    (l.flatMap (fun c => toBytes n (f c))).length = n * l.length := by
  simp [List.length_flatMap, Nat.mul_comm]

/-- A moment part lies behind the masters and before the accumulators (Table 7-1). -/
theorem State.wrMoments_memoryBut (s : State) (m12 : Bool) (a rnd : Nat) {i : Nat} (hi : i < 2) (key : SrKey) (idx : Nat)
    (old : List Nat) {new : List Nat} (hnew : new.length = 64) :
    MemoryBut [(a + 256, groupSize m12 - 512)] s (s.wrMoments m12 a i rnd key idx old new).1 := by
  have hone : ∀ (off : Nat) (b : List Byte), 256 ≤ off → off + b.length + 256 ≤ groupSize m12 →
      MemoryBut [(a + 256, groupSize m12 - 512)] s (s.wr (a + off) b) := fun off b hlo hhi =>
    (s.wr_memoryBut (a + off) b).within fun p hp => ⟨_, List.mem_singleton_self _, by
      rw [List.mem_singleton.mp hp]
      dsimp only
      omega⟩
  cases m12 with
  | true =>
    refine hone _ _ ?_ ?_
    · unfold momentOff; simp
    · rw [length_flatMap_toBytes, length_momentConv]; unfold momentOff groupSize; simp; omega
  | false =>
    refine hone _ _ ?_ ?_
    · unfold momentOff; simp
    · rw [length_fp32Bytes, hnew]; unfold momentOff groupSize; simp; omega

section
variable {s : State} {k : Nat} {d : QuayD} {m12 : Bool} {a idx : Nat} {m v : List Nat} {rs : List (Nat × Nat × Nat)}

theorem GroupWork.wrRecords {z : State} (h : GroupWork z s) : GroupWork z (s.wrRecords k d m12 a idx m v rs) :=
  (((h.wr _ _).wrMoments ..).wrMoments ..).wr _ _

/-- The moments and the accumulators are written behind the masters. -/
theorem State.wrRecords_behind (hrs : rs.length = 64) : MemoryBut [(a + 256, groupSize m12 - 256)]
    (s.wr a (fp32Bytes (rs.map (fun r => r.1)))) (s.wrRecords k d m12 a idx m v rs) := by
  have hg : groupSize m12 = accOff m12 + 256 ∧ 512 ≤ accOff m12 := by cases m12 <;> decide
  have hmoments : ∀ {u t : State}, MemoryBut [(a + 256, groupSize m12 - 512)] u t → MemoryBut [(a + 256, groupSize m12 - 256)] u t :=
    fun hb => hb.within fun p hp => ⟨_, List.mem_singleton_self _, by rw [List.mem_singleton.mp hp]; dsimp only; omega⟩
  have hlen : ∀ f : Nat × Nat × Nat → Nat, (rs.map f).length = 64 := fun f => by rw [List.length_map, hrs]
  unfold State.wrRecords
  extract_lets s1 s2 s3
  have h12 := hmoments (s1.wrMoments_memoryBut m12 a d.mrnd (i := 0) (by decide) (s1.quayKey k d 0) idx m (hlen (fun r => r.2.1)))
  have h23 := hmoments (s2.wrMoments_memoryBut m12 a d.mrnd (i := 1) (by decide) (s2.quayKey k d 0x80000000) idx v
    (hlen (fun r => r.2.2)))
  refine (h12.trans h23).trans ?_
  exact (State.wr_zeros_memoryBut _ _ 256).within fun p hp => ⟨_, List.mem_singleton_self _, by
    rw [List.mem_singleton.mp hp]
    dsimp only
    omega⟩

theorem State.wrRecords_memoryBut (hrs : rs.length = 64) : MemoryBut [(a, groupSize m12)] s (s.wrRecords k d m12 a idx m v rs) := by
  have hg : 768 ≤ groupSize m12 := by cases m12 <;> decide
  have hmasters : MemoryBut [(a, groupSize m12)] s (s.wr a (fp32Bytes (rs.map (fun r => r.1)))) :=
    (s.wr_memoryBut _ _).within fun p hp => ⟨_, List.mem_singleton_self _, by
      rw [List.mem_singleton.mp hp, length_fp32Bytes, List.length_map, hrs]
      dsimp only
      omega⟩
  exact hmasters.trans ((State.wrRecords_behind hrs).within fun p hp => ⟨_, List.mem_singleton_self _, by
    rw [List.mem_singleton.mp hp]
    dsimp only
    omega⟩)

theorem State.fp64s_wrRecords_masters (hrs : rs.length = 64) (hl : Lands s a 256) :
    (s.wrRecords k d m12 a idx m v rs).fp64s a = rs.map (fun r => r.1 % 2 ^ 32) := by
  rw [(State.wrRecords_behind hrs).fp64s (a := a) (by simp), State.fp64s_wr (by simp [hrs]) hl, List.map_map]
  rfl

theorem State.fp64s_wrRecords_accumulators (hl : Lands s (a + accOff m12) 256) :
    (s.wrRecords k d m12 a idx m v rs).fp64s (a + accOff m12) = List.replicate 64 0 := by
  unfold State.wrRecords
  extract_lets s1 s2 s3
  have hwork : GroupWork s s3 := (((GroupWork.refl s).wr _ _).wrMoments ..).wrMoments ..
  exact State.fp64s_of_zeros fun y hlo hhi => State.byte_wr_zeros_within (hwork.lands hl) hlo hhi

end

/-! ### the work on one group -/

/-- What the optimiser gives of the 64 elements of a group, with the gradients `gs` (R179). -/
def State.optimised (s : State) (d : QuayD) (ws : List Nat) (m12 : Bool) (a : Nat) (gs : List Nat) : List (Nat × Nat × Nat) :=
  (List.range 64).map (fun j => optimise d.opt ws d.p (gs.getD j 0) ((s.fp64s a).getD j 0) ((s.moments m12 a 0).getD j 0)
    ((s.moments m12 a 1).getD j 0))

theorem State.length_optimised (s : State) (d : QuayD) (ws : List Nat) (m12 : Bool) (a : Nat) (gs : List Nat) :
    (s.optimised d ws m12 a gs).length = 64 := by simp [State.optimised]

/-- The records of a group updated, and its update counted (R178, R183). -/
def State.updateRecords (s : State) (k : Nat) (d : QuayD) (ws : List Nat) (n c : Nat) (gs : List Nat) : State :=
  let m12 := (s.stake k).master12
  let a := d.group (groupSize m12) n c
  let u := s.count (R.quySCntUpd (s.quayFor a) k) 1
  u.wrRecords k d m12 a (n * d.cols + 64 * c) (u.moments m12 a 0) (u.moments m12 a 1) (u.optimised d ws m12 a gs)

theorem GroupWork.updateRecords {z s : State} (h : GroupWork z s) (k : Nat) (d : QuayD) (ws : List Nat) (n c : Nat) (gs : List Nat) :
    GroupWork z (s.updateRecords k d ws n c gs) :=
  (h.count (.inl (by unfold R.quyId R.quySCntUpd; omega)) 1).wrRecords

/-- The records of the group change, and nothing else. -/
theorem State.updateRecords_memoryBut (s : State) (k : Nat) (d : QuayD) (ws : List Nat) (n c : Nat) (gs : List Nat) :
    MemoryBut [(d.group (s.gsize k) n c, s.gsize k)] s (s.updateRecords k d ws n c gs) :=
  State.wrRecords_memoryBut (s := s.count _ 1) (State.length_optimised ..)

theorem State.optimised_congr {s t : State} (h : SameMemory s t) (d : QuayD) (ws : List Nat) (m12 : Bool) (a : Nat) (gs : List Nat) :
    t.optimised d ws m12 a gs = s.optimised d ws m12 a gs := by
  unfold State.optimised
  rw [h.fp64s, h.moments, h.moments]

section
variable {s : State} {k : Nat} {d : QuayD} {n c : Nat} (ws gs : List Nat)

/-- The masters of an updated group are what the optimiser gives. -/
theorem State.fp64s_updateRecords_masters (h : Lands s (d.group (s.gsize k) n c) 256) :
    (s.updateRecords k d ws n c gs).fp64s (d.group (s.gsize k) n c) =
      (s.optimised d ws (s.stake k).master12 (d.group (s.gsize k) n c) gs).map (fun r => r.1 % 2 ^ 32) := by
  have hcount := (GroupWork.refl s).count (a := R.quySCntUpd (s.quayFor (d.group (s.gsize k) n c)) k)
    (.inl (by unfold R.quyId R.quySCntUpd; omega)) 1
  have hopt := State.optimised_congr (t := s.count (R.quySCntUpd (s.quayFor (d.group (s.gsize k) n c)) k) 1) (fun _ => rfl) d ws
    (s.stake k).master12 (d.group (s.gsize k) n c) gs
  exact (State.fp64s_wrRecords_masters (State.length_optimised ..) (hcount.lands h)).trans (congrArg _ hopt)

theorem State.fp64s_updateRecords_accumulators (h : Lands s (d.group (s.gsize k) n c + accOff (s.stake k).master12) 256) :
    (s.updateRecords k d ws n c gs).fp64s (d.group (s.gsize k) n c + accOff (s.stake k).master12) = List.replicate 64 0 :=
  State.fp64s_wrRecords_accumulators (((GroupWork.refl s).count (.inl (by unfold R.quyId R.quySCntUpd; omega)) 1).lands h)

end

/-- A group that can be read is updated: its records, then its working copy, then the statistics. -/
theorem State.updateGroup_readable {s : State} {k : Nat} {d : QuayD} {n c : Nat}
    (h : s.unreadable (d.group (s.gsize k) n c) (accOff (s.stake k).master12) = false) (ws gs : List Nat) :
    ∃ w maxabs nonfin sat, s.updateGroup k d ws n c gs false true =
      (((s.updateRecords k d ws n c gs).wrWorking k d n c w).tap k d.slot maxabs nonfin sat,
        (s.updateRecords k d ws n c gs).scaleBad d n) := by
  have hread := ((GroupWork.refl s).count (a := R.quySCntUpd (s.quayFor (d.group (s.gsize k) n c)) k)
    (.inl (by unfold R.quyId R.quySCntUpd; omega)) 1).unreadable h
  unfold State.updateGroup
  dsimp only
  rw [if_neg (by rw [Bool.false_or]; exact Bool.eq_false_iff.mp hread)]
  exact ⟨_, _, _, _, rfl⟩

/-- A group whose masters and scale can be read has its working copy rewritten. -/
theorem State.emitGroup_readable {s : State} {k : Nat} {d : QuayD} {n c : Nat} (hm : s.badMasters (d.group (s.gsize k) n c) = [])
    (hs : s.scaleBad d n = false) : ∃ w, s.emitGroup k d n c = (s.wrWorking k d n c w, false) := by
  unfold State.emitGroup State.wrWorking
  simp only [hs, hm, Bool.false_eq_true, if_false]
  exact ⟨_, rfl⟩

end Sys2Proof.Machine
end

section
/-! PROOFS. The work of a QUPD, QCLR or QEMIT on each group of its tensor (R178, R182, R185). -/

namespace Sys2Proof.Machine

/-! ### the groups of an operation -/

/-- Rows and group columns of an operation's tensor. -/
def Outst.groups (o : Outst) : List (Nat × Nat) := groupsOf (parseQuay o.desc)

/-- The bytes of the working copies of its groups. -/
def Outst.copies (o : Outst) : List (Nat × Nat) := o.groups.flatMap (fun p => copyStores (parseQuay o.desc) p.1 p.2)

/-- The address of one of its groups. -/
def State.opGroup (s : State) (k : Nat) (o : Outst) (p : Nat × Nat) : Nat := (parseQuay o.desc).group (s.gsize k) p.1 p.2

/-- The address of the accumulators of one of its groups. -/
def State.opAcc (s : State) (k : Nat) (o : Outst) (p : Nat × Nat) : Nat := s.opGroup k o p + accOff (s.stake k).master12

/-- The scaled gradients of one of its groups (R179). -/
def State.opGrads (s : State) (k : Nat) (o : Outst) (p : Nat × Nat) : List Nat :=
  (s.fp64s (s.opAcc k o p)).map (fun v => mul32 v (parseQuay o.desc).gscale)

section
variable {s t : State} (h : GroupWork s t) (k : Nat) (o : Outst) (p : Nat × Nat)
include h

theorem GroupWork.opGroup : t.opGroup k o p = s.opGroup k o p := by rw [State.opGroup, h.gsize, State.opGroup]

theorem GroupWork.opAcc : t.opAcc k o p = s.opAcc k o p := by rw [State.opAcc, h.opGroup, h.stake, State.opAcc]

end

/-! ### one group -/

section
variable {s u : State} {k : Nat} {o : Outst} {x : Errs} {p : Nat × Nat} (h : GroupWork s u)
include h

/-- A QCLR clears the group's accumulators. -/
theorem GroupWork.quayGroup_clear (hop : opcOf o.word = 0x2A) : ∃ v, GroupWork s v ∧ SameMemory u v ∧
    u.quayGroup k o p.1 p.2 x = (v.clearGroup k (s.opGroup k o p), false) := by
  refine ⟨u.quayErrs (u.quayFor (u.opGroup k o p)) [] x 0 0, h.quayErrs (.inr rfl) _ _ _,
    (State.quayErrs_dry _ _ _ _ _ (.refl u)).same, ?_⟩
  rw [← h.opGroup]
  simp only [State.quayGroup, State.groupSpans, hop]
  rfl

variable (hx : Corrected x)
include hx

/-- A QUPD updates a group whose records and scale can be read. -/
theorem GroupWork.quayGroup_update (hop : opcOf o.word = 0x28)
    (hread : s.unreadable (s.opGroup k o p) (accOff (s.stake k).master12) = false)
    (hacc : s.unreadable (s.opAcc k o p) 256 = false) (hscale : s.scaleBad (parseQuay o.desc) p.1 = false) :
    ∃ v w maxabs nonfin sat, GroupWork s v ∧ SameMemory u v ∧ u.quayGroup k o p.1 p.2 x =
      (((v.updateRecords k (parseQuay o.desc) (microWords o.chain) p.1 p.2 (v.opGrads k o p)).wrWorking k (parseQuay o.desc) p.1 p.2 w).tap
        k (parseQuay o.desc).slot maxabs nonfin sat, false) := by
  let v := u.quayErrs (u.quayFor (u.opGroup k o p)) (u.groupSpans k (parseQuay o.desc) 0x28 p.1 p.2) x 0 0
  have hv : GroupWork s v := h.quayErrs (.inl hx) _ _ _
  have hgroup : u.quayGroup k o p.1 p.2 x = v.updateGroup k (parseQuay o.desc) (microWords o.chain) p.1 p.2
      ((v.fp64s (u.opAcc k o p)).map (fun g => mul32 g (parseQuay o.desc).gscale)) (v.unreadable (u.opAcc k o p) 256) true := by
    simp only [State.quayGroup, hop]
    rfl
  rw [h.opAcc, hv.unreadable hacc, ← hv.opAcc] at hgroup
  have hrec : v.unreadable (v.opGroup k o p) (accOff (v.stake k).master12) = false := by
    rw [hv.opGroup, hv.stake]
    exact hv.unreadable hread
  obtain ⟨w, maxabs, nonfin, sat, hupd⟩ := State.updateGroup_readable hrec (microWords o.chain) (v.opGrads k o p)
  have hdone := hv.updateRecords k (parseQuay o.desc) (microWords o.chain) p.1 p.2 (v.opGrads k o p)
  rw [hdone.scaleBad hscale] at hupd
  exact ⟨v, w, maxabs, nonfin, sat, hv, (State.quayErrs_dry _ _ _ _ _ (.refl u)).same, hgroup.trans hupd⟩

/-- A QEMIT rewrites the working copy of a group whose masters and scale can be read. -/
theorem GroupWork.quayGroup_emit (hop : opcOf o.word = 0x2B) (hm : s.badMasters (s.opGroup k o p) = [])
    (hscale : s.scaleBad (parseQuay o.desc) p.1 = false) : ∃ v w, GroupWork s v ∧ SameMemory u v ∧
      u.quayGroup k o p.1 p.2 x = (v.wrWorking k (parseQuay o.desc) p.1 p.2 w, false) := by
  let v := u.quayErrs (u.quayFor (u.opGroup k o p)) (u.groupSpans k (parseQuay o.desc) 0x2B p.1 p.2) x 0 0
  have hv : GroupWork s v := h.quayErrs (.inl hx) _ _ _
  have hgroup : u.quayGroup k o p.1 p.2 x = v.emitGroup k (parseQuay o.desc) p.1 p.2 := by
    simp only [State.quayGroup, hop]
    rfl
  have hmasters : v.badMasters (v.opGroup k o p) = [] := by
    rw [hv.opGroup]
    exact hv.badMasters hm
  obtain ⟨w, hemit⟩ := State.emitGroup_readable hmasters (hv.scaleBad hscale)
  exact ⟨v, w, hv, (State.quayErrs_dry _ _ _ _ _ (.refl u)).same, hgroup.trans hemit⟩

end

/-! ### all groups of a tensor -/

/-- The state once an operation has worked on every group of its tensor. -/
def State.groupsDone (s : State) (k : Nat) (o : Outst) (x : Errs) : State :=
  o.groups.foldl (fun u p => (u.quayGroup k o p.1 p.2 x).1) s

/-- The work on one group, and the poison that it meets. -/
def quayWorkStep (k : Nat) (o : Outst) (x : Errs) (st : State × Option Nat) (p : Nat × Nat) : State × Option Nat :=
  let a := st.1.opGroup k o p
  let r := st.1.quayGroup k o p.1 p.2 x
  if r.2 then (r.1.quayPoison a k 2 o.index 0 false, if st.2.isNone then some a else st.2) else (r.1, st.2)

theorem State.quayWork_eq (s : State) (k : Nat) (o : Outst) (x : Errs) :
    s.quayWork k o x = o.groups.foldl (quayWorkStep k o x) (s, none) := rfl

section
variable {P : State → Prop} {k : Nat} {o : Outst} {x : Errs}
  (hstep : ∀ u, P u → ∀ p ∈ o.groups, ∃ v, P v ∧ u.quayGroup k o p.1 p.2 x = (v, false))
include hstep

theorem State.groupsDone_rec {s : State} (hs : P s) : P (s.groupsDone k o x) := by
  unfold State.groupsDone
  exact List.foldlRecOn o.groups _ (motive := P) hs fun u hu p hp => by
    obtain ⟨v, hv, heq⟩ := hstep u hu p hp
    rwa [heq]

/-- Work that meets no poison on any group records none. -/
theorem State.quayWork_clean {s : State} (hs : P s) : s.quayWork k o x = (s.groupsDone k o x, none) := by
  rw [State.quayWork_eq, State.groupsDone]
  generalize o.groups = l at hstep
  induction l generalizing s with
  | nil => rfl
  | cons p l ih =>
    obtain ⟨v, hv, heq⟩ := hstep s hs p List.mem_cons_self
    have hfirst : quayWorkStep k o x (s, none) p = (v, none) := by
      unfold quayWorkStep
      rw [heq]
      rfl
    rw [List.foldl_cons, List.foldl_cons, hfirst, heq]
    exact ih hv fun u hu q hq => hstep u hu q (List.mem_cons_of_mem _ hq)

end

/-- What one item of a fold brings about holds at its end, where every item keeps it. -/
theorem foldl_item {β : Type} {P Q : State → Prop} {f : State → β → State} {l : List β} {b : β} (hb : b ∈ l)
    (hP : ∀ u, ∀ i ∈ l, P u → P (f u i)) (hset : ∀ u, P u → Q (f u b)) (hkeep : ∀ u, ∀ i ∈ l, P u → Q u → Q (f u i)) {s : State}
    (hs : P s) : Q (l.foldl f s) := by
  obtain ⟨l1, l2, rfl⟩ := List.append_of_mem hb
  have hbefore : P (l1.foldl f s) :=
    List.foldlRecOn l1 f (motive := P) hs fun u hu i hi => hP u i (List.mem_append_left _ hi) hu
  rw [List.foldl_append, List.foldl_cons]
  have hafter := List.foldlRecOn l2 f (motive := fun u => P u ∧ Q u) ⟨hP _ b hb hbefore, hset _ hbefore⟩ fun u hu i hi =>
    have hmem := List.mem_append_right l1 (List.mem_cons_of_mem b hi)
    ⟨hP u i hmem hu.1, hkeep u i hmem hu.1 hu.2⟩
  exact hafter.2

/-- The state reached has the effects of group work on `s`, and differs from it in the ranges of `l` at most. -/
def WorkedBut (l : List (Nat × Nat)) (s u : State) : Prop := GroupWork s u ∧ MemoryBut l s u

/-- The ranges that an operation on the group `p` changes are among those of its operation. -/
theorem Outst.copyStores_subset {o : Outst} {p : Nat × Nat} (hp : p ∈ o.groups) :
    copyStores (parseQuay o.desc) p.1 p.2 ⊆ o.copies := fun _ hr => List.mem_flatMap.mpr ⟨p, hp, hr⟩

section
variable {s : State} {k : Nat} {o : Outst} {x : Errs}

theorem WorkedBut.refl (l : List (Nat × Nat)) (s : State) : WorkedBut l s s := ⟨.refl s, fun _ _ => rfl⟩

/-- A QCLR clears the accumulators of every group, and changes no other byte. -/
theorem quayWork_clear (hop : opcOf o.word = 0x2A) (hlands : ∀ p ∈ o.groups, Lands s (s.opAcc k o p) 256) :
    ∃ v, s.quayWork k o x = (v, none) ∧ WorkedBut (o.groups.map (fun p => (s.opAcc k o p, 256))) s v ∧
      ∀ p ∈ o.groups, v.fp64s (s.opAcc k o p) = List.replicate 64 0 := by
  have hstep : ∀ u, WorkedBut (o.groups.map (fun p => (s.opAcc k o p, 256))) s u → ∀ p ∈ o.groups,
      ∃ v, WorkedBut (o.groups.map (fun p => (s.opAcc k o p, 256))) s v ∧ u.quayGroup k o p.1 p.2 x = (v, false) := by
    rintro u ⟨hu, hbut⟩ p hp
    obtain ⟨v, hv, hsame, heq⟩ := hu.quayGroup_clear (k := k) (x := x) (p := p) hop
    have hclear := v.clearGroup_memoryBut k (s.opGroup k o p)
    rw [hv.stake] at hclear
    exact ⟨_, ⟨hv.clearGroup k _, (hbut.trans (hsame.but _)).trans (hclear.mono fun r hr =>
      List.mem_map.mpr ⟨p, hp, (List.mem_singleton.mp hr).symm⟩)⟩, heq⟩
  refine ⟨_, State.quayWork_clean hstep (.refl _ s), State.groupsDone_rec hstep (.refl _ s), fun p hp => ?_⟩
  refine State.fp64s_of_zeros fun y hlo hhi => ?_
  refine foldl_item (P := GroupWork s) (Q := fun u => u.byte y = 0) hp (fun u q _ hu => ?_) (fun u hu => ?_) (fun u q _ hu hy => ?_)
    (.refl s)
  · obtain ⟨v, hv, _, heq⟩ := hu.quayGroup_clear (k := k) (x := x) (p := q) hop
    rw [heq]
    exact hv.clearGroup k _
  · obtain ⟨v, hv, _, heq⟩ := hu.quayGroup_clear (k := k) (x := x) (p := p) hop
    rw [heq]
    have hl := hv.lands (hlands p hp)
    rw [State.opAcc, ← hv.stake] at hl hlo hhi
    exact State.byte_wr_zeros_within hl hlo hhi
  · obtain ⟨v, hv, hsame, heq⟩ := hu.quayGroup_clear (k := k) (x := x) (p := q) hop
    rw [heq]
    exact State.byte_wr_zeros ((hsame y).trans hy)

variable (hx : Corrected x)
include hx

/-- A QEMIT changes working copies only. -/
theorem quayWork_emit (hop : opcOf o.word = 0x2B)
    (hread : ∀ p ∈ o.groups, s.badMasters (s.opGroup k o p) = [] ∧ s.scaleBad (parseQuay o.desc) p.1 = false) :
    ∃ v, s.quayWork k o x = (v, none) ∧ WorkedBut o.copies s v := by
  have hstep : ∀ u, WorkedBut o.copies s u → ∀ p ∈ o.groups, ∃ v, WorkedBut o.copies s v ∧ u.quayGroup k o p.1 p.2 x = (v, false) := by
    rintro u ⟨hu, hbut⟩ p hp
    obtain ⟨hm, hscale⟩ := hread p hp
    obtain ⟨v, w, hv, hsame, heq⟩ := hu.quayGroup_emit hx hop hm hscale
    have hs := hv.scaleBad hscale
    exact ⟨_, ⟨hv.wrWorking hs k p.2 w, (hbut.trans (hsame.but _)).trans
      ((State.wrWorking_memoryBut hs k p.2 w).mono (Outst.copyStores_subset hp))⟩, heq⟩
  exact ⟨_, State.quayWork_clean hstep (.refl _ s), State.groupsDone_rec hstep (.refl _ s)⟩

/-- A QUPD changes groups and working copies only. -/
theorem quayWork_update (hop : opcOf o.word = 0x28)
    (hread : ∀ p ∈ o.groups, s.unreadable (s.opGroup k o p) (accOff (s.stake k).master12) = false ∧
      s.unreadable (s.opAcc k o p) 256 = false ∧ s.scaleBad (parseQuay o.desc) p.1 = false) :
    s.quayWork k o x = (s.groupsDone k o x, none) ∧
      WorkedBut (o.groups.map (fun p => (s.opGroup k o p, s.gsize k)) ++ o.copies) s (s.groupsDone k o x) := by
  have hstep : ∀ u, WorkedBut (o.groups.map (fun p => (s.opGroup k o p, s.gsize k)) ++ o.copies) s u → ∀ p ∈ o.groups,
      ∃ v, WorkedBut (o.groups.map (fun p => (s.opGroup k o p, s.gsize k)) ++ o.copies) s v ∧ u.quayGroup k o p.1 p.2 x = (v, false) := by
    rintro u ⟨hu, hbut⟩ p hp
    obtain ⟨hrec, hacc, hscale⟩ := hread p hp
    obtain ⟨v, w, maxabs, nonfin, sat, hv, hsame, heq⟩ := hu.quayGroup_update hx hop hrec hacc hscale
    have hrecords := v.updateRecords_memoryBut k (parseQuay o.desc) (microWords o.chain) p.1 p.2 (v.opGrads k o p)
    rw [hv.gsize] at hrecords
    have hdone := hv.updateRecords k (parseQuay o.desc) (microWords o.chain) p.1 p.2 (v.opGrads k o p)
    have hs := hdone.scaleBad hscale
    refine ⟨_, ⟨(hdone.wrWorking hs k p.2 w).tap .., ?_⟩, heq⟩
    exact ((hbut.trans (hsame.but _)).trans (hrecords.mono fun r hr =>
      List.mem_append_left _ (List.mem_map.mpr ⟨p, hp, (List.mem_singleton.mp hr).symm⟩))).trans
        ((State.wrWorking_memoryBut hs k p.2 w).mono
          (List.Subset.trans (Outst.copyStores_subset hp) (List.subset_append_right _ _)))
  exact ⟨State.quayWork_clean hstep (.refl _ s), State.groupsDone_rec hstep (.refl _ s)⟩

/-- The one group of a tensor is updated, where its bytes may be written and its working copy lies elsewhere (R178, R179). -/
theorem updated_groupsDone (hop : opcOf o.word = 0x28) (hone : o.groups = [(0, 0)])
    (hrec : s.unreadable (s.opGroup k o (0, 0)) (accOff (s.stake k).master12) = false)
    (hacc : s.unreadable (s.opAcc k o (0, 0)) 256 = false) (hscale : s.scaleBad (parseQuay o.desc) 0 = false)
    (hmasters : Lands s (s.opGroup k o (0, 0)) 256) (haccs : Lands s (s.opAcc k o (0, 0)) 256)
    (hcopies : ∀ r ∈ copyStores (parseQuay o.desc) 0 0, r.1 + r.2 ≤ s.opGroup k o (0, 0) ∨ s.opGroup k o (0, 0) + s.gsize k ≤ r.1) :
    Updated s (s.groupsDone k o x) k (parseQuay o.desc) (microWords o.chain) 0 0 (s.opGrads k o (0, 0)) := by
  obtain ⟨v, w, maxabs, nonfin, sat, hv, hsame, heq⟩ := (GroupWork.refl s).quayGroup_update (p := (0, 0)) hx hop hrec hacc hscale
  have hdone : s.groupsDone k o x = (s.quayGroup k o 0 0 x).1 := by rw [State.groupsDone, hone]; rfl
  have hgrads : v.opGrads k o (0, 0) = s.opGrads k o (0, 0) := by rw [State.opGrads, hv.opAcc, hsame.fp64s, State.opGrads]
  rw [hgrads] at heq
  let d := parseQuay o.desc
  let t := v.updateRecords k d (microWords o.chain) 0 0 (s.opGrads k o (0, 0))
  have hs : t.scaleBad d 0 = false := (hv.updateRecords ..).scaleBad hscale
  have hsize : accOff (s.stake k).master12 + 256 = s.gsize k := by
    unfold State.gsize
    cases (s.stake k).master12 <;> rfl
  have hlater : MemoryBut (copyStores d 0 0) t (s.groupsDone k o x) := by
    rw [hdone, heq]
    exact (State.wrWorking_memoryBut hs k 0 w)
  have hkeep : ∀ off, off + 256 ≤ s.gsize k → (s.groupsDone k o x).fp64s (s.opGroup k o (0, 0) + off) =
      t.fp64s (s.opGroup k o (0, 0) + off) := fun off hoff => hlater.fp64s fun r hr => by
    have := hcopies r hr
    omega
  have hgroup : d.group (v.gsize k) 0 0 = s.opGroup k o (0, 0) := hv.opGroup k o (0, 0)
  have htm : t.fp64s (d.group (v.gsize k) 0 0) = _ := State.fp64s_updateRecords_masters _ _ (by rw [hgroup]; exact hv.lands hmasters)
  have hta : t.fp64s (d.group (v.gsize k) 0 0 + accOff (v.stake k).master12) = _ :=
    State.fp64s_updateRecords_accumulators _ _ (by rw [hgroup, hv.stake]; exact hv.lands haccs)
  rw [hgroup, State.optimised_congr hsame, hv.stake] at htm
  rw [hgroup, hv.stake] at hta
  rw [State.optimised, List.map_map] at htm
  have hfirst := hkeep 0 (by omega)
  rw [Nat.add_zero, htm] at hfirst
  exact ⟨hfirst, (hkeep _ hsize.le).trans hta⟩

end

end Sys2Proof.Machine
end

section
/-! PROOFS. QUAY_OP_COMPLETE (R176, R185): the cycles that a held operation counts, the operation whose turn has come, and jobs that do
not wait. -/

namespace Sys2Proof.Machine

/-! ### jobs -/

theorem KMap.mem_of_find {α : Type} {m : KMap α} {k : Nat} {v : α} (h : KMap.find m k = some v) : (k, v) ∈ m := by
  induction m with
  | nil => cases h
  | cons p t ih =>
    rw [KMap.find] at h
    split at h
    next hk =>
      obtain rfl : p.2 = v := Option.some.inj h
      exact hk ▸ List.mem_cons_self
    · exact List.mem_cons_of_mem _ (ih h)

/-- Where no job that has issued waits for its first reads, none begins. -/
theorem State.startJob_of_noJobWaits {s : State} (h : NoJobWaits s) (id : Nat) (x : Errs) : s.startJob id x = s := by
  unfold State.startJob
  split
  · rfl
  next j hj =>
    have hdone : (!j.issued || j.begun) = true := by
      rcases h _ (KMap.mem_of_find hj) with hb | hi
      · simp [show j.begun = true from hb]
      · simp [show j.issued = false from hi]
    split
    · rfl
    · dsimp only
      rw [hdone, Bool.true_or, if_pos rfl]

theorem State.startJobs_of_noJobWaits {s : State} (h : NoJobWaits s) (x : Errs) : s.startJobs x = s :=
  List.foldlRecOn _ _ (motive := fun u : State => u = s) rfl fun u hu id _ => by rw [hu, State.startJob_of_noJobWaits h]

theorem NoJobWaits.congr {s t : State} (h : NoJobWaits s) (ht : t.jobs = s.jobs) : NoJobWaits t := by
  unfold NoJobWaits
  rw [ht]
  exact h

/-! ### the cycles that a held operation counts -/

/-- The outstanding QUPD, QCLR and QEMIT of a stake, oldest first. -/
def State.quayOps (s : State) (k : Nat) : List Outst := (s.q k).outst.filter (fun o => [0x28, 0x2A, 0x2B].contains (opcOf o.word))

/-- The oldest of them that may act at each of its units. -/
def State.nextQuayOp (s : State) (k : Nat) : Option Outst := (s.quayOps k).find? (fun o => (s.opUnits k o).all (s.opFree k o))

/-- The cycles of an operation that open jobs hold are counted. -/
def State.holdCounted (s : State) (k held : Nat) : State :=
  match (s.quayOps k).find? (fun o => (s.opUnits k o).any (fun q => (s.opPlace q k o.seq).any (s.trigHeld q))) with
  | none => s
  | some o => s.forAll ((s.opUnits k o).filter (fun q => (s.opPlace q k o.seq).any (s.trigHeld q))) (fun s q =>
    s.count (R.quySCntHold (s.quayBy q) k) held)

theorem State.mem_opUnits_lt {s : State} {k q : Nat} {o : Outst} (h : q ∈ s.opUnits k o) : q < 16 :=
  List.mem_range.mp (List.mem_of_mem_filter h)

theorem State.quayBy_lt {s : State} {q : Nat} (h : q < 16) : s.quayBy q < 16 := by
  unfold State.quayBy
  split
  · exact partner_lt h
  · exact h

/-- Only registers of counts of held cycles change. -/
theorem State.holdCounted_rec {P : State → Prop} {s : State} (k held : Nat) (hs : P s)
    (hcount : ∀ u : State, ∀ q, q < 16 → P u → P (u.count (R.quySCntHold q k) held)) : P (s.holdCounted k held) := by
  unfold State.holdCounted
  split
  · exact hs
  · exact List.foldlRecOn _ _ (motive := P) hs fun u hu q hq =>
      hcount u _ (State.quayBy_lt (State.mem_opUnits_lt (List.mem_of_mem_filter hq))) hu

theorem State.holdCounted_regs (s : State) (k held : Nat) : ∃ r, s.holdCounted k held = { s with regs := r } :=
  State.holdCounted_rec (P := fun u => ∃ r, u = { s with regs := r }) k held ⟨s.regs, rfl⟩ fun u q _ hu => by
    obtain ⟨r, rfl⟩ := hu
    exact ⟨_, rfl⟩

theorem State.holdCounted_groupWork (s : State) (k held : Nat) : GroupWork s (s.holdCounted k held) :=
  State.holdCounted_rec k held (.refl s) fun _ q _ hu => hu.count (.inl (by unfold R.quyId R.quySCntHold; omega)) held

theorem State.holdCounted_sameRegs (s : State) (k held : Nat) :
    SameRegs ((List.range 16).map (fun q => R.quySCntHold q k)) s (s.holdCounted k held) :=
  State.holdCounted_rec (P := SameRegs ((List.range 16).map (fun q => R.quySCntHold q k)) s) k held (fun _ _ => rfl)
    fun u q hq hu a ha => (u.reg_setReg_other _ a _ fun e => ha (List.mem_map.mpr ⟨q, List.mem_range.mpr hq, e.symm⟩)).trans (hu a ha)

/-- Whose turn has come does not depend on the counts. -/
theorem State.nextQuayOp_holdCounted (s : State) (k held : Nat) :
    (s.quayOps k).find? (fun o => ((s.holdCounted k held).opUnits k o).all ((s.holdCounted k held).opFree k o)) = s.nextQuayOp k := by
  obtain ⟨r, hr⟩ := s.holdCounted_regs k held
  rw [hr]
  rfl

theorem State.opUnits_holdCounted (s : State) (k held : Nat) (o : Outst) : (s.holdCounted k held).opUnits k o = s.opUnits k o := by
  rw [State.opUnits, (s.holdCounted_groupWork k held).gsize, State.opUnits]

theorem GroupWork.quayHalt {s t : State} (h : GroupWork s t) : t.quayHalt = s.quayHalt := by
  have hflag : ∀ f, t.flag R.lkStatus f = s.flag R.lkStatus f := fun f => by
    rw [State.flag, h.fld not_quayReg_lkStatus, State.flag]
  rw [State.quayHalt, hflag, hflag, State.quayHalt]

/-! ### the operation whose turn has come -/

/-- An operation's triggers leave its units. -/
def State.opTaken (s : State) (k : Nat) (o : Outst) : State :=
  s.forAll (s.opUnits k o) (fun s q => s.setQu q { s.qu q with trig := (s.qu q).trig.filter (fun t => t != .op k o.seq) })

theorem GroupWork.opTaken {z s : State} (h : GroupWork z s) (k : Nat) (o : Outst) : GroupWork z (s.opTaken k o) :=
  h.foldl _ fun _ _ _ hu => hu.setQu fun _ ht => List.mem_of_mem_filter ht

theorem State.opTaken_dry (s : State) (k : Nat) (o : Outst) : Dry s (s.opTaken k o) := by
  unfold State.opTaken
  exact State.forAll_dry _ (fun u q hu => State.setQu_dry q _ hu) (.refl s)

theorem State.not_mem_opTaken {s : State} {k : Nat} {o : Outst} {q : Nat} (hq : q ∈ s.opUnits k o) :
    Trig.op k o.seq ∉ ((s.opTaken k o).qu q).trig := by
  refine foldl_item (P := fun _ => True) (Q := fun u => Trig.op k o.seq ∉ (u.qu q).trig) hq (fun _ _ _ _ => trivial) (fun u _ => ?_)
    (fun u i _ _ hu => ?_) trivial
  · rw [State.qu_setQu_same]
    simp
  · rw [State.qu_setQu]
    split
    next hi => exact fun hm => hu (hi ▸ List.mem_of_mem_filter hm)
    · exact hu

theorem State.quayOpComplete_runs {s v : State} {k held : Nat} {x : Errs} {o : Outst} (hnext : s.nextQuayOp k = some o)
    (hhalt : s.quayHalt = false) (hwork : ((s.holdCounted k held).opTaken k o).quayWork k o x = (v, none)) :
    s.quayOpComplete k held x = v.complete k o := by
  have hhalt' := (s.holdCounted_groupWork k held).quayHalt.trans hhalt
  have hnext' := (s.nextQuayOp_holdCounted k held).trans hnext
  unfold State.quayOpComplete
  extract_lets ops u
  have hu : u = s.holdCounted k held := rfl
  have hops : ops = s.quayOps k := rfl
  clear_value u ops
  subst hu hops
  rw [hnext']
  dsimp only
  rw [hhalt', if_neg Bool.false_ne_true]
  exact congrArg (fun r : State × Option Nat => match r.2 with
    | none => r.1.complete k o
    | some a => (r.1.complete k o).raiseFault k 2 o.index 0x57 ((r.1.complete k o).quayFor a) true) hwork

theorem State.quayOpComplete_waits {s : State} {k held : Nat} {x : Errs} (h : s.nextQuayOp k = none ∨ s.quayHalt = true) :
    s.quayOpComplete k held x = s.holdCounted k held := by
  have hnext := s.nextQuayOp_holdCounted k held
  have hhalt := (s.holdCounted_groupWork k held).quayHalt
  unfold State.quayOpComplete
  extract_lets ops u
  have hu : u = s.holdCounted k held := rfl
  have hops : ops = s.quayOps k := rfl
  clear_value u ops
  subst hu hops
  rw [hnext]
  split
  · rfl
  next o ho =>
    rw [if_pos]
    rw [hhalt]
    exact h.resolve_left (by rw [ho]; exact Option.some_ne_none o)

/-! ### QUAY_OP_COMPLETE -/

theorem exec_quayOpComplete (k : Fin 16) (held : Nat) (x : Errs) (s : State) :
    exec (.quayOpComplete k held x) s = .next ((s.quayOpComplete k held x).startJobs x) := rfl

theorem State.holdCounted_dry (s : State) (k held : Nat) : Dry s (s.holdCounted k held) :=
  State.holdCounted_rec k held (.refl s) fun _ _ _ hu => State.count_dry _ _ hu

/-- The operation has completed, and its triggers are gone from its units. -/
def OpEnded (s t : State) (k : Nat) (o : Outst) : Prop :=
  Completed s t k o ∧ (∀ q ∈ s.opUnits k o, Trig.op k o.seq ∉ (t.qu q).trig) ∧ Apart s t

section
variable {s : State} {k : Fin 16} {held : Nat} {x : Errs} (hjobs : NoJobWaits s)
include hjobs

/-- The operation whose turn has come does its work, which meets no poison, and completes. -/
theorem quayOpComplete_runs_answers {o : Outst} (hnext : s.nextQuayOp k = some o) (hhalt : s.quayHalt = false)
    (hposts : PostsFit s k o.word) {M : State → Prop}
    (hwork : ∀ z, GroupWork s z → SameMemory s z → ∃ v, z.quayWork k o x = (v, none) ∧ GroupWork z v ∧ M v) :
    ∃ v, M v ∧ Answers (exec (.quayOpComplete k held x) s) (fun t => SameMemory v t ∧ OpEnded s t k o) := by
  let z := (s.holdCounted k held).opTaken k o
  have hz : GroupWork s z := (s.holdCounted_groupWork k held).opTaken k o
  obtain ⟨v, hwork, hzv, hM⟩ := hwork z hz ((s.holdCounted_dry k held).trans (State.opTaken_dry _ k o)).same
  have hv : GroupWork s v := hz.trans hzv
  have hfit : PostsFit v k o.word := hv.postsFit k.isLt hposts
  have hquays := State.complete_sameQuays hfit
  have hrun := State.quayOpComplete_runs (held := held) hnext hhalt hwork
  have hdone : (s.quayOpComplete k held x).startJobs x = v.complete k o := by
    rw [hrun]
    exact State.startJobs_of_noJobWaits (hjobs.congr (hquays.jobs.trans hv.jobs)) x
  refine ⟨v, hM, _, exec_quayOpComplete k held x s, ?_, ?_, fun q hq hm => ?_,
    State.startJobs_apart x (State.quayOpComplete_apart k held x (.refl s))⟩
  · rw [hdone]
    exact (State.complete_dry k o (.refl v)).same
  · rw [hdone]
    exact hv.completed k.isLt (State.complete_completed hfit)
  · rw [hdone, hquays.qu] at hm
    exact State.not_mem_opTaken ((State.opUnits_holdCounted s k held o).symm ▸ hq) (hzv.trig q hm)

/-- Where no operation may run, cycles held are counted. -/
theorem quayOpComplete_waits_answers (h : s.nextQuayOp k = none ∨ s.quayHalt = true) :
    Answers (exec (.quayOpComplete k held x) s) (fun t => SameRegs ((List.range 16).map (fun q => R.quySCntHold q k)) s t ∧
      t.quay = s.quay ∧ t.q k = s.q k ∧ SameMemory s t ∧ Apart s t) := by
  have hwait : (s.quayOpComplete k held x).startJobs x = s.holdCounted k held := by
    rw [State.quayOpComplete_waits h]
    exact State.startJobs_of_noJobWaits (hjobs.congr (s.holdCounted_groupWork k held).jobs) x
  have hapart : Apart s ((s.quayOpComplete k held x).startJobs x) :=
    State.startJobs_apart x (State.quayOpComplete_apart k held x (.refl s))
  rw [hwait] at hapart
  obtain ⟨r, hr⟩ := s.holdCounted_regs k held
  refine ⟨_, (exec_quayOpComplete k held x s).trans (congrArg _ hwait), s.holdCounted_sameRegs k held, ?_,
    (s.holdCounted_groupWork k held).q k, (s.holdCounted_dry k held).same, hapart⟩
  rw [hr]

end

end Sys2Proof.Machine
end

section
/-! PROOFS. What memory holds once a QUPD, QCLR or QEMIT has completed. -/

namespace Sys2Proof.Machine

theorem QuayD.group_zero (d : QuayD) (g : Nat) : d.group g 0 0 = d.rbase := by simp [QuayD.group]

theorem groupsOf_one {d : QuayD} (hrows : d.rows = 1) (hcols : d.cols = 64) : groupsOf d = [(0, 0)] := by
  rw [groupsOf, hrows, hcols]
  rfl

/-- An update is seen from any state with the same memory. -/
theorem Updated.congr {s z t : State} {k : Nat} {d : QuayD} {ws gs : List Nat} {n c : Nat} (h : Updated z t k d ws n c gs)
    (hz : GroupWork s z) (hmem : SameMemory s z) : Updated s t k d ws n c gs := by
  unfold Updated at h ⊢
  dsimp only at h ⊢
  rwa [hz.gsize, hz.stake, hmem.fp64s, hmem.moments, hmem.moments] at h

theorem Updated.of_sameMemory {s v t : State} {k : Nat} {d : QuayD} {ws gs : List Nat} {n c : Nat} (h : Updated s v k d ws n c gs)
    (hmem : SameMemory v t) : Updated s t k d ws n c gs := by
  unfold Updated at h ⊢
  dsimp only at h ⊢
  rwa [← hmem.fp64s, ← hmem.fp64s] at h

section
variable {s : State} {k : Fin 16} {held : Nat} {x : Errs} {o : Outst} (hjobs : NoJobWaits s) (hnext : s.nextQuayOp k = some o)
  (hhalt : s.quayHalt = false) (hposts : PostsFit s k o.word)
include hjobs hnext hhalt hposts

/-- R182, R185: a QCLR has cleared the accumulators of its tensor. -/
theorem qclr_completes (hop : opcOf o.word = 0x2A) (hlands : ∀ p ∈ o.groups, Lands s (s.opAcc k o p) 256) :
    Answers (exec (.quayOpComplete k held x) s) (fun t => (∀ p ∈ o.groups, t.fp64s (s.opAcc k o p) = List.replicate 64 0) ∧
      MemoryBut (o.groups.map (fun p => (s.opAcc k o p, 256))) s t ∧ OpEnded s t k o) := by
  obtain ⟨v, ⟨hbut, hzero⟩, t, hexec, hsame, hend⟩ := quayOpComplete_runs_answers (held := held) (x := x) hjobs hnext hhalt hposts
    (M := fun v => MemoryBut (o.groups.map (fun p => (s.opAcc k o p, 256))) s v ∧
      ∀ p ∈ o.groups, v.fp64s (s.opAcc k o p) = List.replicate 64 0) fun z hz hmem => by
    obtain ⟨v, hwork, ⟨hv, hbut⟩, hzero⟩ := quayWork_clear (s := z) (k := k) (x := x) hop fun p hp => by
      rw [hz.opAcc]
      exact hz.lands (hlands p hp)
    simp only [hz.opAcc] at hbut hzero
    exact ⟨v, hwork, hv, (hmem.but _).trans hbut, hzero⟩
  exact ⟨t, hexec, fun p hp => (hsame.fp64s _).trans (hzero p hp), hbut.trans (hsame.but _), hend⟩

variable (hx : Corrected x)
include hx

/-- R182: a QEMIT has rewritten working copies only. -/
theorem qemit_completes (hop : opcOf o.word = 0x2B)
    (hread : ∀ p ∈ o.groups, s.badMasters (s.opGroup k o p) = [] ∧ s.scaleBad (parseQuay o.desc) p.1 = false) :
    Answers (exec (.quayOpComplete k held x) s) (fun t => MemoryBut o.copies s t ∧ OpEnded s t k o) := by
  obtain ⟨v, hbut, t, hexec, hsame, hend⟩ := quayOpComplete_runs_answers (held := held) (x := x) hjobs hnext hhalt hposts
    (M := MemoryBut o.copies s) fun z hz hmem => by
    obtain ⟨v, hwork, hv, hbut⟩ := quayWork_emit (s := z) (k := k) hx hop fun p hp => by
      rw [hz.opGroup]
      exact ⟨hz.badMasters (hread p hp).1, hz.scaleBad (hread p hp).2⟩
    exact ⟨v, hwork, hv, (hmem.but _).trans hbut⟩
  exact ⟨t, hexec, hbut.trans (hsame.but _), hend⟩

/-- R178, R179: a QUPD has changed groups and working copies only, and updated the one group of a tensor of one. -/
theorem qupd_completes (hop : opcOf o.word = 0x28)
    (hread : ∀ p ∈ o.groups, s.unreadable (s.opGroup k o p) (accOff (s.stake k).master12) = false ∧
      s.unreadable (s.opAcc k o p) 256 = false ∧ s.scaleBad (parseQuay o.desc) p.1 = false) :
    Answers (exec (.quayOpComplete k held x) s) (fun t =>
      MemoryBut (o.groups.map (fun p => (s.opGroup k o p, s.gsize k)) ++ o.copies) s t ∧ OpEnded s t k o ∧
      (o.groups = [(0, 0)] → Lands s (s.opGroup k o (0, 0)) 256 → Lands s (s.opAcc k o (0, 0)) 256 →
        (∀ r ∈ copyStores (parseQuay o.desc) 0 0, r.1 + r.2 ≤ s.opGroup k o (0, 0) ∨ s.opGroup k o (0, 0) + s.gsize k ≤ r.1) →
        Updated s t k (parseQuay o.desc) (microWords o.chain) 0 0 (s.opGrads k o (0, 0)))) := by
  obtain ⟨v, ⟨hbut, hupd⟩, t, hexec, hsame, hend⟩ := quayOpComplete_runs_answers (held := held) (x := x) hjobs hnext hhalt hposts
    (M := fun v => MemoryBut (o.groups.map (fun p => (s.opGroup k o p, s.gsize k)) ++ o.copies) s v ∧
      (o.groups = [(0, 0)] → Lands s (s.opGroup k o (0, 0)) 256 → Lands s (s.opAcc k o (0, 0)) 256 →
        (∀ r ∈ copyStores (parseQuay o.desc) 0 0, r.1 + r.2 ≤ s.opGroup k o (0, 0) ∨ s.opGroup k o (0, 0) + s.gsize k ≤ r.1) →
        Updated s v k (parseQuay o.desc) (microWords o.chain) 0 0 (s.opGrads k o (0, 0)))) fun z hz hmem => by
    have hread' : ∀ p ∈ o.groups, z.unreadable (z.opGroup k o p) (accOff (z.stake k).master12) = false ∧
        z.unreadable (z.opAcc k o p) 256 = false ∧ z.scaleBad (parseQuay o.desc) p.1 = false := fun p hp => by
      obtain ⟨hrec, hacc, hscale⟩ := hread p hp
      rw [hz.opGroup, hz.opAcc, hz.stake]
      exact ⟨hz.unreadable hrec, hz.unreadable hacc, hz.scaleBad hscale⟩
    obtain ⟨hwork, hv, hbut⟩ := quayWork_update hx hop hread'
    simp only [hz.opGroup, hz.gsize] at hbut
    refine ⟨_, hwork, hv, (hmem.but _).trans hbut, fun hone hmasters haccs hcopies => ?_⟩
    have hgrads : z.opGrads k o (0, 0) = s.opGrads k o (0, 0) := by rw [State.opGrads, hz.opAcc, hmem.fp64s, State.opGrads]
    obtain ⟨hrec, hacc, hscale⟩ := hread' (0, 0) (hone ▸ List.mem_singleton_self _)
    refine hgrads ▸ (updated_groupsDone hx hop hone hrec hacc hscale ?_ ?_ ?_).congr hz hmem
    · rw [hz.opGroup]
      exact hz.lands hmasters
    · rw [hz.opAcc]
      exact hz.lands haccs
    · rwa [hz.opGroup, hz.gsize]
  exact ⟨t, hexec, hbut.trans (hsame.but _), hend, fun hone hm ha hc => (hupd hone hm ha hc).of_sameMemory hsame⟩

end

end Sys2Proof.Machine

open Sys2Proof Sys2Proof.Machine in
/-- Settles O22: what the checks at the head of U refuse and pass, and what an operation whose turn has come leaves in memory once it
has worked on every group of its tensor. -/
theorem quayOperations : Obligations.QuayOperations := by
  refine ⟨fun s k w h => ⟨fun ho => ?_, fun ho => ?_, fun ho => ?_, fun ho => ?_⟩, fun s k wait x hjobs =>
    ⟨fun o hnext hhalt hposts => ⟨fun hop hlands => ?_, fun hop hx hread => ?_, fun hop hx hread => ?_⟩, fun hwait => ?_⟩⟩
  · exact quayTensorOp_answers h (exec_qupd k s) ho
  · exact quayTensorOp_answers h (exec_qclr k s) ho
  · exact quayTensorOp_answers h (exec_qemit k s) ho
  · exact qbind_answers h ho
  · exact qclr_completes hjobs hnext hhalt hposts hop hlands
  · obtain ⟨t, hexec, hbut, hend, hupd⟩ := qupd_completes (held := wait) hjobs hnext hhalt hposts hx hop hread
    refine ⟨t, hexec, hbut, hend, fun hrows hcols hwr hcopies => ?_⟩
    have hone : o.groups = [(0, 0)] := groupsOf_one hrows hcols
    have hbase : s.opGroup k o (0, 0) = (parseQuay o.desc).rbase := QuayD.group_zero _ _
    have hoff : accOff (s.stake k).master12 ≤ 768 := by cases (s.stake k).master12 <;> decide
    have hacc : (parseQuay o.desc).rbase + accOff (s.stake k).master12 = s.opAcc k o (0, 0) := by rw [State.opAcc, hbase]
    have hlands : ∀ i, i + 256 ≤ 1024 → Lands s (s.opGroup k o (0, 0) + i) 256 := fun i hi =>
      hwr _ (List.mem_singleton_self _) i 256 hi (Nat.lt_of_lt_of_le (Nat.lt_add_of_pos_right (by decide)) hi)
    have hgrads : s.opGrads k o (0, 0) =
        (s.fp64s ((parseQuay o.desc).rbase + accOff (s.stake k).master12)).map (fun v => mul32 v (parseQuay o.desc).gscale) := by
      rw [hacc, State.opGrads]
    have hmasters := hlands 0 (by decide)
    rw [Nat.add_zero] at hmasters
    rw [← hgrads]
    refine hupd hone hmasters (hlands _ (by omega)) fun r hr => ?_
    rw [hbase]
    exact hcopies r (Outst.copyStores_subset (p := (0, 0)) (hone ▸ List.mem_singleton_self _) hr)
  · exact qemit_completes hjobs hnext hhalt hposts hx hop hread
  · exact quayOpComplete_waits_answers hjobs hwait

end

section
/-! PROOFS. Barges handed to a ring direction (R292, R296, R298): which leave at once and which wait is the pump's choice; none is lost, and
nothing but the contexts of the ports and of the ring directions changes. -/

namespace Sys2Proof.Machine

/-- Only the contexts of the ports and of the ring directions differ; every port holds the same received flits, and no barge that was
handed over is lost. -/
structure Pumped (s t : State) : Prop where
  rest  : t = { s with port := t.port, ring := t.ring }
  rx    : ∀ p, (t.pt p).rx = (s.pt p).rx
  keeps : ∀ rd cls f, Leaves s rd cls f → Leaves t rd cls f

theorem Pumped.refl (s : State) : Pumped s s := ⟨rfl, fun _ => rfl, fun _ _ _ h => h⟩

theorem Pumped.trans {r s t : State} (h : Pumped r s) (h' : Pumped s t) : Pumped r t where
  rest := by rw [h'.rest, h.rest]
  rx := fun p => (h'.rx p).trans (h.rx p)
  keeps := fun rd cls f hl => h'.keeps rd cls f (h.keeps rd cls f hl)

/-- A flit of a ring direction that waits or has been sent stands also where the queues and the replay buffers have grown. -/
theorem Leaves.mono {s t : State} {rd cls : Nat} {f : List Byte} (h : Leaves s rd cls f) (hring : (s.rg rd).txq ⊆ (t.rg rd).txq)
    (hport : ∀ p, (s.pt p).replay ⊆ (t.pt p).replay) : Leaves t rd cls f := by
  obtain h | ⟨p, e, he, hf⟩ := h
  · exact .inl (hring h)
  · exact .inr ⟨p, e, hport p he, hf⟩

/-- A port whose context keeps its received flits and forgets no frame. -/
theorem State.setPt_pumped (s : State) (p : Nat) {c : Port} (hrx : c.rx = (s.pt p).rx) (hreplay : (s.pt p).replay ⊆ c.replay) :
    Pumped s (s.setPt p c) where
  rest := rfl
  rx := fun q => by
    rw [State.pt_setPt]
    split
    next hq => rw [hq, hrx]
    · rfl
  keeps := fun rd cls f h => h.mono (List.Subset.refl _) fun q => by
    rw [State.pt_setPt]
    split
    next hq => exact hq ▸ hreplay
    · exact List.Subset.refl _

theorem State.sendCtrl_pumped (s : State) (p : Nat) : Pumped s (s.sendCtrl p) := s.setPt_pumped p rfl (List.Subset.refl _)

theorem State.sendData_pumped (s : State) (p : Nat) (f : TxFrame) : Pumped s (s.sendData p f) := by
  unfold State.sendData
  extract_lets c u
  have hu : Pumped s u := s.setPt_pumped p rfl (List.Subset.refl _)
  split
  · exact hu.trans (u.sendCtrl_pumped p)
  · exact hu

/-- A flit that is framed stands in the replay buffer of its port. -/
theorem State.txFrame_pumped (s : State) (p rd cls : Nat) (f : List Byte) : Pumped s (s.txFrame p rd cls f) ∧
    Leaves (s.txFrame p rd cls f) rd cls f := by
  unfold State.txFrame
  extract_lets c credit fr
  generalize hc : { c with txSeq := (c.txSeq + 1) % 4096, credit := credit, replay := c.replay ++ [fr] } = c'
  have hu : Pumped s (s.setPt p c') := s.setPt_pumped p (hc ▸ rfl) (hc ▸ List.subset_append_left _ _)
  have hfr : fr ∈ ((s.setPt p c').pt p).replay := by simp [State.pt_setPt, ← hc]
  have hsend := (s.setPt p c').sendData_pumped p fr
  exact ⟨hu.trans hsend, hsend.keeps rd cls f (.inr ⟨p, fr, hfr, rfl, rfl, rfl⟩)⟩

theorem mem_eraseIdx_or_eq {α : Type} (l : List α) (i : Nat) (d : α) {a : α} (h : a ∈ l) : a ∈ l.eraseIdx i ∨ a = l.getD i d := by
  obtain ⟨j, hj, rfl⟩ := List.getElem_of_mem h
  by_cases hij : j = i
  · exact .inr (by rw [List.getD_eq_getElem _ _ (hij ▸ hj)]; simp [hij])
  · exact .inl (List.mem_eraseIdx_iff_getElem.mpr ⟨j, hj, hij, rfl⟩)

/-- One barge leaves its ring direction's queue for a port. -/
theorem State.send_pumped (s : State) (rd i p : Nat) {g : RingDir} (hg : g.txq = (s.rg rd).txq.eraseIdx i) :
    Pumped s ((s.setRg rd g).txFrame p rd ((s.rg rd).txq.getD i (0, [])).1 ((s.rg rd).txq.getD i (0, [])).2) := by
  generalize he : (s.rg rd).txq.getD i (0, []) = e
  obtain ⟨htx, hleaves⟩ := (s.setRg rd g).txFrame_pumped p rd e.1 e.2
  refine ⟨by rw [htx.rest]; rfl, htx.rx, fun rd' cls f h => ?_⟩
  obtain h | ⟨q, fr, hfr, hf⟩ := h
  · by_cases hrd : rd' = rd
    · subst hrd
      obtain h | h := mem_eraseIdx_or_eq _ i (0, []) h
      · exact htx.keeps _ _ _ (.inl (by rwa [State.rg_setRg, if_pos rfl, hg]))
      · rw [he] at h
        exact h ▸ hleaves
    · exact htx.keeps _ _ _ (.inl (by rwa [State.rg_setRg, if_neg hrd]))
  · exact htx.keeps _ _ _ (.inr ⟨q, fr, hfr, hf⟩)

theorem State.pumpN_pumped (s : State) (rd n : Nat) : Pumped s (s.pumpN rd n) := by
  induction n generalizing s with
  | zero => exact .refl s
  | succ n ih =>
    unfold State.pumpN
    split
    · exact .refl s
    · refine .trans (s.send_pumped rd _ _ ?_) (ih _)
      unfold RingDir.charge
      split
      · rfl
      · split <;> rfl

/-- What a hand-over leaves, and the barge handed over. -/
theorem State.emit_pumped (s : State) (rd cls : Nat) (f : List Byte) : Pumped s (s.emit rd cls f) ∧ Leaves (s.emit rd cls f) rd cls f := by
  unfold State.emit
  generalize hu : s.setRg rd { s.rg rd with txq := (s.rg rd).txq ++ [(cls, f)] } = u
  have hqueue : (u.rg rd).txq = (s.rg rd).txq ++ [(cls, f)] := by rw [← hu, State.rg_setRg, if_pos rfl]
  have hwait : Pumped s u := by
    refine ⟨hu ▸ rfl, fun p => hu ▸ rfl, fun rd' cls' f' h => h.mono ?_ fun p => hu ▸ List.Subset.refl _⟩
    by_cases hrd : rd' = rd
    · rw [hrd, hqueue]
      exact List.subset_append_left _ _
    · rw [← hu, State.rg_setRg, if_neg hrd]
      exact List.Subset.refl _
  have hpump : Pumped u (u.pump rd) := u.pumpN_pumped rd _
  exact ⟨hwait.trans hpump, hpump.keeps rd cls f (.inl (by simp [hqueue]))⟩

end Sys2Proof.Machine
end

section
/-! PROOFS. XREAD (R81, R201, R259): a scratchpad of the stake counts as its memory up to its last byte, also where the share of the ASU
begins, and a unit's write there is dropped. -/

namespace Sys2Proof.Machine

/-- The last 128 bytes of the scratchpad of engine 0. -/
def asuShareEnd : Nat := spadBase 0 + 0x1800000 - 128

/-- An XREAD to there, of level 0, with neither WAIT nor POST. -/
def xreadToAsu : Nat := 0x31 + asuShareEnd * 2 ^ 64

/-- Stake 0 owns engine 0, whose last MiB belongs to the ASU, and runs with that XREAD at the head of U. The exchange of its latest
hand-off is DONE, and every byte of memory is 0. -/
def xreadAsuState : State :=
  { State.reset with
    weave := { WeaveCtx.reset with active := true, cur := { WeaveData.empty with
      stakes := [{ StakeRec.off with enable := true, eng := 1, spad := 1 }] } }
    regs := [(R.psqStatus 0, (0 : Word).setFld F.psqStatusState stRunning), (R.psqLimit 0 2, 1), (R.rdxSXstat 0, 2)]
    psq := [(0, { Psq.idle with words := [(2, 0, xreadToAsu)] })]
    undef := [] }

theorem xreadToAsu_ready : Ready xreadAsuState 0 2 xreadToAsu := by
  unfold Ready
  decide +kernel

theorem xreadToAsu_noOverflow : NoOverflow xreadAsuState 0 xreadToAsu := by
  have hset : xreadAsuState.tset 0 (postOf xreadToAsu) = 0 := by decide +kernel
  intro c hc
  rw [hset, Nat.zero_testBit] at hc
  cases hc

/-- RDX_S_XSTAT, which is 2, is not stored at the place of XREAD's word for it. -/
theorem xreadToAsu_stores_nothing :
    ((xreadAsuState.xreadHead 0).xreadEnd 0).num (asuShareEnd + 64) 8 ≠ (xreadAsuState.reg (R.rdxSXstat 0)).toNat := by decide +kernel

theorem exec_xread (k : Fin 16) (s : State) : exec (.xread k) s = .next ((s.xreadHead k).xreadEnd k) := rfl

end Sys2Proof.Machine

open Sys2Proof Sys2Proof.Machine in
/-- Refutes O26: the range check of XREAD passes the ASU's share of a scratchpad, where its write of 128 bytes is dropped although the
address is one that takes writes. -/
theorem not_reductionJobs : ¬ Obligations.ReductionJobs := by
  intro h
  obtain ⟨-, -, hread⟩ := h xreadAsuState 0 Errs.none
  obtain ⟨hdone, -, -⟩ := hread xreadToAsu xreadToAsu_ready (by decide +kernel) (by decide +kernel) (by decide +kernel) (by decide +kernel)
    (by decide +kernel) (by decide +kernel)
  obtain ⟨t, hexec, -, -, hstored, -⟩ := hdone (by decide +kernel) (by decide +kernel) xreadToAsu_noOverflow
  obtain rfl := Host.Outcome.next.inj ((exec_xread 0 xreadAsuState).symm.trans hexec)
  obtain ⟨-, hstatus, -⟩ := hstored (by decide +kernel)
  have haddr : bits xreadToAsu 64 52 = asuShareEnd := by decide +kernel
  rw [haddr] at hstatus
  exact xreadToAsu_stores_nothing hstatus

end

section
/-! PROOFS. The verdict of a seal exchange (R196, R197): the registers that report it, the event, and the post that its end gives. -/

namespace Sys2Proof.Machine

/-! ### a post from outside the streams (R126, R144) -/

theorem State.reg_writeCtxLive (s : State) (k : Nat) {a : Nat} (h : a ≠ R.cxtErr) : (s.writeCtxLive k).reg a = s.reg a := by
  unfold State.writeCtxLive
  dsimp only
  rw [State.reg_forAll _ fun u i _ => u.reg_wr _ _ _ h, State.reg_forAll _ fun u x _ => by simp only [State.reg_wr _ _ _ _ h]]

theorem State.reg_extPost_other (s : State) {a k : Nat} (htok : ∀ i, i < 16 → a ≠ R.psqToken k i) (hcxt : a ≠ R.cxtErr) (mask : Nat) :
    (s.extPost k mask).reg a = s.reg a := by
  have hgive := s.reg_giveTokens_other htok mask
  unfold State.extPost State.ctxThrough
  split
  · rw [State.reg_writeCtxLive _ _ hcxt, hgive]
  · exact hgive

theorem State.tok_extPost (s : State) (k c : Nat) {d : Nat} (hd : d < 64) :
    (s.extPost k (2 ^ c)).tok k d = if d = c then min 65535 (s.tok k d + 1) else s.tok k d := by
  have hctx : ∀ u : State, (u.ctxThrough k).tok k d = u.tok k d := fun u => by
    refine State.tok_congr (fun i _ => ?_) hd
    unfold State.ctxThrough
    split
    · exact u.reg_writeCtxLive k (by unfold R.psqToken R.cxtErr; omega)
    · rfl
  have hmem : d ∈ onesOf 64 (2 ^ c) ↔ d = c := by simp [onesOf, hd, Nat.testBit_two_pow, eq_comm]
  have hnd : (onesOf 64 (2 ^ c)).Nodup := List.nodup_range.filter _
  rw [State.extPost, hctx, State.giveTokens, State.tok_forAll_setTok k d (fun n => min 65535 (n + 1)) hnd, if_congr hmem rfl rfl]
  split
  · omega
  · rfl

/-- A stake that is not stopped has no context area to write through to. -/
theorem State.extPost_sameMemory (s : State) {k : Nat} (h : s.pst k ≠ 4) (mask : Nat) : SameMemory s (s.extPost k mask) := by
  have hgive : (s.giveTokens k mask).pst k = s.pst k := by rw [State.pst, State.fld, s.psqStatus_giveTokens, State.pst, State.fld]
  rw [State.extPost, State.ctxThrough, if_neg (fun hc => h (hgive ▸ hc.1))]
  exact (State.giveTokens_dry k mask (.refl s)).same

/-! ### what the end of an exchange leaves of the links and of the other contexts -/

/-- The exchanges and the contexts of the ports and ring directions stand. -/
structure SameLinks (s t : State) : Prop where
  xch  : t.xch = s.xch
  port : t.port = s.port
  ring : t.ring = s.ring

theorem SameLinks.refl (s : State) : SameLinks s s := ⟨rfl, rfl, rfl⟩

theorem SameLinks.leaves {s t : State} (h : SameLinks s t) {rd cls : Nat} {f : List Byte} (hl : Leaves s rd cls f) : Leaves t rd cls f := by
  have hrg : t.rg rd = s.rg rd := by rw [State.rg, h.ring, State.rg]
  have hpt : ∀ p, t.pt p = s.pt p := fun p => by rw [State.pt, h.port, State.pt]
  exact hl.mono (hrg ▸ List.Subset.refl _) fun p => hpt p ▸ List.Subset.refl _

section
variable {z s : State} (h : SameLinks z s)
include h

theorem SameLinks.setReg (a : Nat) (v : Word) : SameLinks z (s.setReg a v) := ⟨h.xch, h.port, h.ring⟩

theorem SameLinks.setFld (a : Nat) (f : Fld) (v : Nat) : SameLinks z (s.setFld a f v) := h.setReg a _

theorem SameLinks.wr (a : Nat) (l : List Byte) : SameLinks z (s.wr a l) :=
  ⟨(s.wr_xch a l).trans h.xch, (s.wr_port a l).trans h.port, (s.wr_ring a l).trans h.ring⟩

theorem SameLinks.stakeEvent (k : Nat) (f : Fld) : SameLinks z (s.stakeEvent k f) :=
  ⟨(s.stakeEvent_xch k f).trans h.xch, (s.stakeEvent_port k f).trans h.port, (s.stakeEvent_ring k f).trans h.ring⟩

theorem SameLinks.forAll (l : List Nat) {f : State → Nat → State} (hf : ∀ u i, SameLinks z u → SameLinks z (f u i)) :
    SameLinks z (s.forAll l f) :=
  List.foldlRecOn l f (motive := SameLinks z) h fun u hu i _ => hf u i hu

theorem SameLinks.xchPost (k : Nat) : SameLinks z (s.xchPost k) := by
  unfold State.xchPost State.extPost State.ctxThrough State.writeCtxLive
  dsimp only
  have hgive := h.forAll (onesOf 64 (2 ^ s.fld (R.rdxSXctl k) F.rdxSXctlToken)) fun u c hu =>
    hu.setFld (R.psqToken k (c / 4)) (16 * (c % 4), 16) (min 65535 (u.tok k c + 1))
  split
  · split
    · exact (hgive.forAll _ fun u x hu => (((hu.wr _ _).wr _ _).wr _ _).wr _ _).forAll _ fun u i hu => hu.wr _ _
    · exact hgive
  · exact h

end

/-! ### the agreed record (R197) -/

/-- The registers of the agreed record. -/
def State.noteAgreed (s : State) (k : Nat) (r : SealRec) : State :=
  ((s.setFld (R.rdxSXnonfin k) F.rdxSXnonfinAgreed r.nonfin).setReg (R.rdxSXnormsq k) (BitVec.ofNat 64 r.normsq)).forAll (List.range 5)
    (fun u i => u.setReg (R.rdxSXexp k i)
      (BitVec.ofNat 64 (ofBytes ((List.range 8).map (fun j => BitVec.ofNat 8 (r.exps.getD (8 * i + j) 0))))))

/-- The verdict SKIP, its count and its event. -/
def State.noteSkip (s : State) (k : Nat) : State :=
  ((s.setFld (R.rdxSXstat k) F.rdxSXstatSkip 1).count (R.rdxSCntSkip k) 1).stakeEvent k F.hifSEvtSkip

theorem State.agree_eq (s : State) (k : Nat) (r : SealRec) :
    s.agree k r = if r.nonfin = 0 ∨ r.mismatch then s.noteAgreed k r else (s.noteAgreed k r).noteSkip k := rfl

section
variable {s : State} {k : Nat} (r : SealRec)

theorem State.reg_noteAgreed_other {a : Nat} (hnonfin : a ≠ R.rdxSXnonfin k) (hnorm : a ≠ R.rdxSXnormsq k)
    (hexp : ∀ i, i < 5 → a ≠ R.rdxSXexp k i) : (s.noteAgreed k r).reg a = s.reg a := by
  rw [State.noteAgreed, State.reg_forAll _ fun u i hi => u.reg_setReg_other _ _ _ (hexp i (List.mem_range.mp hi)),
    State.reg_setReg_other _ _ _ _ hnorm, State.reg_setFld_other _ hnonfin]

theorem State.nonfin_noteAgreed : (s.noteAgreed k r).fld (R.rdxSXnonfin k) F.rdxSXnonfinAgreed = r.nonfin % 2 ^ 32 := by
  have hne : R.rdxSXnonfin k ≠ R.rdxSXnormsq k := by unfold R.rdxSXnonfin R.rdxSXnormsq; omega
  rw [State.fld, State.noteAgreed, State.reg_forAll _ fun u i hi => u.reg_setReg_other _ _ _ (by unfold R.rdxSXnonfin R.rdxSXexp; omega),
    State.reg_setReg_other _ _ _ _ hne]
  exact State.fld_setFld_same _ _ _ _ (by decide)

theorem State.normsq_noteAgreed : (s.noteAgreed k r).reg (R.rdxSXnormsq k) = BitVec.ofNat 64 r.normsq := by
  rw [State.noteAgreed, State.reg_forAll _ fun u i hi => u.reg_setReg_other _ _ _ (by unfold R.rdxSXnormsq R.rdxSXexp; omega),
    State.reg_setReg_same]

theorem SameLinks.noteAgreed {z : State} (h : SameLinks z s) : SameLinks z (s.noteAgreed k r) :=
  ((h.setFld _ _ _).setReg _ _).forAll _ fun _ _ hu => hu.setReg _ _

theorem State.reg_noteSkip_other {a : Nat} (hstat : a ≠ R.rdxSXstat k) (hcnt : a ≠ R.rdxSCntSkip k) (hevt : a ≠ R.hifSEvt k) :
    (s.noteSkip k).reg a = s.reg a := by
  rw [State.noteSkip, State.stakeEvent, State.reg_raiseEvent_other _ hevt, State.reg_count_other _ hcnt, State.reg_setFld_other _ hstat]

theorem SameLinks.noteSkip {z : State} (h : SameLinks z s) : SameLinks z (s.noteSkip k) :=
  ((h.setFld _ _ _).setReg _ _).stakeEvent _ _

end

/-! ### the end of an exchange (R196, R197) -/

/-- The registers and the event of an exchange's end, before its post. -/
def State.rule (s : State) (k st : Nat) (agreed : Option SealRec) : State :=
  let u := (s.setFld (R.rdxSXstat k) F.rdxSXstatState st).setReg (R.rdxSCntSpill k) 0
  let u := match agreed with
    | some r => u.agree k r
    | none => u
  if st = 2 then u else u.stakeEvent k F.hifSEvtXchg

/-- The context of an exchange that has ended. -/
def Xch.close (c : Xch) (step : Nat) (agreed : Option SealRec) : Xch :=
  { c.endStep step with
    current := none
    passed := false
    agreed := agreed }

theorem State.closeXch_eq {s : State} {k : Nat} {h : Handoff} (hc : (s.xc k).current = some h) (st : Nat) (agreed : Option SealRec) :
    s.closeXch k st agreed = ((s.rule k st agreed).xchPost k).setXc k ((s.xc k).close h.step agreed) := by
  unfold State.closeXch
  rw [hc]
  rfl

section
variable {s : State} {k : Nat} (st : Nat) (agreed : Option SealRec)

theorem SameLinks.agree {z : State} (h : SameLinks z s) (r : SealRec) : SameLinks z (s.agree k r) := by
  rw [State.agree_eq]
  split
  · exact h.noteAgreed r
  · exact (h.noteAgreed r).noteSkip

theorem SameLinks.rule {z : State} (h : SameLinks z s) : SameLinks z (s.rule k st agreed) := by
  have hu := (h.setFld (R.rdxSXstat k) F.rdxSXstatState st).setReg (R.rdxSCntSpill k) 0
  unfold State.rule
  dsimp only
  cases agreed with
  | none =>
    split
    · exact hu
    · exact hu.stakeEvent _ _
  | some r =>
    split
    · exact hu.agree r
    · exact (hu.agree r).stakeEvent _ _

theorem State.rule_dry : Dry s (s.rule k st agreed) := by
  have hu : Dry s ((s.setFld (R.rdxSXstat k) F.rdxSXstatState st).setReg (R.rdxSCntSpill k) 0) :=
    State.setReg_dry _ _ (State.setFld_dry _ _ _ (.refl s))
  unfold State.rule
  dsimp only
  cases agreed with
  | none =>
    split
    · exact hu
    · exact State.stakeEvent_dry _ _ hu
  | some r =>
    split
    · exact State.agree_dry _ _ hu
    · exact State.stakeEvent_dry _ _ (State.agree_dry _ _ hu)

/-- The registers that the verdict leaves: neither a word of the agreed record, nor the stake's events, nor one of the two counts. -/
theorem State.reg_rule_other {a : Nat} (hstat : a ≠ R.rdxSXstat k) (hspill : a ≠ R.rdxSCntSpill k) (hevt : a ≠ R.hifSEvt k)
    (hskip : a ≠ R.rdxSCntSkip k) (hnonfin : a ≠ R.rdxSXnonfin k) (hnorm : a ≠ R.rdxSXnormsq k)
    (hexp : ∀ i, i < 5 → a ≠ R.rdxSXexp k i) : (s.rule k st agreed).reg a = s.reg a := by
  have hu : ((s.setFld (R.rdxSXstat k) F.rdxSXstatState st).setReg (R.rdxSCntSpill k) 0).reg a = s.reg a := by
    rw [State.reg_setReg_other _ _ _ _ hspill, State.reg_setFld_other _ hstat]
  have hagree : ∀ (u : State) r, (u.agree k r).reg a = u.reg a := fun u r => by
    rw [State.agree_eq]
    split
    · exact State.reg_noteAgreed_other r hnonfin hnorm hexp
    · rw [State.reg_noteSkip_other hstat hskip hevt, State.reg_noteAgreed_other r hnonfin hnorm hexp]
  have hevent : ∀ u : State, (u.stakeEvent k F.hifSEvtXchg).reg a = u.reg a := fun u => u.reg_raiseEvent_other hevt _ _
  unfold State.rule
  dsimp only
  cases agreed with
  | none =>
    split
    · exact hu
    · rw [hevent, hu]
  | some r =>
    split
    · rw [hagree, hu]
    · rw [hevent, hagree, hu]

end

section
variable {s : State} {k : Nat} (hk : k < 16)
include hk

/-! #### what the verdict's registers read -/

theorem State.state_agree (r : SealRec) :
    (s.agree k r).fld (R.rdxSXstat k) F.rdxSXstatState = s.fld (R.rdxSXstat k) F.rdxSXstatState := by
  have hnote : (s.noteAgreed k r).reg (R.rdxSXstat k) = s.reg (R.rdxSXstat k) :=
    State.reg_noteAgreed_other r (by unfold R.rdxSXstat R.rdxSXnonfin; omega) (by unfold R.rdxSXstat R.rdxSXnormsq; omega)
      fun i _ => by unfold R.rdxSXstat R.rdxSXexp; omega
  rw [State.agree_eq]
  split
  · rw [State.fld, hnote, State.fld]
  · rw [State.noteSkip, State.stakeEvent, State.fld, State.reg_raiseEvent_other _ (by unfold R.rdxSXstat R.hifSEvt; omega),
      State.reg_count_other _ (by unfold R.rdxSXstat R.rdxSCntSkip; omega)]
    exact (State.fld_setFld_fld _ _ _ _ _ (by decide)).trans (by rw [State.fld, hnote, State.fld])

theorem State.skip_agree {r : SealRec} (hnonfin : r.nonfin ≠ 0) (hmis : r.mismatch = false) :
    (s.agree k r).flag (R.rdxSXstat k) F.rdxSXstatSkip = true := by
  rw [State.agree_eq, if_neg (by simp [hnonfin, hmis]), State.noteSkip, State.stakeEvent, State.flag, State.fld,
    State.reg_raiseEvent_other _ (by unfold R.rdxSXstat R.hifSEvt; omega),
    State.reg_count_other _ (by unfold R.rdxSXstat R.rdxSCntSkip; omega)]
  exact decide_eq_true (by rw [← State.fld, State.fld_setFld_same _ _ _ _ (by decide)]; decide)

theorem State.nonfin_agree (r : SealRec) : (s.agree k r).fld (R.rdxSXnonfin k) F.rdxSXnonfinAgreed = r.nonfin % 2 ^ 32 := by
  rw [State.agree_eq]
  split
  · exact State.nonfin_noteAgreed r
  · rw [State.fld, State.reg_noteSkip_other (by unfold R.rdxSXnonfin R.rdxSXstat; omega) (by unfold R.rdxSXnonfin R.rdxSCntSkip; omega)
      (by unfold R.rdxSXnonfin R.hifSEvt; omega)]
    exact State.nonfin_noteAgreed r

theorem State.normsq_agree (r : SealRec) : (s.agree k r).reg (R.rdxSXnormsq k) = BitVec.ofNat 64 r.normsq := by
  rw [State.agree_eq]
  split
  · exact State.normsq_noteAgreed r
  · rw [State.reg_noteSkip_other (by unfold R.rdxSXnormsq R.rdxSXstat; omega) (by unfold R.rdxSXnormsq R.rdxSCntSkip; omega)
      (by unfold R.rdxSXnormsq R.hifSEvt; omega)]
    exact State.normsq_noteAgreed r

/-- The event of an end that is not DONE is no word of the exchange. -/
theorem State.reg_rule_event (st : Nat) (agreed : Option SealRec) {a : Nat} (ha : R.rdxSXctl k ≤ a) :
    (s.rule k st agreed).reg a = (match agreed with
      | some r => ((s.setFld (R.rdxSXstat k) F.rdxSXstatState st).setReg (R.rdxSCntSpill k) 0).agree k r
      | none => (s.setFld (R.rdxSXstat k) F.rdxSXstatState st).setReg (R.rdxSCntSpill k) 0).reg a := by
  unfold State.rule
  dsimp only
  split
  · rfl
  · exact State.reg_raiseEvent_other _ (by unfold R.rdxSXctl at ha; unfold R.hifSEvt; omega) _ _

/-- The control word and the sequencers' registers are no words of the verdict. -/
theorem State.reg_rule_far (st : Nat) (agreed : Option SealRec) {a : Nat} (ha : a = R.rdxSXctl k ∨ R.psqStatus 0 ≤ a) :
    (s.rule k st agreed).reg a = s.reg a := by
  unfold R.rdxSXctl R.psqStatus at ha
  exact State.reg_rule_other st agreed (by unfold R.rdxSXstat; omega) (by unfold R.rdxSCntSpill; omega) (by unfold R.hifSEvt; omega)
    (by unfold R.rdxSCntSkip; omega) (by unfold R.rdxSXnonfin; omega) (by unfold R.rdxSXnormsq; omega)
    fun i _ => by unfold R.rdxSXexp; omega

theorem State.state_rule {st : Nat} (hst : st < 8) (agreed : Option SealRec) :
    (s.rule k st agreed).fld (R.rdxSXstat k) F.rdxSXstatState = st := by
  have hu : ((s.setFld (R.rdxSXstat k) F.rdxSXstatState st).setReg (R.rdxSCntSpill k) 0).fld (R.rdxSXstat k) F.rdxSXstatState = st := by
    rw [State.fld, State.reg_setReg_other _ _ _ _ (by unfold R.rdxSXstat R.rdxSCntSpill; omega)]
    exact (State.fld_setFld_same _ _ _ _ (by decide)).trans (Nat.mod_eq_of_lt hst)
  rw [State.fld, State.reg_rule_event hk _ _ (by unfold R.rdxSXctl R.rdxSXstat; omega), ← State.fld]
  cases agreed with
  | none => exact hu
  | some r => exact (State.state_agree hk r).trans hu

end

/-! ### the post of an exchange's end -/

section
variable {s : State} {k : Nat}

theorem State.reg_xchPost_other {a : Nat} (htok : ∀ i, i < 16 → a ≠ R.psqToken k i) (hcxt : a ≠ R.cxtErr) :
    (s.xchPost k).reg a = s.reg a := by
  unfold State.xchPost
  split
  · exact s.reg_extPost_other htok hcxt _
  · rfl

theorem State.xchPost_sameMemory (h : s.pst k ≠ 4) : SameMemory s (s.xchPost k) := by
  unfold State.xchPost
  split
  · exact s.extPost_sameMemory h _
  · exact fun _ => rfl

/-! ### the state that the end of an exchange leaves -/

variable {h : Handoff} (hc : (s.xc k).current = some h) (st : Nat) (agreed : Option SealRec)
include hc

theorem State.xc_closeXch : (s.closeXch k st agreed).xc k = (s.xc k).close h.step agreed := by
  rw [State.closeXch_eq hc, State.xc_setXc, if_pos rfl]

/-- The exchange's registers read what the verdict wrote. -/
theorem State.reg_closeXch_rdx (hk : k < 16) {a : Nat} (hlo : R.rdxSXctl k ≤ a) (hhi : a < R.rdxSXctl 16) (hstat : a ≠ R.rdxSXstat k) :
    (s.closeXch k st agreed).reg a = (s.rule k st agreed).reg a := by
  unfold R.rdxSXctl at hlo hhi
  rw [State.closeXch_eq hc, State.reg_setXc_other _ hstat,
    State.reg_xchPost_other (fun i _ => by unfold R.psqToken; omega) (by unfold R.cxtErr; omega)]

theorem State.stat_closeXch {f : Fld} (hf : f.1 + f.2 ≤ 4) (hk : k < 16) :
    (s.closeXch k st agreed).fld (R.rdxSXstat k) f = (s.rule k st agreed).fld (R.rdxSXstat k) f := by
  rw [State.closeXch_eq hc, State.setXc, State.fld_setFld_fld _ _ _ _ _ (.inl hf), State.fld, State.fld]
  exact congrArg (Word.fld · f) (State.reg_xchPost_other (fun i _ => by unfold R.rdxSXstat R.psqToken; omega)
    (by unfold R.rdxSXstat R.cxtErr; omega))

/-- Barges that were handed over stand after the end. -/
theorem State.leaves_closeXch {rd cls : Nat} {f : List Byte} (hl : Leaves s rd cls f) : Leaves (s.closeXch k st agreed) rd cls f := by
  have hpost := (((SameLinks.refl s).rule st agreed (k := k)).xchPost k).leaves hl
  rw [State.closeXch_eq hc]
  exact hpost

theorem State.closeXch_sameMemory (hk : k < 16) (hrun : s.pst k ≠ 4) : SameMemory s (s.closeXch k st agreed) := by
  have hpst : (s.rule k st agreed).pst k = s.pst k := by
    rw [State.pst, State.fld, State.reg_rule_far hk _ _ (.inr (by unfold R.psqStatus; omega)), State.pst, State.fld]
  have hpost : SameMemory (s.rule k st agreed) ((s.rule k st agreed).xchPost k) := State.xchPost_sameMemory (hpst ▸ hrun)
  rw [State.closeXch_eq hc]
  exact fun a => ((State.setXc_dry _ _ (.refl _)).same a).trans ((hpost a).trans ((State.rule_dry st agreed).same a))

/-- R196: the post gives one token more. -/
theorem State.tok_closeXch (hk : k < 16) (hpost : s.flag (R.rdxSXctl k) F.rdxSXctlPost = true) :
    let c := s.fld (R.rdxSXctl k) F.rdxSXctlToken
    (s.closeXch k st agreed).tok k c = min 65535 (s.tok k c + 1) := by
  extract_lets c
  have hctl : (s.rule k st agreed).reg (R.rdxSXctl k) = s.reg (R.rdxSXctl k) := State.reg_rule_far hk _ _ (.inl rfl)
  have hc64 : c < 64 := bits_lt _ _ _
  have htok : (s.rule k st agreed).tok k c = s.tok k c :=
    State.tok_congr (fun i _ => State.reg_rule_far hk _ _ (.inr (by unfold R.psqStatus R.psqToken; omega))) hc64
  have hctlTok : (s.rule k st agreed).fld (R.rdxSXctl k) F.rdxSXctlToken = c := by rw [State.fld, hctl, ← State.fld]
  rw [State.closeXch_eq hc, State.xchPost, if_pos ((State.flag_congr hctl _).trans hpost), hctlTok]
  calc State.tok (State.setXc _ k _) k c = ((s.rule k st agreed).extPost k (2 ^ c)).tok k c :=
        State.tok_congr (fun i _ => State.reg_setXc_other _ (by unfold R.psqToken R.rdxSXstat; omega) _) hc64
    _ = min 65535 (s.tok k c + 1) := by rw [State.tok_extPost _ _ _ hc64, if_pos rfl, htok]

end

/-! ### records held and queued hand-offs (R195, R196, R198) -/

section
variable {s : State} {k : Nat}

theorem State.drainSeals_of_empty (h : (s.xc k).buffer = []) (n : Nat) : s.drainSeals k n = s := by
  cases n with
  | zero => rfl
  | succ n =>
    unfold State.drainSeals
    rw [h]
    cases (s.xc k).current <;> rfl

theorem State.drainSeals_of_closed (h : (s.xc k).current = none) (n : Nat) : s.drainSeals k n = s := by
  cases n with
  | zero => rfl
  | succ n =>
    unfold State.drainSeals
    rw [h]

/-- With no exchange open and none queued a stake waits for its next hand-off. -/
theorem State.nextXch_of_ended (h : (s.xc k).current = none) (hq : (s.xc k).queued = none) (n : Nat) : s.nextXch k n = s := by
  cases n with
  | zero => rfl
  | succ n =>
    unfold State.nextXch
    rw [State.drainSeals_of_closed h]
    dsimp only
    rw [h, hq]

/-- The one record held is the open exchange's: the member's position processes it. -/
theorem State.nextXch_of_record {h : Handoff} {r : SealRec} (hc : (s.xc k).current = some h) (hb : (s.xc k).buffer = [(h.step, r)])
    {t : State} (ht : (s.setXc k { s.xc k with buffer := [] }).sealStep k r = t) (htb : (t.xc k).buffer = [])
    (htq : (t.xc k).queued = none) (n : Nat) : s.nextXch k (n + 1) = t := by
  have hdrain : s.drainSeals k 4 = t := by
    unfold State.drainSeals
    rw [hc]
    dsimp only
    rw [hb]
    simp only [List.findIdx?_cons, beq_self_eq_true, if_true, List.eraseIdx_cons_zero, List.getD_cons_zero]
    rw [ht, State.drainSeals_of_empty htb]
  unfold State.nextXch
  rw [hdrain]
  dsimp only
  rw [htq]
  cases (t.xc k).current <;> rfl

end

/-! ### EXCHANGE_TIMEOUT (R196) -/

theorem exec_exchangeTimeout (k : Fin 16) (s : State) : exec (.exchangeTimeout k) s = .next (s.xchTimeout k) := rfl

theorem exec_sealBarge (p : Fin 12) (s : State) : exec (.sealBarge p) s = .next (s.takeSeal p) := rfl

theorem State.xchTimeout_of_open {s : State} {k : Nat} {h : Handoff} (hc : (s.xc k).current = some h) (hq : (s.xc k).queued = none) :
    s.xchTimeout k = s.closeXch k 4 none := by
  have hxc := State.xc_closeXch hc 4 none
  have hclosed : ((s.closeXch k 4 none).xc k).current = none := by rw [hxc]; rfl
  have hqueue : ((s.closeXch k 4 none).xc k).queued = none := by rw [hxc]; exact hq
  rw [State.xchTimeout, hc]
  exact State.nextXch_of_ended hclosed hqueue 3

/-- R196: a timeout ends the open exchange. -/
theorem exchangeTimeout_answers (s : State) (k : Fin 16) {h : Handoff} (hc : (s.xc k).current = some h) (hq : (s.xc k).queued = none) :
    Answers (exec (.exchangeTimeout k) s) (fun t =>
      t.fld (R.rdxSXstat k) F.rdxSXstatState = 4 ∧ (t.xc k).current = none ∧ h.step ∈ (t.xc k).ended ∧
      (s.flag (R.rdxSXctl k) F.rdxSXctlPost = true → t.tok k (s.fld (R.rdxSXctl k) F.rdxSXctlToken) =
        min 65535 (s.tok k (s.fld (R.rdxSXctl k) F.rdxSXctlToken) + 1)) ∧
      (s.pst k ≠ 4 → SameMemory s t) ∧ Apart s t) := by
  refine ⟨_, exec_exchangeTimeout k s, ?_, ?_, ?_, ?_, ?_, State.xchTimeout_apart k.val (.refl s)⟩
  all_goals rw [State.xchTimeout_of_open hc hq]
  · rw [State.stat_closeXch hc _ _ (by decide) k.isLt, State.state_rule k.isLt (by decide)]
  · rw [State.xc_closeXch hc]
    rfl
  · rw [State.xc_closeXch hc]
    exact mem_insertNat _ _
  · exact State.tok_closeXch hc 4 none k.isLt
  · exact State.closeXch_sameMemory hc 4 none k.isLt

/-! ### SEAL_BARGE (R195, R196) -/

theorem State.ringStake_lt {s : State} {r k : Nat} (h : s.ringStake r = some k) : k < 16 := by
  unfold State.ringStake firstOf at h
  exact List.mem_range.mp (List.mem_of_find?_eq_some h)

/-- The seal barge at place `i` of a port's received flits is consumed. -/
def State.sealTaken (s : State) (p i : Nat) : State :=
  (s.setPt p { s.pt p with rx := (s.pt p).rx.eraseIdx i }).freeFlit p 4

theorem State.rx_sealTaken (s : State) (p i : Nat) : ((s.sealTaken p i).pt p).rx = (s.pt p).rx.eraseIdx i := by
  rw [State.sealTaken, State.freeFlit, if_neg (by decide), State.pt_setPt, if_pos rfl, State.pt_setPt, if_pos rfl]

theorem State.sealTaken_dry (s : State) (p i : Nat) : Dry s (s.sealTaken p i) := State.freeFlit_dry p 4 (State.setPt_dry p _ (.refl s))

theorem State.xc_sealTaken (s : State) (p i k : Nat) : (s.sealTaken p i).xc k = s.xc k := rfl

theorem State.pt_setXc (s : State) (k p : Nat) (c : Xch) : (s.setXc k c).pt p = s.pt p := rfl

section
variable {s : State} {p : Fin 12} {i rd k : Nat} (hi : (s.pt p).rx.findIdx? (fun e => isSealFlit (e.1 % 8) e.2) = some i)
  (hrd : s.arrival p 0 = some rd) (hk : s.ringStake (rd / 2) = some k)
include hi hrd hk

theorem State.takeSeal_eq : s.takeSeal p =
    let f := ((s.pt p).rx.getD i (0, [])).2
    if (s.xc k).ended.contains (numAt f 12 4) then s.sealTaken p i
    else ((s.sealTaken p i).setXc k { s.xc k with
      buffer := (s.xc k).buffer ++ [(numAt f 12 4, parseSeal (slice f 16 64))] }).nextXch k 3 := by
  have hk' : (s.sealTaken p i).ringStake (rd / 2) = some k := hk
  rw [State.takeSeal, hi, hrd]
  dsimp only
  rw [← State.sealTaken, hk']
  dsimp only
  rw [State.xc_sealTaken]

/-- R196: a record of a STEP whose hand-off has ended is discarded. -/
theorem sealBarge_of_ended (hend : numAt ((s.pt p).rx.getD i (0, [])).2 12 4 ∈ (s.xc k).ended) :
    Answers (exec (.sealBarge p) s) (fun t =>
      (t.pt p).rx = (s.pt p).rx.eraseIdx i ∧ t.xch = s.xch ∧ t.regs = s.regs ∧ SameMemory s t ∧ Apart s t) := by
  have htake : s.takeSeal p = s.sealTaken p i := (State.takeSeal_eq hi hrd hk).trans (if_pos (List.contains_iff_mem.mpr hend))
  refine ⟨_, exec_sealBarge p s, ?_, ?_, ?_, ?_, State.takeSeal_apart p.val (.refl s)⟩
  all_goals rw [htake]
  · exact s.rx_sealTaken _ i
  · rfl
  · rfl
  · exact (s.sealTaken_dry _ i).same

/-- R195: a record that precedes its hand-off is held. -/
theorem sealBarge_of_early (hend : numAt ((s.pt p).rx.getD i (0, [])).2 12 4 ∉ (s.xc k).ended)
    (hc : (s.xc k).current = none) (hq : (s.xc k).queued = none) :
    Answers (exec (.sealBarge p) s) (fun t =>
      let f := ((s.pt p).rx.getD i (0, [])).2
      (t.pt p).rx = (s.pt p).rx.eraseIdx i ∧ (t.xc k).buffer = (s.xc k).buffer ++ [(numAt f 12 4, parseSeal (slice f 16 64))] ∧
      (t.xc k).current = none ∧ SameMemory s t ∧ Apart s t) := by
  have hheld : ∀ c : Xch, (((s.sealTaken p i).setXc k c).xc k) = c := fun c => by rw [State.xc_setXc, if_pos rfl]
  have htake := State.takeSeal_eq hi hrd hk
  dsimp only at htake
  rw [if_neg (by simpa using hend), State.nextXch_of_ended (by rw [hheld]; exact hc) (by rw [hheld]; exact hq)] at htake
  refine ⟨_, exec_sealBarge p s, ?_, ?_, ?_, ?_, State.takeSeal_apart p.val (.refl s)⟩
  all_goals rw [htake]
  · rw [State.pt_setXc, s.rx_sealTaken]
  · rw [hheld]
  · rw [hheld]
    exact hc
  · exact (State.setXc_dry _ _ (s.sealTaken_dry _ i)).same

/-- The state in which a record of the open exchange is processed. -/
theorem State.takeSeal_of_open {h : Handoff} (hend : numAt ((s.pt p).rx.getD i (0, [])).2 12 4 ∉ (s.xc k).ended)
    (hc : (s.xc k).current = some h) (hstep : h.step = numAt ((s.pt p).rx.getD i (0, [])).2 12 4) (hb : (s.xc k).buffer = []) :
    ∃ v : State, v.xc k = s.xc k ∧ v.member k = s.member k ∧
      v.fld (R.rdxSXstat k) F.rdxSXstatState = s.fld (R.rdxSXstat k) F.rdxSXstatState ∧ SameMemory s v ∧
      ∀ t, v.sealStep k (parseSeal (slice ((s.pt p).rx.getD i (0, [])).2 16 64)) = t → (t.xc k).buffer = [] →
        (t.xc k).queued = none → s.takeSeal p = t := by
  generalize hf : ((s.pt p).rx.getD i (0, [])).2 = f at *
  generalize hu : (s.sealTaken p i).setXc k { s.xc k with buffer := [(h.step, parseSeal (slice f 16 64))] } = u
  have huxc : u.xc k = { s.xc k with buffer := [(h.step, parseSeal (slice f 16 64))] } := by rw [← hu, State.xc_setXc, if_pos rfl]
  have hclear : { u.xc k with buffer := [] } = s.xc k := by rw [huxc, ← hb]
  refine ⟨u.setXc k { u.xc k with buffer := [] }, ?_, ?_, ?_, ?_, fun t ht htb htq => ?_⟩
  · rw [State.xc_setXc, if_pos rfl, hclear]
  · subst hu
    rfl
  · rw [State.state_setXc, ← hu, State.state_setXc]
    rfl
  · exact (State.setXc_dry _ _ (hu ▸ State.setXc_dry _ _ (s.sealTaken_dry _ i))).same
  · have htake := State.takeSeal_eq hi hrd hk
    dsimp only at htake
    rw [hf, if_neg (by simpa using hend), hb, List.nil_append, ← hstep, hu] at htake
    rw [htake]
    exact State.nextXch_of_record (by rw [huxc]; exact hc) (by rw [huxc]) ht htb htq 2

end

theorem State.sendSeal_pumped (s : State) (ring pos : Nat) (a : SealRec) (step : Nat) : Pumped s (s.sendSeal ring pos a step) ∧
    Leaves (s.sendSeal ring pos a step) (2 * ring) 3 (bargeBytes 1 0 1 0 0 0 pos step a.bytes) := s.emit_pumped _ _ _

theorem Pumped.xc {s t : State} (h : Pumped s t) (k : Nat) : t.xc k = s.xc k := by rw [h.rest]; rfl

theorem Pumped.reg {s t : State} (h : Pumped s t) (a : Nat) : t.reg a = s.reg a := by rw [h.rest]; rfl

/-! ### a record at the last and at a middle position of the ring (R195) -/

section
variable {s : State} {k ring pos l : Nat} {h : Handoff} {own : SealRec} (hc : (s.xc k).current = some h) (hown : h.own = some own)
  (hm : s.member k = some (ring, pos, l)) (r : SealRec)
include hc hown hm

theorem State.sealStep_last (hpos : pos + 1 = l) : s.sealStep k r = (s.sendSeal ring pos (sealCombine r own) h.step).closeXch k
    (if (sealCombine r own).mismatch then 3 else 2) (some (sealCombine r own)) := by
  unfold State.sealStep
  rw [hc, hm]
  dsimp only
  rw [if_pos hpos, hown]
  rfl

theorem State.sealStep_middle (hlo : 0 < pos) (hhi : pos + 1 < l) (hfirst : (s.xc k).passed = false) :
    s.sealStep k r = (s.sendSeal ring pos (sealCombine r own) h.step).setXc k { s.xc k with passed := true } := by
  unfold State.sealStep
  rw [hc, hm]
  dsimp only
  rw [if_neg (by omega), if_neg (by rw [hfirst]; simp; omega), hown]
  rfl

/-- R195, R197: at the last position the exchange ends with the record combined with the own one. -/
theorem State.sealStep_ends (hk : k < 16) (hpos : pos + 1 = l) :
    let t := s.sealStep k r
    let a := sealCombine r own
    t.xc k = (s.xc k).close h.step (some a) ∧ t.fld (R.rdxSXstat k) F.rdxSXstatState = (if a.mismatch then 3 else 2) ∧
      t.fld (R.rdxSXnonfin k) F.rdxSXnonfinAgreed = a.nonfin % 2 ^ 32 ∧ t.reg (R.rdxSXnormsq k) = BitVec.ofNat 64 a.normsq ∧
      (a.mismatch = false → a.nonfin ≠ 0 → t.flag (R.rdxSXstat k) F.rdxSXstatSkip = true) ∧
      Leaves t (2 * ring) 3 (bargeBytes 1 0 1 0 0 0 pos h.step a.bytes) := by
  intro t a
  have ht : t = (s.sendSeal ring pos a h.step).closeXch k (if a.mismatch then 3 else 2) (some a) :=
    State.sealStep_last hc hown hm r hpos
  obtain ⟨hpump, hleaves⟩ := s.sendSeal_pumped ring pos a h.step
  generalize s.sendSeal ring pos a h.step = w at ht hpump hleaves
  have hwc : (w.xc k).current = some h := by rw [hpump.xc k, hc]
  have hreg : ∀ b, R.rdxSXctl k ≤ b → b < R.rdxSXctl 16 → b ≠ R.rdxSXstat k → t.reg b =
      (((w.setFld (R.rdxSXstat k) F.rdxSXstatState (if a.mismatch then 3 else 2)).setReg (R.rdxSCntSpill k) 0).agree k a).reg b :=
    fun b hlo hhi hne => by rw [ht, State.reg_closeXch_rdx hwc _ _ hk hlo hhi hne, State.reg_rule_event hk _ _ hlo]
  refine ⟨?_, ?_, ?_, ?_, fun hmis hnonfin => ?_, ?_⟩
  · rw [ht, State.xc_closeXch hwc, hpump.xc k]
  · rw [ht, State.stat_closeXch hwc _ _ (by decide) hk, State.state_rule hk (by split <;> decide)]
  · rw [State.fld, hreg _ (by unfold R.rdxSXctl R.rdxSXnonfin; omega) (by unfold R.rdxSXctl R.rdxSXnonfin; omega)
      (by unfold R.rdxSXstat R.rdxSXnonfin; omega)]
    exact State.nonfin_agree hk a
  · rw [hreg _ (by unfold R.rdxSXctl R.rdxSXnormsq; omega) (by unfold R.rdxSXctl R.rdxSXnormsq; omega)
      (by unfold R.rdxSXstat R.rdxSXnormsq; omega)]
    exact State.normsq_agree hk a
  · rw [ht, State.flag, State.stat_closeXch hwc _ _ (by decide) hk, State.fld,
      State.reg_rule_event hk _ _ (by unfold R.rdxSXctl R.rdxSXstat; omega)]
    exact State.skip_agree hk hnonfin hmis
  · rw [ht]
    exact State.leaves_closeXch hwc _ _ hleaves

/-- R195: in the first pass a middle position combines, sends on and waits for the agreed record. -/
theorem State.sealStep_forwards (hlo : 0 < pos) (hhi : pos + 1 < l) (hfirst : (s.xc k).passed = false) :
    let t := s.sealStep k r
    t.xc k = { s.xc k with passed := true } ∧ t.fld (R.rdxSXstat k) F.rdxSXstatState = s.fld (R.rdxSXstat k) F.rdxSXstatState ∧
      Leaves t (2 * ring) 3 (bargeBytes 1 0 1 0 0 0 pos h.step (sealCombine r own).bytes) ∧ SameMemory s t := by
  intro t
  have ht : t = (s.sendSeal ring pos (sealCombine r own) h.step).setXc k { s.xc k with passed := true } :=
    State.sealStep_middle hc hown hm r hlo hhi hfirst
  obtain ⟨hpump, hleaves⟩ := s.sendSeal_pumped ring pos (sealCombine r own) h.step
  rw [ht]
  refine ⟨?_, ?_, hleaves, (State.setXc_dry _ _ (State.sendSeal_dry _ _ _ _ (.refl s))).same⟩
  · rw [State.xc_setXc, if_pos rfl]
  · rw [State.state_setXc, State.fld, hpump.reg, State.fld]

end

end Sys2Proof.Machine

open Sys2Proof Sys2Proof.Machine in
/-- Settles O25: a record of the open exchange is the one record held, so the member's position processes it and the stake then waits;
what its end writes is read from the verdict (R197), which neither the post nor the barge sent touches. -/
theorem sealExchanges : Obligations.SealExchanges := by
  unfold Obligations.SealExchanges
  refine ⟨fun s p i rd k hi hrd hk => ?_, fun s k => ⟨fun hc => ?_, fun h hc hq => exchangeTimeout_answers s k hc hq⟩⟩
  · dsimp only
    have hk16 : k < 16 := State.ringStake_lt hk
    refine ⟨sealBarge_of_ended hi hrd hk, sealBarge_of_early hi hrd hk,
      fun h own ring pos l hend hc hstep hown hb hq hm => ?_⟩
    obtain ⟨v, hvxc, hvm, hvstate, hvmem, hv⟩ := State.takeSeal_of_open hi hrd hk hend hc hstep hb
    generalize parseSeal (slice ((s.pt p).rx.getD i (0, [])).2 16 64) = r at hv ⊢
    rw [← hstep]
    have hvc : (v.xc k).current = some h := hvxc ▸ hc
    have hvown : v.member k = some (ring, pos, l) := hvm.trans hm
    refine ⟨fun hpos => ?_, fun hlo hhi hfirst => ?_⟩
    · obtain ⟨hxc, hstate, hnonfin, hnorm, hskip, hleaves⟩ := State.sealStep_ends hvc hown hvown r hk16 hpos
      rw [hvxc] at hxc
      have htake := hv _ rfl (by rw [hxc, Xch.close, Xch.endStep, hb]; rfl) (by rw [hxc]; exact hq)
      refine ⟨_, exec_sealBarge p s, ?_⟩
      rw [htake]
      exact ⟨by rw [hxc]; rfl, by rw [hxc]; rfl, by rw [hxc]; exact mem_insertNat _ _, hstate, hnonfin, hnorm, hskip, hleaves,
        htake ▸ State.takeSeal_apart p.val (.refl s)⟩
    · obtain ⟨hxc, hstate, hleaves, hmem⟩ := State.sealStep_forwards hvc hown hvown r hlo hhi (hvxc ▸ hfirst)
      rw [hvxc] at hxc
      have htake := hv _ rfl (by rw [hxc]; exact hb) (by rw [hxc]; exact hq)
      refine ⟨_, exec_sealBarge p s, ?_⟩
      rw [htake]
      exact ⟨hstate.trans hvstate, by rw [hxc]; exact hc, by rw [hxc], hleaves, fun a => (hmem a).trans (hvmem a),
        htake ▸ State.takeSeal_apart p.val (.refl s)⟩
  · rw [exec_exchangeTimeout, State.xchTimeout, hc]
    rfl
end

section
/-! PROOFS. The end of a reduction job (R212, R214, R215): what freeing its ID, completing its RJOB and the faults reported after it keep,
and what they say to the stream of the RJOB. -/

namespace Sys2Proof.Machine

/-! ### what a fault leaves of jobs and barges (R141, R174) -/

/-- The bindings, the contexts of the ring directions and RDX_ERR stand, and no job is new. -/
structure NoNewJob (s t : State) : Prop where
  binds : t.binds = s.binds
  ring  : t.ring = s.ring
  err   : t.reg R.rdxErr = s.reg R.rdxErr
  jobs  : ∀ id, s.job id = none → t.job id = none

theorem NoNewJob.refl (s : State) : NoNewJob s s := ⟨rfl, rfl, rfl, fun _ h => h⟩

section
variable {z s : State} (h : NoNewJob z s)
include h

theorem NoNewJob.setReg {a : Nat} (ha : a ≠ R.rdxErr) (v : Word) : NoNewJob z (s.setReg a v) :=
  ⟨h.binds, h.ring, (s.reg_setReg_other _ _ v ha.symm).trans h.err, h.jobs⟩

/-- A register of a pass sequencer is not RDX_ERR. -/
theorem NoNewJob.setPsq {a : Nat} (ha : R.psqId 0 ≤ a) (v : Word) : NoNewJob z (s.setReg a v) :=
  h.setReg (by unfold R.psqId at ha; unfold R.rdxErr; omega) v

theorem NoNewJob.setQ (k : Nat) (c : Psq) : NoNewJob z (s.setQ k c) := ⟨h.binds, h.ring, h.err, h.jobs⟩

theorem NoNewJob.foldl {β : Type} {f : State → β → State} (l : List β) (hf : ∀ u, ∀ b ∈ l, NoNewJob z u → NoNewJob z (f u b)) :
    NoNewJob z (l.foldl f s) :=
  List.foldlRecOn l f (motive := NoNewJob z) h fun u hu b hb => hf u b hb hu

theorem NoNewJob.rollback (k : Nat) (gone : List Outst) (x : Nat) : NoNewJob z (s.rollback k gone x) := by
  have hahead := h.setPsq (a := R.psqAhead k x) (by unfold R.psqId R.psqAhead; omega)
  unfold State.rollback
  dsimp only
  split
  · exact h
  · split
    · exact hahead _
    · exact (((hahead _).setPsq (by unfold R.psqId R.psqIndex; omega) _).setPsq (by unfold R.psqId R.psqPc; omega) _).setQ _ _

theorem NoNewJob.giveTokens (k mask : Nat) : NoNewJob z (s.giveTokens k mask) :=
  h.foldl _ fun _ _ _ hu => hu.setPsq (by unfold R.psqId R.psqToken; omega) _

theorem NoNewJob.setOutst (k : Nat) (l : List Outst) : NoNewJob z (s.setOutst k l) :=
  (h.setQ k _).foldl _ fun _ _ _ hu => hu.setPsq (by unfold R.psqId R.psqInflight; omega) _

theorem NoNewJob.syncUnits (k : Nat) : NoNewJob z (s.syncUnits k) :=
  h.foldl _ fun u e _ hu => by
    have hmxe : NoNewJob z (u.syncMxe k e) := by
      have ha : R.mxeStatus e ≠ R.rdxErr := by unfold R.mxeStatus R.rdxErr; omega
      unfold State.syncMxe
      dsimp only
      split
      · exact hu
      · exact ((hu.setReg ha _).setReg ha _).setReg ha _
    unfold State.syncDvu
    dsimp only
    split
    · exact hmxe
    · exact hmxe.setReg (by unfold R.vecDvuStatus R.rdxErr; omega) _

/-- The job of a withdrawn RJOB is free. -/
theorem NoNewJob.erase (id : Nat) : NoNewJob z { s with jobs := KMap.erase s.jobs id } where
  binds := h.binds
  ring := h.ring
  err := h.err
  jobs := fun i hi => by
    rw [State.job, KMap.find_erase]
    split
    · rfl
    · exact h.jobs i hi

theorem NoNewJob.unwind (k : Nat) (o : Outst) : NoNewJob z (s.unwind k o) := by
  have hquay : ∀ {u : State} (l : KMap Quay), NoNewJob z u → NoNewJob z { u with quay := l } := fun _ hu =>
    ⟨hu.binds, hu.ring, hu.err, hu.jobs⟩
  unfold State.unwind
  refine hquay _ ?_
  dsimp only
  split
  · exact ⟨h.binds, h.ring, h.err, h.jobs⟩
  · split
    · split
      · exact (h.erase _).setReg (by unfold R.rdxJStatus R.rdxErr; omega) _
      · exact h
    · exact h

theorem NoNewJob.withdraw (k : Nat) : NoNewJob z (s.withdraw k) := by
  unfold State.withdraw State.withdrawSome
  exact (((NoNewJob.foldl (h.foldl _ fun _ x _ hu => hu.rollback k _ x) _ fun _ o _ hu =>
    (hu.giveTokens k o.waits).unwind k o).setOutst k _).syncUnits k).setQ k _

theorem NoNewJob.stakeEvent {k : Nat} (hk : k < 16) (f : Fld) : NoNewJob z (s.stakeEvent k f) where
  binds := (s.stakeEvent_binds k f).trans h.binds
  ring := (s.stakeEvent_ring k f).trans h.ring
  err := (s.reg_raiseEvent_other (by unfold R.rdxErr R.hifSEvt; omega) _ f).trans h.err
  jobs := fun id hid => (congrArg (KMap.find · id) (s.stakeEvent_jobs k f)).trans (h.jobs id hid)

theorem NoNewJob.beginStop (k : Nat) (cause : Fld) : NoNewJob z (s.beginStop k cause) := by
  have hst : R.psqId 0 ≤ R.psqStatus k := by unfold R.psqId R.psqStatus; omega
  unfold State.beginStop State.stopNow State.setPst
  split
  · exact (NoNewJob.withdraw (h.setPsq hst _) k).setPsq hst _
  · exact h.setPsq hst _

theorem NoNewJob.raiseFault {k : Nat} (hk : k < 16) (x index code unit : Nat) (after : Bool) :
    NoNewJob z (s.raiseFault k x index code unit after) := by
  have hnote : NoNewJob z (s.noteFrec k x index code unit after) := by
    unfold State.noteFrec
    split
    · exact h
    · exact (h.setPsq (by unfold R.psqId R.psqFrec0; omega) _).setPsq (by unfold R.psqId R.psqFrec1; omega) _
  rw [State.raiseFault_eq, State.faultStop]
  refine NoNewJob.beginStop ?_ k _
  split
  · exact hnote
  · exact hnote.stakeEvent hk _

end

end Sys2Proof.Machine
end

section
/-! PROOFS. The RJOB of a job that ends (R212, R214, R215): it completes, and the faults that the job's data brought are
reported after it. -/

namespace Sys2Proof.Machine

/-! ### what a stream sees -/

/-- What is outstanding in stake `k`, and every register of the pass sequencers, stand. -/
structure SameStream (k : Nat) (s t : State) : Prop where
  q    : t.q k = s.q k
  regs : ∀ a, PsqReg a → t.reg a = s.reg a

theorem GroupWork.sameStream {s t : State} (h : GroupWork s t) (k : Nat) : SameStream k s t :=
  ⟨h.q k, fun a ha => h.regs a ha.not_quayReg⟩

theorem State.tset_lt (s : State) (k v : Nat) : s.tset k v < 2 ^ 64 := by
  unfold State.tset
  split
  · decide
  · exact BitVec.isLt _

section
variable {s t : State} {k : Nat} (h : SameStream k s t) (hk : k < 16)
include h

theorem SameStream.trans {u : State} (h' : SameStream k t u) : SameStream k s u :=
  ⟨h'.q.trans h.q, fun a ha => (h'.regs a ha).trans (h.regs a ha)⟩

include hk

theorem SameStream.tok {c : Nat} (hc : c < 64) : t.tok k c = s.tok k c :=
  State.tok_congr (fun i hi => h.regs _ ⟨by unfold R.psqId R.psqToken; omega, by unfold R.psqToken R.quyId; omega⟩) hc

theorem SameStream.tset {v : Nat} (hv : v < 256) : t.tset k v = s.tset k v := by
  unfold State.tset
  rw [h.regs _ ⟨by unfold R.psqId R.psqTset; omega, by unfold R.psqTset R.quyId; omega⟩]

theorem SameStream.postsFit {w : Nat} (hp : PostsFit s k w) : PostsFit t k w := by
  intro c hc
  rw [h.tset hk (postOf_lt w)] at hc
  have hlt : c < 64 := by
    by_contra hge
    have hset := Nat.lt_of_lt_of_le (s.tset_lt k (postOf w)) (Nat.pow_le_pow_right (by decide) (Nat.le_of_not_lt hge))
    rw [Nat.testBit_lt_two_pow hset] at hc
    cases hc
  rw [h.tok hk hlt]
  exact hp c hc

theorem SameStream.completed {u : State} {o : Outst} (hc : Completed t u k o) : Completed s u k o := by
  obtain ⟨hout, hpost⟩ := hc
  refine ⟨by rw [hout, h.q], fun c hc => ?_⟩
  rw [hpost c hc, h.tok hk hc, h.tset hk (postOf_lt o.word)]

theorem SameStream.faulted {u : State} {x code index : Nat} (hx : x < 3) (hf : Faulted t u k x code index) : Faulted s u k x code index :=
  hf.of_frec0 (h.regs _ ⟨by unfold R.psqId R.psqFrec0; omega, by unfold R.psqFrec0 R.quyId; omega⟩)

end

/-! ### faults reported after completion (R215) -/

/-- A fault of a job's data, reported once its RJOB has completed. -/
def State.lateFault (s : State) (k id index code : Nat) : State :=
  (if code < 0x60 then s else s.rdxFault k code (some id)).raiseFault k 2 index code 0xFF true

/-- The job is free, and the bindings and the contexts of the ring directions stand. -/
structure JobEnded (id : Nat) (s t : State) : Prop where
  job   : t.job id = none
  binds : t.binds = s.binds
  ring  : t.ring = s.ring

theorem JobEnded.noNewJob {id : Nat} {s t u : State} (h : JobEnded id s t) (h' : NoNewJob t u) : JobEnded id s u :=
  ⟨h'.jobs id h.job, h'.binds.trans h.binds, h'.ring.trans h.ring⟩

section
variable {s u : State} {k : Nat} (hk : k < 16) (id index : Nat) {code : Nat}
include hk

theorem JobEnded.lateFault {i : Nat} (h : JobEnded i s u) : JobEnded i s (u.lateFault k id index code) := by
  have hnote : JobEnded i s (if code < 0x60 then u else u.rdxFault k code (some id)) := by
    split
    · exact h
    · exact ⟨h.job, h.binds, h.ring⟩
  exact hnote.noNewJob ((NoNewJob.refl _).raiseFault hk 2 index code 0xFF true)

theorem State.lateFault_faulted (hc : code < 256) : Faulted u (u.lateFault k id index code) k 2 code index := by
  refine (State.raiseFault_faulted _ hk (by decide) hc index 0xFF true).of_frec0 ?_
  split
  · rfl
  · have hne : R.psqFrec0 k 2 ≠ R.rdxErr := by unfold R.psqFrec0 R.rdxErr; omega
    simp only [State.rdxFault, State.reg_setFld_other _ hne]

/-- A stream's first fault stays the recorded one. -/
theorem Faulted.lateFault {i c : Nat} (h : Faulted s u k 2 c i) : Faulted s (u.lateFault k id index code) k 2 c i := by
  intro hfirst
  obtain ⟨hvalid, hcode, hindex, -⟩ := h hfirst
  have hnote : ∀ a, FaultReg a → (if code < 0x60 then u else u.rdxFault k code (some id)).reg a = u.reg a := fun a ha => by
    have hne : a ≠ R.rdxErr := by
      obtain ⟨j, x, y, hx, hy, rfl⟩ := ha
      unfold R.psqFrec0 R.rdxErr
      omega
    split
    · rfl
    · simp only [State.rdxFault, State.reg_setFld_other _ hne]
  have hlate : ∀ a, FaultReg a → (u.lateFault k id index code).reg a = u.reg a := fun a ha => by
    have hvalid' := (State.flag_congr (hnote _ (.frec0 k (by decide))) _).trans hvalid
    rw [State.lateFault, State.raiseFault_eq, ha.reg_faultStop _ hk, State.noteFrec, if_pos hvalid', hnote a ha]
  have h0 := hlate _ (.frec0 k (show 2 < 3 by decide))
  exact ⟨(State.flag_congr h0 _).trans hvalid, by rwa [State.fld, h0], (hlate _ (.frec1 k (by decide))).trans hindex,
    State.flag_raiseFault_stopFault ..⟩

/-- R215: RDX_ERR holds the last code of the reduction engine's. -/
theorem State.rdxErr_lateFault (hlo : 0x60 ≤ code) (hhi : code < 256) : (u.lateFault k id index code).fld R.rdxErr F.rdxErrCode = code := by
  rw [State.lateFault, if_neg (by omega), State.fld, ((NoNewJob.refl _).raiseFault hk 2 index code 0xFF true).err, ← State.fld]
  simp only [State.rdxFault]
  rw [State.fld_setFld_fld _ _ _ _ _ (by decide), State.fld_setFld_fld _ _ _ _ _ (by decide), State.fld_setFld_fld _ _ _ _ _ (by decide),
    State.fld_setFld_same _ _ _ _ (by decide)]
  exact Nat.mod_eq_of_lt hhi

end

/-! ### the RJOB completes -/

section
variable {s : State} {id : Nat} {j : Job} {o : Outst} (hfind : (s.q j.stake).outst.find? (fun o => o.seq == j.seq) = some o)
  (hfit : PostsFit s j.stake o.word) (hk : j.stake < 16) {code : Nat} {codes : List Nat}
include hfind

theorem State.endRjob_eq (codes : List Nat) : s.endRjob id j codes =
    codes.foldl (fun u c => u.lateFault j.stake id o.index c) (s.complete j.stake o) := by
  unfold State.endRjob
  rw [hfind]
  rfl

include hk in
/-- The last code is the one that RDX_ERR holds. -/
theorem State.endRjob_rdxErr (hlo : 0x60 ≤ code) (hhi : code < 256) :
    (s.endRjob id j (codes ++ [code])).fld R.rdxErr F.rdxErrCode = code := by
  rw [State.endRjob_eq hfind, List.foldl_append, List.foldl_cons, List.foldl_nil]
  exact State.rdxErr_lateFault hk id o.index hlo hhi

include hfit

theorem State.endRjob_completed : Completed s (s.endRjob id j []) j.stake o := by
  rw [State.endRjob_eq hfind]
  exact State.complete_completed hfit

include hk

theorem State.endRjob_jobEnded {i : Nat} (hjob : s.job i = none) (codes : List Nat) : JobEnded i s (s.endRjob id j codes) := by
  have hdone : JobEnded i s (s.complete j.stake o) := by
    rw [State.complete_of_postsFit hfit]
    exact JobEnded.noNewJob ⟨hjob, rfl, rfl⟩ (((NoNewJob.refl s).setOutst _ _).giveTokens _ _)
  rw [State.endRjob_eq hfind]
  exact List.foldlRecOn codes _ (motive := JobEnded i s) hdone fun u hu _ _ => hu.lateFault hk id o.index

/-- The first code is the one that the stream records. -/
theorem State.endRjob_faulted (hc : code < 256) : Faulted s (s.endRjob id j (code :: codes)) j.stake 2 code o.index := by
  have hframe : FaultReg (R.psqFrec0 j.stake 2) := .frec0 _ (by decide)
  have hfirst : Faulted s ((s.complete j.stake o).lateFault j.stake id o.index code) j.stake 2 code o.index := by
    refine (State.lateFault_faulted hk id o.index hc).of_frec0 ?_
    rw [State.complete_of_postsFit hfit, hframe.reg_giveTokens, hframe.reg_setOutst]
  rw [State.endRjob_eq hfind, List.foldl_cons]
  exact List.foldlRecOn codes _ (motive := fun u => Faulted s u j.stake 2 code o.index) hfirst fun u hu _ _ => hu.lateFault hk id o.index

end

/-! ### the ID becomes free (R212) -/

/-- Only registers follow the open jobs and what the quay units hold. -/
theorem State.syncJobs_rest (s : State) : s.syncJobs = { s with regs := s.syncJobs.regs } := by
  have hquay : ∀ (u : State) q, u.syncQuay q = { u with regs := (u.syncQuay q).regs } := fun _ _ => rfl
  unfold State.syncJobs State.forAll
  refine List.foldlRecOn _ _ (motive := fun u : State => u = { s with regs := u.regs }) rfl fun u hu q _ => ?_
  rw [hquay, hu]

theorem State.reg_syncJobs_other (s : State) {a : Nat} (hopen : a ≠ R.rdxJobsOpen) (hquay : ∀ u, a ≠ R.quyStatus u) :
    s.syncJobs.reg a = s.reg a := by
  unfold State.syncJobs
  dsimp only
  rw [State.reg_forAll _ fun u q _ => u.reg_syncQuay_other hquay]
  exact State.reg_setReg_other _ _ _ _ hopen

/-- The state in which a job and its work at the quay units are gone. -/
def State.dropJob (s : State) (id : Nat) : State :=
  { s with
    jobs := KMap.erase s.jobs id
    binds := s.binds.filter (fun b => b.job != id)
    quay := s.quay.map (fun (p : Nat × Quay) => (p.1, p.2.dropJob id)) }

theorem State.freeJob_eq (s : State) (id : Nat) : s.freeJob id = ((s.dropJob id).setReg (R.rdxJStatus id) 0).syncJobs := rfl

theorem State.job_freeJob (s : State) (id : Nat) : (s.freeJob id).job id = none := by
  rw [State.freeJob_eq, State.syncJobs_rest]
  exact (KMap.find_erase s.jobs id id).trans (if_pos rfl)

theorem State.binds_freeJob (s : State) (id : Nat) : (s.freeJob id).binds = s.binds.filter (fun b => b.job != id) := by
  rw [State.freeJob_eq, State.syncJobs_rest]
  rfl

theorem State.ring_freeJob (s : State) (id : Nat) : (s.freeJob id).ring = s.ring := by
  rw [State.freeJob_eq, State.syncJobs_rest]
  rfl

theorem State.freeJob_sameStream (s : State) (id k : Nat) (hid : id < 64) : SameStream k s (s.freeJob id) where
  q := by
    have hpsq : (s.freeJob id).psq = s.psq := by rw [State.freeJob_eq, State.syncJobs_rest]; rfl
    rw [State.q, hpsq, State.q]
  regs := fun a ha => by
    obtain ⟨hlo, hhi⟩ := ha
    unfold R.psqId at hlo
    unfold R.quyId at hhi
    rw [State.freeJob_eq, State.reg_syncJobs_other _ (by unfold R.rdxJobsOpen; omega) fun q => by unfold R.quyStatus; omega]
    exact State.reg_setReg_other _ _ _ _ (by unfold R.rdxJStatus; omega)

end Sys2Proof.Machine
end

section
/-! PROOFS. GATHER_SEND, JOB_CLOSE and JOB_TIMEOUT (R211, R212, R214). -/

namespace Sys2Proof.Machine

theorem exec_gatherSend (k : Fin 16) (s : State) : exec (.gatherSend k) s = .next (s.gatherSend k) := rfl

theorem exec_jobClose (id : Fin 64) (s : State) : exec (.jobClose id) s = .next (s.jobClose id) := rfl

theorem exec_jobTimeout (id : Fin 64) (s : State) : exec (.jobTimeout id) s = .next (s.jobTimeout id) := rfl

/-! ### the accumulators of a job's groups (R212) -/

/-- The accumulators of every group of a job are cleared. -/
def State.clearJob (s : State) (j : Job) : State := (s.groupsOf j).foldl (fun u a => u.clearGroup j.stake a) s

/-- The accumulators of a group of the job, by its first byte. -/
def State.accOf (s : State) (j : Job) (a : Nat) : Nat := a + accOff (s.stake j.stake).master12

section
variable (s : State) (j : Job)

theorem State.clearJob_groupWork : GroupWork s (s.clearJob j) := (GroupWork.refl s).foldl _ fun _ a _ hu => hu.clearGroup j.stake a

theorem State.clearJob_memoryBut : MemoryBut ((s.groupsOf j).map (fun a => (s.accOf j a, 256))) s (s.clearJob j) := by
  have hstep := List.foldlRecOn (s.groupsOf j) (fun u a => u.clearGroup j.stake a)
    (motive := fun u => GroupWork s u ∧ MemoryBut ((s.groupsOf j).map (fun a => (s.accOf j a, 256))) s u) ⟨.refl s, fun _ _ => rfl⟩
    fun u ⟨hu, hbut⟩ a ha => by
      have hclear := u.clearGroup_memoryBut j.stake a
      rw [hu.stake] at hclear
      exact ⟨hu.clearGroup _ _, hbut.trans (hclear.mono fun r hr => List.mem_map.mpr ⟨a, ha, (List.mem_singleton.mp hr).symm⟩)⟩
  exact hstep.2

theorem State.clearJob_zeros {a : Nat} (ha : a ∈ s.groupsOf j) (hl : Lands s (s.accOf j a) 256) :
    (s.clearJob j).fp64s (s.accOf j a) = List.replicate 64 0 := by
  refine State.fp64s_of_zeros fun y hlo hhi => ?_
  refine foldl_item (P := GroupWork s) (Q := fun u => u.byte y = 0) ha (fun u b _ hu => hu.clearGroup _ b) (fun u hu => ?_)
    (fun u b _ _ hy => State.byte_wr_zeros hy) (.refl s)
  have hl := hu.lands hl
  rw [State.accOf, ← hu.stake] at hl hlo hhi
  exact State.byte_wr_zeros_within hl hlo hhi

end

/-! ### JOB_CLOSE (R212) -/

/-- The faults that a job reports after its completion (R215). -/
def Job.codes (j : Job) : List Nat := (if j.badUpd then [0x57] else []) ++ (if j.badCopy then [0x68] else [])

/-- Every group of the job is updated or written and sent, every barge has left and every credit is back. -/
def State.canClose (s : State) (id : Nat) (j : Job) (ring pos l : Nat) : Prop :=
  j.begun = true ∧ j.toSend = [] ∧
    (∀ i, i < (s.groupsOf j).length → if chunkOwner l (s.groupsOf j).length i = pos then i ∈ j.updated else i ∈ j.written) ∧
    (∀ e ∈ (s.rg (2 * ring)).txq, e.1 = 3 → isSealFlit e.1 e.2 = false → flitJob e.2 ≠ id) ∧ KMap.get (s.rg (2 * ring)).jobs 0 id = 0

theorem State.closeJob_eq (s : State) (id : Nat) (j : Job) (codes : List Nat) :
    s.closeJob id j codes = ((s.clearJob j).freeJob id).endRjob id j codes := rfl

section
variable {s : State} {id : Nat} {j : Job} {ring pos l : Nat} (hjob : s.job id = some j) (hm : s.member j.stake = some (ring, pos, l))
include hjob hm

theorem State.jobClose_of_canClose (h : s.canClose id j ring pos l) : s.jobClose id = s.closeJob id j j.codes := by
  obtain ⟨hbegun, hsend, hgroups, hgone, hcredit⟩ := h
  unfold State.jobClose
  rw [hjob]
  dsimp only
  rw [hm]
  dsimp only
  refine if_pos ?_
  simp only [hbegun, hsend, hcredit, List.isEmpty_nil, Bool.and_eq_true, Bool.not_eq_true', List.any_eq_false, List.all_eq_true,
    decide_true, and_true, true_and]
  refine ⟨fun i hi => ?_, fun e he hmine => ?_⟩
  · have := hgroups i (List.mem_range.mp hi)
    split <;> simp_all
  · simp only [beq_iff_eq] at hmine
    obtain ⟨⟨h3, hseal⟩, hid⟩ := hmine
    exact hgone e he h3 hseal hid

theorem State.jobClose_of_not (h : ¬ s.canClose id j ring pos l) : s.jobClose id = s := by
  unfold State.jobClose
  rw [hjob]
  dsimp only
  rw [hm]
  dsimp only
  refine if_neg fun hready => h ?_
  simp only [Bool.and_eq_true, Bool.not_eq_true', List.any_eq_false, List.all_eq_true, decide_eq_true_eq] at hready
  obtain ⟨⟨⟨⟨hbegun, hsend⟩, hgroups⟩, hgone⟩, hcredit⟩ := hready
  refine ⟨hbegun, List.isEmpty_iff.mp hsend, fun i hi => ?_, fun e he h3 hseal hid => hgone e he
    ⟨⟨beq_iff_eq.mpr h3, hseal⟩, beq_iff_eq.mpr hid⟩, hcredit⟩
  have := hgroups i (List.mem_range.mpr hi)
  split at this <;> simp_all

end

section
variable {s : State} {id : Nat} {j : Job} {o : Outst} (hid : id < 64) (hk : j.stake < 16)
  (hfind : (s.q j.stake).outst.find? (fun o => o.seq == j.seq) = some o) (hfit : PostsFit s j.stake o.word)
include hid hk hfind hfit

/-- What a job that closes brings about. -/
theorem closeJob_effects :
    let t := s.closeJob id j j.codes
    JobClosed s t id j ∧ MemoryBut ((s.groupsOf j).map (fun a => (a + accOff (s.stake j.stake).master12, 256))) s t ∧
      (j.badUpd = false → j.badCopy = false → Completed s t j.stake o) ∧ (j.badUpd = true → Faulted s t j.stake 2 0x57 o.index) ∧
      (j.badUpd = false → j.badCopy = true → Faulted s t j.stake 2 0x68 o.index) ∧
      (j.badCopy = true → t.fld R.rdxErr F.rdxErrCode = 0x68) := by
  intro t
  generalize hu : (s.clearJob j).freeJob id = u
  have hstream : SameStream j.stake s u := hu ▸ ((s.clearJob_groupWork j).sameStream _).trans ((s.clearJob j).freeJob_sameStream id _ hid)
  have ht : t = u.endRjob id j j.codes := hu ▸ s.closeJob_eq id j j.codes
  have hmem : SameMemory (s.clearJob j) t := (State.endRjob_dry _ _ _ (State.freeJob_dry _ (.refl _))).same
  have hufind : (u.q j.stake).outst.find? (fun o => o.seq == j.seq) = some o := by rw [hstream.q, hfind]
  have hufit := hstream.postsFit hk hfit
  have hended : JobEnded id u t := ht ▸ State.endRjob_jobEnded hufind hufit hk (hu ▸ State.job_freeJob _ id) _
  refine ⟨⟨hended.job, fun b hb hbid => ?_, fun hl a ha => ?_⟩, (s.clearJob_memoryBut j).trans (hmem.but _), ?_, ?_, ?_, ?_⟩
  · rw [hended.binds, ← hu, State.binds_freeJob] at hb
    simpa [hbid] using (List.mem_filter.mp hb).2
  · rw [State.fp64s_congr fun y _ _ => hmem y]
    exact s.clearJob_zeros j ha (hl a ha)
  all_goals rw [ht, Job.codes]
  · intro hupd hcopy
    rw [hupd, hcopy]
    exact hstream.completed hk (State.endRjob_completed hufind hufit)
  · intro hupd
    rw [hupd]
    exact hstream.faulted hk (by decide) (State.endRjob_faulted hufind hufit hk (by decide))
  · intro hupd hcopy
    rw [hupd, hcopy]
    exact hstream.faulted hk (by decide) (State.endRjob_faulted hufind hufit hk (by decide))
  · intro hcopy
    rw [hcopy]
    exact State.endRjob_rdxErr hufind hk (by decide) (by decide)

/-! ### JOB_TIMEOUT (R214) -/

/-- The barges of a job that wait in a ring direction. -/
def ofJob (id : Nat) (e : Nat × List Byte) : Bool := e.1 == 3 && !(isSealFlit e.1 e.2) && flitJob e.2 == id

/-- What a job still had to send is dropped. -/
def State.dropBarges (s : State) (id : Nat) : State :=
  s.ringDirs.foldl (fun u rd => u.setRg rd { u.rg rd with txq := (u.rg rd).txq.filter (fun e => !(ofJob id e)) }) s

omit hid hk hfind hfit in
theorem State.jobTimeout_eq (hjob : s.job id = some j) (hissued : j.issued = true) :
    s.jobTimeout id = ((s.dropBarges id).freeJob id).endRjob id j [0x67] := by
  unfold State.jobTimeout
  rw [hjob]
  exact if_neg (by simp [hissued])

end

/-- Only the contexts of the ring directions change. -/
theorem State.dropBarges_rest (s : State) (id : Nat) : s.dropBarges id = { s with ring := (s.dropBarges id).ring } := by
  unfold State.dropBarges
  exact List.foldlRecOn _ _ (motive := fun u : State => u = { s with ring := u.ring }) rfl fun u hu rd _ => by
    rw [hu]
    rfl

theorem State.dropBarges_sameStream (s : State) (id k : Nat) : SameStream k s (s.dropBarges id) := by
  rw [State.dropBarges_rest]
  exact ⟨rfl, fun _ _ => rfl⟩

/-- No barge of the job waits in a ring direction. -/
theorem State.txq_dropBarges (s : State) (id : Nat) {rd : Nat} (hrd : rd ∈ s.ringDirs) :
    ∀ e ∈ ((s.dropBarges id).rg rd).txq, ofJob id e = false := by
  unfold State.dropBarges
  refine foldl_item (P := fun _ => True) (Q := fun u : State => ∀ e ∈ (u.rg rd).txq, ofJob id e = false) hrd (fun _ _ _ _ => trivial)
    (fun u _ e he => ?_) (fun u x _ _ hu e he => ?_) trivial
  · rw [State.rg_setRg, if_pos rfl] at he
    simpa using (List.mem_filter.mp he).2
  · rw [State.rg_setRg] at he
    split at he
    next heq => exact hu e (heq ▸ (List.mem_filter.mp he).1)
    · exact hu e he

end Sys2Proof.Machine
end

section
/-! PROOFS. GATHER_SEND of one group (R211), and the obligation on the end of jobs. -/

namespace Sys2Proof.Machine

/-- Of consecutive numbers only the first is in a list of one. -/
theorem takeWhile_single {n first : Nat} {p : Nat → Bool} (hn : 0 < n) (hfirst : p first = true) (hnext : p (first + 1) = false) :
    ((List.range n).map (fun u => first + u)).takeWhile p = [first] := by
  obtain ⟨m, rfl⟩ := Nat.exists_eq_succ_of_ne_zero hn.ne'
  rw [List.range_succ_eq_map, List.map_cons, Nat.add_zero, List.takeWhile_cons_of_pos hfirst]
  cases m with
  | zero => rfl
  | succ m =>
    rw [List.range_succ_eq_map]
    simp [hnext]

/-- The unit of a GATHER barge that a working copy gives: its bytes and scale bytes, and whether they cannot be read. -/
def State.copyUnit (s : State) (k a : Nat) (d : QuayD) : List Byte × Bool :=
  let c := d.copyAt (s.gsize k) a
  (s.bytes c.1 (8 * d.wwidth) ++ (if d.wscm == 2 then s.bytes c.2 2 else []),
    s.unreadable c.1 (8 * d.wwidth) || (d.wscm == 2 && s.unreadable c.2 2))

section
variable {s : State} {k id : Nat} {j : Job} {ring pos l first : Nat}
  (hfind : s.jobs.find? (fun p => p.2.stake == k && p.2.issued && !p.2.toSend.isEmpty) = some (id, j))
  (hm : s.member k = some (ring, pos, l)) (hsend : j.toSend = [first])
include hfind hm

theorem State.gatherSend_alone (hl : l = 1) : s.gatherSend k = s.setJob id { j with toSend := [] } := by
  unfold State.gatherSend
  rw [hfind, hm]
  exact if_pos hl

include hsend

/-- R211: one group to send leaves in a barge of its own. -/
theorem State.gatherSend_one (hl : l ≠ 1) {b : Bind} (hb : s.bindOf id ((s.groupsOf j).getD first 0) = some b)
    (hpos : 0 < (parseQuay b.desc).gatherLen) (hfits : (parseQuay b.desc).gatherLen ≤ 240) :
    let u := s.copyUnit k ((s.groupsOf j).getD first 0) (parseQuay b.desc)
    s.gatherSend k = (s.setJob id { j with toSend := [] }).emit (2 * ring) 3
      (bargeBytes 7 id 1 first 0 (unitMask [u.2]) pos j.step u.1) := by
  intro u
  have hrun : ∀ p : Nat → Bool, p first = true → p (first + 1) = false →
      ((List.range (240 / (parseQuay b.desc).gatherLen)).map (fun u => first + u)).takeWhile p = [first] := fun p =>
    takeWhile_single (Nat.div_pos hfits hpos)
  unfold State.gatherSend
  rw [hfind, hm]
  dsimp only
  rw [if_neg hl, hsend, List.headD_cons, hb]
  dsimp only
  rw [hrun _ (by rw [hb]; simp) (by simp)]
  simp only [List.map_cons, List.map_nil, hb, List.length_cons, List.length_nil, List.flatMap_cons, List.flatMap_nil, List.append_nil]
  have hnone : [first].filter (fun i => !([first].contains i)) = [] := by simp
  rw [hnone]
  rfl

end

theorem Pumped.job {s t : State} (h : Pumped s t) (id : Nat) : t.job id = s.job id := by rw [h.rest]; rfl

end Sys2Proof.Machine

open Sys2Proof Sys2Proof.Machine in
/-- Settles O28: a job that closes clears its groups, its ID becomes free and its RJOB completes, and only then are its faults raised;
a fault withdraws jobs and opens none, and leaves RDX_ERR, the bindings and the ring directions. -/
theorem jobsEnd : Obligations.JobsEnd := by
  unfold Obligations.JobsEnd
  refine ⟨fun s k id j ring pos l first hfind hm hsend => ⟨fun hl => ?_, fun b hl hb => ?_⟩,
    fun s id j o hjob hfind hfit hk => ⟨fun ring pos l hm => ⟨fun hready => ?_, fun hnot => ?_⟩, fun hissued => ?_, fun hwaits => ?_⟩⟩
  · refine ⟨_, exec_gatherSend k s, ?_, ?_, ?_, (State.gatherSend_dry k.val (.refl s)).same, State.gatherSend_apart k.val (.refl s)⟩
    all_goals rw [State.gatherSend_alone hfind hm hl]
    · rw [State.job_setJob, if_pos rfl]
      rfl
    · rfl
    · rfl
  · dsimp only
    intro hpos hfits
    refine ⟨_, exec_gatherSend k s, ?_, (State.gatherSend_dry k.val (.refl s)).same, State.gatherSend_apart k.val (.refl s), ?_⟩
    all_goals
      rw [State.gatherSend_one hfind hm hsend hl hb hpos hfits]
      obtain ⟨hpump, hleaves⟩ := (s.setJob id { j with toSend := [] }).emit_pumped (2 * ring) 3 (bargeBytes 7 id 1 first 0
        (unitMask [(s.copyUnit k ((s.groupsOf j).getD first 0) (parseQuay b.desc)).2]) pos j.step
        (s.copyUnit k ((s.groupsOf j).getD first 0) (parseQuay b.desc)).1)
    · rw [hpump.job, State.job_setJob, if_pos rfl]
      rfl
    · exact hleaves
  · obtain ⟨hclosed, hmem, hdone, h57, h68, herr⟩ := closeJob_effects id.isLt hk hfind hfit
    have hclose := State.jobClose_of_canClose hjob hm hready
    rw [← hclose] at hclosed hmem hdone h57 h68 herr
    exact ⟨_, exec_jobClose id s, hclosed, hmem, hdone, h57, h68, herr, State.jobClose_apart id.val (.refl s)⟩
  · rw [exec_jobClose, State.jobClose_of_not hjob hm hnot]
  · generalize hu : (s.dropBarges id).freeJob id = u
    have hstream : SameStream j.stake s u :=
      hu ▸ (s.dropBarges_sameStream id _).trans ((s.dropBarges id).freeJob_sameStream id _ id.isLt)
    have hufind : (u.q j.stake).outst.find? (fun o => o.seq == j.seq) = some o := by rw [hstream.q, hfind]
    have hufit := hstream.postsFit hk hfit
    have hended : JobEnded id u (u.endRjob id j [0x67]) := State.endRjob_jobEnded hufind hufit hk (hu ▸ State.job_freeJob _ id) _
    refine ⟨_, exec_jobTimeout id s, ?_, ?_, ?_, (State.jobTimeout_dry id.val (.refl s)).same, State.jobTimeout_apart id.val (.refl s)⟩
    all_goals rw [State.jobTimeout_eq hjob hissued, hu]
    · exact hended.job
    · exact hstream.faulted hk (by decide) (State.endRjob_faulted hufind hufit hk (by decide))
    · intro rd hrd e he h3 hseal hid
      have hring : (u.endRjob id j [0x67]).rg rd = (s.dropBarges id).rg rd := by
        rw [State.rg, hended.ring, ← hu, State.ring_freeJob, State.rg]
      have hmine : ofJob id e = true := by
        rw [ofJob, hseal, hid]
        simp [h3]
      exact Bool.false_ne_true ((s.txq_dropBarges id hrd e (hring ▸ he)).symm.trans hmine)
  · rw [exec_jobTimeout, State.jobTimeout, hjob]
    exact congrArg _ (if_pos (by simp [hwaits]))
end

section
/-! PROOFS. Reads by a quay unit that find corrected errors only (R82, R190, R263): they are counted, and nothing else changes. -/

namespace Sys2Proof.Machine

/-- The registers in which reads by quay units record what they meet. -/
def ReadReg (a : Nat) : Prop := a ∈ errorRegs ∨ ∃ q, a = R.quyEcc q ∨ a = R.quyPoisonAddr q

theorem ReadReg.quayReg {a : Nat} (h : ReadReg a) : QuayReg a := by
  rcases h with h | ⟨q, rfl | rfl⟩
  · exact .inr h
  · exact .inl (by unfold R.quyId R.quyEcc; omega)
  · exact .inl (by unfold R.quyId R.quyPoisonAddr; omega)

theorem not_readReg_ptbCtl : ¬ ReadReg R.ptbCtl := by
  rintro (h | ⟨q, h | h⟩)
  · rcases errorRegs_cases h with h | ⟨i, hi, h | h⟩ | ⟨e, he, h⟩
    · unfold R.ptbCtl R.cxtErr at h; omega
    · unfold R.ptbCtl R.memEcc at h; omega
    · unfold R.ptbCtl R.memErrAddr at h; omega
    · unfold R.ptbCtl R.mxeEcc at h; omega
  · unfold R.ptbCtl R.quyEcc at h; omega
  · unfold R.ptbCtl R.quyPoisonAddr at h; omega

/-- The states differ in the registers that record what reads meet, and nowhere else. -/
structure Counted (s t : State) : Prop where
  rest : t = { s with regs := t.regs }
  regs : ∀ a, ¬ ReadReg a → t.reg a = s.reg a

theorem Counted.refl (s : State) : Counted s s := ⟨rfl, fun _ _ => rfl⟩

theorem Counted.symm {s t : State} (h : Counted s t) : Counted t s where
  rest := by rw [h.rest]
  regs := fun a ha => (h.regs a ha).symm

section
variable {z s : State} (h : Counted z s)
include h

theorem Counted.setReg {a : Nat} (ha : ReadReg a) (v : Word) : Counted z (s.setReg a v) where
  rest := by
    rw [h.rest]
    rfl
  regs := fun b hb => (s.reg_setReg_other a b v fun e => hb (e ▸ ha)).trans (h.regs b hb)

theorem Counted.addSat {a : Nat} (ha : ReadReg a) (f : Fld) (n : Nat) : Counted z (s.addSat a f n) := h.setReg ha _

theorem Counted.foldl {β : Type} {f : State → β → State} (l : List β) (hf : ∀ u, ∀ b ∈ l, Counted z u → Counted z (f u b)) :
    Counted z (l.foldl f s) :=
  List.foldlRecOn l f (motive := Counted z) h fun u hu b hb => hf u b hb hu

theorem Counted.noteCxl (a n : Nat) (read : Bool) : Counted z (s.noteCxl a n read) := by
  have hcxt : ReadReg R.cxtErr := .inl cxtErr_mem_errorRegs
  unfold State.noteCxl
  split_ifs
  · exact h
  · exact h.addSat hcxt _ _
  · exact h.addSat hcxt _ _
  · exact h.addSat hcxt _ _
  · exact h

theorem Counted.spadEcc {a ecc : Nat} (ha : isSpadStride a = true) (hecc : ecc < 2) : Counted z (s.spadEcc a ecc) := by
  unfold State.spadEcc
  dsimp only
  split
  · exact h
  · rw [if_pos (by omega)]
    exact h.addSat (.inl (mxeEcc_mem_errorRegs (spadEng_lt_of_stride ha))) _ _

theorem Counted.eccRead {a ecc : Nat} (hecc : ecc < 2) : Counted z (s.eccRead a ecc) := by
  unfold State.eccRead
  split
  · exact h
  · have hone : ecc = 1 := by omega
    rw [if_pos hone, if_pos hone]
    split
    · exact h
    · split
      · exact h
      next hhbm => exact h.addSat (.inl (memEcc_mem_errorRegs (octetOf_lt (by simpa using hhbm)))) _ _

theorem Counted.readErrs {x : Errs} (hx : Corrected x) (spans : List (Nat × Nat)) : Counted z (s.readErrs spans x) := by
  unfold State.readErrs State.arrayErrs
  refine Counted.foldl (h.foldl _ fun u p hp hu => ?_) _ fun u r _ hu => hu.noteCxl _ _ _
  have hp := hx p (List.mem_of_mem_filter hp)
  split
  next hspad => exact hu.spadEcc (isSpadStride_of_isSpad hspad) hp
  · exact hu.eccRead hp

theorem Counted.quayErrs {x : Errs} (hx : Corrected x) (spans : List (Nat × Nat)) (q buf unc : Nat) :
    Counted z (s.quayErrs q spans x buf unc) :=
  have hecc : ReadReg (R.quyEcc q) := .inr ⟨q, .inl rfl⟩
  ((h.readErrs hx spans).addSat hecc _ _).addSat hecc _ _

theorem Counted.quayBadAddr (a : Nat) : Counted z (s.quayBadAddr a) := by
  have haddr : ReadReg (R.quyPoisonAddr (s.quayFor a)) := .inr ⟨_, .inr rfl⟩
  unfold State.quayBadAddr
  dsimp only
  split
  · exact h
  · exact (h.setReg haddr _).setReg haddr _

theorem Counted.noteReads {x : Errs} (hx : Corrected x) (j : Job) (gs bs : List Nat) : Counted z (s.noteReads j gs bs x) :=
  h.foldl bs fun u b _ hu => by
    have herrs := hu.quayErrs hx [(gs.getD (b / 2) 0 + accOff (u.stake j.stake).master12 + 128 * (b % 2),
      gs.getD (b / 2) 0 + accOff (u.stake j.stake).master12 + 128 * (b % 2) + 128)] (u.quayFor (gs.getD (b / 2) 0)) 0 0
    dsimp only
    split
    · exact herrs.quayBadAddr _
    · exact herrs

end

/-! ### what it leaves to reads of memory -/

section
variable {s t : State} (h : Counted s t)
include h

theorem Counted.groupWork : GroupWork s t := by
  obtain ⟨hrest, hregs⟩ := h
  refine ⟨?_, ?_, ?_, ?_, ?_, fun a ha => hregs a fun hr => ha hr.quayReg⟩
  all_goals rw [hrest]
  · exact fun _ => rfl
  · exact fun _ => List.Subset.refl _
  · exact List.Subset.refl _

theorem Counted.dry : Dry s t := by
  rw [h.rest]
  exact ⟨rfl, rfl⟩

theorem Counted.unreadable (a n : Nat) : t.unreadable a n = s.unreadable a n := by
  cases hs : s.unreadable a n with
  | false => exact h.groupWork.unreadable hs
  | true =>
    by_contra ht
    rw [h.symm.groupWork.unreadable (Bool.eq_false_iff.mpr ht)] at hs
    cases hs

theorem Counted.num (a n : Nat) : t.num a n = s.num a n := by rw [h.rest]; rfl

theorem Counted.stageFmt (j : Job) (st : Nat) : t.stageFmt j st = s.stageFmt j st := by rw [h.rest]; rfl

theorem Counted.stageOf (j : Job) (ty b : Nat) : t.stageOf j ty b = s.stageOf j ty b := by rw [h.rest]; rfl

theorem Counted.ownBlock (j : Job) (gs : List Nat) (b st : Nat) : t.ownBlock j gs b st = s.ownBlock j gs b st := by
  have hstake := h.groupWork.stake j.stake
  simp only [State.ownBlock, h.num, h.unreadable, h.stageFmt, hstake]

end

end Sys2Proof.Machine
end

section
/-! PROOFS. SCATTER barges of one block (R206, R207, R208): the sum with the own block, which goes on to the next position or arrives at
its owner. -/

namespace Sys2Proof.Machine

/-- The state in which a SCATTER barge of one block is consumed and its elements are counted. -/
def State.scatterTaken (s : State) (p i id : Nat) (j : Job) (b : Nat) : State :=
  ((s.consume p i id).countAdded 32).setJob id { j with passed := insertNat b j.passed }

theorem State.reg_scatterTaken (s : State) (p i id : Nat) (j : Job) (b : Nat) {a : Nat} (ha : a ≠ R.rdxCntAdd) :
    (s.scatterTaken p i id j b).reg a = s.reg a := by
  rw [State.scatterTaken, State.countAdded]
  exact State.reg_setReg_other _ _ _ _ ha

theorem State.rx_consume (s : State) (p i id : Nat) : ((s.consume p i id).pt p).rx = (s.pt p).rx.eraseIdx i := by
  rw [State.consume, State.pt_setPt, if_pos rfl]

theorem State.rx_scatterTaken (s : State) (p i id : Nat) (j : Job) (b : Nat) :
    ((s.scatterTaken p i id j b).pt p).rx = (s.pt p).rx.eraseIdx i := s.rx_consume p i id

theorem State.added_scatterTaken (s : State) (p i id : Nat) (j : Job) (b : Nat) : (s.scatterTaken p i id j b).added = s.added + 32 := rfl

theorem State.scatterTaken_dry (s : State) (p i id : Nat) (j : Job) (b : Nat) : Dry s (s.scatterTaken p i id j b) :=
  State.setJob_dry _ _ (State.countAdded_dry _ (State.consume_dry p i id (.refl s)))

/-- The owner asks for the next stage of a block that spilled without poison (R208). -/
def State.askRetry (s : State) (ring id pos step st b : Nat) (v : Blk) : State :=
  if st < 2 ∧ v.spill = true ∧ v.poison = false then s.emit (2 * ring) 3 (bargeBytes (5 + st) id 1 0 0 0 pos step (toBytes 4 b)) else s

/-- Of the requests for the two retries at most one is made, and it names the block. -/
theorem State.askRetry_eq (s : State) (ring id pos step st b : Nat) (v : Blk) :
    [0, 1].foldl (fun u n =>
      let l := (if (st == n && v.spill && !v.poison) = true then [(st, b, v)] else []).map (fun d => d.2.1)
      if l.isEmpty = true then u else u.emit (2 * ring) 3 (bargeBytes (5 + n) id l.length 0 0 0 pos step (l.flatMap (toBytes 4)))) s =
    s.askRetry ring id pos step st b v := by
  unfold State.askRetry
  by_cases hv : v.spill = true ∧ v.poison = false
  · obtain ⟨hs, hp⟩ := hv
    match st with
    | 0 => simp [hs, hp]
    | 1 => simp [hs, hp]
    | n + 2 => simp
  · have hnone : ∀ n, (st == n && v.spill && !v.poison) = false := fun n => by simp at hv ⊢; exact fun _ => hv
    simp [hnone, hv]

/-- Unarmed, PTB_SPILL marks nothing (Table 16-6). -/
theorem State.forceSpill_unarmed {s : State} (h : s.flag R.ptbCtl F.ptbCtlArm = false) (j : Job) (id st b : Nat) (v : Blk) :
    s.forceSpill j id st b v = (v, s) := by
  unfold State.forceSpill State.ptbSpill State.ptbOn
  simp [h]

/-- The sum of a received block and the own one (R206). -/
def State.sumBlock (s : State) (j : Job) (ty : Nat) (un : Nat × Blk) : Blk :=
  let st := s.stageOf j ty un.1
  addBlk (s.stageFmt j st).1 un.2 (s.ownBlock j (s.groupsOf j) un.1 st)

section
variable {s : State} {p ty i : Nat} {e : Nat × List Byte} {j : Job} {ring pos l : Nat} {x : Errs} {un : Nat × Blk}
  (hripe : s.ripe p ty (s.mayAdd ty) = some (i, e, j)) (hm : s.member j.stake = some (ring, pos, l))
  (hun : s.bargeUnits j ty e.2 = [un]) (hx : Corrected x)
include hripe hm hun hx

/-- R206: elsewhere than at its owner the sum goes on to the next position. -/
theorem State.takeScatter_passes (hown : chunkOwner l (s.groupsOf j).length (un.1 / 2) ≠ pos) :
    s.takeScatter p ty x =
      ((s.noteReads j (s.groupsOf j) [un.1] x).scatterTaken p i (flitJob e.2) j un.1).sendBlocks
        { j with passed := insertNat un.1 j.passed } (flitJob e.2) ring pos ty (s.stageOf j ty un.1) [(un.1, s.sumBlock j ty un)] := by
  have hu := (Counted.refl s).noteReads hx j (s.groupsOf j) [un.1]
  unfold State.takeScatter
  rw [hripe]
  dsimp only
  rw [hm]
  dsimp only
  rw [hun]
  simp only [List.map_cons, List.map_nil, hu.stageOf, hu.stageFmt, hu.ownBlock, List.filter_cons, List.filter_nil,
    beq_eq_false_iff_ne.mpr hown, bne_iff_ne.mpr hown, if_true, Bool.false_eq_true, if_false, State.forceSpills, List.isEmpty_cons,
    List.headD_cons, List.foldl_cons, List.foldl_nil, List.isEmpty_nil, List.length_singleton, Nat.mul_one]
  rw [State.scatterTaken, State.sumBlock]

/-- R206, R208: at its owner the sum is delivered, and its next stage is asked for where it spilled. -/
theorem State.takeScatter_arrives (harm : s.flag R.ptbCtl F.ptbCtlArm = false)
    (hown : chunkOwner l (s.groupsOf j).length (un.1 / 2) = pos) :
    s.takeScatter p ty x =
      (((s.noteReads j (s.groupsOf j) [un.1] x).scatterTaken p i (flitJob e.2) j un.1).deliver
        { j with passed := insertNat un.1 j.passed } (flitJob e.2) (s.groupsOf j) (s.stageOf j ty un.1) un.1
        (s.sumBlock j ty un)).askRetry ring (flitJob e.2) pos j.step (s.stageOf j ty un.1) un.1 (s.sumBlock j ty un) := by
  have hu := (Counted.refl s).noteReads hx j (s.groupsOf j) [un.1]
  have hw : ((s.noteReads j (s.groupsOf j) [un.1] x).scatterTaken p i (flitJob e.2) j un.1).flag R.ptbCtl F.ptbCtlArm = false := by
    rw [← harm, ← State.flag_congr (hu.regs _ not_readReg_ptbCtl)]
    exact State.flag_congr (State.reg_scatterTaken _ p i _ j _ (by unfold R.ptbCtl R.rdxCntAdd; omega)) _
  have hpassed : [un].foldl (fun m u => insertNat u.1 m) j.passed = insertNat un.1 j.passed := rfl
  unfold State.takeScatter
  rw [hripe]
  dsimp only
  rw [hm]
  dsimp only
  rw [hun, hpassed]
  simp only [List.map_cons, List.map_nil, hu.stageOf, hu.stageFmt, hu.ownBlock, List.filter_cons, List.filter_nil, hown,
    beq_self_eq_true, bne_self_eq_false, if_true, Bool.false_eq_true, if_false, State.forceSpills, List.isEmpty_nil,
    List.length_singleton, Nat.mul_one]
  rw [State.scatterTaken] at hw ⊢
  rw [← State.sumBlock]
  simp only [State.forceSpill_unarmed hw]
  simp only [List.foldl_cons (l := []), List.foldl_nil]
  exact State.askRetry_eq ..

end

/-! ### blocks that leave, and blocks that arrive -/

/-- One block is sent in a barge of its own. -/
theorem State.sendBlocks_one (s : State) (j : Job) (id ring p ty st b : Nat) (v : Blk) :
    s.sendBlocks j id ring p ty st [(b, v)] = s.emit (2 * ring) 3 (bargeBytes ty id 1 (if ty = 2 then b else 0) (unitMask [v.spill])
      (unitMask [v.poison]) p j.step (unitBytes ty (s.stageFmt j st).1 (s.stageFmt j st).2 b v)) := by
  simp [State.sendBlocks]

theorem State.askRetry_pumped (s : State) (ring id pos step st b : Nat) (v : Blk) : Pumped s (s.askRetry ring id pos step st b v) := by
  unfold State.askRetry
  split
  · exact (s.emit_pumped _ _ _).1
  · exact .refl s

theorem State.askRetry_leaves (s : State) (ring id pos step b : Nat) {st : Nat} {v : Blk} (h : (v.poison || !v.spill) = false)
    (hst : st < 2) : Leaves (s.askRetry ring id pos step st b v) (2 * ring) 3 (bargeBytes (5 + st) id 1 0 0 0 pos step (toBytes 4 b)) := by
  unfold State.askRetry
  rw [if_pos ⟨hst, by simpa using (Bool.or_eq_false_iff.mp h).symm⟩]
  exact (s.emit_pumped _ _ _).2

/-- The block as its quay unit receives it: FINAL unless it spilled without poison (R206). -/
def State.blockOf (s : State) (j : Job) (id st b : Nat) (v : Blk) : Block :=
  let f := s.stageFmt j st
  ⟨id, b, if f.1 = 0 then v.vals.map (fun x => x.toNat) else v.vals.map (ofBw f.1 f.2), v.poison || !v.spill, v.poison⟩

theorem State.deliver_port (s : State) (j : Job) (id : Nat) (gs : List Nat) (st b : Nat) (v : Blk) :
    (s.deliver j id gs st b v).port = s.port := by
  unfold State.deliver
  dsimp only
  split <;> rfl

theorem State.deliver_added (s : State) (j : Job) (id : Nat) (gs : List Nat) (st b : Nat) (v : Blk) :
    (s.deliver j id gs st b v).added = s.added := by
  unfold State.deliver
  dsimp only
  split <;> rfl

theorem State.mem_inbox_deliver (s : State) (j : Job) (id : Nat) (gs : List Nat) (st b : Nat) (v : Blk) :
    s.blockOf j id st b v ∈ ((s.deliver j id gs st b v).qu (octetOf (gs.getD (b / 2) 0))).inbox := by
  have hput : s.blockOf j id st b v ∈ ((s.setQu (octetOf (gs.getD (b / 2) 0)) { s.qu (octetOf (gs.getD (b / 2) 0)) with
      inbox := (s.qu (octetOf (gs.getD (b / 2) 0))).inbox ++ [s.blockOf j id st b v] }).qu (octetOf (gs.getD (b / 2) 0))).inbox := by
    rw [State.qu_setQu_same]
    exact List.mem_append_right _ (List.mem_singleton_self _)
  unfold State.deliver
  dsimp only
  split <;> exact hput

theorem Pumped.qu {s t : State} (h : Pumped s t) (q : Nat) : t.qu q = s.qu q := by rw [h.rest]; rfl

theorem Pumped.added {s t : State} (h : Pumped s t) : t.added = s.added := by rw [h.rest]

theorem Pumped.dry {s t : State} (h : Pumped s t) : Dry s t := by
  rw [h.rest]
  exact ⟨rfl, rfl⟩

section
variable {s : State} {p : Fin 12} {ty i : Nat} {e : Nat × List Byte} {j : Job} {ring pos l : Nat} {x : Errs} {un : Nat × Blk}
  (hripe : s.ripe p ty (s.mayAdd ty) = some (i, e, j)) (hm : s.member j.stake = some (ring, pos, l))
  (hun : s.bargeUnits j ty e.2 = [un]) (hx : Corrected x) (harm : s.flag R.ptbCtl F.ptbCtlArm = false)
include hripe hm hun hx harm

/-- R206, R207, R208: what a SCATTER barge of one block brings about. -/
theorem takeScatter_effects :
    let t := s.takeScatter p ty x
    let gs := s.groupsOf j
    let st := s.stageOf j ty un.1
    let f := s.stageFmt j st
    let v := s.sumBlock j ty un
    (t.pt p).rx = (s.pt p).rx.eraseIdx i ∧ t.added = s.added + 32 ∧ SameMemory s t ∧
      (chunkOwner l gs.length (un.1 / 2) ≠ pos → Leaves t (2 * ring) 3 (bargeBytes ty (flitJob e.2) 1 (if ty = 2 then un.1 else 0)
        (unitMask [v.spill]) (unitMask [v.poison]) pos j.step (unitBytes ty f.1 f.2 un.1 v))) ∧
      (chunkOwner l gs.length (un.1 / 2) = pos →
        s.blockOf j (flitJob e.2) st un.1 v ∈ (t.qu (octetOf (gs.getD (un.1 / 2) 0))).inbox ∧
        ((v.poison || !v.spill) = false → st < 2 →
          Leaves t (2 * ring) 3 (bargeBytes (5 + st) (flitJob e.2) 1 0 0 0 pos j.step (toBytes 4 un.1)))) := by
  intro t gs st f v
  have hu := (Counted.refl s).noteReads hx j gs [un.1]
  have hrx : (((s.noteReads j gs [un.1] x).scatterTaken p i (flitJob e.2) j un.1).pt p).rx = (s.pt p).rx.eraseIdx i := by
    rw [State.rx_scatterTaken, hu.rest]
    rfl
  have hadded : ((s.noteReads j gs [un.1] x).scatterTaken p i (flitJob e.2) j un.1).added = s.added + 32 := by
    rw [State.added_scatterTaken, hu.rest]
  have hmem : SameMemory s ((s.noteReads j gs [un.1] x).scatterTaken p i (flitJob e.2) j un.1) :=
    (hu.dry.trans (State.scatterTaken_dry _ _ _ _ _ _)).same
  have hfmt : ∀ n, ((s.noteReads j gs [un.1] x).scatterTaken p i (flitJob e.2) j un.1).stageFmt
      { j with passed := insertNat un.1 j.passed } n = s.stageFmt j n := fun n => hu.stageFmt j n
  by_cases hown : chunkOwner l gs.length (un.1 / 2) = pos
  · have ht : t = _ := State.takeScatter_arrives hripe hm hun hx harm hown
    generalize (s.noteReads j gs [un.1] x).scatterTaken p i (flitJob e.2) j un.1 = w at hrx hadded hmem hfmt ht
    have hblock := w.mem_inbox_deliver { j with passed := insertNat un.1 j.passed } (flitJob e.2) gs st un.1 v
    have hport := w.deliver_port { j with passed := insertNat un.1 j.passed } (flitJob e.2) gs st un.1 v
    have hadd := w.deliver_added { j with passed := insertNat un.1 j.passed } (flitJob e.2) gs st un.1 v
    have hdry : Dry w (w.deliver { j with passed := insertNat un.1 j.passed } (flitJob e.2) gs st un.1 v) :=
      State.deliver_dry _ _ _ _ _ _ (.refl w)
    generalize w.deliver { j with passed := insertNat un.1 j.passed } (flitJob e.2) gs st un.1 v = y at ht hblock hport hadd hdry
    have hpump := y.askRetry_pumped ring (flitJob e.2) pos j.step st un.1 v
    rw [ht]
    refine ⟨?_, ?_, fun a => ((hdry.trans hpump.dry).same a).trans (hmem a), fun h => absurd hown h, fun _ =>
      ⟨?_, fun hfinal hst => State.askRetry_leaves _ _ _ _ _ _ hfinal hst⟩⟩
    · rw [hpump.rx, ← hrx, State.pt, hport, State.pt]
    · rw [hpump.added, hadd, hadded]
    · rw [hpump.qu]
      simpa only [State.blockOf, hfmt] using hblock
  · have ht : t = _ := State.takeScatter_passes hripe hm hun hx hown
    generalize (s.noteReads j gs [un.1] x).scatterTaken p i (flitJob e.2) j un.1 = w at hrx hadded hmem hfmt ht
    rw [State.sendBlocks_one, hfmt] at ht
    obtain ⟨hpump, hleaves⟩ := w.emit_pumped (2 * ring) 3 (bargeBytes ty (flitJob e.2) 1 (if ty = 2 then un.1 else 0)
      (unitMask [v.spill]) (unitMask [v.poison]) pos j.step (unitBytes ty f.1 f.2 un.1 v))
    rw [ht]
    exact ⟨(hpump.rx _).trans hrx, hpump.added.trans hadded, fun a => (hpump.dry.same a).trans (hmem a), fun _ => hleaves,
      fun h => absurd h hown⟩

end

end Sys2Proof.Machine
end

section
/-! PROOFS. REQ and GATHER barges of one block or group (R208, R211), and the obligation on reduction barges. -/

namespace Sys2Proof.Machine

/-! ### REQ16 and REQ32 (R208) -/

theorem pieces_singleton {α : Type} {n : Nat} (hn : 0 < n) (a : α) : pieces n [a] = [[a]] := by
  have hone : ceilDiv [a].length n = 1 := by
    rw [ceilDiv, List.length_singleton, show 1 + n - 1 = n by omega, Nat.div_self hn]
  rw [pieces, hone]
  obtain ⟨m, rfl⟩ := Nat.exists_eq_succ_of_ne_zero hn.ne'
  simp

theorem perBarge_pos (ty : Nat) : 0 < perBarge ty := by
  unfold perBarge
  split
  · decide
  · split <;> decide

theorem State.ownBlock_consume (s : State) (p i id : Nat) (j : Job) (gs : List Nat) (b st : Nat) :
    (s.consume p i id).ownBlock j gs b st = s.ownBlock j gs b st := rfl

theorem State.stageFmt_consume (s : State) (p i id : Nat) (j : Job) (st : Nat) :
    (s.consume p i id).stageFmt j st = s.stageFmt j st := rfl

/-- A REQ barge of one block of the job names that block. -/
theorem State.reqBlocks_one {s : State} {j : Job} {f : List Byte} (hone : numAt f 3 1 = 1) (hb : numAt f 16 4 / 2 < (s.groupsOf j).length) :
    s.reqBlocks j f = [numAt f 16 4] := by
  simp [State.reqBlocks, hone, hb]

section
variable {s : State} {p ty i : Nat} {e : Nat × List Byte} {j : Job} {ring pos l : Nat} {x : Errs}
  (hripe : s.ripe p ty s.mayRetry = some (i, e, j)) (hm : s.member j.stake = some (ring, pos, l)) (hone : numAt e.2 3 1 = 1)
  (hb : numAt e.2 16 4 / 2 < (s.groupsOf j).length) (hx : Corrected x)
include hripe hm hone hb hx

/-- R208: the own block leaves at the stage that is asked for. -/
theorem State.takeReq_one :
    let b := numAt e.2 16 4
    let st := ty - 4
    s.takeReq p ty x = ((s.noteReads j (s.groupsOf j) [b] x).consume p i (flitJob e.2)).sendBlocks j (flitJob e.2) ring pos
      (s.stageType j st) st [(b, s.ownBlock j (s.groupsOf j) b st)] := by
  intro b st
  have hu := (Counted.refl s).noteReads hx j (s.groupsOf j) [b]
  have hown : ((s.noteReads j (s.groupsOf j) [b] x).consume p i (flitJob e.2)).ownBlock j (s.groupsOf j) b st =
      s.ownBlock j (s.groupsOf j) b st := by rw [State.ownBlock_consume, hu.ownBlock]
  unfold State.takeReq
  rw [hripe]
  dsimp only
  rw [hm]
  dsimp only
  rw [State.reqBlocks_one hone hb, pieces_singleton (perBarge_pos _), List.foldl_cons, List.foldl_nil, List.map_cons, List.map_nil, hown]

/-- What a REQ barge of one block brings about. -/
theorem takeReq_effects :
    let t := s.takeReq p ty x
    let b := numAt e.2 16 4
    let f := s.stageFmt j (ty - 4)
    let v := s.ownBlock j (s.groupsOf j) b (ty - 4)
    let out := s.stageType j (ty - 4)
    (t.pt p).rx = (s.pt p).rx.eraseIdx i ∧ Leaves t (2 * ring) 3 (bargeBytes out (flitJob e.2) 1 (if out = 2 then b else 0)
      (unitMask [v.spill]) (unitMask [v.poison]) pos j.step (unitBytes out f.1 f.2 b v)) := by
  intro t b f v out
  have hu := (Counted.refl s).noteReads hx j (s.groupsOf j) [b]
  have ht : t = _ := State.takeReq_one hripe hm hone hb hx
  have hfmt : ((s.noteReads j (s.groupsOf j) [b] x).consume p i (flitJob e.2)).stageFmt j (ty - 4) = f := by
    rw [State.stageFmt_consume, hu.stageFmt]
  rw [State.sendBlocks_one, hfmt] at ht
  obtain ⟨hpump, hleaves⟩ := ((s.noteReads j (s.groupsOf j) [b] x).consume p i (flitJob e.2)).emit_pumped (2 * ring) 3
    (bargeBytes out (flitJob e.2) 1 (if out = 2 then b else 0) (unitMask [v.spill]) (unitMask [v.poison]) pos j.step
      (unitBytes out f.1 f.2 b v))
  rw [ht]
  refine ⟨?_, hleaves⟩
  rw [hpump.rx, State.rx_consume, hu.rest]
  rfl

end

/-! ### GATHER (R211) -/

theorem length_slice (l : List Byte) (i n : Nat) : (slice l i n).length = n := by simp [slice]

/-- A part of a slice is a slice. -/
theorem slice_slice (l : List Byte) (i : Nat) {a n m : Nat} (h : a + n ≤ m) : slice (slice l i m) a n = slice l (i + a) n := by
  refine List.map_congr_left fun k hk => ?_
  have hk := List.mem_range.mp hk
  rw [slice, List.getD_eq_getElem _ _ (by simp; omega)]
  simp [Nat.add_assoc]

/-- The bytes of a working copy and its scale bytes, written as received. -/
def State.wrCopyBytes (s : State) (c : Nat × Nat) (d : QuayD) (b : List Byte) : State :=
  let u := s.wr c.1 (slice b 0 (8 * d.wwidth))
  if d.wscm = 2 then u.wr c.2 (slice b (8 * d.wwidth) 2) else u

section
variable (s : State) (c : Nat × Nat) (d : QuayD) (b : List Byte)

theorem State.wrCopyBytes_memoryBut :
    MemoryBut ((c.1, 8 * d.wwidth) :: (if d.wscm = 2 then [(c.2, 2)] else [])) s (s.wrCopyBytes c d b) := by
  have hcopy := s.wr_memoryBut c.1 (slice b 0 (8 * d.wwidth))
  rw [length_slice] at hcopy
  unfold State.wrCopyBytes
  dsimp only
  split
  · have hscale := (s.wr c.1 (slice b 0 (8 * d.wwidth))).wr_memoryBut c.2 (slice b (8 * d.wwidth) 2)
    rw [length_slice] at hscale
    exact (hcopy.mono (by simp)).trans (hscale.mono (by simp))
  · exact hcopy

theorem State.bytes_wrCopyBytes (hscale : d.wscm ≠ 2) (hl : Lands s c.1 (8 * d.wwidth)) :
    (s.wrCopyBytes c d b).bytes c.1 (8 * d.wwidth) = slice b 0 (8 * d.wwidth) := by
  have hread := State.bytes_wr_append (s := s) (a := c.1) (p := []) (b := slice b 0 (8 * d.wwidth)) (q := [])
    (by simpa [length_slice] using hl)
  unfold State.wrCopyBytes
  dsimp only
  rw [if_neg hscale]
  simpa [length_slice] using hread

theorem State.wrCopyBytes_ring : (s.wrCopyBytes c d b).ring = s.ring := by
  unfold State.wrCopyBytes
  dsimp only
  split
  · rw [State.wr_ring, State.wr_ring]
  · rw [State.wr_ring]

theorem State.wrCopyBytes_port : (s.wrCopyBytes c d b).port = s.port := by
  unfold State.wrCopyBytes
  dsimp only
  split
  · rw [State.wr_port, State.wr_port]
  · rw [State.wr_port]

end

theorem State.gatherWrite_clean {s : State} {id a : Nat} {bd : Bind} (hb : s.bindOf id a = some bd) (j : Job) (b : List Byte) :
    s.gatherWrite j id a b false = s.wrCopyBytes ((parseQuay bd.desc).copyAt (s.gsize j.stake) a) (parseQuay bd.desc) b := by
  unfold State.gatherWrite
  rw [hb]
  simp only [Bool.false_eq_true, if_false]
  rw [State.wrCopyBytes]

/-- The state in which a GATHER barge of one group is consumed and the group's copy is written. -/
def State.gatherTaken (s : State) (p i id first : Nat) (j : Job) (c : Nat × Nat) (d : QuayD) (b : List Byte) : State :=
  ((s.consume p i id).wrCopyBytes c d b).setJob id { j with written := insertNat first j.written }

section
variable {s : State} {p : Fin 12} {i : Nat} {e : Nat × List Byte} {j : Job} {ring pos l : Nat} {bd : Bind}
  (hripe : s.ripe p 7 (fun _ _ => true) = some (i, e, j)) (hm : s.member j.stake = some (ring, pos, l)) (hone : numAt e.2 3 1 = 1)
  (hclean : (numAt e.2 9 1).testBit 0 = false) (hfirst : numAt e.2 4 4 < (s.groupsOf j).length)
  (hbd : s.bindOf (flitJob e.2) ((s.groupsOf j).getD (numAt e.2 4 4) 0) = some bd) (hfits : (parseQuay bd.desc).gatherLen ≤ 240)
include hripe hm hone hclean hfirst hbd hfits

/-- R211: the one group of a GATHER barge is written, and the barge goes on unless the next position owns the group. -/
theorem State.takeGather_one :
    let first := numAt e.2 4 4
    let d := parseQuay bd.desc
    let w := s.gatherTaken p i (flitJob e.2) first j (d.copyAt (s.gsize j.stake) ((s.groupsOf j).getD first 0)) d
      (slice e.2 16 d.gatherLen)
    s.takeGather p = if chunkOwner l (s.groupsOf j).length first = (pos + 1) % l then w
      else w.emit (2 * ring) 3 (toBytes 1 7 ++ slice e.2 1 9 ++ toBytes 2 pos ++ slice e.2 12 244) := by
  intro first d w
  have hunits : (List.range 1).filter (fun u => decide (first + u < (s.groupsOf j).length) && decide ((u + 1) * d.gatherLen ≤ 240)) =
      [0] := by
    simp [first, d, hfirst, hfits]
  have hbind : (s.consume p i (flitJob e.2)).bindOf (flitJob e.2) ((s.groupsOf j).getD (numAt e.2 4 4) 0) = some bd := hbd
  unfold State.takeGather
  rw [hripe]
  dsimp only
  rw [hm]
  dsimp only
  rw [hbd]
  dsimp only
  rw [hone, hunits]
  simp only [List.foldl_cons, List.foldl_nil, List.any_cons, List.any_nil, hclean, Bool.or_false, Nat.add_zero, Nat.zero_mul]
  rw [State.gatherWrite_clean hbind]
  rfl

/-- What a GATHER barge of one group brings about. -/
theorem takeGather_effects :
    let t := s.takeGather p
    let first := numAt e.2 4 4
    let d := parseQuay bd.desc
    let c := d.copyAt (s.gsize j.stake) ((s.groupsOf j).getD first 0)
    let next := chunkOwner l (s.groupsOf j).length first = (pos + 1) % l
    (t.pt p).rx = (s.pt p).rx.eraseIdx i ∧ MemoryBut ((c.1, 8 * d.wwidth) :: (if d.wscm = 2 then [(c.2, 2)] else [])) s t ∧
      (d.wscm ≠ 2 → Lands s c.1 (8 * d.wwidth) → t.bytes c.1 (8 * d.wwidth) = slice e.2 16 (8 * d.wwidth)) ∧
      (t.job (flitJob e.2)).map (fun j => j.written) = some (insertNat first j.written) ∧ (next → t.ring = s.ring) ∧
      (¬ next → Leaves t (2 * ring) 3 (toBytes 1 7 ++ slice e.2 1 9 ++ toBytes 2 pos ++ slice e.2 12 244)) := by
  intro t first d c next
  have ht : t = _ := State.takeGather_one hripe hm hone hclean hfirst hbd hfits
  generalize hw : s.gatherTaken p i (flitJob e.2) first j c d (slice e.2 16 d.gatherLen) = w at ht
  have hdry : Dry s (s.consume p i (flitJob e.2)) := State.consume_dry p i _ (.refl s)
  have hrx : (w.pt p).rx = (s.pt p).rx.eraseIdx i := by
    have hport : w.port = (s.consume p i (flitJob e.2)).port := by
      rw [← hw]
      exact (s.consume p i (flitJob e.2)).wrCopyBytes_port c d _
    rw [State.pt, hport, ← State.pt, State.rx_consume]
  have hring : w.ring = s.ring := by
    rw [← hw]
    exact (s.consume p i (flitJob e.2)).wrCopyBytes_ring c d _
  have hmem : MemoryBut ((c.1, 8 * d.wwidth) :: (if d.wscm = 2 then [(c.2, 2)] else [])) s w := by
    rw [← hw]
    exact (hdry.same.but _).trans ((s.consume p i (flitJob e.2)).wrCopyBytes_memoryBut c d _)
  have hcopy : d.wscm ≠ 2 → Lands s c.1 (8 * d.wwidth) → w.bytes c.1 (8 * d.wwidth) = slice e.2 16 (8 * d.wwidth) := fun hscale hl => by
    rw [← hw, ← slice_slice e.2 16 (a := 0) (show 0 + 8 * d.wwidth ≤ d.gatherLen by unfold QuayD.gatherLen; omega)]
    exact (s.consume p i (flitJob e.2)).bytes_wrCopyBytes c d _ hscale hl
  have hwritten : (w.job (flitJob e.2)).map (fun j => j.written) = some (insertNat first j.written) := by
    rw [← hw, State.gatherTaken, State.job_setJob, if_pos rfl]
    rfl
  by_cases hnext : next
  · rw [if_pos hnext] at ht
    rw [ht]
    exact ⟨hrx, hmem, hcopy, hwritten, fun _ => hring, fun h => absurd hnext h⟩
  · rw [if_neg hnext] at ht
    obtain ⟨hpump, hleaves⟩ := w.emit_pumped (2 * ring) 3 (toBytes 1 7 ++ slice e.2 1 9 ++ toBytes 2 pos ++ slice e.2 12 244)
    rw [ht]
    refine ⟨(hpump.rx p).trans hrx, hmem.trans (hpump.dry.same.but _), fun hscale hl => ?_, ?_, fun h => absurd h hnext, fun _ => hleaves⟩
    · rw [← hcopy hscale hl]
      exact List.map_congr_left fun k _ => hpump.dry.same _
    · rw [hpump.job, hwritten]

end

/-! ### the commands -/

theorem exec_scatter8 (p : Fin 12) (x : Errs) (s : State) : exec (.scatter8 p x) s = .next (s.takeScatter p 2 x) := rfl

theorem exec_scatter16 (p : Fin 12) (x : Errs) (s : State) : exec (.scatter16 p x) s = .next (s.takeScatter p 3 x) := rfl

theorem exec_scatter32 (p : Fin 12) (x : Errs) (s : State) : exec (.scatter32 p x) s = .next (s.takeScatter p 4 x) := rfl

theorem exec_req16 (p : Fin 12) (x : Errs) (s : State) : exec (.req16 p x) s = .next (s.takeReq p 5 x) := rfl

theorem exec_req32 (p : Fin 12) (x : Errs) (s : State) : exec (.req32 p x) s = .next (s.takeReq p 6 x) := rfl

theorem exec_gather (p : Fin 12) (s : State) : exec (.gather p) s = .next (s.takeGather p) := rfl

end Sys2Proof.Machine

open Sys2Proof Sys2Proof.Machine in
/-- Settles O27: reads that meet corrected errors change no byte and no poison, so the own block read is the one of before; what is sent
then waits or leaves, and is never lost. -/
theorem reductionBarges : Obligations.ReductionBarges := by
  unfold Obligations.ReductionBarges
  intro s p x hx ripe consumed scatter request
  have hscatter : ∀ c ty, exec c s = .next (s.takeScatter p ty x) → scatter c ty := by
    intro c ty hexec i e j ring pos l ⟨hripe, hm⟩ harm gs un hun
    obtain ⟨hrx, hadded, hmem, hpass, harrive⟩ := takeScatter_effects hripe hm hun hx harm
    exact ⟨_, hexec, ⟨hrx, State.takeScatter_apart p.val ty x (.refl s)⟩, hadded, hmem, hpass, harrive⟩
  have hrequest : ∀ c st, exec c s = .next (s.takeReq p (4 + st) x) → request c st := by
    intro c st hexec i e j ring pos l ⟨hripe, hm⟩ hone gs b ty f v hb
    obtain ⟨hrx, hleaves⟩ := takeReq_effects hripe hm hone hb hx
    rw [Nat.add_sub_cancel_left] at hleaves
    exact ⟨_, hexec, ⟨hrx, State.takeReq_apart p.val (4 + st) x (.refl s)⟩, (State.takeReq_dry p.val (4 + st) x (.refl s)).same, hleaves⟩
  refine ⟨hscatter _ 2 (exec_scatter8 p x s), hscatter _ 3 (exec_scatter16 p x s), hscatter _ 4 (exec_scatter32 p x s),
    hrequest _ 1 (exec_req16 p x s), hrequest _ 2 (exec_req32 p x s), ?_⟩
  intro i e j ring pos l ⟨hripe, hm⟩ hone hlen hclean gs first hfirst bd hbd d at0 hfits
  obtain ⟨hrx, hmem, hcopy, hwritten, hnext, hgoes⟩ := takeGather_effects hripe hm hone hclean hfirst hbd hfits
  exact ⟨_, exec_gather p s, ⟨hrx, State.takeGather_apart p.val (.refl s)⟩, hmem, hcopy, hwritten, hnext, hgoes⟩
end

section
/-! PROOFS. Where a KV pool lies and which writes reach memory (R81, R226, R227, R265, R269): the registers that decide it, and the
operations that leave them. -/

namespace Sys2Proof.Machine

theorem State.keeper_lt (s : State) (k : Nat) : s.keeper k < 4 := by
  unfold State.keeper
  cases h : s.diesOf k with
  | nil => decide
  | cons d l =>
    have hd : d ∈ s.diesOf k := h ▸ List.mem_cons_self
    exact List.mem_range.mp (List.mem_filter.mp hd).1

/-- A register that the work on KV pools writes: the error count of the CXL range, and the status and the counters of a pool. -/
def KvCount (a : Nat) : Prop :=
  a = R.cxtErr ∨ ∃ d k, d < 4 ∧ k < 16 ∧ (a = R.kvpSStatus d k ∨ a = R.kvpSCntCow d k ∨ a = R.kvpSCntCopy d k)

theorem KvCount.status {d k : Nat} (hd : d < 4) (hk : k < 16) : KvCount (R.kvpSStatus d k) := .inr ⟨d, k, hd, hk, .inl rfl⟩

theorem KvCount.cow {d k : Nat} (hd : d < 4) (hk : k < 16) : KvCount (R.kvpSCntCow d k) := .inr ⟨d, k, hd, hk, .inr (.inl rfl)⟩

theorem KvCount.copy {d k : Nat} (hd : d < 4) (hk : k < 16) : KvCount (R.kvpSCntCopy d k) := .inr ⟨d, k, hd, hk, .inr (.inr rfl)⟩

/-- A register between those of the CXL ports and those of the pass sequencers that the work on pools leaves: of them all stand that say
where a pool lies and which writes reach memory. -/
def LayoutReg (a : Nat) : Prop := R.cxtPStatus 0 ≤ a ∧ a < R.psqId 0 ∧ ¬ KvCount a

/-- The registers of a pool's window stand in eight places of 8 bytes (R226). -/
theorem layoutReg_of_place {a d k i : Nat} (hd : d < 4) (hk : k < 16) (ha : a = R.kvpSStatus d k + 8 * i) (hi : 0 < i ∧ i < 6) :
    LayoutReg a := by
  refine ⟨?_, ?_, ?_⟩
  · subst ha; unfold R.cxtPStatus R.kvpSStatus; omega
  · subst ha; unfold R.kvpSStatus R.psqId; omega
  · rintro (h | ⟨e, j, he, hj, h⟩)
    · subst ha; unfold R.kvpSStatus R.cxtErr at h; omega
    · subst ha; unfold R.kvpSStatus R.kvpSCntCow R.kvpSCntCopy at h; omega

theorem layoutReg_memStatus {i : Nat} (hi : i < 8) : LayoutReg (R.memStatus i) := by
  refine ⟨by unfold R.cxtPStatus R.memStatus; omega, by unfold R.memStatus R.psqId; omega, ?_⟩
  rintro (h | ⟨d, k, hd, hk, h⟩)
  · unfold R.memStatus R.cxtErr at h; omega
  · unfold R.memStatus R.kvpSStatus R.kvpSCntCow R.kvpSCntCopy at h; omega

/-- The registers of the KVPs lie past those of the CXL ports and decoders. -/
theorem layoutReg_of_lt_mxeId {a : Nat} (hlo : R.cxtPStatus 0 ≤ a) (hhi : a < R.mxeId 0) (hne : a ≠ R.cxtErr) : LayoutReg a := by
  unfold R.mxeId at hhi
  refine ⟨hlo, by unfold R.psqId; omega, ?_⟩
  rintro (h | ⟨d, k, hd, hk, h⟩)
  · exact hne h
  · unfold R.kvpSStatus R.kvpSCntCow R.kvpSCntCopy at h; omega

/-- A register of a CXL decoder. -/
theorem layoutReg_of_cxt {a : Nat} (h : R.cxtErr < a ∧ a < R.mxeId 0) : LayoutReg a := by
  obtain ⟨hlo, hhi⟩ := h
  exact layoutReg_of_lt_mxeId (by unfold R.cxtErr at hlo; unfold R.cxtPStatus; omega) hhi (by omega)

theorem layoutReg_of_port {p : Nat} (hp : p < 4) : LayoutReg (R.cxtPStatus p) :=
  layoutReg_of_lt_mxeId (by unfold R.cxtPStatus; omega) (by unfold R.cxtPStatus R.mxeId; omega) (by unfold R.cxtPStatus R.cxtErr; omega)

/-- Pools lie where they lay, and the same writes reach memory. -/
structure SameLayout (s t : State) : Prop where
  weave : t.weave = s.weave
  regs  : ∀ a, LayoutReg a → t.reg a = s.reg a

theorem SameLayout.refl (s : State) : SameLayout s s := ⟨rfl, fun _ _ => rfl⟩

theorem SameLayout.trans {r s t : State} (h : SameLayout r s) (h' : SameLayout s t) : SameLayout r t :=
  ⟨h'.weave.trans h.weave, fun a ha => (h'.regs a ha).trans (h.regs a ha)⟩

/-! ### what leaves the layout -/

section
variable {z s : State} (h : SameLayout z s)
include h

theorem SameLayout.setReg {a : Nat} (ha : R.psqId 0 ≤ a ∨ KvCount a) (v : Word) : SameLayout z (s.setReg a v) := by
  refine ⟨h.weave, fun b hb => (s.reg_setReg_other a b v ?_).trans (h.regs b hb)⟩
  obtain ⟨-, hlt, hcount⟩ := hb
  rintro rfl
  exact ha.elim (by omega) hcount

theorem SameLayout.setFld {a : Nat} (ha : R.psqId 0 ≤ a ∨ KvCount a) (f : Fld) (v : Nat) : SameLayout z (s.setFld a f v) := h.setReg ha _

theorem SameLayout.setKv (k : Nat) (c : Kvp) : SameLayout z (s.setKv k c) := ⟨h.weave, h.regs⟩

theorem SameLayout.setQ (k : Nat) (c : Psq) : SameLayout z (s.setQ k c) := ⟨h.weave, h.regs⟩

theorem SameLayout.lose (lo hi : Nat) : SameLayout z (s.lose lo hi) := ⟨h.weave, h.regs⟩

theorem SameLayout.noteCxl (a n : Nat) (read : Bool) : SameLayout z (s.noteCxl a n read) :=
  ⟨(s.noteCxl_weave a n read).trans h.weave,
    fun b hb => (s.reg_noteCxl a n b read (fun e => hb.2.2 (.inl e))).trans (h.regs b hb)⟩

theorem SameLayout.wr (a : Nat) (l : List Byte) : SameLayout z (s.wr a l) :=
  ⟨(s.wr_weave a l).trans h.weave, fun b hb => (s.reg_wr a b l (fun e => hb.2.2 (.inl e))).trans (h.regs b hb)⟩

theorem SameLayout.wrPoison (a n : Nat) : SameLayout z (s.wrPoison a n) := by
  unfold State.wrPoison
  split
  · exact h.noteCxl a n false
  · unfold State.poisonRange
    split <;> exact ⟨h.weave, h.regs⟩

theorem SameLayout.foldl {β : Type} {f : State → β → State} (hf : ∀ u b, SameLayout z u → SameLayout z (f u b)) (l : List β) :
    SameLayout z (l.foldl f s) :=
  List.foldlRecOn l f (motive := SameLayout z) h (fun u hu b _ => hf u b hu)

end

/-! ### what the layout decides -/

section
variable {s t : State} (h : SameLayout s t)
include h

theorem SameLayout.fld {a : Nat} (ha : LayoutReg a) (f : Fld) : t.fld a f = s.fld a f := by
  rw [State.fld, h.regs a ha, State.fld]

theorem SameLayout.stake (k : Nat) : t.stake k = s.stake k := by unfold State.stake; rw [h.weave]

theorem SameLayout.keeper (k : Nat) : t.keeper k = s.keeper k := by unfold State.keeper State.diesOf; rw [h.stake]

theorem SameLayout.geom {k : Nat} (hk : k < 16) (f : Fld) :
    t.fld (R.kvpSGeom (t.keeper k) k) f = s.fld (R.kvpSGeom (s.keeper k) k) f := by
  rw [h.keeper, h.fld (layoutReg_of_place (s.keeper_lt k) hk (i := 1) (by unfold R.kvpSGeom R.kvpSStatus; omega) (by decide))]

theorem SameLayout.rowb {k : Nat} (hk : k < 16) : t.rowb k = s.rowb k := by rw [State.rowb, h.geom hk, State.rowb]

theorem SameLayout.layers {k : Nat} (hk : k < 16) : t.layers k = s.layers k := h.geom hk _

theorem SameLayout.ptEntries {k : Nat} (hk : k < 16) : t.ptEntries k = s.ptEntries k := h.geom hk _

theorem SameLayout.kvRow {k : Nat} (hk : k < 16) (p l i : Nat) : t.kvRow k p l i = s.kvRow k p l i := by
  simp only [State.kvRow, h.rowb hk, h.stake]

theorem SameLayout.pageAt {k : Nat} (hk : k < 16) (p : Nat) : t.pageAt k p = s.pageAt k p := by
  rw [State.pageAt, h.keeper, h.fld (layoutReg_of_place (s.keeper_lt k) hk (i := 2) (by unfold R.kvpSMeta R.kvpSStatus; omega) (by decide)),
    State.pageAt]

theorem SameLayout.seqAt {k : Nat} (hk : k < 16) (q : Nat) : t.seqAt k q = s.seqAt k q := by
  rw [State.seqAt, h.keeper, h.fld (layoutReg_of_place (s.keeper_lt k) hk (i := 3) (by unfold R.kvpSSeqrec R.kvpSStatus; omega) (by decide)),
    State.seqAt]

theorem SameLayout.entryAt {k : Nat} (hk : k < 16) (q i : Nat) : t.entryAt k q i = s.entryAt k q i := by
  rw [State.entryAt, h.keeper, h.ptEntries hk,
    h.fld (layoutReg_of_place (s.keeper_lt k) hk (i := 4) (by unfold R.kvpSPtab R.kvpSStatus; omega) (by decide)), State.entryAt]

theorem SameLayout.stackLost (a : Nat) : t.stackLost a = s.stackLost a := by
  unfold State.stackLost
  cases ha : isHbm a with
  | false => rfl
  | true =>
    rw [h.fld (layoutReg_memStatus (octetOf_lt ha))]

theorem SameLayout.decBase {n : Nat} (hn : n < 8) (f : Fld) : t.fld (R.cxtDecBase n) f = s.fld (R.cxtDecBase n) f :=
  h.fld (layoutReg_of_cxt (by unfold R.cxtDecBase R.cxtErr R.mxeId; omega)) f

theorem SameLayout.decCtl {n : Nat} (hn : n < 8) (f : Fld) : t.fld (R.cxtDecCtl n) f = s.fld (R.cxtDecCtl n) f :=
  h.fld (layoutReg_of_cxt (by unfold R.cxtDecCtl R.cxtErr R.mxeId; omega)) f

theorem SameLayout.decoder (a : Nat) : t.decoder a = s.decoder a := by
  unfold State.decoder firstOf
  refine List.find?_congr fun n hn => ?_
  have hn := List.mem_range.mp hn
  rw [State.flag, h.decCtl hn, State.flag, h.decBase hn,
    h.fld (layoutReg_of_cxt (a := R.cxtDecSize n) (by unfold R.cxtDecSize R.cxtErr R.mxeId; omega))]

theorem SameLayout.cxlDown (a : Nat) : t.cxlDown a = s.cxlDown a := by
  unfold State.cxlDown
  rw [h.decoder]
  cases hdec : s.decoder a with
  | none => rfl
  | some n =>
    have hn : n < 8 := by
      unfold State.decoder firstOf at hdec
      exact List.mem_range.mp (List.mem_of_find?_eq_some hdec)
    have hport : t.decPort n a = s.decPort n a := by simp only [State.decPort, h.decCtl hn, h.decBase hn]
    have hlt : s.decPort n a < 4 := Nat.mod_lt _ (by decide)
    simp only [hport, State.flag, h.fld (layoutReg_of_port hlt)]

theorem SameLayout.lands_iff {a n : Nat} : Lands t a n ↔ Lands s a n := by
  rw [Lands, State.dropped, h.stackLost, h.decoder, h.cxlDown, State.asuPart_congr h.weave, Lands, State.dropped]

theorem SameLayout.writable {l : List (Nat × Nat)} (hw : Writable l s) : Writable l t :=
  fun r hr i n hin hi => h.lands_iff.mpr (hw r hr i n hin hi)

/-- With the same poison, the same reads fail. -/
theorem SameLayout.unreadable (hp : t.poison = s.poison) (a n : Nat) : t.unreadable a n = s.unreadable a n := by
  simp only [State.unreadable, State.err, State.badFabric, State.cxlCut, State.bad, hp, h.stackLost, h.decoder, h.cxlDown]

end

end Sys2Proof.Machine
end

section
/-! PROOFS. A KV pool as its instructions find it (R226, R227, R230-R234, R238): dispatch changes nothing of it, and what it holds decides
the fault of an instruction as it issues. -/

namespace Sys2Proof.Machine

/-- The records of pools stand: where they lie, every byte, and what the keepers hold. -/
structure SameKvRecords (s t : State) : Prop where
  layout : SameLayout s t
  kvp    : t.kvp = s.kvp
  memory : SameMemory s t

section
variable {s t : State} (h : SameKvRecords s t)
include h

theorem SameKvRecords.num (a n : Nat) : t.num a n = s.num a n := State.num_congr h.memory a n

theorem SameKvRecords.bytes (a n : Nat) : t.bytes a n = s.bytes a n := List.map_congr_left fun _ _ => h.memory _

theorem SameKvRecords.kv (k : Nat) : t.kv k = s.kv k := by rw [State.kv, h.kvp, State.kv]

variable {k : Nat} (hk : k < 16)
include hk

theorem SameKvRecords.refs (p : Nat) : t.refs k p = s.refs k p := by rw [State.refs, h.layout.pageAt hk, h.num, State.refs]

theorem SameKvRecords.moors (p : Nat) : t.moors k p = s.moors k p := by rw [State.moors, h.layout.pageAt hk, h.num, State.moors]

theorem SameKvRecords.pendingPage (p : Nat) : t.pendingPage k p = s.pendingPage k p := by
  rw [State.pendingPage, h.layout.pageAt hk, h.num, State.pendingPage]

theorem SameKvRecords.entry (q i : Nat) : t.entry k q i = s.entry k q i := by rw [State.entry, h.layout.entryAt hk, h.num, State.entry]

theorem SameKvRecords.seqLen (q : Nat) : t.seqLen k q = s.seqLen k q := by rw [State.seqLen, h.layout.seqAt hk, h.num, State.seqLen]

theorem SameKvRecords.live (q : Nat) : t.live k q = s.live k q := by rw [State.live, h.layout.seqAt hk, h.num, State.live]

end

/-- A pool and memory stand: what the keepers hold, every byte, what is poisoned, and every register below the pass sequencers'. -/
structure SamePool (s t : State) : Prop where
  weave  : t.weave = s.weave
  kvp    : t.kvp = s.kvp
  poison : t.poison = s.poison
  dry    : Dry s t
  regs   : ∀ a, a < R.psqId 0 → t.reg a = s.reg a

theorem SamePool.refl (s : State) : SamePool s s := ⟨rfl, rfl, rfl, .refl s, fun _ _ => rfl⟩

theorem SamePool.layout {s t : State} (h : SamePool s t) : SameLayout s t := ⟨h.weave, fun a ha => h.regs a ha.2.1⟩

theorem SamePool.records {s t : State} (h : SamePool s t) : SameKvRecords s t := ⟨h.layout, h.kvp, h.dry.same⟩

/-! ### dispatch -/

section
variable {z s : State} (h : SamePool z s)
include h

theorem SamePool.setReg {a : Nat} (ha : R.psqId 0 ≤ a) (v : Word) : SamePool z (s.setReg a v) :=
  ⟨h.weave, h.kvp, h.poison, State.setReg_dry a v h.dry, fun b hb => (s.reg_setReg_other a b v (by omega)).trans (h.regs b hb)⟩

theorem SamePool.setQ (k : Nat) (c : Psq) : SamePool z (s.setQ k c) := ⟨h.weave, h.kvp, h.poison, ⟨h.dry.mem, h.dry.undef⟩, h.regs⟩

theorem SamePool.foldl {β : Type} {f : State → β → State} (hf : ∀ u b, SamePool z u → SamePool z (f u b)) (l : List β) :
    SamePool z (l.foldl f s) :=
  List.foldlRecOn l f (motive := SamePool z) h (fun u hu b _ => hf u b hu)

theorem SamePool.takeTokens (k mask : Nat) : SamePool z (s.takeTokens k mask) :=
  h.foldl (fun _ _ hu => hu.setReg (by unfold R.psqId R.psqToken; omega) _) _

theorem SamePool.setOutst (k : Nat) (l : List Outst) : SamePool z (s.setOutst k l) :=
  (h.setQ k _).foldl (fun _ _ hu => hu.setReg (by unfold R.psqId R.psqInflight; omega) _) _

theorem SamePool.stepIndex (k x pc : Nat) : SamePool z (s.stepIndex k x pc) :=
  (((h.setReg (by unfold R.psqId R.psqPc; omega) _).setReg (by unfold R.psqId R.psqIndex; omega) _).setReg
    (by unfold R.psqId R.psqAhead; omega) _).setQ _ _

theorem SamePool.advance (k x pc : Nat) : SamePool z (s.advance k x pc) :=
  State.skipDone_rec (P := SamePool z) (fun _ hu => hu.setQ _ _) (fun _ _ hu => hu.stepIndex _ _ _) _ (h.stepIndex k x pc)

theorem SamePool.dispatchOut (k : Nat) {x : Nat} (hx : x < 3) (w unit : Nat) (issued : Bool) (desc chain : List Byte) (frame : Nat) :
    SamePool z (s.dispatchOut k x w unit issued desc chain frame) := by
  rw [State.dispatchOut_eq _ _ hx]
  exact (((h.takeTokens _ _).setQ _ _).setOutst _ _).advance _ _ _

end

/-! ### what the pool holds -/

section
variable {s t : State} (h : SamePool s t)
include h

theorem SamePool.unreadable (a n : Nat) : t.unreadable a n = s.unreadable a n := h.layout.unreadable h.poison a n

variable {k : Nat} (hk : k < 16)
include hk

theorem SamePool.status (f : Fld) : t.fld (R.kvpSStatus (t.keeper k) k) f = s.fld (R.kvpSStatus (s.keeper k) k) f := by
  have := s.keeper_lt k
  rw [h.layout.keeper, State.fld, h.regs _ (by unfold R.kvpSStatus R.psqId; omega), State.fld]

theorem SamePool.freePages : t.freePages k = s.freePages k := h.status hk _

theorem SamePool.kvReady : t.kvReady k = s.kvReady k := by
  simp only [State.kvReady, State.flag, h.status hk]

theorem SamePool.pagesNeeded (ntok : Nat) (l cw : List Nat) : t.pagesNeeded k ntok l cw = s.pagesNeeded k ntok l cw := by
  induction l generalizing cw with
  | nil => rfl
  | cons q l ih => simp only [State.pagesNeeded, h.records.live hk, h.records.seqLen hk, h.records.entry hk, h.records.refs hk, ih]

theorem SamePool.freeListBad (p n : Nat) : t.freeListBad k p n = s.freeListBad k p n := by
  induction n generalizing p with
  | zero => rfl
  | succ n ih => simp only [State.freeListBad, h.unreadable, h.layout.pageAt hk, h.records.num, ih]

/-- What an instruction raises as it issues depends on the pool alone. -/
theorem SamePool.kvIssueFault (opc : Nat) (d : KvD) (l : List Nat) : t.kvIssueFault k opc d l = s.kvIssueFault k opc d l := by
  have hrecord : t.kvRecordBad k l = s.kvRecordBad k l := by
    simp only [State.kvRecordBad, h.unreadable, h.layout.seqAt hk, h.layout.entryAt hk, h.layout.pageAt hk, h.records.live hk, h.records.seqLen hk,
      h.records.entry hk]
  have hseq : t.kvSeqBad k opc l = s.kvSeqBad k opc l := by simp only [State.kvSeqBad, h.layout.stake, h.records.live hk]
  have hpool : t.kvPoolFault k opc d l = s.kvPoolFault k opc d l := by
    simp only [State.kvPoolFault, hseq, h.records.live hk, h.records.seqLen hk, h.layout.ptEntries hk, h.records.refs hk, h.records.entry hk, h.freePages hk,
      h.pagesNeeded hk]
  simp only [State.kvIssueFault, h.kvReady hk, hrecord, hpool, h.records.kv, h.pagesNeeded hk, h.freeListBad hk]

end

end Sys2Proof.Machine
end

section
/-! PROOFS. A fault of a KV instruction (R141, R239): its record in KVP_ERR, which the stop that it begins leaves. -/

namespace Sys2Proof.Machine

/-- KVP_ERR of a die, or KVP_S_STATUS of a stake there. -/
def KeeperReg (a : Nat) : Prop := ∃ d k, d < 4 ∧ k < 16 ∧ (a = R.kvpErr d ∨ a = R.kvpSStatus d k)

section
variable {a : Nat} (h : KeeperReg a)
include h

theorem KeeperReg.lt_psqId : a < R.psqId 0 := by
  obtain ⟨d, k, hd, hk, rfl | rfl⟩ := h
  · unfold R.kvpErr R.psqId; omega
  · unfold R.kvpSStatus R.psqId; omega

theorem KeeperReg.ne_psq {b : Nat} (hb : R.psqId 0 ≤ b) : a ≠ b := by have := h.lt_psqId; omega

theorem KeeperReg.ne_rdxJStatus {j : Nat} (hj : j < 64) : a ≠ R.rdxJStatus j := by
  obtain ⟨d, k, hd, hk, rfl | rfl⟩ := h
  · unfold R.kvpErr R.rdxJStatus; omega
  · unfold R.kvpSStatus R.rdxJStatus; omega

theorem KeeperReg.ne_mxeStatus {e : Nat} (_ : e < 32) : a ≠ R.mxeStatus e := by
  obtain ⟨d, k, hd, hk, rfl | rfl⟩ := h
  · unfold R.kvpErr R.mxeStatus; omega
  · unfold R.kvpSStatus R.mxeStatus; omega

theorem KeeperReg.ne_vecDvuStatus {e : Nat} (_ : e < 32) : a ≠ R.vecDvuStatus e := by
  obtain ⟨d, k, hd, hk, rfl | rfl⟩ := h
  · unfold R.kvpErr R.vecDvuStatus; omega
  · unfold R.kvpSStatus R.vecDvuStatus; omega

theorem KeeperReg.ne_hifSEvt {k : Nat} (hk : k < 16) : a ≠ R.hifSEvt k := by
  obtain ⟨d, j, hd, hj, rfl | rfl⟩ := h
  · unfold R.kvpErr R.hifSEvt; omega
  · unfold R.kvpSStatus R.hifSEvt; omega

/-! ### the stop -/

theorem KeeperReg.reg_rollback (s : State) (k : Nat) (gone : List Outst) (x : Nat) : (s.rollback k gone x).reg a = s.reg a := by
  have hahead : a ≠ R.psqAhead k x := h.ne_psq (by unfold R.psqId R.psqAhead; omega)
  have hindex : a ≠ R.psqIndex k x := h.ne_psq (by unfold R.psqId R.psqIndex; omega)
  have hpc : a ≠ R.psqPc k x := h.ne_psq (by unfold R.psqId R.psqPc; omega)
  unfold State.rollback
  dsimp only
  split
  · rfl
  · split <;> simp [State.reg_setReg, hahead, hindex, hpc]

theorem KeeperReg.reg_unwind (s : State) (k : Nat) (o : Outst) : (s.unwind k o).reg a = s.reg a := by
  have hjob : a ≠ R.rdxJStatus (bits o.word 32 6) := h.ne_rdxJStatus (bits_lt o.word 32 6)
  unfold State.unwind
  dsimp only
  split
  · rfl
  · split
    · split
      · exact State.reg_setReg_other _ _ _ _ hjob
      · rfl
    · rfl

theorem KeeperReg.reg_giveTokens (s : State) (k mask : Nat) : (s.giveTokens k mask).reg a = s.reg a :=
  State.reg_forAll _ (fun u c _ => u.reg_setFld_other (h.ne_psq (by unfold R.psqId R.psqToken; omega)) _ _) s

theorem KeeperReg.reg_syncUnits (s : State) (k : Nat) : (s.syncUnits k).reg a = s.reg a :=
  State.reg_forAll _ (fun u e he => by
    have he := lt_of_mem_onesOf he
    rw [State.reg_syncDvu_other _ (h.ne_vecDvuStatus he), State.reg_syncMxe_other _ (h.ne_mxeStatus he)]) s

theorem KeeperReg.reg_withdraw (s : State) (k : Nat) : (s.withdraw k).reg a = s.reg a := by
  unfold State.withdraw State.withdrawSome
  dsimp only
  rw [State.setQ_reg, h.reg_syncUnits,
    State.reg_setOutst_other _ (fun x _ => h.ne_psq (by unfold R.psqId R.psqInflight; omega)),
    State.reg_foldl _ (fun u o _ => by rw [h.reg_unwind, h.reg_giveTokens]),
    State.reg_foldl _ (fun u x _ => h.reg_rollback u k _ x)]

theorem KeeperReg.reg_faultStop (s : State) {k : Nat} (hk : k < 16) : (s.faultStop k).reg a = s.reg a := by
  have hstatus : a ≠ R.psqStatus k := h.ne_psq (by unfold R.psqId R.psqStatus; omega)
  have hstop : ∀ u : State, (u.beginStop k F.psqStatusStopFault).reg a = u.reg a := fun u => by
    unfold State.beginStop State.stopNow State.setPst
    split
    · rw [State.reg_setFld_other _ hstatus, h.reg_withdraw, State.reg_setFld_other _ hstatus]
    · exact u.reg_setFld_other hstatus _ _
  rw [State.faultStop, hstop]
  split
  · rfl
  · exact s.reg_raiseEvent_other (h.ne_hifSEvt hk) _ _

/-- R239: what the keepers have recorded stands while a fault is raised. -/
theorem KeeperReg.reg_raiseFault (s : State) {k : Nat} (hk : k < 16) (x index code unit : Nat) (after : Bool) :
    (s.raiseFault k x index code unit after).reg a = s.reg a := by
  rw [State.raiseFault_eq, h.reg_faultStop _ hk, State.reg_noteFrec_other _ (h.ne_psq (by unfold R.psqId R.psqFrec0; omega))
    (h.ne_psq (by unfold R.psqId R.psqFrec1; omega))]

end

/-! ### the fault -/

/-- The word of KVP_ERR for a fault (R239). -/
def kvpErrWord (k x index code : Nat) : Word :=
  ((((0 : Word).setFld F.kvpErrCode code).setFld F.kvpErrStake k).setFld F.kvpErrStream x).setFld F.kvpErrIndex (index % 2 ^ 32)

theorem State.kvpErr_eq (s : State) (k x index code : Nat) :
    s.kvpErr k x index code = s.setReg (R.kvpErr (s.keeper k)) (kvpErrWord k x index code) := rfl

theorem fld_kvpErrWord_code {code : Nat} (h : code < 256) (k x index : Nat) : (kvpErrWord k x index code).fld F.kvpErrCode = code := by
  unfold kvpErrWord
  rw [Word.fld_setFld_other _ _ _ _ _ _ (by decide), Word.fld_setFld_other _ _ _ _ _ _ (by decide),
    Word.fld_setFld_other _ _ _ _ _ _ (by decide)]
  exact (Word.fld_setFld_same _ _ _ _ (by decide)).trans (Nat.mod_eq_of_lt h)

/-- The codes of KV faults fit the 8-bit CODE of a record. -/
theorem State.kvPoolFault_lt {s : State} {k opc c : Nat} {d : KvD} {l : List Nat} (h : s.kvPoolFault k opc d l = some c) : c < 256 := by
  obtain ⟨p, hp, rfl⟩ := Option.map_eq_some_iff.mp h
  have hp := List.mem_map_of_mem (f := Prod.snd) (List.mem_of_find?_eq_some hp)
  simp only [List.map_cons, List.map_nil, List.mem_cons, List.not_mem_nil, or_false] at hp
  omega

theorem State.kvIssueFault_lt {s : State} {k opc c : Nat} {d : KvD} {l : List Nat} {rec : Bool}
    (h : s.kvIssueFault k opc d l = some (rec, c)) : c < 256 := by
  unfold State.kvIssueFault at h
  split at h
  · cases h; decide
  · split at h
    · cases h; decide
    · split at h
      next hpool => cases h; exact State.kvPoolFault_lt hpool
      · split at h
        · cases h; decide
        · cases h

section
variable (s : State) {k x code : Nat} (hk : k < 16) (hc : code < 256) (index : Nat)
include hk hc

/-- R239: the keeper's record holds the code. -/
theorem State.fld_raiseKv_kvpErr : (s.raiseKv k x index code).fld (R.kvpErr (s.keeper k)) F.kvpErrCode = code := by
  have hreg : KeeperReg (R.kvpErr (s.keeper k)) := ⟨s.keeper k, k, s.keeper_lt k, hk, .inl rfl⟩
  rw [State.raiseKv, State.fld, hreg.reg_raiseFault _ hk, State.kvpErr_eq, State.reg_setReg_same, fld_kvpErrWord_code hc]

/-- R141: the stream's record holds the code where it is the first. -/
theorem State.raiseKv_faulted (hx : x < 3) : Faulted s (s.raiseKv k x index code) k x code index := by
  have := s.keeper_lt k
  exact (State.raiseFault_faulted _ hk hx hc _ _ _).of_frec0 (s.reg_setReg_other _ _ _ (by unfold R.psqFrec0 R.kvpErr; omega))

end

/-- A KV instruction that raises `code`: both records hold it, memory and the module's own stand (R239). -/
def KvRaises (c : Instr) (s : State) (k x code : Nat) : Prop :=
  Answers (exec c s) (fun t => Faulted s t k x code (s.indexOf k x) ∧ t.fld (R.kvpErr (s.keeper k)) F.kvpErrCode = code ∧
    SameMemory s t ∧ Apart s t)

theorem kvRaises_of_raiseKv {c : Instr} {s : State} {k x code : Nat} (hk : k < 16) (hx : x < 3) (hc : code < 256)
    (h : exec c s = .next (s.raiseKv k x (s.indexOf k x) code)) : KvRaises c s k x code :=
  ⟨_, h, s.raiseKv_faulted hk hc _ hx, s.fld_raiseKv_kvpErr hk hc _, (State.raiseKv_dry k x _ code (.refl s)).same,
    State.raiseKv_apart k x _ code (.refl s)⟩

end Sys2Proof.Machine
end

section
/-! PROOFS. KV instructions at the head of F or B (R229, R239): their checks in their order. -/

namespace Sys2Proof.Machine

theorem exec_kextend (k : Fin 16) (x : Strm) (s : State) : exec (.kextend k x) s = .next (s.kvOp k x.num 0x20) := rfl

theorem exec_kwrite (k : Fin 16) (x : Strm) (s : State) : exec (.kwrite k x) s = .next (s.kvOp k x.num 0x21) := rfl

theorem exec_kgather (k : Fin 16) (x : Strm) (s : State) : exec (.kgather k x) s = .next (s.kvOp k x.num 0x22) := rfl

theorem exec_kshare (k : Fin 16) (x : Strm) (s : State) : exec (.kshare k x) s = .next (s.kvOp k x.num 0x23) := rfl

theorem exec_kfree (k : Fin 16) (x : Strm) (s : State) : exec (.kfree k x) s = .next (s.kvOp k x.num 0x24) := rfl

theorem exec_kbasket (k : Fin 16) (x : Strm) (s : State) : exec (.kbasket k x) s = .next (s.kvOp k x.num 0x25) := rfl

/-- The state in which a KV instruction is dispatched, with its descriptor and basket as read (R229). -/
def State.kvHeld (s : State) (k x w : Nat) (bk : List Byte) : State :=
  s.dispatchOut k x w 0xFF false (s.bytes (bits w 64 52) 128) bk 0

section
variable {s : State} {k x w opc : Nat} (h : Ready s k x w) (ho : opcOf w = opc)
include h ho

theorem State.kvOp_reserved (hr : ¬ (bits w 32 32 = 0 ∧ bits w 116 12 = 0)) :
    s.kvOp k x opc = s.raiseKv k x (s.indexOf k x) 0x70 := by
  rw [State.kvOp, State.withHead_ready h (by simp [ho])]
  exact if_pos (not_and_or.mp hr)

variable (hr : bits w 32 32 = 0 ∧ bits w 116 12 = 0)
include hr

theorem State.kvOp_unready (hp : s.kvReady k = false) : s.kvOp k x opc = s.raiseKv k x (s.indexOf k x) 0x77 := by
  rw [State.kvOp, State.withHead_ready h (by simp [ho])]
  simp [hr, hp]

variable (hp : s.kvReady k = true)
include hp

theorem State.kvOp_descBad (hd : s.unreadable (bits w 64 52) 128 = true ∨
    s.kvDescBad k opc (bits w 64 52) (parseKv (s.bytes (bits w 64 52) 128)) = true) :
    s.kvOp k x opc = s.raiseKv k x (s.indexOf k x) 0x71 := by
  rw [State.kvOp, State.withHead_ready h (by simp [ho])]
  simp [hr, hp, hd]

variable (hread : s.unreadable (bits w 64 52) 128 = false)
  (hd : s.kvDescBad k opc (bits w 64 52) (parseKv (s.bytes (bits w 64 52) 128)) = false)
include hread hd

theorem State.kvOp_addrBad (ha : s.kvAddrBad k opc (parseKv (s.bytes (bits w 64 52) 128)) = true) :
    s.kvOp k x opc = s.raiseKv k x (s.indexOf k x) 0x78 := by
  rw [State.kvOp, State.withHead_ready h (by simp [ho])]
  simp [hr, hp, hread, hd, ha]

theorem State.kvOp_basketBad (ha : s.kvAddrBad k opc (parseKv (s.bytes (bits w 64 52) 128)) = false) (hop : kvBasketOp opc = true)
    (hb : s.unreadable (parseKv (s.bytes (bits w 64 52) 128)).basket 320 = true ∨
      basketBad (s.bytes (parseKv (s.bytes (bits w 64 52) 128)).basket 320) (s.stake k).level = true) :
    s.kvOp k x opc = s.raiseKv k x (s.indexOf k x) 0x71 := by
  rw [State.kvOp, State.withHead_ready h (by simp [ho])]
  simp [hr, hp, hread, hd, ha, hop, hb]

end

/-- What passes the checks is dispatched, and issues in its turn. -/
theorem State.kvOp_taken {s : State} {k x w opc : Nat} {d : KvD} {bk : List Byte} {l : List Nat} (h : Ready s k x w)
    (ht : KvTaken s k opc w d bk l) :
    s.kvOp k x opc = (s.kvHeld k x w bk).issueKv k ((s.kvHeld k x w bk).q k).outst.length := by
  obtain ⟨ho, hr, hr', hp, hread, rfl, hd, ha, rfl, hb, rfl, hrows⟩ := ht
  rw [State.kvOp, State.withHead_ready h (by simp [ho])]
  have hbasket : (kvBasketOp opc && (s.unreadable (parseKv (s.bytes (bits w 64 52) 128)).basket 320 || basketBad
      (if kvBasketOp opc then s.bytes (parseKv (s.bytes (bits w 64 52) 128)).basket 320 else []) (s.stake k).level)) = false := by
    cases hop : kvBasketOp opc with
    | false => rfl
    | true =>
      obtain ⟨hread, hgood⟩ := hb hop
      rw [hop, if_pos rfl] at hgood
      simp [hread, hgood]
  have hwrite : (opc == 0x21 && !(s.kvRowsIn k (parseKv (s.bytes (bits w 64 52) 128)) ((kvSeqs opc (parseKv (s.bytes (bits w 64 52) 128))
      (if kvBasketOp opc then s.bytes (parseKv (s.bytes (bits w 64 52) 128)).basket 320 else [])).length *
      (parseKv (s.bytes (bits w 64 52) 128)).ntok))) = false := by
    by_cases hop : opc = 0x21
    · simp [hrows hop]
    · simp [hop]
  simp only [hr, hr', hp, hread, hd, ha, hbasket, hwrite, ne_eq, not_true, or_self, if_false, Bool.not_true, Bool.false_eq_true,
    Bool.or_self]
  rfl

end Sys2Proof.Machine
end

section
/-! PROOFS. KV instructions as they issue (R129, R228-R239): the oldest that has not issued is the one just dispatched; it raises its
fault, or has its effect and is outstanding as issued. -/

namespace Sys2Proof.Machine

section
variable (s : State) {k x w : Nat} (bk : List Byte) (hx : x < 3)
include hx

/-- What a dispatched KV instruction is. -/
def State.kvNewest (s : State) (k x w : Nat) (bk : List Byte) : Outst := s.newOutst k x w 0xFF false (s.bytes (bits w 64 52) 128) bk 0

theorem State.outst_kvHeld : ((s.kvHeld k x w bk).q k).outst = (s.q k).outst ++ [s.kvNewest k x w bk] :=
  s.dispatchOut_outst k hx w _ _ _ _ _

theorem State.kvHeld_samePool : SamePool s (s.kvHeld k x w bk) := (SamePool.refl s).dispatchOut k hx w _ _ _ _ _

/-- A dispatch leaves PSQ_STATUS and the fault records. -/
theorem State.reg_kvHeld {a : Nat} (ha : a = R.psqStatus k ∨ FaultReg a) : (s.kvHeld k x w bk).reg a = s.reg a := by
  have hne : ∀ i, (i < 16 → a ≠ R.psqToken k i) ∧ (i < 3 → a ≠ R.psqInflight k i) ∧ a ≠ R.psqPc k x ∧ a ≠ R.psqIndex k x ∧
      a ≠ R.psqAhead k x := by
    intro i
    rcases ha with rfl | ha
    · unfold R.psqStatus R.psqToken R.psqInflight R.psqPc R.psqIndex R.psqAhead
      omega
    · exact ⟨fun hi => ha.ne_psqToken k hi, fun _ => ha.ne_psqInflight k i, ha.ne_psqPc k x, ha.ne_psqIndex k x, ha.ne_psqAhead k hx⟩
  obtain ⟨-, -, hpc, hindex, hahead⟩ := hne 0
  rw [State.kvHeld, State.dispatchOut_eq _ _ hx, State.reg_advance_other _ hpc hindex hahead,
    State.reg_enlist_other _ (fun i => (hne i).1) (fun i => (hne i).2.1)]

theorem State.holdSeal_kvHeld : (s.kvHeld k x w bk).flag (R.psqStatus k) F.psqStatusHoldSeal =
    s.flag (R.psqStatus k) F.psqStatusHoldSeal := State.flag_congr (s.reg_kvHeld bk hx (.inl rfl)) _

theorem State.gathers_kvHeld : (s.kvHeld k x w bk).gathers k = s.gathers k := by
  rw [State.gathers, s.outst_kvHeld bk hx, List.filter_append, List.filter_singleton]
  simp [State.kvNewest, State.newOutst, State.gathers]

/-- Nothing holds back what a stream that dispatches hands on. -/
theorem State.noIssue_kvHeld (h : Ready s k x w) : (s.kvHeld k x w bk).noIssue k = false := by
  have hstatus : ∀ f, (s.kvHeld k x w bk).flag (R.psqStatus k) f = s.flag (R.psqStatus k) f :=
    fun f => State.flag_congr (s.reg_kvHeld bk hx (.inl rfl)) f
  have hdisp := h.1
  simp only [State.dispatching, State.stopCause, State.held, Bool.and_eq_true, Bool.not_eq_true', Bool.or_eq_false_iff] at hdisp
  simp only [State.noIssue, State.stopCause, hstatus]
  simp [hdisp]

/-- R129: with the earlier KV instructions issued, the one to issue is the newest. -/
theorem State.unissued_kvHeld (hin : KvInOrder s k) (hop : 0x20 ≤ opcOf w ∧ opcOf w ≤ 0x25) :
    ((s.kvHeld k x w bk).q k).outst.find? (fun o => o.isKv && !o.issued) = some (s.kvNewest k x w bk) := by
  have hold : (s.q k).outst.find? (fun o => o.isKv && !o.issued) = none := by
    rw [List.find?_eq_none]
    intro o ho
    cases hkv : o.isKv with
    | false => simp
    | true => simp [hin o ho hkv]
  have hnew : ((s.kvNewest k x w bk).isKv && !(s.kvNewest k x w bk).issued) = true := by
    simp [State.kvNewest, State.newOutst, Outst.isKv, hop]
  rw [s.outst_kvHeld bk hx, List.find?_append, hold, Option.none_or]
  exact List.find?_cons_of_pos hnew

end

/-! ### one instruction issues -/

theorem Ready.holdSeal {s : State} {k x w : Nat} (h : Ready s k x w) : s.flag (R.psqStatus k) F.psqStatusHoldSeal = false := by
  have hdisp := h.1
  simp only [State.dispatching, State.held, Bool.and_eq_true, Bool.not_eq_true', Bool.or_eq_false_iff] at hdisp
  simp [hdisp]

/-- The state in which the fault of a record found poisoned, or of another kind, is raised (R238). -/
def State.metaPoisonIf (s : State) (k : Nat) (rec : Bool) : State := if rec then s.metaPoison k else s

theorem State.reg_metaPoisonIf (s : State) (k : Nat) (rec : Bool) {a : Nat} (ha : a ≠ R.kvpSStatus (s.keeper k) k) :
    (s.metaPoisonIf k rec).reg a = s.reg a := by
  cases rec
  · rfl
  · exact s.reg_setFld_other ha _ _

theorem State.holdSeal_metaPoisonIf (s : State) (k : Nat) (rec : Bool) :
    (s.metaPoisonIf k rec).flag (R.psqStatus k) F.psqStatusHoldSeal = s.flag (R.psqStatus k) F.psqStatusHoldSeal := by
  have := s.keeper_lt k
  exact State.flag_congr (s.reg_metaPoisonIf k rec (by unfold R.psqStatus R.kvpSStatus; omega)) _

/-- With no SEAL that holds the stake, the fault of an instruction that has not issued is that of the stream. -/
theorem State.faultOut_kv (s : State) {k : Nat} {o : Outst} (hx : o.strm < 3)
    (hseal : s.flag (R.psqStatus k) F.psqStatusHoldSeal = false) (c : Nat) :
    (s.kvpErr k o.strm o.index c).faultOut k o c 0xFF = s.raiseKv k o.strm o.index c := by
  have := s.keeper_lt k
  have herr : (s.kvpErr k o.strm o.index c).flag (R.psqStatus k) F.psqStatusHoldSeal = false :=
    (State.flag_congr (s.reg_setReg_other _ _ _ (by unfold R.psqStatus R.kvpErr; omega)) _).trans hseal
  rw [State.faultOut, State.holdSeal_raiseFault _ _ hx, herr, if_neg Bool.false_ne_true, State.raiseKv]

theorem State.issueKv_none {s : State} {k : Nat} (h : (s.q k).outst.find? (fun o => o.isKv && !o.issued) = none) (n : Nat) :
    s.issueKv k n = s := by
  cases n with
  | zero => rfl
  | succ n => rw [State.issueKv, h]

/-- A KV instruction as issued, with what its copies met. -/
def State.kvIssued (s : State) (k : Nat) (bad : Bool) (o : Outst) : Outst :=
  { o.issueAt (s.q k).nextTurn with acc := [[]], run := { o.run with poison := bad } }

/-- The KV instruction with dispatch number `n` has issued: it is marked so, and GATHERS follows. -/
def State.kvMark (s : State) (k n : Nat) (bad : Bool) : State := (s.updOutst k n (s.kvIssued k bad)).syncKv k

section
variable {u : State} {k : Nat} {o : Outst} {d : KvD} {l : List Nat}
  (hfind : (u.q k).outst.find? (fun o => o.isKv && !o.issued) = some o) (hgo : u.noIssue k = false) (hd : parseKv o.desc = d)
  (hl : kvSeqs (opcOf o.word) d o.chain = l)
include hfind hgo hd hl

theorem State.issueKv_fault (hg : opcOf o.word = 0x22 → (u.gathers k).length < 8) {rec : Bool} {c : Nat}
    (hf : u.kvIssueFault k (opcOf o.word) d l = some (rec, c)) (n : Nat) :
    u.issueKv k (n + 1) = ((u.metaPoisonIf k rec).kvpErr k o.strm o.index c).faultOut k o c 0xFF := by
  have hgate : (u.noIssue k || (opcOf o.word == 0x22 && decide (8 ≤ (u.gathers k).length))) = false := by
    by_cases hop : opcOf o.word = 0x22
    · simp [hop, hgo, hg hop]
    · simp [hop, hgo]
  rw [State.issueKv, hfind]
  simp only [hd, hl, hgate, Bool.false_eq_true, if_false, hf]
  rfl

theorem State.issueKv_issues (hne : opcOf o.word ≠ 0x22) (hf : u.kvIssueFault k (opcOf o.word) d l = none) (n : Nat) :
    u.issueKv k (n + 1) =
      ((u.kvEffect k (opcOf o.word) d l).1.kvMark k o.seq (u.kvEffect k (opcOf o.word) d l).2).issueKv k n := by
  have hpages : u.gatherPages k (opcOf o.word) d = [] := if_neg hne
  rw [State.issueKv, hfind]
  simp only [hd, hl, hgo, hne, beq_iff_eq, Bool.false_or, Bool.and_eq_true, false_and, if_false, hf, hpages]
  rfl

end

/-! ### the instruction just dispatched -/

section
variable {s : State} {k x w opc : Nat} {d : KvD} {bk : List Byte} {l : List Nat} (ht : KvTaken s k opc w d bk l)
include ht

theorem KvTaken.opc_newest (x : Nat) : opcOf (s.kvNewest k x w bk).word = opc := ht.1

theorem KvTaken.desc_newest (x : Nat) : parseKv (s.kvNewest k x w bk).desc = d := by
  obtain ⟨-, -, -, -, -, hd, -⟩ := ht
  exact hd.symm

theorem KvTaken.seqs_newest (x : Nat) : kvSeqs (opcOf (s.kvNewest k x w bk).word) d (s.kvNewest k x w bk).chain = l := by
  obtain ⟨ho, -, -, -, -, -, -, -, -, -, hl, -⟩ := ht
  rw [hl, ← ho]
  rfl

variable (hk : k < 16) (hx : x < 3) (h : Ready s k x w) (hop : 0x20 ≤ opc ∧ opc ≤ 0x25) (hin : KvInOrder s k)
include hk hx h hop hin

/-- R228, R238: the fault that an instruction meets as it issues is raised; a poisoned record sets META_POISON. -/
theorem State.kvOp_refused (hg : opc = 0x22 → (s.gathers k).length < 8) {rec : Bool} {c : Nat}
    (hf : s.kvIssueFault k opc d l = some (rec, c)) :
    s.kvOp k x opc = ((s.kvHeld k x w bk).metaPoisonIf k rec).raiseKv k x (s.indexOf k x) c := by
  have hfault := ((s.kvHeld_samePool (k := k) (w := w) bk hx).kvIssueFault hk opc d l).trans hf
  have hlen : ((s.kvHeld k x w bk).q k).outst.length = (s.q k).outst.length + 1 := by rw [s.outst_kvHeld bk hx]; simp
  rw [State.kvOp_taken h ht, hlen, State.issueKv_fault (s.unissued_kvHeld bk hx hin (ht.1 ▸ hop)) (s.noIssue_kvHeld bk hx h)
    (ht.desc_newest x) (ht.seqs_newest x) (fun e => by rw [s.gathers_kvHeld bk hx]; exact hg ((ht.opc_newest x).symm.trans e))
    ((ht.opc_newest x).symm ▸ hfault)]
  exact State.faultOut_kv _ (o := s.kvNewest k x w bk) hx
    ((State.holdSeal_metaPoisonIf _ k rec).trans ((s.holdSeal_kvHeld bk hx).trans h.holdSeal)) c

end

end Sys2Proof.Machine
end

section
/-! PROOFS. The faults of KV instructions in their order (R229, R238, R239). -/

namespace Sys2Proof.Machine

section
variable {s : State} {k x w opc : Nat} {d : KvD} {bk : List Byte} {l : List Nat} (ht : KvTaken s k opc w d bk l)
  (hk : k < 16) (hx : x < 3) (h : Ready s k x w) (hop : 0x20 ≤ opc ∧ opc ≤ 0x25) (hin : KvInOrder s k)
  (hg : opc = 0x22 → (s.gathers k).length < 8) {rec : Bool} {f : Nat} (hf : s.kvIssueFault k opc d l = some (rec, f))
include ht hk hx h hop hin hg hf

/-- R239: what an instruction meets as it issues stands in both records, and memory stands. -/
theorem kvRaises_of_issueFault {c : Instr} (hexec : exec c s = .next (s.kvOp k x opc)) : KvRaises c s k x f := by
  have hpool : SameLayout s ((s.kvHeld k x w bk).metaPoisonIf k rec) := by
    have hheld := (s.kvHeld_samePool (k := k) (w := w) bk hx).layout
    cases rec
    · exact hheld
    · exact hheld.setFld (.inr (.status (State.keeper_lt _ k) hk)) _ _
  have hfrec : ((s.kvHeld k x w bk).metaPoisonIf k rec).reg (R.psqFrec0 k x) = s.reg (R.psqFrec0 k x) := by
    have := (s.kvHeld k x w bk).keeper_lt k
    rw [State.reg_metaPoisonIf _ k rec (by unfold R.psqFrec0 R.kvpSStatus; omega),
      s.reg_kvHeld bk hx (.inr (.frec0 k hx))]
  have hdry : Dry s ((s.kvHeld k x w bk).metaPoisonIf k rec) := by
    have hheld := (s.kvHeld_samePool (k := k) (w := w) bk hx).dry
    cases rec
    · exact hheld
    · exact State.metaPoison_dry k hheld
  have heq := State.kvOp_refused ht hk hx h hop hin hg hf
  have hc := State.kvIssueFault_lt hf
  refine ⟨_, hexec, ?_, ?_, ?_, State.kvOp_apart k x opc (.refl s)⟩
  · rw [heq]
    exact (State.raiseKv_faulted _ hk hc _ hx).of_frec0 hfrec
  · rw [heq, ← hpool.keeper]
    exact State.fld_raiseKv_kvpErr _ hk hc _
  · rw [heq]
    exact (State.raiseKv_dry k x _ f hdry).same

/-- R238: a record found poisoned sets META_POISON. -/
theorem State.kvOp_metaPoison (hrec : rec = true) :
    (s.kvOp k x opc).flag (R.kvpSStatus (s.keeper k) k) F.kvpSStatusMetaPoison = true := by
  have hkeeper : (s.kvHeld k x w bk).keeper k = s.keeper k := (s.kvHeld_samePool bk hx).layout.keeper k
  have hkeep := s.keeper_lt k
  have hreg : KeeperReg (R.kvpSStatus (s.keeper k) k) := ⟨s.keeper k, k, hkeep, hk, .inr rfl⟩
  have hset : ((s.kvHeld k x w bk).metaPoison k).flag (R.kvpSStatus (s.keeper k) k) F.kvpSStatusMetaPoison = true := by
    rw [State.metaPoison, hkeeper, State.flag_eq_fld, State.fld_setFld_same _ _ _ _ (by decide)]
    decide
  rw [State.kvOp_refused ht hk hx h hop hin hg hf, hrec, State.raiseKv, State.flag_congr (hreg.reg_raiseFault _ hk _ _ _ _ _),
    State.kvpErr_eq]
  exact (State.flag_congr (State.reg_setReg_other _ _ _ _ (by
    have := State.keeper_lt ((s.kvHeld k x w bk).metaPoisonIf k true) k
    unfold R.kvpErr R.kvpSStatus
    omega)) _).trans hset

end

end Sys2Proof.Machine

open Sys2Proof Sys2Proof.Machine in
/-- Settles O29: the six are one `kvOp`; the checks of its dispatch in their order, then what it meets as it issues. -/
theorem kvChecks : Obligations.KvChecks := by
  intro s k x w h a d bk faulted go
  have hx : x.num < 3 := by cases x <;> decide
  have all : ∀ c opc, exec c s = .next (s.kvOp k x.num opc) → 0x20 ≤ opc ∧ opc ≤ 0x25 → go c opc := by
    intro c opc hexec hop ho word desc
    have fault : ∀ {code}, code < 256 → s.kvOp k x.num opc = s.raiseKv k x.num (s.indexOf k x.num) code → faulted c code :=
      fun hc heq => kvRaises_of_raiseKv k.isLt hx hc (heq ▸ hexec)
    refine ⟨fun hr => fault (by decide) (State.kvOp_reserved h ho hr), fun hr hp => fault (by decide) (State.kvOp_unready h ho hr hp),
      fun hr hp hd => fault (by decide) (State.kvOp_descBad h ho hr hp hd), ?_, ?_, ?_⟩
    · rintro ⟨hr, hp, hread, hd⟩ ha
      exact fault (by decide) (State.kvOp_addrBad h ho hr hp hread hd ha)
    · rintro ⟨hr, hp, hread, hd⟩ ha hb hbad
      exact fault (by decide) (State.kvOp_basketBad h ho hr hp hread hd ha hb hbad)
    · intro l ht hin hg rec f hf
      exact ⟨kvRaises_of_issueFault ht k.isLt hx h hop hin hg hf hexec, _, hexec,
        State.kvOp_metaPoison ht k.isLt hx h hop hin hg hf⟩
  exact ⟨all _ _ (exec_kextend ..) (by decide), all _ _ (exec_kwrite ..) (by decide), all _ _ (exec_kgather ..) (by decide),
    all _ _ (exec_kshare ..) (by decide), all _ _ (exec_kfree ..) (by decide), all _ _ (exec_kbasket ..) (by decide)⟩

end

section
/-! PROOFS. Reading back what a unit wrote: any part of one write, a record of a table, and what other writes leave (R81, R226). -/

namespace Sys2Proof.Machine

/-! ### parts of a list of bytes -/

section
variable {l m : List Byte} {i n c p : Nat}

theorem slice_append_left (h : i + n ≤ l.length) : slice (l ++ m) i n = slice l i n :=
  List.map_congr_left fun j hj => by
    have := List.mem_range.mp hj
    exact List.getD_append l m 0 (i + j) (by omega)

theorem slice_append_right : slice (l ++ m) (l.length + i) n = slice m i n :=
  List.map_congr_left fun j _ => by
    rw [List.getD_append_right l m 0 _ (by omega)]
    congr 1
    omega

theorem slice_all (l : List Byte) : slice l 0 l.length = l :=
  List.ext_getElem (by simp [slice]) fun i _ hi => by simp [slice, List.getElem?_eq_getElem hi]

theorem numAt_append_left (h : i + n ≤ l.length) : numAt (l ++ m) i n = numAt l i n := congrArg ofBytes (slice_append_left h)

theorem numAt_append_right : numAt (l ++ m) (l.length + i) n = numAt m i n := congrArg ofBytes slice_append_right

theorem numAt_toBytes (n v : Nat) : numAt (toBytes n v) 0 n = v % 256 ^ n := by
  have h := slice_all (toBytes n v)
  rw [length_toBytes] at h
  rw [numAt, h, ofBytes_toBytes]

theorem slice_replicate (b : Byte) (h : i + n ≤ c) : slice (List.replicate c b) i n = List.replicate n b := by
  refine List.ext_getElem (by simp [slice]) fun j hj _ => ?_
  have hj : i + j < c := by simp [slice] at hj; omega
  simp [slice, hj]

/-- A part of one record of a table of records of `c` bytes. -/
theorem slice_records {f : Nat → List Byte} (hf : ∀ p, (f p).length = c) {k : Nat} (hp : p < k) (h : i + n ≤ c) :
    slice ((List.range k).flatMap f) (c * p + i) n = slice (f p) i n := by
  have hlen : ∀ k, ((List.range k).flatMap f).length = c * k := fun k => by simp [List.length_flatMap, hf, Nat.mul_comm]
  induction k with
  | zero => omega
  | succ k ih =>
    rw [List.range_succ, List.flatMap_append, List.flatMap_singleton]
    by_cases hpk : p = k
    · subst hpk
      rw [← hlen p]
      exact slice_append_right
    · have hle : c * (p + 1) ≤ c * k := Nat.mul_le_mul_left c (by omega)
      rw [Nat.mul_add, Nat.mul_one] at hle
      rw [slice_append_left (by rw [hlen]; omega)]
      exact ih (by omega)

end

/-! ### memory -/

/-- Three ranges of which no two share a byte. -/
theorem separate_three {a m b n c r : Nat} : Separate [(a, m), (b, n), (c, r)] ↔
    (a + m ≤ b ∨ b + n ≤ a) ∧ (a + m ≤ c ∨ c + r ≤ a) ∧ (b + n ≤ c ∨ c + r ≤ b) := by
  simp [Separate, and_assoc]

section
variable {s : State} {a : Nat} {l : List Byte} (h : Lands s a l.length) {i n : Nat} (hi : i + n ≤ l.length)
include h hi

theorem State.bytes_wr_slice : (s.wr a l).bytes (a + i) n = slice l i n :=
  List.map_congr_left fun j hj => by
    have := List.mem_range.mp hj
    rw [s.byte_wr a _ l h.1 h.2, if_pos (by omega)]
    congr 1
    omega

theorem State.num_wr_slice : (s.wr a l).num (a + i) n = numAt l i n := congrArg ofBytes (State.bytes_wr_slice h hi)

end

section
variable {l : List (Nat × Nat)} {s t : State} (h : MemoryBut l s t) {a n : Nat} (hl : ∀ r ∈ l, a + n ≤ r.1 ∨ r.1 + r.2 ≤ a)
include h hl

theorem MemoryBut.bytes : t.bytes a n = s.bytes a n :=
  List.map_congr_left fun i hi => h _ fun r hr => by
    have := List.mem_range.mp hi
    have := hl r hr
    omega

theorem MemoryBut.num : t.num a n = s.num a n := congrArg ofBytes (h.bytes hl)

end

end Sys2Proof.Machine
end

section
/-! PROOFS. Writes of KVP_S_CMD (R22, R228, R371): which are taken, and what the outcomes of the write leave. -/

namespace Sys2Proof.Machine

/-! ### the outcomes of a decision window -/

theorem mem_outcomeRegs (m : Master) : R.lkWstat m.num ∈ outcomeRegs :=
  List.mem_cons_of_mem _ (List.mem_map_of_mem (List.mem_range.mpr (by have := masterNum_lt m; omega)))

theorem RegsOnly.wstat {z s : State} (h : RegsOnly outcomeRegs z s) (m : Master) (a out : Nat) :
    RegsOnly outcomeRegs z (s.wstat m a out) := by
  unfold State.wstat
  dsimp only
  split
  · exact (h.setReg (mem_outcomeRegs m) _).hostRejected List.mem_cons_self
  · exact h.setReg (mem_outcomeRegs m) _

/-- R371: a granted write and those it beats change the registers of outcomes alone. -/
theorem State.afterRivals_regsOnly (s : State) (m : Master) (rivals : List Master) (a : Nat) :
    RegsOnly outcomeRegs s (s.afterRivals m rivals a) :=
  (List.foldlRecOn rivals _ (motive := RegsOnly outcomeRegs s) ((RegsOnly.refl _ s).wstat m a 1) (fun u hu r _ => by
    split
    · exact hu
    · exact hu.wstat r a _)).answer _

theorem RegsOnly.dropWrite {z s : State} (h : RegsOnly outcomeRegs z s) (m : Master) : RegsOnly outcomeRegs z (s.dropWrite m) := by
  unfold State.dropWrite
  split
  · exact (h.hostRejected List.mem_cons_self).answer _
  · exact h.answer _

theorem RegsOnly.mono {l l' : List Nat} {z s : State} (h : RegsOnly l z s) (hl : l ⊆ l') : RegsOnly l' z s :=
  ⟨fun a ha => h.regs a (fun hm => ha (hl hm)), h.memory, h.held⟩

theorem State.afterRivals_layout (s : State) (m : Master) (rivals : List Master) (a : Nat) : SameLayout s (s.afterRivals m rivals a) :=
  ⟨(s.afterRivals_regsOnly m rivals a).weave, fun b hb => (s.afterRivals_access m rivals a).regs b hb.1⟩

/-! ### the write -/

/-- A write of KVP_S_CMD at die `d` may act (R228). -/
def KvCmdGood (s : State) (d k : Nat) : Prop := s.enabled k = true ∧ s.keeper k = d ∧ (s.pst k = 1 ∨ s.pst k = 4)

/-- The gate of KVP_S_CMD, as the keeper tests it. -/
theorem kvCmdGate_iff {s : State} {d k : Nat} : (!(s.enabled k) || decide (d ≠ s.keeper k) || !(s.pst k == stIdle || s.pst k == stStopped)) = true ↔
    ¬ KvCmdGood s d k := by
  simp only [KvCmdGood, Bool.or_eq_true, Bool.not_eq_true', decide_eq_true_eq, Bool.or_eq_false_iff, beq_eq_false_iff_ne, not_and_or, not_or,
    Bool.not_eq_true, stIdle, stStopped, ne_eq, or_assoc, eq_comm (a := d)]

/-- A granted write that its block refuses is dropped with an error response. -/
theorem State.command_refused {s t : State} {m : Master} {a : Nat} (h : Granted s m a) (rivals : List Master) {body : State → State}
    (hbody : body (s.afterRivals m rivals a) = t) (ht : t.resp = .error) : s.command m rivals a body = t.dropWrite m := by
  obtain ⟨hopen, hown⟩ := h
  have hrun : body (((s.wstat m a 1).supersede a m rivals).answer .done) = t := hbody
  simp [State.command, hopen, hown, hrun, ht]

section
variable {s : State} {m : Master} {d k : Nat} (rivals : List Master)

theorem kvCmdGood_afterRivals : KvCmdGood (s.afterRivals m rivals (R.kvpSCmd d k)) d k ↔ KvCmdGood s d k := by
  have hlay := s.afterRivals_layout m rivals (R.kvpSCmd d k)
  have hpst : (s.afterRivals m rivals (R.kvpSCmd d k)).pst k = s.pst k :=
    (s.afterRivals_access m rivals _).fld (by unfold R.psqStatus R.cxtPStatus; omega) _
  rw [KvCmdGood, hlay.keeper, hpst, State.enabled, hlay.weave, hlay.stake, ← State.enabled, KvCmdGood]

variable (hg : Granted s m (R.kvpSCmd d k)) {body : State → State}
include hg

theorem State.kvCmd_taken (h : KvCmdGood s d k) (hdone : (body (s.afterRivals m rivals (R.kvpSCmd d k))).resp = .done) :
    s.kvCmd m rivals d k body = body (s.afterRivals m rivals (R.kvpSCmd d k)) :=
  State.command_over_rivals hg rivals (if_neg fun hgate => kvCmdGate_iff.mp hgate ((kvCmdGood_afterRivals rivals).mpr h)) hdone

theorem State.kvCmd_refused (h : ¬ KvCmdGood s d k) :
    s.kvCmd m rivals d k body = ((s.afterRivals m rivals (R.kvpSCmd d k)).answer .error).dropWrite m :=
  State.command_refused hg rivals (if_pos (kvCmdGate_iff.mpr fun hgood => h ((kvCmdGood_afterRivals rivals).mp hgood))) rfl

/-- R228: at another KVP, or with the stake running, the write is dropped with an error response. -/
theorem State.kvCmd_dropped (h : ¬ KvCmdGood s d k) :
    (s.kvCmd m rivals d k body).resp = .error ∧ RegsOnly outcomeRegs s (s.kvCmd m rivals d k body) := by
  rw [State.kvCmd_refused rivals hg h]
  exact ⟨rfl, ((s.afterRivals_regsOnly m rivals _).answer _).dropWrite m⟩

end

end Sys2Proof.Machine
end

section
/-! PROOFS. INIT (R226, R228): the three tables it writes, as they read back, and the registers and the pool it sets. -/

namespace Sys2Proof.Machine

/-! ### records -/

theorem State.pageAt_eq (s : State) (k p : Nat) : s.pageAt k p = s.pageAt k 0 + 8 * p := by unfold State.pageAt; omega

theorem State.seqAt_eq (s : State) (k q : Nat) : s.seqAt k q = s.seqAt k 0 + 16 * q := by unfold State.seqAt; omega

theorem State.entryAt_eq (s : State) (k q i : Nat) : s.entryAt k q i = s.entryAt k 0 0 + 4 * (q * s.ptEntries k + i) := by
  unfold State.entryAt; omega

/-! ### the tables -/

/-- The page record of page `p` of `n`: free, and linked to the next (R228). -/
def freeRecord (n p : Nat) : List Byte := toBytes 4 0 ++ toBytes 4 (if p + 1 = n then noPage else p + 1)

theorem length_freeRecord (n p : Nat) : (freeRecord n p).length = 8 := by simp [freeRecord]

/-- The page records of a pool of `n` free pages. -/
def freeRecords (n : Nat) : List Byte := (List.range n).flatMap (fun p => freeRecord n p)

theorem length_freeRecords (n : Nat) : (freeRecords n).length = 8 * n := by
  simp [freeRecords, List.length_flatMap, length_freeRecord, Nat.mul_comm]

/-- The low half of a free page's record is zero: no reference, no mooring, not PENDING. -/
theorem numAt_freeRecord_low (n p : Nat) {i m : Nat} (h : i + m ≤ 4) : numAt (freeRecord n p) i m = numAt (toBytes 4 0) i m :=
  numAt_append_left (by rwa [length_toBytes])

theorem numAt_freeRecord_next (n p : Nat) : numAt (freeRecord n p) 4 4 = if p + 1 = n then noPage else (p + 1) % 2 ^ 32 := by
  have h := numAt_append_right (l := toBytes 4 0) (m := toBytes 4 (if p + 1 = n then noPage else p + 1)) (i := 0) (n := 4)
  rw [length_toBytes, numAt_toBytes] at h
  rw [freeRecord, h]
  split
  · decide
  · rfl

/-- The tables of a pool: pages, sequences, and the entries of their page tables, as INIT writes them. -/
def State.poolTables (s : State) (k : Nat) : State :=
  ((s.wr (s.pageAt k 0) (freeRecords (s.stake k).kvPages)).wr (s.seqAt k 0) (List.replicate (16 * (s.stake k).seqLimit) 0)).wr
    (s.entryAt k 0 0) (List.replicate (4 * ((s.stake k).seqLimit * s.ptEntries k)) 0xFF)

theorem State.poolTables_layout (s : State) (k : Nat) : SameLayout s (s.poolTables k) := (((SameLayout.refl s).wr _ _).wr _ _).wr _ _

/-- Where the three tables stand, each a first address and a length. -/
def State.tableSpans (s : State) (k : Nat) : List (Nat × Nat) :=
  [(s.pageAt k 0, 8 * (s.stake k).kvPages), (s.seqAt k 0, 16 * (s.stake k).seqLimit),
    (s.entryAt k 0 0, 4 * ((s.stake k).seqLimit * s.ptEntries k))]

theorem State.poolTables_memoryBut (s : State) (k : Nat) : MemoryBut (s.tableSpans k) s (s.poolTables k) := by
  have hpages := s.wr_memoryBut (s.pageAt k 0) (freeRecords (s.stake k).kvPages)
  have hseqs := (s.wr (s.pageAt k 0) (freeRecords (s.stake k).kvPages)).wr_memoryBut (s.seqAt k 0)
    (List.replicate (16 * (s.stake k).seqLimit) 0)
  have hentries := ((s.wr (s.pageAt k 0) (freeRecords (s.stake k).kvPages)).wr (s.seqAt k 0)
    (List.replicate (16 * (s.stake k).seqLimit) 0)).wr_memoryBut (s.entryAt k 0 0)
    (List.replicate (4 * ((s.stake k).seqLimit * s.ptEntries k)) 0xFF)
  rw [length_freeRecords] at hpages
  rw [List.length_replicate] at hseqs hentries
  exact ((hpages.mono (by simp [State.tableSpans])).trans (hseqs.mono (by simp [State.tableSpans]))).trans
    (hentries.mono (by simp [State.tableSpans]))

theorem Writable.lands {l : List (Nat × Nat)} {s : State} (h : Writable l s) {a n : Nat} (hmem : (a, n) ∈ l) (hn : 0 < n) : Lands s a n :=
  h _ hmem 0 n (by simp) hn

section
variable {s : State} {k : Nat} (hsep : Separate (s.tableSpans k)) (hw : Writable (s.tableSpans k) s)
include hsep hw

theorem State.num_poolTables_page {p i m : Nat} (hp : p < (s.stake k).kvPages) (hi : i + m ≤ 8) :
    (s.poolTables k).num (s.pageAt k p + i) m = numAt (freeRecord (s.stake k).kvPages p) i m := by
  obtain ⟨hpq, hpe, -⟩ := separate_three.mp hsep
  have hland := hw.lands (a := s.pageAt k 0) (n := 8 * (s.stake k).kvPages) (by simp [State.tableSpans]) (by omega)
  rw [← length_freeRecords] at hland
  rw [State.poolTables, (State.wr_memoryBut _ _ _).num (by
    rw [List.forall_mem_singleton, List.length_replicate, s.pageAt_eq k p]; dsimp only; omega), (State.wr_memoryBut _ _ _).num (by
    rw [List.forall_mem_singleton, List.length_replicate, s.pageAt_eq k p]; dsimp only; omega), s.pageAt_eq k p, Nat.add_assoc,
    State.num_wr_slice hland (by rw [length_freeRecords]; omega)]
  exact congrArg ofBytes (slice_records (length_freeRecord _) hp hi)

theorem State.num_poolTables_seq {q i m : Nat} (hq : q < (s.stake k).seqLimit) (hi : i + m ≤ 16) :
    (s.poolTables k).num (s.seqAt k q + i) m = ofBytes (List.replicate m 0) := by
  obtain ⟨-, -, hqe⟩ := separate_three.mp hsep
  have hland := ((SameLayout.refl s).wr (s.pageAt k 0) (freeRecords (s.stake k).kvPages)).lands_iff.mpr
    (hw.lands (a := s.seqAt k 0) (n := 16 * (s.stake k).seqLimit) (by simp [State.tableSpans]) (by omega))
  rw [← List.length_replicate (n := 16 * (s.stake k).seqLimit) (a := (0 : Byte))] at hland
  rw [State.poolTables, (State.wr_memoryBut _ _ _).num (by
    rw [List.forall_mem_singleton, List.length_replicate, s.seqAt_eq k q]; dsimp only; omega), s.seqAt_eq k q, Nat.add_assoc,
    State.num_wr_slice hland (by rw [List.length_replicate]; omega)]
  exact congrArg ofBytes (slice_replicate 0 (by omega))

omit hsep in
theorem State.num_poolTables_entry {i : Nat} (hi : i < (s.stake k).seqLimit * s.ptEntries k) :
    (s.poolTables k).num (s.entryAt k 0 i) 4 = noPage := by
  have hland := (((SameLayout.refl s).wr (s.pageAt k 0) (freeRecords (s.stake k).kvPages)).wr (s.seqAt k 0)
    (List.replicate (16 * (s.stake k).seqLimit) 0)).lands_iff.mpr
    (hw.lands (a := s.entryAt k 0 0) (n := 4 * ((s.stake k).seqLimit * s.ptEntries k)) (by simp [State.tableSpans]) (by omega))
  rw [← List.length_replicate (n := 4 * ((s.stake k).seqLimit * s.ptEntries k)) (a := (0xFF : Byte))] at hland
  rw [State.poolTables, s.entryAt_eq k 0 i, Nat.zero_mul, Nat.zero_add, State.num_wr_slice hland (by rw [List.length_replicate]; omega),
    numAt, slice_replicate _ (by omega)]
  rfl

end

/-! ### the registers -/

/-- The pool is READY with `n` free pages, the first at the head of the free list, its counters clear (R228). -/
def State.poolReady (s : State) (d k n : Nat) : State :=
  (((((((s.setKv k ⟨0, 0⟩).setReg (R.kvpSCntCow d k) 0).setReg (R.kvpSCntCopy d k) 0).setFld (R.kvpSStatus d k) F.kvpSStatusInitErr 0).setFld
    (R.kvpSStatus d k) F.kvpSStatusMetaPoison 0).setFld (R.kvpSStatus d k) F.kvpSStatusFree n).setFld (R.kvpSStatus d k) F.kvpSStatusReady 1)

section
variable (s : State) {d k : Nat} (n : Nat)

theorem State.poolReady_ready : (s.poolReady d k n).flag (R.kvpSStatus d k) F.kvpSStatusReady = true := by
  rw [State.flag_eq_fld, State.poolReady, State.fld_setFld_same _ _ _ _ (by decide)]
  decide

theorem State.poolReady_free : (s.poolReady d k n).fld (R.kvpSStatus d k) F.kvpSStatusFree = n % 2 ^ F.kvpSStatusFree.2 := by
  rw [State.poolReady, State.fld_setFld_fld _ _ _ _ _ (by decide), State.fld_setFld_same _ _ _ _ (by decide)]

theorem State.poolReady_metaPoison : (s.poolReady d k n).flag (R.kvpSStatus d k) F.kvpSStatusMetaPoison = false := by
  rw [State.flag_eq_fld, State.poolReady, State.fld_setFld_fld _ _ _ _ _ (by decide), State.fld_setFld_fld _ _ _ _ _ (by decide),
    State.fld_setFld_same _ _ _ _ (by decide)]
  decide

theorem State.poolReady_initErr : (s.poolReady d k n).flag (R.kvpSStatus d k) F.kvpSStatusInitErr = false := by
  rw [State.flag_eq_fld, State.poolReady, State.fld_setFld_fld _ _ _ _ _ (by decide), State.fld_setFld_fld _ _ _ _ _ (by decide),
    State.fld_setFld_fld _ _ _ _ _ (by decide), State.fld_setFld_same _ _ _ _ (by decide)]
  decide

theorem State.poolReady_cow : (s.poolReady d k n).reg (R.kvpSCntCow d k) = 0 := by
  have hst : R.kvpSCntCow d k ≠ R.kvpSStatus d k := by unfold R.kvpSCntCow R.kvpSStatus; omega
  have hcopy : R.kvpSCntCow d k ≠ R.kvpSCntCopy d k := by unfold R.kvpSCntCow R.kvpSCntCopy; omega
  rw [State.poolReady, State.reg_setFld_other _ hst, State.reg_setFld_other _ hst, State.reg_setFld_other _ hst,
    State.reg_setFld_other _ hst, State.reg_setReg_other _ _ _ _ hcopy, State.reg_setReg_same]

theorem State.poolReady_copy : (s.poolReady d k n).reg (R.kvpSCntCopy d k) = 0 := by
  have hst : R.kvpSCntCopy d k ≠ R.kvpSStatus d k := by unfold R.kvpSCntCopy R.kvpSStatus; omega
  rw [State.poolReady, State.reg_setFld_other _ hst, State.reg_setFld_other _ hst, State.reg_setFld_other _ hst,
    State.reg_setFld_other _ hst, State.reg_setReg_same]

theorem State.poolReady_head : ((s.poolReady d k n).kv k).head = 0 := by
  rw [State.poolReady, State.setFld_kv, State.setFld_kv, State.setFld_kv, State.setFld_kv, State.setReg_kv, State.setReg_kv,
    State.kv_setKv, if_pos rfl]

theorem State.poolReady_sameMemory : SameMemory s (s.poolReady d k n) := fun _ => by
  rw [State.poolReady, State.setFld_byte, State.setFld_byte, State.setFld_byte, State.setFld_byte, State.setReg_byte, State.setReg_byte,
    State.setKv_byte]

theorem State.poolReady_resp : (s.poolReady d k n).resp = s.resp := by
  rw [State.poolReady, State.setFld_resp, State.setFld_resp, State.setFld_resp, State.setFld_resp, State.setReg_resp, State.setReg_resp,
    State.setKv_resp]

theorem State.poolReady_layout (hd : d < 4) (hk : k < 16) : SameLayout s (s.poolReady d k n) :=
  (((((((SameLayout.refl s).setKv k _).setReg (.inr (.cow hd hk)) _).setReg (.inr (.copy hd hk)) _).setFld (.inr (.status hd hk)) _ _).setFld
    (.inr (.status hd hk)) _ _).setFld (.inr (.status hd hk)) _ _).setFld (.inr (.status hd hk)) _ _

end

/-! ### INIT -/

theorem SameLayout.kvInitBad {s t : State} (h : SameLayout s t) {k : Nat} (hk : k < 16) : t.kvInitBad k = s.kvInitBad k := by
  simp only [State.kvInitBad, State.inHbmOf, State.inStake, State.inSpadOf, h.geom hk, h.layers hk, h.rowb hk, h.ptEntries hk, h.stake,
    h.pageAt hk, h.seqAt hk, h.entryAt hk]

theorem State.kvInit_failed {s : State} {k : Nat} (h : s.kvInitBad k = true) :
    s.kvInit k = s.setFld (R.kvpSStatus (s.keeper k) k) F.kvpSStatusInitErr 1 := if_pos h

theorem State.kvInit_passed {s : State} {k : Nat} (hk : k < 16) (h : s.kvInitBad k = false) :
    s.kvInit k = (s.poolTables k).poolReady (s.keeper k) k (s.stake k).kvPages := by
  have h1 := fun b => (SameLayout.refl s).wr (s.pageAt k 0) b
  have h2 := fun b b' => (h1 b).wr (s.seqAt k 0) b'
  have h3 := fun b b' b'' => (h2 b b').wr (s.entryAt k 0 0) b''
  rw [State.kvInit, if_neg (by simp [h])]
  simp only [fun b => (h1 b).seqAt hk, fun b => (h1 b).stake, fun b b' => (h2 b b').entryAt hk, fun b b' => (h2 b b').stake,
    fun b b' => (h2 b b').ptEntries hk, fun b b' b'' => (h3 b b' b'').keeper, State.poolReady, State.poolTables, freeRecords, freeRecord]

end Sys2Proof.Machine
end

section
/-! PROOFS. INIT and RELEASE of a pool (R228). -/

namespace Sys2Proof.Machine

section
variable {s t : State} {k : Nat} (h : SameLayout s t) (hk : k < 16)
include h hk

theorem SameLayout.tableSpans : t.tableSpans k = s.tableSpans k := by
  simp only [State.tableSpans, h.pageAt hk, h.seqAt hk, h.entryAt hk, h.ptEntries hk, h.stake]

end

/-- What a granted INIT of a pool whose checks pass has left (R228). -/
def State.initDone (s : State) (m : Master) (rivals : List Master) (k : Nat) : State :=
  ((s.afterRivals m rivals (R.kvpSCmd (s.keeper k) k)).poolTables k).poolReady (s.keeper k) k (s.stake k).kvPages

theorem State.initDone_resp (s : State) (m : Master) (rivals : List Master) (k : Nat) : (s.initDone m rivals k).resp = .done := by
  rw [State.initDone, State.poolReady_resp, State.poolTables, State.wr_resp, State.wr_resp, State.wr_resp]
  rfl

section
variable {s : State} {m : Master} {rivals : List Master} {d k : Nat} (hg : Granted s m (R.kvpSCmd d k)) (hk : k < 16)
  (hgood : KvCmdGood s d k)
include hg hk hgood

theorem State.kvCmd_init_passed (h : s.kvInitBad k = false) : s.kvCmd m rivals d k (fun s => s.kvInit k) = s.initDone m rivals k := by
  obtain ⟨hen, rfl, hpst⟩ := hgood
  have hlay := s.afterRivals_layout m rivals (R.kvpSCmd (s.keeper k) k)
  have hinit : (s.afterRivals m rivals (R.kvpSCmd (s.keeper k) k)).kvInit k = s.initDone m rivals k := by
    rw [State.kvInit_passed hk ((hlay.kvInitBad hk).trans h), hlay.keeper, hlay.stake, State.initDone]
  exact (State.kvCmd_taken rivals hg ⟨hen, rfl, hpst⟩ (by rw [hinit, State.initDone_resp])).trans hinit

omit hk in
/-- A write that acts on the keeper's status alone. -/
theorem State.kvCmd_status {f : Fld} {v : Nat} {body : State → State} (hbody : ∀ u, SameLayout s u →
    body u = u.setFld (R.kvpSStatus d k) f v) : s.kvCmd m rivals d k body =
      (s.afterRivals m rivals (R.kvpSCmd d k)).setFld (R.kvpSStatus d k) f v := by
  have heq := hbody _ (s.afterRivals_layout m rivals (R.kvpSCmd d k))
  rw [State.kvCmd_taken rivals hg hgood (by rw [heq]; rfl), heq]

end

/-- With the outcomes, KVP_S_STATUS alone changes. -/
theorem State.status_regsOnly (s : State) (m : Master) (rivals : List Master) (d k : Nat) (f : Fld) (v : Nat) :
    RegsOnly (R.kvpSStatus d k :: outcomeRegs) s ((s.afterRivals m rivals (R.kvpSCmd d k)).setFld (R.kvpSStatus d k) f v) :=
  ((s.afterRivals_regsOnly m rivals _).mono (List.subset_cons_self _ _)).setFld List.mem_cons_self f v

/-! ### a pool after INIT -/

theorem State.num_initDone (s : State) (m : Master) (rivals : List Master) (k a n : Nat) : (s.initDone m rivals k).num a n =
    ((s.afterRivals m rivals (R.kvpSCmd (s.keeper k) k)).poolTables k).num a n := by
  rw [State.initDone, State.num_congr (State.poolReady_sameMemory _ _)]

section
variable (s : State) (m : Master) (rivals : List Master) {k : Nat} (hk : k < 16)
include hk

theorem State.initDone_layout : SameLayout s (s.initDone m rivals k) :=
  ((s.afterRivals_layout m rivals _).trans (State.poolTables_layout _ k)).trans (State.poolReady_layout _ _ (s.keeper_lt k) hk)

theorem State.initDone_memoryBut : MemoryBut (s.tableSpans k) s (s.initDone m rivals k) := by
  have hlay := s.afterRivals_layout m rivals (R.kvpSCmd (s.keeper k) k)
  have htables := State.poolTables_memoryBut (s.afterRivals m rivals (R.kvpSCmd (s.keeper k) k)) k
  rw [hlay.tableSpans hk] at htables
  exact (((s.afterRivals_dry m rivals _).same.but _).trans htables).trans ((State.poolReady_sameMemory _ _).but _)

end

section
variable {s : State} {k : Nat} (hk : k < 16) (hsep : Separate (s.tableSpans k)) (hw : Writable (s.tableSpans k) s) (m : Master)
  (rivals : List Master)
include hk hsep hw

/-- A part of a page record after INIT. -/
theorem State.num_initDone_page {p i n : Nat} (hp : p < (s.stake k).kvPages) (hi : i + n ≤ 8) :
    (s.initDone m rivals k).num (s.pageAt k p + i) n = numAt (freeRecord (s.stake k).kvPages p) i n := by
  have hlay := s.afterRivals_layout m rivals (R.kvpSCmd (s.keeper k) k)
  have hspans := hlay.tableSpans hk
  have hnum := State.num_poolTables_page (s := s.afterRivals m rivals (R.kvpSCmd (s.keeper k) k)) (k := k) (by rwa [hspans])
    (by rw [hspans]; exact hlay.writable hw) (p := p) (hlay.stake k ▸ hp) hi
  rw [hlay.pageAt hk, hlay.stake] at hnum
  rw [State.num_initDone, hnum]

/-- A part of a sequence record after INIT. -/
theorem State.num_initDone_seq {q i n : Nat} (hq : q < (s.stake k).seqLimit) (hi : i + n ≤ 16) :
    (s.initDone m rivals k).num (s.seqAt k q + i) n = ofBytes (List.replicate n 0) := by
  have hlay := s.afterRivals_layout m rivals (R.kvpSCmd (s.keeper k) k)
  have hspans := hlay.tableSpans hk
  have hnum := State.num_poolTables_seq (s := s.afterRivals m rivals (R.kvpSCmd (s.keeper k) k)) (k := k) (by rwa [hspans])
    (by rw [hspans]; exact hlay.writable hw) (q := q) (hlay.stake k ▸ hq) hi
  rw [hlay.seqAt hk] at hnum
  rw [State.num_initDone, hnum]

omit hsep in
/-- A table entry after INIT. -/
theorem State.num_initDone_entry {i : Nat} (hi : i < (s.stake k).seqLimit * s.ptEntries k) :
    (s.initDone m rivals k).num (s.entryAt k 0 i) 4 = noPage := by
  have hlay := s.afterRivals_layout m rivals (R.kvpSCmd (s.keeper k) k)
  have hnum := State.num_poolTables_entry (s := s.afterRivals m rivals (R.kvpSCmd (s.keeper k) k)) (k := k)
    (by rw [hlay.tableSpans hk]; exact hlay.writable hw) (i := i) (by rwa [hlay.stake, hlay.ptEntries hk])
  rw [hlay.entryAt hk] at hnum
  rw [State.num_initDone, hnum]

/-- R228: every page is free and linked to the next. -/
theorem State.initDone_page {p : Nat} (hp : p < (s.stake k).kvPages) :
    (s.initDone m rivals k).refs k p = 0 ∧ (s.initDone m rivals k).moors k p = 0 ∧ (s.initDone m rivals k).pendingPage k p = false ∧
      (s.initDone m rivals k).num ((s.initDone m rivals k).pageAt k p + 4) 4 =
        (if p + 1 = (s.stake k).kvPages then noPage else (p + 1) % 2 ^ 32) := by
  have hnum := fun i n => State.num_initDone_page hk hsep hw m rivals hp (i := i) (n := n)
  simp only [State.refs, State.moors, State.pendingPage, (s.initDone_layout m rivals hk).pageAt hk]
  refine ⟨?_, ?_, ?_, (hnum 4 4 (by decide)).trans (numAt_freeRecord_next _ p)⟩
  · rw [← Nat.add_zero (s.pageAt k p), hnum 0 2 (by decide), numAt_freeRecord_low _ p (by decide)]
    rfl
  · exact (hnum 2 1 (by decide)).trans (numAt_freeRecord_low _ p (by decide))
  · rw [hnum 3 1 (by decide), numAt_freeRecord_low _ p (by decide)]
    rfl

/-- R228: no sequence is LIVE. -/
theorem State.initDone_seq {q : Nat} (hq : q < (s.stake k).seqLimit) :
    (s.initDone m rivals k).live k q = false ∧ (s.initDone m rivals k).seqLen k q = 0 := by
  have hnum := fun i n => State.num_initDone_seq hk hsep hw m rivals hq (i := i) (n := n)
  simp only [State.live, State.seqLen, (s.initDone_layout m rivals hk).seqAt hk]
  exact ⟨by rw [hnum 4 1 (by decide)]; rfl, by rw [← Nat.add_zero (s.seqAt k q), hnum 0 4 (by decide)]; rfl⟩

end

end Sys2Proof.Machine

open Sys2Proof Sys2Proof.Machine in
/-- Settles O32: with a granted write that may act, INIT is its tables and its registers, a failed INIT and RELEASE are one field of
KVP_S_STATUS, and any other write is dropped with the outcomes alone recorded. -/
theorem kvPool : Obligations.KvPool := by
  intro s m rivals d k hg a good n lim pt
  have hinit : exec (.init m rivals d k) s = .next (s.kvCmd m rivals d k (fun s => s.kvInit k)) := rfl
  have hrelease : exec (.release m rivals d k) s =
      .next (s.kvCmd m rivals d k (fun s => s.setFld (R.kvpSStatus (s.keeper k) k) F.kvpSStatusReady 0)) := rfl
  have hapartInit : Apart s (s.kvCmd m rivals d k (fun s => s.kvInit k)) :=
    State.kvCmd_apart m rivals d k _ (fun _ hu => State.kvInit_apart k hu) (.refl s)
  have hapartRelease : Apart s (s.kvCmd m rivals d k (fun s => s.setFld (R.kvpSStatus (s.keeper k) k) F.kvpSStatusReady 0)) :=
    State.kvCmd_apart m rivals d k _ (fun u hu => State.setFld_apart _ _ _ (R.kvpSStatus_far _ _) hu) (.refl s)
  refine ⟨?_, ?_, ?_, fun hbad => ⟨⟨_, hinit, ?_⟩, ⟨_, hrelease, ?_⟩⟩⟩
  · intro hgood hpass l hsep hw
    have heq := State.kvCmd_init_passed hg k.isLt hgood hpass (rivals := rivals)
    rw [heq] at hinit hapartInit
    have hlay := s.initDone_layout m rivals k.isLt
    have hkeeper : s.keeper k = d := hgood.2.1
    have hready : (s.initDone m rivals k).flag a F.kvpSStatusReady = true := by
      rw [State.initDone, hkeeper]
      exact State.poolReady_ready _ _
    refine ⟨_, hinit, hready, ?_, ?_, ?_, ?_, ?_, ?_, fun p hp => State.initDone_page k.isLt hsep hw m rivals hp,
      fun q hq => State.initDone_seq k.isLt hsep hw m rivals hq, fun i hi => State.num_initDone_entry k.isLt hw m rivals hi,
      s.initDone_memoryBut m rivals k.isLt, ?_, hapartInit⟩
    · rw [State.initDone, hkeeper]
      exact State.poolReady_free _ _
    · rw [State.kvReady, hlay.keeper, hkeeper, hready, State.initDone, hkeeper, State.poolReady_metaPoison]
      rfl
    · rw [State.initDone, hkeeper]
      exact State.poolReady_initErr _ _
    · rw [State.initDone, hkeeper]
      exact State.poolReady_cow _ _
    · rw [State.initDone, hkeeper]
      exact State.poolReady_copy _ _
    · rw [State.initDone]
      exact State.poolReady_head _ _
    · exact State.initDone_resp s m rivals k
  · intro hgood hfail
    have honly := s.status_regsOnly m rivals d k F.kvpSStatusInitErr 1
    have heq := State.kvCmd_status hg hgood (rivals := rivals) (f := F.kvpSStatusInitErr) (v := 1) (body := fun s => s.kvInit k)
      (fun u hu => by
        rw [State.kvInit_failed ((hu.kvInitBad k.isLt).trans hfail), hu.keeper, hgood.2.1])
    rw [← heq] at honly
    refine ⟨_, hinit, ?_, ?_, honly.regs, honly.memory, hapartInit⟩
    · rw [heq, State.flag_eq_fld, State.fld_setFld_same _ _ _ _ (by decide)]
      decide
    · rw [heq, State.flag_eq_fld, State.fld_setFld_fld _ _ _ _ _ (by decide), ← State.flag_eq_fld]
      exact (s.afterRivals_access m rivals _).flag (by unfold R.kvpSStatus R.cxtPStatus; omega) _
  · intro hgood
    have honly := s.status_regsOnly m rivals d k F.kvpSStatusReady 0
    have heq := State.kvCmd_status hg hgood (rivals := rivals) (f := F.kvpSStatusReady) (v := 0)
      (body := fun s => s.setFld (R.kvpSStatus (s.keeper k) k) F.kvpSStatusReady 0) (fun u hu => by
        rw [hu.keeper, hgood.2.1])
    rw [← heq] at honly
    refine ⟨_, hrelease, ?_, honly.regs, honly.memory, ?_, hapartRelease⟩
    · rw [heq, State.flag_eq_fld, State.fld_setFld_same _ _ _ _ (by decide)]
      decide
    · rw [heq]
      rfl
  · have hdrop := State.kvCmd_dropped rivals hg hbad (body := fun s => s.kvInit k)
    exact ⟨hdrop.1, hdrop.2.regs, hdrop.2.memory, hapartInit⟩
  · have hdrop := State.kvCmd_dropped rivals hg hbad (body := fun s => s.setFld (R.kvpSStatus (s.keeper k) k) F.kvpSStatusReady 0)
    exact ⟨hdrop.1, hdrop.2.regs, hdrop.2.memory, hapartRelease⟩

end

section
/-! PROOFS. What the effect of any KV instruction leaves (R230-R234, R237): where the pool lies, and the pass sequencers. -/

namespace Sys2Proof.Machine

theorem KvCount.lt_psqId {a : Nat} (h : KvCount a) : a < R.psqId 0 := by
  rcases h with rfl | ⟨d, k, hd, hk, rfl | rfl | rfl⟩
  · decide
  · unfold R.kvpSStatus R.psqId; omega
  · unfold R.kvpSCntCow R.psqId; omega
  · unfold R.kvpSCntCopy R.psqId; omega

/-- The work of the KV page manager on a pool: pools lie where they lay, and the pass sequencers stand. -/
structure KvWork (s t : State) : Prop where
  layout : SameLayout s t
  seqs   : SameSequencers s t

theorem KvWork.refl (s : State) : KvWork s s := ⟨.refl s, .refl s⟩

section
variable {z s : State} (h : KvWork z s)
include h

theorem KvWork.setReg {a : Nat} (ha : KvCount a) (v : Word) : KvWork z (s.setReg a v) :=
  ⟨h.layout.setReg (.inr ha) v,
    ⟨h.seqs.q, fun b hb => (s.reg_setReg_other a b v (by have := ha.lt_psqId; omega)).trans (h.seqs.regs b hb)⟩⟩

theorem KvWork.setKv (k : Nat) (c : Kvp) : KvWork z (s.setKv k c) := ⟨h.layout.setKv k c, ⟨h.seqs.q, h.seqs.regs⟩⟩

theorem KvWork.lose (lo hi : Nat) : KvWork z (s.lose lo hi) := ⟨h.layout.lose lo hi, ⟨h.seqs.q, h.seqs.regs⟩⟩

theorem KvWork.wr (a : Nat) (l : List Byte) : KvWork z (s.wr a l) := ⟨h.layout.wr a l, h.seqs.wr a l⟩

theorem KvWork.wrPoison (a n : Nat) : KvWork z (s.wrPoison a n) := ⟨h.layout.wrPoison a n, h.seqs.wrPoison a n⟩

theorem KvWork.foldl {β : Type} {f : State → β → State} (hf : ∀ u b, KvWork z u → KvWork z (f u b)) (l : List β) : KvWork z (l.foldl f s) :=
  List.foldlRecOn l f (motive := KvWork z) h (fun u hu b _ => hf u b hu)

theorem KvWork.setEntry (k q i p : Nat) : KvWork z (s.setEntry k q i p) := h.wr _ _

theorem KvWork.setPage (k p r m : Nat) (b : Bool) : KvWork z (s.setPage k p r m b) := h.wr _ _

theorem KvWork.setSeq (k q n : Nat) (b : Bool) : KvWork z (s.setSeq k q n b) := h.wr _ _

theorem KvWork.undefineRows (k q len ntok : Nat) : KvWork z (s.undefineRows k q len ntok) :=
  h.foldl (fun _ _ hu => hu.foldl (fun _ _ hv => hv.lose _ _) _) _

theorem KvWork.kvBaskets (k : Nat) (d : KvD) : KvWork z (s.kvBaskets k d) := (h.wr _ _).foldl (fun _ _ hu => hu.wr _ _) _

theorem KvWork.kvShare (k : Nat) (d : KvD) : KvWork z (s.kvShare k d) :=
  (h.foldl (fun _ _ hu => (hu.setEntry _ _ _ _).setPage _ _ _ _ _) _).setSeq _ _ _ _

variable {k : Nat} (hk : k < 16)
include hk

theorem KvWork.setFreePages (n : Nat) : KvWork z (s.setFreePages k n) := h.setReg (.status (s.keeper_lt k) hk) _

theorem KvWork.freePage (p : Nat) : KvWork z (s.freePage k p) := (((h.setPage k p 0 0 false).wr _ _).setKv k _).setFreePages hk _

theorem KvWork.takePage {p : Nat} {t : State} (ht : s.takePage k = some (p, t)) : KvWork z t := by
  unfold State.takePage at ht
  dsimp only at ht
  split at ht
  · cases ht
  · cases ht
    exact ((h.setKv k _).setPage _ _ _ _ _).setFreePages hk _

theorem KvWork.dropRef (p : Nat) : KvWork z (s.dropRef k p) := by
  unfold State.dropRef
  dsimp only
  split
  · exact h.setPage _ _ _ _ _
  · split
    · exact h.freePage hk p
    · exact h.setPage _ _ _ _ _

theorem KvWork.copyPiece (src dst n : Nat) : KvWork z (s.copyPiece k src dst n).1 := by
  have hcount := (h.setKv k { s.kv k with copied := (s.kv k).copied + n }).setReg
    (.copy (State.keeper_lt (s.setKv k { s.kv k with copied := (s.kv k).copied + n }) k) hk) (BitVec.ofNat 64 (((s.kv k).copied + n) / 64))
  unfold State.copyPiece
  dsimp only
  split
  · exact hcount.wrPoison _ _
  · exact hcount.wr _ _

theorem KvWork.copyPieces (l : List (Nat × Nat × Nat)) : KvWork z (s.copyPieces k l).1 :=
  List.foldlRecOn l _ (motive := fun p : State × Bool => KvWork z p.1) h (fun _ hu _ _ => hu.copyPiece hk _ _ _)

theorem KvWork.kvFree (q : Nat) : KvWork z (s.kvFree k q) :=
  (h.foldl (fun _ _ hu => (hu.dropRef hk _).setEntry _ _ _ _) _).setSeq _ _ _ _

end

section
variable {k : Nat} (hk : k < 16)
include hk

theorem KvWork.growPages {z s t : State} (h : KvWork z s) {q i n : Nat} (ht : s.growPages k q i n = some t) : KvWork z t := by
  induction n generalizing s i with
  | zero => cases ht; exact h
  | succ n ih =>
    unfold State.growPages at ht
    split at ht
    · cases ht
    next hpage => exact ih ((h.takePage hk hpage).setEntry _ _ _ _) ht

theorem KvWork.extendSeq {z s t : State} (h : KvWork z s) {ntok q : Nat} {b : Bool} (ht : s.extendSeq k ntok q = some (t, b)) :
    KvWork z t := by
  unfold State.extendSeq at ht
  dsimp only at ht
  generalize (if s.live k q then s.seqLen k q else 0) = len at ht
  split at ht
  · cases ht
  next u c hcow =>
    have hu : KvWork z u := by
      split at hcow
      · split at hcow
        · cases hcow
        next hpage =>
          cases hcow
          exact ((((h.takePage hk hpage).copyPieces hk _).setEntry _ _ _ _).dropRef hk _).setReg (.cow (State.keeper_lt _ k) hk) _
      · cases hcow
        exact h
    split at ht
    · cases ht
    next hgrow =>
      cases ht
      exact ((hu.growPages hk hgrow).setSeq _ _ _ _).undefineRows _ _ _ _

theorem KvWork.extendAll {z s t : State} (h : KvWork z s) {ntok : Nat} {l : List Nat} {b : Bool}
    (ht : s.extendAll k ntok l = some (t, b)) : KvWork z t := by
  induction l generalizing s b with
  | nil => cases ht; exact h
  | cons q l ih =>
    unfold State.extendAll at ht
    split at ht
    · cases ht
    next hseq =>
      obtain ⟨⟨v, c⟩, hv, heq⟩ := Option.map_eq_some_iff.mp ht
      cases heq
      exact ih (h.extendSeq hk hseq) hv

/-- R230-R237: an effect leaves where pools lie, and the pass sequencers. -/
theorem State.kvEffect_work (s : State) (opc : Nat) (d : KvD) (l : List Nat) : KvWork s (s.kvEffect k opc d l).1 := by
  have h := KvWork.refl s
  unfold State.kvEffect
  split
  · unfold State.kvExtend
    cases hext : s.extendAll k d.ntok l with
    | none => exact h
    | some r => exact h.extendAll hk hext
  · exact h.copyPieces hk _
  · exact h.kvShare k d
  · exact h.foldl (fun _ _ hu => hu.kvFree hk _) l
  · exact h.kvBaskets k d
  · exact h

end

end Sys2Proof.Machine
end

section
/-! PROOFS. A KV instruction that issues at its dispatch (R129, R229): its effect, and that it is outstanding as issued. -/

namespace Sys2Proof.Machine

/-! ### the mark of issue -/

theorem State.q_kvMark (s : State) (k n : Nat) (bad : Bool) : (s.kvMark k n bad).q k = { s.q k with
    outst := (s.q k).outst.map (fun o => if o.seq = n then s.kvIssued k bad o else o) } := by
  rw [State.kvMark, State.syncKv, State.setFld_q, State.updOutst, State.q_setQ_same]

theorem State.kvIssued_issued (s : State) (k : Nat) (bad : Bool) (o : Outst) : (s.kvIssued k bad o).issued = true := rfl

section
variable (s : State) {k : Nat} (hk : k < 16) (n : Nat) (bad : Bool)

include hk in
theorem State.kvMark_records : SameKvRecords s (s.kvMark k n bad) := by
  refine ⟨((SameLayout.refl s).setQ k _).setFld (.inr (.status (State.keeper_lt _ k) hk)) _ _, ?_, fun a => ?_⟩
  · rw [State.kvMark, State.syncKv, State.setFld_kvp, State.updOutst, State.setQ_kvp]
  · rw [State.kvMark, State.syncKv, State.setFld_byte, State.updOutst, State.setQ_byte]

include hk in
theorem State.freePages_kvMark : (s.kvMark k n bad).freePages k = s.freePages k := by
  have hkeeper : (s.updOutst k n (s.kvIssued k bad)).keeper k = s.keeper k := ((SameLayout.refl s).setQ k _).keeper k
  rw [State.freePages, (s.kvMark_records hk n bad).layout.keeper, State.kvMark, State.syncKv, hkeeper,
    State.fld_setFld_fld _ _ _ _ _ (by decide), State.updOutst, State.setQ_fld, State.freePages]

include hk in
theorem State.reg_kvMark {a : Nat} (ha : R.psqId 0 ≤ a) : (s.kvMark k n bad).reg a = s.reg a := by
  have := s.keeper_lt k
  exact State.reg_setFld_other _ (by
    have := State.keeper_lt (s.updOutst k n (s.kvIssued k bad)) k
    unfold R.psqId at ha
    unfold R.kvpSStatus
    omega) _ _

end

theorem Dispatched.kvMark {s t : State} {k x w unit : Nat} (hk : k < 16) (h : Dispatched s t k x w unit false) (bad : Bool) :
    Dispatched s (t.kvMark k (s.q k).fresh bad) k x w unit true := by
  obtain ⟨htaken, hadv, hlen, o, ho, hseq, hstrm, hindex, hword, hunit, hwaits, -⟩ := h
  have hreg := fun {a} (ha : R.psqId 0 ≤ a) => t.reg_kvMark hk (s.q k).fresh bad ha
  refine ⟨fun c hc => ?_, fun hahead => ?_, ?_, t.kvIssued k bad o, ?_, hseq, hstrm, hindex, hword, hunit, hwaits, rfl⟩
  · rw [← htaken c hc]
    exact State.tok_congr (fun i _ => hreg (by unfold R.psqId R.psqToken; omega)) hc
  · rw [State.indexOf, State.pcOf, State.fld, hreg (by unfold R.psqId R.psqIndex; omega), hreg (by unfold R.psqId R.psqPc; omega)]
    exact hadv hahead
  · rw [State.q_kvMark, List.length_map, hlen]
  · rw [State.q_kvMark, List.getLast?_map, ho, Option.map_some, if_pos hseq]

/-! ### the issue -/

section
variable {s : State} {k x w opc : Nat} {d : KvD} {bk : List Byte} {l : List Nat} (ht : KvTaken s k opc w d bk l)
  (hk : k < 16) (hx : x < 3) (h : Ready s k x w) (hop : 0x20 ≤ opc ∧ opc ≤ 0x25) (hin : KvInOrder s k) (hne : opc ≠ 0x22)
  (ha : KvAllowed s k opc d l)
include ht hk hx h hop hin hne ha

/-- R129, R229: an instruction that passes its checks, with the earlier ones issued, has its effect at its dispatch. -/
theorem State.kvOp_issues : s.kvOp k x opc =
    ((s.kvHeld k x w bk).kvEffect k opc d l).1.kvMark k (s.q k).fresh ((s.kvHeld k x w bk).kvEffect k opc d l).2 := by
  have hnone := ((s.kvHeld_samePool (k := k) (w := w) bk hx).kvIssueFault hk opc d l).trans ha
  have hlen : ((s.kvHeld k x w bk).q k).outst.length = (s.q k).outst.length + 1 := by rw [s.outst_kvHeld bk hx]; simp
  have hopc := ht.opc_newest x
  rw [State.kvOp_taken h ht, hlen, State.issueKv_issues (s.unissued_kvHeld bk hx hin (ht.1 ▸ hop)) (s.noIssue_kvHeld bk hx h)
    (ht.desc_newest x) (ht.seqs_newest x) (hopc ▸ hne) (hopc.symm ▸ hnone), hopc]
  refine State.issueKv_none (List.find?_eq_none.mpr fun o ho => ?_) _
  rw [State.q_kvMark, ((State.kvEffect_work hk _ opc d l).seqs.q k), s.outst_kvHeld bk hx] at ho
  obtain ⟨p, hp, rfl⟩ := List.mem_map.mp ho
  split
  next => simp [State.kvIssued_issued]
  next hold =>
    rcases List.mem_append.mp hp with hp | hp
    · cases hkv : p.isKv with
      | false => simp
      | true => simp [hin p hp hkv]
    · rw [List.mem_singleton.mp hp] at hold
      exact absurd rfl hold

/-- The state after an instruction that issues: its pool is as its effect left it, and it is outstanding as issued. -/
theorem kvAnswers {c : Instr} (hexec : exec c s = .next (s.kvOp k x opc)) : ∃ t, exec c s = .next t ∧
    SameKvRecords ((s.kvHeld k x w bk).kvEffect k opc d l).1 t ∧
    t.freePages k = ((s.kvHeld k x w bk).kvEffect k opc d l).1.freePages k ∧ Dispatched s t k x w 0xFF true ∧ Apart s t := by
  have heq := State.kvOp_issues ht hk hx h hop hin hne ha
  have hseqs := (State.kvEffect_work hk (s.kvHeld k x w bk) opc d l).seqs
  refine ⟨_, hexec, ?_, ?_, ?_, State.kvOp_apart k x opc (.refl s)⟩
  · rw [heq]
    exact State.kvMark_records _ hk _ _
  · rw [heq, State.freePages_kvMark _ hk]
  · rw [heq]
    exact ((s.dispatchOut_dispatched k hx w 0xFF false _ bk 0).congr (hseqs.q k) hseqs.regs).kvMark hk _

end

end Sys2Proof.Machine
end

section
/-! PROOFS. The records of a pool (R226, R227): what each write stores, and what it leaves. -/

namespace Sys2Proof.Machine

theorem ofBytes_lt : ∀ l : List Byte, ofBytes l < 256 ^ l.length
  | [] => by simp [ofBytes]
  | b :: l => by
    have := ofBytes_lt l
    have := b.isLt
    simp only [ofBytes, List.length_cons, Nat.pow_succ]
    omega

theorem State.num_lt (s : State) (a n : Nat) : s.num a n < 256 ^ n := by
  have h := ofBytes_lt (s.bytes a n)
  rwa [show (s.bytes a n).length = n by simp [State.bytes]] at h

theorem numAt_append_at {l m : List Byte} {j n : Nat} (h : l.length = j) : numAt (l ++ m) j n = numAt m 0 n := by
  subst h
  exact numAt_append_right (i := 0)

/-! ### what a record holds -/

/-- The low half of a page record (R226). -/
def pageHalf (r m : Nat) (b : Bool) : List Byte := toBytes 2 r ++ toBytes 1 m ++ toBytes 1 (if b then 1 else 0)

theorem length_pageHalf (r m : Nat) (b : Bool) : (pageHalf r m b).length = 4 := by simp [pageHalf]

theorem numAt_pageHalf_refs (r m : Nat) (b : Bool) : numAt (pageHalf r m b) 0 2 = r % 2 ^ 16 := by
  rw [pageHalf, numAt_append_left (by simp), numAt_append_left (by simp), numAt_toBytes]
  rfl

theorem numAt_pageHalf_pending (r m : Nat) (b : Bool) : numAt (pageHalf r m b) 3 1 = if b then 1 else 0 := by
  rw [pageHalf, numAt_append_at (by simp), numAt_toBytes]
  cases b <;> rfl

/-- A sequence record (R227). -/
def seqRecord (n : Nat) (b : Bool) : List Byte := toBytes 4 n ++ toBytes 1 (if b then 1 else 0) ++ List.replicate 11 0

theorem length_seqRecord (n : Nat) (b : Bool) : (seqRecord n b).length = 16 := by simp [seqRecord]

theorem numAt_seqRecord_len (n : Nat) (b : Bool) : numAt (seqRecord n b) 0 4 = n % 2 ^ 32 := by
  rw [seqRecord, numAt_append_left (by simp), numAt_append_left (by simp), numAt_toBytes]
  rfl

theorem numAt_seqRecord_live (n : Nat) (b : Bool) : numAt (seqRecord n b) 4 1 = if b then 1 else 0 := by
  rw [seqRecord, numAt_append_left (by simp), numAt_append_at (by simp), numAt_toBytes]
  cases b <;> rfl

/-! ### writes of records -/

/-- Read back from the start of one write. -/
theorem State.num_wr_start {s : State} {a : Nat} {l : List Byte} (h : Lands s a l.length) {n : Nat} (hn : n ≤ l.length) :
    (s.wr a l).num a n = numAt l 0 n := State.num_wr_slice (i := 0) h (by omega)

section
variable (s : State) (k q i p r m n : Nat) (b : Bool)

theorem State.setEntry_kv (j : Nat) : (s.setEntry k q i p).kv j = s.kv j := s.wr_kv _ _ j

theorem State.setPage_kv (j : Nat) : (s.setPage k p r m b).kv j = s.kv j := s.wr_kv _ _ j

theorem State.setSeq_kv (j : Nat) : (s.setSeq k q n b).kv j = s.kv j := s.wr_kv _ _ j

end

section
variable {z s : State} (h : SameLayout z s) {k : Nat} (hk : k < 16) (q i p r m n : Nat) (b : Bool)
include h hk

/-! Each address is that of a state `z` in which the pool lies where it lies. -/

theorem SameLayout.setEntry_memoryBut : MemoryBut [(z.entryAt k q i, 4)] s (s.setEntry k q i p) := by
  have hm := s.wr_memoryBut (z.entryAt k q i) (toBytes 4 p)
  rw [length_toBytes] at hm
  rw [State.setEntry, State.wrN, h.entryAt hk]
  exact hm

theorem SameLayout.setPage_memoryBut : MemoryBut [(z.pageAt k p, 4)] s (s.setPage k p r m b) := by
  have hm := s.wr_memoryBut (z.pageAt k p) (pageHalf r m b)
  rw [length_pageHalf] at hm
  rw [State.setPage, h.pageAt hk]
  exact hm

theorem SameLayout.setSeq_memoryBut : MemoryBut [(z.seqAt k q, 16)] s (s.setSeq k q n b) := by
  have hm := s.wr_memoryBut (z.seqAt k q) (seqRecord n b)
  rw [length_seqRecord] at hm
  rw [State.setSeq, h.seqAt hk]
  exact hm

theorem SameLayout.entry_setEntry (hl : Lands z (z.entryAt k q i) 4) : (s.setEntry k q i p).entry k q i = p % 2 ^ 32 := by
  rw [State.entry, ((KvWork.refl s).setEntry k q i p).layout.entryAt hk, State.setEntry, State.wrN,
    State.num_wr_start (by rw [length_toBytes, h.lands_iff, h.entryAt hk]; exact hl) (by simp), numAt_toBytes]
  rfl

theorem SameLayout.refs_setPage (hl : Lands z (z.pageAt k p) 4) : (s.setPage k p r m b).refs k p = r % 2 ^ 16 := by
  have hland : Lands s (s.pageAt k p) (pageHalf r m b).length := by rwa [length_pageHalf, h.lands_iff, h.pageAt hk]
  rw [State.refs, ((KvWork.refl s).setPage k p r m b).layout.pageAt hk]
  exact (State.num_wr_start hland (by rw [length_pageHalf]; decide)).trans (numAt_pageHalf_refs r m b)

theorem SameLayout.pendingPage_setPage (hl : Lands z (z.pageAt k p) 4) : (s.setPage k p r m b).pendingPage k p = b := by
  have hland : Lands s (s.pageAt k p) (pageHalf r m b).length := by rwa [length_pageHalf, h.lands_iff, h.pageAt hk]
  have hnum := (State.num_wr_slice (i := 3) (n := 1) hland (by rw [length_pageHalf])).trans (numAt_pageHalf_pending r m b)
  rw [State.pendingPage, ((KvWork.refl s).setPage k p r m b).layout.pageAt hk]
  exact (congrArg (Nat.testBit · 0) hnum).trans (by cases b <;> rfl)

theorem SameLayout.seqLen_setSeq (hl : Lands z (z.seqAt k q) 16) : (s.setSeq k q n b).seqLen k q = n % 2 ^ 32 := by
  have hland : Lands s (s.seqAt k q) (seqRecord n b).length := by rwa [length_seqRecord, h.lands_iff, h.seqAt hk]
  rw [State.seqLen, ((KvWork.refl s).setSeq k q n b).layout.seqAt hk]
  exact (State.num_wr_start hland (by rw [length_seqRecord]; decide)).trans (numAt_seqRecord_len n b)

theorem SameLayout.live_setSeq (hl : Lands z (z.seqAt k q) 16) : (s.setSeq k q n b).live k q = b := by
  have hland : Lands s (s.seqAt k q) (seqRecord n b).length := by rwa [length_seqRecord, h.lands_iff, h.seqAt hk]
  have hnum := (State.num_wr_slice (i := 4) (n := 1) hland (by rw [length_seqRecord]; decide)).trans (numAt_seqRecord_live n b)
  rw [State.live, ((KvWork.refl s).setSeq k q n b).layout.seqAt hk]
  exact (congrArg (Nat.testBit · 0) hnum).trans (by cases b <;> rfl)

/-! ### what other writes leave of a record -/

variable {q i p} {t : State} {l : List (Nat × Nat)} (ht : SameLayout z t) (hm : MemoryBut l s t)
include ht hm

theorem SameLayout.entry_of_memoryBut (hl : ∀ r ∈ l, z.entryAt k q i + 4 ≤ r.1 ∨ r.1 + r.2 ≤ z.entryAt k q i) :
    t.entry k q i = s.entry k q i := by
  rw [State.entry, ht.entryAt hk, hm.num hl, State.entry, h.entryAt hk]

theorem SameLayout.refs_of_memoryBut (hl : ∀ r ∈ l, z.pageAt k p + 4 ≤ r.1 ∨ r.1 + r.2 ≤ z.pageAt k p) : t.refs k p = s.refs k p := by
  rw [State.refs, ht.pageAt hk, hm.num (fun r hr => by have := hl r hr; omega), State.refs, h.pageAt hk]

theorem SameLayout.pendingPage_of_memoryBut (hl : ∀ r ∈ l, z.pageAt k p + 4 ≤ r.1 ∨ r.1 + r.2 ≤ z.pageAt k p) :
    t.pendingPage k p = s.pendingPage k p := by
  rw [State.pendingPage, ht.pageAt hk, hm.num (fun r hr => by have := hl r hr; omega), State.pendingPage, h.pageAt hk]

theorem SameLayout.seqLen_of_memoryBut (hl : ∀ r ∈ l, z.seqAt k q + 5 ≤ r.1 ∨ r.1 + r.2 ≤ z.seqAt k q) :
    t.seqLen k q = s.seqLen k q := by
  rw [State.seqLen, ht.seqAt hk, hm.num (fun r hr => by have := hl r hr; omega), State.seqLen, h.seqAt hk]

theorem SameLayout.live_of_memoryBut (hl : ∀ r ∈ l, z.seqAt k q + 5 ≤ r.1 ∨ r.1 + r.2 ≤ z.seqAt k q) : t.live k q = s.live k q := by
  rw [State.live, ht.seqAt hk, hm.num (fun r hr => by have := hl r hr; omega), State.live, h.seqAt hk]

end

end Sys2Proof.Machine
end

section
/-! PROOFS. KWRITE of one token of one sequence (R231, R238), and KSHARE of a first page (R233). -/

namespace Sys2Proof.Machine

/-! ### one copy -/

section
variable (s : State) {k : Nat} (src dst n : Nat)

theorem State.countCopy_dry_self (k n : Nat) : Dry s (s.countCopy k n) := State.countCopy_dry k n (.refl s)

/-- The copy, once its bytes are counted. -/
theorem State.copyPiece_eq (k : Nat) : (s.copyPiece k src dst n).1 = if (s.countCopy k n).unreadable src n
    then (s.countCopy k n).wrPoison dst n else (s.countCopy k n).wr dst ((s.countCopy k n).bytes src n) := by
  unfold State.copyPiece
  dsimp only
  split <;> rfl

theorem State.length_bytes (a n : Nat) : (s.bytes a n).length = n := by simp [State.bytes]

theorem State.copyPiece_memoryBut (k : Nat) : MemoryBut [(dst, n)] s (s.copyPiece k src dst n).1 := by
  have hcount := (s.countCopy_dry_self k n).same
  rw [State.copyPiece_eq]
  split
  · exact (State.wrPoison_dry dst n (s.countCopy_dry_self k n)).same.but _
  · have h := (s.countCopy k n).wr_memoryBut dst ((s.countCopy k n).bytes src n)
    rw [State.length_bytes] at h
    exact (hcount.but _).trans h

variable (hk : k < 16)
include hk

theorem State.countCopy_work : KvWork s (s.countCopy k n) :=
  ((KvWork.refl s).setKv k _).setReg (.copy (State.keeper_lt _ k) hk) _

/-- R238: what can be read is copied. -/
theorem State.copyPiece_bytes (hread : s.unreadable src n = false) (h : Lands s dst n) :
    (s.copyPiece k src dst n).1.bytes dst n = s.bytes src n := by
  have hlay := (s.countCopy_work n hk).layout
  have hsame : (s.countCopy k n).bytes src n = s.bytes src n := List.map_congr_left fun _ _ => (s.countCopy_dry_self k n).same _
  have hpoison : (s.countCopy k n).poison = s.poison := by rw [State.countCopy, State.setReg_poison, State.setKv_poison]
  rw [State.copyPiece_eq, hlay.unreadable hpoison, hread, if_neg Bool.false_ne_true, hsame]
  have hland : Lands (s.countCopy k n) dst (s.bytes src n).length := by
    rw [State.length_bytes]
    exact hlay.lands_iff.mpr h
  have hbytes := State.bytes_wr_slice (i := 0) (n := (s.bytes src n).length) hland (by omega)
  rwa [slice_all, Nat.add_zero, State.length_bytes] at hbytes

end

/-! ### KWRITE -/

/-- The row that KWRITE stores for one token of sequence `q`, from COLOFF on (R231). -/
def State.lastRow (s : State) (k : Nat) (d : KvD) (q : Nat) : Nat :=
  s.kvRow k (s.entry k q ((s.seqLen k q - 1) / 16)) d.layer (s.seqLen k q - 1) + d.coloff

theorem State.kvWrite_one (s : State) (k q : Nat) {d : KvD} (hn : d.ntok = 1) :
    (s.kvWrite k d [q]).1 = (s.copyPiece k d.addr (s.lastRow k d q) d.colb).1 := by
  simp [State.kvWrite, State.copyPieces, hn, State.lastRow]

theorem SameKvRecords.lastRow {s t : State} (h : SameKvRecords s t) {k : Nat} (hk : k < 16) (d : KvD) (q : Nat) :
    t.lastRow k d q = s.lastRow k d q := by
  simp only [State.lastRow, h.seqLen hk, h.entry hk, h.layout.kvRow hk]

/-! ### KSHARE -/

/-- A page gains a reference (R233). -/
def State.share (s : State) (k q i p : Nat) : State :=
  (s.setEntry k q i p).setPage k p (s.refs k p + 1) (s.moors k p) (s.pendingPage k p)

theorem ceilDiv_one_of_le {n : Nat} (h0 : 0 < n) (h : n ≤ 16) : ceilDiv n 16 = 1 := by unfold ceilDiv; omega

theorem State.kvShare_one (s : State) (k : Nat) {d : KvD} (h0 : 0 < d.ntok) (h : d.ntok ≤ 16) :
    s.kvShare k d = (s.share k d.seq2 0 (s.entry k d.seq 0)).setSeq k d.seq2 d.ntok true := by
  rw [State.kvShare, ceilDiv_one_of_le h0 h, State.forAll, List.range_one, List.foldl_cons, List.foldl_nil, State.share]

theorem Writable.landsFrom {s : State} {a n m : Nat} {l : List (Nat × Nat)} (h : Writable l s) (hmem : (a, n) ∈ l) (hm : m ≤ n) (h0 : 0 < n) :
    Lands s a m := h _ hmem 0 m (by dsimp only; omega) h0

/-- What KSHARE leaves in the three records that it writes, and elsewhere. -/
theorem State.kvShare_spec (s : State) {k : Nat} (hk : k < 16) {d : KvD} (h0 : 0 < d.ntok) (hn : d.ntok ≤ 16)
    (hsep : Separate [(s.entryAt k d.seq2 0, 4), (s.pageAt k (s.entry k d.seq 0), 8), (s.seqAt k d.seq2, 16)])
    (hw : Writable [(s.entryAt k d.seq2 0, 4), (s.pageAt k (s.entry k d.seq 0), 8), (s.seqAt k d.seq2, 16)] s) :
    (s.kvShare k d).entry k d.seq2 0 = s.entry k d.seq 0 ∧
      (s.kvShare k d).refs k (s.entry k d.seq 0) = (s.refs k (s.entry k d.seq 0) + 1) % 2 ^ 16 ∧
      (s.kvShare k d).seqLen k d.seq2 = d.ntok ∧ (s.kvShare k d).live k d.seq2 = true ∧
      MemoryBut [(s.entryAt k d.seq2 0, 4), (s.pageAt k (s.entry k d.seq 0), 4), (s.seqAt k d.seq2, 16)] s (s.kvShare k d) := by
  have hlt : s.entry k d.seq 0 < 2 ^ 32 := s.num_lt _ 4
  rw [State.kvShare_one s k h0 hn, State.share]
  generalize s.entry k d.seq 0 = p at *
  obtain ⟨hep, hes, hps⟩ := separate_three.mp hsep
  have hr := KvWork.refl s
  have he := hr.setEntry k d.seq2 0 p
  have hp := he.setPage k p (s.refs k p + 1) (s.moors k p) (s.pendingPage k p)
  have ht := hp.setSeq k d.seq2 d.ntok true
  have hme := hr.layout.setEntry_memoryBut hk d.seq2 0 p
  have hmp := he.layout.setPage_memoryBut hk p (s.refs k p + 1) (s.moors k p) (s.pendingPage k p)
  have hms := hp.layout.setSeq_memoryBut hk d.seq2 d.ntok true
  have hland : ∀ {a n}, (a, n) ∈ _ → ∀ m, m ≤ n → 0 < n → Lands s a m := fun hmem m hm h0 => Writable.landsFrom hw hmem hm h0
  refine ⟨?_, ?_, ?_, ?_, ((hme.mono (by simp)).trans (hmp.mono (by simp))).trans (hms.mono (by simp))⟩
  · rw [hp.layout.entry_of_memoryBut hk ht.layout hms (by simpa using hes),
      he.layout.entry_of_memoryBut hk hp.layout hmp (by rw [List.forall_mem_singleton]; dsimp only; omega),
      hr.layout.entry_setEntry hk _ _ _ (hland (n := 4) (by simp) _ (le_refl _) (by decide)), Nat.mod_eq_of_lt hlt]
  · rw [hp.layout.refs_of_memoryBut hk ht.layout hms (by rw [List.forall_mem_singleton]; dsimp only; omega),
      he.layout.refs_setPage hk _ _ _ _ (hland (n := 8) (by simp) _ (by decide) (by decide))]
  · rw [hp.layout.seqLen_setSeq hk _ _ _ (hland (n := 16) (by simp) _ (le_refl _) (by decide)), Nat.mod_eq_of_lt (by omega)]
  · exact hp.layout.live_setSeq hk _ _ _ (hland (n := 16) (by simp) _ (le_refl _) (by decide))

end Sys2Proof.Machine
end

section
/-! PROOFS. KFREE of a sequence of one page (R234). -/

namespace Sys2Proof.Machine

/-- A range that lies within another may be named by that. -/
theorem MemoryBut.within_one {s t : State} {a n b m : Nat} (h : MemoryBut [(a, n)] s t) (hlo : b ≤ a) (hhi : a + n ≤ b + m) :
    MemoryBut [(b, m)] s t :=
  h.within fun p hp => ⟨(b, m), List.mem_singleton_self _, by rw [List.mem_singleton.mp hp]; exact ⟨hlo, hhi⟩⟩

/-! ### FREE -/

section
variable (s : State) {k : Nat} (hk : k < 16)

theorem State.freePages_wr (a : Nat) (l : List Byte) : (s.wr a l).freePages k = s.freePages k := by
  have := s.keeper_lt k
  rw [State.freePages, ((SameLayout.refl s).wr a l).keeper, State.fld,
    s.reg_wr a _ l (by unfold R.kvpSStatus R.cxtErr; omega), State.freePages, State.fld]

theorem State.freePages_setKv (k : Nat) (c : Kvp) : (s.setKv k c).freePages k = s.freePages k := by
  rw [State.freePages, ((SameLayout.refl s).setKv k c).keeper, State.setKv_fld, State.freePages]

include hk in
theorem State.freePages_setFreePages (n : Nat) : (s.setFreePages k n).freePages k = n % 2 ^ F.kvpSStatusFree.2 := by
  rw [State.freePages, ((KvWork.refl s).setFreePages hk n).layout.keeper, State.setFreePages, State.fld_setFld_same _ _ _ _ (by decide)]

theorem State.setFreePages_memory (k n : Nat) : SameMemory s (s.setFreePages k n) := fun _ => State.setFld_byte _ _ _ _ _

theorem State.setFreePages_kv (k n j : Nat) : (s.setFreePages k n).kv j = s.kv j := State.setFld_kv _ _ _ _ _

end

/-! ### a page at the head of the free list -/

/-- The record of a page that is freed, linked to the head of the free list so far. -/
def State.freedRecord (s : State) (k p : Nat) : State := (s.setPage k p 0 0 false).wrN (s.pageAt k p + 4) 4 (s.kv k).head

theorem State.freePage_eq (s : State) (k p : Nat) : s.freePage k p =
    ((s.freedRecord k p).setKv k { (s.freedRecord k p).kv k with head := p }).setFreePages k ((s.freedRecord k p).freePages k + 1) := rfl

section
variable {s : State} {k : Nat} (hk : k < 16) (p : Nat)

theorem State.freePage_head : ((s.freePage k p).kv k).head = p := by
  rw [State.freePage_eq, State.setFreePages_kv, State.kv_setKv, if_pos rfl]

theorem State.freePage_memory : SameMemory (s.freedRecord k p) (s.freePage k p) := by
  rw [State.freePage_eq]
  exact fun a => (State.setFreePages_memory _ _ _ a).trans (State.setKv_byte _ _ _ _)

include hk

omit hk in
theorem State.freedRecord_freePages : (s.freedRecord k p).freePages k = s.freePages k := by
  rw [State.freedRecord, State.wrN, State.freePages_wr, State.setPage, State.freePages_wr]

theorem State.freePage_freePages : (s.freePage k p).freePages k = (s.freePages k + 1) % 2 ^ F.kvpSStatusFree.2 := by
  rw [State.freePage_eq, State.freePages_setFreePages _ hk, State.freedRecord_freePages]

theorem State.freePage_memoryBut : MemoryBut [(s.pageAt k p, 8)] s (s.freePage k p) := by
  have hhalf := (SameLayout.refl s).setPage_memoryBut hk p 0 0 false
  have hnext := (s.setPage k p 0 0 false).wr_memoryBut (s.pageAt k p + 4) (toBytes 4 (s.kv k).head)
  rw [length_toBytes] at hnext
  exact ((hhalf.within_one (by omega) (by omega)).trans (hnext.within_one (by omega) (by omega))).trans
    ((State.freePage_memory p).but _)

omit hk in
theorem State.freePage_next (h : Lands s (s.pageAt k p + 4) 4) : (s.freePage k p).num (s.pageAt k p + 4) 4 = (s.kv k).head % 2 ^ 32 := by
  have hland := ((SameLayout.refl s).wr (s.pageAt k p) (pageHalf 0 0 false)).lands_iff.mpr h
  rw [State.num_congr (State.freePage_memory p), State.freedRecord, State.wrN,
    State.num_wr_start (by rw [length_toBytes]; exact hland) (by simp), numAt_toBytes]
  rfl

end

/-! ### one reference less -/

section
variable {s : State} {k p : Nat}

theorem State.dropRef_shared (h : 1 < s.refs k p) :
    s.dropRef k p = s.setPage k p (s.refs k p - 1) (s.moors k p) (s.pendingPage k p) := by
  unfold State.dropRef
  exact if_pos (by omega)

theorem State.dropRef_freed (h : s.refs k p ≤ 1) (hm : s.moors k p = 0) : s.dropRef k p = s.freePage k p := by
  unfold State.dropRef
  dsimp only
  rw [if_neg (by omega), if_pos hm]

theorem State.dropRef_pending (h : s.refs k p ≤ 1) (hm : s.moors k p ≠ 0) : s.dropRef k p = s.setPage k p 0 (s.moors k p) true := by
  unfold State.dropRef
  dsimp only
  rw [if_neg (by omega), if_neg hm]

theorem State.dropRef_memoryBut (hk : k < 16) : MemoryBut [(s.pageAt k p, 8)] s (s.dropRef k p) := by
  have hpage := fun r m b => ((SameLayout.refl s).setPage_memoryBut hk p r m b).within_one (b := s.pageAt k p) (m := 8) (by omega) (by omega)
  by_cases h : 1 < s.refs k p
  · exact State.dropRef_shared h ▸ hpage _ _ _
  · by_cases hm : s.moors k p = 0
    · exact State.dropRef_freed (by omega) hm ▸ State.freePage_memoryBut hk p
    · exact State.dropRef_pending (by omega) hm ▸ hpage _ _ _

end

/-! ### KFREE -/

theorem State.kvFree_one {s : State} {k q : Nat} (h0 : 0 < s.seqLen k q) (h : s.seqLen k q ≤ 16) :
    s.kvFree k q = ((s.dropRef k (s.entry k q 0)).setEntry k q 0 noPage).setSeq k q 0 false := by
  rw [State.kvFree, ceilDiv_one_of_le h0 h]
  rfl

section
variable {s : State} {k q p : Nat} (hk : k < 16) (h0 : 0 < s.seqLen k q) (hn : s.seqLen k q ≤ 16) (hp : s.entry k q 0 = p)
include hk h0 hn hp

omit hk in
theorem State.kvFree_kv (j : Nat) : (s.kvFree k q).kv j = (s.dropRef k p).kv j := by
  rw [State.kvFree_one h0 hn, State.setSeq_kv, State.setEntry_kv, hp]

omit hk in
theorem State.kvFree_freePages : (s.kvFree k q).freePages k = (s.dropRef k p).freePages k := by
  rw [State.kvFree_one h0 hn, State.setSeq, State.freePages_wr, State.setEntry, State.wrN, State.freePages_wr, hp]

/-- What follows the page's record: its entry emptied, and the sequence not LIVE. -/
theorem State.kvFree_after : MemoryBut [(s.entryAt k q 0, 4), (s.seqAt k q, 16)] (s.dropRef k p) (s.kvFree k q) := by
  have hd := (KvWork.refl s).dropRef hk p
  rw [State.kvFree_one h0 hn, hp]
  exact ((hd.layout.setEntry_memoryBut hk q 0 noPage).mono (by simp)).trans
    (((hd.setEntry k q 0 noPage).layout.setSeq_memoryBut hk q 0 false).mono (by simp))

theorem State.kvFree_memoryBut : MemoryBut [(s.entryAt k q 0, 4), (s.pageAt k p, 8), (s.seqAt k q, 16)] s (s.kvFree k q) :=
  ((State.dropRef_memoryBut hk).mono (by simp)).trans ((State.kvFree_after hk h0 hn hp).mono (by simp))

variable (hsep : Separate [(s.entryAt k q 0, 4), (s.pageAt k p, 8), (s.seqAt k q, 16)])
  (hw : Writable [(s.entryAt k q 0, 4), (s.pageAt k p, 8), (s.seqAt k q, 16)] s)

include hw in
theorem State.kvFree_live : (s.kvFree k q).live k q = false := by
  have hd := ((KvWork.refl s).dropRef hk p).setEntry k q 0 noPage
  rw [State.kvFree_one h0 hn, hp]
  exact hd.layout.live_setSeq hk _ _ _ (Writable.landsFrom hw (n := 16) (by simp) (le_refl _) (by decide))

include hsep hw in
theorem State.kvFree_entry : (s.kvFree k q).entry k q 0 = noPage := by
  have hd := (KvWork.refl s).dropRef hk p
  have he := hd.setEntry k q 0 noPage
  have ht := he.setSeq k q 0 false
  rw [State.kvFree_one h0 hn, hp, he.layout.entry_of_memoryBut hk ht.layout (he.layout.setSeq_memoryBut hk q 0 false) (by
      obtain ⟨-, hes, -⟩ := separate_three.mp hsep
      rw [List.forall_mem_singleton]
      exact hes),
    hd.layout.entry_setEntry hk _ _ _ (Writable.landsFrom hw (n := 4) (by simp) (le_refl _) (by decide))]
  rfl

include hsep in
/-- The page's record stands as the reference dropped left it. -/
theorem State.kvFree_page : (s.kvFree k q).refs k p = (s.dropRef k p).refs k p ∧
    (s.kvFree k q).pendingPage k p = (s.dropRef k p).pendingPage k p ∧
    (s.kvFree k q).num (s.pageAt k p + 4) 4 = (s.dropRef k p).num (s.pageAt k p + 4) 4 := by
  have hd := ((KvWork.refl s).dropRef hk p).layout
  have ht := ((KvWork.refl s).kvFree hk q).layout
  have hm := State.kvFree_after hk h0 hn hp
  have hout : ∀ r ∈ [(s.entryAt k q 0, 4), (s.seqAt k q, 16)], s.pageAt k p + 8 ≤ r.1 ∨ r.1 + r.2 ≤ s.pageAt k p := by
    obtain ⟨hep, -, hps⟩ := separate_three.mp hsep
    simp only [List.mem_cons, List.not_mem_nil, or_false, forall_eq_or_imp, forall_eq]
    omega
  have hlow := fun r hr => (hout r hr).imp_left (fun h => le_trans (Nat.add_le_add_left (by decide : 4 ≤ 8) _) h)
  exact ⟨hd.refs_of_memoryBut hk ht hm hlow, hd.pendingPage_of_memoryBut hk ht hm hlow, hm.num (fun r hr => by have := hout r hr; omega)⟩

end

end Sys2Proof.Machine
end

section
/-! PROOFS. KBASKET (R237): the count, and the baskets that follow it. -/

namespace Sys2Proof.Machine

theorem length_insertByLen (len : Nat → Nat) (q : Nat) (l : List Nat) : (insertByLen len q l).length = l.length + 1 := by
  induction l with
  | nil => rfl
  | cons a l ih =>
    unfold insertByLen
    split
    · rfl
    · rw [List.length_cons, ih, List.length_cons]

/-- Sequences in the order in which KBASKET deals them out. -/
def sortByLen (len : Nat → Nat) (l : List Nat) : List Nat := l.foldl (fun m q => insertByLen len q m) []

theorem length_sortByLen (len : Nat → Nat) (l : List Nat) : (sortByLen len l).length = l.length := by
  have h : ∀ m, (l.foldl (fun m q => insertByLen len q m) m).length = m.length + l.length := by
    induction l with
    | nil => simp
    | cons q l ih =>
      intro m
      rw [List.foldl_cons, ih, length_insertByLen, List.length_cons]
      omega
  simpa [sortByLen] using h []

/-- The bytes of a basket before its sequences (Table 9-12). -/
def basketHead (level : Nat) (len : Nat → Nat) (qs : List Nat) : List Byte :=
  toBytes 1 level ++ toBytes 1 0 ++ toBytes 2 qs.length ++ toBytes 4 (len (qs.headD 0)) ++ toBytes 4 (len (qs.getLastD 0)) ++ toBytes 4 0

/-- A basket. -/
def basketBytes (level : Nat) (len : Nat → Nat) (qs : List Nat) : List Byte :=
  basketHead level len qs ++ slice (qs.flatMap (toBytes 1)) 0 304

theorem length_basketHead (level : Nat) (len : Nat → Nat) (qs : List Nat) : (basketHead level len qs).length = 16 := by simp [basketHead]

theorem length_basketBytes (level : Nat) (len : Nat → Nat) (qs : List Nat) : (basketBytes level len qs).length = 320 := by
  simp [basketBytes, length_basketHead, slice]

/-- A short list of bytes is filled up with zeros. -/
theorem slice_short {l : List Byte} {n : Nat} (h : l.length ≤ n) : slice l 0 n = l ++ List.replicate (n - l.length) 0 := by
  refine List.ext_getElem (by simp [slice, h]) fun i hi _ => ?_
  by_cases hl : i < l.length
  · simp [slice, hl, List.getElem_append_left]
  · simp [slice, hl, List.getElem_append_right, Nat.le_of_not_lt hl]

/-- The first 17 bytes of the basket of one sequence. -/
theorem slice_basketBytes_one (level : Nat) (len : Nat → Nat) (q : Nat) :
    slice (basketBytes level len [q]) 0 17 = basketHead level len [q] ++ toBytes 1 q := by
  have hall := slice_all (basketHead level len [q] ++ toBytes 1 q)
  have hlen : (basketHead level len [q] ++ toBytes 1 q).length = 17 := by simp [length_basketHead]
  rw [basketBytes, List.flatMap_singleton, slice_short (l := toBytes 1 q) (n := 304) (by simp), ← List.append_assoc, slice_append_left (by rw [hlen])]
  rwa [hlen] at hall

/-- The baskets after the first `m` of them are stored. -/
def State.storeBaskets (s : State) (a : Nat) (f : Nat → List Byte) (m : Nat) : State :=
  (List.range m).foldl (fun s b => s.wr (a + 320 * b) (f b)) s

theorem State.kvBaskets_eq (s : State) (k : Nat) (d : KvD) : s.kvBaskets k d =
    (s.wr d.basket (toBytes 8 (basketCount d (sortByLen (s.seqLen k) (onesOf 256 d.mask)).length) ++ List.replicate 56 0)).storeBaskets
      (d.basket + 64) (fun b => basketBytes (s.stake k).level (s.seqLen k)
        (((sortByLen (s.seqLen k) (onesOf 256 d.mask)).drop (b * d.coloff)).take d.coloff))
      (basketCount d (sortByLen (s.seqLen k) (onesOf 256 d.mask)).length) := rfl

theorem State.storeBaskets_memoryBut (s : State) (a : Nat) {f : Nat → List Byte} (hf : ∀ b, (f b).length = 320) (m : Nat) :
    MemoryBut [(a, 320 * m)] s (s.storeBaskets a f m) := by
  induction m with
  | zero => exact fun _ _ => rfl
  | succ m ih =>
    have hlast := (s.storeBaskets a f m).wr_memoryBut (a + 320 * m) (f m)
    rw [hf] at hlast
    rw [State.storeBaskets, List.range_succ, List.foldl_append]
    exact (ih.within_one (by omega) (by omega)).trans (hlast.within_one (by omega) (by omega))

theorem basketCount_le (d : KvD) (n : Nat) : basketCount d n ≤ n := by
  unfold basketCount ceilDiv
  split
  · omega
  next h =>
    have hle : n ≤ n * d.coloff := Nat.le_mul_of_pos_right n (by omega)
    exact Nat.lt_succ_iff.mp ((Nat.div_lt_iff_lt_mul (by omega)).mpr (by rw [Nat.succ_mul]; omega))

theorem basketCount_one {d : KvD} (h : d.coloff ≠ 0) : basketCount d 1 = 1 := by
  rw [basketCount, if_neg h, ceilDiv, show 1 + d.coloff - 1 = d.coloff by omega, Nat.div_self (by omega)]

section
variable (s : State) (k : Nat) (d : KvD)

theorem State.kvBaskets_memoryBut :
    MemoryBut [(d.basket, 64 + 320 * basketCount d (popcount 256 d.mask))] s (s.kvBaskets k d) := by
  have hcount := s.wr_memoryBut d.basket
    (toBytes 8 (basketCount d (sortByLen (s.seqLen k) (onesOf 256 d.mask)).length) ++ List.replicate 56 0)
  rw [List.length_append, length_toBytes, List.length_replicate] at hcount
  rw [State.kvBaskets_eq]
  rw [length_sortByLen] at hcount ⊢
  exact (hcount.within_one (by omega) (by omega)).trans
    ((State.storeBaskets_memoryBut _ _ (fun _ => length_basketBytes _ _ _) _).within_one (by omega) (by rw [popcount]; omega))

variable {s d} (hw : Writable [(d.basket, 64 + 320 * basketCount d (popcount 256 d.mask))] s)
include hw

theorem State.kvBaskets_count : (s.kvBaskets k d).num d.basket 8 = basketCount d (popcount 256 d.mask) := by
  have hlt : basketCount d (popcount 256 d.mask) < 256 ^ 8 := by
    have h1 := basketCount_le d (popcount 256 d.mask)
    have h2 : popcount 256 d.mask ≤ 256 := (List.length_filter_le _ _).trans (by rw [List.length_range])
    omega
  have hland : Lands s d.basket (toBytes 8 (basketCount d (popcount 256 d.mask)) ++ List.replicate 56 (0 : Byte)).length := by
    rw [List.length_append, length_toBytes, List.length_replicate]
    exact Writable.landsFrom hw (List.mem_singleton_self _) (by omega) (by omega)
  rw [State.kvBaskets_eq, length_sortByLen, ← popcount,
    (State.storeBaskets_memoryBut _ _ (fun _ => length_basketBytes _ _ _) _).num (by
      rw [List.forall_mem_singleton]; dsimp only; omega),
    State.num_wr_start hland (by simp), numAt_append_left (by simp), numAt_toBytes, Nat.mod_eq_of_lt hlt]

/-- The one basket of one sequence. -/
theorem State.kvBaskets_one (hc : d.coloff ≠ 0) {q : Nat} (hq : onesOf 256 d.mask = [q]) :
    (s.kvBaskets k d).bytes (d.basket + 64) 17 =
      basketHead (s.stake k).level (s.seqLen k) [q] ++ toBytes 1 q := by
  have hland : Lands s (d.basket + 64) 320 := by
    refine hw _ (List.mem_singleton_self _) 64 320 ?_ ?_ <;> simp [popcount, hq, basketCount_one hc]
  have hsort : sortByLen (s.seqLen k) (onesOf 256 d.mask) = [q] := by rw [hq]; rfl
  obtain ⟨c, hc'⟩ : ∃ c, d.coloff = c + 1 := ⟨d.coloff - 1, by omega⟩
  have htake : (([q] : List Nat).drop (0 * d.coloff)).take d.coloff = [q] := by rw [hc', Nat.zero_mul, List.drop_zero, List.take_succ_cons, List.take_nil]
  rw [State.kvBaskets_eq, hsort, show ([q] : List Nat).length = 1 from rfl, basketCount_one hc]
  have h1 : ∀ (u : State) a f, u.storeBaskets a f 1 = u.wr (a + 0) (f 0) := fun _ _ _ => rfl
  rw [h1, htake, Nat.add_zero, ← slice_basketBytes_one]
  exact State.bytes_wr_slice (i := 0) (by
    rw [length_basketBytes]
    exact ((SameLayout.refl s).wr _ _).lands_iff.mpr hland) (by rw [length_basketBytes]; decide)

end

end Sys2Proof.Machine
end

section
/-! PROOFS. What the checks of a KV instruction say of its descriptor and of the pool (R229, R230, R233). -/

namespace Sys2Proof.Machine

section
variable {s : State} {k w opc : Nat} {d : KvD} {bk : List Byte} {l : List Nat} (ht : KvTaken s k opc w d bk l)
include ht

theorem KvTaken.descGood : s.kvDescBad k opc (bits w 64 52) d = false := by
  obtain ⟨-, -, -, -, -, -, hd, -⟩ := ht
  exact hd

theorem KvTaken.ntok_pos (hop : opc ≤ 0x23) : 0 < d.ntok := by
  have hd := ht.descGood
  simp only [State.kvDescBad, Bool.or_eq_false_iff, decide_eq_false_iff_not, Bool.and_eq_false_iff] at hd
  obtain ⟨⟨⟨-, hn⟩, -⟩, -⟩ := hd
  have hn := hn.resolve_left (not_not_intro hop)
  omega

theorem KvTaken.coloff_ne (hop : opc = 0x25) : d.coloff ≠ 0 := by
  have hd := ht.descGood
  subst hop
  simp only [State.kvDescBad, Bool.or_eq_false_iff, decide_eq_false_iff_not, Bool.and_eq_false_iff] at hd
  obtain ⟨-, h⟩ := hd
  have h : ¬ d.coloff = 0 ∧ d.coloff ≤ 256 := by simpa using h
  exact h.1

end

theorem KvAllowed.poolFault {s : State} {k opc : Nat} {d : KvD} {l : List Nat} (h : KvAllowed s k opc d l) :
    s.kvPoolFault k opc d l = none := by
  unfold KvAllowed State.kvIssueFault at h
  split at h
  · cases h
  · split at h
    · cases h
    · split at h
      · cases h
      next hnone => exact hnone

/-- Positions of a sequence that KEXTEND may add to: those of no sequence start at 0 (R230). -/
def State.extLen (s : State) (k q : Nat) : Nat := if s.live k q then s.seqLen k q else 0

/-- R230: KEXTEND names a sequence of the pool, and its page table holds the new length. -/
theorem KvAllowed.extend {s : State} {k q : Nat} {d : KvD} (h : KvAllowed s k 0x20 d [q]) :
    q < (s.stake k).seqLimit ∧ s.extLen k q + d.ntok ≤ 16 * s.ptEntries k := by
  have hnone := h.poolFault
  unfold State.kvPoolFault State.kvPoolFault.firstOfCodes at hnone
  rw [Option.map_eq_none_iff, List.find?_eq_none] at hnone
  have hseq := hnone _ (List.mem_cons_self)
  have hrange := hnone _ (List.mem_cons_of_mem _ List.mem_cons_self)
  simp [State.kvSeqBad] at hseq
  simp at hrange
  exact ⟨hseq, hrange⟩

end Sys2Proof.Machine
end

section
/-! PROOFS. Bytes that become undefined, and the rows of a pool's pages (R226, R230). -/

namespace Sys2Proof.Machine

theorem undefAt_cons_other {lo hi n x : Nat} {l : List (Nat × Nat × Nat)} (h : ¬ (lo ≤ x ∧ x < hi)) :
    undefAt ((lo, hi, n) :: l) x = undefAt l x := by
  unfold undefAt
  rw [List.find?_cons_of_neg (by simpa using h)]

theorem State.lose_memoryBut (s : State) (a n : Nat) : MemoryBut [(a, n)] s (s.lose a (a + n)) := by
  intro x hx
  have hout : ¬ (a ≤ x ∧ x < a + n) := by
    have := hx _ (List.mem_singleton_self _)
    dsimp only at this
    omega
  have hundef : undefAt (s.lose a (a + n)).undef x = undefAt s.undef x := by
    rw [State.lose, undefAt_cons_other hout, undefAt_cutRange, if_neg hout]
  have hmem : KMap.get (s.lose a (a + n)).mem 0 x = KMap.get s.mem 0 x := by
    unfold KMap.get State.lose
    dsimp only
    rw [KMap.find_filter s.mem (fun p => !(decide (a ≤ p) && decide (p < a + n))), if_pos (by
      simp only [Bool.not_eq_true', Bool.and_eq_false_iff, decide_eq_false_iff_not]
      omega)]
  rw [State.byte, State.byte, hundef, hmem]

/-- Where a pool's pages stand (R226). -/
def State.poolSpan (s : State) (k : Nat) : Nat × Nat := ((s.stake k).kvBase, s.layers k * (s.stake k).kvPages * psizeOf (s.rowb k))

theorem le_psizeOf (r : Nat) : 16 * r ≤ psizeOf r := by unfold psizeOf ceilDiv; omega

/-- Rows of one page in one layer lie in the pool. -/
theorem State.kvRow_within (s : State) {k p l i n : Nat} (hp : p < (s.stake k).kvPages) (hl : l < s.layers k) (hi : i % 16 + n ≤ 16) :
    (s.poolSpan k).1 ≤ s.kvRow k p l i ∧ s.kvRow k p l i + n * s.rowb k ≤ (s.poolSpan k).1 + (s.poolSpan k).2 := by
  have hrows : i % 16 * s.rowb k + n * s.rowb k ≤ psizeOf (s.rowb k) := by
    rw [← Nat.add_mul]
    exact (Nat.mul_le_mul_right _ hi).trans (le_psizeOf _)
  have hpages : l * (s.stake k).kvPages + p + 1 ≤ s.layers k * (s.stake k).kvPages := by
    have : (l + 1) * (s.stake k).kvPages ≤ s.layers k * (s.stake k).kvPages := Nat.mul_le_mul_right _ hl
    rw [Nat.succ_mul] at this
    omega
  have hbytes := Nat.mul_le_mul_right (psizeOf (s.rowb k)) hpages
  rw [Nat.succ_mul] at hbytes
  unfold State.kvRow State.poolSpan
  dsimp only
  omega

/-- The rows added to logical page `i` of a sequence, in one layer, become undefined (R230). -/
def State.undefineIn (s : State) (k q len ntok i l : Nat) : State :=
  s.lose (s.kvRow k (s.entry k q i) l (max len (16 * i)))
    (s.kvRow k (s.entry k q i) l (max len (16 * i)) + (min (len + ntok) (16 * i + 16) - max len (16 * i)) * s.rowb k)

theorem State.undefineRows_eq (s : State) (k q len ntok : Nat) : s.undefineRows k q len ntok =
    (List.range ((len + ntok - 1) / 16 - len / 16 + 1)).foldl (fun s i =>
      (List.range (s.layers k)).foldl (fun s l => s.undefineIn k q len ntok (len / 16 + i) l) s) s := rfl

section
variable {z s : State} (h : SameLayout z s) {k : Nat} (hk : k < 16) {q len ntok : Nat}
include h hk

/-- Rows of a page of the pool lie in the pool. -/
theorem SameLayout.undefineIn_memoryBut {i l : Nat} (hp : s.entry k q i < (z.stake k).kvPages) (hl : l < z.layers k)
    (hi : max len (16 * i) ≤ 16 * i + 15) : MemoryBut [z.poolSpan k] s (s.undefineIn k q len ntok i l) := by
  have hin := z.kvRow_within (i := max len (16 * i)) (n := min (len + ntok) (16 * i + 16) - max len (16 * i)) hp hl (by omega)
  rw [State.undefineIn, h.kvRow hk, h.rowb hk]
  exact (s.lose_memoryBut _ _).within_one hin.1 hin.2

variable (hn : 0 < ntok)
  (hsep : ∀ i, i < ceilDiv (len + ntok) 16 → z.entryAt k q i + 4 ≤ (z.poolSpan k).1 ∨
    (z.poolSpan k).1 + (z.poolSpan k).2 ≤ z.entryAt k q i)
  (hpage : ∀ i, len / 16 ≤ i → i < ceilDiv (len + ntok) 16 → s.entry k q i < (z.stake k).kvPages)
include hn hsep hpage

/-- R230: with the pages that a sequence names in the pool, making its new rows undefined leaves everything outside the pool. -/
theorem SameLayout.undefineRows_memoryBut : MemoryBut [z.poolSpan k] s (s.undefineRows k q len ntok) := by
  have hstep : ∀ u, SameLayout z u ∧ MemoryBut [z.poolSpan k] s u → ∀ i, i < (len + ntok - 1) / 16 - len / 16 + 1 → ∀ l, l < z.layers k →
      SameLayout z (u.undefineIn k q len ntok (len / 16 + i) l) ∧
        MemoryBut [z.poolSpan k] s (u.undefineIn k q len ntok (len / 16 + i) l) := by
    rintro u ⟨hu, hm⟩ i hi l hl
    have hlp : len / 16 + i < ceilDiv (len + ntok) 16 := by unfold ceilDiv; omega
    have hentry := h.entry_of_memoryBut hk hu hm (by rw [List.forall_mem_singleton]; exact hsep _ hlp)
    exact ⟨hu.lose _ _, hm.trans (hu.undefineIn_memoryBut hk (hentry.symm ▸ hpage _ (by omega) hlp) hl (by omega))⟩
  rw [State.undefineRows_eq]
  refine (List.foldlRecOn _ _ (motive := fun u => SameLayout z u ∧ MemoryBut [z.poolSpan k] s u) ⟨h, fun _ _ => rfl⟩ ?_).2
  intro u hu i hi
  refine List.foldlRecOn _ _ (motive := fun u => SameLayout z u ∧ MemoryBut [z.poolSpan k] s u) hu ?_
  intro v hv l hl
  exact hstep v hv i (List.mem_range.mp hi) l (by rw [← hu.1.layers hk]; exact List.mem_range.mp hl)

end

end Sys2Proof.Machine
end

section
/-! PROOFS. Pages from the free list (R230): states of equal records take the same pages, and every page taken is one of the pool's. -/

namespace Sys2Proof.Machine

/-! ### states of equal records -/

theorem State.byte_wr_dropped {s : State} {a : Nat} {l : List Byte} (h : ¬ Lands s a l.length) (x : Nat) :
    (s.wr a l).byte x = s.byte x := by
  have hdrop : s.wr a l = s.noteCxl a l.length false := if_pos (by simpa [Lands, or_iff_not_imp_left] using h)
  rw [hdrop, State.noteCxl_byte]

section
variable {s t : State} (h : SameKvRecords s t)
include h

theorem SameKvRecords.wr (a : Nat) (l : List Byte) : SameKvRecords (s.wr a l) (t.wr a l) := by
  have hs := (SameLayout.refl s).wr a l
  have ht := (SameLayout.refl t).wr a l
  refine ⟨⟨by rw [t.wr_weave, s.wr_weave, h.layout.weave], fun b hb => by rw [ht.regs b hb, hs.regs b hb, h.layout.regs b hb]⟩,
    by rw [t.wr_kvp, s.wr_kvp, h.kvp], fun x => ?_⟩
  by_cases hl : Lands s a l.length
  · have hl' := h.layout.lands_iff.mpr hl
    rw [t.byte_wr a x l hl'.1 hl'.2, s.byte_wr a x l hl.1 hl.2, h.memory]
  · rw [t.byte_wr_dropped (fun hl' => hl (h.layout.lands_iff.mp hl')), s.byte_wr_dropped hl, h.memory]

theorem SameKvRecords.setKv (k : Nat) (c : Kvp) : SameKvRecords (s.setKv k c) (t.setKv k c) :=
  ⟨⟨h.layout.weave, h.layout.regs⟩, by simp only [State.setKv, h.kvp], h.memory⟩

variable {k : Nat} (hk : k < 16)
include hk

theorem SameKvRecords.setFreePages (m n : Nat) : SameKvRecords (s.setFreePages k m) (t.setFreePages k n) := by
  have hs := ((KvWork.refl s).setFreePages hk m).layout
  have ht := ((KvWork.refl t).setFreePages hk n).layout
  refine ⟨⟨by rw [ht.weave, hs.weave, h.layout.weave], fun b hb => by rw [ht.regs b hb, hs.regs b hb, h.layout.regs b hb]⟩, ?_, fun a => ?_⟩
  · rw [State.setFreePages, State.setFreePages, State.setFld_kvp, State.setFld_kvp, h.kvp]
  · rw [State.setFreePages_memory, State.setFreePages_memory, h.memory]

theorem SameKvRecords.setPage (p r m : Nat) (b : Bool) : SameKvRecords (s.setPage k p r m b) (t.setPage k p r m b) := by
  rw [State.setPage, State.setPage, h.layout.pageAt hk]
  exact h.wr _ _

theorem SameKvRecords.setEntry (q i p : Nat) : SameKvRecords (s.setEntry k q i p) (t.setEntry k q i p) := by
  rw [State.setEntry, State.setEntry, h.layout.entryAt hk]
  exact h.wr _ _

end

/-! ### a page taken -/

/-- The state after the page at the head of the free list is taken. -/
def State.tookPage (s : State) (k : Nat) : State :=
  ((s.setKv k { s.kv k with head := s.num (s.pageAt k (s.kv k).head + 4) 4 }).setPage k (s.kv k).head 1 0 false).setFreePages k
    ((s.setKv k { s.kv k with head := s.num (s.pageAt k (s.kv k).head + 4) 4 }).freePages k - 1)

theorem State.takePage_none {s : State} {k : Nat} (h : (s.kv k).head = noPage) : s.takePage k = none := if_pos h

theorem State.takePage_some {s : State} {k : Nat} (h : (s.kv k).head ≠ noPage) : s.takePage k = some ((s.kv k).head, s.tookPage k) :=
  if_neg h

theorem SameKvRecords.tookPage {s t : State} (h : SameKvRecords s t) {k : Nat} (hk : k < 16) : SameKvRecords (s.tookPage k) (t.tookPage k) := by
  unfold State.tookPage
  rw [h.kv, h.layout.pageAt hk, h.num]
  exact ((h.setKv k _).setPage hk _ _ _ _).setFreePages hk _ _

/-- States of equal records grow a sequence alike. -/
theorem SameKvRecords.growPages {s t g : State} (h : SameKvRecords s t) {k : Nat} (hk : k < 16) {q i n : Nat}
    (hg : s.growPages k q i n = some g) : ∃ g', t.growPages k q i n = some g' := by
  induction n generalizing s t i with
  | zero => exact ⟨t, rfl⟩
  | succ n ih =>
    by_cases hhead : (s.kv k).head = noPage
    · rw [State.growPages, State.takePage_none hhead] at hg
      cases hg
    · rw [State.growPages, State.takePage_some hhead] at hg
      rw [State.growPages, State.takePage_some (by rwa [h.kv]), h.kv]
      exact ih ((h.tookPage hk).setEntry hk _ _ _) hg

/-! ### the free list stays in the pool -/

/-- The head of the free list, and what each record links to, are pages of a pool of `n`, or none. -/
def FreeListIn (s : State) (k n : Nat) : Prop :=
  ((s.kv k).head < n ∨ (s.kv k).head = noPage) ∧ ∀ p, p < n → s.num (s.pageAt k p + 4) 4 < n ∨ s.num (s.pageAt k p + 4) 4 = noPage

section
variable {z s : State} (h : SameLayout z s) {k : Nat} (hk : k < 16)

theorem State.tookPage_head (s : State) (k : Nat) : ((s.tookPage k).kv k).head = s.num (s.pageAt k (s.kv k).head + 4) 4 := by
  rw [State.tookPage, State.setFreePages_kv, State.setPage_kv, State.kv_setKv, if_pos rfl]

include hk in
theorem State.tookPage_work (s : State) : KvWork s (s.tookPage k) :=
  (((KvWork.refl s).setKv k _).setPage _ _ _ _ _).setFreePages hk _

include hk in
theorem State.tookPage_freePages (s : State) : (s.tookPage k).freePages k = s.freePages k - 1 := by
  have hlt : s.freePages k < 2 ^ F.kvpSStatusFree.2 := BitVec.isLt _
  rw [State.tookPage, State.freePages_setFreePages _ hk, State.freePages_setKv, Nat.mod_eq_of_lt (by omega)]

include h hk

theorem SameLayout.tookPage_memoryBut : MemoryBut [(z.pageAt k (s.kv k).head, 4)] s (s.tookPage k) := by
  have hpage := (h.setKv k { s.kv k with head := s.num (s.pageAt k (s.kv k).head + 4) 4 }).setPage_memoryBut hk (s.kv k).head 1 0 false
  exact fun a ha => (State.setFreePages_memory _ _ _ a).trans ((hpage a ha).trans (State.setKv_byte _ _ _ a))

theorem SameLayout.tookPage_freeListIn {n : Nat} (hfree : FreeListIn s k n) (hhead : (s.kv k).head < n) : FreeListIn (s.tookPage k) k n := by
  have ht := h.trans (s.tookPage_work hk).layout
  refine ⟨?_, fun p hp => ?_⟩
  · rw [State.tookPage_head]
    exact hfree.2 _ hhead
  · have hnum := hfree.2 p hp
    rw [ht.pageAt hk, (h.tookPage_memoryBut hk).num (by
      rw [List.forall_mem_singleton, z.pageAt_eq k p, z.pageAt_eq k (s.kv k).head]; dsimp only; omega)]
    rwa [h.pageAt hk] at hnum

variable {q i : Nat}

theorem SameLayout.setEntry_freeListIn {n : Nat} (hfree : FreeListIn s k n) (p : Nat)
    (hsep : ∀ p, p < n → z.pageAt k p + 8 ≤ z.entryAt k q i ∨ z.entryAt k q i + 4 ≤ z.pageAt k p) :
    FreeListIn (s.setEntry k q i p) k n := by
  have ht := h.trans ((KvWork.refl s).setEntry k q i p).layout
  refine ⟨by rw [State.setEntry_kv]; exact hfree.1, fun r hr => ?_⟩
  have hnum := hfree.2 r hr
  have hout := hsep r hr
  rw [ht.pageAt hk, (h.setEntry_memoryBut hk q i p).num (by rw [List.forall_mem_singleton]; dsimp only; omega)]
  rwa [h.pageAt hk] at hnum

end

/-! ### growth -/

section
variable {z : State} {k q n : Nat} (hk : k < 16)
  (hsep : ∀ p, p < n → ∀ j, j < z.ptEntries k → z.pageAt k p + 8 ≤ z.entryAt k q j ∨ z.entryAt k q j + 4 ≤ z.pageAt k p)
  (hw : ∀ j, j < z.ptEntries k → Lands z (z.entryAt k q j) 4)
include hk hsep hw

/-- R230: growth by `m` pages gives pages of the pool to the entries from `i` on, leaves the entries before, and takes `m` off FREE. -/
theorem SameLayout.growPages_spec {s g : State} (h : SameLayout z s) (hfree : FreeListIn s k n) {i m : Nat} (hi : i + m ≤ z.ptEntries k)
    (hg : s.growPages k q i m = some g) : (∀ j, j < i → g.entry k q j = s.entry k q j) ∧
      (∀ j, i ≤ j → j < i + m → g.entry k q j < n) ∧ g.freePages k = s.freePages k - m := by
  induction m generalizing s i with
  | zero =>
    cases hg
    exact ⟨fun _ _ => rfl, fun _ h1 h2 => by omega, rfl⟩
  | succ m ih =>
    by_cases hnone : (s.kv k).head = noPage
    · rw [State.growPages, State.takePage_none hnone] at hg
      cases hg
    · have hhead : (s.kv k).head < n := hfree.1.resolve_right hnone
      rw [State.growPages, State.takePage_some hnone] at hg
      have htook := h.trans (s.tookPage_work hk).layout
      have hset := htook.trans ((KvWork.refl (s.tookPage k)).setEntry k q i (s.kv k).head).layout
      have hfree' := htook.setEntry_freeListIn hk (q := q) (i := i) (h.tookPage_freeListIn hk hfree hhead) (s.kv k).head
        (fun p hp => hsep p hp i (by omega))
      obtain ⟨hbefore, hnew, hcount⟩ := ih hset hfree' (by omega) hg
      have hentry : ((s.tookPage k).setEntry k q i (s.kv k).head).entry k q i < n :=
        htook.entry_setEntry hk q i (s.kv k).head (hw i (by omega)) ▸ (Nat.mod_le _ _).trans_lt hhead
      refine ⟨fun j hj => ?_, fun j hlo hhi => ?_, ?_⟩
      · rw [hbefore j (by omega), htook.entry_of_memoryBut hk hset (htook.setEntry_memoryBut hk q i _) (by
            rw [List.forall_mem_singleton, z.entryAt_eq k q i, z.entryAt_eq k q j]; dsimp only; omega),
          h.entry_of_memoryBut hk htook (h.tookPage_memoryBut hk) (by
            have := hsep _ hhead j (by omega)
            rw [List.forall_mem_singleton]
            dsimp only
            omega)]
      · rcases Nat.eq_or_lt_of_le hlo with rfl | hlt
        · rw [hbefore i (by omega)]
          exact hentry
        · exact hnew j hlt (by omega)
      · rw [hcount, State.setEntry, State.wrN, State.freePages_wr, State.tookPage_freePages hk]
        omega

end

end Sys2Proof.Machine
end

section
/-! PROOFS. KEXTEND of one sequence that shares no page (R226, R227, R230). -/

namespace Sys2Proof.Machine

/-! ### a sound pool -/

section
variable {s : State} {k : Nat} (h : PoolSound s k)
include h

theorem PoolSound.freeListIn : FreeListIn s k (s.stake k).kvPages := ⟨h.2.1, h.2.2.1⟩

/-- The tables and the pages do not overlap. -/
theorem PoolSound.apart :
    (s.pageAt k 0 + 8 * (s.stake k).kvPages ≤ s.entryAt k 0 0 ∨
      s.entryAt k 0 0 + 4 * ((s.stake k).seqLimit * s.ptEntries k) ≤ s.pageAt k 0) ∧
    (s.seqAt k 0 + 16 * (s.stake k).seqLimit ≤ s.entryAt k 0 0 ∨
      s.entryAt k 0 0 + 4 * ((s.stake k).seqLimit * s.ptEntries k) ≤ s.seqAt k 0) ∧
    (s.seqAt k 0 + 16 * (s.stake k).seqLimit ≤ (s.poolSpan k).1 ∨ (s.poolSpan k).1 + (s.poolSpan k).2 ≤ s.seqAt k 0) ∧
    (s.entryAt k 0 0 + 4 * ((s.stake k).seqLimit * s.ptEntries k) ≤ (s.poolSpan k).1 ∨
      (s.poolSpan k).1 + (s.poolSpan k).2 ≤ s.entryAt k 0 0) := by
  have hsep : Separate [(s.pageAt k 0, 8 * (s.stake k).kvPages), (s.seqAt k 0, 16 * (s.stake k).seqLimit),
    (s.entryAt k 0 0, 4 * ((s.stake k).seqLimit * s.ptEntries k)), s.poolSpan k] := h.1
  simp only [Separate, List.pairwise_cons, List.mem_cons, List.not_mem_nil, or_false, forall_eq_or_imp, forall_eq] at hsep
  obtain ⟨⟨-, hpe, -⟩, ⟨hse, hsp⟩, hep, -⟩ := hsep
  exact ⟨hpe, hse, hsp, hep⟩

variable {q i : Nat} (hq : q < (s.stake k).seqLimit)

omit h in
include hq in
/-- The entries of a sequence of the pool stand in the table. -/
theorem entryAt_within (hi : i < s.ptEntries k) :
    s.entryAt k 0 0 ≤ s.entryAt k q i ∧ s.entryAt k q i + 4 ≤ s.entryAt k 0 0 + 4 * ((s.stake k).seqLimit * s.ptEntries k) := by
  have hrow : (q + 1) * s.ptEntries k ≤ (s.stake k).seqLimit * s.ptEntries k := Nat.mul_le_mul_right _ hq
  rw [Nat.succ_mul] at hrow
  rw [s.entryAt_eq k q i]
  omega

include hq

theorem PoolSound.page_entry {p : Nat} (hp : p < (s.stake k).kvPages) (hi : i < s.ptEntries k) :
    s.pageAt k p + 8 ≤ s.entryAt k q i ∨ s.entryAt k q i + 4 ≤ s.pageAt k p := by
  have hin := entryAt_within hq hi
  obtain ⟨hpe, -⟩ := h.apart
  rw [s.pageAt_eq k p]
  omega

theorem PoolSound.entry_pool (hi : i < s.ptEntries k) : s.entryAt k q i + 4 ≤ (s.poolSpan k).1 ∨
    (s.poolSpan k).1 + (s.poolSpan k).2 ≤ s.entryAt k q i := by
  have hin := entryAt_within hq hi
  obtain ⟨-, -, -, hep⟩ := h.apart
  omega

theorem PoolSound.entry_seq (hi : i < s.ptEntries k) : s.entryAt k q i + 4 ≤ s.seqAt k q ∨ s.seqAt k q + 16 ≤ s.entryAt k q i := by
  have hin := entryAt_within hq hi
  obtain ⟨-, hse, -⟩ := h.apart
  rw [s.seqAt_eq k q]
  omega

theorem PoolSound.seq_pool : s.seqAt k q + 16 ≤ (s.poolSpan k).1 ∨ (s.poolSpan k).1 + (s.poolSpan k).2 ≤ s.seqAt k q := by
  obtain ⟨-, -, hsp, -⟩ := h.apart
  rw [s.seqAt_eq k q]
  omega

theorem PoolSound.entry_lt (hi : i < ceilDiv (s.extLen k q) 16) : s.entry k q i < (s.stake k).kvPages := by
  obtain ⟨-, -, -, hentries⟩ := h
  cases hlive : s.live k q with
  | false => simp [State.extLen, hlive, ceilDiv] at hi
  | true => exact hentries q hq hlive i (by simpa [State.extLen, hlive] using hi)

end

theorem State.freePages_lose (s : State) (k lo hi : Nat) : (s.lose lo hi).freePages k = s.freePages k := by
  rw [State.freePages, ((SameLayout.refl s).lose lo hi).keeper, State.lose_fld, State.freePages]

theorem State.freePages_undefineRows (s : State) (k q len ntok : Nat) : (s.undefineRows k q len ntok).freePages k = s.freePages k := by
  rw [State.undefineRows_eq]
  refine List.foldlRecOn _ _ (motive := fun u : State => u.freePages k = s.freePages k) rfl (fun u hu i _ => ?_)
  exact List.foldlRecOn _ _ (motive := fun u : State => u.freePages k = s.freePages k) hu (fun v hv l _ => (State.freePages_lose _ _ _ _).trans hv)

theorem SameKvRecords.extLen {s t : State} (h : SameKvRecords s t) {k : Nat} (hk : k < 16) (q : Nat) : t.extLen k q = s.extLen k q := by
  rw [State.extLen, h.live hk, h.seqLen hk, State.extLen]

theorem SameKvRecords.poolSound {s t : State} (h : SameKvRecords s t) {k : Nat} (hk : k < 16) (hs : PoolSound s k) : PoolSound t k := by
  simpa only [PoolSound, h.layout.stake, h.layout.pageAt hk, h.layout.seqAt hk, h.layout.entryAt hk, h.layout.ptEntries hk,
    h.layout.layers hk, h.layout.rowb hk, h.kv, h.num, h.live hk, h.seqLen hk, h.entry hk] using hs

/-! ### one sequence that shares no page -/

/-- Pages that KEXTEND takes for a sequence. -/
def State.newPages (s : State) (k q ntok : Nat) : Nat := ceilDiv (s.extLen k q + ntok) 16 - ceilDiv (s.extLen k q) 16

/-- What KEXTEND does once the pages of the sequence are taken. -/
def State.extended (s : State) (k q len ntok : Nat) : State := (s.setSeq k q (len + ntok) true).undefineRows k q len ntok

section
variable {s : State} {k q ntok : Nat} (hcow : s.extLen k q % 16 = 0 ∨ s.refs k (s.entry k q (s.extLen k q / 16)) ≤ 1)
include hcow

theorem State.extendAll_one : s.extendAll k ntok [q] =
    (s.growPages k q (ceilDiv (s.extLen k q) 16) (s.newPages k q ntok)).map (fun g => (g.extended k q (s.extLen k q) ntok, false)) := by
  have hseq : s.extendSeq k ntok q =
      (s.growPages k q (ceilDiv (s.extLen k q) 16) (s.newPages k q ntok)).map (fun g => (g.extended k q (s.extLen k q) ntok, false)) := by
    unfold State.extendSeq
    dsimp only
    rw [← State.extLen, if_neg (by omega)]
    dsimp only
    rw [← State.newPages]
    cases s.growPages k q (ceilDiv (s.extLen k q) 16) (s.newPages k q ntok) <;> rfl
  rw [State.extendAll, hseq]
  cases s.growPages k q (ceilDiv (s.extLen k q) 16) (s.newPages k q ntok) <;> rfl

variable (hk : k < 16) (hsound : PoolSound s k) (hq : q < (s.stake k).seqLimit) (hfit : s.extLen k q + ntok ≤ 16 * s.ptEntries k)
  (hn : 0 < ntok) (hw : Writable [(s.seqAt k q, 16), (s.entryAt k q 0, 4 * s.ptEntries k)] s)
include hk hsound hq hfit hn hw

omit hcow in
/-- R230: the sequence is LIVE with its new length, and FREE has lost the pages taken. -/
theorem State.extended_spec {g : State} (hg : s.growPages k q (ceilDiv (s.extLen k q) 16) (s.newPages k q ntok) = some g) :
    (g.extended k q (s.extLen k q) ntok).seqLen k q = (s.extLen k q + ntok) % 2 ^ 32 ∧
      (g.extended k q (s.extLen k q) ntok).live k q = true ∧
      (g.extended k q (s.extLen k q) ntok).freePages k = s.freePages k - s.newPages k q ntok := by
  have hpt : ceilDiv (s.extLen k q + ntok) 16 ≤ s.ptEntries k := by unfold ceilDiv; omega
  have hmono : ceilDiv (s.extLen k q) 16 ≤ ceilDiv (s.extLen k q + ntok) 16 := by unfold ceilDiv; omega
  have hland : ∀ j, j < s.ptEntries k → Lands s (s.entryAt k q j) 4 := fun j hj => by
    have h := hw (s.entryAt k q 0, 4 * s.ptEntries k) (by simp) (4 * j) 4 (by dsimp only; omega) (by dsimp only; omega)
    rwa [show s.entryAt k q 0 + 4 * j = s.entryAt k q j by rw [s.entryAt_eq k q 0, s.entryAt_eq k q j]; omega] at h
  have hseq : Lands s (s.seqAt k q) 16 := Writable.landsFrom hw (n := 16) (by simp) (le_refl _) (by decide)
  obtain ⟨hold, hnew, hfree⟩ := (SameLayout.refl s).growPages_spec hk (fun p hp j hj => hsound.page_entry hq hp hj) hland
    hsound.freeListIn (by unfold State.newPages; omega) hg
  have hgrow := (KvWork.refl s).growPages hk hg
  have hset := hgrow.setSeq k q (s.extLen k q + ntok) true
  have hdone := hset.undefineRows k q (s.extLen k q) ntok
  have hpages : ∀ i, s.extLen k q / 16 ≤ i → i < ceilDiv (s.extLen k q + ntok) 16 →
      (g.setSeq k q (s.extLen k q + ntok) true).entry k q i < (s.stake k).kvPages := by
    intro i hlo hhi
    rw [hgrow.layout.entry_of_memoryBut hk hset.layout (hgrow.layout.setSeq_memoryBut hk q _ true) (by
      rw [List.forall_mem_singleton]; exact hsound.entry_seq hq (by omega))]
    by_cases hi : i < ceilDiv (s.extLen k q) 16
    · rw [hold i hi]
      exact hsound.entry_lt hq hi
    · exact hnew i (by omega) (by unfold State.newPages; omega)
  have hrows := hset.layout.undefineRows_memoryBut hk hn (fun i hi => hsound.entry_pool hq (by omega)) hpages
  have hout : ∀ r ∈ [s.poolSpan k], s.seqAt k q + 5 ≤ r.1 ∨ r.1 + r.2 ≤ s.seqAt k q := by
    rw [List.forall_mem_singleton]
    have := hsound.seq_pool hq
    omega
  refine ⟨?_, ?_, ?_⟩
  · rw [State.extended, hset.layout.seqLen_of_memoryBut hk hdone.layout hrows hout, hgrow.layout.seqLen_setSeq hk _ _ _ hseq]
  · rw [State.extended, hset.layout.live_of_memoryBut hk hdone.layout hrows hout, hgrow.layout.live_setSeq hk _ _ _ hseq]
  · rw [State.extended, State.freePages_undefineRows, State.setSeq, State.freePages_wr, hfree]

end

end Sys2Proof.Machine
end

section
/-! PROOFS. The KV instructions that issue at once, one by one (R229-R237). -/

namespace Sys2Proof.Machine

theorem State.kvEffect_kextend (s : State) (k : Nat) (d : KvD) (l : List Nat) : s.kvEffect k 0x20 d l = s.kvExtend k d l := rfl

theorem State.kvEffect_kwrite (s : State) (k : Nat) (d : KvD) (l : List Nat) : s.kvEffect k 0x21 d l = s.kvWrite k d l := rfl

theorem State.kvEffect_kshare (s : State) (k : Nat) (d : KvD) (l : List Nat) : (s.kvEffect k 0x23 d l).1 = s.kvShare k d := rfl

theorem State.kvEffect_kfree (s : State) (k q : Nat) (d : KvD) : (s.kvEffect k 0x24 d [q]).1 = s.kvFree k q := rfl

theorem State.kvEffect_kbasket (s : State) (k : Nat) (d : KvD) (l : List Nat) : (s.kvEffect k 0x25 d l).1 = s.kvBaskets k d := rfl

/-- Memory as an effect left it, seen from before the dispatch and after the mark of issue. -/
theorem MemoryBut.around {s u v t : State} {l : List (Nat × Nat)} (h : MemoryBut l u v) (hu : SameMemory s u) (ht : SameMemory v t) :
    MemoryBut l s t := fun a ha => (ht a).trans ((h a ha).trans (hu a))

section
variable {s : State} {k : Fin 16} {x : Strm} {w : Nat} {d : KvD} {bk : List Byte} {l : List Nat} (hx : x.num < 3) (h : Ready s k x.num w)
  (hin : KvInOrder s k)
include hx h hin

theorem kextend_answers {q : Nat} {r : State × Bool} (ht : KvTaken s k 0x20 w d bk [q]) (ha : KvAllowed s k 0x20 d [q])
    (hext : s.extendAll k d.ntok [q] = some r) (hcow : s.extLen k q % 16 = 0 ∨ s.refs k (s.entry k q (s.extLen k q / 16)) ≤ 1)
    (hsound : PoolSound s k) (hw : Writable [(s.seqAt k q, 16), (s.entryAt k q 0, 4 * s.ptEntries k)] s) :
    Answers (exec (.kextend k x) s) (fun t => t.seqLen k q = (s.extLen k q + d.ntok) % 2 ^ 32 ∧ t.live k q = true ∧
      t.freePages k = s.freePages k - s.newPages k q d.ntok ∧ Dispatched s t k x.num w 0xFF true ∧ Apart s t) := by
  obtain ⟨t, hexec, hrec, hfree, hdisp, hapart⟩ := kvAnswers ht k.isLt hx h (by decide) hin (by decide) ha (exec_kextend k x s)
  have hp := s.kvHeld_samePool (k := k) (w := w) bk hx
  have hrecords := hp.records
  obtain ⟨hq, hfit⟩ := ha.extend
  rw [State.extendAll_one hcow, Option.map_eq_some_iff] at hext
  obtain ⟨g, hg, -⟩ := hext
  obtain ⟨g', hg'⟩ := hrecords.growPages k.isLt hg
  have hlen := hrecords.extLen k.isLt q
  have hnew : (s.kvHeld k x.num w bk).newPages k q d.ntok = s.newPages k q d.ntok := by rw [State.newPages, hlen, State.newPages]
  rw [← hlen, ← hnew] at hg'
  have heffect : ((s.kvHeld k x.num w bk).kvExtend k d [q]).1 = g'.extended k q ((s.kvHeld k x.num w bk).extLen k q) d.ntok := by
    rw [State.kvExtend, State.extendAll_one (by rwa [hlen, hrecords.entry k.isLt, hrecords.refs k.isLt]), hg']
    rfl
  obtain ⟨hseqLen, hlive, hpages⟩ := State.extended_spec k.isLt (hrecords.poolSound k.isLt hsound) (by rwa [hp.layout.stake])
    (by rwa [hlen, hp.layout.ptEntries k.isLt]) (ht.ntok_pos (by decide)) (by
      rw [hp.layout.seqAt k.isLt, hp.layout.entryAt k.isLt, hp.layout.ptEntries k.isLt]
      exact hp.layout.writable hw) hg'
  rw [State.kvEffect_kextend, heffect] at hrec hfree
  refine ⟨t, hexec, ?_, ?_, ?_, hdisp, hapart⟩
  · rw [hrec.seqLen k.isLt, hseqLen, hlen]
  · rw [hrec.live k.isLt, hlive]
  · rw [hfree, hpages, hp.freePages k.isLt, hnew]

theorem kwrite_answers {q : Nat} (ht : KvTaken s k 0x21 w d bk [q]) (ha : KvAllowed s k 0x21 d [q]) (hn : d.ntok = 1) :
    Answers (exec (.kwrite k x) s) (fun t => MemoryBut [(s.lastRow k d q, d.colb)] s t ∧
      (s.unreadable d.addr d.colb = false → Lands s (s.lastRow k d q) d.colb → t.bytes (s.lastRow k d q) d.colb = s.bytes d.addr d.colb) ∧
      Dispatched s t k x.num w 0xFF true ∧ Apart s t) := by
  obtain ⟨t, hexec, hrec, -, hdisp, hapart⟩ := kvAnswers ht k.isLt hx h (by decide) hin (by decide) ha (exec_kwrite k x s)
  have hp := s.kvHeld_samePool (k := k) (w := w) bk hx
  rw [State.kvEffect_kwrite, State.kvWrite_one _ _ _ hn, hp.records.lastRow k.isLt] at hrec
  refine ⟨t, hexec, ?_, fun hread hland => ?_, hdisp, hapart⟩
  · exact (State.copyPiece_memoryBut _ _ _ _ _).around hp.dry.same hrec.memory
  · rw [hrec.bytes, State.copyPiece_bytes _ _ _ _ k.isLt ((hp.unreadable _ _).trans hread) (hp.layout.lands_iff.mpr hland), hp.records.bytes]

theorem kshare_answers (ht : KvTaken s k 0x23 w d bk l) (ha : KvAllowed s k 0x23 d l) (hn : d.ntok ≤ 16)
    (hsep : Separate [(s.entryAt k d.seq2 0, 4), (s.pageAt k (s.entry k d.seq 0), 8), (s.seqAt k d.seq2, 16)])
    (hw : Writable [(s.entryAt k d.seq2 0, 4), (s.pageAt k (s.entry k d.seq 0), 8), (s.seqAt k d.seq2, 16)] s) :
    Answers (exec (.kshare k x) s) (fun t => t.entry k d.seq2 0 = s.entry k d.seq 0 ∧
      t.refs k (s.entry k d.seq 0) = (s.refs k (s.entry k d.seq 0) + 1) % 2 ^ 16 ∧ t.seqLen k d.seq2 = d.ntok ∧ t.live k d.seq2 = true ∧
      MemoryBut [(s.entryAt k d.seq2 0, 4), (s.pageAt k (s.entry k d.seq 0), 4), (s.seqAt k d.seq2, 16)] s t ∧
      Dispatched s t k x.num w 0xFF true ∧ Apart s t) := by
  obtain ⟨t, hexec, hrec, -, hdisp, hapart⟩ := kvAnswers ht k.isLt hx h (by decide) hin (by decide) ha (exec_kshare k x s)
  have hp := s.kvHeld_samePool (k := k) (w := w) bk hx
  have hrecords := hp.records
  have hspec := State.kvShare_spec (s.kvHeld k x.num w bk) k.isLt (ht.ntok_pos (by decide)) hn
  rw [hrecords.entry k.isLt, hrecords.refs k.isLt, hp.layout.entryAt k.isLt, hp.layout.pageAt k.isLt, hp.layout.seqAt k.isLt] at hspec
  obtain ⟨hentry, hrefs, hlen, hlive, hmem⟩ := hspec hsep (hp.layout.writable hw)
  rw [State.kvEffect_kshare] at hrec
  refine ⟨t, hexec, ?_, ?_, ?_, ?_, hmem.around hp.dry.same hrec.memory, hdisp, hapart⟩
  · rw [hrec.entry k.isLt, hentry]
  · rw [hrec.refs k.isLt, hrefs]
  · rw [hrec.seqLen k.isLt, hlen]
  · rw [hrec.live k.isLt, hlive]

theorem kfree_answers {q p : Nat} (ht : KvTaken s k 0x24 w d bk [q]) (ha : KvAllowed s k 0x24 d [q]) (h0 : 0 < s.seqLen k q)
    (hn : s.seqLen k q ≤ 16) (hpage : s.entry k q 0 = p) (hsep : Separate [(s.entryAt k q 0, 4), (s.pageAt k p, 8), (s.seqAt k q, 16)])
    (hw : Writable [(s.entryAt k q 0, 4), (s.pageAt k p, 8), (s.seqAt k q, 16)] s) :
    Answers (exec (.kfree k x) s) (fun t => t.live k q = false ∧ t.entry k q 0 = noPage ∧
      (s.refs k p = 1 → s.moors k p = 0 → (t.kv k).head = p ∧ t.num (t.pageAt k p + 4) 4 = (s.kv k).head % 2 ^ 32 ∧
        (s.freePages k + 1 < 2 ^ F.kvpSStatusFree.2 → t.freePages k = s.freePages k + 1)) ∧
      (1 < s.refs k p → t.refs k p = s.refs k p - 1 ∧ (t.kv k).head = (s.kv k).head) ∧
      (s.refs k p = 1 → s.moors k p ≠ 0 → t.pendingPage k p = true ∧ (t.kv k).head = (s.kv k).head) ∧
      MemoryBut [(s.entryAt k q 0, 4), (s.pageAt k p, 8), (s.seqAt k q, 16)] s t ∧ Dispatched s t k x.num w 0xFF true ∧ Apart s t) := by
  obtain ⟨t, hexec, hrec, hfree, hdisp, hapart⟩ := kvAnswers ht k.isLt hx h (by decide) hin (by decide) ha (exec_kfree k x s)
  have hpool := s.kvHeld_samePool (k := k) (w := w) bk hx
  have hrecords := hpool.records
  generalize s.kvHeld k x.num w bk = u at *
  rw [State.kvEffect_kfree] at hrec hfree
  rw [← hrecords.seqLen k.isLt] at h0 hn
  rw [← hrecords.entry k.isLt] at hpage
  have hw := hpool.layout.writable hw
  rw [← hpool.layout.entryAt k.isLt, ← hpool.layout.pageAt k.isLt, ← hpool.layout.seqAt k.isLt] at hsep hw ⊢
  rw [← hrecords.refs k.isLt, ← hrecords.moors k.isLt, ← hrecords.kv, ← hpool.freePages k.isLt]
  obtain ⟨hrefs, hpend, hnext⟩ := State.kvFree_page k.isLt h0 hn hpage hsep
  have hrefsLt : u.refs k p < 2 ^ 16 := u.num_lt _ 2
  have hland : Lands u (u.pageAt k p) 4 := Writable.landsFrom hw (n := 8) (by simp) (by decide) (by decide)
  have hlay : t.pageAt k p = u.pageAt k p :=
    (hrec.layout.pageAt k.isLt p).trans (((KvWork.refl u).kvFree k.isLt q).layout.pageAt k.isLt p)
  refine ⟨t, hexec, ?_, ?_, fun h1 hm => ⟨?_, ?_, fun hlt => ?_⟩, fun hmore => ⟨?_, ?_⟩, fun h1 hm => ⟨?_, ?_⟩,
    (State.kvFree_memoryBut k.isLt h0 hn hpage).around hpool.dry.same hrec.memory, hdisp, hapart⟩
  · rw [hrec.live k.isLt, State.kvFree_live k.isLt h0 hn hpage hw]
  · rw [hrec.entry k.isLt, State.kvFree_entry k.isLt h0 hn hpage hsep hw]
  · rw [hrec.kv, State.kvFree_kv h0 hn hpage, State.dropRef_freed (by omega) hm, State.freePage_head]
  · rw [hlay, hrec.num, hnext, State.dropRef_freed (by omega) hm, State.freePage_next]
    exact hw (u.pageAt k p, 8) (by simp) 4 4 (by simp) (by simp)
  · rw [hfree, State.kvFree_freePages h0 hn hpage, State.dropRef_freed (by omega) hm, State.freePage_freePages k.isLt, Nat.mod_eq_of_lt hlt]
  · rw [hrec.refs k.isLt, hrefs, State.dropRef_shared hmore, (SameLayout.refl u).refs_setPage k.isLt _ _ _ _ hland,
      Nat.mod_eq_of_lt (by omega)]
  · rw [hrec.kv, State.kvFree_kv h0 hn hpage, State.dropRef_shared hmore, State.setPage_kv]
  · rw [hrec.pendingPage k.isLt, hpend, State.dropRef_pending (by omega) hm, (SameLayout.refl u).pendingPage_setPage k.isLt _ _ _ _ hland]
  · rw [hrec.kv, State.kvFree_kv h0 hn hpage, State.dropRef_pending (by omega) hm, State.setPage_kv]

theorem kbasket_answers (ht : KvTaken s k 0x25 w d bk l) (ha : KvAllowed s k 0x25 d l)
    (hw : Writable [(d.basket, 64 + 320 * basketCount d (popcount 256 d.mask))] s) :
    Answers (exec (.kbasket k x) s) (fun t => t.num d.basket 8 = basketCount d (popcount 256 d.mask) ∧
      MemoryBut [(d.basket, 64 + 320 * basketCount d (popcount 256 d.mask))] s t ∧
      (∀ q, onesOf 256 d.mask = [q] → t.bytes (d.basket + 64) 17 = basketHead (s.stake k).level (s.seqLen k) [q] ++ toBytes 1 q) ∧
      Dispatched s t k x.num w 0xFF true ∧ Apart s t) := by
  obtain ⟨t, hexec, hrec, -, hdisp, hapart⟩ := kvAnswers ht k.isLt hx h (by decide) hin (by decide) ha (exec_kbasket k x s)
  have hp := s.kvHeld_samePool (k := k) (w := w) bk hx
  have hlen : (s.kvHeld k x.num w bk).seqLen k = s.seqLen k := funext (hp.records.seqLen k.isLt)
  rw [State.kvEffect_kbasket] at hrec
  refine ⟨t, hexec, ?_, (State.kvBaskets_memoryBut _ _ _).around hp.dry.same hrec.memory, fun q hq => ?_, hdisp, hapart⟩
  · rw [hrec.num, State.kvBaskets_count _ (hp.layout.writable hw)]
  · rw [hrec.bytes, State.kvBaskets_one _ (hp.layout.writable hw) (ht.coloff_ne rfl) hq, hp.layout.stake, hlen]

end

end Sys2Proof.Machine

open Sys2Proof Sys2Proof.Machine in
/-- Settles O30: each instruction issues at its dispatch, and what it leaves is what its effect leaves in the records that it names. -/
theorem kvGrowthAndRelease : Obligations.KvGrowthAndRelease := by
  have hstrm : ∀ x : Strm, x.num < 3 := fun x => by cases x <;> decide
  refine ⟨fun s k x w d bk l h hin => ⟨?_, ?_, ?_⟩, fun s k x w d bk l h hin => ⟨?_, ?_⟩⟩
  · rintro q r ht ha rfl hext len hcow hsound hw
    exact kextend_answers (hstrm x) h hin ht ha hext hcow hsound hw
  · rintro q ht ha rfl hn pos row
    exact kwrite_answers (hstrm x) h hin ht ha hn
  · intro ht ha hn p l hsep hw
    exact kshare_answers (hstrm x) h hin ht ha hn hsep hw
  · rintro q ht ha rfl h0 hn p l hsep hw
    exact kfree_answers (hstrm x) h hin ht ha h0 hn rfl hsep hw
  · intro ht ha n hw
    exact kbasket_answers (hstrm x) h hin ht ha hw

end
